-- ==== Sys2Proof/Word.lean ====
section
/-! DEFINITION. The byte, the counter word and the sparse table type. -/

namespace Sys2Proof

/-- A byte. -/
abbrev Byte := BitVec 8

/-- A 64-bit counter, which wraps (R455). -/
abbrev Ctr := BitVec 64

/-- A sparse table: rising keys, no entry equal to the table's default value. -/
abbrev Tab (α : Type) := List (Nat × α)

end Sys2Proof
end

