-- ==== Sys2Proof/Syntax.lean ====
section
/-! DEFINITION. The commands the block takes (spec/opcode_table.json) and their operands. -/

namespace Sys2Proof

/-- A request to Moaras as R385 to R388 lay it out. The rows of the mailbox commands carry the request that the host
placed in mailbox `box`; the payload of an INDIRECT request is the bytes read from host memory. -/
structure Req where
  /-- Mailbox 0 to 31 (R381). -/
  box : Nat
  /-- Flag bit 0 INDIRECT. -/
  indirect : Bool
  /-- Flag bit 1 STAGE. -/
  stage : Bool
  /-- Flag bit 2 ASYNC. -/
  async : Bool
  /-- Some reserved flag bit [15:3] is set. -/
  flagsRsvd : Bool
  /-- Tag; 0 means no duplicate detection. -/
  tag : Nat
  /-- Request payload length field. -/
  len : Nat
  /-- Staged set ID; 0 means live. -/
  setId : Nat
  /-- Payload bytes. -/
  payload : List Byte
  /-- Host address of the request payload, of the indirect block. -/
  payAddr : Nat
  /-- Response buffer host address of the indirect block. -/
  respAddr : Nat
  /-- Response buffer capacity of the indirect block. -/
  cap : Nat
  /-- A reserved byte of the indirect block is not 0. -/
  indRsvd : Bool
  /-- The read of an indirect payload ended without error. -/
  readOk : Bool
deriving DecidableEq, Repr

/-- A direct live request with tag 0 in mailbox `box`. -/
def Req.plain (box : Nat) (payload : List Byte) : Req :=
  { box, indirect := false, stage := false, async := false, flagsRsvd := false, tag := 0, len := payload.length,
    setId := 0, payload, payAddr := 0, respAddr := 0, cap := 0, indRsvd := false, readOk := true }

/-- A domain message as received (R423, R424): the header fields of its frames, the message that their ciphertext is under the
session of its sender, and their tags. -/
structure DomIn where
  /-- Ingress port. -/
  port : Nat
  /-- Destination MAC address of its frames. -/
  dst : Nat
  /-- Source MAC address of its frames. -/
  mac : Nat
  /-- Sender device index. -/
  sender : Nat
  /-- Receiver device index. -/
  receiver : Nat
  /-- Key epoch. -/
  keyEpoch : Nat
  /-- Sequence number of the first frame. -/
  seq : Nat
  /-- The FCS of its frames is good (R45). -/
  fcsOk : Bool
  /-- The bytes of a frame with a bad FCS, FCS left out: all that is known of it. -/
  raw : List Byte
  /-- The 16-byte tag of each frame. -/
  tags : List (List Byte)
  /-- Message ID. -/
  id : Nat
  /-- Message body. -/
  body : List Byte
deriving DecidableEq, Repr

/-- What the SPDM exchange of an enrolment shows of the partner (R452): asked of the message that ends the exchange. -/
structure EnrolShown where
  /-- The partner's chain ends at the Valvel Root CA. -/
  root : Bool
  /-- OU of the partner's Device Identity Key certificate. -/
  unit : List Byte
  /-- Every signature and message authentication code of the exchange verifies. -/
  proof : Bool
deriving DecidableEq, Repr

/-- The same with the index and the key it settles. -/
structure EnrolIn extends EnrolShown where
  /-- The index that the manager gives the worker. -/
  idx : Nat
  /-- Key hash of the partner's Device Identity Key. -/
  hash : List Byte
deriving DecidableEq, Repr

/-- A message to the SPDM responder (R448): in clear or a secured message. -/
structure SpdmIn where
  /-- A secured message: DOE object type 2, MCTP message type 0x06. -/
  secured : Bool
  /-- Its bytes. -/
  bytes : List Byte
deriving DecidableEq, Repr

/-- The commands of the block: one constructor for each row of spec/opcode_table.json. -/
inductive Instr where
  /-- MEM_GET_MAP (R32). -/
  | memGetMap (r : Req)
  /-- MEM_SET_REGIONS (R33). -/
  | memSetRegions (r : Req)
  /-- MEM_GET_HEALTH (R32). -/
  | memGetHealth (r : Req)
  /-- PORT_SET_MODE (R39). -/
  | portSetMode (r : Req)
  /-- PORT_GET_STATUS (R67). -/
  | portGetStatus (r : Req)
  /-- PORT_SET_MAC (R43). -/
  | portSetMac (r : Req)
  /-- PORT_SET_FLOW (R45). -/
  | portSetFlow (r : Req)
  /-- PORT_SET_THROTTLE (R54). -/
  | portSetThrottle (r : Req)
  /-- PORT_SET_EEE (R64). -/
  | portSetEee (r : Req)
  /-- PORT_SET_LANE_MAP (R40). -/
  | portSetLaneMap (r : Req)
  /-- PORT_GET_MARGIN (R65). -/
  | portGetMargin (r : Req)
  /-- PORT_GET_COUNTERS (R68). -/
  | portGetCounters (r : Req)
  /-- PORT_SET_ADMIN (R67). -/
  | portSetAdmin (r : Req)
  /-- PORT_SET_MARGIN (R65). -/
  | portSetMargin (r : Req)
  /-- PRISM_SET_PROFILE (R77). -/
  | prismSetProfile (r : Req)
  /-- PRISM_SET_SELECT (R92). -/
  | prismSetSelect (r : Req)
  /-- PRISM_SET_PORT (R86). -/
  | prismSetPort (r : Req)
  /-- PRISM_WRITE_RULE (R84). -/
  | prismWriteRule (r : Req)
  /-- PRISM_READ_RULE (R92). -/
  | prismReadRule (r : Req)
  /-- PRISM_GET_COUNTERS (R94). -/
  | prismGetCounters (r : Req)
  /-- PRISM_GET_RULE_COUNTERS (R93). -/
  | prismGetRuleCounters (r : Req)
  /-- PRISM_GET_EPOCH (R92). -/
  | prismGetEpoch (r : Req)
  /-- FWD_INSERT (R103). -/
  | fwdInsert (r : Req)
  /-- FWD_DELETE (R128). -/
  | fwdDelete (r : Req)
  /-- FWD_LOOKUP (R128). -/
  | fwdLookup (r : Req)
  /-- FWD_SET_VLAN (R114). -/
  | fwdSetVlan (r : Req)
  /-- FWD_SET_ROUTE (R118). -/
  | fwdSetRoute (r : Req)
  /-- FWD_SET_NEXTHOP (R117). -/
  | fwdSetNexthop (r : Req)
  /-- FWD_SET_ECMP (R119). -/
  | fwdSetEcmp (r : Req)
  /-- FWD_SET_TEMPLATE (R121). -/
  | fwdSetTemplate (r : Req)
  /-- FWD_SET_ROUTER (R100). -/
  | fwdSetRouter (r : Req)
  /-- FWD_SET_LEARN (R123). -/
  | fwdSetLearn (r : Req)
  /-- FWD_SET_AGING (R526). -/
  | fwdSetAging (r : Req)
  /-- FWD_FLUSH (R128). -/
  | fwdFlush (r : Req)
  /-- FWD_GET_COUNTERS (R129). -/
  | fwdGetCounters (r : Req)
  /-- FWD_GET_OCCUPANCY (R128). -/
  | fwdGetOccupancy (r : Req)
  /-- BUF_SET_CLASS (R133). -/
  | bufSetClass (r : Req)
  /-- BUF_SET_PORT_CLASS (R136). -/
  | bufSetPortClass (r : Req)
  /-- BUF_SET_HEADROOM (R150). -/
  | bufSetHeadroom (r : Req)
  /-- BUF_SET_PFC_TX (R148). -/
  | bufSetPfcTx (r : Req)
  /-- BUF_SET_WRED_PROFILE (R143). -/
  | bufSetWredProfile (r : Req)
  /-- BUF_SET_QUEUE (R143). -/
  | bufSetQueue (r : Req)
  /-- BUF_GET_STATUS (R159). -/
  | bufGetStatus (r : Req)
  /-- BUF_GET_PORT (R159). -/
  | bufGetPort (r : Req)
  /-- BUF_GET_COUNTERS (R160). -/
  | bufGetCounters (r : Req)
  /-- BUF_GET_POOLS (R157). -/
  | bufGetPools (r : Req)
  /-- FAB_SET_PARAMS (R175). -/
  | fabSetParams (r : Req)
  /-- FAB_SET_PORT (R165). -/
  | fabSetPort (r : Req)
  /-- FAB_GET_STATUS (R183). -/
  | fabGetStatus (r : Req)
  /-- FAB_GET_PAIR (R183). -/
  | fabGetPair (r : Req)
  /-- FAB_SET_PLANE (R180). -/
  | fabSetPlane (r : Req)
  /-- FAB_GET_COUNTERS (R184). -/
  | fabGetCounters (r : Req)
  /-- SCHED_SET_NODE (R198). -/
  | schedSetNode (r : Req)
  /-- SCHED_GET_NODE (R212). -/
  | schedGetNode (r : Req)
  /-- POL_SET (R206). -/
  | polSet (r : Req)
  /-- POL_GET (R212). -/
  | polGet (r : Req)
  /-- POL_SET_PORT (R201). -/
  | polSetPort (r : Req)
  /-- LOUPE_SET_PROFILE (R209). -/
  | loupeSetProfile (r : Req)
  /-- LOUPE_SET_QUEUE (R209). -/
  | loupeSetQueue (r : Req)
  /-- LOUPE_GET (R211). -/
  | loupeGet (r : Req)
  /-- SCHED_GET_COUNTERS (R213). -/
  | schedGetCounters (r : Req)
  /-- TIME_GET (R245). -/
  | timeGet (r : Req)
  /-- TIME_ADJUST (R217). -/
  | timeAdjust (r : Req)
  /-- TIME_SET_PTP (R232). -/
  | timeSetPtp (r : Req)
  /-- TIME_SET_PORT (R223). -/
  | timeSetPort (r : Req)
  /-- TIME_SET_PPS (R231). -/
  | timeSetPps (r : Req)
  /-- GATE_SET_LIST (R241). -/
  | gateSetList (r : Req)
  /-- GATE_GET_STATUS (R245). -/
  | gateGetStatus (r : Req)
  /-- TIME_GET_COUNTERS (R246). -/
  | timeGetCounters (r : Req)
  /-- FRER_SET_STREAM (R256). -/
  | frerSetStream (r : Req)
  /-- FRER_GET_STREAM (R270). -/
  | frerGetStream (r : Req)
  /-- FRER_SET_PORT (R248). -/
  | frerSetPort (r : Req)
  /-- FRER_RESET_STREAM (R270). -/
  | frerResetStream (r : Req)
  /-- RED_GET_HEALTH (R268). -/
  | redGetHealth (r : Req)
  /-- RED_SWITCHOVER (R270). -/
  | redSwitchover (r : Req)
  /-- RED_RESYNC (R267). -/
  | redResync (r : Req)
  /-- RED_GET_COUNTERS (R271). -/
  | redGetCounters (r : Req)
  /-- FIX_SET_CLUSTER (R289). -/
  | fixSetCluster (r : Req)
  /-- FIX_GET_FLOW (R305). -/
  | fixGetFlow (r : Req)
  /-- FIX_GET_LOG (R297). -/
  | fixGetLog (r : Req)
  /-- FIX_RELEASE (R297). -/
  | fixRelease (r : Req)
  /-- FIX_FLUSH (R289). -/
  | fixFlush (r : Req)
  /-- FIX_GET_RECEIPT (R305). -/
  | fixGetReceipt (r : Req)
  /-- LEAVEN_GET_CLUSTER (R305). -/
  | leavenGetCluster (r : Req)
  /-- LEAVEN_SET_EVENTS (R304). -/
  | leavenSetEvents (r : Req)
  /-- LEAVEN_GET_CORE (R303). -/
  | leavenGetCore (r : Req)
  /-- FIX_GET_COUNTERS (R306). -/
  | fixGetCounters (r : Req)
  /-- PROOF_SET_CLASS (R312). -/
  | proofSetClass (r : Req)
  /-- PROOF_SET_TARGET (R308). -/
  | proofSetTarget (r : Req)
  /-- PROOF_SET_STATE (R338). -/
  | proofSetState (r : Req)
  /-- PROOF_GET_TARGET (R338). -/
  | proofGetTarget (r : Req)
  /-- SHELF_SET (R319). -/
  | shelfSet (r : Req)
  /-- SHELF_GET (R338). -/
  | shelfGet (r : Req)
  /-- SHELF_SET_BUS (R333). -/
  | shelfSetBus (r : Req)
  /-- PROOF_GET_COUNTERS (R339). -/
  | proofGetCounters (r : Req)
  /-- DEV_GET_INFO (R403). -/
  | devGetInfo (r : Req)
  /-- DEV_GET_RESULT (R403). -/
  | devGetResult (r : Req)
  /-- DEV_ECHO (R403). -/
  | devEcho (r : Req)
  /-- DEV_RESTART (R403). -/
  | devRestart (r : Req)
  /-- DEV_GET_COUNTERS (R404). -/
  | devGetCounters (r : Req)
  /-- BAKE_OPEN (R406). -/
  | bakeOpen (r : Req)
  /-- BAKE_CHECK (R410). -/
  | bakeCheck (r : Req)
  /-- BAKE_COMMIT (R412). -/
  | bakeCommit (r : Req)
  /-- BAKE_ABORT (R407). -/
  | bakeAbort (r : Req)
  /-- BAKE_GET_SET (R433). -/
  | bakeGetSet (r : Req)
  /-- DOM_SET_PORT (R433). -/
  | domSetPort (r : Req)
  /-- DOM_ADMIT (R422). -/
  | domAdmit (r : Req)
  /-- DOM_GET_STATUS (R433). -/
  | domGetStatus (r : Req)
  /-- DOM_FORWARD (R421). -/
  | domForward (r : Req)
  /-- DOM_BAKE (R428). -/
  | domBake (r : Req)
  /-- DOM_ABORT (R429). -/
  | domAbort (r : Req)
  /-- DOM_LEAVE (R426). -/
  | domLeave (r : Req)
  /-- ID_GET_INFO (R454). -/
  | idGetInfo (r : Req)
  /-- ID_GET_CERT (R440). -/
  | idGetCert (r : Req)
  /-- ID_GET_MEASUREMENTS (R451). -/
  | idGetMeasurements (r : Req)
  /-- ID_WRITE_IMAGE (R454). -/
  | idWriteImage (r : Req)
  /-- ID_VERIFY_IMAGE (R444). -/
  | idVerifyImage (r : Req)
  /-- ID_SET_BOOT (R445). -/
  | idSetBoot (r : Req)
  /-- ID_COMMIT_SVN (R446). -/
  | idCommitSvn (r : Req)
  /-- ID_PIN_MANAGER (R452). -/
  | idPinManager (r : Req)
  /-- TEL_SET_MIRROR (R474). -/
  | telSetMirror (r : Req)
  /-- TEL_SET_PORT_MIRROR (R473). -/
  | telSetPortMirror (r : Req)
  /-- TEL_GET_MIRROR (R479). -/
  | telGetMirror (r : Req)
  /-- TEL_GET_DROPS (R458). -/
  | telGetDrops (r : Req)
  /-- TEL_GET_COUNTERS (R479). -/
  | telGetCounters (r : Req)
  /-- PWR_GET_STATUS (R502). -/
  | pwrGetStatus (r : Req)
  /-- PWR_SET_DROOP (R482). -/
  | pwrSetDroop (r : Req)
  /-- PWR_SET_THERMAL (R485). -/
  | pwrSetThermal (r : Req)
  /-- PWR_SLICE_RESET (R494). -/
  | pwrSliceReset (r : Req)
  /-- PWR_SLICE_PARK (R496). -/
  | pwrSlicePark (r : Req)
  /-- PWR_RESTORE (R493). -/
  | pwrRestore (r : Req)
  /-- PWR_GET_COUNTERS (R503). -/
  | pwrGetCounters (r : Req)
  /-- MBX_DOORBELL (R382). -/
  | mbxDoorbell (box : Nat) (ind : Option (List Byte))
  /-- MBX_RELEASE (R382). -/
  | mbxRelease (box : Nat)
  /-- MBX_AREA_WRITE (R384). -/
  | mbxAreaWrite (box : Nat) (off : Nat) (bytes : List Byte)
  /-- TIME_CAPTURE (R219). -/
  | timeCapture (fn : Nat)
  /-- TXTS_POP (R229). -/
  | txtsPop (fn : Nat) (slice : Nat)
  /-- DMA_START (R347). -/
  | dmaStart (fn : Nat) (ch : Nat) (w : BitVec 64)
  /-- DMA_STOP (R347). -/
  | dmaStop (fn : Nat) (ch : Nat) (w : BitVec 64)
  /-- DMA_ABORT (R357). -/
  | dmaAbort (fn : Nat) (ch : Nat) (w : BitVec 64)
  /-- DMA_DOORBELL (R364). -/
  | dmaDoorbell (fn : Nat) (ch : Nat) (w : BitVec 64)
  /-- DESCRIPTOR_FETCHED (R349). -/
  | descriptorFetched (ch : Nat) (bytes : List Byte)
  /-- STALE_DESC_REREAD (R351). -/
  | staleDescReread (ch : Nat) (bytes : List Byte)
  /-- DMA_TRANSFER_DONE (R357). -/
  | dmaTransferDone (ch : Nat) (err : Nat) (data : List Byte)
  /-- STRICT_FLUSH_DONE (R358). -/
  | strictFlushDone (ch : Nat)
  /-- TAIL_REFETCHED (R364). -/
  | tailRefetched (ch : Nat) (bytes : List Byte)
  /-- INT_PENDING_CLEAR (R369). -/
  | intPendingClear (fn : Nat) (k : Nat) (w : BitVec 64) (same : BitVec 64)
  /-- INT_MAP_WRITE (R369). -/
  | intMapWrite (fn : Nat) (n : Nat) (w : BitVec 64)
  /-- MSIX_UNMASK (R370). -/
  | msixUnmask (fn : Nat) (vec : Nat)
  /-- RESERVED_WRITE (R10). -/
  | reservedWrite (fn : Nat) (off : Nat) (size : Nat)
  /-- BAD_SIZE_ACCESS (R345). -/
  | badSizeAccess (fn : Nat) (off : Nat) (size : Nat) (write : Bool)
  /-- REGISTER_WRITE (R11). -/
  | registerWrite (fn : Nat) (off : Nat) (size : Nat) (w : BitVec 64)
  /-- SWEEP_SNAP (R460). -/
  | sweepSnap (fn : Nat) (w : BitVec 64)
  /-- SWEEP_RING_RESET (R464). -/
  | sweepRingReset (fn : Nat) (loupe : Bool) (w : BitVec 64)
  /-- SWEEP_HEAD_WRITE (R464). -/
  | sweepHeadWrite (fn : Nat) (loupe : Bool) (w : BitVec 64)
  /-- EVT_RING_RESET (R471). -/
  | evtRingReset (fn : Nat) (w : BitVec 64)
  /-- EVT_ENABLE_WRITE (R470). -/
  | evtEnableWrite (fn : Nat) (w : BitVec 64)
  /-- EVT_HEAD_WRITE (R470). -/
  | evtHeadWrite (fn : Nat) (w : BitVec 64)
  /-- PORST_N_LOW (R489). -/
  | porstNLow
  /-- PORST_N_RISE (R491). -/
  | porstNRise (role : Nat)
  /-- WRST_N_LOW (R489). -/
  | wrstNLow
  /-- WRST_N_RISE (R491). -/
  | wrstNRise
  /-- MOARAS_BOOT_DONE (R491). -/
  | moarasBootDone
  /-- SUPPLY_FAULT (R510). -/
  | supplyFault
  /-- PCIE_FUNCTION_RESET (R343). -/
  | pcieFunctionReset (fn : Nat) (kind : Nat)
  /-- HOST_LINK_LOSS (R343). -/
  | hostLinkLoss (fn : Nat)
  /-- D3HOT_ENTRY (R343). -/
  | d3hotEntry (fn : Nat)
  /-- DROOP_TRIP (R480). -/
  | droopTrip (slice : Nat)
  /-- STRETCH_HOLD_END (R480). -/
  | stretchHoldEnd (slice : Nat) (recovered : Bool)
  /-- THERMAL_SAMPLE (R485). -/
  | thermalSample (readings : List Int)
  /-- THERMAL_CLEAR_TIMER (R485). -/
  | thermalClearTimer (trip : Bool)
  /-- LIFE_HOUR_TICK (R501). -/
  | lifeHourTick (avg : Int)
  /-- HBM_CORRECTABLE_ERROR (R500). -/
  | hbmCorrectableError (stack : Nat) (pc : Nat) (row : Nat)
  /-- HBM_UNCORRECTABLE_READ (R500). -/
  | hbmUncorrectableRead (stack : Nat) (pc : Nat) (region : Nat) (item : Nat)
  /-- HBM_PC_SPARE_DONE (R500). -/
  | hbmPcSpareDone (stack : Nat)
  /-- PPS_IN_EDGE (R230). -/
  | ppsInEdge
  /-- PPS_IN_TIMEOUT (R230). -/
  | ppsInTimeout
  /-- PPS_OUT_EDGE (R231). -/
  | ppsOutEdge
  /-- FRAME_INGRESS (R21). -/
  | frameIngress (port : Nat) (bytes : List Byte) (full : Bool)
  /-- FRAME_TAIL_RECEIVED (R44). -/
  | frameTailReceived (pkt : Nat) (fcsOk : Bool)
  /-- RECIRCULATION_PASS (R90). -/
  | recirculationPass (slice : Nat)
  /-- MIRROR_QUEUE_ADMIT (R476). -/
  | mirrorQueueAdmit (slice : Nat)
  /-- PAUSE_FRAME_RECEIVED (R46). -/
  | pauseFrameReceived (port : Nat) (bytes : List Byte) (fcsOk : Bool)
  /-- PFC_FRAME_RECEIVED (R46). -/
  | pfcFrameReceived (port : Nat) (bytes : List Byte) (fcsOk : Bool)
  /-- PAUSE_EXPIRY (R47). -/
  | pauseExpiry (port : Nat) (tc : Nat)
  /-- PFC_WATCHDOG_EXPIRY (R50). -/
  | pfcWatchdogExpiry (port : Nat) (tc : Nat)
  /-- PFC_STORM_END_TIMER (R50). -/
  | pfcStormEndTimer (port : Nat) (tc : Nat)
  /-- PFC_REFRESH_TIMER (R148). -/
  | pfcRefreshTimer (port : Nat)
  /-- LINK_DOWN (R47). -/
  | linkDown (port : Nat)
  /-- LINK_UP (R53). -/
  | linkUp (port : Nat)
  /-- LT_CAP_RECEIVED (R56). -/
  | ltCapReceived (port : Nat) (bytes : List Byte) (fcsOk : Bool)
  /-- LT_REQ_RECEIVED (R58). -/
  | ltReqReceived (port : Nat) (bytes : List Byte) (fcsOk : Bool)
  /-- LT_ACK_RECEIVED (R57). -/
  | ltAckReceived (port : Nat) (bytes : List Byte) (fcsOk : Bool)
  /-- LT_NAK_RECEIVED (R59). -/
  | ltNakReceived (port : Nat) (bytes : List Byte) (fcsOk : Bool)
  /-- LT_SWITCH_RECEIVED (R57). -/
  | ltSwitchReceived (port : Nat) (bytes : List Byte) (fcsOk : Bool)
  /-- LT_CAP_TICK (R56). -/
  | ltCapTick (port : Nat)
  /-- LT_CAP_TIMEOUT (R56). -/
  | ltCapTimeout (port : Nat)
  /-- LT_UTIL_WINDOW (R60). -/
  | ltUtilWindow (port : Nat) (txBytes : Nat) (rxBytes : Nat)
  /-- LT_REQ_TIMEOUT (R59). -/
  | ltReqTimeout (port : Nat)
  /-- LT_SWITCH_TIMEOUT (R59). -/
  | ltSwitchTimeout (port : Nat) (aligned : Bool)
  /-- LPI_IDLE_TIMER (R64). -/
  | lpiIdleTimer (port : Nat)
  /-- MARGIN_SAMPLE (R65). -/
  | marginSample (lane : Nat) (height : Nat) (width : Nat)
  /-- DATAPATH_FAILURE (R66). -/
  | datapathFailure (lane : Nat)
  /-- VOQ_REQUEST (R163). -/
  | voqRequest (slice : Nat) (voq : Nat)
  /-- GRANT_DECISION (R192). -/
  | grantDecision (port : Nat)
  /-- GRANT_RECEIVED (R163). -/
  | grantReceived (slice : Nat) (voq : Nat)
  /-- STANDING_CREDIT_TIMEOUT (R166). -/
  | standingCreditTimeout (slice : Nat) (voq : Nat)
  /-- CREDIT_RECALL (R166). -/
  | creditRecall (slice : Nat) (voq : Nat)
  /-- CREDIT_RETURN_RECEIVED (R166). -/
  | creditReturnReceived (slice : Nat) (voq : Nat)
  /-- CELL_SEND (R170). -/
  | cellSend (slice : Nat)
  /-- CELL_ARRIVED (R176). -/
  | cellArrived (link : Nat) (crcOk : Bool)
  /-- LINK_NAK_RECEIVED (R174). -/
  | linkNakReceived (link : Nat)
  /-- LINK_ACK_TIMEOUT (R174). -/
  | linkAckTimeout (link : Nat)
  /-- GAP_TIMEOUT (R178). -/
  | gapTimeout (src : Nat) (dst : Nat)
  /-- RELEASE_CREDIT_RECEIVED (R172). -/
  | releaseCreditReceived (src : Nat) (dst : Nat)
  /-- PLANE_FAULT (R181). -/
  | planeFault (plane : Nat) (cause : Nat)
  /-- PLANE_SWITCHOVER_DONE (R181). -/
  | planeSwitchoverDone
  /-- STANDBY_TEST_LOSS (R180). -/
  | standbyTestLoss (plane : Nat)
  /-- PLANE_RESYNC_DONE (R180). -/
  | planeResyncDone (plane : Nat) (pass : Bool)
  /-- TRANSMIT_DECISION (R192). -/
  | transmitDecision (port : Nat)
  /-- FRAME_TX_COMPLETE (R172). -/
  | frameTxComplete (port : Nat)
  /-- SHAPER_REFILL (R195). -/
  | shaperRefill (node : Nat)
  /-- POLICER_REFILL (R202). -/
  | policerRefill (pol : Nat)
  /-- WRED_AVERAGE_UPDATE (R144). -/
  | wredAverageUpdate (queue : Nat)
  /-- LOUPE_SAMPLE (R207). -/
  | loupeSample (slice : Nat)
  /-- SPILL_READBACK (R153). -/
  | spillReadback (slice : Nat) (voq : Nat)
  /-- GATE_EVENT (R236). -/
  | gateEvent (port : Nat)
  /-- TS_FIFO_RELAY (R226). -/
  | tsFifoRelay (slice : Nat)
  /-- PTP_MESSAGE_PROCESS (R232). -/
  | ptpMessageProcess (port : Nat) (bytes : List Byte)
  /-- PTP_ANNOUNCE_TIMEOUT (R216). -/
  | ptpAnnounceTimeout
  /-- LEARN_INSERT (R122). -/
  | learnInsert (slice : Nat)
  /-- AGING_VISIT (R124). -/
  | agingVisit (place : Nat)
  /-- SCRUB_READ (R127). -/
  | scrubRead (table : Nat) (idx : Nat) (bad : Bool)
  /-- PARITY_RESTORE (R126). -/
  | parityRestore (table : Nat) (idx : Nat)
  /-- TABLE_NORMALISE (R112). -/
  | tableNormalise
  /-- FRER_RESET_TIMER (R254). -/
  | frerResetTimer (stream : Nat)
  /-- FRER_LATENT_TEST (R258). -/
  | frerLatentTest (stream : Nat)
  /-- FRER_LATENT_RESET (R258). -/
  | frerLatentReset (stream : Nat)
  /-- CORE_FAILURE (R263). -/
  | coreFailure (cluster : Nat) (core : Nat)
  /-- CORE_WATCHDOG_EXPIRY (R262). -/
  | coreWatchdogExpiry (cluster : Nat) (core : Nat)
  /-- CORE_SUBSTITUTION (R263). -/
  | coreSubstitution (cluster : Nat) (bankBad : Bool)
  /-- SPARE_SELFTEST_DONE (R262). -/
  | spareSelftestDone (cluster : Nat) (core : Nat) (pass : Bool)
  /-- MP_HEARTBEAT_TICK (R264). -/
  | mpHeartbeatTick (beatA : Bool) (beatB : Bool) (digestOk : Bool)
  /-- MP_FAULT (R266). -/
  | mpFault (cause : Nat)
  /-- MP_FAILOVER_DONE (R266). -/
  | mpFailoverDone
  /-- MP_RESTART_DONE (R267). -/
  | mpRestartDone (mp : Nat) (pass : Bool)
  /-- SKIP_NOTICE_ARRIVAL (R284). -/
  | skipNoticeArrival (cluster : Nat)
  /-- FIX_WORK_ITEM_DONE (R289). -/
  | fixWorkItemDone (cluster : Nat) (core : Nat)
  /-- FIX_LOG_WRITE_TIMEOUT (R30). -/
  | fixLogWriteTimeout (cluster : Nat) (pos : Nat)
  /-- BATCH_TIMER (R289). -/
  | batchTimer (cluster : Nat)
  /-- BATCH_CLOSE (R290). -/
  | batchClose (cluster : Nat)
  /-- RECEIPT_SIGNED (R293). -/
  | receiptSigned (cluster : Nat)
  /-- HOLD_TIMER_EXPIRY (R316). -/
  | holdTimerExpiry (target : Nat)
  /-- IDLE_SPINDOWN_TIMER (R321). -/
  | idleSpindownTimer (target : Nat)
  /-- PARK_DRAIN_RELEASE (R318). -/
  | parkDrainRelease (target : Nat)
  /-- POLL_CYCLE_START (R333). -/
  | pollCycleStart (bus : Nat)
  /-- POLL_SLOT (R333). -/
  | pollSlot (bus : Nat)
  /-- SHELF_STATUS_RECEIVED (R332). -/
  | shelfStatusReceived (bus : Nat) (payload : List Byte)
  /-- SHELF_ACK_RECEIVED (R331). -/
  | shelfAckReceived (bus : Nat) (payload : List Byte)
  /-- SHELF_IDENT_RECEIVED (R331). -/
  | shelfIdentReceived (bus : Nat) (payload : List Byte)
  /-- SHELF_REPLY_TIMEOUT (R334). -/
  | shelfReplyTimeout (bus : Nat)
  /-- HPF_POINTER_MISMATCH (R374). -/
  | hpfPointerMismatch (fifo : Nat)
  /-- HPF_PACKET_COMMIT (R372). -/
  | hpfPacketCommit (fifo : Nat)
  /-- POOL_ALLOC (R156). -/
  | poolAlloc (size : Nat) (block : Nat)
  /-- POOL_FREE (R157). -/
  | poolFree (ptr : Nat) (block : Nat)
  /-- SWEEP_INSTANT (R460). -/
  | sweepInstant
  /-- SWEEP_DUMP_WRITTEN (R463). -/
  | sweepDumpWritten
  /-- BAKE_DRAIN_TIMEOUT (R87). -/
  | bakeDrainTimeout
  /-- BAKE_PREPARE_DONE (R412). -/
  | bakePrepareDone
  /-- BAKE_INSTANT (R417). -/
  | bakeInstant
  /-- HEARTBEAT_TICK (R426). -/
  | heartbeatTick
  /-- MANAGER_LOSS_TIMEOUT (R426). -/
  | managerLossTimeout
  /-- HEARTBEAT (R426). -/
  | heartbeat (m : DomIn)
  /-- HEARTBEAT_ACK (R426). -/
  | heartbeatAck (m : DomIn)
  /-- RECEIVED (R425). -/
  | received (m : DomIn)
  /-- DOMAIN_RESEND_TIMEOUT (R425). -/
  | domainResendTimeout (peer : Nat) (id : Nat)
  /-- FORWARD_REQ (R421). -/
  | forwardReq (m : DomIn)
  /-- FORWARD_RSP (R421). -/
  | forwardRsp (m : DomIn)
  /-- PREPARE (R428). -/
  | prepare (m : DomIn)
  /-- VOTE (R428). -/
  | vote (m : DomIn)
  /-- COMMIT (R428). -/
  | commit (m : DomIn)
  /-- ACK (R428). -/
  | ack (m : DomIn)
  /-- GO (R430). -/
  | go (m : DomIn)
  /-- ABORT (R429). -/
  | abort (m : DomIn)
  /-- OUTCOME_QUERY (R430). -/
  | outcomeQuery (m : DomIn)
  /-- OUTCOME (R430). -/
  | outcome (m : DomIn)
  /-- OUTCOME_QUERY_TIMER (R430). -/
  | outcomeQueryTimer
  /-- VOTE_DEADLINE (R429). -/
  | voteDeadline
  /-- ACK_DEADLINE (R429). -/
  | ackDeadline
  /-- ENROL (R452). -/
  | enrol (m : DomIn) (idx : Nat) (hash : List Byte) (x : EnrolShown)
  /-- ENROL_TICK (R452). -/
  | enrolTick
  /-- KEY_UPDATE_TIMER (R453). -/
  | keyUpdateTimer (peer : Nat)
  /-- SPDM_REQUEST (R449). -/
  | spdmRequest (transport : Nat) (m : SpdmIn)
  /-- MOARAS_WATCHDOG (R487). -/
  | moarasWatchdog (cause : Nat)
  /-- MOARAS_RESTART_DONE (R401). -/
  | moarasRestartDone
  /-- SLICE_FAULT (R487). -/
  | sliceFault (slice : Nat)
  /-- SLICE_RESTORE_DONE (R494). -/
  | sliceRestoreDone (slice : Nat)
  /-- LT_RECEIVERS_LOCKED (R57). -/
  | ltReceiversLocked (port : Nat)
  /-- LT_ALIGNMENT_LOST (R59). -/
  | ltAlignmentLost (port : Nat)
  /-- SPARE_DATAPATH_FAILED (R66). -/
  | spareDatapathFailed (group : Nat)
  /-- SHELF_REPLY_DISCARDED (R334). -/
  | shelfReplyDiscarded (bus : Nat) (badCrc : Bool)
  /-- DMA_READ_ERROR (R353). -/
  | dmaReadError (ch : Nat)
  /-- PCIE_LINK_UP (R491). -/
  | pcieLinkUp (fn : Nat) (speed : Nat) (width : Nat) (flit : Bool)
  /-- SUPPLIES_VALID (R510). -/
  | suppliesValid
  /-- TIME_SLEW_COMPLETE (R217). -/
  | timeSlewComplete
  /-- PPS_OUT_FALL (R231). -/
  | ppsOutFall
  /-- PTP_INTERVAL_TICK (R232). -/
  | ptpIntervalTick
  /-- LPI_WAKE_COMPLETE (R64). -/
  | lpiWakeComplete (port : Nat)
deriving DecidableEq, Repr

end Sys2Proof
end

