-- ==== Sys2Proof/Machine/Bits.lean ====
section
/-! DEFINITION. Bit fields, byte order and sign extension. -/

namespace Sys2Proof.Machine

/-- The `n` low-order bytes of `v`, least significant first (R8). -/
def le : Nat → Nat → List Byte
  | 0, _ => []
  | n + 1, v => BitVec.ofNat 8 v :: le n (v / 256)

/-- The `n` low-order bytes of `v` in network order (R8). -/
def be (n v : Nat) : List Byte :=
  (le n v).reverse

/-- The number that little-endian bytes spell. -/
def ofLe : List Byte → Nat
  | [] => 0
  | b :: r => b.toNat + 256 * ofLe r

/-- The number that bytes in network order spell. -/
def ofBe (l : List Byte) : Nat :=
  l.foldl (fun a b => 256 * a + b.toNat) 0

/-- `n` bytes of `l` from offset `o`. -/
def slice (l : List Byte) (o n : Nat) : List Byte :=
  (l.drop o).take n

/-- The little-endian field of `n` bytes at offset `o` of a payload. -/
def rd (l : List Byte) (o n : Nat) : Nat :=
  ofLe (slice l o n)

/-- The field in network order of `n` bytes at offset `o` of a frame. -/
def rdBe (l : List Byte) (o n : Nat) : Nat :=
  ofBe (slice l o n)

/-- `v` as a two's complement number of `w` bits. -/
def signed (w v : Nat) : Int :=
  if 2 ^ (w - 1) ≤ v % 2 ^ w then (v % 2 ^ w : Nat) - (2 ^ w : Nat) else (v % 2 ^ w : Nat)

/-- The `w`-bit two's complement code of `i`. -/
def unsigned (w : Nat) (i : Int) : Nat :=
  (i % (2 ^ w : Nat)).toNat

/-- Signed little-endian field. -/
def rdI (l : List Byte) (o n : Nat) : Int :=
  signed (8 * n) (rd l o n)

/-- Bits [hi:lo] of `v` (R7). -/
def bits (v hi lo : Nat) : Nat :=
  v / 2 ^ lo % 2 ^ (hi + 1 - lo)

/-- Bit `i` of `v`. -/
def bit (v i : Nat) : Bool :=
  v / 2 ^ i % 2 == 1

/-- `v` with bit `i` set. -/
def setBit (v i : Nat) : Nat :=
  if bit v i then v else v + 2 ^ i

/-- `v` with bit `i` cleared. -/
def clrBit (v i : Nat) : Nat :=
  if bit v i then v - 2 ^ i else v

/-- `v` with bit `i` equal to `b`. -/
def putBit (v i : Nat) (b : Bool) : Nat :=
  if b then setBit v i else clrBit v i

/-- 1 or 0. -/
def b2n (b : Bool) : Nat :=
  if b then 1 else 0

/-- The indices below `n` whose bit is set in `v`, rising. -/
def bitList (n v : Nat) : List Nat :=
  (List.range n).filter (bit v)

/-- The number of bits set among the low `n`. -/
def popCount (n v : Nat) : Nat :=
  (bitList n v).length

/-- `l` cut or zero-filled to `n` bytes. -/
def padTo (n : Nat) (l : List Byte) : List Byte :=
  l.take n ++ List.replicate (n - l.length) 0

/-- All bytes are zero. -/
def allZero (l : List Byte) : Bool :=
  l.all (· == 0)

/-- `a` divided by `b`, rounded up. -/
def ceilDiv (a b : Nat) : Nat :=
  (a + b - 1) / b

/-- `l` without the listed element. -/
def without (l : List Nat) (n : Nat) : List Nat :=
  l.filter (· != n)

/-- A rising list without repeats, with `n` added. -/
def insertRising (n : Nat) : List Nat → List Nat
  | [] => [n]
  | m :: r => if n < m then n :: m :: r else if n = m then m :: r else m :: insertRising n r

/-- `l` with element `i` replaced. -/
def setAt {α : Type} (l : List α) (i : Nat) (v : α) : List α :=
  l.set i v

/-- An even-address view of bytes as little-endian numbers of `n` bytes each. -/
def chunks (n : Nat) (l : List Byte) : List Nat :=
  (List.range (l.length / n)).map (fun i => rd l (n * i) n)

/-- Bytes of an ASCII string. -/
def ascii (t : String) : List Byte :=
  t.toList.map (fun c => BitVec.ofNat 8 c.toNat)

end Sys2Proof.Machine
end

