-- ==== Sys2Proof/Machine/Digest.lean ====
section
/-! DEFINITION. The cyclic redundancy codes and the SHA-256 digest that the spec names. -/

namespace Sys2Proof.Machine

/-- One bit of a reflected CRC register of width `w`. -/
def crcBitR {w : Nat} (poly c : BitVec w) : BitVec w :=
  if c.getLsbD 0 then (c >>> 1) ^^^ poly else c >>> 1

/-- One byte of a reflected CRC. -/
def crcByteR {w : Nat} (poly c : BitVec w) (b : Byte) : BitVec w :=
  (List.range 8).foldl (fun a _ => crcBitR poly a) (c ^^^ b.setWidth w)

/-- A reflected CRC with all ones as initial value and final XOR. -/
def crcR {w : Nat} (poly : BitVec w) (l : List Byte) : BitVec w :=
  ~~~ (l.foldl (crcByteR poly) (BitVec.allOnes w))

/-- CRC-32C (Castagnoli), reflected polynomial 0x82F63B78 (R96, R391). -/
def crc32c (l : List Byte) : BitVec 32 :=
  crcR 0x82F63B78 l

/-- The IEEE 802.3 CRC-32, reflected polynomial 0xEDB88320 (R96). -/
def crc32 (l : List Byte) : BitVec 32 :=
  crcR 0xEDB88320 l

/-- The NVMe CRC-64: polynomial 0xAD93D23594C93659 in reflected form (R288). -/
def crc64 (l : List Byte) : BitVec 64 :=
  crcR 0x9A6C9329AC4BC9B5 l

/-- CRC-16/CCITT: polynomial 0x1021, initial value 0xFFFF, neither reflected nor complemented (the rule of the Shelf
Link frame, R328). -/
def crc16 (l : List Byte) : BitVec 16 :=
  l.foldl (fun (c : BitVec 16) (b : Byte) => (List.range 8).foldl
    (fun (a : BitVec 16) _ => if a.getLsbD 15 then (a <<< 1) ^^^ 0x1021#16 else a <<< 1)
    (c ^^^ BitVec.ofNat 16 (256 * b.toNat))) 0xFFFF#16

/-! #### The constants of FIPS 180-4, by their definition there: first bits of the fractional parts of roots of primes -/

/-- A number below 441 is prime. -/
def isPrime (n : Nat) : Bool := decide (2 ≤ n) && (List.range 21).all (fun d => d < 2 || n ≤ d || n % d != 0)

/-- The first 80 primes. -/
def shaPrimes : List Nat := (List.range 410).filter isPrime

/-- The largest `r + y`, `y` below 2^n, whose `k`-th power is at most `x`, bit by bit from the top. -/
def rootBits (k x : Nat) : Nat → Nat → Nat
  | 0, r => r
  | n + 1, r => rootBits k x n (if (r + 2 ^ n) ^ k ≤ x then r + 2 ^ n else r)

/-- The first `w` bits of the fractional part of the `k`-th root of `p`, `p` below 512. -/
def rootFraction (k w p : Nat) : BitVec w := BitVec.ofNat w (rootBits k (p * 2 ^ (k * w)) (w + 5) 0)

/-- Round constants of SHA-256: cube roots of the first 64 primes. -/
def sha256K : List (BitVec 32) := (shaPrimes.take 64).map (rootFraction 3 32)

/-- The eight working words. -/
structure Sha where
  a : BitVec 32
  b : BitVec 32
  c : BitVec 32
  d : BitVec 32
  e : BitVec 32
  f : BitVec 32
  g : BitVec 32
  h : BitVec 32
deriving DecidableEq, Repr

/-- Initial hash value of SHA-256: square roots of the first eight primes. -/
def Sha.start : Sha :=
  { a := rootFraction 2 32 2, b := rootFraction 2 32 3, c := rootFraction 2 32 5, d := rootFraction 2 32 7,
    e := rootFraction 2 32 11, f := rootFraction 2 32 13, g := rootFraction 2 32 17, h := rootFraction 2 32 19 }

/-- The next message-schedule word from the sixteen before it, oldest first. -/
def shaNext (w : List (BitVec 32)) : BitVec 32 :=
  let x := w.getD 1 0
  let y := w.getD 14 0
  let s0 := x.rotateRight 7 ^^^ x.rotateRight 18 ^^^ (x >>> 3)
  let s1 := y.rotateRight 17 ^^^ y.rotateRight 19 ^^^ (y >>> 10)
  w.getD 0 0 + s0 + w.getD 9 0 + s1

/-- One round with constant `k` and schedule word `w`. -/
def shaRound (v : Sha) (k w : BitVec 32) : Sha :=
  let s1 := v.e.rotateRight 6 ^^^ v.e.rotateRight 11 ^^^ v.e.rotateRight 25
  let ch := (v.e &&& v.f) ^^^ (~~~ v.e &&& v.g)
  let t1 := v.h + s1 + ch + k + w
  let s0 := v.a.rotateRight 2 ^^^ v.a.rotateRight 13 ^^^ v.a.rotateRight 22
  let maj := (v.a &&& v.b) ^^^ (v.a &&& v.c) ^^^ (v.b &&& v.c)
  { a := t1 + (s0 + maj), b := v.a, c := v.b, d := v.c, e := v.d + t1, f := v.e, g := v.f, h := v.g }

/-- The rounds of one block; `w` is the window of the next sixteen schedule words. -/
def shaRounds : List (BitVec 32) → List (BitVec 32) → Sha → Sha
  | [], _, v => v
  | k :: ks, w, v => shaRounds ks (w.drop 1 ++ [shaNext w]) (shaRound v k (w.getD 0 0))

/-- One 64-byte block. -/
def shaBlock (v : Sha) (blk : List Byte) : Sha :=
  let w := (List.range 16).map (fun i => BitVec.ofNat 32 (rdBe blk (4 * i) 4))
  let r := shaRounds sha256K w v
  { a := v.a + r.a, b := v.b + r.b, c := v.c + r.c, d := v.d + r.d, e := v.e + r.e, f := v.f + r.f,
    g := v.g + r.g, h := v.h + r.h }

/-- The blocks of a padded message, `n` of them. -/
def shaBlocks : Nat → List Byte → Sha → Sha
  | 0, _, v => v
  | n + 1, l, v => shaBlocks n (l.drop 64) (shaBlock v (l.take 64))

/-- A message padded to whole blocks. -/
def shaPad (l : List Byte) : List Byte :=
  l ++ [0x80] ++ List.replicate ((119 - l.length % 64) % 64) 0 ++ be 8 (8 * l.length)

/-- SHA-256 (FIPS 180-4), 32 bytes in network order. -/
def sha256 (l : List Byte) : List Byte :=
  let p := shaPad l
  let v := shaBlocks (p.length / 64) p Sha.start
  [v.a, v.b, v.c, v.d, v.e, v.f, v.g, v.h].flatMap (fun x => be 4 x.toNat)

end Sys2Proof.Machine
end

