-- ==== Sys2Proof/Machine/Digest384.lean ====
section
/-! DEFINITION. The SHA-384 digest of the measurements and images (R436, R443, R451). -/

namespace Sys2Proof.Machine

/-- Round constants of SHA-512 (FIPS 180-4): cube roots of the first 80 primes. -/
def sha512K : List (BitVec 64) := shaPrimes.map (rootFraction 3 64)

/-- The eight working words of SHA-384. -/
structure Sha5 where
  a : BitVec 64
  b : BitVec 64
  c : BitVec 64
  d : BitVec 64
  e : BitVec 64
  f : BitVec 64
  g : BitVec 64
  h : BitVec 64
deriving DecidableEq, Repr

/-- Initial hash value of SHA-384: square roots of the ninth to sixteenth primes. -/
def Sha5.start : Sha5 :=
  { a := rootFraction 2 64 23, b := rootFraction 2 64 29, c := rootFraction 2 64 31, d := rootFraction 2 64 37,
    e := rootFraction 2 64 41, f := rootFraction 2 64 43, g := rootFraction 2 64 47, h := rootFraction 2 64 53 }

/-- The next message-schedule word after the sixteen before it, oldest first. -/
def sha5Next (w : List (BitVec 64)) : BitVec 64 :=
  let x := w.getD 1 0
  let y := w.getD 14 0
  let s0 := x.rotateRight 1 ^^^ x.rotateRight 8 ^^^ (x >>> 7)
  let s1 := y.rotateRight 19 ^^^ y.rotateRight 61 ^^^ (y >>> 6)
  w.getD 0 0 + s0 + w.getD 9 0 + s1

/-- One round with constant `k` and schedule word `w`. -/
def sha5Round (v : Sha5) (k w : BitVec 64) : Sha5 :=
  let s1 := v.e.rotateRight 14 ^^^ v.e.rotateRight 18 ^^^ v.e.rotateRight 41
  let ch := (v.e &&& v.f) ^^^ (~~~ v.e &&& v.g)
  let t1 := v.h + s1 + ch + k + w
  let s0 := v.a.rotateRight 28 ^^^ v.a.rotateRight 34 ^^^ v.a.rotateRight 39
  let maj := (v.a &&& v.b) ^^^ (v.a &&& v.c) ^^^ (v.b &&& v.c)
  { a := t1 + (s0 + maj), b := v.a, c := v.b, d := v.c, e := v.d + t1, f := v.e, g := v.f, h := v.g }

/-- The rounds of one block; `w` is the window of the next sixteen schedule words. -/
def sha5Rounds : List (BitVec 64) → List (BitVec 64) → Sha5 → Sha5
  | [], _, v => v
  | k :: ks, w, v => sha5Rounds ks (w.drop 1 ++ [sha5Next w]) (sha5Round v k (w.getD 0 0))

/-- One 128-byte block. -/
def sha5Block (v : Sha5) (blk : List Byte) : Sha5 :=
  let w := (List.range 16).map (fun i => BitVec.ofNat 64 (rdBe blk (8 * i) 8))
  let r := sha5Rounds sha512K w v
  { a := v.a + r.a, b := v.b + r.b, c := v.c + r.c, d := v.d + r.d, e := v.e + r.e, f := v.f + r.f,
    g := v.g + r.g, h := v.h + r.h }

/-- The blocks of a padded message, `n` of them. -/
def sha5Blocks : Nat → List Byte → Sha5 → Sha5
  | 0, _, v => v
  | n + 1, l, v => sha5Blocks n (l.drop 128) (sha5Block v (l.take 128))

/-- A message padded to whole blocks. -/
def sha5Pad (l : List Byte) : List Byte :=
  l ++ [0x80] ++ List.replicate ((239 - l.length % 128) % 128) 0 ++ be 16 (8 * l.length)

/-- SHA-384 (FIPS 180-4), 48 bytes in network order. -/
def sha384 (l : List Byte) : List Byte :=
  let p := sha5Pad l
  let v := sha5Blocks (p.length / 128) p Sha5.start
  [v.a, v.b, v.c, v.d, v.e, v.f].flatMap (fun x => be 8 x.toNat)

/-- A key filled to one block and combined with a pad byte. -/
def xorPad (key : List Byte) (pad : Byte) : List Byte := (padTo 128 key).map (fun b => b ^^^ pad)

/-- HMAC-SHA-384 with a key of at most 128 bytes (R436). -/
def hmac384 (key msg : List Byte) : List Byte := sha384 (xorPad key 0x5C ++ sha384 (xorPad key 0x36 ++ msg))

end Sys2Proof.Machine
end

