-- ==== Sys2Proof/Machine/Aes.lean ====
section
/-! DEFINITION. AES-256-GCM (FIPS 197, NIST SP 800-38D), with which domain frames and SPDM sessions are sealed (R424, R449), and
the key derivation of a session (R449, DSP0274; PRESUMED). Blocks are numbers of 128 bits, most significant byte first. -/

namespace Sys2Proof.Machine

/-- Multiplication in the field of AES, bit by bit of the second factor from the top. -/
def gf8Mul (a b : Nat) : Nat :=
  (List.range 8).foldl (fun r i =>
    let d := if bit r 7 then (2 * r) % 256 ^^^ 0x1B else 2 * r
    if bit b (7 - i) then d ^^^ a else d) 0

/-- The inverse in the field, as the 254th power; 0 for 0. -/
def gf8Inv (a : Nat) : Nat :=
  let sq := fun (x : Nat) => gf8Mul x x
  let a3 := gf8Mul (sq a) a
  let a7 := gf8Mul (sq a3) a
  let a15 := gf8Mul (sq a7) a
  let a31 := gf8Mul (sq a15) a
  let a63 := gf8Mul (sq a31) a
  sq (gf8Mul (sq a63) a)

/-- SubBytes on one byte. -/
def aesSub (a : Nat) : Nat :=
  let b := gf8Inv a * 257
  (b ^^^ (b >>> 4) ^^^ (b >>> 5) ^^^ (b >>> 6) ^^^ (b >>> 7) ^^^ 0x63) % 256

/-- SubBytes on each byte of a block. -/
def aesSubs (l : List Nat) : List Nat := l.map aesSub

/-- The bytes of the round constants. -/
def aesRcon (i : Nat) : Nat := 2 ^ (i - 1)

/-- The next word of the key schedule of a 256-bit key: number `i`, after the eight words before it, oldest first. -/
def aesNextWord (i : Nat) (w : List (List Nat)) : List Nat :=
  let t := w.getD 7 []
  let u :=
    if i % 8 = 0 then
      let v := aesSubs (t.drop 1 ++ t.take 1)
      (v.headD 0 ^^^ aesRcon (i / 8)) :: v.drop 1
    else if i % 8 = 4 then aesSubs t
    else t
  List.zipWith (· ^^^ ·) (w.getD 0 []) u

/-- Words of the key schedule from number `i` on, `n` of them. -/
def aesWords : Nat → Nat → List (List Nat) → List (List Nat)
  | 0, _, _ => []
  | n + 1, i, w =>
    let x := aesNextWord i w
    x :: aesWords n (i + 1) (w.drop 1 ++ [x])

/-- The fifteen round keys, 16 bytes each. -/
def aesKeys (key : List Nat) : List (List Nat) :=
  let w := (List.range 8).map (fun i => (key.drop (4 * i)).take 4)
  let all := w ++ aesWords 52 8 w
  (List.range 15).map (fun r => ((all.drop (4 * r)).take 4).flatten)

/-- ShiftRows: the bytes stand column by column. -/
def aesShift (l : List Nat) : List Nat := (List.range 16).map (fun i => l.getD ((i + 4 * (i % 4)) % 16) 0)

/-- MixColumns on one column. -/
def aesColumn (c : List Nat) : List Nat :=
  (List.range 4).map (fun i =>
    gf8Mul 2 (c.getD i 0) ^^^ gf8Mul 3 (c.getD ((i + 1) % 4) 0) ^^^ c.getD ((i + 2) % 4) 0 ^^^ c.getD ((i + 3) % 4) 0)

/-- MixColumns. -/
def aesMix (l : List Nat) : List Nat := (List.range 4).flatMap (fun j => aesColumn ((l.drop (4 * j)).take 4))

/-- AES-256 of one block. -/
def aesBlock (ks : List (List Nat)) (b : List Nat) : List Nat :=
  let x := List.zipWith (· ^^^ ·) b (ks.getD 0 [])
  let y := (List.range 13).foldl (fun v r =>
    List.zipWith (· ^^^ ·) (aesMix (aesShift (aesSubs v))) (ks.getD (r + 1) [])) x
  List.zipWith (· ^^^ ·) (aesShift (aesSubs y)) (ks.getD 14 [])

/-- The block as bytes. -/
def aesBytes (ks : List (List Nat)) (b : List Byte) : List Byte := (aesBlock ks (b.map (·.toNat))).map (BitVec.ofNat 8)

/-- Multiplication in the field of GHASH. -/
def ghashMul (x y : Nat) : Nat :=
  ((List.range 128).foldl (fun (a : Nat × Nat) i =>
    (if bit x (127 - i) then a.1 ^^^ a.2 else a.1,
     if bit a.2 0 then (a.2 / 2) ^^^ (0xE1 * 2 ^ 120) else a.2 / 2)) (0, y)).1

/-- GHASH over the blocks of a message whose last block is filled with zeros; the first argument bounds their number. -/
def ghash (h : Nat) : Nat → Nat → List Byte → Nat
  | 0, y, _ => y
  | n + 1, y, l => if l.isEmpty then y else ghash h n (ghashMul (y ^^^ ofBe (padTo 16 l)) h) (l.drop 16)

/-- The key stream of a message of `n` bytes: counter blocks from 2 on. -/
def gcmStream (ks : List (List Nat)) (nonce : List Byte) (n : Nat) : List Byte :=
  ((List.range (ceilDiv n 16)).flatMap (fun i => aesBytes ks (nonce ++ be 4 (i + 2)))).take n

/-- AES-256-GCM under a key of 32 bytes and a nonce of 12: ciphertext and tag. -/
def gcmSeal (key nonce aad text : List Byte) : List Byte × List Byte :=
  let ks := aesKeys (key.map (·.toNat))
  let c := List.zipWith (· ^^^ ·) text (gcmStream ks nonce text.length)
  let h := ofBe (aesBytes ks (be 16 0))
  let a := ghash h (ceilDiv aad.length 16) 0 aad
  let b := ghash h (ceilDiv c.length 16) a c
  let g := ghashMul (b ^^^ (8 * aad.length * 2 ^ 64 + 8 * c.length)) h
  (c, be 16 (g ^^^ ofBe (aesBytes ks (nonce ++ be 4 1))))

/-- The plaintext of a ciphertext, if its tag verifies. -/
def gcmOpen (key nonce aad cipher tag : List Byte) : Option (List Byte) :=
  let p := (gcmSeal key nonce aad cipher).1
  if (gcmSeal key nonce aad p).2 = tag then some p else none

/-! ### Key derivation -/

/-- HKDF-Expand with SHA-384, at most 48 bytes. -/
def hkdfExpand (secret info : List Byte) (n : Nat) : List Byte := (hmac384 secret (info ++ [1])).take n

/-- A label of the SPDM key schedule: the length to derive, the version agreed on (0x12 or 0x13), the label. -/
def spdmLabel (ver n : Nat) (t : String) : List Byte := le 2 n ++ ascii (if ver = 0x12 then "spdm1.2 " else "spdm1.3 ") ++ ascii t

/-- Key and initialisation vector of a direction, from its secret. -/
def sessionKey (ver : Nat) (secret : List Byte) : List Byte := hkdfExpand secret (spdmLabel ver 32 "key") 32
def sessionIv (ver : Nat) (secret : List Byte) : List Byte := hkdfExpand secret (spdmLabel ver 12 "iv") 12

/-- The secret after a KEY_UPDATE. -/
def nextSecret (ver : Nat) (secret : List Byte) : List Byte := hkdfExpand secret (spdmLabel ver 48 "traffic upd") 48

/-- The version whose key schedule the control channel uses, the highest supported (R448; log entry 52). -/
def domVersion : Nat := 0x13

end Sys2Proof.Machine
end

