-- ==== Sys2Proof/Machine/CmdTable.lean ====
section
/-! DEFINITION. The command table of Moaras: for each opcode of the chapters' command tables whether it accepts STAGE,
whether it requires ASYNC, the request lengths it defines, its response length, and the bytes of its payload that name
the item it writes (R408). -/

namespace Sys2Proof.Machine

/-- The STAGE column of a command table. -/
inductive StageRule where
  | no | yes | required
deriving DecidableEq, Repr

/-- The request payload lengths a command defines. -/
inductive LenRule where
  /-- One length. -/
  | exact (n : Nat)
  /-- Every length the envelope allows. -/
  | any
  /-- From one length to another. -/
  | atLeast (lo hi : Nat)
  /-- `base + unit * count`, the count being the little-endian field of `width` bytes at `off`. -/
  | counted (base unit off width : Nat)
deriving DecidableEq, Repr

/-- The response payload length (R389). -/
inductive RespRule where
  /-- One length. -/
  | fixed (n : Nat)
  /-- `unit` times the u16 count field at `off` of the request. -/
  | counted (unit off : Nat)
  /-- The request payload. -/
  | echo
  /-- A recorded response (DEV_GET_RESULT). -/
  | recorded
  /-- The response of the forwarded command (DOM_FORWARD). -/
  | inner
  /-- One set record, or four for set ID 0 (BAKE_GET_SET). -/
  | sets
  /-- 8 bytes and 8 for each member (DOM_BAKE). -/
  | members
deriving DecidableEq, Repr

/-- One row of a command table. -/
structure CmdInfo where
  op : Nat
  stage : StageRule
  async : Bool
  len : LenRule
  resp : RespRule
  /-- Offset and length of the payload fields that name the item written. -/
  key : List (Nat × Nat)
deriving DecidableEq, Repr

/-- Commands of opcode range 0x0Cxx. -/
def cmdRows0C : List CmdInfo :=
  [⟨0x0C01, .no, false, .exact 0, .fixed 48, []⟩,
   ⟨0x0C02, .required, false, .exact 24, .fixed 0, [(0, 0)]⟩,
   ⟨0x0C03, .no, false, .exact 0, .fixed 64, []⟩]

/-- Commands of opcode range 0x02xx. -/
def cmdRows02 : List CmdInfo :=
  [⟨0x0201, .yes, false, .exact 20, .fixed 0, [(0, 2)]⟩,
   ⟨0x0202, .no, false, .exact 4, .fixed 32, []⟩,
   ⟨0x0203, .yes, false, .exact 8, .fixed 0, [(0, 2)]⟩,
   ⟨0x0204, .yes, false, .exact 8, .fixed 0, [(0, 2)]⟩,
   ⟨0x0205, .yes, false, .exact 10, .fixed 0, [(0, 2)]⟩,
   ⟨0x0206, .yes, false, .exact 8, .fixed 0, [(0, 2)]⟩,
   ⟨0x0207, .no, false, .exact 24, .fixed 0, [(0, 2)]⟩,
   ⟨0x0208, .no, false, .exact 4, .fixed 128, []⟩,
   ⟨0x0209, .no, false, .exact 4, .fixed 176, []⟩,
   ⟨0x020A, .yes, false, .exact 4, .fixed 0, [(0, 2)]⟩,
   ⟨0x020B, .yes, false, .exact 8, .fixed 0, [(0, 0)]⟩]

/-- Commands of opcode range 0x03xx. -/
def cmdRows03 : List CmdInfo :=
  [⟨0x0301, .required, false, .exact 228, .fixed 0, [(0, 1)]⟩,
   ⟨0x0302, .required, false, .exact 16, .fixed 0, [(0, 1)]⟩,
   ⟨0x0303, .yes, false, .exact 12, .fixed 0, [(0, 2)]⟩,
   ⟨0x0304, .yes, false, .exact 152, .fixed 0, [(0, 4)]⟩,
   ⟨0x0305, .no, false, .exact 8, .fixed 148, []⟩,
   ⟨0x0306, .no, false, .exact 4, .fixed 104, []⟩,
   ⟨0x0307, .no, false, .exact 8, .counted 8 4, []⟩,
   ⟨0x0308, .no, false, .exact 0, .fixed 16, []⟩]

/-- Commands of opcode range 0x04xx. -/
def cmdRows04 : List CmdInfo :=
  [⟨0x0401, .yes, false, .exact 60, .fixed 8, [(0, 1), (12, 48)]⟩,
   ⟨0x0402, .yes, false, .exact 52, .fixed 0, [(0, 1), (4, 48)]⟩,
   ⟨0x0403, .no, false, .exact 52, .fixed 20, []⟩,
   ⟨0x0404, .yes, false, .exact 146, .fixed 0, [(0, 2)]⟩,
   ⟨0x0405, .yes, false, .exact 32, .fixed 0, [(0, 4), (16, 16)]⟩,
   ⟨0x0406, .yes, false, .exact 24, .fixed 0, [(0, 4)]⟩,
   ⟨0x0407, .yes, false, .counted 8 4 2 2, .fixed 0, [(0, 2)]⟩,
   ⟨0x0408, .yes, false, .exact 108, .fixed 0, [(0, 2)]⟩,
   ⟨0x0409, .yes, false, .exact 28, .fixed 0, [(0, 2)]⟩,
   ⟨0x040A, .yes, false, .exact 8, .fixed 0, [(0, 2)]⟩,
   ⟨0x040B, .yes, false, .exact 4, .fixed 0, [(0, 0)]⟩,
   ⟨0x040C, .no, true, .exact 8, .fixed 4, []⟩,
   ⟨0x040D, .no, false, .exact 0, .fixed 200, []⟩,
   ⟨0x040E, .no, false, .exact 0, .fixed 56, []⟩]

/-- Commands of opcode range 0x05xx. -/
def cmdRows05 : List CmdInfo :=
  [⟨0x0501, .required, false, .exact 12, .fixed 0, [(0, 1)]⟩,
   ⟨0x0502, .required, false, .exact 16, .fixed 0, [(0, 3)]⟩,
   ⟨0x0503, .required, false, .exact 28, .fixed 32, [(0, 2)]⟩,
   ⟨0x0504, .yes, false, .exact 8, .fixed 0, [(0, 2)]⟩,
   ⟨0x0505, .yes, false, .exact 40, .fixed 0, [(0, 1)]⟩,
   ⟨0x0506, .yes, false, .exact 8, .fixed 0, [(0, 4)]⟩,
   ⟨0x0507, .no, false, .exact 0, .fixed 48, []⟩,
   ⟨0x0508, .no, false, .exact 4, .fixed 128, []⟩,
   ⟨0x0509, .no, false, .exact 0, .fixed 176, []⟩,
   ⟨0x050A, .no, false, .exact 0, .fixed 72, []⟩]

/-- Commands of opcode range 0x06xx. -/
def cmdRows06 : List CmdInfo :=
  [⟨0x0601, .required, false, .exact 16, .fixed 0, [(0, 0)]⟩,
   ⟨0x0602, .yes, false, .exact 12, .fixed 0, [(0, 3)]⟩,
   ⟨0x0603, .no, false, .exact 0, .fixed 48, []⟩,
   ⟨0x0604, .no, false, .exact 4, .fixed 16, []⟩,
   ⟨0x0605, .no, false, .exact 4, .fixed 0, []⟩,
   ⟨0x0606, .no, false, .exact 0, .fixed 120, []⟩]

/-- Commands of opcode range 0x07xx. -/
def cmdRows07 : List CmdInfo :=
  [⟨0x0701, .yes, false, .exact 20, .fixed 0, [(0, 5)]⟩,
   ⟨0x0702, .no, false, .exact 8, .fixed 32, []⟩,
   ⟨0x0703, .yes, false, .exact 24, .fixed 0, [(0, 4)]⟩,
   ⟨0x0704, .no, false, .exact 4, .fixed 40, []⟩,
   ⟨0x0705, .yes, false, .exact 8, .fixed 0, [(0, 2)]⟩,
   ⟨0x0706, .yes, false, .exact 20, .fixed 0, [(0, 1)]⟩,
   ⟨0x0707, .yes, false, .exact 8, .fixed 0, [(0, 3)]⟩,
   ⟨0x0708, .no, false, .exact 8, .fixed 40, []⟩,
   ⟨0x0709, .no, false, .exact 0, .fixed 104, []⟩]

/-- Commands of opcode range 0x08xx. -/
def cmdRows08 : List CmdInfo :=
  [⟨0x0801, .no, false, .exact 0, .fixed 32, []⟩,
   ⟨0x0802, .no, false, .exact 24, .fixed 0, []⟩,
   ⟨0x0803, .yes, false, .exact 12, .fixed 0, [(0, 0)]⟩,
   ⟨0x0804, .yes, false, .exact 16, .fixed 0, [(0, 2)]⟩,
   ⟨0x0805, .yes, false, .exact 12, .fixed 0, [(0, 0)]⟩,
   ⟨0x0806, .required, false, .counted 32 8 2 2, .fixed 0, [(0, 2)]⟩,
   ⟨0x0807, .no, false, .exact 4, .fixed 96, []⟩,
   ⟨0x0808, .no, false, .exact 4, .fixed 72, []⟩]

/-- Commands of opcode range 0x09xx. -/
def cmdRows09 : List CmdInfo :=
  [⟨0x0901, .yes, false, .exact 32, .fixed 0, [(0, 2)]⟩,
   ⟨0x0902, .no, false, .exact 4, .fixed 88, []⟩,
   ⟨0x0903, .yes, false, .exact 4, .fixed 0, [(0, 2)]⟩,
   ⟨0x0904, .no, false, .exact 4, .fixed 0, []⟩,
   ⟨0x0905, .no, false, .exact 0, .fixed 1160, []⟩,
   ⟨0x0906, .no, false, .exact 4, .fixed 0, []⟩,
   ⟨0x0907, .no, true, .exact 4, .fixed 0, []⟩,
   ⟨0x0908, .no, false, .exact 0, .fixed 104, []⟩]

/-- Commands of opcode range 0x0Axx. -/
def cmdRows0A : List CmdInfo :=
  [⟨0x0A01, .yes, false, .exact 8, .fixed 0, [(0, 1)]⟩,
   ⟨0x0A02, .no, false, .exact 4, .fixed 48, []⟩,
   ⟨0x0A03, .no, false, .exact 4, .fixed 80, []⟩,
   ⟨0x0A04, .no, false, .exact 24, .fixed 0, []⟩,
   ⟨0x0A05, .no, false, .exact 4, .fixed 0, []⟩,
   ⟨0x0A06, .no, false, .exact 12, .fixed 288, []⟩,
   ⟨0x0A07, .no, false, .exact 4, .fixed 48, []⟩,
   ⟨0x0A08, .no, false, .exact 12, .fixed 0, [(0, 2)]⟩,
   ⟨0x0A09, .no, false, .exact 4, .fixed 112, []⟩,
   ⟨0x0A0A, .no, false, .exact 0, .fixed 128, []⟩]

/-- Commands of opcode range 0x0Bxx. -/
def cmdRows0B : List CmdInfo :=
  [⟨0x0B01, .yes, false, .exact 32, .fixed 0, [(0, 1)]⟩,
   ⟨0x0B02, .yes, false, .exact 12, .fixed 0, [(0, 2)]⟩,
   ⟨0x0B03, .no, false, .exact 4, .fixed 0, []⟩,
   ⟨0x0B04, .no, false, .exact 4, .fixed 40, []⟩,
   ⟨0x0B05, .yes, false, .exact 8, .fixed 0, [(0, 2)]⟩,
   ⟨0x0B06, .no, false, .exact 4, .fixed 112, []⟩,
   ⟨0x0B07, .yes, false, .exact 8, .fixed 0, [(0, 1)]⟩,
   ⟨0x0B08, .no, false, .exact 0, .fixed 168, []⟩]

/-- Commands of opcode range 0x01xx. -/
def cmdRows01 : List CmdInfo :=
  [⟨0x0101, .no, false, .exact 0, .fixed 64, []⟩,
   ⟨0x0102, .no, false, .exact 4, .recorded, []⟩,
   ⟨0x0103, .no, false, .any, .echo, []⟩,
   ⟨0x0104, .no, false, .exact 4, .fixed 0, []⟩,
   ⟨0x0105, .no, false, .exact 0, .fixed 64, []⟩]

/-- Commands of opcode range 0x0Dxx. -/
def cmdRows0D : List CmdInfo :=
  [⟨0x0D01, .no, false, .exact 0, .fixed 4, []⟩,
   ⟨0x0D02, .no, false, .exact 4, .fixed 16, []⟩,
   ⟨0x0D03, .no, true, .exact 24, .fixed 24, []⟩,
   ⟨0x0D04, .no, false, .exact 4, .fixed 0, []⟩,
   ⟨0x0D05, .no, false, .exact 4, .sets, []⟩]

/-- Commands of opcode range 0x0Exx. -/
def cmdRows0E : List CmdInfo :=
  [⟨0x0E01, .no, false, .exact 4, .fixed 0, [(0, 2)]⟩,
   ⟨0x0E02, .no, false, .exact 36, .fixed 0, [(0, 1)]⟩,
   ⟨0x0E03, .no, false, .exact 0, .fixed 528, []⟩,
   ⟨0x0E04, .no, false, .atLeast 20 3824, .inner, []⟩,
   ⟨0x0E05, .no, true, .counted 24 8 14 1, .members, []⟩,
   ⟨0x0E06, .no, false, .exact 0, .fixed 0, []⟩,
   ⟨0x0E07, .no, false, .exact 0, .fixed 0, []⟩]

/-- Commands of opcode range 0x0Fxx. -/
def cmdRows0F : List CmdInfo :=
  [⟨0x0F01, .no, false, .exact 0, .fixed 112, []⟩,
   ⟨0x0F02, .no, false, .exact 12, .fixed 2056, []⟩,
   ⟨0x0F03, .no, false, .exact 0, .fixed 200, []⟩,
   ⟨0x0F04, .no, true, .counted 12 1 8 4, .fixed 0, []⟩,
   ⟨0x0F05, .no, true, .exact 4, .fixed 16, []⟩,
   ⟨0x0F06, .no, false, .exact 4, .fixed 0, []⟩,
   ⟨0x0F07, .no, true, .exact 4, .fixed 4, []⟩,
   ⟨0x0F08, .no, false, .exact 36, .fixed 0, []⟩]

/-- Commands of opcode range 0x10xx. -/
def cmdRows10 : List CmdInfo :=
  [⟨0x1001, .yes, false, .exact 72, .fixed 0, [(0, 1)]⟩,
   ⟨0x1002, .yes, false, .exact 4, .fixed 0, [(0, 2)]⟩,
   ⟨0x1003, .no, false, .exact 4, .fixed 32, []⟩,
   ⟨0x1004, .no, false, .exact 4, .fixed 512, []⟩,
   ⟨0x1005, .no, false, .exact 0, .fixed 48, []⟩]

/-- Commands of opcode range 0x11xx. -/
def cmdRows11 : List CmdInfo :=
  [⟨0x1101, .no, false, .exact 0, .fixed 216, []⟩,
   ⟨0x1102, .yes, false, .exact 8, .fixed 0, [(0, 2)]⟩,
   ⟨0x1103, .yes, false, .exact 4, .fixed 0, [(0, 0)]⟩,
   ⟨0x1104, .no, true, .exact 4, .fixed 0, []⟩,
   ⟨0x1105, .no, true, .exact 4, .fixed 0, [(0, 1)]⟩,
   ⟨0x1106, .no, true, .exact 0, .fixed 8, []⟩,
   ⟨0x1107, .no, false, .exact 0, .fixed 96, []⟩]

/-- Every command. -/
def cmdRows : List CmdInfo :=
  cmdRows0C ++ cmdRows02 ++ cmdRows03 ++ cmdRows04 ++ cmdRows05 ++ cmdRows06 ++ cmdRows07 ++ cmdRows08 ++ cmdRows09 ++ cmdRows0A ++ cmdRows0B ++ cmdRows01 ++ cmdRows0D ++ cmdRows0E ++ cmdRows0F ++ cmdRows10 ++ cmdRows11

/-- The table row of an opcode; none: not defined (R402). -/
def cmdInfo (op : Nat) : Option CmdInfo :=
  cmdRows.find? (fun c => c.op == op)

/-- The request payload length is one the command defines (R390 row 11). -/
def LenRule.ok (l : LenRule) (p : List Byte) : Bool :=
  match l with
  | .exact n => p.length == n
  | .any => true
  | .atLeast lo hi => decide (lo ≤ p.length) && decide (p.length ≤ hi)
  | .counted b u o w => decide (o + w ≤ p.length) && p.length == b + u * rd p o w

/-- ASYNC is required: by the table, and for a plane resync (FAB_SET_PLANE action 1). -/
def asyncNeeded (c : CmdInfo) (p : List Byte) : Bool :=
  c.async || (c.op == 0x0605 && rd p 1 1 == 1)

/-- The name of the item a staged write writes (R408): opcode and key fields; FWD_DELETE writes the item FWD_INSERT
writes, one key. -/
def itemKey (op : Nat) (p : List Byte) : List Nat :=
  match cmdInfo op with
  | some c => (if op = 0x0402 then 0x0401 else op) :: c.key.map (fun k => rd p k.1 k.2)
  | none => [op]

end Sys2Proof.Machine
end

