-- ==== Sys2Proof/Config.lean ====
section
/-! DEFINITION. What the spec leaves open, as constants with no body: nothing can evaluate them, so every statement
holds for every value of them. -/

namespace Sys2Proof

/-- The n-th value the machine draws where the spec says only that a value is drawn or made (log entry 3): hash seeds
(R96), WRED draws (R145), nonces. `State.free` counts the draws. -/
opaque Config.freeValue : Nat → Nat

/-- Public key X and Y coordinates (96 bytes are taken of them) of key kind `k` and key number `g` (R436): kind 0 the DIK,
number 0; 1 the alias key of the CDI with that number; 2 the receipt key of that boot count; 3 and 4, number 0, Valvel's Root CA and
Manufacturing CA. -/
opaque Config.publicKey (k g : Nat) : List Byte

/-- The ECDSA P-384 signature of a message under key kind `k` and key number `g` (R293, R437). -/
opaque Config.signature (k g : Nat) (msg : List Byte) : List Byte

/-- What Valvel wrote into a certificate of kind 0 Root CA, 1 Manufacturing CA, 2 DIK: its serial number and its validity; the
notBefore of kind 2 is the manufacturing date (R439). -/
opaque Config.assignedNumber : Nat → List Byte
opaque Config.issuedFrom : Nat → List Byte
opaque Config.issuedTo : Nat → List Byte

/-- The serial number, fused (R403). -/
opaque Config.serial : List Byte

/-- The device secret from the fuse seed and the PUF response (R436). -/
opaque Config.uds : List Byte

/-- The fuses (R443): SHA-384 of each of the four firmware signing keys, and their revocation bits. -/
opaque Config.fusedKeyHash : Nat → List Byte
opaque Config.keyRevoked : Nat → Bool

/-- A byte of the Moaras persistent store (R441), which the spec gives no format: of the boot count, the receipt certificates, the
manager's pin, the repair record and the life record that it keeps (R440, R452, R497, R499, R501), and of its offset. -/
opaque Config.storeByte : Nat → List (Nat × List Byte) → Option (List Byte) → List (Nat × Nat) → Nat → Nat → Byte

/-- The image that the device was delivered with, byte by byte (R441). -/
opaque Config.deliveredByte : Nat → Byte

/-- The digest of the boot ROM (R451). -/
opaque Config.romDigest : List Byte

/-- The digest of measurement 2 while no copy of the boot configuration is valid (R442, R451). -/
opaque Config.noConfigDigest : List Byte

/-- The clock identity of the device in PTP (R232), 8 bytes. -/
opaque Config.ptpClockId : Nat

/-- The wake time in ns of the PHY type of a lane mode (R64, R237): 802.3's, not the spec's. -/
opaque Config.phyWake : Nat → Nat

/-- Contents of the PTP servo: the correction Moaras applies for a measured offset (R232). -/
opaque Config.servo : Int → Int

/-- Bytes that the Moaras shadow takes for so many configuration items: the spec gives the shadow no format (log entry
3). -/
opaque Config.shadowBytes : Nat → Nat

/-- Row repairs that one HBM pseudo-channel has resources for (R500 gives no number). -/
opaque Config.rowRepairs : Nat

end Sys2Proof
end

