-- ==== Sys2Proof/Machine/State.lean ====
section
/-! DEFINITION. Everything the spec gives the machine, as plain data, with its value at reset.

Each field's comment gives its width and the chapter file and rule of spec/ that names it; INVENTORY.md's State section
lists the same fields with the ground of each reset value. -/

namespace Sys2Proof.Machine

/-- States of the time base (R216). -/
inductive TbState where
  | unset | freeRun | locked | holdover
deriving DecidableEq, Repr

/-- Lane Throttle states of a port (R60). -/
inductive LtState where
  | disabled | full | narrowing | narrow | widening
deriving DecidableEq, Repr

/-- States of a crossbar plane (R180). -/
inductive PlaneState where
  | active | standby | failed | resync
deriving DecidableEq, Repr

/-- States of a Proofing target (R308, R314). -/
inductive TgtState where
  | awake | asleep | waking | draining | failed
deriving DecidableEq, Repr

/-- States of a mailbox (R382). -/
inductive MbState where
  | free | submitted | responseReady
deriving DecidableEq, Repr

/-- States of a staged set (R407). -/
inductive SetState where
  | isOpen | preparing | armed | baked | aborted
deriving DecidableEq, Repr

/-- Power states of a slice (R502). -/
inductive SliceState where
  | active | parked | resetting | restoring
deriving DecidableEq, Repr

/-- States of a management processor (R264). -/
inductive MpState where
  | active | standby | failed | resync
deriving DecidableEq, Repr

/-- States of a DMA channel (R347). -/
inductive ChState where
  | stopped | running | idle | halted
deriving DecidableEq, Repr

/-- Resets whose bring-up Moaras runs (R491). -/
inductive ResetKind where
  | cold | warm
deriving DecidableEq, Repr

/-- Why the machine stops. -/
inductive Fault where
  /-- A command names a unit the device does not have (a port above 547, a DMA channel above 127, a mailbox above 31
  and so on): no event of this hardware. Raised by the meanings of the event rows, on their operands alone. Safe. -/
  | noSuchUnit (what : String)
deriving DecidableEq, Repr

/-- Why a command has no meaning. -/
inductive Refusal where
  /-- The command's row has no meaning in this model yet. Raised by the arms of `exec` alone. Safe. -/
  | notModelled (mnemonic : String)
deriving DecidableEq, Repr

/-- What the device sends to the outside: the model's own record of it, newest first (MODEL). -/
inductive Output where
  /-- A frame leaving the MAC of a port; `stomp`: it ends with a complemented FCS (R44). -/
  | frame (port : Nat) (bytes : List Byte) (stomp : Bool)
  /-- A control frame of the MAC itself (PAUSE, PFC, Lane Throttle), without FCS. -/
  | control (port : Nat) (bytes : List Byte)
  /-- A write to host memory through the link of a function. -/
  | hostWrite (fn : Nat) (addr : Nat) (bytes : List Byte)
  /-- A payload write of a DIR 1 descriptor: address, bytes, whether it carries Relaxed Ordering and No-Snoop (R357, R359). -/
  | hostData (fn : Nat) (addr : Nat) (bytes : List Byte) (ro : Bool) (ns : Bool)
  /-- Payload bytes with an uncorrectable error, sent as a poisoned TLP: address, length, Relaxed Ordering and No-Snoop (R353,
  R357, R359). -/
  | hostPoison (fn : Nat) (addr : Nat) (len : Nat) (ro : Bool) (ns : Bool)
  /-- A read request to host memory: address and length. -/
  | hostRead (fn : Nat) (addr : Nat) (len : Nat)
  /-- A payload read of a DIR 0 descriptor: address, length, whether it carries No-Snoop (R359). -/
  | hostFetch (fn : Nat) (addr : Nat) (len : Nat) (ns : Bool)
  /-- An MSI-X message. -/
  | msi (fn : Nat) (addr : Nat) (data : Nat)
  /-- A Shelf Link frame on a bus. -/
  | shelf (bus : Nat) (bytes : List Byte)
  /-- The frames of a domain message that leaves a port, FCS included: sealed under the session, or in clear text before one
  exists (R423, R424). -/
  | domain (port : Nat) (frames : List (List Byte))
  /-- A PTP message from a clock port (R232), without the Ethernet header. -/
  | ptp (port : Nat) (bytes : List Byte)
  /-- An SPDM response on a transport, in clear or as a secured message (R448, R449). -/
  | spdm (transport : Nat) (secured : Bool) (bytes : List Byte)
  /-- The answer to a message pool request of a block: the pointer given, with the status of R156. -/
  | poolAnswer (block : Nat) (status : Nat) (ptr : Nat)
  /-- A line of the boot ROM on the UART console: the boot results of slots A and B (R445). -/
  | console (resA : Nat) (resB : Nat)
deriving DecidableEq, Repr

/-- The time base and its capture registers (ch. 08). -/
structure TimeBase where
  /-- 48 bits; 08 R214. -/
  sec : Nat
  /-- 32 bits, 0..999,999,999; 08 R214. -/
  ns : Nat
  /-- 48 fraction bits of a ns; 08 R214. -/
  frac : Nat
  /-- u64, units of 2^-48 ns; 08 R214. -/
  incr : Nat
  /-- 4 states; 08 R216. -/
  state : TbState
  /-- signed offset still to absorb, 2^-48 ns; 08 R217. -/
  slewLeft : Int
  /-- 8 bits as read; u32 in TIME_GET; 08 R219 R245. -/
  stepCount : Nat
  /-- count 0..16 of consecutive sync intervals within the lock threshold; 08 R216. -/
  goodIntervals : Nat
  /-- 64; 08 R219 TIM_LATCH_SEC. -/
  latchSec : BitVec 64
  /-- 64; 08 R219 TIM_LATCH_NS. -/
  latchNs : BitVec 64
  /-- 64; 08 R219 TIM_PPS_IN_SEC. -/
  ppsInSec : BitVec 64
  /-- 64; 08 R219 TIM_PPS_IN_NS. -/
  ppsInNs : BitVec 64
  /-- 1; 08 R219 R230. -/
  ppsInValid : Bool
  /-- 1; 08 R231. -/
  ppsEnable : Bool
  /-- 1, drive-while-UNSET flag; 08 R231 R245. -/
  ppsUnset : Bool
  /-- i32 ns; 08 R231. -/
  ppsOffset : Int
  /-- us 1..500,000; 08 R231. -/
  ppsWidth : Nat
  /-- pin PPS_OUT level; 08 R231 R489. -/
  ppsOut : Bool
deriving DecidableEq, Repr

/-- TimeBase at reset, or as an unlisted entry. -/
def TimeBase.init : TimeBase :=
  { sec := 0,
    ns := 0,
    frac := 0,
    incr := 0x1400000000000,
    state := .unset,
    slewLeft := 0,
    stepCount := 0,
    goodIntervals := 0,
    latchSec := 0,
    latchNs := 0,
    ppsInSec := 0,
    ppsInNs := 0,
    ppsInValid := false,
    ppsEnable := false,
    ppsUnset := false,
    ppsOffset := 0,
    ppsWidth := 100000,
    ppsOut := false }

/-- The PTP profile settings of TIME_SET_PTP (ch. 08). -/
structure PtpCfg where
  /-- u8; 08 R245. -/
  profile : Nat
  /-- u8; 08 R245. -/
  domain : Nat
  /-- u8; 08 R245. -/
  prio1 : Nat
  /-- u8; 08 R245. -/
  prio2 : Nat
  /-- i8 -7..4; 08 R245. -/
  logSync : Int
  /-- i8 0..4; 08 R245. -/
  logAnnounce : Int
  /-- u8 2..10; 08 R245. -/
  announceTimeout : Nat
  /-- u8 0 network 1 PPS_IN; 08 R245. -/
  source : Nat
  /-- u16 1..1000; 08 R216. -/
  lockNs : Nat
deriving DecidableEq, Repr

/-- PtpCfg at reset, or as an unlisted entry. -/
def PtpCfg.init : PtpCfg :=
  { profile := 0,
    domain := 0,
    prio1 := 0,
    prio2 := 0,
    logSync := 0,
    logAnnounce := 0,
    announceTimeout := 2,
    source := 0,
    lockNs := 20 }

/-- A message handed to Moaras (ch. 08). -/
structure PtpRx where
  /-- the message, from its common header on; 08 R222. -/
  bytes : List Byte
  /-- receive timestamp in 2^-16 ns, of a stamped event message; 08 R222. -/
  stamp : Option Int
deriving DecidableEq, Repr

/-- What Moaras keeps of an event message until its Follow_Up comes (ch. 08). -/
structure PtpSeen where
  /-- sequenceId; 08 R232. -/
  seq : Nat
  /-- receive time of a Sync, or request receipt time of a Pdelay_Resp, 2^-16 ns; 08 R232. -/
  first : Int
  /-- receive time of a Pdelay_Resp, 2^-16 ns; 08 R232. -/
  second : Int
  /-- correctionField; 08 R232. -/
  corr : Int
deriving DecidableEq, Repr

/-- A foreign master that a clock port hears (ch. 08). -/
structure PtpForeign where
  /-- its latest Announce message; 08 R232. -/
  ann : List Byte
  /-- ns at which its Announce messages of the last four intervals came, oldest first; 08 R232. -/
  heard : List Nat
  /-- it has qualified: two Announce messages within four intervals; 08 R232. -/
  ok : Bool
deriving DecidableEq, Repr

/-- Per-port PTP settings and sequence (ch. 08). -/
structure PortPtp where
  /-- 0..4; 08 R232. -/
  role : Nat
  /-- 0 OFF 1 ONE_STEP 2 TWO_STEP; 08 R223. -/
  tsMode : Nat
  /-- i32 ps; 08 R221. -/
  ingCorr : Int
  /-- i32 ps; 08 R221. -/
  egCorr : Int
  /-- 16 bits capture sequence number; 08 R227. -/
  capSeq : Nat
  /-- measured Pdelay, 2^-16 ns; 08 R224. -/
  linkDelay : Nat
  /-- messages handed to Moaras with their receive stamps, not yet processed; 08 R222. -/
  rx : List PtpRx
  /-- foreign masters heard; 08 R232. -/
  foreign : List PtpForeign
  /-- sequenceId of the next message of each type; 08 R232. -/
  txSeq : Tab Nat
  /-- two-step Sync that waits for its Follow_Up; 08 R232. -/
  syncIn : Option PtpSeen
  /-- receive less transmit time of the last Sync, 2^-16 ns; 08 R232. -/
  ms : Option Int
  /-- sequenceId and transmit time of the last Delay_Req or Pdelay_Req; 08 R232. -/
  reqTx : Option (Nat × Int)
  /-- two-step Pdelay_Resp that waits for its Follow_Up; 08 R232. -/
  respIn : Option PtpSeen
  /-- asker, sequenceId and correction of the Pdelay_Req being answered; 08 R232. -/
  replyTo : Option (List Byte × Nat × Int)
  /-- the Sync that relays the grandmaster's time: sequenceId, preciseOriginTimestamp, and the correction of its Follow_Up less
  the transmit time; 08 R232. -/
  relay : Option (Nat × List Byte × Int)
deriving DecidableEq, Repr

/-- PortPtp at reset, or as an unlisted entry. -/
def PortPtp.init : PortPtp :=
  { role := 0,
    tsMode := 0,
    ingCorr := 0,
    egCorr := 0,
    capSeq := 0,
    linkDelay := 0,
    rx := [],
    foreign := [],
    txSeq := [],
    syncIn := none,
    ms := none,
    reqTx := none,
    respIn := none,
    replyTo := none,
    relay := none }

/-- One entry of a slice's TX timestamp FIFO (ch. 08). -/
structure TsEntry where
  /-- 48 bits; 08 R229 TIM_TXTS_DATA0. -/
  sec : Nat
  /-- 16 bits; 08 R229 TIM_TXTS_DATA0. -/
  frac : Nat
  /-- 32 bits; 08 R229 TIM_TXTS_DATA1. -/
  ns : Nat
  /-- 16 bits; 08 R229 TIM_TXTS_DATA1. -/
  seq : Nat
  /-- 10 bits; 08 R229 TIM_TXTS_DATA1. -/
  port : Nat
  /-- 4 bits; 08 R229 TIM_TXTS_DATA1. -/
  msgType : Nat
  /-- 16 bits; 08 R229 TIM_TXTS_DATA2. -/
  ptpSeq : Nat
  /-- 8 bits; 08 R229 TIM_TXTS_DATA2. -/
  domain : Nat
  /-- 4 bits; 08 R229 TIM_TXTS_DATA2. -/
  sdoId : Nat
deriving DecidableEq, Repr

/-- TsEntry at reset, or as an unlisted entry. -/
def TsEntry.init : TsEntry :=
  { sec := 0,
    frac := 0,
    ns := 0,
    seq := 0,
    port := 0,
    msgType := 0,
    ptpSeq := 0,
    domain := 0,
    sdoId := 0 }

/-- A slice's TX timestamp FIFO (ch. 08). -/
structure TsFifo where
  /-- at most 256 entries; 08 R225. -/
  entries : List TsEntry
  /-- 1 sticky; 08 R228 R229. -/
  overflow : Bool
deriving DecidableEq, Repr

/-- TsFifo at reset, or as an unlisted entry. -/
def TsFifo.init : TsFifo :=
  { entries := [],
    overflow := false }

/-- One gate control list entry (ch. 08). -/
structure GateEntry where
  /-- 8 bits; 08 R234. -/
  states : Nat
  /-- u32 ns; 08 R234. -/
  interval : Nat
deriving DecidableEq, Repr

/-- GateEntry at reset, or as an unlisted entry. -/
def GateEntry.init : GateEntry :=
  { states := 0xFF,
    interval := 0 }

/-- A gate control list (ch. 08). -/
structure GateList where
  /-- 0..256; 08 R234. -/
  entries : List GateEntry
  /-- 8 bits gated class mask; 08 R234. -/
  mask : Nat
  /-- u64 ns; 08 R234. -/
  cycle : Nat
  /-- u64; 08 R234. -/
  baseSec : Nat
  /-- u32; 08 R234. -/
  baseNs : Nat
deriving DecidableEq, Repr

/-- GateList at reset, or as an unlisted entry. -/
def GateList.init : GateList :=
  { entries := [],
    mask := 0,
    cycle := 0,
    baseSec := 0,
    baseNs := 0 }

/-- Gating of one port (ch. 08). -/
structure PortGate where
  /-- operational list; 08 R241. -/
  oper : GateList
  /-- 8 bits gate states now; 08 R236 R245. -/
  now : Nat
  /-- u32 change-overs since reset; 08 R245. -/
  changes : Nat
  /-- packet ids counted GATE_HELD; 08 R238. -/
  held : List Nat
deriving DecidableEq, Repr

/-- PortGate at reset, or as an unlisted entry. -/
def PortGate.init : PortGate :=
  { oper := GateList.init,
    now := 0xFF,
    changes := 0,
    held := [] }

/-- One lane (ch. 02). -/
structure LaneSt where
  /-- mode code 0x00..0x08; 02 R37. -/
  mode : Nat
  /-- FEC code 0..3; 02 R37. -/
  fec : Nat
  /-- u16 mV last sample; 02 R65 R67. -/
  eyeH : Nat
  /-- u16 mUI last sample; 02 R65 R67. -/
  eyeW : Nat
  /-- 1; 02 R65. -/
  stale : Bool
  /-- 1 below a threshold; 02 R65. -/
  below : Bool
  /-- u64 corrected symbols since previous read; 02 R67. -/
  fecSyms : Nat
  /-- 1 quiet pattern; 02 R57 R65. -/
  parked : Bool
deriving DecidableEq, Repr

/-- LaneSt at reset, or as an unlisted entry. -/
def LaneSt.init : LaneSt :=
  { mode := 0,
    fec := 0,
    eyeH := 0,
    eyeW := 0,
    stale := false,
    below := false,
    fecSyms := 0,
    parked := false }

/-- One group of eight lanes (ch. 02). -/
structure GroupSt where
  /-- 8 x u8; 02 R40. -/
  txMap : List Nat
  /-- 8 x u8; 02 R40. -/
  rxMap : List Nat
  /-- 8 bits; 02 R40. -/
  txPol : Nat
  /-- 8 bits; 02 R40. -/
  rxPol : Nat
  /-- 0 ready 1 in use 2 failed; 02 R66, 09 R268. -/
  spare : Nat
  /-- 0..7, 0xFF none; 09 R268. -/
  laneOnSpare : Nat
  /-- u16 substitutions; 02 R67. -/
  substs : Nat
  /-- 8 bits: lanes whose datapath failed with no spare left; 02 R66. -/
  dead : Nat
deriving DecidableEq, Repr

/-- GroupSt at reset, or as an unlisted entry. -/
def GroupSt.init : GroupSt :=
  { txMap := [0,1,2,3,4,5,6,7],
    rxMap := [0,1,2,3,4,5,6,7],
    txPol := 0,
    rxPol := 0,
    spare := 0,
    laneOnSpare := 0xFF,
    substs := 0,
    dead := 0 }

/-- Lane Throttle of one port (ch. 02). -/
structure LtSt where
  /-- 1; 02 R53 R67. -/
  enable : Bool
  /-- 1 or 2 lanes; 02 R67. -/
  minWidth : Nat
  /-- percent 1..90; 02 R67. -/
  threshold : Nat
  /-- ms 1..60,000; 02 R67. -/
  dwell : Nat
  /-- KiB 4..1,024 widen depth; 02 R61. -/
  depth : Nat
  /-- 5 states; 02 R60. -/
  state : LtState
  /-- 8 bits; 02 R55 R67. -/
  partnerCaps : Nat
  /-- CAP received within 3 s; 02 R56. -/
  partnerOk : Bool
  /-- 8 bits transaction ID; 02 R55. -/
  txId : Nat
  /-- this port sent the REQ in progress; 02 R57. -/
  initiator : Bool
  /-- target width in progress, 0 none; 02 R57. -/
  target : Nat
  /-- sends of the current REQ, up to 3; 02 R59. -/
  sends : Nat
  /-- ACK held by the initiator; 02 R57. -/
  haveAck : Bool
  /-- own receivers locked at the target width; 02 R57 R62. -/
  locked : Bool
  /-- own SWITCH sent; 02 R57. -/
  sentSwitch : Bool
  /-- lanes in use now (0: as configured); 02 R67 byte 3. -/
  width : Nat
  /-- consecutive 10 us windows below threshold; 02 R60. -/
  quietWindows : Nat
  /-- bytes transmitted in the latest 10 us window; 02 R58. -/
  util : Nat
deriving DecidableEq, Repr

/-- LtSt at reset, or as an unlisted entry. -/
def LtSt.init : LtSt :=
  { enable := false,
    minWidth := 1,
    threshold := 50,
    dwell := 100,
    depth := 64,
    state := .disabled,
    partnerCaps := 0,
    partnerOk := false,
    txId := 0,
    initiator := false,
    target := 0,
    sends := 0,
    haveAck := false,
    locked := false,
    sentSwitch := false,
    width := 0,
    quietWindows := 0,
    util := 0 }

/-- One network port: MAC, flow control, admin, pause, EEE (ch. 02). -/
structure PortSt where
  /-- administrative state; 02 R67, 17 R492. -/
  admin : Bool
  /-- link up; 02 R67. -/
  link : Bool
  /-- link training; 02 R38 R67. -/
  training : Bool
  /-- 1,518..9,216; 02 R43. -/
  maxLen : Nat
  /-- 1..4,094; 02 R51. -/
  pvid : Nat
  /-- 0..7; 02 R51. -/
  pcp : Nat
  /-- 48 bits: the port MAC address; 02 R55, 11 R323. -/
  mac : Nat
  /-- 0 NONE 1 PAUSE 2 PFC; 02 R45. -/
  fcMode : Nat
  /-- 8 bits; 02 R46. -/
  pfcMask : Nat
  /-- ms, 0 off, 1..10,000; 02 R50. -/
  watchdog : Nat
  /-- remaining quanta in force per class; 02 R47. -/
  pause : List Nat
  /-- 8 bits PFC storm state per class; 02 R50. -/
  storm : Nat
  /-- 8 bits: non-zero PFC arrived since the storm timer last ran; 02 R50. -/
  stormSeen : Nat
  /-- 1; 02 R64. -/
  eee : Bool
  /-- us 1..1,000,000; 02 R64. -/
  eeeTimer : Nat
  /-- transmitter in LPI; 02 R64. -/
  lpi : Bool
  /-- u32 link-up count since cold reset; 02 R67. -/
  linkUps : Nat
  /-- u64 last link change seconds; 02 R67. -/
  lastSec : Nat
  /-- u32 last link change ns; 02 R67. -/
  lastNs : Nat
  /-- Lane Throttle; 02 R53-R63. -/
  lt : LtSt
  /-- 1..65,535 transmitted quanta; 05 R148. -/
  pfcQuanta : Nat
  /-- us 0 or 1..1,000; 05 R148. -/
  pfcRefresh : Nat
  /-- packet id in transmission at the MAC; 07 R193. -/
  txPkt : Option Nat
  /-- egress queue of the frame in transmission; 07 R193. -/
  txQ : Nat
  /-- the frame in transmission as edited at step 12; 07 R193, 08 R223. -/
  txBytes : List Byte
  /-- time of day in units of 2^-48 ns at which its gate closes since a gate reset came upon it; 08 R244. -/
  txGate : Option Nat
  /-- control frames waiting for the next frame boundary; 02 R48. -/
  ctlQueue : List (List Byte)
  /-- DOM_SET_PORT enable; 14 R423. -/
  domainPort : Bool
  /-- ingress session, 0xFF none; 16 R478. -/
  mirIn : Nat
  /-- egress session, 0xFF none; 16 R478. -/
  mirEg : Nat
  /-- stream identification enable; 09 R248 R270. -/
  frerId : Bool
  /-- identification: false destination MAC, true source MAC; 09 R270. -/
  frerSrc : Bool
  /-- learning enable; 04 R128. -/
  learnOn : Bool
  /-- excess action FORWARD; 04 R128. -/
  learnFwd : Bool
  /-- 0..2,097,152; 04 R123. -/
  learnLimit : Nat
  /-- default policer valid; 07 R212. -/
  polValid : Bool
  /-- pre-colour source 0 or 1; 07 R203. -/
  polPre : Nat
  /-- 0..131,071; 07 R212. -/
  polIdx : Nat
  /-- PTP; 08. -/
  ptp : PortPtp
  /-- 16 bits notice sequence; 11 R323. -/
  noticeSeq : Nat
deriving DecidableEq, Repr

/-- PortSt at reset, or as an unlisted entry. -/
def PortSt.init : PortSt :=
  { admin := false,
    link := false,
    training := false,
    maxLen := 9216,
    pvid := 1,
    pcp := 0,
    mac := 0,
    fcMode := 0,
    pfcMask := 0,
    watchdog := 0,
    pause := [0,0,0,0,0,0,0,0],
    storm := 0,
    stormSeen := 0,
    eee := false,
    eeeTimer := 100,
    lpi := false,
    linkUps := 0,
    lastSec := 0,
    lastNs := 0,
    lt := LtSt.init,
    pfcQuanta := 65535,
    pfcRefresh := 0,
    txPkt := none,
    txQ := 0,
    txBytes := [],
    txGate := none,
    ctlQueue := [],
    domainPort := false,
    mirIn := 0xFF,
    mirEg := 0xFF,
    frerId := false,
    frerSrc := false,
    learnOn := true,
    learnFwd := true,
    learnLimit := 2097152,
    polValid := false,
    polPre := 0,
    polIdx := 0,
    ptp := PortPtp.init,
    noticeSeq := 0 }

/-- One Prism selection entry (ch. 03). -/
structure SelEntry where
  /-- 1; 03 R71 R524. -/
  valid : Bool
  /-- 4 bits; 03 R71. -/
  cls : Nat
  /-- 4 bits; 03 R71. -/
  clsMask : Nat
  /-- 16 bits; 03 R71. -/
  et : Nat
  /-- 16 bits; 03 R71. -/
  etMask : Nat
  /-- 8 bits; 03 R71. -/
  proto : Nat
  /-- 8 bits; 03 R71. -/
  protoMask : Nat
  /-- 0..63; 03 R71. -/
  profile : Nat
deriving DecidableEq, Repr

/-- SelEntry at reset, or as an unlisted entry. -/
def SelEntry.init : SelEntry :=
  { valid := false,
    cls := 0,
    clsMask := 0,
    et := 0,
    etMask := 0,
    proto := 0,
    protoMask := 0,
    profile := 0 }

/-- One guard of a profile (ch. 03). -/
structure Guard where
  /-- 0 or 1; 03 R78. -/
  base : Nat
  /-- 0..124; 03 R78. -/
  off : Nat
  /-- u32; 03 R78. -/
  value : Nat
  /-- u32, 0 unused; 03 R78. -/
  mask : Nat
deriving DecidableEq, Repr

/-- Guard at reset, or as an unlisted entry. -/
def Guard.init : Guard :=
  { base := 0,
    off := 0,
    value := 0,
    mask := 0 }

/-- One field descriptor (ch. 03). -/
structure FieldDesc where
  /-- base: false base 0, true base L3; 03 R79. -/
  l3 : Bool
  /-- layer; 03 R79. -/
  inner : Bool
  /-- 0..127; 03 R79. -/
  off : Nat
  /-- 0..7; 03 R79. -/
  bit : Nat
  /-- 1..128 (320 for field 3 of profile 0 at reset, R72); 03 R79. -/
  width : Nat
  /-- key bit of the least significant bit; 03 R79. -/
  pos : Nat
deriving DecidableEq, Repr

/-- FieldDesc at reset, or as an unlisted entry. -/
def FieldDesc.init : FieldDesc :=
  { l3 := false,
    inner := false,
    off := 0,
    bit := 0,
    width := 0,
    pos := 0 }

/-- The three field descriptors of profile 0 at reset (R72). -/
def FieldDesc.resetFields : List FieldDesc :=
  [{ FieldDesc.init with off := 0, width := 48, pos := 400 },
   { FieldDesc.init with off := 6, width := 48, pos := 352 },
   { FieldDesc.init with l3 := true, off := 0, width := 320, pos := 32 }]

/-- One extraction profile (ch. 03). -/
structure Profile where
  /-- 1; 03 R78. -/
  valid : Bool
  /-- 0x00 0x02 0x03 0xFF; 03 R78. -/
  hostKey : Nat
  /-- 0 none 1 5-tuple 2 QP; 03 R78. -/
  fixKey : Nat
  /-- 0..9,190; 03 R78. -/
  payOff : Nat
  /-- 0..64; 03 R78. -/
  trailer : Nat
  /-- guard 0; 03 R78. -/
  g0 : Guard
  /-- guard 1; 03 R78. -/
  g1 : Guard
  /-- 0..24 descriptors; 03 R78. -/
  fields : List FieldDesc
deriving DecidableEq, Repr

/-- Profile at reset, or as an unlisted entry. -/
def Profile.init : Profile :=
  { valid := false,
    hostKey := 0,
    fixKey := 0,
    payOff := 0,
    trailer := 0,
    g0 := Guard.init,
    g1 := Guard.init,
    fields := [] }

/-- Profile 0 at reset: Ethernet (R72). -/
def Profile.zero : Profile :=
  { Profile.init with valid := true, hostKey := 0xFF, fields := FieldDesc.resetFields }

/-- The 16-byte action of a rule (ch. 03). -/
structure RuleAct where
  /-- 0..4; 03 R82. -/
  op : Nat
  /-- 8 bits override flags; 03 R82. -/
  flags : Nat
  /-- 0..7; 03 R82. -/
  tc : Nat
  /-- 0..7; 03 R82. -/
  slot : Nat
  /-- 0..131,071; 03 R82. -/
  pol : Nat
  /-- 0..63; 03 R82. -/
  mir : Nat
  /-- 0..3; 03 R82. -/
  host : Nat
  /-- 16 bits; 03 R82. -/
  md : Nat
  /-- 0..4,095; 03 R82. -/
  tmpl : Nat
deriving DecidableEq, Repr

/-- RuleAct at reset, or as an unlisted entry. -/
def RuleAct.init : RuleAct :=
  { op := 0,
    flags := 0,
    tc := 0,
    slot := 0,
    pol := 0,
    mir := 0,
    host := 0,
    md := 0,
    tmpl := 0 }

/-- One ternary rule (ch. 03). -/
structure Rule where
  /-- 1; 03 R81 R524. -/
  valid : Bool
  /-- 512 bits; 03 R81. -/
  value : Nat
  /-- 512 bits; 03 R81. -/
  mask : Nat
  /-- 16 bytes; 03 R82. -/
  act : RuleAct
deriving DecidableEq, Repr

/-- Rule at reset, or as an unlisted entry. -/
def Rule.init : Rule :=
  { valid := false,
    value := 0,
    mask := 0,
    act := RuleAct.init }

/-- Class and PCP map of a port in one bank (ch. 03). -/
structure PrismPort where
  /-- 0..15; 03 R71 R92. -/
  cls : Nat
  /-- 8 x 0..7; 03 R83. -/
  map : List Nat
deriving DecidableEq, Repr

/-- PrismPort at reset, or as an unlisted entry. -/
def PrismPort.init : PrismPort :=
  { cls := 0,
    map := [0,1,2,3,4,5,6,7] }

/-- One Prism bank, every slice (ch. 03). -/
structure PrismBank where
  /-- 128 entries; 03 R71. -/
  select : Tab SelEntry
  /-- 64 profiles; 03 R78. -/
  profiles : Tab Profile
  /-- 16 x 3,072, key 3,072 * slice + index; 03 R81. -/
  rules : Tab Rule
  /-- ports 0..531; 03 R83 R92. -/
  ports : Tab PrismPort
deriving DecidableEq, Repr

/-- PrismBank at reset, or as an unlisted entry. -/
def PrismBank.init : PrismBank :=
  { select := [],
    profiles := [(0, Profile.zero)],
    rules := [],
    ports := [] }

/-- Prism state outside the banks (ch. 03). -/
structure PrismSt where
  /-- bank 0; 03 R86. -/
  bank0 : PrismBank
  /-- bank 1; 03 R86. -/
  bank1 : PrismBank
  /-- u32 classification epoch; current bank = epoch mod 2; 03 R86. -/
  epoch : Nat
  /-- other bank loaded by a preparation; 03 R86 R92. -/
  loaded : Bool
  /-- packets in flight of the current epoch; 03 R89. -/
  inCur : Nat
  /-- packets in flight of the previous epoch; 03 R89. -/
  inPrev : Nat
  /-- 16 x 3,072 hit counters, 64 bits; 03 R93. -/
  hits : Tab Ctr
  /-- per slice: packet ids in the recirculation queue, at most 64; 03 R90. -/
  recirc : Tab (List Nat)
  /-- per ingress port: packet ids not yet released by the way merge, in stamp order; 01 R16. -/
  merge : Tab (List Nat)
deriving DecidableEq, Repr

/-- PrismSt at reset, or as an unlisted entry. -/
def PrismSt.init : PrismSt :=
  { bank0 := PrismBank.init,
    bank1 := PrismBank.init,
    epoch := 0,
    loaded := false,
    inCur := 0,
    inPrev := 0,
    hits := [],
    recirc := [],
    merge := [] }

/-- A VLAN table entry (ch. 04). -/
structure Vlan where
  /-- 1; 04 R114. -/
  valid : Bool
  /-- 0..16,383; 04 R114. -/
  fid : Nat
  /-- 0..255; 04 R114. -/
  vrf : Nat
  /-- 1; 04 R114. -/
  learn : Bool
  /-- 1 ingress filter; 04 R114. -/
  filter : Bool
  /-- 0 flood 1 drop 2 host; 04 R114. -/
  unk : Nat
  /-- 552 bits, ports 0..547; 04 R114. -/
  members : Nat
  /-- 552 bits; 04 R114. -/
  untagged : Nat
deriving DecidableEq, Repr

/-- Vlan at reset, or as an unlisted entry. -/
def Vlan.init : Vlan :=
  { valid := false,
    fid := 0,
    vrf := 0,
    learn := false,
    filter := false,
    unk := 0,
    members := 0,
    untagged := 0 }

/-- A next-hop entry (ch. 04). -/
structure NextHop where
  /-- 0 invalid 1 L3 2 L2 3 VXLAN; 04 R117. -/
  kind : Nat
  /-- 1; 04 R128. -/
  tagged : Bool
  /-- egress port; 04 R128. -/
  port : Nat
  /-- egress VLAN; 04 R128. -/
  vlan : Nat
  /-- router MAC entry 0..63; 04 R128. -/
  router : Nat
  /-- 48 bits destination MAC; 04 R128. -/
  mac : Nat
  /-- template 0..4,095; 04 R128. -/
  tmpl : Nat
deriving DecidableEq, Repr

/-- NextHop at reset, or as an unlisted entry. -/
def NextHop.init : NextHop :=
  { kind := 0,
    tagged := false,
    port := 0,
    vlan := 0,
    router := 0,
    mac := 0,
    tmpl := 0 }

/-- A tunnel or edit template (ch. 04). -/
structure Template where
  /-- 0 invalid 1 2 3; 04 R121 R128. -/
  kind : Nat
  /-- 0..64; 04 R121. -/
  rawLen : Nat
  /-- 24 bits; 04 R121. -/
  vni : Nat
  /-- u8; 04 R121. -/
  ttl : Nat
  /-- DSCP mode; 04 R121. -/
  dscpFixed : Bool
  /-- 6 bits; 04 R121. -/
  dscp : Nat
  /-- 16 bytes; 04 R128. -/
  src : List Byte
  /-- 16 bytes; 04 R128. -/
  dst : List Byte
  /-- up to 64 bytes; 04 R121. -/
  raw : List Byte
deriving DecidableEq, Repr

/-- Template at reset, or as an unlisted entry. -/
def Template.init : Template :=
  { kind := 0,
    rawLen := 0,
    vni := 0,
    ttl := 0,
    dscpFixed := false,
    dscp := 0,
    src := [],
    dst := [],
    raw := [] }

/-- A router MAC entry (ch. 04). -/
structure RouterMac where
  /-- 1; 04 R100. -/
  valid : Bool
  /-- u8; 04 R128. -/
  vrf : Nat
  /-- 48 bits; 04 R117. -/
  mac : Nat
deriving DecidableEq, Repr

/-- RouterMac at reset, or as an unlisted entry. -/
def RouterMac.init : RouterMac :=
  { valid := false,
    vrf := 0,
    mac := 0 }

/-- A VTEP entry (ch. 04). -/
structure Vtep where
  /-- 1; 04 R120. -/
  valid : Bool
  /-- u8; 04 R128. -/
  vrf : Nat
  /-- 4 or 6; 04 R128. -/
  fam : Nat
  /-- 16 bytes; 04 R128. -/
  addr : List Byte
deriving DecidableEq, Repr

/-- Vtep at reset, or as an unlisted entry. -/
def Vtep.init : Vtep :=
  { valid := false,
    vrf := 0,
    fam := 0,
    addr := [] }

/-- An LPM prefix (ch. 04). -/
structure Prefix where
  /-- 0..255; 04 R128. -/
  vrf : Nat
  /-- 4 or 6; 04 R128. -/
  fam : Nat
  /-- 0..32 or 0..128; 04 R128. -/
  plen : Nat
  /-- 32 or 128 bits, left-justified in 128; 04 R128. -/
  addr : Nat
  /-- 64 bits; 04 R118. -/
  data : BitVec 64
deriving DecidableEq, Repr

/-- Prefix at reset, or as an unlisted entry. -/
def Prefix.init : Prefix :=
  { vrf := 0,
    fam := 4,
    plen := 0,
    addr := 0,
    data := 0 }

/-- A FRER stream record (ch. 09). -/
structure FrerCfg where
  /-- 1; 09 R247. -/
  gen : Bool
  /-- 1; 09 R247. -/
  recover : Bool
  /-- 1; 09 R257. -/
  strip : Bool
  /-- 1; 09 R258. -/
  latent : Bool
  /-- 0..2 ports; 09 R251. -/
  members : List Nat
  /-- H 2..2,048; 09 R255. -/
  hist : Nat
  /-- 1..65,535; 09 R254. -/
  resetMs : Nat
  /-- 2..8; 09 R258. -/
  paths : Nat
  /-- u16; 09 R258. -/
  diff : Nat
  /-- 100..65,535; 09 R258. -/
  testMs : Nat
  /-- 1,000..3,600,000; 09 R258. -/
  latentMs : Nat
deriving DecidableEq, Repr

/-- FrerCfg at reset, or as an unlisted entry. -/
def FrerCfg.init : FrerCfg :=
  { gen := false,
    recover := false,
    strip := false,
    latent := false,
    members := [],
    hist := 0,
    resetMs := 1000,
    paths := 2,
    diff := 10,
    testMs := 2000,
    latentMs := 30000 }

/-- One generation's copy of the tables held once per generation (ch. 04, 09). -/
structure GenTables where
  /-- entries 1..4,094; 04 R114. -/
  vlan : Tab Vlan
  /-- 131,072 entries; 04 R117. -/
  nexthop : Tab NextHop
  /-- 65,536 groups of 0..256; 04 R119. -/
  ecmp : Tab (List Nat)
  /-- 1..4,095; 04 R121. -/
  templates : Tab Template
  /-- 64; 04 R100. -/
  routers : Tab RouterMac
  /-- 64; 04 R120. -/
  vteps : Tab Vtep
  /-- 524,288 IPv4 and 262,144 IPv6 prefixes; 04 R118. -/
  lpm : List Prefix
  /-- 65,536 records; 09 R247. -/
  frer : Tab FrerCfg
deriving DecidableEq, Repr

/-- GenTables at reset, or as an unlisted entry. -/
def GenTables.init : GenTables :=
  { vlan := [],
    nexthop := [],
    ecmp := [],
    templates := [],
    routers := [],
    vteps := [],
    lpm := [],
    frer := [] }

/-- An exact-match entry (ch. 04). -/
structure EmEntry where
  /-- key type 0x01..0x0B; 04 R98. -/
  ktype : Nat
  /-- 48-byte key field; 04 R98. -/
  key : List Byte
  /-- data word; 04 R102. -/
  data : BitVec 64
  /-- 2 bits; 04 R101. -/
  vis : Nat
  /-- 1; 04 R101. -/
  hit : Bool
  /-- 1; 04 R101. -/
  stale : Bool
  /-- 1; 04 R101. -/
  learned : Bool
  /-- 1; 04 R101. -/
  isStatic : Bool
  /-- 1; 04 R101. -/
  age : Bool
  /-- parity bad; 04 R101 R126. -/
  bad : Bool
  /-- held in the HBM shadow (software installed); 04 R122 R126. -/
  shadow : Bool
  /-- port whose learning limit a learned entry counts against; 04 R122. -/
  owner : Nat
deriving DecidableEq, Repr

/-- EmEntry at reset, or as an unlisted entry. -/
def EmEntry.init : EmEntry :=
  { ktype := 0,
    key := [],
    data := 0,
    vis := 3,
    hit := false,
    stale := false,
    learned := false,
    isStatic := false,
    age := false,
    bad := false,
    shadow := false,
    owner := 0 }

/-- A queued learn event (ch. 04). -/
structure LearnEv where
  /-- ingress port; 04 R122. -/
  port : Nat
  /-- FID; 04 R122. -/
  fid : Nat
  /-- 48 bits; 04 R122. -/
  mac : Nat
  /-- terminated frame; 04 R120 R122. -/
  vxlan : Bool
  /-- VRF; 04 R120. -/
  vrf : Nat
  /-- outer source address; 04 R120. -/
  outer : List Byte
deriving DecidableEq, Repr

/-- LearnEv at reset, or as an unlisted entry. -/
def LearnEv.init : LearnEv :=
  { port := 0,
    fid := 0,
    mac := 0,
    vxlan := false,
    vrf := 0,
    outer := [] }

/-- Forwarding state outside the generation copies (ch. 04). -/
structure FwdSt where
  /-- copy of generation 0; 04 R113. -/
  gen0 : GenTables
  /-- copy of generation 1; 04 R113. -/
  gen1 : GenTables
  /-- 1 bit table generation G; 04 R108, 14 R418. -/
  gen : Nat
  /-- packets in flight of the previous generation; 04 R108. -/
  inGenPrev : Nat
  /-- packets in flight of the current generation; 04 R108. -/
  inGenCur : Nat
  /-- normalisation still to do; 04 R112. -/
  normPending : Bool
  /-- 524,288 buckets x 4 ways, then stash: key = 4 * bucket + way, or 2,097,152 + slot; 04 R95 R97. -/
  em : Tab EmEntry
  /-- 32 bits seed of H0; 04 R96. -/
  seed0 : Nat
  /-- 32 bits seed of H1; 04 R96. -/
  seed1 : Nat
  /-- 32 bits seed of H2; 04 R119. -/
  seed2 : Nat
  /-- per slice FIFO of 4,096; 04 R122. -/
  learnQ : Tab (List LearnEv)
  /-- learned count per port; 04 R123. -/
  learnedOn : Tab Nat
  /-- s, 0 off; 04 R124. -/
  agePeriod : Nat
  /-- 25 counters of R129; 04 R129. -/
  ctr : Tab Ctr
  /-- (table, index) of other tables' entries with bad parity; 04 R127. -/
  badTable : List (Nat × Nat × Prefix)
deriving DecidableEq, Repr

/-- FwdSt at reset, or as an unlisted entry. -/
def FwdSt.init : FwdSt :=
  { gen0 := GenTables.init,
    gen1 := GenTables.init,
    gen := 0,
    inGenPrev := 0,
    inGenCur := 0,
    normPending := false,
    em := [],
    seed0 := 0,
    seed1 := 0,
    seed2 := 0,
    learnQ := [],
    learnedOn := [],
    agePeriod := 300,
    ctr := [],
    badTable := [] }

/-- Class settings (ch. 05). -/
structure ClassCfg where
  /-- 1; 05 R133. -/
  lossless : Bool
  /-- 1; 05 R152. -/
  spill : Bool
  /-- 0..10; 05 R139. -/
  alpha : Nat
  /-- cells 16..65,536; 05 R152. -/
  spillThr : Nat
  /-- MiB; 05 R154. -/
  spillLim : Nat
deriving DecidableEq, Repr

/-- ClassCfg at reset, or as an unlisted entry. -/
def ClassCfg.init : ClassCfg :=
  { lossless := false,
    spill := false,
    alpha := 7,
    spillThr := 512,
    spillLim := 0 }

/-- The class table at reset: TC0 and TC1 spill, TC4 to TC6 are lossless (R133, R152). -/
def ClassCfg.table : Tab ClassCfg :=
  [(0, { ClassCfg.init with spill := true }), (1, { ClassCfg.init with spill := true }),
   (4, { ClassCfg.init with lossless := true }), (5, { ClassCfg.init with lossless := true }),
   (6, { ClassCfg.init with lossless := true })]

/-- Per port and class settings and charges (ch. 05). -/
structure PortClass where
  /-- cells; 05 R159. -/
  xoffLim : Nat
  /-- cells; 05 R159. -/
  xonDelta : Nat
  /-- cells; none = default 8 network, 0 internal; 05 R159. -/
  minSet : Option Nat
  /-- sizing inputs of BUF_SET_HEADROOM: cable m, delay ps/m, partner response ns, cell factor x 100, 0 before any; 05 R150. -/
  hr : Nat × Nat × Nat × Nat
  /-- cells charged to the minimum; 05 R136. -/
  cMin : Nat
  /-- cells charged to the shared pool; 05 R136. -/
  cShared : Nat
  /-- cells charged to headroom; 05 R136. -/
  cHead : Nat
  /-- XOFF asserted; 05 R147. -/
  xoff : Bool
  /-- high-water cells since previous read; 05 R159. -/
  high : Nat
deriving DecidableEq, Repr

/-- PortClass at reset, or as an unlisted entry. -/
def PortClass.init : PortClass :=
  { xoffLim := 512,
    xonDelta := 64,
    minSet := none,
    hr := (0, 5000, 0, 0),
    cMin := 0,
    cShared := 0,
    cHead := 0,
    xoff := false,
    high := 0 }

/-- One curve (ch. 05). -/
structure WredCurve where
  /-- cells; 05 R143. -/
  min : Nat
  /-- cells; 05 R143. -/
  max : Nat
  /-- v of v/65,536; 05 R143. -/
  prob : Nat
deriving DecidableEq, Repr

/-- WredCurve at reset, or as an unlisted entry. -/
def WredCurve.init : WredCurve :=
  { min := 0xFFFFFFFF,
    max := 0xFFFFFFFF,
    prob := 0 }

/-- One WRED profile (ch. 05). -/
structure WredProfile where
  /-- 0..15; 05 R143. -/
  weight : Nat
  /-- 1; 05 R143. -/
  ecn : Bool
  /-- 1; 05 R143. -/
  markAbove : Bool
  /-- curve; 05 R143. -/
  green : WredCurve
  /-- curve; 05 R143. -/
  yellow : WredCurve
  /-- curve; 05 R143. -/
  red : WredCurve
deriving DecidableEq, Repr

/-- WredProfile at reset, or as an unlisted entry. -/
def WredProfile.init : WredProfile :=
  { weight := 0,
    ecn := false,
    markAbove := false,
    green := WredCurve.init,
    yellow := WredCurve.init,
    red := WredCurve.init }

/-- A queue: egress port, class, tenant slot (ch. 05). -/
structure QueueSt where
  /-- WRED enable; 05 R143. -/
  wred : Bool
  /-- 0..255; 05 R143. -/
  profile : Nat
  /-- WRED setting that takes effect at the next averaging update; 05 R159. -/
  wredNext : Option (Bool × Nat)
  /-- the profile in force until the next averaging update, where a live write has changed it; 05 R159. -/
  held : Option WredProfile
  /-- average depth, 16 fraction bits; 05 R144. -/
  avg : Nat
  /-- on-chip cells charged; 05 R135. -/
  cells : Nat
  /-- shared cells of the queue; 05 R139. -/
  shared : Nat
  /-- spilled cells; 05 R144 R154. -/
  spilled : Nat
deriving DecidableEq, Repr

/-- QueueSt at reset, or as an unlisted entry. -/
def QueueSt.init : QueueSt :=
  { wred := false,
    profile := 0,
    wredNext := none,
    held := none,
    avg := 0,
    cells := 0,
    shared := 0,
    spilled := 0 }

/-- One message pool (ch. 05). -/
structure Pool where
  /-- allocated buffer numbers, rising; 05 R155. -/
  used : List Nat
  /-- most buffers in use since previous read (lowest free); 05 R159. -/
  low : Nat
  /-- POOL_LOW raised, not re-armed; 05 R158. -/
  alarm : Bool
deriving DecidableEq, Repr

/-- Pool at reset, or as an unlisted entry. -/
def Pool.init : Pool :=
  { used := [],
    low := 0,
    alarm := false }

/-- Buffer manager (ch. 05). -/
structure BufSt where
  /-- cells whose level-2 bit is clear, rising; 05 R131. -/
  usedCells : List Nat
  /-- rotating start point of allocation; 05 R131. -/
  allocStart : Tab Nat
  /-- 8 classes; 05 R133. -/
  classes : Tab ClassCfg
  /-- key 8 * port + class, ports 0..547; 05 R136 R147. -/
  portClass : Tab PortClass
  /-- 256; 05 R143. -/
  wred : Tab WredProfile
  /-- key 64 * port + 8 * class + slot; 05 R135. -/
  queues : Tab QueueSt
  /-- VOQs in spill (key of FabSt.voq); 05 R152. -/
  spillVoqs : List Nat
  /-- per slice: draws taken from the 32-bit LFSR; 05 R145. -/
  lfsr : Tab Nat
  /-- 4,194,304 x 256 B; 05 R155. -/
  pool0 : Pool
  /-- 524,288 x 2 KiB; 05 R155. -/
  pool1 : Pool
  /-- 65,536 x 16 KiB; 05 R155. -/
  pool2 : Pool
  /-- 16,384 x 64 KiB; 05 R155. -/
  pool3 : Pool
  /-- 22 counters of R160; 05 R160. -/
  ctr : Tab Ctr
deriving DecidableEq, Repr

/-- BufSt at reset, or as an unlisted entry. -/
def BufSt.init : BufSt :=
  { usedCells := [],
    allocStart := [],
    classes := ClassCfg.table,
    portClass := [],
    wred := [],
    queues := [],
    spillVoqs := [],
    lfsr := [],
    pool0 := Pool.init,
    pool1 := Pool.init,
    pool2 := Pool.init,
    pool3 := Pool.init,
    ctr := [] }

/-- A packet held by the device (ch. 01-09). -/
structure Pkt where
  /-- model number of the packet; 01 R23. -/
  id : Nat
  /-- port of first-pass entry 0..547; 03 R74. -/
  inPort : Nat
  /-- slice that holds the packet; 01 R15. -/
  slice : Nat
  /-- a mirror copy that enters admission through the recirculation port; 16 R476. -/
  viaMirQ : Bool
  /-- its bytes have entered the request count of its VOQ; 06 R163, 08 R235. -/
  asked : Bool
  /-- dropped, and its last byte not yet received; 02 R44. -/
  dead : Bool
  /-- dropped at a gate reset on its way through the fabric: its cells are discarded at the egress; 08 R243. -/
  gone : Bool
  /-- must be received whole before it leaves (computed UDP checksum); 04 R121. -/
  saf : Bool
  /-- the frame as it stands, without FCS; 01 R22. -/
  bytes : List Byte
  /-- the frame as step 12 makes it, before tags: L3 rewrite, VXLAN origination or termination; 04 R117 R120. -/
  edit : Option (List Byte)
  /-- consumed by Moaras once its FCS is known good; 08 R222. -/
  toMoaras : Bool
  /-- length as received, FCS included; 02 R43. -/
  rxLen : Nat
  /-- it exceeds the ingress limit: reception stopped there; 02 R44. -/
  overLong : Bool
  /-- last byte received; 02 R44. -/
  whole : Bool
  /-- received FCS failed; 02 R44. -/
  fcsBad : Bool
  /-- must end with a complemented FCS; 02 R44. -/
  stomp : Bool
  /-- source address before the L3 rewrite; 11 R323. -/
  smac : Nat
  /-- VLAN ID of R74; 02 R51. -/
  vid : Nat
  /-- PCP of R74; 02 R51. -/
  pcp : Nat
  /-- received DEI; 07 R203. -/
  dei : Bool
  /-- tag with non-zero VID received; 03 R74. -/
  tagged : Bool
  /-- classification epoch; 03 R89. -/
  epoch : Nat
  /-- table generation; 04 R108. -/
  gen : Nat
  /-- 0..2; 03 R74. -/
  pass : Nat
  /-- recirculation metadata; 03 R74. -/
  md : Nat
  /-- edit template of the pending hop; 03 R90. -/
  tmpl : Nat
  /-- override flags kept over passes; 03 R83. -/
  ovFlags : Nat
  /-- overriding class; 03 R83. -/
  ovTc : Nat
  /-- overriding tenant slot; 03 R83. -/
  ovSlot : Nat
  /-- overriding policer; 03 R83. -/
  ovPol : Nat
  /-- overriding mirror session; 03 R83. -/
  ovMir : Nat
  /-- ingress priority; 05 R134. -/
  prio : Nat
  /-- egress class; 05 R134. -/
  tc : Nat
  /-- tenant slot; 03 R83. -/
  slot : Nat
  /-- 0 green 1 yellow 2 red; 07 R201. -/
  colour : Nat
  /-- egress ports whose copy gets the CE mark at step 12; 05 R146. -/
  ce : List Nat
  /-- FRER sequence number; 09 R250. -/
  seqNum : Option Nat
  /-- remove the R-TAG at step 12; 09 R257. -/
  strip : Bool
  /-- egress ports; 04 R115. -/
  dests : List Nat
  /-- multi-destination; 06 R169. -/
  multi : Bool
  /-- destinations are FRER member ports; 09 R251. -/
  frerCopy : Bool
  /-- 0 tag by VLAN membership, 1 tagged with egVid, 2 untagged; 04 R116 R117. -/
  tagMode : Nat
  /-- egress VLAN of the next hop; 04 R117. -/
  egVid : Nat
  /-- ports sent untagged under R116; 04 R116. -/
  untagged : Nat
  /-- Proofing target the frame is addressed to; 11 R309. -/
  target : Option Nat
  /-- host port that gets the copy of a COPY or TRAP action; 03 R82. -/
  copyHost : Option Nat
  /-- steps 1 to 6 done, waiting at the merge; 01 R16. -/
  ready : Bool
  /-- learn event made at step 4, not yet queued; 04 R122, 09 R249. -/
  learn : Option LearnEv
  /-- ingress charge taken at receipt; 05 R135. -/
  charged : Bool
  /-- landing cells taken for it, until it is admitted; 05 R149. -/
  landing : List Nat
  /-- no cell was left for its rest: what has left of it ends with a complemented FCS; 05 R141. -/
  midCut : Bool
  /-- cells of it taken from the shared pool; 05 R139. -/
  shared : Nat
  /-- its first cell has left for the fabric; 06 R171. -/
  crossed : Bool
  /-- admitted to a host port by TRAP, and counted in its epoch until it reaches the host FIFO; 03 R91. -/
  trapped : Bool
  /-- host cause 0..4; 12 R375. -/
  cause : Nat
  /-- deciding rule index; 12 R375. -/
  rule : Nat
  /-- bits SHORT FRAG UNKNOWN_ENCAP RTAG TAGGED; 12 R375. -/
  keyFlags : Nat
  /-- cells held in the cell buffer; 05 R130. -/
  cells : List Nat
  /-- held in the park queue of that target; 11 R317. -/
  parked : Option Nat
  /-- held in the spill region; 05 R152. -/
  spilled : Bool
  /-- queues its cells are charged to; 05 R135. -/
  chargedQ : List Nat
  /-- receive timestamp seconds; 08 R221. -/
  tsSec : Nat
  /-- receive timestamp ns; 08 R221. -/
  tsNs : Nat
  /-- receive timestamp fraction; 08 R221. -/
  tsFrac : Nat
  /-- stamped PTP event message; 08 R222. -/
  tsValid : Bool
  /-- admission time seconds; 07 R207. -/
  admSec : Nat
  /-- admission time ns; 07 R207. -/
  admNs : Nat
  /-- tap entry number; 10 R282. -/
  tap : Option Nat
  /-- the time base was not LOCKED at its receive time; 10 R292. -/
  unlocked : Bool
  /-- BYPASS host packet; 12 R376. -/
  bypass : Bool
  /-- this packet is a copy of that mirror session; 16 R476. -/
  mirror : Option Nat
  /-- sessions that have made a drop copy of it; 16 R473. -/
  mirDrops : List Nat
  /-- copies not yet released; 06 R169. -/
  refs : Nat
  /-- queued in a class that a bake took out of the gated mask: still stored whole; 08 R244. -/
  stored : Bool
deriving DecidableEq, Repr

/-- Pkt at reset, or as an unlisted entry. -/
def Pkt.init : Pkt :=
  { id := 0,
    inPort := 0,
    slice := 0,
    viaMirQ := false,
    asked := false,
    dead := false,
    gone := false,
    saf := false,
    bytes := [],
    edit := none,
    toMoaras := false,
    rxLen := 0,
    overLong := false,
    whole := false,
    fcsBad := false,
    stomp := false,
    smac := 0,
    vid := 0,
    pcp := 0,
    dei := false,
    tagged := false,
    epoch := 0,
    gen := 0,
    pass := 0,
    md := 0,
    tmpl := 0,
    ovFlags := 0,
    ovTc := 0,
    ovSlot := 0,
    ovPol := 0,
    ovMir := 0,
    prio := 0,
    tc := 0,
    slot := 0,
    colour := 0,
    ce := [],
    seqNum := none,
    strip := false,
    dests := [],
    multi := false,
    frerCopy := false,
    tagMode := 0,
    egVid := 0,
    untagged := 0,
    target := none,
    copyHost := none,
    ready := false,
    learn := none,
    charged := false,
    landing := [],
    midCut := false,
    shared := 0,
    crossed := false,
    trapped := false,
    cause := 0,
    rule := 0xFFFF,
    keyFlags := 0,
    cells := [],
    parked := none,
    spilled := false,
    chargedQ := [],
    tsSec := 0,
    tsNs := 0,
    tsFrac := 0,
    tsValid := false,
    admSec := 0,
    admNs := 0,
    tap := none,
    unlocked := false,
    bypass := false,
    mirror := none,
    mirDrops := [],
    refs := 0,
    stored := false }

/-- A virtual output queue at an ingress slice (ch. 06). -/
structure Voq where
  /-- packet ids on chip, oldest first; 06 R162. -/
  q : List Nat
  /-- packet ids in the spill region behind them; 05 R152. -/
  spillQ : List Nat
  /-- read-back in progress; 05 R153. -/
  readback : Bool
  /-- signed byte balance; 06 R163. -/
  credit : Int
  /-- bytes not yet requested; 06 R163. -/
  unreq : Nat
  /-- cumulative bytes granted modulo 2^32; 06 R164. -/
  granted : Nat
  /-- grant bytes that have reached the ingress slice, modulo 2^32; 06 R164. -/
  received : Nat
  /-- credit returned and on its way to the egress slice, bytes; 06 R166. -/
  returning : Nat
  /-- requested bytes the egress slice keeps; 06 R163. -/
  reqAtEgress : Nat
  /-- went from empty to non-empty, request not yet sent; 06 R163. -/
  fresh : Bool
  /-- uptime in ns when it last emptied: since then it has held its standing credit; 06 R166. -/
  heldAt : Nat
deriving DecidableEq, Repr

/-- Voq at reset, or as an unlisted entry. -/
def Voq.init : Voq :=
  { q := [],
    spillQ := [],
    readback := false,
    credit := 0,
    unreq := 0,
    granted := 0,
    received := 0,
    returning := 0,
    reqAtEgress := 0,
    fresh := false,
    heldAt := 0 }

/-- A fabric cell: header and sideband of R167 (ch. 06). -/
structure Cell where
  /-- 16 bits; 06 R167. -/
  seq : Nat
  /-- 4 bits; 06 R167. -/
  src : Nat
  /-- 4 bits; 06 R167. -/
  dst : Nat
  /-- 1; 06 R167. -/
  multi : Bool
  /-- 10 bits; 06 R167. -/
  port : Nat
  /-- 3 bits; 06 R167. -/
  tc : Nat
  /-- 3 bits; 06 R167. -/
  slot : Nat
  /-- 1; 06 R167. -/
  sop : Bool
  /-- 1; 06 R167. -/
  eop : Bool
  /-- 3 bits, words minus 1; 06 R167. -/
  words : Nat
  /-- the packet (edit instructions and replication key of the sideband); 06 R167 R169. -/
  pkt : Nat
deriving DecidableEq, Repr

/-- Cell at reset, or as an unlisted entry. -/
def Cell.init : Cell :=
  { seq := 0,
    src := 0,
    dst := 0,
    multi := false,
    port := 0,
    tc := 0,
    slot := 0,
    sop := false,
    eop := false,
    words := 0,
    pkt := 0 }

/-- A cell in a plane link's replay buffer (ch. 06). -/
structure LinkCell where
  /-- the cell; 06 R174. -/
  cell : Cell
  /-- link number: 32 * plane + slice up, + 16 down; 06 R174 R181. -/
  link : Nat
  /-- sends so far; 06 R174. -/
  sends : Nat
  /-- time-base ns of the first send; 06 R174. -/
  since : Nat
  /-- arrived bad and discarded by the receiver, not yet resent; 06 R174. -/
  lost : Bool
  /-- link sequence number, kept over resends; 06 R174. -/
  num : Nat
  /-- retry count in force at its first send; 06 R174, 14 R417. -/
  retries : Nat
  /-- retry budget in force at its first send, ns; 06 R174, 14 R417. -/
  budgetNs : Nat
deriving DecidableEq, Repr

/-- LinkCell at reset, or as an unlisted entry. -/
def LinkCell.init : LinkCell :=
  { cell := Cell.init,
    link := 0,
    sends := 1,
    since := 0,
    lost := false,
    num := 0,
    retries := 0,
    budgetNs := 0 }

/-- The packet a source slice is sending on a pair (ch. 06). -/
structure Sending where
  /-- packet id; 06 R168. -/
  pkt : Nat
  /-- next cell index; 06 R168. -/
  next : Nat
  /-- multi-destination copy; 06 R169. -/
  multi : Bool
deriving DecidableEq, Repr

/-- Sending at reset, or as an unlisted entry. -/
def Sending.init : Sending :=
  { pkt := 0,
    next := 0,
    multi := false }

/-- One (source, destination) slice pair (ch. 06). -/
structure Pair where
  /-- 16 bits next sequence to send; 06 R168. -/
  nextSeq : Nat
  /-- 16 bits oldest unreleased as the source knows it; 06 R164 R172. -/
  oldest : Nat
  /-- cells outstanding, at most 256; 06 R172. -/
  out : List Cell
  /-- packets queued to cross, the head being sent; 06 R168. -/
  sending : List Sending
  /-- 16 bits at the egress; 06 R176. -/
  expected : Nat
  /-- resequencing slots, 256; 06 R176. -/
  stored : Tab Cell
  /-- 1; 06 R177. -/
  gapOpen : Bool
  /-- time-base ns at which the gap opened; 06 R177. -/
  gapSince : Nat
  /-- discarding cells without SOP at expected; 06 R178. -/
  skipSop : Bool
  /-- sequence numbers whose release credit is on its way to the source; 06 R172. -/
  done : List Nat
deriving DecidableEq, Repr

/-- Pair at reset, or as an unlisted entry. -/
def Pair.init : Pair :=
  { nextSeq := 0,
    oldest := 0,
    out := [],
    sending := [],
    expected := 0,
    stored := [],
    gapOpen := false,
    gapSince := 0,
    skipSop := false,
    done := [] }

/-- One crossbar plane (ch. 06). -/
structure Plane where
  /-- 4 states; 06 R180. -/
  state : PlaneState
  /-- 0..4; 06 R183. -/
  cause : Nat
  /-- u32 since cold reset; 06 R183. -/
  failures : Nat
  /-- times (ns) of the test cells lost within 1 ms; 06 R180. -/
  testLoss : List Nat
  /-- times (ns) of the give-ups within 100 us; 06 R181. -/
  giveUps : List Nat
  /-- standby joining the survivors; 06 R181. -/
  switching : Bool
deriving DecidableEq, Repr

/-- Plane at reset, or as an unlisted entry. -/
def Plane.init : Plane :=
  { state := .active,
    cause := 0,
    failures := 0,
    testLoss := [],
    giveUps := [],
    switching := false }

/-- Planes 0 to 3 ACTIVE (unlisted), plane 4 STANDBY (R180). -/
def Plane.table : Tab Plane := [(4, { Plane.init with state := .standby })]

/-- Fabric settings and credit of a port and class (ch. 06). -/
structure FabPort where
  /-- 1; 06 R183. -/
  express : Bool
  /-- bytes; 06 R163. -/
  quantum : Nat
  /-- bytes; 06 R165. -/
  window : Nat
  /-- outstanding credit bytes; 06 R165. -/
  outstanding : Nat
deriving DecidableEq, Repr

/-- FabPort at reset, or as an unlisted entry. -/
def FabPort.init : FabPort :=
  { express := true,
    quantum := 4096,
    window := 16384,
    outstanding := 0 }

/-- FAB_SET_PARAMS settings (ch. 06). -/
structure FabParams where
  /-- 1,000..64,000; 06 R177. -/
  gapNs : Nat
  /-- 200..32,000; 06 R174. -/
  budgetNs : Nat
  /-- 1..3; 06 R174. -/
  retries : Nat
  /-- percent 0..50; 06 R169. -/
  share : Nat
  /-- 1; 06 R183. -/
  express : Bool
deriving DecidableEq, Repr

/-- FabParams at reset, or as an unlisted entry. -/
def FabParams.init : FabParams :=
  { gapNs := 2000,
    budgetNs := 400,
    retries := 3,
    share := 10,
    express := true }

/-- The cell fabric (ch. 06). -/
structure FabSt where
  /-- settings; 06 R183. -/
  params : FabParams
  /-- key 32,800 * slice + VOQ number (host VOQs 32,768 + 8 h + c); 06 R161. -/
  voqs : Tab Voq
  /-- key 8 * slice + class: multi-destination queues; 06 R169. -/
  multiQ : Tab (List Nat)
  /-- key 16 * src + dst, 256 pairs; 06 R168. -/
  pairs : Tab Pair
  /-- 5 planes; 06 R180. -/
  planes : Tab Plane
  /-- key 8 * port + class, ports 0..515; 06 R183. -/
  ports : Tab FabPort
  /-- replay buffers of the plane links; 06 R174. -/
  links : List LinkCell
  /-- link sequence number of the next cell of each link; 06 R174. -/
  linkNext : Tab Nat
  /-- per source slice: round-robin tie break over planes; 06 R170. -/
  rr : Tab Nat
  /-- per source slice: destination after the one served last; 06 R172. -/
  rrDst : Tab Nat
  /-- 15 counters of R184; 06 R184. -/
  ctr : Tab Ctr
deriving DecidableEq, Repr

/-- FabSt at reset, or as an unlisted entry. -/
def FabSt.init : FabSt :=
  { params := FabParams.init,
    voqs := [],
    multiQ := [],
    pairs := [],
    planes := Plane.table,
    ports := [],
    links := [],
    linkNext := [],
    rr := [],
    rrDst := [],
    ctr := [] }

/-- A shaper (ch. 07). -/
structure Shaper where
  /-- 1; 07 R191. -/
  enable : Bool
  /-- kb/s; 07 R197. -/
  rate : Nat
  /-- bytes; 07 R197. -/
  burst : Nat
  /-- bytes 0..63; 07 R197. -/
  adj : Nat
  /-- signed bytes, 16 fraction bits (scaled by 65,536); 07 R194. -/
  tokens : Int
  /-- time-base time of the previous refill, 2^-48 ns; 07 R195. -/
  last : Nat
  /-- new enable, rate, burst, adjust waiting for the next refill; 07 R198 R199. -/
  pend : Option (Bool × Nat × Nat × Nat)
deriving DecidableEq, Repr

/-- Shaper at reset, or as an unlisted entry. -/
def Shaper.init : Shaper :=
  { enable := false,
    rate := 0,
    burst := 0,
    adj := 20,
    tokens := 0,
    last := 0,
    pend := none }

/-- A scheduler node (ch. 07). -/
structure Node where
  /-- 0..7; 07 R188. -/
  prio : Nat
  /-- 1..255; 07 R188. -/
  weight : Nat
  /-- shaper; 07 R194. -/
  shaper : Shaper
  /-- transmit deficit bytes; 07 R190 R192. -/
  txDef : Nat
  /-- grant deficit bytes; 07 R192. -/
  grDef : Nat
  /-- child last served, per priority (transmit); 07 R190. -/
  txPtr : List Nat
  /-- child last served, per priority (grant); 07 R190. -/
  grPtr : List Nat
  /-- round robin over the 16 ingress slices; 06 R163. -/
  rrSlice : Nat
  /-- u64 bytes transmitted; 07 R212. -/
  bytes : Nat
  /-- u64 frames transmitted; 07 R212. -/
  frames : Nat
deriving DecidableEq, Repr

/-- Node at reset, or as an unlisted entry. -/
def Node.init : Node :=
  { prio := 0,
    weight := 16,
    shaper := Shaper.init,
    txDef := 0,
    grDef := 0,
    txPtr := [],
    grPtr := [],
    rrSlice := 0,
    bytes := 0,
    frames := 0 }

/-- A frame in an egress queue (ch. 07). -/
structure EgItem where
  /-- packet id; 07 R186. -/
  pkt : Nat
  /-- source slice; 06 R172. -/
  src : Nat
  /-- pair sequence numbers of its cells arrived; 07 R186. -/
  cells : List Nat
  /-- last cell has arrived; 07 R193. -/
  complete : Bool
  /-- started at the MAC; 07 R193. -/
  started : Bool
  /-- multi-destination copy; 06 R169. -/
  multi : Bool
  /-- cut short by a gap timeout or a slice reset: it ends with a complemented FCS; 06 R178, 17 R489. -/
  stomp : Bool
deriving DecidableEq, Repr

/-- EgItem at reset, or as an unlisted entry. -/
def EgItem.init : EgItem :=
  { pkt := 0,
    src := 0,
    cells := [],
    complete := false,
    started := false,
    multi := false,
    stomp := false }

/-- The settings of a policer (ch. 07). -/
structure PolCfg where
  /-- trTCM; 07 R200. -/
  tr : Bool
  /-- colour-aware; 07 R200. -/
  aware : Bool
  /-- DROP_RED; 07 R200. -/
  dropRed : Bool
  /-- 0..63; 07 R200. -/
  adj : Nat
  /-- kb/s; 07 R200. -/
  cir : Nat
  /-- bytes; 07 R200. -/
  cbs : Nat
  /-- kb/s; 07 R200. -/
  pir : Nat
  /-- EBS or PBS bytes; 07 R200. -/
  ebs : Nat
deriving DecidableEq, Repr

/-- PolCfg at reset, or as an unlisted entry. -/
def PolCfg.init : PolCfg :=
  { tr := false,
    aware := false,
    dropRed := true,
    adj := 0,
    cir := 0,
    cbs := 0,
    pir := 0,
    ebs := 0 }

/-- One policer (ch. 07). -/
structure Policer where
  /-- settings in force; 07 R200. -/
  cfg : PolCfg
  /-- committed bucket, bytes with 16 fraction bits (scaled); 07 R202. -/
  tc : Int
  /-- excess or peak bucket, scaled; 07 R202. -/
  te : Int
  /-- time-base time of the previous refill, 2^-48 ns; 07 R202. -/
  last : Nat
  /-- settings waiting for the next refill; 07 R206. -/
  pend : Option PolCfg
  /-- 64; 07 R212. -/
  green : Ctr
  /-- 64; 07 R212. -/
  yellow : Ctr
  /-- 64; 07 R212. -/
  red : Ctr
  /-- 64; 07 R212. -/
  redDrops : Ctr
deriving DecidableEq, Repr

/-- Policer at reset, or as an unlisted entry. -/
def Policer.init : Policer :=
  { cfg := PolCfg.init,
    tc := 0,
    te := 0,
    last := 0,
    pend := none,
    green := 0,
    yellow := 0,
    red := 0,
    redDrops := 0 }

/-- A Loupe alarm profile (ch. 07). -/
structure LoupeProf where
  /-- 1; 07 R209. -/
  depthOn : Bool
  /-- 1; 07 R209. -/
  delayOn : Bool
  /-- 1..15; 07 R209. -/
  clearCount : Nat
  /-- cells; 07 R209. -/
  depthRaise : Nat
  /-- cells; 07 R209. -/
  depthClear : Nat
  /-- ns; 07 R209. -/
  delayRaise : Nat
  /-- ns; 07 R209. -/
  delayClear : Nat
deriving DecidableEq, Repr

/-- LoupeProf at reset, or as an unlisted entry. -/
def LoupeProf.init : LoupeProf :=
  { depthOn := false,
    delayOn := false,
    clearCount := 1,
    depthRaise := 0,
    depthClear := 0,
    delayRaise := 0,
    delayClear := 0 }

/-- Loupe settings of a port and class (ch. 07). -/
structure LoupeQ where
  /-- 0..63; 07 R209. -/
  prof : Nat
  /-- stream every sample; 07 R212. -/
  all : Bool
  /-- stream samples with an alarm; 07 R212. -/
  alarmed : Bool
deriving DecidableEq, Repr

/-- LoupeQ at reset, or as an unlisted entry. -/
def LoupeQ.init : LoupeQ :=
  { prof := 0,
    all := false,
    alarmed := false }

/-- Loupe state of one item (ch. 07). -/
structure LoupeItem where
  /-- latest 32-byte record; 07 R208. -/
  last : List Byte
  /-- cells; 07 R211. -/
  maxDepth : Nat
  /-- ns; 07 R211. -/
  maxDelay : Nat
  /-- alarm active; 07 R210. -/
  depthAl : Bool
  /-- alarm active; 07 R210. -/
  delayAl : Bool
  /-- consecutive samples below clear; 07 R210. -/
  depthBelow : Nat
  /-- consecutive samples below clear; 07 R210. -/
  delayBelow : Nat
deriving DecidableEq, Repr

/-- LoupeItem at reset, or as an unlisted entry. -/
def LoupeItem.init : LoupeItem :=
  { last := [],
    maxDepth := 0,
    maxDelay := 0,
    depthAl := false,
    delayAl := false,
    depthBelow := 0,
    delayBelow := 0 }

/-- Scheduling, policing and Loupe (ch. 07). -/
structure SchedSt where
  /-- key: port node p; 1,024 + 8 p + c; 8,192 + 64 p + 8 c + t; 07 R185. -/
  nodes : Tab Node
  /-- egress queues keyed 64 p + 8 c + t; host ports 32,768 + 8 h + c; 07 R186. -/
  egq : Tab (List EgItem)
  /-- frames of Moaras that wait with their class at a port, oldest first: (class, frame); key: port; 02 R48. -/
  waitTx : Tab (List (Nat × Output))
  /-- 131,072; 07 R200. -/
  pol : Tab Policer
  /-- 64; 07 R209. -/
  prof : Tab LoupeProf
  /-- key 8 * port + class; 07 R209. -/
  queue : Tab LoupeQ
  /-- key 34,848 * slice + item order; 07 R207. -/
  items : Tab LoupeItem
  /-- next item of each slice's round; 07 R207. -/
  cursor : Tab Nat
  /-- 13 counters of R213; 07 R213. -/
  ctr : Tab Ctr
deriving DecidableEq, Repr

/-- SchedSt at reset, or as an unlisted entry. -/
def SchedSt.init : SchedSt :=
  { nodes := [],
    egq := [],
    waitTx := [],
    pol := [],
    prof := [],
    queue := [],
    items := [],
    cursor := [],
    ctr := [] }

/-- Recovery state of a stream (ch. 09). -/
structure FrerSt where
  /-- 16 bits RecovSeqNum; 09 R252. -/
  recov : Nat
  /-- H bits, bit k; 09 R252. -/
  hist : Nat
  /-- TakeAny; 09 R252 R256. -/
  takeAny : Bool
  /-- reset timer: true from the start of recovery and from each passed frame until it fires; 09 R254. -/
  timer : Bool
  /-- 16-bit generator; 09 R250. -/
  next : Nat
  /-- passed in the test period; 09 R258. -/
  latPassed : Nat
  /-- discarded in the test period; 09 R258. -/
  latDisc : Nat
deriving DecidableEq, Repr

/-- FrerSt at reset, or as an unlisted entry. -/
def FrerSt.init : FrerSt :=
  { recov := 0,
    hist := 0,
    takeAny := true,
    timer := false,
    next := 0,
    latPassed := 0,
    latDisc := 0 }

/-- A Leaven cluster (ch. 09, 10). -/
structure Cluster where
  /-- physical core of slots 0..11; none: no core; 09 R262. -/
  slots : List (Option Nat)
  /-- failed physical cores; 09 R262. -/
  failed : List Nat
  /-- displaced cores, and cores under RED_RESYNC, whose self-test is to pass; 09 R270. -/
  testing : List Nat
  /-- those of them that had failed: their counters stand still until it passes; 10 R303. -/
  resync : List Nat
  /-- slots waiting for the spare, with the core each lost; 09 R263. -/
  pendSub : List (Nat × Nat)
  /-- u16; 09 R268. -/
  substs : Nat
  /-- u32 self-test runs; 09 R268. -/
  runs : Nat
  /-- u32 self-test failures; 09 R268. -/
  runFails : Nat
  /-- ECLK divider 2, 3 (stretch) or 4 (trip); 01 R18, 17 R480 R485. -/
  eclkDiv : Nat
deriving DecidableEq, Repr

/-- Cluster at reset, or as an unlisted entry. -/
def Cluster.init : Cluster :=
  { slots := [some 0, some 1, some 2, some 3, some 4, some 5, some 6, some 7, some 8, some 9, some 10, some 11],
    failed := [],
    testing := [],
    resync := [],
    pendSub := [],
    substs := 0,
    runs := 0,
    runFails := 0,
    eclkDiv := 2 }

/-- Counters of one physical core (ch. 10). -/
structure Core where
  /-- 64; 10 R303. -/
  cycles : Ctr
  /-- 64; 10 R303. -/
  retired : Ctr
  /-- 64; 10 R303. -/
  wasted : Ctr
  /-- 64; 10 R303. -/
  front : Ctr
  /-- 64; 10 R303. -/
  back : Ctr
  /-- 8 event codes; 10 R304. -/
  codes : List Nat
  /-- 8 x 64 bits; 10 R304. -/
  prog : List Nat
deriving DecidableEq, Repr

/-- Core at reset, or as an unlisted entry. -/
def Core.init : Core :=
  { cycles := 0,
    retired := 0,
    wasted := 0,
    front := 0,
    back := 0,
    codes := [0,0,0,0,0,0,0,0],
    prog := [0,0,0,0,0,0,0,0] }

/-- A fixity flow (ch. 10). -/
structure Flow where
  /-- 16 bits flow frame number; 10 R279. -/
  next : Nat
  /-- 0..15; 10 R276. -/
  cluster : Nat
  /-- digest mode; 10 R276. -/
  sha : Bool
  /-- 64; 10 R305. -/
  tapped : Ctr
  /-- 64; 10 R305. -/
  records : Ctr
  /-- 64; 10 R305. -/
  skipped : Ctr
  /-- 64; 10 R305. -/
  unrec : Ctr
  /-- 64; 10 R305. -/
  spanBytes : Ctr
deriving DecidableEq, Repr

/-- Flow at reset, or as an unlisted entry. -/
def Flow.init : Flow :=
  { next := 0,
    cluster := 0,
    sha := false,
    tapped := 0,
    records := 0,
    skipped := 0,
    unrec := 0,
    spanBytes := 0 }

/-- A tap entry in a cluster's tap FIFO (ch. 10). -/
structure Tap where
  /-- MODEL number; 10 R282. -/
  id : Nat
  /-- packet; 10 R282. -/
  pkt : Nat
  /-- ingress slice; 10 R285. -/
  slice : Nat
  /-- flow index; 10 R279. -/
  flow : Nat
  /-- digest mode; 10 R276. -/
  sha : Bool
  /-- flow frame number; 10 R279. -/
  num : Nat
  /-- ingress port; 10 R286. -/
  port : Nat
  /-- receive seconds; 10 R286. -/
  sec : Nat
  /-- receive ns; 10 R286. -/
  ns : Nat
  /-- u32; 10 R281. -/
  locator : Nat
  /-- span bytes; 10 R280. -/
  span : List Byte
  /-- bytes reserved in the FIFO; 10 R282. -/
  reserved : Nat
  /-- committed; 10 R282. -/
  committed : Bool
  /-- FCS_BAD; 10 R287. -/
  fcsBad : Bool
  /-- 0..3; 10 R287. -/
  fate : Nat
  /-- skip reason, 0 none; 10 R283. -/
  skip : Nat
  /-- time base not LOCKED at the record time; 10 R292. -/
  unlocked : Bool
  /-- span length; 10 R280. -/
  spanLen : Nat
  /-- skip notice: fixity slot whose bank holds it; 10 R284. -/
  stripe : Nat
  /-- physical core running its work item; 10 R272. -/
  core : Option Nat
deriving DecidableEq, Repr

/-- Tap at reset, or as an unlisted entry. -/
def Tap.init : Tap :=
  { id := 0,
    pkt := 0,
    slice := 0,
    flow := 0,
    sha := false,
    num := 0,
    port := 0,
    sec := 0,
    ns := 0,
    locator := 0,
    span := [],
    reserved := 0,
    committed := false,
    fcsBad := false,
    fate := 0,
    skip := 0,
    unlocked := false,
    spanLen := 0,
    stripe := 0,
    core := none }

/-- An open or due batch of a cluster (ch. 10). -/
structure Batch where
  /-- batch open; 10 R289. -/
  isOpen : Bool
  /-- positions reserved, in order: tap or notice number, and the record once written; 10 R289. -/
  recs : List (Nat × Option (List Byte))
  /-- unrecorded skips; 10 R284. -/
  unrec : Nat
  /-- close reason once due; 10 R289. -/
  due : Option Nat
  /-- close deferred; 10 R290. -/
  deferred : Bool
  /-- the positions whose receive time fell while the time base was not LOCKED; 10 R292. -/
  unlocked : List Nat
  /-- boot count of the old key it closes under; 10 R290. -/
  key : Option Nat
deriving DecidableEq, Repr

/-- Batch at reset, or as an unlisted entry. -/
def Batch.init : Batch :=
  { isOpen := false,
    recs := [],
    unrec := 0,
    due := none,
    deferred := false,
    unlocked := [],
    key := none }

/-- Fixity state of one cluster (ch. 10). -/
structure FixClu where
  /-- 1..4,096; 10 R289. -/
  size : Nat
  /-- us 100..10,000,000; 10 R289. -/
  timer : Nat
  /-- the open batch; 10 R289. -/
  cur : Batch
  /-- due batches not yet closed, oldest first; 10 R289. -/
  due : List Batch
  /-- tap entries, oldest first; 10 R282. -/
  taps : List Tap
  /-- skip notices on their way; 10 R284. -/
  transit : List Tap
  /-- skip notices queued, at most 8,192; 10 R284. -/
  notices : List Tap
  /-- skip notices arrived, modulo 8: the stripe of the next one; 10 R284. -/
  arrived : Nat
  /-- closed unsigned receipts in the signing unit's queue, at most 16, with the boot count of their key; 10 R290. -/
  signing : List (Nat × List Byte)
  /-- record index of the first record of the oldest unclosed batch; 10 R295. -/
  base : Nat
  /-- u64; 10 R295. -/
  recTail : Nat
  /-- record ring: records of closed batches by slot; 10 R295. -/
  records : Tab (List Byte)
  /-- u64; 10 R295. -/
  rcHead : Nat
  /-- u64; 10 R295. -/
  rcTail : Nat
  /-- receipt ring contents by slot; 10 R295. -/
  receipts : Tab (List Byte)
  /-- u64 next chain sequence; 10 R294. -/
  chainSeq : Nat
  /-- boot count of the key of the chain in progress; none: the next receipt starts one; 10 R294 R299. -/
  chainKey : Option Nat
  /-- previous receipt hash (empty: 32 zero bytes); 10 R294. -/
  prevHash : List Byte
  /-- u64; 10 R299. -/
  orphanFirst : Nat
  /-- u32; 10 R299. -/
  orphanCount : Nat
  /-- the skips of the last second: time in ns, SKIPPED records, unrecorded skips; 10 R307. -/
  skips : List (Nat × Nat × Nat)
deriving DecidableEq, Repr

/-- FixClu at reset, or as an unlisted entry. -/
def FixClu.init : FixClu :=
  { size := 4096,
    timer := 1000,
    cur := Batch.init,
    due := [],
    taps := [],
    transit := [],
    notices := [],
    arrived := 0,
    signing := [],
    base := 0,
    recTail := 0,
    records := [],
    rcHead := 0,
    rcTail := 0,
    receipts := [],
    chainSeq := 0,
    chainKey := none,
    prevHash := [],
    orphanFirst := 0,
    orphanCount := 0,
    skips := [] }

/-- Leaven engines and the fixity witness (ch. 09, 10). -/
structure LeavenSt where
  /-- 16; 09 R262. -/
  clusters : Tab Cluster
  /-- key 16 * cluster + core; 10 R303. -/
  cores : Tab Core
  /-- 65,536; 10 R279. -/
  flows : Tab Flow
  /-- 16; 10 R289. -/
  fix : Tab FixClu
  /-- MODEL next tap number; 10 R282. -/
  nextTap : Nat
  /-- 16 counters of R306; 10 R306. -/
  ctr : Tab Ctr
  /-- FIX_FLUSH commands waiting: clusters and the receipt head they wait for; 10 R305. -/
  flushes : List (Req × List (Nat × Nat))
deriving DecidableEq, Repr

/-- LeavenSt at reset, or as an unlisted entry. -/
def LeavenSt.init : LeavenSt :=
  { clusters := [],
    cores := [],
    flows := [],
    fix := [],
    nextTap := 0,
    ctr := [],
    flushes := [] }

/-- A Proofing class (ch. 11). -/
structure PClass where
  /-- ms; 11 R311. -/
  notice : Nat
  /-- ms; 11 R311. -/
  hold : Nat
  /-- MiB; 11 R311. -/
  park : Nat
  /-- kb/s; 11 R311. -/
  drain : Nat
  /-- ms; 11 R311. -/
  spinup : Nat
  /-- s; 11 R311. -/
  idle : Nat
  /-- NOTICE_SOURCE; 11 R311. -/
  source : Bool
  /-- FORWARD_FAILED; 11 R311. -/
  fwdFailed : Bool
deriving DecidableEq, Repr

/-- PClass at reset, or as an unlisted entry. -/
def PClass.init : PClass :=
  { notice := 1000,
    hold := 30000,
    park := 16,
    drain := 20000000,
    spinup := 20000,
    idle := 0,
    source := false,
    fwdFailed := false }

/-- An entry of a target's notice memory (ch. 11). -/
structure Notice where
  /-- 48 bits source address; 11 R322. -/
  mac : Nat
  /-- elapsed ns of the last notice; 11 R322. -/
  since : Nat
  /-- ingress port of the frame; 11 R323. -/
  port : Nat
  /-- 48 bits target MAC; 11 R323. -/
  tmac : Nat
  /-- 0, 4 or 6; 11 R323. -/
  fam : Nat
  /-- 16 bytes; 11 R323. -/
  ip : List Byte
deriving DecidableEq, Repr

/-- Notice at reset, or as an unlisted entry. -/
def Notice.init : Notice :=
  { mac := 0,
    since := 0,
    port := 0,
    tmac := 0,
    fam := 0,
    ip := [] }

/-- A Proofing target (ch. 11). -/
structure Target where
  /-- 1; 11 R308. -/
  valid : Bool
  /-- 0..15; 11 R308. -/
  cls : Nat
  /-- 0..3; 11 R308. -/
  bus : Nat
  /-- 0..31; 11 R308. -/
  drop : Nat
  /-- 0..95; 11 R308. -/
  slot : Nat
  /-- W 0..1,000; 11 R308. -/
  power : Nat
  /-- 5 states; 11 R308. -/
  state : TgtState
  /-- code 0..5; 11 R332 R338. -/
  spindle : Nat
  /-- packet ids, oldest first; 11 R317. -/
  parkQ : List Nat
  /-- units of 256 bytes; 11 R317. -/
  parkUnits : Nat
  /-- hold timer running; 11 R314. -/
  holdOn : Bool
  /-- ms it started with; 11 R312. -/
  holdLimit : Nat
  /-- time ns at which it started; 11 R314. -/
  holdSince : Nat
  /-- class parameters in effect for the target; 11 R312. -/
  eff : PClass
  /-- wake queued; 11 R319. -/
  wakeQ : Bool
  /-- time ns of the wake's issue; 11 R323. -/
  wakeSince : Nat
  /-- bus, drop and slot in effect: those of the last wake, or of the record when it became valid; 11 R312 R319. -/
  loc : Nat × Nat × Nat
  /-- becomes invalid when the queue empties; 11 R325. -/
  invalidate : Bool
  /-- report to apply when the queue empties; 11 R315. -/
  pendSpindle : Option Nat
  /-- notice memory, oldest first, at most 8; 11 R322. -/
  memory : List Notice
  /-- PROOF_PARKED raised for this park episode; 11 R314. -/
  episode : Bool
  /-- last state change seconds; 11 R338. -/
  lastSec : Nat
  /-- last state change ns; 11 R338. -/
  lastNs : Nat
deriving DecidableEq, Repr

/-- Target at reset, or as an unlisted entry. -/
def Target.init : Target :=
  { valid := false,
    cls := 0,
    bus := 0,
    drop := 0,
    slot := 0,
    power := 0,
    state := .awake,
    spindle := 0,
    parkQ := [],
    parkUnits := 0,
    holdOn := false,
    holdLimit := 0,
    holdSince := 0,
    eff := PClass.init,
    wakeQ := false,
    wakeSince := 0,
    loc := (0, 0, 0),
    invalidate := false,
    pendSpindle := none,
    memory := [],
    episode := false,
    lastSec := 0,
    lastNs := 0 }

/-- One Shelf Link drop (ch. 11). -/
structure Drop where
  /-- 1; 11 R338. -/
  enabled : Bool
  /-- 0..96; 11 R319. -/
  maxWakes : Nat
  /-- W; 11 R319. -/
  budget : Nat
  /-- 1; 11 R335. -/
  present : Bool
  /-- consecutive; 11 R335. -/
  misses : Nat
  /-- u16; 11 R331. -/
  pollSeq : Nat
  /-- u16 known change count; 11 R332. -/
  known : Nat
  /-- POLLs sent, modulo 1,000; 11 R332. -/
  polls : Nat
  /-- FORCE_PAGE due; 11 R332. -/
  force : Bool
  /-- u16 last command sequence given; 11 R331. -/
  cmdSeq : Nat
  /-- command outstanding: type and slots; 11 R331. -/
  cmd : Option (Nat × List Nat)
  /-- queued wakes, target indexes in trigger order; 11 R319. -/
  wakeQ : List Nat
  /-- wakes queued in the current poll cycle; 11 R319. -/
  wakeNew : List Nat
  /-- queued SPIN_DOWN slots; 11 R321. -/
  downQ : List Nat
  /-- IDENTIFY to send in the next slot; 11 R335. -/
  identDue : Bool
  /-- last STATUS with the last page, 64 bytes; 11 R338. -/
  status : List Byte
  /-- last IDENT, 36 bytes; 11 R338. -/
  ident : List Byte
  /-- ON_BATTERY in the last STATUS; 11 R320. -/
  battery : Bool
deriving DecidableEq, Repr

/-- Drop at reset, or as an unlisted entry. -/
def Drop.init : Drop :=
  { enabled := false,
    maxWakes := 8,
    budget := 10000,
    present := false,
    misses := 0,
    pollSeq := 0,
    known := 0,
    polls := 0,
    force := false,
    cmdSeq := 0,
    cmd := none,
    wakeQ := [],
    wakeNew := [],
    downQ := [],
    identDue := false,
    status := [],
    ident := [],
    battery := false }

/-- One Shelf Link bus (ch. 11). -/
structure Bus where
  /-- 1; 11 R333, 17 R492. -/
  enable : Bool
  /-- us; 11 R333. -/
  period : Nat
  /-- cycles run, for the absent-drop poll of 16; 11 R333. -/
  cycle : Nat
  /-- drops still to get their slot in this cycle; 11 R333. -/
  slots : List Nat
  /-- drop and type of the reply awaited; 11 R331. -/
  await : Option (Nat × Nat)
  /-- SHL_DE pin, as it stands between frames; 11 R326. -/
  de : Bool
  /-- SHL_TX pin, as it stands between frames; 11 R326. -/
  tx : Bool
  /-- SHL_RX pin: what the idle line reads as; 11 R326. -/
  rx : Bool
deriving DecidableEq, Repr

/-- Bus at reset, or as an unlisted entry. -/
def Bus.init : Bus :=
  { enable := false,
    period := 1000,
    cycle := 0,
    slots := [],
    await := none,
    de := false,
    tx := true,
    rx := true }

/-- Proofing and Shelf Link (ch. 11). -/
structure ProofSt where
  /-- 16; 11 R311. -/
  classes : Tab PClass
  /-- 65,536; 11 R308. -/
  targets : Tab Target
  /-- key 32 * bus + drop; 11 R329. -/
  drops : Tab Drop
  /-- 4; 11 R326. -/
  buses : Tab Bus
  /-- units of the park region in use; 11 R317. -/
  parkUnits : Nat
  /-- notices sent in the current second; 11 R322. -/
  noticeSec : Nat
  /-- that second; 11 R322. -/
  noticeAt : Nat
  /-- 21 counters of R339; 11 R339. -/
  ctr : Tab Ctr
deriving DecidableEq, Repr

/-- ProofSt at reset, or as an unlisted entry. -/
def ProofSt.init : ProofSt :=
  { classes := [],
    targets := [],
    drops := [],
    buses := [],
    parkUnits := 0,
    noticeSec := 0,
    noticeAt := 0,
    ctr := [] }

/-- An event as raised (ch. 16). -/
structure EvEntry where
  /-- 16 bits; 16 R466. -/
  code : Nat
  /-- 0 info 1 warning 2 correctable 3 uncorrectable; 16 R466. -/
  sev : Nat
  /-- 32 bits; 16 R466. -/
  seq : Nat
  /-- 48 bits; 16 R466. -/
  sec : Nat
  /-- 32 bits; 16 R466. -/
  ns : Nat
  /-- 0..108 bytes; 16 R466. -/
  args : List Byte
deriving DecidableEq, Repr

/-- EvEntry at reset, or as an unlisted entry. -/
def EvEntry.init : EvEntry :=
  { code := 0,
    sev := 0,
    seq := 0,
    sec := 0,
    ns := 0,
    args := [] }

/-- The event log (ch. 16). -/
structure EvtSt where
  /-- 1; 16 R471. -/
  enable : Bool
  /-- 2 bits; 16 R471. -/
  minSev : Nat
  /-- 64; 16 R471. -/
  base : BitVec 64
  /-- 6..20; 16 R471. -/
  k : Nat
  /-- u64; 16 R471. -/
  head : Nat
  /-- u64; 16 R471. -/
  tail : Nat
  /-- 32 bits; 16 R471. -/
  nextSeq : Nat
  /-- 1; 16 R471. -/
  lostSeen : Bool
  /-- at most 1,024 entries on chip; 16 R470. -/
  held : List EvEntry
  /-- events lost since the previous marker; 16 R470. -/
  lost : Nat
  /-- first lost sequence; 16 R468. -/
  lostFirst : Nat
  /-- last lost sequence; 16 R466. -/
  lostLast : Nat
  /-- marker written in the reserved last entry; 16 R470. -/
  marked : Bool
deriving DecidableEq, Repr

/-- EvtSt at reset, or as an unlisted entry. -/
def EvtSt.init : EvtSt :=
  { enable := false,
    minSev := 0,
    base := 0,
    k := 10,
    head := 0,
    tail := 0,
    nextSeq := 0,
    lostSeen := false,
    held := [],
    lost := 0,
    lostFirst := 0,
    lostLast := 0,
    marked := false }

/-- The counter sweep and Loupe rings (ch. 16). -/
structure SwpSt where
  /-- 1; 16 R464. -/
  enable : Bool
  /-- ms; 16 R464. -/
  period : Nat
  /-- 16 bits; 16 R464. -/
  groups : Nat
  /-- 64; 16 R464. -/
  base : BitVec 64
  /-- 16..34; 16 R464. -/
  k : Nat
  /-- u64; 16 R464. -/
  head : Nat
  /-- u64; 16 R464. -/
  tail : Nat
  /-- u64; 16 R464. -/
  lastSeq : Nat
  /-- RING_FULL_SEEN; 16 R464. -/
  full : Bool
  /-- TOO_LARGE; 16 R464. -/
  tooLarge : Bool
  /-- dump being written (BUSY); 16 R460 R463. -/
  dump : Option (List Byte)
  /-- SNAP taken as the next sweep; 16 R463. -/
  snapDue : Bool
  /-- sweeps taken since cold reset; 16 R462. -/
  taken : Nat
  /-- sweeps missed since the previous dump written; 16 R462. -/
  missed : Nat
  /-- 16 bits, slices reset since the previous dump; 16 R462. -/
  slicesReset : Nat
  /-- warm reset or hitless restart since the previous dump; 16 R462. -/
  restarted : Bool
  /-- Loupe ring 1; 16 R464. -/
  lEnable : Bool
  /-- 64; 16 R464. -/
  lBase : BitVec 64
  /-- 10..26; 16 R464. -/
  lK : Nat
  /-- u64; 16 R464. -/
  lHead : Nat
  /-- u64; 16 R464. -/
  lTail : Nat
  /-- RING_FULL_SEEN; 16 R464. -/
  lFull : Bool
deriving DecidableEq, Repr

/-- SwpSt at reset, or as an unlisted entry. -/
def SwpSt.init : SwpSt :=
  { enable := false,
    period := 0,
    groups := 0xFF7B,
    base := 0,
    k := 24,
    head := 0,
    tail := 0,
    lastSeq := 0,
    full := false,
    tooLarge := false,
    dump := none,
    snapDue := false,
    taken := 0,
    missed := 0,
    slicesReset := 0,
    restarted := false,
    lEnable := false,
    lBase := 0,
    lK := 16,
    lHead := 0,
    lTail := 0,
    lFull := false }

/-- A mirror session (ch. 16). -/
structure Mirror where
  /-- 1; 16 R472. -/
  enable : Bool
  /-- 0..4; 16 R478. -/
  mode : Nat
  /-- copy class; 16 R472. -/
  cls : Nat
  /-- 0..515; 16 R478. -/
  dest : Nat
  /-- 0 or 64..9,216; 16 R474. -/
  trunc : Nat
  /-- 0..16,777,216; 16 R473. -/
  interval : Nat
  /-- outer VLAN; 16 R478. -/
  vlan : Nat
  /-- UDP port; 16 R478. -/
  udp : Nat
  /-- u8; 16 R478. -/
  dscp : Nat
  /-- u8; 16 R478. -/
  ttl : Nat
  /-- 48 bits; 16 R478. -/
  dmac : Nat
  /-- 48 bits; 16 R478. -/
  smac : Nat
  /-- 16 bytes; 16 R478. -/
  src : List Byte
  /-- 16 bytes; 16 R478. -/
  dst : List Byte
  /-- 64 bits; 16 R478. -/
  dropMask : Nat
  /-- 32 bits session sequence; 16 R475. -/
  seq : Nat
deriving DecidableEq, Repr

/-- Mirror at reset, or as an unlisted entry. -/
def Mirror.init : Mirror :=
  { enable := false,
    mode := 0,
    cls := 0,
    dest := 0,
    trunc := 0,
    interval := 0,
    vlan := 0,
    udp := 0,
    dscp := 0,
    ttl := 0,
    dmac := 0,
    smac := 0,
    src := [],
    dst := [],
    dropMask := 0,
    seq := 0 }

/-- Telemetry and mirroring (ch. 16). -/
structure TelSt where
  /-- 64; 16 R472. -/
  mirrors : Tab Mirror
  /-- candidates seen, key 16 * session + slice; 16 R473. -/
  cand : Tab Nat
  /-- per slice mirror queue of 256 copies; 16 R476. -/
  mirQ : Tab (List Nat)
  /-- key 4 * session + i; 16 R479. -/
  mirCtr : Tab Ctr
  /-- 6 counters of R479; 16 R479. -/
  ctr : Tab Ctr
  /-- key 64 * port + reason; 16 R458. -/
  drops : Tab Ctr
  /-- key 22 * port + i; 02 R68. -/
  portCtr : Tab Ctr
  /-- key 13 * slice + i; 03 R94. -/
  prismCtr : Tab Ctr
  /-- key 9 * port + i; 08 R246. -/
  timeCtr : Tab Ctr
  /-- 13 counters of R271; 09 R271. -/
  redCtr : Tab Ctr
  /-- key 9 * stream + i; 09 R270. -/
  frerCtr : Tab Ctr
  /-- key 8 * function + i; 13 R404. -/
  mbxCtr : Tab Ctr
  /-- 12 counters of R503; 17 R503. -/
  pwrCtr : Tab Ctr
  /-- each slice's share of a counter summed over all slices, key 64 * (16 * group + slice) + i: group 0 of R129, 1 R160, 2 R184,
  3 R213, 4 R503, 5 R339, 6 to 9 of R479, sixteen sessions each; 16 R457. -/
  share : Tab Ctr
  /-- time ns + 1 of the last event of a rate-limited kind, key 2^24 * code + instance; 05 R142 R154 and others. -/
  rate : Tab Nat
deriving DecidableEq, Repr

/-- TelSt at reset, or as an unlisted entry. -/
def TelSt.init : TelSt :=
  { mirrors := [],
    cand := [],
    mirQ := [],
    mirCtr := [],
    ctr := [],
    drops := [],
    portCtr := [],
    prismCtr := [],
    timeCtr := [],
    redCtr := [],
    frerCtr := [],
    mbxCtr := [],
    pwrCtr := [],
    share := [],
    rate := [] }

/-- One mailbox (ch. 13). -/
structure Mbox where
  /-- 2 bits; 13 R382. -/
  state : MbState
  /-- 16 bits; 13 R383 MBX_STATUS. -/
  submits : Nat
  /-- 16 bits; 13 R383 MBX_STATUS. -/
  responses : Nat
  /-- 3,840 bytes request area; 13 R381. -/
  req : Tab Byte
  /-- response area: header and payload; 13 R381 R386. -/
  resp : List Byte
deriving DecidableEq, Repr

/-- Mbox at reset, or as an unlisted entry. -/
def Mbox.init : Mbox :=
  { state := .free,
    submits := 0,
    responses := 0,
    req := [],
    resp := [] }

/-- A submitted command not yet completed (ch. 13). -/
structure Job where
  /-- opcode; 13 R385. -/
  op : Nat
  /-- its request; 13 R385. -/
  req : Req
  /-- taken by Moaras, completes later; 13 R393 R396. -/
  running : Bool
  /-- a mailbox still waits for its response; 13 R384 R393. -/
  boxed : Bool
  /-- mailboxes waiting for its replay, with INDIRECT and response address; 13 R392. -/
  waiters : List (Nat × Bool × Nat)
  /-- message pool buffer that holds the indirect payload; 13 R388 R395. -/
  buf : Option Nat
  /-- time of its doorbell, ns of the time base; 14 R413 R427. -/
  rung : Nat
deriving DecidableEq, Repr

/-- Job at reset, or as an unlisted entry. -/
def Job.init : Job :=
  { op := 0,
    req := Req.plain 0 [],
    running := false,
    boxed := true,
    waiters := [],
    buf := none,
    rung := 0 }

/-- One tag history entry (ch. 13). -/
structure HistEntry where
  /-- u32; 13 R391. -/
  tag : Nat
  /-- opcode; 13 R391. -/
  op : Nat
  /-- 16 bits; 13 R391. -/
  flags : Nat
  /-- u32; 13 R391. -/
  setId : Nat
  /-- payload length; 13 R391. -/
  len : Nat
  /-- CRC-32C of the payload; 13 R391. -/
  crc : Nat
  /-- u16; 13 R391. -/
  status : Nat
  /-- u16; 13 R391. -/
  detail : Nat
  /-- bake epoch of the response; 13 R391. -/
  epoch : Nat
  /-- payload length field of the response; 13 R386 R391. -/
  rlen : Nat
  /-- response payload; 13 R391. -/
  payload : List Byte
deriving DecidableEq, Repr

/-- HistEntry at reset, or as an unlisted entry. -/
def HistEntry.init : HistEntry :=
  { tag := 0,
    op := 0,
    flags := 0,
    setId := 0,
    len := 0,
    crc := 0,
    status := 0,
    detail := 0,
    epoch := 0,
    rlen := 0,
    payload := [] }

/-- Mailboxes and Moaras (ch. 13). -/
structure MbxSt where
  /-- 32; 13 R381. -/
  boxes : Tab Mbox
  /-- commands in doorbell order; at most 256 per range; 13 R394 R395. -/
  jobs : List Job
  /-- 4,096 newest of function 0; 13 R391 R400. -/
  hist0 : List HistEntry
  /-- 4,096 newest of function 1; 13 R391 R400. -/
  hist1 : List HistEntry
  /-- GBL_STATUS.MOARAS_READY; 13 R400, 12 R346. -/
  ready : Bool
  /-- u32 boot count; 13 R400, 17 R497. -/
  boots : Nat
  /-- u32 hitless restarts since cold reset; 13 R403. -/
  restarts : Nat
  /-- cause of the hitless restart in progress; 13 R401 R405. -/
  restarting : Option Nat
  /-- clock ticks elapsed when Moaras became ready; 13 R403. -/
  readyUp : Nat
  /-- ASYNC commands that were executing when a hitless restart began: opcode, request; 13 R401. -/
  lostAsync : List (Nat × Req)
  /-- events Moaras raises once its restart is over: code, severity, arguments; 14 R419. -/
  heldEvents : List (Nat × Nat × List Byte)
  /-- commands written during a failover, to be served after it; 09 R266. -/
  gapCmds : List Job
deriving DecidableEq, Repr

/-- MbxSt at reset, or as an unlisted entry. -/
def MbxSt.init : MbxSt :=
  { boxes := [],
    jobs := [],
    hist0 := [],
    hist1 := [],
    ready := false,
    boots := 0,
    restarts := 0,
    restarting := none,
    readyUp := 0,
    lostAsync := [],
    heldEvents := [],
    gapCmds := [] }

/-- One staged write (ch. 14). -/
structure StagedCmd where
  /-- opcode; 14 R408. -/
  op : Nat
  /-- payload; 14 R408. -/
  payload : List Byte
deriving DecidableEq, Repr

/-- StagedCmd at reset, or as an unlisted entry. -/
def StagedCmd.init : StagedCmd :=
  { op := 0,
    payload := [] }

/-- A staged set (ch. 14). -/
structure SetSt where
  /-- u32 set ID; 14 R406. -/
  id : Nat
  /-- 5 states; 14 R407. -/
  state : SetState
  /-- at most 1,048,576; 14 R408. -/
  cmds : List StagedCmd
  /-- commit point passed; 14 R414. -/
  committed : Bool
  /-- 1; 14 R430. -/
  inDoubt : Bool
  /-- 1; 14 R433. -/
  domain : Bool
  /-- bake now; 14 R413. -/
  now : Bool
  /-- instant seconds; 14 R413. -/
  sec : Nat
  /-- instant ns; 14 R413. -/
  ns : Nat
  /-- PWR_RESTORE's bake; 17 R493. -/
  restore : Bool
  /-- the BAKE_COMMIT or PWR_RESTORE request to complete; 14 R433. -/
  req : Option Req
  /-- its opcode; 14 R433. -/
  op : Nat
  /-- domain bake ID; 14 R427. -/
  bakeId : Nat
  /-- ACK sent; 14 R430. -/
  acked : Bool
  /-- GO received, or the decision recorded; 14 R428 R430. -/
  go : Bool
  /-- domain epoch of COMMIT or GO; 14 R431. -/
  domEpoch : Nat
  /-- a domain bake of more than one member; 14 R411 R414. -/
  several : Bool
  /-- GO came to the set while it was in doubt, so that it bakes after T; 14 R430 R432. -/
  late : Bool
deriving DecidableEq, Repr

/-- SetSt at reset, or as an unlisted entry. -/
def SetSt.init : SetSt :=
  { id := 0,
    state := .isOpen,
    cmds := [],
    committed := false,
    inDoubt := false,
    domain := false,
    now := false,
    sec := 0,
    ns := 0,
    restore := false,
    req := none,
    op := 0,
    bakeId := 0,
    acked := false,
    go := false,
    domEpoch := 0,
    several := false,
    late := false }

/-- A member of the domain bake at the manager (ch. 14). -/
structure Member where
  /-- device index 0..63; 14 R428. -/
  idx : Nat
  /-- set ID; 14 R428. -/
  set : Nat
  /-- vote received; 14 R428. -/
  voted : Bool
  /-- bake epoch of its vote; 14 R431. -/
  epoch : Nat
  /-- ACK received; 14 R428. -/
  acked : Bool
  /-- u16; 14 R433. -/
  status : Nat
  /-- u16; 14 R433. -/
  detail : Nat
deriving DecidableEq, Repr

/-- Member at reset, or as an unlisted entry. -/
def Member.init : Member :=
  { idx := 0,
    set := 0,
    voted := false,
    epoch := 0,
    acked := false,
    status := 0,
    detail := 0 }

/-- The domain bake in progress at the manager (ch. 14). -/
structure DomBake where
  /-- bake ID; 14 R427. -/
  id : Nat
  /-- T seconds; 14 R428. -/
  sec : Nat
  /-- T ns; 14 R428. -/
  ns : Nat
  /-- ms G; 14 R427. -/
  margin : Nat
  /-- at most 64; 14 R428. -/
  members : List Member
  /-- domain epoch once computed; 14 R431. -/
  epoch : Nat
  /-- decision recorded; 14 R428. -/
  decided : Bool
  /-- the DOM_BAKE request; 14 R433. -/
  req : Req
deriving DecidableEq, Repr

/-- DomBake at reset, or as an unlisted entry. -/
def DomBake.init : DomBake :=
  { id := 0,
    sec := 0,
    ns := 0,
    margin := 20,
    members := [],
    epoch := 0,
    decided := false,
    req := Req.plain 0 [] }

/-- A domain peer (ch. 14). -/
structure Peer where
  /-- DOM_ADMIT entry; 14 R422. -/
  admitted : Bool
  /-- identity key hash; 14 R422. -/
  hash : List Byte
  /-- session established; 14 R422. -/
  enrolled : Bool
  /-- 1; 14 R426. -/
  present : Bool
  /-- u16; 14 R426 R433. -/
  misses : Nat
  /-- its bake epoch as last known; 14 R426 R433. -/
  epoch : Nat
  /-- u8 key epoch; 14 R423 R453. -/
  keyEpoch : Nat
  /-- highest accepted sequence; 14 R424. -/
  rxHigh : Nat
  /-- accepted sequences within the 64 below; 14 R424. -/
  rxSeen : List Nat
  /-- u64 sequence sent; 14 R423. -/
  txSeq : Nat
  /-- domain ports that reach it; 14 R423. -/
  ports : List Nat
  /-- HEARTBEAT unanswered; 14 R426. -/
  awaitAck : Bool
  /-- frames sealed since the last key update; 15 R453. -/
  sealed : Nat
  /-- KEY_UPDATE sent, not acknowledged; 15 R453. -/
  keyUpd : Bool
  /-- secret of the direction to it, 48 bytes, of which key and salt derive; 14 R424, 15 R453. -/
  txSecret : List Byte
  /-- secret of the direction from it; 14 R424, 15 R453. -/
  rxSecret : List Byte
  /-- at a worker: its epoch as it last told the manager; 14 R426. -/
  told : Nat
  /-- at the manager: staged table changes that it has forwarded to it, each with its set ID; 14 R413 R427. -/
  changes : List (Nat × StagedCmd)
  /-- removed by DOM_ADMIT, its END_SESSION not confirmed yet; 14 R425, 15 R453. -/
  leaving : Bool
deriving DecidableEq, Repr

/-- Peer at reset, or as an unlisted entry. -/
def Peer.init : Peer :=
  { admitted := false,
    hash := [],
    enrolled := false,
    present := false,
    misses := 0,
    epoch := 0,
    keyEpoch := 0,
    rxHigh := 0,
    rxSeen := [],
    txSeq := 0,
    ports := [],
    awaitAck := false,
    sealed := 0,
    keyUpd := false,
    txSecret := [],
    rxSecret := [],
    told := 0,
    changes := [],
    leaving := false }

/-- A domain message not yet confirmed (ch. 14). -/
structure DomMsg where
  /-- receiver index; 14 R425. -/
  peer : Nat
  /-- message ID u16; 14 R425. -/
  id : Nat
  /-- type u8; 14 R425. -/
  type : Nat
  /-- body; 14 R425. -/
  body : List Byte
  /-- sends so far, at most 5; 14 R425. -/
  sends : Nat
  /-- the port of its first send, for one in clear text; 14 R423 R425. -/
  clear : Option Nat
deriving DecidableEq, Repr

/-- DomMsg at reset, or as an unlisted entry. -/
def DomMsg.init : DomMsg :=
  { peer := 0,
    id := 0,
    type := 0,
    body := [],
    sends := 1,
    clear := none }

/-- Staging, bake and domain (ch. 14). -/
structure BakeSt where
  /-- staged sets created since reset; 14 R406. -/
  sets : List SetSt
  /-- next set ID; 14 R406. -/
  nextSet : Nat
  /-- u32 bake epoch; 14 R418. -/
  epoch : Nat
  /-- shadow configuration: last value of every configuration item; 17 R493. -/
  snapshot : List StagedCmd
  /-- shadow held after a warm reset for PWR_RESTORE; 17 R493. -/
  heldShadow : Option (List StagedCmd)
  /-- bake epoch at the warm reset; 17 R505. -/
  heldEpoch : Nat
  /-- index 0..63; 14 R422. -/
  peers : Tab Peer
  /-- unconfirmed messages; 14 R425. -/
  msgs : List DomMsg
  /-- message ID u16; 14 R423. -/
  nextMsg : Nat
  /-- domain bake in progress; 14 R427. -/
  dom : Option DomBake
  /-- bake ID; 14 R427. -/
  nextBake : Nat
  /-- decisions recorded in the shadow: bake ID, domain epoch; 14 R428 R430. -/
  outcomes : List (Nat × Nat)
  /-- worker FROZEN; 14 R426. -/
  frozen : Bool
  /-- this worker is enrolled; 14 R420. -/
  enrolled : Bool
  /-- 1; 14 R433. -/
  enrolling : Bool
  /-- own device index; 14 R423. -/
  ownIdx : Nat
  /-- u32 DOM_AUTH_FAILURES; 14 R424. -/
  authFails : Nat
  /-- measured offset from the common source in units of 2^-16 ns; 14 R425 R432. -/
  timeOffset : Int
  /-- DOM_FORWARD commands awaiting the response of a worker, oldest first; 14 R421. -/
  fwdReqs : List (Nat × Req)
  /-- at the manager: the port on which a session is being set up; 15 R452. -/
  setup : Option Nat
deriving DecidableEq, Repr

/-- BakeSt at reset, or as an unlisted entry. -/
def BakeSt.init : BakeSt :=
  { sets := [],
    nextSet := 1,
    epoch := 0,
    snapshot := [],
    heldShadow := none,
    heldEpoch := 0,
    peers := [],
    msgs := [],
    nextMsg := 0,
    dom := none,
    nextBake := 1,
    outcomes := [],
    frozen := false,
    enrolled := false,
    enrolling := false,
    ownIdx := 0xFF,
    authFails := 0,
    timeOffset := 0,
    fwdReqs := [],
    setup := none }

/-- An image slot of the flash (ch. 15). -/
structure Slot where
  /-- boot result 0..6; 15 R444. -/
  result : Nat
  /-- 24 MiB, canonical; unlisted: made; 15 R441. -/
  bytes : Tab Byte
  /-- MODEL: unlisted bytes are those of the image the device was delivered with; false: 0xFF; 15 R441. -/
  made : Bool
deriving DecidableEq, Repr

/-- Slot at reset, or as an unlisted entry. -/
def Slot.init : Slot :=
  { result := 6,
    bytes := [],
    made := false }

/-- Image slot A at reset: it holds the image the device was delivered with, which runs (R441, R445; log entry 5). -/
def Slot.initA : Slot := { Slot.init with result := 0, made := true }

/-- What a copy of the boot configuration says (15 R442): the fields of its bytes 0 to 15. -/
structure BootCfg where
  /-- the copy is valid. -/
  valid : Bool
  /-- u32. -/
  seq : Nat
  /-- preferred slot: 0 A, 1 B. -/
  pref : Nat
  /-- flag bit 0. -/
  trial : Bool
  /-- flag bit 1: x8 + x8. -/
  x8 : Bool
deriving DecidableEq, Repr

/-- No valid copy: the ROM uses slot A, no trial and x16. -/
def BootCfg.none : BootCfg := { valid := false, seq := 0, pref := 0, trial := false, x8 := false }

/-- An SPDM session at the responder (ch. 15). -/
structure SpdmSession where
  /-- session ID: the requester's 16 bits below the responder's; 15 R448. -/
  id : Nat
  /-- SPDM version, 0x12 or 0x13; 00 R4. -/
  ver : Nat
  /-- FINISH has been verified; 15 R449. -/
  done : Bool
  /-- transcript of the key exchange; 15 R449. -/
  log : List Byte
  /-- handshake secret; 15 R449. -/
  hs : List Byte
  /-- secrets in use of the requester's and the responder's direction; 15 R449. -/
  req : List Byte
  rsp : List Byte
  /-- sequence numbers of the directions; 15 R449. -/
  reqSeq : Nat
  rspSeq : Nat
  /-- GET_MEASUREMENTS and MEASUREMENTS since the last signature; 15 R450. -/
  meas : List Byte
deriving DecidableEq, Repr

/-- What the signatures of an SPDM transport outside a session cover (ch. 15). -/
structure SpdmLog where
  /-- GET_VERSION and VERSION; GET_CAPABILITIES and CAPABILITIES; NEGOTIATE_ALGORITHMS and ALGORITHMS; 15 R449. -/
  version : List Byte
  caps : List Byte
  algs : List Byte
  /-- digests and certificates asked for since the last CHALLENGE; 15 R450. -/
  certs : List Byte
  /-- measurements since the last signature; 15 R450. -/
  meas : List Byte
deriving DecidableEq, Repr

/-- SpdmLog at reset, or as an unlisted entry. -/
def SpdmLog.init : SpdmLog := { version := [], caps := [], algs := [], certs := [], meas := [] }

/-- Identity and boot (ch. 15). -/
structure IdSt where
  /-- image slot A; 15 R441. -/
  slotA : Slot
  /-- image slot B; 15 R441. -/
  slotB : Slot
  /-- boot configuration copies 0 and 1 in flash, 64 KiB each, canonical; unlisted: 0xFF; 15 R441 R442. -/
  cfg0 : Tab Byte
  cfg1 : Tab Byte
  /-- x8 + x8 of the boot configuration in use; 15 R442, 12 R342. -/
  bifurcated : Bool
  /-- running slot; 15 R445. -/
  running : Nat
  /-- running image on trial; 15 R446. -/
  runTrial : Bool
  /-- u16; 15 R443. -/
  runSvn : Nat
  /-- 0..255 fuse count; 15 R443 R446. -/
  minSvn : Nat
  /-- u16; 13 R403. -/
  major : Nat
  /-- u16; 13 R403. -/
  minor : Nat
  /-- u32; 13 R403. -/
  build : Nat
  /-- an image was selected; 15 R445. -/
  booted : Bool
  /-- 48 bytes, from which the alias key is derived; 15 R436. -/
  cdi : List Byte
  /-- receipt certificates kept in the persistent store, with their boot counts, newest first, at most 64; 15 R440. -/
  certs : List (Nat × List Byte)
  /-- pinned manager key hash; 15 R452 R454. -/
  pin : Option (List Byte)
  /-- debug state byte; 15 R447. -/
  debug : Nat
  /-- SPDM sessions over DOE of function 0, at most 2; 15 R448. -/
  doe0 : List SpdmSession
  /-- SPDM sessions over DOE of function 1; 15 R448. -/
  doe1 : List SpdmSession
  /-- SPDM session over SMBus, at most 1; 15 R448. -/
  smb : List SpdmSession
  /-- transports past NEGOTIATE_ALGORITHMS; 15 R449. -/
  spdmNeg : List Nat
  /-- SPDM version agreed on a transport: 0x12 or 0x13; 0: none; 00 R4. -/
  spdmVer : Tab Nat
  /-- transcripts of a transport; 15 R449 R450. -/
  spdmLog : Tab SpdmLog
  /-- refused slot and boot result to report; 15 R445. -/
  fallback : Option (Nat × Nat)
  /-- no image may run: time of the ROM's last line on the UART console, ns of TCLK; 15 R445. -/
  console : Option Nat
deriving DecidableEq, Repr

/-- IdSt at reset, or as an unlisted entry. -/
def IdSt.init : IdSt :=
  { slotA := Slot.initA,
    slotB := Slot.init,
    cfg0 := [],
    cfg1 := [],
    bifurcated := false,
    running := 0,
    runTrial := false,
    runSvn := 0,
    minSvn := 0,
    major := 1,
    minor := 0,
    build := 0,
    booted := true,
    cdi := [],
    certs := [],
    pin := none,
    debug := 0,
    doe0 := [],
    doe1 := [],
    smb := [],
    spdmNeg := [],
    spdmVer := [],
    spdmLog := [],
    fallback := none,
    console := none }

/-- State of the test access port of IEEE 1149.1 (00 R4, 18 R512). -/
inductive TapState where
  | testLogicReset | runTest
  | selectDr | captureDr | shiftDr | exit1Dr | pauseDr | exit2Dr | updateDr
  | selectIr | captureIr | shiftIr | exit1Ir | pauseIr | exit2Ir | updateIr
deriving DecidableEq, Repr

/-- Power state of one slice (ch. 17). -/
structure SliceSt where
  /-- 4 states; 17 R502, R492. -/
  state : SliceState
  /-- CCLK at divider 4; 17 R480. -/
  stretched : Bool
  /-- ECLK at divider 3; 17 R480. -/
  eStretched : Bool
  /-- ns at which the stretch began; 17 R483. -/
  stretchAt : Nat
  /-- tick of State.up at the last trip, where the hold began; 17 R480. -/
  holdTick : Nat
  /-- 650..740; 17 R482. -/
  droopMv : Nat
  /-- 5..30; 17 R482. -/
  hystMv : Nat
  /-- stretches that ended in the last second: ns of begin and end; 17 R483. -/
  recent : List (Nat × Nat)
  /-- 4 readings in 1/16 C, none excluded; 17 R484. -/
  sensors : List (Option Int)
  /-- command waiting for the reset, park or unpark; 17 R494 R496. -/
  req : Option (Nat × Req)
  /-- 0 command 1 fault; 17 R505. -/
  cause : Nat
deriving DecidableEq, Repr

/-- SliceSt at reset, or as an unlisted entry. -/
def SliceSt.init : SliceSt :=
  { state := .active,
    stretched := false,
    eStretched := false,
    stretchAt := 0,
    holdTick := 0,
    droopMv := 705,
    hystMv := 15,
    recent := [],
    sensors := [some 0, some 0, some 0, some 0],
    req := none,
    cause := 0 }

/-- One HBM stack (ch. 17). -/
structure Stack where
  /-- u16 rows repaired; 01 R32. -/
  repaired : Nat
  /-- rows retired, repair pending: (pc, row); 17 R500. -/
  pending : List (Nat × Nat)
  /-- correctable errors logged: pc, row, time s; 17 R500. -/
  errors : List (Nat × Nat × Nat)
  /-- 0 available 1 engaged 2 failed; 09 R268. -/
  spare : Nat
  /-- pseudo-channel being copied to the spare; 17 R500. -/
  copying : Option Nat
  /-- u64 since cold reset; 01 R32. -/
  correctable : Nat
  /-- a pseudo-channel has failed that no spare replaces; 09 R268. -/
  unspared : Bool
deriving DecidableEq, Repr

/-- Stack at reset, or as an unlisted entry. -/
def Stack.init : Stack :=
  { repaired := 0,
    pending := [],
    errors := [],
    spare := 0,
    copying := none,
    correctable := 0,
    unspared := false }

/-- One management processor (ch. 09). -/
structure Mp where
  /-- 4 states; 09 R264. -/
  state : MpState
  /-- u32; 09 R268. -/
  failovers : Nat
  /-- u32; 09 R268. -/
  mismatches : Nat
  /-- u32 heartbeats missed; 09 R268. -/
  missed : Nat
  /-- consecutive heartbeats missed; 09 R265. -/
  consec : Nat
  /-- own restart used; 09 R267. -/
  restarted : Bool
deriving DecidableEq, Repr

/-- Mp at reset, or as an unlisted entry. -/
def Mp.init : Mp :=
  { state := .active,
    failovers := 0,
    mismatches := 0,
    missed := 0,
    consec := 0,
    restarted := false }

/-- MP-A active (unlisted), MP-B standby (R264). -/
def Mp.table : Tab Mp := [(1, { Mp.init with state := .standby })]

/-- Power, thermal, memory and redundancy units (ch. 01, 09, 17). -/
structure PwrSt where
  /-- held in reset; 17 R489. -/
  inReset : Bool
  /-- PORST_N pin level; 17 R487. -/
  porst : Bool
  /-- WRST_N pin level; 17 R487. -/
  wrst : Bool
  /-- every rail valid and REFCLK present; 18 R510. -/
  supplies : Bool
  /-- bring-up in progress; 17 R491. -/
  bringup : Option ResetKind
  /-- thermal emergency, THERM_TRIP_N low; 17 R486. -/
  emergency : Bool
  /-- 0 cold 1 warm 2 thermal emergency; 17 R502. -/
  lastCause : Nat
  /-- emergency cause in the flash store; 17 R486. -/
  flashCause : Bool
  /-- hottest reading at the last record; 17 R505. -/
  hotAtRecord : Int
  /-- ROLE[1:0]; 14 R420, 18 R512. -/
  roleStrap : Nat
  /-- GBL_ID.VARIANT 1 MA 2 WA; 12 R346, 18 R522. -/
  variant : Nat
  /-- GBL_ID.STEPPING; 18 R522. -/
  stepping : Nat
  /-- 16; 17 R492. -/
  slices : Tab SliceSt
  /-- 80..104 C; 17 R485. -/
  warnC : Nat
  /-- warning state; 17 R485. -/
  warn : Bool
  /-- trip state; 17 R485. -/
  trip : Bool
  /-- hottest reading 1/16 C; 17 R502. -/
  hottest : Int
  /-- weighted hours; 17 R501. -/
  lifeW : Nat
  /-- u32 operating hours; 17 R502. -/
  hours : Nat
  /-- 4; 17 R500. -/
  hbms : Tab Stack
  /-- GiB: park spill pools shadow staging fixity; 01 R27. -/
  regions : List Nat
  /-- MP-A, MP-B; 09 R264. -/
  mps : Tab Mp
  /-- failover in progress: cause; 09 R266. -/
  failing : Option Nat
  /-- u32 health report generation; 09 R268. -/
  healthGen : Nat
  /-- repair record: (unit kind, unit); 17 R499. -/
  repairLog : List (Nat × Nat)
  /-- s; 02 R65. -/
  marginPeriod : Nat
  /-- mV; 02 R65. -/
  marginH : Nat
  /-- mUI; 02 R65. -/
  marginW : Nat
  /-- test access port; 00 R4, 15 R447, 18 R512. -/
  tap : TapState
deriving DecidableEq, Repr

/-- PwrSt at reset, or as an unlisted entry. -/
def PwrSt.init : PwrSt :=
  { inReset := false,
    porst := true,
    wrst := true,
    supplies := true,
    bringup := some .cold,
    emergency := false,
    lastCause := 0,
    flashCause := false,
    hotAtRecord := 0,
    roleStrap := 0,
    variant := 1,
    stepping := 0x21,
    slices := [],
    warnC := 100,
    warn := false,
    trip := false,
    hottest := 0,
    lifeW := 0,
    hours := 0,
    hbms := [],
    regions := [48,24,4,4,2,14],
    mps := Mp.table,
    failing := none,
    healthGen := 0,
    repairLog := [],
    marginPeriod := 10,
    marginH := 0,
    marginW := 0,
    tap := .testLogicReset }

/-- One completion (ch. 12). -/
structure CqEntry where
  /-- descriptor address; 12 R361. -/
  addr : BitVec 64
  /-- 24 bits transferred; 12 R361. -/
  bytes : Nat
  /-- 16 bits; 12 R361. -/
  status : Nat
  /-- MARKER; 12 R361. -/
  marker : Bool
  /-- SOP; 12 R361. -/
  sop : Bool
  /-- EOP; 12 R361. -/
  eop : Bool
  /-- INT requested; 12 R361. -/
  int : Bool
  /-- STRICT_FLUSH; 12 R358. -/
  flush : Bool
deriving DecidableEq, Repr

/-- CqEntry at reset, or as an unlisted entry. -/
def CqEntry.init : CqEntry :=
  { addr := 0,
    bytes := 0,
    status := 0,
    marker := false,
    sop := false,
    eop := false,
    int := false,
    flush := false }

/-- A read of host memory, or one of its requests that waits for a tag (ch. 12). -/
structure ReadReq where
  /-- address; 12 R355. -/
  addr : Nat
  /-- length; 0: the read of a strict flush; 12 R355 R358. -/
  len : Nat
  /-- it reads payload, not a descriptor; 12 R359. -/
  payload : Bool
  /-- it carries No-Snoop; 12 R359. -/
  ns : Bool
deriving DecidableEq, Repr

/-- One DMA channel (ch. 12). -/
structure Chan where
  /-- 2 bits; 12 R347. -/
  state : ChState
  /-- 1; 12 R366. -/
  phaseInit : Bool
  /-- 2 bits; 12 R366. -/
  mode : Nat
  /-- 2 bits; 12 R366. -/
  hostPort : Nat
  /-- 1; 12 R366. -/
  ro : Bool
  /-- 1..1,024; 12 R366. -/
  maxReads : Nat
  /-- expected phase; 12 R366. -/
  phase : Bool
  /-- 8 bits; 12 R366. -/
  haltCause : Nat
  /-- non-posted reads outstanding; 12 R366. -/
  readsOut : Nat
  /-- 64; 12 R366. -/
  start : BitVec 64
  /-- 64; 12 R366. -/
  cur : BitVec 64
  /-- 32 bits; 12 R366. -/
  rung : Nat
  /-- 32 bits; 12 R366. -/
  consumed : Nat
  /-- 64; 12 R366. -/
  cqBase : BitVec 64
  /-- 4..16; 12 R366. -/
  cqK : Nat
  /-- 32 bits; 12 R366. -/
  cqHead : Nat
  /-- 32 bits; 12 R366. -/
  cqTail : Nat
  /-- write phase of the current lap; 12 R361 R365. -/
  cqPhase : Bool
  /-- 64; 12 R366. -/
  comp : Ctr
  /-- 64; 12 R366. -/
  endCount : Ctr
  /-- 64; 12 R366. -/
  bytes : Ctr
  /-- the descriptor in progress, 32 bytes; 12 R349. -/
  desc : Option (List Byte)
  /-- descriptor read at CUR_ADDR outstanding; 12 R349. -/
  fetching : Bool
  /-- stale re-reads made, up to 8; 12 R351. -/
  stale : Nat
  /-- a stale copy waits for its re-read; 12 R351. -/
  waitStale : Bool
  /-- STOP after the descriptor in progress; 12 R347. -/
  stopReq : Bool
  /-- strict flush outstanding; interrupt wanted; 12 R358. -/
  flush : Option Bool
  /-- completions waiting for the ring or a flush, oldest first; 12 R358 R361. -/
  cq : List CqEntry
  /-- the channel waits for room in the ring before it goes on; 12 R361. -/
  due : Bool
  /-- tail refetch outstanding; 12 R364. -/
  tailRefetch : Bool
  /-- requests waiting for a tag; 12 R356. -/
  reads : List ReadReq
  /-- tags that requests of the payload read in progress hold; 12 R355 R356. -/
  tags : Nat
  /-- tags of abandoned reads whose completions have not arrived; 12 R357. -/
  lost : Nat
  /-- bytes of the packet not yet delivered, or gathered so far (from-host); 12 R377. -/
  pktLeft : List Byte
  /-- in the middle of a packet; 12 R377. -/
  inPkt : Bool
  /-- the packet in progress was dropped by a FIFO reset; 12 R374. -/
  badPkt : Bool
deriving DecidableEq, Repr

/-- Chan at reset, or as an unlisted entry. -/
def Chan.init : Chan :=
  { state := .stopped,
    phaseInit := true,
    mode := 0,
    hostPort := 0,
    ro := false,
    maxReads := 64,
    phase := true,
    haltCause := 0,
    readsOut := 0,
    start := 0,
    cur := 0,
    rung := 0,
    consumed := 0,
    cqBase := 0,
    cqK := 4,
    cqHead := 0,
    cqTail := 0,
    cqPhase := true,
    comp := 0,
    endCount := 0,
    bytes := 0,
    desc := none,
    fetching := false,
    stale := 0,
    waitStale := false,
    stopReq := false,
    flush := none,
    cq := [],
    due := false,
    tailRefetch := false,
    reads := [],
    tags := 0,
    lost := 0,
    pktLeft := [],
    inPkt := false,
    badPkt := false }

/-- One host packet FIFO (ch. 12). -/
structure HFifo where
  /-- 1; 12 R379. -/
  enable : Bool
  /-- 1 bit; 12 R379. -/
  writeBank : Nat
  /-- 1 bit; 12 R379. -/
  readBank : Nat
  /-- WRITER_WAITING; 12 R379. -/
  waiting : Bool
  /-- 1; 12 R379. -/
  resetSeen : Bool
  /-- committed packets of bank 0; 12 R371. -/
  bank0 : List (List Byte)
  /-- committed packets of bank 1; 12 R371. -/
  bank1 : List (List Byte)
  /-- committed packets not yet taken; 12 R372. -/
  notices : Nat
  /-- 64 HPF_PACKETS; 12 R379. -/
  packets : Ctr
  /-- 64 HPF_REWINDS; 12 R379. -/
  rewinds : Ctr
  /-- 64 HPF_RESETS; 12 R379. -/
  resets : Ctr
  /-- 64 HPF_RESET_DROPS; 12 R379. -/
  resetDrops : Ctr
  /-- the packet being written, not committed; 12 R372. -/
  writing : List Byte
  /-- words written in bank 0; 12 R371. -/
  used0 : Nat
  /-- words written in bank 1; 12 R371. -/
  used1 : Nat
  /-- second copy of the write, commit and read pointers, in words from bank 0 on; the first are `HFifo.ptrs`; 12 R373. -/
  copy : Nat × Nat × Nat
deriving DecidableEq, Repr

/-- HFifo at reset, or as an unlisted entry. -/
def HFifo.init : HFifo :=
  { enable := false,
    writeBank := 0,
    readBank := 0,
    waiting := false,
    resetSeen := false,
    bank0 := [],
    bank1 := [],
    notices := 0,
    packets := 0,
    rewinds := 0,
    resets := 0,
    resetDrops := 0,
    writing := [],
    used0 := 0,
    used1 := 0,
    copy := (0, 0, 0) }

/-- One PCIe link and function (ch. 12). -/
structure LinkIf where
  /-- link trained; 12 R341, 17 R491. -/
  up : Bool
  /-- GBL_LINK.SPEED; 12 R346. -/
  speed : Nat
  /-- GBL_LINK.WIDTH; 12 R346. -/
  width : Nat
  /-- GBL_LINK.FLIT; 12 R346. -/
  flit : Bool
  /-- D3hot; 12 R343. -/
  d3 : Bool
  /-- unmasked MSI-X vectors, rising; 12 R370. -/
  vecOpen : List Nat
  /-- MSI-X function mask; 12 R370. -/
  fnMask : Bool
  /-- MSI-X Enable; 12 R369. -/
  msixOn : Bool
  /-- Command register of configuration space; 12 R341. -/
  cmd : BitVec 16
  /-- pending bit array: vectors whose bit is set, rising; 12 R370. -/
  pba : List Nat
  /-- GBL_SCRATCH 64; 12 R346. -/
  scratch : BitVec 64
  /-- BAR0 as the host has placed it; 12 R341. -/
  bar0 : BitVec 64
  /-- Device Control; 12 R355 R357 R359. -/
  devCtl : BitVec 16
  /-- ASPM L1 enabled in Link Control; 12 R341. -/
  aspmL1 : Bool
  /-- AER uncorrectable error status; 12 R341. -/
  aerUncor : BitVec 32
  /-- AER correctable error status; 12 R341. -/
  aerCor : BitVec 32
  /-- AER uncorrectable error mask; 12 R341. -/
  aerUncorMask : BitVec 32
  /-- AER uncorrectable error severity; 12 R341. -/
  aerUncorSev : BitVec 32
  /-- AER correctable error mask; 12 R341. -/
  aerCorMask : BitVec 32
deriving DecidableEq, Repr

/-- LinkIf at reset, or as an unlisted entry. -/
def LinkIf.init : LinkIf :=
  { up := false,
    speed := 0,
    width := 0,
    flit := false,
    d3 := false,
    vecOpen := [],
    fnMask := false,
    msixOn := false,
    cmd := 0,
    pba := [],
    scratch := 0,
    bar0 := 0,
    devCtl := 0x2810,
    aspmL1 := false,
    aerUncor := 0,
    aerCor := 0,
    aerUncorMask := 0x400000,
    aerUncorSev := 0x462030,
    aerCorMask := 0x6000 }

/-- Host interface (ch. 12). -/
structure HostSt where
  /-- 2; 12 R342. -/
  links : Tab LinkIf
  /-- INT_PENDING bit of source 0..187; 12 R369. -/
  pending : Tab Bool
  /-- INT_MAP[n].VECTOR where it differs from n; 12 R369. -/
  mapVec : Tab Nat
  /-- INT_MAP[n].ENABLE; 12 R369. -/
  mapEn : Tab Bool
  /-- MSI-X table quadwords, key 8,192 * function + index; 12 R370. -/
  msix : Tab (BitVec 64)
  /-- 128; 12 R347. -/
  chans : Tab Chan
  /-- 8; 12 R371. -/
  fifos : Tab HFifo
  /-- channels waiting for a read tag, in round robin; 12 R356. -/
  waitFetch : List Nat
  /-- bytes of the staging region written by DIR 0 DMA; 12 R354. -/
  staging : Tab Byte
  /-- bytes of the message pool region that payloads of INDIRECT requests have written; 12 R354, 13 R388. -/
  poolMem : Tab Byte
deriving DecidableEq, Repr

/-- HostSt at reset, or as an unlisted entry. -/
def HostSt.init : HostSt :=
  { links := [],
    pending := [],
    mapVec := [],
    mapEn := [],
    msix := [],
    chans := [],
    fifos := [],
    waitFetch := [],
    staging := [],
    poolMem := [] }

/-- The whole machine. -/
structure State where
  /-- record; 08 R214. -/
  time : TimeBase
  /-- TCLK cycles elapsed; a step of the time base does not move it; 11 R311. -/
  up : Nat
  /-- record; 08 R245. -/
  ptp : PtpCfg
  /-- 16 slices; 08 R225. -/
  tsFifos : Tab TsFifo
  /-- 512 ports; 08 R241. -/
  gates : Tab PortGate
  /-- 512 lanes; 02 R37. -/
  lanes : Tab LaneSt
  /-- 64 groups; 02 R40. -/
  groups : Tab GroupSt
  /-- ports 0..547 (internal ports use the settings that apply to them); 01 R24. -/
  ports : Tab PortSt
  /-- record; 03 R69. -/
  prism : PrismSt
  /-- record; 04 R95. -/
  fwd : FwdSt
  /-- record; 05 R130. -/
  buf : BufSt
  /-- packets held, by model number; 01 R21. -/
  pkts : Tab Pkt
  /-- MODEL next packet number; 01 R21. -/
  nextPkt : Nat
  /-- record; 06 R161. -/
  fab : FabSt
  /-- record; 07 R185. -/
  sched : SchedSt
  /-- 65,536 streams; 09 R252. -/
  frer : Tab FrerSt
  /-- record; 10 R272. -/
  leaven : LeavenSt
  /-- record; 11 R308. -/
  proof : ProofSt
  /-- record; 16 R466. -/
  evt : EvtSt
  /-- record; 16 R460. -/
  swp : SwpSt
  /-- record; 16 R455. -/
  tel : TelSt
  /-- record; 13 R381. -/
  mbx : MbxSt
  /-- record; 14 R406. -/
  bake : BakeSt
  /-- record; 15 R434. -/
  ident : IdSt
  /-- record; 17 R487. -/
  pwr : PwrSt
  /-- record; 12 R341. -/
  host : HostSt
  /-- MODEL: what the device has sent to the outside, newest first; 01 R21. -/
  out : List Output
  /-- MODEL: free values taken so far; 04 R96, 05 R145, 15 R436. -/
  free : Nat
  /-- commands waiting, first in first out; MODEL (the cut of this row). -/
  pending : List Instr
deriving DecidableEq, Repr

/-- State at reset, or as an unlisted entry. -/
def State.init : State :=
  { time := TimeBase.init,
    up := 0,
    ptp := PtpCfg.init,
    tsFifos := [],
    gates := [],
    lanes := [],
    groups := [],
    ports := [],
    prism := PrismSt.init,
    fwd := FwdSt.init,
    buf := BufSt.init,
    pkts := [],
    nextPkt := 0,
    fab := FabSt.init,
    sched := SchedSt.init,
    frer := [],
    leaven := LeavenSt.init,
    proof := ProofSt.init,
    evt := EvtSt.init,
    swp := SwpSt.init,
    tel := TelSt.init,
    mbx := MbxSt.init,
    bake := BakeSt.init,
    ident := IdSt.init,
    pwr := PwrSt.init,
    host := HostSt.init,
    out := [],
    free := 0,
    pending := [] }

/-- The machine right after the release of a cold reset: bring-up has begun, Moaras is not ready (R487 to R492). -/
def State.reset : State := State.init

end Sys2Proof.Machine
end

