-- ==== Sys2Proof/Machine/Tab.lean ====
section
/-! DEFINITION. Sparse tables: lists of (key, value) pairs with rising keys and no entry equal to the default. -/

namespace Sys2Proof.Machine

variable {α : Type}

/-- The entry listed at key `k`, if any. -/
def Tab.find (t : Tab α) (k : Nat) : Option α :=
  match t with
  | [] => none
  | (j, v) :: r => if j = k then some v else Tab.find r k

/-- The value at key `k`; `d` where nothing is listed. -/
def Tab.get (d : α) (t : Tab α) (k : Nat) : α :=
  (Tab.find t k).getD d

/-- `t` with `v` listed at key `k`, keys kept rising. -/
def Tab.insert (k : Nat) (v : α) : Tab α → Tab α
  | [] => [(k, v)]
  | (j, w) :: r =>
    if k < j then (k, v) :: (j, w) :: r
    else if k = j then (k, v) :: r
    else (j, w) :: Tab.insert k v r

/-- `t` with nothing listed at key `k`. -/
def Tab.erase (k : Nat) (t : Tab α) : Tab α :=
  t.filter (fun e => e.1 != k)

/-- Write `v` at key `k`: writing the default removes the entry. -/
def Tab.set [DecidableEq α] (d : α) (t : Tab α) (k : Nat) (v : α) : Tab α :=
  if v = d then Tab.erase k t else Tab.insert k v t

/-- Change the value at key `k` by `f`. -/
def Tab.upd [DecidableEq α] (d : α) (t : Tab α) (k : Nat) (f : α → α) : Tab α :=
  Tab.set d t k (f (Tab.get d t k))

/-- Keys rising strictly. -/
def Tab.sorted : Tab α → Bool
  | [] => true
  | [_] => true
  | (j, _) :: (k, w) :: r => decide (j < k) && Tab.sorted ((k, w) :: r)

/-- The canonical form: keys rising strictly, no entry equal to the default. -/
def Tab.wf [DecidableEq α] (d : α) (t : Tab α) : Bool :=
  Tab.sorted t && t.all (fun e => decide (e.2 ≠ d))

/-- Add `n` to the counter at key `k`, modulo 2^64 (R456). -/
def Tab.bump (t : Tab Ctr) (k n : Nat) : Tab Ctr :=
  Tab.upd 0 t k (fun c => c + BitVec.ofNat 64 n)

/-- Write consecutive bytes from key `k`. -/
def Tab.writeBytes (d : Byte) (t : Tab Byte) (k : Nat) : List Byte → Tab Byte
  | [] => t
  | b :: r => Tab.writeBytes d (Tab.set d t k b) (k + 1) r

/-- Read `n` consecutive bytes from key `k`. -/
def Tab.readBytes (d : Byte) (t : Tab Byte) (k n : Nat) : List Byte :=
  (List.range n).map (fun i => Tab.get d t (k + i))

end Sys2Proof.Machine
end

