-- ==== Sys2Proof/Machine/Flags.lean ====
section
/-! DEFINITION. Interrupt sources, their pending bits and map entries, and MSI-X messages (R368 to R370). -/

namespace Sys2Proof.Machine

/-- The record of link and function `fn`. -/
def HostSt.link (h : HostSt) (fn : Nat) : LinkIf :=
  Tab.get LinkIf.init h.links fn

/-- Change the record of link `fn`. -/
def HostSt.updLink (h : HostSt) (fn : Nat) (f : LinkIf → LinkIf) : HostSt :=
  { h with links := Tab.upd LinkIf.init h.links fn f }

/-- INT_PENDING bit of source `n`. -/
def HostSt.intPending (h : HostSt) (n : Nat) : Bool :=
  Tab.get false h.pending n

/-- INT_MAP[n].VECTOR, which resets to n. -/
def HostSt.intVector (h : HostSt) (n : Nat) : Nat :=
  (Tab.find h.mapVec n).getD n

/-- INT_MAP[n].ENABLE. -/
def HostSt.intEnabled (h : HostSt) (n : Nat) : Bool :=
  Tab.get false h.mapEn n

/-- The function that owns interrupt source `n` (R342). -/
def intOwner (bifurcated : Bool) (n : Nat) : Nat :=
  if bifurcated && ((64 ≤ n && n ≤ 127) || (144 ≤ n && n ≤ 159) || (183 ≤ n && n ≤ 186)) then 1 else 0

/-- The MSI-X message of a vector: address quadword and data word of its table entry (R370). -/
def HostSt.message (h : HostSt) (fn vec : Nat) : Output :=
  .msi fn (Tab.get 0 h.msix (8192 * fn + 2 * vec)).toNat ((Tab.get 0 h.msix (8192 * fn + 2 * vec + 1)).toNat % 2 ^ 32)

/-- Signal a vector: its message is sent, or its pending array bit set while it is masked (R370). Before the host has enabled
MSI-X there is no message (R369). -/
def HostSt.signalVector (h : HostSt) (fn vec : Nat) : HostSt × List Output :=
  if (h.link fn).msixOn = false then (h, [])
  else if (h.link fn).fnMask || !(h.link fn).vecOpen.contains vec then
    (h.updLink fn (fun l => { l with pba := insertRising vec l.pba }), [])
  else (h, [h.message fn vec])

/-- Signal source `n` through its map entry. -/
def HostSt.signal (h : HostSt) (x8 : Bool) (n : Nat) : HostSt × List Output :=
  h.signalVector (intOwner x8 n) (h.intVector n)

/-- The hardware sets source `n` pending (R369): a rise from 0 to 1 signals while ENABLE is 1, a set on a set bit
signals nothing. -/
def HostSt.setPending (h : HostSt) (x8 : Bool) (n : Nat) : HostSt × List Output :=
  if h.intPending n then (h, [])
  else
    let h' := { h with pending := Tab.set false h.pending n true }
    if h.intEnabled n then h'.signal x8 n else (h', [])

/-- Source `n` set pending, as a change of the whole state. -/
def State.interrupt (s : State) (n : Nat) : State :=
  { s with
    host := (s.host.setPending s.ident.bifurcated n).1
    out := (s.host.setPending s.ident.bifurcated n).2 ++ s.out }

end Sys2Proof.Machine
end

