-- ==== Sys2Proof/Machine/Ops.lean ====
section
/-! DEFINITION. The named operations over the state that every meaning shares: table accessors, counters, outputs, free
values, drops and the event log. -/

namespace Sys2Proof.Machine

/-! ### Accessors -/

def State.port (s : State) (p : Nat) : PortSt := Tab.get PortSt.init s.ports p
def State.updPort (s : State) (p : Nat) (f : PortSt → PortSt) : State :=
  { s with ports := Tab.upd PortSt.init s.ports p f }
def State.lane (s : State) (l : Nat) : LaneSt := Tab.get LaneSt.init s.lanes l
def State.updLane (s : State) (l : Nat) (f : LaneSt → LaneSt) : State :=
  { s with lanes := Tab.upd LaneSt.init s.lanes l f }
def State.group (s : State) (g : Nat) : GroupSt := Tab.get GroupSt.init s.groups g
def State.updGroup (s : State) (g : Nat) (f : GroupSt → GroupSt) : State :=
  { s with groups := Tab.upd GroupSt.init s.groups g f }
def State.gate (s : State) (p : Nat) : PortGate := Tab.get PortGate.init s.gates p
def State.updGate (s : State) (p : Nat) (f : PortGate → PortGate) : State :=
  { s with gates := Tab.upd PortGate.init s.gates p f }
def State.tsFifo (s : State) (n : Nat) : TsFifo := Tab.get TsFifo.init s.tsFifos n
def State.updTsFifo (s : State) (n : Nat) (f : TsFifo → TsFifo) : State :=
  { s with tsFifos := Tab.upd TsFifo.init s.tsFifos n f }
def State.stream (s : State) (n : Nat) : FrerSt := Tab.get FrerSt.init s.frer n
def State.updStream (s : State) (n : Nat) (f : FrerSt → FrerSt) : State :=
  { s with frer := Tab.upd FrerSt.init s.frer n f }
def State.cluster (s : State) (n : Nat) : Cluster := Tab.get Cluster.init s.leaven.clusters n
def State.updCluster (s : State) (n : Nat) (f : Cluster → Cluster) : State :=
  { s with leaven := { s.leaven with clusters := Tab.upd Cluster.init s.leaven.clusters n f } }
def State.fix (s : State) (n : Nat) : FixClu := Tab.get FixClu.init s.leaven.fix n
def State.updFix (s : State) (n : Nat) (f : FixClu → FixClu) : State :=
  { s with leaven := { s.leaven with fix := Tab.upd FixClu.init s.leaven.fix n f } }
def State.flow (s : State) (n : Nat) : Flow := Tab.get Flow.init s.leaven.flows n
def State.updFlow (s : State) (n : Nat) (f : Flow → Flow) : State :=
  { s with leaven := { s.leaven with flows := Tab.upd Flow.init s.leaven.flows n f } }
def State.target (s : State) (n : Nat) : Target := Tab.get Target.init s.proof.targets n
def State.updTarget (s : State) (n : Nat) (f : Target → Target) : State :=
  { s with proof := { s.proof with targets := Tab.upd Target.init s.proof.targets n f } }
def State.drop (s : State) (bus drop : Nat) : Drop := Tab.get Drop.init s.proof.drops (32 * bus + drop)
def State.updDrop (s : State) (bus drop : Nat) (f : Drop → Drop) : State :=
  { s with proof := { s.proof with drops := Tab.upd Drop.init s.proof.drops (32 * bus + drop) f } }
def State.bus (s : State) (n : Nat) : Bus := Tab.get Bus.init s.proof.buses n
def State.updBus (s : State) (n : Nat) (f : Bus → Bus) : State :=
  { s with proof := { s.proof with buses := Tab.upd Bus.init s.proof.buses n f } }
def State.pclass (s : State) (n : Nat) : PClass := Tab.get PClass.init s.proof.classes n
def State.plane (s : State) (n : Nat) : Plane := Tab.get Plane.init s.fab.planes n
def State.updPlane (s : State) (n : Nat) (f : Plane → Plane) : State :=
  { s with fab := { s.fab with planes := Tab.upd Plane.init s.fab.planes n f } }
def State.pair (s : State) (src dst : Nat) : Pair := Tab.get Pair.init s.fab.pairs (16 * src + dst)
def State.updPair (s : State) (src dst : Nat) (f : Pair → Pair) : State :=
  { s with fab := { s.fab with pairs := Tab.upd Pair.init s.fab.pairs (16 * src + dst) f } }
def State.voq (s : State) (slice v : Nat) : Voq := Tab.get Voq.init s.fab.voqs (32800 * slice + v)
def State.updVoq (s : State) (slice v : Nat) (f : Voq → Voq) : State :=
  { s with fab := { s.fab with voqs := Tab.upd Voq.init s.fab.voqs (32800 * slice + v) f } }
def State.fabPort (s : State) (p c : Nat) : FabPort := Tab.get FabPort.init s.fab.ports (8 * p + c)
def State.updFabPort (s : State) (p c : Nat) (f : FabPort → FabPort) : State :=
  { s with fab := { s.fab with ports := Tab.upd FabPort.init s.fab.ports (8 * p + c) f } }
def State.classCfg (s : State) (c : Nat) : ClassCfg := Tab.get ClassCfg.init s.buf.classes c
def State.portClass (s : State) (p c : Nat) : PortClass := Tab.get PortClass.init s.buf.portClass (8 * p + c)
def State.updPortClass (s : State) (p c : Nat) (f : PortClass → PortClass) : State :=
  { s with buf := { s.buf with portClass := Tab.upd PortClass.init s.buf.portClass (8 * p + c) f } }
def State.queue (s : State) (q : Nat) : QueueSt := Tab.get QueueSt.init s.buf.queues q
def State.updQueue (s : State) (q : Nat) (f : QueueSt → QueueSt) : State :=
  { s with buf := { s.buf with queues := Tab.upd QueueSt.init s.buf.queues q f } }
def State.chan (s : State) (n : Nat) : Chan := Tab.get Chan.init s.host.chans n
def State.updChan (s : State) (n : Nat) (f : Chan → Chan) : State :=
  { s with host := { s.host with chans := Tab.upd Chan.init s.host.chans n f } }
def State.fifo (s : State) (n : Nat) : HFifo := Tab.get HFifo.init s.host.fifos n
/-- The write, commit and read pointers of a FIFO, in words of 32 bytes from bank 0 on (R371, R373). -/
def HFifo.ptrs (f : HFifo) : Nat × Nat × Nat :=
  let commit := 2048 * f.writeBank + (if f.writeBank = 0 then f.used0 else f.used1)
  let left := ((if f.readBank = 0 then f.bank0 else f.bank1).map (fun b => b.length / 32)).sum
  (commit + ceilDiv f.writing.length 32, commit, 2048 * f.readBank + (if f.readBank = 0 then f.used0 else f.used1) - left)
/-- Both copies of the pointers move. -/
def HFifo.synced (f : HFifo) : HFifo := { f with copy := f.ptrs }
def State.updFifo (s : State) (n : Nat) (f : HFifo → HFifo) : State :=
  { s with host := { s.host with fifos := Tab.upd HFifo.init s.host.fifos n (fun x => (f x).synced) } }
def State.updLink (s : State) (fn : Nat) (f : LinkIf → LinkIf) : State :=
  { s with host := s.host.updLink fn f }
def State.sliceSt (s : State) (n : Nat) : SliceSt := Tab.get SliceSt.init s.pwr.slices n
/-- The slice is parked: it has no frames, and its counters read 0 (R496). -/
def State.sliceParked (s : State) (n : Nat) : Bool := (s.sliceSt n).state == .parked
def State.updSlice (s : State) (n : Nat) (f : SliceSt → SliceSt) : State :=
  { s with pwr := { s.pwr with slices := Tab.upd SliceSt.init s.pwr.slices n f } }
def State.stack (s : State) (n : Nat) : Stack := Tab.get Stack.init s.pwr.hbms n
def State.updStack (s : State) (n : Nat) (f : Stack → Stack) : State :=
  { s with pwr := { s.pwr with hbms := Tab.upd Stack.init s.pwr.hbms n f } }
def State.mp (s : State) (n : Nat) : Mp := Tab.get Mp.init s.pwr.mps n
def State.updMp (s : State) (n : Nat) (f : Mp → Mp) : State :=
  { s with pwr := { s.pwr with mps := Tab.upd Mp.init s.pwr.mps n f } }
def State.mirrorOf (s : State) (n : Nat) : Mirror := Tab.get Mirror.init s.tel.mirrors n
def State.peer (s : State) (n : Nat) : Peer := Tab.get Peer.init s.bake.peers n
def State.updPeer (s : State) (n : Nat) (f : Peer → Peer) : State :=
  { s with bake := { s.bake with peers := Tab.upd Peer.init s.bake.peers n f } }
def State.box (s : State) (n : Nat) : Mbox := Tab.get Mbox.init s.mbx.boxes n
def State.updBox (s : State) (n : Nat) (f : Mbox → Mbox) : State :=
  { s with mbx := { s.mbx with boxes := Tab.upd Mbox.init s.mbx.boxes n f } }
def State.pkt (s : State) (n : Nat) : Pkt := Tab.get Pkt.init s.pkts n
def State.updPkt (s : State) (n : Nat) (f : Pkt → Pkt) : State :=
  { s with pkts := Tab.upd Pkt.init s.pkts n f }

/-- A scheduler node's default: service node 8p + 7 has priority 7 (R191). Keys: 0 to 515 port nodes, 1,024 + 8p + c
service nodes, 8,192 + 64p + 8c + t tenant nodes. -/
def Node.dflt (k : Nat) : Node :=
  if 1024 ≤ k ∧ k < 8192 ∧ k % 8 = 7 then { Node.init with prio := 7 } else Node.init
def State.node (s : State) (k : Nat) : Node := Tab.get (Node.dflt k) s.sched.nodes k
def State.updNode (s : State) (k : Nat) (f : Node → Node) : State :=
  { s with sched := { s.sched with nodes := Tab.upd (Node.dflt k) s.sched.nodes k f } }
def State.policer (s : State) (n : Nat) : Policer := Tab.get Policer.init s.sched.pol n
def State.updPolicer (s : State) (n : Nat) (f : Policer → Policer) : State :=
  { s with sched := { s.sched with pol := Tab.upd Policer.init s.sched.pol n f } }

/-! ### Counters (R456) -/

def State.bumpPort (s : State) (p i n : Nat) : State :=
  { s with tel := { s.tel with portCtr := Tab.bump s.tel.portCtr (22 * p + i) n } }
def State.bumpPrism (s : State) (sl i n : Nat) : State :=
  { s with tel := { s.tel with prismCtr := Tab.bump s.tel.prismCtr (13 * sl + i) n } }
def State.bumpFwd (s : State) (i n : Nat) : State :=
  { s with fwd := { s.fwd with ctr := Tab.bump s.fwd.ctr i n } }
def State.bumpBuf (s : State) (i n : Nat) : State :=
  { s with buf := { s.buf with ctr := Tab.bump s.buf.ctr i n } }
def State.bumpFab (s : State) (i n : Nat) : State :=
  { s with fab := { s.fab with ctr := Tab.bump s.fab.ctr i n } }
def State.bumpSched (s : State) (i n : Nat) : State :=
  { s with sched := { s.sched with ctr := Tab.bump s.sched.ctr i n } }
def State.bumpTime (s : State) (p i n : Nat) : State :=
  { s with tel := { s.tel with timeCtr := Tab.bump s.tel.timeCtr (9 * p + i) n } }
/-- A slice's share of a counter that is summed over all slices, which the slice's reset takes away (R457): group 0 forwarding,
1 buffers, 2 fabric, 3 scheduling, 4 clock stretches, 5 Proofing, 6 to 9 mirror sessions. -/
def State.share (s : State) (g sl i n : Nat) : State :=
  { s with tel := { s.tel with share := Tab.bump s.tel.share (64 * (16 * g + sl) + i) n } }
def State.bumpFwdAt (s : State) (sl i n : Nat) : State := (s.bumpFwd i n).share 0 sl i n
def State.bumpBufAt (s : State) (sl i n : Nat) : State := (s.bumpBuf i n).share 1 sl i n
def State.bumpFabAt (s : State) (sl i n : Nat) : State := (s.bumpFab i n).share 2 sl i n
def State.bumpSchedAt (s : State) (sl i n : Nat) : State := (s.bumpSched i n).share 3 sl i n
def State.bumpRed (s : State) (i n : Nat) : State :=
  { s with tel := { s.tel with redCtr := Tab.bump s.tel.redCtr i n } }
def State.bumpFrer (s : State) (st i n : Nat) : State :=
  { s with tel := { s.tel with frerCtr := Tab.bump s.tel.frerCtr (9 * st + i) n } }
def State.bumpFix (s : State) (i n : Nat) : State :=
  { s with leaven := { s.leaven with ctr := Tab.bump s.leaven.ctr i n } }
def State.bumpProof (s : State) (i n : Nat) : State :=
  { s with proof := { s.proof with ctr := Tab.bump s.proof.ctr i n } }
def State.bumpMbx (s : State) (fn i n : Nat) : State :=
  { s with tel := { s.tel with mbxCtr := Tab.bump s.tel.mbxCtr (8 * fn + i) n } }
def State.bumpPwr (s : State) (i n : Nat) : State :=
  { s with tel := { s.tel with pwrCtr := Tab.bump s.tel.pwrCtr i n } }
def State.bumpTel (s : State) (i n : Nat) : State :=
  { s with tel := { s.tel with ctr := Tab.bump s.tel.ctr i n } }
def State.bumpMir (s : State) (m i n : Nat) : State :=
  { s with tel := { s.tel with mirCtr := Tab.bump s.tel.mirCtr (4 * m + i) n } }
def State.bumpPwrAt (s : State) (sl i n : Nat) : State := (s.bumpPwr i n).share 4 sl i n
def State.bumpProofAt (s : State) (sl i n : Nat) : State := (s.bumpProof i n).share 5 sl i n
def State.bumpMirAt (s : State) (sl m i n : Nat) : State := (s.bumpMir m i n).share (6 + m / 16) sl (4 * (m % 16) + i) n
/-- The counters of group `g` without the share of slice `sl`. -/
def TelSt.unshare (t : TelSt) (g sl : Nat) (c : Tab Ctr) : Tab Ctr :=
  (t.share.filter (fun e => e.1 / 64 == 16 * g + sl)).foldl (fun c e => Tab.upd 0 c (e.1 % 64) (· - e.2)) c

/-- The counters of the mirror sessions without it: sixteen sessions to a group. -/
def TelSt.unshareMir (t : TelSt) (sl : Nat) (c : Tab Ctr) : Tab Ctr :=
  (t.share.filter (fun e => decide (96 ≤ e.1 / 64) && e.1 / 64 % 16 == sl)).foldl (fun c e =>
    Tab.upd 0 c (64 * (e.1 / 1024 - 6) + e.1 % 64) (· - e.2)) c

/-- Count a drop reason for an ingress port (R458). -/
def State.bumpDrop (s : State) (port reason : Nat) : State :=
  { s with tel := { s.tel with drops := Tab.bump s.tel.drops (64 * port + reason) 1 } }

/-- Counters `0 … n - 1` of a group from key `k`, as little-endian u64 values. -/
def ctrBytes (t : Tab Ctr) (k n : Nat) : List Byte :=
  (List.range n).flatMap (fun i => le 8 (Tab.get 0 t (k + i)).toNat)

/-! ### Outputs, free values, time -/

/-- A request for a bandwidth or a path that others share finds none: timing decides, so a free value (log entry 86). The
value is drawn by `drawn 1`. -/
def State.contended (s : State) : Bool := bit (Config.freeValue s.free) 0

/-- Record something sent to the outside. -/
def State.emit (s : State) (o : Output) : State :=
  { s with out := o :: s.out }

/-- The next free value (log entry 3). -/
def State.freeVal (s : State) : Nat := Config.freeValue s.free
/-- The state after `n` free values have been taken. -/
def State.drawn (s : State) (n : Nat) : State := { s with free := s.free + n }

/-- The time base in whole nanoseconds. -/
def TimeBase.nanos (t : TimeBase) : Nat := 1000000000 * t.sec + t.ns
def State.nowNs (s : State) : Nat := s.time.nanos
/-- The offset from the common source in whole ns, as messages and events carry it (R425, R432; rounded down: log entry 114). -/
def BakeSt.offsetNs (b : BakeSt) : Int := b.timeOffset / 65536

/-- Nanoseconds elapsed, counted in clock ticks of 1.25 ns: a step of the time base does not move it (R311). -/
def State.upNs (s : State) : Nat := s.up * 5 / 4
/-- A time as events carry it: seconds u64, nanoseconds u32 (R467). -/
def timeArg (sec ns : Nat) : List Byte := le 8 sec ++ le 4 ns

/-! ### The event log (R466 to R471) -/

/-- Severities of R466. -/
def sevInfo : Nat := 0
def sevWarning : Nat := 1
def sevCorrectable : Nat := 2
def sevUncorrectable : Nat := 3

/-- Extension entries for an argument length (R466). -/
def evExt (n : Nat) : Nat := if n ≤ 12 then 0 else ceilDiv (n - 12) 32

/-- Ring entries an event takes. -/
def EvEntry.entries (e : EvEntry) : Nat := 1 + evExt e.args.length

/-- The bytes of an event's entries (R466). -/
def EvEntry.bytes (e : EvEntry) : List Byte :=
  le 2 e.code ++ le 1 (e.sev + 4 * evExt e.args.length) ++ le 1 e.args.length ++ le 4 e.seq ++ le 8 e.sec ++ le 4 e.ns
    ++ padTo (12 + 32 * evExt e.args.length) e.args

/-- Entries still free in the ring. -/
def EvtSt.room (v : EvtSt) : Nat := 2 ^ v.k - (v.tail - v.head)

/-- What the event log has done: its new state, the host writes (newest first) and whether its tail advanced. -/
structure EvDone where
  st : EvtSt
  writes : List Output
  moved : Bool
  /-- Events lost by this operation. -/
  lost : Nat

/-- Write entries at the tail: each 32-byte entry e lies at slot e mod 2^k. -/
def EvtSt.put (v : EvtSt) (b : List Byte) : EvtSt × List Output :=
  let n := b.length / 32
  ({ v with tail := v.tail + n },
   ((List.range n).map (fun i =>
      Output.hostWrite 0 (v.base.toNat + 32 * ((v.tail + i) % 2 ^ v.k)) (slice b (32 * i) 32))).reverse)

/-- The EVENTS_LOST marker: count, first lost sequence; its sequence field repeats the last lost (R470). -/
def EvtSt.marker (_ : EvtSt) (count first last sec ns : Nat) : EvEntry :=
  { EvEntry.init with code := 0x1001, sev := sevWarning, seq := last, sec, ns, args := le 4 count ++ le 4 first }

/-- Lose an event without a marker. -/
def EvtSt.lose (v : EvtSt) (seq : Nat) : EvtSt :=
  { v with lost := v.lost + 1, lostSeen := true, lostFirst := if v.lost = 0 then seq else v.lostFirst, lostLast := seq }

/-- Write an event that passed the filter while the ring is enabled (R470). -/
def EvtSt.write (v : EvtSt) (e : EvEntry) : EvDone :=
  if v.lost = 0 ∧ e.entries + 1 ≤ v.room then
    let w := v.put e.bytes
    { st := { w.1 with marked := false }, writes := w.2, moved := true, lost := 0 }
  else if v.lost ≠ 0 ∧ e.entries + 2 ≤ v.room then
    let m := v.put (v.marker v.lost v.lostFirst v.lostLast e.sec e.ns).bytes
    let w := m.1.put e.bytes
    { st := { w.1 with lost := 0, marked := false }, writes := w.2 ++ m.2, moved := true, lost := 0 }
  else if v.lost = 0 ∧ v.marked = false ∧ 1 ≤ v.room then
    let m := v.put (v.marker 1 e.seq e.seq e.sec e.ns).bytes
    { st := { m.1 with marked := true, lostSeen := true, lostFirst := e.seq, lostLast := e.seq }, writes := m.2,
      moved := true, lost := 1 }
  else { st := v.lose e.seq, writes := [], moved := false, lost := 1 }

/-- The marker of the losses not yet reported, if there are any. -/
def EvtSt.owed (v : EvtSt) (e : EvEntry) : List EvEntry :=
  if v.lost = 0 then [] else [v.marker v.lost v.lostFirst v.lostLast e.sec e.ns]

/-- Hold an event on chip while the ring is disabled: at most 1,024 entries, then events are lost (R470). Losses not yet reported are
held as their marker ahead of it. -/
def EvtSt.hold (v : EvtSt) (e : EvEntry) : EvDone :=
  let l := v.held ++ v.owed e ++ [e]
  if (l.map EvEntry.entries).sum ≤ 1024 then { st := { v with held := l, lost := 0 }, writes := [], moved := false, lost := 0 }
  else { st := v.lose e.seq, writes := [], moved := false, lost := 1 }

/-- The filter of R470, then the ring or the on-chip store. -/
def EvtSt.log (v : EvtSt) (e : EvEntry) : EvDone :=
  let v' := { v with nextSeq := (v.nextSeq + 1) % 2 ^ 32 }
  if e.sev < v.minSev then { st := v', writes := [], moved := false, lost := 0 }
  else if v.enable then v'.write e
  else v'.hold e

/-- Counters EVENTS_RAISED, EVENTS_LOST and EVENTS_FILTERED of R479. -/
def TelSt.countEvent (t : TelSt) (lost : Nat) (filtered : Bool) : TelSt :=
  { t with ctr := Tab.bump (Tab.bump (Tab.bump t.ctr 2 1) 3 lost) 4 (b2n filtered) }

/-- Interrupt sources `ns` set pending in turn, where the flag says so. -/
def HostSt.setPendingIf (h : HostSt) (b x8 : Bool) (n : Nat) : HostSt × List Output :=
  if b then h.setPending x8 n else (h, [])

/-- Raise an event: code (R468), severity and packed arguments (R467). -/
def State.raise (s : State) (code sev : Nat) (args : List Byte) : State :=
  let e : EvEntry := { code, sev, seq := s.evt.nextSeq, sec := s.time.sec, ns := s.time.ns, args }
  let d := s.evt.log e
  let h := s.host.setPendingIf d.moved s.ident.bifurcated 176
  { s with evt := d.st, tel := s.tel.countEvent d.lost (decide (sev < s.evt.minSev)), host := h.1,
           out := h.2 ++ d.writes ++ s.out }

/-- Raise an event at most once in `period` ns for each `inst` of its code. -/
def State.raiseLimited (s : State) (code sev inst period : Nat) (args : List Byte) : State :=
  let k := 2 ^ 24 * code + inst
  let last := Tab.get 0 s.tel.rate k
  if last = 0 ∨ last - 1 + period ≤ s.upNs then
    let t := s.raise code sev args
    { t with tel := { t.tel with rate := Tab.set 0 t.tel.rate k (s.upNs + 1) } }
  else s

/-- Raise an event of Moaras: during a hitless restart it waits for the restart's end (R419). -/
def State.raiseUp (s : State) (code sev : Nat) (args : List Byte) : State :=
  if s.mbx.restarting.isSome then { s with mbx := { s.mbx with heldEvents := s.mbx.heldEvents ++ [(code, sev, args)] } }
  else s.raise code sev args

def State.raiseUpIf (s : State) (b : Bool) (code sev : Nat) (args : List Byte) : State :=
  if b then s.raiseUp code sev args else s

/-- Raise event when a condition holds. -/
def State.raiseIf (s : State) (b : Bool) (code sev : Nat) (args : List Byte) : State :=
  if b then s.raise code sev args else s

end Sys2Proof.Machine
end

