-- ==== Sys2Proof/Machine/Operands.lean ====
section
/-! DEFINITION. The operands of a mailbox command: request and response headers, the checks before execution (R390) and
the tag history (R391, R392). -/

namespace Sys2Proof.Machine

/-! ### Status and detail codes (R398, R399, R434) -/

def stOk : Nat := 0
def stBusy : Nat := 1
def stBadOpcode : Nat := 2
def stBadLength : Nat := 3
def stBadArg : Nat := 4
def stNoResource : Nat := 5
def stNotPermitted : Nat := 6
def stCheckFailed : Nat := 7
def stStaleEpoch : Nat := 8
def stTimeout : Nat := 9
def stDuplicateTag : Nat := 0xA
def stRoleError : Nat := 0xB
def stHwFault : Nat := 0xC
def stPending : Nat := 0xD

def dNone : Nat := 0
def dAccepted : Nat := 1
def dRunning : Nat := 2
def dLost : Nat := 3
def dNotReady : Nat := 4
def dQueueFull : Nat := 5
def dAsyncLimit : Nat := 6
def dPoolEmpty : Nat := 7
def dBadFlags : Nat := 8
def dBadSet : Nat := 9
def dTagInUse : Nat := 0xA
def dTagRequired : Nat := 0xB
def dTagUnknown : Nat := 0xC
def dStageNotAllowed : Nat := 0xD
def dStageRequired : Nat := 0xE
def dAsyncRequired : Nat := 0xF
def dIndirectRead : Nat := 0x10
def dResponseTooLong : Nat := 0x11
def dWorkerOnly : Nat := 0x12
def dStandalone : Nat := 0x13

/-- A response to a request. -/
structure Resp where
  status : Nat
  detail : Nat
  payload : List Byte
  /-- The payload length field: the payload's length, or under R389 the length that would have been needed. -/
  len : Nat
  /-- The bake epoch field where it is not the current one. -/
  epoch : Option Nat
deriving DecidableEq, Repr

/-- OK with a payload. -/
def Resp.ok (p : List Byte) : Resp := ⟨stOk, dNone, p, p.length, none⟩
/-- A refusal. -/
def Resp.err (status detail : Nat) : Resp := ⟨status, detail, [], 0, none⟩

/-- Flag bits of the request header (R385). -/
def reqFlags (r : Req) : Nat := b2n r.indirect + 2 * b2n r.stage + 4 * b2n r.async

/-- The function that owns a mailbox (R342). -/
def State.boxFn (s : State) (b : Nat) : Nat :=
  if s.ident.bifurcated && decide (16 ≤ b) && decide (b < 32) then 1 else 0

/-- The box number that stands for the domain channel: a request that the manager has forwarded (R421). -/
def fwdBox : Nat := 32

/-- The effective role (R420, R1, R2): 0 standalone, 1 worker, 2 manager. -/
def State.role (s : State) : Nat :=
  match s.pwr.roleStrap with
  | 1 => 1
  | 2 => if s.pwr.variant = 1 then 2 else 0
  | _ => 0

/-- The index in the domain (R423): 0 manager, 0xFF not enrolled. -/
def State.devIndex (s : State) : Nat := if s.role = 2 then 0 else if s.role = 1 ∧ s.bake.enrolled then s.bake.ownIdx else 0xFF

/-- Row 4 of R390: the detail with which the role refuses an opcode (R420, R421, R433, R454). -/
def State.roleDetail (s : State) (c : CmdInfo) : Option Nat :=
  if c.op / 256 = 0x0E then
    match s.role with
    | 0 => some dStandalone
    | 2 => if c.op = 0x0E07 then some dWorkerOnly else none
    | _ => if c.op = 0x0E01 ∨ c.op = 0x0E03 ∨ c.op = 0x0E07 then none else some dWorkerOnly
  else if c.op = 0x0F08 then
    match s.role with
    | 0 => some dStandalone
    | 2 => some dWorkerOnly
    | _ => none
  else if s.role = 1 ∧ s.bake.enrolled ∧ c.stage ≠ .no then some dWorkerOnly
  else none

/-- The tag history of a function. -/
def MbxSt.hist (m : MbxSt) (fn : Nat) : List HistEntry := if fn = 0 then m.hist0 else m.hist1

/-- The recorded response of a tag. -/
def MbxSt.recorded (m : MbxSt) (fn tag : Nat) : Option HistEntry :=
  (m.hist fn).find? (fun h => h.tag == tag)

/-- The job of a function with a tag, still executing or queued. -/
def State.taggedJob (s : State) (fn tag : Nat) : Option Job :=
  s.mbx.jobs.find? (fun j => j.req.tag == tag && s.boxFn j.req.box == fn)

/-- The history entry a response to `r` leaves (R391). -/
def histEntry (op : Nat) (r : Req) (x : Resp) (epoch : Nat) : HistEntry :=
  { tag := r.tag, op, flags := reqFlags r, setId := r.setId, len := r.len, crc := (crc32c r.payload).toNat,
    status := x.status, detail := x.detail, epoch := x.epoch.getD epoch, rlen := x.len,
    payload := x.payload }

/-- A request matches a recorded command (R392). -/
def HistEntry.matches (h : HistEntry) (op : Nat) (r : Req) : Bool :=
  h.op == op && h.flags == reqFlags r && h.setId == r.setId && h.len == r.len && h.crc == (crc32c r.payload).toNat

/-- A request matches an executing command (R392). -/
def Job.matches (j : Job) (op : Nat) (r : Req) : Bool :=
  j.op == op && reqFlags j.req == reqFlags r && j.req.setId == r.setId && j.req.len == r.len
    && crc32c j.req.payload == crc32c r.payload

/-- The replay of a recorded response (R392). -/
def HistEntry.replay (h : HistEntry) : Resp :=
  ⟨stDuplicateTag, h.status, h.payload, h.rlen, some h.epoch⟩

/-- Record a completed command: the newest 4,096 are kept; tag 0, DEV_GET_INFO and DEV_GET_RESULT are not (R391, R403). -/
def MbxSt.record (m : MbxSt) (fn op : Nat) (r : Req) (x : Resp) (epoch : Nat) : MbxSt :=
  if r.tag = 0 ∨ op = 0x0101 ∨ op = 0x0102 then m
  else if fn = 0 then { m with hist0 := (histEntry op r x epoch :: m.hist0).take 4096 }
  else { m with hist1 := (histEntry op r x epoch :: m.hist1).take 4096 }

/-- The staged set with an ID. -/
def BakeSt.set? (b : BakeSt) (id : Nat) : Option SetSt := b.sets.find? (fun t => t.id == id)
/-- Change the set with an ID. -/
def BakeSt.updSet (b : BakeSt) (id : Nat) (f : SetSt → SetSt) : BakeSt :=
  { b with sets := b.sets.map (fun t => if t.id = id then f t else t) }

/-- Rows 7 and 8 of R390. -/
def State.setFault (s : State) (r : Req) : Option Resp :=
  if r.stage then
    if r.setId = 0 then some (Resp.err stBadArg dBadSet)
    else match s.bake.set? r.setId with
      | none => some (Resp.err stBadArg dBadSet)
      | some t => if t.state = .baked ∨ t.state = .aborted then some (Resp.err stStaleEpoch dNone) else none
  else if r.setId ≠ 0 then some (Resp.err stBadArg dBadSet) else none

/-- The length of the response a request calls for (R389), for every command but DOM_FORWARD. -/
def State.respLen1 (s : State) (c : CmdInfo) (fn : Nat) (p : List Byte) : Nat :=
  match c.resp with
  | .fixed n => n
  | .counted u o => u * rd p o 2
  | .echo => p.length
  | .recorded => match s.mbx.recorded fn (rd p 0 4) with
    | some h => 16 + h.payload.length
    | none => 0
  | .inner => 0
  | .sets => if rd p 0 4 = 0 then 128 else 32
  | .members => 8 + 8 * rd p 14 1

/-- The payload of a response: a staged write executes nothing and answers none, but for BUF_SET_HEADROOM (R408, R159). -/
def State.respPay (s : State) (c : CmdInfo) (fn : Nat) (stage : Bool) (p : List Byte) : Nat :=
  if stage ∧ c.op ≠ 0x0503 then 0 else s.respLen1 c fn p

/-- The length of the payload that a worker answers to the request that a DOM_FORWARD carries. How much the worker has recorded
for a DEV_GET_RESULT only the worker knows: it counts as the recorded header alone (log entry 115). -/
def State.innerLen (s : State) (d : CmdInfo) (stage : Bool) (p : List Byte) : Nat :=
  if d.resp = .recorded then 16 else s.respPay d 0 stage p

/-- The length of the response to a request (R389). -/
def State.respNeed (s : State) (c : CmdInfo) (fn : Nat) (r : Req) : Nat :=
  if c.resp = .inner then
    match cmdInfo (rd r.payload 4 2) with
    | some d => 16 + s.innerLen d (bit (rd r.payload 6 2) 1) (r.payload.drop 20)
    | none => 16
  else s.respPay c fn r.stage r.payload

/-- Room for the response: 4,080 bytes, or the buffer capacity with INDIRECT (R389). -/
def reqRoom (r : Req) : Nat := if r.indirect then r.cap else 4080

/-- A pool buffer is free for an INDIRECT payload (R395). -/
def BufSt.poolHas (b : BufSt) (size : Nat) : Bool :=
  (decide (size ≤ 256) && decide (b.pool0.used.length < 4194304))
    || (decide (size ≤ 2048) && decide (b.pool1.used.length < 524288))
    || (decide (size ≤ 16384) && decide (b.pool2.used.length < 65536))
    || decide (b.pool3.used.length < 16384)

/-- What the checks before execution decide (R390). -/
inductive Verdict where
  /-- Answered at once; `record`: the answer enters the tag history (R391). -/
  | refuse (x : Resp) (record : Bool)
  /-- The recorded response is replayed. -/
  | replay (h : HistEntry)
  /-- The mailbox waits for the command with this tag, which is still executing. -/
  | wait (tag : Nat)
  /-- Every row passed. -/
  | accept
deriving DecidableEq, Repr

/-- Row 5 of R390: tags and replay (R392). -/
def State.tagVerdict (s : State) (fn op : Nat) (r : Req) : Option Verdict :=
  if r.tag = 0 then none
  else match s.mbx.recorded fn r.tag with
    | some h => if h.matches op r then some (.replay h) else some (.refuse (Resp.err stBadArg dTagInUse) false)
    | none => match s.taggedJob fn r.tag with
      | some j =>
        if !j.matches op r then some (.refuse (Resp.err stBadArg dTagInUse) false)
        else if j.req.async then some (.refuse (Resp.err stPending dRunning) false)
        else some (.wait r.tag)
      | none => none

/-- Row 14 of R390: R393 and R395. -/
def State.busyDetail (s : State) (fn op : Nat) (r : Req) : Option Nat :=
  if 256 ≤ (s.mbx.jobs.filter (fun j => j.op / 256 == op / 256)).length then some dQueueFull
  else if r.async ∧ 64 ≤ (s.mbx.jobs.filter (fun j => j.req.async && s.boxFn j.req.box == fn)).length then
    some dAsyncLimit
  else if r.indirect ∧ s.buf.poolHas r.len = false then some dPoolEmpty
  else none

/-- Row 11 of R390: the length is one the command defines; of a payload that cannot be read only the length field is known. -/
def lenOk (l : LenRule) (r : Req) : Bool :=
  if r.readOk then l.ok r.payload
  else match l with
    | .exact n => r.len == n
    | .any => true
    | .atLeast lo hi => decide (lo ≤ r.len) && decide (r.len ≤ hi)
    | .counted b u o w => decide (o + w ≤ r.len) && decide (b ≤ r.len) && (r.len - b) % u == 0

/-- Rows 6 to 14 of R390 for a defined opcode. -/
def State.lateVerdict (s : State) (c : CmdInfo) (fn : Nat) (r : Req) : Verdict :=
  if r.stage ∧ c.stage = .no then .refuse (Resp.err stNotPermitted dStageNotAllowed) true
  else if ¬ r.stage ∧ c.stage = .required then .refuse (Resp.err stNotPermitted dStageRequired) true
  else match s.setFault r with
    | some x => .refuse x true
    | none =>
      if ¬ r.async ∧ asyncNeeded c r.payload then .refuse (Resp.err stNotPermitted dAsyncRequired) true
      else if r.async ∧ r.tag = 0 then .refuse (Resp.err stBadArg dTagRequired) true
      else if ¬ lenOk c.len r then .refuse (Resp.err stBadLength dNone) true
      else if ¬ r.readOk then .refuse (Resp.err stBadArg dIndirectRead) true
      else if reqRoom r < s.respNeed c fn r then
        .refuse { Resp.err stBadLength dResponseTooLong with len := s.respNeed c fn r } true
      else match s.busyDetail fn c.op r with
        | some d => .refuse (Resp.err stBusy d) false
        | none => .accept

/-- Rows 1 to 4 of R390, which need no payload: the command, or the answer. A forwarded request has passed the role's (R421). -/
def State.earlyVerdict (s : State) (op : Nat) (r : Req) : CmdInfo ⊕ Resp :=
  if (if r.indirect then 65536 else 3824) < r.len then .inr (Resp.err stBadLength dNone)
  else if r.flagsRsvd ∨ (r.indirect ∧ r.indRsvd) then .inr (Resp.err stBadArg dBadFlags)
  else match cmdInfo op with
    | none => .inr (Resp.err stBadOpcode dNone)
    | some c => match (if r.box = fwdBox then none else s.roleDetail c) with
      | some d => .inr (Resp.err stRoleError d)
      | none => .inl c

/-- The checks of R390, in order. -/
def State.verdict (s : State) (op : Nat) (r : Req) : Verdict :=
  match s.earlyVerdict op r with
  | .inr x => .refuse x false
  | .inl c => match s.tagVerdict (s.boxFn r.box) op r with
    | some v => v
    | none => s.lateVerdict c (s.boxFn r.box) r

end Sys2Proof.Machine
end

