-- ==== Sys2Proof/Machine/TxClass.lean ====
section
/-! DEFINITION. Frames that Moaras itself sends: they wait with their class at the egress port (R48, R50, R64, R233, R423), and
every frame that leaves counts in TX_FRAMES and TX_BYTES (R68). -/

namespace Sys2Proof.Machine

/-! ### What holds a class at a port -/

/-- The class is gated at a port (R54, R234). -/
def State.gated (s : State) (p c : Nat) : Bool :=
  decide (p < 512) && !(s.gate p).oper.entries.isEmpty && bit (s.gate p).oper.mask c

/-- The class is paused by received pause or PFC (R46); storm state ignores PFC for the class (R50). -/
def State.classPaused (s : State) (p c : Nat) : Bool :=
  (s.port p).pause.getD c 0 != 0 && !bit (s.port p).storm c

/-- VOQ number (R161). -/
def voqNo (p c t : Nat) : Nat := if p < 512 then 64 * p + 8 * c + t else 32768 + 8 * (p - 512) + c

/-- An egress queue holds a frame that has not started. -/
def SchedSt.waits (x : SchedSt) (k : Nat) : Bool := (Tab.get [] x.egq k).any (fun i => !i.started)

/-! ### Frames and bytes on the wire (R68) -/

/-- Frames a message takes: 1,440 bytes of ciphertext each (R423). -/
def domFrames (body : List Byte) : Nat := max 1 (ceilDiv (4 + body.length) 1440)

/-- Bytes of those frames: 32 of header, 16 of tag and 4 of FCS beside the ciphertext, and 64 at least of each. -/
def domBytes (body : List Byte) : Nat :=
  ((List.range (domFrames body)).map (fun k => max 64 (52 + min 1440 (4 + body.length - 1440 * k)))).sum

/-- Frames that an output puts on the wire of a network port. -/
def Output.frames : Output → Nat
  | .domain _ l => l.length
  | _ => 1

/-- Bytes of those frames, FCS included; a PTP message has an Ethernet header of 14 bytes. -/
def Output.wireBytes : Output → Nat
  | .domain _ l => (l.map List.length).sum
  | .ptp _ b => max 64 (18 + b.length)
  | .control _ b | .frame _ b _ => b.length + 4
  | _ => 0

/-- A frame leaves port `p` and is counted. -/
def State.sendNow (s : State) (p : Nat) (o : Output) : State :=
  ((s.bumpPort p 8 o.frames).bumpPort p 9 o.wireBytes).emit o

/-! ### Waiting with a class (R48) -/

/-- The frames of Moaras that wait at port `p`: (class, frame), oldest first. -/
def State.waiting (s : State) (p : Nat) : List (Nat × Output) := Tab.get [] s.sched.waitTx p

/-- The frames of Moaras that wait at port `p` are `l`. -/
def State.setWaiting (s : State) (p : Nat) (l : List (Nat × Output)) : State :=
  { s with sched := { s.sched with waitTx := Tab.set [] s.sched.waitTx p l } }

/-- Nothing holds a frame of class `c`: the MAC is idle and awake, the class is neither paused nor gated, and no frame of
it waits. -/
def State.txClear (s : State) (p c : Nat) : Bool :=
  (s.port p).txPkt.isNone && !(s.port p).lpi && !s.classPaused p c && !s.gated p c
    && (s.waiting p).all (fun x => x.1 != c) && (List.range 8).all (fun t => !s.sched.waits (voqNo p c t))

/-- A frame of Moaras in class `c` leaves port `p` by `now`, or waits with the class; in storm state it is dropped (R50). -/
def State.sendClass (s : State) (p c : Nat) (o : Output) (now : State → State) : State :=
  if bit (s.port p).storm c then s.bumpPort p 19 1
  else if s.txClear p c then now s
  else s.setWaiting p (s.waiting p ++ [(c, o)])

/-- The waiting frames that may leave, oldest first, and those that stay: a frame stays behind an earlier one of its class. -/
def leaving (may : Nat × Output → Bool) : List (Nat × Output) → List Nat → List Output × List (Nat × Output)
  | [], _ => ([], [])
  | x :: r, held =>
    if may x && !held.contains x.1 then (x.2 :: (leaving may r held).1, (leaving may r held).2)
    else ((leaving may r (x.1 :: held)).1, x :: (leaving may r (x.1 :: held)).2)

end Sys2Proof.Machine
end

