-- ==== Sys2Proof/Machine/DomSend.lean ====
section
/-! DEFINITION. The frames of the control channel: sealed under a session, or in clear text before one exists; and a first send
that must be confirmed (R423 to R425, R453). -/

namespace Sys2Proof.Machine

/-- Types that RECEIVED does not confirm (R425): HEARTBEAT, HEARTBEAT_ACK and RECEIVED. -/
def unconfirmed (type : Nat) : Bool := decide (type ≤ 3)

/-! ### Frames (R423, R424) -/

/-- The group address of the channel. -/
def domGroup : Nat := 0x0180C200000E

/-- Bytes 0 to 31 of fragment `k` of `n`. -/
def domHeader (dst src sender receiver epoch id k n seq : Nat) : List Byte :=
  be 6 dst ++ be 6 src ++ be 2 0x88B5 ++ be 1 3 ++ be 1 1 ++ be 1 sender ++ be 1 receiver ++ be 1 epoch ++ be 1 0 ++ be 2 id
    ++ be 1 k ++ be 1 n ++ be 8 seq

/-- The plaintext of fragment `k`: the type word and the body, cut every 1,440 bytes. -/
def domText (type : Nat) (body : List Byte) (k : Nat) : List Byte := slice (be 1 type ++ be 3 0 ++ body) (1440 * k) 1440

/-- Ciphertext and tag of a frame: the key and the salt of its direction, the nonce of R424, bytes 0 to 31 as associated data. -/
def sealText (secret head text : List Byte) : List Byte × List Byte :=
  gcmSeal (sessionKey domVersion secret) ((sessionIv domVersion secret).take 4 ++ slice head 24 8) head text

/-- The tag of a frame in clear text. -/
def noTag : List Byte := be 16 0

/-- A frame as it is on the wire: filled to 60 bytes, with its FCS. -/
def wireFrame (b : List Byte) : List Byte :=
  let f := b ++ List.replicate (60 - b.length) 0
  f ++ le 4 (crc32 f).toNat

/-- A sealed frame. -/
def sealedFrame (secret head text : List Byte) : List Byte :=
  let c := sealText secret head text
  wireFrame (head ++ c.1 ++ c.2)

/-! ### Sealed messages -/

/-- The enabled domain ports to a peer whose link is up. -/
def State.domPorts (s : State) (peer : Nat) : List Nat :=
  (s.peer peer).ports.filter (fun p => (s.port p).domainPort && (s.port p).link)

/-- Bytes 0 to 31 of fragment `k` of `n` of a message to a peer (R423). -/
def State.domHead (s : State) (p peer id n k : Nat) : List Byte :=
  let e := s.peer peer
  domHeader domGroup (s.port p).mac s.devIndex peer e.keyEpoch id k n (e.txSeq + k)

/-- A message as it leaves port `p`. -/
def State.domFrame (s : State) (p peer type id : Nat) (body : List Byte) : Output :=
  let n := domFrames body
  .domain p ((List.range n).map (fun k => sealedFrame (s.peer peer).txSecret (s.domHead p peer id n k) (domText type body k)))

/-- The `n`-th send of a message, from 0: its frames leave in TC7 on the next domain port to the peer, each with the next
sequence number of its direction (R423 to R425). -/
def State.domPut (s : State) (peer type id : Nat) (body : List Byte) (n : Nat) : State :=
  match s.domPorts peer with
  | [] => s
  | l@(_ :: _) =>
    let p := l.getD (n % l.length) 0
    let o := s.domFrame p peer type id body
    (s.updPeer peer (fun e =>
      { e with txSeq := (e.txSeq + domFrames body) % 2 ^ 64, sealed := e.sealed + domFrames body })).sendClass p 7 o
      (fun t => t.sendNow p o)

/-- The next message ID is used up; a message that RECEIVED confirms is kept for its resends (R425). -/
def State.keepMsg (s : State) (peer type : Nat) (body : List Byte) (clear : Option Nat) : State :=
  { s with bake := { s.bake with
      nextMsg := (s.bake.nextMsg + 1) % 65536
      msgs := if unconfirmed type then s.bake.msgs
        else s.bake.msgs ++ [{ peer, id := s.bake.nextMsg, type, body, sends := 1, clear }] } }

/-- Send a message (R425). -/
def State.domSend (s : State) (peer type : Nat) (body : List Byte) : State :=
  (s.domPut peer type s.bake.nextMsg body 0).keepMsg peer type body none

/-! ### Messages in clear text, before a session exists -/

/-- A message in clear text to receiver `dest` as it leaves port `p`: key epoch and sequence 0, a zero tag (R423; log entry 52). -/
def State.clearFrame (s : State) (p dest type id : Nat) (body : List Byte) : Output :=
  let n := domFrames body
  .domain p ((List.range n).map (fun k =>
    wireFrame (domHeader domGroup (s.port p).mac s.devIndex dest 0 id k n 0 ++ domText type body k ++ noTag)))

/-- Its frames leave port `p` in TC7. -/
def State.clearPut (s : State) (p dest type id : Nat) (body : List Byte) : State :=
  let o := s.clearFrame p dest type id body
  s.sendClass p 7 o (fun t => t.sendNow p o)

/-- Send such a message on port `p`. -/
def State.clearSend (s : State) (p dest type : Nat) (body : List Byte) : State :=
  (s.clearPut p dest type s.bake.nextMsg body).keepMsg dest type body (some p)

/-- The enabled domain ports whose link is up. -/
def State.openPorts (s : State) : List Nat := (List.range 512).filter (fun p => (s.port p).domainPort && (s.port p).link)

/-- The port of the `n`-th resend of a message in clear text that left port `p`: a worker's ports all lead to the manager, and it
takes the next one; the manager keeps to the port that it heard the worker on (R425; log entry 52). -/
def State.clearPort (s : State) (p n : Nat) : Option Nat :=
  let l := s.openPorts
  if s.role = 2 then (if l.contains p then some p else none)
  else if l.isEmpty then none
  else some (l.getD ((l.findIdx (· == p) + n) % l.length) 0)

end Sys2Proof.Machine
end

