-- ==== Sys2Proof/Machine/HostMem.lean ====
section
/-! DEFINITION. Requests to host memory: how a range is cut into them (R355). -/

namespace Sys2Proof.Machine

/-- The requests that a range takes, each of at most `m` bytes and within one 4 KiB page (R355); the first argument bounds their
number. -/
def requests (m : Nat) : Nat → Nat → Nat → List (Nat × Nat)
  | 0, _, _ => []
  | n + 1, a, len =>
    if len = 0 then []
    else
      let k := min len (min m (4096 - a % 4096))
      (a, k) :: requests m n (a + k) (len - k)

/-- The requests of a range of `len` bytes. -/
def splitRange (m a len : Nat) : List (Nat × Nat) := requests m (len / 64 + 2) a len

/-- Max_Payload_Size and Max_Read_Request_Size in bytes, as Device Control codes them. -/
def sizeCode (k : Nat) : Nat := 128 * 2 ^ min k 5
def LinkIf.maxPayload (l : LinkIf) : Nat := sizeCode (bits l.devCtl.toNat 7 5)
def LinkIf.maxRead (l : LinkIf) : Nat := sizeCode (bits l.devCtl.toNat 14 12)

end Sys2Proof.Machine
end

