-- ==== Sys2Proof/Machine/Pools.lean ====
section
/-! DEFINITION. The message pools (R155 to R158). -/

namespace Sys2Proof.Machine

/-- Base address of HBM region `k` in the order of R27: the regions lie one after another from address 0 (log entry 9). -/
def State.regionBase (s : State) (k : Nat) : Nat :=
  2 ^ 30 * (s.pwr.regions.take k).sum

/-- Size of HBM region `k` in bytes. -/
def State.regionSize (s : State) (k : Nat) : Nat :=
  2 ^ 30 * s.pwr.regions.getD k 0

/-- Buffer size of pool `i` (R155). -/
def poolBuf (i : Nat) : Nat := [256, 2048, 16384, 65536].getD i 65536
/-- Buffers of pool `i` (R155): 1 GiB of them. -/
def poolCount (i : Nat) : Nat := 2 ^ 30 / poolBuf i

/-- Pool `i`. -/
def BufSt.pool (b : BufSt) (i : Nat) : Pool :=
  match i with
  | 0 => b.pool0
  | 1 => b.pool1
  | 2 => b.pool2
  | _ => b.pool3

/-- Pool `i` replaced. -/
def BufSt.setPool (b : BufSt) (i : Nat) (p : Pool) : BufSt :=
  match i with
  | 0 => { b with pool0 := p }
  | 1 => { b with pool1 := p }
  | 2 => { b with pool2 := p }
  | _ => { b with pool3 := p }

/-- The lowest buffer number from `n` on that a rising list of allocated numbers leaves free. -/
def lowestFree (n : Nat) : List Nat → Nat
  | [] => n
  | m :: r => if m = n then lowestFree (n + 1) r else n

/-- The smallest pool that serves a request (R156 step 1); 4: none. -/
def poolFor (size : Nat) : Nat :=
  if size ≤ 256 then 0 else if size ≤ 2048 then 1 else if size ≤ 16384 then 2 else if size ≤ 65536 then 3 else 4

/-- The pool that serves the request: pool `i` or the next larger one with a free buffer (R156). -/
def BufSt.poolPick (b : BufSt) (i : Nat) : Option Nat :=
  ([0, 1, 2, 3].filter (fun j => i ≤ j && decide ((b.pool j).used.length < poolCount j))).head?

/-- Take the lowest free buffer of a pool. -/
def Pool.take (p : Pool) : Pool :=
  let used := insertRising (lowestFree 0 p.used) p.used
  { p with used, low := max p.low used.length }

/-- Raise POOL_LOW when the free count has fallen below 1/64 of the buffers, once until it is above 1/32 (R158). -/
def State.poolAlarm (s : State) (i : Nat) : State :=
  let p := s.buf.pool i
  if !p.alarm && decide (64 * (poolCount i - p.used.length) < poolCount i) then
    ({ s with buf := s.buf.setPool i { p with alarm := true } }).raise 0x0504 sevWarning []
  else s

/-- Serve an allocation of `size` bytes, at most 65,536: the pointer given, if any (R156). -/
def State.poolAlloc (s : State) (size : Nat) : State × Option Nat :=
  match s.buf.poolPick (poolFor size) with
  | none => (s.bumpBuf 20 1, none)
  | some j =>
    let p := s.buf.pool j
    let n := lowestFree 0 p.used
    let t := { s with buf := s.buf.setPool j p.take }
    (((t.bumpBuf 18 1).bumpBuf 19 (if j = poolFor size then 0 else 1)).poolAlarm j,
      some (s.regionBase 2 + 2 ^ 30 * j + poolBuf j * n))

/-- Bytes written to the buffer at a pointer. -/
def State.fillBuf (s : State) (ptr : Option Nat) (l : List Byte) : State :=
  match ptr with
  | none => s
  | some p => { s with host := { s.host with poolMem := Tab.writeBytes 0 s.host.poolMem (p - s.regionBase 2) l } }

/-- The pool and buffer number that a pointer names, if it passes the first two tests of R157. -/
def State.poolPtr (s : State) (ptr : Nat) : Option (Nat × Nat) :=
  let o := ptr - s.regionBase 2
  let j := o / 2 ^ 30
  if s.regionBase 2 ≤ ptr ∧ o < s.regionSize 2 ∧ j < 4 ∧ o % 2 ^ 30 % poolBuf j = 0 then some (j, o % 2 ^ 30 / poolBuf j)
  else none

/-- Return a buffer to its pool; the low alarm is armed again above 1/32 (R158). -/
def Pool.give (p : Pool) (j n : Nat) : Pool :=
  let used := without p.used n
  { p with used, alarm := p.alarm && decide (32 * (poolCount j - used.length) ≤ poolCount j) }

/-- Return a pointer (R157): accepted, or rejected with POOL_BAD_FREE and every bitmap unchanged. -/
def State.poolFree (s : State) (ptr block : Nat) : State :=
  match s.poolPtr ptr with
  | some (j, n) =>
    if (s.buf.pool j).used.contains n then { s with buf := s.buf.setPool j ((s.buf.pool j).give j n) }
    else (s.bumpBuf 21 1).raise 0x0503 sevWarning (le 8 ptr ++ le 1 block)
  | none => (s.bumpBuf 21 1).raise 0x0503 sevWarning (le 8 ptr ++ le 1 block)

end Sys2Proof.Machine
end

