-- ==== Sys2Proof/Machine/Mailbox.lean ====
section
/-! DEFINITION. Mailboxes: submitting a request, posting a response, completing a command; and the two shapes every
mailbox command has: an answer from the state, and a configuration write, live or staged. -/

namespace Sys2Proof.Machine

/-! ### Posting (R383, R386) -/

/-- The response header (R386). -/
def respHeader (tag : Nat) (x : Resp) (epoch : Nat) : List Byte :=
  le 4 tag ++ le 2 x.status ++ le 2 x.detail ++ le 4 x.len ++ le 4 (x.epoch.getD epoch)

/-- The counter of R404 that a posted status counts; 8: none. -/
def statusCtr (x : Resp) : Nat :=
  if x.status = stOk then 1
  else if x.status = stBusy then 3
  else if x.status = stDuplicateTag then 4
  else if x.status = stPending then (if x.detail = dLost then 5 else 8)
  else 2

/-- Count a posted response (R404). -/
def TelSt.countResp (t : TelSt) (fn : Nat) (x : Resp) : TelSt :=
  if statusCtr x = 8 then t else { t with mbxCtr := Tab.bump t.mbxCtr (8 * fn + statusCtr x) 1 }

/-- The host write of an INDIRECT response payload. -/
def respWrite (fn : Nat) (indirect : Bool) (addr : Nat) (x : Resp) : List Output :=
  if indirect ∧ x.payload ≠ [] then [.hostWrite fn addr x.payload] else []

/-- Post a response in mailbox `b` (R383): header, payload and host buffer, STATE, then the interrupt. -/
def State.postBox (s : State) (b tag : Nat) (indirect : Bool) (addr : Nat) (x : Resp) : State :=
  let fn := s.boxFn b
  let h := s.host.setPending s.ident.bifurcated (128 + b)
  { s with
    mbx := { s.mbx with boxes := Tab.upd Mbox.init s.mbx.boxes b (fun m =>
      { m with state := .responseReady, responses := (m.responses + 1) % 65536,
               resp := respHeader tag x s.bake.epoch ++ (if indirect then [] else x.payload) }) }
    tel := s.tel.countResp fn x
    host := h.1
    out := h.2 ++ respWrite fn indirect addr x ++ s.out }

/-- Post a response: in a mailbox, or to the manager that forwarded the request (R421). -/
def State.post (s : State) (b tag : Nat) (indirect : Bool) (addr : Nat) (x : Resp) : State :=
  if b = fwdBox then s.domSend 0 0x11 (respHeader tag x s.bake.epoch ++ x.payload) else s.postBox b tag indirect addr x

/-- Post a response to a request. -/
def State.postReq (s : State) (r : Req) (x : Resp) : State :=
  s.post r.box r.tag r.indirect r.respAddr x

/-! ### Submitting (R382, R384, R390, R393) -/

/-- A discarded action of the host: MBX_PROTOCOL and its counter; action 0 DOORBELL, 1 write of the request area. -/
def State.protocolError (s : State) (b action : Nat) : State :=
  (s.bumpMbx (s.boxFn b) 7 1).raise 0x0104 sevInfo (le 2 b ++ le 1 action)

/-- The doorbell is accepted: SUBMITTED, SUBMITS and MBX_COMMANDS counted, the old response released. -/
def State.accept (s : State) (b : Nat) : State :=
  (s.updBox b (fun m => { m with state := .submitted, submits := (m.submits + 1) % 65536, resp := [] })).bumpMbx
    (s.boxFn b) 0 1

/-- Record a completed command in the tag history of its function. -/
def State.recordTag (s : State) (op : Nat) (r : Req) (x : Resp) : State :=
  { s with mbx := s.mbx.record (s.boxFn r.box) op r x s.bake.epoch }

/-- Answer a request if a mailbox still waits for it. -/
def State.postJob (s : State) (j : Job) (x : Resp) : State := if j.boxed then s.postReq j.req x else s

/-- Queue the command: an INDIRECT payload goes into a pool buffer, and for ASYNC the answer is PENDING, ACCEPTED (R388, R393). -/
def State.enqueue (s : State) (j : Job) : State :=
  let r := j.req
  let a := if r.indirect then s.poolAlloc r.len else (s, none)
  let t := a.1.fillBuf a.2 r.payload
  let u := { t with mbx := { t.mbx with jobs := t.mbx.jobs ++ [{ j with boxed := j.boxed && !r.async, buf := a.2 }] } }
  if r.async then (u.bumpMbx (u.boxFn r.box) 6 1).postJob j (Resp.err stPending dAccepted) else u

/-- A mailbox joins the ones that wait for the replay of an executing command (R392). -/
def State.addWaiter (s : State) (r : Req) : State :=
  { s with mbx := { s.mbx with jobs := s.mbx.jobs.map (fun j =>
      if j.req.tag = r.tag ∧ s.boxFn j.req.box = s.boxFn r.box then
        { j with waiters := j.waiters ++ [(r.box, r.indirect, r.respAddr)] } else j) } }

/-- The command of a doorbell rung now. -/
def State.newJob (s : State) (op : Nat) (r : Req) : Job := { Job.init with op, req := r, rung := s.nowNs }

/-- Carry out a verdict; the flag says whether the command has been queued. -/
def State.applyVerdict (s : State) (j : Job) : Verdict → State × Bool
  | .refuse x record => ((if record then s.recordTag j.op j.req x else s).postJob j x, false)
  | .replay h => (s.postJob j h.replay, false)
  | .wait _ => (if j.boxed then s.addWaiter j.req else s, false)
  | .accept => (s.enqueue j, true)

/-- The reads of an INDIRECT payload (R388): Moaras makes them once the first rows of R390 have passed, and checks on. -/
def State.readPayload (s : State) (op : Nat) (r : Req) : State :=
  match s.earlyVerdict op r with
  | .inr _ => s
  | .inl _ =>
    if r.indirect ∧ r.box < 32 then
      (splitRange (s.host.link (s.boxFn r.box)).maxRead r.payAddr r.len).foldl
        (fun t p => t.emit (.hostRead (s.boxFn r.box) p.1 p.2)) s
    else s

/-- Moaras takes a command: it reads the payload and checks the request. -/
def State.takeJob (s : State) (j : Job) : State × Bool := (s.readPayload j.op j.req).applyVerdict j (s.verdict j.op j.req)

/-- A doorbell on `r.box` whose request area holds `r` with opcode `op` (R384, R390). One that is rung during a failover waits
for the new active processor (R266); in D3hot the function answers configuration requests only (R343). -/
def State.submit (s : State) (op : Nat) (r : Req) : State × Bool :=
  if (s.host.link (s.boxFn r.box)).d3 then (s, false)
  else if (s.box r.box).state = .submitted then (s.protocolError r.box 0, false)
  else
    let t := s.accept r.box
    if s.mbx.ready then
      if s.pwr.failing.isSome then ({ t with mbx := { t.mbx with gapCmds := t.mbx.gapCmds ++ [s.newJob op r] } }, false)
      else t.takeJob (s.newJob op r)
    else (t.postReq r { Resp.err stBusy dNotReady with epoch := some 0 }, false)

/-! ### Completing (R383, R391 to R393) -/

/-- The oldest job with this opcode and request, running or not as `run` says. -/
def State.job? (s : State) (op : Nat) (r : Req) (run : Bool) : Option Job :=
  s.mbx.jobs.find? (fun j => j.op == op && j.req == r && j.running == run)

/-- Whether a time base reading of the doorbell is kept: that of the oldest such job that waits (R413, R427). -/
def State.rungAt (s : State) (op : Nat) (r : Req) : Nat := ((s.job? op r false).map (·.rung)).getD s.nowNs

/-- Take the first job with this opcode and request, running or not, out of the queue. -/
def dropJob (op : Nat) (r : Req) (run : Bool) : List Job → List Job
  | [] => []
  | j :: l => if j.op = op ∧ j.req = r ∧ j.running = run then l else j :: dropJob op r run l

/-- The first such job that waits goes on running. -/
def startJob (op : Nat) (r : Req) : List Job → List Job
  | [] => []
  | j :: l => if j.op = op ∧ j.req = r ∧ j.running = false then { j with running := true } :: l else j :: startJob op r l

/-- Replays for the mailboxes that wait (R392). -/
def State.postWaiters (s : State) (tag : Nat) (x : Resp) : List (Nat × Bool × Nat) → State
  | [] => s
  | w :: l => (s.post w.1 tag w.2.1 w.2.2 ⟨stDuplicateTag, x.status, x.payload, x.len, x.epoch⟩).postWaiters
      tag x l

/-- Free the pool buffer of an indirect payload. -/
def State.freeBuf (s : State) (b : Option Nat) : State :=
  match b with
  | some p => s.poolFree p 0
  | none => s

/-- MBX_ASYNC_DONE (R393, R405): function, tag, opcode, status, detail, response payload length. -/
def State.asyncDone (s : State) (op : Nat) (r : Req) (x : Resp) : State :=
  s.raise 0x0105 sevInfo (le 1 (s.boxFn r.box) ++ le 4 r.tag ++ le 2 op ++ le 2 x.status ++ le 2 x.detail ++ le 4 x.len)

/-- The staged sets of this device that a command names: with STAGE in the header; the commands over sets, and DOM_BAKE for the
manager's own, in their payload (R433). -/
def namedSets (op : Nat) (r : Req) : List Nat :=
  let p := r.payload
  (if r.stage then [r.setId]
    else if op / 256 = 0x0D then [rd p 0 4]
    else if op = 0x0E05 then
      ((List.range (rd p 14 1)).filter (fun i => rd p (24 + 8 * i) 1 == 0)).map (fun i => rd p (28 + 8 * i) 4)
    else []).filter (· != 0)

/-- A queued command of the same subsystem range, or that names the same staged set: it takes effect first where its doorbell
came first (R394). -/
def Job.precedes (op : Nat) (r : Req) (j : Job) : Bool :=
  !j.running && (j.op / 256 == op / 256 || (namedSets op r).any (namedSets j.op j.req).contains)

/-- A queued command has to wait for one before it in the queue (R394). -/
def State.heldBack (s : State) (op : Nat) (r : Req) : Bool :=
  (s.mbx.jobs.takeWhile (fun j => !(j.op == op && j.req == r && !j.running))).any (fun j => j.precedes op r)

/-- Answer the request of a job. -/
def State.answerJob (s : State) (j : Job) (x : Resp) : State :=
  if j.req.async then s.asyncDone j.op j.req x
  else if j.boxed then s.postReq j.req x
  else s

/-- The command of a job completes: `rest` stay in the queue, its response is recorded and posted. -/
def State.endJob (s : State) (j : Job) (rest : List Job) (x : Resp) : State :=
  let t := { s with mbx := { s.mbx with jobs := rest } }
  (((t.freeBuf j.buf).recordTag j.op j.req x).answerJob j x).postWaiters j.req.tag x j.waiters

/-- The oldest job with this opcode and request, of those that run or of those that wait, completes. -/
def State.endOldest (s : State) (op : Nat) (r : Req) (run : Bool) (x : Resp) : State :=
  match s.job? op r run with
  | none => s
  | some j => s.endJob j (dropJob op r run s.mbx.jobs) x

/-- A command that goes on running completes, or one that has just been taken and ends within its own meaning. -/
def State.complete (s : State) (op : Nat) (r : Req) (x : Resp) : State := s.endOldest op r (s.job? op r true).isSome x

/-- How many such jobs wait. -/
def State.waitingLike (s : State) (op : Nat) (r : Req) : Nat :=
  (s.mbx.jobs.filter (fun j => j.op == op && j.req == r && !j.running)).length

/-- The command just taken completes. -/
def State.completeNow (s : State) (op : Nat) (r : Req) (x : Resp) : State := s.endOldest op r false x

/-- The command just taken goes on running: its completion comes later. -/
def State.markRunning (s : State) (op : Nat) (r : Req) : State :=
  { s with mbx := { s.mbx with jobs := startJob op r s.mbx.jobs } }

/-- What a command's body yields: the new state, and its response unless it completes later. -/
abbrev Body := Req → State → State × Option Resp

/-- Run the body of a queued command. -/
def State.runJob (s : State) (op : Nat) (r : Req) (body : Body) : State :=
  match (body r s).2 with
  | some x => (body r s).1.completeNow op r x
  | none => if (body r s).1.waitingLike op r < s.waitingLike op r then (body r s).1 else (body r s).1.markRunning op r

/-- The row of a mailbox command: Moaras takes the queued command if its doorbell has been rung; else the row stands for
the doorbell too (log entry 2). A command stays queued behind one that must take effect first (R394), and during a failover,
when Moaras takes none (R266). -/
def State.command (s : State) (op : Nat) (r : Req) (body : Body) : State :=
  match s.job? op r false with
  | some _ => if s.pwr.failing.isSome ∨ s.heldBack op r then s else s.runJob op r body
  | none =>
    if (s.submit op r).2 ∧ (s.submit op r).1.heldBack op r = false then (s.submit op r).1.runJob op r body
    else (s.submit op r).1

/-- The meaning of a mailbox command's row. -/
def mailboxCommand (op : Nat) (body : Body) (r : Req) (s : State) : Host.Outcome State Fault Refusal :=
  if r.box < 32 then .next (s.command op r body) else .fault (.noSuchUnit "mailbox")

/-! ### Shapes of commands -/

/-- Answer from the state, changing nothing. -/
def readCmd (f : Req → State → Resp) : Body := fun r s => (s, some (f r s))

/-- OK with a payload. -/
def okCmd (s : State) (p : List Byte) : State × Option Resp := (s, some (Resp.ok p))

/-- A refusal. -/
def errCmd (s : State) (status detail : Nat) : State × Option Resp := (s, some (Resp.err status detail))

/-- Opcodes whose staged writes count as exact-match and LPM changes (R109, R408). -/
def tableChange (op : Nat) : Bool := op == 0x0401 || op == 0x0402 || op == 0x0405

/-- Bytes a staged command takes in the staging region (log entry 10). -/
def StagedCmd.size (c : StagedCmd) : Nat := 16 + c.payload.length

/-- Staged commands of the sets that are not baked or aborted, in bytes. -/
def BakeSt.stagedBytes (b : BakeSt) : Nat :=
  ((b.sets.filter (fun t => t.state != .baked && t.state != .aborted)).flatMap (·.cmds)).foldl
    (fun a c => a + c.size) 0

/-- Bytes of the tag history in the staging region: 20 of the request, the response header, its payload; a command still
executing is held with the first (R391; log entry 10). -/
def MbxSt.histBytes (m : MbxSt) : Nat :=
  ((m.hist0 ++ m.hist1).map (fun h => 36 + h.payload.length)).sum
    + 20 * (m.jobs.filter (fun j => j.req.tag != 0 && j.op != 0x0101 && j.op != 0x0102)).length

/-- What the staging region holds: staged sets, tag histories, receipt slots in use (R27, R297, R391). -/
def State.stagingUse (s : State) : Nat :=
  s.bake.stagedBytes + s.mbx.histBytes + 288 * (s.leaven.fix.map (fun f => f.2.rcHead - f.2.rcTail)).sum

/-- A list of staged commands with one more: a later write to the same item replaces the earlier one (R408). -/
def addStaged (l : List StagedCmd) (c : StagedCmd) : List StagedCmd :=
  l.filter (fun d => itemKey d.op d.payload != itemKey c.op c.payload) ++ [c]

/-- A staged write (R407, R408): recorded in the set, executing nothing. -/
def State.stage (s : State) (op : Nat) (r : Req) (okPayload : List Byte) : State × Option Resp :=
  match s.bake.set? r.setId with
  | none => errCmd s stBadArg dBadSet
  | some t =>
    if t.state = .preparing ∨ t.state = .armed then errCmd s stNotPermitted 0x0D01
    else if t.state ≠ .isOpen then errCmd s stStaleEpoch dNone
    else
      let cmds := addStaged t.cmds { op, payload := r.payload }
      let u := { s with bake := s.bake.updSet t.id (fun t => { t with cmds }) }
      if 1048576 < cmds.length ∨ 262144 < (cmds.filter (fun c => tableChange c.op)).length ∨ s.regionSize 4 < u.stagingUse then
        errCmd s stNoResource 0x0D06
      else okCmd u okPayload

/-- Moaras keeps the last value of every configuration item in its shadow (R31); a live write of configuration releases the
shadow held since a warm reset (R493). -/
def State.shadow (s : State) (op : Nat) (p : List Byte) : State :=
  { s with bake := { s.bake with snapshot := addStaged s.bake.snapshot { op, payload := p }, heldShadow := none } }

/-- A live write of a table entry releases the held shadow too. -/
def State.dropHeld (s : State) : State := { s with bake := { s.bake with heldShadow := none } }

/-- A configuration write without response payload: staged, or live after its chapter's checks. `check` gives the live
status and the detail of the first violation. -/
def setCmd (op : Nat) (check : List Byte → State → Option (Nat × Nat)) (apply : List Byte → State → State) : Body :=
  fun r s =>
    if r.stage then s.stage op r []
    else match check r.payload s with
      | some e => errCmd s e.1 e.2
      | none => okCmd ((apply r.payload s).shadow op r.payload) []

/-- A check made of one condition: BAD_ARG with a detail where it fails. -/
def need (detail : Nat) (ok : Bool) : Option (Nat × Nat) :=
  if ok then none else some (stBadArg, detail)

/-- The first of several checks that fails. -/
def firstOf : List (Option (Nat × Nat)) → Option (Nat × Nat)
  | [] => none
  | some e :: _ => some e
  | none :: l => firstOf l

end Sys2Proof.Machine
end

