-- ==== Sys2Proof/Machine/Memory.lean ====
section
/-! DEFINITION. The memory commands and the occupancy of the HBM regions (R27 to R33). -/

namespace Sys2Proof.Machine

/-- Reserved bytes of a payload are 0. -/
def resv (p : List Byte) (o n : Nat) : Bool := allZero (slice p o n)

/-- Bytes of frames held in the spill region: 256 for each spilled cell (R154). -/
def State.spillBytes (s : State) : Nat := 256 * (s.buf.queues.map (fun q => q.2.spilled)).sum

/-- Bytes of pool buffers in use (R155). -/
def BufSt.poolBytes (b : BufSt) : Nat :=
  ([0, 1, 2, 3].map (fun i => poolBuf i * (b.pool i).used.length)).sum

/-- Records of a batch that have been written. -/
def Batch.nWritten (b : Batch) : Nat := (b.recs.filter (fun r => r.2.isSome)).length
/-- Records written to a cluster's ring so far, its head (R295). -/
def FixClu.recHead (f : FixClu) : Nat := f.base + (f.due.map Batch.nWritten).sum + f.cur.nWritten
/-- Bytes of unreleased records of a cluster: 64 each (R295). -/
def FixClu.recordBytes (f : FixClu) : Nat := 64 * (f.recHead - f.recTail)

/-- Occupancy of region `k` in bytes, in the order of R27. The spec gives the shadow no format: its size is a free value
(log entry 3); staging counts the staged sets, the tag histories and the receipt slots in use (log entry 10). -/
def State.occupancy (s : State) (k : Nat) : Nat :=
  match k with
  | 0 => 256 * s.proof.parkUnits
  | 1 => s.spillBytes
  | 2 => s.buf.poolBytes
  | 3 => Config.shadowBytes s.bake.snapshot.length
  | 4 => s.stagingUse
  | _ => (s.leaven.fix.map (fun f => f.2.recordBytes)).sum

/-- Limits of a region's size in GiB: minimum and maximum (R27). -/
def regionLimits (k : Nat) : Nat × Nat :=
  [(0, 64), (0, 86), (4, 4), (4, 16), (1, 8), (1, 82)].getD k (0, 0)

/-- A division within the limits of R27 whose sizes sum to 96 GiB. -/
def divisionOk (l : List Nat) : Bool :=
  (List.range 6).all (fun k => decide ((regionLimits k).1 ≤ l.getD k 0) && decide (l.getD k 0 ≤ (regionLimits k).2))
    && l.sum == 96

/-- The region test at the instant (R29, R298): every region that shrinks holds its occupancy, and the record rings are
empty where the fixity log's size changes. -/
def State.regionTest (s : State) (l : List Nat) : Bool :=
  (List.range 6).all (fun k => decide (s.pwr.regions.getD k 0 ≤ l.getD k 0)
      || decide (s.occupancy k ≤ 2 ^ 30 * l.getD k 0))
    && (s.pwr.regions.getD 5 0 == l.getD 5 0 || s.leaven.fix.all (fun f => f.2.recHead == f.2.recTail))

/-- MEM_SET_REGIONS: the division asked for. -/
def regionsOf (p : List Byte) : List Nat := chunks 4 p

def checkMemSetRegions (p : List Byte) (_ : State) : Option (Nat × Nat) := need 0x0C01 (divisionOk (regionsOf p))
/-- Without a spill region no VOQ is in spill (R28): those with no spilled frame leave it at once. -/
def State.endSpill (s : State) : State :=
  if s.regionSize 1 = 0 then
    { s with buf := { s.buf with spillVoqs := s.buf.spillVoqs.filter (fun k =>
        !(s.voq (k / 32800) (k % 32800)).spillQ.isEmpty) } }
  else s
def applyMemSetRegions (p : List Byte) (s : State) : State :=
  ({ s with pwr := { s.pwr with regions := regionsOf p } }).endSpill

/-- MEM_GET_MAP: sizes in GiB and occupancies in MiB, rounded up. -/
def memGetMapBody : Body := readCmd (fun _ s =>
  Resp.ok ((List.range 6).flatMap (fun k => le 4 (s.pwr.regions.getD k 0) ++ le 4 (ceilDiv (s.occupancy k) (2 ^ 20)))))

def memSetRegionsBody : Body := setCmd 0x0C02 checkMemSetRegions applyMemSetRegions

/-- MEM_GET_HEALTH: rows repaired, spare engaged, correctable errors of each stack. -/
def memGetHealthBody : Body := readCmd (fun _ s =>
  Resp.ok ((List.range 4).flatMap (fun k =>
    le 2 (s.stack k).repaired ++ le 1 (b2n ((s.stack k).spare == 1)) ++ le 1 0 ++ le 4 0 ++ le 8 (s.stack k).correctable)))

def execMemGetMap (r : Req) (s : State) : Host.Outcome State Fault Refusal := mailboxCommand 0x0C01 memGetMapBody r s
def execMemSetRegions (r : Req) (s : State) : Host.Outcome State Fault Refusal :=
  mailboxCommand 0x0C02 memSetRegionsBody r s
def execMemGetHealth (r : Req) (s : State) : Host.Outcome State Fault Refusal :=
  mailboxCommand 0x0C03 memGetHealthBody r s

end Sys2Proof.Machine
end

