-- ==== Sys2Proof/Machine/Parse.lean ====
section
/-! DEFINITION. Prism's reading of a frame head: tags, outer EtherType, lookup header, extraction into the key, and the
ternary match of one pass (R69 to R83, R99). All functions are pure. -/

namespace Sys2Proof.Machine

/-- The field of `n` bytes at offset `o`, in network order; bytes beyond the end read as 0. -/
def fld (b : List Byte) (o n : Nat) : Nat :=
  ofBe (padTo n (slice b o n))

/-- The tags and the outer EtherType of a frame (R51, R70). -/
structure Tags where
  /-- TCI of the 802.1Q tag directly after the source address. -/
  tci : Option Nat
  /-- Sequence number of the R-TAG. -/
  rtag : Option Nat
  /-- Outer EtherType. -/
  et : Nat
  /-- Base L3: the first byte after the outer EtherType. -/
  l3 : Nat
deriving DecidableEq, Repr

/-- At most one 802.1Q tag, then at most one R-TAG (EtherType 0xF1C1, 6 bytes), then the outer EtherType (R70). -/
def parseTags (b : List Byte) : Tags :=
  let q := fld b 12 2 == 0x8100
  let o := if q then 16 else 12
  let r := fld b o 2 == 0xF1C1
  let p := if r then o + 6 else o
  { tci := if q then some (fld b 14 2) else none
    rtag := if r then some (fld b (o + 4) 2) else none
    et := fld b p 2
    l3 := p + 2 }

/-- IP protocol: the IPv4 protocol field, the IPv6 next header, else 0 (R71). -/
def ipProto (b : List Byte) (t : Tags) : Nat :=
  if t.et = 0x0800 then fld b (t.l3 + 9) 1 else if t.et = 0x86DD then fld b (t.l3 + 6) 1 else 0

/-- A non-first fragment (R76). -/
def isFrag (b : List Byte) (t : Tags) : Bool :=
  (t.et == 0x0800 && fld b (t.l3 + 6) 2 % 8192 != 0)
    || (t.et == 0x86DD && fld b (t.l3 + 6) 1 == 44 && fld b (t.l3 + 42) 2 / 8 != 0)

/-- The lookup header of R99. -/
structure LHdr where
  dmac : Nat
  smac : Nat
  /-- 4, 6, or 0 for no IP. -/
  fam : Nat
  src : Nat
  dst : Nat
  proto : Nat
  ttl : Nat
  sport : Nat
  dport : Nat
  /-- BTH destination QP, for UDP destination port 4791. -/
  qp : Nat
  /-- An IPv4 header of 20 bytes or an IPv6 header: the L4 header follows directly. -/
  plain : Bool
deriving DecidableEq, Repr

/-- The lookup header of a frame whose tags have been read. -/
def lookupHdr (b : List Byte) (t : Tags) : LHdr :=
  let v4 := t.et == 0x0800
  let v6 := t.et == 0x86DD
  let plain := (v4 && fld b t.l3 1 % 16 == 5) || v6
  let l4 := t.l3 + (if v4 then 20 else 40)
  let proto := ipProto b t
  let ports := plain && (proto == 6 || proto == 17)
  let dport := if ports then fld b (l4 + 2) 2 else 0
  { dmac := fld b 0 6
    smac := fld b 6 6
    fam := if v4 then 4 else if v6 then 6 else 0
    src := if v4 then fld b (t.l3 + 12) 4 else if v6 then fld b (t.l3 + 8) 16 else 0
    dst := if v4 then fld b (t.l3 + 16) 4 else if v6 then fld b (t.l3 + 24) 16 else 0
    proto
    ttl := if v4 then fld b (t.l3 + 8) 1 else if v6 then fld b (t.l3 + 7) 1 else 0
    sport := if ports then fld b l4 2 else 0
    dport
    qp := if ports && proto == 17 && dport == 4791 then fld b (l4 + 13) 3 else 0
    plain }

/-- A group destination address. -/
def isGroup (mac : Nat) : Bool := bit mac 40

/-! ### Profile selection and extraction -/

/-- A selection entry matches (R71). -/
def SelEntry.hits (e : SelEntry) (cls et proto : Nat) : Bool :=
  e.valid && ((cls ^^^ e.cls) &&& e.clsMask) == 0 && ((et ^^^ e.et) &&& e.etMask) == 0
    && ((proto ^^^ e.proto) &&& e.protoMask) == 0

/-- The profile number of the lowest matching entry. -/
def PrismBank.pick (k : PrismBank) (cls et proto : Nat) : Option Nat :=
  (k.select.find? (fun e => e.2.hits cls et proto)).map (·.2.profile)

/-- The settings of R525: no fields, no guards, no host key, no fixity key. -/
def Profile.bare : Profile := { Profile.init with valid := true }

/-- The profile a number names in a bank; an invalid one extracts as R525 says. -/
def PrismBank.profile (k : PrismBank) (n : Nat) : Profile :=
  let p := Tab.get Profile.init k.profiles n
  if p.valid then p else Profile.bare

/-- The end of the parse window: byte 128 or the frame's end (R69). -/
def winLen (b : List Byte) : Nat := min 128 b.length

/-- The guard passes; and whether it reached past the window (R76, R78). -/
def Guard.test (g : Guard) (b : List Byte) (l3 : Nat) : Bool × Bool :=
  if g.mask = 0 then (true, false)
  else
    let o := (if g.base = 1 then l3 else 0) + g.off
    if winLen b < o + 4 then (false, true)
    else (((fld b o 4 ^^^ g.value) &&& g.mask) == 0, false)

/-- The value of a field, in wire order, bytes beyond the window reading as 0 (R75, R76). -/
def FieldDesc.value (f : FieldDesc) (b : List Byte) (l3 : Nat) : Nat :=
  let o := (if f.l3 then l3 else 0) + f.off
  let last := (f.bit + f.width - 1) / 8
  fld (b.take 128) o (last + 1) / 2 ^ (8 * (last + 1) - f.bit - f.width) % 2 ^ f.width

/-- The field reaches past the window (R76). -/
def FieldDesc.short (f : FieldDesc) (b : List Byte) (l3 : Nat) : Bool :=
  decide (winLen b ≤ (if f.l3 then l3 else 0) + f.off + (f.bit + f.width - 1) / 8)

/-- What one pass takes from Prism. -/
structure PrismOut where
  key : Nat
  short : Bool
  frag : Bool
  unknown : Bool
  profNo : Nat
  prof : Profile
deriving DecidableEq, Repr

/-- The metadata of a pass (R74). -/
structure PassMeta where
  inPort : Nat
  vid : Nat
  pcp : Nat
  pass : Nat
  rtag : Bool
  tagged : Bool
  md : Nat
  cls : Nat
deriving DecidableEq, Repr

/-- Bits [511:448] of the key (R74). -/
def metaKey (m : PassMeta) (profNo : Nat) (short frag unknown : Bool) : Nat :=
  m.inPort * 2 ^ 502 + m.vid * 2 ^ 490 + m.pcp * 2 ^ 487 + profNo * 2 ^ 481 + m.pass * 2 ^ 479 + b2n short * 2 ^ 478
    + b2n frag * 2 ^ 477 + b2n unknown * 2 ^ 476 + b2n m.rtag * 2 ^ 475 + b2n m.tagged * 2 ^ 474 + m.md * 2 ^ 456
    + m.cls * 2 ^ 452

/-- Selection and extraction of one pass (R71 to R76). -/
def PrismBank.extract (k : PrismBank) (b : List Byte) (t : Tags) (m : PassMeta) : PrismOut :=
  let sel := k.pick m.cls t.et (ipProto (b.take 128) t)
  let no := sel.getD 0
  let p := k.profile no
  let g0 := p.g0.test b t.l3
  let g1 := p.g1.test b t.l3
  let ok := g0.1 && g1.1
  let frag := isFrag (b.take 128) t
  let used := p.fields.filter (fun f => !f.inner || (ok && !frag))
  let short := g0.2 || g1.2 || used.any (fun f => f.short b t.l3)
  let unknown := sel.isNone || !ok
  { key := (used.map (fun f => f.value b t.l3 * 2 ^ f.pos)).sum + metaKey m no short frag unknown
    short, frag, unknown, profNo := no, prof := p }

/-- A rule matches a key (R81). -/
def Rule.hits (r : Rule) (key : Nat) : Bool :=
  r.valid && ((key ^^^ r.value) &&& r.mask) == 0

/-- The lowest matching rule of a slice (R81). -/
def PrismBank.classify (k : PrismBank) (slice key : Nat) : Option (Nat × RuleAct) :=
  (k.rules.find? (fun e => decide (3072 * slice ≤ e.1) && decide (e.1 < 3072 * (slice + 1)) && e.2.hits key)).map
    (fun e => (e.1 - 3072 * slice, e.2.act))

/-- The bank of a classification epoch (R86). -/
def PrismSt.bank (p : PrismSt) (epoch : Nat) : PrismBank := if epoch % 2 = 0 then p.bank0 else p.bank1

/-- Change the bank of a classification epoch. -/
def PrismSt.updBank (p : PrismSt) (epoch : Nat) (f : PrismBank → PrismBank) : PrismSt :=
  if epoch % 2 = 0 then { p with bank0 := f p.bank0 } else { p with bank1 := f p.bank1 }

/-- Class and PCP map of a port in a bank (R83, R92). -/
def PrismBank.port (k : PrismBank) (p : Nat) : PrismPort := Tab.get PrismPort.init k.ports p

end Sys2Proof.Machine
end

