-- ==== Sys2Proof/Machine/Tables.lean ====
section
/-! DEFINITION. The forwarding tables: exact match with its two hash functions, ways, stash and relocation (R95 to R105),
the tables held once per generation (R113), LPM (R118) and ECMP (R119). -/

namespace Sys2Proof.Machine

/-! ### Keys -/

/-- Width of a key type in units (R98). -/
def emWidth (kt : Nat) : Nat :=
  if kt = 0x06 then 4 else if kt = 0x03 ∨ kt = 0x05 ∨ kt = 0x08 ∨ kt = 0x0A then 2 else 1

/-- Listed length of a key type's field (R98); 0: no such type. -/
def emKeyLen (kt : Nat) : Nat :=
  [0, 8, 6, 18, 10, 13, 37, 8, 20, 6, 18, 4].getD kt 0

/-- A 48-byte key field from its listed bytes. -/
def keyField (l : List Byte) : List Byte := padTo 48 l

def keyMac (fid mac : Nat) : List Byte := keyField (le 2 fid ++ be 6 mac)
def keyHost (fam vrf addr : Nat) : List Byte := keyField (le 2 vrf ++ be (if fam = 4 then 4 else 16) addr)
def keyFrer (ident vid mac : Nat) : List Byte := keyField (le 1 ident ++ le 1 0 ++ le 2 vid ++ be 6 mac)
def keyTuple (h : LHdr) : List Byte :=
  let n := if h.fam = 4 then 4 else 16
  keyField (be n h.src ++ be n h.dst ++ le 2 h.sport ++ le 2 h.dport ++ le 1 h.proto)
def keyQp (h : LHdr) : List Byte := keyField (be (if h.fam = 4 then 4 else 16) h.dst ++ le 4 h.qp)
def keyVni (vni : Nat) : List Byte := keyField (le 4 vni)

/-! ### Places -/

/-- First stash position in the table's numbering: position 4 * bucket + way, then the stash slots. -/
def stashBase : Nat := 2097152
/-- One past the last stash position. -/
def stashEnd : Nat := stashBase + 1024

/-- Bucket H0: bits [18:0] of the CRC-32C of seed, key type and key field (R96). -/
def FwdSt.h0 (f : FwdSt) (kt : Nat) (key : List Byte) : Nat :=
  (crc32c (le 4 f.seed0 ++ le 1 kt ++ key)).toNat % 524288
/-- Bucket H1: bits [18:0] of the IEEE CRC-32 over the same items with its own seed (R96). -/
def FwdSt.h1 (f : FwdSt) (kt : Nat) (key : List Byte) : Nat :=
  (crc32 (le 4 f.seed1 ++ le 1 kt ++ key)).toNat % 524288

/-- The entry whose units cover a position, with its own position. -/
def emAt (t : Tab EmEntry) (p : Nat) : Option (Nat × EmEntry) :=
  ([p, p - p % 2, p - p % 4].filterMap (fun q =>
    (Tab.find t q).bind (fun e => if p < q + emWidth e.ktype then some (q, e) else none))).head?

/-- The `w` positions from `p` are free. -/
def emFree (t : Tab EmEntry) (p w : Nat) : Bool :=
  (List.range w).all (fun i => (emAt t (p + i)).isNone)

/-- The lowest free aligned ways of a bucket for an entry of width `w`. -/
def freeWays (t : Tab EmEntry) (bucket w : Nat) : Option Nat :=
  (((List.range 4).filter (fun i => i % w == 0)).map (4 * bucket + ·)).find? (fun p => emFree t p w)

/-- The lowest free aligned stash slots (R97). -/
def freeStash (t : Tab EmEntry) (w : Nat) : Option Nat :=
  (((List.range 1024).filter (fun i => i % w == 0)).map (stashBase + ·)).find? (fun p => emFree t p w)

/-- The entry is visible in generation `g` (R101, R108). -/
def EmEntry.sees (e : EmEntry) (g : Nat) : Bool := bit e.vis g

/-- The entry matches a key in generation `g`. -/
def EmEntry.hits (e : EmEntry) (kt : Nat) (key : List Byte) (g : Nat) : Bool :=
  e.ktype == kt && e.key == key && e.sees g

/-- Positions a lookup reads, in its order: H0, H1, the stash (R97). -/
def FwdSt.candidates (f : FwdSt) (kt : Nat) (key : List Byte) : List Nat :=
  (List.range 4).map (4 * f.h0 kt key + ·) ++ (List.range 4).map (4 * f.h1 kt key + ·)
    ++ ((f.em.filter (fun e => decide (stashBase ≤ e.1))).map (·.1))

/-- Positions of entries with bad parity that a lookup reads (R126). -/
def FwdSt.badRead (f : FwdSt) (kt : Nat) (key : List Byte) : List Nat :=
  (f.candidates kt key).filter (fun p => ((Tab.find f.em p).map (·.bad)).getD false)

/-- The lookup of a key in generation `g`: the first matching entry in R97's order; bad parity counts as absent. -/
def FwdSt.lookup (f : FwdSt) (kt : Nat) (key : List Byte) (g : Nat) : Option (Nat × EmEntry) :=
  ((f.candidates kt key).filterMap (fun p => (Tab.find f.em p).bind (fun e =>
    if e.hits kt key g && !e.bad then some (p, e) else none))).head?

/-! ### Inserting and relocating (R103 to R105) -/

/-- The other candidate bucket of an entry in bucket `b`; none if it has one candidate only or lies in the stash. -/
def FwdSt.otherBucket (f : FwdSt) (e : EmEntry) (b : Nat) : Option Nat :=
  let x := f.h0 e.ktype e.key
  let y := f.h1 e.ktype e.key
  if b = x ∧ y ≠ x then some y else if b = y ∧ y ≠ x then some x else none

/-- Free ways of a bucket none of which is locked by the path being built. -/
def freeUnlocked (t : Tab EmEntry) (bucket w : Nat) (locked : List Nat) : Option Nat :=
  (((List.range 4).filter (fun i => i % w == 0)).map (4 * bucket + ·)).find? (fun p =>
    emFree t p w && (List.range w).all (fun i => !locked.contains (p + i)))

/-- Room found for an entry: the table with the moves made, the place, positions in use by the path, moves left. -/
structure Room where
  t : Tab EmEntry
  place : Nat
  locked : List Nat
  left : Nat

/-- The entries that cover `w` positions from `p`. -/
def occupants (t : Tab EmEntry) (p w : Nat) : List (Nat × EmEntry) :=
  (((List.range w).filterMap (fun i => emAt t (p + i))).map (·.1)).eraseDups.filterMap
    (fun q => (Tab.find t q).map (q, ·))

/-- Move an entry (R105): its contents unchanged, HIT and STALE carried. -/
def emMove (t : Tab EmEntry) (src dst : Nat) (e : EmEntry) : Tab EmEntry :=
  Tab.insert dst e (Tab.erase src t)

/-- Free ways in a bucket for width `w`, moving entries where needed: at most `fuel` levels deep and `left` moves in
all (R103). -/
def makeRoom (f : FwdSt) : Nat → Tab EmEntry → Nat → Nat → List Nat → Nat → Option Room
  | 0, t, b, w, locked, left =>
    (freeUnlocked t b w locked).map (fun p => ⟨t, p, (List.range w).map (p + ·) ++ locked, left⟩)
  | fuel + 1, t, b, w, locked, left =>
    match freeUnlocked t b w locked with
    | some p => some ⟨t, p, (List.range w).map (p + ·) ++ locked, left⟩
    | none =>
      ((((List.range 4).filter (fun i => i % w == 0)).map (4 * b + ·)).filterMap (fun p =>
        if (List.range w).any (fun i => locked.contains (p + i)) then none
        else
          ((occupants t p w).foldl (fun (acc : Option Room) qe =>
            acc.bind (fun r =>
              if r.left = 0 then none
              else (f.otherBucket qe.2 (qe.1 / 4)).bind (fun b' =>
                (makeRoom f fuel r.t b' (emWidth qe.2.ktype) r.locked (r.left - 1)).map (fun m =>
                  { m with t := emMove m.t qe.1 m.place qe.2 }))))
            (some ⟨t, p, (List.range w).map (p + ·) ++ locked, left⟩)).map (fun r => { r with place := p }))).head?

/-- Room in either candidate bucket with at most `n` moves. -/
def FwdSt.roomWithin (f : FwdSt) (e : EmEntry) (n : Nat) : Option Room :=
  match makeRoom f n f.em (f.h0 e.ktype e.key) (emWidth e.ktype) [] n with
  | some r => some r
  | none => makeRoom f n f.em (f.h1 e.ktype e.key) (emWidth e.ktype) [] n

/-- The result of an insert: the table, the place and the moves made. -/
structure Placed where
  t : Tab EmEntry
  place : Nat
  moves : Nat

/-- Place a new entry (R103): free ways, else the shortest relocation of at most 8 moves, else the stash. -/
def FwdSt.place (f : FwdSt) (e : EmEntry) : Option Placed :=
  match ((List.range 9).filterMap (fun n => (f.roomWithin e n).map (fun r => (n, r)))).head? with
  | some (n, r) => some ⟨Tab.insert r.place e r.t, r.place, n - r.left⟩
  | none => (freeStash f.em (emWidth e.ktype)).map (fun p => ⟨Tab.insert p e f.em, p, 0⟩)

/-- Insert an entry and count RELOCATIONS, STASH_INSERTS or INSERT_FAILS (R129). -/
def FwdSt.insertEntry (f : FwdSt) (e : EmEntry) : Option (FwdSt × Placed) :=
  (f.place e).map (fun p =>
    ({ f with em := p.t
              ctr := Tab.bump (Tab.bump f.ctr 11 p.moves) 12 (if stashBase ≤ p.place then 1 else 0) }, p))

/-- Change the entry at a position. -/
def FwdSt.updEntry (f : FwdSt) (p : Nat) (g : EmEntry → EmEntry) : FwdSt :=
  { f with em := f.em.map (fun x => if x.1 = p then (x.1, g x.2) else x) }

/-- Move one stash entry into free ways of its candidate buckets (R107). -/
def FwdSt.drainOne (f : FwdSt) (p : Nat) (e : EmEntry) : FwdSt :=
  match freeWays f.em (f.h0 e.ktype e.key) (emWidth e.ktype) with
  | some q => { f with em := emMove f.em p q e, ctr := Tab.bump f.ctr 11 1 }
  | none => match freeWays f.em (f.h1 e.ktype e.key) (emWidth e.ktype) with
    | some q => { f with em := emMove f.em p q e, ctr := Tab.bump f.ctr 11 1 }
    | none => f

/-- After a delete, the stash entries are tried in slot order (R107). -/
def FwdSt.drainStash (f : FwdSt) : FwdSt :=
  (f.em.filter (fun x => decide (stashBase ≤ x.1))).foldl (fun g x => g.drainOne x.1 x.2) f

/-- Learned count of a port changed by one (R122, R123). -/
def FwdSt.learnedAdd (f : FwdSt) (port : Nat) (n : Int) : FwdSt :=
  { f with learnedOn := Tab.upd 0 f.learnedOn port (fun c => ((c : Int) + n).toNat) }

/-- Remove the entry at a position, giving back its learned count; the stash is not drained here. -/
def FwdSt.removeAt (f : FwdSt) (p : Nat) : FwdSt :=
  match Tab.find f.em p with
  | none => f
  | some e =>
    let g := { f with em := Tab.erase p f.em }
    if e.learned then g.learnedAdd e.owner (-1) else g

/-! ### The data word of a MAC or host entry (R102) -/

/-- Fields of the data word. -/
structure EmData where
  kind : Nat
  dest : Nat
  target : Nat
  targetValid : Bool
  frer : Nat
  frerValid : Bool
deriving DecidableEq, Repr

/-- Read a data word. -/
def emData (w : BitVec 64) : EmData :=
  { kind := bits w.toNat 63 61, dest := bits w.toNat 60 44, target := bits w.toNat 43 28, targetValid := bit w.toNat 27,
    frer := bits w.toNat 26 11, frerValid := bit w.toNat 10 }

/-- The data word of a kind and destination, every other field 0. -/
def emWord (kind dest : Nat) : BitVec 64 := BitVec.ofNat 64 (kind * 2 ^ 61 + dest * 2 ^ 44)

/-- The index in bits [63:48] of the other key types (R102). -/
def emIndex (w : BitVec 64) : Nat := bits w.toNat 63 48

/-- A data word of a MAC or host entry, or of a prefix, within its ranges (R102). -/
def emDataOk (w : BitVec 64) : Bool :=
  let d := emData w
  bits w.toNat 9 0 == 0 && (match d.kind with
    | 0 => d.dest == 0
    | 1 => decide (d.dest ≤ 547)
    | 2 => decide (d.dest ≤ 131071)
    | 3 => decide (d.dest ≤ 65535)
    | 4 => decide (d.dest ≤ 3)
    | _ => false)

/-- A data word of any key type within the ranges of R102; bits that belong to other chapters are checked there. -/
def emWordOk (kt : Nat) (w : BitVec 64) : Bool :=
  if kt ≤ 3 then emDataOk w
  else if kt = 0x0B then bits w.toNat 63 62 == 0 && bits w.toNat 47 0 == 0
  else true

/-- A key field within the ranges of R98: bytes beyond the listed length 0, FID and VRF in range. -/
def emKeyOk (kt : Nat) (key : List Byte) : Bool :=
  decide (1 ≤ kt) && decide (kt ≤ 11) && allZero (key.drop (emKeyLen kt)) && (match kt with
    | 1 => decide (rd key 0 2 ≤ 16383)
    | 2 | 3 | 9 | 10 => decide (rd key 0 2 ≤ 255)
    | 4 => decide (rd key 0 1 ≤ 1) && rd key 1 1 == 0 && decide (rd key 2 2 ≤ 4095)
    | 7 => rd key 7 1 == 0
    | 8 => rd key 19 1 == 0
    | 11 => rd key 3 1 == 0
    | _ => true)

/-! ### Generation copies -/

/-- The copy of a generation (R113). -/
def FwdSt.tables (f : FwdSt) (g : Nat) : GenTables := if g % 2 = 0 then f.gen0 else f.gen1
/-- Change the copy of one generation. -/
def FwdSt.updGen (f : FwdSt) (g : Nat) (h : GenTables → GenTables) : FwdSt :=
  if g % 2 = 0 then { f with gen0 := h f.gen0 } else { f with gen1 := h f.gen1 }
/-- Change both copies. -/
def FwdSt.updBoth (f : FwdSt) (h : GenTables → GenTables) : FwdSt := { f with gen0 := h f.gen0, gen1 := h f.gen1 }

/-- The staged set that is ARMED, whose writes have been prepared (R407, R409). -/
def BakeSt.armed (b : BakeSt) : Option SetSt := b.sets.find? (fun t => t.state == .armed)

/-- An armed set also writes this item (R88, R111). -/
def BakeSt.writes (b : BakeSt) (op : Nat) (p : List Byte) : Bool :=
  match b.armed with
  | none => false
  | some t => t.cmds.any (fun c => itemKey c.op c.payload == itemKey op p)

/-- A live change of a table held once per generation: both copies, or the current one alone where an armed set also
writes the item (R111, R113). -/
def State.liveGen (s : State) (op : Nat) (p : List Byte) (h : GenTables → GenTables) : State :=
  if s.bake.writes op p then { s with fwd := s.fwd.updGen s.fwd.gen h } else { s with fwd := s.fwd.updBoth h }

def GenTables.vlanAt (g : GenTables) (v : Nat) : Vlan := Tab.get Vlan.init g.vlan v
def GenTables.hopAt (g : GenTables) (n : Nat) : NextHop := Tab.get NextHop.init g.nexthop n
def GenTables.groupAt (g : GenTables) (n : Nat) : List Nat := Tab.get [] g.ecmp n
def GenTables.tmplAt (g : GenTables) (n : Nat) : Template := Tab.get Template.init g.templates n
def GenTables.routerAt (g : GenTables) (n : Nat) : RouterMac := Tab.get RouterMac.init g.routers n
def GenTables.vtepAt (g : GenTables) (n : Nat) : Vtep := Tab.get Vtep.init g.vteps n
def GenTables.frerAt (g : GenTables) (n : Nat) : FrerCfg := Tab.get FrerCfg.init g.frer n

/-- An address matches a prefix of its family (R118); the prefix holds its address left-justified in 128 bits. -/
def Prefix.hits (p : Prefix) (fam vrf addr : Nat) : Bool :=
  let a := if fam = 4 then addr * 2 ^ 96 else addr
  p.fam == fam && p.vrf == vrf && a / 2 ^ (128 - p.plen) == p.addr / 2 ^ (128 - p.plen)

/-- The longer of two prefixes. -/
def longer (a : Option Prefix) (p : Prefix) : Option Prefix :=
  match a with
  | some q => if q.plen < p.plen then some p else some q
  | none => some p

/-- The longest matching prefix (R118). -/
def GenTables.lpmLookup (g : GenTables) (fam vrf addr : Nat) : Option Prefix :=
  (g.lpm.filter (fun p => p.hits fam vrf addr)).foldl longer none

/-- The same prefix. -/
def Prefix.same (p : Prefix) (fam vrf plen addr : Nat) : Bool :=
  p.fam == fam && p.vrf == vrf && p.plen == plen && p.addr == addr

/-- The hash input of H2: VRF, addresses, protocol and L4 ports of an IP frame; FID and MAC addresses of another
(R119; order and widths: log entry 99). -/
def h2Input (h : LHdr) (vrf fid : Nat) : List Byte :=
  if h.fam = 0 then le 2 fid ++ be 6 h.dmac ++ be 6 h.smac
  else
    let n := if h.fam = 4 then 4 else 16
    le 2 vrf ++ be n h.src ++ be n h.dst ++ le 1 h.proto ++ le 2 h.sport ++ le 2 h.dport

/-- H2: the CRC-32C under its own seed, which goes first (R119; log entry 99). -/
def FwdSt.h2 (f : FwdSt) (h : LHdr) (vrf fid : Nat) : Nat := (crc32c (le 4 f.seed2 ++ h2Input h vrf fid)).toNat

/-- The entry of a table that has no shadow of its own was found with bad parity (R127). -/
def FwdSt.badAt (f : FwdSt) (table idx : Nat) : Bool := f.badTable.any (fun x => x.1 == table && x.2.1 == idx)

/-- The template adds an outer header to this address, of 4 bytes for IPv4 (kind 1) and 16 for IPv6 (kind 2). -/
def Template.leadsTo (t : Template) (addr : List Byte) : Bool :=
  t.kind == (if addr.length = 4 then 1 else 2) && t.dst.take addr.length == addr

/-- The remote VTEP map (R120): the lowest-numbered next hop of kind 3 whose template of kind 1 or 2 has the address as
its outer destination and whose egress VLAN belongs to the VRF; a VLAN never written has VRF 0 (log entry 114). -/
def GenTables.remoteVtep (g : GenTables) (vrf : Nat) (addr : List Byte) : Option Nat :=
  (g.nexthop.find? (fun e => e.2.kind == 3
    && (g.tmplAt e.2.tmpl).leadsTo addr && (g.vlanAt e.2.vlan).vrf == vrf)).map (·.1)

end Sys2Proof.Machine
end

