-- ==== Sys2Proof/Machine/Edit.lean ====
section
/-! DEFINITION. Edits of a frame's bytes: tags and R-TAG (R51, R52), the L3 rewrite (R117), the CE mark (R146), checksums,
outer IP headers, edit templates (R121) and the termination of a VXLAN frame (R120). All functions are pure. -/

namespace Sys2Proof.Machine

/-- Bytes replaced from offset `o`. -/
def putAt (b : List Byte) (o : Nat) (v : List Byte) : List Byte := b.take o ++ v ++ b.drop (o + v.length)

/-- A sum folded to 16 bits, one's complement. -/
def fold16 (n : Nat) : Nat :=
  let a := n % 65536 + n / 65536
  let c := a % 65536 + a / 65536
  c % 65536 + c / 65536

/-- The 16-bit words of a byte string summed, network order, an odd last byte padded with 0. -/
def sum16 : List Byte → Nat
  | [] => 0
  | [a] => 256 * a.toNat
  | a :: b :: r => 256 * a.toNat + b.toNat + sum16 r

/-- The Internet checksum of a byte string. -/
def inetSum (b : List Byte) : Nat := 65535 - fold16 (sum16 b)

/-- A checksum updated incrementally for one changed word (RFC 1624). -/
def sumUpdate (hc old new : Nat) : Nat := 65535 - fold16 (65535 - hc + (65535 - old) + new)

/-- Change the 16-bit word at offset `at` of an IPv4 header at `l3`, with its header checksum. -/
def patchV4 (b : List Byte) (l3 off : Nat) (new : Nat) : List Byte :=
  let old := fld b (l3 + off) 2
  putAt (putAt b (l3 + off) (be 2 new)) (l3 + 10) (be 2 (sumUpdate (fld b (l3 + 10) 2) old new))

/-- The TTL or hop limit decremented, as an 8-bit field: 0 becomes 255 (R117; log entry 100). -/
def decTtl (b : List Byte) : List Byte :=
  let t := parseTags b
  if t.et = 0x0800 then patchV4 b t.l3 8 ((fld b (t.l3 + 8) 2 + 65280) % 65536)
  else if t.et = 0x86DD then putAt b (t.l3 + 7) (be 1 (fld b (t.l3 + 7) 1 + 255))
  else b

/-- The CE mark on the outermost IP header (R146). -/
def setCe (b : List Byte) : List Byte :=
  let t := parseTags b
  if t.et = 0x0800 then patchV4 b t.l3 0 (fld b t.l3 2 ||| 3)
  else if t.et = 0x86DD then putAt b (t.l3 + 1) (be 1 (fld b (t.l3 + 1) 1 ||| 0x30))
  else b

/-- The ECN field of the outermost IP header; none for a frame that is not IP. -/
def ecnOf (b : List Byte) : Option Nat :=
  let t := parseTags b
  if t.et = 0x0800 then some (fld b (t.l3 + 1) 1 % 4)
  else if t.et = 0x86DD then some (fld b (t.l3 + 1) 1 / 16 % 4)
  else none

/-- DSCP of the outermost IP header; none for a frame that is not IP. -/
def dscpOf (b : List Byte) : Option Nat :=
  let t := parseTags b
  if t.et = 0x0800 then some (fld b (t.l3 + 1) 1 / 4)
  else if t.et = 0x86DD then some (fld b t.l3 2 / 64 % 64)
  else none

/-- Destination and source address replaced. -/
def setMacs (b : List Byte) (dmac smac : Nat) : List Byte := be 6 dmac ++ be 6 smac ++ b.drop 12

/-- The bytes of the R-TAG as it stands. -/
def rtagBytes (b : List Byte) : List Byte :=
  let t := parseTags b
  match t.rtag with
  | some _ => slice b (t.l3 - 8) 6
  | none => []

/-- An R-TAG with a sequence number (R52). -/
def newRtag (n : Nat) : List Byte := be 2 0xF1C1 ++ be 2 0 ++ be 2 n

/-- An 802.1Q tag. -/
def newTag (tci : Nat) : List Byte := be 2 0x8100 ++ be 2 tci

/-- The frame with its tags replaced: addresses, 802.1Q tag, R-TAG, then everything from the outer EtherType on (R52). -/
def retag (b tag rtag : List Byte) : List Byte := b.take 12 ++ tag ++ rtag ++ b.drop ((parseTags b).l3 - 2)

/-- A frame shorter than 64 bytes with its FCS padded with zero bytes (R44). -/
def padFrame (b : List Byte) : List Byte := b ++ List.replicate (60 - b.length) 0

/-! ### Outer headers -/

/-- An IPv4 header without options. -/
def ipv4Hdr (tos id flags ttl proto : Nat) (src dst : List Byte) (len : Nat) : List Byte :=
  let h := be 1 0x45 ++ be 1 tos ++ be 2 (20 + len) ++ be 2 id ++ be 2 flags ++ be 1 ttl ++ be 1 proto ++ be 2 0
    ++ padTo 4 src ++ padTo 4 dst
  putAt h 10 (be 2 (inetSum h))

/-- An IPv6 header without extension headers. -/
def ipv6Hdr (tc flow hop next : Nat) (src dst : List Byte) (len : Nat) : List Byte :=
  be 4 (6 * 2 ^ 28 + tc % 256 * 2 ^ 20 + flow % 2 ^ 20) ++ be 2 len ++ be 1 next ++ be 1 hop ++ padTo 16 src
    ++ padTo 16 dst

/-- A UDP header and its payload, checksum 0. -/
def udpPlain (sport dport : Nat) (body : List Byte) : List Byte :=
  be 2 sport ++ be 2 dport ++ be 2 (8 + body.length) ++ be 2 0 ++ body

/-- The UDP checksum over IPv6, 0 sent as all ones. -/
def udp6Sum (src dst seg : List Byte) : Nat :=
  let c := inetSum (padTo 16 src ++ padTo 16 dst ++ be 4 seg.length ++ be 4 17 ++ seg)
  if c = 0 then 0xFFFF else c

/-- A UDP datagram over IPv6 with its checksum. -/
def udpOver6 (src dst : List Byte) (sport dport : Nat) (body : List Byte) : List Byte :=
  let seg := udpPlain sport dport body
  putAt seg 6 (be 2 (udp6Sum src dst seg))

/-- A VXLAN header. -/
def vxlanHdr (vni : Nat) : List Byte := be 1 8 ++ be 3 0 ++ be 3 vni ++ be 1 0

/-- A template's outer DSCP: fixed, or the inner one; a free value for an inner frame that is not IP. -/
def Template.outDscp (t : Template) (inner : List Byte) (free : Nat) : Nat :=
  if t.dscpFixed then t.dscp else (dscpOf inner).getD (free % 64)

/-- A template applied to a frame (R121). `f i` is the i-th free value drawn: outer addresses and what the rule leaves
unstated (IP identification, DF, ECN and flow label of the outer header); `h2` is H2 over the inner frame. -/
def Template.apply (t : Template) (b : List Byte) (h2 : Nat) (f : Nat → Nat) : List Byte :=
  let body := vxlanHdr t.vni ++ b
  let sport := 49152 + h2 % 2 ^ 14
  let tc := 4 * t.outDscp b (f 1) + f 2 % 4
  match t.kind with
  | 1 => be 12 (f 0) ++ be 2 0x0800
      ++ ipv4Hdr tc (f 3 % 2 ^ 16) (f 4 % 2 * 2 ^ 14) t.ttl 17 t.src t.dst (8 + body.length) ++ udpPlain sport 4789 body
  | 2 => be 12 (f 0) ++ be 2 0x86DD ++ ipv6Hdr tc (f 3) t.ttl 17 t.src t.dst (8 + body.length)
      ++ udpOver6 t.src t.dst sport 4789 body
  | 3 => let o := (parseTags b).l3 - 14
      b.take o ++ t.raw.take t.rawLen ++ b.drop o
  | _ => b

/-- Free values that an application of a template draws. -/
def tmplDraws : Nat := 5

/-- Outer bytes of a VXLAN frame (R120): 50 over IPv4, 70 over IPv6. -/
def vxlanOuterLen (b : List Byte) : Nat :=
  let t := parseTags b
  if t.et = 0x0800 then t.l3 + 36 else t.l3 + 56

/-- The inner frame of a terminated VXLAN frame. -/
def vxlanInner (b : List Byte) : List Byte := b.drop (vxlanOuterLen b)

/-- The VNI of a VXLAN frame. -/
def vxlanVni (b : List Byte) : Nat := fld b (vxlanOuterLen b - 4) 3

end Sys2Proof.Machine
end

