-- ==== Sys2Proof/Machine/Prism.lean ====
section
/-! DEFINITION. The Prism commands: profiles, selection, ports, rules, banks and counters (R77 to R94). -/

namespace Sys2Proof.Machine

/-! ### Records -/

/-- A guard of a profile record (R78). -/
def guardOf (p : List Byte) (o : Nat) : Guard :=
  { base := rd p o 1, off := rd p (o + 1) 1, value := rd p (o + 4) 4, mask := rd p (o + 8) 4 }

/-- The field descriptor at an offset (R79). -/
def fieldOf (p : List Byte) (o : Nat) : FieldDesc :=
  { l3 := bit (rd p o 1) 0, inner := bit (rd p o 1) 1, off := rd p (o + 1) 1, bit := rd p (o + 2) 1,
    width := rd p (o + 3) 1, pos := rd p (o + 4) 2 }

/-- The profile of a record (R78). -/
def profileOf (p : List Byte) : Profile :=
  { valid := bit (rd p 1 1) 0, hostKey := rd p 3 1, fixKey := rd p 4 1, payOff := rd p 6 2, trailer := rd p 8 2,
    g0 := guardOf p 12, g1 := guardOf p 24,
    fields := (List.range (rd p 2 1)).map (fun i => fieldOf p (36 + 8 * i)) }

/-- Limits of a guard (R78); base and offset of one with mask 0, which is unused, are not tested (R523). -/
def guardOk (p : List Byte) (o : Nat) : Bool :=
  let g := guardOf p o
  resv p (o + 2) 2 && (g.value ||| g.mask) == g.mask && (g.mask == 0 || (decide (g.base ≤ 1) && decide (g.off ≤ 124)))

/-- Limits of a field descriptor (R79, R80). -/
def fieldOk (p : List Byte) (o : Nat) : Bool :=
  let f := fieldOf p o
  decide (rd p o 1 ≤ 3) && decide (f.off ≤ 127) && decide (f.bit ≤ 7) && decide (1 ≤ f.width) && decide (f.width ≤ 128)
    && decide (f.pos + f.width ≤ 448) && resv p (o + 6) 2 && decide (f.off + (f.bit + f.width - 1) / 8 ≤ 127)

/-- Two fields overlap in the key. -/
def FieldDesc.overlaps (f g : FieldDesc) : Bool :=
  decide (f.pos < g.pos + g.width) && decide (g.pos < f.pos + f.width)

/-- Some two fields overlap. -/
def overlapping : List FieldDesc → Bool
  | [] => false
  | f :: l => l.any f.overlaps || overlapping l

/-- The limits of a valid profile record: payload offset and trailer only with a fixity key (R78 to R80, R523). -/
def profileUsed (p : List Byte) : Bool :=
  decide (rd p 2 1 ≤ 24) && [0, 2, 3, 0xFF].contains (rd p 3 1) && decide (rd p 4 1 ≤ 2)
    && (rd p 4 1 == 0 || (decide (rd p 6 2 ≤ 9190) && decide (rd p 8 2 ≤ 64))) && guardOk p 12 && guardOk p 24
    && (List.range 24).all (fun i => if i < rd p 2 1 then fieldOk p (36 + 8 * i) else resv p (36 + 8 * i) 8)
    && !overlapping (profileOf p).fields

/-- A profile record within the limits of R78 to R80; of one with the valid bit clear only the number, the flags and the
reserved bytes are tested (R523; log entry 16). -/
def profileOk (p : List Byte) : Bool :=
  decide (rd p 0 1 ≤ 63) && decide (rd p 1 1 ≤ 1) && resv p 5 1 && resv p 10 2 && resv p 14 2 && resv p 26 2
    && (rd p 1 1 == 0 || profileUsed p)

/-- The selection entry of a request (R92). -/
def selOf (p : List Byte) : SelEntry :=
  { valid := bit (rd p 1 1) 0, cls := rd p 2 1, clsMask := rd p 3 1, et := rd p 4 2, etMask := rd p 6 2,
    proto := rd p 8 1, protoMask := rd p 9 1, profile := rd p 10 1 }

/-- A selection entry within its limits; the fields of an entry not valid are not tested (R92, R523). -/
def selOk (p : List Byte) : Bool :=
  decide (rd p 0 1 ≤ 127) && decide (rd p 1 1 ≤ 1) && resv p 11 5
    && (rd p 1 1 == 0 || (decide (rd p 2 1 ≤ 15) && decide (rd p 3 1 ≤ 15) && decide (rd p 10 1 ≤ 63)))

/-- Port class and PCP map of a request (R92). -/
def prismPortOf (p : List Byte) : PrismPort :=
  { cls := rd p 2 1, map := (List.range 8).map (fun i => rd p (4 + i) 1) }

def prismPortOk (p : List Byte) : Bool :=
  decide (rd p 0 2 ≤ 531) && decide (rd p 2 1 ≤ 15) && resv p 3 1
    && (List.range 8).all (fun i => decide (rd p (4 + i) 1 ≤ 7))

/-- The action at an offset (R82). -/
def actionOf (p : List Byte) (o : Nat) : RuleAct :=
  { op := rd p o 1, flags := rd p (o + 1) 1, tc := rd p (o + 2) 1, slot := rd p (o + 3) 1, pol := rd p (o + 4) 4,
    mir := rd p (o + 8) 1, host := rd p (o + 9) 1, md := rd p (o + 10) 2, tmpl := rd p (o + 12) 2 }

/-- The bytes of an action. -/
def RuleAct.bytes (a : RuleAct) : List Byte :=
  le 1 a.op ++ le 1 a.flags ++ le 1 a.tc ++ le 1 a.slot ++ le 4 a.pol ++ le 1 a.mir ++ le 1 a.host ++ le 2 a.md
    ++ le 2 a.tmpl ++ le 2 0

/-- The rule of a request (R92). -/
def ruleOf (p : List Byte) : Rule :=
  { valid := bit (rd p 4 1) 0, value := rd p 8 64, mask := rd p 72 64, act := actionOf p 136 }

/-- The limits of R82, but for the policer index and what is reserved. -/
def actionOk (a : RuleAct) : Bool :=
  decide (a.op ≤ 4) && (!bit a.flags 0 || decide (a.tc ≤ 7))
    && (!bit a.flags 1 || decide (a.slot ≤ 7)) && (!bit a.flags 3 || decide (a.mir ≤ 63))
    && (!(a.op == 2 || a.op == 3) || decide (a.host ≤ 3)) && (a.op != 4 || decide (a.tmpl ≤ 4095))

/-- The limits of R81, R82 and R212 on a rule; the details and their order: log entry 96. The fields of a rule with the
valid bit clear are not tested (R84, R523). -/
def checkPrismWriteRule (p : List Byte) (_ : State) : Option (Nat × Nat) :=
  let u := ruleOf p
  firstOf [need 0x0302 (decide (rd p 2 2 ≤ 3071) && decide (rd p 4 1 ≤ 1) && resv p 5 3
      && (!u.valid || (u.value ||| u.mask) == u.mask)),
    need 0x0704 (!u.valid || !bit u.act.flags 2 || decide (u.act.pol ≤ 131071)),
    need 0x0302 (decide (u.act.flags < 32) && resv p 150 2 && (!u.valid || actionOk u.act))]

/-! ### Writes into a bank -/

def PrismBank.putProfile (k : PrismBank) (p : List Byte) : PrismBank :=
  { k with profiles := Tab.set Profile.init k.profiles (rd p 0 1) (profileOf p) }
def PrismBank.putSelect (k : PrismBank) (p : List Byte) : PrismBank :=
  { k with select := Tab.set SelEntry.init k.select (rd p 0 1) (selOf p) }
def PrismBank.putPort (k : PrismBank) (p : List Byte) : PrismBank :=
  { k with ports := Tab.set PrismPort.init k.ports (rd p 0 2) (prismPortOf p) }

/-- A rule written over another: with the valid bit clear only the valid bit changes (R84; a staged write too: log entry 99). -/
def Rule.over (new old : Rule) : Rule := if new.valid then new else { old with valid := false }

/-- One rule of one slice. -/
def PrismBank.putRule1 (k : PrismBank) (slice idx : Nat) (u : Rule) : PrismBank :=
  { k with rules := Tab.upd Rule.init k.rules (3072 * slice + idx) u.over }

/-- A rule write in every slice of its mask (R84). -/
def PrismBank.putRule (k : PrismBank) (p : List Byte) : PrismBank :=
  (bitList 16 (rd p 0 2)).foldl (fun k sl => k.putRule1 sl (rd p 2 2) (ruleOf p)) k

/-- A staged Prism write put into a bank (R86 step 3). -/
def PrismBank.putStaged (k : PrismBank) (c : StagedCmd) : PrismBank :=
  match c.op with
  | 0x0301 => k.putProfile c.payload
  | 0x0302 => k.putSelect c.payload
  | 0x0303 => k.putPort c.payload
  | 0x0304 => k.putRule c.payload
  | _ => k

/-- A staged command of opcodes 0x0301 to 0x0304 (R86). -/
def prismWrite (c : StagedCmd) : Bool := decide (0x0301 ≤ c.op) && decide (c.op ≤ 0x0304)

/-- The set being prepared or armed. -/
def BakeSt.inBake (b : BakeSt) : Option SetSt := b.sets.find? (fun t => t.state == .preparing || t.state == .armed)

/-- The set being prepared also writes this port's Prism settings (R86). -/
def BakeSt.writesPrismPort (b : BakeSt) (port : Nat) : Bool :=
  match b.inBake with
  | none => false
  | some t => t.cmds.any (fun c => c.op == 0x0303 && rd c.payload 0 2 == port)

/-- The set being prepared also writes this rule index of this slice (R88). -/
def BakeSt.writesRule (b : BakeSt) (slice idx : Nat) : Bool :=
  match b.inBake with
  | none => false
  | some t => t.cmds.any (fun c => c.op == 0x0304 && rd c.payload 2 2 == idx && bit (rd c.payload 0 2) slice)

/-- A live rule write in one slice: the current bank, and the loaded one too (R84, R88); the counters of a parked slice
stay 0 (R496). -/
def State.liveRule1 (s : State) (idx : Nat) (u : Rule) (slice : Nat) : State :=
  let a := s.prism.updBank s.prism.epoch (fun k => k.putRule1 slice idx u)
  let b := if s.prism.loaded && !s.bake.writesRule slice idx then
    a.updBank (s.prism.epoch + 1) (fun k => k.putRule1 slice idx u) else a
  ({ s with prism := b }).bumpPrism slice 11 (b2n (!s.sliceParked slice))

def applyPrismWriteRule (p : List Byte) (s : State) : State :=
  (bitList 16 (rd p 0 2)).foldl (fun s sl => s.liveRule1 (rd p 2 2) (ruleOf p) sl) s

def checkPrismSetProfile (p : List Byte) (_ : State) : Option (Nat × Nat) := need 0x0301 (profileOk p)
def checkPrismSetSelect (p : List Byte) (_ : State) : Option (Nat × Nat) := need 0x0301 (selOk p)
def checkPrismSetPort (p : List Byte) (_ : State) : Option (Nat × Nat) := need 0x0303 (prismPortOk p)

/-- A live PRISM_SET_PORT: both banks, or the current one alone where the set being prepared writes the port (R86). -/
def applyPrismSetPort (p : List Byte) (s : State) : State :=
  let a := s.prism.updBank s.prism.epoch (fun k => k.putPort p)
  { s with prism := if s.bake.writesPrismPort (rd p 0 2) then a
      else a.updBank (s.prism.epoch + 1) (fun k => k.putPort p) }

/-- PRISM_SET_PROFILE and PRISM_SET_SELECT come staged only (R77): applied to the bank that a bake makes current. -/
def prismSetProfileBody : Body := setCmd 0x0301 checkPrismSetProfile (fun _ s => s)
def prismSetSelectBody : Body := setCmd 0x0302 checkPrismSetSelect (fun _ s => s)
def prismSetPortBody : Body := setCmd 0x0303 checkPrismSetPort applyPrismSetPort
def prismWriteRuleBody : Body := setCmd 0x0304 checkPrismWriteRule applyPrismWriteRule

/-- BAD_ARG with detail NONE: the refusal of a read whose arguments name nothing. -/
def badArg : Resp := Resp.err stBadArg dNone

/-- Answer if a condition on the arguments holds, else BAD_ARG. -/
def answerIf (b : Bool) (x : Resp) : Resp := if b then x else badArg

/-- PRISM_READ_RULE: bank 0 current, 1 the other as it stands. -/
def prismReadRuleBody : Body := readCmd (fun r s =>
  let p := r.payload
  let u := Tab.get Rule.init (s.prism.bank (s.prism.epoch + rd p 1 1)).rules (3072 * rd p 0 1 + rd p 2 2)
  answerIf (decide (rd p 0 1 ≤ 15) && decide (rd p 1 1 ≤ 1) && decide (rd p 2 2 ≤ 3071))
    (Resp.ok (le 1 (b2n u.valid) ++ le 3 0 ++ le 64 u.value ++ le 64 u.mask ++ u.act.bytes)))

def prismGetCountersBody : Body := readCmd (fun r s =>
  answerIf (decide (rd r.payload 0 1 ≤ 15)) (Resp.ok (ctrBytes s.tel.prismCtr (13 * rd r.payload 0 1) 13)))

def prismGetRuleCountersBody : Body := readCmd (fun r s =>
  let p := r.payload
  answerIf (decide (rd p 0 1 ≤ 15) && decide (1 ≤ rd p 4 2) && decide (rd p 4 2 ≤ 256)
      && decide (rd p 2 2 + rd p 4 2 ≤ 3072))
    (Resp.ok (ctrBytes s.prism.hits (3072 * rd p 0 1 + rd p 2 2) (rd p 4 2))))

/-- State of the other bank: 0 free, 1 draining, 2 loaded (R92). -/
def PrismSt.otherCode (p : PrismSt) : Nat := if p.loaded then 2 else if p.inPrev = 0 then 0 else 1

def prismGetEpochBody : Body := readCmd (fun _ s =>
  Resp.ok (le 4 s.prism.epoch ++ le 4 s.prism.inCur ++ le 4 s.prism.inPrev ++ le 1 s.prism.otherCode ++ le 3 0))

def execPrismSetProfile (r : Req) (s : State) : Host.Outcome State Fault Refusal :=
  mailboxCommand 0x0301 prismSetProfileBody r s
def execPrismSetSelect (r : Req) (s : State) : Host.Outcome State Fault Refusal :=
  mailboxCommand 0x0302 prismSetSelectBody r s
def execPrismSetPort (r : Req) (s : State) : Host.Outcome State Fault Refusal :=
  mailboxCommand 0x0303 prismSetPortBody r s
def execPrismWriteRule (r : Req) (s : State) : Host.Outcome State Fault Refusal :=
  mailboxCommand 0x0304 prismWriteRuleBody r s
def execPrismReadRule (r : Req) (s : State) : Host.Outcome State Fault Refusal :=
  mailboxCommand 0x0305 prismReadRuleBody r s
def execPrismGetCounters (r : Req) (s : State) : Host.Outcome State Fault Refusal :=
  mailboxCommand 0x0306 prismGetCountersBody r s
def execPrismGetRuleCounters (r : Req) (s : State) : Host.Outcome State Fault Refusal :=
  mailboxCommand 0x0307 prismGetRuleCountersBody r s
def execPrismGetEpoch (r : Req) (s : State) : Host.Outcome State Fault Refusal :=
  mailboxCommand 0x0308 prismGetEpochBody r s

end Sys2Proof.Machine
end

