-- ==== Sys2Proof/Machine/Forwarding.lean ====
section
/-! DEFINITION. The forwarding commands, learning, aging, scrub, restore and normalisation (R95 to R129). -/

namespace Sys2Proof.Machine

def badEntry : Nat × Nat := (stBadArg, 0x0401)

/-! ### Ports and lanes (R36, R37) -/

/-- Lanes of a port of a mode (R37). -/
def modeWidth (m : Nat) : Nat := if m = 1 then 8 else if m = 2 then 4 else if m = 3 then 2 else 1

/-- A network port number that is the lowest lane of a configured port (R36). -/
def State.portActive (s : State) (p : Nat) : Bool :=
  decide (p < 512) && (s.lane p).mode != 0 && p % 8 % modeWidth (s.lane p).mode == 0

/-- The ingress and egress slice of a port (R15). -/
def portSlice (p : Nat) : Nat :=
  if p < 512 then p / 32 else if p < 516 then 4 * (p - 512) else if p < 532 then p - 516 else p - 532

/-! ### Exact-match commands -/

/-- The key is written by the armed set (R111). -/
def State.armedKey (s : State) (kt : Nat) (key : List Byte) : Bool :=
  match s.bake.armed with
  | none => false
  | some t => t.cmds.any (fun c => (c.op == 0x0401 && rd c.payload 0 1 == kt && slice c.payload 12 48 == key)
      || (c.op == 0x0402 && rd c.payload 0 1 == kt && slice c.payload 4 48 == key))

/-- The entry of a key in generation `g`, in lookup order, whatever its parity. -/
def FwdSt.entryOf (f : FwdSt) (kt : Nat) (key : List Byte) (g : Nat) : Option (Nat × EmEntry) :=
  ((f.candidates kt key).filterMap (fun p => (Tab.find f.em p).bind (fun e =>
    if e.hits kt key g then some (p, e) else none))).head?

/-- A fixity key type. -/
def isFixKey (kt : Nat) : Bool := decide (5 ≤ kt) && decide (kt ≤ 8)

/-- Data word within its ranges: R102, and R248, R276, R310 for the bits of their chapters. -/
def dataWordOk (kt : Nat) (w : BitVec 64) : Bool :=
  emWordOk kt w && (if kt = 4 ∨ kt = 9 ∨ kt = 10 then bits w.toNat 47 0 == 0
    else if isFixKey kt then bits w.toNat 42 0 == 0 else true)

/-- Another entry carries the flow index with another cluster or digest mode (R277). -/
def FwdSt.flowClash (f : FwdSt) (kt : Nat) (key : List Byte) (w : BitVec 64) : Bool :=
  isFixKey kt && f.em.any (fun x => isFixKey x.2.ktype && !(x.2.ktype == kt && x.2.key == key)
    && emIndex x.2.data == emIndex w && bits x.2.data.toNat 47 43 != bits w.toNat 47 43)

/-- The entries of the current generation that carry one flow index agree (R277). -/
def FwdSt.flowsOk (f : FwdSt) : Bool :=
  let g := { f with em := f.em.filter (fun x => bit x.2.vis f.gen) }
  g.em.all (fun x => !g.flowClash x.2.ktype x.2.key x.2.data)

/-- What FWD_INSERT asks for. -/
structure InsReq where
  kt : Nat
  key : List Byte
  data : BitVec 64
  isStatic : Bool
  age : Bool
  replace : Bool

def insOf (p : List Byte) : InsReq :=
  { kt := rd p 0 1, key := slice p 12 48, data := BitVec.ofNat 64 (rd p 4 8), isStatic := bit (rd p 1 1) 0,
    age := bit (rd p 1 1) 1, replace := bit (rd p 1 1) 2 }

/-- The violations of FWD_INSERT that one command shows (R98, R102, R104). -/
def checkInsert (p : List Byte) (s : State) : Option (Nat × Nat) :=
  let i := insOf p
  need 0x0401 (decide (rd p 1 1 ≤ 7) && resv p 2 2 && emKeyOk i.kt i.key && dataWordOk i.kt i.data
    && (i.replace || (s.fwd.entryOf i.kt i.key s.fwd.gen).isNone))

/-- The violations of a live FWD_INSERT: those, and a clash with another entry of its flow (R277). -/
def checkFwdInsert (p : List Byte) (s : State) : Option (Nat × Nat) :=
  firstOf [checkInsert p s, need 0x0401 (!s.fwd.flowClash (insOf p).kt (insOf p).key (insOf p).data)]

/-- A new software-installed entry. -/
def InsReq.entry (i : InsReq) (vis : Nat) : EmEntry :=
  { EmEntry.init with ktype := i.kt, key := i.key, data := i.data, vis, isStatic := i.isStatic, age := i.age,
                      shadow := true }

/-- Visibility of a live insert: both generations, or the current one where the armed set writes the key (R111). -/
def State.liveVis (s : State) (kt : Nat) (key : List Byte) : Nat :=
  if s.armedKey kt key then 2 ^ s.fwd.gen else 3

/-- The first entry of a flow index sets its frame number to 0 (R279). -/
def State.firstFlow (s : State) (kt : Nat) (w : BitVec 64) : State :=
  if isFixKey kt && !s.fwd.em.any (fun x => isFixKey x.2.ktype && emIndex x.2.data == emIndex w) then
    s.updFlow (emIndex w) (fun f => { f with next := 0 }) else s

/-- Cluster and digest mode of a flow's entries, for its status (R276, R305). -/
def State.nameFlow (s : State) (kt : Nat) (w : BitVec 64) : State :=
  if isFixKey kt then s.updFlow (emIndex w) (fun f =>
    { f with cluster := bits w.toNat 47 44, sha := bit w.toNat 43 }) else s

/-- The response of FWD_INSERT: bucket, way or slot, moves (R128). -/
def insResp (place moves : Nat) : List Byte :=
  (if stashBase ≤ place then le 4 0xFFFFFFFF ++ le 2 (place - stashBase) else le 4 (place / 4) ++ le 2 (place % 4))
    ++ le 1 moves ++ le 1 0

/-- A live FWD_INSERT after its checks (R103, R104): replaced in place, or placed. -/
def State.liveInsert (s : State) (i : InsReq) : State × Resp :=
  match s.fwd.entryOf i.kt i.key s.fwd.gen with
  | some (q, _) =>
    (({ (s.firstFlow i.kt i.data) with fwd := s.fwd.updEntry q (fun e =>
        { e with data := i.data, isStatic := i.isStatic, age := i.age, shadow := true }) }).nameFlow i.kt i.data,
      Resp.ok (insResp q 0))
  | none =>
    match s.fwd.insertEntry (i.entry (s.liveVis i.kt i.key)) with
    | some (f, pl) => (({ (s.firstFlow i.kt i.data) with fwd := f }).nameFlow i.kt i.data,
        Resp.ok (insResp pl.place pl.moves))
    | none => ({ s with fwd := { s.fwd with ctr := Tab.bump s.fwd.ctr 13 1 } }, Resp.err stNoResource dNone)

/-- FWD_INSERT. -/
def fwdInsertBody : Body := fun r s =>
  if r.stage then s.stage 0x0401 r []
  else match checkFwdInsert r.payload s with
    | some e => errCmd s e.1 e.2
    | none => ((s.liveInsert (insOf r.payload)).1.dropHeld, some (s.liveInsert (insOf r.payload)).2)

/-- Key of FWD_DELETE and FWD_LOOKUP within its ranges. -/
def keyReqOk (p : List Byte) : Bool := resv p 1 3 && emKeyOk (rd p 0 1) (slice p 4 48)

/-- A delete of an absent key is a violation (R128). -/
def checkFwdDelete (p : List Byte) (s : State) : Option (Nat × Nat) :=
  need 0x0401 (keyReqOk p && (s.fwd.entryOf (rd p 0 1) (slice p 4 48) s.fwd.gen).isSome)

/-- A live delete, and the stash moves after it (R107). -/
def applyFwdDelete (p : List Byte) (s : State) : State :=
  match s.fwd.entryOf (rd p 0 1) (slice p 4 48) s.fwd.gen with
  | some (q, _) => { s with fwd := (s.fwd.removeAt q).drainStash }
  | none => s

/-- FWD_DELETE: a table entry is no configuration item of the shadow list; its `shadow` mark goes with it. -/
def fwdDeleteBody : Body := fun r s =>
  if r.stage then s.stage 0x0402 r []
  else match checkFwdDelete r.payload s with
    | some e => errCmd s e.1 e.2
    | none => okCmd (applyFwdDelete r.payload s).dropHeld []

/-- Control byte of FWD_LOOKUP (R128). -/
def EmEntry.control (e : EmEntry) : Nat :=
  b2n e.hit + 2 * b2n e.stale + 4 * e.vis + 16 * b2n e.isStatic + 32 * b2n e.age + 64 * b2n e.learned

/-- FWD_LOOKUP: the entry visible in the current generation. -/
def fwdLookupBody : Body := readCmd (fun r s =>
  let p := r.payload
  if emKeyOk (rd p 0 1) (slice p 4 48) then
    match s.fwd.entryOf (rd p 0 1) (slice p 4 48) s.fwd.gen with
    | some (q, e) => Resp.ok (le 1 1 ++ le 1 (emWidth e.ktype) ++ le 1 e.control ++ le 1 0
        ++ (if stashBase ≤ q then le 4 0xFFFFFFFF ++ le 2 (q - stashBase) else le 4 (q / 4) ++ le 2 (q % 4))
        ++ le 2 0 ++ le 8 e.data.toNat)
    | none => Resp.ok (List.replicate 20 0)
  else Resp.err stBadArg 0x0401)

/-! ### Tables held once per generation -/

def vlanOf (p : List Byte) : Vlan :=
  { valid := bit (rd p 4 1) 0, fid := rd p 2 2, vrf := rd p 6 1, learn := bit (rd p 4 1) 2, filter := bit (rd p 4 1) 1,
    unk := rd p 5 1, members := rd p 8 69 % 2 ^ 548, untagged := rd p 77 69 % 2 ^ 548 }

/-- Ranges of FWD_SET_VLAN (R114, R128); FID and action of a VLAN not valid are not tested (R523). -/
def checkFwdSetVlan (p : List Byte) (_ : State) : Option (Nat × Nat) :=
  need 0x0401 (decide (1 ≤ rd p 0 2) && decide (rd p 0 2 ≤ 4094) && decide (rd p 4 1 ≤ 7) && resv p 7 1
    && decide (rd p 76 1 < 16) && decide (rd p 145 1 < 16)
    && (!bit (rd p 4 1) 0 || (decide (rd p 2 2 ≤ 16383) && decide (rd p 5 1 ≤ 2))))

def GenTables.putVlan (p : List Byte) (g : GenTables) : GenTables :=
  { g with vlan := Tab.set Vlan.init g.vlan (rd p 0 2) (vlanOf p) }

/-- The prefix of a FWD_SET_ROUTE, its address left-justified in 128 bits. -/
def prefixOf (p : List Byte) : Prefix :=
  { vrf := rd p 0 2, fam := rd p 2 1, plen := rd p 3 1, addr := rdBe p 16 16, data := BitVec.ofNat 64 (rd p 8 8) }

/-- The LPM table of the copy holds its prefixes (R118). -/
def GenTables.lpmFits (g : GenTables) : Bool :=
  decide ((g.lpm.filter (fun x => x.fam == 4)).length ≤ 524288) && decide ((g.lpm.filter (fun x => x.fam == 6)).length ≤ 262144)

/-- The ECMP groups of the copy hold at most 1,048,576 members (R119). -/
def GenTables.ecmpFits (g : GenTables) : Bool := decide ((g.ecmp.map (fun e => e.2.length)).sum ≤ 1048576)

/-- The copy holds this prefix. -/
def GenTables.hasPrefix (g : GenTables) (q : Prefix) : Bool := g.lpm.any (fun x => x.same q.fam q.vrf q.plen q.addr)

/-- Prefixes of a family. -/
def GenTables.countPrefix (g : GenTables) (fam : Nat) : Nat := (g.lpm.filter (fun x => x.fam == fam)).length

/-- Ranges of FWD_SET_ROUTE (R118, R128): a delete of an absent prefix is a violation; a full table is NO_RESOURCE. -/
def checkFwdSetRoute (p : List Byte) (s : State) : Option (Nat × Nat) :=
  let q := prefixOf p
  let w := if q.fam = 4 then 32 else 128
  let g := s.fwd.tables s.fwd.gen
  firstOf [need 0x0401 (decide (q.vrf ≤ 255) && (q.fam == 4 || q.fam == 6) && decide (q.plen ≤ w)
      && decide (rd p 4 1 ≤ 1) && resv p 5 3 && (rd p 4 1 == 1 || emDataOk q.data)
      && q.addr % 2 ^ (128 - q.plen) == 0 && (q.fam == 6 || q.addr % 2 ^ 96 == 0)
      && (rd p 4 1 == 0 || g.hasPrefix q)),
    if rd p 4 1 = 0 ∧ g.hasPrefix q = false ∧ (if q.fam = 4 then 524288 else 262144) ≤ g.countPrefix q.fam then
      some (stNoResource, dNone) else none]

/-- Add, replace or delete a prefix. -/
def GenTables.putRoute (p : List Byte) (g : GenTables) : GenTables :=
  let q := prefixOf p
  let rest := g.lpm.filter (fun x => !x.same q.fam q.vrf q.plen q.addr)
  { g with lpm := if rd p 4 1 = 1 then rest else rest ++ [q] }

def hopOf (p : List Byte) : NextHop :=
  { kind := rd p 4 1, tagged := bit (rd p 5 1) 0, port := rd p 6 2, vlan := rd p 8 2, router := rd p 10 1,
    mac := rdBe p 12 6, tmpl := rd p 18 2 }

/-- Ranges of FWD_SET_NEXTHOP: fields that the kind does not use are not tested (R117, R523). -/
def checkFwdSetNexthop (p : List Byte) (_ : State) : Option (Nat × Nat) :=
  let h := hopOf p
  need 0x0401 (decide (rd p 0 4 ≤ 131071) && decide (h.kind ≤ 3) && decide (rd p 5 1 ≤ 1) && resv p 11 1 && resv p 20 4
    && (h.kind == 0 || decide (h.port ≤ 547)) && (h.kind == 0 || !h.tagged || (decide (1 ≤ h.vlan) && decide (h.vlan ≤ 4094)))
    && (h.kind == 0 || h.kind == 2 || decide (h.router ≤ 63)) && (h.kind != 3 || decide (h.tmpl ≤ 4095)))

def GenTables.putHop (p : List Byte) (g : GenTables) : GenTables :=
  { g with nexthop := Tab.set NextHop.init g.nexthop (rd p 0 4) (hopOf p) }

def ecmpOf (p : List Byte) : List Nat := (List.range (rd p 2 2)).map (fun i => rd p (8 + 4 * i) 4)

/-- Members of every group but one. -/
def GenTables.ecmpElse (g : GenTables) (n : Nat) : Nat :=
  ((g.ecmp.filter (fun e => e.1 != n)).map (fun e => e.2.length)).sum

/-- Ranges of FWD_SET_ECMP; a total beyond 1,048,576 members is NO_RESOURCE live (R119). -/
def checkFwdSetEcmp (p : List Byte) (s : State) : Option (Nat × Nat) :=
  firstOf [need 0x0401 (decide (rd p 2 2 ≤ 256) && resv p 4 4 && (ecmpOf p).all (fun m => decide (m ≤ 131071))),
    if 1048576 < (s.fwd.tables s.fwd.gen).ecmpElse (rd p 0 2) + rd p 2 2 then some (stNoResource, dNone) else none]

def GenTables.putEcmp (p : List Byte) (g : GenTables) : GenTables :=
  { g with ecmp := Tab.set [] g.ecmp (rd p 0 2) (ecmpOf p) }

def templateOf (p : List Byte) : Template :=
  { kind := rd p 2 1, rawLen := rd p 3 1, vni := rd p 4 4, ttl := rd p 8 1, dscpFixed := rd p 9 1 == 1, dscp := rd p 10 1,
    src := slice p 12 16, dst := slice p 28 16, raw := slice p 44 64 }

/-- Ranges of FWD_SET_TEMPLATE: fields that the kind does not use are not tested (R121, R523). -/
def checkFwdSetTemplate (p : List Byte) (_ : State) : Option (Nat × Nat) :=
  let k := rd p 2 1
  need 0x0401 (decide (1 ≤ rd p 0 2) && decide (rd p 0 2 ≤ 4095) && decide (k ≤ 3) && resv p 11 1
    && (k != 3 || decide (rd p 3 1 ≤ 64))
    && (!(k == 1 || k == 2) || (decide (rd p 4 4 < 2 ^ 24) && decide (rd p 9 1 ≤ 1)
      && (rd p 9 1 == 0 || decide (rd p 10 1 ≤ 63)))))

def GenTables.putTemplate (p : List Byte) (g : GenTables) : GenTables :=
  { g with templates := Tab.set Template.init g.templates (rd p 0 2) (templateOf p) }

/-- Ranges of FWD_SET_ROUTER: the family is a valid VTEP's only (R523). -/
def checkFwdSetRouter (p : List Byte) (_ : State) : Option (Nat × Nat) :=
  need 0x0401 (decide (rd p 0 1 ≤ 63) && decide (rd p 1 1 ≤ 1) && decide (rd p 2 1 ≤ 1) && resv p 11 1
    && (rd p 1 1 == 0 || rd p 2 1 == 0 || rd p 10 1 == 4 || rd p 10 1 == 6))

def GenTables.putRouter (p : List Byte) (g : GenTables) : GenTables :=
  if rd p 1 1 = 0 then
    { g with
      routers := Tab.set RouterMac.init g.routers (rd p 0 1) ⟨rd p 2 1 == 1, rd p 3 1, rdBe p 4 6⟩ }
  else
    { g with
      vteps := Tab.set Vtep.init g.vteps (rd p 0 1) ⟨rd p 2 1 == 1, rd p 3 1, rd p 10 1, slice p 12 16⟩ }

def applyFwdSetVlan (p : List Byte) (s : State) : State := s.liveGen 0x0404 p (GenTables.putVlan p)
def applyFwdSetRoute (p : List Byte) (s : State) : State := s.liveGen 0x0405 p (GenTables.putRoute p)
def applyFwdSetNexthop (p : List Byte) (s : State) : State := s.liveGen 0x0406 p (GenTables.putHop p)
def applyFwdSetEcmp (p : List Byte) (s : State) : State := s.liveGen 0x0407 p (GenTables.putEcmp p)
def applyFwdSetTemplate (p : List Byte) (s : State) : State := s.liveGen 0x0408 p (GenTables.putTemplate p)
def applyFwdSetRouter (p : List Byte) (s : State) : State := s.liveGen 0x0409 p (GenTables.putRouter p)

/-- Ranges of FWD_SET_LEARN: an inactive port is refused (R36); limit and action are not tested with learning off. -/
def checkFwdSetLearn (p : List Byte) (s : State) : Option (Nat × Nat) :=
  need 0x0401 (s.portActive (rd p 0 2) && decide (rd p 2 1 ≤ 1)
    && (rd p 2 1 == 0 || (decide (rd p 3 1 ≤ 1) && decide (rd p 4 4 ≤ 2097152))))

def applyFwdSetLearn (p : List Byte) (s : State) : State :=
  s.updPort (rd p 0 2) (fun q => { q with learnOn := rd p 2 1 == 1, learnFwd := rd p 3 1 == 1, learnLimit := rd p 4 4 })

def checkFwdSetAging (p : List Byte) (_ : State) : Option (Nat × Nat) := need 0x0401 (decide (rd p 0 4 ≤ 1000000))
def applyFwdSetAging (p : List Byte) (s : State) : State := { s with fwd := { s.fwd with agePeriod := rd p 0 4 } }

def fwdSetVlanBody : Body := setCmd 0x0404 checkFwdSetVlan applyFwdSetVlan
def fwdSetRouteBody : Body := setCmd 0x0405 checkFwdSetRoute applyFwdSetRoute
def fwdSetNexthopBody : Body := setCmd 0x0406 checkFwdSetNexthop applyFwdSetNexthop
def fwdSetEcmpBody : Body := setCmd 0x0407 checkFwdSetEcmp applyFwdSetEcmp
def fwdSetTemplateBody : Body := setCmd 0x0408 checkFwdSetTemplate applyFwdSetTemplate
def fwdSetRouterBody : Body := setCmd 0x0409 checkFwdSetRouter applyFwdSetRouter
def fwdSetLearnBody : Body := setCmd 0x040A checkFwdSetLearn applyFwdSetLearn
def fwdSetAgingBody : Body := setCmd 0x040B checkFwdSetAging applyFwdSetAging

/-! ### Flush and status -/

/-- A learned entry that FWD_FLUSH selects: by the port it counts against, by FID, or all. -/
def flushes (p : List Byte) (e : EmEntry) : Bool :=
  e.learned && (!bit (rd p 0 1) 0 || e.owner == rd p 2 2) && (!bit (rd p 0 1) 1 || rd e.key 0 2 == rd p 4 2)

def flushOk (p : List Byte) : Bool :=
  decide (rd p 0 1 ≤ 3) && resv p 1 1 && resv p 6 2 && (!bit (rd p 0 1) 0 || decide (rd p 2 2 ≤ 511))
    && (!bit (rd p 0 1) 1 || decide (rd p 4 2 ≤ 16383))

/-- FWD_FLUSH: every selected learned entry goes, whatever its HIT bit (R128). -/
def FwdSt.flush (f : FwdSt) (p : List Byte) : FwdSt :=
  ((f.em.filter (fun x => flushes p x.2)).foldl (fun g x => g.removeAt x.1) f).drainStash

def fwdFlushBody : Body := fun r s =>
  if flushOk r.payload then
    okCmd { s with fwd := s.fwd.flush r.payload } (le 4 (s.fwd.em.filter (fun x => flushes r.payload x.2)).length)
  else errCmd s stBadArg 0x0401

def fwdGetCountersBody : Body := readCmd (fun _ s => Resp.ok (ctrBytes s.fwd.ctr 0 25))

/-- Units that entries selected by `b` take. -/
def FwdSt.unitsOf (f : FwdSt) (b : Nat × EmEntry → Bool) : Nat :=
  ((f.em.filter b).map (fun x => emWidth x.2.ktype)).sum

def fwdGetOccupancyBody : Body := readCmd (fun _ s =>
  let f := s.fwd
  Resp.ok ((List.range 11).flatMap (fun i => le 4 (f.unitsOf (fun x => x.2.ktype == i + 1)))
    ++ le 4 (f.unitsOf (fun x => decide (stashBase ≤ x.1)))
    ++ le 4 (stashBase - f.unitsOf (fun x => decide (x.1 < stashBase)))
    ++ le 4 (f.em.filter (fun x => x.2.learned)).length))

/-! ### Learning (R122, R123) -/

/-- The learned destination of an event as a data word; none: no remote VTEP (R120, R122). -/
def State.learnWord (s : State) (v : LearnEv) : Option (BitVec 64) :=
  if v.vxlan then ((s.fwd.tables s.fwd.gen).remoteVtep v.vrf v.outer).map (emWord 2) else some (emWord 1 v.port)

/-- Learned count of a port. -/
def FwdSt.learnedCount (f : FwdSt) (port : Nat) : Nat := Tab.get 0 f.learnedOn port

/-- A new learned entry. -/
def learnedEntry (v : LearnEv) (w : BitVec 64) (vis : Nat) : EmEntry :=
  { EmEntry.init with ktype := 1, key := keyMac v.fid v.mac, data := w, vis, learned := true, age := true, owner := v.port }

/-- A station move: rewritten as newly learned, counted against its new port (R122). -/
def FwdSt.stationMove (f : FwdSt) (q : Nat) (e : EmEntry) (v : LearnEv) (w : BitVec 64) : FwdSt :=
  let g := if e.learned then f.learnedAdd e.owner (-1) else f
  let h := (g.updEntry q (fun x => learnedEntry v w x.vis)).learnedAdd v.port 1
  { h with ctr := Tab.bump h.ctr 3 1 }

/-- Insert a new learned entry, or fail with NO_RESOURCE (R123). -/
def State.learnNew (s : State) (v : LearnEv) (w : BitVec 64) : State :=
  match s.fwd.insertEntry (learnedEntry v w (s.liveVis 1 (keyMac v.fid v.mac))) with
  | some (f, _) => { s with fwd := { (f.learnedAdd v.port 1) with ctr := Tab.bump f.ctr 2 1 } }
  | none => ((s.bumpFwd 7 1).bumpFwd 13 1).raiseLimited 0x0401 sevWarning 0 1000000000 []

/-- One learn event (R122, R123); the limit is tested again at the insert (log entry 13). -/
def State.learnOne (s : State) (v : LearnEv) : State :=
  match s.learnWord v with
  | none => s.raiseLimited 0x0403 sevInfo (2 ^ 40 * (1 + ofBe (padTo 16 v.outer))) 1000000000
      (le 1 v.vrf ++ padTo 16 v.outer)
  | some w =>
    match s.fwd.entryOf 1 (keyMac v.fid v.mac) s.fwd.gen with
    | some (q, e) =>
      let k := (emData e.data).kind
      if e.isStatic || (k != 1 && k != 2) || (emData e.data).dest == (emData w).dest && k == (emData w).kind then s
      else if (s.port v.port).learnLimit ≤ s.fwd.learnedCount v.port ∧ ¬ (e.learned ∧ e.owner = v.port) then s
      else { s with fwd := s.fwd.stationMove q e v w }
    | none => if (s.port v.port).learnLimit ≤ s.fwd.learnedCount v.port then s else s.learnNew v w

/-- LEARN_INSERT: the learning-assist function takes the oldest event of a slice's FIFO. -/
def execLearnInsert (slice : Nat) (s : State) : Host.Outcome State Fault Refusal :=
  if 16 ≤ slice then .fault (.noSuchUnit "slice")
  else match Tab.get [] s.fwd.learnQ slice with
    | [] => .next s
    | v :: rest => .next (({ s with fwd := { s.fwd with learnQ := Tab.set [] s.fwd.learnQ slice rest } }).learnOne v)

/-! ### Aging (R124, R125) -/

/-- A sweeper visit to one entry: HIT, then STALE, then removal; a hit on an entry due for removal aborts it (R125). -/
def FwdSt.visit (f : FwdSt) (q : Nat) (e : EmEntry) : FwdSt :=
  if e.hit then
    { f.updEntry q (fun x => { x with hit := false, stale := false }) with ctr := Tab.bump f.ctr 10 (b2n e.stale) }
  else if e.stale then
    let g := (f.removeAt q).drainStash
    { g with ctr := Tab.bump g.ctr 9 1 }
  else f.updEntry q (fun x => { x with stale := true })

/-- AGING_VISIT: the sweeper visits the entry at a place, if it is subject to aging and the period is not 0. -/
def execAgingVisit (place : Nat) (s : State) : Host.Outcome State Fault Refusal :=
  if stashEnd ≤ place then .fault (.noSuchUnit "exact-match place")
  else if s.fwd.agePeriod = 0 then .next s
  else match Tab.find s.fwd.em place with
    | some e => .next (if e.age then { s with fwd := s.fwd.visit place e } else s)
    | none => .next s

/-! ### Parity (R126, R127) and normalisation (R112) -/

/-- Arguments of TABLE_PARITY for an exact-match entry: bucket (0xFFFFFFFF for the stash), way or slot. -/
def parityArgs (place : Nat) : List Byte :=
  if stashBase ≤ place then le 4 0xFFFFFFFF ++ le 2 (place - stashBase) else le 4 (place / 4) ++ le 2 (place % 4)

/-- A parity error found in an exact-match entry: counted, and the correctable event raised. -/
def State.parityFound (s : State) (place : Nat) : State :=
  (s.bumpFwd 14 1).raise 0x0402 sevCorrectable (parityArgs place)

/-- Entries of the scrubbed tables: 0 exact match, 1 VLAN, 2 router, 3 VTEP, 4 next hop, 5 ECMP, 6 template, 7 LPM. -/
def scrubSize (table : Nat) : Nat :=
  [stashEnd, 4096, 64, 64, 131072, 65536, 4096, 786432].getD table 0

/-- The prefix that an LPM entry holds: the bad parity stays with it, wherever the table puts it later. -/
def FwdSt.prefixAt (f : FwdSt) (table idx : Nat) : Prefix :=
  if table = 7 then (f.tables f.gen).lpm.getD idx Prefix.init else Prefix.init

/-- SCRUB_READ: the scrubber reads an entry and finds its parity good or bad. -/
def execScrubRead (table idx : Nat) (bad : Bool) (s : State) : Host.Outcome State Fault Refusal :=
  if scrubSize table ≤ idx then .fault (.noSuchUnit "table entry")
  else if ¬ bad then .next s
  else if table = 0 then
    match emAt s.fwd.em idx with
    | some (q, _) => .next (({ s with fwd := s.fwd.updEntry q (fun e => { e with bad := true }) }).parityFound q)
    | none => .next (s.parityFound idx)
  else .next ((({ s with fwd := { s.fwd with badTable := (table, idx, s.fwd.prefixAt table idx) :: s.fwd.badTable } }).bumpFwd 14 1).raise
    0x0402 sevCorrectable [])

/-- The restore of a bad exact-match entry: removed, and reinstalled from the shadow if software installed it. -/
def FwdSt.restore (f : FwdSt) (q : Nat) (e : EmEntry) : FwdSt :=
  let g := f.removeAt q
  if e.shadow then
    match g.insertEntry { e with bad := false, hit := false, stale := false } with
    | some (h, _) => h
    | none => g
  else g

/-- PARITY_RESTORE: Moaras restores or removes a bad entry (R126, R127). -/
def execParityRestore (table idx : Nat) (s : State) : Host.Outcome State Fault Refusal :=
  if scrubSize table ≤ idx then .fault (.noSuchUnit "table entry")
  else if table = 0 then
    match emAt s.fwd.em idx with
    | some (q, e) => .next (if e.bad then ({ s with fwd := s.fwd.restore q e }).bumpFwd 16 1 else s)
    | none => .next s
  else if s.fwd.badAt table idx then
    .next (({ s with fwd := { s.fwd with badTable := s.fwd.badTable.filter (fun x => !(x.1 == table && x.2.1 == idx)) } }).bumpFwd 16 1)
  else .next s

/-- Normalisation (R112): entries of the old generation alone go, the others become visible in both, and the copies of
the old generation take the new contents. -/
def FwdSt.normalise (f : FwdSt) : FwdSt :=
  let old := f.em.filter (fun x => x.2.vis == 2 ^ (1 - f.gen))
  let g := old.foldl (fun h x => h.removeAt x.1) f
  let h := { g with em := g.em.map (fun (x : Nat × EmEntry) => (x.1, { x.2 with vis := 3 })), normPending := false }
  (if f.gen = 0 then { h with gen1 := h.gen0 } else { h with gen0 := h.gen1 }).drainStash

/-- TABLE_NORMALISE: once the previous generation has drained. -/
def execTableNormalise (s : State) : Host.Outcome State Fault Refusal :=
  if s.fwd.normPending ∧ s.fwd.inGenPrev = 0 then .next { s with fwd := s.fwd.normalise } else .next s

def execFwdInsert (r : Req) (s : State) : Host.Outcome State Fault Refusal := mailboxCommand 0x0401 fwdInsertBody r s
def execFwdDelete (r : Req) (s : State) : Host.Outcome State Fault Refusal := mailboxCommand 0x0402 fwdDeleteBody r s
def execFwdLookup (r : Req) (s : State) : Host.Outcome State Fault Refusal := mailboxCommand 0x0403 fwdLookupBody r s
def execFwdSetVlan (r : Req) (s : State) : Host.Outcome State Fault Refusal := mailboxCommand 0x0404 fwdSetVlanBody r s
def execFwdSetRoute (r : Req) (s : State) : Host.Outcome State Fault Refusal := mailboxCommand 0x0405 fwdSetRouteBody r s
def execFwdSetNexthop (r : Req) (s : State) : Host.Outcome State Fault Refusal :=
  mailboxCommand 0x0406 fwdSetNexthopBody r s
def execFwdSetEcmp (r : Req) (s : State) : Host.Outcome State Fault Refusal := mailboxCommand 0x0407 fwdSetEcmpBody r s
def execFwdSetTemplate (r : Req) (s : State) : Host.Outcome State Fault Refusal :=
  mailboxCommand 0x0408 fwdSetTemplateBody r s
def execFwdSetRouter (r : Req) (s : State) : Host.Outcome State Fault Refusal :=
  mailboxCommand 0x0409 fwdSetRouterBody r s
def execFwdSetLearn (r : Req) (s : State) : Host.Outcome State Fault Refusal := mailboxCommand 0x040A fwdSetLearnBody r s
def execFwdSetAging (r : Req) (s : State) : Host.Outcome State Fault Refusal := mailboxCommand 0x040B fwdSetAgingBody r s
def execFwdFlush (r : Req) (s : State) : Host.Outcome State Fault Refusal := mailboxCommand 0x040C fwdFlushBody r s
def execFwdGetCounters (r : Req) (s : State) : Host.Outcome State Fault Refusal :=
  mailboxCommand 0x040D fwdGetCountersBody r s
def execFwdGetOccupancy (r : Req) (s : State) : Host.Outcome State Fault Refusal :=
  mailboxCommand 0x040E fwdGetOccupancyBody r s

end Sys2Proof.Machine
end

