-- ==== Sys2Proof/Machine/Packets.lean ====
section
/-! DEFINITION. What a packet is charged, the cells it holds, the copies mirror sessions take of it, how it is dropped, and
the flow control toward its source (R130 to R151, R458, R472 to R477). -/

namespace Sys2Proof.Machine

/-! ### Ports -/

/-- Speed of a port mode in Gb/s (R37). -/
def modeGbps (m : Nat) : Nat := [0, 1600, 800, 400, 200, 100, 50, 25, 10].getD m 0

/-- Configured speed of a network port in Gb/s; 0 for an inactive one. -/
def State.speed (s : State) (p : Nat) : Nat := if s.portActive p then modeGbps (s.lane p).mode else 0

/-- Rate of a port at its current width (R63). -/
def State.rateNow (s : State) (p : Nat) : Nat :=
  if (s.port p).lt.width = 0 then s.speed p else min (s.speed p) (200 * (s.port p).lt.width)

/-- The frame must be whole before it may leave (R22, R64, R121, R235). -/
def State.storeFwd (s : State) (pk : Pkt) (p : Nat) : Bool :=
  pk.saf || pk.stored || s.gated p pk.tc || (decide (p < 512) && (s.port p).lpi) || (decide (p < 512) && decide (pk.inPort < 512) && decide (s.rateNow pk.inPort < s.rateNow p))

/-- Queue key of the buffer manager: 64 * port + 8 * class + slot, slot 0 at host ports (R135, R161). -/
def queueKey (p c t : Nat) : Nat := 64 * p + 8 * c + (if p < 512 then t else 0)

/-- Egress port of a VOQ number. -/
def voqPort (v : Nat) : Nat := if v < 32768 then v / 64 else 512 + (v - 32768) / 8
/-- Class of a VOQ number. -/
def voqClass (v : Nat) : Nat := if v < 32768 then v / 8 % 8 else v % 8
/-- Queue key of a VOQ number. -/
def voqQueue (v : Nat) : Nat := if v < 32768 then v else queueKey (voqPort v) (voqClass v) 0

/-! ### What leaves an egress -/

/-- The frame at step 12 before its tags: the copy that a rule sends to a host port is unedited. -/
def Pkt.wire (pk : Pkt) (p : Nat) : List Byte := if pk.copyHost = some p then pk.bytes else pk.edit.getD pk.bytes

/-- The 802.1Q tag bytes a frame carries as it stands. -/
def tagBytes (b : List Byte) : List Byte :=
  match (parseTags b).tci with
  | some _ => slice b 12 4
  | none => []

/-- The 802.1Q tag a frame leaves with at port `p` (R116, R117, R251); one sent to a host port by a rule or data word keeps
the tag it came with. -/
def Pkt.outTag (pk : Pkt) (p : Nat) : List Byte :=
  if pk.copyHost = some p then tagBytes pk.bytes
  else match pk.tagMode with
  | 0 => if bit pk.untagged p then [] else newTag (pk.pcp * 8192 + b2n pk.dei * 4096 + pk.vid)
  | 1 => newTag (pk.pcp * 8192 + b2n pk.dei * 4096 + pk.egVid)
  | 2 => []
  | _ => tagBytes (pk.wire p)

/-- The R-TAG a frame leaves with (R250, R257). -/
def Pkt.outRtag (pk : Pkt) (p : Nat) : List Byte :=
  match pk.seqNum with
  | some n => newRtag n
  | none => if pk.strip then [] else rtagBytes (pk.wire p)

/-- Tag, R-TAG and CE edits of step 12, without FCS (R52, R146); BYPASS frames and mirror copies keep their tags. -/
def Pkt.outBytes (pk : Pkt) (p : Nat) : List Byte :=
  let b := if pk.mirror.isSome || pk.bypass then pk.bytes else retag (pk.wire p) (pk.outTag p) (pk.outRtag p)
  padFrame (if pk.ce.contains p then setCe b else b)

/-- Length as transmitted, FCS included. -/
def Pkt.outLen (pk : Pkt) (p : Nat) : Nat := (pk.outBytes p).length + 4

/-- Length of the frame as it stands, FCS included. -/
def Pkt.len (pk : Pkt) : Nat := pk.bytes.length + 4

/-- Cells the frame occupies (R130). -/
def Pkt.nCells (pk : Pkt) : Nat := ceilDiv pk.len 256

/-! ### Reservations and free cells (R136 to R139) -/

/-- Guaranteed minimum of a port and priority: the default is 8 for a network port and 0 for an internal one; an inactive
port reserves nothing. -/
def State.minOf (s : State) (p c : Nat) : Nat :=
  if p < 512 && !s.portActive p then 0 else (s.portClass p c).minSet.getD (if p < 512 then 8 else 0)

/-- Headroom of R150 in cells, exactly: f * v * t / 256 rounded up, for a rate in Gb/s. -/
def headroomCells (gbps lmax : Nat) (hr : Nat × Nat × Nat × Nat) : Nat :=
  ceilDiv (hr.2.2.2 * (gbps * (2 * hr.1 * hr.2.1 + 1000 * hr.2.2.1 + 67340) + 16000 * (lmax + 20))) 204800000

/-- Headroom of a port and priority: a lossless class on an active port whose flow control is not NONE (R148, R150); none
without a cell factor in range (log entry 113). -/
def State.headOf (s : State) (p c : Nat) : Nat :=
  if s.portActive p && (s.classCfg c).lossless && (s.port p).fcMode != 0 then
    let h := (s.portClass p c).hr
    if 100 ≤ h.2.2.2 ∧ h.2.2.2 ≤ 305 then headroomCells (s.speed p) (s.port p).maxLen h else 0
  else 0

/-- Port and class keys whose minimum or headroom may differ from 0. -/
def State.chargeKeys (s : State) : List Nat :=
  ((s.lanes.filter (fun l => s.portActive l.1)).flatMap (fun l => (List.range 8).map (8 * l.1 + ·)))
    ++ ((s.buf.portClass.map (·.1)).filter (fun k => decide (4096 ≤ k) || !s.portActive (k / 8)))

/-- Minimum reservation (R137). -/
def State.minReserved (s : State) : Nat := (s.chargeKeys.map (fun k => s.minOf (k / 8) (k % 8))).sum
/-- Headroom reservation (R137). -/
def State.headReserved (s : State) : Nat := (s.chargeKeys.map (fun k => s.headOf (k / 8) (k % 8))).sum
/-- The shared pool (R137). -/
def State.sharedPool (s : State) : Nat := 1048576 - s.minReserved - s.headReserved
/-- Cells charged to the shared pool. -/
def State.sharedUsed (s : State) : Nat := (s.buf.portClass.map (fun x => x.2.cShared)).sum
/-- Cells of drained frames, which are charged to their queues only (R318). -/
def State.uncharged (s : State) : Nat :=
  (s.pkts.map (fun x => if x.2.charged || x.2.cells.isEmpty then 0 else x.2.cells.length)).sum
/-- Free cells of the shared pool: unreserved cells held without an ingress charge count as taken from it. -/
def State.sharedFree (s : State) : Nat := s.sharedPool - s.sharedUsed - s.uncharged
/-- Minima in use. -/
def State.minUsed (s : State) : Nat :=
  (s.chargeKeys.map (fun k => min (s.portClass (k / 8) (k % 8)).cMin (s.minOf (k / 8) (k % 8)))).sum
/-- Headroom in use. -/
def State.headUsed (s : State) : Nat :=
  (s.chargeKeys.map (fun k => min (s.portClass (k / 8) (k % 8)).cHead (s.headOf (k / 8) (k % 8)))).sum
/-- Cells that frames charged at receipt will occupy and do not hold yet (R135). -/
def State.waitingCells (s : State) : Nat :=
  (s.pkts.map (fun x => if x.2.charged && x.2.cells.isEmpty && x.2.landing.isEmpty then x.2.nCells else 0)).sum
/-- Cells in the free store. -/
def State.freeCells (s : State) : Nat := 1048576 - s.buf.usedCells.length
/-- The unreserved free cells U (R138). -/
def State.unreserved (s : State) : Nat :=
  s.freeCells - s.waitingCells - (s.minReserved - s.minUsed) - (s.headReserved - s.headUsed)
/-- 128 times the dynamic threshold of a class (R139). -/
def State.dynThr128 (s : State) (c : Nat) : Nat := 2 ^ (s.classCfg c).alpha * s.sharedFree
/-- 128 times Txoff of a port and priority (R147). -/
def State.txoff128 (s : State) (p c : Nat) : Nat := min (128 * (s.portClass p c).xoffLim) (s.dynThr128 c)

/-! ### The free store (R131) -/

/-- The first free cell of a group of 256, from `c` on, `n` cells left to look at. -/
def freeInGroup (used : List Nat) : Nat → Nat → Option Nat
  | 0, _ => none
  | n + 1, c => if used.contains c then freeInGroup used n (c + 1) else some c

/-- The first group with a free cell at or after a start point, `n` groups left to look at. -/
def freeCell (used : List Nat) : Nat → Nat → Option Nat
  | 0, _ => none
  | n + 1, g => match freeInGroup used 256 (256 * (g % 4096)) with
    | some c => some c
    | none => freeCell used n (g + 1)

/-- Allocate `n` cells for a requester, 0 to 15 the slices, 16 to 31 their read-back engines: its own start point rotates by
one group at each (log entry 12). -/
def BufSt.alloc (b : BufSt) (req : Nat) : Nat → List Nat → BufSt × List Nat
  | 0, got => (b, got)
  | n + 1, got => match freeCell b.usedCells 4096 (Tab.get 0 b.allocStart req) with
    | some c =>
      { b with usedCells := insertRising c b.usedCells,
               allocStart := Tab.upd 0 b.allocStart req (fun g => (g + 1) % 4096) }.alloc req n (got ++ [c])
    | none => (b, got)

/-- Return cells to the free store. -/
def BufSt.freeAll (b : BufSt) (l : List Nat) : BufSt := { b with usedCells := b.usedCells.filter (fun c => !l.contains c) }

/-! ### Control frames toward the source (R48, R49, R148) -/

/-- A MAC control frame: PAUSE opcode 1, PFC opcode 0x0101. -/
def macControl (mac op : Nat) (body : List Byte) : List Byte :=
  padFrame (be 6 0x0180C2000001 ++ be 6 mac ++ be 2 0x8808 ++ be 2 op ++ body)

/-- Count a control frame as it leaves: TX_PAUSE or TX_PFC. -/
def State.countCtl (s : State) (p : Nat) (b : List Byte) : State :=
  if rdBe b 12 2 = 0x8808 then s.bumpPort p (if rdBe b 14 2 = 1 then 11 else 12) 1 else s

/-- A frame of the MAC itself: it leaves at once, or at the next frame boundary ahead of queued data (R48), or after the wake
time of a transmitter in LPI (R64); a port whose link is down sends nothing. -/
def State.sendCtl (s : State) (p : Nat) (b : List Byte) : State :=
  if (s.port p).link = false then s
  else if (s.port p).txPkt.isSome || (s.port p).lpi then s.updPort p (fun q => { q with ctlQueue := q.ctlQueue ++ [b] })
  else (s.countCtl p b).sendNow p (.control p b)

/-- Control frames that wait leave at the frame boundary (R48). -/
def State.flushCtl (s : State) (p : Nat) : State :=
  (s.port p).ctlQueue.foldl (fun t b => (t.countCtl p b).sendNow p (.control p b))
    (s.updPort p (fun q => { q with ctlQueue := [] }))

/-- Priorities of a port that assert XOFF, as a vector. -/
def State.xoffVec (s : State) (p : Nat) : Nat :=
  ((List.range 8).map (fun c => if (s.portClass p c).xoff then 2 ^ c else 0)).sum

/-- A PFC frame for a vector, with one quanta value in every class of it. -/
def State.pfcFrame (s : State) (p vec quanta : Nat) : List Byte :=
  macControl (s.port p).mac 0x0101 (be 2 vec ++ (List.range 8).flatMap (fun c => be 2 (if bit vec c then quanta else 0)))

/-- A pause frame. -/
def State.pauseFrame (s : State) (p quanta : Nat) : List Byte := macControl (s.port p).mac 0x0001 (be 2 quanta)

/-- What the flow-control mode sends when `c` has asserted: all asserted priorities in one PFC frame; PAUSE on the
first. -/
def State.sendXoff (s : State) (p c : Nat) : State :=
  match (s.port p).fcMode with
  | 2 => s.sendCtl p (s.pfcFrame p (s.xoffVec p) (s.port p).pfcQuanta)
  | 1 => if s.xoffVec p = 2 ^ c then s.sendCtl p (s.pauseFrame p (s.port p).pfcQuanta) else s
  | _ => s

/-- What it sends when `c` has released: quanta 0; PAUSE on the last. -/
def State.sendXon (s : State) (p c : Nat) : State :=
  match (s.port p).fcMode with
  | 2 => s.sendCtl p (s.pfcFrame p (2 ^ c) 0)
  | 1 => if s.xoffVec p = 0 then s.sendCtl p (s.pauseFrame p 0) else s
  | _ => s

/-- Assert XOFF (R147). -/
def State.assertXoff (s : State) (p c : Nat) : State :=
  if (s.portClass p c).xoff then s
  else ((s.updPortClass p c (fun q => { q with xoff := true })).bumpBufAt (portSlice p) 11 1).sendXoff p c

/-- Release XOFF (R147). -/
def State.releaseXoff (s : State) (p c : Nat) : State :=
  if (s.portClass p c).xoff then
    ((s.updPortClass p c (fun q => { q with xoff := false })).bumpBufAt (portSlice p) 12 1).sendXon p c
  else s

/-- The two conditions of R147 for one port and priority; a lossy class asserts nothing. -/
def State.xoffOne (s : State) (k : Nat) : State :=
  let p := k / 8
  let c := k % 8
  let q := s.portClass p c
  let t := s.txoff128 p c
  if (s.classCfg c).lossless = false then s.releaseXoff p c
  else if q.xoff then
    if 128 * (q.cShared + q.cHead) ≤ t - 128 * q.xonDelta then s.releaseXoff p c else s
  else if q.cShared ≠ 0 ∧ t ≤ 128 * q.cShared then s.assertXoff p c
  else s

/-- Txoff is recomputed whenever a charge changes. -/
def State.xoffSweep (s : State) : State := (s.buf.portClass.map (·.1)).foldl State.xoffOne s

/-! ### Charging (R135, R136) -/

/-- Charge `n` cells to a port and priority, cell by cell; `f` is the free shared cells, `minC` and `headC` its
reservations, `num` 2^alpha, `soft` a host port, whose frames need no headroom (R378). None: the headroom is used up. -/
def chargeCells (minC headC num : Nat) (lossless soft : Bool) : Nat → PortClass → Nat → Option PortClass
  | 0, q, _ => some q
  | n + 1, q, f =>
    if q.cMin < minC then chargeCells minC headC num lossless soft n { q with cMin := q.cMin + 1 } f
    else if !lossless || soft then
      chargeCells minC headC num lossless soft n { q with cShared := q.cShared + 1 } (f - 1)
    else if !q.xoff && decide (0 < f) then
      let x := decide (min (128 * q.xoffLim) (num * (f - 1)) ≤ 128 * (q.cShared + 1))
      chargeCells minC headC num lossless soft n { q with cShared := q.cShared + 1, xoff := x } (f - 1)
    else if q.cHead < headC then
      chargeCells minC headC num lossless soft n { q with cHead := q.cHead + 1, xoff := true } f
    else none

/-- The port an ingress charge of a packet goes to: its ingress port, or the recirculation port of a queued copy. -/
def Pkt.chargePort (pk : Pkt) : Nat := if pk.viaMirQ then 516 + pk.slice else pk.inPort

/-- The charge record of a port and priority after the ingress charge of a packet; none: headroom used up. -/
def State.chargeOf (s : State) (pk : Pkt) : Option PortClass :=
  let p := pk.chargePort
  let c := pk.prio
  chargeCells (s.minOf p c) (s.headOf p c) (2 ^ (s.classCfg c).alpha) (s.classCfg c).lossless (decide (512 ≤ p)) pk.nCells
    (s.portClass p c) s.sharedFree

/-- Charged cells of a port and priority. -/
def PortClass.total (q : PortClass) : Nat := q.cMin + q.cShared + q.cHead

/-- Take the ingress charge; the XOFF that it raises is asserted and sent. -/
def State.charge (s : State) (pk : Pkt) (q : PortClass) : State :=
  let old := s.portClass pk.chargePort pk.prio
  let t := s.updPortClass pk.chargePort pk.prio (fun _ => { q with xoff := old.xoff, high := max q.high q.total })
  (if q.xoff then t.assertXoff pk.chargePort pk.prio else t).updPkt pk.id (fun x =>
    { x with charged := true, shared := q.cShared - old.cShared })

/-- Give back `n` cells of an ingress charge: headroom first, then shared cells, then the minimum. -/
def PortClass.release (q : PortClass) (n : Nat) : PortClass :=
  let h := min n q.cHead
  let sh := min (n - h) q.cShared
  { q with cHead := q.cHead - h, cShared := q.cShared - sh, cMin := q.cMin - (n - h - sh) }

/-- Give back `n` cells, of which `sh` were shared, of a queue's charge. -/
def QueueSt.release (q : QueueSt) (n sh : Nat) : QueueSt := { q with cells := q.cells - n, shared := q.shared - sh }

/-- End `n` cells of the charges of a packet to its queues. -/
def State.unchargeQ (s : State) (pk : Pkt) (n : Nat) : State :=
  pk.chargedQ.foldl (fun t q => t.updQueue q (fun x => x.release n (min n pk.shared))) s

/-- Charge a packet to the queues of its destinations (R135). -/
def State.chargeQ (s : State) (pk : Pkt) : State :=
  let ks := pk.dests.map (fun p => queueKey p pk.tc pk.slot)
  (ks.foldl (fun t k => t.updQueue k (fun q => { q with cells := q.cells + pk.nCells, shared := q.shared + pk.shared })) s).updPkt
    pk.id (fun x => { x with chargedQ := ks })

/-- End `n` cells of a packet's charges. -/
def State.uncharge (s : State) (pk : Pkt) (n : Nat) : State :=
  let t := if pk.charged then s.updPortClass pk.chargePort pk.prio (fun q => q.release n) else s
  t.unchargeQ pk n

/-- End every charge of a packet and free its cells. -/
def State.unhold (s : State) (pk : Pkt) : State :=
  let t := s.uncharge pk (if pk.cells.isEmpty then pk.nCells else pk.cells.length)
  { t with buf := t.buf.freeAll (pk.cells ++ pk.landing) }

/-! ### In-flight counts (R23, R89, R108) -/

/-- The packet is counted in flight: it entered step 1 and has not gone. -/
def Pkt.counted (pk : Pkt) : Bool := !(pk.bypass || pk.mirror.isSome || pk.dead)

/-- The packet leaves its epoch's count. -/
def State.leaveEpoch (s : State) (pk : Pkt) : State :=
  { s with
    prism := if !pk.counted then s.prism
      else if pk.epoch = s.prism.epoch then { s.prism with inCur := s.prism.inCur - 1 }
      else { s.prism with inPrev := s.prism.inPrev - 1 } }

/-- The packet leaves its generation's count. -/
def State.leaveGen (s : State) (pk : Pkt) : State :=
  { s with
    fwd := if !pk.counted then s.fwd
      else if pk.gen = s.fwd.gen then { s.fwd with inGenCur := s.fwd.inGenCur - 1 }
      else { s.fwd with inGenPrev := s.fwd.inGenPrev - 1 } }

/-- The packet leaves its epoch's and its generation's count. -/
def State.retire (s : State) (pk : Pkt) : State := (s.leaveEpoch pk).leaveGen pk

/-- A trapped packet leaves its epoch's count when it reaches the host FIFO or is dropped (R91). -/
def State.endTrap (s : State) (pk : Pkt) : State :=
  if pk.trapped then (s.leaveEpoch pk).updPkt pk.id (fun x => { x with trapped := false }) else s

/-- The packet leaves the way merge. -/
def State.leaveMerge (s : State) (pk : Pkt) : State :=
  { s with prism := { s.prism with
      merge := Tab.upd [] s.prism.merge pk.inPort (fun l => without l pk.id)
      recirc := Tab.upd [] s.prism.recirc pk.slice (fun l => without l pk.id) } }

/-! ### Mirror copies (R473 to R477) -/

/-- Longest frame, without FCS, that the destination of a session carries. -/
def State.mirRoom (s : State) (m : Mirror) : Nat := if m.dest < 512 then (s.port m.dest).maxLen - 4 else 9212

/-- Bytes of the outer headers of a mode, mirror header included. -/
def Mirror.overhead (m : Mirror) : Nat :=
  if m.mode = 0 then 0
  else 14 + (if m.vlan = 0 then 0 else 4) + (if m.mode = 1 ∨ m.mode = 3 then 20 else 40) + (if m.mode ≤ 2 then 4 else 8) + 32

/-- Bytes of the frame that a copy keeps. -/
def State.mirKeep (s : State) (m : Mirror) (n : Nat) : Nat :=
  min (min n (if m.trunc = 0 then n else m.trunc)) (s.mirRoom m - m.overhead)

/-- The mirror header of R475. -/
def State.mirHeader (s : State) (no : Nat) (m : Mirror) (src : Nat) (pk : Pkt) (n kept eg reason : Nat) : List Byte :=
  be 1 4 ++ be 1 1 ++ be 1 no ++ be 1 src ++ be 1 (b2n (decide (kept < n)) + 2 * b2n (s.time.state != .unset)) ++ be 1 pk.tc
    ++ be 2 (n + 4) ++ be 2 pk.inPort ++ be 2 eg ++ be 1 reason
    ++ be 1 s.devIndex ++ be 2 0 ++ be 4 m.seq
    ++ be 6 s.time.sec ++ be 4 s.time.ns ++ be 2 0

/-- The outer headers and the copy of a session; `f i` are free values for the fields R474 leaves unstated (PCP and DEI of
the outer tag, ECN, IP identification, flow label). -/
def Mirror.wrap (m : Mirror) (inPort : Nat) (hdr frame : List Byte) (f : Nat → Nat) : List Byte :=
  let eth := be 6 m.dmac ++ be 6 m.smac ++ (if m.vlan = 0 then [] else newTag (f 0 % 16 * 4096 + m.vlan % 4096))
  let body := hdr ++ frame
  let gre := be 2 0 ++ be 2 0x88B5 ++ body
  let sport := 49152 + inPort % 16384
  let tos := 4 * m.dscp % 256 + f 1 % 4
  match m.mode with
  | 0 => frame
  | 1 => eth ++ be 2 0x0800 ++ ipv4Hdr tos (f 2 % 2 ^ 16) 0x4000 m.ttl 47 m.src m.dst gre.length ++ gre
  | 2 => eth ++ be 2 0x86DD ++ ipv6Hdr tos (f 2) m.ttl 47 m.src m.dst gre.length ++ gre
  | 3 => eth ++ be 2 0x0800 ++ ipv4Hdr tos (f 2 % 2 ^ 16) 0x4000 m.ttl 17 m.src m.dst (8 + body.length)
      ++ udpPlain sport m.udp body
  | _ => eth ++ be 2 0x86DD ++ ipv6Hdr tos (f 2) m.ttl 17 m.src m.dst (8 + body.length)
      ++ udpOver6 m.src m.dst sport m.udp body

/-- The packet of a copy. -/
def Pkt.copyOf (pk : Pkt) (id no : Nat) (m : Mirror) (b : List Byte) (slice : Nat) (queued : Bool) : Pkt :=
  { Pkt.init with
    id, inPort := pk.inPort, slice, viaMirQ := queued, bytes := b, rxLen := b.length + 4, whole := true, vid := pk.vid,
    pcp := pk.pcp, pass := pk.pass, md := pk.md, rule := pk.rule, keyFlags := pk.keyFlags, prio := m.cls, tc := m.cls,
    dests := [m.dest], tagMode := 3, cause := 4, mirror := some no, tsSec := pk.tsSec, tsNs := pk.tsNs, tsFrac := pk.tsFrac,
    tsValid := pk.tsValid }

/-- The counters of a session take one more candidate: whether the candidate becomes a copy (every N-th does). -/
def State.mirCount (s : State) (no slice interval : Nat) : State × Bool :=
  let k := 16 * no + slice
  let n := Tab.get 0 s.tel.cand k + 1
  ({ s with tel := { s.tel with cand := Tab.set 0 s.tel.cand k (n % interval) } }, n % interval == 0)

/-- A copy is made: numbered, counted, and held as a packet of its own. Answers its number. -/
def State.mirMake (s : State) (no : Nat) (src : Nat) (pk : Pkt) (bytes : List Byte) (slice eg reason : Nat) : State × Nat :=
  let m := s.mirrorOf no
  let kept := s.mirKeep m bytes.length
  let hdr := s.mirHeader no m src pk bytes.length kept eg reason
  let b := m.wrap pk.inPort hdr (bytes.take kept) (fun i => Config.freeValue (s.free + i))
  let id := s.nextPkt
  let t := { s with
    pkts := Tab.set Pkt.init s.pkts id (pk.copyOf id no m b slice (src != 0))
    nextPkt := id + 1
    free := s.free + (if m.mode = 0 then 0 else 3)
    tel := { s.tel with mirrors := Tab.upd Mirror.init s.tel.mirrors no (fun x => { x with seq := (x.seq + 1) % 2 ^ 32 }) } }
  ((((t.bumpMirAt slice no 0 1).bumpMirAt slice no 1 b.length).bumpMirAt slice no 2 (b2n (decide (kept < bytes.length)))).bumpTel 5 1, id)

/-- An egress or drop copy waits in its slice's mirror queue of 256; beyond that it is dropped (R476). -/
def State.mirQueue (s : State) (no slice id : Nat) : State :=
  let q := Tab.get [] s.tel.mirQ slice
  if q.length < 256 then { s with tel := { s.tel with mirQ := Tab.set [] s.tel.mirQ slice (q ++ [id]) } }
  else ({ s with pkts := Tab.erase id s.pkts }).bumpMirAt slice no 3 1

/-- A candidate of an egress or drop source. -/
def State.mirOffer (s : State) (no src : Nat) (pk : Pkt) (bytes : List Byte) (slice eg reason : Nat) : State :=
  let m := s.mirrorOf no
  if !m.enable || m.interval == 0 then s
  else if (s.mirCount no slice m.interval).2 then
    let r := (s.mirCount no slice m.interval).1.mirMake no src pk bytes slice eg reason
    r.1.mirQueue no slice r.2
  else (s.mirCount no slice m.interval).1

/-- Drop reasons whose Mirror column allows a copy (R458). -/
def mirrorable : List Nat := [1, 3, 7, 8, 9, 10, 11, 12, 13, 14, 15, 17, 18, 19, 20, 21, 22, 26, 28, 30, 31]

/-- A drop session has made its copy of a frame that is still held, of whose copies more may be dropped (R473). -/
def State.mirDone (s : State) (id no : Nat) : State :=
  if (Tab.find s.pkts id).isSome then s.updPkt id (fun x => { x with mirDrops := insertRising no x.mirDrops }) else s

/-- A frame is a candidate of a drop session until the session has made a copy of it. -/
def State.mirDropTo (s : State) (pk : Pkt) (reason eg no : Nat) : State :=
  if (s.pkt pk.id).mirDrops.contains no then s
  else
    let t := s.mirOffer no 2 pk pk.bytes pk.slice eg reason
    if t.nextPkt = s.nextPkt then t else t.mirDone pk.id no

/-- Every drop session whose mask selects the reason takes the frame as a candidate. -/
def State.mirDrop (s : State) (pk : Pkt) (reason eg : Nat) : State :=
  if mirrorable.contains reason && pk.mirror.isNone then
    (s.tel.mirrors.filter (fun m => bit m.2.dropMask reason)).foldl (fun t m => t.mirDropTo pk reason eg m.1) s
  else s

/-! ### Drops (R458) -/

/-- The counter that a chapter keeps for a drop reason; `eg` is the egress port of a copy. -/
def State.countReason (s : State) (pk : Pkt) (reason eg : Nat) : State :=
  match reason with
  | 4 => s.bumpBufAt pk.slice 9 1
  | 5 => s.bumpPort eg 21 1
  | 6 => s.bumpPort eg 19 1
  | 7 => s.bumpPrism pk.slice 6 1
  | 8 => s.bumpPrism pk.slice 9 1
  | 9 => s.bumpPrism pk.slice 10 1
  | 10 => s.bumpFwdAt pk.slice 20 1
  | 11 => s.bumpFwdAt pk.slice 21 1
  | 12 => s.bumpFwdAt pk.slice 17 1
  | 13 => s.bumpFwdAt pk.slice 18 1
  | 14 => s.bumpFwdAt pk.slice 4 1
  | 17 => s.bumpSchedAt pk.slice 8 1
  | 21 => s.bumpBufAt pk.slice 2 1
  | 22 => s.bumpBufAt pk.slice 3 1
  | 23 => s.bumpBufAt pk.slice 5 1
  | 24 => s.bumpBufAt pk.slice 8 1
  | 25 => s.bumpFabAt (portSlice eg) 11 1
  | 26 => s.bumpTime eg 5 1
  | 27 => s.bumpTime eg 6 1
  | _ => s

/-- A buffer counter of drops; a mirror copy counts for its session only (R160, R477). -/
def State.bumpBufOf (s : State) (pk : Pkt) (i : Nat) : State := if pk.mirror.isSome then s else s.bumpBufAt pk.slice i 1

/-- Count the drop of a frame or copy; a mirror copy counts for its session only. -/
def State.countQuiet (s : State) (pk : Pkt) (reason eg : Nat) : State :=
  match pk.mirror with
  | some m => s.bumpMirAt pk.slice m 3 1
  | none => (s.countReason pk reason eg).bumpDrop pk.inPort reason

/-- Count the drop and offer the frame to the drop sessions. -/
def State.countDrop (s : State) (pk : Pkt) (reason eg : Nat) : State := (s.countQuiet pk reason eg).mirDrop pk reason eg

/-- A packet goes: its entry is erased, or kept as dead until its last byte has come. -/
def State.forget (s : State) (pk : Pkt) : State :=
  if pk.whole then { s with pkts := Tab.erase pk.id s.pkts }
  else s.updPkt pk.id (fun x => { x with dead := true, cells := [], landing := [], chargedQ := [], charged := false, dests := [] })

/-- A packet leaves without a drop reason: charges, cells, counts and merge place are given back. -/
def State.release (s : State) (id : Nat) : State :=
  match Tab.find s.pkts id with
  | none => s
  | some pk => (((((s.endTrap pk).unhold pk).leaveMerge pk).forget { pk with trapped := false }).xoffSweep)

/-- A packet that has not been admitted is dropped. -/
def State.dropPkt (s : State) (id reason : Nat) : State :=
  match Tab.find s.pkts id with
  | none => s
  | some pk => ((s.countDrop pk reason 0xFFFF).retire pk).release id

end Sys2Proof.Machine
end

