-- ==== Sys2Proof/Machine/Cells.lean ====
section
/-! DEFINITION. The path of a packet from its VOQ to its egress queue: starting frames, cells on the plane links, the
resequencer, egress queues and release credits (R161 to R179). -/

namespace Sys2Proof.Machine

/-! ### VOQs (R161 to R166) -/

/-- The key of a VOQ in the list of those in spill. -/
def spillKey (sl v : Nat) : Nat := 32800 * sl + v

/-- A VOQ leaves spill (R153). -/
def State.leaveSpill (s : State) (sl v : Nat) : State :=
  let t := s.updVoq sl v (fun q => { q with readback := false })
  { t with buf := { t.buf with spillVoqs := without t.buf.spillVoqs (spillKey sl v) } }

/-- On-chip cells of a VOQ. -/
def State.voqCells (s : State) (sl v : Nat) : Nat := ((s.voq sl v).q.map (fun id => (s.pkt id).nCells)).sum

/-- Bytes a frame adds to the requests of its VOQ: a gated class asks only for whole frames, by their transmitted length
(R235). -/
def State.askBytes (s : State) (pk : Pkt) (p : Nat) : Option Nat :=
  if s.gated p pk.tc then (if pk.whole then some (pk.outLen p) else none) else some pk.len

/-- A frame's bytes enter the request count. -/
def State.ask (s : State) (pk : Pkt) (p v : Nat) : State :=
  match s.askBytes pk p with
  | some n =>
    if pk.asked then s
    else (s.updVoq pk.slice v (fun q => { q with unreq := q.unreq + n })).updPkt pk.id (fun x => { x with asked := true })
  | none => s

/-- A VOQ takes a frame. -/
def State.pushVoq (s : State) (pk : Pkt) (p v : Nat) : State :=
  (s.updVoq pk.slice v (fun q => { q with q := q.q ++ [pk.id], fresh := q.fresh || q.q.isEmpty })).ask pk p v

/-- Credit beyond `keep` goes back to the egress slice (R166). -/
def State.returnCredit (s : State) (sl v keep : Nat) : State :=
  let n := ((s.voq sl v).credit - keep).toNat
  if n = 0 then s
  else (s.updVoq sl v (fun q => { q with credit := q.credit - n, returning := q.returning + n })).bumpFabAt sl 3 1

/-- The quantum of a VOQ's egress port and class. -/
def State.quantum (s : State) (v : Nat) : Nat := (s.fabPort (voqPort v) (voqClass v)).quantum

/-- A VOQ that has become empty keeps at most one quantum, as standing credit held from now on (R166). -/
def State.standBy (s : State) (sl v : Nat) : State :=
  if (s.voq sl v).q.isEmpty then
    (s.updVoq sl v (fun q => { q with heldAt := s.upNs })).returnCredit sl v (s.quantum v)
  else s

/-- A frame may leave its VOQ: it is whole if it must be. -/
def State.mayStart (s : State) (pk : Pkt) (p : Nat) : Bool := pk.whole || !s.storeFwd pk p

/-- The head of a VOQ starts if the balance is above 0: its length is deducted and it is queued on its pair; a VOQ that
empties keeps at most one quantum (R163, R166). -/
def State.startOne (s : State) (sl v : Nat) : State :=
  match (s.voq sl v).q with
  | [] => s.standBy sl v
  | id :: rest =>
    let pk := s.pkt id
    if 0 < (s.voq sl v).credit ∧ s.mayStart pk (voqPort v) then
      ((s.updVoq sl v (fun q => { q with q := rest, credit := q.credit - pk.len })).updPair sl
        (portSlice (voqPort v)) (fun p => { p with sending := p.sending ++ [{ pkt := id, next := 0, multi := false }] })).standBy
        sl v
    else s

/-- Start heads while the balance lasts. -/
def State.startFrames (s : State) (sl v : Nat) : State :=
  ((s.voq sl v).q).foldl (fun t _ => t.startOne sl v) s

/-- Destination slices of a multi-destination packet. -/
def Pkt.dstSlices (pk : Pkt) : List Nat := (List.range 16).filter (fun d => pk.dests.any (fun p => portSlice p == d))

/-- A multi-destination packet crosses in one copy for each destination slice (R169). -/
def State.sendCopies (s : State) (pk : Pkt) : State :=
  let t := pk.dstSlices.foldl (fun t d => t.updPair pk.slice d (fun p =>
    { p with sending := p.sending ++ [{ pkt := pk.id, next := 0, multi := true }] })) s
  (t.updPkt pk.id (fun x => { x with refs := pk.nCells * pk.dstSlices.length })).bumpFabAt pk.slice 5 pk.dstSlices.length

/-- No copy of an earlier multi-destination packet waits on a pair that this one crosses. -/
def State.copyFree (s : State) (pk : Pkt) : Bool :=
  pk.dstSlices.all (fun d => !(s.pair pk.slice d).sending.any (fun x => x.multi))

/-- The head of one multi-destination queue starts, if the share leaves it bandwidth, no earlier copy waits on its pairs and
it is whole where any of its ports needs that. -/
def State.startMultiOf (s : State) (sl c : Nat) : State :=
  match Tab.get [] s.fab.multiQ (8 * sl + c) with
  | [] => s
  | id :: rest =>
    let pk := s.pkt id
    if s.fab.params.share ≠ 0 ∧ s.copyFree pk ∧ pk.dests.all (fun p => s.mayStart pk p) then
      ({ s with fab := { s.fab with multiQ := Tab.set [] s.fab.multiQ (8 * sl + c) rest } }).sendCopies pk
    else s

/-- The head of the highest non-empty multi-destination queue starts if it may: strict class priority (R169). -/
def State.startMulti (s : State) (sl : Nat) : State :=
  match [7, 6, 5, 4, 3, 2, 1, 0].find? (fun c => !(Tab.get [] s.fab.multiQ (8 * sl + c)).isEmpty) with
  | none => s
  | some c => s.startMultiOf sl c

/-! ### Cells (R167 to R174) -/

/-- Active planes, rising. -/
def State.activePlanes (s : State) : List Nat := (List.range 5).filter (fun p => (s.plane p).state == .active)

/-- Cells in flight on a link. -/
def FabSt.inFlight (f : FabSt) (link : Nat) : Nat := (f.links.filter (fun c => c.link == link)).length

/-- The plane for the next cell of a slice: fewest cells in flight, ties in the slice's round robin (R170). -/
def State.pickPlane (s : State) (sl : Nat) : Option Nat :=
  let order := ((List.range 5).map (fun i => (Tab.get 0 s.fab.rr sl + i) % 5)).filter (fun p => (s.plane p).state == .active)
  order.foldl (fun best p => match best with
    | none => some p
    | some b => if s.fab.inFlight (32 * p + sl) < s.fab.inFlight (32 * b + sl) then some p else some b) none

/-- The pair has room for the next cell of a packet (R173). -/
def Pair.hasRoom (p : Pair) (x : Sending) (port : Nat) : Bool :=
  decide (p.out.length < 256) && (x.multi || decide ((p.out.filter (fun c => !c.multi && c.port == port)).length < 64))

/-- A cell of a packet is complete at the source: every cell but the last, and the last once the frame is whole (R171). -/
def Pkt.cellReady (pk : Pkt) (i : Nat) : Bool := decide (i + 1 < pk.nCells) || pk.whole

/-- The cell with index `i` of a packet (R167). -/
def Pkt.cell (pk : Pkt) (src dst seq i : Nat) (multi : Bool) : Cell :=
  { seq, src, dst, multi, port := if multi then 0 else pk.dests.headD 0, tc := pk.tc, slot := pk.slot, sop := i == 0,
    eop := i + 1 == pk.nCells, words := if i + 1 < pk.nCells then 7 else ceilDiv (pk.len - 256 * i) 32 - 1, pkt := pk.id }

/-- The packet that a pair sends the next cell of: the one it has begun, else the first whose port has room (R168, R173). -/
def State.nextSending (s : State) (sl d : Nat) : Option Sending :=
  let p := s.pair sl d
  match p.sending with
  | [] => none
  | x :: _ =>
    if x.next = 0 then some ((p.sending.find? (fun y => p.hasRoom y ((s.pkt y.pkt).dests.headD 0))).getD x) else some x

/-- A pair has a cell ready to go; and whether its window lets it. -/
def State.pairReady (s : State) (sl d : Nat) : Bool × Bool :=
  match s.nextSending sl d with
  | none => (false, false)
  | some x =>
    let pk := s.pkt x.pkt
    (pk.cellReady x.next, (s.pair sl d).hasRoom x (pk.dests.headD 0))

/-- The number that a link gives the next cell sent on it (R174). -/
def FabSt.nextNum (f : FabSt) (link : Nat) : Nat := Tab.get 0 f.linkNext link

/-- That number is used. -/
def FabSt.useNum (f : FabSt) (link : Nat) : FabSt := { f with linkNext := Tab.set 0 f.linkNext link (f.nextNum link + 1) }

/-- Send the next cell of a pair on a plane. -/
def State.sendCell (s : State) (sl d plane : Nat) : State :=
  match s.nextSending sl d with
  | none => s
  | some x =>
    let pk := s.pkt x.pkt
    let c := pk.cell sl d (s.pair sl d).nextSeq x.next x.multi
    let rest := (s.pair sl d).sending.filter (fun y => y.pkt != x.pkt)
    let t := s.updPair sl d (fun p =>
      { p with
        nextSeq := (p.nextSeq + 1) % 65536
        out := p.out ++ [c]
        sending := if c.eop then rest else ({ x with next := x.next + 1 } : Sending) :: rest })
    let k := 32 * plane + sl
    let l : LinkCell := { cell := c, link := k, sends := 1, since := s.upNs, lost := false, num := s.fab.nextNum k,
                          retries := s.fab.params.retries, budgetNs := s.fab.params.budgetNs }
    let u := { t with fab := { t.fab.useNum k with links := t.fab.links ++ [l], rr := Tab.set 0 t.fab.rr sl ((plane + 1) % 5) } }
    (u.updPkt pk.id (fun y => { y with crossed := true })).bumpFabAt sl 0 1

/-- Send the next cell of a pair if it is ready, its window has room and a plane is active. -/
def State.trySend (s : State) (sl d : Nat) : State :=
  match s.pickPlane sl with
  | some pl => if (s.pairReady sl d).1 && (s.pairReady sl d).2 then s.sendCell sl d pl else s
  | none => s

/-! ### Egress queues (R176, R186) -/

/-- The egress queue of a port, class and slot; host ports use slot 0. -/
def State.egq (s : State) (k : Nat) : List EgItem := Tab.get [] s.sched.egq k

/-- The transmit deficit of a node returns to 0. -/
def SchedSt.clearDef (x : SchedSt) (n : Nat) : SchedSt :=
  { x with nodes := Tab.upd (Node.dflt n) x.nodes n (fun y => { y with txDef := 0 }) }

/-- A tenant node, and its service node, with nothing left to serve lose their transmit deficits (R190). -/
def SchedSt.settle (x : SchedSt) (k : Nat) : SchedSt :=
  if 32768 ≤ k || x.waits k then x
  else if (List.range 8).any (fun t => x.waits (k / 8 * 8 + t)) then x.clearDef (8192 + k)
  else (x.clearDef (8192 + k)).clearDef (1024 + k / 8)

def State.setEgq (s : State) (k : Nat) (l : List EgItem) : State :=
  { s with sched := { s.sched with egq := Tab.set [] s.sched.egq k l }.settle k }

/-- Sequence numbers of a pair whose cells have left the egress: release credits return (R172). -/
def State.credit (s : State) (src dst : Nat) (l : List Nat) : State :=
  s.updPair src dst (fun p => { p with done := p.done ++ l })

/-- Outstanding credit of a port and class matched by a frame that has left (R165). -/
def State.matchCredit (s : State) (p c n : Nat) : State :=
  s.updFabPort p c (fun f => { f with outstanding := f.outstanding - n })

/-- Egress queues of a slice that hold a packet. -/
def State.holders (s : State) (dst id : Nat) : List Nat :=
  (s.sched.egq.filter (fun e => portSlice (voqPort e.1) == dst && e.2.any (fun i => i.pkt == id))).map (·.1)

/-- A frame leaves its egress queue for good: its cells are released, those of a multi-destination copy once the last port
of the slice is done. -/
def State.egLeave (s : State) (k : Nat) (i : EgItem) : State :=
  let dst := portSlice (voqPort k)
  let t := s.setEgq k ((s.egq k).filter (fun j => !(j.pkt == i.pkt && j.src == i.src)))
  let u := if i.multi then t else t.matchCredit (voqPort k) (voqClass k) (s.pkt i.pkt).len
  if i.multi && !(t.holders dst i.pkt).isEmpty then u else u.credit i.src dst i.cells

/-- A queued copy is dropped with a reason. -/
def State.egDrop (s : State) (k reason : Nat) (i : EgItem) : State :=
  (s.countDrop (s.pkt i.pkt) reason (voqPort k)).egLeave k i

/-- Take a packet out of every queue it waits in; credit a started frame was charged goes back to its VOQ, and a VOQ whose
last spilled frame goes leaves spill (R153). -/
def State.pull (s : State) (pk : Pkt) : State :=
  let p := pk.dests.headD 0
  let v := voqNo p pk.tc pk.slot
  let pr := s.pair pk.slice (portSlice p)
  let q := s.voq pk.slice v
  let a := if pk.multi || pk.dests.isEmpty then s
    else if q.q.contains pk.id then (s.updVoq pk.slice v (fun q => { q with q := without q.q pk.id })).standBy pk.slice v
    else if pr.sending.any (fun x => x.pkt == pk.id) then
      (s.updVoq pk.slice v (fun q => { q with credit := q.credit + pk.len })).standBy pk.slice v
    else if q.spillQ.contains pk.id then
      let t := (s.updVoq pk.slice v (fun q => { q with spillQ := without q.spillQ pk.id })).updQueue (queueKey p pk.tc pk.slot)
        (fun q => { q with spilled := q.spilled - (if pk.spilled then pk.nCells else 0) })
      if q.spillQ == [pk.id] then t.leaveSpill pk.slice v else t
    else s
  let b := { a with fab := { a.fab with multiQ := Tab.upd [] a.fab.multiQ (8 * pk.slice + pk.tc) (fun l => without l pk.id) } }
  pk.dstSlices.foldl (fun t d => t.updPair pk.slice d (fun q =>
    { q with sending := q.sending.filter (fun x => x.pkt != pk.id) })) b

/-! ### Gating windows (R237, R240) -/

/-- Transmit time of a frame in units of 1 / (rate) ns: bits * 1; compare `txBits ≤ window * gbps`. -/
def txBits (len : Nat) : Nat := (len + 20) * 8

/-- Gate states of a list spread over one cycle: (start, end, states); entries are cut at the cycle's end and the last one
holds until it. -/
def gateSpans (cycle : Nat) : Nat → List GateEntry → List (Nat × Nat × Nat)
  | _, [] => []
  | at', [e] => if at' < cycle then [(at', cycle, e.states)] else []
  | at', e :: r =>
    if at' < cycle then (at', min cycle (at' + e.interval), e.states) :: gateSpans cycle (at' + e.interval) r else []

/-- Longest run of open spans; `run` is the run in progress. -/
def longestRun (c : Nat) : List (Nat × Nat × Nat) → Nat → Nat
  | [], run => run
  | x :: r, run => if bit x.2.2 c then longestRun c r (run + (x.2.1 - x.1)) else max run (longestRun c r 0)

/-- The longest open window of a class: none where its gate is open in every entry (R237, R240). -/
def GateList.longest (g : GateList) (c : Nat) : Option Nat :=
  let sp := gateSpans g.cycle 0 g.entries
  if sp.all (fun x => bit x.2.2 c) then none else some (min g.cycle (longestRun c (sp ++ sp) 0))

/-- A gated frame never fits (R240). -/
def State.neverFits (s : State) (p c len : Nat) : Bool :=
  s.gated p c && (match (s.gate p).oper.longest c with
    | none => false
    | some w => decide (w * s.speed p < txBits len))

/-- What stops a copy at the entry of its egress queue: LINK_DOWN (R39), PFC_STORM (R50), a multi-destination copy that
never fits (R240) or is stored and too long (R44). -/
def State.egRefusal (s : State) (pk : Pkt) (p : Nat) (multi : Bool) : Option Nat :=
  if 512 ≤ p then none
  else if (s.port p).link = false then some 5
  else if bit (s.port p).storm pk.tc then some 6
  else if multi && s.storeFwd pk p && decide ((s.port p).maxLen < pk.outLen p) then some 3
  else if multi && s.neverFits p pk.tc (pk.outLen p) then some 26
  else none

/-- The first cell of a copy enters the egress queue of one port, or the copy is dropped. -/
def State.egOpen (s : State) (c : Cell) (pk : Pkt) (p : Nat) : State :=
  if pk.gone then s.matchCredit p pk.tc pk.len
  else match s.egRefusal pk p c.multi with
  | some r => let t := s.countDrop pk r p
      if c.multi then t else t.matchCredit p pk.tc pk.len
  | none =>
    let k := voqNo p pk.tc pk.slot
    s.setEgq k (s.egq k ++
      [{ pkt := pk.id, src := c.src, cells := [c.seq], complete := c.eop, started := false, multi := c.multi,
         stomp := false }])

/-- A further cell of a copy joins its entry. -/
def State.egMore (s : State) (c : Cell) (k : Nat) : State :=
  s.setEgq k ((s.egq k).map (fun i => if i.pkt = c.pkt ∧ i.src = c.src then
    { i with cells := i.cells ++ [c.seq], complete := i.complete || c.eop } else i))

/-- A cell released in order passes to the egress queues of its ports (R176); a cell that no queue takes is discarded. -/
def State.egTake (s : State) (dst : Nat) (c : Cell) : State :=
  let pk := s.pkt c.pkt
  let t := if c.sop then
      (if c.multi then pk.dests.filter (fun p => portSlice p == dst) else [c.port]).foldl (fun t p => t.egOpen c pk p) s
    else (s.holders dst c.pkt).foldl (fun t k => t.egMore c k) s
  if (t.holders dst c.pkt).isEmpty then t.credit c.src dst [c.seq] else t

/-! ### Resequencing (R176, R177) -/

/-- Cells in order from the expected slot pass on; in skip mode a cell without SOP is discarded (R178 step 4). -/
def State.reseqRelease (s : State) (src dst : Nat) : Nat → State
  | 0 => s
  | n + 1 =>
    let p := s.pair src dst
    match Tab.find p.stored (p.expected % 256) with
    | none => s
    | some c =>
      let skip := p.skipSop && !c.sop
      let t := s.updPair src dst (fun q =>
        { q with expected := (q.expected + 1) % 65536, stored := Tab.erase (p.expected % 256) q.stored, skipSop := skip })
      (if skip then t.credit src dst [c.seq] else t.egTake dst c).reseqRelease src dst n

/-- The gap timer starts when cells wait behind an empty expected slot. -/
def State.reseqGap (s : State) (src dst : Nat) : State :=
  let p := s.pair src dst
  if !p.gapOpen && !p.stored.isEmpty then
    (s.updPair src dst (fun q => { q with gapOpen := true, gapSince := s.upNs })).bumpFabAt dst 8 1
  else s

/-- A good cell at its egress slice (R176). -/
def State.reseq (s : State) (c : Cell) : State :=
  let p := s.pair c.src c.dst
  let off := (c.seq + 65536 - p.expected) % 65536
  if 256 ≤ off then s.bumpFabAt c.dst 12 1
  else
    let t := s.updPair c.src c.dst (fun q => { q with stored := Tab.insert (c.seq % 256) c q.stored })
    if off ≠ 0 then t.reseqGap c.src c.dst
    else
      let u := if p.gapOpen then (t.updPair c.src c.dst (fun q => { q with gapOpen := false })).bumpFabAt c.dst 9 1 else t
      (u.reseqRelease c.src c.dst 256).reseqGap c.src c.dst

/-! ### Release credits at the source (R172) -/

/-- One cell of a packet is freed at the source and ends its charge; a multi-destination packet's cells stay until every
copy is released (R169). -/
def State.freeCell (s : State) (c : Cell) : State :=
  match Tab.find s.pkts c.pkt with
  | none => s
  | some pk =>
    if c.multi then
      if pk.refs ≤ 1 then s.release c.pkt else s.updPkt c.pkt (fun x => { x with refs := x.refs - 1 })
    else if pk.cells.length ≤ 1 then s.release c.pkt
    else
      let t := s.uncharge pk 1
      ({ t with buf := t.buf.freeAll (pk.cells.take 1) }).updPkt c.pkt (fun x =>
        { x with cells := x.cells.drop 1, shared := x.shared - 1 })

/-- The release credits of a pair reach the source. -/
def State.takeCredits (s : State) (src dst : Nat) : State :=
  let p := s.pair src dst
  let gone := p.out.filter (fun c => p.done.contains c.seq)
  let left := p.out.filter (fun c => !p.done.contains c.seq)
  let t := s.updPair src dst (fun q =>
    { q with out := left, done := [], oldest := (left.map (·.seq)).headD q.nextSeq })
  (gone.foldl State.freeCell t).xoffSweep

/-! ### Egress mirroring (R473) -/

/-- A frame that has left whole is a candidate of its port's egress session; a mirror copy and a stomped frame are none. -/
def State.egMirror (s : State) (pk : Pkt) (p : Nat) (b : List Byte) (stomped : Bool) : State :=
  if (s.port p).mirEg < 64 ∧ pk.mirror.isNone ∧ stomped = false then s.mirOffer (s.port p).mirEg 1 pk b (portSlice p) p 0
  else s

end Sys2Proof.Machine
end

