-- ==== Sys2Proof/Machine/Health.lean ====
section
/-! DEFINITION. The state of the standby units, the health report's generation and the repair record (R260, R261, R268,
R499). -/

namespace Sys2Proof.Machine

/-- Physical cores of a cluster that are ready as spares: in no slot, not failed, not under test. -/
def Cluster.ready (c : Cluster) : List Nat :=
  (List.range 13).filter (fun k => !c.slots.contains (some k) && !c.failed.contains k && !c.testing.contains k)

/-- Slots with no core, where no substitution is pending. -/
def Cluster.lost (c : Cluster) : List Nat :=
  (List.range 12).filter (fun k => c.slots.getD k none == none && !(c.pendSub.map (·.1)).contains k)

/-- Planes in service: the ACTIVE ones, and a standby that is joining them (R181). -/
def State.planesServing (s : State) : Nat :=
  ((List.range 5).filter (fun k => (s.plane k).state == .active || ((s.plane k).state == .standby && (s.plane k).switching))).length

/-- Planes that stand by. -/
def State.planesReady (s : State) : Nat :=
  ((List.range 5).filter (fun k => (s.plane k).state == .standby && !(s.plane k).switching)).length

/-- Processors in a state. -/
def State.mpsIn (s : State) (x : MpState) : Nat := ((List.range 2).filter (fun k => (s.mp k).state == x)).length

/-- A unit has failed with no standby. -/
def State.impaired (s : State) : Bool :=
  decide (s.planesServing < 4) || (List.range 16).any (fun k => !(s.cluster k).lost.isEmpty)
    || s.mpsIn .active == 0 || s.groups.any (fun g => g.2.dead != 0)
    || s.pwr.hbms.any (fun k => k.2.unspared)

/-- Some unit lacks its standby. -/
def State.degraded (s : State) : Bool :=
  s.planesReady == 0 || (List.range 16).any (fun k => (s.cluster k).ready.isEmpty) || s.mpsIn .standby == 0
    || s.groups.any (fun g => g.2.spare != 0) || s.pwr.hbms.any (fun k => k.2.spare != 0)

/-- Overall state (R268): 0 NOMINAL, 1 DEGRADED, 2 IMPAIRED. -/
def State.overall (s : State) : Nat := if s.impaired then 2 else if s.degraded then 1 else 0

/-- A field of the health report has changed: its generation rises and HEALTH_CHANGED is raised (R268, R269). -/
def State.healthChanged (s : State) : State :=
  let t := { s with pwr := { s.pwr with healthGen := (s.pwr.healthGen + 1) % 2 ^ 32 } }
  t.raise 0x0909 sevInfo (le 4 t.pwr.healthGen ++ le 1 t.overall)

/-- The same, where a field has changed. -/
def State.healthIf (s : State) (b : Bool) : State := if b then s.healthChanged else s

/-- The fields of the health report that a boot may change; counts, times and lanes left out (R268). -/
def State.healthView (s : State) : List (List PlaneState × List Nat) × List MpState × List (Nat × Nat) × List Nat :=
  ((List.range 5).map (fun k => ([(s.plane k).state], [(s.plane k).cause]))
      ++ (List.range 16).map (fun c => ([], (s.cluster c).ready.length :: (s.cluster c).failed)),
    [(s.mp 0).state, (s.mp 1).state], (List.range 64).map (fun g => ((s.group g).spare, (s.group g).laneOnSpare)),
    s.ident.running :: s.overall :: (List.range 4).map (fun k => (s.stack k).spare))

/-- What a boot leaves: the generation rises where it has changed a field of the health report. -/
def State.healthSince (s before : State) : State := s.healthIf (decide (s.healthView ≠ before.healthView))

/-- Enter a unit into the repair record (R499). Kinds: 0 plane, 1 core 16 * cluster + core, 2 processor, 3 datapath 8 *
group + lane, 4 pseudo-channel 32 * stack + number, 5 row repair of a pseudo-channel, 6 spare datapath of a group, 7 spare
pseudo-channel of a stack. -/
def State.repairAdd (s : State) (kind unit : Nat) : State :=
  { s with pwr := { s.pwr with
      repairLog := if s.pwr.repairLog.contains (kind, unit) then s.pwr.repairLog else s.pwr.repairLog ++ [(kind, unit)] } }

/-- Take a unit out of the repair record. -/
def State.repairDel (s : State) (kind unit : Nat) : State :=
  { s with pwr := { s.pwr with repairLog := s.pwr.repairLog.filter (fun u => u != (kind, unit)) } }

/-- Health byte of a lane (R268). -/
def LaneSt.health (l : LaneSt) : Nat :=
  b2n l.stale + 2 * b2n l.below + 4 * b2n l.parked + 8 * b2n (l.mode == 0)

/-- Change a lane's record, with the health report's lane byte. -/
def State.setLane (s : State) (i : Nat) (f : LaneSt → LaneSt) : State :=
  (s.updLane i f).healthIf ((f (s.lane i)).health != (s.lane i).health)

/-- Change lanes `i, i + 1, ...`; one change of the health report. -/
def State.setLanes (s : State) (i n : Nat) (f : Nat → LaneSt → LaneSt) : State :=
  let t := (List.range n).foldl (fun t k => t.updLane (i + k) (f k)) s
  t.healthIf ((List.range n).any (fun k => (f k (s.lane (i + k))).health != (s.lane (i + k)).health))

end Sys2Proof.Machine
end

