-- ==== Sys2Proof/Machine/PortBase.lean ====
section
/-! DEFINITION. What several families do to a port: Lane Throttle frames and the start of a widening (R55, R61), and the
link going down (R39, R47, R50, R59). -/

namespace Sys2Proof.Machine

/-- Full width of a port in lanes. -/
def State.fullWidth (s : State) (p : Nat) : Nat := modeWidth (s.lane p).mode

/-- Lanes in use now. -/
def State.widthNow (s : State) (p : Nat) : Nat := if (s.port p).lt.width = 0 then s.fullWidth p else (s.port p).lt.width

/-- Capabilities a port advertises: 1 lane only where its minimum width allows it, 2 lanes always (R55). -/
def LtSt.ownCaps (l : LtSt) : Nat := if l.minWidth = 1 then 3 else 2

/-- A Lane Throttle frame (R55). -/
def State.ltFrame (s : State) (p type txId target nak flags : Nat) : List Byte :=
  padFrame (be 6 0x0180C200000E ++ be 6 (s.port p).mac ++ be 2 0x88B5 ++ be 1 1 ++ be 1 1 ++ be 1 type ++ be 1 txId
    ++ be 1 target ++ be 1 (s.widthNow p) ++ be 1 (s.port p).lt.ownCaps ++ be 1 nak ++ be 1 flags)

/-- Send a Lane Throttle frame. -/
def State.ltSend (s : State) (p type txId target nak flags : Nat) : State :=
  s.sendCtl p (s.ltFrame p type txId target nak flags)

/-- Change the Lane Throttle record of a port. -/
def State.updLt (s : State) (p : Nat) (f : LtSt → LtSt) : State := s.updPort p (fun q => { q with lt := f q.lt })

/-- The lanes of a port above width `w` are parked in the quiet pattern, the others carry data (R53, R57). The last sample of a
parked lane is stale (R65). -/
def State.parkLanes (s : State) (p w : Nat) : State :=
  s.setLanes p (s.fullWidth p) (fun i l => { l with parked := decide (w ≤ i), stale := l.stale || decide (w ≤ i) })

/-- Start a widening: the parked transmitters rise as REQ for full width is sent (R57, R61). -/
def State.ltWiden (s : State) (p : Nat) : State :=
  if (s.port p).lt.state = .narrow then
    let id := ((s.port p).lt.txId + 1) % 256
    let t := (s.updLt p (fun l =>
      { l with state := .widening, initiator := true, txId := id, target := s.fullWidth p, sends := 1, haveAck := false,
               locked := false, sentSwitch := false })).parkLanes p (s.fullWidth p)
    t.ltSend p 2 id (s.fullWidth p) 0 0
  else s

/-- Bytes queued for an egress port: admitted frames that name it. -/
def State.queuedBytes (s : State) (p : Nat) : Nat :=
  (s.pkts.map (fun x => if x.2.dests.contains p && (x.2.spilled || !x.2.cells.isEmpty) then x.2.len else 0)).sum

/-- Queued egress bytes that reach the widen depth start a widening (R61). -/
def State.ltDepth (s : State) (p : Nat) : State :=
  if p < 512 ∧ (s.port p).lt.state = .narrow ∧ 1024 * (s.port p).lt.depth ≤ s.queuedBytes p then s.ltWiden p else s

/-- Egress queues of a port that hold frames. -/
def State.portQueues (s : State) (p : Nat) : List Nat :=
  (s.sched.egq.filter (fun e => voqPort e.1 == p)).map (·.1)

/-- Every frame in the egress queues of a port and class filter is dropped with a reason. -/
def State.dropQueued (s : State) (p reason : Nat) (keep : Nat → Bool) : State :=
  (s.portQueues p).foldl (fun t k =>
    if keep (voqClass k) then t else (t.egq k).foldl (fun u i => u.egDrop k reason i) t) s

/-- The frame in transmission is lost without a drop reason, counted where R459 says. -/
def State.loseTx (s : State) (p : Nat) (lostCtr : Option Nat) : State :=
  match (s.port p).txPkt, lostCtr with
  | some id, some c =>
    match (s.egq (s.port p).txQ).find? (fun i => i.pkt == id) with
    | some i => (s.egLeave (s.port p).txQ i).bumpPort p c 1
    | none => s
  | _, _ => s

/-- Every frame in the egress queues of a port is lost without a drop reason, counted where R459 says. -/
def State.loseQueued (s : State) (p ctr : Nat) : State :=
  (s.portQueues p).foldl (fun t k => (t.egq k).foldl (fun u i => (u.egLeave k i).bumpPort p ctr 1) t) s

/-- PFC_STORM_CLEAR for each class that was in storm state. -/
def State.stormClears (s : State) (p : Nat) : State :=
  (bitList 8 (s.port p).storm).foldl (fun t _ => t.raise 0x0202 sevInfo []) s

/-- The record of a port whose link has gone down: pauses and storm state end, the exchange of Lane Throttle is over and its
state is FULL at the next link-up. -/
def PortSt.down (q : PortSt) (sec ns : Nat) : PortSt :=
  { q with
    link := false
    pause := List.replicate 8 0
    storm := 0
    stormSeen := 0
    lpi := false
    txPkt := none
    txBytes := []
    ctlQueue := []
    lastSec := sec
    lastNs := ns
    lt := { q.lt with
      state := if q.lt.state = .disabled then .disabled else .full
      width := 0
      initiator := false
      target := 0
      sends := 0
      haveAck := false
      locked := false
      sentSwitch := false
      quietWindows := 0 } }

/-- The link of a port goes down. `lostCtr`: the counter of R459 for the frame in transmission and the waiting frames of
Moaras; without one they are dropped as LINK_DOWN with the queued ones. -/
def State.linkDown (s : State) (p : Nat) (lostCtr : Option Nat) : State :=
  if (s.port p).link then
    let t := (((s.stormClears p).loseTx p lostCtr).dropQueued p 5 (fun _ => false)).bumpPort p (lostCtr.getD 21)
      (s.waiting p).length
    (((t.parkLanes p (s.fullWidth p)).updPort p (fun q => q.down s.time.sec s.time.ns)).setWaiting p []).bumpPort p 15 1
  else s

end Sys2Proof.Machine
end

