-- ==== Sys2Proof/Machine/Admit.lean ====
section
/-! DEFINITION. Admission at step 7: the tests of lossy and lossless frames, WRED, spill, and the entry into a VOQ or
multi-destination queue with the express bypass (R132, R141 to R146, R152, R154, R171, R527). -/

namespace Sys2Proof.Machine

/-! ### WRED (R143 to R146) -/

/-- What the tests say for one destination queue. -/
structure QTest where
  /-- Drop reason, if the copy fails. -/
  reason : Option Nat
  /-- WRED_MARKED is counted and the copy marked or left CE. -/
  mark : Bool
deriving DecidableEq, Repr

/-- The curve of a colour. -/
def WredProfile.curve (w : WredProfile) (colour : Nat) : WredCurve :=
  match colour with
  | 0 => w.green
  | 1 => w.yellow
  | _ => w.red

/-- The curve acts on a frame at average depth `a` (16 fraction bits) with draw `x` of 32 bits (R145). -/
def WredCurve.acts (w : WredCurve) (a x : Nat) : Bool :=
  if a < 65536 * w.min then false
  else if 65536 * w.max ≤ a then true
  else decide (x * (w.max - w.min) * 65536 * 65536 < 2 ^ 32 * w.prob * (a - 65536 * w.min))

/-- The outcome of a curve that acts (R146). -/
def wredOutcome (w : WredProfile) (above : Bool) (ecn : Option Nat) : QTest :=
  match ecn, w.ecn with
  | some 3, true => ⟨none, true⟩
  | some 0, _ => ⟨some 22, false⟩
  | some _, true => if above && !w.markAbove then ⟨some 22, false⟩ else ⟨none, true⟩
  | _, _ => ⟨some 22, false⟩

/-- WRED of one queue for a frame. -/
def State.wredTest (s : State) (pk : Pkt) (k x : Nat) : QTest :=
  let q := s.queue k
  let w := q.held.getD (Tab.get WredProfile.init s.buf.wred q.profile)
  let c := w.curve pk.colour
  if q.wred && c.acts q.avg x then wredOutcome w (decide (65536 * c.max ≤ q.avg)) (ecnOf (pk.edit.getD pk.bytes)) else ⟨none, false⟩

/-! ### Lossy frames (R141, R527) -/

/-- The first cell of a frame lies beyond its minimum. -/
def State.beyond (s : State) (pk : Pkt) : Bool :=
  decide (s.minOf pk.chargePort pk.prio ≤ (s.portClass pk.chargePort pk.prio).cMin)

/-- Cells of a frame beyond its minimum. -/
def State.beyondCells (s : State) (pk : Pkt) : Nat :=
  pk.nCells - (s.minOf pk.chargePort pk.prio - (s.portClass pk.chargePort pk.prio).cMin)

/-- SHARED_LIMIT, then WRED, for the queue of one egress port. -/
def State.queueTest (s : State) (pk : Pkt) (x p : Nat) : QTest :=
  let k := queueKey p pk.tc pk.slot
  if s.beyond pk && decide (s.dynThr128 pk.tc ≤ 128 * (s.queue k).shared) then ⟨some 21, false⟩
  else s.wredTest pk k x

/-- The tests draw one number for a frame whose queues apply WRED (R145). -/
def State.draws (s : State) (pk : Pkt) : Bool := pk.dests.any (fun p => (s.queue (queueKey p pk.tc pk.slot)).wred)

/-- The draw is taken. -/
def State.takeDraw (s : State) (pk : Pkt) : State :=
  if s.draws pk then
    { s with free := s.free + 1, buf := { s.buf with lfsr := Tab.upd 0 s.buf.lfsr pk.slice (· + 1) } }
  else s

/-! ### Spill (R152, R154) -/

/-- A class may spill: lossy, spill enabled, and the spill region not empty (R28, R152). -/
def State.maySpill (s : State) (p c : Nat) : Bool :=
  decide (p < 512) && (s.classCfg c).spill && !(s.classCfg c).lossless && decide (0 < s.regionSize 1)

/-- The VOQ of a unicast frame is in spill. -/
def State.inSpill (s : State) (pk : Pkt) (p : Nat) : Bool :=
  decide (p < 512) && s.buf.spillVoqs.contains (spillKey pk.slice (voqNo p pk.tc pk.slot))

/-- A frame for a VOQ in spill goes to the spill region; with none, admission looks at on-chip cells alone (R28). -/
def State.toSpill (s : State) (pk : Pkt) (p : Nat) : Bool := s.inSpill pk p && decide (0 < s.regionSize 1)

/-- The region or the queue's limit leaves no room for a frame (R154). -/
def State.spillFull (s : State) (pk : Pkt) (p : Nat) : Bool :=
  let lim := (s.classCfg pk.tc).spillLim
  decide (s.regionSize 1 < s.spillBytes + 256 * pk.nCells)
    || (lim != 0 && decide (2 ^ 20 * lim ≤ 256 * (s.queue (queueKey p pk.tc pk.slot)).spilled))

/-- A frame is written to the spill region behind those before it. -/
def State.spillWrite (s : State) (pk : Pkt) (p : Nat) : State :=
  let v := voqNo p pk.tc pk.slot
  let t := (s.updVoq pk.slice v (fun q => { q with spillQ := q.spillQ ++ [pk.id] })).updQueue
    (queueKey p pk.tc pk.slot) (fun q => { q with spilled := q.spilled + pk.nCells })
  let u := t.updPkt pk.id (fun x => { x with spilled := true, admSec := s.time.sec, admNs := s.time.ns })
  (u.bumpBufAt pk.slice 0 1).bumpBufAt pk.slice 15 pk.nCells

/-- What drops a unicast frame at its VOQ: an inactive port number, whose VOQs hold nothing (R161; reason: log entry 101), a
stored frame too long for its egress (R44), or one received whole that never fits its gate (R240). -/
def State.voqRefusal (s : State) (pk : Pkt) (p : Nat) : Option Nat :=
  if 512 ≤ p then none
  else if s.portActive p = false then some 5
  else if s.storeFwd pk p && decide ((s.port p).maxLen < pk.outLen p) then some 3
  else if pk.whole && s.neverFits p pk.tc (pk.outLen p) then some 26
  else none

/-- An admitted frame is dropped at its queue. -/
def State.dropAdmitted (s : State) (pk : Pkt) (reason eg : Nat) : State := (s.countDrop pk reason eg).release pk.id

/-- An admitted frame joins the spilled part of its VOQ, unless the VOQ refuses it (R44, R161, R240). -/
def State.spillIn (s : State) (pk : Pkt) (p : Nat) : State :=
  match s.voqRefusal pk p with
  | some r => s.dropAdmitted pk r p
  | none => ((s.spillWrite pk p).ltDepth p).xoffSweep

/-- A VOQ whose on-chip cells have reached the threshold enters spill. -/
def State.spillEnter (s : State) (pk : Pkt) (p : Nat) : State :=
  let v := voqNo p pk.tc pk.slot
  let k := spillKey pk.slice v
  if s.maySpill p pk.tc && !s.buf.spillVoqs.contains k && decide ((s.classCfg pk.tc).spillThr ≤ s.voqCells pk.slice v) then
    ({ s with buf := { s.buf with spillVoqs := insertRising k s.buf.spillVoqs } }).bumpBufAt pk.slice 14 1
  else s

/-! ### Entry into the queues (R161, R169, R171) -/

/-- A frame received whole that never fits its gate is dropped out of its VOQ (R240). -/
def State.dropUnfit (s : State) (id p : Nat) : State :=
  let pk := s.pkt id
  if pk.whole && s.neverFits p pk.tc (pk.outLen p) then ((s.pull pk).countDrop pk 26 p).release id else s

/-- The conditions of the express bypass for a unicast frame (R171). -/
def State.expressOk (s : State) (pk : Pkt) (p : Nat) : Bool :=
  let v := voqNo p pk.tc pk.slot
  let q := s.voq pk.slice v
  let pr := s.pair pk.slice (portSlice p)
  s.fab.params.express && (s.fabPort p pk.tc).express && q.q.isEmpty && q.spillQ.isEmpty && decide (0 < q.credit)
    && pr.sending.isEmpty && pr.hasRoom { Sending.init with pkt := pk.id } p && !s.storeFwd pk p

/-- An admitted unicast frame enters its VOQ; while the VOQ is in spill, it waits behind the frames spilled before it
(R24). -/
def State.enqueueOne (s : State) (pk : Pkt) (p : Nat) : State :=
  match s.voqRefusal pk p with
  | some r => s.dropAdmitted pk r p
  | none =>
    let v := voqNo p pk.tc pk.slot
    if s.inSpill pk p then (s.updVoq pk.slice v (fun q => { q with spillQ := q.spillQ ++ [pk.id] })).ltDepth p
    else if s.expressOk pk p then
      ((((s.pushVoq pk p v).startOne pk.slice v).bumpFabAt pk.slice 1 1).trySend pk.slice (portSlice p)).ltDepth p
    else (((s.pushVoq pk p v).startFrames pk.slice v).spillEnter pk p).ltDepth p

/-- The conditions of the express bypass for a multi-destination frame. -/
def State.expressMulti (s : State) (pk : Pkt) : Bool :=
  s.fab.params.express && s.fab.params.share != 0
    && (Tab.get [] s.fab.multiQ (8 * pk.slice + pk.tc)).isEmpty
    && pk.dests.all (fun p => (s.fabPort p pk.tc).express && !s.storeFwd pk p)
    && pk.dstSlices.all (fun d => (s.pair pk.slice d).sending.isEmpty
      && (s.pair pk.slice d).hasRoom { Sending.init with multi := true } 0)

/-- An admitted multi-destination frame enters the queue of its class. -/
def State.enqueueMulti (s : State) (pk : Pkt) : State :=
  let k := 8 * pk.slice + pk.tc
  let t := { s with fab := { s.fab with multiQ := Tab.set [] s.fab.multiQ k (Tab.get [] s.fab.multiQ k ++ [pk.id]) } }
  pk.dests.foldl State.ltDepth (if s.expressMulti pk then
    pk.dstSlices.foldl (fun u d => u.trySend pk.slice d) ((t.startMultiOf pk.slice pk.tc).bumpFabAt pk.slice 1 1) else t)

/-- An admitted packet enters its queue. Ports 516 to 547 have no VOQ and no egress queue (R161): what is sent to one leaves the
cell buffer at once (log entry 100). -/
def State.enqueuePkt (s : State) (id : Nat) : State :=
  let pk := s.pkt id
  let l := pk.dests.filter (fun p => decide (p < 516))
  if l.isEmpty then s.release id
  else
    match l, pk.multi with
    | [p], false => s.enqueueOne pk p
    | _, _ => (s.updPkt id (fun x => { x with dests := l })).enqueueMulti { pk with dests := l }

/-! ### Admission -/

/-- The cells of a packet: its landing cells, or newly allocated ones; its queues are charged. -/
def State.takeCells (s : State) (pk : Pkt) : State :=
  let r := if pk.landing.isEmpty then s.buf.alloc pk.slice pk.nCells [] else (s.buf, pk.landing)
  (({ s with buf := r.1 }).chargeQ pk).updPkt pk.id (fun x =>
    { x with cells := r.2, landing := [], admSec := s.time.sec, admNs := s.time.ns })

/-- Admission commits a packet: it leaves its in-flight counts, a trapped one that of its epoch later (R23, R91); TRAPS and
COPIES count it (R94). -/
def State.commitPkt (s : State) (pk : Pkt) : State :=
  if pk.mirror.isSome then s.retire pk
  else if pk.cause = 1 then
    ((s.leaveGen pk).updPkt pk.id (fun x => { x with trapped := true })).bumpPrism pk.slice 7 1
  else (s.retire pk).bumpPrism pk.slice 8 (b2n (pk.cause == 2 || pk.copyHost.any pk.dests.contains))

/-- A packet whose ingress charge stands is admitted: cells, queue charges, counters, queue. -/
def State.acceptPkt (s : State) (id : Nat) : State :=
  let pk := s.pkt id
  let t := (((s.commitPkt pk).leaveMerge pk).takeCells pk).bumpBufAt pk.slice 0 1
  ((t.bumpBufAt pk.slice 1 pk.nCells).xoffSweep).enqueuePkt id

/-- XOFF for a frame that needs a shared cell or headroom and gets none (R147); a host port asserts nothing (R378). -/
def State.needXoff (s : State) (pk : Pkt) : State :=
  if pk.chargePort < 512 then s.assertXoff pk.chargePort pk.prio else s

/-- A lossless frame: admitted whenever its charge fits (R142). -/
def State.admitLossless (s : State) (pk : Pkt) : State :=
  if pk.charged then s.acceptPkt pk.id
  else match s.chargeOf pk with
    | some q => (s.charge pk q).acceptPkt pk.id
    | none => ((s.needXoff pk).dropPkt pk.id 24).raiseLimited 0x0501 sevWarning pk.inPort 1000000000 []

/-- The copies of a multi-destination frame whose queue fails are dropped (R527); the tests see `v`. -/
def State.dropCopies (s v : State) (pk : Pkt) (x : Nat) : State :=
  pk.dests.foldl (fun t p => match (v.queueTest pk x p).reason with
    | some r => t.countDrop pk r p
    | none => t) s

/-- WRED_MARKED for each copy that passes marked. -/
def State.markCopies (s v : State) (pk : Pkt) (x : Nat) : State :=
  let l := pk.dests.filter (fun p => (v.queueTest pk x p).reason.isNone && (v.queueTest pk x p).mark)
  (s.updPkt pk.id (fun y => { y with ce := l })).bumpBufAt pk.slice 4 l.length

/-- BUFFER_EXHAUSTED is counted once for each copy of a frame (R527). -/
def State.countExhausted (s : State) (pk : Pkt) : State := pk.dests.foldl (fun t p => t.countDrop pk 23 p) s

/-- BUFFER_EXHAUSTED for a frame that is not admitted. -/
def State.dropExhausted (s : State) (pk : Pkt) : State := ((s.countExhausted pk).retire pk).release pk.id

/-- A packet without its charges and landing cells: what the tests of R141 see. -/
def State.bare (s : State) (pk : Pkt) : State :=
  let t := s.uncharge pk (if pk.charged then pk.nCells else 0)
  ({ t with buf := t.buf.freeAll pk.landing }).updPkt pk.id (fun x =>
    { x with charged := false, shared := 0, chargedQ := [], landing := [] })

/-- A frame for whose rest no cell is left is discarded: what has left of it ends with a complemented FCS, a frame none of
which has left goes (R141). -/
def State.cutOff (s : State) (id : Nat) : State :=
  match Tab.find s.pkts id with
  | none => s
  | some pk =>
    if pk.dead then s
    else
      let t := (s.bumpBufOf pk 7).countExhausted pk
      if pk.crossed then t.updPkt id (fun x => { x with stomp := true }) else (t.pull pk).release id

/-- A frame with cells for its beginning alone: admitted with `n` cells, then discarded (R141). -/
def State.midFrame (s : State) (pk : Pkt) (n : Nat) : State :=
  let cut := fun (x : Pkt) => { x with
    bytes := x.bytes.take (256 * n - 4), edit := x.edit.map (fun b => b.take (256 * n - 4)), midCut := true }
  let t := (s.bare pk).updPkt pk.id cut
  match t.chargeOf (t.pkt pk.id) with
  | some q => ((t.charge (t.pkt pk.id) q).acceptPkt pk.id).cutOff pk.id
  | none => t.dropExhausted pk

/-- The BUFFER_EXHAUSTED rows for the frame as a whole, then the charge; `v` is the state without the frame's own charge.
A frame that finds no unreserved cell has lost the race of R132. Cells already charged keep their layer (R140). -/
def State.admitRest (s v : State) (pk : Pkt) : State :=
  if v.beyond pk && v.unreserved == 0 then (s.bumpBufOf pk 6).dropExhausted pk
  else if v.unreserved < v.beyondCells pk then s.midFrame pk (pk.nCells - (v.beyondCells pk - v.unreserved))
  else if pk.charged then s.acceptPkt pk.id
  else match s.chargeOf pk with
    | some q => (s.charge pk q).acceptPkt pk.id
    | none => s.dropExhausted pk

/-- A frame for a VOQ in spill: written to HBM, or dropped where the region, the queue's limit or the write bandwidth refuses
it (R30, R154); the row of R141 for U = 0 is not tested, as it takes no cell (log entry 113). -/
def State.admitSpill (s v : State) (pk : Pkt) (p : Nat) : State :=
  if v.spillFull pk p || s.contended then
    ((((s.drawn 1).bumpBufOf pk 17).dropPkt pk.id 23).raiseLimited 0x0502 sevWarning 0 1000000000 [])
  else ((((s.drawn 1).bare pk).retire pk).leaveMerge pk).spillIn pk p

/-- A lossy frame (R141, R527): the tests see the charges without the frame's own. -/
def State.admitLossy (s : State) (pk : Pkt) : State :=
  let v := s.bare pk
  let x := s.freeVal % 2 ^ 32
  match pk.dests, pk.multi with
  | [p], false =>
    if v.toSpill pk p then s.admitSpill v pk p
    else
      let r := v.queueTest pk x p
      let t := s.takeDraw pk
      match r.reason with
      | some c => t.dropPkt pk.id c
      | none =>
        ((t.updPkt pk.id (fun y => { y with ce := if r.mark then [p] else [] })).bumpBufAt pk.slice 4 (b2n r.mark)).admitRest v pk
  | _, _ =>
    let ok := pk.dests.filter (fun p => (v.queueTest pk x p).reason.isNone)
    let t := ((s.markCopies v pk x).takeDraw pk).dropCopies v pk x
    if ok.isEmpty then (t.retire pk).release pk.id
    else (t.updPkt pk.id (fun y => { y with dests := ok })).admitRest v { pk with dests := ok }

/-- Step 7 for a packet with destinations: its charge to its queues as a waiting frame ends, to begin anew on admission. -/
def State.toAdmission (s : State) (id : Nat) : State :=
  match Tab.find s.pkts id with
  | none => s
  | some pk0 =>
    let t := if pk0.charged then (s.unchargeQ pk0 pk0.nCells).updPkt id (fun x => { x with chargedQ := [] }) else s
    let pk := { pk0 with chargedQ := [] }
    if (t.classCfg pk.prio).lossless then t.admitLossless pk else t.admitLossy pk

end Sys2Proof.Machine
end

