-- ==== Sys2Proof/Machine/FixBase.lean ====
section
/-! DEFINITION. The fixity witness: flows, tap entries, skip notices, batch positions, records, batches and receipts (R276 to
R300). -/

namespace Sys2Proof.Machine

/-! ### Counters (R304 to R307) -/

/-- Add to the programmable counters of a core whose event is `code`. -/
def Core.count (k : Core) (code n : Nat) : Core :=
  { k with prog := (List.range 8).map (fun i =>
      (k.prog.getD i 0 + (if k.codes.getD i 0 = code then n else 0)) % 2 ^ 64) }

def State.core (s : State) (c n : Nat) : Core := Tab.get Core.init s.leaven.cores (16 * c + n)
def State.updCore (s : State) (c n : Nat) (f : Core → Core) : State :=
  { s with leaven := { s.leaven with cores := Tab.upd Core.init s.leaven.cores (16 * c + n) f } }
/-- Count an event of a core, if there is one. -/
def State.countCore (s : State) (c : Nat) (core : Option Nat) (code n : Nat) : State :=
  match core with
  | some k => s.updCore c k (fun x => x.count code n)
  | none => s

/-- Skips join those of the last second. -/
def FixClu.addSkip (f : FixClu) (now sk un : Nat) : FixClu :=
  { f with skips := f.skips.filter (fun x => decide (now < x.1 + 1000000000)) ++ [(now, sk, un)] }

/-- FIX_SKIPPED at most once a second for a cluster, with the counts of the last second (R307; log entry 104). -/
def State.skippedEvent (s : State) (c sk un : Nat) : State :=
  let t := s.updFix c (fun f => f.addSkip s.upNs sk un)
  let l := (t.fix c).skips
  t.raiseLimited 0x0A02 sevInfo c 1000000000 (le 1 c ++ le 4 (l.map (·.2.1)).sum ++ le 4 (l.map (·.2.2)).sum)

/-- FIX_LOG_FULL for a ring of a cluster, at most once a second for the cluster (R296). -/
def State.logFullEvent (s : State) (c ring : Nat) : State :=
  s.raiseLimited 0x0A01 sevWarning c 1000000000 (le 1 c ++ le 1 ring)

/-- Event codes that count cycles. -/
def cycleCode (code : Nat) : Bool := decide (4 ≤ code) && decide (code ≤ 10)

/-- The cycle counters as they stand when they are read: how far they have advanced, and how the slots divide, are free values
(log entry 3). The four slot counters sum to 4 * cycles when the core holds no work item, and to no more otherwise. -/
def Core.advance (k : Core) (busy : Bool) (f : Nat → Nat) : Core :=
  let dc := f 0 % 2 ^ 40
  let room := 4 * (k.cycles.toNat + dc) - (k.retired.toNat + k.wasted.toNat + k.front.toNat + k.back.toNat)
  let a := f 1 % (room + 1)
  let b := f 2 % (room - a + 1)
  let c := f 3 % (room - a - b + 1)
  let d := if busy then f 4 % (room - a - b - c + 1) else room - a - b - c
  { k with
    cycles := k.cycles + BitVec.ofNat 64 dc
    retired := k.retired + BitVec.ofNat 64 a
    wasted := k.wasted + BitVec.ofNat 64 b
    front := k.front + BitVec.ofNat 64 c
    back := k.back + BitVec.ofNat 64 d
    prog := (List.range 8).map (fun i =>
      (k.prog.getD i 0 + (if cycleCode (k.codes.getD i 0) then f (5 + i) % (dc + 1) else 0)) % 2 ^ 64) }

/-- A core's counters brought up to now (R303). -/
def State.readCore (s : State) (c n : Nat) : State :=
  (s.updCore c n (fun k => k.advance ((s.fix c).taps.any (fun t => t.core == some n)) (fun i => Config.freeValue (s.free + i)))).drawn
    13

/-! ### Batches (R289, R290) -/

/-- Records that a cluster's ring holds (R295). -/
def State.recCapacity (s : State) : Nat := s.regionSize 5 / 1024

/-- Closes are deferred: 16 receipts wait for the signing unit, or the receipt ring is full. -/
def FixClu.mustDefer (f : FixClu) : Bool := decide (16 ≤ f.signing.length) || f.rcHead - f.rcTail == 65536

/-- The open batch falls due for a reason; `key` is the old key of a key change. While closes are deferred it goes on taking
positions. -/
def FixClu.makeDue (f : FixClu) (reason : Nat) (key : Option Nat) : FixClu :=
  if f.cur.isOpen ∧ f.cur.due.isNone then
    if f.mustDefer then { f with cur := { f.cur with due := some reason, key, deferred := true } }
    else { f with due := f.due ++ [{ f.cur with due := some reason, key }], cur := Batch.init }
  else f

/-- A deferral begins: it is counted, and a full receipt ring is reported. -/
def State.deferred (s : State) (c : Nat) : State :=
  let t := s.bumpFix 12 1
  if (s.fix c).rcHead - (s.fix c).rcTail = 65536 then t.logFullEvent c 1 else t

/-- Make the open batch of a cluster due. -/
def State.fixDue (s : State) (c reason : Nat) (key : Option Nat) : State :=
  let t := s.updFix c (fun f => f.makeDue reason key)
  if (t.fix c).cur.deferred ∧ ¬ (s.fix c).cur.deferred then t.deferred c else t

/-- An unrecorded skip: the open batch counts it, opening one if none is (R284, R289). -/
def State.unrecorded (s : State) (c flow cause : Nat) : State :=
  let t := s.updFix c (fun f => { f with cur := { f.cur with isOpen := true, unrec := f.cur.unrec + 1 } })
  let u := (t.updFlow flow (fun f => { f with unrec := f.unrec + 1 })).bumpFix cause 1
  u.skippedEvent c 0 1

/-- The open batch holds 4,096 records and its close is deferred. -/
def Batch.full (b : Batch) : Bool := b.deferred && decide (4096 ≤ b.recs.length)

/-- A batch with one more position; `unlocked`: the time base was not LOCKED at the receive time (R292). -/
def Batch.reserve (b : Batch) (n : Nat) (unlocked : Bool) : Batch :=
  { b with isOpen := true, recs := b.recs ++ [(n, none)], unlocked := b.unlocked ++ (if unlocked then [n] else []) }

/-- Reserve the next position for a tap entry or notice; none: the batch is full. -/
def State.reservePos (s : State) (c n : Nat) (unlocked : Bool) : State × Bool :=
  if (s.fix c).cur.full then (s, false)
  else
    let t := s.updFix c (fun f => { f with cur := f.cur.reserve n unlocked })
    (if (t.fix c).size ≤ (t.fix c).cur.recs.length then t.fixDue c 0 none else t, true)

/-- A position is given up. -/
def Batch.drop (b : Batch) (n : Nat) : Batch :=
  { b with recs := b.recs.filter (fun r => r.1 != n), unlocked := b.unlocked.filter (· != n) }
/-- A record fills its position. -/
def Batch.fill (b : Batch) (n : Nat) (r : List Byte) : Batch :=
  { b with recs := b.recs.map (fun x => if x.1 = n ∧ x.2.isNone then (n, some r) else x) }
def State.dropPos (s : State) (c n : Nat) : State :=
  s.updFix c (fun f => { f with cur := f.cur.drop n, due := f.due.map (·.drop n) })
def State.fillPos (s : State) (c n : Nat) (r : List Byte) : State :=
  s.updFix c (fun f => { f with cur := f.cur.fill n r, due := f.due.map (·.fill n r) })

/-! ### Records (R281, R286 to R288) -/

/-- The locator of a frame under a profile's fixity key type (R281). -/
def locator (b : List Byte) (fixKey : Nat) : Nat :=
  let t := parseTags b
  let h := lookupHdr b t
  let l4 := t.l3 + (if h.fam = 4 then 20 else 40)
  if ¬ h.plain then 0
  else if fixKey = 2 then (if l4 + 20 ≤ b.length then fld b (l4 + 8) 1 * 2 ^ 24 + fld b (l4 + 17) 3 else 0)
  else if h.proto = 6 ∧ l4 + 8 ≤ b.length then fld b (l4 + 4) 4
  else 0

/-- The payload span of a frame under a profile (R280). -/
def fixSpan (b : List Byte) (p : Profile) : List Byte :=
  let o := (parseTags b).l3 + p.payOff
  slice b o (b.length - p.trailer - o)

/-- The record of a tap entry or notice. -/
def Tap.record (t : Tap) : List Byte :=
  let sk := t.skip != 0
  let sha := t.sha && !sk
  le 4 t.ns ++ le 6 t.sec ++ le 2 t.flow ++ le 2 t.num ++ le 2 t.port ++ le 2 t.spanLen
    ++ le 1 (b2n sk + 2 * b2n sha + 4 * b2n t.fcsBad + 8 * t.fate) ++ le 1 t.skip ++ le 4 t.locator
    ++ (if sk then le 8 0 else le 8 (crc64 t.span).toNat) ++ (if sha then sha256 t.span else List.replicate 32 0)

/-- Counter of a skip reason (R306). -/
def skipCtr (reason : Nat) : Nat := 2 + reason

/-- Counts of a record that has been written. -/
def State.countRecord (s : State) (c : Nat) (t : Tap) : State :=
  let sk := t.skip != 0
  let u := (s.bumpFix 1 1).updFlow t.flow (fun f =>
    { f with records := f.records + 1, skipped := f.skipped + (if sk then 1 else 0),
             spanBytes := f.spanBytes + (if sk then 0 else BitVec.ofNat 64 t.spanLen) })
  if sk then ((u.bumpFix 2 1).bumpFix (skipCtr t.skip) 1).skippedEvent c 1 0
  else u.bumpFix (if t.sha then 13 else 14) t.spanLen

/-- Write a record to its position, or count it unrecorded when the ring is full (R295, R296). -/
def State.writeRecord (s : State) (c : Nat) (t : Tap) : State :=
  if (s.fix c).recHead - (s.fix c).recTail = s.recCapacity then
    ((s.dropPos c t.id).unrecorded c t.flow 8).logFullEvent c 0
  else ((s.fillPos c t.id t.record).countRecord c t).countCore c t.core 3 1

/-! ### Tap entries (R278 to R285) -/

/-- Bytes of the tap FIFO in use. -/
def FixClu.tapBytes (f : FixClu) : Nat := (f.taps.map (·.reserved)).sum

/-- Work items that run on a core. -/
def FixClu.busyOn (f : FixClu) (k : Nat) : Nat := (f.taps.filter (fun t => t.core == some k)).length

/-- The fixity slot that takes the next work item: the lowest with a free thread (log entry 12). -/
def FixClu.freeCore (f : FixClu) (slots : List (Option Nat)) : Option Nat :=
  ((slots.take 11).filterMap id).find? (fun k => decide (f.busyOn k < 4))

/-- Waiting tap entries are given to free threads, oldest first. -/
def FixClu.dispatch (slots : List (Option Nat)) : Nat → FixClu → FixClu
  | 0, f => f
  | n + 1, f =>
    match f.freeCore slots, f.taps.find? (fun t => t.core.isNone && t.skip == 0) with
    | some k, some x => FixClu.dispatch slots n { f with taps := f.taps.map (fun t =>
        if t.id = x.id then { t with core := some k } else t) }
    | _, _ => f

def State.fixDispatch (s : State) (c : Nat) : State :=
  s.updFix c (fun f => f.dispatch (s.cluster c).slots 44)

/-- Largest span that the port's frame length limit allows, with the entry's 32-byte header (R282). -/
def State.tapNeed (s : State) (p start trailer : Nat) : Nat :=
  32 + ((if p < 512 then (s.port p).maxLen else 9216) - 4 - trailer - start)

/-- The tap entry that a frame would get. -/
def State.newTap (s : State) (pk : Pkt) (flow : Nat) (sha : Bool) (prof : Profile) : Tap :=
  { Tap.init with
    id := s.leaven.nextTap, pkt := pk.id, slice := pk.slice, flow, sha, num := (s.flow flow).next, port := pk.inPort,
    sec := pk.tsSec, ns := pk.tsNs, locator := locator pk.bytes prof.fixKey, span := fixSpan pk.bytes prof,
    spanLen := (fixSpan pk.bytes prof).length, unlocked := pk.unlocked,
    reserved := s.tapNeed pk.inPort ((parseTags pk.bytes).l3 + prof.payOff) prof.trailer }

/-- The tap decision for a frame whose X lookup hit an entry with this data word (R278, R279, R282 to R284). Whether the tap
interconnect is busy is a free value (log entry 86). -/
def State.tapDecision (s : State) (pk : Pkt) (w : BitVec 64) (prof : Profile) : State :=
  let flow := emIndex w
  let c := bits w.toNat 47 44
  let t := s.newTap pk flow (bit w.toNat 43) prof
  let u := ({ s with leaven := { s.leaven with nextTap := t.id + 1 } }).updFlow flow (fun f =>
    { f with next := (f.next + 1) % 65536, tapped := f.tapped + 1, cluster := c, sha := t.sha })
  let v := u.bumpFix 0 1
  let skip := if 1572864 < (v.fix c).tapBytes + t.reserved then 1 else if s.contended then 2 else 0
  let w := v.drawn 1
  if skip = 0 then
    ((w.updFix c (fun f => { f with taps := f.taps ++ [t] })).updPkt pk.id (fun x => { x with tap := some t.id })).fixDispatch c
  else w.updFix c (fun f => { f with transit := f.transit ++ [{ t with skip, span := [], reserved := 0 }] })

/-- The cluster that holds a tap entry. -/
def State.tapCluster (s : State) (n : Nat) : Option Nat :=
  (s.leaven.fix.find? (fun f => f.2.taps.any (fun t => t.id == n))).map (·.1)

/-- A tap entry goes and its thread is free. -/
def State.endTap (s : State) (c n : Nat) : State :=
  (s.updFix c (fun f => { f with taps := f.taps.filter (fun t => t.id != n) })).fixDispatch c

/-- An entry whose work item has been discarded gets its SKIPPED record: position and record at once. -/
def State.skipNow (s : State) (c : Nat) (t : Tap) : State :=
  let r := s.reservePos c t.id t.unlocked
  if r.2 then r.1.writeRecord c { t with core := none } else s.unrecorded c t.flow 10

/-- The last byte of a tapped frame has come: the entry is committed with its fate, and a position reserved. -/
def State.commitTap (s : State) (n : Nat) (fcsBad : Bool) (fate : Nat) : State :=
  match s.tapCluster n with
  | none => s
  | some c =>
    match (s.fix c).taps.find? (fun t => t.id == n) with
    | none => s
    | some t =>
      let x := { t with fcsBad, fate, committed := true, reserved := 32 + t.spanLen }
      if x.skip ≠ 0 then (s.endTap c n).skipNow c x
      else if (s.fix c).cur.full then ((s.endTap c n).countCore c t.core 2 1).unrecorded c t.flow 10
      else (s.updFix c (fun f => { f with taps := f.taps.map (fun y => if y.id = n then x else y) })).reservePos c n t.unlocked
        |>.1

/-- A tap entry is rewound (R285): its work is discarded, its record SKIPPED with span length 0. -/
def State.rewindTap (s : State) (n : Nat) (fcsBad : Bool) (fate : Nat) : State :=
  match s.tapCluster n with
  | none => s
  | some c =>
    match (s.fix c).taps.find? (fun t => t.id == n) with
    | none => s
    | some t =>
      let u := (s.endTap c n).countCore c t.core 2 1
      u.skipNow c { t with skip := if t.skip = 0 then 4 else t.skip, span := [], spanLen := 0, fcsBad, fate }

/-- The uncommitted entries of a slice are rewound (R299). -/
def State.rewindSlice (s : State) (sl : Nat) : State :=
  ((s.leaven.fix.flatMap (fun f => f.2.taps)).filter (fun t => t.slice == sl && !t.committed)).foldl
    (fun u t => u.rewindTap t.id false 2) s

/-! ### Closing (R290 to R294) -/

/-- One level of the tree of R291. -/
def treeLevel : List (List Byte) → List (List Byte)
  | a :: b :: r => sha256 (1#8 :: a ++ b) :: treeLevel r
  | l => l

/-- The root over hashed records, `n` levels at most. -/
def treeUp : Nat → List (List Byte) → List Byte
  | 0, l => l.headD []
  | n + 1, l => if l.length ≤ 1 then l.headD [] else treeUp n (treeLevel l)

/-- The root of a batch (R291). -/
def batchRoot (recs : List (List Byte)) : List Byte :=
  if recs.isEmpty then List.replicate 32 0 else treeUp 13 (recs.map (fun r => sha256 (0#8 :: r)))

/-- The key hash of a public key (R438). -/
def keyHash (kind n : Nat) : List Byte := sha256 (4#8 :: padTo 96 (Config.publicKey kind n))

/-- Receive time of a record, for comparison and as it stands in a receipt. -/
def recSec (r : List Byte) : Nat := rd r 4 6
def recNs (r : List Byte) : Nat := rd r 0 4
def recTime (r : List Byte) : Nat := 1000000000 * recSec r + recNs r
def timeField (sec ns : Nat) : List Byte := le 8 sec ++ le 4 ns ++ le 4 0

/-- The earliest and the latest receive time. -/
def firstTime (a : Nat) (recs : List (List Byte)) : Nat := recs.foldl (fun m r => min m (recTime r)) a
def lastTime (recs : List (List Byte)) : Nat := recs.foldl (fun m r => max m (recTime r)) 0
def timeFieldOf (n : Nat) : List Byte := timeField (n / 1000000000) (n % 1000000000)

/-- Bytes 0 to 159 of a receipt, chain sequence and chain-start flag still to come (R292). -/
def receiptHead (c key first sec ns : Nat) (b : Batch) : List Byte :=
  let recs := b.recs.filterMap (·.2)
  let sk := recs.filter (fun r => bit (rd r 18 1) 0)
  let ok := recs.filter (fun r => !bit (rd r 18 1) 0)
  let t0 := (recs.map recTime).headD (1000000000 * sec + ns)
  let t1 := if recs.isEmpty then 1000000000 * sec + ns else lastTime recs
  le 4 0x52434C4E ++ le 2 1 ++ le 2 288 ++ keyHash 2 key ++ le 4 key ++ le 1 c ++ le 1 (b.due.getD 0)
    ++ le 1 (2 * b2n b.deferred + 4 * b2n (!b.unlocked.isEmpty)) ++ le 1 0 ++ le 8 0 ++ le 8 first ++ le 4 recs.length
    ++ le 4 sk.length ++ le 4 b.unrec ++ le 4 0 ++ le 8 (ok.map (fun r => rd r 16 2)).sum ++ le 8 0
    ++ timeFieldOf (firstTime t0 recs) ++ timeFieldOf t1 ++ batchRoot recs

/-- Records moved to the ring from index `k`. -/
def putRecords (cap : Nat) : Nat → List (List Byte) → Tab (List Byte) → Tab (List Byte)
  | _, [], t => t
  | k, r :: l, t => putRecords cap (k + 1) l (Tab.insert (k % cap) r t)

/-- Every position of a batch has been written. -/
def Batch.written (b : Batch) : Bool := b.recs.all (fun r => r.2.isSome)

/-- A batch closes: its records stand in the ring, its receipt waits for the signing unit. -/
def State.closeBatch (s : State) (c : Nat) (b : Batch) : State :=
  let key := b.key.getD s.mbx.boots
  let recs := b.recs.filterMap (·.2)
  s.updFix c (fun f =>
    { f with signing := f.signing ++ [(key, receiptHead c key f.base s.time.sec s.time.ns b)], base := f.base + recs.length,
             records := putRecords s.recCapacity f.base recs f.records })

/-- The cause of a deferral has cleared: the deferred open batch takes no more positions and closes as soon as it is written
(R290). -/
def FixClu.undefer (f : FixClu) : FixClu :=
  if f.cur.deferred ∧ ¬ f.mustDefer then { f with due := f.due ++ [f.cur], cur := Batch.init } else f

/-- The oldest due batch of a cluster closes, or its close is deferred (R290). -/
def State.closeDue (s : State) (c : Nat) : State :=
  let f := s.fix c
  match f.due with
  | b :: rest =>
    if ¬ b.written then s
    else if f.mustDefer then
      let t := if b.deferred then s else s.deferred c
      t.updFix c (fun g =>
        if rest.isEmpty ∧ ¬ g.cur.isOpen then { g with due := [], cur := { b with deferred := true } }
        else { g with due := { b with deferred := true } :: rest })
    else (s.updFix c (fun g => { g with due := rest })).closeBatch c b
  | [] => s

/-- The same, once a deferral that is over has ended. -/
def State.fixClose (s : State) (c : Nat) : State := (s.updFix c FixClu.undefer).closeDue c

/-- A deferred close is made up as soon as its cause clears. -/
def State.fixRetry (s : State) (c : Nat) : State :=
  let t := s.updFix c FixClu.undefer
  if ((t.fix c).due.headD Batch.init).deferred then t.closeDue c else t

/-- The batches that have not closed when the receipt key changes keep the old key; the open one closes with reason KEY_CHANGE,
deferred or not (R290). -/
def FixClu.keepKey (f : FixClu) (old : Nat) : FixClu :=
  { f with
    due := f.due.map (fun b => { b with key := some (b.key.getD old) })
    cur := if f.cur.due.isSome then { f.cur with due := some 3, key := some (f.cur.key.getD old) } else f.cur }

/-- The open batch of every cluster closes under the old key (R438). -/
def State.fixKeyChange (s : State) (old : Nat) : State :=
  (List.range 16).foldl (fun t c => (t.updFix c (fun f => f.keepKey old)).fixDue c 3 (some old)) s

/-- The record that position `k` of the batches not yet closed has written. -/
def FixClu.openRecord (f : FixClu) (k : Nat) : Option (List Byte) :=
  (((f.due ++ [f.cur]).flatMap (·.recs)).getD k (0, none)).2

/-- The record in a slot of a cluster's ring (R295): one of a batch not yet closed as soon as its position is filled, else that
of the latest closed batch there. -/
def State.slotRecord (s : State) (c slot : Nat) : List Byte :=
  let f := s.fix c
  let cap := s.recCapacity
  let k := (slot + cap - f.base % cap) % cap
  (f.openRecord k).getD (Tab.get [] f.records slot)

end Sys2Proof.Machine
end

