-- ==== Sys2Proof/Machine/TimeBase.lean ====
section
/-! DEFINITION. The time base as a number, one TCLK cycle of it, and the timestamp format (R214, R215, R217). -/

namespace Sys2Proof.Machine

/-- The nominal increment, 1.25 ns in units of 2^-48 ns (R214). -/
def nominalIncr : Nat := 0x0001400000000000

/-- 500 ppm of the nominal increment, to the nearest unit (R217). -/
def slewStep : Nat := (nominalIncr * 500 + 500000) / 1000000

/-- The time of day in units of 2^-48 ns. -/
def TimeBase.units (t : TimeBase) : Nat := (1000000000 * t.sec + t.ns) * 2 ^ 48 + t.frac

/-- The time base set to a time of day given in units; 48-bit seconds. -/
def TimeBase.setUnits (t : TimeBase) (n : Nat) : TimeBase :=
  { t with sec := n / 2 ^ 48 / 1000000000 % 2 ^ 48, ns := n / 2 ^ 48 % 1000000000, frac := n % 2 ^ 48 }

/-- What one TCLK cycle takes of the slew in progress (R217). -/
def TimeBase.slewPart (t : TimeBase) : Int :=
  if t.slewLeft < 0 then - (min slewStep t.slewLeft.natAbs : Nat) else (min slewStep t.slewLeft.natAbs : Nat)

/-- The time base moved by a signed number of units. -/
def TimeBase.shift (t : TimeBase) (d : Int) : TimeBase := t.setUnits (t.units + d).toNat

/-- One TCLK cycle: the increment and the part of the slew are added. -/
def TimeBase.tick (t : TimeBase) : TimeBase :=
  { t.shift (t.incr + t.slewPart) with slewLeft := t.slewLeft - t.slewPart }

/-- TIM_STATUS.STATE code (R219). -/
def TbState.code : TbState → Nat
  | .unset => 0
  | .freeRun => 1
  | .locked => 2
  | .holdover => 3

/-- The top 16 fraction bits (R215). -/
def TimeBase.frac16 (t : TimeBase) : Nat := t.frac / 2 ^ 32

/-- One TCLK cycle of the time base, and of the time since the reset. -/
def State.oneTick (s : State) : State := { s with time := s.time.tick, up := s.up + 1 }

end Sys2Proof.Machine
end

