-- ==== Sys2Proof/Machine/Ptp.lean ====
section
/-! DEFINITION. PTP messages in frames and the timestamps of frames (R41, R215, R220 to R222). -/

namespace Sys2Proof.Machine

/-! ### Messages (R220) -/

/-- The L4 header's place in a frame whose IP header is plain. -/
def l4Of (b : List Byte) : Nat :=
  let t := parseTags b
  t.l3 + (if t.et = 0x0800 then 20 else 40)

/-- The offset of a PTP message over UDP to destination port `port`, IPv4 without options or IPv6 without extension headers. -/
def ptpUdp (b : List Byte) (port : Nat) : Option Nat :=
  let h := lookupHdr b (parseTags b)
  if h.plain ∧ h.proto = 17 ∧ h.dport = port then some (l4Of b + 8) else none

/-- The offset of a PTP message directly over Ethernet. -/
def ptpEth (b : List Byte) : Option Nat :=
  let t := parseTags b
  if t.et = 0x88F7 ∧ t.rtag = none then some t.l3 else none

/-- The offset of any PTP message: Ethernet, event or general UDP port. -/
def ptpAny (b : List Byte) : Option Nat := (ptpEth b).or ((ptpUdp b 319).or (ptpUdp b 320))

/-- The message type of a PTP message at offset `o`. -/
def ptpType (b : List Byte) (o : Nat) : Nat := fld b o 1 % 16

/-- The offset of a PTP event message (R220). -/
def ptpEvent (b : List Byte) : Option Nat :=
  match (ptpEth b).or (ptpUdp b 319) with
  | some o => if ptpType b o ≤ 3 then some o else none
  | none => none

/-- The timestamp mode in force: a port without a role stamps nothing (R223, R232). -/
def PortPtp.mode (q : PortPtp) : Nat := if q.role = 0 then 0 else q.tsMode

/-- Moaras takes the PTP messages of a clock port, and the peer delay messages of a TC P2P port (log entry 21). -/
def moarasTakes (role : Nat) (b : List Byte) : Bool :=
  match ptpAny b with
  | some o => role == 1 || (role == 3 && [2, 3, 10].contains (ptpType b o))
  | none => false

/-! ### Timestamps (R41, R215, R221) -/

/-- Receive latency bound in ps for a mode, FEC and width (R41). -/
def rxLatencyMax (mode fec width : Nat) : Nat :=
  match mode, fec with
  | 7, 2 => 252800
  | 7, 3 => 113900
  | 8, 3 => 236800
  | 7, _ | 8, _ => 22000
  | 5, _ => 99200
  | 6, _ => 150400
  | _, _ => 48000 + 51200000 / (1000 * max 1 width)

/-- Transmit latency bound in ps (R41). -/
def txLatencyMax (mode fec : Nat) : Nat :=
  match mode, fec with
  | 7, 2 => 24000
  | 7, 3 | 8, 3 => 18000
  | 7, _ | 8, _ => 14000
  | _, _ => 22000

/-- A time of day in units of 2^-48 ns moved by ps. -/
def shiftPs (units : Nat) (ps : Int) : Nat := ((units : Int) + ps * 2 ^ 48 / 1000).toNat

/-- Seconds, nanoseconds and 16-bit fraction of a time in units (R215). -/
def stampOf (units : Nat) : Nat × Nat × Nat :=
  (units / 2 ^ 48 / 1000000000 % 2 ^ 48, units / 2 ^ 48 % 1000000000, units % 2 ^ 48 / 2 ^ 32)

/-- The receive time of a frame at the ball: now, less the port's latency (a free value within the bound of R41), plus its
ingress correction. Host ports have neither. -/
def State.rxTime (s : State) (p : Nat) : Nat :=
  if p < 512 then
    let l := s.lane p
    let w := if (s.port p).lt.width = 0 then [0, 8, 4, 2, 1, 1, 1, 1, 1].getD l.mode 1 else (s.port p).lt.width
    shiftPs s.time.units ((s.port p).ptp.ingCorr - (s.freeVal % (rxLatencyMax l.mode l.fec w + 1) : Nat))
  else s.time.units

/-- The transmit time of a frame that starts now. -/
def State.txTime (s : State) (p : Nat) : Nat :=
  if p < 512 then
    let l := s.lane p
    shiftPs s.time.units ((s.port p).ptp.egCorr + (s.freeVal % (txLatencyMax l.mode l.fec + 1) : Nat))
  else s.time.units

end Sys2Proof.Machine
end

