-- ==== Sys2Proof/Machine/Police.lean ====
section
/-! DEFINITION. Policers (R200 to R206) and FRER recovery and generation (R250 to R257) as a frame meets them at step 6. -/

namespace Sys2Proof.Machine

/-! ### Token buckets -/

/-- Tokens, in bytes with 16 fraction bits, that a rate in kb/s gives in a time of 2^-48 ns units, rounded down. -/
def tokensFor (rate units : Nat) : Nat := rate * units / (2 ^ 35 * 1000000)

/-- Bytes as tokens. -/
def tok (n : Nat) : Int := (65536 * n : Nat)

/-- What a policer makes of a frame: colour 0 green, 1 yellow, 2 red, and the buckets after it (RFC 2697, RFC 2698; R204). -/
def Policer.mark (q : Policer) (len : Nat) (preYellow : Bool) : Nat × Policer :=
  let b := tok (len + q.cfg.adj)
  let y := q.cfg.aware && preYellow
  if q.cfg.cir = 0 then (2, q)
  else if q.cfg.tr then
    if q.te < b then (2, q)
    else if y ∨ q.tc < b then (1, { q with te := q.te - b })
    else (0, { q with tc := q.tc - b, te := q.te - b })
  else if ¬ y ∧ b ≤ q.tc then (0, { q with tc := q.tc - b })
  else if b ≤ q.te then (1, { q with te := q.te - b })
  else (2, q)

/-- Byte counts of a policer after a frame of a colour (R212). -/
def Policer.tally (q : Policer) (colour len : Nat) : Policer :=
  match colour with
  | 0 => { q with green := q.green + BitVec.ofNat 64 len }
  | 1 => { q with yellow := q.yellow + BitVec.ofNat 64 len }
  | _ => { q with red := q.red + BitVec.ofNat 64 len, redDrops := q.redDrops + (if q.cfg.dropRed then 1 else 0) }

/-- The policer that a frame meets (R201). -/
def State.policerOf (s : State) (pk : Pkt) : Option Nat :=
  if bit pk.ovFlags 2 then some pk.ovPol
  else if (s.port pk.inPort).polValid then some (s.port pk.inPort).polIdx
  else none

/-- Police a frame: the state, and whether it is red and to be dropped. -/
def State.police (s : State) (pk : Pkt) : State × Bool :=
  match s.policerOf pk with
  | none => (s, false)
  | some n =>
    let r := (s.policer n).mark pk.len ((s.port pk.inPort).polPre == 1 && pk.dei)
    let t := s.updPolicer n (fun _ => r.2.tally r.1 pk.len)
    let u := (t.bumpSchedAt pk.slice 4 1).bumpSchedAt pk.slice (5 + r.1) 1
    (u.updPkt pk.id (fun x => { x with colour := r.1 }), r.1 == 2 && (s.policer n).cfg.dropRed)

/-! ### FRER (R250 to R257) -/

/-- Count for a stream and for the device. -/
def State.bumpStream (s : State) (st i n : Nat) : State := (s.bumpFrer st i n).bumpRed i n

/-- Clear bits among the top `d` of a history of `h` bits. -/
def lostBits (hist h d : Nat) : Nat :=
  ((List.range (min d h)).filter (fun i => !bit hist (h - 1 - i))).length

/-- What recovery decides. -/
inductive RecRes where
  | drop (reason : Nat)
  | pass
deriving DecidableEq, Repr

/-- A frame that passes: the reset timer runs anew, the latent count rises. -/
def FrerSt.passed (f : FrerSt) : FrerSt := { f with timer := true, latPassed := f.latPassed + 1 }

/-- The Vector Recovery Algorithm for a sequence number, with history length `h` (R252): the outcome, the state, and the
counts (out of order, lost). -/
def FrerSt.recover (f : FrerSt) (h n : Nat) : RecRes × FrerSt × Nat × Nat :=
  if f.takeAny then (.pass, { f with recov := n, hist := 1, takeAny := false }.passed, 0, 0)
  else
    let d := signed 16 (n + 65536 - f.recov)
    if (h : Int) ≤ d ∨ d ≤ -(h : Int) then (.drop 19, f, 0, 0)
    else if d ≤ 0 then
      let k := (-d).toNat
      if bit f.hist k then (.drop 18, { f with latDisc := f.latDisc + 1 }, 0, 0)
      else (.pass, { f with hist := setBit f.hist k }.passed, 1, 0)
    else
      let k := d.toNat
      (.pass, { f with recov := n, hist := f.hist * 2 ^ k % 2 ^ h + 1 }.passed, (if k = 1 then 0 else 1), lostBits f.hist h k)

/-- Recovery of a frame for a stream (R252). -/
def State.frerRecover (s : State) (st : Nat) (c : FrerCfg) (rtag : Option Nat) : State × RecRes :=
  match rtag with
  | none => (s.bumpStream st 6 1, .drop 20)
  | some n =>
    let r := (s.stream st).recover c.hist n
    let t := s.updStream st (fun _ => r.2.1)
    match r.1 with
    | .drop 18 => (t.bumpStream st 2 1, r.1)
    | .drop _ => (t.bumpStream st 3 1, r.1)
    | .pass => (((t.bumpStream st 1 1).bumpStream st 4 r.2.2.1).bumpStream st 5 r.2.2.2, r.1)

/-- Generation (R250): the frame takes the number of its stream. -/
def State.frerGenerate (s : State) (pk : Pkt) (st : Nat) : State :=
  let n := (s.stream st).next
  let t := s.updStream st (fun f => { f with next := (n + 1) % 65536 })
  (t.updPkt pk.id (fun x => { x with seqNum := some n })).bumpStream st 0 1

end Sys2Proof.Machine
end

