-- ==== Sys2Proof/Machine/Lookup.lean ====
section
/-! DEFINITION. Steps 4 and 5 of a frame: the exact-match and LPM lookups, learning events, and the forwarding result
(R99 to R102, R114 to R124, R126, R127). -/

namespace Sys2Proof.Machine

/-! ### One lookup (R97, R124, R126) -/

/-- What a lookup finds. -/
structure Look where
  st : State
  hit : Option (Nat × EmEntry)
  /-- It read an entry with bad parity. -/
  bad : Bool

/-- An exact-match lookup in generation `g`: every bad entry it reads is reported and counts as absent. -/
def State.look (s : State) (g kt : Nat) (key : List Byte) : Look :=
  let l := s.fwd.badRead kt key
  ⟨l.foldl (fun t p => t.parityFound p) s, s.fwd.lookup kt key g, !l.isEmpty⟩

/-- A lookup that is not made. -/
def State.noLook (s : State) : Look := ⟨s, none, false⟩

/-- Set the HIT bit of an entry. -/
def State.setHit (s : State) (q : Nat) : State :=
  { s with fwd := s.fwd.updEntry q (fun e => { e with hit := true }) }
def Look.mark (l : Look) : State :=
  match l.hit with
  | some (q, _) => l.st.setHit q
  | none => l.st

/-- A table entry with bad parity that a frame needs: reported (R127). -/
def State.badTab (s : State) (table idx : Nat) : Bool := s.fwd.badAt table idx
def State.tabParity (s : State) : State := (s.bumpFwd 14 1).raise 0x0402 sevCorrectable []

/-! ### The frame as the tables see it -/

/-- What steps 4 and 5 know of a frame. -/
structure Ctx where
  /-- The packet, its bytes as received or recirculated. -/
  pk : Pkt
  g : GenTables
  v : Vlan
  /-- The frame that is looked up: the inner one of a terminated frame. -/
  b : List Byte
  h : LHdr
  et : Nat
  routed : Bool
  /-- Terminated under R120, and its outer source address. -/
  term : Bool
  outer : List Byte
  fid : Nat
  prof : Profile

/-- The router MAC entry that a destination address matches in a VRF (R100). -/
def GenTables.routerFor (g : GenTables) (mac vrf : Nat) : Option Nat :=
  (g.routers.find? (fun r => r.2.valid && r.2.mac == mac && r.2.vrf == vrf)).map (·.1)

/-- The VTEP entry that a destination address matches in a VRF (R120). -/
def GenTables.vtepFor (g : GenTables) (fam addr vrf : Nat) : Option Nat :=
  (g.vteps.find? (fun r => r.2.valid && r.2.vrf == vrf && r.2.fam == fam
    && r.2.addr.take (if fam = 4 then 4 else 16) == be (if fam = 4 then 4 else 16) addr)).map (·.1)

/-- UDP destination port behind IPv6 extension headers: hop-by-hop, routing and destination options, fragment,
authentication; `nh` is the next header and `o` the offset of what follows. -/
def udpPast (b : List Byte) : Nat → Nat → Nat → Option Nat
  | 0, _, _ => none
  | n + 1, nh, o =>
    if nh = 17 then some (fld b (o + 2) 2)
    else if nh = 0 ∨ nh = 43 ∨ nh = 60 then udpPast b n (fld b o 1) (o + 8 * (fld b (o + 1) 1 + 1))
    else if nh = 44 then udpPast b n (fld b o 1) (o + 8)
    else if nh = 51 then udpPast b n (fld b o 1) (o + 4 * (fld b (o + 1) 1 + 2))
    else none

/-- UDP destination port behind the IP header, IPv4 options and IPv6 extension headers passed over; none where no UDP header
follows. -/
def udpPort (b : List Byte) (t : Tags) : Option Nat :=
  if t.et = 0x0800 ∧ fld b (t.l3 + 9) 1 = 17 then some (fld b (t.l3 + 4 * (fld b t.l3 1 % 16) + 2) 2)
  else if t.et = 0x86DD then udpPast b b.length (fld b (t.l3 + 6) 1) (t.l3 + 40)
  else none

/-- The family and address of an IP frame as bytes: 4 or 16. -/
def addrBytes (fam addr : Nat) : List Byte := be (if fam = 4 then 4 else 16) addr

/-- The frame before termination. -/
def State.ctx0 (s : State) (pk : Pkt) (prof : Profile) : Ctx :=
  let g := s.fwd.tables pk.gen
  let v := g.vlanAt pk.vid
  let t := parseTags pk.bytes
  let h := lookupHdr pk.bytes t
  { pk, g, v, b := pk.bytes, h, et := t.et, term := false, outer := [], fid := v.fid, prof,
    routed := h.fam != 0 && (g.routerFor h.dmac v.vrf).isSome }

/-- The frame after termination, in the FID of its VNI. -/
def Ctx.terminated (c : Ctx) (fid : Nat) : Ctx :=
  let b := vxlanInner c.b
  let t := parseTags b
  { c with b, h := lookupHdr b t, et := t.et, routed := false, term := true, outer := addrBytes c.h.fam c.h.src, fid }

/-- VXLAN termination (R120): the frame that the tables see, and the counter of R129 for it, VXLAN_TERMINATED or
VXLAN_NOT_TERMINATED. -/
def State.terminate (s : State) (c : Ctx) : State × Ctx × Option Nat :=
  if c.routed && (c.g.vtepFor c.h.fam c.h.dst c.v.vrf).isSome && udpPort c.b (parseTags c.b) == some 4789 then
    if c.h.plain && c.h.proto == 17 then
      let l := s.look c.pk.gen 0x0B (keyVni (vxlanVni c.b))
      match l.hit with
      | some (_, e) => (l.mark, c.terminated (emIndex e.data % 2 ^ 14), some 22)
      | none => (l.st, c, some 24)
    else (s, c, some 24)
  else (s, c, none)

/-! ### The lookups of a pass (R100) -/

/-- The D lookup. A host key type of the other IP family finds no key in the frame: no lookup (log entry 99). -/
def State.lookD (s : State) (c : Ctx) : Look :=
  if c.routed then
    let k := if c.prof.hostKey = 0xFF then (if c.h.fam = 4 then 2 else 3) else c.prof.hostKey
    if (k = 2 ∧ c.h.fam = 4) ∨ (k = 3 ∧ c.h.fam = 6) then s.look c.pk.gen k (keyHost c.h.fam c.v.vrf c.h.dst)
    else s.noLook
  else s.look c.pk.gen 1 (keyMac c.fid c.h.dmac)

/-- The VRF has Proofing sources installed. -/
def FwdSt.proofVrf (f : FwdSt) (vrf : Nat) : Bool :=
  f.em.any (fun x => (x.2.ktype == 9 || x.2.ktype == 10) && rd x.2.key 0 2 == vrf)

/-- The ingress VLAN has learning on. -/
def Ctx.learns (c : Ctx) : Bool := c.v.valid && c.v.learn

/-- The S lookup. -/
def State.lookS (s : State) (c : Ctx) : Look :=
  if c.learns || s.fwd.proofVrf c.v.vrf then
    if c.routed then s.look c.pk.gen (if c.h.fam = 4 then 9 else 10) (keyHost c.h.fam c.v.vrf c.h.src)
    else s.look c.pk.gen 1 (keyMac c.fid c.h.smac)
  else s.noLook

/-- The R lookup (R248). -/
def State.lookR (s : State) (c : Ctx) : Look :=
  let p := s.port c.pk.inPort
  if p.frerId then
    let h := lookupHdr c.pk.bytes (parseTags c.pk.bytes)
    s.look c.pk.gen 4 (keyFrer (b2n p.frerSrc) c.pk.vid (if p.frerSrc then h.smac else h.dmac))
  else s.noLook

/-- The X lookup; a queue pair key needs a RoCEv2 frame, else none is made (log entry 99). -/
def State.lookX (s : State) (c : Ctx) : Look :=
  let h := lookupHdr c.pk.bytes (parseTags c.pk.bytes)
  match c.prof.fixKey, h.fam with
  | 1, 4 => s.look c.pk.gen 5 (keyTuple h)
  | 1, 6 => s.look c.pk.gen 6 (keyTuple h)
  | 2, 4 => if h.proto = 17 ∧ h.dport = 4791 then s.look c.pk.gen 7 (keyQp h) else s.noLook
  | 2, 6 => if h.proto = 17 ∧ h.dport = 4791 then s.look c.pk.gen 8 (keyQp h) else s.noLook
  | _, _ => s.noLook

/-- HIT after an S hit (R124): a MAC entry of kind PORT or NEXTHOP is refreshed only by its own source. -/
def State.hitS (s : State) (c : Ctx) (l : Look) : State :=
  match l.hit with
  | none => l.st
  | some (q, e) =>
    let d := emData e.data
    let ok := if e.ktype != 1 then true
      else if d.kind = 1 then d.dest == c.pk.inPort
      else if d.kind = 2 then c.term && (s.fwd.tables s.fwd.gen).remoteVtep c.v.vrf c.outer == some d.dest
      else true
    if ok then l.st.setHit q else l.st

/-- HIT after a D hit: a MAC entry of kind PORT or NEXTHOP keeps its bit. -/
def hitD (l : Look) : State :=
  match l.hit with
  | some (q, e) => if e.ktype = 1 ∧ ((emData e.data).kind = 1 ∨ (emData e.data).kind = 2) then l.st else l.st.setHit q
  | none => l.st

/-- The target that a frame comes from (R310). -/
def Ctx.sourceTarget (c : Ctx) (e : EmEntry) : Option Nat :=
  let d := emData e.data
  if e.ktype = 9 ∨ e.ktype = 10 then some (emIndex e.data)
  else if e.ktype = 1 ∧ d.targetValid ∧ d.kind = 1 ∧ d.dest = c.pk.inPort then some d.target
  else none

/-! ### Learning (R122, R123) -/

/-- What the learner makes of a frame at step 4 and 5. -/
inductive LearnRes where
  | none
  | event
  /-- The frame exceeds its port's learning limit. -/
  | excess
  /-- A move onto a static entry. -/
  | static
deriving DecidableEq, Repr

/-- The learn event of a frame. -/
def Ctx.event (c : Ctx) : LearnEv :=
  { port := c.pk.inPort, fid := c.fid, mac := c.h.smac, vxlan := c.term, vrf := c.v.vrf, outer := c.outer }

/-- The port is at its learning limit. -/
def State.atLimit (s : State) (p : Nat) : Bool := decide ((s.port p).learnLimit ≤ s.fwd.learnedCount p)

/-- Whether a bridged frame makes a learn event. -/
def State.learnTest (s : State) (c : Ctx) (hit : Option (Nat × EmEntry)) : LearnRes :=
  let p := c.pk.inPort
  if c.routed || !c.learns || decide (512 ≤ p) || !(s.port p).learnOn || bit c.pk.ovFlags 4 then .none
  else match s.learnWord c.event with
    | none =>
      match hit with
      | none => .event
      | some (_, e) =>
        if (emData e.data).kind != 1 && (emData e.data).kind != 2 then .none else if e.isStatic then .static else .event
    | some w =>
      match hit with
      | none => if s.atLimit p then .excess else .event
      | some (_, e) =>
        let d := emData e.data
        let same := d.kind == (emData w).kind && d.dest == (emData w).dest
        if same || (d.kind != 1 && d.kind != 2) then .none
        else if e.isStatic then .static
        else if s.atLimit p && !(e.learned && e.owner == p) then .excess
        else .event

/-- The learn event enters its slice's FIFO of 4,096, or is lost. -/
def State.queueLearn (s : State) (sl : Nat) (v : LearnEv) : State :=
  let q := Tab.get [] s.fwd.learnQ sl
  if q.length < 4096 then
    ({ s with fwd := { s.fwd with learnQ := Tab.set [] s.fwd.learnQ sl (q ++ [v]) } }).bumpFwdAt sl 1 1
  else s.bumpFwdAt sl 6 1

/-! ### The forwarding result -/

/-- Where a frame goes. -/
structure Fwd where
  drop : Option Nat
  /-- The drop or result met bad parity in a table. -/
  parity : Bool
  ports : List Nat
  tagMode : Nat
  egVid : Nat
  untagged : Nat
  edit : Option (List Byte)
  saf : Bool
  cause : Nat
  /-- Flooded after a D miss. -/
  flooded : Bool
  /-- A VXLAN header was added. -/
  originated : Bool
  /-- The members of a FRER stream take the place of the destination (R251). -/
  frer : Bool
deriving DecidableEq, Repr

def Fwd.to (ports : List Nat) (tagMode : Nat) : Fwd :=
  ⟨none, false, ports, tagMode, 0, 0, none, false, 0, false, false, false⟩
def Fwd.lost (reason : Nat) : Fwd := { Fwd.to [] 2 with drop := some reason }
def Fwd.bad : Fwd := { Fwd.lost 15 with parity := true }

/-- Ports 0 to 515 whose bits count (R114). -/
def memberMask (m : Nat) : Nat := m % 2 ^ 516

/-- The edit that terminates a VXLAN frame. -/
def Ctx.edit0 (c : Ctx) : Option (List Byte) := if c.term then some c.b else none

/-- The L3 rewrite of a next hop (R117). -/
def GenTables.rewrite (g : GenTables) (n : NextHop) (b : List Byte) : List Byte :=
  decTtl (setMacs b n.mac (g.routerAt n.router).mac)

/-- A frame sent through next hop `n` (R117); bad parity in an entry that its edit reads drops it (R127). -/
def State.viaHop (s : State) (c : Ctx) (n : Nat) : Fwd :=
  let x := c.g.hopAt n
  let out : Fwd := { Fwd.to [x.port] (if x.tagged then 1 else 2) with egVid := x.vlan, edit := c.edit0 }
  if s.badTab 4 n then Fwd.bad
  else match x.kind with
    | 1 =>
      if !c.routed then Fwd.lost 12
      else if s.badTab 2 x.router then Fwd.bad
      else { out with edit := some (c.g.rewrite x c.b) }
    | 2 => out
    | 3 =>
      let t := c.g.tmplAt x.tmpl
      if s.badTab 6 x.tmpl || s.badTab 2 x.router then Fwd.bad
      else if t.kind = 0 then Fwd.lost 12
      else
        let b := t.apply c.b (s.fwd.h2 c.h c.v.vrf c.fid) (fun i => Config.freeValue (s.free + i))
        { out with edit := some (c.g.rewrite x b), saf := t.kind == 2, originated := t.kind != 3 }
    | _ => Fwd.lost 12

/-- The result of an ECMP group (R119). -/
def State.viaEcmp (s : State) (c : Ctx) (n : Nat) : Fwd :=
  let l := c.g.groupAt n
  if s.badTab 5 n then Fwd.bad
  else if l.isEmpty then Fwd.lost 13
  else s.viaHop c (l.getD (s.fwd.h2 c.h c.v.vrf c.fid % l.length) 0)

/-- Flood (R115): active member ports among 0 to 515 but the ingress port. -/
def State.floodSet (s : State) (c : Ctx) : List Nat :=
  (bitList 516 c.v.members).filter (fun p => p != c.pk.inPort && (decide (512 ≤ p) || s.portActive p))

def State.flood (s : State) (c : Ctx) : Fwd :=
  if (s.floodSet c).isEmpty then Fwd.lost 10
  else { Fwd.to (s.floodSet c) 0 with untagged := c.v.untagged, edit := c.edit0, flooded := true }

/-- A frame to a host port by a data word, as unknown unicast or for its TTL: in the VLAN's member set, tagged as the VLAN
says (R116). -/
def Ctx.toHost (c : Ctx) (n cause : Nat) : Fwd :=
  if bit c.v.members (512 + n) then { Fwd.to [512 + n] 0 with untagged := c.v.untagged, edit := c.edit0, cause }
  else Fwd.lost 10

/-- A bridged frame (R115, R116). -/
def State.bridge (s : State) (c : Ctx) (hit : Option EmEntry) : Fwd :=
  let miss := if isGroup c.h.dmac then s.flood c
    else match c.v.unk with
      | 0 => s.flood c
      | 1 => Fwd.lost 10
      | _ => c.toHost 0 0
  match hit with
  | none => miss
  | some e =>
    let d := emData e.data
    if isGroup c.h.dmac && !e.isStatic then { s.flood c with flooded := false }
    else match d.kind with
      | 0 => Fwd.lost 7
      | 1 => if d.dest = c.pk.inPort then Fwd.lost 11
          else if bit (memberMask c.v.members) d.dest then
            { Fwd.to [d.dest] 0 with untagged := c.v.untagged, edit := c.edit0 }
          else Fwd.lost 10
      | 2 => s.viaHop c d.dest
      | 3 => s.viaEcmp c d.dest
      | _ => if 512 + d.dest = c.pk.inPort then Fwd.lost 11 else c.toHost d.dest 0

/-- The data word of a routed frame: host entry, else the longest prefix. -/
def Ctx.routeWord (c : Ctx) (hit : Option EmEntry) : Option (BitVec 64) :=
  match hit with
  | some e => some e.data
  | none => (c.g.lpmLookup c.h.fam c.v.vrf c.h.dst).map (·.data)

/-- A routed frame (R118). -/
def State.route (s : State) (c : Ctx) (hit : Option EmEntry) : Fwd :=
  if hit.isNone && s.fwd.badTable.any (fun x => x.1 == 7 && x.2.2.hits c.h.fam c.v.vrf c.h.dst
      && c.g.hasPrefix x.2.2) then Fwd.bad
  else match c.routeWord hit with
    | none => Fwd.lost 12
    | some w =>
      let d := emData w
      if d.kind = 0 then Fwd.lost 7
      else if c.h.ttl ≤ 1 then c.toHost 0 3
      else match d.kind with
        | 1 => Fwd.to [d.dest] 2
        | 2 => s.viaHop c d.dest
        | 3 => s.viaEcmp c d.dest
        | _ => c.toHost d.dest 0

/-- Ingress filtering (R114): the frame's VLAN is invalid, or its port is no member while the filter is on. -/
def Ctx.filtered (c : Ctx) : Bool :=
  !c.v.valid || (c.v.filter && !bit c.v.members c.pk.inPort)

/-- The stream that a D entry generates for (R248). -/
def Ctx.genStream (c : Ctx) (hit : Option EmEntry) : Option (Nat × FrerCfg) :=
  match hit with
  | none => none
  | some e =>
    let d := emData e.data
    if d.frerValid ∧ (c.g.frerAt d.frer).gen then some (d.frer, c.g.frerAt d.frer) else none

/-- The result of a frame whose D entry names a stream with members (R251). -/
def Ctx.replicated (c : Ctx) (e : EmEntry) : Fwd :=
  if (emData e.data).kind = 0 then Fwd.lost 7
  else if c.routed ∧ c.h.ttl ≤ 1 then c.toHost 0 3
  else { Fwd.to [] 0 with untagged := c.v.untagged, edit := c.edit0, frer := true }

/-- The forwarding result of a frame (steps 4 and 5). -/
def State.forwarding (s : State) (c : Ctx) (hit : Option EmEntry) : Fwd :=
  if s.badTab 1 c.pk.vid then Fwd.bad
  else if c.filtered then Fwd.lost 10
  else if (c.routed || c.term) && (c.g.routerFor (outerHdr c).dmac c.v.vrf).any (fun i => s.badTab 2 i) then Fwd.bad
  else if c.term && (c.g.vtepFor (outerHdr c).fam (outerHdr c).dst c.v.vrf).any (fun i => s.badTab 3 i) then Fwd.bad
  else match hit with
    | some e =>
      if (c.genStream hit).any (fun g => !g.2.members.isEmpty) then c.replicated e
      else if c.routed then s.route c hit else s.bridge c hit
    | none => if c.routed then s.route c hit else s.bridge c hit
where
  /-- The header that the frame came with: the outer one of a terminated frame. -/
  outerHdr (c : Ctx) : LHdr := lookupHdr c.pk.bytes (parseTags c.pk.bytes)

/-- Counters of a frame that goes where the forwarding result sends it (R129). -/
def State.countFwd (s : State) (port : Nat) (f : Fwd) (badD : Bool) : State :=
  let u := if f.flooded then s.bumpFwdAt (portSlice port) 0 1 else s
  let v := if f.flooded && badD then (u.bumpFwdAt (portSlice port) 15 1).bumpDrop port 16 else u
  let w := if f.originated then (v.bumpFwdAt (portSlice port) 23 1).drawn tmplDraws else v
  if f.cause = 3 then w.bumpFwdAt (portSlice port) 19 1 else w

end Sys2Proof.Machine
end

