-- ==== Sys2Proof/Machine/Park.lean ====
section
/-! DEFINITION. Proofing targets: the state test, park queues, wakes, readiness, failure and notices (R309 to R325). -/

namespace Sys2Proof.Machine

/-! ### Parameters and limits -/

/-- The class parameters in effect for a target: those its hold timer last started with. While nothing is parked a hold limit
of 0 takes effect at once, and a sleeping target, whose next frame starts the timer, is tested with the class as it stands
(R312). -/
def State.tgtClass (s : State) (t : Target) : PClass :=
  let c := s.pclass t.cls
  if ¬ t.parkQ.isEmpty then t.eff
  else if t.state = .asleep ∨ t.state = .waking then c
  else if c.hold = 0 then { t.eff with hold := 0 }
  else t.eff

/-- Units of 256 bytes that a frame takes in the park region (R317). -/
def parkUnitsOf (pk : Pkt) : Nat := ceilDiv (pk.len + 32) 256

/-- Parking a frame would exceed the park limit or the free park region (R314). -/
def State.parkFull (s : State) (t : Target) (pk : Pkt) : Bool :=
  decide (2 ^ 20 * (s.tgtClass t).park < 256 * (t.parkUnits + parkUnitsOf pk))
    || decide (s.regionSize 0 < 256 * (s.proof.parkUnits + parkUnitsOf pk))

/-- Code of a target state (R323 byte 17). -/
def TgtState.code : TgtState → Nat
  | .awake => 0
  | .asleep => 1
  | .waking => 2
  | .draining => 3
  | .failed => 4

/-- Hold remaining in ms; 0 when no hold timer runs. -/
def State.holdLeft (s : State) (t : Target) : Nat :=
  if t.holdOn then t.holdLimit - (s.upNs - t.holdSince) / 1000000 else 0

/-- Expected wait in ms (R323). -/
def State.expectedWait (s : State) (t : Target) : Nat :=
  match t.state with
  | .asleep => (s.tgtClass t).spinup
  | .waking => (s.tgtClass t).spinup - (s.upNs - t.wakeSince) / 1000000
  | _ => 0

/-! ### Notices (R322, R323) -/

/-- Bytes 16 to 53 of a notice. -/
def State.noticeBody (s : State) (type idx : Nat) (m : Notice) : List Byte :=
  let t := s.target idx
  be 1 type ++ be 1 t.state.code ++ be 2 idx ++ be 6 m.tmac ++ be 1 m.fam ++ be 1 0 ++ padTo 16 m.ip
    ++ be 4 (s.expectedWait t) ++ be 4 (s.holdLeft t) ++ be 2 (s.port m.port).noticeSeq

/-- The notice frame without its FCS. -/
def State.noticeFrame (s : State) (m : Notice) (body : List Byte) : List Byte :=
  be 6 m.mac ++ be 6 (s.port m.port).mac ++ be 2 0x88B5 ++ be 1 2 ++ be 1 1 ++ body ++ be 6 0

/-- The elapsed second in which notices are counted. -/
def State.noticeSecond (s : State) : Nat := s.upNs / 1000000000

/-- Notices sent so far in this second. -/
def State.noticesNow (s : State) : Nat := if s.proof.noticeAt = s.noticeSecond then s.proof.noticeSec else 0

/-- Send a notice to a source: the host event, and the frame if NOTICE_SOURCE is set and the source is behind a network
port; more than 1,000,000 in a second are dropped. -/
def State.sendNotice (s : State) (type idx : Nat) (m : Notice) : State :=
  if 1000000 ≤ s.noticesNow then s.bumpProof 16 1
  else
    let b := s.noticeBody type idx m
    let f := s.noticeFrame m b
    let t := ({ s with proof := { s.proof with noticeAt := s.noticeSecond, noticeSec := s.noticesNow + 1 } }).raise 0x0B02
      sevInfo b
    let u := t.updPort m.port (fun q => { q with noticeSeq := (q.noticeSeq + 1) % 65536 })
    if (s.tgtClass (s.target idx)).source ∧ m.port < 512 ∧ (s.port m.port).link = true then (u.sendCtl m.port f).bumpProof 15 1 else u

/-- Destination IP address of a frame: family and 16 bytes. -/
def dstIp (b : List Byte) : Nat × List Byte :=
  let t := parseTags b
  if t.et = 0x0800 then (4, padTo 16 (slice b (t.l3 + 16) 4))
  else if t.et = 0x86DD then (6, padTo 16 (slice b (t.l3 + 24) 16))
  else (0, List.replicate 16 0)

/-- The notice memory entry that a parked frame makes. -/
def State.noticeOf (s : State) (pk : Pkt) : Notice :=
  { mac := pk.smac, since := s.upNs, port := pk.inPort, tmac := fld (pk.edit.getD pk.bytes) 0 6,
    fam := (dstIp (pk.edit.getD pk.bytes)).1, ip := (dstIp (pk.edit.getD pk.bytes)).2 }

/-- A source enters the notice memory: its own entry or the oldest one goes. -/
def remember (l : List Notice) (n : Notice) : List Notice :=
  let k := l.filter (fun m => m.mac != n.mac)
  (if k.length < 8 then k else k.drop 1) ++ [n]

/-- PARKED notice for a frame, unless its source had a notice within the interval. -/
def State.parkNotice (s : State) (idx : Nat) (pk : Pkt) : State :=
  let t := s.target idx
  if t.memory.any (fun m => m.mac == pk.smac && decide (s.upNs < m.since + 1000000 * (s.tgtClass t).notice)) then s
  else (s.sendNotice 1 idx (s.noticeOf pk)).updTarget idx (fun x => { x with memory := remember x.memory (s.noticeOf pk) })

/-- A notice to every source in the memory, which is then cleared. -/
def State.noticeAll (s : State) (type idx : Nat) : State :=
  ((s.target idx).memory.foldl (fun t m => t.sendNotice type idx m) s).updTarget idx (fun x => { x with memory := [] })

/-! ### Wakes (R319) -/

/-- A target's record names this location. -/
def Target.namedAt (t : Target) (l : Nat × Nat × Nat) : Bool := (t.bus, t.drop, t.slot) == l

/-- The target of a drop's slot, by the locations in effect; a record that names the slot comes before one that has moved
away. -/
def State.slotTarget (s : State) (bus drop slot : Nat) : Option Nat :=
  let l := s.proof.targets.filter (fun x => x.2.valid && x.2.loc == (bus, drop, slot))
  ((l.find? (fun x => x.2.namedAt (bus, drop, slot))).orElse (fun _ => l.head?)).map (·.1)

/-- The target's queued wake is withdrawn. -/
def State.dropWake (s : State) (idx : Nat) : State :=
  let w := (s.target idx).loc
  (s.updTarget idx (fun x => { x with wakeQ := false })).updDrop w.1 w.2.1 (fun d =>
    { d with wakeQ := without d.wakeQ idx, wakeNew := without d.wakeNew idx })

/-- A wake is queued at the target's drop; its location is in effect from now on (R312). -/
def State.queueWake (s : State) (idx : Nat) : State :=
  let t := s.target idx
  if t.wakeQ then s
  else (s.updTarget idx (fun x => { x with wakeQ := true, loc := (t.bus, t.drop, t.slot) })).updDrop t.bus t.drop (fun d =>
    { d with wakeQ := d.wakeQ ++ [idx], wakeNew := d.wakeNew ++ [idx] })

/-- A target enters a state; the time of the change is kept (R338). -/
def State.setTgt (s : State) (idx : Nat) (st : TgtState) : State :=
  s.updTarget idx (fun x => { x with state := st, lastSec := s.time.sec, lastNs := s.time.ns })

/-! ### Leaving the park queue -/

/-- A frame leaves the park region. -/
def State.unpark (s : State) (idx : Nat) (pk : Pkt) : State :=
  let n := parkUnitsOf pk
  let t := s.updTarget idx (fun x => { x with parkQ := without x.parkQ pk.id, parkUnits := x.parkUnits - n })
  { t with proof := { t.proof with parkUnits := t.proof.parkUnits - n } }

/-- Frames of a target's park queue dropped with a reason, each counted; from there no drop session takes a copy (R458). -/
def State.dropParked (s : State) (idx reason ctr : Nat) : State :=
  ((s.target idx).parkQ.foldl (fun t id =>
    let pk := t.pkt id
    (((t.unpark idx pk).bumpProof ctr 1).countQuiet pk reason (pk.dests.headD 0xFFFF)).forget pk) s).updTarget idx (fun x =>
      { x with holdOn := false, episode := false })

/-- Entry to FAILED (R316): cause 0 hold expired, 1 slot empty, 2 slot fault, 3 bad slot. -/
def State.tgtFail (s : State) (idx cause : Nat) : State :=
  let n := (s.target idx).parkQ.length
  let t := if cause = 0 then s.bumpProof 13 1 else s
  let u := (((t.dropWake idx).updTarget idx (fun x => { x with holdOn := false })).setTgt idx .failed).noticeAll 3 idx
  (u.dropParked idx 29 5).raise 0x0B04 sevWarning (le 2 idx ++ le 1 cause ++ le 4 n)

/-- A spindle report held until the queue emptied is applied, and a target made invalid goes (R315, R325). -/
def State.queueEmptied (s : State) (idx : Nat) : State :=
  let t := s.target idx
  let s := s.updTarget idx (fun x => { x with episode := false })
  if t.invalidate then s.updTarget idx (fun x => { Target.init with
    cls := x.cls, bus := x.bus, drop := x.drop, slot := x.slot, power := x.power, lastSec := s.time.sec, lastNs := s.time.ns })
  else match t.pendSpindle with
    | none => s.setTgt idx .awake
    | some c =>
      let u := s.updTarget idx (fun x => { x with pendSpindle := none })
      if c = 1 ∨ c = 4 then u.setTgt idx .asleep
      else u.tgtFail idx (if c = 0 then 1 else 2)

/-- A frame leaves a park queue other than by its release. -/
def State.leavePark (s : State) (idx : Nat) (pk : Pkt) : State :=
  let t := s.unpark idx pk
  if (t.target idx).parkQ.isEmpty && (t.target idx).state == .draining then t.queueEmptied idx else t

/-- A target becomes ready (R313): DRAINING if frames are parked, AWAKE otherwise. `cause` 0 shelf, 1 frame; none for a
command. -/
def State.tgtReady (s : State) (idx : Nat) (cause : Option Nat) : State :=
  let t := s.target idx
  let ms := if t.state = .waking then (s.upNs - t.wakeSince) / 1000000 else 0
  let u := (s.dropWake idx).updTarget idx (fun x =>
    { x with holdOn := false, episode := x.episode && !x.parkQ.isEmpty })
  let v := if t.parkQ.isEmpty then u.setTgt idx .awake else (u.setTgt idx .draining).noticeAll 2 idx
  match cause with
  | none => v
  | some c => (v.bumpProof (if c = 0 then 11 else 12) 1).raise 0x0B03 sevInfo (le 2 idx ++ le 1 c ++ le 4 ms)

/-- A frame comes from a target (R310, R313). -/
def State.fromTarget (s : State) (idx : Nat) : State :=
  let t := s.target idx
  if ¬ t.valid then s
  else match t.state with
    | .asleep | .waking => s.tgtReady idx (some 1)
    | .failed => ((s.setTgt idx .awake).bumpProof 12 1).raise 0x0B03 sevInfo (le 2 idx ++ le 1 1 ++ le 4 0)
    | _ => s

/-! ### The state test (R313, R314) -/

/-- What the state test says for a frame addressed to a target. -/
inductive ParkTest where
  | forward
  | drop (reason : Nat)
  /-- PARK_LIMIT: the drop and its event, at most once a second for one target or at every frame. -/
  | limit (always : Bool)
  | park
deriving DecidableEq, Repr

/-- The shelf that a parked frame would wait for is on battery: that of the next wake, or of the one queued or issued. -/
def State.onBatt (s : State) (t : Target) : Bool :=
  if t.state = .asleep ∧ t.wakeQ = false then (s.drop t.bus t.drop).battery else (s.drop t.loc.1 t.loc.2.1).battery

/-- The state test. -/
def State.parkTest (s : State) (t : Target) (pk : Pkt) : ParkTest :=
  let c := s.tgtClass t
  match t.state with
  | .awake => .forward
  | .failed => if c.hold = 0 ∨ c.fwdFailed then .forward else .drop 31
  | .draining => if s.parkFull t pk then .limit false else .park
  | _ =>
    if c.hold = 0 then .forward
    else if s.onBatt t then .drop 30
    else if c.park = 0 ∨ s.regionSize 0 = 0 then .limit true
    else if s.parkFull t pk then .limit false
    else .park

/-- The frame joins the park queue of its target. -/
def State.putParked (s : State) (idx : Nat) (pk : Pkt) : State :=
  let n := parkUnitsOf pk
  let t := s.updTarget idx (fun x =>
    { x with parkQ := x.parkQ ++ [pk.id], parkUnits := x.parkUnits + n, eff := if x.parkQ.isEmpty then s.pclass x.cls else x.eff })
  { t with proof := { t.proof with parkUnits := t.proof.parkUnits + n } }

/-- The first frame of a park queue starts the hold timer and, in ASLEEP, queues a wake; PROOF_PARKED once per episode. -/
def State.parkStart (s : State) (idx : Nat) (pk : Pkt) : State :=
  let t := s.target idx
  if t.state = .draining ∨ t.parkQ.length ≠ 1 then s
  else
    let u := s.updTarget idx (fun x =>
      { x with holdOn := true, holdLimit := x.eff.hold, holdSince := s.upNs, episode := true })
    let v := if t.state = .asleep then u.queueWake idx else u
    if t.episode then v else v.raise 0x0B01 sevInfo (le 2 idx ++ le 1 t.cls ++ be 6 pk.smac)

/-- Park a frame (R314): its charge ends, its counts are given up, its notice goes out. -/
def State.park (s : State) (idx : Nat) (pk : Pkt) : State :=
  let t := ((s.retire pk).unhold pk).leaveMerge pk
  let u := (t.updPkt pk.id (fun x =>
    { x with charged := false, shared := 0, chargedQ := [], landing := [], parked := some idx })).putParked idx pk
  let v := ((u.bumpProofAt pk.slice 0 1).bumpProofAt pk.slice 1 pk.len).parkStart idx pk
  (if (s.target idx).state = .draining then v else v.parkNotice idx pk).xoffSweep

/-- Frame bytes in the park queue of a target. -/
def State.parkedBytes (s : State) (idx : Nat) : Nat := ((s.target idx).parkQ.map (fun id => (s.pkt id).len)).sum

/-- The park limit drop of R314. -/
def State.parkLimit (s : State) (idx : Nat) (pk : Pkt) (always : Bool) : State :=
  let args := le 2 idx ++ le 4 (s.parkedBytes idx)
  let t := (s.bumpProofAt pk.slice 3 1).dropPkt pk.id 28
  if always then t.raise 0x0B05 sevWarning args else t.raiseLimited 0x0B05 sevWarning idx 1000000000 args

/-- Park, unless no write bandwidth is available, which is a free value (R314; log entry 86). -/
def State.tryPark (s : State) (idx : Nat) (pk : Pkt) : State :=
  if s.contended then ((((s.drawn 1).bumpProofAt pk.slice 3 1).bumpProofAt pk.slice 4 1)).dropPkt pk.id 28 else (s.drawn 1).park idx pk

/-- Counter of a drop by the state test. -/
def parkDropCtr (reason : Nat) : Nat := if reason = 30 then 6 else 7

/-- Step 7 with the state test of Proofing before admission (R309). -/
def State.proofAdmit (s : State) (id : Nat) : State :=
  match Tab.find s.pkts id with
  | none => s
  | some pk =>
    match pk.target with
    | none => s.toAdmission id
    | some idx =>
      if pk.multi then s.toAdmission id
      else if ¬ (s.target idx).valid then (s.bumpProofAt pk.slice 8 1).toAdmission id
      else match s.parkTest (s.target idx) pk with
        | .forward => s.toAdmission id
        | .drop r => (s.bumpProofAt pk.slice (parkDropCtr r) 1).dropPkt id r
        | .limit a => s.parkLimit idx pk a
        | .park => s.tryPark idx pk

end Sys2Proof.Machine
end

