-- ==== Sys2Proof/Machine/PtpMsg.lean ====
section
/-! DEFINITION. The PTP messages of Moaras: their fields, the best master clock, and what follows once the transmit time of an
event message is known (R223, R226, R232). The protocol is that of IEEE 1588-2019, which the spec names and does not repeat: its
formats and rules are PRESUMED (log entry 102). -/

namespace Sys2Proof.Machine

/-! ### Times and fields of a message -/

/-- A timestamp in units of 2^-16 ns. -/
def stampUnits (x : Nat × Nat × Nat) : Int := ((1000000000 * x.1 + x.2.1) * 65536 + x.2.2 : Nat)

/-- The 10 bytes of a timestamp in a message. -/
def stampBytes (x : Nat × Nat × Nat) : List Byte := be 6 x.1 ++ be 4 x.2.1

/-- The timestamp at offset `o` of a message, in units of 2^-16 ns. -/
def msgTime (b : List Byte) (o : Nat) : Int := stampUnits (rdBe b o 6, rdBe b (o + 6) 4, 0)

/-- correctionField. -/
def msgCorr (b : List Byte) : Int := signed 64 (rdBe b 8 8)

/-- sequenceId. -/
def msgSeq (b : List Byte) : Nat := rdBe b 30 2

/-- sourcePortIdentity. -/
def msgSender (b : List Byte) : List Byte := slice b 20 10

/-- requestingPortIdentity of a response. -/
def msgAsker (b : List Byte) : List Byte := slice b 44 10

/-- twoStepFlag. -/
def msgTwoStep (b : List Byte) : Bool := bit (rdBe b 6 1) 1

/-- The identity of a port of the device. -/
def portIdentity (p : Nat) : List Byte := be 8 Config.ptpClockId ++ be 2 (p + 1)

/-! ### Messages -/

/-- controlField of a type. -/
def ptpControl (ty : Nat) : Nat := [0, 1, 5, 5, 5, 5, 5, 5, 2, 3].getD ty 5

/-- logMessageInterval of a type. -/
def PtpCfg.logOf (c : PtpCfg) (ty : Nat) : Int := if ty = 0 ∨ ty = 8 then c.logSync else if ty = 11 then c.logAnnounce else 0x7F

/-- A message: common header and body. -/
def State.ptpMsg (s : State) (p ty flags seq : Nat) (corr : Int) (body : List Byte) : List Byte :=
  be 1 (16 * (if s.ptp.profile = 3 then 1 else 0) + ty) ++ be 1 0x12 ++ be 2 (34 + body.length) ++ be 1 s.ptp.domain ++ be 1 0
    ++ be 2 flags ++ be 8 (unsigned 64 corr) ++ be 4 0 ++ portIdentity p ++ be 2 seq ++ be 1 (ptpControl ty)
    ++ be 1 (unsigned 8 (s.ptp.logOf ty)) ++ body

/-- The class of a PTP message of Moaras: that of an untagged frame at the port (R51, R83; log entry 98). -/
def State.ptpClass (s : State) (p : Nat) : Nat := ((s.prism.bank s.prism.epoch).port p).map.getD (s.port p).pcp 0

/-- Change the PTP record of a port. -/
def State.updPtp (s : State) (p : Nat) (f : PortPtp → PortPtp) : State := s.updPort p (fun q => { q with ptp := f q.ptp })

/-- A message that the device's instance of the protocol takes: PTP version 2, its own domain and SDO, another clock's, and not
of an alternate master. -/
def State.ptpHears (s : State) (b : List Byte) : Bool :=
  rdBe b 1 1 % 16 == 2 && rdBe b 4 1 == s.ptp.domain && rdBe b 0 1 / 16 == (if s.ptp.profile = 3 then 1 else 0)
    && !bit (rdBe b 6 1) 0 && slice b 20 8 != be 8 Config.ptpClockId

/-- A general message waits with its class (R48, R233); nothing is stamped. -/
def State.ptpGeneral (s : State) (p : Nat) (b : List Byte) : State :=
  s.sendClass p (s.ptpClass p) (.ptp p b) (fun t => t.sendNow p (.ptp p b))

/-! ### The best master clock -/

/-- Priorities, quality and identity of the grandmaster in an Announce message. -/
def annGm (b : List Byte) : List Byte := slice b 47 14

/-- stepsRemoved. -/
def annSteps (b : List Byte) : Nat := rdBe b 61 2

/-- A data set as the best master clock algorithm compares it. -/
structure AnnSet where
  /-- Priority 1, clock quality, priority 2 and identity of the grandmaster. -/
  gm : List Byte
  steps : Nat
  /-- Identities of the port that sent it and of the port that heard it. -/
  sender : Nat
  hearer : Nat
deriving DecidableEq, Repr

/-- The data set of an Announce message heard on a port. -/
def annSet (p : Nat) (b : List Byte) : AnnSet :=
  { gm := annGm b, steps := annSteps b, sender := ofBe (msgSender b), hearer := ofBe (portIdentity p) }

/-- How two data sets compare. -/
inductive AnnCmp where
  | better
  | betterByTopology
  | same
  | worseByTopology
  | worse
deriving DecidableEq, Repr

/-- The lower of two identities wins by topology. -/
def lowerWins (a b : Nat) : AnnCmp := if a < b then .betterByTopology else if b < a then .worseByTopology else .same

/-- Two data sets of one grandmaster, where the steps removed differ by one: `far` is one step further off. -/
def oneStepOff (far : AnnSet) (lose topo : AnnCmp) : AnnCmp :=
  if far.hearer < far.sender then lose else if far.sender < far.hearer then topo else .same

/-- The data set comparison of IEEE 1588: `a` against `b`. -/
def AnnSet.compare (a b : AnnSet) : AnnCmp :=
  if a.gm.drop 6 ≠ b.gm.drop 6 then (if ofBe a.gm < ofBe b.gm then .better else .worse)
  else if b.steps + 1 < a.steps then .worse
  else if a.steps + 1 < b.steps then .better
  else if b.steps < a.steps then oneStepOff a .worse .worseByTopology
  else if a.steps < b.steps then oneStepOff b .better .betterByTopology
  else if a.sender ≠ b.sender then lowerWins a.sender b.sender
  else lowerWins a.hearer b.hearer

/-- The order of the priority vectors of IEEE 802.1AS: the lower, the better. -/
def AnnSet.vector (a : AnnSet) : Nat := ofBe (a.gm ++ be 2 a.steps ++ be 10 a.sender ++ be 10 a.hearer)

/-- A data set is better than another, by topology or not, under a profile. -/
def AnnSet.beats (profile : Nat) (a b : AnnSet) : Bool :=
  if profile = 3 then decide (a.vector < b.vector)
  else match a.compare b with
    | .better => true
    | .betterByTopology => true
    | _ => false

/-- The device's own data set: clock class 248, accuracy unknown. -/
def State.ownGm (s : State) : List Byte :=
  be 1 s.ptp.prio1 ++ be 1 248 ++ be 1 0xFE ++ be 2 0xFFFF ++ be 1 s.ptp.prio2 ++ be 8 Config.ptpClockId

/-- The device's own data set: no steps away, from its port number 0. -/
def State.ownSet (s : State) : AnnSet :=
  let i := ofBe (be 8 Config.ptpClockId ++ be 2 0)
  { gm := s.ownGm, steps := 0, sender := i, hearer := i }

/-- The better of two Announce messages, each with the port that heard it. -/
def betterAnn (profile : Nat) (a : Option (Nat × List Byte)) (x : Nat × List Byte) : Option (Nat × List Byte) :=
  match a with
  | some y => if (annSet x.1 x.2).beats profile (annSet y.1 y.2) then some x else some y
  | none => some x

/-- The best Announce of the qualified foreign masters of a port. -/
def PortPtp.heardBest (q : PortPtp) (profile p : Nat) : Option (Nat × List Byte) :=
  ((q.foreign.filter (·.ok)).map (fun f => (p, f.ann))).foldl (betterAnn profile) none

/-- The best Announce that the clock ports whose link is up hold. -/
def State.bestAnn (s : State) : Option (Nat × List Byte) :=
  ((s.ports.filter (fun e => decide (e.1 < 512) && e.2.link && e.2.ptp.role == 1)).filterMap
    (fun e => e.2.ptp.heardBest s.ptp.profile e.1)).foldl (betterAnn s.ptp.profile) none

/-- The parent: the best Announce, where it is better than the device's own data set. -/
def State.parent (s : State) : Option (Nat × List Byte) :=
  s.bestAnn.filter (fun x => (annSet x.1 x.2).beats s.ptp.profile s.ownSet)

/-- The parent is heard on this port. -/
def State.ptpSlave (s : State) (p : Nat) : Bool := s.parent.any (fun x => x.1 == p)

/-- The data set that the port would announce under a parent. -/
def announced (p : Nat) (parent : List Byte) : AnnSet :=
  { gm := annGm parent, steps := annSteps parent + 1, sender := ofBe (portIdentity p), hearer := ofBe (portIdentity p) }

/-- The port is passive: the parent's data set beats what the port hears by topology alone; under 802.1AS, what it hears beats
what it would announce. -/
def State.ptpPassive (s : State) (p : Nat) : Bool :=
  match s.parent, (s.port p).ptp.heardBest s.ptp.profile p with
  | some x, some y =>
    if s.ptp.profile = 3 then (annSet p y.2).beats 3 (announced p x.2)
    else (annSet x.1 x.2).compare (annSet p y.2) == .betterByTopology
  | _, _ => false

/-- The port announces and sends Sync. -/
def State.ptpMaster (s : State) (p : Nat) : Bool := !s.ptpSlave p && !s.ptpPassive p

/-- The clock identities of an Announce's path trace. -/
def pathTrace (b : List Byte) : List Byte := if rdBe b 64 2 = 8 then slice b 68 (rdBe b 66 2) else []

/-- The path trace that a port of an 802.1AS device sends on. -/
def State.pathTlv (s : State) : List Byte :=
  let l := (match s.parent with
    | some x => pathTrace x.2
    | none => []) ++ be 8 Config.ptpClockId
  if s.ptp.profile = 3 then be 2 8 ++ be 2 l.length ++ l else []

/-- Body of an Announce: the parent's data one step on, or the device's own; UTC offset and time source are free values. -/
def State.annBody (s : State) : List Byte :=
  let gm := match s.parent with
    | some x => (annGm x.2, annSteps x.2 + 1)
    | none => (s.ownGm, 0)
  be 10 0 ++ be 2 s.freeVal ++ be 1 0 ++ gm.1 ++ be 2 gm.2 ++ be 1 (Config.freeValue (s.free + 1)) ++ s.pathTlv

/-! ### The transmit time of an event message of Moaras -/

/-- The follow-up information of 802.1AS; its rate offset is a free value. -/
def State.followTlv (s : State) : List Byte :=
  if s.ptp.profile = 3 then be 2 3 ++ be 2 28 ++ be 3 0x0080C2 ++ be 3 1 ++ be 4 s.freeVal ++ be 2 0 ++ be 12 0 ++ be 4 0 else []

/-- The Follow_Up of the Sync `seq` that left at `x`: the device's own time, or the grandmaster's with the residence time in the
correction (802.1AS). -/
def State.followUp (s : State) (p seq : Nat) (x : Nat × Nat × Nat) : List Byte :=
  let own := s.ptpMsg p 8 0 seq x.2.2 (stampBytes x ++ s.followTlv)
  match (s.port p).ptp.relay with
  | some r => if r.1 = seq then s.ptpMsg p 8 0 seq (r.2.2 + stampUnits x) (r.2.1 ++ s.followTlv) else own
  | none => own

/-- Moaras learns when its event message `seq` of type `ty` left: a Sync gets its Follow_Up, a Pdelay_Resp its own, and the
time of a Delay_Req or Pdelay_Req is kept. -/
def State.ptpSent (s : State) (p ty seq : Nat) (x : Nat × Nat × Nat) : State :=
  match ty with
  | 0 => (s.drawn 1).ptpGeneral p (s.followUp p seq x)
  | 3 => match (s.port p).ptp.replyTo with
    | some r =>
      if r.2.1 = seq then
        (s.updPtp p (fun q => { q with replyTo := none })).ptpGeneral p
          (s.ptpMsg p 10 0 seq (r.2.2 + x.2.2) (stampBytes x ++ r.1))
      else s
    | none => s
  | _ => s.updPtp p (fun q => { q with reqTx := some (seq, stampUnits x) })

end Sys2Proof.Machine
end

