-- ==== Sys2Proof/Machine/Ingress.lean ====
section
/-! DEFINITION. The ingress path of a frame: MAC checks, parse, classification, lookups, FRER, policing, tap, the way merge
and admission; the recirculation hop and the mirror queue (R16, R21 to R23, R43, R44, R81 to R91, R200, R249, R282, R476). -/

namespace Sys2Proof.Machine

/-! ### Step 6 and 7 -/

/-- The mirror session of a frame (R473, R477). -/
def State.ingressSession (s : State) (pk : Pkt) : Option Nat :=
  if bit pk.ovFlags 3 then some pk.ovMir
  else if (s.port pk.inPort).mirIn = 0xFF then none else some (s.port pk.inPort).mirIn

/-- The ingress copy, admitted as a frame of its own (R476). -/
def State.ingressMirror (s : State) (pk : Pkt) : State :=
  match s.ingressSession pk with
  | none => s
  | some no =>
    let m := s.mirrorOf no
    if !m.enable || m.interval == 0 then s
    else
      let r := s.mirCount no pk.slice m.interval
      if r.2 then
        let x := r.1.mirMake no 0 pk pk.bytes pk.slice 0xFFFF 0
        x.1.toAdmission x.2
      else r.1

/-- Fate of a tapped frame at its last byte (R287): one cut short by lack of cells counts as one received badly. -/
def Pkt.fate (pk : Pkt) (bad : Bool) : Nat :=
  if pk.dead then 2
  else if bad || pk.midCut || pk.stomp then (if pk.crossed then 3 else 2)
  else if pk.parked.isSome then 1 else 0

/-- The fate of a tapped frame whose last byte had come before step 7 ended. -/
def State.fateNow (s : State) (id : Nat) : Nat :=
  match Tab.find s.pkts id with
  | none => 2
  | some x => x.fate false

/-- Commit the tap entry of a frame that was whole before step 7. -/
def State.settle (s : State) (pk : Pkt) : State :=
  match pk.tap with
  | some n => if pk.whole then s.commitTap n pk.fcsBad (s.fateNow pk.id) else s
  | none => s

/-- Step 7 for a frame that leaves the merge. -/
def State.step7 (s : State) (id : Nat) : State :=
  let pk := s.pkt id
  (s.proofAdmit id).settle pk

/-- The merge releases the frames of one ingress port in stamp order while they are ready (R16). -/
def State.releaseMerge (s : State) (port : Nat) : Nat → State
  | 0 => s
  | n + 1 =>
    match Tab.get [] s.prism.merge port with
    | [] => s
    | id :: _ => if (s.pkt id).ready then (s.step7 id).releaseMerge port n else s

/-- Release what the merge of a port lets go. -/
def State.mergeGo (s : State) (port : Nat) : State := s.releaseMerge port (Tab.get [] s.prism.merge port).length

/-- A frame is dropped before step 7; frames that waited behind it go on. -/
def State.dropFront (s : State) (id reason : Nat) : State :=
  let pk := s.pkt id
  ((s.dropPkt id reason).settle pk).mergeGo pk.inPort

/-- A frame that waits is charged at receipt to its ingress port and priority, and to its queues once they are known
(R135); without a cell for it XOFF is asserted (R147). -/
def State.chargeWaiting (s : State) (id : Nat) : State :=
  let pk := s.pkt id
  if pk.charged then (if pk.chargedQ.isEmpty then s.chargeQ pk else s)
  else match s.chargeOf pk with
    | some q => let t := s.charge pk q
      (t.chargeQ (t.pkt id)).xoffSweep
    | none => s.needXoff pk

/-- A frame has done step 6: it goes on to step 7, or waits its turn. -/
def State.ready (s : State) (id : Nat) : State :=
  let pk := s.pkt id
  let t := (s.updPkt id (fun x => { x with ready := true })).mergeGo pk.inPort
  if (t.pkt id).ready && (Tab.get [] t.prism.merge pk.inPort).contains id then t.chargeWaiting id else t

/-! ### The plan of a frame -/

/-- What the rule's action adds to the destinations: nothing, TRAP in place of the result, COPY beside it. -/
inductive Extra where
  | none
  | trap (host : Nat)
  | copy (host : Nat)
deriving DecidableEq, Repr

/-- Destinations and egress edits fixed at steps 5 and 6. -/
structure Plan where
  ports : List Nat
  multi : Bool
  fwd : Fwd
  copyHost : Option Nat
  target : Option Nat
  /-- Member copies dropped with SAME_PORT (R259). -/
  same : Nat
deriving DecidableEq, Repr

/-- A host port beside the other destinations; one that is a destination already gets no second frame and counts no copy
(log entry 114). -/
def withCopy (ports : List Nat) (copy : Option Nat) : List Nat × Option Nat :=
  match copy with
  | some h => if ports.contains h then (ports, none) else (ports ++ [h], some h)
  | none => (ports, none)

/-- The plan of a forwarding result (R115 to R118, R251). -/
def Fwd.plan (f : Fwd) (inPort : Nat) (members : List Nat) (target copy : Option Nat) : Plan :=
  if f.frer then
    let l := members.filter (· != inPort)
    { ports := (withCopy l copy).1, multi := true, fwd := f, copyHost := (withCopy l copy).2, target := none,
      same := members.length - l.length }
  else
    let w := withCopy f.ports copy
    { ports := w.1, multi := decide (1 < w.1.length), fwd := f, copyHost := w.2, target, same := 0 }

/-- The plan of a frame that goes to one host port by a rule: TRAP, or a COPY whose forwarding dropped. -/
def hostPlan (h cause : Nat) : Plan :=
  { ports := [h], multi := false, fwd := { Fwd.to [h] 3 with cause }, copyHost := none, target := none, same := 0 }

/-- The packet with its plan. -/
def Pkt.planned (x : Pkt) (p : Plan) (smac : Nat) : Pkt :=
  { x with dests := p.ports, multi := p.multi, tagMode := p.fwd.tagMode, egVid := p.fwd.egVid, untagged := p.fwd.untagged,
           edit := p.fwd.edit, saf := x.saf || p.fwd.saf, cause := p.fwd.cause, copyHost := p.copyHost, target := p.target,
           smac }

/-! ### Steps 4 and 5 -/

/-- What steps 4 and 5 hand on. -/
structure Res5 where
  st : State
  ctx : Ctx
  /-- Counter of the outcome of R120. -/
  vx : Option Nat
  fwd : Fwd
  learn : LearnRes
  /-- The D entry, and whether the D lookup read a bad one. -/
  d : Option EmEntry
  badD : Bool
  /-- The stream that recovers the frame. -/
  recov : Option (Nat × FrerCfg)
  /-- The R lookup hit. -/
  rHit : Bool
  /-- The fixity entry; none where its lookup found a parity error (R278). -/
  x : Option EmEntry

/-- The target that the frame is addressed to (R309). -/
def Res5.target (r : Res5) : Option Nat :=
  match r.d with
  | none => none
  | some e => if (emData e.data).targetValid then some (emData e.data).target else none

/-- Steps 4 and 5: the lookups that every pass makes (R100), and the forwarding result. -/
def State.steps45 (s : State) (pk : Pkt) (prof : Profile) : Res5 :=
  let z := s.terminate (s.ctx0 pk prof)
  let c := z.2.1
  let d := z.1.lookD c
  let l := (hitD d).lookS c
  let s1 := l.st.hitS c l
  let s2 := match l.hit.bind (fun x => c.sourceTarget x.2) with
    | some t => s1.fromTarget t
    | none => s1
  let r := s2.lookR c
  let x := r.mark.lookX c
  let cfg := r.hit.map (fun e => (emIndex e.2.data, c.g.frerAt (emIndex e.2.data)))
  { st := x.mark, ctx := c, vx := z.2.2, fwd := x.mark.forwarding c (d.hit.map (·.2)), learn := x.mark.learnTest c l.hit,
    d := d.hit.map (·.2), badD := d.bad, recov := cfg.filter (fun y => y.2.recover), rHit := r.hit.isSome,
    x := if x.bad then none else x.hit.map (·.2) }

/-- The drop decided by step 5: the forwarding result's, or LEARN_LIMIT (R123). -/
def Res5.drop (r : Res5) : Option Nat :=
  match r.fwd.drop with
  | some x => some x
  | none => if r.learn = .excess ∧ (r.st.port r.ctx.pk.inPort).learnFwd = false then some 14 else none

/-- The frame is forwarded by its D entry or prefix. -/
def Res5.forwarded (r : Res5) (extra : Extra) : Bool :=
  match extra with
  | .trap _ => false
  | _ => r.drop.isNone

/-- The outcome of R120 counts for a frame that is forwarded on its outer header, and for one terminated whatever becomes of it. -/
def Res5.countOuter (r : Res5) (s : State) (go : Bool) : State :=
  match r.vx with
  | some n => if n = 22 || go then s.bumpFwdAt r.ctx.pk.slice n 1 else s
  | none => s

/-- Counters of steps 4 and 5 (R127, R129): those of forwarding only for a frame that is forwarded. -/
def Res5.counted (r : Res5) (extra : Extra) : State :=
  let go := r.forwarded extra
  let a := if r.fwd.parity then r.st.tabParity else r.st
  let b := match extra with
    | .trap _ => a
    | _ => r.countOuter a go
  let c := if go then b.countFwd r.ctx.pk.inPort r.fwd r.badD else b
  match r.learn with
  | .static => c.bumpFwdAt r.ctx.pk.slice 8 1
  | .excess => if go && (c.port r.ctx.pk.inPort).learnFwd then c.bumpFwdAt r.ctx.pk.slice 5 1 else c
  | _ => c

/-- The learn event leaves for its FIFO. -/
def Res5.queued (r : Res5) (s : State) : State :=
  if r.learn = .event then s.queueLearn r.ctx.pk.slice r.ctx.event else s

/-! ### Step 6 -/

/-- Recovery, before anything else of step 6 (R249). -/
def State.recoverStep (s : State) (r : Res5) (rtag : Option Nat) : State × RecRes :=
  let t := if rtag.isSome && !r.rHit then s.bumpRed 9 1 else s
  match r.recov with
  | none => (t, .pass)
  | some (st, cfg) => t.frerRecover st cfg rtag

/-- Generation where the frame is forwarded by its D entry. -/
def State.generateStep (s : State) (r : Res5) (id : Nat) (forwarded : Bool) : State :=
  match r.ctx.genStream r.d with
  | some (st, _) => if forwarded then s.frerGenerate (s.pkt id) st else s
  | none => s

/-- The rest of step 6 for a frame that recovery passed: replication, policing, mirror copy and tap. -/
def State.step6 (s : State) (id : Nat) (r : Res5) (prof : Profile) (same : Nat) : State :=
  let a := (List.range same).foldl (fun t _ => t.countDrop (s.pkt id) 11 (s.pkt id).inPort) s
  let b := a.police (a.pkt id)
  let c := b.1.ingressMirror (b.1.pkt id)
  let d := match r.x with
    | some e => c.tapDecision (c.pkt id) e.data prof
    | none => c
  if b.2 then d.dropFront id 17
  else if (d.pkt id).dests.isEmpty then
    let pk := d.pkt id
    (((d.retire pk).release id).settle pk).mergeGo pk.inPort
  else d.ready id

/-- The plan of a frame; a stream with members ignores the target (R251): TRAP takes the place of the result, a COPY goes beside it and survives its drop (log entry 22). -/
def Res5.plan (r : Res5) (extra : Extra) : Plan :=
  let members := ((r.ctx.genStream r.d).map (·.2.members)).getD []
  let target := if members.isEmpty then r.target else none
  match extra, r.drop with
  | .trap h, _ => hostPlan h 1
  | .copy h, some _ => hostPlan h 2
  | .copy h, none => r.fwd.plan r.ctx.pk.inPort members target (some h)
  | .none, _ => r.fwd.plan r.ctx.pk.inPort members target none

/-- A frame that its rule or its forwarding result drops on its last pass: the ingress copy and the tap of step 6 are still
made (R278, R473), policing and FRER are not (log entry 99). -/
def State.dropLast (s : State) (id : Nat) (r : Res5) (prof : Profile) (reason : Nat) : State :=
  let a := s.ingressMirror (s.pkt id)
  (match r.x with
    | some e => a.tapDecision (a.pkt id) e.data prof
    | none => a).dropFront id reason

/-- A pass that ends in a drop by its rule or a limit of R91: its lookups and its learn event are made (R100, R122), and
bad parity in a table is the reason where steps 4 and 5 met it (R127; log entry 114). -/
def Res5.dropPass (r : Res5) (id : Nat) (prof : Profile) (reason : Nat) : State :=
  let t := if r.fwd.parity then r.st.tabParity else r.st
  (r.queued (if r.learn = .static then t.bumpFwdAt r.ctx.pk.slice 8 1 else t)).dropLast id r prof
    (if r.fwd.parity then 15 else reason)

/-- A pass whose rule drops the frame. -/
def State.rulePass (s : State) (id : Nat) (prof : Profile) : State :=
  (s.steps45 (s.pkt id) prof).dropPass id prof 7

/-- Steps 4 to 6 of the last pass. -/
def State.lastPass (s : State) (id : Nat) (prof : Profile) (extra : Extra) : State :=
  let pk := s.pkt id
  let r := s.steps45 pk prof
  let t := r.counted extra
  if r.fwd.parity then (r.queued t).dropLast id r prof 15
  else match extra, r.drop with
  | .none, some reason => (r.queued t).dropLast id r prof reason
  | _, _ =>
    let p := r.plan extra
    let t := match extra, r.drop with
      | .copy _, some reason => t.countDrop pk reason 0xFFFF
      | _, _ => t
    let rtag := (parseTags pk.bytes).rtag
    let u := t.recoverStep r rtag
    match u.2 with
    | .drop reason => u.1.dropFront id reason
    | .pass =>
      let strip := r.recov.any (fun y => y.2.strip)
      let v := u.1.updPkt id (fun x => { x.planned p r.ctx.h.smac with strip })
      ((r.queued v).generateStep r id (r.forwarded extra)).step6 id r prof p.same

/-! ### Steps 1 to 3 -/

/-- The metadata of a pass (R73, R74); VID, PCP and Tagged are those of the first pass (log entry 99). -/
def State.passMeta (s : State) (pk : Pkt) : PassMeta :=
  { inPort := pk.inPort, vid := pk.vid, pcp := pk.pcp, pass := pk.pass, rtag := (parseTags pk.bytes).rtag.isSome,
    tagged := pk.tagged, md := pk.md,
    cls := ((s.prism.bank pk.epoch).port (if pk.pass = 0 then pk.inPort else 516 + pk.slice)).cls }

/-- Counters of a pass (R94) and the hit counter of its rule (R93). -/
def State.countPass (s : State) (pk : Pkt) (o : PrismOut) (hit : Option (Nat × RuleAct)) : State :=
  let a := s.bumpPrism pk.slice (if pk.pass = 0 then 0 else 1) 1
  let b := ((a.bumpPrism pk.slice 2 (b2n o.short)).bumpPrism pk.slice 3 (b2n o.frag)).bumpPrism pk.slice 4 (b2n o.unknown)
  match hit with
  | some (n, _) => { b with prism := { b.prism with hits := Tab.bump b.prism.hits (3072 * pk.slice + n) 1 } }
  | none => b.bumpPrism pk.slice 5 1

/-- Overrides of a rule (R82, R83, R134). -/
def State.override (s : State) (pk : Pkt) (a : RuleAct) (o : PrismOut) (idx : Nat) : State :=
  let same := (s.classCfg a.tc).lossless == (s.classCfg pk.prio).lossless
  let t := if bit a.flags 0 && !same then s.bumpBufAt pk.slice 10 1 else s
  t.updPkt pk.id (fun x =>
    { x with
      tc := if bit a.flags 0 && same then a.tc else x.tc
      slot := if bit a.flags 1 then a.slot else x.slot
      ovPol := if bit a.flags 2 then a.pol else x.ovPol
      ovMir := if bit a.flags 3 then a.mir else x.ovMir
      ovFlags := x.ovFlags ||| a.flags
      rule := idx
      keyFlags := b2n o.short + 2 * b2n o.frag + 4 * b2n o.unknown + 8 * b2n (parseTags x.bytes).rtag.isSome
        + 16 * b2n x.tagged })

/-- A frame enters its slice's recirculation queue (R90). -/
def State.requeue (s : State) (id : Nat) (a : RuleAct) : State :=
  let t := { s with prism :=
    { s.prism with recirc := Tab.upd [] s.prism.recirc (s.pkt id).slice (fun l => l ++ [id]) } }
  (t.updPkt id (fun x => { x with tmpl := a.tmpl, md := a.md })).chargeWaiting id

/-- RECIRCULATE (R90, R91): a drop at a limit or for bad parity makes this pass the frame's last. -/
def State.recirculate (s : State) (id : Nat) (prof : Profile) (a : RuleAct) : State :=
  let pk := s.pkt id
  let r := s.steps45 pk prof
  if r.fwd.parity || decide (2 ≤ pk.pass) then r.dropPass id prof 8
  else if 64 ≤ (Tab.get [] s.prism.recirc pk.slice).length then r.dropPass id prof 9
  else r.st.requeue id a

/-- Steps 2 to 6 of one pass. -/
def State.runPass (s : State) (id : Nat) : State :=
  let pk := s.pkt id
  let k := s.prism.bank pk.epoch
  let o := k.extract pk.bytes (parseTags pk.bytes) (s.passMeta pk)
  let hit := k.classify pk.slice o.key
  let a := (hit.map (·.2)).getD RuleAct.init
  let t := (s.countPass pk o hit).override pk a o ((hit.map (·.1)).getD 0xFFFF)
  match a.op with
  | 1 => t.rulePass id o.prof
  | 2 => t.lastPass id o.prof (.trap (512 + a.host))
  | 3 => t.lastPass id o.prof (.copy (512 + a.host))
  | 4 => t.recirculate id o.prof a
  | _ => t.lastPass id o.prof .none

/-- Slice that holds the frames of an ingress port (R15). -/
def entrySlice (p : Nat) : Nat := if p < 512 then p / 32 else 4 * (p - 512)

/-- A packet as it enters step 1: VLAN and PCP (R51), class (R83), epoch and generation (R89, R108), receive time. -/
def State.newPkt (s : State) (port : Nat) (bytes : List Byte) (rxLen : Nat) (whole : Bool) : Pkt :=
  let t := parseTags bytes
  let q := s.port port
  let tci := t.tci.getD 0
  let vid := if t.tci.isSome ∧ tci % 4096 ≠ 0 then tci % 4096 else q.pvid
  let pcp := if t.tci.isSome then tci / 8192 else q.pcp
  let prio := ((s.prism.bank s.prism.epoch).port port).map.getD pcp 0
  let x := stampOf (s.rxTime port)
  { Pkt.init with
    id := s.nextPkt, inPort := port, slice := entrySlice port, bytes, rxLen, whole, vid, pcp, dei := bit tci 12,
    tagged := t.tci.isSome && tci % 4096 != 0, epoch := s.prism.epoch, gen := s.fwd.gen, prio, tc := prio, tsSec := x.1,
    tsNs := x.2.1, tsFrac := x.2.2, tsValid := (ptpEvent bytes).isSome && q.ptp.mode != 0,
    overLong := decide (bytes.length + 4 < rxLen), unlocked := s.time.state != .locked }

/-- Enter step 1: the packet is numbered, stamped, counted in flight and takes its place in the merge. -/
def State.enter (s : State) (pk : Pkt) : State :=
  let t := { s with
    pkts := Tab.insert pk.id pk s.pkts
    nextPkt := pk.id + 1
    free := s.free + (if pk.inPort < 512 then 1 else 0)
    prism := { s.prism with
      inCur := s.prism.inCur + 1
      merge := Tab.upd [] s.prism.merge pk.inPort (fun l => l ++ [pk.id]) }
    fwd := { s.fwd with inGenCur := s.fwd.inGenCur + 1 } }
  if pk.tsValid then t.bumpTime pk.inPort 0 1 else t

/-- A frame enters the pipeline at its first pass. -/
def State.firstPass (s : State) (pk : Pkt) : State := (s.enter pk).runPass pk.id

/-! ### The ingress MAC (R20, R43 to R45, R55, R149, R222, R423) -/

/-- Frames that the MAC consumes: MAC control, Lane Throttle, domain. Their effects are rows of their own. -/
def macConsumes (b : List Byte) : Bool :=
  let et := fld b 12 2
  (et == 0x8808 && (fld b 14 2 == 1 || fld b 14 2 == 0x0101)) || (et == 0x88B5 && (fld b 14 1 == 1 || fld b 14 1 == 3))

/-- A Lane Throttle frame of version 1 with no message type of R55: no row acts on it (log entry 113). -/
def ltUnknown (b : List Byte) : Bool :=
  fld b 12 2 == 0x88B5 && fld b 14 1 == 1 && fld b 15 1 == 1 && (fld b 16 1 == 0 || decide (6 ≤ fld b 16 1))

/-- A frame that is dropped at the MAC. -/
def State.macDrop (s : State) (pk : Pkt) (reason : Nat) : State := s.countDrop pk reason 0xFFFF

/-- A packet kept only until its last byte has come: for Moaras, or to test its FCS, if `take`. -/
def State.awaitTail (s : State) (pk : Pkt) (take : Bool) : State :=
  { s with pkts := Tab.insert pk.id { pk with dead := true, toMoaras := take } s.pkts, nextPkt := pk.id + 1,
           free := s.free + 1 }

/-- The ingress MAC buffer is full during a stretch of its slice (R20, R149). -/
def State.overrun (s : State) (port : Nat) (full : Bool) : Bool := full && (s.sliceSt (port / 32)).stretched

/-- A lossless frame whose bytes the hold buffer cannot take is charged at receipt and takes landing cells (R149); without
headroom for them it is dropped (R142). -/
def State.landIn (s : State) (pk : Pkt) : State :=
  match s.chargeOf pk with
  | none => (((s.needXoff pk).macDrop pk 24).raiseLimited 0x0501 sevWarning pk.inPort 1000000000 [])
  | some q =>
    let t := (s.enter pk).charge pk q
    let r := t.buf.alloc pk.slice pk.nCells []
    ((({ t with buf := r.1 }).updPkt pk.id (fun x => { x with landing := r.2 })).bumpBufAt pk.slice 13 pk.nCells).xoffSweep.runPass pk.id

/-- A received frame (without its FCS) of a network port whose link is up; one that the MAC consumes is the event of
another row, but for a Lane Throttle frame that none names. -/
def State.frameIn (s : State) (port : Nat) (bytes : List Byte) (full : Bool) : State :=
  let n := bytes.length + 4
  let t := (s.bumpPort port 0 1).bumpPort port 1 n
  let b := bytes.take ((s.port port).maxLen - 4)
  let pk := t.newPkt port b n false
  if macConsumes bytes && !ltUnknown bytes then s
  else if n < 64 then (t.bumpPort port 3 1).macDrop pk 2
  else if ltUnknown bytes then t.awaitTail pk true
  else if s.overrun port full && !(s.classCfg pk.prio).lossless then t.macDrop pk 4
  else if moarasTakes (s.port port).ptp.role bytes then
    (if pk.tsValid then t.bumpTime port 0 1 else t).awaitTail pk true
  else if s.overrun port full then t.landIn pk
  else t.firstPass pk

/-- FRAME_INGRESS: a frame arrives at a network port; one whose link is down receives nothing. -/
def execFrameIngress (port : Nat) (bytes : List Byte) (full : Bool) (s : State) : Host.Outcome State Fault Refusal :=
  if 512 ≤ port then .fault (.noSuchUnit "network port")
  else if (s.port port).link then .next (s.frameIn port bytes full) else .next s

/-! ### The last byte (R44) -/

/-- A frame none of which has left is dropped at its last byte: admitted or not. -/
def State.dropTail (s : State) (pk : Pkt) (reason : Nat) : State :=
  if pk.ready || !pk.cells.isEmpty || pk.spilled || pk.parked.isSome then
    let t := s.countDrop pk reason 0xFFFF
    let u := match pk.parked with
      | some idx => t.leavePark idx pk
      | none => t.pull pk
    ((if pk.cells.isEmpty && !pk.spilled && pk.parked.isNone then u.retire pk else u).release pk.id).mergeGo pk.inPort
  else (s.dropPkt pk.id reason).mergeGo pk.inPort

/-- A frame received whole and good: a gated VOQ asks for it or drops it, spilled or not (R240), and its VOQ may start it. -/
def State.wholeIn (s : State) (pk : Pkt) : State :=
  match pk.dests, pk.multi with
  | [p], false =>
    let v := voqNo p pk.tc pk.slot
    let here := (s.voq pk.slice v).q.contains pk.id
    if here || (s.voq pk.slice v).spillQ.contains pk.id then
      if s.neverFits p pk.tc (pk.outLen p) then s.dropUnfit pk.id p
      else if here then (s.ask pk p v).startFrames pk.slice v
      else s
    else s
  | _, _ => s

/-- The tap entry at the last byte: rewound where reception stopped at the limit, else committed, unless step 7 is still to
come. -/
def State.tapTail (s : State) (pk : Pkt) (tooLong bad : Bool) : State :=
  match pk.tap with
  | none => s
  | some n =>
    if tooLong then s.rewindTap n false (pk.fate true)
    else if pk.ready && pk.cells.isEmpty && !pk.spilled && pk.parked.isNone && !bad && !pk.dead then s
    else s.commitTap n bad (pk.fate bad)

/-- What Moaras gets of a frame it consumes: the message and its stamp (R222). -/
def Pkt.ptpRx (pk : Pkt) : PtpRx :=
  { bytes := pk.bytes.drop ((ptpAny pk.bytes).getD 0)
    stamp := if pk.tsValid then some (stampUnits (pk.tsSec, pk.tsNs, pk.tsFrac)) else none }

/-- The last byte of a packet has come. -/
def State.tailIn (s : State) (id : Nat) (fcsOk : Bool) : State :=
  let pk := s.pkt id
  let tooLong := pk.overLong
  let bad := tooLong || !fcsOk
  let t := if tooLong then s.bumpPort pk.inPort 4 1 else if fcsOk then s else s.bumpPort pk.inPort 2 1
  let u := t.updPkt id (fun x => { x with whole := true, fcsBad := !fcsOk && !tooLong, stomp := x.stomp || (bad && x.crossed) })
  let x := u.pkt id
  let v := u.tapTail x tooLong bad
  if pk.dead then
    let w := { v with pkts := Tab.erase id v.pkts }
    if pk.toMoaras then
      if bad then w.countDrop pk (if tooLong then 3 else 1) 0xFFFF
      else if ltUnknown pk.bytes then w
      else w.updPtp pk.inPort (fun q => { q with rx := q.rx ++ [pk.ptpRx] })
    else w
  else if bad && !pk.crossed then v.dropTail x (if tooLong then 3 else 1)
  else v.wholeIn x

/-- FRAME_TAIL_RECEIVED. -/
def execFrameTailReceived (id : Nat) (fcsOk : Bool) (s : State) : Host.Outcome State Fault Refusal :=
  match Tab.find s.pkts id with
  | some pk => if pk.whole then .next s else .next (s.tailIn id fcsOk)
  | none => .next s

/-! ### Recirculation and the mirror queue -/

/-- The template of a recirculation hop is applied (R90, R121); its draws are taken. -/
def State.applyHop (s : State) (pk : Pkt) (t : Template) : State :=
  let v := (s.fwd.tables pk.gen).vlanAt pk.vid
  let b := t.apply pk.bytes (s.fwd.h2 (lookupHdr pk.bytes (parseTags pk.bytes)) v.vrf v.fid)
    (fun i => Config.freeValue (s.free + i))
  let a := s.bare pk
  let u := (a.drawn tmplDraws).updPkt pk.id (fun x =>
    { x with bytes := b, rxLen := x.rxLen + b.length - x.bytes.length, saf := x.saf || t.kind == 2 })
  if t.kind = 3 then u else u.bumpFwdAt pk.slice 23 1

/-- The head of a slice's recirculation queue makes the hop and its next pass. -/
def State.hop (s : State) (sl id : Nat) : State :=
  let pk := s.pkt id
  let s := { s with prism := { s.prism with recirc := Tab.upd [] s.prism.recirc sl (fun l => without l id) } }
  let t := (s.fwd.tables pk.gen).tmplAt pk.tmpl
  let next : State → State := fun u => (u.updPkt id (fun x => { x with pass := x.pass + 1 })).runPass id
  if pk.tmpl = 0 then next s
  else if s.badTab 6 pk.tmpl then s.tabParity.dropFront id 15
  else if t.kind = 0 then
    (s.raise 0x0301 sevWarning (le 1 sl ++ le 2 pk.tmpl ++ le 1 pk.pass)).dropFront id 8
  else next (s.applyHop pk t)

/-- RECIRCULATION_PASS. -/
def execRecirculationPass (slice : Nat) (s : State) : Host.Outcome State Fault Refusal :=
  if 16 ≤ slice then .fault (.noSuchUnit "slice")
  else match Tab.get [] s.prism.recirc slice with
    | id :: _ => .next (s.hop slice id)
    | [] => .next s

/-- MIRROR_QUEUE_ADMIT: the oldest copy enters admission when no recirculated pass waits (R476). -/
def execMirrorQueueAdmit (slice : Nat) (s : State) : Host.Outcome State Fault Refusal :=
  if 16 ≤ slice then .fault (.noSuchUnit "slice")
  else match Tab.get [] s.tel.mirQ slice, Tab.get [] s.prism.recirc slice with
    | id :: rest, [] => .next (({ s with tel := { s.tel with mirQ := Tab.set [] s.tel.mirQ slice rest } }).toAdmission id)
    | _, _ => .next s

end Sys2Proof.Machine
end

