-- ==== Sys2Proof/Machine/LaneThrottle.lean ====
section
/-! DEFINITION. Frames that the ingress MAC consumes, and the Lane Throttle exchange (R45, R53 to R63). -/

namespace Sys2Proof.Machine

/-! ### Frames consumed by the MAC -/

/-- A frame for the MAC itself: counted, dropped where R44 or R45 says, else acted on. A port whose link is down receives
nothing. -/
def State.ctlRx (s : State) (p : Nat) (bytes : List Byte) (fcsOk : Bool) (act : State → State) : State :=
  if (s.port p).link = false then s
  else
    let n := bytes.length + 4
    let t := (s.bumpPort p 0 1).bumpPort p 1 n
    let pk := t.newPkt p (bytes.take ((s.port p).maxLen - 4)) n true
    if n < 64 then (t.bumpPort p 3 1).macDrop pk 2
    else if (s.port p).maxLen < n then (t.bumpPort p 4 1).macDrop pk 3
    else if fcsOk = false then (t.bumpPort p 2 1).macDrop pk 1
    else act t

/-- The tap entry of a frame whose reception is lost cannot be completed: rewound (R283; log entry 114). -/
def State.loseTap (s : State) (pk : Pkt) : State :=
  match pk.tap with
  | some n => s.rewindTap n false (pk.fate true)
  | none => s

/-- A frame being received is lost: what has crossed of it ends with a complemented FCS (R44). -/
def State.loseFrame (s : State) (pk : Pkt) : State :=
  let t := (s.loseTap pk).updPkt pk.id (fun x => { x with whole := true, stomp := x.stomp || x.crossed })
  if pk.dead then { t with pkts := Tab.erase pk.id t.pkts }
  else if pk.crossed then t
  else
    let u := match pk.parked with
      | some idx => t.leavePark idx pk
      | none => t.pull pk
    (if pk.cells.isEmpty && !pk.spilled && pk.parked.isNone then u.retire pk else u).release pk.id

/-- The frames being received on a port are lost without a drop reason, counted in the port counter `ctr` (R59, R66). -/
def State.loseRx (s : State) (p ctr : Nat) : State :=
  (s.pkts.filter (fun x => x.2.inPort == p && !x.2.whole && (!x.2.dead || x.2.toMoaras))).foldl (fun t x =>
    (t.loseFrame x.2).bumpPort p ctr 1) s

/-- A frame ignored by the MAC (R45, R46, R55). -/
def State.ctlIgnore (s : State) (p : Nat) : State := s.bumpPort p 7 1

/-- A Lane Throttle frame of message type `type`; one of another version is discarded (R55). -/
def State.ltRx (s : State) (p type : Nat) (bytes : List Byte) (fcsOk : Bool) (act : State → State) : State :=
  if fld bytes 12 2 = 0x88B5 ∧ fld bytes 14 1 = 1 then
    if fld bytes 15 1 ≠ 1 then s.ctlRx p bytes fcsOk (fun t => t.ctlIgnore p)
    else if fld bytes 16 1 = type then s.ctlRx p bytes fcsOk act
    else s
  else s

/-! ### The exchange -/

/-- Lane Throttle operates on the port: 4 or 8 lanes with RS(544,514) (R53). -/
def State.ltFits (s : State) (p : Nat) : Bool := s.portActive p && ((s.lane p).mode == 1 || (s.lane p).mode == 2)

/-- A width change is over: its record is cleared and the dwell starts again. -/
def LtSt.settle (l : LtSt) (st : LtState) (width : Nat) : LtSt :=
  { l with state := st, width, initiator := false, target := 0, sends := 0, haveAck := false, locked := false,
           sentSwitch := false, quietWindows := 0 }

/-- The state a port returns to at full width. -/
def LtSt.rest (l : LtSt) : LtState := if l.enable && l.partnerOk then .full else .disabled

/-- The link restarts at full width (R59): LT_RECOVERY; the frames of the port, queued or in flight, are lost. -/
def State.ltRecover (s : State) (p : Nat) : State :=
  ((((s.loseRx p 17).loseQueued p 17).linkDown p (some 17)).updPort p (fun q => { q with training := true })).raise 0x0203 sevWarning []

/-- Both SWITCH frames are done (R60, R63). A port whose Lane Throttle was disabled meanwhile widens again. -/
def State.ltDone (s : State) (p : Nat) : State :=
  let l := (s.port p).lt
  let t := match l.state with
    | .narrowing => (s.updLt p (fun l => l.settle .narrow l.target)).raise 0x0204 sevInfo []
    | _ => (s.updLt p (fun l => l.settle l.rest 0)).raise 0x0205 sevInfo []
  let u := t.bumpPort p 16 1
  if l.state = .narrowing then (if l.enable then u.ltDepth p else u.ltWiden p) else u

/-- Send SWITCH, the last frame at the old width; lanes that the target leaves unused are parked (R57). -/
def State.ltSwitch (s : State) (p : Nat) : State :=
  let l := (s.port p).lt
  let t := s.ltSend p 5 l.txId l.target 0 1
  (t.updLt p (fun l => { l with sentSwitch := true, width := if l.target = t.fullWidth p then 0 else l.target })).parkLanes
    p l.target

/-- Send ACK as responder. -/
def State.ltAck (s : State) (p : Nat) : State :=
  let l := (s.port p).lt
  (s.updLt p (fun l => { l with haveAck := true })).ltSend p 3 l.txId l.target 0 0

/-- Send NAK. -/
def State.ltNak (s : State) (p id target reason : Nat) : State := s.ltSend p 4 id target reason 0

/-- Bytes of a 10 us window at the capacity of `w` lanes (R60). -/
def windowBytes (w : Nat) : Nat := 250000 * w

/-- Accept a REQ as responder. A narrowing keeps its receivers locked and is acknowledged at once; a widening raises the
parked transmitters and waits for its receivers, unless no lane was parked. -/
def State.ltAccept (s : State) (p id target : Nat) : State :=
  let full := s.fullWidth p
  let open' := (s.port p).lt.width = 0
  let l' := fun (l : LtSt) =>
    { l with state := if target = full then .widening else .narrowing, initiator := false, txId := id, target, sends := 0,
             haveAck := false, locked := target ≠ full || open', sentSwitch := false }
  let t := s.updLt p l'
  if target = full ∧ ¬ open' then t.parkLanes p full else t.ltAck p

/-- Why a REQ for a narrower width is refused (R55, R58). -/
def State.ltRefusal (s : State) (p target : Nat) : Option Nat :=
  let l := (s.port p).lt
  if l.enable = false ∨ l.state = .disabled then some 4
  else if target = 0 ∨ 2 < target ∨ (target = 1 ∧ l.minWidth = 2) then some 3
  else if l.state ≠ .full then some 1
  else if l.threshold * windowBytes target < 100 * l.util then some 2
  else none

/-- A REQ that crosses this port's own (R59): this port remains initiator. -/
def State.ltKeeps (s : State) (p src target : Nat) : Bool :=
  let l := (s.port p).lt
  let full := s.fullWidth p
  if l.target = full ∧ target ≠ full then true
  else if l.target ≠ full ∧ target = full then false
  else decide (src ≤ (s.port p).mac)

/-- A received REQ (R58, R59); one for full width is acknowledged in state DISABLED too (log entry 97). -/
def State.ltReq (s : State) (p src id target : Nat) : State :=
  let l := (s.port p).lt
  let busy := l.state = .narrowing ∨ l.state = .widening
  if busy ∧ l.initiator = false ∧ l.txId = id then if l.haveAck then s.ltAck p else s
  else if busy ∧ l.initiator ∧ s.ltKeeps p src target then s
  else if target = s.fullWidth p then
    if l.state = .disabled then s.ltSend p 3 id target 0 0 else s.ltAccept p id target
  else
    let t := if busy ∧ l.initiator then s.updLt p (fun l => l.settle .full l.width) else s
    match t.ltRefusal p target with
    | some r => t.ltNak p id target r
    | none => t.ltAccept p id target

/-- A received CAP (R56, R60). -/
def State.ltCap (s : State) (p caps : Nat) : State :=
  let fits := s.ltFits p
  s.updLt p (fun l =>
    { l with partnerCaps := caps, partnerOk := true,
             state := if l.enable && fits && l.state == .disabled then .full else l.state })

/-- A received ACK (R57). -/
def State.ltGotAck (s : State) (p id : Nat) : State :=
  let l := (s.port p).lt
  if l.initiator ∧ l.txId = id ∧ l.haveAck = false then
    let t := s.updLt p (fun l => { l with haveAck := true })
    if l.locked then t.ltSwitch p else t
  else s

/-- A received NAK (R59). -/
def State.ltGotNak (s : State) (p id : Nat) : State :=
  let l := (s.port p).lt
  if l.initiator ∧ l.txId = id ∧ l.state = .narrowing ∧ l.sentSwitch = false then
    s.updLt p (fun l => l.settle .full 0)
  else s

/-- A received SWITCH (R57): the responder sends its own; both are then done. -/
def State.ltGotSwitch (s : State) (p id : Nat) : State :=
  let l := (s.port p).lt
  if l.txId = id ∧ (l.state = .narrowing ∨ l.state = .widening) then
    if l.initiator then (if l.sentSwitch then s.ltDone p else s)
    else if l.haveAck then (s.ltSwitch p).ltDone p
    else s
  else s

/-- The receivers lock on the raised lanes (R57, R62). -/
def State.ltLocked (s : State) (p : Nat) : State :=
  let l := (s.port p).lt
  if l.state = .widening ∧ l.locked = false then
    let t := s.updLt p (fun l => { l with locked := true })
    if l.initiator then (if l.haveAck then t.ltSwitch p else t) else t.ltAck p
  else s

/-- No answer to a REQ in time (R59). -/
def State.ltReqTimeout (s : State) (p : Nat) : State :=
  let l := (s.port p).lt
  if l.initiator ∧ l.haveAck = false ∧ (l.state = .narrowing ∨ l.state = .widening) then
    if l.sends < 3 then (s.updLt p (fun l => { l with sends := l.sends + 1 })).ltSend p 2 l.txId l.target 0 0
    else if l.state = .narrowing then s.updLt p (fun l => l.settle .full 0)
    else s.ltRecover p
  else s

/-- The responder got no SWITCH: it aligns at the target width, or the link restarts (R59). -/
def State.ltSwitchTimeout (s : State) (p : Nat) (aligned : Bool) : State :=
  let l := (s.port p).lt
  if l.initiator = false ∧ l.haveAck ∧ (l.state = .narrowing ∨ l.state = .widening) then
    if aligned then (s.ltSwitch p).ltDone p else s.ltRecover p
  else s

/-- The narrow width a port would take: what it and its partner allow (R53, R55). -/
def LtSt.narrowTo (l : LtSt) : Nat :=
  if l.minWidth = 1 ∧ bit l.partnerCaps 0 then 1 else if bit l.partnerCaps 1 then 2 else 0

/-- Start a narrowing (R57, R60). -/
def State.ltNarrow (s : State) (p w : Nat) : State :=
  let id := ((s.port p).lt.txId + 1) % 256
  (s.updLt p (fun l =>
    { l with state := .narrowing, initiator := true, txId := id, target := w, sends := 1, haveAck := false, locked := true,
             sentSwitch := false, quietWindows := 0 })).ltSend p 2 id w 0 0

/-- The end of a 10 us window (R60, R61). -/
def State.ltWindow (s : State) (p tx rx : Nat) : State :=
  let l := (s.port p).lt
  let w := l.narrowTo
  let quiet := w ≠ 0 && decide (100 * tx < l.threshold * windowBytes w) && decide (100 * rx < l.threshold * windowBytes w)
  let n := if quiet then l.quietWindows + 1 else 0
  let t := s.updLt p (fun l => { l with util := tx, quietWindows := if l.state = .full then n else 0 })
  match l.state with
  | .full => if 100 * l.dwell ≤ n ∧ l.enable ∧ s.ltFits p then t.ltNarrow p w else t
  | .narrow => if 90 * windowBytes l.width ≤ 100 * tx then t.ltWiden p else t
  | _ => t

/-- No CAP of the partner for 3 s (R56): the port is DISABLED at full width; one that was narrow returns to full width at once (log
entry 97). -/
def State.ltCapTimeout (s : State) (p : Nat) : State :=
  (s.updLt p (fun l => { l.settle .disabled 0 with partnerOk := false, partnerCaps := 0 })).parkLanes p (s.fullWidth p)

/-! ### The rows -/

/-- A row about a network port. -/
def onPort (p : Nat) (t : State) : Host.Outcome State Fault Refusal :=
  if 512 ≤ p then .fault (.noSuchUnit "network port") else .next t

def execLtCapReceived (port : Nat) (bytes : List Byte) (fcsOk : Bool) (s : State) : Host.Outcome State Fault Refusal :=
  onPort port (s.ltRx port 1 bytes fcsOk (fun t => t.ltCap port (fld bytes 20 1)))
def execLtReqReceived (port : Nat) (bytes : List Byte) (fcsOk : Bool) (s : State) : Host.Outcome State Fault Refusal :=
  onPort port (s.ltRx port 2 bytes fcsOk (fun t => t.ltReq port (fld bytes 6 6) (fld bytes 17 1) (fld bytes 18 1)))
def execLtAckReceived (port : Nat) (bytes : List Byte) (fcsOk : Bool) (s : State) : Host.Outcome State Fault Refusal :=
  onPort port (s.ltRx port 3 bytes fcsOk (fun t => t.ltGotAck port (fld bytes 17 1)))
def execLtNakReceived (port : Nat) (bytes : List Byte) (fcsOk : Bool) (s : State) : Host.Outcome State Fault Refusal :=
  onPort port (s.ltRx port 4 bytes fcsOk (fun t => t.ltGotNak port (fld bytes 17 1)))
def execLtSwitchReceived (port : Nat) (bytes : List Byte) (fcsOk : Bool) (s : State) : Host.Outcome State Fault Refusal :=
  onPort port (s.ltRx port 5 bytes fcsOk (fun t => t.ltGotSwitch port (fld bytes 17 1)))

/-- LT_CAP_TICK: CAP is sent while Lane Throttle is enabled (R56). -/
def execLtCapTick (port : Nat) (s : State) : Host.Outcome State Fault Refusal :=
  onPort port (if (s.port port).lt.enable && (s.port port).link && s.ltFits port then s.ltSend port 1 0 0 0 0 else s)
def execLtCapTimeout (port : Nat) (s : State) : Host.Outcome State Fault Refusal :=
  onPort port (if (s.port port).link then s.ltCapTimeout port else s)
/-- LT_UTIL_WINDOW: bytes transmitted and received in the window. -/
def execLtUtilWindow (port txBytes rxBytes : Nat) (s : State) : Host.Outcome State Fault Refusal :=
  onPort port (if (s.port port).link then s.ltWindow port txBytes rxBytes else s)
def execLtReqTimeout (port : Nat) (s : State) : Host.Outcome State Fault Refusal := onPort port (s.ltReqTimeout port)
def execLtSwitchTimeout (port : Nat) (aligned : Bool) (s : State) : Host.Outcome State Fault Refusal :=
  onPort port (s.ltSwitchTimeout port aligned)
def execLtReceiversLocked (port : Nat) (s : State) : Host.Outcome State Fault Refusal := onPort port (s.ltLocked port)
/-- Alignment lost during a change (R59): an attempt at the target width, whose result the spec leaves to the link (log entry
3); a responder that aligns goes on, and one that fails restarts the link. -/
def State.ltRealign (s : State) (p : Nat) : State :=
  let l := (s.port p).lt
  let t := s.drawn 1
  if bit s.freeVal 0 = false then t.ltRecover p
  else if l.initiator = false ∧ l.haveAck then (t.ltSwitch p).ltDone p
  else t

/-- LT_ALIGNMENT_LOST during a change (R59). -/
def execLtAlignmentLost (port : Nat) (s : State) : Host.Outcome State Fault Refusal :=
  let l := (s.port port).lt
  onPort port (if l.state = .narrowing ∨ l.state = .widening then s.ltRealign port else s)

end Sys2Proof.Machine
end

