-- ==== Sys2Proof/Machine/Ports.lean ====
section
/-! DEFINITION. The port commands, received flow control, link changes, low-power idle, margin samples and the spare
datapaths (R36 to R52, R64 to R68, R148). -/

namespace Sys2Proof.Machine

/-! ### Modes (R36 to R39) -/

/-- FEC codes permitted for a mode code (R37). -/
def fecOk (mode fec : Nat) : Bool :=
  (match mode with
  | 0 => [0]
  | 7 => [0, 2, 3]
  | 8 => [0, 3]
  | 1 | 2 | 3 | 4 | 5 | 6 => [1]
  | _ => []).contains fec

/-- Mode and FEC codes of the lanes of a PORT_SET_MODE. -/
def modesOf (p : List Byte) : List (Nat × Nat) := (List.range 8).map (fun i => (rd p (4 + 2 * i) 1, rd p (5 + 2 * i) 1))

/-- Every lane has a permitted pair of codes, and every port of n lanes fills n lanes from a multiple of n (R36, R37). -/
def modesOk (l : List (Nat × Nat)) : Bool :=
  (List.range 8).all (fun i =>
    let m := l.getD i (0, 0)
    let w := modeWidth m.1
    fecOk m.1 m.2 && (List.range w).all (fun j => l.getD (i - i % w + j) (0, 0) == m))

/-- Lanes of a group whose mode a request changes (R39). -/
def State.lanesChanged (s : State) (g : Nat) (l : List (Nat × Nat)) : List Nat :=
  (List.range 8).filter (fun i =>
    let m := l.getD i (0, 0)
    m.1 != (s.lane (8 * g + i)).mode || m.2 != (s.lane (8 * g + i)).fec)

/-- The lanes of a group with their new codes. -/
def State.putModes (s : State) (p : List Byte) : State :=
  let g := rd p 0 2
  let l := modesOf p
  let ch := s.lanesChanged g l
  s.setLanes (8 * g) 8 (fun i x =>
    if ch.contains i then { x with mode := (l.getD i (0, 0)).1, fec := (l.getD i (0, 0)).2, parked := false } else x)

/-- The number of the port that uses a lane. -/
def State.portOfLane (s : State) (l : Nat) : Nat :=
  if modeWidth (s.lane l).mode = 0 then l else l - l % 8 % modeWidth (s.lane l).mode

/-- A port with a new mode trains while it is administratively up; nothing is known of its partner. -/
def PortSt.renewed (q : PortSt) : PortSt :=
  { q with training := q.admin, lt := { q.lt.settle .disabled 0 with partnerOk := false, partnerCaps := 0 } }

/-- A shared pool of at least 65,536 cells remains (R137). -/
def State.poolFloorOk (s : State) : Bool := decide (65536 + s.minReserved + s.headReserved ≤ 1048576)

/-- The refresh interval of a port is 0 or shorter than its pause time (R47, R148). -/
def State.refreshOk (s : State) (p : Nat) : Bool :=
  !s.portActive p || (s.port p).pfcRefresh == 0
    || decide (1000 * (s.port p).pfcRefresh * s.speed p < 512 * (s.port p).pfcQuanta)

/-- The tests of a finished configuration that a live port command must also pass (R137, R148). -/
def State.portsOk (s : State) (l : List Nat) : Option (Nat × Nat) :=
  firstOf [need 0x0503 (l.all s.refreshOk), need 0x0502 s.poolFloorOk]

/-- A lane of a parked slice takes no mode but 0x00 (R496). -/
def checkPortSetMode (p : List Byte) (s : State) : Option (Nat × Nat) :=
  firstOf [need 0x0201 (decide (rd p 0 2 ≤ 63) && resv p 2 2 && modesOk (modesOf p)),
    if (s.sliceSt (rd p 0 2 / 4)).state = .parked ∧ (modesOf p).any (fun m => m.1 != 0) then
      some (stNotPermitted, 0x1102) else none]

/-- A VOQ of an inactive port requests nothing, so that its tenant node holds nothing (R185). -/
def Voq.idle (q : Voq) : Voq := { q with unreq := 0, reqAtEgress := 0, fresh := false, readback := false }

/-- No VOQ of the port is in spill. -/
def State.endSpills (s : State) (p : Nat) : State :=
  { s with buf := { s.buf with spillVoqs := s.buf.spillVoqs.filter (fun k => voqPort (k % 32800) != p) } }

/-- What the VOQs of a port hold is dropped as LINK_DOWN (R161; log entry 101). -/
def State.emptyVoqs (s : State) (p : Nat) : State :=
  ((s.fab.voqs.filter (fun e => voqPort (e.1 % 32800) == p)).foldl (fun t e =>
    ((e.2.q ++ e.2.spillQ).foldl (fun u id => ((u.pull (s.pkt id)).countDrop (s.pkt id) 5 p).release id) t).updVoq (e.1 / 32800)
      (e.1 % 32800) Voq.idle) s).endSpills p

/-- PORT_SET_MODE: every port that uses a changed lane goes down, then the lanes take their codes; a port number that is active
no more holds nothing. -/
def applyPortSetMode (p : List Byte) (s : State) : State :=
  let g := rd p 0 2
  let ch := s.lanesChanged g (modesOf p)
  let old := ch.map (fun i => s.portOfLane (8 * g + i))
  let t := (old.foldl (fun t q => t.linkDown q none) s).putModes p
  let new := ch.map (fun i => t.portOfLane (8 * g + i))
  let u := old.foldl (fun u q => u.updPort q (fun x => { x.renewed with training := false })) t
  let w := new.foldl (fun v q => if v.portActive q then v.updPort q PortSt.renewed else v) u
  (((List.range 8).map (8 * g + ·)).foldl (fun v q => if v.portActive q then v else v.emptyVoqs q) w).xoffSweep

/-- The live test of PORT_SET_MODE. -/
def livePortSetMode (p : List Byte) (s : State) : Option (Nat × Nat) :=
  firstOf [checkPortSetMode p s,
    (s.putModes p).portsOk ((List.range 8).map (8 * rd p 0 2 + ·))]

def portSetModeBody : Body := setCmd 0x0201 livePortSetMode applyPortSetMode

/-! ### MAC, flow control, Lane Throttle, EEE, administrative state, margins -/

/-- A port number in a payload that is active (R36). -/
def State.argPort (s : State) (p : List Byte) : Bool := s.portActive (rd p 0 2)

def checkPortSetMac (p : List Byte) (s : State) : Option (Nat × Nat) :=
  need 0x0201 (s.argPort p && decide (1518 ≤ rd p 2 2) && decide (rd p 2 2 ≤ 9216) && decide (1 ≤ rd p 4 2)
    && decide (rd p 4 2 ≤ 4094) && decide (rd p 6 1 ≤ 7) && resv p 7 1)
/-- The settings of PORT_SET_MAC. -/
def State.putMac (s : State) (p : List Byte) : State :=
  s.updPort (rd p 0 2) (fun q => { q with maxLen := rd p 2 2, pvid := rd p 4 2, pcp := rd p 6 1 })
def applyPortSetMac (p : List Byte) (s : State) : State := (s.putMac p).xoffSweep
def livePortSetMac (p : List Byte) (s : State) : Option (Nat × Nat) :=
  firstOf [checkPortSetMac p s, (s.putMac p).portsOk []]
def portSetMacBody : Body := setCmd 0x0203 livePortSetMac applyPortSetMac

def checkPortSetFlow (p : List Byte) (s : State) : Option (Nat × Nat) :=
  need 0x0201 (s.argPort p && decide (rd p 2 1 ≤ 2) && (rd p 2 1 != 2 || decide (rd p 4 2 ≤ 10000)) && resv p 6 2)
/-- The settings of PORT_SET_FLOW; a pause or storm in force stays as it is (log entry 97). -/
def State.putFlow (s : State) (p : List Byte) : State :=
  s.updPort (rd p 0 2) (fun q => { q with fcMode := rd p 2 1, pfcMask := rd p 3 1, watchdog := rd p 4 2 })
def applyPortSetFlow (p : List Byte) (s : State) : State := (s.putFlow p).xoffSweep
def livePortSetFlow (p : List Byte) (s : State) : Option (Nat × Nat) :=
  firstOf [checkPortSetFlow p s, (s.putFlow p).portsOk []]
def portSetFlowBody : Body := setCmd 0x0204 livePortSetFlow applyPortSetFlow

/-- Gating is enabled on a port in the live state (R54). -/
def State.gatingOn (s : State) (p : Nat) : Bool :=
  !(s.gate p).oper.entries.isEmpty && (s.gate p).oper.mask != 0

/-- PORT_SET_THROTTLE: with enable 0 the parameters are not tested (R67, R523). -/
def checkPortSetThrottle (p : List Byte) (s : State) : Option (Nat × Nat) :=
  firstOf [
    need 0x0201 (s.argPort p && decide (rd p 2 1 ≤ 1) && resv p 5 1
      && (rd p 2 1 == 0 || (decide (1 ≤ rd p 3 1) && decide (rd p 3 1 ≤ 2) && decide (1 ≤ rd p 4 1)
        && decide (rd p 4 1 ≤ 90) && decide (1 ≤ rd p 6 2) && decide (rd p 6 2 ≤ 60000) && decide (4 ≤ rd p 8 2)
        && decide (rd p 8 2 ≤ 1024)))),
    need 0x0202 (!(rd p 2 1 == 1 && s.gatingOn (rd p 0 2)))]

/-- Enabling starts at FULL once the partner's CAP is known; disabling widens a narrow port first (R60, R61). A port of 1 or 2
lanes takes the settings, which have no effect there (R53; log entry 97). -/
def applyPortSetThrottle (p : List Byte) (s : State) : State :=
  let n := rd p 0 2
  let on := rd p 2 1 == 1
  let fits := s.ltFits n
  let t := s.updLt n (fun l =>
    { l with enable := on, minWidth := rd p 3 1, threshold := rd p 4 1, dwell := rd p 6 2, depth := rd p 8 2,
             state := if on && fits && l.partnerOk && l.state == .disabled then .full
               else if !on && l.state == .full then .disabled else l.state })
  if on then t.ltDepth n else t.ltWiden n
def portSetThrottleBody : Body := setCmd 0x0205 checkPortSetThrottle applyPortSetThrottle

/-- LPI is available on the NRZ modes 25G and 10G, whose 802.3 PHY types define it (R64; log entry 23). -/
def State.eeeFits (s : State) (p : Nat) : Bool := s.portActive p && ((s.lane p).mode == 7 || (s.lane p).mode == 8)

/-- The arguments of a PORT_SET_EEE are tested before the port's type (log entry 96). -/
def checkPortSetEee (p : List Byte) (s : State) : Option (Nat × Nat) :=
  firstOf [
    need 0x0201 (s.argPort p && decide (rd p 2 1 ≤ 1) && resv p 3 1
      && (rd p 2 1 == 0 || (decide (1 ≤ rd p 4 4) && decide (rd p 4 4 ≤ 1000000)))),
    if s.eeeFits (rd p 0 2) then none else some (stNotPermitted, dNone)]
def applyPortSetEee (p : List Byte) (s : State) : State :=
  s.updPort (rd p 0 2) (fun q => { q with eee := rd p 2 1 == 1, eeeTimer := rd p 4 4 })
def portSetEeeBody : Body := setCmd 0x0206 checkPortSetEee applyPortSetEee

def checkPortSetAdmin (p : List Byte) (s : State) : Option (Nat × Nat) :=
  need 0x0201 (s.argPort p && decide (rd p 2 1 ≤ 1) && resv p 3 1)
/-- PORT_SET_ADMIN: a port set down loses its link; one set up starts training. -/
def applyPortSetAdmin (p : List Byte) (s : State) : State :=
  let n := rd p 0 2
  if rd p 2 1 = 1 then s.updPort n (fun q => { q with admin := true, training := !q.link })
  else (s.linkDown n none).updPort n (fun q => { q with admin := false, training := false })
def portSetAdminBody : Body := setCmd 0x020A checkPortSetAdmin applyPortSetAdmin

def checkPortSetMargin (p : List Byte) (_ : State) : Option (Nat × Nat) :=
  need 0x0201 (decide (1 ≤ rd p 0 2) && decide (rd p 0 2 ≤ 3600) && resv p 6 2)
def applyPortSetMargin (p : List Byte) (s : State) : State :=
  { s with pwr := { s.pwr with marginPeriod := rd p 0 2, marginH := rd p 2 2, marginW := rd p 4 2 } }
def portSetMarginBody : Body := setCmd 0x020B checkPortSetMargin applyPortSetMargin

/-- A lane map is a permutation of 0 to 7 (R40). -/
def permOk (l : List Nat) : Bool := (List.range 8).all (fun i => l.contains i)

/-- Lane maps and polarity masks of a PORT_SET_LANE_MAP; the arguments are tested before the ports' state (log entry 96). -/
def checkLaneMap (p : List Byte) (s : State) : Option (Nat × Nat) :=
  let g := rd p 0 2
  if decide (g ≤ 63) && resv p 2 2 && resv p 22 2 && permOk (chunks 1 (slice p 4 8)) && permOk (chunks 1 (slice p 12 8)) then
    if (List.range 8).any (fun i => s.portActive (8 * g + i) && (s.port (8 * g + i)).admin) then some (stNotPermitted, dNone)
    else none
  else some (stBadArg, 0x0201)

/-- PORT_SET_LANE_MAP, never staged. -/
def portSetLaneMapBody : Body := fun r s =>
  match checkLaneMap r.payload s with
  | some e => errCmd s e.1 e.2
  | none =>
    let p := r.payload
    okCmd ((s.updGroup (rd p 0 2) (fun g =>
      { g with txMap := chunks 1 (slice p 4 8), rxMap := chunks 1 (slice p 12 8), txPol := rd p 20 1,
               rxPol := rd p 21 1 })).shadow 0x0207 p) []

/-! ### Reads -/

/-- Code of a Lane Throttle state (R67). -/
def LtState.code : LtState → Nat
  | .disabled => 0
  | .full => 1
  | .narrowing => 2
  | .narrow => 3
  | .widening => 4

/-- The link byte of R67. -/
def PortSt.linkCode (q : PortSt) : Nat := if q.admin = false then 3 else if q.link then 1 else if q.training then 2 else 0

/-- PORT_GET_STATUS. -/
def State.portStatus (s : State) (n : Nat) : List Byte :=
  let q := s.port n
  le 1 q.linkCode ++ le 1 (s.lane n).mode ++ le 1 (s.lane n).fec ++ le 1 (s.widthNow n) ++ le 1 q.lt.state.code
    ++ le 1 q.lt.partnerCaps ++ le 1 (((List.range 8).map (fun c => if q.pause.getD c 0 = 0 then 0 else 2 ^ c)).sum)
    ++ le 1 q.storm ++ le 2 (s.group (n / 8)).substs ++ le 2 0 ++ le 4 q.linkUps ++ le 8 q.lastSec ++ le 4 q.lastNs ++ le 4 0

def portGetStatusBody : Body := readCmd (fun r s =>
  if s.argPort r.payload then Resp.ok (s.portStatus (rd r.payload 0 2)) else Resp.err stBadArg 0x0201)

/-- What the FEC of a lane has corrected enters its symbol count: a measured number, so a free value (log entry 3). -/
def State.fecLane (s : State) (l : Nat) : State :=
  if (s.lane l).fec = 0 then s
  else (s.updLane l (fun x => { x with fecSyms := (x.fecSyms + s.freeVal) % 2 ^ 64 })).drawn 1

/-- Codewords corrected and not correctable on a port with FEC enter its counters: measured numbers (R68; log entry 3). -/
def State.fecPort (s : State) (p : Nat) : State :=
  if s.portActive p && (s.lane p).fec != 0 then
    ((s.bumpPort p 13 s.freeVal).bumpPort p 14 (Config.freeValue (s.free + 1))).drawn 2
  else s

/-- Those of every active port. -/
def State.fecAll (s : State) : State := (s.lanes.map (·.1)).foldl State.fecPort s

/-- PORT_GET_MARGIN: the FEC symbol counts start again. -/
def portGetMarginBody : Body := fun r s =>
  let g := rd r.payload 0 2
  if 63 < g then errCmd s stBadArg 0x0201
  else
    let s := (List.range 8).foldl (fun t i => t.fecLane (8 * g + i)) s
    okCmd ((List.range 8).foldl (fun t i => t.updLane (8 * g + i) (fun l => { l with fecSyms := 0 })) s)
    ((List.range 8).flatMap (fun i =>
      let l := s.lane (8 * g + i)
      le 2 l.eyeH ++ le 2 l.eyeW ++ le 1 (b2n l.stale + 2 * b2n l.below) ++ le 1 0 ++ le 2 0 ++ le 8 l.fecSyms))

/-- Counter `i` of a network port (R68). -/
def State.portCtr (s : State) (n i : Nat) : Ctr := Tab.get 0 s.tel.portCtr (22 * n + i)

def portGetCountersBody : Body := fun r s =>
  if s.argPort r.payload then
    let t := s.fecPort (rd r.payload 0 2)
    okCmd t ((List.range 22).flatMap (fun i => le 8 (t.portCtr (rd r.payload 0 2) i).toNat))
  else errCmd s stBadArg 0x0201

def execPortSetMode (r : Req) (s : State) : Host.Outcome State Fault Refusal := mailboxCommand 0x0201 portSetModeBody r s
def execPortGetStatus (r : Req) (s : State) : Host.Outcome State Fault Refusal :=
  mailboxCommand 0x0202 portGetStatusBody r s
def execPortSetMac (r : Req) (s : State) : Host.Outcome State Fault Refusal := mailboxCommand 0x0203 portSetMacBody r s
def execPortSetFlow (r : Req) (s : State) : Host.Outcome State Fault Refusal := mailboxCommand 0x0204 portSetFlowBody r s
def execPortSetThrottle (r : Req) (s : State) : Host.Outcome State Fault Refusal :=
  mailboxCommand 0x0205 portSetThrottleBody r s
def execPortSetEee (r : Req) (s : State) : Host.Outcome State Fault Refusal := mailboxCommand 0x0206 portSetEeeBody r s
def execPortSetLaneMap (r : Req) (s : State) : Host.Outcome State Fault Refusal :=
  mailboxCommand 0x0207 portSetLaneMapBody r s
def execPortGetMargin (r : Req) (s : State) : Host.Outcome State Fault Refusal :=
  mailboxCommand 0x0208 portGetMarginBody r s
def execPortGetCounters (r : Req) (s : State) : Host.Outcome State Fault Refusal :=
  mailboxCommand 0x0209 portGetCountersBody r s
def execPortSetAdmin (r : Req) (s : State) : Host.Outcome State Fault Refusal :=
  mailboxCommand 0x020A portSetAdminBody r s
def execPortSetMargin (r : Req) (s : State) : Host.Outcome State Fault Refusal :=
  mailboxCommand 0x020B portSetMarginBody r s

/-! ### Received flow control (R45 to R47) -/

/-- A pause or PFC value for the classes of a mask: a new value replaces the remaining time. -/
def PortSt.paused (q : PortSt) (mask : Nat) (quanta : Nat → Nat) : PortSt :=
  { q with pause := (List.range 8).map (fun c => if bit mask c then quanta c else q.pause.getD c 0) }

/-- A received 802.3x pause frame. -/
def State.rxPause (s : State) (p quanta : Nat) : State :=
  if (s.port p).fcMode = 1 then (s.updPort p (fun q => q.paused 0xFF (fun _ => quanta))).bumpPort p 5 1 else s.ctlIgnore p

/-- A received PFC frame: only the classes of the port's mask, and none in storm state, are changed; a non-zero value is
noted for the end of the storm (R50). -/
def State.rxPfc (s : State) (p vec : Nat) (quanta : Nat → Nat) : State :=
  let m := vec &&& (s.port p).pfcMask
  if (s.port p).fcMode = 2 ∧ m ≠ 0 then
    (s.updPort p (fun q =>
      { q.paused (m - (m &&& q.storm)) quanta with
        stormSeen := q.stormSeen ||| ((bitList 8 m).map (fun c => if quanta c = 0 then 0 else 2 ^ c)).sum })).bumpPort p 6 1
  else s.ctlIgnore p

/-- PAUSE_FRAME_RECEIVED: the frame takes effect. -/
def execPauseFrameReceived (port : Nat) (bytes : List Byte) (fcsOk : Bool) (s : State) :
    Host.Outcome State Fault Refusal :=
  onPort port (if fld bytes 12 2 = 0x8808 ∧ fld bytes 14 2 = 1 then
    s.ctlRx port bytes fcsOk (fun t => t.rxPause port (fld bytes 16 2)) else s)

/-- PFC_FRAME_RECEIVED: the frame takes effect. -/
def execPfcFrameReceived (port : Nat) (bytes : List Byte) (fcsOk : Bool) (s : State) :
    Host.Outcome State Fault Refusal :=
  onPort port (if fld bytes 12 2 = 0x8808 ∧ fld bytes 14 2 = 0x0101 then
    s.ctlRx port bytes fcsOk (fun t => t.rxPfc port (fld bytes 17 1) (fun c => fld bytes (18 + 2 * c) 2)) else s)

/-- A row about a class of a network port. -/
def onClass (p c : Nat) (t : State) : Host.Outcome State Fault Refusal :=
  if 512 ≤ p then .fault (.noSuchUnit "network port") else if 8 ≤ c then .fault (.noSuchUnit "class") else .next t

/-- PAUSE_EXPIRY (R47). -/
def execPauseExpiry (port tc : Nat) (s : State) : Host.Outcome State Fault Refusal :=
  onClass port tc (s.updPort port (fun q => q.paused (2 ^ tc) (fun _ => 0)))

/-- Storm state begins (R50): PFC_STORM; the class's queued frames and waiting frames of Moaras are dropped, the frame in
transmission completes. The class no longer counts as paused, so frames in the VOQs follow and are dropped as they arrive. -/
def State.stormStart (s : State) (p c : Nat) : State :=
  let t := (s.updPort p (fun q =>
    { q with storm := setBit q.storm c, stormSeen := clrBit q.stormSeen c })).raise 0x0201 sevWarning []
  let w := (t.waiting p).filter (fun x => x.1 == c)
  let u := (t.setWaiting p ((t.waiting p).filter (fun x => x.1 != c))).bumpPort p 19 w.length
  (u.portQueues p).foldl (fun t k =>
    if voqClass k = c then ((t.egq k).filter (fun i => !i.started)).foldl (fun u i => u.egDrop k 6 i) t else t) u

/-- PFC_WATCHDOG_EXPIRY: PFC has kept the class paused for the watchdog time. -/
def execPfcWatchdogExpiry (port tc : Nat) (s : State) : Host.Outcome State Fault Refusal :=
  let q := s.port port
  onClass port tc (if q.link && q.watchdog != 0 && q.fcMode == 2 && q.pause.getD tc 0 != 0 && !bit q.storm tc then
    s.stormStart port tc else s)

/-- PFC_STORM_END_TIMER: a further watchdog time has passed; the storm ends unless a non-zero value came in it. -/
def execPfcStormEndTimer (port tc : Nat) (s : State) : Host.Outcome State Fault Refusal :=
  let q := s.port port
  onClass port tc (if bit q.storm tc = false then s
    else if bit q.stormSeen tc then s.updPort port (fun q => { q with stormSeen := clrBit q.stormSeen tc })
    else (s.updPort port (fun q => { q with storm := clrBit q.storm tc })).raise 0x0202 sevInfo [])

/-- A pause or PFC frame of the device waits for the frame boundary. -/
def PortSt.ctlWaits (q : PortSt) : Bool := q.ctlQueue.any (fun b => rdBe b 12 2 == 0x8808)

/-- PFC_REFRESH_TIMER (R148): the asserted priorities are sent again; merged into a frame that has not left. -/
def State.refresh (s : State) (p : Nat) : State :=
  let v := s.xoffVec p
  if v = 0 ∨ (s.port p).ctlWaits then s
  else match (s.port p).fcMode with
    | 2 => s.sendCtl p (s.pfcFrame p v (s.port p).pfcQuanta)
    | 1 => s.sendCtl p (s.pauseFrame p (s.port p).pfcQuanta)
    | _ => s
def execPfcRefreshTimer (port : Nat) (s : State) : Host.Outcome State Fault Refusal := onPort port (s.refresh port)

/-! ### Links -/

/-- LINK_DOWN (R39, R47, R50, R59). -/
def execLinkDown (port : Nat) (s : State) : Host.Outcome State Fault Refusal := onPort port (s.linkDown port none)

/-- A port completes training at full width (R53). -/
def State.linkUp (s : State) (p : Nat) : State :=
  let t := s.parkLanes p (s.fullWidth p)
  t.updPort p (fun q =>
    { q with link := true, training := false, linkUps := (q.linkUps + 1) % 2 ^ 32, lastSec := s.time.sec,
             lastNs := s.time.ns, pause := List.replicate 8 0, stormSeen := 0 })

/-- Every datapath of a port works (R66). -/
def State.pathsOk (s : State) (p : Nat) : Bool :=
  (List.range (s.fullWidth p)).all (fun i => !bit (s.group (p / 8)).dead ((p + i) % 8))

/-- LINK_UP: for a port that is configured, administratively up and down so far, in a slice that runs. -/
def execLinkUp (port : Nat) (s : State) : Host.Outcome State Fault Refusal :=
  onPort port (if s.portActive port && (s.port port).admin && !(s.port port).link && s.pathsOk port
      && (s.sliceSt (port / 32)).state == .active then s.linkUp port else s)

/-! ### Low-power idle (R64) -/

/-- LPI_IDLE_TIMER: an idle transmitter enters LPI. -/
def execLpiIdleTimer (port : Nat) (s : State) : Host.Outcome State Fault Refusal :=
  let q := s.port port
  onPort port (if q.eee && s.eeeFits port && q.link && !q.lpi && q.txPkt.isNone && (s.waiting port).isEmpty
      && (s.portQueues port).isEmpty then
    (s.updPort port (fun q => { q with lpi := true })).bumpPort port 18 1 else s)

/-- LPI_WAKE_COMPLETE: the transmitter carries frames again. -/
def execLpiWakeComplete (port : Nat) (s : State) : Host.Outcome State Fault Refusal :=
  onPort port (if (s.port port).lpi then (s.updPort port (fun q => { q with lpi := false })).flushCtl port else s)

/-! ### Margins and datapaths (R65, R66) -/

/-- A sample of an active lane; a parked lane keeps its last one, marked stale. -/
def State.margin (s : State) (l height width : Nat) : State :=
  if (s.lane l).mode = 0 then s
  else if (s.lane l).parked then s.setLane l (fun x => { x with stale := true })
  else
    let low := decide (height < s.pwr.marginH) || decide (width < s.pwr.marginW)
    (s.setLane l (fun x => { x with eyeH := height, eyeW := width, stale := false, below := low })).raiseIf low 0x0206
      sevWarning []

/-- MARGIN_SAMPLE: eye height in mV and eye width in mUI of a lane. -/
def execMarginSample (lane height width : Nat) (s : State) : Host.Outcome State Fault Refusal :=
  if 512 ≤ lane then .fault (.noSuchUnit "lane") else .next (s.margin lane (height % 65536) (width % 65536))

/-- A datapath failure moves its lane to the spare: DATAPATH_SUBSTITUTED (R66). -/
def State.substitute (s : State) (l : Nat) : State :=
  let p := s.portOfLane l
  let t := (s.loseTx p (some 20)).loseRx p 20
  let u := (t.updPort p (fun q => { q with txPkt := none, txBytes := [] })).updGroup (l / 8) (fun g =>
    { g with spare := 1, laneOnSpare := l % 8, substs := (g.substs + 1) % 65536 })
  ((u.repairAdd 3 l).raise 0x0207 sevCorrectable []).healthChanged

/-- The spare that carries a lane fails: it enters the repair record too (R499). -/
def State.loseSpare (s : State) (l : Nat) : State :=
  if (s.group (l / 8)).spare = 1 ∧ (s.group (l / 8)).laneOnSpare = l % 8 then
    (s.updGroup (l / 8) (fun g => { g with spare := 2, laneOnSpare := 0xFF })).repairAdd 6 (l / 8)
  else s

/-- A failure with no spare: the port goes down with DATAPATH_EXHAUSTED (R66). -/
def State.exhausted (s : State) (l : Nat) : State :=
  let t := (s.loseSpare l).updGroup (l / 8) (fun g => { g with dead := setBit g.dead (l % 8) })
  let u := (t.repairAdd 3 l).raise 0x0208 sevUncorrectable []
  let v := if (s.lane l).mode = 0 then u else u.linkDown (s.portOfLane l) none
  v.healthIf (v.overall != s.overall)

/-- DATAPATH_FAILURE of the datapath that carries a lane. -/
def execDatapathFailure (lane : Nat) (s : State) : Host.Outcome State Fault Refusal :=
  if 512 ≤ lane then .fault (.noSuchUnit "lane")
  else .next (if (s.group (lane / 8)).spare = 0 then s.substitute lane else s.exhausted lane)

/-- SPARE_DATAPATH_FAILED: the idle spare of a group fails its test (R260, R271). -/
def execSpareDatapathFailed (group : Nat) (s : State) : Host.Outcome State Fault Refusal :=
  if 64 ≤ group then .fault (.noSuchUnit "group")
  else .next (if (s.group group).spare = 0 then
    (((s.updGroup group (fun g => { g with spare := 2 })).bumpRed 12 1).repairAdd 6 group).healthChanged else s)

end Sys2Proof.Machine
end

