-- ==== Sys2Proof/Machine/Buffers.lean ====
section
/-! DEFINITION. The buffer commands, the WRED average, spill read-back and the message pools (R133 to R160). -/

namespace Sys2Proof.Machine

/-! ### Settings -/

def checkBufSetClass (p : List Byte) (_ : State) : Option (Nat × Nat) :=
  need 0x0501 (decide (rd p 0 1 ≤ 7) && decide (rd p 1 1 ≤ 3) && decide (rd p 2 1 ≤ 10) && resv p 3 1
    && (!bit (rd p 1 1) 1 || (decide (16 ≤ rd p 4 4) && decide (rd p 4 4 ≤ 65536))))
/-- The class record of a request. -/
def classOf (p : List Byte) : ClassCfg :=
  { lossless := bit (rd p 1 1) 0, spill := bit (rd p 1 1) 1, alpha := rd p 2 1, spillThr := rd p 4 4, spillLim := rd p 8 4 }
/-- The settings of BUF_SET_CLASS. -/
def State.putClass (s : State) (p : List Byte) : State :=
  { s with buf := { s.buf with classes := Tab.set ClassCfg.init s.buf.classes (rd p 0 1) (classOf p) } }
def applyBufSetClass (p : List Byte) (s : State) : State := (s.putClass p).xoffSweep
def bufSetClassBody : Body := setCmd 0x0501 checkBufSetClass applyBufSetClass

/-- A port number of 0 to 547: a network port must be active (R36). -/
def State.argAnyPort (s : State) (p : List Byte) : Bool :=
  decide (rd p 0 2 ≤ 547) && (decide (512 ≤ rd p 0 2) || s.portActive (rd p 0 2))

def checkBufSetPortClass (p : List Byte) (s : State) : Option (Nat × Nat) :=
  need 0x0501 (s.argAnyPort p && decide (rd p 2 1 ≤ 7) && resv p 3 1 && decide (rd p 4 4 ≤ 65536) && decide (16 ≤ rd p 8 4)
    && decide (rd p 8 4 ≤ 1048575) && decide (1 ≤ rd p 12 2) && decide (rd p 12 2 < rd p 8 4) && resv p 14 2)
def applyBufSetPortClass (p : List Byte) (s : State) : State :=
  (s.updPortClass (rd p 0 2) (rd p 2 1) (fun q =>
    { q with minSet := some (rd p 4 4), xoffLim := rd p 8 4, xonDelta := rd p 12 2 })).xoffSweep
def bufSetPortClassBody : Body := setCmd 0x0502 checkBufSetPortClass applyBufSetPortClass

/-- Cell factors are ignored for lossy classes (R159). -/
def checkBufSetHeadroom (p : List Byte) (s : State) : Option (Nat × Nat) :=
  need 0x0501 (s.argPort p && decide (rd p 2 2 ≤ 10000) && resv p 6 2 && decide (rd p 8 4 ≤ 100000)
    && (List.range 8).all (fun c => !(s.classCfg c).lossless
      || (decide (100 ≤ rd p (12 + 2 * c) 2) && decide (rd p (12 + 2 * c) 2 ≤ 305))))
/-- The sizing inputs of BUF_SET_HEADROOM, the cell factor of a lossy class kept as written (R523; log entry 113). -/
def State.putHeadroom (s : State) (p : List Byte) : State :=
  (List.range 8).foldl (fun t c => t.updPortClass (rd p 0 2) c (fun q =>
    { q with hr := (rd p 2 2, rd p 4 2, rd p 8 4, rd p (12 + 2 * c) 2) })) s
def applyBufSetHeadroom (p : List Byte) (s : State) : State := (s.putHeadroom p).xoffSweep

/-- The settings that size a headroom, as a staged set would leave them (R150). -/
def State.sizingView (s : State) (l : List StagedCmd) : State :=
  let lanes := (l.filter (fun c => c.op == 0x0201)).foldl (fun t c => t.putModes c.payload) s
  l.foldl (fun t c =>
    if c.op = 0x0203 then t.putMac c.payload
    else if c.op = 0x0204 then t.putFlow c.payload
    else if c.op = 0x0501 then t.putClass c.payload
    else t) lanes

/-- Headroom in cells for the eight classes, on the settings of the set. -/
def State.headroomAnswer (s : State) (r : Req) : List Byte :=
  let t := (s.sizingView (((s.bake.set? r.setId).map (·.cmds)).getD [])).putHeadroom r.payload
  (List.range 8).flatMap (fun c => le 4 (t.headOf (rd r.payload 0 2) c))

/-- BUF_SET_HEADROOM is always staged; its answer is the headroom. -/
def bufSetHeadroomBody : Body := fun r s => s.stage 0x0503 r (s.headroomAnswer r)

def checkBufSetPfcTx (p : List Byte) (s : State) : Option (Nat × Nat) :=
  need 0x0501 (s.argPort p && decide (1 ≤ rd p 2 2) && decide (rd p 4 4 ≤ 1000))
def applyBufSetPfcTx (p : List Byte) (s : State) : State :=
  s.updPort (rd p 0 2) (fun q => { q with pfcQuanta := rd p 2 2, pfcRefresh := rd p 4 4 })
def liveBufSetPfcTx (p : List Byte) (s : State) : Option (Nat × Nat) :=
  firstOf [checkBufSetPfcTx p s, need 0x0503 ((applyBufSetPfcTx p s).refreshOk (rd p 0 2))]
def bufSetPfcTxBody : Body := setCmd 0x0504 liveBufSetPfcTx applyBufSetPfcTx

/-! ### WRED (R143, R144) -/

/-- The curve at an offset. -/
def curveOf (p : List Byte) (o : Nat) : WredCurve := { min := rd p o 4, max := rd p (o + 4) 4, prob := rd p (o + 8) 2 }
/-- The profile of a request. -/
def wredOf (p : List Byte) : WredProfile :=
  { weight := rd p 1 1, ecn := bit (rd p 2 1) 0, markAbove := bit (rd p 2 1) 1, green := curveOf p 4, yellow := curveOf p 16,
    red := curveOf p 28 }

def checkBufSetWredProfile (p : List Byte) (_ : State) : Option (Nat × Nat) :=
  need 0x0501 (decide (rd p 1 1 ≤ 15) && decide (rd p 2 1 ≤ 3) && resv p 3 1
    && [4, 16, 28].all (fun o => decide ((curveOf p o).min ≤ (curveOf p o).max) && resv p (o + 10) 2))
/-- A baked profile takes effect at once. -/
def applyBufSetWredProfile (p : List Byte) (s : State) : State :=
  { s with buf := { s.buf with wred := Tab.set WredProfile.init s.buf.wred (rd p 0 1) (wredOf p) } }
/-- A queue of the profile keeps the old curves until its next averaging update. -/
def QueueSt.hold (q : QueueSt) (n : Nat) (old : WredProfile) : QueueSt :=
  if q.profile = n ∧ q.held.isNone then { q with held := some old } else q
/-- A live profile: the queues that use it see it at their next averaging update (R159). -/
def liveWredProfile (p : List Byte) (s : State) : State :=
  let n := rd p 0 1
  let old := Tab.get WredProfile.init s.buf.wred n
  let t := applyBufSetWredProfile p s
  { t with buf := { t.buf with queues := t.buf.queues.map (fun e => (e.1, e.2.hold n old)) } }
def bufSetWredProfileBody : Body := setCmd 0x0505 checkBufSetWredProfile liveWredProfile

def checkBufSetQueue (p : List Byte) (s : State) : Option (Nat × Nat) :=
  need 0x0501 (s.argAnyPort p && decide (rd p 2 1 ≤ 7) && decide (rd p 5 1 ≤ 1) && resv p 6 2)
/-- Queues that a request names: at internal ports a class has slot 0 only. -/
def queuesOf (p : List Byte) : List Nat :=
  ((List.range (if rd p 0 2 < 512 then 8 else 1)).filter (bit (rd p 3 1))).map (queueKey (rd p 0 2) (rd p 2 1))
/-- A baked queue setting takes effect at once. -/
def applyBufSetQueue (p : List Byte) (s : State) : State :=
  (queuesOf p).foldl (fun t k => t.updQueue k (fun q =>
    { q with wred := rd p 5 1 == 1, profile := rd p 4 1, wredNext := none, held := none })) s
/-- A live one at the queue's next averaging update. -/
def liveQueue (p : List Byte) (s : State) : State :=
  (queuesOf p).foldl (fun t k => t.updQueue k (fun q => { q with wredNext := some (rd p 5 1 == 1, rd p 4 1) })) s
def bufSetQueueBody : Body := setCmd 0x0506 checkBufSetQueue liveQueue

/-- The settings in force from an averaging update on. -/
def QueueSt.renewed (q : QueueSt) : QueueSt :=
  match q.wredNext with
  | some n => { q with wred := n.1, profile := n.2, wredNext := none, held := none }
  | none => { q with held := none }

/-- A new average with 16 fraction bits (R144). The spec states no rounding: `up` is a free value. -/
def newAverage (w a d : Nat) (up : Bool) : Nat :=
  let n := a * 2 ^ w + d - a
  n / 2 ^ w + (if n % 2 ^ w = 0 then 0 else b2n up)

/-- WRED_AVERAGE_UPDATE of one queue. -/
def State.wredUpdate (s : State) (k : Nat) : State :=
  let q := (s.queue k).renewed
  let w := (Tab.get WredProfile.init s.buf.wred q.profile).weight
  let up := s.freeVal % 2 == 1
  { s.updQueue k (fun _ => { q with avg := newAverage w q.avg (65536 * (q.cells + q.spilled)) up }) with
    free := s.free + 1 }

def execWredAverageUpdate (queue : Nat) (s : State) : Host.Outcome State Fault Refusal :=
  if 35072 ≤ queue ∨ (32768 ≤ queue ∧ queue % 8 ≠ 0) then .fault (.noSuchUnit "queue") else .next (s.wredUpdate queue)

/-! ### Reads -/

/-- Ports with XOFF asserted. -/
def State.xoffPorts (s : State) : Nat :=
  ((List.range 548).filter (fun p => s.buf.portClass.any (fun e => e.1 / 8 == p && e.2.xoff))).length

/-- Landing cells in use: those of frames not yet admitted (R149). -/
def State.landingCells (s : State) : Nat := (s.pkts.map (fun x => x.2.landing.length)).sum

def bufGetStatusBody : Body := readCmd (fun _ s =>
  Resp.ok (le 4 s.freeCells ++ le 4 s.unreserved ++ le 4 s.minReserved ++ le 4 s.minUsed ++ le 4 s.headReserved
    ++ le 4 s.headUsed ++ le 4 s.sharedPool ++ le 4 s.sharedUsed ++ le 8 (s.buf.queues.map (fun q => q.2.spilled)).sum
    ++ le 4 s.xoffPorts ++ le 4 s.landingCells))

/-- BUF_GET_PORT: the high-water marks start again from the charge. -/
def bufGetPortBody : Body := fun r s =>
  let n := rd r.payload 0 2
  if s.argAnyPort r.payload then
    okCmd ((List.range 8).foldl (fun t c => t.updPortClass n c (fun q => { q with high := q.total })) s)
      ((List.range 8).flatMap (fun c =>
        let q := s.portClass n c
        le 4 q.total ++ le 4 q.cHead ++ le 4 q.high ++ le 1 (b2n q.xoff) ++ le 3 0))
  else errCmd s stBadArg 0x0501

def bufGetCountersBody : Body := readCmd (fun _ s =>
  Resp.ok ((List.range 22).flatMap (fun i => le 8 (Tab.get 0 s.buf.ctr i).toNat)))

/-- BUF_GET_POOLS: the lowest free counts start again. -/
def bufGetPoolsBody : Body := fun _ s =>
  okCmd { s with buf := [0, 1, 2, 3].foldl (fun b i => b.setPool i { b.pool i with low := (b.pool i).used.length }) s.buf }
    (le 8 (s.regionBase 2) ++ [0, 1, 2, 3].flatMap (fun i =>
      le 4 (poolBuf i) ++ le 4 (poolCount i) ++ le 4 (poolCount i - (s.buf.pool i).used.length)
        ++ le 4 (poolCount i - (s.buf.pool i).low)))

def execBufSetClass (r : Req) (s : State) : Host.Outcome State Fault Refusal := mailboxCommand 0x0501 bufSetClassBody r s
def execBufSetPortClass (r : Req) (s : State) : Host.Outcome State Fault Refusal :=
  mailboxCommand 0x0502 bufSetPortClassBody r s
def execBufSetHeadroom (r : Req) (s : State) : Host.Outcome State Fault Refusal :=
  mailboxCommand 0x0503 bufSetHeadroomBody r s
def execBufSetPfcTx (r : Req) (s : State) : Host.Outcome State Fault Refusal := mailboxCommand 0x0504 bufSetPfcTxBody r s
def execBufSetWredProfile (r : Req) (s : State) : Host.Outcome State Fault Refusal :=
  mailboxCommand 0x0505 bufSetWredProfileBody r s
def execBufSetQueue (r : Req) (s : State) : Host.Outcome State Fault Refusal := mailboxCommand 0x0506 bufSetQueueBody r s
def execBufGetStatus (r : Req) (s : State) : Host.Outcome State Fault Refusal :=
  mailboxCommand 0x0507 bufGetStatusBody r s
def execBufGetPort (r : Req) (s : State) : Host.Outcome State Fault Refusal := mailboxCommand 0x0508 bufGetPortBody r s
def execBufGetCounters (r : Req) (s : State) : Host.Outcome State Fault Refusal :=
  mailboxCommand 0x0509 bufGetCountersBody r s
def execBufGetPools (r : Req) (s : State) : Host.Outcome State Fault Refusal := mailboxCommand 0x050A bufGetPoolsBody r s

/-! ### Spill read-back (R153) -/

/-- The oldest spilled frame comes back whole: cells of the read-back engine of its slice, charged as at receipt (R135). -/
def State.readIn (s : State) (sl v : Nat) (pk : Pkt) (q : PortClass) : State :=
  let k := voqQueue v
  let c := s.charge pk q
  let r := c.buf.alloc (16 + sl) pk.nCells []
  let t := (({ c with buf := r.1 }).updQueue k (fun x => { x with spilled := x.spilled - pk.nCells })).chargeQ (c.pkt pk.id)
  let u := t.updPkt pk.id (fun x => { x with cells := r.2, spilled := false })
  (((u.bumpBufAt sl 16 pk.nCells).pushVoq (u.pkt pk.id) (voqPort v) v).xoffSweep).dropUnfit pk.id (voqPort v)

/-- Copy the oldest spilled frame back: whole, and while its cells are free (R138). A frame that waited on chip behind
spilled ones joins the on-chip part. -/
def State.readOne (s : State) (sl v : Nat) : State :=
  match (s.voq sl v).spillQ with
  | [] => s
  | id :: rest =>
    let pk := s.pkt id
    if s.voqCells sl v < (s.classCfg (voqClass v)).spillThr then
      let t := s.updVoq sl v (fun q => { q with spillQ := rest })
      if pk.spilled = false then (t.pushVoq pk (voqPort v) v).dropUnfit id (voqPort v)
      else if pk.whole ∧ pk.nCells ≤ s.unreserved then
        match s.chargeOf pk with
        | some q => t.readIn sl v pk q
        | none => s
      else s
    else s

/-- The VOQ leaves spill when no spilled frame remains; a read-back in progress ends there or at the threshold. -/
def State.readEnd (s : State) (sl v : Nat) : State :=
  let q := s.voq sl v
  if q.spillQ.isEmpty then s.leaveSpill sl v
  else s.updVoq sl v (fun q => { q with readback := decide (s.voqCells sl v < (s.classCfg (voqClass v)).spillThr) })

/-- SPILL_READBACK of a VOQ in spill whose on-chip part has fallen to half the threshold, or whose read-back waited. -/
def State.readback (s : State) (sl v : Nat) : State :=
  let q := s.voq sl v
  if s.buf.spillVoqs.contains (spillKey sl v)
      ∧ (q.readback ∨ 2 * s.voqCells sl v ≤ (s.classCfg (voqClass v)).spillThr) then
    ((q.spillQ.foldl (fun t _ => t.readOne sl v) s).readEnd sl v).startFrames sl v
  else s

def execSpillReadback (slice voq : Nat) (s : State) : Host.Outcome State Fault Refusal :=
  if 16 ≤ slice then .fault (.noSuchUnit "slice")
  else if 32800 ≤ voq then .fault (.noSuchUnit "VOQ")
  else .next (s.readback slice voq)

/-! ### Message pools (R155 to R158) -/

/-- POOL_ALLOC of `size` bytes by a block: the pointer is the answer. -/
def execPoolAlloc (size block : Nat) (s : State) : Host.Outcome State Fault Refusal :=
  if 65536 < size then .next { s with out := .poolAnswer block stBadArg 0 :: s.out }
  else
    let r := s.poolAlloc size
    match r.2 with
    | some ptr => .next { r.1 with out := .poolAnswer block stOk ptr :: r.1.out }
    | none => .next { r.1 with out := .poolAnswer block stNoResource 0 :: r.1.out }

/-- POOL_FREE of a pointer by a block. -/
def execPoolFree (ptr block : Nat) (s : State) : Host.Outcome State Fault Refusal := .next (s.poolFree ptr block)

end Sys2Proof.Machine
end

