-- ==== Sys2Proof/Machine/Access.lean ====
section
/-! DEFINITION. Accesses of a function to its BAR0: which functions exist, and what a reserved address does (R10, R342,
R345). -/

namespace Sys2Proof.Machine

/-- Function 0 always exists, function 1 in x8 + x8 (R342). -/
def State.fnExists (s : State) (fn : Nat) : Bool := fn == 0 || (fn == 1 && s.ident.bifurcated)

/-- RESERVED_ACCESS: a discarded write raises an info event with its offset and size (R10, R345, R469). -/
def State.reservedAccess (s : State) (off size : Nat) : State := s.raise 0x0101 sevInfo (le 4 off ++ le 1 size)

/-- The function that reaches a register which link `owner` owns in x8 + x8: function 0 otherwise. -/
def State.reaches (s : State) (fn owner : Nat) : Bool := !s.ident.bifurcated || fn == owner

/-- A row about a register that link `owner` owns: it changes the state to `t`; through the other function it is a write of a
reserved address. In D3hot the device answers configuration requests only (R343). -/
def onRegister (s : State) (fn owner off size : Nat) (t : State) : Host.Outcome State Fault Refusal :=
  if s.fnExists fn = false then .fault (.noSuchUnit "function")
  else if (s.host.link fn).d3 then .next s
  else if s.reaches fn owner then .next t
  else .next (s.reservedAccess off size)

end Sys2Proof.Machine
end

