-- ==== Sys2Proof/Machine/Fixity.lean ====
section
/-! DEFINITION. The rows of the fixity witness and the Leaven and fixity commands (R282 to R306). -/

namespace Sys2Proof.Machine

/-- A row about a cluster. -/
def onCluster (c : Nat) (t : State) : Host.Outcome State Fault Refusal :=
  if c < 16 then .next t else .fault (.noSuchUnit "Leaven cluster")

/-! ### Work items and notices (R282 to R289) -/

/-- The work item of a tap entry ends: its record is written. -/
def State.itemDone (s : State) (c k : Nat) (t : Tap) : State :=
  ((s.endTap c t.id).writeRecord c t).countCore c (some k) 1 1 |>.countCore c (some k) 0x0B t.spanLen

/-- The service slot places the record of the oldest queued notice. -/
def State.noticeDone (s : State) (c k : Nat) : State :=
  match (s.fix c).notices with
  | [] => s
  | n :: r =>
    ((s.updFix c (fun f => { f with notices := r })).writeRecord c { n with core := some k }).countCore c (some k) 0x0C 1

/-- FIX_WORK_ITEM_DONE: the oldest committed entry on a core of a fixity slot; on the service slot's core, a notice. -/
def execFixWorkItemDone (cluster core : Nat) (s : State) : Host.Outcome State Fault Refusal :=
  if 13 ≤ core then .fault (.noSuchUnit "Leaven core")
  else onCluster cluster (match (s.fix cluster).taps.find? (fun t => t.core == some core && t.committed) with
    | some t => s.itemDone cluster core t
    | none => if (s.cluster cluster).slots.getD 11 none = some core then s.noticeDone cluster core else s)

/-- The oldest skip notice on its way arrives: it reserves the next position, or is an unrecorded skip. -/
def State.noticeIn (s : State) (c : Nat) : State :=
  match (s.fix c).transit with
  | [] => s
  | n :: r =>
    let t := s.updFix c (fun f => { f with transit := r })
    if 8192 ≤ (s.fix c).notices.length then t.unrecorded c n.flow 7
    else if (s.fix c).cur.full then t.unrecorded c n.flow 10
    else
      let u := t.updFix c (fun f =>
        { f with notices := f.notices ++ [{ n with stripe := f.arrived % 8 }], arrived := (f.arrived + 1) % 8 })
      (u.reservePos c n.id n.unlocked).1

/-- SKIP_NOTICE_ARRIVAL (R284, R289). -/
def execSkipNoticeArrival (cluster : Nat) (s : State) : Host.Outcome State Fault Refusal :=
  onCluster cluster (s.noticeIn cluster)

/-- The positions of the batches of a cluster that have not closed, in order. -/
def FixClu.positions (f : FixClu) : List (Nat × Option (List Byte)) := (f.due ++ [f.cur]).flatMap (·.recs)

/-- FIX_LOG_WRITE_TIMEOUT: the record of a position, counted from the first one that has not closed, cannot be written within
10 us (R284). -/
def execFixLogWriteTimeout (cluster pos : Nat) (s : State) : Host.Outcome State Fault Refusal :=
  let f := s.fix cluster
  onCluster cluster (match f.positions[pos]? with
    | some (n, none) =>
      match (f.taps ++ f.notices).find? (fun t => t.id == n) with
      | some t =>
        let u := (s.dropPos cluster n).updFix cluster (fun g => { g with notices := g.notices.filter (fun x => x.id != n) })
        ((u.endTap cluster n).countCore cluster t.core 2 1).unrecorded cluster t.flow 9
      | none => s
    | _ => s)

/-! ### Batches and receipts (R289 to R294) -/

/-- BATCH_TIMER: the open batch falls due. -/
def execBatchTimer (cluster : Nat) (s : State) : Host.Outcome State Fault Refusal :=
  onCluster cluster (s.fixDue cluster 1 none)

/-- BATCH_CLOSE: a due batch whose positions are all written closes. -/
def execBatchClose (cluster : Nat) (s : State) : Host.Outcome State Fault Refusal :=
  onCluster cluster (s.fixClose cluster)

/-- A flush waits no more for receipts that have reached their ring. -/
def State.flushMet (s : State) (w : List (Nat × Nat)) : Bool := w.all (fun x => decide (x.2 ≤ (s.fix x.1).rcHead))

/-- FIX_FLUSH commands whose receipts are all in their rings complete. -/
def State.flushDone (s : State) : State :=
  let met := s.leaven.flushes.filter (fun x => s.flushMet x.2)
  let t := { s with leaven := { s.leaven with flushes := s.leaven.flushes.filter (fun x => !s.flushMet x.2) } }
  met.foldl (fun u x => u.complete 0x0A05 x.1 (Resp.ok [])) t

/-- A head with its chain fields, and its signature over bytes 0 to 191 (R292 to R294). -/
def signedReceipt (key seq : Nat) (start : Bool) (prev head : List Byte) : List Byte :=
  let h := putAt (putAt head 46 [BitVec.ofNat 8 (rd head 46 1 + b2n start)]) 48 (le 8 seq)
    ++ (if start then List.replicate 32 0 else prev)
  h ++ padTo 96 (Config.signature 2 key h)

/-- A receipt fills its ring while a close is deferred: the full ring defers it from now on, and is reported (R296). -/
def State.ringFullEvent (s : State) (c : Nat) : State :=
  let f := s.fix c
  if f.rcHead - f.rcTail = 65536 ∧ (f.cur.deferred ∨ (f.due.headD Batch.init).deferred) then s.logFullEvent c 1 else s

/-- The oldest receipt of the signing unit enters the receipt ring. -/
def State.receiptOut (s : State) (c : Nat) : State :=
  let f := s.fix c
  match f.signing with
  | [] => s
  | (key, head) :: rest =>
    if f.rcHead - f.rcTail = 65536 then s
    else
      let start := f.chainKey != some key
      let seq := if start then 0 else f.chainSeq
      let r := signedReceipt key seq start f.prevHash head
      let t := s.updFix c (fun g =>
        { g with signing := rest, receipts := Tab.insert (g.rcHead % 65536) r g.receipts, rcHead := g.rcHead + 1,
                 chainSeq := seq + 1, chainKey := some key, prevHash := sha256 r })
      let u := (t.bumpFix 11 1).raiseIf start 0x0A03 sevInfo (le 1 c ++ keyHash 2 key ++ le 4 key)
      ((u.fixRetry c).ringFullEvent c).flushDone

/-- RECEIPT_SIGNED (R293). -/
def execReceiptSigned (cluster : Nat) (s : State) : Host.Outcome State Fault Refusal :=
  onCluster cluster (s.receiptOut cluster)

/-! ### Fixity commands (R305) -/

def checkFixSetCluster (p : List Byte) (_ : State) : Option (Nat × Nat) :=
  firstOf [
    need 0x0A01 (decide (rd p 0 1 ≤ 15) && resv p 1 1),
    need 0x0A02 (rd p 2 2 != 0 && rd p 4 4 != 0),
    need 0x0A01 (decide (rd p 2 2 ≤ 4096) && decide (100 ≤ rd p 4 4) && decide (rd p 4 4 ≤ 10000000))]
/-- A batch that has reached the new size falls due. -/
def applyFixSetCluster (p : List Byte) (s : State) : State :=
  let c := rd p 0 1
  let t := s.updFix c (fun f => { f with size := rd p 2 2, timer := rd p 4 4 })
  if rd p 2 2 ≤ (t.fix c).cur.recs.length then t.fixDue c 0 none else t
def fixSetClusterBody : Body := setCmd 0x0A01 checkFixSetCluster applyFixSetCluster

def fixGetFlowBody : Body := readCmd (fun r s =>
  let f := s.flow (rd r.payload 0 2)
  Resp.ok (le 1 f.cluster ++ le 1 (b2n f.sha) ++ le 2 f.next ++ le 4 0 ++ le 8 f.tapped.toNat ++ le 8 f.records.toNat
    ++ le 8 f.skipped.toNat ++ le 8 f.unrec.toNat ++ le 8 f.spanBytes.toNat))

/-- Device address of the record ring and of the receipt ring of a cluster (R295). -/
def State.recBase (s : State) (c : Nat) : Nat := s.regionBase 5 + c * (s.regionSize 5 / 16)
def State.rcBase (s : State) (c : Nat) : Nat := s.regionBase 4 + c * 18874368

def fixGetLogBody : Body := readCmd (fun r s =>
  let c := rd r.payload 0 1
  let f := s.fix c
  if c ≤ 15 then
    Resp.ok (le 8 (s.recBase c) ++ le 8 s.recCapacity ++ le 8 f.recHead ++ le 8 f.recTail ++ le 8 (s.rcBase c) ++ le 4 65536
      ++ le 4 0 ++ le 8 f.rcHead ++ le 8 f.rcTail ++ le 8 f.orphanFirst ++ le 4 f.orphanCount ++ le 4 0)
  else Resp.err stBadArg 0x0A01)

/-- One past the last record of the receipt with a count. -/
def FixClu.receiptEnd (f : FixClu) (k : Nat) : Nat :=
  let r := Tab.get [] f.receipts (k % 65536)
  rd r 56 8 + rd r 64 4

/-- FIX_RELEASE within R297. -/
def FixClu.releaseOk (f : FixClu) (rec' rc : Nat) : Bool :=
  decide (f.recTail ≤ rec') && decide (rec' ≤ f.recHead) && decide (f.rcTail ≤ rc) && decide (rc ≤ f.rcHead)
    && (rc == f.rcTail || decide (rec' ≤ f.receiptEnd (rc - 1)))

/-- FIX_RELEASE: a deferred close is made up once the receipt ring has room. -/
def fixReleaseBody : Body := fun r s =>
  let c := rd r.payload 0 1
  let a := rd r.payload 8 8
  let b := rd r.payload 16 8
  if decide (c ≤ 15) && resv r.payload 1 7 && (s.fix c).releaseOk a b then
    okCmd ((s.updFix c (fun f => { f with recTail := a, rcTail := b })).fixRetry c) []
  else errCmd s stBadArg 0x0A01

/-- The receipt head that a flushed cluster must reach: the receipts under way, and the open batch if its close is deferred. -/
def FixClu.flushHead (f : FixClu) : Nat :=
  f.rcHead + f.signing.length + f.due.length + (if f.cur.isOpen ∧ f.cur.due.isSome then 1 else 0)

/-- FIX_FLUSH: the open batches fall due; the answer comes when their receipts are in their rings. -/
def fixFlushBody : Body := fun r s =>
  if resv r.payload 2 2 = false then errCmd s stBadArg 0x0A01
  else
    let l := bitList 16 (rd r.payload 0 2)
    let t := l.foldl (fun u c => u.fixDue c 2 none) s
    let w := l.map (fun c => (c, (t.fix c).flushHead))
    if t.flushMet w then okCmd t []
    else ({ t with leaven := { t.leaven with flushes := t.leaven.flushes ++ [(r, w)] } }, none)

def fixGetReceiptBody : Body := readCmd (fun r s =>
  let c := rd r.payload 0 1
  let n := rd r.payload 4 8
  let f := s.fix c
  if c ≤ 15 ∧ f.rcTail ≤ n ∧ n < f.rcHead then Resp.ok (padTo 288 (Tab.get [] f.receipts (n % 65536)))
  else Resp.err stBadArg 0x0A01)

def fixGetCountersBody : Body := readCmd (fun _ s => Resp.ok (ctrBytes s.leaven.ctr 0 16))

/-! ### Leaven commands (R303 to R305) -/

/-- ECLK in MHz: 4.8 GHz through the cluster's divider. -/
def Cluster.eclkMhz (c : Cluster) : Nat := 4800 / max 1 c.eclkDiv

def leavenGetClusterBody : Body := readCmd (fun r s =>
  let c := rd r.payload 0 1
  let x := s.cluster c
  let f := s.fix c
  if c ≤ 15 then
    Resp.ok ((List.range 12).flatMap (fun i => le 1 ((x.slots.getD i none).getD 0xFF))
      ++ le 2 ((x.ready.map (fun k => 2 ^ k)).sum) ++ le 2 ((x.failed.map (fun k => 2 ^ k)).sum)
      ++ le 1 ((f.taps.filter (fun t => t.core.isSome)).length) ++ le 1 f.signing.length ++ le 2 0 ++ le 4 f.tapBytes
      ++ le 4 f.notices.length ++ le 2 f.cur.recs.length ++ le 2 x.eclkMhz ++ le 16 0)
  else Resp.err stBadArg 0x0A01)

/-- New event codes; a counter whose code changes is zeroed (R305). -/
def Core.setCodes (k : Core) (codes : List Nat) : Core :=
  { k with codes
           prog := (List.range 8).map (fun i => if k.codes.getD i 0 = codes.getD i 0 then k.prog.getD i 0 else 0) }

def checkLeavenSetEvents (p : List Byte) (_ : State) : Option (Nat × Nat) :=
  need 0x0A01 (decide (rd p 0 1 ≤ 15) && (decide (rd p 1 1 ≤ 12) || rd p 1 1 == 0xFF) && resv p 2 2
    && (List.range 8).all (fun i => decide (rd p (4 + i) 1 ≤ 0x0C)))
def applyLeavenSetEvents (p : List Byte) (s : State) : State :=
  (if rd p 1 1 = 0xFF then List.range 13 else [rd p 1 1]).foldl (fun t k =>
    t.updCore (rd p 0 1) k (fun x => x.setCodes ((List.range 8).map (fun i => rd p (4 + i) 1)))) s
def leavenSetEventsBody : Body := setCmd 0x0A08 checkLeavenSetEvents applyLeavenSetEvents

/-- LEAVEN_GET_CORE: the counters of a failed core stand still until RED_RESYNC has returned it (R303). -/
def leavenGetCoreBody : Body := fun r s =>
  let c := rd r.payload 0 1
  let n := rd r.payload 1 1
  if 15 < c ∨ 12 < n then errCmd s stBadArg 0x0A01
  else
    let still := (s.cluster c).failed.contains n || (s.cluster c).resync.contains n
    let t := if still then s else s.readCore c n
    let k := t.core c n
    okCmd t (le 8 k.cycles.toNat ++ le 8 k.retired.toNat ++ le 8 k.wasted.toNat ++ le 8 k.front.toNat ++ le 8 k.back.toNat
      ++ (List.range 8).flatMap (fun i => le 8 (k.prog.getD i 0)) ++ (List.range 8).flatMap (fun i => le 1 (k.codes.getD i 0)))

def execFixSetCluster (r : Req) (s : State) : Host.Outcome State Fault Refusal := mailboxCommand 0x0A01 fixSetClusterBody r s
def execFixGetFlow (r : Req) (s : State) : Host.Outcome State Fault Refusal := mailboxCommand 0x0A02 fixGetFlowBody r s
def execFixGetLog (r : Req) (s : State) : Host.Outcome State Fault Refusal := mailboxCommand 0x0A03 fixGetLogBody r s
def execFixRelease (r : Req) (s : State) : Host.Outcome State Fault Refusal := mailboxCommand 0x0A04 fixReleaseBody r s
def execFixFlush (r : Req) (s : State) : Host.Outcome State Fault Refusal := mailboxCommand 0x0A05 fixFlushBody r s
def execFixGetReceipt (r : Req) (s : State) : Host.Outcome State Fault Refusal := mailboxCommand 0x0A06 fixGetReceiptBody r s
def execLeavenGetCluster (r : Req) (s : State) : Host.Outcome State Fault Refusal :=
  mailboxCommand 0x0A07 leavenGetClusterBody r s
def execLeavenSetEvents (r : Req) (s : State) : Host.Outcome State Fault Refusal :=
  mailboxCommand 0x0A08 leavenSetEventsBody r s
def execLeavenGetCore (r : Req) (s : State) : Host.Outcome State Fault Refusal := mailboxCommand 0x0A09 leavenGetCoreBody r s
def execFixGetCounters (r : Req) (s : State) : Host.Outcome State Fault Refusal := mailboxCommand 0x0A0A fixGetCountersBody r s

end Sys2Proof.Machine
end

