-- ==== Sys2Proof/Machine/Gates.lean ====
section
/-! DEFINITION. Gate control lists: positions, open windows, the fit of a frame, and the gate reset (R234 to R244). -/

namespace Sys2Proof.Machine

/-- A list as GATE_SET_LIST carries it (R245). -/
def gateListOf (p : List Byte) : GateList :=
  { entries := (List.range (rd p 2 2)).map (fun i => { states := rd p (32 + 8 * i) 1, interval := rd p (36 + 8 * i) 4 }),
    mask := rd p 4 1, cycle := rd p 8 8, baseSec := rd p 16 8, baseNs := rd p 24 4 }

/-- The spans of one cycle (R234): start, end, states. -/
def GateList.spans (g : GateList) : List (Nat × Nat × Nat) := gateSpans g.cycle 0 g.entries

/-- The position in the cycle at a time of day, in units of 2^-48 ns (R234). -/
def GateList.pos (g : GateList) (at' : Nat) : Nat :=
  (((at' : Int) - (1000000000 * g.baseSec + g.baseNs) * 2 ^ 48) % ((g.cycle * 2 ^ 48 : Nat) : Int)).toNat

/-- The index of the span at a position, and the span. -/
def spanAt (pos : Nat) : Nat → List (Nat × Nat × Nat) → Nat × Option (Nat × Nat × Nat)
  | n, [] => (n, none)
  | n, x :: r => if pos < x.2.1 * 2 ^ 48 then (n, some x) else spanAt pos (n + 1) r

/-- Gate states at a time; every gate is open without a list. -/
def GateList.statesAt (g : GateList) (at' : Nat) : Nat :=
  match (spanAt (g.pos at') 0 g.spans).2 with
  | some x => x.2.2
  | none => 0xFF

/-- The current entry (R245). -/
def GateList.entryAt (g : GateList) (at' : Nat) : Nat := (spanAt (g.pos at') 0 g.spans).1

/-- The class obeys the list. -/
def GateList.gates (g : GateList) (c : Nat) : Bool := !g.entries.isEmpty && bit g.mask c

/-- Spans of two cycles: what follows a position within one cycle. -/
def GateList.twice (g : GateList) : List (Nat × Nat × Nat) :=
  g.spans ++ g.spans.map (fun x => (x.1 + g.cycle, x.2.1 + g.cycle, x.2.2))

/-- The first span from a position on in which the gate of a class is open or closed, as `o` says: its start. -/
def GateList.next (g : GateList) (c pos : Nat) (o : Bool) : Option Nat :=
  (g.twice.find? (fun x => decide (pos ≤ x.1 * 2 ^ 48) && bit x.2.2 c == o)).map (fun x => x.1 * 2 ^ 48)

/-- The open window of a class at a time, in units of 2^-48 ns: 0 where its gate is closed; none: unbounded (R237). -/
def GateList.window (g : GateList) (c at' : Nat) : Option Nat :=
  let pos := g.pos at'
  if bit (g.statesAt at') c then (g.next c pos false).map (fun e => e - pos) else some 0

/-- The next window of a class whose gate is closed at a time: how long until it opens, and its length. -/
def GateList.opening (g : GateList) (c at' : Nat) : Option (Nat × Nat) :=
  let pos := g.pos at'
  match g.next c pos true with
  | some o => match g.next c o false with
    | some e => some (o - pos, e - o)
    | none => some (o - pos, g.cycle * 2 ^ 48)
  | none => none

/-- The set on its way to its instant that changes the list of a port (R242). -/
def State.gateSetOf (s : State) (p : Nat) : Option SetSt :=
  s.bake.sets.find? (fun t => (t.state == .preparing || t.state == .armed)
    && t.cmds.any (fun c => c.op == 0x0806 && rd c.payload 0 2 == p))

/-- The list such a set brings. -/
def SetSt.gateList (t : SetSt) (p : Nat) : GateList :=
  match t.cmds.find? (fun c => c.op == 0x0806 && rd c.payload 0 2 == p) with
  | some c => gateListOf c.payload
  | none => GateList.init

/-- The bake instant of a set in units of 2^-48 ns. -/
def SetSt.instant (t : SetSt) : Nat := (1000000000 * t.sec + t.ns) * 2 ^ 48

/-- The open window of a gated class now, following a committed change-over; before the commit point a set's instant closes
the gates of the ports it changes (R237, R242). -/
def State.openWindow (s : State) (p c : Nat) : Option Nat :=
  let now := s.time.units
  let w := (s.gate p).oper.window c now
  match s.gateSetOf p with
  | none => w
  | some t =>
    let left := t.instant - now
    if left = 0 ∨ w.any (fun x => decide (x < left)) then w
    else if t.committed = false then some left
    else
      let new := t.gateList p
      if new.gates c then (new.window c t.instant).map (fun x => left + x) else none

/-- The wake time in ns that a transmitter in LPI adds (R237). -/
def State.wakeNs (s : State) (p : Nat) : Nat := if (s.port p).lpi then Config.phyWake (s.lane p).mode else 0

/-- A frame of `len` bytes finishes within a window at the port's speed (R237). -/
def State.finishes (s : State) (p len : Nat) (w : Option Nat) : Bool :=
  match w with
  | none => true
  | some x => decide ((txBits len + s.wakeNs p * s.speed p) * 2 ^ 48 ≤ x * s.speed p)

/-- A frame of a class may start now as far as gates go (R189, R236 to R238). -/
def State.gateFits (s : State) (p c len : Nat) : Bool :=
  !s.gated p c || (bit (s.gate p).now c && s.finishes p len (s.openWindow p c))

/-- The next window of a class in the list that a committed set brings, seen from `left` before its instant. -/
def GateList.openingFrom (g : GateList) (c at' left : Nat) : Option (Nat × Option Nat) :=
  if g.gates c = false then some (left, none)
  else if bit (g.statesAt at') c then some (left, g.window c at')
  else (g.opening c at').map (fun w => (left + w.1, some w.2))

/-- The next window of a gated class whose gate is closed now: how long until it opens, and its length, none for unbounded. A
set's instant ends it before the commit point; after it, the window runs on into the new list (R237, R242). -/
def State.nextWindow (s : State) (p c : Nat) : Option (Nat × Option Nat) :=
  let now := s.time.units
  let old := (s.gate p).oper.opening c now
  match s.gateSetOf p with
  | none => old.map (fun w => (w.1, some w.2))
  | some t =>
    let left := t.instant - now
    if left = 0 then old.map (fun w => (w.1, some w.2))
    else match old.filter (fun w => decide (w.1 < left)) with
      | some w =>
        if w.2 < left - w.1 then some (w.1, some w.2)
        else if t.committed = false then some (w.1, some (left - w.1))
        else if (t.gateList p).gates c then some (w.1, ((t.gateList p).window c t.instant).map (fun x => left - w.1 + x))
        else some (w.1, none)
      | none => if t.committed = false then none else (t.gateList p).openingFrom c t.instant left

/-- A gated VOQ's head frame lets the egress grant: its gate is open, or opens within 1 us, and the frame fits (R239). -/
def State.gateGrants (s : State) (p c len : Nat) : Bool :=
  !s.gated p c
    || (if bit ((s.gate p).oper.statesAt s.time.units) c then s.finishes p len (s.openWindow p c)
        else match s.nextWindow p c with
          | some w => decide (w.1 ≤ 1000 * 2 ^ 48) && s.finishes p len w.2
          | none => false)

/-! ### Gate reset (R243) -/

/-- A frame that a gate reset drops, where it waits. -/
inductive GateVictim where
  | queued | crossing | egress (key : Nat)
deriving DecidableEq, Repr

/-- Where a unicast frame waits for a port, if it no longer fits. -/
def State.gateVictim (s : State) (p : Nat) (pk : Pkt) : Option GateVictim :=
  if pk.multi || pk.dead || pk.gone || pk.dests != [p] || !(s.neverFits p pk.tc (pk.outLen p)) then none
  else if pk.crossed then
    match (s.portQueues p).find? (fun k => (s.egq k).any (fun i => i.pkt == pk.id)) with
    | some k => if (s.egq k).any (fun i => i.pkt == pk.id && i.started) then none else some (.egress k)
    | none => some .crossing
  else if pk.cells.isEmpty && !pk.spilled then none
  else if pk.parked.isSome then none
  else some .queued

/-- Drop one of them. -/
def State.gateDrop (s : State) (p : Nat) (pk : Pkt) : GateVictim → State
  | .queued => ((s.pull pk).countDrop pk 27 p).release pk.id
  | .crossing => (s.countDrop pk 27 p).updPkt pk.id (fun x => { x with gone := true })
  | .egress k => ((s.egq k).filter (fun i => i.pkt == pk.id)).foldl (fun t i => t.egDrop k 27 i) s

/-- Multi-destination copies in the egress queues of a port that no longer fit. -/
def State.multiVictims (s : State) (p : Nat) : List (Nat × EgItem) :=
  (s.portQueues p).flatMap (fun k => ((s.egq k).filter (fun i =>
    i.multi && !i.started && s.neverFits p (voqClass k) ((s.pkt i.pkt).outLen p))).map (fun i => (k, i)))

/-- A frame in transmission whose gate the reset closes (R244). -/
def State.gateOverrun (s : State) (p : Nat) : Bool :=
  let c := voqClass (s.port p).txQ
  (s.port p).txPkt.isSome && s.gated p c && !bit ((s.gate p).oper.statesAt s.time.units) c

/-- When the gate of the frame in transmission closes under the list as the reset leaves it, where it is still open. -/
def State.txCloses (s : State) (p : Nat) : Option Nat :=
  let c := voqClass (s.port p).txQ
  if (s.port p).txPkt.isSome && s.gated p c && !s.gateOverrun p then
    ((s.gate p).oper.window c s.time.units).map (s.time.units + ·)
  else none

/-- A gate reset of a port on its operational list: every queued frame of a gated class is tested again;
GATE_CHANGEOVER (R243). -/
def State.gateReset (s : State) (p : Nat) : State :=
  let v := s.pkts.filterMap (fun x => (s.gateVictim p x.2).map (fun w => (x.2, w)))
  let m := s.multiVictims p
  let a := (s.bumpTime p 7 (b2n (s.gateOverrun p))).updPort p (fun q => { q with txGate := s.txCloses p })
  let t := v.foldl (fun t x => t.gateDrop p x.1 x.2) a
  let u := m.foldl (fun t x => t.egDrop x.1 27 x.2) t
  (u.updGate p (fun g => { g with now := g.oper.statesAt s.time.units })).raise 0x0805 sevInfo
    (le 2 p ++ le 4 (v.length + m.length))

end Sys2Proof.Machine
end

