-- ==== Sys2Proof/Machine/HostFifo.lean ====
section
/-! DEFINITION. The host packet FIFOs: banks, to-host and from-host packets (R371 to R378). -/

namespace Sys2Proof.Machine

/-! ### Banks (R371) -/

/-- Words a packet of `n` frame bytes takes. -/
def hpfWords (n : Nat) : Nat := 1 + ceilDiv n 32

def HFifo.bank (f : HFifo) (b : Nat) : List (List Byte) := if b = 0 then f.bank0 else f.bank1
def HFifo.used (f : HFifo) (b : Nat) : Nat := if b = 0 then f.used0 else f.used1
def HFifo.setBank (f : HFifo) (b : Nat) (l : List (List Byte)) (u : Nat) : HFifo :=
  if b = 0 then { f with bank0 := l, used0 := u } else { f with bank1 := l, used1 := u }

/-- A bank is empty. -/
def HFifo.bankEmpty (f : HFifo) (b : Nat) : Bool := f.used b == 0

/-- The writer moves to the other bank; the bank it leaves is empty at once if all its packets have been taken. -/
def HFifo.turn (f : HFifo) : HFifo :=
  let w := f.writeBank
  let g := { f with writeBank := 1 - w }
  if (f.bank w).isEmpty then { g.setBank w [] 0 with readBank := 1 - w } else g

/-- The FIFO with its write bank ready for a packet of `n` words; none: the writer waits. -/
def HFifo.place (f : HFifo) (n : Nat) : Option HFifo :=
  if f.enable = false then none
  else if f.used f.writeBank + n ≤ 2048 then some { f with waiting := false }
  else if f.bankEmpty (1 - f.writeBank) then some { f.turn with waiting := false }
  else none

/-- Commit a packet: its metadata word and frame, padded to whole words. -/
def HFifo.commit (f : HFifo) (b : List Byte) : HFifo :=
  let n := ceilDiv b.length 32
  { f.setBank f.writeBank (f.bank f.writeBank ++ [padTo (32 * n) b]) (f.used f.writeBank + n) with
    packets := f.packets + 1, notices := f.notices + 1 }

/-- The oldest committed packet. -/
def HFifo.head? (f : HFifo) : Option (List Byte) := (f.bank f.readBank).head?

/-- The reader takes it; a bank that the writer has left becomes empty with its last packet. -/
def HFifo.take (f : HFifo) : HFifo :=
  let r := f.readBank
  let l := (f.bank r).drop 1
  let g := { f with notices := f.notices - 1 }
  if l.isEmpty ∧ f.writeBank ≠ r then { g.setBank r [] 0 with readBank := 1 - r } else g.setBank r l (f.used r)

/-- Committed words in both banks. -/
def HFifo.words (f : HFifo) : Nat := ((f.bank0 ++ f.bank1).map (fun b => b.length / 32)).sum

/-- A packet is rewound (R372). -/
def State.rewind (s : State) (f : Nat) : State :=
  s.updFifo f (fun x => { x with rewinds := x.rewinds + 1, writing := [] })

/-! ### To the host (R372, R375) -/

/-- Count bytes and frames of a scheduler node (R212). -/
def State.countNode (s : State) (n len : Nat) : State :=
  s.updNode n (fun x => { x with bytes := (x.bytes + len) % 2 ^ 64, frames := (x.frames + 1) % 2 ^ 64 })

/-- Cause of a packet at a host port. -/
def Pkt.hostCause (pk : Pkt) (p : Nat) : Nat :=
  if pk.mirror.isSome then 4 else if pk.copyHost = some p then 2 else pk.cause

/-- The metadata word of a to-host packet; `f` is a free value for a timestamp that is not valid. -/
def Pkt.hostMeta (pk : Pkt) (p len f : Nat) : List Byte :=
  le 2 len ++ le 2 pk.inPort ++ le 1 (pk.hostCause p) ++ le 1 pk.tc ++ le 1 (b2n pk.tsValid + 2 * pk.keyFlags)
    ++ le 1 pk.pass ++ le 2 (pk.vid % 4096 + 4096 * pk.pcp) ++ le 2 pk.md ++ le 2 pk.rule ++ le 2 0
    ++ (if pk.tsValid then le 4 pk.tsNs ++ le 6 pk.tsSec ++ le 2 pk.tsFrac else le 12 f) ++ le 4 0

/-- The frame in transmission at host port `512 + h` is complete: committed to its FIFO, or rewound where it was found
bad, lost its resequencing gap or was discarded mid-frame; those two have counted their drop already (R141, R178). -/
def State.hostCommit (s : State) (h : Nat) : State :=
  let p := 512 + h
  match (s.port p).txPkt with
  | none => s
  | some id =>
    match (s.egq (s.port p).txQ).find? (fun i => i.pkt == id && i.started) with
    | none => s
    | some i =>
      if i.complete = false then s
      else
        let pk := s.pkt id
        let b := (s.port p).txBytes
        let t := s.updPort p (fun q => { q with txPkt := none, txBytes := [] })
        let u := if i.stomp ∨ pk.midCut then t.rewind (2 * h)
          else if pk.stomp then (t.rewind (2 * h)).countDrop pk (if pk.fcsBad then 1 else 3) p
          else { (t.updFifo (2 * h) (fun f => f.commit (pk.hostMeta p b.length s.freeVal ++ b))).countNode p (b.length + 4) with
            free := t.free + 1 }
        ((u.endTrap pk).egMirror pk p b (pk.stomp || i.stomp)).egLeave (s.port p).txQ i

/-! ### From the host (R376, R378) -/

/-- Fields of a from-host metadata word. -/
def hostLen (m : List Byte) : Nat := rd m 0 2

/-- A from-host packet within R376. -/
def hostPacketOk (m : List Byte) : Bool :=
  decide (14 ≤ hostLen m) && decide (hostLen m ≤ 9212) && allZero (slice m 7 25)
    && (if rd m 4 1 = 1 then decide (rd m 2 2 ≤ 511) && decide (rd m 5 1 ≤ 7) && decide (rd m 6 1 ≤ 7)
        else rd m 4 1 == 0 && rd m 2 2 == 0)

/-- The packet that a from-host frame becomes: PIPELINE enters step 1, BYPASS step 7. -/
def State.hostPkt (s : State) (h : Nat) (b : List Byte) : Pkt :=
  let f := padFrame (slice b 32 (hostLen b))
  let pk := s.newPkt (512 + h) f (f.length + 4) true
  if rd b 4 1 = 1 then
    { pk with bypass := true, prio := rd b 5 1, tc := rd b 5 1, slot := rd b 6 1, dests := [rd b 2 2], tsValid := false }
  else pk

/-- The ingress charge of a packet's priority at its host port is below the XOFF point (R378). -/
def State.belowXoff (s : State) (pk : Pkt) : Bool :=
  let q := s.portClass pk.inPort pk.prio
  q.cShared == 0 || decide (128 * q.cShared < s.txoff128 pk.inPort pk.prio)

/-- A packet passes into the slice. A BYPASS packet for a port number that is inactive finds no VOQ: LINK_DOWN. -/
def State.hostEnter (s : State) (pk : Pkt) : State :=
  if pk.bypass then
    let t := { s with pkts := Tab.insert pk.id pk s.pkts, nextPkt := pk.id + 1 }
    if s.portActive (pk.dests.headD 0) then t.toAdmission pk.id
    else (t.countDrop pk 5 (pk.dests.headD 0)).release pk.id
  else s.firstPass pk

/-- The ingress of host port `512 + h` takes the oldest packet of its FIFO, if its charge lets it. -/
def State.hostInOne (s : State) (h : Nat) : State :=
  match (s.fifo (2 * h + 1)).head? with
  | none => s
  | some b =>
    let pk := s.hostPkt h b
    if s.belowXoff pk then (s.updFifo (2 * h + 1) HFifo.take).hostEnter pk else s

/-- It takes packets as long as it may. -/
def State.hostIn (s : State) (h : Nat) : State :=
  (List.range (s.fifo (2 * h + 1)).notices).foldl (fun t _ => t.hostInOne h) s

/-- All four host ports. -/
def State.hostInAll (s : State) : State := [0, 1, 2, 3].foldl State.hostIn s

/-- The from-host writer commits the packet it has written, if a bank has room for it; else it waits. -/
def State.fromHostCommit (s : State) (h : Nat) : State :=
  let f := s.fifo (2 * h + 1)
  if f.writing.isEmpty then s
  else match f.place (ceilDiv f.writing.length 32) with
    | some g => (s.updFifo (2 * h + 1) (fun _ => { g.commit f.writing with writing := [] })).hostIn h
    | none => s.updFifo (2 * h + 1) (fun x => { x with waiting := x.enable })

/-- HPF_PACKET_COMMIT: the writer of FIFO `fifo` commits (R372). -/
def execHpfPacketCommit (fifo : Nat) (s : State) : Host.Outcome State Fault Refusal :=
  if 8 ≤ fifo then .fault (.noSuchUnit "host packet FIFO")
  else if fifo % 2 = 0 then .next (s.hostCommit (fifo / 2)) else .next (s.fromHostCommit (fifo / 2))

end Sys2Proof.Machine
end

