-- ==== Sys2Proof/Machine/Channels.lean ====
section
/-! DEFINITION. The DMA channels: descriptors, transfers, completions, appending (R347 to R367, R377). -/

namespace Sys2Proof.Machine

/-! ### Device memory as DMA reaches it (R295, R354) -/

/-- A byte of the fixity log region, at an offset. -/
def State.logByte (s : State) (o : Nat) : Byte :=
  let ring := s.regionSize 5 / 16
  let c := o / ring
  (s.slotRecord c (o % ring / 64)).getD (o % 64) 0

/-- The receipt slot that holds an offset of the staging region: cluster, slot, byte. -/
def receiptPlace (o : Nat) : Option (Nat × Nat × Nat) :=
  if o / 18874368 < 16 then some (o / 18874368, o % 18874368 / 288, o % 288) else none

/-- The receipt listed in a slot. -/
def State.receiptAt (s : State) (c slot : Nat) : Option (List Byte) := Tab.find (s.fix c).receipts slot

/-- A byte of the staging region, at an offset. -/
def State.stagingByte (s : State) (o : Nat) : Byte :=
  match receiptPlace o with
  | some (c, slot, j) => match s.receiptAt c slot with
    | some r => r.getD j 0
    | none => Tab.get 0 s.host.staging o
  | none => Tab.get 0 s.host.staging o

/-- A byte of device memory in the regions that DMA reads. -/
def State.deviceByte (s : State) (a : Nat) : Byte :=
  if s.regionBase 5 ≤ a then s.logByte (a - s.regionBase 5)
  else if s.regionBase 4 ≤ a then s.stagingByte (a - s.regionBase 4)
  else if s.regionBase 2 ≤ a ∧ a < s.regionBase 2 + s.regionSize 2 then Tab.get 0 s.host.poolMem (a - s.regionBase 2)
  else 0

/-- Bytes of device memory. -/
def State.deviceBytes (s : State) (a n : Nat) : List Byte := (List.range n).map (fun i => s.deviceByte (a + i))

/-- Write a byte of the staging region. -/
def State.putStaging (s : State) (o : Nat) (b : Byte) : State :=
  let plain : State := { s with host := { s.host with staging := Tab.set 0 s.host.staging o b } }
  match receiptPlace o with
  | some (c, slot, j) => match s.receiptAt c slot with
    | some r => s.updFix c (fun f => { f with receipts := Tab.insert slot (setAt r j b) f.receipts })
    | none => plain
  | none => plain

/-- Write bytes from an offset of the staging region. -/
def State.putStagingBytes (s : State) (o : Nat) : List Byte → State
  | [] => s
  | b :: l => (s.putStaging o b).putStagingBytes (o + 1) l

/-- A range lies wholly within a region. -/
def State.inRegion (s : State) (k a n : Nat) : Bool :=
  decide (s.regionBase k ≤ a) && decide (a + n ≤ s.regionBase k + s.regionSize k)

/-- The device range of a descriptor is permitted (R354). -/
def State.rangeOk (s : State) (toHost : Bool) (a n : Nat) : Bool :=
  s.inRegion 4 a n || (toHost && (s.inRegion 5 a n || s.inRegion 2 a n))

/-! ### Descriptor fields (R348) -/

def dHost (d : List Byte) : Nat := rd d 0 8
def dLen (d : List Byte) : Nat := rd d 8 3
def dFlags (d : List Byte) : Nat := rd d 12 4
def dLink (d : List Byte) : Nat := rd d 16 8
def dHandle (d : List Byte) : Nat := rd d 24 8
def dEoc (d : List Byte) : Bool := bit (dFlags d) 0
def dInt (d : List Byte) : Bool := bit (dFlags d) 1
def dNoSnoop (d : List Byte) : Bool := bit (dFlags d) 2
def dPhase (d : List Byte) : Bool := bit (dFlags d) 3
def dMarker (d : List Byte) : Bool := bit (dFlags d) 4 || dLen d == 0
def dToHost (d : List Byte) : Bool := bit (dFlags d) 5
def dFlush (d : List Byte) : Bool := bit (dFlags d) 6

/-! ### Reads (R355, R356) -/

/-- The function whose link a channel uses. -/
def State.chFn (s : State) (c : Nat) : Nat := if s.ident.bifurcated ∧ 64 ≤ c then 1 else 0

/-- A tag is free for a channel. -/
def State.canRead (s : State) (c : Nat) : Bool :=
  decide ((s.chan c).readsOut < (s.chan c).maxReads) && decide ((s.host.chans.map (fun x => x.2.readsOut)).sum < 1024)

/-- Device Control permits Relaxed Ordering, and No-Snoop. -/
def LinkIf.roOk (l : LinkIf) : Bool := bit l.devCtl.toNat 4
def LinkIf.nsOk (l : LinkIf) : Bool := bit l.devCtl.toNat 11

/-- The payload requests of a descriptor carry No-Snoop (R359). -/
def State.noSnoop (s : State) (c : Nat) (d : List Byte) : Bool := dNoSnoop d && (s.host.link (s.chFn c)).nsOk

/-- The requests of a read: the range rounded outward to whole 64-byte blocks; a flush reads no byte. -/
def State.readParts (s : State) (c : Nat) (r : ReadReq) : List (Nat × Nat) :=
  let a := r.addr / 64 * 64
  if r.len = 0 then [(r.addr, 0)]
  else splitRange (s.host.link (s.chFn c)).maxRead a (ceilDiv (r.addr + r.len - a) 64 * 64)

/-- Put one request on the link: it takes a tag. -/
def State.sendReq (s : State) (c : Nat) (r : ReadReq) : State :=
  (s.updChan c (fun x => { x with readsOut := x.readsOut + 1, tags := x.tags + b2n r.payload })).emit
    (if r.payload then .hostFetch (s.chFn c) r.addr r.len r.ns else .hostRead (s.chFn c) r.addr r.len)

/-- Ask for one request: at once, or in turn when a tag comes free. -/
def State.askReq (s : State) (c : Nat) (r : ReadReq) : State :=
  if s.canRead c ∧ (s.chan c).reads.isEmpty then s.sendReq c r
  else
    let t := s.updChan c (fun x => { x with reads := x.reads ++ [r] })
    if s.host.waitFetch.contains c then t else { t with host := { t.host with waitFetch := t.host.waitFetch ++ [c] } }

/-- Ask for a read: each of its requests takes a tag of its own (R356). -/
def State.askRead (s : State) (c : Nat) (r : ReadReq) : State :=
  (s.readParts c r).foldl (fun t p => t.askReq c { r with addr := p.1, len := p.2 }) s

/-- Ask for a descriptor; such a read never carries No-Snoop (R349, R359). -/
def State.askDesc (s : State) (c a : Nat) : State := s.askRead c { addr := a, len := 32, payload := false, ns := false }

/-- The first waiting channel that may read issues its oldest request and goes to the end of the line; one with no request left
leaves it. -/
def State.serveReads (s : State) : State :=
  let l := s.host.waitFetch.filter (fun c => !(s.chan c).reads.isEmpty)
  match l.find? (fun c => s.canRead c) with
  | none => { s with host := { s.host with waitFetch := l } }
  | some c =>
    match (s.chan c).reads with
    | [] => { s with host := { s.host with waitFetch := without l c } }
    | r :: rest =>
      let t := { s with host := { s.host with waitFetch := if rest.isEmpty then without l c else without l c ++ [c] } }
      (t.updChan c (fun x => { x with reads := rest })).sendReq c r

/-- `n` tags of a channel come back, and waiting channels take them. -/
def State.readDone (s : State) (c n : Nat) : State :=
  (List.range n).foldl (fun t _ => t.serveReads) (s.updChan c (fun x => { x with readsOut := x.readsOut - n }))

/-- The requests of the payload read in progress complete one after another, and with each tag that comes back a waiting request
goes out, those of other channels in their turn; the first argument bounds the number of requests. -/
def State.drainReads : Nat → State → Nat → State
  | 0, s, _ => s
  | n + 1, s, c =>
    if (s.chan c).tags = 0 ∨ (s.chan c).reads.isEmpty then s
    else ((s.updChan c (fun x => { x with tags := x.tags - 1 })).readDone c 1).drainReads n c

/-- The payload read of the descriptor in progress is complete. -/
def State.dataDone (s : State) (c : Nat) : State :=
  (s.updChan c (fun x => { x with tags := 0 })).readDone c (s.chan c).tags

/-- Reads that the channel has abandoned return their tags (R357). -/
def State.tagsBack (s : State) (c : Nat) : State :=
  (s.updChan c (fun x => { x with lost := 0 })).readDone c (s.chan c).lost

/-- Put payload on the link: Relaxed Ordering where the channel asks for it and Device Control permits it, No-Snoop likewise
(R355, R357, R359). -/
def State.sendData (s : State) (c : Nat) (d : List Byte) (addr : Nat) (data : List Byte) : State :=
  let l := s.host.link (s.chFn c)
  (splitRange l.maxPayload addr data.length).foldl (fun t p =>
    t.emit (.hostData (s.chFn c) p.1 (slice data (p.1 - addr) p.2) ((s.chan c).ro && l.roOk) (s.noSnoop c d))) s

/-! ### Completions (R357, R358, R361, R362) -/

/-- A completion entry as the ring holds it. -/
def CqEntry.row (e : CqEntry) (phase : Bool) : List Byte :=
  le 8 e.addr.toNat ++ le 3 e.bytes ++ le 1 0 ++ le 2 e.status
    ++ le 1 (b2n phase + 2 * b2n e.marker + 4 * b2n e.sop + 8 * b2n e.eop + 16 * b2n e.int) ++ le 1 0

/-- The ring has room. -/
def Chan.cqRoom (x : Chan) : Bool := (x.cqTail + 2 ^ 32 - x.cqHead) % 2 ^ 32 != 2 ^ x.cqK

/-- Address of the next entry. -/
def Chan.cqAddr (x : Chan) : Nat := x.cqBase.toNat + 16 * (x.cqTail % 2 ^ x.cqK)

/-- The counts after an entry has been written; the phase flips at the end of a lap. -/
def Chan.cqWritten (x : Chan) (e : CqEntry) : Chan :=
  { x with
    cq := x.cq.drop 1
    cqTail := (x.cqTail + 1) % 2 ^ 32
    cqPhase := if (x.cqTail + 1) % 2 ^ x.cqK = 0 then !x.cqPhase else x.cqPhase
    comp := x.comp + 1
    bytes := x.bytes + BitVec.ofNat 64 e.bytes
    flush := if e.flush then some e.int else none }

/-- Write the oldest waiting entry, if no flush is outstanding and the ring has room. -/
def State.cqOne (s : State) (c : Nat) : State :=
  let x := s.chan c
  match x.cq with
  | [] => s
  | e :: _ =>
    if x.flush.isSome ∨ x.cqRoom = false then s
    else
      let t := (s.updChan c (fun y => y.cqWritten e)).emit (.hostWrite (s.chFn c) x.cqAddr (e.row x.cqPhase))
      let u := if e.flush then t.askRead c ⟨x.cqAddr, 0, false, false⟩ else if e.int then t.interrupt c else t
      if x.endCount ≠ 0 ∧ x.comp + 1 = x.endCount then u.interrupt c else u

/-- Write entries as long as possible. -/
def State.cqPump (s : State) (c : Nat) : State := (s.chan c).cq.foldl (fun t _ => t.cqOne c) s

/-! ### The chain (R349 to R353, R363, R364) -/

/-- The flush read of the channel is outstanding. -/
def Chan.flushOut (x : Chan) : Bool := x.flush.isSome && !x.reads.any (fun r => r.len == 0)

/-- The channel's chain, packet and reads in waiting are forgotten, but for the read of a strict flush; the tags of the other
reads are still to come back. -/
def Chan.quiet (x : Chan) : Chan :=
  { x with
    desc := none
    fetching := false
    stale := 0
    waitStale := false
    stopReq := false
    due := false
    tailRefetch := false
    reads := x.reads.filter (fun r => r.len == 0)
    tags := 0
    lost := x.readsOut - b2n x.flushOut
    pktLeft := []
    inPkt := false
    badPkt := false }

/-- A from-host packet that is being gathered vanishes (R372). -/
def State.dropPartial (s : State) (c : Nat) : State :=
  let x := s.chan c
  if x.mode = 2 ∧ x.inPkt then s.updFifo (2 * x.hostPort + 1) (fun f => { f with rewinds := f.rewinds + 1 }) else s

/-- The channel goes to STOPPED. -/
def State.chanStop (s : State) (c : Nat) : State :=
  (s.dropPartial c).updChan c (fun x => { x.quiet with state := .stopped })

/-- Fetch the descriptor at an address. -/
def State.chanFetch (s : State) (c : Nat) (a : BitVec 64) : State :=
  (s.updChan c (fun x =>
    { x with state := .running, cur := a, desc := none, fetching := true, stale := 0, waitStale := false })).askDesc c a.toNat

/-- Follow a link: the expected phase flips where it leads backward (R350). -/
def State.chanFollow (s : State) (c : Nat) (link : BitVec 64) : State :=
  (s.updChan c (fun x => { x with phase := if link.toNat ≤ x.cur.toNat then !x.phase else x.phase })).chanFetch c link

/-- In IDLE: refetch the tail if a doorbell is outstanding (R364). -/
def State.tailCheck (s : State) (c : Nat) : State :=
  let x := s.chan c
  if x.state = .idle ∧ x.tailRefetch = false ∧ x.rung ≠ x.consumed then
    (s.updChan c (fun y => { y with consumed := y.rung, tailRefetch := true })).askDesc c x.cur.toNat
  else s

/-- After a descriptor has completed: STOPPED, IDLE at the tail, or the next descriptor. -/
def State.chanNext (s : State) (c : Nat) : State :=
  let x := s.chan c
  let d := x.desc.getD []
  if x.stopReq then s.chanStop c
  else if dEoc d then
    (s.updChan c (fun y => { y with state := .idle, desc := none, due := false })).tailCheck c
  else (s.updChan c (fun y => { y with due := false })).chanFollow c (BitVec.ofNat 64 (dLink d))

/-- The channel goes on, or waits until its completion finds room in the ring. -/
def State.chanGoOn (s : State) (c : Nat) : State :=
  if ¬ (s.chan c).cq.isEmpty ∧ (s.chan c).flush.isNone then s.updChan c (fun x => { x with due := true })
  else s.chanNext c

/-- The ring or the flush has changed: entries are written, and a channel that waits goes on. -/
def State.cqResume (s : State) (c : Nat) : State :=
  let t := s.cqPump c
  if (t.chan c).due then t.chanGoOn c else t

/-- The channel halts (R347, R353): cause, interrupt, DMA_HALTED. -/
def State.chanHalt (s : State) (c status : Nat) : State :=
  let t := (s.dropPartial c).updChan c (fun x => { x.quiet with state := .halted, haltCause := status })
  (t.interrupt c).raise 0x1203 sevWarning (le 2 c ++ le 2 status ++ le 8 (s.chan c).cur.toNat)

/-- Statuses that halt (R367). -/
def halting (status : Nat) : Bool := decide (1 ≤ status) && decide (status ≤ 5)

/-- A descriptor completes: its entry, then the halt or the next descriptor. -/
def State.chanDone (s : State) (c status n : Nat) (sop eop : Bool) : State :=
  let x := s.chan c
  let d := x.desc.getD []
  let e : CqEntry := { addr := x.cur, bytes := n, status, marker := dMarker d, sop, eop, int := dInt d, flush := dFlush d }
  let t := (s.updChan c (fun y => { y with cq := y.cq ++ [e] })).cqPump c
  if halting status then t.chanHalt c status else t.chanGoOn c

/-- An error leaves the number of bytes transferred open (log entry 3). -/
def State.chanError (s : State) (c status : Nat) : State :=
  (s.drawn 1).chanDone c status (s.freeVal % (dLen ((s.chan c).desc.getD []) + 1)) false false

/-- The first row of R353 that rejects a descriptor before its transfer. -/
def State.descFault (s : State) (x : Chan) (d : List Byte) : Option Nat :=
  if rd d 11 1 ≠ 0 ∨ 128 ≤ dFlags d ∨ (dEoc d = false ∧ dLink d % 32 ≠ 0) then some 2
  else if (x.mode = 2 ∧ dToHost d = true) ∨ (x.mode = 1 ∧ dToHost d = false) then some 2
  else if x.mode = 0 ∧ dMarker d = false ∧ s.rangeOk (dToHost d) (dHandle d) (dLen d) = false then some 3
  else none

/-- A valid copy: rejected, completed as a marker, or its transfer begins. -/
def State.takeDesc (s : State) (c : Nat) (d : List Byte) : State :=
  let t := s.updChan c (fun x => { x with desc := some d, fetching := false, waitStale := false, stale := 0 })
  match s.descFault (s.chan c) d with
  | some st => t.chanDone c st 0 false false
  | none =>
    if dMarker d then t.chanDone c 0 0 false false
    else if dToHost d then t
    else t.askRead c { addr := dHost d, len := dLen d, payload := true, ns := s.noSnoop c d }

/-- A read of the channel other than a flush still waits for its tag. -/
def Chan.unsent (x : Chan) : Bool := x.reads.any (fun r => r.len != 0)

/-- DESCRIPTOR_FETCHED: the copy that the channel waits for, or the return of reads it has abandoned. A stale copy waits for
its re-read, the eighth re-read's halts the channel (R351). -/
def State.descArrives (s : State) (c : Nat) (d : List Byte) : State :=
  let x := s.chan c
  if x.state ≠ .running ∨ x.fetching = false ∨ x.unsent = true then s.tagsBack c
  else
    let t := s.readDone c 1
    if dPhase d = x.phase then t.takeDesc c d
    else if 8 ≤ x.stale then t.chanHalt c 1
    else t.updChan c (fun y => { y with fetching := false, waitStale := true })

def execDescriptorFetched (ch : Nat) (bytes : List Byte) (s : State) : Host.Outcome State Fault Refusal :=
  if 128 ≤ ch then .fault (.noSuchUnit "DMA channel") else .next (s.descArrives ch (padTo 32 bytes))

/-- STALE_DESC_REREAD: the stale descriptor is read again, and the copy is what `bytes` says; the eighth stale re-read
halts the channel without a completion. Where no tag is free the re-read waits for one, and its copy comes as any other. -/
def State.staleReread (s : State) (c : Nat) (d : List Byte) : State :=
  let x := s.chan c
  if x.state ≠ .running ∨ x.waitStale = false then s
  else if s.canRead c = false ∨ x.reads.isEmpty = false then
    (s.updChan c (fun y => { y with fetching := true, waitStale := false, stale := y.stale + 1 })).askDesc c x.cur.toNat
  else
    let t := (s.askDesc c x.cur.toNat).readDone c 1
    if dPhase d = x.phase then t.takeDesc c d
    else if 7 ≤ x.stale then t.chanHalt c 1
    else t.updChan c (fun y => { y with stale := y.stale + 1 })

def execStaleDescReread (ch : Nat) (bytes : List Byte) (s : State) : Host.Outcome State Fault Refusal :=
  if 128 ≤ ch then .fault (.noSuchUnit "DMA channel") else .next (s.staleReread ch (padTo 32 bytes))

/-! ### Transfers (R353 to R357, R377) -/

/-- DIR 1 data with an uncorrectable error: the affected bytes go out poisoned, the others as they are. Which bytes are affected
is a free value (log entry 3). -/
def State.sendPoisoned (s : State) (c : Nat) (d : List Byte) : State :=
  let b := s.deviceBytes (dHandle d) (dLen d)
  let l := s.host.link (s.chFn c)
  let o := s.freeVal % b.length
  let n := 1 + Config.freeValue (s.free + 1) % (b.length - o)
  let t := (s.drawn 2).sendData c d (dHost d) (b.take o)
  let u := (splitRange l.maxPayload (dHost d + o) n).foldl (fun u p =>
    u.emit (.hostPoison (s.chFn c) p.1 p.2 ((s.chan c).ro && l.roOk) (s.noSnoop c d))) t
  u.sendData c d (dHost d + o + n) (b.drop (o + n))

/-- Memory mode. -/
def State.memTransfer (s : State) (c : Nat) (d : List Byte) (err : Bool) (data : List Byte) : State :=
  if dToHost d then
    if err then (s.sendPoisoned c d).chanError c 5
    else (s.sendData c d (dHost d) (s.deviceBytes (dHandle d) (dLen d))).chanDone c 0 (dLen d) false false
  else
    ((s.dataDone c).putStagingBytes (dHandle d - s.regionBase 4) (padTo (dLen d) data)).chanDone c 0 (dLen d) false false

/-- The packet that a to-host channel delivers next: what is left of the one in progress, or the oldest in its FIFO. -/
def State.toHostNext (s : State) (x : Chan) : Option (List Byte) :=
  if x.inPkt then some x.pktLeft else (s.fifo (2 * x.hostPort)).head?.map (fun b => b.take (32 + rd b 0 2))

/-- To-host packet mode: one descriptor's part of a packet; without a committed packet the channel waits. -/
def State.toHostTransfer (s : State) (c : Nat) (d : List Byte) : State :=
  let x := s.chan c
  if x.badPkt then
    (s.updChan c (fun y => { y with badPkt := false, inPkt := false, pktLeft := [] })).chanDone c 7 0 false true
  else match s.toHostNext x with
    | none => s
    | some b =>
      let part := b.take (dLen d)
      let rest := b.drop (dLen d)
      let t := (s.sendData c d (dHost d) part).updChan c (fun y =>
        { y with inPkt := !rest.isEmpty, pktLeft := rest })
      (if rest.isEmpty then t.updFifo (2 * x.hostPort) HFifo.take else t).chanDone c 0 part.length (!x.inPkt) rest.isEmpty

/-- No bank has room for a packet whose length is known. -/
def HFifo.bankFull (f : HFifo) (all : List Byte) : Bool :=
  !(decide (all.length < 32) || (f.place (hpfWords (hostLen all))).isSome)

/-- The writer of a from-host FIFO can take what has been gathered: the FIFO is enabled, and a bank has room for the packet
once its length is known. -/
def HFifo.takesPart (f : HFifo) (all : List Byte) (last : Bool) : Bool :=
  f.enable && !f.bankFull all && (!last || f.writing.isEmpty)

/-- From-host packet mode: one descriptor's part of a packet. -/
def State.fromHostTransfer (s : State) (c : Nat) (d data : List Byte) : State :=
  let x := s.chan c
  let k := 2 * x.hostPort + 1
  let all := x.pktLeft ++ padTo (dLen d) data
  let last := decide (32 ≤ all.length) && decide (32 + hostLen all ≤ all.length)
  let n := if last then dLen d - (all.length - (32 + hostLen all)) else dLen d
  let clear := fun (y : Chan) => { y with pktLeft := [], inPkt := false, badPkt := false }
  if x.badPkt then
    ((s.dataDone c).updChan c (fun y => if last then clear y else { y with pktLeft := all, inPkt := true })).chanDone c 7 n
      (!x.inPkt) last
  else if 32 ≤ all.length ∧ hostPacketOk all = false then
    (((s.dataDone c).updFifo k (fun f => { f with rewinds := f.rewinds + 1 })).updChan c clear).chanDone c 6 n (!x.inPkt) true
  else if (s.fifo k).takesPart all last = false then s.updFifo k (fun f => { f with waiting := f.enable && f.bankFull all })
  else if last then
    (((s.dataDone c).updFifo k (fun f => { f with writing := all.take (32 + hostLen all), waiting := false })).updChan c
      clear).chanDone c 0 n (!x.inPkt) true
  else
    ((s.dataDone c).updChan c (fun y => { y with pktLeft := all, inPkt := true })).chanDone c 0 n (!x.inPkt) false

/-- The transfer of a descriptor, whose requests have all been sent, ends. -/
def State.transferEnds (s : State) (c : Nat) (d : List Byte) (err : Nat) (data : List Byte) : State :=
  if (s.chan c).mode = 1 then s.toHostTransfer c d
  else if (s.chan c).mode = 2 then s.fromHostTransfer c d data
  else s.memTransfer c d (err != 0) data

/-- DMA_TRANSFER_DONE of the descriptor in progress: `data` is what a DIR 0 read returned, `err` not 0 an uncorrectable
error of device memory. The requests that still wait for tags take those of the earlier ones, in turn with other channels; if
some still wait then, the transfer has not ended. With no transfer in progress, or none of its requests sent, it is the return of
abandoned reads (R357). -/
def State.transferDone (s : State) (c err : Nat) (data : List Byte) : State :=
  let x := s.chan c
  match x.desc with
  | none => s.tagsBack c
  | some d =>
    if x.state ≠ .running ∨ x.due ∨ (x.unsent = true ∧ x.tags = 0) then s.tagsBack c
    else
      let t := s.drainReads x.reads.length c
      if (t.chan c).unsent then t else t.transferEnds c d err data

def execDmaTransferDone (ch err : Nat) (data : List Byte) (s : State) : Host.Outcome State Fault Refusal :=
  if 128 ≤ ch then .fault (.noSuchUnit "DMA channel") else .next (s.transferDone ch err data)

/-- STRICT_FLUSH_DONE: the interrupt is signalled, and the next entry may be written. -/
def State.chanFlushed (s : State) (c : Nat) : State :=
  match (s.chan c).flush with
  | none => s
  | some i =>
    let t := (s.readDone c 1).updChan c (fun x => { x with flush := none })
    (if i then t.interrupt c else t).cqResume c

def execStrictFlushDone (ch : Nat) (s : State) : Host.Outcome State Fault Refusal :=
  if 128 ≤ ch then .fault (.noSuchUnit "DMA channel") else .next (s.chanFlushed ch)

/-- TAIL_REFETCHED: with EOC clear the link is followed, with EOC set the channel stays IDLE. -/
def State.tailArrives (s : State) (c : Nat) (d : List Byte) : State :=
  let x := s.chan c
  let t := (s.readDone c 1).updChan c (fun y => { y with tailRefetch := false })
  if x.state ≠ .idle ∨ x.tailRefetch = false ∨ x.unsent = true then s.tagsBack c
  else if dEoc d then t.tailCheck c
  else if dLink d % 32 ≠ 0 then (t.updChan c (fun y => { y with desc := some d })).chanDone c 2 0 false false
  else t.chanFollow c (BitVec.ofNat 64 (dLink d))

def execTailRefetched (ch : Nat) (bytes : List Byte) (s : State) : Host.Outcome State Fault Refusal :=
  if 128 ≤ ch then .fault (.noSuchUnit "DMA channel") else .next (s.tailArrives ch (padTo 32 bytes))

/-- A read of the channel's chain is outstanding: a descriptor read that has been sent, or the re-read of a stale copy. -/
def Chan.awaits (x : Chan) : Bool := (x.fetching || x.tailRefetch) && !x.unsent || x.waitStale && x.lost == 0

/-- A read in error halts the channel with HOST_ERROR: a descriptor read, or a DIR 0 data read. A from-host packet vanishes with
it, whichever of its descriptors it is (R372). The error of a read that the channel has abandoned returns its tag. -/
def State.readError (s : State) (c : Nat) : State :=
  let x := s.chan c
  if x.awaits then
    ((s.readDone c (if x.waitStale then 0 else 1)).updChan c (fun y => { y with desc := none })).chanDone c 4 0 false false
  else match x.desc with
    | some d =>
      if x.state = .running ∧ x.due = false ∧ x.tags ≠ 0 ∧ dToHost d = false ∧ dMarker d = false then
        ((s.dataDone c).updChan c (fun y => { y with inPkt := y.inPkt || y.mode == 2 })).chanError c 4
      else s.tagsBack c
    | none => s.tagsBack c

/-- AER of a function logs an error of a read: Poisoned TLP Received or Completion Timeout, or none of AER's; which, is a free
value (log entry 106). -/
def State.logAer (s : State) (fn : Nat) : State :=
  (s.updLink fn (fun l => { l with aerUncor := l.aerUncor ||| BitVec.ofNat 32 (s.freeVal % 32768 / 4096 * 4096 % 24576) })).drawn 1

def execDmaReadError (ch : Nat) (s : State) : Host.Outcome State Fault Refusal :=
  if 128 ≤ ch then .fault (.noSuchUnit "DMA channel") else .next ((s.logAer (s.chFn ch)).readError ch)

/-! ### START, STOP, ABORT and doorbells (R347, R357, R364 to R366) -/

/-- START of a STOPPED or HALTED channel; in RUNNING and IDLE it is ignored. -/
def State.chanStart (s : State) (c : Nat) (cqReset : Bool) : State :=
  let x := s.chan c
  if x.state = .running ∨ x.state = .idle then s
  else
    let t := s.updChan c (fun y => { y.quiet with phase := y.phaseInit, consumed := y.rung })
    let u := if cqReset then t.updChan c (fun y => { y with cqHead := 0, cqTail := 0, cqPhase := true, cq := [] }) else t
    u.chanFetch c x.start

/-- STOP: after the descriptor whose transfer has begun, else at once. -/
def State.chanStopReq (s : State) (c : Nat) : State :=
  let x := s.chan c
  let busy := match x.desc with
    | some _ => !(x.mode == 1 && !x.inPkt && (s.fifo (2 * x.hostPort)).head?.isNone)
    | none => false
  if x.state = .idle ∨ (x.state = .running ∧ busy = false) then s.chanStop c
  else if x.state = .running then s.updChan c (fun y => { y with stopReq := true })
  else s

/-- ABORT: at once, with no completion for the descriptor in progress. -/
def State.chanAbort (s : State) (c : Nat) : State :=
  let x := s.chan c
  if x.state = .running ∨ x.state = .idle then
    (s.updChan c (fun y => { y with cq := if y.due then y.cq.dropLast else y.cq })).chanStop c
  else s

/-- The fields of a DMA_CTRL write that the channel keeps: MODE and HOST_PORT only in STOPPED, MODE 3 and a MAX_READS out of
range never. -/
def Chan.putCtrl (x : Chan) (v : Nat) : Chan :=
  let open_ := x.state == .stopped
  { x with
    phaseInit := bit v 3
    ro := bit v 8
    mode := if open_ && bits v 5 4 != 3 then bits v 5 4 else x.mode
    hostPort := if open_ then bits v 7 6 else x.hostPort
    maxReads := if 1 ≤ bits v 26 16 ∧ bits v 26 16 ≤ 1024 then bits v 26 16 else x.maxReads }

/-- BAR0 offset of a channel's register. -/
def chanReg (c o : Nat) : Nat := 0x80000 + 0x800 * c + o

/-- A write of DMA_CTRL. -/
def State.writeCtrl (s : State) (c v size : Nat) : State :=
  let x := s.chan c
  let bad := x.state ≠ .stopped ∧ (bits v 5 4 ≠ x.mode ∨ bits v 7 6 ≠ x.hostPort)
  let t := s.updChan c (fun y => y.putCtrl v)
  let u := if bad then t.reservedAccess (chanReg c 0) size else t
  let w := if bit v 0 then u.chanStart c (bit v 9) else u
  let y := if bit v 1 then w.chanStopReq c else w
  if bit v 2 then y.chanAbort c else y

/-- A row that writes DMA_CTRL with command bit `b` set. -/
def ctrlRow (b fn ch : Nat) (w : BitVec 64) (s : State) : Host.Outcome State Fault Refusal :=
  if 128 ≤ ch then .fault (.noSuchUnit "DMA channel")
  else onRegister s fn (s.chFn ch) (chanReg ch 0) 8 (s.writeCtrl ch (setBit w.toNat b) 8)

def execDmaStart (fn ch : Nat) (w : BitVec 64) (s : State) : Host.Outcome State Fault Refusal := ctrlRow 0 fn ch w s
def execDmaStop (fn ch : Nat) (w : BitVec 64) (s : State) : Host.Outcome State Fault Refusal := ctrlRow 1 fn ch w s
def execDmaAbort (fn ch : Nat) (w : BitVec 64) (s : State) : Host.Outcome State Fault Refusal := ctrlRow 2 fn ch w s

/-- A doorbell is counted, and examined in IDLE. -/
def State.chanRing (s : State) (c : Nat) : State :=
  (s.updChan c (fun x => { x with rung := (x.rung + 1) % 2 ^ 32 })).tailCheck c

/-- DMA_DOORBELL: the value written does not matter. -/
def execDmaDoorbell (fn ch : Nat) (_ : BitVec 64) (s : State) : Host.Outcome State Fault Refusal :=
  if 128 ≤ ch then .fault (.noSuchUnit "DMA channel")
  else onRegister s fn (s.chFn ch) (chanReg ch 0x20) 8 (s.chanRing ch)

/-! ### FIFO resets (R374) -/

/-- The ingress port of a packet in a FIFO. -/
def fifoPort (f : Nat) (b : List Byte) : Nat := if f % 2 = 0 then rd b 2 2 else 512 + f / 2

/-- A channel in the middle of a packet of a FIFO that is reset: a to-host one ends it with its descriptor in progress, or
with the next; a from-host one completes the rest of its packet's descriptors with FIFO_RESET. -/
def State.chanFifoReset (s : State) (f c : Nat) : State :=
  let x := s.chan c
  if x.mode = 1 + f % 2 ∧ x.hostPort = f / 2 ∧ x.inPkt then
    let t := s.updChan c (fun y => { y with badPkt := true })
    if f % 2 = 0 ∧ x.state = .running ∧ x.desc.isSome ∧ x.due = false then t.toHostTransfer c (x.desc.getD []) else t
  else s

/-- The frame that a host port writes to its FIFO, if there is one. -/
def State.hostTx (s : State) (h : Nat) : Option EgItem :=
  let q := s.port (512 + h)
  q.txPkt.bind (fun id => (s.egq q.txQ).find? (fun i => i.pkt == id))

/-- The packet that is being written to a to-host FIFO is dropped with it. -/
def State.dropHostTx (s : State) (f : Nat) : State :=
  match (if f % 2 = 0 then s.hostTx (f / 2) else none) with
  | none => s
  | some i =>
    let p := 512 + f / 2
    let pk := s.pkt i.pkt
    (((s.updPort p (fun q => { q with txPkt := none, txBytes := [] })).countDrop pk 32 p).endTrap pk).egLeave (s.port p).txQ i

/-- The from-host packets that channels have gathered in part for a FIFO. -/
def State.halfPackets (s : State) (f : Nat) : List (List Byte) :=
  (s.host.chans.filter (fun e => f % 2 == 1 && e.2.mode == 2 && e.2.hostPort == f / 2 && e.2.inPkt && !e.2.badPkt)).map
    (fun e => e.2.pktLeft)

/-- A FIFO is reset. -/
def State.fifoReset (s : State) (f : Nat) : State :=
  let x := s.fifo f
  let l := x.bank0 ++ x.bank1 ++ (if x.writing.isEmpty then [] else [x.writing]) ++ s.halfPackets f
  let n := l.length + (if f % 2 = 0 ∧ (s.hostTx (f / 2)).isSome then 1 else 0)
  let t := (l.foldl (fun u b => u.bumpDrop (fifoPort f b) 32) s).dropHostTx f
  let u := t.updFifo f (fun y =>
    { y with
      writeBank := 0
      readBank := 0
      waiting := false
      resetSeen := true
      bank0 := []
      bank1 := []
      notices := 0
      resets := y.resets + 1
      resetDrops := y.resetDrops + BitVec.ofNat 64 n
      writing := []
      used0 := 0
      used1 := 0 })
  (List.range 128).foldl (fun v c => v.chanFifoReset f c)
    ((u.interrupt (179 + f)).raise 0x1204 sevUncorrectable (le 2 f ++ le 4 n))

/-- An upset moves one pointer of the second copy; which, and to which word, is a free value (log entry 106). -/
def HFifo.upset (f : HFifo) (k d : Nat) : HFifo :=
  let off := fun (w : Nat) => if w + (1 + d % 4095) < 4096 then w + (1 + d % 4095) else w + (1 + d % 4095) - 4096
  let p := f.ptrs
  { f with copy := if k % 3 = 0 then (off p.1, p.2) else if k % 3 = 1 then (p.1, off p.2.1, p.2.2) else (p.1, p.2.1, off p.2.2) }

/-- The copies of the pointers are compared; a FIFO whose copies differ is reset (R373, R374). -/
def State.comparePtrs (s : State) (f : Nat) : State := if (s.fifo f).copy = (s.fifo f).ptrs then s else s.fifoReset f

/-- HPF_POINTER_MISMATCH: the two copies of a pointer have come to differ. -/
def execHpfPointerMismatch (fifo : Nat) (s : State) : Host.Outcome State Fault Refusal :=
  if 8 ≤ fifo then .fault (.noSuchUnit "host packet FIFO")
  else
    let t := { s with host := { s.host with fifos := Tab.upd HFifo.init s.host.fifos fifo (fun x =>
      x.upset s.freeVal (Config.freeValue (s.free + 1))) } }
    .next ((t.drawn 2).comparePtrs fifo)

end Sys2Proof.Machine
end

