-- ==== Sys2Proof/Machine/Proofing.lean ====
section
/-! DEFINITION. Proofing timers and releases, Shelf Link, and their commands (R308 to R340). -/

namespace Sys2Proof.Machine

/-! ### Timers (R313, R316, R321) -/

/-- The hold timer of a target has expired. -/
def State.holdExpired (s : State) (idx : Nat) : State :=
  let t := s.target idx
  if t.holdOn ∧ (t.state = .asleep ∨ t.state = .waking) then s.tgtFail idx 0 else s

def execHoldTimerExpiry (target : Nat) (s : State) : Host.Outcome State Fault Refusal :=
  if 65536 ≤ target then .fault (.noSuchUnit "target") else .next (s.holdExpired target)

/-- A target spins down (R321): a SPIN_DOWN for its slot is queued, and it is ASLEEP at once. -/
def State.spinDown (s : State) (idx : Nat) : State :=
  let l := (s.target idx).loc
  ((s.updDrop l.1 l.2.1 (fun d => { d with downQ := d.downQ ++ [l.2.2] })).bumpProof 14 1).setTgt idx .asleep

/-- The idle spin-down time of a target has passed. -/
def State.idleExpired (s : State) (idx : Nat) : State :=
  let t := s.target idx
  if t.valid ∧ t.state = .awake ∧ 0 < (s.tgtClass t).idle then s.spinDown idx else s

def execIdleSpindownTimer (target : Nat) (s : State) : Host.Outcome State Fault Refusal :=
  if 65536 ≤ target then .fault (.noSuchUnit "target") else .next (s.idleExpired target)

/-! ### Release (R318) -/

/-- The release of a frame pauses: it is not whole yet (R317), its slice is not in service, too few free cells, its queue at the dynamic threshold, or its
VOQ in spill with no room (R318, R325). -/
def State.releasePaused (s : State) (pk : Pkt) (p : Nat) : Bool :=
  if pk.whole = false ∨ (s.sliceSt pk.slice).state ≠ .active then true
  else if s.inSpill pk p then s.spillFull pk p
  else decide (s.unreserved < pk.nCells) || decide (s.dynThr128 pk.tc ≤ 128 * (s.queue (queueKey p pk.tc pk.slot)).shared)

/-- A released frame enters its VOQ: charged to its queue only, behind the spilled frames of its VOQ if there are any. -/
def State.releaseTo (s : State) (pk : Pkt) (p : Nat) : State :=
  let pk' := { pk with parked := none, shared := pk.nCells }
  if s.inSpill pk p then (s.updPkt pk.id (fun x => { x with parked := none })).spillIn { pk with parked := none } p
  else (((s.updPkt pk.id (fun x => { x with parked := none, shared := pk.nCells })).takeCells pk').enqueuePkt pk.id).xoffSweep

/-- The head of a draining target's park queue is released. -/
def State.drainOne (s : State) (idx : Nat) : State :=
  match (s.target idx).state, (s.target idx).parkQ with
  | .draining, id :: rest =>
    let pk := s.pkt id
    let p := pk.dests.headD 0
    if s.releasePaused pk p then s
    else
      let t := ((s.unpark idx pk).bumpProof 2 1).releaseTo pk p
      if rest.isEmpty then t.queueEmptied idx else t
  | _, _ => s

def execParkDrainRelease (target : Nat) (s : State) : Host.Outcome State Fault Refusal :=
  if 65536 ≤ target then .fault (.noSuchUnit "target") else .next (s.drainOne target)

/-! ### Frames of the bus (R328, R331) -/

/-- A Shelf Link frame to a drop: preamble, address, type, length, payload, CRC-16. -/
def shelfFrame (drop type : Nat) (p : List Byte) : List Byte :=
  let body := be 1 (1 + drop) ++ be 1 type ++ be 1 p.length ++ p
  [0x55, 0xD5] ++ body ++ be 2 (crc16 body).toNat

/-- The reply that a frame type takes. -/
def shelfReply (type : Nat) : Nat := if type = 1 then 0x81 else if type = 4 then 0x84 else 0x82

/-- Send a frame to a drop and await its reply. Its pins move with the frame and stand idle
again at its end (R326, R330; log entry 105). -/
def State.sendShelf (s : State) (bus drop type : Nat) (p : List Byte) : State :=
  (s.updBus bus (fun b => { b with await := some (drop, shelfReply type) })).emit (.shelf bus (shelfFrame drop type p))

/-! ### Poll cycles (R319, R333) -/

/-- The drops that get a slot in a cycle: the present ones in drop order, and the absent ones every 16th cycle. -/
def State.cycleDrops (s : State) (bus : Nat) : List Nat :=
  (List.range 32).filter (fun d => (s.drop bus d).enabled && ((s.drop bus d).present || (s.bus bus).cycle % 16 == 0))

/-- A wake still queued at the end of the cycle in which it was queued is deferred. -/
def State.endCycle (s : State) (bus : Nat) : State :=
  (List.range 32).foldl (fun t d =>
    (t.bumpProof 10 (t.drop bus d).wakeNew.length).updDrop bus d (fun x => { x with wakeNew := [] })) s

/-- POLL_CYCLE_START: unless the bus is disabled or the last cycle's slots have not finished. -/
def State.pollCycle (s : State) (bus : Nat) : State :=
  let b := s.bus bus
  if b.enable ∧ b.slots.isEmpty ∧ b.await.isNone then
    (s.endCycle bus).updBus bus (fun b => { b with slots := s.cycleDrops bus, cycle := b.cycle + 1 })
  else s

def execPollCycleStart (bus : Nat) (s : State) : Host.Outcome State Fault Refusal :=
  if 4 ≤ bus then .fault (.noSuchUnit "Shelf Link bus") else .next (s.pollCycle bus)

/-- The POLL payload: sequence, known change count, FORCE_PAGE (R331, R332). -/
def Drop.poll (d : Drop) : List Byte :=
  be 2 d.pollSeq ++ be 2 d.known ++ be 1 (b2n (d.force || (d.polls + 1) % 1000 == 0)) ++ be 1 0

/-- The next drop's slot begins with a POLL. -/
def State.pollNext (s : State) (bus : Nat) : State :=
  let b := s.bus bus
  match b.enable, b.slots, b.await with
  | true, d :: rest, none =>
    let t := ((s.updBus bus (fun b => { b with slots := rest })).sendShelf bus d 1 (s.drop bus d).poll).bumpProof 17 1
    t.updDrop bus d (fun x =>
      { x with pollSeq := (x.pollSeq + 1) % 65536, polls := (x.polls + 1) % 1000, force := false })
  | _, _, _ => s

def execPollSlot (bus : Nat) (s : State) : Host.Outcome State Fault Refusal :=
  if 4 ≤ bus then .fault (.noSuchUnit "Shelf Link bus") else .next (s.pollNext bus)

/-! ### Missed exchanges (R334, R335) -/

/-- The awaited exchange is missed; the third in a row makes a drop absent. -/
def State.missed (s : State) (bus : Nat) (badCrc : Bool) : State :=
  match (s.bus bus).await with
  | none => s
  | some (d, _) =>
    let x := s.drop bus d
    let t := ((s.updBus bus (fun b => { b with await := none })).bumpProof 18 1).bumpProof 19 (b2n badCrc)
    let u := t.updDrop bus d (fun y => { y with misses := min 255 (y.misses + 1), present := y.present && y.misses + 1 < 3 })
    if x.present ∧ 3 ≤ x.misses + 1 then u.raise 0x0B06 sevWarning (le 1 bus ++ le 1 d) else u

def execShelfReplyTimeout (bus : Nat) (s : State) : Host.Outcome State Fault Refusal :=
  if 4 ≤ bus then .fault (.noSuchUnit "Shelf Link bus") else .next (s.missed bus false)
def execShelfReplyDiscarded (bus : Nat) (badCrc : Bool) (s : State) : Host.Outcome State Fault Refusal :=
  if 4 ≤ bus then .fault (.noSuchUnit "Shelf Link bus") else .next (s.missed bus badCrc)

/-! ### Battery (R320) -/

/-- A sleeping or waking target of a drop that goes on battery. -/
def State.batteryTarget (s : State) (idx : Nat) : State :=
  let t := s.target idx
  if t.state = .asleep ∨ t.state = .waking then
    let u := (s.dropWake idx).dropParked idx 30 6
    if t.state = .waking then u.setTgt idx .asleep else u
  else s

/-- The valid targets of a drop. -/
def State.dropTargets (s : State) (bus drop : Nat) : List Nat :=
  (s.proof.targets.filter (fun x => x.2.valid && x.2.loc.1 == bus && x.2.loc.2.1 == drop)).map (·.1)

/-- ON_BATTERY is first read from a drop: queued wakes withdrawn, parked frames dropped, its sleeping targets ASLEEP. -/
def State.onBattery (s : State) (bus d : Nat) : State :=
  let t := (s.drop bus d).wakeQ.foldl (fun u i => u.dropWake i) s
  let u := ((s.dropTargets bus d).foldl State.batteryTarget t).updDrop bus d (fun x => { x with battery := true })
  u.raise 0x0B08 sevWarning (le 1 bus ++ le 1 d ++ le 4 (rdBe (s.drop bus d).status 10 2))

/-- ON_BATTERY as a STATUS reports it. -/
def State.readBattery (s : State) (bus d : Nat) (on : Bool) : State :=
  match (s.drop bus d).battery, on with
  | false, true => s.onBattery bus d
  | true, false =>
    (s.updDrop bus d (fun x => { x with battery := false })).raise 0x0B09 sevInfo
      (le 1 bus ++ le 1 d ++ le 4 (rdBe (s.drop bus d).status 10 2))
  | _, _ => s

/-! ### Spindle reports (R315, R332) -/

/-- EMPTY and FAULT as failure causes. -/
def spindleCause (code : Nat) : Nat := if code = 0 then 1 else 2

/-- A SPINNING_UP report wakes an ASLEEP target. -/
def State.reportWaking (s : State) (idx : Nat) : State :=
  ((s.dropWake idx).updTarget idx (fun x => { x with wakeSince := s.upNs })).setTgt idx .waking

/-- A report for a target. -/
def State.spindleReport (s : State) (idx code : Nat) : State :=
  let s := s.updTarget idx (fun x => { x with spindle := code })
  match (s.target idx).state, code with
  | .asleep, 3 => s.tgtReady idx (some 0)
  | .waking, 3 => s.tgtReady idx (some 0)
  | .failed, 3 => ((s.setTgt idx .awake).bumpProof 11 1).raise 0x0B03 sevInfo (le 2 idx ++ le 1 0 ++ le 4 0)
  | .asleep, 2 => s.reportWaking idx
  | .awake, 1 => s.setTgt idx .asleep
  | .awake, 4 => s.setTgt idx .asleep
  | .draining, 1 => s.updTarget idx (fun x => { x with pendSpindle := some code })
  | .draining, 4 => s.updTarget idx (fun x => { x with pendSpindle := some code })
  | .draining, 0 => s.updTarget idx (fun x => { x with pendSpindle := some code })
  | .draining, 5 => s.updTarget idx (fun x => { x with pendSpindle := some code })
  | .awake, 0 => s.tgtFail idx (spindleCause code)
  | .awake, 5 => s.tgtFail idx (spindleCause code)
  | .asleep, 0 => s.tgtFail idx (spindleCause code)
  | .asleep, 5 => s.tgtFail idx (spindleCause code)
  | .waking, 0 => s.tgtFail idx (spindleCause code)
  | .waking, 5 => s.tgtFail idx (spindleCause code)
  | _, _ => s

/-- The spindle code of a slot in a STATUS with a page. -/
def pageCode (st : List Byte) (slot : Nat) : Nat :=
  let b := rd st (16 + slot / 2) 1
  if slot % 2 = 0 then b / 16 else b % 16

/-- The page of a STATUS is applied slot by slot; codes 6 to 15 and slots without a target change nothing. -/
def State.applyPage (s : State) (bus d : Nat) (st : List Byte) : State :=
  (List.range 96).foldl (fun t slot =>
    match t.slotTarget bus d slot with
    | some i => if pageCode st slot ≤ 5 then t.spindleReport i (pageCode st slot) else t
    | none => t) (s.updDrop bus d (fun x => { x with known := rdBe st 2 2 }))

/-! ### Commands to a drop (R319, R331) -/

/-- The WAKING targets whose wake went to a drop. -/
def State.wakingAt (s : State) (bus d : Nat) : List (Nat × Target) :=
  s.proof.targets.filter (fun x => x.2.valid && x.2.state == .waking && x.2.loc.1 == bus && x.2.loc.2.1 == d)

/-- A command still concerns a target: a SPIN_UP one that is WAKING, a SPIN_DOWN one that is ASLEEP. -/
def State.cmdNeeded (s : State) (bus d : Nat) (c : Nat × List Nat) : Bool :=
  if c.1 = 2 then (s.wakingAt bus d).any (fun x => c.2.contains x.2.loc.2.2)
  else c.2.any (fun slot => (s.dropTargets bus d).any (fun i => (s.target i).loc.2.2 == slot && (s.target i).state == .asleep))

/-- SPIN_UP and SPIN_DOWN payload. -/
def cmdPayload (seq : Nat) (slots : List Nat) : List Byte := be 2 seq ++ be 1 slots.length ++ be 1 0 ++ slots.flatMap (be 1)

/-- A new command takes the drop's next sequence number. -/
def State.newCmd (s : State) (bus d type : Nat) (slots : List Nat) : State :=
  let n := ((s.drop bus d).cmdSeq + 1) % 65536
  (s.updDrop bus d (fun x => { x with cmdSeq := n, cmd := some (type, slots) })).sendShelf bus d type (cmdPayload n slots)

/-- The head wakes of a drop that its maximum and power budget admit: `n` WAKING targets, `w` watts, room for `k` more. -/
def State.wakesFit (s : State) (x : Drop) : Nat → Nat → Nat → List Nat → List Nat
  | _, _, _, [] => []
  | n, w, k, i :: rest =>
    let p := (s.target i).power
    match k with
    | 0 => []
    | k' + 1 => if n < x.maxWakes ∧ w + p ≤ x.budget then i :: s.wakesFit x (n + 1) (w + p) k' rest else []

/-- The wakes to issue now. -/
def State.wakesDue (s : State) (bus d : Nat) : List Nat :=
  let l := s.wakingAt bus d
  s.wakesFit (s.drop bus d) l.length ((l.map (fun x => x.2.power)).sum) 60 (s.drop bus d).wakeQ

/-- A wake is issued. -/
def State.issueWake (s : State) (idx : Nat) : State :=
  (((s.dropWake idx).updTarget idx (fun x => { x with wakeSince := s.upNs })).setTgt idx .waking).bumpProof 9 1

/-- One command at most in the slot: IDENTIFY, the outstanding command again, SPIN_DOWN, then SPIN_UP. -/
def State.slotCommand (s : State) (bus d : Nat) (ident : Bool) : State :=
  let x := s.drop bus d
  if ident then (s.updDrop bus d (fun y => { y with identDue := false })).sendShelf bus d 4 []
  else match x.cmd with
    | some c => (s.sendShelf bus d c.1 (cmdPayload x.cmdSeq c.2)).bumpProof 20 1
    | none =>
      if ¬ x.downQ.isEmpty then
        (s.updDrop bus d (fun y => { y with downQ := y.downQ.drop 60 })).newCmd bus d 3 (x.downQ.take 60)
      else if x.battery then s
      else
        let l := s.wakesDue bus d
        if l.isEmpty then s
        else (l.foldl State.issueWake s).newCmd bus d 2 (l.map (fun i => (s.target i).loc.2.2))

/-- An outstanding command that no target needs goes; none is resent on battery as SPIN_UP. -/
def State.pruneCmd (s : State) (bus d : Nat) : State :=
  match (s.drop bus d).cmd with
  | some c =>
    if s.cmdNeeded bus d c ∧ ¬ (c.1 = 2 ∧ (s.drop bus d).battery) then s
    else s.updDrop bus d (fun x => { x with cmd := none })
  | none => s

/-! ### Replies (R332, R335 to R337) -/

/-- A STATUS has the length that its PAGE flag calls for. -/
def statusOk (st : List Byte) : Bool := st.length == (if bit (rdBe st 4 1) 5 then 64 else 16)

/-- A drop becomes present. -/
def State.becomePresent (s : State) (bus d : Nat) : State :=
  if (s.drop bus d).present then s
  else (s.updDrop bus d (fun x => { x with present := true, identDue := true, force := true })).raise 0x0B07 sevInfo
    (le 1 bus ++ le 1 d)

/-- The fields of a STATUS are acted on; the last page received is kept behind it. -/
def State.readStatus (s : State) (bus d : Nat) (st : List Byte) : State :=
  let old := (s.drop bus d).status
  let f := rdBe st 4 1
  let t := s.updDrop bus d (fun x =>
    { x with misses := 0, status := if st.length = 64 then st else st ++ (padTo 64 x.status).drop 16 })
  let u := (t.becomePresent bus d).readBattery bus d (bit f 0)
  let v := if bit f 2 then u.raise 0x0B0A sevWarning (le 1 bus ++ le 1 d) else u
  let w := if bit f 3 ∧ rdBe (padTo 64 old) 7 1 ≠ rdBe st 7 1 then
    v.raise 0x0B0B sevWarning (le 1 bus ++ le 1 d ++ le 1 (rdBe st 7 1)) else v
  if st.length = 64 then w.applyPage bus d st else w

/-- A STATUS arrives. -/
def State.statusReply (s : State) (bus : Nat) (st : List Byte) : State :=
  match (s.bus bus).await with
  | none => s
  | some (d, type) =>
    if type = 0x81 ∧ statusOk st then
      let t := (s.updBus bus (fun b => { b with await := none })).readStatus bus d st
      (t.pruneCmd bus d).slotCommand bus d (s.drop bus d).identDue
    else s.missed bus false

def execShelfStatusReceived (bus : Nat) (payload : List Byte) (s : State) : Host.Outcome State Fault Refusal :=
  if 4 ≤ bus then .fault (.noSuchUnit "Shelf Link bus") else .next (s.statusReply bus payload)

/-- The targets of a command that its drop refused with result 3. -/
def State.cmdTargets (s : State) (bus d : Nat) (c : Nat × List Nat) : List Nat :=
  if c.1 = 2 then ((s.wakingAt bus d).filter (fun x => c.2.contains x.2.loc.2.2)).map (·.1)
  else (s.dropTargets bus d).filter (fun i => c.2.contains (s.target i).loc.2.2)

/-- The result of an ACK for the outstanding command: accepted, busy, refused on battery, bad slot. -/
def State.ackResult (s : State) (bus d : Nat) (c : Nat × List Nat) (result : Nat) : State :=
  match result with
  | 0 => s.updDrop bus d (fun x => { x with cmd := none })
  | 2 => (if (s.drop bus d).battery then s else s.onBattery bus d).pruneCmd bus d
  | 3 => ((s.cmdTargets bus d c).foldl (fun t i => t.tgtFail i 3) s).updDrop bus d (fun x => { x with cmd := none })
  | _ => s

/-- An ACK arrives. -/
def State.ackReply (s : State) (bus : Nat) (p : List Byte) : State :=
  match (s.bus bus).await with
  | none => s
  | some (d, type) =>
    if type = 0x82 ∧ p.length = 4 then
      let t := (s.updBus bus (fun b => { b with await := none })).updDrop bus d (fun x => { x with misses := 0 })
      match (s.drop bus d).cmd with
      | some c => if rdBe p 0 2 = (s.drop bus d).cmdSeq then t.ackResult bus d c (rdBe p 2 1) else t
      | none => t
    else s.missed bus false

def execShelfAckReceived (bus : Nat) (payload : List Byte) (s : State) : Host.Outcome State Fault Refusal :=
  if 4 ≤ bus then .fault (.noSuchUnit "Shelf Link bus") else .next (s.ackReply bus payload)

/-- An IDENT arrives. -/
def State.identReply (s : State) (bus : Nat) (p : List Byte) : State :=
  match (s.bus bus).await with
  | none => s
  | some (d, type) =>
    if type = 0x84 ∧ p.length = 36 then
      (s.updBus bus (fun b => { b with await := none })).updDrop bus d (fun x => { x with misses := 0, ident := p })
    else s.missed bus false

def execShelfIdentReceived (bus : Nat) (payload : List Byte) (s : State) : Host.Outcome State Fault Refusal :=
  if 4 ≤ bus then .fault (.noSuchUnit "Shelf Link bus") else .next (s.identReply bus payload)

/-! ### Commands (R338) -/

def pclassOf (p : List Byte) : PClass :=
  { notice := rd p 2 2, hold := rd p 4 4, park := rd p 8 4, drain := rd p 12 4, spinup := rd p 16 4, idle := rd p 20 4,
    source := bit (rd p 1 1) 0, fwdFailed := bit (rd p 1 1) 1 }
def checkProofSetClass (p : List Byte) (_ : State) : Option (Nat × Nat) :=
  let c := pclassOf p
  need 0x0B01 (decide (rd p 0 1 ≤ 15) && decide (rd p 1 1 ≤ 3) && decide (10 ≤ c.notice) && decide (c.notice ≤ 60000)
    && decide (c.hold ≤ 60000) && decide (c.park ≤ 65536) && decide (1000000 ≤ c.drain) && decide (c.drain ≤ 1600000000)
    && decide (c.spinup ≤ 60000) && decide (c.idle ≤ 86400) && resv p 24 8)
def applyProofSetClass (p : List Byte) (s : State) : State :=
  { s with proof := { s.proof with classes := Tab.set PClass.init s.proof.classes (rd p 0 1) (pclassOf p) } }
def proofSetClassBody : Body := setCmd 0x0B01 checkProofSetClass applyProofSetClass
def execProofSetClass (r : Req) (s : State) : Host.Outcome State Fault Refusal := mailboxCommand 0x0B01 proofSetClassBody r s

/-- The settings of a record that stays invalid are not tested (R523). -/
def checkProofSetTarget (p : List Byte) (_ : State) : Option (Nat × Nat) :=
  need 0x0B01 (decide (rd p 2 1 ≤ 1) && resv p 7 1 && resv p 10 2 && (rd p 2 1 == 0
    || (decide (rd p 3 1 ≤ 15) && decide (rd p 4 1 ≤ 3) && decide (rd p 5 1 ≤ 31) && decide (rd p 6 1 ≤ 95)
      && decide (rd p 8 2 ≤ 1000))))
/-- A record with the settings of a request. -/
def Target.config (t : Target) (p : List Byte) : Target :=
  { t with cls := rd p 3 1, bus := rd p 4 1, drop := rd p 5 1, slot := rd p 6 1, power := rd p 8 2 }
/-- A record is made valid, or changed while it is: another location waits for the next wake, another class for the park queue
to be empty (R312; log entry 105). -/
def State.validate (s : State) (idx : Nat) (p : List Byte) : State :=
  let c := s.pclass (rd p 3 1)
  s.updTarget idx (fun t =>
    if t.valid then
      { t.config p with invalidate := false, eff := if t.cls ≠ rd p 3 1 ∧ t.parkQ.isEmpty = true then c else t.eff }
    else { Target.init.config p with valid := true, loc := (rd p 4 1, rd p 5 1, rd p 6 1), eff := c, lastSec := s.time.sec,
                                     lastNs := s.time.ns })
/-- A record is made invalid: through DRAINING if frames are parked (R325). -/
def State.devalidate (s : State) (idx : Nat) (p : List Byte) : State :=
  let t := s.target idx
  if t.valid ∧ ¬ t.parkQ.isEmpty then
    (if t.state = .draining then s else s.tgtReady idx none).updTarget idx (fun x => { x with invalidate := true })
  else (s.dropWake idx).updTarget idx (fun _ => { Target.init.config p with lastSec := s.time.sec, lastNs := s.time.ns })
def applyProofSetTarget (p : List Byte) (s : State) : State :=
  if bit (rd p 2 1) 0 then s.validate (rd p 0 2) p else s.devalidate (rd p 0 2) p
/-- A record that stays valid. -/
def Target.stays (t : Target) : Bool := t.valid && !t.invalidate
/-- No other valid record names the location of `t`. -/
def State.locationFree (s : State) (idx : Nat) (t : Target) : Bool :=
  s.proof.targets.all (fun x => x.1 == idx || !x.2.stays || x.2.bus != t.bus || x.2.drop != t.drop || x.2.slot != t.slot)
/-- No two valid records name one location (R308). -/
def State.locationsOk (s : State) : Bool := s.proof.targets.all (fun x => !x.2.stays || s.locationFree x.1 x.2)
def liveProofSetTarget (p : List Byte) (s : State) : Option (Nat × Nat) :=
  firstOf [checkProofSetTarget p s,
    need 0x0B01 (!bit (rd p 2 1) 0 || s.locationFree (rd p 0 2) (Target.init.config p))]
def proofSetTargetBody : Body := setCmd 0x0B02 liveProofSetTarget applyProofSetTarget
def execProofSetTarget (r : Req) (s : State) : Host.Outcome State Fault Refusal := mailboxCommand 0x0B02 proofSetTargetBody r s

/-- The effect of an action of PROOF_SET_STATE; none where the target's state does not allow it. -/
def State.proofAction (s : State) (idx action : Nat) : Option State :=
  let st := (s.target idx).state
  match action with
  | 0 => if st = .awake then some (s.spinDown idx) else none
  | 1 => if st = .asleep then some (s.queueWake idx) else none
  | 2 => if st = .asleep ∨ st = .waking ∨ st = .failed then some (s.tgtReady idx none) else none
  | _ => if st = .awake ∨ st = .failed then some (s.setTgt idx .asleep) else none
def proofSetStateBody : Body := fun r s =>
  if ¬ (s.target (rd r.payload 0 2)).valid ∨ 3 < rd r.payload 2 1 ∨ ¬ resv r.payload 3 1 then errCmd s stBadArg 0x0B01
  else match s.proofAction (rd r.payload 0 2) (rd r.payload 2 1) with
    | some t => okCmd t []
    | none => errCmd s stNotPermitted dNone
def execProofSetState (r : Req) (s : State) : Host.Outcome State Fault Refusal := mailboxCommand 0x0B03 proofSetStateBody r s

/-- PROOF_GET_TARGET response. -/
def State.targetBytes (s : State) (idx : Nat) : List Byte :=
  let t := s.target idx
  le 1 t.state.code ++ le 1 t.spindle ++ le 1 (b2n t.wakeQ + 2 * b2n t.holdOn) ++ le 1 t.cls ++ le 8 (s.parkedBytes idx)
    ++ le 4 t.parkQ.length ++ le 4 (s.holdLeft t) ++ le 8 t.lastSec ++ le 4 t.lastNs ++ le 8 0
def proofGetTargetBody : Body := readCmd (fun r s => Resp.ok (s.targetBytes (rd r.payload 0 2)))
def execProofGetTarget (r : Req) (s : State) : Host.Outcome State Fault Refusal := mailboxCommand 0x0B04 proofGetTargetBody r s

/-- The wake budget of a drop that is not enabled is not tested (R523). -/
def checkShelfSet (p : List Byte) (_ : State) : Option (Nat × Nat) :=
  need 0x0B01 (decide (rd p 0 1 ≤ 3) && decide (rd p 1 1 ≤ 31) && decide (rd p 2 1 ≤ 1) && resv p 6 2
    && (rd p 2 1 == 0 || (decide (rd p 3 1 ≤ 96) && decide (rd p 4 2 ≤ 10000))))
def applyShelfSet (p : List Byte) (s : State) : State :=
  s.updDrop (rd p 0 1) (rd p 1 1) (fun d => { d with enabled := bit (rd p 2 1) 0, maxWakes := rd p 3 1, budget := rd p 4 2 })
def shelfSetBody : Body := setCmd 0x0B05 checkShelfSet applyShelfSet
def execShelfSet (r : Req) (s : State) : Host.Outcome State Fault Refusal := mailboxCommand 0x0B05 shelfSetBody r s

/-- SHELF_GET response. -/
def State.shelfBytes (s : State) (bus d : Nat) : List Byte :=
  let x := s.drop bus d
  let l := s.wakingAt bus d
  le 1 (b2n x.present) ++ le 1 x.misses ++ le 2 0 ++ le 2 l.length ++ le 2 ((l.map (fun y => y.2.power)).sum)
    ++ le 4 x.wakeQ.length ++ padTo 64 x.status ++ padTo 36 x.ident
def shelfGetBody : Body := readCmd (fun r s =>
  if rd r.payload 0 1 ≤ 3 ∧ rd r.payload 1 1 ≤ 31 then Resp.ok (s.shelfBytes (rd r.payload 0 1) (rd r.payload 1 1))
  else Resp.err stBadArg 0x0B01)
def execShelfGet (r : Req) (s : State) : Host.Outcome State Fault Refusal := mailboxCommand 0x0B06 shelfGetBody r s

/-- The period of a bus that is disabled is unused and untested (R523). -/
def checkShelfSetBus (p : List Byte) (_ : State) : Option (Nat × Nat) :=
  need 0x0B01 (decide (rd p 0 1 ≤ 3) && decide (rd p 1 1 ≤ 1) && resv p 2 2
    && (rd p 1 1 == 0 || (decide (1000 ≤ rd p 4 4) && decide (rd p 4 4 ≤ 100000))))
/-- A disabled bus stops in its cycle. -/
def applyShelfSetBus (p : List Byte) (s : State) : State :=
  s.updBus (rd p 0 1) (fun b =>
    if bit (rd p 1 1) 0 then { b with enable := true, period := rd p 4 4 }
    else { b with enable := false, period := rd p 4 4, slots := [], await := none })
def shelfSetBusBody : Body := setCmd 0x0B07 checkShelfSetBus applyShelfSetBus
def execShelfSetBus (r : Req) (s : State) : Host.Outcome State Fault Refusal := mailboxCommand 0x0B07 shelfSetBusBody r s

def proofGetCountersBody : Body := readCmd (fun _ s => Resp.ok (ctrBytes s.proof.ctr 0 21))
def execProofGetCounters (r : Req) (s : State) : Host.Outcome State Fault Refusal :=
  mailboxCommand 0x0B08 proofGetCountersBody r s

end Sys2Proof.Machine
end

