-- ==== Sys2Proof/Machine/Droop.lean ====
section
/-! DEFINITION. Droop and the clock stretcher, the thermal thresholds, HBM wear and the life record (R480 to R485, R498 to
R503). -/

namespace Sys2Proof.Machine

/-! ### Droop (R480 to R483) -/

/-- ECLK divider of a cluster: the slower of the thermal trip's 4 and the stretch's 3 (R485). -/
def eclkFor (trip stretched : Bool) : Nat := if trip then 4 else if stretched then 3 else 2

/-- ECLK of cluster `n` follows the thermal trip and its slice's stretch. -/
def State.setEclk (s : State) (n : Nat) : State :=
  s.updCluster n (fun c => { c with eclkDiv := eclkFor s.pwr.trip (s.sliceSt n).eStretched })

/-- DROOP_TRIP: a stretch is entered, or the hold of the one in force begins again; a parked slice has no active detectors
(R482). -/
def State.droopTrip (s : State) (n : Nat) : State :=
  let x := s.sliceSt n
  if x.state = .parked then s
  else if x.stretched then
    (s.updSlice n (fun y => { y with eStretched := true, holdTick := s.up })).setEclk n
  else ((s.updSlice n (fun y =>
    { y with stretched := true, eStretched := true, stretchAt := s.upNs, holdTick := s.up })).setEclk n).bumpPwrAt n 0 1

/-- The hold of a clock in ticks of 1.25 ns: 256 cycles of the stretched ECLK, 160 ns, and of the stretched CCLK, 213.33 ns. -/
def eclkHold : Nat := 128
def cclkHold : Nat := 171

/-- The stretches that ended within the second before `now`. -/
def SliceSt.lately (x : SliceSt) (now : Nat) : List (Nat × Nat) := x.recent.filter (fun e => decide (now < e.2 + 1000000000))

/-- Of those, how many began within the second, and the ns of them that lie in it. -/
def SliceSt.entriesIn (x : SliceSt) (now : Nat) : Nat :=
  ((x.lately now).filter (fun e => decide (now < e.1 + 1000000000))).length
def SliceSt.nsIn (x : SliceSt) (now : Nat) : Nat := ((x.lately now).map (fun e => e.2 - max e.1 (now - 1000000000))).sum

/-- DROOP_STRETCH, at most once a second for a slice: the entries and the ns of the last second (R483). -/
def State.droopReport (s : State) (n : Nat) : State :=
  let x := s.sliceSt n
  let k := 2 ^ 24 * 0x1102 + n
  let last := Tab.get 0 s.tel.rate k
  if last = 0 ∨ last - 1 + 1000000000 ≤ s.upNs then
    let t := s.raise 0x1102 sevInfo (le 1 n ++ le 4 (x.entriesIn s.upNs) ++ le 4 (x.nsIn s.upNs))
    { t with tel := { t.tel with rate := Tab.set 0 t.tel.rate k (s.upNs + 1) } }
  else s

/-- Where a stretch of slice `n` is in force it ends: STRETCHED_NS counts its length. -/
def State.closeStretch (s : State) (n : Nat) : State :=
  let x := s.sliceSt n
  if x.stretched then
    ((s.updSlice n (fun y => { y with stretched := false, eStretched := false,
                                      recent := y.lately s.upNs ++ [(y.stretchAt, s.upNs)] })).setEclk n).bumpPwrAt n 1
      (s.upNs - x.stretchAt)
  else s

/-- STRETCH_HOLD_END: where all four detectors read above the threshold plus the hysteresis, each of the two clocks whose hold
has elapsed since the last trip returns to its divider. -/
def State.stretchEnd (s : State) (n : Nat) (recovered : Bool) : State :=
  let x := s.sliceSt n
  if !x.stretched || !recovered then s
  else if x.holdTick + cclkHold ≤ s.up then (s.closeStretch n).droopReport n
  else if x.holdTick + eclkHold ≤ s.up then (s.updSlice n (fun y => { y with eStretched := false })).setEclk n
  else s

def execDroopTrip (slice : Nat) (s : State) : Host.Outcome State Fault Refusal :=
  if 16 ≤ slice then .fault (.noSuchUnit "slice") else .next (s.droopTrip slice)
def execStretchHoldEnd (slice : Nat) (recovered : Bool) (s : State) : Host.Outcome State Fault Refusal :=
  if 16 ≤ slice then .fault (.noSuchUnit "slice") else .next (s.stretchEnd slice recovered)

def checkPwrSetDroop (p : List Byte) (_ : State) : Option (Nat × Nat) :=
  need 0x1101 (decide (650 ≤ rd p 2 2) && decide (rd p 2 2 ≤ 740) && rd p 2 2 % 5 == 0 && decide (5 ≤ rd p 4 2)
    && decide (rd p 4 2 ≤ 30) && resv p 6 2)
def applyPwrSetDroop (p : List Byte) (s : State) : State :=
  (bitList 16 (rd p 0 2)).foldl (fun t n => t.updSlice n (fun x => { x with droopMv := rd p 2 2, hystMv := rd p 4 2 })) s
def pwrSetDroopBody : Body := setCmd 0x1102 checkPwrSetDroop applyPwrSetDroop

/-! ### Temperature (R484, R485) -/

/-- The trip threshold in 1/16 °C: 105 °C. -/
def tripAt : Int := 1680

/-- The emergency threshold: 115 °C. -/
def emergencyAt : Int := 1840

/-- A sensor's reading, where it lies between −50 °C and 150 °C; else the sensor is excluded. A sensor that fails its
self-check is given as a reading out of that range. -/
def validReading (i : Int) : Option Int := if i < -800 ∨ 2400 < i then none else some i

/-- The four readings of slice `n` in a sample of 64. -/
def sliceReadings (l : List Int) (n : Nat) : List (Option Int) :=
  (List.range 4).map (fun k => match l[4 * n + k]? with
    | some i => validReading i
    | none => none)

/-- The larger of two readings with the slices they come from; the earlier one on a tie. -/
def hotter (a b : Nat × Int) : Nat × Int := if a.2 < b.2 then b else a

/-- What slice `n` counts as: its hottest valid reading; the trip threshold with all four sensors excluded. -/
def sliceHeat (n : Nat) (l : List (Option Int)) : Nat × Int :=
  match l.filterMap id with
  | [] => (n, tripAt)
  | i :: r => (n, r.foldl max i)

/-- The hottest slice of a sample and its reading. -/
def hottestOf (l : List Int) : Nat × Int :=
  (List.range 16).foldl (fun a n => hotter a (sliceHeat n (sliceReadings l n))) (sliceHeat 0 (sliceReadings l 0))

/-- Sensor `k` of slice `n` takes its reading; SENSOR_FAULT when it becomes excluded. -/
def State.sense (s : State) (n k : Nat) (v : Option Int) : State :=
  (s.updSlice n (fun x => { x with sensors := setAt x.sensors k v })).raiseIf
    (v.isNone && ((s.sliceSt n).sensors.getD k none).isSome) 0x1106 sevWarning (le 1 n ++ le 1 k)

/-- The arguments of a thermal event: slice, reading. -/
def heatArgs (h : Nat × Int) : List Byte := le 1 h.1 ++ le 2 (unsigned 16 h.2)

/-- The warning threshold is reached. -/
def State.warnStep (s : State) (h : Nat × Int) : State :=
  if !s.pwr.warn && decide ((16 * s.pwr.warnC : Int) ≤ h.2) then
    (({ s with pwr := { s.pwr with warn := true } }).bumpPwr 2 1).raise 0x1103 sevWarning (heatArgs h)
  else s

/-- ECLK of every cluster follows the trip. -/
def State.setEclks (s : State) : State := (List.range 16).foldl (fun t n => t.setEclk n) s

/-- The trip threshold is reached: every ECLK at divider 4. -/
def State.tripStep (s : State) (h : Nat × Int) : State :=
  if !s.pwr.trip && decide (tripAt ≤ h.2) then
    ((({ s with pwr := { s.pwr with trip := true } }).setEclks).bumpPwr 3 1).raise 0x1104 sevWarning (heatArgs h)
  else s

/-- A sample of the 64 sensors, below the emergency threshold. -/
def State.thermal (s : State) (l : List Int) : State :=
  let h := hottestOf l
  let t := (List.range 16).foldl (fun t n =>
    (List.range 4).foldl (fun t k => t.sense n k ((sliceReadings l n).getD k none)) t) s
  let u := { t with pwr := { t.pwr with hottest := h.2 } }
  let v := (u.warnStep h).tripStep h
  v.bumpPwr 4 (b2n v.pwr.trip)

/-- THERMAL_CLEAR: code 1 the warning, 2 the trip, and the hottest reading. -/
def State.thermalClear (s : State) (code : Nat) : State :=
  s.raise 0x1105 sevInfo (le 1 code ++ le 2 (unsigned 16 s.pwr.hottest))

/-- THERMAL_CLEAR_TIMER: 1 s below the clear level of the trip or of the warning (R485). -/
def execThermalClearTimer (trip : Bool) (s : State) : Host.Outcome State Fault Refusal :=
  .next (if trip then
      if s.pwr.trip && decide (s.pwr.hottest < 1632) then
        (({ s with pwr := { s.pwr with trip := false } }).setEclks).thermalClear 2
      else s
    else if s.pwr.warn && decide (s.pwr.hottest < 16 * s.pwr.warnC - 48) then
      ({ s with pwr := { s.pwr with warn := false } }).thermalClear 1
    else s)

def checkPwrSetThermal (p : List Byte) (_ : State) : Option (Nat × Nat) :=
  need 0x1101 (decide (80 ≤ rd p 0 1) && decide (rd p 0 1 ≤ 104) && resv p 1 3)
def applyPwrSetThermal (p : List Byte) (s : State) : State := { s with pwr := { s.pwr with warnC := rd p 0 1 } }
def pwrSetThermalBody : Body := setCmd 0x1103 checkPwrSetThermal applyPwrSetThermal

/-! ### The life record (R501) -/

/-- Weight of an hour whose hottest average was `t` sixteenths of a degree. -/
def hourWeight (t : Int) : Nat := if t ≤ 1520 then 1 else if t ≤ 1600 then 2 else if t ≤ 1680 then 4 else 8

/-- LIFE_HOUR_TICK: `avg` is the hottest average reading over the hour, in 1/16 °C. -/
def execLifeHourTick (avg : Int) (s : State) : Host.Outcome State Fault Refusal :=
  .next { s with pwr := { s.pwr with lifeW := s.pwr.lifeW + hourWeight avg, hours := (s.pwr.hours + 1) % 2 ^ 32,
                                     hotAtRecord := s.pwr.hottest } }

/-- Life consumed in per mille: weighted hours over 105,192 h. -/
def PwrSt.lifePermille (w : PwrSt) : Nat := min 65535 (1000 * w.lifeW / 105192)

/-! ### HBM errors (R500) -/

/-- The spare pseudo-channel of a stack is engaged for pseudo-channel `pc`: its copy begins. -/
def State.spareCopy (s : State) (k pc : Nat) : State :=
  if (s.stack k).spare = 0 ∧ (s.stack k).copying = none then s.updStack k (fun x => { x with copying := some pc }) else s

/-- The spare of a stack that is in use for pseudo-channel `pc` fails: it enters the repair record too (R499). -/
def State.loseSparePc (s : State) (k pc : Nat) : State :=
  if (s.stack k).spare = 1 ∧ (pc = 32 ∨ s.pwr.repairLog.contains (4, 33 * k + pc)) then
    (s.updStack k (fun x => { x with spare := 2 })).repairAdd 7 k
  else s

/-- An uncorrectable error in a pseudo-channel that the spare cannot replace: it has failed with no standby (R268, R499). -/
def State.unspare (s : State) (k pc : Nat) : State :=
  let x := s.stack k
  if (x.spare = 0 ∧ x.copying = none) ∨ x.copying = some pc then s
  else (((s.loseSparePc k pc).updStack k (fun y => { y with unspared := true })).repairAdd 4 (33 * k + pc)).healthIf (!x.unspared)

/-- The idle spare fails its pattern test (R260). -/
def State.spareFails (s : State) (k : Nat) : State :=
  ((s.updStack k (fun x => { x with spare := 2 })).repairAdd 7 k).healthChanged

/-- Row repairs, pending or done, of a pseudo-channel. -/
def State.rowRepairs (s : State) (k pc : Nat) : Nat :=
  (s.pwr.repairLog.filter (fun u => u.1 == 5 && u.2 / 65536 == 32 * k + pc)).length

/-- A row is retired; more than 16 rows pending, or no repair resource left, engages the spare. -/
def State.retireRow (s : State) (k pc row : Nat) : State :=
  let used := decide (Config.rowRepairs ≤ s.rowRepairs k pc)
  let t := (((s.updStack k (fun x => { x with pending := x.pending ++ [(pc, row)] })).repairAdd 5
    (65536 * (32 * k + pc) + row)).bumpPwr 9 1).raise 0x110D sevCorrectable (le 1 k ++ le 1 pc ++ le 2 row)
  if 16 < ((t.stack k).pending.filter (fun e => e.1 == pc)).length ∨ used = true then t.spareCopy k pc else t

/-- HBM_CORRECTABLE_ERROR: the error is logged; the third of a row within 24 h retires it. -/
def State.hbmCorrectable (s : State) (k pc row : Nat) : State :=
  let now := s.upNs / 1000000000
  let t := (s.updStack k (fun x =>
    { x with errors := x.errors.filter (fun e => decide (now ≤ e.2.2 + 86400)) ++ [(pc, row, now)],
             correctable := (x.correctable + 1) % 2 ^ 64 })).bumpPwr 8 1
  if 3 ≤ ((t.stack k).errors.filter (fun e => e.1 == pc && e.2.1 == row)).length
      ∧ !(t.stack k).pending.contains (pc, row) then t.retireRow k pc row else t

/-- A parked or spilled frame whose bytes are lost is dropped, with no drop reason. -/
def State.poisonDrop (s : State) (id : Nat) : State :=
  match Tab.find s.pkts id with
  | none => s
  | some pk =>
    match pk.parked with
    | some idx => ((s.leavePark idx pk).forget pk).bumpPwr 11 1
    | none =>
      if pk.spilled then
        (((s.pull pk).readEnd pk.slice (voqNo (pk.dests.headD 0) pk.tc pk.slot)).release id).bumpPwr 11 1
      else s

/-- What an uncorrectable read does to the block that reads: region 0 park and 1 spill hold packet `item`; in the others a DMA
channel reads; a shadow entry is rewritten from the live state. -/
def State.poison (s : State) (region item : Nat) : State :=
  if region ≤ 1 then s.poisonDrop item
  else if region = 3 then s
  else s.transferDone item 1 []

/-- HBM_UNCORRECTABLE_READ. -/
def State.hbmUncorrectable (s : State) (k pc region item : Nat) : State :=
  ((((s.bumpPwr 10 1).poison region item).raise 0x110F sevUncorrectable (le 1 k ++ le 1 pc ++ le 1 region)).unspare k pc).spareCopy
    k pc

/-- HBM_PC_SPARE_DONE: the stack switches to its spare, which the repair record keeps (R499). -/
def State.spareDone (s : State) (k : Nat) : State :=
  match (s.stack k).copying with
  | none => s
  | some pc =>
    (((s.updStack k (fun x => { x with copying := none, spare := 1 })).repairAdd 4 (33 * k + pc)).raise 0x110E sevCorrectable
      (le 1 k ++ le 1 pc)).healthChanged

/-- Rows about a pseudo-channel of a stack. -/
def onStack (k pc : Nat) (t : State) : Host.Outcome State Fault Refusal :=
  if 4 ≤ k then .fault (.noSuchUnit "HBM stack")
  else if 32 ≤ pc then .fault (.noSuchUnit "pseudo-channel")
  else .next t

def execHbmCorrectableError (stack pc row : Nat) (s : State) : Host.Outcome State Fault Refusal :=
  onStack stack pc (s.hbmCorrectable stack pc row)
/-- HBM_UNCORRECTABLE_READ: number 32 is the spare, which only its pattern test reads while it is idle (log entry 103). -/
def execHbmUncorrectableRead (stack pc region item : Nat) (s : State) : Host.Outcome State Fault Refusal :=
  onStack stack (pc - 1) (if pc = 32 ∧ (s.stack stack).spare = 0 ∧ (s.stack stack).copying = none then s.spareFails stack
    else s.hbmUncorrectable stack pc region item)
def execHbmPcSpareDone (stack : Nat) (s : State) : Host.Outcome State Fault Refusal := onStack stack 0 (s.spareDone stack)

/-! ### Reads (R502, R503) -/

/-- Code of a slice's state. -/
def SliceState.code : SliceState → Nat
  | .active => 0
  | .parked => 1
  | .resetting => 2
  | .restoring => 3

/-- A sensor reading as PWR_GET_STATUS gives it. -/
def sensorWord : Option Int → Nat
  | some i => unsigned 16 i
  | none => 0x8000

/-- 12 bytes of a slice. -/
def SliceSt.status (x : SliceSt) (trip : Bool) : List Byte :=
  le 1 x.state.code ++ le 1 (b2n x.stretched + 2 * b2n x.eStretched + 4 * b2n trip
      + 8 * b2n ((List.range 4).any (fun k => x.sensors.getD k (some 0) == none))) ++ le 2 0
    ++ (List.range 4).flatMap (fun k => le 2 (sensorWord (x.sensors.getD k (some 0))))

/-- 0 normal, 1 warning, 2 trip. -/
def PwrSt.thermalCode (w : PwrSt) : Nat := if w.trip then 2 else if w.warn then 1 else 0

def pwrGetStatusBody : Body := readCmd (fun _ s =>
  Resp.ok ((List.range 16).flatMap (fun n => (s.sliceSt n).status s.pwr.trip) ++ le 2 (unsigned 16 s.pwr.hottest)
    ++ le 1 s.pwr.thermalCode ++ le 1 s.pwr.lastCause ++ le 4 s.pwr.hours ++ le 2 s.pwr.lifePermille ++ le 1 s.pwr.warnC
    ++ le 13 0))

/-- Slice-nanoseconds of the stretches in force. -/
def State.stretchingNs (s : State) : Nat :=
  ((List.range 16).map (fun n => if (s.sliceSt n).stretched then s.upNs - (s.sliceSt n).stretchAt else 0)).sum

/-- STRETCHED_NS counts the stretches in force up to the read (R483). -/
def pwrGetCountersBody : Body := readCmd (fun _ s => Resp.ok (ctrBytes (Tab.bump s.tel.pwrCtr 1 s.stretchingNs) 0 12))

def execPwrGetStatus (r : Req) (s : State) : Host.Outcome State Fault Refusal := mailboxCommand 0x1101 pwrGetStatusBody r s
def execPwrSetDroop (r : Req) (s : State) : Host.Outcome State Fault Refusal := mailboxCommand 0x1102 pwrSetDroopBody r s
def execPwrSetThermal (r : Req) (s : State) : Host.Outcome State Fault Refusal := mailboxCommand 0x1103 pwrSetThermalBody r s
def execPwrGetCounters (r : Req) (s : State) : Host.Outcome State Fault Refusal := mailboxCommand 0x1107 pwrGetCountersBody r s

end Sys2Proof.Machine
end

