-- ==== Sys2Proof/Machine/Fabric.lean ====
section
/-! DEFINITION. The cell fabric: requests, grants and credit, cells on the links with their retries, gap timeouts, release
credits, planes, and the fabric commands (R161 to R184). -/

namespace Sys2Proof.Machine

/-- A VOQ of an ingress slice. -/
def voqExists (sl v : Nat) : Bool := decide (sl < 16) && decide (v < 32800)

/-- A row about a VOQ. -/
def onVoq (sl v : Nat) (t : State) : Host.Outcome State Fault Refusal :=
  if voqExists sl v then .next t else .fault (.noSuchUnit "VOQ")

/-! ### Requests and credit (R163, R164, R166) -/

/-- A request carries every byte not yet requested to the egress slice. -/
def Voq.request (q : Voq) : Voq := { q with reqAtEgress := q.reqAtEgress + q.unreq, unreq := 0, fresh := false }

/-- VOQ_REQUEST: sent when a VOQ goes from empty to non-empty, and when its unrequested bytes reach a quantum. -/
def execVoqRequest (slice voq : Nat) (s : State) : Host.Outcome State Fault Refusal :=
  onVoq slice voq (if (s.voq slice voq).fresh || decide (s.quantum voq ≤ (s.voq slice voq).unreq) then
    s.updVoq slice voq Voq.request else s)

/-- The cumulative grant count adds to the balance what has not been received yet. -/
def Voq.takeGrant (q : Voq) : Voq :=
  { q with credit := q.credit + ((q.granted + 2 ^ 32 - q.received) % 2 ^ 32 : Nat), received := q.granted }

/-- A VOQ holds standing credit. -/
def Voq.stands (q : Voq) : Bool := q.q.isEmpty && decide (0 < q.credit)

/-- GRANT_RECEIVED: frames start while the balance is above 0. -/
def execGrantReceived (slice voq : Nat) (s : State) : Host.Outcome State Fault Refusal :=
  let t := s.updVoq slice voq Voq.takeGrant
  onVoq slice voq (if (t.voq slice voq).q.isEmpty then
      (if (s.voq slice voq).stands then t.returnCredit slice voq (t.quantum voq) else t.standBy slice voq)
    else t.startFrames slice voq)

/-- An empty VOQ gives back its standing credit. -/
def State.giveStanding (s : State) (sl v : Nat) : State :=
  if (s.voq sl v).q.isEmpty then s.returnCredit sl v 0 else s

/-- STANDING_CREDIT_TIMEOUT: standing credit unused for 10 us is returned. -/
def execStandingCreditTimeout (slice voq : Nat) (s : State) : Host.Outcome State Fault Refusal :=
  onVoq slice voq (s.giveStanding slice voq)

/-- VOQs of a port and class, by key. -/
def State.voqsOf (s : State) (p c : Nat) : Tab Voq :=
  s.fab.voqs.filter (fun e => voqPort (e.1 % 32800) == p && voqClass (e.1 % 32800) == c)

/-- The egress recalls the standing credit of this VOQ: the credit window is full, another VOQ of the port and class requests,
and no other has held standing credit for longer (R166). -/
def State.recalls (s : State) (sl v : Nat) : Bool :=
  let p := voqPort v
  let c := voqClass v
  let l := (s.voqsOf p c).filter (fun e => e.1 != spillKey sl v)
  (s.voq sl v).stands && decide ((s.fabPort p c).window < (s.fabPort p c).outstanding + (s.fabPort p c).quantum)
    && l.any (fun e => decide (0 < e.2.reqAtEgress)) && l.all (fun e => !e.2.stands || decide ((s.voq sl v).heldAt ≤ e.2.heldAt))

/-- CREDIT_RECALL: the holder returns standing credit, unless it has started a frame against it. -/
def execCreditRecall (slice voq : Nat) (s : State) : Host.Outcome State Fault Refusal :=
  onVoq slice voq (if s.recalls slice voq then s.giveStanding slice voq else s)

/-- CREDIT_RETURN_RECEIVED: returned credit is outstanding no more. -/
def execCreditReturnReceived (slice voq : Nat) (s : State) : Host.Outcome State Fault Refusal :=
  onVoq slice voq ((s.matchCredit (voqPort voq) (voqClass voq) (s.voq slice voq).returning).updVoq slice voq (fun q =>
    { q with returning := 0 }))

/-! ### Cells (R170 to R173) -/

/-- Destinations in the order of the round robin of a source slice (log entry 12). -/
def State.dstOrder (s : State) (sl : Nat) : List Nat := (List.range 16).map (fun i => (Tab.get 0 s.fab.rrDst sl + i) % 16)

/-- A pair has a cell that its window holds back. -/
def State.stalled (s : State) (sl d : Nat) : Bool := (s.pairReady sl d).1 && !(s.pairReady sl d).2

/-- One cell leaves a slice, if a pair has one ready and a plane is active. -/
def State.sendNext (s : State) (sl : Nat) : State :=
  match (s.dstOrder sl).find? (fun d => (s.pairReady sl d).1 && (s.pairReady sl d).2), s.pickPlane sl with
  | some d, some pl => { s.sendCell sl d pl with
      fab := { (s.sendCell sl d pl).fab with rrDst := Tab.set 0 (s.sendCell sl d pl).fab.rrDst sl ((d + 1) % 16) } }
  | _, _ => s

/-- CELL_SEND: one CCLK cycle of a source slice. -/
def execCellSend (slice : Nat) (s : State) : Host.Outcome State Fault Refusal :=
  if 16 ≤ slice then .fault (.noSuchUnit "slice")
  else
    let t := s.startMulti slice
    .next ((t.sendNext slice).bumpFabAt slice 4 (b2n ((List.range 16).any (t.stalled slice))))

/-! ### Planes (R180 to R182) -/

/-- Change a plane, with the health report. -/
def State.setPlane (s : State) (p : Nat) (f : Plane → Plane) : State :=
  let a := s.plane p
  (s.updPlane p f).healthIf ((f a).state != a.state || (f a).cause != a.cause)

/-- A plane leaves service. -/
def Plane.fail (p : Plane) (cause : Nat) : Plane :=
  { p with state := .failed, cause, failures := (p.failures + 1) % 2 ^ 32, testLoss := [], giveUps := [], switching := false }

/-- The standby plane, if there is one that is not joining the survivors yet. -/
def State.freeStandby (s : State) : Option Nat :=
  (List.range 5).find? (fun p => (s.plane p).state == .standby && !(s.plane p).switching)

/-- An ACTIVE plane fails: the cells on its links are lost, the standby begins to join the survivors (R181, R182). -/
def State.failPlane (s : State) (p cause : Nat) : State :=
  let spare := s.freeStandby
  let r := match spare with
    | some q => s.updPlane q (fun x => { x with switching := true })
    | none => s
  let t := (r.setPlane p (fun x => x.fail cause)).repairAdd 0 p
  let v := { t with fab := { t.fab with links := t.fab.links.filter (fun l => l.link / 32 != p) } }
  (v.raise 0x0601 (if spare.isSome then sevCorrectable else sevUncorrectable) (le 1 p)).raiseIf
    (decide (v.activePlanes.length ≤ 2)) 0x0604 sevUncorrectable (le 1 p)

/-- PLANE_FAULT: a plane has lost alignment on a link (cause 1) or given up on 4 cells (cause 2). -/
def execPlaneFault (plane cause : Nat) (s : State) : Host.Outcome State Fault Refusal :=
  if 5 ≤ plane then .fault (.noSuchUnit "plane")
  else if cause ≠ 1 ∧ cause ≠ 2 then .fault (.noSuchUnit "plane fault cause")
  else .next (if (s.plane plane).state = .active then s.failPlane plane cause else s)

/-- The standby that joins the survivors becomes ACTIVE. -/
def State.planeJoin (s : State) (p : Nat) : State :=
  ((s.setPlane p (fun x => { x with state := .active, switching := false, testLoss := [] })).bumpFab 13 1).raise 0x0602 sevInfo
    (le 1 p)

/-- PLANE_SWITCHOVER_DONE (R181). -/
def execPlaneSwitchoverDone (s : State) : Host.Outcome State Fault Refusal :=
  .next (match (List.range 5).find? (fun p => (s.plane p).switching) with
    | some p => s.planeJoin p
    | none => s)

/-- STANDBY_TEST_LOSS: a test cell is lost or corrupted; the second within 1 ms takes a STANDBY plane out. -/
def execStandbyTestLoss (plane : Nat) (s : State) : Host.Outcome State Fault Refusal :=
  if 5 ≤ plane then .fault (.noSuchUnit "plane")
  else
    let x := s.plane plane
    let near := x.testLoss.filter (fun t => decide (s.upNs ≤ t + 1000000))
    if x.state = .resync then .next (s.bumpFab 14 1)
    else if x.state ≠ .standby ∨ x.switching then .next s
    else if near.isEmpty then .next ((s.bumpFab 14 1).updPlane plane (fun x => { x with testLoss := [s.upNs] }))
    else .next ((((s.bumpFab 14 1).setPlane plane (fun x => x.fail 3)).repairAdd 0 plane).raise 0x0603 sevWarning (le 1 plane))

/-- The resync command that waits for a plane. -/
def State.planeJob (s : State) (p : Nat) : Option Job :=
  s.mbx.jobs.find? (fun j => j.op == 0x0605 && j.running && rd j.req.payload 0 1 == p)

/-- PLANE_RESYNC_DONE: the self-test of a plane ends; its command completes. -/
def execPlaneResyncDone (plane : Nat) (pass : Bool) (s : State) : Host.Outcome State Fault Refusal :=
  if 5 ≤ plane then .fault (.noSuchUnit "plane")
  else if (s.plane plane).state ≠ .resync then .next s
  else
    let t := if pass then
        (s.setPlane plane (fun x => { x with state := .standby, cause := 0, testLoss := [], giveUps := [] })).repairDel 0 plane
      else s.setPlane plane (fun x => x.fail 3)
    .next (match t.planeJob plane with
      | some j => t.complete j.op j.req (Resp.ok [])
      | none => t)

/-! ### Links (R174) -/

/-- A plane link: 32 * plane + slice toward the plane, 16 more from it. -/
def linkExists (l : Nat) : Bool := decide (l < 160)

/-- Replace the first cell of the links that satisfies a test. -/
def mapFirst (f : LinkCell → Bool) (g : LinkCell → List LinkCell) : List LinkCell → List LinkCell
  | [] => []
  | c :: r => if f c then g c ++ r else c :: mapFirst f g r

/-- Change the cells on the links. -/
def State.mapLinks (s : State) (f : LinkCell → Bool) (g : LinkCell → List LinkCell) : State :=
  { s with fab := { s.fab with links := mapFirst f g s.fab.links } }

/-- CELL_ARRIVED: the oldest cell on its way over a link arrives. A good one goes on from its plane to its egress slice, or
into the resequencer; a bad one is discarded and waits to be resent. -/
def execCellArrived (link : Nat) (crcOk : Bool) (s : State) : Host.Outcome State Fault Refusal :=
  if linkExists link = false then .fault (.noSuchUnit "link")
  else
    let here := fun c : LinkCell => c.link == link && !c.lost
    match s.fab.links.find? here with
    | none => .next s
    | some c =>
      if crcOk = false then .next (s.mapLinks here (fun x => [{ x with lost := true }]))
      else if link % 32 < 16 then
        let k := 32 * (link / 32) + 16 + c.cell.dst
        .next ({ s with fab := s.fab.useNum k }.mapLinks here (fun x =>
          [{ x with link := k, sends := 1, since := s.upNs, num := s.fab.nextNum k, retries := s.fab.params.retries,
                    budgetNs := s.fab.params.budgetNs }]))
      else .next ((s.mapLinks here (fun _ => [])).reseq c.cell)

/-- A link gives up on a cell: the fourth of its plane within 100 us takes the plane out. -/
def State.giveUp (s : State) (link : Nat) : State :=
  let p := link / 32
  let l := s.upNs :: (s.plane p).giveUps.filter (fun t => decide (s.upNs ≤ t + 100000))
  let t := (s.bumpFabAt (link % 16) 7 1).raiseLimited 0x0605 sevWarning link 1000000000 (le 1 link)
  if 4 ≤ l.length ∧ (s.plane p).state = .active then t.failPlane p 2 else t.updPlane p (fun x => { x with giveUps := l })

/-- A cell is resent, or given up when its sends or its budget, as its first send found them set, are used up (R174, R417). -/
def State.resend (s : State) (link : Nat) (f : LinkCell → Bool) : State :=
  match s.fab.links.find? f with
  | none => s
  | some c =>
    if c.sends ≤ c.retries ∧ s.upNs - c.since ≤ c.budgetNs then
      (s.mapLinks f (fun x => [{ x with sends := x.sends + 1, lost := false }])).bumpFabAt (link % 16) 6 1
    else (s.mapLinks f (fun _ => [])).giveUp link

/-- LINK_NAK_RECEIVED: a cell that the receiver discarded. -/
def execLinkNakReceived (link : Nat) (s : State) : Host.Outcome State Fault Refusal :=
  if linkExists link then .next (s.resend link (fun c => c.link == link && c.lost)) else .fault (.noSuchUnit "link")

/-- LINK_ACK_TIMEOUT: the oldest cell of a link that is neither acknowledged nor NAKed. -/
def execLinkAckTimeout (link : Nat) (s : State) : Host.Outcome State Fault Refusal :=
  if linkExists link then .next (s.resend link (fun c => c.link == link)) else .fault (.noSuchUnit "link")

/-! ### Gap timeout (R178) -/

/-- Distinct packets of cells, in order. -/
def cellPackets : List Cell → List Cell
  | [] => []
  | c :: r => c :: (cellPackets r).filter (fun d => d.pkt != c.pkt)

/-- A packet lost in a gap from cell `c` on: the frame in transmission is cut short, a queued one leaves; a drop with reason
RESEQ_TIMEOUT. A copy that began before the gap and that no queue holds has been dropped already. -/
def State.gapDrop (s : State) (dst : Nat) (c : Cell) : State :=
  match Tab.find s.pkts c.pkt with
  | none => s
  | some pk =>
    let hs := s.holders dst c.pkt
    if hs.isEmpty && !c.sop then s else
    let t := s.countDrop pk 25 (if c.multi then 0xFFFF else c.port)
    let u := if hs.isEmpty && !c.multi then t.matchCredit c.port c.tc pk.len else t
    hs.foldl (fun u k =>
      ((u.egq k).filter (fun i => i.pkt == c.pkt && i.src == c.src)).foldl (fun v i =>
        if i.started then
          v.setEgq k ((v.egq k).map (fun j => if j.pkt = i.pkt ∧ j.src = i.src then { j with complete := true, stomp := true } else j))
        else v.egLeave k i) u) u

/-- Stored cells of a pair with their offsets from the expected number, in order. -/
def Pair.waiting (p : Pair) : List (Nat × Cell) :=
  (List.range 256).filterMap (fun o => (Tab.find p.stored ((p.expected + o) % 256)).map (fun c => (o, c)))

/-- The offset that expected moves to, and whether cells without SOP are discarded there. -/
def Pair.skipTo (p : Pair) : Nat × Bool :=
  match p.waiting.find? (fun x => x.2.sop) with
  | some x => (x.1, false)
  | none => match p.waiting.getLast? with
    | some x => (x.1 + 1, true)
    | none => (0, false)

/-- The gap of a pair is resolved (R178 steps 2 to 5). -/
def State.gapSkip (s : State) (src dst : Nat) : State :=
  let p := s.pair src dst
  let k := p.skipTo
  let off := fun c : Cell => (c.seq + 65536 - p.expected) % 65536
  let lost := p.out.filter (fun c => decide (off c < k.1) && !p.done.contains c.seq)
  let t := s.updPair src dst (fun q =>
    { q with
      expected := (p.expected + k.1) % 65536
      stored := q.stored.filter (fun e => decide (k.1 ≤ off e.2))
      skipSop := k.2
      gapOpen := false })
  let u := (cellPackets lost).foldl (fun t c => t.gapDrop dst c) t
  ((u.credit src dst ((List.range k.1).map (fun i => (p.expected + i) % 65536))).reseqRelease src dst 256).reseqGap src dst

/-- A pair of slices. -/
def pairExists (src dst : Nat) : Bool := decide (src < 16) && decide (dst < 16)

/-- GAP_TIMEOUT (R178). -/
def execGapTimeout (src dst : Nat) (s : State) : Host.Outcome State Fault Refusal :=
  if pairExists src dst = false then .fault (.noSuchUnit "pair")
  else if (s.pair src dst).gapOpen then
    .next (((s.bumpFabAt dst 10 1).raiseLimited 0x0606 sevWarning (16 * src + dst) 1000000000 (le 1 src ++ le 1 dst)).gapSkip
      src dst)
  else .next s

/-- RELEASE_CREDIT_RECEIVED (R172): cells are freed, and host ports that waited may take packets again. -/
def execReleaseCreditReceived (src dst : Nat) (s : State) : Host.Outcome State Fault Refusal :=
  if pairExists src dst then .next ((s.takeCredits src dst).hostInAll) else .fault (.noSuchUnit "pair")

/-! ### Commands (R183) -/

def checkFabSetParams (p : List Byte) (_ : State) : Option (Nat × Nat) :=
  firstOf [
    need 0x0601 (decide (1000 ≤ rd p 0 4) && decide (rd p 0 4 ≤ 64000) && rd p 0 4 % 100 == 0 && decide (200 ≤ rd p 4 4)
      && decide (rd p 4 4 ≤ 32000) && rd p 4 4 % 50 == 0 && decide (1 ≤ rd p 8 1) && decide (rd p 8 1 ≤ 3)
      && decide (rd p 9 1 ≤ 50) && decide (rd p 10 1 ≤ 1) && resv p 11 5),
    need 0x0602 (decide (2 * rd p 4 4 ≤ rd p 0 4))]
def applyFabSetParams (p : List Byte) (s : State) : State :=
  let v : FabParams :=
    { gapNs := rd p 0 4, budgetNs := rd p 4 4, retries := rd p 8 1, share := rd p 9 1, express := bit (rd p 10 1) 0 }
  { s with fab := { s.fab with params := v } }
def fabSetParamsBody : Body := setCmd 0x0601 checkFabSetParams applyFabSetParams

def checkFabSetPort (p : List Byte) (s : State) : Option (Nat × Nat) :=
  need 0x0601 ((s.portActive (rd p 0 2) || (decide (512 ≤ rd p 0 2) && decide (rd p 0 2 ≤ 515))) && decide (rd p 3 1 ≤ 1)
    && decide (1024 ≤ rd p 4 4) && decide (rd p 4 4 ≤ 65536) && rd p 4 4 % 256 == 0 && decide (4096 ≤ rd p 8 4)
    && decide (rd p 8 4 ≤ 1048576) && decide (rd p 4 4 ≤ rd p 8 4))
def applyFabSetPort (p : List Byte) (s : State) : State :=
  (bitList 8 (rd p 2 1)).foldl (fun t c => t.updFabPort (rd p 0 2) c (fun f =>
    { f with express := bit (rd p 3 1) 0, quantum := rd p 4 4, window := rd p 8 4 })) s
def fabSetPortBody : Body := setCmd 0x0602 checkFabSetPort applyFabSetPort

/-- Code of a plane state (R183). -/
def PlaneState.code : PlaneState → Nat
  | .active => 0
  | .standby => 1
  | .failed => 2
  | .resync => 3

def fabGetStatusBody : Body := readCmd (fun _ s =>
  Resp.ok ((List.range 5).flatMap (fun k =>
      le 1 (s.plane k).state.code ++ le 1 (s.plane k).cause ++ le 2 0 ++ le 4 (s.plane k).failures)
    ++ le 1 s.activePlanes.length ++ le 3 0 ++ le 4 (s.fab.pairs.filter (fun p => p.2.gapOpen)).length))

def fabGetPairBody : Body := readCmd (fun r s =>
  let p := s.pair (rd r.payload 0 1) (rd r.payload 1 1)
  if pairExists (rd r.payload 0 1) (rd r.payload 1 1) then
    Resp.ok (le 2 p.nextSeq ++ le 2 p.oldest ++ le 2 p.expected ++ le 2 p.out.length ++ le 1 (b2n p.gapOpen) ++ le 3 0
      ++ le 4 (if p.gapOpen then s.upNs - p.gapSince else 0))
  else Resp.err stBadArg 0x0601)

/-- Active planes once a plane has been taken out and the standby has joined. -/
def State.planesAfter (s : State) : Nat :=
  s.activePlanes.length - 1 + (if (List.range 5).any (fun k => (s.plane k).state == .standby) then 1 else 0)

/-- FAB_SET_PLANE: taking an ACTIVE plane out is refused where at most one would be left; a resync needs a FAILED plane and
ends with its self-test. -/
def fabSetPlaneBody : Body := fun r s =>
  let p := rd r.payload 0 1
  let a := rd r.payload 1 1
  if 5 ≤ p ∨ 2 ≤ a ∨ resv r.payload 2 2 = false then errCmd s stBadArg 0x0601
  else if a = 0 then
    if (s.plane p).state ≠ .active then errCmd s stBadArg 0x0601
    else if s.planesAfter ≤ 1 then errCmd s stNotPermitted dNone
    else okCmd (s.failPlane p 4) []
  else if (s.plane p).state ≠ .failed then errCmd s stBadArg 0x0601
  else (s.setPlane p (fun x => { x with state := .resync }), none)

def fabGetCountersBody : Body := readCmd (fun _ s => Resp.ok (ctrBytes s.fab.ctr 0 15))

def execFabSetParams (r : Req) (s : State) : Host.Outcome State Fault Refusal := mailboxCommand 0x0601 fabSetParamsBody r s
def execFabSetPort (r : Req) (s : State) : Host.Outcome State Fault Refusal := mailboxCommand 0x0602 fabSetPortBody r s
def execFabGetStatus (r : Req) (s : State) : Host.Outcome State Fault Refusal := mailboxCommand 0x0603 fabGetStatusBody r s
def execFabGetPair (r : Req) (s : State) : Host.Outcome State Fault Refusal := mailboxCommand 0x0604 fabGetPairBody r s
def execFabSetPlane (r : Req) (s : State) : Host.Outcome State Fault Refusal := mailboxCommand 0x0605 fabSetPlaneBody r s
def execFabGetCounters (r : Req) (s : State) : Host.Outcome State Fault Refusal :=
  mailboxCommand 0x0606 fabGetCountersBody r s

end Sys2Proof.Machine
end

