-- ==== Sys2Proof/Machine/Frer.lean ====
section
/-! DEFINITION. FRER stream records, resets and latent error detection (R247 to R258, R270). -/

namespace Sys2Proof.Machine

/-- The record of a stream in the current generation. -/
def State.frerNow (s : State) (n : Nat) : FrerCfg := (s.fwd.tables s.fwd.gen).frerAt n

/-- The recovery state starts anew: TakeAny, and an empty history (R256). -/
def FrerSt.restart (f : FrerSt) : FrerSt := { f with takeAny := true, hist := 0 }

/-! ### Writing a record (R255, R256) -/

/-- The record of a request. -/
def frerOf (p : List Byte) : FrerCfg :=
  { gen := bit (rd p 2 1) 0, recover := bit (rd p 2 1) 1, strip := bit (rd p 2 1) 2, latent := bit (rd p 2 1) 3,
    members := (List.range (rd p 3 1)).map (fun i => rd p (4 + 2 * i) 2), hist := rd p 8 2, resetMs := rd p 10 2,
    paths := rd p 12 1, diff := rd p 14 2, testMs := rd p 16 2, latentMs := rd p 20 4 }

/-- Bits of the history pool that the records of a generation take. -/
def GenTables.histBits (g : GenTables) : Nat :=
  (g.frer.map (fun e => if e.2.recover then 64 * ceilDiv e.2.hist 64 else 0)).sum

/-- The history pool suffices. -/
def GenTables.histOk (g : GenTables) : Bool := decide (g.histBits ≤ 16777216)

def GenTables.putFrer (p : List Byte) (g : GenTables) : GenTables :=
  { g with frer := Tab.set FrerCfg.init g.frer (rd p 0 2) (frerOf p) }

def checkFrerSetStream (p : List Byte) (s : State) : Option (Nat × Nat) :=
  let c := frerOf p
  firstOf [
    need 0x0901 (decide (rd p 2 1 ≤ 15) && decide (rd p 3 1 ≤ 2) && c.members.all (fun m => decide (m ≤ 511) && s.portActive m)
      && !(c.members.length == 2 && rd p 4 2 == rd p 6 2) && resv p 13 1 && resv p 18 2 && resv p 24 8
      && (!c.recover || decide (1 ≤ c.resetMs))
      && (!c.latent || (decide (2 ≤ c.paths) && decide (c.paths ≤ 8) && decide (100 ≤ c.testMs) && decide (1000 ≤ c.latentMs)
        && decide (c.latentMs ≤ 3600000)))),
    need 0x0902 (!c.recover || (decide (2 ≤ c.hist) && decide (c.hist ≤ 2048)))]

/-- What a write does to the state of its stream, from the old record to the new one. -/
def FrerSt.rewrite (f : FrerSt) (old new : FrerCfg) : FrerSt :=
  let a := if new.recover && !old.recover then { f.restart with timer := true }
    else if new.recover && new.hist != old.hist then f.restart else f
  let b := if new.gen && !old.gen then { a with next := 0 } else a
  if new.latent && !old.latent then { b with latPassed := 0, latDisc := 0 } else b

/-- The same for the stream that a request names. -/
def State.frerRewrite (s : State) (p : List Byte) (old : FrerCfg) : State :=
  s.updStream (rd p 0 2) (fun f => f.rewrite old (frerOf p))

/-- A live write, into both generations. -/
def applyFrerSetStream (p : List Byte) (s : State) : State :=
  (s.liveGen 0x0901 p (GenTables.putFrer p)).frerRewrite p (s.frerNow (rd p 0 2))

/-- A live request is refused with NO_RESOURCE where the pool would not suffice. -/
def liveFrerSetStream (p : List Byte) (s : State) : Option (Nat × Nat) :=
  firstOf [checkFrerSetStream p s,
    if ((s.fwd.tables s.fwd.gen).putFrer p).histOk then none else some (stNoResource, 0x0903)]
def frerSetStreamBody : Body := setCmd 0x0901 liveFrerSetStream applyFrerSetStream

/-! ### Reading and resetting -/

def frerGetStreamBody : Body := readCmd (fun r s =>
  let n := rd r.payload 0 2
  let c := s.frerNow n
  let f := s.stream n
  Resp.ok (le 1 (b2n c.gen + 2 * b2n c.recover + 4 * b2n f.takeAny) ++ le 1 0 ++ le 2 f.recov ++ le 2 f.next ++ le 2 0
    ++ le 2 c.hist ++ le 6 0 ++ ctrBytes s.tel.frerCtr (9 * n) 9))

def checkFrerSetPort (p : List Byte) (s : State) : Option (Nat × Nat) :=
  need 0x0901 (s.portActive (rd p 0 2) && decide (rd p 2 1 ≤ 1) && (rd p 2 1 == 0 || decide (rd p 3 1 ≤ 1)))
def applyFrerSetPort (p : List Byte) (s : State) : State :=
  s.updPort (rd p 0 2) (fun q => { q with frerId := bit (rd p 2 1) 0, frerSrc := bit (rd p 3 1) 0 })
def frerSetPortBody : Body := setCmd 0x0903 checkFrerSetPort applyFrerSetPort

/-- FRER_RESET_STREAM: nothing on a stream with recovery disabled. -/
def frerResetStreamBody : Body := fun r s =>
  let n := rd r.payload 0 2
  if resv r.payload 2 2 = false then errCmd s stBadArg 0x0901
  else if (s.frerNow n).recover then okCmd (s.updStream n FrerSt.restart) []
  else okCmd s []

/-! ### Timers (R254, R258) -/

/-- A row about a stream. -/
def onStream (n : Nat) (t : State) : Host.Outcome State Fault Refusal :=
  if n < 65536 then .next t else .fault (.noSuchUnit "stream")

/-- FRER_RESET_TIMER: fires once for a silence, the one from the start of recovery among them (R254). -/
def execFrerResetTimer (stream : Nat) (s : State) : Host.Outcome State Fault Refusal :=
  onStream stream (if (s.frerNow stream).recover && (s.stream stream).timer then
    (s.updStream stream (fun f => { f.restart with timer := false })).bumpStream stream 7 1 else s)

/-- The latent error difference of a period. -/
def FrerSt.difference (f : FrerSt) (paths : Nat) : Int := (f.latPassed * (paths - 1) : Nat) - (f.latDisc : Nat)

/-- FRER_LATENT_TEST: the end of a test period. -/
def execFrerLatentTest (stream : Nat) (s : State) : Host.Outcome State Fault Refusal :=
  let c := s.frerNow stream
  let d := (s.stream stream).difference c.paths
  onStream stream (if c.recover && c.latent && decide (c.diff < d.natAbs) then
    (s.bumpStream stream 8 1).raise 0x0901 sevWarning (le 2 stream ++ le 4 (unsigned 32 d)) else s)

/-- FRER_LATENT_RESET: the period counts start anew. -/
def execFrerLatentReset (stream : Nat) (s : State) : Host.Outcome State Fault Refusal :=
  onStream stream (s.updStream stream (fun f => { f with latPassed := 0, latDisc := 0 }))

def execFrerSetStream (r : Req) (s : State) : Host.Outcome State Fault Refusal := mailboxCommand 0x0901 frerSetStreamBody r s
def execFrerGetStream (r : Req) (s : State) : Host.Outcome State Fault Refusal := mailboxCommand 0x0902 frerGetStreamBody r s
def execFrerSetPort (r : Req) (s : State) : Host.Outcome State Fault Refusal := mailboxCommand 0x0903 frerSetPortBody r s
def execFrerResetStream (r : Req) (s : State) : Host.Outcome State Fault Refusal :=
  mailboxCommand 0x0904 frerResetStreamBody r s

end Sys2Proof.Machine
end

