-- ==== Sys2Proof/Machine/PtpTx.lean ====
section
/-! DEFINITION. Timestamps of transmitted PTP messages: one-step edits, residence time and the two-step FIFO (R223 to
R229). -/

namespace Sys2Proof.Machine

/-- A checksum updated for words that change, one after another. -/
def sumWords (hc : Nat) : List (Nat × Nat) → Nat
  | [] => hc
  | w :: r => sumWords (sumUpdate hc w.1 w.2) r

/-- The 16-bit words of a byte string. -/
def wordsBe (b : List Byte) : List Nat := (List.range (b.length / 2)).map (fun i => rdBe b (2 * i) 2)

/-- Bytes written into the PTP message of a frame at offset `o` of the frame: over UDP and IPv4 the UDP checksum becomes 0,
over IPv6 it is updated incrementally (R223). -/
def ptpPatch (b : List Byte) (o : Nat) (new : List Byte) : List Byte :=
  let t := parseTags b
  let b' := putAt b o new
  if (ptpEth b).isSome then b'
  else if t.et = 0x0800 then putAt b' (l4Of b + 6) (be 2 0)
  else
    let n := sumWords (rdBe b (l4Of b + 6) 2) ((wordsBe (slice b o new.length)).zip (wordsBe new))
    putAt b' (l4Of b + 6) (be 2 (if n = 0 then 0xFFFF else n))

/-- A port with the role of a transparent clock (R232). -/
def State.isTc (s : State) (p : Nat) : Bool :=
  decide (p < 512) && ((s.port p).ptp.role == 2 || (s.port p).ptp.role == 3)

/-- A Sync message that gets its own transmit time: twoStepFlag clear, from a host port, on a ONE_STEP port (R223). -/
def State.oneStepSync (s : State) (pk : Pkt) (p o : Nat) (b : List Byte) : Bool :=
  (s.port p).ptp.mode == 1 && ptpType b o == 0 && !bit (fld b (o + 6) 1) 1 && decide (512 ≤ pk.inPort)

/-- The residence time that a transparent clock adds to correctionField, in 2^-16 ns (R224). -/
def Pkt.residence (pk : Pkt) (tx : Nat) : Int :=
  ((tx / 2 ^ 32 : Nat) : Int) - stampUnits (pk.tsSec, pk.tsNs, pk.tsFrac)

/-- A Sync received on a TC P2P port, whose link delay goes into correctionField wherever it leaves (R224). -/
def State.takesDelay (s : State) (pk : Pkt) (ty : Nat) : Bool :=
  decide (pk.inPort < 512) && (s.port pk.inPort).ptp.role == 3 && ty == 0

/-- What the device adds to correctionField of an event message of type `ty`; none where it adds nothing (R224). -/
def State.corrAdded (s : State) (pk : Pkt) (p ty tx : Nat) : Option Int :=
  let d : Int := if s.takesDelay pk ty then ((s.port pk.inPort).ptp.linkDelay : Nat) else 0
  if s.isTc pk.inPort && s.isTc p then some (pk.residence tx + d)
  else if s.takesDelay pk ty then some d
  else none

/-- A frame as it leaves port `p` at transmit time `tx`; whether R223 counts an edit. -/
def State.ptpEdit (s : State) (pk : Pkt) (p : Nat) (b : List Byte) (tx : Nat) : List Byte × Bool :=
  match ptpEvent b with
  | none => (b, false)
  | some o =>
    if pk.mirror.isSome then (b, false)
    else match s.corrAdded pk p (ptpType b o) tx with
      | some d => (ptpPatch b (o + 8) (be 8 (unsigned 64 ((fld b (o + 8) 8 : Nat) + d))), true)
      | none =>
        if decide (p < 512) && s.oneStepSync pk p o b then (ptpPatch b (o + 34) (stampBytes (stampOf tx)), true)
        else (b, false)

/-- Moaras owns the FIFO of a slice: some port of it has role 1, 2 or 3 (R225). -/
def State.fifoMoaras (s : State) (sl : Nat) : Bool :=
  s.ports.any (fun e => decide (e.1 < 512) && e.1 / 32 == sl && decide (1 ≤ e.2.ptp.role) && decide (e.2.ptp.role ≤ 3))

/-- The entry of a capture. -/
def tsEntry (p seq tx : Nat) (b : List Byte) (o : Nat) : TsEntry :=
  { sec := (stampOf tx).1, ns := (stampOf tx).2.1, frac := (stampOf tx).2.2, seq, port := p, msgType := ptpType b o,
    ptpSeq := fld b (o + 30) 2, domain := fld b (o + 4) 1, sdoId := fld b o 1 / 16 }

/-- A two-step capture of a transmitted event message (R225, R227, R228). -/
def State.capture (s : State) (p tx : Nat) (b : List Byte) (o : Nat) : State :=
  let seq := (s.port p).ptp.capSeq
  let t := s.updPort p (fun q => { q with ptp := { q.ptp with capSeq := (seq + 1) % 65536 } })
  if (s.tsFifo (p / 32)).entries.length < 256 then
    let u := (t.updTsFifo (p / 32) (fun f => { f with entries := f.entries ++ [tsEntry p seq tx b o] })).bumpTime p 1 1
    if s.fifoMoaras (p / 32) then u else u.interrupt (160 + p / 32)
  else
    ((t.updTsFifo (p / 32) (fun f => { f with overflow := true })).bumpTime p 3 1).raiseLimited 0x0803 sevWarning p 1000000
      (le 2 p)

/-- The capture that a frame leaving a TWO_STEP port makes, a mirror copy like any other (R225). -/
def State.captureOf (s : State) (p : Nat) (b : List Byte) (tx : Nat) : State :=
  match ptpEvent b with
  | some o => if (s.port p).ptp.mode = 2 ∧ p < 512 then s.capture p tx b o else s
  | none => s

/-- A PTP message of Moaras leaves: on a ONE_STEP port a Sync carries its own transmit time and Moaras takes that of another
event message at once, on a TWO_STEP port an event message is captured (R223, R225). -/
def State.ptpOut (s : State) (p : Nat) (b : List Byte) : State :=
  let tx := s.txTime p
  let m := (s.port p).ptp.mode
  let ty := ptpType b 0
  let one := decide (m = 1) && decide (ty = 0) && !msgTwoStep b
  let b' := if one then putAt b 34 (stampBytes (stampOf tx)) else b
  let t := (s.sendNow p (.ptp p b')).drawn 1
  if one then t.bumpTime p 2 1
  else if m = 1 ∧ ty ≤ 3 then t.ptpSent p ty (msgSeq b) (stampOf tx)
  else if m = 2 ∧ ty ≤ 3 then t.capture p tx b' 0
  else t

/-- A frame of Moaras leaves its port. -/
def State.sendOwn (s : State) (p : Nat) (o : Output) : State :=
  match o with
  | .ptp q b => s.ptpOut q b
  | _ => s.sendNow p o

end Sys2Proof.Machine
end

