-- ==== Sys2Proof/Machine/Sched.lean ====
section
/-! DEFINITION. The scheduling hierarchy: eligibility, DWRR, transmit and grant decisions, shapers, policer refills and the
commands of both (R185 to R206, R212). -/

namespace Sys2Proof.Machine

/-! ### Nodes (R185) -/

def svcKey (p c : Nat) : Nat := 1024 + 8 * p + c
def tenKey (p c t : Nat) : Nat := 8192 + 64 * p + 8 * c + t

/-- A shaper's node is blocked: rate 0 (R197). -/
def Shaper.blocked (h : Shaper) : Bool := h.enable && h.rate == 0
/-- Its tokens are below 0. -/
def Shaper.dry (h : Shaper) : Bool := h.enable && h.rate != 0 && decide (h.tokens < 0)
/-- It lets its node be served (R189). -/
def Shaper.lets (h : Shaper) : Bool := !h.blocked && !h.dry
/-- The length adjust in force; that of a disabled shaper has no effect (R523). -/
def Shaper.adjNow (h : Shaper) : Nat := if h.enable then h.adj else 20

/-- The pointer of a priority: the child served last plus 1. -/
def ptrOf (l : List Nat) (prio : Nat) : Nat := l.getD prio 0
/-- Pointers with one replaced. -/
def ptrSet (l : List Nat) (prio v : Nat) : List Nat := (List.range 8).map (fun i => if i = prio then v else ptrOf l i)

/-! ### DWRR (R188, R190) -/

/-- A child as a decision sees it. -/
structure Kid where
  prio : Nat
  quantum : Nat
  deficit : Nat
  charge : Nat
  ok : Bool
deriving DecidableEq, Repr

def Kid.idle : Kid := ⟨0, 0, 0, 0, false⟩

/-- The pointer moves on from child `i`: each eligible child of the priority gains its quantum until one's deficit covers its
charge. Every quantum is at least 256 bytes and every charge at most 65,536, so 2,100 moves are enough. -/
def dwrrMove (kids : List Kid) (prio : Nat) : Nat → Nat → List Nat → Option (Nat × List Nat)
  | 0, _, _ => none
  | n + 1, i, defs =>
    let k := kids.getD i Kid.idle
    if k.ok && k.prio == prio then
      let d := defs.getD i 0 + k.quantum
      if k.charge ≤ d then some (i, defs.set i (d - k.charge)) else dwrrMove kids prio n ((i + 1) % 8) (defs.set i d)
    else dwrrMove kids prio n ((i + 1) % 8) defs

/-- The highest priority among eligible children. -/
def topPrio (kids : List Kid) : Option Nat :=
  [7, 6, 5, 4, 3, 2, 1, 0].find? (fun p => kids.any (fun k => k.ok && k.prio == p))

/-- The child that a parent serves next: child, priority and the children's deficits after its charge. -/
def dwrr (kids : List Kid) (ptrs : List Nat) : Option (Nat × Nat × List Nat) :=
  match topPrio kids with
  | none => none
  | some p =>
    let at' := ptrOf ptrs p
    let k := kids.getD (at' - 1) Kid.idle
    let defs := kids.map (·.deficit)
    if at' ≠ 0 ∧ k.ok ∧ k.prio = p ∧ k.charge ≤ k.deficit then some (at' - 1, p, defs.set (at' - 1) (k.deficit - k.charge))
    else (dwrrMove kids p 2100 (at' % 8) defs).map (fun r => (r.1, p, r.2))

/-! ### Transmit decisions (R189, R192, R193) -/

/-- The frame at the head of an egress queue that has not started. -/
def State.txHead (s : State) (k : Nat) : Option EgItem := (s.egq k).find? (fun i => !i.started)

/-- The head frame of a network queue may start: one of a gated class, or of one that was gated when it was queued, is whole at
the egress; it fits its window (R193, R244). -/
def State.headStarts (s : State) (p k : Nat) : Bool :=
  match s.txHead k with
  | none => false
  | some i => ((!s.gated p (voqClass k) && !(s.pkt i.pkt).stored) || i.complete)
      && s.gateFits p (voqClass k) ((s.pkt i.pkt).outLen p)

/-- Length of the head frame as it will be transmitted, cut at the port's limit (R44). -/
def State.headLen (s : State) (p k : Nat) : Nat :=
  match s.txHead k with
  | some i => min ((s.pkt i.pkt).outLen p) (s.port p).maxLen
  | none => 0

/-- A tenant node as its service node sees it. -/
def State.tenKid (s : State) (p c t : Nat) : Kid :=
  let n := s.node (tenKey p c t)
  ⟨n.prio, 256 * n.weight, n.txDef, s.headLen p (voqNo p c t) + n.shaper.adjNow,
    n.shaper.lets && s.headStarts p (voqNo p c t)⟩

/-- The tenant that a service node would serve. -/
def State.txTenant (s : State) (p c : Nat) : Option (Nat × Nat × List Nat) :=
  dwrr ((List.range 8).map (s.tenKid p c)) (s.node (svcKey p c)).txPtr

/-- A service node as the port node sees it. -/
def State.svcKid (s : State) (p c : Nat) : Kid :=
  let n := s.node (svcKey p c)
  match s.txTenant p c with
  | some r => ⟨n.prio, 256 * n.weight, n.txDef, s.headLen p (voqNo p c r.1) + n.shaper.adjNow,
      n.shaper.lets && !s.classPaused p c⟩
  | none => ⟨n.prio, 256 * n.weight, n.txDef, 0, false⟩

/-- The service node that the port serves next. -/
def State.txService (s : State) (p : Nat) : Option (Nat × Nat × List Nat) :=
  if (s.node p).shaper.lets then dwrr ((List.range 8).map (s.svcKid p)) (s.node p).txPtr else none

/-- Deficits and the pointer of a parent after its choice. -/
def State.commitTx (s : State) (parent : Nat) (kid : Nat → Nat) (r : Nat × Nat × List Nat) : State :=
  let t := (List.range 8).foldl (fun t i => t.updNode (kid i) (fun n => { n with txDef := r.2.2.getD i 0 })) s
  t.updNode parent (fun n => { n with txPtr := ptrSet n.txPtr r.2.1 (r.1 + 1) })

/-- Deduct a frame from the tokens of a node whose shaper is enabled (R194). -/
def State.chargeNode (s : State) (n len : Nat) : State :=
  s.updNode n (fun x => if x.shaper.enable then
    { x with shaper := { x.shaper with tokens := x.shaper.tokens - tok (len + x.shaper.adj) } } else x)

/-! #### Holds (R213) -/

/-- A network queue holds data. -/
def State.qData (s : State) (k : Nat) : Bool := (s.txHead k).isSome
/-- Nodes of a port with data: the port node, its service nodes, its tenant nodes. -/
def State.nodesWithData (s : State) (p : Nat) : List Nat :=
  let ks := (s.portQueues p).filter s.qData
  if ks.isEmpty then [] else
    p :: ((List.range 8).filter (fun c => ks.any (fun k => voqClass k == c))).map (svcKey p) ++ ks.map (8192 + ·)

/-- Count a transmit decision that passes over a node with data: one without tokens, a blocked one, a paused service node; one
decision counts once for each. -/
def State.countHolds (s : State) (p : Nat) : State :=
  let l := s.nodesWithData p
  let paused := (List.range 8).any (fun c => l.contains (svcKey p c) && s.classPaused p c)
  ((s.bumpSchedAt (portSlice p) 1 (b2n (l.any (fun n => (s.node n).shaper.dry)))).bumpSchedAt (portSlice p) 2
    (b2n (l.any (fun n => (s.node n).shaper.blocked)))).bumpSchedAt (portSlice p) 3 (b2n paused)

/-- Count the head frames of gated classes that a window holds, each once (R238). -/
def State.countGateHeld (s : State) (p : Nat) : State :=
  let held := ((s.portQueues p).filterMap (fun k => match s.txHead k with
    | some i => if s.gated p (voqClass k) && i.complete && !s.headStarts p k then some i.pkt else none
    | none => none)).filter (fun id => !(s.gate p).held.contains id)
  if held.isEmpty then s
  else (s.updGate p (fun g => { g with held := g.held ++ held })).bumpTime p 4 held.length

/-! #### Starting and completing a frame -/

/-- A waiting frame of Moaras may leave at a frame boundary: its class is not paused, and a gate that holds the class has an
open window for it (R48, R233, R237). -/
def State.mayLeave (s : State) (p : Nat) (x : Nat × Output) : Bool :=
  !s.classPaused p x.1 && (!s.gated p x.1 || s.gateFits p x.1 x.2.wireBytes)

/-- The frames of Moaras whose class lets them leave at the frame boundary, ahead of the class's data (log entry 98). -/
def State.flushWait (s : State) (p : Nat) : State :=
  let l := leaving (s.mayLeave p) (s.waiting p) []
  l.1.foldl (fun t o => t.sendOwn p o) (s.setWaiting p l.2)

/-- The head of queue `k` starts: its bytes as they leave, its capture. -/
def State.txStart (s : State) (p k : Nat) : State :=
  match s.txHead k with
  | none => s
  | some i =>
    let pk := s.pkt i.pkt
    let tx := s.txTime p
    let e := s.ptpEdit pk p (pk.outBytes p) tx
    let b := if p < 512 then e.1.take ((s.port p).maxLen - 4) else e.1
    let t := s.setEgq k ((s.egq k).map (fun j => if j.pkt = i.pkt ∧ j.src = i.src then { j with started := true } else j))
    let u := t.updPort p (fun q => { q with txPkt := some i.pkt, txQ := k, txBytes := b, txGate := none })
    let v := (u.updGate p (fun g => { g with held := without g.held i.pkt })).drawn 1
    ((if e.2 then v.bumpTime p 2 1 else v).captureOf p b tx).bumpSchedAt (portSlice p) 0 1

/-- A transmit decision of a network port whose MAC is idle. -/
def State.txNetwork (s : State) (p : Nat) : State :=
  let s := (s.countHolds p).countGateHeld p
  match s.txService p with
  | none => s
  | some r =>
    match s.txTenant p r.1 with
    | none => s
    | some q =>
      let len := s.headLen p (voqNo p r.1 q.1)
      let t := (s.commitTx p (svcKey p) r).commitTx (svcKey p r.1) (tenKey p r.1) q
      let u := ((t.chargeNode (tenKey p r.1 q.1) len).chargeNode (svcKey p r.1) len).chargeNode p len
      u.txStart p (voqNo p r.1 q.1)

/-- A transmit decision of a host port: strict priority, TC7 first, if its shaper lets it and its FIFO has room (R187,
R372). -/
def State.txHost (s : State) (p : Nat) : State :=
  match [7, 6, 5, 4, 3, 2, 1, 0].find? (fun c => s.qData (voqNo p c 0)) with
  | none => s
  | some c =>
    let k := voqNo p c 0
    let h := (s.node p).shaper
    let f := 2 * (p - 512)
    let s := (s.bumpSchedAt (portSlice p) 1 (b2n h.dry)).bumpSchedAt (portSlice p) 2 (b2n h.blocked)
    match s.txHead k with
    | none => s
    | some i =>
      let len := (s.pkt i.pkt).outLen p
      if h.lets = false then s
      else match (s.fifo f).place (hpfWords (len - 4)) with
        | none => s.updFifo f (fun x => { x with waiting := x.enable })
        | some g => ((s.updFifo f (fun _ => g)).chargeNode p len).txStart p k

/-- TRANSMIT_DECISION (R192). -/
def execTransmitDecision (port : Nat) (s : State) : Host.Outcome State Fault Refusal :=
  if 516 ≤ port then .fault (.noSuchUnit "egress port")
  else if (s.port port).txPkt.isSome then .next s
  else if 512 ≤ port then .next (s.txHost port)
  else if (s.port port).link && !(s.port port).lpi then .next (((s.flushCtl port).flushWait port).txNetwork port)
  else .next s

/-- The frame in transmission at a network port is complete, after its gate closed or before (R244): ended with a complemented FCS where it was found bad, exceeded a
limit or lost cells (R44, R178). -/
def State.txDone (s : State) (p : Nat) (i : EgItem) : State :=
  let k := (s.port p).txQ
  let pk := s.pkt i.pkt
  let b := (s.port p).txBytes
  let len := b.length + 4
  let stomped := pk.stomp || i.stomp || decide (len < pk.outLen p)
  let late := (s.port p).txGate.any (fun e => decide (e < s.time.units))
  let t := ((s.updPort p (fun q => { q with txPkt := none, txBytes := [], txGate := none })).bumpTime p 7 (b2n late)).emit
    (.frame p b stomped)
  let u := ((t.bumpPort p 8 1).bumpPort p 9 len).bumpPort p 10 (b2n stomped)
  let v := ((u.countNode (8192 + k) len).countNode (svcKey p (voqClass k)) len).countNode p len
  ((v.egMirror pk p b stomped).egLeave k i).flushCtl p

/-- FRAME_TX_COMPLETE: the last byte of the frame has left. -/
def execFrameTxComplete (port : Nat) (s : State) : Host.Outcome State Fault Refusal :=
  if 516 ≤ port then .fault (.noSuchUnit "egress port")
  else if 512 ≤ port then .next (s.hostCommit (port - 512))
  else match (s.port port).txPkt with
    | none => .next s
    | some id => match (s.egq (s.port port).txQ).find? (fun i => i.pkt == id && i.started && i.complete) with
      | some i => .next (s.txDone port i)
      | none => .next s

/-! ### Grant decisions (R163, R165, R192, R239) -/

/-- A VOQ asks and may be granted: of a gated class its head frame must fit, but while the link is down (R165, R239, R244). -/
def State.voqAsks (s : State) (v sl : Nat) : Bool :=
  let q := s.voq sl v
  let p := voqPort v
  let c := voqClass v
  q.reqAtEgress != 0 && (!(s.gated p c && (s.port p).link) || s.gateGrants p c (match q.q with
    | id :: _ => (s.pkt id).outLen p
    | [] => 0))

/-- The next ingress slice in round robin whose VOQ asks. -/
def State.nextSlice (s : State) (v from' : Nat) : Option Nat :=
  ((List.range 16).map (fun i => (from' + i) % 16)).find? (s.voqAsks v)

/-- A quantum more stays within the credit window of a port and class (R165). -/
def State.windowRoom (s : State) (p c : Nat) : Bool :=
  let f := s.fabPort p c
  decide (f.outstanding + f.quantum ≤ f.window)

/-- Requested bytes of a queue at its egress. -/
def State.asked (s : State) (v : Nat) : Nat := ((List.range 16).map (fun sl => (s.voq sl v).reqAtEgress)).sum

/-- A tenant node in a grant decision. -/
def State.tenGrant (s : State) (p c t : Nat) : Kid :=
  let n := s.node (tenKey p c t)
  let v := voqNo p c t
  ⟨n.prio, 256 * n.weight, if s.asked v = 0 then 0 else n.grDef, (s.fabPort p c).quantum,
    n.shaper.lets && (s.nextSlice v 0).isSome⟩

/-- A service node in a grant decision. -/
def State.svcGrant (s : State) (p c : Nat) : Kid :=
  let n := s.node (svcKey p c)
  let kids := (List.range 8).map (s.tenGrant p c)
  ⟨n.prio, 256 * n.weight, if (List.range 8).all (fun t => s.asked (voqNo p c t) == 0) then 0 else n.grDef,
    (s.fabPort p c).quantum,
    n.shaper.lets && !s.classPaused p c && s.windowRoom p c && kids.any (·.ok)⟩

/-- Grant deficits and pointer of a parent after its choice. -/
def State.commitGr (s : State) (parent : Nat) (kid : Nat → Nat) (r : Nat × Nat × List Nat) : State :=
  let t := (List.range 8).foldl (fun t i => t.updNode (kid i) (fun n => { n with grDef := r.2.2.getD i 0 })) s
  t.updNode parent (fun n => { n with grPtr := ptrSet n.grPtr r.2.1 (r.1 + 1) })

/-- A tenant node, and its service node, with no requested bytes left lose their grant deficits (R190). -/
def State.grSettle (s : State) (p c t : Nat) : State :=
  if 512 ≤ p ∨ s.asked (voqNo p c t) ≠ 0 then s
  else
    let u := s.updNode (tenKey p c t) (fun n => { n with grDef := 0 })
    if (List.range 8).any (fun i => s.asked (voqNo p c i) != 0) then u
    else u.updNode (svcKey p c) (fun n => { n with grDef := 0 })

/-- Grant one quantum to the next VOQ of a queue (R163 steps 3 and 4). -/
def State.grantTo (s : State) (p c t : Nat) : State :=
  let v := voqNo p c t
  let n := tenKey p c t
  let qu := (s.fabPort p c).quantum
  match s.nextSlice v (s.node n).rrSlice with
  | none => s
  | some sl =>
    let a := s.updVoq sl v (fun q => { q with granted := (q.granted + qu) % 2 ^ 32, reqAtEgress := q.reqAtEgress - qu })
    let b := a.updNode n (fun x => { x with rrSlice := (sl + 1) % 16 })
    (b.updFabPort p c (fun f => { f with outstanding := f.outstanding + qu })).bumpFabAt (portSlice p) 2 1

/-- A grant decision of a network port. -/
def State.grantNetwork (s : State) (p : Nat) : State :=
  if (s.node p).shaper.lets = false then s
  else match dwrr ((List.range 8).map (s.svcGrant p)) (s.node p).grPtr with
    | none => s
    | some r => match dwrr ((List.range 8).map (s.tenGrant p r.1)) (s.node (svcKey p r.1)).grPtr with
      | none => s
      | some q =>
        (((s.commitGr p (svcKey p) r).commitGr (svcKey p r.1) (tenKey p r.1) q).grantTo p r.1 q.1).grSettle p r.1 q.1

/-- A grant decision of a host port: strict class priority (R187). -/
def State.grantHost (s : State) (p : Nat) : State :=
  if (s.node p).shaper.lets = false then s
  else match [7, 6, 5, 4, 3, 2, 1, 0].find? (fun c => s.windowRoom p c && (s.nextSlice (voqNo p c 0) 0).isSome) with
    | some c => s.grantTo p c 0
    | none => s

/-- GRANT_DECISION (R163, R192). -/
def execGrantDecision (port : Nat) (s : State) : Host.Outcome State Fault Refusal :=
  if 516 ≤ port then .fault (.noSuchUnit "egress port")
  else if 512 ≤ port then .next (s.grantHost port)
  else .next (s.grantNetwork port)

/-! ### Refills (R195, R198, R199, R202, R206) -/

/-- Tokens that a refill adds: exact, or where the 16 fraction bits cannot hold them rounded by the free value `r` (log
entry 3). -/
def tokensAdded (rate dt r : Nat) : Nat :=
  tokensFor rate dt + (if rate * dt % (2 ^ 35 * 1000000) = 0 then 0 else r % 2)

/-- Tokens of a refill, limited to a burst. -/
def refillTokens (old : Int) (rate dt burst r : Nat) : Int := min (old + (tokensAdded rate dt r : Nat)) (tok burst)

/-- A shaper with the settings that waited for its refill. A shaper that is enabled starts with no tokens. -/
def Shaper.settle (h : Shaper) : Shaper :=
  match h.pend with
  | none => h
  | some n =>
    { h with
      enable := n.1
      rate := n.2.1
      burst := n.2.2.1
      adj := n.2.2.2
      pend := none
      tokens := if n.1 && !h.enable then 0 else h.tokens }

/-- One refill at a time-base time. After a backward step it adds nothing and removes nothing. -/
def Shaper.refill (h : Shaper) (now r : Nat) : Shaper :=
  let g := h.settle
  if now < h.last ∨ g.enable = false then { g with last := now }
  else { g with last := now, tokens := refillTokens g.tokens g.rate (now - h.last) g.burst r }

/-- A scheduler node key. -/
def nodeExists (k : Nat) : Bool :=
  decide (k < 516) || (decide (1024 ≤ k) && decide (k < 5120)) || (decide (8192 ≤ k) && decide (k < 40960))

/-- SHAPER_REFILL (R195). -/
def execShaperRefill (node : Nat) (s : State) : Host.Outcome State Fault Refusal :=
  if nodeExists node then
    .next ((s.updNode node (fun n => { n with shaper := n.shaper.refill s.time.units s.freeVal })).drawn 1)
  else .fault (.noSuchUnit "scheduler node")

/-- A policer with the settings that waited; a new kind or mode starts with full buckets (R206). -/
def Policer.settle (q : Policer) : Policer :=
  match q.pend with
  | none => q
  | some n =>
    let fresh := n.tr != q.cfg.tr || n.aware != q.cfg.aware
    { q with
      cfg := n
      pend := none
      tc := if fresh then tok n.cbs else q.tc
      te := if fresh then tok n.ebs else q.te }

/-- One refill of a policer: of a single rate, what the committed bucket cannot take of the tokens added goes to the excess
bucket (RFC 2697); of two rates, each bucket has its own (RFC 2698). -/
def Policer.refill (q : Policer) (now r1 r2 : Nat) : Policer :=
  let g := q.settle
  if now < q.last then { g with last := now }
  else
    let add : Int := (tokensAdded g.cfg.cir (now - q.last) r1 : Nat)
    let full := g.tc + add
    if g.cfg.tr then
      { g with last := now, tc := min full (tok g.cfg.cbs), te := refillTokens g.te g.cfg.pir (now - q.last) g.cfg.ebs r2 }
    else
      { g with last := now, tc := min full (tok g.cfg.cbs),
               te := min (g.te + max 0 (min add (full - tok g.cfg.cbs))) (tok g.cfg.ebs) }

/-- POLICER_REFILL (R202). -/
def execPolicerRefill (pol : Nat) (s : State) : Host.Outcome State Fault Refusal :=
  if pol < 131072 then
    .next ((s.updPolicer pol (fun q => q.refill s.time.units s.freeVal (Config.freeValue (s.free + 1)))).drawn 2)
  else .fault (.noSuchUnit "policer")

/-! ### Commands (R212) -/

/-- Smallest burst of a rate in kb/s (R197). -/
def minBurst (rate : Nat) : Nat := ceilDiv rate 150000

/-- The node that a payload names. -/
def nodeOf (p : List Byte) : Nat :=
  match rd p 2 1 with
  | 0 => rd p 0 2
  | 1 => svcKey (rd p 0 2) (rd p 3 1)
  | _ => tenKey (rd p 0 2) (rd p 3 1) (rd p 4 1)

/-- The fields that name a node: an active network port, or a host port at level 0 (R187). -/
def State.argNode (s : State) (p : List Byte) : Bool :=
  (s.portActive (rd p 0 2) || (decide (512 ≤ rd p 0 2) && decide (rd p 0 2 ≤ 515) && rd p 2 1 == 0))
    && decide (rd p 2 1 ≤ 2) && (rd p 2 1 == 0 || decide (rd p 3 1 ≤ 7)) && (rd p 2 1 != 2 || decide (rd p 4 1 ≤ 7))

/-- A rate and a burst within R197. -/
def burstCheck (rate burst : Nat) : Option (Nat × Nat) :=
  if rate = 0 then none
  else if burst = 0 then some (stBadArg, 0x0702)
  else if burst < minBurst rate then some (stBadArg, 0x0703)
  else none

def checkSchedSetNode (p : List Byte) (s : State) : Option (Nat × Nat) :=
  firstOf [
    need 0x0701 (s.argNode p && resv p 10 2 && decide (rd p 8 1 ≤ 1)
      && (rd p 2 1 == 0 || (decide (rd p 5 1 ≤ 7) && decide (1 ≤ rd p 6 2) && decide (rd p 6 2 ≤ 255)))
      && (rd p 8 1 == 0 || (decide (rd p 9 1 ≤ 63) && decide (rd p 12 4 ≤ 1600000000) && decide (rd p 16 4 ≤ 67108864)))),
    if rd p 8 1 = 1 then burstCheck (rd p 12 4) (rd p 16 4) else none]

/-- Priority and weight apply at once, the shaper at the node's next refill (R190, R198, R199). -/
def Node.configure (n : Node) (p : List Byte) : Node :=
  let same := decide (rd p 2 1 = 0) || rd p 5 1 == n.prio
  { n with
    prio := if rd p 2 1 = 0 then n.prio else rd p 5 1
    weight := if rd p 2 1 = 0 then n.weight else rd p 6 2
    txDef := if same then n.txDef else 0
    grDef := if same then n.grDef else 0
    shaper := { n.shaper with pend := some (rd p 8 1 == 1, rd p 12 4, rd p 16 4, rd p 9 1) } }
def applySchedSetNode (p : List Byte) (s : State) : State := s.updNode (nodeOf p) (fun n => n.configure p)
def schedSetNodeBody : Body := setCmd 0x0701 checkSchedSetNode applySchedSetNode

/-- Whole bytes of tokens, rounded toward minus infinity. -/
def wholeTokens (t : Int) : Int := t / 65536

/-- The queues that a node serves. -/
def nodeQueues (p : List Byte) : List Nat :=
  let q := rd p 0 2
  if 512 ≤ q then (List.range 8).map (fun c => voqNo q c 0)
  else match rd p 2 1 with
    | 0 => (List.range 64).map (64 * q + ·)
    | 1 => (List.range 8).map (voqNo q (rd p 3 1))
    | _ => [voqNo q (rd p 3 1) (rd p 4 1)]

/-- A node is eligible for a transmit decision (R189). -/
def State.nodeEligible (s : State) (p : List Byte) : Bool :=
  let q := rd p 0 2
  if 512 ≤ q then (s.node q).shaper.lets && (nodeQueues p).any s.qData
  else match rd p 2 1 with
    | 0 => (s.txService q).isSome
    | 1 => (s.svcKid q (rd p 3 1)).ok
    | _ => (s.tenKid q (rd p 3 1) (rd p 4 1)).ok

/-- Flags of SCHED_GET_NODE; a pause and a closed gate are conditions of service nodes. -/
def State.nodeFlags (s : State) (p : List Byte) : Nat :=
  let q := rd p 0 2
  let c := rd p 3 1
  let svc := rd p 2 1 == 1
  b2n (s.nodeEligible p) + 2 * b2n ((nodeQueues p).any s.qData) + 4 * b2n (svc && s.classPaused q c)
    + 8 * b2n (svc && s.gated q c && !bit (s.gate q).now c) + 16 * b2n (s.node (nodeOf p)).shaper.blocked

def schedGetNodeBody : Body := readCmd (fun r s =>
  if s.argNode r.payload then
    let n := s.node (nodeOf r.payload)
    Resp.ok (le 8 (unsigned 64 (wholeTokens n.shaper.tokens)) ++ le 4 n.txDef ++ le 1 (s.nodeFlags r.payload) ++ le 3 0
      ++ le 8 n.bytes ++ le 8 n.frames)
  else Resp.err stBadArg 0x0701)

/-- The settings of a POL_SET. -/
def polOf (p : List Byte) : PolCfg :=
  { tr := rd p 4 1 == 1, aware := bit (rd p 5 1) 0, dropRed := bit (rd p 5 1) 1, adj := rd p 6 1, cir := rd p 8 4,
    cbs := rd p 12 4, pir := rd p 16 4, ebs := rd p 20 4 }

/-- A second bucket below the smallest burst of its rate, other than 0. -/
def shortBurst (rate burst : Nat) : Bool := burst != 0 && decide (burst < minBurst rate)

def checkPolSet (p : List Byte) (_ : State) : Option (Nat × Nat) :=
  let c := polOf p
  firstOf [
    need 0x0701 (decide (rd p 0 4 ≤ 131071) && decide (rd p 4 1 ≤ 1) && decide (rd p 5 1 ≤ 3) && decide (c.adj ≤ 63)
      && resv p 7 1 && decide (c.cir ≤ 1600000000) && decide (c.pir ≤ 1600000000) && decide (c.cbs ≤ 67108864)
      && decide (c.ebs ≤ 67108864)),
    need 0x0704 (if c.tr then decide (c.cir ≤ c.pir) else c.pir == 0),
    need 0x0702 (!(c.cbs == 0 && c.cir != 0) && !(c.tr && c.ebs == 0 && c.pir != 0)),
    need 0x0703 (!shortBurst c.cir c.cbs && !shortBurst (if c.tr then c.pir else c.cir) c.ebs)]
/-- The settings wait for the policer's next refill. -/
def applyPolSet (p : List Byte) (s : State) : State := s.updPolicer (rd p 0 4) (fun q => { q with pend := some (polOf p) })
def polSetBody : Body := setCmd 0x0703 checkPolSet applyPolSet

def polGetBody : Body := readCmd (fun r s =>
  let q := s.policer (rd r.payload 0 4)
  if rd r.payload 0 4 ≤ 131071 then
    Resp.ok (le 4 (unsigned 32 (wholeTokens q.tc)) ++ le 4 (unsigned 32 (wholeTokens q.te)) ++ le 8 q.green.toNat
      ++ le 8 q.yellow.toNat ++ le 8 q.red.toNat ++ le 8 q.redDrops.toNat)
  else Resp.err stBadArg 0x0701)

/-- An active network port, or a host port. -/
def State.argPort515 (s : State) (p : List Byte) : Bool :=
  s.portActive (rd p 0 2) || (decide (512 ≤ rd p 0 2) && decide (rd p 0 2 ≤ 515))

def checkPolSetPort (p : List Byte) (s : State) : Option (Nat × Nat) :=
  need 0x0701 (s.argPort515 p && decide (rd p 2 1 ≤ 1) && decide (rd p 3 1 ≤ 1)
    && (rd p 2 1 == 0 || decide (rd p 4 4 ≤ 131071)))
def applyPolSetPort (p : List Byte) (s : State) : State :=
  s.updPort (rd p 0 2) (fun q => { q with polValid := bit (rd p 2 1) 0, polPre := rd p 3 1, polIdx := rd p 4 4 })
def polSetPortBody : Body := setCmd 0x0705 checkPolSetPort applyPolSetPort

def schedGetCountersBody : Body := readCmd (fun _ s => Resp.ok (ctrBytes s.sched.ctr 0 13))

def execSchedSetNode (r : Req) (s : State) : Host.Outcome State Fault Refusal := mailboxCommand 0x0701 schedSetNodeBody r s
def execSchedGetNode (r : Req) (s : State) : Host.Outcome State Fault Refusal := mailboxCommand 0x0702 schedGetNodeBody r s
def execPolSet (r : Req) (s : State) : Host.Outcome State Fault Refusal := mailboxCommand 0x0703 polSetBody r s
def execPolGet (r : Req) (s : State) : Host.Outcome State Fault Refusal := mailboxCommand 0x0704 polGetBody r s
def execPolSetPort (r : Req) (s : State) : Host.Outcome State Fault Refusal := mailboxCommand 0x0705 polSetPortBody r s
def execSchedGetCounters (r : Req) (s : State) : Host.Outcome State Fault Refusal :=
  mailboxCommand 0x0709 schedGetCountersBody r s

end Sys2Proof.Machine
end

