-- ==== Sys2Proof/Machine/Loupe.lean ====
section
/-! DEFINITION. Loupe: samples of queue depth and head delay, alarms, the record ring and its commands (R207 to R212,
R465). -/

namespace Sys2Proof.Machine

/-! ### Items (R207) -/

/-- Items of a slice's round. -/
def loupeItems : Nat := 34848

/-- Type of the item with an order number. -/
def loupeType (o : Nat) : Nat := if o < 32768 then 0 else if o < 32800 then 1 else 2

/-- Index of an item: a VOQ number or a tenant node number. -/
def loupeIndex (sl o : Nat) : Nat := if o < 32800 then o else 2048 * sl + (o - 32800)

/-- Egress port of an item. -/
def loupePort (sl o : Nat) : Nat := voqPort (loupeIndex sl o)

/-- Traffic class of an item. -/
def loupeClass (sl o : Nat) : Nat := voqClass (loupeIndex sl o)

/-- The item belongs to an active port or a host port. -/
def State.loupeActive (s : State) (sl o : Nat) : Bool := decide (512 ≤ loupePort sl o) || s.portActive (loupePort sl o)

/-- First item of the port after an item's. -/
def loupeSkip (o : Nat) : Nat :=
  if o < 32768 then 64 * (o / 64 + 1) else if o < 32800 then o + 1 else 32800 + 64 * ((o - 32800) / 64 + 1)

/-- The next item to sample from an order number on; 600 skips pass over every port. -/
def State.loupeNext (s : State) (sl : Nat) : Nat → Nat → Option Nat
  | 0, _ => none
  | n + 1, o =>
    let o := if loupeItems ≤ o then 0 else o
    if s.loupeActive sl o then some o else s.loupeNext sl n (loupeSkip o)

/-! ### A sample (R207, R208) -/

/-- Time since a frame was admitted, in ns of the time base; 0 after a step behind its admission. -/
def State.headDelay (s : State) (id : Option Nat) : Nat :=
  match id with
  | some i => s.nowNs - (1000000000 * (s.pkt i).admSec + (s.pkt i).admNs)
  | none => 0

/-- Cells of a VOQ's frames behind its on-chip part: those in HBM, or those that wait behind them on chip (R24). -/
def State.tailCells (s : State) (q : Voq) (hbm : Bool) : Nat :=
  ((q.spillQ.filter (fun id => (s.pkt id).spilled == hbm)).map (fun id => (s.pkt id).nCells)).sum

/-- What a sample sees: on-chip cells, spilled cells, delay, the last word. -/
structure LoupeView where
  depth : Nat
  spilled : Nat
  delay : Nat
  word : Nat
  inSpill : Bool
deriving DecidableEq, Repr

def State.loupeView (s : State) (sl o : Nat) : LoupeView :=
  if o < 32800 then
    let q := s.voq sl o
    { depth := s.voqCells sl o + s.tailCells q false, spilled := s.tailCells q true, delay := s.headDelay q.q.head?,
      word := unsigned 32 q.credit, inSpill := s.buf.spillVoqs.contains (spillKey sl o) }
  else
    let n := loupeIndex sl o
    { depth := ((s.egq n).map (fun i => i.cells.length)).sum, spilled := 0,
      delay := s.headDelay ((s.egq n).head?.map (·.pkt)), word := s.asked n, inSpill := false }

/-- Delay as records carry it: all ones when saturated. -/
def satDelay (d : Nat) : Nat := min d 0xFFFFFFFF

/-- The record of a sample (R208). -/
def State.loupeRecord (s : State) (sl o : Nat) (v : LoupeView) (dAl yAl : Bool) : List Byte :=
  le 4 s.time.sec ++ le 4 s.time.ns ++ le 1 (loupeType o) ++ le 1 sl
    ++ le 1 (b2n dAl + 2 * b2n yAl + 4 * b2n v.inSpill + 8 * b2n (decide (0xFFFFFFFF ≤ v.delay))) ++ le 1 0
    ++ le 4 (loupeIndex sl o) ++ le 4 v.depth ++ le 4 v.spilled ++ le 4 (satDelay v.delay) ++ le 4 v.word

/-! ### Alarms (R209, R210) -/

/-- One alarm after a sample: whether it is active, samples in a row below the clear threshold, whether it was raised, whether
it was cleared. -/
def alarmStep (on active : Bool) (below value raise clear count : Nat) : Bool × Nat × Bool × Bool :=
  if on = false then (false, 0, false, false)
  else if active then
    if value < clear then (if count ≤ below + 1 then (false, 0, false, true) else (true, below + 1, false, false))
    else (true, 0, false, false)
  else if raise ≤ value then (true, 0, true, false)
  else (false, 0, false, false)

def SchedSt.loupeProf (x : SchedSt) (n : Nat) : LoupeProf := Tab.get LoupeProf.init x.prof n
def SchedSt.loupeQueue (x : SchedSt) (p c : Nat) : LoupeQ := Tab.get LoupeQ.init x.queue (8 * p + c)
def State.loupeItem (s : State) (sl o : Nat) : LoupeItem := Tab.get LoupeItem.init s.sched.items (loupeItems * sl + o)

/-- The alarms of an item after a sample: depth and delay. -/
def State.loupeAlarms (s : State) (sl o : Nat) (v : LoupeView) : (Bool × Nat × Bool × Bool) × (Bool × Nat × Bool × Bool) :=
  let i := s.loupeItem sl o
  let f := s.sched.loupeProf (s.sched.loupeQueue (loupePort sl o) (loupeClass sl o)).prof
  (alarmStep f.depthOn i.depthAl i.depthBelow (v.depth + v.spilled) f.depthRaise f.depthClear f.clearCount,
    alarmStep f.delayOn i.delayAl i.delayBelow v.delay f.delayRaise f.delayClear f.clearCount)

/-- LOUPE_ALARM (the item, its sample, the alarm: 0 depth, 1 delay) or LOUPE_ALARM_CLEAR, with its counter. -/
def State.loupeEvent (s : State) (rcd : List Byte) (alarm : Nat) (a : Bool × Nat × Bool × Bool) : State :=
  let t := if a.2.2.1 then
      (s.bumpSchedAt (rd rcd 9 1) 10 1).raise 0x0701 sevWarning (slice rcd 8 2 ++ slice rcd 12 2 ++ rcd ++ le 1 alarm)
    else s
  if a.2.2.2 then (t.bumpSchedAt (rd rcd 9 1) 11 1).raise 0x0702 sevInfo [] else t

/-! ### The ring (R465) -/

/-- Write a record, or lose it where the ring is full. -/
def State.loupeWrite (s : State) (rcd : List Byte) : State :=
  let w := s.swp
  if w.lEnable = false then s
  else if w.lTail - w.lHead < 2 ^ w.lK then
    (({ s with swp := { w with lTail := w.lTail + 1 } }).emit
      (.hostWrite 0 (w.lBase.toNat + 32 * (w.lTail % 2 ^ w.lK)) rcd)).interrupt 178
  else ({ s with swp := { w with lFull := true } }).bumpSchedAt (rd rcd 9 1) 12 1

/-- One sample of an item. -/
def State.loupeSample (s : State) (sl o : Nat) : State :=
  let v := s.loupeView sl o
  let a := s.loupeAlarms sl o v
  let rcd := s.loupeRecord sl o v a.1.1 a.2.1
  let t := { s with sched := { s.sched with
    cursor := Tab.set 0 s.sched.cursor sl ((o + 1) % loupeItems)
    items := Tab.upd LoupeItem.init s.sched.items (loupeItems * sl + o) (fun i =>
      { i with last := rcd, maxDepth := max i.maxDepth (v.depth + v.spilled), maxDelay := max i.maxDelay (satDelay v.delay),
               depthAl := a.1.1, depthBelow := a.1.2.1, delayAl := a.2.1, delayBelow := a.2.2.1 }) } }
  let u := ((t.bumpSchedAt sl 9 1).loupeEvent rcd 0 a.1).loupeEvent rcd 1 a.2
  let q := s.sched.loupeQueue (loupePort sl o) (loupeClass sl o)
  if q.all || (q.alarmed && (a.1.1 || a.2.1)) then u.loupeWrite rcd else u

/-- LOUPE_SAMPLE: the sampler of a slice takes its next item; the items of a parked slice are skipped (R496). -/
def execLoupeSample (slice : Nat) (s : State) : Host.Outcome State Fault Refusal :=
  if 16 ≤ slice then .fault (.noSuchUnit "slice")
  else if (s.sliceSt slice).state = .parked then .next s
  else match s.loupeNext slice 600 (Tab.get 0 s.sched.cursor slice) with
    | some o => .next (s.loupeSample slice o)
    | none => .next s

/-! ### Commands (R212) -/

/-- The profile of a request. -/
def loupeProfOf (p : List Byte) : LoupeProf :=
  { depthOn := bit (rd p 1 1) 0, delayOn := bit (rd p 1 1) 1, clearCount := rd p 2 1, depthRaise := rd p 4 4,
    depthClear := rd p 8 4, delayRaise := rd p 12 4, delayClear := rd p 16 4 }

/-- Items whose port and class satisfy a test lose their alarm state. -/
def SchedSt.resetAlarms (x : SchedSt) (f : Nat → Nat → Bool) : SchedSt :=
  { x with items := x.items.map (fun e =>
      let sl := e.1 / loupeItems
      let o := e.1 % loupeItems
      if f (loupePort sl o) (loupeClass sl o) then
        (e.1, { e.2 with depthAl := false, delayAl := false, depthBelow := 0, delayBelow := 0 }) else e) }

def checkLoupeSetProfile (p : List Byte) (_ : State) : Option (Nat × Nat) :=
  need 0x0701 (decide (rd p 0 1 ≤ 63) && decide (rd p 1 1 ≤ 3) && resv p 3 1
    && (rd p 1 1 == 0 || (decide (1 ≤ rd p 2 1) && decide (rd p 2 1 ≤ 15)))
    && (!bit (rd p 1 1) 0 || decide (rd p 8 4 ≤ rd p 4 4)) && (!bit (rd p 1 1) 1 || decide (rd p 16 4 ≤ rd p 12 4)))
/-- A change of a profile resets the alarms of the items that use it. -/
def applyLoupeSetProfile (p : List Byte) (s : State) : State :=
  let n := rd p 0 1
  let x := if s.sched.loupeProf n = loupeProfOf p then s.sched
    else s.sched.resetAlarms (fun q c => (s.sched.loupeQueue q c).prof == n)
  { s with sched := { x with prof := Tab.set LoupeProf.init x.prof n (loupeProfOf p) } }
def loupeSetProfileBody : Body := setCmd 0x0706 checkLoupeSetProfile applyLoupeSetProfile

def checkLoupeSetQueue (p : List Byte) (s : State) : Option (Nat × Nat) :=
  need 0x0701 (s.argPort515 p && decide (rd p 3 1 ≤ 63) && decide (rd p 4 1 ≤ 3) && resv p 5 3)
/-- One class of a LOUPE_SET_QUEUE. -/
def SchedSt.setLoupeQueue (x : SchedSt) (p : List Byte) (c : Nat) : SchedSt :=
  let q := rd p 0 2
  let y := if (x.loupeQueue q c).prof = rd p 3 1 then x else x.resetAlarms (fun q' c' => q' == q && c' == c)
  let n : LoupeQ := { prof := rd p 3 1, all := bit (rd p 4 1) 0, alarmed := bit (rd p 4 1) 1 }
  { y with queue := Tab.set LoupeQ.init y.queue (8 * q + c) n }
def applyLoupeSetQueue (p : List Byte) (s : State) : State :=
  { s with sched := (bitList 8 (rd p 2 1)).foldl (fun x c => x.setLoupeQueue p c) s.sched }
def loupeSetQueueBody : Body := setCmd 0x0707 checkLoupeSetQueue applyLoupeSetQueue

/-- The order number that type and index of a LOUPE_GET name. -/
def loupeOrder (p : List Byte) : Option Nat :=
  let sl := rd p 0 1
  let n := rd p 4 4
  if 16 ≤ sl then none
  else match rd p 1 1 with
    | 0 => if n < 32768 then some n else none
    | 1 => if 32768 ≤ n ∧ n < 32800 then some n else none
    | 2 => if n / 2048 = sl then some (32800 + n % 2048) else none
    | _ => none

/-- The latest record and the largest values since the previous read, which the read clears (R211). -/
def loupeGetBody : Body := fun r s =>
  let sl := rd r.payload 0 1
  match loupeOrder r.payload with
  | none => errCmd s stBadArg 0x0701
  | some o =>
    let i := s.loupeItem sl o
    okCmd { s with sched := { s.sched with
        items := Tab.set LoupeItem.init s.sched.items (loupeItems * sl + o) { i with maxDepth := 0, maxDelay := 0 } } }
      (padTo 32 i.last ++ le 4 i.maxDepth ++ le 4 i.maxDelay)

def execLoupeSetProfile (r : Req) (s : State) : Host.Outcome State Fault Refusal :=
  mailboxCommand 0x0706 loupeSetProfileBody r s
def execLoupeSetQueue (r : Req) (s : State) : Host.Outcome State Fault Refusal := mailboxCommand 0x0707 loupeSetQueueBody r s
def execLoupeGet (r : Req) (s : State) : Host.Outcome State Fault Refusal := mailboxCommand 0x0708 loupeGetBody r s

end Sys2Proof.Machine
end

