-- ==== Sys2Proof/Machine/SliceOps.lean ====
section
/-! DEFINITION. What a slice reset takes away: the slice's packets, pairs, queues, counters and Loupe state (R494, R496). -/

namespace Sys2Proof.Machine

/-- A frame of slice `n` in transmission at a port of another slice ends there: with a complemented FCS if it is not whole
(R44, R179). -/
def State.cutTx (s : State) (n p : Nat) : State :=
  match (s.port p).txPkt with
  | none => s
  | some id =>
    match (s.egq (s.port p).txQ).find? (fun i => i.pkt == id && i.src == n) with
    | none => s
    | some i =>
      if 512 ≤ p then s.updPort p (fun q => { q with txPkt := none, txBytes := [] })
      else s.txDone p { i with complete := true, stomp := i.stomp || !i.complete }

/-- Egress queue entries that satisfy a test leave; a unicast one gives back its outstanding credit (R165). -/
def State.dropItems (s : State) (f : Nat → EgItem → Bool) : State :=
  s.sched.egq.foldl (fun t e =>
    let lost := e.2.filter (f e.1)
    if lost.isEmpty then t
    else (lost.filter (fun i => !i.multi)).foldl (fun t i => t.matchCredit (voqPort e.1) (voqClass e.1) (s.pkt i.pkt).len)
      (t.setEgq e.1 (e.2.filter (fun i => !f e.1 i)))) s

/-- A unicast packet that no egress queue of `r` holds gives back the credit it took (R165). -/
def State.unmatch (r s : State) (pk : Pkt) : State :=
  let p := pk.dests.headD 0
  if (r.holders (portSlice p) pk.id).isEmpty then s.matchCredit p pk.tc pk.len else s

/-- A copy from slice `src` with cells outstanding towards slice `dst` is discarded; `r` is the state with its queues whole. -/
def State.loseCopy (r s : State) (src dst id : Nat) : State :=
  let pk := s.pkt id
  let p := s.pair src dst
  let unsent := match p.sending.find? (fun x => x.pkt == id) with
    | some x => pk.nCells - x.next
    | none => 0
  if pk.multi then
    let cells := (p.out.filter (fun c => c.pkt == id)).take 1
    (List.range ((p.out.filter (fun c => c.pkt == id)).length + unsent)).foldl (fun t _ =>
      cells.foldl (fun t c => t.freeCell c) t) s
  else
    (r.unmatch s pk).release id

/-- Packets with cells outstanding on a pair. -/
def Pair.crossing (p : Pair) : List Nat := (p.out.map (·.pkt)).eraseDups

/-- Packets that a slice holds on its way in; parked ones are kept (R497). -/
def State.sliceHeld (s : State) (n : Nat) : List Nat :=
  (s.pkts.filter (fun x => x.2.slice == n && x.2.parked.isNone && !x.2.dead)).map (·.1)

/-- Packets of other slices with cells outstanding towards slice `n`, with their slices. -/
def State.sliceComing (s : State) (n : Nat) : List (Nat × Nat) :=
  (List.range 16).flatMap (fun d => if d = n then [] else (s.pair d n).crossing.map (fun id => (d, id)))

/-- A packet of the slice goes: out of every queue, its counts and cells given back. -/
def State.losePkt (r s : State) (id : Nat) : State :=
  match Tab.find s.pkts id with
  | none => s
  | some pk =>
    let pr := s.pair pk.slice (portSlice (pk.dests.headD 0))
    let a := if !pk.multi && !pr.sending.any (fun x => x.pkt == id)
        && pr.out.any (fun c => c.pkt == id && !pr.done.contains c.seq) then r.unmatch s pk else s
    let b := a.pull pk
    (if pk.cells.isEmpty && !pk.spilled then b.retire pk else b).release id

/-- Credit that the VOQs of a slice hold no longer counts at the egress (R165, R166). -/
def State.loseCredit (s : State) (n : Nat) : State :=
  let l := s.fab.voqs.filter (fun e => e.1 / 32800 == n)
  let t := l.foldl (fun t e =>
    let v := e.1 % 32800
    t.matchCredit (voqPort v) (voqClass v)
      (e.2.credit.toNat + (e.2.granted + 2 ^ 32 - e.2.received) % 2 ^ 32 + e.2.returning)) s
  l.foldl (fun t e => let v := e.1 % 32800
    t.grSettle (voqPort v) (voqClass v) (v % 8)) { t with fab := { t.fab with voqs := t.fab.voqs.filter (fun e => e.1 / 32800 != n) } }

/-- Every pair of the slice restarts: both ends at 0, its cells off the links (R179). Frames of other slices of which no cell
has left keep their place. -/
def State.restartPairs (s : State) (n : Nat) : State :=
  let t := (List.range 16).foldl (fun t d =>
    let keep := ((t.pair d n).sending.filter (fun x => x.next == 0))
    let u := t.updPair n d (fun _ => Pair.init)
    if d = n then u else u.updPair d n (fun _ => { Pair.init with sending := keep })) s
  { t with fab := { t.fab with links := t.fab.links.filter (fun l => l.cell.src != n && l.cell.dst != n) } }

/-- The port that a scheduler node belongs to (R185). -/
def nodePort (k : Nat) : Nat := if k < 1024 then k else if k < 8192 then (k - 1024) / 8 else (k - 8192) / 64

/-- The nodes of the ports of a slice with what they have transmitted cleared (R212, R457). -/
def clearNodes (n : Nat) (l : Tab Node) : Tab Node :=
  (l.map (fun e => (e.1, if portSlice (nodePort e.1) = n then { e.2 with bytes := 0, frames := 0 } else e.2))).filter
    (fun e => decide (e.2 ≠ Node.dflt e.1))

/-- Counters and Loupe state of a slice cleared (R211, R457). -/
def State.clearSlice (s : State) (n : Nat) : State :=
  { s with
    tel := { s.tel with
      portCtr := s.tel.portCtr.filter (fun e => e.1 / 22 / 32 != n || decide (22 * 512 ≤ e.1))
      prismCtr := s.tel.prismCtr.filter (fun e => e.1 / 13 != n)
      timeCtr := s.tel.timeCtr.filter (fun e => e.1 / 9 / 32 != n || decide (9 * 512 ≤ e.1))
      drops := s.tel.drops.filter (fun e => portSlice (e.1 / 64) != n)
      share := s.tel.share.filter (fun e => e.1 / 64 % 16 != n)
      pwrCtr := s.tel.unshare 4 n s.tel.pwrCtr
      mirCtr := s.tel.unshareMir n s.tel.mirCtr
      mirQ := s.tel.mirQ.filter (fun e => e.1 != n) }
    prism := { s.prism with hits := s.prism.hits.filter (fun e => e.1 / 3072 != n) }
    fwd := { s.fwd with
      learnQ := s.fwd.learnQ.filter (fun e => e.1 != n)
      ctr := s.tel.unshare 0 n s.fwd.ctr }
    buf := { s.buf with ctr := s.tel.unshare 1 n s.buf.ctr }
    proof := { s.proof with ctr := s.tel.unshare 5 n s.proof.ctr }
    fab := { s.fab with ctr := s.tel.unshare 2 n s.fab.ctr }
    sched := { s.sched with
      nodes := clearNodes n s.sched.nodes
      ctr := s.tel.unshare 3 n s.sched.ctr
      items := s.sched.items.filter (fun e => e.1 / loupeItems != n)
      cursor := s.sched.cursor.filter (fun e => e.1 != n) } }

/-- Steps 1 to 3 of R494 on the slice's contents: the state, and how many packets were discarded. -/
def State.flushSlice (s : State) (n : Nat) : State × Nat :=
  let held := s.sliceHeld n
  let coming := s.sliceComing n
  let a := (s.rewindSlice n)
  let b := (List.range 516).foldl (fun t p => if portSlice p = n then t else t.cutTx n p) a
  let c := b.dropItems (fun k i => portSlice (voqPort k) == n || i.src == n)
  let d := coming.foldl (fun t x => b.loseCopy t x.1 n x.2) c
  let e := held.foldl b.losePkt d
  let f := (e.loseCredit n).restartPairs n
  let g := (List.range 32).foldl (fun t i => (t.linkDown (32 * n + i) none).updPort (32 * n + i) (fun q =>
    { q with training := false })) f
  (g.clearSlice n, (held ++ coming.map (·.2)).eraseDups.length)

/-! ### Park (R496) -/

/-- Every lane of a slice has mode 0x00. -/
def State.lanesOff (s : State) (n : Nat) : Bool := (List.range 32).all (fun i => (s.lane (32 * n + i)).mode == 0)

/-- A slice is parked: what it still held goes, a stretch ends, SLICE_PARKED. -/
def State.parkNow (s : State) (n : Nat) : State :=
  let t := (((s.closeStretch n).flushSlice n).1).updSlice n (fun x => { x with state := .parked })
  (t.bumpPwr 7 1).raise 0x1109 sevInfo (le 1 n)

end Sys2Proof.Machine
end

