-- ==== Sys2Proof/Machine/Telemetry.lean ====
section
/-! DEFINITION. The counter sweep, the SWP and EVT registers, and the telemetry commands (R455 to R479). -/

namespace Sys2Proof.Machine

/-- Change the sweep registers. -/
def State.updSwp (s : State) (f : SwpSt → SwpSt) : State := { s with swp := f s.swp }

/-! ### Dumps (R460 to R463) -/

/-- The four counters of a policer. -/
def Policer.ctrs (x : Policer) : List Byte := le 8 x.green.toNat ++ le 8 x.yellow.toNat ++ le 8 x.red.toNat ++ le 8 x.redDrops.toNat

/-- `m` counters of each of `n` instances, 0 for those that do not exist (R461). -/
def instBytes (t : Tab Ctr) (n m : Nat) (there : Nat → Bool) : List Byte :=
  (List.range n).flatMap (fun i => if there i then ctrBytes t (m * i) m else le (8 * m) 0)

/-- The counters of a group, and how many instances of how many counters they are. -/
def State.sweepGroup (s : State) (g : Nat) : Nat × Nat × List Byte :=
  match g with
  | 0 => (512, 22, instBytes s.tel.portCtr 512 22 s.portActive)
  | 1 => (16, 13, ctrBytes s.tel.prismCtr 0 208)
  | 2 => (16, 3072, ctrBytes s.prism.hits 0 49152)
  | 3 => (1, 25, ctrBytes s.fwd.ctr 0 25)
  | 4 => (1, 22, ctrBytes s.buf.ctr 0 22)
  | 5 => (1, 15, ctrBytes s.fab.ctr 0 15)
  | 6 => (1, 13, ctrBytes s.sched.ctr 0 13)
  | 7 => (131072, 4, (List.range 131072).flatMap (fun n => (s.policer n).ctrs))
  | 8 => (512, 9, instBytes s.tel.timeCtr 512 9 s.portActive)
  | 9 => (1, 13, ctrBytes s.tel.redCtr 0 13)
  | 10 => (1, 16, ctrBytes s.leaven.ctr 0 16)
  | 11 => (1, 21, ctrBytes s.proof.ctr 0 21)
  | 12 => (2, 8, instBytes s.tel.mbxCtr 2 8 s.fnExists)
  | 13 => (548, 64, instBytes s.tel.drops 548 64 (fun p => decide (512 ≤ p) || s.portActive p))
  | 14 => (64, 4, ctrBytes s.tel.mirCtr 0 256)
  | _ => (1, 6, ctrBytes s.tel.ctr 0 6)

/-- A group header and its block. -/
def State.sweepBlock (s : State) (g : Nat) : List Byte :=
  let x := s.sweepGroup g
  le 1 g ++ le 1 0 ++ le 2 x.2.1 ++ le 4 x.1 ++ le 4 (8 * x.1 * x.2.1) ++ le 4 0 ++ x.2.2

/-- Length of a dump: header, group headers and blocks, padded to 64 bytes. -/
def dumpLen (blocks : List Byte) : Nat := ceilDiv (64 + blocks.length) 64 * 64

/-- The dump of the sweep with sequence `seq`. -/
def State.sweepDump (s : State) (seq : Nat) (demand : Bool) : List Byte :=
  let b := (bitList 16 s.swp.groups).flatMap s.sweepBlock
  let n := dumpLen b
  padTo n (le 4 0x57534C4E ++ le 2 1 ++ le 2 64 ++ le 4 n ++ le 4 s.mbx.boots ++ le 8 seq ++ le 8 s.time.sec ++ le 4 s.time.ns
    ++ le 2 s.swp.groups ++ le 1 (b2n demand + 2 * b2n (s.time.state != .locked) + 4 * b2n s.swp.restarted) ++ le 1 0
    ++ le 4 s.swp.missed ++ le 4 s.bake.epoch ++ le 2 s.swp.slicesReset ++ le 14 0 ++ b)

/-- A sweep that is not written: counted, and reported at most once a minute (R463). -/
def State.sweepMissed (s : State) (cause : Nat) : State :=
  let t := (s.updSwp (fun w => { w with missed := w.missed + 1 })).bumpTel 1 1
  t.raiseLimited 0x1002 sevWarning 0 60000000000 (le 4 t.swp.missed ++ le 1 cause)

/-- Take a sweep now: its dump is latched, or missed for want of room. -/
def State.takeSweep (s0 : State) (demand : Bool) : State :=
  let s := s0.fecAll
  let t := s.updSwp (fun w => { w with taken := w.taken + 1 })
  let d := t.sweepDump s.swp.taken demand
  if 2 ^ s.swp.k < d.length then (t.updSwp (fun w => { w with full := true, tooLarge := true })).sweepMissed 2
  else if 2 ^ s.swp.k - (s.swp.tail - s.swp.head) < d.length then (t.updSwp (fun w => { w with full := true })).sweepMissed 1
  else t.updSwp (fun w => { w with dump := some d, missed := 0, slicesReset := 0, restarted := false })

/-- SWEEP_INSTANT: a multiple of the period; not taken while a dump is being written. -/
def State.sweepInstant (s : State) : State :=
  if s.swp.enable = false ∨ s.swp.period = 0 then s
  else if s.swp.dump.isSome then s.sweepMissed 0
  else s.takeSweep false

def execSweepInstant (s : State) : Host.Outcome State Fault Refusal := .next s.sweepInstant

/-- A dump in a byte ring of 2^k bytes: one host write, or two where it wraps. -/
def ringWrites (base k tail : Nat) (d : List Byte) : List Output :=
  let o := tail % 2 ^ k
  let a := d.take (2 ^ k - o)
  let b := d.drop (2 ^ k - o)
  if b.isEmpty then [.hostWrite 0 (base + o) a] else [.hostWrite 0 base b, .hostWrite 0 (base + o) a]

/-- Sequence of the dump being written. -/
def dumpSeq (d : List Byte) : Nat := rd d 16 8

/-- SWEEP_DUMP_WRITTEN: the tail advances, source 177 is set, and a SNAP that waited is taken. -/
def State.dumpWritten (s : State) : State :=
  match s.swp.dump with
  | none => s
  | some d =>
    let t := { s with out := ringWrites s.swp.base.toNat s.swp.k s.swp.tail d ++ s.out }
    let u := ((t.updSwp (fun w =>
      { w with dump := none, tail := w.tail + d.length, lastSeq := dumpSeq d, snapDue := false })).bumpTel 0 1).interrupt 177
    if s.swp.snapDue then u.takeSweep true else u

def execSweepDumpWritten (s : State) : Host.Outcome State Fault Refusal := .next s.dumpWritten

/-! ### SWP registers (R464) -/

/-- SNAP: a sweep at once, or once the dump in progress is written. -/
def State.snap (s : State) : State :=
  if s.swp.enable = false then s
  else if s.swp.dump.isSome then s.updSwp (fun w => { w with snapDue := true })
  else s.takeSweep true

/-- A write of SWP_CTRL: ENABLE, RING_RESET with ENABLE 0, SNAP. -/
def State.writeSwpCtrl (s : State) (v : Nat) : State :=
  let t := s.updSwp (fun w => { w with enable := bit v 0 })
  let u := if bit v 2 ∧ ¬ bit v 0 then t.updSwp (fun w => { w with head := 0, tail := 0 }) else t
  if bit v 1 then u.snap else u

/-- A write of SWP_LOUPE_CTRL. -/
def State.writeLoupeCtrl (s : State) (v : Nat) : State :=
  let t := s.updSwp (fun w => { w with lEnable := bit v 0 })
  if bit v 2 ∧ ¬ bit v 0 then t.updSwp (fun w => { w with lHead := 0, lTail := 0 }) else t

/-- SWP_CTRL as a row with command bit `b` writes it. -/
def execSweepSnap (fn : Nat) (w : BitVec 64) (s : State) : Host.Outcome State Fault Refusal :=
  onRegister s fn 0 0xC0000 8 (s.writeSwpCtrl (setBit w.toNat 1))

def execSweepRingReset (fn : Nat) (loupe : Bool) (w : BitVec 64) (s : State) : Host.Outcome State Fault Refusal :=
  if loupe then onRegister s fn 0 0xC0100 8 (s.writeLoupeCtrl (setBit w.toNat 2))
  else onRegister s fn 0 0xC0000 8 (s.writeSwpCtrl (setBit w.toNat 2))

/-- A head takes a count from the one it holds up to the tail. -/
def headOk (head tail v : Nat) : Bool := decide (head ≤ v) && decide (v ≤ tail)

/-- A write of SWP_RING_HEAD or SWP_LOUPE_HEAD. -/
def State.writeSwpHead (s : State) (v : Nat) : State :=
  s.updSwp (fun w => if headOk w.head w.tail v then { w with head := v } else w)
def State.writeLoupeHead (s : State) (v : Nat) : State :=
  s.updSwp (fun w => if headOk w.lHead w.lTail v then { w with lHead := v } else w)

def execSweepHeadWrite (fn : Nat) (loupe : Bool) (w : BitVec 64) (s : State) : Host.Outcome State Fault Refusal :=
  if loupe then onRegister s fn 0 0xC0120 8 (s.writeLoupeHead w.toNat)
  else onRegister s fn 0 0xC0030 8 (s.writeSwpHead w.toNat)

/-! ### EVT registers (R470, R471) -/

/-- Write one held event. -/
def EvDone.then1 (d : EvDone) (e : EvEntry) : EvDone :=
  let x := d.st.write e
  { st := x.st, writes := x.writes ++ d.writes, moved := d.moved || x.moved, lost := d.lost + x.lost }

/-- Losses of `a`, then those of `b`, as one count. -/
def EvtSt.joinLost (a b : EvtSt) : EvtSt :=
  if b.lost = 0 then a
  else { a with lost := a.lost + b.lost, lostFirst := if a.lost = 0 then b.lostFirst else a.lostFirst, lostLast := b.lostLast }

/-- The ring is enabled: the held events are written first; those lost behind them stay counted. -/
def EvtSt.enableRing (v : EvtSt) : EvDone :=
  let d := v.held.foldl EvDone.then1 { st := { v with enable := true, held := [], lost := 0 }, writes := [], moved := false, lost := 0 }
  { d with st := d.st.joinLost v }

/-- A marker for the losses, once an entry beside the reserved one is free. -/
def EvtSt.flushLost (v : EvtSt) (sec ns : Nat) : EvDone :=
  if v.enable ∧ v.lost ≠ 0 ∧ 2 ≤ v.room then
    let m := v.put (v.marker v.lost v.lostFirst v.lostLast sec ns).bytes
    { st := { m.1 with lost := 0, marked := false }, writes := m.2, moved := true, lost := 0 }
  else { st := v, writes := [], moved := false, lost := 0 }

/-- What the event log has done becomes part of the state: host writes, losses counted, source 176. -/
def State.evDone (s : State) (d : EvDone) : State :=
  let h := s.host.setPendingIf d.moved s.ident.bifurcated 176
  { s with evt := d.st, tel := { s.tel with ctr := Tab.bump s.tel.ctr 3 d.lost }, host := h.1, out := h.2 ++ d.writes ++ s.out }

/-- Markers due are written. -/
def State.evFlush (s : State) : State := s.evDone (s.evt.flushLost s.time.sec s.time.ns)

/-- A write of EVT_CTRL. -/
def State.writeEvtCtrl (s : State) (v : Nat) : State :=
  let e := { s.evt with minSev := bits v 5 4 }
  if bit v 0 then
    if s.evt.enable then { s with evt := e } else (s.evDone e.enableRing).evFlush
  else { s with evt := if bit v 1 then { e with enable := false, head := 0, tail := 0, marked := false } else { e with enable := false } }

def execEvtRingReset (fn : Nat) (w : BitVec 64) (s : State) : Host.Outcome State Fault Refusal :=
  onRegister s fn 0 0xE0000 8 (s.writeEvtCtrl (setBit w.toNat 1))

def execEvtEnableWrite (fn : Nat) (w : BitVec 64) (s : State) : Host.Outcome State Fault Refusal :=
  onRegister s fn 0 0xE0000 8 (s.writeEvtCtrl w.toNat)

/-- A write of EVT_RING_HEAD, which may make room for a marker. -/
def State.writeEvtHead (s : State) (v : Nat) : State :=
  if headOk s.evt.head s.evt.tail v then (State.evFlush { s with evt := { s.evt with head := v } }) else s

def execEvtHeadWrite (fn : Nat) (w : BitVec 64) (s : State) : Host.Outcome State Fault Refusal :=
  onRegister s fn 0 0xE0020 8 (s.writeEvtHead w.toNat)

/-! ### Mirror commands (R472 to R474, R478) -/

/-- Drop reasons that a mirror session may select (R458). -/
def mirrorReasons : List Nat := [1, 3, 7, 8, 9, 10, 11, 12, 13, 14, 15, 17, 18, 19, 20, 21, 22, 26, 28, 30, 31]

/-- The session of a request, keeping its sequence. -/
def mirrorFrom (p : List Byte) (seq : Nat) : Mirror :=
  { enable := bit (rd p 3 1) 0, mode := rd p 1 1, cls := rd p 2 1, dest := rd p 4 2, trunc := rd p 6 2, interval := rd p 8 4,
    vlan := rd p 12 2, udp := rd p 14 2, dscp := rd p 16 1, ttl := rd p 17 1, dmac := rdBe p 20 6, smac := rdBe p 26 6,
    src := slice p 32 16, dst := slice p 48 16, dropMask := rd p 64 8, seq }

/-- The fields of an enabled session, and the outer headers' fields in the modes that have them, are tested (R523). -/
def checkTelSetMirror (p : List Byte) (s : State) : Option (Nat × Nat) :=
  let m := mirrorFrom p 0
  need 0x1001 (decide (rd p 0 1 ≤ 63) && decide (rd p 3 1 ≤ 1) && resv p 18 2 && (!m.enable
    || (decide (m.mode ≤ 4) && decide (m.cls ≤ 7) && !(s.classCfg m.cls).lossless
    && (decide (512 ≤ m.dest) && decide (m.dest ≤ 515) || s.portActive m.dest)
    && (m.trunc == 0 || (decide (64 ≤ m.trunc) && decide (m.trunc ≤ 9216))) && decide (m.interval ≤ 16777216)
    && (m.mode == 0 || (decide (m.dest ≤ 511) && decide (m.vlan ≤ 4094) && decide (m.dscp ≤ 63)))
    && (decide (m.mode ≤ 2) || m.udp != 0) && (bitList 64 m.dropMask).all mirrorReasons.contains)))
def applyTelSetMirror (p : List Byte) (s : State) : State :=
  { s with tel := { s.tel with
    mirrors := Tab.upd Mirror.init s.tel.mirrors (rd p 0 1) (fun m => mirrorFrom p m.seq) } }
def telSetMirrorBody : Body := setCmd 0x1001 checkTelSetMirror applyTelSetMirror

/-- A session number, or 0xFF for none. -/
def sessionOk (n : Nat) : Bool := decide (n ≤ 63) || n == 0xFF
def checkTelSetPortMirror (p : List Byte) (s : State) : Option (Nat × Nat) :=
  need 0x1001 ((decide (512 ≤ rd p 0 2) && decide (rd p 0 2 ≤ 515) || s.portActive (rd p 0 2)) && sessionOk (rd p 2 1)
    && sessionOk (rd p 3 1))
def applyTelSetPortMirror (p : List Byte) (s : State) : State :=
  s.updPort (rd p 0 2) (fun q => { q with mirIn := rd p 2 1, mirEg := rd p 3 1 })
def telSetPortMirrorBody : Body := setCmd 0x1002 checkTelSetPortMirror applyTelSetPortMirror

def telGetMirrorBody : Body := readCmd (fun r s =>
  if rd r.payload 0 1 ≤ 63 then Resp.ok (ctrBytes s.tel.mirCtr (4 * rd r.payload 0 1) 4) else Resp.err stBadArg 0x1001)
def telGetDropsBody : Body := readCmd (fun r s =>
  if s.argAnyPort r.payload then Resp.ok (ctrBytes s.tel.drops (64 * rd r.payload 0 2) 64) else Resp.err stBadArg 0x1001)
def telGetCountersBody : Body := readCmd (fun _ s => Resp.ok (ctrBytes s.tel.ctr 0 6))

def execTelSetMirror (r : Req) (s : State) : Host.Outcome State Fault Refusal := mailboxCommand 0x1001 telSetMirrorBody r s
def execTelSetPortMirror (r : Req) (s : State) : Host.Outcome State Fault Refusal :=
  mailboxCommand 0x1002 telSetPortMirrorBody r s
def execTelGetMirror (r : Req) (s : State) : Host.Outcome State Fault Refusal := mailboxCommand 0x1003 telGetMirrorBody r s
def execTelGetDrops (r : Req) (s : State) : Host.Outcome State Fault Refusal := mailboxCommand 0x1004 telGetDropsBody r s
def execTelGetCounters (r : Req) (s : State) : Host.Outcome State Fault Refusal :=
  mailboxCommand 0x1005 telGetCountersBody r s

end Sys2Proof.Machine
end

