-- ==== Sys2Proof/Machine/Time.lean ====
section
/-! DEFINITION. The time base's captures and states, the two-step FIFOs, the PPS pins, gate events, and the time and gate
commands that need no bake (R214 to R246). What adjusts the time base stands in Clock. -/

namespace Sys2Proof.Machine

/-! ### States (R216) -/

/-- Change the time base. -/
def State.updTime (s : State) (f : TimeBase → TimeBase) : State := { s with time := f s.time }

/-- Enter a state: TIME_STATE, a warning on entry to HOLDOVER. -/
def State.setTimeState (s : State) (x : TbState) : State :=
  if s.time.state = x then s
  else (s.updTime (fun t => { t with state := x })).raise 0x0801 (if x = .holdover then sevWarning else sevInfo)
    (le 1 x.code ++ le 1 s.time.state.code)

/-- The time source is lost: LOCKED goes to HOLDOVER. -/
def State.sourceLost (s : State) : State :=
  let t := s.updTime (fun t => { t with goodIntervals := 0 })
  if s.time.state = .locked then t.setTimeState .holdover else t

/-- The latched form of the time: seconds with the fraction above them, nanoseconds (R219). -/
def TimeBase.latched (t : TimeBase) : BitVec 64 × BitVec 64 :=
  (BitVec.ofNat 64 (t.sec + 2 ^ 48 * t.frac16), BitVec.ofNat 64 t.ns)

/-- TIME_CAPTURE (R219). -/
def execTimeCapture (fn : Nat) (s : State) : Host.Outcome State Fault Refusal :=
  onRegister s fn 0 0xF0000 8 (s.updTime (fun t => { t with latchSec := t.latched.1, latchNs := t.latched.2 }))

/-! ### The two-step FIFO (R225 to R229) -/

/-- TXTS_POP: ignored on an empty FIFO and while Moaras owns it. -/
def execTxtsPop (fn slice : Nat) (s : State) : Host.Outcome State Fault Refusal :=
  if 16 ≤ slice then .fault (.noSuchUnit "slice")
  else onRegister s fn 0 (0xF1020 + 0x40 * slice) 8
    (if s.fifoMoaras slice then s else s.updTsFifo slice (fun f => { f with entries := f.entries.drop 1 }))

/-- An entry that Moaras takes: its own, or TS_TX_RELAY (R226). -/
def State.relayEntry (s : State) (e : TsEntry) : State :=
  if 1 ≤ (s.port e.port).ptp.role ∧ (s.port e.port).ptp.role ≤ 3 then s.ptpSent e.port e.msgType e.ptpSeq (e.sec, e.ns, e.frac)
  else s.raise 0x0806 sevInfo (le 2 e.port ++ le 2 e.seq ++ le 1 e.msgType ++ le 1 e.domain ++ le 1 e.sdoId ++ le 2 e.ptpSeq
    ++ le 8 e.sec ++ le 4 e.ns ++ le 2 e.frac)

/-- TS_FIFO_RELAY: Moaras takes every entry of a FIFO it owns. -/
def execTsFifoRelay (slice : Nat) (s : State) : Host.Outcome State Fault Refusal :=
  if 16 ≤ slice then .fault (.noSuchUnit "slice")
  else if s.fifoMoaras slice = false then .next s
  else .next ((s.tsFifo slice).entries.foldl State.relayEntry (s.updTsFifo slice (fun f => { f with entries := [] })))

/-! ### PPS pins (R230, R231) -/

/-- PPS_IN_TIMEOUT: 1.5 s without an edge since the last one; during a failover the state of the time base stays (R266). -/
def execPpsInTimeout (s : State) : Host.Outcome State Fault Refusal :=
  let t := (s.updTime (fun t => { t with ppsInValid := false })).raise 0x0804 sevWarning []
  .next (if s.time.ppsInValid = false then s else if s.ptp.source = 1 ∧ s.pwr.failing = none then t.sourceLost else t)

/-- PPS_OUT_EDGE: the pin rises while it is enabled and the time base is set or need not be. -/
def execPpsOutEdge (s : State) : Host.Outcome State Fault Refusal :=
  .next (s.updTime (fun t => { t with ppsOut := t.ppsEnable && (t.state != .unset || t.ppsUnset) }))

/-- PPS_OUT_FALL: the pulse width has elapsed. -/
def execPpsOutFall (s : State) : Host.Outcome State Fault Refusal :=
  .next (s.updTime (fun t => { t with ppsOut := false }))

/-- TIME_SLEW_COMPLETE: what is left of the offset is absorbed, and no slew is in progress. -/
def execTimeSlewComplete (s : State) : Host.Outcome State Fault Refusal :=
  .next (s.updTime (fun t => { t.shift t.slewLeft with slewLeft := 0 }))

/-- The parent is heard no more. -/
def State.dropParent (s : State) : State :=
  match s.parent with
  | some x => s.updPtp x.1 (fun q => { q with foreign := q.foreign.filter (fun f => msgSender f.ann != msgSender x.2) })
  | none => s

/-- PTP_ANNOUNCE_TIMEOUT: the announce receipt timeout of the network source; nothing is noticed during a failover (R266). -/
def execPtpAnnounceTimeout (s : State) : Host.Outcome State Fault Refusal :=
  .next (if s.pwr.failing.isSome then s else if s.ptp.source = 0 then s.dropParent.sourceLost else s.dropParent)

/-! ### Gates (R236, R241) -/

/-- GATE_EVENT: the gates of a port take the states of the current entry. -/
def execGateEvent (port : Nat) (s : State) : Host.Outcome State Fault Refusal :=
  if 512 ≤ port then .fault (.noSuchUnit "network port")
  else .next (s.updGate port (fun g => { g with now := g.oper.statesAt s.time.units }))

/-- The admin list of a staged set within R234. -/
def checkGateSetList (p : List Byte) (_ : State) : Option (Nat × Nat) :=
  let n := rd p 2 2
  need 0x0802 (decide (rd p 0 2 ≤ 511) && decide (n ≤ 256) && resv p 5 3 && resv p 28 4
    && (n == 0 || (decide (1000 ≤ rd p 8 8) && decide (rd p 8 8 ≤ 10000000000) && decide (rd p 16 8 < 2 ^ 48)
      && decide (rd p 24 4 ≤ 999999999)))
    && (List.range n).all (fun i => resv p (33 + 8 * i) 3 && decide (8 ≤ rd p (36 + 8 * i) 4)))

/-- Queued frames of a class that a new list no longer gates are still stored whole (R244). -/
def State.storeFreed (s : State) (p : Nat) (g : GateList) : State :=
  { s with pkts := s.pkts.map (fun (x : Nat × Pkt) =>
      (x.1, if x.2.dests.contains p && s.gated p x.2.tc && !g.gates x.2.tc then { x.2 with stored := true } else x.2)) }

/-- At its bake the admin list becomes the operational one; a gate reset follows (R241, R243). -/
def applyGateSetList (p : List Byte) (s : State) : State :=
  let q := rd p 0 2
  let t := s.storeFreed q (gateListOf p)
  ((t.updGate q (fun g => { g with oper := gateListOf p, changes := (g.changes + 1) % 2 ^ 32 })).bumpTime q 8 1).gateReset q
def gateSetListBody : Body := setCmd 0x0806 checkGateSetList applyGateSetList

/-- Classes whose head frame a window holds. -/
def State.heldClasses (s : State) (p : Nat) : Nat :=
  ((List.range 8).map (fun c => if (s.portQueues p).any (fun k => voqClass k == c && s.gated p c &&
    (match (s.egq k).find? (fun i => !i.started) with
      | some i => i.complete && !s.gateFits p c ((s.pkt i.pkt).outLen p)
      | none => false)) then 2 ^ c else 0)).sum

/-- Longest open window of a class as a status carries it. -/
def GateList.longestField (g : GateList) (c : Nat) : Nat :=
  if g.gates c then (g.longest c).getD (2 ^ 64 - 1) else 2 ^ 64 - 1

def gateGetStatusBody : Body := readCmd (fun r s =>
  let p := rd r.payload 0 2
  let g := (s.gate p).oper
  if s.argPort r.payload then
    Resp.ok (le 2 g.entries.length ++ le 2 (if g.entries.isEmpty then 0 else g.entryAt s.time.units) ++ le 1 g.mask
      ++ le 1 (s.gate p).now ++ le 1 (s.heldClasses p) ++ le 1 0 ++ le 8 g.cycle ++ le 8 g.baseSec ++ le 4 g.baseNs
      ++ le 4 (s.gate p).changes ++ (List.range 8).flatMap (fun c => le 8 (g.longestField c)))
  else Resp.err stBadArg 0x0802)

/-! ### Time commands (R245) -/

def timeGetBody : Body := readCmd (fun _ s =>
  let t := s.time
  Resp.ok (le 8 t.sec ++ le 4 t.ns ++ le 2 t.frac16 ++ le 1 t.state.code
    ++ le 1 (b2n (t.slewLeft != 0) + 2 * b2n t.ppsInValid) ++ le 8 t.incr ++ le 4 t.stepCount ++ le 4 0))

def checkTimeSetPtp (p : List Byte) (_ : State) : Option (Nat × Nat) :=
  need 0x0801 (decide (rd p 0 1 ≤ 3) && resv p 10 2
    && (rd p 0 1 == 0 || (decide (-7 ≤ rdI p 4 1) && decide (rdI p 4 1 ≤ 4) && decide (0 ≤ rdI p 5 1) && decide (rdI p 5 1 ≤ 4)
      && decide (2 ≤ rd p 6 1) && decide (rd p 6 1 ≤ 10) && decide (rd p 7 1 ≤ 1) && decide (1 ≤ rd p 8 2)
      && decide (rd p 8 2 ≤ 1000))))
def applyTimeSetPtp (p : List Byte) (s : State) : State :=
  { s with ptp :=
    { profile := rd p 0 1, domain := rd p 1 1, prio1 := rd p 2 1, prio2 := rd p 3 1, logSync := rdI p 4 1,
      logAnnounce := rdI p 5 1, announceTimeout := rd p 6 1, source := rd p 7 1, lockNs := rd p 8 2 } }
def timeSetPtpBody : Body := setCmd 0x0803 checkTimeSetPtp applyTimeSetPtp

def checkTimeSetPort (p : List Byte) (s : State) : Option (Nat × Nat) :=
  need 0x0801 (s.argPort p && decide (rd p 2 1 ≤ 4) && decide (rd p 3 1 ≤ 2) && decide ((rdI p 4 4).natAbs ≤ 1000000)
    && decide ((rdI p 8 4).natAbs ≤ 1000000) && resv p 12 4)
/-- A FIFO that Moaras comes to own loses the entries the host has not popped (R245). -/
def State.takeFifo (s : State) (before : Bool) (sl : Nat) : State :=
  if s.fifoMoaras sl && !before then s.updTsFifo sl (fun f => { f with entries := [] }) else s
/-- A port in a role: a new role starts the protocol anew. -/
def PortPtp.inRole (q : PortPtp) (role : Nat) : PortPtp :=
  if role = q.role then q
  else { q with role, rx := [], foreign := [], syncIn := none, ms := none, reqTx := none, respIn := none, replyTo := none,
                relay := none }
def applyTimeSetPort (p : List Byte) (s : State) : State :=
  let q := rd p 0 2
  (s.updPtp q (fun x => { x.inRole (rd p 2 1) with
      tsMode := rd p 3 1, ingCorr := rdI p 4 4, egCorr := rdI p 8 4 })).takeFifo (s.fifoMoaras (q / 32))
    (q / 32)
def timeSetPortBody : Body := setCmd 0x0804 checkTimeSetPort applyTimeSetPort

def checkTimeSetPps (p : List Byte) (_ : State) : Option (Nat × Nat) :=
  need 0x0801 (decide (rd p 0 1 ≤ 1) && decide (rd p 1 1 ≤ 1) && resv p 2 2
    && (rd p 0 1 == 0 || (decide (-500000000 ≤ rdI p 4 4) && decide (rdI p 4 4 ≤ 499999999) && decide (1 ≤ rd p 8 4)
      && decide (rd p 8 4 ≤ 500000))))
def applyTimeSetPps (p : List Byte) (s : State) : State :=
  s.updTime (fun t => { t with ppsEnable := rd p 0 1 == 1, ppsUnset := bit (rd p 1 1) 0, ppsOffset := rdI p 4 4,
                               ppsWidth := rd p 8 4,
                               ppsOut := t.ppsOut && rd p 0 1 == 1 && (t.state != .unset || bit (rd p 1 1) 0) })
def timeSetPpsBody : Body := setCmd 0x0805 checkTimeSetPps applyTimeSetPps

def timeGetCountersBody : Body := readCmd (fun r s =>
  if s.argPort r.payload then Resp.ok (ctrBytes s.tel.timeCtr (9 * rd r.payload 0 2) 9) else Resp.err stBadArg 0x0801)

def execTimeGet (r : Req) (s : State) : Host.Outcome State Fault Refusal := mailboxCommand 0x0801 timeGetBody r s
def execTimeSetPtp (r : Req) (s : State) : Host.Outcome State Fault Refusal := mailboxCommand 0x0803 timeSetPtpBody r s
def execTimeSetPort (r : Req) (s : State) : Host.Outcome State Fault Refusal := mailboxCommand 0x0804 timeSetPortBody r s
def execTimeSetPps (r : Req) (s : State) : Host.Outcome State Fault Refusal := mailboxCommand 0x0805 timeSetPpsBody r s
def execGateSetList (r : Req) (s : State) : Host.Outcome State Fault Refusal := mailboxCommand 0x0806 gateSetListBody r s
def execGateGetStatus (r : Req) (s : State) : Host.Outcome State Fault Refusal := mailboxCommand 0x0807 gateGetStatusBody r s
def execTimeGetCounters (r : Req) (s : State) : Host.Outcome State Fault Refusal :=
  mailboxCommand 0x0808 timeGetCountersBody r s

end Sys2Proof.Machine
end

