-- ==== Sys2Proof/Machine/BakeBase.lean ====
section
/-! DEFINITION. What a bake is made of: the rule of each staged command, CHECK, preparation, its removal, and the switch at the
instant (R406 to R418). -/

namespace Sys2Proof.Machine

/-! ### Domain ports (R423, R433) -/

def checkDomSetPort (p : List Byte) (s : State) : Option (Nat × Nat) :=
  if s.portActive (rd p 0 2) && decide (rd p 2 1 ≤ 1) && resv p 3 1 then none else some (stBadArg, dNone)
def applyDomSetPort (p : List Byte) (s : State) : State :=
  s.updPort (rd p 0 2) (fun q => { q with domainPort := rd p 2 1 == 1 })

/-- A peer that DOM_ADMIT removes: of an enrolled one the session stays until its END_SESSION is confirmed or has failed (R425,
R453). -/
def Peer.removed (e : Peer) : Peer :=
  if e.enrolled || e.leaving then
    { e with admitted := false, hash := [], enrolled := false, present := false, misses := 0, epoch := 0, awaitAck := false, changes := [],
             leaving := true }
  else Peer.init

/-- Admit or remove a worker (R422). -/
def applyDomAdmit (p : List Byte) (s : State) : State :=
  s.updPeer (rd p 0 1) (fun e => if rd p 1 1 = 0 then { e with admitted := true, hash := slice p 4 32 } else e.removed)

/-- Lane maps and polarity masks of a group. -/
def applyLaneMap (p : List Byte) (s : State) : State :=
  s.updGroup (rd p 0 2) (fun g => { g with txMap := chunks 1 (slice p 4 8), rxMap := chunks 1 (slice p 12 8), txPol := rd p 20 1,
                                           rxPol := rd p 21 1 })

/-! ### The rule of each command -/

/-- How a staged command is checked, and what it does at the instant. -/
structure BakeRule where
  check : List Byte → State → Option (Nat × Nat)
  apply : List Byte → State → State

/-- A Prism write as CHECK sees it: into the bank that is current after the instant. -/
def virtPrism (op : Nat) (p : List Byte) (s : State) : State :=
  { s with prism := s.prism.updBank s.prism.epoch (fun k => k.putStaged { op, payload := p }) }

/-- No violation. -/
def noCheck (_ : List Byte) (_ : State) : Option (Nat × Nat) := none

/-- The rules of the staged commands of ranges 0x02 to 0x04. -/
def ruleLow (op : Nat) : Option BakeRule :=
  match op with
  | 0x0201 => some ⟨checkPortSetMode, applyPortSetMode⟩
  | 0x0203 => some ⟨checkPortSetMac, applyPortSetMac⟩
  | 0x0204 => some ⟨checkPortSetFlow, applyPortSetFlow⟩
  | 0x0205 => some ⟨fun p s => (checkPortSetThrottle p { s with gates := [] }), applyPortSetThrottle⟩
  | 0x0206 => some ⟨checkPortSetEee, applyPortSetEee⟩
  | 0x0207 => some ⟨noCheck, applyLaneMap⟩
  | 0x020A => some ⟨checkPortSetAdmin, applyPortSetAdmin⟩
  | 0x020B => some ⟨checkPortSetMargin, applyPortSetMargin⟩
  | 0x0301 => some ⟨checkPrismSetProfile, virtPrism 0x0301⟩
  | 0x0302 => some ⟨checkPrismSetSelect, virtPrism 0x0302⟩
  | 0x0303 => some ⟨checkPrismSetPort, virtPrism 0x0303⟩
  | 0x0304 => some ⟨checkPrismWriteRule, virtPrism 0x0304⟩
  | 0x0401 => some ⟨checkInsert, fun p s => (s.liveInsert (insOf p)).1⟩
  | 0x0402 => some ⟨checkFwdDelete, applyFwdDelete⟩
  | 0x0404 => some ⟨checkFwdSetVlan, applyFwdSetVlan⟩
  | 0x0405 => some ⟨checkFwdSetRoute, applyFwdSetRoute⟩
  | 0x0406 => some ⟨checkFwdSetNexthop, applyFwdSetNexthop⟩
  | 0x0407 => some ⟨checkFwdSetEcmp, applyFwdSetEcmp⟩
  | 0x0408 => some ⟨checkFwdSetTemplate, applyFwdSetTemplate⟩
  | 0x0409 => some ⟨checkFwdSetRouter, applyFwdSetRouter⟩
  | 0x040A => some ⟨checkFwdSetLearn, applyFwdSetLearn⟩
  | 0x040B => some ⟨checkFwdSetAging, applyFwdSetAging⟩
  | _ => none

/-- The rules of the staged commands of ranges 0x05 to 0x08. -/
def ruleMid (op : Nat) : Option BakeRule :=
  match op with
  | 0x0501 => some ⟨checkBufSetClass, applyBufSetClass⟩
  | 0x0502 => some ⟨checkBufSetPortClass, applyBufSetPortClass⟩
  | 0x0503 => some ⟨checkBufSetHeadroom, applyBufSetHeadroom⟩
  | 0x0504 => some ⟨checkBufSetPfcTx, applyBufSetPfcTx⟩
  | 0x0505 => some ⟨checkBufSetWredProfile, applyBufSetWredProfile⟩
  | 0x0506 => some ⟨checkBufSetQueue, applyBufSetQueue⟩
  | 0x0601 => some ⟨checkFabSetParams, applyFabSetParams⟩
  | 0x0602 => some ⟨checkFabSetPort, applyFabSetPort⟩
  | 0x0701 => some ⟨checkSchedSetNode, applySchedSetNode⟩
  | 0x0703 => some ⟨checkPolSet, applyPolSet⟩
  | 0x0705 => some ⟨checkPolSetPort, applyPolSetPort⟩
  | 0x0706 => some ⟨checkLoupeSetProfile, applyLoupeSetProfile⟩
  | 0x0707 => some ⟨checkLoupeSetQueue, applyLoupeSetQueue⟩
  | 0x0803 => some ⟨checkTimeSetPtp, applyTimeSetPtp⟩
  | 0x0804 => some ⟨checkTimeSetPort, applyTimeSetPort⟩
  | 0x0805 => some ⟨checkTimeSetPps, applyTimeSetPps⟩
  | 0x0806 => some ⟨checkGateSetList, applyGateSetList⟩
  | _ => none

/-- The rules of the staged commands of ranges 0x09 to 0x11, and of the items that only PWR_RESTORE's set holds. -/
def ruleHigh (op : Nat) : Option BakeRule :=
  match op with
  | 0x0901 => some ⟨checkFrerSetStream, applyFrerSetStream⟩
  | 0x0903 => some ⟨checkFrerSetPort, applyFrerSetPort⟩
  | 0x0A01 => some ⟨checkFixSetCluster, applyFixSetCluster⟩
  | 0x0A08 => some ⟨noCheck, applyLeavenSetEvents⟩
  | 0x0B01 => some ⟨checkProofSetClass, applyProofSetClass⟩
  | 0x0B02 => some ⟨checkProofSetTarget, applyProofSetTarget⟩
  | 0x0B05 => some ⟨checkShelfSet, applyShelfSet⟩
  | 0x0B07 => some ⟨checkShelfSetBus, applyShelfSetBus⟩
  | 0x0C02 => some ⟨checkMemSetRegions, applyMemSetRegions⟩
  | 0x0E01 => some ⟨noCheck, applyDomSetPort⟩
  | 0x0E02 => some ⟨noCheck, applyDomAdmit⟩
  | 0x1001 => some ⟨checkTelSetMirror, applyTelSetMirror⟩
  | 0x1002 => some ⟨checkTelSetPortMirror, applyTelSetPortMirror⟩
  | 0x1102 => some ⟨checkPwrSetDroop, applyPwrSetDroop⟩
  | 0x1103 => some ⟨checkPwrSetThermal, applyPwrSetThermal⟩
  | 0x1105 => some ⟨noCheck, fun p s => s.parkNow (rd p 0 1)⟩
  | _ => none

/-- The rule of an opcode. -/
def stageRule (op : Nat) : Option BakeRule :=
  if op < 0x0500 then ruleLow op else if op < 0x0900 then ruleMid op else ruleHigh op

/-- The entry that a key has in the current generation is confined to it. -/
def FwdSt.confine (f : FwdSt) (kt : Nat) (key : List Byte) : FwdSt :=
  match f.entryOf kt key f.gen with
  | some (q, _) => f.updEntry q (fun e => { e with vis := 2 ^ f.gen })
  | none => f

/-- One exact-match change placed for the next generation; none where there is no room (R109, R110). -/
def FwdSt.placeStaged (f : FwdSt) (c : StagedCmd) : Option FwdSt :=
  if c.op = 0x0401 then
    let i := insOf c.payload
    ((f.confine i.kt i.key).insertEntry (i.entry (2 ^ (1 - f.gen)))).map (fun x => x.1)
  else if c.op = 0x0402 then some (f.confine (rd c.payload 0 1) (slice c.payload 4 48))
  else some f

/-! ### CHECK (R410, R411) -/

/-- A failure of CHECK: opcode range, position in the set, opcode and detail. -/
structure Failure where
  range : Nat
  pos : Nat
  op : Nat
  detail : Nat
deriving DecidableEq, Repr

/-- The position given for a rule that no one command breaks. -/
def noPos : Nat := 0xFFFFFFFF

/-- The failure reported of two: by opcode range, then by position (R410). -/
def Failure.before (a b : Failure) : Bool := decide (a.range < b.range) || (a.range == b.range && decide (a.pos ≤ b.pos))

/-- The earlier of two. -/
def earlier : Option Failure → Option Failure → Option Failure
  | none, b => b
  | some a, none => some a
  | some a, some b => if a.before b then some a else some b

/-- The detail CHECK gives for a violation: a table without room is TABLE_FULL, a violation without detail the first detail of
its chapter. -/
def checkDetail (op : Nat) (e : Nat × Nat) : Nat :=
  if e.1 = stNoResource then 0x0402 else if e.2 = dNone then 256 * (op / 256) + 1 else e.2

/-- CHECK in progress: the state with the commands so far, and the failure to report. -/
structure Checking where
  st : State
  bad : Option Failure

/-- One command: checked on the state of those it depends on, then applied to it; a failing one is not applied. Whether a
table is too small shows only after the last command. -/
def Checking.take (a : Checking) (c : StagedCmd × Nat) : Checking :=
  match stageRule c.1.op with
  | none => a
  | some u =>
    match u.check c.1.payload a.st with
    | some e =>
      if e.1 = stNoResource then { a with st := u.apply c.1.payload a.st }
      else { a with bad := earlier a.bad (some ⟨c.1.op / 256, c.2, c.1.op, checkDetail c.1.op e⟩) }
    | none => { a with st := u.apply c.1.payload a.st }

/-- Commands that others of their range are checked against: lane modes and class kinds (R159). -/
def firstOps : List Nat := [0x0201, 0x0501]

/-- Lane modes and class kinds first, then by opcode range, each range in doorbell order. -/
def bakeOrder (l : List StagedCmd) : List (StagedCmd × Nat) :=
  firstOps.flatMap (fun o => l.zipIdx.filter (fun c => c.1.op == o))
    ++ (List.range 18).flatMap (fun n => l.zipIdx.filter (fun c => !firstOps.contains c.1.op && c.1.op / 256 == n))

/-- Lane Throttle, or gating, live or by the set (R54). -/
def State.throttleGated (live after : State) : Bool :=
  (List.range 512).any (fun p => ((live.port p).lt.enable || (after.port p).lt.enable)
    && (live.gatingOn p || after.gatingOn p))

/-- Every valid selection entry points to a valid profile (R78). -/
def PrismBank.selectOk (k : PrismBank) : Bool :=
  k.select.all (fun e => !e.2.valid || (Tab.get Profile.init k.profiles e.2.profile).valid)

/-- A domain port that the set takes down (R411). -/
def State.portLost (live after : State) (p : Nat) : Bool :=
  (live.port p).domainPort && (live.port p).admin && live.portActive p
    && (!after.portActive p || !(after.port p).admin || (live.lane p).mode != (after.lane p).mode)

/-- The enabled domain ports that reach a peer. -/
def State.portsTo (s : State) (i : Nat) : List Nat := (s.peer i).ports.filter (fun p => (s.port p).domainPort)

/-- Peers to which the domain ports matter: present members at the manager, its manager at a worker. -/
def State.nearPeers (s : State) : List Nat :=
  if s.role = 2 then (List.range 64).filter (fun i => (s.peer i).present) else if s.bake.enrolled then [0] else []

/-- Some such peer would be left without an enabled domain port, where `lost` says which go. -/
def State.cutsPeer (s : State) (lost : Nat → Bool) : Bool :=
  s.nearPeers.any (fun i => !(s.portsTo i).isEmpty && (s.portsTo i).all lost)

/-- The set changes the size of an HBM region. -/
def State.setRegions (s : State) (l : List StagedCmd) : Option (List Nat) :=
  match (l.filter (fun c => c.op == 0x0C02)).getLast? with
  | some c => if regionsOf c.payload = s.pwr.regions then none else some (regionsOf c.payload)
  | none => none

/-- A rule on the state after the bake as a whole: its detail, whether it holds, and the commands that bear on it. -/
structure WholeRule where
  detail : Nat
  ok : Bool
  ops : List Nat

/-- The rules on the state after the bake as a whole. -/
def State.wholeRules (live after : State) (cmds : List StagedCmd) (several : Bool) : List WholeRule :=
  [⟨0x0202, !live.throttleGated after, [0x0205, 0x0806]⟩,
   ⟨0x0301, (after.prism.bank after.prism.epoch).selectOk, [0x0301, 0x0302]⟩,
   ⟨0x0401, after.fwd.flowsOk, [0x0401]⟩,
   ⟨0x0402, (after.fwd.tables after.fwd.gen).lpmFits, [0x0405]⟩,
   ⟨0x0402, (after.fwd.tables after.fwd.gen).ecmpFits, [0x0407]⟩,
   ⟨0x0502, after.poolFloorOk, [0x0201, 0x0203, 0x0204, 0x0501, 0x0502, 0x0503]⟩,
   ⟨0x0503, (List.range 512).all after.refreshOk, [0x0201, 0x0504]⟩,
   ⟨0x0903, (after.fwd.tables after.fwd.gen).histOk, [0x0901]⟩,
   ⟨0x0B01, after.locationsOk, [0x0B02]⟩,
   ⟨0x0D07, !(several && (live.setRegions cmds).isSome), [0x0C02]⟩,
   ⟨0x0D08, !live.cutsPeer (live.portLost after), [0x0201, 0x020A]⟩,
   ⟨0x1001, after.tel.mirrors.all (fun m => !m.2.enable || !(after.classCfg m.2.cls).lossless), [0x0501, 0x1001]⟩]

/-- The failure of such a rule: at the last command of the set that bears on it, in its range (log entry 60). -/
def WholeRule.failure (w : WholeRule) (cmds : List StagedCmd) : Failure :=
  match (cmds.zipIdx.filter (fun c => w.ops.contains c.1.op)).getLast? with
  | some c => ⟨c.1.op / 256, c.2, c.1.op, w.detail⟩
  | none => ⟨w.detail / 256, noPos, 0, w.detail⟩

/-- The earliest failure of such a rule. -/
def wholeFailure (cmds : List StagedCmd) (l : List WholeRule) : Option Failure :=
  l.foldl (fun a w => if w.ok then a else earlier a (some (w.failure cmds))) none

/-- Placement as preparation will make it, on the live table: the first command that finds no room (R110). -/
def FwdSt.roomFailure (f : FwdSt) : List (StagedCmd × Nat) → Option Failure
  | [] => none
  | c :: l => match f.placeStaged c.1 with
    | some g => g.roomFailure l
    | none => some ⟨0x04, c.2, c.1.op, 0x0402⟩

/-- CHECK of a set's commands against the live state; `several`: a domain bake with more than one member. -/
def State.checkCmds (s : State) (cmds : List StagedCmd) (several : Bool) : Option Failure :=
  let a := (bakeOrder cmds).foldl Checking.take ⟨{ s with bake := { s.bake with sets := [] } }, none⟩
  earlier a.bad (earlier (s.fwd.roomFailure cmds.zipIdx) (wholeFailure cmds (s.wholeRules a.st cmds several)))

/-! ### Preparation (R86, R109, R113) -/

/-- Whether a command writes a table that the generation covers (R418). -/
def genWrite (c : StagedCmd) : Bool :=
  c.op == 0x0401 || c.op == 0x0402 || (decide (0x0404 ≤ c.op) && decide (c.op ≤ 0x0409)) || c.op == 0x0901

/-- The write of a table held once per generation. -/
def genPut (c : StagedCmd) : GenTables → GenTables :=
  match c.op with
  | 0x0404 => GenTables.putVlan c.payload
  | 0x0405 => GenTables.putRoute c.payload
  | 0x0406 => GenTables.putHop c.payload
  | 0x0407 => GenTables.putEcmp c.payload
  | 0x0408 => GenTables.putTemplate c.payload
  | 0x0409 => GenTables.putRouter c.payload
  | 0x0901 => GenTables.putFrer c.payload
  | _ => id

/-- All of them. -/
def FwdSt.placeAll (f : FwdSt) : List StagedCmd → Option FwdSt
  | [] => some f
  | c :: l => (f.placeStaged c).bind (fun g => g.placeAll l)

/-- The other Prism bank is free and table normalisation has ended (R412 step 2). -/
def State.drained (s : State) : Bool := s.prism.inPrev == 0 && !s.fwd.normPending

/-- A frame number starts at 0 with the first entry of a flow index (R279). -/
def State.newFlows (s : State) (l : List StagedCmd) : State :=
  (l.filter (fun c => c.op == 0x0401)).foldl (fun t c => t.firstFlow (insOf c.payload).kt (insOf c.payload).data) s

/-- The next generation's copies of the tables held once per generation. -/
def FwdSt.nextTables (f : FwdSt) (l : List StagedCmd) : GenTables := l.foldl (fun k c => genPut c k) (f.tables f.gen)

/-- Step 3 of R412: the Prism bank loaded, the entries placed, the next generation's copies written; none where an entry, a
prefix or an ECMP group finds no room. -/
def State.prepare (s : State) (l : List StagedCmd) : Option State :=
  ((s.fwd.placeAll l).filter (fun f => (f.nextTables l).lpmFits && (f.nextTables l).ecmpFits)).map (fun f =>
    let t := s.newFlows l
    let g := f.updGen (1 - f.gen) (fun _ => f.nextTables l)
    let p := if l.any prismWrite then
        { (s.prism.updBank (s.prism.epoch + 1) (fun _ => l.foldl PrismBank.putStaged (s.prism.bank s.prism.epoch))) with
          loaded := true }
      else s.prism
    { t with fwd := g, prism := p })

/-- Prepared state removed (R407): the entries of the next generation go, the others are visible in both again. -/
def FwdSt.unprepare (f : FwdSt) : FwdSt :=
  let old := f.em.filter (fun x => x.2.vis == 2 ^ (1 - f.gen))
  let g := old.foldl (fun h x => h.removeAt x.1) f
  let h := { g with em := g.em.map (fun (x : Nat × EmEntry) => (x.1, { x.2 with vis := 3 })) }
  h.updGen (1 - h.gen) (fun _ => h.tables h.gen)

/-- The prepared state of a set removed. -/
def State.unprepare (s : State) (t : SetSt) : State :=
  if t.state = .armed then
    { s with
      fwd := if t.cmds.any genWrite then s.fwd.unprepare else s.fwd
      prism := { s.prism with loaded := false } }
  else s

/-! ### The instant (R417, R418) -/

/-- The classification epoch advances: the other bank becomes current (R86). -/
def PrismSt.switch (p : PrismSt) : PrismSt :=
  { p with epoch := (p.epoch + 1) % 2 ^ 32, loaded := false, inPrev := p.inCur, inCur := 0 }

/-- The table generation flips; normalisation is still to come (R108, R112). -/
def FwdSt.flip (f : FwdSt) : FwdSt :=
  { f with gen := 1 - f.gen, inGenPrev := f.inGenCur, inGenCur := 0, normPending := true }

/-- What one command does at the instant: Prism and tables have been prepared; a stream record's state restarts as R256
says. -/
def State.bakeCmd (s : State) (c : StagedCmd) : State :=
  if prismWrite c then s
  else if c.op = 0x0901 then s.frerRewrite c.payload (s.frerNow (rd c.payload 0 2))
  else if c.op = 0x0401 then s.nameFlow (insOf c.payload).kt (insOf c.payload).data
  else if genWrite c then s
  else match stageRule c.op with
    | some u => u.apply c.payload s
    | none => s

/-- The shadow takes the values of the set; entries of the exact-match table carry their own mark, and a slice's state says whether
it is parked. -/
def BakeSt.absorb (b : BakeSt) (l : List StagedCmd) : BakeSt :=
  { b with snapshot := (l.filter (fun c => c.op != 0x0401 && c.op != 0x0402 && c.op != 0x1105)).foldl addStaged b.snapshot }

/-- Every block switches; EPOCH_CHANGES counts in each slice that is not parked (R94, R496). -/
def State.switchAll (s : State) (l : List StagedCmd) : State :=
  let a := ((bakeOrder l).map (·.1)).foldl State.bakeCmd
    (if l.any prismWrite then (List.range 16).foldl (fun t sl => t.bumpPrism sl 12 (b2n (!s.sliceParked sl))) s else s)
  { a with
    prism := if l.any prismWrite then a.prism.switch else a.prism
    fwd := if l.any genWrite then a.fwd.flip else a.fwd
    bake := a.bake.absorb l }

/-- The next bake epoch; 0 never denotes a baked state (R418). -/
def nextEpoch (n : Nat) : Nat := n % 0xFFFFFFFF + 1

/-- Table changes of a set (R109, R413). -/
def SetSt.changes (t : SetSt) : Nat := (t.cmds.filter (fun c => tableChange c.op)).length

/-- Lead time in ns of a set with `n` table changes: 1 ms and 0.5 us for each (R413). -/
def leadOf (n : Nat) : Nat := 1000000 + 500 * n

def SetSt.lead (t : SetSt) : Nat := leadOf t.changes

/-- The instant of a set in ns. -/
def SetSt.at' (t : SetSt) : Nat := 1000000000 * t.sec + t.ns

/-- An instant in ns put into a set. -/
def SetSt.setAt (t : SetSt) (n : Nat) : SetSt := { t with sec := n / 1000000000, ns := n % 1000000000 }

/-- The first whole microsecond at least 10 us from now (R413). -/
def State.soon (s : State) : Nat := 1000 * ceilDiv (s.nowNs + b2n (s.time.frac != 0) + 10000) 1000

end Sys2Proof.Machine
end

