-- ==== Sys2Proof/Machine/Der.lean ====
section
/-! DEFINITION. X.509 v3 certificates in DER (R439). The encoding is that of ITU-T X.690, RFC 5280 and RFC 5480, the TcbInfo that of the
TCG's DICE Attestation Architecture (PRESUMED; log entry 116). -/

namespace Sys2Proof.Machine

/-! ### DER -/

/-- The bytes of a number in network order, `n` at most, without leading zeros. -/
def minBytes (n v : Nat) : List Byte := (be n v).dropWhile (· == 0)

/-- The length octets. -/
def derLen (n : Nat) : List Byte := if n < 128 then be 1 n else let b := minBytes 4 n; be 1 (128 + b.length) ++ b

/-- A value under a tag. -/
def der (tag : Nat) (v : List Byte) : List Byte := be 1 tag ++ derLen v.length ++ v

/-- A SEQUENCE, and a SET. -/
def derSeq (l : List (List Byte)) : List Byte := der 0x30 l.flatten
def derSet (l : List (List Byte)) : List Byte := der 0x31 l.flatten

/-- The content of an INTEGER of the natural number that bytes in network order spell: shortest, with a sign bit of 0. -/
def natOctets (l : List Byte) : List Byte :=
  let b := l.dropWhile (· == 0)
  if 128 ≤ (b.headD 0).toNat || b.isEmpty then 0 :: b else b

/-- An INTEGER. -/
def derNat (l : List Byte) : List Byte := der 2 (natOctets l)

/-- An OBJECT IDENTIFIER of encoded arcs. -/
def derOid (l : List Nat) : List Byte := der 6 (l.map (BitVec.ofNat 8))

/-- An octet string, a bit string of whole bytes, a UTF-8 string and TRUE. -/
def derOctets (l : List Byte) : List Byte := der 4 l
def derBits (l : List Byte) : List Byte := der 3 (0 :: l)
def derText (l : List Byte) : List Byte := der 12 l
def derTrue : List Byte := der 1 [0xFF]

/-! ### Names -/

/-- A distinguished name with O=Valvel: common name, device serial number and organisational unit, absent where empty. -/
structure Dn where
  cn : List Byte
  serial : List Byte
  unit : List Byte
deriving DecidableEq, Repr

/-- One attribute of a name: its type's last arc under 2.5.4, its string tag, its value. -/
def derAttr (arc tag : Nat) (v : List Byte) : List Byte := if v.isEmpty then [] else derSet [derSeq [derOid [0x55, 4, arc], der tag v]]

/-- The name, in the order of R439's table; a serialNumber is a PrintableString. -/
def Dn.der (n : Dn) : List Byte :=
  derSeq [derAttr 10 12 (ascii "Valvel"), derAttr 3 12 n.cn, derAttr 5 19 n.serial, derAttr 11 12 n.unit]

/-! ### Certificates -/

/-- A key of the hierarchy: kind 0 the DIK, 1 the alias key of a CDI, 2 the receipt key of a boot, 3 Valvel Root CA, 4 Valvel
Manufacturing CA. -/
structure KeyRef where
  kind : Nat
  num : Nat
deriving DecidableEq, Repr

/-- X and Y of a public key, 48 bytes each. -/
def KeyRef.pub (k : KeyRef) : List Byte := padTo 96 (Config.publicKey k.kind k.num)

/-- r and s of a signature, 48 bytes each. -/
def KeyRef.sign (k : KeyRef) (msg : List Byte) : List Byte := padTo 96 (Config.signature k.kind k.num msg)

/-- The TcbInfo of an alias certificate. -/
structure TcbInfo where
  vendor : List Byte
  model : List Byte
  version : List Byte
  svn : Nat
  layer : Nat
  fwid : List Byte
deriving DecidableEq, Repr

/-- What R439 says of a certificate. -/
structure Cert where
  subject : Dn
  /-- The subject of the certificate above. -/
  issuer : Dn
  /-- Serial number. -/
  number : List Byte
  /-- Validity, as GeneralizedTime. -/
  notBefore : List Byte
  notAfter : List Byte
  /-- Basic constraints: a CA, and its path length, if it has one. -/
  ca : Bool
  path : Option Nat
  /-- keyCertSign, cRLSign and digitalSignature. -/
  certSign : Bool
  crlSign : Bool
  digSign : Bool
  /-- Subject key identifier; absent where empty. -/
  keyId : List Byte
  tcb : Option TcbInfo
  /-- The subject's public key, and the key that signs. -/
  key : KeyRef
  signer : KeyRef
deriving DecidableEq, Repr

/-- An extension: identifier, whether it is critical, content. -/
def derExt (oid : List Nat) (critical : Bool) (v : List Byte) : List Byte :=
  derSeq [derOid oid, if critical then derTrue else [], derOctets v]

/-- Basic constraints and key usage. -/
def Cert.basicExt (c : Cert) : List Byte :=
  derExt [0x55, 0x1D, 0x13] true (derSeq (if c.ca then [derTrue, match c.path with
    | some n => derNat (be 1 n)
    | none => []] else []))

/-- The key usage bits: digitalSignature 0, keyCertSign 5, cRLSign 6, from the top; trailing zero bits are left out. -/
def Cert.usageExt (c : Cert) : List Byte :=
  let b := 128 * b2n c.digSign + 4 * b2n c.certSign + 2 * b2n c.crlSign
  derExt [0x55, 0x1D, 0x0F] true (der 3 (be 1 (if c.crlSign then 1 else if c.certSign then 2 else 7) ++ be 1 b))

/-- Subject key identifier. -/
def Cert.keyIdExt (c : Cert) : List Byte := if c.keyId.isEmpty then [] else derExt [0x55, 0x1D, 0x0E] false (derOctets c.keyId)

/-- TCG DICE TcbInfo; the digest algorithm of the fwid is SHA-384. -/
def TcbInfo.ext (t : TcbInfo) : List Byte :=
  derExt [0x67, 0x81, 0x05, 0x05, 0x04, 0x01] false (derSeq [der 0x80 t.vendor, der 0x81 t.model, der 0x82 t.version,
    der 0x83 (natOctets (be 4 t.svn)), der 0x84 (natOctets (be 4 t.layer)),
    der 0xA6 (derSeq [derOid [0x60, 0x86, 0x48, 0x01, 0x65, 0x03, 0x04, 0x02, 0x02], derOctets t.fwid])])

/-- The algorithm ecdsa-with-SHA384. -/
def derAlgorithm : List Byte := derSeq [derOid [0x2A, 0x86, 0x48, 0xCE, 0x3D, 0x04, 0x03, 0x03]]

/-- The subject's key: an EC public key on secp384r1, uncompressed. -/
def KeyRef.der (k : KeyRef) : List Byte :=
  derSeq [derSeq [derOid [0x2A, 0x86, 0x48, 0xCE, 0x3D, 0x02, 0x01], derOid [0x2B, 0x81, 0x04, 0x00, 0x22]], derBits (4 :: k.pub)]

/-- What is signed: version 3, serial number, algorithm, issuer, validity, subject, key, extensions. -/
def Cert.tbs (c : Cert) : List Byte :=
  derSeq [der 0xA0 (derNat [2]), derNat c.number, derAlgorithm, c.issuer.der, derSeq [der 0x18 c.notBefore, der 0x18 c.notAfter],
    c.subject.der, c.key.der,
    der 0xA3 (derSeq [c.basicExt, c.usageExt, c.keyIdExt, (c.tcb.map TcbInfo.ext).getD []])]

/-- A certificate: what is signed, the algorithm, the signature. -/
def Cert.encode (c : Cert) : List Byte :=
  let g := c.signer.sign c.tbs
  derSeq [c.tbs, derAlgorithm, derBits (derSeq [derNat (g.take 48), derNat (g.drop 48)])]

end Sys2Proof.Machine
end

