-- ==== Sys2Proof/Machine/P384.lean ====
section
/-! DEFINITION. The curve P-384 (FIPS 186, SEC 1): its group, the verification of an ECDSA signature (R444) and the Diffie-Hellman
secret of an SPDM session (R449). -/

namespace Sys2Proof.Machine

/-- The prime of the field, the order of the group, the coefficient b, and the base point. -/
def pField : Nat := 2 ^ 384 - 2 ^ 128 - 2 ^ 96 + 2 ^ 32 - 1
def pOrder : Nat :=
  0xFFFFFFFFFFFFFFFFFFFFFFFFFFFFFFFFFFFFFFFFFFFFFFFFC7634D81F4372DDF581A0DB248B0A77AECEC196ACCC52973
def pCoeff : Nat :=
  0xB3312FA7E23EE7E4988E056BE3F82D19181D9C6EFE8141120314088F5013875AC656398D8A2ED19D2A85C8EDD3EC2AEF
def pBaseX : Nat :=
  0xAA87CA22BE8B05378EB1C71EF320AD746E1D3B628BA79B9859F741E082542A385502F25DBF55296C3A545E3872760AB7
def pBaseY : Nat :=
  0x3617DE4A96262C6F5D9E98BF9292DC29F8F41DBD289A147CE9DA3113B5F0B8C00A60B1CE1D7E819D7A431D7C90EA0E5F

/-- A power modulo `m`, over the 384 bits of the exponent from the top. -/
def powMod (m a e : Nat) : Nat :=
  (List.range 384).foldl (fun r i => let q := r * r % m; if bit e (383 - i) then q * a % m else q) 1

/-- The inverse modulo a prime. -/
def invMod (m a : Nat) : Nat := powMod m a (m - 2)

/-- A difference in the field. -/
def fieldSub (a b : Nat) : Nat := (a + pField - b % pField) % pField

/-- A point in Jacobian coordinates; z is 0 at infinity. -/
structure JPoint where
  x : Nat
  y : Nat
  z : Nat
deriving DecidableEq, Repr

/-- The point at infinity, and the base point. -/
def JPoint.zero : JPoint := ⟨1, 1, 0⟩
def JPoint.base : JPoint := ⟨pBaseX, pBaseY, 1⟩

/-- Twice a point. -/
def JPoint.double (p : JPoint) : JPoint :=
  let yy := p.y * p.y % pField
  let t := 4 * p.x * yy % pField
  let zz := p.z * p.z % pField
  let m := 3 * fieldSub p.x zz * (p.x + zz) % pField
  let x := fieldSub (m * m) (2 * t)
  ⟨x, fieldSub (m * fieldSub t x) (8 * yy * yy), 2 * p.y * p.z % pField⟩

/-- The sum of two points. -/
def JPoint.add (p q : JPoint) : JPoint :=
  if p.z = 0 then q
  else if q.z = 0 then p
  else
    let zp := p.z * p.z % pField
    let zq := q.z * q.z % pField
    let u := p.x * zq % pField
    let v := p.y * zq * q.z % pField
    let h := fieldSub (q.x * zp) u
    let r := fieldSub (q.y * zp * p.z) v
    if h = 0 then (if r = 0 then p.double else JPoint.zero)
    else
      let h2 := h * h % pField
      let h3 := h * h2 % pField
      let x := fieldSub (r * r) (h3 + 2 * u * h2)
      ⟨x, fieldSub (r * fieldSub (u * h2 % pField) x) (v * h3), h * p.z * q.z % pField⟩

/-- A multiple of a point. -/
def JPoint.mul (k : Nat) (p : JPoint) : JPoint :=
  (List.range 384).foldl (fun r i => if bit k (383 - i) then r.double.add p else r.double) JPoint.zero

/-- The affine coordinates. -/
def JPoint.affine (p : JPoint) : Nat × Nat :=
  let i := invMod pField p.z
  (p.x * i * i % pField, p.y * i * i * i % pField)

/-- Coordinates below the prime that satisfy the curve's equation. -/
def onCurve (x y : Nat) : Bool :=
  decide (x < pField) && decide (y < pField) && y * y % pField == (x * x * x + (pField - 3) * x + pCoeff) % pField

/-- The ECDSA signature `r`, `s` of a message verifies under the public key `key`, with SHA-384; key and signature are two numbers
of 48 bytes each. -/
def ecdsaVerifies (key msg sig : List Byte) : Bool :=
  let x := rdBe key 0 48
  let y := rdBe key 48 48
  let r := rdBe sig 0 48
  let s := rdBe sig 48 48
  let i := invMod pOrder s
  let p := (JPoint.base.mul (ofBe (sha384 msg) * i % pOrder)).add ((⟨x, y, 1⟩ : JPoint).mul (r * i % pOrder))
  onCurve x y && decide (1 ≤ r) && decide (r < pOrder) && decide (1 ≤ s) && decide (s < pOrder) && p.z != 0
    && p.affine.1 % pOrder == r

/-- The public key of a private one: X then Y, 48 bytes each. -/
def publicOf (d : Nat) : List Byte := let a := (JPoint.base.mul d).affine; be 48 a.1 ++ be 48 a.2

/-- The Diffie-Hellman secret of a private key and a partner's public key: the X coordinate. -/
def sharedSecret (d : Nat) (key : List Byte) : List Byte :=
  be 48 ((⟨rdBe key 0 48, rdBe key 48 48, 1⟩ : JPoint).mul d).affine.1

end Sys2Proof.Machine
end

