-- ==== Sys2Proof/Machine/Boot.lean ====
section
/-! DEFINITION. The boot flash, the boot ROM's checks and choice of image, and the keys and certificates of a Moaras boot
(R436 to R447, R451). -/

namespace Sys2Proof.Machine

/-! ### Image slots (R441, R443) -/

/-- What an unlisted byte of a slot reads as. -/
def Slot.base (t : Slot) (a : Nat) : Byte := if t.made then Config.deliveredByte a else 0xFF
/-- A byte of a slot. -/
def Slot.read (t : Slot) (a : Nat) : Byte := (Tab.find t.bytes a).getD (t.base a)
/-- Bytes of a slot. -/
def Slot.reads (t : Slot) (a n : Nat) : List Byte := (List.range n).map (fun i => t.read (a + i))
/-- Write a byte, keeping the canonical form. -/
def Slot.put (t : Slot) (a : Nat) (b : Byte) : Slot :=
  { t with bytes := if b = t.base a then Tab.erase a t.bytes else Tab.insert a b t.bytes }
/-- An erased slot. -/
def Slot.erased (t : Slot) : Slot := { t with bytes := [], made := false }

/-- Fields of the image header. -/
def Slot.svn (t : Slot) : Nat := rd (t.reads 12 2) 0 2
def Slot.version (t : Slot) : List Byte := t.reads 16 8
def Slot.bodyLen (t : Slot) : Nat := rd (t.reads 8 4) 0 4
/-- The image header's first 272 bytes, and the image body. -/
def Slot.header (t : Slot) : List Byte := t.reads 0 272
def Slot.body (t : Slot) : List Byte := t.reads 4096 t.bodyLen
def Slot.keyIndex (t : Slot) : Nat := (t.read 24).toNat

/-- A slot whose first 4 bytes read 0xFFFF_FFFF. -/
def Slot.empty (t : Slot) : Bool := t.reads 0 4 == [0xFF, 0xFF, 0xFF, 0xFF]

/-- Check 1 of R444. -/
def Slot.headerOk (t : Slot) : Bool :=
  rd (t.reads 0 4) 0 4 == 0x52414F4D && rd (t.reads 4 2) 0 2 == 1 && allZero (t.reads 6 2) && decide (1 ≤ t.bodyLen)
    && decide (t.bodyLen ≤ 25161728) && allZero (t.reads 14 2) && allZero (t.reads 25 7) && allZero (t.reads 272 3824)

/-- Check 2. -/
def Slot.keyOk (t : Slot) : Bool :=
  decide (t.keyIndex ≤ 3) && !Config.keyRevoked t.keyIndex && sha384 (t.reads 80 96) == Config.fusedKeyHash t.keyIndex

/-- The ROM's checks of an image, in order: its boot result (R444). -/
def Slot.check (t : Slot) (minSvn : Nat) : Nat :=
  if t.empty then 6
  else if t.headerOk = false then 1
  else if t.keyOk = false then 2
  else if ecdsaVerifies (t.reads 80 96) (t.reads 0 176) (t.reads 176 96) = false then 3
  else if t.svn < minSvn then 4
  else if sha384 t.body ≠ t.reads 32 48 then 5
  else 0

/-- The boot result that stands for a slot: an erased slot is EMPTY at once. -/
def Slot.stands (t : Slot) : Nat := if t.empty then 6 else t.result

/-- Slot 0 A, 1 B. -/
def IdSt.slot (i : IdSt) (k : Nat) : Slot := if k = 0 then i.slotA else i.slotB
def IdSt.setSlot (i : IdSt) (k : Nat) (t : Slot) : IdSt := if k = 0 then { i with slotA := t } else { i with slotB := t }

/-! ### The boot configuration (R442) -/

/-- Bytes 0 to 15 of a copy that says so much. -/
def cfgRecord (seq pref : Nat) (trial x8 : Bool) : List Byte :=
  let h := le 4 0x46434C4E ++ le 4 seq ++ le 1 pref ++ le 1 (b2n trial + 2 * b2n x8) ++ le 2 0
  h ++ le 4 (crc32c h).toNat

/-- What a copy says. It is valid with its magic, its CRC-32C over bytes 0 to 11, its reserved bytes 0 and 0xFF, and slot A or B
(log entry 69). -/
def bootCfg (t : Tab Byte) : BootCfg :=
  let b := Tab.readBytes 0xFF t 0 16
  { valid := rd b 0 4 == 0x46434C4E && rd b 12 4 == (crc32c (b.take 12)).toNat && allZero (slice b 10 2) && decide (rd b 8 1 ≤ 1)
      && t.all (fun e => decide (e.1 < 16) || e.2 == 0xFF)
    seq := rd b 4 4, pref := rd b 8 1, trial := bit (rd b 9 1) 0, x8 := bit (rd b 9 1) 1 }

/-- Copy 1 is the one in force: it is valid, and copy 0 is not or has no higher sequence. -/
def IdSt.inCopy1 (i : IdSt) : Bool :=
  (bootCfg i.cfg1).valid && (!(bootCfg i.cfg0).valid || decide ((bootCfg i.cfg0).seq < (bootCfg i.cfg1).seq))

/-- The bytes of the copy in force, if one is valid. -/
def IdSt.cfgCopy (i : IdSt) : Option (Tab Byte) := if i.inCopy1 then some i.cfg1 else if (bootCfg i.cfg0).valid then some i.cfg0 else none

/-- What is in force: the valid copy with the higher sequence; with neither valid slot A, no trial and x16. -/
def IdSt.cfg (i : IdSt) : BootCfg := (i.cfgCopy.map bootCfg).getD BootCfg.none

/-- What the copy in force says. -/
def IdSt.pref (i : IdSt) : Nat := i.cfg.pref
def IdSt.trial (i : IdSt) : Bool := i.cfg.trial
def IdSt.cfgBif (i : IdSt) : Bool := i.cfg.x8
def IdSt.cfgSeq (i : IdSt) : Nat := i.cfg.seq

/-- The older copy erased and these bytes written into it. -/
def IdSt.putCfg (i : IdSt) (b : List Byte) : IdSt :=
  let t := Tab.writeBytes 0xFF [] 0 b
  if i.inCopy1 ∨ (bootCfg i.cfg0).valid = false then { i with cfg0 := t } else { i with cfg1 := t }

/-- Rewrite the older copy. -/
def IdSt.writeCfg (i : IdSt) (pref : Nat) (trial x8 : Bool) : IdSt := i.putCfg (cfgRecord ((i.cfgSeq + 1) % 2 ^ 32) pref trial x8)

/-- The same cut short by a power loss after `n` bytes; above 16, before it began (log entry 69). -/
def IdSt.cutCfg (i : IdSt) (n pref : Nat) (trial x8 : Bool) : IdSt :=
  if 16 < n then i else i.putCfg ((cfgRecord ((i.cfgSeq + 1) % 2 ^ 32) pref trial x8).take n)

/-- Bytes 0 to 15 of the copy in force. -/
def IdSt.cfgBytes (i : IdSt) : List Byte := Tab.readBytes 0xFF (i.cfgCopy.getD []) 0 16

/-! ### The flash as a whole (R441) -/

/-- The byte at an address of the 64 MiB flash. -/
def State.flash (s : State) (a : Nat) : Option Byte :=
  let i := s.ident
  if a < 0x10000 then some (Tab.get 0xFF i.cfg0 a)
  else if a < 0x20000 then some (Tab.get 0xFF i.cfg1 (a - 0x10000))
  else if a < 0x100000 then some 0xFF
  else if a < 0x1900000 then some (i.slotA.read (a - 0x100000))
  else if a < 0x3100000 then some (i.slotB.read (a - 0x1900000))
  else if a < 0x4000000 then some (Config.storeByte s.mbx.boots i.certs i.pin s.pwr.repairLog s.pwr.lifeW (a - 0x3100000))
  else none

/-! ### Choice of image (R445) -/

/-- The choice: the slot that runs and whether it is on trial, and the slot refused with its result. -/
structure BootChoice where
  run : Option (Nat × Bool)
  refused : Option (Nat × Nat)
deriving DecidableEq, Repr

/-- What the ROM selects from the preferred slot, TRIAL and the boot results. -/
def chooseImage (pref : Nat) (trial : Bool) (resA resB : Nat) : BootChoice :=
  let res := fun k : Nat => if k = 0 then resA else resB
  if res pref = 0 then { run := some (pref, trial), refused := none }
  else if res (1 - pref) = 0 then { run := some (1 - pref, false), refused := some (pref, res pref) }
  else { run := none, refused := none }

/-- The CDI of the running image (R436): the measurement is the digest of the image body (DEDUCED from the alias
certificate's fwid). -/
def IdSt.cdiOf (i : IdSt) : List Byte :=
  hmac384 Config.uds (sha384 (i.slot i.running).body ++ le 2 i.runSvn ++ le 1 i.running ++ le 1 (b2n i.bifurcated)
    ++ le 1 i.debug)

/-- The running image becomes the one in slot `k`. -/
def IdSt.run (i : IdSt) (k : Nat) (trial : Bool) : IdSt :=
  let v := (i.slot k).version
  { i with running := k, runTrial := trial, runSvn := (i.slot k).svn, major := rd v 0 2, minor := rd v 2 2, build := rd v 4 4,
           booted := true }

/-- The ROM's checks of both slots, and its choice. -/
def IdSt.checked (i : IdSt) : IdSt :=
  { i with slotA := { i.slotA with result := i.slotA.check i.minSvn }, slotB := { i.slotB with result := i.slotB.check i.minSvn } }
def IdSt.choice (i : IdSt) : BootChoice := chooseImage i.pref i.trial i.slotA.result i.slotB.result

/-- The ROM's work at a boot: both slots are checked, an image selected, TRIAL cleared before a trial image starts. -/
def IdSt.romBoot (i : IdSt) : IdSt :=
  let a := i.checked
  let c := a.choice
  match c.run with
  | none => { a with booted := false, fallback := none }
  | some (k, t) =>
    let b := ((if t then a.writeCfg (1 - k) false a.cfgBif else a).run k t)
    { b with cdi := b.cdiOf, fallback := c.refused }

/-! ### Keys and certificates (R436 to R440) -/

/-- The number of the alias key: its CDI. -/
def IdSt.aliasNum (i : IdSt) : Nat := ofBe i.cdi

/-- The SHA-384 of the running image's body. -/
def IdSt.fwid (i : IdSt) : List Byte := sha384 (i.slot i.running).body

/-- The alias or receipt serial number: 20 bytes of the key hash, bit 7 of the first cleared. -/
def certNumber (h : List Byte) : List Byte := ((h.headD 0) &&& 0x7F) :: slice h 1 19

/-- The device serial with its padding removed. -/
def devSerial : List Byte := (Config.serial.take 16).takeWhile (· != 0)

/-- The notAfter of a certificate without expiry. -/
def noExpiry : List Byte := ascii "99991231235959Z"

/-- The subjects of the certificates, by kind: 0 Root CA, 1 Manufacturing CA, 2 DIK, 3 alias. -/
def certSubject (kind variant : Nat) : Dn :=
  { cn := ascii (if kind = 0 then "Valvel Nelautus Root CA" else if kind = 1 then "Valvel Nelautus Manufacturing CA"
      else if kind = 2 then "NL-7216 DIK" else "NL-7216 Alias"),
    serial := if 2 ≤ kind then devSerial else [],
    unit := if kind = 2 then ascii (if variant = 1 then "MA" else "WA") else [] }

/-- The key of a certificate by kind: the two of Valvel, the DIK. -/
def certKey (kind : Nat) : KeyRef := ⟨if kind = 0 then 3 else if kind = 1 then 4 else 0, 0⟩

/-- Certificates of Valvel and of the DIK: kinds 0, 1, 2. -/
def baseCert (kind variant : Nat) : Cert :=
  { subject := certSubject kind variant, issuer := certSubject (kind - 1) variant,
    number := if kind = 2 then padTo 16 (Config.assignedNumber 2) else Config.assignedNumber kind,
    notBefore := Config.issuedFrom kind, notAfter := if kind = 2 then noExpiry else Config.issuedTo kind,
    ca := true, path := if kind = 0 then none else some (3 - kind), certSign := true, crlSign := kind != 2, digSign := false,
    keyId := if kind = 2 then (keyHash 0 0).take 20 else [], tcb := none, key := certKey kind, signer := certKey (kind - 1) }

/-- The alias certificate. -/
def IdSt.aliasCert (i : IdSt) (variant : Nat) : Cert :=
  { subject := certSubject 3 variant, issuer := certSubject 2 variant, number := certNumber (keyHash 1 i.aliasNum),
    notBefore := Config.issuedFrom 2, notAfter := noExpiry, ca := true, path := some 0, certSign := true, crlSign := false, digSign := true,
    keyId := [],
    tcb := some { vendor := ascii "Valvel", model := ascii "NL-7216", version := le 2 i.major ++ le 2 i.minor ++ le 4 i.build,
                  svn := i.runSvn, layer := 1, fwid := i.fwid },
    key := ⟨1, i.aliasNum⟩, signer := ⟨0, 0⟩ }

/-- A number in decimal, `n` digits at most. -/
def decimal : Nat → Nat → List Byte
  | 0, _ => []
  | n + 1, v => (if v < 10 then [] else decimal n (v / 10)) ++ [BitVec.ofNat 8 (48 + v % 10)]

/-- The receipt certificate of a boot, under the alias key of the boot. -/
def IdSt.receiptCert (i : IdSt) (variant boots : Nat) : Cert :=
  { subject := { cn := ascii "NL-7216 Receipt", serial := devSerial, unit := decimal 10 boots }, issuer := certSubject 3 variant,
    number := certNumber (keyHash 2 boots), notBefore := Config.issuedFrom 2, notAfter := noExpiry,
    ca := false, path := none, certSign := false, crlSign := false, digSign := true,
    keyId := (keyHash 2 boots).take 20, tcb := none, key := ⟨2, boots⟩, signer := ⟨1, i.aliasNum⟩ }

/-- The receipt certificate of a boot enters the persistent store, which keeps 64. -/
def IdSt.keepCert (i : IdSt) (variant boots : Nat) : IdSt :=
  { i with certs := ((boots, (i.receiptCert variant boots).encode) :: i.certs).take 64 }

/-- The current receipt certificate. -/
def IdSt.curReceipt (i : IdSt) : List Byte := (i.certs.headD (0, [])).2

/-! ### Measurements (R451) -/

/-- The running image's bytes as measured. -/
def IdSt.digest (i : IdSt) (k : Nat) : List Byte :=
  match k with
  | 1 => padTo 48 Config.romDigest
  | 2 => if i.cfgCopy.isNone then padTo 48 Config.noConfigDigest else sha384 i.cfgBytes
  | 3 => sha384 (i.slot i.running).header
  | _ => i.fwid

/-- Measurement 6. -/
def IdSt.measure6 (i : IdSt) : List Byte :=
  le 2 i.runSvn ++ le 2 i.minSvn ++ le 1 i.running ++ le 1 (b2n i.runTrial)

/-- Measurement 7. -/
def State.measure7 (s : State) : List Byte :=
  le 1 s.ident.debug ++ le 1 s.pwr.variant ++ le 1 s.pwr.roleStrap ++ le 1 s.role

/-- The content of a measurement block. -/
def State.measurement (s : State) (k : Nat) : List Byte :=
  if k = 5 then s.ident.curReceipt else if k = 6 then s.ident.measure6 else if k = 7 then s.measure7 else s.ident.digest k

/-! ### A Moaras boot (R437, R438) -/

/-- Events of a boot: BOOT_FALLBACK, the strap events of R1 and R2, RECEIPT_KEY_NEW. -/
def State.bootEvents (s : State) : State :=
  let a := match s.ident.fallback with
    | some (k, res) => s.raise 0x0F01 sevWarning (le 1 k ++ le 1 res)
    | none => s
  let b := a.raiseIf (s.pwr.roleStrap == 2 && s.pwr.variant != 1) 0x0102 sevWarning
    (le 1 s.pwr.roleStrap ++ le 1 s.pwr.variant)
  let c := b.raiseIf (s.pwr.roleStrap == 3) 0x0103 sevUncorrectable
    (le 1 s.pwr.roleStrap ++ le 1 s.pwr.variant)
  c.raise 0x0F03 sevInfo (keyHash 2 s.mbx.boots ++ le 4 s.mbx.boots)

/-- The ROM's line on the UART console: the boot results of both slots. -/
def State.consoleLine (s : State) : State :=
  ({ s with ident := { s.ident with console := some s.upNs } }).emit (.console s.ident.slotA.result s.ident.slotB.result)

/-- With no image to run the ROM writes its line every second (R445). -/
def State.consoleTick (s : State) : State :=
  match s.ident.console with
  | some t => if t + 1000000000 ≤ s.upNs then s.consoleLine else s
  | none => s

/-- A Moaras boot: the boot count advances, the ROM selects an image, a receipt key is made and certified. With no image that
may run Moaras stays down and the boot results go to the console. -/
def State.moarasBoot (s : State) : State :=
  let i := s.ident.romBoot
  if i.booted then
    let n := (s.mbx.boots + 1) % 2 ^ 32
    ({ s with ident := i.keepCert s.pwr.variant n, mbx := { s.mbx with boots := n } }).bootEvents
  else ({ s with ident := i }).consoleLine

end Sys2Proof.Machine
end

