-- ==== Sys2Proof/Machine/Bake.lean ====
section
/-! DEFINITION. The bake sequence on one device, the domain bake's exchange at the manager and at a member, and the commands
over staged sets (R406 to R419, R427 to R433). -/

namespace Sys2Proof.Machine

/-! ### A set leaves PREPARING or ARMED -/

/-- Complete the command that started the bake. -/
def State.answerSet (s : State) (t : SetSt) (x : Resp) : State :=
  match t.req with
  | some r => s.complete t.op r x
  | none => s

/-- A set as OPEN again (R407). -/
def SetSt.reopened (t : SetSt) : SetSt :=
  { SetSt.init with id := t.id, cmds := t.cmds }

/-- A set returns to OPEN, its prepared state removed; the set of a PWR_RESTORE goes. -/
def State.reopen (s : State) (t : SetSt) : State :=
  let u := s.unprepare t
  { u with bake :=
    if t.restore then { u.bake with sets := u.bake.sets.filter (fun x => x.id != t.id) }
    else u.bake.updSet t.id (fun _ => t.reopened) }

/-- BAKE_FAILED: set ID, status, detail (R435). -/
def State.tellFailed (s : State) (id st d : Nat) : State := s.raiseUp 0x0D02 sevWarning (le 4 id ++ le 2 st ++ le 2 d)

/-! ### The domain bake at the manager (R427 to R431) -/

/-- Change the domain bake in progress. -/
def State.updDom (s : State) (f : DomBake → DomBake) : State := { s with bake := { s.bake with dom := s.bake.dom.map f } }

/-- Change a member of it. -/
def DomBake.updMember (d : DomBake) (i : Nat) (f : Member → Member) : DomBake :=
  { d with members := d.members.map (fun m => if m.idx = i then f m else m) }

/-- The response of DOM_BAKE: bake ID, domain epoch, and each member's status and detail. -/
def DomBake.bytes (d : DomBake) (epoch : Nat) : List Byte :=
  le 4 d.id ++ le 4 epoch ++ d.members.flatMap (fun m => le 1 m.idx ++ le 1 0 ++ le 2 m.status ++ le 2 m.detail ++ le 2 0)

/-- DOM_BAKE completes. -/
def State.domEnd (s : State) (d : DomBake) (st det epoch : Nat) : State :=
  let p := d.bytes epoch
  ({ s with bake := { s.bake with dom := none } }).complete 0x0E05 d.req ⟨st, det, p, p.length, none⟩

/-- Workers among the members. -/
def DomBake.workers (d : DomBake) : List Nat := (d.members.map (·.idx)).filter (· != 0)

/-- The set of this device that takes part in a domain bake. -/
def BakeSt.domSet (b : BakeSt) (bakeId : Nat) : Option SetSt :=
  b.sets.find? (fun t => t.domain && t.bakeId == bakeId && (t.state == .preparing || t.state == .armed))

/-- The set of this device leaves a domain bake before its commit point. -/
def State.dropDomSet (s : State) (bakeId st det : Nat) : State :=
  match s.bake.domSet bakeId with
  | none => s
  | some t =>
    if t.committed then s
    else
      let u := s.reopen t
      if st = stOk then u else u.tellFailed t.id st det

/-- The exchange fails (R429): ABORT to every worker member, the manager's own set OPEN, DOM_BAKE completed. -/
def State.domFail (s : State) (st det : Nat) : State :=
  match s.bake.dom with
  | none => s
  | some d =>
    let t := d.workers.foldl (fun t i => t.domSend i 0x25 (be 4 d.id ++ be 2 st ++ be 2 det)) s
    (t.dropDomSet d.id st det).domEnd d st det 0

/-- GO at a member (R414, R430): the commit point of a bake of several members. A set in doubt bakes at the first whole
microsecond at least 10 us later, and BAKE_LATE is raised with the lateness. -/
def State.takeGo (s : State) (t : SetSt) (epoch : Nat) : State :=
  let commit := t.several || (s.setRegions t.cmds).isNone
  let u := { t with go := true, committed := commit, domEpoch := epoch, inDoubt := false, late := t.inDoubt || t.late }
  if t.inDoubt then
    let n := s.soon
    ({ s with bake := s.bake.updSet t.id (fun _ => u.setAt n) }).raise 0x0D03 sevWarning
      (le 4 t.id ++ le 4 (min (n - t.at') 0xFFFFFFFF))
  else { s with bake := s.bake.updSet t.id (fun _ => u) }

/-- Step 4 of R428: the decision is recorded and GO sent. -/
def State.domDecide (s : State) : State :=
  match s.bake.dom with
  | none => s
  | some d =>
    let a := s.updDom (fun d => { d with decided := true })
    let b := { a with bake := { a.bake with outcomes := a.bake.outcomes ++ [(d.id, d.epoch)] } }
    let c := d.workers.foldl (fun t i => t.domSend i 0x24 (be 4 d.id ++ be 4 d.epoch)) b
    match c.bake.domSet d.id with
    | some t => c.takeGo t d.epoch
    | none => c

/-- Every ACK has come. -/
def State.domAcked (s : State) : State :=
  match s.bake.dom with
  | some d => if !d.decided && d.members.all (·.acked) then s.domDecide else s
  | none => s

/-- COMMIT at this device's own set. -/
def State.takeCommit (s : State) (bakeId epoch : Nat) : State :=
  match s.bake.domSet bakeId with
  | some t => { s with bake := s.bake.updSet t.id (fun t => { t with acked := true, domEpoch := epoch }) }
  | none => s

/-- Step 3 of R428: every vote is yes; the domain epoch is 1 plus the largest epoch (R431). -/
def State.domCommit (s : State) : State :=
  match s.bake.dom with
  | none => s
  | some d =>
    let e := nextEpoch ((d.members.map (·.epoch)).foldl max s.bake.epoch)
    let a := s.updDom (fun d => { (d.updMember 0 (fun m => { m with acked := true })) with epoch := e })
    let b := d.workers.foldl (fun t i => t.domSend i 0x22 (be 4 d.id ++ be 4 e)) a
    (b.takeCommit d.id e).domAcked

/-- A vote reaches the manager. -/
def State.domVote (s : State) (i : Nat) (yes : Bool) (st det epoch : Nat) : State :=
  match s.bake.dom with
  | none => s
  | some d =>
    if !(d.members.any (fun m => m.idx == i && !m.voted)) then s
    else
      let t := s.updDom (fun d => d.updMember i (fun m => { m with voted := true, epoch, status := st, detail := det }))
      if !yes then t.domFail stCheckFailed 0x0E03
      else if (d.updMember i (fun m => { m with voted := true })).members.all (·.voted) then t.domCommit
      else t

/-! ### The vote of this device -/

/-- VOTE (R425, R428): bake ID, vote, status, detail, bake epoch, time offset. -/
def State.sendVote (s : State) (bakeId : Nat) (yes : Bool) (st det : Nat) : State :=
  s.domSend 0 0x21 (be 4 bakeId ++ be 1 (b2n yes) ++ be 1 0 ++ be 2 st ++ be 2 det ++ be 2 0 ++ be 4 s.bake.epoch
    ++ be 4 (unsigned 32 s.bake.offsetNs))

/-- The vote of this device on its own set. -/
def State.castVote (s : State) (bakeId : Nat) (yes : Bool) (st det : Nat) : State :=
  if s.role = 2 then s.domVote 0 yes st det s.bake.epoch else s.sendVote bakeId yes st det

/-- A bake fails in steps 1 to 3, or at the region test: the set returns to OPEN unchanged. -/
def State.bakeFail (s : State) (t : SetSt) (st det : Nat) : State :=
  let u := (s.reopen t).tellFailed t.id st det
  if t.domain then u.castVote t.bakeId false st det else u.answerSet t (Resp.err st det)

/-! ### Steps 1 and 2 (R409, R410, R412, R495) -/

/-- A slice is resetting, restoring, parking or unparking. -/
def State.slicesBusy (s : State) : Bool :=
  s.pwr.slices.any (fun x => x.2.state == .resetting || x.2.state == .restoring || x.2.req.isSome)

/-- Start the bake of a set: the state with the set PREPARING, or the status and detail of its refusal. `f` fills in what the
command says. A failure of CHECK, and a slice in between, is a failure of the bake. -/
def State.startBake (s : State) (id : Nat) (f : SetSt → SetSt) : State × Option (Nat × Nat) :=
  match s.bake.set? id with
  | none => (s, some (stBadArg, dBadSet))
  | some t =>
    if t.state = .baked ∨ t.state = .aborted then (s, some (stStaleEpoch, dNone))
    else if s.bake.inBake.isSome then (s, some (stBusy, 0x0D04))
    else match s.checkCmds t.cmds (f t).several with
      | some x => (s.tellFailed id stCheckFailed x.detail, some (stCheckFailed, x.detail))
      | none =>
        if s.slicesBusy then (s.tellFailed id stBusy 0x1104, some (stBusy, 0x1104))
        else ({ s with bake := s.bake.updSet id (fun t => { (f t) with state := .preparing }) }, none)

/-! ### Step 3: BAKE_PREPARE_DONE, BAKE_DRAIN_TIMEOUT -/

/-- The set being prepared. -/
def BakeSt.preparing (b : BakeSt) : Option SetSt := b.sets.find? (fun t => t.state == .preparing)

/-- A prepared set is ARMED; a local one without region change is past its commit point, and *now* is fixed (R413, R414). -/
def State.arm (s : State) (t : SetSt) : State :=
  let u := if t.now then t.setAt s.soon else t
  let v := { u with state := .armed, committed := !t.domain && (s.setRegions t.cmds).isNone }
  { s with bake := s.bake.updSet t.id (fun _ => v) }

/-- Preparation ends. -/
def State.prepareDone (s : State) (t : SetSt) : State :=
  if s.drained = false then s
  else match s.prepare t.cmds with
    | none => (s.bumpFwd 13 1).bakeFail t stNoResource dNone
    | some u =>
      if t.domain then
        if s.time.state = .locked then (u.arm t).castVote t.bakeId true stOk dNone
        else s.bakeFail t stNotPermitted 0x0E06
      else u.arm t

def execBakePrepareDone (s : State) : Host.Outcome State Fault Refusal :=
  match s.bake.preparing with
  | some t => .next (s.prepareDone t)
  | none => .next s

/-- The bank or normalisation is not free within 100 us (R87, R112). -/
def execBakeDrainTimeout (s : State) : Host.Outcome State Fault Refusal :=
  match s.bake.preparing with
  | some t => if s.drained then .next s else .next (s.bakeFail t stBusy 0x0D05)
  | none => .next s

/-! ### Step 5: the instant -/

/-- The response of BAKE_COMMIT, or of PWR_RESTORE. -/
def State.bakeResp (s : State) (t : SetSt) : Resp :=
  if t.restore then Resp.ok (le 4 s.bake.epoch ++ le 4 t.changes)
  else Resp.ok (le 4 s.bake.epoch ++ le 4 s.prism.epoch ++ le 8 t.sec ++ le 4 t.ns ++ le 4 0)

/-- BAKE_SKEW: a member's offset is above 24 ns at T, whether it bakes then or not; a set that is in doubt or bakes late has
passed T (R432). -/
def State.skewCheck (s : State) (t : SetSt) : State :=
  s.raiseUpIf (t.domain && !t.inDoubt && !t.late && decide (24 * 65536 < s.bake.timeOffset.natAbs)) 0x0D05 sevWarning
    (le 4 t.bakeId ++ le 4 (unsigned 32 s.bake.offsetNs))

/-- The bake of a set: every block switches, the epoch advances, BAKE_DONE. -/
def State.bakeSet (s : State) (t : SetSt) : State :=
  let e := if t.domain then t.domEpoch else nextEpoch s.bake.epoch
  let a := { s with bake := s.bake.updSet t.id (fun t => { t with state := .baked, committed := true, inDoubt := false }) }
  let b := a.switchAll t.cmds
  let c := { b with bake := { b.bake with epoch := e, heldShadow := if t.restore then b.bake.heldShadow else none } }
  let d := c.raiseUp 0x0D01 sevInfo (le 4 t.id ++ le 4 e ++ timeArg t.sec t.ns)
  (d.raiseUpIf t.restore 0x110C sevInfo (le 4 e)).answerSet t (d.bakeResp t)

/-- A decided DOM_BAKE completes at T; `st`, `det`: how the manager's own set fared. -/
def State.domFinish (s : State) (st det : Nat) : State :=
  match s.bake.dom with
  | some d => if d.decided then s.domEnd (d.updMember 0 (fun m => { m with status := st, detail := det })) st det d.epoch else s
  | none => s

/-- The region test of R29 fails at the instant: nothing is applied. -/
def State.regionFail (s : State) (t : SetSt) : State :=
  let u := (s.reopen t).tellFailed t.id stCheckFailed 0x0C02
  if t.domain then u.domFinish stCheckFailed 0x0C02 else u.answerSet t (Resp.err stCheckFailed 0x0C02)

/-- The set bakes; the manager's own ends its DOM_BAKE too. -/
def State.bakeOwn (s : State) (t : SetSt) : State := if t.domain then (s.bakeSet t).domFinish stOk dNone else s.bakeSet t

/-- What the instant does to an ARMED set. A member without GO does not bake: its set is in doubt (R430). -/
def State.instantOf (s : State) (t : SetSt) : State :=
  let u := s.skewCheck t
  if t.domain ∧ t.go = false then
    if t.inDoubt then u
    else ({ u with bake := u.bake.updSet t.id (fun t => { t with inDoubt := true }) }).raiseUp 0x0D04 sevWarning
      (le 4 t.bakeId ++ le 4 t.id)
  else match u.setRegions t.cmds with
    | some l => if u.regionTest l then u.bakeOwn t else u.regionFail t
    | none => u.bakeOwn t

/-- T of a domain bake in ns. -/
def DomBake.at' (d : DomBake) : Nat := 1000000000 * d.sec + d.ns

/-- A decided DOM_BAKE in which the manager has no set of its own left completes at T. -/
def State.domDue (s : State) : State :=
  match s.bake.dom with
  | some d => if d.at' ≤ s.nowNs ∧ (s.bake.domSet d.id).isNone then s.domFinish stOk dNone else s
  | none => s

/-- What is due at an instant that has come is done; nothing is done early (R415). -/
def State.instant (s : State) : State :=
  (match s.bake.armed with
    | some t => if s.nowNs < t.at' then s else s.instantOf t
    | none => s).domDue

def execBakeInstant (s : State) : Host.Outcome State Fault Refusal := .next s.instant

/-- An empty queue: the block does what time alone makes it do: one tick of the time base, the bake whose instant the tick
reaches (R415), and the boot ROM's console line (R445; log entry 1). -/
def idle (s : State) : State := s.oneTick.instant.consoleTick

/-- A step of the time base to or past the instant runs the bake at the step, late (R416). -/
def State.stepPast (s : State) : State :=
  (match s.bake.armed with
    | none => s
    | some t =>
      if s.nowNs < t.at' then s
      else if t.domain ∧ t.go = false then s.instantOf t
      else (s.instantOf t).raiseUp 0x0D03 sevWarning (le 4 t.id ++ le 4 (min (s.nowNs - t.at') 0xFFFFFFFF))).domDue

/-! ### Commands over sets (R433) -/

/-- A set that is neither BAKED nor ABORTED, or the refusal. -/
def State.liveSet (s : State) (id : Nat) : Option SetSt × Nat × Nat :=
  match s.bake.set? id with
  | none => (none, stBadArg, dBadSet)
  | some t => if t.state = .baked ∨ t.state = .aborted then (none, stStaleEpoch, dNone) else (some t, stOk, dNone)

/-- Sets that count against the limit of four and that BAKE_GET_SET lists. -/
def BakeSt.current (b : BakeSt) : List SetSt :=
  b.sets.filter (fun t => t.state != .baked && t.state != .aborted && !t.restore)

def bakeOpenBody : Body := fun _ s =>
  if 4 ≤ s.bake.current.length then errCmd s stNoResource dNone
  else okCmd { s with bake := { s.bake with
      sets := s.bake.sets ++ [{ SetSt.init with id := s.bake.nextSet }], nextSet := s.bake.nextSet + 1 } }
    (le 4 s.bake.nextSet)

def bakeCheckBody : Body := readCmd (fun r s =>
  match s.liveSet (rd r.payload 0 4) with
  | (none, st, d) => Resp.err st d
  | (some t, _) => match s.checkCmds t.cmds false with
    | none => Resp.ok (le 2 stOk ++ le 2 0 ++ le 4 noPos ++ le 2 0 ++ le 2 0 ++ le 4 t.cmds.length)
    | some x => Resp.ok (le 2 stCheckFailed ++ le 2 x.detail ++ le 4 x.pos ++ le 2 x.op ++ le 2 0 ++ le 4 t.cmds.length))

/-- 30 days in ns (R413). -/
def daysNs : Nat := 30 * 86400 * 1000000000

/-- The instant asked for at the time `t0`, against the lead time and the limit of 30 days. -/
def leadFault (t0 at' lead : Nat) : Option (Nat × Nat) :=
  if at' < t0 + lead then some (stBadArg, 0x0D03)
  else if t0 + daysNs < at' then some (stBadArg, dNone)
  else none

/-- BAKE_COMMIT, after its set has been found. The lead time counts from its DOORBELL (R413). -/
def State.commitSet (s : State) (r : Req) (t : SetSt) : State × Option Resp :=
  let p := r.payload
  let now := rd p 4 1 == 0
  if 1 < rd p 4 1 ∨ !(resv p 5 3 && resv p 20 4) ∨ (!now ∧ 999999999 < rd p 16 4) then errCmd s stBadArg dNone
  else match (if now then none else leadFault (s.rungAt 0x0D03 r) (1000000000 * rd p 8 8 + rd p 16 4) t.lead) with
    | some e => errCmd s e.1 e.2
    | none =>
      match s.startBake t.id (fun t => { t with now, sec := if now then 0 else rd p 8 8, ns := if now then 0 else rd p 16 4, req := some r,
                                                op := 0x0D03 }) with
      | (u, some e) => errCmd u e.1 e.2
      | (u, none) => (u, none)

def bakeCommitBody : Body := fun r s =>
  match s.liveSet (rd r.payload 0 4) with
  | (none, st, d) => errCmd s st d
  | (some t, _) => s.commitSet r t

/-- The answer of a BAKE_COMMIT whose bake is withdrawn: OK with bake epoch 0, which denotes no baked state (log entry 41). -/
def State.withdrawn (s : State) (t : SetSt) : Resp :=
  if t.restore then Resp.ok (le 8 0) else Resp.ok (le 4 0 ++ le 4 s.prism.epoch ++ le 16 0)

/-- A bake withdrawn by BAKE_ABORT. -/
def State.withdraw (s : State) (t : SetSt) : State :=
  if t.domain ∧ s.role = 2 then s.domFail stOk dNone else (s.reopen t).answerSet t (s.withdrawn t)

def bakeAbortBody : Body := fun r s =>
  match s.liveSet (rd r.payload 0 4) with
  | (none, st, d) => errCmd s st d
  | (some t, _) =>
    if t.state = .isOpen then okCmd { s with bake := s.bake.updSet t.id (fun t => { t with state := .aborted }) } []
    else if t.committed then errCmd s stNotPermitted 0x0D02
    else okCmd (s.withdraw t) []

/-- Code of a set's state. -/
def SetState.code : SetState → Nat
  | .isOpen => 0
  | .preparing => 1
  | .armed => 2
  | .baked => 3
  | .aborted => 4

/-- The 32-byte record of a set. -/
def SetSt.bytes (t : SetSt) : List Byte :=
  le 4 t.id ++ le 1 t.state.code ++ le 1 (b2n t.committed + 2 * b2n t.inDoubt + 4 * b2n t.domain) ++ le 2 0 ++ le 4 t.cmds.length
    ++ le 4 t.changes ++ le 4 (ceilDiv t.lead 1000) ++ le 4 0 ++ le 8 t.sec

def bakeGetSetBody : Body := readCmd (fun r s =>
  if rd r.payload 0 4 = 0 then Resp.ok (padTo 128 (s.bake.current.flatMap SetSt.bytes))
  else match s.bake.set? (rd r.payload 0 4) with
    | some t => Resp.ok t.bytes
    | none => Resp.err stBadArg dBadSet)

def execBakeOpen (r : Req) (s : State) : Host.Outcome State Fault Refusal := mailboxCommand 0x0D01 bakeOpenBody r s
def execBakeCheck (r : Req) (s : State) : Host.Outcome State Fault Refusal := mailboxCommand 0x0D02 bakeCheckBody r s
def execBakeCommit (r : Req) (s : State) : Host.Outcome State Fault Refusal := mailboxCommand 0x0D03 bakeCommitBody r s
def execBakeAbort (r : Req) (s : State) : Host.Outcome State Fault Refusal := mailboxCommand 0x0D04 bakeAbortBody r s
def execBakeGetSet (r : Req) (s : State) : Host.Outcome State Fault Refusal := mailboxCommand 0x0D05 bakeGetSetBody r s

/-! ### PWR_RESTORE (R493) -/

def pwrRestoreBody : Body := fun r s =>
  match s.bake.heldShadow with
  | none => errCmd s stNotPermitted 0x1105
  | some l =>
    let id := s.bake.nextSet
    let t := { s with bake := { s.bake with
        sets := s.bake.sets ++ [{ SetSt.init with id, cmds := l, restore := true, now := true }], nextSet := id + 1 } }
    match t.startBake id (fun t => { t with req := some r, op := 0x1106 }) with
    | (u, some e) => errCmd { u with bake := { u.bake with sets := u.bake.sets.filter (fun x => x.id != id) } } e.1 e.2
    | (u, none) => (u, none)
def execPwrRestore (r : Req) (s : State) : Host.Outcome State Fault Refusal := mailboxCommand 0x1106 pwrRestoreBody r s

end Sys2Proof.Machine
end

