-- ==== Sys2Proof/Machine/Clock.lean ====
section
/-! DEFINITION. What changes the time base: TIME_ADJUST, PPS_IN and the PTP protocol and servo of Moaras (R214, R216, R217,
R230 to R233, R245). -/

namespace Sys2Proof.Machine

/-! ### Steps and slews (R217) -/

/-- Ports whose operational list is not empty. -/
def State.gatedPorts (s : State) : List Nat := (s.gates.filter (fun e => !e.2.oper.entries.isEmpty)).map (·.1)

/-- The time base is set in one cycle by operation `op` (2 by offset, 3 set) of the host or of the servo: the slew in
progress ends, TIME_STEPPED, UNSET goes to FREE_RUN, a gate reset at every gated port, and the effect on an ARMED set. -/
def State.timeStep (s : State) (op cause units : Nat) : State :=
  let a := s.updTime (fun t => { t.setUnits units with slewLeft := 0, stepCount := (t.stepCount + 1) % 2 ^ 32 })
  let b := a.raise 0x0802 sevInfo (le 1 op ++ le 1 cause ++ timeArg a.time.sec a.time.ns)
  let c := if b.time.state = .unset then b.setTimeState .freeRun else b
  (c.gatedPorts.foldl State.gateReset c).stepPast

/-- Units of 2^-48 ns in one second. -/
def secUnits : Nat := 1000000000 * 2 ^ 48

/-- An offset of operations 1 and 2 in units of 2^-48 ns (R245). -/
def adjOffset (p : List Byte) : Int := (rdI p 8 8 * 1000000000 + rdI p 4 4) * 2 ^ 48 + (rd p 2 2 * 2 ^ 32 : Nat)

/-- Within 500 ppm of the nominal increment (R214). -/
def incrOk (n : Nat) : Bool := decide ((((n : Int) - nominalIncr).natAbs) * 2000 ≤ nominalIncr)

/-- A port with role 1 gives the time base to Moaras (R233). -/
def State.moarasClock (s : State) : Bool := s.ports.any (fun e => decide (e.1 < 512) && e.2.ptp.role == 1)

/-- The new time of an operation 2 within 0 s and 2^48 s. -/
def State.offsetTime (s : State) (d : Int) : Option Nat :=
  if 0 ≤ (s.time.units : Int) + d ∧ (s.time.units : Int) + d < (2 ^ 48 * secUnits : Nat) then some (s.time.units + d).toNat
  else none

def timeAdjustBody : Body := fun r s =>
  let p := r.payload
  let bad := errCmd s stBadArg 0x0801
  let nsOk := decide ((rdI p 4 4).natAbs ≤ 999999999)
  if s.moarasClock then errCmd s stNotPermitted dNone
  else if rd p 0 1 ≠ 0 ∧ resv p 1 1 = false then bad
  else match rd p 0 1 with
    | 0 => if incrOk (rd p 16 8) then okCmd (s.updTime (fun t => { t with incr := rd p 16 8 })) [] else bad
    | 1 =>
      if nsOk && decide ((adjOffset p).natAbs ≤ secUnits) then
        okCmd (s.updTime (fun t => { t with slewLeft := adjOffset p })) []
      else bad
    | 2 => match (if nsOk then s.offsetTime (adjOffset p) else none) with
      | some n => okCmd (s.timeStep 2 0 n) []
      | none => bad
    | 3 =>
      if rd p 8 8 < 2 ^ 48 ∧ rd p 4 4 ≤ 999999999 then
        okCmd (s.timeStep 3 0 ((1000000000 * rd p 8 8 + rd p 4 4) * 2 ^ 48 + rd p 2 2 * 2 ^ 32)) []
      else bad
    | _ => bad

/-- TIME_ADJUST. -/
def execTimeAdjust (r : Req) (s : State) : Host.Outcome State Fault Refusal := mailboxCommand 0x0802 timeAdjustBody r s

/-! ### The servo (R216, R230, R232) -/

/-- An increment kept within the trim range. -/
def clampIncr (i : Int) : Nat :=
  (max ((nominalIncr - nominalIncr / 2000 : Nat) : Int) (min i ((nominalIncr + nominalIncr / 2000 : Nat) : Int))).toNat

/-- The states that one measured offset in units of 2^-16 ns leads to: UNSET to FREE_RUN when the servo adjusts, LOCKED after 16
intervals in a row within the threshold, FREE_RUN above four times the threshold. -/
def State.judge (s : State) (off : Int) : State :=
  let good := decide (off.natAbs ≤ 65536 * s.ptp.lockNs)
  let a := if s.time.state = .unset then s.setTimeState .freeRun else s
  let b := a.updTime (fun t => { t with goodIntervals := if good then min 16 (t.goodIntervals + 1) else 0 })
  if 16 ≤ b.time.goodIntervals then b.setTimeState .locked
  else if b.time.state = .locked ∧ 4 * 65536 * s.ptp.lockNs < off.natAbs then b.setTimeState .freeRun
  else b

/-- The servo acts on an offset in units of 2^-16 ns: it trims the increment, which HOLDOVER freezes (R216), or steps the time
base; which, and by how much, the spec leaves to Moaras (log entry 3). During a failover it does nothing (R266). -/
def State.servo (s : State) (off : Int) : State :=
  if s.pwr.failing.isSome then s
  else
    let a := { s with bake := { s.bake with timeOffset := off } }
    let b := match (if bit s.freeVal 0 then a.offsetTime (-off * 2 ^ 32) else none) with
      | some n => a.timeStep 2 1 n
      | none => if s.time.state = TbState.holdover then a
          else a.updTime (fun t => { t with incr := clampIncr (t.incr + Config.servo off) })
    (b.drawn 1).judge off

/-- The offset of PPS_IN from the nearest whole second, in units of 2^-16 ns. -/
def TimeBase.ppsOffsetNow (t : TimeBase) : Int :=
  65536 * (if t.ns < 500000000 then (t.ns : Int) else (t.ns : Int) - 1000000000) + t.frac16

/-- PPS_IN_EDGE: the time base is latched, PPS_IN is valid, and with time source PPS_IN the servo steers by it. -/
def execPpsInEdge (s : State) : Host.Outcome State Fault Refusal :=
  let t := s.updTime (fun t => { t with ppsInSec := t.latched.1, ppsInNs := t.latched.2, ppsInValid := true })
  .next (if s.pwr.inReset then s
    else if s.ptp.source = 1 ∧ s.ptp.profile ≠ 0 then t.servo s.time.ppsOffsetNow else t)

/-! ### The protocol (R223, R232) -/

/-- Moaras sends an event message of its own from a port: it waits with its class (R48, R233). -/
def State.ptpEventSend (s : State) (p : Nat) (b : List Byte) : State :=
  s.sendClass p (s.ptpClass p) (.ptp p b) (fun t => t.ptpOut p b)

/-- The offset from the parent, in 2^-16 ns, corrects the time base where the network is the time source. -/
def State.ptpOffset (s : State) (off : Int) : State := if s.ptp.source = 0 then s.servo off else s

/-- The Sync of a master port that relays the grandmaster's time (802.1AS): `origin` is its preciseOriginTimestamp, `c` the
correction of the Follow_Up less the Sync's own transmit time. -/
def State.relaySync (s : State) (origin : List Byte) (c : Int) (p : Nat) : State :=
  let n := Tab.get 0 (s.port p).ptp.txSeq 0
  (s.updPtp p (fun q => { q with txSeq := Tab.set 0 q.txSeq 0 ((n + 1) % 65536), relay := some (n, origin, c) })).ptpEventSend p
    (s.ptpMsg p 0 0x0200 n 0 (be 10 0))

/-- A PTP relay instance passes the grandmaster's time on at its master ports; under the other profiles nothing is relayed
(R232). -/
def State.relayAll (s : State) (origin : List Byte) (c : Int) : State :=
  if s.ptp.profile = 3 then
    ((s.ports.filter (fun e => decide (e.1 < 512) && e.2.link && e.2.ptp.role == 1 && s.ptpMaster e.1)).map (·.1)).foldl
      (fun t p => t.relaySync origin c p) s
  else s

/-- A Sync received at `rx` is complete with its origin timestamp and its corrections: receive less transmit time, corrections
taken off, gives the offset once the delay of the path is taken off too. -/
def State.syncPair (s : State) (p : Nat) (rx : Int) (origin : List Byte) (corr : Int) : State :=
  let d := rx - msgTime origin 0 - corr
  let l : Int := ((s.port p).ptp.linkDelay : Nat)
  ((s.updPtp p (fun q => { q with ms := some d, syncIn := none })).relayAll origin (corr + l - rx)).ptpOffset (d - l)

/-- Keep a measured delay. -/
def State.setDelay (s : State) (p : Nat) (d : Int) : State :=
  s.updPtp p (fun q => { q with linkDelay := (d / 2).toNat, respIn := none })

/-- Sync, or the Follow_Up of a two-step one, on the port of the parent. -/
def State.takeSync (s : State) (p : Nat) (m : PtpRx) : State :=
  match m.stamp with
  | none => s
  | some t =>
    if msgTwoStep m.bytes then
      let seen : PtpSeen := { seq := msgSeq m.bytes, first := t, second := 0, corr := msgCorr m.bytes }
      s.updPtp p (fun q => { q with syncIn := some seen })
    else s.syncPair p t (slice m.bytes 34 10) (msgCorr m.bytes)
def State.takeFollowUp (s : State) (p : Nat) (b : List Byte) : State :=
  match (s.port p).ptp.syncIn with
  | some x => if x.seq = msgSeq b then s.syncPair p x.first (slice b 34 10) (x.corr + msgCorr b) else s
  | none => s

/-- Delay_Req at a master port: Delay_Resp. -/
def State.takeDelayReq (s : State) (p : Nat) (m : PtpRx) : State :=
  match m.stamp with
  | none => s
  | some t =>
    s.ptpGeneral p (s.ptpMsg p 9 0 (msgSeq m.bytes) (msgCorr m.bytes - t % 65536)
      (stampBytes (stampOf (t.toNat * 2 ^ 32)) ++ msgSender m.bytes))

/-- Delay_Resp to the port's own Delay_Req: the mean of both directions. -/
def State.takeDelayResp (s : State) (p : Nat) (b : List Byte) : State :=
  match (s.port p).ptp.reqTx, (s.port p).ptp.ms with
  | some r, some d =>
    if r.1 = msgSeq b ∧ msgAsker b = portIdentity p then s.setDelay p (d + (msgTime b 34 - r.2 - msgCorr b)) else s
  | _, _ => s

/-- Pdelay_Req: a two-step Pdelay_Resp. -/
def State.takePdelayReq (s : State) (p : Nat) (m : PtpRx) : State :=
  match m.stamp with
  | none => s
  | some t =>
    (s.updPtp p (fun q => { q with replyTo := some (msgSender m.bytes, msgSeq m.bytes, msgCorr m.bytes) })).ptpEventSend p
      (s.ptpMsg p 3 0x0200 (msgSeq m.bytes) (-(t % 65536)) (stampBytes (stampOf (t.toNat * 2 ^ 32)) ++ msgSender m.bytes))

/-- Pdelay_Resp to the port's own Pdelay_Req, and the Follow_Up of a two-step one. -/
def State.takePdelayResp (s : State) (p : Nat) (m : PtpRx) : State :=
  match (s.port p).ptp.reqTx, m.stamp with
  | some r, some t =>
    if r.1 ≠ msgSeq m.bytes ∨ msgAsker m.bytes ≠ portIdentity p then s
    else if msgTwoStep m.bytes then
      let seen : PtpSeen := { seq := msgSeq m.bytes, first := msgTime m.bytes 34, second := t, corr := msgCorr m.bytes }
      s.updPtp p (fun q => { q with respIn := some seen })
    else s.setDelay p (t - r.2 - msgCorr m.bytes)
  | _, _ => s
def State.takePdelayFollow (s : State) (p : Nat) (b : List Byte) : State :=
  match (s.port p).ptp.reqTx, (s.port p).ptp.respIn with
  | some r, some x =>
    if x.seq = msgSeq b ∧ r.1 = msgSeq b ∧ msgAsker b = portIdentity p then
      s.setDelay p (x.second - r.2 - (msgTime b 34 - x.first) - x.corr - msgCorr b)
    else s
  | _, _ => s

/-- The announce interval in ns. -/
def PtpCfg.announceNs (c : PtpCfg) : Nat := 1000000000 * 2 ^ c.logAnnounce.toNat

/-- The foreign masters of a port once one of them has sent an Announce: it has qualified with two of them within four intervals,
under 802.1AS with the first. -/
def PtpCfg.hear (c : PtpCfg) (now : Nat) (b : List Byte) (l : List PtpForeign) : List PtpForeign :=
  let old := l.find? (fun f => msgSender f.ann == msgSender b)
  let heard := ((old.map (·.heard)).getD []).filter (fun t => decide (now < t + 4 * c.announceNs)) ++ [now]
  l.filter (fun f => msgSender f.ann != msgSender b
      && f.heard.any (fun t => decide (now < t + c.announceTimeout * c.announceNs)))
    ++ [{ ann := b, heard, ok := (old.map (·.ok)).getD false || decide (2 ≤ heard.length) || c.profile == 3 }]

/-- Announce: its sender is a foreign master of the port. One 255 steps away, or whose path leads through the device, is not
heard. -/
def State.takeAnnounce (s : State) (p : Nat) (b : List Byte) : State :=
  let mine := (List.range ((pathTrace b).length / 8)).any (fun i => slice (pathTrace b) (8 * i) 8 == be 8 Config.ptpClockId)
  if 255 ≤ annSteps b ∨ mine then s
  else s.updPtp p (fun q => { q with foreign := s.ptp.hear s.upNs b q.foreign })

/-- The parent sent this message to this port. -/
def State.fromParent (s : State) (p : Nat) (b : List Byte) : Bool :=
  s.parent.any (fun x => x.1 == p && msgSender x.2 == msgSender b)

/-- What the protocol makes of a message. -/
def State.ptpTake (s : State) (p : Nat) (m : PtpRx) : State :=
  let clock := (s.port p).ptp.role == 1
  if s.ptpHears m.bytes = false then s
  else match ptpType m.bytes 0 with
    | 0 => if clock && s.fromParent p m.bytes then s.takeSync p m else s
    | 1 => if clock && s.ptpMaster p then s.takeDelayReq p m else s
    | 2 => s.takePdelayReq p m
    | 3 => s.takePdelayResp p m
    | 8 => if clock && s.fromParent p m.bytes then s.takeFollowUp p m.bytes else s
    | 9 => if clock && s.fromParent p m.bytes then s.takeDelayResp p m.bytes else s
    | 10 => s.takePdelayFollow p m.bytes
    | 11 => if clock then s.takeAnnounce p m.bytes else s
    | _ => s

/-- PTP_MESSAGE_PROCESS: Moaras takes the oldest message with these bytes that port `port` has handed to it; during a failover
they wait for the new active processor (R266). -/
def execPtpMessageProcess (port : Nat) (bytes : List Byte) (s : State) : Host.Outcome State Fault Refusal :=
  if 512 ≤ port then .fault (.noSuchUnit "network port")
  else if s.pwr.failing.isSome then .next s
  else match (s.port port).ptp.rx.find? (fun m => m.bytes == bytes) with
    | none => .next s
    | some m =>
      let a := s.updPtp port (fun q => { q with rx := q.rx.erase m })
      .next (if s.ptp.profile = 0 then a else a.ptpTake port m)

/-! ### What Moaras sends of itself -/

/-- The messages that a port may send at an interval: Announce and Sync of a master port, but for the Sync of a relay instance
that has a parent; Delay_Req of a slave port with the E2E profile, Pdelay_Req with a P2P one and on TC P2P ports. -/
def State.intervalTypes (s : State) (p : Nat) : List Nat :=
  let role := (s.port p).ptp.role
  (if role = 1 ∧ s.ptpMaster p then (if s.ptp.profile = 3 ∧ s.parent.isSome then [11] else [0, 11]) else []) ++ (if role = 1 ∧ s.ptp.profile = 1 ∧ s.ptpSlave p then [1] else [])
    ++ (if role = 3 ∨ (role = 1 ∧ s.ptp.profile ≠ 1) then [2] else [])

/-- Body of a message sent at an interval. -/
def State.intervalBody (s : State) (ty : Nat) : List Byte :=
  match ty with
  | 11 => s.annBody
  | 2 => be 20 0
  | _ => stampBytes (stampOf s.time.units)

/-- Send a message of a type at its interval; a Sync of a TWO_STEP port has twoStepFlag set. -/
def State.ptpSend (s : State) (p ty : Nat) : State :=
  let n := Tab.get 0 (s.port p).ptp.txSeq ty
  let b := s.ptpMsg p ty (if ty = 0 ∧ (s.port p).ptp.mode = 2 then 0x0200 else 0) n 0 (s.intervalBody ty)
  ((s.updPtp p (fun q => { q with txSeq := Tab.set 0 q.txSeq ty ((n + 1) % 65536) })).drawn 2).ptpEventSend p b

/-- The messages of one port; which interval has expired is a free value for each message. -/
def State.ptpIntervals (s : State) (p : Nat) : State :=
  (s.intervalTypes p).foldl (fun t ty => if bit t.freeVal 0 then (t.drawn 1).ptpSend p ty else t.drawn 1) s

/-- PTP_INTERVAL_TICK: clock and TC P2P ports with their link up send, but during a failover (R266). -/
def execPtpIntervalTick (s : State) : Host.Outcome State Fault Refusal :=
  .next (if s.ptp.profile = 0 ∨ s.pwr.failing.isSome then s
    else ((s.ports.filter (fun e => decide (e.1 < 512) && e.2.link)).map (·.1)).foldl State.ptpIntervals s)

end Sys2Proof.Machine
end

