-- ==== Sys2Proof/Machine/Device.lean ====
section
/-! DEFINITION. The mailbox registers and areas, the device commands, and the hitless restart of Moaras (R381 to R388, R400 to
R405, R419). -/

namespace Sys2Proof.Machine

/-! ### A mailbox seen by the host (R381 to R388) -/

/-- Bytes of the request area. -/
def Mbox.area (m : Mbox) (o n : Nat) : List Byte := Tab.readBytes 0 m.req o n

/-- The request that the request area of mailbox `b` spells; `ind` is what the host memory read of an INDIRECT payload
returned, none an error. -/
def Mbox.request (m : Mbox) (b : Nat) (ind : Option (List Byte)) : Nat × Req :=
  let h := m.area 0 40
  let fl := rd h 2 2
  let len := rd h 8 4
  let r : Req :=
    { box := b, indirect := bit fl 0, stage := bit fl 1, async := bit fl 2, flagsRsvd := decide (8 ≤ fl), tag := rd h 4 4, len,
      setId := rd h 12 4, payload := m.area 16 (min len 3824), payAddr := 0, respAddr := 0, cap := 0, indRsvd := false, readOk := true }
  (rd h 0 2,
    if bit fl 0 then
      { r with payload := padTo (min len 65536) (ind.getD []), payAddr := rd h 16 8, respAddr := rd h 24 8, cap := rd h 32 4,
               indRsvd := rd h 36 4 != 0, readOk := ind.isSome }
    else r)

/-- Rows about mailbox `b`: in D3hot its function reaches nothing. -/
def onMailbox (s : State) (b : Nat) (t : State) : Host.Outcome State Fault Refusal :=
  if 32 ≤ b then .fault (.noSuchUnit "mailbox")
  else if (s.host.link (s.boxFn b)).d3 then .next s
  else .next t

/-- MBX_DOORBELL: `ind` is the INDIRECT payload as host memory gives it, none when the read ends in an error. The command that
is queued runs by its own row. -/
def execMbxDoorbell (box : Nat) (ind : Option (List Byte)) (s : State) : Host.Outcome State Fault Refusal :=
  let q := (s.box box).request box ind
  onMailbox s box (s.submit q.1 q.2).1

/-- MBX_RELEASE. -/
def execMbxRelease (box : Nat) (s : State) : Host.Outcome State Fault Refusal :=
  onMailbox s box (if (s.box box).state = .responseReady then
    s.updBox box (fun m => { m with state := .free, resp := [] }) else s)

/-- The bytes of a write that fall into the request area, which begins at 0x100 and holds 3,840 bytes; `o` is the offset in
the mailbox. -/
def areaPart (o : Nat) (b : List Byte) : List Byte := (b.drop (0x100 - o)).take (0x1000 - max o 0x100)

/-- MBX_AREA_WRITE: a write of any size at offset `off` of a mailbox. The request area takes it unless the mailbox is SUBMITTED,
the response area never does, the rest is reserved. -/
def State.areaWrite (s : State) (box off : Nat) (b : List Byte) : State :=
  if 0x2000 ≤ off ∨ (off < 0x100 ∧ off + b.length ≤ 0x100) then s.reservedAccess (0x40000 + 0x2000 * box + off) b.length
  else if 0x1000 ≤ off then s.bumpMbx (s.boxFn box) 7 1
  else if (s.box box).state = .submitted then s.protocolError box 1
  else s.updBox box (fun m => { m with req := Tab.writeBytes 0 m.req (off - 0x100) (areaPart off b) })

def execMbxAreaWrite (box off : Nat) (bytes : List Byte) (s : State) : Host.Outcome State Fault Refusal :=
  onMailbox s box (s.areaWrite box off bytes)

/-! ### Device commands (R403, R404) -/

/-- Whole seconds of TCLK time since Moaras became ready. -/
def State.readySecs (s : State) : Nat := (s.up - s.mbx.readyUp) * 5 / 4 / 1000000000

/-- The active management processor: 1 MP-B. -/
def State.activeMp (s : State) : Nat := b2n ((s.mp 1).state == .active)

def devGetInfoBody : Body := readCmd (fun _ s =>
  Resp.ok (le 2 0x7216 ++ le 1 s.pwr.variant ++ le 1 s.pwr.stepping ++ le 1 s.pwr.roleStrap ++ le 1 s.role ++ le 1 s.activeMp
    ++ le 1 s.ident.running ++ le 2 s.ident.major ++ le 2 s.ident.minor ++ le 4 s.ident.build ++ le 4 s.mbx.boots
    ++ le 4 s.mbx.restarts ++ le 8 s.readySecs ++ padTo 16 devSerial ++ le 16 0))

/-- A recorded response as DEV_GET_RESULT returns it. -/
def HistEntry.result (h : HistEntry) : List Byte :=
  le 4 h.tag ++ le 2 h.status ++ le 2 h.detail ++ le 4 h.rlen ++ le 4 h.epoch ++ h.payload

def devGetResultBody : Body := readCmd (fun r s =>
  let fn := s.boxFn r.box
  let tag := rd r.payload 0 4
  if tag = 0 then Resp.err stBadArg dTagUnknown
  else match s.mbx.recorded fn tag with
    | some h => Resp.ok h.result
    | none => if (s.taggedJob fn tag).isSome then Resp.err stPending dRunning else Resp.err stBadArg dTagUnknown)

def devEchoBody : Body := readCmd (fun r _ => Resp.ok r.payload)

def devGetCountersBody : Body := readCmd (fun r s => Resp.ok (ctrBytes s.tel.mbxCtr (8 * s.boxFn r.box) 8))

/-- DEV_RESTART: the restart begins when OK has been posted. -/
def devRestartBody : Body := fun r s =>
  if !resv r.payload 0 4 then errCmd s stBadArg dNone
  else if s.mbx.restarting.isSome then errCmd s stNotPermitted dNone
  else okCmd { s with mbx := { s.mbx with restarting := some 0 } } []

def execDevGetInfo (r : Req) (s : State) : Host.Outcome State Fault Refusal := mailboxCommand 0x0101 devGetInfoBody r s
def execDevGetResult (r : Req) (s : State) : Host.Outcome State Fault Refusal := mailboxCommand 0x0102 devGetResultBody r s
def execDevEcho (r : Req) (s : State) : Host.Outcome State Fault Refusal := mailboxCommand 0x0103 devEchoBody r s
def execDevGetCounters (r : Req) (s : State) : Host.Outcome State Fault Refusal :=
  mailboxCommand 0x0105 devGetCountersBody r s

/-! ### The start of a hitless restart (R401, R419, R453) -/

/-- The tag of the command that mailbox `b` waits for. -/
def State.waitTag (s : State) (b : Nat) : Nat :=
  match s.mbx.jobs.find? (fun j => (j.boxed && j.req.box == b) || j.waiters.any (fun w => w.1 == b)) with
  | some j => j.req.tag
  | none => match s.mbx.gapCmds.find? (fun c => c.boxed && c.req.box == b) with
    | some c => c.req.tag
    | none => 0

/-- Step 1: a SUBMITTED mailbox is answered LOST. -/
def State.answerLost (s : State) (b : Nat) : State :=
  if (s.box b).state = .submitted then
    s.postBox b (s.waitTag b) false 0 { Resp.err stPending dLost with epoch := some 0 }
  else s

/-- An uncommitted set is aborted, its prepared state removed; STAGED_SET_ABORTED (R419). -/
def State.abortSet (s : State) (cause : Nat) (t : SetSt) : State :=
  if t.committed ∨ t.state = .baked ∨ t.state = .aborted then s
  else
    let u := s.unprepare t
    ({ u with bake := u.bake.updSet t.id (fun x => { x with state := .aborted, req := none }) }).raiseUp 0x0D06 sevInfo
      (le 4 t.id ++ le 1 cause)

/-- A peer without its session. -/
def Peer.noSession (e : Peer) : Peer := { Peer.init with admitted := e.admitted, hash := e.hash, epoch := e.epoch }

/-- The sessions of a device end: the manager's with its workers, or the worker's with its manager. -/
def BakeSt.endSessions (b : BakeSt) : BakeSt :=
  { b with
    peers := (b.peers.map (fun e => (e.1, e.2.noSession))).filter (fun e => decide (e.2 ≠ Peer.init)),
    enrolled := false, frozen := false, enrolling := false, ownIdx := 0xFF, msgs := [], fwdReqs := [], setup := none,
    dom := b.dom.bind (fun d => if d.decided then some d else none),
    sets := b.sets.map (fun t => { t with req := none }) }

/-- Moaras forgets what it was doing: the tag history and every queued command, with the buffers they hold. -/
def State.forgetJobs (s : State) : State :=
  let t := s.mbx.jobs.foldl (fun t j => t.freeBuf j.buf) s
  { t with mbx := { t.mbx with
      hist0 := [], hist1 := [], jobs := [], gapCmds := []
      lostAsync := (t.mbx.jobs.filter (fun j => j.req.async)).map (fun j => (j.op, j.req)) } }

/-- Moaras stops to restart, for cause 0 a command, 1 its watchdog, 2 management loss. -/
def State.startRestart (s : State) (cause : Nat) : State :=
  let a := { s with mbx := { s.mbx with ready := false, restarting := some cause, restarts := (s.mbx.restarts + 1) % 2 ^ 32 } }
  let b := ((List.range 32).foldl State.answerLost a).forgetJobs
  let c := b.bake.sets.foldl (fun t x => t.abortSet cause x) b
  { c with
    bake := c.bake.endSessions
    swp := { c.swp with restarted := true }
    ident := { c.ident with doe0 := [], doe1 := [], smb := [], spdmNeg := [], spdmVer := [], spdmLog := [] }
    pwr := { c.pwr with slices := c.pwr.slices.map (fun e => (e.1, { e.2 with req := none })) } }

/-- After a command: a restart that it asked for begins. -/
def State.afterCommand (s : State) : State :=
  match s.mbx.restarting with
  | some c => if s.mbx.ready then s.startRestart c else s
  | none => s

/-- What a command leaves, with the restart that it asked for. -/
def restartAfter : Host.Outcome State Fault Refusal → Host.Outcome State Fault Refusal
  | .next t => .next t.afterCommand
  | o => o

/-- DEV_RESTART. -/
def execDevRestart (r : Req) (s : State) : Host.Outcome State Fault Refusal :=
  restartAfter (mailboxCommand 0x0104 devRestartBody r s)

/-- MOARAS_WATCHDOG: cause 1 the watchdog, 2 management loss. -/
def execMoarasWatchdog (cause : Nat) (s : State) : Host.Outcome State Fault Refusal :=
  .next (if s.mbx.ready ∨ (cause = 2 ∧ s.mbx.restarting = none ∧ s.pwr.bringup = none) then
    s.startRestart (if cause = 2 then 2 else 1) else s)

/-! ### Its end -/

/-- A processor that is to run Moaras when none is active: which one, the spec does not say (log entry 3). -/
def State.reviveMp (s : State) : State :=
  if (List.range 2).any (fun k => (s.mp k).state == .active) then s
  else (s.updMp (s.freeVal % 2) (fun m => { m with state := .active, consec := 0 })).drawn 1

/-- The events that waited. -/
def State.flushHeld (s : State) : State :=
  s.mbx.heldEvents.foldl (fun t e => t.raise e.1 e.2.1 e.2.2) { s with mbx := { s.mbx with heldEvents := [] } }

/-- Moaras is back: LOST for the ASYNC commands, the events that waited, MOARAS_RESTARTED, MOARAS_READY. -/
def State.backUp (s : State) (cause : Nat) : State :=
  let a := { s with mbx := { s.mbx with restarting := none, ready := true, readyUp := s.up, lostAsync := [] } }
  let b := s.mbx.lostAsync.foldl (fun t j => t.asyncDone j.1 j.2 (Resp.err stPending dLost)) a
  (b.flushHeld).raise 0x0106 sevInfo (le 4 s.mbx.boots ++ le 1 cause)

/-- Every lane transmitter goes off: no link stays up (R445). -/
def State.linksOff (s : State) : State :=
  ((List.range 512).filter (fun p => (s.port p).link)).foldl (fun t p => t.linkDown p none) s

/-- The restart ends: a Moaras boot, the fixity batches closed under the old key, LOCKED becomes HOLDOVER (R437, R438,
R497). With no image that may run Moaras stays down. -/
def State.endRestart (s : State) (cause : Nat) : State :=
  let a := (s.fixKeyChange s.mbx.boots).moarasBoot
  let b := a.sourceLost
  if b.ident.booted then (b.reviveMp.healthSince s).backUp cause else (b.linksOff).healthSince s

/-- MOARAS_RESTART_DONE. -/
def execMoarasRestartDone (s : State) : Host.Outcome State Fault Refusal :=
  .next (match s.mbx.restarting with
    | some c => if s.mbx.ready ∨ s.ident.console.isSome then s else s.endRestart c
    | none => s)

end Sys2Proof.Machine
end

