-- ==== Sys2Proof/Machine/Domain.lean ====
section
/-! DEFINITION. The Nelautus domain: received messages, heartbeats and loss, enrolment, the members' and the manager's part of
the exchange, and the domain commands (R420 to R433, R452, R453). -/

namespace Sys2Proof.Machine

/-! ### Receiving (R423, R424) -/

/-- A sequence number is acceptable: above the highest, or within the 64 below it and not yet accepted. -/
def Peer.seqOk (e : Peer) (n : Nat) : Bool :=
  decide (e.rxHigh < n) || (decide (e.rxHigh ≤ n + 64) && !e.rxSeen.contains n)

/-- The sequence numbers of a message's frames, of which the first is `n` (R423). -/
def frameSeqs (n : Nat) (body : List Byte) : List Nat := (List.range (domFrames body)).map (n + ·)

/-- A message whose frames bear `l` is accepted at a port. -/
def Peer.accept (e : Peer) (l : List Nat) (port : Nat) : Peer :=
  let h := l.foldl max e.rxHigh
  { e with rxHigh := h, rxSeen := (l ++ e.rxSeen).filter (fun k => decide (h ≤ k + 64)), ports := insertRising port e.ports }

/-- The sender is a party to a session with this device: a worker at the manager, one whose END_SESSION is under way among them;
the manager at a worker. -/
def State.session (s : State) (i : Nat) : Bool :=
  if s.role = 2 then decide (1 ≤ i) && decide (i ≤ 63) && ((s.peer i).enrolled || (s.peer i).leaving)
  else s.role == 1 && i == 0 && (s.peer 0).enrolled

/-- Bytes 0 to 31 of its fragment `k`. -/
def domInHead (m : DomIn) (k : Nat) : List Byte :=
  domHeader m.dst m.mac m.sender m.receiver m.keyEpoch m.id k (domFrames m.body) (m.seq + k)

/-- The tags that the frames of a message have under the secret of the direction from its sender (R424). -/
def State.domTags (s : State) (type : Nat) (m : DomIn) : List (List Byte) :=
  (List.range (domFrames m.body)).map (fun k => (sealText (s.peer m.sender).rxSecret (domInHead m k) (domText type m.body k)).2)

/-- The message passes R424: its tags verify, its key epoch is current, the sequence numbers of its frames are acceptable. -/
def State.authOk (s : State) (type : Nat) (m : DomIn) : Bool :=
  s.session m.sender && m.tags == s.domTags type m && m.keyEpoch == (s.peer m.sender).keyEpoch
    && (frameSeqs m.seq m.body).all (s.peer m.sender).seqOk

/-- DOM_AUTH_FAILURES, and DOM_AUTH_FAIL at most once a second for each peer: peer index, port. -/
def State.authFail (s : State) (m : DomIn) : State :=
  ({ s with bake := { s.bake with authFails := (s.bake.authFails + 1) % 2 ^ 32 } }).raiseLimited 0x0E07 sevWarning m.sender
    1000000000 (le 1 m.sender ++ le 2 m.port)

/-- RECEIVED for a message that is confirmed. -/
def State.confirm (s : State) (type : Nat) (m : DomIn) : State :=
  if unconfirmed type then s else s.domSend m.sender 3 (be 2 m.id ++ be 2 0)

/-- The frames of a domain message at a port whose link is up are counted; with a bad FCS they are dropped (R45, R68). -/
def State.domRx (s : State) (m : DomIn) (act : State → State) : State :=
  if (s.port m.port).link = false then s
  else if m.fcsOk = false then s.ctlRx m.port m.raw false (fun t => t)
  else act ((s.bumpPort m.port 0 (domFrames m.body)).bumpPort m.port 1 (domBytes m.body))

/-- An authentic message is accepted and confirmed. -/
def State.domTake (s : State) (type : Nat) (m : DomIn) : State :=
  (s.updPeer m.sender (fun e => e.accept (frameSeqs m.seq m.body) m.port)).confirm type m

/-- An authentic message acts, another counts. Of a worker whose END_SESSION is under way only RECEIVED acts. -/
def State.domAct (s : State) (type : Nat) (m : DomIn) (act : State → State) : State :=
  if s.authOk type m = false then s.authFail m
  else if (s.peer m.sender).leaving && type != 3 then s.domTake type m
  else act (s.domTake type m)

/-- The message is for this device, on an enabled domain port (R423; log entry 52). -/
def State.domMine (s : State) (m : DomIn) : Bool := (s.port m.port).domainPort && m.receiver == s.devIndex

/-- A domain message at a port: consumed; where it is for this device, it acts. -/
def State.domIn (s : State) (type : Nat) (m : DomIn) (act : State → State) : State :=
  s.domRx m (fun t => if t.domMine m then t.domAct type m act else t)

/-- The row of a message type. -/
def domRow (type : Nat) (m : DomIn) (act : State → State) (s : State) : Host.Outcome State Fault Refusal :=
  if 512 ≤ m.port then .fault (.noSuchUnit "network port") else .next (s.domIn type m act)

/-- A message that only the manager acts on, and one that only a worker acts on. -/
def State.atManager (s : State) (t : State) : State := if s.role = 2 then t else s
def State.atWorker (s : State) (t : State) : State := if s.role = 1 then t else s

/-! ### Heartbeats (R426) -/

/-- The body of HEARTBEAT and HEARTBEAT_ACK: bake epoch, time offset. -/
def State.beatBody (s : State) : List Byte := be 4 s.bake.epoch ++ be 4 (unsigned 32 s.bake.offsetNs)

/-- EPOCH_MISMATCH: device index, the epoch on record, the epoch received. -/
def State.mismatch (s : State) (i a b : Nat) : State := s.raiseIf (a != 0 && a != b) 0x0E05 sevWarning (le 1 i ++ le 4 a ++ le 4 b)

/-- One worker at the manager's tick: an unanswered HEARTBEAT counts, the third in a row makes the worker ABSENT. -/
def State.beatPeer (s : State) (i : Nat) : State :=
  let e := s.peer i
  let n := if e.awaitAck then e.misses + 1 else e.misses
  let lost := e.present && decide (3 ≤ n)
  let t := (s.updPeer i (fun e => { e with misses := min n 65535, awaitAck := true, present := e.present && !lost })).raiseIf lost
    0x0E01 sevWarning (le 1 i)
  t.domSend i 1 t.beatBody

/-- HEARTBEAT_TICK: every 100 ms the manager sends to each enrolled worker. -/
def execHeartbeatTick (s : State) : Host.Outcome State Fault Refusal :=
  .next (if s.role = 2 then
    ((List.range 64).filter (fun i => decide (1 ≤ i) && (s.peer i).enrolled)).foldl State.beatPeer s else s)

/-- HEARTBEAT at a worker: answered; a FROZEN worker is enrolled again. The manager's record of its epoch, with which R426
compares, is the epoch it last told the manager (log entry 51). -/
def State.gotBeat (s : State) (m : DomIn) : State :=
  let e := rdBe m.body 0 4
  let t := if s.bake.frozen then
      (({ s with bake := { s.bake with frozen := false } }).raise 0x0E04 sevInfo (le 4 s.bake.epoch)).mismatch s.devIndex
        (s.peer 0).told s.bake.epoch
    else s
  let u := t.updPeer 0 (fun p => { p with epoch := e, present := true, told := s.bake.epoch })
  u.domSend 0 2 u.beatBody
def execHeartbeat (m : DomIn) (s : State) : Host.Outcome State Fault Refusal :=
  domRow 1 m (fun t => t.atWorker (t.gotBeat m)) s

/-- A worker that answers may have been FROZEN: the manager misses a second answer as it sends the third HEARTBEAT, with which the
worker's three intervals have passed (R426; log entry 51). -/
def Peer.back (e : Peer) : Bool := !e.present || decide (2 ≤ e.misses)

/-- HEARTBEAT_ACK at the manager: the worker is PRESENT. -/
def State.gotAck (s : State) (m : DomIn) : State :=
  let i := m.sender
  let e := rdBe m.body 0 4
  let was := s.peer i
  let t := s.updPeer i (fun p => { p with awaitAck := false, misses := 0, present := true, epoch := e })
  let u := t.raiseIf (!was.present) 0x0E02 sevInfo (le 1 i)
  if was.back then u.mismatch i was.epoch e else u
def execHeartbeatAck (m : DomIn) (s : State) : Host.Outcome State Fault Refusal :=
  domRow 2 m (fun t => t.atManager (t.gotAck m)) s

/-- A set has sent ACK and holds no GO, so that only the manager knows the outcome (R430). -/
def SetSt.doubtful (t : SetSt) : Bool := t.domain && !t.go && (t.acked || t.inDoubt)

/-- A set that is PREPARING or ARMED and has not reached its commit point returns to OPEN, but for one in doubt (R426, R430);
the BAKE_COMMIT that waits for it is answered as a withdrawn one (log entry 41). -/
def State.freeSet (s : State) : State :=
  match s.bake.inBake with
  | some t => if t.committed ∨ t.doubtful then s else (s.reopen t).answerSet t (s.withdrawn t)
  | none => s

/-- The same for a worker that leaves the domain: only a set of a domain bake. -/
def State.freeDomSet (s : State) : State := if s.bake.inBake.any (·.domain) then s.freeSet else s

/-- An enrolled worker becomes FROZEN; MANAGER_LOST. -/
def State.freeze (s : State) : State :=
  let t := s.updPeer 0 (fun p => { p with present := false })
  ({ t with bake := { t.bake with frozen := true } }).freeSet.raise 0x0E03 sevWarning (le 4 s.bake.epoch)

/-- MANAGER_LOSS_TIMEOUT: three intervals without a valid HEARTBEAT. -/
def execManagerLossTimeout (s : State) : Host.Outcome State Fault Refusal :=
  .next (if s.role = 1 ∧ s.bake.enrolled ∧ ¬ s.bake.frozen then s.freeze else s)

/-! ### Confirmation and resends (R425) -/

/-- The END_SESSION of a removed worker is done with: what remains of it is a new admission, if it has one. -/
def Peer.left (e : Peer) : Peer := { Peer.init with admitted := e.admitted, hash := e.hash }

/-- No message to a removed worker is left: its session goes (R453). -/
def State.parted (s : State) (i : Nat) : State :=
  if (s.peer i).leaving ∧ ¬ s.bake.msgs.any (fun x => x.peer == i && x.clear.isNone) then s.updPeer i Peer.left else s

/-- RECEIVED: the message it names is confirmed. -/
def State.gotReceived (s : State) (m : DomIn) : State :=
  ({ s with bake := { s.bake with
      msgs := s.bake.msgs.filter (fun x => !(x.peer == m.sender && x.id == rdBe m.body 0 2)) } }).parted m.sender

/-- The frames are in clear text: key epoch 0 and zero tags (R423). -/
def inClear (m : DomIn) : Bool := m.keyEpoch == 0 && m.tags.all (· == noTag)

/-- RECEIVED in clear text confirms a message in clear text. -/
def State.clearReceived (s : State) (m : DomIn) : State :=
  { s with bake := { s.bake with
      msgs := s.bake.msgs.filter (fun x => !(x.clear.isSome && x.peer == m.sender && x.id == rdBe m.body 0 2)) } }

def execReceived (m : DomIn) (s : State) : Host.Outcome State Fault Refusal :=
  if 512 ≤ m.port then .fault (.noSuchUnit "network port")
  else .next (s.domRx m (fun t =>
    if t.domMine m = false then t
    else if inClear m then t.clearReceived m
    else t.domAct 3 m (fun u => u.gotReceived m)))

/-- The oldest DOM_FORWARD to a peer whose request `mine` picks completes. -/
def State.fwdAnswer (s : State) (peer : Nat) (mine : Req → Bool) (x : Resp) : State :=
  match s.bake.fwdReqs.find? (fun f => f.1 == peer && mine f.2) with
  | none => s
  | some f => ({ s with bake := { s.bake with fwdReqs := s.bake.fwdReqs.erase f } }).complete 0x0E04 f.2 x

/-- A message has failed after its fifth send: a FORWARD_REQ ends its DOM_FORWARD, one in clear text the enrolment that it
belongs to (R452), an END_SESSION the session; the others are found by their deadlines. -/
def State.msgFailed (s : State) (x : DomMsg) : State :=
  let t := { s with bake := { s.bake with
    msgs := s.bake.msgs.filter (fun y => y != x), setup := if x.clear.isSome ∧ x.clear = s.bake.setup then none else s.bake.setup } }
  if x.type = 0x10 then t.fwdAnswer x.peer (fun r => r.payload.drop 4 == x.body) (Resp.err stTimeout dNone) else t.parted x.peer

/-- The next send of a message. -/
def State.putAgain (s : State) (x : DomMsg) : State :=
  match x.clear with
  | none => s.domPut x.peer x.type x.id x.body x.sends
  | some p =>
    match s.clearPort p x.sends with
    | some q => s.clearPut q x.peer x.type x.id x.body
    | none => s

/-- DOMAIN_RESEND_TIMEOUT: 2 ms without RECEIVED. -/
def State.resendMsg (s : State) (peer id : Nat) : State :=
  match s.bake.msgs.find? (fun x => x.peer == peer && x.id == id) with
  | none => s
  | some x =>
    if 5 ≤ x.sends then s.msgFailed x
    else
      let t := s.putAgain x
      { t with bake := { t.bake with msgs := t.bake.msgs.map (fun y => if y = x then { y with sends := y.sends + 1 } else y) } }

/-- A device index, or 0xFF for one that is not enrolled (R423). -/
def peerIndex (i : Nat) : Bool := decide (i < 64) || i == 255

def execDomainResendTimeout (peer id : Nat) (s : State) : Host.Outcome State Fault Refusal :=
  if peerIndex peer then .next (s.resendMsg peer id) else .fault (.noSuchUnit "domain peer")

/-! ### Forwarding at the manager (R421) -/

/-- The DOM_FORWARD to a worker whose request has a tag. -/
def fwdTag (tag : Nat) (r : Req) : Bool := rd r.payload 8 4 == tag

/-- The table changes of a worker's sets as the manager knows them, after the inner request `q` has been answered with `x`
(R413, R427; log entry 43): a staged table change joins its set in the place of an earlier write to the same item (R408), and
BAKE_OPEN begins a set. -/
def changesAfter (l : List (Nat × StagedCmd)) (q x : List Byte) : List (Nat × StagedCmd) :=
  let op := rd q 0 2
  let set := rd q 12 4
  let c : StagedCmd := ⟨op, q.drop 16⟩
  if rd x 4 2 ≠ stOk then l
  else if op = 0x0D01 then l.filter (fun e => e.1 != rd x 16 4)
  else if bit (rd q 2 2) 1 && tableChange op then
    l.filter (fun e => !(e.1 == set && itemKey e.2.op e.2.payload == itemKey op c.payload)) ++ [(set, c)]
  else l

/-- What an answered DOM_FORWARD tells the manager of the worker's sets. -/
def State.fwdNote (s : State) (m : DomIn) : State :=
  match s.bake.fwdReqs.find? (fun f => f.1 == m.sender && fwdTag (rd m.body 0 4) f.2) with
  | some f => s.updPeer m.sender (fun e => { e with changes := changesAfter e.changes (f.2.payload.drop 4) m.body })
  | none => s

/-- FORWARD_RSP: the worker's response header and payload are the response of the DOM_FORWARD whose request has its tag. -/
def execForwardRsp (m : DomIn) (s : State) : Host.Outcome State Fault Refusal :=
  domRow 0x11 m (fun t => t.atManager
    ((t.fwdNote m).fwdAnswer m.sender (fwdTag (rd m.body 0 4)) (Resp.ok m.body))) s

def domForwardBody : Body := fun r s =>
  let i := rd r.payload 0 1
  if !(decide (1 ≤ i) && decide (i ≤ 63) && resv r.payload 1 3) then errCmd s stBadArg dNone
  else if (s.peer i).enrolled = false then errCmd s stNotPermitted 0x0E08
  else if (s.peer i).present = false then errCmd s stBadArg 0x0E02
  else (({ s with bake := { s.bake with fwdReqs := s.bake.fwdReqs ++ [(i, r)] } }).domSend i 0x10 (r.payload.drop 4), none)

/-! ### The exchange (R428 to R430) -/

/-- PREPARE at a member: bake ID, set ID, instant. Whether the bake has more members a worker is not told: a free value where it
matters (log entry 42). A repeat of the PREPARE whose set is already under way changes nothing (log entry 108). -/
def State.gotPrepare (s : State) (m : DomIn) : State :=
  let b := m.body
  let id := rdBe b 4 4
  let at' := 1000000000 * rdBe b 8 8 + rdBe b 16 4
  let lead := ((s.bake.set? id).map SetSt.lead).getD 1000000
  let several := bit s.freeVal 0
  if (s.bake.domSet (rdBe b 0 4)).isSome then s
  else match leadFault s.nowNs at' lead with
  | some e => s.sendVote (rdBe b 0 4) false e.1 e.2
  | none =>
    match (s.drawn 1).startBake id (fun t =>
      { t with domain := true, several, bakeId := rdBe b 0 4, sec := rdBe b 8 8, ns := rdBe b 16 4 }) with
    | (u, some e) => u.sendVote (rdBe b 0 4) false e.1 e.2
    | (u, none) => u
def execPrepare (m : DomIn) (s : State) : Host.Outcome State Fault Refusal :=
  domRow 0x20 m (fun t => t.atWorker (t.gotPrepare m)) s

def execVote (m : DomIn) (s : State) : Host.Outcome State Fault Refusal :=
  domRow 0x21 m (fun t => t.atManager (match t.bake.dom with
    | some d =>
      if d.id = rdBe m.body 0 4 then
        t.domVote m.sender (rdBe m.body 4 1 == 1) (rdBe m.body 6 2) (rdBe m.body 8 2) (rdBe m.body 12 4)
      else t
    | none => t)) s

/-- COMMIT at a member: the set stays ARMED, ACK answers. -/
def State.gotCommit (s : State) (m : DomIn) : State :=
  match s.bake.domSet (rdBe m.body 0 4) with
  | some t => if t.state = .armed then (s.takeCommit t.bakeId (rdBe m.body 4 4)).domSend 0 0x23 (be 4 t.bakeId) else s
  | none => s
def execCommit (m : DomIn) (s : State) : Host.Outcome State Fault Refusal :=
  domRow 0x22 m (fun t => t.atWorker (t.gotCommit m)) s

/-- ACK at the manager. -/
def execAck (m : DomIn) (s : State) : Host.Outcome State Fault Refusal :=
  domRow 0x23 m (fun t => t.atManager (match t.bake.dom with
    | some d => if d.id = rdBe m.body 0 4 then
        (t.updDom (fun d => d.updMember m.sender (fun x => { x with acked := true }))).domAcked else t
    | none => t)) s

/-- GO, or OUTCOME with result GO, at a member. -/
def State.gotGo (s : State) (bakeId epoch : Nat) : State :=
  match s.bake.domSet bakeId with
  | some t => if t.state = .armed ∧ t.go = false then s.takeGo t epoch else s
  | none => s
def execGo (m : DomIn) (s : State) : Host.Outcome State Fault Refusal :=
  domRow 0x24 m (fun t => t.atWorker (t.gotGo (rdBe m.body 0 4) (rdBe m.body 4 4))) s

def execAbort (m : DomIn) (s : State) : Host.Outcome State Fault Refusal :=
  domRow 0x25 m (fun t => t.atWorker (t.dropDomSet (rdBe m.body 0 4) (rdBe m.body 4 2) (rdBe m.body 6 2))) s

/-- OUTCOME_QUERY at the manager: GO once the decision is recorded, ABORT otherwise. -/
def execOutcomeQuery (m : DomIn) (s : State) : Host.Outcome State Fault Refusal :=
  domRow 0x26 m (fun t => t.atManager (
    let id := rdBe m.body 0 4
    match t.bake.outcomes.find? (fun o => o.1 == id) with
    | some o => t.domSend m.sender 0x27 (be 4 id ++ be 1 0 ++ be 3 0 ++ be 4 o.2)
    | none => t.domSend m.sender 0x27 (be 4 id ++ be 1 1 ++ be 3 0 ++ be 4 0))) s

/-- OUTCOME at a member. -/
def execOutcome (m : DomIn) (s : State) : Host.Outcome State Fault Refusal :=
  domRow 0x27 m (fun t => t.atWorker (
    if rdBe m.body 4 1 = 0 then t.gotGo (rdBe m.body 0 4) (rdBe m.body 8 4)
    else t.dropDomSet (rdBe m.body 0 4) stOk dNone)) s

/-- OUTCOME_QUERY_TIMER: a member with ACK sent and no GO asks, once every 5 ms; a FROZEN one when the manager returns. -/
def execOutcomeQueryTimer (s : State) : Host.Outcome State Fault Refusal :=
  .next (match s.bake.armed with
    | some t => if s.role = 1 ∧ t.domain ∧ (t.acked ∨ t.inDoubt) ∧ ¬ t.go ∧ ¬ s.bake.frozen then s.domSend 0 0x26 (be 4 t.bakeId) else s
    | none => s)

/-- VOTE_DEADLINE: a vote is missing at T − G − 10 ms. -/
def execVoteDeadline (s : State) : Host.Outcome State Fault Refusal :=
  .next (match s.bake.dom with
    | some d => if d.members.all (·.voted) then s else s.domFail stTimeout 0x0E04
    | none => s)

/-- ACK_DEADLINE: an ACK is missing at T − G. -/
def execAckDeadline (s : State) : Host.Outcome State Fault Refusal :=
  .next (match s.bake.dom with
    | some d => if d.decided then s else s.domFail stTimeout 0x0E05
    | none => s)

/-! ### Enrolment (R422, R452, R453) -/

/-- A worker that is to enrol: not enrolled, or FROZEN (R452). -/
def State.enrols (s : State) : Bool := s.role == 1 && (!s.bake.enrolled || s.bake.frozen)

/-- ENROL_TICK: every second a worker that is not enrolled, or FROZEN, sends ENROL on each enabled domain port. -/
def execEnrolTick (s : State) : Host.Outcome State Fault Refusal :=
  .next (if s.enrols then
    let t := s.openPorts.foldl (fun t p => t.clearSend p 0 0x30 []) s
    { t with bake := { t.bake with enrolling := !s.openPorts.isEmpty } }
  else s)

/-- A new session with a peer, its secrets given: sequences and key epoch start anew. -/
def Peer.newSession (e : Peer) (port : Nat) (tx rx : List Byte) : Peer :=
  { e with enrolled := true, keyEpoch := 0, rxHigh := 0, rxSeen := [], txSeq := 0, ports := insertRising port e.ports, awaitAck := false,
           misses := 0, sealed := 0, keyUpd := false, txSecret := tx, rxSecret := rx, leaving := false }

/-- A session is set up on a port: the secrets of its directions come of both sides' random key pairs: free values (log entry 57). -/
def State.startSession (s : State) (i p : Nat) : State :=
  (s.updPeer i (fun e => e.newSession p (be 48 s.freeVal) (be 48 (s.drawn 1).freeVal))).drawn 2

/-- The worker that a DIK hash names among the admitted. -/
def State.admittedAs (s : State) (hash : List Byte) : Option Nat :=
  (List.range 64).find? (fun i => decide (1 ≤ i) && (s.peer i).admitted && (s.peer i).hash == hash)

/-- SPDM_AUTH_FAIL for a failed exchange on the domain channel, transport 3; the spec gives no code for the failing step (log
entry 3). -/
def State.spdmFail (s : State) (transport : Nat) (hash : List Byte) : State :=
  (s.raise 0x0F04 sevWarning (le 1 transport ++ padTo 32 hash ++ le 1 s.freeVal)).drawn 1

/-- SPDM request codes of the channel, and their answers (PRESUMED, DSP0274). -/
def spdmCode (body : List Byte) : Nat := rd body 1 1
def spdmGetVersion : Nat := 0x84
def spdmKeyUpdate : Nat := 0xE9
def spdmKeyUpdateAck : Nat := 0x69
def spdmEndSession : Nat := 0xEC
/-- An END_SESSION message. -/
def endSessionMsg : List Byte := be 1 0x13 ++ be 1 spdmEndSession ++ be 2 0

/-- GET_VERSION, with which the manager begins the exchange. -/
def getVersionMsg : List Byte := be 1 0x10 ++ be 1 spdmGetVersion ++ be 2 0

/-- VERSION: the versions 1.2 and 1.3 (R448). -/
def spdmVersions : List Nat := [0x12, 0x13]
def spdmVersionList : List Byte := le 1 0 ++ le 1 spdmVersions.length ++ spdmVersions.flatMap (fun v => le 2 (256 * v))
def versionMsg : List Byte := be 1 0x10 ++ be 1 4 ++ be 2 0 ++ spdmVersionList

/-- The side that an exchange fails on ends it with END_SESSION (R452). -/
def State.endExchange (s : State) (m : DomIn) : State := s.clearSend m.port m.sender 0x30 endSessionMsg

/-- The exchange as the manager ends it: a worker without admission is refused with NOT_ENROLLED. -/
def State.managerEnrol (s : State) (m : DomIn) (x : EnrolIn) : State :=
  match s.admittedAs x.hash with
  | none => (s.raise 0x0E06 sevWarning (padTo 32 x.hash)).endExchange m
  | some i => if x.root && x.proof then s.startSession i m.port else (s.spdmFail 3 x.hash).endExchange m

/-- The worker accepts the manager: a chain that ends at the Valvel Root CA, OU=MA in the certificate of the Device Identity Key,
the pinned key hash, where there is a pin (R452). -/
def State.acceptsManager (s : State) (x : EnrolIn) : Bool :=
  x.root && x.unit == ascii "MA" && x.proof && decide (1 ≤ x.idx) && decide (x.idx ≤ 63) && (match s.ident.pin with
    | some h => h == x.hash
    | none => true)

/-- The exchange as a worker ends it. -/
def State.workerEnrol (s : State) (m : DomIn) (x : EnrolIn) : State :=
  if s.acceptsManager x then
    let t := s.startSession 0 m.port
    { t with bake := { t.bake with enrolled := true, enrolling := false, ownIdx := x.idx } }
  else (s.spdmFail 3 x.hash).endExchange m

/-- A set-up begins or ends at the manager. -/
def State.setSetup (s : State) (p : Option Nat) : State := { s with bake := { s.bake with setup := p } }

/-- ENROL in clear text at the manager: the first one begins a set-up with GET_VERSION; the others are ignored while it runs; the
message that ends the exchange carries its outcome. -/
def State.managerSetup (s : State) (m : DomIn) (x : EnrolIn) : State :=
  if m.body = [] then
    (if s.bake.setup.isSome then s else (s.setSetup (some m.port)).clearSend m.port m.sender 0x30 getVersionMsg)
  else if s.bake.setup ≠ some m.port then s
  else if spdmCode m.body = spdmEndSession then s.setSetup none
  else (s.setSetup none).managerEnrol m x

/-- ENROL in clear text at a worker that is to enrol: GET_VERSION is answered; the message that ends the exchange carries its
outcome. -/
def State.workerSetup (s : State) (m : DomIn) (x : EnrolIn) : State :=
  if m.body = [] ∨ spdmCode m.body = spdmEndSession then s
  else if spdmCode m.body = spdmGetVersion then s.clearSend m.port m.sender 0x30 versionMsg
  else s.workerEnrol m x

/-- ENROL in clear text is confirmed in clear text (R425). -/
def State.clearEnrol (s : State) (m : DomIn) (x : EnrolIn) : State :=
  let t := s.clearSend m.port m.sender 3 (be 2 m.id ++ be 2 0)
  if t.role = 2 then t.managerSetup m x else if t.enrols then t.workerSetup m x else t

/-- The keys of both directions advance (R453). -/
def Peer.nextKeys (e : Peer) : Peer :=
  { e with keyEpoch := (e.keyEpoch + 1) % 256, keyUpd := false, sealed := 0, txSecret := nextSecret domVersion e.txSecret,
           rxSecret := nextSecret domVersion e.rxSecret }

/-- A sealed SPDM message at the manager or at a worker (R453): the key epoch advances as KEY_UPDATE_ACK arrives, at the
worker as it sends it; END_SESSION leaves the worker not enrolled. -/
def State.sealedSpdm (s : State) (m : DomIn) : State :=
  if s.role = 2 then
    if spdmCode m.body = spdmKeyUpdateAck ∧ (s.peer m.sender).keyUpd then s.updPeer m.sender Peer.nextKeys else s
  else if spdmCode m.body = spdmKeyUpdate then
    (s.domSend 0 0x30 (be 1 0x13 ++ be 1 spdmKeyUpdateAck ++ slice m.body 2 2)).updPeer 0 Peer.nextKeys
  else if spdmCode m.body = spdmEndSession then
    let t := s.updPeer 0 (fun _ => Peer.init)
    ({ t with bake := { t.bake with enrolled := false, frozen := false, enrolling := false, ownIdx := 0xFF } }).freeDomSet
  else s

/-- ENROL: `m` carries an SPDM message, sealed under a session one of R453's, in clear text one of the exchange of R452. The
exchange between VERSION and its end has no row: `x` is what it has shown by then (log entry 57). -/
def execEnrol (m : DomIn) (idx : Nat) (hash : List Byte) (x : EnrolShown) (s : State) : Host.Outcome State Fault Refusal :=
  if 512 ≤ m.port then .fault (.noSuchUnit "network port")
  else .next (s.domRx m (fun t =>
    if t.domMine m = false then t
    else if inClear m then t.clearEnrol m { x with idx, hash }
    else t.domAct 0x30 m (fun u => u.sealedSpdm m)))

/-- KEY_UPDATE_TIMER: 2^32 frames sealed, or 24 h (R453). -/
def execKeyUpdateTimer (peer : Nat) (s : State) : Host.Outcome State Fault Refusal :=
  if 64 ≤ peer then .fault (.noSuchUnit "domain peer")
  else .next (if s.role = 2 ∧ (s.peer peer).enrolled then
    (s.domSend peer 0x30 (be 1 0x13 ++ be 1 spdmKeyUpdate ++ be 1 2 ++ be 1 0)).updPeer peer (fun e => { e with keyUpd := true })
  else s)

/-! ### Commands (R433) -/

def domSetPortBody : Body := fun r s =>
  let p := r.payload
  match checkDomSetPort p s with
  | some e => errCmd s e.1 e.2
  | none =>
    if rd p 2 1 = 0 ∧ s.cutsPeer (fun q => q == rd p 0 2) then errCmd s stNotPermitted 0x0D08
    else okCmd ((applyDomSetPort p s).shadow 0x0E01 p) []

/-- DOM_ADMIT: removing an enrolled worker ends its session. -/
def domAdmitBody : Body := fun r s =>
  let p := r.payload
  let i := rd p 0 1
  if !(decide (1 ≤ i) && decide (i ≤ 63) && decide (rd p 1 1 ≤ 1) && resv p 2 2) then errCmd s stBadArg dNone
  else
    let t := if rd p 1 1 = 1 ∧ (s.peer i).enrolled then s.domSend i 0x30 endSessionMsg else s
    okCmd ((applyDomAdmit p t).shadow 0x0E02 p) []

/-- Code of the domain state. -/
def State.domState (s : State) : Nat :=
  if s.role = 1 then
    (if s.bake.enrolled then (if s.bake.frozen then 3 else 2) else if s.bake.enrolling then 1 else 0)
  else 0

/-- The ID of the domain bake in progress here; 0: none. -/
def State.activeBake (s : State) : Nat :=
  match s.bake.dom with
  | some d => d.id
  | none => ((s.bake.inBake.filter (·.domain)).map (·.bakeId)).getD 0

/-- Present, misses and epoch of an index; the manager's own entry is itself. -/
def State.memberBytes (s : State) (i : Nat) : List Byte :=
  if s.role = 2 ∧ i = 0 then le 1 1 ++ le 1 0 ++ le 2 0 ++ le 4 s.bake.epoch
  else le 1 (b2n (s.peer i).present) ++ le 1 0 ++ le 2 (s.peer i).misses ++ le 4 (s.peer i).epoch

def domGetStatusBody : Body := readCmd (fun _ s =>
  Resp.ok (le 1 s.role ++ le 1 s.domState ++ le 1 s.devIndex ++ le 1 0 ++ le 4 s.bake.epoch ++ le 4 s.activeBake ++ le 4 s.bake.authFails
    ++ (List.range 64).flatMap s.memberBytes))

/-- Members of a DOM_BAKE. -/
def membersOf (p : List Byte) : List Member :=
  (List.range (rd p 14 1)).map (fun i => { Member.init with idx := rd p (24 + 8 * i) 1, set := rd p (28 + 8 * i) 4 })

/-- Every index once. -/
def distinct : List Nat → Bool
  | [] => true
  | a :: l => !l.contains a && distinct l

/-- Ranges of a DOM_BAKE. -/
def domBakeOk (p : List Byte) : Bool :=
  decide (rd p 8 4 ≤ 999999999) && decide (5 ≤ rd p 12 2) && decide (rd p 12 2 ≤ 1000) && decide (1 ≤ rd p 14 1)
    && decide (rd p 14 1 ≤ 64) && resv p 15 9
    && (List.range (rd p 14 1)).all (fun i => decide (rd p (24 + 8 * i) 1 ≤ 63) && resv p (25 + 8 * i) 3)
    && distinct ((membersOf p).map (·.idx))

/-- The table changes of a member's set as the manager knows them: of its own set, and of what it has forwarded to a worker's
(R413, R427; log entry 43). -/
def State.memberChanges (s : State) (m : Member) : Nat :=
  if m.idx = 0 then ((s.bake.set? m.set).map SetSt.changes).getD 0
  else ((s.peer m.idx).changes.filter (fun e => e.1 == m.set)).length

/-- The largest lead time among the members. -/
def State.domLead (s : State) (l : List Member) : Nat := (l.map (fun m => leadOf (s.memberChanges m))).foldl max (leadOf 0)

/-- The instant of a domain bake is closer to its DOORBELL than the longest lead time, the margin and 20 ms (R427). -/
def State.domLeadFault (s : State) (r : Req) : Option (Nat × Nat) :=
  let p := r.payload
  leadFault (s.rungAt 0x0E05 r) (1000000000 * rd p 0 8 + rd p 8 4) (s.domLead (membersOf p) + 1000000 * rd p 12 2 + 20000000)

/-- The manager's own set starts its bake; a refusal is its vote no. -/
def State.domOwn (s : State) (d : DomBake) : State :=
  match d.members.find? (fun m => m.idx == 0) with
  | none => s
  | some m =>
    match s.startBake m.set (fun t => { t with domain := true, several := decide (1 < d.members.length), bakeId := d.id, sec := d.sec,
                                               ns := d.ns }) with
    | (u, none) => u
    | (u, some e) => u.domVote 0 false e.1 e.2 s.bake.epoch

/-- The domain bake that a request asks for. -/
def BakeSt.newDom (b : BakeSt) (r : Req) : DomBake :=
  { DomBake.init with id := b.nextBake, sec := rd r.payload 0 8, ns := rd r.payload 8 4, margin := rd r.payload 12 2,
                      members := membersOf r.payload, req := r }

/-- The body of the PREPARE message to a worker (R427). -/
def DomBake.prepareBody (d : DomBake) (i : Nat) : List Byte :=
  be 4 d.id ++ be 4 (((d.members.find? (fun m => m.idx == i)).map (·.set)).getD 0) ++ be 8 d.sec ++ be 4 d.ns

/-- A domain bake begins: PREPARE to each worker member, and step 1 of R412 on the manager's own set. -/
def State.domBegin (s : State) (d : DomBake) : State :=
  let t := { s with bake := { s.bake with dom := some d, nextBake := (s.bake.nextBake + 1) % 2 ^ 32 } }
  (d.workers.foldl (fun u i => u.domSend i 0x20 (d.prepareBody i)) t).domOwn d

/-- DOM_BAKE. -/
def domBakeBody : Body := fun r s =>
  let l := membersOf r.payload
  if domBakeOk r.payload = false then errCmd s stBadArg dNone
  else if s.bake.dom.isSome then errCmd s stBusy 0x0E07
  else if l.any (fun m => m.idx != 0 && !(s.peer m.idx).present) then errCmd s stBadArg 0x0E02
  else match s.domLeadFault r with
    | some e => errCmd s e.1 e.2
    | none => (s.domBegin (s.bake.newDom r), none)

def domAbortBody : Body := fun _ s =>
  match s.bake.dom with
  | none => errCmd s stNotPermitted dNone
  | some d => if d.decided then errCmd s stNotPermitted 0x0D02 else okCmd (s.domFail stOk dNone) []

/-- DOM_LEAVE: not enrolled, the configuration kept. -/
def domLeaveBody : Body := fun _ s =>
  let t := (s.updPeer 0 (fun _ => Peer.init)).freeDomSet
  okCmd { t with bake := { t.bake with enrolled := false, frozen := false, enrolling := false, ownIdx := 0xFF } } []

def execDomSetPort (r : Req) (s : State) : Host.Outcome State Fault Refusal := mailboxCommand 0x0E01 domSetPortBody r s
def execDomAdmit (r : Req) (s : State) : Host.Outcome State Fault Refusal := mailboxCommand 0x0E02 domAdmitBody r s
def execDomGetStatus (r : Req) (s : State) : Host.Outcome State Fault Refusal := mailboxCommand 0x0E03 domGetStatusBody r s
def execDomForward (r : Req) (s : State) : Host.Outcome State Fault Refusal := mailboxCommand 0x0E04 domForwardBody r s
def execDomBake (r : Req) (s : State) : Host.Outcome State Fault Refusal := mailboxCommand 0x0E05 domBakeBody r s
def execDomAbort (r : Req) (s : State) : Host.Outcome State Fault Refusal := mailboxCommand 0x0E06 domAbortBody r s
def execDomLeave (r : Req) (s : State) : Host.Outcome State Fault Refusal := mailboxCommand 0x0E07 domLeaveBody r s

end Sys2Proof.Machine
end

