-- ==== Sys2Proof/Machine/Identity.lean ====
section
/-! DEFINITION. The identity commands (R454, R455). -/

namespace Sys2Proof.Machine

def State.updIdent (s : State) (f : IdSt → IdSt) : State := { s with ident := f s.ident }

/-! ### Commands that read (R454) -/

def idGetInfoBody : Body := readCmd (fun _ s =>
  let i := s.ident
  Resp.ok (keyHash 0 0 ++ keyHash 1 i.aliasNum ++ keyHash 2 s.mbx.boots ++ le 4 s.mbx.boots ++ le 2 i.runSvn ++ le 2 i.minSvn
    ++ le 1 i.running ++ le 1 i.pref ++ le 1 i.slotA.stands ++ le 1 i.slotB.stands ++ le 1 i.debug ++ le 3 0))

/-- The certificate that a request asks for (R440). -/
def State.certBytes (s : State) (which boots : Nat) : Option (List Byte) :=
  match which with
  | 3 => some (s.ident.aliasCert s.pwr.variant).encode
  | 4 => some s.ident.curReceipt
  | 5 => (s.ident.certs.find? (fun c => c.1 == boots)).map (·.2)
  | k => some (baseCert k s.pwr.variant).encode

def idGetCertBody : Body := readCmd (fun r s =>
  let p := r.payload
  let off := rd p 8 4
  if 5 < rd p 0 1 ∨ resv p 1 3 = false then Resp.err stBadArg dNone
  else match s.certBytes (rd p 0 1) (rd p 4 4) with
    | some c =>
      if c.length < off then Resp.err stBadArg 0x0F04
      else Resp.ok (le 4 c.length ++ le 4 (min 2048 (c.length - off)) ++ padTo 2048 (c.drop off))
    | none => Resp.err stBadArg 0x0F04)

def idGetMeasurementsBody : Body := readCmd (fun _ s =>
  Resp.ok ([1, 2, 3, 4].flatMap (fun k => padTo 48 (s.ident.digest k)) ++ s.ident.measure6 ++ le 2 0))

/-! ### Commands that write flash and fuses (R442, R446, R454) -/

/-- Data written from offset `a`. A byte that has not been erased first takes a free value (log entry 3). -/
def writeFlash (free : Nat → Nat) : Nat → List Byte → Slot → Slot
  | _, [], t => t
  | a, b :: l, t => writeFlash free (a + 1) l (t.put a (if t.read a = 0xFF then b else BitVec.ofNat 8 (free a)))

def idWriteImageBody : Body := fun r s =>
  let p := r.payload
  let n := rd p 8 4
  let k := rd p 0 1
  if 1 < k ∨ 1 < rd p 1 1 ∨ resv p 2 2 = false ∨ n = 0 ∨ 65524 < n ∨ 25165824 < rd p 4 4 + n then errCmd s stBadArg dNone
  else if k = s.ident.running then errCmd s stNotPermitted 0x0F01
  else
    let t := s.ident.slot k
    let e := if rd p 1 1 = 1 then t.erased else t
    okCmd ((s.updIdent (fun i => i.setSlot k
      (writeFlash (fun a => Config.freeValue (s.free + a)) (rd p 4 4) (slice p 12 n) e))).drawn 25165824) []

def idVerifyImageBody : Body := fun r s =>
  let p := r.payload
  let k := rd p 0 1
  if 1 < k ∨ resv p 1 3 = false then errCmd s stBadArg dNone
  else
    let t := s.ident.slot k
    let res := t.check s.ident.minSvn
    okCmd (s.updIdent (fun i => i.setSlot k { t with result := res }))
      (le 1 res ++ le 1 0 ++ le 2 t.svn ++ le 4 0 ++ t.version)

/-- What ID_SET_BOOT writes: slot, TRIAL, x8 + x8; or its refusal. -/
def State.setBoot (s : State) (p : List Byte) : Except (Nat × Nat) (Nat × Bool × Bool) :=
  let k := rd p 0 1
  if 1 < k ∨ 3 < rd p 1 1 ∨ resv p 2 2 = false then .error (stBadArg, dNone)
  else if (s.ident.slot k).stands ≠ 0 then .error (stNotPermitted, 0x0F02)
  else .ok (k, bit (rd p 1 1) 0, bit (rd p 1 1) 1)

def idSetBootBody : Body := fun r s =>
  match s.setBoot r.payload with
  | .error e => errCmd s e.1 e.2
  | .ok (k, trial, x8) => okCmd (s.updIdent (fun i => i.writeCfg k trial x8)) []

/-- ID_COMMIT_SVN: fuse bits are blown until the minimum equals the running SVN; SVN_COMMITTED. -/
def idCommitSvnBody : Body := fun r s =>
  let p := r.payload
  if resv p 2 2 = false then errCmd s stBadArg dNone
  else if s.ident.runTrial ∨ rd p 0 2 ≠ s.ident.runSvn then errCmd s stNotPermitted 0x0F03
  else
    let m := max s.ident.minSvn s.ident.runSvn
    okCmd ((s.updIdent (fun i => { i with minSvn := m })).raise 0x0F02 sevInfo (le 2 m)) (le 2 m ++ le 2 0)

def idPinManagerBody : Body := fun r s =>
  let p := r.payload
  if 1 < rd p 0 1 ∨ resv p 1 3 = false then errCmd s stBadArg dNone
  else okCmd (s.updIdent (fun i => { i with pin := if rd p 0 1 = 0 then some (slice p 4 32) else none })) []

def execIdGetInfo (r : Req) (s : State) : Host.Outcome State Fault Refusal := mailboxCommand 0x0F01 idGetInfoBody r s
def execIdGetCert (r : Req) (s : State) : Host.Outcome State Fault Refusal := mailboxCommand 0x0F02 idGetCertBody r s
def execIdGetMeasurements (r : Req) (s : State) : Host.Outcome State Fault Refusal :=
  mailboxCommand 0x0F03 idGetMeasurementsBody r s
def execIdWriteImage (r : Req) (s : State) : Host.Outcome State Fault Refusal := mailboxCommand 0x0F04 idWriteImageBody r s
def execIdVerifyImage (r : Req) (s : State) : Host.Outcome State Fault Refusal := mailboxCommand 0x0F05 idVerifyImageBody r s
def execIdSetBoot (r : Req) (s : State) : Host.Outcome State Fault Refusal := mailboxCommand 0x0F06 idSetBootBody r s
def execIdCommitSvn (r : Req) (s : State) : Host.Outcome State Fault Refusal := mailboxCommand 0x0F07 idCommitSvnBody r s
def execIdPinManager (r : Req) (s : State) : Host.Outcome State Fault Refusal := mailboxCommand 0x0F08 idPinManagerBody r s

end Sys2Proof.Machine
end

