-- ==== Sys2Proof/Machine/Redundancy.lean ====
section
/-! DEFINITION. Leaven cores and management processors as redundant units, the health report and the redundancy commands
(R260 to R271). -/

namespace Sys2Proof.Machine

/-! ### Leaven cores (R262, R263, R300) -/

/-- A physical core of a cluster. -/
def coreExists (c k : Nat) : Bool := decide (c < 16) && decide (k < 13)

/-- A row about a core. -/
def onCore (c k : Nat) (t : State) : Host.Outcome State Fault Refusal :=
  if coreExists c k then .next t else .fault (.noSuchUnit "Leaven core")

/-- The slot that a physical core serves. -/
def Cluster.slotOf (c : Cluster) (k : Nat) : Option Nat := (List.range 12).find? (fun i => c.slots.getD i none == some k)

/-- A work item discarded as its core stops: on a committed entry its record is SKIPPED now, on another one at its commit. -/
def State.loseItem (s : State) (c : Nat) (t : Tap) : State :=
  let u := s.countCore c t.core 2 1
  if t.committed then (u.endTap c t.id).writeRecord c { t with skip := 3, core := none }
  else u.updFix c (fun f => { f with taps := f.taps.map (fun x => if x.id = t.id then { x with skip := 3, core := none } else x) })

/-- The work items of a core are discarded. -/
def State.loseItems (s : State) (c k : Nat) : State :=
  ((s.fix c).taps.filter (fun t => t.core == some k)).foldl (fun u t => u.loseItem c t) s

/-- The core leaves its slot, which waits for the spare if there is one. -/
def Cluster.lose (x : Cluster) (i k : Nat) (spare : Bool) : Cluster :=
  { x with slots := x.slots.set i none, failed := insertRising k x.failed,
           pendSub := if spare then x.pendSub ++ [(i, k)] else x.pendSub }

/-- Slots of a cluster that a core serves. -/
def Cluster.serving (x : Cluster) : Nat := (x.slots.filter (·.isSome)).length

/-- A core in service fails; its counters stop (R303). -/
def State.coreFail (s : State) (c k : Nat) : State :=
  let x := s.cluster c
  match x.slotOf k with
  | none => s
  | some i =>
    let spare := !x.ready.isEmpty && decide (x.pendSub.length < x.ready.length)
    let t := ((((s.readCore c k).updCluster c (fun y => y.lose i k spare)).loseItems c k).repairAdd 1 (16 * c + k)).healthChanged
    t.raiseIf (!spare) 0x0904 sevUncorrectable (le 1 c ++ le 4 (x.serving - 1))

/-- CORE_FAILURE (R263). -/
def execCoreFailure (cluster core : Nat) (s : State) : Host.Outcome State Fault Refusal :=
  onCore cluster core (s.coreFail cluster core)

/-- CORE_WATCHDOG_EXPIRY: a core whose work item exceeds 100 us is found failed (R262). -/
def execCoreWatchdogExpiry (cluster core : Nat) (s : State) : Host.Outcome State Fault Refusal :=
  onCore cluster core (s.coreFail cluster core)

/-- Skip notices in a slot's bank are lost: counted as unrecorded skips (R284). -/
def State.clearBank (s : State) (c i : Nat) : State :=
  let gone := (s.fix c).notices.filter (fun t => t.stripe == i)
  let t := s.updFix c (fun f => { f with notices := f.notices.filter (fun t => t.stripe != i) })
  gone.foldl (fun u n => (u.dropPos c n.id).unrecorded c n.flow 7) t

/-- The spare takes a slot. -/
def Cluster.seat (x : Cluster) (i k : Nat) : Cluster :=
  { x with slots := x.slots.set i (some k), pendSub := x.pendSub.filter (fun p => p.1 != i), substs := (x.substs + 1) % 65536 }

/-- CORE_SUBSTITUTION: at a work-item boundary the spare takes the slot of a failed core. -/
def execCoreSubstitution (cluster : Nat) (bankBad : Bool) (s : State) : Host.Outcome State Fault Refusal :=
  if 16 ≤ cluster then .fault (.noSuchUnit "Leaven cluster")
  else
    let x := s.cluster cluster
    match x.pendSub, x.ready with
    | (i, old) :: _, k :: _ =>
      let t := ((s.updCluster cluster (fun y => y.seat i k)).bumpRed 10 1).raise 0x0902 sevCorrectable
        (le 1 cluster ++ le 1 i ++ le 1 old ++ le 1 k)
      .next (((if bankBad then t.clearBank cluster i else t).fixDispatch cluster).healthChanged)
    | (i, _) :: _, [] =>
      .next (((s.updCluster cluster (fun y => { y with pendSub := y.pendSub.filter (fun p => p.1 != i) })).healthChanged).raise
        0x0904 sevUncorrectable (le 1 cluster ++ le 4 x.serving))
    | [], _ => .next s

/-- The resync command that waits for a core. -/
def State.coreJob (s : State) (c k : Nat) : Option Job :=
  s.mbx.jobs.find? (fun j => j.op == 0x0907 && j.running && rd j.req.payload 0 1 == 1 && rd j.req.payload 1 1 == c
    && rd j.req.payload 2 1 == k)

/-- Complete a job, if there is one. -/
def State.finishJob (s : State) (j : Option Job) : State :=
  match j with
  | some x => s.complete x.op x.req (Resp.ok [])
  | none => s

/-- A self-test run ends on a core that is a spare, or that is tested to become one. -/
def State.selfTest (s : State) (c k : Nat) (pass : Bool) : State :=
  let x := s.cluster c
  let t := s.updCluster c (fun y => { y with runs := (y.runs + 1) % 2 ^ 32 })
  let bad := fun u : State => (((if x.resync.contains k then u else u.readCore c k).updCluster c (fun y =>
    { y with runFails := (y.runFails + 1) % 2 ^ 32, failed := insertRising k y.failed, testing := without y.testing k,
             resync := without y.resync k })).bumpRed 12 1).repairAdd 1 (16 * c + k)
  if x.testing.contains k then
    if pass then (((t.updCluster c (fun y =>
        { y with testing := without y.testing k, resync := without y.resync k })).repairDel 1 (16 * c + k)).healthChanged)
      |>.finishJob (s.coreJob c k)
    else ((bad t).healthChanged).finishJob (s.coreJob c k)
  else if x.ready.contains k then
    if pass then t else ((bad t).healthChanged).raise 0x0903 sevWarning (le 1 c ++ le 1 k)
  else s

/-- SPARE_SELFTEST_DONE: a run on a spare, on a core under test, or the in-service test of a core, whose failure is a core
failure (R262). -/
def execSpareSelftestDone (cluster core : Nat) (pass : Bool) (s : State) : Host.Outcome State Fault Refusal :=
  onCore cluster core (if ((s.cluster cluster).slotOf core).isSome then (if pass then s else s.coreFail cluster core)
    else s.selfTest cluster core pass)

/-! ### Management processors (R264 to R267) -/

/-- Causes of a failover as MP_FAILOVER carries them; the spec names the causes and gives them no codes. -/
def mpCauseMissed : Nat := 0
def mpCauseCommand : Nat := 3

/-- The processor in a state. -/
def State.mpIn (s : State) (x : MpState) : Option Nat := [0, 1].find? (fun k => (s.mp k).state == x)

/-- Change a processor's state. -/
def State.setMp (s : State) (k : Nat) (f : Mp → Mp) : State := (s.updMp k f).healthIf ((f (s.mp k)).state != (s.mp k).state)

/-- The active processor fails with no standby: management is lost (R265). -/
def State.mgmtLost (s : State) (k : Nat) : State :=
  let t := (s.setMp k (fun m => { m with state := .failed, restarted := false })).repairAdd 2 k
  { t with mbx := { t.mbx with ready := false } }

/-- A fault of the active processor: failover begins if a standby is ready, else management is lost. A fault during a commanded
switchover makes it a failover. -/
def State.mpFault (s : State) (cause : Nat) : State :=
  match s.mpIn .active with
  | none => s
  | some k =>
    if s.pwr.failing.any (fun c => c != mpCauseCommand) then s
    else if (s.mpIn .standby).isSome then { s with pwr := { s.pwr with failing := some cause } }
    else if s.pwr.failing.isSome then s
    else s.mgmtLost k

/-- MP_FAULT: watchdog or uncorrectable fault of the active processor. -/
def execMpFault (cause : Nat) (s : State) : Host.Outcome State Fault Refusal := .next (s.mpFault cause)

/-- Heartbeats of a processor, counted by the other. -/
def Mp.beat (m : Mp) (b : Bool) : Mp :=
  if b then { m with consec := 0 } else { m with missed := (m.missed + 1) % 2 ^ 32, consec := m.consec + 1 }

/-- The standby has missed 10 heartbeats in a row. -/
def State.standbyLost (s : State) (k : Nat) : State :=
  ((s.setMp k (fun m => { m with state := .failed, restarted := false })).repairAdd 2 k).raise 0x0906 sevWarning (le 1 k)

/-- The digests differ: the standby is taken to be at fault. -/
def State.mpMismatch (s : State) (k : Nat) : State :=
  (s.setMp k (fun m => { m with state := .resync, mismatches := (m.mismatches + 1) % 2 ^ 32 })).raise 0x0907 sevWarning (le 1 k)

/-- MP_HEARTBEAT_TICK: `beatA` and `beatB` say whether the heartbeat of MP-A and MP-B has come, `digestOk` whether the two
digests agree. Only a processor that is active or standby sends one. -/
def execMpHeartbeatTick (beatA beatB digestOk : Bool) (s : State) : Host.Outcome State Fault Refusal :=
  let live := fun k : Nat => (s.mp k).state == .active || (s.mp k).state == .standby
  let t := if live 0 then s.updMp 0 (fun m => m.beat beatA) else s
  let u := if live 1 then t.updMp 1 (fun m => m.beat beatB) else t
  let a := match s.mpIn .active with
    | some k => if 10 ≤ (u.mp k).consec then u.mpFault mpCauseMissed else u
    | none => u
  .next (match s.mpIn .standby with
    | some k =>
      if 10 ≤ (u.mp k).consec then a.standbyLost k
      else if digestOk || s.pwr.failing.isSome then a
      else a.mpMismatch k
    | none => a)

/-- The switchover command that waits for its failover. -/
def State.switchJob (s : State) : Option Job :=
  s.mbx.jobs.find? (fun j => j.op == 0x0906 && j.running && rd j.req.payload 0 1 == 0)

/-- The resync command that waits for a processor. -/
def State.mpJob (s : State) : Option Job :=
  s.mbx.jobs.find? (fun j => j.op == 0x0907 && j.running && rd j.req.payload 0 1 == 0)

/-- MP_RESTART_DONE: a FAILED processor's own restart, or the resynchronisation of one in RESYNC, ends. Its state is copied
from the active. UNIT_RESYNCED carries unit 0, a management processor. -/
def execMpRestartDone (mp : Nat) (pass : Bool) (s : State) : Host.Outcome State Fault Refusal :=
  if 2 ≤ mp then .fault (.noSuchUnit "management processor")
  else
    let m := s.mp mp
    if (m.state = .failed ∧ m.restarted = false ∨ m.state = .resync) ∧ (s.mpIn .active).isSome then
      let t := if pass then ((s.setMp mp (fun x => { x with state := .standby, restarted := true, consec := 0 })).repairDel 2
            mp).raise 0x0908 sevInfo (le 1 0)
        else ((s.setMp mp (fun x => { x with state := .failed, restarted := true })).repairAdd 2 mp).bumpRed 12 1
      .next (t.finishJob (if m.state = .resync then s.mpJob else none))
    else .next s

/-! ### Health report (R268) -/

/-- Code of a processor state. -/
def MpState.code : MpState → Nat
  | .active => 0
  | .standby => 1
  | .failed => 2
  | .resync => 3

/-- Standbys in service: the units of R260 that stand by after cold reset and now serve. -/
def State.standbysServing (s : State) : Nat :=
  b2n ((s.plane 4).state == .active)
    + ((List.range 16).filter (fun c => ((s.cluster c).slotOf 12).isSome)).length
    + b2n ((s.mp 1).state == .active)
    + (s.groups.filter (fun g => g.2.spare == 1)).length + (s.pwr.hbms.filter (fun k => k.2.spare == 1)).length

/-- Standbys remaining: units ready to take over. -/
def State.standbysReady (s : State) : Nat :=
  s.planesReady + ((List.range 16).map (fun c => (s.cluster c).ready.length)).sum + s.mpsIn .standby
    + (64 - (s.groups.filter (fun g => g.2.spare != 0)).length) + (4 - (s.pwr.hbms.filter (fun k => k.2.spare != 0)).length)

/-- Correctable errors of a stack in the last 24 h. -/
def State.recentErrors (s : State) (k : Nat) : Nat :=
  ((s.stack k).errors.filter (fun e => decide (s.upNs / 1000000000 ≤ e.2.2 + 86400))).length

/-- A list of physical cores as a mask. -/
def maskOf (l : List Nat) : Nat := (l.map (fun k => 2 ^ k)).sum

/-- The report. -/
def State.healthReport (s : State) : List Byte :=
  le 2 1 ++ le 1 s.overall ++ le 1 0 ++ le 4 s.pwr.healthGen ++ le 8 s.time.sec ++ le 4 s.time.ns ++ le 2 s.standbysServing
    ++ le 2 s.standbysReady ++ le 8 0
    ++ (List.range 5).flatMap (fun k => le 1 (s.plane k).state.code ++ le 1 (s.plane k).cause ++ le 2 0
      ++ le 4 (s.plane k).failures)
    ++ (List.range 16).flatMap (fun c => le 1 (s.cluster c).ready.length ++ le 1 0 ++ le 2 (maskOf (s.cluster c).failed)
      ++ le 2 (s.cluster c).substs ++ le 2 0 ++ le 4 (s.cluster c).runs ++ le 4 (s.cluster c).runFails)
    ++ [0, 1].flatMap (fun k => le 1 (s.mp k).state.code ++ le 1 s.ident.running ++ le 2 0 ++ le 4 (s.mp k).failovers
      ++ le 4 (s.mp k).mismatches ++ le 4 (s.mp k).missed)
    ++ (List.range 64).flatMap (fun g => le 1 (s.group g).spare ++ le 1 (s.group g).laneOnSpare ++ le 2 0)
    ++ (List.range 4).flatMap (fun k => le 2 (s.stack k).repaired ++ le 1 (s.stack k).spare ++ le 1 0 ++ le 4 (s.recentErrors k))
    ++ (List.range 512).flatMap (fun l => le 1 (s.lane l).health)

/-! ### Commands (R270) -/

def redGetHealthBody : Body := readCmd (fun _ s => Resp.ok s.healthReport)

/-- The spare takes a slot by command; the displaced core becomes a spare once its self-test passes. -/
def State.switchCore (s : State) (c i k : Nat) : State :=
  let old := (s.cluster c).slots.getD i none
  let t := s.updCluster c (fun x =>
    let y := x.seat i k
    match old with
    | some o => { y with testing := insertRising o y.testing }
    | none => y)
  ((t.bumpRed 10 1).fixDispatch c).healthChanged

/-- RED_SWITCHOVER: NOT_PERMITTED without a standby. -/
def redSwitchoverBody : Body := fun r s =>
  let u := rd r.payload 0 1
  let c := rd r.payload 1 1
  let i := rd r.payload 2 1
  if 2 ≤ u ∨ resv r.payload 3 1 = false ∨ (u = 1 ∧ (16 ≤ c ∨ 12 ≤ i)) then errCmd s stBadArg 0x0901
  else if u = 0 then
    if (s.mpIn .standby).isNone ∨ s.pwr.failing.isSome then errCmd s stNotPermitted dNone
    else ({ s with pwr := { s.pwr with failing := some mpCauseCommand } }, none)
  else match (s.cluster c).ready with
    | [] => errCmd s stNotPermitted dNone
    | k :: _ => okCmd (s.switchCore c i k) []

/-- RED_RESYNC: a unit that is not FAILED is refused; the command ends with the unit's test. -/
def redResyncBody : Body := fun r s =>
  let u := rd r.payload 0 1
  let c := rd r.payload 1 1
  let k := rd r.payload 2 1
  if 2 ≤ u ∨ resv r.payload 3 1 = false then errCmd s stBadArg 0x0901
  else if u = 0 then
    match s.mpIn .failed with
    | none => errCmd s stBadArg 0x0901
    | some m => (s.setMp m (fun x => { x with state := .resync }), none)
  else if coreExists c k && (s.cluster c).failed.contains k then
    ((s.updCluster c (fun x => { x with failed := without x.failed k, testing := insertRising k x.testing,
                                         resync := insertRising k x.resync })).healthChanged, none)
  else errCmd s stBadArg 0x0901

def redGetCountersBody : Body := readCmd (fun _ s => Resp.ok (ctrBytes s.tel.redCtr 0 13))

def execRedGetHealth (r : Req) (s : State) : Host.Outcome State Fault Refusal := mailboxCommand 0x0905 redGetHealthBody r s
def execRedSwitchover (r : Req) (s : State) : Host.Outcome State Fault Refusal := mailboxCommand 0x0906 redSwitchoverBody r s
def execRedResync (r : Req) (s : State) : Host.Outcome State Fault Refusal := mailboxCommand 0x0907 redResyncBody r s
def execRedGetCounters (r : Req) (s : State) : Host.Outcome State Fault Refusal := mailboxCommand 0x0908 redGetCountersBody r s

end Sys2Proof.Machine
end

