-- ==== Sys2Proof/Machine/Slices.lean ====
section
/-! DEFINITION. Slice reset, slice park and unpark (R494 to R496). -/

namespace Sys2Proof.Machine

/-- A staged set is PREPARING or ARMED (R495). -/
def State.bakeHolds (s : State) : Bool := s.bake.sets.any (fun t => t.state == .preparing || t.state == .armed)

/-- A slice is between states. -/
def SliceSt.between (x : SliceSt) : Bool := x.state == .resetting || x.state == .restoring

/-- Steps 1 to 3 of R494 for cause 0 a command, 1 a fault; the slice's configuration is then to be reapplied.
SLICE_RESET_DONE. -/
def State.resetSlice (s : State) (n cause : Nat) (req : Option (Nat × Req)) : State :=
  let f := s.flushSlice n
  let t := { f.1 with swp := { f.1.swp with slicesReset := setBit f.1.swp.slicesReset n } }
  ((t.updSlice n (fun x => { x with state := .restoring, cause, req })).bumpPwr 6 f.2).raise 0x1107 sevInfo
    (le 1 n ++ le 1 cause ++ le 4 f.2)

def pwrSliceResetBody : Body := fun r s =>
  let n := rd r.payload 0 1
  if 15 < n ∨ resv r.payload 1 3 = false then errCmd s stBadArg 0x1101
  else if s.bakeHolds then errCmd s stBusy 0x0D04
  else if (s.sliceSt n).between then errCmd s stBusy 0x1104
  else if (s.sliceSt n).state = .parked then errCmd s stNotPermitted 0x1104
  else (s.resetSlice n 0 (some (0x1104, r)), none)

/-- A host port of slice `n` with its FIFOs enabled keeps the slice from being parked. -/
def State.hostBusy (s : State) (n : Nat) : Bool :=
  n % 4 == 0 && ((s.fifo (2 * (n / 4))).enable || (s.fifo (2 * (n / 4) + 1)).enable)

/-- Cause of a restore that follows an unpark. -/
def causeUnpark : Nat := 2

/-- PWR_SLICE_PARK with action 0. -/
def State.parkCmd (s : State) (n : Nat) : State × Option Resp :=
  if s.bakeHolds then errCmd s stBusy 0x0D04
  else if (s.sliceSt n).state = .parked then errCmd s stBadArg 0x1101
  else if (s.sliceSt n).between then errCmd s stBusy 0x1104
  else if s.lanesOff n = false then errCmd s stNotPermitted 0x1102
  else if s.hostBusy n then errCmd s stNotPermitted 0x1103
  else okCmd (s.parkNow n).dropHeld []

/-- Action 1: the slice powers up and its configuration is to be reapplied. -/
def State.unparkSlice (s : State) (n : Nat) (r : Req) : State × Option Resp :=
  if (s.sliceSt n).state = .parked then
    ((s.updSlice n (fun x => { x with state := .restoring, cause := causeUnpark, req := some (0x1105, r) })).dropHeld, none)
  else if (s.sliceSt n).between then errCmd s stBusy 0x1104
  else errCmd s stBadArg 0x1101

def pwrSliceParkBody : Body := fun r s =>
  let n := rd r.payload 0 1
  if 15 < n ∨ 1 < rd r.payload 1 1 ∨ resv r.payload 2 2 = false then errCmd s stBadArg 0x1101
  else if rd r.payload 1 1 = 0 then s.parkCmd n
  else s.unparkSlice n r

def execPwrSliceReset (r : Req) (s : State) : Host.Outcome State Fault Refusal := mailboxCommand 0x1104 pwrSliceResetBody r s
def execPwrSlicePark (r : Req) (s : State) : Host.Outcome State Fault Refusal := mailboxCommand 0x1105 pwrSliceParkBody r s

/-- SLICE_FAULT: Moaras resets a slice that runs on its own. -/
def execSliceFault (slice : Nat) (s : State) : Host.Outcome State Fault Refusal :=
  if 16 ≤ slice then .fault (.noSuchUnit "slice")
  else .next (if (s.sliceSt slice).state = .active then s.resetSlice slice 1 none else s)

/-- The ports of a slice that are configured and administratively up train. -/
def State.trainSlice (s : State) (n : Nat) : State :=
  (List.range 32).foldl (fun t i =>
    if t.portActive (32 * n + i) && (t.port (32 * n + i)).admin then t.updPort (32 * n + i) PortSt.renewed else t) s

/-- A slice has its configuration again: SLICE_RESTORED or SLICE_UNPARKED, and its command completes. -/
def State.sliceRestored (s : State) (n : Nat) : State :=
  let x := s.sliceSt n
  let t := (s.updSlice n (fun x => { x with state := .active, req := none, cause := 0 })).trainSlice n
  let u := if x.cause = causeUnpark then t.raiseUp 0x110A sevInfo (le 1 n)
    else (t.bumpPwr 5 1).raiseUp 0x1108 sevInfo (le 1 n)
  match x.req with
  | some q => u.complete q.1 q.2 (Resp.ok [])
  | none => u

/-- SLICE_RESTORE_DONE. While Moaras restarts nothing is reapplied: the restart takes the place of the slice reset, and the
slice waits for its end (R488, log entry 110). -/
def execSliceRestoreDone (slice : Nat) (s : State) : Host.Outcome State Fault Refusal :=
  if 16 ≤ slice then .fault (.noSuchUnit "slice")
  else .next (if (s.sliceSt slice).between && s.mbx.restarting.isNone then s.sliceRestored slice else s)

end Sys2Proof.Machine
end

