-- ==== Sys2Proof/Machine/Forward.lean ====
section
/-! DEFINITION. A mailbox request that the manager forwards and a worker executes (R421). -/

namespace Sys2Proof.Machine

/-- The commands of range 0x01xx. -/
def bodies01 (op : Nat) : Option Body :=
  match op with
  | 0x0101 => some devGetInfoBody
  | 0x0102 => some devGetResultBody
  | 0x0103 => some devEchoBody
  | 0x0104 => some devRestartBody
  | 0x0105 => some devGetCountersBody
  | _ => none

/-- The commands of range 0x02xx. -/
def bodies02 (op : Nat) : Option Body :=
  match op with
  | 0x0201 => some portSetModeBody
  | 0x0202 => some portGetStatusBody
  | 0x0203 => some portSetMacBody
  | 0x0204 => some portSetFlowBody
  | 0x0205 => some portSetThrottleBody
  | 0x0206 => some portSetEeeBody
  | 0x0207 => some portSetLaneMapBody
  | 0x0208 => some portGetMarginBody
  | 0x0209 => some portGetCountersBody
  | 0x020A => some portSetAdminBody
  | 0x020B => some portSetMarginBody
  | _ => none

/-- The commands of range 0x03xx. -/
def bodies03 (op : Nat) : Option Body :=
  match op with
  | 0x0301 => some prismSetProfileBody
  | 0x0302 => some prismSetSelectBody
  | 0x0303 => some prismSetPortBody
  | 0x0304 => some prismWriteRuleBody
  | 0x0305 => some prismReadRuleBody
  | 0x0306 => some prismGetCountersBody
  | 0x0307 => some prismGetRuleCountersBody
  | 0x0308 => some prismGetEpochBody
  | _ => none

/-- The commands of range 0x04xx. -/
def bodies04 (op : Nat) : Option Body :=
  match op with
  | 0x0401 => some fwdInsertBody
  | 0x0402 => some fwdDeleteBody
  | 0x0403 => some fwdLookupBody
  | 0x0404 => some fwdSetVlanBody
  | 0x0405 => some fwdSetRouteBody
  | 0x0406 => some fwdSetNexthopBody
  | 0x0407 => some fwdSetEcmpBody
  | 0x0408 => some fwdSetTemplateBody
  | 0x0409 => some fwdSetRouterBody
  | 0x040A => some fwdSetLearnBody
  | 0x040B => some fwdSetAgingBody
  | 0x040C => some fwdFlushBody
  | 0x040D => some fwdGetCountersBody
  | 0x040E => some fwdGetOccupancyBody
  | _ => none

/-- The commands of range 0x05xx. -/
def bodies05 (op : Nat) : Option Body :=
  match op with
  | 0x0501 => some bufSetClassBody
  | 0x0502 => some bufSetPortClassBody
  | 0x0503 => some bufSetHeadroomBody
  | 0x0504 => some bufSetPfcTxBody
  | 0x0505 => some bufSetWredProfileBody
  | 0x0506 => some bufSetQueueBody
  | 0x0507 => some bufGetStatusBody
  | 0x0508 => some bufGetPortBody
  | 0x0509 => some bufGetCountersBody
  | 0x050A => some bufGetPoolsBody
  | _ => none

/-- The commands of range 0x06xx. -/
def bodies06 (op : Nat) : Option Body :=
  match op with
  | 0x0601 => some fabSetParamsBody
  | 0x0602 => some fabSetPortBody
  | 0x0603 => some fabGetStatusBody
  | 0x0604 => some fabGetPairBody
  | 0x0605 => some fabSetPlaneBody
  | 0x0606 => some fabGetCountersBody
  | _ => none

/-- The commands of range 0x07xx. -/
def bodies07 (op : Nat) : Option Body :=
  match op with
  | 0x0701 => some schedSetNodeBody
  | 0x0702 => some schedGetNodeBody
  | 0x0703 => some polSetBody
  | 0x0704 => some polGetBody
  | 0x0705 => some polSetPortBody
  | 0x0706 => some loupeSetProfileBody
  | 0x0707 => some loupeSetQueueBody
  | 0x0708 => some loupeGetBody
  | 0x0709 => some schedGetCountersBody
  | _ => none

/-- The commands of range 0x08xx. -/
def bodies08 (op : Nat) : Option Body :=
  match op with
  | 0x0801 => some timeGetBody
  | 0x0802 => some timeAdjustBody
  | 0x0803 => some timeSetPtpBody
  | 0x0804 => some timeSetPortBody
  | 0x0805 => some timeSetPpsBody
  | 0x0806 => some gateSetListBody
  | 0x0807 => some gateGetStatusBody
  | 0x0808 => some timeGetCountersBody
  | _ => none

/-- The commands of range 0x09xx. -/
def bodies09 (op : Nat) : Option Body :=
  match op with
  | 0x0901 => some frerSetStreamBody
  | 0x0902 => some frerGetStreamBody
  | 0x0903 => some frerSetPortBody
  | 0x0904 => some frerResetStreamBody
  | 0x0905 => some redGetHealthBody
  | 0x0906 => some redSwitchoverBody
  | 0x0907 => some redResyncBody
  | 0x0908 => some redGetCountersBody
  | _ => none

/-- The commands of range 0x0Axx. -/
def bodies0A (op : Nat) : Option Body :=
  match op with
  | 0x0A01 => some fixSetClusterBody
  | 0x0A02 => some fixGetFlowBody
  | 0x0A03 => some fixGetLogBody
  | 0x0A04 => some fixReleaseBody
  | 0x0A05 => some fixFlushBody
  | 0x0A06 => some fixGetReceiptBody
  | 0x0A07 => some leavenGetClusterBody
  | 0x0A08 => some leavenSetEventsBody
  | 0x0A09 => some leavenGetCoreBody
  | 0x0A0A => some fixGetCountersBody
  | _ => none

/-- The commands of range 0x0Bxx. -/
def bodies0B (op : Nat) : Option Body :=
  match op with
  | 0x0B01 => some proofSetClassBody
  | 0x0B02 => some proofSetTargetBody
  | 0x0B03 => some proofSetStateBody
  | 0x0B04 => some proofGetTargetBody
  | 0x0B05 => some shelfSetBody
  | 0x0B06 => some shelfGetBody
  | 0x0B07 => some shelfSetBusBody
  | 0x0B08 => some proofGetCountersBody
  | _ => none

/-- The commands of range 0x0Cxx. -/
def bodies0C (op : Nat) : Option Body :=
  match op with
  | 0x0C01 => some memGetMapBody
  | 0x0C02 => some memSetRegionsBody
  | 0x0C03 => some memGetHealthBody
  | _ => none

/-- The commands of range 0x0Dxx. -/
def bodies0D (op : Nat) : Option Body :=
  match op with
  | 0x0D01 => some bakeOpenBody
  | 0x0D02 => some bakeCheckBody
  | 0x0D03 => some bakeCommitBody
  | 0x0D04 => some bakeAbortBody
  | 0x0D05 => some bakeGetSetBody
  | _ => none

/-- The commands of range 0x0Exx. -/
def bodies0E (op : Nat) : Option Body :=
  match op with
  | 0x0E01 => some domSetPortBody
  | 0x0E02 => some domAdmitBody
  | 0x0E03 => some domGetStatusBody
  | 0x0E04 => some domForwardBody
  | 0x0E05 => some domBakeBody
  | 0x0E06 => some domAbortBody
  | 0x0E07 => some domLeaveBody
  | _ => none

/-- The commands of range 0x0Fxx. -/
def bodies0F (op : Nat) : Option Body :=
  match op with
  | 0x0F01 => some idGetInfoBody
  | 0x0F02 => some idGetCertBody
  | 0x0F03 => some idGetMeasurementsBody
  | 0x0F04 => some idWriteImageBody
  | 0x0F05 => some idVerifyImageBody
  | 0x0F06 => some idSetBootBody
  | 0x0F07 => some idCommitSvnBody
  | 0x0F08 => some idPinManagerBody
  | _ => none

/-- The commands of range 0x10xx. -/
def bodies10 (op : Nat) : Option Body :=
  match op with
  | 0x1001 => some telSetMirrorBody
  | 0x1002 => some telSetPortMirrorBody
  | 0x1003 => some telGetMirrorBody
  | 0x1004 => some telGetDropsBody
  | 0x1005 => some telGetCountersBody
  | _ => none

/-- The commands of range 0x11xx. -/
def bodies11 (op : Nat) : Option Body :=
  match op with
  | 0x1101 => some pwrGetStatusBody
  | 0x1102 => some pwrSetDroopBody
  | 0x1103 => some pwrSetThermalBody
  | 0x1104 => some pwrSliceResetBody
  | 0x1105 => some pwrSliceParkBody
  | 0x1106 => some pwrRestoreBody
  | 0x1107 => some pwrGetCountersBody
  | _ => none

/-- What the commands of an opcode do. -/
def bodyOf (op : Nat) : Option Body :=
  match op / 256 with
  | 0x01 => bodies01 op
  | 0x02 => bodies02 op
  | 0x03 => bodies03 op
  | 0x04 => bodies04 op
  | 0x05 => bodies05 op
  | 0x06 => bodies06 op
  | 0x07 => bodies07 op
  | 0x08 => bodies08 op
  | 0x09 => bodies09 op
  | 0x0A => bodies0A op
  | 0x0B => bodies0B op
  | 0x0C => bodies0C op
  | 0x0D => bodies0D op
  | 0x0E => bodies0E op
  | 0x0F => bodies0F op
  | 0x10 => bodies10 op
  | 0x11 => bodies11 op
  | _ => none

/-- The request that FORWARD_REQ carries: the header of R385 and the payload. A request that names an indirect block names
host memory that the worker cannot read. -/
def fwdRequest (b : List Byte) : Nat × Req :=
  let fl := rd b 2 2
  let len := rd b 8 4
  (rd b 0 2,
    { box := fwdBox, indirect := bit fl 0, stage := bit fl 1, async := bit fl 2, flagsRsvd := decide (8 ≤ fl), tag := rd b 4 4,
      len, setId := rd b 12 4, payload := padTo (min len 65536) (b.drop 16), payAddr := 0, respAddr := 0, cap := 0, indRsvd := false,
      readOk := !bit fl 0 })

/-- The command that has been queued runs. -/
def State.runOp (s : State) (op : Nat) (r : Req) : State :=
  match bodyOf op with
  | some b => s.runJob op r b
  | none => s

/-- The worker checks a request and executes it at once. -/
def State.runForwarded (s : State) (op : Nat) (r : Req) : State :=
  let q := s.takeJob (s.newJob op r)
  if q.2 then (q.1.runOp op r).afterCommand else q.1

/-- The worker checks and executes the request as its own host's; a FROZEN worker refuses it (R426), and one that comes during a
failover waits for the new active processor (R266). -/
def State.forwarded (s : State) (op : Nat) (r : Req) : State :=
  if s.bake.frozen then s.postReq r (Resp.err stNotPermitted 0x0E01)
  else if s.mbx.ready then
    if s.pwr.failing.isSome then { s with mbx := { s.mbx with gapCmds := s.mbx.gapCmds ++ [s.newJob op r] } }
    else s.runForwarded op r
  else s.postReq r { Resp.err stBusy dNotReady with epoch := some 0 }

/-- FORWARD_REQ. -/
def execForwardReq (m : DomIn) (s : State) : Host.Outcome State Fault Refusal :=
  let q := fwdRequest m.body
  domRow 0x10 m (fun t => t.atWorker (t.forwarded q.1 q.2)) s

/-! ### The end of a failover (R265, R266) -/

/-- The new active serves a command that was written during the gap: it gets its verdict, and its row then runs it; a forwarded
one is executed at once. -/
def State.serveOne (s : State) (j : Job) : State :=
  if j.req.box = fwdBox then s.runForwarded j.op j.req else (s.takeJob j).1

/-- The new active serves the commands that were written during the gap (R266). -/
def State.serveGap (s : State) : State :=
  s.mbx.gapCmds.foldl (fun t c => t.serveOne c) { s with mbx := { s.mbx with gapCmds := [] } }

/-- A failover that has lost its standby: a commanded switchover ends as one without a standby, a fault loses management
(R265, R270). -/
def State.switchFails (s : State) (cause old : Nat) : State :=
  if cause = mpCauseCommand then
    (match s.switchJob with
      | some j => s.complete j.op j.req (Resp.err stNotPermitted dNone)
      | none => s).serveGap
  else s.mgmtLost old

/-- The new active finds PPS_IN lost during the gap. -/
def State.gapOver (s : State) : State :=
  if s.ptp.source = 1 ∧ s.time.ppsInValid = false then s.sourceLost else s

/-- MP_FAILOVER_DONE: the standby serves; the old active has FAILED, or resynchronises after a commanded switchover. -/
def execMpFailoverDone (s : State) : Host.Outcome State Fault Refusal :=
  match s.pwr.failing, s.mpIn .active, s.mpIn .standby with
  | some cause, some old, some new =>
    let cmd := cause == mpCauseCommand
    let t := { s with pwr := { s.pwr with failing := none } }
    let u := (t.updMp old (fun m =>
      { m with state := if cmd then .resync else .failed, restarted := false, consec := 0,
               failovers := (m.failovers + 1) % 2 ^ 32 })).updMp new (fun m => { m with state := .active, consec := 0 })
    let v := ((if cmd then u else u.repairAdd 2 old).bumpRed 11 1).raise 0x0905 sevCorrectable (le 1 new ++ le 1 cause)
    .next ((((v.healthChanged).gapOver).finishJob s.switchJob).serveGap)
  | some cause, some old, none => .next (({ s with pwr := { s.pwr with failing := none } }).switchFails cause old)
  | _, _, _ => .next s

end Sys2Proof.Machine
end

