-- ==== Sys2Proof/Machine/Interrupts.lean ====
section
/-! DEFINITION. The INT registers and the MSI-X table (R342, R368 to R370). -/

namespace Sys2Proof.Machine

/-- Function `fn` owns interrupt source `n` (R342). -/
def State.ownsInt (s : State) (fn n : Nat) : Bool := intOwner s.ident.bifurcated n == fn

/-- A host clear of a pending bit. -/
def HostSt.clearInt (h : HostSt) (n : Nat) : HostSt := { h with pending := Tab.set false h.pending n false }

/-- A host write of 1 to the pending bits of `l`; reserved sources and those of the other function do not change. -/
def State.clearInts (s : State) (fn : Nat) (l : List Nat) : State :=
  { s with host := (l.filter (fun n => decide (n ≤ 187) && s.ownsInt fn n)).foldl HostSt.clearInt s.host }

/-- A hardware set in the cycle of a host clear: the bit stays 1, and the source signals (R11, R369). -/
def State.keepInt (s : State) (n : Nat) : State := ({ s with host := s.host.clearInt n }).interrupt n

/-- INT_PENDING[k]: the host writes `w`, and in the same cycle the hardware sets `same`. -/
def State.writePending (s : State) (fn k w same : Nat) : State :=
  let t := s.clearInts fn ((bitList 64 w).map (fun j => 64 * k + j))
  ((bitList 64 same).filter (fun j => decide (64 * k + j ≤ 187))).foldl
    (fun u j => if bit w j && s.ownsInt fn (64 * k + j) then u.keepInt (64 * k + j) else u.interrupt (64 * k + j)) t

def execIntPendingClear (fn k : Nat) (w same : BitVec 64) (s : State) : Host.Outcome State Fault Refusal :=
  if 4 ≤ k then .fault (.noSuchUnit "INT_PENDING register")
  else onRegister s fn fn (0x10000 + 8 * k) 8 (s.writePending fn k w.toNat same.toNat)

/-- The map entry of a source. -/
def HostSt.putMap (h : HostSt) (n v : Nat) (en : Bool) : HostSt :=
  { h with mapVec := if v = n then Tab.erase n h.mapVec else Tab.insert n v h.mapVec, mapEn := Tab.set false h.mapEn n en }

/-- INT_MAP[n]: ENABLE written 1 on a pending source signals. The entry of the other function's source does not change. -/
def State.writeMap (s : State) (fn n v : Nat) : State :=
  if s.ownsInt fn n = false then s
  else
    let h := s.host.putMap n (bits v 10 0) (bit v 16)
    if bit v 16 ∧ h.intPending n then
      { s with
        host := (h.signal s.ident.bifurcated n).1
        out := (h.signal s.ident.bifurcated n).2 ++ s.out }
    else { s with host := h }

def execIntMapWrite (fn n : Nat) (w : BitVec 64) (s : State) : Host.Outcome State Fault Refusal :=
  if 256 ≤ n then .fault (.noSuchUnit "interrupt source")
  else onRegister s fn fn (0x11000 + 8 * n) 8 (s.writeMap fn n w.toNat)

/-! ### MSI-X (R370) -/

/-- A vector is unmasked: its pending message is sent. -/
def State.unmaskVec (s : State) (fn vec : Nat) : State :=
  let l := s.host.link fn
  let h := s.host.updLink fn (fun x => { x with vecOpen := insertRising vec x.vecOpen })
  if l.pba.contains vec ∧ l.fnMask = false ∧ l.msixOn then
    { s with
      host := h.updLink fn (fun x => { x with pba := without x.pba vec })
      out := h.message fn vec :: s.out }
  else { s with host := h }

/-- A vector is masked. -/
def State.maskVec (s : State) (fn vec : Nat) : State :=
  s.updLink fn (fun x => { x with vecOpen := without x.vecOpen vec })

def execMsixUnmask (fn vec : Nat) (s : State) : Host.Outcome State Fault Refusal :=
  if 2048 ≤ vec then .fault (.noSuchUnit "MSI-X vector")
  else onRegister s fn fn (0x2000C + 16 * vec) 4 (s.unmaskVec fn vec)

/-- The vector is masked: bit 32 of the second quadword of its entry. -/
def State.vecMasked (s : State) (fn vec : Nat) : Bool := !(s.host.link fn).vecOpen.contains vec

/-- A quadword of the MSI-X table as it reads. -/
def State.msixWord (s : State) (fn i : Nat) : Nat :=
  let v := (Tab.get 0 s.host.msix (8192 * fn + i)).toNat
  if i % 2 = 0 then v else v % 2 ^ 32 + 2 ^ 32 * b2n (s.vecMasked fn (i / 2))

/-- A write of a quadword of the MSI-X table: address, or data with the vector's mask bit. -/
def State.writeMsix (s : State) (fn i v : Nat) : State :=
  let n := if i % 2 = 0 then v else v % 2 ^ 32
  let t := { s with host := { s.host with msix := Tab.set 0 s.host.msix (8192 * fn + i) (BitVec.ofNat 64 n) } }
  if i % 2 = 0 then t
  else if bit v 32 then t.maskVec fn (i / 2) else t.unmaskVec fn (i / 2)

end Sys2Proof.Machine
end

