-- ==== Sys2Proof/Machine/Registers.lean ====
section
/-! DEFINITION. The register map of BAR0: which register an address holds, what it reads, what a write does (R10, R11, R218,
R219, R229, R344 to R346, R366, R369, R370, R379, R381, R383, R464, R471). -/

namespace Sys2Proof.Machine

/-- A register of BAR0. Registers that only read are `readOnly` with their offset. -/
inductive Reg where
  | gbl (o : Nat)
  | intPending (k : Nat)
  | intMap (n : Nat)
  | msix (i : Nat)
  | pba (i : Nat)
  | mbx (n o : Nat)
  | dma (c o : Nat)
  | swp (o : Nat)
  | hpf (f o : Nat)
  | evt (o : Nat)
  | tim (o : Nat)
  | txts (slice o : Nat)
deriving DecidableEq, Repr

/-- The offsets of a block are its registers in steps of 8 up to the last, `last`. -/
def inBlock (o last : Nat) : Bool := decide (o % 8 = 0) && decide (o ≤ last)

/-- The register at an offset that is a multiple of 8; none: reserved. -/
def regAt (o : Nat) : Option Reg :=
  if o < 0x10000 then if inBlock o 0x18 then some (.gbl o) else none
  else if o < 0x11000 then if inBlock (o - 0x10000) 0x18 then some (.intPending ((o - 0x10000) / 8)) else none
  else if o < 0x20000 then if inBlock (o - 0x11000) 0x7F8 then some (.intMap ((o - 0x11000) / 8)) else none
  else if o < 0x28000 then some (.msix ((o - 0x20000) / 8))
  else if o < 0x40000 then if inBlock (o - 0x28000) 0xF8 then some (.pba ((o - 0x28000) / 8)) else none
  else if o < 0x80000 then if inBlock (o % 0x2000) 8 then some (.mbx ((o - 0x40000) / 0x2000) (o % 0x2000)) else none
  else if o < 0xC0000 then if inBlock (o % 0x800) 0x60 then some (.dma ((o - 0x80000) / 0x800) (o % 0x800)) else none
  else if o < 0xD0000 then
    if inBlock (o - 0xC0000) 0x40 ∨ (0xC0100 ≤ o ∧ inBlock (o - 0xC0100) 0x28) then some (.swp (o - 0xC0000)) else none
  else if o < 0xE0000 then
    if (o - 0xD0000) / 0x100 < 8 ∧ inBlock (o % 0x100) 0x28 then some (.hpf ((o - 0xD0000) / 0x100) (o % 0x100)) else none
  else if o < 0xF0000 then if inBlock (o - 0xE0000) 0x30 then some (.evt (o - 0xE0000)) else none
  else if o < 0xF1000 then if inBlock (o - 0xF0000) 0x28 then some (.tim (o - 0xF0000)) else none
  else if (o - 0xF1000) / 0x40 < 16 ∧ inBlock (o % 0x40) 0x20 then some (.txts ((o - 0xF1000) / 0x40) (o % 0x40))
  else none

/-- The function that reaches a register in x8 + x8 (R342); the registers of GBL, INT and MSI-X are each function's own. -/
def State.regOwner (s : State) (fn : Nat) : Reg → Nat
  | .gbl _ | .intPending _ | .intMap _ | .msix _ | .pba _ => fn
  | .mbx n _ => s.boxFn n
  | .dma c _ => s.chFn c
  | .hpf f _ => f / 4
  | .swp _ | .evt _ | .tim _ | .txts _ _ => 0

/-- The register that function `fn` finds at an offset. -/
def State.regFor (s : State) (fn o : Nat) : Option Reg :=
  (regAt (o / 8 * 8)).filter (fun r => s.reaches fn (s.regOwner fn r))

/-! ### What registers read -/

/-- Flags as a number, bit 0 first. -/
def flagBits : List Bool → Nat
  | [] => 0
  | b :: l => b2n b + 2 * flagBits l

def ChState.code : ChState → Nat
  | .stopped => 0
  | .running => 1
  | .idle => 2
  | .halted => 3

def MbState.code : MbState → Nat
  | .free => 0
  | .submitted => 1
  | .responseReady => 2

/-- GBL (R346). -/
def State.readGbl (s : State) (fn o : Nat) : Nat :=
  let l := s.host.link fn
  if o = 0 then 0x7216 + 2 ^ 16 * s.pwr.variant + 2 ^ 20 * s.pwr.stepping
  else if o = 8 then
    b2n s.mbx.ready + 2 * s.pwr.roleStrap + 8 * s.activeMp + 16 * b2n s.ident.bifurcated + 32 * b2n (fn == 1)
  else if o = 0x10 then l.scratch.toNat
  else l.speed + 8 * l.width + 256 * b2n l.flit

/-- INT_PENDING[k] as function `fn` reads it. -/
def State.readPending (s : State) (fn k : Nat) : Nat :=
  flagBits ((List.range 64).map (fun j => s.host.intPending (64 * k + j) && s.ownsInt fn (64 * k + j)))

/-- INT_MAP[n]. -/
def State.readMap (s : State) (fn n : Nat) : Nat :=
  if s.ownsInt fn n then (Tab.find s.host.mapVec n).getD n + 2 ^ 16 * b2n (Tab.get false s.host.mapEn n) else 0

/-- A quadword of the pending bit array. -/
def State.readPba (s : State) (fn i : Nat) : Nat :=
  flagBits ((List.range 64).map (fun j => (s.host.link fn).pba.contains (64 * i + j)))

/-- MBX_CTRL and MBX_STATUS (R383). -/
def State.readMbx (s : State) (n o : Nat) : Nat :=
  if o = 0 then 0
  else (s.box n).state.code + 2 ^ 16 * (s.box n).submits + 2 ^ 32 * (s.box n).responses

/-- The DMA registers of a channel (R366). -/
def Chan.read (x : Chan) (o : Nat) : Nat :=
  if o = 0 then 8 * b2n x.phaseInit + 16 * x.mode + 64 * x.hostPort + 256 * b2n x.ro + 2 ^ 16 * x.maxReads
  else if o = 8 then x.state.code + 4 * b2n x.phase + 256 * x.haltCause + 2 ^ 16 * x.readsOut
  else if o = 0x10 then x.start.toNat
  else if o = 0x18 then x.cur.toNat
  else if o = 0x28 then x.rung + 2 ^ 32 * x.consumed
  else if o = 0x30 then x.cqBase.toNat
  else if o = 0x38 then x.cqK
  else if o = 0x40 then x.cqHead
  else if o = 0x48 then x.cqTail
  else if o = 0x50 then x.comp.toNat
  else if o = 0x58 then x.endCount.toNat
  else if o = 0x60 then x.bytes.toNat
  else 0

/-- The SWP block (R464). -/
def SwpSt.read (w : SwpSt) (o : Nat) : Nat :=
  if o = 0 then b2n w.enable
  else if o = 8 then flagBits [w.dump.isSome, w.full, w.tooLarge]
  else if o = 0x10 then w.period
  else if o = 0x18 then w.groups
  else if o = 0x20 then w.base.toNat
  else if o = 0x28 then w.k
  else if o = 0x30 then w.head
  else if o = 0x38 then w.tail
  else if o = 0x40 then w.lastSeq
  else if o = 0x100 then b2n w.lEnable
  else if o = 0x108 then 2 * b2n w.lFull
  else if o = 0x110 then w.lBase.toNat
  else if o = 0x118 then w.lK
  else if o = 0x120 then w.lHead
  else w.lTail

/-- The HPF registers of a FIFO (R379). -/
def HFifo.read (f : HFifo) (o : Nat) : Nat :=
  if o = 0 then b2n f.enable
  else if o = 8 then f.writeBank + 2 * f.readBank + 4 * b2n f.waiting + 8 * b2n f.resetSeen + 2 ^ 16 * f.words
  else if o = 0x10 then f.packets.toNat
  else if o = 0x18 then f.rewinds.toNat
  else if o = 0x20 then f.resets.toNat
  else f.resetDrops.toNat

/-- The EVT block (R471). -/
def EvtSt.read (e : EvtSt) (o : Nat) : Nat :=
  if o = 0 then b2n e.enable + 16 * e.minSev
  else if o = 8 then b2n e.lostSeen + 2 ^ 16 * (e.held.map EvEntry.entries).sum
  else if o = 0x10 then e.base.toNat
  else if o = 0x18 then e.k
  else if o = 0x20 then e.head
  else if o = 0x28 then e.tail
  else e.nextSeq

/-- TIM_CTRL to TIM_PPS_IN_NS (R219). -/
def TimeBase.read (t : TimeBase) (o : Nat) : Nat :=
  if o = 0 then 0
  else if o = 8 then t.state.code + 8 * b2n (t.slewLeft != 0) + 16 * b2n t.ppsInValid + 256 * (t.stepCount % 256)
  else if o = 0x10 then t.latchSec.toNat
  else if o = 0x18 then t.latchNs.toNat
  else if o = 0x20 then t.ppsInSec.toNat
  else t.ppsInNs.toNat

/-- The TXTS registers of a slice's FIFO (R229); the data registers of an empty one, or one that Moaras owns, read 0 (R225). -/
def State.readTxts (s : State) (sl o : Nat) : Nat :=
  let f := s.tsFifo sl
  if o = 0 then f.entries.length + 2 ^ 16 * b2n f.overflow + 2 ^ 17 * b2n (s.fifoMoaras sl)
  else if s.fifoMoaras sl then 0
  else match f.entries.head? with
    | none => 0
    | some e =>
      if o = 8 then e.sec + 2 ^ 48 * e.frac
      else if o = 0x10 then e.ns + 2 ^ 32 * e.seq + 2 ^ 48 * e.port + 2 ^ 58 * e.msgType + 2 ^ 63
      else if o = 0x18 then e.ptpSeq + 2 ^ 16 * e.domain + 2 ^ 24 * e.sdoId
      else 0

/-- The value a register reads through function `fn`. -/
def State.readReg (s : State) (fn : Nat) : Reg → Nat
  | .gbl o => s.readGbl fn o
  | .intPending k => s.readPending fn k
  | .intMap n => s.readMap fn n
  | .msix i => s.msixWord fn i
  | .pba i => s.readPba fn i
  | .mbx n o => s.readMbx n o
  | .dma c o => (s.chan c).read o
  | .swp o => s.swp.read o
  | .hpf f o => (s.fifo f).read o
  | .evt o => s.evt.read o
  | .tim o => s.time.read o
  | .txts sl o => s.readTxts sl o

/-- The mailbox whose request or response area holds an offset; those take accesses of any size. -/
def areaBox (off : Nat) : Option Nat :=
  if 0x40000 ≤ off ∧ off < 0x80000 ∧ 0x100 ≤ off % 0x2000 then some ((off - 0x40000) / 0x2000) else none

/-- The mailbox area that function `fn` reaches at an offset. -/
def State.areaFor (s : State) (fn off : Nat) : Option Nat :=
  (areaBox off).filter (fun n => s.reaches fn (s.boxFn n))

/-- `n` bytes at offset `o` of a mailbox as the host sees them: the response area reads 0 but in RESPONSE_READY (R384). -/
def Mbox.seen (m : Mbox) (o n : Nat) : List Byte :=
  (List.range n).map (fun k =>
    if o + k < 0x1000 then (m.area (o + k - 0x100) 1).headD 0
    else if m.state = .responseReady then m.resp.getD (o + k - 0x1000) 0 else 0)

/-- A host read of a mailbox area, or of a register, 4 or 8 bytes; a reserved address and a wrong size read 0 (R10, R345), and in D3hot the device
does not answer (R343). -/
def State.hostReads (s : State) (fn off size : Nat) : Option Nat :=
  if (s.host.link fn).d3 then none
  else match s.areaFor fn off with
  | some n => some (rd ((s.box n).seen (off % 0x2000) size) 0 size)
  | none =>
  if (size = 8 ∧ off % 8 = 0) ∨ (size = 4 ∧ off % 4 = 0) then
    match s.regFor fn off with
    | some r => some (s.readReg fn r / 2 ^ (8 * (off % 8)) % 2 ^ (8 * size))
    | none => some 0
  else some 0

/-! ### What writes do -/

/-- The value a 4-byte write leaves in the half of a register that it does not address: what the register reads, but 0 where
1 clears (R345). -/
def State.regRest (s : State) (fn : Nat) : Reg → Nat
  | .intPending _ => 0
  | .swp o => if o = 8 ∨ o = 0x108 then 0 else s.swp.read o
  | .hpf f o => if o = 8 then 0 else (s.fifo f).read o
  | .evt o => if o = 8 then 0 else s.evt.read o
  | .txts _ _ => 0
  | r => s.readReg fn r

/-- The 64 bits that a write of `size` bytes at offset `off` gives a register. -/
def mergeWrite (old off size v : Nat) : Nat :=
  if size = 8 then v
  else if off % 8 = 0 then old / 2 ^ 32 * 2 ^ 32 + v % 2 ^ 32
  else old % 2 ^ 32 + 2 ^ 32 * (v % 2 ^ 32)

/-- A write of a register outside STOPPED (R365). -/
def State.stoppedOnly (s : State) (c off size : Nat) (f : Chan → Chan) : State :=
  if (s.chan c).state = .stopped then s.updChan c f else s.reservedAccess off size

/-- A write of the registers of a channel. -/
def State.writeDma (s : State) (c o off size v : Nat) : State :=
  if o = 0 then s.writeCtrl c v size
  else if o = 0x10 then s.updChan c (fun x => { x with start := BitVec.ofNat 64 (v / 32 * 32) })
  else if o = 0x20 then s.chanRing c
  else if o = 0x30 then s.stoppedOnly c off size (fun x => { x with cqBase := BitVec.ofNat 64 (v / 64 * 64) })
  else if o = 0x38 then s.stoppedOnly c off size (fun x =>
    { x with cqK := if 4 ≤ bits v 4 0 ∧ bits v 4 0 ≤ 16 then bits v 4 0 else x.cqK })
  else if o = 0x40 then (s.updChan c (fun x => { x with cqHead := v % 2 ^ 32 })).cqResume c
  else if o = 0x58 then s.updChan c (fun x => { x with endCount := BitVec.ofNat 64 v })
  else s

/-- P, the groups, the base and the size of the sweep ring change only while ENABLE is 0 (R463). -/
def State.sweepOff (s : State) (off size : Nat) (w : SwpSt) : State :=
  if w = s.swp then s
  else if s.swp.enable then s.reservedAccess off size
  else { s with swp := w }

/-- A write of the SWP block. -/
def State.writeSwp (s : State) (o off size v : Nat) : State :=
  let w := s.swp
  if o = 0 then s.writeSwpCtrl v
  else if o = 8 then s.updSwp (fun x => { x with full := x.full && !bit v 1, tooLarge := x.tooLarge && !bit v 2 })
  else if o = 0x10 then
    let p := v % 2 ^ 32
    s.sweepOff off size (if p = 0 ∨ (10 ≤ p ∧ p ≤ 3600000) then { w with period := p } else w)
  else if o = 0x18 then s.sweepOff off size { w with groups := v % 2 ^ 16 }
  else if o = 0x20 then s.sweepOff off size { w with base := BitVec.ofNat 64 (v / 4096 * 4096) }
  else if o = 0x28 then
    s.sweepOff off size (if 16 ≤ bits v 5 0 ∧ bits v 5 0 ≤ 34 then { w with k := bits v 5 0 } else w)
  else if o = 0x30 then s.writeSwpHead v
  else if o = 0x100 then s.writeLoupeCtrl v
  else if o = 0x108 then s.updSwp (fun x => { x with lFull := x.lFull && !bit v 1 })
  else if o = 0x110 then s.updSwp (fun x => { x with lBase := BitVec.ofNat 64 (v / 4096 * 4096) })
  else if o = 0x118 then s.updSwp (fun x => { x with lK := if 10 ≤ bits v 5 0 ∧ bits v 5 0 ≤ 26 then bits v 5 0 else x.lK })
  else if o = 0x120 then s.writeLoupeHead v
  else s

/-- A write of the HPF registers of a FIFO. -/
def State.writeHpf (s : State) (f o v : Nat) : State :=
  if o = 0 then s.updFifo f (fun x => { x with enable := bit v 0 })
  else if o = 8 then s.updFifo f (fun x => { x with resetSeen := x.resetSeen && !bit v 3 })
  else s

/-- A write of the EVT block. -/
def State.writeEvt (s : State) (o v : Nat) : State :=
  if o = 0 then s.writeEvtCtrl v
  else if o = 8 then { s with evt := { s.evt with lostSeen := s.evt.lostSeen && !bit v 0 } }
  else if o = 0x10 then { s with evt := { s.evt with base := BitVec.ofNat 64 (v / 4096 * 4096) } }
  else if o = 0x18 then
    if 6 ≤ bits v 4 0 ∧ bits v 4 0 ≤ 20 then { s with evt := { s.evt with k := bits v 4 0 } } else s
  else if o = 0x20 then s.writeEvtHead v
  else s

/-- A write of TIM_CTRL (R219). -/
def State.writeTim (s : State) (o v : Nat) : State :=
  if o = 0 ∧ bit v 0 then s.updTime (fun t => { t with latchSec := t.latched.1, latchNs := t.latched.2 }) else s

/-- A write of the TXTS registers of a slice's FIFO (R228, R229). -/
def State.writeTxts (s : State) (sl o v : Nat) : State :=
  if o = 0 then s.updTsFifo sl (fun f => { f with overflow := f.overflow && !bit v 16 })
  else if o = 0x20 ∧ bit v 0 ∧ s.fifoMoaras sl = false then s.updTsFifo sl (fun f => { f with entries := f.entries.drop 1 })
  else s

/-- A write of MBX_CTRL: RELEASE, then DOORBELL. What host memory gives for an INDIRECT payload is free (log entry 3); the
row MBX_DOORBELL carries it. -/
def State.writeMbx (s : State) (n o v : Nat) : State :=
  if o = 0 then
    let t := if bit v 1 ∧ (s.box n).state = .responseReady then s.updBox n (fun m => { m with state := .free, resp := [] }) else s
    if bit v 0 then
      let q := (t.box n).request n (some (le 65536 t.freeVal))
      ((t.drawn 1).submit q.1 q.2).1
    else t
  else s

/-- A write of a register: 64 bits, merged; `off` and `size` are the access that an info event would carry. A 4-byte write of the
upper half of INT_MAP[n] reaches reserved bits alone: ENABLE is not written (R345, R369). -/
def State.writeReg (s : State) (fn off size v : Nat) : Reg → State
  | .gbl o => if o = 0x10 then s.updLink fn (fun l => { l with scratch := BitVec.ofNat 64 v }) else s
  | .intPending k => s.writePending fn k v 0
  | .intMap n => if size = 4 ∧ off % 8 = 4 then s else s.writeMap fn n v
  | .msix i => s.writeMsix fn i v
  | .pba _ => s
  | .mbx n o => s.writeMbx n o v
  | .dma c o => s.writeDma c o off size v
  | .swp o => s.writeSwp o off size v
  | .hpf f o => s.writeHpf f o v
  | .evt o => s.writeEvt o v
  | .tim o => s.writeTim o v
  | .txts sl o => s.writeTxts sl o v

/-- An access has a size and alignment that registers take (R345). -/
def goodAccess (off size : Nat) : Bool :=
  (size == 8 && off % 8 == 0) || (size == 4 && off % 4 == 0)

/-- A host write of `size` bytes `v` at offset `off` of a function's BAR0. -/
def State.hostWrites (s : State) (fn off size v : Nat) : State :=
  match s.areaFor fn off with
  | some n => s.areaWrite n (off % 0x2000) (le size v)
  | none =>
    if goodAccess off size = false then s.reservedAccess off size
    else match s.regFor fn off with
      | none => s.reservedAccess off size
      | some r => s.writeReg fn off size (mergeWrite (s.regRest fn r) off size v) r

/-- A row about a BAR0 access of function `fn`; in D3hot the device answers configuration requests only. -/
def onAccess (s : State) (fn : Nat) (t : State) : Host.Outcome State Fault Refusal :=
  if s.fnExists fn = false then .fault (.noSuchUnit "function")
  else if (s.host.link fn).d3 then .next s
  else .next t

/-- RESERVED_WRITE: an address that holds a register or an area of this function is not reserved, and its write is another
row. -/
def execReservedWrite (fn off size : Nat) (s : State) : Host.Outcome State Fault Refusal :=
  onAccess s fn (if (s.regFor fn off).isNone ∧ (s.areaFor fn off).isNone then s.reservedAccess off size else s)

/-- BAD_SIZE_ACCESS: a read returns 0, a write is discarded; both raise the info event. An access of a good size and
alignment, and one to a mailbox area, is another row. -/
def execBadSizeAccess (fn off size : Nat) (_ : Bool) (s : State) : Host.Outcome State Fault Refusal :=
  onAccess s fn (if goodAccess off size = false ∧ (s.areaFor fn off).isNone then s.reservedAccess off size else s)

end Sys2Proof.Machine
end

