-- ==== Sys2Proof/Machine/Spdm.lean ====
section
/-! DEFINITION. The SPDM responder (R448 to R451). Request and error codes, message layouts, transcripts, the signing contexts and the
key schedule are those of DSP0274, secured messages those of DSP0277 (PRESUMED; log entry 54). -/

namespace Sys2Proof.Machine

/-! ### Transports and sessions (R448) -/

/-- Sessions of a transport: 0 and 1 DOE of a function, 2 SMBus. -/
def IdSt.sessions (i : IdSt) (t : Nat) : List SpdmSession := if t = 0 then i.doe0 else if t = 1 then i.doe1 else i.smb
def IdSt.setSessions (i : IdSt) (t : Nat) (l : List SpdmSession) : IdSt :=
  if t = 0 then { i with doe0 := l } else if t = 1 then { i with doe1 := l } else { i with smb := l }

/-- Sessions at once. -/
def sessionLimit (t : Nat) : Nat := if t ≤ 1 then 2 else 1

/-- A session replaced, and ended. -/
def State.putSession (s : State) (t : Nat) (x : SpdmSession) : State :=
  s.updIdent (fun i => i.setSessions t ((i.sessions t).map (fun y => if y.id = x.id then x else y)))
def State.endSession (s : State) (t id : Nat) : State :=
  s.updIdent (fun i => i.setSessions t ((i.sessions t).filter (fun y => y.id != id)))

/-- The transcripts of a transport. -/
def State.spdmLog (s : State) (t : Nat) : SpdmLog := Tab.get SpdmLog.init s.ident.spdmLog t
def State.updLog (s : State) (t : Nat) (f : SpdmLog → SpdmLog) : State :=
  s.updIdent (fun i => { i with spdmLog := Tab.upd SpdmLog.init i.spdmLog t f })

/-- The messages that agree on version, capabilities and algorithms. -/
def SpdmLog.vca (l : SpdmLog) : List Byte := l.version ++ l.caps ++ l.algs

/-! ### Messages -/

/-- Requests that need an agreement on algorithms: GET_DIGESTS, GET_CERTIFICATE, CHALLENGE, GET_MEASUREMENTS, KEY_EXCHANGE. -/
def spdmPlain (code : Nat) : Bool := code == 0x81 || code == 0x82 || code == 0x83 || code == 0xE0 || code == 0xE4
/-- Requests of a session: FINISH, HEARTBEAT, KEY_UPDATE, END_SESSION. -/
def spdmInSession (code : Nat) : Bool := code == 0xE5 || code == 0xE8 || code == 0xE9 || code == 0xEC
/-- Requests that agree: GET_VERSION, GET_CAPABILITIES, NEGOTIATE_ALGORITHMS. -/
def spdmFirst (code : Nat) : Bool := code == 0x84 || code == 0xE1 || code == 0xE3
/-- The request codes supported (R449). -/
def spdmSupported (code : Nat) : Bool := spdmFirst code || spdmPlain code || spdmInSession code

/-- A message: version, code, two parameters, content. -/
def spdmMsg (ver code p1 p2 : Nat) (b : List Byte) : List Byte := le 1 ver ++ le 1 code ++ le 1 p1 ++ le 1 p2 ++ b

/-- ERROR with a code and its data. -/
def spdmErr (ver err data : Nat) : List Byte := spdmMsg ver 0x7F err data []

/-- CAPABILITIES of R449: CTExponent 18 and the flags CERT, CHAL, MEAS with signature, MEAS_FRESH, ENCRYPT, MAC, MUT_AUTH, KEY_EX,
HBEAT and KEY_UPD. -/
def spdmCapabilities : List Byte := le 1 0 ++ le 1 18 ++ le 2 0 ++ le 4 0x63F6 ++ le 4 65536 ++ le 4 65536

/-- ALGORITHMS of R449: DMTF measurements with SHA-384, ECDSA P-384, SHA-384; then DHE secp384r1, AES-256-GCM, ECDSA P-384 of the
requester, and the SPDM key schedule. -/
def spdmAlgorithms : List Byte :=
  le 2 52 ++ le 1 1 ++ le 1 0 ++ le 4 4 ++ le 4 0x80 ++ le 4 2 ++ le 12 0 ++ le 2 0 ++ le 2 0
    ++ [(2, 0x10), (3, 2), (4, 0x80), (5, 1)].flatMap (fun (x : Nat × Nat) => le 1 x.1 ++ le 1 0x20 ++ le 2 x.2)

/-- What a message is answered with. -/
abbrev Answer := State × List Byte

/-- 32 random bytes: a free value (log entry 3). -/
def State.nonce (s : State) : List Byte := be 32 s.freeVal

/-- A hash signed by the alias key in a context (R450). -/
def State.spdmSign (s : State) (ver : Nat) (context : String) (msgs : List Byte) : List Byte :=
  let v := ascii (if ver = 0x12 then "dmtf-spdm-v1.2.*" else "dmtf-spdm-v1.3.*")
  let c := ascii context
  (⟨1, s.ident.aliasNum⟩ : KeyRef).sign (v ++ v ++ v ++ v ++ List.replicate (36 - c.length) 0 ++ c ++ sha384 msgs)

/-! ### Agreement -/

/-- GET_VERSION: the versions; what the transport has agreed on is void. It is sent as version 1.0. -/
def State.spdmVersion (s : State) (t : Nat) (b : List Byte) : Answer :=
  let r := spdmMsg 0x10 4 0 0 spdmVersionList
  ((s.updIdent (fun i => { i with spdmNeg := without i.spdmNeg t, spdmVer := Tab.set 0 i.spdmVer t 0 })).updLog t (fun _ =>
    { SpdmLog.init with version := b ++ r }), r)

/-- GET_CAPABILITIES agrees on the version it is sent in. -/
def State.spdmCaps (s : State) (t ver : Nat) (b : List Byte) : Answer :=
  let r := spdmMsg ver 0x61 0 0 spdmCapabilities
  ((s.updIdent (fun i => { i with spdmNeg := without i.spdmNeg t, spdmVer := Tab.set 0 i.spdmVer t ver })).updLog t (fun l =>
    { SpdmLog.init with version := l.version, caps := b ++ r }), r)

/-- NEGOTIATE_ALGORITHMS agrees on the algorithms. -/
def State.spdmAlgs (s : State) (t ver : Nat) (b : List Byte) : Answer :=
  let r := spdmMsg ver 0x63 4 0 spdmAlgorithms
  ((s.updIdent (fun i => { i with spdmNeg := insertRising t i.spdmNeg })).updLog t (fun l => { l with algs := b ++ r }), r)

/-- The version of a request is the one agreed on; for GET_CAPABILITIES, one that is supported. -/
def State.spdmVerOk (s : State) (t ver code : Nat) : Bool :=
  if code = 0xE1 then spdmVersions.contains ver else ver == Tab.get 0 s.ident.spdmVer t

/-! ### Evidence (R450, R451) -/

/-- The chain of slot 0: Root CA, Manufacturing CA, DIK, alias (R450). -/
def State.certChain (s : State) : List Byte :=
  let c := [0, 1, 2, 3].flatMap (fun k => (s.certBytes k 0).getD [])
  le 2 (c.length + 52) ++ le 2 0 ++ sha384 ((s.certBytes 0 0).getD []) ++ c

/-- The value type of a measurement: 0 immutable ROM, 1 firmware, 2 hardware configuration, 3 firmware configuration; bit 7 raw
bytes. -/
def measureType (k : Nat) : Nat :=
  if k = 1 then 0 else if k = 2 then 3 else if k ≤ 4 then 1 else if k = 7 then 0x82 else 0x83

/-- A measurement block of R451. -/
def State.measureBlock (s : State) (k : Nat) : List Byte :=
  let v := s.measurement k
  le 1 k ++ le 1 1 ++ le 2 (v.length + 3) ++ le 1 (measureType k) ++ le 2 v.length ++ v

/-- The record of the blocks asked for: their number, the length of the record, and the record. -/
def State.measureRecord (s : State) (ks : List Nat) : List Byte :=
  let b := ks.flatMap s.measureBlock
  le 1 ks.length ++ le 3 b.length ++ b

/-- The blocks that an operation asks for: 0 none but their number, 255 all of them; none: no such block. -/
def measureIndices (k : Nat) : Option (List Nat) :=
  if k = 0 then some [] else if k = 255 then some [1, 2, 3, 4, 5, 6, 7] else if k ≤ 7 then some [k] else none

/-- The measurement summary that a request asks for: 1 the ROM and the firmware, 255 all blocks. -/
def State.summaryHash (s : State) (kind : Nat) : List Byte :=
  if kind = 1 then sha384 ([1, 3, 4].flatMap s.measureBlock)
  else if kind = 255 then sha384 ([1, 2, 3, 4, 5, 6, 7].flatMap s.measureBlock)
  else []

/-- The requester's context of version 1.3, 8 bytes at an offset. -/
def requesterContext (ver : Nat) (b : List Byte) (o : Nat) : List Byte := if ver = 0x13 then padTo 8 (slice b o 8) else []

/-- GET_DIGESTS: that of slot 0. -/
def State.spdmDigests (s : State) (ver : Nat) : List Byte := spdmMsg ver 1 (if ver = 0x13 then 1 else 0) 1 (sha384 s.certChain)

/-- GET_CERTIFICATE: a portion of the chain of slot 0; no other slot is provisioned. -/
def State.spdmCert (s : State) (ver : Nat) (b : List Byte) : List Byte :=
  let c := s.certChain
  let off := rd b 4 2
  let n := min (rd b 6 2) (c.length - off)
  if rd b 2 1 % 16 ≠ 0 ∨ c.length < off then spdmErr ver 1 0
  else spdmMsg ver 2 0 0 (le 2 n ++ le 2 (c.length - off - n) ++ slice c off n)

/-- CHALLENGE of slot 0: CHALLENGE_AUTH, signed over everything since GET_VERSION. -/
def State.spdmChallenge (s : State) (t ver : Nat) (b : List Byte) : Answer :=
  if rd b 2 1 ≠ 0 then (s, spdmErr ver 1 0)
  else
    let r := spdmMsg ver 3 0 1 (sha384 s.certChain ++ s.nonce ++ s.summaryHash (rd b 3 1) ++ le 2 0 ++ requesterContext ver b 36)
    let l := s.spdmLog t
    ((s.drawn 1).updLog t (fun l => { l with certs := [] }),
      r ++ s.spdmSign ver "responder-challenge_auth signing" (l.vca ++ l.certs ++ b ++ r))

/-- GET_MEASUREMENTS with the transcript `m` of the measurements since the last signature: the answer, and the transcript after it.
A signature is asked for from slot 0 alone. -/
def State.spdmMeasure (s : State) (t ver : Nat) (b m : List Byte) : Answer × List Byte :=
  let wants := bit (rd b 2 1) 0
  match measureIndices (rd b 3 1) with
  | none => ((s, spdmErr ver 1 0), m)
  | some ks =>
    if wants ∧ (b.length < 37 ∨ rd b 36 1 % 16 ≠ 0) then ((s, spdmErr ver 1 0), m)
    else
      let r := spdmMsg ver 0x60 (if rd b 3 1 = 0 then 7 else 0) 0 (s.measureRecord ks ++ s.nonce ++ le 2 0
        ++ requesterContext ver b (if wants then 37 else 4))
      let n := m ++ b ++ r
      if wants then
        ((s.drawn 1, r ++ s.spdmSign ver "responder-measurements signing" ((s.spdmLog t).vca ++ n)), [])
      else ((s.drawn 1, r), n)

/-! ### The key exchange and the key schedule (R449) -/

/-- A secret derived from another under a label and the hash of a transcript. -/
def spdmDerive (ver : Nat) (secret : List Byte) (label : String) (th : List Byte) : List Byte :=
  hkdfExpand secret (spdmLabel ver 48 label ++ sha384 th) 48

/-- What a side proves in the key exchange: a code under its finished key over the transcript. -/
def finishData (ver : Nat) (secret th : List Byte) : List Byte := hmac384 (hkdfExpand secret (spdmLabel ver 48 "finished") 48) (sha384 th)

/-- The master secret. -/
def masterSecret (ver : Nat) (hs : List Byte) : List Byte := hmac384 (hkdfExpand hs (spdmLabel ver 48 "derived") 48) (be 48 0)

/-- A KEY_EXCHANGE is whole, asks for slot 0, and brings a point of the curve. -/
def keyExchangeOk (b : List Byte) : Bool :=
  decide (138 ≤ b.length) && rd b 3 1 == 0 && onCurve (rdBe b 40 48) (rdBe b 88 48)

/-- The responder's private number of a key exchange: a free value (log entry 3). -/
def privateOf (v : Nat) : Nat := v % (pOrder - 1) + 1

/-- KEY_EXCHANGE: KEY_EXCHANGE_RSP, signed by the alias key, and a session in its handshake. -/
def State.spdmKeyExchange (s : State) (t ver : Nat) (b : List Byte) : Answer :=
  if sessionLimit t ≤ (s.ident.sessions t).length then (s, spdmErr ver 0xA 0)
  else if keyExchangeOk b = false then (s, spdmErr ver 1 0)
  else
    let d := privateOf (s.drawn 1).freeVal
    let own := (s.drawn 2).freeVal % 65536
    let r := spdmMsg ver 0x64 0 0 (le 2 own ++ le 1 0 ++ le 1 0 ++ s.nonce ++ publicOf d ++ s.summaryHash (rd b 2 1) ++ le 2 0)
    let th := (s.spdmLog t).vca ++ sha384 s.certChain ++ b ++ r
    let g := s.spdmSign ver "responder-key_exchange_rsp signing" th
    let hs := hmac384 (be 48 0) (sharedSecret d (slice b 40 96))
    let rsp := spdmDerive ver hs "rsp hs data" (th ++ g)
    let v := finishData ver rsp (th ++ g)
    let x : SpdmSession := { id := rd b 4 2 + 65536 * own, ver, done := false, log := th ++ g ++ v, hs,
                             req := spdmDerive ver hs "req hs data" (th ++ g), rsp, reqSeq := 0, rspSeq := 0, meas := [] }
    ((s.updIdent (fun i => i.setSessions t (i.sessions t ++ [x]))).drawn 3, r ++ g ++ v)

/-- FINISH: the requester's proof is right, and the session has its application keys; or it fails, with SPDM_AUTH_FAIL. -/
def State.spdmFinish (s : State) (t : Nat) (x : SpdmSession) (b : List Byte) : Answer :=
  if slice b 4 48 = finishData x.ver x.req (x.log ++ b.take 4) then
    let r := spdmMsg x.ver 0x65 0 0 []
    let th := x.log ++ b.take 52 ++ r
    let m := masterSecret x.ver x.hs
    (s.putSession t { x with done := true, req := spdmDerive x.ver m "req app data" th, rsp := spdmDerive x.ver m "rsp app data" th,
                             reqSeq := 0, rspSeq := 0 }, r)
  else ((s.endSession t x.id).spdmFail t [], spdmErr x.ver 6 0)

/-- KEY_UPDATE: 1 the requester's key, 2 both, 3 the new key is verified. -/
def State.spdmKeyUpdate (s : State) (t : Nat) (x : SpdmSession) (b : List Byte) : Answer :=
  let op := rd b 2 1
  let r := spdmMsg x.ver 0x69 op (rd b 3 1) []
  let y := { x with req := nextSecret x.ver x.req, reqSeq := 0 }
  match op with
  | 1 => (s.putSession t y, r)
  | 2 => (s.putSession t { y with rsp := nextSecret x.ver x.rsp, rspSeq := 0 }, r)
  | 3 => (s, r)
  | _ => (s, spdmErr x.ver 1 0)

/-! ### Requests -/

/-- Requests that need algorithms, outside a session. -/
def State.spdmEvidence (s : State) (t ver code : Nat) (b : List Byte) : Answer :=
  match code with
  | 0x81 => let r := s.spdmDigests ver; (s.updLog t (fun l => { l with certs := l.certs ++ b ++ r }), r)
  | 0x82 => let r := s.spdmCert ver b; (s.updLog t (fun l => { l with certs := l.certs ++ b ++ r }), r)
  | 0x83 => s.spdmChallenge t ver b
  | 0xE0 => let q := s.spdmMeasure t ver b (s.spdmLog t).meas; (q.1.1.updLog t (fun l => { l with meas := q.2 }), q.1.2)
  | _ => s.spdmKeyExchange t ver b

/-- A message in clear. A code that is not supported is answered with UnsupportedRequest, one before its agreement with
UnexpectedRequest, one in a version not agreed on with VersionMismatch, one of a session with SessionRequired. -/
def State.spdmClear (s : State) (t : Nat) (b : List Byte) : Answer :=
  let ver := rd b 0 1
  let code := rd b 1 1
  let own := Tab.get 0 s.ident.spdmVer t
  if spdmSupported code = false then (s, spdmErr (max 0x10 own) 7 code)
  else if code = 0x84 then if ver = 0x10 then s.spdmVersion t b else (s, spdmErr 0x10 0x41 0)
  else if code ≠ 0xE1 ∧ own = 0 then (s, spdmErr 0x10 4 0)
  else if s.spdmVerOk t ver code = false then (s, spdmErr (max 0x12 own) 0x41 0)
  else if code = 0xE1 then s.spdmCaps t ver b
  else if code = 0xE3 then s.spdmAlgs t ver b
  else if s.ident.spdmNeg.contains t = false then (s, spdmErr ver 4 0)
  else if spdmPlain code then s.spdmEvidence t ver code b
  else (s, spdmErr ver 0xB 0)

/-- A message of a session: FINISH in its handshake; then evidence, HEARTBEAT, KEY_UPDATE and END_SESSION (R449). -/
def State.spdmWithin (s : State) (t : Nat) (x : SpdmSession) (b : List Byte) : Answer :=
  let code := rd b 1 1
  if spdmSupported code = false then (s, spdmErr x.ver 7 code)
  else if rd b 0 1 ≠ x.ver then (s, spdmErr x.ver 0x41 0)
  else if x.done = false then if code = 0xE5 then s.spdmFinish t x b else (s, spdmErr x.ver 4 0)
  else match code with
    | 0x81 => (s, s.spdmDigests x.ver)
    | 0x82 => (s, s.spdmCert x.ver b)
    | 0xE0 => let q := s.spdmMeasure t x.ver b x.meas; (q.1.1.putSession t { x with meas := q.2 }, q.1.2)
    | 0xE8 => (s, spdmMsg x.ver 0x68 0 0 [])
    | 0xE9 => s.spdmKeyUpdate t x b
    | 0xEC => (s.endSession t x.id, spdmMsg x.ver 0x6C 0 0 [])
    | _ => (s, spdmErr x.ver 4 0)

/-! ### Secured messages (R448, R449) -/

/-- Bytes of the sequence number that a transport's secured message carries: 2 over MCTP, none over DOE. -/
def seqBytes (t : Nat) : Nat := if t = 2 then 2 else 0

/-- The nonce of message number `n` of a direction. -/
def securedNonce (ver : Nat) (secret : List Byte) (n : Nat) : List Byte := List.zipWith (· ^^^ ·) (sessionIv ver secret) (le 12 n)

/-- The SPDM message in an application message: over MCTP after its message type. -/
def innerMsg (t : Nat) (p : List Byte) : List Byte := (slice p 2 (rd p 0 2)).drop (if t = 2 then 1 else 0)

/-- The message that a secured message of a session holds, if it verifies. -/
def SpdmSession.unseal (x : SpdmSession) (t : Nat) (b : List Byte) : Option (List Byte) :=
  let h := 6 + seqBytes t
  let n := rd b (4 + seqBytes t) 2
  if rd b 4 (seqBytes t) ≠ x.reqSeq % 256 ^ seqBytes t ∨ n < 16 then none
  else (gcmOpen (sessionKey x.ver x.req) (securedNonce x.ver x.req x.reqSeq) (b.take h) (slice b h (n - 16)) (slice b (h + n - 16) 16)).map
    (innerMsg t)

/-- A message of the responder as a secured message. -/
def SpdmSession.seal (x : SpdmSession) (t : Nat) (m : List Byte) : List Byte :=
  let app := if t = 2 then 5 :: m else m
  let p := le 2 app.length ++ app
  let h := le 4 x.id ++ le (seqBytes t) x.rspSeq ++ le 2 (p.length + 16)
  let c := gcmSeal (sessionKey x.ver x.rsp) (securedNonce x.ver x.rsp x.rspSeq) h p
  h ++ c.1 ++ c.2

/-- The session that seals the answer to a request: FINISH_RSP leaves under the handshake keys, KEY_UPDATE_ACK under the new ones. -/
def State.answerSession (s : State) (t : Nat) (x : SpdmSession) (code : Nat) : SpdmSession :=
  if code = 0xE9 then ((s.ident.sessions t).find? (fun y => y.id == x.id)).getD x else x

/-- The responder has sealed one message more: under the keys that stay in use. -/
def State.countSealed (s : State) (t : Nat) (x : SpdmSession) (code : Nat) : State :=
  s.updIdent (fun i => i.setSessions t ((i.sessions t).map (fun y =>
    if y.id = x.id ∧ code ≠ 0xE5 then { y with rspSeq := y.rspSeq + 1 } else y)))

/-- A secured message: of no session of the transport it is answered with InvalidSession, one that does not verify with DecryptError
and SPDM_AUTH_FAIL. -/
def State.spdmSecured (s : State) (t : Nat) (b : List Byte) : State :=
  let ver := max 0x12 (Tab.get 0 s.ident.spdmVer t)
  match (s.ident.sessions t).find? (fun x => x.id == rd b 0 4) with
  | none => s.emit (.spdm t false (spdmErr ver 2 0))
  | some x =>
    match x.unseal t b with
    | none => (s.spdmFail t []).emit (.spdm t false (spdmErr x.ver 6 0))
    | some m =>
      let code := rd m 1 1
      let y := { x with reqSeq := x.reqSeq + 1 }
      let q := (s.putSession t y).spdmWithin t y m
      (q.1.countSealed t y code).emit (.spdm t true ((q.1.answerSession t y code).seal t q.2))

/-- SPDM_REQUEST: transport 0 and 1 the DOE of a function, 2 SMBus; in clear, DOE object type 1 and MCTP message type 0x05, or secured,
type 2 and 0x06. Moaras answers while it runs. -/
def execSpdmRequest (transport : Nat) (m : SpdmIn) (s : State) : Host.Outcome State Fault Refusal :=
  if 3 ≤ transport ∨ (transport ≤ 1 ∧ s.fnExists transport = false) then .fault (.noSuchUnit "SPDM transport")
  else .next (if s.mbx.ready = false then s
    else if m.secured then s.spdmSecured transport m.bytes
    else
      let q := s.spdmClear transport m.bytes
      q.1.emit (.spdm transport false q.2))

end Sys2Proof.Machine
end

