-- ==== Sys2Proof/Machine/Resets.lean ====
section
/-! DEFINITION. The resets of the device and of a PCIe function, the bring-up, and what each keeps (R343, R486 to R493, R497 to
R500, R510, R514). -/

namespace Sys2Proof.Machine

/-! ### What every reset of the device keeps (R497) -/

/-- Identity: fuses and flash stay; sessions go, and no image runs until the next boot. -/
def IdSt.atReset (i : IdSt) : IdSt :=
  { i with
    doe0 := [], doe1 := [], smb := [], spdmNeg := [], spdmVer := [], spdmLog := [], fallback := none, console := none, booted := false,
    bifurcated := i.cfgBif }

/-- A stack's repairs. -/
def Stack.atReset (x : Stack) : Stack := { Stack.init with repaired := x.repaired, pending := x.pending }

/-- Power: pins, fuses, the flash records and the HBM's repairs stay. -/
def PwrSt.atReset (w : PwrSt) : PwrSt :=
  { PwrSt.init with
    porst := w.porst, wrst := w.wrst, supplies := w.supplies, emergency := w.emergency, lastCause := w.lastCause,
    flashCause := w.flashCause, hotAtRecord := w.hotAtRecord, roleStrap := w.roleStrap, variant := w.variant,
    stepping := w.stepping, lifeW := w.lifeW, hours := w.hours, repairLog := w.repairLog, inReset := true, tap := w.tap,
    hbms := (w.hbms.map (fun e => (e.1, e.2.atReset))).filter (fun e => decide (e.2 ≠ Stack.init)) }

/-- Entry to a cold reset or a thermal emergency (R489): everything but fuses and flash returns to its default; the frames on
chip are lost, the links down, the pins low. -/
def State.coldEntry (s : State) : State :=
  { State.reset with
    ident := s.ident.atReset
    pwr := { s.pwr.atReset with bringup := some .cold }
    mbx := { MbxSt.init with boots := s.mbx.boots }
    out := s.out
    free := s.free
    pending := s.pending }

/-! ### What a warm reset keeps besides (R31, R299, R493) -/

/-- Record index of the first record without a receipt: of the oldest receipt not yet signed, else of the oldest batch not yet
closed. -/
def FixClu.firstUnsigned (f : FixClu) : Nat :=
  match f.signing with
  | [] => f.base
  | x :: _ => rd x.2 56 8

/-- The rings of a cluster stay in HBM. The old key is erased (R438), so the receipts not yet signed are lost, and their records
with those of the batches not yet closed become the orphan range (log entry 72). -/
def FixClu.atWarm (f : FixClu) (cap : Nat) : FixClu :=
  let recs := (f.due ++ [f.cur]).flatMap (fun b => b.recs.filterMap (·.2))
  { FixClu.init with
    base := f.base + recs.length, recTail := f.recTail, records := putRecords cap f.base recs f.records,
    rcHead := f.rcHead, rcTail := f.rcTail, receipts := f.receipts, chainSeq := f.chainSeq, prevHash := f.prevHash,
    chainKey := none, orphanFirst := f.firstUnsigned, orphanCount := f.base - f.firstUnsigned + recs.length }

/-- Records orphaned by the reset. -/
def LeavenSt.orphaned (v : LeavenSt) : Nat := (v.fix.map (fun e => e.2.orphanCount)).sum

/-- The fixity log after a warm reset. -/
def LeavenSt.atWarm (v : LeavenSt) (cap : Nat) : LeavenSt :=
  let w : LeavenSt := { LeavenSt.init with
    fix := (v.fix.map (fun e => (e.1, e.2.atWarm cap))).filter (fun e => decide (e.2 ≠ FixClu.init)), ctr := v.ctr }
  { w with ctr := Tab.bump w.ctr 15 w.orphaned }

/-- The FWD_INSERT that writes an entry. -/
def EmEntry.insertCmd (e : EmEntry) : StagedCmd :=
  { op := 0x0401, payload := le 1 e.ktype ++ le 1 (b2n e.isStatic + 2 * b2n e.age) ++ le 2 0 ++ le 8 e.data.toNat ++ padTo 48 e.key }

/-- The PWR_SLICE_PARK that parks a slice. -/
def parkItem (n : Nat) : StagedCmd := { op := 0x1105, payload := le 1 n ++ le 1 0 ++ le 2 0 }

/-- The configuration in force, as the shadow holds it: the last value of every item, the software entries of the table, and
the slice parks. -/
def State.shadowNow (s : State) : List StagedCmd :=
  s.bake.snapshot
    ++ ((s.fwd.em.filter (fun e => e.2.shadow && e.2.sees s.fwd.gen)).map (fun e : Nat × EmEntry => e.2.insertCmd))
    ++ (s.pwr.slices.filter (fun e => decide (e.2.state = SliceState.parked))).map (fun e => parkItem e.1)

/-- The bake state after a warm reset: the shadow is held, with what it keeps of domain bakes. A reset that begins before the
bring-up of an earlier one has ended finds no configuration in force, and keeps what that one kept. -/
def State.bakeAtWarm (s : State) : BakeSt :=
  { BakeSt.init with
    heldShadow := some (s.bake.heldShadow.getD s.shadowNow)
    heldEpoch := if s.pwr.bringup = none then s.bake.epoch else s.bake.heldEpoch, nextBake := s.bake.nextBake,
    outcomes := s.bake.outcomes }

/-- A port after a warm reset: what is counted since cold reset goes on (log entry 44). -/
def PortSt.atWarm (q : PortSt) : PortSt :=
  { PortSt.init with linkUps := q.linkUps, ptp := { PortPtp.init with capSeq := q.ptp.capSeq } }

/-- Entry to a warm reset: HBM contents stay. -/
def State.warmEntry (s : State) : State :=
  let z := s.coldEntry
  { z with
    pwr := { z.pwr with
      bringup := some .warm, regions := s.pwr.regions
      hbms := (List.range 4).foldl (fun l k =>
        Tab.upd Stack.init l k (fun x => { x with correctable := (s.stack k).correctable })) z.pwr.hbms }
    leaven := if s.pwr.bringup = none then s.leaven.atWarm s.recCapacity else s.leaven
    bake := s.bakeAtWarm
    mbx := { z.mbx with restarts := s.mbx.restarts }
    ports := (s.ports.map (fun e => (e.1, e.2.atWarm))).filter (fun e => decide (e.2 ≠ PortSt.init))
    fab := { z.fab with planes := (List.range 5).foldl (fun l k =>
      Tab.upd Plane.init l k (fun x => { x with failures := (s.plane k).failures })) z.fab.planes }
    host := { z.host with staging := s.host.staging, poolMem := s.host.poolMem }
    evt := { z.evt with nextSeq := s.evt.nextSeq }
    swp := { z.swp with taken := s.swp.taken, restarted := true } }

/-! ### Pins and supplies (R487 to R491, R510) -/

/-- With every pin high, the supplies valid and no emergency, the device leaves reset and its bring-up begins. -/
def State.leaveReset (s : State) : State :=
  if s.pwr.inReset ∧ s.pwr.porst ∧ s.pwr.wrst ∧ s.pwr.supplies ∧ ¬ s.pwr.emergency then
    { s with pwr := { s.pwr with inReset := false } }
  else s

/-- PORST_N_LOW. -/
def execPorstNLow (s : State) : Host.Outcome State Fault Refusal :=
  let z := s.coldEntry
  .next { z with pwr := { z.pwr with porst := false, emergency := false } }

/-- PORST_N_RISE: ROLE[1:0] is sampled. -/
def execPorstNRise (role : Nat) (s : State) : Host.Outcome State Fault Refusal :=
  .next (if s.pwr.porst then s
    else ({ s with pwr := { s.pwr with porst := true, roleStrap := role % 4 } }).leaveReset)

/-- A warm reset that begins during a wider one, or its bring-up, does not narrow it (R488). -/
def State.wrstEntry (s : State) : State :=
  if s.pwr.porst = false ∨ s.pwr.emergency then s
  else if s.pwr.bringup = some .cold then s.coldEntry
  else s.warmEntry

/-- WRST_N_LOW: ignored while PORST_N is low, but for the pin's level. -/
def execWrstNLow (s : State) : Host.Outcome State Fault Refusal :=
  let z := s.wrstEntry
  .next { z with pwr := { z.pwr with wrst := false } }

/-- WRST_N_RISE. -/
def execWrstNRise (s : State) : Host.Outcome State Fault Refusal :=
  .next (if s.pwr.wrst then s else ({ s with pwr := { s.pwr with wrst := true } }).leaveReset)

/-- The write of the boot configuration that may be under way: the ROM's before a trial image starts, during a boot; else that of
a queued ID_SET_BOOT (R442, R445). -/
def State.bootWrite (s : State) : Option (Nat × Bool × Bool) :=
  if (s.pwr.bringup.isSome ∧ ¬ s.pwr.inReset ∨ s.mbx.restarting.isSome) ∧ s.ident.console = none then
    match s.ident.checked.choice.run with
    | some (k, true) => some (1 - k, false, s.ident.cfgBif)
    | _ => none
  else (s.mbx.jobs.find? (fun j => j.op == 0x0F06)).bind (fun j => (s.setBoot j.req.payload).toOption)

/-- A power loss cuts that write short wherever it stands: the other copy stays in force (R442; log entries 3 and 69). -/
def State.cutWrite (s : State) : State :=
  match s.bootWrite with
  | some (k, trial, x8) => (s.updIdent (fun i => i.cutCfg (s.freeVal % 18) k trial x8)).drawn 1
  | none => s

/-- SUPPLY_FAULT: the power monitor acts as PORST_N low; a warm reset and a thermal emergency become a cold reset (R488,
R510). -/
def execSupplyFault (s : State) : Host.Outcome State Fault Refusal :=
  let z := s.cutWrite.coldEntry
  .next { z with pwr := { z.pwr with supplies := false, emergency := false } }

/-- SUPPLIES_VALID. -/
def execSuppliesValid (s : State) : Host.Outcome State Fault Refusal :=
  .next (({ s with pwr := { s.pwr with supplies := true } }).leaveReset)

/-! ### Temperature (R486) -/

/-- Thermal emergency: THERM_TRIP_N low, held in reset; whether the cause reaches the flash depends on how long its supply
lasts (log entry 3). -/
def State.thermalEmergency (s : State) : State :=
  let z := s.coldEntry
  { z with pwr := { z.pwr with emergency := true, flashCause := bit s.freeVal 0 }, free := s.free + 1 }

/-- THERMAL_SAMPLE: the readings of the 64 sensors in 1/16 °C, four for each slice. An emergency replaces a warm reset, but not
a cold one; the other thresholds act outside reset alone (R488). -/
def execThermalSample (readings : List Int) (s : State) : Host.Outcome State Fault Refusal :=
  .next (if s.pwr.porst = false ∨ s.pwr.supplies = false ∨ s.pwr.emergency then s
    else if emergencyAt ≤ (hottestOf readings).2 then s.thermalEmergency
    else if s.pwr.inReset then s
    else s.thermal readings)

/-! ### The end of a bring-up (R491, R492, R499, R500) -/

/-- A plane of the repair record stays out of service; the standby takes the place of one in service. -/
def State.planeOut (s : State) (k : Nat) : State :=
  let was := (s.plane k).state
  let t := s.updPlane k (fun x => { x with state := .failed })
  match (List.range 5).find? (fun j => (t.plane j).state == .standby) with
  | some j => if was = .active then t.updPlane j (fun x => { x with state := .active }) else t
  | none => t

/-- A core of the repair record stays out of service, its slot served by a spare if there is one. -/
def Cluster.out (x : Cluster) (k : Nat) : Cluster :=
  let y := { x with failed := insertRising k x.failed }
  match x.slotOf k with
  | some i => { y with slots := x.slots.set i (x.ready.find? (· != k)) }
  | none => y

/-- A processor of the repair record stays out of service. -/
def State.mpOut (s : State) (k : Nat) : State :=
  let t := s.updMp k (fun m => { m with state := .failed })
  if (s.mp k).state = .active ∧ (s.mp (1 - k)).state = .standby then t.updMp (1 - k) (fun m => { m with state := .active }) else t

/-- A datapath of the repair record: the group's spare carries its lane, or the lane has none. -/
def GroupSt.out (g : GroupSt) (i : Nat) : GroupSt :=
  if g.spare = 0 then { g with spare := 1, laneOnSpare := i } else { g with dead := setBit g.dead i }

/-- The spare datapath of the repair record: a lane that it would carry has none. -/
def GroupSt.spareOut (g : GroupSt) : GroupSt :=
  { g with spare := 2, laneOnSpare := 0xFF, dead := if g.spare = 1 then setBit g.dead g.laneOnSpare else g.dead }

/-- One entry of the repair record, as a boot applies it. -/
def State.applyRepair (s : State) (u : Nat × Nat) : State :=
  match u.1 with
  | 0 => s.planeOut u.2
  | 1 => s.updCluster (u.2 / 16) (fun x => x.out (u.2 % 16))
  | 2 => s.mpOut u.2
  | 3 => s.updGroup (u.2 / 8) (fun g => g.out (u.2 % 8))
  | 4 => s.updStack (u.2 / 33) (fun x => if x.spare = 0 then { x with spare := 1 } else { x with unspared := true })
  | 6 => s.updGroup u.2 GroupSt.spareOut
  | 7 => s.updStack u.2 (fun x => { x with spare := 2, unspared := x.unspared || x.spare == 1 })
  | _ => s

/-- The boot self-test of MP-A: whether it passes is a free value (R264). Where it fails, MP-B takes the active role. -/
def State.testMpA (s : State) : State :=
  if bit s.freeVal 0 = true ∧ (s.mp 0).state ≠ .failed then ((s.mpOut 0).repairAdd 2 0).drawn 1 else s.drawn 1

/-- The repair record applied; pending row repairs too, at a cold reset. -/
def State.applyRepairs (s : State) (kind : ResetKind) : State :=
  let t := s.pwr.repairLog.foldl State.applyRepair s
  if kind = .cold then
    { t with pwr := { t.pwr with hbms := t.pwr.hbms.map (fun e =>
        (e.1, { e.2 with repaired := e.2.repaired + e.2.pending.length, pending := [] })) } }
  else t

/-- Seeds drawn as the tables are initialised (R96, R119). -/
def State.drawSeeds (s : State) : State :=
  ({ s with fwd := { s.fwd with seed0 := s.freeVal % 2 ^ 32, seed1 := Config.freeValue (s.free + 1) % 2 ^ 32,
                                seed2 := Config.freeValue (s.free + 2) % 2 ^ 32 } }).drawn 3

/-- FIX_ORPHANS of a cluster. -/
def State.tellOrphans (s : State) (c : Nat) : State :=
  s.raiseIf (decide (0 < (s.fix c).orphanCount)) 0x0A04 sevWarning
    (le 1 c ++ le 8 (s.fix c).orphanFirst ++ le 4 (s.fix c).orphanCount)

/-- What a warm reset reports. -/
def State.tellWarm (s : State) : State :=
  (List.range 16).foldl State.tellOrphans (s.raise 0x110B sevInfo (le 4 s.bake.heldEpoch))

/-- The cause that RESET_CAUSE reports. -/
def PwrSt.cause (w : PwrSt) (kind : ResetKind) : Nat := if kind = ResetKind.warm then 1 else if w.flashCause then 2 else 0

/-- Moaras is ready: MOARAS_READY, bake epoch 1, RESET_CAUSE, and after a warm reset SHADOW_HELD. -/
def State.becomeReady (s : State) (kind : ResetKind) : State :=
  let c := s.pwr.cause kind
  let a := { s with
    mbx := { s.mbx with ready := true, readyUp := s.up }
    bake := { s.bake with epoch := 1 }
    pwr := { s.pwr with bringup := none, lastCause := c, flashCause := s.pwr.flashCause && kind == ResetKind.warm } }
  let b := a.raise 0x1101 sevInfo (le 1 c ++ le 2 (unsigned 16 s.pwr.hotAtRecord) ++ le 4 s.mbx.boots)
  if kind = .warm then b.tellWarm else b

/-- The bring-up up to readiness. With no image that may run MOARAS_READY stays 0. -/
def State.bootDone (s : State) (kind : ResetKind) : State :=
  let t := (((s.applyRepairs kind).testMpA).drawSeeds).moarasBoot
  if t.ident.booted && (t.mpIn .active).isSome then (t.healthSince s).becomeReady kind else t.healthSince s

/-- MOARAS_BOOT_DONE. -/
def execMoarasBootDone (s : State) : Host.Outcome State Fault Refusal :=
  .next (match s.pwr.bringup with
    | some k => if s.pwr.inReset ∨ s.ident.console.isSome then s else s.bootDone k
    | none => s)

/-! ### Pins that the state drives (R514) -/

/-- GPIO[0], GPIO[1] and GPIO[2]; all are high impedance in reset. -/
def State.gpio (s : State) (i : Nat) : Option Bool :=
  if s.pwr.inReset then none
  else if i = 0 then some s.mbx.ready
  else if i = 1 then some (s.overall == 2)
  else if i = 2 then some (s.pwr.warn || s.pwr.trip)
  else none

/-- THERM_TRIP_N. -/
def State.thermTripN (s : State) : Bool := !s.pwr.emergency

/-! ### Resets of a PCIe function (R343, R382, R384, R497) -/

/-- Channels, mailboxes and FIFOs of a function. -/
def State.fnChans (s : State) (fn : Nat) : List Nat := (List.range 128).filter (fun c => s.chFn c == fn)
def State.fnBoxes (s : State) (fn : Nat) : List Nat := (List.range 32).filter (fun b => s.boxFn b == fn)
def State.fnFifos (s : State) (fn : Nat) : List Nat :=
  (List.range 8).filter (fun f => !s.ident.bifurcated || f / 4 == fn)

/-- Every channel of the function stops, as ABORT does. -/
def State.stopChans (s : State) (fn : Nat) : State := (s.fnChans fn).foldl State.chanAbort s

/-- Mailboxes of the function become FREE; their commands run on, and their responses are discarded. -/
def State.freeBoxes (s : State) (fn : Nat) : State :=
  let mine := fun b : Nat => decide (b < 32) && s.boxFn b == fn
  let t := (s.fnBoxes fn).foldl (fun t b => t.updBox b (fun _ => Mbox.init)) s
  { t with mbx := { t.mbx with
      jobs := t.mbx.jobs.map (fun j =>
        { j with boxed := j.boxed && !mine j.req.box, waiters := j.waiters.filter (fun w => !mine w.1) })
      gapCmds := t.mbx.gapCmds.map (fun j => { j with boxed := j.boxed && !mine j.req.box }) } }

/-- Interrupts of the function: pending bits, map entries, MSI-X table. -/
def State.resetInts (s : State) (fn : Nat) : State :=
  let mine := fun n : Nat => intOwner s.ident.bifurcated n == fn
  { s with host := { s.host with
      pending := s.host.pending.filter (fun e => !mine e.1)
      mapVec := s.host.mapVec.filter (fun e => !mine e.1)
      mapEn := s.host.mapEn.filter (fun e => !mine e.1)
      msix := s.host.msix.filter (fun e => e.1 / 8192 != fn) } }

/-- DMA channels and host packet FIFOs of the function at their defaults; FIFO contents are discarded. -/
def State.resetDma (s : State) (fn : Nat) : State :=
  let t := (s.fnChans fn).foldl (fun t c => t.updChan c (fun _ => Chan.init)) s
  let u := (s.fnFifos fn).foldl (fun t f => t.updFifo f (fun _ => HFifo.init)) t
  { u with host := { u.host with waitFetch := u.host.waitFetch.filter (fun c => s.chFn c != fn) } }

/-- The event registers at their defaults: events go on being held on chip (R470). -/
def EvtSt.atFnReset (v : EvtSt) : EvtSt :=
  { EvtSt.init with nextSeq := v.nextSeq, held := v.held, lost := v.lost, lostFirst := v.lostFirst, lostLast := v.lostLast }

/-- The sweep registers at their defaults. -/
def SwpSt.atFnReset (w : SwpSt) : SwpSt :=
  { SwpSt.init with taken := w.taken, missed := w.missed, slicesReset := w.slicesReset, restarted := w.restarted }

/-- The blocks that link 0 owns: event log, sweeps, time capture. -/
def State.resetShared (s : State) : State :=
  { s with
    evt := s.evt.atFnReset
    swp := s.swp.atFnReset
    time := { s.time with latchSec := 0, latchNs := 0, ppsInSec := 0, ppsInNs := 0 }
    tsFifos := (s.tsFifos.map (fun e => (e.1, { e.2 with overflow := false }))).filter (fun e => decide (e.2 ≠ TsFifo.init)) }

/-- SPDM sessions over the function's DOE are lost. -/
def State.dropDoe (s : State) (fn : Nat) : State :=
  s.updIdent (fun i => { i.setSessions fn [] with
    spdmNeg := without i.spdmNeg fn, spdmVer := Tab.set 0 i.spdmVer fn 0, spdmLog := Tab.erase fn i.spdmLog })

/-- A link and its function after a Function Level Reset: the link stays up, with its Max_Payload_Size and ASPM control and the
AER registers as PCI Express has it (log entry 106). -/
def LinkIf.atFlr (l : LinkIf) : LinkIf :=
  { LinkIf.init with
    aerUncor := l.aerUncor, aerCor := l.aerCor, aerUncorMask := l.aerUncorMask, aerUncorSev := l.aerUncorSev,
    aerCorMask := l.aerCorMask,
    up := l.up, speed := l.speed, width := l.width, flit := l.flit, aspmL1 := l.aspmL1,
    devCtl := LinkIf.init.devCtl ||| (l.devCtl &&& 0x00E0) }

/-- The host interface of a function returns to its defaults; `up` says whether its link stays up. -/
def State.resetFunction (s : State) (fn : Nat) (up : Bool) : State :=
  let a := (((s.stopChans fn).freeBoxes fn).resetDma fn).resetInts fn
  let b := a.dropDoe fn
  let c := b.updLink fn (fun l => if up then l.atFlr else LinkIf.init)
  if fn = 0 then c.resetShared else c

/-- Rows about a function's link. -/
def onFunction (s : State) (fn : Nat) (t : State) : Host.Outcome State Fault Refusal :=
  if s.fnExists fn then .next t else .fault (.noSuchUnit "function")

/-- A function is reset: HOST_RESET with the kind. -/
def State.functionReset (s : State) (fn kind : Nat) : State :=
  (s.resetFunction fn (decide (2 ≤ kind))).raise 0x1202 sevInfo (le 1 fn ++ le 1 (min kind 2))

/-- PCIE_FUNCTION_RESET: kind 0 hot reset, 1 PERST_N, 2 Function Level Reset, which keeps the link. -/
def execPcieFunctionReset (fn kind : Nat) (s : State) : Host.Outcome State Fault Refusal :=
  onFunction s fn (s.functionReset fn kind)

/-- HOST_LINK_LOSS: a surprise link-down. -/
def execHostLinkLoss (fn : Nat) (s : State) : Host.Outcome State Fault Refusal :=
  onFunction s fn ((s.resetFunction fn false).raise 0x1201 sevWarning (le 1 fn))

/-- The function enters D3hot: its channels stop, everything else stays. -/
def State.enterD3 (s : State) (fn : Nat) : State := (s.stopChans fn).updLink fn (fun l => { l with d3 := true })

/-- D3HOT_ENTRY. -/
def execD3hotEntry (fn : Nat) (s : State) : Host.Outcome State Fault Refusal := onFunction s fn (s.enterD3 fn)

/-- Speeds and widths that a link trains to (R341, R342): 64 GT/s in FLIT mode, at most 8 lanes in x8 + x8. -/
def linkTrains (x8 : Bool) (speed width : Nat) (flit : Bool) : Bool :=
  decide (4 ≤ speed) && decide (speed ≤ 6) && (speed != 6 || flit) && [1, 2, 4, 8, 16].contains width && (!x8 || width != 16)

/-- PCIE_LINK_UP: speed code, lanes, FLIT. A device in reset has no link; at another speed or width none comes up. -/
def execPcieLinkUp (fn speed width : Nat) (flit : Bool) (s : State) : Host.Outcome State Fault Refusal :=
  onFunction s fn (if s.pwr.inReset ∨ linkTrains s.ident.bifurcated speed width flit = false then s
    else s.updLink fn (fun l => { l with up := true, speed, width, flit, d3 := false }))

end Sys2Proof.Machine
end

