-- ==== Sys2Proof/Machine/PcieConfig.lean ====
section
/-! DEFINITION. The configuration space of a function: identity, BAR0, Power Management, MSI-X, PCI Express, AER and the Device
Serial Number (R341, R343, R355, R357, R359, R370), and the row REGISTER_WRITE, which reaches it and BAR0. Offsets in
configuration space are the model's choice; the fields are those of the PCIe base specification (log entry 106). The extended
capabilities are AER at 0x100, the Device Serial Number at 0x140, DOE at 0x150, whose data objects the SPDM rows carry (R447), and
Device 3 at 0x170. -/

namespace Sys2Proof.Machine

/-! ### What it reads -/

/-- The Device Serial Number: 8 bytes of the device's serial. -/
def serialWord (k : Nat) : Nat := rd Config.serial (4 * k) 4

/-- Device Capabilities: payloads of up to 4,096 bytes, extended tags, role-based errors, Function Level Reset. -/
def devCaps : Nat := 5 + 2 ^ 5 + 2 ^ 15 + 2 ^ 28

/-- Link Capabilities: 64 GT/s, x16 or x8, ASPM L1 and no L0s (R341, R342); the link's number. -/
def linkCaps (x8 : Bool) (fn : Nat) : Nat := 6 + 2 ^ 4 * (if x8 then 8 else 16) + 2 ^ 10 * 2 + 2 ^ 22 + 2 ^ 24 * fn

/-- A double word of the extended capabilities. -/
def LinkIf.extWord (l : LinkIf) (o : Nat) : Nat :=
  match o with
  | 0x100 => 0x14020001
  | 0x104 => l.aerUncor.toNat
  | 0x108 => l.aerUncorMask.toNat
  | 0x10C => l.aerUncorSev.toNat
  | 0x110 => l.aerCor.toNat
  | 0x114 => l.aerCorMask.toNat
  | 0x140 => 0x15010003
  | 0x144 => serialWord 0
  | 0x148 => serialWord 1
  | 0x150 => 0x1702002E
  | 0x170 => 0x0001002F
  | 0x174 => 6
  | _ => 0

/-- A double word of configuration space. Vendor 0x1D7C, device 0x7216, class 0x02_8000; subsystem 1 MA, 2 WA. -/
def State.cfgWord (s : State) (fn o : Nat) : Nat :=
  let l := s.host.link fn
  if o = 0x00 then 0x1D7C + 2 ^ 16 * 0x7216
  else if o = 0x04 then l.cmd.toNat + 2 ^ 20
  else if o = 0x08 then s.pwr.stepping % 256 + 2 ^ 8 * 0x028000
  else if o = 0x10 then l.bar0.toNat % 2 ^ 32 + 4
  else if o = 0x14 then l.bar0.toNat / 2 ^ 32
  else if o = 0x2C then 0x1D7C + 2 ^ 16 * s.pwr.variant
  else if o = 0x34 then 0x40
  else if o = 0x40 then 0x35001
  else if o = 0x44 then 8 + 3 * b2n l.d3
  else if o = 0x50 then 0x6011 + 2 ^ 16 * (2047 + 2 ^ 14 * b2n l.fnMask + 2 ^ 15 * b2n l.msixOn)
  else if o = 0x54 then 0x20000
  else if o = 0x58 then 0x28000
  else if o = 0x60 then 0x20010
  else if o = 0x64 then devCaps
  else if o = 0x68 then l.devCtl.toNat
  else if o = 0x6C then linkCaps s.ident.bifurcated fn
  else if o = 0x70 then 2 * b2n l.aspmL1 + 2 ^ 16 * (l.speed + 16 * l.width)
  else if o = 0x84 then 0x30000
  else l.extWord o

/-! ### What writes do -/

/-- MSI-X Enable and the function mask: with MSI-X enabled and the mask clear, the pending messages of the open vectors are sent
(R369, R370). -/
def State.putMsixCtl (s : State) (fn : Nat) (on m : Bool) : State :=
  let l := s.host.link fn
  let due := if m || !on then [] else l.pba.filter (fun v => l.vecOpen.contains v)
  let h := s.host.updLink fn (fun x => { x with msixOn := on, fnMask := m, pba := x.pba.filter (fun v => !due.contains v) })
  { s with host := h, out := (due.map (h.message fn)).reverse ++ s.out }

/-- The power state: 3 is D3hot, 0 is D0; the others do not exist (R341, R343). -/
def State.putPower (s : State) (fn v : Nat) : State :=
  if v % 4 = 3 ∧ (s.host.link fn).d3 = false then s.enterD3 fn
  else if v % 4 = 0 then s.updLink fn (fun l => { l with d3 := false })
  else s

/-- Device Control, whose bit 15 starts a Function Level Reset. -/
def State.putDevCtl (s : State) (fn v : Nat) : State :=
  let t := s.updLink fn (fun l => { l with devCtl := BitVec.ofNat 16 (v % 2 ^ 15) })
  if bit v 15 then t.functionReset fn 2 else t

/-- A write of a double word of configuration space. -/
def State.cfgWrite (s : State) (fn o v : Nat) : State :=
  if o = 0x04 then s.updLink fn (fun l => { l with cmd := BitVec.ofNat 16 v &&& 0x0546 })
  else if o = 0x10 then s.updLink fn (fun l =>
    { l with bar0 := BitVec.ofNat 64 (l.bar0.toNat / 2 ^ 32 * 2 ^ 32 + v % 2 ^ 32 / 2 ^ 26 * 2 ^ 26) })
  else if o = 0x14 then s.updLink fn (fun l =>
    { l with bar0 := BitVec.ofNat 64 (l.bar0.toNat % 2 ^ 32 + 2 ^ 32 * (v % 2 ^ 32)) })
  else if o = 0x44 then s.putPower fn v
  else if o = 0x50 then s.putMsixCtl fn (bit v 31) (bit v 30)
  else if o = 0x68 then s.putDevCtl fn (v % 2 ^ 16)
  else if o = 0x70 then s.updLink fn (fun l => { l with aspmL1 := bit v 1 })
  else if o = 0x104 then s.updLink fn (fun l => { l with aerUncor := l.aerUncor &&& ~~~(BitVec.ofNat 32 v) })
  else if o = 0x108 then s.updLink fn (fun l => { l with aerUncorMask := BitVec.ofNat 32 v })
  else if o = 0x10C then s.updLink fn (fun l => { l with aerUncorSev := BitVec.ofNat 32 v })
  else if o = 0x110 then s.updLink fn (fun l => { l with aerCor := l.aerCor &&& ~~~(BitVec.ofNat 32 v) })
  else if o = 0x114 then s.updLink fn (fun l => { l with aerCorMask := BitVec.ofNat 32 v })
  else s

/-- The row's offsets from here on are those of configuration space: BAR0 is 64 MiB. -/
def cfgBase : Nat := 0x4000000

/-- REGISTER_WRITE: a register of BAR0, or a double word of configuration space, which D3hot does not close (R343). -/
def execRegisterWrite (fn off size : Nat) (w : BitVec 64) (s : State) : Host.Outcome State Fault Refusal :=
  if off < cfgBase then onAccess s fn (s.hostWrites fn off size w.toNat)
  else onFunction s fn (if size = 4 ∧ off % 4 = 0 then s.cfgWrite fn (off - cfgBase) w.toNat else s)

end Sys2Proof.Machine
end

