-- ==== Sys2Proof/Machine/Dispatch.lean ====
section
/-! DEFINITION. One arm for each command: the command's meaning, called directly. -/

namespace Sys2Proof.Machine

def exec (i : Instr) (s : State) : Host.Outcome State Fault Refusal :=
  match i with
  | .memGetMap r => Sys2Proof.Machine.execMemGetMap r s
  | .memSetRegions r => Sys2Proof.Machine.execMemSetRegions r s
  | .memGetHealth r => Sys2Proof.Machine.execMemGetHealth r s
  | .portSetMode r => Sys2Proof.Machine.execPortSetMode r s
  | .portGetStatus r => Sys2Proof.Machine.execPortGetStatus r s
  | .portSetMac r => Sys2Proof.Machine.execPortSetMac r s
  | .portSetFlow r => Sys2Proof.Machine.execPortSetFlow r s
  | .portSetThrottle r => Sys2Proof.Machine.execPortSetThrottle r s
  | .portSetEee r => Sys2Proof.Machine.execPortSetEee r s
  | .portSetLaneMap r => Sys2Proof.Machine.execPortSetLaneMap r s
  | .portGetMargin r => Sys2Proof.Machine.execPortGetMargin r s
  | .portGetCounters r => Sys2Proof.Machine.execPortGetCounters r s
  | .portSetAdmin r => Sys2Proof.Machine.execPortSetAdmin r s
  | .portSetMargin r => Sys2Proof.Machine.execPortSetMargin r s
  | .prismSetProfile r => Sys2Proof.Machine.execPrismSetProfile r s
  | .prismSetSelect r => Sys2Proof.Machine.execPrismSetSelect r s
  | .prismSetPort r => Sys2Proof.Machine.execPrismSetPort r s
  | .prismWriteRule r => Sys2Proof.Machine.execPrismWriteRule r s
  | .prismReadRule r => Sys2Proof.Machine.execPrismReadRule r s
  | .prismGetCounters r => Sys2Proof.Machine.execPrismGetCounters r s
  | .prismGetRuleCounters r => Sys2Proof.Machine.execPrismGetRuleCounters r s
  | .prismGetEpoch r => Sys2Proof.Machine.execPrismGetEpoch r s
  | .fwdInsert r => Sys2Proof.Machine.execFwdInsert r s
  | .fwdDelete r => Sys2Proof.Machine.execFwdDelete r s
  | .fwdLookup r => Sys2Proof.Machine.execFwdLookup r s
  | .fwdSetVlan r => Sys2Proof.Machine.execFwdSetVlan r s
  | .fwdSetRoute r => Sys2Proof.Machine.execFwdSetRoute r s
  | .fwdSetNexthop r => Sys2Proof.Machine.execFwdSetNexthop r s
  | .fwdSetEcmp r => Sys2Proof.Machine.execFwdSetEcmp r s
  | .fwdSetTemplate r => Sys2Proof.Machine.execFwdSetTemplate r s
  | .fwdSetRouter r => Sys2Proof.Machine.execFwdSetRouter r s
  | .fwdSetLearn r => Sys2Proof.Machine.execFwdSetLearn r s
  | .fwdSetAging r => Sys2Proof.Machine.execFwdSetAging r s
  | .fwdFlush r => Sys2Proof.Machine.execFwdFlush r s
  | .fwdGetCounters r => Sys2Proof.Machine.execFwdGetCounters r s
  | .fwdGetOccupancy r => Sys2Proof.Machine.execFwdGetOccupancy r s
  | .bufSetClass r => Sys2Proof.Machine.execBufSetClass r s
  | .bufSetPortClass r => Sys2Proof.Machine.execBufSetPortClass r s
  | .bufSetHeadroom r => Sys2Proof.Machine.execBufSetHeadroom r s
  | .bufSetPfcTx r => Sys2Proof.Machine.execBufSetPfcTx r s
  | .bufSetWredProfile r => Sys2Proof.Machine.execBufSetWredProfile r s
  | .bufSetQueue r => Sys2Proof.Machine.execBufSetQueue r s
  | .bufGetStatus r => Sys2Proof.Machine.execBufGetStatus r s
  | .bufGetPort r => Sys2Proof.Machine.execBufGetPort r s
  | .bufGetCounters r => Sys2Proof.Machine.execBufGetCounters r s
  | .bufGetPools r => Sys2Proof.Machine.execBufGetPools r s
  | .fabSetParams r => Sys2Proof.Machine.execFabSetParams r s
  | .fabSetPort r => Sys2Proof.Machine.execFabSetPort r s
  | .fabGetStatus r => Sys2Proof.Machine.execFabGetStatus r s
  | .fabGetPair r => Sys2Proof.Machine.execFabGetPair r s
  | .fabSetPlane r => Sys2Proof.Machine.execFabSetPlane r s
  | .fabGetCounters r => Sys2Proof.Machine.execFabGetCounters r s
  | .schedSetNode r => Sys2Proof.Machine.execSchedSetNode r s
  | .schedGetNode r => Sys2Proof.Machine.execSchedGetNode r s
  | .polSet r => Sys2Proof.Machine.execPolSet r s
  | .polGet r => Sys2Proof.Machine.execPolGet r s
  | .polSetPort r => Sys2Proof.Machine.execPolSetPort r s
  | .loupeSetProfile r => Sys2Proof.Machine.execLoupeSetProfile r s
  | .loupeSetQueue r => Sys2Proof.Machine.execLoupeSetQueue r s
  | .loupeGet r => Sys2Proof.Machine.execLoupeGet r s
  | .schedGetCounters r => Sys2Proof.Machine.execSchedGetCounters r s
  | .timeGet r => Sys2Proof.Machine.execTimeGet r s
  | .timeAdjust r => Sys2Proof.Machine.execTimeAdjust r s
  | .timeSetPtp r => Sys2Proof.Machine.execTimeSetPtp r s
  | .timeSetPort r => Sys2Proof.Machine.execTimeSetPort r s
  | .timeSetPps r => Sys2Proof.Machine.execTimeSetPps r s
  | .gateSetList r => Sys2Proof.Machine.execGateSetList r s
  | .gateGetStatus r => Sys2Proof.Machine.execGateGetStatus r s
  | .timeGetCounters r => Sys2Proof.Machine.execTimeGetCounters r s
  | .frerSetStream r => Sys2Proof.Machine.execFrerSetStream r s
  | .frerGetStream r => Sys2Proof.Machine.execFrerGetStream r s
  | .frerSetPort r => Sys2Proof.Machine.execFrerSetPort r s
  | .frerResetStream r => Sys2Proof.Machine.execFrerResetStream r s
  | .redGetHealth r => Sys2Proof.Machine.execRedGetHealth r s
  | .redSwitchover r => Sys2Proof.Machine.execRedSwitchover r s
  | .redResync r => Sys2Proof.Machine.execRedResync r s
  | .redGetCounters r => Sys2Proof.Machine.execRedGetCounters r s
  | .fixSetCluster r => Sys2Proof.Machine.execFixSetCluster r s
  | .fixGetFlow r => Sys2Proof.Machine.execFixGetFlow r s
  | .fixGetLog r => Sys2Proof.Machine.execFixGetLog r s
  | .fixRelease r => Sys2Proof.Machine.execFixRelease r s
  | .fixFlush r => Sys2Proof.Machine.execFixFlush r s
  | .fixGetReceipt r => Sys2Proof.Machine.execFixGetReceipt r s
  | .leavenGetCluster r => Sys2Proof.Machine.execLeavenGetCluster r s
  | .leavenSetEvents r => Sys2Proof.Machine.execLeavenSetEvents r s
  | .leavenGetCore r => Sys2Proof.Machine.execLeavenGetCore r s
  | .fixGetCounters r => Sys2Proof.Machine.execFixGetCounters r s
  | .proofSetClass r => Sys2Proof.Machine.execProofSetClass r s
  | .proofSetTarget r => Sys2Proof.Machine.execProofSetTarget r s
  | .proofSetState r => Sys2Proof.Machine.execProofSetState r s
  | .proofGetTarget r => Sys2Proof.Machine.execProofGetTarget r s
  | .shelfSet r => Sys2Proof.Machine.execShelfSet r s
  | .shelfGet r => Sys2Proof.Machine.execShelfGet r s
  | .shelfSetBus r => Sys2Proof.Machine.execShelfSetBus r s
  | .proofGetCounters r => Sys2Proof.Machine.execProofGetCounters r s
  | .devGetInfo r => Sys2Proof.Machine.execDevGetInfo r s
  | .devGetResult r => Sys2Proof.Machine.execDevGetResult r s
  | .devEcho r => Sys2Proof.Machine.execDevEcho r s
  | .devRestart r => Sys2Proof.Machine.execDevRestart r s
  | .devGetCounters r => Sys2Proof.Machine.execDevGetCounters r s
  | .bakeOpen r => Sys2Proof.Machine.execBakeOpen r s
  | .bakeCheck r => Sys2Proof.Machine.execBakeCheck r s
  | .bakeCommit r => Sys2Proof.Machine.execBakeCommit r s
  | .bakeAbort r => Sys2Proof.Machine.execBakeAbort r s
  | .bakeGetSet r => Sys2Proof.Machine.execBakeGetSet r s
  | .domSetPort r => Sys2Proof.Machine.execDomSetPort r s
  | .domAdmit r => Sys2Proof.Machine.execDomAdmit r s
  | .domGetStatus r => Sys2Proof.Machine.execDomGetStatus r s
  | .domForward r => Sys2Proof.Machine.execDomForward r s
  | .domBake r => Sys2Proof.Machine.execDomBake r s
  | .domAbort r => Sys2Proof.Machine.execDomAbort r s
  | .domLeave r => Sys2Proof.Machine.execDomLeave r s
  | .idGetInfo r => Sys2Proof.Machine.execIdGetInfo r s
  | .idGetCert r => Sys2Proof.Machine.execIdGetCert r s
  | .idGetMeasurements r => Sys2Proof.Machine.execIdGetMeasurements r s
  | .idWriteImage r => Sys2Proof.Machine.execIdWriteImage r s
  | .idVerifyImage r => Sys2Proof.Machine.execIdVerifyImage r s
  | .idSetBoot r => Sys2Proof.Machine.execIdSetBoot r s
  | .idCommitSvn r => Sys2Proof.Machine.execIdCommitSvn r s
  | .idPinManager r => Sys2Proof.Machine.execIdPinManager r s
  | .telSetMirror r => Sys2Proof.Machine.execTelSetMirror r s
  | .telSetPortMirror r => Sys2Proof.Machine.execTelSetPortMirror r s
  | .telGetMirror r => Sys2Proof.Machine.execTelGetMirror r s
  | .telGetDrops r => Sys2Proof.Machine.execTelGetDrops r s
  | .telGetCounters r => Sys2Proof.Machine.execTelGetCounters r s
  | .pwrGetStatus r => Sys2Proof.Machine.execPwrGetStatus r s
  | .pwrSetDroop r => Sys2Proof.Machine.execPwrSetDroop r s
  | .pwrSetThermal r => Sys2Proof.Machine.execPwrSetThermal r s
  | .pwrSliceReset r => Sys2Proof.Machine.execPwrSliceReset r s
  | .pwrSlicePark r => Sys2Proof.Machine.execPwrSlicePark r s
  | .pwrRestore r => Sys2Proof.Machine.execPwrRestore r s
  | .pwrGetCounters r => Sys2Proof.Machine.execPwrGetCounters r s
  | .mbxDoorbell box ind => Sys2Proof.Machine.execMbxDoorbell box ind s
  | .mbxRelease box => Sys2Proof.Machine.execMbxRelease box s
  | .mbxAreaWrite box off bytes => Sys2Proof.Machine.execMbxAreaWrite box off bytes s
  | .timeCapture fn => Sys2Proof.Machine.execTimeCapture fn s
  | .txtsPop fn slice => Sys2Proof.Machine.execTxtsPop fn slice s
  | .dmaStart fn ch w => Sys2Proof.Machine.execDmaStart fn ch w s
  | .dmaStop fn ch w => Sys2Proof.Machine.execDmaStop fn ch w s
  | .dmaAbort fn ch w => Sys2Proof.Machine.execDmaAbort fn ch w s
  | .dmaDoorbell fn ch w => Sys2Proof.Machine.execDmaDoorbell fn ch w s
  | .descriptorFetched ch bytes => Sys2Proof.Machine.execDescriptorFetched ch bytes s
  | .staleDescReread ch bytes => Sys2Proof.Machine.execStaleDescReread ch bytes s
  | .dmaTransferDone ch err data => Sys2Proof.Machine.execDmaTransferDone ch err data s
  | .strictFlushDone ch => Sys2Proof.Machine.execStrictFlushDone ch s
  | .tailRefetched ch bytes => Sys2Proof.Machine.execTailRefetched ch bytes s
  | .intPendingClear fn k w same => Sys2Proof.Machine.execIntPendingClear fn k w same s
  | .intMapWrite fn n w => Sys2Proof.Machine.execIntMapWrite fn n w s
  | .msixUnmask fn vec => Sys2Proof.Machine.execMsixUnmask fn vec s
  | .reservedWrite fn off size => Sys2Proof.Machine.execReservedWrite fn off size s
  | .badSizeAccess fn off size write => Sys2Proof.Machine.execBadSizeAccess fn off size write s
  | .registerWrite fn off size w => Sys2Proof.Machine.execRegisterWrite fn off size w s
  | .sweepSnap fn w => Sys2Proof.Machine.execSweepSnap fn w s
  | .sweepRingReset fn loupe w => Sys2Proof.Machine.execSweepRingReset fn loupe w s
  | .sweepHeadWrite fn loupe w => Sys2Proof.Machine.execSweepHeadWrite fn loupe w s
  | .evtRingReset fn w => Sys2Proof.Machine.execEvtRingReset fn w s
  | .evtEnableWrite fn w => Sys2Proof.Machine.execEvtEnableWrite fn w s
  | .evtHeadWrite fn w => Sys2Proof.Machine.execEvtHeadWrite fn w s
  | .porstNLow => Sys2Proof.Machine.execPorstNLow s
  | .porstNRise role => Sys2Proof.Machine.execPorstNRise role s
  | .wrstNLow => Sys2Proof.Machine.execWrstNLow s
  | .wrstNRise => Sys2Proof.Machine.execWrstNRise s
  | .moarasBootDone => Sys2Proof.Machine.execMoarasBootDone s
  | .supplyFault => Sys2Proof.Machine.execSupplyFault s
  | .pcieFunctionReset fn kind => Sys2Proof.Machine.execPcieFunctionReset fn kind s
  | .hostLinkLoss fn => Sys2Proof.Machine.execHostLinkLoss fn s
  | .d3hotEntry fn => Sys2Proof.Machine.execD3hotEntry fn s
  | .droopTrip slice => Sys2Proof.Machine.execDroopTrip slice s
  | .stretchHoldEnd slice recovered => Sys2Proof.Machine.execStretchHoldEnd slice recovered s
  | .thermalSample readings => Sys2Proof.Machine.execThermalSample readings s
  | .thermalClearTimer trip => Sys2Proof.Machine.execThermalClearTimer trip s
  | .lifeHourTick avg => Sys2Proof.Machine.execLifeHourTick avg s
  | .hbmCorrectableError stack pc row => Sys2Proof.Machine.execHbmCorrectableError stack pc row s
  | .hbmUncorrectableRead stack pc region item => Sys2Proof.Machine.execHbmUncorrectableRead stack pc region item s
  | .hbmPcSpareDone stack => Sys2Proof.Machine.execHbmPcSpareDone stack s
  | .ppsInEdge => Sys2Proof.Machine.execPpsInEdge s
  | .ppsInTimeout => Sys2Proof.Machine.execPpsInTimeout s
  | .ppsOutEdge => Sys2Proof.Machine.execPpsOutEdge s
  | .frameIngress port bytes full => Sys2Proof.Machine.execFrameIngress port bytes full s
  | .frameTailReceived pkt fcsOk => Sys2Proof.Machine.execFrameTailReceived pkt fcsOk s
  | .recirculationPass slice => Sys2Proof.Machine.execRecirculationPass slice s
  | .mirrorQueueAdmit slice => Sys2Proof.Machine.execMirrorQueueAdmit slice s
  | .pauseFrameReceived port bytes fcsOk => Sys2Proof.Machine.execPauseFrameReceived port bytes fcsOk s
  | .pfcFrameReceived port bytes fcsOk => Sys2Proof.Machine.execPfcFrameReceived port bytes fcsOk s
  | .pauseExpiry port tc => Sys2Proof.Machine.execPauseExpiry port tc s
  | .pfcWatchdogExpiry port tc => Sys2Proof.Machine.execPfcWatchdogExpiry port tc s
  | .pfcStormEndTimer port tc => Sys2Proof.Machine.execPfcStormEndTimer port tc s
  | .pfcRefreshTimer port => Sys2Proof.Machine.execPfcRefreshTimer port s
  | .linkDown port => Sys2Proof.Machine.execLinkDown port s
  | .linkUp port => Sys2Proof.Machine.execLinkUp port s
  | .ltCapReceived port bytes fcsOk => Sys2Proof.Machine.execLtCapReceived port bytes fcsOk s
  | .ltReqReceived port bytes fcsOk => Sys2Proof.Machine.execLtReqReceived port bytes fcsOk s
  | .ltAckReceived port bytes fcsOk => Sys2Proof.Machine.execLtAckReceived port bytes fcsOk s
  | .ltNakReceived port bytes fcsOk => Sys2Proof.Machine.execLtNakReceived port bytes fcsOk s
  | .ltSwitchReceived port bytes fcsOk => Sys2Proof.Machine.execLtSwitchReceived port bytes fcsOk s
  | .ltCapTick port => Sys2Proof.Machine.execLtCapTick port s
  | .ltCapTimeout port => Sys2Proof.Machine.execLtCapTimeout port s
  | .ltUtilWindow port txBytes rxBytes => Sys2Proof.Machine.execLtUtilWindow port txBytes rxBytes s
  | .ltReqTimeout port => Sys2Proof.Machine.execLtReqTimeout port s
  | .ltSwitchTimeout port aligned => Sys2Proof.Machine.execLtSwitchTimeout port aligned s
  | .lpiIdleTimer port => Sys2Proof.Machine.execLpiIdleTimer port s
  | .marginSample lane height width => Sys2Proof.Machine.execMarginSample lane height width s
  | .datapathFailure lane => Sys2Proof.Machine.execDatapathFailure lane s
  | .voqRequest slice voq => Sys2Proof.Machine.execVoqRequest slice voq s
  | .grantDecision port => Sys2Proof.Machine.execGrantDecision port s
  | .grantReceived slice voq => Sys2Proof.Machine.execGrantReceived slice voq s
  | .standingCreditTimeout slice voq => Sys2Proof.Machine.execStandingCreditTimeout slice voq s
  | .creditRecall slice voq => Sys2Proof.Machine.execCreditRecall slice voq s
  | .creditReturnReceived slice voq => Sys2Proof.Machine.execCreditReturnReceived slice voq s
  | .cellSend slice => Sys2Proof.Machine.execCellSend slice s
  | .cellArrived link crcOk => Sys2Proof.Machine.execCellArrived link crcOk s
  | .linkNakReceived link => Sys2Proof.Machine.execLinkNakReceived link s
  | .linkAckTimeout link => Sys2Proof.Machine.execLinkAckTimeout link s
  | .gapTimeout src dst => Sys2Proof.Machine.execGapTimeout src dst s
  | .releaseCreditReceived src dst => Sys2Proof.Machine.execReleaseCreditReceived src dst s
  | .planeFault plane cause => Sys2Proof.Machine.execPlaneFault plane cause s
  | .planeSwitchoverDone => Sys2Proof.Machine.execPlaneSwitchoverDone s
  | .standbyTestLoss plane => Sys2Proof.Machine.execStandbyTestLoss plane s
  | .planeResyncDone plane pass => Sys2Proof.Machine.execPlaneResyncDone plane pass s
  | .transmitDecision port => Sys2Proof.Machine.execTransmitDecision port s
  | .frameTxComplete port => Sys2Proof.Machine.execFrameTxComplete port s
  | .shaperRefill node => Sys2Proof.Machine.execShaperRefill node s
  | .policerRefill pol => Sys2Proof.Machine.execPolicerRefill pol s
  | .wredAverageUpdate queue => Sys2Proof.Machine.execWredAverageUpdate queue s
  | .loupeSample slice => Sys2Proof.Machine.execLoupeSample slice s
  | .spillReadback slice voq => Sys2Proof.Machine.execSpillReadback slice voq s
  | .gateEvent port => Sys2Proof.Machine.execGateEvent port s
  | .tsFifoRelay slice => Sys2Proof.Machine.execTsFifoRelay slice s
  | .ptpMessageProcess port bytes => Sys2Proof.Machine.execPtpMessageProcess port bytes s
  | .ptpAnnounceTimeout => Sys2Proof.Machine.execPtpAnnounceTimeout s
  | .learnInsert slice => Sys2Proof.Machine.execLearnInsert slice s
  | .agingVisit place => Sys2Proof.Machine.execAgingVisit place s
  | .scrubRead table idx bad => Sys2Proof.Machine.execScrubRead table idx bad s
  | .parityRestore table idx => Sys2Proof.Machine.execParityRestore table idx s
  | .tableNormalise => Sys2Proof.Machine.execTableNormalise s
  | .frerResetTimer stream => Sys2Proof.Machine.execFrerResetTimer stream s
  | .frerLatentTest stream => Sys2Proof.Machine.execFrerLatentTest stream s
  | .frerLatentReset stream => Sys2Proof.Machine.execFrerLatentReset stream s
  | .coreFailure cluster core => Sys2Proof.Machine.execCoreFailure cluster core s
  | .coreWatchdogExpiry cluster core => Sys2Proof.Machine.execCoreWatchdogExpiry cluster core s
  | .coreSubstitution cluster bankBad => Sys2Proof.Machine.execCoreSubstitution cluster bankBad s
  | .spareSelftestDone cluster core pass => Sys2Proof.Machine.execSpareSelftestDone cluster core pass s
  | .mpHeartbeatTick beatA beatB digestOk => Sys2Proof.Machine.execMpHeartbeatTick beatA beatB digestOk s
  | .mpFault cause => Sys2Proof.Machine.execMpFault cause s
  | .mpFailoverDone => Sys2Proof.Machine.execMpFailoverDone s
  | .mpRestartDone mp pass => Sys2Proof.Machine.execMpRestartDone mp pass s
  | .skipNoticeArrival cluster => Sys2Proof.Machine.execSkipNoticeArrival cluster s
  | .fixWorkItemDone cluster core => Sys2Proof.Machine.execFixWorkItemDone cluster core s
  | .fixLogWriteTimeout cluster pos => Sys2Proof.Machine.execFixLogWriteTimeout cluster pos s
  | .batchTimer cluster => Sys2Proof.Machine.execBatchTimer cluster s
  | .batchClose cluster => Sys2Proof.Machine.execBatchClose cluster s
  | .receiptSigned cluster => Sys2Proof.Machine.execReceiptSigned cluster s
  | .holdTimerExpiry target => Sys2Proof.Machine.execHoldTimerExpiry target s
  | .idleSpindownTimer target => Sys2Proof.Machine.execIdleSpindownTimer target s
  | .parkDrainRelease target => Sys2Proof.Machine.execParkDrainRelease target s
  | .pollCycleStart bus => Sys2Proof.Machine.execPollCycleStart bus s
  | .pollSlot bus => Sys2Proof.Machine.execPollSlot bus s
  | .shelfStatusReceived bus payload => Sys2Proof.Machine.execShelfStatusReceived bus payload s
  | .shelfAckReceived bus payload => Sys2Proof.Machine.execShelfAckReceived bus payload s
  | .shelfIdentReceived bus payload => Sys2Proof.Machine.execShelfIdentReceived bus payload s
  | .shelfReplyTimeout bus => Sys2Proof.Machine.execShelfReplyTimeout bus s
  | .hpfPointerMismatch fifo => Sys2Proof.Machine.execHpfPointerMismatch fifo s
  | .hpfPacketCommit fifo => Sys2Proof.Machine.execHpfPacketCommit fifo s
  | .poolAlloc size block => Sys2Proof.Machine.execPoolAlloc size block s
  | .poolFree ptr block => Sys2Proof.Machine.execPoolFree ptr block s
  | .sweepInstant => Sys2Proof.Machine.execSweepInstant s
  | .sweepDumpWritten => Sys2Proof.Machine.execSweepDumpWritten s
  | .bakeDrainTimeout => Sys2Proof.Machine.execBakeDrainTimeout s
  | .bakePrepareDone => Sys2Proof.Machine.execBakePrepareDone s
  | .bakeInstant => Sys2Proof.Machine.execBakeInstant s
  | .heartbeatTick => Sys2Proof.Machine.execHeartbeatTick s
  | .managerLossTimeout => Sys2Proof.Machine.execManagerLossTimeout s
  | .heartbeat m => Sys2Proof.Machine.execHeartbeat m s
  | .heartbeatAck m => Sys2Proof.Machine.execHeartbeatAck m s
  | .received m => Sys2Proof.Machine.execReceived m s
  | .domainResendTimeout peer id => Sys2Proof.Machine.execDomainResendTimeout peer id s
  | .forwardReq m => Sys2Proof.Machine.execForwardReq m s
  | .forwardRsp m => Sys2Proof.Machine.execForwardRsp m s
  | .prepare m => Sys2Proof.Machine.execPrepare m s
  | .vote m => Sys2Proof.Machine.execVote m s
  | .commit m => Sys2Proof.Machine.execCommit m s
  | .ack m => Sys2Proof.Machine.execAck m s
  | .go m => Sys2Proof.Machine.execGo m s
  | .abort m => Sys2Proof.Machine.execAbort m s
  | .outcomeQuery m => Sys2Proof.Machine.execOutcomeQuery m s
  | .outcome m => Sys2Proof.Machine.execOutcome m s
  | .outcomeQueryTimer => Sys2Proof.Machine.execOutcomeQueryTimer s
  | .voteDeadline => Sys2Proof.Machine.execVoteDeadline s
  | .ackDeadline => Sys2Proof.Machine.execAckDeadline s
  | .enrol m idx hash x => Sys2Proof.Machine.execEnrol m idx hash x s
  | .enrolTick => Sys2Proof.Machine.execEnrolTick s
  | .keyUpdateTimer peer => Sys2Proof.Machine.execKeyUpdateTimer peer s
  | .spdmRequest transport m => Sys2Proof.Machine.execSpdmRequest transport m s
  | .moarasWatchdog cause => Sys2Proof.Machine.execMoarasWatchdog cause s
  | .moarasRestartDone => Sys2Proof.Machine.execMoarasRestartDone s
  | .sliceFault slice => Sys2Proof.Machine.execSliceFault slice s
  | .sliceRestoreDone slice => Sys2Proof.Machine.execSliceRestoreDone slice s
  | .ltReceiversLocked port => Sys2Proof.Machine.execLtReceiversLocked port s
  | .ltAlignmentLost port => Sys2Proof.Machine.execLtAlignmentLost port s
  | .spareDatapathFailed group => Sys2Proof.Machine.execSpareDatapathFailed group s
  | .shelfReplyDiscarded bus badCrc => Sys2Proof.Machine.execShelfReplyDiscarded bus badCrc s
  | .dmaReadError ch => Sys2Proof.Machine.execDmaReadError ch s
  | .pcieLinkUp fn speed width flit => Sys2Proof.Machine.execPcieLinkUp fn speed width flit s
  | .suppliesValid => Sys2Proof.Machine.execSuppliesValid s
  | .timeSlewComplete => Sys2Proof.Machine.execTimeSlewComplete s
  | .ppsOutFall => Sys2Proof.Machine.execPpsOutFall s
  | .ptpIntervalTick => Sys2Proof.Machine.execPtpIntervalTick s
  | .lpiWakeComplete port => Sys2Proof.Machine.execLpiWakeComplete port s

end Sys2Proof.Machine
end

