-- ==== Sys2Proof/Safety.lean ====
section
/-! DEFINITION. What a safe run is (no step of it faults or is refused), and what a good state is: the memories are in
their canonical form and the counts the spec bounds are inside their bounds. -/

namespace Sys2Proof.Machine

/-- The step at `s` answers a next state. -/
def Runs (s : State) : Prop := ∃ t, step s = .next t

/-- The nanoseconds field of a time of day is below 10^9 and the fraction has 48 bits (R214). -/
def TimeBase.ok (t : TimeBase) : Prop := t.sec < 2 ^ 48 ∧ t.ns < 1000000000 ∧ t.frac < 2 ^ 48

/-- The canonical form of an image slot: offsets rising, no byte listed that equals what an unlisted one reads as (R441). -/
def Slot.wf (t : Slot) : Bool := Tab.sorted t.bytes && t.bytes.all (fun e => decide (e.2 ≠ t.base e.1))

/-- Every memory whose bytes the state lists is in canonical form: the request area of each mailbox (R381), the staging region and the
message pool buffers (R354, R395), the two image slots and the two copies of the boot configuration (R441). -/
def Memory.wf (s : State) : Bool :=
  s.mbx.boxes.all (fun e => Tab.wf (0 : Byte) e.2.req) && Tab.wf (0 : Byte) s.host.staging && Tab.wf (0 : Byte) s.host.poolMem
    && s.ident.slotA.wf && s.ident.slotB.wf && Tab.wf (0xFF : Byte) s.ident.cfg0 && Tab.wf (0xFF : Byte) s.ident.cfg1

/-- The tag history of each function holds at most 4,096 commands (R391). -/
def State.histOk (s : State) : Prop := s.mbx.hist0.length ≤ 4096 ∧ s.mbx.hist1.length ≤ 4096

/-- The SPDM sessions stay within their limits: two over each DOE, one over SMBus (R448). -/
def State.sessionsOk (s : State) : Prop :=
  s.ident.doe0.length ≤ 2 ∧ s.ident.doe1.length ≤ 2 ∧ s.ident.smb.length ≤ 1

/-- The events held on chip take at most 1,024 entries (R470). -/
def State.heldOk (s : State) : Prop := (s.evt.held.map EvEntry.entries).sum ≤ 1024

/-- A good state. -/
structure State.Good (s : State) : Prop where
  time : s.time.ok
  mem : Memory.wf s = true
  hist : s.histOk
  sessions : s.sessionsOk
  held : s.heldOk

/-! ### A request that is taken and answered -/

/-- The host rings the doorbell of a mailbox that is not submitted, of a function in D0 (R343), Moaras is ready and in no failover
(R266), the request passes every check of R390, and no queued command must take effect before it (R394): the command runs now. -/
def State.fresh (s : State) (op : Nat) (r : Req) : Prop :=
  r.box < 32 ∧ (s.host.link (s.boxFn r.box)).d3 = false ∧ s.job? op r false = none ∧ (s.box r.box).state ≠ .submitted
    ∧ s.mbx.ready = true ∧ s.verdict op r = .accept ∧ s.pwr.failing = none ∧ s.mbx.jobs.any (fun j => j.precedes op r) = false

/-- The state in which the body of a fresh request runs: the request is queued. -/
def State.begun (s : State) (op : Nat) (r : Req) : State := (s.submit op r).1

/-- The response `x` has been delivered for the request (R383, R391, R393): in the mailbox, its header followed by the payload
of a request without INDIRECT; of an ASYNC request it stands newest in the tag history. -/
def State.delivered (t : State) (op : Nat) (r : Req) (x : Resp) : Prop :=
  (r.async = false → (t.box r.box).state = .responseReady
    ∧ (t.box r.box).resp = respHeader r.tag x t.bake.epoch ++ (if r.indirect then [] else x.payload))
  ∧ (r.async = true → op ≠ 0x0101 → op ≠ 0x0102 →
    (t.mbx.hist (t.boxFn r.box)).head? = some (histEntry op r x t.bake.epoch))

/-- The message pools and the counters of the buffers, which an INDIRECT payload moves, left out. -/
def BufSt.settings (b : BufSt) : BufSt :=
  { b with pool0 := BufSt.init.pool0, pool1 := BufSt.init.pool1, pool2 := BufSt.init.pool2, pool3 := BufSt.init.pool3, ctr := [] }

/-- The counters of mailboxes and events left out. -/
def TelSt.rest (w : TelSt) : TelSt := { w with mbxCtr := [], ctr := [] }

/-- `t` differs from `s` only in what taking a command and answering it touches: mailboxes, jobs, commands held in a failover
gap, tag history, message pools, interrupts, the event log, the counters of each, and what has been sent to the outside. -/
structure MailOnly (s t : State) : Prop where
  time : t.time = s.time
  up : t.up = s.up
  ptp : t.ptp = s.ptp
  tsFifos : t.tsFifos = s.tsFifos
  gates : t.gates = s.gates
  lanes : t.lanes = s.lanes
  groups : t.groups = s.groups
  ports : t.ports = s.ports
  prism : t.prism = s.prism
  fwd : t.fwd = s.fwd
  buf : t.buf.settings = s.buf.settings
  pkts : t.pkts = s.pkts
  nextPkt : t.nextPkt = s.nextPkt
  fab : t.fab = s.fab
  sched : t.sched = s.sched
  frer : t.frer = s.frer
  leaven : t.leaven = s.leaven
  proof : t.proof = s.proof
  swp : t.swp = s.swp
  tel : t.tel.rest = s.tel.rest
  bake : t.bake = s.bake
  ident : t.ident = s.ident
  pwr : t.pwr = s.pwr
  free : t.free = s.free
  pending : t.pending = s.pending
  mapVec : t.host.mapVec = s.host.mapVec
  mapEn : t.host.mapEn = s.host.mapEn
  msix : t.host.msix = s.host.msix
  chans : t.host.chans = s.host.chans
  fifos : t.host.fifos = s.host.fifos
  waitFetch : t.host.waitFetch = s.host.waitFetch
  staging : t.host.staging = s.host.staging
  ready : t.mbx.ready = s.mbx.ready
  boots : t.mbx.boots = s.mbx.boots
  restarts : t.mbx.restarts = s.mbx.restarts
  restarting : t.mbx.restarting = s.mbx.restarting
  readyUp : t.mbx.readyUp = s.mbx.readyUp
  lostAsync : t.mbx.lostAsync = s.mbx.lostAsync
  heldEvents : t.mbx.heldEvents = s.mbx.heldEvents

end Sys2Proof.Machine
end

