-- ==== Sys2Proof/WellFormed.lean ====
section
/-! DEFINITION. Commands whose operands lie in the ranges the spec gives them. -/

namespace Sys2Proof

/-- A request as a mailbox can hold it: mailbox 0 to 31, u32 fields, and a payload of the length its header says (R385). -/
def Req.wf (r : Req) : Bool :=
  decide (r.box < 32) && decide (r.tag < 2 ^ 32) && decide (r.setId < 2 ^ 32) && decide (r.len < 2 ^ 32)
    && decide (r.cap < 2 ^ 32) && (!r.readOk || r.payload.length == r.len)

/-- A domain message on a network port, with the fields of its header (R423). -/
def DomIn.wf (m : DomIn) : Bool :=
  decide (m.port < 512) && decide (m.dst < 2 ^ 48) && decide (m.mac < 2 ^ 48) && decide (m.sender < 256)
    && decide (m.receiver < 256) && decide (m.keyEpoch < 256) && decide (m.id < 65536)

/-- A scheduler node: port 0 to 515, service node 1,024 + 8 p + c, tenant node 8,192 + 64 p + 8 c + t (R185). -/
def nodeNumber (k : Nat) : Bool :=
  decide (k < 516) || (decide (1024 ≤ k) && decide (k < 5120)) || (decide (8192 ≤ k) && decide (k < 40960))

/-- An egress queue: 64 p + 8 c + t, and host queues with tenant slot 0 (R131). -/
def queueNumber (q : Nat) : Bool := decide (q < 32768) || (decide (q < 35072) && q % 8 == 0)

/-- Entries of a forwarding table that the scrubber reads (R127). -/
def tableSize (table : Nat) : Nat := [2098176, 4096, 64, 64, 131072, 65536, 4096, 786432].getD table 0

/-- The operands name units the device has. -/
def Instr.wf : Instr → Bool
  | .memGetMap r => r.wf
  | .memSetRegions r => r.wf
  | .memGetHealth r => r.wf
  | .portSetMode r => r.wf
  | .portGetStatus r => r.wf
  | .portSetMac r => r.wf
  | .portSetFlow r => r.wf
  | .portSetThrottle r => r.wf
  | .portSetEee r => r.wf
  | .portSetLaneMap r => r.wf
  | .portGetMargin r => r.wf
  | .portGetCounters r => r.wf
  | .portSetAdmin r => r.wf
  | .portSetMargin r => r.wf
  | .prismSetProfile r => r.wf
  | .prismSetSelect r => r.wf
  | .prismSetPort r => r.wf
  | .prismWriteRule r => r.wf
  | .prismReadRule r => r.wf
  | .prismGetCounters r => r.wf
  | .prismGetRuleCounters r => r.wf
  | .prismGetEpoch r => r.wf
  | .fwdInsert r => r.wf
  | .fwdDelete r => r.wf
  | .fwdLookup r => r.wf
  | .fwdSetVlan r => r.wf
  | .fwdSetRoute r => r.wf
  | .fwdSetNexthop r => r.wf
  | .fwdSetEcmp r => r.wf
  | .fwdSetTemplate r => r.wf
  | .fwdSetRouter r => r.wf
  | .fwdSetLearn r => r.wf
  | .fwdSetAging r => r.wf
  | .fwdFlush r => r.wf
  | .fwdGetCounters r => r.wf
  | .fwdGetOccupancy r => r.wf
  | .bufSetClass r => r.wf
  | .bufSetPortClass r => r.wf
  | .bufSetHeadroom r => r.wf
  | .bufSetPfcTx r => r.wf
  | .bufSetWredProfile r => r.wf
  | .bufSetQueue r => r.wf
  | .bufGetStatus r => r.wf
  | .bufGetPort r => r.wf
  | .bufGetCounters r => r.wf
  | .bufGetPools r => r.wf
  | .fabSetParams r => r.wf
  | .fabSetPort r => r.wf
  | .fabGetStatus r => r.wf
  | .fabGetPair r => r.wf
  | .fabSetPlane r => r.wf
  | .fabGetCounters r => r.wf
  | .schedSetNode r => r.wf
  | .schedGetNode r => r.wf
  | .polSet r => r.wf
  | .polGet r => r.wf
  | .polSetPort r => r.wf
  | .loupeSetProfile r => r.wf
  | .loupeSetQueue r => r.wf
  | .loupeGet r => r.wf
  | .schedGetCounters r => r.wf
  | .timeGet r => r.wf
  | .timeAdjust r => r.wf
  | .timeSetPtp r => r.wf
  | .timeSetPort r => r.wf
  | .timeSetPps r => r.wf
  | .gateSetList r => r.wf
  | .gateGetStatus r => r.wf
  | .timeGetCounters r => r.wf
  | .frerSetStream r => r.wf
  | .frerGetStream r => r.wf
  | .frerSetPort r => r.wf
  | .frerResetStream r => r.wf
  | .redGetHealth r => r.wf
  | .redSwitchover r => r.wf
  | .redResync r => r.wf
  | .redGetCounters r => r.wf
  | .fixSetCluster r => r.wf
  | .fixGetFlow r => r.wf
  | .fixGetLog r => r.wf
  | .fixRelease r => r.wf
  | .fixFlush r => r.wf
  | .fixGetReceipt r => r.wf
  | .leavenGetCluster r => r.wf
  | .leavenSetEvents r => r.wf
  | .leavenGetCore r => r.wf
  | .fixGetCounters r => r.wf
  | .proofSetClass r => r.wf
  | .proofSetTarget r => r.wf
  | .proofSetState r => r.wf
  | .proofGetTarget r => r.wf
  | .shelfSet r => r.wf
  | .shelfGet r => r.wf
  | .shelfSetBus r => r.wf
  | .proofGetCounters r => r.wf
  | .devGetInfo r => r.wf
  | .devGetResult r => r.wf
  | .devEcho r => r.wf
  | .devRestart r => r.wf
  | .devGetCounters r => r.wf
  | .bakeOpen r => r.wf
  | .bakeCheck r => r.wf
  | .bakeCommit r => r.wf
  | .bakeAbort r => r.wf
  | .bakeGetSet r => r.wf
  | .domSetPort r => r.wf
  | .domAdmit r => r.wf
  | .domGetStatus r => r.wf
  | .domForward r => r.wf
  | .domBake r => r.wf
  | .domAbort r => r.wf
  | .domLeave r => r.wf
  | .idGetInfo r => r.wf
  | .idGetCert r => r.wf
  | .idGetMeasurements r => r.wf
  | .idWriteImage r => r.wf
  | .idVerifyImage r => r.wf
  | .idSetBoot r => r.wf
  | .idCommitSvn r => r.wf
  | .idPinManager r => r.wf
  | .telSetMirror r => r.wf
  | .telSetPortMirror r => r.wf
  | .telGetMirror r => r.wf
  | .telGetDrops r => r.wf
  | .telGetCounters r => r.wf
  | .pwrGetStatus r => r.wf
  | .pwrSetDroop r => r.wf
  | .pwrSetThermal r => r.wf
  | .pwrSliceReset r => r.wf
  | .pwrSlicePark r => r.wf
  | .pwrRestore r => r.wf
  | .pwrGetCounters r => r.wf
  | .mbxDoorbell box _ => decide (box < 32)
  | .mbxRelease box => decide (box < 32)
  | .mbxAreaWrite box off _ => decide (box < 32) && decide (off < 8192)
  | .timeCapture fn => decide (fn < 2)
  | .txtsPop fn slice => decide (fn < 2) && decide (slice < 16)
  | .dmaStart fn ch _ => decide (fn < 2) && decide (ch < 128)
  | .dmaStop fn ch _ => decide (fn < 2) && decide (ch < 128)
  | .dmaAbort fn ch _ => decide (fn < 2) && decide (ch < 128)
  | .dmaDoorbell fn ch _ => decide (fn < 2) && decide (ch < 128)
  | .descriptorFetched ch _ => decide (ch < 128)
  | .staleDescReread ch _ => decide (ch < 128)
  | .dmaTransferDone ch _ _ => decide (ch < 128)
  | .strictFlushDone ch => decide (ch < 128)
  | .tailRefetched ch _ => decide (ch < 128)
  | .intPendingClear fn k _ _ => decide (fn < 2) && decide (k < 4)
  | .intMapWrite fn n _ => decide (fn < 2) && decide (n < 256)
  | .msixUnmask fn vec => decide (fn < 2) && decide (vec < 2048)
  | .reservedWrite fn off _ => decide (fn < 2) && decide (off < 1048576)
  | .badSizeAccess fn off _ _ => decide (fn < 2) && decide (off < 1048576)
  | .registerWrite fn off _ _ => decide (fn < 2) && decide (off < 1048576)
  | .sweepSnap fn _ => decide (fn < 2)
  | .sweepRingReset fn _ _ => decide (fn < 2)
  | .sweepHeadWrite fn _ _ => decide (fn < 2)
  | .evtRingReset fn _ => decide (fn < 2)
  | .evtEnableWrite fn _ => decide (fn < 2)
  | .evtHeadWrite fn _ => decide (fn < 2)
  | .porstNLow => true
  | .porstNRise role => decide (role < 4)
  | .wrstNLow => true
  | .wrstNRise => true
  | .moarasBootDone => true
  | .supplyFault => true
  | .pcieFunctionReset fn kind => decide (fn < 2) && decide (kind < 3)
  | .hostLinkLoss fn => decide (fn < 2)
  | .d3hotEntry fn => decide (fn < 2)
  | .droopTrip slice => decide (slice < 16)
  | .stretchHoldEnd slice _ => decide (slice < 16)
  | .thermalSample _ => true
  | .thermalClearTimer _ => true
  | .lifeHourTick _ => true
  | .hbmCorrectableError stack pc row => decide (stack < 4) && decide (pc < 32) && decide (row < 65536)
  | .hbmUncorrectableRead stack pc region _ => decide (stack < 4) && decide (pc < 32) && decide (region < 6)
  | .hbmPcSpareDone stack => decide (stack < 4)
  | .ppsInEdge => true
  | .ppsInTimeout => true
  | .ppsOutEdge => true
  | .frameIngress port _ _ => decide (port < 512)
  | .frameTailReceived _ _ => true
  | .recirculationPass slice => decide (slice < 16)
  | .mirrorQueueAdmit slice => decide (slice < 16)
  | .pauseFrameReceived port _ _ => decide (port < 512)
  | .pfcFrameReceived port _ _ => decide (port < 512)
  | .pauseExpiry port tc => decide (port < 512) && decide (tc < 8)
  | .pfcWatchdogExpiry port tc => decide (port < 512) && decide (tc < 8)
  | .pfcStormEndTimer port tc => decide (port < 512) && decide (tc < 8)
  | .pfcRefreshTimer port => decide (port < 512)
  | .linkDown port => decide (port < 512)
  | .linkUp port => decide (port < 512)
  | .ltCapReceived port _ _ => decide (port < 512)
  | .ltReqReceived port _ _ => decide (port < 512)
  | .ltAckReceived port _ _ => decide (port < 512)
  | .ltNakReceived port _ _ => decide (port < 512)
  | .ltSwitchReceived port _ _ => decide (port < 512)
  | .ltCapTick port => decide (port < 512)
  | .ltCapTimeout port => decide (port < 512)
  | .ltUtilWindow port _ _ => decide (port < 512)
  | .ltReqTimeout port => decide (port < 512)
  | .ltSwitchTimeout port _ => decide (port < 512)
  | .lpiIdleTimer port => decide (port < 512)
  | .marginSample lane _ _ => decide (lane < 512)
  | .datapathFailure lane => decide (lane < 512)
  | .voqRequest slice voq => decide (slice < 16) && decide (voq < 32800)
  | .grantDecision port => decide (port < 516)
  | .grantReceived slice voq => decide (slice < 16) && decide (voq < 32800)
  | .standingCreditTimeout slice voq => decide (slice < 16) && decide (voq < 32800)
  | .creditRecall slice voq => decide (slice < 16) && decide (voq < 32800)
  | .creditReturnReceived slice voq => decide (slice < 16) && decide (voq < 32800)
  | .cellSend slice => decide (slice < 16)
  | .cellArrived link _ => decide (link < 160)
  | .linkNakReceived link => decide (link < 160)
  | .linkAckTimeout link => decide (link < 160)
  | .gapTimeout src dst => decide (src < 16) && decide (dst < 16)
  | .releaseCreditReceived src dst => decide (src < 16) && decide (dst < 16)
  | .planeFault plane cause => decide (plane < 5) && (cause == 1 || cause == 2)
  | .planeSwitchoverDone => true
  | .standbyTestLoss plane => decide (plane < 5)
  | .planeResyncDone plane _ => decide (plane < 5)
  | .transmitDecision port => decide (port < 516)
  | .frameTxComplete port => decide (port < 516)
  | .shaperRefill node => nodeNumber node
  | .policerRefill pol => decide (pol < 131072)
  | .wredAverageUpdate queue => queueNumber queue
  | .loupeSample slice => decide (slice < 16)
  | .spillReadback slice voq => decide (slice < 16) && decide (voq < 32800)
  | .gateEvent port => decide (port < 512)
  | .tsFifoRelay slice => decide (slice < 16)
  | .ptpMessageProcess port _ => decide (port < 512)
  | .ptpAnnounceTimeout => true
  | .learnInsert slice => decide (slice < 16)
  | .agingVisit place => decide (place < 2098176)
  | .scrubRead table idx _ => decide (idx < tableSize table)
  | .parityRestore table idx => decide (idx < tableSize table)
  | .tableNormalise => true
  | .frerResetTimer stream => decide (stream < 65536)
  | .frerLatentTest stream => decide (stream < 65536)
  | .frerLatentReset stream => decide (stream < 65536)
  | .coreFailure cluster core => decide (cluster < 16) && decide (core < 13)
  | .coreWatchdogExpiry cluster core => decide (cluster < 16) && decide (core < 13)
  | .coreSubstitution cluster _ => decide (cluster < 16)
  | .spareSelftestDone cluster core _ => decide (cluster < 16) && decide (core < 13)
  | .mpHeartbeatTick _ _ _ => true
  | .mpFault cause => decide (cause < 256)
  | .mpFailoverDone => true
  | .mpRestartDone mp _ => decide (mp < 2)
  | .skipNoticeArrival cluster => decide (cluster < 16)
  | .fixWorkItemDone cluster core => decide (cluster < 16) && decide (core < 13)
  | .fixLogWriteTimeout cluster _ => decide (cluster < 16)
  | .batchTimer cluster => decide (cluster < 16)
  | .batchClose cluster => decide (cluster < 16)
  | .receiptSigned cluster => decide (cluster < 16)
  | .holdTimerExpiry target => decide (target < 65536)
  | .idleSpindownTimer target => decide (target < 65536)
  | .parkDrainRelease target => decide (target < 65536)
  | .pollCycleStart bus => decide (bus < 4)
  | .pollSlot bus => decide (bus < 4)
  | .shelfStatusReceived bus _ => decide (bus < 4)
  | .shelfAckReceived bus _ => decide (bus < 4)
  | .shelfIdentReceived bus _ => decide (bus < 4)
  | .shelfReplyTimeout bus => decide (bus < 4)
  | .hpfPointerMismatch fifo => decide (fifo < 8)
  | .hpfPacketCommit fifo => decide (fifo < 8)
  | .poolAlloc _ _ => true
  | .poolFree _ _ => true
  | .sweepInstant => true
  | .sweepDumpWritten => true
  | .bakeDrainTimeout => true
  | .bakePrepareDone => true
  | .bakeInstant => true
  | .heartbeatTick => true
  | .managerLossTimeout => true
  | .heartbeat m => m.wf
  | .heartbeatAck m => m.wf
  | .received m => m.wf
  | .domainResendTimeout peer _ => decide (peer < 64 ∨ peer = 255)
  | .forwardReq m => m.wf
  | .forwardRsp m => m.wf
  | .prepare m => m.wf
  | .vote m => m.wf
  | .commit m => m.wf
  | .ack m => m.wf
  | .go m => m.wf
  | .abort m => m.wf
  | .outcomeQuery m => m.wf
  | .outcome m => m.wf
  | .outcomeQueryTimer => true
  | .voteDeadline => true
  | .ackDeadline => true
  | .enrol m idx _ _ => m.wf && decide (idx < 256)
  | .enrolTick => true
  | .keyUpdateTimer peer => decide (peer < 64)
  | .spdmRequest transport _ => decide (transport < 3)
  | .moarasWatchdog cause => (cause == 1 || cause == 2)
  | .moarasRestartDone => true
  | .sliceFault slice => decide (slice < 16)
  | .sliceRestoreDone slice => decide (slice < 16)
  | .ltReceiversLocked port => decide (port < 512)
  | .ltAlignmentLost port => decide (port < 512)
  | .spareDatapathFailed group => decide (group < 64)
  | .shelfReplyDiscarded bus _ => decide (bus < 4)
  | .dmaReadError ch => decide (ch < 128)
  | .pcieLinkUp fn _ _ _ => decide (fn < 2)
  | .suppliesValid => true
  | .timeSlewComplete => true
  | .ppsOutFall => true
  | .ptpIntervalTick => true
  | .lpiWakeComplete port => decide (port < 512)

end Sys2Proof
end

