-- ==== Sys2Proof/Safety/Claims.lean ====
section
/-! DEFINITION. The shapes of the statements about mailbox commands: a configuration write that is carried out, a read that
is answered, a request that is turned away. -/

namespace Sys2Proof.Machine

/-- A fresh live write of configuration `i` with operands that satisfy `ok` completes with OK, and `post` says what it leaves:
payload, state before, state after. -/
def Carried (op : Nat) (i : Req → Instr) (ok : List Byte → State → Prop) (post : List Byte → State → State → Prop) : Prop :=
  ∀ (r : Req) (s : State), s.fresh op r → r.stage = false → ok r.payload s →
    ∃ t, exec (i r) s = .next t ∧ t.delivered op r (Resp.ok []) ∧ post r.payload s t

/-- A fresh command `i` with operands that satisfy `ok` completes with OK and a payload, and moves nothing but mail. -/
def Answered (op : Nat) (i : Req → Instr) (ok : Req → State → Prop) (answer : Req → State → List Byte) : Prop :=
  ∀ (r : Req) (s : State), s.fresh op r → ok r s →
    ∃ t, exec (i r) s = .next t ∧ t.delivered op r (Resp.ok (answer r s)) ∧ MailOnly s t

/-- A fresh live command `i` with operands that satisfy `bad` completes with a status and a detail, and moves nothing but
mail. -/
def TurnedAway (op : Nat) (i : Req → Instr) (bad : Req → State → Prop) (status detail : Nat) : Prop :=
  ∀ (r : Req) (s : State), s.fresh op r → r.stage = false → bad r s →
    ∃ t, exec (i r) s = .next t ∧ t.delivered op r (Resp.err status detail) ∧ MailOnly s t

/-- A fresh command `i` with operands that satisfy `ok` completes with OK and a payload, and `post` says what it leaves. -/
def Does (op : Nat) (i : Req → Instr) (ok : Req → State → Prop) (answer : Req → State → List Byte)
    (post : Req → State → State → Prop) : Prop :=
  ∀ (r : Req) (s : State), s.fresh op r → ok r s →
    ∃ t, exec (i r) s = .next t ∧ t.delivered op r (Resp.ok (answer r s)) ∧ post r s t

/-- A fresh command `i` with operands that satisfy `ok` starts to run, and is not answered yet: its job stands in the queue,
running, its mailbox stays submitted unless the request is ASYNC, and `post` says what it leaves. -/
def Starts (op : Nat) (i : Req → Instr) (ok : Req → State → Prop) (post : Req → State → State → Prop) : Prop :=
  ∀ (r : Req) (s : State), s.fresh op r → ok r s →
    ∃ t, exec (i r) s = .next t ∧ (∃ j ∈ t.mbx.jobs, j.op = op ∧ j.req = r ∧ j.running = true)
      ∧ (r.async = false → (t.box r.box).state = .submitted) ∧ post r s t

/-- A live write of a table held once per generation (R111, R113): `ok` holds between the copies in force before and after,
and between the other copies too, unless an armed set writes the same item: then the other copy stands. -/
def GenWritten (op : Nat) (p : List Byte) (s t : State) (ok : GenTables → GenTables → Prop) : Prop :=
  ok (s.fwd.tables s.fwd.gen) (t.fwd.tables s.fwd.gen)
  ∧ (if s.bake.writes op p then t.fwd.tables (s.fwd.gen + 1) = s.fwd.tables (s.fwd.gen + 1)
     else ok (s.fwd.tables (s.fwd.gen + 1)) (t.fwd.tables (s.fwd.gen + 1)))

/-- The configuration writes: opcode, command and the checks of a live write (R407). -/
structure ConfigWrite where
  op : Nat
  cmd : Req → Instr
  check : List Byte → State → Option (Nat × Nat)

/-- The writes that answer with no payload (R407), each with its checks: a set may stage them all but LEAVEN_SET_EVENTS
(R305). -/
def configWrites : List ConfigWrite :=
  [⟨0x0201, .portSetMode, livePortSetMode⟩, ⟨0x0203, .portSetMac, livePortSetMac⟩, ⟨0x0204, .portSetFlow, livePortSetFlow⟩,
   ⟨0x0205, .portSetThrottle, checkPortSetThrottle⟩, ⟨0x0206, .portSetEee, checkPortSetEee⟩,
   ⟨0x020A, .portSetAdmin, checkPortSetAdmin⟩, ⟨0x020B, .portSetMargin, checkPortSetMargin⟩]
  ++ [⟨0x0303, .prismSetPort, checkPrismSetPort⟩, ⟨0x0304, .prismWriteRule, checkPrismWriteRule⟩]
  ++ [⟨0x0404, .fwdSetVlan, checkFwdSetVlan⟩, ⟨0x0405, .fwdSetRoute, checkFwdSetRoute⟩,
   ⟨0x0406, .fwdSetNexthop, checkFwdSetNexthop⟩, ⟨0x0407, .fwdSetEcmp, checkFwdSetEcmp⟩,
   ⟨0x0408, .fwdSetTemplate, checkFwdSetTemplate⟩, ⟨0x0409, .fwdSetRouter, checkFwdSetRouter⟩,
   ⟨0x040A, .fwdSetLearn, checkFwdSetLearn⟩, ⟨0x040B, .fwdSetAging, checkFwdSetAging⟩]
  ++ [⟨0x0504, .bufSetPfcTx, liveBufSetPfcTx⟩, ⟨0x0505, .bufSetWredProfile, checkBufSetWredProfile⟩,
   ⟨0x0506, .bufSetQueue, checkBufSetQueue⟩]
  ++ [⟨0x0602, .fabSetPort, checkFabSetPort⟩]
  ++ [⟨0x0701, .schedSetNode, checkSchedSetNode⟩, ⟨0x0703, .polSet, checkPolSet⟩, ⟨0x0705, .polSetPort, checkPolSetPort⟩,
   ⟨0x0706, .loupeSetProfile, checkLoupeSetProfile⟩, ⟨0x0707, .loupeSetQueue, checkLoupeSetQueue⟩]
  ++ [⟨0x0803, .timeSetPtp, checkTimeSetPtp⟩, ⟨0x0804, .timeSetPort, checkTimeSetPort⟩, ⟨0x0805, .timeSetPps, checkTimeSetPps⟩]
  ++ [⟨0x0901, .frerSetStream, liveFrerSetStream⟩, ⟨0x0903, .frerSetPort, checkFrerSetPort⟩]
  ++ [⟨0x0A01, .fixSetCluster, checkFixSetCluster⟩, ⟨0x0A08, .leavenSetEvents, checkLeavenSetEvents⟩]
  ++ [⟨0x0B01, .proofSetClass, checkProofSetClass⟩, ⟨0x0B02, .proofSetTarget, liveProofSetTarget⟩,
   ⟨0x0B05, .shelfSet, checkShelfSet⟩, ⟨0x0B07, .shelfSetBus, checkShelfSetBus⟩]
  ++ [⟨0x1001, .telSetMirror, checkTelSetMirror⟩, ⟨0x1002, .telSetPortMirror, checkTelSetPortMirror⟩]
  ++ [⟨0x1102, .pwrSetDroop, checkPwrSetDroop⟩, ⟨0x1103, .pwrSetThermal, checkPwrSetThermal⟩]

/-- The writes that are accepted only staged (R33, R77, R159, R183, R241), but for BUF_SET_HEADROOM, which answers with a
payload. -/
def stagedOnlyWrites : List (Nat × (Req → Instr)) :=
  [(0x0301, .prismSetProfile), (0x0302, .prismSetSelect), (0x0501, .bufSetClass), (0x0502, .bufSetPortClass),
   (0x0601, .fabSetParams), (0x0806, .gateSetList), (0x0C02, .memSetRegions)]

/-- The writes of table entries, which a set may stage too (R128, R407). -/
def tableWrites : List (Nat × (Req → Instr)) := [(0x0401, .fwdInsert), (0x0402, .fwdDelete)]

/-- The room a set has for one more command (R406, R408): at most 1,048,576 commands, 262,144 table changes, and the staging
region's bytes. -/
def State.setRoom (s : State) (t : SetSt) (c : StagedCmd) : Prop :=
  (addStaged t.cmds c).length ≤ 1048576
  ∧ ((addStaged t.cmds c).filter (fun d => d.op == 0x0401 || d.op == 0x0402 || d.op == 0x0405)).length ≤ 262144
  ∧ { s with bake := s.bake.updSet t.id (fun u => { u with cmds := addStaged u.cmds c }) }.stagingUse ≤ s.regionSize 4

/-- A fresh staged write is recorded in its open set with room, and nothing but the set and mail moves (R408). -/
def Recorded (op : Nat) (i : Req → Instr) (answer : Req → State → List Byte) : Prop :=
  ∀ (r : Req) (s : State) (t0 : SetSt), s.fresh op r → r.stage = true → s.bake.set? r.setId = some t0 → t0.state = .isOpen →
    s.setRoom t0 { op, payload := r.payload } →
    ∃ t, exec (i r) s = .next t ∧ t.delivered op r (Resp.ok (answer r s))
      ∧ t.bake.set? r.setId = some { t0 with cmds := addStaged t0.cmds { op, payload := r.payload } }
      ∧ (∀ n, n ≠ r.setId → t.bake.set? n = s.bake.set? n) ∧ MailOnly { s with bake := t.bake } t

/-- The commands that only read (R399 and the chapters), but for those whose reading counts or clears something
(PORT_GET_MARGIN, PORT_GET_COUNTERS, BUF_GET_PORT, BUF_GET_POOLS, LOUPE_GET, LEAVEN_GET_CORE). -/
def readCommands : List (Nat × (Req → Instr)) :=
  [(0x0101, .devGetInfo), (0x0102, .devGetResult), (0x0103, .devEcho), (0x0105, .devGetCounters)]
  ++ [(0x0202, .portGetStatus)]
  ++ [(0x0305, .prismReadRule), (0x0306, .prismGetCounters), (0x0307, .prismGetRuleCounters), (0x0308, .prismGetEpoch)]
  ++ [(0x0403, .fwdLookup), (0x040D, .fwdGetCounters), (0x040E, .fwdGetOccupancy)]
  ++ [(0x0507, .bufGetStatus), (0x0509, .bufGetCounters)]
  ++ [(0x0603, .fabGetStatus), (0x0604, .fabGetPair), (0x0606, .fabGetCounters)]
  ++ [(0x0702, .schedGetNode), (0x0704, .polGet), (0x0709, .schedGetCounters)]
  ++ [(0x0801, .timeGet), (0x0807, .gateGetStatus), (0x0808, .timeGetCounters)]
  ++ [(0x0902, .frerGetStream), (0x0905, .redGetHealth), (0x0908, .redGetCounters)]
  ++ [(0x0A02, .fixGetFlow), (0x0A03, .fixGetLog), (0x0A06, .fixGetReceipt), (0x0A07, .leavenGetCluster),
      (0x0A0A, .fixGetCounters)]
  ++ [(0x0B04, .proofGetTarget), (0x0B06, .shelfGet), (0x0B08, .proofGetCounters)]
  ++ [(0x0C01, .memGetMap), (0x0C03, .memGetHealth)]
  ++ [(0x0D02, .bakeCheck), (0x0D05, .bakeGetSet)]
  ++ [(0x0E03, .domGetStatus)]
  ++ [(0x0F01, .idGetInfo), (0x0F02, .idGetCert), (0x0F03, .idGetMeasurements)]
  ++ [(0x1003, .telGetMirror), (0x1004, .telGetDrops), (0x1005, .telGetCounters)]
  ++ [(0x1101, .pwrGetStatus), (0x1107, .pwrGetCounters)]

/-- Every mailbox command but DEV_RESTART, whose answer is followed by the restart itself: opcode and command. -/
def mailboxCommands : List (Nat × (Req → Instr)) :=
  [(0x0C01, .memGetMap), (0x0C02, .memSetRegions), (0x0C03, .memGetHealth)]
  ++ [(0x0201, .portSetMode), (0x0202, .portGetStatus), (0x0203, .portSetMac), (0x0204, .portSetFlow),
      (0x0205, .portSetThrottle), (0x0206, .portSetEee), (0x0207, .portSetLaneMap), (0x0208, .portGetMargin),
      (0x0209, .portGetCounters), (0x020A, .portSetAdmin), (0x020B, .portSetMargin)]
  ++ [(0x0301, .prismSetProfile), (0x0302, .prismSetSelect), (0x0303, .prismSetPort), (0x0304, .prismWriteRule),
      (0x0305, .prismReadRule), (0x0306, .prismGetCounters), (0x0307, .prismGetRuleCounters),
      (0x0308, .prismGetEpoch)]
  ++ [(0x0401, .fwdInsert), (0x0402, .fwdDelete), (0x0403, .fwdLookup), (0x0404, .fwdSetVlan),
      (0x0405, .fwdSetRoute), (0x0406, .fwdSetNexthop), (0x0407, .fwdSetEcmp), (0x0408, .fwdSetTemplate),
      (0x0409, .fwdSetRouter), (0x040A, .fwdSetLearn), (0x040B, .fwdSetAging), (0x040C, .fwdFlush),
      (0x040D, .fwdGetCounters), (0x040E, .fwdGetOccupancy)]
  ++ [(0x0501, .bufSetClass), (0x0502, .bufSetPortClass), (0x0503, .bufSetHeadroom), (0x0504, .bufSetPfcTx),
      (0x0505, .bufSetWredProfile), (0x0506, .bufSetQueue), (0x0507, .bufGetStatus), (0x0508, .bufGetPort),
      (0x0509, .bufGetCounters), (0x050A, .bufGetPools)]
  ++ [(0x0601, .fabSetParams), (0x0602, .fabSetPort), (0x0603, .fabGetStatus), (0x0604, .fabGetPair),
      (0x0605, .fabSetPlane), (0x0606, .fabGetCounters)]
  ++ [(0x0701, .schedSetNode), (0x0702, .schedGetNode), (0x0703, .polSet), (0x0704, .polGet),
      (0x0705, .polSetPort), (0x0706, .loupeSetProfile), (0x0707, .loupeSetQueue), (0x0708, .loupeGet),
      (0x0709, .schedGetCounters)]
  ++ [(0x0801, .timeGet), (0x0802, .timeAdjust), (0x0803, .timeSetPtp), (0x0804, .timeSetPort),
      (0x0805, .timeSetPps), (0x0806, .gateSetList), (0x0807, .gateGetStatus), (0x0808, .timeGetCounters)]
  ++ [(0x0901, .frerSetStream), (0x0902, .frerGetStream), (0x0903, .frerSetPort), (0x0904, .frerResetStream),
      (0x0905, .redGetHealth), (0x0906, .redSwitchover), (0x0907, .redResync), (0x0908, .redGetCounters)]
  ++ [(0x0A01, .fixSetCluster), (0x0A02, .fixGetFlow), (0x0A03, .fixGetLog), (0x0A04, .fixRelease),
      (0x0A05, .fixFlush), (0x0A06, .fixGetReceipt), (0x0A07, .leavenGetCluster), (0x0A08, .leavenSetEvents),
      (0x0A09, .leavenGetCore), (0x0A0A, .fixGetCounters)]
  ++ [(0x0B01, .proofSetClass), (0x0B02, .proofSetTarget), (0x0B03, .proofSetState), (0x0B04, .proofGetTarget),
      (0x0B05, .shelfSet), (0x0B06, .shelfGet), (0x0B07, .shelfSetBus), (0x0B08, .proofGetCounters)]
  ++ [(0x0101, .devGetInfo), (0x0102, .devGetResult), (0x0103, .devEcho), (0x0105, .devGetCounters)]
  ++ [(0x0D01, .bakeOpen), (0x0D02, .bakeCheck), (0x0D03, .bakeCommit), (0x0D04, .bakeAbort),
      (0x0D05, .bakeGetSet)]
  ++ [(0x0E01, .domSetPort), (0x0E02, .domAdmit), (0x0E03, .domGetStatus), (0x0E04, .domForward),
      (0x0E05, .domBake), (0x0E06, .domAbort), (0x0E07, .domLeave)]
  ++ [(0x0F01, .idGetInfo), (0x0F02, .idGetCert), (0x0F03, .idGetMeasurements), (0x0F04, .idWriteImage),
      (0x0F05, .idVerifyImage), (0x0F06, .idSetBoot), (0x0F07, .idCommitSvn), (0x0F08, .idPinManager)]
  ++ [(0x1001, .telSetMirror), (0x1002, .telSetPortMirror), (0x1003, .telGetMirror), (0x1004, .telGetDrops),
      (0x1005, .telGetCounters)]
  ++ [(0x1101, .pwrGetStatus), (0x1102, .pwrSetDroop), (0x1103, .pwrSetThermal), (0x1104, .pwrSliceReset),
      (0x1105, .pwrSlicePark), (0x1106, .pwrRestore), (0x1107, .pwrGetCounters)]

/-- The doorbell of mailbox `r.box` finds its function in D0, the mailbox not submitted and Moaras ready, in no failover, and this
request is not queued already: it is checked now (R266, R343, R384, R390). -/
def State.rings (s : State) (op : Nat) (r : Req) : Prop :=
  r.box < 32 ∧ (s.host.link (s.boxFn r.box)).d3 = false ∧ s.job? op r false = none ∧ (s.box r.box).state ≠ .submitted
  ∧ s.mbx.ready = true ∧ s.pwr.failing = none

/-- The response `x` to request `r` stands in its mailbox at `t` (R383). -/
def Posted (t : State) (r : Req) (x : Resp) : Prop :=
  (t.box r.box).state = .responseReady
  ∧ (t.box r.box).resp = respHeader r.tag x t.bake.epoch ++ (if r.indirect then [] else x.payload)

/-- The symbols the FEC of a lane group has corrected are in the counts of its lanes (R67; log entry 3). -/
def State.fecGroup (s : State) (g : Nat) : State := (List.range 8).foldl (fun t i => t.fecLane (8 * g + i)) s

/-- The outcome of the first row that applies; none: no row does. -/
def firstRow {α : Type} : List (Bool × Option α) → Option α
  | [] => none
  | row :: l => if row.1 then row.2 else firstRow l

/-- The command completes at `s`, and `post` holds of the state it leaves. -/
def Ends (i : Instr) (s : State) (post : State → Prop) : Prop := ∃ t, exec i s = .next t ∧ post t

/-- The command completes at `s` and changes nothing. -/
def Idles (i : Instr) (s : State) : Prop := exec i s = .next s

/-- The request of a command row is queued and waits, behind the jobs `l` (R394). -/
def State.queued (s : State) (op : Nat) (r : Req) (j : Job) (l m : List Job) : Prop :=
  r.box < 32 ∧ s.mbx.jobs = l ++ j :: m ∧ j.op = op ∧ j.req = r ∧ j.running = false

/-- The operands name function 1, which a device in x16 does not have (R15, R342). -/
def namesFn1 : Instr → Bool
  | .timeCapture fn | .txtsPop fn _ | .dmaStart fn _ _ | .dmaStop fn _ _ | .dmaAbort fn _ _ | .dmaDoorbell fn _ _
  | .intPendingClear fn _ _ _ | .intMapWrite fn _ _ | .msixUnmask fn _ | .reservedWrite fn _ _ | .badSizeAccess fn _ _ _
  | .registerWrite fn _ _ _ | .sweepSnap fn _ | .sweepRingReset fn _ _ | .sweepHeadWrite fn _ _ | .evtRingReset fn _
  | .evtEnableWrite fn _ | .evtHeadWrite fn _ | .pcieFunctionReset fn _ | .hostLinkLoss fn | .d3hotEntry fn
  | .pcieLinkUp fn _ _ _ | .spdmRequest fn _ => fn == 1
  | _ => false

/-- Function `fn` exists, is not in D3hot, and reaches the registers that link `owner` owns (R342, R343). -/
def State.hears (s : State) (fn owner : Nat) : Prop :=
  s.fnExists fn = true ∧ (s.host.link fn).d3 = false ∧ s.reaches fn owner = true

/-- Command bits `l` of a register write are clear. -/
def clearBits (w : BitVec 64) (l : List Nat) : Prop := ∀ b ∈ l, bit w.toNat b = false

/-- What Prism answers for the pass that packet `id` makes now: what it extracts, and the rule that hits (R81). -/
def State.passHit (s : State) (id : Nat) : PrismOut × Option (Nat × RuleAct) :=
  let k := s.prism.bank (s.pkt id).epoch
  let o := k.extract (s.pkt id).bytes (parseTags (s.pkt id).bytes) (s.passMeta (s.pkt id))
  (o, k.classify (s.pkt id).slice o.key)

/-- The action of the rule that hits; none hits: no action. -/
def State.passAct (s : State) (id : Nat) : RuleAct := ((s.passHit id).2.map (·.2)).getD RuleAct.init

/-- What the lookups of that pass answer (R100), once its counters and its overrides have been taken. -/
def State.passLook (s : State) (id : Nat) : Res5 :=
  let t := (s.countPass (s.pkt id) (s.passHit id).1 (s.passHit id).2).override (s.pkt id) (s.passAct id) (s.passHit id).1
    (((s.passHit id).2.map (·.1)).getD 0xFFFF)
  t.steps45 (t.pkt id) (s.passHit id).1.prof

/-- A frame is counted by its port and enters step 1 (R16, R68). -/
def State.arrived (s : State) (p : Nat) (b : List Byte) : State :=
  let t := (s.bumpPort p 0 1).bumpPort p 1 (b.length + 4)
  t.enter (t.newPkt p b (b.length + 4) false)

/-- A frame of a legal length arrives that is not the MAC's own and not Moaras's (R43, R44, R45, R222). -/
def State.receives (s : State) (p : Nat) (b : List Byte) : Prop :=
  p < 512 ∧ (s.port p).link = true ∧ macConsumes b = false ∧ 60 ≤ b.length ∧ b.length + 4 ≤ (s.port p).maxLen
  ∧ moarasTakes (s.port p).ptp.role b = false

/-- Such a frame, on which no rule acts, with no earlier frame of its port in the merge (R16, R81); `r` is what its lookups answer. -/
def State.ordinary (s : State) (p : Nat) (b : List Byte) (r : Res5) : Prop :=
  s.receives p b ∧ Tab.get [] s.prism.merge p = [] ∧ ((s.arrived p b).passAct s.nextPkt).op = 0 ∧ r = (s.arrived p b).passLook s.nextPkt

/-- The state in which step 6 has given the frame its plan and step 7 takes it from the merge, where nothing of step 6 changes more
(R16, R21). -/
def State.planned (s : State) (r : Res5) : State :=
  let t := ((r.counted .none).recoverStep r (parseTags r.ctx.pk.bytes).rtag).1
  (r.queued (t.updPkt s.nextPkt (fun x => { x.planned (r.plan .none) r.ctx.h.smac with strip := false }))).updPkt s.nextPkt
    (fun x => { x with ready := true })

/-- An ordinary frame goes to network port `q` alone: no parity error, no drop, no stream, no policer, no ingress copy and no tap; `w`
is the state in which step 7 takes it. -/
def State.goesTo (s : State) (p : Nat) (b : List Byte) (q : Nat) (w : State) : Prop :=
  ∃ r, s.ordinary p b r ∧ r.fwd.parity = false ∧ r.drop = none ∧ r.recov = none ∧ r.x = none ∧ r.ctx.genStream r.d = none
    ∧ r.fwd.frer = false ∧ r.fwd.ports = [q] ∧ q < 512 ∧ w = s.planned r
    ∧ w.policerOf (w.pkt s.nextPkt) = none ∧ w.ingressSession (w.pkt s.nextPkt) = none

/-- A lossy frame passes the tests of its queue and finds its cells; its VOQ is not in spill and takes it (R139, R141, R143, R161). -/
def State.finds (w : State) (pk : Pkt) (q : Nat) : Prop :=
  (w.classCfg pk.prio).lossless = false ∧ w.inSpill pk q = false ∧ (w.classCfg pk.tc).spill = false
  ∧ (w.queue (queueKey q pk.tc pk.slot)).wred = false ∧ 128 * (w.queue (queueKey q pk.tc pk.slot)).shared < w.dynThr128 pk.tc
  ∧ w.beyondCells pk ≤ w.unreserved ∧ w.voqRefusal pk q = none

/-- Nothing holds back the next completion of a channel, nor what follows it: no entry and no flush waits, the ring has room, no STOP
and no doorbell is outstanding (R347, R358, R361, R362, R364). -/
def Chan.atEase (x : Chan) : Prop :=
  x.cq = [] ∧ x.flush = none ∧ x.cqRoom = true ∧ x.endCount = 0 ∧ x.stopReq = false ∧ x.rung = x.consumed

/-- The completion entry of descriptor `d` of channel `c` is written, with a status and `n` bytes: it goes to its place in the host's
ring and is counted; INT is signalled at once, and with STRICT_FLUSH only when the flush read that is asked for ends (R358, R361,
R362). -/
def Completed (s t : State) (c : Nat) (d : List Byte) (status n : Nat) (sop eop : Bool) : Prop :=
  .hostWrite (s.chFn c) (s.chan c).cqAddr (CqEntry.row
    { addr := (s.chan c).cur, bytes := n, status, marker := dMarker d, sop, eop, int := dInt d, flush := dFlush d } (s.chan c).cqPhase) ∈ t.out
  ∧ (t.chan c).cqTail = ((s.chan c).cqTail + 1) % 2 ^ 32 ∧ (t.chan c).comp = (s.chan c).comp + 1
  ∧ (t.chan c).bytes = (s.chan c).bytes + BitVec.ofNat 64 n
  ∧ (t.chan c).flush = (if dFlush d then some (dInt d) else none)
  ∧ (dInt d = true → dFlush d = false → t.host.intPending c = true)

/-- The channel goes on after descriptor `d`: IDLE at the end of the chain, else RUNNING at the link, whose descriptor it fetches; the
expected phase flips on a backward link (R347, R350, R363). -/
def WentOn (s t : State) (c : Nat) (d : List Byte) : Prop :=
  (t.chan c).desc = none
  ∧ (dEoc d = true → (t.chan c).state = .idle ∧ (t.chan c).cur = (s.chan c).cur ∧ (t.chan c).phase = (s.chan c).phase)
  ∧ (dEoc d = false → (t.chan c).state = .running ∧ (t.chan c).fetching = true ∧ (t.chan c).cur = BitVec.ofNat 64 (dLink d)
    ∧ (t.chan c).phase = if (BitVec.ofNat 64 (dLink d)).toNat ≤ (s.chan c).cur.toNat then !(s.chan c).phase else (s.chan c).phase)

/-- Channel `c` awaits the copy of a descriptor that it has asked for. -/
def State.awaitsDesc (s : State) (c : Nat) : Prop :=
  c < 128 ∧ (s.chan c).state = .running ∧ (s.chan c).fetching = true ∧ (s.chan c).unsent = false

/-- Channel `c` has descriptor `d` in progress in mode `mode`, and every request of its transfer has been sent. -/
def State.transfers (s : State) (c mode : Nat) (d : List Byte) : Prop :=
  c < 128 ∧ (s.chan c).state = .running ∧ (s.chan c).mode = mode ∧ (s.chan c).desc = some d ∧ (s.chan c).due = false
  ∧ (s.chan c).reads = [] ∧ (s.chan c).badPkt = false

/-- The bytes `l` are put on the link of channel `c` for host address `a`, in requests of at most Max_Payload_Size, each within one
4 KiB page, with the attributes that descriptor `d` and the channel ask for and Device Control permits (R355, R357, R359). -/
def Wrote (s t : State) (c a : Nat) (d l : List Byte) : Prop :=
  ∀ p ∈ splitRange (s.host.link (s.chFn c)).maxPayload a l.length,
    .hostData (s.chFn c) p.1 (slice l (p.1 - a) p.2) ((s.chan c).ro && (s.host.link (s.chFn c)).roOk) (s.noSnoop c d) ∈ t.out

/-- A control frame `b` of the port's link is received whole, of a legal length (R44, R45). -/
def State.takesCtl (s : State) (p : Nat) (b : List Byte) : Prop :=
  p < 512 ∧ (s.port p).link = true ∧ 60 ≤ b.length ∧ b.length + 4 ≤ (s.port p).maxLen

/-- A Lane Throttle frame of message type `ty` is received (R55). -/
def State.takesLt (s : State) (p ty : Nat) (b : List Byte) : Prop :=
  s.takesCtl p b ∧ fld b 12 2 = 0x88B5 ∧ fld b 14 1 = 1 ∧ fld b 15 1 = 1 ∧ fld b 16 1 = ty

/-- A domain message `m` of a type comes whole, for this device, on an enabled domain port with its link up, and passes R424; its
sender's session is not about to end, or the message is a RECEIVED. -/
def State.hearsDom (s : State) (type : Nat) (m : DomIn) : Prop :=
  m.port < 512 ∧ s.domMine m = true ∧ (s.port m.port).link = true ∧ m.fcsOk = true
  ∧ s.authOk type m = true ∧ ((s.peer m.sender).leaving = false ∨ type = 3)

/-- The frames of a received message are counted at its port (R68). -/
def State.domCounted (s : State) (m : DomIn) : State :=
  (s.bumpPort m.port 0 (domFrames m.body)).bumpPort m.port 1 (domBytes m.body)

/-- The state in which an authentic message of a type acts: its frames counted, their sequence numbers accepted, its receipt
confirmed (R424, R425). -/
def State.domAccepted (s : State) (type : Nat) (m : DomIn) : State := (s.domCounted m).domTake type m

/-- A message to a peer has been sent, and waits to be confirmed (R425). -/
def Sent (t : State) (peer type : Nat) (body : List Byte) : Prop := ∃ x ∈ t.bake.msgs, x.peer = peer ∧ x.type = type ∧ x.body = body

end Sys2Proof.Machine
end

