-- ==== Sys2Proof/Safety/Frame.lean ====
section
/-! DEFINITION. What a command may change: the state cut into named parts, and for each command the parts it may change. -/

namespace Sys2Proof.Machine

/-- Parts of the state, by name: what an operation may change. -/
structure Touch where
  /-- The time base. -/
  time : Bool := false
  /-- The count of clock ticks. -/
  up : Bool := false
  /-- The PTP settings. -/
  ptp : Bool := false
  /-- The transmit timestamp FIFOs. -/
  tsFifos : Bool := false
  /-- The gate lists of the ports. -/
  gates : Bool := false
  /-- The lanes. -/
  lanes : Bool := false
  /-- The lane groups. -/
  groups : Bool := false
  /-- The ports. -/
  ports : Bool := false
  /-- The Prism banks and the classification epoch. -/
  prismBanks : Bool := false
  /-- The packets in flight of the two classification epochs. -/
  prismFlight : Bool := false
  /-- The Prism rule counters. -/
  hits : Bool := false
  /-- The recirculation queues. -/
  recirc : Bool := false
  /-- The way merge. -/
  merge : Bool := false
  /-- The tables of the two generations. -/
  gens : Bool := false
  /-- The packets in flight of the two generations. -/
  fwdFlight : Bool := false
  /-- The exact-match table. -/
  em : Bool := false
  /-- The hash seeds. -/
  seeds : Bool := false
  /-- The learn queues. -/
  learnQ : Bool := false
  /-- The aging period. -/
  agePeriod : Bool := false
  /-- The forwarding counters. -/
  fwdCtr : Bool := false
  /-- The entries with bad parity. -/
  badTable : Bool := false
  /-- The cell allocator. -/
  cells : Bool := false
  /-- The traffic classes. -/
  classes : Bool := false
  /-- The classes of the ports. -/
  portClass : Bool := false
  /-- The WRED profiles. -/
  wred : Bool := false
  /-- The queues of the packet buffer. -/
  queues : Bool := false
  /-- The VOQs in spill. -/
  spillVoqs : Bool := false
  /-- The WRED draws. -/
  lfsr : Bool := false
  /-- The message pools. -/
  pools : Bool := false
  /-- The buffer counters. -/
  bufCtr : Bool := false
  /-- The packets held. -/
  pkts : Bool := false
  /-- The next packet number. -/
  nextPkt : Bool := false
  /-- The fabric settings. -/
  fabParams : Bool := false
  /-- The VOQs. -/
  voqs : Bool := false
  /-- The multi-destination queues. -/
  multiQ : Bool := false
  /-- The slice pairs. -/
  pairs : Bool := false
  /-- The planes. -/
  planes : Bool := false
  /-- The fabric settings of the ports. -/
  fabPorts : Bool := false
  /-- The replay buffers and the sequence numbers of the plane links. -/
  links : Bool := false
  /-- The round-robin pointers of the fabric. -/
  arb : Bool := false
  /-- The fabric counters. -/
  fabCtr : Bool := false
  /-- The scheduler nodes. -/
  nodes : Bool := false
  /-- The egress queues. -/
  egq : Bool := false
  /-- The frames of Moaras that wait at the ports. -/
  waitTx : Bool := false
  /-- The policers. -/
  pol : Bool := false
  /-- The Loupe profiles. -/
  loupeProf : Bool := false
  /-- The Loupe queue settings and alarms. -/
  loupeQueue : Bool := false
  /-- The Loupe items. -/
  loupeItems : Bool := false
  /-- The scheduler counters. -/
  schedCtr : Bool := false
  /-- The FRER streams. -/
  frer : Bool := false
  /-- The clusters. -/
  clusters : Bool := false
  /-- The cores. -/
  cores : Bool := false
  /-- The Fixity flows. -/
  flows : Bool := false
  /-- The Fixity clusters. -/
  fix : Bool := false
  /-- The FIX_FLUSH commands that wait. -/
  flushes : Bool := false
  /-- The Fixity counters. -/
  fixCtr : Bool := false
  /-- The proofing classes. -/
  pclasses : Bool := false
  /-- The targets. -/
  targets : Bool := false
  /-- The shelf drops. -/
  drops : Bool := false
  /-- The shelf buses. -/
  buses : Bool := false
  /-- The park region and the notice rate. -/
  notices : Bool := false
  /-- The proofing counters. -/
  proofCtr : Bool := false
  /-- The event ring settings. -/
  evtRegs : Bool := false
  /-- The event log. -/
  evt : Bool := false
  /-- The sweep settings. -/
  swpRegs : Bool := false
  /-- The sweep and Loupe rings. -/
  swp : Bool := false
  /-- The mirror sessions. -/
  mirrors : Bool := false
  /-- The mirror candidates seen. -/
  cand : Bool := false
  /-- The mirror queues. -/
  mirQ : Bool := false
  /-- The mirror counters. -/
  mirCtr : Bool := false
  /-- The event counters. -/
  telCtr : Bool := false
  /-- The drop counters. -/
  dropCtr : Bool := false
  /-- The port counters. -/
  portCtr : Bool := false
  /-- The Prism counters. -/
  prismCtr : Bool := false
  /-- The time and gate counters. -/
  timeCtr : Bool := false
  /-- The redundancy counters. -/
  redCtr : Bool := false
  /-- The FRER counters. -/
  frerCtr : Bool := false
  /-- The mailbox counters. -/
  mbxCtr : Bool := false
  /-- The power counters. -/
  pwrCtr : Bool := false
  /-- The slices' shares of the counters. -/
  shares : Bool := false
  /-- The marks of rate-limited events. -/
  rate : Bool := false
  /-- The mailboxes. -/
  boxes : Bool := false
  /-- The commands taken, and those that wait for a failover to end. -/
  jobs : Bool := false
  /-- The tag histories. -/
  hist : Bool := false
  /-- What Moaras runs. -/
  life : Bool := false
  /-- The ASYNC commands a restart has cut. -/
  lostAsync : Bool := false
  /-- The events that wait for a restart to end. -/
  heldEvents : Bool := false
  /-- The staged sets. -/
  sets : Bool := false
  /-- The bake epoch. -/
  epoch : Bool := false
  /-- The shadow configuration. -/
  snapshot : Bool := false
  /-- The shadow held for PWR_RESTORE. -/
  heldShadow : Bool := false
  /-- The members of the domain. -/
  peers : Bool := false
  /-- The unconfirmed domain messages. -/
  msgs : Bool := false
  /-- The domain bake. -/
  domBake : Bool := false
  /-- The membership of a worker, and the manager that sets it up. -/
  membership : Bool := false
  /-- The count of failed authentications. -/
  authFails : Bool := false
  /-- The measured time offset. -/
  timeOffset : Bool := false
  /-- The DOM_FORWARD commands that wait. -/
  fwdReqs : Bool := false
  /-- The image slots. -/
  slots : Bool := false
  /-- The boot configuration. -/
  bootCfg : Bool := false
  /-- The running image and its certificates. -/
  image : Bool := false
  /-- The minimum SVN fuses. -/
  minSvn : Bool := false
  /-- The pinned manager. -/
  pin : Bool := false
  /-- The debug state. -/
  debug : Bool := false
  /-- The SPDM sessions. -/
  sessions : Bool := false
  /-- The reset state and the straps. -/
  resets : Bool := false
  /-- The slices. -/
  slices : Bool := false
  /-- The warning threshold. -/
  warnC : Bool := false
  /-- The thermal and life record. -/
  thermal : Bool := false
  /-- The memory stacks. -/
  hbms : Bool := false
  /-- The memory regions. -/
  regions : Bool := false
  /-- The management processors. -/
  mps : Bool := false
  /-- The generation of the health report. -/
  healthGen : Bool := false
  /-- The repair record. -/
  repairLog : Bool := false
  /-- The margin thresholds. -/
  margins : Bool := false
  /-- The PCIe links and the pending interrupts. -/
  irq : Bool := false
  /-- The interrupt map. -/
  intMap : Bool := false
  /-- The MSI-X tables. -/
  msix : Bool := false
  /-- The DMA channels. -/
  chans : Bool := false
  /-- The host FIFOs. -/
  fifos : Bool := false
  /-- The channels that wait for a read tag. -/
  waitFetch : Bool := false
  /-- The staging region. -/
  staging : Bool := false
  /-- What has been sent to the outside. -/
  out : Bool := false
  /-- The free values taken. -/
  free : Bool := false
  /-- The queue of commands. -/
  pending : Bool := false
deriving DecidableEq, Repr

/-- `t` differs from `s` in parts that `w` names, at most. -/
structure Frame (w : Touch) (s t : State) : Prop where
  time : w.time = false → t.time = s.time
  up : w.up = false → t.up = s.up
  ptp : w.ptp = false → t.ptp = s.ptp
  tsFifos : w.tsFifos = false → t.tsFifos = s.tsFifos
  gates : w.gates = false → t.gates = s.gates
  lanes : w.lanes = false → t.lanes = s.lanes
  groups : w.groups = false → t.groups = s.groups
  ports : w.ports = false → t.ports = s.ports
  prismBanks : w.prismBanks = false → t.prism.bank0 = s.prism.bank0 ∧ t.prism.bank1 = s.prism.bank1 ∧ t.prism.epoch =
    s.prism.epoch ∧ t.prism.loaded = s.prism.loaded
  prismFlight : w.prismFlight = false → t.prism.inCur = s.prism.inCur ∧ t.prism.inPrev = s.prism.inPrev
  hits : w.hits = false → t.prism.hits = s.prism.hits
  recirc : w.recirc = false → t.prism.recirc = s.prism.recirc
  merge : w.merge = false → t.prism.merge = s.prism.merge
  gens : w.gens = false → t.fwd.gen0 = s.fwd.gen0 ∧ t.fwd.gen1 = s.fwd.gen1 ∧ t.fwd.gen = s.fwd.gen ∧
    t.fwd.normPending = s.fwd.normPending
  fwdFlight : w.fwdFlight = false → t.fwd.inGenPrev = s.fwd.inGenPrev ∧ t.fwd.inGenCur = s.fwd.inGenCur
  em : w.em = false → t.fwd.em = s.fwd.em ∧ t.fwd.learnedOn = s.fwd.learnedOn
  seeds : w.seeds = false → t.fwd.seed0 = s.fwd.seed0 ∧ t.fwd.seed1 = s.fwd.seed1 ∧ t.fwd.seed2 = s.fwd.seed2
  learnQ : w.learnQ = false → t.fwd.learnQ = s.fwd.learnQ
  agePeriod : w.agePeriod = false → t.fwd.agePeriod = s.fwd.agePeriod
  fwdCtr : w.fwdCtr = false → t.fwd.ctr = s.fwd.ctr
  badTable : w.badTable = false → t.fwd.badTable = s.fwd.badTable
  cells : w.cells = false → t.buf.usedCells = s.buf.usedCells ∧ t.buf.allocStart = s.buf.allocStart
  classes : w.classes = false → t.buf.classes = s.buf.classes
  portClass : w.portClass = false → t.buf.portClass = s.buf.portClass
  wred : w.wred = false → t.buf.wred = s.buf.wred
  queues : w.queues = false → t.buf.queues = s.buf.queues
  spillVoqs : w.spillVoqs = false → t.buf.spillVoqs = s.buf.spillVoqs
  lfsr : w.lfsr = false → t.buf.lfsr = s.buf.lfsr
  pools : w.pools = false → t.buf.pool0 = s.buf.pool0 ∧ t.buf.pool1 = s.buf.pool1 ∧ t.buf.pool2 = s.buf.pool2 ∧
    t.buf.pool3 = s.buf.pool3 ∧ t.host.poolMem = s.host.poolMem
  bufCtr : w.bufCtr = false → t.buf.ctr = s.buf.ctr
  pkts : w.pkts = false → t.pkts = s.pkts
  nextPkt : w.nextPkt = false → t.nextPkt = s.nextPkt
  fabParams : w.fabParams = false → t.fab.params = s.fab.params
  voqs : w.voqs = false → t.fab.voqs = s.fab.voqs
  multiQ : w.multiQ = false → t.fab.multiQ = s.fab.multiQ
  pairs : w.pairs = false → t.fab.pairs = s.fab.pairs
  planes : w.planes = false → t.fab.planes = s.fab.planes
  fabPorts : w.fabPorts = false → t.fab.ports = s.fab.ports
  links : w.links = false → t.fab.links = s.fab.links ∧ t.fab.linkNext = s.fab.linkNext
  arb : w.arb = false → t.fab.rr = s.fab.rr ∧ t.fab.rrDst = s.fab.rrDst
  fabCtr : w.fabCtr = false → t.fab.ctr = s.fab.ctr
  nodes : w.nodes = false → t.sched.nodes = s.sched.nodes
  egq : w.egq = false → t.sched.egq = s.sched.egq
  waitTx : w.waitTx = false → t.sched.waitTx = s.sched.waitTx
  pol : w.pol = false → t.sched.pol = s.sched.pol
  loupeProf : w.loupeProf = false → t.sched.prof = s.sched.prof
  loupeQueue : w.loupeQueue = false → t.sched.queue = s.sched.queue
  loupeItems : w.loupeItems = false → t.sched.items = s.sched.items ∧ t.sched.cursor = s.sched.cursor
  schedCtr : w.schedCtr = false → t.sched.ctr = s.sched.ctr
  frer : w.frer = false → t.frer = s.frer
  clusters : w.clusters = false → t.leaven.clusters = s.leaven.clusters
  cores : w.cores = false → t.leaven.cores = s.leaven.cores
  flows : w.flows = false → t.leaven.flows = s.leaven.flows
  fix : w.fix = false → t.leaven.fix = s.leaven.fix ∧ t.leaven.nextTap = s.leaven.nextTap
  flushes : w.flushes = false → t.leaven.flushes = s.leaven.flushes
  fixCtr : w.fixCtr = false → t.leaven.ctr = s.leaven.ctr
  pclasses : w.pclasses = false → t.proof.classes = s.proof.classes
  targets : w.targets = false → t.proof.targets = s.proof.targets
  drops : w.drops = false → t.proof.drops = s.proof.drops
  buses : w.buses = false → t.proof.buses = s.proof.buses
  notices : w.notices = false → t.proof.parkUnits = s.proof.parkUnits ∧ t.proof.noticeSec = s.proof.noticeSec ∧
    t.proof.noticeAt = s.proof.noticeAt
  proofCtr : w.proofCtr = false → t.proof.ctr = s.proof.ctr
  evtRegs : w.evtRegs = false → t.evt.enable = s.evt.enable ∧ t.evt.minSev = s.evt.minSev ∧ t.evt.base = s.evt.base ∧
    t.evt.k = s.evt.k
  evt : w.evt = false → t.evt.head = s.evt.head ∧ t.evt.tail = s.evt.tail ∧ t.evt.nextSeq = s.evt.nextSeq ∧
    t.evt.lostSeen = s.evt.lostSeen ∧ t.evt.held = s.evt.held ∧ t.evt.lost = s.evt.lost ∧ t.evt.lostFirst =
    s.evt.lostFirst ∧ t.evt.lostLast = s.evt.lostLast ∧ t.evt.marked = s.evt.marked
  swpRegs : w.swpRegs = false → t.swp.enable = s.swp.enable ∧ t.swp.period = s.swp.period ∧ t.swp.groups =
    s.swp.groups ∧ t.swp.base = s.swp.base ∧ t.swp.k = s.swp.k ∧ t.swp.lEnable = s.swp.lEnable ∧ t.swp.lBase =
    s.swp.lBase ∧ t.swp.lK = s.swp.lK
  swp : w.swp = false → t.swp.head = s.swp.head ∧ t.swp.tail = s.swp.tail ∧ t.swp.lastSeq = s.swp.lastSeq ∧ t.swp.full
    = s.swp.full ∧ t.swp.tooLarge = s.swp.tooLarge ∧ t.swp.dump = s.swp.dump ∧ t.swp.snapDue = s.swp.snapDue ∧
    t.swp.taken = s.swp.taken ∧ t.swp.missed = s.swp.missed ∧ t.swp.slicesReset = s.swp.slicesReset ∧ t.swp.restarted
    = s.swp.restarted ∧ t.swp.lHead = s.swp.lHead ∧ t.swp.lTail = s.swp.lTail ∧ t.swp.lFull = s.swp.lFull
  mirrors : w.mirrors = false → t.tel.mirrors = s.tel.mirrors
  cand : w.cand = false → t.tel.cand = s.tel.cand
  mirQ : w.mirQ = false → t.tel.mirQ = s.tel.mirQ
  mirCtr : w.mirCtr = false → t.tel.mirCtr = s.tel.mirCtr
  telCtr : w.telCtr = false → t.tel.ctr = s.tel.ctr
  dropCtr : w.dropCtr = false → t.tel.drops = s.tel.drops
  portCtr : w.portCtr = false → t.tel.portCtr = s.tel.portCtr
  prismCtr : w.prismCtr = false → t.tel.prismCtr = s.tel.prismCtr
  timeCtr : w.timeCtr = false → t.tel.timeCtr = s.tel.timeCtr
  redCtr : w.redCtr = false → t.tel.redCtr = s.tel.redCtr
  frerCtr : w.frerCtr = false → t.tel.frerCtr = s.tel.frerCtr
  mbxCtr : w.mbxCtr = false → t.tel.mbxCtr = s.tel.mbxCtr
  pwrCtr : w.pwrCtr = false → t.tel.pwrCtr = s.tel.pwrCtr
  shares : w.shares = false → t.tel.share = s.tel.share
  rate : w.rate = false → t.tel.rate = s.tel.rate
  boxes : w.boxes = false → t.mbx.boxes = s.mbx.boxes
  jobs : w.jobs = false → t.mbx.jobs = s.mbx.jobs ∧ t.mbx.gapCmds = s.mbx.gapCmds
  hist : w.hist = false → t.mbx.hist0 = s.mbx.hist0 ∧ t.mbx.hist1 = s.mbx.hist1
  life : w.life = false → t.mbx.ready = s.mbx.ready ∧ t.mbx.boots = s.mbx.boots ∧ t.mbx.restarts = s.mbx.restarts ∧
    t.mbx.restarting = s.mbx.restarting ∧ t.mbx.readyUp = s.mbx.readyUp
  lostAsync : w.lostAsync = false → t.mbx.lostAsync = s.mbx.lostAsync
  heldEvents : w.heldEvents = false → t.mbx.heldEvents = s.mbx.heldEvents
  sets : w.sets = false → t.bake.sets = s.bake.sets ∧ t.bake.nextSet = s.bake.nextSet
  epoch : w.epoch = false → t.bake.epoch = s.bake.epoch
  snapshot : w.snapshot = false → t.bake.snapshot = s.bake.snapshot
  heldShadow : w.heldShadow = false → t.bake.heldShadow = s.bake.heldShadow ∧ t.bake.heldEpoch = s.bake.heldEpoch
  peers : w.peers = false → t.bake.peers = s.bake.peers
  msgs : w.msgs = false → t.bake.msgs = s.bake.msgs ∧ t.bake.nextMsg = s.bake.nextMsg
  domBake : w.domBake = false → t.bake.dom = s.bake.dom ∧ t.bake.nextBake = s.bake.nextBake ∧ t.bake.outcomes =
    s.bake.outcomes
  membership : w.membership = false → t.bake.frozen = s.bake.frozen ∧ t.bake.enrolled = s.bake.enrolled ∧
    t.bake.enrolling = s.bake.enrolling ∧ t.bake.ownIdx = s.bake.ownIdx ∧ t.bake.setup = s.bake.setup
  authFails : w.authFails = false → t.bake.authFails = s.bake.authFails
  timeOffset : w.timeOffset = false → t.bake.timeOffset = s.bake.timeOffset
  fwdReqs : w.fwdReqs = false → t.bake.fwdReqs = s.bake.fwdReqs
  slots : w.slots = false → t.ident.slotA = s.ident.slotA ∧ t.ident.slotB = s.ident.slotB
  bootCfg : w.bootCfg = false → t.ident.cfg0 = s.ident.cfg0 ∧ t.ident.cfg1 = s.ident.cfg1 ∧ t.ident.bifurcated =
    s.ident.bifurcated
  image : w.image = false → t.ident.running = s.ident.running ∧ t.ident.runTrial = s.ident.runTrial ∧ t.ident.runSvn =
    s.ident.runSvn ∧ t.ident.major = s.ident.major ∧ t.ident.minor = s.ident.minor ∧ t.ident.build = s.ident.build ∧
    t.ident.booted = s.ident.booted ∧ t.ident.cdi = s.ident.cdi ∧ t.ident.certs = s.ident.certs ∧ t.ident.fallback =
    s.ident.fallback ∧ t.ident.console = s.ident.console
  minSvn : w.minSvn = false → t.ident.minSvn = s.ident.minSvn
  pin : w.pin = false → t.ident.pin = s.ident.pin
  debug : w.debug = false → t.ident.debug = s.ident.debug
  sessions : w.sessions = false → t.ident.doe0 = s.ident.doe0 ∧ t.ident.doe1 = s.ident.doe1 ∧ t.ident.smb =
    s.ident.smb ∧ t.ident.spdmNeg = s.ident.spdmNeg ∧ t.ident.spdmVer = s.ident.spdmVer ∧ t.ident.spdmLog =
    s.ident.spdmLog
  resets : w.resets = false → t.pwr.inReset = s.pwr.inReset ∧ t.pwr.porst = s.pwr.porst ∧ t.pwr.wrst = s.pwr.wrst ∧
    t.pwr.supplies = s.pwr.supplies ∧ t.pwr.bringup = s.pwr.bringup ∧ t.pwr.emergency = s.pwr.emergency ∧
    t.pwr.lastCause = s.pwr.lastCause ∧ t.pwr.flashCause = s.pwr.flashCause ∧ t.pwr.hotAtRecord = s.pwr.hotAtRecord ∧
    t.pwr.roleStrap = s.pwr.roleStrap ∧ t.pwr.variant = s.pwr.variant ∧ t.pwr.stepping = s.pwr.stepping ∧
    t.pwr.tap = s.pwr.tap
  slices : w.slices = false → t.pwr.slices = s.pwr.slices
  warnC : w.warnC = false → t.pwr.warnC = s.pwr.warnC
  thermal : w.thermal = false → t.pwr.warn = s.pwr.warn ∧ t.pwr.trip = s.pwr.trip ∧ t.pwr.hottest = s.pwr.hottest ∧
    t.pwr.lifeW = s.pwr.lifeW ∧ t.pwr.hours = s.pwr.hours
  hbms : w.hbms = false → t.pwr.hbms = s.pwr.hbms
  regions : w.regions = false → t.pwr.regions = s.pwr.regions
  mps : w.mps = false → t.pwr.mps = s.pwr.mps ∧ t.pwr.failing = s.pwr.failing
  healthGen : w.healthGen = false → t.pwr.healthGen = s.pwr.healthGen
  repairLog : w.repairLog = false → t.pwr.repairLog = s.pwr.repairLog
  margins : w.margins = false → t.pwr.marginPeriod = s.pwr.marginPeriod ∧ t.pwr.marginH = s.pwr.marginH ∧
    t.pwr.marginW = s.pwr.marginW
  irq : w.irq = false → t.host.links = s.host.links ∧ t.host.pending = s.host.pending
  intMap : w.intMap = false → t.host.mapVec = s.host.mapVec ∧ t.host.mapEn = s.host.mapEn
  msix : w.msix = false → t.host.msix = s.host.msix
  chans : w.chans = false → t.host.chans = s.host.chans
  fifos : w.fifos = false → t.host.fifos = s.host.fifos
  waitFetch : w.waitFetch = false → t.host.waitFetch = s.host.waitFetch
  staging : w.staging = false → t.host.staging = s.host.staging
  out : w.out = false → t.out = s.out
  free : w.free = false → t.free = s.free
  pending : w.pending = false → t.pending = s.pending
/-- The boxes, their histories and counters, whatever an event raised on the way moves, and the frames of the domain. -/
def Touch.mail : Touch :=
  { pools := true, bufCtr := true, waitTx := true, evt := true, telCtr := true, portCtr := true, mbxCtr := true,
    boxes := true, jobs := true, hist := true, peers := true, msgs := true, irq := true, out := true }

/-- What every command that sets a configuration moves besides it: mail, staged sets, the shadow and the snapshot. -/
def Touch.setting : Touch :=
  { pools := true, bufCtr := true, waitTx := true, evt := true, telCtr := true, portCtr := true, mbxCtr := true,
    boxes := true, jobs := true, hist := true, sets := true, snapshot := true, heldShadow := true, peers := true,
    msgs := true, irq := true, out := true }

/-- What the datapath moves when a frame enters, is copied or is dropped. -/
def Touch.path : Touch :=
  { ports := true, fwdCtr := true, bufCtr := true, pkts := true, nextPkt := true, fabCtr := true, schedCtr := true,
    evt := true, mirrors := true, cand := true, mirQ := true, mirCtr := true, telCtr := true, dropCtr := true,
    portCtr := true, prismCtr := true, timeCtr := true, shares := true, irq := true, out := true, free := true }

/-- What a port that goes down moves. -/
def Touch.port : Touch :=
  { lanes := true, ports := true, fwdCtr := true, bufCtr := true, pkts := true, nextPkt := true, pairs := true,
    fabPorts := true, fabCtr := true, nodes := true, egq := true, waitTx := true, schedCtr := true, evt := true,
    mirrors := true, cand := true, mirQ := true, mirCtr := true, telCtr := true, dropCtr := true, portCtr := true,
    prismCtr := true, timeCtr := true, shares := true, healthGen := true, irq := true, out := true, free := true }

/-- What a reset of the device moves. -/
def Touch.reset : Touch :=
  { time := true, up := true, ptp := true, tsFifos := true, gates := true, lanes := true, groups := true,
    ports := true, prismBanks := true, prismFlight := true, hits := true, recirc := true, merge := true, gens := true,
    fwdFlight := true, em := true, seeds := true, learnQ := true, agePeriod := true, fwdCtr := true, badTable := true,
    cells := true, classes := true, portClass := true, wred := true, queues := true, spillVoqs := true, lfsr := true,
    pools := true, bufCtr := true, pkts := true, nextPkt := true, fabParams := true, voqs := true, multiQ := true,
    pairs := true, planes := true, fabPorts := true, links := true, arb := true, fabCtr := true, nodes := true,
    egq := true, waitTx := true, pol := true, loupeProf := true, loupeQueue := true, loupeItems := true,
    schedCtr := true, frer := true, clusters := true, cores := true, flows := true, fix := true, flushes := true,
    fixCtr := true, pclasses := true, targets := true, drops := true, buses := true, notices := true,
    proofCtr := true, evtRegs := true, evt := true, swpRegs := true, swp := true, mirrors := true, cand := true,
    mirQ := true, mirCtr := true, telCtr := true, dropCtr := true, portCtr := true, prismCtr := true, timeCtr := true,
    redCtr := true, frerCtr := true, mbxCtr := true, pwrCtr := true, shares := true, rate := true, boxes := true,
    jobs := true, hist := true, life := true, lostAsync := true, heldEvents := true, sets := true, epoch := true,
    snapshot := true, heldShadow := true, peers := true, msgs := true, domBake := true, membership := true,
    authFails := true, timeOffset := true, fwdReqs := true, bootCfg := true, image := true, sessions := true,
    resets := true, slices := true, warnC := true, thermal := true, hbms := true, regions := true, mps := true,
    healthGen := true, margins := true, irq := true, intMap := true, msix := true, chans := true, fifos := true,
    waitFetch := true, staging := true }

/-- What the reset of a slice moves. -/
def Touch.slice : Touch :=
  { lanes := true, ports := true, prismFlight := true, hits := true, recirc := true, merge := true, fwdFlight := true,
    learnQ := true, fwdCtr := true, cells := true, portClass := true, queues := true, spillVoqs := true,
    bufCtr := true, pkts := true, nextPkt := true, voqs := true, multiQ := true, pairs := true, fabPorts := true,
    links := true, fabCtr := true, nodes := true, egq := true, waitTx := true, loupeItems := true, schedCtr := true,
    cores := true, flows := true, fix := true, fixCtr := true, proofCtr := true, evt := true, swp := true,
    mirrors := true, cand := true, mirQ := true, mirCtr := true, telCtr := true, dropCtr := true, portCtr := true,
    prismCtr := true, timeCtr := true, pwrCtr := true, shares := true, rate := true, slices := true,
    healthGen := true, irq := true, out := true, free := true }

/-- The parts of the state that a command may change, apart from the queue that holds it. A part not listed stands after
the command as it stood before it, whatever its operands are and however it ends. -/
def touches (i : Instr) : Touch :=
  match i with
  | .memGetMap _ => .mail
  | .memSetRegions _ => { Touch.setting with spillVoqs := true, regions := true }
  | .memGetHealth _ => .mail
  | .portSetMode _ =>
      { Touch.port with
        prismFlight := true, recirc := true, merge := true, cells := true, portClass := true, queues := true,
        spillVoqs := true, pools := true, voqs := true, multiQ := true, mbxCtr := true, boxes := true, jobs := true,
        hist := true, sets := true, snapshot := true, heldShadow := true, peers := true, msgs := true }
  | .portGetStatus _ => .mail
  | .portSetMac _ => { Touch.setting with ports := true, portClass := true, shares := true }
  | .portSetFlow _ => { Touch.setting with ports := true, portClass := true, shares := true }
  | .portSetThrottle _ => { Touch.setting with lanes := true, ports := true, healthGen := true }
  | .portSetEee _ => { Touch.setting with ports := true }
  | .portSetLaneMap _ => { Touch.mail with groups := true, snapshot := true, heldShadow := true }
  | .portGetMargin _ => { Touch.mail with lanes := true, free := true }
  | .portGetCounters _ => { Touch.mail with free := true }
  | .portSetAdmin _ =>
      { Touch.port with
        pools := true, mbxCtr := true, boxes := true, jobs := true, hist := true, sets := true, snapshot := true,
        heldShadow := true, peers := true, msgs := true }
  | .portSetMargin _ => { Touch.setting with margins := true }
  | .prismSetProfile _ => .setting
  | .prismSetSelect _ => .setting
  | .prismSetPort _ => { Touch.setting with prismBanks := true }
  | .prismWriteRule _ => { Touch.setting with prismBanks := true, prismCtr := true }
  | .prismReadRule _ => .mail
  | .prismGetCounters _ => .mail
  | .prismGetRuleCounters _ => .mail
  | .prismGetEpoch _ => .mail
  | .fwdInsert _ => { Touch.mail with em := true, fwdCtr := true, flows := true, sets := true, heldShadow := true }
  | .fwdDelete _ => { Touch.mail with em := true, fwdCtr := true, sets := true, heldShadow := true }
  | .fwdLookup _ => .mail
  | .fwdSetVlan _ => { Touch.setting with gens := true }
  | .fwdSetRoute _ => { Touch.setting with gens := true }
  | .fwdSetNexthop _ => { Touch.setting with gens := true }
  | .fwdSetEcmp _ => { Touch.setting with gens := true }
  | .fwdSetTemplate _ => { Touch.setting with gens := true }
  | .fwdSetRouter _ => { Touch.setting with gens := true }
  | .fwdSetLearn _ => { Touch.setting with ports := true }
  | .fwdSetAging _ => { Touch.setting with agePeriod := true }
  | .fwdFlush _ => { Touch.mail with em := true, fwdCtr := true }
  | .fwdGetCounters _ => .mail
  | .fwdGetOccupancy _ => .mail
  | .bufSetClass _ => { Touch.setting with ports := true, classes := true, portClass := true, shares := true }
  | .bufSetPortClass _ => { Touch.setting with ports := true, portClass := true, shares := true }
  | .bufSetHeadroom _ => { Touch.mail with sets := true }
  | .bufSetPfcTx _ => { Touch.setting with ports := true }
  | .bufSetWredProfile _ => { Touch.setting with wred := true, queues := true }
  | .bufSetQueue _ => { Touch.setting with queues := true }
  | .bufGetStatus _ => .mail
  | .bufGetPort _ => { Touch.mail with portClass := true }
  | .bufGetCounters _ => .mail
  | .bufGetPools _ => .mail
  | .fabSetParams _ => { Touch.setting with fabParams := true }
  | .fabSetPort _ => { Touch.setting with fabPorts := true }
  | .fabGetStatus _ => .mail
  | .fabGetPair _ => .mail
  | .fabSetPlane _ => { Touch.mail with planes := true, links := true, healthGen := true, repairLog := true }
  | .fabGetCounters _ => .mail
  | .schedSetNode _ => { Touch.setting with nodes := true }
  | .schedGetNode _ => .mail
  | .polSet _ => { Touch.setting with pol := true }
  | .polGet _ => .mail
  | .polSetPort _ => { Touch.setting with ports := true }
  | .loupeSetProfile _ => { Touch.setting with loupeProf := true, loupeItems := true }
  | .loupeSetQueue _ => { Touch.setting with loupeQueue := true, loupeItems := true }
  | .loupeGet _ => { Touch.mail with loupeItems := true }
  | .schedGetCounters _ => .mail
  | .timeGet _ => .mail
  | .timeAdjust _ =>
      { Touch.port with
        time := true, ptp := true, tsFifos := true, gates := true, groups := true, prismBanks := true,
        prismFlight := true, hits := true, recirc := true, merge := true, gens := true, fwdFlight := true, em := true,
        learnQ := true, agePeriod := true, cells := true, classes := true, portClass := true, wred := true,
        queues := true, spillVoqs := true, pools := true, fabParams := true, voqs := true, multiQ := true,
        links := true, pol := true, loupeProf := true, loupeQueue := true, loupeItems := true, frer := true,
        clusters := true, cores := true, flows := true, fix := true, fixCtr := true, pclasses := true,
        targets := true, drops := true, buses := true, notices := true, proofCtr := true, mbxCtr := true,
        pwrCtr := true, rate := true, boxes := true, jobs := true, hist := true, heldEvents := true, sets := true,
        epoch := true, snapshot := true, heldShadow := true, peers := true, msgs := true, domBake := true,
        slices := true, warnC := true, regions := true, margins := true }
  | .timeSetPtp _ => { Touch.setting with ptp := true }
  | .timeSetPort _ => { Touch.setting with tsFifos := true, ports := true }
  | .timeSetPps _ => { Touch.setting with time := true }
  | .gateSetList _ =>
      { Touch.path with
        gates := true, prismFlight := true, recirc := true, merge := true, cells := true, portClass := true,
        queues := true, spillVoqs := true, pools := true, voqs := true, multiQ := true, pairs := true,
        fabPorts := true, nodes := true, egq := true, waitTx := true, mbxCtr := true, boxes := true, jobs := true,
        hist := true, sets := true, snapshot := true, heldShadow := true, peers := true, msgs := true }
  | .gateGetStatus _ => .mail
  | .timeGetCounters _ => .mail
  | .frerSetStream _ => { Touch.setting with gens := true, frer := true }
  | .frerGetStream _ => .mail
  | .frerSetPort _ => { Touch.setting with ports := true }
  | .frerResetStream _ => { Touch.mail with frer := true }
  | .redGetHealth _ => .mail
  | .redSwitchover _ =>
      { Touch.mail with
        clusters := true, fix := true, redCtr := true, mps := true, healthGen := true }
  | .redResync _ => { Touch.mail with clusters := true, mps := true, healthGen := true }
  | .redGetCounters _ => .mail
  | .fixSetCluster _ => { Touch.setting with fix := true, fixCtr := true, rate := true }
  | .fixGetFlow _ => .mail
  | .fixGetLog _ => .mail
  | .fixRelease _ => { Touch.mail with fix := true, fixCtr := true, rate := true }
  | .fixFlush _ => { Touch.mail with fix := true, flushes := true, fixCtr := true, rate := true }
  | .fixGetReceipt _ => .mail
  | .leavenGetCluster _ => .mail
  | .leavenSetEvents _ => { Touch.setting with cores := true }
  | .leavenGetCore _ => { Touch.mail with cores := true, free := true }
  | .fixGetCounters _ => .mail
  | .proofSetClass _ => { Touch.setting with pclasses := true }
  | .proofSetTarget _ =>
      { Touch.setting with
        ports := true, targets := true, drops := true, notices := true, proofCtr := true }
  | .proofSetState _ =>
      { Touch.mail with
        ports := true, targets := true, drops := true, notices := true, proofCtr := true }
  | .proofGetTarget _ => .mail
  | .shelfSet _ => { Touch.setting with drops := true }
  | .shelfGet _ => .mail
  | .shelfSetBus _ => { Touch.setting with buses := true }
  | .proofGetCounters _ => .mail
  | .devGetInfo _ => .mail
  | .devGetResult _ => .mail
  | .devEcho _ => .mail
  | .devRestart _ =>
      { Touch.mail with
        prismBanks := true, gens := true, em := true, fwdCtr := true, swp := true, life := true, lostAsync := true,
        heldEvents := true, sets := true, domBake := true, membership := true, fwdReqs := true, sessions := true,
        slices := true }
  | .devGetCounters _ => .mail
  | .bakeOpen _ => { Touch.mail with sets := true }
  | .bakeCheck _ => .mail
  | .bakeCommit _ => { Touch.mail with heldEvents := true, sets := true }
  | .bakeAbort _ =>
      { Touch.mail with
        prismBanks := true, gens := true, em := true, fwdCtr := true, heldEvents := true, sets := true,
        domBake := true }
  | .bakeGetSet _ => .mail
  | .domSetPort _ => { Touch.mail with ports := true, snapshot := true, heldShadow := true }
  | .domAdmit _ => { Touch.mail with snapshot := true, heldShadow := true }
  | .domGetStatus _ => .mail
  | .domForward _ => { Touch.mail with fwdReqs := true }
  | .domBake _ =>
      { Touch.mail with
        prismBanks := true, gens := true, em := true, fwdCtr := true, heldEvents := true, sets := true,
        domBake := true }
  | .domAbort _ =>
      { Touch.mail with
        prismBanks := true, gens := true, em := true, fwdCtr := true, heldEvents := true, sets := true,
        domBake := true }
  | .domLeave _ =>
      { Touch.mail with
        prismBanks := true, gens := true, em := true, fwdCtr := true, sets := true, membership := true }
  | .idGetInfo _ => .mail
  | .idGetCert _ => .mail
  | .idGetMeasurements _ => .mail
  | .idWriteImage _ => { Touch.mail with slots := true, free := true }
  | .idVerifyImage _ => { Touch.mail with slots := true }
  | .idSetBoot _ => { Touch.mail with bootCfg := true }
  | .idCommitSvn _ => { Touch.mail with minSvn := true }
  | .idPinManager _ => { Touch.mail with pin := true }
  | .telSetMirror _ => { Touch.setting with mirrors := true }
  | .telSetPortMirror _ => { Touch.setting with ports := true }
  | .telGetMirror _ => .mail
  | .telGetDrops _ => .mail
  | .telGetCounters _ => .mail
  | .pwrGetStatus _ => .mail
  | .pwrSetDroop _ => { Touch.setting with slices := true }
  | .pwrSetThermal _ => { Touch.setting with warnC := true }
  | .pwrSliceReset _ =>
      { Touch.slice with
        pools := true, mbxCtr := true, boxes := true, jobs := true, hist := true, peers := true, msgs := true }
  | .pwrSlicePark _ =>
      { Touch.port with
        prismFlight := true, hits := true, recirc := true, merge := true, fwdFlight := true, learnQ := true,
        cells := true, portClass := true, queues := true, spillVoqs := true, pools := true, voqs := true,
        multiQ := true, links := true, loupeItems := true, clusters := true, cores := true, flows := true,
        fix := true, fixCtr := true, proofCtr := true, mbxCtr := true, pwrCtr := true, rate := true, boxes := true,
        jobs := true, hist := true, heldShadow := true, peers := true, msgs := true, slices := true }
  | .pwrRestore _ => { Touch.mail with heldEvents := true, sets := true }
  | .pwrGetCounters _ => .mail
  | .mbxDoorbell _ _ => .mail
  | .mbxRelease _ => { boxes := true }
  | .mbxAreaWrite _ _ _ => { evt := true, telCtr := true, mbxCtr := true, boxes := true, irq := true, out := true }
  | .timeCapture _ => { time := true, evt := true, telCtr := true, irq := true, out := true }
  | .txtsPop _ _ => { tsFifos := true, evt := true, telCtr := true, irq := true, out := true }
  | .dmaStart _ _ _ =>
      { evt := true, telCtr := true, irq := true, chans := true, fifos := true, waitFetch := true, out := true }
  | .dmaStop _ _ _ =>
      { evt := true, telCtr := true, irq := true, chans := true, fifos := true, waitFetch := true, out := true }
  | .dmaAbort _ _ _ =>
      { evt := true, telCtr := true, irq := true, chans := true, fifos := true, waitFetch := true, out := true }
  | .dmaDoorbell _ _ _ => { evt := true, telCtr := true, irq := true, chans := true, waitFetch := true, out := true }
  | .descriptorFetched _ _ =>
      { evt := true, telCtr := true, irq := true, chans := true, fifos := true, waitFetch := true, out := true }
  | .staleDescReread _ _ =>
      { evt := true, telCtr := true, irq := true, chans := true, fifos := true, waitFetch := true, out := true }
  | .dmaTransferDone _ _ _ =>
      { fix := true, evt := true, telCtr := true, irq := true, chans := true, fifos := true, waitFetch := true,
        staging := true, out := true, free := true }
  | .strictFlushDone _ => { irq := true, chans := true, fifos := true, waitFetch := true, out := true }
  | .tailRefetched _ _ =>
      { evt := true, telCtr := true, irq := true, chans := true, fifos := true, waitFetch := true, out := true }
  | .intPendingClear _ _ _ _ => { evt := true, telCtr := true, irq := true, out := true }
  | .intMapWrite _ _ _ => { evt := true, telCtr := true, irq := true, intMap := true, out := true }
  | .msixUnmask _ _ => { evt := true, telCtr := true, irq := true, out := true }
  | .reservedWrite _ _ _ => { evt := true, telCtr := true, irq := true, out := true }
  | .badSizeAccess _ _ _ _ => { evt := true, telCtr := true, irq := true, out := true }
  | .registerWrite _ _ _ _ =>
      { Touch.mail with
        time := true, tsFifos := true, evtRegs := true, swpRegs := true, swp := true, rate := true, sessions := true,
        intMap := true, msix := true, chans := true, fifos := true, waitFetch := true, free := true }
  | .sweepSnap _ _ =>
      { evt := true, swpRegs := true, swp := true, telCtr := true, portCtr := true, rate := true, irq := true,
        out := true, free := true }
  | .sweepRingReset _ _ _ =>
      { evt := true, swpRegs := true, swp := true, telCtr := true, portCtr := true, rate := true, irq := true,
        out := true, free := true }
  | .sweepHeadWrite _ _ _ => { evt := true, swpRegs := true, swp := true, telCtr := true, irq := true, out := true }
  | .evtRingReset _ _ => { evtRegs := true, evt := true, telCtr := true, irq := true, out := true }
  | .evtEnableWrite _ _ => { evtRegs := true, evt := true, telCtr := true, irq := true, out := true }
  | .evtHeadWrite _ _ => { evtRegs := true, evt := true, telCtr := true, irq := true, out := true }
  | .porstNLow => .reset
  | .porstNRise _ => { resets := true }
  | .wrstNLow => .reset
  | .wrstNRise => { resets := true }
  | .moarasBootDone =>
      { groups := true, seeds := true, planes := true, clusters := true, evt := true, telCtr := true, life := true,
        epoch := true, slots := true, bootCfg := true, image := true, resets := true, hbms := true, mps := true,
        healthGen := true, repairLog := true, irq := true, out := true, free := true }
  | .supplyFault => { Touch.reset with free := true }
  | .pcieFunctionReset _ _ =>
      { time := true, tsFifos := true, evtRegs := true, evt := true, swpRegs := true, swp := true, telCtr := true,
        boxes := true, jobs := true, sessions := true, irq := true, intMap := true, msix := true, chans := true,
        fifos := true, waitFetch := true, out := true }
  | .hostLinkLoss _ =>
      { time := true, tsFifos := true, evtRegs := true, evt := true, swpRegs := true, swp := true, telCtr := true,
        boxes := true, jobs := true, sessions := true, irq := true, intMap := true, msix := true, chans := true,
        fifos := true, waitFetch := true, out := true }
  | .d3hotEntry _ => { irq := true, chans := true, fifos := true }
  | .droopTrip _ => { clusters := true, pwrCtr := true, shares := true, slices := true }
  | .stretchHoldEnd _ _ =>
      { clusters := true, evt := true, telCtr := true, pwrCtr := true, shares := true, rate := true, slices := true,
        irq := true, out := true }
  | .thermalSample _ => { Touch.reset with out := true, free := true }
  | .thermalClearTimer _ =>
      { clusters := true, evt := true, telCtr := true, thermal := true, irq := true, out := true }
  | .lifeHourTick _ => { resets := true, thermal := true }
  | .hbmCorrectableError _ _ _ =>
      { evt := true, telCtr := true, pwrCtr := true, hbms := true, repairLog := true, irq := true, out := true }
  | .hbmUncorrectableRead _ _ _ _ =>
      { ports := true, prismFlight := true, recirc := true, merge := true, fwdCtr := true, cells := true,
        portClass := true, queues := true, spillVoqs := true, bufCtr := true, pkts := true, voqs := true,
        multiQ := true, pairs := true, fabCtr := true, schedCtr := true, fix := true, targets := true, drops := true,
        notices := true, proofCtr := true, evt := true, mirCtr := true, telCtr := true, dropCtr := true,
        portCtr := true, prismCtr := true, timeCtr := true, pwrCtr := true, shares := true, hbms := true,
        healthGen := true, repairLog := true, irq := true, chans := true, fifos := true, waitFetch := true,
        staging := true, out := true, free := true }
  | .hbmPcSpareDone _ =>
      { evt := true, telCtr := true, hbms := true, healthGen := true, repairLog := true, irq := true, out := true }
  | .ppsInEdge =>
      { Touch.port with
        time := true, ptp := true, tsFifos := true, gates := true, groups := true, prismBanks := true,
        prismFlight := true, hits := true, recirc := true, merge := true, gens := true, fwdFlight := true, em := true,
        learnQ := true, agePeriod := true, cells := true, classes := true, portClass := true, wred := true,
        queues := true, spillVoqs := true, pools := true, fabParams := true, voqs := true, multiQ := true,
        links := true, pol := true, loupeProf := true, loupeQueue := true, loupeItems := true, frer := true,
        clusters := true, cores := true, flows := true, fix := true, fixCtr := true, pclasses := true,
        targets := true, drops := true, buses := true, notices := true, proofCtr := true, mbxCtr := true,
        pwrCtr := true, rate := true, boxes := true, jobs := true, hist := true, heldEvents := true, sets := true,
        epoch := true, snapshot := true, heldShadow := true, peers := true, msgs := true, domBake := true,
        timeOffset := true, slices := true, warnC := true, regions := true, margins := true }
  | .ppsInTimeout => { time := true, evt := true, telCtr := true, irq := true, out := true }
  | .ppsOutEdge => { time := true }
  | .frameIngress _ _ _ =>
      { Touch.path with
        lanes := true, prismFlight := true, hits := true, recirc := true, merge := true, fwdFlight := true,
        em := true, learnQ := true, cells := true, portClass := true, queues := true, spillVoqs := true, lfsr := true,
        voqs := true, multiQ := true, pairs := true, links := true, arb := true, pol := true, frer := true,
        cores := true, flows := true, fix := true, fixCtr := true, targets := true, drops := true, notices := true,
        proofCtr := true, redCtr := true, frerCtr := true, rate := true, healthGen := true }
  | .frameTailReceived _ _ =>
      { Touch.path with
        lanes := true, prismFlight := true, recirc := true, merge := true, fwdFlight := true, cells := true,
        portClass := true, queues := true, spillVoqs := true, lfsr := true, voqs := true, multiQ := true,
        pairs := true, links := true, arb := true, cores := true, flows := true, fix := true, fixCtr := true,
        targets := true, drops := true, notices := true, proofCtr := true, rate := true, healthGen := true }
  | .recirculationPass _ =>
      { Touch.path with
        lanes := true, prismFlight := true, hits := true, recirc := true, merge := true, fwdFlight := true,
        em := true, learnQ := true, cells := true, portClass := true, queues := true, spillVoqs := true, lfsr := true,
        voqs := true, multiQ := true, pairs := true, links := true, arb := true, pol := true, frer := true,
        cores := true, flows := true, fix := true, fixCtr := true, targets := true, drops := true, notices := true,
        proofCtr := true, redCtr := true, frerCtr := true, rate := true, healthGen := true }
  | .mirrorQueueAdmit _ =>
      { Touch.path with
        lanes := true, prismFlight := true, recirc := true, merge := true, fwdFlight := true, cells := true,
        portClass := true, queues := true, spillVoqs := true, lfsr := true, voqs := true, multiQ := true,
        pairs := true, links := true, arb := true, rate := true, healthGen := true }
  | .pauseFrameReceived _ _ _ =>
      { ports := true, fwdCtr := true, bufCtr := true, pkts := true, nextPkt := true, fabCtr := true,
        schedCtr := true, mirrors := true, cand := true, mirQ := true, mirCtr := true, telCtr := true,
        dropCtr := true, portCtr := true, prismCtr := true, timeCtr := true, shares := true, free := true }
  | .pfcFrameReceived _ _ _ =>
      { ports := true, fwdCtr := true, bufCtr := true, pkts := true, nextPkt := true, fabCtr := true,
        schedCtr := true, mirrors := true, cand := true, mirQ := true, mirCtr := true, telCtr := true,
        dropCtr := true, portCtr := true, prismCtr := true, timeCtr := true, shares := true, free := true }
  | .pauseExpiry _ _ => { ports := true }
  | .pfcWatchdogExpiry _ _ =>
      { Touch.path with
        pairs := true, fabPorts := true, nodes := true, egq := true, waitTx := true }
  | .pfcStormEndTimer _ _ => { ports := true, evt := true, telCtr := true, irq := true, out := true }
  | .pfcRefreshTimer _ => { ports := true, portCtr := true, out := true }
  | .linkDown _ => .port
  | .linkUp _ =>
      { lanes := true, ports := true, evt := true, telCtr := true, healthGen := true, irq := true, out := true }
  | .ltCapReceived _ _ _ =>
      { ports := true, fwdCtr := true, bufCtr := true, pkts := true, nextPkt := true, fabCtr := true,
        schedCtr := true, mirrors := true, cand := true, mirQ := true, mirCtr := true, telCtr := true,
        dropCtr := true, portCtr := true, prismCtr := true, timeCtr := true, shares := true, free := true }
  | .ltReqReceived _ _ _ => { Touch.path with lanes := true, healthGen := true }
  | .ltAckReceived _ _ _ => { Touch.path with lanes := true, healthGen := true }
  | .ltNakReceived _ _ _ =>
      { ports := true, fwdCtr := true, bufCtr := true, pkts := true, nextPkt := true, fabCtr := true,
        schedCtr := true, mirrors := true, cand := true, mirQ := true, mirCtr := true, telCtr := true,
        dropCtr := true, portCtr := true, prismCtr := true, timeCtr := true, shares := true, free := true }
  | .ltSwitchReceived _ _ _ => { Touch.path with lanes := true, healthGen := true }
  | .ltCapTick _ => { ports := true, portCtr := true, out := true }
  | .ltCapTimeout _ =>
      { lanes := true, ports := true, evt := true, telCtr := true, healthGen := true, irq := true, out := true }
  | .ltUtilWindow _ _ _ =>
      { lanes := true, ports := true, evt := true, telCtr := true, portCtr := true, healthGen := true, irq := true,
        out := true }
  | .ltReqTimeout _ =>
      { Touch.port with
        prismFlight := true, recirc := true, merge := true, fwdFlight := true, cells := true, portClass := true,
        queues := true, spillVoqs := true, voqs := true, multiQ := true, cores := true, flows := true, fix := true,
        fixCtr := true, targets := true, drops := true, notices := true, proofCtr := true, rate := true }
  | .ltSwitchTimeout _ _ =>
      { Touch.port with
        prismFlight := true, recirc := true, merge := true, fwdFlight := true, cells := true, portClass := true,
        queues := true, spillVoqs := true, voqs := true, multiQ := true, cores := true, flows := true, fix := true,
        fixCtr := true, targets := true, drops := true, notices := true, proofCtr := true, rate := true }
  | .lpiIdleTimer _ => { ports := true, portCtr := true }
  | .marginSample _ _ _ => { lanes := true, evt := true, telCtr := true, healthGen := true, irq := true, out := true }
  | .datapathFailure _ =>
      { Touch.port with
        groups := true, prismFlight := true, recirc := true, merge := true, fwdFlight := true, cells := true,
        portClass := true, queues := true, spillVoqs := true, voqs := true, multiQ := true, cores := true,
        flows := true, fix := true, fixCtr := true, targets := true, drops := true, notices := true, proofCtr := true,
        rate := true, repairLog := true }
  | .voqRequest _ _ => { voqs := true }
  | .grantDecision _ => { voqs := true, fabPorts := true, fabCtr := true, nodes := true, shares := true }
  | .grantReceived _ _ => { voqs := true, pairs := true, fabCtr := true, shares := true }
  | .standingCreditTimeout _ _ => { voqs := true, fabCtr := true, shares := true }
  | .creditRecall _ _ => { voqs := true, fabCtr := true, shares := true }
  | .creditReturnReceived _ _ => { voqs := true, fabPorts := true }
  | .cellSend _ =>
      { pkts := true, multiQ := true, pairs := true, links := true, arb := true, fabCtr := true, shares := true }
  | .cellArrived _ _ =>
      { fwdCtr := true, bufCtr := true, pkts := true, nextPkt := true, pairs := true, fabPorts := true, links := true,
        fabCtr := true, nodes := true, egq := true, schedCtr := true, mirrors := true, cand := true, mirQ := true,
        mirCtr := true, telCtr := true, dropCtr := true, portCtr := true, prismCtr := true, timeCtr := true,
        shares := true, free := true }
  | .linkNakReceived _ =>
      { planes := true, links := true, fabCtr := true, evt := true, telCtr := true, shares := true, rate := true,
        healthGen := true, repairLog := true, irq := true, out := true }
  | .linkAckTimeout _ =>
      { planes := true, links := true, fabCtr := true, evt := true, telCtr := true, shares := true, rate := true,
        healthGen := true, repairLog := true, irq := true, out := true }
  | .gapTimeout _ _ =>
      { fwdCtr := true, bufCtr := true, pkts := true, nextPkt := true, pairs := true, fabPorts := true,
        fabCtr := true, nodes := true, egq := true, schedCtr := true, evt := true, mirrors := true, cand := true,
        mirQ := true, mirCtr := true, telCtr := true, dropCtr := true, portCtr := true, prismCtr := true,
        timeCtr := true, shares := true, rate := true, irq := true, out := true, free := true }
  | .releaseCreditReceived _ _ =>
      { Touch.path with
        lanes := true, prismFlight := true, hits := true, recirc := true, merge := true, fwdFlight := true,
        em := true, learnQ := true, cells := true, portClass := true, queues := true, spillVoqs := true, lfsr := true,
        voqs := true, multiQ := true, pairs := true, links := true, arb := true, pol := true, frer := true,
        cores := true, flows := true, fix := true, fixCtr := true, targets := true, drops := true, notices := true,
        proofCtr := true, redCtr := true, frerCtr := true, rate := true, healthGen := true, fifos := true }
  | .planeFault _ _ =>
      { planes := true, links := true, evt := true, telCtr := true, healthGen := true, repairLog := true, irq := true,
        out := true }
  | .planeSwitchoverDone =>
      { planes := true, fabCtr := true, evt := true, telCtr := true, healthGen := true, irq := true, out := true }
  | .standbyTestLoss _ =>
      { planes := true, fabCtr := true, evt := true, telCtr := true, healthGen := true, repairLog := true,
        irq := true, out := true }
  | .planeResyncDone _ _ => { Touch.mail with planes := true, healthGen := true, repairLog := true }
  | .transmitDecision _ =>
      { tsFifos := true, gates := true, ports := true, nodes := true, egq := true, waitTx := true, schedCtr := true,
        evt := true, telCtr := true, portCtr := true, timeCtr := true, shares := true, rate := true, irq := true,
        fifos := true, out := true, free := true }
  | .frameTxComplete _ =>
      { ports := true, prismFlight := true, fwdCtr := true, bufCtr := true, pkts := true, nextPkt := true,
        pairs := true, fabPorts := true, fabCtr := true, nodes := true, egq := true, schedCtr := true,
        mirrors := true, cand := true, mirQ := true, mirCtr := true, telCtr := true, dropCtr := true, portCtr := true,
        prismCtr := true, timeCtr := true, shares := true, fifos := true, out := true, free := true }
  | .shaperRefill _ => { nodes := true, free := true }
  | .policerRefill _ => { pol := true, free := true }
  | .wredAverageUpdate _ => { queues := true, free := true }
  | .loupeSample _ =>
      { loupeItems := true, schedCtr := true, evt := true, swp := true, telCtr := true, shares := true, irq := true,
        out := true }
  | .spillReadback _ _ =>
      { ports := true, prismFlight := true, recirc := true, merge := true, fwdCtr := true, cells := true,
        portClass := true, queues := true, spillVoqs := true, bufCtr := true, pkts := true, nextPkt := true,
        voqs := true, multiQ := true, pairs := true, fabCtr := true, schedCtr := true, mirrors := true, cand := true,
        mirQ := true, mirCtr := true, telCtr := true, dropCtr := true, portCtr := true, prismCtr := true,
        timeCtr := true, shares := true, out := true, free := true }
  | .gateEvent _ => { gates := true }
  | .tsFifoRelay _ =>
      { tsFifos := true, ports := true, waitTx := true, evt := true, telCtr := true, portCtr := true, irq := true,
        out := true, free := true }
  | .ptpMessageProcess _ _ =>
      { Touch.port with
        time := true, ptp := true, tsFifos := true, gates := true, groups := true, prismBanks := true,
        prismFlight := true, hits := true, recirc := true, merge := true, gens := true, fwdFlight := true, em := true,
        learnQ := true, agePeriod := true, cells := true, classes := true, portClass := true, wred := true,
        queues := true, spillVoqs := true, pools := true, fabParams := true, voqs := true, multiQ := true,
        links := true, pol := true, loupeProf := true, loupeQueue := true, loupeItems := true, frer := true,
        clusters := true, cores := true, flows := true, fix := true, fixCtr := true, pclasses := true,
        targets := true, drops := true, buses := true, notices := true, proofCtr := true, mbxCtr := true,
        pwrCtr := true, rate := true, boxes := true, jobs := true, hist := true, heldEvents := true, sets := true,
        epoch := true, snapshot := true, heldShadow := true, peers := true, msgs := true, domBake := true,
        timeOffset := true, slices := true, warnC := true, regions := true, margins := true }
  | .ptpAnnounceTimeout => { time := true, ports := true, evt := true, telCtr := true, irq := true, out := true }
  | .learnInsert _ =>
      { em := true, learnQ := true, fwdCtr := true, evt := true, telCtr := true, rate := true, irq := true,
        out := true }
  | .agingVisit _ => { em := true, fwdCtr := true }
  | .scrubRead _ _ _ =>
      { em := true, fwdCtr := true, badTable := true, evt := true, telCtr := true, irq := true, out := true }
  | .parityRestore _ _ => { em := true, fwdCtr := true, badTable := true }
  | .tableNormalise => { gens := true, em := true, fwdCtr := true }
  | .frerResetTimer _ => { frer := true, redCtr := true, frerCtr := true }
  | .frerLatentTest _ => { evt := true, telCtr := true, redCtr := true, frerCtr := true, irq := true, out := true }
  | .frerLatentReset _ => { frer := true }
  | .coreFailure _ _ =>
      { clusters := true, cores := true, flows := true, fix := true, fixCtr := true, evt := true, telCtr := true,
        rate := true, healthGen := true, repairLog := true, irq := true, out := true, free := true }
  | .coreWatchdogExpiry _ _ =>
      { clusters := true, cores := true, flows := true, fix := true, fixCtr := true, evt := true, telCtr := true,
        rate := true, healthGen := true, repairLog := true, irq := true, out := true, free := true }
  | .coreSubstitution _ _ =>
      { clusters := true, flows := true, fix := true, fixCtr := true, evt := true, telCtr := true, redCtr := true,
        rate := true, healthGen := true, irq := true, out := true }
  | .spareSelftestDone _ _ _ =>
      { Touch.mail with
        clusters := true, cores := true, flows := true, fix := true, fixCtr := true, redCtr := true, rate := true,
        healthGen := true, repairLog := true, free := true }
  | .mpHeartbeatTick _ _ _ =>
      { evt := true, telCtr := true, life := true, mps := true, healthGen := true, repairLog := true, irq := true,
        out := true }
  | .mpFault _ =>
      { evt := true, telCtr := true, life := true, mps := true, healthGen := true, repairLog := true, irq := true,
        out := true }
  | .mpFailoverDone =>
      { Touch.slice with
        time := true, ptp := true, tsFifos := true, gates := true, groups := true, prismBanks := true, gens := true,
        em := true, agePeriod := true, classes := true, wred := true, pools := true, fabParams := true,
        planes := true, pol := true, loupeProf := true, loupeQueue := true, frer := true, clusters := true,
        flushes := true, pclasses := true, targets := true, drops := true, buses := true, notices := true,
        redCtr := true, mbxCtr := true, boxes := true, jobs := true, hist := true, life := true, lostAsync := true,
        heldEvents := true, sets := true, epoch := true, snapshot := true, heldShadow := true, peers := true,
        msgs := true, domBake := true, membership := true, fwdReqs := true, slots := true, bootCfg := true,
        minSvn := true, pin := true, sessions := true, warnC := true, regions := true, mps := true, repairLog := true,
        margins := true }
  | .mpRestartDone _ _ => { Touch.mail with redCtr := true, mps := true, healthGen := true, repairLog := true }
  | .skipNoticeArrival _ =>
      { flows := true, fix := true, fixCtr := true, evt := true, telCtr := true, rate := true, irq := true,
        out := true }
  | .fixWorkItemDone _ _ =>
      { cores := true, flows := true, fix := true, fixCtr := true, evt := true, telCtr := true, rate := true,
        irq := true, out := true }
  | .fixLogWriteTimeout _ _ =>
      { cores := true, flows := true, fix := true, fixCtr := true, evt := true, telCtr := true, rate := true,
        irq := true, out := true }
  | .batchTimer _ =>
      { fix := true, fixCtr := true, evt := true, telCtr := true, rate := true, irq := true, out := true }
  | .batchClose _ =>
      { fix := true, fixCtr := true, evt := true, telCtr := true, rate := true, irq := true, out := true }
  | .receiptSigned _ => { Touch.mail with fix := true, flushes := true, fixCtr := true, rate := true }
  | .holdTimerExpiry _ =>
      { ports := true, fwdCtr := true, bufCtr := true, pkts := true, fabCtr := true, schedCtr := true,
        targets := true, drops := true, notices := true, proofCtr := true, evt := true, mirCtr := true,
        telCtr := true, dropCtr := true, portCtr := true, prismCtr := true, timeCtr := true, shares := true,
        irq := true, out := true }
  | .idleSpindownTimer _ => { targets := true, drops := true, proofCtr := true }
  | .parkDrainRelease _ =>
      { Touch.path with
        lanes := true, prismFlight := true, recirc := true, merge := true, cells := true, portClass := true,
        queues := true, spillVoqs := true, voqs := true, multiQ := true, pairs := true, links := true, arb := true,
        targets := true, drops := true, notices := true, proofCtr := true, healthGen := true }
  | .pollCycleStart _ => { drops := true, buses := true, proofCtr := true }
  | .pollSlot _ => { drops := true, buses := true, proofCtr := true, out := true }
  | .shelfStatusReceived _ _ =>
      { ports := true, fwdCtr := true, bufCtr := true, pkts := true, fabCtr := true, schedCtr := true,
        targets := true, drops := true, buses := true, notices := true, proofCtr := true, evt := true, mirCtr := true,
        telCtr := true, dropCtr := true, portCtr := true, prismCtr := true, timeCtr := true, shares := true,
        irq := true, out := true }
  | .shelfAckReceived _ _ =>
      { ports := true, fwdCtr := true, bufCtr := true, pkts := true, fabCtr := true, schedCtr := true,
        targets := true, drops := true, buses := true, notices := true, proofCtr := true, evt := true, mirCtr := true,
        telCtr := true, dropCtr := true, portCtr := true, prismCtr := true, timeCtr := true, shares := true,
        irq := true, out := true }
  | .shelfIdentReceived _ _ =>
      { drops := true, buses := true, proofCtr := true, evt := true, telCtr := true, irq := true, out := true }
  | .shelfReplyTimeout _ =>
      { drops := true, buses := true, proofCtr := true, evt := true, telCtr := true, irq := true, out := true }
  | .hpfPointerMismatch _ =>
      { Touch.path with
        prismFlight := true, pairs := true, fabPorts := true, nodes := true, egq := true, chans := true,
        fifos := true, waitFetch := true }
  | .hpfPacketCommit _ =>
      { Touch.path with
        lanes := true, prismFlight := true, hits := true, recirc := true, merge := true, fwdFlight := true,
        em := true, learnQ := true, cells := true, portClass := true, queues := true, spillVoqs := true, lfsr := true,
        voqs := true, multiQ := true, pairs := true, fabPorts := true, links := true, arb := true, nodes := true,
        egq := true, pol := true, frer := true, cores := true, flows := true, fix := true, fixCtr := true,
        targets := true, drops := true, notices := true, proofCtr := true, redCtr := true, frerCtr := true,
        rate := true, healthGen := true, fifos := true }
  | .poolAlloc _ _ => { pools := true, bufCtr := true, evt := true, telCtr := true, irq := true, out := true }
  | .poolFree _ _ => { pools := true, bufCtr := true, evt := true, telCtr := true, irq := true, out := true }
  | .sweepInstant =>
      { evt := true, swpRegs := true, swp := true, telCtr := true, portCtr := true, rate := true, irq := true,
        out := true, free := true }
  | .sweepDumpWritten =>
      { evt := true, swpRegs := true, swp := true, telCtr := true, portCtr := true, rate := true, irq := true,
        out := true, free := true }
  | .bakeDrainTimeout =>
      { Touch.mail with
        prismBanks := true, gens := true, em := true, fwdCtr := true, heldEvents := true, sets := true,
        domBake := true }
  | .bakePrepareDone =>
      { Touch.mail with
        prismBanks := true, gens := true, em := true, fwdCtr := true, flows := true, heldEvents := true, sets := true,
        domBake := true }
  | .bakeInstant =>
      { Touch.port with
        time := true, ptp := true, tsFifos := true, gates := true, groups := true, prismBanks := true,
        prismFlight := true, hits := true, recirc := true, merge := true, gens := true, fwdFlight := true, em := true,
        learnQ := true, agePeriod := true, cells := true, classes := true, portClass := true, wred := true,
        queues := true, spillVoqs := true, pools := true, fabParams := true, voqs := true, multiQ := true,
        links := true, pol := true, loupeProf := true, loupeQueue := true, loupeItems := true, frer := true,
        clusters := true, cores := true, flows := true, fix := true, fixCtr := true, pclasses := true,
        targets := true, drops := true, buses := true, notices := true, proofCtr := true, mbxCtr := true,
        pwrCtr := true, rate := true, boxes := true, jobs := true, hist := true, heldEvents := true, sets := true,
        epoch := true, snapshot := true, heldShadow := true, peers := true, msgs := true, domBake := true,
        slices := true, warnC := true, regions := true, margins := true }
  | .heartbeatTick =>
      { waitTx := true, evt := true, telCtr := true, portCtr := true, peers := true, msgs := true, irq := true,
        out := true }
  | .managerLossTimeout =>
      { Touch.mail with
        prismBanks := true, gens := true, em := true, fwdCtr := true, sets := true, membership := true }
  | .heartbeat _ =>
      { fwdCtr := true, bufCtr := true, pkts := true, nextPkt := true, fabCtr := true, waitTx := true,
        schedCtr := true, evt := true, mirrors := true, cand := true, mirQ := true, mirCtr := true, telCtr := true,
        dropCtr := true, portCtr := true, prismCtr := true, timeCtr := true, shares := true, rate := true,
        peers := true, msgs := true, membership := true, authFails := true, irq := true, out := true, free := true }
  | .heartbeatAck _ =>
      { fwdCtr := true, bufCtr := true, pkts := true, nextPkt := true, fabCtr := true, waitTx := true,
        schedCtr := true, evt := true, mirrors := true, cand := true, mirQ := true, mirCtr := true, telCtr := true,
        dropCtr := true, portCtr := true, prismCtr := true, timeCtr := true, shares := true, rate := true,
        peers := true, msgs := true, authFails := true, irq := true, out := true, free := true }
  | .received _ =>
      { fwdCtr := true, bufCtr := true, pkts := true, nextPkt := true, fabCtr := true, waitTx := true,
        schedCtr := true, evt := true, mirrors := true, cand := true, mirQ := true, mirCtr := true, telCtr := true,
        dropCtr := true, portCtr := true, prismCtr := true, timeCtr := true, shares := true, rate := true,
        peers := true, msgs := true, authFails := true, irq := true, out := true, free := true }
  | .domainResendTimeout _ _ => { Touch.mail with membership := true, fwdReqs := true }
  | .forwardReq _ =>
      { Touch.slice with
        time := true, ptp := true, tsFifos := true, gates := true, groups := true, prismBanks := true, gens := true,
        em := true, agePeriod := true, classes := true, wred := true, pools := true, fabParams := true,
        planes := true, pol := true, loupeProf := true, loupeQueue := true, frer := true, clusters := true,
        flushes := true, pclasses := true, targets := true, drops := true, buses := true, notices := true,
        redCtr := true, mbxCtr := true, boxes := true, jobs := true, hist := true, life := true, lostAsync := true,
        heldEvents := true, sets := true, epoch := true, snapshot := true, heldShadow := true, peers := true,
        msgs := true, domBake := true, membership := true, authFails := true, fwdReqs := true, slots := true,
        bootCfg := true, minSvn := true, pin := true, sessions := true, warnC := true, regions := true, mps := true,
        repairLog := true, margins := true }
  | .forwardRsp _ =>
      { Touch.mail with
        fwdCtr := true, pkts := true, nextPkt := true, fabCtr := true, schedCtr := true, mirrors := true,
        cand := true, mirQ := true, mirCtr := true, dropCtr := true, prismCtr := true, timeCtr := true,
        shares := true, rate := true, authFails := true, fwdReqs := true, free := true }
  | .prepare _ =>
      { fwdCtr := true, bufCtr := true, pkts := true, nextPkt := true, fabCtr := true, waitTx := true,
        schedCtr := true, evt := true, mirrors := true, cand := true, mirQ := true, mirCtr := true, telCtr := true,
        dropCtr := true, portCtr := true, prismCtr := true, timeCtr := true, shares := true, rate := true,
        heldEvents := true, sets := true, peers := true, msgs := true, authFails := true, irq := true, out := true,
        free := true }
  | .vote _ =>
      { Touch.mail with
        prismBanks := true, gens := true, em := true, fwdCtr := true, pkts := true, nextPkt := true, fabCtr := true,
        schedCtr := true, mirrors := true, cand := true, mirQ := true, mirCtr := true, dropCtr := true,
        prismCtr := true, timeCtr := true, shares := true, rate := true, heldEvents := true, sets := true,
        domBake := true, authFails := true, free := true }
  | .commit _ =>
      { fwdCtr := true, bufCtr := true, pkts := true, nextPkt := true, fabCtr := true, waitTx := true,
        schedCtr := true, evt := true, mirrors := true, cand := true, mirQ := true, mirCtr := true, telCtr := true,
        dropCtr := true, portCtr := true, prismCtr := true, timeCtr := true, shares := true, rate := true,
        sets := true, peers := true, msgs := true, authFails := true, irq := true, out := true, free := true }
  | .ack _ =>
      { fwdCtr := true, bufCtr := true, pkts := true, nextPkt := true, fabCtr := true, waitTx := true,
        schedCtr := true, evt := true, mirrors := true, cand := true, mirQ := true, mirCtr := true, telCtr := true,
        dropCtr := true, portCtr := true, prismCtr := true, timeCtr := true, shares := true, rate := true,
        sets := true, peers := true, msgs := true, domBake := true, authFails := true, irq := true, out := true,
        free := true }
  | .go _ =>
      { fwdCtr := true, bufCtr := true, pkts := true, nextPkt := true, fabCtr := true, waitTx := true,
        schedCtr := true, evt := true, mirrors := true, cand := true, mirQ := true, mirCtr := true, telCtr := true,
        dropCtr := true, portCtr := true, prismCtr := true, timeCtr := true, shares := true, rate := true,
        sets := true, peers := true, msgs := true, authFails := true, irq := true, out := true, free := true }
  | .abort _ =>
      { prismBanks := true, gens := true, em := true, fwdCtr := true, bufCtr := true, pkts := true, nextPkt := true,
        fabCtr := true, waitTx := true, schedCtr := true, evt := true, mirrors := true, cand := true, mirQ := true,
        mirCtr := true, telCtr := true, dropCtr := true, portCtr := true, prismCtr := true, timeCtr := true,
        shares := true, rate := true, heldEvents := true, sets := true, peers := true, msgs := true,
        authFails := true, irq := true, out := true, free := true }
  | .outcomeQuery _ =>
      { fwdCtr := true, bufCtr := true, pkts := true, nextPkt := true, fabCtr := true, waitTx := true,
        schedCtr := true, evt := true, mirrors := true, cand := true, mirQ := true, mirCtr := true, telCtr := true,
        dropCtr := true, portCtr := true, prismCtr := true, timeCtr := true, shares := true, rate := true,
        peers := true, msgs := true, authFails := true, irq := true, out := true, free := true }
  | .outcome _ =>
      { prismBanks := true, gens := true, em := true, fwdCtr := true, bufCtr := true, pkts := true, nextPkt := true,
        fabCtr := true, waitTx := true, schedCtr := true, evt := true, mirrors := true, cand := true, mirQ := true,
        mirCtr := true, telCtr := true, dropCtr := true, portCtr := true, prismCtr := true, timeCtr := true,
        shares := true, rate := true, heldEvents := true, sets := true, peers := true, msgs := true,
        authFails := true, irq := true, out := true, free := true }
  | .outcomeQueryTimer => { waitTx := true, portCtr := true, peers := true, msgs := true, out := true }
  | .voteDeadline =>
      { Touch.mail with
        prismBanks := true, gens := true, em := true, fwdCtr := true, heldEvents := true, sets := true,
        domBake := true }
  | .ackDeadline =>
      { Touch.mail with
        prismBanks := true, gens := true, em := true, fwdCtr := true, heldEvents := true, sets := true,
        domBake := true }
  | .enrol _ _ _ _ =>
      { Touch.mail with
        prismBanks := true, gens := true, em := true, fwdCtr := true, pkts := true, nextPkt := true, fabCtr := true,
        schedCtr := true, mirrors := true, cand := true, mirQ := true, mirCtr := true, dropCtr := true,
        prismCtr := true, timeCtr := true, shares := true, rate := true, sets := true, membership := true,
        authFails := true, free := true }
  | .enrolTick => { waitTx := true, portCtr := true, msgs := true, membership := true, out := true }
  | .keyUpdateTimer _ => { waitTx := true, portCtr := true, peers := true, msgs := true, out := true }
  | .spdmRequest _ _ => { evt := true, telCtr := true, sessions := true, irq := true, out := true, free := true }
  | .moarasWatchdog _ =>
      { prismBanks := true, gens := true, em := true, fwdCtr := true, pools := true, bufCtr := true, evt := true,
        swp := true, telCtr := true, mbxCtr := true, boxes := true, jobs := true, hist := true, life := true,
        lostAsync := true, heldEvents := true, sets := true, peers := true, msgs := true, domBake := true,
        membership := true, fwdReqs := true, sessions := true, slices := true, irq := true, out := true }
  | .moarasRestartDone =>
      { Touch.port with
        time := true, fix := true, fixCtr := true, rate := true, life := true, lostAsync := true, heldEvents := true,
        slots := true, bootCfg := true, image := true, mps := true }
  | .sliceFault _ => .slice
  | .sliceRestoreDone _ => { Touch.mail with ports := true, pwrCtr := true, heldEvents := true, slices := true }
  | .ltReceiversLocked _ =>
      { lanes := true, ports := true, evt := true, telCtr := true, portCtr := true, healthGen := true, irq := true,
        out := true }
  | .ltAlignmentLost _ =>
      { Touch.port with
        prismFlight := true, recirc := true, merge := true, fwdFlight := true, cells := true, portClass := true,
        queues := true, spillVoqs := true, voqs := true, multiQ := true, cores := true, flows := true, fix := true,
        fixCtr := true, targets := true, drops := true, notices := true, proofCtr := true, rate := true }
  | .spareDatapathFailed _ =>
      { groups := true, evt := true, telCtr := true, redCtr := true, healthGen := true, repairLog := true,
        irq := true, out := true }
  | .shelfReplyDiscarded _ _ =>
      { drops := true, buses := true, proofCtr := true, evt := true, telCtr := true, irq := true, out := true }
  | .dmaReadError _ =>
      { evt := true, telCtr := true, irq := true, chans := true, fifos := true, waitFetch := true, out := true,
        free := true }
  | .pcieLinkUp _ _ _ _ => { irq := true }
  | .suppliesValid => { resets := true }
  | .timeSlewComplete => { time := true }
  | .ppsOutFall => { time := true }
  | .ptpIntervalTick =>
      { tsFifos := true, ports := true, waitTx := true, evt := true, telCtr := true, portCtr := true, timeCtr := true,
        rate := true, irq := true, out := true, free := true }
  | .lpiWakeComplete _ => { ports := true, portCtr := true, out := true }

end Sys2Proof.Machine
end

