-- ==== Sys2Proof/Certificates/Slice0/Obligations.lean ====
section
/-! DEFINITION. The statements for the provers. -/

section

open Sys2Proof Sys2Proof.Machine

/-- For every command and state, a step with the command at the front of the queue is exec of that command on the state
with the queue's rest. (R394) -/
def Obligations.StepRunsFront : Prop :=
  ∀ (i : Instr) (rest : List Instr) (s : State), s.pending = i :: rest → step s = exec i { s with pending := rest }

/-- The model's choice (log entry 1): with no command waiting, a step is one tick of 1.25 ns, which advances the time
base at the trim in force and is counted. Where the tick reaches no instant and no console line, every other part of the
state stays. Where it reaches the instant of a bake, the step does what BAKE_INSTANT does there, and a boot ROM that
found no image sends its console line when the second since the last one is over. (R214, R217, R415, R445) -/
def Obligations.IdleTick : Prop :=
  ∀ (s u : State), s.pending = [] → u = { s with time := s.time.tick, up := s.up + 1 } →
    ((∀ b, u.bake.armed = some b → u.nowNs < b.at') → (∀ d, u.bake.dom = some d → u.nowNs < d.at') →
      (∀ c, u.ident.console = some c → u.upNs < c + 1000000000) →
      step s = .next u ∧ Frame { time := true, up := true } s u)
    ∧ ∀ v, exec .bakeInstant u = .next v →
      ((∀ c, v.ident.console = some c → v.upNs < c + 1000000000) → step s = .next v)
      ∧ ∀ c, v.ident.console = some c → c + 1000000000 ≤ v.upNs →
        step s = .next { v with ident := { v.ident with console := some v.upNs },
                                out := .console v.ident.slotA.result v.ident.slotB.result :: v.out }

/-- At reset the time base reads 0 and is UNSET; Moaras is not ready; every mailbox is FREE and every DMA channel
STOPPED; planes 0 to 3 are ACTIVE and plane 4 STANDBY; TC4 to TC6 are lossless; MP-A is active and MP-B standby; no set
is staged; every mirror session is disabled; the HBM is divided as R27's defaults. The model's choices: nothing is
listed in a mailbox area (log entry 6) or in the staging region (log entry 5), and the state after reset is the one
after PORST_N's rise, in which MP-A is active (log entry 27). (R27, R133, R180, R216, R264, R347, R382, R400, R406,
R472) -/
def Obligations.ResetValues : Prop :=
  State.reset.time.sec = 0 ∧ State.reset.time.ns = 0 ∧ State.reset.time.state = .unset ∧ State.reset.mbx.ready = false
  ∧ (∀ n, (State.reset.box n).state = .free ∧ (State.reset.box n).req = []) ∧ (∀ n, (State.reset.chan n).state = .stopped)
  ∧ (∀ p, p < 4 → (State.reset.plane p).state = .active) ∧ (State.reset.plane 4).state = .standby
  ∧ (∀ c, c < 8 → ((State.reset.classCfg c).lossless = true ↔ 4 ≤ c ∧ c ≤ 6))
  ∧ (State.reset.mp 0).state = .active ∧ (State.reset.mp 1).state = .standby
  ∧ State.reset.bake.sets = [] ∧ (∀ m, (State.reset.mirrorOf m).enable = false)
  ∧ State.reset.pwr.regions = [48, 24, 4, 4, 2, 14] ∧ (∀ n, (State.reset.box n).resp = []) ∧ State.reset.host.staging = [] ∧ State.reset.pending = []

/-- State.reset meets the invariant that every step keeps: time of day in range, memories in canonical form, tag
histories, sessions and held events within their limits. (R214, R354, R381, R391, R441, R448, R470) -/
def Obligations.ResetIsGood : Prop := State.reset.Good

/-- From every good state, whatever command stands at the front of the queue, a step that answers a next state leaves a
good state: the nanoseconds stay below 10^9, every listed memory stays in canonical form, a tag history holds at most
4,096 commands, SPDM sessions stay within 2, 2 and 1, and at most 1,024 event entries are held on chip. (R214, R354,
R381, R391, R441, R448, R470) -/
def Obligations.StepKeepsGood : Prop := ∀ (s t : State), s.Good → step s = .next t → t.Good

/-- The table `touches` names for every command the parts of the state it may change, out of 125; whenever a command
answers a next state, every other part is as before, the queue of waiting commands among them. (R11, R34, R84, R113,
R382, R456, R497) -/
def Obligations.CommandsTouch : Prop :=
  ∀ (i : Instr) (s t : State), exec i s = .next t → Frame (touches i) s t

/-- For every command and state: exec never refuses; it faults only where an operand lies outside the range the spec
gives it, or the operands name function 1 in a device in x16, which has none; and there it does fault. That a command
about a missing unit stops is the model's choice (log entry 26). (R15, R185, R342, R381, R423) -/
def Obligations.OnlyMissingUnitsStop : Prop :=
  ∀ (i : Instr) (s : State), (∀ x, exec i s ≠ .refused x)
    ∧ (∀ e, exec i s = .fault e → i.wf = false ∨ namesFn1 i = true ∧ s.ident.bifurcated = false)
    ∧ (namesFn1 i = true → s.ident.bifurcated = false → ∃ e, exec i s = .fault e)

/-- No command whose operands name units the device has ever stops, in x8 + x8, with two functions, and in x16, with
function 0 alone: exec answers a next state in every such state. (R15, R185, R342, R381, R423) -/
def Obligations.CommandsRun : Prop :=
  ∀ (i : Instr) (s : State), i.wf = true → (s.ident.bifurcated = true ∨ namesFn1 i = false) → ∃ t, exec i s = .next t

/-- Whatever command runs, but for ID_COMMIT_SVN itself and a forwarded request, which may be one, the minimum SVN is as
before: no reset, no boot and no bake moves it. (R446) -/
def Obligations.SvnOnlyByCommit : Prop :=
  ∀ (i : Instr) (s t : State), (∀ r, i ≠ .idCommitSvn r) → (∀ m, i ≠ .forwardReq m) → exec i s = .next t →
    t.ident.minSvn = s.ident.minSvn

/-- A MEM_SET_REGIONS that reaches Moaras with no envelope fault and tag 0, from a device whose role allows it: without
STAGE the response is NOT_PERMITTED; with STAGE and an open set a payload length other than 24 answers BAD_LENGTH;
neither moves anything but mail; with length 24, room in the set and for the command, and no queued command that must
take effect first, it is accepted and answers OK. (R33) -/
def Obligations.RegionsNeedStage : Prop :=
  ∀ (r : Req) (s : State) (t0 : SetSt), s.rings 0x0C02 r → r.tag = 0 → r.len ≤ 3824 → r.flagsRsvd = false →
    r.indirect = false → r.async = false → r.readOk = true → r.payload.length = r.len →
    (s.role = 0 ∨ s.role = 2 ∨ s.bake.enrolled = false) →
    (r.stage = false → ∃ t, exec (.memSetRegions r) s = .next t ∧ Posted t r (Resp.err stNotPermitted dStageRequired) ∧ MailOnly s t)
    ∧ (r.stage = true → r.setId ≠ 0 → s.bake.set? r.setId = some t0 → t0.state = .isOpen →
      (r.len ≠ 24 → ∃ t, exec (.memSetRegions r) s = .next t ∧ Posted t r (Resp.err stBadLength dNone) ∧ MailOnly s t)
      ∧ (r.len = 24 → (s.mbx.jobs.filter (fun j => j.op / 256 == 0x0C)).length < 256 →
        s.mbx.jobs.any (fun j => j.precedes 0x0C02 r) = false → s.setRoom t0 { op := 0x0C02, payload := r.payload } →
        ∃ t, exec (.memSetRegions r) s = .next t ∧ Posted t r (Resp.ok []) ∧
          t.bake.set? r.setId = some { t0 with cmds := addStaged t0.cmds { op := 0x0C02, payload := r.payload } }))

/-- What Moaras decides of a request with an opcode of the table is the first row of R390 that applies: length, reserved
flags, role, tag, STAGE, set, ASYNC, tag of an ASYNC request, payload length, indirect payload, response length, room;
where none applies the command is executed. A request with an opcode outside the table is refused for its length, then
for its reserved flags, else with BAD_OPCODE. (R385, R389, R390, R392, R395, R421) -/
def Obligations.EnvelopeOrder : Prop :=
  (∀ (s : State) (op : Nat) (r : Req), cmdInfo op = none →
    s.verdict op r = if (if r.indirect then 65536 else 3824) < r.len then .refuse (Resp.err stBadLength dNone) false
      else if r.flagsRsvd = true ∨ r.indirect = true ∧ r.indRsvd = true then .refuse (Resp.err stBadArg dBadFlags) false
      else .refuse (Resp.err stBadOpcode dNone) false)
  ∧ ∀ (s : State) (op : Nat) (r : Req) (c : CmdInfo), cmdInfo op = some c → r.box < 32 →
    s.verdict op r = ((firstRow
      [(decide ((if r.indirect then 65536 else 3824) < r.len), some (Verdict.refuse (Resp.err stBadLength dNone) false)),
       (r.flagsRsvd || r.indirect && r.indRsvd, some (.refuse (Resp.err stBadArg dBadFlags) false)),
       ((s.roleDetail c).isSome, (s.roleDetail c).map (fun d => .refuse (Resp.err stRoleError d) false)),
       ((s.tagVerdict (s.boxFn r.box) op r).isSome, s.tagVerdict (s.boxFn r.box) op r),
       (r.stage && c.stage == .no, some (.refuse (Resp.err stNotPermitted dStageNotAllowed) true)),
       (!r.stage && c.stage == .required, some (.refuse (Resp.err stNotPermitted dStageRequired) true)),
       ((s.setFault r).isSome, (s.setFault r).map (fun x => .refuse x true)),
       (!r.async && asyncNeeded c r.payload, some (.refuse (Resp.err stNotPermitted dAsyncRequired) true)),
       (r.async && r.tag == 0, some (.refuse (Resp.err stBadArg dTagRequired) true)),
       (!lenOk c.len r, some (.refuse (Resp.err stBadLength dNone) true)),
       (!r.readOk, some (.refuse (Resp.err stBadArg dIndirectRead) true)),
       (decide (reqRoom r < s.respNeed c (s.boxFn r.box) r), some (.refuse
         { Resp.err stBadLength dResponseTooLong with len := s.respNeed c (s.boxFn r.box) r } true)),
       ((s.busyDetail (s.boxFn r.box) c.op r).isSome,
         (s.busyDetail (s.boxFn r.box) c.op r).map (fun d => .refuse (Resp.err stBusy d) false))]).getD .accept)

/-- For every mailbox command but DEV_RESTART. In D3hot the doorbell reaches nothing. In a submitted mailbox the
doorbell is discarded and counted, and the mailbox, the jobs and the tag history stay. While Moaras is not ready BUSY
NOT_READY with bake epoch 0 is posted. During a failover of the management processors the mailbox becomes submitted and
its command waits for the new active processor. A request that fails a check gets its refusal, one whose tag is recorded
the recorded response as DUPLICATE_TAG, and one whose tag is still executing waits; none of these executes anything. A
request whose doorbell has been rung by MBX_DOORBELL is taken out of the queue and runs, unless one before it in the
queue must take effect first, or a failover is under way: then the row leaves everything as it is (log entries 2 and
29). (R266, R343, R382, R384, R391, R392, R393, R394) -/
def Obligations.RequestsChecked : Prop :=
  (∀ c ∈ mailboxCommands, ∀ (r : Req) (s : State), r.box < 32 → s.job? c.1 r false = none →
    (s.host.link (s.boxFn r.box)).d3 = true → Idles (c.2 r) s)
  ∧ (∀ c ∈ mailboxCommands, ∀ (r : Req) (s : State) (j : Job) (l m : List Job), s.queued c.1 r j l m →
    (∀ k ∈ l, ¬(k.op = c.1 ∧ k.req = r ∧ k.running = false)) →
    (s.pwr.failing.isSome = true ∨ (∃ k ∈ l, k.precedes c.1 r = true) → Idles (c.2 r) s)
    ∧ (s.pwr.failing = none → (∀ k ∈ l, k.precedes c.1 r = false) →
      Ends (c.2 r) s (fun t => t.waitingLike c.1 r < s.waitingLike c.1 r)))
  ∧ ∀ c ∈ mailboxCommands, ∀ (r : Req) (s : State), r.box < 32 → s.job? c.1 r false = none →
    (s.host.link (s.boxFn r.box)).d3 = false →
    ((s.box r.box).state = .submitted → Ends (c.2 r) s (fun t => MailOnly s t ∧ t.mbx.boxes = s.mbx.boxes ∧ t.mbx.jobs = s.mbx.jobs
      ∧ t.mbx.hist0 = s.mbx.hist0 ∧ t.mbx.hist1 = s.mbx.hist1
      ∧ Tab.get 0 t.tel.mbxCtr (8 * s.boxFn r.box + 7) = Tab.get 0 s.tel.mbxCtr (8 * s.boxFn r.box + 7) + 1))
    ∧ ((s.box r.box).state ≠ .submitted → s.mbx.ready = false → Ends (c.2 r) s (fun t => MailOnly s t ∧ t.mbx.jobs = s.mbx.jobs
      ∧ Posted t r { Resp.err stBusy dNotReady with epoch := some 0 }))
    ∧ ((s.box r.box).state ≠ .submitted → s.mbx.ready = true → s.pwr.failing.isSome → Ends (c.2 r) s (fun t => MailOnly s t
      ∧ t.mbx.jobs = s.mbx.jobs ∧ (t.box r.box).state = .submitted ∧ t.mbx.gapCmds = s.mbx.gapCmds ++ [s.newJob c.1 r]))
    ∧ (s.rings c.1 r → ∀ x kept, s.verdict c.1 r = .refuse x kept → Ends (c.2 r) s (fun t => MailOnly s t ∧ t.mbx.jobs = s.mbx.jobs
      ∧ Posted t r x))
    ∧ (s.rings c.1 r → ∀ h, s.verdict c.1 r = .replay h → Ends (c.2 r) s (fun t => MailOnly s t ∧ t.mbx.jobs = s.mbx.jobs
      ∧ t.mbx.hist0 = s.mbx.hist0 ∧ t.mbx.hist1 = s.mbx.hist1
      ∧ Posted t r ⟨stDuplicateTag, h.status, h.payload, h.rlen, some h.epoch⟩))
    ∧ (s.rings c.1 r → ∀ n, s.verdict c.1 r = .wait n → Ends (c.2 r) s (fun t => MailOnly s t
      ∧ (t.box r.box).state = .submitted ∧ t.mbx.jobs.length = s.mbx.jobs.length))

/-- For each of the configuration writes that the live route accepts: if its check fails with a status and a detail, the
response carries them, and nothing but mail moves. (R399, R407) -/
def Obligations.RefusedWritesChangeNothing : Prop :=
  ∀ w ∈ configWrites, ∀ (r : Req) (s : State) (e : Nat × Nat), s.fresh w.op r → r.stage = false →
    (∀ u, MailOnly s u → w.check r.payload u = some e) →
    Ends (w.cmd r) s (fun t => t.delivered w.op r (Resp.err e.1 e.2) ∧ MailOnly s t)

/-- Every write of configuration and every table write, the ones that are accepted only staged among them, but
LEAVEN_SET_EVENTS, which no set may stage: with STAGE, an open set and room in it, the command completes with OK, stands
in the set in place of an older write of the same item, and nothing moves but that set and mail; BUF_SET_HEADROOM
answers the headroom it will set. Commands: MEM_SET_REGIONS, PORT_SET_MODE, PORT_SET_MAC, PORT_SET_FLOW,
PORT_SET_THROTTLE, PORT_SET_EEE, PORT_SET_ADMIN, PORT_SET_MARGIN, PRISM_SET_PROFILE, PRISM_SET_SELECT, PRISM_SET_PORT,
PRISM_WRITE_RULE, FWD_INSERT, FWD_DELETE, FWD_SET_VLAN, FWD_SET_ROUTE, FWD_SET_NEXTHOP, FWD_SET_ECMP, FWD_SET_TEMPLATE,
FWD_SET_ROUTER, FWD_SET_LEARN, FWD_SET_AGING, BUF_SET_CLASS, BUF_SET_PORT_CLASS, BUF_SET_HEADROOM, BUF_SET_PFC_TX,
BUF_SET_WRED_PROFILE, BUF_SET_QUEUE, FAB_SET_PARAMS, FAB_SET_PORT, SCHED_SET_NODE, POL_SET, POL_SET_PORT,
LOUPE_SET_PROFILE, LOUPE_SET_QUEUE, TIME_SET_PTP, TIME_SET_PORT, TIME_SET_PPS, GATE_SET_LIST, FRER_SET_STREAM,
FRER_SET_PORT, FIX_SET_CLUSTER, PROOF_SET_CLASS, PROOF_SET_TARGET, SHELF_SET, SHELF_SET_BUS, TEL_SET_MIRROR,
TEL_SET_PORT_MIRROR, PWR_SET_DROOP, PWR_SET_THERMAL. (R77, R159, R183, R241, R406, R408) -/
def Obligations.StagedWritesRecorded : Prop :=
  (∀ w ∈ configWrites, w.op ≠ 0x0A08 → Recorded w.op w.cmd (fun _ _ => []))
  ∧ (∀ w ∈ stagedOnlyWrites ++ tableWrites, Recorded w.1 w.2 (fun _ _ => []))
  ∧ Recorded 0x0503 .bufSetHeadroom (fun r s => s.headroomAnswer r)

/-- Every read command that Moaras takes completes with some response, and nothing but mail moves: no counter it reads
is cleared, no table and no setting changes. Commands: MEM_GET_MAP, MEM_GET_HEALTH, PORT_GET_STATUS, PRISM_READ_RULE,
PRISM_GET_COUNTERS, PRISM_GET_RULE_COUNTERS, PRISM_GET_EPOCH, FWD_LOOKUP, FWD_GET_COUNTERS, FWD_GET_OCCUPANCY,
BUF_GET_STATUS, BUF_GET_COUNTERS, FAB_GET_STATUS, FAB_GET_PAIR, FAB_GET_COUNTERS, SCHED_GET_NODE, POL_GET,
SCHED_GET_COUNTERS, TIME_GET, GATE_GET_STATUS, TIME_GET_COUNTERS, FRER_GET_STREAM, RED_GET_HEALTH, RED_GET_COUNTERS,
FIX_GET_FLOW, FIX_GET_LOG, FIX_GET_RECEIPT, LEAVEN_GET_CLUSTER, FIX_GET_COUNTERS, PROOF_GET_TARGET, SHELF_GET,
PROOF_GET_COUNTERS, DEV_GET_INFO, DEV_GET_RESULT, DEV_ECHO, DEV_GET_COUNTERS, BAKE_CHECK, BAKE_GET_SET, DOM_GET_STATUS,
ID_GET_INFO, ID_GET_CERT, ID_GET_MEASUREMENTS, TEL_GET_MIRROR, TEL_GET_DROPS, TEL_GET_COUNTERS, PWR_GET_STATUS,
PWR_GET_COUNTERS. (R399, R404, R456) -/
def Obligations.ReadsMoveOnlyMail : Prop :=
  ∀ c ∈ readCommands, ∀ (r : Req) (s : State), s.fresh c.1 r → ∃ x, Ends (c.2 r) s (fun t => t.delivered c.1 r x ∧ MailOnly s t)

/-- MEM_GET_MAP answers with size and occupancy of the six regions; MEM_GET_HEALTH answers with repaired channels, spare
and corrected errors of the four stacks. Reads move nothing but mail. (R27, R32) -/
def Obligations.MemoryCommands : Prop :=
  Answered 0x0C01 .memGetMap (fun _ _ => True) (fun r s => (List.range 6).flatMap (fun k =>
    le 4 (s.pwr.regions.getD k 0) ++ le 4 (ceilDiv ((s.begun 0x0C01 r).occupancy k) (2 ^ 20))))
  ∧ Answered 0x0C03 .memGetHealth (fun _ _ => True) (fun _ s => (List.range 4).flatMap (fun k =>
    le 2 (s.stack k).repaired ++ le 1 (b2n ((s.stack k).spare == 1)) ++ le 1 0 ++ le 4 0 ++ le 8 (s.stack k).correctable))

/-- A live command that sets a port and passes its checks completes with OK and leaves what its payload gives:
PORT_SET_MODE the modes and FEC of its eight lanes, PORT_SET_MAC longest frame, VLAN and priority of its port,
PORT_SET_FLOW mode, PFC mask and watchdog, PORT_SET_THROTTLE and PORT_SET_EEE their settings, no other port changing,
PORT_SET_LANE_MAP maps and polarities of its lane group and of no other, PORT_SET_ADMIN the state, a port set down
losing its link, PORT_SET_MARGIN period and thresholds of the margin samples. (R36, R39, R40, R43, R45, R50, R53, R64,
R65, R67) -/
def Obligations.PortSettings : Prop :=
  Carried 0x0201 .portSetMode (fun p s => livePortSetMode p s = none)
    (fun p _ t => ∀ i, i < 8 → (t.lane (8 * rd p 0 2 + i)).mode = rd p (4 + 2 * i) 1
      ∧ (t.lane (8 * rd p 0 2 + i)).fec = rd p (5 + 2 * i) 1)
  ∧ Carried 0x0203 .portSetMac (fun p s => livePortSetMac p s = none)
    (fun p _ t => (t.port (rd p 0 2)).maxLen = rd p 2 2 ∧ (t.port (rd p 0 2)).pvid = rd p 4 2 ∧ (t.port (rd p 0 2)).pcp = rd p 6 1)
  ∧ Carried 0x0204 .portSetFlow (fun p s => livePortSetFlow p s = none)
    (fun p _ t => (t.port (rd p 0 2)).fcMode = rd p 2 1 ∧ (t.port (rd p 0 2)).pfcMask = rd p 3 1
      ∧ (t.port (rd p 0 2)).watchdog = rd p 4 2)
  ∧ Carried 0x0205 .portSetThrottle (fun p s => checkPortSetThrottle p s = none)
    (fun p s t => (t.port (rd p 0 2)).lt.enable = (rd p 2 1 == 1) ∧ (t.port (rd p 0 2)).lt.minWidth = rd p 3 1
      ∧ (t.port (rd p 0 2)).lt.threshold = rd p 4 1 ∧ (t.port (rd p 0 2)).lt.dwell = rd p 6 2
      ∧ (t.port (rd p 0 2)).lt.depth = rd p 8 2 ∧ ∀ m, m ≠ rd p 0 2 → t.port m = s.port m)
  ∧ Carried 0x0206 .portSetEee (fun p s => s.argPort p = true ∧ rd p 2 1 ≤ 1 ∧ resv p 3 1 = true
      ∧ (rd p 2 1 = 0 ∨ 1 ≤ rd p 4 4 ∧ rd p 4 4 ≤ 1000000) ∧ s.eeeFits (rd p 0 2) = true)
    (fun p s t => (t.port (rd p 0 2)).eee = (rd p 2 1 == 1) ∧ (t.port (rd p 0 2)).eeeTimer = rd p 4 4
      ∧ ∀ m, m ≠ rd p 0 2 → t.port m = s.port m)
  ∧ Carried 0x0207 .portSetLaneMap (fun p s => checkLaneMap p s = none)
    (fun p s t => (t.group (rd p 0 2)).txMap = chunks 1 (slice p 4 8) ∧ (t.group (rd p 0 2)).rxMap = chunks 1 (slice p 12 8)
      ∧ (t.group (rd p 0 2)).txPol = rd p 20 1 ∧ (t.group (rd p 0 2)).rxPol = rd p 21 1
      ∧ ∀ g, g ≠ rd p 0 2 → t.group g = s.group g)
  ∧ Carried 0x020A .portSetAdmin (fun p s => s.argPort p = true ∧ rd p 2 1 ≤ 1 ∧ resv p 3 1 = true)
    (fun p _ t => (t.port (rd p 0 2)).admin = (rd p 2 1 == 1) ∧ (rd p 2 1 = 0 → (t.port (rd p 0 2)).link = false))
  ∧ Carried 0x020B .portSetMargin (fun p _ => 1 ≤ rd p 0 2 ∧ rd p 0 2 ≤ 3600 ∧ resv p 6 2 = true)
    (fun p _ t => t.pwr.marginPeriod = rd p 0 2 ∧ t.pwr.marginH = rd p 2 2 ∧ t.pwr.marginW = rd p 4 2)

/-- PORT_GET_STATUS of an active port answers with its fields and moves nothing but mail. PORT_GET_COUNTERS answers with
its 22 counters, the FEC counters at what the FEC has counted by now, a free value (log entry 3), and moves nothing
else. PORT_GET_MARGIN of a lane group answers with the margins of its lanes and their FEC symbol counts, which then
start again from 0. (R65, R67, R68) -/
def Obligations.PortReads : Prop :=
  Answered 0x0202 .portGetStatus (fun r s => s.argPort r.payload = true) (fun r s => s.portStatus (rd r.payload 0 2))
  ∧ Does 0x0209 .portGetCounters (fun r s => s.argPort r.payload = true)
    (fun r s => (List.range 22).flatMap (fun i =>
      le 8 ((s.fecPort (rd r.payload 0 2)).portCtr (rd r.payload 0 2) i).toNat))
    (fun r s t => MailOnly (s.fecPort (rd r.payload 0 2)) t)
  ∧ Does 0x0208 .portGetMargin (fun r _ => rd r.payload 0 2 ≤ 63)
    (fun r s => (List.range 8).flatMap (fun i =>
      let l := (s.fecGroup (rd r.payload 0 2)).lane (8 * rd r.payload 0 2 + i)
      le 2 l.eyeH ++ le 2 l.eyeW ++ le 1 (b2n l.stale + 2 * b2n l.below) ++ le 1 0 ++ le 2 0 ++ le 8 l.fecSyms))
    (fun r s t => (∀ i, i < 8 → t.lane (8 * rd r.payload 0 2 + i) = { s.lane (8 * rd r.payload 0 2 + i) with fecSyms := 0 })
      ∧ ∀ l, l / 8 ≠ rd r.payload 0 2 → t.lane l = s.lane l)

/-- PRISM_SET_PORT writes the entry of its port in the bank in force; PRISM_WRITE_RULE writes its rule in the bank in
force of every slice of the mask, a clear valid bit changing only the valid bit; the reads answer and move nothing but
mail. Commands: PRISM_SET_PORT, PRISM_WRITE_RULE, PRISM_READ_RULE, PRISM_GET_COUNTERS, PRISM_GET_RULE_COUNTERS,
PRISM_GET_EPOCH. (R81, R83, R84, R88, R92, R93, R94) -/
def Obligations.PrismCommands : Prop :=
  Carried 0x0303 .prismSetPort (fun p _ => prismPortOk p = true)
    (fun p s t => (t.prism.bank s.prism.epoch).port (rd p 0 2) = prismPortOf p
      ∧ ∀ n, n ≠ rd p 0 2 → (t.prism.bank s.prism.epoch).port n = (s.prism.bank s.prism.epoch).port n)
  ∧ Carried 0x0304 .prismWriteRule (fun p s => checkPrismWriteRule p s = none)
    (fun p s t => ∀ i, Tab.get Rule.init (t.prism.bank s.prism.epoch).rules i
      = if i % 3072 = rd p 2 2 ∧ i / 3072 < 16 ∧ bit (rd p 0 2) (i / 3072) = true then
          (if bit (rd p 4 1) 0 then ruleOf p else
            { Tab.get Rule.init (s.prism.bank s.prism.epoch).rules i with valid := false })
        else Tab.get Rule.init (s.prism.bank s.prism.epoch).rules i)
  ∧ Answered 0x0305 .prismReadRule
    (fun r _ => rd r.payload 0 1 ≤ 15 ∧ rd r.payload 1 1 ≤ 1 ∧ rd r.payload 2 2 ≤ 3071)
    (fun r s =>
      let u := Tab.get Rule.init (s.prism.bank (s.prism.epoch + rd r.payload 1 1)).rules
        (3072 * rd r.payload 0 1 + rd r.payload 2 2)
      le 1 (b2n u.valid) ++ le 3 0 ++ le 64 u.value ++ le 64 u.mask ++ u.act.bytes)
  ∧ Answered 0x0306 .prismGetCounters (fun r _ => rd r.payload 0 1 ≤ 15)
    (fun r s => ctrBytes s.tel.prismCtr (13 * rd r.payload 0 1) 13)
  ∧ Answered 0x0307 .prismGetRuleCounters
    (fun r _ => rd r.payload 0 1 ≤ 15 ∧ 1 ≤ rd r.payload 4 2 ∧ rd r.payload 4 2 ≤ 256 ∧ rd r.payload 2 2 + rd r.payload 4 2 ≤ 3072)
    (fun r s => ctrBytes s.prism.hits (3072 * rd r.payload 0 1 + rd r.payload 2 2) (rd r.payload 4 2))
  ∧ Answered 0x0308 .prismGetEpoch (fun _ _ => True)
    (fun _ s => le 4 s.prism.epoch ++ le 4 s.prism.inCur ++ le 4 s.prism.inPrev ++ le 1 s.prism.otherCode ++ le 3 0)

/-- A live FWD_INSERT that passes its checks overwrites data, static mark and aging of an entry that is there, no other
place changing, and answers with its place, or puts a new entry at the place it answers with, or, where no room is
found, completes with NO_RESOURCE, leaves the table as it was and counts INSERT_FAILS. A live FWD_DELETE of an entry
takes it from its place and lets the stash drain, and of an absent key completes with BAD_ARG. FWD_LOOKUP of a key that
is well formed answers with the entry, or with zeros. FWD_FLUSH takes the learned entries it selects from their places,
lets the stash drain and answers with their count. (R103, R104, R107, R111, R128) -/
def Obligations.ForwardingEntries : Prop :=
  (∀ (r : Req) (s : State), s.fresh 0x0401 r → r.stage = false → checkFwdInsert r.payload s = none →
    (∀ q e, s.fwd.entryOf (insOf r.payload).kt (insOf r.payload).key s.fwd.gen = some (q, e) →
      ∃ t, exec (.fwdInsert r) s = .next t ∧ t.delivered 0x0401 r (Resp.ok (insResp q 0))
        ∧ Tab.find t.fwd.em q = some { e with data := (insOf r.payload).data, isStatic := (insOf r.payload).isStatic,
                                              age := (insOf r.payload).age, shadow := true }
        ∧ ∀ n, n ≠ q → Tab.find t.fwd.em n = Tab.find s.fwd.em n)
    ∧ (s.fwd.entryOf (insOf r.payload).kt (insOf r.payload).key s.fwd.gen = none →
      ∀ f pl, s.fwd.insertEntry ((insOf r.payload).entry (s.liveVis (insOf r.payload).kt (insOf r.payload).key)) = some (f, pl) →
      ∃ t, exec (.fwdInsert r) s = .next t ∧ t.delivered 0x0401 r (Resp.ok (insResp pl.place pl.moves))
        ∧ Tab.find t.fwd.em pl.place
          = some ((insOf r.payload).entry (s.liveVis (insOf r.payload).kt (insOf r.payload).key)))
    ∧ (s.fwd.entryOf (insOf r.payload).kt (insOf r.payload).key s.fwd.gen = none →
      s.fwd.insertEntry ((insOf r.payload).entry (s.liveVis (insOf r.payload).kt (insOf r.payload).key)) = none →
      ∃ t, exec (.fwdInsert r) s = .next t ∧ t.delivered 0x0401 r (Resp.err stNoResource dNone)
        ∧ t.fwd.em = s.fwd.em ∧ t.fwd.ctr = Tab.bump s.fwd.ctr 13 1))
  ∧ (∀ (r : Req) (s : State) (q : Nat) (e : EmEntry), s.fresh 0x0402 r → r.stage = false → checkFwdDelete r.payload s = none →
    s.fwd.entryOf (rd r.payload 0 1) (slice r.payload 4 48) s.fwd.gen = some (q, e) →
    ∃ t, exec (.fwdDelete r) s = .next t ∧ t.delivered 0x0402 r (Resp.ok []) ∧ t.fwd = (s.fwd.removeAt q).drainStash
      ∧ Tab.find (s.fwd.removeAt q).em q = none)
  ∧ TurnedAway 0x0402 .fwdDelete (fun r s => keyReqOk r.payload = true
      ∧ s.fwd.entryOf (rd r.payload 0 1) (slice r.payload 4 48) s.fwd.gen = none) stBadArg 0x0401
  ∧ Answered 0x0403 .fwdLookup (fun r _ => emKeyOk (rd r.payload 0 1) (slice r.payload 4 48) = true)
    (fun r s => match s.fwd.entryOf (rd r.payload 0 1) (slice r.payload 4 48) s.fwd.gen with
      | some (q, e) => le 1 1 ++ le 1 (emWidth e.ktype) ++ le 1 e.control ++ le 1 0
        ++ (if stashBase ≤ q then le 4 0xFFFFFFFF ++ le 2 (q - stashBase) else le 4 (q / 4) ++ le 2 (q % 4))
        ++ le 2 0 ++ le 8 e.data.toNat
      | none => List.replicate 20 0)
  ∧ Does 0x040C .fwdFlush (fun r _ => flushOk r.payload = true)
    (fun r s => le 4 (s.fwd.em.filter (fun x => flushes r.payload x.2)).length)
    (fun r s t => t.fwd = ((s.fwd.em.filter (fun x => flushes r.payload x.2)).foldl (fun g x => g.removeAt x.1) s.fwd).drainStash)

/-- A live write of a VLAN, route, next hop, ECMP group, template or router entry changes that entry in the generation
in force, and in the other one unless an armed set writes the same item, and no other entry of its table; FWD_SET_LEARN
and FWD_SET_AGING set their fields; the reads answer with the counters and the occupancy. Commands: FWD_SET_VLAN,
FWD_SET_ROUTE, FWD_SET_NEXTHOP, FWD_SET_ECMP, FWD_SET_TEMPLATE, FWD_SET_ROUTER, FWD_SET_LEARN, FWD_SET_AGING,
FWD_GET_COUNTERS, FWD_GET_OCCUPANCY. (R108, R111, R113, R114, R117, R119, R121, R122, R124, R128, R129, R526) -/
def Obligations.ForwardingTables : Prop :=
  Carried 0x0404 .fwdSetVlan (fun p s => checkFwdSetVlan p s = none)
    (fun p s t => GenWritten 0x0404 p s t (fun a b => b.vlanAt (rd p 0 2) = vlanOf p
      ∧ ∀ n, n ≠ rd p 0 2 → b.vlanAt n = a.vlanAt n))
  ∧ Carried 0x0405 .fwdSetRoute (fun p s => checkFwdSetRoute p s = none)
    (fun p s t => GenWritten 0x0405 p s t (fun a b => (rd p 4 1 = 0 → prefixOf p ∈ b.lpm) ∧ (rd p 4 1 = 1 → b.hasPrefix (prefixOf p) = false)
      ∧ ∀ x, x.same (prefixOf p).fam (prefixOf p).vrf (prefixOf p).plen (prefixOf p).addr = false → (x ∈ b.lpm ↔ x ∈ a.lpm)))
  ∧ Carried 0x0406 .fwdSetNexthop (fun p s => checkFwdSetNexthop p s = none)
    (fun p s t => GenWritten 0x0406 p s t (fun a b => b.hopAt (rd p 0 4) = hopOf p ∧ ∀ n, n ≠ rd p 0 4 → b.hopAt n = a.hopAt n))
  ∧ Carried 0x0407 .fwdSetEcmp (fun p s => checkFwdSetEcmp p s = none)
    (fun p s t => GenWritten 0x0407 p s t (fun a b => b.groupAt (rd p 0 2) = ecmpOf p
      ∧ ∀ n, n ≠ rd p 0 2 → b.groupAt n = a.groupAt n))
  ∧ Carried 0x0408 .fwdSetTemplate (fun p s => checkFwdSetTemplate p s = none)
    (fun p s t => GenWritten 0x0408 p s t (fun a b => b.tmplAt (rd p 0 2) = templateOf p
      ∧ ∀ n, n ≠ rd p 0 2 → b.tmplAt n = a.tmplAt n))
  ∧ Carried 0x0409 .fwdSetRouter (fun p s => checkFwdSetRouter p s = none)
    (fun p s t => GenWritten 0x0409 p s t (fun a b =>
      (∀ n, b.routerAt n = if rd p 1 1 = 0 ∧ n = rd p 0 1 then ⟨rd p 2 1 == 1, rd p 3 1, rdBe p 4 6⟩ else a.routerAt n)
      ∧ ∀ n, b.vtepAt n = if rd p 1 1 ≠ 0 ∧ n = rd p 0 1 then ⟨rd p 2 1 == 1, rd p 3 1, rd p 10 1, slice p 12 16⟩ else a.vtepAt n))
  ∧ Carried 0x040A .fwdSetLearn (fun p s => s.portActive (rd p 0 2) = true ∧ rd p 2 1 ≤ 1
      ∧ (rd p 2 1 = 0 ∨ rd p 3 1 ≤ 1 ∧ rd p 4 4 ≤ 2097152))
    (fun p s t => (t.port (rd p 0 2)).learnOn = (rd p 2 1 == 1) ∧ (t.port (rd p 0 2)).learnFwd = (rd p 3 1 == 1)
      ∧ (t.port (rd p 0 2)).learnLimit = rd p 4 4 ∧ ∀ m, m ≠ rd p 0 2 → t.port m = s.port m)
  ∧ Carried 0x040B .fwdSetAging (fun p _ => rd p 0 4 ≤ 1000000) (fun p _ t => t.fwd.agePeriod = rd p 0 4)
  ∧ Answered 0x040D .fwdGetCounters (fun _ _ => True) (fun _ s => ctrBytes s.fwd.ctr 0 25)
  ∧ Answered 0x040E .fwdGetOccupancy (fun _ _ => True) (fun _ s =>
    (List.range 11).flatMap (fun i => le 4 (s.fwd.unitsOf (fun x => x.2.ktype == i + 1)))
    ++ le 4 (s.fwd.unitsOf (fun x => decide (stashBase ≤ x.1)))
    ++ le 4 (stashBase - s.fwd.unitsOf (fun x => decide (x.1 < stashBase)))
    ++ le 4 (s.fwd.em.filter (fun x => x.2.learned)).length)

/-- BUF_SET_PFC_TX sets the quanta and the refresh of its port; BUF_SET_WRED_PROFILE installs its profile, which each
queue that uses it takes at its next averaging update; BUF_SET_QUEUE leaves its setting pending at each queue it names;
the reads answer, BUF_GET_PORT starting the high-water marks of its port again and BUF_GET_POOLS the lowest free counts.
Commands: BUF_SET_PFC_TX, BUF_SET_WRED_PROFILE, BUF_SET_QUEUE, BUF_GET_STATUS, BUF_GET_PORT, BUF_GET_COUNTERS,
BUF_GET_POOLS. (R143, R148, R155, R157, R158, R159, R160) -/
def Obligations.BufferCommands : Prop :=
  Carried 0x0504 .bufSetPfcTx (fun p s => liveBufSetPfcTx p s = none)
    (fun p s t => (t.port (rd p 0 2)).pfcQuanta = rd p 2 2 ∧ (t.port (rd p 0 2)).pfcRefresh = rd p 4 4
      ∧ ∀ m, m ≠ rd p 0 2 → t.port m = s.port m)
  ∧ Carried 0x0505 .bufSetWredProfile (fun p s => checkBufSetWredProfile p s = none)
    (fun p s t => Tab.get WredProfile.init t.buf.wred (rd p 0 1) = wredOf p
      ∧ (∀ n, n ≠ rd p 0 1 → Tab.get WredProfile.init t.buf.wred n = Tab.get WredProfile.init s.buf.wred n)
      ∧ ∀ k q, (k, q) ∈ s.buf.queues →
        (k, q.hold (rd p 0 1) (Tab.get WredProfile.init s.buf.wred (rd p 0 1))) ∈ t.buf.queues)
  ∧ Carried 0x0506 .bufSetQueue (fun p s => s.argAnyPort p = true ∧ rd p 2 1 ≤ 7 ∧ rd p 5 1 ≤ 1 ∧ resv p 6 2 = true)
    (fun p s t => ∀ k, t.queue k = if k ∈ queuesOf p then { s.queue k with wredNext := some (rd p 5 1 == 1, rd p 4 1) }
      else s.queue k)
  ∧ Answered 0x0507 .bufGetStatus (fun _ _ => True) (fun _ s =>
    le 4 s.freeCells ++ le 4 s.unreserved ++ le 4 s.minReserved ++ le 4 s.minUsed ++ le 4 s.headReserved
    ++ le 4 s.headUsed ++ le 4 s.sharedPool ++ le 4 s.sharedUsed ++ le 8 (s.buf.queues.map (fun q => q.2.spilled)).sum
    ++ le 4 s.xoffPorts ++ le 4 s.landingCells)
  ∧ Does 0x0508 .bufGetPort (fun r s => s.argAnyPort r.payload = true)
    (fun r s => (List.range 8).flatMap (fun c =>
      let q := s.portClass (rd r.payload 0 2) c
      le 4 q.total ++ le 4 q.cHead ++ le 4 q.high ++ le 1 (b2n q.xoff) ++ le 3 0))
    (fun r s t => ∀ c, c < 8 → t.portClass (rd r.payload 0 2) c
      = { s.portClass (rd r.payload 0 2) c with high := (s.portClass (rd r.payload 0 2) c).total })
  ∧ Answered 0x0509 .bufGetCounters (fun _ _ => True)
    (fun r s => (List.range 22).flatMap (fun i => le 8 (Tab.get 0 (s.begun 0x0509 r).buf.ctr i).toNat))
  ∧ Does 0x050A .bufGetPools (fun _ _ => True)
    (fun r s => le 8 (s.regionBase 2) ++ [0, 1, 2, 3].flatMap (fun i =>
      le 4 (poolBuf i) ++ le 4 (poolCount i) ++ le 4 (poolCount i - ((s.begun 0x050A r).buf.pool i).used.length)
        ++ le 4 (poolCount i - ((s.begun 0x050A r).buf.pool i).low)))
    (fun r s t => r.indirect = false → ∀ i, i < 4 → (t.buf.pool i).used = (s.buf.pool i).used
      ∧ (t.buf.pool i).low = (s.buf.pool i).used.length)

/-- FAB_SET_PORT sets express, quantum and window of the classes it names; FAB_SET_PLANE takes an active plane out of
service where others remain, and starts the resynchronisation of a failed one, answering when that ends; the reads
answer. Commands: FAB_SET_PORT, FAB_GET_STATUS, FAB_GET_PAIR, FAB_SET_PLANE, FAB_GET_COUNTERS. (R163, R165, R168, R180,
R182, R183, R184) -/
def Obligations.FabricCommands : Prop :=
  Carried 0x0602 .fabSetPort (fun p s => checkFabSetPort p s = none)
    (fun p s t => ∀ c, c < 8 → t.fabPort (rd p 0 2) c = if bit (rd p 2 1) c = true then
        { s.fabPort (rd p 0 2) c with express := bit (rd p 3 1) 0, quantum := rd p 4 4, window := rd p 8 4 }
      else s.fabPort (rd p 0 2) c)
  ∧ Answered 0x0603 .fabGetStatus (fun _ _ => True) (fun _ s =>
    (List.range 5).flatMap (fun k =>
      le 1 (s.plane k).state.code ++ le 1 (s.plane k).cause ++ le 2 0 ++ le 4 (s.plane k).failures)
    ++ le 1 s.activePlanes.length ++ le 3 0 ++ le 4 (s.fab.pairs.filter (fun p => p.2.gapOpen)).length)
  ∧ Answered 0x0604 .fabGetPair (fun r _ => pairExists (rd r.payload 0 1) (rd r.payload 1 1) = true) (fun r s =>
    let p := s.pair (rd r.payload 0 1) (rd r.payload 1 1)
    le 2 p.nextSeq ++ le 2 p.oldest ++ le 2 p.expected ++ le 2 p.out.length ++ le 1 (b2n p.gapOpen) ++ le 3 0
      ++ le 4 (if p.gapOpen then s.upNs - p.gapSince else 0))
  ∧ Does 0x0605 .fabSetPlane (fun r s => rd r.payload 0 1 < 5 ∧ rd r.payload 1 1 = 0 ∧ resv r.payload 2 2 = true
      ∧ (s.plane (rd r.payload 0 1)).state = .active ∧ 2 ≤ s.planesAfter)
    (fun _ _ => []) (fun r _ t => (t.plane (rd r.payload 0 1)).state = .failed ∧ (t.plane (rd r.payload 0 1)).cause = 4)
  ∧ Starts 0x0605 .fabSetPlane (fun r s => rd r.payload 0 1 < 5 ∧ rd r.payload 1 1 = 1 ∧ resv r.payload 2 2 = true
      ∧ (s.plane (rd r.payload 0 1)).state = .failed)
    (fun r s t => (t.plane (rd r.payload 0 1)).state = .resync
      ∧ ∀ k, k ≠ rd r.payload 0 1 → t.plane k = s.plane k)
  ∧ Answered 0x0606 .fabGetCounters (fun _ _ => True) (fun _ s => ctrBytes s.fab.ctr 0 15)

/-- SCHED_SET_NODE gives a node its priority and weight (the port node has neither) and leaves its shaper setting
pending; a changed priority clears its deficits. POL_SET leaves the policer's setting pending; POL_SET_PORT sets the
policer of a port. LOUPE_SET_PROFILE writes its profile, and clears the alarms that use it where it changes;
LOUPE_SET_QUEUE writes the queues it names. LOUPE_GET answers with the latest record and the largest depth and delay,
which it clears. The other reads answer. Commands: SCHED_SET_NODE, SCHED_GET_NODE, POL_SET, POL_GET, POL_SET_PORT,
LOUPE_SET_PROFILE, LOUPE_SET_QUEUE, LOUPE_GET, SCHED_GET_COUNTERS. (R188, R198, R200, R204, R206, R209, R211, R212,
R213) -/
def Obligations.SchedulingCommands : Prop :=
  Carried 0x0701 .schedSetNode (fun p s => checkSchedSetNode p s = none)
    (fun p s t => (rd p 2 1 ≠ 0 → (t.node (nodeOf p)).prio = rd p 5 1 ∧ (t.node (nodeOf p)).weight = rd p 6 2)
      ∧ (rd p 2 1 ≠ 0 → rd p 5 1 ≠ (s.node (nodeOf p)).prio → (t.node (nodeOf p)).txDef = 0 ∧ (t.node (nodeOf p)).grDef = 0)
      ∧ (t.node (nodeOf p)).shaper = { (s.node (nodeOf p)).shaper with pend := some (rd p 8 1 == 1, rd p 12 4, rd p 16 4, rd p 9 1) }
      ∧ ∀ n, n ≠ nodeOf p → t.node n = s.node n)
  ∧ Answered 0x0702 .schedGetNode (fun r s => s.argNode r.payload = true) (fun r s =>
    let n := s.node (nodeOf r.payload)
    le 8 (unsigned 64 (wholeTokens n.shaper.tokens)) ++ le 4 n.txDef ++ le 1 (s.nodeFlags r.payload) ++ le 3 0
      ++ le 8 n.bytes ++ le 8 n.frames)
  ∧ Carried 0x0703 .polSet (fun p s => checkPolSet p s = none)
    (fun p s t => t.policer (rd p 0 4) = { s.policer (rd p 0 4) with pend := some (polOf p) }
      ∧ ∀ n, n ≠ rd p 0 4 → t.policer n = s.policer n)
  ∧ Answered 0x0704 .polGet (fun r _ => rd r.payload 0 4 ≤ 131071) (fun r s =>
    let q := s.policer (rd r.payload 0 4)
    le 4 (unsigned 32 (wholeTokens q.tc)) ++ le 4 (unsigned 32 (wholeTokens q.te)) ++ le 8 q.green.toNat
      ++ le 8 q.yellow.toNat ++ le 8 q.red.toNat ++ le 8 q.redDrops.toNat)
  ∧ Carried 0x0705 .polSetPort (fun p s => s.argPort515 p = true ∧ rd p 2 1 ≤ 1 ∧ rd p 3 1 ≤ 1
      ∧ (rd p 2 1 = 0 ∨ rd p 4 4 ≤ 131071))
    (fun p s t => (t.port (rd p 0 2)).polValid = bit (rd p 2 1) 0 ∧ (t.port (rd p 0 2)).polPre = rd p 3 1
      ∧ (t.port (rd p 0 2)).polIdx = rd p 4 4 ∧ ∀ m, m ≠ rd p 0 2 → t.port m = s.port m)
  ∧ Carried 0x0706 .loupeSetProfile (fun p s => checkLoupeSetProfile p s = none)
    (fun p s t => t.sched.loupeProf (rd p 0 1) = loupeProfOf p
      ∧ (∀ n, n ≠ rd p 0 1 → t.sched.loupeProf n = s.sched.loupeProf n)
      ∧ t.sched.items = if s.sched.loupeProf (rd p 0 1) = loupeProfOf p then s.sched.items
        else (s.sched.resetAlarms (fun q c => (s.sched.loupeQueue q c).prof == rd p 0 1)).items)
  ∧ Carried 0x0707 .loupeSetQueue (fun p s => checkLoupeSetQueue p s = none)
    (fun p s t => ∀ c, c < 8 → t.sched.loupeQueue (rd p 0 2) c = if bit (rd p 2 1) c = true then
      { prof := rd p 3 1, all := bit (rd p 4 1) 0, alarmed := bit (rd p 4 1) 1 } else s.sched.loupeQueue (rd p 0 2) c)
  ∧ (∀ o, Does 0x0708 .loupeGet (fun r _ => loupeOrder r.payload = some o)
    (fun r s => let i := s.loupeItem (rd r.payload 0 1) o
      padTo 32 i.last ++ le 4 i.maxDepth ++ le 4 i.maxDelay)
    (fun r s t => t.loupeItem (rd r.payload 0 1) o = { s.loupeItem (rd r.payload 0 1) o with maxDepth := 0, maxDelay := 0 }))
  ∧ Answered 0x0709 .schedGetCounters (fun _ _ => True) (fun _ s => ctrBytes s.sched.ctr 0 13)

/-- TIME_ADJUST, where no port gives the time base to Moaras, sets the increment, starts a slew, steps the time by an
offset or sets it, as its operation says, a step ending a slew in progress and being counted; with a port of role 1 it
completes with NOT_PERMITTED. TIME_SET_PTP, TIME_SET_PORT and TIME_SET_PPS set their fields; the reads answer. Commands:
TIME_GET, TIME_ADJUST, TIME_SET_PTP, TIME_SET_PORT, TIME_SET_PPS, GATE_GET_STATUS, TIME_GET_COUNTERS. (R214, R217, R223,
R226, R231, R232, R233, R234, R245, R246) -/
def Obligations.TimeCommands : Prop :=
  Answered 0x0801 .timeGet (fun _ _ => True) (fun _ s =>
    le 8 s.time.sec ++ le 4 s.time.ns ++ le 2 s.time.frac16 ++ le 1 s.time.state.code
    ++ le 1 (b2n (s.time.slewLeft != 0) + 2 * b2n s.time.ppsInValid) ++ le 8 s.time.incr ++ le 4 s.time.stepCount ++ le 4 0)
  ∧ TurnedAway 0x0802 .timeAdjust (fun _ s => s.moarasClock = true) stNotPermitted dNone
  ∧ Does 0x0802 .timeAdjust (fun r s => s.moarasClock = false ∧ rd r.payload 0 1 = 0
      ∧ incrOk (rd r.payload 16 8) = true)
    (fun _ _ => []) (fun r s t => t.time = { s.time with incr := rd r.payload 16 8 })
  ∧ Does 0x0802 .timeAdjust (fun r s => s.moarasClock = false ∧ resv r.payload 1 1 = true ∧ rd r.payload 0 1 = 1
      ∧ (rdI r.payload 4 4).natAbs ≤ 999999999 ∧ (adjOffset r.payload).natAbs ≤ secUnits)
    (fun _ _ => []) (fun r s t => t.time = { s.time with slewLeft := adjOffset r.payload })
  ∧ (∀ n, Does 0x0802 .timeAdjust (fun r s => s.moarasClock = false ∧ resv r.payload 1 1 = true ∧ rd r.payload 0 1 = 2
      ∧ (rdI r.payload 4 4).natAbs ≤ 999999999 ∧ s.offsetTime (adjOffset r.payload) = some n ∧ s.bake.armed = none ∧ s.bake.dom = none)
    (fun _ _ => []) (fun _ s t => t.time.units = n ∧ t.time.slewLeft = 0 ∧ t.time.stepCount = (s.time.stepCount + 1) % 2 ^ 32))
  ∧ Does 0x0802 .timeAdjust (fun r s => s.moarasClock = false ∧ resv r.payload 1 1 = true ∧ rd r.payload 0 1 = 3
      ∧ rd r.payload 8 8 < 2 ^ 48 ∧ rd r.payload 4 4 ≤ 999999999 ∧ s.bake.armed = none ∧ s.bake.dom = none)
    (fun _ _ => []) (fun r s t => t.time.sec = rd r.payload 8 8 ∧ t.time.ns = rd r.payload 4 4
      ∧ t.time.frac = rd r.payload 2 2 * 2 ^ 32 ∧ t.time.slewLeft = 0 ∧ t.time.stepCount = (s.time.stepCount + 1) % 2 ^ 32)
  ∧ Carried 0x0803 .timeSetPtp (fun p s => checkTimeSetPtp p s = none)
    (fun p _ t => t.ptp.profile = rd p 0 1 ∧ t.ptp.domain = rd p 1 1 ∧ t.ptp.prio1 = rd p 2 1 ∧ t.ptp.prio2 = rd p 3 1
      ∧ t.ptp.logSync = rdI p 4 1 ∧ t.ptp.logAnnounce = rdI p 5 1 ∧ t.ptp.announceTimeout = rd p 6 1 ∧ t.ptp.source = rd p 7 1
      ∧ t.ptp.lockNs = rd p 8 2)
  ∧ Carried 0x0804 .timeSetPort (fun p s => checkTimeSetPort p s = none)
    (fun p s t => (t.port (rd p 0 2)).ptp.role = rd p 2 1 ∧ (t.port (rd p 0 2)).ptp.tsMode = rd p 3 1
      ∧ (t.port (rd p 0 2)).ptp.ingCorr = rdI p 4 4 ∧ (t.port (rd p 0 2)).ptp.egCorr = rdI p 8 4
      ∧ (∀ m, m ≠ rd p 0 2 → t.port m = s.port m)
      ∧ (t.fifoMoaras (rd p 0 2 / 32) = true → s.fifoMoaras (rd p 0 2 / 32) = false →
        (t.tsFifo (rd p 0 2 / 32)).entries = []))
  ∧ Carried 0x0805 .timeSetPps (fun p s => checkTimeSetPps p s = none)
    (fun p s t => t.time = { s.time with ppsEnable := rd p 0 1 == 1, ppsUnset := bit (rd p 1 1) 0, ppsOffset := rdI p 4 4,
                                         ppsWidth := rd p 8 4,
                                         ppsOut := s.time.ppsOut && rd p 0 1 == 1 && (s.time.state != .unset || bit (rd p 1 1) 0) })
  ∧ Answered 0x0807 .gateGetStatus (fun r s => s.argPort r.payload = true) (fun r s =>
    let p := rd r.payload 0 2
    let g := (s.gate p).oper
    le 2 g.entries.length ++ le 2 (if g.entries.isEmpty then 0 else g.entryAt s.time.units) ++ le 1 g.mask
      ++ le 1 (s.gate p).now ++ le 1 (s.heldClasses p) ++ le 1 0 ++ le 8 g.cycle ++ le 8 g.baseSec ++ le 4 g.baseNs
      ++ le 4 (s.gate p).changes ++ (List.range 8).flatMap (fun c => le 8 (g.longestField c)))
  ∧ Answered 0x0808 .timeGetCounters (fun r s => s.argPort r.payload = true)
    (fun r s => ctrBytes s.tel.timeCtr (9 * rd r.payload 0 2) 9)

/-- FRER_SET_STREAM writes its stream record and FRER_SET_PORT the identification of its port; FRER_RESET_STREAM starts
the recovery of a stream anew where it recovers; RED_SWITCHOVER of a processor starts a failover, of a core seats a
standby core in the slot, the replaced core being tested; RED_RESYNC starts the restart of a failed processor or the
test of a failed core; the reads answer. Commands: FRER_SET_STREAM, FRER_GET_STREAM, FRER_SET_PORT, FRER_RESET_STREAM,
RED_GET_HEALTH, RED_SWITCHOVER, RED_RESYNC, RED_GET_COUNTERS. (R247, R255, R256, R261, R262, R263, R267, R268, R270,
R271) -/
def Obligations.RedundancyCommands : Prop :=
  Carried 0x0901 .frerSetStream (fun p s => liveFrerSetStream p s = none)
    (fun p s t => GenWritten 0x0901 p s t (fun a b => b.frerAt (rd p 0 2) = frerOf p
        ∧ ∀ n, n ≠ rd p 0 2 → b.frerAt n = a.frerAt n)
      ∧ t.stream (rd p 0 2) = (s.stream (rd p 0 2)).rewrite (s.frerNow (rd p 0 2)) (frerOf p)
      ∧ ∀ n, n ≠ rd p 0 2 → t.stream n = s.stream n)
  ∧ Answered 0x0902 .frerGetStream (fun _ _ => True) (fun r s =>
    let n := rd r.payload 0 2
    let c := s.frerNow n
    let f := s.stream n
    le 1 (b2n c.gen + 2 * b2n c.recover + 4 * b2n f.takeAny) ++ le 1 0 ++ le 2 f.recov ++ le 2 f.next ++ le 2 0
      ++ le 2 c.hist ++ le 6 0 ++ ctrBytes s.tel.frerCtr (9 * n) 9)
  ∧ Carried 0x0903 .frerSetPort (fun p s => s.portActive (rd p 0 2) = true ∧ rd p 2 1 ≤ 1 ∧ (rd p 2 1 = 0 ∨ rd p 3 1 ≤ 1))
    (fun p s t => (t.port (rd p 0 2)).frerId = bit (rd p 2 1) 0 ∧ (t.port (rd p 0 2)).frerSrc = bit (rd p 3 1) 0
      ∧ ∀ m, m ≠ rd p 0 2 → t.port m = s.port m)
  ∧ Does 0x0904 .frerResetStream (fun r _ => resv r.payload 2 2 = true) (fun _ _ => [])
    (fun r s t => ((s.frerNow (rd r.payload 0 2)).recover = true →
        t.stream (rd r.payload 0 2) = { s.stream (rd r.payload 0 2) with takeAny := true, hist := 0 })
      ∧ ((s.frerNow (rd r.payload 0 2)).recover = false → t.stream (rd r.payload 0 2) = s.stream (rd r.payload 0 2))
      ∧ ∀ n, n ≠ rd r.payload 0 2 → t.stream n = s.stream n)
  ∧ Answered 0x0905 .redGetHealth (fun _ _ => True) (fun _ s => s.healthReport)
  ∧ Starts 0x0906 .redSwitchover (fun r s => rd r.payload 0 1 = 0 ∧ resv r.payload 3 1 = true
      ∧ (s.mpIn .standby).isSome = true ∧ s.pwr.failing = none)
    (fun _ _ t => t.pwr.failing = some mpCauseCommand)
  ∧ (∀ k l, Does 0x0906 .redSwitchover (fun r s => rd r.payload 0 1 = 1 ∧ resv r.payload 3 1 = true ∧ rd r.payload 1 1 < 16
      ∧ rd r.payload 2 1 < 12 ∧ (s.cluster (rd r.payload 1 1)).ready = k :: l ∧ (s.cluster (rd r.payload 1 1)).slots.length = 12)
    (fun _ _ => [])
    (fun r s t => (t.cluster (rd r.payload 1 1)).slots.getD (rd r.payload 2 1) none = some k
      ∧ (t.cluster (rd r.payload 1 1)).ready = l
      ∧ (t.cluster (rd r.payload 1 1)).resync = (s.cluster (rd r.payload 1 1)).resync
      ∧ ∀ o, (s.cluster (rd r.payload 1 1)).slots.getD (rd r.payload 2 1) none = some o →
        o ∈ (t.cluster (rd r.payload 1 1)).testing))
  ∧ (∀ m, Starts 0x0907 .redResync (fun r s => rd r.payload 0 1 = 0 ∧ resv r.payload 3 1 = true ∧ s.mpIn .failed = some m)
    (fun _ _ t => (t.mp m).state = .resync))
  ∧ Starts 0x0907 .redResync (fun r s => rd r.payload 0 1 = 1 ∧ resv r.payload 3 1 = true
      ∧ coreExists (rd r.payload 1 1) (rd r.payload 2 1) = true
      ∧ (s.cluster (rd r.payload 1 1)).failed.contains (rd r.payload 2 1) = true)
    (fun r s t => (t.cluster (rd r.payload 1 1)).failed = without (s.cluster (rd r.payload 1 1)).failed (rd r.payload 2 1)
      ∧ rd r.payload 2 1 ∈ (t.cluster (rd r.payload 1 1)).testing ∧ rd r.payload 2 1 ∈ (t.cluster (rd r.payload 1 1)).resync)
  ∧ Answered 0x0908 .redGetCounters (fun _ _ => True) (fun _ s => ctrBytes s.tel.redCtr 0 13)

/-- FIX_SET_CLUSTER sets the batch size and the batch time of its cluster; FIX_RELEASE inside the bounds moves the two
tails; FIX_FLUSH of clusters whose flush heads are reached completes at once, otherwise its batches fall due and it
waits; LEAVEN_SET_EVENTS sets the event codes of the cores it names, a counter whose code changes starting at 0;
LEAVEN_GET_CORE answers with the core's counters, which stand still in a core that has failed, until RED_RESYNC has
returned it; the reads answer. Commands: FIX_SET_CLUSTER, FIX_GET_FLOW, FIX_GET_LOG, FIX_RELEASE, FIX_FLUSH,
FIX_GET_RECEIPT, LEAVEN_GET_CLUSTER, LEAVEN_SET_EVENTS, LEAVEN_GET_CORE, FIX_GET_COUNTERS. (R289, R290, R295, R297,
R303, R304, R305, R306) -/
def Obligations.FixityCommands : Prop :=
  Carried 0x0A01 .fixSetCluster (fun p _ => rd p 0 1 ≤ 15 ∧ resv p 1 1 = true ∧ 1 ≤ rd p 2 2 ∧ rd p 2 2 ≤ 4096
      ∧ 100 ≤ rd p 4 4 ∧ rd p 4 4 ≤ 10000000)
    (fun p s t => (t.fix (rd p 0 1)).size = rd p 2 2 ∧ (t.fix (rd p 0 1)).timer = rd p 4 4
      ∧ ∀ c, c ≠ rd p 0 1 → t.fix c = s.fix c)
  ∧ Answered 0x0A02 .fixGetFlow (fun _ _ => True) (fun r s =>
    let f := s.flow (rd r.payload 0 2)
    le 1 f.cluster ++ le 1 (b2n f.sha) ++ le 2 f.next ++ le 4 0 ++ le 8 f.tapped.toNat ++ le 8 f.records.toNat
      ++ le 8 f.skipped.toNat ++ le 8 f.unrec.toNat ++ le 8 f.spanBytes.toNat)
  ∧ Answered 0x0A03 .fixGetLog (fun r _ => rd r.payload 0 1 ≤ 15) (fun r s =>
    let c := rd r.payload 0 1
    let f := s.fix c
    le 8 (s.recBase c) ++ le 8 s.recCapacity ++ le 8 f.recHead ++ le 8 f.recTail ++ le 8 (s.rcBase c) ++ le 4 65536
      ++ le 4 0 ++ le 8 f.rcHead ++ le 8 f.rcTail ++ le 8 f.orphanFirst ++ le 4 f.orphanCount ++ le 4 0)
  ∧ Does 0x0A04 .fixRelease (fun r s => rd r.payload 0 1 ≤ 15 ∧ resv r.payload 1 7 = true
      ∧ (s.fix (rd r.payload 0 1)).releaseOk (rd r.payload 8 8) (rd r.payload 16 8) = true)
    (fun _ _ => []) (fun r s t => (t.fix (rd r.payload 0 1)).recTail = rd r.payload 8 8
      ∧ (t.fix (rd r.payload 0 1)).rcTail = rd r.payload 16 8 ∧ ∀ c, c ≠ rd r.payload 0 1 → t.fix c = s.fix c)
  ∧ Does 0x0A05 .fixFlush (fun r s => resv r.payload 2 2 = true ∧ ∀ c, c < 16 → bit (rd r.payload 0 2) c = true →
      (s.fix c).cur.isOpen = false ∧ (s.fix c).due = [] ∧ (s.fix c).signing = [])
    (fun _ _ => []) (fun _ s t => t.leaven.fix = s.leaven.fix ∧ t.leaven.flushes = s.leaven.flushes)
  ∧ (∀ c, c < 16 → Starts 0x0A05 .fixFlush (fun r s => rd r.payload 0 2 = 2 ^ c ∧ resv r.payload 2 2 = true
      ∧ (s.fix c).cur.isOpen = true ∧ (s.fix c).cur.due = none ∧ (s.fix c).mustDefer = false)
    (fun r s t => (t.fix c).due = (s.fix c).due ++ [{ (s.fix c).cur with due := some 2, key := none }]
      ∧ (t.fix c).cur = Batch.init ∧ (∃ w, (r, w) ∈ t.leaven.flushes) ∧ ∀ d, d ≠ c → t.fix d = s.fix d))
  ∧ Answered 0x0A06 .fixGetReceipt (fun r s => rd r.payload 0 1 ≤ 15 ∧ (s.fix (rd r.payload 0 1)).rcTail ≤ rd r.payload 4 8
      ∧ rd r.payload 4 8 < (s.fix (rd r.payload 0 1)).rcHead)
    (fun r s => padTo 288 (Tab.get [] (s.fix (rd r.payload 0 1)).receipts (rd r.payload 4 8 % 65536)))
  ∧ Answered 0x0A07 .leavenGetCluster (fun r _ => rd r.payload 0 1 ≤ 15) (fun r s =>
    let x := s.cluster (rd r.payload 0 1)
    let f := s.fix (rd r.payload 0 1)
    (List.range 12).flatMap (fun i => le 1 ((x.slots.getD i none).getD 0xFF))
      ++ le 2 ((x.ready.map (fun k => 2 ^ k)).sum) ++ le 2 ((x.failed.map (fun k => 2 ^ k)).sum)
      ++ le 1 ((f.taps.filter (fun t => t.core.isSome)).length) ++ le 1 f.signing.length ++ le 2 0 ++ le 4 f.tapBytes
      ++ le 4 f.notices.length ++ le 2 f.cur.recs.length ++ le 2 x.eclkMhz ++ le 16 0)
  ∧ Carried 0x0A08 .leavenSetEvents (fun p s => checkLeavenSetEvents p s = none)
    (fun p s t => ∀ k, k < 13 → (rd p 1 1 = 0xFF ∨ rd p 1 1 = k) →
      (t.core (rd p 0 1) k).codes = (List.range 8).map (fun i => rd p (4 + i) 1)
      ∧ ∀ i, i < 8 → (t.core (rd p 0 1) k).prog.getD i 0
        = if (s.core (rd p 0 1) k).codes.getD i 0 = rd p (4 + i) 1 then (s.core (rd p 0 1) k).prog.getD i 0 else 0)
  ∧ (∀ (r : Req) (s : State), s.fresh 0x0A09 r → rd r.payload 0 1 ≤ 15 → rd r.payload 1 1 ≤ 12 →
    ∃ t, exec (.leavenGetCore r) s = .next t
      ∧ t.delivered 0x0A09 r (Resp.ok (
        let k := t.core (rd r.payload 0 1) (rd r.payload 1 1)
        le 8 k.cycles.toNat ++ le 8 k.retired.toNat ++ le 8 k.wasted.toNat ++ le 8 k.front.toNat ++ le 8 k.back.toNat
          ++ (List.range 8).flatMap (fun i => le 8 (k.prog.getD i 0)) ++ (List.range 8).flatMap (fun i => le 1 (k.codes.getD i 0))))
      ∧ (t.core (rd r.payload 0 1) (rd r.payload 1 1)).codes = (s.core (rd r.payload 0 1) (rd r.payload 1 1)).codes
      ∧ ((s.cluster (rd r.payload 0 1)).failed.contains (rd r.payload 1 1) = true
          ∨ (s.cluster (rd r.payload 0 1)).resync.contains (rd r.payload 1 1) = true →
        t.core (rd r.payload 0 1) (rd r.payload 1 1) = s.core (rd r.payload 0 1) (rd r.payload 1 1)))
  ∧ Answered 0x0A0A .fixGetCounters (fun _ _ => True) (fun _ s => ctrBytes s.leaven.ctr 0 16)

/-- PROOF_SET_CLASS writes its class; PROOF_SET_TARGET makes its record valid with its settings, or invalid where
nothing is parked; PROOF_SET_STATE spins an awake target down, queues a wake of a sleeping one, makes a sleeping, waking
or failed one ready, or puts an awake or failed one to sleep, and answers NOT_PERMITTED to each of the four in any other
state; PROOF_GET_TARGET, SHELF_GET and PROOF_GET_COUNTERS answer; SHELF_SET and SHELF_SET_BUS set their fields, a
disabled bus forgetting its poll cycle. (R308, R311, R312, R313, R319, R321, R325, R333, R338, R339) -/
def Obligations.ProofingCommands : Prop :=
  Carried 0x0B01 .proofSetClass (fun p s => checkProofSetClass p s = none)
    (fun p s t => t.pclass (rd p 0 1) = { notice := rd p 2 2, hold := rd p 4 4, park := rd p 8 4, drain := rd p 12 4,
                                          spinup := rd p 16 4, idle := rd p 20 4, source := bit (rd p 1 1) 0,
                                          fwdFailed := bit (rd p 1 1) 1 }
      ∧ ∀ n, n ≠ rd p 0 1 → t.pclass n = s.pclass n)
  ∧ Carried 0x0B02 .proofSetTarget (fun p s => liveProofSetTarget p s = none ∧ bit (rd p 2 1) 0 = true)
    (fun p s t => (t.target (rd p 0 2)).valid = true ∧ (t.target (rd p 0 2)).cls = rd p 3 1
      ∧ (t.target (rd p 0 2)).bus = rd p 4 1 ∧ (t.target (rd p 0 2)).drop = rd p 5 1 ∧ (t.target (rd p 0 2)).slot = rd p 6 1
      ∧ (t.target (rd p 0 2)).power = rd p 8 2
      ∧ (t.target (rd p 0 2)).state = (if (s.target (rd p 0 2)).valid then (s.target (rd p 0 2)).state else Target.init.state)
      ∧ ∀ n, n ≠ rd p 0 2 → t.target n = s.target n)
  ∧ Carried 0x0B02 .proofSetTarget (fun p s => liveProofSetTarget p s = none ∧ bit (rd p 2 1) 0 = false
      ∧ ((s.target (rd p 0 2)).valid = false ∨ (s.target (rd p 0 2)).parkQ = []))
    (fun p _ t => (t.target (rd p 0 2)).valid = false ∧ (t.target (rd p 0 2)).wakeQ = false)
  ∧ Does 0x0B03 .proofSetState (fun r s => (s.target (rd r.payload 0 2)).valid = true ∧ rd r.payload 2 1 = 0
      ∧ resv r.payload 3 1 = true ∧ (s.target (rd r.payload 0 2)).state = .awake)
    (fun _ _ => []) (fun r s t => (t.target (rd r.payload 0 2)).state = .asleep
      ∧ (t.drop (s.target (rd r.payload 0 2)).loc.1 (s.target (rd r.payload 0 2)).loc.2.1).downQ
        = (s.drop (s.target (rd r.payload 0 2)).loc.1 (s.target (rd r.payload 0 2)).loc.2.1).downQ ++ [(s.target (rd r.payload 0 2)).loc.2.2])
  ∧ Does 0x0B03 .proofSetState (fun r s => (s.target (rd r.payload 0 2)).valid = true ∧ rd r.payload 2 1 = 1
      ∧ resv r.payload 3 1 = true ∧ (s.target (rd r.payload 0 2)).state = .asleep ∧ (s.target (rd r.payload 0 2)).wakeQ = false)
    (fun _ _ => []) (fun r s t => (t.target (rd r.payload 0 2)).wakeQ = true ∧ (t.target (rd r.payload 0 2)).state = .asleep
      ∧ (t.target (rd r.payload 0 2)).loc
        = ((s.target (rd r.payload 0 2)).bus, (s.target (rd r.payload 0 2)).drop, (s.target (rd r.payload 0 2)).slot)
      ∧ (t.drop (s.target (rd r.payload 0 2)).bus (s.target (rd r.payload 0 2)).drop).wakeQ
        = (s.drop (s.target (rd r.payload 0 2)).bus (s.target (rd r.payload 0 2)).drop).wakeQ ++ [rd r.payload 0 2])
  ∧ Does 0x0B03 .proofSetState (fun r s => (s.target (rd r.payload 0 2)).valid = true ∧ rd r.payload 2 1 = 2
      ∧ resv r.payload 3 1 = true ∧ (s.target (rd r.payload 0 2)).parkQ = []
      ∧ ((s.target (rd r.payload 0 2)).state = .asleep ∨ (s.target (rd r.payload 0 2)).state = .waking
        ∨ (s.target (rd r.payload 0 2)).state = .failed))
    (fun _ _ => []) (fun r _ t => (t.target (rd r.payload 0 2)).state = .awake ∧ (t.target (rd r.payload 0 2)).holdOn = false)
  ∧ Does 0x0B03 .proofSetState (fun r s => (s.target (rd r.payload 0 2)).valid = true ∧ rd r.payload 2 1 = 3
      ∧ resv r.payload 3 1 = true
      ∧ ((s.target (rd r.payload 0 2)).state = .awake ∨ (s.target (rd r.payload 0 2)).state = .failed))
    (fun _ _ => []) (fun r _ t => (t.target (rd r.payload 0 2)).state = .asleep)
  ∧ TurnedAway 0x0B03 .proofSetState (fun r s => (s.target (rd r.payload 0 2)).valid = true ∧ rd r.payload 2 1 ≤ 3
      ∧ resv r.payload 3 1 = true
      ∧ (rd r.payload 2 1 = 0 → (s.target (rd r.payload 0 2)).state ≠ .awake)
      ∧ (rd r.payload 2 1 = 1 → (s.target (rd r.payload 0 2)).state ≠ .asleep)
      ∧ (rd r.payload 2 1 = 2 → (s.target (rd r.payload 0 2)).state = .awake ∨ (s.target (rd r.payload 0 2)).state = .draining)
      ∧ (rd r.payload 2 1 = 3 → (s.target (rd r.payload 0 2)).state ≠ .awake ∧ (s.target (rd r.payload 0 2)).state ≠ .failed))
    stNotPermitted dNone
  ∧ Answered 0x0B04 .proofGetTarget (fun _ _ => True) (fun r s => s.targetBytes (rd r.payload 0 2))
  ∧ Carried 0x0B05 .shelfSet (fun p s => checkShelfSet p s = none)
    (fun p s t => t.drop (rd p 0 1) (rd p 1 1)
      = { s.drop (rd p 0 1) (rd p 1 1) with enabled := bit (rd p 2 1) 0, maxWakes := rd p 3 1, budget := rd p 4 2 })
  ∧ Answered 0x0B06 .shelfGet (fun r _ => rd r.payload 0 1 ≤ 3 ∧ rd r.payload 1 1 ≤ 31)
    (fun r s => s.shelfBytes (rd r.payload 0 1) (rd r.payload 1 1))
  ∧ Carried 0x0B07 .shelfSetBus (fun p s => checkShelfSetBus p s = none)
    (fun p s t => (t.bus (rd p 0 1)).enable = bit (rd p 1 1) 0 ∧ (t.bus (rd p 0 1)).period = rd p 4 4
      ∧ (bit (rd p 1 1) 0 = false → (t.bus (rd p 0 1)).slots = [] ∧ (t.bus (rd p 0 1)).await = none)
      ∧ ∀ b, b ≠ rd p 0 1 → t.bus b = s.bus b)
  ∧ Answered 0x0B08 .proofGetCounters (fun _ _ => True) (fun _ s => ctrBytes s.proof.ctr 0 21)

/-- DEV_GET_INFO answers with the identity and the state of the device; DEV_GET_RESULT with the recorded response of its
tag, and, sent with tag 0 itself, PENDING while the command of that tag runs, BAD_ARG where the tag is unknown; BAD_ARG
where it is 0; DEV_ECHO with its payload; DEV_RESTART completes and begins a restart; DEV_GET_COUNTERS answers with the
counters of its function. (R391, R392, R401, R403, R404) -/
def Obligations.DeviceCommands : Prop :=
  Answered 0x0101 .devGetInfo (fun _ _ => True) (fun _ s =>
    le 2 0x7216 ++ le 1 s.pwr.variant ++ le 1 s.pwr.stepping ++ le 1 s.pwr.roleStrap ++ le 1 s.role ++ le 1 s.activeMp
    ++ le 1 s.ident.running ++ le 2 s.ident.major ++ le 2 s.ident.minor ++ le 4 s.ident.build ++ le 4 s.mbx.boots
    ++ le 4 s.mbx.restarts ++ le 8 ((s.up - s.mbx.readyUp) * 5 / 4 / 1000000000) ++ padTo 16 devSerial ++ le 16 0)
  ∧ (∀ (r : Req) (s : State) (h : HistEntry), s.fresh 0x0102 r → rd r.payload 0 4 ≠ 0 →
    s.mbx.recorded (s.boxFn r.box) (rd r.payload 0 4) = some h →
    ∃ t, exec (.devGetResult r) s = .next t ∧ t.delivered 0x0102 r (Resp.ok h.result) ∧ MailOnly s t)
  ∧ TurnedAway 0x0102 .devGetResult (fun r s => rd r.payload 0 4 ≠ 0 ∧ s.mbx.recorded (s.boxFn r.box) (rd r.payload 0 4) = none
      ∧ (s.taggedJob (s.boxFn r.box) (rd r.payload 0 4)).isSome = true ∧ r.tag = 0) stPending dRunning
  ∧ TurnedAway 0x0102 .devGetResult (fun r s => rd r.payload 0 4 ≠ 0 ∧ s.mbx.recorded (s.boxFn r.box) (rd r.payload 0 4) = none
      ∧ (s.taggedJob (s.boxFn r.box) (rd r.payload 0 4)).isSome = false ∧ r.tag = 0) stBadArg dTagUnknown
  ∧ TurnedAway 0x0102 .devGetResult (fun r _ => rd r.payload 0 4 = 0) stBadArg dTagUnknown
  ∧ Answered 0x0103 .devEcho (fun _ _ => True) (fun r _ => r.payload)
  ∧ (∀ (r : Req) (s : State), s.fresh 0x0104 r → resv r.payload 0 4 = true → s.mbx.restarting = none →
    ∃ t, exec (.devRestart r) s = .next t ∧ t.mbx.restarting = some 0 ∧ t.mbx.ready = false
      ∧ t.mbx.restarts = (s.mbx.restarts + 1) % 2 ^ 32 ∧ (r.async = false → (t.box r.box).state = .responseReady))
  ∧ Answered 0x0105 .devGetCounters (fun _ _ => True)
    (fun r s => ctrBytes (s.begun 0x0105 r).tel.mbxCtr (8 * s.boxFn r.box) 8)

/-- BAKE_OPEN makes a new open set and answers with its ID, or NO_RESOURCE where four are current; BAKE_CHECK answers
with the result of CHECK; BAKE_COMMIT of a set that passes its checks, with no bake in progress, makes it PREPARING and
is answered when the bake ends; BAKE_ABORT of an open set makes it ABORTED, of a committed one it is refused;
BAKE_GET_SET answers with the set; PWR_RESTORE starts the bake of the shadow held since a warm reset. (R406, R407, R409,
R410, R412, R433, R493) -/
def Obligations.BakeCommands : Prop :=
  Does 0x0D01 .bakeOpen (fun _ s => s.bake.current.length < 4 ∧ s.bake.set? s.bake.nextSet = none)
    (fun _ s => le 4 s.bake.nextSet)
    (fun _ s t => t.bake.set? s.bake.nextSet = some { SetSt.init with id := s.bake.nextSet }
      ∧ (∀ n, n ≠ s.bake.nextSet → t.bake.set? n = s.bake.set? n) ∧ t.bake.nextSet = s.bake.nextSet + 1)
  ∧ TurnedAway 0x0D01 .bakeOpen (fun _ s => 4 ≤ s.bake.current.length) stNoResource dNone
  ∧ (∀ (r : Req) (s : State) (t0 : SetSt), s.fresh 0x0D02 r → s.bake.set? (rd r.payload 0 4) = some t0 → t0.state ≠ .baked →
    t0.state ≠ .aborted →
    ∃ t, exec (.bakeCheck r) s = .next t ∧ MailOnly s t ∧ t.delivered 0x0D02 r (Resp.ok (
      match (s.begun 0x0D02 r).checkCmds t0.cmds false with
      | none => le 2 stOk ++ le 2 0 ++ le 4 noPos ++ le 2 0 ++ le 2 0 ++ le 4 t0.cmds.length
      | some x => le 2 stCheckFailed ++ le 2 x.detail ++ le 4 x.pos ++ le 2 x.op ++ le 2 0 ++ le 4 t0.cmds.length)))
  ∧ (∀ t0, Starts 0x0D03 .bakeCommit (fun r s => s.bake.set? (rd r.payload 0 4) = some t0 ∧ t0.state ≠ .baked ∧ t0.state ≠ .aborted
      ∧ rd r.payload 4 1 = 0 ∧ resv r.payload 5 3 = true ∧ resv r.payload 20 4 = true ∧ s.bake.inBake = none
      ∧ (s.begun 0x0D03 r).checkCmds t0.cmds t0.several = none ∧ s.slicesBusy = false)
    (fun r s t => t.bake.set? (rd r.payload 0 4)
        = some { t0 with now := true, sec := 0, ns := 0, req := some r, op := 0x0D03, state := .preparing }
      ∧ ∀ n, n ≠ rd r.payload 0 4 → t.bake.set? n = s.bake.set? n))
  ∧ (∀ t0, Does 0x0D04 .bakeAbort (fun r s => s.bake.set? (rd r.payload 0 4) = some t0 ∧ t0.state = .isOpen) (fun _ _ => [])
    (fun r s t => t.bake.set? (rd r.payload 0 4) = some { t0 with state := .aborted }
      ∧ ∀ n, n ≠ rd r.payload 0 4 → t.bake.set? n = s.bake.set? n))
  ∧ TurnedAway 0x0D04 .bakeAbort (fun r s => ∃ t0, s.bake.set? (rd r.payload 0 4) = some t0
      ∧ (t0.state = .preparing ∨ t0.state = .armed) ∧ t0.committed = true) stNotPermitted 0x0D02
  ∧ (∀ t0, Answered 0x0D05 .bakeGetSet (fun r s => rd r.payload 0 4 ≠ 0 ∧ s.bake.set? (rd r.payload 0 4) = some t0)
    (fun _ _ => t0.bytes))
  ∧ Answered 0x0D05 .bakeGetSet (fun r _ => rd r.payload 0 4 = 0) (fun _ s => padTo 128 (s.bake.current.flatMap SetSt.bytes))
  ∧ (∀ (r : Req) (s : State) (l : List StagedCmd), s.fresh 0x1106 r → s.bake.heldShadow = some l →
    s.bake.set? s.bake.nextSet = none → s.bake.inBake = none →
    (let t0 := { s.begun 0x1106 r with bake := { s.bake with
        sets := s.bake.sets ++ [{ SetSt.init with id := s.bake.nextSet, cmds := l, restore := true, now := true }],
        nextSet := s.bake.nextSet + 1 } }
     t0.checkCmds l false = none ∧ t0.slicesBusy = false) →
    ∃ t, exec (.pwrRestore r) s = .next t
      ∧ t.bake.set? s.bake.nextSet = some { SetSt.init with id := s.bake.nextSet, cmds := l, restore := true, now := true,
                                                            req := some r, op := 0x1106, state := .preparing }
      ∧ ∀ n, n ≠ s.bake.nextSet → t.bake.set? n = s.bake.set? n)

/-- DOM_SET_PORT makes a port a domain port or none, but refuses what cuts off a worker; DOM_ADMIT admits a worker with
a hash or removes it, an enrolled one being sent END_SESSION first; DOM_GET_STATUS answers; DOM_FORWARD sends the
request to an enrolled worker that is present and waits for its response, and refuses an absent or unenrolled one;
DOM_BAKE among workers begins a domain bake, sends PREPARE to each and waits; DOM_ABORT ends one that is not decided;
DOM_LEAVE ends the enrolment. The model's choice (log entry 49): DOM_ABORT with no domain bake answers NOT_PERMITTED
NONE, DOM_FORWARD to an absent member BAD_ARG MEMBER_ABSENT and to an unenrolled one NOT_PERMITTED NOT_ENROLLED. (R420,
R421, R423, R425, R427, R428, R429, R433, R434) -/
def Obligations.DomainCommands : Prop :=
  Does 0x0E01 .domSetPort (fun r s => s.portActive (rd r.payload 0 2) = true ∧ rd r.payload 2 1 ≤ 1 ∧ resv r.payload 3 1 = true
      ∧ (rd r.payload 2 1 = 0 → s.cutsPeer (fun q => q == rd r.payload 0 2) = false))
    (fun _ _ => []) (fun r s t => (t.port (rd r.payload 0 2)).domainPort = (rd r.payload 2 1 == 1) ∧ ∀ m, m ≠ rd r.payload 0 2 → t.port m = s.port m)
  ∧ TurnedAway 0x0E01 .domSetPort (fun r s => s.portActive (rd r.payload 0 2) = true ∧ rd r.payload 2 1 = 0 ∧ resv r.payload 3 1 = true
      ∧ s.cutsPeer (fun q => q == rd r.payload 0 2) = true) stNotPermitted 0x0D08
  ∧ Does 0x0E02 .domAdmit (fun r _ => 1 ≤ rd r.payload 0 1 ∧ rd r.payload 0 1 ≤ 63 ∧ rd r.payload 1 1 ≤ 1 ∧ resv r.payload 2 2 = true)
    (fun _ _ => [])
    (fun r s t => (rd r.payload 1 1 = 0 → (t.peer (rd r.payload 0 1)).admitted = true
        ∧ (t.peer (rd r.payload 0 1)).hash = slice r.payload 4 32)
      ∧ (rd r.payload 1 1 = 1 → (t.peer (rd r.payload 0 1)).admitted = false ∧ (t.peer (rd r.payload 0 1)).hash = []
        ∧ (t.peer (rd r.payload 0 1)).enrolled = false ∧ (t.peer (rd r.payload 0 1)).present = false
        ∧ ((s.peer (rd r.payload 0 1)).enrolled = true → (t.peer (rd r.payload 0 1)).leaving = true
          ∧ ∃ m ∈ t.bake.msgs, m.peer = rd r.payload 0 1 ∧ m.id = s.bake.nextMsg ∧ m.type = 0x30)
        ∧ ((s.peer (rd r.payload 0 1)).enrolled = false → (s.peer (rd r.payload 0 1)).leaving = false →
          t.peer (rd r.payload 0 1) = Peer.init))
      ∧ ∀ n, n ≠ rd r.payload 0 1 → (t.peer n).admitted = (s.peer n).admitted ∧ (t.peer n).hash = (s.peer n).hash)
  ∧ Answered 0x0E03 .domGetStatus (fun _ _ => True) (fun _ s =>
    le 1 s.role ++ le 1 s.domState ++ le 1 s.devIndex ++ le 1 0 ++ le 4 s.bake.epoch ++ le 4 s.activeBake ++ le 4 s.bake.authFails
    ++ (List.range 64).flatMap s.memberBytes)
  ∧ Starts 0x0E04 .domForward (fun r s => 1 ≤ rd r.payload 0 1 ∧ rd r.payload 0 1 ≤ 63 ∧ resv r.payload 1 3 = true
      ∧ (s.peer (rd r.payload 0 1)).enrolled = true ∧ (s.peer (rd r.payload 0 1)).present = true)
    (fun r s t => t.bake.fwdReqs = s.bake.fwdReqs ++ [(rd r.payload 0 1, r)]
      ∧ ∃ m ∈ t.bake.msgs, m.peer = rd r.payload 0 1 ∧ m.id = s.bake.nextMsg ∧ m.type = 0x10 ∧ m.body = r.payload.drop 4)
  ∧ TurnedAway 0x0E04 .domForward (fun r s => 1 ≤ rd r.payload 0 1 ∧ rd r.payload 0 1 ≤ 63 ∧ resv r.payload 1 3 = true
      ∧ (s.peer (rd r.payload 0 1)).enrolled = false) stNotPermitted 0x0E08
  ∧ TurnedAway 0x0E04 .domForward (fun r s => 1 ≤ rd r.payload 0 1 ∧ rd r.payload 0 1 ≤ 63 ∧ resv r.payload 1 3 = true
      ∧ (s.peer (rd r.payload 0 1)).enrolled = true ∧ (s.peer (rd r.payload 0 1)).present = false) stBadArg 0x0E02
  ∧ Starts 0x0E05 .domBake (fun r s => domBakeOk r.payload = true ∧ s.bake.dom = none
      ∧ (∀ m ∈ membersOf r.payload, m.idx ≠ 0 ∧ (s.peer m.idx).present = true)
      ∧ s.domLeadFault r = none)
    (fun r s t => t.bake.dom = some (s.bake.newDom r) ∧ t.bake.nextBake = (s.bake.nextBake + 1) % 2 ^ 32
      ∧ ∀ m ∈ membersOf r.payload, ∃ x ∈ t.bake.msgs, x.peer = m.idx ∧ x.type = 0x20)
  ∧ TurnedAway 0x0E05 .domBake (fun r s => domBakeOk r.payload = true ∧ s.bake.dom.isSome = true) stBusy 0x0E07
  ∧ (∀ (r : Req) (s : State) (d : DomBake), s.fresh 0x0E06 r → s.bake.dom = some d → d.decided = false →
    ∃ t, exec (.domAbort r) s = .next t ∧ t.bake.dom = none)
  ∧ TurnedAway 0x0E06 .domAbort (fun _ s => s.bake.dom = none) stNotPermitted dNone
  ∧ Does 0x0E07 .domLeave (fun _ _ => True) (fun _ _ => [])
    (fun _ _ t => t.bake.enrolled = false ∧ t.bake.frozen = false ∧ t.bake.enrolling = false ∧ t.bake.ownIdx = 0xFF
      ∧ t.peer 0 = Peer.init)

/-- ID_WRITE_IMAGE of the slot that does not run writes its data wherever the flash is erased, leaves the rest of the
slot and the other slot alone, and is refused for the running slot; ID_VERIFY_IMAGE checks the slot and answers with the
result, SVN and version; ID_SET_BOOT, of a slot that stands good, rewrites the copy of the boot configuration that is
not in force, with the next sequence number, so that it comes in force; ID_COMMIT_SVN raises the minimum SVN to that of
the running image; ID_PIN_MANAGER pins a hash or releases it; the reads answer. Commands: ID_GET_INFO, ID_GET_CERT,
ID_GET_MEASUREMENTS, ID_WRITE_IMAGE, ID_VERIFY_IMAGE, ID_SET_BOOT, ID_COMMIT_SVN, ID_PIN_MANAGER. (R436, R441, R442,
R444, R446, R451, R454, R455) -/
def Obligations.IdentityCommands : Prop :=
  Answered 0x0F01 .idGetInfo (fun _ _ => True) (fun _ s =>
    keyHash 0 0 ++ keyHash 1 s.ident.aliasNum ++ keyHash 2 s.mbx.boots ++ le 4 s.mbx.boots ++ le 2 s.ident.runSvn ++ le 2 s.ident.minSvn
    ++ le 1 s.ident.running ++ le 1 s.ident.pref ++ le 1 s.ident.slotA.stands ++ le 1 s.ident.slotB.stands ++ le 1 s.ident.debug
    ++ le 3 0)
  ∧ (∀ c, Answered 0x0F02 .idGetCert (fun r s => rd r.payload 0 1 ≤ 5 ∧ resv r.payload 1 3 = true
      ∧ s.certBytes (rd r.payload 0 1) (rd r.payload 4 4) = some c ∧ rd r.payload 8 4 ≤ c.length)
    (fun r _ => le 4 c.length ++ le 4 (min 2048 (c.length - rd r.payload 8 4)) ++ padTo 2048 (c.drop (rd r.payload 8 4))))
  ∧ Answered 0x0F03 .idGetMeasurements (fun _ _ => True) (fun _ s =>
    [1, 2, 3, 4].flatMap (fun k => padTo 48 (s.ident.digest k)) ++ s.ident.measure6 ++ le 2 0)
  ∧ Does 0x0F04 .idWriteImage (fun r s => rd r.payload 0 1 ≤ 1 ∧ rd r.payload 1 1 ≤ 1 ∧ resv r.payload 2 2 = true
      ∧ 1 ≤ rd r.payload 8 4 ∧ rd r.payload 8 4 ≤ 65524 ∧ rd r.payload 4 4 + rd r.payload 8 4 ≤ 25165824
      ∧ rd r.payload 8 4 + 12 ≤ r.payload.length ∧ rd r.payload 0 1 ≠ s.ident.running)
    (fun _ _ => [])
    (fun r s t =>
      let old := if rd r.payload 1 1 = 1 then (s.ident.slot (rd r.payload 0 1)).erased else s.ident.slot (rd r.payload 0 1)
      (∀ i, i < rd r.payload 8 4 → old.read (rd r.payload 4 4 + i) = 0xFF →
        (t.ident.slot (rd r.payload 0 1)).read (rd r.payload 4 4 + i) = r.payload.getD (12 + i) 0)
      ∧ (∀ a, a < rd r.payload 4 4 ∨ rd r.payload 4 4 + rd r.payload 8 4 ≤ a →
        (t.ident.slot (rd r.payload 0 1)).read a = old.read a)
      ∧ t.ident.slot (1 - rd r.payload 0 1) = s.ident.slot (1 - rd r.payload 0 1))
  ∧ TurnedAway 0x0F04 .idWriteImage (fun r s => rd r.payload 0 1 ≤ 1 ∧ rd r.payload 1 1 ≤ 1 ∧ resv r.payload 2 2 = true
      ∧ 1 ≤ rd r.payload 8 4 ∧ rd r.payload 8 4 ≤ 65524 ∧ rd r.payload 4 4 + rd r.payload 8 4 ≤ 25165824
      ∧ rd r.payload 0 1 = s.ident.running) stNotPermitted 0x0F01
  ∧ Does 0x0F05 .idVerifyImage (fun r _ => rd r.payload 0 1 ≤ 1 ∧ resv r.payload 1 3 = true)
    (fun r s => let k := s.ident.slot (rd r.payload 0 1)
      le 1 (k.check s.ident.minSvn) ++ le 1 0 ++ le 2 k.svn ++ le 4 0 ++ k.version)
    (fun r s t => t.ident.slot (rd r.payload 0 1)
      = { s.ident.slot (rd r.payload 0 1) with result := (s.ident.slot (rd r.payload 0 1)).check s.ident.minSvn })
  ∧ Does 0x0F06 .idSetBoot (fun r s => rd r.payload 0 1 ≤ 1 ∧ rd r.payload 1 1 ≤ 3 ∧ resv r.payload 2 2 = true
      ∧ (s.ident.slot (rd r.payload 0 1)).stands = 0)
    (fun _ _ => [])
    (fun r s t =>
      let c : BootCfg := ⟨true, (s.ident.cfgSeq + 1) % 2 ^ 32, rd r.payload 0 1, bit (rd r.payload 1 1) 0, bit (rd r.payload 1 1) 1⟩
      let first := s.ident.inCopy1 = true ∨ (bootCfg s.ident.cfg0).valid = false
      (first → bootCfg t.ident.cfg0 = c ∧ (∀ a, 16 ≤ a → Tab.get 0xFF t.ident.cfg0 a = 0xFF) ∧ t.ident.cfg1 = s.ident.cfg1)
      ∧ (¬first → bootCfg t.ident.cfg1 = c ∧ (∀ a, 16 ≤ a → Tab.get 0xFF t.ident.cfg1 a = 0xFF) ∧ t.ident.cfg0 = s.ident.cfg0)
      ∧ (s.ident.cfgSeq + 1 < 2 ^ 32 → t.ident.cfg = c))
  ∧ TurnedAway 0x0F06 .idSetBoot (fun r s => rd r.payload 0 1 ≤ 1 ∧ rd r.payload 1 1 ≤ 3 ∧ resv r.payload 2 2 = true
      ∧ (s.ident.slot (rd r.payload 0 1)).stands ≠ 0) stNotPermitted 0x0F02
  ∧ Does 0x0F07 .idCommitSvn (fun r s => resv r.payload 2 2 = true ∧ s.ident.runTrial = false ∧ rd r.payload 0 2 = s.ident.runSvn)
    (fun _ s => le 2 (max s.ident.minSvn s.ident.runSvn) ++ le 2 0)
    (fun _ s t => t.ident.minSvn = max s.ident.minSvn s.ident.runSvn)
  ∧ TurnedAway 0x0F07 .idCommitSvn (fun r s => resv r.payload 2 2 = true
      ∧ (s.ident.runTrial = true ∨ rd r.payload 0 2 ≠ s.ident.runSvn)) stNotPermitted 0x0F03
  ∧ Does 0x0F08 .idPinManager (fun r _ => rd r.payload 0 1 ≤ 1 ∧ resv r.payload 1 3 = true) (fun _ _ => [])
    (fun r _ t => t.ident.pin = if rd r.payload 0 1 = 0 then some (slice r.payload 4 32) else none)

/-- TEL_SET_MIRROR writes its session, keeping its sequence number; TEL_SET_PORT_MIRROR the sessions of its port;
PWR_SET_DROOP the thresholds of the slices it names; PWR_SET_THERMAL the warning temperature. PWR_SLICE_RESET of a
running slice, with no bake, makes it RESTORING and is answered when that ends; PWR_SLICE_PARK parks a slice whose lanes
are off and whose host port is idle, and unparks a parked one through RESTORING. That both stand at RESTORING in their
own step is the model's choice (log entries 58 and 110). The reads answer. Commands: TEL_SET_MIRROR,
TEL_SET_PORT_MIRROR, TEL_GET_MIRROR, TEL_GET_DROPS, TEL_GET_COUNTERS, PWR_GET_STATUS, PWR_SET_DROOP, PWR_SET_THERMAL,
PWR_SLICE_RESET, PWR_SLICE_PARK, PWR_GET_COUNTERS. (R472, R478, R479, R482, R485, R494, R495, R496, R502, R503) -/
def Obligations.TelemetryPowerCommands : Prop :=
  Carried 0x1001 .telSetMirror (fun p s => checkTelSetMirror p s = none)
    (fun p s t => t.mirrorOf (rd p 0 1) = mirrorFrom p (s.mirrorOf (rd p 0 1)).seq
      ∧ ∀ n, n ≠ rd p 0 1 → t.mirrorOf n = s.mirrorOf n)
  ∧ Carried 0x1002 .telSetPortMirror (fun p s => checkTelSetPortMirror p s = none)
    (fun p s t => (t.port (rd p 0 2)).mirIn = rd p 2 1 ∧ (t.port (rd p 0 2)).mirEg = rd p 3 1
      ∧ ∀ m, m ≠ rd p 0 2 → t.port m = s.port m)
  ∧ Answered 0x1003 .telGetMirror (fun r _ => rd r.payload 0 1 ≤ 63) (fun r s => ctrBytes s.tel.mirCtr (4 * rd r.payload 0 1) 4)
  ∧ Answered 0x1004 .telGetDrops (fun r s => s.argAnyPort r.payload = true)
    (fun r s => ctrBytes s.tel.drops (64 * rd r.payload 0 2) 64)
  ∧ Answered 0x1005 .telGetCounters (fun _ _ => True) (fun r s => ctrBytes (s.begun 0x1005 r).tel.ctr 0 6)
  ∧ Answered 0x1101 .pwrGetStatus (fun _ _ => True) (fun _ s =>
    (List.range 16).flatMap (fun n => (s.sliceSt n).status s.pwr.trip) ++ le 2 (unsigned 16 s.pwr.hottest)
    ++ le 1 s.pwr.thermalCode ++ le 1 s.pwr.lastCause ++ le 4 s.pwr.hours ++ le 2 s.pwr.lifePermille ++ le 1 s.pwr.warnC
    ++ le 13 0)
  ∧ Carried 0x1102 .pwrSetDroop (fun p s => checkPwrSetDroop p s = none)
    (fun p s t => ∀ n, n < 16 → t.sliceSt n = if bit (rd p 0 2) n = true then
      { s.sliceSt n with droopMv := rd p 2 2, hystMv := rd p 4 2 } else s.sliceSt n)
  ∧ Carried 0x1103 .pwrSetThermal (fun p _ => 80 ≤ rd p 0 1 ∧ rd p 0 1 ≤ 104 ∧ resv p 1 3 = true)
    (fun p _ t => t.pwr.warnC = rd p 0 1)
  ∧ (∀ (r : Req) (s : State), s.fresh 0x1104 r → rd r.payload 0 1 ≤ 15 → resv r.payload 1 3 = true → s.bakeHolds = false →
    (s.sliceSt (rd r.payload 0 1)).between = false → (s.sliceSt (rd r.payload 0 1)).state ≠ .parked →
    ∃ t, exec (.pwrSliceReset r) s = .next t ∧ (t.sliceSt (rd r.payload 0 1)).state = .restoring
      ∧ (t.sliceSt (rd r.payload 0 1)).req = some (0x1104, r))
  ∧ TurnedAway 0x1104 .pwrSliceReset (fun r s => rd r.payload 0 1 ≤ 15 ∧ resv r.payload 1 3 = true ∧ s.bakeHolds = true)
    stBusy 0x0D04
  ∧ (∀ (r : Req) (s : State), s.fresh 0x1105 r → rd r.payload 0 1 ≤ 15 → rd r.payload 1 1 = 0 → resv r.payload 2 2 = true →
    s.bakeHolds = false → (s.sliceSt (rd r.payload 0 1)).state ≠ .parked → (s.sliceSt (rd r.payload 0 1)).between = false →
    s.lanesOff (rd r.payload 0 1) = true → s.hostBusy (rd r.payload 0 1) = false →
    ∃ t, exec (.pwrSlicePark r) s = .next t ∧ (t.sliceSt (rd r.payload 0 1)).state = .parked)
  ∧ Starts 0x1105 .pwrSlicePark (fun r s => rd r.payload 0 1 ≤ 15 ∧ rd r.payload 1 1 = 1 ∧ resv r.payload 2 2 = true
      ∧ (s.sliceSt (rd r.payload 0 1)).state = .parked)
    (fun r s t => t.sliceSt (rd r.payload 0 1)
        = { s.sliceSt (rd r.payload 0 1) with state := .restoring, cause := causeUnpark, req := some (0x1105, r) }
      ∧ ∀ n, n ≠ rd r.payload 0 1 → t.sliceSt n = s.sliceSt n)
  ∧ TurnedAway 0x1105 .pwrSlicePark (fun r s => rd r.payload 0 1 ≤ 15 ∧ rd r.payload 1 1 = 0 ∧ resv r.payload 2 2 = true
      ∧ s.bakeHolds = false ∧ (s.sliceSt (rd r.payload 0 1)).state ≠ .parked
      ∧ (s.sliceSt (rd r.payload 0 1)).between = false ∧ s.lanesOff (rd r.payload 0 1) = false) stNotPermitted 0x1102
  ∧ Answered 0x1107 .pwrGetCounters (fun _ _ => True) (fun _ s => ctrBytes (Tab.bump s.tel.pwrCtr 1 s.stretchingNs) 0 12)

/-- MBX_DOORBELL of a mailbox that is not submitted, with a request that passes the checks, in no failover, submits it:
the old response is gone, the command is queued behind the others with the reading of the time base, and nothing but
mail moves; one with an opcode outside the table is answered BAD_OPCODE. MBX_RELEASE frees a mailbox in RESPONSE_READY
and is ignored elsewhere. A write of the request area changes the bytes written and no other byte; in SUBMITTED it is
discarded; a write of the response area never changes a mailbox. Commands: MBX_DOORBELL, MBX_RELEASE, MBX_AREA_WRITE.
(R381, R382, R383, R384, R387, R390) -/
def Obligations.MailboxRows : Prop :=
  (∀ (s : State) (b : Nat) (ind : Option (List Byte)) (op : Nat) (r : Req), b < 32 → (s.host.link (s.boxFn b)).d3 = false →
    (s.box b).request b ind = (op, r) → (s.box b).state ≠ .submitted → s.mbx.ready = true →
    s.pwr.failing = none → s.verdict op r = .accept → r.async = false →
    Ends (.mbxDoorbell b ind) s (fun t => (t.box b).state = .submitted ∧ (t.box b).resp = []
      ∧ (t.box b).submits = ((s.box b).submits + 1) % 65536
      ∧ (∃ j, t.mbx.jobs = s.mbx.jobs ++ [j] ∧ j.op = op ∧ j.req = r ∧ j.running = false ∧ j.rung = s.nowNs) ∧ MailOnly s t))
  ∧ (∀ (s : State) (b : Nat) (ind : Option (List Byte)) (op : Nat) (r : Req), b < 32 → (s.host.link (s.boxFn b)).d3 = false →
    (s.box b).request b ind = (op, r) → (s.box b).state ≠ .submitted → s.mbx.ready = true → s.pwr.failing = none → cmdInfo op = none →
    r.len ≤ 3824 → r.flagsRsvd = false → r.indRsvd = false →
    Ends (.mbxDoorbell b ind) s (fun t => Posted t r (Resp.err stBadOpcode dNone) ∧ t.mbx.jobs = s.mbx.jobs ∧ MailOnly s t))
  ∧ (∀ (s : State) (b : Nat), b < 32 → (s.host.link (s.boxFn b)).d3 = false →
    ((s.box b).state = .responseReady → Ends (.mbxRelease b) s (fun t => t.box b = { s.box b with state := .free, resp := [] }
      ∧ (∀ n, n ≠ b → t.box n = s.box n) ∧ t.mbx.jobs = s.mbx.jobs ∧ MailOnly s t))
    ∧ ((s.box b).state ≠ .responseReady → Idles (.mbxRelease b) s))
  ∧ (∀ (s : State) (b off : Nat) (l : List Byte), b < 32 → (s.host.link (s.boxFn b)).d3 = false →
    (0x100 ≤ off → off + l.length ≤ 0x1000 → (s.box b).state ≠ .submitted → Ends (.mbxAreaWrite b off l) s (fun t =>
      (∀ o, Tab.get 0 (t.box b).req o = if off - 0x100 ≤ o ∧ o < off - 0x100 + l.length then l.getD (o - (off - 0x100)) 0
        else Tab.get 0 (s.box b).req o)
      ∧ (∀ n, n ≠ b → t.box n = s.box n) ∧ t.mbx.jobs = s.mbx.jobs ∧ MailOnly s t))
    ∧ (0x100 ≤ off → off < 0x1000 → (s.box b).state = .submitted → Ends (.mbxAreaWrite b off l) s (fun t =>
      t.mbx = s.mbx ∧ Tab.get 0 t.tel.mbxCtr (8 * s.boxFn b + 7) = Tab.get 0 s.tel.mbxCtr (8 * s.boxFn b + 7) + 1 ∧ MailOnly s t))
    ∧ (0x1000 ≤ off → off < 0x2000 → Ends (.mbxAreaWrite b off l) s (fun t => t.mbx = s.mbx ∧ MailOnly s t)))

/-- START of a STOPPED or HALTED channel makes it RUNNING at DMA_START_ADDR with the phase of PHASE_INIT and fetches a
descriptor. STOP of an IDLE channel stops it, of a RUNNING memory channel with a transfer in progress waits for its end.
ABORT stops a RUNNING or IDLE channel at once. A doorbell is counted; in IDLE it has the tail refetched. The other
channels stay. Commands: DMA_START, DMA_STOP, DMA_ABORT, DMA_DOORBELL. (R343, R347, R350, R364, R366) -/
def Obligations.DmaControl : Prop :=
  (∀ (s : State) (fn c : Nat) (w : BitVec 64), c < 128 → s.hears fn (s.chFn c) → clearBits w [1, 2] →
    ((s.chan c).state = .stopped ∨ (s.chan c).state = .halted) →
    Ends (.dmaStart fn c w) s (fun t => (t.chan c).state = .running ∧ (t.chan c).cur = (s.chan c).start
      ∧ (t.chan c).phase = bit w.toNat 3 ∧ (t.chan c).fetching = true ∧ (t.chan c).desc = none
      ∧ ∀ n, n ≠ c → t.chan n = s.chan n))
  ∧ (∀ (s : State) (fn c : Nat) (w : BitVec 64), c < 128 → s.hears fn (s.chFn c) → clearBits w [0, 2] →
    ((s.chan c).state = .idle → Ends (.dmaStop fn c w) s (fun t => (t.chan c).state = .stopped ∧ ∀ n, n ≠ c → t.chan n = s.chan n))
    ∧ ((s.chan c).state = .running → (s.chan c).mode = 0 → (s.chan c).desc ≠ none → Ends (.dmaStop fn c w) s (fun t =>
      (t.chan c).state = .running ∧ (t.chan c).stopReq = true ∧ (t.chan c).desc = (s.chan c).desc)))
  ∧ (∀ (s : State) (fn c : Nat) (w : BitVec 64), c < 128 → s.hears fn (s.chFn c) → clearBits w [0, 1] →
    ((s.chan c).state = .running ∨ (s.chan c).state = .idle) →
    Ends (.dmaAbort fn c w) s (fun t => (t.chan c).state = .stopped ∧ (t.chan c).desc = none ∧ ∀ n, n ≠ c → t.chan n = s.chan n))
  ∧ (∀ (s : State) (fn c : Nat) (w : BitVec 64), c < 128 → s.hears fn (s.chFn c) →
    Ends (.dmaDoorbell fn c w) s (fun t => (t.chan c).rung = ((s.chan c).rung + 1) % 2 ^ 32
      ∧ ((s.chan c).state = .idle → (s.chan c).tailRefetch = false → (s.chan c).consumed = (s.chan c).rung →
        (t.chan c).tailRefetch = true ∧ (t.chan c).consumed = (t.chan c).rung)
      ∧ ∀ n, n ≠ c → t.chan n = s.chan n))

/-- A descriptor of the expected phase becomes the one in progress, or asks for its DIR 0 data in requests rounded
outward to 64-byte blocks; one that is rejected halts the channel with its status; a marker completes at once with no
bytes. A copy of the other phase is stale; the eighth stale re-read halts the channel with STALE_DESC, and a re-read for
which no tag is free waits for one. The end of a transfer moves its data, device memory to the host, host data to the
staging region, a FIFO's packet to the host or host data to a FIFO; its entry is written and counted, with INT
signalled, or held by STRICT_FLUSH until the flush read ends; and the channel goes on, IDLE at the end of the chain,
else to the link, the phase flipping on a backward one. An error of device memory halts with DEVICE_ERROR, of a fetch
with HOST_ERROR. A refetched tail with EOC clear leads on to its link. The addresses of the single requests, the moment
at which a waiting one is sent and the re-read delivered as DESCRIPTOR_FETCHED are the model's choice (log entries 62,
106 and 115). Commands: DESCRIPTOR_FETCHED, STALE_DESC_REREAD, DMA_TRANSFER_DONE, STRICT_FLUSH_DONE, TAIL_REFETCHED,
DMA_READ_ERROR. (R348, R350, R351, R352, R353, R354, R355, R358, R359, R361, R363, R377) -/
def Obligations.DmaProgress : Prop :=
  (∀ (s : State) (c : Nat) (d : List Byte), s.awaitsDesc c → d.length = 32 →
    (dPhase d = (s.chan c).phase → s.descFault (s.chan c) d = none → dMarker d = false →
      (dToHost d = true → Ends (.descriptorFetched c d) s (fun t => (t.chan c).desc = some d ∧ (t.chan c).fetching = false
        ∧ (t.chan c).state = .running))
      ∧ (dToHost d = false → Ends (.descriptorFetched c d) s (fun t => (t.chan c).desc = some d ∧ (t.chan c).fetching = false
        ∧ ∀ p ∈ splitRange (s.host.link (s.chFn c)).maxRead (dHost d / 64 * 64) (ceilDiv (dHost d + dLen d - dHost d / 64 * 64) 64 * 64),
          .hostFetch (s.chFn c) p.1 p.2 (s.noSnoop c d) ∈ t.out
          ∨ ∃ x ∈ (t.chan c).reads, x.addr = p.1 ∧ x.len = p.2 ∧ x.payload = true ∧ x.ns = s.noSnoop c d)))
    ∧ (dPhase d = (s.chan c).phase → s.descFault (s.chan c) d = none → dMarker d = true → (s.chan c).atEase →
      Ends (.descriptorFetched c d) s (fun t => Completed s t c d 0 0 false false ∧ WentOn s t c d ∧ t.host.staging = s.host.staging
        ∧ t.host.fifos = s.host.fifos))
    ∧ (dPhase d = (s.chan c).phase → (s.chan c).atEase →
      rd d 11 1 ≠ 0 ∨ 128 ≤ dFlags d ∨ dEoc d = false ∧ dLink d % 32 ≠ 0 ∨ (s.chan c).mode = 2 ∧ dToHost d = true
        ∨ (s.chan c).mode = 1 ∧ dToHost d = false →
      Ends (.descriptorFetched c d) s (fun t => Completed s t c d 2 0 false false ∧ (t.chan c).state = .halted ∧ (t.chan c).haltCause = 2
        ∧ t.host.intPending c = true))
    ∧ (dPhase d = (s.chan c).phase → (s.chan c).atEase → rd d 11 1 = 0 → dFlags d < 128 → (dEoc d = true ∨ dLink d % 32 = 0) →
      (s.chan c).mode = 0 → dMarker d = false → s.rangeOk (dToHost d) (dHandle d) (dLen d) = false →
      Ends (.descriptorFetched c d) s (fun t => Completed s t c d 3 0 false false ∧ (t.chan c).state = .halted ∧ (t.chan c).haltCause = 3))
    ∧ (dPhase d ≠ (s.chan c).phase → (s.chan c).stale < 8 → Ends (.descriptorFetched c d) s (fun t =>
      (t.chan c).waitStale = true ∧ (t.chan c).fetching = false ∧ (t.chan c).desc = (s.chan c).desc))
    ∧ (dPhase d ≠ (s.chan c).phase → 8 ≤ (s.chan c).stale → Ends (.descriptorFetched c d) s (fun t =>
      (t.chan c).state = .halted ∧ (t.chan c).haltCause = 1)))
  ∧ (∀ (s : State) (c : Nat) (d : List Byte), c < 128 → d.length = 32 → (s.chan c).state = .running → (s.chan c).waitStale = true →
    (s.canRead c = true → (s.chan c).reads = [] → dPhase d ≠ (s.chan c).phase →
      ((s.chan c).stale < 7 → Ends (.staleDescReread c d) s (fun t => (t.chan c).stale = (s.chan c).stale + 1
        ∧ (t.chan c).state = .running))
      ∧ (7 ≤ (s.chan c).stale → Ends (.staleDescReread c d) s (fun t => (t.chan c).state = .halted ∧ (t.chan c).haltCause = 1)))
    ∧ (s.canRead c = false → Ends (.staleDescReread c d) s (fun t => (t.chan c).stale = (s.chan c).stale + 1
      ∧ (t.chan c).fetching = true ∧ (t.chan c).waitStale = false
      ∧ ∃ x ∈ (t.chan c).reads, x.addr = (s.chan c).cur.toNat / 64 * 64 ∧ x.payload = false ∧ x.ns = false)))
  ∧ (∀ (s : State) (c : Nat) (d data : List Byte), s.transfers c 0 d → (s.chan c).atEase → dToHost d = true →
    Ends (.dmaTransferDone c 0 data) s (fun t => Wrote s t c (dHost d) d (s.deviceBytes (dHandle d) (dLen d))
      ∧ Completed s t c d 0 (dLen d) false false ∧ WentOn s t c d))
  ∧ (∀ (s : State) (c : Nat) (d data : List Byte), s.transfers c 0 d → (s.chan c).atEase → dToHost d = true → 0 < dLen d →
    Ends (.dmaTransferDone c 1 data) s (fun t => (t.chan c).state = .halted ∧ (t.chan c).haltCause = 5
      ∧ (t.chan c).comp = (s.chan c).comp + 1 ∧ ∃ a n ro ns, .hostPoison (s.chFn c) a n ro ns ∈ t.out))
  ∧ (∀ (s : State) (c : Nat) (d data : List Byte), s.transfers c 0 d → (s.chan c).atEase → dToHost d = false →
    (∀ i, i < dLen d → receiptPlace (dHandle d - s.regionBase 4 + i) = none) →
    Ends (.dmaTransferDone c 0 data) s (fun t =>
      (∀ i, i < dLen d → Tab.get 0 t.host.staging (dHandle d - s.regionBase 4 + i) = data.getD i 0)
      ∧ (∀ a, a < dHandle d - s.regionBase 4 ∨ dHandle d - s.regionBase 4 + dLen d ≤ a →
        Tab.get 0 t.host.staging a = Tab.get 0 s.host.staging a)
      ∧ Completed s t c d 0 (dLen d) false false ∧ WentOn s t c d))
  ∧ (∀ (s : State) (c : Nat) (d data b : List Byte), s.transfers c 1 d → (s.chan c).atEase → (s.chan c).inPkt = false →
    ((s.fifo (2 * (s.chan c).hostPort)).head? = none → Idles (.dmaTransferDone c 0 data) s)
    ∧ ((s.fifo (2 * (s.chan c).hostPort)).head?.map (fun w => w.take (32 + rd w 0 2)) = some b →
      Ends (.dmaTransferDone c 0 data) s (fun t => Wrote s t c (dHost d) d (b.take (dLen d))
        ∧ Completed s t c d 0 (min (dLen d) b.length) true (decide (b.length ≤ dLen d)) ∧ WentOn s t c d
        ∧ (b.length ≤ dLen d → (t.chan c).inPkt = false
          ∧ t.fifo (2 * (s.chan c).hostPort) = (s.fifo (2 * (s.chan c).hostPort)).take.synced)
        ∧ (dLen d < b.length → (t.chan c).inPkt = true ∧ (t.chan c).pktLeft = b.drop (dLen d)
          ∧ t.host.fifos = s.host.fifos))))
  ∧ (∀ (s : State) (c : Nat) (d data all : List Byte), s.transfers c 2 d → (s.chan c).atEase →
    all = (s.chan c).pktLeft ++ padTo (dLen d) data → 32 ≤ all.length →
    (hostPacketOk all = true → all.length = 32 + hostLen all → (s.fifo (2 * (s.chan c).hostPort + 1)).takesPart all true = true →
      Ends (.dmaTransferDone c 0 data) s (fun t => (t.fifo (2 * (s.chan c).hostPort + 1)).writing = all
        ∧ Completed s t c d 0 (dLen d) (!(s.chan c).inPkt) true ∧ WentOn s t c d ∧ (t.chan c).inPkt = false))
    ∧ (hostPacketOk all = true → all.length < 32 + hostLen all → (s.fifo (2 * (s.chan c).hostPort + 1)).takesPart all false = true →
      Ends (.dmaTransferDone c 0 data) s (fun t => (t.chan c).pktLeft = all ∧ (t.chan c).inPkt = true ∧ t.host.fifos = s.host.fifos
        ∧ Completed s t c d 0 (dLen d) (!(s.chan c).inPkt) false ∧ WentOn s t c d)))
  ∧ (∀ (s : State) (c : Nat) (i : Bool), c < 128 → (s.chan c).flush = some i → (s.chan c).cq = [] → (s.chan c).due = false →
    Ends (.strictFlushDone c) s (fun t => (t.chan c).flush = none ∧ (t.chan c).state = (s.chan c).state
      ∧ (i = true → t.host.intPending c = true)))
  ∧ (∀ (s : State) (c : Nat) (d : List Byte), c < 128 → d.length = 32 → (s.chan c).state = .idle → (s.chan c).tailRefetch = true →
    (s.chan c).unsent = false → dEoc d = false → dLink d % 32 = 0 →
    Ends (.tailRefetched c d) s (fun t => (t.chan c).state = .running ∧ (t.chan c).cur = BitVec.ofNat 64 (dLink d)
      ∧ (t.chan c).fetching = true
      ∧ (t.chan c).phase = if (BitVec.ofNat 64 (dLink d)).toNat ≤ (s.chan c).cur.toNat then !(s.chan c).phase else (s.chan c).phase))
  ∧ (∀ (s : State) (c : Nat), s.awaitsDesc c →
    Ends (.dmaReadError c) s (fun t => (t.chan c).state = .halted ∧ (t.chan c).haltCause = 4))

/-- A write of 1 clears the function's own pending bits that it names, but those that the hardware sets in the same
cycle stay 1; of the other function's sources none is cleared, and no source of another register changes. A write of
INT_MAP sets vector and enable of its source and, on a pending source with ENABLE 1, an open vector and MSI-X enabled,
sends the message. Unmasking a vector with a pending message sends it. While the host has not enabled MSI-X, neither
sends anything (the model's choice that no message is kept for later: log entry 115). Commands: INT_PENDING_CLEAR,
INT_MAP_WRITE, MSIX_UNMASK. (R11, R342, R368, R369, R370) -/
def Obligations.InterruptRows : Prop :=
  (∀ (s : State) (fn k : Nat) (w same : BitVec 64), k < 4 → s.hears fn fn →
    Ends (.intPendingClear fn k w same) s (fun t =>
      (∀ j, j < 64 → 64 * k + j ≤ 187 → s.ownsInt fn (64 * k + j) = true →
        t.host.intPending (64 * k + j) = (same.getLsbD j || s.host.intPending (64 * k + j) && !w.getLsbD j))
      ∧ (∀ j, j < 64 → 64 * k + j ≤ 187 → s.ownsInt fn (64 * k + j) = false →
        t.host.intPending (64 * k + j) = (same.getLsbD j || s.host.intPending (64 * k + j)))
      ∧ ∀ n, n / 64 ≠ k → t.host.intPending n = s.host.intPending n))
  ∧ (∀ (s : State) (fn n : Nat) (w : BitVec 64), n < 256 → s.hears fn fn → s.ownsInt fn n = true →
    Ends (.intMapWrite fn n w) s (fun t => t.host.intVector n = w.toNat % 2048 ∧ t.host.intEnabled n = w.getLsbD 16
      ∧ (∀ m, m ≠ n → t.host.intVector m = s.host.intVector m ∧ t.host.intEnabled m = s.host.intEnabled m)
      ∧ (w.getLsbD 16 = true → s.host.intPending n = true → (s.host.link fn).msixOn = true → (s.host.link fn).fnMask = false →
        (s.host.link fn).vecOpen.contains (w.toNat % 2048) = true → t.out = s.host.message fn (w.toNat % 2048) :: s.out)
      ∧ ((s.host.link fn).msixOn = false → t.out = s.out ∧ t.host.links = s.host.links)))
  ∧ (∀ (s : State) (fn v : Nat), v < 2048 → s.hears fn fn →
    ((s.host.link fn).pba.contains v = true → (s.host.link fn).fnMask = false → (s.host.link fn).msixOn = true →
      Ends (.msixUnmask fn v) s (fun t => t.out = s.host.message fn v :: s.out ∧ v ∈ (t.host.link fn).vecOpen
        ∧ v ∉ (t.host.link fn).pba))
    ∧ ((s.host.link fn).msixOn = false → Ends (.msixUnmask fn v) s (fun t => t.out = s.out ∧ v ∈ (t.host.link fn).vecOpen
      ∧ (t.host.link fn).pba = (s.host.link fn).pba)))

/-- A write to a reserved address and an access of a bad size or alignment change nothing but the event log and its
interrupt. A register write stores its fields: the scratch register, the start address, the EVT ring's base and size;
the period of a running sweep stays. CAPTURE copies the time base into its latch. A POP removes the oldest entry of a
FIFO the host owns. Commands: TIME_CAPTURE, TXTS_POP, RESERVED_WRITE, BAD_SIZE_ACCESS, REGISTER_WRITE. (R10, R219, R229,
R345, R346, R365, R463, R464, R471) -/
def Obligations.RegisterRows : Prop :=
  (∀ (s : State) (fn off size : Nat), s.hears fn fn → s.regFor fn off = none → s.areaFor fn off = none →
    Ends (.reservedWrite fn off size) s (fun t => t = s.raise 0x0101 0 (le 4 off ++ le 1 size)))
  ∧ (∀ (s : State) (fn off size : Nat) (wr : Bool), s.hears fn fn → goodAccess off size = false → s.areaFor fn off = none →
    Ends (.badSizeAccess fn off size wr) s (fun t => t = s.raise 0x0101 0 (le 4 off ++ le 1 size)))
  ∧ (∀ (s : State) (fn : Nat) (w : BitVec 64), s.hears fn fn → fn < 2 →
    Ends (.registerWrite fn 0x10 8 w) s (fun t => (t.host.link fn).scratch = w ∧ ∀ m, m ≠ fn → t.host.link m = s.host.link m))
  ∧ (∀ (s : State) (fn c : Nat) (w : BitVec 64), s.hears fn (s.chFn c) → c < 128 →
    Ends (.registerWrite fn (0x80000 + 0x800 * c + 0x10) 8 w) s (fun t => (t.chan c).start = BitVec.ofNat 64 (w.toNat / 32 * 32)
      ∧ ∀ n, n ≠ c → t.chan n = s.chan n))
  ∧ (∀ (s : State) (fn : Nat) (w : BitVec 64), s.hears fn 0 →
    Ends (.registerWrite fn 0xE0010 8 w) s (fun t => t.evt = { s.evt with base := BitVec.ofNat 64 (w.toNat / 4096 * 4096) })
    ∧ (6 ≤ w.toNat % 32 → w.toNat % 32 ≤ 20 → Ends (.registerWrite fn 0xE0018 8 w) s (fun t => t.evt = { s.evt with k := w.toNat % 32 }))
    ∧ (s.swp.enable = true → Ends (.registerWrite fn 0xC0010 8 w) s (fun t => t.swp = s.swp)))
  ∧ (∀ (s : State) (fn : Nat), s.hears fn 0 →
    Ends (.timeCapture fn) s (fun t => t.time = { s.time with latchSec := t.time.latchSec, latchNs := t.time.latchNs }
      ∧ (t.time.latchSec, t.time.latchNs) = s.time.latched))
  ∧ (∀ (s : State) (fn sl : Nat), s.hears fn 0 → sl < 16 → s.fifoMoaras sl = false →
    Ends (.txtsPop fn sl) s (fun t => (t.tsFifo sl).entries = (s.tsFifo sl).entries.tail ∧ ∀ n, n ≠ sl → t.tsFifo n = s.tsFifo n))

/-- SNAP and a sweep instant of an enabled sweep with room in the ring latch a dump and count it taken; with a dump in
progress an instant is missed and SNAP waits. A dump written advances the tail by its length. A head moves to a count
between itself and the tail and to no other. RING_RESET with ENABLE 0 puts head and tail of its ring at 0. A write of
EVT_CTRL sets ENABLE and MIN_SEVERITY. Commands: SWEEP_SNAP, SWEEP_RING_RESET, SWEEP_HEAD_WRITE, EVT_RING_RESET,
EVT_ENABLE_WRITE, EVT_HEAD_WRITE, SWEEP_INSTANT, SWEEP_DUMP_WRITTEN. (R460, R462, R463, R464, R465, R470, R471) -/
def Obligations.SweepAndEventRows : Prop :=
  (∀ (s : State) (fn : Nat) (w : BitVec 64), s.hears fn 0 → bit w.toNat 0 = true → bit w.toNat 2 = false →
    (s.swp.dump = none → (s.fecAll.sweepDump s.swp.taken true).length ≤ 2 ^ s.swp.k - (s.swp.tail - s.swp.head) →
      s.swp.enable = true → Ends (.sweepSnap fn w) s (fun t => t.swp.dump = some (s.fecAll.sweepDump s.swp.taken true) ∧ t.swp.taken = s.swp.taken + 1))
    ∧ (s.swp.dump ≠ none → Ends (.sweepSnap fn w) s (fun t => t.swp = { s.swp with enable := true, snapDue := true })))
  ∧ (∀ (s : State), s.swp.enable = true → s.swp.period ≠ 0 →
    (s.swp.dump = none → (s.fecAll.sweepDump s.swp.taken false).length ≤ 2 ^ s.swp.k - (s.swp.tail - s.swp.head) →
      Ends .sweepInstant s (fun t => t.swp.dump = some (s.fecAll.sweepDump s.swp.taken false) ∧ t.swp.taken = s.swp.taken + 1))
    ∧ (s.swp.dump ≠ none → Ends .sweepInstant s (fun t => t.swp = { s.swp with missed := s.swp.missed + 1 }
      ∧ Tab.get 0 t.tel.ctr 1 = Tab.get 0 s.tel.ctr 1 + 1)))
  ∧ (∀ (s : State) (d : List Byte), s.swp.dump = some d → s.swp.snapDue = false →
    Ends .sweepDumpWritten s (fun t => t.swp = { s.swp with dump := none, tail := s.swp.tail + d.length, lastSeq := dumpSeq d }
      ∧ Tab.get 0 t.tel.ctr 0 = Tab.get 0 s.tel.ctr 0 + 1 ∧ t.host.intPending 177 = true))
  ∧ (∀ (s : State) (fn : Nat) (w : BitVec 64), s.hears fn 0 →
    Ends (.sweepHeadWrite fn false w) s (fun t => t.swp = { s.swp with head := if s.swp.head ≤ w.toNat ∧ w.toNat ≤ s.swp.tail then w.toNat else s.swp.head })
    ∧ Ends (.sweepHeadWrite fn true w) s (fun t => t.swp = { s.swp with lHead := if s.swp.lHead ≤ w.toNat ∧ w.toNat ≤ s.swp.lTail then w.toNat else s.swp.lHead })
    ∧ Ends (.evtHeadWrite fn w) s (fun t => t.evt.head = if s.evt.head ≤ w.toNat ∧ w.toNat ≤ s.evt.tail then w.toNat else s.evt.head)
    ∧ (bit w.toNat 0 = false → bit w.toNat 1 = false →
      Ends (.sweepRingReset fn false w) s (fun t => t.swp = { s.swp with enable := false, head := 0, tail := 0 })
      ∧ Ends (.sweepRingReset fn true w) s (fun t => t.swp = { s.swp with lEnable := false, lHead := 0, lTail := 0 }))
    ∧ (bit w.toNat 0 = false → Ends (.evtRingReset fn w) s (fun t => t.evt.enable = false ∧ t.evt.head = 0 ∧ t.evt.tail = 0
      ∧ t.evt.held = s.evt.held))
    ∧ Ends (.evtEnableWrite fn w) s (fun t => t.evt.enable = bit w.toNat 0 ∧ t.evt.minSev = w.toNat / 16 % 4))

/-- PORST_N low puts mailboxes, sets, tables, host interface, ports, packets and HBM division at their defaults, keeps
the other pins, the supplies, the repair and life records, both image slots, certificates, minimum SVN and pinned
manager, and holds the device; so does a supply fault with its sets and packets. WRST_N low keeps the HBM division, the
staging region and the recorded outcomes and holds the shadow; during a cold reset it changes its own pin alone. The
last pin or supply to become good lets the device leave reset. A boot with an image that may run and a processor that
passes its self-test makes Moaras ready with bake epoch 1; without a processor Moaras stays as it was, and without an
image the ROM writes the boot results of both slots to the console, and no later end of the boot changes anything. A
function reset and the loss of the host link return the function's channels and mailboxes to their defaults, and the
link drops unless the reset is a Function Level Reset; D3hot sets D3 and stops the channels; a link that trains takes
its width and speed. The model's choices: a link that does not train changes nothing, and PCIE_LINK_UP ends D3 (log
entries 66 and 106); without an active processor the device is never ready (103); what a function reset and a link loss
return to defaults (67); the held shadow stands over repeated warm resets (53, 110). Commands: PORST_N_LOW,
PORST_N_RISE, WRST_N_LOW, WRST_N_RISE, MOARAS_BOOT_DONE, SUPPLY_FAULT, PCIE_FUNCTION_RESET, HOST_LINK_LOSS, D3HOT_ENTRY,
PCIE_LINK_UP, SUPPLIES_VALID. (R264, R341, R342, R343, R486, R487, R488, R489, R491, R492, R493, R510) -/
def Obligations.ResetRows : Prop :=
  (∀ s : State, Ends .porstNLow s (fun t => t.pwr.porst = false ∧ t.pwr.inReset = true ∧ t.pwr.bringup = some .cold
      ∧ t.pwr.wrst = s.pwr.wrst ∧ t.pwr.supplies = s.pwr.supplies ∧ t.pwr.repairLog = s.pwr.repairLog ∧ t.pwr.lifeW = s.pwr.lifeW
      ∧ t.mbx = { MbxSt.init with boots := s.mbx.boots } ∧ t.bake = State.reset.bake ∧ t.fwd = State.reset.fwd
      ∧ t.host = State.reset.host ∧ t.ports = [] ∧ t.pkts = [] ∧ t.pwr.regions = State.reset.pwr.regions
      ∧ t.ident.slotA = s.ident.slotA ∧ t.ident.slotB = s.ident.slotB ∧ t.ident.certs = s.ident.certs
      ∧ t.ident.cfg0 = s.ident.cfg0 ∧ t.ident.cfg1 = s.ident.cfg1 ∧ t.ident.minSvn = s.ident.minSvn ∧ t.ident.pin = s.ident.pin))
  ∧ (∀ s : State, Ends .supplyFault s (fun t => t.pwr.supplies = false ∧ t.pwr.emergency = false ∧ t.pwr.inReset = true ∧ t.pwr.bringup = some .cold
      ∧ t.pwr.porst = s.pwr.porst ∧ t.pwr.wrst = s.pwr.wrst ∧ t.mbx.ready = false ∧ t.bake = State.reset.bake ∧ t.pkts = []))
  ∧ (∀ (s : State) (role : Nat), s.pwr.porst = false →
    Ends (.porstNRise role) s (fun t => t = { s with pwr := { s.pwr with
      porst := true, roleStrap := role % 4,
      inReset := s.pwr.inReset && !(s.pwr.wrst && s.pwr.supplies && !s.pwr.emergency) } }))
  ∧ (∀ s : State, s.pwr.porst = true → s.pwr.emergency = false → s.pwr.bringup ≠ some .cold →
    Ends .wrstNLow s (fun t => t.pwr.wrst = false ∧ t.pwr.inReset = true ∧ t.pwr.bringup = some .warm
      ∧ t.pwr.regions = s.pwr.regions ∧ t.bake.heldShadow ≠ none
      ∧ (s.bake.heldShadow ≠ none → t.bake.heldShadow = s.bake.heldShadow) ∧ t.bake.outcomes = s.bake.outcomes
      ∧ t.bake.heldEpoch = (if s.pwr.bringup = none then s.bake.epoch else s.bake.heldEpoch) ∧ t.host.staging = s.host.staging ∧ t.pkts = [] ∧ ∀ p, (t.port p).link = false))
  ∧ (∀ s : State, s.pwr.porst = false → Ends .wrstNLow s (fun t => t = { s with pwr := { s.pwr with wrst := false } }))
  ∧ (∀ s : State, s.pwr.wrst = false →
    Ends .wrstNRise s (fun t => t = { s with pwr := { s.pwr with
      wrst := true, inReset := s.pwr.inReset && !(s.pwr.porst && s.pwr.supplies && !s.pwr.emergency) } }))
  ∧ (∀ s : State, Ends .suppliesValid s (fun t => t = { s with pwr := { s.pwr with
      supplies := true, inReset := s.pwr.inReset && !(s.pwr.porst && s.pwr.wrst && !s.pwr.emergency) } }))
  ∧ (∀ s : State, s.ident.console.isSome = true → Idles .moarasBootDone s)
  ∧ (∀ (s : State) (k : ResetKind), s.pwr.bringup = some k → s.pwr.inReset = false → s.ident.console = none →
    (s.ident.romBoot.booted = true → (((s.applyRepairs k).testMpA).mpIn .active).isSome = true → Ends .moarasBootDone s (fun t => t.mbx.ready = true
      ∧ t.mbx.boots = (s.mbx.boots + 1) % 2 ^ 32 ∧ t.bake.epoch = 1 ∧ t.pwr.bringup = none
      ∧ t.pwr.lastCause = if k = ResetKind.warm then 1 else if s.pwr.flashCause then 2 else 0))
    ∧ ((((s.applyRepairs k).testMpA).mpIn .active) = none → Ends .moarasBootDone s (fun t => t.mbx.ready = s.mbx.ready
      ∧ t.pwr.bringup = some k))
    ∧ (s.ident.romBoot.booted = false → Ends .moarasBootDone s (fun t => t.mbx = s.mbx ∧ t.pwr.bringup = some k
      ∧ t.ident = { s.ident.romBoot with console := some s.upNs }
      ∧ .console s.ident.romBoot.slotA.result s.ident.romBoot.slotB.result ∈ t.out)))
  ∧ (∀ (s : State) (fn kind : Nat), s.fnExists fn = true → Ends (.pcieFunctionReset fn kind) s (fun t =>
      (∀ c, c < 128 → s.chFn c = fn → t.chan c = Chan.init)
      ∧ (∀ b, b < 32 → s.boxFn b = fn → t.box b = Mbox.init)
      ∧ (∀ b, b < 32 → s.boxFn b ≠ fn → t.box b = s.box b)
      ∧ (t.host.link fn).up = (decide (2 ≤ kind) && (s.host.link fn).up) ∧ (t.host.link fn).scratch = 0
      ∧ (t.host.link fn).d3 = false ∧ (fn = 0 → t.evt.enable = false ∧ t.swp.enable = false)
      ∧ t.fwd = s.fwd ∧ t.bake = s.bake ∧ t.pkts = s.pkts))
  ∧ (∀ (s : State) (fn : Nat), s.fnExists fn = true → Ends (.hostLinkLoss fn) s (fun t =>
      (∀ c, c < 128 → s.chFn c = fn → t.chan c = Chan.init) ∧ (∀ b, b < 32 → s.boxFn b = fn → t.box b = Mbox.init)
      ∧ (t.host.link fn).up = false))
  ∧ (∀ (s : State) (fn : Nat), s.fnExists fn = true → Ends (.d3hotEntry fn) s (fun t => (t.host.link fn).d3 = true
      ∧ (∀ c, c < 128 → s.chFn c = fn → (s.chan c).state = .running ∨ (s.chan c).state = .idle → (t.chan c).state = .stopped)
      ∧ t.mbx = s.mbx))
  ∧ (∀ (s : State) (fn speed width : Nat) (flit : Bool), s.fnExists fn = true → s.pwr.inReset = false →
    (linkTrains s.ident.bifurcated speed width flit = true → Ends (.pcieLinkUp fn speed width flit) s (fun t =>
      t.host.link fn = { s.host.link fn with up := true, speed, width, flit, d3 := false }
      ∧ (∀ m, m ≠ fn → t.host.link m = s.host.link m) ∧ t.host.chans = s.host.chans ∧ t.mbx = s.mbx))
    ∧ (linkTrains s.ident.bifurcated speed width flit = false → Idles (.pcieLinkUp fn speed width flit) s))

/-- A droop trip stretches its slice's clock and its cluster's ECLK, a further one begins the hold again. With the
detectors recovered each clock returns once its 256 cycles of hold have elapsed, ECLK after 128 ticks of 1.25 ns and
CCLK after 171 (the model's choice of the tick: log entry 19), and the length of the stretch is counted; without
recovery nothing changes. A sample below 115 degrees C sets the warning and the trip at their thresholds; at or above it
the device enters a thermal emergency, from a warm reset too, but not from a cold one. The clear timers end the trip
below 102 degrees C and the warning 3 degrees C below its threshold. Each hour adds its weight to the life record. A
correctable HBM error is counted, and the third of a row in 24 h retires it; an uncorrectable one engages the spare,
which takes over when its copy is done, or leaves the stack without one; the frame that is read out of the park or spill
region goes, and a DMA channel that reads another region halts with DEVICE_ERROR. The spare itself may fail its pattern
test: number 32 for it, what it leaves in a stack, and the numbers of the repair record are the model's choice (log
entries 91 and 103). Commands: DROOP_TRIP, STRETCH_HOLD_END, THERMAL_SAMPLE, THERMAL_CLEAR_TIMER, LIFE_HOUR_TICK,
HBM_CORRECTABLE_ERROR, HBM_UNCORRECTABLE_READ, HBM_PC_SPARE_DONE. (R260, R268, R480, R481, R482, R484, R485, R486, R499,
R500, R501) -/
def Obligations.PowerRows : Prop :=
  (∀ (s : State) (n : Nat), n < 16 →
    ((s.sliceSt n).state ≠ .parked → (s.sliceSt n).stretched = false → Ends (.droopTrip n) s (fun t =>
      t.sliceSt n = { s.sliceSt n with stretched := true, eStretched := true, stretchAt := s.upNs, holdTick := s.up }
      ∧ (∀ m, m ≠ n → t.sliceSt m = s.sliceSt m) ∧ (t.cluster n).eclkDiv = (if s.pwr.trip then 4 else 3)
      ∧ Tab.get 0 t.tel.pwrCtr 0 = Tab.get 0 s.tel.pwrCtr 0 + 1))
    ∧ ((s.sliceSt n).state ≠ .parked → (s.sliceSt n).stretched = true → Ends (.droopTrip n) s (fun t =>
      t.sliceSt n = { s.sliceSt n with eStretched := true, holdTick := s.up } ∧ t.tel.pwrCtr = s.tel.pwrCtr
      ∧ (∀ m, m ≠ n → t.sliceSt m = s.sliceSt m) ∧ (t.cluster n).eclkDiv = (if s.pwr.trip then 4 else 3)))
    ∧ ((s.sliceSt n).state = .parked → Idles (.droopTrip n) s))
  ∧ (∀ (s : State) (n : Nat), n < 16 → Idles (.stretchHoldEnd n false) s
    ∧ ((s.sliceSt n).stretched = false → Idles (.stretchHoldEnd n true) s)
    ∧ ((s.sliceSt n).stretched = true → s.up < (s.sliceSt n).holdTick + 128 → Idles (.stretchHoldEnd n true) s)
    ∧ ((s.sliceSt n).stretched = true → (s.sliceSt n).holdTick + 128 ≤ s.up → s.up < (s.sliceSt n).holdTick + 171 →
      Ends (.stretchHoldEnd n true) s (fun t => t.sliceSt n = { s.sliceSt n with eStretched := false }
        ∧ (t.cluster n).eclkDiv = if s.pwr.trip then 4 else 2))
    ∧ ((s.sliceSt n).stretched = true → (s.sliceSt n).holdTick + 171 ≤ s.up → Ends (.stretchHoldEnd n true) s (fun t =>
      (t.sliceSt n).stretched = false ∧ (t.sliceSt n).eStretched = false ∧ ((t.cluster n).eclkDiv = if s.pwr.trip then 4 else 2)
      ∧ Tab.get 0 t.tel.pwrCtr 1 = Tab.get 0 s.tel.pwrCtr 1 + BitVec.ofNat 64 (s.upNs - (s.sliceSt n).stretchAt))))
  ∧ (∀ (s : State) (l : List Int), s.pwr.porst = false ∨ s.pwr.supplies = false ∨ s.pwr.emergency = true → Idles (.thermalSample l) s)
  ∧ (∀ (s : State) (l : List Int), s.pwr.porst = true → s.pwr.supplies = true → s.pwr.emergency = false →
    (s.pwr.inReset = true → (hottestOf l).2 < 1840 → Idles (.thermalSample l) s)
    ∧ (s.pwr.inReset = false → (hottestOf l).2 < 1840 → Ends (.thermalSample l) s (fun t => t.pwr.hottest = (hottestOf l).2
      ∧ t.pwr.warn = (s.pwr.warn || decide ((16 * s.pwr.warnC : Int) ≤ (hottestOf l).2))
      ∧ t.pwr.trip = (s.pwr.trip || decide (1680 ≤ (hottestOf l).2))
      ∧ (s.pwr.trip = false → 1680 ≤ (hottestOf l).2 → ∀ n, n < 16 → (t.cluster n).eclkDiv = 4)))
    ∧ (1840 ≤ (hottestOf l).2 → Ends (.thermalSample l) s (fun t => t.pwr.emergency = true ∧ t.pwr.inReset = true
      ∧ t.pwr.porst = s.pwr.porst ∧ t.mbx.ready = false ∧ t.pkts = [] ∧ t.thermTripN = false)))
  ∧ (∀ s : State, s.pwr.trip = true → s.pwr.hottest < 1632 → Ends (.thermalClearTimer true) s (fun t =>
      t.pwr = { s.pwr with trip := false } ∧ ∀ n, n < 16 → (t.cluster n).eclkDiv = if (s.sliceSt n).eStretched then 3 else 2))
  ∧ (∀ s : State, s.pwr.warn = true → s.pwr.hottest < 16 * s.pwr.warnC - 48 → Ends (.thermalClearTimer false) s (fun t =>
      t.pwr = { s.pwr with warn := false } ∧ t.leaven = s.leaven))
  ∧ (∀ (s : State) (avg : Int), Ends (.lifeHourTick avg) s (fun t => t = { s with pwr := { s.pwr with
      lifeW := s.pwr.lifeW + (if avg ≤ 1520 then 1 else if avg ≤ 1600 then 2 else if avg ≤ 1680 then 4 else 8),
      hours := (s.pwr.hours + 1) % 2 ^ 32, hotAtRecord := s.pwr.hottest } }))
  ∧ (∀ (s : State) (k pc row : Nat), k < 4 → pc < 32 → Ends (.hbmCorrectableError k pc row) s (fun t =>
      (t.stack k).correctable = ((s.stack k).correctable + 1) % 2 ^ 64
      ∧ (∀ m, m ≠ k → t.stack m = s.stack m)
      ∧ Tab.get 0 t.tel.pwrCtr 8 = Tab.get 0 s.tel.pwrCtr 8 + 1
      ∧ (2 ≤ ((s.stack k).errors.filter (fun e => e.1 == pc && e.2.1 == row
          && decide (s.upNs / 1000000000 ≤ e.2.2 + 86400))).length →
        (pc, row) ∈ (t.stack k).pending ∧ ((pc, row) ∉ (s.stack k).pending →
          Tab.get 0 t.tel.pwrCtr 9 = Tab.get 0 s.tel.pwrCtr 9 + 1))))
  ∧ (∀ (s : State) (k pc item : Nat), k < 4 → pc < 32 → Ends (.hbmUncorrectableRead k pc 3 item) s (fun t =>
      Tab.get 0 t.tel.pwrCtr 10 = Tab.get 0 s.tel.pwrCtr 10 + 1
      ∧ t.stack k = (if (s.stack k).spare = 0 ∧ (s.stack k).copying = none then { s.stack k with copying := some pc }
        else if (s.stack k).copying = some pc then s.stack k
        else { s.stack k with
          unspared := true, spare := if (s.stack k).spare = 1 ∧ (4, 33 * k + pc) ∈ s.pwr.repairLog then 2 else (s.stack k).spare })
      ∧ ∀ m, m ≠ k → t.stack m = s.stack m))
  ∧ (∀ (s : State) (k pc region item : Nat) (pk : Pkt), k < 4 → pc < 32 → region < 2 → Tab.find s.pkts item = some pk → pk.id = item →
    pk.whole = true →
    (pk.parked.isSome = true ∨ pk.spilled = true → Ends (.hbmUncorrectableRead k pc region item) s (fun t =>
      Tab.find t.pkts item = none ∧ t.tel.drops = s.tel.drops
      ∧ Tab.get 0 t.tel.pwrCtr 10 = Tab.get 0 s.tel.pwrCtr 10 + 1 ∧ Tab.get 0 t.tel.pwrCtr 11 = Tab.get 0 s.tel.pwrCtr 11 + 1))
    ∧ (pk.parked = none → pk.spilled = false → Ends (.hbmUncorrectableRead k pc region item) s (fun t =>
      t.pkts = s.pkts ∧ Tab.get 0 t.tel.pwrCtr 11 = Tab.get 0 s.tel.pwrCtr 11)))
  ∧ (∀ (s : State) (k pc region c : Nat) (d : List Byte), k < 4 → pc < 32 → region = 2 ∨ region = 4 ∨ region = 5 →
    s.transfers c 0 d → (s.chan c).atEase → dToHost d = true → 0 < dLen d → Ends (.hbmUncorrectableRead k pc region c) s (fun t =>
      (t.chan c).state = .halted ∧ (t.chan c).haltCause = 5
      ∧ Tab.get 0 t.tel.pwrCtr 10 = Tab.get 0 s.tel.pwrCtr 10 + 1))
  ∧ (∀ (s : State) (k region item : Nat), k < 4 → (s.stack k).spare = 0 → (s.stack k).copying = none →
    Ends (.hbmUncorrectableRead k 32 region item) s (fun t => t.stack k = { s.stack k with spare := 2 }
      ∧ (7, k) ∈ t.pwr.repairLog ∧ ∀ m, m ≠ k → t.stack m = s.stack m))
  ∧ (∀ (s : State) (k pc : Nat), k < 4 → (s.stack k).copying = some pc → Ends (.hbmPcSpareDone k) s (fun t =>
      t.stack k = { s.stack k with copying := none, spare := 1 } ∧ (4, 33 * k + pc) ∈ t.pwr.repairLog
      ∧ t.pwr.healthGen = (s.pwr.healthGen + 1) % 2 ^ 32))

/-- An edge of PPS_IN latches the time base, and with time source PPS_IN a servo that trims moves the increment within
its range, but for HOLDOVER, which freezes it; without an edge in time PPS_IN is no longer valid and LOCKED goes to
HOLDOVER where it is the source, as after an announce timeout of the network source. PPS_OUT rises if it is enabled and
the time base is set or need not be, and falls at the end of the pulse. The end of a slew leaves the whole offset in the
time base. At an interval Moaras sends Pdelay_Req from a TC P2P port, numbered; it answers a Pdelay_Req with its receive
stamp, and a Pdelay_Resp to its own request gives the link delay. It takes over the entries of a FIFO that it owns, and
a gate event puts the port's gates at the states of its list. During a failover nothing of this reaches the increment or
the state of the time base, and messages wait. The layouts of the messages are those of IEEE 1588, and the class they
wait with is the model's choice (log entries 98 and 102). Commands: PPS_IN_EDGE, PPS_IN_TIMEOUT, PPS_OUT_EDGE,
GATE_EVENT, TS_FIFO_RELAY, PTP_MESSAGE_PROCESS, PTP_ANNOUNCE_TIMEOUT, TIME_SLEW_COMPLETE, PPS_OUT_FALL,
PTP_INTERVAL_TICK. (R216, R217, R225, R226, R230, R231, R232, R236) -/
def Obligations.TimeRows : Prop :=
  (∀ s : State, s.pwr.inReset = false →
    (s.ptp.source ≠ 1 ∨ s.ptp.profile = 0 → Ends .ppsInEdge s (fun t => t = { s with time := { s.time with
      ppsInSec := s.time.latched.1, ppsInNs := s.time.latched.2, ppsInValid := true } }))
    ∧ (s.pwr.failing.isSome = true → Ends .ppsInEdge s (fun t => t = { s with time := { s.time with
      ppsInSec := s.time.latched.1, ppsInNs := s.time.latched.2, ppsInValid := true } }))
    ∧ (s.ptp.source = 1 → s.ptp.profile ≠ 0 → s.pwr.failing = none → bit s.freeVal 0 = false → Ends .ppsInEdge s (fun t =>
      t.time.ppsInValid = true ∧ t.time.ppsInSec = s.time.latched.1 ∧ t.time.ppsInNs = s.time.latched.2
      ∧ (s.time.state = .holdover → t.time.incr = s.time.incr) ∧ (s.time.state ≠ .holdover → incrOk t.time.incr = true) ∧ t.time.sec = s.time.sec ∧ t.time.ns = s.time.ns ∧ t.time.state ≠ .unset)))
  ∧ (∀ s : State, (s.time.ppsInValid = false → Idles .ppsInTimeout s)
    ∧ (s.time.ppsInValid = true → s.ptp.source ≠ 1 ∨ s.pwr.failing.isSome = true →
      Ends .ppsInTimeout s (fun t => t.time = { s.time with ppsInValid := false }))
    ∧ (s.time.ppsInValid = true → s.ptp.source = 1 → s.pwr.failing = none → Ends .ppsInTimeout s (fun t => t.time = { s.time with
      ppsInValid := false, goodIntervals := 0, state := if s.time.state = .locked then .holdover else s.time.state })))
  ∧ (∀ s : State, Ends .ppsOutEdge s (fun t => t = { s with time := { s.time with
      ppsOut := s.time.ppsEnable && (s.time.state != .unset || s.time.ppsUnset) } })
    ∧ Ends .ppsOutFall s (fun t => t = { s with time := { s.time with ppsOut := false } }))
  ∧ (∀ s : State, 0 ≤ (s.time.units : Int) + s.time.slewLeft → (s.time.units : Int) + s.time.slewLeft < (2 ^ 48 * secUnits : Nat) →
    Ends .timeSlewComplete s (fun t => (t.time.units : Int) = s.time.units + s.time.slewLeft ∧ t.time.slewLeft = 0
      ∧ t.time.incr = s.time.incr ∧ t.time.state = s.time.state))
  ∧ (∀ s : State, s.pwr.failing.isSome = true → Idles .ptpAnnounceTimeout s ∧ Idles .ptpIntervalTick s
    ∧ ∀ p b, p < 512 → Idles (.ptpMessageProcess p b) s)
  ∧ (∀ s : State, s.pwr.failing = none → Ends .ptpAnnounceTimeout s (fun t =>
    t.time = (if s.ptp.source = 0 then { s.time with
      goodIntervals := 0, state := if s.time.state = .locked then .holdover else s.time.state } else s.time)
    ∧ (∀ x, s.parent = some x → (∀ f ∈ (t.port x.1).ptp.foreign, msgSender f.ann ≠ msgSender x.2)
      ∧ ∀ q, q ≠ x.1 → t.port q = s.port q)
    ∧ (s.parent = none → t.ports = s.ports)))
  ∧ (∀ s : State, (s.ptp.profile = 0 → Idles .ptpIntervalTick s)
    ∧ (∀ p q, s.ptp.profile ≠ 0 → s.pwr.failing = none → s.ports = [(p, q)] → p < 512 → q.link = true → q.ptp.role = 3 →
      (bit s.freeVal 0 = true → Ends .ptpIntervalTick s (fun t =>
        let n := Tab.get 0 q.ptp.txSeq 2
        let c := s.ptpClass p
        let m := s.ptpMsg p 2 0 n 0 (be 20 0)
        Tab.get 0 (t.port p).ptp.txSeq 2 = (n + 1) % 65536
        ∧ (bit q.storm c = false → (if s.txClear p c then .ptp p m ∈ t.out else (c, .ptp p m) ∈ t.waiting p))))
      ∧ (bit s.freeVal 0 = false → Ends .ptpIntervalTick s (fun t => t = { s with free := s.free + 1 }))))
  ∧ (∀ (s : State) (p : Nat) (b : List Byte), p < 512 → s.pwr.failing = none →
    ((∀ m ∈ (s.port p).ptp.rx, m.bytes ≠ b) → Idles (.ptpMessageProcess p b) s)
    ∧ (∀ (m : PtpRx) (l : List PtpRx), (s.port p).ptp.rx = m :: l → m.bytes = b →
      (s.ptp.profile = 0 ∨ s.ptpHears b = false → Ends (.ptpMessageProcess p b) s (fun t => t.port p = { s.port p with
        ptp := { (s.port p).ptp with rx := l } } ∧ ∀ q, q ≠ p → t.port q = s.port q))
      ∧ (∀ u : Int, s.ptp.profile ≠ 0 → s.ptpHears b = true → ptpType b 0 = 2 → m.stamp = some u → Ends (.ptpMessageProcess p b) s (fun t =>
        let c := s.ptpClass p
        let r := s.ptpMsg p 3 0x0200 (msgSeq b) (-(u % 65536)) (stampBytes (stampOf (u.toNat * 2 ^ 32)) ++ msgSender b)
        (t.port p).ptp.rx = l
        ∧ (bit (s.port p).storm c = false → (if s.txClear p c then .ptp p r ∈ t.out else (c, .ptp p r) ∈ t.waiting p))))
      ∧ (∀ (u : Int) (r : Nat × Int), s.ptp.profile ≠ 0 → s.ptpHears b = true → ptpType b 0 = 3 → m.stamp = some u →
        (s.port p).ptp.reqTx = some r → r.1 = msgSeq b → msgAsker b = portIdentity p → msgTwoStep b = false →
        Ends (.ptpMessageProcess p b) s (fun t => (t.port p).ptp.rx = l
          ∧ (t.port p).ptp.linkDelay = ((u - r.2 - msgCorr b) / 2).toNat))))
  ∧ (∀ (s : State) (n : Nat), n < 16 → (s.fifoMoaras n = false → Idles (.tsFifoRelay n) s)
    ∧ (s.fifoMoaras n = true → Ends (.tsFifoRelay n) s (fun t => (t.tsFifo n).entries = []
      ∧ ∀ m, m ≠ n → t.tsFifo m = s.tsFifo m)))
  ∧ (∀ (s : State) (p : Nat), p < 512 → Ends (.gateEvent p) s (fun t =>
      t.gate p = { s.gate p with now := (s.gate p).oper.statesAt s.time.units } ∧ (∀ q, q ≠ p → t.gate q = s.gate q)
      ∧ ((s.gate p).oper.entries = [] → (t.gate p).now = 0xFF)))

/-- A frame at a port whose link is down changes nothing; one shorter than 64 bytes is counted and dropped; one that
Moaras takes is kept until its last byte and then handed to Moaras with its receive stamp; one whose rule says
RECIRCULATE is numbered, counted at its rule and waits in its slice's queue, from which a pass takes it and, on the same
action, puts it back with its pass number one higher. An ordinary frame on which no rule acts is dropped for bad parity
in a table, by its forwarding result, by its policer or by its stream's recovery, each under its reason; one with a
single egress port is charged to its ingress port and enters its VOQ, by the express bypass where that is open, or is
parked for its target, or joins the spilled part of its VOQ; a lossless one that finds neither shared cell nor headroom
is dropped, and XOFF stands. Where the write bandwidth of HBM is contended, a free value (log entry 86), or the spill
region full, a frame to spill or to park is dropped. A good last byte makes a frame whole; a bad or too long one drops a
frame none of which has left, and has one that is leaving end with a complemented FCS. The oldest mirror copy leaves its
queue when no pass waits. Commands: FRAME_INGRESS, FRAME_TAIL_RECEIVED, RECIRCULATION_PASS, MIRROR_QUEUE_ADMIT. (R44,
R90, R91, R93, R100, R141, R147, R152, R171, R314, R458, R476) -/
def Obligations.IngressRows : Prop :=
  (∀ (s : State) (p : Nat) (b : List Byte) (full : Bool), p < 512 → (s.port p).link = false → Idles (.frameIngress p b full) s)
  ∧ (∀ (s : State) (p : Nat) (b : List Byte) (full : Bool), p < 512 → (s.port p).link = true → macConsumes b = false →
    b.length < 60 → Ends (.frameIngress p b full) s (fun t => t.pkts = s.pkts
      ∧ Tab.get 0 t.tel.portCtr (22 * p) = Tab.get 0 s.tel.portCtr (22 * p) + 1
      ∧ Tab.get 0 t.tel.portCtr (22 * p + 3) = Tab.get 0 s.tel.portCtr (22 * p + 3) + 1
      ∧ Tab.get 0 t.tel.drops (64 * p + 2) = Tab.get 0 s.tel.drops (64 * p + 2) + 1))
  ∧ (∀ (s : State) (p : Nat) (b : List Byte), p < 512 → (s.port p).link = true → macConsumes b = false → 60 ≤ b.length →
    moarasTakes (s.port p).ptp.role b = true → Ends (.frameIngress p b false) s (fun t =>
      (t.pkt s.nextPkt).dead = true ∧ (t.pkt s.nextPkt).toMoaras = true ∧ (t.pkt s.nextPkt).inPort = p
      ∧ (t.pkt s.nextPkt).whole = false ∧ t.nextPkt = s.nextPkt + 1))
  ∧ (∀ (s : State) (p n : Nat) (b : List Byte) (a : RuleAct), s.receives p b →
    ((s.arrived p b).passHit s.nextPkt).2 = some (n, a) → a.op = 4 → ((s.arrived p b).passLook s.nextPkt).fwd.parity = false →
    (Tab.get [] s.prism.recirc (p / 32)).length < 64 → Ends (.frameIngress p b false) s (fun t =>
      Tab.get [] t.prism.recirc (p / 32) = Tab.get [] s.prism.recirc (p / 32) ++ [s.nextPkt]
      ∧ Tab.get 0 t.prism.hits (3072 * (p / 32) + n) = Tab.get 0 s.prism.hits (3072 * (p / 32) + n) + 1
      ∧ (t.pkt s.nextPkt).md = a.md ∧ (t.pkt s.nextPkt).tmpl = a.tmpl ∧ t.nextPkt = s.nextPkt + 1))
  ∧ (∀ (s : State) (p : Nat) (b : List Byte) (r : Res5), s.ordinary p b r →
    (r.fwd.parity = true → Ends (.frameIngress p b false) s (fun t => (t.pkt s.nextPkt).dead = true
      ∧ Tab.get 0 t.tel.drops (64 * p + 15) = Tab.get 0 s.tel.drops (64 * p + 15) + 1))
    ∧ (∀ k, r.fwd.parity = false → r.drop = some k → k < 64 → Ends (.frameIngress p b false) s (fun t =>
      (t.pkt s.nextPkt).dead = true ∧ Tab.get 0 t.tel.drops (64 * p + k) = Tab.get 0 s.tel.drops (64 * p + k) + 1))
    ∧ (∀ k, r.fwd.parity = false → r.drop = none →
      ((r.counted .none).recoverStep r (parseTags r.ctx.pk.bytes).rtag).2 = .drop k → k < 64 →
      Ends (.frameIngress p b false) s (fun t => (t.pkt s.nextPkt).dead = true
        ∧ Tab.get 0 t.tel.drops (64 * p + k) = Tab.get 0 s.tel.drops (64 * p + k) + 1))
    ∧ (r.fwd.parity = false → r.drop = none → r.recov = none → r.ctx.genStream r.d = none → r.fwd.frer = false →
      ((s.planned r).police ((s.planned r).pkt s.nextPkt)).2 = true → Ends (.frameIngress p b false) s (fun t =>
        (t.pkt s.nextPkt).dead = true ∧ Tab.get 0 t.tel.drops (64 * p + 17) = Tab.get 0 s.tel.drops (64 * p + 17) + 1)))
  ∧ (∀ (s w : State) (p q : Nat) (b : List Byte) (pk : Pkt), s.goesTo p b q w → pk = w.pkt s.nextPkt → pk.target = none →
    (w.finds pk q → (w.voq pk.slice (voqNo q pk.tc pk.slot)).credit = 0 → Ends (.frameIngress p b false) s (fun t =>
      (t.voq pk.slice (voqNo q pk.tc pk.slot)).q = (s.voq pk.slice (voqNo q pk.tc pk.slot)).q ++ [s.nextPkt]
      ∧ (t.pkt s.nextPkt).charged = true ∧ (t.pkt s.nextPkt).dests = [q]
      ∧ (t.portClass p pk.prio).total = (s.portClass p pk.prio).total + ceilDiv (b.length + 4) 256
      ∧ Tab.get 0 t.buf.ctr 0 = Tab.get 0 s.buf.ctr 0 + 1))
    ∧ (w.finds pk q → w.expressOk pk q = true → Ends (.frameIngress p b false) s (fun t =>
      (t.voq pk.slice (voqNo q pk.tc pk.slot)).q = [] ∧ Tab.get 0 t.fab.ctr 1 = Tab.get 0 s.fab.ctr 1 + 1))
    ∧ ((w.classCfg pk.prio).lossless = false → w.toSpill pk q = true → w.spillFull pk q = false → w.contended = false →
      w.voqRefusal pk q = none → Ends (.frameIngress p b false) s (fun t =>
        (t.voq pk.slice (voqNo q pk.tc pk.slot)).spillQ = (s.voq pk.slice (voqNo q pk.tc pk.slot)).spillQ ++ [s.nextPkt]
        ∧ (t.pkt s.nextPkt).spilled = true ∧ Tab.get 0 t.buf.ctr 0 = Tab.get 0 s.buf.ctr 0 + 1))
    ∧ ((w.classCfg pk.prio).lossless = false → w.toSpill pk q = true → w.voqRefusal pk q = none →
      w.spillFull pk q = true ∨ w.contended = true → Ends (.frameIngress p b false) s (fun t => (t.pkt s.nextPkt).dead = true
        ∧ Tab.get 0 t.tel.drops (64 * p + 23) = Tab.get 0 s.tel.drops (64 * p + 23) + 1))
    ∧ ((w.classCfg pk.prio).lossless = true → w.chargeOf pk = none → Ends (.frameIngress p b false) s (fun t =>
      (t.pkt s.nextPkt).dead = true ∧ Tab.get 0 t.tel.drops (64 * p + 24) = Tab.get 0 s.tel.drops (64 * p + 24) + 1
      ∧ (w.txoff128 p pk.prio - 128 * (w.portClass p pk.prio).xonDelta
          < 128 * ((w.portClass p pk.prio).cShared + (w.portClass p pk.prio).cHead) → (t.portClass p pk.prio).xoff = true))))
  ∧ (∀ (s w : State) (p q idx : Nat) (b : List Byte) (pk : Pkt), s.goesTo p b q w → pk = w.pkt s.nextPkt → pk.target = some idx →
    (w.target idx).valid = true → w.parkTest (w.target idx) pk = .park →
    (w.contended = false → Ends (.frameIngress p b false) s (fun t => (t.target idx).parkQ = (s.target idx).parkQ ++ [s.nextPkt]
      ∧ (t.pkt s.nextPkt).parked = some idx ∧ (t.pkt s.nextPkt).charged = false))
    ∧ (w.contended = true → Ends (.frameIngress p b false) s (fun t => (t.pkt s.nextPkt).dead = true
      ∧ Tab.get 0 t.tel.drops (64 * p + 28) = Tab.get 0 s.tel.drops (64 * p + 28) + 1)))
  ∧ (∀ (s : State) (id : Nat) (pk : Pkt), Tab.find s.pkts id = some pk → pk.whole = true → Idles (.frameTailReceived id true) s)
  ∧ (∀ (s : State) (id : Nat) (pk : Pkt), Tab.find s.pkts id = some pk → pk.whole = false → pk.tap = none → pk.overLong = false →
    (pk.dead = true → pk.toMoaras = true → ltUnknown pk.bytes = false → Ends (.frameTailReceived id true) s (fun t =>
      Tab.find t.pkts id = none ∧ (t.port pk.inPort).ptp.rx = (s.port pk.inPort).ptp.rx ++ [pk.ptpRx]))
    ∧ (pk.dead = true → pk.toMoaras = false → Ends (.frameTailReceived id false) s (fun t => Tab.find t.pkts id = none
      ∧ Tab.get 0 t.tel.portCtr (22 * pk.inPort + 2) = Tab.get 0 s.tel.portCtr (22 * pk.inPort + 2) + 1))
    ∧ (pk.dead = false → pk.multi = true → Ends (.frameTailReceived id true) s (fun t =>
      t.pkt id = { pk with whole := true, fcsBad := false }))
    ∧ (pk.dead = false → pk.multi = true → pk.crossed = true → Ends (.frameTailReceived id false) s (fun t =>
      t.pkt id = { pk with whole := true, fcsBad := true, stomp := true }
      ∧ Tab.get 0 t.tel.portCtr (22 * pk.inPort + 2) = Tab.get 0 s.tel.portCtr (22 * pk.inPort + 2) + 1
      ∧ t.tel.drops = s.tel.drops)))
  ∧ (∀ (s : State) (id q : Nat) (pk : Pkt) (ok : Bool), Tab.find s.pkts id = some pk → pk.id = id → pk.whole = false → pk.tap = none →
    pk.dead = false → pk.crossed = false → pk.mirror = none → pk.dests = [q] → pk.multi = false → pk.cells ≠ [] → pk.parked = none →
    (s.voq pk.slice (voqNo q pk.tc pk.slot)).q.contains id = true → Tab.get [] s.prism.merge pk.inPort = [] →
    pk.overLong = true ∨ ok = false → Ends (.frameTailReceived id ok) s (fun t => Tab.find t.pkts id = none
      ∧ (t.voq pk.slice (voqNo q pk.tc pk.slot)).q = without (s.voq pk.slice (voqNo q pk.tc pk.slot)).q id
      ∧ (let k := if pk.overLong then 3 else 1
         Tab.get 0 t.tel.drops (64 * pk.inPort + k) = Tab.get 0 s.tel.drops (64 * pk.inPort + k) + 1)
      ∧ (let k := if pk.overLong then 4 else 2
         Tab.get 0 t.tel.portCtr (22 * pk.inPort + k) = Tab.get 0 s.tel.portCtr (22 * pk.inPort + k) + 1)))
  ∧ (∀ (s : State) (sl : Nat), sl < 16 → Tab.get [] s.prism.recirc sl = [] → Idles (.recirculationPass sl) s)
  ∧ (∀ (s u : State) (sl id n : Nat) (l : List Nat) (a : RuleAct), sl < 16 → Tab.get [] s.prism.recirc sl = id :: l → id ∉ l →
    l.length < 64 → (s.pkt id).slice = sl → (s.pkt id).tmpl = 0 → (s.pkt id).pass = 0 →
    u = { s with prism := { s.prism with recirc := Tab.upd [] s.prism.recirc sl (fun q => without q id) } }.updPkt id
      (fun x => { x with pass := 1 }) →
    (u.passHit id).2 = some (n, a) → a.op = 4 → (u.passLook id).fwd.parity = false →
    Ends (.recirculationPass sl) s (fun t => Tab.get [] t.prism.recirc sl = l ++ [id] ∧ (t.pkt id).pass = 1
      ∧ Tab.get 0 t.prism.hits (3072 * sl + n) = Tab.get 0 s.prism.hits (3072 * sl + n) + 1))
  ∧ (∀ (s : State) (sl id m p : Nat) (l : List Nat) (pk : Pkt), sl < 16 → Tab.get [] s.tel.mirQ sl = id :: l →
    (Tab.get [] s.prism.recirc sl ≠ [] → Idles (.mirrorQueueAdmit sl) s)
    ∧ (Tab.get [] s.prism.recirc sl = [] → Tab.find s.pkts id = some pk → pk.id = id → pk.mirror = some m → pk.multi = false →
      pk.dests = [p] → Ends (.mirrorQueueAdmit sl) s (fun t => Tab.get [] t.tel.mirQ sl = l ∧ t.tel.drops = s.tel.drops)))

/-- A pause frame pauses every class of a port in pause mode, a PFC frame the classes of its vector and the port's mask
that are not in storm state; a value expires; the watchdog starts a storm that drops the class's queued frames, and the
storm ends when a further watchdog time brings no new value. XOFF is refreshed while asserted. A link that goes down
empties the port's queues and clears its pauses; a link comes up at full width. An idle port enters low- power idle, and
as it wakes its control frames leave. A margin sample is kept, and a failed datapath is replaced by the group's spare
while it is free. Commands: PAUSE_FRAME_RECEIVED, PFC_FRAME_RECEIVED, PAUSE_EXPIRY, PFC_WATCHDOG_EXPIRY,
PFC_STORM_END_TIMER, PFC_REFRESH_TIMER, LINK_DOWN, LINK_UP, LPI_IDLE_TIMER, MARGIN_SAMPLE, DATAPATH_FAILURE,
SPARE_DATAPATH_FAILED, LPI_WAKE_COMPLETE. (R39, R45, R46, R47, R50, R53, R64, R65, R66, R148) -/
def Obligations.PortRows : Prop :=
  (∀ (s : State) (p : Nat) (b : List Byte), s.takesCtl p b → fld b 12 2 = 0x8808 → fld b 14 2 = 1 →
    ((s.port p).fcMode = 1 → Ends (.pauseFrameReceived p b true) s (fun t =>
      (∀ c, c < 8 → (t.port p).pause.getD c 0 = fld b 16 2)
      ∧ Tab.get 0 t.tel.portCtr (22 * p + 5) = Tab.get 0 s.tel.portCtr (22 * p + 5) + 1 ∧ ∀ q, q ≠ p → t.port q = s.port q))
    ∧ ((s.port p).fcMode ≠ 1 → Ends (.pauseFrameReceived p b true) s (fun t => t.ports = s.ports
      ∧ Tab.get 0 t.tel.portCtr (22 * p + 7) = Tab.get 0 s.tel.portCtr (22 * p + 7) + 1)))
  ∧ (∀ (s : State) (p : Nat) (b : List Byte), s.takesCtl p b → fld b 12 2 = 0x8808 → fld b 14 2 = 0x0101 →
    (s.port p).fcMode = 2 → fld b 17 1 &&& (s.port p).pfcMask ≠ 0 → Ends (.pfcFrameReceived p b true) s (fun t =>
      (∀ c, c < 8 → (t.port p).pause.getD c 0 =
        if bit (fld b 17 1) c && bit (s.port p).pfcMask c && !bit (s.port p).storm c then fld b (18 + 2 * c) 2
        else (s.port p).pause.getD c 0)
      ∧ Tab.get 0 t.tel.portCtr (22 * p + 6) = Tab.get 0 s.tel.portCtr (22 * p + 6) + 1))
  ∧ (∀ (s : State) (p c : Nat), p < 512 → c < 8 → Ends (.pauseExpiry p c) s (fun t => (t.port p).pause.getD c 0 = 0
      ∧ (∀ d, d < 8 → d ≠ c → (t.port p).pause.getD d 0 = (s.port p).pause.getD d 0) ∧ ∀ q, q ≠ p → t.port q = s.port q))
  ∧ (∀ (s : State) (p c : Nat), p < 512 → c < 8 → (s.port p).link = true → (s.port p).watchdog ≠ 0 → (s.port p).fcMode = 2 →
    (s.port p).pause.getD c 0 ≠ 0 → bit (s.port p).storm c = false → Ends (.pfcWatchdogExpiry p c) s (fun t =>
      bit (t.port p).storm c = true ∧ ∀ k, voqPort k = p → voqClass k = c → ∀ i ∈ t.egq k, i.started = true))
  ∧ (∀ (s : State) (p c : Nat), p < 512 → c < 8 → (bit (s.port p).storm c = false → Idles (.pfcStormEndTimer p c) s)
    ∧ (bit (s.port p).storm c = true → bit (s.port p).stormSeen c = true → Ends (.pfcStormEndTimer p c) s (fun t =>
      (t.port p).storm = (s.port p).storm ∧ bit (t.port p).stormSeen c = false))
    ∧ (bit (s.port p).storm c = true → bit (s.port p).stormSeen c = false → Ends (.pfcStormEndTimer p c) s (fun t =>
      ∀ d, bit (t.port p).storm d = (bit (s.port p).storm d && d != c))))
  ∧ (∀ (s : State) (p : Nat), p < 512 → (s.xoffVec p = 0 → Idles (.pfcRefreshTimer p) s)
    ∧ (s.xoffVec p ≠ 0 → (s.port p).link = true → (s.port p).txPkt = none → (s.port p).lpi = false → (s.port p).ctlWaits = false →
      (s.port p).fcMode = 2 →
      Ends (.pfcRefreshTimer p) s (fun t => t.out = .control p (s.pfcFrame p (s.xoffVec p) (s.port p).pfcQuanta) :: s.out)))
  ∧ (∀ (s : State) (p : Nat), p < 512 → ((s.port p).link = false → Idles (.linkDown p) s)
    ∧ ((s.port p).link = true → Ends (.linkDown p) s (fun t => (t.port p).link = false ∧ (t.port p).storm = 0
      ∧ (∀ c, (t.port p).pause.getD c 0 = 0) ∧ (t.port p).ctlQueue = [] ∧ (t.port p).lastSec = s.time.sec
      ∧ t.waiting p = [] ∧ (∀ k, voqPort k = p → t.egq k = []))))
  ∧ (∀ (s : State) (p : Nat), s.portActive p = true → (s.port p).admin = true → (s.port p).link = false → s.pathsOk p = true →
    (s.sliceSt (p / 32)).state = .active → Ends (.linkUp p) s (fun t => (t.port p).link = true
      ∧ (t.port p).linkUps = ((s.port p).linkUps + 1) % 2 ^ 32 ∧ (∀ c, (t.port p).pause.getD c 0 = 0)
      ∧ (∀ i, i < s.fullWidth p → (t.lane (p + i)).parked = false) ∧ ∀ q, q ≠ p → t.port q = s.port q))
  ∧ (∀ (s : State) (p : Nat), p < 512 → (s.port p).eee = true → s.eeeFits p = true → (s.port p).link = true → (s.port p).lpi = false →
    (s.port p).txPkt = none → s.waiting p = [] → s.portQueues p = [] → Ends (.lpiIdleTimer p) s (fun t =>
      t.port p = { s.port p with lpi := true } ∧ Tab.get 0 t.tel.portCtr (22 * p + 18) = Tab.get 0 s.tel.portCtr (22 * p + 18) + 1))
  ∧ (∀ (s : State) (p : Nat), p < 512 → ((s.port p).lpi = false → Idles (.lpiWakeComplete p) s)
    ∧ ((s.port p).lpi = true → Ends (.lpiWakeComplete p) s (fun t => t.port p = { s.port p with lpi := false, ctlQueue := [] }
      ∧ (∀ b ∈ (s.port p).ctlQueue, .control p b ∈ t.out) ∧ ∀ q, q ≠ p → t.port q = s.port q)))
  ∧ (∀ (s : State) (l h w : Nat), l < 512 → h < 65536 → w < 65536 → ((s.lane l).mode = 0 → Idles (.marginSample l h w) s)
    ∧ ((s.lane l).mode ≠ 0 → (s.lane l).parked = true → Ends (.marginSample l h w) s (fun t =>
      t.lane l = { s.lane l with stale := true }))
    ∧ ((s.lane l).mode ≠ 0 → (s.lane l).parked = false → Ends (.marginSample l h w) s (fun t =>
      t.lane l = { s.lane l with eyeH := h, eyeW := w, stale := false, below := decide (h < s.pwr.marginH) || decide (w < s.pwr.marginW) }
      ∧ ∀ m, m ≠ l → t.lane m = s.lane m)))
  ∧ (∀ (s : State) (l : Nat), l < 512 → ((s.group (l / 8)).spare = 0 → Ends (.datapathFailure l) s (fun t =>
      t.group (l / 8) = { s.group (l / 8) with spare := 1, laneOnSpare := l % 8, substs := ((s.group (l / 8)).substs + 1) % 65536 }
      ∧ (3, l) ∈ t.pwr.repairLog))
    ∧ ((s.group (l / 8)).spare ≠ 0 → Ends (.datapathFailure l) s (fun t => bit (t.group (l / 8)).dead (l % 8) = true
      ∧ (3, l) ∈ t.pwr.repairLog ∧ ((s.lane l).mode ≠ 0 → (t.port (s.portOfLane l)).link = false))))
  ∧ (∀ (s : State) (g : Nat), g < 64 → (s.group g).spare = 0 → Ends (.spareDatapathFailed g) s (fun t =>
      t.group g = { s.group g with spare := 2 } ∧ t.pwr.healthGen = (s.pwr.healthGen + 1) % 2 ^ 32
      ∧ Tab.get 0 t.tel.redCtr 12 = Tab.get 0 s.tel.redCtr 12 + 1))

/-- CAP makes the partner's capabilities known; a REQ for a narrower width is accepted with ACK or refused with its NAK
reason; ACK has the initiator switch once its receivers are locked; NAK ends a narrowing; SWITCH completes a change of
width. CAP is sent while enabled, and a silent partner disables. Quiet windows start a narrowing and a busy narrow port
widens. A REQ is sent three times, after which a narrowing is dropped and a widening restarts the link, as do a SWITCH
that does not come and an alignment that is lost and not regained; whether it is regained is a free value (log entry 3).
A timeout of CAP ends Lane Throttle's knowledge of the partner whether or not it is enabled here, and that it puts the
port back at full width with no lane parked at once is the model's choice (log entry 97). Commands: LT_CAP_RECEIVED,
LT_REQ_RECEIVED, LT_ACK_RECEIVED, LT_NAK_RECEIVED, LT_SWITCH_RECEIVED, LT_CAP_TICK, LT_CAP_TIMEOUT, LT_UTIL_WINDOW,
LT_REQ_TIMEOUT, LT_SWITCH_TIMEOUT, LT_RECEIVERS_LOCKED, LT_ALIGNMENT_LOST. (R53, R55, R56, R57, R58, R59, R60, R61, R62,
R63) -/
def Obligations.LaneThrottleRows : Prop :=
  (∀ (s : State) (p : Nat) (b : List Byte), s.takesLt p 1 b → Ends (.ltCapReceived p b true) s (fun t =>
      (t.port p).lt = { (s.port p).lt with partnerCaps := fld b 20 1, partnerOk := true
                                           state := if (s.port p).lt.enable && s.ltFits p && (s.port p).lt.state == .disabled then .full
                                             else (s.port p).lt.state }
      ∧ ∀ q, q ≠ p → t.port q = s.port q))
  ∧ (∀ (s : State) (p : Nat) (b : List Byte), s.takesLt p 2 b → fld b 18 1 ≠ s.fullWidth p →
    (s.port p).lt.state = .full → ((s.port p).lt.enable = true → fld b 18 1 = 2 → 100 * (s.port p).lt.util ≤ (s.port p).lt.threshold * windowBytes 2 →
      Ends (.ltReqReceived p b true) s (fun t => (t.port p).lt.state = .narrowing ∧ (t.port p).lt.initiator = false
        ∧ (t.port p).lt.txId = fld b 17 1 ∧ (t.port p).lt.target = 2 ∧ (t.port p).lt.haveAck = true))
    ∧ ((s.port p).lt.enable = false → (s.port p).txPkt = none → (s.port p).lpi = false → Ends (.ltReqReceived p b true) s (fun t =>
        t.out = .control p (s.ltFrame p 4 (fld b 17 1) (fld b 18 1) 4 0) :: s.out ∧ (t.port p).lt = (s.port p).lt))
    ∧ ((s.port p).lt.enable = true → fld b 18 1 = 2 → (s.port p).lt.threshold * windowBytes 2 < 100 * (s.port p).lt.util →
      (s.port p).txPkt = none → (s.port p).lpi = false → Ends (.ltReqReceived p b true) s (fun t =>
        t.out = .control p (s.ltFrame p 4 (fld b 17 1) 2 2 0) :: s.out ∧ (t.port p).lt = (s.port p).lt)))
  ∧ (∀ (s : State) (p : Nat) (b : List Byte), s.takesLt p 2 b → fld b 18 1 = s.fullWidth p → (s.port p).lt.state = .narrow →
    (s.port p).lt.width ≠ 0 → Ends (.ltReqReceived p b true) s (fun t => (t.port p).lt.state = .widening
      ∧ (t.port p).lt.initiator = false ∧ (t.port p).lt.locked = false ∧ ∀ i, i < s.fullWidth p → (t.lane (p + i)).parked = false))
  ∧ (∀ (s : State) (p : Nat) (b : List Byte), s.takesLt p 3 b → (s.port p).lt.initiator = true →
    (s.port p).lt.txId = fld b 17 1 → (s.port p).lt.haveAck = false → Ends (.ltAckReceived p b true) s (fun t =>
      (t.port p).lt.haveAck = true ∧ (t.port p).lt.sentSwitch = ((s.port p).lt.sentSwitch || (s.port p).lt.locked)
      ∧ (t.port p).lt.state = (s.port p).lt.state
      ∧ ((s.port p).lt.locked = true → (t.port p).lt.width = if (s.port p).lt.target = s.fullWidth p then 0 else (s.port p).lt.target)))
  ∧ (∀ (s : State) (p : Nat) (b : List Byte), s.takesLt p 4 b → (s.port p).lt.initiator = true →
    (s.port p).lt.txId = fld b 17 1 → (s.port p).lt.state = .narrowing → (s.port p).lt.sentSwitch = false →
    Ends (.ltNakReceived p b true) s (fun t => (t.port p).lt.state = .full ∧ (t.port p).lt.width = 0 ∧ (t.port p).lt.initiator = false))
  ∧ (∀ (s : State) (p : Nat) (b : List Byte), s.takesLt p 5 b → (s.port p).lt.txId = fld b 17 1 →
    ((s.port p).lt.initiator = true → (s.port p).lt.sentSwitch = true) → ((s.port p).lt.initiator = false → (s.port p).lt.haveAck = true) →
    ((s.port p).lt.state = .narrowing → (s.port p).lt.enable = true → s.queuedBytes p < 1024 * (s.port p).lt.depth →
      Ends (.ltSwitchReceived p b true) s (fun t =>
      (t.port p).lt.state = .narrow ∧ (t.port p).lt.width = (s.port p).lt.target))
    ∧ ((s.port p).lt.state = .widening → Ends (.ltSwitchReceived p b true) s (fun t => (t.port p).lt.width = 0
      ∧ (t.port p).lt.state = if (s.port p).lt.enable && (s.port p).lt.partnerOk then .full else .disabled)))
  ∧ (∀ (s : State) (p : Nat), p < 512 → (s.port p).lt.enable = true → (s.port p).link = true →
    (s.ltFits p = true → (s.port p).txPkt = none → (s.port p).lpi = false → Ends (.ltCapTick p) s (fun t => t.out = .control p (s.ltFrame p 1 0 0 0 0) :: s.out))
    ∧ Ends (.ltCapTimeout p) s (fun t => (t.port p).lt.state = .disabled))
  ∧ (∀ (s : State) (p : Nat), p < 512 → ((s.port p).link = false → Idles (.ltCapTimeout p) s)
    ∧ ((s.port p).link = true → Ends (.ltCapTimeout p) s (fun t => (t.port p).lt.state = .disabled
      ∧ (t.port p).lt.partnerOk = false ∧ (t.port p).lt.width = 0 ∧ ∀ i, i < s.fullWidth p → (t.lane (p + i)).parked = false)))
  ∧ (∀ (s : State) (p tx rx : Nat), p < 512 → (s.port p).link = true → Ends (.ltUtilWindow p tx rx) s (fun t =>
      (t.port p).lt.util = tx
      ∧ ((s.port p).lt.state = .full → (s.port p).lt.enable = true → s.ltFits p = true → (s.port p).lt.narrowTo ≠ 0 →
        100 * tx < (s.port p).lt.threshold * windowBytes (s.port p).lt.narrowTo →
        100 * rx < (s.port p).lt.threshold * windowBytes (s.port p).lt.narrowTo →
        100 * (s.port p).lt.dwell ≤ (s.port p).lt.quietWindows + 1 →
        (t.port p).lt.state = .narrowing ∧ (t.port p).lt.initiator = true ∧ (t.port p).lt.target = (s.port p).lt.narrowTo)
      ∧ ((s.port p).lt.state = .narrow → 90 * windowBytes (s.port p).lt.width ≤ 100 * tx →
        (t.port p).lt.state = .widening ∧ (t.port p).lt.initiator = true ∧ (t.port p).lt.target = s.fullWidth p)))
  ∧ (∀ (s : State) (p : Nat), p < 512 → (s.port p).lt.initiator = true → (s.port p).lt.haveAck = false →
    ((s.port p).lt.state = .narrowing → (s.port p).lt.sends < 3 → Ends (.ltReqTimeout p) s (fun t =>
      (t.port p).lt = { (s.port p).lt with sends := (s.port p).lt.sends + 1 }))
    ∧ ((s.port p).lt.state = .narrowing → 3 ≤ (s.port p).lt.sends → Ends (.ltReqTimeout p) s (fun t =>
      (t.port p).lt.state = .full ∧ (t.port p).link = (s.port p).link))
    ∧ ((s.port p).lt.state = .widening → 3 ≤ (s.port p).lt.sends → Ends (.ltReqTimeout p) s (fun t =>
      (t.port p).link = false ∧ (t.port p).training = true)))
  ∧ (∀ (s : State) (p : Nat), p < 512 → (s.port p).lt.initiator = false → (s.port p).lt.haveAck = true → (s.port p).lt.state = .narrowing →
    Ends (.ltSwitchTimeout p false) s (fun t => (t.port p).link = false ∧ (t.port p).training = true)
    ∧ ((s.port p).lt.enable = true → s.queuedBytes p < 1024 * (s.port p).lt.depth → Ends (.ltSwitchTimeout p true) s (fun t => (t.port p).lt.state = .narrow
      ∧ (t.port p).lt.width = (s.port p).lt.target)))
  ∧ (∀ (s : State) (p : Nat), p < 512 → (s.port p).lt.state = .widening → (s.port p).lt.locked = false →
    Ends (.ltReceiversLocked p) s (fun t => (t.port p).lt.locked = true
      ∧ ((s.port p).lt.initiator = false → (t.port p).lt.haveAck = true)
      ∧ ((s.port p).lt.initiator = true → (s.port p).lt.haveAck = true → (t.port p).lt.sentSwitch = true)))
  ∧ (∀ (s : State) (p : Nat), p < 512 → ((s.port p).lt.state = .narrowing ∨ (s.port p).lt.state = .widening →
      (bit s.freeVal 0 = false → Ends (.ltAlignmentLost p) s (fun t => (t.port p).link = false ∧ (t.port p).training = true))
      ∧ (bit s.freeVal 0 = true → (s.port p).lt.initiator = true ∨ (s.port p).lt.haveAck = false →
        Ends (.ltAlignmentLost p) s (fun t => t = { s with free := s.free + 1 }))
      ∧ (bit s.freeVal 0 = true → (s.port p).lt.initiator = false → (s.port p).lt.haveAck = true →
        Ends (.ltAlignmentLost p) s (fun t => (t.port p).lt.haveAck = false ∧ (t.port p).lt.sentSwitch = false
          ∧ Tab.get 0 t.tel.portCtr (22 * p + 16) = Tab.get 0 s.tel.portCtr (22 * p + 16) + 1)))
    ∧ ((s.port p).lt.state = .full → Idles (.ltAlignmentLost p) s))

/-- A request carries every unrequested byte of a VOQ that has become non-empty or has a quantum to ask for. A grant
decision of a host port grants one quantum to the next asking VOQ of the class within its window. A received grant adds
to the balance what is new of the cumulative count: an empty VOQ keeps at most a quantum and a whole frame starts on a
positive balance. A grant decision of a network port picks a service node and then a tenant node by priority and DWRR
among those whose shaper, pause and window let them, charges each by the quantum, moves the pointers on and grants one
quantum to the next slice that asks; a queue and a class with no requested bytes left lose their grant deficits. An
empty VOQ returns its standing credit when it times out or is recalled, which a full window, a requesting VOQ and the
longest hold bring about, and a returned credit is outstanding no more. Commands: VOQ_REQUEST, GRANT_DECISION,
GRANT_RECEIVED, STANDING_CREDIT_TIMEOUT, CREDIT_RECALL, CREDIT_RETURN_RECEIVED. (R163, R164, R165, R166, R187, R188,
R189, R190, R192) -/
def Obligations.CreditRows : Prop :=
  (∀ (s : State) (sl v : Nat), voqExists sl v = true →
    ((s.voq sl v).fresh = true ∨ s.quantum v ≤ (s.voq sl v).unreq → Ends (.voqRequest sl v) s (fun t =>
      t.voq sl v = { s.voq sl v with reqAtEgress := (s.voq sl v).reqAtEgress + (s.voq sl v).unreq, unreq := 0, fresh := false }))
    ∧ ((s.voq sl v).fresh = false → (s.voq sl v).unreq < s.quantum v → Idles (.voqRequest sl v) s))
  ∧ (∀ (s : State) (p sl : Nat), 512 ≤ p → p < 516 → (s.node p).shaper.lets = true → s.windowRoom p 7 = true →
    s.nextSlice (voqNo p 7 0) (s.node (tenKey p 7 0)).rrSlice = some sl → Ends (.grantDecision p) s (fun t =>
      t.voq sl (voqNo p 7 0) = { s.voq sl (voqNo p 7 0) with
        granted := ((s.voq sl (voqNo p 7 0)).granted + (s.fabPort p 7).quantum) % 2 ^ 32
        reqAtEgress := (s.voq sl (voqNo p 7 0)).reqAtEgress - (s.fabPort p 7).quantum }
      ∧ t.fabPort p 7 = { s.fabPort p 7 with outstanding := (s.fabPort p 7).outstanding + (s.fabPort p 7).quantum }
      ∧ (t.node (tenKey p 7 0)).rrSlice = (sl + 1) % 16))
  ∧ (∀ (s : State) (p : Nat), 512 ≤ p → p < 516 → (∀ c, s.windowRoom p c = false) → Idles (.grantDecision p) s)
  ∧ (∀ (s : State) (p : Nat), p < 512 → (s.node p).shaper.lets = false ∨ (∀ c, c < 8 → (s.svcGrant p c).ok = false) →
    Idles (.grantDecision p) s)
  ∧ (∀ (s : State) (p sl : Nat) (r q : Nat × Nat × List Nat), p < 512 → (s.node p).shaper.lets = true →
    dwrr ((List.range 8).map (s.svcGrant p)) (s.node p).grPtr = some r →
    dwrr ((List.range 8).map (s.tenGrant p r.1)) (s.node (svcKey p r.1)).grPtr = some q →
    let v : Nat := voqNo p r.1 q.1
    s.nextSlice v (s.node (tenKey p r.1 q.1)).rrSlice = some sl → Ends (.grantDecision p) s (fun t =>
      t.voq sl v = { s.voq sl v with granted := ((s.voq sl v).granted + (s.fabPort p r.1).quantum) % 2 ^ 32
                                     reqAtEgress := (s.voq sl v).reqAtEgress - (s.fabPort p r.1).quantum }
      ∧ t.fabPort p r.1 = { s.fabPort p r.1 with outstanding := (s.fabPort p r.1).outstanding + (s.fabPort p r.1).quantum }
      ∧ (t.node (tenKey p r.1 q.1)).rrSlice = (sl + 1) % 16
      ∧ (t.node p).grPtr.getD r.2.1 0 = r.1 + 1 ∧ (t.node (svcKey p r.1)).grPtr.getD q.2.1 0 = q.1 + 1
      ∧ (∀ c, c < 8 → (t.node (svcKey p c)).grDef =
          if c = r.1 ∧ (List.range 8).all (fun m => t.asked (voqNo p c m) == 0) then 0 else r.2.2.getD c 0)
      ∧ (∀ m, m < 8 → (t.node (tenKey p r.1 m)).grDef = if m = q.1 ∧ t.asked v = 0 then 0 else q.2.2.getD m 0)))
  ∧ (∀ (s : State) (sl v : Nat), voqExists sl v = true →
    let new : Nat := ((s.voq sl v).granted + 2 ^ 32 - (s.voq sl v).received) % 2 ^ 32
    ((s.voq sl v).q = [] → Ends (.grantReceived sl v) s (fun t => (t.voq sl v).received = (s.voq sl v).granted
      ∧ (t.voq sl v).credit = min ((s.voq sl v).credit + new) (s.quantum v)
      ∧ (t.voq sl v).returning = (s.voq sl v).returning + ((s.voq sl v).credit + new - s.quantum v).toNat))
    ∧ (∀ id, (s.voq sl v).q = [id] → (s.pkt id).whole = true → 0 < (s.voq sl v).credit + new →
      Ends (.grantReceived sl v) s (fun t => (t.voq sl v).q = []
        ∧ (t.voq sl v).credit = min ((s.voq sl v).credit + new - (s.pkt id).len) (s.quantum v)
        ∧ (t.pair sl (portSlice (voqPort v))).sending
          = (s.pair sl (portSlice (voqPort v))).sending ++ [{ pkt := id, next := 0, multi := false }])))
  ∧ (∀ (s : State) (sl v : Nat), voqExists sl v = true → (s.voq sl v).q = [] →
    Ends (.standingCreditTimeout sl v) s (fun t => (t.voq sl v).credit = min (s.voq sl v).credit 0
      ∧ (t.voq sl v).returning = (s.voq sl v).returning + (s.voq sl v).credit.toNat)
    ∧ (s.recalls sl v = true → Ends (.creditRecall sl v) s (fun t => (t.voq sl v).credit = 0
      ∧ (t.voq sl v).returning = (s.voq sl v).returning + (s.voq sl v).credit.toNat))
    ∧ (s.recalls sl v = false → Idles (.creditRecall sl v) s))
  ∧ (∀ (s : State) (sl v : Nat), voqExists sl v = true → (s.voq sl v).q ≠ [] →
    Idles (.standingCreditTimeout sl v) s ∧ Idles (.creditRecall sl v) s)
  ∧ (∀ (s : State) (sl v : Nat), voqExists sl v = true → Ends (.creditReturnReceived sl v) s (fun t =>
      t.voq sl v = { s.voq sl v with returning := 0 }
      ∧ (t.fabPort (voqPort v) (voqClass v)).outstanding = (s.fabPort (voqPort v) (voqClass v)).outstanding - (s.voq sl v).returning))

/-- A slice sends the next cell of a ready pair on the plane picked, numbers it and keeps it outstanding. A bad cell is
discarded and waits to be resent; a good one goes on from its plane to its egress slice, where a cell that is not the
expected one is stored and opens the gap. A NAK or an acknowledgement that does not come has a cell resent within the
sends and budget of its first send, and given up beyond; that a missing acknowledgement takes the link's oldest cell is
the model's choice (log entry 81). A gap that times out with one cell without SOP waiting skips it. That the row of a
release credit frees every cell of the pair that is done is the model's choice (log entry 101). Commands: CELL_SEND,
CELL_ARRIVED, LINK_NAK_RECEIVED, LINK_ACK_TIMEOUT, GAP_TIMEOUT, RELEASE_CREDIT_RECEIVED. (R168, R170, R172, R174, R176,
R177, R178) -/
def Obligations.CellRows : Prop :=
  (∀ (s : State) (sl d pl : Nat), sl < 16 → (∀ c, c < 8 → Tab.get [] s.fab.multiQ (8 * sl + c) = []) →
    (s.dstOrder sl).find? (fun d => (s.pairReady sl d).1 && (s.pairReady sl d).2) = some d → s.pickPlane sl = some pl →
    Ends (.cellSend sl) s (fun t => (t.pair sl d).nextSeq = ((s.pair sl d).nextSeq + 1) % 65536
      ∧ (∃ c : Cell, c.seq = (s.pair sl d).nextSeq ∧ c.src = sl ∧ c.dst = d ∧ (t.pair sl d).out = (s.pair sl d).out ++ [c]
        ∧ t.fab.links = s.fab.links ++ [{ cell := c, link := 32 * pl + sl, sends := 1, since := s.upNs, lost := false,
                                            num := s.fab.nextNum (32 * pl + sl), retries := s.fab.params.retries,
                                            budgetNs := s.fab.params.budgetNs }])
      ∧ Tab.get 0 t.fab.ctr 0 = Tab.get 0 s.fab.ctr 0 + 1))
  ∧ (∀ (s : State) (n : Nat) (c : LinkCell), n < 160 → s.fab.links.find? (fun x => x.link == n && !x.lost) = some c →
    Ends (.cellArrived n false) s (fun t => t.fab.links.length = s.fab.links.length ∧ { c with lost := true } ∈ t.fab.links)
    ∧ (n % 32 < 16 → Ends (.cellArrived n true) s (fun t => t.fab.links.length = s.fab.links.length
      ∧ { c with link := 32 * (n / 32) + 16 + c.cell.dst, sends := 1, since := s.upNs,
                 num := s.fab.nextNum (32 * (n / 32) + 16 + c.cell.dst), retries := s.fab.params.retries,
                 budgetNs := s.fab.params.budgetNs } ∈ t.fab.links))
    ∧ (16 ≤ n % 32 → 0 < (c.cell.seq + 65536 - (s.pair c.cell.src c.cell.dst).expected) % 65536 →
      (c.cell.seq + 65536 - (s.pair c.cell.src c.cell.dst).expected) % 65536 < 256 →
      Ends (.cellArrived n true) s (fun t => t.fab.links.length + 1 = s.fab.links.length
        ∧ Tab.find (t.pair c.cell.src c.cell.dst).stored (c.cell.seq % 256) = some c.cell
        ∧ (t.pair c.cell.src c.cell.dst).gapOpen = true
        ∧ (t.pair c.cell.src c.cell.dst).expected = (s.pair c.cell.src c.cell.dst).expected)))
  ∧ (∀ (s : State) (n : Nat), n < 160 →
    (∀ c, s.fab.links.find? (fun x => x.link == n && x.lost) = some c → c.sends ≤ c.retries →
      s.upNs - c.since ≤ c.budgetNs → Ends (.linkNakReceived n) s (fun t =>
        { c with sends := c.sends + 1, lost := false } ∈ t.fab.links ∧ t.fab.links.length = s.fab.links.length
        ∧ Tab.get 0 t.fab.ctr 6 = Tab.get 0 s.fab.ctr 6 + 1))
    ∧ (∀ c, s.fab.links.find? (fun x => x.link == n && x.lost) = some c → c.retries < c.sends ∨ c.budgetNs < s.upNs - c.since →
      Ends (.linkNakReceived n) s (fun t => Tab.get 0 t.fab.ctr 7 = Tab.get 0 s.fab.ctr 7 + 1
        ∧ t.fab.links.length < s.fab.links.length))
    ∧ (∀ c, s.fab.links.find? (fun x => x.link == n) = some c → c.sends ≤ c.retries →
      s.upNs - c.since ≤ c.budgetNs → Ends (.linkAckTimeout n) s (fun t =>
        { c with sends := c.sends + 1, lost := false } ∈ t.fab.links ∧ t.fab.links.length = s.fab.links.length
        ∧ Tab.get 0 t.fab.ctr 6 = Tab.get 0 s.fab.ctr 6 + 1)))
  ∧ (∀ (s : State) (a b : Nat), pairExists a b = true → ((s.pair a b).gapOpen = false → Idles (.gapTimeout a b) s)
    ∧ (∀ c : Cell, (s.pair a b).gapOpen = true → (s.pair a b).expected < 65536 → (s.pair a b).stored = [(c.seq % 256, c)] →
      c.sop = false → (c.seq + 65536 - (s.pair a b).expected) % 65536 < 256 → Ends (.gapTimeout a b) s (fun t =>
        (t.pair a b).expected = (c.seq + 1) % 65536 ∧ (t.pair a b).stored = [] ∧ (t.pair a b).skipSop = true
        ∧ (t.pair a b).gapOpen = false ∧ Tab.get 0 t.fab.ctr 10 = Tab.get 0 s.fab.ctr 10 + 1)))
  ∧ (∀ (s : State) (a b : Nat), pairExists a b = true → (∀ h, h < 4 → (s.fifo (2 * h + 1)).notices = 0) →
    Ends (.releaseCreditReceived a b) s (fun t => (t.pair a b).done = []
      ∧ (t.pair a b).out = (s.pair a b).out.filter (fun c => !(s.pair a b).done.contains c.seq)
      ∧ (t.pair a b).nextSeq = (s.pair a b).nextSeq))

/-- An ACTIVE plane with a fault becomes FAILED with its cause, its cells are lost, it enters the repair record, and a
free standby begins to join; the standby that joins becomes ACTIVE. The second test loss within 1 ms takes a standby
out. A resynchronisation that passes makes the plane a standby and takes it out of the record; one that fails leaves it
FAILED. Commands: PLANE_FAULT, PLANE_SWITCHOVER_DONE, STANDBY_TEST_LOSS, PLANE_RESYNC_DONE. (R180, R181, R182, R499) -/
def Obligations.PlaneRows : Prop :=
  (∀ (s : State) (p cause : Nat), p < 5 → cause = 1 ∨ cause = 2 →
    ((s.plane p).state ≠ .active → Idles (.planeFault p cause) s)
    ∧ ((s.plane p).state = .active → Ends (.planeFault p cause) s (fun t => (t.plane p).state = .failed ∧ (t.plane p).cause = cause
      ∧ (t.plane p).failures = ((s.plane p).failures + 1) % 2 ^ 32 ∧ (∀ l ∈ t.fab.links, l.link / 32 ≠ p)
      ∧ (0, p) ∈ t.pwr.repairLog ∧ ∀ q, s.freeStandby = some q → (t.plane q).switching = true ∧ (t.plane q).state = .standby)))
  ∧ (∀ s : State, ((List.range 5).find? (fun p => (s.plane p).switching) = none → Idles .planeSwitchoverDone s)
    ∧ ∀ p, (List.range 5).find? (fun p => (s.plane p).switching) = some p → Ends .planeSwitchoverDone s (fun t =>
      (t.plane p).state = .active ∧ (t.plane p).switching = false ∧ Tab.get 0 t.fab.ctr 13 = Tab.get 0 s.fab.ctr 13 + 1
      ∧ ∀ q, q ≠ p → t.plane q = s.plane q))
  ∧ (∀ (s : State) (p : Nat), p < 5 → (s.plane p).state = .standby → (s.plane p).switching = false →
    ((s.plane p).testLoss = [] → Ends (.standbyTestLoss p) s (fun t => t.plane p = { s.plane p with testLoss := [s.upNs] }))
    ∧ (∀ x ∈ (s.plane p).testLoss, s.upNs ≤ x + 1000000 → Ends (.standbyTestLoss p) s (fun t => (t.plane p).state = .failed
      ∧ (t.plane p).cause = 3 ∧ (0, p) ∈ t.pwr.repairLog)))
  ∧ (∀ (s : State) (p : Nat), p < 5 → (s.plane p).state = .resync →
    Ends (.planeResyncDone p true) s (fun t => (t.plane p).state = .standby ∧ (t.plane p).cause = 0 ∧ (0, p) ∉ t.pwr.repairLog
      ∧ ∀ q, q ≠ p → t.plane q = s.plane q)
    ∧ Ends (.planeResyncDone p false) s (fun t => (t.plane p).state = .failed ∧ (t.plane p).cause = 3))

/-- WRED_AVERAGE_UPDATE, the row of R144's 64-cycle instant: with D the queue's cells, spilled ones included, and A kept
with 16 fraction bits, the new A is A + (D - A) / 2^w, exact where 2^w divides, and one of the two neighbouring values
where it does not; with w = 0 it is D. Nothing else but the draw of the rounding and the queue's own entry changes.
(R144) -/
def Obligations.WredAverage : Prop :=
  ∀ (s : State) (k : Nat), k < 32768 ∨ (k < 35072 ∧ k % 8 = 0) → (s.queue k).wredNext = none →
    let w : Nat := (Tab.get WredProfile.init s.buf.wred (s.queue k).profile).weight
    let a : Int := (s.queue k).avg
    let d : Int := 65536 * ((s.queue k).cells + (s.queue k).spilled)
    Ends (.wredAverageUpdate k) s (fun t =>
      (((2 : Int) ^ w ∣ d - a) → ((t.queue k).avg : Int) = a + (d - a) / 2 ^ w)
      ∧ a + (d - a) / 2 ^ w ≤ (t.queue k).avg ∧ ((t.queue k).avg : Int) ≤ a + (d - a) / 2 ^ w + 1
      ∧ (w = 0 → ((t.queue k).avg : Int) = d)
      ∧ t.queue k = { s.queue k with avg := (t.queue k).avg, held := none }
      ∧ (∀ m, m ≠ k → t.queue m = s.queue m) ∧ t.pkts = s.pkts ∧ t.fab = s.fab)

/-- A port that transmits, or whose link is down, decides nothing; a decision lets the waiting control frames of a
network port leave, and at a host port starts the head of the highest class with data where its shaper and FIFO let it.
A network port serves the service node and then the tenant node that priority and DWRR pick: the highest priority with
an eligible child, which is always served where one exists; the frame starts, the deficits and pointers of both parents
are those of the choice, a node with nothing left to serve loses its deficit, and the frame's bytes with the length
adjust are charged to each of its three nodes whose shaper is enabled. Where no node is eligible no frame starts. The
end of a frame puts it on the wire and takes it out of its queue. A refill adds the tokens of the elapsed time up to the
burst. A Loupe sample keeps its maxima, and the cursor moves on. A VOQ whose spilled frames are read back leaves spill.
Commands: TRANSMIT_DECISION, FRAME_TX_COMPLETE, SHAPER_REFILL, POLICER_REFILL, LOUPE_SAMPLE, SPILL_READBACK. (R48, R153,
R187, R188, R189, R190, R192, R194, R195, R202, R207, R496) -/
def Obligations.TransmitRows : Prop :=
  (∀ (s : State) (p : Nat), p < 516 → (s.port p).txPkt ≠ none → Idles (.transmitDecision p) s)
  ∧ (∀ (s : State) (p : Nat), p < 512 → (s.port p).txPkt = none → ((s.port p).link = false → Idles (.transmitDecision p) s)
    ∧ ((s.port p).link = true → (s.port p).lpi = false → Ends (.transmitDecision p) s (fun t => (t.port p).ctlQueue = []
      ∧ ∀ b ∈ (s.port p).ctlQueue, .control p b ∈ t.out)))
  ∧ (∀ (kids : List Kid) (ptrs : List Nat) (n pr : Nat) (defs : List Nat), dwrr kids ptrs = some (n, pr, defs) →
    (kids.getD n Kid.idle).ok = true ∧ (kids.getD n Kid.idle).prio = pr ∧ ∀ k ∈ kids, k.ok = true → k.prio < 8 → k.prio ≤ pr)
  ∧ (∀ (kids : List Kid) (ptrs : List Nat), kids.length = 8 → (∀ k ∈ kids, 256 ≤ k.quantum ∧ k.charge ≤ 65536) →
    (∃ k ∈ kids, k.ok = true ∧ k.prio < 8) → (dwrr kids ptrs).isSome = true)
  ∧ (∀ (s : State) (p : Nat), p < 512 → (s.port p).txPkt = none → (s.port p).link = true → (s.port p).lpi = false →
    (s.port p).ctlQueue = [] → s.waiting p = [] →
    (s.txService p = none → Ends (.transmitDecision p) s (fun t => (t.port p).txPkt = none ∧ (∀ n, t.node n = s.node n)
      ∧ ∀ k, t.egq k = s.egq k))
    ∧ ∀ (r q : Nat × Nat × List Nat) (i : EgItem), s.txService p = some r → s.txTenant p r.1 = some q →
      s.txHead (voqNo p r.1 q.1) = some i → Ends (.transmitDecision p) s (fun t =>
        (t.port p).txPkt = some i.pkt ∧ (t.port p).txQ = voqNo p r.1 q.1
        ∧ (∀ j ∈ t.egq (voqNo p r.1 q.1), j.pkt = i.pkt → j.src = i.src → j.started = true)
        ∧ (∀ c, c < 8 → (t.node (svcKey p c)).txDef =
            if c = r.1 ∧ (List.range 8).all (fun m => !t.qData (voqNo p c m)) then 0 else r.2.2.getD c 0)
        ∧ (∀ m, m < 8 → (t.node (tenKey p r.1 m)).txDef =
            if m = q.1 ∧ t.qData (voqNo p r.1 m) = false then 0 else q.2.2.getD m 0)
        ∧ (t.node p).txPtr.getD r.2.1 0 = r.1 + 1 ∧ (t.node (svcKey p r.1)).txPtr.getD q.2.1 0 = q.1 + 1
        ∧ (∀ n, n = p ∨ n = svcKey p r.1 ∨ n = tenKey p r.1 q.1 → (t.node n).shaper.tokens =
            if (s.node n).shaper.enable then (s.node n).shaper.tokens - tok (s.headLen p (voqNo p r.1 q.1) + (s.node n).shaper.adj)
            else (s.node n).shaper.tokens)
        ∧ ∀ n, n ≠ p → n ≠ svcKey p r.1 → n ≠ tenKey p r.1 q.1 → (t.node n).shaper = (s.node n).shaper))
  ∧ (∀ (s : State) (p : Nat) (i : EgItem) (g : HFifo), 512 ≤ p → p < 516 → (s.port p).txPkt = none →
    s.txHead (voqNo p 7 0) = some i → (s.node p).shaper.lets = true →
    (s.fifo (2 * (p - 512))).place (hpfWords ((s.pkt i.pkt).outLen p - 4)) = some g → Ends (.transmitDecision p) s (fun t =>
      (t.port p).txPkt = some i.pkt ∧ (t.port p).txQ = voqNo p 7 0 ∧ t.fifo (2 * (p - 512)) = g.synced))
  ∧ (∀ (s : State) (p : Nat), p < 512 → ((s.port p).txPkt = none → Idles (.frameTxComplete p) s)
    ∧ (∀ id i, (s.port p).txPkt = some id →
      (s.egq (s.port p).txQ).find? (fun i => i.pkt == id && i.started && i.complete) = some i →
      Ends (.frameTxComplete p) s (fun t => (t.port p).txPkt = none ∧ (∃ st, .frame p (s.port p).txBytes st ∈ t.out)
        ∧ ∀ j ∈ t.egq (s.port p).txQ, ¬(j.pkt = i.pkt ∧ j.src = i.src))))
  ∧ (∀ (s : State) (n : Nat), nodeExists n = true → (s.node n).shaper.pend = none →
    ((s.node n).shaper.enable = false → Ends (.shaperRefill n) s (fun t =>
      (t.node n).shaper = { (s.node n).shaper with last := s.time.units }))
    ∧ ((s.node n).shaper.enable = true → (s.node n).shaper.last ≤ s.time.units → Ends (.shaperRefill n) s (fun t =>
      (let old : Int := (s.node n).shaper.tokens + (tokensFor (s.node n).shaper.rate (s.time.units - (s.node n).shaper.last) : Nat)
       min old (tok (s.node n).shaper.burst) ≤ (t.node n).shaper.tokens
       ∧ (t.node n).shaper.tokens ≤ min (old + 1) (tok (s.node n).shaper.burst))
      ∧ (t.node n).shaper.last = s.time.units ∧ ∀ m, m ≠ n → t.node m = s.node m)))
  ∧ (∀ (s : State) (n : Nat), n < 131072 → (s.policer n).pend = none → (s.policer n).last ≤ s.time.units →
    Ends (.policerRefill n) s (fun t =>
      (let old : Int := (s.policer n).tc + (tokensFor (s.policer n).cfg.cir (s.time.units - (s.policer n).last) : Nat)
       min old (tok (s.policer n).cfg.cbs) ≤ (t.policer n).tc ∧ (t.policer n).tc ≤ min (old + 1) (tok (s.policer n).cfg.cbs))
      ∧ (t.policer n).te ≤ tok (s.policer n).cfg.ebs ∧ (t.policer n).last = s.time.units
      ∧ ∀ m, m ≠ n → t.policer m = s.policer m))
  ∧ (∀ (s : State) (sl : Nat), sl < 16 → ((s.sliceSt sl).state = .parked → Idles (.loupeSample sl) s)
    ∧ (∀ o, (s.sliceSt sl).state ≠ .parked → s.loupeNext sl 600 (Tab.get 0 s.sched.cursor sl) = some o →
      Ends (.loupeSample sl) s (fun t => Tab.get 0 t.sched.cursor sl = (o + 1) % 34848
        ∧ (t.loupeItem sl o).maxDepth = max (s.loupeItem sl o).maxDepth ((s.loupeView sl o).depth + (s.loupeView sl o).spilled)
        ∧ (t.loupeItem sl o).maxDelay = max (s.loupeItem sl o).maxDelay (min (s.loupeView sl o).delay 0xFFFFFFFF)
        ∧ Tab.get 0 t.sched.ctr 9 = Tab.get 0 s.sched.ctr 9 + 1)))
  ∧ (∀ (s : State) (sl v : Nat), sl < 16 → v < 32800 →
    (spillKey sl v ∉ s.buf.spillVoqs → Idles (.spillReadback sl v) s)
    ∧ (spillKey sl v ∈ s.buf.spillVoqs → 2 * s.voqCells sl v ≤ (s.classCfg (voqClass v)).spillThr → (s.voq sl v).spillQ = [] →
      Ends (.spillReadback sl v) s (fun t => spillKey sl v ∉ t.buf.spillVoqs ∧ (t.voq sl v).readback = false))
    ∧ (∀ id, spillKey sl v ∈ s.buf.spillVoqs → 2 * s.voqCells sl v ≤ (s.classCfg (voqClass v)).spillThr →
      (s.voq sl v).spillQ = [id] → (s.pkt id).whole = true → (s.pkt id).id = id → (s.pkt id).slice = sl →
      (s.pkt id).nCells ≤ s.unreserved → s.voqCells sl v < (s.classCfg (voqClass v)).spillThr →
      Ends (.spillReadback sl v) s (fun t => (t.voq sl v).spillQ = [] ∧ (t.pkt id).spilled = false
        ∧ spillKey sl v ∉ t.buf.spillVoqs)))

/-- The oldest learn event leaves its FIFO, and one for an unknown address within its port's limit makes a learned
entry. A visit of the sweeper clears HIT, then sets STALE, then removes the entry. A bad read is marked and counted, and
its restoration ends the mark. Normalisation makes every entry visible in both generations and both table copies equal.
The reset timer of a stream restarts its recovery once, a latent error is counted, and a latent reset clears the counts.
Commands: LEARN_INSERT, AGING_VISIT, SCRUB_READ, PARITY_RESTORE, TABLE_NORMALISE, FRER_RESET_TIMER, FRER_LATENT_TEST,
FRER_LATENT_RESET. (R112, R122, R123, R124, R125, R126, R127, R254, R258) -/
def Obligations.TableRows : Prop :=
  (∀ (s : State) (sl : Nat), sl < 16 → (Tab.get [] s.fwd.learnQ sl = [] → Idles (.learnInsert sl) s)
    ∧ (∀ v l, Tab.get [] s.fwd.learnQ sl = v :: l → Ends (.learnInsert sl) s (fun t => Tab.get [] t.fwd.learnQ sl = l
      ∧ (v.vxlan = false → s.fwd.entryOf 1 (keyMac v.fid v.mac) s.fwd.gen = none → s.fwd.learnedCount v.port < (s.port v.port).learnLimit →
        (s.fwd.insertEntry (learnedEntry v (emWord 1 v.port) (s.liveVis 1 (keyMac v.fid v.mac)))).isSome = true →
        t.fwd.learnedCount v.port = s.fwd.learnedCount v.port + 1 ∧ Tab.get 0 t.fwd.ctr 2 = Tab.get 0 s.fwd.ctr 2 + 1
        ∧ ∃ q, Tab.find t.fwd.em q = some (learnedEntry v (emWord 1 v.port) (s.liveVis 1 (keyMac v.fid v.mac)))))))
  ∧ (∀ (s : State) (q : Nat) (e : EmEntry), q < stashEnd → Tab.find s.fwd.em q = some e →
    (s.fwd.agePeriod = 0 → Idles (.agingVisit q) s) ∧ (e.age = false → Idles (.agingVisit q) s)
    ∧ (s.fwd.agePeriod ≠ 0 → e.age = true → e.hit = true → Ends (.agingVisit q) s (fun t =>
      Tab.find t.fwd.em q = some { e with hit := false, stale := false } ∧ t.fwd.learnedOn = s.fwd.learnedOn))
    ∧ (s.fwd.agePeriod ≠ 0 → e.age = true → e.hit = false → e.stale = false → Ends (.agingVisit q) s (fun t =>
      Tab.find t.fwd.em q = some { e with stale := true } ∧ t.fwd.learnedOn = s.fwd.learnedOn))
    ∧ (s.fwd.agePeriod ≠ 0 → e.age = true → e.hit = false → e.stale = true → e.learned = true → Ends (.agingVisit q) s (fun t =>
      t.fwd.learnedCount e.owner = s.fwd.learnedCount e.owner - 1 ∧ Tab.get 0 t.fwd.ctr 9 = Tab.get 0 s.fwd.ctr 9 + 1)))
  ∧ (∀ (s : State) (n i : Nat), i < scrubSize n → Idles (.scrubRead n i false) s
    ∧ (n ≠ 0 → Ends (.scrubRead n i true) s (fun t => t.fwd.badAt n i = true
      ∧ Tab.get 0 t.fwd.ctr 14 = Tab.get 0 s.fwd.ctr 14 + 1))
    ∧ (∀ q e, n = 0 → emAt s.fwd.em i = some (q, e) → Ends (.scrubRead n i true) s (fun t =>
      Tab.find t.fwd.em q = some { e with bad := true } ∧ Tab.get 0 t.fwd.ctr 14 = Tab.get 0 s.fwd.ctr 14 + 1))
    ∧ (n ≠ 0 → s.fwd.badAt n i = true → Ends (.parityRestore n i) s (fun t => t.fwd.badAt n i = false
      ∧ (∀ m j, m ≠ n ∨ j ≠ i → t.fwd.badAt m j = s.fwd.badAt m j)
      ∧ Tab.get 0 t.fwd.ctr 16 = Tab.get 0 s.fwd.ctr 16 + 1))
    ∧ (n ≠ 0 → s.fwd.badAt n i = false → Idles (.parityRestore n i) s)
    ∧ (∀ q e, n = 0 → emAt s.fwd.em i = some (q, e) → e.bad = true → e.shadow = false → Ends (.parityRestore n i) s (fun t =>
      Tab.find t.fwd.em q = none ∧ Tab.get 0 t.fwd.ctr 16 = Tab.get 0 s.fwd.ctr 16 + 1)))
  ∧ (∀ s : State, (s.fwd.normPending = false ∨ s.fwd.inGenPrev ≠ 0 → Idles .tableNormalise s)
    ∧ (s.fwd.normPending = true → s.fwd.inGenPrev = 0 → Ends .tableNormalise s (fun t => t.fwd.normPending = false
      ∧ t.fwd.gen0 = t.fwd.gen1 ∧ (s.fwd.gen ≤ 1 → t.fwd.tables s.fwd.gen = s.fwd.tables s.fwd.gen) ∧ ∀ e ∈ t.fwd.em, e.2.vis = 3)))
  ∧ (∀ (s : State) (n : Nat), n < 65536 →
    ((s.stream n).timer = false → Idles (.frerResetTimer n) s)
    ∧ ((s.frerNow n).recover = true → (s.stream n).timer = true → Ends (.frerResetTimer n) s (fun t =>
      t.stream n = { s.stream n with takeAny := true, hist := 0, timer := false }
      ∧ Tab.get 0 t.tel.frerCtr (9 * n + 7) = Tab.get 0 s.tel.frerCtr (9 * n + 7) + 1))
    ∧ ((s.frerNow n).recover = true → (s.frerNow n).latent = true →
      (s.frerNow n).diff < (((s.stream n).latPassed * ((s.frerNow n).paths - 1) : Nat) - ((s.stream n).latDisc : Nat) : Int).natAbs →
      Ends (.frerLatentTest n) s (fun t => t.frer = s.frer
        ∧ Tab.get 0 t.tel.frerCtr (9 * n + 8) = Tab.get 0 s.tel.frerCtr (9 * n + 8) + 1))
    ∧ ((s.frerNow n).latent = false → Idles (.frerLatentTest n) s)
    ∧ Ends (.frerLatentReset n) s (fun t => t.stream n = { s.stream n with latPassed := 0, latDisc := 0 }
      ∧ ∀ m, m ≠ n → t.stream m = s.stream m))

/-- A core in service that fails leaves its slot, enters the failed cores and the repair record, and waits for the spare
if one is ready; the spare takes the slot. A core whose test passes leaves the record; one whose test fails enters it. A
fault of the active processor begins a failover to the standby, or loses management; heartbeats are counted, the tenth
missed in a row is a fault, and a differing digest sends the standby to resynchronise. A failover exchanges the roles;
one that has lost its standby loses management, or ends where it was commanded. A processor that restarts stands by if
its test passes, else it has FAILED. The model's choices: cause code 0 for missed heartbeats, cause code 3 for a
commanded switchover, and the old active in RESYNC after it (log entry 78); that a fault of the active processor during
a commanded switchover makes it a failover, and that a commanded switchover that has lost its standby leaves the active
one as it is (log entry 103). The commands that were rung during the gap leave it. Commands: CORE_FAILURE,
CORE_WATCHDOG_EXPIRY, CORE_SUBSTITUTION, SPARE_SELFTEST_DONE, MP_HEARTBEAT_TICK, MP_FAULT, MP_FAILOVER_DONE,
MP_RESTART_DONE. (R262, R263, R264, R265, R267, R499) -/
def Obligations.RedundancyRows : Prop :=
  (∀ (s : State) (c k : Nat), c < 16 → k < 13 →
    ((s.cluster c).slotOf k = none → Idles (.coreFailure c k) s ∧ Idles (.coreWatchdogExpiry c k) s)
    ∧ (∀ i : Nat, (s.cluster c).slotOf k = some i →
      let post : State → Prop := fun t => (t.cluster c).slots = (s.cluster c).slots.set i none ∧ k ∈ (t.cluster c).failed
        ∧ (1, 16 * c + k) ∈ t.pwr.repairLog
        ∧ ((s.cluster c).pendSub = [] → (s.cluster c).ready ≠ [] → (t.cluster c).pendSub = [(i, k)])
        ∧ ((s.cluster c).ready = [] → (t.cluster c).pendSub = (s.cluster c).pendSub)
      Ends (.coreFailure c k) s post ∧ Ends (.coreWatchdogExpiry c k) s post ∧ Ends (.spareSelftestDone c k false) s post
        ∧ Idles (.spareSelftestDone c k true) s)
    ∧ ((s.cluster c).slotOf k = none → k ∈ (s.cluster c).ready →
      Ends (.spareSelftestDone c k true) s (fun t => t.cluster c = { s.cluster c with runs := ((s.cluster c).runs + 1) % 2 ^ 32 })
      ∧ Ends (.spareSelftestDone c k false) s (fun t => k ∈ (t.cluster c).failed ∧ (1, 16 * c + k) ∈ t.pwr.repairLog
        ∧ (t.cluster c).runFails = ((s.cluster c).runFails + 1) % 2 ^ 32 ∧ (t.cluster c).slots = (s.cluster c).slots))
    ∧ ((s.cluster c).slotOf k = none → k ∈ (s.cluster c).testing →
      Ends (.spareSelftestDone c k true) s (fun t => k ∉ (t.cluster c).testing ∧ (1, 16 * c + k) ∉ t.pwr.repairLog
        ∧ (t.cluster c).failed = (s.cluster c).failed)
      ∧ Ends (.spareSelftestDone c k false) s (fun t => k ∉ (t.cluster c).testing ∧ k ∈ (t.cluster c).failed
        ∧ (1, 16 * c + k) ∈ t.pwr.repairLog)))
  ∧ (∀ (s : State) (c : Nat) (bad : Bool), c < 16 → ((s.cluster c).pendSub = [] → Idles (.coreSubstitution c bad) s)
    ∧ (∀ i old k l m, (s.cluster c).pendSub = (i, old) :: l → (s.cluster c).ready = k :: m → Ends (.coreSubstitution c bad) s (fun t =>
      (t.cluster c).slots = (s.cluster c).slots.set i (some k) ∧ (t.cluster c).substs = ((s.cluster c).substs + 1) % 65536
      ∧ (∀ x ∈ (t.cluster c).pendSub, x.1 ≠ i) ∧ Tab.get 0 t.tel.redCtr 10 = Tab.get 0 s.tel.redCtr 10 + 1
      ∧ ∀ d, d ≠ c → t.cluster d = s.cluster d))
    ∧ (∀ i old l, (s.cluster c).pendSub = (i, old) :: l → (s.cluster c).ready = [] → Ends (.coreSubstitution c bad) s (fun t =>
      (t.cluster c).slots = (s.cluster c).slots ∧ ∀ x ∈ (t.cluster c).pendSub, x.1 ≠ i)))
  ∧ (∀ (s : State) (a b : Nat) (beat : Nat → Bool) (ok : Bool), a < 2 → b < 2 → a ≠ b → (s.mp a).state = .active →
    (s.mp b).state = .standby → s.pwr.failing = none →
    (beat a = true → beat b = true → ok = true → Ends (.mpHeartbeatTick (beat 0) (beat 1) ok) s (fun t =>
      t.mp a = { s.mp a with consec := 0 } ∧ t.mp b = { s.mp b with consec := 0 } ∧ t.pwr.failing = none))
    ∧ (beat a = true → beat b = true → ok = false → Ends (.mpHeartbeatTick (beat 0) (beat 1) ok) s (fun t =>
      (t.mp b).state = .resync ∧ (t.mp b).mismatches = ((s.mp b).mismatches + 1) % 2 ^ 32 ∧ (t.mp a).state = .active))
    ∧ (beat a = false → 9 ≤ (s.mp a).consec → Ends (.mpHeartbeatTick (beat 0) (beat 1) ok) s (fun t =>
      t.pwr.failing = some 0 ∧ (t.mp a).missed = ((s.mp a).missed + 1) % 2 ^ 32))
    ∧ (beat a = true → beat b = false → 9 ≤ (s.mp b).consec → Ends (.mpHeartbeatTick (beat 0) (beat 1) ok) s (fun t =>
      (t.mp b).state = .failed ∧ (2, b) ∈ t.pwr.repairLog ∧ (t.mp a).state = .active ∧ t.pwr.failing = none))
    ∧ (beat a = true → beat b = false → (s.mp b).consec < 9 → ok = true → Ends (.mpHeartbeatTick (beat 0) (beat 1) ok) s (fun t =>
      t.mp b = { s.mp b with missed := ((s.mp b).missed + 1) % 2 ^ 32, consec := (s.mp b).consec + 1 })))
  ∧ (∀ (s : State) (k cause : Nat), s.mpIn .active = some k →
    (s.pwr.failing = none → s.mpIn .standby ≠ none → Ends (.mpFault cause) s (fun t =>
      t = { s with pwr := { s.pwr with failing := some cause } }))
    ∧ (s.pwr.failing = none → s.mpIn .standby = none → Ends (.mpFault cause) s (fun t => (t.mp k).state = .failed
      ∧ t.mbx.ready = false ∧ (2, k) ∈ t.pwr.repairLog))
    ∧ (∀ c, s.pwr.failing = some c → c ≠ 3 → Idles (.mpFault cause) s)
    ∧ (s.pwr.failing = some 3 → s.mpIn .standby ≠ none → Ends (.mpFault cause) s (fun t =>
      t = { s with pwr := { s.pwr with failing := some cause } }))
    ∧ (s.pwr.failing = some 3 → s.mpIn .standby = none → Idles (.mpFault cause) s))
  ∧ (∀ s : State, (s.pwr.failing = none → Idles .mpFailoverDone s)
    ∧ ∀ cause old new, s.pwr.failing = some cause → s.mpIn .active = some old → s.mpIn .standby = some new →
      (∀ j ∈ s.mbx.gapCmds, j.req.box ≠ fwdBox) → Ends .mpFailoverDone s (fun t => t.mbx.gapCmds = [] ∧ (t.mp new).state = .active ∧ (t.mp old).state = (if cause = 3 then .resync else .failed)
        ∧ (t.mp old).failovers = ((s.mp old).failovers + 1) % 2 ^ 32 ∧ t.pwr.failing = none
        ∧ (cause ≠ 3 → (2, old) ∈ t.pwr.repairLog) ∧ Tab.get 0 t.tel.redCtr 11 = Tab.get 0 s.tel.redCtr 11 + 1))
  ∧ (∀ (s : State) (cause old : Nat), s.pwr.failing = some cause → s.mpIn .active = some old → s.mpIn .standby = none →
      (∀ j ∈ s.mbx.gapCmds, j.req.box ≠ fwdBox) → Ends .mpFailoverDone s (fun t => t.pwr.failing = none
        ∧ (cause ≠ 3 → (t.mp old).state = .failed ∧ t.mbx.ready = false ∧ (2, old) ∈ t.pwr.repairLog)
        ∧ (cause = 3 → t.mp old = s.mp old)))
  ∧ (∀ (s : State) (m : Nat), m < 2 →
    ((s.mp m).state = .active ∨ (s.mp m).state = .standby → ∀ pass, Idles (.mpRestartDone m pass) s)
    ∧ ((s.mp m).state = .resync ∨ ((s.mp m).state = .failed ∧ (s.mp m).restarted = false) → s.mpIn .active ≠ none →
      Ends (.mpRestartDone m true) s (fun t => (t.mp m).state = .standby ∧ (2, m) ∉ t.pwr.repairLog)
      ∧ Ends (.mpRestartDone m false) s (fun t => (t.mp m).state = .failed ∧ (t.mp m).restarted = true ∧ (2, m) ∈ t.pwr.repairLog)))

/-- A hold timer that expires on a sleeping or waking target fails it: its parked frames are dropped and the expiry is
counted. An awake target with an idle time spins down: its slot joins its drop's SPIN_DOWN queue and it is asleep at
once. The release of a draining target's last parked frame leaves it awake; a paused release, and a target that does not
drain, change nothing. A poll cycle gives slots to the present drops and to the absent ones every 16th cycle, unless the
bus is disabled or has not finished its last one; a slot begins with a POLL to the next drop, whose reply is then
awaited. A reply of the awaited type and length ends the exchange: STATUS makes its drop present with its ON_BATTERY
flag, an accepted ACK clears the outstanding command, IDENT is kept. A timeout, a discarded reply or one of another type
is a missed exchange, and the third in a row makes the drop absent. The model's choices: that a reply of another payload
length is a missed exchange, and that an ACK with another sequence clears only the misses (log entry 83); that the
release of a frame whose slice is not in service waits (log entry 105). Commands: HOLD_TIMER_EXPIRY,
IDLE_SPINDOWN_TIMER, PARK_DRAIN_RELEASE, POLL_CYCLE_START, POLL_SLOT, SHELF_STATUS_RECEIVED, SHELF_ACK_RECEIVED,
SHELF_IDENT_RECEIVED, SHELF_REPLY_TIMEOUT, SHELF_REPLY_DISCARDED. (R313, R316, R318, R319, R321, R328, R331, R332, R333,
R334, R335, R337) -/
def Obligations.ProofingRows : Prop :=
  (∀ (s : State) (i : Nat), i < 65536 →
    ((s.target i).holdOn = false → Idles (.holdTimerExpiry i) s)
    ∧ ((s.target i).state = .awake ∨ (s.target i).state = .draining ∨ (s.target i).state = .failed → Idles (.holdTimerExpiry i) s)
    ∧ ((s.target i).holdOn = true → (s.target i).state = .asleep ∨ (s.target i).state = .waking →
      Ends (.holdTimerExpiry i) s (fun t => (t.target i).state = .failed ∧ (t.target i).holdOn = false
        ∧ (t.target i).wakeQ = false ∧ (t.target i).memory = [] ∧ Tab.get 0 t.proof.ctr 13 = Tab.get 0 s.proof.ctr 13 + 1)
      ∧ (∀ id, (s.target i).parkQ = [id] → (s.pkt id).id = id → Ends (.holdTimerExpiry i) s (fun t => (t.target i).parkQ = []
        ∧ Tab.get 0 t.proof.ctr 5 = Tab.get 0 s.proof.ctr 5 + 1))))
  ∧ (∀ (s : State) (i : Nat), i < 65536 →
    ((s.target i).valid = false ∨ (s.target i).state ≠ .awake ∨ (s.tgtClass (s.target i)).idle = 0 → Idles (.idleSpindownTimer i) s)
    ∧ ((s.target i).valid = true → (s.target i).state = .awake → (s.tgtClass (s.target i)).idle ≠ 0 →
      Ends (.idleSpindownTimer i) s (fun t => t.target i = { s.target i with state := .asleep, lastSec := s.time.sec, lastNs := s.time.ns }
        ∧ (let l := (s.target i).loc
           (t.drop l.1 l.2.1).downQ = (s.drop l.1 l.2.1).downQ ++ [l.2.2])
        ∧ Tab.get 0 t.proof.ctr 14 = Tab.get 0 s.proof.ctr 14 + 1 ∧ ∀ j, j ≠ i → t.target j = s.target j)))
  ∧ (∀ (s : State) (i : Nat), i < 65536 →
    ((s.target i).state ≠ .draining ∨ (s.target i).parkQ = [] → Idles (.parkDrainRelease i) s)
    ∧ (∀ id l, (s.target i).state = .draining → (s.target i).parkQ = id :: l →
      (s.releasePaused (s.pkt id) ((s.pkt id).dests.headD 0) = true → Idles (.parkDrainRelease i) s)
      ∧ (s.releasePaused (s.pkt id) ((s.pkt id).dests.headD 0) = false → (s.pkt id).id = id → l ≠ [] →
        Ends (.parkDrainRelease i) s (fun t => (t.target i).state = .draining ∧ (t.target i).parkQ = without l id
          ∧ Tab.get 0 t.proof.ctr 2 = Tab.get 0 s.proof.ctr 2 + 1))
      ∧ (s.releasePaused (s.pkt id) ((s.pkt id).dests.headD 0) = false → (s.pkt id).id = id → l = [] →
        (s.target i).invalidate = false → (s.target i).pendSpindle = none →
        Ends (.parkDrainRelease i) s (fun t => (t.target i).state = .awake ∧ (t.target i).parkQ = []
          ∧ Tab.get 0 t.proof.ctr 2 = Tab.get 0 s.proof.ctr 2 + 1))))
  ∧ (∀ (s : State) (b : Nat), b < 4 →
    ((s.bus b).enable = false ∨ (s.bus b).slots ≠ [] ∨ (s.bus b).await ≠ none → Idles (.pollCycleStart b) s)
    ∧ ((s.bus b).enable = true → (s.bus b).slots = [] → (s.bus b).await = none → Ends (.pollCycleStart b) s (fun t =>
      t.bus b = { s.bus b with slots := s.cycleDrops b, cycle := (s.bus b).cycle + 1 } ∧ ∀ d, d < 32 → (t.drop b d).wakeNew = [])))
  ∧ (∀ (s : State) (b : Nat), b < 4 →
    ((s.bus b).enable = false ∨ (s.bus b).slots = [] ∨ (s.bus b).await ≠ none → Idles (.pollSlot b) s)
    ∧ (∀ d l, (s.bus b).enable = true → (s.bus b).slots = d :: l → (s.bus b).await = none → Ends (.pollSlot b) s (fun t =>
      t.bus b = { s.bus b with slots := l, await := some (d, 0x81) }
      ∧ t.out = .shelf b (shelfFrame d 1 (s.drop b d).poll) :: s.out
      ∧ (t.drop b d).pollSeq = ((s.drop b d).pollSeq + 1) % 65536
      ∧ Tab.get 0 t.proof.ctr 17 = Tab.get 0 s.proof.ctr 17 + 1)))
  ∧ (∀ (s : State) (b : Nat), b < 4 → (s.bus b).await = none → Idles (.shelfReplyTimeout b) s
    ∧ ∀ p bad, Idles (.shelfReplyDiscarded b bad) s ∧ Idles (.shelfStatusReceived b p) s ∧ Idles (.shelfAckReceived b p) s
      ∧ Idles (.shelfIdentReceived b p) s)
  ∧ (∀ (s : State) (b d ty : Nat) (p : List Byte), b < 4 → (s.bus b).await = some (d, ty) →
    let post : State → Prop := fun t => t.bus b = { s.bus b with await := none }
      ∧ t.drop b d = { s.drop b d with misses := min 255 ((s.drop b d).misses + 1)
                                       present := (s.drop b d).present && decide ((s.drop b d).misses + 1 < 3) }
      ∧ Tab.get 0 t.proof.ctr 18 = Tab.get 0 s.proof.ctr 18 + 1
    Ends (.shelfReplyTimeout b) s post ∧ Ends (.shelfReplyDiscarded b false) s post
    ∧ Ends (.shelfReplyDiscarded b true) s (fun t => post t ∧ Tab.get 0 t.proof.ctr 19 = Tab.get 0 s.proof.ctr 19 + 1)
    ∧ (ty ≠ 0x81 → Ends (.shelfStatusReceived b p) s post)
    ∧ (ty ≠ 0x82 ∨ p.length ≠ 4 → Ends (.shelfAckReceived b p) s post)
    ∧ (ty ≠ 0x84 ∨ p.length ≠ 36 → Ends (.shelfIdentReceived b p) s post)
    ∧ (ty = 0x81 → statusOk p = true → Ends (.shelfStatusReceived b p) s (fun t => (t.drop b d).misses = 0
      ∧ (t.drop b d).present = true ∧ (t.drop b d).battery = bit (rdBe p 4 1) 0))
    ∧ (ty = 0x82 → p.length = 4 → ∀ c, (s.drop b d).cmd = some c →
      (rdBe p 0 2 = (s.drop b d).cmdSeq → rdBe p 2 1 = 0 → Ends (.shelfAckReceived b p) s (fun t =>
        t.drop b d = { s.drop b d with misses := 0, cmd := none } ∧ (t.bus b).await = none))
      ∧ (rdBe p 0 2 ≠ (s.drop b d).cmdSeq → Ends (.shelfAckReceived b p) s (fun t =>
        t.drop b d = { s.drop b d with misses := 0 } ∧ (t.bus b).await = none)))
    ∧ (ty = 0x84 → p.length = 36 → Ends (.shelfIdentReceived b p) s (fun t =>
      t.drop b d = { s.drop b d with misses := 0, ident := p } ∧ (t.bus b).await = none)))

/-- For each pool that gives a buffer: if its free buffers are then below 1/64 of its buffers and its alarm is not set,
POOL_LOW is logged once and the alarm is set; if they are not, or the alarm is set already, nothing is logged and the
alarm stays. A buffer that is taken back logs nothing, and clears the alarm exactly when the free count is then above
1/32. Commands: POOL_ALLOC, POOL_FREE. (R158) -/
def Obligations.PoolLowAlarm : Prop :=
  (∀ (s : State) (size block j : Nat), size ≤ 65536 → s.buf.poolPick (poolFor size) = some j →
    let used : Nat := (insertRising (lowestFree 0 (s.buf.pool j).used) (s.buf.pool j).used).length
    ((s.buf.pool j).alarm = false → 64 * (poolCount j - used) < poolCount j → Ends (.poolAlloc size block) s (fun t =>
      t.evt = (s.raise 0x0504 sevWarning []).evt ∧ (t.buf.pool j).alarm = true))
    ∧ ((s.buf.pool j).alarm = true ∨ poolCount j ≤ 64 * (poolCount j - used) → Ends (.poolAlloc size block) s (fun t =>
      t.evt = s.evt ∧ (t.buf.pool j).alarm = (s.buf.pool j).alarm)))
  ∧ (∀ (s : State) (ptr block j n : Nat), s.poolPtr ptr = some (j, n) → n ∈ (s.buf.pool j).used →
    let free : Nat := poolCount j - (without (s.buf.pool j).used n).length
    (poolCount j < 32 * free → Ends (.poolFree ptr block) s (fun t => t.evt = s.evt ∧ (t.buf.pool j).alarm = false))
    ∧ (32 * free ≤ poolCount j → Ends (.poolFree ptr block) s (fun t => t.evt = s.evt
      ∧ (t.buf.pool j).alarm = (s.buf.pool j).alarm)))

/-- A pool request above 65,536 bytes is answered BAD_ARG and changes nothing else. One that no pool from its own
upwards can serve is answered NO_RESOURCE and is counted, and every pool stays. Otherwise the smallest such pool gives
its lowest free buffer (the model's choice of the buffer, log entry 12), and the answer names the buffer's address. A
free of an allocated buffer of the pool that contains it takes it out of the pool; any other pointer leaves every pool
and is counted. A from-host writer with a packet commits it if a bank has room, and waits else while the FIFO is
enabled. A to-host frame whose last cell has come to the host port is committed, or rewound where it was found bad,
discarded mid-frame or has lost cells; one still coming changes nothing. A FIFO whose pointer copies differ is emptied,
restarts at bank 0, counts the reset, and its error source is set pending. Commands: HPF_POINTER_MISMATCH,
HPF_PACKET_COMMIT, POOL_ALLOC, POOL_FREE. (R155, R156, R157, R369, R371, R372, R374) -/
def Obligations.PoolFifoRows : Prop :=
  (∀ (s : State) (size block : Nat), 65536 < size → Ends (.poolAlloc size block) s (fun t =>
    t = { s with out := .poolAnswer block stBadArg 0 :: s.out }))
  ∧ (∀ (s : State) (size block : Nat), size ≤ 65536 →
    (s.buf.poolPick (poolFor size) = none → Ends (.poolAlloc size block) s (fun t => (∀ j, t.buf.pool j = s.buf.pool j)
      ∧ t.out = .poolAnswer block stNoResource 0 :: s.out ∧ Tab.get 0 t.buf.ctr 20 = Tab.get 0 s.buf.ctr 20 + 1))
    ∧ (∀ j, s.buf.poolPick (poolFor size) = some j → Ends (.poolAlloc size block) s (fun t =>
      (t.buf.pool j).used = insertRising (lowestFree 0 (s.buf.pool j).used) (s.buf.pool j).used
      ∧ t.out.head? = some (.poolAnswer block stOk
        (s.regionBase 2 + 2 ^ 30 * j + poolBuf j * lowestFree 0 (s.buf.pool j).used))
      ∧ Tab.get 0 t.buf.ctr 18 = Tab.get 0 s.buf.ctr 18 + 1 ∧ ∀ i, i < 4 → i ≠ j → t.buf.pool i = s.buf.pool i)))
  ∧ (∀ (s : State) (ptr block : Nat),
    (∀ j n, s.poolPtr ptr = some (j, n) → n ∈ (s.buf.pool j).used → Ends (.poolFree ptr block) s (fun t =>
      (t.buf.pool j).used = without (s.buf.pool j).used n ∧ t.buf.ctr = s.buf.ctr ∧ ∀ i, i < 4 → i ≠ j → t.buf.pool i = s.buf.pool i))
    ∧ ((∀ j n, s.poolPtr ptr = some (j, n) → n ∉ (s.buf.pool j).used) → Ends (.poolFree ptr block) s (fun t =>
      (∀ j, t.buf.pool j = s.buf.pool j) ∧ Tab.get 0 t.buf.ctr 21 = Tab.get 0 s.buf.ctr 21 + 1)))
  ∧ (∀ (s : State) (h : Nat), h < 4 →
    ((s.fifo (2 * h + 1)).writing = [] → Idles (.hpfPacketCommit (2 * h + 1)) s)
    ∧ (∀ g, (s.fifo (2 * h + 1)).writing ≠ [] → (s.fifo (2 * h + 1)).place (ceilDiv (s.fifo (2 * h + 1)).writing.length 32) = some g →
      Ends (.hpfPacketCommit (2 * h + 1)) s (fun t => (t.fifo (2 * h + 1)).packets = (s.fifo (2 * h + 1)).packets + 1
        ∧ (t.fifo (2 * h + 1)).writing = [] ∧ (t.fifo (2 * h + 1)).waiting = false))
    ∧ ((s.fifo (2 * h + 1)).writing ≠ [] → (s.fifo (2 * h + 1)).place (ceilDiv (s.fifo (2 * h + 1)).writing.length 32) = none →
      Ends (.hpfPacketCommit (2 * h + 1)) s (fun t =>
        t.fifo (2 * h + 1) = HFifo.synced { s.fifo (2 * h + 1) with waiting := (s.fifo (2 * h + 1)).enable })))
  ∧ (∀ (s : State) (h : Nat), h < 4 →
    ((s.port (512 + h)).txPkt = none → Idles (.hpfPacketCommit (2 * h)) s)
    ∧ (∀ id i, (s.port (512 + h)).txPkt = some id →
      (s.egq (s.port (512 + h)).txQ).find? (fun i => i.pkt == id && i.started) = some i →
      (i.complete = false → Idles (.hpfPacketCommit (2 * h)) s)
      ∧ (i.complete = true → (s.pkt id).stomp = false → (s.pkt id).midCut = false → i.stomp = false →
        Ends (.hpfPacketCommit (2 * h)) s (fun t =>
        (t.fifo (2 * h)).packets = (s.fifo (2 * h)).packets + 1 ∧ (t.fifo (2 * h)).notices = (s.fifo (2 * h)).notices + 1
        ∧ (t.fifo (2 * h)).rewinds = (s.fifo (2 * h)).rewinds ∧ (t.port (512 + h)).txPkt = none))
      ∧ (i.complete = true → (s.pkt id).stomp = true ∨ (s.pkt id).midCut = true ∨ i.stomp = true → Ends (.hpfPacketCommit (2 * h)) s (fun t =>
        (t.fifo (2 * h)).packets = (s.fifo (2 * h)).packets ∧ (t.fifo (2 * h)).rewinds = (s.fifo (2 * h)).rewinds + 1
        ∧ (t.port (512 + h)).txPkt = none))))
  ∧ (∀ (s : State) (f : Nat), f < 8 → Ends (.hpfPointerMismatch f) s (fun t => (t.fifo f).bank0 = [] ∧ (t.fifo f).bank1 = []
    ∧ (t.fifo f).notices = 0 ∧ (t.fifo f).writeBank = 0 ∧ (t.fifo f).readBank = 0 ∧ (t.fifo f).resetSeen = true
    ∧ (t.fifo f).resets = (s.fifo f).resets + 1 ∧ t.host.intPending (179 + f) = true))

/-- A local set being prepared fails with its set OPEN again and no table moved when the bank or the normalisation does
not come free, and when placement finds no room. Once drained and placed it is ARMED: a local set that changes no region
is past its commit point, and a bake now takes the first whole microsecond at least 10 us ahead. Before its instant
nothing bakes. At the instant an ARMED set that may bake is BAKED and the epoch advances, to the domain epoch for a
domain bake; the generation flips only where the set writes a table of it, and the classification epoch advances only
where it writes Prism state. A local set that fails the region test is OPEN again. A member without GO does not bake:
its set stays ARMED and in doubt. The manager's DOM_BAKE completes with the bake of its own set, and at T where it has
none. That the row does nothing before the instant is how the model reads R415 into it (log entry 94). Commands:
BAKE_DRAIN_TIMEOUT, BAKE_PREPARE_DONE, BAKE_INSTANT. (R87, R112, R407, R412, R413, R414, R415, R417, R418, R428, R430)
-/
def Obligations.BakeRows : Prop :=
  (∀ s : State, s.bake.preparing = none → Idles .bakeDrainTimeout s ∧ Idles .bakePrepareDone s)
  ∧ (∀ (s : State) (b : SetSt), s.bake.preparing = some b →
    (s.drained = true → Idles .bakeDrainTimeout s) ∧ (s.drained = false → Idles .bakePrepareDone s)
    ∧ (s.drained = false → b.domain = false → b.restore = false → Ends .bakeDrainTimeout s (fun t =>
      t.bake.set? b.id = some b.reopened ∧ t.fwd = s.fwd ∧ t.prism = s.prism ∧ t.bake.epoch = s.bake.epoch))
    ∧ (s.drained = true → s.prepare b.cmds = none → b.domain = false → b.restore = false → Ends .bakePrepareDone s (fun t =>
      t.bake.set? b.id = some b.reopened ∧ Tab.get 0 t.fwd.ctr 13 = Tab.get 0 s.fwd.ctr 13 + 1
      ∧ t.prism = s.prism ∧ t.bake.epoch = s.bake.epoch))
    ∧ (∀ u, s.drained = true → s.prepare b.cmds = some u → b.domain = false → Ends .bakePrepareDone s (fun t =>
      t.bake.set? b.id = some { (if b.now then b.setAt s.soon else b) with
        state := .armed, committed := (s.setRegions b.cmds).isNone }
      ∧ t.fwd = u.fwd ∧ t.prism = u.prism ∧ t.bake.epoch = s.bake.epoch)))
  ∧ (∀ s : State, (∀ b, s.bake.armed = some b → s.nowNs < b.at') → (∀ d, s.bake.dom = some d → s.nowNs < d.at') → Idles .bakeInstant s)
  ∧ (∀ (s : State) (b : SetSt), s.bake.armed = some b → b.at' ≤ s.nowNs →
    (b.domain = true → b.go = false → b.inDoubt = true → s.bake.dom = none → Idles .bakeInstant s)
    ∧ (b.domain = true → b.go = false → b.inDoubt = false → Ends .bakeInstant s (fun t =>
      t.bake.set? b.id = (s.bake.set? b.id).map (fun x => { x with inDoubt := true }) ∧ t.fwd = s.fwd ∧ t.prism = s.prism
      ∧ t.bake.epoch = s.bake.epoch))
    ∧ (∀ l, b.domain = false → b.restore = false → s.setRegions b.cmds = some l → s.regionTest l = false → Ends .bakeInstant s (fun t =>
      t.bake.set? b.id = some b.reopened ∧ (∀ i, t.regionSize i = s.regionSize i) ∧ t.bake.epoch = s.bake.epoch))
    ∧ ((b.domain = true → b.go = true) → s.setRegions b.cmds = none → Ends .bakeInstant s (fun t =>
      (t.bake.set? b.id).map (·.state) = some .baked
      ∧ (b.domain = true → ∀ d, s.bake.dom = some d → d.decided = true → t.bake.dom = none)
      ∧ t.bake.epoch = (if b.domain then b.domEpoch else nextEpoch s.bake.epoch)
      ∧ (b.cmds.any genWrite = false → t.fwd.gen = s.fwd.gen) ∧ (b.cmds.any genWrite = true → t.fwd.gen = 1 - s.fwd.gen)
      ∧ (b.cmds.any prismWrite = false → t.prism.epoch = s.prism.epoch)
      ∧ (b.cmds.any prismWrite = true → t.prism.epoch = (s.prism.epoch + 1) % 2 ^ 32))))
  ∧ (∀ (s : State) (d : DomBake), s.bake.armed = none → s.bake.dom = some d → d.at' ≤ s.nowNs → d.decided = true →
    s.bake.domSet d.id = none → Ends .bakeInstant s (fun t => t.bake.dom = none ∧ t.bake.sets = s.bake.sets
      ∧ t.bake.epoch = s.bake.epoch))

/-- A skip notice that arrives takes the next position and joins the queue, unless the queue holds 8,192: then it is an
unrecorded skip. The work item of a committed entry ends: the entry goes and its record fills its position, or is
counted unrecorded when the ring is full; on the service slot's core the oldest notice's record does. A position whose
record cannot be written in time is given up and counted. The open batch falls due, or stays open with its close
deferred while 16 receipts wait or the receipt ring is full. When a deferred batch falls due, once the deferral is over
or at the close of the batch before it, is the model's choice (log entry 104). The oldest due batch closes once every
position is written, and its receipt waits to be signed; a signed receipt enters the receipt ring with its chain fields.
Commands: SKIP_NOTICE_ARRIVAL, FIX_WORK_ITEM_DONE, FIX_LOG_WRITE_TIMEOUT, BATCH_TIMER, BATCH_CLOSE, RECEIPT_SIGNED.
(R284, R289, R290, R292, R293, R294, R295, R296) -/
def Obligations.WitnessRows : Prop :=
  (∀ (s : State) (c : Nat), c < 16 → ((s.fix c).transit = [] → Idles (.skipNoticeArrival c) s)
    ∧ (∀ n l, (s.fix c).transit = n :: l →
      (8192 ≤ (s.fix c).notices.length → Ends (.skipNoticeArrival c) s (fun t => (t.fix c).transit = l
        ∧ (t.fix c).notices = (s.fix c).notices ∧ (t.fix c).cur.unrec = (s.fix c).cur.unrec + 1
        ∧ Tab.get 0 t.leaven.ctr 7 = Tab.get 0 s.leaven.ctr 7 + 1))
      ∧ ((s.fix c).notices.length < 8192 → (s.fix c).cur.full = false → Ends (.skipNoticeArrival c) s (fun t => (t.fix c).transit = l
        ∧ (t.fix c).notices = (s.fix c).notices ++ [{ n with stripe := (s.fix c).arrived % 8 }]
        ∧ (t.fix c).positions = (s.fix c).positions ++ [(n.id, none)]))))
  ∧ (∀ (s : State) (c k : Nat), c < 16 → k < 13 →
    let put : Tap → State → Prop := fun x t => (t.fix c).positions = (s.fix c).positions.map (fun (y : Nat × Option (List Byte)) =>
        if y.1 = x.id ∧ y.2.isNone = true then (x.id, some x.record) else y)
      ∧ Tab.get 0 t.leaven.ctr 1 = Tab.get 0 s.leaven.ctr 1 + 1
    (∀ x, (s.fix c).taps.find? (fun t => t.core == some k && t.committed) = some x →
      ((s.fix c).recHead - (s.fix c).recTail ≠ s.recCapacity → Ends (.fixWorkItemDone c k) s (fun t => put x t
        ∧ ∀ y ∈ (t.fix c).taps, y.id ≠ x.id))
      ∧ ((s.fix c).recHead - (s.fix c).recTail = s.recCapacity → Ends (.fixWorkItemDone c k) s (fun t =>
        (∀ y ∈ (t.fix c).taps, y.id ≠ x.id) ∧ (∀ y ∈ (t.fix c).positions, y.1 ≠ x.id)
        ∧ Tab.get 0 t.leaven.ctr 8 = Tab.get 0 s.leaven.ctr 8 + 1)))
    ∧ (∀ x l, (s.fix c).taps.find? (fun t => t.core == some k && t.committed) = none → (s.cluster c).slots.getD 11 none = some k →
      (s.fix c).notices = x :: l → (s.fix c).recHead - (s.fix c).recTail ≠ s.recCapacity →
      Ends (.fixWorkItemDone c k) s (fun t => put x t ∧ (t.fix c).notices = l))
    ∧ ((s.fix c).taps.find? (fun t => t.core == some k && t.committed) = none → (s.cluster c).slots.getD 11 none ≠ some k →
      Idles (.fixWorkItemDone c k) s))
  ∧ (∀ (s : State) (c p : Nat), c < 16 →
    ((s.fix c).positions.length ≤ p → Idles (.fixLogWriteTimeout c p) s)
    ∧ (∀ n x, (s.fix c).positions[p]? = some (n, none) → ((s.fix c).taps ++ (s.fix c).notices).find? (fun t => t.id == n) = some x →
      Ends (.fixLogWriteTimeout c p) s (fun t => (∀ y ∈ (t.fix c).positions, y.1 ≠ n) ∧ (∀ y ∈ (t.fix c).taps, y.id ≠ n)
        ∧ (∀ y ∈ (t.fix c).notices, y.id ≠ n) ∧ Tab.get 0 t.leaven.ctr 9 = Tab.get 0 s.leaven.ctr 9 + 1)))
  ∧ (∀ (s : State) (c : Nat), c < 16 →
    ((s.fix c).cur.isOpen = false ∨ (s.fix c).cur.due ≠ none → Ends (.batchTimer c) s (fun t => t.fix c = s.fix c))
    ∧ ((s.fix c).cur.isOpen = true → (s.fix c).cur.due = none →
      ((s.fix c).mustDefer = false → Ends (.batchTimer c) s (fun t => t.fix c = { s.fix c with
        due := (s.fix c).due ++ [{ (s.fix c).cur with due := some 1, key := none }], cur := Batch.init }))
      ∧ ((s.fix c).mustDefer = true → Ends (.batchTimer c) s (fun t => t.fix c = { s.fix c with
        cur := { (s.fix c).cur with due := some 1, key := none, deferred := true } }))))
  ∧ (∀ (s : State) (c : Nat), c < 16 → ∀ b l, (s.fix c).due = b :: l →
    (b.written = false → (s.fix c).cur.deferred = false ∨ (s.fix c).mustDefer = true → Idles (.batchClose c) s)
    ∧ (b.written = true → (s.fix c).mustDefer = false → Ends (.batchClose c) s (fun t =>
      (t.fix c).due = l ++ (if (s.fix c).cur.deferred then [(s.fix c).cur] else [])
      ∧ (t.fix c).base = (s.fix c).base + (b.recs.filterMap (·.2)).length
      ∧ (t.fix c).signing = (s.fix c).signing ++ [(b.key.getD s.mbx.boots,
        receiptHead c (b.key.getD s.mbx.boots) (s.fix c).base s.time.sec s.time.ns b)])))
  ∧ (∀ (s : State) (c : Nat), c < 16 →
    ((s.fix c).signing = [] ∨ (s.fix c).rcHead - (s.fix c).rcTail = 65536 → Idles (.receiptSigned c) s)
    ∧ (∀ key head l, (s.fix c).signing = (key, head) :: l → (s.fix c).rcHead - (s.fix c).rcTail ≠ 65536 →
      let start : Bool := (s.fix c).chainKey != some key
      let seq : Nat := if start then 0 else (s.fix c).chainSeq
      let r : List Byte := signedReceipt key seq start (s.fix c).prevHash head
      Ends (.receiptSigned c) s (fun t => (t.fix c).rcHead = (s.fix c).rcHead + 1
        ∧ Tab.find (t.fix c).receipts ((s.fix c).rcHead % 65536) = some r ∧ (t.fix c).chainSeq = seq + 1
        ∧ (t.fix c).chainKey = some key ∧ (t.fix c).prevHash = sha256 r
        ∧ Tab.get 0 t.leaven.ctr 11 = Tab.get 0 s.leaven.ctr 11 + 1)))

/-- A domain message at a port whose link is down changes nothing; one with a bad FCS is dropped and counted, one off
the enabled domain ports or for another device is consumed, and one that fails authentication only counts. A HEARTBEAT
at a worker ends its frozen state and is answered in a sealed frame; a HEARTBEAT_ACK makes its worker present. RECEIVED
confirms its message; one not confirmed is sent again, and given up after the fifth send. The manager's tick counts an
unanswered HEARTBEAT of each enrolled worker, and the third in a row makes it absent. A worker that loses its manager is
frozen. A worker that is to enrol sends ENROL in clear text on each of its domain ports; the manager answers the first
with GET_VERSION and ignores the others while that set-up runs, and the worker answers with its versions. At the end of
the exchange a worker that is admitted and proves itself has a new session, as has a manager whose chain, OU and key
hash the worker accepts; an exchange that fails is ended with END_SESSION. A key update is asked of an enrolled worker
and advances the keys of both sides, and END_SESSION leaves a worker not enrolled. The exchange between VERSION and its
end has no row, and its outcome is the operand of the message that ends it (log entry 57); that the message that
confirms a message in clear text is in clear text, and what receiver a frame is for, is the model's choice (log entry
52). Commands: HEARTBEAT_TICK, MANAGER_LOSS_TIMEOUT, HEARTBEAT, HEARTBEAT_ACK, RECEIVED, DOMAIN_RESEND_TIMEOUT,
FORWARD_REQ, FORWARD_RSP, PREPARE, VOTE, COMMIT, ACK, GO, ABORT, OUTCOME_QUERY, OUTCOME, ENROL, ENROL_TICK,
KEY_UPDATE_TIMER. (R422, R423, R424, R425, R426, R452, R453) -/
def Obligations.DomainChannelRows : Prop :=
  (∀ (s : State) (m : DomIn) (ty : Nat) (i : DomIn → Instr), m.port < 512 →
    (ty, i) ∈ ([(1, .heartbeat), (2, .heartbeatAck), (3, .received), (0x10, .forwardReq), (0x11, .forwardRsp), (0x20, .prepare),
      (0x21, .vote), (0x22, .commit), (0x23, .ack), (0x24, .go), (0x25, .abort), (0x26, .outcomeQuery), (0x27, .outcome)] :
      List (Nat × (DomIn → Instr))) →
    ((s.port m.port).link = false → Idles (i m) s)
    ∧ ((s.port m.port).link = true → m.fcsOk = false → 60 ≤ m.raw.length → m.raw.length + 4 ≤ (s.port m.port).maxLen →
      Ends (i m) s (fun t => t.bake = s.bake
        ∧ Tab.get 0 t.tel.portCtr (22 * m.port + 2) = Tab.get 0 s.tel.portCtr (22 * m.port + 2) + 1))
    ∧ ((s.port m.port).link = true → m.fcsOk = true → s.domMine m = false → Ends (i m) s (fun t => t = s.domCounted m))
    ∧ ((s.port m.port).link = true → m.fcsOk = true → s.domMine m = true → inClear m = false → s.authOk ty m = false →
      Ends (i m) s (fun t => t.bake = { s.bake with authFails := (s.bake.authFails + 1) % 2 ^ 32 })))
  ∧ (∀ (s : State) (m : DomIn), s.hearsDom 1 m → s.role = 1 →
    Ends (.heartbeat m) s (fun t => (t.peer 0).epoch = rdBe m.body 0 4 ∧ (t.peer 0).present = true
      ∧ (t.peer 0).rxHigh = (frameSeqs m.seq m.body).foldl max (s.peer 0).rxHigh ∧ t.bake.frozen = false
      ∧ (let u : State := s.domAccepted 1 m
         ∀ p l, u.domPorts 0 = p :: l → bit (s.port p).storm 7 = false →
           let o : Output := u.domFrame p 0 2 s.bake.nextMsg s.beatBody
           if u.txClear p 7 then o ∈ t.out else (7, o) ∈ t.waiting p)))
  ∧ (∀ (s : State) (m : DomIn), s.hearsDom 2 m → s.role = 2 →
    Ends (.heartbeatAck m) s (fun t => (t.peer m.sender).epoch = rdBe m.body 0 4 ∧ (t.peer m.sender).present = true
      ∧ (t.peer m.sender).misses = 0 ∧ (t.peer m.sender).awaitAck = false ∧ ∀ j, j ≠ m.sender → t.peer j = s.peer j))
  ∧ (∀ (s : State) (m : DomIn),
    (s.hearsDom 3 m → inClear m = false → Ends (.received m) s (fun t =>
      t.bake.msgs = s.bake.msgs.filter (fun x => !(x.peer == m.sender && x.id == rdBe m.body 0 2))))
    ∧ (m.port < 512 → (s.port m.port).link = true → m.fcsOk = true → s.domMine m = true → inClear m = true →
      Ends (.received m) s (fun t => t.bake.msgs =
        s.bake.msgs.filter (fun x => !(x.clear.isSome && x.peer == m.sender && x.id == rdBe m.body 0 2)))))
  ∧ (∀ (s : State) (p id : Nat), p < 64 ∨ p = 255 →
    (s.bake.msgs.find? (fun x => x.peer == p && x.id == id) = none → Idles (.domainResendTimeout p id) s)
    ∧ (∀ x, s.bake.msgs.find? (fun x => x.peer == p && x.id == id) = some x →
      (x.sends < 5 → Ends (.domainResendTimeout p id) s (fun t =>
        t.bake.msgs = s.bake.msgs.map (fun y => if y = x then { y with sends := y.sends + 1 } else y)))
      ∧ (5 ≤ x.sends → x.type ≠ 0x10 → Ends (.domainResendTimeout p id) s (fun t => x ∉ t.bake.msgs))))
  ∧ (∀ s : State, (s.role ≠ 2 → Idles .heartbeatTick s)
    ∧ (s.role = 2 → Ends .heartbeatTick s (fun t => ∀ i, 1 ≤ i → i ≤ 63 → (s.peer i).enrolled = true →
      let n : Nat := if (s.peer i).awaitAck then (s.peer i).misses + 1 else (s.peer i).misses
      (t.peer i).awaitAck = true ∧ (t.peer i).misses = min n 65535 ∧ (t.peer i).present = ((s.peer i).present && decide (n < 3)))))
  ∧ (∀ s : State, (s.role = 1 → s.bake.enrolled = true → s.bake.frozen = false → Ends .managerLossTimeout s (fun t =>
      t.bake.frozen = true ∧ (t.peer 0).present = false ∧ t.bake.epoch = s.bake.epoch))
    ∧ (s.role ≠ 1 ∨ s.bake.enrolled = false ∨ s.bake.frozen = true → Idles .managerLossTimeout s))
  ∧ (∀ (s : State) (m : DomIn) (x : EnrolIn), m.port < 512 → (s.port m.port).link = true → m.fcsOk = true → s.domMine m = true →
    inClear m = true →
    (s.role = 2 → m.body = [] → s.bake.setup = none → Ends (.enrol m x.idx x.hash x.toEnrolShown) s (fun t => t.bake.setup = some m.port
      ∧ Sent t m.sender 0x30 getVersionMsg ∧ ∀ j, t.peer j = s.peer j))
    ∧ (s.role = 2 → m.body = [] → s.bake.setup ≠ none → Ends (.enrol m x.idx x.hash x.toEnrolShown) s (fun t =>
      t.bake = { s.bake with nextMsg := (s.bake.nextMsg + 1) % 65536 }))
    ∧ (s.role = 2 → m.body ≠ [] → s.bake.setup = some m.port → spdmCode m.body ≠ spdmEndSession →
      (s.admittedAs x.hash = none → Ends (.enrol m x.idx x.hash x.toEnrolShown) s (fun t => t.bake.setup = none ∧ Sent t m.sender 0x30 endSessionMsg
        ∧ ∀ j, t.peer j = s.peer j))
      ∧ (∀ i, s.admittedAs x.hash = some i → x.root = true → x.proof = true → Ends (.enrol m x.idx x.hash x.toEnrolShown) s (fun t => t.bake.setup = none
        ∧ (∃ tx rx, t.peer i = (s.peer i).newSession m.port tx rx) ∧ ∀ j, j ≠ i → t.peer j = s.peer j))
      ∧ (∀ i, s.admittedAs x.hash = some i → x.root = false ∨ x.proof = false → Ends (.enrol m x.idx x.hash x.toEnrolShown) s (fun t => t.bake.setup = none
        ∧ Sent t m.sender 0x30 endSessionMsg ∧ ∀ j, t.peer j = s.peer j)))
    ∧ (s.role = 1 → s.enrols = true → spdmCode m.body = spdmGetVersion → Ends (.enrol m x.idx x.hash x.toEnrolShown) s (fun t =>
      Sent t m.sender 0x30 versionMsg ∧ t.bake.enrolled = s.bake.enrolled ∧ ∀ j, t.peer j = s.peer j))
    ∧ (s.role = 1 → s.enrols = true → m.body ≠ [] → spdmCode m.body ≠ spdmEndSession → spdmCode m.body ≠ spdmGetVersion →
      (x.root = true → x.unit = ascii "MA" → x.proof = true → 1 ≤ x.idx → x.idx ≤ 63 → s.ident.pin = none ∨ s.ident.pin = some x.hash →
        Ends (.enrol m x.idx x.hash x.toEnrolShown) s (fun t => t.bake.enrolled = true ∧ t.bake.ownIdx = x.idx
          ∧ ∃ tx rx, t.peer 0 = (s.peer 0).newSession m.port tx rx))
      ∧ (x.root = false ∨ x.unit ≠ ascii "MA" ∨ x.proof = false ∨ (∃ h, s.ident.pin = some h ∧ h ≠ x.hash) →
        Ends (.enrol m x.idx x.hash x.toEnrolShown) s (fun t => Sent t m.sender 0x30 endSessionMsg ∧ t.bake.enrolled = s.bake.enrolled
          ∧ ∀ j, t.peer j = s.peer j)))
    ∧ (s.role = 1 → s.enrols = false → Ends (.enrol m x.idx x.hash x.toEnrolShown) s (fun t =>
      t.bake = { s.bake with nextMsg := (s.bake.nextMsg + 1) % 65536 })))
  ∧ (∀ (s : State) (m : DomIn) (x : EnrolIn), s.hearsDom 0x30 m → inClear m = false →
    let next : Peer → State → Prop := fun e t => (t.peer m.sender).keyEpoch = (e.keyEpoch + 1) % 256
      ∧ (t.peer m.sender).txSecret = nextSecret domVersion e.txSecret ∧ (t.peer m.sender).rxSecret = nextSecret domVersion e.rxSecret
    (s.role = 2 → spdmCode m.body = spdmKeyUpdateAck → (s.peer m.sender).keyUpd = true → Ends (.enrol m x.idx x.hash x.toEnrolShown) s (next (s.peer m.sender)))
    ∧ (s.role = 1 → spdmCode m.body = spdmKeyUpdate → Ends (.enrol m x.idx x.hash x.toEnrolShown) s (fun t => next (s.peer m.sender) t
      ∧ Sent t 0 0x30 (be 1 0x13 ++ be 1 spdmKeyUpdateAck ++ slice m.body 2 2)))
    ∧ (s.role = 1 → spdmCode m.body = spdmEndSession → Ends (.enrol m x.idx x.hash x.toEnrolShown) s (fun t => t.bake.enrolled = false
      ∧ t.peer 0 = Peer.init ∧ t.bake.epoch = s.bake.epoch)))
  ∧ (∀ s : State, (s.enrols = true → s.bake.nextMsg < 65536 → Ends .enrolTick s (fun t =>
      (∀ k p, s.openPorts[k]? = some p → bit (s.port p).storm 7 = false →
        let o : Output := s.clearFrame p 0 0x30 ((s.bake.nextMsg + k) % 65536) []
        if s.txClear p 7 then o ∈ t.out else (7, o) ∈ t.waiting p)
      ∧ t.bake.nextMsg = (s.bake.nextMsg + s.openPorts.length) % 65536 ∧ (s.openPorts ≠ [] → Sent t 0 0x30 [])))
    ∧ (s.enrols = false → Idles .enrolTick s))
  ∧ (∀ (s : State) (p : Nat), p < 64 → (s.role = 2 → (s.peer p).enrolled = true → Ends (.keyUpdateTimer p) s (fun t =>
      (t.peer p).keyUpd = true ∧ Sent t p 0x30 (be 1 0x13 ++ be 1 spdmKeyUpdate ++ be 1 2 ++ be 1 0)))
    ∧ (s.role ≠ 2 ∨ (s.peer p).enrolled = false → Idles (.keyUpdateTimer p) s))

/-- At a worker, PREPARE too close to its instant is answered with a vote no, and else starts the bake of its set;
COMMIT is acknowledged; GO lets the set bake, a set in doubt at the first whole microsecond at least 10 us ahead; ABORT
returns an uncommitted set to OPEN; OUTCOME does as its result says; a member with ACK sent and no GO queries. At the
manager, a vote no or a missed deadline aborts the bake with every worker; the last vote yes sets the domain epoch, 1
plus the largest epoch, and sends COMMIT; the last ACK decides and sends GO; a query is answered with the recorded
outcome. A frozen worker refuses a forwarded request, and the checks of a mailbox refuse it as they refuse its own
host's; one that comes during a failover waits for the new active processor. That whether a bake has more members is a
free value to a worker is log entry 42. Commands: FORWARD_REQ, FORWARD_RSP, PREPARE, VOTE, COMMIT, ACK, GO, ABORT,
OUTCOME_QUERY, OUTCOME, OUTCOME_QUERY_TIMER, VOTE_DEADLINE, ACK_DEADLINE. (R266, R421, R426, R427, R428, R429, R430,
R431) -/
def Obligations.DomainExchangeRows : Prop :=
  (∀ (s : State) (m : DomIn), s.hearsDom 0x20 m → s.role = 1 →
    let id : Nat := rdBe m.body 4 4
    let at' : Nat := 1000000000 * rdBe m.body 8 8 + rdBe m.body 16 4
    let u : State := s.domAccepted 0x20 m
    s.bake.domSet (rdBe m.body 0 4) = none →
    (∀ e, leadFault s.nowNs at' (((s.bake.set? id).map SetSt.lead).getD 1000000) = some e → Ends (.prepare m) s (fun t =>
      t.bake.sets = s.bake.sets ∧ ∃ b, Sent t 0 0x21 (be 4 (rdBe m.body 0 4) ++ be 1 0 ++ be 1 0 ++ be 2 e.1 ++ be 2 e.2 ++ b)))
    ∧ (∀ b, s.bake.set? id = some b → leadFault s.nowNs at' b.lead = none → b.state = .isOpen → s.bake.inBake = none →
      s.slicesBusy = false → (u.drawn 1).checkCmds b.cmds (bit s.freeVal 0) = none → Ends (.prepare m) s (fun t =>
        t.bake.set? id = some { b with domain := true, several := bit s.freeVal 0, bakeId := rdBe m.body 0 4,
                                       sec := rdBe m.body 8 8, ns := rdBe m.body 16 4, state := .preparing })))
  ∧ (∀ (s : State) (m : DomIn) (b : SetSt), s.role = 1 → s.bake.domSet (rdBe m.body 0 4) = some b →
    let gone : State → Nat → Prop := fun t e => b.inDoubt = false → t.bake.set? b.id = some { b with
      go := true, committed := b.several || (s.setRegions b.cmds).isNone, domEpoch := e, inDoubt := false }
    (s.hearsDom 0x22 m → b.state = .armed → Ends (.commit m) s (fun t => Sent t 0 0x23 (be 4 b.bakeId)
      ∧ t.bake.set? b.id = (s.bake.set? b.id).map (fun x => { x with acked := true, domEpoch := rdBe m.body 4 4 })))
    ∧ (s.hearsDom 0x24 m → b.state = .armed → b.go = false → Ends (.go m) s (fun t => gone t (rdBe m.body 4 4)
      ∧ (b.inDoubt = true → t.bake.set? b.id = some (SetSt.setAt { b with
        go := true, committed := b.several || (s.setRegions b.cmds).isNone, domEpoch := rdBe m.body 4 4, inDoubt := false,
        late := true } s.soon))))
    ∧ (s.hearsDom 0x27 m → b.state = .armed → b.go = false → rdBe m.body 4 1 = 0 → Ends (.outcome m) s (fun t => gone t (rdBe m.body 8 4)))
    ∧ (s.hearsDom 0x25 m → b.committed = true → Ends (.abort m) s (fun t => t.bake.sets = s.bake.sets))
    ∧ (b.committed = false → b.restore = false → (s.hearsDom 0x25 m → Ends (.abort m) s (fun t => t.bake.set? b.id = some b.reopened))
      ∧ (s.hearsDom 0x27 m → rdBe m.body 4 1 ≠ 0 → Ends (.outcome m) s (fun t => t.bake.set? b.id = some b.reopened))))
  ∧ (∀ (s : State) (b : SetSt), s.role = 1 → s.bake.armed = some b → b.domain = true → b.go = false → s.bake.frozen = false →
    (b.acked = true ∨ b.inDoubt = true → Ends .outcomeQueryTimer s (fun t => Sent t 0 0x26 (be 4 b.bakeId)))
    ∧ (b.acked = false → b.inDoubt = false → Idles .outcomeQueryTimer s))
  ∧ (∀ s : State, s.role ≠ 1 ∨ s.bake.armed = none → Idles .outcomeQueryTimer s)
  ∧ (∀ (s : State) (m : DomIn) (d : DomBake), s.role = 2 → s.bake.dom = some d → d.id = rdBe m.body 0 4 →
    let v : DomBake := d.updMember m.sender (fun x => { x with voted := true, epoch := rdBe m.body 12 4, status := rdBe m.body 6 2, detail := rdBe m.body 8 2 })
    let a : DomBake := d.updMember m.sender (fun x => { x with acked := true })
    (s.hearsDom 0x21 m → d.members.any (fun x => x.idx == m.sender && !x.voted) = true →
      (rdBe m.body 4 1 ≠ 1 → Ends (.vote m) s (fun t => t.bake.dom = none
        ∧ ∀ i ∈ d.workers, Sent t i 0x25 (be 4 d.id ++ be 2 stCheckFailed ++ be 2 0x0E03)))
      ∧ (rdBe m.body 4 1 = 1 → v.members.all (·.voted) = false → Ends (.vote m) s (fun t => t.bake.dom = some v))
      ∧ (rdBe m.body 4 1 = 1 → v.members.all (·.voted) = true → Ends (.vote m) s (fun t => ∃ x, t.bake.dom = some x
        ∧ x.epoch = nextEpoch ((v.members.map (·.epoch)).foldl max s.bake.epoch)
        ∧ ∀ i ∈ d.workers, Sent t i 0x22 (be 4 d.id ++ be 4 x.epoch))))
    ∧ (s.hearsDom 0x23 m → a.members.all (·.acked) = false → Ends (.ack m) s (fun t => t.bake.dom = some a))
    ∧ (s.hearsDom 0x23 m → d.decided = false → a.members.all (·.acked) = true → Ends (.ack m) s (fun t => t.bake.dom = some { a with decided := true }
      ∧ (d.id, d.epoch) ∈ t.bake.outcomes ∧ ∀ i ∈ d.workers, Sent t i 0x24 (be 4 d.id ++ be 4 d.epoch))))
  ∧ (∀ (s : State) (m : DomIn), s.role = 2 →
    (∀ o, s.hearsDom 0x26 m → s.bake.outcomes.find? (fun o => o.1 == rdBe m.body 0 4) = some o → Ends (.outcomeQuery m) s (fun t =>
      Sent t m.sender 0x27 (be 4 (rdBe m.body 0 4) ++ be 1 0 ++ be 3 0 ++ be 4 o.2)))
    ∧ (s.hearsDom 0x26 m → s.bake.outcomes.find? (fun o => o.1 == rdBe m.body 0 4) = none → Ends (.outcomeQuery m) s (fun t =>
      Sent t m.sender 0x27 (be 4 (rdBe m.body 0 4) ++ be 1 1 ++ be 3 0 ++ be 4 0)))
    ∧ (∀ f, s.hearsDom 0x11 m → s.bake.fwdReqs.find? (fun f => f.1 == m.sender && rd f.2.payload 8 4 == rd m.body 0 4) = some f → Ends (.forwardRsp m) s (fun t =>
      t.bake.fwdReqs = s.bake.fwdReqs.erase f
      ∧ (t.peer m.sender).changes = changesAfter (s.peer m.sender).changes (f.2.payload.drop 4) m.body)))
  ∧ (∀ s : State, (s.bake.dom = none → Idles .voteDeadline s ∧ Idles .ackDeadline s)
    ∧ ∀ d, s.bake.dom = some d → (d.members.all (·.voted) = true → Idles .voteDeadline s) ∧ (d.decided = true → Idles .ackDeadline s)
      ∧ (d.members.all (·.voted) = false → Ends .voteDeadline s (fun t => t.bake.dom = none
        ∧ ∀ i ∈ d.workers, Sent t i 0x25 (be 4 d.id ++ be 2 stTimeout ++ be 2 0x0E04)))
      ∧ (d.decided = false → Ends .ackDeadline s (fun t => t.bake.dom = none
        ∧ ∀ i ∈ d.workers, Sent t i 0x25 (be 4 d.id ++ be 2 stTimeout ++ be 2 0x0E05))))
  ∧ (∀ (s : State) (m : DomIn) (op : Nat) (r : Req), s.hearsDom 0x10 m → s.role = 1 → fwdRequest m.body = (op, r) →
    let u : State := s.domAccepted 0x10 m
    (s.bake.frozen = true → Ends (.forwardReq m) s (fun t =>
      Sent t 0 0x11 (respHeader r.tag (Resp.err stNotPermitted 0x0E01) s.bake.epoch)))
    ∧ (s.bake.frozen = false → s.mbx.ready = true → s.pwr.failing = none → ∀ x b, u.verdict op r = .refuse x b → Ends (.forwardReq m) s (fun t =>
      Sent t 0 0x11 (respHeader r.tag x s.bake.epoch ++ x.payload)))
    ∧ (s.bake.frozen = false → s.mbx.ready = true → s.pwr.failing = none → s.mbx.restarting = none →
      s.job? 0x0103 r false = none → op = 0x0103 → r.async = false →
      u.verdict op r = .accept → Ends (.forwardReq m) s (fun t =>
        Sent t 0 0x11 (respHeader r.tag (Resp.ok r.payload) s.bake.epoch ++ r.payload)))
    ∧ (s.bake.frozen = false → s.mbx.ready = true → s.pwr.failing ≠ none → Ends (.forwardReq m) s (fun t =>
      t.mbx.gapCmds = s.mbx.gapCmds ++ [s.newJob op r] ∧ t.mbx.jobs = s.mbx.jobs)))

/-- When Moaras stops, every SUBMITTED mailbox is answered, the queue and the sessions go, every set short of its commit
point is aborted, and the bake epoch stays. When its restart ends it is ready exactly if an image has booted, and the
bake epoch stays. A fault of an active slice leaves it restoring and marks it in the sweeps; its restore leaves it
active, but not while Moaras restarts. An SPDM request of no supported code, in no agreed version, before negotiation,
of a slot other than 0, or of a session in clear is answered with an error; VERSION lists 1.2 and 1.3, and a
capabilities request agrees on one of them; after negotiation the digest of the chain is given, the alias key signs
CHALLENGE_AUTH, and KEY_EXCHANGE opens a session within the limit. A secured message of no session, or one that does not
verify, is answered with an error; FINISH completes a session whose proof is right and ends another, and END_SESSION
closes one. The SPDM codes, layouts and contexts are those of DSP0274 and DSP0277, which the model presumes (log entry
54). Commands: SPDM_REQUEST, MOARAS_WATCHDOG, MOARAS_RESTART_DONE, SLICE_FAULT, SLICE_RESTORE_DONE. (R401, R419, R437,
R448, R449, R450, R494, R496, R497) -/
def Obligations.RestartSliceSpdmRows : Prop :=
  (∀ (s : State) (cause : Nat), (s.mbx.ready = true → Ends (.moarasWatchdog cause) s (fun t => t.mbx.ready = false
      ∧ t.mbx.restarting = some (if cause = 2 then 2 else 1) ∧ t.mbx.restarts = (s.mbx.restarts + 1) % 2 ^ 32 ∧ t.mbx.jobs = []
      ∧ (∀ b, b < 32 → (t.box b).state ≠ .submitted) ∧ t.bake.enrolled = false ∧ t.bake.epoch = s.bake.epoch
      ∧ (∀ x ∈ t.bake.sets, x.committed = true ∨ x.state = .baked ∨ x.state = .aborted)
      ∧ t.ident.doe0 = [] ∧ t.ident.doe1 = [] ∧ t.ident.smb = []))
    ∧ (s.mbx.ready = false → cause ≠ 2 → Idles (.moarasWatchdog cause) s))
  ∧ (∀ s : State, (s.mbx.restarting = none ∨ s.mbx.ready = true → Idles .moarasRestartDone s)
    ∧ (∀ c, s.mbx.restarting = some c → s.mbx.ready = false → Ends .moarasRestartDone s (fun t =>
      t.mbx.ready = t.ident.booted ∧ t.bake.epoch = s.bake.epoch ∧ t.bake.sets = s.bake.sets
      ∧ (t.ident.booted = true → t.mbx.restarting = none ∧ t.mbx.heldEvents = [] ∧ t.mbx.lostAsync = []
        ∧ t.mbx.boots = (s.mbx.boots + 1) % 2 ^ 32))))
  ∧ (∀ (s : State) (n : Nat), n < 16 →
    ((s.sliceSt n).state ≠ .active → Idles (.sliceFault n) s)
    ∧ ((s.sliceSt n).state = .active → Ends (.sliceFault n) s (fun t => (t.sliceSt n).state = .restoring ∧ (t.sliceSt n).cause = 1
      ∧ (t.sliceSt n).req = none ∧ bit t.swp.slicesReset n = true ∧ ∀ i, i < 32 → (t.port (32 * n + i)).link = false))
    ∧ ((s.sliceSt n).between = false ∨ s.mbx.restarting ≠ none → Idles (.sliceRestoreDone n) s)
    ∧ ((s.sliceSt n).between = true → s.mbx.restarting = none → Ends (.sliceRestoreDone n) s (fun t => (t.sliceSt n).state = .active
      ∧ (t.sliceSt n).req = none ∧ (∀ m, m ≠ n → t.sliceSt m = s.sliceSt m)
      ∧ ((s.sliceSt n).cause ≠ 2 → Tab.get 0 t.tel.pwrCtr 5 = Tab.get 0 s.tel.pwrCtr 5 + 1))))
  ∧ (∀ (s : State) (tr : Nat) (b : List Byte), tr < 3 → (tr ≤ 1 → s.fnExists tr = true) →
    let v : Nat := Tab.get 0 s.ident.spdmVer tr
    let code : Nat := rd b 1 1
    let msg : Nat → Nat → Nat → Nat → List Byte → List Byte := fun ver code p1 p2 body =>
      le 1 ver ++ le 1 code ++ le 1 p1 ++ le 1 p2 ++ body
    let answers : List Byte → Prop := fun x => Ends (.spdmRequest tr ⟨false, b⟩) s (fun t => t = { s with out := .spdm tr false x :: s.out })
    (s.mbx.ready = false → ∀ secured, Idles (.spdmRequest tr ⟨secured, b⟩) s)
    ∧ (s.mbx.ready = true → spdmSupported code = false → answers (msg (max 0x10 v) 0x7F 7 code []))
    ∧ (s.mbx.ready = true → rd b 0 1 = 0x10 → code = 0x84 → Ends (.spdmRequest tr ⟨false, b⟩) s (fun t =>
      t.out = .spdm tr false (msg 0x10 4 0 0 (le 1 0 ++ le 1 2 ++ le 2 0x1200 ++ le 2 0x1300)) :: s.out
      ∧ Tab.get 0 t.ident.spdmVer tr = 0 ∧ t.ident.doe0 = s.ident.doe0 ∧ t.ident.doe1 = s.ident.doe1 ∧ t.ident.smb = s.ident.smb))
    ∧ (s.mbx.ready = true → v = 0 → spdmSupported code = true → code ≠ 0x84 → code ≠ 0xE1 → answers (msg 0x10 0x7F 4 0 []))
    ∧ (s.mbx.ready = true → rd b 0 1 = 0x12 ∨ rd b 0 1 = 0x13 → code = 0xE1 → Ends (.spdmRequest tr ⟨false, b⟩) s (fun t =>
      Tab.get 0 t.ident.spdmVer tr = rd b 0 1 ∧ ∃ x, t.out = .spdm tr false (msg (rd b 0 1) 0x61 0 0 x) :: s.out))
    ∧ (s.mbx.ready = true → rd b 0 1 ≠ 0x12 → rd b 0 1 ≠ 0x13 → code = 0xE1 → answers (msg (max 0x12 v) 0x7F 0x41 0 []))
    ∧ (s.mbx.ready = true → v ≠ 0 → rd b 0 1 ≠ v → spdmSupported code = true → code ≠ 0x84 → code ≠ 0xE1 →
      answers (msg (max 0x12 v) 0x7F 0x41 0 []))
    ∧ (s.mbx.ready = true → v ≠ 0 → rd b 0 1 = v →
      (code = 0xE3 → Ends (.spdmRequest tr ⟨false, b⟩) s (fun t => tr ∈ t.ident.spdmNeg
        ∧ ∃ x, t.out = .spdm tr false (msg v 0x63 4 0 x) :: s.out))
      ∧ (spdmPlain code = true → tr ∉ s.ident.spdmNeg → answers (msg v 0x7F 4 0 []))
      ∧ (tr ∈ s.ident.spdmNeg →
        (spdmInSession code = true → answers (msg v 0x7F 0xB 0 []))
        ∧ (code = 0x81 → Ends (.spdmRequest tr ⟨false, b⟩) s (fun t =>
          t.out = .spdm tr false (msg v 1 (if v = 0x13 then 1 else 0) 1 (sha384 s.certChain)) :: s.out
          ∧ ∀ o, o < 3 → t.ident.sessions o = s.ident.sessions o))
        ∧ (code = 0x82 → rd b 2 1 % 16 ≠ 0 → Ends (.spdmRequest tr ⟨false, b⟩) s (fun t =>
          t.out = .spdm tr false (msg v 0x7F 1 0 []) :: s.out))
        ∧ (code = 0x83 → rd b 2 1 ≠ 0 → answers (msg v 0x7F 1 0 []))
        ∧ (code = 0x83 → rd b 2 1 = 0 → Ends (.spdmRequest tr ⟨false, b⟩) s (fun t => ∃ x,
          let r : List Byte := msg v 3 0 1 (sha384 s.certChain ++ x)
          t.out = .spdm tr false (r ++ s.spdmSign v "responder-challenge_auth signing"
            ((s.spdmLog tr).vca ++ (s.spdmLog tr).certs ++ b ++ r)) :: s.out))
        ∧ (code = 0xE4 → (s.ident.sessions tr).length < sessionLimit tr → keyExchangeOk b = true →
          Ends (.spdmRequest tr ⟨false, b⟩) s (fun t => (∃ x, x.done = false ∧ t.ident.sessions tr = s.ident.sessions tr ++ [x])
            ∧ ∀ o, o < 3 → o ≠ tr → t.ident.sessions o = s.ident.sessions o))
        ∧ (code = 0xE4 → (s.ident.sessions tr).length < sessionLimit tr → keyExchangeOk b = false → answers (msg v 0x7F 1 0 []))
        ∧ (code = 0xE4 → sessionLimit tr ≤ (s.ident.sessions tr).length → answers (msg v 0x7F 0xA 0 [])))))
  ∧ (∀ (s : State) (tr : Nat) (b : List Byte), tr < 3 → (tr ≤ 1 → s.fnExists tr = true) → s.mbx.ready = true →
    ((s.ident.sessions tr).find? (fun x => x.id == rd b 0 4) = none → Ends (.spdmRequest tr ⟨true, b⟩) s (fun t =>
      t = { s with out := .spdm tr false (spdmErr (max 0x12 (Tab.get 0 s.ident.spdmVer tr)) 2 0) :: s.out }))
    ∧ (∀ x, (s.ident.sessions tr).find? (fun x => x.id == rd b 0 4) = some x →
      (x.unseal tr b = none → Ends (.spdmRequest tr ⟨true, b⟩) s (fun t => t.ident = s.ident
        ∧ t.out.head? = some (.spdm tr false (spdmErr x.ver 6 0))))
      ∧ (∀ m, x.unseal tr b = some m → rd m 0 1 = x.ver → x.done = false → rd m 1 1 = 0xE5 →
        (slice m 4 48 = finishData x.ver x.req (x.log ++ m.take 4) → Ends (.spdmRequest tr ⟨true, b⟩) s (fun t =>
          ∃ y ∈ t.ident.sessions tr, y.id = x.id ∧ y.done = true ∧ y.reqSeq = 0 ∧ y.rspSeq = 0))
        ∧ (slice m 4 48 ≠ finishData x.ver x.req (x.log ++ m.take 4) → Ends (.spdmRequest tr ⟨true, b⟩) s (fun t =>
          t.ident.sessions tr = (s.ident.sessions tr).filter (fun y => y.id != x.id))))
      ∧ (∀ m, x.unseal tr b = some m → rd m 0 1 = x.ver → x.done = true → rd m 1 1 = 0xEC → Ends (.spdmRequest tr ⟨true, b⟩) s (fun t =>
        t.ident.sessions tr = (s.ident.sessions tr).filter (fun y => y.id != x.id)
        ∧ t.out = .spdm tr true (({ x with reqSeq := x.reqSeq + 1 } : SpdmSession).seal tr (spdmMsg x.ver 0x6C 0 0 [])) :: s.out))))

end
end

