-- ==== Sys2Proof/Laws/Aes.lean ====
section
/-! SUPPORT. What AES-256-GCM seals it opens. -/

namespace Sys2Proof.Machine

theorem zipWith_xor_length (c k : List Byte) (h : k.length = c.length) : (List.zipWith (· ^^^ ·) c k).length = c.length := by
  simp [h]

/-- A key stream as long as the text, applied twice, gives the text back. -/
theorem zipWith_xor_twice (c k : List Byte) (h : k.length = c.length) :
    List.zipWith (· ^^^ ·) (List.zipWith (· ^^^ ·) c k) k = c := by
  induction c generalizing k with
  | nil => rfl
  | cons b c ih =>
    cases k with
    | nil => cases h
    | cons d k =>
      simp only [List.zipWith_cons_cons, ih k (by simpa using h), BitVec.xor_assoc, BitVec.xor_self, BitVec.xor_zero]

theorem gcmOpen_gcmSeal (key nonce aad text : List Byte)
    (h : (gcmStream (aesKeys (key.map (·.toNat))) nonce text.length).length = text.length) :
    gcmOpen key nonce aad (gcmSeal key nonce aad text).1 (gcmSeal key nonce aad text).2 = some text := by
  have l : (gcmSeal key nonce aad text).1.length = text.length := zipWith_xor_length _ _ h
  have e : (gcmSeal key nonce aad (gcmSeal key nonce aad text).1).1 = text := by
    show List.zipWith (· ^^^ ·) (gcmSeal key nonce aad text).1 (gcmStream _ nonce (gcmSeal key nonce aad text).1.length) = text
    rw [l]
    exact zipWith_xor_twice _ _ h
  simp only [gcmOpen, e, if_true]

end Sys2Proof.Machine
end

