-- ==== Sys2Proof/Laws/Tab.lean ====
section
/-! SUPPORT. Sparse tables: what a write leaves at its key and at the others, and that every write keeps the canonical
form. -/

set_option Elab.async false

namespace Sys2Proof.Machine

variable {α : Type}

theorem Tab.find_insert (k j : Nat) (v : α) (t : Tab α) :
    Tab.find (Tab.insert k v t) j = if k = j then some v else Tab.find t j := by
  induction t with
  | nil => simp [Tab.insert, Tab.find]
  | cons e r ih =>
    obtain ⟨a, w⟩ := e
    simp only [Tab.insert]
    split
    · simp [Tab.find]
    · split
      · next h => subst h; simp only [Tab.find]; split <;> rfl
      · next h => simp only [Tab.find, ih]; split_ifs <;> simp_all

theorem Tab.find_erase (k j : Nat) (t : Tab α) :
    Tab.find (Tab.erase k t) j = if k = j then none else Tab.find t j := by
  induction t with
  | nil => simp [Tab.erase, Tab.find]
  | cons e r ih =>
    obtain ⟨a, w⟩ := e
    simp only [Tab.erase] at ih
    by_cases h : a = k
    · subst h; simp [Tab.erase, Tab.find, ih]; split_ifs <;> rfl
    · simp [Tab.erase, Tab.find, h, ih]; split_ifs <;> simp_all

/-- A read after a write at the same key gives the value written. -/
@[simp] theorem Tab.get_set_same [DecidableEq α] (d : α) (t : Tab α) (k : Nat) (v : α) :
    Tab.get d (Tab.set d t k v) k = v := by
  unfold Tab.get Tab.set
  split
  · next h => simp [Tab.find_erase, h]
  · simp [Tab.find_insert]

/-- A write leaves every other key alone. -/
theorem Tab.get_set_other [DecidableEq α] (d d' : α) (t : Tab α) {k j : Nat} (v : α) (h : k ≠ j) :
    Tab.get d' (Tab.set d t k v) j = Tab.get d' t j := by
  unfold Tab.get Tab.set
  split <;> simp [Tab.find_erase, Tab.find_insert, h]

theorem Tab.get_set [DecidableEq α] (d : α) (t : Tab α) (k j : Nat) (v : α) :
    Tab.get d (Tab.set d t k v) j = if k = j then v else Tab.get d t j := by
  split
  · next h => subst h; simp
  · next h => exact Tab.get_set_other d d t v h

@[simp] theorem Tab.get_upd_same [DecidableEq α] (d : α) (t : Tab α) (k : Nat) (f : α → α) :
    Tab.get d (Tab.upd d t k f) k = f (Tab.get d t k) := by
  simp [Tab.upd]

theorem Tab.get_upd_other [DecidableEq α] (d d' : α) (t : Tab α) {k j : Nat} (f : α → α) (h : k ≠ j) :
    Tab.get d' (Tab.upd d t k f) j = Tab.get d' t j :=
  Tab.get_set_other d d' t _ h

theorem Tab.get_upd [DecidableEq α] (d : α) (t : Tab α) (k j : Nat) (f : α → α) :
    Tab.get d (Tab.upd d t k f) j = if k = j then f (Tab.get d t j) else Tab.get d t j := by
  simp only [Tab.upd, Tab.get_set]; split
  · next h => rw [h]
  · rfl

/-! ### The canonical form -/

theorem Tab.sorted_cons {j : Nat} {v : α} {t : Tab α} :
    Tab.sorted ((j, v) :: t) = true ↔ (∀ e ∈ t, j < e.1) ∧ Tab.sorted t = true := by
  induction t generalizing j v with
  | nil => simp [Tab.sorted]
  | cons e r ih =>
    obtain ⟨k, w⟩ := e
    simp only [Tab.sorted, Bool.and_eq_true, decide_eq_true_eq, List.forall_mem_cons]
    refine ⟨fun ⟨h1, h2⟩ => ⟨⟨h1, fun e he => ?_⟩, h2⟩, fun h => ⟨h.1.1, h.2⟩⟩
    exact lt_trans h1 ((ih.mp h2).1 e he)

theorem Tab.mem_insert {k : Nat} {v : α} {t : Tab α} {e : Nat × α} (h : e ∈ Tab.insert k v t) : e = (k, v) ∨ e ∈ t := by
  induction t with
  | nil => simpa [Tab.insert] using h
  | cons a r ih =>
    obtain ⟨j, w⟩ := a
    simp only [Tab.insert] at h
    split at h
    · simpa using h
    · split at h
      · simp only [List.mem_cons] at h ⊢; tauto
      · simp only [List.mem_cons] at h ⊢; tauto

theorem Tab.sorted_insert {k : Nat} {v : α} {t : Tab α} (h : Tab.sorted t = true) : Tab.sorted (Tab.insert k v t) = true := by
  induction t with
  | nil => rfl
  | cons a r ih =>
    obtain ⟨j, w⟩ := a
    have h' := Tab.sorted_cons.mp h
    simp only [Tab.insert]
    split
    · next hk => simp [Tab.sorted, hk, h]
    · split
      · next hk => subst hk; exact Tab.sorted_cons.mpr h'
      · refine Tab.sorted_cons.mpr ⟨fun e he => ?_, ih h'.2⟩
        rcases Tab.mem_insert he with rfl | he
        · simp only; omega
        · exact h'.1 e he

theorem Tab.sorted_filter {t : Tab α} (f : Nat × α → Bool) (h : Tab.sorted t = true) : Tab.sorted (t.filter f) = true := by
  induction t with
  | nil => rfl
  | cons a r ih =>
    obtain ⟨j, w⟩ := a
    have h' := Tab.sorted_cons.mp h
    simp only [List.filter]
    split
    · exact Tab.sorted_cons.mpr ⟨fun e he => h'.1 e (List.mem_of_mem_filter he), ih h'.2⟩
    · exact ih h'.2

theorem Tab.all_insert {P : Nat × α → Bool} {k : Nat} {v : α} {t : Tab α} (h : t.all P = true) (hv : P (k, v) = true) :
    (Tab.insert k v t).all P = true := by
  simp only [List.all_eq_true] at h ⊢
  intro e he
  rcases Tab.mem_insert he with rfl | he
  · exact hv
  · exact h e he

theorem Tab.all_erase {P : Nat × α → Bool} {k : Nat} {t : Tab α} (h : t.all P = true) : (Tab.erase k t).all P = true := by
  simp only [List.all_eq_true, Tab.erase] at h ⊢
  intro e he
  exact h e (List.mem_of_mem_filter he)

/-- A property of every listed value, which the default has too, holds of the value read at any key. -/
theorem Tab.get_of_all {P : α → Prop} {d : α} {t : Tab α} (k : Nat) (h : ∀ e ∈ t, P e.2) (hd : P d) : P (Tab.get d t k) := by
  unfold Tab.get
  induction t with
  | nil => simpa [Tab.find] using hd
  | cons a r ih =>
    obtain ⟨j, w⟩ := a
    simp only [Tab.find]
    split
    · simpa using h (j, w) (by simp)
    · exact ih (fun e he => h e (by simp [he]))

/-- A property of every listed value is kept by a write of a value that has it. -/
theorem Tab.all_set [DecidableEq α] {P : α → Bool} {d : α} {t : Tab α} {k : Nat} {v : α}
    (h : t.all (fun e => P e.2) = true) (hv : P v = true) : (Tab.set d t k v).all (fun e => P e.2) = true := by
  unfold Tab.set
  split
  · exact Tab.all_erase h
  · exact Tab.all_insert h hv

theorem Tab.all_upd [DecidableEq α] {P : α → Bool} {d : α} {t : Tab α} {k : Nat} {f : α → α}
    (h : t.all (fun e => P e.2) = true) (hd : P d = true) (hf : ∀ x, P x = true → P (f x) = true) :
    (Tab.upd d t k f).all (fun e => P e.2) = true := by
  refine Tab.all_set h (hf _ ?_)
  exact Tab.get_of_all (P := fun x => P x = true) k (by simpa [List.all_eq_true] using h) hd

/-- A write keeps the canonical form. -/
theorem Tab.wf_set [DecidableEq α] {d : α} {t : Tab α} (k : Nat) (v : α) (h : Tab.wf d t = true) :
    Tab.wf d (Tab.set d t k v) = true := by
  simp only [Tab.wf, Bool.and_eq_true] at h ⊢
  unfold Tab.set
  split
  · exact ⟨Tab.sorted_filter _ h.1, Tab.all_erase h.2⟩
  · next hv => exact ⟨Tab.sorted_insert h.1, Tab.all_insert h.2 (by simpa using hv)⟩

theorem Tab.wf_upd [DecidableEq α] {d : α} {t : Tab α} (k : Nat) (f : α → α) (h : Tab.wf d t = true) :
    Tab.wf d (Tab.upd d t k f) = true :=
  Tab.wf_set k _ h

/-- Writing consecutive bytes keeps the canonical form. -/
theorem Tab.wf_writeBytes {d : Byte} (l : List Byte) {t : Tab Byte} (k : Nat) (h : Tab.wf d t = true) :
    Tab.wf d (Tab.writeBytes d t k l) = true := by
  induction l generalizing t k with
  | nil => exact h
  | cons b r ih => exact ih (k + 1) (Tab.wf_set k b h)

/-- What a byte reads as after consecutive bytes are written from key `k`. -/
theorem Tab.get_writeBytes (d : Byte) (l : List Byte) (t : Tab Byte) (k j : Nat) :
    Tab.get d (Tab.writeBytes d t k l) j = if k ≤ j ∧ j < k + l.length then l.getD (j - k) d else Tab.get d t j := by
  induction l generalizing t k with
  | nil => rw [if_neg (by simp)]; rfl
  | cons b r ih =>
    simp only [Tab.writeBytes, ih, Tab.get_set, List.length_cons]
    by_cases h : k = j
    · subst h; simp
    · by_cases h2 : k + 1 ≤ j ∧ j < k + 1 + r.length
      · have e : j - k = (j - (k + 1)) + 1 := by omega
        rw [if_pos h2, if_pos (by omega), e, List.getD_cons_succ]
      · rw [if_neg h2, if_neg h, if_neg (by omega)]

/-- Equal memories are equal data: canonical tables that read alike at every key are the same list. -/
theorem Tab.ext_of_sorted {d : α} {t u : Tab α} (ht : Tab.sorted t = true) (hu : Tab.sorted u = true)
    (nt : ∀ e ∈ t, e.2 ≠ d) (nu : ∀ e ∈ u, e.2 ≠ d) (h : ∀ k, Tab.get d t k = Tab.get d u k) : t = u := by
  have low : ∀ (x : Tab α) (k : Nat), (∀ e ∈ x, k < e.1) → Tab.get d x k = d := by
    intro x k hx
    induction x with
    | nil => rfl
    | cons a r ih =>
      have := hx a (by simp)
      have hne : a.1 ≠ k := by omega
      have := ih (fun e he => hx e (by simp [he]))
      simpa [Tab.get, Tab.find, hne] using this
  induction t generalizing u with
  | nil =>
    cases u with
    | nil => rfl
    | cons a r => exact absurd (by simpa [Tab.get, Tab.find] using (h a.1).symm) (nu a (by simp))
  | cons a r ih =>
    obtain ⟨j, w⟩ := a
    have ht' := Tab.sorted_cons.mp ht
    cases u with
    | nil => exact absurd (by simpa [Tab.get, Tab.find] using h j) (nt (j, w) (by simp))
    | cons b q =>
      obtain ⟨i, v⟩ := b
      have hu' := Tab.sorted_cons.mp hu
      have hw := nt (j, w) (by simp)
      have hv := nu (i, v) (by simp)
      have hij : i = j := by
        rcases lt_trichotomy i j with hlt | heq | hlt
        · have := h i
          rw [low ((j, w) :: r) i (by intro e he; rcases List.mem_cons.mp he with rfl | he; exact hlt; exact lt_trans hlt (ht'.1 e he))] at this
          exact absurd (by simpa [Tab.get, Tab.find] using this.symm) hv
        · exact heq
        · have := h j
          rw [low ((i, v) :: q) j (by intro e he; rcases List.mem_cons.mp he with rfl | he; exact hlt; exact lt_trans hlt (hu'.1 e he))] at this
          exact absurd (by simpa [Tab.get, Tab.find] using this) hw
      subst hij
      have hwv : w = v := by simpa [Tab.get, Tab.find] using h i
      subst hwv
      congr 1
      refine ih ht'.2 hu'.2 (fun e he => nt e (by simp [he])) (fun e he => nu e (by simp [he])) (fun k => ?_)
      by_cases hk : i = k
      · subst hk; rw [low r i ht'.1, low q i hu'.1]
      · simpa [Tab.get, Tab.find, hk] using h k

end Sys2Proof.Machine
end

