-- ==== Sys2Proof/Laws/Mailbox.lean ====
section
/-! SUPPORT. Mailbox commands: what taking a request and answering it leave alone, and what a fresh request whose body
answers, or runs on, comes to. The statements about commands rest on `fresh_answered` and `fresh_running`. -/

set_option Elab.async false

namespace Sys2Proof.Machine

theorem MailOnly.refl (s : State) : MailOnly s s := by constructor <;> rfl

theorem MailOnly.trans {s t u : State} (h : MailOnly s t) (k : MailOnly t u) : MailOnly s u where
  time := k.time.trans h.time
  up := k.up.trans h.up
  ptp := k.ptp.trans h.ptp
  tsFifos := k.tsFifos.trans h.tsFifos
  gates := k.gates.trans h.gates
  lanes := k.lanes.trans h.lanes
  groups := k.groups.trans h.groups
  ports := k.ports.trans h.ports
  prism := k.prism.trans h.prism
  fwd := k.fwd.trans h.fwd
  buf := k.buf.trans h.buf
  pkts := k.pkts.trans h.pkts
  nextPkt := k.nextPkt.trans h.nextPkt
  fab := k.fab.trans h.fab
  sched := k.sched.trans h.sched
  frer := k.frer.trans h.frer
  leaven := k.leaven.trans h.leaven
  proof := k.proof.trans h.proof
  swp := k.swp.trans h.swp
  tel := k.tel.trans h.tel
  bake := k.bake.trans h.bake
  ident := k.ident.trans h.ident
  pwr := k.pwr.trans h.pwr
  free := k.free.trans h.free
  pending := k.pending.trans h.pending
  mapVec := k.mapVec.trans h.mapVec
  mapEn := k.mapEn.trans h.mapEn
  msix := k.msix.trans h.msix
  chans := k.chans.trans h.chans
  fifos := k.fifos.trans h.fifos
  waitFetch := k.waitFetch.trans h.waitFetch
  staging := k.staging.trans h.staging
  ready := k.ready.trans h.ready
  boots := k.boots.trans h.boots
  restarts := k.restarts.trans h.restarts
  restarting := k.restarting.trans h.restarting
  readyUp := k.readyUp.trans h.readyUp
  lostAsync := k.lostAsync.trans h.lostAsync
  heldEvents := k.heldEvents.trans h.heldEvents

/-! ### Interrupts touch pending bits and pending arrays only -/

/-- The parts of the host interface that an interrupt leaves alone. -/
def HostSt.quiet (h : HostSt) : HostSt := { h with pending := [], links := [] }

theorem HostSt.signalVector_quiet (h : HostSt) (fn vec : Nat) : (h.signalVector fn vec).1.quiet = h.quiet := by
  unfold HostSt.signalVector; repeat' split
  all_goals rfl

theorem HostSt.setPending_quiet (h : HostSt) (x8 : Bool) (n : Nat) : (h.setPending x8 n).1.quiet = h.quiet := by
  unfold HostSt.setPending
  split
  · rfl
  · dsimp only
    split
    · exact HostSt.signalVector_quiet _ _ _
    · rfl

theorem HostSt.setPendingIf_quiet (h : HostSt) (b x8 : Bool) (n : Nat) : (h.setPendingIf b x8 n).1.quiet = h.quiet := by
  unfold HostSt.setPendingIf
  split
  · exact HostSt.setPending_quiet _ _ _
  · rfl

theorem quiet_parts {h k : HostSt} (e : k.quiet = h.quiet) :
    k.mapVec = h.mapVec ∧ k.mapEn = h.mapEn ∧ k.msix = h.msix ∧ k.chans = h.chans ∧ k.fifos = h.fifos
      ∧ k.waitFetch = h.waitFetch ∧ k.staging = h.staging ∧ k.poolMem = h.poolMem := by
  simp only [HostSt.quiet, HostSt.mk.injEq] at e
  tauto

/-! ### The shared operations -/

/-- Raising an event touches the event log, its counters and interrupt source 176. -/
theorem State.raise_mailOnly (s : State) (code sev : Nat) (args : List Byte) : MailOnly s (s.raise code sev args) := by
  have q := quiet_parts (HostSt.setPendingIf_quiet s.host
    (s.evt.log { code, sev, seq := s.evt.nextSeq, sec := s.time.sec, ns := s.time.ns, args }).moved s.ident.bifurcated 176)
  obtain ⟨a, b, c, d, e, f, g, g'⟩ := q
  constructor <;> first | rfl | assumption

@[simp] theorem State.raise_mbx (s : State) (code sev : Nat) (args : List Byte) : (s.raise code sev args).mbx = s.mbx := rfl

theorem setPool_settings (b : BufSt) (i : Nat) (p : Pool) : (b.setPool i p).settings = b.settings := by
  unfold BufSt.setPool; split <;> rfl

theorem State.poolAlarm_mailOnly (s : State) (i : Nat) : MailOnly s (s.poolAlarm i) := by
  unfold State.poolAlarm
  dsimp only
  split
  · refine MailOnly.trans ?_ (State.raise_mailOnly _ _ _ _)
    constructor <;> first | rfl | exact setPool_settings _ _ _
  · exact MailOnly.refl s

@[simp] theorem State.poolAlarm_mbx (s : State) (i : Nat) : (s.poolAlarm i).mbx = s.mbx := by
  unfold State.poolAlarm; dsimp only; split <;> rfl

theorem State.poolAlloc_mailOnly (s : State) (n : Nat) : MailOnly s (s.poolAlloc n).1 := by
  unfold State.poolAlloc
  split
  · constructor <;> rfl
  · refine MailOnly.trans ?_ (State.poolAlarm_mailOnly _ _)
    constructor <;> first | rfl | exact setPool_settings _ _ _

@[simp] theorem State.poolAlloc_mbx (s : State) (n : Nat) : (s.poolAlloc n).1.mbx = s.mbx := by
  unfold State.poolAlloc
  split
  · rfl
  · dsimp only; rw [State.poolAlarm_mbx]; rfl

theorem State.poolFree_mailOnly (s : State) (p b : Nat) : MailOnly s (s.poolFree p b) := by
  unfold State.poolFree
  split
  · split
    · constructor <;> first | rfl | exact setPool_settings _ _ _
    · exact MailOnly.trans (by constructor <;> rfl) (State.raise_mailOnly _ _ _ _)
  · exact MailOnly.trans (by constructor <;> rfl) (State.raise_mailOnly _ _ _ _)

@[simp] theorem State.poolFree_mbx (s : State) (p b : Nat) : (s.poolFree p b).mbx = s.mbx := by
  unfold State.poolFree
  split
  · split <;> rfl
  · rfl

theorem State.freeBuf_mailOnly (s : State) (b : Option Nat) : MailOnly s (s.freeBuf b) := by
  cases b with
  | none => exact MailOnly.refl s
  | some p => exact State.poolFree_mailOnly s p 0

@[simp] theorem State.freeBuf_mbx (s : State) (b : Option Nat) : (s.freeBuf b).mbx = s.mbx := by
  cases b <;> simp [State.freeBuf]

theorem countResp_rest (w : TelSt) (fn : Nat) (x : Resp) : (w.countResp fn x).rest = w.rest := by
  unfold TelSt.countResp; split <;> rfl

theorem State.postBox_mailOnly (s : State) (b tag : Nat) (ind : Bool) (addr : Nat) (x : Resp) :
    MailOnly s (s.postBox b tag ind addr x) := by
  have q := quiet_parts (HostSt.setPending_quiet s.host s.ident.bifurcated (128 + b))
  obtain ⟨a, b', c, d, e, f, g, g'⟩ := q
  constructor <;> first | rfl | exact countResp_rest _ _ _ | assumption

theorem State.postReq_mailOnly (s : State) (r : Req) (x : Resp) (h : r.box < 32) : MailOnly s (s.postReq r x) := by
  unfold State.postReq State.post
  rw [if_neg (by unfold fwdBox; omega)]
  exact State.postBox_mailOnly _ _ _ _ _ _

theorem State.postReq_box (s : State) (r : Req) (x : Resp) (h : r.box < 32) :
    ((s.postReq r x).box r.box).state = .responseReady
      ∧ ((s.postReq r x).box r.box).resp = respHeader r.tag x s.bake.epoch ++ (if r.indirect then [] else x.payload) := by
  unfold State.postReq State.post
  rw [if_neg (by unfold fwdBox; omega)]
  simp [State.postBox, State.box]

theorem State.postReq_jobs (s : State) (r : Req) (x : Resp) (h : r.box < 32) :
    (s.postReq r x).mbx.jobs = s.mbx.jobs ∧ (s.postReq r x).mbx.hist0 = s.mbx.hist0 ∧ (s.postReq r x).mbx.hist1 = s.mbx.hist1 := by
  unfold State.postReq State.post
  rw [if_neg (by unfold fwdBox; omega)]
  exact ⟨rfl, rfl, rfl⟩

theorem record_parts (m : MbxSt) (fn op : Nat) (r : Req) (x : Resp) (e : Nat) :
    (m.record fn op r x e).boxes = m.boxes ∧ (m.record fn op r x e).jobs = m.jobs
      ∧ (m.record fn op r x e).ready = m.ready ∧ (m.record fn op r x e).boots = m.boots
      ∧ (m.record fn op r x e).restarts = m.restarts ∧ (m.record fn op r x e).restarting = m.restarting
      ∧ (m.record fn op r x e).readyUp = m.readyUp ∧ (m.record fn op r x e).lostAsync = m.lostAsync
      ∧ (m.record fn op r x e).heldEvents = m.heldEvents := by
  unfold MbxSt.record
  split
  · simp
  · split <;> simp

/-- A recorded command stands newest in the history of its function. -/
theorem record_head (m : MbxSt) (fn op : Nat) (r : Req) (x : Resp) (e : Nat) (ht : r.tag ≠ 0) (h1 : op ≠ 0x0101)
    (h2 : op ≠ 0x0102) : ((m.record fn op r x e).hist fn).head? = some (histEntry op r x e) := by
  unfold MbxSt.record MbxSt.hist
  have hn : ¬(r.tag = 0 ∨ op = 0x0101 ∨ op = 0x0102) := by tauto
  by_cases hf : fn = 0
  · simp [hn, hf]
  · simp [hn, hf]

theorem State.recordTag_mailOnly (s : State) (op : Nat) (r : Req) (x : Resp) : MailOnly s (s.recordTag op r x) := by
  have q := record_parts s.mbx (s.boxFn r.box) op r x s.bake.epoch
  obtain ⟨-, -, a, b, c, d, e, f, g⟩ := q
  constructor <;> first | rfl | assumption

theorem State.asyncDone_mailOnly (s : State) (op : Nat) (r : Req) (x : Resp) : MailOnly s (s.asyncDone op r x) :=
  State.raise_mailOnly _ _ _ _

theorem State.accept_mailOnly (s : State) (b : Nat) : MailOnly s (s.accept b) := by constructor <;> rfl

/-! ### Taking a fresh request -/

/-- Bytes written into a pool buffer are in the message pools. -/
theorem State.fillBuf_mailOnly (s : State) (b : Option Nat) (l : List Byte) : MailOnly s (s.fillBuf b l) := by
  cases b <;> constructor <;> rfl

@[simp] theorem State.fillBuf_mbx (s : State) (b : Option Nat) (l : List Byte) : (s.fillBuf b l).mbx = s.mbx := by
  cases b <;> rfl

theorem State.postJob_mailOnly (s : State) (j : Job) (x : Resp) (h : j.req.box < 32) : MailOnly s (s.postJob j x) := by
  unfold State.postJob
  split
  · exact State.postReq_mailOnly _ _ _ h
  · exact MailOnly.refl s

theorem State.postJob_jobs (s : State) (j : Job) (x : Resp) (h : j.req.box < 32) : (s.postJob j x).mbx.jobs = s.mbx.jobs := by
  unfold State.postJob
  split
  · exact (State.postReq_jobs _ _ _ h).1
  · rfl

/-- Queueing touches nothing but mail, and puts one job behind the others. -/
theorem State.enqueue_spec (s : State) (j : Job) (h : j.req.box < 32) :
    MailOnly s (s.enqueue j) ∧ ∃ b, (s.enqueue j).mbx.jobs
      = s.mbx.jobs ++ [{ j with boxed := j.boxed && !j.req.async, buf := b }] := by
  have hp : MailOnly s (if j.req.indirect then s.poolAlloc j.req.len else (s, none)).1
      ∧ (if j.req.indirect then s.poolAlloc j.req.len else (s, none)).1.mbx = s.mbx := by
    split
    · exact ⟨State.poolAlloc_mailOnly _ _, State.poolAlloc_mbx _ _⟩
    · exact ⟨MailOnly.refl s, rfl⟩
  unfold State.enqueue
  dsimp only
  generalize (if j.req.indirect then s.poolAlloc j.req.len else (s, none)) = a at hp ⊢
  have hf := hp.1.trans (State.fillBuf_mailOnly a.1 a.2 j.req.payload)
  have ef : (a.1.fillBuf a.2 j.req.payload).mbx = s.mbx := by rw [State.fillBuf_mbx, hp.2]
  generalize a.1.fillBuf a.2 j.req.payload = t at hf ef ⊢
  have hm : MailOnly s { t with mbx := { t.mbx with
      jobs := t.mbx.jobs ++ [{ j with boxed := j.boxed && !j.req.async, buf := a.2 }] } } :=
    hf.trans (by constructor <;> rfl)
  rw [ef] at hm ⊢
  split
  · refine ⟨MailOnly.trans (MailOnly.trans hm ?_) (State.postJob_mailOnly _ j _ h), a.2, ?_⟩
    · constructor <;> rfl
    · rw [State.postJob_jobs _ j _ h]; rfl
  · exact ⟨hm, a.2, rfl⟩

/-- The reads of an INDIRECT payload are outputs. -/
theorem State.readPayload_eq (s : State) (op : Nat) (r : Req) : ∃ o, s.readPayload op r = { s with out := o } := by
  unfold State.readPayload
  split
  · exact ⟨s.out, rfl⟩
  · split
    · generalize splitRange _ _ _ = l
      suffices ∀ (l : List (Nat × Nat)) (s : State), ∃ o,
          l.foldl (fun t p => t.emit (.hostRead (s.boxFn r.box) p.1 p.2)) s = { s with out := o } from this l s
      intro l s
      suffices ∀ (f : Nat × Nat → Output) (l : List (Nat × Nat)) (s : State), ∃ o,
          l.foldl (fun t p => t.emit (f p)) s = { s with out := o } from this _ l s
      intro f l
      induction l with
      | nil => exact fun s => ⟨s.out, rfl⟩
      | cons p l ih => exact fun s => ih (s.emit (f p))
    · exact ⟨s.out, rfl⟩

theorem State.readPayload_mailOnly (s : State) (op : Nat) (r : Req) : MailOnly s (s.readPayload op r) := by
  obtain ⟨o, e⟩ := State.readPayload_eq s op r
  rw [e]; constructor <;> rfl

@[simp] theorem State.readPayload_mbx (s : State) (op : Nat) (r : Req) : (s.readPayload op r).mbx = s.mbx := by
  obtain ⟨o, e⟩ := State.readPayload_eq s op r
  rw [e]

theorem State.submit_fresh {s : State} {op : Nat} {r : Req} (h : s.fresh op r) :
    s.submit op r = (((s.accept r.box).readPayload op r).enqueue (s.newJob op r), true) := by
  obtain ⟨-, hd, -, hb, hr, hv, hf, -⟩ := h
  unfold State.submit
  rw [if_neg (by simp [hd]), if_neg hb]
  dsimp only
  rw [if_pos hr, if_neg (by simp [hf])]
  unfold State.takeJob State.newJob
  rw [show (s.accept r.box).verdict op r = .accept from hv]
  rfl

/-- The state in which the body of a fresh request runs differs from `s` in mail only. -/
theorem State.begun_mailOnly {s : State} {op : Nat} {r : Req} (h : s.fresh op r) : MailOnly s (s.begun op r) := by
  unfold State.begun
  rw [State.submit_fresh h]
  exact MailOnly.trans (MailOnly.trans (State.accept_mailOnly _ _) (State.readPayload_mailOnly _ _ _))
    (State.enqueue_spec _ (s.newJob op r) h.1).1

/-- Its queue ends with the job of the request. -/
theorem State.begun_jobs {s : State} {op : Nat} {r : Req} (h : s.fresh op r) :
    ∃ b, (s.begun op r).mbx.jobs = s.mbx.jobs ++ [{ s.newJob op r with boxed := !r.async, buf := b }] := by
  unfold State.begun
  rw [State.submit_fresh h]
  obtain ⟨b, e⟩ := (State.enqueue_spec ((s.accept r.box).readPayload op r) (s.newJob op r) h.1).2
  rw [State.readPayload_mbx] at e
  exact ⟨b, e⟩

/-- A command at the end of a queue in which none must precede it is not held back (R394). -/
theorem State.heldBack_last {s : State} {op : Nat} {r : Req} {l : List Job} {j : Job} (hj : s.mbx.jobs = l ++ [j])
    (h : l.any (fun j => j.precedes op r) = false) (hop : j.op = op) (hr : j.req = r) (hn : j.running = false) :
    s.heldBack op r = false := by
  unfold State.heldBack
  rw [hj, List.any_eq_false]
  intro x hx
  have hp := List.mem_takeWhile_imp (p := fun j : Job => !(j.op == op && j.req == r && !j.running)) hx
  have hm := (List.takeWhile_prefix _).subset hx
  rcases List.mem_append.mp hm with hm | hm
  · exact (List.any_eq_false.mp h) x hm
  · rw [List.mem_singleton.mp hm] at hp
    simp [hop, hr, hn] at hp

/-- A fresh request is not held back in its queue. -/
theorem State.begun_heldBack {s : State} {op : Nat} {r : Req} (h : s.fresh op r) : (s.begun op r).heldBack op r = false := by
  obtain ⟨b, hj⟩ := State.begun_jobs h
  exact State.heldBack_last hj h.2.2.2.2.2.2.2 rfl rfl rfl

/-- The row of a fresh request runs its body where the request is queued. -/
theorem fresh_runs {op : Nat} {body : Body} {r : Req} {s : State} (h : s.fresh op r) :
    mailboxCommand op body r s = .next ((s.begun op r).runJob op r body) := by
  have hs := State.submit_fresh h
  unfold mailboxCommand
  rw [if_pos h.1]
  congr 1
  unfold State.command
  rw [h.2.2.1]
  have hb := State.begun_heldBack h
  unfold State.begun at hb ⊢
  have hf : (s.submit op r).2 = true := by rw [hs]
  dsimp only
  rw [if_pos ⟨hf, hb⟩]

/-! ### Its completion -/

theorem State.fnOf_eq {s t : State} (h : t.ident = s.ident) (b : Nat) : t.boxFn b = s.boxFn b := by
  unfold State.boxFn; rw [h]

/-- A job that no mailbox waits behind ends: nothing but mail moves, the other jobs stay, and the response is delivered. -/
theorem State.endJob_spec (s : State) (j : Job) (l : List Job) (x : Resp) (hb : j.req.box < 32) (hw : j.waiters = [])
    (hx : j.boxed = !j.req.async) (ht : j.req.async = true → j.req.tag ≠ 0) :
    MailOnly s (s.endJob j l x) ∧ (s.endJob j l x).mbx.jobs = l ∧ (s.endJob j l x).delivered j.op j.req x := by
  unfold State.endJob
  dsimp only
  rw [hw]
  simp only [State.postWaiters]
  have m1 : MailOnly s (State.freeBuf { s with mbx := { s.mbx with jobs := l } } j.buf) :=
    MailOnly.trans (by constructor <;> rfl) (State.freeBuf_mailOnly _ _)
  have e1 : (State.freeBuf { s with mbx := { s.mbx with jobs := l } } j.buf).mbx = { s.mbx with jobs := l } := by simp
  generalize State.freeBuf { s with mbx := { s.mbx with jobs := l } } j.buf = t at m1 e1 ⊢
  have m2 : MailOnly s (t.recordTag j.op j.req x) := m1.trans (State.recordTag_mailOnly _ _ _ _)
  have e2 : (t.recordTag j.op j.req x).mbx.jobs = l := by
    show (MbxSt.record _ _ _ _ _ _).jobs = l
    rw [(record_parts _ _ _ _ _ _).2.1, e1]
  unfold State.answerJob
  cases ha : j.req.async with
  | true =>
    simp only [if_true]
    refine ⟨m2.trans (State.asyncDone_mailOnly _ _ _ _), ?_, ?_⟩
    · exact e2
    · refine ⟨fun h => absurd h (by simp [ha]), fun _ h1 h2 => ?_⟩
      have hfn : ((t.recordTag j.op j.req x).asyncDone j.op j.req x).boxFn j.req.box = t.boxFn j.req.box := rfl
      rw [hfn]
      exact record_head t.mbx (t.boxFn j.req.box) j.op j.req x t.bake.epoch (ht ha) h1 h2
  | false =>
    simp only [hx, ha, Bool.not_false, if_true, if_false, Bool.false_eq_true]
    refine ⟨m2.trans (State.postReq_mailOnly _ _ _ hb), ?_, ?_⟩
    · rw [(State.postReq_jobs _ _ _ hb).1]; exact e2
    · refine ⟨fun _ => ?_, fun h => absurd h (by simp [ha])⟩
      have k := State.postReq_box (t.recordTag j.op j.req x) j.req x hb
      refine ⟨k.1, k.2.trans ?_⟩
      rw [(State.postReq_mailOnly (t.recordTag j.op j.req x) j.req x hb).bake]

/-- The oldest waiting job with a request, where none but the last in the queue waits with it, is that one. -/
theorem State.job?_last {s : State} {op : Nat} {r : Req} {l : List Job} {j : Job} {b : Bool} (hj : s.mbx.jobs = l ++ [j])
    (h : l.find? (fun j => j.op == op && j.req == r && j.running == b) = none) (hop : j.op = op) (hr : j.req = r)
    (hn : j.running = b) : s.job? op r b = some j := by
  unfold State.job?
  rw [hj, List.find?_append, h]
  simp [hop, hr, hn]

theorem dropJob_last (op : Nat) (r : Req) (b : Bool) (j : Job) (hop : j.op = op) (hr : j.req = r) (hn : j.running = b) :
    ∀ l : List Job, l.find? (fun j => j.op == op && j.req == r && j.running == b) = none → dropJob op r b (l ++ [j]) = l
  | [], _ => by simp [dropJob, hop, hr, hn]
  | k :: l, h => by
    rw [List.find?_eq_none] at h
    have hl := List.find?_eq_none.mpr (fun x hx => h x (.tail _ hx))
    replace h := h k (.head _)
    have hk : ¬ (k.op = op ∧ k.req = r ∧ k.running = b) := by
      intro e; simp [e.1, e.2.1, e.2.2] at h
    rw [List.cons_append, dropJob, if_neg hk, dropJob_last op r b j hop hr hn l hl]

/-- Of jobs of which only the last waits with a request, that one goes on running. -/
theorem startJob_last (op : Nat) (r : Req) (j : Job) (hop : j.op = op) (hr : j.req = r) (hn : j.running = false) :
    ∀ l : List Job, l.find? (fun j => j.op == op && j.req == r && j.running == false) = none →
      startJob op r (l ++ [j]) = l ++ [{ j with running := true }]
  | [], _ => by simp [startJob, hop, hr, hn]
  | k :: l, h => by
    rw [List.find?_eq_none] at h
    have hl := List.find?_eq_none.mpr (fun x hx => h x (.tail _ hx))
    replace h := h k (.head _)
    have hk : ¬ (k.op = op ∧ k.req = r ∧ k.running = false) := by
      intro e; simp [e.1, e.2.1, e.2.2] at h
    rw [List.cons_append, startJob, if_neg hk, startJob_last op r j hop hr hn l hl]
    rfl

/-- A request that passes every check has a tag if it is ASYNC (R393). -/
theorem State.fresh_tag {s : State} {op : Nat} {r : Req} (h : s.fresh op r) : r.async = true → r.tag ≠ 0 := by
  intro ha ht
  have hv := h.2.2.2.2.2.1
  unfold State.verdict State.lateVerdict State.tagVerdict at hv
  dsimp only at hv
  repeat' split at hv
  all_goals try cases hv
  all_goals simp_all

/-- A fresh request whose body answers `x`, leaving the mailboxes alone: the command completes, the response is delivered,
and beyond what the body did nothing but mail moves. -/
theorem fresh_answered {op : Nat} {body : Body} {r : Req} {s u : State} {x : Resp} (h : s.fresh op r)
    (hb : body r (s.begun op r) = (u, some x)) (hm : u.mbx = (s.begun op r).mbx) :
    ∃ t, mailboxCommand op body r s = .next t ∧ t.delivered op r x ∧ MailOnly u t ∧ t.mbx.jobs = s.mbx.jobs := by
  obtain ⟨b, hj⟩ := State.begun_jobs h
  have e : mailboxCommand op body r s = .next (u.completeNow op r x) := by
    rw [fresh_runs h]; unfold State.runJob; rw [hb]
  let j : Job := { s.newJob op r with boxed := !r.async, buf := b }
  have hu : u.mbx.jobs = s.mbx.jobs ++ [j] := by rw [hm, hj]
  have hc : u.completeNow op r x = u.endJob j s.mbx.jobs x := by
    unfold State.completeNow State.endOldest
    rw [State.job?_last hu h.2.2.1 rfl rfl rfl]
    dsimp only
    rw [hu, dropJob_last op r false j rfl rfl rfl _ h.2.2.1]
  have k := State.endJob_spec u j s.mbx.jobs x h.1 rfl rfl (State.fresh_tag h)
  exact ⟨_, e.trans (by rw [hc]), k.2.2, k.1, k.2.1⟩

/-- A fresh request whose body runs on, leaving the mailboxes alone: its job runs, and its mailbox waits for the response. -/
theorem fresh_running {op : Nat} {body : Body} {r : Req} {s u : State} (h : s.fresh op r)
    (hb : body r (s.begun op r) = (u, none)) (hm : u.mbx = (s.begun op r).mbx) :
    ∃ t, mailboxCommand op body r s = .next t ∧ MailOnly u t ∧ t.evt = u.evt
      ∧ (∃ j ∈ t.mbx.jobs, j.op = op ∧ j.req = r ∧ j.running = true)
      ∧ t.mbx.boxes = (s.begun op r).mbx.boxes := by
  obtain ⟨b, hj⟩ := State.begun_jobs h
  have e : mailboxCommand op body r s = .next (u.markRunning op r) := by
    rw [fresh_runs h]; unfold State.runJob; rw [hb]
    dsimp only
    rw [if_neg (by unfold State.waitingLike; rw [hm]; exact lt_irrefl _)]
  refine ⟨_, e, by constructor <;> rfl, rfl, ?_, ?_⟩
  · refine ⟨{ s.newJob op r with boxed := !r.async, buf := b, running := true }, ?_, rfl, rfl, rfl⟩
    show _ ∈ startJob op r u.mbx.jobs
    rw [hm, hj, startJob_last op r _ rfl rfl rfl s.mbx.jobs h.2.2.1]
    exact List.mem_append_right _ (List.mem_singleton.mpr rfl)
  · show u.mbx.boxes = _
    rw [hm]

end Sys2Proof.Machine
end

