-- ==== Sys2Proof/Laws/Commands.lean ====
section
/-! SUPPORT. Statements about mailbox commands from their bodies: what a body does to the state with the request queued gives
what the command does, and a state that differs in mail alone is one whose other fields are the old ones. -/

set_option Elab.async false
set_option linter.all false

namespace Sys2Proof.Machine

/-- `s` with the mail of `u`. -/
def State.mailed (s u : State) : State :=
  { s with
    mbx := { s.mbx with boxes := u.mbx.boxes, jobs := u.mbx.jobs, hist0 := u.mbx.hist0, hist1 := u.mbx.hist1, gapCmds := u.mbx.gapCmds }
    host := { s.host with links := u.host.links, pending := u.host.pending, poolMem := u.host.poolMem }
    buf := { s.buf with pool0 := u.buf.pool0, pool1 := u.buf.pool1, pool2 := u.buf.pool2, pool3 := u.buf.pool3, ctr := u.buf.ctr }
    evt := u.evt
    tel := { s.tel with mbxCtr := u.tel.mbxCtr, ctr := u.tel.ctr }
    out := u.out }

theorem BufSt.settings_eq {a b : BufSt} (h : b.settings = a.settings) :
    b = { a with pool0 := b.pool0, pool1 := b.pool1, pool2 := b.pool2, pool3 := b.pool3, ctr := b.ctr } := by
  cases a; cases b
  simp only [BufSt.settings, BufSt.mk.injEq] at h ⊢
  tauto

theorem TelSt.rest_eq {a b : TelSt} (h : b.rest = a.rest) : b = { a with mbxCtr := b.mbxCtr, ctr := b.ctr } := by
  cases a; cases b
  simp only [TelSt.rest, TelSt.mk.injEq] at h ⊢
  tauto

theorem MailOnly.eq {s u : State} (h : MailOnly s u) : u = s.mailed u := by
  have hb := BufSt.settings_eq h.buf
  have ht := TelSt.rest_eq h.tel
  have hm : u.mbx = (s.mailed u).mbx := by
    dsimp only [State.mailed]
    rw [← h.ready, ← h.boots, ← h.restarts, ← h.restarting, ← h.readyUp, ← h.lostAsync, ← h.heldEvents]
  have hh : u.host = { s.host with links := u.host.links, pending := u.host.pending, poolMem := u.host.poolMem } := by
    dsimp only
    rw [← h.mapVec, ← h.mapEn, ← h.msix, ← h.chans, ← h.fifos, ← h.waitFetch, ← h.staging]
  have e : u = ⟨u.time, u.up, u.ptp, u.tsFifos, u.gates, u.lanes, u.groups, u.ports, u.prism, u.fwd, u.buf, u.pkts, u.nextPkt,
    u.fab, u.sched, u.frer, u.leaven, u.proof, u.evt, u.swp, u.tel, u.mbx, u.bake, u.ident, u.pwr, u.host, u.out, u.free,
    u.pending⟩ := rfl
  rw [e, hb, ht, hm, hh, h.time, h.up, h.ptp, h.tsFifos, h.gates, h.lanes, h.groups, h.ports, h.prism, h.fwd, h.pkts, h.nextPkt,
    h.fab, h.sched, h.frer, h.leaven, h.proof, h.swp, h.bake, h.ident, h.pwr, h.free, h.pending]
  rfl

theorem begun_mbx {s : State} {op : Nat} {r : Req} (h : s.fresh op r) : s.begun op r = s.mailed (s.begun op r) :=
  (State.begun_mailOnly h).eq

/-- The mailbox of a request that is not ASYNC waits. -/
theorem State.begun_box {s : State} {op : Nat} {r : Req} (h : s.fresh op r) (ha : r.async = false) :
    ((s.begun op r).box r.box).state = .submitted := by
  unfold State.begun
  rw [State.submit_fresh h]
  have e : (((s.accept r.box).readPayload op r).enqueue (s.newJob op r)).mbx.boxes = (s.accept r.box).mbx.boxes := by
    rw [← State.readPayload_mbx (s.accept r.box) op r]
    generalize (s.accept r.box).readPayload op r = t
    unfold State.enqueue
    dsimp only [State.newJob]
    rw [if_neg (by simp [ha])]
    show ((if r.indirect then t.poolAlloc r.len else (t, none)).1.fillBuf _ _).mbx.boxes = _
    rw [State.fillBuf_mbx]
    split
    · rw [State.poolAlloc_mbx]
    · rfl
  unfold State.box
  rw [e]
  simp [State.accept, State.updBox, State.bumpMbx]

/-- A read is answered. -/
theorem answered_of {op : Nat} {i : Req → Instr} {ok : Req → State → Prop} {answer : Req → State → List Byte} {body : Body}
    (he : ∀ r s, exec (i r) s = mailboxCommand op body r s)
    (hb : ∀ r s u, s.fresh op r → u = s.begun op r → u = s.mailed u → ok r s → body r u = (u, some (Resp.ok (answer r s)))) :
    Answered op i ok answer := by
  intro r s hf hok
  obtain ⟨t, h1, h2, h3, -⟩ := fresh_answered hf (hb r s _ hf rfl (begun_mbx hf) hok) rfl
  exact ⟨t, (he r s).trans h1, h2, (State.begun_mailOnly hf).trans h3⟩

theorem turned_of {op : Nat} {i : Req → Instr} {bad : Req → State → Prop} {st d : Nat} {body : Body}
    (he : ∀ r s, exec (i r) s = mailboxCommand op body r s)
    (hb : ∀ r s u, s.fresh op r → u = s.begun op r → u = s.mailed u → r.stage = false → bad r s → body r u = (u, some (Resp.err st d))) :
    TurnedAway op i bad st d := by
  intro r s hf hs hok
  obtain ⟨t, h1, h2, h3, -⟩ := fresh_answered hf (hb r s _ hf rfl (begun_mbx hf) hs hok) rfl
  exact ⟨t, (he r s).trans h1, h2, (State.begun_mailOnly hf).trans h3⟩

theorem does_of {op : Nat} {i : Req → Instr} {ok : Req → State → Prop} {answer : Req → State → List Byte} {body : Body}
    {post : Req → State → State → Prop} (f : Req → State → State)
    (he : ∀ r s, exec (i r) s = mailboxCommand op body r s)
    (hb : ∀ r s u, s.fresh op r → u = s.begun op r → u = s.mailed u → ok r s → body r u = (f r u, some (Resp.ok (answer r s)))
      ∧ (f r u).mbx = u.mbx ∧ ∀ t, t = (f r u).mailed t → post r s t) :
    Does op i ok answer post := by
  intro r s hf hok
  obtain ⟨k1, k2, k3⟩ := hb r s _ hf rfl (begun_mbx hf) hok
  obtain ⟨t, h1, h2, h3, -⟩ := fresh_answered hf k1 k2
  exact ⟨t, (he r s).trans h1, h2, k3 t h3.eq⟩

theorem starts_of {op : Nat} {i : Req → Instr} {ok : Req → State → Prop} {body : Body}
    {post : Req → State → State → Prop} (f : Req → State → State)
    (he : ∀ r s, exec (i r) s = mailboxCommand op body r s)
    (hb : ∀ r s u, s.fresh op r → u = s.begun op r → u = s.mailed u → ok r s → body r u = (f r u, none)
      ∧ (f r u).mbx = u.mbx ∧ ∀ t, t = (f r u).mailed t → post r s t) :
    Starts op i ok post := by
  intro r s hf hok
  obtain ⟨k1, k2, k3⟩ := hb r s _ hf rfl (begun_mbx hf) hok
  obtain ⟨t, h1, h2, h3, h4, h5⟩ := fresh_running hf k1 k2
  refine ⟨t, (he r s).trans h1, h4, ?_, k3 t h2.eq⟩
  intro ha
  have e : t.box r.box = (s.begun op r).box r.box := by unfold State.box; rw [h5]
  rw [e]
  exact State.begun_box hf ha

theorem carried_of {op : Nat} {i : Req → Instr} {ok : List Byte → State → Prop} {check : List Byte → State → Option (Nat × Nat)}
    {apply : List Byte → State → State} {post : List Byte → State → State → Prop}
    (he : ∀ r s, exec (i r) s = mailboxCommand op (setCmd op check apply) r s)
    (hc : ∀ p s u, u = s.mailed u → ok p s → check p u = none)
    (hm : ∀ p s, (apply p s).mbx = s.mbx)
    (hp : ∀ p s u t, u = s.mailed u → t = ((apply p u).shadow op p).mailed t → ok p s → post p s t) : Carried op i ok post := by
  intro r s hf hs hok
  have hu := begun_mbx hf
  have hb : setCmd op check apply r (s.begun op r) = (((apply r.payload (s.begun op r)).shadow op r.payload), some (Resp.ok [])) := by
    unfold setCmd
    rw [if_neg (by simp [hs]), hc _ s _ hu hok]
    rfl
  obtain ⟨t, h1, h2, h3, -⟩ := fresh_answered hf hb (hm _ _)
  exact ⟨t, (he r s).trans h1, h2, hp _ s _ t hu h3.eq hok⟩
end Sys2Proof.Machine
end

