-- ==== Sys2Proof/Laws/FrameBase.lean ====
section
/-! SUPPORT. The rules of `Frame`: it is a preorder, wider parts allow more, and a state written field by field frames what
it leaves alone. -/

set_option Elab.async false
set_option linter.all false

namespace Sys2Proof.Machine

/-- What `w` leaves alone, of a state: the parts themselves, those in `w` left out. -/
structure View where
  time : Option (TimeBase)
  up : Option (Nat)
  ptp : Option (PtpCfg)
  tsFifos : Option (Tab TsFifo)
  gates : Option (Tab PortGate)
  lanes : Option (Tab LaneSt)
  groups : Option (Tab GroupSt)
  ports : Option (Tab PortSt)
  prismBanks : Option (PrismBank × PrismBank × Nat × Bool)
  prismFlight : Option (Nat × Nat)
  hits : Option ((Tab Ctr))
  recirc : Option ((Tab (List Nat)))
  merge : Option ((Tab (List Nat)))
  gens : Option (GenTables × GenTables × Nat × Bool)
  fwdFlight : Option (Nat × Nat)
  em : Option ((Tab EmEntry) × (Tab Nat))
  seeds : Option (Nat × Nat × Nat)
  learnQ : Option ((Tab (List LearnEv)))
  agePeriod : Option (Nat)
  fwdCtr : Option ((Tab Ctr))
  badTable : Option ((List (Nat × Nat × Prefix)))
  cells : Option ((List Nat) × (Tab Nat))
  classes : Option ((Tab ClassCfg))
  portClass : Option ((Tab PortClass))
  wred : Option ((Tab WredProfile))
  queues : Option ((Tab QueueSt))
  spillVoqs : Option ((List Nat))
  lfsr : Option ((Tab Nat))
  pools : Option (Pool × Pool × Pool × Pool × (Tab Byte))
  bufCtr : Option ((Tab Ctr))
  pkts : Option (Tab Pkt)
  nextPkt : Option (Nat)
  fabParams : Option (FabParams)
  voqs : Option ((Tab Voq))
  multiQ : Option ((Tab (List Nat)))
  pairs : Option ((Tab Pair))
  planes : Option ((Tab Plane))
  fabPorts : Option ((Tab FabPort))
  links : Option ((List LinkCell) × (Tab Nat))
  arb : Option ((Tab Nat) × (Tab Nat))
  fabCtr : Option ((Tab Ctr))
  nodes : Option ((Tab Node))
  egq : Option ((Tab (List EgItem)))
  waitTx : Option ((Tab (List (Nat × Output))))
  pol : Option ((Tab Policer))
  loupeProf : Option ((Tab LoupeProf))
  loupeQueue : Option ((Tab LoupeQ))
  loupeItems : Option ((Tab LoupeItem) × (Tab Nat))
  schedCtr : Option ((Tab Ctr))
  frer : Option (Tab FrerSt)
  clusters : Option ((Tab Cluster))
  cores : Option ((Tab Core))
  flows : Option ((Tab Flow))
  fix : Option ((Tab FixClu) × Nat)
  flushes : Option ((List (Req × List (Nat × Nat))))
  fixCtr : Option ((Tab Ctr))
  pclasses : Option ((Tab PClass))
  targets : Option ((Tab Target))
  drops : Option ((Tab Drop))
  buses : Option ((Tab Bus))
  notices : Option (Nat × Nat × Nat)
  proofCtr : Option ((Tab Ctr))
  evtRegs : Option (Bool × Nat × (BitVec 64) × Nat)
  evt : Option (Nat × Nat × Nat × Bool × (List EvEntry) × Nat × Nat × Nat × Bool)
  swpRegs : Option (Bool × Nat × Nat × (BitVec 64) × Nat × Bool × (BitVec 64) × Nat)
  swp : Option (Nat × Nat × Nat × Bool × Bool × (Option (List Byte)) × Bool × Nat × Nat × Nat × Bool × Nat × Nat ×
    Bool)
  mirrors : Option ((Tab Mirror))
  cand : Option ((Tab Nat))
  mirQ : Option ((Tab (List Nat)))
  mirCtr : Option ((Tab Ctr))
  telCtr : Option ((Tab Ctr))
  dropCtr : Option ((Tab Ctr))
  portCtr : Option ((Tab Ctr))
  prismCtr : Option ((Tab Ctr))
  timeCtr : Option ((Tab Ctr))
  redCtr : Option ((Tab Ctr))
  frerCtr : Option ((Tab Ctr))
  mbxCtr : Option ((Tab Ctr))
  pwrCtr : Option ((Tab Ctr))
  shares : Option ((Tab Ctr))
  rate : Option ((Tab Nat))
  boxes : Option ((Tab Mbox))
  jobs : Option ((List Job) × (List Job))
  hist : Option ((List HistEntry) × (List HistEntry))
  life : Option (Bool × Nat × Nat × (Option Nat) × Nat)
  lostAsync : Option ((List (Nat × Req)))
  heldEvents : Option ((List (Nat × Nat × List Byte)))
  sets : Option ((List SetSt) × Nat)
  epoch : Option (Nat)
  snapshot : Option ((List StagedCmd))
  heldShadow : Option ((Option (List StagedCmd)) × Nat)
  peers : Option ((Tab Peer))
  msgs : Option ((List DomMsg) × Nat)
  domBake : Option ((Option DomBake) × Nat × (List (Nat × Nat)))
  membership : Option (Bool × Bool × Bool × Nat × (Option Nat))
  authFails : Option (Nat)
  timeOffset : Option (Int)
  fwdReqs : Option ((List (Nat × Req)))
  slots : Option (Slot × Slot)
  bootCfg : Option ((Tab Byte) × (Tab Byte) × Bool)
  image : Option (Nat × Bool × Nat × Nat × Nat × Nat × Bool × (List Byte) × (List (Nat × List Byte)) × (Option (Nat ×
    Nat)) × (Option Nat))
  minSvn : Option (Nat)
  pin : Option ((Option (List Byte)))
  debug : Option (Nat)
  sessions : Option ((List SpdmSession) × (List SpdmSession) × (List SpdmSession) × (List Nat) × (Tab Nat) ×
    (Tab SpdmLog))
  resets : Option (Bool × Bool × Bool × Bool × (Option ResetKind) × Bool × Nat × Bool × Int × Nat × Nat × Nat ×
    TapState)
  slices : Option ((Tab SliceSt))
  warnC : Option (Nat)
  thermal : Option (Bool × Bool × Int × Nat × Nat)
  hbms : Option ((Tab Stack))
  regions : Option ((List Nat))
  mps : Option ((Tab Mp) × (Option Nat))
  healthGen : Option (Nat)
  repairLog : Option ((List (Nat × Nat)))
  margins : Option (Nat × Nat × Nat)
  irq : Option ((Tab LinkIf) × (Tab Bool))
  intMap : Option ((Tab Nat) × (Tab Bool))
  msix : Option ((Tab (BitVec 64)))
  chans : Option ((Tab Chan))
  fifos : Option ((Tab HFifo))
  waitFetch : Option ((List Nat))
  staging : Option ((Tab Byte))
  out : Option (List Output)
  free : Option (Nat)
  pending : Option (List Instr)

/-- A part, unless it may change. -/
abbrev pick {α : Type} (b : Bool) (a : α) : Option α :=
  match b with
  | true => none
  | false => some a

/-- What `w` leaves alone. -/
abbrev State.view (s : State) (w : Touch) : View where
  time := pick w.time s.time
  up := pick w.up s.up
  ptp := pick w.ptp s.ptp
  tsFifos := pick w.tsFifos s.tsFifos
  gates := pick w.gates s.gates
  lanes := pick w.lanes s.lanes
  groups := pick w.groups s.groups
  ports := pick w.ports s.ports
  prismBanks := pick w.prismBanks (s.prism.bank0, s.prism.bank1, s.prism.epoch, s.prism.loaded)
  prismFlight := pick w.prismFlight (s.prism.inCur, s.prism.inPrev)
  hits := pick w.hits s.prism.hits
  recirc := pick w.recirc s.prism.recirc
  merge := pick w.merge s.prism.merge
  gens := pick w.gens (s.fwd.gen0, s.fwd.gen1, s.fwd.gen, s.fwd.normPending)
  fwdFlight := pick w.fwdFlight (s.fwd.inGenPrev, s.fwd.inGenCur)
  em := pick w.em (s.fwd.em, s.fwd.learnedOn)
  seeds := pick w.seeds (s.fwd.seed0, s.fwd.seed1, s.fwd.seed2)
  learnQ := pick w.learnQ s.fwd.learnQ
  agePeriod := pick w.agePeriod s.fwd.agePeriod
  fwdCtr := pick w.fwdCtr s.fwd.ctr
  badTable := pick w.badTable s.fwd.badTable
  cells := pick w.cells (s.buf.usedCells, s.buf.allocStart)
  classes := pick w.classes s.buf.classes
  portClass := pick w.portClass s.buf.portClass
  wred := pick w.wred s.buf.wred
  queues := pick w.queues s.buf.queues
  spillVoqs := pick w.spillVoqs s.buf.spillVoqs
  lfsr := pick w.lfsr s.buf.lfsr
  pools := pick w.pools (s.buf.pool0, s.buf.pool1, s.buf.pool2, s.buf.pool3, s.host.poolMem)
  bufCtr := pick w.bufCtr s.buf.ctr
  pkts := pick w.pkts s.pkts
  nextPkt := pick w.nextPkt s.nextPkt
  fabParams := pick w.fabParams s.fab.params
  voqs := pick w.voqs s.fab.voqs
  multiQ := pick w.multiQ s.fab.multiQ
  pairs := pick w.pairs s.fab.pairs
  planes := pick w.planes s.fab.planes
  fabPorts := pick w.fabPorts s.fab.ports
  links := pick w.links (s.fab.links, s.fab.linkNext)
  arb := pick w.arb (s.fab.rr, s.fab.rrDst)
  fabCtr := pick w.fabCtr s.fab.ctr
  nodes := pick w.nodes s.sched.nodes
  egq := pick w.egq s.sched.egq
  waitTx := pick w.waitTx s.sched.waitTx
  pol := pick w.pol s.sched.pol
  loupeProf := pick w.loupeProf s.sched.prof
  loupeQueue := pick w.loupeQueue s.sched.queue
  loupeItems := pick w.loupeItems (s.sched.items, s.sched.cursor)
  schedCtr := pick w.schedCtr s.sched.ctr
  frer := pick w.frer s.frer
  clusters := pick w.clusters s.leaven.clusters
  cores := pick w.cores s.leaven.cores
  flows := pick w.flows s.leaven.flows
  fix := pick w.fix (s.leaven.fix, s.leaven.nextTap)
  flushes := pick w.flushes s.leaven.flushes
  fixCtr := pick w.fixCtr s.leaven.ctr
  pclasses := pick w.pclasses s.proof.classes
  targets := pick w.targets s.proof.targets
  drops := pick w.drops s.proof.drops
  buses := pick w.buses s.proof.buses
  notices := pick w.notices (s.proof.parkUnits, s.proof.noticeSec, s.proof.noticeAt)
  proofCtr := pick w.proofCtr s.proof.ctr
  evtRegs := pick w.evtRegs (s.evt.enable, s.evt.minSev, s.evt.base, s.evt.k)
  evt := pick w.evt (s.evt.head, s.evt.tail, s.evt.nextSeq, s.evt.lostSeen, s.evt.held, s.evt.lost, s.evt.lostFirst,
    s.evt.lostLast, s.evt.marked)
  swpRegs := pick w.swpRegs (s.swp.enable, s.swp.period, s.swp.groups, s.swp.base, s.swp.k, s.swp.lEnable,
    s.swp.lBase, s.swp.lK)
  swp := pick w.swp (s.swp.head, s.swp.tail, s.swp.lastSeq, s.swp.full, s.swp.tooLarge, s.swp.dump, s.swp.snapDue,
    s.swp.taken, s.swp.missed, s.swp.slicesReset, s.swp.restarted, s.swp.lHead, s.swp.lTail, s.swp.lFull)
  mirrors := pick w.mirrors s.tel.mirrors
  cand := pick w.cand s.tel.cand
  mirQ := pick w.mirQ s.tel.mirQ
  mirCtr := pick w.mirCtr s.tel.mirCtr
  telCtr := pick w.telCtr s.tel.ctr
  dropCtr := pick w.dropCtr s.tel.drops
  portCtr := pick w.portCtr s.tel.portCtr
  prismCtr := pick w.prismCtr s.tel.prismCtr
  timeCtr := pick w.timeCtr s.tel.timeCtr
  redCtr := pick w.redCtr s.tel.redCtr
  frerCtr := pick w.frerCtr s.tel.frerCtr
  mbxCtr := pick w.mbxCtr s.tel.mbxCtr
  pwrCtr := pick w.pwrCtr s.tel.pwrCtr
  shares := pick w.shares s.tel.share
  rate := pick w.rate s.tel.rate
  boxes := pick w.boxes s.mbx.boxes
  jobs := pick w.jobs (s.mbx.jobs, s.mbx.gapCmds)
  hist := pick w.hist (s.mbx.hist0, s.mbx.hist1)
  life := pick w.life (s.mbx.ready, s.mbx.boots, s.mbx.restarts, s.mbx.restarting, s.mbx.readyUp)
  lostAsync := pick w.lostAsync s.mbx.lostAsync
  heldEvents := pick w.heldEvents s.mbx.heldEvents
  sets := pick w.sets (s.bake.sets, s.bake.nextSet)
  epoch := pick w.epoch s.bake.epoch
  snapshot := pick w.snapshot s.bake.snapshot
  heldShadow := pick w.heldShadow (s.bake.heldShadow, s.bake.heldEpoch)
  peers := pick w.peers s.bake.peers
  msgs := pick w.msgs (s.bake.msgs, s.bake.nextMsg)
  domBake := pick w.domBake (s.bake.dom, s.bake.nextBake, s.bake.outcomes)
  membership := pick w.membership (s.bake.frozen, s.bake.enrolled, s.bake.enrolling, s.bake.ownIdx,
    s.bake.setup)
  authFails := pick w.authFails s.bake.authFails
  timeOffset := pick w.timeOffset s.bake.timeOffset
  fwdReqs := pick w.fwdReqs s.bake.fwdReqs
  slots := pick w.slots (s.ident.slotA, s.ident.slotB)
  bootCfg := pick w.bootCfg (s.ident.cfg0, s.ident.cfg1, s.ident.bifurcated)
  image := pick w.image (s.ident.running, s.ident.runTrial, s.ident.runSvn, s.ident.major, s.ident.minor,
    s.ident.build, s.ident.booted, s.ident.cdi, s.ident.certs, s.ident.fallback, s.ident.console)
  minSvn := pick w.minSvn s.ident.minSvn
  pin := pick w.pin s.ident.pin
  debug := pick w.debug s.ident.debug
  sessions := pick w.sessions (s.ident.doe0, s.ident.doe1, s.ident.smb, s.ident.spdmNeg, s.ident.spdmVer,
    s.ident.spdmLog)
  resets := pick w.resets (s.pwr.inReset, s.pwr.porst, s.pwr.wrst, s.pwr.supplies, s.pwr.bringup, s.pwr.emergency,
    s.pwr.lastCause, s.pwr.flashCause, s.pwr.hotAtRecord, s.pwr.roleStrap, s.pwr.variant, s.pwr.stepping,
    s.pwr.tap)
  slices := pick w.slices s.pwr.slices
  warnC := pick w.warnC s.pwr.warnC
  thermal := pick w.thermal (s.pwr.warn, s.pwr.trip, s.pwr.hottest, s.pwr.lifeW, s.pwr.hours)
  hbms := pick w.hbms s.pwr.hbms
  regions := pick w.regions s.pwr.regions
  mps := pick w.mps (s.pwr.mps, s.pwr.failing)
  healthGen := pick w.healthGen s.pwr.healthGen
  repairLog := pick w.repairLog s.pwr.repairLog
  margins := pick w.margins (s.pwr.marginPeriod, s.pwr.marginH, s.pwr.marginW)
  irq := pick w.irq (s.host.links, s.host.pending)
  intMap := pick w.intMap (s.host.mapVec, s.host.mapEn)
  msix := pick w.msix s.host.msix
  chans := pick w.chans s.host.chans
  fifos := pick w.fifos s.host.fifos
  waitFetch := pick w.waitFetch s.host.waitFetch
  staging := pick w.staging s.host.staging
  out := pick w.out s.out
  free := pick w.free s.free
  pending := pick w.pending s.pending

theorem pick_some {α : Type} {b : Bool} {x y : α} (h : pick b x = pick b y) (hb : b = false) : x = y := by
  subst hb; exact Option.some.inj h

theorem pick_eq {α : Type} {b : Bool} {x y : α} (h : b = false → x = y) : pick b x = pick b y := by
  cases b with
  | true => rfl
  | false => exact congrArg some (h rfl)

/-- The parts of both. `v.or w = w` says that every part of `v` is in `w`. -/
def Touch.or (v w : Touch) : Touch where
  time := v.time || w.time
  up := v.up || w.up
  ptp := v.ptp || w.ptp
  tsFifos := v.tsFifos || w.tsFifos
  gates := v.gates || w.gates
  lanes := v.lanes || w.lanes
  groups := v.groups || w.groups
  ports := v.ports || w.ports
  prismBanks := v.prismBanks || w.prismBanks
  prismFlight := v.prismFlight || w.prismFlight
  hits := v.hits || w.hits
  recirc := v.recirc || w.recirc
  merge := v.merge || w.merge
  gens := v.gens || w.gens
  fwdFlight := v.fwdFlight || w.fwdFlight
  em := v.em || w.em
  seeds := v.seeds || w.seeds
  learnQ := v.learnQ || w.learnQ
  agePeriod := v.agePeriod || w.agePeriod
  fwdCtr := v.fwdCtr || w.fwdCtr
  badTable := v.badTable || w.badTable
  cells := v.cells || w.cells
  classes := v.classes || w.classes
  portClass := v.portClass || w.portClass
  wred := v.wred || w.wred
  queues := v.queues || w.queues
  spillVoqs := v.spillVoqs || w.spillVoqs
  lfsr := v.lfsr || w.lfsr
  pools := v.pools || w.pools
  bufCtr := v.bufCtr || w.bufCtr
  pkts := v.pkts || w.pkts
  nextPkt := v.nextPkt || w.nextPkt
  fabParams := v.fabParams || w.fabParams
  voqs := v.voqs || w.voqs
  multiQ := v.multiQ || w.multiQ
  pairs := v.pairs || w.pairs
  planes := v.planes || w.planes
  fabPorts := v.fabPorts || w.fabPorts
  links := v.links || w.links
  arb := v.arb || w.arb
  fabCtr := v.fabCtr || w.fabCtr
  nodes := v.nodes || w.nodes
  egq := v.egq || w.egq
  waitTx := v.waitTx || w.waitTx
  pol := v.pol || w.pol
  loupeProf := v.loupeProf || w.loupeProf
  loupeQueue := v.loupeQueue || w.loupeQueue
  loupeItems := v.loupeItems || w.loupeItems
  schedCtr := v.schedCtr || w.schedCtr
  frer := v.frer || w.frer
  clusters := v.clusters || w.clusters
  cores := v.cores || w.cores
  flows := v.flows || w.flows
  fix := v.fix || w.fix
  flushes := v.flushes || w.flushes
  fixCtr := v.fixCtr || w.fixCtr
  pclasses := v.pclasses || w.pclasses
  targets := v.targets || w.targets
  drops := v.drops || w.drops
  buses := v.buses || w.buses
  notices := v.notices || w.notices
  proofCtr := v.proofCtr || w.proofCtr
  evtRegs := v.evtRegs || w.evtRegs
  evt := v.evt || w.evt
  swpRegs := v.swpRegs || w.swpRegs
  swp := v.swp || w.swp
  mirrors := v.mirrors || w.mirrors
  cand := v.cand || w.cand
  mirQ := v.mirQ || w.mirQ
  mirCtr := v.mirCtr || w.mirCtr
  telCtr := v.telCtr || w.telCtr
  dropCtr := v.dropCtr || w.dropCtr
  portCtr := v.portCtr || w.portCtr
  prismCtr := v.prismCtr || w.prismCtr
  timeCtr := v.timeCtr || w.timeCtr
  redCtr := v.redCtr || w.redCtr
  frerCtr := v.frerCtr || w.frerCtr
  mbxCtr := v.mbxCtr || w.mbxCtr
  pwrCtr := v.pwrCtr || w.pwrCtr
  shares := v.shares || w.shares
  rate := v.rate || w.rate
  boxes := v.boxes || w.boxes
  jobs := v.jobs || w.jobs
  hist := v.hist || w.hist
  life := v.life || w.life
  lostAsync := v.lostAsync || w.lostAsync
  heldEvents := v.heldEvents || w.heldEvents
  sets := v.sets || w.sets
  epoch := v.epoch || w.epoch
  snapshot := v.snapshot || w.snapshot
  heldShadow := v.heldShadow || w.heldShadow
  peers := v.peers || w.peers
  msgs := v.msgs || w.msgs
  domBake := v.domBake || w.domBake
  membership := v.membership || w.membership
  authFails := v.authFails || w.authFails
  timeOffset := v.timeOffset || w.timeOffset
  fwdReqs := v.fwdReqs || w.fwdReqs
  slots := v.slots || w.slots
  bootCfg := v.bootCfg || w.bootCfg
  image := v.image || w.image
  minSvn := v.minSvn || w.minSvn
  pin := v.pin || w.pin
  debug := v.debug || w.debug
  sessions := v.sessions || w.sessions
  resets := v.resets || w.resets
  slices := v.slices || w.slices
  warnC := v.warnC || w.warnC
  thermal := v.thermal || w.thermal
  hbms := v.hbms || w.hbms
  regions := v.regions || w.regions
  mps := v.mps || w.mps
  healthGen := v.healthGen || w.healthGen
  repairLog := v.repairLog || w.repairLog
  margins := v.margins || w.margins
  irq := v.irq || w.irq
  intMap := v.intMap || w.intMap
  msix := v.msix || w.msix
  chans := v.chans || w.chans
  fifos := v.fifos || w.fifos
  waitFetch := v.waitFetch || w.waitFetch
  staging := v.staging || w.staging
  out := v.out || w.out
  free := v.free || w.free
  pending := v.pending || w.pending

theorem Touch.or_assoc (a b c : Touch) : (a.or b).or c = a.or (b.or c) := by
  simp only [Touch.or, Bool.or_assoc]

theorem Touch.le_trans {a b c : Touch} (h : a.or b = b) (k : b.or c = c) : a.or c = c :=
  calc a.or c = a.or (b.or c) := by rw [k]
    _ = b.or c := by rw [← Touch.or_assoc, h]
    _ = c := k

theorem Frame.ofView {w : Touch} {s t : State} (h : t.view w = s.view w) : Frame w s t where
  time := pick_some (congrArg View.time h)
  up := pick_some (congrArg View.up h)
  ptp := pick_some (congrArg View.ptp h)
  tsFifos := pick_some (congrArg View.tsFifos h)
  gates := pick_some (congrArg View.gates h)
  lanes := pick_some (congrArg View.lanes h)
  groups := pick_some (congrArg View.groups h)
  ports := pick_some (congrArg View.ports h)
  prismBanks := fun k => by simpa only [Prod.mk.injEq] using pick_some (congrArg View.prismBanks h) k
  prismFlight := fun k => by simpa only [Prod.mk.injEq] using pick_some (congrArg View.prismFlight h) k
  hits := pick_some (congrArg View.hits h)
  recirc := pick_some (congrArg View.recirc h)
  merge := pick_some (congrArg View.merge h)
  gens := fun k => by simpa only [Prod.mk.injEq] using pick_some (congrArg View.gens h) k
  fwdFlight := fun k => by simpa only [Prod.mk.injEq] using pick_some (congrArg View.fwdFlight h) k
  em := fun k => by simpa only [Prod.mk.injEq] using pick_some (congrArg View.em h) k
  seeds := fun k => by simpa only [Prod.mk.injEq] using pick_some (congrArg View.seeds h) k
  learnQ := pick_some (congrArg View.learnQ h)
  agePeriod := pick_some (congrArg View.agePeriod h)
  fwdCtr := pick_some (congrArg View.fwdCtr h)
  badTable := pick_some (congrArg View.badTable h)
  cells := fun k => by simpa only [Prod.mk.injEq] using pick_some (congrArg View.cells h) k
  classes := pick_some (congrArg View.classes h)
  portClass := pick_some (congrArg View.portClass h)
  wred := pick_some (congrArg View.wred h)
  queues := pick_some (congrArg View.queues h)
  spillVoqs := pick_some (congrArg View.spillVoqs h)
  lfsr := pick_some (congrArg View.lfsr h)
  pools := fun k => by simpa only [Prod.mk.injEq] using pick_some (congrArg View.pools h) k
  bufCtr := pick_some (congrArg View.bufCtr h)
  pkts := pick_some (congrArg View.pkts h)
  nextPkt := pick_some (congrArg View.nextPkt h)
  fabParams := pick_some (congrArg View.fabParams h)
  voqs := pick_some (congrArg View.voqs h)
  multiQ := pick_some (congrArg View.multiQ h)
  pairs := pick_some (congrArg View.pairs h)
  planes := pick_some (congrArg View.planes h)
  fabPorts := pick_some (congrArg View.fabPorts h)
  links := fun k => by simpa only [Prod.mk.injEq] using pick_some (congrArg View.links h) k
  arb := fun k => by simpa only [Prod.mk.injEq] using pick_some (congrArg View.arb h) k
  fabCtr := pick_some (congrArg View.fabCtr h)
  nodes := pick_some (congrArg View.nodes h)
  egq := pick_some (congrArg View.egq h)
  waitTx := pick_some (congrArg View.waitTx h)
  pol := pick_some (congrArg View.pol h)
  loupeProf := pick_some (congrArg View.loupeProf h)
  loupeQueue := pick_some (congrArg View.loupeQueue h)
  loupeItems := fun k => by simpa only [Prod.mk.injEq] using pick_some (congrArg View.loupeItems h) k
  schedCtr := pick_some (congrArg View.schedCtr h)
  frer := pick_some (congrArg View.frer h)
  clusters := pick_some (congrArg View.clusters h)
  cores := pick_some (congrArg View.cores h)
  flows := pick_some (congrArg View.flows h)
  fix := fun k => by simpa only [Prod.mk.injEq] using pick_some (congrArg View.fix h) k
  flushes := pick_some (congrArg View.flushes h)
  fixCtr := pick_some (congrArg View.fixCtr h)
  pclasses := pick_some (congrArg View.pclasses h)
  targets := pick_some (congrArg View.targets h)
  drops := pick_some (congrArg View.drops h)
  buses := pick_some (congrArg View.buses h)
  notices := fun k => by simpa only [Prod.mk.injEq] using pick_some (congrArg View.notices h) k
  proofCtr := pick_some (congrArg View.proofCtr h)
  evtRegs := fun k => by simpa only [Prod.mk.injEq] using pick_some (congrArg View.evtRegs h) k
  evt := fun k => by simpa only [Prod.mk.injEq] using pick_some (congrArg View.evt h) k
  swpRegs := fun k => by simpa only [Prod.mk.injEq] using pick_some (congrArg View.swpRegs h) k
  swp := fun k => by simpa only [Prod.mk.injEq] using pick_some (congrArg View.swp h) k
  mirrors := pick_some (congrArg View.mirrors h)
  cand := pick_some (congrArg View.cand h)
  mirQ := pick_some (congrArg View.mirQ h)
  mirCtr := pick_some (congrArg View.mirCtr h)
  telCtr := pick_some (congrArg View.telCtr h)
  dropCtr := pick_some (congrArg View.dropCtr h)
  portCtr := pick_some (congrArg View.portCtr h)
  prismCtr := pick_some (congrArg View.prismCtr h)
  timeCtr := pick_some (congrArg View.timeCtr h)
  redCtr := pick_some (congrArg View.redCtr h)
  frerCtr := pick_some (congrArg View.frerCtr h)
  mbxCtr := pick_some (congrArg View.mbxCtr h)
  pwrCtr := pick_some (congrArg View.pwrCtr h)
  shares := pick_some (congrArg View.shares h)
  rate := pick_some (congrArg View.rate h)
  boxes := pick_some (congrArg View.boxes h)
  jobs := fun k => by simpa only [Prod.mk.injEq] using pick_some (congrArg View.jobs h) k
  hist := fun k => by simpa only [Prod.mk.injEq] using pick_some (congrArg View.hist h) k
  life := fun k => by simpa only [Prod.mk.injEq] using pick_some (congrArg View.life h) k
  lostAsync := pick_some (congrArg View.lostAsync h)
  heldEvents := pick_some (congrArg View.heldEvents h)
  sets := fun k => by simpa only [Prod.mk.injEq] using pick_some (congrArg View.sets h) k
  epoch := pick_some (congrArg View.epoch h)
  snapshot := pick_some (congrArg View.snapshot h)
  heldShadow := fun k => by simpa only [Prod.mk.injEq] using pick_some (congrArg View.heldShadow h) k
  peers := pick_some (congrArg View.peers h)
  msgs := fun k => by simpa only [Prod.mk.injEq] using pick_some (congrArg View.msgs h) k
  domBake := fun k => by simpa only [Prod.mk.injEq] using pick_some (congrArg View.domBake h) k
  membership := fun k => by simpa only [Prod.mk.injEq] using pick_some (congrArg View.membership h) k
  authFails := pick_some (congrArg View.authFails h)
  timeOffset := pick_some (congrArg View.timeOffset h)
  fwdReqs := pick_some (congrArg View.fwdReqs h)
  slots := fun k => by simpa only [Prod.mk.injEq] using pick_some (congrArg View.slots h) k
  bootCfg := fun k => by simpa only [Prod.mk.injEq] using pick_some (congrArg View.bootCfg h) k
  image := fun k => by simpa only [Prod.mk.injEq] using pick_some (congrArg View.image h) k
  minSvn := pick_some (congrArg View.minSvn h)
  pin := pick_some (congrArg View.pin h)
  debug := pick_some (congrArg View.debug h)
  sessions := fun k => by simpa only [Prod.mk.injEq] using pick_some (congrArg View.sessions h) k
  resets := fun k => by simpa only [Prod.mk.injEq] using pick_some (congrArg View.resets h) k
  slices := pick_some (congrArg View.slices h)
  warnC := pick_some (congrArg View.warnC h)
  thermal := fun k => by simpa only [Prod.mk.injEq] using pick_some (congrArg View.thermal h) k
  hbms := pick_some (congrArg View.hbms h)
  regions := pick_some (congrArg View.regions h)
  mps := fun k => by simpa only [Prod.mk.injEq] using pick_some (congrArg View.mps h) k
  healthGen := pick_some (congrArg View.healthGen h)
  repairLog := pick_some (congrArg View.repairLog h)
  margins := fun k => by simpa only [Prod.mk.injEq] using pick_some (congrArg View.margins h) k
  irq := fun k => by simpa only [Prod.mk.injEq] using pick_some (congrArg View.irq h) k
  intMap := fun k => by simpa only [Prod.mk.injEq] using pick_some (congrArg View.intMap h) k
  msix := pick_some (congrArg View.msix h)
  chans := pick_some (congrArg View.chans h)
  fifos := pick_some (congrArg View.fifos h)
  waitFetch := pick_some (congrArg View.waitFetch h)
  staging := pick_some (congrArg View.staging h)
  out := pick_some (congrArg View.out h)
  free := pick_some (congrArg View.free h)
  pending := pick_some (congrArg View.pending h)

theorem Frame.view {w : Touch} {s t : State} (h : Frame w s t) : t.view w = s.view w := by
  unfold State.view
  congr 1
  · exact pick_eq h.time
  · exact pick_eq h.up
  · exact pick_eq h.ptp
  · exact pick_eq h.tsFifos
  · exact pick_eq h.gates
  · exact pick_eq h.lanes
  · exact pick_eq h.groups
  · exact pick_eq h.ports
  · exact pick_eq (fun k => by simpa only [Prod.mk.injEq] using h.prismBanks k)
  · exact pick_eq (fun k => by simpa only [Prod.mk.injEq] using h.prismFlight k)
  · exact pick_eq h.hits
  · exact pick_eq h.recirc
  · exact pick_eq h.merge
  · exact pick_eq (fun k => by simpa only [Prod.mk.injEq] using h.gens k)
  · exact pick_eq (fun k => by simpa only [Prod.mk.injEq] using h.fwdFlight k)
  · exact pick_eq (fun k => by simpa only [Prod.mk.injEq] using h.em k)
  · exact pick_eq (fun k => by simpa only [Prod.mk.injEq] using h.seeds k)
  · exact pick_eq h.learnQ
  · exact pick_eq h.agePeriod
  · exact pick_eq h.fwdCtr
  · exact pick_eq h.badTable
  · exact pick_eq (fun k => by simpa only [Prod.mk.injEq] using h.cells k)
  · exact pick_eq h.classes
  · exact pick_eq h.portClass
  · exact pick_eq h.wred
  · exact pick_eq h.queues
  · exact pick_eq h.spillVoqs
  · exact pick_eq h.lfsr
  · exact pick_eq (fun k => by simpa only [Prod.mk.injEq] using h.pools k)
  · exact pick_eq h.bufCtr
  · exact pick_eq h.pkts
  · exact pick_eq h.nextPkt
  · exact pick_eq h.fabParams
  · exact pick_eq h.voqs
  · exact pick_eq h.multiQ
  · exact pick_eq h.pairs
  · exact pick_eq h.planes
  · exact pick_eq h.fabPorts
  · exact pick_eq (fun k => by simpa only [Prod.mk.injEq] using h.links k)
  · exact pick_eq (fun k => by simpa only [Prod.mk.injEq] using h.arb k)
  · exact pick_eq h.fabCtr
  · exact pick_eq h.nodes
  · exact pick_eq h.egq
  · exact pick_eq h.waitTx
  · exact pick_eq h.pol
  · exact pick_eq h.loupeProf
  · exact pick_eq h.loupeQueue
  · exact pick_eq (fun k => by simpa only [Prod.mk.injEq] using h.loupeItems k)
  · exact pick_eq h.schedCtr
  · exact pick_eq h.frer
  · exact pick_eq h.clusters
  · exact pick_eq h.cores
  · exact pick_eq h.flows
  · exact pick_eq (fun k => by simpa only [Prod.mk.injEq] using h.fix k)
  · exact pick_eq h.flushes
  · exact pick_eq h.fixCtr
  · exact pick_eq h.pclasses
  · exact pick_eq h.targets
  · exact pick_eq h.drops
  · exact pick_eq h.buses
  · exact pick_eq (fun k => by simpa only [Prod.mk.injEq] using h.notices k)
  · exact pick_eq h.proofCtr
  · exact pick_eq (fun k => by simpa only [Prod.mk.injEq] using h.evtRegs k)
  · exact pick_eq (fun k => by simpa only [Prod.mk.injEq] using h.evt k)
  · exact pick_eq (fun k => by simpa only [Prod.mk.injEq] using h.swpRegs k)
  · exact pick_eq (fun k => by simpa only [Prod.mk.injEq] using h.swp k)
  · exact pick_eq h.mirrors
  · exact pick_eq h.cand
  · exact pick_eq h.mirQ
  · exact pick_eq h.mirCtr
  · exact pick_eq h.telCtr
  · exact pick_eq h.dropCtr
  · exact pick_eq h.portCtr
  · exact pick_eq h.prismCtr
  · exact pick_eq h.timeCtr
  · exact pick_eq h.redCtr
  · exact pick_eq h.frerCtr
  · exact pick_eq h.mbxCtr
  · exact pick_eq h.pwrCtr
  · exact pick_eq h.shares
  · exact pick_eq h.rate
  · exact pick_eq h.boxes
  · exact pick_eq (fun k => by simpa only [Prod.mk.injEq] using h.jobs k)
  · exact pick_eq (fun k => by simpa only [Prod.mk.injEq] using h.hist k)
  · exact pick_eq (fun k => by simpa only [Prod.mk.injEq] using h.life k)
  · exact pick_eq h.lostAsync
  · exact pick_eq h.heldEvents
  · exact pick_eq (fun k => by simpa only [Prod.mk.injEq] using h.sets k)
  · exact pick_eq h.epoch
  · exact pick_eq h.snapshot
  · exact pick_eq (fun k => by simpa only [Prod.mk.injEq] using h.heldShadow k)
  · exact pick_eq h.peers
  · exact pick_eq (fun k => by simpa only [Prod.mk.injEq] using h.msgs k)
  · exact pick_eq (fun k => by simpa only [Prod.mk.injEq] using h.domBake k)
  · exact pick_eq (fun k => by simpa only [Prod.mk.injEq] using h.membership k)
  · exact pick_eq h.authFails
  · exact pick_eq h.timeOffset
  · exact pick_eq h.fwdReqs
  · exact pick_eq (fun k => by simpa only [Prod.mk.injEq] using h.slots k)
  · exact pick_eq (fun k => by simpa only [Prod.mk.injEq] using h.bootCfg k)
  · exact pick_eq (fun k => by simpa only [Prod.mk.injEq] using h.image k)
  · exact pick_eq h.minSvn
  · exact pick_eq h.pin
  · exact pick_eq h.debug
  · exact pick_eq (fun k => by simpa only [Prod.mk.injEq] using h.sessions k)
  · exact pick_eq (fun k => by simpa only [Prod.mk.injEq] using h.resets k)
  · exact pick_eq h.slices
  · exact pick_eq h.warnC
  · exact pick_eq (fun k => by simpa only [Prod.mk.injEq] using h.thermal k)
  · exact pick_eq h.hbms
  · exact pick_eq h.regions
  · exact pick_eq (fun k => by simpa only [Prod.mk.injEq] using h.mps k)
  · exact pick_eq h.healthGen
  · exact pick_eq h.repairLog
  · exact pick_eq (fun k => by simpa only [Prod.mk.injEq] using h.margins k)
  · exact pick_eq (fun k => by simpa only [Prod.mk.injEq] using h.irq k)
  · exact pick_eq (fun k => by simpa only [Prod.mk.injEq] using h.intMap k)
  · exact pick_eq h.msix
  · exact pick_eq h.chans
  · exact pick_eq h.fifos
  · exact pick_eq h.waitFetch
  · exact pick_eq h.staging
  · exact pick_eq h.out
  · exact pick_eq h.free
  · exact pick_eq h.pending

theorem Frame.refl {w : Touch} {s : State} : Frame w s s := .ofView rfl

theorem Frame.trans {w : Touch} {s t u : State} (h : Frame w s t) (k : Frame w t u) : Frame w s u :=
  .ofView (k.view.trans h.view)

theorem Touch.of_or {a b : Bool} (h : (a || b) = b) (k : b = false) : a = false := by
  subst k; simpa using h

theorem Frame.wider {v w : Touch} {s t : State} (h : Frame v s t) (e : v.or w = w) : Frame w s t where
  time := fun k => h.time (Touch.of_or (congrArg Touch.time e) k)
  up := fun k => h.up (Touch.of_or (congrArg Touch.up e) k)
  ptp := fun k => h.ptp (Touch.of_or (congrArg Touch.ptp e) k)
  tsFifos := fun k => h.tsFifos (Touch.of_or (congrArg Touch.tsFifos e) k)
  gates := fun k => h.gates (Touch.of_or (congrArg Touch.gates e) k)
  lanes := fun k => h.lanes (Touch.of_or (congrArg Touch.lanes e) k)
  groups := fun k => h.groups (Touch.of_or (congrArg Touch.groups e) k)
  ports := fun k => h.ports (Touch.of_or (congrArg Touch.ports e) k)
  prismBanks := fun k => h.prismBanks (Touch.of_or (congrArg Touch.prismBanks e) k)
  prismFlight := fun k => h.prismFlight (Touch.of_or (congrArg Touch.prismFlight e) k)
  hits := fun k => h.hits (Touch.of_or (congrArg Touch.hits e) k)
  recirc := fun k => h.recirc (Touch.of_or (congrArg Touch.recirc e) k)
  merge := fun k => h.merge (Touch.of_or (congrArg Touch.merge e) k)
  gens := fun k => h.gens (Touch.of_or (congrArg Touch.gens e) k)
  fwdFlight := fun k => h.fwdFlight (Touch.of_or (congrArg Touch.fwdFlight e) k)
  em := fun k => h.em (Touch.of_or (congrArg Touch.em e) k)
  seeds := fun k => h.seeds (Touch.of_or (congrArg Touch.seeds e) k)
  learnQ := fun k => h.learnQ (Touch.of_or (congrArg Touch.learnQ e) k)
  agePeriod := fun k => h.agePeriod (Touch.of_or (congrArg Touch.agePeriod e) k)
  fwdCtr := fun k => h.fwdCtr (Touch.of_or (congrArg Touch.fwdCtr e) k)
  badTable := fun k => h.badTable (Touch.of_or (congrArg Touch.badTable e) k)
  cells := fun k => h.cells (Touch.of_or (congrArg Touch.cells e) k)
  classes := fun k => h.classes (Touch.of_or (congrArg Touch.classes e) k)
  portClass := fun k => h.portClass (Touch.of_or (congrArg Touch.portClass e) k)
  wred := fun k => h.wred (Touch.of_or (congrArg Touch.wred e) k)
  queues := fun k => h.queues (Touch.of_or (congrArg Touch.queues e) k)
  spillVoqs := fun k => h.spillVoqs (Touch.of_or (congrArg Touch.spillVoqs e) k)
  lfsr := fun k => h.lfsr (Touch.of_or (congrArg Touch.lfsr e) k)
  pools := fun k => h.pools (Touch.of_or (congrArg Touch.pools e) k)
  bufCtr := fun k => h.bufCtr (Touch.of_or (congrArg Touch.bufCtr e) k)
  pkts := fun k => h.pkts (Touch.of_or (congrArg Touch.pkts e) k)
  nextPkt := fun k => h.nextPkt (Touch.of_or (congrArg Touch.nextPkt e) k)
  fabParams := fun k => h.fabParams (Touch.of_or (congrArg Touch.fabParams e) k)
  voqs := fun k => h.voqs (Touch.of_or (congrArg Touch.voqs e) k)
  multiQ := fun k => h.multiQ (Touch.of_or (congrArg Touch.multiQ e) k)
  pairs := fun k => h.pairs (Touch.of_or (congrArg Touch.pairs e) k)
  planes := fun k => h.planes (Touch.of_or (congrArg Touch.planes e) k)
  fabPorts := fun k => h.fabPorts (Touch.of_or (congrArg Touch.fabPorts e) k)
  links := fun k => h.links (Touch.of_or (congrArg Touch.links e) k)
  arb := fun k => h.arb (Touch.of_or (congrArg Touch.arb e) k)
  fabCtr := fun k => h.fabCtr (Touch.of_or (congrArg Touch.fabCtr e) k)
  nodes := fun k => h.nodes (Touch.of_or (congrArg Touch.nodes e) k)
  egq := fun k => h.egq (Touch.of_or (congrArg Touch.egq e) k)
  waitTx := fun k => h.waitTx (Touch.of_or (congrArg Touch.waitTx e) k)
  pol := fun k => h.pol (Touch.of_or (congrArg Touch.pol e) k)
  loupeProf := fun k => h.loupeProf (Touch.of_or (congrArg Touch.loupeProf e) k)
  loupeQueue := fun k => h.loupeQueue (Touch.of_or (congrArg Touch.loupeQueue e) k)
  loupeItems := fun k => h.loupeItems (Touch.of_or (congrArg Touch.loupeItems e) k)
  schedCtr := fun k => h.schedCtr (Touch.of_or (congrArg Touch.schedCtr e) k)
  frer := fun k => h.frer (Touch.of_or (congrArg Touch.frer e) k)
  clusters := fun k => h.clusters (Touch.of_or (congrArg Touch.clusters e) k)
  cores := fun k => h.cores (Touch.of_or (congrArg Touch.cores e) k)
  flows := fun k => h.flows (Touch.of_or (congrArg Touch.flows e) k)
  fix := fun k => h.fix (Touch.of_or (congrArg Touch.fix e) k)
  flushes := fun k => h.flushes (Touch.of_or (congrArg Touch.flushes e) k)
  fixCtr := fun k => h.fixCtr (Touch.of_or (congrArg Touch.fixCtr e) k)
  pclasses := fun k => h.pclasses (Touch.of_or (congrArg Touch.pclasses e) k)
  targets := fun k => h.targets (Touch.of_or (congrArg Touch.targets e) k)
  drops := fun k => h.drops (Touch.of_or (congrArg Touch.drops e) k)
  buses := fun k => h.buses (Touch.of_or (congrArg Touch.buses e) k)
  notices := fun k => h.notices (Touch.of_or (congrArg Touch.notices e) k)
  proofCtr := fun k => h.proofCtr (Touch.of_or (congrArg Touch.proofCtr e) k)
  evtRegs := fun k => h.evtRegs (Touch.of_or (congrArg Touch.evtRegs e) k)
  evt := fun k => h.evt (Touch.of_or (congrArg Touch.evt e) k)
  swpRegs := fun k => h.swpRegs (Touch.of_or (congrArg Touch.swpRegs e) k)
  swp := fun k => h.swp (Touch.of_or (congrArg Touch.swp e) k)
  mirrors := fun k => h.mirrors (Touch.of_or (congrArg Touch.mirrors e) k)
  cand := fun k => h.cand (Touch.of_or (congrArg Touch.cand e) k)
  mirQ := fun k => h.mirQ (Touch.of_or (congrArg Touch.mirQ e) k)
  mirCtr := fun k => h.mirCtr (Touch.of_or (congrArg Touch.mirCtr e) k)
  telCtr := fun k => h.telCtr (Touch.of_or (congrArg Touch.telCtr e) k)
  dropCtr := fun k => h.dropCtr (Touch.of_or (congrArg Touch.dropCtr e) k)
  portCtr := fun k => h.portCtr (Touch.of_or (congrArg Touch.portCtr e) k)
  prismCtr := fun k => h.prismCtr (Touch.of_or (congrArg Touch.prismCtr e) k)
  timeCtr := fun k => h.timeCtr (Touch.of_or (congrArg Touch.timeCtr e) k)
  redCtr := fun k => h.redCtr (Touch.of_or (congrArg Touch.redCtr e) k)
  frerCtr := fun k => h.frerCtr (Touch.of_or (congrArg Touch.frerCtr e) k)
  mbxCtr := fun k => h.mbxCtr (Touch.of_or (congrArg Touch.mbxCtr e) k)
  pwrCtr := fun k => h.pwrCtr (Touch.of_or (congrArg Touch.pwrCtr e) k)
  shares := fun k => h.shares (Touch.of_or (congrArg Touch.shares e) k)
  rate := fun k => h.rate (Touch.of_or (congrArg Touch.rate e) k)
  boxes := fun k => h.boxes (Touch.of_or (congrArg Touch.boxes e) k)
  jobs := fun k => h.jobs (Touch.of_or (congrArg Touch.jobs e) k)
  hist := fun k => h.hist (Touch.of_or (congrArg Touch.hist e) k)
  life := fun k => h.life (Touch.of_or (congrArg Touch.life e) k)
  lostAsync := fun k => h.lostAsync (Touch.of_or (congrArg Touch.lostAsync e) k)
  heldEvents := fun k => h.heldEvents (Touch.of_or (congrArg Touch.heldEvents e) k)
  sets := fun k => h.sets (Touch.of_or (congrArg Touch.sets e) k)
  epoch := fun k => h.epoch (Touch.of_or (congrArg Touch.epoch e) k)
  snapshot := fun k => h.snapshot (Touch.of_or (congrArg Touch.snapshot e) k)
  heldShadow := fun k => h.heldShadow (Touch.of_or (congrArg Touch.heldShadow e) k)
  peers := fun k => h.peers (Touch.of_or (congrArg Touch.peers e) k)
  msgs := fun k => h.msgs (Touch.of_or (congrArg Touch.msgs e) k)
  domBake := fun k => h.domBake (Touch.of_or (congrArg Touch.domBake e) k)
  membership := fun k => h.membership (Touch.of_or (congrArg Touch.membership e) k)
  authFails := fun k => h.authFails (Touch.of_or (congrArg Touch.authFails e) k)
  timeOffset := fun k => h.timeOffset (Touch.of_or (congrArg Touch.timeOffset e) k)
  fwdReqs := fun k => h.fwdReqs (Touch.of_or (congrArg Touch.fwdReqs e) k)
  slots := fun k => h.slots (Touch.of_or (congrArg Touch.slots e) k)
  bootCfg := fun k => h.bootCfg (Touch.of_or (congrArg Touch.bootCfg e) k)
  image := fun k => h.image (Touch.of_or (congrArg Touch.image e) k)
  minSvn := fun k => h.minSvn (Touch.of_or (congrArg Touch.minSvn e) k)
  pin := fun k => h.pin (Touch.of_or (congrArg Touch.pin e) k)
  debug := fun k => h.debug (Touch.of_or (congrArg Touch.debug e) k)
  sessions := fun k => h.sessions (Touch.of_or (congrArg Touch.sessions e) k)
  resets := fun k => h.resets (Touch.of_or (congrArg Touch.resets e) k)
  slices := fun k => h.slices (Touch.of_or (congrArg Touch.slices e) k)
  warnC := fun k => h.warnC (Touch.of_or (congrArg Touch.warnC e) k)
  thermal := fun k => h.thermal (Touch.of_or (congrArg Touch.thermal e) k)
  hbms := fun k => h.hbms (Touch.of_or (congrArg Touch.hbms e) k)
  regions := fun k => h.regions (Touch.of_or (congrArg Touch.regions e) k)
  mps := fun k => h.mps (Touch.of_or (congrArg Touch.mps e) k)
  healthGen := fun k => h.healthGen (Touch.of_or (congrArg Touch.healthGen e) k)
  repairLog := fun k => h.repairLog (Touch.of_or (congrArg Touch.repairLog e) k)
  margins := fun k => h.margins (Touch.of_or (congrArg Touch.margins e) k)
  irq := fun k => h.irq (Touch.of_or (congrArg Touch.irq e) k)
  intMap := fun k => h.intMap (Touch.of_or (congrArg Touch.intMap e) k)
  msix := fun k => h.msix (Touch.of_or (congrArg Touch.msix e) k)
  chans := fun k => h.chans (Touch.of_or (congrArg Touch.chans e) k)
  fifos := fun k => h.fifos (Touch.of_or (congrArg Touch.fifos e) k)
  waitFetch := fun k => h.waitFetch (Touch.of_or (congrArg Touch.waitFetch e) k)
  staging := fun k => h.staging (Touch.of_or (congrArg Touch.staging e) k)
  out := fun k => h.out (Touch.of_or (congrArg Touch.out e) k)
  free := fun k => h.free (Touch.of_or (congrArg Touch.free e) k)
  pending := fun k => h.pending (Touch.of_or (congrArg Touch.pending e) k)

/-- One more operation, which changes parts of `v`. -/
theorem Frame.step {v w : Touch} {s t u : State} (h : Frame w s t) (e : v.or w = w) (k : Frame v t u) : Frame w s u :=
  h.trans (k.wider e)

/-- A state written field by field. -/
theorem Frame.fields {w : Touch} {s0 s : State} {xtime : TimeBase} {xup : Nat} {xptp : PtpCfg} {xtsFifos : Tab TsFifo}
  {xgates : Tab PortGate} {xlanes : Tab LaneSt} {xgroups : Tab GroupSt} {xports : Tab PortSt} {xprism : PrismSt} {xfwd
  : FwdSt} {xbuf : BufSt} {xpkts : Tab Pkt} {xnextPkt : Nat} {xfab : FabSt} {xsched : SchedSt} {xfrer : Tab FrerSt}
  {xleaven : LeavenSt} {xproof : ProofSt} {xevt : EvtSt} {xswp : SwpSt} {xtel : TelSt} {xmbx : MbxSt} {xbake : BakeSt}
  {xident : IdSt} {xpwr : PwrSt} {xhost : HostSt} {xout : List Output} {xfree : Nat} {xpending : List Instr}
    (h : Frame w s0 s) (hq : xpending = s.pending := by rfl)
    (hc : (⟨xtime, xup, xptp, xtsFifos, xgates, xlanes, xgroups, xports, xprism, xfwd, xbuf, xpkts, xnextPkt, xfab,
      xsched, xfrer, xleaven, xproof, xevt, xswp, xtel, xmbx, xbake, xident, xpwr, xhost, xout, xfree, xpending⟩ :
      State).view w = s.view w := by rfl) :
    Frame w s0 (⟨xtime, xup, xptp, xtsFifos, xgates, xlanes, xgroups, xports, xprism, xfwd, xbuf, xpkts, xnextPkt,
      xfab, xsched, xfrer, xleaven, xproof, xevt, xswp, xtel, xmbx, xbake, xident, xpwr, xhost, xout, xfree, xpending⟩
      : State) :=
  h.trans (.ofView hc)

/-- An operation that leaves those parts alone. -/
theorem Frame.upd {w : Touch} {s0 s t : State} (h : Frame w s0 s) (hc : t.view w = s.view w) : Frame w s0 t :=
  h.trans (.ofView hc)

/-- Where an outcome is a next state, it is framed. -/
structure OutFrame (w : Touch) (s : State) (o : Host.Outcome State Fault Refusal) : Prop where
  frame : ∀ t, o = .next t → Frame w s t

theorem OutFrame.next {w : Touch} {s t : State} (h : Frame w s t) : OutFrame w s (.next t) :=
  ⟨fun u hu => by cases hu; exact h⟩

theorem OutFrame.fault {w : Touch} (s : State) (r : Fault) : OutFrame w s (.fault r) :=
  ⟨fun u hu => by cases hu⟩

theorem OutFrame.wider {v w : Touch} {s : State} {o : Host.Outcome State Fault Refusal} (h : OutFrame v s o)
    (e : v.or w = w) : OutFrame w s o :=
  ⟨fun t ht => (h.frame t ht).wider e⟩

theorem Frame.foldl {α : Type} {w : Touch} {s0 : State} (f : State → α → State)
    (hf : ∀ s a, Frame w s0 s → Frame w s0 (f s a)) : ∀ (l : List α) {s : State}, Frame w s0 s → Frame w s0 (l.foldl f s)
  | [], _, h => h
  | a :: l, s, h => Frame.foldl f hf l (hf s a h)

theorem Frame.ite {w : Touch} {s0 a b : State} {c : Prop} [Decidable c] (ha : c → Frame w s0 a) (hb : ¬ c → Frame w s0 b) :
    Frame w s0 (if c then a else b) := by
  split
  · exact ha ‹_›
  · exact hb ‹_›

end Sys2Proof.Machine
end

