-- ==== Sys2Proof/Laws/FrameFlags.lean ====
section
/-! SUPPORT. What the operations of Flags may change. -/

set_option Elab.async false
set_option linter.all false

namespace Sys2Proof.Machine

theorem State.interrupt_frame {wt : Touch} {s0 s : State} (hw : 
    ({ irq := true, out := true } : Touch).or wt = wt) (hK : Frame wt s0 s) (n : Nat) :
    Frame wt s0 (s.interrupt n) := by
  refine hK.step hw ?_
  obtain ⟨a, b', c, d, e, f, g, g'⟩ := quiet_parts (HostSt.setPending_quiet s.host s.ident.bifurcated n)
  constructor <;> first
    | exact fun h => Bool.noConfusion h
    | exact fun _ => rfl
    | (intro _; (repeat' apply And.intro) <;> first | rfl | assumption)

end Sys2Proof.Machine
end

