-- ==== Sys2Proof/Laws/FrameOps.lean ====
section
/-! SUPPORT. What the operations of Ops may change. -/

set_option Elab.async false
set_option linter.all false

namespace Sys2Proof.Machine

theorem EvtSt.put_regs (v : EvtSt) (b : List Byte) : (v.put b).1.enable = v.enable ∧ (v.put b).1.minSev = v.minSev
    ∧ (v.put b).1.base = v.base ∧ (v.put b).1.k = v.k := ⟨rfl, rfl, rfl, rfl⟩

theorem EvtSt.write_regs (v : EvtSt) (e : EvEntry) : (v.write e).st.enable = v.enable ∧ (v.write e).st.minSev = v.minSev
    ∧ (v.write e).st.base = v.base ∧ (v.write e).st.k = v.k := by
  unfold EvtSt.write
  repeat' split
  all_goals exact ⟨rfl, rfl, rfl, rfl⟩

/-- Logging an event leaves the settings of the ring alone. -/
theorem EvtSt.log_regs (v : EvtSt) (e : EvEntry) : (v.log e).st.enable = v.enable ∧ (v.log e).st.minSev = v.minSev
    ∧ (v.log e).st.base = v.base ∧ (v.log e).st.k = v.k := by
  unfold EvtSt.log
  dsimp only
  repeat' split
  · exact ⟨rfl, rfl, rfl, rfl⟩
  · exact EvtSt.write_regs _ e
  · unfold EvtSt.hold
    dsimp only
    split <;> exact ⟨rfl, rfl, rfl, rfl⟩

theorem State.updPort_frame {wt : Touch} {s0 s : State} (hw : 
    ({ ports := true } : Touch).or wt = wt)
    (hK : Frame wt s0 s) (p : Nat) (f : PortSt → PortSt) : Frame wt s0 (State.updPort s p f) :=
  hK.step hw (.ofView rfl)

theorem State.updLane_frame {wt : Touch} {s0 s : State} (hw : 
    ({ lanes := true } : Touch).or wt = wt)
    (hK : Frame wt s0 s) (l : Nat) (f : LaneSt → LaneSt) : Frame wt s0 (State.updLane s l f) :=
  hK.step hw (.ofView rfl)

theorem State.updGroup_frame {wt : Touch} {s0 s : State} (hw : 
    ({ groups := true } : Touch).or wt = wt)
    (hK : Frame wt s0 s) (g : Nat) (f : GroupSt → GroupSt) : Frame wt s0 (State.updGroup s g f) :=
  hK.step hw (.ofView rfl)

theorem State.updGate_frame {wt : Touch} {s0 s : State} (hw : 
    ({ gates := true } : Touch).or wt = wt)
    (hK : Frame wt s0 s) (p : Nat) (f : PortGate → PortGate) : Frame wt s0 (State.updGate s p f) :=
  hK.step hw (.ofView rfl)

theorem State.updTsFifo_frame {wt : Touch} {s0 s : State} (hw : 
    ({ tsFifos := true } : Touch).or wt = wt)
    (hK : Frame wt s0 s) (n : Nat) (f : TsFifo → TsFifo) : Frame wt s0 (State.updTsFifo s n f) :=
  hK.step hw (.ofView rfl)

theorem State.updStream_frame {wt : Touch} {s0 s : State} (hw : 
    ({ frer := true } : Touch).or wt = wt)
    (hK : Frame wt s0 s) (n : Nat) (f : FrerSt → FrerSt) : Frame wt s0 (State.updStream s n f) :=
  hK.step hw (.ofView rfl)

theorem State.updCluster_frame {wt : Touch} {s0 s : State} (hw : 
    ({ clusters := true } : Touch).or wt = wt)
    (hK : Frame wt s0 s) (n : Nat) (f : Cluster → Cluster) : Frame wt s0 (State.updCluster s n f) :=
  hK.step hw (.ofView rfl)

theorem State.updFix_frame {wt : Touch} {s0 s : State} (hw : 
    ({ fix := true } : Touch).or wt = wt)
    (hK : Frame wt s0 s) (n : Nat) (f : FixClu → FixClu) : Frame wt s0 (State.updFix s n f) :=
  hK.step hw (.ofView rfl)

theorem State.updFlow_frame {wt : Touch} {s0 s : State} (hw : 
    ({ flows := true } : Touch).or wt = wt)
    (hK : Frame wt s0 s) (n : Nat) (f : Flow → Flow) : Frame wt s0 (State.updFlow s n f) :=
  hK.step hw (.ofView rfl)

theorem State.updTarget_frame {wt : Touch} {s0 s : State} (hw : 
    ({ targets := true } : Touch).or wt = wt)
    (hK : Frame wt s0 s) (n : Nat) (f : Target → Target) : Frame wt s0 (State.updTarget s n f) :=
  hK.step hw (.ofView rfl)

theorem State.updDrop_frame {wt : Touch} {s0 s : State} (hw : 
    ({ drops := true } : Touch).or wt = wt)
    (hK : Frame wt s0 s) (bus : Nat) (drop : Nat) (f : Drop → Drop) : Frame wt s0 (State.updDrop s bus drop f) :=
  hK.step hw (.ofView rfl)

theorem State.updBus_frame {wt : Touch} {s0 s : State} (hw : 
    ({ buses := true } : Touch).or wt = wt)
    (hK : Frame wt s0 s) (n : Nat) (f : Bus → Bus) : Frame wt s0 (State.updBus s n f) :=
  hK.step hw (.ofView rfl)

theorem State.updPlane_frame {wt : Touch} {s0 s : State} (hw : 
    ({ planes := true } : Touch).or wt = wt)
    (hK : Frame wt s0 s) (n : Nat) (f : Plane → Plane) : Frame wt s0 (State.updPlane s n f) :=
  hK.step hw (.ofView rfl)

theorem State.updPair_frame {wt : Touch} {s0 s : State} (hw : 
    ({ pairs := true } : Touch).or wt = wt)
    (hK : Frame wt s0 s) (src : Nat) (dst : Nat) (f : Pair → Pair) : Frame wt s0 (State.updPair s src dst f) :=
  hK.step hw (.ofView rfl)

theorem State.updVoq_frame {wt : Touch} {s0 s : State} (hw : 
    ({ voqs := true } : Touch).or wt = wt)
    (hK : Frame wt s0 s) (slice : Nat) (v : Nat) (f : Voq → Voq) : Frame wt s0 (State.updVoq s slice v f) :=
  hK.step hw (.ofView rfl)

theorem State.updFabPort_frame {wt : Touch} {s0 s : State} (hw : 
    ({ fabPorts := true } : Touch).or wt = wt)
    (hK : Frame wt s0 s) (p : Nat) (c : Nat) (f : FabPort → FabPort) : Frame wt s0 (State.updFabPort s p c f) :=
  hK.step hw (.ofView rfl)

theorem State.updPortClass_frame {wt : Touch} {s0 s : State} (hw : 
    ({ portClass := true } : Touch).or wt = wt)
    (hK : Frame wt s0 s) (p : Nat) (c : Nat) (f : PortClass → PortClass) : Frame wt s0 (State.updPortClass s p c f) :=
  hK.step hw (.ofView rfl)

theorem State.updQueue_frame {wt : Touch} {s0 s : State} (hw : 
    ({ queues := true } : Touch).or wt = wt)
    (hK : Frame wt s0 s) (q : Nat) (f : QueueSt → QueueSt) : Frame wt s0 (State.updQueue s q f) :=
  hK.step hw (.ofView rfl)

theorem State.updChan_frame {wt : Touch} {s0 s : State} (hw : 
    ({ chans := true } : Touch).or wt = wt)
    (hK : Frame wt s0 s) (n : Nat) (f : Chan → Chan) : Frame wt s0 (State.updChan s n f) :=
  hK.step hw (.ofView rfl)

theorem State.updFifo_frame {wt : Touch} {s0 s : State} (hw : 
    ({ fifos := true } : Touch).or wt = wt)
    (hK : Frame wt s0 s) (n : Nat) (f : HFifo → HFifo) : Frame wt s0 (State.updFifo s n f) :=
  hK.step hw (.ofView rfl)

theorem State.updLink_frame {wt : Touch} {s0 s : State} (hw : 
    ({ irq := true } : Touch).or wt = wt)
    (hK : Frame wt s0 s) (fn : Nat) (f : LinkIf → LinkIf) : Frame wt s0 (State.updLink s fn f) :=
  hK.step hw (.ofView rfl)

theorem State.updSlice_frame {wt : Touch} {s0 s : State} (hw : 
    ({ slices := true } : Touch).or wt = wt)
    (hK : Frame wt s0 s) (n : Nat) (f : SliceSt → SliceSt) : Frame wt s0 (State.updSlice s n f) :=
  hK.step hw (.ofView rfl)

theorem State.updStack_frame {wt : Touch} {s0 s : State} (hw : 
    ({ hbms := true } : Touch).or wt = wt)
    (hK : Frame wt s0 s) (n : Nat) (f : Stack → Stack) : Frame wt s0 (State.updStack s n f) :=
  hK.step hw (.ofView rfl)

theorem State.updMp_frame {wt : Touch} {s0 s : State} (hw : 
    ({ mps := true } : Touch).or wt = wt)
    (hK : Frame wt s0 s) (n : Nat) (f : Mp → Mp) : Frame wt s0 (State.updMp s n f) :=
  hK.step hw (.ofView rfl)

theorem State.updPeer_frame {wt : Touch} {s0 s : State} (hw : 
    ({ peers := true } : Touch).or wt = wt)
    (hK : Frame wt s0 s) (n : Nat) (f : Peer → Peer) : Frame wt s0 (State.updPeer s n f) :=
  hK.step hw (.ofView rfl)

theorem State.updBox_frame {wt : Touch} {s0 s : State} (hw : 
    ({ boxes := true } : Touch).or wt = wt)
    (hK : Frame wt s0 s) (n : Nat) (f : Mbox → Mbox) : Frame wt s0 (State.updBox s n f) :=
  hK.step hw (.ofView rfl)

theorem State.updPkt_frame {wt : Touch} {s0 s : State} (hw : 
    ({ pkts := true } : Touch).or wt = wt)
    (hK : Frame wt s0 s) (n : Nat) (f : Pkt → Pkt) : Frame wt s0 (State.updPkt s n f) :=
  hK.step hw (.ofView rfl)

theorem State.updNode_frame {wt : Touch} {s0 s : State} (hw : 
    ({ nodes := true } : Touch).or wt = wt)
    (hK : Frame wt s0 s) (k : Nat) (f : Node → Node) : Frame wt s0 (State.updNode s k f) :=
  hK.step hw (.ofView rfl)

theorem State.updPolicer_frame {wt : Touch} {s0 s : State} (hw : 
    ({ pol := true } : Touch).or wt = wt)
    (hK : Frame wt s0 s) (n : Nat) (f : Policer → Policer) : Frame wt s0 (State.updPolicer s n f) :=
  hK.step hw (.ofView rfl)

theorem State.bumpPort_frame {wt : Touch} {s0 s : State} (hw : 
    ({ portCtr := true } : Touch).or wt = wt)
    (hK : Frame wt s0 s) (p : Nat) (i : Nat) (n : Nat) : Frame wt s0 (State.bumpPort s p i n) :=
  hK.step hw (.ofView rfl)

theorem State.bumpPrism_frame {wt : Touch} {s0 s : State} (hw : 
    ({ prismCtr := true } : Touch).or wt = wt)
    (hK : Frame wt s0 s) (sl : Nat) (i : Nat) (n : Nat) : Frame wt s0 (State.bumpPrism s sl i n) :=
  hK.step hw (.ofView rfl)

theorem State.bumpFwd_frame {wt : Touch} {s0 s : State} (hw : 
    ({ fwdCtr := true } : Touch).or wt = wt)
    (hK : Frame wt s0 s) (i : Nat) (n : Nat) : Frame wt s0 (State.bumpFwd s i n) :=
  hK.step hw (.ofView rfl)

theorem State.bumpBuf_frame {wt : Touch} {s0 s : State} (hw : 
    ({ bufCtr := true } : Touch).or wt = wt)
    (hK : Frame wt s0 s) (i : Nat) (n : Nat) : Frame wt s0 (State.bumpBuf s i n) :=
  hK.step hw (.ofView rfl)

theorem State.bumpFab_frame {wt : Touch} {s0 s : State} (hw : 
    ({ fabCtr := true } : Touch).or wt = wt)
    (hK : Frame wt s0 s) (i : Nat) (n : Nat) : Frame wt s0 (State.bumpFab s i n) :=
  hK.step hw (.ofView rfl)

theorem State.bumpSched_frame {wt : Touch} {s0 s : State} (hw : 
    ({ schedCtr := true } : Touch).or wt = wt)
    (hK : Frame wt s0 s) (i : Nat) (n : Nat) : Frame wt s0 (State.bumpSched s i n) :=
  hK.step hw (.ofView rfl)

theorem State.bumpTime_frame {wt : Touch} {s0 s : State} (hw : 
    ({ timeCtr := true } : Touch).or wt = wt)
    (hK : Frame wt s0 s) (p : Nat) (i : Nat) (n : Nat) : Frame wt s0 (State.bumpTime s p i n) :=
  hK.step hw (.ofView rfl)

theorem State.share_frame {wt : Touch} {s0 s : State} (hw :
    ({ shares := true } : Touch).or wt = wt)
    (hK : Frame wt s0 s) (g : Nat) (sl : Nat) (i : Nat) (n : Nat) :
    Frame wt s0 (State.share s g sl i n) := by
  refine Frame.step hK hw ?_
  unfold State.share
  (try dsimp only)
  repeat' first
    | ((with_reducible show Touch.or _ _ = _) <;> rfl)
    | with_reducible exact Frame.refl
    | (with_reducible refine Frame.foldl _ (fun _ _ hF => ?_) _ ?_)
    | (intro _ hF; skip) | with_reducible assumption
    | (with_reducible refine Frame.ite (fun _ => ?_) (fun _ => ?_)) | split
    | fail_if_no_progress ((with_reducible apply Frame.fields); (case hq => rfl); (case hc => rfl))

theorem State.bumpFwdAt_frame {wt : Touch} {s0 s : State} (hw :
    ({ fwdCtr := true, shares := true } : Touch).or wt = wt)
    (hK : Frame wt s0 s) (sl : Nat) (i : Nat) (n : Nat) :
    Frame wt s0 (State.bumpFwdAt s sl i n) := by
  refine Frame.step hK hw ?_
  unfold State.bumpFwdAt
  (try dsimp only)
  repeat' first
    | ((with_reducible show Touch.or _ _ = _) <;> rfl)
    | with_reducible (first | exact Frame.refl | apply State.share_frame | apply State.bumpFwd_frame)
    | (with_reducible refine Frame.foldl _ (fun _ _ hF => ?_) _ ?_)
    | (intro _ hF; skip) | with_reducible assumption
    | (with_reducible refine Frame.ite (fun _ => ?_) (fun _ => ?_)) | split
    | fail_if_no_progress ((with_reducible apply Frame.fields); (case hq => rfl); (case hc => rfl))

theorem State.bumpBufAt_frame {wt : Touch} {s0 s : State} (hw :
    ({ bufCtr := true, shares := true } : Touch).or wt = wt)
    (hK : Frame wt s0 s) (sl : Nat) (i : Nat) (n : Nat) :
    Frame wt s0 (State.bumpBufAt s sl i n) := by
  refine Frame.step hK hw ?_
  unfold State.bumpBufAt
  (try dsimp only)
  repeat' first
    | ((with_reducible show Touch.or _ _ = _) <;> rfl)
    | with_reducible (first | exact Frame.refl | apply State.bumpBuf_frame | apply State.share_frame)
    | (with_reducible refine Frame.foldl _ (fun _ _ hF => ?_) _ ?_)
    | (intro _ hF; skip) | with_reducible assumption
    | (with_reducible refine Frame.ite (fun _ => ?_) (fun _ => ?_)) | split
    | fail_if_no_progress ((with_reducible apply Frame.fields); (case hq => rfl); (case hc => rfl))

theorem State.bumpFabAt_frame {wt : Touch} {s0 s : State} (hw :
    ({ fabCtr := true, shares := true } : Touch).or wt = wt)
    (hK : Frame wt s0 s) (sl : Nat) (i : Nat) (n : Nat) :
    Frame wt s0 (State.bumpFabAt s sl i n) := by
  refine Frame.step hK hw ?_
  unfold State.bumpFabAt
  (try dsimp only)
  repeat' first
    | ((with_reducible show Touch.or _ _ = _) <;> rfl)
    | with_reducible (first | exact Frame.refl | apply State.bumpFab_frame | apply State.share_frame)
    | (with_reducible refine Frame.foldl _ (fun _ _ hF => ?_) _ ?_)
    | (intro _ hF; skip) | with_reducible assumption
    | (with_reducible refine Frame.ite (fun _ => ?_) (fun _ => ?_)) | split
    | fail_if_no_progress ((with_reducible apply Frame.fields); (case hq => rfl); (case hc => rfl))

theorem State.bumpSchedAt_frame {wt : Touch} {s0 s : State} (hw :
    ({ schedCtr := true, shares := true } : Touch).or wt = wt)
    (hK : Frame wt s0 s) (sl : Nat) (i : Nat) (n : Nat) :
    Frame wt s0 (State.bumpSchedAt s sl i n) := by
  refine Frame.step hK hw ?_
  unfold State.bumpSchedAt
  (try dsimp only)
  repeat' first
    | ((with_reducible show Touch.or _ _ = _) <;> rfl)
    | with_reducible (first | exact Frame.refl | apply State.share_frame | apply State.bumpSched_frame)
    | (with_reducible refine Frame.foldl _ (fun _ _ hF => ?_) _ ?_)
    | (intro _ hF; skip) | with_reducible assumption
    | (with_reducible refine Frame.ite (fun _ => ?_) (fun _ => ?_)) | split
    | fail_if_no_progress ((with_reducible apply Frame.fields); (case hq => rfl); (case hc => rfl))

theorem State.bumpRed_frame {wt : Touch} {s0 s : State} (hw : 
    ({ redCtr := true } : Touch).or wt = wt)
    (hK : Frame wt s0 s) (i : Nat) (n : Nat) : Frame wt s0 (State.bumpRed s i n) :=
  hK.step hw (.ofView rfl)

theorem State.bumpFrer_frame {wt : Touch} {s0 s : State} (hw : 
    ({ frerCtr := true } : Touch).or wt = wt)
    (hK : Frame wt s0 s) (st : Nat) (i : Nat) (n : Nat) : Frame wt s0 (State.bumpFrer s st i n) :=
  hK.step hw (.ofView rfl)

theorem State.bumpFix_frame {wt : Touch} {s0 s : State} (hw : 
    ({ fixCtr := true } : Touch).or wt = wt)
    (hK : Frame wt s0 s) (i : Nat) (n : Nat) : Frame wt s0 (State.bumpFix s i n) :=
  hK.step hw (.ofView rfl)

theorem State.bumpProof_frame {wt : Touch} {s0 s : State} (hw : 
    ({ proofCtr := true } : Touch).or wt = wt)
    (hK : Frame wt s0 s) (i : Nat) (n : Nat) : Frame wt s0 (State.bumpProof s i n) :=
  hK.step hw (.ofView rfl)

theorem State.bumpMbx_frame {wt : Touch} {s0 s : State} (hw : 
    ({ mbxCtr := true } : Touch).or wt = wt)
    (hK : Frame wt s0 s) (fn : Nat) (i : Nat) (n : Nat) : Frame wt s0 (State.bumpMbx s fn i n) :=
  hK.step hw (.ofView rfl)

theorem State.bumpPwr_frame {wt : Touch} {s0 s : State} (hw : 
    ({ pwrCtr := true } : Touch).or wt = wt)
    (hK : Frame wt s0 s) (i : Nat) (n : Nat) : Frame wt s0 (State.bumpPwr s i n) :=
  hK.step hw (.ofView rfl)

theorem State.bumpTel_frame {wt : Touch} {s0 s : State} (hw : 
    ({ telCtr := true } : Touch).or wt = wt)
    (hK : Frame wt s0 s) (i : Nat) (n : Nat) : Frame wt s0 (State.bumpTel s i n) :=
  hK.step hw (.ofView rfl)

theorem State.bumpMir_frame {wt : Touch} {s0 s : State} (hw : 
    ({ mirCtr := true } : Touch).or wt = wt)
    (hK : Frame wt s0 s) (m : Nat) (i : Nat) (n : Nat) : Frame wt s0 (State.bumpMir s m i n) :=
  hK.step hw (.ofView rfl)

theorem State.bumpPwrAt_frame {wt : Touch} {s0 s : State} (hw :
    ({ pwrCtr := true, shares := true } : Touch).or wt = wt)
    (hK : Frame wt s0 s) (sl : Nat) (i : Nat) (n : Nat) :
    Frame wt s0 (State.bumpPwrAt s sl i n) := by
  refine Frame.step hK hw ?_
  unfold State.bumpPwrAt
  (try dsimp only)
  repeat' first
    | ((with_reducible show Touch.or _ _ = _) <;> rfl)
    | with_reducible (first | exact Frame.refl | apply State.share_frame | apply State.bumpPwr_frame)
    | (with_reducible refine Frame.foldl _ (fun _ _ hF => ?_) _ ?_)
    | (intro _ hF; skip) | with_reducible assumption
    | (with_reducible refine Frame.ite (fun _ => ?_) (fun _ => ?_)) | split
    | fail_if_no_progress ((with_reducible apply Frame.fields); (case hq => rfl); (case hc => rfl))

theorem State.bumpProofAt_frame {wt : Touch} {s0 s : State} (hw :
    ({ proofCtr := true, shares := true } : Touch).or wt = wt)
    (hK : Frame wt s0 s) (sl : Nat) (i : Nat) (n : Nat) :
    Frame wt s0 (State.bumpProofAt s sl i n) := by
  refine Frame.step hK hw ?_
  unfold State.bumpProofAt
  (try dsimp only)
  repeat' first
    | ((with_reducible show Touch.or _ _ = _) <;> rfl)
    | with_reducible (first | exact Frame.refl | apply State.share_frame | apply State.bumpProof_frame)
    | (with_reducible refine Frame.foldl _ (fun _ _ hF => ?_) _ ?_)
    | (intro _ hF; skip) | with_reducible assumption
    | (with_reducible refine Frame.ite (fun _ => ?_) (fun _ => ?_)) | split
    | fail_if_no_progress ((with_reducible apply Frame.fields); (case hq => rfl); (case hc => rfl))

theorem State.bumpMirAt_frame {wt : Touch} {s0 s : State} (hw :
    ({ mirCtr := true, shares := true } : Touch).or wt = wt)
    (hK : Frame wt s0 s) (sl : Nat) (m : Nat) (i : Nat) (n : Nat) :
    Frame wt s0 (State.bumpMirAt s sl m i n) := by
  refine Frame.step hK hw ?_
  unfold State.bumpMirAt
  (try dsimp only)
  repeat' first
    | ((with_reducible show Touch.or _ _ = _) <;> rfl)
    | with_reducible (first | exact Frame.refl | apply State.bumpMir_frame | apply State.share_frame)
    | (with_reducible refine Frame.foldl _ (fun _ _ hF => ?_) _ ?_)
    | (intro _ hF; skip) | with_reducible assumption
    | (with_reducible refine Frame.ite (fun _ => ?_) (fun _ => ?_)) | split
    | fail_if_no_progress ((with_reducible apply Frame.fields); (case hq => rfl); (case hc => rfl))

theorem State.bumpDrop_frame {wt : Touch} {s0 s : State} (hw : 
    ({ dropCtr := true } : Touch).or wt = wt)
    (hK : Frame wt s0 s) (port : Nat) (reason : Nat) : Frame wt s0 (State.bumpDrop s port reason) :=
  hK.step hw (.ofView rfl)

theorem State.emit_frame {wt : Touch} {s0 s : State} (hw : 
    ({ out := true } : Touch).or wt = wt)
    (hK : Frame wt s0 s) (o : Output) : Frame wt s0 (State.emit s o) :=
  hK.step hw (.ofView rfl)

theorem State.drawn_frame {wt : Touch} {s0 s : State} (hw : 
    ({ free := true } : Touch).or wt = wt)
    (hK : Frame wt s0 s) (n : Nat) : Frame wt s0 (State.drawn s n) :=
  hK.step hw (.ofView rfl)

theorem State.raise_frame {wt : Touch} {s0 s : State} (hw : 
    ({ evt := true, telCtr := true, irq := true, out := true } : Touch).or wt = wt) (hK : Frame wt s0 s) (code sev : Nat) (args : List Byte) : Frame wt s0 (s.raise code sev args) := by
  refine hK.step hw ?_
  obtain ⟨a, b', c, d, e, f, g, g'⟩ := quiet_parts (HostSt.setPendingIf_quiet s.host
    (s.evt.log { code, sev, seq := s.evt.nextSeq, sec := s.time.sec, ns := s.time.ns, args }).moved s.ident.bifurcated 176)
  obtain ⟨r1, r2, r3, r4⟩ :=
    EvtSt.log_regs s.evt { code, sev, seq := s.evt.nextSeq, sec := s.time.sec, ns := s.time.ns, args }
  constructor <;> first
    | exact fun h => Bool.noConfusion h
    | exact fun _ => rfl
    | (intro _; (repeat' apply And.intro) <;> first | rfl | assumption)

theorem State.raiseLimited_frame {wt : Touch} {s0 s : State} (hw : 
    ({ evt := true, telCtr := true, rate := true, irq := true, out := true } : Touch).or wt = wt)
    (hK : Frame wt s0 s) (code : Nat) (sev : Nat) (inst : Nat) (period : Nat) (args : List Byte) : Frame wt s0
    (State.raiseLimited s code sev inst period args) := by
  refine Frame.step hK hw ?_
  unfold State.raiseLimited
  (try dsimp only)
  repeat' first
    | ((with_reducible show Touch.or _ _ = _) <;> rfl)
    | with_reducible (first | exact Frame.refl | apply State.raise_frame)
    | (with_reducible refine Frame.ite (fun _ => ?_) (fun _ => ?_)) | split
    | fail_if_no_progress ((with_reducible apply Frame.fields); (case hq => rfl); (case hc => rfl))

theorem State.raiseUp_frame {wt : Touch} {s0 s : State} (hw : 
    ({ evt := true, telCtr := true, heldEvents := true, irq := true, out := true } : Touch).or wt = wt)
    (hK : Frame wt s0 s) (code : Nat) (sev : Nat) (args : List Byte) : Frame wt s0 (State.raiseUp s code sev args) :=
    by
  refine Frame.step hK hw ?_
  unfold State.raiseUp
  (try dsimp only)
  repeat' first
    | ((with_reducible show Touch.or _ _ = _) <;> rfl)
    | with_reducible (first | exact Frame.refl | apply State.raise_frame)
    | (with_reducible refine Frame.ite (fun _ => ?_) (fun _ => ?_)) | split
    | fail_if_no_progress ((with_reducible apply Frame.fields); (case hq => rfl); (case hc => rfl))

theorem State.raiseUpIf_frame {wt : Touch} {s0 s : State} (hw : 
    ({ evt := true, telCtr := true, heldEvents := true, irq := true, out := true } : Touch).or wt = wt)
    (hK : Frame wt s0 s) (b : Bool) (code : Nat) (sev : Nat) (args : List Byte) : Frame wt s0 (State.raiseUpIf s b
    code sev args) := by
  refine Frame.step hK hw ?_
  unfold State.raiseUpIf
  (try dsimp only)
  repeat' first
    | ((with_reducible show Touch.or _ _ = _) <;> rfl)
    | with_reducible (first | exact Frame.refl | apply State.raiseUp_frame)
    | (with_reducible refine Frame.ite (fun _ => ?_) (fun _ => ?_))

theorem State.raiseIf_frame {wt : Touch} {s0 s : State} (hw : 
    ({ evt := true, telCtr := true, irq := true, out := true } : Touch).or wt = wt)
    (hK : Frame wt s0 s) (b : Bool) (code : Nat) (sev : Nat) (args : List Byte) : Frame wt s0 (State.raiseIf s b code
    sev args) := by
  refine Frame.step hK hw ?_
  unfold State.raiseIf
  (try dsimp only)
  repeat' first
    | ((with_reducible show Touch.or _ _ = _) <;> rfl)
    | with_reducible (first | exact Frame.refl | apply State.raise_frame)
    | (with_reducible refine Frame.ite (fun _ => ?_) (fun _ => ?_))

end Sys2Proof.Machine
end

