-- ==== Sys2Proof/Laws/FrameTxClass.lean ====
section
/-! SUPPORT. What the operations of TxClass may change. -/

set_option Elab.async false
set_option linter.all false

namespace Sys2Proof.Machine

theorem State.setWaiting_frame {wt : Touch} {s0 s : State} (hw :
    ({ waitTx := true } : Touch).or wt = wt)
    (hK : Frame wt s0 s) (p : Nat) (l : List (Nat × Output)) : Frame wt s0 (State.setWaiting s p l) :=
  hK.step hw (.ofView rfl)

theorem State.sendNow_frame {wt : Touch} {s0 s : State} (hw :
    ({ portCtr := true, out := true } : Touch).or wt = wt)
    (hK : Frame wt s0 s) (p : Nat) (o : Output) :
    Frame wt s0 (State.sendNow s p o) := by
  refine Frame.step hK hw ?_
  unfold State.sendNow
  (try dsimp only)
  repeat' first
    | ((with_reducible show Touch.or _ _ = _) <;> rfl)
    | with_reducible (first | exact Frame.refl | apply State.emit_frame | apply State.bumpPort_frame)
    | (with_reducible refine Frame.foldl _ (fun _ _ hF => ?_) _ ?_)
    | (intro _ hF; skip) | with_reducible assumption
    | (with_reducible refine Frame.ite (fun _ => ?_) (fun _ => ?_)) | split
    | fail_if_no_progress ((with_reducible apply Frame.fields); (case hq => rfl); (case hc => rfl))

/-- `now` sends at once; else the frame waits or is lost. -/
theorem State.sendClass_frame {wt : Touch} {s0 s : State} (hw :
    ({ waitTx := true, portCtr := true } : Touch).or wt = wt)
    (hK : Frame wt s0 s) (p c : Nat) (o : Output) (now : State → State)
    (hn : ∀ t, Frame wt s0 t → Frame wt s0 (now t)) : Frame wt s0 (State.sendClass s p c o now) := by
  unfold State.sendClass
  split
  · exact State.bumpPort_frame (Touch.le_trans rfl hw) hK _ _ _
  · split
    · exact hn _ hK
    · exact State.setWaiting_frame (Touch.le_trans rfl hw) hK _ _

end Sys2Proof.Machine
end

