-- ==== Sys2Proof/Laws/FrameDomSend.lean ====
section
/-! SUPPORT. What the operations of DomSend may change. -/

set_option Elab.async false
set_option linter.all false

namespace Sys2Proof.Machine

theorem State.domPut_frame {wt : Touch} {s0 s : State} (hw :
    ({ waitTx := true, portCtr := true, peers := true, out := true } : Touch).or wt = wt)
    (hK : Frame wt s0 s) (peer : Nat) (type : Nat) (id : Nat) (body : List Byte) (n : Nat) :
    Frame wt s0 (State.domPut s peer type id body n) := by
  refine Frame.step hK hw ?_
  unfold State.domPut
  (try dsimp only)
  repeat' first
    | ((with_reducible show Touch.or _ _ = _) <;> rfl)
    | with_reducible (first
        | exact Frame.refl | apply State.updPeer_frame | apply State.sendNow_frame | apply State.sendClass_frame)
    | (with_reducible refine Frame.foldl _ (fun _ _ hF => ?_) _ ?_)
    | (intro _ hF; skip) | with_reducible assumption
    | (with_reducible refine Frame.ite (fun _ => ?_) (fun _ => ?_)) | split
    | fail_if_no_progress ((with_reducible apply Frame.fields); (case hq => rfl); (case hc => rfl))

theorem State.keepMsg_frame {wt : Touch} {s0 s : State} (hw :
    ({ msgs := true } : Touch).or wt = wt)
    (hK : Frame wt s0 s) (peer : Nat) (type : Nat) (body : List Byte) (clear : Option Nat) :
    Frame wt s0 (State.keepMsg s peer type body clear) := by
  refine Frame.step hK hw ?_
  unfold State.keepMsg
  (try dsimp only)
  repeat' first
    | ((with_reducible show Touch.or _ _ = _) <;> rfl)
    | with_reducible exact Frame.refl
    | (with_reducible refine Frame.foldl _ (fun _ _ hF => ?_) _ ?_)
    | (intro _ hF; skip) | with_reducible assumption
    | (with_reducible refine Frame.ite (fun _ => ?_) (fun _ => ?_)) | split
    | fail_if_no_progress ((with_reducible apply Frame.fields); (case hq => rfl); (case hc => rfl))

theorem State.domSend_frame {wt : Touch} {s0 s : State} (hw : 
    ({ waitTx := true, portCtr := true, peers := true, msgs := true, out := true } : Touch).or wt = wt)
    (hK : Frame wt s0 s) (peer : Nat) (type : Nat) (body : List Byte) : Frame wt s0 (State.domSend s peer type body)
    := by
  refine Frame.step hK hw ?_
  unfold State.domSend
  (try dsimp only)
  repeat' first
    | ((with_reducible show Touch.or _ _ = _) <;> rfl)
    | with_reducible (first | exact Frame.refl | apply State.domPut_frame | apply State.keepMsg_frame)
    | (with_reducible refine Frame.ite (fun _ => ?_) (fun _ => ?_)) | split
    | fail_if_no_progress ((with_reducible apply Frame.fields); (case hq => rfl); (case hc => rfl))

theorem State.clearPut_frame {wt : Touch} {s0 s : State} (hw :
    ({ waitTx := true, portCtr := true, out := true } : Touch).or wt = wt)
    (hK : Frame wt s0 s) (p : Nat) (dest : Nat) (type : Nat) (id : Nat) (body : List Byte) :
    Frame wt s0 (State.clearPut s p dest type id body) := by
  refine Frame.step hK hw ?_
  unfold State.clearPut
  (try dsimp only)
  repeat' first
    | ((with_reducible show Touch.or _ _ = _) <;> rfl)
    | with_reducible (first | exact Frame.refl | apply State.sendNow_frame | apply State.sendClass_frame)
    | (with_reducible refine Frame.foldl _ (fun _ _ hF => ?_) _ ?_)
    | (intro _ hF; skip) | with_reducible assumption
    | (with_reducible refine Frame.ite (fun _ => ?_) (fun _ => ?_)) | split
    | fail_if_no_progress ((with_reducible apply Frame.fields); (case hq => rfl); (case hc => rfl))

theorem State.clearSend_frame {wt : Touch} {s0 s : State} (hw :
    ({ waitTx := true, portCtr := true, msgs := true, out := true } : Touch).or wt = wt)
    (hK : Frame wt s0 s) (p : Nat) (dest : Nat) (type : Nat) (body : List Byte) :
    Frame wt s0 (State.clearSend s p dest type body) := by
  refine Frame.step hK hw ?_
  unfold State.clearSend
  (try dsimp only)
  repeat' first
    | ((with_reducible show Touch.or _ _ = _) <;> rfl)
    | with_reducible (first | exact Frame.refl | apply State.keepMsg_frame | apply State.clearPut_frame)
    | (with_reducible refine Frame.foldl _ (fun _ _ hF => ?_) _ ?_)
    | (intro _ hF; skip) | with_reducible assumption
    | (with_reducible refine Frame.ite (fun _ => ?_) (fun _ => ?_)) | split
    | fail_if_no_progress ((with_reducible apply Frame.fields); (case hq => rfl); (case hc => rfl))

end Sys2Proof.Machine
end

