-- ==== Sys2Proof/Laws/FramePools.lean ====
section
/-! SUPPORT. What the operations of Pools may change. -/

set_option Elab.async false
set_option linter.all false

namespace Sys2Proof.Machine

theorem State.poolAlarm_frame {wt : Touch} {s0 s : State} (hw : 
    ({ pools := true, evt := true, telCtr := true, irq := true, out := true } : Touch).or wt = wt)
    (hK : Frame wt s0 s) (i : Nat) : Frame wt s0 (State.poolAlarm s i) := by
  refine Frame.step hK hw ?_
  unfold State.poolAlarm BufSt.setPool
  (try dsimp only)
  repeat' first
    | ((with_reducible show Touch.or _ _ = _) <;> rfl)
    | with_reducible (first | exact Frame.refl | apply State.raise_frame)
    | (with_reducible refine Frame.ite (fun _ => ?_) (fun _ => ?_)) | split
    | fail_if_no_progress ((with_reducible apply Frame.fields); (case hq => rfl); (case hc => rfl))

theorem State.poolAlloc_frame {wt : Touch} {s0 s : State} (hw : 
    ({ pools := true, bufCtr := true, evt := true, telCtr := true, irq := true, out := true } : Touch).or wt = wt)
    (hK : Frame wt s0 s) (size : Nat) : Frame wt s0 (State.poolAlloc s size).1 := by
  refine Frame.step hK hw ?_
  unfold State.poolAlloc BufSt.setPool
  (try dsimp only)
  repeat' first
    | ((with_reducible show Touch.or _ _ = _) <;> rfl)
    | with_reducible (first | exact Frame.refl | apply State.bumpBuf_frame | apply State.poolAlarm_frame)
    | (with_reducible refine Frame.ite (fun _ => ?_) (fun _ => ?_)) | split
    | fail_if_no_progress ((with_reducible apply Frame.fields); (case hq => rfl); (case hc => rfl))

theorem State.fillBuf_frame {wt : Touch} {s0 s : State} (hw :
    ({ pools := true } : Touch).or wt = wt)
    (hK : Frame wt s0 s) (ptr : Option Nat) (l : List Byte) :
    Frame wt s0 (State.fillBuf s ptr l) := by
  refine Frame.step hK hw ?_
  unfold State.fillBuf
  (try dsimp only)
  repeat' first
    | ((with_reducible show Touch.or _ _ = _) <;> rfl)
    | with_reducible exact Frame.refl
    | (with_reducible refine Frame.foldl _ (fun _ _ hF => ?_) _ ?_)
    | (intro _ hF; skip) | with_reducible assumption
    | (with_reducible refine Frame.ite (fun _ => ?_) (fun _ => ?_)) | split
    | fail_if_no_progress ((with_reducible apply Frame.fields); (case hq => rfl); (case hc => rfl))

theorem State.poolFree_frame {wt : Touch} {s0 s : State} (hw : 
    ({ pools := true, bufCtr := true, evt := true, telCtr := true, irq := true, out := true } : Touch).or wt = wt)
    (hK : Frame wt s0 s) (ptr : Nat) (block : Nat) : Frame wt s0 (State.poolFree s ptr block) := by
  refine Frame.step hK hw ?_
  unfold State.poolFree BufSt.setPool
  (try dsimp only)
  repeat' first
    | ((with_reducible show Touch.or _ _ = _) <;> rfl)
    | with_reducible (first | exact Frame.refl | apply State.bumpBuf_frame | apply State.raise_frame)
    | (with_reducible refine Frame.ite (fun _ => ?_) (fun _ => ?_)) | split
    | fail_if_no_progress ((with_reducible apply Frame.fields); (case hq => rfl); (case hc => rfl))

end Sys2Proof.Machine
end

