-- ==== Sys2Proof/Laws/FrameMailbox.lean ====
section
/-! SUPPORT. What the operations of Mailbox may change. -/

set_option Elab.async false
set_option linter.all false

namespace Sys2Proof.Machine

theorem countResp_ctr (w : TelSt) (fn : Nat) (x : Resp) : (w.countResp fn x).ctr = w.ctr := by
  unfold TelSt.countResp; split <;> rfl

theorem State.postBox_frame {wt : Touch} {s0 s : State} (hw : 
    ({ mbxCtr := true, boxes := true, irq := true, out := true } : Touch).or wt = wt) (hK : Frame wt s0 s) (b tag : Nat) (indirect : Bool) (addr : Nat) (x : Resp) : Frame wt s0 (s.postBox b tag indirect addr x) := by
  refine hK.step hw ?_
  obtain ⟨a, b', c, d, e, f, g, g'⟩ := quiet_parts (HostSt.setPending_quiet s.host s.ident.bifurcated (128 + b))
  have hr := countResp_rest s.tel (s.boxFn b) x
  simp only [TelSt.rest, TelSt.mk.injEq] at hr
  obtain ⟨r1, r2, r3, r4, r5, r6, r7, r8, r9, r10, r11, r12, r13, r14, r16⟩ := hr
  have r15 := countResp_ctr s.tel (s.boxFn b) x

  constructor <;> first
    | exact fun h => Bool.noConfusion h
    | exact fun _ => rfl
    | (intro _; (repeat' apply And.intro) <;> first | rfl | assumption)

theorem State.post_frame {wt : Touch} {s0 s : State} (hw : 
    ({ waitTx := true, portCtr := true, mbxCtr := true, boxes := true, peers := true, msgs := true,
       irq := true, out := true } : Touch).or wt = wt)
    (hK : Frame wt s0 s) (b : Nat) (tag : Nat) (indirect : Bool) (addr : Nat) (x : Resp) : Frame wt s0 (State.post s b
    tag indirect addr x) := by
  refine Frame.step hK hw ?_
  unfold State.post
  (try dsimp only)
  repeat' first
    | ((with_reducible show Touch.or _ _ = _) <;> rfl)
    | with_reducible (first | exact Frame.refl | apply State.domSend_frame | apply State.postBox_frame)
    | (with_reducible refine Frame.ite (fun _ => ?_) (fun _ => ?_))

theorem State.postReq_frame {wt : Touch} {s0 s : State} (hw : 
    ({ waitTx := true, portCtr := true, mbxCtr := true, boxes := true, peers := true, msgs := true,
       irq := true, out := true } : Touch).or wt = wt)
    (hK : Frame wt s0 s) (r : Req) (x : Resp) : Frame wt s0 (State.postReq s r x) := by
  refine Frame.step hK hw ?_
  unfold State.postReq
  (try dsimp only)
  repeat' first
    | ((with_reducible show Touch.or _ _ = _) <;> rfl)
    | with_reducible (first | exact Frame.refl | apply State.post_frame)

theorem State.protocolError_frame {wt : Touch} {s0 s : State} (hw : 
    ({ evt := true, telCtr := true, mbxCtr := true, irq := true, out := true } : Touch).or wt = wt)
    (hK : Frame wt s0 s) (b : Nat) (action : Nat) : Frame wt s0 (State.protocolError s b action) := by
  refine Frame.step hK hw ?_
  unfold State.protocolError
  (try dsimp only)
  repeat' first
    | ((with_reducible show Touch.or _ _ = _) <;> rfl)
    | with_reducible (first | exact Frame.refl | apply State.bumpMbx_frame | apply State.raise_frame)

theorem State.accept_frame {wt : Touch} {s0 s : State} (hw :
    ({ mbxCtr := true, boxes := true } : Touch).or wt = wt)
    (hK : Frame wt s0 s) (b : Nat) :
    Frame wt s0 (State.accept s b) := by
  refine Frame.step hK hw ?_
  unfold State.accept
  (try dsimp only)
  repeat' first
    | ((with_reducible show Touch.or _ _ = _) <;> rfl)
    | with_reducible (first | exact Frame.refl | apply State.bumpMbx_frame | apply State.updBox_frame)
    | (with_reducible refine Frame.foldl _ (fun _ _ hF => ?_) _ ?_)
    | (intro _ hF; skip) | with_reducible assumption
    | (with_reducible refine Frame.ite (fun _ => ?_) (fun _ => ?_)) | split
    | fail_if_no_progress ((with_reducible apply Frame.fields); (case hq => rfl); (case hc => rfl))

theorem State.recordTag_frame {wt : Touch} {s0 s : State} (hw : 
    ({ hist := true } : Touch).or wt = wt) (hK : Frame wt s0 s) (op : Nat) (r : Req)
    (x : Resp) : Frame wt s0 (s.recordTag op r x) := by
  refine hK.step hw ?_
  unfold State.recordTag MbxSt.record
  split
  · exact .refl
  · split <;> exact .ofView rfl

theorem State.postJob_frame {wt : Touch} {s0 s : State} (hw :
    ({ waitTx := true, portCtr := true, mbxCtr := true, boxes := true, peers := true, msgs := true,
       irq := true, out := true } : Touch).or wt = wt)
    (hK : Frame wt s0 s) (j : Job) (x : Resp) :
    Frame wt s0 (State.postJob s j x) := by
  refine Frame.step hK hw ?_
  unfold State.postJob
  (try dsimp only)
  repeat' first
    | ((with_reducible show Touch.or _ _ = _) <;> rfl)
    | with_reducible (first | exact Frame.refl | apply State.postReq_frame)
    | (with_reducible refine Frame.foldl _ (fun _ _ hF => ?_) _ ?_)
    | (intro _ hF; skip) | with_reducible assumption
    | (with_reducible refine Frame.ite (fun _ => ?_) (fun _ => ?_)) | split
    | fail_if_no_progress ((with_reducible apply Frame.fields); (case hq => rfl); (case hc => rfl))

theorem State.enqueue_frame {wt : Touch} {s0 s : State} (hw :
    ({ pools := true, bufCtr := true, waitTx := true, evt := true, telCtr := true, portCtr := true,
       mbxCtr := true, boxes := true, jobs := true, peers := true, msgs := true, irq := true,
       out := true } : Touch).or wt = wt)
    (hK : Frame wt s0 s) (j : Job) :
    Frame wt s0 (State.enqueue s j) := by
  refine Frame.step hK hw ?_
  unfold State.enqueue
  (try dsimp only)
  repeat' first
    | ((with_reducible show Touch.or _ _ = _) <;> rfl)
    | with_reducible (first
        | exact Frame.refl | apply State.postJob_frame | apply State.bumpMbx_frame | apply State.fillBuf_frame
        | apply State.poolAlloc_frame)
    | (with_reducible refine Frame.foldl _ (fun _ _ hF => ?_) _ ?_)
    | (intro _ hF; skip) | with_reducible assumption
    | (with_reducible refine Frame.ite (fun _ => ?_) (fun _ => ?_)) | split
    | fail_if_no_progress ((with_reducible apply Frame.fields); (case hq => rfl); (case hc => rfl))

theorem State.addWaiter_frame {wt : Touch} {s0 s : State} (hw : 
    ({ jobs := true } : Touch).or wt = wt)
    (hK : Frame wt s0 s) (r : Req) : Frame wt s0 (State.addWaiter s r) := by
  refine Frame.step hK hw ?_
  unfold State.addWaiter
  (try dsimp only)
  repeat' first
    | ((with_reducible show Touch.or _ _ = _) <;> rfl) | with_reducible exact Frame.refl | (intro _ hF; skip)
    | with_reducible assumption | (with_reducible refine Frame.ite (fun _ => ?_) (fun _ => ?_)) | split
    | fail_if_no_progress ((with_reducible apply Frame.fields); (case hq => rfl); (case hc => rfl))

theorem State.applyVerdict_frame {wt : Touch} {s0 s : State} (hw : 
    ({ pools := true, bufCtr := true, waitTx := true, evt := true, telCtr := true, portCtr := true,
       mbxCtr := true, boxes := true, jobs := true, hist := true, peers := true, msgs := true, irq := true,
       out := true } : Touch).or wt = wt) (h : Frame wt s0 s) (j : Job)
    (v : Verdict) : Frame wt s0 (s.applyVerdict j v).1 := by
  refine h.step hw ?_
  cases v with
  | refuse x record =>
    refine State.postJob_frame rfl ?_ j x
    split
    · exact State.recordTag_frame rfl .refl _ _ x
    · exact .refl
  | replay e => exact State.postJob_frame rfl .refl j _
  | wait t =>
    show Frame _ s (if _ then _ else _)
    split
    · exact State.addWaiter_frame rfl .refl _
    · exact .refl
  | accept => exact State.enqueue_frame rfl .refl j

theorem State.readPayload_frame {wt : Touch} {s0 s : State} (hw :
    ({ out := true } : Touch).or wt = wt)
    (hK : Frame wt s0 s) (op : Nat) (r : Req) :
    Frame wt s0 (State.readPayload s op r) := by
  refine Frame.step hK hw ?_
  unfold State.readPayload
  (try dsimp only)
  repeat' first
    | ((with_reducible show Touch.or _ _ = _) <;> rfl)
    | with_reducible (first | exact Frame.refl | apply State.emit_frame)
    | (with_reducible refine Frame.foldl _ (fun _ _ hF => ?_) _ ?_)
    | (intro _ hF; skip) | with_reducible assumption
    | (with_reducible refine Frame.ite (fun _ => ?_) (fun _ => ?_)) | split
    | fail_if_no_progress ((with_reducible apply Frame.fields); (case hq => rfl); (case hc => rfl))

theorem State.takeJob_frame {wt : Touch} {s0 s : State} (hw :
    ({ pools := true, bufCtr := true, waitTx := true, evt := true, telCtr := true, portCtr := true,
       mbxCtr := true, boxes := true, jobs := true, hist := true, peers := true, msgs := true, irq := true,
       out := true } : Touch).or wt = wt)
    (hK : Frame wt s0 s) (j : Job) : Frame wt s0 (State.takeJob s j).1 := by
  unfold State.takeJob
  exact State.applyVerdict_frame hw (State.readPayload_frame (Touch.le_trans rfl hw) hK _ _) j _

theorem State.submit_frame {wt : Touch} {s0 s : State} (hw : 
    ({ pools := true, bufCtr := true, waitTx := true, evt := true, telCtr := true, portCtr := true,
       mbxCtr := true, boxes := true, jobs := true, hist := true, peers := true, msgs := true, irq := true,
       out := true } : Touch).or wt = wt)
    (hK : Frame wt s0 s) (op : Nat) (r : Req) : Frame wt s0 (State.submit s op r).1 := by
  refine Frame.step hK hw ?_
  unfold State.submit
  (try dsimp only)
  repeat' first
    | ((with_reducible show Touch.or _ _ = _) <;> rfl)
    | with_reducible (first
        | exact Frame.refl | apply State.accept_frame | apply State.takeJob_frame | apply State.postReq_frame
        | apply State.protocolError_frame)
    | (with_reducible refine Frame.foldl _ (fun _ _ hF => ?_) _ ?_)
    | (intro _ hF; skip) | with_reducible assumption
    | (with_reducible refine Frame.ite (fun _ => ?_) (fun _ => ?_)) | split
    | fail_if_no_progress ((with_reducible apply Frame.fields); (case hq => rfl); (case hc => rfl))

theorem State.postWaiters_frame {wt : Touch} {s0 s : State} (hw : 
    ({ waitTx := true, portCtr := true, mbxCtr := true, boxes := true, peers := true, msgs := true,
       irq := true, out := true } : Touch).or wt = wt) (h : Frame wt s0 s) (tag : Nat) (x : Resp)
    (l : List (Nat × Bool × Nat)) : Frame wt s0 (s.postWaiters tag x l) := by
  refine h.step hw ?_
  clear h
  induction l generalizing s with
  | nil => exact .refl
  | cons w l ih => exact Frame.trans (State.post_frame rfl .refl _ _ _ _ _) (ih ..)

theorem State.freeBuf_frame {wt : Touch} {s0 s : State} (hw : 
    ({ pools := true, bufCtr := true, evt := true, telCtr := true, irq := true, out := true } : Touch).or wt = wt)
    (hK : Frame wt s0 s) (b : Option Nat) : Frame wt s0 (State.freeBuf s b) := by
  refine Frame.step hK hw ?_
  unfold State.freeBuf
  (try dsimp only)
  repeat' first
    | ((with_reducible show Touch.or _ _ = _) <;> rfl)
    | with_reducible (first | exact Frame.refl | apply State.poolFree_frame) | split

theorem State.asyncDone_frame {wt : Touch} {s0 s : State} (hw : 
    ({ evt := true, telCtr := true, irq := true, out := true } : Touch).or wt = wt)
    (hK : Frame wt s0 s) (op : Nat) (r : Req) (x : Resp) : Frame wt s0 (State.asyncDone s op r x) := by
  refine Frame.step hK hw ?_
  unfold State.asyncDone
  (try dsimp only)
  repeat' first
    | ((with_reducible show Touch.or _ _ = _) <;> rfl)
    | with_reducible (first | exact Frame.refl | apply State.raise_frame)

theorem State.answerJob_frame {wt : Touch} {s0 s : State} (hw : 
    ({ waitTx := true, evt := true, telCtr := true, portCtr := true, mbxCtr := true, boxes := true,
       peers := true, msgs := true, irq := true, out := true } : Touch).or wt = wt)
    (hK : Frame wt s0 s) (j : Job) (x : Resp) : Frame wt s0 (State.answerJob s j x) := by
  refine Frame.step hK hw ?_
  unfold State.answerJob
  (try dsimp only)
  repeat' first
    | ((with_reducible show Touch.or _ _ = _) <;> rfl)
    | with_reducible (first | exact Frame.refl | apply State.asyncDone_frame | apply State.postReq_frame)
    | (with_reducible refine Frame.ite (fun _ => ?_) (fun _ => ?_))

theorem State.endJob_frame {wt : Touch} {s0 s : State} (hw : 
    ({ pools := true, bufCtr := true, waitTx := true, evt := true, telCtr := true, portCtr := true,
       mbxCtr := true, boxes := true, jobs := true, hist := true, peers := true, msgs := true, irq := true,
       out := true } : Touch).or wt = wt)
    (hK : Frame wt s0 s) (j : Job) (rest : List Job) (x : Resp) : Frame wt s0 (State.endJob s j rest x) := by
  refine Frame.step hK hw ?_
  unfold State.endJob
  (try dsimp only)
  repeat' first
    | ((with_reducible show Touch.or _ _ = _) <;> rfl)
    | with_reducible (first
        | exact Frame.refl | apply State.answerJob_frame | apply State.freeBuf_frame | apply State.postWaiters_frame
        | apply State.recordTag_frame)
    | split | fail_if_no_progress ((with_reducible apply Frame.fields); (case hq => rfl); (case hc => rfl))

theorem State.endOldest_frame {wt : Touch} {s0 s : State} (hw :
    ({ pools := true, bufCtr := true, waitTx := true, evt := true, telCtr := true, portCtr := true,
       mbxCtr := true, boxes := true, jobs := true, hist := true, peers := true, msgs := true, irq := true,
       out := true } : Touch).or wt = wt)
    (hK : Frame wt s0 s) (op : Nat) (r : Req) (run : Bool) (x : Resp) :
    Frame wt s0 (State.endOldest s op r run x) := by
  refine Frame.step hK hw ?_
  unfold State.endOldest
  (try dsimp only)
  repeat' first
    | ((with_reducible show Touch.or _ _ = _) <;> rfl)
    | with_reducible (first | exact Frame.refl | apply State.endJob_frame)
    | (with_reducible refine Frame.foldl _ (fun _ _ hF => ?_) _ ?_)
    | (intro _ hF; skip) | with_reducible assumption
    | (with_reducible refine Frame.ite (fun _ => ?_) (fun _ => ?_)) | split
    | fail_if_no_progress ((with_reducible apply Frame.fields); (case hq => rfl); (case hc => rfl))

theorem State.complete_frame {wt : Touch} {s0 s : State} (hw : 
    ({ pools := true, bufCtr := true, waitTx := true, evt := true, telCtr := true, portCtr := true,
       mbxCtr := true, boxes := true, jobs := true, hist := true, peers := true, msgs := true, irq := true,
       out := true } : Touch).or wt = wt)
    (hK : Frame wt s0 s) (op : Nat) (r : Req) (x : Resp) : Frame wt s0 (State.complete s op r x) := by
  refine Frame.step hK hw ?_
  unfold State.complete
  (try dsimp only)
  repeat' first
    | ((with_reducible show Touch.or _ _ = _) <;> rfl)
    | with_reducible (first | exact Frame.refl | apply State.endJob_frame | apply State.endOldest_frame) | (intro _ hF; skip)
    | with_reducible assumption | split

theorem State.completeNow_frame {wt : Touch} {s0 s : State} (hw : 
    ({ pools := true, bufCtr := true, waitTx := true, evt := true, telCtr := true, portCtr := true,
       mbxCtr := true, boxes := true, jobs := true, hist := true, peers := true, msgs := true, irq := true,
       out := true } : Touch).or wt = wt)
    (hK : Frame wt s0 s) (op : Nat) (r : Req) (x : Resp) : Frame wt s0 (State.completeNow s op r x) := by
  refine Frame.step hK hw ?_
  unfold State.completeNow
  (try dsimp only)
  repeat' first
    | ((with_reducible show Touch.or _ _ = _) <;> rfl)
    | with_reducible (first | exact Frame.refl | apply State.endJob_frame | apply State.endOldest_frame) | (intro _ hF; skip)
    | with_reducible assumption | split

theorem State.markRunning_frame {wt : Touch} {s0 s : State} (hw : 
    ({ jobs := true } : Touch).or wt = wt)
    (hK : Frame wt s0 s) (op : Nat) (r : Req) : Frame wt s0 (State.markRunning s op r) := by
  refine Frame.step hK hw ?_
  unfold State.markRunning
  (try dsimp only)
  repeat' first
    | ((with_reducible show Touch.or _ _ = _) <;> rfl) | with_reducible exact Frame.refl | (intro _ hF; skip)
    | with_reducible assumption | (with_reducible refine Frame.ite (fun _ => ?_) (fun _ => ?_)) | split
    | fail_if_no_progress ((with_reducible apply Frame.fields); (case hq => rfl); (case hc => rfl))

theorem State.runJob_frame {wt : Touch} {s0 s : State} (hw : 
    ({ pools := true, bufCtr := true, waitTx := true, evt := true, telCtr := true, portCtr := true,
       mbxCtr := true, boxes := true, jobs := true, hist := true, peers := true, msgs := true, irq := true,
       out := true } : Touch).or wt = wt) (h : Frame wt s0 s) (op : Nat) (r : Req) (body : Body)
    (hb : ∀ b, Frame wt b (body r b).1) : Frame wt s0 (s.runJob op r body) := by
  unfold State.runJob
  split
  · exact State.completeNow_frame (Touch.le_trans rfl hw) (h.trans (hb s)) op r _
  · split
    · exact h.trans (hb s)
    · exact State.markRunning_frame (Touch.le_trans rfl hw) (h.trans (hb s)) op r

theorem State.command_frame {wt : Touch} {s0 s : State} (hw : 
    ({ pools := true, bufCtr := true, waitTx := true, evt := true, telCtr := true, portCtr := true,
       mbxCtr := true, boxes := true, jobs := true, hist := true, peers := true, msgs := true, irq := true,
       out := true } : Touch).or wt = wt) (h : Frame wt s0 s) (op : Nat) (r : Req)
    (body : Body) (hb : ∀ b, Frame wt b (body r b).1) : Frame wt s0 (s.command op r body) := by
  unfold State.command
  split
  · split
    · exact h
    · exact State.runJob_frame hw h op r body hb
  · split
    · exact State.runJob_frame hw (State.submit_frame (Touch.le_trans rfl hw) h op r) op r body hb
    · exact State.submit_frame (Touch.le_trans rfl hw) h op r

/-- A mailbox command changes what its body changes, and mail. -/
theorem mailboxCommand_frame {wt : Touch} {op : Nat} {body : Body} {r : Req} {s : State} (hw : 
    ({ pools := true, bufCtr := true, waitTx := true, evt := true, telCtr := true, portCtr := true,
       mbxCtr := true, boxes := true, jobs := true, hist := true, peers := true, msgs := true, irq := true,
       out := true } : Touch).or wt = wt)
    (hb : ∀ b, Frame wt b (body r b).1) : OutFrame wt s (mailboxCommand op body r s) := by
  unfold mailboxCommand
  split
  · exact OutFrame.next (State.command_frame hw .refl op r body hb)
  · exact OutFrame.fault _ _

theorem readCmd_frame {wt : Touch} {s0 s : State} (hw : ({} : Touch).or wt = wt)
    (hK : Frame wt s0 s) (f : Req → State → Resp) (r : Req) : Frame wt s0 (readCmd f r s).1 := by
  refine Frame.step hK hw ?_
  unfold readCmd
  (try dsimp only)
  repeat' first
    | ((with_reducible show Touch.or _ _ = _) <;> rfl) | with_reducible exact Frame.refl | (intro _ hF; skip)

theorem okCmd_frame {wt : Touch} {s0 s : State} (hw : ({} : Touch).or wt = wt)
    (hK : Frame wt s0 s) (p : List Byte) : Frame wt s0 (okCmd s p).1 := by
  refine Frame.step hK hw ?_
  unfold okCmd
  (try dsimp only)
  repeat' first
    | ((with_reducible show Touch.or _ _ = _) <;> rfl) | with_reducible exact Frame.refl

theorem errCmd_frame {wt : Touch} {s0 s : State} (hw : ({} : Touch).or wt = wt)
    (hK : Frame wt s0 s) (status : Nat) (detail : Nat) : Frame wt s0 (errCmd s status detail).1 := by
  refine Frame.step hK hw ?_
  unfold errCmd
  (try dsimp only)
  repeat' first
    | ((with_reducible show Touch.or _ _ = _) <;> rfl) | with_reducible exact Frame.refl

theorem State.stage_frame {wt : Touch} {s0 s : State} (hw : 
    ({ sets := true } : Touch).or wt = wt)
    (hK : Frame wt s0 s) (op : Nat) (r : Req) (okPayload : List Byte) : Frame wt s0 (State.stage s op r okPayload).1
    := by
  refine Frame.step hK hw ?_
  unfold State.stage
  (try dsimp only)
  repeat' first
    | ((with_reducible show Touch.or _ _ = _) <;> rfl)
    | with_reducible (first | exact Frame.refl | apply errCmd_frame | apply okCmd_frame) | (intro _ hF; skip)
    | with_reducible assumption | (with_reducible refine Frame.ite (fun _ => ?_) (fun _ => ?_)) | split
    | fail_if_no_progress ((with_reducible apply Frame.fields); (case hq => rfl); (case hc => rfl))

theorem State.shadow_frame {wt : Touch} {s0 s : State} (hw : 
    ({ snapshot := true, heldShadow := true } : Touch).or wt = wt)
    (hK : Frame wt s0 s) (op : Nat) (p : List Byte) : Frame wt s0 (State.shadow s op p) :=
  hK.step hw (.ofView rfl)

theorem State.dropHeld_frame {wt : Touch} {s0 s : State} (hw : 
    ({ heldShadow := true } : Touch).or wt = wt)
    (hK : Frame wt s0 s) : Frame wt s0 (State.dropHeld s) :=
  hK.step hw (.ofView rfl)

theorem setCmd_frame {wt : Touch} {op : Nat} {check : List Byte → State → Option (Nat × Nat)}
    {apply : List Byte → State → State} (hw : 
    ({ sets := true, snapshot := true, heldShadow := true } : Touch).or wt = wt) (ha : ∀ p s, Frame wt s (apply p s)) (r : Req) (s : State) :
    Frame wt s (setCmd op check apply r s).1 := by
  unfold setCmd
  split
  · exact State.stage_frame (Touch.le_trans rfl hw) .refl op r []
  · split
    · exact .refl
    · exact State.shadow_frame (Touch.le_trans rfl hw) (ha r.payload s) op r.payload

end Sys2Proof.Machine
end

