-- ==== Sys2Proof/Laws/FrameMemory.lean ====
section
/-! SUPPORT. What the operations of Memory may change. -/

set_option Elab.async false
set_option linter.all false

namespace Sys2Proof.Machine

theorem State.endSpill_frame {wt : Touch} {s0 s : State} (hw :
    ({ spillVoqs := true } : Touch).or wt = wt)
    (hK : Frame wt s0 s)  :
    Frame wt s0 (State.endSpill s) := by
  refine Frame.step hK hw ?_
  unfold State.endSpill
  (try dsimp only)
  repeat' first
    | ((with_reducible show Touch.or _ _ = _) <;> rfl)
    | with_reducible exact Frame.refl
    | (with_reducible refine Frame.foldl _ (fun _ _ hF => ?_) _ ?_)
    | (intro _ hF; skip) | with_reducible assumption
    | (with_reducible refine Frame.ite (fun _ => ?_) (fun _ => ?_)) | split
    | fail_if_no_progress ((with_reducible apply Frame.fields); (case hq => rfl); (case hc => rfl))

theorem applyMemSetRegions_frame {wt : Touch} {s0 s : State} (hw :
    ({ spillVoqs := true, regions := true } : Touch).or wt = wt)
    (hK : Frame wt s0 s) (p : List Byte) :
    Frame wt s0 (applyMemSetRegions p s) := by
  refine Frame.step hK hw ?_
  unfold applyMemSetRegions
  (try dsimp only)
  repeat' first
    | ((with_reducible show Touch.or _ _ = _) <;> rfl)
    | with_reducible (first | exact Frame.refl | apply State.endSpill_frame)
    | (with_reducible refine Frame.foldl _ (fun _ _ hF => ?_) _ ?_)
    | (intro _ hF; skip) | with_reducible assumption
    | (with_reducible refine Frame.ite (fun _ => ?_) (fun _ => ?_)) | split
    | fail_if_no_progress ((with_reducible apply Frame.fields); (case hq => rfl); (case hc => rfl))

theorem memGetMapBody_frame {wt : Touch} {s0 s : State} (hw : ({} : Touch).or wt = wt)
    (hK : Frame wt s0 s) (r : Req) : Frame wt s0 (memGetMapBody r s).1 := by
  refine Frame.step hK hw ?_
  unfold memGetMapBody
  (try dsimp only)
  repeat' first
    | ((with_reducible show Touch.or _ _ = _) <;> rfl)
    | with_reducible (first | exact Frame.refl | apply readCmd_frame) | (intro _ hF; skip)

theorem memSetRegionsBody_frame {wt : Touch} {s0 s : State} (hw : 
    ({ spillVoqs := true, sets := true, snapshot := true, heldShadow := true, regions := true } : Touch).or wt = wt)
    (hK : Frame wt s0 s) (r : Req) : Frame wt s0 (memSetRegionsBody r s).1 := by
  refine Frame.step hK hw ?_
  unfold memSetRegionsBody
  (try dsimp only)
  repeat' first
    | ((with_reducible show Touch.or _ _ = _) <;> rfl) | with_reducible exact Frame.refl
    | exact setCmd_frame rfl (fun p _ => applyMemSetRegions_frame rfl .refl p) r _

theorem memGetHealthBody_frame {wt : Touch} {s0 s : State} (hw : ({} : Touch).or wt = wt)
    (hK : Frame wt s0 s) (r : Req) : Frame wt s0 (memGetHealthBody r s).1 := by
  refine Frame.step hK hw ?_
  unfold memGetHealthBody
  (try dsimp only)
  repeat' first
    | ((with_reducible show Touch.or _ _ = _) <;> rfl)
    | with_reducible (first | exact Frame.refl | apply readCmd_frame) | (intro _ hF; skip)

theorem execMemGetMap_frame (r : Req) (s : State) : OutFrame 
    ({ pools := true, bufCtr := true, waitTx := true, evt := true, telCtr := true, portCtr := true,
       mbxCtr := true, boxes := true, jobs := true, hist := true, peers := true, msgs := true, irq := true,
       out := true } : Touch) s (execMemGetMap r s) := 
  mailboxCommand_frame rfl (fun _ => memGetMapBody_frame rfl .refl r)

theorem execMemSetRegions_frame (r : Req) (s : State) : OutFrame 
    ({ spillVoqs := true, pools := true, bufCtr := true, waitTx := true, evt := true, telCtr := true,
       portCtr := true, mbxCtr := true, boxes := true, jobs := true, hist := true, sets := true,
       snapshot := true, heldShadow := true, peers := true, msgs := true, regions := true, irq := true,
       out := true } : Touch) s (execMemSetRegions r s) := 
  mailboxCommand_frame rfl (fun _ => memSetRegionsBody_frame rfl .refl r)

theorem execMemGetHealth_frame (r : Req) (s : State) : OutFrame 
    ({ pools := true, bufCtr := true, waitTx := true, evt := true, telCtr := true, portCtr := true,
       mbxCtr := true, boxes := true, jobs := true, hist := true, peers := true, msgs := true, irq := true,
       out := true } : Touch) s (execMemGetHealth r s) := 
  mailboxCommand_frame rfl (fun _ => memGetHealthBody_frame rfl .refl r)

end Sys2Proof.Machine
end

