-- ==== Sys2Proof/Laws/FrameTables.lean ====
section
/-! SUPPORT. What the operations of Tables may change. -/

set_option Elab.async false
set_option linter.all false

namespace Sys2Proof.Machine

/-- What inserting, removing and moving exact-match entries leaves alone. -/
def FwdSt.rest (f : FwdSt) : FwdSt := { f with em := [], learnedOn := [], ctr := [] }

/-- What normalising and preparing leaves alone. -/
def FwdSt.base (f : FwdSt) : FwdSt :=
  { f.rest with gen0 := GenTables.init, gen1 := GenTables.init, gen := 0, normPending := false }

theorem FwdSt.base_of_rest {f g : FwdSt} (h : g.rest = f.rest) : g.base = f.base := by
  unfold FwdSt.base; rw [h]

theorem Frame.setFwd {wt : Touch} {s0 s : State} {f : FwdSt} (hw : ({ em := true, fwdCtr := true } : Touch).or wt = wt)
    (hK : Frame wt s0 s) (h : f.rest = s.fwd.rest) : Frame wt s0 { s with fwd := f } := by
  refine hK.step hw ?_
  simp only [FwdSt.rest, FwdSt.mk.injEq] at h
  constructor <;> first
    | exact fun h => Bool.noConfusion h
    | exact fun _ => rfl
    | (intro _; (repeat' apply And.intro) <;> first | rfl | tauto)

theorem Frame.setFwd2 {wt : Touch} {s0 s : State} {f : FwdSt}
    (hw : ({ gens := true, em := true, fwdCtr := true } : Touch).or wt = wt)
    (hK : Frame wt s0 s) (h : f.base = s.fwd.base) : Frame wt s0 { s with fwd := f } := by
  refine hK.step hw ?_
  simp only [FwdSt.base, FwdSt.rest, FwdSt.mk.injEq] at h
  constructor <;> first
    | exact fun h => Bool.noConfusion h
    | exact fun _ => rfl
    | (intro _; (repeat' apply And.intro) <;> first | rfl | tauto)

@[simp] theorem FwdSt.updEntry_rest (f : FwdSt) (p : Nat) (g : EmEntry → EmEntry) : (f.updEntry p g).rest = f.rest := rfl

@[simp] theorem FwdSt.learnedAdd_rest (f : FwdSt) (p : Nat) (n : Int) : (f.learnedAdd p n).rest = f.rest := rfl

@[simp] theorem FwdSt.drainOne_rest (f : FwdSt) (p : Nat) (e : EmEntry) : (f.drainOne p e).rest = f.rest := by
  unfold FwdSt.drainOne
  repeat' split
  all_goals rfl

theorem FwdSt.foldl_rest {α : Type} (g : FwdSt → α → FwdSt) (hg : ∀ f a, (g f a).rest = f.rest) (l : List α) (f : FwdSt) :
    (l.foldl g f).rest = f.rest := by
  induction l generalizing f with
  | nil => rfl
  | cons a l ih => rw [List.foldl_cons, ih, hg]

@[simp] theorem FwdSt.drainStash_rest (f : FwdSt) : f.drainStash.rest = f.rest :=
  FwdSt.foldl_rest _ (fun _ _ => FwdSt.drainOne_rest _ _ _) _ _

@[simp] theorem FwdSt.removeAt_rest (f : FwdSt) (p : Nat) : (f.removeAt p).rest = f.rest := by
  unfold FwdSt.removeAt
  dsimp only
  repeat' split
  all_goals rfl

theorem FwdSt.insertEntry_rest {f : FwdSt} {e : EmEntry} {x : FwdSt × Placed} (h : f.insertEntry e = some x) :
    x.1.rest = f.rest := by
  unfold FwdSt.insertEntry at h
  cases hp : f.place e with
  | none => rw [hp] at h; cases h
  | some p => rw [hp] at h; cases h; rfl

@[simp] theorem FwdSt.updGen_base (f : FwdSt) (g : Nat) (h : GenTables → GenTables) : (f.updGen g h).base = f.base := by
  unfold FwdSt.updGen; split <;> rfl

theorem State.liveGen_frame {wt : Touch} {s0 s : State} (hw : 
    ({ gens := true } : Touch).or wt = wt)
    (hK : Frame wt s0 s) (op : Nat) (p : List Byte) (h : GenTables → GenTables) : Frame wt s0 (State.liveGen s op p h)
    := by
  refine Frame.step hK hw ?_
  unfold State.liveGen FwdSt.updGen
  (try dsimp only)
  repeat' first
    | ((with_reducible show Touch.or _ _ = _) <;> rfl) | with_reducible exact Frame.refl
    | (with_reducible refine Frame.ite (fun _ => ?_) (fun _ => ?_)) | split
    | fail_if_no_progress ((with_reducible apply Frame.fields); (case hq => rfl); (case hc => rfl))

end Sys2Proof.Machine
end

