-- ==== Sys2Proof/Laws/FramePrism.lean ====
section
/-! SUPPORT. What the operations of Prism may change. -/

set_option Elab.async false
set_option linter.all false

namespace Sys2Proof.Machine

theorem State.liveRule1_frame {wt : Touch} {s0 s : State} (hw : 
    ({ prismBanks := true, prismCtr := true } : Touch).or wt = wt) (hK : Frame wt s0 s) (idx : Nat) (u : Rule) (slice : Nat) : Frame wt s0 (s.liveRule1 idx u slice) := by
  refine hK.step hw ?_
  unfold State.liveRule1
  refine State.bumpPrism_frame rfl ?_ _ _ _
  unfold PrismSt.updBank
  repeat' split
  all_goals exact .ofView rfl

theorem applyPrismWriteRule_frame {wt : Touch} {s0 s : State} (hw : 
    ({ prismBanks := true, prismCtr := true } : Touch).or wt = wt)
    (hK : Frame wt s0 s) (p : List Byte) : Frame wt s0 (applyPrismWriteRule p s) := by
  refine Frame.step hK hw ?_
  unfold applyPrismWriteRule
  (try dsimp only)
  repeat' first
    | ((with_reducible show Touch.or _ _ = _) <;> rfl)
    | with_reducible (first | exact Frame.refl | apply State.liveRule1_frame)
    | (with_reducible refine Frame.foldl _ (fun _ _ hF => ?_) _ ?_) | (intro _ hF; skip) | with_reducible assumption

theorem applyPrismSetPort_frame {wt : Touch} {s0 s : State} (hw : 
    ({ prismBanks := true } : Touch).or wt = wt)
    (hK : Frame wt s0 s) (p : List Byte) : Frame wt s0 (applyPrismSetPort p s) := by
  refine Frame.step hK hw ?_
  unfold applyPrismSetPort PrismSt.updBank
  (try dsimp only)
  repeat' first
    | ((with_reducible show Touch.or _ _ = _) <;> rfl) | with_reducible exact Frame.refl | (intro _ hF; skip)
    | with_reducible assumption | (with_reducible refine Frame.ite (fun _ => ?_) (fun _ => ?_)) | split
    | fail_if_no_progress ((with_reducible apply Frame.fields); (case hq => rfl); (case hc => rfl))

theorem prismSetProfileBody_frame {wt : Touch} {s0 s : State} (hw : 
    ({ sets := true, snapshot := true, heldShadow := true } : Touch).or wt = wt)
    (hK : Frame wt s0 s) (r : Req) : Frame wt s0 (prismSetProfileBody r s).1 := by
  refine Frame.step hK hw ?_
  unfold prismSetProfileBody
  (try dsimp only)
  repeat' first
    | ((with_reducible show Touch.or _ _ = _) <;> rfl) | with_reducible exact Frame.refl
    | exact setCmd_frame rfl (fun _ _ => .refl) r _ | (intro _ hF; skip)

theorem prismSetSelectBody_frame {wt : Touch} {s0 s : State} (hw : 
    ({ sets := true, snapshot := true, heldShadow := true } : Touch).or wt = wt)
    (hK : Frame wt s0 s) (r : Req) : Frame wt s0 (prismSetSelectBody r s).1 := by
  refine Frame.step hK hw ?_
  unfold prismSetSelectBody
  (try dsimp only)
  repeat' first
    | ((with_reducible show Touch.or _ _ = _) <;> rfl) | with_reducible exact Frame.refl
    | exact setCmd_frame rfl (fun _ _ => .refl) r _ | (intro _ hF; skip)

theorem prismSetPortBody_frame {wt : Touch} {s0 s : State} (hw : 
    ({ prismBanks := true, sets := true, snapshot := true, heldShadow := true } : Touch).or wt = wt)
    (hK : Frame wt s0 s) (r : Req) : Frame wt s0 (prismSetPortBody r s).1 := by
  refine Frame.step hK hw ?_
  unfold prismSetPortBody
  (try dsimp only)
  repeat' first
    | ((with_reducible show Touch.or _ _ = _) <;> rfl) | with_reducible exact Frame.refl
    | exact setCmd_frame rfl (fun p _ => applyPrismSetPort_frame rfl .refl p) r _

theorem prismWriteRuleBody_frame {wt : Touch} {s0 s : State} (hw : 
    ({ prismBanks := true, prismCtr := true, sets := true, snapshot := true, heldShadow := true } : Touch).or wt = wt)
    (hK : Frame wt s0 s) (r : Req) : Frame wt s0 (prismWriteRuleBody r s).1 := by
  refine Frame.step hK hw ?_
  unfold prismWriteRuleBody
  (try dsimp only)
  repeat' first
    | ((with_reducible show Touch.or _ _ = _) <;> rfl) | with_reducible exact Frame.refl
    | exact setCmd_frame rfl (fun p _ => applyPrismWriteRule_frame rfl .refl p) r _

theorem prismReadRuleBody_frame {wt : Touch} {s0 s : State} (hw : ({} : Touch).or wt = wt)
    (hK : Frame wt s0 s) (r : Req) : Frame wt s0 (prismReadRuleBody r s).1 := by
  refine Frame.step hK hw ?_
  unfold prismReadRuleBody
  (try dsimp only)
  repeat' first
    | ((with_reducible show Touch.or _ _ = _) <;> rfl)
    | with_reducible (first | exact Frame.refl | apply readCmd_frame) | (intro _ hF; skip)

theorem prismGetCountersBody_frame {wt : Touch} {s0 s : State} (hw : ({} : Touch).or wt = wt)
    (hK : Frame wt s0 s) (r : Req) : Frame wt s0 (prismGetCountersBody r s).1 := by
  refine Frame.step hK hw ?_
  unfold prismGetCountersBody
  (try dsimp only)
  repeat' first
    | ((with_reducible show Touch.or _ _ = _) <;> rfl)
    | with_reducible (first | exact Frame.refl | apply readCmd_frame) | (intro _ hF; skip)

theorem prismGetRuleCountersBody_frame {wt : Touch} {s0 s : State} (hw : ({} : Touch).or wt = wt)
    (hK : Frame wt s0 s) (r : Req) : Frame wt s0 (prismGetRuleCountersBody r s).1 := by
  refine Frame.step hK hw ?_
  unfold prismGetRuleCountersBody
  (try dsimp only)
  repeat' first
    | ((with_reducible show Touch.or _ _ = _) <;> rfl)
    | with_reducible (first | exact Frame.refl | apply readCmd_frame) | (intro _ hF; skip)

theorem prismGetEpochBody_frame {wt : Touch} {s0 s : State} (hw : ({} : Touch).or wt = wt)
    (hK : Frame wt s0 s) (r : Req) : Frame wt s0 (prismGetEpochBody r s).1 := by
  refine Frame.step hK hw ?_
  unfold prismGetEpochBody
  (try dsimp only)
  repeat' first
    | ((with_reducible show Touch.or _ _ = _) <;> rfl)
    | with_reducible (first | exact Frame.refl | apply readCmd_frame) | (intro _ hF; skip)

theorem execPrismSetProfile_frame (r : Req) (s : State) : OutFrame 
    ({ pools := true, bufCtr := true, waitTx := true, evt := true, telCtr := true, portCtr := true,
       mbxCtr := true, boxes := true, jobs := true, hist := true, sets := true, snapshot := true,
       heldShadow := true, peers := true, msgs := true, irq := true, out := true } : Touch) s (execPrismSetProfile r s) := 
  mailboxCommand_frame rfl (fun _ => prismSetProfileBody_frame rfl .refl r)

theorem execPrismSetSelect_frame (r : Req) (s : State) : OutFrame 
    ({ pools := true, bufCtr := true, waitTx := true, evt := true, telCtr := true, portCtr := true,
       mbxCtr := true, boxes := true, jobs := true, hist := true, sets := true, snapshot := true,
       heldShadow := true, peers := true, msgs := true, irq := true, out := true } : Touch) s (execPrismSetSelect r s) := 
  mailboxCommand_frame rfl (fun _ => prismSetSelectBody_frame rfl .refl r)

theorem execPrismSetPort_frame (r : Req) (s : State) : OutFrame 
    ({ prismBanks := true, pools := true, bufCtr := true, waitTx := true, evt := true, telCtr := true,
       portCtr := true, mbxCtr := true, boxes := true, jobs := true, hist := true, sets := true,
       snapshot := true, heldShadow := true, peers := true, msgs := true, irq := true,
       out := true } : Touch) s (execPrismSetPort r s) := 
  mailboxCommand_frame rfl (fun _ => prismSetPortBody_frame rfl .refl r)

theorem execPrismWriteRule_frame (r : Req) (s : State) : OutFrame 
    ({ prismBanks := true, pools := true, bufCtr := true, waitTx := true, evt := true, telCtr := true,
       portCtr := true, prismCtr := true, mbxCtr := true, boxes := true, jobs := true, hist := true,
       sets := true, snapshot := true, heldShadow := true, peers := true, msgs := true, irq := true,
       out := true } : Touch) s (execPrismWriteRule r s)
    :=
  mailboxCommand_frame rfl (fun _ => prismWriteRuleBody_frame rfl .refl r)

theorem execPrismReadRule_frame (r : Req) (s : State) : OutFrame 
    ({ pools := true, bufCtr := true, waitTx := true, evt := true, telCtr := true, portCtr := true,
       mbxCtr := true, boxes := true, jobs := true, hist := true, peers := true, msgs := true, irq := true,
       out := true } : Touch) s (execPrismReadRule r s) := 
  mailboxCommand_frame rfl (fun _ => prismReadRuleBody_frame rfl .refl r)

theorem execPrismGetCounters_frame (r : Req) (s : State) : OutFrame 
    ({ pools := true, bufCtr := true, waitTx := true, evt := true, telCtr := true, portCtr := true,
       mbxCtr := true, boxes := true, jobs := true, hist := true, peers := true, msgs := true, irq := true,
       out := true } : Touch) s (execPrismGetCounters r s) := 
  mailboxCommand_frame rfl (fun _ => prismGetCountersBody_frame rfl .refl r)

theorem execPrismGetRuleCounters_frame (r : Req) (s : State) : OutFrame 
    ({ pools := true, bufCtr := true, waitTx := true, evt := true, telCtr := true, portCtr := true,
       mbxCtr := true, boxes := true, jobs := true, hist := true, peers := true, msgs := true, irq := true,
       out := true } : Touch) s (execPrismGetRuleCounters r s)
    :=
  mailboxCommand_frame rfl (fun _ => prismGetRuleCountersBody_frame rfl .refl r)

theorem execPrismGetEpoch_frame (r : Req) (s : State) : OutFrame 
    ({ pools := true, bufCtr := true, waitTx := true, evt := true, telCtr := true, portCtr := true,
       mbxCtr := true, boxes := true, jobs := true, hist := true, peers := true, msgs := true, irq := true,
       out := true } : Touch) s (execPrismGetEpoch r s) := 
  mailboxCommand_frame rfl (fun _ => prismGetEpochBody_frame rfl .refl r)

end Sys2Proof.Machine
end

