-- ==== Sys2Proof/Laws/FrameForwarding.lean ====
section
/-! SUPPORT. What the operations of Forwarding may change. -/

set_option Elab.async false
set_option linter.all false

namespace Sys2Proof.Machine

theorem FwdSt.flush_rest (f : FwdSt) (p : List Byte) : (f.flush p).rest = f.rest := by
  unfold FwdSt.flush
  rw [FwdSt.drainStash_rest]
  exact FwdSt.foldl_rest _ (fun _ _ => FwdSt.removeAt_rest _ _) _ _

theorem FwdSt.stationMove_rest (f : FwdSt) (q : Nat) (e : EmEntry) (v : LearnEv) (w : BitVec 64) :
    (f.stationMove q e v w).rest = f.rest := by
  unfold FwdSt.stationMove
  dsimp only
  split <;> rfl

theorem FwdSt.visit_rest (f : FwdSt) (q : Nat) (e : EmEntry) : (f.visit q e).rest = f.rest := by
  unfold FwdSt.visit
  split
  · rfl
  · split
    · show ((f.removeAt q).drainStash).rest = f.rest
      simp
    · rfl

theorem FwdSt.restore_rest (f : FwdSt) (q : Nat) (e : EmEntry) : (f.restore q e).rest = f.rest := by
  unfold FwdSt.restore
  dsimp only
  split
  · split
    · next h => rw [FwdSt.insertEntry_rest h]; simp
    · simp
  · simp

theorem FwdSt.normalise_base (f : FwdSt) : f.normalise.base = f.base := by
  unfold FwdSt.normalise
  dsimp only
  have hg : ((f.em.filter (fun x => x.2.vis == 2 ^ (1 - f.gen))).foldl (fun h x => h.removeAt x.1) f).rest = f.rest :=
    FwdSt.foldl_rest _ (fun _ _ => FwdSt.removeAt_rest _ _) _ _
  rw [FwdSt.base_of_rest (FwdSt.drainStash_rest _)]
  have hb := FwdSt.base_of_rest hg
  split <;> exact hb

theorem State.firstFlow_frame {wt : Touch} {s0 s : State} (hw : 
    ({ flows := true } : Touch).or wt = wt)
    (hK : Frame wt s0 s) (kt : Nat) (w : BitVec 64) : Frame wt s0 (State.firstFlow s kt w) := by
  refine Frame.step hK hw ?_
  unfold State.firstFlow
  (try dsimp only)
  repeat' first
    | ((with_reducible show Touch.or _ _ = _) <;> rfl)
    | with_reducible (first | exact Frame.refl | apply State.updFlow_frame) | (intro _ hF; skip)
    | with_reducible assumption | (with_reducible refine Frame.ite (fun _ => ?_) (fun _ => ?_))

theorem State.nameFlow_frame {wt : Touch} {s0 s : State} (hw : 
    ({ flows := true } : Touch).or wt = wt)
    (hK : Frame wt s0 s) (kt : Nat) (w : BitVec 64) : Frame wt s0 (State.nameFlow s kt w) := by
  refine Frame.step hK hw ?_
  unfold State.nameFlow
  (try dsimp only)
  repeat' first
    | ((with_reducible show Touch.or _ _ = _) <;> rfl)
    | with_reducible (first | exact Frame.refl | apply State.updFlow_frame) | (intro _ hF; skip)
    | with_reducible assumption | (with_reducible refine Frame.ite (fun _ => ?_) (fun _ => ?_))

theorem State.liveInsert_frame {wt : Touch} {s0 s : State} (hw : 
    ({ em := true, fwdCtr := true, flows := true } : Touch).or wt = wt) (hK : Frame wt s0 s) (i : InsReq) : Frame wt s0 (s.liveInsert i).1 := by
  refine hK.step hw ?_
  unfold State.liveInsert
  split
  · refine State.nameFlow_frame rfl ?_ _ _
    refine Frame.setFwd rfl (State.firstFlow_frame rfl .refl _ _) ?_
    unfold State.firstFlow
    repeat' split
    all_goals rfl
  · split
    · next h =>
      refine State.nameFlow_frame rfl ?_ _ _
      refine Frame.setFwd rfl (State.firstFlow_frame rfl .refl _ _) ((FwdSt.insertEntry_rest h).trans ?_)
      unfold State.firstFlow
      repeat' split
      all_goals rfl
    · exact Frame.setFwd rfl .refl rfl

theorem fwdInsertBody_frame {wt : Touch} {s0 s : State} (hw : 
    ({ em := true, fwdCtr := true, flows := true, sets := true, heldShadow := true } : Touch).or wt = wt)
    (hK : Frame wt s0 s) (r : Req) : Frame wt s0 (fwdInsertBody r s).1 := by
  refine Frame.step hK hw ?_
  unfold fwdInsertBody
  (try dsimp only)
  repeat' first
    | ((with_reducible show Touch.or _ _ = _) <;> rfl)
    | with_reducible (first
        | exact Frame.refl | apply State.dropHeld_frame | apply errCmd_frame | apply State.liveInsert_frame
        | apply State.stage_frame)
    | (intro _ hF; skip) | with_reducible assumption | (with_reducible refine Frame.ite (fun _ => ?_) (fun _ => ?_))
    | split

theorem applyFwdDelete_frame {wt : Touch} {s0 s : State} (hw : 
    ({ em := true, fwdCtr := true } : Touch).or wt = wt) (hK : Frame wt s0 s) (p : List Byte) : Frame wt s0 (applyFwdDelete p s) := by
  refine hK.step hw ?_
  unfold applyFwdDelete
  split
  · exact Frame.setFwd rfl .refl (by simp)
  · exact .refl

theorem fwdDeleteBody_frame {wt : Touch} {s0 s : State} (hw : 
    ({ em := true, fwdCtr := true, sets := true, heldShadow := true } : Touch).or wt = wt)
    (hK : Frame wt s0 s) (r : Req) : Frame wt s0 (fwdDeleteBody r s).1 := by
  refine Frame.step hK hw ?_
  unfold fwdDeleteBody
  (try dsimp only)
  repeat' first
    | ((with_reducible show Touch.or _ _ = _) <;> rfl)
    | with_reducible (first
        | exact Frame.refl | apply applyFwdDelete_frame | apply State.dropHeld_frame | apply errCmd_frame
        | apply okCmd_frame | apply State.stage_frame)
    | (intro _ hF; skip) | with_reducible assumption | (with_reducible refine Frame.ite (fun _ => ?_) (fun _ => ?_))
    | split

theorem fwdLookupBody_frame {wt : Touch} {s0 s : State} (hw : ({} : Touch).or wt = wt)
    (hK : Frame wt s0 s) (r : Req) : Frame wt s0 (fwdLookupBody r s).1 := by
  refine Frame.step hK hw ?_
  unfold fwdLookupBody
  (try dsimp only)
  repeat' first
    | ((with_reducible show Touch.or _ _ = _) <;> rfl)
    | with_reducible (first | exact Frame.refl | apply readCmd_frame) | (intro _ hF; skip)
    | (with_reducible refine Frame.ite (fun _ => ?_) (fun _ => ?_))

theorem applyFwdSetVlan_frame {wt : Touch} {s0 s : State} (hw : 
    ({ gens := true } : Touch).or wt = wt)
    (hK : Frame wt s0 s) (p : List Byte) : Frame wt s0 (applyFwdSetVlan p s) := by
  refine Frame.step hK hw ?_
  unfold applyFwdSetVlan
  (try dsimp only)
  repeat' first
    | ((with_reducible show Touch.or _ _ = _) <;> rfl)
    | with_reducible (first | exact Frame.refl | apply State.liveGen_frame)

theorem applyFwdSetRoute_frame {wt : Touch} {s0 s : State} (hw : 
    ({ gens := true } : Touch).or wt = wt)
    (hK : Frame wt s0 s) (p : List Byte) : Frame wt s0 (applyFwdSetRoute p s) := by
  refine Frame.step hK hw ?_
  unfold applyFwdSetRoute
  (try dsimp only)
  repeat' first
    | ((with_reducible show Touch.or _ _ = _) <;> rfl)
    | with_reducible (first | exact Frame.refl | apply State.liveGen_frame)

theorem applyFwdSetNexthop_frame {wt : Touch} {s0 s : State} (hw : 
    ({ gens := true } : Touch).or wt = wt)
    (hK : Frame wt s0 s) (p : List Byte) : Frame wt s0 (applyFwdSetNexthop p s) := by
  refine Frame.step hK hw ?_
  unfold applyFwdSetNexthop
  (try dsimp only)
  repeat' first
    | ((with_reducible show Touch.or _ _ = _) <;> rfl)
    | with_reducible (first | exact Frame.refl | apply State.liveGen_frame)

theorem applyFwdSetEcmp_frame {wt : Touch} {s0 s : State} (hw : 
    ({ gens := true } : Touch).or wt = wt)
    (hK : Frame wt s0 s) (p : List Byte) : Frame wt s0 (applyFwdSetEcmp p s) := by
  refine Frame.step hK hw ?_
  unfold applyFwdSetEcmp
  (try dsimp only)
  repeat' first
    | ((with_reducible show Touch.or _ _ = _) <;> rfl)
    | with_reducible (first | exact Frame.refl | apply State.liveGen_frame)

theorem applyFwdSetTemplate_frame {wt : Touch} {s0 s : State} (hw : 
    ({ gens := true } : Touch).or wt = wt)
    (hK : Frame wt s0 s) (p : List Byte) : Frame wt s0 (applyFwdSetTemplate p s) := by
  refine Frame.step hK hw ?_
  unfold applyFwdSetTemplate
  (try dsimp only)
  repeat' first
    | ((with_reducible show Touch.or _ _ = _) <;> rfl)
    | with_reducible (first | exact Frame.refl | apply State.liveGen_frame)

theorem applyFwdSetRouter_frame {wt : Touch} {s0 s : State} (hw : 
    ({ gens := true } : Touch).or wt = wt)
    (hK : Frame wt s0 s) (p : List Byte) : Frame wt s0 (applyFwdSetRouter p s) := by
  refine Frame.step hK hw ?_
  unfold applyFwdSetRouter
  (try dsimp only)
  repeat' first
    | ((with_reducible show Touch.or _ _ = _) <;> rfl)
    | with_reducible (first | exact Frame.refl | apply State.liveGen_frame)

theorem applyFwdSetLearn_frame {wt : Touch} {s0 s : State} (hw :
    ({ ports := true } : Touch).or wt = wt)
    (hK : Frame wt s0 s) (p : List Byte) :
    Frame wt s0 (applyFwdSetLearn p s) := by
  refine Frame.step hK hw ?_
  unfold applyFwdSetLearn
  (try dsimp only)
  repeat' first
    | ((with_reducible show Touch.or _ _ = _) <;> rfl)
    | with_reducible (first | exact Frame.refl | apply State.updPort_frame)
    | (with_reducible refine Frame.foldl _ (fun _ _ hF => ?_) _ ?_)
    | (intro _ hF; skip) | with_reducible assumption
    | (with_reducible refine Frame.ite (fun _ => ?_) (fun _ => ?_)) | split
    | fail_if_no_progress ((with_reducible apply Frame.fields); (case hq => rfl); (case hc => rfl))

theorem applyFwdSetAging_frame {wt : Touch} {s0 s : State} (hw : 
    ({ agePeriod := true } : Touch).or wt = wt)
    (hK : Frame wt s0 s) (p : List Byte) : Frame wt s0 (applyFwdSetAging p s) :=
  hK.step hw (.ofView rfl)

theorem fwdSetVlanBody_frame {wt : Touch} {s0 s : State} (hw : 
    ({ gens := true, sets := true, snapshot := true, heldShadow := true } : Touch).or wt = wt)
    (hK : Frame wt s0 s) (r : Req) : Frame wt s0 (fwdSetVlanBody r s).1 := by
  refine Frame.step hK hw ?_
  unfold fwdSetVlanBody
  (try dsimp only)
  repeat' first
    | ((with_reducible show Touch.or _ _ = _) <;> rfl) | with_reducible exact Frame.refl
    | exact setCmd_frame rfl (fun p _ => applyFwdSetVlan_frame rfl .refl p) r _

theorem fwdSetRouteBody_frame {wt : Touch} {s0 s : State} (hw : 
    ({ gens := true, sets := true, snapshot := true, heldShadow := true } : Touch).or wt = wt)
    (hK : Frame wt s0 s) (r : Req) : Frame wt s0 (fwdSetRouteBody r s).1 := by
  refine Frame.step hK hw ?_
  unfold fwdSetRouteBody
  (try dsimp only)
  repeat' first
    | ((with_reducible show Touch.or _ _ = _) <;> rfl) | with_reducible exact Frame.refl
    | exact setCmd_frame rfl (fun p _ => applyFwdSetRoute_frame rfl .refl p) r _

theorem fwdSetNexthopBody_frame {wt : Touch} {s0 s : State} (hw : 
    ({ gens := true, sets := true, snapshot := true, heldShadow := true } : Touch).or wt = wt)
    (hK : Frame wt s0 s) (r : Req) : Frame wt s0 (fwdSetNexthopBody r s).1 := by
  refine Frame.step hK hw ?_
  unfold fwdSetNexthopBody
  (try dsimp only)
  repeat' first
    | ((with_reducible show Touch.or _ _ = _) <;> rfl) | with_reducible exact Frame.refl
    | exact setCmd_frame rfl (fun p _ => applyFwdSetNexthop_frame rfl .refl p) r _

theorem fwdSetEcmpBody_frame {wt : Touch} {s0 s : State} (hw : 
    ({ gens := true, sets := true, snapshot := true, heldShadow := true } : Touch).or wt = wt)
    (hK : Frame wt s0 s) (r : Req) : Frame wt s0 (fwdSetEcmpBody r s).1 := by
  refine Frame.step hK hw ?_
  unfold fwdSetEcmpBody
  (try dsimp only)
  repeat' first
    | ((with_reducible show Touch.or _ _ = _) <;> rfl) | with_reducible exact Frame.refl
    | exact setCmd_frame rfl (fun p _ => applyFwdSetEcmp_frame rfl .refl p) r _

theorem fwdSetTemplateBody_frame {wt : Touch} {s0 s : State} (hw : 
    ({ gens := true, sets := true, snapshot := true, heldShadow := true } : Touch).or wt = wt)
    (hK : Frame wt s0 s) (r : Req) : Frame wt s0 (fwdSetTemplateBody r s).1 := by
  refine Frame.step hK hw ?_
  unfold fwdSetTemplateBody
  (try dsimp only)
  repeat' first
    | ((with_reducible show Touch.or _ _ = _) <;> rfl) | with_reducible exact Frame.refl
    | exact setCmd_frame rfl (fun p _ => applyFwdSetTemplate_frame rfl .refl p) r _

theorem fwdSetRouterBody_frame {wt : Touch} {s0 s : State} (hw : 
    ({ gens := true, sets := true, snapshot := true, heldShadow := true } : Touch).or wt = wt)
    (hK : Frame wt s0 s) (r : Req) : Frame wt s0 (fwdSetRouterBody r s).1 := by
  refine Frame.step hK hw ?_
  unfold fwdSetRouterBody
  (try dsimp only)
  repeat' first
    | ((with_reducible show Touch.or _ _ = _) <;> rfl) | with_reducible exact Frame.refl
    | exact setCmd_frame rfl (fun p _ => applyFwdSetRouter_frame rfl .refl p) r _

theorem fwdSetLearnBody_frame {wt : Touch} {s0 s : State} (hw : 
    ({ ports := true, sets := true, snapshot := true, heldShadow := true } : Touch).or wt = wt)
    (hK : Frame wt s0 s) (r : Req) : Frame wt s0 (fwdSetLearnBody r s).1 := by
  refine Frame.step hK hw ?_
  unfold fwdSetLearnBody
  (try dsimp only)
  repeat' first
    | ((with_reducible show Touch.or _ _ = _) <;> rfl) | with_reducible exact Frame.refl
    | exact setCmd_frame rfl (fun p _ => applyFwdSetLearn_frame rfl .refl p) r _

theorem fwdSetAgingBody_frame {wt : Touch} {s0 s : State} (hw : 
    ({ agePeriod := true, sets := true, snapshot := true, heldShadow := true } : Touch).or wt = wt)
    (hK : Frame wt s0 s) (r : Req) : Frame wt s0 (fwdSetAgingBody r s).1 := by
  refine Frame.step hK hw ?_
  unfold fwdSetAgingBody
  (try dsimp only)
  repeat' first
    | ((with_reducible show Touch.or _ _ = _) <;> rfl) | with_reducible exact Frame.refl
    | exact setCmd_frame rfl (fun p _ => applyFwdSetAging_frame rfl .refl p) r _

theorem fwdFlushBody_frame {wt : Touch} {s0 s : State} (hw : 
    ({ em := true, fwdCtr := true } : Touch).or wt = wt) (hK : Frame wt s0 s) (r : Req) : Frame wt s0 (fwdFlushBody r s).1 := by
  refine hK.step hw ?_
  unfold fwdFlushBody
  split
  · exact Frame.setFwd rfl .refl (FwdSt.flush_rest _ _)
  · exact .refl

theorem fwdGetCountersBody_frame {wt : Touch} {s0 s : State} (hw : ({} : Touch).or wt = wt)
    (hK : Frame wt s0 s) (r : Req) : Frame wt s0 (fwdGetCountersBody r s).1 := by
  refine Frame.step hK hw ?_
  unfold fwdGetCountersBody
  (try dsimp only)
  repeat' first
    | ((with_reducible show Touch.or _ _ = _) <;> rfl)
    | with_reducible (first | exact Frame.refl | apply readCmd_frame) | (intro _ hF; skip)

theorem fwdGetOccupancyBody_frame {wt : Touch} {s0 s : State} (hw : ({} : Touch).or wt = wt)
    (hK : Frame wt s0 s) (r : Req) : Frame wt s0 (fwdGetOccupancyBody r s).1 := by
  refine Frame.step hK hw ?_
  unfold fwdGetOccupancyBody
  (try dsimp only)
  repeat' first
    | ((with_reducible show Touch.or _ _ = _) <;> rfl)
    | with_reducible (first | exact Frame.refl | apply readCmd_frame) | (intro _ hF; skip)

theorem State.learnNew_frame {wt : Touch} {s0 s : State} (hw : 
    ({ em := true, fwdCtr := true, evt := true, telCtr := true, rate := true, irq := true, out := true } : Touch).or wt = wt) (hK : Frame wt s0 s) (v : LearnEv) (x : BitVec 64) : Frame wt s0 (s.learnNew v x) := by
  refine hK.step hw ?_
  unfold State.learnNew
  split
  · next h => exact Frame.setFwd rfl .refl (FwdSt.insertEntry_rest h)
  · exact State.raiseLimited_frame rfl (State.bumpFwd_frame rfl (State.bumpFwd_frame rfl .refl _ _) _ _) _ _ _ _ _

theorem State.learnOne_frame {wt : Touch} {s0 s : State} (hw : 
    ({ em := true, fwdCtr := true, evt := true, telCtr := true, rate := true, irq := true, out := true } : Touch).or
    wt = wt)
    (hK : Frame wt s0 s) (v : LearnEv) : Frame wt s0 (State.learnOne s v) := by
  refine Frame.step hK hw ?_
  unfold State.learnOne
  (try dsimp only)
  repeat' first
    | ((with_reducible show Touch.or _ _ = _) <;> rfl)
    | with_reducible (first | exact Frame.refl | apply State.learnNew_frame | apply State.raiseLimited_frame)
    | exact Frame.setFwd rfl .refl (FwdSt.stationMove_rest ..)
    | (with_reducible refine Frame.ite (fun _ => ?_) (fun _ => ?_)) | split

theorem execLearnInsert_frame (slice : Nat) (s : State) : OutFrame 
    ({ em := true, learnQ := true, fwdCtr := true, evt := true, telCtr := true, rate := true, irq := true,
       out := true } : Touch) s (execLearnInsert slice s) := by
  unfold execLearnInsert
  (try dsimp only)
  repeat' first
    | with_reducible (first | exact OutFrame.fault _ _ | apply OutFrame.next)
    | ((with_reducible show Touch.or _ _ = _) <;> rfl)
    | with_reducible (first | exact Frame.refl | apply State.learnOne_frame)
    | (with_reducible refine Frame.ite (fun _ => ?_) (fun _ => ?_)) | split
    | fail_if_no_progress ((with_reducible apply Frame.fields); (case hq => rfl); (case hc => rfl))

theorem execAgingVisit_frame (place : Nat) (s : State) : OutFrame 
    ({ em := true, fwdCtr := true } : Touch) s (execAgingVisit place s) := by
  unfold execAgingVisit
  split
  · exact OutFrame.fault _ _
  split
  · exact OutFrame.next .refl
  split
  · refine OutFrame.next ?_
    split
    · exact Frame.setFwd rfl .refl (FwdSt.visit_rest _ _ _)
    · exact .refl
  · exact OutFrame.next .refl

theorem State.parityFound_frame {wt : Touch} {s0 s : State} (hw : 
    ({ fwdCtr := true, evt := true, telCtr := true, irq := true, out := true } : Touch).or wt = wt)
    (hK : Frame wt s0 s) (place : Nat) : Frame wt s0 (State.parityFound s place) := by
  refine Frame.step hK hw ?_
  unfold State.parityFound
  (try dsimp only)
  repeat' first
    | ((with_reducible show Touch.or _ _ = _) <;> rfl)
    | with_reducible (first | exact Frame.refl | apply State.bumpFwd_frame | apply State.raise_frame)

theorem execScrubRead_frame (table : Nat) (idx : Nat) (bad : Bool) (s : State) : OutFrame 
    ({ em := true, fwdCtr := true, badTable := true, evt := true, telCtr := true, irq := true, out := true } : Touch)
    s (execScrubRead table idx bad s) := by
  unfold execScrubRead
  (try dsimp only)
  repeat' first
    | with_reducible (first | exact OutFrame.fault _ _ | apply OutFrame.next)
    | ((with_reducible show Touch.or _ _ = _) <;> rfl)
    | with_reducible (first
        | exact Frame.refl | apply State.bumpFwd_frame | apply State.parityFound_frame | apply State.raise_frame)
    | (intro _ hF; skip) | with_reducible assumption | (with_reducible refine Frame.ite (fun _ => ?_) (fun _ => ?_))
    | split | fail_if_no_progress ((with_reducible apply Frame.fields); (case hq => rfl); (case hc => rfl))

theorem execParityRestore_frame (table idx : Nat) (s : State) : OutFrame 
    ({ em := true, fwdCtr := true, badTable := true } : Touch) s (execParityRestore table idx s) := by
  unfold execParityRestore
  split
  · exact OutFrame.fault _ _
  split
  · split
    · refine OutFrame.next ?_
      split
      · exact State.bumpFwd_frame rfl (Frame.setFwd rfl .refl (FwdSt.restore_rest _ _ _)) _ _
      · exact .refl
    · exact OutFrame.next .refl
  · split
    · exact OutFrame.next (State.bumpFwd_frame rfl (Frame.fields .refl) _ _)
    · exact OutFrame.next .refl

theorem execTableNormalise_frame (s : State) : OutFrame 
    ({ gens := true, em := true, fwdCtr := true } : Touch) s (execTableNormalise s) := by
  unfold execTableNormalise
  split
  · exact OutFrame.next (Frame.setFwd2 rfl .refl (FwdSt.normalise_base _))
  · exact OutFrame.next .refl

theorem execFwdInsert_frame (r : Req) (s : State) : OutFrame 
    ({ em := true, fwdCtr := true, pools := true, bufCtr := true, waitTx := true, flows := true,
       evt := true, telCtr := true, portCtr := true, mbxCtr := true, boxes := true, jobs := true,
       hist := true, sets := true, heldShadow := true, peers := true, msgs := true, irq := true,
       out := true } : Touch) s (execFwdInsert r s) := 
  mailboxCommand_frame rfl (fun _ => fwdInsertBody_frame rfl .refl r)

theorem execFwdDelete_frame (r : Req) (s : State) : OutFrame 
    ({ em := true, fwdCtr := true, pools := true, bufCtr := true, waitTx := true, evt := true,
       telCtr := true, portCtr := true, mbxCtr := true, boxes := true, jobs := true, hist := true,
       sets := true, heldShadow := true, peers := true, msgs := true, irq := true, out := true } : Touch) s (execFwdDelete r s) := 
  mailboxCommand_frame rfl (fun _ => fwdDeleteBody_frame rfl .refl r)

theorem execFwdLookup_frame (r : Req) (s : State) : OutFrame 
    ({ pools := true, bufCtr := true, waitTx := true, evt := true, telCtr := true, portCtr := true,
       mbxCtr := true, boxes := true, jobs := true, hist := true, peers := true, msgs := true, irq := true,
       out := true } : Touch) s (execFwdLookup r s) := 
  mailboxCommand_frame rfl (fun _ => fwdLookupBody_frame rfl .refl r)

theorem execFwdSetVlan_frame (r : Req) (s : State) : OutFrame 
    ({ gens := true, pools := true, bufCtr := true, waitTx := true, evt := true, telCtr := true,
       portCtr := true, mbxCtr := true, boxes := true, jobs := true, hist := true, sets := true,
       snapshot := true, heldShadow := true, peers := true, msgs := true, irq := true,
       out := true } : Touch) s (execFwdSetVlan r s) := 
  mailboxCommand_frame rfl (fun _ => fwdSetVlanBody_frame rfl .refl r)

theorem execFwdSetRoute_frame (r : Req) (s : State) : OutFrame 
    ({ gens := true, pools := true, bufCtr := true, waitTx := true, evt := true, telCtr := true,
       portCtr := true, mbxCtr := true, boxes := true, jobs := true, hist := true, sets := true,
       snapshot := true, heldShadow := true, peers := true, msgs := true, irq := true,
       out := true } : Touch) s (execFwdSetRoute r s) := 
  mailboxCommand_frame rfl (fun _ => fwdSetRouteBody_frame rfl .refl r)

theorem execFwdSetNexthop_frame (r : Req) (s : State) : OutFrame 
    ({ gens := true, pools := true, bufCtr := true, waitTx := true, evt := true, telCtr := true,
       portCtr := true, mbxCtr := true, boxes := true, jobs := true, hist := true, sets := true,
       snapshot := true, heldShadow := true, peers := true, msgs := true, irq := true,
       out := true } : Touch) s (execFwdSetNexthop r s) := 
  mailboxCommand_frame rfl (fun _ => fwdSetNexthopBody_frame rfl .refl r)

theorem execFwdSetEcmp_frame (r : Req) (s : State) : OutFrame 
    ({ gens := true, pools := true, bufCtr := true, waitTx := true, evt := true, telCtr := true,
       portCtr := true, mbxCtr := true, boxes := true, jobs := true, hist := true, sets := true,
       snapshot := true, heldShadow := true, peers := true, msgs := true, irq := true,
       out := true } : Touch) s (execFwdSetEcmp r s) := 
  mailboxCommand_frame rfl (fun _ => fwdSetEcmpBody_frame rfl .refl r)

theorem execFwdSetTemplate_frame (r : Req) (s : State) : OutFrame 
    ({ gens := true, pools := true, bufCtr := true, waitTx := true, evt := true, telCtr := true,
       portCtr := true, mbxCtr := true, boxes := true, jobs := true, hist := true, sets := true,
       snapshot := true, heldShadow := true, peers := true, msgs := true, irq := true,
       out := true } : Touch) s (execFwdSetTemplate r s) := 
  mailboxCommand_frame rfl (fun _ => fwdSetTemplateBody_frame rfl .refl r)

theorem execFwdSetRouter_frame (r : Req) (s : State) : OutFrame 
    ({ gens := true, pools := true, bufCtr := true, waitTx := true, evt := true, telCtr := true,
       portCtr := true, mbxCtr := true, boxes := true, jobs := true, hist := true, sets := true,
       snapshot := true, heldShadow := true, peers := true, msgs := true, irq := true,
       out := true } : Touch) s (execFwdSetRouter r s) := 
  mailboxCommand_frame rfl (fun _ => fwdSetRouterBody_frame rfl .refl r)

theorem execFwdSetLearn_frame (r : Req) (s : State) : OutFrame 
    ({ ports := true, pools := true, bufCtr := true, waitTx := true, evt := true, telCtr := true,
       portCtr := true, mbxCtr := true, boxes := true, jobs := true, hist := true, sets := true,
       snapshot := true, heldShadow := true, peers := true, msgs := true, irq := true,
       out := true } : Touch) s (execFwdSetLearn r s) := 
  mailboxCommand_frame rfl (fun _ => fwdSetLearnBody_frame rfl .refl r)

theorem execFwdSetAging_frame (r : Req) (s : State) : OutFrame 
    ({ agePeriod := true, pools := true, bufCtr := true, waitTx := true, evt := true, telCtr := true,
       portCtr := true, mbxCtr := true, boxes := true, jobs := true, hist := true, sets := true,
       snapshot := true, heldShadow := true, peers := true, msgs := true, irq := true,
       out := true } : Touch) s (execFwdSetAging r s) := 
  mailboxCommand_frame rfl (fun _ => fwdSetAgingBody_frame rfl .refl r)

theorem execFwdFlush_frame (r : Req) (s : State) : OutFrame 
    ({ em := true, fwdCtr := true, pools := true, bufCtr := true, waitTx := true, evt := true,
       telCtr := true, portCtr := true, mbxCtr := true, boxes := true, jobs := true, hist := true,
       peers := true, msgs := true, irq := true, out := true } : Touch) s
    (execFwdFlush r s) :=
  mailboxCommand_frame rfl (fun _ => fwdFlushBody_frame rfl .refl r)

theorem execFwdGetCounters_frame (r : Req) (s : State) : OutFrame 
    ({ pools := true, bufCtr := true, waitTx := true, evt := true, telCtr := true, portCtr := true,
       mbxCtr := true, boxes := true, jobs := true, hist := true, peers := true, msgs := true, irq := true,
       out := true } : Touch) s (execFwdGetCounters r s) := 
  mailboxCommand_frame rfl (fun _ => fwdGetCountersBody_frame rfl .refl r)

theorem execFwdGetOccupancy_frame (r : Req) (s : State) : OutFrame 
    ({ pools := true, bufCtr := true, waitTx := true, evt := true, telCtr := true, portCtr := true,
       mbxCtr := true, boxes := true, jobs := true, hist := true, peers := true, msgs := true, irq := true,
       out := true } : Touch) s (execFwdGetOccupancy r s) := 
  mailboxCommand_frame rfl (fun _ => fwdGetOccupancyBody_frame rfl .refl r)

end Sys2Proof.Machine
end

