-- ==== Sys2Proof/Laws/FramePackets.lean ====
section
/-! SUPPORT. What the operations of Packets may change. -/

set_option Elab.async false
set_option linter.all false

namespace Sys2Proof.Machine

/-- What allocating cells leaves alone. -/
def BufSt.offAlloc (b : BufSt) : BufSt := { b with usedCells := [], allocStart := [] }

theorem BufSt.alloc_rest (q n : Nat) (b : BufSt) (got : List Nat) : (b.alloc q n got).1.offAlloc = b.offAlloc := by
  induction n generalizing b got with
  | zero => rfl
  | succ n ih =>
    unfold BufSt.alloc
    split
    · rw [ih]; rfl
    · rfl

theorem BufSt.allocIf_rest (c : Prop) [Decidable c] (q n : Nat) (b : BufSt) (got l : List Nat) :
    (if c then b.alloc q n got else (b, l)).1.offAlloc = b.offAlloc := by
  split
  · exact BufSt.alloc_rest ..
  · rfl

theorem Frame.setAlloc {wt : Touch} {s0 s : State} {b : BufSt} (hw : ({ cells := true } : Touch).or wt = wt)
    (hK : Frame wt s0 s) (h : b.offAlloc = s.buf.offAlloc) : Frame wt s0 { s with buf := b } := by
  refine hK.step hw ?_
  simp only [BufSt.offAlloc, BufSt.mk.injEq] at h
  constructor <;> first
    | exact fun h => Bool.noConfusion h
    | exact fun _ => rfl
    | (intro _; (repeat' apply And.intro) <;> first | rfl | tauto)

theorem State.countCtl_frame {wt : Touch} {s0 s : State} (hw : 
    ({ portCtr := true } : Touch).or wt = wt)
    (hK : Frame wt s0 s) (p : Nat) (b : List Byte) : Frame wt s0 (State.countCtl s p b) := by
  refine Frame.step hK hw ?_
  unfold State.countCtl
  (try dsimp only)
  repeat' first
    | ((with_reducible show Touch.or _ _ = _) <;> rfl)
    | with_reducible (first | exact Frame.refl | apply State.bumpPort_frame)
    | (with_reducible refine Frame.ite (fun _ => ?_) (fun _ => ?_))

theorem State.sendCtl_frame {wt : Touch} {s0 s : State} (hw : 
    ({ ports := true, portCtr := true, out := true } : Touch).or wt = wt)
    (hK : Frame wt s0 s) (p : Nat) (b : List Byte) : Frame wt s0 (State.sendCtl s p b) := by
  refine Frame.step hK hw ?_
  unfold State.sendCtl
  (try dsimp only)
  repeat' first
    | ((with_reducible show Touch.or _ _ = _) <;> rfl)
    | with_reducible (first
        | exact Frame.refl | apply State.countCtl_frame | apply State.emit_frame | apply State.updPort_frame
        | apply State.sendNow_frame)
    | (intro _ hF; skip) | with_reducible assumption | (with_reducible refine Frame.ite (fun _ => ?_) (fun _ => ?_))

theorem State.flushCtl_frame {wt : Touch} {s0 s : State} (hw : 
    ({ ports := true, portCtr := true, out := true } : Touch).or wt = wt)
    (hK : Frame wt s0 s) (p : Nat) : Frame wt s0 (State.flushCtl s p) := by
  refine Frame.step hK hw ?_
  unfold State.flushCtl
  (try dsimp only)
  repeat' first
    | ((with_reducible show Touch.or _ _ = _) <;> rfl)
    | with_reducible (first
        | exact Frame.refl | apply State.countCtl_frame | apply State.emit_frame | apply State.updPort_frame
        | apply State.sendNow_frame)
    | (with_reducible refine Frame.foldl _ (fun _ _ hF => ?_) _ ?_) | (intro _ hF; skip) | with_reducible assumption

theorem State.sendXoff_frame {wt : Touch} {s0 s : State} (hw : 
    ({ ports := true, portCtr := true, out := true } : Touch).or wt = wt)
    (hK : Frame wt s0 s) (p : Nat) (c : Nat) : Frame wt s0 (State.sendXoff s p c) := by
  refine Frame.step hK hw ?_
  unfold State.sendXoff
  (try dsimp only)
  repeat' first
    | ((with_reducible show Touch.or _ _ = _) <;> rfl)
    | with_reducible (first | exact Frame.refl | apply State.sendCtl_frame)
    | (with_reducible refine Frame.ite (fun _ => ?_) (fun _ => ?_)) | split

theorem State.sendXon_frame {wt : Touch} {s0 s : State} (hw : 
    ({ ports := true, portCtr := true, out := true } : Touch).or wt = wt)
    (hK : Frame wt s0 s) (p : Nat) (c : Nat) : Frame wt s0 (State.sendXon s p c) := by
  refine Frame.step hK hw ?_
  unfold State.sendXon
  (try dsimp only)
  repeat' first
    | ((with_reducible show Touch.or _ _ = _) <;> rfl)
    | with_reducible (first | exact Frame.refl | apply State.sendCtl_frame)
    | (with_reducible refine Frame.ite (fun _ => ?_) (fun _ => ?_)) | split

theorem State.assertXoff_frame {wt : Touch} {s0 s : State} (hw : 
    ({ ports := true, portClass := true, bufCtr := true, portCtr := true, shares := true,
       out := true } : Touch).or wt = wt)
    (hK : Frame wt s0 s) (p : Nat) (c : Nat) : Frame wt s0 (State.assertXoff s p c) := by
  refine Frame.step hK hw ?_
  unfold State.assertXoff
  (try dsimp only)
  repeat' first
    | ((with_reducible show Touch.or _ _ = _) <;> rfl)
    | with_reducible (first
        | exact Frame.refl | apply State.bumpBuf_frame | apply State.sendXoff_frame | apply State.updPortClass_frame
        | apply State.bumpBufAt_frame)
    | (intro _ hF; skip) | with_reducible assumption | (with_reducible refine Frame.ite (fun _ => ?_) (fun _ => ?_))

theorem State.releaseXoff_frame {wt : Touch} {s0 s : State} (hw : 
    ({ ports := true, portClass := true, bufCtr := true, portCtr := true, shares := true,
       out := true } : Touch).or wt = wt)
    (hK : Frame wt s0 s) (p : Nat) (c : Nat) : Frame wt s0 (State.releaseXoff s p c) := by
  refine Frame.step hK hw ?_
  unfold State.releaseXoff
  (try dsimp only)
  repeat' first
    | ((with_reducible show Touch.or _ _ = _) <;> rfl)
    | with_reducible (first
        | exact Frame.refl | apply State.bumpBuf_frame | apply State.sendXon_frame | apply State.updPortClass_frame
        | apply State.bumpBufAt_frame)
    | (intro _ hF; skip) | with_reducible assumption | (with_reducible refine Frame.ite (fun _ => ?_) (fun _ => ?_))

theorem State.xoffOne_frame {wt : Touch} {s0 s : State} (hw : 
    ({ ports := true, portClass := true, bufCtr := true, portCtr := true, shares := true,
       out := true } : Touch).or wt = wt)
    (hK : Frame wt s0 s) (k : Nat) : Frame wt s0 (State.xoffOne s k) := by
  refine Frame.step hK hw ?_
  unfold State.xoffOne
  (try dsimp only)
  repeat' first
    | ((with_reducible show Touch.or _ _ = _) <;> rfl)
    | with_reducible (first | exact Frame.refl | apply State.assertXoff_frame | apply State.releaseXoff_frame)
    | (with_reducible refine Frame.ite (fun _ => ?_) (fun _ => ?_))

theorem State.xoffSweep_frame {wt : Touch} {s0 s : State} (hw : 
    ({ ports := true, portClass := true, bufCtr := true, portCtr := true, shares := true,
       out := true } : Touch).or wt = wt)
    (hK : Frame wt s0 s) : Frame wt s0 (State.xoffSweep s) := by
  refine Frame.step hK hw ?_
  unfold State.xoffSweep
  (try dsimp only)
  repeat' first
    | ((with_reducible show Touch.or _ _ = _) <;> rfl)
    | with_reducible (first | exact Frame.refl | apply State.xoffOne_frame)
    | (with_reducible refine Frame.foldl _ (fun _ _ hF => ?_) _ ?_) | (intro _ hF; skip) | with_reducible assumption

theorem State.charge_frame {wt : Touch} {s0 s : State} (hw : 
    ({ ports := true, portClass := true, bufCtr := true, pkts := true, portCtr := true, shares := true,
       out := true } : Touch).or wt =
    wt)
    (hK : Frame wt s0 s) (pk : Pkt) (q : PortClass) : Frame wt s0 (State.charge s pk q) := by
  refine Frame.step hK hw ?_
  unfold State.charge
  (try dsimp only)
  repeat' first
    | ((with_reducible show Touch.or _ _ = _) <;> rfl)
    | with_reducible (first
        | exact Frame.refl | apply State.assertXoff_frame | apply State.updPkt_frame
        | apply State.updPortClass_frame)
    | (intro _ hF; skip) | with_reducible assumption | (with_reducible refine Frame.ite (fun _ => ?_) (fun _ => ?_))

theorem State.unchargeQ_frame {wt : Touch} {s0 s : State} (hw :
    ({ queues := true } : Touch).or wt = wt)
    (hK : Frame wt s0 s) (pk : Pkt) (n : Nat) :
    Frame wt s0 (State.unchargeQ s pk n) := by
  refine Frame.step hK hw ?_
  unfold State.unchargeQ
  (try dsimp only)
  repeat' first
    | ((with_reducible show Touch.or _ _ = _) <;> rfl)
    | with_reducible (first | exact Frame.refl | apply State.updQueue_frame)
    | (with_reducible refine Frame.foldl _ (fun _ _ hF => ?_) _ ?_)
    | (intro _ hF; skip) | with_reducible assumption
    | (with_reducible refine Frame.ite (fun _ => ?_) (fun _ => ?_)) | split
    | fail_if_no_progress ((with_reducible apply Frame.fields); (case hq => rfl); (case hc => rfl))

theorem State.chargeQ_frame {wt : Touch} {s0 s : State} (hw :
    ({ queues := true, pkts := true } : Touch).or wt = wt)
    (hK : Frame wt s0 s) (pk : Pkt) :
    Frame wt s0 (State.chargeQ s pk) := by
  refine Frame.step hK hw ?_
  unfold State.chargeQ
  (try dsimp only)
  repeat' first
    | ((with_reducible show Touch.or _ _ = _) <;> rfl)
    | with_reducible (first | exact Frame.refl | apply State.updQueue_frame | apply State.updPkt_frame)
    | (with_reducible refine Frame.foldl _ (fun _ _ hF => ?_) _ ?_)
    | (intro _ hF; skip) | with_reducible assumption
    | (with_reducible refine Frame.ite (fun _ => ?_) (fun _ => ?_)) | split
    | fail_if_no_progress ((with_reducible apply Frame.fields); (case hq => rfl); (case hc => rfl))

theorem State.uncharge_frame {wt : Touch} {s0 s : State} (hw : 
    ({ portClass := true, queues := true } : Touch).or wt = wt)
    (hK : Frame wt s0 s) (pk : Pkt) (n : Nat) : Frame wt s0 (State.uncharge s pk n) := by
  refine Frame.step hK hw ?_
  unfold State.uncharge
  (try dsimp only)
  repeat' first
    | ((with_reducible show Touch.or _ _ = _) <;> rfl)
    | with_reducible (first
        | exact Frame.refl | apply State.updPortClass_frame | apply State.updQueue_frame
        | apply State.unchargeQ_frame)
    | (with_reducible refine Frame.foldl _ (fun _ _ hF => ?_) _ ?_) | (intro _ hF; skip) | with_reducible assumption
    | (with_reducible refine Frame.ite (fun _ => ?_) (fun _ => ?_))

theorem State.unhold_frame {wt : Touch} {s0 s : State} (hw : 
    ({ cells := true, portClass := true, queues := true } : Touch).or wt = wt)
    (hK : Frame wt s0 s) (pk : Pkt) : Frame wt s0 (State.unhold s pk) := by
  refine Frame.step hK hw ?_
  unfold State.unhold
  (try dsimp only)
  repeat' first
    | ((with_reducible show Touch.or _ _ = _) <;> rfl)
    | with_reducible (first | exact Frame.refl | apply State.uncharge_frame)
    | (with_reducible refine Frame.ite (fun _ => ?_) (fun _ => ?_)) | split
    | fail_if_no_progress ((with_reducible apply Frame.fields); (case hq => rfl); (case hc => rfl))

theorem State.leaveEpoch_frame {wt : Touch} {s0 s : State} (hw :
    ({ prismFlight := true } : Touch).or wt = wt)
    (hK : Frame wt s0 s) (pk : Pkt) :
    Frame wt s0 (State.leaveEpoch s pk) := by
  refine Frame.step hK hw ?_
  unfold State.leaveEpoch
  (try dsimp only)
  repeat' first
    | ((with_reducible show Touch.or _ _ = _) <;> rfl)
    | with_reducible exact Frame.refl
    | (with_reducible refine Frame.foldl _ (fun _ _ hF => ?_) _ ?_)
    | (intro _ hF; skip) | with_reducible assumption
    | (with_reducible refine Frame.ite (fun _ => ?_) (fun _ => ?_)) | split
    | fail_if_no_progress ((with_reducible apply Frame.fields); (case hq => rfl); (case hc => rfl))

theorem State.leaveGen_frame {wt : Touch} {s0 s : State} (hw :
    ({ fwdFlight := true } : Touch).or wt = wt)
    (hK : Frame wt s0 s) (pk : Pkt) :
    Frame wt s0 (State.leaveGen s pk) := by
  refine Frame.step hK hw ?_
  unfold State.leaveGen
  (try dsimp only)
  repeat' first
    | ((with_reducible show Touch.or _ _ = _) <;> rfl)
    | with_reducible exact Frame.refl
    | (with_reducible refine Frame.foldl _ (fun _ _ hF => ?_) _ ?_)
    | (intro _ hF; skip) | with_reducible assumption
    | (with_reducible refine Frame.ite (fun _ => ?_) (fun _ => ?_)) | split
    | fail_if_no_progress ((with_reducible apply Frame.fields); (case hq => rfl); (case hc => rfl))

theorem State.retire_frame {wt : Touch} {s0 s : State} (hw : 
    ({ prismFlight := true, fwdFlight := true } : Touch).or wt = wt)
    (hK : Frame wt s0 s) (pk : Pkt) : Frame wt s0 (State.retire s pk) := by
  refine Frame.step hK hw ?_
  unfold State.retire
  (try dsimp only)
  repeat' first
    | ((with_reducible show Touch.or _ _ = _) <;> rfl) | with_reducible (first | exact Frame.refl | apply State.leaveGen_frame | apply State.leaveEpoch_frame)
    | (with_reducible refine Frame.ite (fun _ => ?_) (fun _ => ?_)) | split
    | fail_if_no_progress ((with_reducible apply Frame.fields); (case hq => rfl); (case hc => rfl))

theorem State.endTrap_frame {wt : Touch} {s0 s : State} (hw :
    ({ prismFlight := true, pkts := true } : Touch).or wt = wt)
    (hK : Frame wt s0 s) (pk : Pkt) :
    Frame wt s0 (State.endTrap s pk) := by
  refine Frame.step hK hw ?_
  unfold State.endTrap
  (try dsimp only)
  repeat' first
    | ((with_reducible show Touch.or _ _ = _) <;> rfl)
    | with_reducible (first | exact Frame.refl | apply State.leaveEpoch_frame | apply State.updPkt_frame)
    | (with_reducible refine Frame.foldl _ (fun _ _ hF => ?_) _ ?_)
    | (intro _ hF; skip) | with_reducible assumption
    | (with_reducible refine Frame.ite (fun _ => ?_) (fun _ => ?_)) | split
    | fail_if_no_progress ((with_reducible apply Frame.fields); (case hq => rfl); (case hc => rfl))

theorem State.leaveMerge_frame {wt : Touch} {s0 s : State} (hw : 
    ({ recirc := true, merge := true } : Touch).or wt = wt)
    (hK : Frame wt s0 s) (pk : Pkt) : Frame wt s0 (State.leaveMerge s pk) :=
  hK.step hw (.ofView rfl)

theorem State.mirCount_frame {wt : Touch} {s0 s : State} (hw : 
    ({ cand := true } : Touch).or wt = wt)
    (hK : Frame wt s0 s) (no : Nat) (slice : Nat) (interval : Nat) : Frame wt s0 (State.mirCount s no slice
    interval).1 := by
  refine Frame.step hK hw ?_
  unfold State.mirCount
  (try dsimp only)
  repeat' first
    | ((with_reducible show Touch.or _ _ = _) <;> rfl) | with_reducible exact Frame.refl | split
    | fail_if_no_progress ((with_reducible apply Frame.fields); (case hq => rfl); (case hc => rfl))

theorem State.mirMake_frame {wt : Touch} {s0 s : State} (hw : 
    ({ pkts := true, nextPkt := true, mirrors := true, mirCtr := true, telCtr := true, shares := true,
       free := true } : Touch).or wt =
    wt)
    (hK : Frame wt s0 s) (no : Nat) (src : Nat) (pk : Pkt) (bytes : List Byte) (slice : Nat) (eg : Nat) (reason : Nat)
    : Frame wt s0 (State.mirMake s no src pk bytes slice eg reason).1 := by
  refine Frame.step hK hw ?_
  unfold State.mirMake
  (try dsimp only)
  repeat' first
    | ((with_reducible show Touch.or _ _ = _) <;> rfl)
    | with_reducible (first
        | exact Frame.refl | apply State.bumpMir_frame | apply State.bumpTel_frame | apply State.bumpMirAt_frame)
    | (intro _ hF; skip) | with_reducible assumption | (with_reducible refine Frame.ite (fun _ => ?_) (fun _ => ?_))
    | split | fail_if_no_progress ((with_reducible apply Frame.fields); (case hq => rfl); (case hc => rfl))

theorem State.mirQueue_frame {wt : Touch} {s0 s : State} (hw : 
    ({ pkts := true, mirQ := true, mirCtr := true, shares := true } : Touch).or wt = wt)
    (hK : Frame wt s0 s) (no : Nat) (slice : Nat) (id : Nat) : Frame wt s0 (State.mirQueue s no slice id) := by
  refine Frame.step hK hw ?_
  unfold State.mirQueue
  (try dsimp only)
  repeat' first
    | ((with_reducible show Touch.or _ _ = _) <;> rfl)
    | with_reducible (first | exact Frame.refl | apply State.bumpMir_frame | apply State.bumpMirAt_frame)
    | (with_reducible refine Frame.ite (fun _ => ?_) (fun _ => ?_)) | split
    | fail_if_no_progress ((with_reducible apply Frame.fields); (case hq => rfl); (case hc => rfl))

theorem State.mirOffer_frame {wt : Touch} {s0 s : State} (hw : 
    ({ pkts := true, nextPkt := true, mirrors := true, cand := true, mirQ := true, mirCtr := true,
       telCtr := true, shares := true, free := true } : Touch).or wt = wt)
    (hK : Frame wt s0 s) (no : Nat) (src : Nat) (pk : Pkt) (bytes : List Byte) (slice : Nat) (eg : Nat) (reason : Nat)
    : Frame wt s0 (State.mirOffer s no src pk bytes slice eg reason) := by
  refine Frame.step hK hw ?_
  unfold State.mirOffer
  (try dsimp only)
  repeat' first
    | ((with_reducible show Touch.or _ _ = _) <;> rfl)
    | with_reducible (first
        | exact Frame.refl | apply State.mirCount_frame | apply State.mirMake_frame | apply State.mirQueue_frame)
    | (with_reducible refine Frame.ite (fun _ => ?_) (fun _ => ?_))

theorem State.mirDone_frame {wt : Touch} {s0 s : State} (hw :
    ({ pkts := true } : Touch).or wt = wt)
    (hK : Frame wt s0 s) (id : Nat) (no : Nat) :
    Frame wt s0 (State.mirDone s id no) := by
  refine Frame.step hK hw ?_
  unfold State.mirDone
  (try dsimp only)
  repeat' first
    | ((with_reducible show Touch.or _ _ = _) <;> rfl)
    | with_reducible (first | exact Frame.refl | apply State.updPkt_frame)
    | (with_reducible refine Frame.foldl _ (fun _ _ hF => ?_) _ ?_)
    | (intro _ hF; skip) | with_reducible assumption
    | (with_reducible refine Frame.ite (fun _ => ?_) (fun _ => ?_)) | split
    | fail_if_no_progress ((with_reducible apply Frame.fields); (case hq => rfl); (case hc => rfl))

theorem State.mirDropTo_frame {wt : Touch} {s0 s : State} (hw :
    ({ pkts := true, nextPkt := true, mirrors := true, cand := true, mirQ := true, mirCtr := true,
       telCtr := true, shares := true, free := true } : Touch).or wt = wt)
    (hK : Frame wt s0 s) (pk : Pkt) (reason : Nat) (eg : Nat) (no : Nat) :
    Frame wt s0 (State.mirDropTo s pk reason eg no) := by
  refine Frame.step hK hw ?_
  unfold State.mirDropTo
  (try dsimp only)
  repeat' first
    | ((with_reducible show Touch.or _ _ = _) <;> rfl)
    | with_reducible (first | exact Frame.refl | apply State.mirDone_frame | apply State.mirOffer_frame)
    | (with_reducible refine Frame.foldl _ (fun _ _ hF => ?_) _ ?_)
    | (intro _ hF; skip) | with_reducible assumption
    | (with_reducible refine Frame.ite (fun _ => ?_) (fun _ => ?_)) | split
    | fail_if_no_progress ((with_reducible apply Frame.fields); (case hq => rfl); (case hc => rfl))

theorem State.mirDrop_frame {wt : Touch} {s0 s : State} (hw : 
    ({ pkts := true, nextPkt := true, mirrors := true, cand := true, mirQ := true, mirCtr := true,
       telCtr := true, shares := true, free := true } : Touch).or wt = wt)
    (hK : Frame wt s0 s) (pk : Pkt) (reason : Nat) (eg : Nat) : Frame wt s0 (State.mirDrop s pk reason eg) := by
  refine Frame.step hK hw ?_
  unfold State.mirDrop
  (try dsimp only)
  repeat' first
    | ((with_reducible show Touch.or _ _ = _) <;> rfl)
    | with_reducible (first | exact Frame.refl | apply State.mirOffer_frame | apply State.mirDropTo_frame)
    | (with_reducible refine Frame.foldl _ (fun _ _ hF => ?_) _ ?_) | (intro _ hF; skip) | with_reducible assumption
    | (with_reducible refine Frame.ite (fun _ => ?_) (fun _ => ?_))

theorem State.countReason_frame {wt : Touch} {s0 s : State} (hw : 
    ({ fwdCtr := true, bufCtr := true, fabCtr := true, schedCtr := true, portCtr := true, prismCtr := true,
       timeCtr := true, shares := true } : Touch).or wt = wt)
    (hK : Frame wt s0 s) (pk : Pkt) (reason : Nat) (eg : Nat) : Frame wt s0 (State.countReason s pk reason eg) := by
  refine Frame.step hK hw ?_
  unfold State.countReason
  (try dsimp only)
  repeat' first
    | ((with_reducible show Touch.or _ _ = _) <;> rfl)
    | with_reducible (first
        | exact Frame.refl | apply State.bumpBuf_frame | apply State.bumpFab_frame | apply State.bumpFwd_frame
        | apply State.bumpPort_frame | apply State.bumpPrism_frame | apply State.bumpSched_frame
        | apply State.bumpTime_frame | apply State.bumpSchedAt_frame | apply State.bumpFabAt_frame
        | apply State.bumpBufAt_frame | apply State.bumpFwdAt_frame)
    | split

theorem State.bumpBufOf_frame {wt : Touch} {s0 s : State} (hw :
    ({ bufCtr := true, shares := true } : Touch).or wt = wt)
    (hK : Frame wt s0 s) (pk : Pkt) (i : Nat) :
    Frame wt s0 (State.bumpBufOf s pk i) := by
  refine Frame.step hK hw ?_
  unfold State.bumpBufOf
  (try dsimp only)
  repeat' first
    | ((with_reducible show Touch.or _ _ = _) <;> rfl)
    | with_reducible (first | exact Frame.refl | apply State.bumpBufAt_frame)
    | (with_reducible refine Frame.foldl _ (fun _ _ hF => ?_) _ ?_)
    | (intro _ hF; skip) | with_reducible assumption
    | (with_reducible refine Frame.ite (fun _ => ?_) (fun _ => ?_)) | split
    | fail_if_no_progress ((with_reducible apply Frame.fields); (case hq => rfl); (case hc => rfl))

theorem State.countQuiet_frame {wt : Touch} {s0 s : State} (hw :
    ({ fwdCtr := true, bufCtr := true, fabCtr := true, schedCtr := true, mirCtr := true, dropCtr := true,
       portCtr := true, prismCtr := true, timeCtr := true, shares := true } : Touch).or wt = wt)
    (hK : Frame wt s0 s) (pk : Pkt) (reason : Nat) (eg : Nat) :
    Frame wt s0 (State.countQuiet s pk reason eg) := by
  refine Frame.step hK hw ?_
  unfold State.countQuiet
  (try dsimp only)
  repeat' first
    | ((with_reducible show Touch.or _ _ = _) <;> rfl)
    | with_reducible (first
        | exact Frame.refl | apply State.bumpMirAt_frame | apply State.bumpDrop_frame
        | apply State.countReason_frame)
    | (with_reducible refine Frame.foldl _ (fun _ _ hF => ?_) _ ?_)
    | (intro _ hF; skip) | with_reducible assumption
    | (with_reducible refine Frame.ite (fun _ => ?_) (fun _ => ?_)) | split
    | fail_if_no_progress ((with_reducible apply Frame.fields); (case hq => rfl); (case hc => rfl))

theorem State.countDrop_frame {wt : Touch} {s0 s : State} (hw : 
    ({ fwdCtr := true, bufCtr := true, pkts := true, nextPkt := true, fabCtr := true, schedCtr := true,
       mirrors := true, cand := true, mirQ := true, mirCtr := true, telCtr := true, dropCtr := true,
       portCtr := true, prismCtr := true, timeCtr := true, shares := true, free := true } : Touch).or wt = wt)
    (hK : Frame wt s0 s) (pk : Pkt) (reason : Nat) (eg : Nat) : Frame wt s0 (State.countDrop s pk reason eg) := by
  refine Frame.step hK hw ?_
  unfold State.countDrop
  (try dsimp only)
  repeat' first
    | ((with_reducible show Touch.or _ _ = _) <;> rfl)
    | with_reducible (first
        | exact Frame.refl | apply State.bumpDrop_frame | apply State.bumpMir_frame | apply State.countReason_frame
        | apply State.mirDrop_frame | apply State.countQuiet_frame)
    | split

theorem State.forget_frame {wt : Touch} {s0 s : State} (hw : 
    ({ pkts := true } : Touch).or wt = wt)
    (hK : Frame wt s0 s) (pk : Pkt) : Frame wt s0 (State.forget s pk) := by
  refine Frame.step hK hw ?_
  unfold State.forget
  (try dsimp only)
  repeat' first
    | ((with_reducible show Touch.or _ _ = _) <;> rfl)
    | with_reducible (first | exact Frame.refl | apply State.updPkt_frame) | (intro _ hF; skip)
    | with_reducible assumption | (with_reducible refine Frame.ite (fun _ => ?_) (fun _ => ?_)) | split
    | fail_if_no_progress ((with_reducible apply Frame.fields); (case hq => rfl); (case hc => rfl))

theorem State.release_frame {wt : Touch} {s0 s : State} (hw : 
    ({ ports := true, prismFlight := true, recirc := true, merge := true, cells := true, portClass := true,
       queues := true, bufCtr := true, pkts := true, portCtr := true, shares := true, out := true } : Touch).or wt = wt)
    (hK : Frame wt s0 s) (id : Nat) : Frame wt s0 (State.release s id) := by
  refine Frame.step hK hw ?_
  unfold State.release
  (try dsimp only)
  repeat' first
    | ((with_reducible show Touch.or _ _ = _) <;> rfl)
    | with_reducible (first
        | exact Frame.refl | apply State.forget_frame | apply State.leaveMerge_frame | apply State.unhold_frame
        | apply State.xoffSweep_frame | apply State.endTrap_frame)
    | split

theorem State.dropPkt_frame {wt : Touch} {s0 s : State} (hw : 
    ({ ports := true, prismFlight := true, recirc := true, merge := true, fwdFlight := true,
       fwdCtr := true, cells := true, portClass := true, queues := true, bufCtr := true, pkts := true,
       nextPkt := true, fabCtr := true, schedCtr := true, mirrors := true, cand := true, mirQ := true,
       mirCtr := true, telCtr := true, dropCtr := true, portCtr := true, prismCtr := true, timeCtr := true,
       shares := true, out := true, free := true } : Touch).or wt = wt)
    (hK : Frame wt s0 s) (id : Nat) (reason : Nat) : Frame wt s0 (State.dropPkt s id reason) := by
  refine Frame.step hK hw ?_
  unfold State.dropPkt
  (try dsimp only)
  repeat' first
    | ((with_reducible show Touch.or _ _ = _) <;> rfl)
    | with_reducible (first
        | exact Frame.refl | apply State.countDrop_frame | apply State.release_frame | apply State.retire_frame)
    | split

end Sys2Proof.Machine
end

