-- ==== Sys2Proof/Laws/FrameTimeBase.lean ====
section
/-! SUPPORT. What the operations of TimeBase may change. -/

set_option Elab.async false
set_option linter.all false

namespace Sys2Proof.Machine

theorem State.oneTick_frame {wt : Touch} {s0 s : State} (hw :
    ({ time := true, up := true } : Touch).or wt = wt)
    (hK : Frame wt s0 s)  :
    Frame wt s0 (State.oneTick s) := by
  refine Frame.step hK hw ?_
  unfold State.oneTick
  (try dsimp only)
  repeat' first
    | ((with_reducible show Touch.or _ _ = _) <;> rfl)
    | with_reducible exact Frame.refl
    | (with_reducible refine Frame.foldl _ (fun _ _ hF => ?_) _ ?_)
    | (intro _ hF; skip) | with_reducible assumption
    | (with_reducible refine Frame.ite (fun _ => ?_) (fun _ => ?_)) | split
    | fail_if_no_progress ((with_reducible apply Frame.fields); (case hq => rfl); (case hc => rfl))

end Sys2Proof.Machine
end

