-- ==== Sys2Proof/Laws/FramePolice.lean ====
section
/-! SUPPORT. What the operations of Police may change. -/

set_option Elab.async false
set_option linter.all false

namespace Sys2Proof.Machine

theorem State.police_frame {wt : Touch} {s0 s : State} (hw : 
    ({ pkts := true, pol := true, schedCtr := true, shares := true } : Touch).or wt = wt)
    (hK : Frame wt s0 s) (pk : Pkt) : Frame wt s0 (State.police s pk).1 := by
  refine Frame.step hK hw ?_
  unfold State.police
  (try dsimp only)
  repeat' first
    | ((with_reducible show Touch.or _ _ = _) <;> rfl)
    | with_reducible (first
        | exact Frame.refl | apply State.bumpSched_frame | apply State.updPkt_frame | apply State.updPolicer_frame
        | apply State.bumpSchedAt_frame)
    | (intro _ hF; skip) | with_reducible assumption | split

theorem State.bumpStream_frame {wt : Touch} {s0 s : State} (hw :
    ({ redCtr := true, frerCtr := true } : Touch).or wt = wt)
    (hK : Frame wt s0 s) (st : Nat) (i : Nat) (n : Nat) :
    Frame wt s0 (State.bumpStream s st i n) := by
  refine Frame.step hK hw ?_
  unfold State.bumpStream
  (try dsimp only)
  repeat' first
    | ((with_reducible show Touch.or _ _ = _) <;> rfl)
    | with_reducible (first | exact Frame.refl | apply State.bumpFrer_frame | apply State.bumpRed_frame)
    | (with_reducible refine Frame.foldl _ (fun _ _ hF => ?_) _ ?_)
    | (intro _ hF; skip) | with_reducible assumption
    | (with_reducible refine Frame.ite (fun _ => ?_) (fun _ => ?_)) | split
    | fail_if_no_progress ((with_reducible apply Frame.fields); (case hq => rfl); (case hc => rfl))

theorem State.frerRecover_frame {wt : Touch} {s0 s : State} (hw : 
    ({ frer := true, redCtr := true, frerCtr := true } : Touch).or wt = wt)
    (hK : Frame wt s0 s) (st : Nat) (c : FrerCfg) (rtag : Option Nat) : Frame wt s0 (State.frerRecover s st c rtag).1
    := by
  refine Frame.step hK hw ?_
  unfold State.frerRecover
  (try dsimp only)
  repeat' first
    | ((with_reducible show Touch.or _ _ = _) <;> rfl)
    | with_reducible (first | exact Frame.refl | apply State.bumpStream_frame | apply State.updStream_frame)
    | (intro _ hF; skip) | with_reducible assumption | split

theorem State.frerGenerate_frame {wt : Touch} {s0 s : State} (hw : 
    ({ pkts := true, frer := true, redCtr := true, frerCtr := true } : Touch).or wt = wt)
    (hK : Frame wt s0 s) (pk : Pkt) (st : Nat) : Frame wt s0 (State.frerGenerate s pk st) := by
  refine Frame.step hK hw ?_
  unfold State.frerGenerate
  (try dsimp only)
  repeat' first
    | ((with_reducible show Touch.or _ _ = _) <;> rfl)
    | with_reducible (first
        | exact Frame.refl | apply State.bumpStream_frame | apply State.updPkt_frame | apply State.updStream_frame)
    | (intro _ hF; skip)

end Sys2Proof.Machine
end

