-- ==== Sys2Proof/Laws/FrameLookup.lean ====
section
/-! SUPPORT. What the operations of Lookup may change. -/

set_option Elab.async false
set_option linter.all false

namespace Sys2Proof.Machine

theorem State.look_frame {wt : Touch} {s0 s : State} (hw : 
    ({ fwdCtr := true, evt := true, telCtr := true, irq := true, out := true } : Touch).or wt = wt) (h : Frame wt s0 s) (g kt : Nat) (key : List Byte) :
    Frame wt s0 (s.look g kt key).st :=
  Frame.foldl _ (fun _ _ hk => State.parityFound_frame (Touch.le_trans rfl hw) hk _) _ h

theorem State.noLook_frame {wt : Touch} {s0 s : State} (_ : ({} : Touch).or wt = wt) (h : Frame wt s0 s) : Frame wt s0 s.noLook.st := h

theorem State.setHit_frame {wt : Touch} {s0 s : State} (hw : 
    ({ em := true } : Touch).or wt = wt)
    (hK : Frame wt s0 s) (q : Nat) : Frame wt s0 (State.setHit s q) :=
  hK.step hw (.ofView rfl)

theorem Look.mark_frame {wt : Touch} {s0 : State} (hw : 
    ({ em := true } : Touch).or wt = wt) (l : Look) (h : Frame wt s0 l.st) : Frame wt s0 l.mark := by
  unfold Look.mark
  split
  · exact State.setHit_frame (Touch.le_trans rfl hw) h _
  · exact h

theorem State.tabParity_frame {wt : Touch} {s0 s : State} (hw : 
    ({ fwdCtr := true, evt := true, telCtr := true, irq := true, out := true } : Touch).or wt = wt)
    (hK : Frame wt s0 s) : Frame wt s0 (State.tabParity s) := by
  refine Frame.step hK hw ?_
  unfold State.tabParity
  (try dsimp only)
  repeat' first
    | ((with_reducible show Touch.or _ _ = _) <;> rfl)
    | with_reducible (first | exact Frame.refl | apply State.bumpFwd_frame | apply State.raise_frame)

theorem State.terminate_frame {wt : Touch} {s0 s : State} (hw : 
    ({ em := true, fwdCtr := true, evt := true, telCtr := true, irq := true, out := true } : Touch).or wt = wt)
    (hK : Frame wt s0 s) (c : Ctx) : Frame wt s0 (State.terminate s c).1 := by
  refine Frame.step hK hw ?_
  unfold State.terminate
  (try dsimp only)
  repeat' first
    | ((with_reducible show Touch.or _ _ = _) <;> rfl)
    | with_reducible (first
        | exact Frame.refl | apply State.bumpFwd_frame | apply State.look_frame | apply Look.mark_frame)
    | (with_reducible refine Frame.ite (fun _ => ?_) (fun _ => ?_)) | split

theorem State.lookD_frame {wt : Touch} {s0 s : State} (hw : 
    ({ fwdCtr := true, evt := true, telCtr := true, irq := true, out := true } : Touch).or wt = wt)
    (hK : Frame wt s0 s) (c : Ctx) : Frame wt s0 (State.lookD s c).st := by
  refine Frame.step hK hw ?_
  unfold State.lookD
  (try dsimp only)
  repeat' first
    | ((with_reducible show Touch.or _ _ = _) <;> rfl)
    | with_reducible (first | exact Frame.refl | apply State.look_frame | apply State.noLook_frame)
    | (with_reducible refine Frame.ite (fun _ => ?_) (fun _ => ?_)) | split

theorem State.lookS_frame {wt : Touch} {s0 s : State} (hw : 
    ({ fwdCtr := true, evt := true, telCtr := true, irq := true, out := true } : Touch).or wt = wt)
    (hK : Frame wt s0 s) (c : Ctx) : Frame wt s0 (State.lookS s c).st := by
  refine Frame.step hK hw ?_
  unfold State.lookS
  (try dsimp only)
  repeat' first
    | ((with_reducible show Touch.or _ _ = _) <;> rfl)
    | with_reducible (first | exact Frame.refl | apply State.look_frame | apply State.noLook_frame)
    | (with_reducible refine Frame.ite (fun _ => ?_) (fun _ => ?_)) | split

theorem State.lookR_frame {wt : Touch} {s0 s : State} (hw : 
    ({ fwdCtr := true, evt := true, telCtr := true, irq := true, out := true } : Touch).or wt = wt)
    (hK : Frame wt s0 s) (c : Ctx) : Frame wt s0 (State.lookR s c).st := by
  refine Frame.step hK hw ?_
  unfold State.lookR
  (try dsimp only)
  repeat' first
    | ((with_reducible show Touch.or _ _ = _) <;> rfl)
    | with_reducible (first | exact Frame.refl | apply State.look_frame | apply State.noLook_frame)
    | (with_reducible refine Frame.ite (fun _ => ?_) (fun _ => ?_)) | split

theorem State.lookX_frame {wt : Touch} {s0 s : State} (hw : 
    ({ fwdCtr := true, evt := true, telCtr := true, irq := true, out := true } : Touch).or wt = wt)
    (hK : Frame wt s0 s) (c : Ctx) : Frame wt s0 (State.lookX s c).st := by
  refine Frame.step hK hw ?_
  unfold State.lookX
  (try dsimp only)
  repeat' first
    | ((with_reducible show Touch.or _ _ = _) <;> rfl)
    | with_reducible (first | exact Frame.refl | apply State.look_frame | apply State.noLook_frame)
    | (with_reducible refine Frame.ite (fun _ => ?_) (fun _ => ?_)) | split

theorem State.hitS_frame {wt : Touch} {s0 s : State} (hw : 
    ({ em := true } : Touch).or wt = wt)
    (hK : Frame wt s0 s) (c : Ctx) (l : Look) (hl : Frame wt s0 l.st) : Frame wt s0 (State.hitS s c l) := by
  unfold State.hitS
  (try dsimp only)
  repeat' first
    | ((with_reducible show Touch.or _ _ = _); first | rfl | exact Touch.le_trans rfl hw)
    | with_reducible (first | exact hK | apply State.setHit_frame | exact hl)
    | (with_reducible refine Frame.ite (fun _ => ?_) (fun _ => ?_)) | split
    | (refine Frame.step ?_ hw (Frame.fields .refl))

theorem hitD_frame {wt : Touch} {s0 : State} (hw : 
    ({ em := true } : Touch).or wt = wt) (l : Look) (h : Frame wt s0 l.st) : Frame wt s0 (hitD l) := by
  unfold hitD
  split
  · split
    · exact h
    · exact State.setHit_frame (Touch.le_trans rfl hw) h _
  · exact h

theorem State.queueLearn_frame {wt : Touch} {s0 s : State} (hw : 
    ({ learnQ := true, fwdCtr := true, shares := true } : Touch).or wt = wt)
    (hK : Frame wt s0 s) (sl : Nat) (v : LearnEv) : Frame wt s0 (State.queueLearn s sl v) := by
  refine Frame.step hK hw ?_
  unfold State.queueLearn
  (try dsimp only)
  repeat' first
    | ((with_reducible show Touch.or _ _ = _) <;> rfl)
    | with_reducible (first | exact Frame.refl | apply State.bumpFwd_frame | apply State.bumpFwdAt_frame)
    | (with_reducible refine Frame.ite (fun _ => ?_) (fun _ => ?_)) | split
    | fail_if_no_progress ((with_reducible apply Frame.fields); (case hq => rfl); (case hc => rfl))

theorem State.countFwd_frame {wt : Touch} {s0 s : State} (hw : 
    ({ fwdCtr := true, dropCtr := true, shares := true, free := true } : Touch).or wt = wt)
    (hK : Frame wt s0 s) (port : Nat) (f : Fwd) (badD : Bool) : Frame wt s0 (State.countFwd s port f badD) := by
  refine Frame.step hK hw ?_
  unfold State.countFwd
  (try dsimp only)
  repeat' first
    | ((with_reducible show Touch.or _ _ = _) <;> rfl)
    | with_reducible (first
        | exact Frame.refl | apply State.bumpDrop_frame | apply State.bumpFwd_frame | apply State.drawn_frame
        | apply State.tabParity_frame | apply State.bumpFwdAt_frame)
    | (with_reducible refine Frame.foldl _ (fun _ _ hF => ?_) _ ?_)
    | (intro _ hF; skip) | with_reducible assumption
    | (with_reducible refine Frame.ite (fun _ => ?_) (fun _ => ?_)) | split
    | fail_if_no_progress ((with_reducible apply Frame.fields); (case hq => rfl); (case hc => rfl))

end Sys2Proof.Machine
end

