-- ==== Sys2Proof/Laws/FrameCells.lean ====
section
/-! SUPPORT. What the operations of Cells may change. -/

set_option Elab.async false
set_option linter.all false

namespace Sys2Proof.Machine

/-- What settling a queue leaves alone. -/
theorem SchedSt.settle_rest (x : SchedSt) (k : Nat) : { x.settle k with nodes := [] } = { x with nodes := [] } := by
  unfold SchedSt.settle
  repeat' split
  all_goals rfl

theorem State.leaveSpill_frame {wt : Touch} {s0 s : State} (hw :
    ({ spillVoqs := true, voqs := true } : Touch).or wt = wt)
    (hK : Frame wt s0 s) (sl : Nat) (v : Nat) :
    Frame wt s0 (State.leaveSpill s sl v) := by
  refine Frame.step hK hw ?_
  unfold State.leaveSpill
  (try dsimp only)
  repeat' first
    | ((with_reducible show Touch.or _ _ = _) <;> rfl)
    | with_reducible (first | exact Frame.refl | apply State.updVoq_frame)
    | (with_reducible refine Frame.foldl _ (fun _ _ hF => ?_) _ ?_)
    | (intro _ hF; skip) | with_reducible assumption
    | (with_reducible refine Frame.ite (fun _ => ?_) (fun _ => ?_)) | split
    | fail_if_no_progress ((with_reducible apply Frame.fields); (case hq => rfl); (case hc => rfl))

theorem State.ask_frame {wt : Touch} {s0 s : State} (hw : 
    ({ pkts := true, voqs := true } : Touch).or wt = wt)
    (hK : Frame wt s0 s) (pk : Pkt) (p : Nat) (v : Nat) : Frame wt s0 (State.ask s pk p v) := by
  refine Frame.step hK hw ?_
  unfold State.ask
  (try dsimp only)
  repeat' first
    | ((with_reducible show Touch.or _ _ = _) <;> rfl)
    | with_reducible (first | exact Frame.refl | apply State.updPkt_frame | apply State.updVoq_frame)
    | (intro _ hF; skip) | with_reducible assumption | (with_reducible refine Frame.ite (fun _ => ?_) (fun _ => ?_))
    | split

theorem State.pushVoq_frame {wt : Touch} {s0 s : State} (hw : 
    ({ pkts := true, voqs := true } : Touch).or wt = wt)
    (hK : Frame wt s0 s) (pk : Pkt) (p : Nat) (v : Nat) : Frame wt s0 (State.pushVoq s pk p v) := by
  refine Frame.step hK hw ?_
  unfold State.pushVoq
  (try dsimp only)
  repeat' first
    | ((with_reducible show Touch.or _ _ = _) <;> rfl)
    | with_reducible (first | exact Frame.refl | apply State.ask_frame | apply State.updVoq_frame)
    | (intro _ hF; skip)

theorem State.returnCredit_frame {wt : Touch} {s0 s : State} (hw : 
    ({ voqs := true, fabCtr := true, shares := true } : Touch).or wt = wt)
    (hK : Frame wt s0 s) (sl : Nat) (v : Nat) (keep : Nat) : Frame wt s0 (State.returnCredit s sl v keep) := by
  refine Frame.step hK hw ?_
  unfold State.returnCredit
  (try dsimp only)
  repeat' first
    | ((with_reducible show Touch.or _ _ = _) <;> rfl)
    | with_reducible (first
        | exact Frame.refl | apply State.bumpFab_frame | apply State.updVoq_frame | apply State.bumpFabAt_frame)
    | (intro _ hF; skip) | with_reducible assumption | (with_reducible refine Frame.ite (fun _ => ?_) (fun _ => ?_))

theorem State.standBy_frame {wt : Touch} {s0 s : State} (hw :
    ({ voqs := true, fabCtr := true, shares := true } : Touch).or wt = wt)
    (hK : Frame wt s0 s) (sl : Nat) (v : Nat) :
    Frame wt s0 (State.standBy s sl v) := by
  refine Frame.step hK hw ?_
  unfold State.standBy
  (try dsimp only)
  repeat' first
    | ((with_reducible show Touch.or _ _ = _) <;> rfl)
    | with_reducible (first | exact Frame.refl | apply State.updVoq_frame | apply State.returnCredit_frame)
    | (with_reducible refine Frame.foldl _ (fun _ _ hF => ?_) _ ?_)
    | (intro _ hF; skip) | with_reducible assumption
    | (with_reducible refine Frame.ite (fun _ => ?_) (fun _ => ?_)) | split
    | fail_if_no_progress ((with_reducible apply Frame.fields); (case hq => rfl); (case hc => rfl))

theorem State.startOne_frame {wt : Touch} {s0 s : State} (hw : 
    ({ voqs := true, pairs := true, fabCtr := true, shares := true } : Touch).or wt = wt)
    (hK : Frame wt s0 s) (sl : Nat) (v : Nat) : Frame wt s0 (State.startOne s sl v) := by
  refine Frame.step hK hw ?_
  unfold State.startOne
  (try dsimp only)
  repeat' first
    | ((with_reducible show Touch.or _ _ = _) <;> rfl)
    | with_reducible (first
        | exact Frame.refl | apply State.returnCredit_frame | apply State.updPair_frame | apply State.updVoq_frame
        | apply State.standBy_frame)
    | (intro _ hF; skip) | with_reducible assumption | (with_reducible refine Frame.ite (fun _ => ?_) (fun _ => ?_))
    | split

theorem State.startFrames_frame {wt : Touch} {s0 s : State} (hw : 
    ({ voqs := true, pairs := true, fabCtr := true, shares := true } : Touch).or wt = wt)
    (hK : Frame wt s0 s) (sl : Nat) (v : Nat) : Frame wt s0 (State.startFrames s sl v) := by
  refine Frame.step hK hw ?_
  unfold State.startFrames
  (try dsimp only)
  repeat' first
    | ((with_reducible show Touch.or _ _ = _) <;> rfl)
    | with_reducible (first | exact Frame.refl | apply State.startOne_frame)
    | (with_reducible refine Frame.foldl _ (fun _ _ hF => ?_) _ ?_) | (intro _ hF; skip) | with_reducible assumption

theorem State.sendCopies_frame {wt : Touch} {s0 s : State} (hw : 
    ({ pkts := true, pairs := true, fabCtr := true, shares := true } : Touch).or wt = wt)
    (hK : Frame wt s0 s) (pk : Pkt) : Frame wt s0 (State.sendCopies s pk) := by
  refine Frame.step hK hw ?_
  unfold State.sendCopies
  (try dsimp only)
  repeat' first
    | ((with_reducible show Touch.or _ _ = _) <;> rfl)
    | with_reducible (first
        | exact Frame.refl | apply State.bumpFab_frame | apply State.updPair_frame | apply State.updPkt_frame
        | apply State.bumpFabAt_frame)
    | (with_reducible refine Frame.foldl _ (fun _ _ hF => ?_) _ ?_) | (intro _ hF; skip) | with_reducible assumption

theorem State.startMultiOf_frame {wt : Touch} {s0 s : State} (hw :
    ({ pkts := true, multiQ := true, pairs := true, fabCtr := true, shares := true } : Touch).or wt = wt)
    (hK : Frame wt s0 s) (sl : Nat) (c : Nat) :
    Frame wt s0 (State.startMultiOf s sl c) := by
  refine Frame.step hK hw ?_
  unfold State.startMultiOf
  (try dsimp only)
  repeat' first
    | ((with_reducible show Touch.or _ _ = _) <;> rfl)
    | with_reducible (first | exact Frame.refl | apply State.sendCopies_frame)
    | (with_reducible refine Frame.foldl _ (fun _ _ hF => ?_) _ ?_)
    | (intro _ hF; skip) | with_reducible assumption
    | (with_reducible refine Frame.ite (fun _ => ?_) (fun _ => ?_)) | split
    | fail_if_no_progress ((with_reducible apply Frame.fields); (case hq => rfl); (case hc => rfl))

theorem State.startMulti_frame {wt : Touch} {s0 s : State} (hw : 
    ({ pkts := true, multiQ := true, pairs := true, fabCtr := true, shares := true } : Touch).or wt = wt)
    (hK : Frame wt s0 s) (sl : Nat) : Frame wt s0 (State.startMulti s sl) := by
  refine Frame.step hK hw ?_
  unfold State.startMulti
  (try dsimp only)
  repeat' first
    | ((with_reducible show Touch.or _ _ = _) <;> rfl)
    | with_reducible (first | exact Frame.refl | apply State.sendCopies_frame | apply State.startMultiOf_frame) | (intro _ hF; skip)
    | with_reducible assumption | (with_reducible refine Frame.ite (fun _ => ?_) (fun _ => ?_)) | split
    | fail_if_no_progress ((with_reducible apply Frame.fields); (case hq => rfl); (case hc => rfl))

theorem State.sendCell_frame {wt : Touch} {s0 s : State} (hw : 
    ({ pkts := true, pairs := true, links := true, arb := true, fabCtr := true, shares := true } : Touch).or wt = wt)
    (hK : Frame wt s0 s) (sl : Nat) (d : Nat) (plane : Nat) : Frame wt s0 (State.sendCell s sl d plane) := by
  refine Frame.step hK hw ?_
  unfold State.sendCell
  (try dsimp only)
  repeat' first
    | ((with_reducible show Touch.or _ _ = _) <;> rfl)
    | with_reducible (first
        | exact Frame.refl | apply State.bumpFab_frame | apply State.updPair_frame | apply State.updPkt_frame
        | apply State.bumpFabAt_frame)
    | (intro _ hF; skip) | with_reducible assumption | (with_reducible refine Frame.ite (fun _ => ?_) (fun _ => ?_))
    | split | fail_if_no_progress ((with_reducible apply Frame.fields); (case hq => rfl); (case hc => rfl))

theorem State.trySend_frame {wt : Touch} {s0 s : State} (hw : 
    ({ pkts := true, pairs := true, links := true, arb := true, fabCtr := true, shares := true } : Touch).or wt = wt)
    (hK : Frame wt s0 s) (sl : Nat) (d : Nat) : Frame wt s0 (State.trySend s sl d) := by
  refine Frame.step hK hw ?_
  unfold State.trySend
  (try dsimp only)
  repeat' first
    | ((with_reducible show Touch.or _ _ = _) <;> rfl)
    | with_reducible (first | exact Frame.refl | apply State.sendCell_frame)
    | (with_reducible refine Frame.ite (fun _ => ?_) (fun _ => ?_)) | split

theorem State.setEgq_frame {wt : Touch} {s0 s : State} (hw : 
    ({ nodes := true, egq := true } : Touch).or wt = wt) (hK : Frame wt s0 s) (k : Nat) (l : List EgItem) : Frame wt s0 (s.setEgq k l) := by
  refine hK.step hw ?_
  have h := SchedSt.settle_rest { s.sched with egq := Tab.set [] s.sched.egq k l } k
  simp only [SchedSt.mk.injEq] at h
  constructor <;> first
    | exact fun h => Bool.noConfusion h
    | exact fun _ => rfl
    | (intro _; (repeat' apply And.intro) <;> first | rfl | tauto)

theorem State.credit_frame {wt : Touch} {s0 s : State} (hw :
    ({ pairs := true } : Touch).or wt = wt)
    (hK : Frame wt s0 s) (src : Nat) (dst : Nat) (l : List Nat) :
    Frame wt s0 (State.credit s src dst l) := by
  refine Frame.step hK hw ?_
  unfold State.credit
  (try dsimp only)
  repeat' first
    | ((with_reducible show Touch.or _ _ = _) <;> rfl)
    | with_reducible (first | exact Frame.refl | apply State.updPair_frame)
    | (with_reducible refine Frame.foldl _ (fun _ _ hF => ?_) _ ?_)
    | (intro _ hF; skip) | with_reducible assumption
    | (with_reducible refine Frame.ite (fun _ => ?_) (fun _ => ?_)) | split
    | fail_if_no_progress ((with_reducible apply Frame.fields); (case hq => rfl); (case hc => rfl))

theorem State.matchCredit_frame {wt : Touch} {s0 s : State} (hw :
    ({ fabPorts := true } : Touch).or wt = wt)
    (hK : Frame wt s0 s) (p : Nat) (c : Nat) (n : Nat) :
    Frame wt s0 (State.matchCredit s p c n) := by
  refine Frame.step hK hw ?_
  unfold State.matchCredit
  (try dsimp only)
  repeat' first
    | ((with_reducible show Touch.or _ _ = _) <;> rfl)
    | with_reducible (first | exact Frame.refl | apply State.updFabPort_frame)
    | (with_reducible refine Frame.foldl _ (fun _ _ hF => ?_) _ ?_)
    | (intro _ hF; skip) | with_reducible assumption
    | (with_reducible refine Frame.ite (fun _ => ?_) (fun _ => ?_)) | split
    | fail_if_no_progress ((with_reducible apply Frame.fields); (case hq => rfl); (case hc => rfl))

theorem State.egLeave_frame {wt : Touch} {s0 s : State} (hw : 
    ({ pairs := true, fabPorts := true, nodes := true, egq := true } : Touch).or wt = wt)
    (hK : Frame wt s0 s) (k : Nat) (i : EgItem) : Frame wt s0 (State.egLeave s k i) := by
  refine Frame.step hK hw ?_
  unfold State.egLeave
  (try dsimp only)
  repeat' first
    | ((with_reducible show Touch.or _ _ = _) <;> rfl)
    | with_reducible (first
        | exact Frame.refl | apply State.credit_frame | apply State.matchCredit_frame | apply State.setEgq_frame)
    | (intro _ hF; skip) | with_reducible assumption | (with_reducible refine Frame.ite (fun _ => ?_) (fun _ => ?_))

theorem State.egDrop_frame {wt : Touch} {s0 s : State} (hw : 
    ({ fwdCtr := true, bufCtr := true, pkts := true, nextPkt := true, pairs := true, fabPorts := true,
       fabCtr := true, nodes := true, egq := true, schedCtr := true, mirrors := true, cand := true,
       mirQ := true, mirCtr := true, telCtr := true, dropCtr := true, portCtr := true, prismCtr := true,
       timeCtr := true, shares := true, free := true } : Touch).or wt = wt)
    (hK : Frame wt s0 s) (k : Nat) (reason : Nat) (i : EgItem) : Frame wt s0 (State.egDrop s k reason i) := by
  refine Frame.step hK hw ?_
  unfold State.egDrop
  (try dsimp only)
  repeat' first
    | ((with_reducible show Touch.or _ _ = _) <;> rfl)
    | with_reducible (first | exact Frame.refl | apply State.countDrop_frame | apply State.egLeave_frame)

theorem State.pull_frame {wt : Touch} {s0 s : State} (hw : 
    ({ queues := true, spillVoqs := true, voqs := true, multiQ := true, pairs := true, fabCtr := true,
       shares := true } : Touch).or wt = wt)
    (hK : Frame wt s0 s) (pk : Pkt) : Frame wt s0 (State.pull s pk) := by
  refine Frame.step hK hw ?_
  unfold State.pull
  (try dsimp only)
  repeat' first
    | ((with_reducible show Touch.or _ _ = _) <;> rfl)
    | with_reducible (first
        | exact Frame.refl | apply State.credit_frame | apply State.updPair_frame | apply State.updQueue_frame
        | apply State.updVoq_frame | apply State.standBy_frame | apply State.leaveSpill_frame)
    | (with_reducible refine Frame.foldl _ (fun _ _ hF => ?_) _ ?_) | (intro _ hF; skip) | with_reducible assumption
    | (with_reducible refine Frame.ite (fun _ => ?_) (fun _ => ?_)) | split
    | fail_if_no_progress ((with_reducible apply Frame.fields); (case hq => rfl); (case hc => rfl))

theorem State.egOpen_frame {wt : Touch} {s0 s : State} (hw : 
    ({ fwdCtr := true, bufCtr := true, pkts := true, nextPkt := true, fabPorts := true, fabCtr := true,
       nodes := true, egq := true, schedCtr := true, mirrors := true, cand := true, mirQ := true,
       mirCtr := true, telCtr := true, dropCtr := true, portCtr := true, prismCtr := true, timeCtr := true,
       shares := true, free := true } : Touch).or wt = wt)
    (hK : Frame wt s0 s) (c : Cell) (pk : Pkt) (p : Nat) : Frame wt s0 (State.egOpen s c pk p) := by
  refine Frame.step hK hw ?_
  unfold State.egOpen
  (try dsimp only)
  repeat' first
    | ((with_reducible show Touch.or _ _ = _) <;> rfl)
    | with_reducible (first
        | exact Frame.refl | apply State.countDrop_frame | apply State.matchCredit_frame | apply State.setEgq_frame)
    | (with_reducible refine Frame.ite (fun _ => ?_) (fun _ => ?_)) | split

theorem State.egMore_frame {wt : Touch} {s0 s : State} (hw : 
    ({ nodes := true, egq := true } : Touch).or
    wt = wt)
    (hK : Frame wt s0 s) (c : Cell) (k : Nat) : Frame wt s0 (State.egMore s c k) := by
  refine Frame.step hK hw ?_
  unfold State.egMore
  (try dsimp only)
  repeat' first
    | ((with_reducible show Touch.or _ _ = _) <;> rfl)
    | with_reducible (first | exact Frame.refl | apply State.complete_frame | apply State.setEgq_frame)
    | (intro _ hF; skip) | (with_reducible refine Frame.ite (fun _ => ?_) (fun _ => ?_))

theorem State.egTake_frame {wt : Touch} {s0 s : State} (hw : 
    ({ fwdCtr := true, bufCtr := true, pkts := true, nextPkt := true, pairs := true, fabPorts := true,
       fabCtr := true, nodes := true, egq := true, schedCtr := true, mirrors := true, cand := true,
       mirQ := true, mirCtr := true, telCtr := true, dropCtr := true, portCtr := true, prismCtr := true,
       timeCtr := true, shares := true, free := true } : Touch).or
    wt = wt)
    (hK : Frame wt s0 s) (dst : Nat) (c : Cell) : Frame wt s0 (State.egTake s dst c) := by
  refine Frame.step hK hw ?_
  unfold State.egTake
  (try dsimp only)
  repeat' first
    | ((with_reducible show Touch.or _ _ = _) <;> rfl)
    | with_reducible (first
        | exact Frame.refl | apply State.credit_frame | apply State.egMore_frame | apply State.egOpen_frame)
    | (with_reducible refine Frame.foldl _ (fun _ _ hF => ?_) _ ?_) | (intro _ hF; skip) | with_reducible assumption
    | (with_reducible refine Frame.ite (fun _ => ?_) (fun _ => ?_))

theorem State.reseqRelease_frame {wt : Touch} {s0 s : State} (hw : 
    ({ fwdCtr := true, bufCtr := true, pkts := true, nextPkt := true, pairs := true, fabPorts := true,
       fabCtr := true, nodes := true, egq := true, schedCtr := true, mirrors := true, cand := true,
       mirQ := true, mirCtr := true, telCtr := true, dropCtr := true, portCtr := true, prismCtr := true,
       timeCtr := true, shares := true, free := true } : Touch).or
    wt = wt)
    (hK : Frame wt s0 s) (src : Nat) (dst : Nat) (vv : Nat) : Frame wt s0 (State.reseqRelease s src dst vv) := by
  refine Frame.step hK hw ?_
  clear hK
  induction vv generalizing s src dst with
  | zero => exact Frame.refl | succ n ih =>
    unfold State.reseqRelease
    (try dsimp only)
    repeat' first
      | ((with_reducible show Touch.or _ _ = _) <;> rfl) | with_reducible exact Frame.refl
      | with_reducible (refine Frame.trans ?_ (ih ..))
      | with_reducible (first | apply State.credit_frame | apply State.egTake_frame | apply State.updPair_frame)
      | (intro _ hF; skip) | with_reducible assumption | (with_reducible refine Frame.ite (fun _ => ?_) (fun _ => ?_))
      | split

theorem State.reseqGap_frame {wt : Touch} {s0 s : State} (hw : 
    ({ pairs := true, fabCtr := true, shares := true } : Touch).or wt = wt)
    (hK : Frame wt s0 s) (src : Nat) (dst : Nat) : Frame wt s0 (State.reseqGap s src dst) := by
  refine Frame.step hK hw ?_
  unfold State.reseqGap
  (try dsimp only)
  repeat' first
    | ((with_reducible show Touch.or _ _ = _) <;> rfl)
    | with_reducible (first
        | exact Frame.refl | apply State.bumpFab_frame | apply State.updPair_frame | apply State.bumpFabAt_frame)
    | (intro _ hF; skip) | with_reducible assumption | (with_reducible refine Frame.ite (fun _ => ?_) (fun _ => ?_))

theorem State.reseq_frame {wt : Touch} {s0 s : State} (hw : 
    ({ fwdCtr := true, bufCtr := true, pkts := true, nextPkt := true, pairs := true, fabPorts := true,
       fabCtr := true, nodes := true, egq := true, schedCtr := true, mirrors := true, cand := true,
       mirQ := true, mirCtr := true, telCtr := true, dropCtr := true, portCtr := true, prismCtr := true,
       timeCtr := true, shares := true, free := true } : Touch).or
    wt = wt)
    (hK : Frame wt s0 s) (c : Cell) : Frame wt s0 (State.reseq s c) := by
  refine Frame.step hK hw ?_
  unfold State.reseq
  (try dsimp only)
  repeat' first
    | ((with_reducible show Touch.or _ _ = _) <;> rfl)
    | with_reducible (first
        | exact Frame.refl | apply State.bumpFab_frame | apply State.reseqGap_frame | apply State.reseqRelease_frame
        | apply State.updPair_frame | apply State.bumpFabAt_frame)
    | (intro _ hF; skip) | with_reducible assumption | (with_reducible refine Frame.ite (fun _ => ?_) (fun _ => ?_))

theorem State.freeCell_frame {wt : Touch} {s0 s : State} (hw : 
    ({ ports := true, prismFlight := true, recirc := true, merge := true, cells := true, portClass := true,
       queues := true, bufCtr := true, pkts := true, portCtr := true, shares := true, out := true } : Touch).or wt = wt)
    (hK : Frame wt s0 s) (c : Cell) : Frame wt s0 (State.freeCell s c) := by
  refine Frame.step hK hw ?_
  unfold State.freeCell
  (try dsimp only)
  repeat' first
    | ((with_reducible show Touch.or _ _ = _) <;> rfl)
    | with_reducible (first
        | exact Frame.refl | apply State.release_frame | apply State.uncharge_frame | apply State.updPkt_frame)
    | (intro _ hF; skip) | with_reducible assumption | (with_reducible refine Frame.ite (fun _ => ?_) (fun _ => ?_))
    | split | fail_if_no_progress ((with_reducible apply Frame.fields); (case hq => rfl); (case hc => rfl))

theorem State.takeCredits_frame {wt : Touch} {s0 s : State} (hw : 
    ({ ports := true, prismFlight := true, recirc := true, merge := true, cells := true, portClass := true,
       queues := true, bufCtr := true, pkts := true, pairs := true, portCtr := true, shares := true,
       out := true } : Touch).or wt = wt)
    (hK : Frame wt s0 s) (src : Nat) (dst : Nat) : Frame wt s0 (State.takeCredits s src dst) := by
  refine Frame.step hK hw ?_
  unfold State.takeCredits
  (try dsimp only)
  repeat' first
    | ((with_reducible show Touch.or _ _ = _) <;> rfl)
    | with_reducible (first
        | exact Frame.refl | apply State.freeCell_frame | apply State.updPair_frame | apply State.xoffSweep_frame)
    | (with_reducible refine Frame.foldl _ (fun _ _ hF => ?_) _ ?_) | (intro _ hF; skip) | with_reducible assumption

theorem State.egMirror_frame {wt : Touch} {s0 s : State} (hw : 
    ({ pkts := true, nextPkt := true, mirrors := true, cand := true, mirQ := true, mirCtr := true,
       telCtr := true, shares := true, free := true } : Touch).or wt = wt)
    (hK : Frame wt s0 s) (pk : Pkt) (p : Nat) (b : List Byte) (stomped : Bool) : Frame wt s0 (State.egMirror s pk p b
    stomped) := by
  refine Frame.step hK hw ?_
  unfold State.egMirror
  (try dsimp only)
  repeat' first
    | ((with_reducible show Touch.or _ _ = _) <;> rfl)
    | with_reducible (first | exact Frame.refl | apply State.mirOffer_frame)
    | (with_reducible refine Frame.ite (fun _ => ?_) (fun _ => ?_))

end Sys2Proof.Machine
end

