-- ==== Sys2Proof/Laws/FrameHealth.lean ====
section
/-! SUPPORT. What the operations of Health may change. -/

set_option Elab.async false
set_option linter.all false

namespace Sys2Proof.Machine

theorem State.healthChanged_frame {wt : Touch} {s0 s : State} (hw : 
    ({ evt := true, telCtr := true, healthGen := true, irq := true, out := true } : Touch).or wt = wt)
    (hK : Frame wt s0 s) : Frame wt s0 (State.healthChanged s) := by
  refine Frame.step hK hw ?_
  unfold State.healthChanged
  (try dsimp only)
  repeat' first
    | ((with_reducible show Touch.or _ _ = _) <;> rfl)
    | with_reducible (first | exact Frame.refl | apply State.raise_frame) | split
    | fail_if_no_progress ((with_reducible apply Frame.fields); (case hq => rfl); (case hc => rfl))

theorem State.healthIf_frame {wt : Touch} {s0 s : State} (hw : 
    ({ evt := true, telCtr := true, healthGen := true, irq := true, out := true } : Touch).or wt = wt)
    (hK : Frame wt s0 s) (b : Bool) : Frame wt s0 (State.healthIf s b) := by
  refine Frame.step hK hw ?_
  unfold State.healthIf
  (try dsimp only)
  repeat' first
    | ((with_reducible show Touch.or _ _ = _) <;> rfl)
    | with_reducible (first | exact Frame.refl | apply State.healthChanged_frame)
    | (with_reducible refine Frame.ite (fun _ => ?_) (fun _ => ?_))

theorem State.healthSince_frame {wt : Touch} {s0 s : State} (hw :
    ({ evt := true, telCtr := true, healthGen := true, irq := true, out := true } : Touch).or wt = wt)
    (hK : Frame wt s0 s) (before : State) :
    Frame wt s0 (State.healthSince s before) := by
  refine Frame.step hK hw ?_
  unfold State.healthSince
  (try dsimp only)
  repeat' first
    | ((with_reducible show Touch.or _ _ = _) <;> rfl)
    | with_reducible (first | exact Frame.refl | apply State.healthIf_frame)
    | (with_reducible refine Frame.foldl _ (fun _ _ hF => ?_) _ ?_)
    | (intro _ hF; skip) | with_reducible assumption
    | (with_reducible refine Frame.ite (fun _ => ?_) (fun _ => ?_)) | split
    | fail_if_no_progress ((with_reducible apply Frame.fields); (case hq => rfl); (case hc => rfl))

theorem State.repairAdd_frame {wt : Touch} {s0 s : State} (hw : 
    ({ repairLog := true } : Touch).or wt = wt)
    (hK : Frame wt s0 s) (kind : Nat) (unit : Nat) : Frame wt s0 (State.repairAdd s kind unit) := by
  refine Frame.step hK hw ?_
  unfold State.repairAdd
  (try dsimp only)
  repeat' first
    | ((with_reducible show Touch.or _ _ = _) <;> rfl) | with_reducible exact Frame.refl
    | (with_reducible refine Frame.ite (fun _ => ?_) (fun _ => ?_)) | split
    | fail_if_no_progress ((with_reducible apply Frame.fields); (case hq => rfl); (case hc => rfl))

theorem State.repairDel_frame {wt : Touch} {s0 s : State} (hw : 
    ({ repairLog := true } : Touch).or wt = wt)
    (hK : Frame wt s0 s) (kind : Nat) (unit : Nat) : Frame wt s0 (State.repairDel s kind unit) :=
  hK.step hw (.ofView rfl)

theorem State.setLane_frame {wt : Touch} {s0 s : State} (hw : 
    ({ lanes := true, evt := true, telCtr := true, healthGen := true, irq := true, out := true } : Touch).or wt = wt)
    (hK : Frame wt s0 s) (i : Nat) (f : LaneSt → LaneSt) : Frame wt s0 (State.setLane s i f) := by
  refine Frame.step hK hw ?_
  unfold State.setLane
  (try dsimp only)
  repeat' first
    | ((with_reducible show Touch.or _ _ = _) <;> rfl)
    | with_reducible (first | exact Frame.refl | apply State.healthIf_frame | apply State.updLane_frame)

theorem State.setLanes_frame {wt : Touch} {s0 s : State} (hw : 
    ({ lanes := true, evt := true, telCtr := true, healthGen := true, irq := true, out := true } : Touch).or wt = wt)
    (hK : Frame wt s0 s) (i : Nat) (n : Nat) (f : Nat → LaneSt → LaneSt) : Frame wt s0 (State.setLanes s i n f) := by
  refine Frame.step hK hw ?_
  unfold State.setLanes
  (try dsimp only)
  repeat' first
    | ((with_reducible show Touch.or _ _ = _) <;> rfl)
    | with_reducible (first | exact Frame.refl | apply State.healthIf_frame | apply State.updLane_frame)
    | (with_reducible refine Frame.foldl _ (fun _ _ hF => ?_) _ ?_) | (intro _ hF; skip) | with_reducible assumption

end Sys2Proof.Machine
end

