-- ==== Sys2Proof/Laws/FramePortBase.lean ====
section
/-! SUPPORT. What the operations of PortBase may change. -/

set_option Elab.async false
set_option linter.all false

namespace Sys2Proof.Machine

theorem State.ltSend_frame {wt : Touch} {s0 s : State} (hw : 
    ({ ports := true, portCtr := true, out := true } : Touch).or wt = wt)
    (hK : Frame wt s0 s) (p : Nat) (type : Nat) (txId : Nat) (target : Nat) (nak : Nat) (flags : Nat) : Frame wt s0
    (State.ltSend s p type txId target nak flags) := by
  refine Frame.step hK hw ?_
  unfold State.ltSend
  (try dsimp only)
  repeat' first
    | ((with_reducible show Touch.or _ _ = _) <;> rfl)
    | with_reducible (first | exact Frame.refl | apply State.sendCtl_frame) | split
    | fail_if_no_progress ((with_reducible apply Frame.fields); (case hq => rfl); (case hc => rfl))

theorem State.updLt_frame {wt : Touch} {s0 s : State} (hw :
    ({ ports := true } : Touch).or wt = wt)
    (hK : Frame wt s0 s) (p : Nat) (f : LtSt → LtSt) :
    Frame wt s0 (State.updLt s p f) := by
  refine Frame.step hK hw ?_
  unfold State.updLt
  (try dsimp only)
  repeat' first
    | ((with_reducible show Touch.or _ _ = _) <;> rfl)
    | with_reducible (first | exact Frame.refl | apply State.updPort_frame)
    | (with_reducible refine Frame.foldl _ (fun _ _ hF => ?_) _ ?_)
    | (intro _ hF; skip) | with_reducible assumption
    | (with_reducible refine Frame.ite (fun _ => ?_) (fun _ => ?_)) | split
    | fail_if_no_progress ((with_reducible apply Frame.fields); (case hq => rfl); (case hc => rfl))

theorem State.parkLanes_frame {wt : Touch} {s0 s : State} (hw : 
    ({ lanes := true, evt := true, telCtr := true, healthGen := true, irq := true, out := true } : Touch).or wt = wt)
    (hK : Frame wt s0 s) (p : Nat) (w : Nat) : Frame wt s0 (State.parkLanes s p w) := by
  refine Frame.step hK hw ?_
  unfold State.parkLanes
  (try dsimp only)
  repeat' first
    | ((with_reducible show Touch.or _ _ = _) <;> rfl)
    | with_reducible (first | exact Frame.refl | apply State.setLanes_frame) | (intro _ hF; skip)
    | with_reducible assumption | split
    | fail_if_no_progress ((with_reducible apply Frame.fields); (case hq => rfl); (case hc => rfl))

theorem State.ltWiden_frame {wt : Touch} {s0 s : State} (hw : 
    ({ lanes := true, ports := true, evt := true, telCtr := true, portCtr := true, healthGen := true,
       irq := true, out := true } : Touch).or wt = wt)
    (hK : Frame wt s0 s) (p : Nat) : Frame wt s0 (State.ltWiden s p) := by
  refine Frame.step hK hw ?_
  unfold State.ltWiden
  (try dsimp only)
  repeat' first
    | ((with_reducible show Touch.or _ _ = _) <;> rfl) | with_reducible (first
        | exact Frame.refl | apply State.ltSend_frame | apply State.parkLanes_frame | apply State.updLt_frame)
    | (intro _ hF; skip) | with_reducible assumption | (with_reducible refine Frame.ite (fun _ => ?_) (fun _ => ?_))
    | split | fail_if_no_progress ((with_reducible apply Frame.fields); (case hq => rfl); (case hc => rfl))

theorem State.ltDepth_frame {wt : Touch} {s0 s : State} (hw : 
    ({ lanes := true, ports := true, evt := true, telCtr := true, portCtr := true, healthGen := true,
       irq := true, out := true } : Touch).or wt = wt)
    (hK : Frame wt s0 s) (p : Nat) : Frame wt s0 (State.ltDepth s p) := by
  refine Frame.step hK hw ?_
  unfold State.ltDepth
  (try dsimp only)
  repeat' first
    | ((with_reducible show Touch.or _ _ = _) <;> rfl)
    | with_reducible (first | exact Frame.refl | apply State.ltWiden_frame)
    | (with_reducible refine Frame.ite (fun _ => ?_) (fun _ => ?_)) | split
    | fail_if_no_progress ((with_reducible apply Frame.fields); (case hq => rfl); (case hc => rfl))

theorem State.dropQueued_frame {wt : Touch} {s0 s : State} (hw : 
    ({ fwdCtr := true, bufCtr := true, pkts := true, nextPkt := true, pairs := true, fabPorts := true,
       fabCtr := true, nodes := true, egq := true, schedCtr := true, mirrors := true, cand := true,
       mirQ := true, mirCtr := true, telCtr := true, dropCtr := true, portCtr := true, prismCtr := true,
       timeCtr := true, shares := true, free := true } : Touch).or wt = wt)
    (hK : Frame wt s0 s) (p : Nat) (reason : Nat) (keep : Nat → Bool) : Frame wt s0 (State.dropQueued s p reason keep)
    := by
  refine Frame.step hK hw ?_
  unfold State.dropQueued
  (try dsimp only)
  repeat' first
    | ((with_reducible show Touch.or _ _ = _) <;> rfl)
    | with_reducible (first | exact Frame.refl | apply State.egDrop_frame)
    | (with_reducible refine Frame.foldl _ (fun _ _ hF => ?_) _ ?_) | (intro _ hF; skip) | with_reducible assumption
    | (with_reducible refine Frame.ite (fun _ => ?_) (fun _ => ?_)) | split
    | fail_if_no_progress ((with_reducible apply Frame.fields); (case hq => rfl); (case hc => rfl))

theorem State.loseTx_frame {wt : Touch} {s0 s : State} (hw : 
    ({ pairs := true, fabPorts := true, nodes := true, egq := true, portCtr := true } : Touch).or wt =
    wt)
    (hK : Frame wt s0 s) (p : Nat) (lostCtr : Option Nat) : Frame wt s0 (State.loseTx s p lostCtr) := by
  refine Frame.step hK hw ?_
  unfold State.loseTx
  (try dsimp only)
  repeat' first
    | ((with_reducible show Touch.or _ _ = _) <;> rfl)
    | with_reducible (first | exact Frame.refl | apply State.bumpPort_frame | apply State.egLeave_frame)
    | (intro _ hF; skip) | with_reducible assumption | split
    | fail_if_no_progress ((with_reducible apply Frame.fields); (case hq => rfl); (case hc => rfl))

theorem State.loseQueued_frame {wt : Touch} {s0 s : State} (hw :
    ({ pairs := true, fabPorts := true, nodes := true, egq := true, portCtr := true } : Touch).or wt = wt)
    (hK : Frame wt s0 s) (p : Nat) (ctr : Nat) :
    Frame wt s0 (State.loseQueued s p ctr) := by
  refine Frame.step hK hw ?_
  unfold State.loseQueued
  (try dsimp only)
  repeat' first
    | ((with_reducible show Touch.or _ _ = _) <;> rfl)
    | with_reducible (first | exact Frame.refl | apply State.egLeave_frame | apply State.bumpPort_frame)
    | (with_reducible refine Frame.foldl _ (fun _ _ hF => ?_) _ ?_)
    | (intro _ hF; skip) | with_reducible assumption
    | (with_reducible refine Frame.ite (fun _ => ?_) (fun _ => ?_)) | split
    | fail_if_no_progress ((with_reducible apply Frame.fields); (case hq => rfl); (case hc => rfl))

theorem State.stormClears_frame {wt : Touch} {s0 s : State} (hw : 
    ({ evt := true, telCtr := true, irq := true, out := true } : Touch).or wt = wt)
    (hK : Frame wt s0 s) (p : Nat) : Frame wt s0 (State.stormClears s p) := by
  refine Frame.step hK hw ?_
  unfold State.stormClears
  (try dsimp only)
  repeat' first
    | ((with_reducible show Touch.or _ _ = _) <;> rfl)
    | with_reducible (first | exact Frame.refl | apply State.raise_frame)
    | (with_reducible refine Frame.foldl _ (fun _ _ hF => ?_) _ ?_) | (intro _ hF; skip) | with_reducible assumption
    | split | fail_if_no_progress ((with_reducible apply Frame.fields); (case hq => rfl); (case hc => rfl))

theorem State.linkDown_frame {wt : Touch} {s0 s : State} (hw : 
    ({ lanes := true, ports := true, fwdCtr := true, bufCtr := true, pkts := true, nextPkt := true,
       pairs := true, fabPorts := true, fabCtr := true, nodes := true, egq := true, waitTx := true,
       schedCtr := true, evt := true, mirrors := true, cand := true, mirQ := true, mirCtr := true,
       telCtr := true, dropCtr := true, portCtr := true, prismCtr := true, timeCtr := true, shares := true,
       healthGen := true, irq := true, out := true, free := true } : Touch).or wt = wt)
    (hK : Frame wt s0 s) (p : Nat) (lostCtr : Option Nat) : Frame wt s0 (State.linkDown s p lostCtr) := by
  refine Frame.step hK hw ?_
  unfold State.linkDown
  (try dsimp only)
  repeat' first
    | ((with_reducible show Touch.or _ _ = _) <;> rfl) | with_reducible (first
        | exact Frame.refl | apply State.bumpPort_frame | apply State.dropQueued_frame | apply State.loseTx_frame
        | apply State.parkLanes_frame | apply State.stormClears_frame | apply State.updPort_frame
        | apply State.setWaiting_frame)
    | (intro _ hF; skip) | with_reducible assumption | (with_reducible refine Frame.ite (fun _ => ?_) (fun _ => ?_))
    | split | fail_if_no_progress ((with_reducible apply Frame.fields); (case hq => rfl); (case hc => rfl))

end Sys2Proof.Machine
end

