-- ==== Sys2Proof/Laws/FrameAdmit.lean ====
section
/-! SUPPORT. What the operations of Admit may change. -/

set_option Elab.async false
set_option linter.all false

namespace Sys2Proof.Machine

theorem State.takeDraw_frame {wt : Touch} {s0 s : State} (hw : 
    ({ lfsr := true, free := true } : Touch).or wt = wt)
    (hK : Frame wt s0 s) (pk : Pkt) : Frame wt s0 (State.takeDraw s pk) := by
  refine Frame.step hK hw ?_
  unfold State.takeDraw
  (try dsimp only)
  repeat' first
    | ((with_reducible show Touch.or _ _ = _) <;> rfl) | with_reducible exact Frame.refl
    | (with_reducible refine Frame.ite (fun _ => ?_) (fun _ => ?_)) | split
    | fail_if_no_progress ((with_reducible apply Frame.fields); (case hq => rfl); (case hc => rfl))

theorem State.spillWrite_frame {wt : Touch} {s0 s : State} (hw : 
    ({ queues := true, bufCtr := true, pkts := true, voqs := true, shares := true } : Touch).or wt = wt)
    (hK : Frame wt s0 s) (pk : Pkt) (p : Nat) : Frame wt s0 (State.spillWrite s pk p) := by
  refine Frame.step hK hw ?_
  unfold State.spillWrite
  (try dsimp only)
  repeat' first
    | ((with_reducible show Touch.or _ _ = _) <;> rfl)
    | with_reducible (first
        | exact Frame.refl | apply State.bumpBuf_frame | apply State.updPkt_frame | apply State.updQueue_frame
        | apply State.updVoq_frame | apply State.bumpBufAt_frame)
    | (intro _ hF; skip)

theorem State.spillEnter_frame {wt : Touch} {s0 s : State} (hw : 
    ({ spillVoqs := true, bufCtr := true, shares := true } : Touch).or wt = wt)
    (hK : Frame wt s0 s) (pk : Pkt) (p : Nat) : Frame wt s0 (State.spillEnter s pk p) := by
  refine Frame.step hK hw ?_
  unfold State.spillEnter
  (try dsimp only)
  repeat' first
    | ((with_reducible show Touch.or _ _ = _) <;> rfl)
    | with_reducible (first | exact Frame.refl | apply State.bumpBuf_frame | apply State.bumpBufAt_frame)
    | (with_reducible refine Frame.ite (fun _ => ?_) (fun _ => ?_)) | split
    | fail_if_no_progress ((with_reducible apply Frame.fields); (case hq => rfl); (case hc => rfl))

theorem State.dropAdmitted_frame {wt : Touch} {s0 s : State} (hw : 
    ({ ports := true, prismFlight := true, recirc := true, merge := true, fwdCtr := true, cells := true,
       portClass := true, queues := true, bufCtr := true, pkts := true, nextPkt := true, fabCtr := true,
       schedCtr := true, mirrors := true, cand := true, mirQ := true, mirCtr := true, telCtr := true,
       dropCtr := true, portCtr := true, prismCtr := true, timeCtr := true, shares := true, out := true,
       free := true } : Touch).or wt = wt)
    (hK : Frame wt s0 s) (pk : Pkt) (reason : Nat) (eg : Nat) : Frame wt s0 (State.dropAdmitted s pk reason eg) := by
  refine Frame.step hK hw ?_
  unfold State.dropAdmitted
  (try dsimp only)
  repeat' first
    | ((with_reducible show Touch.or _ _ = _) <;> rfl)
    | with_reducible (first | exact Frame.refl | apply State.countDrop_frame | apply State.release_frame)

theorem State.spillIn_frame {wt : Touch} {s0 s : State} (hw :
    ({ lanes := true, ports := true, prismFlight := true, recirc := true, merge := true, fwdCtr := true,
       cells := true, portClass := true, queues := true, bufCtr := true, pkts := true, nextPkt := true,
       voqs := true, fabCtr := true, schedCtr := true, evt := true, mirrors := true, cand := true,
       mirQ := true, mirCtr := true, telCtr := true, dropCtr := true, portCtr := true, prismCtr := true,
       timeCtr := true, shares := true, healthGen := true, irq := true, out := true, free := true } : Touch).or wt = wt)
    (hK : Frame wt s0 s) (pk : Pkt) (p : Nat) :
    Frame wt s0 (State.spillIn s pk p) := by
  refine Frame.step hK hw ?_
  unfold State.spillIn
  (try dsimp only)
  repeat' first
    | ((with_reducible show Touch.or _ _ = _) <;> rfl)
    | with_reducible (first
        | exact Frame.refl | apply State.dropAdmitted_frame | apply State.spillWrite_frame
        | apply State.xoffSweep_frame | apply State.ltDepth_frame)
    | (with_reducible refine Frame.foldl _ (fun _ _ hF => ?_) _ ?_)
    | (intro _ hF; skip) | with_reducible assumption
    | (with_reducible refine Frame.ite (fun _ => ?_) (fun _ => ?_)) | split
    | fail_if_no_progress ((with_reducible apply Frame.fields); (case hq => rfl); (case hc => rfl))

theorem State.dropUnfit_frame {wt : Touch} {s0 s : State} (hw :
    ({ ports := true, prismFlight := true, recirc := true, merge := true, fwdCtr := true, cells := true,
       portClass := true, queues := true, spillVoqs := true, bufCtr := true, pkts := true, nextPkt := true,
       voqs := true, multiQ := true, pairs := true, fabCtr := true, schedCtr := true, mirrors := true,
       cand := true, mirQ := true, mirCtr := true, telCtr := true, dropCtr := true, portCtr := true,
       prismCtr := true, timeCtr := true, shares := true, out := true, free := true } : Touch).or wt = wt)
    (hK : Frame wt s0 s) (id : Nat) (p : Nat) :
    Frame wt s0 (State.dropUnfit s id p) := by
  refine Frame.step hK hw ?_
  unfold State.dropUnfit
  (try dsimp only)
  repeat' first
    | ((with_reducible show Touch.or _ _ = _) <;> rfl)
    | with_reducible (first
        | exact Frame.refl | apply State.pull_frame | apply State.release_frame | apply State.countDrop_frame)
    | (with_reducible refine Frame.foldl _ (fun _ _ hF => ?_) _ ?_)
    | (intro _ hF; skip) | with_reducible assumption
    | (with_reducible refine Frame.ite (fun _ => ?_) (fun _ => ?_)) | split
    | fail_if_no_progress ((with_reducible apply Frame.fields); (case hq => rfl); (case hc => rfl))

theorem State.enqueueOne_frame {wt : Touch} {s0 s : State} (hw : 
    ({ lanes := true, ports := true, prismFlight := true, recirc := true, merge := true, fwdCtr := true,
       cells := true, portClass := true, queues := true, spillVoqs := true, bufCtr := true, pkts := true,
       nextPkt := true, voqs := true, pairs := true, links := true, arb := true, fabCtr := true,
       schedCtr := true, evt := true, mirrors := true, cand := true, mirQ := true, mirCtr := true,
       telCtr := true, dropCtr := true, portCtr := true, prismCtr := true, timeCtr := true, shares := true,
       healthGen := true, irq := true, out := true, free := true } : Touch).or wt = wt)
    (hK : Frame wt s0 s) (pk : Pkt) (p : Nat) : Frame wt s0 (State.enqueueOne s pk p) := by
  refine Frame.step hK hw ?_
  unfold State.enqueueOne
  (try dsimp only)
  repeat' first
    | ((with_reducible show Touch.or _ _ = _) <;> rfl)
    | with_reducible (first
        | exact Frame.refl | apply State.bumpFab_frame | apply State.dropAdmitted_frame | apply State.ltDepth_frame
        | apply State.pushVoq_frame | apply State.spillEnter_frame | apply State.startFrames_frame
        | apply State.startOne_frame | apply State.trySend_frame | apply State.bumpFabAt_frame
        | apply State.updVoq_frame)
    | (with_reducible refine Frame.ite (fun _ => ?_) (fun _ => ?_)) | split

theorem State.enqueueMulti_frame {wt : Touch} {s0 s : State} (hw : 
    ({ lanes := true, ports := true, pkts := true, multiQ := true, pairs := true, links := true,
       arb := true, fabCtr := true, evt := true, telCtr := true, portCtr := true, shares := true,
       healthGen := true, irq := true, out := true } : Touch).or wt = wt)
    (hK : Frame wt s0 s) (pk : Pkt) : Frame wt s0 (State.enqueueMulti s pk) := by
  refine Frame.step hK hw ?_
  unfold State.enqueueMulti
  (try dsimp only)
  repeat' first
    | ((with_reducible show Touch.or _ _ = _) <;> rfl)
    | with_reducible (first
        | exact Frame.refl | apply State.bumpFab_frame | apply State.ltDepth_frame | apply State.startMulti_frame
        | apply State.trySend_frame | apply State.startMultiOf_frame | apply State.bumpFabAt_frame)
    | (with_reducible refine Frame.foldl _ (fun _ _ hF => ?_) _ ?_) | (intro _ hF; skip) | with_reducible assumption
    | (with_reducible refine Frame.ite (fun _ => ?_) (fun _ => ?_)) | split
    | fail_if_no_progress ((with_reducible apply Frame.fields); (case hq => rfl); (case hc => rfl))

theorem State.enqueuePkt_frame {wt : Touch} {s0 s : State} (hw : 
    ({ lanes := true, ports := true, prismFlight := true, recirc := true, merge := true, fwdCtr := true,
       cells := true, portClass := true, queues := true, spillVoqs := true, bufCtr := true, pkts := true,
       nextPkt := true, voqs := true, multiQ := true, pairs := true, links := true, arb := true,
       fabCtr := true, schedCtr := true, evt := true, mirrors := true, cand := true, mirQ := true,
       mirCtr := true, telCtr := true, dropCtr := true, portCtr := true, prismCtr := true, timeCtr := true,
       shares := true, healthGen := true, irq := true, out := true, free := true } : Touch).or wt = wt)
    (hK : Frame wt s0 s) (id : Nat) : Frame wt s0 (State.enqueuePkt s id) := by
  refine Frame.step hK hw ?_
  unfold State.enqueuePkt
  (try dsimp only)
  repeat' first
    | ((with_reducible show Touch.or _ _ = _) <;> rfl)
    | with_reducible (first
        | exact Frame.refl | apply State.enqueueMulti_frame | apply State.enqueueOne_frame
        | apply State.updPkt_frame | apply State.release_frame)
    | split

theorem State.takeCells_frame {wt : Touch} {s0 s : State} (hw : 
    ({ cells := true, queues := true, pkts := true } : Touch).or wt = wt)
    (hK : Frame wt s0 s) (pk : Pkt) : Frame wt s0 (State.takeCells s pk) := by
  refine Frame.step hK hw ?_
  unfold State.takeCells
  (try dsimp only)
  repeat' first
    | ((with_reducible show Touch.or _ _ = _) <;> rfl)
    | with_reducible (first
        | exact Frame.refl | apply State.updPkt_frame | apply State.updQueue_frame | apply State.chargeQ_frame)
    | (with_reducible refine Frame.setAlloc ?_ ?_ (BufSt.allocIf_rest ..))
    | (with_reducible refine Frame.foldl _ (fun _ _ hF => ?_) _ ?_)
    | (intro _ hF; skip) | with_reducible assumption
    | (with_reducible refine Frame.ite (fun _ => ?_) (fun _ => ?_)) | split
    | fail_if_no_progress ((with_reducible apply Frame.fields); (case hq => rfl); (case hc => rfl))

theorem State.commitPkt_frame {wt : Touch} {s0 s : State} (hw :
    ({ prismFlight := true, fwdFlight := true, pkts := true, prismCtr := true } : Touch).or wt = wt)
    (hK : Frame wt s0 s) (pk : Pkt) :
    Frame wt s0 (State.commitPkt s pk) := by
  refine Frame.step hK hw ?_
  unfold State.commitPkt
  (try dsimp only)
  repeat' first
    | ((with_reducible show Touch.or _ _ = _) <;> rfl)
    | with_reducible (first
        | exact Frame.refl | apply State.leaveGen_frame | apply State.updPkt_frame | apply State.bumpPrism_frame
        | apply State.retire_frame)
    | (with_reducible refine Frame.foldl _ (fun _ _ hF => ?_) _ ?_)
    | (intro _ hF; skip) | with_reducible assumption
    | (with_reducible refine Frame.ite (fun _ => ?_) (fun _ => ?_)) | split
    | fail_if_no_progress ((with_reducible apply Frame.fields); (case hq => rfl); (case hc => rfl))

theorem State.acceptPkt_frame {wt : Touch} {s0 s : State} (hw : 
    ({ lanes := true, ports := true, prismFlight := true, recirc := true, merge := true, fwdFlight := true,
       fwdCtr := true, cells := true, portClass := true, queues := true, spillVoqs := true, bufCtr := true,
       pkts := true, nextPkt := true, voqs := true, multiQ := true, pairs := true, links := true,
       arb := true, fabCtr := true, schedCtr := true, evt := true, mirrors := true, cand := true,
       mirQ := true, mirCtr := true, telCtr := true, dropCtr := true, portCtr := true, prismCtr := true,
       timeCtr := true, shares := true, healthGen := true, irq := true, out := true, free := true } : Touch).or wt = wt)
    (hK : Frame wt s0 s) (id : Nat) : Frame wt s0 (State.acceptPkt s id) := by
  refine Frame.step hK hw ?_
  unfold State.acceptPkt
  (try dsimp only)
  repeat' first
    | ((with_reducible show Touch.or _ _ = _) <;> rfl)
    | with_reducible (first
        | exact Frame.refl | apply State.bumpBuf_frame | apply State.enqueuePkt_frame | apply State.leaveMerge_frame
        | apply State.retire_frame | apply State.takeCells_frame | apply State.xoffSweep_frame
        | apply State.commitPkt_frame | apply State.bumpBufAt_frame)

theorem State.needXoff_frame {wt : Touch} {s0 s : State} (hw :
    ({ ports := true, portClass := true, bufCtr := true, portCtr := true, shares := true,
       out := true } : Touch).or wt = wt)
    (hK : Frame wt s0 s) (pk : Pkt) :
    Frame wt s0 (State.needXoff s pk) := by
  refine Frame.step hK hw ?_
  unfold State.needXoff
  (try dsimp only)
  repeat' first
    | ((with_reducible show Touch.or _ _ = _) <;> rfl)
    | with_reducible (first | exact Frame.refl | apply State.assertXoff_frame)
    | (with_reducible refine Frame.foldl _ (fun _ _ hF => ?_) _ ?_)
    | (intro _ hF; skip) | with_reducible assumption
    | (with_reducible refine Frame.ite (fun _ => ?_) (fun _ => ?_)) | split
    | fail_if_no_progress ((with_reducible apply Frame.fields); (case hq => rfl); (case hc => rfl))

theorem State.admitLossless_frame {wt : Touch} {s0 s : State} (hw : 
    ({ lanes := true, ports := true, prismFlight := true, recirc := true, merge := true, fwdFlight := true,
       fwdCtr := true, cells := true, portClass := true, queues := true, spillVoqs := true, bufCtr := true,
       pkts := true, nextPkt := true, voqs := true, multiQ := true, pairs := true, links := true,
       arb := true, fabCtr := true, schedCtr := true, evt := true, mirrors := true, cand := true,
       mirQ := true, mirCtr := true, telCtr := true, dropCtr := true, portCtr := true, prismCtr := true,
       timeCtr := true, shares := true, rate := true, healthGen := true, irq := true, out := true,
       free := true } : Touch).or wt = wt)
    (hK : Frame wt s0 s) (pk : Pkt) : Frame wt s0 (State.admitLossless s pk) := by
  refine Frame.step hK hw ?_
  unfold State.admitLossless
  (try dsimp only)
  repeat' first
    | ((with_reducible show Touch.or _ _ = _) <;> rfl)
    | with_reducible (first
        | exact Frame.refl | apply State.acceptPkt_frame | apply State.charge_frame | apply State.dropPkt_frame
        | apply State.raiseLimited_frame | apply State.needXoff_frame)
    | (with_reducible refine Frame.ite (fun _ => ?_) (fun _ => ?_)) | split

theorem State.dropCopies_frame {wt : Touch} {s0 s : State} (hw :
    ({ fwdCtr := true, bufCtr := true, pkts := true, nextPkt := true, fabCtr := true, schedCtr := true,
       mirrors := true, cand := true, mirQ := true, mirCtr := true, telCtr := true, dropCtr := true,
       portCtr := true, prismCtr := true, timeCtr := true, shares := true, free := true } : Touch).or wt = wt)
    (hK : Frame wt s0 s) (v : State) (pk : Pkt) (x : Nat) :
    Frame wt s0 (State.dropCopies s v pk x) := by
  refine Frame.step hK hw ?_
  unfold State.dropCopies
  (try dsimp only)
  repeat' first
    | ((with_reducible show Touch.or _ _ = _) <;> rfl)
    | with_reducible (first | exact Frame.refl | apply State.countDrop_frame)
    | (with_reducible refine Frame.foldl _ (fun _ _ hF => ?_) _ ?_)
    | (intro _ hF; skip) | with_reducible assumption
    | (with_reducible refine Frame.ite (fun _ => ?_) (fun _ => ?_)) | split
    | fail_if_no_progress ((with_reducible apply Frame.fields); (case hq => rfl); (case hc => rfl))

theorem State.markCopies_frame {wt : Touch} {s0 s : State} (hw :
    ({ bufCtr := true, pkts := true, shares := true } : Touch).or wt = wt)
    (hK : Frame wt s0 s) (v : State) (pk : Pkt) (x : Nat) :
    Frame wt s0 (State.markCopies s v pk x) := by
  refine Frame.step hK hw ?_
  unfold State.markCopies
  (try dsimp only)
  repeat' first
    | ((with_reducible show Touch.or _ _ = _) <;> rfl)
    | with_reducible (first | exact Frame.refl | apply State.bumpBufAt_frame | apply State.updPkt_frame)
    | (with_reducible refine Frame.foldl _ (fun _ _ hF => ?_) _ ?_)
    | (intro _ hF; skip) | with_reducible assumption
    | (with_reducible refine Frame.ite (fun _ => ?_) (fun _ => ?_)) | split
    | fail_if_no_progress ((with_reducible apply Frame.fields); (case hq => rfl); (case hc => rfl))

theorem State.countExhausted_frame {wt : Touch} {s0 s : State} (hw :
    ({ fwdCtr := true, bufCtr := true, pkts := true, nextPkt := true, fabCtr := true, schedCtr := true,
       mirrors := true, cand := true, mirQ := true, mirCtr := true, telCtr := true, dropCtr := true,
       portCtr := true, prismCtr := true, timeCtr := true, shares := true, free := true } : Touch).or wt = wt)
    (hK : Frame wt s0 s) (pk : Pkt) :
    Frame wt s0 (State.countExhausted s pk) := by
  refine Frame.step hK hw ?_
  unfold State.countExhausted
  (try dsimp only)
  repeat' first
    | ((with_reducible show Touch.or _ _ = _) <;> rfl)
    | with_reducible (first | exact Frame.refl | apply State.countDrop_frame)
    | (with_reducible refine Frame.foldl _ (fun _ _ hF => ?_) _ ?_)
    | (intro _ hF; skip) | with_reducible assumption
    | (with_reducible refine Frame.ite (fun _ => ?_) (fun _ => ?_)) | split
    | fail_if_no_progress ((with_reducible apply Frame.fields); (case hq => rfl); (case hc => rfl))

theorem State.dropExhausted_frame {wt : Touch} {s0 s : State} (hw : 
    ({ ports := true, prismFlight := true, recirc := true, merge := true, fwdFlight := true,
       fwdCtr := true, cells := true, portClass := true, queues := true, bufCtr := true, pkts := true,
       nextPkt := true, fabCtr := true, schedCtr := true, mirrors := true, cand := true, mirQ := true,
       mirCtr := true, telCtr := true, dropCtr := true, portCtr := true, prismCtr := true, timeCtr := true,
       shares := true, out := true, free := true } : Touch).or wt = wt)
    (hK : Frame wt s0 s) (pk : Pkt) : Frame wt s0 (State.dropExhausted s pk) := by
  refine Frame.step hK hw ?_
  unfold State.dropExhausted
  (try dsimp only)
  repeat' first
    | ((with_reducible show Touch.or _ _ = _) <;> rfl)
    | with_reducible (first
        | exact Frame.refl | apply State.countDrop_frame | apply State.release_frame | apply State.retire_frame
        | apply State.countExhausted_frame)
    | (with_reducible refine Frame.foldl _ (fun _ _ hF => ?_) _ ?_) | (intro _ hF; skip) | with_reducible assumption

theorem State.bare_frame {wt : Touch} {s0 s : State} (hw :
    ({ cells := true, portClass := true, queues := true, pkts := true } : Touch).or wt = wt)
    (hK : Frame wt s0 s) (pk : Pkt) :
    Frame wt s0 (State.bare s pk) := by
  refine Frame.step hK hw ?_
  unfold State.bare
  (try dsimp only)
  repeat' first
    | ((with_reducible show Touch.or _ _ = _) <;> rfl)
    | with_reducible (first | exact Frame.refl | apply State.updPkt_frame | apply State.uncharge_frame)
    | (with_reducible refine Frame.foldl _ (fun _ _ hF => ?_) _ ?_)
    | (intro _ hF; skip) | with_reducible assumption
    | (with_reducible refine Frame.ite (fun _ => ?_) (fun _ => ?_)) | split
    | fail_if_no_progress ((with_reducible apply Frame.fields); (case hq => rfl); (case hc => rfl))

theorem State.cutOff_frame {wt : Touch} {s0 s : State} (hw :
    ({ ports := true, prismFlight := true, recirc := true, merge := true, fwdCtr := true, cells := true,
       portClass := true, queues := true, spillVoqs := true, bufCtr := true, pkts := true, nextPkt := true,
       voqs := true, multiQ := true, pairs := true, fabCtr := true, schedCtr := true, mirrors := true,
       cand := true, mirQ := true, mirCtr := true, telCtr := true, dropCtr := true, portCtr := true,
       prismCtr := true, timeCtr := true, shares := true, out := true, free := true } : Touch).or wt = wt)
    (hK : Frame wt s0 s) (id : Nat) :
    Frame wt s0 (State.cutOff s id) := by
  refine Frame.step hK hw ?_
  unfold State.cutOff
  (try dsimp only)
  repeat' first
    | ((with_reducible show Touch.or _ _ = _) <;> rfl)
    | with_reducible (first
        | exact Frame.refl | apply State.pull_frame | apply State.release_frame | apply State.updPkt_frame
        | apply State.bumpBufAt_frame | apply State.countExhausted_frame | apply State.bumpBufOf_frame)
    | (with_reducible refine Frame.foldl _ (fun _ _ hF => ?_) _ ?_)
    | (intro _ hF; skip) | with_reducible assumption
    | (with_reducible refine Frame.ite (fun _ => ?_) (fun _ => ?_)) | split
    | fail_if_no_progress ((with_reducible apply Frame.fields); (case hq => rfl); (case hc => rfl))

theorem State.midFrame_frame {wt : Touch} {s0 s : State} (hw :
    ({ lanes := true, ports := true, prismFlight := true, recirc := true, merge := true, fwdFlight := true,
       fwdCtr := true, cells := true, portClass := true, queues := true, spillVoqs := true, bufCtr := true,
       pkts := true, nextPkt := true, voqs := true, multiQ := true, pairs := true, links := true,
       arb := true, fabCtr := true, schedCtr := true, evt := true, mirrors := true, cand := true,
       mirQ := true, mirCtr := true, telCtr := true, dropCtr := true, portCtr := true, prismCtr := true,
       timeCtr := true, shares := true, healthGen := true, irq := true, out := true, free := true } : Touch).or wt = wt)
    (hK : Frame wt s0 s) (pk : Pkt) (n : Nat) :
    Frame wt s0 (State.midFrame s pk n) := by
  refine Frame.step hK hw ?_
  unfold State.midFrame
  (try dsimp only)
  repeat' first
    | ((with_reducible show Touch.or _ _ = _) <;> rfl)
    | with_reducible (first
        | exact Frame.refl | apply State.cutOff_frame | apply State.charge_frame | apply State.updPkt_frame
        | apply State.dropExhausted_frame | apply State.bare_frame | apply State.acceptPkt_frame)
    | (with_reducible refine Frame.foldl _ (fun _ _ hF => ?_) _ ?_)
    | (intro _ hF; skip) | with_reducible assumption
    | (with_reducible refine Frame.ite (fun _ => ?_) (fun _ => ?_)) | split
    | fail_if_no_progress ((with_reducible apply Frame.fields); (case hq => rfl); (case hc => rfl))

theorem State.admitRest_frame {wt : Touch} {s0 s : State} (hw :
    ({ lanes := true, ports := true, prismFlight := true, recirc := true, merge := true, fwdFlight := true,
       fwdCtr := true, cells := true, portClass := true, queues := true, spillVoqs := true, bufCtr := true,
       pkts := true, nextPkt := true, voqs := true, multiQ := true, pairs := true, links := true,
       arb := true, fabCtr := true, schedCtr := true, evt := true, mirrors := true, cand := true,
       mirQ := true, mirCtr := true, telCtr := true, dropCtr := true, portCtr := true, prismCtr := true,
       timeCtr := true, shares := true, healthGen := true, irq := true, out := true, free := true } : Touch).or wt = wt)
    (hK : Frame wt s0 s) (v : State) (pk : Pkt) :
    Frame wt s0 (State.admitRest s v pk) := by
  refine Frame.step hK hw ?_
  unfold State.admitRest
  (try dsimp only)
  repeat' first
    | ((with_reducible show Touch.or _ _ = _) <;> rfl)
    | with_reducible (first
        | exact Frame.refl | apply State.midFrame_frame | apply State.dropExhausted_frame
        | apply State.acceptPkt_frame | apply State.bumpBufAt_frame | apply State.charge_frame
        | apply State.bumpBufOf_frame)
    | (with_reducible refine Frame.foldl _ (fun _ _ hF => ?_) _ ?_)
    | (intro _ hF; skip) | with_reducible assumption
    | (with_reducible refine Frame.ite (fun _ => ?_) (fun _ => ?_)) | split
    | fail_if_no_progress ((with_reducible apply Frame.fields); (case hq => rfl); (case hc => rfl))

theorem State.admitSpill_frame {wt : Touch} {s0 s : State} (hw :
    ({ lanes := true, ports := true, prismFlight := true, recirc := true, merge := true, fwdFlight := true,
       fwdCtr := true, cells := true, portClass := true, queues := true, bufCtr := true, pkts := true,
       nextPkt := true, voqs := true, fabCtr := true, schedCtr := true, evt := true, mirrors := true,
       cand := true, mirQ := true, mirCtr := true, telCtr := true, dropCtr := true, portCtr := true,
       prismCtr := true, timeCtr := true, shares := true, rate := true, healthGen := true, irq := true,
       out := true, free := true } : Touch).or wt = wt)
    (hK : Frame wt s0 s) (v : State) (pk : Pkt) (p : Nat) :
    Frame wt s0 (State.admitSpill s v pk p) := by
  refine Frame.step hK hw ?_
  unfold State.admitSpill
  (try dsimp only)
  repeat' first
    | ((with_reducible show Touch.or _ _ = _) <;> rfl)
    | with_reducible (first
        | exact Frame.refl | apply State.drawn_frame | apply State.dropPkt_frame | apply State.spillWrite_frame
        | apply State.leaveMerge_frame | apply State.ltDepth_frame | apply State.raiseLimited_frame
        | apply State.bare_frame | apply State.bumpBufAt_frame | apply State.retire_frame
        | apply State.spillIn_frame | apply State.bumpBufOf_frame)
    | (with_reducible refine Frame.foldl _ (fun _ _ hF => ?_) _ ?_)
    | (intro _ hF; skip) | with_reducible assumption
    | (with_reducible refine Frame.ite (fun _ => ?_) (fun _ => ?_)) | split
    | fail_if_no_progress ((with_reducible apply Frame.fields); (case hq => rfl); (case hc => rfl))

theorem State.admitLossy_frame {wt : Touch} {s0 s : State} (hw : 
    ({ lanes := true, ports := true, prismFlight := true, recirc := true, merge := true, fwdFlight := true,
       fwdCtr := true, cells := true, portClass := true, queues := true, spillVoqs := true, lfsr := true,
       bufCtr := true, pkts := true, nextPkt := true, voqs := true, multiQ := true, pairs := true,
       links := true, arb := true, fabCtr := true, schedCtr := true, evt := true, mirrors := true,
       cand := true, mirQ := true, mirCtr := true, telCtr := true, dropCtr := true, portCtr := true,
       prismCtr := true, timeCtr := true, shares := true, rate := true, healthGen := true, irq := true,
       out := true, free := true } : Touch).or wt = wt)
    (hK : Frame wt s0 s) (pk0 : Pkt) : Frame wt s0 (State.admitLossy s pk0) := by
  refine Frame.step hK hw ?_
  unfold State.admitLossy
  (try dsimp only)
  repeat' first
    | ((with_reducible show Touch.or _ _ = _) <;> rfl)
    | with_reducible (first
        | exact Frame.refl | apply State.admitRest_frame | apply State.bumpBuf_frame | apply State.dropCopies_frame
        | apply State.dropPkt_frame | apply State.leaveMerge_frame | apply State.ltDepth_frame
        | apply Look.mark_frame | apply State.markCopies_frame | apply State.raiseLimited_frame
        | apply State.release_frame | apply State.retire_frame | apply State.spillWrite_frame
        | apply State.takeDraw_frame | apply State.uncharge_frame | apply State.updPkt_frame
        | apply State.admitSpill_frame | apply State.bare_frame | apply State.bumpBufAt_frame)
    | (intro _ hF; skip) | with_reducible assumption | (with_reducible refine Frame.ite (fun _ => ?_) (fun _ => ?_))
    | split

theorem State.toAdmission_frame {wt : Touch} {s0 s : State} (hw : 
    ({ lanes := true, ports := true, prismFlight := true, recirc := true, merge := true, fwdFlight := true,
       fwdCtr := true, cells := true, portClass := true, queues := true, spillVoqs := true, lfsr := true,
       bufCtr := true, pkts := true, nextPkt := true, voqs := true, multiQ := true, pairs := true,
       links := true, arb := true, fabCtr := true, schedCtr := true, evt := true, mirrors := true,
       cand := true, mirQ := true, mirCtr := true, telCtr := true, dropCtr := true, portCtr := true,
       prismCtr := true, timeCtr := true, shares := true, rate := true, healthGen := true, irq := true,
       out := true, free := true } : Touch).or wt = wt)
    (hK : Frame wt s0 s) (id : Nat) : Frame wt s0 (State.toAdmission s id) := by
  refine Frame.step hK hw ?_
  unfold State.toAdmission
  (try dsimp only)
  repeat' first
    | ((with_reducible show Touch.or _ _ = _) <;> rfl)
    | with_reducible (first
        | exact Frame.refl | apply State.admitLossless_frame | apply State.admitLossy_frame
        | apply State.updPkt_frame | apply State.unchargeQ_frame)
    | (with_reducible refine Frame.ite (fun _ => ?_) (fun _ => ?_)) | split

end Sys2Proof.Machine
end

