-- ==== Sys2Proof/Laws/FramePark.lean ====
section
/-! SUPPORT. What the operations of Park may change. -/

set_option Elab.async false
set_option linter.all false

namespace Sys2Proof.Machine

theorem State.sendNotice_frame {wt : Touch} {s0 s : State} (hw : 
    ({ ports := true, notices := true, proofCtr := true, evt := true, telCtr := true, portCtr := true,
       irq := true, out := true } : Touch).or wt = wt)
    (hK : Frame wt s0 s) (type : Nat) (idx : Nat) (m : Notice) : Frame wt s0 (State.sendNotice s type idx m) := by
  refine Frame.step hK hw ?_
  unfold State.sendNotice
  (try dsimp only)
  repeat' first
    | ((with_reducible show Touch.or _ _ = _) <;> rfl)
    | with_reducible (first
        | exact Frame.refl | apply State.bumpProof_frame | apply State.raise_frame | apply State.sendCtl_frame
        | apply State.updPort_frame)
    | (intro _ hF; skip) | with_reducible assumption | (with_reducible refine Frame.ite (fun _ => ?_) (fun _ => ?_))
    | split | fail_if_no_progress ((with_reducible apply Frame.fields); (case hq => rfl); (case hc => rfl))

theorem State.parkNotice_frame {wt : Touch} {s0 s : State} (hw : 
    ({ ports := true, targets := true, notices := true, proofCtr := true, evt := true, telCtr := true,
       portCtr := true, irq := true, out := true } : Touch).or wt = wt)
    (hK : Frame wt s0 s) (idx : Nat) (pk : Pkt) : Frame wt s0 (State.parkNotice s idx pk) := by
  refine Frame.step hK hw ?_
  unfold State.parkNotice
  (try dsimp only)
  repeat' first
    | ((with_reducible show Touch.or _ _ = _) <;> rfl)
    | with_reducible (first | exact Frame.refl | apply State.sendNotice_frame | apply State.updTarget_frame)
    | (intro _ hF; skip) | with_reducible assumption | (with_reducible refine Frame.ite (fun _ => ?_) (fun _ => ?_))

theorem State.noticeAll_frame {wt : Touch} {s0 s : State} (hw : 
    ({ ports := true, targets := true, notices := true, proofCtr := true, evt := true, telCtr := true,
       portCtr := true, irq := true, out := true } : Touch).or wt = wt)
    (hK : Frame wt s0 s) (type : Nat) (idx : Nat) : Frame wt s0 (State.noticeAll s type idx) := by
  refine Frame.step hK hw ?_
  unfold State.noticeAll
  (try dsimp only)
  repeat' first
    | ((with_reducible show Touch.or _ _ = _) <;> rfl)
    | with_reducible (first | exact Frame.refl | apply State.sendNotice_frame | apply State.updTarget_frame)
    | (with_reducible refine Frame.foldl _ (fun _ _ hF => ?_) _ ?_) | (intro _ hF; skip) | with_reducible assumption

theorem State.dropWake_frame {wt : Touch} {s0 s : State} (hw :
    ({ targets := true, drops := true } : Touch).or wt = wt)
    (hK : Frame wt s0 s) (idx : Nat) :
    Frame wt s0 (State.dropWake s idx) := by
  refine Frame.step hK hw ?_
  unfold State.dropWake
  (try dsimp only)
  repeat' first
    | ((with_reducible show Touch.or _ _ = _) <;> rfl)
    | with_reducible (first | exact Frame.refl | apply State.updDrop_frame | apply State.updTarget_frame)
    | (with_reducible refine Frame.foldl _ (fun _ _ hF => ?_) _ ?_)
    | (intro _ hF; skip) | with_reducible assumption
    | (with_reducible refine Frame.ite (fun _ => ?_) (fun _ => ?_)) | split
    | fail_if_no_progress ((with_reducible apply Frame.fields); (case hq => rfl); (case hc => rfl))

theorem State.queueWake_frame {wt : Touch} {s0 s : State} (hw : 
    ({ targets := true, drops := true } : Touch).or wt = wt)
    (hK : Frame wt s0 s) (idx : Nat) : Frame wt s0 (State.queueWake s idx) := by
  refine Frame.step hK hw ?_
  unfold State.queueWake
  (try dsimp only)
  repeat' first
    | ((with_reducible show Touch.or _ _ = _) <;> rfl)
    | with_reducible (first | exact Frame.refl | apply State.updDrop_frame | apply State.updTarget_frame)
    | (intro _ hF; skip) | with_reducible assumption | (with_reducible refine Frame.ite (fun _ => ?_) (fun _ => ?_))

theorem State.setTgt_frame {wt : Touch} {s0 s : State} (hw :
    ({ targets := true } : Touch).or wt = wt)
    (hK : Frame wt s0 s) (idx : Nat) (st : TgtState) :
    Frame wt s0 (State.setTgt s idx st) := by
  refine Frame.step hK hw ?_
  unfold State.setTgt
  (try dsimp only)
  repeat' first
    | ((with_reducible show Touch.or _ _ = _) <;> rfl)
    | with_reducible (first | exact Frame.refl | apply State.updTarget_frame)
    | (with_reducible refine Frame.foldl _ (fun _ _ hF => ?_) _ ?_)
    | (intro _ hF; skip) | with_reducible assumption
    | (with_reducible refine Frame.ite (fun _ => ?_) (fun _ => ?_)) | split
    | fail_if_no_progress ((with_reducible apply Frame.fields); (case hq => rfl); (case hc => rfl))

theorem State.unpark_frame {wt : Touch} {s0 s : State} (hw :
    ({ targets := true, notices := true } : Touch).or wt = wt)
    (hK : Frame wt s0 s) (idx : Nat) (pk : Pkt) :
    Frame wt s0 (State.unpark s idx pk) := by
  refine Frame.step hK hw ?_
  unfold State.unpark
  (try dsimp only)
  repeat' first
    | ((with_reducible show Touch.or _ _ = _) <;> rfl)
    | with_reducible (first | exact Frame.refl | apply State.updTarget_frame)
    | (with_reducible refine Frame.foldl _ (fun _ _ hF => ?_) _ ?_)
    | (intro _ hF; skip) | with_reducible assumption
    | (with_reducible refine Frame.ite (fun _ => ?_) (fun _ => ?_)) | split
    | fail_if_no_progress ((with_reducible apply Frame.fields); (case hq => rfl); (case hc => rfl))

theorem State.dropParked_frame {wt : Touch} {s0 s : State} (hw : 
    ({ fwdCtr := true, bufCtr := true, pkts := true, fabCtr := true, schedCtr := true, targets := true,
       notices := true, proofCtr := true, mirCtr := true, dropCtr := true, portCtr := true,
       prismCtr := true, timeCtr := true, shares := true } : Touch).or wt = wt)
    (hK : Frame wt s0 s) (idx : Nat) (reason : Nat) (ctr : Nat) : Frame wt s0 (State.dropParked s idx reason ctr) :=
    by
  refine Frame.step hK hw ?_
  unfold State.dropParked
  (try dsimp only)
  repeat' first
    | ((with_reducible show Touch.or _ _ = _) <;> rfl)
    | with_reducible (first
        | exact Frame.refl | apply State.bumpProof_frame | apply State.countDrop_frame | apply State.forget_frame
        | apply State.unpark_frame | apply State.updTarget_frame | apply State.countQuiet_frame)
    | (with_reducible refine Frame.foldl _ (fun _ _ hF => ?_) _ ?_) | (intro _ hF; skip) | with_reducible assumption

theorem State.tgtFail_frame {wt : Touch} {s0 s : State} (hw : 
    ({ ports := true, fwdCtr := true, bufCtr := true, pkts := true, fabCtr := true, schedCtr := true,
       targets := true, drops := true, notices := true, proofCtr := true, evt := true, mirCtr := true,
       telCtr := true, dropCtr := true, portCtr := true, prismCtr := true, timeCtr := true, shares := true,
       irq := true, out := true } : Touch).or wt =
    wt)
    (hK : Frame wt s0 s) (idx : Nat) (cause : Nat) : Frame wt s0 (State.tgtFail s idx cause) := by
  refine Frame.step hK hw ?_
  unfold State.tgtFail
  (try dsimp only)
  repeat' first
    | ((with_reducible show Touch.or _ _ = _) <;> rfl)
    | with_reducible (first
        | exact Frame.refl | apply State.bumpProof_frame | apply State.dropParked_frame | apply State.dropWake_frame
        | apply State.noticeAll_frame | apply State.raise_frame | apply State.setTgt_frame
        | apply State.updTarget_frame)
    | (with_reducible refine Frame.ite (fun _ => ?_) (fun _ => ?_))

theorem State.queueEmptied_frame {wt : Touch} {s0 s : State} (hw : 
    ({ ports := true, fwdCtr := true, bufCtr := true, pkts := true, fabCtr := true, schedCtr := true,
       targets := true, drops := true, notices := true, proofCtr := true, evt := true, mirCtr := true,
       telCtr := true, dropCtr := true, portCtr := true, prismCtr := true, timeCtr := true, shares := true,
       irq := true, out := true } : Touch).or wt =
    wt)
    (hK : Frame wt s0 s) (idx : Nat) : Frame wt s0 (State.queueEmptied s idx) := by
  refine Frame.step hK hw ?_
  unfold State.queueEmptied
  (try dsimp only)
  repeat' first
    | ((with_reducible show Touch.or _ _ = _) <;> rfl)
    | with_reducible (first
        | exact Frame.refl | apply State.setTgt_frame | apply State.tgtFail_frame | apply State.updTarget_frame)
    | (intro _ hF; skip) | with_reducible assumption | (with_reducible refine Frame.ite (fun _ => ?_) (fun _ => ?_))
    | split

theorem State.leavePark_frame {wt : Touch} {s0 s : State} (hw :
    ({ ports := true, fwdCtr := true, bufCtr := true, pkts := true, fabCtr := true, schedCtr := true,
       targets := true, drops := true, notices := true, proofCtr := true, evt := true, mirCtr := true,
       telCtr := true, dropCtr := true, portCtr := true, prismCtr := true, timeCtr := true, shares := true,
       irq := true, out := true } : Touch).or wt = wt)
    (hK : Frame wt s0 s) (idx : Nat) (pk : Pkt) :
    Frame wt s0 (State.leavePark s idx pk) := by
  refine Frame.step hK hw ?_
  unfold State.leavePark
  (try dsimp only)
  repeat' first
    | ((with_reducible show Touch.or _ _ = _) <;> rfl)
    | with_reducible (first | exact Frame.refl | apply State.unpark_frame | apply State.queueEmptied_frame)
    | (with_reducible refine Frame.foldl _ (fun _ _ hF => ?_) _ ?_)
    | (intro _ hF; skip) | with_reducible assumption
    | (with_reducible refine Frame.ite (fun _ => ?_) (fun _ => ?_)) | split
    | fail_if_no_progress ((with_reducible apply Frame.fields); (case hq => rfl); (case hc => rfl))

theorem State.tgtReady_frame {wt : Touch} {s0 s : State} (hw : 
    ({ ports := true, targets := true, drops := true, notices := true, proofCtr := true, evt := true,
       telCtr := true, portCtr := true, irq := true, out := true } : Touch).or wt = wt)
    (hK : Frame wt s0 s) (idx : Nat) (cause : Option Nat) : Frame wt s0 (State.tgtReady s idx cause) := by
  refine Frame.step hK hw ?_
  unfold State.tgtReady
  (try dsimp only)
  repeat' first
    | ((with_reducible show Touch.or _ _ = _) <;> rfl)
    | with_reducible (first
        | exact Frame.refl | apply State.bumpProof_frame | apply State.dropWake_frame | apply State.noticeAll_frame
        | apply State.raise_frame | apply State.setTgt_frame | apply State.updTarget_frame)
    | (intro _ hF; skip) | with_reducible assumption | (with_reducible refine Frame.ite (fun _ => ?_) (fun _ => ?_))
    | split

theorem State.fromTarget_frame {wt : Touch} {s0 s : State} (hw : 
    ({ ports := true, targets := true, drops := true, notices := true, proofCtr := true, evt := true,
       telCtr := true, portCtr := true, irq := true, out := true } : Touch).or wt = wt)
    (hK : Frame wt s0 s) (idx : Nat) : Frame wt s0 (State.fromTarget s idx) := by
  refine Frame.step hK hw ?_
  unfold State.fromTarget
  (try dsimp only)
  repeat' first
    | ((with_reducible show Touch.or _ _ = _) <;> rfl)
    | with_reducible (first
        | exact Frame.refl | apply State.bumpProof_frame | apply State.raise_frame | apply State.setTgt_frame
        | apply State.tgtReady_frame)
    | (with_reducible refine Frame.ite (fun _ => ?_) (fun _ => ?_)) | split

theorem State.putParked_frame {wt : Touch} {s0 s : State} (hw : 
    ({ targets := true, notices := true } : Touch).or wt = wt)
    (hK : Frame wt s0 s) (idx : Nat) (pk : Pkt) : Frame wt s0 (State.putParked s idx pk) := by
  refine Frame.step hK hw ?_
  unfold State.putParked
  (try dsimp only)
  repeat' first
    | ((with_reducible show Touch.or _ _ = _) <;> rfl)
    | with_reducible (first | exact Frame.refl | apply State.updTarget_frame) | (intro _ hF; skip)
    | with_reducible assumption | (with_reducible refine Frame.ite (fun _ => ?_) (fun _ => ?_)) | split
    | fail_if_no_progress ((with_reducible apply Frame.fields); (case hq => rfl); (case hc => rfl))

theorem State.parkStart_frame {wt : Touch} {s0 s : State} (hw : 
    ({ targets := true, drops := true, evt := true, telCtr := true, irq := true, out := true } : Touch).or wt = wt)
    (hK : Frame wt s0 s) (idx : Nat) (pk : Pkt) : Frame wt s0 (State.parkStart s idx pk) := by
  refine Frame.step hK hw ?_
  unfold State.parkStart
  (try dsimp only)
  repeat' first
    | ((with_reducible show Touch.or _ _ = _) <;> rfl)
    | with_reducible (first
        | exact Frame.refl | apply State.queueWake_frame | apply State.raise_frame | apply State.updTarget_frame)
    | (intro _ hF; skip) | with_reducible assumption | (with_reducible refine Frame.ite (fun _ => ?_) (fun _ => ?_))

theorem State.park_frame {wt : Touch} {s0 s : State} (hw : 
    ({ ports := true, prismFlight := true, recirc := true, merge := true, fwdFlight := true, cells := true,
       portClass := true, queues := true, bufCtr := true, pkts := true, targets := true, drops := true,
       notices := true, proofCtr := true, evt := true, telCtr := true, portCtr := true, shares := true,
       irq := true, out := true } : Touch).or wt = wt)
    (hK : Frame wt s0 s) (idx : Nat) (pk : Pkt) : Frame wt s0 (State.park s idx pk) := by
  refine Frame.step hK hw ?_
  unfold State.park
  (try dsimp only)
  repeat' first
    | ((with_reducible show Touch.or _ _ = _) <;> rfl)
    | with_reducible (first
        | exact Frame.refl | apply State.bumpProof_frame | apply State.leaveMerge_frame
        | apply State.parkNotice_frame | apply State.parkStart_frame | apply State.putParked_frame
        | apply State.retire_frame | apply State.unhold_frame | apply State.updPkt_frame
        | apply State.xoffSweep_frame | apply State.bumpProofAt_frame)
    | (intro _ hF; skip) | with_reducible assumption | (with_reducible refine Frame.ite (fun _ => ?_) (fun _ => ?_))

theorem State.parkLimit_frame {wt : Touch} {s0 s : State} (hw : 
    ({ ports := true, prismFlight := true, recirc := true, merge := true, fwdFlight := true,
       fwdCtr := true, cells := true, portClass := true, queues := true, bufCtr := true, pkts := true,
       nextPkt := true, fabCtr := true, schedCtr := true, proofCtr := true, evt := true, mirrors := true,
       cand := true, mirQ := true, mirCtr := true, telCtr := true, dropCtr := true, portCtr := true,
       prismCtr := true, timeCtr := true, shares := true, rate := true, irq := true, out := true,
       free := true } : Touch).or wt = wt)
    (hK : Frame wt s0 s) (idx : Nat) (pk : Pkt) (always : Bool) : Frame wt s0 (State.parkLimit s idx pk always) := by
  refine Frame.step hK hw ?_
  unfold State.parkLimit
  (try dsimp only)
  repeat' first
    | ((with_reducible show Touch.or _ _ = _) <;> rfl)
    | with_reducible (first
        | exact Frame.refl | apply State.bumpProof_frame | apply State.dropPkt_frame | apply State.raise_frame
        | apply State.raiseLimited_frame | apply State.bumpProofAt_frame)
    | (with_reducible refine Frame.ite (fun _ => ?_) (fun _ => ?_))

theorem State.tryPark_frame {wt : Touch} {s0 s : State} (hw :
    ({ ports := true, prismFlight := true, recirc := true, merge := true, fwdFlight := true,
       fwdCtr := true, cells := true, portClass := true, queues := true, bufCtr := true, pkts := true,
       nextPkt := true, fabCtr := true, schedCtr := true, targets := true, drops := true, notices := true,
       proofCtr := true, evt := true, mirrors := true, cand := true, mirQ := true, mirCtr := true,
       telCtr := true, dropCtr := true, portCtr := true, prismCtr := true, timeCtr := true, shares := true,
       irq := true, out := true, free := true } : Touch).or wt = wt)
    (hK : Frame wt s0 s) (idx : Nat) (pk : Pkt) :
    Frame wt s0 (State.tryPark s idx pk) := by
  refine Frame.step hK hw ?_
  unfold State.tryPark
  (try dsimp only)
  repeat' first
    | ((with_reducible show Touch.or _ _ = _) <;> rfl)
    | with_reducible (first
        | exact Frame.refl | apply State.drawn_frame | apply State.dropPkt_frame | apply State.bumpProof_frame
        | apply State.park_frame | apply State.bumpProofAt_frame)
    | (with_reducible refine Frame.foldl _ (fun _ _ hF => ?_) _ ?_)
    | (intro _ hF; skip) | with_reducible assumption
    | (with_reducible refine Frame.ite (fun _ => ?_) (fun _ => ?_)) | split
    | fail_if_no_progress ((with_reducible apply Frame.fields); (case hq => rfl); (case hc => rfl))

theorem State.proofAdmit_frame {wt : Touch} {s0 s : State} (hw : 
    ({ lanes := true, ports := true, prismFlight := true, recirc := true, merge := true, fwdFlight := true,
       fwdCtr := true, cells := true, portClass := true, queues := true, spillVoqs := true, lfsr := true,
       bufCtr := true, pkts := true, nextPkt := true, voqs := true, multiQ := true, pairs := true,
       links := true, arb := true, fabCtr := true, schedCtr := true, targets := true, drops := true,
       notices := true, proofCtr := true, evt := true, mirrors := true, cand := true, mirQ := true,
       mirCtr := true, telCtr := true, dropCtr := true, portCtr := true, prismCtr := true, timeCtr := true,
       shares := true, rate := true, healthGen := true, irq := true, out := true, free := true } : Touch).or wt = wt)
    (hK : Frame wt s0 s) (id : Nat) : Frame wt s0 (State.proofAdmit s id) := by
  refine Frame.step hK hw ?_
  unfold State.proofAdmit
  (try dsimp only)
  repeat' first
    | ((with_reducible show Touch.or _ _ = _) <;> rfl)
    | with_reducible (first
        | exact Frame.refl | apply State.toAdmission_frame | apply State.bumpProof_frame | apply State.dropPkt_frame
        | apply State.park_frame | apply State.parkLimit_frame | apply State.tryPark_frame
        | apply State.bumpProofAt_frame)
    | (with_reducible refine Frame.ite (fun _ => ?_) (fun _ => ?_)) | split

end Sys2Proof.Machine
end

