-- ==== Sys2Proof/Laws/FrameFixBase.lean ====
section
/-! SUPPORT. What the operations of FixBase may change. -/

set_option Elab.async false
set_option linter.all false

namespace Sys2Proof.Machine

theorem State.updCore_frame {wt : Touch} {s0 s : State} (hw : 
    ({ cores := true } : Touch).or wt = wt)
    (hK : Frame wt s0 s) (c : Nat) (n : Nat) (f : Core → Core) : Frame wt s0 (State.updCore s c n f) :=
  hK.step hw (.ofView rfl)

theorem State.countCore_frame {wt : Touch} {s0 s : State} (hw : 
    ({ cores := true } : Touch).or wt = wt)
    (hK : Frame wt s0 s) (c : Nat) (core : Option Nat) (code : Nat) (n : Nat) : Frame wt s0 (State.countCore s c core
    code n) := by
  refine Frame.step hK hw ?_
  unfold State.countCore
  (try dsimp only)
  repeat' first
    | ((with_reducible show Touch.or _ _ = _) <;> rfl)
    | with_reducible (first | exact Frame.refl | apply State.updCore_frame) | (intro _ hF; skip)
    | with_reducible assumption | split
    | fail_if_no_progress ((with_reducible apply Frame.fields); (case hq => rfl); (case hc => rfl))

theorem State.skippedEvent_frame {wt : Touch} {s0 s : State} (hw : 
    ({ fix := true, evt := true, telCtr := true, rate := true, irq := true, out := true } : Touch).or wt = wt)
    (hK : Frame wt s0 s) (c : Nat) (sk : Nat) (un : Nat) : Frame wt s0 (State.skippedEvent s c sk un) := by
  refine Frame.step hK hw ?_
  unfold State.skippedEvent
  (try dsimp only)
  repeat' first
    | ((with_reducible show Touch.or _ _ = _) <;> rfl)
    | with_reducible (first | exact Frame.refl | apply State.raiseLimited_frame | apply State.updFix_frame)
    | (intro _ hF; skip) | with_reducible assumption | (with_reducible refine Frame.ite (fun _ => ?_) (fun _ => ?_))
    | split | fail_if_no_progress ((with_reducible apply Frame.fields); (case hq => rfl); (case hc => rfl))

theorem State.logFullEvent_frame {wt : Touch} {s0 s : State} (hw : 
    ({ evt := true, telCtr := true, rate := true, irq := true, out := true } : Touch).or wt = wt)
    (hK : Frame wt s0 s) (c : Nat) (ring : Nat) : Frame wt s0 (State.logFullEvent s c ring) := by
  refine Frame.step hK hw ?_
  unfold State.logFullEvent
  (try dsimp only)
  repeat' first
    | ((with_reducible show Touch.or _ _ = _) <;> rfl)
    | with_reducible (first | exact Frame.refl | apply State.raiseLimited_frame) | split
    | fail_if_no_progress ((with_reducible apply Frame.fields); (case hq => rfl); (case hc => rfl))

theorem State.readCore_frame {wt : Touch} {s0 s : State} (hw :
    ({ cores := true, free := true } : Touch).or wt = wt)
    (hK : Frame wt s0 s) (c : Nat) (n : Nat) :
    Frame wt s0 (State.readCore s c n) := by
  refine Frame.step hK hw ?_
  unfold State.readCore
  (try dsimp only)
  repeat' first
    | ((with_reducible show Touch.or _ _ = _) <;> rfl)
    | with_reducible (first | exact Frame.refl | apply State.drawn_frame | apply State.updCore_frame)
    | (with_reducible refine Frame.foldl _ (fun _ _ hF => ?_) _ ?_)
    | (intro _ hF; skip) | with_reducible assumption
    | (with_reducible refine Frame.ite (fun _ => ?_) (fun _ => ?_)) | split
    | fail_if_no_progress ((with_reducible apply Frame.fields); (case hq => rfl); (case hc => rfl))

theorem State.deferred_frame {wt : Touch} {s0 s : State} (hw : 
    ({ fixCtr := true, evt := true, telCtr := true, rate := true, irq := true, out := true } : Touch).or wt = wt)
    (hK : Frame wt s0 s) (c : Nat) : Frame wt s0 (State.deferred s c) := by
  refine Frame.step hK hw ?_
  unfold State.deferred
  (try dsimp only)
  repeat' first
    | ((with_reducible show Touch.or _ _ = _) <;> rfl)
    | with_reducible (first | exact Frame.refl | apply State.bumpFix_frame | apply State.logFullEvent_frame)
    | (with_reducible refine Frame.ite (fun _ => ?_) (fun _ => ?_)) | split
    | fail_if_no_progress ((with_reducible apply Frame.fields); (case hq => rfl); (case hc => rfl))

theorem State.fixDue_frame {wt : Touch} {s0 s : State} (hw : 
    ({ fix := true, fixCtr := true, evt := true, telCtr := true, rate := true, irq := true, out := true } : Touch).or
    wt = wt)
    (hK : Frame wt s0 s) (c : Nat) (reason : Nat) (key : Option Nat) : Frame wt s0 (State.fixDue s c reason key) := by
  refine Frame.step hK hw ?_
  unfold State.fixDue
  (try dsimp only)
  repeat' first
    | ((with_reducible show Touch.or _ _ = _) <;> rfl)
    | with_reducible (first | exact Frame.refl | apply State.deferred_frame | apply State.updFix_frame)
    | (intro _ hF; skip) | with_reducible assumption | (with_reducible refine Frame.ite (fun _ => ?_) (fun _ => ?_))
    | split | fail_if_no_progress ((with_reducible apply Frame.fields); (case hq => rfl); (case hc => rfl))

theorem State.unrecorded_frame {wt : Touch} {s0 s : State} (hw : 
    ({ flows := true, fix := true, fixCtr := true, evt := true, telCtr := true, rate := true, irq := true,
       out := true } : Touch).or wt = wt)
    (hK : Frame wt s0 s) (c : Nat) (flow : Nat) (cause : Nat) : Frame wt s0 (State.unrecorded s c flow cause) := by
  refine Frame.step hK hw ?_
  unfold State.unrecorded
  (try dsimp only)
  repeat' first
    | ((with_reducible show Touch.or _ _ = _) <;> rfl) | with_reducible (first
        | exact Frame.refl | apply State.bumpFix_frame | apply State.skippedEvent_frame | apply State.updFix_frame
        | apply State.updFlow_frame)
    | (intro _ hF; skip) | with_reducible assumption | split
    | fail_if_no_progress ((with_reducible apply Frame.fields); (case hq => rfl); (case hc => rfl))

theorem State.reservePos_frame {wt : Touch} {s0 s : State} (hw : 
    ({ fix := true, fixCtr := true, evt := true, telCtr := true, rate := true, irq := true, out := true } : Touch).or
    wt = wt)
    (hK : Frame wt s0 s) (c : Nat) (n : Nat) (unlocked : Bool) : Frame wt s0 (State.reservePos s c n unlocked).1 := by
  refine Frame.step hK hw ?_
  unfold State.reservePos
  (try dsimp only)
  repeat' first
    | ((with_reducible show Touch.or _ _ = _) <;> rfl)
    | with_reducible (first | exact Frame.refl | apply State.fixDue_frame | apply State.updFix_frame)
    | (intro _ hF; skip) | with_reducible assumption | (with_reducible refine Frame.ite (fun _ => ?_) (fun _ => ?_))
    | split | fail_if_no_progress ((with_reducible apply Frame.fields); (case hq => rfl); (case hc => rfl))

theorem State.dropPos_frame {wt : Touch} {s0 s : State} (hw :
    ({ fix := true } : Touch).or wt = wt)
    (hK : Frame wt s0 s) (c : Nat) (n : Nat) :
    Frame wt s0 (State.dropPos s c n) := by
  refine Frame.step hK hw ?_
  unfold State.dropPos
  (try dsimp only)
  repeat' first
    | ((with_reducible show Touch.or _ _ = _) <;> rfl)
    | with_reducible (first | exact Frame.refl | apply State.updFix_frame)
    | (with_reducible refine Frame.foldl _ (fun _ _ hF => ?_) _ ?_)
    | (intro _ hF; skip) | with_reducible assumption
    | (with_reducible refine Frame.ite (fun _ => ?_) (fun _ => ?_)) | split
    | fail_if_no_progress ((with_reducible apply Frame.fields); (case hq => rfl); (case hc => rfl))

theorem State.fillPos_frame {wt : Touch} {s0 s : State} (hw :
    ({ fix := true } : Touch).or wt = wt)
    (hK : Frame wt s0 s) (c : Nat) (n : Nat) (r : List Byte) :
    Frame wt s0 (State.fillPos s c n r) := by
  refine Frame.step hK hw ?_
  unfold State.fillPos
  (try dsimp only)
  repeat' first
    | ((with_reducible show Touch.or _ _ = _) <;> rfl)
    | with_reducible (first | exact Frame.refl | apply State.updFix_frame)
    | (with_reducible refine Frame.foldl _ (fun _ _ hF => ?_) _ ?_)
    | (intro _ hF; skip) | with_reducible assumption
    | (with_reducible refine Frame.ite (fun _ => ?_) (fun _ => ?_)) | split
    | fail_if_no_progress ((with_reducible apply Frame.fields); (case hq => rfl); (case hc => rfl))

theorem State.countRecord_frame {wt : Touch} {s0 s : State} (hw : 
    ({ flows := true, fix := true, fixCtr := true, evt := true, telCtr := true, rate := true, irq := true,
       out := true } : Touch).or wt = wt)
    (hK : Frame wt s0 s) (c : Nat) (t : Tap) : Frame wt s0 (State.countRecord s c t) := by
  refine Frame.step hK hw ?_
  unfold State.countRecord
  (try dsimp only)
  repeat' first
    | ((with_reducible show Touch.or _ _ = _) <;> rfl) | with_reducible (first
        | exact Frame.refl | apply State.bumpFix_frame | apply State.skippedEvent_frame | apply State.updFlow_frame)
    | (intro _ hF; skip) | with_reducible assumption | (with_reducible refine Frame.ite (fun _ => ?_) (fun _ => ?_))
    | split | fail_if_no_progress ((with_reducible apply Frame.fields); (case hq => rfl); (case hc => rfl))

theorem State.writeRecord_frame {wt : Touch} {s0 s : State} (hw : 
    ({ cores := true, flows := true, fix := true, fixCtr := true, evt := true, telCtr := true, rate := true,
       irq := true, out := true } : Touch).or wt = wt)
    (hK : Frame wt s0 s) (c : Nat) (t : Tap) : Frame wt s0 (State.writeRecord s c t) := by
  refine Frame.step hK hw ?_
  unfold State.writeRecord
  (try dsimp only)
  repeat' first
    | ((with_reducible show Touch.or _ _ = _) <;> rfl) | with_reducible (first
        | exact Frame.refl | apply State.countCore_frame | apply State.countRecord_frame | apply State.dropPos_frame
        | apply State.fillPos_frame | apply State.logFullEvent_frame | apply State.unrecorded_frame)
    | (with_reducible refine Frame.ite (fun _ => ?_) (fun _ => ?_)) | split
    | fail_if_no_progress ((with_reducible apply Frame.fields); (case hq => rfl); (case hc => rfl))

theorem State.fixDispatch_frame {wt : Touch} {s0 s : State} (hw :
    ({ fix := true } : Touch).or wt = wt)
    (hK : Frame wt s0 s) (c : Nat) :
    Frame wt s0 (State.fixDispatch s c) := by
  refine Frame.step hK hw ?_
  unfold State.fixDispatch
  (try dsimp only)
  repeat' first
    | ((with_reducible show Touch.or _ _ = _) <;> rfl)
    | with_reducible (first | exact Frame.refl | apply State.updFix_frame)
    | (with_reducible refine Frame.foldl _ (fun _ _ hF => ?_) _ ?_)
    | (intro _ hF; skip) | with_reducible assumption
    | (with_reducible refine Frame.ite (fun _ => ?_) (fun _ => ?_)) | split
    | fail_if_no_progress ((with_reducible apply Frame.fields); (case hq => rfl); (case hc => rfl))

theorem State.tapDecision_frame {wt : Touch} {s0 s : State} (hw : 
    ({ pkts := true, flows := true, fix := true, fixCtr := true, free := true } : Touch).or wt = wt)
    (hK : Frame wt s0 s) (pk : Pkt) (w : BitVec 64) (prof : Profile) : Frame wt s0 (State.tapDecision s pk w prof) :=
    by
  refine Frame.step hK hw ?_
  unfold State.tapDecision
  (try dsimp only)
  repeat' first
    | ((with_reducible show Touch.or _ _ = _) <;> rfl) | with_reducible (first
        | exact Frame.refl | apply State.bumpFix_frame | apply State.fixDispatch_frame | apply State.updFix_frame
        | apply State.updFlow_frame | apply State.updPkt_frame | apply State.drawn_frame)
    | (intro _ hF; skip) | with_reducible assumption | (with_reducible refine Frame.ite (fun _ => ?_) (fun _ => ?_))
    | split | fail_if_no_progress ((with_reducible apply Frame.fields); (case hq => rfl); (case hc => rfl))

theorem State.endTap_frame {wt : Touch} {s0 s : State} (hw :
    ({ fix := true } : Touch).or wt = wt)
    (hK : Frame wt s0 s) (c : Nat) (n : Nat) :
    Frame wt s0 (State.endTap s c n) := by
  refine Frame.step hK hw ?_
  unfold State.endTap
  (try dsimp only)
  repeat' first
    | ((with_reducible show Touch.or _ _ = _) <;> rfl)
    | with_reducible (first | exact Frame.refl | apply State.fixDispatch_frame | apply State.updFix_frame)
    | (with_reducible refine Frame.foldl _ (fun _ _ hF => ?_) _ ?_)
    | (intro _ hF; skip) | with_reducible assumption
    | (with_reducible refine Frame.ite (fun _ => ?_) (fun _ => ?_)) | split
    | fail_if_no_progress ((with_reducible apply Frame.fields); (case hq => rfl); (case hc => rfl))

theorem State.skipNow_frame {wt : Touch} {s0 s : State} (hw : 
    ({ cores := true, flows := true, fix := true, fixCtr := true, evt := true, telCtr := true, rate := true,
       irq := true, out := true } : Touch).or wt = wt)
    (hK : Frame wt s0 s) (c : Nat) (t : Tap) : Frame wt s0 (State.skipNow s c t) := by
  refine Frame.step hK hw ?_
  unfold State.skipNow
  (try dsimp only)
  repeat' first
    | ((with_reducible show Touch.or _ _ = _) <;> rfl) | with_reducible (first
        | exact Frame.refl | apply State.reservePos_frame | apply State.unrecorded_frame
        | apply State.writeRecord_frame)
    | (with_reducible refine Frame.ite (fun _ => ?_) (fun _ => ?_)) | split
    | fail_if_no_progress ((with_reducible apply Frame.fields); (case hq => rfl); (case hc => rfl))

theorem State.commitTap_frame {wt : Touch} {s0 s : State} (hw : 
    ({ cores := true, flows := true, fix := true, fixCtr := true, evt := true, telCtr := true, rate := true,
       irq := true, out := true } : Touch).or wt = wt)
    (hK : Frame wt s0 s) (n : Nat) (fcsBad : Bool) (fate : Nat) : Frame wt s0 (State.commitTap s n fcsBad fate) := by
  refine Frame.step hK hw ?_
  unfold State.commitTap
  (try dsimp only)
  repeat' first
    | ((with_reducible show Touch.or _ _ = _) <;> rfl) | with_reducible (first
        | exact Frame.refl | apply State.countCore_frame | apply State.endTap_frame | apply State.reservePos_frame
        | apply State.skipNow_frame | apply State.unrecorded_frame | apply State.updFix_frame)
    | (intro _ hF; skip) | with_reducible assumption | (with_reducible refine Frame.ite (fun _ => ?_) (fun _ => ?_))
    | split | fail_if_no_progress ((with_reducible apply Frame.fields); (case hq => rfl); (case hc => rfl))

theorem State.rewindTap_frame {wt : Touch} {s0 s : State} (hw : 
    ({ cores := true, flows := true, fix := true, fixCtr := true, evt := true, telCtr := true, rate := true,
       irq := true, out := true } : Touch).or wt = wt)
    (hK : Frame wt s0 s) (n : Nat) (fcsBad : Bool) (fate : Nat) : Frame wt s0 (State.rewindTap s n fcsBad fate) := by
  refine Frame.step hK hw ?_
  unfold State.rewindTap
  (try dsimp only)
  repeat' first
    | ((with_reducible show Touch.or _ _ = _) <;> rfl) | with_reducible (first
        | exact Frame.refl | apply State.countCore_frame | apply State.endTap_frame | apply State.skipNow_frame)
    | (intro _ hF; skip) | with_reducible assumption | (with_reducible refine Frame.ite (fun _ => ?_) (fun _ => ?_))
    | split | fail_if_no_progress ((with_reducible apply Frame.fields); (case hq => rfl); (case hc => rfl))

theorem State.rewindSlice_frame {wt : Touch} {s0 s : State} (hw : 
    ({ cores := true, flows := true, fix := true, fixCtr := true, evt := true, telCtr := true, rate := true,
       irq := true, out := true } : Touch).or wt = wt)
    (hK : Frame wt s0 s) (sl : Nat) : Frame wt s0 (State.rewindSlice s sl) := by
  refine Frame.step hK hw ?_
  unfold State.rewindSlice
  (try dsimp only)
  repeat' first
    | ((with_reducible show Touch.or _ _ = _) <;> rfl)
    | with_reducible (first | exact Frame.refl | apply State.rewindTap_frame)
    | (with_reducible refine Frame.foldl _ (fun _ _ hF => ?_) _ ?_) | (intro _ hF; skip) | with_reducible assumption
    | split | fail_if_no_progress ((with_reducible apply Frame.fields); (case hq => rfl); (case hc => rfl))

theorem State.closeBatch_frame {wt : Touch} {s0 s : State} (hw :
    ({ fix := true } : Touch).or wt = wt)
    (hK : Frame wt s0 s) (c : Nat) (b : Batch) :
    Frame wt s0 (State.closeBatch s c b) := by
  refine Frame.step hK hw ?_
  unfold State.closeBatch
  (try dsimp only)
  repeat' first
    | ((with_reducible show Touch.or _ _ = _) <;> rfl)
    | with_reducible (first | exact Frame.refl | apply State.updFix_frame)
    | (with_reducible refine Frame.foldl _ (fun _ _ hF => ?_) _ ?_)
    | (intro _ hF; skip) | with_reducible assumption
    | (with_reducible refine Frame.ite (fun _ => ?_) (fun _ => ?_)) | split
    | fail_if_no_progress ((with_reducible apply Frame.fields); (case hq => rfl); (case hc => rfl))

theorem State.closeDue_frame {wt : Touch} {s0 s : State} (hw :
    ({ fix := true, fixCtr := true, evt := true, telCtr := true, rate := true, irq := true,
       out := true } : Touch).or wt = wt)
    (hK : Frame wt s0 s) (c : Nat) :
    Frame wt s0 (State.closeDue s c) := by
  refine Frame.step hK hw ?_
  unfold State.closeDue
  (try dsimp only)
  repeat' first
    | ((with_reducible show Touch.or _ _ = _) <;> rfl)
    | with_reducible (first
        | exact Frame.refl | apply State.closeBatch_frame | apply State.updFix_frame | apply State.deferred_frame)
    | (with_reducible refine Frame.foldl _ (fun _ _ hF => ?_) _ ?_)
    | (intro _ hF; skip) | with_reducible assumption
    | (with_reducible refine Frame.ite (fun _ => ?_) (fun _ => ?_)) | split
    | fail_if_no_progress ((with_reducible apply Frame.fields); (case hq => rfl); (case hc => rfl))

theorem State.fixClose_frame {wt : Touch} {s0 s : State} (hw : 
    ({ fix := true, fixCtr := true, evt := true, telCtr := true, rate := true, irq := true, out := true } : Touch).or
    wt = wt)
    (hK : Frame wt s0 s) (c : Nat) : Frame wt s0 (State.fixClose s c) := by
  refine Frame.step hK hw ?_
  unfold State.fixClose
  (try dsimp only)
  repeat' first
    | ((with_reducible show Touch.or _ _ = _) <;> rfl) | with_reducible (first
        | exact Frame.refl | apply State.closeBatch_frame | apply State.deferred_frame | apply State.updFix_frame
        | apply State.closeDue_frame)
    | (intro _ hF; skip) | with_reducible assumption | (with_reducible refine Frame.ite (fun _ => ?_) (fun _ => ?_))
    | split | fail_if_no_progress ((with_reducible apply Frame.fields); (case hq => rfl); (case hc => rfl))

theorem State.fixRetry_frame {wt : Touch} {s0 s : State} (hw : 
    ({ fix := true, fixCtr := true, evt := true, telCtr := true, rate := true, irq := true, out := true } : Touch).or
    wt = wt)
    (hK : Frame wt s0 s) (c : Nat) : Frame wt s0 (State.fixRetry s c) := by
  refine Frame.step hK hw ?_
  unfold State.fixRetry
  (try dsimp only)
  repeat' first
    | ((with_reducible show Touch.or _ _ = _) <;> rfl)
    | with_reducible (first
        | exact Frame.refl | apply State.deferred_frame | apply State.fixClose_frame | apply State.closeDue_frame
        | apply State.updFix_frame)
    | (with_reducible refine Frame.ite (fun _ => ?_) (fun _ => ?_)) | split
    | fail_if_no_progress ((with_reducible apply Frame.fields); (case hq => rfl); (case hc => rfl))

theorem State.fixKeyChange_frame {wt : Touch} {s0 s : State} (hw : 
    ({ fix := true, fixCtr := true, evt := true, telCtr := true, rate := true, irq := true, out := true } : Touch).or
    wt = wt)
    (hK : Frame wt s0 s) (old : Nat) : Frame wt s0 (State.fixKeyChange s old) := by
  refine Frame.step hK hw ?_
  unfold State.fixKeyChange
  (try dsimp only)
  repeat' first
    | ((with_reducible show Touch.or _ _ = _) <;> rfl)
    | with_reducible (first | exact Frame.refl | apply State.fixDue_frame | apply State.updFix_frame)
    | (with_reducible refine Frame.foldl _ (fun _ _ hF => ?_) _ ?_) | (intro _ hF; skip) | with_reducible assumption
    | split | fail_if_no_progress ((with_reducible apply Frame.fields); (case hq => rfl); (case hc => rfl))

end Sys2Proof.Machine
end

