-- ==== Sys2Proof/Laws/FramePtpMsg.lean ====
section
/-! SUPPORT. What the operations of PtpMsg may change. -/

set_option Elab.async false
set_option linter.all false

namespace Sys2Proof.Machine

theorem State.updPtp_frame {wt : Touch} {s0 s : State} (hw :
    ({ ports := true } : Touch).or wt = wt)
    (hK : Frame wt s0 s) (p : Nat) (f : PortPtp → PortPtp) :
    Frame wt s0 (State.updPtp s p f) := by
  refine Frame.step hK hw ?_
  unfold State.updPtp
  (try dsimp only)
  repeat' first
    | ((with_reducible show Touch.or _ _ = _) <;> rfl)
    | with_reducible (first | exact Frame.refl | apply State.updPort_frame)
    | (with_reducible refine Frame.foldl _ (fun _ _ hF => ?_) _ ?_)
    | (intro _ hF; skip) | with_reducible assumption
    | (with_reducible refine Frame.ite (fun _ => ?_) (fun _ => ?_)) | split
    | fail_if_no_progress ((with_reducible apply Frame.fields); (case hq => rfl); (case hc => rfl))

theorem State.ptpGeneral_frame {wt : Touch} {s0 s : State} (hw :
    ({ waitTx := true, portCtr := true, out := true } : Touch).or wt = wt)
    (hK : Frame wt s0 s) (p : Nat) (b : List Byte) :
    Frame wt s0 (State.ptpGeneral s p b) := by
  refine Frame.step hK hw ?_
  unfold State.ptpGeneral
  (try dsimp only)
  repeat' first
    | ((with_reducible show Touch.or _ _ = _) <;> rfl)
    | with_reducible (first | exact Frame.refl | apply State.sendNow_frame | apply State.sendClass_frame)
    | (with_reducible refine Frame.foldl _ (fun _ _ hF => ?_) _ ?_)
    | (intro _ hF; skip) | with_reducible assumption
    | (with_reducible refine Frame.ite (fun _ => ?_) (fun _ => ?_)) | split
    | fail_if_no_progress ((with_reducible apply Frame.fields); (case hq => rfl); (case hc => rfl))

theorem State.ptpSent_frame {wt : Touch} {s0 s : State} (hw :
    ({ ports := true, waitTx := true, portCtr := true, out := true, free := true } : Touch).or wt = wt)
    (hK : Frame wt s0 s) (p : Nat) (ty : Nat) (seq : Nat) (x : Nat × Nat × Nat) :
    Frame wt s0 (State.ptpSent s p ty seq x) := by
  refine Frame.step hK hw ?_
  unfold State.ptpSent
  (try dsimp only)
  repeat' first
    | ((with_reducible show Touch.or _ _ = _) <;> rfl)
    | with_reducible (first
        | exact Frame.refl | apply State.ptpGeneral_frame | apply State.updPtp_frame | apply State.drawn_frame)
    | (with_reducible refine Frame.foldl _ (fun _ _ hF => ?_) _ ?_)
    | (intro _ hF; skip) | with_reducible assumption
    | (with_reducible refine Frame.ite (fun _ => ?_) (fun _ => ?_)) | split
    | fail_if_no_progress ((with_reducible apply Frame.fields); (case hq => rfl); (case hc => rfl))

end Sys2Proof.Machine
end

