-- ==== Sys2Proof/Laws/FrameIngress.lean ====
section
/-! SUPPORT. What the operations of Ingress may change. -/

set_option Elab.async false
set_option linter.all false

namespace Sys2Proof.Machine

theorem State.ingressMirror_frame {wt : Touch} {s0 s : State} (hw : 
    ({ lanes := true, ports := true, prismFlight := true, recirc := true, merge := true, fwdFlight := true,
       fwdCtr := true, cells := true, portClass := true, queues := true, spillVoqs := true, lfsr := true,
       bufCtr := true, pkts := true, nextPkt := true, voqs := true, multiQ := true, pairs := true,
       links := true, arb := true, fabCtr := true, schedCtr := true, evt := true, mirrors := true,
       cand := true, mirQ := true, mirCtr := true, telCtr := true, dropCtr := true, portCtr := true,
       prismCtr := true, timeCtr := true, shares := true, rate := true, healthGen := true, irq := true,
       out := true, free := true } : Touch).or wt = wt)
    (hK : Frame wt s0 s) (pk : Pkt) : Frame wt s0 (State.ingressMirror s pk) := by
  refine Frame.step hK hw ?_
  unfold State.ingressMirror
  (try dsimp only)
  repeat' first
    | ((with_reducible show Touch.or _ _ = _) <;> rfl)
    | with_reducible (first
        | exact Frame.refl | apply State.toAdmission_frame | apply State.mirCount_frame | apply State.mirMake_frame)
    | (with_reducible refine Frame.ite (fun _ => ?_) (fun _ => ?_)) | split

theorem State.settle_frame {wt : Touch} {s0 s : State} (hw : 
    ({ cores := true, flows := true, fix := true, fixCtr := true, evt := true, telCtr := true, rate := true,
       irq := true, out := true } : Touch).or wt = wt)
    (hK : Frame wt s0 s) (pk : Pkt) : Frame wt s0 (State.settle s pk) := by
  refine Frame.step hK hw ?_
  unfold State.settle
  (try dsimp only)
  repeat' first
    | ((with_reducible show Touch.or _ _ = _) <;> rfl)
    | with_reducible (first | exact Frame.refl | apply State.commitTap_frame)
    | (with_reducible refine Frame.ite (fun _ => ?_) (fun _ => ?_)) | split

theorem State.step7_frame {wt : Touch} {s0 s : State} (hw : 
    ({ lanes := true, ports := true, prismFlight := true, recirc := true, merge := true, fwdFlight := true,
       fwdCtr := true, cells := true, portClass := true, queues := true, spillVoqs := true, lfsr := true,
       bufCtr := true, pkts := true, nextPkt := true, voqs := true, multiQ := true, pairs := true,
       links := true, arb := true, fabCtr := true, schedCtr := true, cores := true, flows := true,
       fix := true, fixCtr := true, targets := true, drops := true, notices := true, proofCtr := true,
       evt := true, mirrors := true, cand := true, mirQ := true, mirCtr := true, telCtr := true,
       dropCtr := true, portCtr := true, prismCtr := true, timeCtr := true, shares := true, rate := true,
       healthGen := true, irq := true, out := true, free := true } : Touch).or wt = wt)
    (hK : Frame wt s0 s) (id : Nat) : Frame wt s0 (State.step7 s id) := by
  refine Frame.step hK hw ?_
  unfold State.step7
  (try dsimp only)
  repeat' first
    | ((with_reducible show Touch.or _ _ = _) <;> rfl)
    | with_reducible (first | exact Frame.refl | apply State.proofAdmit_frame | apply State.settle_frame)

theorem State.releaseMerge_frame {wt : Touch} {s0 s : State} (hw : 
    ({ lanes := true, ports := true, prismFlight := true, recirc := true, merge := true, fwdFlight := true,
       fwdCtr := true, cells := true, portClass := true, queues := true, spillVoqs := true, lfsr := true,
       bufCtr := true, pkts := true, nextPkt := true, voqs := true, multiQ := true, pairs := true,
       links := true, arb := true, fabCtr := true, schedCtr := true, cores := true, flows := true,
       fix := true, fixCtr := true, targets := true, drops := true, notices := true, proofCtr := true,
       evt := true, mirrors := true, cand := true, mirQ := true, mirCtr := true, telCtr := true,
       dropCtr := true, portCtr := true, prismCtr := true, timeCtr := true, shares := true, rate := true,
       healthGen := true, irq := true, out := true, free := true } : Touch).or wt = wt)
    (hK : Frame wt s0 s) (port : Nat) (vv : Nat) : Frame wt s0 (State.releaseMerge s port vv) := by
  refine Frame.step hK hw ?_
  clear hK
  induction vv generalizing s port with
  | zero => exact Frame.refl | succ n ih =>
    unfold State.releaseMerge
    (try dsimp only)
    repeat' first
      | ((with_reducible show Touch.or _ _ = _) <;> rfl) | with_reducible exact Frame.refl
      | with_reducible (refine Frame.trans ?_ (ih ..)) | with_reducible apply State.step7_frame
      | (with_reducible refine Frame.ite (fun _ => ?_) (fun _ => ?_)) | split

theorem State.mergeGo_frame {wt : Touch} {s0 s : State} (hw : 
    ({ lanes := true, ports := true, prismFlight := true, recirc := true, merge := true, fwdFlight := true,
       fwdCtr := true, cells := true, portClass := true, queues := true, spillVoqs := true, lfsr := true,
       bufCtr := true, pkts := true, nextPkt := true, voqs := true, multiQ := true, pairs := true,
       links := true, arb := true, fabCtr := true, schedCtr := true, cores := true, flows := true,
       fix := true, fixCtr := true, targets := true, drops := true, notices := true, proofCtr := true,
       evt := true, mirrors := true, cand := true, mirQ := true, mirCtr := true, telCtr := true,
       dropCtr := true, portCtr := true, prismCtr := true, timeCtr := true, shares := true, rate := true,
       healthGen := true, irq := true, out := true, free := true } : Touch).or wt = wt)
    (hK : Frame wt s0 s) (port : Nat) : Frame wt s0 (State.mergeGo s port) := by
  refine Frame.step hK hw ?_
  unfold State.mergeGo
  (try dsimp only)
  repeat' first
    | ((with_reducible show Touch.or _ _ = _) <;> rfl)
    | with_reducible (first | exact Frame.refl | apply State.releaseMerge_frame)

theorem State.dropFront_frame {wt : Touch} {s0 s : State} (hw : 
    ({ lanes := true, ports := true, prismFlight := true, recirc := true, merge := true, fwdFlight := true,
       fwdCtr := true, cells := true, portClass := true, queues := true, spillVoqs := true, lfsr := true,
       bufCtr := true, pkts := true, nextPkt := true, voqs := true, multiQ := true, pairs := true,
       links := true, arb := true, fabCtr := true, schedCtr := true, cores := true, flows := true,
       fix := true, fixCtr := true, targets := true, drops := true, notices := true, proofCtr := true,
       evt := true, mirrors := true, cand := true, mirQ := true, mirCtr := true, telCtr := true,
       dropCtr := true, portCtr := true, prismCtr := true, timeCtr := true, shares := true, rate := true,
       healthGen := true, irq := true, out := true, free := true } : Touch).or wt = wt)
    (hK : Frame wt s0 s) (id : Nat) (reason : Nat) : Frame wt s0 (State.dropFront s id reason) := by
  refine Frame.step hK hw ?_
  unfold State.dropFront
  (try dsimp only)
  repeat' first
    | ((with_reducible show Touch.or _ _ = _) <;> rfl)
    | with_reducible (first
        | exact Frame.refl | apply State.dropPkt_frame | apply State.mergeGo_frame | apply State.settle_frame)

theorem State.chargeWaiting_frame {wt : Touch} {s0 s : State} (hw : 
    ({ ports := true, portClass := true, queues := true, bufCtr := true, pkts := true, portCtr := true,
       shares := true, out := true } : Touch).or wt =
    wt)
    (hK : Frame wt s0 s) (id : Nat) : Frame wt s0 (State.chargeWaiting s id) := by
  refine Frame.step hK hw ?_
  unfold State.chargeWaiting
  (try dsimp only)
  repeat' first
    | ((with_reducible show Touch.or _ _ = _) <;> rfl)
    | with_reducible (first
        | exact Frame.refl | apply State.charge_frame | apply State.chargeQ_frame | apply State.needXoff_frame
        | apply State.xoffSweep_frame)
    | (with_reducible refine Frame.ite (fun _ => ?_) (fun _ => ?_)) | split

theorem State.ready_frame {wt : Touch} {s0 s : State} (hw : 
    ({ lanes := true, ports := true, prismFlight := true, recirc := true, merge := true, fwdFlight := true,
       fwdCtr := true, cells := true, portClass := true, queues := true, spillVoqs := true, lfsr := true,
       bufCtr := true, pkts := true, nextPkt := true, voqs := true, multiQ := true, pairs := true,
       links := true, arb := true, fabCtr := true, schedCtr := true, cores := true, flows := true,
       fix := true, fixCtr := true, targets := true, drops := true, notices := true, proofCtr := true,
       evt := true, mirrors := true, cand := true, mirQ := true, mirCtr := true, telCtr := true,
       dropCtr := true, portCtr := true, prismCtr := true, timeCtr := true, shares := true, rate := true,
       healthGen := true, irq := true, out := true, free := true } : Touch).or wt = wt)
    (hK : Frame wt s0 s) (id : Nat) : Frame wt s0 (State.ready s id) := by
  refine Frame.step hK hw ?_
  unfold State.ready
  (try dsimp only)
  repeat' first
    | ((with_reducible show Touch.or _ _ = _) <;> rfl)
    | with_reducible (first
        | exact Frame.refl | apply State.chargeWaiting_frame | apply State.mergeGo_frame | apply State.updPkt_frame)
    | (intro _ hF; skip) | with_reducible assumption | (with_reducible refine Frame.ite (fun _ => ?_) (fun _ => ?_))

theorem State.steps45_frame {wt : Touch} {s0 s : State} (hw : 
    ({ ports := true, em := true, fwdCtr := true, targets := true, drops := true, notices := true,
       proofCtr := true, evt := true, telCtr := true, portCtr := true, irq := true, out := true } : Touch).or wt = wt)
    (hK : Frame wt s0 s) (pk : Pkt) (prof : Profile) : Frame wt s0 (State.steps45 s pk prof).st := by
  refine Frame.step hK hw ?_
  unfold State.steps45
  (try dsimp only)
  repeat' first
    | ((with_reducible show Touch.or _ _ = _) <;> rfl)
    | with_reducible (first
        | exact Frame.refl | apply State.countFwd_frame | apply State.fromTarget_frame | apply hitD_frame
        | apply State.hitS_frame | apply State.lookD_frame | apply State.lookR_frame | apply State.lookS_frame
        | apply State.lookX_frame | apply Look.mark_frame | apply State.terminate_frame)
    | (intro _ hF; skip) | with_reducible assumption | split

theorem Res5.countOuter_frame {wt : Touch} {s0 s : State} (hw :
    ({ fwdCtr := true, shares := true } : Touch).or wt = wt)
    (hK : Frame wt s0 s) (r : Res5) (go : Bool) :
    Frame wt s0 (Res5.countOuter r s go) := by
  refine Frame.step hK hw ?_
  unfold Res5.countOuter
  (try dsimp only)
  repeat' first
    | ((with_reducible show Touch.or _ _ = _) <;> rfl)
    | with_reducible (first | exact Frame.refl | apply State.bumpFwdAt_frame)
    | (with_reducible refine Frame.foldl _ (fun _ _ hF => ?_) _ ?_)
    | (intro _ hF; skip) | with_reducible assumption
    | (with_reducible refine Frame.ite (fun _ => ?_) (fun _ => ?_)) | split
    | fail_if_no_progress ((with_reducible apply Frame.fields); (case hq => rfl); (case hc => rfl))

theorem Res5.counted_frame {wt : Touch} {s0 : State} (hw :
    ({ fwdCtr := true, evt := true, telCtr := true, dropCtr := true, shares := true, irq := true,
       out := true, free := true } : Touch).or wt = wt)
    (r : Res5) (extra : Extra) (hr : Frame wt s0 r.st) :
    Frame wt s0 (Res5.counted r extra) := by
  unfold Res5.counted
  (try dsimp only)
  repeat' first
    | ((with_reducible show Touch.or _ _ = _); first | rfl | exact Touch.le_trans rfl hw)
    | with_reducible (first
        | exact hr | apply Res5.countOuter_frame | apply State.countFwd_frame | apply State.tabParity_frame
        | apply State.bumpFwdAt_frame)
    | (with_reducible refine Frame.ite (fun _ => ?_) (fun _ => ?_)) | split

theorem Res5.queued_frame {wt : Touch} {s0 s : State} (hw : 
    ({ learnQ := true, fwdCtr := true, shares := true } : Touch).or wt = wt)
    (hK : Frame wt s0 s) (r : Res5) (hr : Frame wt s0 r.st) : Frame wt s0 (Res5.queued r s) := by
  unfold Res5.queued
  (try dsimp only)
  repeat' first
    | ((with_reducible show Touch.or _ _ = _); first | rfl | exact Touch.le_trans rfl hw)
    | with_reducible (first | exact hK | apply State.queueLearn_frame | exact hr)
    | (with_reducible refine Frame.ite (fun _ => ?_) (fun _ => ?_)) | (refine Frame.step ?_ hw (Frame.fields .refl))

theorem State.recoverStep_frame {wt : Touch} {s0 s : State} (hw : 
    ({ frer := true, redCtr := true, frerCtr := true } : Touch).or wt = wt)
    (hK : Frame wt s0 s) (r : Res5) (hr : Frame wt s0 r.st) (rtag : Option Nat) : Frame wt s0 (State.recoverStep s r
    rtag).1 := by
  unfold State.recoverStep
  (try dsimp only)
  repeat' first
    | ((with_reducible show Touch.or _ _ = _); first | rfl | exact Touch.le_trans rfl hw)
    | with_reducible (first | exact hK | apply State.bumpRed_frame | apply State.frerRecover_frame | exact hr)
    | (with_reducible refine Frame.ite (fun _ => ?_) (fun _ => ?_)) | split
    | (refine Frame.step ?_ hw (Frame.fields .refl))

theorem State.generateStep_frame {wt : Touch} {s0 s : State} (hw : 
    ({ pkts := true, frer := true, redCtr := true, frerCtr := true } : Touch).or wt = wt)
    (hK : Frame wt s0 s) (r : Res5) (hr : Frame wt s0 r.st) (id : Nat) (forwarded : Bool) : Frame wt s0
    (State.generateStep s r id forwarded) := by
  unfold State.generateStep
  (try dsimp only)
  repeat' first
    | ((with_reducible show Touch.or _ _ = _); first | rfl | exact Touch.le_trans rfl hw)
    | with_reducible (first | exact hK | apply State.frerGenerate_frame | exact hr)
    | (with_reducible refine Frame.ite (fun _ => ?_) (fun _ => ?_)) | split
    | (refine Frame.step ?_ hw (Frame.fields .refl))

theorem State.step6_frame {wt : Touch} {s0 s : State} (hw : 
    ({ lanes := true, ports := true, prismFlight := true, recirc := true, merge := true, fwdFlight := true,
       fwdCtr := true, cells := true, portClass := true, queues := true, spillVoqs := true, lfsr := true,
       bufCtr := true, pkts := true, nextPkt := true, voqs := true, multiQ := true, pairs := true,
       links := true, arb := true, fabCtr := true, pol := true, schedCtr := true, cores := true,
       flows := true, fix := true, fixCtr := true, targets := true, drops := true, notices := true,
       proofCtr := true, evt := true, mirrors := true, cand := true, mirQ := true, mirCtr := true,
       telCtr := true, dropCtr := true, portCtr := true, prismCtr := true, timeCtr := true, shares := true,
       rate := true, healthGen := true, irq := true, out := true, free := true } : Touch).or wt = wt)
    (hK : Frame wt s0 s) (id : Nat) (r : Res5) (hr : Frame wt s0 r.st) (prof : Profile) (same : Nat) : Frame wt s0
    (State.step6 s id r prof same) := by
  unfold State.step6
  (try dsimp only)
  repeat' first
    | ((with_reducible show Touch.or _ _ = _); first | rfl | exact Touch.le_trans rfl hw)
    | with_reducible (first
        | exact hK | apply State.countDrop_frame | apply State.dropFront_frame | apply State.ingressMirror_frame
        | apply State.mergeGo_frame | apply State.police_frame | apply State.ready_frame | apply State.release_frame
        | apply State.retire_frame | apply State.settle_frame | apply State.tapDecision_frame | exact hr)
    | (with_reducible refine Frame.foldl _ (fun _ _ hF => ?_) _ ?_) | (intro _ hF; skip) | with_reducible assumption
    | (with_reducible refine Frame.ite (fun _ => ?_) (fun _ => ?_)) | split
    | (refine Frame.step ?_ hw (Frame.fields .refl))

theorem State.dropLast_frame {wt : Touch} {s0 s : State} (hw :
    ({ lanes := true, ports := true, prismFlight := true, recirc := true, merge := true, fwdFlight := true,
       fwdCtr := true, cells := true, portClass := true, queues := true, spillVoqs := true, lfsr := true,
       bufCtr := true, pkts := true, nextPkt := true, voqs := true, multiQ := true, pairs := true,
       links := true, arb := true, fabCtr := true, schedCtr := true, cores := true, flows := true,
       fix := true, fixCtr := true, targets := true, drops := true, notices := true, proofCtr := true,
       evt := true, mirrors := true, cand := true, mirQ := true, mirCtr := true, telCtr := true,
       dropCtr := true, portCtr := true, prismCtr := true, timeCtr := true, shares := true, rate := true,
       healthGen := true, irq := true, out := true, free := true } : Touch).or wt = wt)
    (hK : Frame wt s0 s) (id : Nat) (r : Res5) (prof : Profile) (reason : Nat) :
    Frame wt s0 (State.dropLast s id r prof reason) := by
  refine Frame.step hK hw ?_
  unfold State.dropLast
  (try dsimp only)
  repeat' first
    | ((with_reducible show Touch.or _ _ = _) <;> rfl)
    | with_reducible (first
        | exact Frame.refl | apply State.dropFront_frame | apply State.tapDecision_frame
        | apply State.ingressMirror_frame)
    | (with_reducible refine Frame.foldl _ (fun _ _ hF => ?_) _ ?_)
    | (intro _ hF; skip) | with_reducible assumption
    | (with_reducible refine Frame.ite (fun _ => ?_) (fun _ => ?_)) | split
    | fail_if_no_progress ((with_reducible apply Frame.fields); (case hq => rfl); (case hc => rfl))

theorem Res5.dropPass_frame {wt : Touch} {s0 : State} (hw :
    ({ lanes := true, ports := true, prismFlight := true, recirc := true, merge := true, fwdFlight := true,
       learnQ := true, fwdCtr := true, cells := true, portClass := true, queues := true, spillVoqs := true,
       lfsr := true, bufCtr := true, pkts := true, nextPkt := true, voqs := true, multiQ := true,
       pairs := true, links := true, arb := true, fabCtr := true, schedCtr := true, cores := true,
       flows := true, fix := true, fixCtr := true, targets := true, drops := true, notices := true,
       proofCtr := true, evt := true, mirrors := true, cand := true, mirQ := true, mirCtr := true,
       telCtr := true, dropCtr := true, portCtr := true, prismCtr := true, timeCtr := true, shares := true,
       rate := true, healthGen := true, irq := true, out := true, free := true } : Touch).or wt = wt)
    (r : Res5) (id : Nat) (prof : Profile) (reason : Nat) (hr : Frame wt s0 r.st) :
    Frame wt s0 (Res5.dropPass r id prof reason) := by
  unfold Res5.dropPass
  (try dsimp only)
  repeat' first
    | ((with_reducible show Touch.or _ _ = _); first | rfl | exact Touch.le_trans rfl hw)
    | with_reducible (first
        | exact hr | apply State.dropLast_frame | apply Res5.queued_frame | apply State.tabParity_frame
        | apply State.bumpFwdAt_frame)
    | (with_reducible refine Frame.ite (fun _ => ?_) (fun _ => ?_)) | split

theorem State.rulePass_frame {wt : Touch} {s0 s : State} (hw :
    ({ lanes := true, ports := true, prismFlight := true, recirc := true, merge := true, fwdFlight := true,
       em := true, learnQ := true, fwdCtr := true, cells := true, portClass := true, queues := true,
       spillVoqs := true, lfsr := true, bufCtr := true, pkts := true, nextPkt := true, voqs := true,
       multiQ := true, pairs := true, links := true, arb := true, fabCtr := true, schedCtr := true,
       cores := true, flows := true, fix := true, fixCtr := true, targets := true, drops := true,
       notices := true, proofCtr := true, evt := true, mirrors := true, cand := true, mirQ := true,
       mirCtr := true, telCtr := true, dropCtr := true, portCtr := true, prismCtr := true, timeCtr := true,
       shares := true, rate := true, healthGen := true, irq := true, out := true, free := true } : Touch).or wt = wt)
    (hK : Frame wt s0 s) (id : Nat) (prof : Profile) :
    Frame wt s0 (State.rulePass s id prof) := by
  unfold State.rulePass
  exact Res5.dropPass_frame (Touch.le_trans rfl hw) _ _ _ _ (State.steps45_frame (Touch.le_trans rfl hw) hK _ _)

theorem State.lastPass_frame {wt : Touch} {s0 s : State} (hw : 
    ({ lanes := true, ports := true, prismFlight := true, recirc := true, merge := true, fwdFlight := true,
       em := true, learnQ := true, fwdCtr := true, cells := true, portClass := true, queues := true,
       spillVoqs := true, lfsr := true, bufCtr := true, pkts := true, nextPkt := true, voqs := true,
       multiQ := true, pairs := true, links := true, arb := true, fabCtr := true, pol := true,
       schedCtr := true, frer := true, cores := true, flows := true, fix := true, fixCtr := true,
       targets := true, drops := true, notices := true, proofCtr := true, evt := true, mirrors := true,
       cand := true, mirQ := true, mirCtr := true, telCtr := true, dropCtr := true, portCtr := true,
       prismCtr := true, timeCtr := true, redCtr := true, frerCtr := true, shares := true, rate := true,
       healthGen := true, irq := true, out := true, free := true } : Touch).or wt = wt)
    (hK : Frame wt s0 s) (id : Nat) (prof : Profile) (extra : Extra) : Frame wt s0 (State.lastPass s id prof extra) :=
    by
  refine Frame.step hK hw ?_
  unfold State.lastPass
  (try dsimp only)
  repeat' first
    | ((with_reducible show Touch.or _ _ = _) <;> rfl)
    | with_reducible (first
        | exact Frame.refl | apply State.countDrop_frame | apply Res5.counted_frame | apply State.dropFront_frame
        | apply State.generateStep_frame | apply Res5.queued_frame | apply State.recoverStep_frame
        | apply State.step6_frame | apply State.steps45_frame | apply State.updPkt_frame
        | apply State.dropLast_frame)
    | (intro _ hF; skip) | with_reducible assumption | split

theorem State.countPass_frame {wt : Touch} {s0 s : State} (hw : 
    ({ hits := true, prismCtr := true } : Touch).or wt = wt) (hK : Frame wt s0 s) (pk : Pkt) (o : PrismOut) (hit : Option (Nat × RuleAct)) : Frame wt s0 (s.countPass pk o hit) := by
  refine hK.step hw ?_
  unfold State.countPass
  extract_lets a b
  have hb : Frame ({ hits := true, prismCtr := true } : Touch) s b :=
    State.bumpPrism_frame rfl (State.bumpPrism_frame rfl (State.bumpPrism_frame rfl (State.bumpPrism_frame rfl .refl _ _ _) _ _ _)
      _ _ _) _ _ _
  clear_value b
  split
  · exact Frame.fields hb
  · exact State.bumpPrism_frame rfl hb _ _ _

theorem State.override_frame {wt : Touch} {s0 s : State} (hw : 
    ({ bufCtr := true, pkts := true, shares := true } : Touch).or wt = wt)
    (hK : Frame wt s0 s) (pk : Pkt) (a : RuleAct) (o : PrismOut) (idx : Nat) : Frame wt s0 (State.override s pk a o
    idx) := by
  refine Frame.step hK hw ?_
  unfold State.override
  (try dsimp only)
  repeat' first
    | ((with_reducible show Touch.or _ _ = _) <;> rfl)
    | with_reducible (first
        | exact Frame.refl | apply State.bumpBuf_frame | apply State.updPkt_frame | apply State.bumpBufAt_frame)
    | (intro _ hF; skip) | with_reducible assumption | (with_reducible refine Frame.ite (fun _ => ?_) (fun _ => ?_))

theorem State.requeue_frame {wt : Touch} {s0 s : State} (hw :
    ({ ports := true, recirc := true, portClass := true, queues := true, bufCtr := true, pkts := true,
       portCtr := true, shares := true, out := true } : Touch).or wt = wt)
    (hK : Frame wt s0 s) (id : Nat) (a : RuleAct) :
    Frame wt s0 (State.requeue s id a) := by
  refine Frame.step hK hw ?_
  unfold State.requeue
  (try dsimp only)
  repeat' first
    | ((with_reducible show Touch.or _ _ = _) <;> rfl)
    | with_reducible (first | exact Frame.refl | apply State.chargeWaiting_frame | apply State.updPkt_frame)
    | (with_reducible refine Frame.foldl _ (fun _ _ hF => ?_) _ ?_)
    | (intro _ hF; skip) | with_reducible assumption
    | (with_reducible refine Frame.ite (fun _ => ?_) (fun _ => ?_)) | split
    | fail_if_no_progress ((with_reducible apply Frame.fields); (case hq => rfl); (case hc => rfl))

theorem State.recirculate_frame {wt : Touch} {s0 s : State} (hw :
    ({ lanes := true, ports := true, prismFlight := true, recirc := true, merge := true, fwdFlight := true,
       em := true, learnQ := true, fwdCtr := true, cells := true, portClass := true, queues := true,
       spillVoqs := true, lfsr := true, bufCtr := true, pkts := true, nextPkt := true, voqs := true,
       multiQ := true, pairs := true, links := true, arb := true, fabCtr := true, schedCtr := true,
       cores := true, flows := true, fix := true, fixCtr := true, targets := true, drops := true,
       notices := true, proofCtr := true, evt := true, mirrors := true, cand := true, mirQ := true,
       mirCtr := true, telCtr := true, dropCtr := true, portCtr := true, prismCtr := true, timeCtr := true,
       shares := true, rate := true, healthGen := true, irq := true, out := true, free := true } : Touch).or wt = wt)
    (hK : Frame wt s0 s) (id : Nat) (prof : Profile) (a : RuleAct) :
    Frame wt s0 (State.recirculate s id prof a) := by
  unfold State.recirculate
  dsimp only
  have h5 := State.steps45_frame (Touch.le_trans rfl hw) hK (s.pkt id) prof
  generalize s.steps45 (s.pkt id) prof = r at h5 ⊢
  refine Frame.ite (fun _ => ?_) (fun _ => Frame.ite (fun _ => ?_) (fun _ => ?_))
  · exact Res5.dropPass_frame (Touch.le_trans rfl hw) _ _ _ _ h5
  · exact Res5.dropPass_frame (Touch.le_trans rfl hw) _ _ _ _ h5
  · exact State.requeue_frame (Touch.le_trans rfl hw) h5 _ _

theorem State.runPass_frame {wt : Touch} {s0 s : State} (hw : 
    ({ lanes := true, ports := true, prismFlight := true, hits := true, recirc := true, merge := true,
       fwdFlight := true, em := true, learnQ := true, fwdCtr := true, cells := true, portClass := true,
       queues := true, spillVoqs := true, lfsr := true, bufCtr := true, pkts := true, nextPkt := true,
       voqs := true, multiQ := true, pairs := true, links := true, arb := true, fabCtr := true,
       pol := true, schedCtr := true, frer := true, cores := true, flows := true, fix := true,
       fixCtr := true, targets := true, drops := true, notices := true, proofCtr := true, evt := true,
       mirrors := true, cand := true, mirQ := true, mirCtr := true, telCtr := true, dropCtr := true,
       portCtr := true, prismCtr := true, timeCtr := true, redCtr := true, frerCtr := true, shares := true,
       rate := true, healthGen := true, irq := true, out := true, free := true } : Touch).or wt = wt)
    (hK : Frame wt s0 s) (id : Nat) : Frame wt s0 (State.runPass s id) := by
  refine Frame.step hK hw ?_
  unfold State.runPass
  (try dsimp only)
  repeat' first
    | ((with_reducible show Touch.or _ _ = _) <;> rfl)
    | with_reducible (first
        | exact Frame.refl | apply State.bumpPrism_frame | apply State.countPass_frame | apply State.dropFront_frame
        | apply State.lastPass_frame | apply State.override_frame | apply State.recirculate_frame
        | apply State.rulePass_frame | apply State.steps45_frame)
    | (with_reducible refine Frame.ite (fun _ => ?_) (fun _ => ?_)) | split

theorem State.enter_frame {wt : Touch} {s0 s : State} (hw : 
    ({ prismFlight := true, merge := true, fwdFlight := true, pkts := true, nextPkt := true, timeCtr := true,
       free := true } : Touch).or wt = wt)
    (hK : Frame wt s0 s) (pk : Pkt) : Frame wt s0 (State.enter s pk) := by
  refine Frame.step hK hw ?_
  unfold State.enter
  (try dsimp only)
  repeat' first
    | ((with_reducible show Touch.or _ _ = _) <;> rfl)
    | with_reducible (first | exact Frame.refl | apply State.bumpTime_frame) | (intro _ hF; skip)
    | with_reducible assumption | (with_reducible refine Frame.ite (fun _ => ?_) (fun _ => ?_)) | split
    | fail_if_no_progress ((with_reducible apply Frame.fields); (case hq => rfl); (case hc => rfl))

theorem State.firstPass_frame {wt : Touch} {s0 s : State} (hw : 
    ({ lanes := true, ports := true, prismFlight := true, hits := true, recirc := true, merge := true,
       fwdFlight := true, em := true, learnQ := true, fwdCtr := true, cells := true, portClass := true,
       queues := true, spillVoqs := true, lfsr := true, bufCtr := true, pkts := true, nextPkt := true,
       voqs := true, multiQ := true, pairs := true, links := true, arb := true, fabCtr := true,
       pol := true, schedCtr := true, frer := true, cores := true, flows := true, fix := true,
       fixCtr := true, targets := true, drops := true, notices := true, proofCtr := true, evt := true,
       mirrors := true, cand := true, mirQ := true, mirCtr := true, telCtr := true, dropCtr := true,
       portCtr := true, prismCtr := true, timeCtr := true, redCtr := true, frerCtr := true, shares := true,
       rate := true, healthGen := true, irq := true, out := true, free := true } : Touch).or wt = wt)
    (hK : Frame wt s0 s) (pk : Pkt) : Frame wt s0 (State.firstPass s pk) := by
  refine Frame.step hK hw ?_
  unfold State.firstPass
  (try dsimp only)
  repeat' first
    | ((with_reducible show Touch.or _ _ = _) <;> rfl)
    | with_reducible (first | exact Frame.refl | apply State.enter_frame | apply State.runPass_frame)

theorem State.macDrop_frame {wt : Touch} {s0 s : State} (hw : 
    ({ fwdCtr := true, bufCtr := true, pkts := true, nextPkt := true, fabCtr := true, schedCtr := true,
       mirrors := true, cand := true, mirQ := true, mirCtr := true, telCtr := true, dropCtr := true,
       portCtr := true, prismCtr := true, timeCtr := true, shares := true, free := true } : Touch).or wt = wt)
    (hK : Frame wt s0 s) (pk : Pkt) (reason : Nat) : Frame wt s0 (State.macDrop s pk reason) := by
  refine Frame.step hK hw ?_
  unfold State.macDrop
  (try dsimp only)
  repeat' first
    | ((with_reducible show Touch.or _ _ = _) <;> rfl)
    | with_reducible (first | exact Frame.refl | apply State.countDrop_frame)

theorem State.awaitTail_frame {wt : Touch} {s0 s : State} (hw : 
    ({ pkts := true, nextPkt := true, free := true } : Touch).or wt = wt)
    (hK : Frame wt s0 s) (pk : Pkt) (take : Bool) : Frame wt s0 (State.awaitTail s pk take) :=
  hK.step hw (.ofView rfl)

theorem State.landIn_frame {wt : Touch} {s0 s : State} (hw :
    ({ lanes := true, ports := true, prismFlight := true, hits := true, recirc := true, merge := true,
       fwdFlight := true, em := true, learnQ := true, fwdCtr := true, cells := true, portClass := true,
       queues := true, spillVoqs := true, lfsr := true, bufCtr := true, pkts := true, nextPkt := true,
       voqs := true, multiQ := true, pairs := true, links := true, arb := true, fabCtr := true,
       pol := true, schedCtr := true, frer := true, cores := true, flows := true, fix := true,
       fixCtr := true, targets := true, drops := true, notices := true, proofCtr := true, evt := true,
       mirrors := true, cand := true, mirQ := true, mirCtr := true, telCtr := true, dropCtr := true,
       portCtr := true, prismCtr := true, timeCtr := true, redCtr := true, frerCtr := true, shares := true,
       rate := true, healthGen := true, irq := true, out := true, free := true } : Touch).or wt = wt)
    (hK : Frame wt s0 s) (pk : Pkt) :
    Frame wt s0 (State.landIn s pk) := by
  refine Frame.step hK hw ?_
  unfold State.landIn
  (try dsimp only)
  repeat' first
    | ((with_reducible show Touch.or _ _ = _) <;> rfl)
    | with_reducible (first
        | exact Frame.refl | apply State.enter_frame | apply State.charge_frame | apply State.runPass_frame
        | apply State.needXoff_frame | apply State.updPkt_frame | apply State.macDrop_frame
        | apply State.raiseLimited_frame | apply State.bumpBufAt_frame | apply State.xoffSweep_frame)
    | (with_reducible refine Frame.setAlloc ?_ ?_ (BufSt.alloc_rest ..))
    | (with_reducible refine Frame.foldl _ (fun _ _ hF => ?_) _ ?_)
    | (intro _ hF; skip) | with_reducible assumption
    | (with_reducible refine Frame.ite (fun _ => ?_) (fun _ => ?_)) | split
    | fail_if_no_progress ((with_reducible apply Frame.fields); (case hq => rfl); (case hc => rfl))

theorem State.frameIn_frame {wt : Touch} {s0 s : State} (hw : 
    ({ lanes := true, ports := true, prismFlight := true, hits := true, recirc := true, merge := true,
       fwdFlight := true, em := true, learnQ := true, fwdCtr := true, cells := true, portClass := true,
       queues := true, spillVoqs := true, lfsr := true, bufCtr := true, pkts := true, nextPkt := true,
       voqs := true, multiQ := true, pairs := true, links := true, arb := true, fabCtr := true,
       pol := true, schedCtr := true, frer := true, cores := true, flows := true, fix := true,
       fixCtr := true, targets := true, drops := true, notices := true, proofCtr := true, evt := true,
       mirrors := true, cand := true, mirQ := true, mirCtr := true, telCtr := true, dropCtr := true,
       portCtr := true, prismCtr := true, timeCtr := true, redCtr := true, frerCtr := true, shares := true,
       rate := true, healthGen := true, irq := true, out := true, free := true } : Touch).or wt = wt)
    (hK : Frame wt s0 s) (port : Nat) (bytes : List Byte) (full : Bool) : Frame wt s0 (State.frameIn s port bytes
    full) := by
  refine Frame.step hK hw ?_
  unfold State.frameIn
  (try dsimp only)
  repeat' first
    | ((with_reducible show Touch.or _ _ = _) <;> rfl)
    | with_reducible (first
        | exact Frame.refl | apply State.awaitTail_frame | apply State.bumpPort_frame | apply State.bumpTime_frame
        | apply State.firstPass_frame | apply State.macDrop_frame
        | apply State.landIn_frame)
    | (with_reducible refine Frame.ite (fun _ => ?_) (fun _ => ?_))

theorem execFrameIngress_frame (port : Nat) (bytes : List Byte) (full : Bool) (s : State) : OutFrame 
    ({ lanes := true, ports := true, prismFlight := true, hits := true, recirc := true, merge := true,
       fwdFlight := true, em := true, learnQ := true, fwdCtr := true, cells := true, portClass := true,
       queues := true, spillVoqs := true, lfsr := true, bufCtr := true, pkts := true, nextPkt := true,
       voqs := true, multiQ := true, pairs := true, links := true, arb := true, fabCtr := true,
       pol := true, schedCtr := true, frer := true, cores := true, flows := true, fix := true,
       fixCtr := true, targets := true, drops := true, notices := true, proofCtr := true, evt := true,
       mirrors := true, cand := true, mirQ := true, mirCtr := true, telCtr := true, dropCtr := true,
       portCtr := true, prismCtr := true, timeCtr := true, redCtr := true, frerCtr := true, shares := true,
       rate := true, healthGen := true, irq := true, out := true, free := true } : Touch) s (execFrameIngress port bytes full s) := by
  unfold execFrameIngress
  (try dsimp only)
  repeat' first
    | with_reducible (first | exact OutFrame.fault _ _ | apply OutFrame.next)
    | ((with_reducible show Touch.or _ _ = _) <;> rfl)
    | with_reducible (first | exact Frame.refl | apply State.frameIn_frame)
    | (with_reducible refine Frame.ite (fun _ => ?_) (fun _ => ?_)) | split

theorem State.dropTail_frame {wt : Touch} {s0 s : State} (hw : 
    ({ lanes := true, ports := true, prismFlight := true, recirc := true, merge := true, fwdFlight := true,
       fwdCtr := true, cells := true, portClass := true, queues := true, spillVoqs := true, lfsr := true,
       bufCtr := true, pkts := true, nextPkt := true, voqs := true, multiQ := true, pairs := true,
       links := true, arb := true, fabCtr := true, schedCtr := true, cores := true, flows := true,
       fix := true, fixCtr := true, targets := true, drops := true, notices := true, proofCtr := true,
       evt := true, mirrors := true, cand := true, mirQ := true, mirCtr := true, telCtr := true,
       dropCtr := true, portCtr := true, prismCtr := true, timeCtr := true, shares := true, rate := true,
       healthGen := true, irq := true, out := true, free := true } : Touch).or wt = wt)
    (hK : Frame wt s0 s) (pk : Pkt) (reason : Nat) : Frame wt s0 (State.dropTail s pk reason) := by
  refine Frame.step hK hw ?_
  unfold State.dropTail
  (try dsimp only)
  repeat' first
    | ((with_reducible show Touch.or _ _ = _) <;> rfl)
    | with_reducible (first
        | exact Frame.refl | apply State.countDrop_frame | apply State.dropPkt_frame | apply State.mergeGo_frame
        | apply State.pull_frame | apply State.ready_frame | apply State.release_frame | apply State.retire_frame
        | apply State.unpark_frame | apply State.leavePark_frame)
    | (with_reducible refine Frame.ite (fun _ => ?_) (fun _ => ?_)) | split

theorem State.wholeIn_frame {wt : Touch} {s0 s : State} (hw : 
    ({ ports := true, prismFlight := true, recirc := true, merge := true, fwdCtr := true, cells := true,
       portClass := true, queues := true, spillVoqs := true, bufCtr := true, pkts := true, nextPkt := true,
       voqs := true, multiQ := true, pairs := true, fabCtr := true, schedCtr := true, mirrors := true,
       cand := true, mirQ := true, mirCtr := true, telCtr := true, dropCtr := true, portCtr := true,
       prismCtr := true, timeCtr := true, shares := true, out := true, free := true } : Touch).or wt = wt)
    (hK : Frame wt s0 s) (pk : Pkt) : Frame wt s0 (State.wholeIn s pk) := by
  refine Frame.step hK hw ?_
  unfold State.wholeIn
  (try dsimp only)
  repeat' first
    | ((with_reducible show Touch.or _ _ = _) <;> rfl)
    | with_reducible (first
        | exact Frame.refl | apply State.ask_frame | apply State.countDrop_frame | apply State.pull_frame
        | apply State.release_frame | apply State.startFrames_frame | apply State.dropUnfit_frame)
    | (with_reducible refine Frame.ite (fun _ => ?_) (fun _ => ?_)) | split

theorem State.tapTail_frame {wt : Touch} {s0 s : State} (hw : 
    ({ cores := true, flows := true, fix := true, fixCtr := true, evt := true, telCtr := true,
       rate := true, irq := true, out := true } : Touch).or wt = wt)
    (hK : Frame wt s0 s) (pk : Pkt) (tooLong : Bool) (bad : Bool) : Frame wt s0 (State.tapTail s pk tooLong bad) := by
  refine Frame.step hK hw ?_
  unfold State.tapTail
  (try dsimp only)
  repeat' first
    | ((with_reducible show Touch.or _ _ = _) <;> rfl)
    | with_reducible (first
        | exact Frame.refl | apply State.commitTap_frame | apply State.ready_frame | apply State.rewindTap_frame)
    | (with_reducible refine Frame.ite (fun _ => ?_) (fun _ => ?_)) | split

theorem State.tailIn_frame {wt : Touch} {s0 s : State} (hw : 
    ({ lanes := true, ports := true, prismFlight := true, recirc := true, merge := true, fwdFlight := true,
       fwdCtr := true, cells := true, portClass := true, queues := true, spillVoqs := true, lfsr := true,
       bufCtr := true, pkts := true, nextPkt := true, voqs := true, multiQ := true, pairs := true,
       links := true, arb := true, fabCtr := true, schedCtr := true, cores := true, flows := true,
       fix := true, fixCtr := true, targets := true, drops := true, notices := true, proofCtr := true,
       evt := true, mirrors := true, cand := true, mirQ := true, mirCtr := true, telCtr := true,
       dropCtr := true, portCtr := true, prismCtr := true, timeCtr := true, shares := true, rate := true,
       healthGen := true, irq := true, out := true, free := true } : Touch).or wt = wt) (hK : Frame wt s0 s) (id : Nat) (fcsOk : Bool) : Frame wt s0 (s.tailIn id fcsOk) := by
  unfold State.tailIn
  dsimp only
  have ht : Frame wt s0 (if (s.pkt id).overLong then s.bumpPort (s.pkt id).inPort 4 1
      else if fcsOk then s else s.bumpPort (s.pkt id).inPort 2 1) :=
    Frame.ite (fun _ => State.bumpPort_frame (Touch.le_trans rfl hw) hK _ _ _)
      (fun _ => Frame.ite (fun _ => hK) (fun _ => State.bumpPort_frame (Touch.le_trans rfl hw) hK _ _ _))
  generalize (if (s.pkt id).overLong then s.bumpPort (s.pkt id).inPort 4 1
      else if fcsOk then s else s.bumpPort (s.pkt id).inPort 2 1) = t at ht ⊢
  have hu := State.updPkt_frame (Touch.le_trans rfl hw) ht id (fun x => { x with
    whole := true, fcsBad := !fcsOk && !(s.pkt id).overLong,
    stomp := x.stomp || (((s.pkt id).overLong || !fcsOk) && x.crossed) })
  generalize t.updPkt id _ = u at hu ⊢
  have hv := State.tapTail_frame (Touch.le_trans rfl hw) hu (u.pkt id) (s.pkt id).overLong ((s.pkt id).overLong || !fcsOk)
  generalize u.tapTail (u.pkt id) _ _ = v at hv ⊢
  have hx : Frame wt s0 { v with pkts := Tab.erase id v.pkts } :=
    hv.step (v := { pkts := true }) (Touch.le_trans rfl hw) (.ofView rfl)
  generalize ({ v with pkts := Tab.erase id v.pkts } : State) = w at hx ⊢
  refine Frame.ite (fun _ => Frame.ite (fun _ => Frame.ite (fun _ => ?_) (fun _ => Frame.ite (fun _ => ?_) (fun _ => ?_)))
    (fun _ => hx)) (fun _ => Frame.ite (fun _ => ?_) (fun _ => ?_))
  · exact State.countDrop_frame (Touch.le_trans rfl hw) hx _ _ _
  · exact hx
  · exact State.updPtp_frame (Touch.le_trans rfl hw) hx _ _
  · exact State.dropTail_frame (Touch.le_trans rfl hw) hv _ _
  · exact State.wholeIn_frame (Touch.le_trans rfl hw) hv _

theorem execFrameTailReceived_frame (id : Nat) (fcsOk : Bool) (s : State) : OutFrame 
    ({ lanes := true, ports := true, prismFlight := true, recirc := true, merge := true, fwdFlight := true,
       fwdCtr := true, cells := true, portClass := true, queues := true, spillVoqs := true, lfsr := true,
       bufCtr := true, pkts := true, nextPkt := true, voqs := true, multiQ := true, pairs := true,
       links := true, arb := true, fabCtr := true, schedCtr := true, cores := true, flows := true,
       fix := true, fixCtr := true, targets := true, drops := true, notices := true, proofCtr := true,
       evt := true, mirrors := true, cand := true, mirQ := true, mirCtr := true, telCtr := true,
       dropCtr := true, portCtr := true, prismCtr := true, timeCtr := true, shares := true, rate := true,
       healthGen := true, irq := true, out := true, free := true } : Touch) s (execFrameTailReceived id fcsOk s) := by
  unfold execFrameTailReceived
  (try dsimp only)
  repeat' first
    | with_reducible (first | exact OutFrame.fault _ _ | apply OutFrame.next)
    | ((with_reducible show Touch.or _ _ = _) <;> rfl)
    | with_reducible (first | exact Frame.refl | apply State.tailIn_frame)
    | split

theorem State.applyHop_frame {wt : Touch} {s0 s : State} (hw : 
    ({ fwdCtr := true, cells := true, portClass := true, queues := true, pkts := true, shares := true,
       free := true } : Touch).or wt = wt)
    (hK : Frame wt s0 s) (pk : Pkt) (t : Template) : Frame wt s0 (State.applyHop s pk t) := by
  refine Frame.step hK hw ?_
  unfold State.applyHop
  (try dsimp only)
  repeat' first
    | ((with_reducible show Touch.or _ _ = _) <;> rfl)
    | with_reducible (first
        | exact Frame.refl | apply State.bumpFwd_frame | apply State.drawn_frame | apply State.uncharge_frame
        | apply State.updPkt_frame | apply State.bare_frame | apply State.bumpFwdAt_frame)
    | (intro _ hF; skip) | with_reducible assumption | (with_reducible refine Frame.ite (fun _ => ?_) (fun _ => ?_))

theorem State.hop_frame {wt : Touch} {s0 s : State} (hw : 
    ({ lanes := true, ports := true, prismFlight := true, hits := true, recirc := true, merge := true,
       fwdFlight := true, em := true, learnQ := true, fwdCtr := true, cells := true, portClass := true,
       queues := true, spillVoqs := true, lfsr := true, bufCtr := true, pkts := true, nextPkt := true,
       voqs := true, multiQ := true, pairs := true, links := true, arb := true, fabCtr := true,
       pol := true, schedCtr := true, frer := true, cores := true, flows := true, fix := true,
       fixCtr := true, targets := true, drops := true, notices := true, proofCtr := true, evt := true,
       mirrors := true, cand := true, mirQ := true, mirCtr := true, telCtr := true, dropCtr := true,
       portCtr := true, prismCtr := true, timeCtr := true, redCtr := true, frerCtr := true, shares := true,
       rate := true, healthGen := true, irq := true, out := true, free := true } : Touch).or wt = wt)
    (hK : Frame wt s0 s) (sl : Nat) (id : Nat) : Frame wt s0 (State.hop s sl id) := by
  refine Frame.step hK hw ?_
  unfold State.hop
  (try dsimp only)
  repeat' first
    | ((with_reducible show Touch.or _ _ = _) <;> rfl)
    | with_reducible (first
        | exact Frame.refl | apply State.applyHop_frame | apply State.dropFront_frame | apply State.raise_frame
        | apply State.runPass_frame | apply State.tabParity_frame | apply State.updPkt_frame)
    | (intro _ hF; skip) | with_reducible assumption | (with_reducible refine Frame.ite (fun _ => ?_) (fun _ => ?_))
    | split | fail_if_no_progress ((with_reducible apply Frame.fields); (case hq => rfl); (case hc => rfl))

theorem execRecirculationPass_frame (slice : Nat) (s : State) : OutFrame 
    ({ lanes := true, ports := true, prismFlight := true, hits := true, recirc := true, merge := true,
       fwdFlight := true, em := true, learnQ := true, fwdCtr := true, cells := true, portClass := true,
       queues := true, spillVoqs := true, lfsr := true, bufCtr := true, pkts := true, nextPkt := true,
       voqs := true, multiQ := true, pairs := true, links := true, arb := true, fabCtr := true,
       pol := true, schedCtr := true, frer := true, cores := true, flows := true, fix := true,
       fixCtr := true, targets := true, drops := true, notices := true, proofCtr := true, evt := true,
       mirrors := true, cand := true, mirQ := true, mirCtr := true, telCtr := true, dropCtr := true,
       portCtr := true, prismCtr := true, timeCtr := true, redCtr := true, frerCtr := true, shares := true,
       rate := true, healthGen := true, irq := true, out := true, free := true } : Touch) s (execRecirculationPass slice s) := by
  unfold execRecirculationPass
  (try dsimp only)
  repeat' first
    | with_reducible (first | exact OutFrame.fault _ _ | apply OutFrame.next)
    | ((with_reducible show Touch.or _ _ = _) <;> rfl)
    | with_reducible (first | exact Frame.refl | apply State.hop_frame)
    | (with_reducible refine Frame.ite (fun _ => ?_) (fun _ => ?_)) | split

theorem execMirrorQueueAdmit_frame (slice : Nat) (s : State) : OutFrame 
    ({ lanes := true, ports := true, prismFlight := true, recirc := true, merge := true, fwdFlight := true,
       fwdCtr := true, cells := true, portClass := true, queues := true, spillVoqs := true, lfsr := true,
       bufCtr := true, pkts := true, nextPkt := true, voqs := true, multiQ := true, pairs := true,
       links := true, arb := true, fabCtr := true, schedCtr := true, evt := true, mirrors := true,
       cand := true, mirQ := true, mirCtr := true, telCtr := true, dropCtr := true, portCtr := true,
       prismCtr := true, timeCtr := true, shares := true, rate := true, healthGen := true, irq := true,
       out := true, free := true } : Touch) s (execMirrorQueueAdmit slice s) := by
  unfold execMirrorQueueAdmit
  (try dsimp only)
  repeat' first
    | with_reducible (first | exact OutFrame.fault _ _ | apply OutFrame.next)
    | ((with_reducible show Touch.or _ _ = _) <;> rfl)
    | with_reducible (first | exact Frame.refl | apply State.toAdmission_frame)
    | (with_reducible refine Frame.ite (fun _ => ?_) (fun _ => ?_)) | split
    | fail_if_no_progress ((with_reducible apply Frame.fields); (case hq => rfl); (case hc => rfl))

end Sys2Proof.Machine
end

