-- ==== Sys2Proof/Laws/FrameLaneThrottle.lean ====
section
/-! SUPPORT. What the operations of LaneThrottle may change. -/

set_option Elab.async false
set_option linter.all false

namespace Sys2Proof.Machine

theorem State.ctlRx_frame {wt : Touch} {s0 s : State} (hw : 
    ({ fwdCtr := true, bufCtr := true, pkts := true, nextPkt := true, fabCtr := true, schedCtr := true,
       mirrors := true, cand := true, mirQ := true, mirCtr := true, telCtr := true, dropCtr := true,
       portCtr := true, prismCtr := true, timeCtr := true, shares := true, free := true } : Touch).or wt = wt)
    (hK : Frame wt s0 s) (p : Nat) (bytes : List Byte) (fcsOk : Bool) (act : State → State) (hact : ∀ x, Frame wt s0 x
    → Frame wt s0 (act x)) : Frame wt s0 (State.ctlRx s p bytes fcsOk act) := by
  unfold State.ctlRx
  (try dsimp only)
  repeat' first
    | ((with_reducible show Touch.or _ _ = _); first | rfl | exact Touch.le_trans rfl hw)
    | with_reducible (first | exact hK | apply State.bumpPort_frame | apply State.macDrop_frame) | apply hact
    | (intro _ hF; skip) | with_reducible assumption | (with_reducible refine Frame.ite (fun _ => ?_) (fun _ => ?_))
    | (refine Frame.step ?_ hw (Frame.fields .refl))

theorem State.loseTap_frame {wt : Touch} {s0 s : State} (hw :
    ({ cores := true, flows := true, fix := true, fixCtr := true, evt := true, telCtr := true,
       rate := true, irq := true, out := true } : Touch).or wt = wt)
    (hK : Frame wt s0 s) (pk : Pkt) :
    Frame wt s0 (State.loseTap s pk) := by
  refine Frame.step hK hw ?_
  unfold State.loseTap
  (try dsimp only)
  repeat' first
    | ((with_reducible show Touch.or _ _ = _) <;> rfl)
    | with_reducible (first | exact Frame.refl | apply State.rewindTap_frame)
    | (with_reducible refine Frame.foldl _ (fun _ _ hF => ?_) _ ?_)
    | (intro _ hF; skip) | with_reducible assumption
    | (with_reducible refine Frame.ite (fun _ => ?_) (fun _ => ?_)) | split
    | fail_if_no_progress ((with_reducible apply Frame.fields); (case hq => rfl); (case hc => rfl))

theorem State.loseFrame_frame {wt : Touch} {s0 s : State} (hw :
    ({ ports := true, prismFlight := true, recirc := true, merge := true, fwdFlight := true,
       fwdCtr := true, cells := true, portClass := true, queues := true, spillVoqs := true, bufCtr := true,
       pkts := true, voqs := true, multiQ := true, pairs := true, fabCtr := true, schedCtr := true,
       cores := true, flows := true, fix := true, fixCtr := true, targets := true, drops := true,
       notices := true, proofCtr := true, evt := true, mirCtr := true, telCtr := true, dropCtr := true,
       portCtr := true, prismCtr := true, timeCtr := true, shares := true, rate := true, irq := true,
       out := true } : Touch).or wt = wt)
    (hK : Frame wt s0 s) (pk : Pkt) :
    Frame wt s0 (State.loseFrame s pk) := by
  refine Frame.step hK hw ?_
  unfold State.loseFrame
  (try dsimp only)
  repeat' first
    | ((with_reducible show Touch.or _ _ = _) <;> rfl)
    | with_reducible (first
        | exact Frame.refl | apply State.pull_frame | apply State.unpark_frame | apply State.release_frame
        | apply State.updPkt_frame | apply State.retire_frame | apply State.tapTail_frame
        | apply State.loseTap_frame | apply State.leavePark_frame)
    | (with_reducible refine Frame.foldl _ (fun _ _ hF => ?_) _ ?_)
    | (intro _ hF; skip) | with_reducible assumption
    | (with_reducible refine Frame.ite (fun _ => ?_) (fun _ => ?_)) | split
    | fail_if_no_progress ((with_reducible apply Frame.fields); (case hq => rfl); (case hc => rfl))

theorem State.loseRx_frame {wt : Touch} {s0 s : State} (hw :
    ({ ports := true, prismFlight := true, recirc := true, merge := true, fwdFlight := true,
       fwdCtr := true, cells := true, portClass := true, queues := true, spillVoqs := true, bufCtr := true,
       pkts := true, voqs := true, multiQ := true, pairs := true, fabCtr := true, schedCtr := true,
       cores := true, flows := true, fix := true, fixCtr := true, targets := true, drops := true,
       notices := true, proofCtr := true, evt := true, mirCtr := true, telCtr := true, dropCtr := true,
       portCtr := true, prismCtr := true, timeCtr := true, shares := true, rate := true, irq := true,
       out := true } : Touch).or wt = wt)
    (hK : Frame wt s0 s) (p : Nat) (ctr : Nat) :
    Frame wt s0 (State.loseRx s p ctr) := by
  refine Frame.step hK hw ?_
  unfold State.loseRx
  (try dsimp only)
  repeat' first
    | ((with_reducible show Touch.or _ _ = _) <;> rfl)
    | with_reducible (first | exact Frame.refl | apply State.loseFrame_frame | apply State.bumpPort_frame)
    | (with_reducible refine Frame.foldl _ (fun _ _ hF => ?_) _ ?_)
    | (intro _ hF; skip) | with_reducible assumption
    | (with_reducible refine Frame.ite (fun _ => ?_) (fun _ => ?_)) | split
    | fail_if_no_progress ((with_reducible apply Frame.fields); (case hq => rfl); (case hc => rfl))

theorem State.ctlIgnore_frame {wt : Touch} {s0 s : State} (hw :
    ({ portCtr := true } : Touch).or wt = wt)
    (hK : Frame wt s0 s) (p : Nat) :
    Frame wt s0 (State.ctlIgnore s p) := by
  refine Frame.step hK hw ?_
  unfold State.ctlIgnore
  (try dsimp only)
  repeat' first
    | ((with_reducible show Touch.or _ _ = _) <;> rfl)
    | with_reducible (first | exact Frame.refl | apply State.bumpPort_frame)
    | (with_reducible refine Frame.foldl _ (fun _ _ hF => ?_) _ ?_)
    | (intro _ hF; skip) | with_reducible assumption
    | (with_reducible refine Frame.ite (fun _ => ?_) (fun _ => ?_)) | split
    | fail_if_no_progress ((with_reducible apply Frame.fields); (case hq => rfl); (case hc => rfl))

theorem State.ltRx_frame {wt : Touch} {s0 s : State} (hw : 
    ({ fwdCtr := true, bufCtr := true, pkts := true, nextPkt := true, fabCtr := true, schedCtr := true,
       mirrors := true, cand := true, mirQ := true, mirCtr := true, telCtr := true, dropCtr := true,
       portCtr := true, prismCtr := true, timeCtr := true, shares := true, free := true } : Touch).or wt = wt)
    (hK : Frame wt s0 s) (p : Nat) (type : Nat) (bytes : List Byte) (fcsOk : Bool) (act : State → State) (hact : ∀ x,
    Frame wt s0 x → Frame wt s0 (act x)) : Frame wt s0 (State.ltRx s p type bytes fcsOk act) := by
  unfold State.ltRx
  (try dsimp only)
  repeat' first
    | ((with_reducible show Touch.or _ _ = _); first | rfl | exact Touch.le_trans rfl hw)
    | with_reducible (first | exact hK | apply State.ctlIgnore_frame | apply State.ctlRx_frame) | apply hact
    | (intro _ hF; skip) | with_reducible assumption | (with_reducible refine Frame.ite (fun _ => ?_) (fun _ => ?_))
    | (refine Frame.step ?_ hw (Frame.fields .refl))

theorem State.ltRecover_frame {wt : Touch} {s0 s : State} (hw : 
    ({ lanes := true, ports := true, prismFlight := true, recirc := true, merge := true, fwdFlight := true,
       fwdCtr := true, cells := true, portClass := true, queues := true, spillVoqs := true, bufCtr := true,
       pkts := true, nextPkt := true, voqs := true, multiQ := true, pairs := true, fabPorts := true,
       fabCtr := true, nodes := true, egq := true, waitTx := true, schedCtr := true, cores := true,
       flows := true, fix := true, fixCtr := true, targets := true, drops := true, notices := true,
       proofCtr := true, evt := true, mirrors := true, cand := true, mirQ := true, mirCtr := true,
       telCtr := true, dropCtr := true, portCtr := true, prismCtr := true, timeCtr := true, shares := true,
       rate := true, healthGen := true, irq := true, out := true, free := true } : Touch).or wt = wt)
    (hK : Frame wt s0 s) (p : Nat) : Frame wt s0 (State.ltRecover s p) := by
  refine Frame.step hK hw ?_
  unfold State.ltRecover
  (try dsimp only)
  repeat' first
    | ((with_reducible show Touch.or _ _ = _) <;> rfl)
    | with_reducible (first
        | exact Frame.refl | apply State.linkDown_frame | apply State.raise_frame | apply State.updPort_frame
        | apply State.loseRx_frame | apply State.loseQueued_frame)
    | (intro _ hF; skip)

theorem State.ltDone_frame {wt : Touch} {s0 s : State} (hw : 
    ({ lanes := true, ports := true, evt := true, telCtr := true, portCtr := true, healthGen := true,
       irq := true, out := true } : Touch).or wt =
    wt)
    (hK : Frame wt s0 s) (p : Nat) : Frame wt s0 (State.ltDone s p) := by
  refine Frame.step hK hw ?_
  unfold State.ltDone
  (try dsimp only)
  repeat' first
    | ((with_reducible show Touch.or _ _ = _) <;> rfl)
    | with_reducible (first
        | exact Frame.refl | apply State.bumpPort_frame | apply State.ltWiden_frame | apply State.raise_frame
        | apply State.settle_frame | apply State.updLt_frame | apply State.ltDepth_frame)
    | (intro _ hF; skip) | with_reducible assumption | (with_reducible refine Frame.ite (fun _ => ?_) (fun _ => ?_))
    | split

theorem State.ltSwitch_frame {wt : Touch} {s0 s : State} (hw : 
    ({ lanes := true, ports := true, evt := true, telCtr := true, portCtr := true, healthGen := true,
       irq := true, out := true } : Touch).or wt = wt)
    (hK : Frame wt s0 s) (p : Nat) : Frame wt s0 (State.ltSwitch s p) := by
  refine Frame.step hK hw ?_
  unfold State.ltSwitch
  (try dsimp only)
  repeat' first
    | ((with_reducible show Touch.or _ _ = _) <;> rfl)
    | with_reducible (first
        | exact Frame.refl | apply State.ltSend_frame | apply State.parkLanes_frame | apply State.updLt_frame)
    | (intro _ hF; skip) | (with_reducible refine Frame.ite (fun _ => ?_) (fun _ => ?_))

theorem State.ltAck_frame {wt : Touch} {s0 s : State} (hw : 
    ({ ports := true, portCtr := true, out := true } : Touch).or wt = wt)
    (hK : Frame wt s0 s) (p : Nat) : Frame wt s0 (State.ltAck s p) := by
  refine Frame.step hK hw ?_
  unfold State.ltAck
  (try dsimp only)
  repeat' first
    | ((with_reducible show Touch.or _ _ = _) <;> rfl)
    | with_reducible (first | exact Frame.refl | apply State.ltSend_frame | apply State.updLt_frame)
    | (intro _ hF; skip)

theorem State.ltNak_frame {wt : Touch} {s0 s : State} (hw : 
    ({ ports := true, portCtr := true, out := true } : Touch).or wt = wt)
    (hK : Frame wt s0 s) (p : Nat) (id : Nat) (target : Nat) (reason : Nat) : Frame wt s0 (State.ltNak s p id target
    reason) := by
  refine Frame.step hK hw ?_
  unfold State.ltNak
  (try dsimp only)
  repeat' first
    | ((with_reducible show Touch.or _ _ = _) <;> rfl)
    | with_reducible (first | exact Frame.refl | apply State.ltSend_frame)

theorem State.ltAccept_frame {wt : Touch} {s0 s : State} (hw : 
    ({ lanes := true, ports := true, evt := true, telCtr := true, portCtr := true, healthGen := true,
       irq := true, out := true } : Touch).or wt = wt)
    (hK : Frame wt s0 s) (p : Nat) (id : Nat) (target : Nat) : Frame wt s0 (State.ltAccept s p id target) := by
  refine Frame.step hK hw ?_
  unfold State.ltAccept
  (try dsimp only)
  repeat' first
    | ((with_reducible show Touch.or _ _ = _) <;> rfl)
    | with_reducible (first
        | exact Frame.refl | apply State.ltAck_frame | apply State.parkLanes_frame | apply State.updLt_frame)
    | (intro _ hF; skip) | with_reducible assumption | (with_reducible refine Frame.ite (fun _ => ?_) (fun _ => ?_))

theorem State.ltReq_frame {wt : Touch} {s0 s : State} (hw : 
    ({ lanes := true, ports := true, evt := true, telCtr := true, portCtr := true, healthGen := true,
       irq := true, out := true } : Touch).or wt =
    wt)
    (hK : Frame wt s0 s) (p : Nat) (src : Nat) (id : Nat) (target : Nat) : Frame wt s0 (State.ltReq s p src id target)
    := by
  refine Frame.step hK hw ?_
  unfold State.ltReq
  (try dsimp only)
  repeat' first
    | ((with_reducible show Touch.or _ _ = _) <;> rfl)
    | with_reducible (first
        | exact Frame.refl | apply State.ltAccept_frame | apply State.ltAck_frame | apply State.ltNak_frame
        | apply State.ltSend_frame | apply State.settle_frame | apply State.updLt_frame)
    | (intro _ hF; skip) | with_reducible assumption | (with_reducible refine Frame.ite (fun _ => ?_) (fun _ => ?_))
    | split

theorem State.ltCap_frame {wt : Touch} {s0 s : State} (hw : 
    ({ ports := true } : Touch).or wt = wt)
    (hK : Frame wt s0 s) (p : Nat) (caps : Nat) : Frame wt s0 (State.ltCap s p caps) := by
  refine Frame.step hK hw ?_
  unfold State.ltCap
  (try dsimp only)
  repeat' first
    | ((with_reducible show Touch.or _ _ = _) <;> rfl)
    | with_reducible (first | exact Frame.refl | apply State.updLt_frame) | (intro _ hF; skip)
    | (with_reducible refine Frame.ite (fun _ => ?_) (fun _ => ?_))

theorem State.ltGotAck_frame {wt : Touch} {s0 s : State} (hw : 
    ({ lanes := true, ports := true, evt := true, telCtr := true, portCtr := true, healthGen := true,
       irq := true, out := true } : Touch).or wt = wt)
    (hK : Frame wt s0 s) (p : Nat) (id : Nat) : Frame wt s0 (State.ltGotAck s p id) := by
  refine Frame.step hK hw ?_
  unfold State.ltGotAck
  (try dsimp only)
  repeat' first
    | ((with_reducible show Touch.or _ _ = _) <;> rfl)
    | with_reducible (first | exact Frame.refl | apply State.ltSwitch_frame | apply State.updLt_frame)
    | (intro _ hF; skip) | with_reducible assumption | (with_reducible refine Frame.ite (fun _ => ?_) (fun _ => ?_))

theorem State.ltGotNak_frame {wt : Touch} {s0 s : State} (hw : 
    ({ ports := true } : Touch).or wt = wt)
    (hK : Frame wt s0 s) (p : Nat) (id : Nat) : Frame wt s0 (State.ltGotNak s p id) := by
  refine Frame.step hK hw ?_
  unfold State.ltGotNak
  (try dsimp only)
  repeat' first
    | ((with_reducible show Touch.or _ _ = _) <;> rfl)
    | with_reducible (first | exact Frame.refl | apply State.settle_frame | apply State.updLt_frame)
    | (intro _ hF; skip) | with_reducible assumption | (with_reducible refine Frame.ite (fun _ => ?_) (fun _ => ?_))

theorem State.ltGotSwitch_frame {wt : Touch} {s0 s : State} (hw : 
    ({ lanes := true, ports := true, evt := true, telCtr := true, portCtr := true, healthGen := true,
       irq := true, out := true } : Touch).or wt =
    wt)
    (hK : Frame wt s0 s) (p : Nat) (id : Nat) : Frame wt s0 (State.ltGotSwitch s p id) := by
  refine Frame.step hK hw ?_
  unfold State.ltGotSwitch
  (try dsimp only)
  repeat' first
    | ((with_reducible show Touch.or _ _ = _) <;> rfl)
    | with_reducible (first | exact Frame.refl | apply State.ltDone_frame | apply State.ltSwitch_frame)
    | (with_reducible refine Frame.ite (fun _ => ?_) (fun _ => ?_))

theorem State.ltLocked_frame {wt : Touch} {s0 s : State} (hw : 
    ({ lanes := true, ports := true, evt := true, telCtr := true, portCtr := true, healthGen := true,
       irq := true, out := true } : Touch).or wt = wt)
    (hK : Frame wt s0 s) (p : Nat) : Frame wt s0 (State.ltLocked s p) := by
  refine Frame.step hK hw ?_
  unfold State.ltLocked
  (try dsimp only)
  repeat' first
    | ((with_reducible show Touch.or _ _ = _) <;> rfl)
    | with_reducible (first
        | exact Frame.refl | apply State.ltAck_frame | apply State.ltSwitch_frame | apply State.updLt_frame)
    | (intro _ hF; skip) | with_reducible assumption | (with_reducible refine Frame.ite (fun _ => ?_) (fun _ => ?_))

theorem State.ltReqTimeout_frame {wt : Touch} {s0 s : State} (hw : 
    ({ lanes := true, ports := true, prismFlight := true, recirc := true, merge := true, fwdFlight := true,
       fwdCtr := true, cells := true, portClass := true, queues := true, spillVoqs := true, bufCtr := true,
       pkts := true, nextPkt := true, voqs := true, multiQ := true, pairs := true, fabPorts := true,
       fabCtr := true, nodes := true, egq := true, waitTx := true, schedCtr := true, cores := true,
       flows := true, fix := true, fixCtr := true, targets := true, drops := true, notices := true,
       proofCtr := true, evt := true, mirrors := true, cand := true, mirQ := true, mirCtr := true,
       telCtr := true, dropCtr := true, portCtr := true, prismCtr := true, timeCtr := true, shares := true,
       rate := true, healthGen := true, irq := true, out := true, free := true } : Touch).or wt = wt)
    (hK : Frame wt s0 s) (p : Nat) : Frame wt s0 (State.ltReqTimeout s p) := by
  refine Frame.step hK hw ?_
  unfold State.ltReqTimeout
  (try dsimp only)
  repeat' first
    | ((with_reducible show Touch.or _ _ = _) <;> rfl)
    | with_reducible (first
        | exact Frame.refl | apply State.ltRecover_frame | apply State.ltSend_frame | apply State.settle_frame
        | apply State.updLt_frame)
    | (intro _ hF; skip) | with_reducible assumption | (with_reducible refine Frame.ite (fun _ => ?_) (fun _ => ?_))

theorem State.ltSwitchTimeout_frame {wt : Touch} {s0 s : State} (hw : 
    ({ lanes := true, ports := true, prismFlight := true, recirc := true, merge := true, fwdFlight := true,
       fwdCtr := true, cells := true, portClass := true, queues := true, spillVoqs := true, bufCtr := true,
       pkts := true, nextPkt := true, voqs := true, multiQ := true, pairs := true, fabPorts := true,
       fabCtr := true, nodes := true, egq := true, waitTx := true, schedCtr := true, cores := true,
       flows := true, fix := true, fixCtr := true, targets := true, drops := true, notices := true,
       proofCtr := true, evt := true, mirrors := true, cand := true, mirQ := true, mirCtr := true,
       telCtr := true, dropCtr := true, portCtr := true, prismCtr := true, timeCtr := true, shares := true,
       rate := true, healthGen := true, irq := true, out := true, free := true } : Touch).or wt = wt)
    (hK : Frame wt s0 s) (p : Nat) (aligned : Bool) : Frame wt s0 (State.ltSwitchTimeout s p aligned) := by
  refine Frame.step hK hw ?_
  unfold State.ltSwitchTimeout
  (try dsimp only)
  repeat' first
    | ((with_reducible show Touch.or _ _ = _) <;> rfl)
    | with_reducible (first
        | exact Frame.refl | apply State.ltDone_frame | apply State.ltRecover_frame | apply State.ltSwitch_frame)
    | (with_reducible refine Frame.ite (fun _ => ?_) (fun _ => ?_))

theorem State.ltNarrow_frame {wt : Touch} {s0 s : State} (hw : 
    ({ ports := true, portCtr := true, out := true } : Touch).or wt = wt)
    (hK : Frame wt s0 s) (p : Nat) (w : Nat) : Frame wt s0 (State.ltNarrow s p w) := by
  refine Frame.step hK hw ?_
  unfold State.ltNarrow
  (try dsimp only)
  repeat' first
    | ((with_reducible show Touch.or _ _ = _) <;> rfl)
    | with_reducible (first | exact Frame.refl | apply State.ltSend_frame | apply State.updLt_frame)
    | (intro _ hF; skip)

theorem State.ltWindow_frame {wt : Touch} {s0 s : State} (hw : 
    ({ lanes := true, ports := true, evt := true, telCtr := true, portCtr := true, healthGen := true,
       irq := true, out := true } : Touch).or wt = wt)
    (hK : Frame wt s0 s) (p : Nat) (tx : Nat) (rx : Nat) : Frame wt s0 (State.ltWindow s p tx rx) := by
  refine Frame.step hK hw ?_
  unfold State.ltWindow
  (try dsimp only)
  repeat' first
    | ((with_reducible show Touch.or _ _ = _) <;> rfl)
    | with_reducible (first
        | exact Frame.refl | apply State.ltNarrow_frame | apply State.ltWiden_frame | apply State.updLt_frame)
    | (intro _ hF; skip) | with_reducible assumption | (with_reducible refine Frame.ite (fun _ => ?_) (fun _ => ?_))
    | split

theorem State.ltCapTimeout_frame {wt : Touch} {s0 s : State} (hw : 
    ({ lanes := true, ports := true, evt := true, telCtr := true, healthGen := true, irq := true,
       out := true } : Touch).or wt = wt)
    (hK : Frame wt s0 s) (p : Nat) : Frame wt s0 (State.ltCapTimeout s p) := by
  refine Frame.step hK hw ?_
  unfold State.ltCapTimeout
  (try dsimp only)
  repeat' first
    | ((with_reducible show Touch.or _ _ = _) <;> rfl)
    | with_reducible (first
        | exact Frame.refl | apply State.parkLanes_frame | apply State.settle_frame | apply State.updLt_frame)
    | (intro _ hF; skip)

theorem execLtCapReceived_frame (port : Nat) (bytes : List Byte) (fcsOk : Bool) (s : State) : OutFrame 
    ({ ports := true, fwdCtr := true, bufCtr := true, pkts := true, nextPkt := true, fabCtr := true,
       schedCtr := true, mirrors := true, cand := true, mirQ := true, mirCtr := true, telCtr := true,
       dropCtr := true, portCtr := true, prismCtr := true, timeCtr := true, shares := true,
       free := true } : Touch) s
    (execLtCapReceived port bytes fcsOk s) := by
  unfold execLtCapReceived
  (try dsimp only [onPort])
  repeat' first
    | with_reducible (first | exact OutFrame.fault _ _ | apply OutFrame.next)
    | ((with_reducible show Touch.or _ _ = _) <;> rfl)
    | with_reducible (first | exact Frame.refl | apply State.ltCap_frame | apply State.ltRx_frame)
    | (intro _ hF; skip) | with_reducible assumption | split

theorem execLtReqReceived_frame (port : Nat) (bytes : List Byte) (fcsOk : Bool) (s : State) : OutFrame 
    ({ lanes := true, ports := true, fwdCtr := true, bufCtr := true, pkts := true, nextPkt := true,
       fabCtr := true, schedCtr := true, evt := true, mirrors := true, cand := true, mirQ := true,
       mirCtr := true, telCtr := true, dropCtr := true, portCtr := true, prismCtr := true, timeCtr := true,
       shares := true, healthGen := true, irq := true, out := true, free := true } : Touch) s (execLtReqReceived port bytes fcsOk s) := by
  unfold execLtReqReceived
  (try dsimp only [onPort])
  repeat' first
    | with_reducible (first | exact OutFrame.fault _ _ | apply OutFrame.next)
    | ((with_reducible show Touch.or _ _ = _) <;> rfl)
    | with_reducible (first | exact Frame.refl | apply State.ltReq_frame | apply State.ltRx_frame)
    | (intro _ hF; skip) | with_reducible assumption | split

theorem execLtAckReceived_frame (port : Nat) (bytes : List Byte) (fcsOk : Bool) (s : State) : OutFrame 
    ({ lanes := true, ports := true, fwdCtr := true, bufCtr := true, pkts := true, nextPkt := true,
       fabCtr := true, schedCtr := true, evt := true, mirrors := true, cand := true, mirQ := true,
       mirCtr := true, telCtr := true, dropCtr := true, portCtr := true, prismCtr := true, timeCtr := true,
       shares := true, healthGen := true, irq := true, out := true, free := true } : Touch) s (execLtAckReceived port bytes fcsOk s)
    := by
  unfold execLtAckReceived
  (try dsimp only [onPort])
  repeat' first
    | with_reducible (first | exact OutFrame.fault _ _ | apply OutFrame.next)
    | ((with_reducible show Touch.or _ _ = _) <;> rfl)
    | with_reducible (first | exact Frame.refl | apply State.ltGotAck_frame | apply State.ltRx_frame)
    | (intro _ hF; skip) | with_reducible assumption | split

theorem execLtNakReceived_frame (port : Nat) (bytes : List Byte) (fcsOk : Bool) (s : State) : OutFrame 
    ({ ports := true, fwdCtr := true, bufCtr := true, pkts := true, nextPkt := true, fabCtr := true,
       schedCtr := true, mirrors := true, cand := true, mirQ := true, mirCtr := true, telCtr := true,
       dropCtr := true, portCtr := true, prismCtr := true, timeCtr := true, shares := true,
       free := true } : Touch) s (execLtNakReceived port bytes fcsOk s) := by
  unfold execLtNakReceived
  (try dsimp only [onPort])
  repeat' first
    | with_reducible (first | exact OutFrame.fault _ _ | apply OutFrame.next)
    | ((with_reducible show Touch.or _ _ = _) <;> rfl)
    | with_reducible (first | exact Frame.refl | apply State.ltGotNak_frame | apply State.ltRx_frame)
    | (with_reducible refine Frame.foldl _ (fun _ _ hF => ?_) _ ?_)
    | (intro _ hF; skip) | with_reducible assumption
    | (with_reducible refine Frame.ite (fun _ => ?_) (fun _ => ?_)) | split
    | fail_if_no_progress ((with_reducible apply Frame.fields); (case hq => rfl); (case hc => rfl))

theorem execLtSwitchReceived_frame (port : Nat) (bytes : List Byte) (fcsOk : Bool) (s : State) : OutFrame 
    ({ lanes := true, ports := true, fwdCtr := true, bufCtr := true, pkts := true, nextPkt := true,
       fabCtr := true, schedCtr := true, evt := true, mirrors := true, cand := true, mirQ := true,
       mirCtr := true, telCtr := true, dropCtr := true, portCtr := true, prismCtr := true, timeCtr := true,
       shares := true, healthGen := true, irq := true, out := true, free := true } : Touch) s (execLtSwitchReceived port bytes fcsOk s) := by
  unfold execLtSwitchReceived
  (try dsimp only [onPort])
  repeat' first
    | with_reducible (first | exact OutFrame.fault _ _ | apply OutFrame.next)
    | ((with_reducible show Touch.or _ _ = _) <;> rfl)
    | with_reducible (first | exact Frame.refl | apply State.ltGotSwitch_frame | apply State.ltRx_frame)
    | (intro _ hF; skip) | with_reducible assumption | split

theorem execLtCapTick_frame (port : Nat) (s : State) : OutFrame 
    ({ ports := true, portCtr := true, out := true } : Touch) s (execLtCapTick port s) := by
  unfold execLtCapTick
  (try dsimp only [onPort])
  repeat' first
    | with_reducible (first | exact OutFrame.fault _ _ | apply OutFrame.next)
    | ((with_reducible show Touch.or _ _ = _) <;> rfl)
    | with_reducible (first | exact Frame.refl | apply State.ltSend_frame)
    | (with_reducible refine Frame.ite (fun _ => ?_) (fun _ => ?_)) | split

theorem execLtCapTimeout_frame (port : Nat) (s : State) : OutFrame 
    ({ lanes := true, ports := true, evt := true, telCtr := true, healthGen := true, irq := true,
       out := true } : Touch) s (execLtCapTimeout port
    s) := by
  unfold execLtCapTimeout
  (try dsimp only [onPort])
  repeat' first
    | with_reducible (first | exact OutFrame.fault _ _ | apply OutFrame.next)
    | ((with_reducible show Touch.or _ _ = _) <;> rfl)
    | with_reducible (first | exact Frame.refl | apply State.ltCapTimeout_frame)
    | (with_reducible refine Frame.ite (fun _ => ?_) (fun _ => ?_)) | split

theorem execLtUtilWindow_frame (port : Nat) (txBytes : Nat) (rxBytes : Nat) (s : State) : OutFrame 
    ({ lanes := true, ports := true, evt := true, telCtr := true, portCtr := true, healthGen := true,
       irq := true, out := true } : Touch) s (execLtUtilWindow port txBytes rxBytes s) := by
  unfold execLtUtilWindow
  (try dsimp only [onPort])
  repeat' first
    | with_reducible (first | exact OutFrame.fault _ _ | apply OutFrame.next)
    | ((with_reducible show Touch.or _ _ = _) <;> rfl)
    | with_reducible (first | exact Frame.refl | apply State.ltWindow_frame)
    | (with_reducible refine Frame.ite (fun _ => ?_) (fun _ => ?_)) | split

theorem execLtReqTimeout_frame (port : Nat) (s : State) : OutFrame 
    ({ lanes := true, ports := true, prismFlight := true, recirc := true, merge := true, fwdFlight := true,
       fwdCtr := true, cells := true, portClass := true, queues := true, spillVoqs := true, bufCtr := true,
       pkts := true, nextPkt := true, voqs := true, multiQ := true, pairs := true, fabPorts := true,
       fabCtr := true, nodes := true, egq := true, waitTx := true, schedCtr := true, cores := true,
       flows := true, fix := true, fixCtr := true, targets := true, drops := true, notices := true,
       proofCtr := true, evt := true, mirrors := true, cand := true, mirQ := true, mirCtr := true,
       telCtr := true, dropCtr := true, portCtr := true, prismCtr := true, timeCtr := true, shares := true,
       rate := true, healthGen := true, irq := true, out := true, free := true } : Touch) s
    (execLtReqTimeout port s) := by
  unfold execLtReqTimeout
  (try dsimp only [onPort])
  repeat' first
    | with_reducible (first | exact OutFrame.fault _ _ | apply OutFrame.next)
    | ((with_reducible show Touch.or _ _ = _) <;> rfl)
    | with_reducible (first | exact Frame.refl | apply State.ltReqTimeout_frame) | split

theorem execLtSwitchTimeout_frame (port : Nat) (aligned : Bool) (s : State) : OutFrame 
    ({ lanes := true, ports := true, prismFlight := true, recirc := true, merge := true, fwdFlight := true,
       fwdCtr := true, cells := true, portClass := true, queues := true, spillVoqs := true, bufCtr := true,
       pkts := true, nextPkt := true, voqs := true, multiQ := true, pairs := true, fabPorts := true,
       fabCtr := true, nodes := true, egq := true, waitTx := true, schedCtr := true, cores := true,
       flows := true, fix := true, fixCtr := true, targets := true, drops := true, notices := true,
       proofCtr := true, evt := true, mirrors := true, cand := true, mirQ := true, mirCtr := true,
       telCtr := true, dropCtr := true, portCtr := true, prismCtr := true, timeCtr := true, shares := true,
       rate := true, healthGen := true, irq := true, out := true, free := true } : Touch) s
    (execLtSwitchTimeout port aligned s) := by
  unfold execLtSwitchTimeout
  (try dsimp only [onPort])
  repeat' first
    | with_reducible (first | exact OutFrame.fault _ _ | apply OutFrame.next)
    | ((with_reducible show Touch.or _ _ = _) <;> rfl)
    | with_reducible (first | exact Frame.refl | apply State.ltSwitchTimeout_frame) | split

theorem execLtReceiversLocked_frame (port : Nat) (s : State) : OutFrame 
    ({ lanes := true, ports := true, evt := true, telCtr := true, portCtr := true, healthGen := true,
       irq := true, out := true } : Touch) s (execLtReceiversLocked port s) := by
  unfold execLtReceiversLocked
  (try dsimp only [onPort])
  repeat' first
    | with_reducible (first | exact OutFrame.fault _ _ | apply OutFrame.next)
    | ((with_reducible show Touch.or _ _ = _) <;> rfl)
    | with_reducible (first | exact Frame.refl | apply State.ltLocked_frame) | split

theorem State.ltRealign_frame {wt : Touch} {s0 s : State} (hw :
    ({ lanes := true, ports := true, prismFlight := true, recirc := true, merge := true, fwdFlight := true,
       fwdCtr := true, cells := true, portClass := true, queues := true, spillVoqs := true, bufCtr := true,
       pkts := true, nextPkt := true, voqs := true, multiQ := true, pairs := true, fabPorts := true,
       fabCtr := true, nodes := true, egq := true, waitTx := true, schedCtr := true, cores := true,
       flows := true, fix := true, fixCtr := true, targets := true, drops := true, notices := true,
       proofCtr := true, evt := true, mirrors := true, cand := true, mirQ := true, mirCtr := true,
       telCtr := true, dropCtr := true, portCtr := true, prismCtr := true, timeCtr := true, shares := true,
       rate := true, healthGen := true, irq := true, out := true, free := true } : Touch).or wt = wt)
    (hK : Frame wt s0 s) (p : Nat) :
    Frame wt s0 (State.ltRealign s p) := by
  refine Frame.step hK hw ?_
  unfold State.ltRealign
  (try dsimp only)
  repeat' first
    | ((with_reducible show Touch.or _ _ = _) <;> rfl)
    | with_reducible (first
        | exact Frame.refl | apply State.drawn_frame | apply State.ltSwitch_frame | apply State.ltRecover_frame
        | apply State.ltDone_frame)
    | (with_reducible refine Frame.foldl _ (fun _ _ hF => ?_) _ ?_)
    | (intro _ hF; skip) | with_reducible assumption
    | (with_reducible refine Frame.ite (fun _ => ?_) (fun _ => ?_)) | split
    | fail_if_no_progress ((with_reducible apply Frame.fields); (case hq => rfl); (case hc => rfl))

theorem execLtAlignmentLost_frame (port : Nat) (s : State) : OutFrame 
    ({ lanes := true, ports := true, prismFlight := true, recirc := true, merge := true, fwdFlight := true,
       fwdCtr := true, cells := true, portClass := true, queues := true, spillVoqs := true, bufCtr := true,
       pkts := true, nextPkt := true, voqs := true, multiQ := true, pairs := true, fabPorts := true,
       fabCtr := true, nodes := true, egq := true, waitTx := true, schedCtr := true, cores := true,
       flows := true, fix := true, fixCtr := true, targets := true, drops := true, notices := true,
       proofCtr := true, evt := true, mirrors := true, cand := true, mirQ := true, mirCtr := true,
       telCtr := true, dropCtr := true, portCtr := true, prismCtr := true, timeCtr := true, shares := true,
       rate := true, healthGen := true, irq := true, out := true, free := true } : Touch) s (execLtAlignmentLost port s) := by
  unfold execLtAlignmentLost
  (try dsimp only [onPort])
  repeat' first
    | with_reducible (first | exact OutFrame.fault _ _ | apply OutFrame.next)
    | ((with_reducible show Touch.or _ _ = _) <;> rfl)
    | with_reducible (first | exact Frame.refl | apply State.ltRecover_frame | apply State.ltRealign_frame)
    | (with_reducible refine Frame.ite (fun _ => ?_) (fun _ => ?_)) | split

end Sys2Proof.Machine
end

