-- ==== Sys2Proof/Laws/FramePorts.lean ====
section
/-! SUPPORT. What the operations of Ports may change. -/

set_option Elab.async false
set_option linter.all false

namespace Sys2Proof.Machine

theorem State.putModes_frame {wt : Touch} {s0 s : State} (hw : 
    ({ lanes := true, evt := true, telCtr := true, healthGen := true, irq := true, out := true } : Touch).or wt = wt)
    (hK : Frame wt s0 s) (p : List Byte) : Frame wt s0 (State.putModes s p) := by
  refine Frame.step hK hw ?_
  unfold State.putModes
  (try dsimp only)
  repeat' first
    | ((with_reducible show Touch.or _ _ = _) <;> rfl)
    | with_reducible (first | exact Frame.refl | apply State.setLanes_frame) | (intro _ hF; skip)
    | (with_reducible refine Frame.ite (fun _ => ?_) (fun _ => ?_))

theorem State.endSpills_frame {wt : Touch} {s0 s : State} (hw :
    ({ spillVoqs := true } : Touch).or wt = wt)
    (hK : Frame wt s0 s) (p : Nat) :
    Frame wt s0 (State.endSpills s p) := by
  refine Frame.step hK hw ?_
  unfold State.endSpills
  (try dsimp only)
  repeat' first
    | ((with_reducible show Touch.or _ _ = _) <;> rfl)
    | with_reducible exact Frame.refl
    | (with_reducible refine Frame.foldl _ (fun _ _ hF => ?_) _ ?_)
    | (intro _ hF; skip) | with_reducible assumption
    | (with_reducible refine Frame.ite (fun _ => ?_) (fun _ => ?_)) | split
    | fail_if_no_progress ((with_reducible apply Frame.fields); (case hq => rfl); (case hc => rfl))

theorem State.emptyVoqs_frame {wt : Touch} {s0 s : State} (hw :
    ({ ports := true, prismFlight := true, recirc := true, merge := true, fwdCtr := true, cells := true,
       portClass := true, queues := true, spillVoqs := true, bufCtr := true, pkts := true, nextPkt := true,
       voqs := true, multiQ := true, pairs := true, fabCtr := true, schedCtr := true, mirrors := true,
       cand := true, mirQ := true, mirCtr := true, telCtr := true, dropCtr := true, portCtr := true,
       prismCtr := true, timeCtr := true, shares := true, out := true, free := true } : Touch).or wt = wt)
    (hK : Frame wt s0 s) (p : Nat) :
    Frame wt s0 (State.emptyVoqs s p) := by
  refine Frame.step hK hw ?_
  unfold State.emptyVoqs
  (try dsimp only)
  repeat' first
    | ((with_reducible show Touch.or _ _ = _) <;> rfl)
    | with_reducible (first
        | exact Frame.refl | apply State.pull_frame | apply State.release_frame | apply State.countDrop_frame
        | apply State.updVoq_frame | apply State.endSpills_frame)
    | (with_reducible refine Frame.foldl _ (fun _ _ hF => ?_) _ ?_)
    | (intro _ hF; skip) | with_reducible assumption
    | (with_reducible refine Frame.ite (fun _ => ?_) (fun _ => ?_)) | split
    | fail_if_no_progress ((with_reducible apply Frame.fields); (case hq => rfl); (case hc => rfl))

theorem applyPortSetMode_frame {wt : Touch} {s0 s : State} (hw : 
    ({ lanes := true, ports := true, prismFlight := true, recirc := true, merge := true, fwdCtr := true,
       cells := true, portClass := true, queues := true, spillVoqs := true, bufCtr := true, pkts := true,
       nextPkt := true, voqs := true, multiQ := true, pairs := true, fabPorts := true, fabCtr := true,
       nodes := true, egq := true, waitTx := true, schedCtr := true, evt := true, mirrors := true,
       cand := true, mirQ := true, mirCtr := true, telCtr := true, dropCtr := true, portCtr := true,
       prismCtr := true, timeCtr := true, shares := true, healthGen := true, irq := true, out := true,
       free := true } : Touch).or wt = wt)
    (hK : Frame wt s0 s) (p : List Byte) : Frame wt s0 (applyPortSetMode p s) := by
  refine Frame.step hK hw ?_
  unfold applyPortSetMode
  (try dsimp only)
  repeat' first
    | ((with_reducible show Touch.or _ _ = _) <;> rfl)
    | with_reducible (first
        | exact Frame.refl | apply State.linkDown_frame | apply State.putModes_frame | apply State.updPort_frame
        | apply State.xoffSweep_frame | apply State.emptyVoqs_frame)
    | (with_reducible refine Frame.foldl _ (fun _ _ hF => ?_) _ ?_) | (intro _ hF; skip) | with_reducible assumption
    | (with_reducible refine Frame.ite (fun _ => ?_) (fun _ => ?_))

theorem portSetModeBody_frame {wt : Touch} {s0 s : State} (hw : 
    ({ lanes := true, ports := true, prismFlight := true, recirc := true, merge := true, fwdCtr := true,
       cells := true, portClass := true, queues := true, spillVoqs := true, bufCtr := true, pkts := true,
       nextPkt := true, voqs := true, multiQ := true, pairs := true, fabPorts := true, fabCtr := true,
       nodes := true, egq := true, waitTx := true, schedCtr := true, evt := true, mirrors := true,
       cand := true, mirQ := true, mirCtr := true, telCtr := true, dropCtr := true, portCtr := true,
       prismCtr := true, timeCtr := true, shares := true, sets := true, snapshot := true,
       heldShadow := true, healthGen := true, irq := true, out := true, free := true } : Touch).or
    wt = wt)
    (hK : Frame wt s0 s) (r : Req) : Frame wt s0 (portSetModeBody r s).1 := by
  refine Frame.step hK hw ?_
  unfold portSetModeBody
  (try dsimp only)
  repeat' first
    | ((with_reducible show Touch.or _ _ = _) <;> rfl) | with_reducible exact Frame.refl
    | exact setCmd_frame rfl (fun p _ => applyPortSetMode_frame rfl .refl p) r _

theorem State.putMac_frame {wt : Touch} {s0 s : State} (hw :
    ({ ports := true } : Touch).or wt = wt)
    (hK : Frame wt s0 s) (p : List Byte) :
    Frame wt s0 (State.putMac s p) := by
  refine Frame.step hK hw ?_
  unfold State.putMac
  (try dsimp only)
  repeat' first
    | ((with_reducible show Touch.or _ _ = _) <;> rfl)
    | with_reducible (first | exact Frame.refl | apply State.updPort_frame)
    | (with_reducible refine Frame.foldl _ (fun _ _ hF => ?_) _ ?_)
    | (intro _ hF; skip) | with_reducible assumption
    | (with_reducible refine Frame.ite (fun _ => ?_) (fun _ => ?_)) | split
    | fail_if_no_progress ((with_reducible apply Frame.fields); (case hq => rfl); (case hc => rfl))

theorem applyPortSetMac_frame {wt : Touch} {s0 s : State} (hw : 
    ({ ports := true, portClass := true, bufCtr := true, portCtr := true, shares := true,
       out := true } : Touch).or wt = wt)
    (hK : Frame wt s0 s) (p : List Byte) : Frame wt s0 (applyPortSetMac p s) := by
  refine Frame.step hK hw ?_
  unfold applyPortSetMac
  (try dsimp only)
  repeat' first
    | ((with_reducible show Touch.or _ _ = _) <;> rfl)
    | with_reducible (first | exact Frame.refl | apply State.putMac_frame | apply State.xoffSweep_frame)

theorem portSetMacBody_frame {wt : Touch} {s0 s : State} (hw : 
    ({ ports := true, portClass := true, bufCtr := true, portCtr := true, shares := true, sets := true,
       snapshot := true, heldShadow := true, out := true } : Touch).or wt = wt)
    (hK : Frame wt s0 s) (r : Req) : Frame wt s0 (portSetMacBody r s).1 := by
  refine Frame.step hK hw ?_
  unfold portSetMacBody
  (try dsimp only)
  repeat' first
    | ((with_reducible show Touch.or _ _ = _) <;> rfl) | with_reducible exact Frame.refl
    | exact setCmd_frame rfl (fun p _ => applyPortSetMac_frame rfl .refl p) r _

theorem State.putFlow_frame {wt : Touch} {s0 s : State} (hw :
    ({ ports := true } : Touch).or wt = wt)
    (hK : Frame wt s0 s) (p : List Byte) :
    Frame wt s0 (State.putFlow s p) := by
  refine Frame.step hK hw ?_
  unfold State.putFlow
  (try dsimp only)
  repeat' first
    | ((with_reducible show Touch.or _ _ = _) <;> rfl)
    | with_reducible (first | exact Frame.refl | apply State.updPort_frame)
    | (with_reducible refine Frame.foldl _ (fun _ _ hF => ?_) _ ?_)
    | (intro _ hF; skip) | with_reducible assumption
    | (with_reducible refine Frame.ite (fun _ => ?_) (fun _ => ?_)) | split
    | fail_if_no_progress ((with_reducible apply Frame.fields); (case hq => rfl); (case hc => rfl))

theorem applyPortSetFlow_frame {wt : Touch} {s0 s : State} (hw : 
    ({ ports := true, portClass := true, bufCtr := true, portCtr := true, shares := true,
       out := true } : Touch).or wt = wt)
    (hK : Frame wt s0 s) (p : List Byte) : Frame wt s0 (applyPortSetFlow p s) := by
  refine Frame.step hK hw ?_
  unfold applyPortSetFlow
  (try dsimp only)
  repeat' first
    | ((with_reducible show Touch.or _ _ = _) <;> rfl)
    | with_reducible (first | exact Frame.refl | apply State.putFlow_frame | apply State.xoffSweep_frame)

theorem portSetFlowBody_frame {wt : Touch} {s0 s : State} (hw : 
    ({ ports := true, portClass := true, bufCtr := true, portCtr := true, shares := true, sets := true,
       snapshot := true, heldShadow := true, out := true } : Touch).or wt = wt)
    (hK : Frame wt s0 s) (r : Req) : Frame wt s0 (portSetFlowBody r s).1 := by
  refine Frame.step hK hw ?_
  unfold portSetFlowBody
  (try dsimp only)
  repeat' first
    | ((with_reducible show Touch.or _ _ = _) <;> rfl) | with_reducible exact Frame.refl
    | exact setCmd_frame rfl (fun p _ => applyPortSetFlow_frame rfl .refl p) r _

theorem applyPortSetThrottle_frame {wt : Touch} {s0 s : State} (hw : 
    ({ lanes := true, ports := true, evt := true, telCtr := true, portCtr := true, healthGen := true,
       irq := true, out := true } : Touch).or wt = wt)
    (hK : Frame wt s0 s) (p : List Byte) : Frame wt s0 (applyPortSetThrottle p s) := by
  refine Frame.step hK hw ?_
  unfold applyPortSetThrottle
  (try dsimp only)
  repeat' first
    | ((with_reducible show Touch.or _ _ = _) <;> rfl)
    | with_reducible (first
        | exact Frame.refl | apply State.ltDepth_frame | apply State.ltWiden_frame | apply State.updLt_frame)
    | (intro _ hF; skip) | with_reducible assumption | (with_reducible refine Frame.ite (fun _ => ?_) (fun _ => ?_))

theorem portSetThrottleBody_frame {wt : Touch} {s0 s : State} (hw : 
    ({ lanes := true, ports := true, evt := true, telCtr := true, portCtr := true, sets := true,
       snapshot := true, heldShadow := true, healthGen := true, irq := true, out := true } : Touch).or wt = wt)
    (hK : Frame wt s0 s) (r : Req) : Frame wt s0 (portSetThrottleBody r s).1 := by
  refine Frame.step hK hw ?_
  unfold portSetThrottleBody
  (try dsimp only)
  repeat' first
    | ((with_reducible show Touch.or _ _ = _) <;> rfl) | with_reducible exact Frame.refl
    | exact setCmd_frame rfl (fun p _ => applyPortSetThrottle_frame rfl .refl p) r _

theorem applyPortSetEee_frame {wt : Touch} {s0 s : State} (hw :
    ({ ports := true } : Touch).or wt = wt)
    (hK : Frame wt s0 s) (p : List Byte) :
    Frame wt s0 (applyPortSetEee p s) := by
  refine Frame.step hK hw ?_
  unfold applyPortSetEee
  (try dsimp only)
  repeat' first
    | ((with_reducible show Touch.or _ _ = _) <;> rfl)
    | with_reducible (first | exact Frame.refl | apply State.updPort_frame)
    | (with_reducible refine Frame.foldl _ (fun _ _ hF => ?_) _ ?_)
    | (intro _ hF; skip) | with_reducible assumption
    | (with_reducible refine Frame.ite (fun _ => ?_) (fun _ => ?_)) | split
    | fail_if_no_progress ((with_reducible apply Frame.fields); (case hq => rfl); (case hc => rfl))

theorem portSetEeeBody_frame {wt : Touch} {s0 s : State} (hw : 
    ({ ports := true, sets := true, snapshot := true, heldShadow := true } : Touch).or wt = wt)
    (hK : Frame wt s0 s) (r : Req) : Frame wt s0 (portSetEeeBody r s).1 := by
  refine Frame.step hK hw ?_
  unfold portSetEeeBody
  (try dsimp only)
  repeat' first
    | ((with_reducible show Touch.or _ _ = _) <;> rfl) | with_reducible exact Frame.refl
    | exact setCmd_frame rfl (fun p _ => applyPortSetEee_frame rfl .refl p) r _

theorem applyPortSetAdmin_frame {wt : Touch} {s0 s : State} (hw : 
    ({ lanes := true, ports := true, fwdCtr := true, bufCtr := true, pkts := true, nextPkt := true,
       pairs := true, fabPorts := true, fabCtr := true, nodes := true, egq := true, waitTx := true,
       schedCtr := true, evt := true, mirrors := true, cand := true, mirQ := true, mirCtr := true,
       telCtr := true, dropCtr := true, portCtr := true, prismCtr := true, timeCtr := true, shares := true,
       healthGen := true, irq := true, out := true, free := true } : Touch).or wt = wt)
    (hK : Frame wt s0 s) (p : List Byte) : Frame wt s0 (applyPortSetAdmin p s) := by
  refine Frame.step hK hw ?_
  unfold applyPortSetAdmin
  (try dsimp only)
  repeat' first
    | ((with_reducible show Touch.or _ _ = _) <;> rfl)
    | with_reducible (first | exact Frame.refl | apply State.linkDown_frame | apply State.updPort_frame)
    | (intro _ hF; skip) | with_reducible assumption | (with_reducible refine Frame.ite (fun _ => ?_) (fun _ => ?_))

theorem portSetAdminBody_frame {wt : Touch} {s0 s : State} (hw : 
    ({ lanes := true, ports := true, fwdCtr := true, bufCtr := true, pkts := true, nextPkt := true,
       pairs := true, fabPorts := true, fabCtr := true, nodes := true, egq := true, waitTx := true,
       schedCtr := true, evt := true, mirrors := true, cand := true, mirQ := true, mirCtr := true,
       telCtr := true, dropCtr := true, portCtr := true, prismCtr := true, timeCtr := true, shares := true,
       sets := true, snapshot := true, heldShadow := true, healthGen := true, irq := true, out := true,
       free := true } : Touch).or wt = wt)
    (hK : Frame wt s0 s) (r : Req) : Frame wt s0 (portSetAdminBody r s).1 := by
  refine Frame.step hK hw ?_
  unfold portSetAdminBody
  (try dsimp only)
  repeat' first
    | ((with_reducible show Touch.or _ _ = _) <;> rfl) | with_reducible exact Frame.refl
    | exact setCmd_frame rfl (fun p _ => applyPortSetAdmin_frame rfl .refl p) r _

theorem applyPortSetMargin_frame {wt : Touch} {s0 s : State} (hw : 
    ({ margins := true } : Touch).or wt = wt)
    (hK : Frame wt s0 s) (p : List Byte) : Frame wt s0 (applyPortSetMargin p s) :=
  hK.step hw (.ofView rfl)

theorem portSetMarginBody_frame {wt : Touch} {s0 s : State} (hw : 
    ({ sets := true, snapshot := true, heldShadow := true, margins := true } : Touch).or wt = wt)
    (hK : Frame wt s0 s) (r : Req) : Frame wt s0 (portSetMarginBody r s).1 := by
  refine Frame.step hK hw ?_
  unfold portSetMarginBody
  (try dsimp only)
  repeat' first
    | ((with_reducible show Touch.or _ _ = _) <;> rfl) | with_reducible exact Frame.refl
    | exact setCmd_frame rfl (fun p _ => applyPortSetMargin_frame rfl .refl p) r _

theorem portSetLaneMapBody_frame {wt : Touch} {s0 s : State} (hw : 
    ({ groups := true, snapshot := true, heldShadow := true } : Touch).or wt = wt)
    (hK : Frame wt s0 s) (r : Req) : Frame wt s0 (portSetLaneMapBody r s).1 := by
  refine Frame.step hK hw ?_
  unfold portSetLaneMapBody
  (try dsimp only)
  repeat' first
    | ((with_reducible show Touch.or _ _ = _) <;> rfl)
    | with_reducible (first
        | exact Frame.refl | apply errCmd_frame | apply okCmd_frame | apply State.shadow_frame
        | apply State.updGroup_frame)
    | (intro _ hF; skip) | with_reducible assumption | split

theorem portGetStatusBody_frame {wt : Touch} {s0 s : State} (hw : ({} : Touch).or wt = wt)
    (hK : Frame wt s0 s) (r : Req) : Frame wt s0 (portGetStatusBody r s).1 := by
  refine Frame.step hK hw ?_
  unfold portGetStatusBody
  (try dsimp only)
  repeat' first
    | ((with_reducible show Touch.or _ _ = _) <;> rfl)
    | with_reducible (first | exact Frame.refl | apply readCmd_frame) | (intro _ hF; skip)
    | (with_reducible refine Frame.ite (fun _ => ?_) (fun _ => ?_))

theorem State.fecLane_frame {wt : Touch} {s0 s : State} (hw :
    ({ lanes := true, free := true } : Touch).or wt = wt)
    (hK : Frame wt s0 s) (l : Nat) :
    Frame wt s0 (State.fecLane s l) := by
  refine Frame.step hK hw ?_
  unfold State.fecLane
  (try dsimp only)
  repeat' first
    | ((with_reducible show Touch.or _ _ = _) <;> rfl)
    | with_reducible (first | exact Frame.refl | apply State.drawn_frame | apply State.updLane_frame)
    | (with_reducible refine Frame.foldl _ (fun _ _ hF => ?_) _ ?_)
    | (intro _ hF; skip) | with_reducible assumption
    | (with_reducible refine Frame.ite (fun _ => ?_) (fun _ => ?_)) | split
    | fail_if_no_progress ((with_reducible apply Frame.fields); (case hq => rfl); (case hc => rfl))

theorem State.fecPort_frame {wt : Touch} {s0 s : State} (hw :
    ({ portCtr := true, free := true } : Touch).or wt = wt)
    (hK : Frame wt s0 s) (p : Nat) :
    Frame wt s0 (State.fecPort s p) := by
  refine Frame.step hK hw ?_
  unfold State.fecPort
  (try dsimp only)
  repeat' first
    | ((with_reducible show Touch.or _ _ = _) <;> rfl)
    | with_reducible (first | exact Frame.refl | apply State.drawn_frame | apply State.bumpPort_frame)
    | (with_reducible refine Frame.foldl _ (fun _ _ hF => ?_) _ ?_)
    | (intro _ hF; skip) | with_reducible assumption
    | (with_reducible refine Frame.ite (fun _ => ?_) (fun _ => ?_)) | split
    | fail_if_no_progress ((with_reducible apply Frame.fields); (case hq => rfl); (case hc => rfl))

theorem State.fecAll_frame {wt : Touch} {s0 s : State} (hw :
    ({ portCtr := true, free := true } : Touch).or wt = wt)
    (hK : Frame wt s0 s)  :
    Frame wt s0 (State.fecAll s) := by
  refine Frame.step hK hw ?_
  unfold State.fecAll
  (try dsimp only)
  repeat' first
    | ((with_reducible show Touch.or _ _ = _) <;> rfl)
    | with_reducible (first | exact Frame.refl | apply State.fecPort_frame)
    | (with_reducible refine Frame.foldl _ (fun _ _ hF => ?_) _ ?_)
    | (intro _ hF; skip) | with_reducible assumption
    | (with_reducible refine Frame.ite (fun _ => ?_) (fun _ => ?_)) | split
    | fail_if_no_progress ((with_reducible apply Frame.fields); (case hq => rfl); (case hc => rfl))

theorem portGetMarginBody_frame {wt : Touch} {s0 s : State} (hw : 
    ({ lanes := true, free := true } : Touch).or wt = wt)
    (hK : Frame wt s0 s) (r : Req) : Frame wt s0 (portGetMarginBody r s).1 := by
  refine Frame.step hK hw ?_
  unfold portGetMarginBody
  (try dsimp only)
  repeat' first
    | ((with_reducible show Touch.or _ _ = _) <;> rfl)
    | with_reducible (first
        | exact Frame.refl | apply errCmd_frame | apply okCmd_frame | apply State.updLane_frame
        | apply State.fecLane_frame)
    | (with_reducible refine Frame.foldl _ (fun _ _ hF => ?_) _ ?_) | (intro _ hF; skip) | with_reducible assumption
    | (with_reducible refine Frame.ite (fun _ => ?_) (fun _ => ?_)) | split

theorem portGetCountersBody_frame {wt : Touch} {s0 s : State} (hw : ({ portCtr := true, free := true } : Touch).or wt = wt)
    (hK : Frame wt s0 s) (r : Req) : Frame wt s0 (portGetCountersBody r s).1 := by
  refine Frame.step hK hw ?_
  unfold portGetCountersBody
  (try dsimp only)
  repeat' first
    | ((with_reducible show Touch.or _ _ = _) <;> rfl)
    | with_reducible (first
        | exact Frame.refl | apply readCmd_frame | apply errCmd_frame | apply okCmd_frame
        | apply State.fecPort_frame)
    | (with_reducible refine Frame.foldl _ (fun _ _ hF => ?_) _ ?_)
    | (intro _ hF; skip) | with_reducible assumption
    | (with_reducible refine Frame.ite (fun _ => ?_) (fun _ => ?_)) | split
    | fail_if_no_progress ((with_reducible apply Frame.fields); (case hq => rfl); (case hc => rfl))

theorem execPortSetMode_frame (r : Req) (s : State) : OutFrame 
    ({ lanes := true, ports := true, prismFlight := true, recirc := true, merge := true, fwdCtr := true,
       cells := true, portClass := true, queues := true, spillVoqs := true, pools := true, bufCtr := true,
       pkts := true, nextPkt := true, voqs := true, multiQ := true, pairs := true, fabPorts := true,
       fabCtr := true, nodes := true, egq := true, waitTx := true, schedCtr := true, evt := true,
       mirrors := true, cand := true, mirQ := true, mirCtr := true, telCtr := true, dropCtr := true,
       portCtr := true, prismCtr := true, timeCtr := true, mbxCtr := true, shares := true, boxes := true,
       jobs := true, hist := true, sets := true, snapshot := true, heldShadow := true, peers := true,
       msgs := true, healthGen := true, irq := true, out := true, free := true } : Touch) s
    (execPortSetMode r s) :=
  mailboxCommand_frame rfl (fun _ => portSetModeBody_frame rfl .refl r)

theorem execPortGetStatus_frame (r : Req) (s : State) : OutFrame 
    ({ pools := true, bufCtr := true, waitTx := true, evt := true, telCtr := true, portCtr := true,
       mbxCtr := true, boxes := true, jobs := true, hist := true, peers := true, msgs := true, irq := true,
       out := true } : Touch) s (execPortGetStatus r s) := 
  mailboxCommand_frame rfl (fun _ => portGetStatusBody_frame rfl .refl r)

theorem execPortSetMac_frame (r : Req) (s : State) : OutFrame 
    ({ ports := true, portClass := true, pools := true, bufCtr := true, waitTx := true, evt := true,
       telCtr := true, portCtr := true, mbxCtr := true, shares := true, boxes := true, jobs := true,
       hist := true, sets := true, snapshot := true, heldShadow := true, peers := true, msgs := true,
       irq := true, out := true } : Touch) s
    (execPortSetMac r s) :=
  mailboxCommand_frame rfl (fun _ => portSetMacBody_frame rfl .refl r)

theorem execPortSetFlow_frame (r : Req) (s : State) : OutFrame 
    ({ ports := true, portClass := true, pools := true, bufCtr := true, waitTx := true, evt := true,
       telCtr := true, portCtr := true, mbxCtr := true, shares := true, boxes := true, jobs := true,
       hist := true, sets := true, snapshot := true, heldShadow := true, peers := true, msgs := true,
       irq := true, out := true } : Touch) s
    (execPortSetFlow r s) :=
  mailboxCommand_frame rfl (fun _ => portSetFlowBody_frame rfl .refl r)

theorem execPortSetThrottle_frame (r : Req) (s : State) : OutFrame 
    ({ lanes := true, ports := true, pools := true, bufCtr := true, waitTx := true, evt := true,
       telCtr := true, portCtr := true, mbxCtr := true, boxes := true, jobs := true, hist := true,
       sets := true, snapshot := true, heldShadow := true, peers := true, msgs := true, healthGen := true,
       irq := true, out := true } : Touch) s (execPortSetThrottle r s) := 
  mailboxCommand_frame rfl (fun _ => portSetThrottleBody_frame rfl .refl r)

theorem execPortSetEee_frame (r : Req) (s : State) : OutFrame 
    ({ ports := true, pools := true, bufCtr := true, waitTx := true, evt := true, telCtr := true,
       portCtr := true, mbxCtr := true, boxes := true, jobs := true, hist := true, sets := true,
       snapshot := true, heldShadow := true, peers := true, msgs := true, irq := true,
       out := true } : Touch) s (execPortSetEee r s) := 
  mailboxCommand_frame rfl (fun _ => portSetEeeBody_frame rfl .refl r)

theorem execPortSetLaneMap_frame (r : Req) (s : State) : OutFrame 
    ({ groups := true, pools := true, bufCtr := true, waitTx := true, evt := true, telCtr := true,
       portCtr := true, mbxCtr := true, boxes := true, jobs := true, hist := true, snapshot := true,
       heldShadow := true, peers := true, msgs := true, irq := true, out := true } : Touch) s (execPortSetLaneMap r s) := 
  mailboxCommand_frame rfl (fun _ => portSetLaneMapBody_frame rfl .refl r)

theorem execPortGetMargin_frame (r : Req) (s : State) : OutFrame 
    ({ lanes := true, pools := true, bufCtr := true, waitTx := true, evt := true, telCtr := true,
       portCtr := true, mbxCtr := true, boxes := true, jobs := true, hist := true, peers := true,
       msgs := true, irq := true, out := true, free := true } : Touch) s
    (execPortGetMargin r s) :=
  mailboxCommand_frame rfl (fun _ => portGetMarginBody_frame rfl .refl r)

theorem execPortGetCounters_frame (r : Req) (s : State) : OutFrame 
    ({ pools := true, bufCtr := true, waitTx := true, evt := true, telCtr := true, portCtr := true,
       mbxCtr := true, boxes := true, jobs := true, hist := true, peers := true, msgs := true, irq := true,
       out := true, free := true } : Touch) s (execPortGetCounters r s) := 
  mailboxCommand_frame rfl (fun _ => portGetCountersBody_frame rfl .refl r)

theorem execPortSetAdmin_frame (r : Req) (s : State) : OutFrame 
    ({ lanes := true, ports := true, fwdCtr := true, pools := true, bufCtr := true, pkts := true,
       nextPkt := true, pairs := true, fabPorts := true, fabCtr := true, nodes := true, egq := true,
       waitTx := true, schedCtr := true, evt := true, mirrors := true, cand := true, mirQ := true,
       mirCtr := true, telCtr := true, dropCtr := true, portCtr := true, prismCtr := true, timeCtr := true,
       mbxCtr := true, shares := true, boxes := true, jobs := true, hist := true, sets := true,
       snapshot := true, heldShadow := true, peers := true, msgs := true, healthGen := true, irq := true,
       out := true, free := true } : Touch) s
    (execPortSetAdmin r s) :=
  mailboxCommand_frame rfl (fun _ => portSetAdminBody_frame rfl .refl r)

theorem execPortSetMargin_frame (r : Req) (s : State) : OutFrame 
    ({ pools := true, bufCtr := true, waitTx := true, evt := true, telCtr := true, portCtr := true,
       mbxCtr := true, boxes := true, jobs := true, hist := true, sets := true, snapshot := true,
       heldShadow := true, peers := true, msgs := true, margins := true, irq := true, out := true } : Touch) s (execPortSetMargin r s) := 
  mailboxCommand_frame rfl (fun _ => portSetMarginBody_frame rfl .refl r)

theorem State.rxPause_frame {wt : Touch} {s0 s : State} (hw : 
    ({ ports := true, portCtr := true } : Touch).or wt = wt)
    (hK : Frame wt s0 s) (p : Nat) (quanta : Nat) : Frame wt s0 (State.rxPause s p quanta) := by
  refine Frame.step hK hw ?_
  unfold State.rxPause
  (try dsimp only)
  repeat' first
    | ((with_reducible show Touch.or _ _ = _) <;> rfl)
    | with_reducible (first
        | exact Frame.refl | apply State.bumpPort_frame | apply State.ctlIgnore_frame | apply State.updPort_frame)
    | (intro _ hF; skip) | with_reducible assumption | (with_reducible refine Frame.ite (fun _ => ?_) (fun _ => ?_))

theorem State.rxPfc_frame {wt : Touch} {s0 s : State} (hw : 
    ({ ports := true, portCtr := true } : Touch).or wt = wt)
    (hK : Frame wt s0 s) (p : Nat) (vec : Nat) (quanta : Nat → Nat) : Frame wt s0 (State.rxPfc s p vec quanta) := by
  refine Frame.step hK hw ?_
  unfold State.rxPfc
  (try dsimp only)
  repeat' first
    | ((with_reducible show Touch.or _ _ = _) <;> rfl)
    | with_reducible (first
        | exact Frame.refl | apply State.bumpPort_frame | apply State.ctlIgnore_frame | apply State.updPort_frame)
    | (intro _ hF; skip) | with_reducible assumption | (with_reducible refine Frame.ite (fun _ => ?_) (fun _ => ?_))

theorem execPauseFrameReceived_frame (port : Nat) (bytes : List Byte) (fcsOk : Bool) (s : State) : OutFrame 
    ({ ports := true, fwdCtr := true, bufCtr := true, pkts := true, nextPkt := true, fabCtr := true,
       schedCtr := true, mirrors := true, cand := true, mirQ := true, mirCtr := true, telCtr := true,
       dropCtr := true, portCtr := true, prismCtr := true, timeCtr := true, shares := true,
       free := true } : Touch) s
    (execPauseFrameReceived port bytes fcsOk s) := by
  unfold execPauseFrameReceived
  (try dsimp only [onPort])
  repeat' first
    | with_reducible (first | exact OutFrame.fault _ _ | apply OutFrame.next)
    | ((with_reducible show Touch.or _ _ = _) <;> rfl)
    | with_reducible (first | exact Frame.refl | apply State.ctlRx_frame | apply State.rxPause_frame)
    | (intro _ hF; skip) | with_reducible assumption | (with_reducible refine Frame.ite (fun _ => ?_) (fun _ => ?_))
    | split

theorem execPfcFrameReceived_frame (port : Nat) (bytes : List Byte) (fcsOk : Bool) (s : State) : OutFrame 
    ({ ports := true, fwdCtr := true, bufCtr := true, pkts := true, nextPkt := true, fabCtr := true,
       schedCtr := true, mirrors := true, cand := true, mirQ := true, mirCtr := true, telCtr := true,
       dropCtr := true, portCtr := true, prismCtr := true, timeCtr := true, shares := true,
       free := true } : Touch) s
    (execPfcFrameReceived port bytes fcsOk s) := by
  unfold execPfcFrameReceived
  (try dsimp only [onPort])
  repeat' first
    | with_reducible (first | exact OutFrame.fault _ _ | apply OutFrame.next)
    | ((with_reducible show Touch.or _ _ = _) <;> rfl)
    | with_reducible (first | exact Frame.refl | apply State.ctlRx_frame | apply State.rxPfc_frame)
    | (intro _ hF; skip) | with_reducible assumption | (with_reducible refine Frame.ite (fun _ => ?_) (fun _ => ?_))
    | split

theorem execPauseExpiry_frame (port : Nat) (tc : Nat) (s : State) : OutFrame 
    ({ ports := true } : Touch) s (execPauseExpiry port tc s) := by
  unfold execPauseExpiry
  (try dsimp only [onClass])
  repeat' first
    | with_reducible (first | exact OutFrame.fault _ _ | apply OutFrame.next)
    | ((with_reducible show Touch.or _ _ = _) <;> rfl)
    | with_reducible (first | exact Frame.refl | apply State.updPort_frame) | (intro _ hF; skip)
    | with_reducible assumption | split

theorem State.stormStart_frame {wt : Touch} {s0 s : State} (hw : 
    ({ ports := true, fwdCtr := true, bufCtr := true, pkts := true, nextPkt := true, pairs := true,
       fabPorts := true, fabCtr := true, nodes := true, egq := true, waitTx := true, schedCtr := true,
       evt := true, mirrors := true, cand := true, mirQ := true, mirCtr := true, telCtr := true,
       dropCtr := true, portCtr := true, prismCtr := true, timeCtr := true, shares := true, irq := true,
       out := true, free := true } : Touch).or wt =
    wt)
    (hK : Frame wt s0 s) (p : Nat) (c : Nat) : Frame wt s0 (State.stormStart s p c) := by
  refine Frame.step hK hw ?_
  unfold State.stormStart
  (try dsimp only)
  repeat' first
    | ((with_reducible show Touch.or _ _ = _) <;> rfl)
    | with_reducible (first
        | exact Frame.refl | apply State.egDrop_frame | apply State.raise_frame | apply State.updPort_frame
        | apply State.bumpPort_frame | apply State.setWaiting_frame)
    | (with_reducible refine Frame.foldl _ (fun _ _ hF => ?_) _ ?_) | (intro _ hF; skip) | with_reducible assumption
    | (with_reducible refine Frame.ite (fun _ => ?_) (fun _ => ?_))

theorem execPfcWatchdogExpiry_frame (port : Nat) (tc : Nat) (s : State) : OutFrame 
    ({ ports := true, fwdCtr := true, bufCtr := true, pkts := true, nextPkt := true, pairs := true,
       fabPorts := true, fabCtr := true, nodes := true, egq := true, waitTx := true, schedCtr := true,
       evt := true, mirrors := true, cand := true, mirQ := true, mirCtr := true, telCtr := true,
       dropCtr := true, portCtr := true, prismCtr := true, timeCtr := true, shares := true, irq := true,
       out := true, free := true } : Touch) s
    (execPfcWatchdogExpiry port tc s) := by
  unfold execPfcWatchdogExpiry
  (try dsimp only [onClass])
  repeat' first
    | with_reducible (first | exact OutFrame.fault _ _ | apply OutFrame.next)
    | ((with_reducible show Touch.or _ _ = _) <;> rfl)
    | with_reducible (first | exact Frame.refl | apply State.stormStart_frame)
    | (with_reducible refine Frame.ite (fun _ => ?_) (fun _ => ?_)) | split

theorem execPfcStormEndTimer_frame (port : Nat) (tc : Nat) (s : State) : OutFrame 
    ({ ports := true, evt := true, telCtr := true, irq := true, out := true } : Touch) s (execPfcStormEndTimer port tc
    s) := by
  unfold execPfcStormEndTimer
  (try dsimp only [onClass])
  repeat' first
    | with_reducible (first | exact OutFrame.fault _ _ | apply OutFrame.next)
    | ((with_reducible show Touch.or _ _ = _) <;> rfl)
    | with_reducible (first | exact Frame.refl | apply State.raise_frame | apply State.updPort_frame)
    | (intro _ hF; skip) | with_reducible assumption | (with_reducible refine Frame.ite (fun _ => ?_) (fun _ => ?_))
    | split

theorem State.refresh_frame {wt : Touch} {s0 s : State} (hw : 
    ({ ports := true, portCtr := true, out := true } : Touch).or wt = wt)
    (hK : Frame wt s0 s) (p : Nat) : Frame wt s0 (State.refresh s p) := by
  refine Frame.step hK hw ?_
  unfold State.refresh
  (try dsimp only)
  repeat' first
    | ((with_reducible show Touch.or _ _ = _) <;> rfl)
    | with_reducible (first | exact Frame.refl | apply State.sendCtl_frame)
    | (with_reducible refine Frame.ite (fun _ => ?_) (fun _ => ?_)) | split

theorem execPfcRefreshTimer_frame (port : Nat) (s : State) : OutFrame 
    ({ ports := true, portCtr := true, out := true } : Touch) s (execPfcRefreshTimer port s) := by
  unfold execPfcRefreshTimer
  (try dsimp only [onPort])
  repeat' first
    | with_reducible (first | exact OutFrame.fault _ _ | apply OutFrame.next)
    | ((with_reducible show Touch.or _ _ = _) <;> rfl)
    | with_reducible (first | exact Frame.refl | apply State.refresh_frame) | split

theorem execLinkDown_frame (port : Nat) (s : State) : OutFrame 
    ({ lanes := true, ports := true, fwdCtr := true, bufCtr := true, pkts := true, nextPkt := true,
       pairs := true, fabPorts := true, fabCtr := true, nodes := true, egq := true, waitTx := true,
       schedCtr := true, evt := true, mirrors := true, cand := true, mirQ := true, mirCtr := true,
       telCtr := true, dropCtr := true, portCtr := true, prismCtr := true, timeCtr := true, shares := true,
       healthGen := true, irq := true, out := true, free := true } : Touch) s (execLinkDown port s) := by
  unfold execLinkDown
  (try dsimp only [onPort])
  repeat' first
    | with_reducible (first | exact OutFrame.fault _ _ | apply OutFrame.next)
    | ((with_reducible show Touch.or _ _ = _) <;> rfl)
    | with_reducible (first | exact Frame.refl | apply State.linkDown_frame) | split

theorem State.linkUp_frame {wt : Touch} {s0 s : State} (hw : 
    ({ lanes := true, ports := true, evt := true, telCtr := true, healthGen := true, irq := true, out := true } :
    Touch).or wt = wt)
    (hK : Frame wt s0 s) (p : Nat) : Frame wt s0 (State.linkUp s p) := by
  refine Frame.step hK hw ?_
  unfold State.linkUp
  (try dsimp only)
  repeat' first
    | ((with_reducible show Touch.or _ _ = _) <;> rfl)
    | with_reducible (first | exact Frame.refl | apply State.parkLanes_frame | apply State.updPort_frame)
    | (intro _ hF; skip)

theorem execLinkUp_frame (port : Nat) (s : State) : OutFrame 
    ({ lanes := true, ports := true, evt := true, telCtr := true, healthGen := true, irq := true, out := true } :
    Touch) s (execLinkUp port s) := by
  unfold execLinkUp
  (try dsimp only [onPort])
  repeat' first
    | with_reducible (first | exact OutFrame.fault _ _ | apply OutFrame.next)
    | ((with_reducible show Touch.or _ _ = _) <;> rfl)
    | with_reducible (first | exact Frame.refl | apply State.linkUp_frame)
    | (with_reducible refine Frame.ite (fun _ => ?_) (fun _ => ?_)) | split

theorem execLpiIdleTimer_frame (port : Nat) (s : State) : OutFrame 
    ({ ports := true, portCtr := true } : Touch) s (execLpiIdleTimer port s) := by
  unfold execLpiIdleTimer
  (try dsimp only [onPort])
  repeat' first
    | with_reducible (first | exact OutFrame.fault _ _ | apply OutFrame.next)
    | ((with_reducible show Touch.or _ _ = _) <;> rfl)
    | with_reducible (first | exact Frame.refl | apply State.bumpPort_frame | apply State.updPort_frame)
    | (intro _ hF; skip) | with_reducible assumption | (with_reducible refine Frame.ite (fun _ => ?_) (fun _ => ?_))
    | split

theorem execLpiWakeComplete_frame (port : Nat) (s : State) : OutFrame 
    ({ ports := true, portCtr := true, out := true } : Touch) s (execLpiWakeComplete port s) := by
  unfold execLpiWakeComplete
  (try dsimp only [onPort])
  repeat' first
    | with_reducible (first | exact OutFrame.fault _ _ | apply OutFrame.next)
    | ((with_reducible show Touch.or _ _ = _) <;> rfl)
    | with_reducible (first | exact Frame.refl | apply State.updPort_frame | apply State.flushCtl_frame) | (intro _ hF; skip)
    | with_reducible assumption | split

theorem State.margin_frame {wt : Touch} {s0 s : State} (hw : 
    ({ lanes := true, evt := true, telCtr := true, healthGen := true, irq := true, out := true } : Touch).or wt = wt)
    (hK : Frame wt s0 s) (l : Nat) (height : Nat) (width : Nat) : Frame wt s0 (State.margin s l height width) := by
  refine Frame.step hK hw ?_
  unfold State.margin
  (try dsimp only)
  repeat' first
    | ((with_reducible show Touch.or _ _ = _) <;> rfl)
    | with_reducible (first | exact Frame.refl | apply State.raiseIf_frame | apply State.setLane_frame)
    | (intro _ hF; skip) | with_reducible assumption | (with_reducible refine Frame.ite (fun _ => ?_) (fun _ => ?_))

theorem execMarginSample_frame (lane : Nat) (height : Nat) (width : Nat) (s : State) : OutFrame 
    ({ lanes := true, evt := true, telCtr := true, healthGen := true, irq := true, out := true } : Touch) s
    (execMarginSample lane height width s) := by
  unfold execMarginSample
  (try dsimp only)
  repeat' first
    | with_reducible (first | exact OutFrame.fault _ _ | apply OutFrame.next)
    | ((with_reducible show Touch.or _ _ = _) <;> rfl)
    | with_reducible (first | exact Frame.refl | apply State.margin_frame)
    | (with_reducible refine Frame.ite (fun _ => ?_) (fun _ => ?_)) | split

theorem State.substitute_frame {wt : Touch} {s0 s : State} (hw : 
    ({ groups := true, ports := true, prismFlight := true, recirc := true, merge := true,
       fwdFlight := true, fwdCtr := true, cells := true, portClass := true, queues := true,
       spillVoqs := true, bufCtr := true, pkts := true, voqs := true, multiQ := true, pairs := true,
       fabPorts := true, fabCtr := true, nodes := true, egq := true, schedCtr := true, cores := true,
       flows := true, fix := true, fixCtr := true, targets := true, drops := true, notices := true,
       proofCtr := true, evt := true, mirCtr := true, telCtr := true, dropCtr := true, portCtr := true,
       prismCtr := true, timeCtr := true, shares := true, rate := true, healthGen := true,
       repairLog := true, irq := true, out := true } : Touch).or wt = wt)
    (hK : Frame wt s0 s) (l : Nat) : Frame wt s0 (State.substitute s l) := by
  refine Frame.step hK hw ?_
  unfold State.substitute
  (try dsimp only)
  repeat' first
    | ((with_reducible show Touch.or _ _ = _) <;> rfl)
    | with_reducible (first
        | exact Frame.refl | apply State.healthChanged_frame | apply State.loseRx_frame | apply State.loseTx_frame
        | apply State.raise_frame | apply State.repairAdd_frame | apply State.updGroup_frame
        | apply State.updPort_frame)
    | (intro _ hF; skip)

theorem State.loseSpare_frame {wt : Touch} {s0 s : State} (hw :
    ({ groups := true, repairLog := true } : Touch).or wt = wt)
    (hK : Frame wt s0 s) (l : Nat) :
    Frame wt s0 (State.loseSpare s l) := by
  refine Frame.step hK hw ?_
  unfold State.loseSpare
  (try dsimp only)
  repeat' first
    | ((with_reducible show Touch.or _ _ = _) <;> rfl)
    | with_reducible (first | exact Frame.refl | apply State.updGroup_frame | apply State.repairAdd_frame)
    | (with_reducible refine Frame.foldl _ (fun _ _ hF => ?_) _ ?_)
    | (intro _ hF; skip) | with_reducible assumption
    | (with_reducible refine Frame.ite (fun _ => ?_) (fun _ => ?_)) | split
    | fail_if_no_progress ((with_reducible apply Frame.fields); (case hq => rfl); (case hc => rfl))

theorem State.exhausted_frame {wt : Touch} {s0 s : State} (hw : 
    ({ lanes := true, groups := true, ports := true, fwdCtr := true, bufCtr := true, pkts := true,
       nextPkt := true, pairs := true, fabPorts := true, fabCtr := true, nodes := true, egq := true,
       waitTx := true, schedCtr := true, evt := true, mirrors := true, cand := true, mirQ := true,
       mirCtr := true, telCtr := true, dropCtr := true, portCtr := true, prismCtr := true, timeCtr := true,
       shares := true, healthGen := true, repairLog := true, irq := true, out := true,
       free := true } : Touch).or wt = wt)
    (hK : Frame wt s0 s) (l : Nat) : Frame wt s0 (State.exhausted s l) := by
  refine Frame.step hK hw ?_
  unfold State.exhausted
  (try dsimp only)
  repeat' first
    | ((with_reducible show Touch.or _ _ = _) <;> rfl)
    | with_reducible (first
        | exact Frame.refl | apply State.healthIf_frame | apply State.linkDown_frame | apply State.raise_frame
        | apply State.repairAdd_frame | apply State.updGroup_frame | apply State.loseSpare_frame)
    | (intro _ hF; skip) | with_reducible assumption | (with_reducible refine Frame.ite (fun _ => ?_) (fun _ => ?_))

theorem execDatapathFailure_frame (lane : Nat) (s : State) : OutFrame 
    ({ lanes := true, groups := true, ports := true, prismFlight := true, recirc := true, merge := true,
       fwdFlight := true, fwdCtr := true, cells := true, portClass := true, queues := true,
       spillVoqs := true, bufCtr := true, pkts := true, nextPkt := true, voqs := true, multiQ := true,
       pairs := true, fabPorts := true, fabCtr := true, nodes := true, egq := true, waitTx := true,
       schedCtr := true, cores := true, flows := true, fix := true, fixCtr := true, targets := true,
       drops := true, notices := true, proofCtr := true, evt := true, mirrors := true, cand := true,
       mirQ := true, mirCtr := true, telCtr := true, dropCtr := true, portCtr := true, prismCtr := true,
       timeCtr := true, shares := true, rate := true, healthGen := true, repairLog := true, irq := true,
       out := true, free := true } : Touch) s (execDatapathFailure lane s) := by
  unfold execDatapathFailure
  (try dsimp only)
  repeat' first
    | with_reducible (first | exact OutFrame.fault _ _ | apply OutFrame.next)
    | ((with_reducible show Touch.or _ _ = _) <;> rfl)
    | with_reducible (first | exact Frame.refl | apply State.exhausted_frame | apply State.substitute_frame)
    | (with_reducible refine Frame.ite (fun _ => ?_) (fun _ => ?_)) | split

theorem execSpareDatapathFailed_frame (group : Nat) (s : State) : OutFrame 
    ({ groups := true, evt := true, telCtr := true, redCtr := true, healthGen := true, repairLog := true,
       irq := true, out := true } : Touch) s (execSpareDatapathFailed group s) := by
  unfold execSpareDatapathFailed
  (try dsimp only)
  repeat' first
    | with_reducible (first | exact OutFrame.fault _ _ | apply OutFrame.next)
    | ((with_reducible show Touch.or _ _ = _) <;> rfl)
    | with_reducible (first
        | exact Frame.refl | apply State.bumpRed_frame | apply State.healthChanged_frame
        | apply State.updGroup_frame | apply State.repairAdd_frame)
    | (with_reducible refine Frame.foldl _ (fun _ _ hF => ?_) _ ?_)
    | (intro _ hF; skip) | with_reducible assumption
    | (with_reducible refine Frame.ite (fun _ => ?_) (fun _ => ?_)) | split
    | fail_if_no_progress ((with_reducible apply Frame.fields); (case hq => rfl); (case hc => rfl))

end Sys2Proof.Machine
end

