-- ==== Sys2Proof/Laws/FrameBuffers.lean ====
section
/-! SUPPORT. What the operations of Buffers may change. -/

set_option Elab.async false
set_option linter.all false

namespace Sys2Proof.Machine

theorem State.putClass_frame {wt : Touch} {s0 s : State} (hw : 
    ({ classes := true } : Touch).or wt = wt)
    (hK : Frame wt s0 s) (p : List Byte) : Frame wt s0 (State.putClass s p) :=
  hK.step hw (.ofView rfl)

theorem applyBufSetClass_frame {wt : Touch} {s0 s : State} (hw : 
    ({ ports := true, classes := true, portClass := true, bufCtr := true, portCtr := true, shares := true,
       out := true } : Touch).or
    wt = wt)
    (hK : Frame wt s0 s) (p : List Byte) : Frame wt s0 (applyBufSetClass p s) := by
  refine Frame.step hK hw ?_
  unfold applyBufSetClass
  (try dsimp only)
  repeat' first
    | ((with_reducible show Touch.or _ _ = _) <;> rfl)
    | with_reducible (first | exact Frame.refl | apply State.putClass_frame | apply State.xoffSweep_frame)

theorem bufSetClassBody_frame {wt : Touch} {s0 s : State} (hw : 
    ({ ports := true, classes := true, portClass := true, bufCtr := true, portCtr := true, shares := true,
       sets := true, snapshot := true, heldShadow := true, out := true } : Touch).or wt = wt)
    (hK : Frame wt s0 s) (r : Req) : Frame wt s0 (bufSetClassBody r s).1 := by
  refine Frame.step hK hw ?_
  unfold bufSetClassBody
  (try dsimp only)
  repeat' first
    | ((with_reducible show Touch.or _ _ = _) <;> rfl) | with_reducible exact Frame.refl
    | exact setCmd_frame rfl (fun p _ => applyBufSetClass_frame rfl .refl p) r _

theorem applyBufSetPortClass_frame {wt : Touch} {s0 s : State} (hw : 
    ({ ports := true, portClass := true, bufCtr := true, portCtr := true, shares := true,
       out := true } : Touch).or wt = wt)
    (hK : Frame wt s0 s) (p : List Byte) : Frame wt s0 (applyBufSetPortClass p s) := by
  refine Frame.step hK hw ?_
  unfold applyBufSetPortClass
  (try dsimp only)
  repeat' first
    | ((with_reducible show Touch.or _ _ = _) <;> rfl)
    | with_reducible (first | exact Frame.refl | apply State.updPortClass_frame | apply State.xoffSweep_frame)
    | (intro _ hF; skip)

theorem bufSetPortClassBody_frame {wt : Touch} {s0 s : State} (hw : 
    ({ ports := true, portClass := true, bufCtr := true, portCtr := true, shares := true, sets := true,
       snapshot := true, heldShadow := true, out := true } : Touch).or wt = wt)
    (hK : Frame wt s0 s) (r : Req) : Frame wt s0 (bufSetPortClassBody r s).1 := by
  refine Frame.step hK hw ?_
  unfold bufSetPortClassBody
  (try dsimp only)
  repeat' first
    | ((with_reducible show Touch.or _ _ = _) <;> rfl) | with_reducible exact Frame.refl
    | exact setCmd_frame rfl (fun p _ => applyBufSetPortClass_frame rfl .refl p) r _

theorem State.putHeadroom_frame {wt : Touch} {s0 s : State} (hw : 
    ({ portClass := true } : Touch).or wt = wt)
    (hK : Frame wt s0 s) (p : List Byte) : Frame wt s0 (State.putHeadroom s p) := by
  refine Frame.step hK hw ?_
  unfold State.putHeadroom
  (try dsimp only)
  repeat' first
    | ((with_reducible show Touch.or _ _ = _) <;> rfl)
    | with_reducible (first | exact Frame.refl | apply State.updPortClass_frame)
    | (with_reducible refine Frame.foldl _ (fun _ _ hF => ?_) _ ?_) | (intro _ hF; skip) | with_reducible assumption

theorem applyBufSetHeadroom_frame {wt : Touch} {s0 s : State} (hw : 
    ({ ports := true, portClass := true, bufCtr := true, portCtr := true, shares := true,
       out := true } : Touch).or wt = wt)
    (hK : Frame wt s0 s) (p : List Byte) : Frame wt s0 (applyBufSetHeadroom p s) := by
  refine Frame.step hK hw ?_
  unfold applyBufSetHeadroom
  (try dsimp only)
  repeat' first
    | ((with_reducible show Touch.or _ _ = _) <;> rfl)
    | with_reducible (first | exact Frame.refl | apply State.putHeadroom_frame | apply State.xoffSweep_frame)

theorem State.sizingView_frame {wt : Touch} {s0 s : State} (hw : 
    ({ lanes := true, ports := true, classes := true, evt := true, telCtr := true, healthGen := true,
       irq := true, out := true } : Touch).or wt = wt)
    (hK : Frame wt s0 s) (l : List StagedCmd) : Frame wt s0 (State.sizingView s l) := by
  refine Frame.step hK hw ?_
  unfold State.sizingView
  (try dsimp only)
  repeat' first
    | ((with_reducible show Touch.or _ _ = _) <;> rfl)
    | with_reducible (first
        | exact Frame.refl | apply State.putClass_frame | apply State.putFlow_frame | apply State.putMac_frame
        | apply State.putModes_frame)
    | (with_reducible refine Frame.foldl _ (fun _ _ hF => ?_) _ ?_) | (intro _ hF; skip) | with_reducible assumption
    | (with_reducible refine Frame.ite (fun _ => ?_) (fun _ => ?_))

theorem bufSetHeadroomBody_frame {wt : Touch} {s0 s : State} (hw : 
    ({ sets := true } : Touch).or wt = wt)
    (hK : Frame wt s0 s) (r : Req) : Frame wt s0 (bufSetHeadroomBody r s).1 := by
  refine Frame.step hK hw ?_
  unfold bufSetHeadroomBody
  (try dsimp only)
  repeat' first
    | ((with_reducible show Touch.or _ _ = _) <;> rfl)
    | with_reducible (first | exact Frame.refl | apply State.stage_frame) | (intro _ hF; skip)

theorem applyBufSetPfcTx_frame {wt : Touch} {s0 s : State} (hw :
    ({ ports := true } : Touch).or wt = wt)
    (hK : Frame wt s0 s) (p : List Byte) :
    Frame wt s0 (applyBufSetPfcTx p s) := by
  refine Frame.step hK hw ?_
  unfold applyBufSetPfcTx
  (try dsimp only)
  repeat' first
    | ((with_reducible show Touch.or _ _ = _) <;> rfl)
    | with_reducible (first | exact Frame.refl | apply State.updPort_frame)
    | (with_reducible refine Frame.foldl _ (fun _ _ hF => ?_) _ ?_)
    | (intro _ hF; skip) | with_reducible assumption
    | (with_reducible refine Frame.ite (fun _ => ?_) (fun _ => ?_)) | split
    | fail_if_no_progress ((with_reducible apply Frame.fields); (case hq => rfl); (case hc => rfl))

theorem bufSetPfcTxBody_frame {wt : Touch} {s0 s : State} (hw : 
    ({ ports := true, sets := true, snapshot := true, heldShadow := true } : Touch).or wt = wt)
    (hK : Frame wt s0 s) (r : Req) : Frame wt s0 (bufSetPfcTxBody r s).1 := by
  refine Frame.step hK hw ?_
  unfold bufSetPfcTxBody
  (try dsimp only)
  repeat' first
    | ((with_reducible show Touch.or _ _ = _) <;> rfl) | with_reducible exact Frame.refl
    | exact setCmd_frame rfl (fun p _ => applyBufSetPfcTx_frame rfl .refl p) r _

theorem applyBufSetWredProfile_frame {wt : Touch} {s0 s : State} (hw : 
    ({ wred := true } : Touch).or wt = wt)
    (hK : Frame wt s0 s) (p : List Byte) : Frame wt s0 (applyBufSetWredProfile p s) :=
  hK.step hw (.ofView rfl)

theorem liveWredProfile_frame {wt : Touch} {s0 s : State} (hw :
    ({ wred := true, queues := true } : Touch).or wt = wt)
    (hK : Frame wt s0 s) (p : List Byte) :
    Frame wt s0 (liveWredProfile p s) := by
  refine Frame.step hK hw ?_
  unfold liveWredProfile
  (try dsimp only)
  repeat' first
    | ((with_reducible show Touch.or _ _ = _) <;> rfl)
    | with_reducible (first | exact Frame.refl | apply applyBufSetWredProfile_frame)
    | (with_reducible refine Frame.foldl _ (fun _ _ hF => ?_) _ ?_)
    | (intro _ hF; skip) | with_reducible assumption
    | (with_reducible refine Frame.ite (fun _ => ?_) (fun _ => ?_)) | split
    | fail_if_no_progress ((with_reducible apply Frame.fields); (case hq => rfl); (case hc => rfl))

theorem bufSetWredProfileBody_frame {wt : Touch} {s0 s : State} (hw : 
    ({ wred := true, queues := true, sets := true, snapshot := true, heldShadow := true } : Touch).or wt = wt)
    (hK : Frame wt s0 s) (r : Req) : Frame wt s0 (bufSetWredProfileBody r s).1 := by
  refine Frame.step hK hw ?_
  unfold bufSetWredProfileBody
  (try dsimp only)
  repeat' first
    | ((with_reducible show Touch.or _ _ = _) <;> rfl) | with_reducible exact Frame.refl
    | exact setCmd_frame rfl (fun p _ => liveWredProfile_frame rfl .refl p) r _

theorem applyBufSetQueue_frame {wt : Touch} {s0 s : State} (hw : 
    ({ queues := true } : Touch).or wt = wt)
    (hK : Frame wt s0 s) (p : List Byte) : Frame wt s0 (applyBufSetQueue p s) := by
  refine Frame.step hK hw ?_
  unfold applyBufSetQueue
  (try dsimp only)
  repeat' first
    | ((with_reducible show Touch.or _ _ = _) <;> rfl)
    | with_reducible (first | exact Frame.refl | apply State.updQueue_frame)
    | (with_reducible refine Frame.foldl _ (fun _ _ hF => ?_) _ ?_) | (intro _ hF; skip) | with_reducible assumption

theorem liveQueue_frame {wt : Touch} {s0 s : State} (hw : 
    ({ queues := true } : Touch).or wt = wt)
    (hK : Frame wt s0 s) (p : List Byte) : Frame wt s0 (liveQueue p s) := by
  refine Frame.step hK hw ?_
  unfold liveQueue
  (try dsimp only)
  repeat' first
    | ((with_reducible show Touch.or _ _ = _) <;> rfl)
    | with_reducible (first | exact Frame.refl | apply State.updQueue_frame)
    | (with_reducible refine Frame.foldl _ (fun _ _ hF => ?_) _ ?_) | (intro _ hF; skip) | with_reducible assumption

theorem bufSetQueueBody_frame {wt : Touch} {s0 s : State} (hw : 
    ({ queues := true, sets := true, snapshot := true, heldShadow := true } : Touch).or wt = wt)
    (hK : Frame wt s0 s) (r : Req) : Frame wt s0 (bufSetQueueBody r s).1 := by
  refine Frame.step hK hw ?_
  unfold bufSetQueueBody
  (try dsimp only)
  repeat' first
    | ((with_reducible show Touch.or _ _ = _) <;> rfl) | with_reducible exact Frame.refl
    | exact setCmd_frame rfl (fun p _ => liveQueue_frame rfl .refl p) r _

theorem State.wredUpdate_frame {wt : Touch} {s0 s : State} (hw :
    ({ queues := true, free := true } : Touch).or wt = wt)
    (hK : Frame wt s0 s) (k : Nat) :
    Frame wt s0 (State.wredUpdate s k) := by
  refine Frame.step hK hw ?_
  unfold State.wredUpdate
  (try dsimp only)
  repeat' first
    | ((with_reducible show Touch.or _ _ = _) <;> rfl)
    | with_reducible (first | exact Frame.refl | apply State.updQueue_frame)
    | (with_reducible refine Frame.foldl _ (fun _ _ hF => ?_) _ ?_)
    | (intro _ hF; skip) | with_reducible assumption
    | (with_reducible refine Frame.ite (fun _ => ?_) (fun _ => ?_)) | split
    | fail_if_no_progress ((with_reducible apply Frame.fields); (case hq => rfl); (case hc => rfl))

theorem execWredAverageUpdate_frame (queue : Nat) (s : State) : OutFrame 
    ({ queues := true, free := true } : Touch) s (execWredAverageUpdate queue s) := by
  unfold execWredAverageUpdate
  (try dsimp only)
  repeat' first
    | with_reducible (first | exact OutFrame.fault _ _ | apply OutFrame.next)
    | ((with_reducible show Touch.or _ _ = _) <;> rfl)
    | with_reducible (first | exact Frame.refl | apply State.wredUpdate_frame)
    | (with_reducible refine Frame.ite (fun _ => ?_) (fun _ => ?_)) | split

theorem bufGetStatusBody_frame {wt : Touch} {s0 s : State} (hw : ({} : Touch).or wt = wt)
    (hK : Frame wt s0 s) (r : Req) : Frame wt s0 (bufGetStatusBody r s).1 := by
  refine Frame.step hK hw ?_
  unfold bufGetStatusBody
  (try dsimp only)
  repeat' first
    | ((with_reducible show Touch.or _ _ = _) <;> rfl)
    | with_reducible (first | exact Frame.refl | apply readCmd_frame) | (intro _ hF; skip)

theorem bufGetPortBody_frame {wt : Touch} {s0 s : State} (hw : 
    ({ portClass := true } : Touch).or wt = wt)
    (hK : Frame wt s0 s) (r : Req) : Frame wt s0 (bufGetPortBody r s).1 := by
  refine Frame.step hK hw ?_
  unfold bufGetPortBody
  (try dsimp only)
  repeat' first
    | ((with_reducible show Touch.or _ _ = _) <;> rfl)
    | with_reducible (first
        | exact Frame.refl | apply errCmd_frame | apply okCmd_frame | apply State.updPortClass_frame)
    | (with_reducible refine Frame.foldl _ (fun _ _ hF => ?_) _ ?_) | (intro _ hF; skip) | with_reducible assumption
    | (with_reducible refine Frame.ite (fun _ => ?_) (fun _ => ?_)) | split

theorem bufGetCountersBody_frame {wt : Touch} {s0 s : State} (hw : ({} : Touch).or wt = wt)
    (hK : Frame wt s0 s) (r : Req) : Frame wt s0 (bufGetCountersBody r s).1 := by
  refine Frame.step hK hw ?_
  unfold bufGetCountersBody
  (try dsimp only)
  repeat' first
    | ((with_reducible show Touch.or _ _ = _) <;> rfl)
    | with_reducible (first | exact Frame.refl | apply readCmd_frame) | (intro _ hF; skip)

theorem bufGetPoolsBody_frame {wt : Touch} {s0 s : State} (hw : 
    ({ pools := true } : Touch).or wt = wt)
    (hK : Frame wt s0 s) (r : Req) : Frame wt s0 (bufGetPoolsBody r s).1 := by
  refine Frame.step hK hw ?_
  unfold bufGetPoolsBody
  (try dsimp only)
  repeat' first
    | ((with_reducible show Touch.or _ _ = _) <;> rfl) | with_reducible (first | exact Frame.refl | apply okCmd_frame)
    | (with_reducible refine Frame.foldl _ (fun _ _ hF => ?_) _ ?_) | (intro _ hF; skip) | with_reducible assumption
    | split | fail_if_no_progress ((with_reducible apply Frame.fields); (case hq => rfl); (case hc => rfl))

theorem execBufSetClass_frame (r : Req) (s : State) : OutFrame 
    ({ ports := true, classes := true, portClass := true, pools := true, bufCtr := true, waitTx := true,
       evt := true, telCtr := true, portCtr := true, mbxCtr := true, shares := true, boxes := true,
       jobs := true, hist := true, sets := true, snapshot := true, heldShadow := true, peers := true,
       msgs := true, irq := true, out := true } : Touch) s (execBufSetClass r s) := 
  mailboxCommand_frame rfl (fun _ => bufSetClassBody_frame rfl .refl r)

theorem execBufSetPortClass_frame (r : Req) (s : State) : OutFrame 
    ({ ports := true, portClass := true, pools := true, bufCtr := true, waitTx := true, evt := true,
       telCtr := true, portCtr := true, mbxCtr := true, shares := true, boxes := true, jobs := true,
       hist := true, sets := true, snapshot := true, heldShadow := true, peers := true, msgs := true,
       irq := true, out := true } : Touch) s
    (execBufSetPortClass r s) :=
  mailboxCommand_frame rfl (fun _ => bufSetPortClassBody_frame rfl .refl r)

theorem execBufSetHeadroom_frame (r : Req) (s : State) : OutFrame 
    ({ pools := true, bufCtr := true, waitTx := true, evt := true, telCtr := true, portCtr := true,
       mbxCtr := true, boxes := true, jobs := true, hist := true, sets := true, peers := true,
       msgs := true, irq := true, out := true } : Touch) s
    (execBufSetHeadroom r s) :=
  mailboxCommand_frame rfl (fun _ => bufSetHeadroomBody_frame rfl .refl r)

theorem execBufSetPfcTx_frame (r : Req) (s : State) : OutFrame 
    ({ ports := true, pools := true, bufCtr := true, waitTx := true, evt := true, telCtr := true,
       portCtr := true, mbxCtr := true, boxes := true, jobs := true, hist := true, sets := true,
       snapshot := true, heldShadow := true, peers := true, msgs := true, irq := true,
       out := true } : Touch) s (execBufSetPfcTx r s) := 
  mailboxCommand_frame rfl (fun _ => bufSetPfcTxBody_frame rfl .refl r)

theorem execBufSetWredProfile_frame (r : Req) (s : State) : OutFrame 
    ({ wred := true, queues := true, pools := true, bufCtr := true, waitTx := true, evt := true,
       telCtr := true, portCtr := true, mbxCtr := true, boxes := true, jobs := true, hist := true,
       sets := true, snapshot := true, heldShadow := true, peers := true, msgs := true, irq := true,
       out := true } : Touch) s (execBufSetWredProfile r
    s) :=
  mailboxCommand_frame rfl (fun _ => bufSetWredProfileBody_frame rfl .refl r)

theorem execBufSetQueue_frame (r : Req) (s : State) : OutFrame 
    ({ queues := true, pools := true, bufCtr := true, waitTx := true, evt := true, telCtr := true,
       portCtr := true, mbxCtr := true, boxes := true, jobs := true, hist := true, sets := true,
       snapshot := true, heldShadow := true, peers := true, msgs := true, irq := true,
       out := true } : Touch) s (execBufSetQueue r s) := 
  mailboxCommand_frame rfl (fun _ => bufSetQueueBody_frame rfl .refl r)

theorem execBufGetStatus_frame (r : Req) (s : State) : OutFrame 
    ({ pools := true, bufCtr := true, waitTx := true, evt := true, telCtr := true, portCtr := true,
       mbxCtr := true, boxes := true, jobs := true, hist := true, peers := true, msgs := true, irq := true,
       out := true } : Touch) s (execBufGetStatus r s) := 
  mailboxCommand_frame rfl (fun _ => bufGetStatusBody_frame rfl .refl r)

theorem execBufGetPort_frame (r : Req) (s : State) : OutFrame 
    ({ portClass := true, pools := true, bufCtr := true, waitTx := true, evt := true, telCtr := true,
       portCtr := true, mbxCtr := true, boxes := true, jobs := true, hist := true, peers := true,
       msgs := true, irq := true, out := true } : Touch) s
    (execBufGetPort r s) :=
  mailboxCommand_frame rfl (fun _ => bufGetPortBody_frame rfl .refl r)

theorem execBufGetCounters_frame (r : Req) (s : State) : OutFrame 
    ({ pools := true, bufCtr := true, waitTx := true, evt := true, telCtr := true, portCtr := true,
       mbxCtr := true, boxes := true, jobs := true, hist := true, peers := true, msgs := true, irq := true,
       out := true } : Touch) s (execBufGetCounters r s) := 
  mailboxCommand_frame rfl (fun _ => bufGetCountersBody_frame rfl .refl r)

theorem execBufGetPools_frame (r : Req) (s : State) : OutFrame 
    ({ pools := true, bufCtr := true, waitTx := true, evt := true, telCtr := true, portCtr := true,
       mbxCtr := true, boxes := true, jobs := true, hist := true, peers := true, msgs := true, irq := true,
       out := true } : Touch) s (execBufGetPools r s) := 
  mailboxCommand_frame rfl (fun _ => bufGetPoolsBody_frame rfl .refl r)

theorem State.readIn_frame {wt : Touch} {s0 s : State} (hw :
    ({ ports := true, prismFlight := true, recirc := true, merge := true, fwdCtr := true, cells := true,
       portClass := true, queues := true, spillVoqs := true, bufCtr := true, pkts := true, nextPkt := true,
       voqs := true, multiQ := true, pairs := true, fabCtr := true, schedCtr := true, mirrors := true,
       cand := true, mirQ := true, mirCtr := true, telCtr := true, dropCtr := true, portCtr := true,
       prismCtr := true, timeCtr := true, shares := true, out := true, free := true } : Touch).or wt = wt)
    (hK : Frame wt s0 s) (sl : Nat) (v : Nat) (pk : Pkt) (q : PortClass) :
    Frame wt s0 (State.readIn s sl v pk q) := by
  refine Frame.step hK hw ?_
  unfold State.readIn
  (try dsimp only)
  repeat' first
    | ((with_reducible show Touch.or _ _ = _) <;> rfl)
    | with_reducible (first
        | exact Frame.refl | apply State.xoffSweep_frame | apply State.charge_frame | apply State.dropUnfit_frame
        | apply State.updQueue_frame | apply State.updPkt_frame | apply State.chargeQ_frame
        | apply State.bumpBufAt_frame | apply State.pushVoq_frame)
    | (with_reducible refine Frame.setAlloc ?_ ?_ (BufSt.alloc_rest ..))
    | (with_reducible refine Frame.foldl _ (fun _ _ hF => ?_) _ ?_)
    | (intro _ hF; skip) | with_reducible assumption
    | (with_reducible refine Frame.ite (fun _ => ?_) (fun _ => ?_)) | split
    | fail_if_no_progress ((with_reducible apply Frame.fields); (case hq => rfl); (case hc => rfl))

theorem State.readOne_frame {wt : Touch} {s0 s : State} (hw : 
    ({ ports := true, prismFlight := true, recirc := true, merge := true, fwdCtr := true, cells := true,
       portClass := true, queues := true, spillVoqs := true, bufCtr := true, pkts := true, nextPkt := true,
       voqs := true, multiQ := true, pairs := true, fabCtr := true, schedCtr := true, mirrors := true,
       cand := true, mirQ := true, mirCtr := true, telCtr := true, dropCtr := true, portCtr := true,
       prismCtr := true, timeCtr := true, shares := true, out := true, free := true } : Touch).or wt = wt)
    (hK : Frame wt s0 s) (sl : Nat) (v : Nat) : Frame wt s0 (State.readOne s sl v) := by
  refine Frame.step hK hw ?_
  unfold State.readOne
  (try dsimp only)
  repeat' first
    | ((with_reducible show Touch.or _ _ = _) <;> rfl)
    | with_reducible (first
        | exact Frame.refl | apply State.bumpBuf_frame | apply State.pushVoq_frame | apply State.updPkt_frame
        | apply State.updQueue_frame | apply State.updVoq_frame | apply State.xoffSweep_frame
        | apply State.dropUnfit_frame | apply State.readIn_frame)
    | (intro _ hF; skip) | with_reducible assumption
    | (with_reducible refine Frame.setAlloc ?_ ?_ (BufSt.alloc_rest ..))
    | (with_reducible refine Frame.ite (fun _ => ?_) (fun _ => ?_)) | split

theorem State.readEnd_frame {wt : Touch} {s0 s : State} (hw : 
    ({ spillVoqs := true, voqs := true } : Touch).or wt = wt)
    (hK : Frame wt s0 s) (sl : Nat) (v : Nat) : Frame wt s0 (State.readEnd s sl v) := by
  refine Frame.step hK hw ?_
  unfold State.readEnd
  (try dsimp only)
  repeat' first
    | ((with_reducible show Touch.or _ _ = _) <;> rfl)
    | with_reducible (first | exact Frame.refl | apply State.updVoq_frame | apply State.leaveSpill_frame) | (intro _ hF; skip)
    | with_reducible assumption | (with_reducible refine Frame.ite (fun _ => ?_) (fun _ => ?_)) | split
    | fail_if_no_progress ((with_reducible apply Frame.fields); (case hq => rfl); (case hc => rfl))

theorem State.readback_frame {wt : Touch} {s0 s : State} (hw : 
    ({ ports := true, prismFlight := true, recirc := true, merge := true, fwdCtr := true, cells := true,
       portClass := true, queues := true, spillVoqs := true, bufCtr := true, pkts := true, nextPkt := true,
       voqs := true, multiQ := true, pairs := true, fabCtr := true, schedCtr := true, mirrors := true,
       cand := true, mirQ := true, mirCtr := true, telCtr := true, dropCtr := true, portCtr := true,
       prismCtr := true, timeCtr := true, shares := true, out := true, free := true } : Touch).or wt = wt)
    (hK : Frame wt s0 s) (sl : Nat) (v : Nat) : Frame wt s0 (State.readback s sl v) := by
  refine Frame.step hK hw ?_
  unfold State.readback
  (try dsimp only)
  repeat' first
    | ((with_reducible show Touch.or _ _ = _) <;> rfl)
    | with_reducible (first
        | exact Frame.refl | apply State.readEnd_frame | apply State.readOne_frame | apply State.startFrames_frame)
    | (with_reducible refine Frame.foldl _ (fun _ _ hF => ?_) _ ?_) | (intro _ hF; skip) | with_reducible assumption
    | (with_reducible refine Frame.ite (fun _ => ?_) (fun _ => ?_))

theorem execSpillReadback_frame (slice : Nat) (voq : Nat) (s : State) : OutFrame 
    ({ ports := true, prismFlight := true, recirc := true, merge := true, fwdCtr := true, cells := true,
       portClass := true, queues := true, spillVoqs := true, bufCtr := true, pkts := true, nextPkt := true,
       voqs := true, multiQ := true, pairs := true, fabCtr := true, schedCtr := true, mirrors := true,
       cand := true, mirQ := true, mirCtr := true, telCtr := true, dropCtr := true, portCtr := true,
       prismCtr := true, timeCtr := true, shares := true, out := true, free := true } : Touch) s
    (execSpillReadback slice voq s) := by
  unfold execSpillReadback
  (try dsimp only)
  repeat' first
    | with_reducible (first | exact OutFrame.fault _ _ | apply OutFrame.next)
    | ((with_reducible show Touch.or _ _ = _) <;> rfl)
    | with_reducible (first | exact Frame.refl | apply State.readback_frame)
    | (with_reducible refine Frame.ite (fun _ => ?_) (fun _ => ?_)) | split

theorem execPoolAlloc_frame (size : Nat) (block : Nat) (s : State) : OutFrame 
    ({ pools := true, bufCtr := true, evt := true, telCtr := true, irq := true, out := true } : Touch) s
    (execPoolAlloc size block s) := by
  unfold execPoolAlloc
  (try dsimp only)
  repeat' first
    | with_reducible (first | exact OutFrame.fault _ _ | apply OutFrame.next)
    | ((with_reducible show Touch.or _ _ = _) <;> rfl)
    | with_reducible (first | exact Frame.refl | apply State.poolAlloc_frame)
    | (with_reducible refine Frame.ite (fun _ => ?_) (fun _ => ?_)) | split
    | fail_if_no_progress ((with_reducible apply Frame.fields); (case hq => rfl); (case hc => rfl))

theorem execPoolFree_frame (ptr : Nat) (block : Nat) (s : State) : OutFrame 
    ({ pools := true, bufCtr := true, evt := true, telCtr := true, irq := true, out := true } : Touch) s (execPoolFree
    ptr block s) := by
  unfold execPoolFree
  (try dsimp only)
  repeat' first
    | with_reducible (first | exact OutFrame.fault _ _ | apply OutFrame.next)
    | ((with_reducible show Touch.or _ _ = _) <;> rfl)
    | with_reducible (first | exact Frame.refl | apply State.poolFree_frame)

end Sys2Proof.Machine
end

