-- ==== Sys2Proof/Laws/FrameGates.lean ====
section
/-! SUPPORT. What the operations of Gates may change. -/

set_option Elab.async false
set_option linter.all false

namespace Sys2Proof.Machine

theorem State.gateDrop_frame {wt : Touch} {s0 s : State} (hw : 
    ({ ports := true, prismFlight := true, recirc := true, merge := true, fwdCtr := true, cells := true,
       portClass := true, queues := true, spillVoqs := true, bufCtr := true, pkts := true, nextPkt := true,
       voqs := true, multiQ := true, pairs := true, fabPorts := true, fabCtr := true, nodes := true,
       egq := true, schedCtr := true, mirrors := true, cand := true, mirQ := true, mirCtr := true,
       telCtr := true, dropCtr := true, portCtr := true, prismCtr := true, timeCtr := true, shares := true,
       out := true, free := true } : Touch).or wt
    = wt)
    (hK : Frame wt s0 s) (p : Nat) (pk : Pkt) (vv : GateVictim) : Frame wt s0 (State.gateDrop s p pk vv) := by
  refine Frame.step hK hw ?_
  cases vv <;> unfold State.gateDrop
  all_goals (try dsimp only)
  all_goals repeat' first
    | ((with_reducible show Touch.or _ _ = _) <;> rfl)
    | with_reducible (first
        | exact Frame.refl | apply State.countDrop_frame | apply State.egDrop_frame | apply State.pull_frame
        | apply Res5.queued_frame | apply State.release_frame | apply State.updPkt_frame)
    | (with_reducible refine Frame.foldl _ (fun _ _ hF => ?_) _ ?_) | (intro _ hF; skip) | with_reducible assumption

theorem State.gateReset_frame {wt : Touch} {s0 s : State} (hw : 
    ({ gates := true, ports := true, prismFlight := true, recirc := true, merge := true, fwdCtr := true,
       cells := true, portClass := true, queues := true, spillVoqs := true, bufCtr := true, pkts := true,
       nextPkt := true, voqs := true, multiQ := true, pairs := true, fabPorts := true, fabCtr := true,
       nodes := true, egq := true, schedCtr := true, evt := true, mirrors := true, cand := true,
       mirQ := true, mirCtr := true, telCtr := true, dropCtr := true, portCtr := true, prismCtr := true,
       timeCtr := true, shares := true, irq := true, out := true, free := true } : Touch).or wt = wt)
    (hK : Frame wt s0 s) (p : Nat) : Frame wt s0 (State.gateReset s p) := by
  refine Frame.step hK hw ?_
  unfold State.gateReset
  (try dsimp only)
  repeat' first
    | ((with_reducible show Touch.or _ _ = _) <;> rfl)
    | with_reducible (first
        | exact Frame.refl | apply State.bumpTime_frame | apply State.egDrop_frame | apply State.gateDrop_frame
        | apply State.raise_frame | apply State.updGate_frame | apply State.updPort_frame)
    | (with_reducible refine Frame.foldl _ (fun _ _ hF => ?_) _ ?_) | (intro _ hF; skip) | with_reducible assumption
    | (with_reducible refine Frame.ite (fun _ => ?_) (fun _ => ?_))

end Sys2Proof.Machine
end

