-- ==== Sys2Proof/Laws/FrameHostFifo.lean ====
section
/-! SUPPORT. What the operations of HostFifo may change. -/

set_option Elab.async false
set_option linter.all false

namespace Sys2Proof.Machine

theorem State.rewind_frame {wt : Touch} {s0 s : State} (hw :
    ({ fifos := true } : Touch).or wt = wt)
    (hK : Frame wt s0 s) (f : Nat) :
    Frame wt s0 (State.rewind s f) := by
  refine Frame.step hK hw ?_
  unfold State.rewind
  (try dsimp only)
  repeat' first
    | ((with_reducible show Touch.or _ _ = _) <;> rfl)
    | with_reducible (first | exact Frame.refl | apply State.updFifo_frame)
    | (with_reducible refine Frame.foldl _ (fun _ _ hF => ?_) _ ?_)
    | (intro _ hF; skip) | with_reducible assumption
    | (with_reducible refine Frame.ite (fun _ => ?_) (fun _ => ?_)) | split
    | fail_if_no_progress ((with_reducible apply Frame.fields); (case hq => rfl); (case hc => rfl))

theorem State.countNode_frame {wt : Touch} {s0 s : State} (hw :
    ({ nodes := true } : Touch).or wt = wt)
    (hK : Frame wt s0 s) (n : Nat) (len : Nat) :
    Frame wt s0 (State.countNode s n len) := by
  refine Frame.step hK hw ?_
  unfold State.countNode
  (try dsimp only)
  repeat' first
    | ((with_reducible show Touch.or _ _ = _) <;> rfl)
    | with_reducible (first | exact Frame.refl | apply State.updNode_frame)
    | (with_reducible refine Frame.foldl _ (fun _ _ hF => ?_) _ ?_)
    | (intro _ hF; skip) | with_reducible assumption
    | (with_reducible refine Frame.ite (fun _ => ?_) (fun _ => ?_)) | split
    | fail_if_no_progress ((with_reducible apply Frame.fields); (case hq => rfl); (case hc => rfl))

theorem State.hostCommit_frame {wt : Touch} {s0 s : State} (hw : 
    ({ ports := true, prismFlight := true, fwdCtr := true, bufCtr := true, pkts := true, nextPkt := true,
       pairs := true, fabPorts := true, fabCtr := true, nodes := true, egq := true, schedCtr := true,
       mirrors := true, cand := true, mirQ := true, mirCtr := true, telCtr := true, dropCtr := true,
       portCtr := true, prismCtr := true, timeCtr := true, shares := true, fifos := true,
       free := true } : Touch).or wt = wt)
    (hK : Frame wt s0 s) (h : Nat) : Frame wt s0 (State.hostCommit s h) := by
  refine Frame.step hK hw ?_
  unfold State.hostCommit
  (try dsimp only)
  repeat' first
    | ((with_reducible show Touch.or _ _ = _) <;> rfl)
    | with_reducible (first
        | exact Frame.refl | apply State.complete_frame | apply State.countDrop_frame | apply State.egLeave_frame
        | apply State.egMirror_frame | apply State.rewind_frame | apply State.updFifo_frame
        | apply State.updPort_frame | apply State.countNode_frame | apply State.endTrap_frame)
    | (intro _ hF; skip) | with_reducible assumption | (with_reducible refine Frame.ite (fun _ => ?_) (fun _ => ?_))
    | split | fail_if_no_progress ((with_reducible apply Frame.fields); (case hq => rfl); (case hc => rfl))

theorem State.hostEnter_frame {wt : Touch} {s0 s : State} (hw : 
    ({ lanes := true, ports := true, prismFlight := true, hits := true, recirc := true, merge := true,
       fwdFlight := true, em := true, learnQ := true, fwdCtr := true, cells := true, portClass := true,
       queues := true, spillVoqs := true, lfsr := true, bufCtr := true, pkts := true, nextPkt := true,
       voqs := true, multiQ := true, pairs := true, links := true, arb := true, fabCtr := true,
       pol := true, schedCtr := true, frer := true, cores := true, flows := true, fix := true,
       fixCtr := true, targets := true, drops := true, notices := true, proofCtr := true, evt := true,
       mirrors := true, cand := true, mirQ := true, mirCtr := true, telCtr := true, dropCtr := true,
       portCtr := true, prismCtr := true, timeCtr := true, redCtr := true, frerCtr := true, shares := true,
       rate := true, healthGen := true, irq := true, out := true, free := true } : Touch).or wt = wt)
    (hK : Frame wt s0 s) (pk : Pkt) : Frame wt s0 (State.hostEnter s pk) := by
  refine Frame.step hK hw ?_
  unfold State.hostEnter
  (try dsimp only)
  repeat' first
    | ((with_reducible show Touch.or _ _ = _) <;> rfl)
    | with_reducible (first
        | exact Frame.refl | apply State.toAdmission_frame | apply State.countDrop_frame | apply State.firstPass_frame
        | apply State.release_frame)
    | (with_reducible refine Frame.ite (fun _ => ?_) (fun _ => ?_)) | split
    | fail_if_no_progress ((with_reducible apply Frame.fields); (case hq => rfl); (case hc => rfl))

theorem State.hostInOne_frame {wt : Touch} {s0 s : State} (hw : 
    ({ lanes := true, ports := true, prismFlight := true, hits := true, recirc := true, merge := true,
       fwdFlight := true, em := true, learnQ := true, fwdCtr := true, cells := true, portClass := true,
       queues := true, spillVoqs := true, lfsr := true, bufCtr := true, pkts := true, nextPkt := true,
       voqs := true, multiQ := true, pairs := true, links := true, arb := true, fabCtr := true,
       pol := true, schedCtr := true, frer := true, cores := true, flows := true, fix := true,
       fixCtr := true, targets := true, drops := true, notices := true, proofCtr := true, evt := true,
       mirrors := true, cand := true, mirQ := true, mirCtr := true, telCtr := true, dropCtr := true,
       portCtr := true, prismCtr := true, timeCtr := true, redCtr := true, frerCtr := true, shares := true,
       rate := true, healthGen := true, irq := true, fifos := true, out := true, free := true } : Touch).or wt = wt)
    (hK : Frame wt s0 s) (h : Nat) : Frame wt s0 (State.hostInOne s h) := by
  refine Frame.step hK hw ?_
  unfold State.hostInOne
  (try dsimp only)
  repeat' first
    | ((with_reducible show Touch.or _ _ = _) <;> rfl)
    | with_reducible (first | exact Frame.refl | apply State.hostEnter_frame | apply State.updFifo_frame)
    | (with_reducible refine Frame.ite (fun _ => ?_) (fun _ => ?_)) | split

theorem State.hostIn_frame {wt : Touch} {s0 s : State} (hw : 
    ({ lanes := true, ports := true, prismFlight := true, hits := true, recirc := true, merge := true,
       fwdFlight := true, em := true, learnQ := true, fwdCtr := true, cells := true, portClass := true,
       queues := true, spillVoqs := true, lfsr := true, bufCtr := true, pkts := true, nextPkt := true,
       voqs := true, multiQ := true, pairs := true, links := true, arb := true, fabCtr := true,
       pol := true, schedCtr := true, frer := true, cores := true, flows := true, fix := true,
       fixCtr := true, targets := true, drops := true, notices := true, proofCtr := true, evt := true,
       mirrors := true, cand := true, mirQ := true, mirCtr := true, telCtr := true, dropCtr := true,
       portCtr := true, prismCtr := true, timeCtr := true, redCtr := true, frerCtr := true, shares := true,
       rate := true, healthGen := true, irq := true, fifos := true, out := true, free := true } : Touch).or wt = wt)
    (hK : Frame wt s0 s) (h : Nat) : Frame wt s0 (State.hostIn s h) := by
  refine Frame.step hK hw ?_
  unfold State.hostIn
  (try dsimp only)
  repeat' first
    | ((with_reducible show Touch.or _ _ = _) <;> rfl)
    | with_reducible (first | exact Frame.refl | apply State.hostInOne_frame)
    | (with_reducible refine Frame.foldl _ (fun _ _ hF => ?_) _ ?_) | (intro _ hF; skip) | with_reducible assumption

theorem State.hostInAll_frame {wt : Touch} {s0 s : State} (hw : 
    ({ lanes := true, ports := true, prismFlight := true, hits := true, recirc := true, merge := true,
       fwdFlight := true, em := true, learnQ := true, fwdCtr := true, cells := true, portClass := true,
       queues := true, spillVoqs := true, lfsr := true, bufCtr := true, pkts := true, nextPkt := true,
       voqs := true, multiQ := true, pairs := true, links := true, arb := true, fabCtr := true,
       pol := true, schedCtr := true, frer := true, cores := true, flows := true, fix := true,
       fixCtr := true, targets := true, drops := true, notices := true, proofCtr := true, evt := true,
       mirrors := true, cand := true, mirQ := true, mirCtr := true, telCtr := true, dropCtr := true,
       portCtr := true, prismCtr := true, timeCtr := true, redCtr := true, frerCtr := true, shares := true,
       rate := true, healthGen := true, irq := true, fifos := true, out := true, free := true } : Touch).or wt = wt)
    (hK : Frame wt s0 s) : Frame wt s0 (State.hostInAll s) := by
  refine Frame.step hK hw ?_
  unfold State.hostInAll
  (try dsimp only)
  repeat' first
    | ((with_reducible show Touch.or _ _ = _) <;> rfl)
    | with_reducible (first | exact Frame.refl | apply State.hostIn_frame)
    | (with_reducible refine Frame.foldl _ (fun _ _ hF => ?_) _ ?_) | (intro _ hF; skip) | with_reducible assumption

theorem State.fromHostCommit_frame {wt : Touch} {s0 s : State} (hw : 
    ({ lanes := true, ports := true, prismFlight := true, hits := true, recirc := true, merge := true,
       fwdFlight := true, em := true, learnQ := true, fwdCtr := true, cells := true, portClass := true,
       queues := true, spillVoqs := true, lfsr := true, bufCtr := true, pkts := true, nextPkt := true,
       voqs := true, multiQ := true, pairs := true, links := true, arb := true, fabCtr := true,
       pol := true, schedCtr := true, frer := true, cores := true, flows := true, fix := true,
       fixCtr := true, targets := true, drops := true, notices := true, proofCtr := true, evt := true,
       mirrors := true, cand := true, mirQ := true, mirCtr := true, telCtr := true, dropCtr := true,
       portCtr := true, prismCtr := true, timeCtr := true, redCtr := true, frerCtr := true, shares := true,
       rate := true, healthGen := true, irq := true, fifos := true, out := true, free := true } : Touch).or wt = wt)
    (hK : Frame wt s0 s) (h : Nat) : Frame wt s0 (State.fromHostCommit s h) := by
  refine Frame.step hK hw ?_
  unfold State.fromHostCommit
  (try dsimp only)
  repeat' first
    | ((with_reducible show Touch.or _ _ = _) <;> rfl)
    | with_reducible (first | exact Frame.refl | apply State.hostIn_frame | apply State.updFifo_frame)
    | (intro _ hF; skip) | with_reducible assumption | (with_reducible refine Frame.ite (fun _ => ?_) (fun _ => ?_))
    | split

theorem execHpfPacketCommit_frame (fifo : Nat) (s : State) : OutFrame 
    ({ lanes := true, ports := true, prismFlight := true, hits := true, recirc := true, merge := true,
       fwdFlight := true, em := true, learnQ := true, fwdCtr := true, cells := true, portClass := true,
       queues := true, spillVoqs := true, lfsr := true, bufCtr := true, pkts := true, nextPkt := true,
       voqs := true, multiQ := true, pairs := true, fabPorts := true, links := true, arb := true,
       fabCtr := true, nodes := true, egq := true, pol := true, schedCtr := true, frer := true,
       cores := true, flows := true, fix := true, fixCtr := true, targets := true, drops := true,
       notices := true, proofCtr := true, evt := true, mirrors := true, cand := true, mirQ := true,
       mirCtr := true, telCtr := true, dropCtr := true, portCtr := true, prismCtr := true, timeCtr := true,
       redCtr := true, frerCtr := true, shares := true, rate := true, healthGen := true, irq := true,
       fifos := true, out := true, free := true } : Touch) s (execHpfPacketCommit fifo s) := by
  unfold execHpfPacketCommit
  (try dsimp only)
  repeat' first
    | with_reducible (first | exact OutFrame.fault _ _ | apply OutFrame.next)
    | ((with_reducible show Touch.or _ _ = _) <;> rfl)
    | with_reducible (first | exact Frame.refl | apply State.fromHostCommit_frame | apply State.hostCommit_frame)
    | (with_reducible refine Frame.ite (fun _ => ?_) (fun _ => ?_)) | split

end Sys2Proof.Machine
end

