-- ==== Sys2Proof/Laws/FramePtpTx.lean ====
section
/-! SUPPORT. What the operations of PtpTx may change. -/

set_option Elab.async false
set_option linter.all false

namespace Sys2Proof.Machine

theorem State.capture_frame {wt : Touch} {s0 s : State} (hw : 
    ({ tsFifos := true, ports := true, evt := true, telCtr := true, timeCtr := true, rate := true, irq := true,
       out := true } : Touch).or wt = wt)
    (hK : Frame wt s0 s) (p : Nat) (tx : Nat) (b : List Byte) (o : Nat) : Frame wt s0 (State.capture s p tx b o) := by
  refine Frame.step hK hw ?_
  unfold State.capture
  (try dsimp only)
  repeat' first
    | ((with_reducible show Touch.or _ _ = _) <;> rfl)
    | with_reducible (first
        | exact Frame.refl | apply State.bumpTime_frame | apply State.interrupt_frame
        | apply State.raiseLimited_frame | apply State.updPort_frame | apply State.updTsFifo_frame)
    | (intro _ hF; skip) | with_reducible assumption | (with_reducible refine Frame.ite (fun _ => ?_) (fun _ => ?_))

theorem State.captureOf_frame {wt : Touch} {s0 s : State} (hw :
    ({ tsFifos := true, ports := true, evt := true, telCtr := true, timeCtr := true, rate := true,
       irq := true, out := true } : Touch).or wt = wt)
    (hK : Frame wt s0 s) (p : Nat) (b : List Byte) (tx : Nat) :
    Frame wt s0 (State.captureOf s p b tx) := by
  refine Frame.step hK hw ?_
  unfold State.captureOf
  (try dsimp only)
  repeat' first
    | ((with_reducible show Touch.or _ _ = _) <;> rfl)
    | with_reducible (first | exact Frame.refl | apply State.capture_frame)
    | (with_reducible refine Frame.foldl _ (fun _ _ hF => ?_) _ ?_)
    | (intro _ hF; skip) | with_reducible assumption
    | (with_reducible refine Frame.ite (fun _ => ?_) (fun _ => ?_)) | split
    | fail_if_no_progress ((with_reducible apply Frame.fields); (case hq => rfl); (case hc => rfl))

theorem State.ptpOut_frame {wt : Touch} {s0 s : State} (hw :
    ({ tsFifos := true, ports := true, waitTx := true, evt := true, telCtr := true, portCtr := true,
       timeCtr := true, rate := true, irq := true, out := true, free := true } : Touch).or wt = wt)
    (hK : Frame wt s0 s) (p : Nat) (b : List Byte) :
    Frame wt s0 (State.ptpOut s p b) := by
  refine Frame.step hK hw ?_
  unfold State.ptpOut
  (try dsimp only)
  repeat' first
    | ((with_reducible show Touch.or _ _ = _) <;> rfl)
    | with_reducible (first
        | exact Frame.refl | apply State.drawn_frame | apply State.bumpTime_frame | apply State.capture_frame
        | apply State.ptpSent_frame | apply State.sendNow_frame)
    | (with_reducible refine Frame.foldl _ (fun _ _ hF => ?_) _ ?_)
    | (intro _ hF; skip) | with_reducible assumption
    | (with_reducible refine Frame.ite (fun _ => ?_) (fun _ => ?_)) | split
    | fail_if_no_progress ((with_reducible apply Frame.fields); (case hq => rfl); (case hc => rfl))

theorem State.sendOwn_frame {wt : Touch} {s0 s : State} (hw :
    ({ tsFifos := true, ports := true, waitTx := true, evt := true, telCtr := true, portCtr := true,
       timeCtr := true, rate := true, irq := true, out := true, free := true } : Touch).or wt = wt)
    (hK : Frame wt s0 s) (p : Nat) (o : Output) :
    Frame wt s0 (State.sendOwn s p o) := by
  refine Frame.step hK hw ?_
  unfold State.sendOwn
  (try dsimp only)
  repeat' first
    | ((with_reducible show Touch.or _ _ = _) <;> rfl)
    | with_reducible (first | exact Frame.refl | apply State.ptpOut_frame | apply State.sendNow_frame)
    | (with_reducible refine Frame.foldl _ (fun _ _ hF => ?_) _ ?_)
    | (intro _ hF; skip) | with_reducible assumption
    | (with_reducible refine Frame.ite (fun _ => ?_) (fun _ => ?_)) | split
    | fail_if_no_progress ((with_reducible apply Frame.fields); (case hq => rfl); (case hc => rfl))

end Sys2Proof.Machine
end

