-- ==== Sys2Proof/Laws/FrameSched.lean ====
section
/-! SUPPORT. What the operations of Sched may change. -/

set_option Elab.async false
set_option linter.all false

namespace Sys2Proof.Machine

theorem State.commitTx_frame {wt : Touch} {s0 s : State} (hw : 
    ({ nodes := true } : Touch).or wt = wt)
    (hK : Frame wt s0 s) (parent : Nat) (kid : Nat → Nat) (r : Nat × Nat × List Nat) : Frame wt s0 (State.commitTx s
    parent kid r) := by
  refine Frame.step hK hw ?_
  unfold State.commitTx
  (try dsimp only)
  repeat' first
    | ((with_reducible show Touch.or _ _ = _) <;> rfl)
    | with_reducible (first | exact Frame.refl | apply State.updNode_frame)
    | (with_reducible refine Frame.foldl _ (fun _ _ hF => ?_) _ ?_) | (intro _ hF; skip) | with_reducible assumption

theorem State.chargeNode_frame {wt : Touch} {s0 s : State} (hw : 
    ({ nodes := true } : Touch).or wt = wt)
    (hK : Frame wt s0 s) (n : Nat) (len : Nat) : Frame wt s0 (State.chargeNode s n len) := by
  refine Frame.step hK hw ?_
  unfold State.chargeNode
  (try dsimp only)
  repeat' first
    | ((with_reducible show Touch.or _ _ = _) <;> rfl)
    | with_reducible (first | exact Frame.refl | apply State.updNode_frame) | (intro _ hF; skip)
    | (with_reducible refine Frame.ite (fun _ => ?_) (fun _ => ?_))

theorem State.countHolds_frame {wt : Touch} {s0 s : State} (hw : 
    ({ schedCtr := true, shares := true } : Touch).or wt = wt)
    (hK : Frame wt s0 s) (p : Nat) : Frame wt s0 (State.countHolds s p) := by
  refine Frame.step hK hw ?_
  unfold State.countHolds
  (try dsimp only)
  repeat' first
    | ((with_reducible show Touch.or _ _ = _) <;> rfl)
    | with_reducible (first | exact Frame.refl | apply State.bumpSched_frame | apply State.bumpSchedAt_frame) | (intro _ hF; skip)

theorem State.countGateHeld_frame {wt : Touch} {s0 s : State} (hw : 
    ({ gates := true, timeCtr := true } : Touch).or wt = wt)
    (hK : Frame wt s0 s) (p : Nat) : Frame wt s0 (State.countGateHeld s p) := by
  refine Frame.step hK hw ?_
  unfold State.countGateHeld
  (try dsimp only)
  repeat' first
    | ((with_reducible show Touch.or _ _ = _) <;> rfl)
    | with_reducible (first
        | exact Frame.refl | apply State.bumpTime_frame | apply State.complete_frame | apply State.updGate_frame)
    | (intro _ hF; skip) | with_reducible assumption | (with_reducible refine Frame.ite (fun _ => ?_) (fun _ => ?_))

theorem State.flushWait_frame {wt : Touch} {s0 s : State} (hw :
    ({ tsFifos := true, ports := true, waitTx := true, evt := true, telCtr := true, portCtr := true,
       timeCtr := true, rate := true, irq := true, out := true, free := true } : Touch).or wt = wt)
    (hK : Frame wt s0 s) (p : Nat) :
    Frame wt s0 (State.flushWait s p) := by
  refine Frame.step hK hw ?_
  unfold State.flushWait
  (try dsimp only)
  repeat' first
    | ((with_reducible show Touch.or _ _ = _) <;> rfl)
    | with_reducible (first
        | exact Frame.refl | apply State.sendOwn_frame | apply State.updPort_frame | apply State.setWaiting_frame)
    | (with_reducible refine Frame.foldl _ (fun _ _ hF => ?_) _ ?_)
    | (intro _ hF; skip) | with_reducible assumption
    | (with_reducible refine Frame.ite (fun _ => ?_) (fun _ => ?_)) | split
    | fail_if_no_progress ((with_reducible apply Frame.fields); (case hq => rfl); (case hc => rfl))

theorem State.txStart_frame {wt : Touch} {s0 s : State} (hw : 
    ({ tsFifos := true, gates := true, ports := true, nodes := true, egq := true, schedCtr := true,
       evt := true, telCtr := true, timeCtr := true, shares := true, rate := true, irq := true,
       out := true, free := true } : Touch).or wt = wt)
    (hK : Frame wt s0 s) (p : Nat) (k : Nat) : Frame wt s0 (State.txStart s p k) := by
  refine Frame.step hK hw ?_
  unfold State.txStart
  (try dsimp only)
  repeat' first
    | ((with_reducible show Touch.or _ _ = _) <;> rfl)
    | with_reducible (first
        | exact Frame.refl | apply State.bumpSched_frame | apply State.bumpTime_frame | apply State.captureOf_frame
        | apply State.drawn_frame | apply State.setEgq_frame | apply State.updGate_frame | apply State.updPort_frame
        | apply State.bumpSchedAt_frame)
    | (with_reducible refine Frame.foldl _ (fun _ _ hF => ?_) _ ?_)
    | (intro _ hF; skip) | with_reducible assumption
    | (with_reducible refine Frame.ite (fun _ => ?_) (fun _ => ?_)) | split
    | fail_if_no_progress ((with_reducible apply Frame.fields); (case hq => rfl); (case hc => rfl))

theorem State.txNetwork_frame {wt : Touch} {s0 s : State} (hw : 
    ({ tsFifos := true, gates := true, ports := true, nodes := true, egq := true, schedCtr := true,
       evt := true, telCtr := true, timeCtr := true, shares := true, rate := true, irq := true,
       out := true, free := true } : Touch).or wt = wt)
    (hK : Frame wt s0 s) (p : Nat) : Frame wt s0 (State.txNetwork s p) := by
  refine Frame.step hK hw ?_
  unfold State.txNetwork
  (try dsimp only)
  repeat' first
    | ((with_reducible show Touch.or _ _ = _) <;> rfl)
    | with_reducible (first
        | exact Frame.refl | apply State.chargeNode_frame | apply State.commitTx_frame
        | apply State.countGateHeld_frame | apply State.countHolds_frame | apply State.txStart_frame)
    | split

theorem State.txHost_frame {wt : Touch} {s0 s : State} (hw : 
    ({ tsFifos := true, gates := true, ports := true, nodes := true, egq := true, schedCtr := true,
       evt := true, telCtr := true, timeCtr := true, shares := true, rate := true, irq := true,
       fifos := true, out := true, free := true } : Touch).or wt = wt)
    (hK : Frame wt s0 s) (p : Nat) : Frame wt s0 (State.txHost s p) := by
  refine Frame.step hK hw ?_
  unfold State.txHost
  (try dsimp only)
  repeat' first
    | ((with_reducible show Touch.or _ _ = _) <;> rfl)
    | with_reducible (first
        | exact Frame.refl | apply State.bumpSched_frame | apply State.chargeNode_frame | apply State.txStart_frame
        | apply State.updFifo_frame | apply State.bumpSchedAt_frame)
    | (intro _ hF; skip) | with_reducible assumption | (with_reducible refine Frame.ite (fun _ => ?_) (fun _ => ?_))
    | split

theorem execTransmitDecision_frame (port : Nat) (s : State) : OutFrame 
    ({ tsFifos := true, gates := true, ports := true, nodes := true, egq := true, waitTx := true,
       schedCtr := true, evt := true, telCtr := true, portCtr := true, timeCtr := true, shares := true,
       rate := true, irq := true, fifos := true, out := true, free := true } : Touch) s (execTransmitDecision port s) := by
  unfold execTransmitDecision
  (try dsimp only)
  repeat' first
    | with_reducible (first | exact OutFrame.fault _ _ | apply OutFrame.next)
    | ((with_reducible show Touch.or _ _ = _) <;> rfl)
    | with_reducible (first
        | exact Frame.refl | apply State.flushCtl_frame | apply State.txHost_frame | apply State.txNetwork_frame
        | apply State.flushWait_frame)
    | (with_reducible refine Frame.ite (fun _ => ?_) (fun _ => ?_)) | split

theorem State.txDone_frame {wt : Touch} {s0 s : State} (hw : 
    ({ ports := true, pkts := true, nextPkt := true, pairs := true, fabPorts := true, nodes := true,
       egq := true, mirrors := true, cand := true, mirQ := true, mirCtr := true, telCtr := true,
       portCtr := true, timeCtr := true, shares := true, out := true, free := true } : Touch).or wt = wt)
    (hK : Frame wt s0 s) (p : Nat) (i : EgItem) : Frame wt s0 (State.txDone s p i) := by
  refine Frame.step hK hw ?_
  unfold State.txDone
  (try dsimp only)
  repeat' first
    | ((with_reducible show Touch.or _ _ = _) <;> rfl)
    | with_reducible (first
        | exact Frame.refl | apply State.bumpPort_frame | apply State.countNode_frame | apply State.egLeave_frame
        | apply State.egMirror_frame | apply State.emit_frame | apply State.flushCtl_frame
        | apply State.updPort_frame | apply State.bumpTime_frame)
    | (intro _ hF; skip)

theorem execFrameTxComplete_frame (port : Nat) (s : State) : OutFrame 
    ({ ports := true, prismFlight := true, fwdCtr := true, bufCtr := true, pkts := true, nextPkt := true,
       pairs := true, fabPorts := true, fabCtr := true, nodes := true, egq := true, schedCtr := true,
       mirrors := true, cand := true, mirQ := true, mirCtr := true, telCtr := true, dropCtr := true,
       portCtr := true, prismCtr := true, timeCtr := true, shares := true, fifos := true, out := true,
       free := true } : Touch) s (execFrameTxComplete port s) := by
  unfold execFrameTxComplete
  (try dsimp only)
  repeat' first
    | with_reducible (first | exact OutFrame.fault _ _ | apply OutFrame.next)
    | ((with_reducible show Touch.or _ _ = _) <;> rfl)
    | with_reducible (first
        | exact Frame.refl | apply State.complete_frame | apply State.hostCommit_frame | apply State.txDone_frame)
    | (intro _ hF; skip) | with_reducible assumption | (with_reducible refine Frame.ite (fun _ => ?_) (fun _ => ?_))
    | split

theorem State.commitGr_frame {wt : Touch} {s0 s : State} (hw : 
    ({ nodes := true } : Touch).or wt = wt)
    (hK : Frame wt s0 s) (parent : Nat) (kid : Nat → Nat) (r : Nat × Nat × List Nat) : Frame wt s0 (State.commitGr s
    parent kid r) := by
  refine Frame.step hK hw ?_
  unfold State.commitGr
  (try dsimp only)
  repeat' first
    | ((with_reducible show Touch.or _ _ = _) <;> rfl)
    | with_reducible (first | exact Frame.refl | apply State.updNode_frame)
    | (with_reducible refine Frame.foldl _ (fun _ _ hF => ?_) _ ?_) | (intro _ hF; skip) | with_reducible assumption

theorem State.grSettle_frame {wt : Touch} {s0 s : State} (hw :
    ({ nodes := true } : Touch).or wt = wt)
    (hK : Frame wt s0 s) (p : Nat) (c : Nat) (t : Nat) :
    Frame wt s0 (State.grSettle s p c t) := by
  refine Frame.step hK hw ?_
  unfold State.grSettle
  (try dsimp only)
  repeat' first
    | ((with_reducible show Touch.or _ _ = _) <;> rfl)
    | with_reducible (first | exact Frame.refl | apply State.updNode_frame)
    | (with_reducible refine Frame.foldl _ (fun _ _ hF => ?_) _ ?_)
    | (intro _ hF; skip) | with_reducible assumption
    | (with_reducible refine Frame.ite (fun _ => ?_) (fun _ => ?_)) | split
    | fail_if_no_progress ((with_reducible apply Frame.fields); (case hq => rfl); (case hc => rfl))

theorem State.grantTo_frame {wt : Touch} {s0 s : State} (hw : 
    ({ voqs := true, fabPorts := true, fabCtr := true, nodes := true, shares := true } : Touch).or wt = wt)
    (hK : Frame wt s0 s) (p : Nat) (c : Nat) (t : Nat) : Frame wt s0 (State.grantTo s p c t) := by
  refine Frame.step hK hw ?_
  unfold State.grantTo
  (try dsimp only)
  repeat' first
    | ((with_reducible show Touch.or _ _ = _) <;> rfl)
    | with_reducible (first
        | exact Frame.refl | apply State.bumpFab_frame | apply State.updFabPort_frame | apply State.updNode_frame
        | apply State.updVoq_frame | apply State.bumpFabAt_frame)
    | (intro _ hF; skip) | with_reducible assumption | split

theorem State.grantNetwork_frame {wt : Touch} {s0 s : State} (hw : 
    ({ voqs := true, fabPorts := true, fabCtr := true, nodes := true, shares := true } : Touch).or wt = wt)
    (hK : Frame wt s0 s) (p : Nat) : Frame wt s0 (State.grantNetwork s p) := by
  refine Frame.step hK hw ?_
  unfold State.grantNetwork
  (try dsimp only)
  repeat' first
    | ((with_reducible show Touch.or _ _ = _) <;> rfl)
    | with_reducible (first
        | exact Frame.refl | apply State.commitGr_frame | apply State.grantTo_frame | apply State.grSettle_frame)
    | (with_reducible refine Frame.ite (fun _ => ?_) (fun _ => ?_)) | split

theorem State.grantHost_frame {wt : Touch} {s0 s : State} (hw : 
    ({ voqs := true, fabPorts := true, fabCtr := true, nodes := true, shares := true } : Touch).or wt = wt)
    (hK : Frame wt s0 s) (p : Nat) : Frame wt s0 (State.grantHost s p) := by
  refine Frame.step hK hw ?_
  unfold State.grantHost
  (try dsimp only)
  repeat' first
    | ((with_reducible show Touch.or _ _ = _) <;> rfl)
    | with_reducible (first | exact Frame.refl | apply State.grantTo_frame) | (intro _ hF; skip)
    | with_reducible assumption | (with_reducible refine Frame.ite (fun _ => ?_) (fun _ => ?_)) | split

theorem execGrantDecision_frame (port : Nat) (s : State) : OutFrame 
    ({ voqs := true, fabPorts := true, fabCtr := true, nodes := true, shares := true } : Touch) s (execGrantDecision
    port s) := by
  unfold execGrantDecision
  (try dsimp only)
  repeat' first
    | with_reducible (first | exact OutFrame.fault _ _ | apply OutFrame.next)
    | ((with_reducible show Touch.or _ _ = _) <;> rfl)
    | with_reducible (first | exact Frame.refl | apply State.grantHost_frame | apply State.grantNetwork_frame)
    | (with_reducible refine Frame.ite (fun _ => ?_) (fun _ => ?_)) | split

theorem execShaperRefill_frame (node : Nat) (s : State) : OutFrame 
    ({ nodes := true, free := true } : Touch) s (execShaperRefill node s) := by
  unfold execShaperRefill
  (try dsimp only)
  repeat' first
    | with_reducible (first | exact OutFrame.fault _ _ | apply OutFrame.next)
    | ((with_reducible show Touch.or _ _ = _) <;> rfl)
    | with_reducible (first | exact Frame.refl | apply State.drawn_frame | apply State.updNode_frame)
    | (intro _ hF; skip) | with_reducible assumption | (with_reducible refine Frame.ite (fun _ => ?_) (fun _ => ?_))
    | split

theorem execPolicerRefill_frame (pol : Nat) (s : State) : OutFrame 
    ({ pol := true, free := true } : Touch) s (execPolicerRefill pol s) := by
  unfold execPolicerRefill
  (try dsimp only)
  repeat' first
    | with_reducible (first | exact OutFrame.fault _ _ | apply OutFrame.next)
    | ((with_reducible show Touch.or _ _ = _) <;> rfl)
    | with_reducible (first | exact Frame.refl | apply State.drawn_frame | apply State.updPolicer_frame)
    | (intro _ hF; skip) | with_reducible assumption | (with_reducible refine Frame.ite (fun _ => ?_) (fun _ => ?_))
    | split

theorem applySchedSetNode_frame {wt : Touch} {s0 s : State} (hw :
    ({ nodes := true } : Touch).or wt = wt)
    (hK : Frame wt s0 s) (p : List Byte) :
    Frame wt s0 (applySchedSetNode p s) := by
  refine Frame.step hK hw ?_
  unfold applySchedSetNode
  (try dsimp only)
  repeat' first
    | ((with_reducible show Touch.or _ _ = _) <;> rfl)
    | with_reducible (first | exact Frame.refl | apply State.updNode_frame)
    | (with_reducible refine Frame.foldl _ (fun _ _ hF => ?_) _ ?_)
    | (intro _ hF; skip) | with_reducible assumption
    | (with_reducible refine Frame.ite (fun _ => ?_) (fun _ => ?_)) | split
    | fail_if_no_progress ((with_reducible apply Frame.fields); (case hq => rfl); (case hc => rfl))

theorem schedSetNodeBody_frame {wt : Touch} {s0 s : State} (hw : 
    ({ nodes := true, sets := true, snapshot := true, heldShadow := true } : Touch).or wt = wt)
    (hK : Frame wt s0 s) (r : Req) : Frame wt s0 (schedSetNodeBody r s).1 := by
  refine Frame.step hK hw ?_
  unfold schedSetNodeBody
  (try dsimp only)
  repeat' first
    | ((with_reducible show Touch.or _ _ = _) <;> rfl) | with_reducible exact Frame.refl
    | exact setCmd_frame rfl (fun p _ => applySchedSetNode_frame rfl .refl p) r _

theorem schedGetNodeBody_frame {wt : Touch} {s0 s : State} (hw : ({} : Touch).or wt = wt)
    (hK : Frame wt s0 s) (r : Req) : Frame wt s0 (schedGetNodeBody r s).1 := by
  refine Frame.step hK hw ?_
  unfold schedGetNodeBody
  (try dsimp only)
  repeat' first
    | ((with_reducible show Touch.or _ _ = _) <;> rfl)
    | with_reducible (first | exact Frame.refl | apply readCmd_frame) | (intro _ hF; skip)
    | (with_reducible refine Frame.ite (fun _ => ?_) (fun _ => ?_))

theorem applyPolSet_frame {wt : Touch} {s0 s : State} (hw :
    ({ pol := true } : Touch).or wt = wt)
    (hK : Frame wt s0 s) (p : List Byte) :
    Frame wt s0 (applyPolSet p s) := by
  refine Frame.step hK hw ?_
  unfold applyPolSet
  (try dsimp only)
  repeat' first
    | ((with_reducible show Touch.or _ _ = _) <;> rfl)
    | with_reducible (first | exact Frame.refl | apply State.updPolicer_frame)
    | (with_reducible refine Frame.foldl _ (fun _ _ hF => ?_) _ ?_)
    | (intro _ hF; skip) | with_reducible assumption
    | (with_reducible refine Frame.ite (fun _ => ?_) (fun _ => ?_)) | split
    | fail_if_no_progress ((with_reducible apply Frame.fields); (case hq => rfl); (case hc => rfl))

theorem polSetBody_frame {wt : Touch} {s0 s : State} (hw : 
    ({ pol := true, sets := true, snapshot := true, heldShadow := true } : Touch).or wt = wt)
    (hK : Frame wt s0 s) (r : Req) : Frame wt s0 (polSetBody r s).1 := by
  refine Frame.step hK hw ?_
  unfold polSetBody
  (try dsimp only)
  repeat' first
    | ((with_reducible show Touch.or _ _ = _) <;> rfl) | with_reducible exact Frame.refl
    | exact setCmd_frame rfl (fun p _ => applyPolSet_frame rfl .refl p) r _

theorem polGetBody_frame {wt : Touch} {s0 s : State} (hw : ({} : Touch).or wt = wt)
    (hK : Frame wt s0 s) (r : Req) : Frame wt s0 (polGetBody r s).1 := by
  refine Frame.step hK hw ?_
  unfold polGetBody
  (try dsimp only)
  repeat' first
    | ((with_reducible show Touch.or _ _ = _) <;> rfl)
    | with_reducible (first | exact Frame.refl | apply readCmd_frame) | (intro _ hF; skip)
    | (with_reducible refine Frame.ite (fun _ => ?_) (fun _ => ?_))

theorem applyPolSetPort_frame {wt : Touch} {s0 s : State} (hw :
    ({ ports := true } : Touch).or wt = wt)
    (hK : Frame wt s0 s) (p : List Byte) :
    Frame wt s0 (applyPolSetPort p s) := by
  refine Frame.step hK hw ?_
  unfold applyPolSetPort
  (try dsimp only)
  repeat' first
    | ((with_reducible show Touch.or _ _ = _) <;> rfl)
    | with_reducible (first | exact Frame.refl | apply State.updPort_frame)
    | (with_reducible refine Frame.foldl _ (fun _ _ hF => ?_) _ ?_)
    | (intro _ hF; skip) | with_reducible assumption
    | (with_reducible refine Frame.ite (fun _ => ?_) (fun _ => ?_)) | split
    | fail_if_no_progress ((with_reducible apply Frame.fields); (case hq => rfl); (case hc => rfl))

theorem polSetPortBody_frame {wt : Touch} {s0 s : State} (hw : 
    ({ ports := true, sets := true, snapshot := true, heldShadow := true } : Touch).or wt = wt)
    (hK : Frame wt s0 s) (r : Req) : Frame wt s0 (polSetPortBody r s).1 := by
  refine Frame.step hK hw ?_
  unfold polSetPortBody
  (try dsimp only)
  repeat' first
    | ((with_reducible show Touch.or _ _ = _) <;> rfl) | with_reducible exact Frame.refl
    | exact setCmd_frame rfl (fun p _ => applyPolSetPort_frame rfl .refl p) r _

theorem schedGetCountersBody_frame {wt : Touch} {s0 s : State} (hw : ({} : Touch).or wt = wt)
    (hK : Frame wt s0 s) (r : Req) : Frame wt s0 (schedGetCountersBody r s).1 := by
  refine Frame.step hK hw ?_
  unfold schedGetCountersBody
  (try dsimp only)
  repeat' first
    | ((with_reducible show Touch.or _ _ = _) <;> rfl)
    | with_reducible (first | exact Frame.refl | apply readCmd_frame) | (intro _ hF; skip)

theorem execSchedSetNode_frame (r : Req) (s : State) : OutFrame 
    ({ pools := true, bufCtr := true, nodes := true, waitTx := true, evt := true, telCtr := true,
       portCtr := true, mbxCtr := true, boxes := true, jobs := true, hist := true, sets := true,
       snapshot := true, heldShadow := true, peers := true, msgs := true, irq := true,
       out := true } : Touch) s (execSchedSetNode r s) := 
  mailboxCommand_frame rfl (fun _ => schedSetNodeBody_frame rfl .refl r)

theorem execSchedGetNode_frame (r : Req) (s : State) : OutFrame 
    ({ pools := true, bufCtr := true, waitTx := true, evt := true, telCtr := true, portCtr := true,
       mbxCtr := true, boxes := true, jobs := true, hist := true, peers := true, msgs := true, irq := true,
       out := true } : Touch) s (execSchedGetNode r s) := 
  mailboxCommand_frame rfl (fun _ => schedGetNodeBody_frame rfl .refl r)

theorem execPolSet_frame (r : Req) (s : State) : OutFrame 
    ({ pools := true, bufCtr := true, waitTx := true, pol := true, evt := true, telCtr := true,
       portCtr := true, mbxCtr := true, boxes := true, jobs := true, hist := true, sets := true,
       snapshot := true, heldShadow := true, peers := true, msgs := true, irq := true,
       out := true } : Touch) s (execPolSet r s) := 
  mailboxCommand_frame rfl (fun _ => polSetBody_frame rfl .refl r)

theorem execPolGet_frame (r : Req) (s : State) : OutFrame 
    ({ pools := true, bufCtr := true, waitTx := true, evt := true, telCtr := true, portCtr := true,
       mbxCtr := true, boxes := true, jobs := true, hist := true, peers := true, msgs := true, irq := true,
       out := true } : Touch) s (execPolGet r s) := 
  mailboxCommand_frame rfl (fun _ => polGetBody_frame rfl .refl r)

theorem execPolSetPort_frame (r : Req) (s : State) : OutFrame 
    ({ ports := true, pools := true, bufCtr := true, waitTx := true, evt := true, telCtr := true,
       portCtr := true, mbxCtr := true, boxes := true, jobs := true, hist := true, sets := true,
       snapshot := true, heldShadow := true, peers := true, msgs := true, irq := true,
       out := true } : Touch) s (execPolSetPort r s) := 
  mailboxCommand_frame rfl (fun _ => polSetPortBody_frame rfl .refl r)

theorem execSchedGetCounters_frame (r : Req) (s : State) : OutFrame 
    ({ pools := true, bufCtr := true, waitTx := true, evt := true, telCtr := true, portCtr := true,
       mbxCtr := true, boxes := true, jobs := true, hist := true, peers := true, msgs := true, irq := true,
       out := true } : Touch) s (execSchedGetCounters r s) := 
  mailboxCommand_frame rfl (fun _ => schedGetCountersBody_frame rfl .refl r)

end Sys2Proof.Machine
end

