-- ==== Sys2Proof/Laws/FrameLoupe.lean ====
section
/-! SUPPORT. What the operations of Loupe may change. -/

set_option Elab.async false
set_option linter.all false

namespace Sys2Proof.Machine

theorem State.loupeEvent_frame {wt : Touch} {s0 s : State} (hw : 
    ({ schedCtr := true, evt := true, telCtr := true, shares := true, irq := true, out := true } : Touch).or wt = wt)
    (hK : Frame wt s0 s) (rcd : List Byte) (alarm : Nat) (a : Bool × Nat × Bool × Bool) : Frame wt s0
    (State.loupeEvent s rcd alarm a) := by
  refine Frame.step hK hw ?_
  unfold State.loupeEvent
  (try dsimp only)
  repeat' first
    | ((with_reducible show Touch.or _ _ = _) <;> rfl)
    | with_reducible (first
        | exact Frame.refl | apply State.bumpSched_frame | apply State.raise_frame | apply State.bumpSchedAt_frame)
    | (with_reducible refine Frame.ite (fun _ => ?_) (fun _ => ?_))

theorem State.loupeWrite_frame {wt : Touch} {s0 s : State} (hw : 
    ({ schedCtr := true, swp := true, shares := true, irq := true, out := true } : Touch).or wt = wt)
    (hK : Frame wt s0 s) (rcd : List Byte) : Frame wt s0 (State.loupeWrite s rcd) := by
  refine Frame.step hK hw ?_
  unfold State.loupeWrite
  (try dsimp only)
  repeat' first
    | ((with_reducible show Touch.or _ _ = _) <;> rfl)
    | with_reducible (first
        | exact Frame.refl | apply State.bumpSched_frame | apply State.emit_frame | apply State.interrupt_frame
        | apply State.bumpSchedAt_frame)
    | (with_reducible refine Frame.ite (fun _ => ?_) (fun _ => ?_)) | split
    | fail_if_no_progress ((with_reducible apply Frame.fields); (case hq => rfl); (case hc => rfl))

theorem State.loupeSample_frame {wt : Touch} {s0 s : State} (hw : 
    ({ loupeItems := true, schedCtr := true, evt := true, swp := true, telCtr := true, shares := true,
       irq := true, out := true } : Touch).or wt = wt)
    (hK : Frame wt s0 s) (sl : Nat) (o : Nat) : Frame wt s0 (State.loupeSample s sl o) := by
  refine Frame.step hK hw ?_
  unfold State.loupeSample
  (try dsimp only)
  repeat' first
    | ((with_reducible show Touch.or _ _ = _) <;> rfl)
    | with_reducible (first
        | exact Frame.refl | apply State.bumpSched_frame | apply State.loupeEvent_frame
        | apply State.loupeWrite_frame | apply State.bumpSchedAt_frame)
    | (with_reducible refine Frame.foldl _ (fun _ _ hF => ?_) _ ?_)
    | (intro _ hF; skip) | with_reducible assumption
    | (with_reducible refine Frame.ite (fun _ => ?_) (fun _ => ?_)) | split
    | fail_if_no_progress ((with_reducible apply Frame.fields); (case hq => rfl); (case hc => rfl))

theorem execLoupeSample_frame (slice : Nat) (s : State) : OutFrame 
    ({ loupeItems := true, schedCtr := true, evt := true, swp := true, telCtr := true, shares := true,
       irq := true, out := true } : Touch) s (execLoupeSample slice s) := by
  unfold execLoupeSample
  (try dsimp only)
  repeat' first
    | with_reducible (first | exact OutFrame.fault _ _ | apply OutFrame.next)
    | ((with_reducible show Touch.or _ _ = _) <;> rfl)
    | with_reducible (first | exact Frame.refl | apply State.loupeSample_frame)
    | (with_reducible refine Frame.ite (fun _ => ?_) (fun _ => ?_)) | split

theorem applyLoupeSetProfile_frame {wt : Touch} {s0 s : State} (hw : 
    ({ loupeProf := true, loupeItems := true } : Touch).or wt = wt) (hK : Frame wt s0 s) (p : List Byte) : Frame wt s0 (applyLoupeSetProfile p s) := by
  refine hK.step hw ?_
  unfold applyLoupeSetProfile
  dsimp only
  split <;> exact .ofView rfl

theorem loupeSetProfileBody_frame {wt : Touch} {s0 s : State} (hw : 
    ({ loupeProf := true, loupeItems := true, sets := true, snapshot := true, heldShadow := true } : Touch).or wt =
    wt)
    (hK : Frame wt s0 s) (r : Req) : Frame wt s0 (loupeSetProfileBody r s).1 := by
  refine Frame.step hK hw ?_
  unfold loupeSetProfileBody
  (try dsimp only)
  repeat' first
    | ((with_reducible show Touch.or _ _ = _) <;> rfl) | with_reducible exact Frame.refl
    | exact setCmd_frame rfl (fun p _ => applyLoupeSetProfile_frame rfl .refl p) r _

theorem applyLoupeSetQueue_frame {wt : Touch} {s0 s : State} (hw : 
    ({ loupeQueue := true, loupeItems := true } : Touch).or wt = wt) (hK : Frame wt s0 s) (p : List Byte) : Frame wt s0 (applyLoupeSetQueue p s) := by
  refine hK.step hw ?_
  have h : ∀ (l : List Nat) (x : SchedSt), { l.foldl (fun x c => x.setLoupeQueue p c) x with queue := [], items := [] }
      = { x with queue := [], items := [] } := by
    intro l
    induction l with
    | nil => intro x; rfl
    | cons c l ih =>
      intro x
      rw [List.foldl_cons, ih]
      unfold SchedSt.setLoupeQueue
      dsimp only
      split <;> rfl
  have h := h (bitList 8 (rd p 2 1)) s.sched
  simp only [SchedSt.mk.injEq] at h
  constructor <;> first
    | exact fun h => Bool.noConfusion h
    | exact fun _ => rfl
    | (intro _; (repeat' apply And.intro) <;> first | rfl | tauto)

theorem loupeSetQueueBody_frame {wt : Touch} {s0 s : State} (hw : 
    ({ loupeQueue := true, loupeItems := true, sets := true, snapshot := true, heldShadow := true } : Touch).or wt =
    wt)
    (hK : Frame wt s0 s) (r : Req) : Frame wt s0 (loupeSetQueueBody r s).1 := by
  refine Frame.step hK hw ?_
  unfold loupeSetQueueBody
  (try dsimp only)
  repeat' first
    | ((with_reducible show Touch.or _ _ = _) <;> rfl) | with_reducible exact Frame.refl
    | exact setCmd_frame rfl (fun p _ => applyLoupeSetQueue_frame rfl .refl p) r _

theorem loupeGetBody_frame {wt : Touch} {s0 s : State} (hw : 
    ({ loupeItems := true } : Touch).or wt = wt)
    (hK : Frame wt s0 s) (r : Req) : Frame wt s0 (loupeGetBody r s).1 := by
  refine Frame.step hK hw ?_
  unfold loupeGetBody
  (try dsimp only)
  repeat' first
    | ((with_reducible show Touch.or _ _ = _) <;> rfl)
    | with_reducible (first | exact Frame.refl | apply errCmd_frame | apply okCmd_frame) | (intro _ hF; skip)
    | with_reducible assumption | split
    | fail_if_no_progress ((with_reducible apply Frame.fields); (case hq => rfl); (case hc => rfl))

theorem execLoupeSetProfile_frame (r : Req) (s : State) : OutFrame 
    ({ pools := true, bufCtr := true, waitTx := true, loupeProf := true, loupeItems := true, evt := true,
       telCtr := true, portCtr := true, mbxCtr := true, boxes := true, jobs := true, hist := true,
       sets := true, snapshot := true, heldShadow := true, peers := true, msgs := true, irq := true,
       out := true } : Touch) s (execLoupeSetProfile r
    s) :=
  mailboxCommand_frame rfl (fun _ => loupeSetProfileBody_frame rfl .refl r)

theorem execLoupeSetQueue_frame (r : Req) (s : State) : OutFrame 
    ({ pools := true, bufCtr := true, waitTx := true, loupeQueue := true, loupeItems := true, evt := true,
       telCtr := true, portCtr := true, mbxCtr := true, boxes := true, jobs := true, hist := true,
       sets := true, snapshot := true, heldShadow := true, peers := true, msgs := true, irq := true,
       out := true } : Touch) s (execLoupeSetQueue r s)
    :=
  mailboxCommand_frame rfl (fun _ => loupeSetQueueBody_frame rfl .refl r)

theorem execLoupeGet_frame (r : Req) (s : State) : OutFrame 
    ({ pools := true, bufCtr := true, waitTx := true, loupeItems := true, evt := true, telCtr := true,
       portCtr := true, mbxCtr := true, boxes := true, jobs := true, hist := true, peers := true,
       msgs := true, irq := true, out := true } : Touch) s
    (execLoupeGet r s) :=
  mailboxCommand_frame rfl (fun _ => loupeGetBody_frame rfl .refl r)

end Sys2Proof.Machine
end

