-- ==== Sys2Proof/Laws/FrameFabric.lean ====
section
/-! SUPPORT. What the operations of Fabric may change. -/

set_option Elab.async false
set_option linter.all false

namespace Sys2Proof.Machine

theorem execVoqRequest_frame (slice : Nat) (voq : Nat) (s : State) : OutFrame 
    ({ voqs := true } : Touch) s (execVoqRequest slice voq s) := by
  unfold execVoqRequest
  (try dsimp only [onVoq])
  repeat' first
    | with_reducible (first | exact OutFrame.fault _ _ | apply OutFrame.next)
    | ((with_reducible show Touch.or _ _ = _) <;> rfl)
    | with_reducible (first | exact Frame.refl | apply State.updVoq_frame)
    | (with_reducible refine Frame.ite (fun _ => ?_) (fun _ => ?_)) | split

theorem execGrantReceived_frame (slice : Nat) (voq : Nat) (s : State) : OutFrame 
    ({ voqs := true, pairs := true, fabCtr := true, shares := true } : Touch) s (execGrantReceived slice voq s) := by
  unfold execGrantReceived
  (try dsimp only [onVoq])
  repeat' first
    | with_reducible (first | exact OutFrame.fault _ _ | apply OutFrame.next)
    | ((with_reducible show Touch.or _ _ = _) <;> rfl)
    | with_reducible (first
        | exact Frame.refl | apply State.returnCredit_frame | apply State.startFrames_frame
        | apply State.updVoq_frame | apply State.standBy_frame)
    | (with_reducible refine Frame.ite (fun _ => ?_) (fun _ => ?_)) | split

theorem State.giveStanding_frame {wt : Touch} {s0 s : State} (hw : 
    ({ voqs := true, fabCtr := true, shares := true } : Touch).or wt = wt)
    (hK : Frame wt s0 s) (sl : Nat) (v : Nat) : Frame wt s0 (State.giveStanding s sl v) := by
  refine Frame.step hK hw ?_
  unfold State.giveStanding
  (try dsimp only)
  repeat' first
    | ((with_reducible show Touch.or _ _ = _) <;> rfl)
    | with_reducible (first | exact Frame.refl | apply State.returnCredit_frame)
    | (with_reducible refine Frame.ite (fun _ => ?_) (fun _ => ?_))

theorem execStandingCreditTimeout_frame (slice : Nat) (voq : Nat) (s : State) : OutFrame 
    ({ voqs := true, fabCtr := true, shares := true } : Touch) s (execStandingCreditTimeout slice voq s) := by
  unfold execStandingCreditTimeout
  (try dsimp only [onVoq])
  repeat' first
    | with_reducible (first | exact OutFrame.fault _ _ | apply OutFrame.next)
    | ((with_reducible show Touch.or _ _ = _) <;> rfl)
    | with_reducible (first | exact Frame.refl | apply State.giveStanding_frame) | split

theorem execCreditRecall_frame (slice : Nat) (voq : Nat) (s : State) : OutFrame 
    ({ voqs := true, fabCtr := true, shares := true } : Touch) s (execCreditRecall slice voq s) := by
  unfold execCreditRecall
  (try dsimp only [onVoq])
  repeat' first
    | with_reducible (first | exact OutFrame.fault _ _ | apply OutFrame.next)
    | ((with_reducible show Touch.or _ _ = _) <;> rfl)
    | with_reducible (first | exact Frame.refl | apply State.giveStanding_frame) | split

theorem execCreditReturnReceived_frame (slice : Nat) (voq : Nat) (s : State) : OutFrame 
    ({ voqs := true, fabPorts := true } : Touch) s (execCreditReturnReceived slice voq s) := by
  unfold execCreditReturnReceived
  (try dsimp only [onVoq])
  repeat' first
    | with_reducible (first | exact OutFrame.fault _ _ | apply OutFrame.next)
    | ((with_reducible show Touch.or _ _ = _) <;> rfl)
    | with_reducible (first | exact Frame.refl | apply State.matchCredit_frame | apply State.updVoq_frame)
    | (intro _ hF; skip) | with_reducible assumption | split

theorem State.sendNext_frame {wt : Touch} {s0 s : State} (hw : 
    ({ pkts := true, pairs := true, links := true, arb := true, fabCtr := true, shares := true } : Touch).or wt = wt)
    (hK : Frame wt s0 s) (sl : Nat) : Frame wt s0 (State.sendNext s sl) := by
  refine Frame.step hK hw ?_
  unfold State.sendNext
  (try dsimp only)
  repeat' first
    | ((with_reducible show Touch.or _ _ = _) <;> rfl)
    | with_reducible (first | exact Frame.refl | apply State.sendCell_frame) | (intro _ hF; skip)
    | with_reducible assumption | split
    | fail_if_no_progress ((with_reducible apply Frame.fields); (case hq => rfl); (case hc => rfl))

theorem execCellSend_frame (slice : Nat) (s : State) : OutFrame 
    ({ pkts := true, multiQ := true, pairs := true, links := true, arb := true, fabCtr := true,
       shares := true } : Touch) s
    (execCellSend slice s) := by
  unfold execCellSend
  (try dsimp only)
  repeat' first
    | with_reducible (first | exact OutFrame.fault _ _ | apply OutFrame.next)
    | ((with_reducible show Touch.or _ _ = _) <;> rfl)
    | with_reducible (first
        | exact Frame.refl | apply State.bumpFab_frame | apply State.sendNext_frame | apply State.startMulti_frame
        | apply State.bumpFabAt_frame)
    | (with_reducible refine Frame.ite (fun _ => ?_) (fun _ => ?_)) | split

theorem State.setPlane_frame {wt : Touch} {s0 s : State} (hw : 
    ({ planes := true, evt := true, telCtr := true, healthGen := true, irq := true, out := true } : Touch).or wt = wt)
    (hK : Frame wt s0 s) (p : Nat) (f : Plane → Plane) : Frame wt s0 (State.setPlane s p f) := by
  refine Frame.step hK hw ?_
  unfold State.setPlane
  (try dsimp only)
  repeat' first
    | ((with_reducible show Touch.or _ _ = _) <;> rfl)
    | with_reducible (first | exact Frame.refl | apply State.healthIf_frame | apply State.updPlane_frame)

theorem State.failPlane_frame {wt : Touch} {s0 s : State} (hw : 
    ({ planes := true, links := true, evt := true, telCtr := true, healthGen := true, repairLog := true,
       irq := true, out := true } : Touch).or wt = wt)
    (hK : Frame wt s0 s) (p : Nat) (cause : Nat) : Frame wt s0 (State.failPlane s p cause) := by
  refine Frame.step hK hw ?_
  unfold State.failPlane
  (try dsimp only)
  repeat' first
    | ((with_reducible show Touch.or _ _ = _) <;> rfl)
    | with_reducible (first
        | exact Frame.refl | apply State.raise_frame | apply State.raiseIf_frame | apply State.repairAdd_frame
        | apply State.setPlane_frame | apply State.updPlane_frame)
    | (intro _ hF; skip) | with_reducible assumption | (with_reducible refine Frame.ite (fun _ => ?_) (fun _ => ?_))
    | split | fail_if_no_progress ((with_reducible apply Frame.fields); (case hq => rfl); (case hc => rfl))

theorem execPlaneFault_frame (plane : Nat) (cause : Nat) (s : State) : OutFrame 
    ({ planes := true, links := true, evt := true, telCtr := true, healthGen := true, repairLog := true,
       irq := true, out := true } : Touch) s (execPlaneFault plane cause s) := by
  unfold execPlaneFault
  (try dsimp only)
  repeat' first
    | with_reducible (first | exact OutFrame.fault _ _ | apply OutFrame.next)
    | ((with_reducible show Touch.or _ _ = _) <;> rfl)
    | with_reducible (first | exact Frame.refl | apply State.failPlane_frame)
    | (with_reducible refine Frame.ite (fun _ => ?_) (fun _ => ?_)) | split

theorem State.planeJoin_frame {wt : Touch} {s0 s : State} (hw : 
    ({ planes := true, fabCtr := true, evt := true, telCtr := true, healthGen := true, irq := true, out := true } :
    Touch).or wt = wt)
    (hK : Frame wt s0 s) (p : Nat) : Frame wt s0 (State.planeJoin s p) := by
  refine Frame.step hK hw ?_
  unfold State.planeJoin
  (try dsimp only)
  repeat' first
    | ((with_reducible show Touch.or _ _ = _) <;> rfl)
    | with_reducible (first
        | exact Frame.refl | apply State.bumpFab_frame | apply State.raise_frame | apply State.setPlane_frame)
    | (intro _ hF; skip)

theorem execPlaneSwitchoverDone_frame (s : State) : OutFrame 
    ({ planes := true, fabCtr := true, evt := true, telCtr := true, healthGen := true, irq := true, out := true } :
    Touch) s (execPlaneSwitchoverDone s) := by
  unfold execPlaneSwitchoverDone
  (try dsimp only)
  repeat' first
    | with_reducible (first | exact OutFrame.fault _ _ | apply OutFrame.next)
    | ((with_reducible show Touch.or _ _ = _) <;> rfl)
    | with_reducible (first | exact Frame.refl | apply State.planeJoin_frame) | (intro _ hF; skip)
    | with_reducible assumption | split

theorem execStandbyTestLoss_frame (plane : Nat) (s : State) : OutFrame 
    ({ planes := true, fabCtr := true, evt := true, telCtr := true, healthGen := true, repairLog := true,
       irq := true, out := true } : Touch) s (execStandbyTestLoss plane s) := by
  unfold execStandbyTestLoss
  (try dsimp only)
  repeat' first
    | with_reducible (first | exact OutFrame.fault _ _ | apply OutFrame.next)
    | ((with_reducible show Touch.or _ _ = _) <;> rfl)
    | with_reducible (first
        | exact Frame.refl | apply State.bumpFab_frame | apply State.raise_frame | apply State.repairAdd_frame
        | apply State.setPlane_frame | apply State.updPlane_frame)
    | (intro _ hF; skip) | with_reducible assumption | (with_reducible refine Frame.ite (fun _ => ?_) (fun _ => ?_))
    | split

theorem execPlaneResyncDone_frame (plane : Nat) (pass : Bool) (s : State) : OutFrame 
    ({ pools := true, bufCtr := true, planes := true, waitTx := true, evt := true, telCtr := true,
       portCtr := true, mbxCtr := true, boxes := true, jobs := true, hist := true, peers := true,
       msgs := true, healthGen := true, repairLog := true, irq := true, out := true } : Touch) s (execPlaneResyncDone plane pass s) := by
  unfold execPlaneResyncDone
  (try dsimp only)
  repeat' first
    | with_reducible (first | exact OutFrame.fault _ _ | apply OutFrame.next)
    | ((with_reducible show Touch.or _ _ = _) <;> rfl)
    | with_reducible (first
        | exact Frame.refl | apply State.complete_frame | apply State.repairDel_frame | apply State.setPlane_frame)
    | (intro _ hF; skip) | with_reducible assumption | (with_reducible refine Frame.ite (fun _ => ?_) (fun _ => ?_))
    | split

theorem State.mapLinks_frame {wt : Touch} {s0 s : State} (hw : 
    ({ links := true } : Touch).or wt = wt)
    (hK : Frame wt s0 s) (f : LinkCell → Bool) (g : LinkCell → List LinkCell) : Frame wt s0 (State.mapLinks s f g) :=
  hK.step hw (.ofView rfl)

theorem execCellArrived_frame (link : Nat) (crcOk : Bool) (s : State) : OutFrame 
    ({ fwdCtr := true, bufCtr := true, pkts := true, nextPkt := true, pairs := true, fabPorts := true,
       links := true, fabCtr := true, nodes := true, egq := true, schedCtr := true, mirrors := true,
       cand := true, mirQ := true, mirCtr := true, telCtr := true, dropCtr := true, portCtr := true,
       prismCtr := true, timeCtr := true, shares := true, free := true } : Touch) s (execCellArrived link crcOk s) := by
  unfold execCellArrived
  (try dsimp only)
  repeat' first
    | with_reducible (first | exact OutFrame.fault _ _ | apply OutFrame.next)
    | ((with_reducible show Touch.or _ _ = _) <;> rfl)
    | with_reducible (first | exact Frame.refl | apply State.mapLinks_frame | apply State.reseq_frame)
    | (with_reducible refine Frame.foldl _ (fun _ _ hF => ?_) _ ?_)
    | (intro _ hF; skip) | with_reducible assumption
    | (with_reducible refine Frame.ite (fun _ => ?_) (fun _ => ?_)) | split
    | fail_if_no_progress ((with_reducible apply Frame.fields); (case hq => rfl); (case hc => rfl))

theorem State.giveUp_frame {wt : Touch} {s0 s : State} (hw : 
    ({ planes := true, links := true, fabCtr := true, evt := true, telCtr := true, shares := true,
       rate := true, healthGen := true, repairLog := true, irq := true, out := true } : Touch).or wt = wt)
    (hK : Frame wt s0 s) (link : Nat) : Frame wt s0 (State.giveUp s link) := by
  refine Frame.step hK hw ?_
  unfold State.giveUp
  (try dsimp only)
  repeat' first
    | ((with_reducible show Touch.or _ _ = _) <;> rfl)
    | with_reducible (first
        | exact Frame.refl | apply State.bumpFab_frame | apply State.failPlane_frame
        | apply State.raiseLimited_frame | apply State.updPlane_frame | apply State.bumpFabAt_frame)
    | (intro _ hF; skip) | with_reducible assumption | (with_reducible refine Frame.ite (fun _ => ?_) (fun _ => ?_))

theorem State.resend_frame {wt : Touch} {s0 s : State} (hw : 
    ({ planes := true, links := true, fabCtr := true, evt := true, telCtr := true, shares := true,
       rate := true, healthGen := true, repairLog := true, irq := true, out := true } : Touch).or wt = wt)
    (hK : Frame wt s0 s) (link : Nat) (f : LinkCell → Bool) : Frame wt s0 (State.resend s link f) := by
  refine Frame.step hK hw ?_
  unfold State.resend
  (try dsimp only)
  repeat' first
    | ((with_reducible show Touch.or _ _ = _) <;> rfl)
    | with_reducible (first
        | exact Frame.refl | apply State.bumpFab_frame | apply State.giveUp_frame | apply State.mapLinks_frame
        | apply State.bumpFabAt_frame)
    | (intro _ hF; skip) | with_reducible assumption | (with_reducible refine Frame.ite (fun _ => ?_) (fun _ => ?_))
    | split

theorem execLinkNakReceived_frame (link : Nat) (s : State) : OutFrame 
    ({ planes := true, links := true, fabCtr := true, evt := true, telCtr := true, shares := true,
       rate := true, healthGen := true, repairLog := true, irq := true, out := true } : Touch) s (execLinkNakReceived link s) := by
  unfold execLinkNakReceived
  (try dsimp only)
  repeat' first
    | with_reducible (first | exact OutFrame.fault _ _ | apply OutFrame.next)
    | ((with_reducible show Touch.or _ _ = _) <;> rfl)
    | with_reducible (first | exact Frame.refl | apply State.resend_frame) | (intro _ hF; skip)
    | with_reducible assumption | (with_reducible refine Frame.ite (fun _ => ?_) (fun _ => ?_)) | split

theorem execLinkAckTimeout_frame (link : Nat) (s : State) : OutFrame 
    ({ planes := true, links := true, fabCtr := true, evt := true, telCtr := true, shares := true,
       rate := true, healthGen := true, repairLog := true, irq := true, out := true } : Touch) s (execLinkAckTimeout link s) := by
  unfold execLinkAckTimeout
  (try dsimp only)
  repeat' first
    | with_reducible (first | exact OutFrame.fault _ _ | apply OutFrame.next)
    | ((with_reducible show Touch.or _ _ = _) <;> rfl)
    | with_reducible (first | exact Frame.refl | apply State.resend_frame) | (intro _ hF; skip)
    | with_reducible assumption | (with_reducible refine Frame.ite (fun _ => ?_) (fun _ => ?_)) | split

theorem State.gapDrop_frame {wt : Touch} {s0 s : State} (hw : 
    ({ fwdCtr := true, bufCtr := true, pkts := true, nextPkt := true, pairs := true, fabPorts := true,
       fabCtr := true, nodes := true, egq := true, schedCtr := true, mirrors := true, cand := true,
       mirQ := true, mirCtr := true, telCtr := true, dropCtr := true, portCtr := true, prismCtr := true,
       timeCtr := true, shares := true, free := true } : Touch).or wt = wt)
    (hK : Frame wt s0 s) (dst : Nat) (c : Cell) : Frame wt s0 (State.gapDrop s dst c) := by
  refine Frame.step hK hw ?_
  unfold State.gapDrop
  (try dsimp only)
  repeat' first
    | ((with_reducible show Touch.or _ _ = _) <;> rfl)
    | with_reducible (first
        | exact Frame.refl | apply State.countDrop_frame | apply State.egLeave_frame | apply State.matchCredit_frame
        | apply State.setEgq_frame)
    | (with_reducible refine Frame.foldl _ (fun _ _ hF => ?_) _ ?_) | (intro _ hF; skip) | with_reducible assumption
    | (with_reducible refine Frame.ite (fun _ => ?_) (fun _ => ?_)) | split

theorem State.gapSkip_frame {wt : Touch} {s0 s : State} (hw : 
    ({ fwdCtr := true, bufCtr := true, pkts := true, nextPkt := true, pairs := true, fabPorts := true,
       fabCtr := true, nodes := true, egq := true, schedCtr := true, mirrors := true, cand := true,
       mirQ := true, mirCtr := true, telCtr := true, dropCtr := true, portCtr := true, prismCtr := true,
       timeCtr := true, shares := true, free := true } : Touch).or
    wt = wt)
    (hK : Frame wt s0 s) (src : Nat) (dst : Nat) : Frame wt s0 (State.gapSkip s src dst) := by
  refine Frame.step hK hw ?_
  unfold State.gapSkip
  (try dsimp only)
  repeat' first
    | ((with_reducible show Touch.or _ _ = _) <;> rfl)
    | with_reducible (first
        | exact Frame.refl | apply State.credit_frame | apply State.gapDrop_frame | apply State.reseqGap_frame
        | apply State.reseqRelease_frame | apply State.updPair_frame)
    | (with_reducible refine Frame.foldl _ (fun _ _ hF => ?_) _ ?_) | (intro _ hF; skip) | with_reducible assumption

theorem execGapTimeout_frame (src : Nat) (dst : Nat) (s : State) : OutFrame 
    ({ fwdCtr := true, bufCtr := true, pkts := true, nextPkt := true, pairs := true, fabPorts := true,
       fabCtr := true, nodes := true, egq := true, schedCtr := true, evt := true, mirrors := true,
       cand := true, mirQ := true, mirCtr := true, telCtr := true, dropCtr := true, portCtr := true,
       prismCtr := true, timeCtr := true, shares := true, rate := true, irq := true, out := true,
       free := true } : Touch) s (execGapTimeout src dst s) := by
  unfold execGapTimeout
  (try dsimp only)
  repeat' first
    | with_reducible (first | exact OutFrame.fault _ _ | apply OutFrame.next)
    | ((with_reducible show Touch.or _ _ = _) <;> rfl)
    | with_reducible (first
        | exact Frame.refl | apply State.bumpFab_frame | apply State.gapSkip_frame | apply State.raiseLimited_frame
        | apply State.bumpFabAt_frame)
    | (with_reducible refine Frame.ite (fun _ => ?_) (fun _ => ?_)) | split

theorem execReleaseCreditReceived_frame (src : Nat) (dst : Nat) (s : State) : OutFrame 
    ({ lanes := true, ports := true, prismFlight := true, hits := true, recirc := true, merge := true,
       fwdFlight := true, em := true, learnQ := true, fwdCtr := true, cells := true, portClass := true,
       queues := true, spillVoqs := true, lfsr := true, bufCtr := true, pkts := true, nextPkt := true,
       voqs := true, multiQ := true, pairs := true, links := true, arb := true, fabCtr := true,
       pol := true, schedCtr := true, frer := true, cores := true, flows := true, fix := true,
       fixCtr := true, targets := true, drops := true, notices := true, proofCtr := true, evt := true,
       mirrors := true, cand := true, mirQ := true, mirCtr := true, telCtr := true, dropCtr := true,
       portCtr := true, prismCtr := true, timeCtr := true, redCtr := true, frerCtr := true, shares := true,
       rate := true, healthGen := true, irq := true, fifos := true, out := true, free := true } : Touch) s (execReleaseCreditReceived src dst s) := by
  unfold execReleaseCreditReceived
  (try dsimp only)
  repeat' first
    | with_reducible (first | exact OutFrame.fault _ _ | apply OutFrame.next)
    | ((with_reducible show Touch.or _ _ = _) <;> rfl)
    | with_reducible (first | exact Frame.refl | apply State.hostInAll_frame | apply State.takeCredits_frame)
    | (with_reducible refine Frame.ite (fun _ => ?_) (fun _ => ?_)) | split

theorem applyFabSetParams_frame {wt : Touch} {s0 s : State} (hw : 
    ({ fabParams := true } : Touch).or wt = wt)
    (hK : Frame wt s0 s) (p : List Byte) : Frame wt s0 (applyFabSetParams p s) :=
  hK.step hw (.ofView rfl)

theorem fabSetParamsBody_frame {wt : Touch} {s0 s : State} (hw : 
    ({ fabParams := true, sets := true, snapshot := true, heldShadow := true } : Touch).or wt = wt)
    (hK : Frame wt s0 s) (r : Req) : Frame wt s0 (fabSetParamsBody r s).1 := by
  refine Frame.step hK hw ?_
  unfold fabSetParamsBody
  (try dsimp only)
  repeat' first
    | ((with_reducible show Touch.or _ _ = _) <;> rfl) | with_reducible exact Frame.refl
    | exact setCmd_frame rfl (fun p _ => applyFabSetParams_frame rfl .refl p) r _

theorem applyFabSetPort_frame {wt : Touch} {s0 s : State} (hw : 
    ({ fabPorts := true } : Touch).or wt = wt)
    (hK : Frame wt s0 s) (p : List Byte) : Frame wt s0 (applyFabSetPort p s) := by
  refine Frame.step hK hw ?_
  unfold applyFabSetPort
  (try dsimp only)
  repeat' first
    | ((with_reducible show Touch.or _ _ = _) <;> rfl)
    | with_reducible (first | exact Frame.refl | apply State.updFabPort_frame)
    | (with_reducible refine Frame.foldl _ (fun _ _ hF => ?_) _ ?_) | (intro _ hF; skip) | with_reducible assumption

theorem fabSetPortBody_frame {wt : Touch} {s0 s : State} (hw : 
    ({ fabPorts := true, sets := true, snapshot := true, heldShadow := true } : Touch).or wt = wt)
    (hK : Frame wt s0 s) (r : Req) : Frame wt s0 (fabSetPortBody r s).1 := by
  refine Frame.step hK hw ?_
  unfold fabSetPortBody
  (try dsimp only)
  repeat' first
    | ((with_reducible show Touch.or _ _ = _) <;> rfl) | with_reducible exact Frame.refl
    | exact setCmd_frame rfl (fun p _ => applyFabSetPort_frame rfl .refl p) r _

theorem fabGetStatusBody_frame {wt : Touch} {s0 s : State} (hw : ({} : Touch).or wt = wt)
    (hK : Frame wt s0 s) (r : Req) : Frame wt s0 (fabGetStatusBody r s).1 := by
  refine Frame.step hK hw ?_
  unfold fabGetStatusBody
  (try dsimp only)
  repeat' first
    | ((with_reducible show Touch.or _ _ = _) <;> rfl)
    | with_reducible (first | exact Frame.refl | apply readCmd_frame) | (intro _ hF; skip)

theorem fabGetPairBody_frame {wt : Touch} {s0 s : State} (hw : ({} : Touch).or wt = wt)
    (hK : Frame wt s0 s) (r : Req) : Frame wt s0 (fabGetPairBody r s).1 := by
  refine Frame.step hK hw ?_
  unfold fabGetPairBody
  (try dsimp only)
  repeat' first
    | ((with_reducible show Touch.or _ _ = _) <;> rfl)
    | with_reducible (first | exact Frame.refl | apply readCmd_frame) | (intro _ hF; skip)
    | (with_reducible refine Frame.ite (fun _ => ?_) (fun _ => ?_))

theorem fabSetPlaneBody_frame {wt : Touch} {s0 s : State} (hw : 
    ({ planes := true, links := true, evt := true, telCtr := true, healthGen := true, repairLog := true,
       irq := true, out := true } : Touch).or wt = wt)
    (hK : Frame wt s0 s) (r : Req) : Frame wt s0 (fabSetPlaneBody r s).1 := by
  refine Frame.step hK hw ?_
  unfold fabSetPlaneBody
  (try dsimp only)
  repeat' first
    | ((with_reducible show Touch.or _ _ = _) <;> rfl)
    | with_reducible (first
        | exact Frame.refl | apply errCmd_frame | apply State.failPlane_frame | apply okCmd_frame
        | apply State.setPlane_frame)
    | (intro _ hF; skip) | with_reducible assumption | (with_reducible refine Frame.ite (fun _ => ?_) (fun _ => ?_))
    | split

theorem fabGetCountersBody_frame {wt : Touch} {s0 s : State} (hw : ({} : Touch).or wt = wt)
    (hK : Frame wt s0 s) (r : Req) : Frame wt s0 (fabGetCountersBody r s).1 := by
  refine Frame.step hK hw ?_
  unfold fabGetCountersBody
  (try dsimp only)
  repeat' first
    | ((with_reducible show Touch.or _ _ = _) <;> rfl)
    | with_reducible (first | exact Frame.refl | apply readCmd_frame) | (intro _ hF; skip)

theorem execFabSetParams_frame (r : Req) (s : State) : OutFrame 
    ({ pools := true, bufCtr := true, fabParams := true, waitTx := true, evt := true, telCtr := true,
       portCtr := true, mbxCtr := true, boxes := true, jobs := true, hist := true, sets := true,
       snapshot := true, heldShadow := true, peers := true, msgs := true, irq := true,
       out := true } : Touch) s (execFabSetParams r s) := 
  mailboxCommand_frame rfl (fun _ => fabSetParamsBody_frame rfl .refl r)

theorem execFabSetPort_frame (r : Req) (s : State) : OutFrame 
    ({ pools := true, bufCtr := true, fabPorts := true, waitTx := true, evt := true, telCtr := true,
       portCtr := true, mbxCtr := true, boxes := true, jobs := true, hist := true, sets := true,
       snapshot := true, heldShadow := true, peers := true, msgs := true, irq := true,
       out := true } : Touch) s (execFabSetPort r s) := 
  mailboxCommand_frame rfl (fun _ => fabSetPortBody_frame rfl .refl r)

theorem execFabGetStatus_frame (r : Req) (s : State) : OutFrame 
    ({ pools := true, bufCtr := true, waitTx := true, evt := true, telCtr := true, portCtr := true,
       mbxCtr := true, boxes := true, jobs := true, hist := true, peers := true, msgs := true, irq := true,
       out := true } : Touch) s (execFabGetStatus r s) := 
  mailboxCommand_frame rfl (fun _ => fabGetStatusBody_frame rfl .refl r)

theorem execFabGetPair_frame (r : Req) (s : State) : OutFrame 
    ({ pools := true, bufCtr := true, waitTx := true, evt := true, telCtr := true, portCtr := true,
       mbxCtr := true, boxes := true, jobs := true, hist := true, peers := true, msgs := true, irq := true,
       out := true } : Touch) s (execFabGetPair r s) := 
  mailboxCommand_frame rfl (fun _ => fabGetPairBody_frame rfl .refl r)

theorem execFabSetPlane_frame (r : Req) (s : State) : OutFrame 
    ({ pools := true, bufCtr := true, planes := true, links := true, waitTx := true, evt := true,
       telCtr := true, portCtr := true, mbxCtr := true, boxes := true, jobs := true, hist := true,
       peers := true, msgs := true, healthGen := true, repairLog := true, irq := true,
       out := true } : Touch) s (execFabSetPlane r s) := 
  mailboxCommand_frame rfl (fun _ => fabSetPlaneBody_frame rfl .refl r)

theorem execFabGetCounters_frame (r : Req) (s : State) : OutFrame 
    ({ pools := true, bufCtr := true, waitTx := true, evt := true, telCtr := true, portCtr := true,
       mbxCtr := true, boxes := true, jobs := true, hist := true, peers := true, msgs := true, irq := true,
       out := true } : Touch) s (execFabGetCounters r s) := 
  mailboxCommand_frame rfl (fun _ => fabGetCountersBody_frame rfl .refl r)

end Sys2Proof.Machine
end

