-- ==== Sys2Proof/Laws/FrameAccess.lean ====
section
/-! SUPPORT. What the operations of Access may change. -/

set_option Elab.async false
set_option linter.all false

namespace Sys2Proof.Machine

theorem State.reservedAccess_frame {wt : Touch} {s0 s : State} (hw : 
    ({ evt := true, telCtr := true, irq := true, out := true } : Touch).or wt = wt)
    (hK : Frame wt s0 s) (off : Nat) (size : Nat) : Frame wt s0 (State.reservedAccess s off size) := by
  refine Frame.step hK hw ?_
  unfold State.reservedAccess
  (try dsimp only)
  repeat' first
    | ((with_reducible show Touch.or _ _ = _) <;> rfl)
    | with_reducible (first | exact Frame.refl | apply State.raise_frame)

end Sys2Proof.Machine
end

