-- ==== Sys2Proof/Laws/FrameTime.lean ====
section
/-! SUPPORT. What the operations of Time may change. -/

set_option Elab.async false
set_option linter.all false

namespace Sys2Proof.Machine

theorem State.updTime_frame {wt : Touch} {s0 s : State} (hw : 
    ({ time := true } : Touch).or wt = wt)
    (hK : Frame wt s0 s) (f : TimeBase → TimeBase) : Frame wt s0 (State.updTime s f) :=
  hK.step hw (.ofView rfl)

theorem State.setTimeState_frame {wt : Touch} {s0 s : State} (hw : 
    ({ time := true, evt := true, telCtr := true, irq := true, out := true } : Touch).or wt = wt)
    (hK : Frame wt s0 s) (x : TbState) : Frame wt s0 (State.setTimeState s x) := by
  refine Frame.step hK hw ?_
  unfold State.setTimeState
  (try dsimp only)
  repeat' first
    | ((with_reducible show Touch.or _ _ = _) <;> rfl)
    | with_reducible (first | exact Frame.refl | apply State.raise_frame | apply State.updTime_frame)
    | (intro _ hF; skip) | with_reducible assumption | (with_reducible refine Frame.ite (fun _ => ?_) (fun _ => ?_))

theorem State.sourceLost_frame {wt : Touch} {s0 s : State} (hw : 
    ({ time := true, evt := true, telCtr := true, irq := true, out := true } : Touch).or wt = wt)
    (hK : Frame wt s0 s) : Frame wt s0 (State.sourceLost s) := by
  refine Frame.step hK hw ?_
  unfold State.sourceLost
  (try dsimp only)
  repeat' first
    | ((with_reducible show Touch.or _ _ = _) <;> rfl)
    | with_reducible (first | exact Frame.refl | apply State.setTimeState_frame | apply State.updTime_frame)
    | (intro _ hF; skip) | with_reducible assumption | (with_reducible refine Frame.ite (fun _ => ?_) (fun _ => ?_))

theorem execTimeCapture_frame (fn : Nat) (s : State) : OutFrame 
    ({ time := true, evt := true, telCtr := true, irq := true, out := true } : Touch) s (execTimeCapture fn s) := by
  unfold execTimeCapture
  (try dsimp only [onRegister])
  repeat' first
    | with_reducible (first | exact OutFrame.fault _ _ | apply OutFrame.next)
    | ((with_reducible show Touch.or _ _ = _) <;> rfl)
    | with_reducible (first | exact Frame.refl | apply State.reservedAccess_frame | apply State.updTime_frame)
    | (intro _ hF; skip) | with_reducible assumption | split

theorem execTxtsPop_frame (fn : Nat) (slice : Nat) (s : State) : OutFrame 
    ({ tsFifos := true, evt := true, telCtr := true, irq := true, out := true } : Touch) s (execTxtsPop fn slice s) :=
    by
  unfold execTxtsPop
  (try dsimp only [onRegister])
  repeat' first
    | with_reducible (first | exact OutFrame.fault _ _ | apply OutFrame.next)
    | ((with_reducible show Touch.or _ _ = _) <;> rfl)
    | with_reducible (first | exact Frame.refl | apply State.reservedAccess_frame | apply State.updTsFifo_frame)
    | (intro _ hF; skip) | with_reducible assumption | (with_reducible refine Frame.ite (fun _ => ?_) (fun _ => ?_))
    | split

theorem State.relayEntry_frame {wt : Touch} {s0 s : State} (hw : 
    ({ ports := true, waitTx := true, evt := true, telCtr := true, portCtr := true, irq := true,
       out := true, free := true } : Touch).or wt = wt)
    (hK : Frame wt s0 s) (e : TsEntry) : Frame wt s0 (State.relayEntry s e) := by
  refine Frame.step hK hw ?_
  unfold State.relayEntry
  (try dsimp only)
  repeat' first
    | ((with_reducible show Touch.or _ _ = _) <;> rfl)
    | with_reducible (first | exact Frame.refl | apply State.raise_frame | apply State.ptpSent_frame)
    | (with_reducible refine Frame.ite (fun _ => ?_) (fun _ => ?_))

theorem execTsFifoRelay_frame (slice : Nat) (s : State) : OutFrame 
    ({ tsFifos := true, ports := true, waitTx := true, evt := true, telCtr := true, portCtr := true,
       irq := true, out := true, free := true } : Touch) s (execTsFifoRelay slice s)
    := by
  unfold execTsFifoRelay
  (try dsimp only)
  repeat' first
    | with_reducible (first | exact OutFrame.fault _ _ | apply OutFrame.next)
    | ((with_reducible show Touch.or _ _ = _) <;> rfl)
    | with_reducible (first | exact Frame.refl | apply State.relayEntry_frame | apply State.updTsFifo_frame)
    | (with_reducible refine Frame.foldl _ (fun _ _ hF => ?_) _ ?_) | (intro _ hF; skip) | with_reducible assumption
    | (with_reducible refine Frame.ite (fun _ => ?_) (fun _ => ?_)) | split

theorem execPpsInTimeout_frame (s : State) : OutFrame 
    ({ time := true, evt := true, telCtr := true, irq := true, out := true } : Touch) s (execPpsInTimeout s) := by
  unfold execPpsInTimeout
  (try dsimp only)
  repeat' first
    | with_reducible (first | exact OutFrame.fault _ _ | apply OutFrame.next)
    | ((with_reducible show Touch.or _ _ = _) <;> rfl)
    | with_reducible (first
        | exact Frame.refl | apply State.raise_frame | apply State.sourceLost_frame | apply State.updTime_frame)
    | (intro _ hF; skip) | with_reducible assumption | (with_reducible refine Frame.ite (fun _ => ?_) (fun _ => ?_))

theorem execPpsOutEdge_frame (s : State) : OutFrame 
    ({ time := true } : Touch) s (execPpsOutEdge s) := by
  unfold execPpsOutEdge
  (try dsimp only)
  repeat' first
    | with_reducible (first | exact OutFrame.fault _ _ | apply OutFrame.next)
    | ((with_reducible show Touch.or _ _ = _) <;> rfl)
    | with_reducible (first | exact Frame.refl | apply State.updTime_frame) | (intro _ hF; skip)

theorem execPpsOutFall_frame (s : State) : OutFrame 
    ({ time := true } : Touch) s (execPpsOutFall s) := by
  unfold execPpsOutFall
  (try dsimp only)
  repeat' first
    | with_reducible (first | exact OutFrame.fault _ _ | apply OutFrame.next)
    | ((with_reducible show Touch.or _ _ = _) <;> rfl)
    | with_reducible (first | exact Frame.refl | apply State.updTime_frame) | (intro _ hF; skip)

theorem execTimeSlewComplete_frame (s : State) : OutFrame 
    ({ time := true } : Touch) s (execTimeSlewComplete s) := by
  unfold execTimeSlewComplete
  (try dsimp only)
  repeat' first
    | with_reducible (first | exact OutFrame.fault _ _ | apply OutFrame.next)
    | ((with_reducible show Touch.or _ _ = _) <;> rfl)
    | with_reducible (first | exact Frame.refl | apply State.updTime_frame) | (intro _ hF; skip)

theorem State.dropParent_frame {wt : Touch} {s0 s : State} (hw :
    ({ ports := true } : Touch).or wt = wt)
    (hK : Frame wt s0 s)  :
    Frame wt s0 (State.dropParent s) := by
  refine Frame.step hK hw ?_
  unfold State.dropParent
  (try dsimp only)
  repeat' first
    | ((with_reducible show Touch.or _ _ = _) <;> rfl)
    | with_reducible (first | exact Frame.refl | apply State.updPtp_frame)
    | (with_reducible refine Frame.foldl _ (fun _ _ hF => ?_) _ ?_)
    | (intro _ hF; skip) | with_reducible assumption
    | (with_reducible refine Frame.ite (fun _ => ?_) (fun _ => ?_)) | split
    | fail_if_no_progress ((with_reducible apply Frame.fields); (case hq => rfl); (case hc => rfl))

theorem execPtpAnnounceTimeout_frame (s : State) : OutFrame 
    ({ time := true, ports := true, evt := true, telCtr := true, irq := true, out := true } : Touch) s (execPtpAnnounceTimeout s) :=
    by
  unfold execPtpAnnounceTimeout
  (try dsimp only)
  repeat' first
    | with_reducible (first | exact OutFrame.fault _ _ | apply OutFrame.next)
    | ((with_reducible show Touch.or _ _ = _) <;> rfl)
    | with_reducible (first | exact Frame.refl | apply State.sourceLost_frame | apply State.dropParent_frame)
    | (with_reducible refine Frame.ite (fun _ => ?_) (fun _ => ?_))

theorem execGateEvent_frame (port : Nat) (s : State) : OutFrame 
    ({ gates := true } : Touch) s (execGateEvent port s) := by
  unfold execGateEvent
  (try dsimp only)
  repeat' first
    | with_reducible (first | exact OutFrame.fault _ _ | apply OutFrame.next)
    | ((with_reducible show Touch.or _ _ = _) <;> rfl)
    | with_reducible (first | exact Frame.refl | apply State.updGate_frame) | (intro _ hF; skip)
    | with_reducible assumption | (with_reducible refine Frame.ite (fun _ => ?_) (fun _ => ?_)) | split

theorem State.storeFreed_frame {wt : Touch} {s0 s : State} (hw :
    ({ pkts := true } : Touch).or wt = wt)
    (hK : Frame wt s0 s) (p : Nat) (g : GateList) :
    Frame wt s0 (State.storeFreed s p g) := by
  refine Frame.step hK hw ?_
  unfold State.storeFreed
  (try dsimp only)
  repeat' first
    | ((with_reducible show Touch.or _ _ = _) <;> rfl)
    | with_reducible exact Frame.refl
    | (with_reducible refine Frame.foldl _ (fun _ _ hF => ?_) _ ?_)
    | (intro _ hF; skip) | with_reducible assumption
    | (with_reducible refine Frame.ite (fun _ => ?_) (fun _ => ?_)) | split
    | fail_if_no_progress ((with_reducible apply Frame.fields); (case hq => rfl); (case hc => rfl))

theorem applyGateSetList_frame {wt : Touch} {s0 s : State} (hw : 
    ({ gates := true, ports := true, prismFlight := true, recirc := true, merge := true, fwdCtr := true,
       cells := true, portClass := true, queues := true, spillVoqs := true, bufCtr := true, pkts := true,
       nextPkt := true, voqs := true, multiQ := true, pairs := true, fabPorts := true, fabCtr := true,
       nodes := true, egq := true, schedCtr := true, evt := true, mirrors := true, cand := true,
       mirQ := true, mirCtr := true, telCtr := true, dropCtr := true, portCtr := true, prismCtr := true,
       timeCtr := true, shares := true, irq := true, out := true, free := true } : Touch).or wt = wt)
    (hK : Frame wt s0 s) (p : List Byte) : Frame wt s0 (applyGateSetList p s) := by
  refine Frame.step hK hw ?_
  unfold applyGateSetList
  (try dsimp only)
  repeat' first
    | ((with_reducible show Touch.or _ _ = _) <;> rfl)
    | with_reducible (first
        | exact Frame.refl | apply State.bumpTime_frame | apply State.gateReset_frame | apply State.updGate_frame
        | apply State.storeFreed_frame)
    | (intro _ hF; skip)

theorem gateSetListBody_frame {wt : Touch} {s0 s : State} (hw : 
    ({ gates := true, ports := true, prismFlight := true, recirc := true, merge := true, fwdCtr := true,
       cells := true, portClass := true, queues := true, spillVoqs := true, bufCtr := true, pkts := true,
       nextPkt := true, voqs := true, multiQ := true, pairs := true, fabPorts := true, fabCtr := true,
       nodes := true, egq := true, schedCtr := true, evt := true, mirrors := true, cand := true,
       mirQ := true, mirCtr := true, telCtr := true, dropCtr := true, portCtr := true, prismCtr := true,
       timeCtr := true, shares := true, sets := true, snapshot := true, heldShadow := true, irq := true,
       out := true, free := true } : Touch).or wt = wt)
    (hK : Frame wt s0 s) (r : Req) : Frame wt s0 (gateSetListBody r s).1 := by
  refine Frame.step hK hw ?_
  unfold gateSetListBody
  (try dsimp only)
  repeat' first
    | ((with_reducible show Touch.or _ _ = _) <;> rfl) | with_reducible exact Frame.refl
    | exact setCmd_frame rfl (fun p _ => applyGateSetList_frame rfl .refl p) r _

theorem gateGetStatusBody_frame {wt : Touch} {s0 s : State} (hw : ({} : Touch).or wt = wt)
    (hK : Frame wt s0 s) (r : Req) : Frame wt s0 (gateGetStatusBody r s).1 := by
  refine Frame.step hK hw ?_
  unfold gateGetStatusBody
  (try dsimp only)
  repeat' first
    | ((with_reducible show Touch.or _ _ = _) <;> rfl)
    | with_reducible (first | exact Frame.refl | apply readCmd_frame) | (intro _ hF; skip)
    | (with_reducible refine Frame.ite (fun _ => ?_) (fun _ => ?_))

theorem timeGetBody_frame {wt : Touch} {s0 s : State} (hw : ({} : Touch).or wt = wt)
    (hK : Frame wt s0 s) (r : Req) : Frame wt s0 (timeGetBody r s).1 := by
  refine Frame.step hK hw ?_
  unfold timeGetBody
  (try dsimp only)
  repeat' first
    | ((with_reducible show Touch.or _ _ = _) <;> rfl)
    | with_reducible (first | exact Frame.refl | apply readCmd_frame) | (intro _ hF; skip)

theorem applyTimeSetPtp_frame {wt : Touch} {s0 s : State} (hw : 
    ({ ptp := true } : Touch).or wt = wt)
    (hK : Frame wt s0 s) (p : List Byte) : Frame wt s0 (applyTimeSetPtp p s) :=
  hK.step hw (.ofView rfl)

theorem timeSetPtpBody_frame {wt : Touch} {s0 s : State} (hw : 
    ({ ptp := true, sets := true, snapshot := true, heldShadow := true } : Touch).or wt = wt)
    (hK : Frame wt s0 s) (r : Req) : Frame wt s0 (timeSetPtpBody r s).1 := by
  refine Frame.step hK hw ?_
  unfold timeSetPtpBody
  (try dsimp only)
  repeat' first
    | ((with_reducible show Touch.or _ _ = _) <;> rfl) | with_reducible exact Frame.refl
    | exact setCmd_frame rfl (fun p _ => applyTimeSetPtp_frame rfl .refl p) r _

theorem State.takeFifo_frame {wt : Touch} {s0 s : State} (hw : 
    ({ tsFifos := true } : Touch).or wt = wt)
    (hK : Frame wt s0 s) (before : Bool) (sl : Nat) : Frame wt s0 (State.takeFifo s before sl) := by
  refine Frame.step hK hw ?_
  unfold State.takeFifo
  (try dsimp only)
  repeat' first
    | ((with_reducible show Touch.or _ _ = _) <;> rfl)
    | with_reducible (first | exact Frame.refl | apply State.updTsFifo_frame) | (intro _ hF; skip)
    | with_reducible assumption | (with_reducible refine Frame.ite (fun _ => ?_) (fun _ => ?_))

theorem applyTimeSetPort_frame {wt : Touch} {s0 s : State} (hw : 
    ({ tsFifos := true, ports := true } : Touch).or wt = wt)
    (hK : Frame wt s0 s) (p : List Byte) : Frame wt s0 (applyTimeSetPort p s) := by
  refine Frame.step hK hw ?_
  unfold applyTimeSetPort
  (try dsimp only)
  repeat' first
    | ((with_reducible show Touch.or _ _ = _) <;> rfl)
    | with_reducible (first
        | exact Frame.refl | apply State.takeFifo_frame | apply State.updPort_frame | apply State.updPtp_frame)
    | (intro _ hF; skip)

theorem timeSetPortBody_frame {wt : Touch} {s0 s : State} (hw : 
    ({ tsFifos := true, ports := true, sets := true, snapshot := true, heldShadow := true } : Touch).or wt = wt)
    (hK : Frame wt s0 s) (r : Req) : Frame wt s0 (timeSetPortBody r s).1 := by
  refine Frame.step hK hw ?_
  unfold timeSetPortBody
  (try dsimp only)
  repeat' first
    | ((with_reducible show Touch.or _ _ = _) <;> rfl) | with_reducible exact Frame.refl
    | exact setCmd_frame rfl (fun p _ => applyTimeSetPort_frame rfl .refl p) r _

theorem applyTimeSetPps_frame {wt : Touch} {s0 s : State} (hw :
    ({ time := true } : Touch).or wt = wt)
    (hK : Frame wt s0 s) (p : List Byte) :
    Frame wt s0 (applyTimeSetPps p s) := by
  refine Frame.step hK hw ?_
  unfold applyTimeSetPps
  (try dsimp only)
  repeat' first
    | ((with_reducible show Touch.or _ _ = _) <;> rfl)
    | with_reducible (first | exact Frame.refl | apply State.updTime_frame)
    | (with_reducible refine Frame.foldl _ (fun _ _ hF => ?_) _ ?_)
    | (intro _ hF; skip) | with_reducible assumption
    | (with_reducible refine Frame.ite (fun _ => ?_) (fun _ => ?_)) | split
    | fail_if_no_progress ((with_reducible apply Frame.fields); (case hq => rfl); (case hc => rfl))

theorem timeSetPpsBody_frame {wt : Touch} {s0 s : State} (hw : 
    ({ time := true, sets := true, snapshot := true, heldShadow := true } : Touch).or wt = wt)
    (hK : Frame wt s0 s) (r : Req) : Frame wt s0 (timeSetPpsBody r s).1 := by
  refine Frame.step hK hw ?_
  unfold timeSetPpsBody
  (try dsimp only)
  repeat' first
    | ((with_reducible show Touch.or _ _ = _) <;> rfl) | with_reducible exact Frame.refl
    | exact setCmd_frame rfl (fun p _ => applyTimeSetPps_frame rfl .refl p) r _

theorem timeGetCountersBody_frame {wt : Touch} {s0 s : State} (hw : ({} : Touch).or wt = wt)
    (hK : Frame wt s0 s) (r : Req) : Frame wt s0 (timeGetCountersBody r s).1 := by
  refine Frame.step hK hw ?_
  unfold timeGetCountersBody
  (try dsimp only)
  repeat' first
    | ((with_reducible show Touch.or _ _ = _) <;> rfl)
    | with_reducible (first | exact Frame.refl | apply readCmd_frame) | (intro _ hF; skip)
    | (with_reducible refine Frame.ite (fun _ => ?_) (fun _ => ?_))

theorem execTimeGet_frame (r : Req) (s : State) : OutFrame 
    ({ pools := true, bufCtr := true, waitTx := true, evt := true, telCtr := true, portCtr := true,
       mbxCtr := true, boxes := true, jobs := true, hist := true, peers := true, msgs := true, irq := true,
       out := true } : Touch) s (execTimeGet r s) := 
  mailboxCommand_frame rfl (fun _ => timeGetBody_frame rfl .refl r)

theorem execTimeSetPtp_frame (r : Req) (s : State) : OutFrame 
    ({ ptp := true, pools := true, bufCtr := true, waitTx := true, evt := true, telCtr := true,
       portCtr := true, mbxCtr := true, boxes := true, jobs := true, hist := true, sets := true,
       snapshot := true, heldShadow := true, peers := true, msgs := true, irq := true,
       out := true } : Touch) s (execTimeSetPtp r s) := 
  mailboxCommand_frame rfl (fun _ => timeSetPtpBody_frame rfl .refl r)

theorem execTimeSetPort_frame (r : Req) (s : State) : OutFrame 
    ({ tsFifos := true, ports := true, pools := true, bufCtr := true, waitTx := true, evt := true,
       telCtr := true, portCtr := true, mbxCtr := true, boxes := true, jobs := true, hist := true,
       sets := true, snapshot := true, heldShadow := true, peers := true, msgs := true, irq := true,
       out := true } : Touch) s (execTimeSetPort r s) :=
  mailboxCommand_frame rfl (fun _ => timeSetPortBody_frame rfl .refl r)

theorem execTimeSetPps_frame (r : Req) (s : State) : OutFrame 
    ({ time := true, pools := true, bufCtr := true, waitTx := true, evt := true, telCtr := true,
       portCtr := true, mbxCtr := true, boxes := true, jobs := true, hist := true, sets := true,
       snapshot := true, heldShadow := true, peers := true, msgs := true, irq := true,
       out := true } : Touch) s (execTimeSetPps r s) := 
  mailboxCommand_frame rfl (fun _ => timeSetPpsBody_frame rfl .refl r)

theorem execGateSetList_frame (r : Req) (s : State) : OutFrame 
    ({ gates := true, ports := true, prismFlight := true, recirc := true, merge := true, fwdCtr := true,
       cells := true, portClass := true, queues := true, spillVoqs := true, pools := true, bufCtr := true,
       pkts := true, nextPkt := true, voqs := true, multiQ := true, pairs := true, fabPorts := true,
       fabCtr := true, nodes := true, egq := true, waitTx := true, schedCtr := true, evt := true,
       mirrors := true, cand := true, mirQ := true, mirCtr := true, telCtr := true, dropCtr := true,
       portCtr := true, prismCtr := true, timeCtr := true, mbxCtr := true, shares := true, boxes := true,
       jobs := true, hist := true, sets := true, snapshot := true, heldShadow := true, peers := true,
       msgs := true, irq := true, out := true, free := true } : Touch) s
    (execGateSetList r s) :=
  mailboxCommand_frame rfl (fun _ => gateSetListBody_frame rfl .refl r)

theorem execGateGetStatus_frame (r : Req) (s : State) : OutFrame 
    ({ pools := true, bufCtr := true, waitTx := true, evt := true, telCtr := true, portCtr := true,
       mbxCtr := true, boxes := true, jobs := true, hist := true, peers := true, msgs := true, irq := true,
       out := true } : Touch) s (execGateGetStatus r s) := 
  mailboxCommand_frame rfl (fun _ => gateGetStatusBody_frame rfl .refl r)

theorem execTimeGetCounters_frame (r : Req) (s : State) : OutFrame 
    ({ pools := true, bufCtr := true, waitTx := true, evt := true, telCtr := true, portCtr := true,
       mbxCtr := true, boxes := true, jobs := true, hist := true, peers := true, msgs := true, irq := true,
       out := true } : Touch) s (execTimeGetCounters r s) := 
  mailboxCommand_frame rfl (fun _ => timeGetCountersBody_frame rfl .refl r)

end Sys2Proof.Machine
end

