-- ==== Sys2Proof/Laws/FrameFrer.lean ====
section
/-! SUPPORT. What the operations of Frer may change. -/

set_option Elab.async false
set_option linter.all false

namespace Sys2Proof.Machine

theorem State.frerRewrite_frame {wt : Touch} {s0 s : State} (hw :
    ({ frer := true } : Touch).or wt = wt)
    (hK : Frame wt s0 s) (p : List Byte) (old : FrerCfg) :
    Frame wt s0 (State.frerRewrite s p old) := by
  refine Frame.step hK hw ?_
  unfold State.frerRewrite
  (try dsimp only)
  repeat' first
    | ((with_reducible show Touch.or _ _ = _) <;> rfl)
    | with_reducible (first | exact Frame.refl | apply State.updStream_frame)
    | (with_reducible refine Frame.foldl _ (fun _ _ hF => ?_) _ ?_)
    | (intro _ hF; skip) | with_reducible assumption
    | (with_reducible refine Frame.ite (fun _ => ?_) (fun _ => ?_)) | split
    | fail_if_no_progress ((with_reducible apply Frame.fields); (case hq => rfl); (case hc => rfl))

theorem applyFrerSetStream_frame {wt : Touch} {s0 s : State} (hw : 
    ({ gens := true, frer := true } : Touch).or wt = wt)
    (hK : Frame wt s0 s) (p : List Byte) : Frame wt s0 (applyFrerSetStream p s) := by
  refine Frame.step hK hw ?_
  unfold applyFrerSetStream
  (try dsimp only)
  repeat' first
    | ((with_reducible show Touch.or _ _ = _) <;> rfl)
    | with_reducible (first | exact Frame.refl | apply State.frerRewrite_frame | apply State.liveGen_frame)

theorem frerSetStreamBody_frame {wt : Touch} {s0 s : State} (hw : 
    ({ gens := true, frer := true, sets := true, snapshot := true, heldShadow := true } : Touch).or wt = wt)
    (hK : Frame wt s0 s) (r : Req) : Frame wt s0 (frerSetStreamBody r s).1 := by
  refine Frame.step hK hw ?_
  unfold frerSetStreamBody
  (try dsimp only)
  repeat' first
    | ((with_reducible show Touch.or _ _ = _) <;> rfl) | with_reducible exact Frame.refl
    | exact setCmd_frame rfl (fun p _ => applyFrerSetStream_frame rfl .refl p) r _

theorem frerGetStreamBody_frame {wt : Touch} {s0 s : State} (hw : ({} : Touch).or wt = wt)
    (hK : Frame wt s0 s) (r : Req) : Frame wt s0 (frerGetStreamBody r s).1 := by
  refine Frame.step hK hw ?_
  unfold frerGetStreamBody
  (try dsimp only)
  repeat' first
    | ((with_reducible show Touch.or _ _ = _) <;> rfl)
    | with_reducible (first | exact Frame.refl | apply readCmd_frame) | (intro _ hF; skip)

theorem applyFrerSetPort_frame {wt : Touch} {s0 s : State} (hw :
    ({ ports := true } : Touch).or wt = wt)
    (hK : Frame wt s0 s) (p : List Byte) :
    Frame wt s0 (applyFrerSetPort p s) := by
  refine Frame.step hK hw ?_
  unfold applyFrerSetPort
  (try dsimp only)
  repeat' first
    | ((with_reducible show Touch.or _ _ = _) <;> rfl)
    | with_reducible (first | exact Frame.refl | apply State.updPort_frame)
    | (with_reducible refine Frame.foldl _ (fun _ _ hF => ?_) _ ?_)
    | (intro _ hF; skip) | with_reducible assumption
    | (with_reducible refine Frame.ite (fun _ => ?_) (fun _ => ?_)) | split
    | fail_if_no_progress ((with_reducible apply Frame.fields); (case hq => rfl); (case hc => rfl))

theorem frerSetPortBody_frame {wt : Touch} {s0 s : State} (hw : 
    ({ ports := true, sets := true, snapshot := true, heldShadow := true } : Touch).or wt = wt)
    (hK : Frame wt s0 s) (r : Req) : Frame wt s0 (frerSetPortBody r s).1 := by
  refine Frame.step hK hw ?_
  unfold frerSetPortBody
  (try dsimp only)
  repeat' first
    | ((with_reducible show Touch.or _ _ = _) <;> rfl) | with_reducible exact Frame.refl
    | exact setCmd_frame rfl (fun p _ => applyFrerSetPort_frame rfl .refl p) r _

theorem frerResetStreamBody_frame {wt : Touch} {s0 s : State} (hw : 
    ({ frer := true } : Touch).or wt = wt)
    (hK : Frame wt s0 s) (r : Req) : Frame wt s0 (frerResetStreamBody r s).1 := by
  refine Frame.step hK hw ?_
  unfold frerResetStreamBody
  (try dsimp only)
  repeat' first
    | ((with_reducible show Touch.or _ _ = _) <;> rfl)
    | with_reducible (first | exact Frame.refl | apply errCmd_frame | apply okCmd_frame | apply State.updStream_frame)
    | (intro _ hF; skip) | with_reducible assumption | (with_reducible refine Frame.ite (fun _ => ?_) (fun _ => ?_))
    | split

theorem execFrerResetTimer_frame (stream : Nat) (s : State) : OutFrame 
    ({ frer := true, redCtr := true, frerCtr := true } : Touch) s (execFrerResetTimer stream s) := by
  unfold execFrerResetTimer
  (try dsimp only [onStream])
  repeat' first
    | with_reducible (first | exact OutFrame.fault _ _ | apply OutFrame.next)
    | ((with_reducible show Touch.or _ _ = _) <;> rfl)
    | with_reducible (first | exact Frame.refl | apply State.bumpStream_frame | apply State.updStream_frame)
    | (intro _ hF; skip) | with_reducible assumption | (with_reducible refine Frame.ite (fun _ => ?_) (fun _ => ?_))
    | split

theorem execFrerLatentTest_frame (stream : Nat) (s : State) : OutFrame 
    ({ evt := true, telCtr := true, redCtr := true, frerCtr := true, irq := true, out := true } : Touch) s
    (execFrerLatentTest stream s) := by
  unfold execFrerLatentTest
  (try dsimp only [onStream])
  repeat' first
    | with_reducible (first | exact OutFrame.fault _ _ | apply OutFrame.next)
    | ((with_reducible show Touch.or _ _ = _) <;> rfl)
    | with_reducible (first | exact Frame.refl | apply State.bumpStream_frame | apply State.raise_frame)
    | (with_reducible refine Frame.ite (fun _ => ?_) (fun _ => ?_)) | split

theorem execFrerLatentReset_frame (stream : Nat) (s : State) : OutFrame 
    ({ frer := true } : Touch) s (execFrerLatentReset stream s) := by
  unfold execFrerLatentReset
  (try dsimp only [onStream])
  repeat' first
    | with_reducible (first | exact OutFrame.fault _ _ | apply OutFrame.next)
    | ((with_reducible show Touch.or _ _ = _) <;> rfl)
    | with_reducible (first | exact Frame.refl | apply State.updStream_frame) | (intro _ hF; skip)
    | with_reducible assumption | split

theorem execFrerSetStream_frame (r : Req) (s : State) : OutFrame 
    ({ gens := true, pools := true, bufCtr := true, waitTx := true, frer := true, evt := true,
       telCtr := true, portCtr := true, mbxCtr := true, boxes := true, jobs := true, hist := true,
       sets := true, snapshot := true, heldShadow := true, peers := true, msgs := true, irq := true,
       out := true } : Touch) s (execFrerSetStream r s) := 
  mailboxCommand_frame rfl (fun _ => frerSetStreamBody_frame rfl .refl r)

theorem execFrerGetStream_frame (r : Req) (s : State) : OutFrame 
    ({ pools := true, bufCtr := true, waitTx := true, evt := true, telCtr := true, portCtr := true,
       mbxCtr := true, boxes := true, jobs := true, hist := true, peers := true, msgs := true, irq := true,
       out := true } : Touch) s (execFrerGetStream r s) := 
  mailboxCommand_frame rfl (fun _ => frerGetStreamBody_frame rfl .refl r)

theorem execFrerSetPort_frame (r : Req) (s : State) : OutFrame 
    ({ ports := true, pools := true, bufCtr := true, waitTx := true, evt := true, telCtr := true,
       portCtr := true, mbxCtr := true, boxes := true, jobs := true, hist := true, sets := true,
       snapshot := true, heldShadow := true, peers := true, msgs := true, irq := true,
       out := true } : Touch) s (execFrerSetPort r s) := 
  mailboxCommand_frame rfl (fun _ => frerSetPortBody_frame rfl .refl r)

theorem execFrerResetStream_frame (r : Req) (s : State) : OutFrame 
    ({ pools := true, bufCtr := true, waitTx := true, frer := true, evt := true, telCtr := true,
       portCtr := true, mbxCtr := true, boxes := true, jobs := true, hist := true, peers := true,
       msgs := true, irq := true, out := true } : Touch) s
    (execFrerResetStream r s) :=
  mailboxCommand_frame rfl (fun _ => frerResetStreamBody_frame rfl .refl r)

end Sys2Proof.Machine
end

