-- ==== Sys2Proof/Laws/FrameRedundancy.lean ====
section
/-! SUPPORT. What the operations of Redundancy may change. -/

set_option Elab.async false
set_option linter.all false

namespace Sys2Proof.Machine

theorem State.loseItem_frame {wt : Touch} {s0 s : State} (hw : 
    ({ cores := true, flows := true, fix := true, fixCtr := true, evt := true, telCtr := true, rate := true,
       irq := true, out := true } : Touch).or wt = wt)
    (hK : Frame wt s0 s) (c : Nat) (t : Tap) : Frame wt s0 (State.loseItem s c t) := by
  refine Frame.step hK hw ?_
  unfold State.loseItem
  (try dsimp only)
  repeat' first
    | ((with_reducible show Touch.or _ _ = _) <;> rfl)
    | with_reducible (first
        | exact Frame.refl | apply State.countCore_frame | apply State.endTap_frame | apply State.updFix_frame
        | apply State.writeRecord_frame)
    | (intro _ hF; skip) | with_reducible assumption | (with_reducible refine Frame.ite (fun _ => ?_) (fun _ => ?_))

theorem State.loseItems_frame {wt : Touch} {s0 s : State} (hw : 
    ({ cores := true, flows := true, fix := true, fixCtr := true, evt := true, telCtr := true, rate := true,
       irq := true, out := true } : Touch).or wt = wt)
    (hK : Frame wt s0 s) (c : Nat) (k : Nat) : Frame wt s0 (State.loseItems s c k) := by
  refine Frame.step hK hw ?_
  unfold State.loseItems
  (try dsimp only)
  repeat' first
    | ((with_reducible show Touch.or _ _ = _) <;> rfl)
    | with_reducible (first | exact Frame.refl | apply State.loseItem_frame)
    | (with_reducible refine Frame.foldl _ (fun _ _ hF => ?_) _ ?_) | (intro _ hF; skip) | with_reducible assumption

theorem State.coreFail_frame {wt : Touch} {s0 s : State} (hw : 
    ({ clusters := true, cores := true, flows := true, fix := true, fixCtr := true, evt := true,
       telCtr := true, rate := true, healthGen := true, repairLog := true, irq := true, out := true,
       free := true } : Touch).or wt =
    wt)
    (hK : Frame wt s0 s) (c : Nat) (k : Nat) : Frame wt s0 (State.coreFail s c k) := by
  refine Frame.step hK hw ?_
  unfold State.coreFail
  (try dsimp only)
  repeat' first
    | ((with_reducible show Touch.or _ _ = _) <;> rfl)
    | with_reducible (first
        | exact Frame.refl | apply State.healthChanged_frame | apply State.loseItems_frame
        | apply State.raiseIf_frame | apply State.ready_frame | apply State.repairAdd_frame
        | apply State.updCluster_frame | apply State.readCore_frame)
    | (intro _ hF; skip) | with_reducible assumption | split

theorem execCoreFailure_frame (cluster : Nat) (core : Nat) (s : State) : OutFrame 
    ({ clusters := true, cores := true, flows := true, fix := true, fixCtr := true, evt := true,
       telCtr := true, rate := true, healthGen := true, repairLog := true, irq := true, out := true,
       free := true } : Touch) s
    (execCoreFailure cluster core s) := by
  unfold execCoreFailure
  (try dsimp only [onCore])
  repeat' first
    | with_reducible (first | exact OutFrame.fault _ _ | apply OutFrame.next)
    | ((with_reducible show Touch.or _ _ = _) <;> rfl)
    | with_reducible (first | exact Frame.refl | apply State.coreFail_frame) | split

theorem execCoreWatchdogExpiry_frame (cluster : Nat) (core : Nat) (s : State) : OutFrame 
    ({ clusters := true, cores := true, flows := true, fix := true, fixCtr := true, evt := true,
       telCtr := true, rate := true, healthGen := true, repairLog := true, irq := true, out := true,
       free := true } : Touch) s
    (execCoreWatchdogExpiry cluster core s) := by
  unfold execCoreWatchdogExpiry
  (try dsimp only [onCore])
  repeat' first
    | with_reducible (first | exact OutFrame.fault _ _ | apply OutFrame.next)
    | ((with_reducible show Touch.or _ _ = _) <;> rfl)
    | with_reducible (first | exact Frame.refl | apply State.coreFail_frame) | split

theorem State.clearBank_frame {wt : Touch} {s0 s : State} (hw : 
    ({ flows := true, fix := true, fixCtr := true, evt := true, telCtr := true, rate := true, irq := true,
       out := true } : Touch).or wt = wt)
    (hK : Frame wt s0 s) (c : Nat) (i : Nat) : Frame wt s0 (State.clearBank s c i) := by
  refine Frame.step hK hw ?_
  unfold State.clearBank
  (try dsimp only)
  repeat' first
    | ((with_reducible show Touch.or _ _ = _) <;> rfl)
    | with_reducible (first
        | exact Frame.refl | apply State.dropPos_frame | apply State.unrecorded_frame | apply State.updFix_frame)
    | (with_reducible refine Frame.foldl _ (fun _ _ hF => ?_) _ ?_) | (intro _ hF; skip) | with_reducible assumption

theorem execCoreSubstitution_frame (cluster : Nat) (bankBad : Bool) (s : State) : OutFrame 
    ({ clusters := true, flows := true, fix := true, fixCtr := true, evt := true, telCtr := true,
       redCtr := true, rate := true, healthGen := true, irq := true, out := true } : Touch) s
    (execCoreSubstitution cluster bankBad s) := by
  unfold execCoreSubstitution
  (try dsimp only)
  repeat' first
    | with_reducible (first | exact OutFrame.fault _ _ | apply OutFrame.next)
    | ((with_reducible show Touch.or _ _ = _) <;> rfl)
    | with_reducible (first
        | exact Frame.refl | apply State.bumpRed_frame | apply State.clearBank_frame | apply State.fixDispatch_frame
        | apply State.healthChanged_frame | apply State.raise_frame | apply State.ready_frame
        | apply State.updCluster_frame)
    | (intro _ hF; skip) | with_reducible assumption | (with_reducible refine Frame.ite (fun _ => ?_) (fun _ => ?_))
    | split

theorem State.finishJob_frame {wt : Touch} {s0 s : State} (hw : 
    ({ pools := true, bufCtr := true, waitTx := true, evt := true, telCtr := true, portCtr := true,
       mbxCtr := true, boxes := true, jobs := true, hist := true, peers := true, msgs := true, irq := true,
       out := true } : Touch).or wt = wt)
    (hK : Frame wt s0 s) (j : Option Job) : Frame wt s0 (State.finishJob s j) := by
  refine Frame.step hK hw ?_
  unfold State.finishJob
  (try dsimp only)
  repeat' first
    | ((with_reducible show Touch.or _ _ = _) <;> rfl)
    | with_reducible (first | exact Frame.refl | apply State.complete_frame) | split

theorem State.selfTest_frame {wt : Touch} {s0 s : State} (hw : 
    ({ pools := true, bufCtr := true, waitTx := true, clusters := true, cores := true, evt := true,
       telCtr := true, portCtr := true, redCtr := true, mbxCtr := true, boxes := true, jobs := true,
       hist := true, peers := true, msgs := true, healthGen := true, repairLog := true, irq := true,
       out := true, free := true } : Touch).or wt = wt)
    (hK : Frame wt s0 s) (c : Nat) (k : Nat) (pass : Bool) : Frame wt s0 (State.selfTest s c k pass) := by
  refine Frame.step hK hw ?_
  unfold State.selfTest
  (try dsimp only)
  repeat' first
    | ((with_reducible show Touch.or _ _ = _) <;> rfl)
    | with_reducible (first
        | exact Frame.refl | apply State.bumpRed_frame | apply State.finishJob_frame
        | apply State.healthChanged_frame | apply State.raise_frame | apply State.ready_frame
        | apply State.repairAdd_frame | apply State.repairDel_frame | apply State.updCluster_frame
        | apply State.readCore_frame)
    | (intro _ hF; skip) | with_reducible assumption | (with_reducible refine Frame.ite (fun _ => ?_) (fun _ => ?_))

theorem execSpareSelftestDone_frame (cluster : Nat) (core : Nat) (pass : Bool) (s : State) : OutFrame 
    ({ pools := true, bufCtr := true, waitTx := true, clusters := true, cores := true, flows := true,
       fix := true, fixCtr := true, evt := true, telCtr := true, portCtr := true, redCtr := true,
       mbxCtr := true, rate := true, boxes := true, jobs := true, hist := true, peers := true,
       msgs := true, healthGen := true, repairLog := true, irq := true, out := true, free := true } : Touch) s (execSpareSelftestDone cluster core pass s) := by
  unfold execSpareSelftestDone
  (try dsimp only [onCore])
  repeat' first
    | with_reducible (first | exact OutFrame.fault _ _ | apply OutFrame.next)
    | ((with_reducible show Touch.or _ _ = _) <;> rfl)
    | with_reducible (first | exact Frame.refl | apply State.coreFail_frame | apply State.selfTest_frame)
    | (with_reducible refine Frame.ite (fun _ => ?_) (fun _ => ?_)) | split

theorem State.setMp_frame {wt : Touch} {s0 s : State} (hw : 
    ({ evt := true, telCtr := true, mps := true, healthGen := true, irq := true, out := true } : Touch).or wt = wt)
    (hK : Frame wt s0 s) (k : Nat) (f : Mp → Mp) : Frame wt s0 (State.setMp s k f) := by
  refine Frame.step hK hw ?_
  unfold State.setMp
  (try dsimp only)
  repeat' first
    | ((with_reducible show Touch.or _ _ = _) <;> rfl)
    | with_reducible (first | exact Frame.refl | apply State.healthIf_frame | apply State.updMp_frame)

theorem State.mgmtLost_frame {wt : Touch} {s0 s : State} (hw :
    ({ evt := true, telCtr := true, life := true, mps := true, healthGen := true, repairLog := true,
       irq := true, out := true } : Touch).or wt = wt)
    (hK : Frame wt s0 s) (k : Nat) :
    Frame wt s0 (State.mgmtLost s k) := by
  refine Frame.step hK hw ?_
  unfold State.mgmtLost
  (try dsimp only)
  repeat' first
    | ((with_reducible show Touch.or _ _ = _) <;> rfl)
    | with_reducible (first | exact Frame.refl | apply State.setMp_frame | apply State.repairAdd_frame)
    | (with_reducible refine Frame.foldl _ (fun _ _ hF => ?_) _ ?_)
    | (intro _ hF; skip) | with_reducible assumption
    | (with_reducible refine Frame.ite (fun _ => ?_) (fun _ => ?_)) | split
    | fail_if_no_progress ((with_reducible apply Frame.fields); (case hq => rfl); (case hc => rfl))

theorem State.mpFault_frame {wt : Touch} {s0 s : State} (hw : 
    ({ evt := true, telCtr := true, life := true, mps := true, healthGen := true, repairLog := true,
       irq := true, out := true } : Touch).or wt = wt)
    (hK : Frame wt s0 s) (cause : Nat) : Frame wt s0 (State.mpFault s cause) := by
  refine Frame.step hK hw ?_
  unfold State.mpFault
  (try dsimp only)
  repeat' first
    | ((with_reducible show Touch.or _ _ = _) <;> rfl)
    | with_reducible (first
        | exact Frame.refl | apply State.repairAdd_frame | apply State.setMp_frame | apply State.mgmtLost_frame)
    | (intro _ hF; skip) | with_reducible assumption | (with_reducible refine Frame.ite (fun _ => ?_) (fun _ => ?_))
    | split | fail_if_no_progress ((with_reducible apply Frame.fields); (case hq => rfl); (case hc => rfl))

theorem execMpFault_frame (cause : Nat) (s : State) : OutFrame 
    ({ evt := true, telCtr := true, life := true, mps := true, healthGen := true, repairLog := true,
       irq := true, out := true } : Touch) s (execMpFault cause s) := by
  unfold execMpFault
  (try dsimp only)
  repeat' first
    | with_reducible (first | exact OutFrame.fault _ _ | apply OutFrame.next)
    | ((with_reducible show Touch.or _ _ = _) <;> rfl)
    | with_reducible (first | exact Frame.refl | apply State.mpFault_frame)

theorem State.standbyLost_frame {wt : Touch} {s0 s : State} (hw : 
    ({ evt := true, telCtr := true, mps := true, healthGen := true, repairLog := true, irq := true, out := true } :
    Touch).or wt = wt)
    (hK : Frame wt s0 s) (k : Nat) : Frame wt s0 (State.standbyLost s k) := by
  refine Frame.step hK hw ?_
  unfold State.standbyLost
  (try dsimp only)
  repeat' first
    | ((with_reducible show Touch.or _ _ = _) <;> rfl)
    | with_reducible (first
        | exact Frame.refl | apply State.raise_frame | apply State.repairAdd_frame | apply State.setMp_frame)
    | (intro _ hF; skip)

theorem State.mpMismatch_frame {wt : Touch} {s0 s : State} (hw : 
    ({ evt := true, telCtr := true, mps := true, healthGen := true, irq := true, out := true } : Touch).or wt = wt)
    (hK : Frame wt s0 s) (k : Nat) : Frame wt s0 (State.mpMismatch s k) := by
  refine Frame.step hK hw ?_
  unfold State.mpMismatch
  (try dsimp only)
  repeat' first
    | ((with_reducible show Touch.or _ _ = _) <;> rfl)
    | with_reducible (first | exact Frame.refl | apply State.raise_frame | apply State.setMp_frame)
    | (intro _ hF; skip)

theorem execMpHeartbeatTick_frame (beatA : Bool) (beatB : Bool) (digestOk : Bool) (s : State) : OutFrame 
    ({ evt := true, telCtr := true, life := true, mps := true, healthGen := true, repairLog := true,
       irq := true, out := true } : Touch) s (execMpHeartbeatTick beatA beatB digestOk s) := by
  unfold execMpHeartbeatTick
  (try dsimp only)
  repeat' first
    | with_reducible (first | exact OutFrame.fault _ _ | apply OutFrame.next)
    | ((with_reducible show Touch.or _ _ = _) <;> rfl)
    | with_reducible (first
        | exact Frame.refl | apply State.mpFault_frame | apply State.mpMismatch_frame
        | apply State.standbyLost_frame | apply State.updMp_frame)
    | (intro _ hF; skip) | with_reducible assumption | (with_reducible refine Frame.ite (fun _ => ?_) (fun _ => ?_))
    | split

theorem execMpRestartDone_frame (mp : Nat) (pass : Bool) (s : State) : OutFrame 
    ({ pools := true, bufCtr := true, waitTx := true, evt := true, telCtr := true, portCtr := true,
       redCtr := true, mbxCtr := true, boxes := true, jobs := true, hist := true, peers := true,
       msgs := true, mps := true, healthGen := true, repairLog := true, irq := true, out := true } : Touch) s (execMpRestartDone mp pass s) := by
  unfold execMpRestartDone
  (try dsimp only)
  repeat' first
    | with_reducible (first | exact OutFrame.fault _ _ | apply OutFrame.next)
    | ((with_reducible show Touch.or _ _ = _) <;> rfl)
    | with_reducible (first
        | exact Frame.refl | apply State.bumpRed_frame | apply State.finishJob_frame | apply State.raise_frame
        | apply State.repairAdd_frame | apply State.repairDel_frame | apply State.setMp_frame)
    | (intro _ hF; skip) | with_reducible assumption | (with_reducible refine Frame.ite (fun _ => ?_) (fun _ => ?_))
    | split

theorem redGetHealthBody_frame {wt : Touch} {s0 s : State} (hw : ({} : Touch).or wt = wt)
    (hK : Frame wt s0 s) (r : Req) : Frame wt s0 (redGetHealthBody r s).1 := by
  refine Frame.step hK hw ?_
  unfold redGetHealthBody
  (try dsimp only)
  repeat' first
    | ((with_reducible show Touch.or _ _ = _) <;> rfl)
    | with_reducible (first | exact Frame.refl | apply readCmd_frame) | (intro _ hF; skip)

theorem State.switchCore_frame {wt : Touch} {s0 s : State} (hw : 
    ({ clusters := true, fix := true, evt := true, telCtr := true, redCtr := true, healthGen := true,
       irq := true, out := true } : Touch).or wt = wt)
    (hK : Frame wt s0 s) (c : Nat) (i : Nat) (k : Nat) : Frame wt s0 (State.switchCore s c i k) := by
  refine Frame.step hK hw ?_
  unfold State.switchCore
  (try dsimp only)
  repeat' first
    | ((with_reducible show Touch.or _ _ = _) <;> rfl)
    | with_reducible (first
        | exact Frame.refl | apply State.bumpRed_frame | apply State.fixDispatch_frame
        | apply State.healthChanged_frame | apply State.updCluster_frame)
    | (intro _ hF; skip)

theorem redSwitchoverBody_frame {wt : Touch} {s0 s : State} (hw : 
    ({ clusters := true, fix := true, evt := true, telCtr := true, redCtr := true, mps := true,
       healthGen := true, irq := true, out := true } : Touch).or wt = wt)
    (hK : Frame wt s0 s) (r : Req) : Frame wt s0 (redSwitchoverBody r s).1 := by
  refine Frame.step hK hw ?_
  unfold redSwitchoverBody
  (try dsimp only)
  repeat' first
    | ((with_reducible show Touch.or _ _ = _) <;> rfl)
    | with_reducible (first
        | exact Frame.refl | apply errCmd_frame | apply okCmd_frame | apply State.ready_frame
        | apply State.switchCore_frame)
    | (intro _ hF; skip) | with_reducible assumption | (with_reducible refine Frame.ite (fun _ => ?_) (fun _ => ?_))
    | split | fail_if_no_progress ((with_reducible apply Frame.fields); (case hq => rfl); (case hc => rfl))

theorem redResyncBody_frame {wt : Touch} {s0 s : State} (hw : 
    ({ clusters := true, evt := true, telCtr := true, mps := true, healthGen := true, irq := true, out := true } :
    Touch).or wt = wt)
    (hK : Frame wt s0 s) (r : Req) : Frame wt s0 (redResyncBody r s).1 := by
  refine Frame.step hK hw ?_
  unfold redResyncBody
  (try dsimp only)
  repeat' first
    | ((with_reducible show Touch.or _ _ = _) <;> rfl)
    | with_reducible (first
        | exact Frame.refl | apply errCmd_frame | apply State.healthChanged_frame | apply State.setMp_frame
        | apply State.updCluster_frame)
    | (intro _ hF; skip) | with_reducible assumption | (with_reducible refine Frame.ite (fun _ => ?_) (fun _ => ?_))
    | split

theorem redGetCountersBody_frame {wt : Touch} {s0 s : State} (hw : ({} : Touch).or wt = wt)
    (hK : Frame wt s0 s) (r : Req) : Frame wt s0 (redGetCountersBody r s).1 := by
  refine Frame.step hK hw ?_
  unfold redGetCountersBody
  (try dsimp only)
  repeat' first
    | ((with_reducible show Touch.or _ _ = _) <;> rfl)
    | with_reducible (first | exact Frame.refl | apply readCmd_frame) | (intro _ hF; skip)

theorem execRedGetHealth_frame (r : Req) (s : State) : OutFrame 
    ({ pools := true, bufCtr := true, waitTx := true, evt := true, telCtr := true, portCtr := true,
       mbxCtr := true, boxes := true, jobs := true, hist := true, peers := true, msgs := true, irq := true,
       out := true } : Touch) s (execRedGetHealth r s) := 
  mailboxCommand_frame rfl (fun _ => redGetHealthBody_frame rfl .refl r)

theorem execRedSwitchover_frame (r : Req) (s : State) : OutFrame 
    ({ pools := true, bufCtr := true, waitTx := true, clusters := true, fix := true, evt := true,
       telCtr := true, portCtr := true, redCtr := true, mbxCtr := true, boxes := true, jobs := true,
       hist := true, peers := true, msgs := true, mps := true, healthGen := true, irq := true,
       out := true } : Touch) s (execRedSwitchover r s) := 
  mailboxCommand_frame rfl (fun _ => redSwitchoverBody_frame rfl .refl r)

theorem execRedResync_frame (r : Req) (s : State) : OutFrame 
    ({ pools := true, bufCtr := true, waitTx := true, clusters := true, evt := true, telCtr := true,
       portCtr := true, mbxCtr := true, boxes := true, jobs := true, hist := true, peers := true,
       msgs := true, mps := true, healthGen := true, irq := true, out := true } : Touch) s (execRedResync r s) := 
  mailboxCommand_frame rfl (fun _ => redResyncBody_frame rfl .refl r)

theorem execRedGetCounters_frame (r : Req) (s : State) : OutFrame 
    ({ pools := true, bufCtr := true, waitTx := true, evt := true, telCtr := true, portCtr := true,
       mbxCtr := true, boxes := true, jobs := true, hist := true, peers := true, msgs := true, irq := true,
       out := true } : Touch) s (execRedGetCounters r s) := 
  mailboxCommand_frame rfl (fun _ => redGetCountersBody_frame rfl .refl r)

end Sys2Proof.Machine
end

