-- ==== Sys2Proof/Laws/FrameFixity.lean ====
section
/-! SUPPORT. What the operations of Fixity may change. -/

set_option Elab.async false
set_option linter.all false

namespace Sys2Proof.Machine

theorem State.itemDone_frame {wt : Touch} {s0 s : State} (hw : 
    ({ cores := true, flows := true, fix := true, fixCtr := true, evt := true, telCtr := true, rate := true,
       irq := true, out := true } : Touch).or wt = wt)
    (hK : Frame wt s0 s) (c : Nat) (k : Nat) (t : Tap) : Frame wt s0 (State.itemDone s c k t) := by
  refine Frame.step hK hw ?_
  unfold State.itemDone
  (try dsimp only)
  repeat' first
    | ((with_reducible show Touch.or _ _ = _) <;> rfl)
    | with_reducible (first
        | exact Frame.refl | apply State.countCore_frame | apply State.endTap_frame | apply State.writeRecord_frame)

theorem State.noticeDone_frame {wt : Touch} {s0 s : State} (hw : 
    ({ cores := true, flows := true, fix := true, fixCtr := true, evt := true, telCtr := true, rate := true,
       irq := true, out := true } : Touch).or wt = wt)
    (hK : Frame wt s0 s) (c : Nat) (k : Nat) : Frame wt s0 (State.noticeDone s c k) := by
  refine Frame.step hK hw ?_
  unfold State.noticeDone
  (try dsimp only)
  repeat' first
    | ((with_reducible show Touch.or _ _ = _) <;> rfl)
    | with_reducible (first
        | exact Frame.refl | apply State.countCore_frame | apply State.updFix_frame | apply State.writeRecord_frame)
    | (intro _ hF; skip) | with_reducible assumption | split

theorem execFixWorkItemDone_frame (cluster : Nat) (core : Nat) (s : State) : OutFrame 
    ({ cores := true, flows := true, fix := true, fixCtr := true, evt := true, telCtr := true, rate := true,
       irq := true, out := true } : Touch) s (execFixWorkItemDone cluster core s) := by
  unfold execFixWorkItemDone
  (try dsimp only [onCluster])
  repeat' first
    | with_reducible (first | exact OutFrame.fault _ _ | apply OutFrame.next)
    | ((with_reducible show Touch.or _ _ = _) <;> rfl)
    | with_reducible (first | exact Frame.refl | apply State.itemDone_frame | apply State.noticeDone_frame)
    | (intro _ hF; skip) | with_reducible assumption | (with_reducible refine Frame.ite (fun _ => ?_) (fun _ => ?_))
    | split

theorem State.noticeIn_frame {wt : Touch} {s0 s : State} (hw : 
    ({ flows := true, fix := true, fixCtr := true, evt := true, telCtr := true, rate := true, irq := true,
       out := true } : Touch).or wt = wt)
    (hK : Frame wt s0 s) (c : Nat) : Frame wt s0 (State.noticeIn s c) := by
  refine Frame.step hK hw ?_
  unfold State.noticeIn
  (try dsimp only)
  repeat' first
    | ((with_reducible show Touch.or _ _ = _) <;> rfl)
    | with_reducible (first
        | exact Frame.refl | apply State.reservePos_frame | apply State.unrecorded_frame | apply State.updFix_frame)
    | (intro _ hF; skip) | with_reducible assumption | (with_reducible refine Frame.ite (fun _ => ?_) (fun _ => ?_))
    | split

theorem execSkipNoticeArrival_frame (cluster : Nat) (s : State) : OutFrame 
    ({ flows := true, fix := true, fixCtr := true, evt := true, telCtr := true, rate := true, irq := true,
       out := true } : Touch) s (execSkipNoticeArrival cluster s) := by
  unfold execSkipNoticeArrival
  (try dsimp only [onCluster])
  repeat' first
    | with_reducible (first | exact OutFrame.fault _ _ | apply OutFrame.next)
    | ((with_reducible show Touch.or _ _ = _) <;> rfl)
    | with_reducible (first | exact Frame.refl | apply State.noticeIn_frame) | split

theorem execFixLogWriteTimeout_frame (cluster : Nat) (pos : Nat) (s : State) : OutFrame 
    ({ cores := true, flows := true, fix := true, fixCtr := true, evt := true, telCtr := true, rate := true,
       irq := true, out := true } : Touch) s (execFixLogWriteTimeout cluster pos s) := by
  unfold execFixLogWriteTimeout
  (try dsimp only [onCluster])
  repeat' first
    | with_reducible (first | exact OutFrame.fault _ _ | apply OutFrame.next)
    | ((with_reducible show Touch.or _ _ = _) <;> rfl)
    | with_reducible (first
        | exact Frame.refl | apply State.countCore_frame | apply State.dropPos_frame | apply State.endTap_frame
        | apply State.unrecorded_frame | apply State.updFix_frame)
    | (intro _ hF; skip) | with_reducible assumption | split

theorem execBatchTimer_frame (cluster : Nat) (s : State) : OutFrame 
    ({ fix := true, fixCtr := true, evt := true, telCtr := true, rate := true, irq := true, out := true } : Touch) s
    (execBatchTimer cluster s) := by
  unfold execBatchTimer
  (try dsimp only [onCluster])
  repeat' first
    | with_reducible (first | exact OutFrame.fault _ _ | apply OutFrame.next)
    | ((with_reducible show Touch.or _ _ = _) <;> rfl)
    | with_reducible (first | exact Frame.refl | apply State.fixDue_frame) | split

theorem execBatchClose_frame (cluster : Nat) (s : State) : OutFrame 
    ({ fix := true, fixCtr := true, evt := true, telCtr := true, rate := true, irq := true, out := true } : Touch) s
    (execBatchClose cluster s) := by
  unfold execBatchClose
  (try dsimp only [onCluster])
  repeat' first
    | with_reducible (first | exact OutFrame.fault _ _ | apply OutFrame.next)
    | ((with_reducible show Touch.or _ _ = _) <;> rfl)
    | with_reducible (first | exact Frame.refl | apply State.fixClose_frame) | split

theorem State.flushDone_frame {wt : Touch} {s0 s : State} (hw : 
    ({ pools := true, bufCtr := true, waitTx := true, flushes := true, evt := true, telCtr := true,
       portCtr := true, mbxCtr := true, boxes := true, jobs := true, hist := true, peers := true,
       msgs := true, irq := true, out := true } : Touch).or
    wt = wt)
    (hK : Frame wt s0 s) : Frame wt s0 (State.flushDone s) := by
  refine Frame.step hK hw ?_
  unfold State.flushDone
  (try dsimp only)
  repeat' first
    | ((with_reducible show Touch.or _ _ = _) <;> rfl)
    | with_reducible (first | exact Frame.refl | apply State.complete_frame)
    | (with_reducible refine Frame.foldl _ (fun _ _ hF => ?_) _ ?_) | (intro _ hF; skip) | with_reducible assumption
    | split | fail_if_no_progress ((with_reducible apply Frame.fields); (case hq => rfl); (case hc => rfl))

theorem State.ringFullEvent_frame {wt : Touch} {s0 s : State} (hw :
    ({ evt := true, telCtr := true, rate := true, irq := true, out := true } : Touch).or wt = wt)
    (hK : Frame wt s0 s) (c : Nat) :
    Frame wt s0 (State.ringFullEvent s c) := by
  refine Frame.step hK hw ?_
  unfold State.ringFullEvent
  (try dsimp only)
  repeat' first
    | ((with_reducible show Touch.or _ _ = _) <;> rfl)
    | with_reducible (first | exact Frame.refl | apply State.logFullEvent_frame)
    | (with_reducible refine Frame.foldl _ (fun _ _ hF => ?_) _ ?_)
    | (intro _ hF; skip) | with_reducible assumption
    | (with_reducible refine Frame.ite (fun _ => ?_) (fun _ => ?_)) | split
    | fail_if_no_progress ((with_reducible apply Frame.fields); (case hq => rfl); (case hc => rfl))

theorem State.receiptOut_frame {wt : Touch} {s0 s : State} (hw : 
    ({ pools := true, bufCtr := true, waitTx := true, fix := true, flushes := true, fixCtr := true,
       evt := true, telCtr := true, portCtr := true, mbxCtr := true, rate := true, boxes := true,
       jobs := true, hist := true, peers := true, msgs := true, irq := true, out := true } : Touch).or wt = wt)
    (hK : Frame wt s0 s) (c : Nat) : Frame wt s0 (State.receiptOut s c) := by
  refine Frame.step hK hw ?_
  unfold State.receiptOut
  (try dsimp only)
  repeat' first
    | ((with_reducible show Touch.or _ _ = _) <;> rfl)
    | with_reducible (first
        | exact Frame.refl | apply State.bumpFix_frame | apply State.fixRetry_frame | apply State.flushDone_frame
        | apply State.raiseIf_frame | apply State.updFix_frame | apply State.ringFullEvent_frame)
    | (intro _ hF; skip) | with_reducible assumption | (with_reducible refine Frame.ite (fun _ => ?_) (fun _ => ?_))
    | split

theorem execReceiptSigned_frame (cluster : Nat) (s : State) : OutFrame 
    ({ pools := true, bufCtr := true, waitTx := true, fix := true, flushes := true, fixCtr := true,
       evt := true, telCtr := true, portCtr := true, mbxCtr := true, rate := true, boxes := true,
       jobs := true, hist := true, peers := true, msgs := true, irq := true, out := true } : Touch) s (execReceiptSigned cluster s) := by
  unfold execReceiptSigned
  (try dsimp only [onCluster])
  repeat' first
    | with_reducible (first | exact OutFrame.fault _ _ | apply OutFrame.next)
    | ((with_reducible show Touch.or _ _ = _) <;> rfl)
    | with_reducible (first | exact Frame.refl | apply State.receiptOut_frame) | split

theorem applyFixSetCluster_frame {wt : Touch} {s0 s : State} (hw : 
    ({ fix := true, fixCtr := true, evt := true, telCtr := true, rate := true, irq := true, out := true } : Touch).or
    wt = wt)
    (hK : Frame wt s0 s) (p : List Byte) : Frame wt s0 (applyFixSetCluster p s) := by
  refine Frame.step hK hw ?_
  unfold applyFixSetCluster
  (try dsimp only)
  repeat' first
    | ((with_reducible show Touch.or _ _ = _) <;> rfl)
    | with_reducible (first | exact Frame.refl | apply State.fixDue_frame | apply State.updFix_frame)
    | (intro _ hF; skip) | with_reducible assumption | (with_reducible refine Frame.ite (fun _ => ?_) (fun _ => ?_))

theorem fixSetClusterBody_frame {wt : Touch} {s0 s : State} (hw : 
    ({ fix := true, fixCtr := true, evt := true, telCtr := true, rate := true, sets := true, snapshot := true,
       heldShadow := true, irq := true, out := true } : Touch).or wt = wt)
    (hK : Frame wt s0 s) (r : Req) : Frame wt s0 (fixSetClusterBody r s).1 := by
  refine Frame.step hK hw ?_
  unfold fixSetClusterBody
  (try dsimp only)
  repeat' first
    | ((with_reducible show Touch.or _ _ = _) <;> rfl) | with_reducible exact Frame.refl
    | exact setCmd_frame rfl (fun p _ => applyFixSetCluster_frame rfl .refl p) r _

theorem fixGetFlowBody_frame {wt : Touch} {s0 s : State} (hw : ({} : Touch).or wt = wt)
    (hK : Frame wt s0 s) (r : Req) : Frame wt s0 (fixGetFlowBody r s).1 := by
  refine Frame.step hK hw ?_
  unfold fixGetFlowBody
  (try dsimp only)
  repeat' first
    | ((with_reducible show Touch.or _ _ = _) <;> rfl)
    | with_reducible (first | exact Frame.refl | apply readCmd_frame) | (intro _ hF; skip)

theorem fixGetLogBody_frame {wt : Touch} {s0 s : State} (hw : ({} : Touch).or wt = wt)
    (hK : Frame wt s0 s) (r : Req) : Frame wt s0 (fixGetLogBody r s).1 := by
  refine Frame.step hK hw ?_
  unfold fixGetLogBody
  (try dsimp only)
  repeat' first
    | ((with_reducible show Touch.or _ _ = _) <;> rfl)
    | with_reducible (first | exact Frame.refl | apply readCmd_frame) | (intro _ hF; skip)
    | (with_reducible refine Frame.ite (fun _ => ?_) (fun _ => ?_))

theorem fixReleaseBody_frame {wt : Touch} {s0 s : State} (hw : 
    ({ fix := true, fixCtr := true, evt := true, telCtr := true, rate := true, irq := true, out := true } : Touch).or
    wt = wt)
    (hK : Frame wt s0 s) (r : Req) : Frame wt s0 (fixReleaseBody r s).1 := by
  refine Frame.step hK hw ?_
  unfold fixReleaseBody
  (try dsimp only)
  repeat' first
    | ((with_reducible show Touch.or _ _ = _) <;> rfl)
    | with_reducible (first
        | exact Frame.refl | apply errCmd_frame | apply State.fixRetry_frame | apply okCmd_frame
        | apply State.updFix_frame)
    | (intro _ hF; skip) | with_reducible assumption | (with_reducible refine Frame.ite (fun _ => ?_) (fun _ => ?_))
    | split

theorem fixFlushBody_frame {wt : Touch} {s0 s : State} (hw : 
    ({ fix := true, flushes := true, fixCtr := true, evt := true, telCtr := true, rate := true, irq := true,
       out := true } : Touch).or wt = wt)
    (hK : Frame wt s0 s) (r : Req) : Frame wt s0 (fixFlushBody r s).1 := by
  refine Frame.step hK hw ?_
  unfold fixFlushBody
  (try dsimp only)
  repeat' first
    | ((with_reducible show Touch.or _ _ = _) <;> rfl)
    | with_reducible (first | exact Frame.refl | apply errCmd_frame | apply State.fixDue_frame | apply okCmd_frame)
    | (with_reducible refine Frame.foldl _ (fun _ _ hF => ?_) _ ?_) | (intro _ hF; skip) | with_reducible assumption
    | (with_reducible refine Frame.ite (fun _ => ?_) (fun _ => ?_)) | split
    | fail_if_no_progress ((with_reducible apply Frame.fields); (case hq => rfl); (case hc => rfl))

theorem fixGetReceiptBody_frame {wt : Touch} {s0 s : State} (hw : ({} : Touch).or wt = wt)
    (hK : Frame wt s0 s) (r : Req) : Frame wt s0 (fixGetReceiptBody r s).1 := by
  refine Frame.step hK hw ?_
  unfold fixGetReceiptBody
  (try dsimp only)
  repeat' first
    | ((with_reducible show Touch.or _ _ = _) <;> rfl)
    | with_reducible (first | exact Frame.refl | apply readCmd_frame) | (intro _ hF; skip)
    | (with_reducible refine Frame.ite (fun _ => ?_) (fun _ => ?_))

theorem fixGetCountersBody_frame {wt : Touch} {s0 s : State} (hw : ({} : Touch).or wt = wt)
    (hK : Frame wt s0 s) (r : Req) : Frame wt s0 (fixGetCountersBody r s).1 := by
  refine Frame.step hK hw ?_
  unfold fixGetCountersBody
  (try dsimp only)
  repeat' first
    | ((with_reducible show Touch.or _ _ = _) <;> rfl)
    | with_reducible (first | exact Frame.refl | apply readCmd_frame) | (intro _ hF; skip)

theorem leavenGetClusterBody_frame {wt : Touch} {s0 s : State} (hw : 
    ({} : Touch).or wt = wt)
    (hK : Frame wt s0 s) (r : Req) : Frame wt s0 (leavenGetClusterBody r s).1 := by
  refine Frame.step hK hw ?_
  unfold leavenGetClusterBody
  (try dsimp only)
  repeat' first
    | ((with_reducible show Touch.or _ _ = _) <;> rfl)
    | with_reducible (first | exact Frame.refl | apply readCmd_frame) | (intro _ hF; skip)
    | (with_reducible refine Frame.ite (fun _ => ?_) (fun _ => ?_))

theorem applyLeavenSetEvents_frame {wt : Touch} {s0 s : State} (hw : 
    ({ cores := true } : Touch).or wt = wt)
    (hK : Frame wt s0 s) (p : List Byte) : Frame wt s0 (applyLeavenSetEvents p s) := by
  refine Frame.step hK hw ?_
  unfold applyLeavenSetEvents
  (try dsimp only)
  repeat' first
    | ((with_reducible show Touch.or _ _ = _) <;> rfl)
    | with_reducible (first | exact Frame.refl | apply State.updCore_frame)
    | (with_reducible refine Frame.foldl _ (fun _ _ hF => ?_) _ ?_) | (intro _ hF; skip) | with_reducible assumption
    | (with_reducible refine Frame.ite (fun _ => ?_) (fun _ => ?_))

theorem leavenSetEventsBody_frame {wt : Touch} {s0 s : State} (hw : 
    ({ cores := true, sets := true, snapshot := true, heldShadow := true } : Touch).or wt = wt)
    (hK : Frame wt s0 s) (r : Req) : Frame wt s0 (leavenSetEventsBody r s).1 := by
  refine Frame.step hK hw ?_
  unfold leavenSetEventsBody
  (try dsimp only)
  repeat' first
    | ((with_reducible show Touch.or _ _ = _) <;> rfl) | with_reducible exact Frame.refl
    | exact setCmd_frame rfl (fun p _ => applyLeavenSetEvents_frame rfl .refl p) r _

theorem leavenGetCoreBody_frame {wt : Touch} {s0 s : State} (hw : 
    ({ cores := true, free := true } : Touch).or wt = wt)
    (hK : Frame wt s0 s) (r : Req) : Frame wt s0 (leavenGetCoreBody r s).1 := by
  refine Frame.step hK hw ?_
  unfold leavenGetCoreBody
  (try dsimp only)
  repeat' first
    | ((with_reducible show Touch.or _ _ = _) <;> rfl)
    | with_reducible (first
        | exact Frame.refl | apply State.drawn_frame | apply errCmd_frame | apply okCmd_frame
        | apply State.updCore_frame | apply State.readCore_frame)
    | (intro _ hF; skip) | with_reducible assumption | (with_reducible refine Frame.ite (fun _ => ?_) (fun _ => ?_))
    | split

theorem execFixSetCluster_frame (r : Req) (s : State) : OutFrame 
    ({ pools := true, bufCtr := true, waitTx := true, fix := true, fixCtr := true, evt := true,
       telCtr := true, portCtr := true, mbxCtr := true, rate := true, boxes := true, jobs := true,
       hist := true, sets := true, snapshot := true, heldShadow := true, peers := true, msgs := true,
       irq := true, out := true } : Touch) s (execFixSetCluster r s)
    :=
  mailboxCommand_frame rfl (fun _ => fixSetClusterBody_frame rfl .refl r)

theorem execFixGetFlow_frame (r : Req) (s : State) : OutFrame 
    ({ pools := true, bufCtr := true, waitTx := true, evt := true, telCtr := true, portCtr := true,
       mbxCtr := true, boxes := true, jobs := true, hist := true, peers := true, msgs := true, irq := true,
       out := true } : Touch) s (execFixGetFlow r s) := 
  mailboxCommand_frame rfl (fun _ => fixGetFlowBody_frame rfl .refl r)

theorem execFixGetLog_frame (r : Req) (s : State) : OutFrame 
    ({ pools := true, bufCtr := true, waitTx := true, evt := true, telCtr := true, portCtr := true,
       mbxCtr := true, boxes := true, jobs := true, hist := true, peers := true, msgs := true, irq := true,
       out := true } : Touch) s (execFixGetLog r s) := 
  mailboxCommand_frame rfl (fun _ => fixGetLogBody_frame rfl .refl r)

theorem execFixRelease_frame (r : Req) (s : State) : OutFrame 
    ({ pools := true, bufCtr := true, waitTx := true, fix := true, fixCtr := true, evt := true,
       telCtr := true, portCtr := true, mbxCtr := true, rate := true, boxes := true, jobs := true,
       hist := true, peers := true, msgs := true, irq := true, out := true } : Touch) s (execFixRelease r s) := 
  mailboxCommand_frame rfl (fun _ => fixReleaseBody_frame rfl .refl r)

theorem execFixFlush_frame (r : Req) (s : State) : OutFrame 
    ({ pools := true, bufCtr := true, waitTx := true, fix := true, flushes := true, fixCtr := true,
       evt := true, telCtr := true, portCtr := true, mbxCtr := true, rate := true, boxes := true,
       jobs := true, hist := true, peers := true, msgs := true, irq := true, out := true } : Touch) s (execFixFlush r s) := 
  mailboxCommand_frame rfl (fun _ => fixFlushBody_frame rfl .refl r)

theorem execFixGetReceipt_frame (r : Req) (s : State) : OutFrame 
    ({ pools := true, bufCtr := true, waitTx := true, evt := true, telCtr := true, portCtr := true,
       mbxCtr := true, boxes := true, jobs := true, hist := true, peers := true, msgs := true, irq := true,
       out := true } : Touch) s (execFixGetReceipt r s) := 
  mailboxCommand_frame rfl (fun _ => fixGetReceiptBody_frame rfl .refl r)

theorem execLeavenGetCluster_frame (r : Req) (s : State) : OutFrame 
    ({ pools := true, bufCtr := true, waitTx := true, evt := true, telCtr := true, portCtr := true,
       mbxCtr := true, boxes := true, jobs := true, hist := true, peers := true, msgs := true, irq := true,
       out := true } : Touch) s (execLeavenGetCluster r s) := 
  mailboxCommand_frame rfl (fun _ => leavenGetClusterBody_frame rfl .refl r)

theorem execLeavenSetEvents_frame (r : Req) (s : State) : OutFrame 
    ({ pools := true, bufCtr := true, waitTx := true, cores := true, evt := true, telCtr := true,
       portCtr := true, mbxCtr := true, boxes := true, jobs := true, hist := true, sets := true,
       snapshot := true, heldShadow := true, peers := true, msgs := true, irq := true,
       out := true } : Touch) s (execLeavenSetEvents r s) := 
  mailboxCommand_frame rfl (fun _ => leavenSetEventsBody_frame rfl .refl r)

theorem execLeavenGetCore_frame (r : Req) (s : State) : OutFrame 
    ({ pools := true, bufCtr := true, waitTx := true, cores := true, evt := true, telCtr := true,
       portCtr := true, mbxCtr := true, boxes := true, jobs := true, hist := true, peers := true,
       msgs := true, irq := true, out := true, free := true } : Touch) s (execLeavenGetCore r s) := 
  mailboxCommand_frame rfl (fun _ => leavenGetCoreBody_frame rfl .refl r)

theorem execFixGetCounters_frame (r : Req) (s : State) : OutFrame 
    ({ pools := true, bufCtr := true, waitTx := true, evt := true, telCtr := true, portCtr := true,
       mbxCtr := true, boxes := true, jobs := true, hist := true, peers := true, msgs := true, irq := true,
       out := true } : Touch) s (execFixGetCounters r s) := 
  mailboxCommand_frame rfl (fun _ => fixGetCountersBody_frame rfl .refl r)

end Sys2Proof.Machine
end

