-- ==== Sys2Proof/Laws/FrameProofing.lean ====
section
/-! SUPPORT. What the operations of Proofing may change. -/

set_option Elab.async false
set_option linter.all false

namespace Sys2Proof.Machine

theorem State.holdExpired_frame {wt : Touch} {s0 s : State} (hw : 
    ({ ports := true, fwdCtr := true, bufCtr := true, pkts := true, fabCtr := true, schedCtr := true,
       targets := true, drops := true, notices := true, proofCtr := true, evt := true, mirCtr := true,
       telCtr := true, dropCtr := true, portCtr := true, prismCtr := true, timeCtr := true, shares := true,
       irq := true, out := true } : Touch).or wt =
    wt)
    (hK : Frame wt s0 s) (idx : Nat) : Frame wt s0 (State.holdExpired s idx) := by
  refine Frame.step hK hw ?_
  unfold State.holdExpired
  (try dsimp only)
  repeat' first
    | ((with_reducible show Touch.or _ _ = _) <;> rfl)
    | with_reducible (first | exact Frame.refl | apply State.tgtFail_frame)
    | (with_reducible refine Frame.ite (fun _ => ?_) (fun _ => ?_))

theorem execHoldTimerExpiry_frame (target : Nat) (s : State) : OutFrame 
    ({ ports := true, fwdCtr := true, bufCtr := true, pkts := true, fabCtr := true, schedCtr := true,
       targets := true, drops := true, notices := true, proofCtr := true, evt := true, mirCtr := true,
       telCtr := true, dropCtr := true, portCtr := true, prismCtr := true, timeCtr := true, shares := true,
       irq := true, out := true } : Touch) s
    (execHoldTimerExpiry target s) := by
  unfold execHoldTimerExpiry
  (try dsimp only)
  repeat' first
    | with_reducible (first | exact OutFrame.fault _ _ | apply OutFrame.next)
    | ((with_reducible show Touch.or _ _ = _) <;> rfl)
    | with_reducible (first | exact Frame.refl | apply State.holdExpired_frame)
    | (with_reducible refine Frame.ite (fun _ => ?_) (fun _ => ?_)) | split

theorem State.spinDown_frame {wt : Touch} {s0 s : State} (hw : 
    ({ targets := true, drops := true, proofCtr := true } : Touch).or wt = wt)
    (hK : Frame wt s0 s) (idx : Nat) : Frame wt s0 (State.spinDown s idx) := by
  refine Frame.step hK hw ?_
  unfold State.spinDown
  (try dsimp only)
  repeat' first
    | ((with_reducible show Touch.or _ _ = _) <;> rfl)
    | with_reducible (first
        | exact Frame.refl | apply State.bumpProof_frame | apply State.setTgt_frame | apply State.updDrop_frame)
    | (intro _ hF; skip)

theorem State.idleExpired_frame {wt : Touch} {s0 s : State} (hw : 
    ({ targets := true, drops := true, proofCtr := true } : Touch).or wt = wt)
    (hK : Frame wt s0 s) (idx : Nat) : Frame wt s0 (State.idleExpired s idx) := by
  refine Frame.step hK hw ?_
  unfold State.idleExpired
  (try dsimp only)
  repeat' first
    | ((with_reducible show Touch.or _ _ = _) <;> rfl)
    | with_reducible (first | exact Frame.refl | apply idle_frame | apply State.spinDown_frame)
    | (with_reducible refine Frame.ite (fun _ => ?_) (fun _ => ?_))

theorem execIdleSpindownTimer_frame (target : Nat) (s : State) : OutFrame 
    ({ targets := true, drops := true, proofCtr := true } : Touch) s (execIdleSpindownTimer
    target s) := by
  unfold execIdleSpindownTimer
  (try dsimp only)
  repeat' first
    | with_reducible (first | exact OutFrame.fault _ _ | apply OutFrame.next)
    | ((with_reducible show Touch.or _ _ = _) <;> rfl)
    | with_reducible (first | exact Frame.refl | apply State.idleExpired_frame)
    | (with_reducible refine Frame.ite (fun _ => ?_) (fun _ => ?_)) | split

theorem State.releaseTo_frame {wt : Touch} {s0 s : State} (hw : 
    ({ lanes := true, ports := true, prismFlight := true, recirc := true, merge := true, fwdCtr := true,
       cells := true, portClass := true, queues := true, spillVoqs := true, bufCtr := true, pkts := true,
       nextPkt := true, voqs := true, multiQ := true, pairs := true, links := true, arb := true,
       fabCtr := true, schedCtr := true, evt := true, mirrors := true, cand := true, mirQ := true,
       mirCtr := true, telCtr := true, dropCtr := true, portCtr := true, prismCtr := true, timeCtr := true,
       shares := true, healthGen := true, irq := true, out := true, free := true } : Touch).or wt = wt)
    (hK : Frame wt s0 s) (pk : Pkt) (p : Nat) : Frame wt s0 (State.releaseTo s pk p) := by
  refine Frame.step hK hw ?_
  unfold State.releaseTo
  (try dsimp only)
  repeat' first
    | ((with_reducible show Touch.or _ _ = _) <;> rfl)
    | with_reducible (first
        | exact Frame.refl | apply State.enqueuePkt_frame | apply State.spillWrite_frame
        | apply State.takeCells_frame | apply State.updPkt_frame | apply State.spillIn_frame
        | apply State.xoffSweep_frame)
    | (intro _ hF; skip) | with_reducible assumption | (with_reducible refine Frame.ite (fun _ => ?_) (fun _ => ?_))

theorem State.drainOne_frame {wt : Touch} {s0 s : State} (hw : 
    ({ lanes := true, ports := true, prismFlight := true, recirc := true, merge := true, fwdCtr := true,
       cells := true, portClass := true, queues := true, spillVoqs := true, bufCtr := true, pkts := true,
       nextPkt := true, voqs := true, multiQ := true, pairs := true, links := true, arb := true,
       fabCtr := true, schedCtr := true, targets := true, drops := true, notices := true, proofCtr := true,
       evt := true, mirrors := true, cand := true, mirQ := true, mirCtr := true, telCtr := true,
       dropCtr := true, portCtr := true, prismCtr := true, timeCtr := true, shares := true,
       healthGen := true, irq := true, out := true, free := true } : Touch).or wt = wt)
    (hK : Frame wt s0 s) (idx : Nat) : Frame wt s0 (State.drainOne s idx) := by
  refine Frame.step hK hw ?_
  unfold State.drainOne
  (try dsimp only)
  repeat' first
    | ((with_reducible show Touch.or _ _ = _) <;> rfl)
    | with_reducible (first
        | exact Frame.refl | apply State.bumpProof_frame | apply State.queueEmptied_frame
        | apply State.releaseTo_frame | apply State.unpark_frame)
    | (with_reducible refine Frame.ite (fun _ => ?_) (fun _ => ?_)) | split

theorem execParkDrainRelease_frame (target : Nat) (s : State) : OutFrame 
    ({ lanes := true, ports := true, prismFlight := true, recirc := true, merge := true, fwdCtr := true,
       cells := true, portClass := true, queues := true, spillVoqs := true, bufCtr := true, pkts := true,
       nextPkt := true, voqs := true, multiQ := true, pairs := true, links := true, arb := true,
       fabCtr := true, schedCtr := true, targets := true, drops := true, notices := true, proofCtr := true,
       evt := true, mirrors := true, cand := true, mirQ := true, mirCtr := true, telCtr := true,
       dropCtr := true, portCtr := true, prismCtr := true, timeCtr := true, shares := true,
       healthGen := true, irq := true, out := true, free := true } : Touch) s (execParkDrainRelease target s) := by
  unfold execParkDrainRelease
  (try dsimp only)
  repeat' first
    | with_reducible (first | exact OutFrame.fault _ _ | apply OutFrame.next)
    | ((with_reducible show Touch.or _ _ = _) <;> rfl)
    | with_reducible (first | exact Frame.refl | apply State.drainOne_frame)
    | (with_reducible refine Frame.ite (fun _ => ?_) (fun _ => ?_)) | split

theorem State.sendShelf_frame {wt : Touch} {s0 s : State} (hw :
    ({ buses := true, out := true } : Touch).or wt = wt)
    (hK : Frame wt s0 s) (bus : Nat) (drop : Nat) (type : Nat) (p : List Byte) :
    Frame wt s0 (State.sendShelf s bus drop type p) := by
  refine Frame.step hK hw ?_
  unfold State.sendShelf
  (try dsimp only)
  repeat' first
    | ((with_reducible show Touch.or _ _ = _) <;> rfl)
    | with_reducible (first | exact Frame.refl | apply State.emit_frame | apply State.updBus_frame)
    | (with_reducible refine Frame.foldl _ (fun _ _ hF => ?_) _ ?_)
    | (intro _ hF; skip) | with_reducible assumption
    | (with_reducible refine Frame.ite (fun _ => ?_) (fun _ => ?_)) | split
    | fail_if_no_progress ((with_reducible apply Frame.fields); (case hq => rfl); (case hc => rfl))

theorem State.endCycle_frame {wt : Touch} {s0 s : State} (hw : 
    ({ drops := true, proofCtr := true } : Touch).or wt = wt)
    (hK : Frame wt s0 s) (bus : Nat) : Frame wt s0 (State.endCycle s bus) := by
  refine Frame.step hK hw ?_
  unfold State.endCycle
  (try dsimp only)
  repeat' first
    | ((with_reducible show Touch.or _ _ = _) <;> rfl)
    | with_reducible (first | exact Frame.refl | apply State.bumpProof_frame | apply State.updDrop_frame)
    | (with_reducible refine Frame.foldl _ (fun _ _ hF => ?_) _ ?_) | (intro _ hF; skip) | with_reducible assumption

theorem State.pollCycle_frame {wt : Touch} {s0 s : State} (hw : 
    ({ drops := true, buses := true, proofCtr := true } : Touch).or wt = wt)
    (hK : Frame wt s0 s) (bus : Nat) : Frame wt s0 (State.pollCycle s bus) := by
  refine Frame.step hK hw ?_
  unfold State.pollCycle
  (try dsimp only)
  repeat' first
    | ((with_reducible show Touch.or _ _ = _) <;> rfl)
    | with_reducible (first | exact Frame.refl | apply State.endCycle_frame | apply State.updBus_frame)
    | (intro _ hF; skip) | with_reducible assumption | (with_reducible refine Frame.ite (fun _ => ?_) (fun _ => ?_))

theorem execPollCycleStart_frame (bus : Nat) (s : State) : OutFrame 
    ({ drops := true, buses := true, proofCtr := true } : Touch) s (execPollCycleStart bus s) := by
  unfold execPollCycleStart
  (try dsimp only)
  repeat' first
    | with_reducible (first | exact OutFrame.fault _ _ | apply OutFrame.next)
    | ((with_reducible show Touch.or _ _ = _) <;> rfl)
    | with_reducible (first | exact Frame.refl | apply State.pollCycle_frame)
    | (with_reducible refine Frame.ite (fun _ => ?_) (fun _ => ?_)) | split

theorem State.pollNext_frame {wt : Touch} {s0 s : State} (hw : 
    ({ drops := true, buses := true, proofCtr := true, out := true } : Touch).or wt = wt)
    (hK : Frame wt s0 s) (bus : Nat) : Frame wt s0 (State.pollNext s bus) := by
  refine Frame.step hK hw ?_
  unfold State.pollNext
  (try dsimp only)
  repeat' first
    | ((with_reducible show Touch.or _ _ = _) <;> rfl)
    | with_reducible (first
        | exact Frame.refl | apply State.bumpProof_frame | apply State.sendShelf_frame | apply State.updBus_frame
        | apply State.updDrop_frame)
    | (intro _ hF; skip) | with_reducible assumption | split

theorem execPollSlot_frame (bus : Nat) (s : State) : OutFrame 
    ({ drops := true, buses := true, proofCtr := true, out := true } : Touch) s (execPollSlot bus s) := by
  unfold execPollSlot
  (try dsimp only)
  repeat' first
    | with_reducible (first | exact OutFrame.fault _ _ | apply OutFrame.next)
    | ((with_reducible show Touch.or _ _ = _) <;> rfl)
    | with_reducible (first | exact Frame.refl | apply State.pollNext_frame)
    | (with_reducible refine Frame.ite (fun _ => ?_) (fun _ => ?_)) | split

theorem State.missed_frame {wt : Touch} {s0 s : State} (hw : 
    ({ drops := true, buses := true, proofCtr := true, evt := true, telCtr := true, irq := true, out := true } :
    Touch).or wt = wt)
    (hK : Frame wt s0 s) (bus : Nat) (badCrc : Bool) : Frame wt s0 (State.missed s bus badCrc) := by
  refine Frame.step hK hw ?_
  unfold State.missed
  (try dsimp only)
  repeat' first
    | ((with_reducible show Touch.or _ _ = _) <;> rfl)
    | with_reducible (first
        | exact Frame.refl | apply State.bumpProof_frame | apply State.raise_frame | apply State.updBus_frame
        | apply State.updDrop_frame)
    | (intro _ hF; skip) | with_reducible assumption | (with_reducible refine Frame.ite (fun _ => ?_) (fun _ => ?_))
    | split

theorem execShelfReplyTimeout_frame (bus : Nat) (s : State) : OutFrame 
    ({ drops := true, buses := true, proofCtr := true, evt := true, telCtr := true, irq := true, out := true } :
    Touch) s (execShelfReplyTimeout bus s) := by
  unfold execShelfReplyTimeout
  (try dsimp only)
  repeat' first
    | with_reducible (first | exact OutFrame.fault _ _ | apply OutFrame.next)
    | ((with_reducible show Touch.or _ _ = _) <;> rfl)
    | with_reducible (first | exact Frame.refl | apply State.missed_frame)
    | (with_reducible refine Frame.ite (fun _ => ?_) (fun _ => ?_)) | split

theorem execShelfReplyDiscarded_frame (bus : Nat) (badCrc : Bool) (s : State) : OutFrame 
    ({ drops := true, buses := true, proofCtr := true, evt := true, telCtr := true, irq := true, out := true } :
    Touch) s (execShelfReplyDiscarded bus badCrc s) := by
  unfold execShelfReplyDiscarded
  (try dsimp only)
  repeat' first
    | with_reducible (first | exact OutFrame.fault _ _ | apply OutFrame.next)
    | ((with_reducible show Touch.or _ _ = _) <;> rfl)
    | with_reducible (first | exact Frame.refl | apply State.missed_frame)
    | (with_reducible refine Frame.ite (fun _ => ?_) (fun _ => ?_)) | split

theorem State.batteryTarget_frame {wt : Touch} {s0 s : State} (hw : 
    ({ fwdCtr := true, bufCtr := true, pkts := true, fabCtr := true, schedCtr := true, targets := true,
       drops := true, notices := true, proofCtr := true, mirCtr := true, dropCtr := true, portCtr := true,
       prismCtr := true, timeCtr := true, shares := true } : Touch).or wt = wt)
    (hK : Frame wt s0 s) (idx : Nat) : Frame wt s0 (State.batteryTarget s idx) := by
  refine Frame.step hK hw ?_
  unfold State.batteryTarget
  (try dsimp only)
  repeat' first
    | ((with_reducible show Touch.or _ _ = _) <;> rfl)
    | with_reducible (first
        | exact Frame.refl | apply State.dropParked_frame | apply State.dropWake_frame | apply State.setTgt_frame)
    | (with_reducible refine Frame.ite (fun _ => ?_) (fun _ => ?_))

theorem State.onBattery_frame {wt : Touch} {s0 s : State} (hw : 
    ({ fwdCtr := true, bufCtr := true, pkts := true, fabCtr := true, schedCtr := true, targets := true,
       drops := true, notices := true, proofCtr := true, evt := true, mirCtr := true, telCtr := true,
       dropCtr := true, portCtr := true, prismCtr := true, timeCtr := true, shares := true, irq := true,
       out := true } : Touch).or wt = wt)
    (hK : Frame wt s0 s) (bus : Nat) (d : Nat) : Frame wt s0 (State.onBattery s bus d) := by
  refine Frame.step hK hw ?_
  unfold State.onBattery
  (try dsimp only)
  repeat' first
    | ((with_reducible show Touch.or _ _ = _) <;> rfl)
    | with_reducible (first
        | exact Frame.refl | apply State.batteryTarget_frame | apply State.dropWake_frame | apply State.raise_frame
        | apply State.updDrop_frame)
    | (with_reducible refine Frame.foldl _ (fun _ _ hF => ?_) _ ?_) | (intro _ hF; skip) | with_reducible assumption

theorem State.readBattery_frame {wt : Touch} {s0 s : State} (hw : 
    ({ fwdCtr := true, bufCtr := true, pkts := true, fabCtr := true, schedCtr := true, targets := true,
       drops := true, notices := true, proofCtr := true, evt := true, mirCtr := true, telCtr := true,
       dropCtr := true, portCtr := true, prismCtr := true, timeCtr := true, shares := true, irq := true,
       out := true } : Touch).or wt = wt)
    (hK : Frame wt s0 s) (bus : Nat) (d : Nat) (on : Bool) : Frame wt s0 (State.readBattery s bus d on) := by
  refine Frame.step hK hw ?_
  unfold State.readBattery
  (try dsimp only)
  repeat' first
    | ((with_reducible show Touch.or _ _ = _) <;> rfl)
    | with_reducible (first
        | exact Frame.refl | apply State.onBattery_frame | apply State.raise_frame | apply State.updDrop_frame)
    | (intro _ hF; skip) | with_reducible assumption | split

theorem State.reportWaking_frame {wt : Touch} {s0 s : State} (hw : 
    ({ targets := true, drops := true } : Touch).or wt = wt)
    (hK : Frame wt s0 s) (idx : Nat) : Frame wt s0 (State.reportWaking s idx) := by
  refine Frame.step hK hw ?_
  unfold State.reportWaking
  (try dsimp only)
  repeat' first
    | ((with_reducible show Touch.or _ _ = _) <;> rfl)
    | with_reducible (first
        | exact Frame.refl | apply State.dropWake_frame | apply State.setTgt_frame | apply State.updTarget_frame)
    | (intro _ hF; skip)

theorem State.spindleReport_frame {wt : Touch} {s0 s : State} (hw : 
    ({ ports := true, fwdCtr := true, bufCtr := true, pkts := true, fabCtr := true, schedCtr := true,
       targets := true, drops := true, notices := true, proofCtr := true, evt := true, mirCtr := true,
       telCtr := true, dropCtr := true, portCtr := true, prismCtr := true, timeCtr := true, shares := true,
       irq := true, out := true } : Touch).or wt =
    wt)
    (hK : Frame wt s0 s) (idx : Nat) (code : Nat) : Frame wt s0 (State.spindleReport s idx code) := by
  refine Frame.step hK hw ?_
  unfold State.spindleReport
  (try dsimp only)
  repeat' first
    | ((with_reducible show Touch.or _ _ = _) <;> rfl)
    | with_reducible (first
        | exact Frame.refl | apply State.bumpProof_frame | apply State.raise_frame | apply State.reportWaking_frame
        | apply State.setTgt_frame | apply State.tgtFail_frame | apply State.tgtReady_frame
        | apply State.updTarget_frame)
    | (intro _ hF; skip) | with_reducible assumption | split

theorem State.applyPage_frame {wt : Touch} {s0 s : State} (hw : 
    ({ ports := true, fwdCtr := true, bufCtr := true, pkts := true, fabCtr := true, schedCtr := true,
       targets := true, drops := true, notices := true, proofCtr := true, evt := true, mirCtr := true,
       telCtr := true, dropCtr := true, portCtr := true, prismCtr := true, timeCtr := true, shares := true,
       irq := true, out := true } : Touch).or wt =
    wt)
    (hK : Frame wt s0 s) (bus : Nat) (d : Nat) (st : List Byte) : Frame wt s0 (State.applyPage s bus d st) := by
  refine Frame.step hK hw ?_
  unfold State.applyPage
  (try dsimp only)
  repeat' first
    | ((with_reducible show Touch.or _ _ = _) <;> rfl)
    | with_reducible (first | exact Frame.refl | apply State.spindleReport_frame | apply State.updDrop_frame)
    | (with_reducible refine Frame.foldl _ (fun _ _ hF => ?_) _ ?_) | (intro _ hF; skip) | with_reducible assumption
    | (with_reducible refine Frame.ite (fun _ => ?_) (fun _ => ?_)) | split

theorem State.newCmd_frame {wt : Touch} {s0 s : State} (hw : 
    ({ drops := true, buses := true, out := true } : Touch).or wt = wt)
    (hK : Frame wt s0 s) (bus : Nat) (d : Nat) (type : Nat) (slots : List Nat) : Frame wt s0 (State.newCmd s bus d
    type slots) := by
  refine Frame.step hK hw ?_
  unfold State.newCmd
  (try dsimp only)
  repeat' first
    | ((with_reducible show Touch.or _ _ = _) <;> rfl)
    | with_reducible (first | exact Frame.refl | apply State.sendShelf_frame | apply State.updDrop_frame)
    | (intro _ hF; skip)

theorem State.issueWake_frame {wt : Touch} {s0 s : State} (hw : 
    ({ targets := true, drops := true, proofCtr := true } : Touch).or wt = wt)
    (hK : Frame wt s0 s) (idx : Nat) : Frame wt s0 (State.issueWake s idx) := by
  refine Frame.step hK hw ?_
  unfold State.issueWake
  (try dsimp only)
  repeat' first
    | ((with_reducible show Touch.or _ _ = _) <;> rfl)
    | with_reducible (first
        | exact Frame.refl | apply State.bumpProof_frame | apply State.dropWake_frame | apply State.setTgt_frame
        | apply State.updTarget_frame)
    | (intro _ hF; skip)

theorem State.slotCommand_frame {wt : Touch} {s0 s : State} (hw : 
    ({ targets := true, drops := true, buses := true, proofCtr := true, out := true } : Touch).or wt = wt)
    (hK : Frame wt s0 s) (bus : Nat) (d : Nat) (ident : Bool) : Frame wt s0 (State.slotCommand s bus d ident) := by
  refine Frame.step hK hw ?_
  unfold State.slotCommand
  (try dsimp only)
  repeat' first
    | ((with_reducible show Touch.or _ _ = _) <;> rfl)
    | with_reducible (first
        | exact Frame.refl | apply State.bumpProof_frame | apply State.issueWake_frame | apply State.newCmd_frame
        | apply State.sendShelf_frame | apply State.updDrop_frame)
    | (with_reducible refine Frame.foldl _ (fun _ _ hF => ?_) _ ?_) | (intro _ hF; skip) | with_reducible assumption
    | (with_reducible refine Frame.ite (fun _ => ?_) (fun _ => ?_)) | split

theorem State.pruneCmd_frame {wt : Touch} {s0 s : State} (hw : 
    ({ drops := true } : Touch).or wt = wt)
    (hK : Frame wt s0 s) (bus : Nat) (d : Nat) : Frame wt s0 (State.pruneCmd s bus d) := by
  refine Frame.step hK hw ?_
  unfold State.pruneCmd
  (try dsimp only)
  repeat' first
    | ((with_reducible show Touch.or _ _ = _) <;> rfl)
    | with_reducible (first | exact Frame.refl | apply State.updDrop_frame) | (intro _ hF; skip)
    | with_reducible assumption | (with_reducible refine Frame.ite (fun _ => ?_) (fun _ => ?_)) | split

theorem State.becomePresent_frame {wt : Touch} {s0 s : State} (hw : 
    ({ drops := true, evt := true, telCtr := true, irq := true, out := true } : Touch).or wt = wt)
    (hK : Frame wt s0 s) (bus : Nat) (d : Nat) : Frame wt s0 (State.becomePresent s bus d) := by
  refine Frame.step hK hw ?_
  unfold State.becomePresent
  (try dsimp only)
  repeat' first
    | ((with_reducible show Touch.or _ _ = _) <;> rfl)
    | with_reducible (first | exact Frame.refl | apply State.raise_frame | apply State.updDrop_frame)
    | (intro _ hF; skip) | with_reducible assumption | (with_reducible refine Frame.ite (fun _ => ?_) (fun _ => ?_))

theorem State.readStatus_frame {wt : Touch} {s0 s : State} (hw : 
    ({ ports := true, fwdCtr := true, bufCtr := true, pkts := true, fabCtr := true, schedCtr := true,
       targets := true, drops := true, notices := true, proofCtr := true, evt := true, mirCtr := true,
       telCtr := true, dropCtr := true, portCtr := true, prismCtr := true, timeCtr := true, shares := true,
       irq := true, out := true } : Touch).or wt =
    wt)
    (hK : Frame wt s0 s) (bus : Nat) (d : Nat) (st : List Byte) : Frame wt s0 (State.readStatus s bus d st) := by
  refine Frame.step hK hw ?_
  unfold State.readStatus
  (try dsimp only)
  repeat' first
    | ((with_reducible show Touch.or _ _ = _) <;> rfl)
    | with_reducible (first
        | exact Frame.refl | apply State.applyPage_frame | apply State.becomePresent_frame | apply State.raise_frame
        | apply State.readBattery_frame | apply State.updDrop_frame)
    | (intro _ hF; skip) | with_reducible assumption | (with_reducible refine Frame.ite (fun _ => ?_) (fun _ => ?_))

theorem State.statusReply_frame {wt : Touch} {s0 s : State} (hw : 
    ({ ports := true, fwdCtr := true, bufCtr := true, pkts := true, fabCtr := true, schedCtr := true,
       targets := true, drops := true, buses := true, notices := true, proofCtr := true, evt := true,
       mirCtr := true, telCtr := true, dropCtr := true, portCtr := true, prismCtr := true, timeCtr := true,
       shares := true, irq := true, out := true } : Touch).or wt = wt)
    (hK : Frame wt s0 s) (bus : Nat) (st : List Byte) : Frame wt s0 (State.statusReply s bus st) := by
  refine Frame.step hK hw ?_
  unfold State.statusReply
  (try dsimp only)
  repeat' first
    | ((with_reducible show Touch.or _ _ = _) <;> rfl)
    | with_reducible (first
        | exact Frame.refl | apply State.missed_frame | apply State.pruneCmd_frame | apply State.readStatus_frame
        | apply State.slotCommand_frame | apply State.updBus_frame)
    | (intro _ hF; skip) | with_reducible assumption | (with_reducible refine Frame.ite (fun _ => ?_) (fun _ => ?_))
    | split

theorem execShelfStatusReceived_frame (bus : Nat) (payload : List Byte) (s : State) : OutFrame 
    ({ ports := true, fwdCtr := true, bufCtr := true, pkts := true, fabCtr := true, schedCtr := true,
       targets := true, drops := true, buses := true, notices := true, proofCtr := true, evt := true,
       mirCtr := true, telCtr := true, dropCtr := true, portCtr := true, prismCtr := true, timeCtr := true,
       shares := true, irq := true, out := true } : Touch) s (execShelfStatusReceived bus payload s) := by
  unfold execShelfStatusReceived
  (try dsimp only)
  repeat' first
    | with_reducible (first | exact OutFrame.fault _ _ | apply OutFrame.next)
    | ((with_reducible show Touch.or _ _ = _) <;> rfl)
    | with_reducible (first | exact Frame.refl | apply State.statusReply_frame)
    | (with_reducible refine Frame.ite (fun _ => ?_) (fun _ => ?_)) | split

theorem State.ackResult_frame {wt : Touch} {s0 s : State} (hw : 
    ({ ports := true, fwdCtr := true, bufCtr := true, pkts := true, fabCtr := true, schedCtr := true,
       targets := true, drops := true, notices := true, proofCtr := true, evt := true, mirCtr := true,
       telCtr := true, dropCtr := true, portCtr := true, prismCtr := true, timeCtr := true, shares := true,
       irq := true, out := true } : Touch).or wt =
    wt)
    (hK : Frame wt s0 s) (bus : Nat) (d : Nat) (c : Nat × List Nat) (result : Nat) : Frame wt s0 (State.ackResult s
    bus d c result) := by
  refine Frame.step hK hw ?_
  unfold State.ackResult
  (try dsimp only)
  repeat' first
    | ((with_reducible show Touch.or _ _ = _) <;> rfl)
    | with_reducible (first
        | exact Frame.refl | apply State.onBattery_frame | apply State.pruneCmd_frame | apply State.tgtFail_frame
        | apply State.updDrop_frame)
    | (with_reducible refine Frame.foldl _ (fun _ _ hF => ?_) _ ?_) | (intro _ hF; skip) | with_reducible assumption
    | (with_reducible refine Frame.ite (fun _ => ?_) (fun _ => ?_)) | split

theorem State.ackReply_frame {wt : Touch} {s0 s : State} (hw : 
    ({ ports := true, fwdCtr := true, bufCtr := true, pkts := true, fabCtr := true, schedCtr := true,
       targets := true, drops := true, buses := true, notices := true, proofCtr := true, evt := true,
       mirCtr := true, telCtr := true, dropCtr := true, portCtr := true, prismCtr := true, timeCtr := true,
       shares := true, irq := true, out := true } : Touch).or wt = wt)
    (hK : Frame wt s0 s) (bus : Nat) (p : List Byte) : Frame wt s0 (State.ackReply s bus p) := by
  refine Frame.step hK hw ?_
  unfold State.ackReply
  (try dsimp only)
  repeat' first
    | ((with_reducible show Touch.or _ _ = _) <;> rfl)
    | with_reducible (first
        | exact Frame.refl | apply State.ackResult_frame | apply State.missed_frame | apply State.updBus_frame
        | apply State.updDrop_frame)
    | (intro _ hF; skip) | with_reducible assumption | (with_reducible refine Frame.ite (fun _ => ?_) (fun _ => ?_))
    | split

theorem execShelfAckReceived_frame (bus : Nat) (payload : List Byte) (s : State) : OutFrame 
    ({ ports := true, fwdCtr := true, bufCtr := true, pkts := true, fabCtr := true, schedCtr := true,
       targets := true, drops := true, buses := true, notices := true, proofCtr := true, evt := true,
       mirCtr := true, telCtr := true, dropCtr := true, portCtr := true, prismCtr := true, timeCtr := true,
       shares := true, irq := true, out := true } : Touch) s (execShelfAckReceived bus payload s) := by
  unfold execShelfAckReceived
  (try dsimp only)
  repeat' first
    | with_reducible (first | exact OutFrame.fault _ _ | apply OutFrame.next)
    | ((with_reducible show Touch.or _ _ = _) <;> rfl)
    | with_reducible (first | exact Frame.refl | apply State.ackReply_frame)
    | (with_reducible refine Frame.ite (fun _ => ?_) (fun _ => ?_)) | split

theorem State.identReply_frame {wt : Touch} {s0 s : State} (hw : 
    ({ drops := true, buses := true, proofCtr := true, evt := true, telCtr := true, irq := true, out := true } :
    Touch).or wt = wt)
    (hK : Frame wt s0 s) (bus : Nat) (p : List Byte) : Frame wt s0 (State.identReply s bus p) := by
  refine Frame.step hK hw ?_
  unfold State.identReply
  (try dsimp only)
  repeat' first
    | ((with_reducible show Touch.or _ _ = _) <;> rfl)
    | with_reducible (first
        | exact Frame.refl | apply State.missed_frame | apply State.updBus_frame | apply State.updDrop_frame)
    | (intro _ hF; skip) | with_reducible assumption | (with_reducible refine Frame.ite (fun _ => ?_) (fun _ => ?_))
    | split

theorem execShelfIdentReceived_frame (bus : Nat) (payload : List Byte) (s : State) : OutFrame 
    ({ drops := true, buses := true, proofCtr := true, evt := true, telCtr := true, irq := true, out := true } :
    Touch) s (execShelfIdentReceived bus payload s) := by
  unfold execShelfIdentReceived
  (try dsimp only)
  repeat' first
    | with_reducible (first | exact OutFrame.fault _ _ | apply OutFrame.next)
    | ((with_reducible show Touch.or _ _ = _) <;> rfl)
    | with_reducible (first | exact Frame.refl | apply State.identReply_frame)
    | (with_reducible refine Frame.ite (fun _ => ?_) (fun _ => ?_)) | split

theorem applyProofSetClass_frame {wt : Touch} {s0 s : State} (hw : 
    ({ pclasses := true } : Touch).or wt = wt)
    (hK : Frame wt s0 s) (p : List Byte) : Frame wt s0 (applyProofSetClass p s) :=
  hK.step hw (.ofView rfl)

theorem proofSetClassBody_frame {wt : Touch} {s0 s : State} (hw : 
    ({ pclasses := true, sets := true, snapshot := true, heldShadow := true } : Touch).or wt = wt)
    (hK : Frame wt s0 s) (r : Req) : Frame wt s0 (proofSetClassBody r s).1 := by
  refine Frame.step hK hw ?_
  unfold proofSetClassBody
  (try dsimp only)
  repeat' first
    | ((with_reducible show Touch.or _ _ = _) <;> rfl) | with_reducible exact Frame.refl
    | exact setCmd_frame rfl (fun p _ => applyProofSetClass_frame rfl .refl p) r _

theorem execProofSetClass_frame (r : Req) (s : State) : OutFrame 
    ({ pools := true, bufCtr := true, waitTx := true, pclasses := true, evt := true, telCtr := true,
       portCtr := true, mbxCtr := true, boxes := true, jobs := true, hist := true, sets := true,
       snapshot := true, heldShadow := true, peers := true, msgs := true, irq := true,
       out := true } : Touch) s (execProofSetClass r s) := 
  mailboxCommand_frame rfl (fun _ => proofSetClassBody_frame rfl .refl r)

theorem State.validate_frame {wt : Touch} {s0 s : State} (hw : 
    ({ targets := true } : Touch).or wt = wt)
    (hK : Frame wt s0 s) (idx : Nat) (p : List Byte) : Frame wt s0 (State.validate s idx p) := by
  refine Frame.step hK hw ?_
  unfold State.validate
  (try dsimp only)
  repeat' first
    | ((with_reducible show Touch.or _ _ = _) <;> rfl)
    | with_reducible (first | exact Frame.refl | apply State.updTarget_frame) | (intro _ hF; skip)
    | (with_reducible refine Frame.ite (fun _ => ?_) (fun _ => ?_))

theorem State.devalidate_frame {wt : Touch} {s0 s : State} (hw : 
    ({ ports := true, targets := true, drops := true, notices := true, proofCtr := true, evt := true,
       telCtr := true, portCtr := true, irq := true, out := true } : Touch).or wt = wt)
    (hK : Frame wt s0 s) (idx : Nat) (p : List Byte) : Frame wt s0 (State.devalidate s idx p) := by
  refine Frame.step hK hw ?_
  unfold State.devalidate
  (try dsimp only)
  repeat' first
    | ((with_reducible show Touch.or _ _ = _) <;> rfl)
    | with_reducible (first
        | exact Frame.refl | apply State.dropWake_frame | apply State.tgtReady_frame | apply State.updTarget_frame)
    | (intro _ hF; skip) | with_reducible assumption | (with_reducible refine Frame.ite (fun _ => ?_) (fun _ => ?_))

theorem applyProofSetTarget_frame {wt : Touch} {s0 s : State} (hw : 
    ({ ports := true, targets := true, drops := true, notices := true, proofCtr := true, evt := true,
       telCtr := true, portCtr := true, irq := true, out := true } : Touch).or wt = wt)
    (hK : Frame wt s0 s) (p : List Byte) : Frame wt s0 (applyProofSetTarget p s) := by
  refine Frame.step hK hw ?_
  unfold applyProofSetTarget
  (try dsimp only)
  repeat' first
    | ((with_reducible show Touch.or _ _ = _) <;> rfl)
    | with_reducible (first | exact Frame.refl | apply State.devalidate_frame | apply State.validate_frame)
    | (with_reducible refine Frame.ite (fun _ => ?_) (fun _ => ?_))

theorem proofSetTargetBody_frame {wt : Touch} {s0 s : State} (hw : 
    ({ ports := true, targets := true, drops := true, notices := true, proofCtr := true, evt := true,
       telCtr := true, portCtr := true, sets := true, snapshot := true, heldShadow := true, irq := true,
       out := true } : Touch).or wt = wt)
    (hK : Frame wt s0 s) (r : Req) : Frame wt s0 (proofSetTargetBody r s).1 := by
  refine Frame.step hK hw ?_
  unfold proofSetTargetBody
  (try dsimp only)
  repeat' first
    | ((with_reducible show Touch.or _ _ = _) <;> rfl) | with_reducible exact Frame.refl
    | exact setCmd_frame rfl (fun p _ => applyProofSetTarget_frame rfl .refl p) r _

theorem execProofSetTarget_frame (r : Req) (s : State) : OutFrame 
    ({ ports := true, pools := true, bufCtr := true, waitTx := true, targets := true, drops := true,
       notices := true, proofCtr := true, evt := true, telCtr := true, portCtr := true, mbxCtr := true,
       boxes := true, jobs := true, hist := true, sets := true, snapshot := true, heldShadow := true,
       peers := true, msgs := true, irq := true, out := true } : Touch) s (execProofSetTarget r s) := 
  mailboxCommand_frame rfl (fun _ => proofSetTargetBody_frame rfl .refl r)

theorem State.proofAction_frame {wt : Touch} {s0 s t : State} (hw : 
    ({ ports := true, targets := true, drops := true, notices := true, proofCtr := true, evt := true,
       telCtr := true, portCtr := true, irq := true, out := true } : Touch).or wt = wt) (h : Frame wt s0 s) {idx action : Nat}
    (e : s.proofAction idx action = some t) : Frame wt s0 t := by
  refine h.step hw ?_
  unfold State.proofAction at e
  dsimp only at e
  repeat' split at e
  all_goals first | cases e | injection e with e; subst e
  · exact State.spinDown_frame rfl .refl _
  · exact State.queueWake_frame rfl .refl _
  · exact State.tgtReady_frame rfl .refl _ _
  · exact State.setTgt_frame rfl .refl _ _

theorem proofSetStateBody_frame {wt : Touch} {s0 s : State} (hw : 
    ({ ports := true, targets := true, drops := true, notices := true, proofCtr := true, evt := true,
       telCtr := true, portCtr := true, irq := true, out := true } : Touch).or wt = wt) (h : Frame wt s0 s) (r : Req) :
    Frame wt s0 (proofSetStateBody r s).1 := by
  unfold proofSetStateBody
  split
  · exact h
  · split
    · next e => exact State.proofAction_frame (Touch.le_trans rfl hw) h e
    · exact h

theorem execProofSetState_frame (r : Req) (s : State) : OutFrame 
    ({ ports := true, pools := true, bufCtr := true, waitTx := true, targets := true, drops := true,
       notices := true, proofCtr := true, evt := true, telCtr := true, portCtr := true, mbxCtr := true,
       boxes := true, jobs := true, hist := true, peers := true, msgs := true, irq := true,
       out := true } : Touch) s
    (execProofSetState r s) :=
  mailboxCommand_frame rfl (fun _ => proofSetStateBody_frame rfl .refl r)

theorem proofGetTargetBody_frame {wt : Touch} {s0 s : State} (hw : ({} : Touch).or wt = wt)
    (hK : Frame wt s0 s) (r : Req) : Frame wt s0 (proofGetTargetBody r s).1 := by
  refine Frame.step hK hw ?_
  unfold proofGetTargetBody
  (try dsimp only)
  repeat' first
    | ((with_reducible show Touch.or _ _ = _) <;> rfl)
    | with_reducible (first | exact Frame.refl | apply readCmd_frame) | (intro _ hF; skip)

theorem execProofGetTarget_frame (r : Req) (s : State) : OutFrame 
    ({ pools := true, bufCtr := true, waitTx := true, evt := true, telCtr := true, portCtr := true,
       mbxCtr := true, boxes := true, jobs := true, hist := true, peers := true, msgs := true, irq := true,
       out := true } : Touch) s (execProofGetTarget r s) := 
  mailboxCommand_frame rfl (fun _ => proofGetTargetBody_frame rfl .refl r)

theorem applyShelfSet_frame {wt : Touch} {s0 s : State} (hw :
    ({ drops := true } : Touch).or wt = wt)
    (hK : Frame wt s0 s) (p : List Byte) :
    Frame wt s0 (applyShelfSet p s) := by
  refine Frame.step hK hw ?_
  unfold applyShelfSet
  (try dsimp only)
  repeat' first
    | ((with_reducible show Touch.or _ _ = _) <;> rfl)
    | with_reducible (first | exact Frame.refl | apply State.updDrop_frame)
    | (with_reducible refine Frame.foldl _ (fun _ _ hF => ?_) _ ?_)
    | (intro _ hF; skip) | with_reducible assumption
    | (with_reducible refine Frame.ite (fun _ => ?_) (fun _ => ?_)) | split
    | fail_if_no_progress ((with_reducible apply Frame.fields); (case hq => rfl); (case hc => rfl))

theorem shelfSetBody_frame {wt : Touch} {s0 s : State} (hw : 
    ({ drops := true, sets := true, snapshot := true, heldShadow := true } : Touch).or wt = wt)
    (hK : Frame wt s0 s) (r : Req) : Frame wt s0 (shelfSetBody r s).1 := by
  refine Frame.step hK hw ?_
  unfold shelfSetBody
  (try dsimp only)
  repeat' first
    | ((with_reducible show Touch.or _ _ = _) <;> rfl) | with_reducible exact Frame.refl
    | exact setCmd_frame rfl (fun p _ => applyShelfSet_frame rfl .refl p) r _

theorem execShelfSet_frame (r : Req) (s : State) : OutFrame 
    ({ pools := true, bufCtr := true, waitTx := true, drops := true, evt := true, telCtr := true,
       portCtr := true, mbxCtr := true, boxes := true, jobs := true, hist := true, sets := true,
       snapshot := true, heldShadow := true, peers := true, msgs := true, irq := true,
       out := true } : Touch) s (execShelfSet r s) := 
  mailboxCommand_frame rfl (fun _ => shelfSetBody_frame rfl .refl r)

theorem shelfGetBody_frame {wt : Touch} {s0 s : State} (hw : ({} : Touch).or wt = wt)
    (hK : Frame wt s0 s) (r : Req) : Frame wt s0 (shelfGetBody r s).1 := by
  refine Frame.step hK hw ?_
  unfold shelfGetBody
  (try dsimp only)
  repeat' first
    | ((with_reducible show Touch.or _ _ = _) <;> rfl)
    | with_reducible (first | exact Frame.refl | apply readCmd_frame) | (intro _ hF; skip)
    | (with_reducible refine Frame.ite (fun _ => ?_) (fun _ => ?_))

theorem execShelfGet_frame (r : Req) (s : State) : OutFrame 
    ({ pools := true, bufCtr := true, waitTx := true, evt := true, telCtr := true, portCtr := true,
       mbxCtr := true, boxes := true, jobs := true, hist := true, peers := true, msgs := true, irq := true,
       out := true } : Touch) s (execShelfGet r s) := 
  mailboxCommand_frame rfl (fun _ => shelfGetBody_frame rfl .refl r)

theorem applyShelfSetBus_frame {wt : Touch} {s0 s : State} (hw : 
    ({ buses := true } : Touch).or wt = wt)
    (hK : Frame wt s0 s) (p : List Byte) : Frame wt s0 (applyShelfSetBus p s) := by
  refine Frame.step hK hw ?_
  unfold applyShelfSetBus
  (try dsimp only)
  repeat' first
    | ((with_reducible show Touch.or _ _ = _) <;> rfl)
    | with_reducible (first | exact Frame.refl | apply State.updBus_frame) | (intro _ hF; skip)
    | (with_reducible refine Frame.ite (fun _ => ?_) (fun _ => ?_))

theorem shelfSetBusBody_frame {wt : Touch} {s0 s : State} (hw : 
    ({ buses := true, sets := true, snapshot := true, heldShadow := true } : Touch).or wt = wt)
    (hK : Frame wt s0 s) (r : Req) : Frame wt s0 (shelfSetBusBody r s).1 := by
  refine Frame.step hK hw ?_
  unfold shelfSetBusBody
  (try dsimp only)
  repeat' first
    | ((with_reducible show Touch.or _ _ = _) <;> rfl) | with_reducible exact Frame.refl
    | exact setCmd_frame rfl (fun p _ => applyShelfSetBus_frame rfl .refl p) r _

theorem execShelfSetBus_frame (r : Req) (s : State) : OutFrame 
    ({ pools := true, bufCtr := true, waitTx := true, buses := true, evt := true, telCtr := true,
       portCtr := true, mbxCtr := true, boxes := true, jobs := true, hist := true, sets := true,
       snapshot := true, heldShadow := true, peers := true, msgs := true, irq := true,
       out := true } : Touch) s (execShelfSetBus r s) := 
  mailboxCommand_frame rfl (fun _ => shelfSetBusBody_frame rfl .refl r)

theorem proofGetCountersBody_frame {wt : Touch} {s0 s : State} (hw : ({} : Touch).or wt = wt)
    (hK : Frame wt s0 s) (r : Req) : Frame wt s0 (proofGetCountersBody r s).1 := by
  refine Frame.step hK hw ?_
  unfold proofGetCountersBody
  (try dsimp only)
  repeat' first
    | ((with_reducible show Touch.or _ _ = _) <;> rfl)
    | with_reducible (first | exact Frame.refl | apply readCmd_frame) | (intro _ hF; skip)

theorem execProofGetCounters_frame (r : Req) (s : State) : OutFrame 
    ({ pools := true, bufCtr := true, waitTx := true, evt := true, telCtr := true, portCtr := true,
       mbxCtr := true, boxes := true, jobs := true, hist := true, peers := true, msgs := true, irq := true,
       out := true } : Touch) s (execProofGetCounters r s) := 
  mailboxCommand_frame rfl (fun _ => proofGetCountersBody_frame rfl .refl r)

end Sys2Proof.Machine
end

