-- ==== Sys2Proof/Laws/FrameChannels.lean ====
section
/-! SUPPORT. What the operations of Channels may change. -/

set_option Elab.async false
set_option linter.all false

namespace Sys2Proof.Machine

theorem State.putStaging_frame {wt : Touch} {s0 s : State} (hw : 
    ({ fix := true, staging := true } : Touch).or wt = wt)
    (hK : Frame wt s0 s) (o : Nat) (b : Byte) : Frame wt s0 (State.putStaging s o b) := by
  refine Frame.step hK hw ?_
  unfold State.putStaging
  (try dsimp only)
  repeat' first
    | ((with_reducible show Touch.or _ _ = _) <;> rfl)
    | with_reducible (first | exact Frame.refl | apply State.updFix_frame) | (intro _ hF; skip)
    | with_reducible assumption | split
    | fail_if_no_progress ((with_reducible apply Frame.fields); (case hq => rfl); (case hc => rfl))

theorem State.putStagingBytes_frame {wt : Touch} {s0 s : State} (hw : 
    ({ fix := true, staging := true } : Touch).or wt = wt)
    (hK : Frame wt s0 s) (o : Nat) (vv : List Byte) : Frame wt s0 (State.putStagingBytes s o vv) := by
  refine Frame.step hK hw ?_
  clear hK
  induction vv generalizing s o with
  | nil => exact Frame.refl | cons a l ih =>
    unfold State.putStagingBytes
    (try dsimp only)
    repeat' first
      | ((with_reducible show Touch.or _ _ = _) <;> rfl) | with_reducible exact Frame.refl
      | with_reducible (refine Frame.trans ?_ (ih ..)) | with_reducible apply State.putStaging_frame

theorem State.sendReq_frame {wt : Touch} {s0 s : State} (hw :
    ({ chans := true, out := true } : Touch).or wt = wt)
    (hK : Frame wt s0 s) (c : Nat) (r : ReadReq) :
    Frame wt s0 (State.sendReq s c r) := by
  refine Frame.step hK hw ?_
  unfold State.sendReq
  (try dsimp only)
  repeat' first
    | ((with_reducible show Touch.or _ _ = _) <;> rfl)
    | with_reducible (first | exact Frame.refl | apply State.updChan_frame | apply State.emit_frame)
    | (with_reducible refine Frame.foldl _ (fun _ _ hF => ?_) _ ?_)
    | (intro _ hF; skip) | with_reducible assumption
    | (with_reducible refine Frame.ite (fun _ => ?_) (fun _ => ?_)) | split
    | fail_if_no_progress ((with_reducible apply Frame.fields); (case hq => rfl); (case hc => rfl))

theorem State.askReq_frame {wt : Touch} {s0 s : State} (hw :
    ({ chans := true, waitFetch := true, out := true } : Touch).or wt = wt)
    (hK : Frame wt s0 s) (c : Nat) (r : ReadReq) :
    Frame wt s0 (State.askReq s c r) := by
  refine Frame.step hK hw ?_
  unfold State.askReq
  (try dsimp only)
  repeat' first
    | ((with_reducible show Touch.or _ _ = _) <;> rfl)
    | with_reducible (first | exact Frame.refl | apply State.updChan_frame | apply State.sendReq_frame)
    | (with_reducible refine Frame.foldl _ (fun _ _ hF => ?_) _ ?_)
    | (intro _ hF; skip) | with_reducible assumption
    | (with_reducible refine Frame.ite (fun _ => ?_) (fun _ => ?_)) | split
    | fail_if_no_progress ((with_reducible apply Frame.fields); (case hq => rfl); (case hc => rfl))

theorem State.askRead_frame {wt : Touch} {s0 s : State} (hw :
    ({ chans := true, waitFetch := true, out := true } : Touch).or wt = wt)
    (hK : Frame wt s0 s) (c : Nat) (r : ReadReq) :
    Frame wt s0 (State.askRead s c r) := by
  refine Frame.step hK hw ?_
  unfold State.askRead
  (try dsimp only)
  repeat' first
    | ((with_reducible show Touch.or _ _ = _) <;> rfl)
    | with_reducible (first
        | exact Frame.refl | apply State.updChan_frame | apply State.askReq_frame)
    | (with_reducible refine Frame.foldl _ (fun _ _ hF => ?_) _ ?_)
    | (intro _ hF; skip) | with_reducible assumption
    | (with_reducible refine Frame.ite (fun _ => ?_) (fun _ => ?_)) | split
    | fail_if_no_progress ((with_reducible apply Frame.fields); (case hq => rfl); (case hc => rfl))

theorem State.askDesc_frame {wt : Touch} {s0 s : State} (hw :
    ({ chans := true, waitFetch := true, out := true } : Touch).or wt = wt)
    (hK : Frame wt s0 s) (c : Nat) (a : Nat) :
    Frame wt s0 (State.askDesc s c a) := by
  refine Frame.step hK hw ?_
  unfold State.askDesc
  (try dsimp only)
  repeat' first
    | ((with_reducible show Touch.or _ _ = _) <;> rfl)
    | with_reducible (first | exact Frame.refl | apply State.askRead_frame)
    | (with_reducible refine Frame.foldl _ (fun _ _ hF => ?_) _ ?_)
    | (intro _ hF; skip) | with_reducible assumption
    | (with_reducible refine Frame.ite (fun _ => ?_) (fun _ => ?_)) | split
    | fail_if_no_progress ((with_reducible apply Frame.fields); (case hq => rfl); (case hc => rfl))

theorem State.serveReads_frame {wt : Touch} {s0 s : State} (hw : 
    ({ chans := true, waitFetch := true, out := true } : Touch).or wt = wt)
    (hK : Frame wt s0 s) : Frame wt s0 (State.serveReads s) := by
  refine Frame.step hK hw ?_
  unfold State.serveReads
  (try dsimp only)
  repeat' first
    | ((with_reducible show Touch.or _ _ = _) <;> rfl)
    | with_reducible (first
        | exact Frame.refl | apply State.updChan_frame | apply State.sendReq_frame)
    | (intro _ hF; skip) | with_reducible assumption | (with_reducible refine Frame.ite (fun _ => ?_) (fun _ => ?_))
    | split | fail_if_no_progress ((with_reducible apply Frame.fields); (case hq => rfl); (case hc => rfl))

theorem State.readDone_frame {wt : Touch} {s0 s : State} (hw :
    ({ chans := true, waitFetch := true, out := true } : Touch).or wt = wt)
    (hK : Frame wt s0 s) (c : Nat) (n : Nat) :
    Frame wt s0 (State.readDone s c n) := by
  refine Frame.step hK hw ?_
  unfold State.readDone
  (try dsimp only)
  repeat' first
    | ((with_reducible show Touch.or _ _ = _) <;> rfl)
    | with_reducible (first | exact Frame.refl | apply State.serveReads_frame | apply State.updChan_frame)
    | (with_reducible refine Frame.foldl _ (fun _ _ hF => ?_) _ ?_)
    | (intro _ hF; skip) | with_reducible assumption
    | (with_reducible refine Frame.ite (fun _ => ?_) (fun _ => ?_)) | split
    | fail_if_no_progress ((with_reducible apply Frame.fields); (case hq => rfl); (case hc => rfl))

theorem State.drainReads_frame {wt : Touch} {s0 s : State} (hw :
    ({ chans := true, waitFetch := true, out := true } : Touch).or wt = wt)
    (hK : Frame wt s0 s) (n c : Nat) : Frame wt s0 (State.drainReads n s c) := by
  induction n generalizing s with
  | zero => exact hK
  | succ n ih =>
    unfold State.drainReads
    refine Frame.ite (fun _ => hK) (fun _ => ih ?_)
    exact State.readDone_frame (Touch.le_trans rfl hw) (State.updChan_frame (Touch.le_trans rfl hw) hK _ _) _ _

theorem State.dataDone_frame {wt : Touch} {s0 s : State} (hw :
    ({ chans := true, waitFetch := true, out := true } : Touch).or wt = wt)
    (hK : Frame wt s0 s) (c : Nat) :
    Frame wt s0 (State.dataDone s c) := by
  refine Frame.step hK hw ?_
  unfold State.dataDone
  (try dsimp only)
  repeat' first
    | ((with_reducible show Touch.or _ _ = _) <;> rfl)
    | with_reducible (first | exact Frame.refl | apply State.updChan_frame | apply State.readDone_frame)
    | (with_reducible refine Frame.foldl _ (fun _ _ hF => ?_) _ ?_)
    | (intro _ hF; skip) | with_reducible assumption
    | (with_reducible refine Frame.ite (fun _ => ?_) (fun _ => ?_)) | split
    | fail_if_no_progress ((with_reducible apply Frame.fields); (case hq => rfl); (case hc => rfl))

theorem State.tagsBack_frame {wt : Touch} {s0 s : State} (hw :
    ({ chans := true, waitFetch := true, out := true } : Touch).or wt = wt)
    (hK : Frame wt s0 s) (c : Nat) :
    Frame wt s0 (State.tagsBack s c) := by
  refine Frame.step hK hw ?_
  unfold State.tagsBack
  (try dsimp only)
  repeat' first
    | ((with_reducible show Touch.or _ _ = _) <;> rfl)
    | with_reducible (first | exact Frame.refl | apply State.updChan_frame | apply State.readDone_frame)
    | (with_reducible refine Frame.foldl _ (fun _ _ hF => ?_) _ ?_)
    | (intro _ hF; skip) | with_reducible assumption
    | (with_reducible refine Frame.ite (fun _ => ?_) (fun _ => ?_)) | split
    | fail_if_no_progress ((with_reducible apply Frame.fields); (case hq => rfl); (case hc => rfl))

theorem State.sendData_frame {wt : Touch} {s0 s : State} (hw :
    ({ out := true } : Touch).or wt = wt)
    (hK : Frame wt s0 s) (c : Nat) (d : List Byte) (addr : Nat) (data : List Byte) :
    Frame wt s0 (State.sendData s c d addr data) := by
  refine Frame.step hK hw ?_
  unfold State.sendData
  (try dsimp only)
  repeat' first
    | ((with_reducible show Touch.or _ _ = _) <;> rfl)
    | with_reducible (first | exact Frame.refl | apply State.emit_frame)
    | (with_reducible refine Frame.foldl _ (fun _ _ hF => ?_) _ ?_)
    | (intro _ hF; skip) | with_reducible assumption
    | (with_reducible refine Frame.ite (fun _ => ?_) (fun _ => ?_)) | split
    | fail_if_no_progress ((with_reducible apply Frame.fields); (case hq => rfl); (case hc => rfl))

theorem State.cqOne_frame {wt : Touch} {s0 s : State} (hw : 
    ({ irq := true, chans := true, waitFetch := true, out := true } : Touch).or wt = wt)
    (hK : Frame wt s0 s) (c : Nat) : Frame wt s0 (State.cqOne s c) := by
  refine Frame.step hK hw ?_
  unfold State.cqOne
  (try dsimp only)
  repeat' first
    | ((with_reducible show Touch.or _ _ = _) <;> rfl)
    | with_reducible (first
        | exact Frame.refl | apply State.askRead_frame | apply State.emit_frame | apply State.interrupt_frame
        | apply State.updChan_frame)
    | (intro _ hF; skip) | with_reducible assumption | (with_reducible refine Frame.ite (fun _ => ?_) (fun _ => ?_))
    | split

theorem State.cqPump_frame {wt : Touch} {s0 s : State} (hw : 
    ({ irq := true, chans := true, waitFetch := true, out := true } : Touch).or wt = wt)
    (hK : Frame wt s0 s) (c : Nat) : Frame wt s0 (State.cqPump s c) := by
  refine Frame.step hK hw ?_
  unfold State.cqPump
  (try dsimp only)
  repeat' first
    | ((with_reducible show Touch.or _ _ = _) <;> rfl)
    | with_reducible (first | exact Frame.refl | apply State.cqOne_frame)
    | (with_reducible refine Frame.foldl _ (fun _ _ hF => ?_) _ ?_) | (intro _ hF; skip) | with_reducible assumption

theorem State.dropPartial_frame {wt : Touch} {s0 s : State} (hw : 
    ({ fifos := true } : Touch).or wt = wt)
    (hK : Frame wt s0 s) (c : Nat) : Frame wt s0 (State.dropPartial s c) := by
  refine Frame.step hK hw ?_
  unfold State.dropPartial
  (try dsimp only)
  repeat' first
    | ((with_reducible show Touch.or _ _ = _) <;> rfl)
    | with_reducible (first | exact Frame.refl | apply State.updFifo_frame) | (intro _ hF; skip)
    | with_reducible assumption | (with_reducible refine Frame.ite (fun _ => ?_) (fun _ => ?_))

theorem State.chanStop_frame {wt : Touch} {s0 s : State} (hw : 
    ({ chans := true, fifos := true } : Touch).or wt = wt)
    (hK : Frame wt s0 s) (c : Nat) : Frame wt s0 (State.chanStop s c) := by
  refine Frame.step hK hw ?_
  unfold State.chanStop
  (try dsimp only)
  repeat' first
    | ((with_reducible show Touch.or _ _ = _) <;> rfl)
    | with_reducible (first | exact Frame.refl | apply State.dropPartial_frame | apply State.updChan_frame)
    | (intro _ hF; skip)

theorem State.chanFetch_frame {wt : Touch} {s0 s : State} (hw : 
    ({ chans := true, waitFetch := true, out := true } : Touch).or wt = wt)
    (hK : Frame wt s0 s) (c : Nat) (a : BitVec 64) : Frame wt s0 (State.chanFetch s c a) := by
  refine Frame.step hK hw ?_
  unfold State.chanFetch
  (try dsimp only)
  repeat' first
    | ((with_reducible show Touch.or _ _ = _) <;> rfl)
    | with_reducible (first
        | exact Frame.refl | apply State.askRead_frame | apply State.updChan_frame | apply State.askDesc_frame)
    | (intro _ hF; skip)

theorem State.chanFollow_frame {wt : Touch} {s0 s : State} (hw : 
    ({ chans := true, waitFetch := true, out := true } : Touch).or wt = wt)
    (hK : Frame wt s0 s) (c : Nat) (link : BitVec 64) : Frame wt s0 (State.chanFollow s c link) := by
  refine Frame.step hK hw ?_
  unfold State.chanFollow
  (try dsimp only)
  repeat' first
    | ((with_reducible show Touch.or _ _ = _) <;> rfl)
    | with_reducible (first | exact Frame.refl | apply State.chanFetch_frame | apply State.updChan_frame)
    | (intro _ hF; skip) | (with_reducible refine Frame.ite (fun _ => ?_) (fun _ => ?_))

theorem State.tailCheck_frame {wt : Touch} {s0 s : State} (hw : 
    ({ chans := true, waitFetch := true, out := true } : Touch).or wt = wt)
    (hK : Frame wt s0 s) (c : Nat) : Frame wt s0 (State.tailCheck s c) := by
  refine Frame.step hK hw ?_
  unfold State.tailCheck
  (try dsimp only)
  repeat' first
    | ((with_reducible show Touch.or _ _ = _) <;> rfl)
    | with_reducible (first
        | exact Frame.refl | apply State.askRead_frame | apply State.updChan_frame | apply State.askDesc_frame)
    | (intro _ hF; skip) | with_reducible assumption | (with_reducible refine Frame.ite (fun _ => ?_) (fun _ => ?_))

theorem State.chanNext_frame {wt : Touch} {s0 s : State} (hw : 
    ({ chans := true, fifos := true, waitFetch := true, out := true } : Touch).or wt = wt)
    (hK : Frame wt s0 s) (c : Nat) : Frame wt s0 (State.chanNext s c) := by
  refine Frame.step hK hw ?_
  unfold State.chanNext
  (try dsimp only)
  repeat' first
    | ((with_reducible show Touch.or _ _ = _) <;> rfl)
    | with_reducible (first
        | exact Frame.refl | apply State.chanFollow_frame | apply State.chanStop_frame | apply State.tailCheck_frame
        | apply State.updChan_frame)
    | (intro _ hF; skip) | with_reducible assumption | (with_reducible refine Frame.ite (fun _ => ?_) (fun _ => ?_))

theorem State.chanGoOn_frame {wt : Touch} {s0 s : State} (hw : 
    ({ chans := true, fifos := true, waitFetch := true, out := true } : Touch).or wt = wt)
    (hK : Frame wt s0 s) (c : Nat) : Frame wt s0 (State.chanGoOn s c) := by
  refine Frame.step hK hw ?_
  unfold State.chanGoOn
  (try dsimp only)
  repeat' first
    | ((with_reducible show Touch.or _ _ = _) <;> rfl)
    | with_reducible (first | exact Frame.refl | apply State.chanNext_frame | apply State.updChan_frame)
    | (intro _ hF; skip) | with_reducible assumption | (with_reducible refine Frame.ite (fun _ => ?_) (fun _ => ?_))

theorem State.cqResume_frame {wt : Touch} {s0 s : State} (hw : 
    ({ irq := true, chans := true, fifos := true, waitFetch := true, out := true } : Touch).or wt = wt)
    (hK : Frame wt s0 s) (c : Nat) : Frame wt s0 (State.cqResume s c) := by
  refine Frame.step hK hw ?_
  unfold State.cqResume
  (try dsimp only)
  repeat' first
    | ((with_reducible show Touch.or _ _ = _) <;> rfl)
    | with_reducible (first | exact Frame.refl | apply State.chanGoOn_frame | apply State.cqPump_frame)
    | (with_reducible refine Frame.ite (fun _ => ?_) (fun _ => ?_))

theorem State.chanHalt_frame {wt : Touch} {s0 s : State} (hw : 
    ({ evt := true, telCtr := true, irq := true, chans := true, fifos := true, out := true } : Touch).or wt = wt)
    (hK : Frame wt s0 s) (c : Nat) (status : Nat) : Frame wt s0 (State.chanHalt s c status) := by
  refine Frame.step hK hw ?_
  unfold State.chanHalt
  (try dsimp only)
  repeat' first
    | ((with_reducible show Touch.or _ _ = _) <;> rfl)
    | with_reducible (first
        | exact Frame.refl | apply State.dropPartial_frame | apply State.interrupt_frame | apply State.raise_frame
        | apply State.updChan_frame)
    | (intro _ hF; skip)

theorem State.chanDone_frame {wt : Touch} {s0 s : State} (hw : 
    ({ evt := true, telCtr := true, irq := true, chans := true, fifos := true, waitFetch := true, out := true } :
    Touch).or wt = wt)
    (hK : Frame wt s0 s) (c : Nat) (status : Nat) (n : Nat) (sop : Bool) (eop : Bool) : Frame wt s0 (State.chanDone s
    c status n sop eop) := by
  refine Frame.step hK hw ?_
  unfold State.chanDone
  (try dsimp only)
  repeat' first
    | ((with_reducible show Touch.or _ _ = _) <;> rfl)
    | with_reducible (first
        | exact Frame.refl | apply State.chanGoOn_frame | apply State.chanHalt_frame | apply State.cqPump_frame
        | apply State.updChan_frame)
    | (intro _ hF; skip) | with_reducible assumption | (with_reducible refine Frame.ite (fun _ => ?_) (fun _ => ?_))

theorem State.chanError_frame {wt : Touch} {s0 s : State} (hw : 
    ({ evt := true, telCtr := true, irq := true, chans := true, fifos := true, waitFetch := true, out := true,
       free := true } : Touch).or wt = wt)
    (hK : Frame wt s0 s) (c : Nat) (status : Nat) : Frame wt s0 (State.chanError s c status) := by
  refine Frame.step hK hw ?_
  unfold State.chanError
  (try dsimp only)
  repeat' first
    | ((with_reducible show Touch.or _ _ = _) <;> rfl)
    | with_reducible (first | exact Frame.refl | apply State.chanDone_frame | apply State.drawn_frame)

theorem State.takeDesc_frame {wt : Touch} {s0 s : State} (hw : 
    ({ evt := true, telCtr := true, irq := true, chans := true, fifos := true, waitFetch := true, out := true } :
    Touch).or wt = wt)
    (hK : Frame wt s0 s) (c : Nat) (d : List Byte) : Frame wt s0 (State.takeDesc s c d) := by
  refine Frame.step hK hw ?_
  unfold State.takeDesc
  (try dsimp only)
  repeat' first
    | ((with_reducible show Touch.or _ _ = _) <;> rfl)
    | with_reducible (first
        | exact Frame.refl | apply State.askRead_frame | apply State.chanDone_frame | apply State.updChan_frame)
    | (intro _ hF; skip) | with_reducible assumption | (with_reducible refine Frame.ite (fun _ => ?_) (fun _ => ?_))
    | split

theorem State.descArrives_frame {wt : Touch} {s0 s : State} (hw : 
    ({ evt := true, telCtr := true, irq := true, chans := true, fifos := true, waitFetch := true, out := true } :
    Touch).or wt = wt)
    (hK : Frame wt s0 s) (c : Nat) (d : List Byte) : Frame wt s0 (State.descArrives s c d) := by
  refine Frame.step hK hw ?_
  unfold State.descArrives
  (try dsimp only)
  repeat' first
    | ((with_reducible show Touch.or _ _ = _) <;> rfl)
    | with_reducible (first
        | exact Frame.refl | apply State.readDone_frame | apply State.takeDesc_frame | apply State.updChan_frame
        | apply State.chanHalt_frame | apply State.tagsBack_frame)
    | (with_reducible refine Frame.foldl _ (fun _ _ hF => ?_) _ ?_)
    | (intro _ hF; skip) | with_reducible assumption
    | (with_reducible refine Frame.ite (fun _ => ?_) (fun _ => ?_)) | split
    | fail_if_no_progress ((with_reducible apply Frame.fields); (case hq => rfl); (case hc => rfl))

theorem execDescriptorFetched_frame (ch : Nat) (bytes : List Byte) (s : State) : OutFrame 
    ({ evt := true, telCtr := true, irq := true, chans := true, fifos := true, waitFetch := true, out := true } :
    Touch) s (execDescriptorFetched ch bytes s) := by
  unfold execDescriptorFetched
  (try dsimp only)
  repeat' first
    | with_reducible (first | exact OutFrame.fault _ _ | apply OutFrame.next)
    | ((with_reducible show Touch.or _ _ = _) <;> rfl)
    | with_reducible (first | exact Frame.refl | apply State.descArrives_frame)
    | (with_reducible refine Frame.ite (fun _ => ?_) (fun _ => ?_)) | split

theorem State.staleReread_frame {wt : Touch} {s0 s : State} (hw : 
    ({ evt := true, telCtr := true, irq := true, chans := true, fifos := true, waitFetch := true, out := true } :
    Touch).or wt = wt)
    (hK : Frame wt s0 s) (c : Nat) (d : List Byte) : Frame wt s0 (State.staleReread s c d) := by
  refine Frame.step hK hw ?_
  unfold State.staleReread
  (try dsimp only)
  repeat' first
    | ((with_reducible show Touch.or _ _ = _) <;> rfl)
    | with_reducible (first
        | exact Frame.refl | apply State.chanHalt_frame | apply State.readDone_frame
        | apply State.takeDesc_frame | apply State.updChan_frame | apply State.askDesc_frame)
    | (with_reducible refine Frame.foldl _ (fun _ _ hF => ?_) _ ?_)
    | (intro _ hF; skip) | with_reducible assumption
    | (with_reducible refine Frame.ite (fun _ => ?_) (fun _ => ?_)) | split
    | fail_if_no_progress ((with_reducible apply Frame.fields); (case hq => rfl); (case hc => rfl))

theorem execStaleDescReread_frame (ch : Nat) (bytes : List Byte) (s : State) : OutFrame 
    ({ evt := true, telCtr := true, irq := true, chans := true, fifos := true, waitFetch := true, out := true } :
    Touch) s (execStaleDescReread ch bytes s) := by
  unfold execStaleDescReread
  (try dsimp only)
  repeat' first
    | with_reducible (first | exact OutFrame.fault _ _ | apply OutFrame.next)
    | ((with_reducible show Touch.or _ _ = _) <;> rfl)
    | with_reducible (first | exact Frame.refl | apply State.staleReread_frame)
    | (with_reducible refine Frame.ite (fun _ => ?_) (fun _ => ?_)) | split

theorem State.sendPoisoned_frame {wt : Touch} {s0 s : State} (hw :
    ({ out := true, free := true } : Touch).or wt = wt)
    (hK : Frame wt s0 s) (c : Nat) (d : List Byte) :
    Frame wt s0 (State.sendPoisoned s c d) := by
  refine Frame.step hK hw ?_
  unfold State.sendPoisoned
  (try dsimp only)
  repeat' first
    | ((with_reducible show Touch.or _ _ = _) <;> rfl)
    | with_reducible (first
        | exact Frame.refl | apply State.drawn_frame | apply State.sendData_frame | apply State.emit_frame)
    | (with_reducible refine Frame.foldl _ (fun _ _ hF => ?_) _ ?_)
    | (intro _ hF; skip) | with_reducible assumption
    | (with_reducible refine Frame.ite (fun _ => ?_) (fun _ => ?_)) | split
    | fail_if_no_progress ((with_reducible apply Frame.fields); (case hq => rfl); (case hc => rfl))

theorem State.memTransfer_frame {wt : Touch} {s0 s : State} (hw : 
    ({ fix := true, evt := true, telCtr := true, irq := true, chans := true, fifos := true, waitFetch := true,
       staging := true, out := true, free := true } : Touch).or wt = wt)
    (hK : Frame wt s0 s) (c : Nat) (d : List Byte) (err : Bool) (data : List Byte) : Frame wt s0 (State.memTransfer s
    c d err data) := by
  refine Frame.step hK hw ?_
  unfold State.memTransfer
  (try dsimp only)
  repeat' first
    | ((with_reducible show Touch.or _ _ = _) <;> rfl)
    | with_reducible (first
        | exact Frame.refl | apply State.chanDone_frame | apply State.chanError_frame | apply State.emit_frame
        | apply State.putStagingBytes_frame | apply State.readDone_frame | apply State.sendPoisoned_frame
        | apply State.sendData_frame | apply State.dataDone_frame)
    | (with_reducible refine Frame.ite (fun _ => ?_) (fun _ => ?_))

theorem State.toHostTransfer_frame {wt : Touch} {s0 s : State} (hw : 
    ({ evt := true, telCtr := true, irq := true, chans := true, fifos := true, waitFetch := true, out := true } :
    Touch).or wt = wt)
    (hK : Frame wt s0 s) (c : Nat) (d : List Byte) : Frame wt s0 (State.toHostTransfer s c d) := by
  refine Frame.step hK hw ?_
  unfold State.toHostTransfer
  (try dsimp only)
  repeat' first
    | ((with_reducible show Touch.or _ _ = _) <;> rfl)
    | with_reducible (first
        | exact Frame.refl | apply State.chanDone_frame | apply State.emit_frame | apply State.updChan_frame
        | apply State.updFifo_frame | apply State.sendData_frame)
    | (with_reducible refine Frame.foldl _ (fun _ _ hF => ?_) _ ?_)
    | (intro _ hF; skip) | with_reducible assumption
    | (with_reducible refine Frame.ite (fun _ => ?_) (fun _ => ?_)) | split
    | fail_if_no_progress ((with_reducible apply Frame.fields); (case hq => rfl); (case hc => rfl))

theorem State.fromHostTransfer_frame {wt : Touch} {s0 s : State} (hw : 
    ({ evt := true, telCtr := true, irq := true, chans := true, fifos := true, waitFetch := true, out := true } :
    Touch).or wt = wt)
    (hK : Frame wt s0 s) (c : Nat) (d : List Byte) (data : List Byte) : Frame wt s0 (State.fromHostTransfer s c d
    data) := by
  refine Frame.step hK hw ?_
  unfold State.fromHostTransfer
  (try dsimp only)
  repeat' first
    | ((with_reducible show Touch.or _ _ = _) <;> rfl)
    | with_reducible (first
        | exact Frame.refl | apply State.chanDone_frame | apply State.readDone_frame | apply State.updChan_frame
        | apply State.updFifo_frame | apply State.dataDone_frame)
    | (with_reducible refine Frame.foldl _ (fun _ _ hF => ?_) _ ?_)
    | (intro _ hF; skip) | with_reducible assumption
    | (with_reducible refine Frame.ite (fun _ => ?_) (fun _ => ?_)) | split
    | fail_if_no_progress ((with_reducible apply Frame.fields); (case hq => rfl); (case hc => rfl))

theorem State.transferEnds_frame {wt : Touch} {s0 s : State} (hw :
    ({ fix := true, evt := true, telCtr := true, irq := true, chans := true, fifos := true,
       waitFetch := true, staging := true, out := true, free := true } : Touch).or wt = wt)
    (hK : Frame wt s0 s) (c : Nat) (d : List Byte) (err : Nat) (data : List Byte) :
    Frame wt s0 (State.transferEnds s c d err data) := by
  refine Frame.step hK hw ?_
  unfold State.transferEnds
  (try dsimp only)
  repeat' first
    | ((with_reducible show Touch.or _ _ = _) <;> rfl)
    | with_reducible (first
        | exact Frame.refl | apply State.memTransfer_frame | apply State.toHostTransfer_frame
        | apply State.fromHostTransfer_frame)
    | (with_reducible refine Frame.foldl _ (fun _ _ hF => ?_) _ ?_)
    | (intro _ hF; skip) | with_reducible assumption
    | (with_reducible refine Frame.ite (fun _ => ?_) (fun _ => ?_)) | split
    | fail_if_no_progress ((with_reducible apply Frame.fields); (case hq => rfl); (case hc => rfl))

theorem State.transferDone_frame {wt : Touch} {s0 s : State} (hw : 
    ({ fix := true, evt := true, telCtr := true, irq := true, chans := true, fifos := true, waitFetch := true,
       staging := true, out := true, free := true } : Touch).or wt = wt)
    (hK : Frame wt s0 s) (c : Nat) (err : Nat) (data : List Byte) : Frame wt s0 (State.transferDone s c err data) :=
    by
  refine Frame.step hK hw ?_
  unfold State.transferDone
  (try dsimp only)
  repeat' first
    | ((with_reducible show Touch.or _ _ = _) <;> rfl)
    | with_reducible (first
        | exact Frame.refl | apply State.fromHostTransfer_frame | apply State.memTransfer_frame
        | apply State.toHostTransfer_frame | apply State.tagsBack_frame | apply State.transferEnds_frame
        | apply State.drainReads_frame)
    | (with_reducible refine Frame.ite (fun _ => ?_) (fun _ => ?_)) | split

theorem execDmaTransferDone_frame (ch : Nat) (err : Nat) (data : List Byte) (s : State) : OutFrame 
    ({ fix := true, evt := true, telCtr := true, irq := true, chans := true, fifos := true, waitFetch := true,
       staging := true, out := true, free := true } : Touch) s (execDmaTransferDone ch err data s) := by
  unfold execDmaTransferDone
  (try dsimp only)
  repeat' first
    | with_reducible (first | exact OutFrame.fault _ _ | apply OutFrame.next)
    | ((with_reducible show Touch.or _ _ = _) <;> rfl)
    | with_reducible (first | exact Frame.refl | apply State.transferDone_frame)
    | (with_reducible refine Frame.ite (fun _ => ?_) (fun _ => ?_)) | split

theorem State.chanFlushed_frame {wt : Touch} {s0 s : State} (hw : 
    ({ irq := true, chans := true, fifos := true, waitFetch := true, out := true } : Touch).or wt = wt)
    (hK : Frame wt s0 s) (c : Nat) : Frame wt s0 (State.chanFlushed s c) := by
  refine Frame.step hK hw ?_
  unfold State.chanFlushed
  (try dsimp only)
  repeat' first
    | ((with_reducible show Touch.or _ _ = _) <;> rfl)
    | with_reducible (first
        | exact Frame.refl | apply State.cqResume_frame | apply State.interrupt_frame | apply State.readDone_frame
        | apply State.updChan_frame)
    | (intro _ hF; skip) | with_reducible assumption | (with_reducible refine Frame.ite (fun _ => ?_) (fun _ => ?_))
    | split

theorem execStrictFlushDone_frame (ch : Nat) (s : State) : OutFrame 
    ({ irq := true, chans := true, fifos := true, waitFetch := true, out := true } : Touch) s (execStrictFlushDone ch
    s) := by
  unfold execStrictFlushDone
  (try dsimp only)
  repeat' first
    | with_reducible (first | exact OutFrame.fault _ _ | apply OutFrame.next)
    | ((with_reducible show Touch.or _ _ = _) <;> rfl)
    | with_reducible (first | exact Frame.refl | apply State.chanFlushed_frame)
    | (with_reducible refine Frame.ite (fun _ => ?_) (fun _ => ?_)) | split

theorem State.tailArrives_frame {wt : Touch} {s0 s : State} (hw : 
    ({ evt := true, telCtr := true, irq := true, chans := true, fifos := true, waitFetch := true, out := true } :
    Touch).or wt = wt)
    (hK : Frame wt s0 s) (c : Nat) (d : List Byte) : Frame wt s0 (State.tailArrives s c d) := by
  refine Frame.step hK hw ?_
  unfold State.tailArrives
  (try dsimp only)
  repeat' first
    | ((with_reducible show Touch.or _ _ = _) <;> rfl)
    | with_reducible (first
        | exact Frame.refl | apply State.chanDone_frame | apply State.chanFollow_frame | apply State.readDone_frame
        | apply State.tailCheck_frame | apply State.updChan_frame | apply State.tagsBack_frame)
    | (with_reducible refine Frame.foldl _ (fun _ _ hF => ?_) _ ?_)
    | (intro _ hF; skip) | with_reducible assumption
    | (with_reducible refine Frame.ite (fun _ => ?_) (fun _ => ?_)) | split
    | fail_if_no_progress ((with_reducible apply Frame.fields); (case hq => rfl); (case hc => rfl))

theorem execTailRefetched_frame (ch : Nat) (bytes : List Byte) (s : State) : OutFrame 
    ({ evt := true, telCtr := true, irq := true, chans := true, fifos := true, waitFetch := true, out := true } :
    Touch) s (execTailRefetched ch bytes s) := by
  unfold execTailRefetched
  (try dsimp only)
  repeat' first
    | with_reducible (first | exact OutFrame.fault _ _ | apply OutFrame.next)
    | ((with_reducible show Touch.or _ _ = _) <;> rfl)
    | with_reducible (first | exact Frame.refl | apply State.tailArrives_frame)
    | (with_reducible refine Frame.ite (fun _ => ?_) (fun _ => ?_)) | split

theorem State.readError_frame {wt : Touch} {s0 s : State} (hw : 
    ({ evt := true, telCtr := true, irq := true, chans := true, fifos := true, waitFetch := true, out := true,
       free := true } : Touch).or wt = wt)
    (hK : Frame wt s0 s) (c : Nat) : Frame wt s0 (State.readError s c) := by
  refine Frame.step hK hw ?_
  unfold State.readError
  (try dsimp only)
  repeat' first
    | ((with_reducible show Touch.or _ _ = _) <;> rfl)
    | with_reducible (first
        | exact Frame.refl | apply State.chanDone_frame | apply State.chanError_frame | apply State.readDone_frame
        | apply State.updChan_frame | apply State.tagsBack_frame | apply State.dataDone_frame)
    | (intro _ hF; skip) | with_reducible assumption | (with_reducible refine Frame.ite (fun _ => ?_) (fun _ => ?_))
    | split

theorem State.logAer_frame {wt : Touch} {s0 s : State} (hw :
    ({ irq := true, free := true } : Touch).or wt = wt)
    (hK : Frame wt s0 s) (fn : Nat) :
    Frame wt s0 (State.logAer s fn) := by
  refine Frame.step hK hw ?_
  unfold State.logAer
  (try dsimp only)
  repeat' first
    | ((with_reducible show Touch.or _ _ = _) <;> rfl)
    | with_reducible (first | exact Frame.refl | apply State.drawn_frame | apply State.updLink_frame)
    | (with_reducible refine Frame.foldl _ (fun _ _ hF => ?_) _ ?_)
    | (intro _ hF; skip) | with_reducible assumption
    | (with_reducible refine Frame.ite (fun _ => ?_) (fun _ => ?_)) | split
    | fail_if_no_progress ((with_reducible apply Frame.fields); (case hq => rfl); (case hc => rfl))

theorem execDmaReadError_frame (ch : Nat) (s : State) : OutFrame 
    ({ evt := true, telCtr := true, irq := true, chans := true, fifos := true, waitFetch := true, out := true,
       free := true } : Touch) s (execDmaReadError ch s) := by
  unfold execDmaReadError
  (try dsimp only)
  repeat' first
    | with_reducible (first | exact OutFrame.fault _ _ | apply OutFrame.next)
    | ((with_reducible show Touch.or _ _ = _) <;> rfl)
    | with_reducible (first | exact Frame.refl | apply State.readError_frame | apply State.logAer_frame)
    | (with_reducible refine Frame.ite (fun _ => ?_) (fun _ => ?_)) | split

theorem State.chanStart_frame {wt : Touch} {s0 s : State} (hw : 
    ({ chans := true, waitFetch := true, out := true } : Touch).or wt = wt)
    (hK : Frame wt s0 s) (c : Nat) (cqReset : Bool) : Frame wt s0 (State.chanStart s c cqReset) := by
  refine Frame.step hK hw ?_
  unfold State.chanStart
  (try dsimp only)
  repeat' first
    | ((with_reducible show Touch.or _ _ = _) <;> rfl)
    | with_reducible (first | exact Frame.refl | apply State.chanFetch_frame | apply State.updChan_frame)
    | (intro _ hF; skip) | with_reducible assumption | (with_reducible refine Frame.ite (fun _ => ?_) (fun _ => ?_))

theorem State.chanStopReq_frame {wt : Touch} {s0 s : State} (hw : 
    ({ chans := true, fifos := true } : Touch).or wt = wt)
    (hK : Frame wt s0 s) (c : Nat) : Frame wt s0 (State.chanStopReq s c) := by
  refine Frame.step hK hw ?_
  unfold State.chanStopReq
  (try dsimp only)
  repeat' first
    | ((with_reducible show Touch.or _ _ = _) <;> rfl)
    | with_reducible (first | exact Frame.refl | apply State.chanStop_frame | apply State.updChan_frame)
    | (intro _ hF; skip) | with_reducible assumption | (with_reducible refine Frame.ite (fun _ => ?_) (fun _ => ?_))

theorem State.chanAbort_frame {wt : Touch} {s0 s : State} (hw : 
    ({ chans := true, fifos := true } : Touch).or wt = wt)
    (hK : Frame wt s0 s) (c : Nat) : Frame wt s0 (State.chanAbort s c) := by
  refine Frame.step hK hw ?_
  unfold State.chanAbort
  (try dsimp only)
  repeat' first
    | ((with_reducible show Touch.or _ _ = _) <;> rfl)
    | with_reducible (first | exact Frame.refl | apply State.chanStop_frame | apply State.updChan_frame)
    | (intro _ hF; skip) | with_reducible assumption | (with_reducible refine Frame.ite (fun _ => ?_) (fun _ => ?_))

theorem State.writeCtrl_frame {wt : Touch} {s0 s : State} (hw : 
    ({ evt := true, telCtr := true, irq := true, chans := true, fifos := true, waitFetch := true, out := true } :
    Touch).or wt = wt)
    (hK : Frame wt s0 s) (c : Nat) (v : Nat) (size : Nat) : Frame wt s0 (State.writeCtrl s c v size) := by
  refine Frame.step hK hw ?_
  unfold State.writeCtrl
  (try dsimp only)
  repeat' first
    | ((with_reducible show Touch.or _ _ = _) <;> rfl)
    | with_reducible (first
        | exact Frame.refl | apply State.chanAbort_frame | apply State.chanStart_frame
        | apply State.chanStopReq_frame | apply State.reservedAccess_frame | apply State.updChan_frame)
    | (intro _ hF; skip) | with_reducible assumption | (with_reducible refine Frame.ite (fun _ => ?_) (fun _ => ?_))

theorem execDmaStart_frame (fn : Nat) (ch : Nat) (w : BitVec 64) (s : State) : OutFrame 
    ({ evt := true, telCtr := true, irq := true, chans := true, fifos := true, waitFetch := true, out := true } :
    Touch) s (execDmaStart fn ch w s) := by
  unfold execDmaStart
  (try dsimp only [ctrlRow, onRegister])
  repeat' first
    | with_reducible (first | exact OutFrame.fault _ _ | apply OutFrame.next)
    | ((with_reducible show Touch.or _ _ = _) <;> rfl)
    | with_reducible (first | exact Frame.refl | apply State.reservedAccess_frame | apply State.writeCtrl_frame)
    | split

theorem execDmaStop_frame (fn : Nat) (ch : Nat) (w : BitVec 64) (s : State) : OutFrame 
    ({ evt := true, telCtr := true, irq := true, chans := true, fifos := true, waitFetch := true, out := true } :
    Touch) s (execDmaStop fn ch w s) := by
  unfold execDmaStop
  (try dsimp only [ctrlRow, onRegister])
  repeat' first
    | with_reducible (first | exact OutFrame.fault _ _ | apply OutFrame.next)
    | ((with_reducible show Touch.or _ _ = _) <;> rfl)
    | with_reducible (first | exact Frame.refl | apply State.reservedAccess_frame | apply State.writeCtrl_frame)
    | split

theorem execDmaAbort_frame (fn : Nat) (ch : Nat) (w : BitVec 64) (s : State) : OutFrame 
    ({ evt := true, telCtr := true, irq := true, chans := true, fifos := true, waitFetch := true, out := true } :
    Touch) s (execDmaAbort fn ch w s) := by
  unfold execDmaAbort
  (try dsimp only [ctrlRow, onRegister])
  repeat' first
    | with_reducible (first | exact OutFrame.fault _ _ | apply OutFrame.next)
    | ((with_reducible show Touch.or _ _ = _) <;> rfl)
    | with_reducible (first | exact Frame.refl | apply State.reservedAccess_frame | apply State.writeCtrl_frame)
    | split

theorem State.chanRing_frame {wt : Touch} {s0 s : State} (hw : 
    ({ chans := true, waitFetch := true, out := true } : Touch).or wt = wt)
    (hK : Frame wt s0 s) (c : Nat) : Frame wt s0 (State.chanRing s c) := by
  refine Frame.step hK hw ?_
  unfold State.chanRing
  (try dsimp only)
  repeat' first
    | ((with_reducible show Touch.or _ _ = _) <;> rfl)
    | with_reducible (first | exact Frame.refl | apply State.tailCheck_frame | apply State.updChan_frame)
    | (intro _ hF; skip)

theorem execDmaDoorbell_frame (fn : Nat) (ch : Nat) (w2 : BitVec 64) (s : State) : OutFrame 
    ({ evt := true, telCtr := true, irq := true, chans := true, waitFetch := true, out := true } : Touch) s (execDmaDoorbell fn ch w2 s) := by
  unfold execDmaDoorbell
  (try dsimp only [onRegister])
  repeat' first
    | with_reducible (first | exact OutFrame.fault _ _ | apply OutFrame.next)
    | ((with_reducible show Touch.or _ _ = _) <;> rfl)
    | with_reducible (first
        | exact Frame.refl | apply State.chanRing_frame | apply State.reservedAccess_frame
        | apply State.writeCtrl_frame)
    | (with_reducible refine Frame.ite (fun _ => ?_) (fun _ => ?_)) | split

theorem State.chanFifoReset_frame {wt : Touch} {s0 s : State} (hw : 
    ({ evt := true, telCtr := true, irq := true, chans := true, fifos := true, waitFetch := true, out := true } :
    Touch).or wt = wt)
    (hK : Frame wt s0 s) (f : Nat) (c : Nat) : Frame wt s0 (State.chanFifoReset s f c) := by
  refine Frame.step hK hw ?_
  unfold State.chanFifoReset
  (try dsimp only)
  repeat' first
    | ((with_reducible show Touch.or _ _ = _) <;> rfl)
    | with_reducible (first | exact Frame.refl | apply State.toHostTransfer_frame | apply State.updChan_frame)
    | (intro _ hF; skip) | with_reducible assumption | (with_reducible refine Frame.ite (fun _ => ?_) (fun _ => ?_))

theorem State.dropHostTx_frame {wt : Touch} {s0 s : State} (hw :
    ({ ports := true, prismFlight := true, fwdCtr := true, bufCtr := true, pkts := true, nextPkt := true,
       pairs := true, fabPorts := true, fabCtr := true, nodes := true, egq := true, schedCtr := true,
       mirrors := true, cand := true, mirQ := true, mirCtr := true, telCtr := true, dropCtr := true,
       portCtr := true, prismCtr := true, timeCtr := true, shares := true, free := true } : Touch).or wt = wt)
    (hK : Frame wt s0 s) (f : Nat) :
    Frame wt s0 (State.dropHostTx s f) := by
  refine Frame.step hK hw ?_
  unfold State.dropHostTx
  (try dsimp only)
  repeat' first
    | ((with_reducible show Touch.or _ _ = _) <;> rfl)
    | with_reducible (first
        | exact Frame.refl | apply State.endTrap_frame | apply State.egLeave_frame | apply State.countDrop_frame
        | apply State.updPort_frame)
    | (with_reducible refine Frame.foldl _ (fun _ _ hF => ?_) _ ?_)
    | (intro _ hF; skip) | with_reducible assumption
    | (with_reducible refine Frame.ite (fun _ => ?_) (fun _ => ?_)) | split
    | fail_if_no_progress ((with_reducible apply Frame.fields); (case hq => rfl); (case hc => rfl))

theorem State.fifoReset_frame {wt : Touch} {s0 s : State} (hw : 
    ({ ports := true, prismFlight := true, fwdCtr := true, bufCtr := true, pkts := true, nextPkt := true,
       pairs := true, fabPorts := true, fabCtr := true, nodes := true, egq := true, schedCtr := true,
       evt := true, mirrors := true, cand := true, mirQ := true, mirCtr := true, telCtr := true,
       dropCtr := true, portCtr := true, prismCtr := true, timeCtr := true, shares := true, irq := true,
       chans := true, fifos := true, waitFetch := true, out := true, free := true } : Touch).or wt = wt)
    (hK : Frame wt s0 s) (f : Nat) : Frame wt s0 (State.fifoReset s f) := by
  refine Frame.step hK hw ?_
  unfold State.fifoReset
  (try dsimp only)
  repeat' first
    | ((with_reducible show Touch.or _ _ = _) <;> rfl)
    | with_reducible (first
        | exact Frame.refl | apply State.bumpDrop_frame | apply State.chanFifoReset_frame
        | apply State.interrupt_frame | apply State.raise_frame | apply State.updFifo_frame
        | apply State.dropHostTx_frame)
    | (with_reducible refine Frame.foldl _ (fun _ _ hF => ?_) _ ?_) | (intro _ hF; skip) | with_reducible assumption
    | (with_reducible refine Frame.ite (fun _ => ?_) (fun _ => ?_))

theorem State.comparePtrs_frame {wt : Touch} {s0 s : State} (hw :
    ({ ports := true, prismFlight := true, fwdCtr := true, bufCtr := true, pkts := true, nextPkt := true,
       pairs := true, fabPorts := true, fabCtr := true, nodes := true, egq := true, schedCtr := true,
       evt := true, mirrors := true, cand := true, mirQ := true, mirCtr := true, telCtr := true,
       dropCtr := true, portCtr := true, prismCtr := true, timeCtr := true, shares := true, irq := true,
       chans := true, fifos := true, waitFetch := true, out := true, free := true } : Touch).or wt = wt)
    (hK : Frame wt s0 s) (f : Nat) :
    Frame wt s0 (State.comparePtrs s f) := by
  refine Frame.step hK hw ?_
  unfold State.comparePtrs
  (try dsimp only)
  repeat' first
    | ((with_reducible show Touch.or _ _ = _) <;> rfl)
    | with_reducible (first | exact Frame.refl | apply State.fifoReset_frame)
    | (with_reducible refine Frame.foldl _ (fun _ _ hF => ?_) _ ?_)
    | (intro _ hF; skip) | with_reducible assumption
    | (with_reducible refine Frame.ite (fun _ => ?_) (fun _ => ?_)) | split
    | fail_if_no_progress ((with_reducible apply Frame.fields); (case hq => rfl); (case hc => rfl))

theorem execHpfPointerMismatch_frame (fifo : Nat) (s : State) : OutFrame 
    ({ ports := true, prismFlight := true, fwdCtr := true, bufCtr := true, pkts := true, nextPkt := true,
       pairs := true, fabPorts := true, fabCtr := true, nodes := true, egq := true, schedCtr := true,
       evt := true, mirrors := true, cand := true, mirQ := true, mirCtr := true, telCtr := true,
       dropCtr := true, portCtr := true, prismCtr := true, timeCtr := true, shares := true, irq := true,
       chans := true, fifos := true, waitFetch := true, out := true, free := true } : Touch) s (execHpfPointerMismatch fifo s) := by
  unfold execHpfPointerMismatch
  (try dsimp only)
  repeat' first
    | with_reducible (first | exact OutFrame.fault _ _ | apply OutFrame.next)
    | ((with_reducible show Touch.or _ _ = _) <;> rfl)
    | with_reducible (first
        | exact Frame.refl | apply State.fifoReset_frame | apply State.comparePtrs_frame | apply State.drawn_frame)
    | (with_reducible refine Frame.foldl _ (fun _ _ hF => ?_) _ ?_)
    | (intro _ hF; skip) | with_reducible assumption
    | (with_reducible refine Frame.ite (fun _ => ?_) (fun _ => ?_)) | split
    | fail_if_no_progress ((with_reducible apply Frame.fields); (case hq => rfl); (case hc => rfl))

end Sys2Proof.Machine
end

