-- ==== Sys2Proof/Laws/FrameInterrupts.lean ====
section
/-! SUPPORT. What the operations of Interrupts may change. -/

set_option Elab.async false
set_option linter.all false

namespace Sys2Proof.Machine

theorem State.clearInts_frame {wt : Touch} {s0 s : State} (hw : 
    ({ irq := true } : Touch).or wt = wt) (hK : Frame wt s0 s) (fn : Nat) (l : List Nat) : Frame wt s0 (s.clearInts fn l) := by
  refine hK.step hw ?_
  have h : ∀ (l : List Nat) (x : HostSt), (l.foldl HostSt.clearInt x).quiet = x.quiet := by
    intro l
    induction l with
    | nil => intro x; rfl
    | cons c l ih => intro x; rw [List.foldl_cons, ih]; rfl
  obtain ⟨a, b', c, d, e, f, g, g'⟩ := quiet_parts (h (l.filter (fun n => decide (n ≤ 187) && s.ownsInt fn n)) s.host)
  constructor <;> first
    | exact fun h => Bool.noConfusion h
    | exact fun _ => rfl
    | (intro _; (repeat' apply And.intro) <;> first | rfl | assumption)

theorem State.keepInt_frame {wt : Touch} {s0 s : State} (hw : 
    ({ irq := true, out := true } : Touch).or wt = wt)
    (hK : Frame wt s0 s) (n : Nat) : Frame wt s0 (State.keepInt s n) := by
  refine Frame.step hK hw ?_
  unfold State.keepInt
  (try dsimp only)
  repeat' first
    | ((with_reducible show Touch.or _ _ = _) <;> rfl)
    | with_reducible (first | exact Frame.refl | apply State.interrupt_frame) | split
    | fail_if_no_progress ((with_reducible apply Frame.fields); (case hq => rfl); (case hc => rfl))

theorem State.writePending_frame {wt : Touch} {s0 s : State} (hw : 
    ({ irq := true, out := true } : Touch).or wt = wt)
    (hK : Frame wt s0 s) (fn : Nat) (k : Nat) (w : Nat) (same : Nat) : Frame wt s0 (State.writePending s fn k w same)
    := by
  refine Frame.step hK hw ?_
  unfold State.writePending
  (try dsimp only)
  repeat' first
    | ((with_reducible show Touch.or _ _ = _) <;> rfl)
    | with_reducible (first
        | exact Frame.refl | apply State.clearInts_frame | apply State.interrupt_frame | apply State.keepInt_frame)
    | (with_reducible refine Frame.foldl _ (fun _ _ hF => ?_) _ ?_) | (intro _ hF; skip) | with_reducible assumption
    | (with_reducible refine Frame.ite (fun _ => ?_) (fun _ => ?_))

theorem execIntPendingClear_frame (fn : Nat) (k : Nat) (w : BitVec 64) (same : BitVec 64) (s : State) : OutFrame 
    ({ evt := true, telCtr := true, irq := true, out := true } : Touch) s (execIntPendingClear fn k w same s) := by
  unfold execIntPendingClear
  (try dsimp only [onRegister])
  repeat' first
    | with_reducible (first | exact OutFrame.fault _ _ | apply OutFrame.next)
    | ((with_reducible show Touch.or _ _ = _) <;> rfl)
    | with_reducible (first
        | exact Frame.refl | apply State.reservedAccess_frame | apply State.writeCtrl_frame
        | apply State.writePending_frame)
    | (with_reducible refine Frame.ite (fun _ => ?_) (fun _ => ?_)) | split

theorem State.writeMap_frame {wt : Touch} {s0 s : State} (hw : 
    ({ irq := true, intMap := true, out := true } : Touch).or wt = wt) (hK : Frame wt s0 s) (fn n v : Nat) : Frame wt s0 (s.writeMap fn n v) := by
  refine hK.step hw ?_
  unfold State.writeMap
  split
  · exact .refl
  dsimp only
  split
  · have q := quiet_parts (HostSt.signalVector_quiet (s.host.putMap n (bits v 10 0) (bit v 16)) (intOwner s.ident.bifurcated n)
      ((s.host.putMap n (bits v 10 0) (bit v 16)).intVector n))
    constructor <;> first
      | exact fun h => Bool.noConfusion h
      | exact fun _ => rfl
      | exact fun _ => q.2.2.1
      | exact fun _ => q.2.2.2.1
      | exact fun _ => q.2.2.2.2.1
      | exact fun _ => q.2.2.2.2.2.1
      | exact fun _ => q.2.2.2.2.2.2.1
      | exact fun _ => ⟨rfl, rfl, rfl, rfl, q.2.2.2.2.2.2.2⟩
      | exact fun _ => by repeat' constructor
  · exact .ofView rfl

theorem execIntMapWrite_frame (fn : Nat) (n : Nat) (w : BitVec 64) (s : State) : OutFrame 
    ({ evt := true, telCtr := true, irq := true, intMap := true, out := true } : Touch) s (execIntMapWrite fn n w s) := by
  unfold execIntMapWrite
  (try dsimp only [onRegister])
  repeat' first
    | with_reducible (first | exact OutFrame.fault _ _ | apply OutFrame.next)
    | ((with_reducible show Touch.or _ _ = _) <;> rfl)
    | with_reducible (first
        | exact Frame.refl | apply State.interrupt_frame | apply State.reservedAccess_frame
        | apply State.writeCtrl_frame | apply State.writeMap_frame)
    | (with_reducible refine Frame.ite (fun _ => ?_) (fun _ => ?_)) | split

theorem State.unmaskVec_frame {wt : Touch} {s0 s : State} (hw : 
    ({ irq := true, out := true } : Touch).or wt = wt) (hK : Frame wt s0 s) (fn vec : Nat) : Frame wt s0 (s.unmaskVec fn vec) := by
  refine hK.step hw ?_
  unfold State.unmaskVec
  dsimp only
  split <;> exact .ofView rfl

theorem State.maskVec_frame {wt : Touch} {s0 s : State} (hw :
    ({ irq := true } : Touch).or wt = wt)
    (hK : Frame wt s0 s) (fn : Nat) (vec : Nat) :
    Frame wt s0 (State.maskVec s fn vec) := by
  refine Frame.step hK hw ?_
  unfold State.maskVec
  (try dsimp only)
  repeat' first
    | ((with_reducible show Touch.or _ _ = _) <;> rfl)
    | with_reducible (first | exact Frame.refl | apply State.updLink_frame)
    | (with_reducible refine Frame.foldl _ (fun _ _ hF => ?_) _ ?_)
    | (intro _ hF; skip) | with_reducible assumption
    | (with_reducible refine Frame.ite (fun _ => ?_) (fun _ => ?_)) | split
    | fail_if_no_progress ((with_reducible apply Frame.fields); (case hq => rfl); (case hc => rfl))

theorem execMsixUnmask_frame (fn : Nat) (vec : Nat) (s : State) : OutFrame 
    ({ evt := true, telCtr := true, irq := true, out := true } : Touch) s (execMsixUnmask fn vec s) := by
  unfold execMsixUnmask
  (try dsimp only [onRegister])
  repeat' first
    | with_reducible (first | exact OutFrame.fault _ _ | apply OutFrame.next)
    | ((with_reducible show Touch.or _ _ = _) <;> rfl)
    | with_reducible (first
        | exact Frame.refl | apply State.reservedAccess_frame | apply State.unmaskVec_frame
        | apply State.writeCtrl_frame)
    | (with_reducible refine Frame.ite (fun _ => ?_) (fun _ => ?_)) | split

theorem State.writeMsix_frame {wt : Touch} {s0 s : State} (hw : 
    ({ irq := true, msix := true, out := true } : Touch).or wt = wt)
    (hK : Frame wt s0 s) (fn : Nat) (i : Nat) (v : Nat) : Frame wt s0 (State.writeMsix s fn i v) := by
  refine Frame.step hK hw ?_
  unfold State.writeMsix
  (try dsimp only)
  repeat' first
    | ((with_reducible show Touch.or _ _ = _) <;> rfl)
    | with_reducible (first | exact Frame.refl | apply State.maskVec_frame | apply State.unmaskVec_frame)
    | (with_reducible refine Frame.ite (fun _ => ?_) (fun _ => ?_)) | split
    | fail_if_no_progress ((with_reducible apply Frame.fields); (case hq => rfl); (case hc => rfl))

end Sys2Proof.Machine
end

