-- ==== Sys2Proof/Laws/FrameTelemetry.lean ====
section
/-! SUPPORT. What the operations of Telemetry may change. -/

set_option Elab.async false
set_option linter.all false

namespace Sys2Proof.Machine

theorem State.updSwp_frame {wt : Touch} {s0 s : State} (hw : 
    ({ swpRegs := true, swp := true } : Touch).or wt = wt)
    (hK : Frame wt s0 s) (f : SwpSt → SwpSt) : Frame wt s0 (State.updSwp s f) :=
  hK.step hw (.ofView rfl)

theorem State.sweepMissed_frame {wt : Touch} {s0 s : State} (hw : 
    ({ evt := true, swpRegs := true, swp := true, telCtr := true, rate := true, irq := true,
       out := true } : Touch).or wt = wt)
    (hK : Frame wt s0 s) (cause : Nat) : Frame wt s0 (State.sweepMissed s cause) := by
  refine Frame.step hK hw ?_
  unfold State.sweepMissed
  (try dsimp only)
  repeat' first
    | ((with_reducible show Touch.or _ _ = _) <;> rfl)
    | with_reducible (first
        | exact Frame.refl | apply State.bumpTel_frame | apply State.missed_frame | apply State.raiseLimited_frame
        | apply State.updSwp_frame)
    | (intro _ hF; skip)

theorem State.takeSweep_frame {wt : Touch} {s0 s : State} (hw : 
    ({ evt := true, swpRegs := true, swp := true, telCtr := true, portCtr := true, rate := true,
       irq := true, out := true, free := true } : Touch).or wt = wt)
    (hK : Frame wt s0 s) (demand : Bool) : Frame wt s0 (State.takeSweep s demand) := by
  refine Frame.step hK hw ?_
  unfold State.takeSweep
  (try dsimp only)
  repeat' first
    | ((with_reducible show Touch.or _ _ = _) <;> rfl)
    | with_reducible (first
        | exact Frame.refl | apply State.sweepMissed_frame | apply State.updSwp_frame | apply State.fecAll_frame)
    | (intro _ hF; skip) | with_reducible assumption | (with_reducible refine Frame.ite (fun _ => ?_) (fun _ => ?_))

theorem State.sweepInstant_frame {wt : Touch} {s0 s : State} (hw : 
    ({ evt := true, swpRegs := true, swp := true, telCtr := true, portCtr := true, rate := true,
       irq := true, out := true, free := true } : Touch).or wt = wt)
    (hK : Frame wt s0 s) : Frame wt s0 (State.sweepInstant s) := by
  refine Frame.step hK hw ?_
  unfold State.sweepInstant
  (try dsimp only)
  repeat' first
    | ((with_reducible show Touch.or _ _ = _) <;> rfl)
    | with_reducible (first | exact Frame.refl | apply State.sweepMissed_frame | apply State.takeSweep_frame)
    | (with_reducible refine Frame.ite (fun _ => ?_) (fun _ => ?_))

theorem execSweepInstant_frame (s : State) : OutFrame 
    ({ evt := true, swpRegs := true, swp := true, telCtr := true, portCtr := true, rate := true,
       irq := true, out := true, free := true } : Touch) s (execSweepInstant s) := by
  unfold execSweepInstant
  (try dsimp only)
  repeat' first
    | with_reducible (first | exact OutFrame.fault _ _ | apply OutFrame.next)
    | ((with_reducible show Touch.or _ _ = _) <;> rfl)
    | with_reducible (first | exact Frame.refl | apply State.sweepInstant_frame)

theorem State.dumpWritten_frame {wt : Touch} {s0 s : State} (hw : 
    ({ evt := true, swpRegs := true, swp := true, telCtr := true, portCtr := true, rate := true,
       irq := true, out := true, free := true } : Touch).or wt = wt)
    (hK : Frame wt s0 s) : Frame wt s0 (State.dumpWritten s) := by
  refine Frame.step hK hw ?_
  unfold State.dumpWritten
  (try dsimp only)
  repeat' first
    | ((with_reducible show Touch.or _ _ = _) <;> rfl)
    | with_reducible (first
        | exact Frame.refl | apply State.bumpTel_frame | apply State.interrupt_frame | apply State.takeSweep_frame
        | apply State.updSwp_frame)
    | (intro _ hF; skip) | with_reducible assumption | (with_reducible refine Frame.ite (fun _ => ?_) (fun _ => ?_))
    | split | fail_if_no_progress ((with_reducible apply Frame.fields); (case hq => rfl); (case hc => rfl))

theorem execSweepDumpWritten_frame (s : State) : OutFrame 
    ({ evt := true, swpRegs := true, swp := true, telCtr := true, portCtr := true, rate := true,
       irq := true, out := true, free := true } : Touch) s (execSweepDumpWritten s) := by
  unfold execSweepDumpWritten
  (try dsimp only)
  repeat' first
    | with_reducible (first | exact OutFrame.fault _ _ | apply OutFrame.next)
    | ((with_reducible show Touch.or _ _ = _) <;> rfl)
    | with_reducible (first | exact Frame.refl | apply State.dumpWritten_frame)

theorem State.snap_frame {wt : Touch} {s0 s : State} (hw : 
    ({ evt := true, swpRegs := true, swp := true, telCtr := true, portCtr := true, rate := true,
       irq := true, out := true, free := true } : Touch).or wt = wt)
    (hK : Frame wt s0 s) : Frame wt s0 (State.snap s) := by
  refine Frame.step hK hw ?_
  unfold State.snap
  (try dsimp only)
  repeat' first
    | ((with_reducible show Touch.or _ _ = _) <;> rfl)
    | with_reducible (first | exact Frame.refl | apply State.takeSweep_frame | apply State.updSwp_frame)
    | (intro _ hF; skip) | with_reducible assumption | (with_reducible refine Frame.ite (fun _ => ?_) (fun _ => ?_))

theorem State.writeSwpCtrl_frame {wt : Touch} {s0 s : State} (hw : 
    ({ evt := true, swpRegs := true, swp := true, telCtr := true, portCtr := true, rate := true,
       irq := true, out := true, free := true } : Touch).or wt = wt)
    (hK : Frame wt s0 s) (v : Nat) : Frame wt s0 (State.writeSwpCtrl s v) := by
  refine Frame.step hK hw ?_
  unfold State.writeSwpCtrl
  (try dsimp only)
  repeat' first
    | ((with_reducible show Touch.or _ _ = _) <;> rfl)
    | with_reducible (first | exact Frame.refl | apply State.snap_frame | apply State.updSwp_frame)
    | (intro _ hF; skip) | with_reducible assumption | (with_reducible refine Frame.ite (fun _ => ?_) (fun _ => ?_))

theorem State.writeLoupeCtrl_frame {wt : Touch} {s0 s : State} (hw : 
    ({ swpRegs := true, swp := true } : Touch).or wt = wt)
    (hK : Frame wt s0 s) (v : Nat) : Frame wt s0 (State.writeLoupeCtrl s v) := by
  refine Frame.step hK hw ?_
  unfold State.writeLoupeCtrl
  (try dsimp only)
  repeat' first
    | ((with_reducible show Touch.or _ _ = _) <;> rfl)
    | with_reducible (first | exact Frame.refl | apply State.updSwp_frame) | (intro _ hF; skip)
    | with_reducible assumption | (with_reducible refine Frame.ite (fun _ => ?_) (fun _ => ?_))

theorem execSweepSnap_frame (fn : Nat) (w : BitVec 64) (s : State) : OutFrame 
    ({ evt := true, swpRegs := true, swp := true, telCtr := true, portCtr := true, rate := true,
       irq := true, out := true, free := true } : Touch) s (execSweepSnap fn w s) := by
  unfold execSweepSnap
  (try dsimp only [onRegister])
  repeat' first
    | with_reducible (first | exact OutFrame.fault _ _ | apply OutFrame.next)
    | ((with_reducible show Touch.or _ _ = _) <;> rfl)
    | with_reducible (first
        | exact Frame.refl | apply State.reservedAccess_frame | apply State.writeCtrl_frame
        | apply State.writeSwpCtrl_frame)
    | (with_reducible refine Frame.foldl _ (fun _ _ hF => ?_) _ ?_)
    | (intro _ hF; skip) | with_reducible assumption
    | (with_reducible refine Frame.ite (fun _ => ?_) (fun _ => ?_)) | split
    | fail_if_no_progress ((with_reducible apply Frame.fields); (case hq => rfl); (case hc => rfl))

theorem execSweepRingReset_frame (fn : Nat) (loupe : Bool) (w : BitVec 64) (s : State) : OutFrame 
    ({ evt := true, swpRegs := true, swp := true, telCtr := true, portCtr := true, rate := true,
       irq := true, out := true, free := true } : Touch) s (execSweepRingReset fn loupe w s) := by
  unfold execSweepRingReset
  (try dsimp only [onRegister])
  repeat' first
    | with_reducible (first | exact OutFrame.fault _ _ | apply OutFrame.next)
    | ((with_reducible show Touch.or _ _ = _) <;> rfl)
    | with_reducible (first
        | exact Frame.refl | apply State.reservedAccess_frame | apply State.writeCtrl_frame
        | apply State.writeLoupeCtrl_frame | apply State.writeSwpCtrl_frame)
    | (with_reducible refine Frame.foldl _ (fun _ _ hF => ?_) _ ?_)
    | (intro _ hF; skip) | with_reducible assumption
    | (with_reducible refine Frame.ite (fun _ => ?_) (fun _ => ?_)) | split
    | fail_if_no_progress ((with_reducible apply Frame.fields); (case hq => rfl); (case hc => rfl))

theorem State.writeSwpHead_frame {wt : Touch} {s0 s : State} (hw : 
    ({ swpRegs := true, swp := true } : Touch).or wt = wt)
    (hK : Frame wt s0 s) (v : Nat) : Frame wt s0 (State.writeSwpHead s v) := by
  refine Frame.step hK hw ?_
  unfold State.writeSwpHead
  (try dsimp only)
  repeat' first
    | ((with_reducible show Touch.or _ _ = _) <;> rfl)
    | with_reducible (first | exact Frame.refl | apply State.updSwp_frame) | (intro _ hF; skip)
    | (with_reducible refine Frame.ite (fun _ => ?_) (fun _ => ?_))

theorem State.writeLoupeHead_frame {wt : Touch} {s0 s : State} (hw : 
    ({ swpRegs := true, swp := true } : Touch).or wt = wt)
    (hK : Frame wt s0 s) (v : Nat) : Frame wt s0 (State.writeLoupeHead s v) := by
  refine Frame.step hK hw ?_
  unfold State.writeLoupeHead
  (try dsimp only)
  repeat' first
    | ((with_reducible show Touch.or _ _ = _) <;> rfl)
    | with_reducible (first | exact Frame.refl | apply State.updSwp_frame) | (intro _ hF; skip)
    | (with_reducible refine Frame.ite (fun _ => ?_) (fun _ => ?_))

theorem execSweepHeadWrite_frame (fn : Nat) (loupe : Bool) (w : BitVec 64) (s : State) : OutFrame 
    ({ evt := true, swpRegs := true, swp := true, telCtr := true, irq := true, out := true } : Touch) s (execSweepHeadWrite fn loupe w s) := by
  unfold execSweepHeadWrite
  (try dsimp only [onRegister])
  repeat' first
    | with_reducible (first | exact OutFrame.fault _ _ | apply OutFrame.next)
    | ((with_reducible show Touch.or _ _ = _) <;> rfl)
    | with_reducible (first
        | exact Frame.refl | apply State.reservedAccess_frame | apply State.writeCtrl_frame
        | apply State.writeLoupeHead_frame | apply State.writeSwpHead_frame)
    | (with_reducible refine Frame.ite (fun _ => ?_) (fun _ => ?_)) | split

theorem State.evDone_frame {wt : Touch} {s0 s : State} (hw : 
    ({ evtRegs := true, evt := true, telCtr := true, irq := true, out := true } : Touch).or wt = wt) (hK : Frame wt s0 s) (x : EvDone) : Frame wt s0 (s.evDone x) := by
  refine hK.step hw ?_
  obtain ⟨a, b', c, d, e, f, g, g'⟩ := quiet_parts (HostSt.setPendingIf_quiet s.host x.moved s.ident.bifurcated 176)

  constructor <;> first
    | exact fun h => Bool.noConfusion h
    | exact fun _ => rfl
    | (intro _; (repeat' apply And.intro) <;> first | rfl | assumption)

theorem State.evFlush_frame {wt : Touch} {s0 s : State} (hw : 
    ({ evtRegs := true, evt := true, telCtr := true, irq := true, out := true } : Touch).or wt = wt)
    (hK : Frame wt s0 s) : Frame wt s0 (State.evFlush s) := by
  refine Frame.step hK hw ?_
  unfold State.evFlush
  (try dsimp only)
  repeat' first
    | ((with_reducible show Touch.or _ _ = _) <;> rfl)
    | with_reducible (first | exact Frame.refl | apply State.evDone_frame)

theorem State.writeEvtCtrl_frame {wt : Touch} {s0 s : State} (hw : 
    ({ evtRegs := true, evt := true, telCtr := true, irq := true, out := true } : Touch).or wt = wt)
    (hK : Frame wt s0 s) (v : Nat) : Frame wt s0 (State.writeEvtCtrl s v) := by
  refine Frame.step hK hw ?_
  unfold State.writeEvtCtrl
  (try dsimp only)
  repeat' first
    | ((with_reducible show Touch.or _ _ = _) <;> rfl)
    | with_reducible (first | exact Frame.refl | apply State.evDone_frame | apply State.evFlush_frame)
    | (with_reducible refine Frame.ite (fun _ => ?_) (fun _ => ?_)) | split
    | fail_if_no_progress ((with_reducible apply Frame.fields); (case hq => rfl); (case hc => rfl))

theorem execEvtRingReset_frame (fn : Nat) (w : BitVec 64) (s : State) : OutFrame 
    ({ evtRegs := true, evt := true, telCtr := true, irq := true, out := true } : Touch) s (execEvtRingReset fn w s) := by
  unfold execEvtRingReset
  (try dsimp only [onRegister])
  repeat' first
    | with_reducible (first | exact OutFrame.fault _ _ | apply OutFrame.next)
    | ((with_reducible show Touch.or _ _ = _) <;> rfl)
    | with_reducible (first
        | exact Frame.refl | apply State.reservedAccess_frame | apply State.writeCtrl_frame
        | apply State.writeEvtCtrl_frame)
    | split

theorem execEvtEnableWrite_frame (fn : Nat) (w : BitVec 64) (s : State) : OutFrame 
    ({ evtRegs := true, evt := true, telCtr := true, irq := true, out := true } : Touch) s (execEvtEnableWrite fn w s) := by
  unfold execEvtEnableWrite
  (try dsimp only [onRegister])
  repeat' first
    | with_reducible (first | exact OutFrame.fault _ _ | apply OutFrame.next)
    | ((with_reducible show Touch.or _ _ = _) <;> rfl)
    | with_reducible (first
        | exact Frame.refl | apply State.reservedAccess_frame | apply State.writeCtrl_frame
        | apply State.writeEvtCtrl_frame)
    | split

theorem State.writeEvtHead_frame {wt : Touch} {s0 s : State} (hw : 
    ({ evtRegs := true, evt := true, telCtr := true, irq := true, out := true } : Touch).or wt = wt)
    (hK : Frame wt s0 s) (v : Nat) : Frame wt s0 (State.writeEvtHead s v) := by
  refine Frame.step hK hw ?_
  unfold State.writeEvtHead
  (try dsimp only)
  repeat' first
    | ((with_reducible show Touch.or _ _ = _) <;> rfl)
    | with_reducible (first | exact Frame.refl | apply State.evFlush_frame)
    | (with_reducible refine Frame.ite (fun _ => ?_) (fun _ => ?_)) | split
    | fail_if_no_progress ((with_reducible apply Frame.fields); (case hq => rfl); (case hc => rfl))

theorem execEvtHeadWrite_frame (fn : Nat) (w : BitVec 64) (s : State) : OutFrame 
    ({ evtRegs := true, evt := true, telCtr := true, irq := true, out := true } : Touch) s (execEvtHeadWrite fn w s) := by
  unfold execEvtHeadWrite
  (try dsimp only [onRegister])
  repeat' first
    | with_reducible (first | exact OutFrame.fault _ _ | apply OutFrame.next)
    | ((with_reducible show Touch.or _ _ = _) <;> rfl)
    | with_reducible (first
        | exact Frame.refl | apply State.reservedAccess_frame | apply State.writeCtrl_frame
        | apply State.writeEvtHead_frame)
    | split

theorem applyTelSetMirror_frame {wt : Touch} {s0 s : State} (hw : 
    ({ mirrors := true } : Touch).or wt = wt)
    (hK : Frame wt s0 s) (p : List Byte) : Frame wt s0 (applyTelSetMirror p s) :=
  hK.step hw (.ofView rfl)

theorem telSetMirrorBody_frame {wt : Touch} {s0 s : State} (hw : 
    ({ mirrors := true, sets := true, snapshot := true, heldShadow := true } : Touch).or wt = wt)
    (hK : Frame wt s0 s) (r : Req) : Frame wt s0 (telSetMirrorBody r s).1 := by
  refine Frame.step hK hw ?_
  unfold telSetMirrorBody
  (try dsimp only)
  repeat' first
    | ((with_reducible show Touch.or _ _ = _) <;> rfl) | with_reducible exact Frame.refl
    | exact setCmd_frame rfl (fun p _ => applyTelSetMirror_frame rfl .refl p) r _

theorem applyTelSetPortMirror_frame {wt : Touch} {s0 s : State} (hw :
    ({ ports := true } : Touch).or wt = wt)
    (hK : Frame wt s0 s) (p : List Byte) :
    Frame wt s0 (applyTelSetPortMirror p s) := by
  refine Frame.step hK hw ?_
  unfold applyTelSetPortMirror
  (try dsimp only)
  repeat' first
    | ((with_reducible show Touch.or _ _ = _) <;> rfl)
    | with_reducible (first | exact Frame.refl | apply State.updPort_frame)
    | (with_reducible refine Frame.foldl _ (fun _ _ hF => ?_) _ ?_)
    | (intro _ hF; skip) | with_reducible assumption
    | (with_reducible refine Frame.ite (fun _ => ?_) (fun _ => ?_)) | split
    | fail_if_no_progress ((with_reducible apply Frame.fields); (case hq => rfl); (case hc => rfl))

theorem telSetPortMirrorBody_frame {wt : Touch} {s0 s : State} (hw : 
    ({ ports := true, sets := true, snapshot := true, heldShadow := true } : Touch).or wt = wt)
    (hK : Frame wt s0 s) (r : Req) : Frame wt s0 (telSetPortMirrorBody r s).1 := by
  refine Frame.step hK hw ?_
  unfold telSetPortMirrorBody
  (try dsimp only)
  repeat' first
    | ((with_reducible show Touch.or _ _ = _) <;> rfl) | with_reducible exact Frame.refl
    | exact setCmd_frame rfl (fun p _ => applyTelSetPortMirror_frame rfl .refl p) r _

theorem telGetMirrorBody_frame {wt : Touch} {s0 s : State} (hw : ({} : Touch).or wt = wt)
    (hK : Frame wt s0 s) (r : Req) : Frame wt s0 (telGetMirrorBody r s).1 := by
  refine Frame.step hK hw ?_
  unfold telGetMirrorBody
  (try dsimp only)
  repeat' first
    | ((with_reducible show Touch.or _ _ = _) <;> rfl)
    | with_reducible (first | exact Frame.refl | apply readCmd_frame) | (intro _ hF; skip)
    | (with_reducible refine Frame.ite (fun _ => ?_) (fun _ => ?_))

theorem telGetDropsBody_frame {wt : Touch} {s0 s : State} (hw : ({} : Touch).or wt = wt)
    (hK : Frame wt s0 s) (r : Req) : Frame wt s0 (telGetDropsBody r s).1 := by
  refine Frame.step hK hw ?_
  unfold telGetDropsBody
  (try dsimp only)
  repeat' first
    | ((with_reducible show Touch.or _ _ = _) <;> rfl)
    | with_reducible (first | exact Frame.refl | apply readCmd_frame) | (intro _ hF; skip)
    | (with_reducible refine Frame.ite (fun _ => ?_) (fun _ => ?_))

theorem telGetCountersBody_frame {wt : Touch} {s0 s : State} (hw : ({} : Touch).or wt = wt)
    (hK : Frame wt s0 s) (r : Req) : Frame wt s0 (telGetCountersBody r s).1 := by
  refine Frame.step hK hw ?_
  unfold telGetCountersBody
  (try dsimp only)
  repeat' first
    | ((with_reducible show Touch.or _ _ = _) <;> rfl)
    | with_reducible (first | exact Frame.refl | apply readCmd_frame) | (intro _ hF; skip)

theorem execTelSetMirror_frame (r : Req) (s : State) : OutFrame 
    ({ pools := true, bufCtr := true, waitTx := true, evt := true, mirrors := true, telCtr := true,
       portCtr := true, mbxCtr := true, boxes := true, jobs := true, hist := true, sets := true,
       snapshot := true, heldShadow := true, peers := true, msgs := true, irq := true,
       out := true } : Touch) s (execTelSetMirror r s) := 
  mailboxCommand_frame rfl (fun _ => telSetMirrorBody_frame rfl .refl r)

theorem execTelSetPortMirror_frame (r : Req) (s : State) : OutFrame 
    ({ ports := true, pools := true, bufCtr := true, waitTx := true, evt := true, telCtr := true,
       portCtr := true, mbxCtr := true, boxes := true, jobs := true, hist := true, sets := true,
       snapshot := true, heldShadow := true, peers := true, msgs := true, irq := true,
       out := true } : Touch) s (execTelSetPortMirror r s) := 
  mailboxCommand_frame rfl (fun _ => telSetPortMirrorBody_frame rfl .refl r)

theorem execTelGetMirror_frame (r : Req) (s : State) : OutFrame 
    ({ pools := true, bufCtr := true, waitTx := true, evt := true, telCtr := true, portCtr := true,
       mbxCtr := true, boxes := true, jobs := true, hist := true, peers := true, msgs := true, irq := true,
       out := true } : Touch) s (execTelGetMirror r s) := 
  mailboxCommand_frame rfl (fun _ => telGetMirrorBody_frame rfl .refl r)

theorem execTelGetDrops_frame (r : Req) (s : State) : OutFrame 
    ({ pools := true, bufCtr := true, waitTx := true, evt := true, telCtr := true, portCtr := true,
       mbxCtr := true, boxes := true, jobs := true, hist := true, peers := true, msgs := true, irq := true,
       out := true } : Touch) s (execTelGetDrops r s) := 
  mailboxCommand_frame rfl (fun _ => telGetDropsBody_frame rfl .refl r)

theorem execTelGetCounters_frame (r : Req) (s : State) : OutFrame 
    ({ pools := true, bufCtr := true, waitTx := true, evt := true, telCtr := true, portCtr := true,
       mbxCtr := true, boxes := true, jobs := true, hist := true, peers := true, msgs := true, irq := true,
       out := true } : Touch) s (execTelGetCounters r s) := 
  mailboxCommand_frame rfl (fun _ => telGetCountersBody_frame rfl .refl r)

end Sys2Proof.Machine
end

