-- ==== Sys2Proof/Laws/FrameDroop.lean ====
section
/-! SUPPORT. What the operations of Droop may change. -/

set_option Elab.async false
set_option linter.all false

namespace Sys2Proof.Machine

theorem State.setEclk_frame {wt : Touch} {s0 s : State} (hw :
    ({ clusters := true } : Touch).or wt = wt)
    (hK : Frame wt s0 s) (n : Nat) :
    Frame wt s0 (State.setEclk s n) := by
  refine Frame.step hK hw ?_
  unfold State.setEclk
  (try dsimp only)
  repeat' first
    | ((with_reducible show Touch.or _ _ = _) <;> rfl)
    | with_reducible (first | exact Frame.refl | apply State.updCluster_frame)
    | (with_reducible refine Frame.foldl _ (fun _ _ hF => ?_) _ ?_)
    | (intro _ hF; skip) | with_reducible assumption
    | (with_reducible refine Frame.ite (fun _ => ?_) (fun _ => ?_)) | split
    | fail_if_no_progress ((with_reducible apply Frame.fields); (case hq => rfl); (case hc => rfl))

theorem State.droopTrip_frame {wt : Touch} {s0 s : State} (hw : 
    ({ clusters := true, pwrCtr := true, shares := true, slices := true } : Touch).or wt = wt)
    (hK : Frame wt s0 s) (n : Nat) : Frame wt s0 (State.droopTrip s n) := by
  refine Frame.step hK hw ?_
  unfold State.droopTrip
  (try dsimp only)
  repeat' first
    | ((with_reducible show Touch.or _ _ = _) <;> rfl)
    | with_reducible (first
        | exact Frame.refl | apply State.bumpPwr_frame | apply State.setEclk_frame | apply State.updSlice_frame
        | apply State.bumpPwrAt_frame)
    | (intro _ hF; skip) | with_reducible assumption | (with_reducible refine Frame.ite (fun _ => ?_) (fun _ => ?_))

theorem State.droopReport_frame {wt : Touch} {s0 s : State} (hw : 
    ({ evt := true, telCtr := true, rate := true, irq := true, out := true } : Touch).or wt = wt)
    (hK : Frame wt s0 s) (n : Nat) : Frame wt s0 (State.droopReport s n) := by
  refine Frame.step hK hw ?_
  unfold State.droopReport
  (try dsimp only)
  repeat' first
    | ((with_reducible show Touch.or _ _ = _) <;> rfl)
    | with_reducible (first | exact Frame.refl | apply State.raise_frame | apply State.updSlice_frame)
    | (intro _ hF; skip) | with_reducible assumption | (with_reducible refine Frame.ite (fun _ => ?_) (fun _ => ?_))
    | split | fail_if_no_progress ((with_reducible apply Frame.fields); (case hq => rfl); (case hc => rfl))

theorem State.closeStretch_frame {wt : Touch} {s0 s : State} (hw :
    ({ clusters := true, pwrCtr := true, shares := true, slices := true } : Touch).or wt = wt)
    (hK : Frame wt s0 s) (n : Nat) :
    Frame wt s0 (State.closeStretch s n) := by
  refine Frame.step hK hw ?_
  unfold State.closeStretch
  (try dsimp only)
  repeat' first
    | ((with_reducible show Touch.or _ _ = _) <;> rfl)
    | with_reducible (first
        | exact Frame.refl | apply State.updSlice_frame | apply State.setEclk_frame | apply State.bumpPwr_frame
        | apply State.bumpPwrAt_frame)
    | (with_reducible refine Frame.foldl _ (fun _ _ hF => ?_) _ ?_)
    | (intro _ hF; skip) | with_reducible assumption
    | (with_reducible refine Frame.ite (fun _ => ?_) (fun _ => ?_)) | split
    | fail_if_no_progress ((with_reducible apply Frame.fields); (case hq => rfl); (case hc => rfl))

theorem State.stretchEnd_frame {wt : Touch} {s0 s : State} (hw : 
    ({ clusters := true, evt := true, telCtr := true, pwrCtr := true, shares := true, rate := true,
       slices := true, irq := true, out := true } : Touch).or wt = wt)
    (hK : Frame wt s0 s) (n : Nat) (recovered : Bool) : Frame wt s0 (State.stretchEnd s n recovered) := by
  refine Frame.step hK hw ?_
  unfold State.stretchEnd
  (try dsimp only)
  repeat' first
    | ((with_reducible show Touch.or _ _ = _) <;> rfl)
    | with_reducible (first
        | exact Frame.refl | apply State.bumpPwr_frame | apply State.droopReport_frame | apply State.setEclk_frame
        | apply State.updSlice_frame | apply State.closeStretch_frame)
    | (intro _ hF; skip) | with_reducible assumption | (with_reducible refine Frame.ite (fun _ => ?_) (fun _ => ?_))

theorem execDroopTrip_frame (slice : Nat) (s : State) : OutFrame 
    ({ clusters := true, pwrCtr := true, shares := true, slices := true } : Touch) s (execDroopTrip slice s) := by
  unfold execDroopTrip
  (try dsimp only)
  repeat' first
    | with_reducible (first | exact OutFrame.fault _ _ | apply OutFrame.next)
    | ((with_reducible show Touch.or _ _ = _) <;> rfl)
    | with_reducible (first | exact Frame.refl | apply State.droopTrip_frame)
    | (with_reducible refine Frame.ite (fun _ => ?_) (fun _ => ?_)) | split

theorem execStretchHoldEnd_frame (slice : Nat) (recovered : Bool) (s : State) : OutFrame 
    ({ clusters := true, evt := true, telCtr := true, pwrCtr := true, shares := true, rate := true,
       slices := true, irq := true, out := true } : Touch) s (execStretchHoldEnd slice recovered s) := by
  unfold execStretchHoldEnd
  (try dsimp only)
  repeat' first
    | with_reducible (first | exact OutFrame.fault _ _ | apply OutFrame.next)
    | ((with_reducible show Touch.or _ _ = _) <;> rfl)
    | with_reducible (first | exact Frame.refl | apply State.stretchEnd_frame)
    | (with_reducible refine Frame.ite (fun _ => ?_) (fun _ => ?_)) | split

theorem applyPwrSetDroop_frame {wt : Touch} {s0 s : State} (hw : 
    ({ slices := true } : Touch).or wt = wt)
    (hK : Frame wt s0 s) (p : List Byte) : Frame wt s0 (applyPwrSetDroop p s) := by
  refine Frame.step hK hw ?_
  unfold applyPwrSetDroop
  (try dsimp only)
  repeat' first
    | ((with_reducible show Touch.or _ _ = _) <;> rfl)
    | with_reducible (first | exact Frame.refl | apply State.updSlice_frame)
    | (with_reducible refine Frame.foldl _ (fun _ _ hF => ?_) _ ?_) | (intro _ hF; skip) | with_reducible assumption

theorem pwrSetDroopBody_frame {wt : Touch} {s0 s : State} (hw : 
    ({ sets := true, snapshot := true, heldShadow := true, slices := true } : Touch).or wt = wt)
    (hK : Frame wt s0 s) (r : Req) : Frame wt s0 (pwrSetDroopBody r s).1 := by
  refine Frame.step hK hw ?_
  unfold pwrSetDroopBody
  (try dsimp only)
  repeat' first
    | ((with_reducible show Touch.or _ _ = _) <;> rfl) | with_reducible exact Frame.refl
    | exact setCmd_frame rfl (fun p _ => applyPwrSetDroop_frame rfl .refl p) r _

theorem State.sense_frame {wt : Touch} {s0 s : State} (hw : 
    ({ evt := true, telCtr := true, slices := true, irq := true, out := true } : Touch).or wt = wt)
    (hK : Frame wt s0 s) (n : Nat) (k : Nat) (v : Option Int) : Frame wt s0 (State.sense s n k v) := by
  refine Frame.step hK hw ?_
  unfold State.sense
  (try dsimp only)
  repeat' first
    | ((with_reducible show Touch.or _ _ = _) <;> rfl)
    | with_reducible (first | exact Frame.refl | apply State.raiseIf_frame | apply State.updSlice_frame)
    | (intro _ hF; skip)

theorem State.warnStep_frame {wt : Touch} {s0 s : State} (hw : 
    ({ evt := true, telCtr := true, pwrCtr := true, thermal := true, irq := true, out := true } : Touch).or wt = wt)
    (hK : Frame wt s0 s) (h : Nat × Int) : Frame wt s0 (State.warnStep s h) := by
  refine Frame.step hK hw ?_
  unfold State.warnStep
  (try dsimp only)
  repeat' first
    | ((with_reducible show Touch.or _ _ = _) <;> rfl)
    | with_reducible (first | exact Frame.refl | apply State.bumpPwr_frame | apply State.raise_frame)
    | (with_reducible refine Frame.ite (fun _ => ?_) (fun _ => ?_)) | split
    | fail_if_no_progress ((with_reducible apply Frame.fields); (case hq => rfl); (case hc => rfl))

theorem State.setEclks_frame {wt : Touch} {s0 s : State} (hw : 
    ({ clusters := true } : Touch).or wt = wt)
    (hK : Frame wt s0 s) : Frame wt s0 (State.setEclks s) := by
  refine Frame.step hK hw ?_
  unfold State.setEclks
  (try dsimp only)
  repeat' first
    | ((with_reducible show Touch.or _ _ = _) <;> rfl)
    | with_reducible (first | exact Frame.refl | apply State.setEclk_frame)
    | (with_reducible refine Frame.foldl _ (fun _ _ hF => ?_) _ ?_) | (intro _ hF; skip) | with_reducible assumption

theorem State.tripStep_frame {wt : Touch} {s0 s : State} (hw : 
    ({ clusters := true, evt := true, telCtr := true, pwrCtr := true, thermal := true, irq := true, out := true } :
    Touch).or wt = wt)
    (hK : Frame wt s0 s) (h : Nat × Int) : Frame wt s0 (State.tripStep s h) := by
  refine Frame.step hK hw ?_
  unfold State.tripStep
  (try dsimp only)
  repeat' first
    | ((with_reducible show Touch.or _ _ = _) <;> rfl)
    | with_reducible (first
        | exact Frame.refl | apply State.bumpPwr_frame | apply State.raise_frame | apply State.setEclks_frame)
    | (with_reducible refine Frame.ite (fun _ => ?_) (fun _ => ?_)) | split
    | fail_if_no_progress ((with_reducible apply Frame.fields); (case hq => rfl); (case hc => rfl))

theorem State.thermal_frame {wt : Touch} {s0 s : State} (hw : 
    ({ clusters := true, evt := true, telCtr := true, pwrCtr := true, slices := true, thermal := true,
       irq := true, out := true } : Touch).or wt = wt)
    (hK : Frame wt s0 s) (l : List Int) : Frame wt s0 (State.thermal s l) := by
  refine Frame.step hK hw ?_
  unfold State.thermal
  (try dsimp only)
  repeat' first
    | ((with_reducible show Touch.or _ _ = _) <;> rfl)
    | with_reducible (first
        | exact Frame.refl | apply State.bumpPwr_frame | apply State.sense_frame | apply State.tripStep_frame
        | apply State.warnStep_frame)
    | (with_reducible refine Frame.foldl _ (fun _ _ hF => ?_) _ ?_) | (intro _ hF; skip) | with_reducible assumption
    | split | fail_if_no_progress ((with_reducible apply Frame.fields); (case hq => rfl); (case hc => rfl))

theorem State.thermalClear_frame {wt : Touch} {s0 s : State} (hw : 
    ({ evt := true, telCtr := true, irq := true, out := true } : Touch).or wt = wt)
    (hK : Frame wt s0 s) (code : Nat) : Frame wt s0 (State.thermalClear s code) := by
  refine Frame.step hK hw ?_
  unfold State.thermalClear
  (try dsimp only)
  repeat' first
    | ((with_reducible show Touch.or _ _ = _) <;> rfl)
    | with_reducible (first | exact Frame.refl | apply State.raise_frame)

theorem execThermalClearTimer_frame (trip : Bool) (s : State) : OutFrame 
    ({ clusters := true, evt := true, telCtr := true, thermal := true, irq := true, out := true } : Touch) s
    (execThermalClearTimer trip s) := by
  unfold execThermalClearTimer
  (try dsimp only)
  repeat' first
    | with_reducible (first | exact OutFrame.fault _ _ | apply OutFrame.next)
    | ((with_reducible show Touch.or _ _ = _) <;> rfl)
    | with_reducible (first | exact Frame.refl | apply State.setEclks_frame | apply State.thermalClear_frame)
    | (with_reducible refine Frame.ite (fun _ => ?_) (fun _ => ?_)) | split
    | fail_if_no_progress ((with_reducible apply Frame.fields); (case hq => rfl); (case hc => rfl))

theorem applyPwrSetThermal_frame {wt : Touch} {s0 s : State} (hw : 
    ({ warnC := true } : Touch).or wt = wt)
    (hK : Frame wt s0 s) (p : List Byte) : Frame wt s0 (applyPwrSetThermal p s) :=
  hK.step hw (.ofView rfl)

theorem pwrSetThermalBody_frame {wt : Touch} {s0 s : State} (hw : 
    ({ sets := true, snapshot := true, heldShadow := true, warnC := true } : Touch).or wt = wt)
    (hK : Frame wt s0 s) (r : Req) : Frame wt s0 (pwrSetThermalBody r s).1 := by
  refine Frame.step hK hw ?_
  unfold pwrSetThermalBody
  (try dsimp only)
  repeat' first
    | ((with_reducible show Touch.or _ _ = _) <;> rfl) | with_reducible exact Frame.refl
    | exact setCmd_frame rfl (fun p _ => applyPwrSetThermal_frame rfl .refl p) r _

theorem execLifeHourTick_frame (avg : Int) (s : State) : OutFrame 
    ({ resets := true, thermal := true } : Touch) s (execLifeHourTick avg s) := by
  unfold execLifeHourTick
  (try dsimp only)
  repeat' first
    | with_reducible (first | exact OutFrame.fault _ _ | apply OutFrame.next)
    | ((with_reducible show Touch.or _ _ = _) <;> rfl) | with_reducible exact Frame.refl | split
    | fail_if_no_progress ((with_reducible apply Frame.fields); (case hq => rfl); (case hc => rfl))

theorem State.spareCopy_frame {wt : Touch} {s0 s : State} (hw : 
    ({ hbms := true } : Touch).or wt = wt)
    (hK : Frame wt s0 s) (k : Nat) (pc : Nat) : Frame wt s0 (State.spareCopy s k pc) := by
  refine Frame.step hK hw ?_
  unfold State.spareCopy
  (try dsimp only)
  repeat' first
    | ((with_reducible show Touch.or _ _ = _) <;> rfl)
    | with_reducible (first | exact Frame.refl | apply State.updStack_frame) | (intro _ hF; skip)
    | with_reducible assumption | (with_reducible refine Frame.ite (fun _ => ?_) (fun _ => ?_))

theorem State.loseSparePc_frame {wt : Touch} {s0 s : State} (hw :
    ({ hbms := true, repairLog := true } : Touch).or wt = wt)
    (hK : Frame wt s0 s) (k : Nat) (pc : Nat) :
    Frame wt s0 (State.loseSparePc s k pc) := by
  refine Frame.step hK hw ?_
  unfold State.loseSparePc
  (try dsimp only)
  repeat' first
    | ((with_reducible show Touch.or _ _ = _) <;> rfl)
    | with_reducible (first | exact Frame.refl | apply State.updStack_frame | apply State.repairAdd_frame)
    | (with_reducible refine Frame.foldl _ (fun _ _ hF => ?_) _ ?_)
    | (intro _ hF; skip) | with_reducible assumption
    | (with_reducible refine Frame.ite (fun _ => ?_) (fun _ => ?_)) | split
    | fail_if_no_progress ((with_reducible apply Frame.fields); (case hq => rfl); (case hc => rfl))

theorem State.unspare_frame {wt : Touch} {s0 s : State} (hw :
    ({ evt := true, telCtr := true, hbms := true, healthGen := true, repairLog := true, irq := true,
       out := true } : Touch).or wt = wt)
    (hK : Frame wt s0 s) (k : Nat) (pc : Nat) :
    Frame wt s0 (State.unspare s k pc) := by
  refine Frame.step hK hw ?_
  unfold State.unspare
  (try dsimp only)
  repeat' first
    | ((with_reducible show Touch.or _ _ = _) <;> rfl)
    | with_reducible (first
        | exact Frame.refl | apply State.updStack_frame | apply State.healthIf_frame | apply State.repairAdd_frame
        | apply State.loseSparePc_frame)
    | (with_reducible refine Frame.foldl _ (fun _ _ hF => ?_) _ ?_)
    | (intro _ hF; skip) | with_reducible assumption
    | (with_reducible refine Frame.ite (fun _ => ?_) (fun _ => ?_)) | split
    | fail_if_no_progress ((with_reducible apply Frame.fields); (case hq => rfl); (case hc => rfl))

theorem State.spareFails_frame {wt : Touch} {s0 s : State} (hw :
    ({ evt := true, telCtr := true, hbms := true, healthGen := true, repairLog := true, irq := true,
       out := true } : Touch).or wt = wt)
    (hK : Frame wt s0 s) (k : Nat) :
    Frame wt s0 (State.spareFails s k) := by
  refine Frame.step hK hw ?_
  unfold State.spareFails
  (try dsimp only)
  repeat' first
    | ((with_reducible show Touch.or _ _ = _) <;> rfl)
    | with_reducible (first
        | exact Frame.refl | apply State.updStack_frame | apply State.healthChanged_frame
        | apply State.repairAdd_frame)
    | (with_reducible refine Frame.foldl _ (fun _ _ hF => ?_) _ ?_)
    | (intro _ hF; skip) | with_reducible assumption
    | (with_reducible refine Frame.ite (fun _ => ?_) (fun _ => ?_)) | split
    | fail_if_no_progress ((with_reducible apply Frame.fields); (case hq => rfl); (case hc => rfl))

theorem State.retireRow_frame {wt : Touch} {s0 s : State} (hw : 
    ({ evt := true, telCtr := true, pwrCtr := true, hbms := true, repairLog := true, irq := true, out := true } :
    Touch).or wt = wt)
    (hK : Frame wt s0 s) (k : Nat) (pc : Nat) (row : Nat) : Frame wt s0 (State.retireRow s k pc row) := by
  refine Frame.step hK hw ?_
  unfold State.retireRow
  (try dsimp only)
  repeat' first
    | ((with_reducible show Touch.or _ _ = _) <;> rfl)
    | with_reducible (first
        | exact Frame.refl | apply State.bumpPwr_frame | apply State.raise_frame | apply State.repairAdd_frame
        | apply State.spareCopy_frame | apply State.updStack_frame)
    | (intro _ hF; skip) | with_reducible assumption | (with_reducible refine Frame.ite (fun _ => ?_) (fun _ => ?_))

theorem State.hbmCorrectable_frame {wt : Touch} {s0 s : State} (hw : 
    ({ evt := true, telCtr := true, pwrCtr := true, hbms := true, repairLog := true, irq := true, out := true } :
    Touch).or wt = wt)
    (hK : Frame wt s0 s) (k : Nat) (pc : Nat) (row : Nat) : Frame wt s0 (State.hbmCorrectable s k pc row) := by
  refine Frame.step hK hw ?_
  unfold State.hbmCorrectable
  (try dsimp only)
  repeat' first
    | ((with_reducible show Touch.or _ _ = _) <;> rfl)
    | with_reducible (first
        | exact Frame.refl | apply State.bumpPwr_frame | apply State.retireRow_frame | apply State.updStack_frame)
    | (intro _ hF; skip) | with_reducible assumption | (with_reducible refine Frame.ite (fun _ => ?_) (fun _ => ?_))

theorem State.poisonDrop_frame {wt : Touch} {s0 s : State} (hw : 
    ({ ports := true, prismFlight := true, recirc := true, merge := true, fwdCtr := true, cells := true,
       portClass := true, queues := true, spillVoqs := true, bufCtr := true, pkts := true, voqs := true,
       multiQ := true, pairs := true, fabCtr := true, schedCtr := true, targets := true, drops := true,
       notices := true, proofCtr := true, evt := true, mirCtr := true, telCtr := true, dropCtr := true,
       portCtr := true, prismCtr := true, timeCtr := true, pwrCtr := true, shares := true, irq := true,
       out := true } : Touch).or wt = wt)
    (hK : Frame wt s0 s) (id : Nat) : Frame wt s0 (State.poisonDrop s id) := by
  refine Frame.step hK hw ?_
  unfold State.poisonDrop
  (try dsimp only)
  repeat' first
    | ((with_reducible show Touch.or _ _ = _) <;> rfl)
    | with_reducible (first
        | exact Frame.refl | apply State.bumpPwr_frame | apply State.forget_frame | apply State.pull_frame
        | apply State.queueEmptied_frame | apply State.readEnd_frame | apply State.release_frame
        | apply State.unpark_frame | apply State.leavePark_frame)
    | (with_reducible refine Frame.ite (fun _ => ?_) (fun _ => ?_)) | split

theorem State.poison_frame {wt : Touch} {s0 s : State} (hw : 
    ({ ports := true, prismFlight := true, recirc := true, merge := true, fwdCtr := true, cells := true,
       portClass := true, queues := true, spillVoqs := true, bufCtr := true, pkts := true, voqs := true,
       multiQ := true, pairs := true, fabCtr := true, schedCtr := true, fix := true, targets := true,
       drops := true, notices := true, proofCtr := true, evt := true, mirCtr := true, telCtr := true,
       dropCtr := true, portCtr := true, prismCtr := true, timeCtr := true, pwrCtr := true, shares := true,
       irq := true, chans := true, fifos := true, waitFetch := true, staging := true, out := true,
       free := true } : Touch).or wt = wt)
    (hK : Frame wt s0 s) (region : Nat) (item : Nat) : Frame wt s0 (State.poison s region item) := by
  refine Frame.step hK hw ?_
  unfold State.poison
  (try dsimp only)
  repeat' first
    | ((with_reducible show Touch.or _ _ = _) <;> rfl)
    | with_reducible (first | exact Frame.refl | apply State.poisonDrop_frame | apply State.transferDone_frame)
    | (with_reducible refine Frame.ite (fun _ => ?_) (fun _ => ?_))

theorem State.hbmUncorrectable_frame {wt : Touch} {s0 s : State} (hw : 
    ({ ports := true, prismFlight := true, recirc := true, merge := true, fwdCtr := true, cells := true,
       portClass := true, queues := true, spillVoqs := true, bufCtr := true, pkts := true, voqs := true,
       multiQ := true, pairs := true, fabCtr := true, schedCtr := true, fix := true, targets := true,
       drops := true, notices := true, proofCtr := true, evt := true, mirCtr := true, telCtr := true,
       dropCtr := true, portCtr := true, prismCtr := true, timeCtr := true, pwrCtr := true, shares := true,
       hbms := true, healthGen := true, repairLog := true, irq := true, chans := true, fifos := true,
       waitFetch := true, staging := true, out := true, free := true } : Touch).or wt = wt)
    (hK : Frame wt s0 s) (k : Nat) (pc : Nat) (region : Nat) (item : Nat) : Frame wt s0 (State.hbmUncorrectable s k pc
    region item) := by
  refine Frame.step hK hw ?_
  unfold State.hbmUncorrectable
  (try dsimp only)
  repeat' first
    | ((with_reducible show Touch.or _ _ = _) <;> rfl)
    | with_reducible (first
        | exact Frame.refl | apply State.bumpPwr_frame | apply State.poison_frame | apply State.raise_frame
        | apply State.spareCopy_frame | apply State.unspare_frame)

theorem State.spareDone_frame {wt : Touch} {s0 s : State} (hw : 
    ({ evt := true, telCtr := true, hbms := true, healthGen := true, repairLog := true, irq := true,
       out := true } : Touch).or wt = wt)
    (hK : Frame wt s0 s) (k : Nat) : Frame wt s0 (State.spareDone s k) := by
  refine Frame.step hK hw ?_
  unfold State.spareDone
  (try dsimp only)
  repeat' first
    | ((with_reducible show Touch.or _ _ = _) <;> rfl)
    | with_reducible (first
        | exact Frame.refl | apply State.healthChanged_frame | apply State.raise_frame | apply State.repairAdd_frame
        | apply State.updStack_frame)
    | (intro _ hF; skip) | with_reducible assumption | split

theorem execHbmCorrectableError_frame (stack : Nat) (pc : Nat) (row : Nat) (s : State) : OutFrame 
    ({ evt := true, telCtr := true, pwrCtr := true, hbms := true, repairLog := true, irq := true, out := true } :
    Touch) s (execHbmCorrectableError stack pc row s) := by
  unfold execHbmCorrectableError
  (try dsimp only [onStack])
  repeat' first
    | with_reducible (first | exact OutFrame.fault _ _ | apply OutFrame.next)
    | ((with_reducible show Touch.or _ _ = _) <;> rfl)
    | with_reducible (first | exact Frame.refl | apply State.hbmCorrectable_frame) | split

theorem execHbmUncorrectableRead_frame (stack : Nat) (pc : Nat) (region : Nat) (item : Nat) (s : State) : OutFrame 
    ({ ports := true, prismFlight := true, recirc := true, merge := true, fwdCtr := true, cells := true,
       portClass := true, queues := true, spillVoqs := true, bufCtr := true, pkts := true, voqs := true,
       multiQ := true, pairs := true, fabCtr := true, schedCtr := true, fix := true, targets := true,
       drops := true, notices := true, proofCtr := true, evt := true, mirCtr := true, telCtr := true,
       dropCtr := true, portCtr := true, prismCtr := true, timeCtr := true, pwrCtr := true, shares := true,
       hbms := true, healthGen := true, repairLog := true, irq := true, chans := true, fifos := true,
       waitFetch := true, staging := true, out := true, free := true } : Touch) s (execHbmUncorrectableRead stack pc
    region item s) := by
  unfold execHbmUncorrectableRead
  (try dsimp only [onStack])
  repeat' first
    | with_reducible (first | exact OutFrame.fault _ _ | apply OutFrame.next)
    | ((with_reducible show Touch.or _ _ = _) <;> rfl)
    | with_reducible (first | exact Frame.refl | apply State.hbmUncorrectable_frame | apply State.spareFails_frame) | split

theorem execHbmPcSpareDone_frame (stack : Nat) (s : State) : OutFrame 
    ({ evt := true, telCtr := true, hbms := true, healthGen := true, repairLog := true, irq := true,
       out := true } : Touch) s (execHbmPcSpareDone stack s) := by
  unfold execHbmPcSpareDone
  (try dsimp only [onStack])
  repeat' first
    | with_reducible (first | exact OutFrame.fault _ _ | apply OutFrame.next)
    | ((with_reducible show Touch.or _ _ = _) <;> rfl)
    | with_reducible (first | exact Frame.refl | apply State.spareDone_frame) | split

theorem pwrGetStatusBody_frame {wt : Touch} {s0 s : State} (hw : ({} : Touch).or wt = wt)
    (hK : Frame wt s0 s) (r : Req) : Frame wt s0 (pwrGetStatusBody r s).1 := by
  refine Frame.step hK hw ?_
  unfold pwrGetStatusBody
  (try dsimp only)
  repeat' first
    | ((with_reducible show Touch.or _ _ = _) <;> rfl)
    | with_reducible (first | exact Frame.refl | apply readCmd_frame) | (intro _ hF; skip)

theorem pwrGetCountersBody_frame {wt : Touch} {s0 s : State} (hw : ({} : Touch).or wt = wt)
    (hK : Frame wt s0 s) (r : Req) : Frame wt s0 (pwrGetCountersBody r s).1 := by
  refine Frame.step hK hw ?_
  unfold pwrGetCountersBody
  (try dsimp only)
  repeat' first
    | ((with_reducible show Touch.or _ _ = _) <;> rfl)
    | with_reducible (first | exact Frame.refl | apply readCmd_frame) | (intro _ hF; skip)

theorem execPwrGetStatus_frame (r : Req) (s : State) : OutFrame 
    ({ pools := true, bufCtr := true, waitTx := true, evt := true, telCtr := true, portCtr := true,
       mbxCtr := true, boxes := true, jobs := true, hist := true, peers := true, msgs := true, irq := true,
       out := true } : Touch) s (execPwrGetStatus r s) := 
  mailboxCommand_frame rfl (fun _ => pwrGetStatusBody_frame rfl .refl r)

theorem execPwrSetDroop_frame (r : Req) (s : State) : OutFrame 
    ({ pools := true, bufCtr := true, waitTx := true, evt := true, telCtr := true, portCtr := true,
       mbxCtr := true, boxes := true, jobs := true, hist := true, sets := true, snapshot := true,
       heldShadow := true, peers := true, msgs := true, slices := true, irq := true, out := true } : Touch) s (execPwrSetDroop r s) := 
  mailboxCommand_frame rfl (fun _ => pwrSetDroopBody_frame rfl .refl r)

theorem execPwrSetThermal_frame (r : Req) (s : State) : OutFrame 
    ({ pools := true, bufCtr := true, waitTx := true, evt := true, telCtr := true, portCtr := true,
       mbxCtr := true, boxes := true, jobs := true, hist := true, sets := true, snapshot := true,
       heldShadow := true, peers := true, msgs := true, warnC := true, irq := true, out := true } : Touch) s (execPwrSetThermal r s) := 
  mailboxCommand_frame rfl (fun _ => pwrSetThermalBody_frame rfl .refl r)

theorem execPwrGetCounters_frame (r : Req) (s : State) : OutFrame 
    ({ pools := true, bufCtr := true, waitTx := true, evt := true, telCtr := true, portCtr := true,
       mbxCtr := true, boxes := true, jobs := true, hist := true, peers := true, msgs := true, irq := true,
       out := true } : Touch) s (execPwrGetCounters r s) := 
  mailboxCommand_frame rfl (fun _ => pwrGetCountersBody_frame rfl .refl r)

end Sys2Proof.Machine
end

