-- ==== Sys2Proof/Laws/FrameSliceOps.lean ====
section
/-! SUPPORT. What the operations of SliceOps may change. -/

set_option Elab.async false
set_option linter.all false

namespace Sys2Proof.Machine

theorem State.cutTx_frame {wt : Touch} {s0 s : State} (hw : 
    ({ ports := true, pkts := true, nextPkt := true, pairs := true, fabPorts := true, nodes := true,
       egq := true, mirrors := true, cand := true, mirQ := true, mirCtr := true, telCtr := true,
       portCtr := true, timeCtr := true, shares := true, out := true, free := true } : Touch).or wt = wt)
    (hK : Frame wt s0 s) (n : Nat) (p : Nat) : Frame wt s0 (State.cutTx s n p) := by
  refine Frame.step hK hw ?_
  unfold State.cutTx
  (try dsimp only)
  repeat' first
    | ((with_reducible show Touch.or _ _ = _) <;> rfl)
    | with_reducible (first
        | exact Frame.refl | apply State.complete_frame | apply State.txDone_frame | apply State.updPort_frame)
    | (intro _ hF; skip) | with_reducible assumption | (with_reducible refine Frame.ite (fun _ => ?_) (fun _ => ?_))
    | split

theorem State.dropItems_frame {wt : Touch} {s0 s : State} (hw : 
    ({ fabPorts := true, nodes := true, egq := true } : Touch).or wt = wt)
    (hK : Frame wt s0 s) (f : Nat → EgItem → Bool) : Frame wt s0 (State.dropItems s f) := by
  refine Frame.step hK hw ?_
  unfold State.dropItems
  (try dsimp only)
  repeat' first
    | ((with_reducible show Touch.or _ _ = _) <;> rfl)
    | with_reducible (first | exact Frame.refl | apply State.matchCredit_frame | apply State.setEgq_frame)
    | (with_reducible refine Frame.foldl _ (fun _ _ hF => ?_) _ ?_) | (intro _ hF; skip) | with_reducible assumption
    | (with_reducible refine Frame.ite (fun _ => ?_) (fun _ => ?_))

theorem State.unmatch_frame {wt : Touch} {s0 s : State} (hw : 
    ({ fabPorts := true } : Touch).or wt = wt)
    (hK : Frame wt s0 s) (r : State) (pk : Pkt) : Frame wt s0 (State.unmatch r s pk) := by
  refine Frame.step hK hw ?_
  unfold State.unmatch
  (try dsimp only)
  repeat' first
    | ((with_reducible show Touch.or _ _ = _) <;> rfl)
    | with_reducible (first | exact Frame.refl | apply State.matchCredit_frame)
    | (with_reducible refine Frame.ite (fun _ => ?_) (fun _ => ?_))

theorem State.loseCopy_frame {wt : Touch} {s0 s : State} (hw : 
    ({ ports := true, prismFlight := true, recirc := true, merge := true, cells := true, portClass := true,
       queues := true, bufCtr := true, pkts := true, fabPorts := true, portCtr := true, shares := true,
       out := true } : Touch).or wt = wt)
    (hK : Frame wt s0 s) (r : State) (src : Nat) (dst : Nat) (id : Nat) : Frame wt s0 (State.loseCopy r s src dst id)
    := by
  refine Frame.step hK hw ?_
  unfold State.loseCopy
  (try dsimp only)
  repeat' first
    | ((with_reducible show Touch.or _ _ = _) <;> rfl)
    | with_reducible (first
        | exact Frame.refl | apply State.freeCell_frame | apply State.release_frame | apply State.unmatch_frame)
    | (with_reducible refine Frame.foldl _ (fun _ _ hF => ?_) _ ?_) | (intro _ hF; skip) | with_reducible assumption
    | (with_reducible refine Frame.ite (fun _ => ?_) (fun _ => ?_))

theorem State.losePkt_frame {wt : Touch} {s0 s : State} (hw : 
    ({ ports := true, prismFlight := true, recirc := true, merge := true, fwdFlight := true, cells := true,
       portClass := true, queues := true, spillVoqs := true, bufCtr := true, pkts := true, voqs := true,
       multiQ := true, pairs := true, fabPorts := true, fabCtr := true, portCtr := true, shares := true,
       out := true } : Touch).or wt = wt)
    (hK : Frame wt s0 s) (r : State) (id : Nat) : Frame wt s0 (State.losePkt r s id) := by
  refine Frame.step hK hw ?_
  unfold State.losePkt
  (try dsimp only)
  repeat' first
    | ((with_reducible show Touch.or _ _ = _) <;> rfl)
    | with_reducible (first
        | exact Frame.refl | apply State.pull_frame | apply State.release_frame | apply State.retire_frame
        | apply State.unmatch_frame)
    | (intro _ hF; skip) | with_reducible assumption | (with_reducible refine Frame.ite (fun _ => ?_) (fun _ => ?_))
    | split

theorem State.loseCredit_frame {wt : Touch} {s0 s : State} (hw : 
    ({ voqs := true, fabPorts := true, nodes := true } : Touch).or wt = wt)
    (hK : Frame wt s0 s) (n : Nat) : Frame wt s0 (State.loseCredit s n) := by
  refine Frame.step hK hw ?_
  unfold State.loseCredit
  (try dsimp only)
  repeat' first
    | ((with_reducible show Touch.or _ _ = _) <;> rfl)
    | with_reducible (first | exact Frame.refl | apply State.matchCredit_frame | apply State.grSettle_frame)
    | (with_reducible refine Frame.foldl _ (fun _ _ hF => ?_) _ ?_) | (intro _ hF; skip) | with_reducible assumption
    | split | fail_if_no_progress ((with_reducible apply Frame.fields); (case hq => rfl); (case hc => rfl))

theorem State.restartPairs_frame {wt : Touch} {s0 s : State} (hw : 
    ({ pairs := true, links := true } : Touch).or wt = wt)
    (hK : Frame wt s0 s) (n : Nat) : Frame wt s0 (State.restartPairs s n) := by
  refine Frame.step hK hw ?_
  unfold State.restartPairs
  (try dsimp only)
  repeat' first
    | ((with_reducible show Touch.or _ _ = _) <;> rfl)
    | with_reducible (first | exact Frame.refl | apply State.updPair_frame)
    | (with_reducible refine Frame.foldl _ (fun _ _ hF => ?_) _ ?_) | (intro _ hF; skip) | with_reducible assumption
    | (with_reducible refine Frame.ite (fun _ => ?_) (fun _ => ?_)) | split
    | fail_if_no_progress ((with_reducible apply Frame.fields); (case hq => rfl); (case hc => rfl))

theorem State.clearSlice_frame {wt : Touch} {s0 s : State} (hw : 
    ({ hits := true, learnQ := true, fwdCtr := true, bufCtr := true, fabCtr := true, nodes := true,
       loupeItems := true, schedCtr := true, proofCtr := true, mirQ := true, mirCtr := true,
       dropCtr := true, portCtr := true, prismCtr := true, timeCtr := true, pwrCtr := true,
       shares := true } : Touch).or wt = wt)
    (hK : Frame wt s0 s) (n : Nat) : Frame wt s0 (State.clearSlice s n) :=
  hK.step hw (.ofView rfl)

theorem State.flushSlice_frame {wt : Touch} {s0 s : State} (hw : 
    ({ lanes := true, ports := true, prismFlight := true, hits := true, recirc := true, merge := true,
       fwdFlight := true, learnQ := true, fwdCtr := true, cells := true, portClass := true, queues := true,
       spillVoqs := true, bufCtr := true, pkts := true, nextPkt := true, voqs := true, multiQ := true,
       pairs := true, fabPorts := true, links := true, fabCtr := true, nodes := true, egq := true,
       waitTx := true, loupeItems := true, schedCtr := true, cores := true, flows := true, fix := true,
       fixCtr := true, proofCtr := true, evt := true, mirrors := true, cand := true, mirQ := true,
       mirCtr := true, telCtr := true, dropCtr := true, portCtr := true, prismCtr := true, timeCtr := true,
       pwrCtr := true, shares := true, rate := true, healthGen := true, irq := true, out := true,
       free := true } : Touch).or wt = wt)
    (hK : Frame wt s0 s) (n : Nat) : Frame wt s0 (State.flushSlice s n).1 := by
  refine Frame.step hK hw ?_
  unfold State.flushSlice
  (try dsimp only)
  repeat' first
    | ((with_reducible show Touch.or _ _ = _) <;> rfl)
    | with_reducible (first
        | exact Frame.refl | apply State.clearSlice_frame | apply State.cutTx_frame | apply State.dropItems_frame
        | apply State.linkDown_frame | apply State.loseCopy_frame | apply State.loseCredit_frame
        | apply State.losePkt_frame | apply State.restartPairs_frame | apply State.rewindSlice_frame
        | apply State.updPort_frame)
    | (with_reducible refine Frame.foldl _ (fun _ _ hF => ?_) _ ?_) | (intro _ hF; skip) | with_reducible assumption
    | (with_reducible refine Frame.ite (fun _ => ?_) (fun _ => ?_))

theorem State.parkNow_frame {wt : Touch} {s0 s : State} (hw : 
    ({ lanes := true, ports := true, prismFlight := true, hits := true, recirc := true, merge := true,
       fwdFlight := true, learnQ := true, fwdCtr := true, cells := true, portClass := true, queues := true,
       spillVoqs := true, bufCtr := true, pkts := true, nextPkt := true, voqs := true, multiQ := true,
       pairs := true, fabPorts := true, links := true, fabCtr := true, nodes := true, egq := true,
       waitTx := true, loupeItems := true, schedCtr := true, clusters := true, cores := true,
       flows := true, fix := true, fixCtr := true, proofCtr := true, evt := true, mirrors := true,
       cand := true, mirQ := true, mirCtr := true, telCtr := true, dropCtr := true, portCtr := true,
       prismCtr := true, timeCtr := true, pwrCtr := true, shares := true, rate := true, slices := true,
       healthGen := true, irq := true, out := true, free := true } : Touch).or wt = wt)
    (hK : Frame wt s0 s) (n : Nat) : Frame wt s0 (State.parkNow s n) := by
  refine Frame.step hK hw ?_
  unfold State.parkNow
  (try dsimp only)
  repeat' first
    | ((with_reducible show Touch.or _ _ = _) <;> rfl)
    | with_reducible (first
        | exact Frame.refl | apply State.bumpPwr_frame | apply State.flushSlice_frame | apply State.raise_frame
        | apply State.updCluster_frame | apply State.updSlice_frame | apply State.closeStretch_frame)
    | (intro _ hF; skip) | (with_reducible refine Frame.ite (fun _ => ?_) (fun _ => ?_))

end Sys2Proof.Machine
end

