-- ==== Sys2Proof/Laws/FrameBakeBase.lean ====
section
/-! SUPPORT. What the operations of BakeBase may change. -/

set_option Elab.async false
set_option linter.all false

namespace Sys2Proof.Machine

theorem FwdSt.confine_rest (f : FwdSt) (kt : Nat) (key : List Byte) : (f.confine kt key).rest = f.rest := by
  unfold FwdSt.confine
  split <;> rfl

theorem FwdSt.placeStaged_rest {f g : FwdSt} {c : StagedCmd} (h : f.placeStaged c = some g) : g.rest = f.rest := by
  unfold FwdSt.placeStaged at h
  dsimp only at h
  split at h
  · obtain ⟨x, hx, rfl⟩ := Option.map_eq_some_iff.mp h
    rw [FwdSt.insertEntry_rest hx, FwdSt.confine_rest]
  · split at h
    · cases h; exact FwdSt.confine_rest _ _ _
    · cases h; rfl

theorem FwdSt.placeAll_rest {f g : FwdSt} {l : List StagedCmd} (h : f.placeAll l = some g) : g.rest = f.rest := by
  induction l generalizing f with
  | nil => cases h; rfl
  | cons c l ih =>
    obtain ⟨x, hx, hy⟩ := Option.bind_eq_some_iff.mp h
    rw [ih hy, FwdSt.placeStaged_rest hx]

theorem FwdSt.unprepare_base (f : FwdSt) : f.unprepare.base = f.base := by
  unfold FwdSt.unprepare
  dsimp only
  have hg : ((f.em.filter (fun x => x.2.vis == 2 ^ (1 - f.gen))).foldl (fun h x => h.removeAt x.1) f).rest = f.rest :=
    FwdSt.foldl_rest _ (fun _ _ => FwdSt.removeAt_rest _ _) _ _
  rw [FwdSt.updGen_base]
  have hb := FwdSt.base_of_rest hg
  exact hb

theorem applyDomSetPort_frame {wt : Touch} {s0 s : State} (hw :
    ({ ports := true } : Touch).or wt = wt)
    (hK : Frame wt s0 s) (p : List Byte) :
    Frame wt s0 (applyDomSetPort p s) := by
  refine Frame.step hK hw ?_
  unfold applyDomSetPort
  (try dsimp only)
  repeat' first
    | ((with_reducible show Touch.or _ _ = _) <;> rfl)
    | with_reducible (first | exact Frame.refl | apply State.updPort_frame)
    | (with_reducible refine Frame.foldl _ (fun _ _ hF => ?_) _ ?_)
    | (intro _ hF; skip) | with_reducible assumption
    | (with_reducible refine Frame.ite (fun _ => ?_) (fun _ => ?_)) | split
    | fail_if_no_progress ((with_reducible apply Frame.fields); (case hq => rfl); (case hc => rfl))

theorem applyDomAdmit_frame {wt : Touch} {s0 s : State} (hw : 
    ({ peers := true } : Touch).or wt = wt)
    (hK : Frame wt s0 s) (p : List Byte) : Frame wt s0 (applyDomAdmit p s) := by
  refine Frame.step hK hw ?_
  unfold applyDomAdmit
  (try dsimp only)
  repeat' first
    | ((with_reducible show Touch.or _ _ = _) <;> rfl)
    | with_reducible (first | exact Frame.refl | apply State.updPeer_frame) | (intro _ hF; skip)
    | with_reducible assumption | (with_reducible refine Frame.ite (fun _ => ?_) (fun _ => ?_)) | split
    | fail_if_no_progress ((with_reducible apply Frame.fields); (case hq => rfl); (case hc => rfl))

theorem applyLaneMap_frame {wt : Touch} {s0 s : State} (hw :
    ({ groups := true } : Touch).or wt = wt)
    (hK : Frame wt s0 s) (p : List Byte) :
    Frame wt s0 (applyLaneMap p s) := by
  refine Frame.step hK hw ?_
  unfold applyLaneMap
  (try dsimp only)
  repeat' first
    | ((with_reducible show Touch.or _ _ = _) <;> rfl)
    | with_reducible (first | exact Frame.refl | apply State.updGroup_frame)
    | (with_reducible refine Frame.foldl _ (fun _ _ hF => ?_) _ ?_)
    | (intro _ hF; skip) | with_reducible assumption
    | (with_reducible refine Frame.ite (fun _ => ?_) (fun _ => ?_)) | split
    | fail_if_no_progress ((with_reducible apply Frame.fields); (case hq => rfl); (case hc => rfl))

theorem virtPrism_frame {wt : Touch} {s0 s : State} (hw : 
    ({ prismBanks := true } : Touch).or wt = wt)
    (hK : Frame wt s0 s) (op : Nat) (p : List Byte) : Frame wt s0 (virtPrism op p s) := by
  refine Frame.step hK hw ?_
  unfold virtPrism PrismSt.updBank
  (try dsimp only)
  repeat' first
    | ((with_reducible show Touch.or _ _ = _) <;> rfl) | with_reducible exact Frame.refl | (intro _ hF; skip)
    | with_reducible assumption | split
    | fail_if_no_progress ((with_reducible apply Frame.fields); (case hq => rfl); (case hc => rfl))

theorem State.newFlows_frame {wt : Touch} {s0 s : State} (hw : 
    ({ flows := true } : Touch).or wt = wt)
    (hK : Frame wt s0 s) (l : List StagedCmd) : Frame wt s0 (State.newFlows s l) := by
  refine Frame.step hK hw ?_
  unfold State.newFlows
  (try dsimp only)
  repeat' first
    | ((with_reducible show Touch.or _ _ = _) <;> rfl)
    | with_reducible (first | exact Frame.refl | apply State.firstFlow_frame)
    | (with_reducible refine Frame.foldl _ (fun _ _ hF => ?_) _ ?_) | (intro _ hF; skip) | with_reducible assumption
    | split | fail_if_no_progress ((with_reducible apply Frame.fields); (case hq => rfl); (case hc => rfl))

theorem newFlows_prism (s : State) (l : List StagedCmd) : (s.newFlows l).prism = s.prism := by
  unfold State.newFlows
  generalize l.filter (fun c => c.op == 0x0401) = k
  induction k generalizing s with
  | nil => rfl
  | cons c k ih => rw [List.foldl_cons, ih]; unfold State.firstFlow; repeat' split
                   all_goals rfl

theorem newFlows_fwd (s : State) (l : List StagedCmd) : (s.newFlows l).fwd = s.fwd := by
  unfold State.newFlows
  generalize l.filter (fun c => c.op == 0x0401) = k
  induction k generalizing s with
  | nil => rfl
  | cons c k ih => rw [List.foldl_cons, ih]; unfold State.firstFlow; repeat' split
                   all_goals rfl

theorem State.prepare_frame {wt : Touch} {s0 s t : State} (hw : 
    ({ prismBanks := true, gens := true, em := true, fwdCtr := true, flows := true } : Touch).or wt = wt) (h : Frame wt s0 s) {l : List StagedCmd}
    (e : s.prepare l = some t) : Frame wt s0 t := by
  refine h.step hw ?_
  unfold State.prepare at e
  rw [Option.map_eq_some_iff] at e
  obtain ⟨f, hf, e⟩ := e
  have hp := (Option.filter_eq_some_iff.mp hf).1
  · subst e
    have hb : (f.updGen (1 - f.gen) (fun _ => f.nextTables l)).base = (s.newFlows l).fwd.base :=
      (FwdSt.updGen_base _ _ _).trans ((FwdSt.base_of_rest (FwdSt.placeAll_rest hp)).trans (by rw [newFlows_fwd]))
    have k := Frame.setFwd2 (wt := 
    ({ prismBanks := true, gens := true, em := true, fwdCtr := true, flows := true } : Touch)) rfl (State.newFlows_frame rfl .refl l) hb
    unfold PrismSt.updBank
    rw [← newFlows_prism s l]
    split
    · split <;> exact k.step (v := { prismBanks := true }) rfl (.ofView rfl)
    · exact k

theorem State.unprepare_frame {wt : Touch} {s0 s : State} (hw : 
    ({ prismBanks := true, gens := true, em := true, fwdCtr := true } : Touch).or wt = wt) (hK : Frame wt s0 s) (t : SetSt) : Frame wt s0 (s.unprepare t) := by
  refine hK.step hw ?_
  unfold State.unprepare
  split
  · split
    · exact Frame.fields (Frame.setFwd2 rfl .refl (FwdSt.unprepare_base _))
    · exact .ofView rfl
  · exact .refl

theorem ruleLow_frame {op : Nat} {u : BakeRule} (e : ruleLow op = some u) (s : State) (p : List Byte) :
    Frame 
    ({ gates := true, lanes := true, groups := true, ports := true, prismBanks := true,
       prismFlight := true, recirc := true, merge := true, gens := true, em := true, agePeriod := true,
       fwdCtr := true, cells := true, portClass := true, queues := true, spillVoqs := true, bufCtr := true,
       pkts := true, nextPkt := true, voqs := true, multiQ := true, pairs := true, fabPorts := true,
       fabCtr := true, nodes := true, egq := true, waitTx := true, schedCtr := true, flows := true,
       evt := true, mirrors := true, cand := true, mirQ := true, mirCtr := true, telCtr := true,
       dropCtr := true, portCtr := true, prismCtr := true, timeCtr := true, shares := true,
       healthGen := true, margins := true, irq := true, out := true, free := true } : Touch) s (u.apply p s) := by
  unfold ruleLow at e
  split at e
  · cases e; dsimp only; exact applyPortSetMode_frame rfl .refl p
  · cases e; dsimp only; exact applyPortSetMac_frame rfl .refl p
  · cases e; dsimp only; exact applyPortSetFlow_frame rfl .refl p
  · cases e; dsimp only; exact applyPortSetThrottle_frame rfl .refl p
  · cases e; dsimp only; exact applyPortSetEee_frame rfl .refl p
  · cases e; dsimp only; exact applyLaneMap_frame rfl .refl p
  · cases e; dsimp only; exact applyPortSetAdmin_frame rfl .refl p
  · cases e; dsimp only; exact applyPortSetMargin_frame rfl .refl p
  · cases e; dsimp only; exact virtPrism_frame rfl .refl _ p
  · cases e; dsimp only; exact virtPrism_frame rfl .refl _ p
  · cases e; dsimp only; exact virtPrism_frame rfl .refl _ p
  · cases e; dsimp only; exact virtPrism_frame rfl .refl _ p
  · cases e; dsimp only; exact State.liveInsert_frame rfl .refl _
  · cases e; dsimp only; exact applyFwdDelete_frame rfl .refl p
  · cases e; dsimp only; exact applyFwdSetVlan_frame rfl .refl p
  · cases e; dsimp only; exact applyFwdSetRoute_frame rfl .refl p
  · cases e; dsimp only; exact applyFwdSetNexthop_frame rfl .refl p
  · cases e; dsimp only; exact applyFwdSetEcmp_frame rfl .refl p
  · cases e; dsimp only; exact applyFwdSetTemplate_frame rfl .refl p
  · cases e; dsimp only; exact applyFwdSetRouter_frame rfl .refl p
  · cases e; dsimp only; exact applyFwdSetLearn_frame rfl .refl p
  · cases e; dsimp only; exact applyFwdSetAging_frame rfl .refl p
  · cases e

theorem ruleMid_frame {op : Nat} {u : BakeRule} (e : ruleMid op = some u) (s : State) (p : List Byte) :
    Frame 
    ({ time := true, ptp := true, tsFifos := true, gates := true, ports := true, prismFlight := true,
       recirc := true, merge := true, fwdCtr := true, cells := true, classes := true, portClass := true,
       wred := true, queues := true, spillVoqs := true, bufCtr := true, pkts := true, nextPkt := true,
       fabParams := true, voqs := true, multiQ := true, pairs := true, fabPorts := true, fabCtr := true,
       nodes := true, egq := true, pol := true, loupeProf := true, loupeQueue := true, loupeItems := true,
       schedCtr := true, evt := true, mirrors := true, cand := true, mirQ := true, mirCtr := true,
       telCtr := true, dropCtr := true, portCtr := true, prismCtr := true, timeCtr := true, shares := true,
       irq := true, out := true, free := true } : Touch) s (u.apply p s) := by
  unfold ruleMid at e
  split at e
  · cases e; dsimp only; exact applyBufSetClass_frame rfl .refl p
  · cases e; dsimp only; exact applyBufSetPortClass_frame rfl .refl p
  · cases e; dsimp only; exact applyBufSetHeadroom_frame rfl .refl p
  · cases e; dsimp only; exact applyBufSetPfcTx_frame rfl .refl p
  · cases e; dsimp only; exact applyBufSetWredProfile_frame rfl .refl p
  · cases e; dsimp only; exact applyBufSetQueue_frame rfl .refl p
  · cases e; dsimp only; exact applyFabSetParams_frame rfl .refl p
  · cases e; dsimp only; exact applyFabSetPort_frame rfl .refl p
  · cases e; dsimp only; exact applySchedSetNode_frame rfl .refl p
  · cases e; dsimp only; exact applyPolSet_frame rfl .refl p
  · cases e; dsimp only; exact applyPolSetPort_frame rfl .refl p
  · cases e; dsimp only; exact applyLoupeSetProfile_frame rfl .refl p
  · cases e; dsimp only; exact applyLoupeSetQueue_frame rfl .refl p
  · cases e; dsimp only; exact applyTimeSetPtp_frame rfl .refl p
  · cases e; dsimp only; exact applyTimeSetPort_frame rfl .refl p
  · cases e; dsimp only; exact applyTimeSetPps_frame rfl .refl p
  · cases e; dsimp only; exact applyGateSetList_frame rfl .refl p
  · cases e

theorem ruleHigh_frame {op : Nat} {u : BakeRule} (e : ruleHigh op = some u) (s : State) (p : List Byte) :
    Frame 
    ({ lanes := true, ports := true, prismFlight := true, hits := true, recirc := true, merge := true,
       gens := true, fwdFlight := true, learnQ := true, fwdCtr := true, cells := true, portClass := true,
       queues := true, spillVoqs := true, bufCtr := true, pkts := true, nextPkt := true, voqs := true,
       multiQ := true, pairs := true, fabPorts := true, links := true, fabCtr := true, nodes := true,
       egq := true, waitTx := true, loupeItems := true, schedCtr := true, frer := true, clusters := true,
       cores := true, flows := true, fix := true, fixCtr := true, pclasses := true, targets := true,
       drops := true, buses := true, notices := true, proofCtr := true, evt := true, mirrors := true,
       cand := true, mirQ := true, mirCtr := true, telCtr := true, dropCtr := true, portCtr := true,
       prismCtr := true, timeCtr := true, pwrCtr := true, shares := true, rate := true, peers := true,
       slices := true, warnC := true, regions := true, healthGen := true, irq := true, out := true,
       free := true } : Touch) s (u.apply p s) := by
  unfold ruleHigh at e
  split at e
  · cases e; dsimp only; exact applyFrerSetStream_frame rfl .refl p
  · cases e; dsimp only; exact applyFrerSetPort_frame rfl .refl p
  · cases e; dsimp only; exact applyFixSetCluster_frame rfl .refl p
  · cases e; dsimp only; exact applyLeavenSetEvents_frame rfl .refl p
  · cases e; dsimp only; exact applyProofSetClass_frame rfl .refl p
  · cases e; dsimp only; exact applyProofSetTarget_frame rfl .refl p
  · cases e; dsimp only; exact applyShelfSet_frame rfl .refl p
  · cases e; dsimp only; exact applyShelfSetBus_frame rfl .refl p
  · cases e; dsimp only; exact applyMemSetRegions_frame rfl .refl p
  · cases e; dsimp only; exact applyDomSetPort_frame rfl .refl p
  · cases e; dsimp only; exact applyDomAdmit_frame rfl .refl p
  · cases e; dsimp only; exact applyTelSetMirror_frame rfl .refl p
  · cases e; dsimp only; exact applyTelSetPortMirror_frame rfl .refl p
  · cases e; dsimp only; exact applyPwrSetDroop_frame rfl .refl p
  · cases e; dsimp only; exact applyPwrSetThermal_frame rfl .refl p
  · cases e; dsimp only; exact State.parkNow_frame rfl .refl _
  · cases e

/-- What a staged command does at the instant keeps what every operation keeps. -/
theorem stageRule_frame {op : Nat} {u : BakeRule} (e : stageRule op = some u) (s : State) (p : List Byte) :
    Frame 
    ({ time := true, ptp := true, tsFifos := true, gates := true, lanes := true, groups := true,
       ports := true, prismBanks := true, prismFlight := true, hits := true, recirc := true, merge := true,
       gens := true, fwdFlight := true, em := true, learnQ := true, agePeriod := true, fwdCtr := true,
       cells := true, classes := true, portClass := true, wred := true, queues := true, spillVoqs := true,
       bufCtr := true, pkts := true, nextPkt := true, fabParams := true, voqs := true, multiQ := true,
       pairs := true, fabPorts := true, links := true, fabCtr := true, nodes := true, egq := true,
       waitTx := true, pol := true, loupeProf := true, loupeQueue := true, loupeItems := true,
       schedCtr := true, frer := true, clusters := true, cores := true, flows := true, fix := true,
       fixCtr := true, pclasses := true, targets := true, drops := true, buses := true, notices := true,
       proofCtr := true, evt := true, mirrors := true, cand := true, mirQ := true, mirCtr := true,
       telCtr := true, dropCtr := true, portCtr := true, prismCtr := true, timeCtr := true, pwrCtr := true,
       shares := true, rate := true, peers := true, slices := true, warnC := true, regions := true,
       healthGen := true, margins := true, irq := true, out := true, free := true } : Touch) s (u.apply p s) := by
  unfold stageRule at e
  split at e
  · exact (ruleLow_frame e s p).wider rfl
  · split at e
    · exact (ruleMid_frame e s p).wider rfl
    · exact (ruleHigh_frame e s p).wider rfl



theorem State.bakeCmd_frame {wt : Touch} {s0 s : State} (hw : 
    ({ time := true, ptp := true, tsFifos := true, gates := true, lanes := true, groups := true,
       ports := true, prismBanks := true, prismFlight := true, hits := true, recirc := true, merge := true,
       gens := true, fwdFlight := true, em := true, learnQ := true, agePeriod := true, fwdCtr := true,
       cells := true, classes := true, portClass := true, wred := true, queues := true, spillVoqs := true,
       bufCtr := true, pkts := true, nextPkt := true, fabParams := true, voqs := true, multiQ := true,
       pairs := true, fabPorts := true, links := true, fabCtr := true, nodes := true, egq := true,
       waitTx := true, pol := true, loupeProf := true, loupeQueue := true, loupeItems := true,
       schedCtr := true, frer := true, clusters := true, cores := true, flows := true, fix := true,
       fixCtr := true, pclasses := true, targets := true, drops := true, buses := true, notices := true,
       proofCtr := true, evt := true, mirrors := true, cand := true, mirQ := true, mirCtr := true,
       telCtr := true, dropCtr := true, portCtr := true, prismCtr := true, timeCtr := true, pwrCtr := true,
       shares := true, rate := true, peers := true, slices := true, warnC := true, regions := true,
       healthGen := true, margins := true, irq := true, out := true, free := true } : Touch).or wt = wt) (h : Frame wt s0 s) (c : StagedCmd) :
    Frame wt s0 (s.bakeCmd c) := by
  refine h.step hw ?_
  unfold State.bakeCmd
  repeat' first
    | ((with_reducible show Touch.or _ _ = _); rfl)
    | with_reducible exact Frame.refl
    | with_reducible apply State.frerRewrite_frame
    | with_reducible apply State.nameFlow_frame
    | split
  next e => exact (stageRule_frame e s c.payload).wider rfl

theorem State.switchAll_frame {wt : Touch} {s0 s : State} (hw : 
    ({ time := true, ptp := true, tsFifos := true, gates := true, lanes := true, groups := true,
       ports := true, prismBanks := true, prismFlight := true, hits := true, recirc := true, merge := true,
       gens := true, fwdFlight := true, em := true, learnQ := true, agePeriod := true, fwdCtr := true,
       cells := true, classes := true, portClass := true, wred := true, queues := true, spillVoqs := true,
       bufCtr := true, pkts := true, nextPkt := true, fabParams := true, voqs := true, multiQ := true,
       pairs := true, fabPorts := true, links := true, fabCtr := true, nodes := true, egq := true,
       waitTx := true, pol := true, loupeProf := true, loupeQueue := true, loupeItems := true,
       schedCtr := true, frer := true, clusters := true, cores := true, flows := true, fix := true,
       fixCtr := true, pclasses := true, targets := true, drops := true, buses := true, notices := true,
       proofCtr := true, evt := true, mirrors := true, cand := true, mirQ := true, mirCtr := true,
       telCtr := true, dropCtr := true, portCtr := true, prismCtr := true, timeCtr := true, pwrCtr := true,
       shares := true, rate := true, snapshot := true, peers := true, slices := true, warnC := true,
       regions := true, healthGen := true, margins := true, irq := true, out := true,
       free := true } : Touch).or wt = wt)
    (hK : Frame wt s0 s) (l : List StagedCmd) : Frame wt s0 (State.switchAll s l) := by
  refine Frame.step hK hw ?_
  unfold State.switchAll
  (try dsimp only)
  repeat' first
    | ((with_reducible show Touch.or _ _ = _) <;> rfl)
    | with_reducible (first | exact Frame.refl | apply State.bakeCmd_frame | apply State.bumpPrism_frame)
    | (with_reducible refine Frame.foldl _ (fun _ _ hF => ?_) _ ?_) | (intro _ hF; skip) | with_reducible assumption
    | (with_reducible refine Frame.ite (fun _ => ?_) (fun _ => ?_)) | split
    | fail_if_no_progress ((with_reducible apply Frame.fields); (case hq => rfl); (case hc => rfl))

end Sys2Proof.Machine
end

