-- ==== Sys2Proof/Laws/FrameBoot.lean ====
section
/-! SUPPORT. What the operations of Boot may change. -/

set_option Elab.async false
set_option linter.all false

namespace Sys2Proof.Machine

/-- What the ROM leaves alone of the identity. -/
def IdSt.kept (i : IdSt) : Nat × Option (List Byte) × Nat × List SpdmSession × List SpdmSession × List SpdmSession × List Nat ×
    Tab Nat × Tab SpdmLog :=
  (i.minSvn, i.pin, i.debug, i.doe0, i.doe1, i.smb, i.spdmNeg, i.spdmVer, i.spdmLog)

theorem IdSt.romBoot_kept (i : IdSt) : i.romBoot.kept = i.kept := by
  unfold IdSt.romBoot
  dsimp only
  split
  · rfl
  · unfold IdSt.run IdSt.writeCfg IdSt.putCfg IdSt.checked
    dsimp only
    repeat' split
    all_goals rfl

theorem Frame.setBoot {wt : Touch} {s0 s : State} {i : IdSt}
    (hw : ({ slots := true, bootCfg := true, image := true } : Touch).or wt = wt)
    (hK : Frame wt s0 s) (h : i.kept = s.ident.kept) : Frame wt s0 { s with ident := i } := by
  refine hK.step hw ?_
  simp only [IdSt.kept, Prod.mk.injEq] at h
  constructor <;> first
    | exact fun h => Bool.noConfusion h
    | exact fun _ => rfl
    | (intro _; (repeat' apply And.intro) <;> first | rfl | tauto)

theorem State.bootEvents_frame {wt : Touch} {s0 s : State} (hw : 
    ({ evt := true, telCtr := true, irq := true, out := true } : Touch).or wt = wt)
    (hK : Frame wt s0 s) : Frame wt s0 (State.bootEvents s) := by
  refine Frame.step hK hw ?_
  unfold State.bootEvents
  (try dsimp only)
  repeat' first
    | ((with_reducible show Touch.or _ _ = _) <;> rfl)
    | with_reducible (first | exact Frame.refl | apply State.raise_frame | apply State.raiseIf_frame) | split

theorem State.consoleLine_frame {wt : Touch} {s0 s : State} (hw : ({ image := true, out := true } : Touch).or wt = wt)
    (hK : Frame wt s0 s) : Frame wt s0 s.consoleLine := by
  refine hK.step hw ?_
  unfold State.consoleLine
  exact State.emit_frame rfl (Frame.fields .refl) _

theorem State.consoleTick_frame {wt : Touch} {s0 s : State} (hw : ({ image := true, out := true } : Touch).or wt = wt)
    (hK : Frame wt s0 s) : Frame wt s0 s.consoleTick := by
  unfold State.consoleTick
  repeat' first
    | exact hK | exact State.consoleLine_frame hw hK | split

theorem State.moarasBoot_frame {wt : Touch} {s0 s : State} (hw :
    ({ evt := true, telCtr := true, life := true, slots := true, bootCfg := true, image := true, irq := true,
       out := true } : Touch).or wt = wt) (hK : Frame wt s0 s) : Frame wt s0 s.moarasBoot := by
  refine hK.step hw ?_
  unfold State.moarasBoot
  have hr := IdSt.romBoot_kept s.ident
  generalize s.ident.romBoot = i at hr ⊢
  dsimp only
  split
  · refine State.bootEvents_frame rfl ?_
    exact (Frame.setBoot (i := i.keepCert s.pwr.variant ((s.mbx.boots + 1) % 2 ^ 32)) rfl Frame.refl hr).trans (.ofView rfl)
  · exact State.consoleLine_frame rfl (Frame.setBoot rfl .refl hr)

end Sys2Proof.Machine
end

