-- ==== Sys2Proof/Laws/FrameBake.lean ====
section
/-! SUPPORT. What the operations of Bake may change. -/

set_option Elab.async false
set_option linter.all false

namespace Sys2Proof.Machine

theorem State.answerSet_frame {wt : Touch} {s0 s : State} (hw : 
    ({ pools := true, bufCtr := true, waitTx := true, evt := true, telCtr := true, portCtr := true,
       mbxCtr := true, boxes := true, jobs := true, hist := true, peers := true, msgs := true, irq := true,
       out := true } : Touch).or wt = wt)
    (hK : Frame wt s0 s) (t : SetSt) (x : Resp) : Frame wt s0 (State.answerSet s t x) := by
  refine Frame.step hK hw ?_
  unfold State.answerSet
  (try dsimp only)
  repeat' first
    | ((with_reducible show Touch.or _ _ = _) <;> rfl)
    | with_reducible (first | exact Frame.refl | apply State.complete_frame) | split

theorem State.reopen_frame {wt : Touch} {s0 s : State} (hw : 
    ({ prismBanks := true, gens := true, em := true, fwdCtr := true, sets := true } : Touch).or wt = wt)
    (hK : Frame wt s0 s) (t : SetSt) : Frame wt s0 (State.reopen s t) := by
  refine Frame.step hK hw ?_
  unfold State.reopen
  (try dsimp only)
  repeat' first
    | ((with_reducible show Touch.or _ _ = _) <;> rfl)
    | with_reducible (first | exact Frame.refl | apply State.unprepare_frame) | (intro _ hF; skip)
    | with_reducible assumption | (with_reducible refine Frame.ite (fun _ => ?_) (fun _ => ?_)) | split
    | fail_if_no_progress ((with_reducible apply Frame.fields); (case hq => rfl); (case hc => rfl))

theorem State.tellFailed_frame {wt : Touch} {s0 s : State} (hw : 
    ({ evt := true, telCtr := true, heldEvents := true, irq := true, out := true } : Touch).or wt = wt)
    (hK : Frame wt s0 s) (id : Nat) (st : Nat) (d : Nat) : Frame wt s0 (State.tellFailed s id st d) := by
  refine Frame.step hK hw ?_
  unfold State.tellFailed
  (try dsimp only)
  repeat' first
    | ((with_reducible show Touch.or _ _ = _) <;> rfl)
    | with_reducible (first | exact Frame.refl | apply State.raiseUp_frame)

theorem State.updDom_frame {wt : Touch} {s0 s : State} (hw : 
    ({ domBake := true } : Touch).or wt = wt)
    (hK : Frame wt s0 s) (f : DomBake → DomBake) : Frame wt s0 (State.updDom s f) :=
  hK.step hw (.ofView rfl)

theorem State.domEnd_frame {wt : Touch} {s0 s : State} (hw : 
    ({ pools := true, bufCtr := true, waitTx := true, evt := true, telCtr := true, portCtr := true,
       mbxCtr := true, boxes := true, jobs := true, hist := true, peers := true, msgs := true,
       domBake := true, irq := true, out := true } : Touch).or wt = wt)
    (hK : Frame wt s0 s) (d : DomBake) (st : Nat) (det : Nat) (epoch : Nat) : Frame wt s0 (State.domEnd s d st det
    epoch) := by
  refine Frame.step hK hw ?_
  unfold State.domEnd
  (try dsimp only)
  repeat' first
    | ((with_reducible show Touch.or _ _ = _) <;> rfl)
    | with_reducible (first | exact Frame.refl | apply State.complete_frame) | split
    | fail_if_no_progress ((with_reducible apply Frame.fields); (case hq => rfl); (case hc => rfl))

theorem State.dropDomSet_frame {wt : Touch} {s0 s : State} (hw : 
    ({ prismBanks := true, gens := true, em := true, fwdCtr := true, evt := true, telCtr := true,
       heldEvents := true, sets := true, irq := true, out := true } : Touch).or wt = wt)
    (hK : Frame wt s0 s) (bakeId : Nat) (st : Nat) (det : Nat) : Frame wt s0 (State.dropDomSet s bakeId st det) := by
  refine Frame.step hK hw ?_
  unfold State.dropDomSet
  (try dsimp only)
  repeat' first
    | ((with_reducible show Touch.or _ _ = _) <;> rfl)
    | with_reducible (first | exact Frame.refl | apply State.reopen_frame | apply State.tellFailed_frame)
    | (with_reducible refine Frame.ite (fun _ => ?_) (fun _ => ?_)) | split

theorem State.domFail_frame {wt : Touch} {s0 s : State} (hw : 
    ({ prismBanks := true, gens := true, em := true, fwdCtr := true, pools := true, bufCtr := true,
       waitTx := true, evt := true, telCtr := true, portCtr := true, mbxCtr := true, boxes := true,
       jobs := true, hist := true, heldEvents := true, sets := true, peers := true, msgs := true,
       domBake := true, irq := true, out := true } : Touch).or wt = wt)
    (hK : Frame wt s0 s) (st : Nat) (det : Nat) : Frame wt s0 (State.domFail s st det) := by
  refine Frame.step hK hw ?_
  unfold State.domFail
  (try dsimp only)
  repeat' first
    | ((with_reducible show Touch.or _ _ = _) <;> rfl)
    | with_reducible (first
        | exact Frame.refl | apply State.domEnd_frame | apply State.domSend_frame | apply State.dropDomSet_frame)
    | (with_reducible refine Frame.foldl _ (fun _ _ hF => ?_) _ ?_)
    | (intro _ hF; skip) | with_reducible assumption
    | (with_reducible refine Frame.ite (fun _ => ?_) (fun _ => ?_)) | split
    | fail_if_no_progress ((with_reducible apply Frame.fields); (case hq => rfl); (case hc => rfl))

theorem State.takeGo_frame {wt : Touch} {s0 s : State} (hw : 
    ({ evt := true, telCtr := true, sets := true, irq := true, out := true } : Touch).or wt = wt)
    (hK : Frame wt s0 s) (t : SetSt) (epoch : Nat) : Frame wt s0 (State.takeGo s t epoch) := by
  refine Frame.step hK hw ?_
  unfold State.takeGo
  (try dsimp only)
  repeat' first
    | ((with_reducible show Touch.or _ _ = _) <;> rfl)
    | with_reducible (first | exact Frame.refl | apply State.raise_frame) | (intro _ hF; skip)
    | with_reducible assumption | (with_reducible refine Frame.ite (fun _ => ?_) (fun _ => ?_)) | split
    | fail_if_no_progress ((with_reducible apply Frame.fields); (case hq => rfl); (case hc => rfl))

theorem State.domDecide_frame {wt : Touch} {s0 s : State} (hw : 
    ({ waitTx := true, evt := true, telCtr := true, portCtr := true, sets := true, peers := true,
       msgs := true, domBake := true, irq := true, out := true } : Touch).or wt = wt)
    (hK : Frame wt s0 s) : Frame wt s0 (State.domDecide s) := by
  refine Frame.step hK hw ?_
  unfold State.domDecide
  (try dsimp only)
  repeat' first
    | ((with_reducible show Touch.or _ _ = _) <;> rfl)
    | with_reducible (first
        | exact Frame.refl | apply State.domSend_frame | apply State.takeGo_frame | apply State.updDom_frame)
    | (with_reducible refine Frame.foldl _ (fun _ _ hF => ?_) _ ?_) | (intro _ hF; skip) | with_reducible assumption
    | split | fail_if_no_progress ((with_reducible apply Frame.fields); (case hq => rfl); (case hc => rfl))

theorem State.domAcked_frame {wt : Touch} {s0 s : State} (hw : 
    ({ waitTx := true, evt := true, telCtr := true, portCtr := true, sets := true, peers := true,
       msgs := true, domBake := true, irq := true, out := true } : Touch).or wt = wt)
    (hK : Frame wt s0 s) : Frame wt s0 (State.domAcked s) := by
  refine Frame.step hK hw ?_
  unfold State.domAcked
  (try dsimp only)
  repeat' first
    | ((with_reducible show Touch.or _ _ = _) <;> rfl)
    | with_reducible (first | exact Frame.refl | apply State.domDecide_frame)
    | (with_reducible refine Frame.ite (fun _ => ?_) (fun _ => ?_)) | split

theorem State.takeCommit_frame {wt : Touch} {s0 s : State} (hw : 
    ({ sets := true } : Touch).or wt = wt)
    (hK : Frame wt s0 s) (bakeId : Nat) (epoch : Nat) : Frame wt s0 (State.takeCommit s bakeId epoch) := by
  refine Frame.step hK hw ?_
  unfold State.takeCommit
  (try dsimp only)
  repeat' first
    | ((with_reducible show Touch.or _ _ = _) <;> rfl) | with_reducible exact Frame.refl | (intro _ hF; skip)
    | with_reducible assumption | split
    | fail_if_no_progress ((with_reducible apply Frame.fields); (case hq => rfl); (case hc => rfl))

theorem State.domCommit_frame {wt : Touch} {s0 s : State} (hw : 
    ({ waitTx := true, evt := true, telCtr := true, portCtr := true, sets := true, peers := true,
       msgs := true, domBake := true, irq := true, out := true } : Touch).or wt = wt)
    (hK : Frame wt s0 s) : Frame wt s0 (State.domCommit s) := by
  refine Frame.step hK hw ?_
  unfold State.domCommit
  (try dsimp only)
  repeat' first
    | ((with_reducible show Touch.or _ _ = _) <;> rfl)
    | with_reducible (first
        | exact Frame.refl | apply State.domAcked_frame | apply State.domSend_frame | apply State.takeCommit_frame
        | apply State.updDom_frame)
    | (with_reducible refine Frame.foldl _ (fun _ _ hF => ?_) _ ?_) | (intro _ hF; skip) | with_reducible assumption
    | split

theorem State.domVote_frame {wt : Touch} {s0 s : State} (hw : 
    ({ prismBanks := true, gens := true, em := true, fwdCtr := true, pools := true, bufCtr := true,
       waitTx := true, evt := true, telCtr := true, portCtr := true, mbxCtr := true, boxes := true,
       jobs := true, hist := true, heldEvents := true, sets := true, peers := true, msgs := true,
       domBake := true, irq := true, out := true } : Touch).or wt = wt)
    (hK : Frame wt s0 s) (i : Nat) (yes : Bool) (st : Nat) (det : Nat) (epoch : Nat) : Frame wt s0 (State.domVote s i
    yes st det epoch) := by
  refine Frame.step hK hw ?_
  unfold State.domVote
  (try dsimp only)
  repeat' first
    | ((with_reducible show Touch.or _ _ = _) <;> rfl)
    | with_reducible (first
        | exact Frame.refl | apply State.domCommit_frame | apply State.domFail_frame | apply State.updDom_frame)
    | (with_reducible refine Frame.foldl _ (fun _ _ hF => ?_) _ ?_)
    | (intro _ hF; skip) | with_reducible assumption
    | (with_reducible refine Frame.ite (fun _ => ?_) (fun _ => ?_)) | split
    | fail_if_no_progress ((with_reducible apply Frame.fields); (case hq => rfl); (case hc => rfl))

theorem State.sendVote_frame {wt : Touch} {s0 s : State} (hw : 
    ({ waitTx := true, portCtr := true, peers := true, msgs := true, out := true } : Touch).or wt = wt)
    (hK : Frame wt s0 s) (bakeId : Nat) (yes : Bool) (st : Nat) (det : Nat) : Frame wt s0 (State.sendVote s bakeId yes
    st det) := by
  refine Frame.step hK hw ?_
  unfold State.sendVote
  (try dsimp only)
  repeat' first
    | ((with_reducible show Touch.or _ _ = _) <;> rfl)
    | with_reducible (first | exact Frame.refl | apply State.domSend_frame)

theorem State.castVote_frame {wt : Touch} {s0 s : State} (hw : 
    ({ prismBanks := true, gens := true, em := true, fwdCtr := true, pools := true, bufCtr := true,
       waitTx := true, evt := true, telCtr := true, portCtr := true, mbxCtr := true, boxes := true,
       jobs := true, hist := true, heldEvents := true, sets := true, peers := true, msgs := true,
       domBake := true, irq := true, out := true } : Touch).or wt = wt)
    (hK : Frame wt s0 s) (bakeId : Nat) (yes : Bool) (st : Nat) (det : Nat) : Frame wt s0 (State.castVote s bakeId yes
    st det) := by
  refine Frame.step hK hw ?_
  unfold State.castVote
  (try dsimp only)
  repeat' first
    | ((with_reducible show Touch.or _ _ = _) <;> rfl)
    | with_reducible (first | exact Frame.refl | apply State.domVote_frame | apply State.sendVote_frame)
    | (with_reducible refine Frame.foldl _ (fun _ _ hF => ?_) _ ?_)
    | (intro _ hF; skip) | with_reducible assumption
    | (with_reducible refine Frame.ite (fun _ => ?_) (fun _ => ?_)) | split
    | fail_if_no_progress ((with_reducible apply Frame.fields); (case hq => rfl); (case hc => rfl))

theorem State.bakeFail_frame {wt : Touch} {s0 s : State} (hw : 
    ({ prismBanks := true, gens := true, em := true, fwdCtr := true, pools := true, bufCtr := true,
       waitTx := true, evt := true, telCtr := true, portCtr := true, mbxCtr := true, boxes := true,
       jobs := true, hist := true, heldEvents := true, sets := true, peers := true, msgs := true,
       domBake := true, irq := true, out := true } : Touch).or wt = wt)
    (hK : Frame wt s0 s) (t : SetSt) (st : Nat) (det : Nat) : Frame wt s0 (State.bakeFail s t st det) := by
  refine Frame.step hK hw ?_
  unfold State.bakeFail
  (try dsimp only)
  repeat' first
    | ((with_reducible show Touch.or _ _ = _) <;> rfl)
    | with_reducible (first
        | exact Frame.refl | apply State.answerSet_frame | apply State.castVote_frame | apply State.reopen_frame
        | apply State.tellFailed_frame)
    | (with_reducible refine Frame.foldl _ (fun _ _ hF => ?_) _ ?_)
    | (intro _ hF; skip) | with_reducible assumption
    | (with_reducible refine Frame.ite (fun _ => ?_) (fun _ => ?_)) | split
    | fail_if_no_progress ((with_reducible apply Frame.fields); (case hq => rfl); (case hc => rfl))

theorem State.startBake_frame {wt : Touch} {s0 s : State} (hw : 
    ({ evt := true, telCtr := true, heldEvents := true, sets := true, irq := true, out := true } : Touch).or wt = wt)
    (hK : Frame wt s0 s) (id : Nat) (f : SetSt → SetSt) : Frame wt s0 (State.startBake s id f).1 := by
  refine Frame.step hK hw ?_
  unfold State.startBake
  (try dsimp only)
  repeat' first
    | ((with_reducible show Touch.or _ _ = _) <;> rfl)
    | with_reducible (first | exact Frame.refl | apply State.tellFailed_frame) | (intro _ hF; skip)
    | with_reducible assumption | (with_reducible refine Frame.ite (fun _ => ?_) (fun _ => ?_)) | split
    | fail_if_no_progress ((with_reducible apply Frame.fields); (case hq => rfl); (case hc => rfl))

theorem State.startBake_fof {wt : Touch} {s0 s u : State} (hw : 
    ({ evt := true, telCtr := true, heldEvents := true, sets := true, irq := true, out := true } : Touch).or wt = wt)
    {id : Nat}  {f : SetSt → SetSt} {o : _} (e : State.startBake s id f = (u, o)) (h : Frame wt s0 s) : Frame wt s0 u
    := by
  have k := State.startBake_frame hw h id f
  rw [e] at k
  exact k

theorem State.arm_frame {wt : Touch} {s0 s : State} (hw : 
    ({ sets := true } : Touch).or wt = wt)
    (hK : Frame wt s0 s) (t : SetSt) : Frame wt s0 (State.arm s t) := by
  refine Frame.step hK hw ?_
  unfold State.arm
  (try dsimp only)
  repeat' first
    | ((with_reducible show Touch.or _ _ = _) <;> rfl) | with_reducible exact Frame.refl | (intro _ hF; skip)
    | with_reducible assumption | (with_reducible refine Frame.ite (fun _ => ?_) (fun _ => ?_)) | split
    | fail_if_no_progress ((with_reducible apply Frame.fields); (case hq => rfl); (case hc => rfl))

theorem State.prepareDone_frame {wt : Touch} {s0 s : State} (hw : 
    ({ prismBanks := true, gens := true, em := true, fwdCtr := true, pools := true, bufCtr := true,
       waitTx := true, flows := true, evt := true, telCtr := true, portCtr := true, mbxCtr := true,
       boxes := true, jobs := true, hist := true, heldEvents := true, sets := true, peers := true,
       msgs := true, domBake := true, irq := true, out := true } : Touch).or wt = wt)
    (hK : Frame wt s0 s) (t : SetSt) : Frame wt s0 (State.prepareDone s t) := by
  refine Frame.step hK hw ?_
  unfold State.prepareDone
  (try dsimp only)
  repeat' first
    | ((with_reducible show Touch.or _ _ = _) <;> rfl)
    | with_reducible (first
        | exact Frame.refl | apply State.arm_frame | apply State.bakeFail_frame | apply State.bumpFwd_frame
        | apply State.castVote_frame)
    | (with_reducible apply State.prepare_frame; (case e => assumption))
    | (with_reducible refine Frame.ite (fun _ => ?_) (fun _ => ?_)) | split

theorem execBakePrepareDone_frame (s : State) : OutFrame 
    ({ prismBanks := true, gens := true, em := true, fwdCtr := true, pools := true, bufCtr := true,
       waitTx := true, flows := true, evt := true, telCtr := true, portCtr := true, mbxCtr := true,
       boxes := true, jobs := true, hist := true, heldEvents := true, sets := true, peers := true,
       msgs := true, domBake := true, irq := true, out := true } : Touch) s (execBakePrepareDone s) := by
  unfold execBakePrepareDone
  (try dsimp only)
  repeat' first
    | with_reducible (first | exact OutFrame.fault _ _ | apply OutFrame.next)
    | ((with_reducible show Touch.or _ _ = _) <;> rfl)
    | with_reducible (first | exact Frame.refl | apply State.prepareDone_frame) | split

theorem execBakeDrainTimeout_frame (s : State) : OutFrame 
    ({ prismBanks := true, gens := true, em := true, fwdCtr := true, pools := true, bufCtr := true,
       waitTx := true, evt := true, telCtr := true, portCtr := true, mbxCtr := true, boxes := true,
       jobs := true, hist := true, heldEvents := true, sets := true, peers := true, msgs := true,
       domBake := true, irq := true, out := true } : Touch) s (execBakeDrainTimeout s) := by
  unfold execBakeDrainTimeout
  (try dsimp only)
  repeat' first
    | with_reducible (first | exact OutFrame.fault _ _ | apply OutFrame.next)
    | ((with_reducible show Touch.or _ _ = _) <;> rfl)
    | with_reducible (first | exact Frame.refl | apply State.bakeFail_frame)
    | (with_reducible refine Frame.ite (fun _ => ?_) (fun _ => ?_)) | split

theorem State.skewCheck_frame {wt : Touch} {s0 s : State} (hw : 
    ({ evt := true, telCtr := true, heldEvents := true, irq := true, out := true } : Touch).or wt = wt)
    (hK : Frame wt s0 s) (t : SetSt) : Frame wt s0 (State.skewCheck s t) := by
  refine Frame.step hK hw ?_
  unfold State.skewCheck
  (try dsimp only)
  repeat' first
    | ((with_reducible show Touch.or _ _ = _) <;> rfl)
    | with_reducible (first | exact Frame.refl | apply State.raiseUpIf_frame)

theorem State.bakeSet_frame {wt : Touch} {s0 s : State} (hw : 
    ({ time := true, ptp := true, tsFifos := true, gates := true, lanes := true, groups := true,
       ports := true, prismBanks := true, prismFlight := true, hits := true, recirc := true, merge := true,
       gens := true, fwdFlight := true, em := true, learnQ := true, agePeriod := true, fwdCtr := true,
       cells := true, classes := true, portClass := true, wred := true, queues := true, spillVoqs := true,
       pools := true, bufCtr := true, pkts := true, nextPkt := true, fabParams := true, voqs := true,
       multiQ := true, pairs := true, fabPorts := true, links := true, fabCtr := true, nodes := true,
       egq := true, waitTx := true, pol := true, loupeProf := true, loupeQueue := true, loupeItems := true,
       schedCtr := true, frer := true, clusters := true, cores := true, flows := true, fix := true,
       fixCtr := true, pclasses := true, targets := true, drops := true, buses := true, notices := true,
       proofCtr := true, evt := true, mirrors := true, cand := true, mirQ := true, mirCtr := true,
       telCtr := true, dropCtr := true, portCtr := true, prismCtr := true, timeCtr := true, mbxCtr := true,
       pwrCtr := true, shares := true, rate := true, boxes := true, jobs := true, hist := true,
       heldEvents := true, sets := true, epoch := true, snapshot := true, heldShadow := true,
       peers := true, msgs := true, slices := true, warnC := true, regions := true, healthGen := true,
       margins := true, irq := true, out := true, free := true } : Touch).or wt =
    wt)
    (hK : Frame wt s0 s) (t : SetSt) : Frame wt s0 (State.bakeSet s t) := by
  refine Frame.step hK hw ?_
  unfold State.bakeSet
  (try dsimp only)
  repeat' first
    | ((with_reducible show Touch.or _ _ = _) <;> rfl)
    | with_reducible (first
        | exact Frame.refl | apply State.answerSet_frame | apply State.raiseUp_frame | apply State.raiseUpIf_frame
        | apply State.skewCheck_frame | apply State.switchAll_frame)
    | (intro _ hF; skip) | with_reducible assumption | (with_reducible refine Frame.ite (fun _ => ?_) (fun _ => ?_))
    | split | fail_if_no_progress ((with_reducible apply Frame.fields); (case hq => rfl); (case hc => rfl))

theorem State.domFinish_frame {wt : Touch} {s0 s : State} (hw : 
    ({ pools := true, bufCtr := true, waitTx := true, evt := true, telCtr := true, portCtr := true,
       mbxCtr := true, boxes := true, jobs := true, hist := true, peers := true, msgs := true,
       domBake := true, irq := true, out := true } : Touch).or wt = wt)
    (hK : Frame wt s0 s) (st : Nat) (det : Nat) : Frame wt s0 (State.domFinish s st det) := by
  refine Frame.step hK hw ?_
  unfold State.domFinish
  (try dsimp only)
  repeat' first
    | ((with_reducible show Touch.or _ _ = _) <;> rfl)
    | with_reducible (first | exact Frame.refl | apply State.domEnd_frame) | (intro _ hF; skip)
    | with_reducible assumption | (with_reducible refine Frame.ite (fun _ => ?_) (fun _ => ?_)) | split

theorem State.regionFail_frame {wt : Touch} {s0 s : State} (hw : 
    ({ prismBanks := true, gens := true, em := true, fwdCtr := true, pools := true, bufCtr := true,
       waitTx := true, evt := true, telCtr := true, portCtr := true, mbxCtr := true, boxes := true,
       jobs := true, hist := true, heldEvents := true, sets := true, peers := true, msgs := true,
       domBake := true, irq := true, out := true } : Touch).or wt = wt)
    (hK : Frame wt s0 s) (t : SetSt) : Frame wt s0 (State.regionFail s t) := by
  refine Frame.step hK hw ?_
  unfold State.regionFail
  (try dsimp only)
  repeat' first
    | ((with_reducible show Touch.or _ _ = _) <;> rfl)
    | with_reducible (first
        | exact Frame.refl | apply State.answerSet_frame | apply State.domFinish_frame | apply State.reopen_frame
        | apply State.tellFailed_frame)
    | (with_reducible refine Frame.foldl _ (fun _ _ hF => ?_) _ ?_)
    | (intro _ hF; skip) | with_reducible assumption
    | (with_reducible refine Frame.ite (fun _ => ?_) (fun _ => ?_)) | split
    | fail_if_no_progress ((with_reducible apply Frame.fields); (case hq => rfl); (case hc => rfl))

theorem State.bakeOwn_frame {wt : Touch} {s0 s : State} (hw :
    ({ time := true, ptp := true, tsFifos := true, gates := true, lanes := true, groups := true,
       ports := true, prismBanks := true, prismFlight := true, hits := true, recirc := true, merge := true,
       gens := true, fwdFlight := true, em := true, learnQ := true, agePeriod := true, fwdCtr := true,
       cells := true, classes := true, portClass := true, wred := true, queues := true, spillVoqs := true,
       pools := true, bufCtr := true, pkts := true, nextPkt := true, fabParams := true, voqs := true,
       multiQ := true, pairs := true, fabPorts := true, links := true, fabCtr := true, nodes := true,
       egq := true, waitTx := true, pol := true, loupeProf := true, loupeQueue := true, loupeItems := true,
       schedCtr := true, frer := true, clusters := true, cores := true, flows := true, fix := true,
       fixCtr := true, pclasses := true, targets := true, drops := true, buses := true, notices := true,
       proofCtr := true, evt := true, mirrors := true, cand := true, mirQ := true, mirCtr := true,
       telCtr := true, dropCtr := true, portCtr := true, prismCtr := true, timeCtr := true, mbxCtr := true,
       pwrCtr := true, shares := true, rate := true, boxes := true, jobs := true, hist := true,
       heldEvents := true, sets := true, epoch := true, snapshot := true, heldShadow := true,
       peers := true, msgs := true, domBake := true, slices := true, warnC := true, regions := true,
       healthGen := true, margins := true, irq := true, out := true, free := true } : Touch).or wt = wt)
    (hK : Frame wt s0 s) (t : SetSt) :
    Frame wt s0 (State.bakeOwn s t) := by
  refine Frame.step hK hw ?_
  unfold State.bakeOwn
  (try dsimp only)
  repeat' first
    | ((with_reducible show Touch.or _ _ = _) <;> rfl)
    | with_reducible (first | exact Frame.refl | apply State.bakeSet_frame | apply State.domFinish_frame)
    | (with_reducible refine Frame.foldl _ (fun _ _ hF => ?_) _ ?_)
    | (intro _ hF; skip) | with_reducible assumption
    | (with_reducible refine Frame.ite (fun _ => ?_) (fun _ => ?_)) | split
    | fail_if_no_progress ((with_reducible apply Frame.fields); (case hq => rfl); (case hc => rfl))

theorem State.instantOf_frame {wt : Touch} {s0 s : State} (hw : 
    ({ time := true, ptp := true, tsFifos := true, gates := true, lanes := true, groups := true,
       ports := true, prismBanks := true, prismFlight := true, hits := true, recirc := true, merge := true,
       gens := true, fwdFlight := true, em := true, learnQ := true, agePeriod := true, fwdCtr := true,
       cells := true, classes := true, portClass := true, wred := true, queues := true, spillVoqs := true,
       pools := true, bufCtr := true, pkts := true, nextPkt := true, fabParams := true, voqs := true,
       multiQ := true, pairs := true, fabPorts := true, links := true, fabCtr := true, nodes := true,
       egq := true, waitTx := true, pol := true, loupeProf := true, loupeQueue := true, loupeItems := true,
       schedCtr := true, frer := true, clusters := true, cores := true, flows := true, fix := true,
       fixCtr := true, pclasses := true, targets := true, drops := true, buses := true, notices := true,
       proofCtr := true, evt := true, mirrors := true, cand := true, mirQ := true, mirCtr := true,
       telCtr := true, dropCtr := true, portCtr := true, prismCtr := true, timeCtr := true, mbxCtr := true,
       pwrCtr := true, shares := true, rate := true, boxes := true, jobs := true, hist := true,
       heldEvents := true, sets := true, epoch := true, snapshot := true, heldShadow := true,
       peers := true, msgs := true, domBake := true, slices := true, warnC := true, regions := true,
       healthGen := true, margins := true, irq := true, out := true, free := true } : Touch).or wt = wt)
    (hK : Frame wt s0 s) (t : SetSt) : Frame wt s0 (State.instantOf s t) := by
  refine Frame.step hK hw ?_
  unfold State.instantOf
  (try dsimp only)
  repeat' first
    | ((with_reducible show Touch.or _ _ = _) <;> rfl)
    | with_reducible (first
        | exact Frame.refl | apply State.bakeSet_frame | apply State.domFinish_frame | apply State.raiseUp_frame
        | apply State.regionFail_frame | apply State.bakeOwn_frame | apply State.skewCheck_frame)
    | (intro _ hF; skip) | with_reducible assumption | (with_reducible refine Frame.ite (fun _ => ?_) (fun _ => ?_))
    | split | fail_if_no_progress ((with_reducible apply Frame.fields); (case hq => rfl); (case hc => rfl))

theorem State.domDue_frame {wt : Touch} {s0 s : State} (hw :
    ({ pools := true, bufCtr := true, waitTx := true, evt := true, telCtr := true, portCtr := true,
       mbxCtr := true, boxes := true, jobs := true, hist := true, peers := true, msgs := true,
       domBake := true, irq := true, out := true } : Touch).or wt = wt)
    (hK : Frame wt s0 s)  :
    Frame wt s0 (State.domDue s) := by
  refine Frame.step hK hw ?_
  unfold State.domDue
  (try dsimp only)
  repeat' first
    | ((with_reducible show Touch.or _ _ = _) <;> rfl)
    | with_reducible (first | exact Frame.refl | apply State.domFinish_frame)
    | (with_reducible refine Frame.foldl _ (fun _ _ hF => ?_) _ ?_)
    | (intro _ hF; skip) | with_reducible assumption
    | (with_reducible refine Frame.ite (fun _ => ?_) (fun _ => ?_)) | split
    | fail_if_no_progress ((with_reducible apply Frame.fields); (case hq => rfl); (case hc => rfl))

theorem State.instant_frame {wt : Touch} {s0 s : State} (hw : 
    ({ time := true, ptp := true, tsFifos := true, gates := true, lanes := true, groups := true,
       ports := true, prismBanks := true, prismFlight := true, hits := true, recirc := true, merge := true,
       gens := true, fwdFlight := true, em := true, learnQ := true, agePeriod := true, fwdCtr := true,
       cells := true, classes := true, portClass := true, wred := true, queues := true, spillVoqs := true,
       pools := true, bufCtr := true, pkts := true, nextPkt := true, fabParams := true, voqs := true,
       multiQ := true, pairs := true, fabPorts := true, links := true, fabCtr := true, nodes := true,
       egq := true, waitTx := true, pol := true, loupeProf := true, loupeQueue := true, loupeItems := true,
       schedCtr := true, frer := true, clusters := true, cores := true, flows := true, fix := true,
       fixCtr := true, pclasses := true, targets := true, drops := true, buses := true, notices := true,
       proofCtr := true, evt := true, mirrors := true, cand := true, mirQ := true, mirCtr := true,
       telCtr := true, dropCtr := true, portCtr := true, prismCtr := true, timeCtr := true, mbxCtr := true,
       pwrCtr := true, shares := true, rate := true, boxes := true, jobs := true, hist := true,
       heldEvents := true, sets := true, epoch := true, snapshot := true, heldShadow := true,
       peers := true, msgs := true, domBake := true, slices := true, warnC := true, regions := true,
       healthGen := true, margins := true, irq := true, out := true, free := true } : Touch).or wt = wt)
    (hK : Frame wt s0 s) : Frame wt s0 (State.instant s) := by
  refine Frame.step hK hw ?_
  unfold State.instant
  (try dsimp only)
  repeat' first
    | ((with_reducible show Touch.or _ _ = _) <;> rfl)
    | with_reducible (first
        | exact Frame.refl | apply State.domFinish_frame | apply State.instantOf_frame | apply State.domDue_frame) | split

theorem execBakeInstant_frame (s : State) : OutFrame 
    ({ time := true, ptp := true, tsFifos := true, gates := true, lanes := true, groups := true,
       ports := true, prismBanks := true, prismFlight := true, hits := true, recirc := true, merge := true,
       gens := true, fwdFlight := true, em := true, learnQ := true, agePeriod := true, fwdCtr := true,
       cells := true, classes := true, portClass := true, wred := true, queues := true, spillVoqs := true,
       pools := true, bufCtr := true, pkts := true, nextPkt := true, fabParams := true, voqs := true,
       multiQ := true, pairs := true, fabPorts := true, links := true, fabCtr := true, nodes := true,
       egq := true, waitTx := true, pol := true, loupeProf := true, loupeQueue := true, loupeItems := true,
       schedCtr := true, frer := true, clusters := true, cores := true, flows := true, fix := true,
       fixCtr := true, pclasses := true, targets := true, drops := true, buses := true, notices := true,
       proofCtr := true, evt := true, mirrors := true, cand := true, mirQ := true, mirCtr := true,
       telCtr := true, dropCtr := true, portCtr := true, prismCtr := true, timeCtr := true, mbxCtr := true,
       pwrCtr := true, shares := true, rate := true, boxes := true, jobs := true, hist := true,
       heldEvents := true, sets := true, epoch := true, snapshot := true, heldShadow := true,
       peers := true, msgs := true, domBake := true, slices := true, warnC := true, regions := true,
       healthGen := true, margins := true, irq := true, out := true, free := true } : Touch) s (execBakeInstant s) := by
  unfold execBakeInstant
  (try dsimp only)
  repeat' first
    | with_reducible (first | exact OutFrame.fault _ _ | apply OutFrame.next)
    | ((with_reducible show Touch.or _ _ = _) <;> rfl)
    | with_reducible (first | exact Frame.refl | apply State.instant_frame)

theorem idle_frame {wt : Touch} {s0 s : State} (hw :
    ({ time := true, up := true, ptp := true, tsFifos := true, gates := true, lanes := true,
       groups := true, ports := true, prismBanks := true, prismFlight := true, hits := true,
       recirc := true, merge := true, gens := true, fwdFlight := true, em := true, learnQ := true,
       agePeriod := true, fwdCtr := true, cells := true, classes := true, portClass := true, wred := true,
       queues := true, spillVoqs := true, pools := true, bufCtr := true, pkts := true, nextPkt := true,
       fabParams := true, voqs := true, multiQ := true, pairs := true, fabPorts := true, links := true,
       fabCtr := true, nodes := true, egq := true, waitTx := true, pol := true, loupeProf := true,
       loupeQueue := true, loupeItems := true, schedCtr := true, frer := true, clusters := true,
       cores := true, flows := true, fix := true, fixCtr := true, pclasses := true, targets := true,
       drops := true, buses := true, notices := true, proofCtr := true, evt := true, mirrors := true,
       cand := true, mirQ := true, mirCtr := true, telCtr := true, dropCtr := true, portCtr := true,
       prismCtr := true, timeCtr := true, mbxCtr := true, pwrCtr := true, shares := true, rate := true,
       boxes := true, jobs := true, hist := true, heldEvents := true, sets := true, epoch := true,
       snapshot := true, heldShadow := true, peers := true, msgs := true, domBake := true, image := true,
       slices := true, warnC := true, regions := true, healthGen := true, margins := true, irq := true,
       out := true, free := true } : Touch).or wt = wt)
    (hK : Frame wt s0 s)  :
    Frame wt s0 (idle s) := by
  refine Frame.step hK hw ?_
  unfold idle
  (try dsimp only)
  repeat' first
    | ((with_reducible show Touch.or _ _ = _) <;> rfl)
    | with_reducible (first
        | exact Frame.refl | apply State.instant_frame | apply State.consoleTick_frame | apply State.oneTick_frame)
    | (with_reducible refine Frame.foldl _ (fun _ _ hF => ?_) _ ?_)
    | (intro _ hF; skip) | with_reducible assumption
    | (with_reducible refine Frame.ite (fun _ => ?_) (fun _ => ?_)) | split
    | fail_if_no_progress ((with_reducible apply Frame.fields); (case hq => rfl); (case hc => rfl))

theorem State.stepPast_frame {wt : Touch} {s0 s : State} (hw : 
    ({ time := true, ptp := true, tsFifos := true, gates := true, lanes := true, groups := true,
       ports := true, prismBanks := true, prismFlight := true, hits := true, recirc := true, merge := true,
       gens := true, fwdFlight := true, em := true, learnQ := true, agePeriod := true, fwdCtr := true,
       cells := true, classes := true, portClass := true, wred := true, queues := true, spillVoqs := true,
       pools := true, bufCtr := true, pkts := true, nextPkt := true, fabParams := true, voqs := true,
       multiQ := true, pairs := true, fabPorts := true, links := true, fabCtr := true, nodes := true,
       egq := true, waitTx := true, pol := true, loupeProf := true, loupeQueue := true, loupeItems := true,
       schedCtr := true, frer := true, clusters := true, cores := true, flows := true, fix := true,
       fixCtr := true, pclasses := true, targets := true, drops := true, buses := true, notices := true,
       proofCtr := true, evt := true, mirrors := true, cand := true, mirQ := true, mirCtr := true,
       telCtr := true, dropCtr := true, portCtr := true, prismCtr := true, timeCtr := true, mbxCtr := true,
       pwrCtr := true, shares := true, rate := true, boxes := true, jobs := true, hist := true,
       heldEvents := true, sets := true, epoch := true, snapshot := true, heldShadow := true,
       peers := true, msgs := true, domBake := true, slices := true, warnC := true, regions := true,
       healthGen := true, margins := true, irq := true, out := true, free := true } : Touch).or wt = wt)
    (hK : Frame wt s0 s) : Frame wt s0 (State.stepPast s) := by
  refine Frame.step hK hw ?_
  unfold State.stepPast
  (try dsimp only)
  repeat' first
    | ((with_reducible show Touch.or _ _ = _) <;> rfl)
    | with_reducible (first
        | exact Frame.refl | apply State.instantOf_frame | apply State.raise_frame | apply State.raiseUp_frame
        | apply State.domDue_frame)
    | (with_reducible refine Frame.ite (fun _ => ?_) (fun _ => ?_)) | split

theorem bakeOpenBody_frame {wt : Touch} {s0 s : State} (hw : 
    ({ sets := true } : Touch).or wt = wt)
    (hK : Frame wt s0 s) (r : Req) : Frame wt s0 (bakeOpenBody r s).1 := by
  refine Frame.step hK hw ?_
  unfold bakeOpenBody
  (try dsimp only)
  repeat' first
    | ((with_reducible show Touch.or _ _ = _) <;> rfl)
    | with_reducible (first | exact Frame.refl | apply errCmd_frame | apply okCmd_frame) | (intro _ hF; skip)
    | with_reducible assumption | (with_reducible refine Frame.ite (fun _ => ?_) (fun _ => ?_)) | split
    | fail_if_no_progress ((with_reducible apply Frame.fields); (case hq => rfl); (case hc => rfl))

theorem bakeCheckBody_frame {wt : Touch} {s0 s : State} (hw : ({} : Touch).or wt = wt)
    (hK : Frame wt s0 s) (r : Req) : Frame wt s0 (bakeCheckBody r s).1 := by
  refine Frame.step hK hw ?_
  unfold bakeCheckBody
  (try dsimp only)
  repeat' first
    | ((with_reducible show Touch.or _ _ = _) <;> rfl)
    | with_reducible (first | exact Frame.refl | apply readCmd_frame) | (intro _ hF; skip)

theorem State.commitSet_frame {wt : Touch} {s0 s : State} (hw : 
    ({ evt := true, telCtr := true, heldEvents := true, sets := true, irq := true, out := true } : Touch).or wt = wt)
    (hK : Frame wt s0 s) (r : Req) (t : SetSt) : Frame wt s0 (State.commitSet s r t).1 := by
  refine Frame.step hK hw ?_
  unfold State.commitSet
  (try dsimp only)
  repeat' first
    | ((with_reducible show Touch.or _ _ = _) <;> rfl)
    | with_reducible (first | exact Frame.refl | apply errCmd_frame | apply State.startBake_frame)
    | (intro _ hF; skip) | with_reducible assumption
    | (with_reducible apply State.startBake_fof; (case e => assumption)) | dsimp only
    | (with_reducible refine Frame.ite (fun _ => ?_) (fun _ => ?_)) | split

theorem State.commitSet_fof {wt : Touch} {s0 s u : State} (hw : 
    ({ evt := true, telCtr := true, heldEvents := true, sets := true, irq := true, out := true } : Touch).or wt = wt)
    {r : Req}  {t : SetSt} {o : _} (e : State.commitSet s r t = (u, o)) (h : Frame wt s0 s) : Frame wt s0 u := by
  have k := State.commitSet_frame hw h r t
  rw [e] at k
  exact k

theorem bakeCommitBody_frame {wt : Touch} {s0 s : State} (hw : 
    ({ evt := true, telCtr := true, heldEvents := true, sets := true, irq := true, out := true } : Touch).or wt = wt)
    (hK : Frame wt s0 s) (r : Req) : Frame wt s0 (bakeCommitBody r s).1 := by
  refine Frame.step hK hw ?_
  unfold bakeCommitBody
  (try dsimp only)
  repeat' first
    | ((with_reducible show Touch.or _ _ = _) <;> rfl)
    | with_reducible (first | exact Frame.refl | apply State.commitSet_frame | apply errCmd_frame)
    | (intro _ hF; skip) | with_reducible assumption
    | (with_reducible apply State.commitSet_fof; (case e => assumption)) | dsimp only | split

theorem State.withdraw_frame {wt : Touch} {s0 s : State} (hw : 
    ({ prismBanks := true, gens := true, em := true, fwdCtr := true, pools := true, bufCtr := true,
       waitTx := true, evt := true, telCtr := true, portCtr := true, mbxCtr := true, boxes := true,
       jobs := true, hist := true, heldEvents := true, sets := true, peers := true, msgs := true,
       domBake := true, irq := true, out := true } : Touch).or wt = wt)
    (hK : Frame wt s0 s) (t : SetSt) : Frame wt s0 (State.withdraw s t) := by
  refine Frame.step hK hw ?_
  unfold State.withdraw
  (try dsimp only)
  repeat' first
    | ((with_reducible show Touch.or _ _ = _) <;> rfl)
    | with_reducible (first
        | exact Frame.refl | apply State.answerSet_frame | apply State.domFail_frame | apply State.reopen_frame)
    | (with_reducible refine Frame.foldl _ (fun _ _ hF => ?_) _ ?_)
    | (intro _ hF; skip) | with_reducible assumption
    | (with_reducible refine Frame.ite (fun _ => ?_) (fun _ => ?_)) | split
    | fail_if_no_progress ((with_reducible apply Frame.fields); (case hq => rfl); (case hc => rfl))

theorem bakeAbortBody_frame {wt : Touch} {s0 s : State} (hw : 
    ({ prismBanks := true, gens := true, em := true, fwdCtr := true, pools := true, bufCtr := true,
       waitTx := true, evt := true, telCtr := true, portCtr := true, mbxCtr := true, boxes := true,
       jobs := true, hist := true, heldEvents := true, sets := true, peers := true, msgs := true,
       domBake := true, irq := true, out := true } : Touch).or wt = wt)
    (hK : Frame wt s0 s) (r : Req) : Frame wt s0 (bakeAbortBody r s).1 := by
  refine Frame.step hK hw ?_
  unfold bakeAbortBody
  (try dsimp only)
  repeat' first
    | ((with_reducible show Touch.or _ _ = _) <;> rfl)
    | with_reducible (first | exact Frame.refl | apply errCmd_frame | apply okCmd_frame | apply State.withdraw_frame)
    | (intro _ hF; skip) | with_reducible assumption | (with_reducible refine Frame.ite (fun _ => ?_) (fun _ => ?_))
    | split | fail_if_no_progress ((with_reducible apply Frame.fields); (case hq => rfl); (case hc => rfl))

theorem bakeGetSetBody_frame {wt : Touch} {s0 s : State} (hw : ({} : Touch).or wt = wt)
    (hK : Frame wt s0 s) (r : Req) : Frame wt s0 (bakeGetSetBody r s).1 := by
  refine Frame.step hK hw ?_
  unfold bakeGetSetBody
  (try dsimp only)
  repeat' first
    | ((with_reducible show Touch.or _ _ = _) <;> rfl)
    | with_reducible (first | exact Frame.refl | apply readCmd_frame) | (intro _ hF; skip)
    | (with_reducible refine Frame.ite (fun _ => ?_) (fun _ => ?_))

theorem execBakeOpen_frame (r : Req) (s : State) : OutFrame 
    ({ pools := true, bufCtr := true, waitTx := true, evt := true, telCtr := true, portCtr := true,
       mbxCtr := true, boxes := true, jobs := true, hist := true, sets := true, peers := true,
       msgs := true, irq := true, out := true } : Touch) s (execBakeOpen r
    s) :=
  mailboxCommand_frame rfl (fun _ => bakeOpenBody_frame rfl .refl r)

theorem execBakeCheck_frame (r : Req) (s : State) : OutFrame 
    ({ pools := true, bufCtr := true, waitTx := true, evt := true, telCtr := true, portCtr := true,
       mbxCtr := true, boxes := true, jobs := true, hist := true, peers := true, msgs := true, irq := true,
       out := true } : Touch) s (execBakeCheck r s) := 
  mailboxCommand_frame rfl (fun _ => bakeCheckBody_frame rfl .refl r)

theorem execBakeCommit_frame (r : Req) (s : State) : OutFrame 
    ({ pools := true, bufCtr := true, waitTx := true, evt := true, telCtr := true, portCtr := true,
       mbxCtr := true, boxes := true, jobs := true, hist := true, heldEvents := true, sets := true,
       peers := true, msgs := true, irq := true, out := true } : Touch) s (execBakeCommit r s) :=
  mailboxCommand_frame rfl (fun _ => bakeCommitBody_frame rfl .refl r)

theorem execBakeAbort_frame (r : Req) (s : State) : OutFrame 
    ({ prismBanks := true, gens := true, em := true, fwdCtr := true, pools := true, bufCtr := true,
       waitTx := true, evt := true, telCtr := true, portCtr := true, mbxCtr := true, boxes := true,
       jobs := true, hist := true, heldEvents := true, sets := true, peers := true, msgs := true,
       domBake := true, irq := true, out := true } : Touch) s (execBakeAbort r s) :=
  mailboxCommand_frame rfl (fun _ => bakeAbortBody_frame rfl .refl r)

theorem execBakeGetSet_frame (r : Req) (s : State) : OutFrame 
    ({ pools := true, bufCtr := true, waitTx := true, evt := true, telCtr := true, portCtr := true,
       mbxCtr := true, boxes := true, jobs := true, hist := true, peers := true, msgs := true, irq := true,
       out := true } : Touch) s (execBakeGetSet r s) := 
  mailboxCommand_frame rfl (fun _ => bakeGetSetBody_frame rfl .refl r)

theorem pwrRestoreBody_frame {wt : Touch} {s0 s : State} (hw : 
    ({ evt := true, telCtr := true, heldEvents := true, sets := true, irq := true, out := true } : Touch).or wt = wt)
    (hK : Frame wt s0 s) (r : Req) : Frame wt s0 (pwrRestoreBody r s).1 := by
  refine Frame.step hK hw ?_
  unfold pwrRestoreBody
  (try dsimp only)
  repeat' first
    | ((with_reducible show Touch.or _ _ = _) <;> rfl)
    | with_reducible (first | exact Frame.refl | apply errCmd_frame | apply State.startBake_frame)
    | (intro _ hF; skip) | with_reducible assumption
    | (with_reducible apply State.startBake_fof; (case e => assumption)) | dsimp only | split
    | fail_if_no_progress ((with_reducible apply Frame.fields); (case hq => rfl); (case hc => rfl))

theorem execPwrRestore_frame (r : Req) (s : State) : OutFrame 
    ({ pools := true, bufCtr := true, waitTx := true, evt := true, telCtr := true, portCtr := true,
       mbxCtr := true, boxes := true, jobs := true, hist := true, heldEvents := true, sets := true,
       peers := true, msgs := true, irq := true, out := true } : Touch) s (execPwrRestore r s) :=
  mailboxCommand_frame rfl (fun _ => pwrRestoreBody_frame rfl .refl r)

end Sys2Proof.Machine
end

