-- ==== Sys2Proof/Laws/FrameDomain.lean ====
section
/-! SUPPORT. What the operations of Domain may change. -/

set_option Elab.async false
set_option linter.all false

namespace Sys2Proof.Machine

theorem State.authFail_frame {wt : Touch} {s0 s : State} (hw : 
    ({ evt := true, telCtr := true, rate := true, authFails := true, irq := true, out := true } : Touch).or wt = wt)
    (hK : Frame wt s0 s) (m : DomIn) : Frame wt s0 (State.authFail s m) := by
  refine Frame.step hK hw ?_
  unfold State.authFail
  (try dsimp only)
  repeat' first
    | ((with_reducible show Touch.or _ _ = _) <;> rfl)
    | with_reducible (first | exact Frame.refl | apply State.raiseLimited_frame) | split
    | fail_if_no_progress ((with_reducible apply Frame.fields); (case hq => rfl); (case hc => rfl))

theorem State.confirm_frame {wt : Touch} {s0 s : State} (hw : 
    ({ waitTx := true, portCtr := true, peers := true, msgs := true, out := true } : Touch).or wt = wt)
    (hK : Frame wt s0 s) (type : Nat) (m : DomIn) : Frame wt s0 (State.confirm s type m) := by
  refine Frame.step hK hw ?_
  unfold State.confirm
  (try dsimp only)
  repeat' first
    | ((with_reducible show Touch.or _ _ = _) <;> rfl)
    | with_reducible (first | exact Frame.refl | apply State.domSend_frame)
    | (with_reducible refine Frame.ite (fun _ => ?_) (fun _ => ?_))

theorem State.domTake_frame {wt : Touch} {s0 s : State} (hw :
    ({ waitTx := true, portCtr := true, peers := true, msgs := true, out := true } : Touch).or wt = wt)
    (hK : Frame wt s0 s) (type : Nat) (m : DomIn) :
    Frame wt s0 (State.domTake s type m) := by
  refine Frame.step hK hw ?_
  unfold State.domTake
  (try dsimp only)
  repeat' first
    | ((with_reducible show Touch.or _ _ = _) <;> rfl)
    | with_reducible (first | exact Frame.refl | apply State.updPeer_frame | apply State.confirm_frame)
    | (with_reducible refine Frame.foldl _ (fun _ _ hF => ?_) _ ?_)
    | (intro _ hF; skip) | with_reducible assumption
    | (with_reducible refine Frame.ite (fun _ => ?_) (fun _ => ?_)) | split
    | fail_if_no_progress ((with_reducible apply Frame.fields); (case hq => rfl); (case hc => rfl))

theorem State.domAct_frame {wt : Touch} {s0 s : State} (hw :
    ({ waitTx := true, evt := true, telCtr := true, portCtr := true, rate := true, peers := true,
       msgs := true, authFails := true, irq := true, out := true } : Touch).or wt = wt)
    (hK : Frame wt s0 s) (type : Nat) (m : DomIn) (act : State → State) (hact : ∀ x, Frame wt s0 x → Frame wt s0 (act x)) :
    Frame wt s0 (State.domAct s type m act) := by
  unfold State.domAct
  (try dsimp only)
  repeat' first
    | ((with_reducible show Touch.or _ _ = _); first | rfl | exact Touch.le_trans rfl hw)
    | with_reducible (first
        | exact hK | apply State.authFail_frame | apply State.domTake_frame | apply hact)
    | (with_reducible refine Frame.ite (fun _ => ?_) (fun _ => ?_)) | split

theorem State.domRx_frame {wt : Touch} {s0 s : State} (hw :
    ({ fwdCtr := true, bufCtr := true, pkts := true, nextPkt := true, fabCtr := true, schedCtr := true,
       mirrors := true, cand := true, mirQ := true, mirCtr := true, telCtr := true, dropCtr := true,
       portCtr := true, prismCtr := true, timeCtr := true, shares := true, free := true } : Touch).or wt = wt)
    (hK : Frame wt s0 s) (m : DomIn) (act : State → State) (hact : ∀ x, Frame wt s0 x → Frame wt s0 (act x)) :
    Frame wt s0 (State.domRx s m act) := by
  unfold State.domRx
  split
  · exact hK
  · split
    · exact State.ctlRx_frame (Touch.le_trans rfl hw) hK _ _ _ _ (fun _ h => h)
    · exact hact _ (State.bumpPort_frame (Touch.le_trans rfl hw) (State.bumpPort_frame (Touch.le_trans rfl hw) hK _ _ _) _ _ _)

theorem State.domIn_frame {wt : Touch} {s0 s : State} (hw : 
    ({ fwdCtr := true, bufCtr := true, pkts := true, nextPkt := true, fabCtr := true, waitTx := true,
       schedCtr := true, evt := true, mirrors := true, cand := true, mirQ := true, mirCtr := true,
       telCtr := true, dropCtr := true, portCtr := true, prismCtr := true, timeCtr := true, shares := true,
       rate := true, peers := true, msgs := true, authFails := true, irq := true, out := true,
       free := true } : Touch).or wt = wt)
    (hK : Frame wt s0 s) (type : Nat) (m : DomIn) (act : State → State) (hact : ∀ x, Frame wt s0 x → Frame wt s0 (act
    x)) : Frame wt s0 (State.domIn s type m act) := by
  unfold State.domIn
  refine State.domRx_frame (Touch.le_trans rfl hw) hK m _ (fun x hx => ?_)
  split
  · exact State.domAct_frame (Touch.le_trans rfl hw) hx type m act hact
  · exact hx

theorem State.atManager_frame {wt : Touch} {s0 s t : State} (_ : ({} : Touch).or wt = wt) (h : Frame wt s0 s) (k : Frame wt s0 t) :
    Frame wt s0 (s.atManager t) := by
  unfold State.atManager; split <;> assumption

theorem State.atWorker_frame {wt : Touch} {s0 s t : State} (_ : ({} : Touch).or wt = wt) (h : Frame wt s0 s) (k : Frame wt s0 t) :
    Frame wt s0 (s.atWorker t) := by
  unfold State.atWorker; split <;> assumption

theorem State.mismatch_frame {wt : Touch} {s0 s : State} (hw : 
    ({ evt := true, telCtr := true, irq := true, out := true } : Touch).or wt = wt)
    (hK : Frame wt s0 s) (i : Nat) (a : Nat) (b : Nat) : Frame wt s0 (State.mismatch s i a b) := by
  refine Frame.step hK hw ?_
  unfold State.mismatch
  (try dsimp only)
  repeat' first
    | ((with_reducible show Touch.or _ _ = _) <;> rfl)
    | with_reducible (first | exact Frame.refl | apply State.raiseIf_frame)

theorem State.beatPeer_frame {wt : Touch} {s0 s : State} (hw : 
    ({ waitTx := true, evt := true, telCtr := true, portCtr := true, peers := true, msgs := true,
       irq := true, out := true } : Touch).or wt = wt)
    (hK : Frame wt s0 s) (i : Nat) : Frame wt s0 (State.beatPeer s i) := by
  refine Frame.step hK hw ?_
  unfold State.beatPeer
  (try dsimp only)
  repeat' first
    | ((with_reducible show Touch.or _ _ = _) <;> rfl)
    | with_reducible (first
        | exact Frame.refl | apply State.domSend_frame | apply State.raiseIf_frame | apply State.updPeer_frame)
    | (intro _ hF; skip) | (with_reducible refine Frame.ite (fun _ => ?_) (fun _ => ?_))

theorem execHeartbeatTick_frame (s : State) : OutFrame 
    ({ waitTx := true, evt := true, telCtr := true, portCtr := true, peers := true, msgs := true,
       irq := true, out := true } : Touch) s
    (execHeartbeatTick s) := by
  unfold execHeartbeatTick
  (try dsimp only)
  repeat' first
    | with_reducible (first | exact OutFrame.fault _ _ | apply OutFrame.next)
    | ((with_reducible show Touch.or _ _ = _) <;> rfl)
    | with_reducible (first | exact Frame.refl | apply State.beatPeer_frame)
    | (with_reducible refine Frame.foldl _ (fun _ _ hF => ?_) _ ?_) | (intro _ hF; skip) | with_reducible assumption
    | (with_reducible refine Frame.ite (fun _ => ?_) (fun _ => ?_))

theorem State.gotBeat_frame {wt : Touch} {s0 s : State} (hw : 
    ({ waitTx := true, evt := true, telCtr := true, portCtr := true, peers := true, msgs := true,
       membership := true, irq := true, out := true } : Touch).or wt = wt)
    (hK : Frame wt s0 s) (m : DomIn) : Frame wt s0 (State.gotBeat s m) := by
  refine Frame.step hK hw ?_
  unfold State.gotBeat
  (try dsimp only)
  repeat' first
    | ((with_reducible show Touch.or _ _ = _) <;> rfl)
    | with_reducible (first
        | exact Frame.refl | apply State.domSend_frame | apply State.mismatch_frame | apply State.raise_frame
        | apply State.updPeer_frame | apply State.drawn_frame)
    | (with_reducible refine Frame.foldl _ (fun _ _ hF => ?_) _ ?_)
    | (intro _ hF; skip) | with_reducible assumption
    | (with_reducible refine Frame.ite (fun _ => ?_) (fun _ => ?_)) | split
    | fail_if_no_progress ((with_reducible apply Frame.fields); (case hq => rfl); (case hc => rfl))

theorem execHeartbeat_frame (m : DomIn) (s : State) : OutFrame 
    ({ fwdCtr := true, bufCtr := true, pkts := true, nextPkt := true, fabCtr := true, waitTx := true,
       schedCtr := true, evt := true, mirrors := true, cand := true, mirQ := true, mirCtr := true,
       telCtr := true, dropCtr := true, portCtr := true, prismCtr := true, timeCtr := true, shares := true,
       rate := true, peers := true, msgs := true, membership := true, authFails := true, irq := true,
       out := true, free := true } : Touch) s (execHeartbeat m s) := by
  unfold execHeartbeat
  (try dsimp only [domRow])
  repeat' first
    | with_reducible (first | exact OutFrame.fault _ _ | apply OutFrame.next)
    | ((with_reducible show Touch.or _ _ = _) <;> rfl)
    | with_reducible (first
        | exact Frame.refl | apply State.atWorker_frame | apply State.domIn_frame | apply State.gotBeat_frame)
    | (intro _ hF; skip) | with_reducible assumption | split

theorem State.gotAck_frame {wt : Touch} {s0 s : State} (hw : 
    ({ evt := true, telCtr := true, peers := true, irq := true, out := true } : Touch).or wt = wt)
    (hK : Frame wt s0 s) (m : DomIn) : Frame wt s0 (State.gotAck s m) := by
  refine Frame.step hK hw ?_
  unfold State.gotAck
  (try dsimp only)
  repeat' first
    | ((with_reducible show Touch.or _ _ = _) <;> rfl)
    | with_reducible (first
        | exact Frame.refl | apply State.mismatch_frame | apply State.raise_frame | apply State.updPeer_frame
        | apply State.raiseIf_frame)
    | (intro _ hF; skip) | with_reducible assumption | (with_reducible refine Frame.ite (fun _ => ?_) (fun _ => ?_))

theorem execHeartbeatAck_frame (m : DomIn) (s : State) : OutFrame 
    ({ fwdCtr := true, bufCtr := true, pkts := true, nextPkt := true, fabCtr := true, waitTx := true,
       schedCtr := true, evt := true, mirrors := true, cand := true, mirQ := true, mirCtr := true,
       telCtr := true, dropCtr := true, portCtr := true, prismCtr := true, timeCtr := true, shares := true,
       rate := true, peers := true, msgs := true, authFails := true, irq := true, out := true,
       free := true } : Touch) s (execHeartbeatAck m s) := by
  unfold execHeartbeatAck
  (try dsimp only [domRow])
  repeat' first
    | with_reducible (first | exact OutFrame.fault _ _ | apply OutFrame.next)
    | ((with_reducible show Touch.or _ _ = _) <;> rfl)
    | with_reducible (first
        | exact Frame.refl | apply State.atManager_frame | apply State.domIn_frame | apply State.gotAck_frame)
    | (intro _ hF; skip) | with_reducible assumption | split

theorem State.freeSet_frame {wt : Touch} {s0 s : State} (hw :
    ({ prismBanks := true, gens := true, em := true, fwdCtr := true, pools := true, bufCtr := true,
       waitTx := true, evt := true, telCtr := true, portCtr := true, mbxCtr := true, boxes := true,
       jobs := true, hist := true, sets := true, peers := true, msgs := true, irq := true,
       out := true } : Touch).or wt = wt)
    (hK : Frame wt s0 s)  :
    Frame wt s0 (State.freeSet s) := by
  refine Frame.step hK hw ?_
  unfold State.freeSet
  (try dsimp only)
  repeat' first
    | ((with_reducible show Touch.or _ _ = _) <;> rfl)
    | with_reducible (first | exact Frame.refl | apply State.answerSet_frame | apply State.reopen_frame)
    | (with_reducible refine Frame.foldl _ (fun _ _ hF => ?_) _ ?_)
    | (intro _ hF; skip) | with_reducible assumption
    | (with_reducible refine Frame.ite (fun _ => ?_) (fun _ => ?_)) | split
    | fail_if_no_progress ((with_reducible apply Frame.fields); (case hq => rfl); (case hc => rfl))

theorem State.freeDomSet_frame {wt : Touch} {s0 s : State} (hw : 
    ({ prismBanks := true, gens := true, em := true, fwdCtr := true, pools := true, bufCtr := true,
       waitTx := true, evt := true, telCtr := true, portCtr := true, mbxCtr := true, boxes := true,
       jobs := true, hist := true, sets := true, peers := true, msgs := true, irq := true,
       out := true } : Touch).or wt = wt)
    (hK : Frame wt s0 s) : Frame wt s0 (State.freeDomSet s) := by
  refine Frame.step hK hw ?_
  unfold State.freeDomSet
  (try dsimp only)
  repeat' first
    | ((with_reducible show Touch.or _ _ = _) <;> rfl)
    | with_reducible (first | exact Frame.refl | apply State.reopen_frame | apply State.freeSet_frame) | (intro _ hF; skip)
    | with_reducible assumption | (with_reducible refine Frame.ite (fun _ => ?_) (fun _ => ?_)) | split

theorem State.freeze_frame {wt : Touch} {s0 s : State} (hw : 
    ({ prismBanks := true, gens := true, em := true, fwdCtr := true, pools := true, bufCtr := true,
       waitTx := true, evt := true, telCtr := true, portCtr := true, mbxCtr := true, boxes := true,
       jobs := true, hist := true, sets := true, peers := true, msgs := true, membership := true,
       irq := true, out := true } : Touch).or wt = wt)
    (hK : Frame wt s0 s) : Frame wt s0 (State.freeze s) := by
  refine Frame.step hK hw ?_
  unfold State.freeze
  (try dsimp only)
  repeat' first
    | ((with_reducible show Touch.or _ _ = _) <;> rfl)
    | with_reducible (first
        | exact Frame.refl | apply State.freeDomSet_frame | apply State.raise_frame | apply State.updPeer_frame
        | apply State.freeSet_frame)
    | (intro _ hF; skip) | with_reducible assumption | split
    | fail_if_no_progress ((with_reducible apply Frame.fields); (case hq => rfl); (case hc => rfl))

theorem execManagerLossTimeout_frame (s : State) : OutFrame 
    ({ prismBanks := true, gens := true, em := true, fwdCtr := true, pools := true, bufCtr := true,
       waitTx := true, evt := true, telCtr := true, portCtr := true, mbxCtr := true, boxes := true,
       jobs := true, hist := true, sets := true, peers := true, msgs := true, membership := true,
       irq := true, out := true } : Touch) s (execManagerLossTimeout s) := by
  unfold execManagerLossTimeout
  (try dsimp only)
  repeat' first
    | with_reducible (first | exact OutFrame.fault _ _ | apply OutFrame.next)
    | ((with_reducible show Touch.or _ _ = _) <;> rfl)
    | with_reducible (first | exact Frame.refl | apply State.freeze_frame)
    | (with_reducible refine Frame.ite (fun _ => ?_) (fun _ => ?_))

theorem State.parted_frame {wt : Touch} {s0 s : State} (hw :
    ({ peers := true } : Touch).or wt = wt)
    (hK : Frame wt s0 s) (i : Nat) :
    Frame wt s0 (State.parted s i) := by
  refine Frame.step hK hw ?_
  unfold State.parted
  (try dsimp only)
  repeat' first
    | ((with_reducible show Touch.or _ _ = _) <;> rfl)
    | with_reducible (first | exact Frame.refl | apply State.updPeer_frame)
    | (with_reducible refine Frame.foldl _ (fun _ _ hF => ?_) _ ?_)
    | (intro _ hF; skip) | with_reducible assumption
    | (with_reducible refine Frame.ite (fun _ => ?_) (fun _ => ?_)) | split
    | fail_if_no_progress ((with_reducible apply Frame.fields); (case hq => rfl); (case hc => rfl))

theorem State.gotReceived_frame {wt : Touch} {s0 s : State} (hw :
    ({ peers := true, msgs := true } : Touch).or wt = wt)
    (hK : Frame wt s0 s) (m : DomIn) :
    Frame wt s0 (State.gotReceived s m) := by
  refine Frame.step hK hw ?_
  unfold State.gotReceived
  (try dsimp only)
  repeat' first
    | ((with_reducible show Touch.or _ _ = _) <;> rfl)
    | with_reducible (first | exact Frame.refl | apply State.parted_frame)
    | (with_reducible refine Frame.foldl _ (fun _ _ hF => ?_) _ ?_)
    | (intro _ hF; skip) | with_reducible assumption
    | (with_reducible refine Frame.ite (fun _ => ?_) (fun _ => ?_)) | split
    | fail_if_no_progress ((with_reducible apply Frame.fields); (case hq => rfl); (case hc => rfl))

theorem State.clearReceived_frame {wt : Touch} {s0 s : State} (hw :
    ({ msgs := true } : Touch).or wt = wt)
    (hK : Frame wt s0 s) (m : DomIn) :
    Frame wt s0 (State.clearReceived s m) := by
  refine Frame.step hK hw ?_
  unfold State.clearReceived
  (try dsimp only)
  repeat' first
    | ((with_reducible show Touch.or _ _ = _) <;> rfl)
    | with_reducible exact Frame.refl
    | (with_reducible refine Frame.foldl _ (fun _ _ hF => ?_) _ ?_)
    | (intro _ hF; skip) | with_reducible assumption
    | (with_reducible refine Frame.ite (fun _ => ?_) (fun _ => ?_)) | split
    | fail_if_no_progress ((with_reducible apply Frame.fields); (case hq => rfl); (case hc => rfl))

theorem execReceived_frame (m : DomIn) (s : State) : OutFrame 
    ({ fwdCtr := true, bufCtr := true, pkts := true, nextPkt := true, fabCtr := true, waitTx := true,
       schedCtr := true, evt := true, mirrors := true, cand := true, mirQ := true, mirCtr := true,
       telCtr := true, dropCtr := true, portCtr := true, prismCtr := true, timeCtr := true, shares := true,
       rate := true, peers := true, msgs := true, authFails := true, irq := true, out := true,
       free := true } : Touch) s (execReceived m s) := by
  unfold execReceived
  (try dsimp only [domRow])
  repeat' first
    | with_reducible (first | exact OutFrame.fault _ _ | apply OutFrame.next)
    | ((with_reducible show Touch.or _ _ = _) <;> rfl)
    | with_reducible (first
        | exact Frame.refl | apply State.domIn_frame | apply State.gotReceived_frame
        | apply State.clearReceived_frame | apply State.domAct_frame | apply State.domRx_frame)
    | (intro _ hF; skip) | with_reducible assumption | split

theorem State.fwdAnswer_frame {wt : Touch} {s0 s : State} (hw :
    ({ pools := true, bufCtr := true, waitTx := true, evt := true, telCtr := true, portCtr := true,
       mbxCtr := true, boxes := true, jobs := true, hist := true, peers := true, msgs := true,
       fwdReqs := true, irq := true, out := true } : Touch).or wt = wt)
    (hK : Frame wt s0 s) (peer : Nat) (mine : Req → Bool) (x : Resp) :
    Frame wt s0 (State.fwdAnswer s peer mine x) := by
  refine Frame.step hK hw ?_
  unfold State.fwdAnswer
  (try dsimp only)
  repeat' first
    | ((with_reducible show Touch.or _ _ = _) <;> rfl)
    | with_reducible (first | exact Frame.refl | apply State.complete_frame)
    | (with_reducible refine Frame.foldl _ (fun _ _ hF => ?_) _ ?_)
    | (intro _ hF; skip) | with_reducible assumption
    | (with_reducible refine Frame.ite (fun _ => ?_) (fun _ => ?_)) | split
    | fail_if_no_progress ((with_reducible apply Frame.fields); (case hq => rfl); (case hc => rfl))

theorem State.msgFailed_frame {wt : Touch} {s0 s : State} (hw : 
    ({ pools := true, bufCtr := true, waitTx := true, evt := true, telCtr := true, portCtr := true,
       mbxCtr := true, boxes := true, jobs := true, hist := true, peers := true, msgs := true,
       membership := true, fwdReqs := true, irq := true, out := true } : Touch).or wt = wt)
    (hK : Frame wt s0 s) (x : DomMsg) : Frame wt s0 (State.msgFailed s x) := by
  refine Frame.step hK hw ?_
  unfold State.msgFailed
  (try dsimp only)
  repeat' first
    | ((with_reducible show Touch.or _ _ = _) <;> rfl)
    | with_reducible (first | exact Frame.refl | apply State.fwdAnswer_frame | apply State.parted_frame) | (intro _ hF; skip)
    | with_reducible assumption | (with_reducible refine Frame.ite (fun _ => ?_) (fun _ => ?_)) | split
    | fail_if_no_progress ((with_reducible apply Frame.fields); (case hq => rfl); (case hc => rfl))

theorem State.putAgain_frame {wt : Touch} {s0 s : State} (hw :
    ({ waitTx := true, portCtr := true, peers := true, out := true } : Touch).or wt = wt)
    (hK : Frame wt s0 s) (x : DomMsg) :
    Frame wt s0 (State.putAgain s x) := by
  refine Frame.step hK hw ?_
  unfold State.putAgain
  (try dsimp only)
  repeat' first
    | ((with_reducible show Touch.or _ _ = _) <;> rfl)
    | with_reducible (first | exact Frame.refl | apply State.clearPut_frame | apply State.domPut_frame)
    | (with_reducible refine Frame.foldl _ (fun _ _ hF => ?_) _ ?_)
    | (intro _ hF; skip) | with_reducible assumption
    | (with_reducible refine Frame.ite (fun _ => ?_) (fun _ => ?_)) | split
    | fail_if_no_progress ((with_reducible apply Frame.fields); (case hq => rfl); (case hc => rfl))

theorem State.resendMsg_frame {wt : Touch} {s0 s : State} (hw : 
    ({ pools := true, bufCtr := true, waitTx := true, evt := true, telCtr := true, portCtr := true,
       mbxCtr := true, boxes := true, jobs := true, hist := true, peers := true, msgs := true,
       membership := true, fwdReqs := true, irq := true, out := true } : Touch).or wt = wt)
    (hK : Frame wt s0 s) (peer : Nat) (id : Nat) : Frame wt s0 (State.resendMsg s peer id) := by
  refine Frame.step hK hw ?_
  unfold State.resendMsg
  (try dsimp only)
  repeat' first
    | ((with_reducible show Touch.or _ _ = _) <;> rfl)
    | with_reducible (first
        | exact Frame.refl | apply State.domPut_frame | apply State.msgFailed_frame | apply State.putAgain_frame)
    | (intro _ hF; skip) | with_reducible assumption | (with_reducible refine Frame.ite (fun _ => ?_) (fun _ => ?_))
    | split | fail_if_no_progress ((with_reducible apply Frame.fields); (case hq => rfl); (case hc => rfl))

theorem execDomainResendTimeout_frame (peer : Nat) (id : Nat) (s : State) : OutFrame 
    ({ pools := true, bufCtr := true, waitTx := true, evt := true, telCtr := true, portCtr := true,
       mbxCtr := true, boxes := true, jobs := true, hist := true, peers := true, msgs := true,
       membership := true, fwdReqs := true, irq := true, out := true } : Touch) s
    (execDomainResendTimeout peer id s) := by
  unfold execDomainResendTimeout
  (try dsimp only)
  repeat' first
    | with_reducible (first | exact OutFrame.fault _ _ | apply OutFrame.next)
    | ((with_reducible show Touch.or _ _ = _) <;> rfl)
    | with_reducible (first | exact Frame.refl | apply State.resendMsg_frame)
    | (with_reducible refine Frame.ite (fun _ => ?_) (fun _ => ?_)) | split

theorem State.fwdNote_frame {wt : Touch} {s0 s : State} (hw :
    ({ peers := true } : Touch).or wt = wt)
    (hK : Frame wt s0 s) (m : DomIn) :
    Frame wt s0 (State.fwdNote s m) := by
  refine Frame.step hK hw ?_
  unfold State.fwdNote
  (try dsimp only)
  repeat' first
    | ((with_reducible show Touch.or _ _ = _) <;> rfl)
    | with_reducible (first | exact Frame.refl | apply State.updPeer_frame)
    | (with_reducible refine Frame.foldl _ (fun _ _ hF => ?_) _ ?_)
    | (intro _ hF; skip) | with_reducible assumption
    | (with_reducible refine Frame.ite (fun _ => ?_) (fun _ => ?_)) | split
    | fail_if_no_progress ((with_reducible apply Frame.fields); (case hq => rfl); (case hc => rfl))

theorem execForwardRsp_frame (m : DomIn) (s : State) : OutFrame 
    ({ fwdCtr := true, pools := true, bufCtr := true, pkts := true, nextPkt := true, fabCtr := true,
       waitTx := true, schedCtr := true, evt := true, mirrors := true, cand := true, mirQ := true,
       mirCtr := true, telCtr := true, dropCtr := true, portCtr := true, prismCtr := true, timeCtr := true,
       mbxCtr := true, shares := true, rate := true, boxes := true, jobs := true, hist := true,
       peers := true, msgs := true, authFails := true, fwdReqs := true, irq := true, out := true,
       free := true } : Touch) s (execForwardRsp m s) := by
  unfold execForwardRsp
  (try dsimp only [domRow])
  repeat' first
    | with_reducible (first | exact OutFrame.fault _ _ | apply OutFrame.next)
    | ((with_reducible show Touch.or _ _ = _) <;> rfl)
    | with_reducible (first
        | exact Frame.refl | apply State.atManager_frame | apply State.domIn_frame | apply State.fwdAnswer_frame
        | apply State.fwdNote_frame)
    | (intro _ hF; skip) | with_reducible assumption | split

theorem domForwardBody_frame {wt : Touch} {s0 s : State} (hw : 
    ({ waitTx := true, portCtr := true, peers := true, msgs := true, fwdReqs := true, out := true } : Touch).or wt = wt)
    (hK : Frame wt s0 s) (r : Req) : Frame wt s0 (domForwardBody r s).1 := by
  refine Frame.step hK hw ?_
  unfold domForwardBody
  (try dsimp only)
  repeat' first
    | ((with_reducible show Touch.or _ _ = _) <;> rfl)
    | with_reducible (first | exact Frame.refl | apply State.domSend_frame | apply errCmd_frame) | (intro _ hF; skip)
    | with_reducible assumption | (with_reducible refine Frame.ite (fun _ => ?_) (fun _ => ?_)) | split
    | fail_if_no_progress ((with_reducible apply Frame.fields); (case hq => rfl); (case hc => rfl))

theorem State.gotPrepare_frame {wt : Touch} {s0 s : State} (hw : 
    ({ waitTx := true, evt := true, telCtr := true, portCtr := true, heldEvents := true, sets := true,
       peers := true, msgs := true, irq := true, out := true, free := true } : Touch).or wt = wt)
    (hK : Frame wt s0 s) (m : DomIn) : Frame wt s0 (State.gotPrepare s m) := by
  refine Frame.step hK hw ?_
  unfold State.gotPrepare
  (try dsimp only)
  repeat' first
    | ((with_reducible show Touch.or _ _ = _) <;> rfl)
    | with_reducible (first
        | exact Frame.refl | apply State.drawn_frame | apply State.sendVote_frame | apply State.startBake_frame)
    | (intro _ hF; skip) | with_reducible assumption
    | (with_reducible apply State.startBake_fof; (case e => assumption)) | dsimp only | split

theorem execPrepare_frame (m : DomIn) (s : State) : OutFrame 
    ({ fwdCtr := true, bufCtr := true, pkts := true, nextPkt := true, fabCtr := true, waitTx := true,
       schedCtr := true, evt := true, mirrors := true, cand := true, mirQ := true, mirCtr := true,
       telCtr := true, dropCtr := true, portCtr := true, prismCtr := true, timeCtr := true, shares := true,
       rate := true, heldEvents := true, sets := true, peers := true, msgs := true, authFails := true,
       irq := true, out := true, free := true } : Touch)
    s (execPrepare m s) := by
  unfold execPrepare
  (try dsimp only [domRow])
  repeat' first
    | with_reducible (first | exact OutFrame.fault _ _ | apply OutFrame.next)
    | ((with_reducible show Touch.or _ _ = _) <;> rfl)
    | with_reducible (first
        | exact Frame.refl | apply State.atWorker_frame | apply State.domIn_frame | apply State.gotPrepare_frame)
    | (intro _ hF; skip) | with_reducible assumption | split

theorem execVote_frame (m : DomIn) (s : State) : OutFrame 
    ({ prismBanks := true, gens := true, em := true, fwdCtr := true, pools := true, bufCtr := true,
       pkts := true, nextPkt := true, fabCtr := true, waitTx := true, schedCtr := true, evt := true,
       mirrors := true, cand := true, mirQ := true, mirCtr := true, telCtr := true, dropCtr := true,
       portCtr := true, prismCtr := true, timeCtr := true, mbxCtr := true, shares := true, rate := true,
       boxes := true, jobs := true, hist := true, heldEvents := true, sets := true, peers := true,
       msgs := true, domBake := true, authFails := true, irq := true, out := true, free := true } : Touch) s (execVote m s) := by
  unfold execVote
  (try dsimp only [domRow])
  repeat' first
    | with_reducible (first | exact OutFrame.fault _ _ | apply OutFrame.next)
    | ((with_reducible show Touch.or _ _ = _) <;> rfl)
    | with_reducible (first
        | exact Frame.refl | apply State.atManager_frame | apply State.domIn_frame | apply State.domVote_frame)
    | (intro _ hF; skip) | with_reducible assumption | (with_reducible refine Frame.ite (fun _ => ?_) (fun _ => ?_))
    | split

theorem State.gotCommit_frame {wt : Touch} {s0 s : State} (hw : 
    ({ waitTx := true, portCtr := true, sets := true, peers := true, msgs := true, out := true } : Touch).or wt = wt)
    (hK : Frame wt s0 s) (m : DomIn) : Frame wt s0 (State.gotCommit s m) := by
  refine Frame.step hK hw ?_
  unfold State.gotCommit
  (try dsimp only)
  repeat' first
    | ((with_reducible show Touch.or _ _ = _) <;> rfl)
    | with_reducible (first | exact Frame.refl | apply State.domSend_frame | apply State.takeCommit_frame)
    | (with_reducible refine Frame.ite (fun _ => ?_) (fun _ => ?_)) | split

theorem execCommit_frame (m : DomIn) (s : State) : OutFrame 
    ({ fwdCtr := true, bufCtr := true, pkts := true, nextPkt := true, fabCtr := true, waitTx := true,
       schedCtr := true, evt := true, mirrors := true, cand := true, mirQ := true, mirCtr := true,
       telCtr := true, dropCtr := true, portCtr := true, prismCtr := true, timeCtr := true, shares := true,
       rate := true, sets := true, peers := true, msgs := true, authFails := true, irq := true,
       out := true, free := true } : Touch) s (execCommit m s) := by
  unfold execCommit
  (try dsimp only [domRow])
  repeat' first
    | with_reducible (first | exact OutFrame.fault _ _ | apply OutFrame.next)
    | ((with_reducible show Touch.or _ _ = _) <;> rfl)
    | with_reducible (first
        | exact Frame.refl | apply State.atWorker_frame | apply State.domIn_frame | apply State.gotCommit_frame)
    | (intro _ hF; skip) | with_reducible assumption | split

theorem execAck_frame (m : DomIn) (s : State) : OutFrame 
    ({ fwdCtr := true, bufCtr := true, pkts := true, nextPkt := true, fabCtr := true, waitTx := true,
       schedCtr := true, evt := true, mirrors := true, cand := true, mirQ := true, mirCtr := true,
       telCtr := true, dropCtr := true, portCtr := true, prismCtr := true, timeCtr := true, shares := true,
       rate := true, sets := true, peers := true, msgs := true, domBake := true, authFails := true,
       irq := true, out := true, free := true } : Touch) s (execAck m s) := by
  unfold execAck
  (try dsimp only [domRow])
  repeat' first
    | with_reducible (first | exact OutFrame.fault _ _ | apply OutFrame.next)
    | ((with_reducible show Touch.or _ _ = _) <;> rfl)
    | with_reducible (first
        | exact Frame.refl | apply State.atManager_frame | apply State.domAcked_frame | apply State.domIn_frame
        | apply State.updDom_frame)
    | (intro _ hF; skip) | with_reducible assumption | (with_reducible refine Frame.ite (fun _ => ?_) (fun _ => ?_))
    | split

theorem State.gotGo_frame {wt : Touch} {s0 s : State} (hw : 
    ({ evt := true, telCtr := true, sets := true, irq := true, out := true } : Touch).or wt = wt)
    (hK : Frame wt s0 s) (bakeId : Nat) (epoch : Nat) : Frame wt s0 (State.gotGo s bakeId epoch) := by
  refine Frame.step hK hw ?_
  unfold State.gotGo
  (try dsimp only)
  repeat' first
    | ((with_reducible show Touch.or _ _ = _) <;> rfl)
    | with_reducible (first | exact Frame.refl | apply State.takeGo_frame)
    | (with_reducible refine Frame.ite (fun _ => ?_) (fun _ => ?_)) | split

theorem execGo_frame (m : DomIn) (s : State) : OutFrame 
    ({ fwdCtr := true, bufCtr := true, pkts := true, nextPkt := true, fabCtr := true, waitTx := true,
       schedCtr := true, evt := true, mirrors := true, cand := true, mirQ := true, mirCtr := true,
       telCtr := true, dropCtr := true, portCtr := true, prismCtr := true, timeCtr := true, shares := true,
       rate := true, sets := true, peers := true, msgs := true, authFails := true, irq := true,
       out := true, free := true } : Touch) s (execGo m s) := by
  unfold execGo
  (try dsimp only [domRow])
  repeat' first
    | with_reducible (first | exact OutFrame.fault _ _ | apply OutFrame.next)
    | ((with_reducible show Touch.or _ _ = _) <;> rfl)
    | with_reducible (first
        | exact Frame.refl | apply State.atWorker_frame | apply State.domIn_frame | apply State.gotGo_frame)
    | (intro _ hF; skip) | with_reducible assumption | split

theorem execAbort_frame (m : DomIn) (s : State) : OutFrame 
    ({ prismBanks := true, gens := true, em := true, fwdCtr := true, bufCtr := true, pkts := true,
       nextPkt := true, fabCtr := true, waitTx := true, schedCtr := true, evt := true, mirrors := true,
       cand := true, mirQ := true, mirCtr := true, telCtr := true, dropCtr := true, portCtr := true,
       prismCtr := true, timeCtr := true, shares := true, rate := true, heldEvents := true, sets := true,
       peers := true, msgs := true, authFails := true, irq := true, out := true, free := true } : Touch) s (execAbort m s) := by
  unfold execAbort
  (try dsimp only [domRow])
  repeat' first
    | with_reducible (first | exact OutFrame.fault _ _ | apply OutFrame.next)
    | ((with_reducible show Touch.or _ _ = _) <;> rfl)
    | with_reducible (first
        | exact Frame.refl | apply State.atWorker_frame | apply State.domIn_frame | apply State.dropDomSet_frame)
    | (intro _ hF; skip) | with_reducible assumption | split

theorem execOutcomeQuery_frame (m : DomIn) (s : State) : OutFrame 
    ({ fwdCtr := true, bufCtr := true, pkts := true, nextPkt := true, fabCtr := true, waitTx := true,
       schedCtr := true, evt := true, mirrors := true, cand := true, mirQ := true, mirCtr := true,
       telCtr := true, dropCtr := true, portCtr := true, prismCtr := true, timeCtr := true, shares := true,
       rate := true, peers := true, msgs := true, authFails := true, irq := true, out := true,
       free := true } : Touch) s (execOutcomeQuery m s) := by
  unfold execOutcomeQuery
  (try dsimp only [domRow])
  repeat' first
    | with_reducible (first | exact OutFrame.fault _ _ | apply OutFrame.next)
    | ((with_reducible show Touch.or _ _ = _) <;> rfl)
    | with_reducible (first
        | exact Frame.refl | apply State.atManager_frame | apply State.domIn_frame | apply State.domSend_frame)
    | (intro _ hF; skip) | with_reducible assumption | split

theorem execOutcome_frame (m : DomIn) (s : State) : OutFrame 
    ({ prismBanks := true, gens := true, em := true, fwdCtr := true, bufCtr := true, pkts := true,
       nextPkt := true, fabCtr := true, waitTx := true, schedCtr := true, evt := true, mirrors := true,
       cand := true, mirQ := true, mirCtr := true, telCtr := true, dropCtr := true, portCtr := true,
       prismCtr := true, timeCtr := true, shares := true, rate := true, heldEvents := true, sets := true,
       peers := true, msgs := true, authFails := true, irq := true, out := true, free := true } : Touch) s (execOutcome m s) := by
  unfold execOutcome
  (try dsimp only [domRow])
  repeat' first
    | with_reducible (first | exact OutFrame.fault _ _ | apply OutFrame.next)
    | ((with_reducible show Touch.or _ _ = _) <;> rfl)
    | with_reducible (first
        | exact Frame.refl | apply State.atWorker_frame | apply State.domIn_frame | apply State.dropDomSet_frame
        | apply State.gotGo_frame)
    | (intro _ hF; skip) | with_reducible assumption | (with_reducible refine Frame.ite (fun _ => ?_) (fun _ => ?_))
    | split

theorem execOutcomeQueryTimer_frame (s : State) : OutFrame 
    ({ waitTx := true, portCtr := true, peers := true, msgs := true, out := true } : Touch) s (execOutcomeQueryTimer s) := by
  unfold execOutcomeQueryTimer
  (try dsimp only)
  repeat' first
    | with_reducible (first | exact OutFrame.fault _ _ | apply OutFrame.next)
    | ((with_reducible show Touch.or _ _ = _) <;> rfl)
    | with_reducible (first | exact Frame.refl | apply State.domSend_frame)
    | (with_reducible refine Frame.ite (fun _ => ?_) (fun _ => ?_)) | split

theorem execVoteDeadline_frame (s : State) : OutFrame 
    ({ prismBanks := true, gens := true, em := true, fwdCtr := true, pools := true, bufCtr := true,
       waitTx := true, evt := true, telCtr := true, portCtr := true, mbxCtr := true, boxes := true,
       jobs := true, hist := true, heldEvents := true, sets := true, peers := true, msgs := true,
       domBake := true, irq := true, out := true } : Touch) s (execVoteDeadline s) := by
  unfold execVoteDeadline
  (try dsimp only)
  repeat' first
    | with_reducible (first | exact OutFrame.fault _ _ | apply OutFrame.next)
    | ((with_reducible show Touch.or _ _ = _) <;> rfl)
    | with_reducible (first | exact Frame.refl | apply State.domFail_frame)
    | (with_reducible refine Frame.ite (fun _ => ?_) (fun _ => ?_)) | split

theorem execAckDeadline_frame (s : State) : OutFrame 
    ({ prismBanks := true, gens := true, em := true, fwdCtr := true, pools := true, bufCtr := true,
       waitTx := true, evt := true, telCtr := true, portCtr := true, mbxCtr := true, boxes := true,
       jobs := true, hist := true, heldEvents := true, sets := true, peers := true, msgs := true,
       domBake := true, irq := true, out := true } : Touch) s (execAckDeadline s) := by
  unfold execAckDeadline
  (try dsimp only)
  repeat' first
    | with_reducible (first | exact OutFrame.fault _ _ | apply OutFrame.next)
    | ((with_reducible show Touch.or _ _ = _) <;> rfl)
    | with_reducible (first | exact Frame.refl | apply State.domFail_frame)
    | (with_reducible refine Frame.ite (fun _ => ?_) (fun _ => ?_)) | split

theorem execEnrolTick_frame (s : State) : OutFrame
    ({ waitTx := true, portCtr := true, msgs := true, membership := true, out := true } : Touch) s
    (execEnrolTick s) := by
  unfold execEnrolTick
  refine OutFrame.next (Frame.ite (fun _ => ?_) (fun _ => .refl))
  have ht : Frame ({ waitTx := true, portCtr := true, msgs := true, membership := true, out := true } : Touch) s
      (s.openPorts.foldl (fun t p => State.clearSend t p 0 0x30 []) s) :=
    Frame.foldl _ (fun _ _ hF => State.clearSend_frame rfl hF _ _ _ _) _ .refl
  generalize s.openPorts.foldl (fun t p => State.clearSend t p 0 0x30 []) s = t at ht ⊢
  exact ht.trans (.ofView rfl)

theorem State.startSession_frame {wt : Touch} {s0 s : State} (hw :
    ({ peers := true, free := true } : Touch).or wt = wt)
    (hK : Frame wt s0 s) (i : Nat) (p : Nat) :
    Frame wt s0 (State.startSession s i p) := by
  refine Frame.step hK hw ?_
  unfold State.startSession
  (try dsimp only)
  repeat' first
    | ((with_reducible show Touch.or _ _ = _) <;> rfl)
    | with_reducible (first | exact Frame.refl | apply State.drawn_frame | apply State.updPeer_frame)
    | (with_reducible refine Frame.foldl _ (fun _ _ hF => ?_) _ ?_)
    | (intro _ hF; skip) | with_reducible assumption
    | (with_reducible refine Frame.ite (fun _ => ?_) (fun _ => ?_)) | split
    | fail_if_no_progress ((with_reducible apply Frame.fields); (case hq => rfl); (case hc => rfl))

theorem State.spdmFail_frame {wt : Touch} {s0 s : State} (hw : 
    ({ evt := true, telCtr := true, irq := true, out := true, free := true } : Touch).or wt = wt)
    (hK : Frame wt s0 s) (transport : Nat) (hash : List Byte) : Frame wt s0 (State.spdmFail s transport hash) := by
  refine Frame.step hK hw ?_
  unfold State.spdmFail
  (try dsimp only)
  repeat' first
    | ((with_reducible show Touch.or _ _ = _) <;> rfl)
    | with_reducible (first | exact Frame.refl | apply State.drawn_frame | apply State.raise_frame)

theorem State.endExchange_frame {wt : Touch} {s0 s : State} (hw :
    ({ waitTx := true, portCtr := true, msgs := true, out := true } : Touch).or wt = wt)
    (hK : Frame wt s0 s) (m : DomIn) :
    Frame wt s0 (State.endExchange s m) := by
  refine Frame.step hK hw ?_
  unfold State.endExchange
  (try dsimp only)
  repeat' first
    | ((with_reducible show Touch.or _ _ = _) <;> rfl)
    | with_reducible (first | exact Frame.refl | apply State.clearSend_frame)
    | (with_reducible refine Frame.foldl _ (fun _ _ hF => ?_) _ ?_)
    | (intro _ hF; skip) | with_reducible assumption
    | (with_reducible refine Frame.ite (fun _ => ?_) (fun _ => ?_)) | split
    | fail_if_no_progress ((with_reducible apply Frame.fields); (case hq => rfl); (case hc => rfl))

theorem State.managerEnrol_frame {wt : Touch} {s0 s : State} (hw :
    ({ waitTx := true, evt := true, telCtr := true, portCtr := true, peers := true, msgs := true,
       irq := true, out := true, free := true } : Touch).or wt = wt)
    (hK : Frame wt s0 s) (m : DomIn) (x : EnrolIn) :
    Frame wt s0 (State.managerEnrol s m x) := by
  refine Frame.step hK hw ?_
  unfold State.managerEnrol
  (try dsimp only)
  repeat' first
    | ((with_reducible show Touch.or _ _ = _) <;> rfl)
    | with_reducible (first
        | exact Frame.refl | apply State.endExchange_frame | apply State.spdmFail_frame
        | apply State.startSession_frame | apply State.raise_frame)
    | (with_reducible refine Frame.foldl _ (fun _ _ hF => ?_) _ ?_)
    | (intro _ hF; skip) | with_reducible assumption
    | (with_reducible refine Frame.ite (fun _ => ?_) (fun _ => ?_)) | split
    | fail_if_no_progress ((with_reducible apply Frame.fields); (case hq => rfl); (case hc => rfl))

theorem State.workerEnrol_frame {wt : Touch} {s0 s : State} (hw :
    ({ waitTx := true, evt := true, telCtr := true, portCtr := true, peers := true, msgs := true,
       membership := true, irq := true, out := true, free := true } : Touch).or wt = wt)
    (hK : Frame wt s0 s) (m : DomIn) (x : EnrolIn) :
    Frame wt s0 (State.workerEnrol s m x) := by
  refine Frame.step hK hw ?_
  unfold State.workerEnrol
  (try dsimp only)
  repeat' first
    | ((with_reducible show Touch.or _ _ = _) <;> rfl)
    | with_reducible (first
        | exact Frame.refl | apply State.endExchange_frame | apply State.spdmFail_frame
        | apply State.startSession_frame)
    | (with_reducible refine Frame.foldl _ (fun _ _ hF => ?_) _ ?_)
    | (intro _ hF; skip) | with_reducible assumption
    | (with_reducible refine Frame.ite (fun _ => ?_) (fun _ => ?_)) | split
    | fail_if_no_progress ((with_reducible apply Frame.fields); (case hq => rfl); (case hc => rfl))

theorem State.setSetup_frame {wt : Touch} {s0 s : State} (hw :
    ({ membership := true } : Touch).or wt = wt)
    (hK : Frame wt s0 s) (p : Option Nat) :
    Frame wt s0 (State.setSetup s p) := by
  refine Frame.step hK hw ?_
  unfold State.setSetup
  (try dsimp only)
  repeat' first
    | ((with_reducible show Touch.or _ _ = _) <;> rfl)
    | with_reducible exact Frame.refl
    | (with_reducible refine Frame.foldl _ (fun _ _ hF => ?_) _ ?_)
    | (intro _ hF; skip) | with_reducible assumption
    | (with_reducible refine Frame.ite (fun _ => ?_) (fun _ => ?_)) | split
    | fail_if_no_progress ((with_reducible apply Frame.fields); (case hq => rfl); (case hc => rfl))

theorem State.managerSetup_frame {wt : Touch} {s0 s : State} (hw :
    ({ waitTx := true, evt := true, telCtr := true, portCtr := true, peers := true, msgs := true,
       membership := true, irq := true, out := true, free := true } : Touch).or wt = wt)
    (hK : Frame wt s0 s) (m : DomIn) (x : EnrolIn) :
    Frame wt s0 (State.managerSetup s m x) := by
  refine Frame.step hK hw ?_
  unfold State.managerSetup
  (try dsimp only)
  repeat' first
    | ((with_reducible show Touch.or _ _ = _) <;> rfl)
    | with_reducible (first
        | exact Frame.refl | apply State.managerEnrol_frame | apply State.clearSend_frame
        | apply State.setSetup_frame)
    | (with_reducible refine Frame.foldl _ (fun _ _ hF => ?_) _ ?_)
    | (intro _ hF; skip) | with_reducible assumption
    | (with_reducible refine Frame.ite (fun _ => ?_) (fun _ => ?_)) | split
    | fail_if_no_progress ((with_reducible apply Frame.fields); (case hq => rfl); (case hc => rfl))

theorem State.workerSetup_frame {wt : Touch} {s0 s : State} (hw :
    ({ waitTx := true, evt := true, telCtr := true, portCtr := true, peers := true, msgs := true,
       membership := true, irq := true, out := true, free := true } : Touch).or wt = wt)
    (hK : Frame wt s0 s) (m : DomIn) (x : EnrolIn) :
    Frame wt s0 (State.workerSetup s m x) := by
  refine Frame.step hK hw ?_
  unfold State.workerSetup
  (try dsimp only)
  repeat' first
    | ((with_reducible show Touch.or _ _ = _) <;> rfl)
    | with_reducible (first | exact Frame.refl | apply State.workerEnrol_frame | apply State.clearSend_frame)
    | (with_reducible refine Frame.foldl _ (fun _ _ hF => ?_) _ ?_)
    | (intro _ hF; skip) | with_reducible assumption
    | (with_reducible refine Frame.ite (fun _ => ?_) (fun _ => ?_)) | split
    | fail_if_no_progress ((with_reducible apply Frame.fields); (case hq => rfl); (case hc => rfl))

theorem State.clearEnrol_frame {wt : Touch} {s0 s : State} (hw :
    ({ waitTx := true, evt := true, telCtr := true, portCtr := true, peers := true, msgs := true,
       membership := true, irq := true, out := true, free := true } : Touch).or wt = wt)
    (hK : Frame wt s0 s) (m : DomIn) (x : EnrolIn) :
    Frame wt s0 (State.clearEnrol s m x) := by
  refine Frame.step hK hw ?_
  unfold State.clearEnrol
  (try dsimp only)
  repeat' first
    | ((with_reducible show Touch.or _ _ = _) <;> rfl)
    | with_reducible (first
        | exact Frame.refl | apply State.managerSetup_frame | apply State.clearSend_frame
        | apply State.workerSetup_frame)
    | (with_reducible refine Frame.foldl _ (fun _ _ hF => ?_) _ ?_)
    | (intro _ hF; skip) | with_reducible assumption
    | (with_reducible refine Frame.ite (fun _ => ?_) (fun _ => ?_)) | split
    | fail_if_no_progress ((with_reducible apply Frame.fields); (case hq => rfl); (case hc => rfl))

theorem State.sealedSpdm_frame {wt : Touch} {s0 s : State} (hw : 
    ({ prismBanks := true, gens := true, em := true, fwdCtr := true, pools := true, bufCtr := true,
       waitTx := true, evt := true, telCtr := true, portCtr := true, mbxCtr := true, boxes := true,
       jobs := true, hist := true, sets := true, peers := true, msgs := true, membership := true,
       irq := true, out := true } : Touch).or wt = wt)
    (hK : Frame wt s0 s) (m : DomIn) : Frame wt s0 (State.sealedSpdm s m) := by
  refine Frame.step hK hw ?_
  unfold State.sealedSpdm
  (try dsimp only)
  repeat' first
    | ((with_reducible show Touch.or _ _ = _) <;> rfl)
    | with_reducible (first
        | exact Frame.refl | apply State.domSend_frame | apply State.freeDomSet_frame | apply State.updPeer_frame)
    | (intro _ hF; skip) | with_reducible assumption | (with_reducible refine Frame.ite (fun _ => ?_) (fun _ => ?_))
    | split | fail_if_no_progress ((with_reducible apply Frame.fields); (case hq => rfl); (case hc => rfl))

theorem execEnrol_frame (m : DomIn) (idx : Nat) (hash : List Byte) (x : EnrolShown) (s : State) : OutFrame 
    ({ prismBanks := true, gens := true, em := true, fwdCtr := true, pools := true, bufCtr := true,
       pkts := true, nextPkt := true, fabCtr := true, waitTx := true, schedCtr := true, evt := true,
       mirrors := true, cand := true, mirQ := true, mirCtr := true, telCtr := true, dropCtr := true,
       portCtr := true, prismCtr := true, timeCtr := true, mbxCtr := true, shares := true, rate := true,
       boxes := true, jobs := true, hist := true, sets := true, peers := true, msgs := true,
       membership := true, authFails := true, irq := true, out := true, free := true } : Touch) s (execEnrol m idx hash x s) := by
  unfold execEnrol
  (try dsimp only)
  repeat' first
    | with_reducible (first | exact OutFrame.fault _ _ | apply OutFrame.next)
    | ((with_reducible show Touch.or _ _ = _) <;> rfl)
    | with_reducible (first
        | exact Frame.refl | apply State.domRx_frame | apply State.domAct_frame | apply State.managerEnrol_frame
        | apply State.sealedSpdm_frame | apply State.workerEnrol_frame | apply State.clearEnrol_frame)
    | (with_reducible refine Frame.foldl _ (fun _ _ hF => ?_) _ ?_)
    | (intro _ hF; skip) | with_reducible assumption
    | (with_reducible refine Frame.ite (fun _ => ?_) (fun _ => ?_)) | split
    | fail_if_no_progress ((with_reducible apply Frame.fields); (case hq => rfl); (case hc => rfl))

theorem execKeyUpdateTimer_frame (peer : Nat) (s : State) : OutFrame 
    ({ waitTx := true, portCtr := true, peers := true, msgs := true, out := true } : Touch) s (execKeyUpdateTimer peer s) := by
  unfold execKeyUpdateTimer
  (try dsimp only)
  repeat' first
    | with_reducible (first | exact OutFrame.fault _ _ | apply OutFrame.next)
    | ((with_reducible show Touch.or _ _ = _) <;> rfl)
    | with_reducible (first | exact Frame.refl | apply State.domSend_frame | apply State.updPeer_frame)
    | (intro _ hF; skip) | with_reducible assumption | (with_reducible refine Frame.ite (fun _ => ?_) (fun _ => ?_))
    | split

theorem domSetPortBody_frame {wt : Touch} {s0 s : State} (hw : 
    ({ ports := true, snapshot := true, heldShadow := true } : Touch).or wt = wt)
    (hK : Frame wt s0 s) (r : Req) : Frame wt s0 (domSetPortBody r s).1 := by
  refine Frame.step hK hw ?_
  unfold domSetPortBody
  (try dsimp only)
  repeat' first
    | ((with_reducible show Touch.or _ _ = _) <;> rfl)
    | with_reducible (first
        | exact Frame.refl | apply applyDomSetPort_frame | apply errCmd_frame | apply okCmd_frame
        | apply State.shadow_frame)
    | (intro _ hF; skip) | with_reducible assumption | (with_reducible refine Frame.ite (fun _ => ?_) (fun _ => ?_))
    | split

theorem domAdmitBody_frame {wt : Touch} {s0 s : State} (hw : 
    ({ waitTx := true, portCtr := true, snapshot := true, heldShadow := true, peers := true, msgs := true,
       out := true } : Touch).or wt = wt)
    (hK : Frame wt s0 s) (r : Req) : Frame wt s0 (domAdmitBody r s).1 := by
  refine Frame.step hK hw ?_
  unfold domAdmitBody
  (try dsimp only)
  repeat' first
    | ((with_reducible show Touch.or _ _ = _) <;> rfl)
    | with_reducible (first
        | exact Frame.refl | apply applyDomAdmit_frame | apply State.domPut_frame | apply errCmd_frame
        | apply okCmd_frame | apply State.shadow_frame | apply State.domSend_frame)
    | (intro _ hF; skip) | with_reducible assumption | (with_reducible refine Frame.ite (fun _ => ?_) (fun _ => ?_))
    | split

theorem domGetStatusBody_frame {wt : Touch} {s0 s : State} (hw : ({} : Touch).or wt = wt)
    (hK : Frame wt s0 s) (r : Req) : Frame wt s0 (domGetStatusBody r s).1 := by
  refine Frame.step hK hw ?_
  unfold domGetStatusBody
  (try dsimp only)
  repeat' first
    | ((with_reducible show Touch.or _ _ = _) <;> rfl)
    | with_reducible (first | exact Frame.refl | apply readCmd_frame) | (intro _ hF; skip)

theorem State.domOwn_frame {wt : Touch} {s0 s : State} (hw : 
    ({ prismBanks := true, gens := true, em := true, fwdCtr := true, pools := true, bufCtr := true,
       waitTx := true, evt := true, telCtr := true, portCtr := true, mbxCtr := true, boxes := true,
       jobs := true, hist := true, heldEvents := true, sets := true, peers := true, msgs := true,
       domBake := true, irq := true, out := true } : Touch).or wt = wt)
    (hK : Frame wt s0 s) (d : DomBake) : Frame wt s0 (State.domOwn s d) := by
  refine Frame.step hK hw ?_
  unfold State.domOwn
  (try dsimp only)
  repeat' first
    | ((with_reducible show Touch.or _ _ = _) <;> rfl)
    | with_reducible (first | exact Frame.refl | apply State.domVote_frame | apply State.startBake_frame)
    | (intro _ hF; skip) | with_reducible assumption
    | (with_reducible apply State.startBake_fof; (case e => assumption)) | dsimp only | split

theorem State.domBegin_frame {wt : Touch} {s0 s : State} (hw : 
    ({ prismBanks := true, gens := true, em := true, fwdCtr := true, pools := true, bufCtr := true,
       waitTx := true, evt := true, telCtr := true, portCtr := true, mbxCtr := true, boxes := true,
       jobs := true, hist := true, heldEvents := true, sets := true, peers := true, msgs := true,
       domBake := true, irq := true, out := true } : Touch).or wt = wt)
    (hK : Frame wt s0 s) (d : DomBake) : Frame wt s0 (State.domBegin s d) := by
  refine Frame.step hK hw ?_
  unfold State.domBegin
  (try dsimp only)
  repeat' first
    | ((with_reducible show Touch.or _ _ = _) <;> rfl)
    | with_reducible (first | exact Frame.refl | apply State.domOwn_frame | apply State.domSend_frame)
    | (with_reducible refine Frame.foldl _ (fun _ _ hF => ?_) _ ?_)
    | (intro _ hF; skip) | with_reducible assumption
    | (with_reducible refine Frame.ite (fun _ => ?_) (fun _ => ?_)) | split
    | fail_if_no_progress ((with_reducible apply Frame.fields); (case hq => rfl); (case hc => rfl))

theorem domBakeBody_frame {wt : Touch} {s0 s : State} (hw : 
    ({ prismBanks := true, gens := true, em := true, fwdCtr := true, pools := true, bufCtr := true,
       waitTx := true, evt := true, telCtr := true, portCtr := true, mbxCtr := true, boxes := true,
       jobs := true, hist := true, heldEvents := true, sets := true, peers := true, msgs := true,
       domBake := true, irq := true, out := true } : Touch).or wt = wt)
    (hK : Frame wt s0 s) (r : Req) : Frame wt s0 (domBakeBody r s).1 := by
  refine Frame.step hK hw ?_
  unfold domBakeBody
  (try dsimp only)
  repeat' first
    | ((with_reducible show Touch.or _ _ = _) <;> rfl)
    | with_reducible (first | exact Frame.refl | apply State.domBegin_frame | apply errCmd_frame) | (intro _ hF; skip)
    | with_reducible assumption | (with_reducible refine Frame.ite (fun _ => ?_) (fun _ => ?_)) | split

theorem domAbortBody_frame {wt : Touch} {s0 s : State} (hw : 
    ({ prismBanks := true, gens := true, em := true, fwdCtr := true, pools := true, bufCtr := true,
       waitTx := true, evt := true, telCtr := true, portCtr := true, mbxCtr := true, boxes := true,
       jobs := true, hist := true, heldEvents := true, sets := true, peers := true, msgs := true,
       domBake := true, irq := true, out := true } : Touch).or wt = wt)
    (hK : Frame wt s0 s) (r : Req) : Frame wt s0 (domAbortBody r s).1 := by
  refine Frame.step hK hw ?_
  unfold domAbortBody
  (try dsimp only)
  repeat' first
    | ((with_reducible show Touch.or _ _ = _) <;> rfl)
    | with_reducible (first | exact Frame.refl | apply State.domFail_frame | apply errCmd_frame | apply okCmd_frame)
    | (intro _ hF; skip) | with_reducible assumption | (with_reducible refine Frame.ite (fun _ => ?_) (fun _ => ?_))
    | split

theorem domLeaveBody_frame {wt : Touch} {s0 s : State} (hw : 
    ({ prismBanks := true, gens := true, em := true, fwdCtr := true, pools := true, bufCtr := true,
       waitTx := true, evt := true, telCtr := true, portCtr := true, mbxCtr := true, boxes := true,
       jobs := true, hist := true, sets := true, peers := true, msgs := true, membership := true,
       irq := true, out := true } : Touch).or wt = wt)
    (hK : Frame wt s0 s) (r : Req) : Frame wt s0 (domLeaveBody r s).1 := by
  refine Frame.step hK hw ?_
  unfold domLeaveBody
  (try dsimp only)
  repeat' first
    | ((with_reducible show Touch.or _ _ = _) <;> rfl)
    | with_reducible (first
        | exact Frame.refl | apply State.freeDomSet_frame | apply okCmd_frame | apply State.updPeer_frame)
    | (intro _ hF; skip) | with_reducible assumption | split
    | fail_if_no_progress ((with_reducible apply Frame.fields); (case hq => rfl); (case hc => rfl))

theorem execDomSetPort_frame (r : Req) (s : State) : OutFrame 
    ({ ports := true, pools := true, bufCtr := true, waitTx := true, evt := true, telCtr := true,
       portCtr := true, mbxCtr := true, boxes := true, jobs := true, hist := true, snapshot := true,
       heldShadow := true, peers := true, msgs := true, irq := true, out := true } : Touch) s (execDomSetPort r s) := 
  mailboxCommand_frame rfl (fun _ => domSetPortBody_frame rfl .refl r)

theorem execDomAdmit_frame (r : Req) (s : State) : OutFrame 
    ({ pools := true, bufCtr := true, waitTx := true, evt := true, telCtr := true, portCtr := true,
       mbxCtr := true, boxes := true, jobs := true, hist := true, snapshot := true, heldShadow := true,
       peers := true, msgs := true, irq := true, out := true } : Touch) s (execDomAdmit r s) := 
  mailboxCommand_frame rfl (fun _ => domAdmitBody_frame rfl .refl r)

theorem execDomGetStatus_frame (r : Req) (s : State) : OutFrame 
    ({ pools := true, bufCtr := true, waitTx := true, evt := true, telCtr := true, portCtr := true,
       mbxCtr := true, boxes := true, jobs := true, hist := true, peers := true, msgs := true, irq := true,
       out := true } : Touch) s (execDomGetStatus r s) := 
  mailboxCommand_frame rfl (fun _ => domGetStatusBody_frame rfl .refl r)

theorem execDomForward_frame (r : Req) (s : State) : OutFrame 
    ({ pools := true, bufCtr := true, waitTx := true, evt := true, telCtr := true, portCtr := true,
       mbxCtr := true, boxes := true, jobs := true, hist := true, peers := true, msgs := true,
       fwdReqs := true, irq := true, out := true } : Touch) s
    (execDomForward r s) :=
  mailboxCommand_frame rfl (fun _ => domForwardBody_frame rfl .refl r)

theorem execDomBake_frame (r : Req) (s : State) : OutFrame 
    ({ prismBanks := true, gens := true, em := true, fwdCtr := true, pools := true, bufCtr := true,
       waitTx := true, evt := true, telCtr := true, portCtr := true, mbxCtr := true, boxes := true,
       jobs := true, hist := true, heldEvents := true, sets := true, peers := true, msgs := true,
       domBake := true, irq := true, out := true } : Touch) s (execDomBake r s) :=
  mailboxCommand_frame rfl (fun _ => domBakeBody_frame rfl .refl r)

theorem execDomAbort_frame (r : Req) (s : State) : OutFrame 
    ({ prismBanks := true, gens := true, em := true, fwdCtr := true, pools := true, bufCtr := true,
       waitTx := true, evt := true, telCtr := true, portCtr := true, mbxCtr := true, boxes := true,
       jobs := true, hist := true, heldEvents := true, sets := true, peers := true, msgs := true,
       domBake := true, irq := true, out := true } : Touch) s (execDomAbort r s) :=
  mailboxCommand_frame rfl (fun _ => domAbortBody_frame rfl .refl r)

theorem execDomLeave_frame (r : Req) (s : State) : OutFrame 
    ({ prismBanks := true, gens := true, em := true, fwdCtr := true, pools := true, bufCtr := true,
       waitTx := true, evt := true, telCtr := true, portCtr := true, mbxCtr := true, boxes := true,
       jobs := true, hist := true, sets := true, peers := true, msgs := true, membership := true,
       irq := true, out := true } : Touch) s (execDomLeave r s) := 
  mailboxCommand_frame rfl (fun _ => domLeaveBody_frame rfl .refl r)

end Sys2Proof.Machine
end

