-- ==== Sys2Proof/Laws/FrameClock.lean ====
section
/-! SUPPORT. What the operations of Clock may change. -/

set_option Elab.async false
set_option linter.all false

namespace Sys2Proof.Machine

theorem State.timeStep_frame {wt : Touch} {s0 s : State} (hw : 
    ({ time := true, ptp := true, tsFifos := true, gates := true, lanes := true, groups := true,
       ports := true, prismBanks := true, prismFlight := true, hits := true, recirc := true, merge := true,
       gens := true, fwdFlight := true, em := true, learnQ := true, agePeriod := true, fwdCtr := true,
       cells := true, classes := true, portClass := true, wred := true, queues := true, spillVoqs := true,
       pools := true, bufCtr := true, pkts := true, nextPkt := true, fabParams := true, voqs := true,
       multiQ := true, pairs := true, fabPorts := true, links := true, fabCtr := true, nodes := true,
       egq := true, waitTx := true, pol := true, loupeProf := true, loupeQueue := true, loupeItems := true,
       schedCtr := true, frer := true, clusters := true, cores := true, flows := true, fix := true,
       fixCtr := true, pclasses := true, targets := true, drops := true, buses := true, notices := true,
       proofCtr := true, evt := true, mirrors := true, cand := true, mirQ := true, mirCtr := true,
       telCtr := true, dropCtr := true, portCtr := true, prismCtr := true, timeCtr := true, mbxCtr := true,
       pwrCtr := true, shares := true, rate := true, boxes := true, jobs := true, hist := true,
       heldEvents := true, sets := true, epoch := true, snapshot := true, heldShadow := true,
       peers := true, msgs := true, domBake := true, slices := true, warnC := true, regions := true,
       healthGen := true, margins := true, irq := true, out := true, free := true } : Touch).or wt = wt)
    (hK : Frame wt s0 s) (op : Nat) (cause : Nat) (units : Nat) : Frame wt s0 (State.timeStep s op cause units) := by
  refine Frame.step hK hw ?_
  unfold State.timeStep
  (try dsimp only)
  repeat' first
    | ((with_reducible show Touch.or _ _ = _) <;> rfl)
    | with_reducible (first
        | exact Frame.refl | apply State.gateReset_frame | apply State.raise_frame | apply State.setTimeState_frame
        | apply State.stepPast_frame | apply State.updTime_frame)
    | (with_reducible refine Frame.foldl _ (fun _ _ hF => ?_) _ ?_) | (intro _ hF; skip) | with_reducible assumption
    | (with_reducible refine Frame.ite (fun _ => ?_) (fun _ => ?_))

theorem timeAdjustBody_frame {wt : Touch} {s0 s : State} (hw : 
    ({ time := true, ptp := true, tsFifos := true, gates := true, lanes := true, groups := true,
       ports := true, prismBanks := true, prismFlight := true, hits := true, recirc := true, merge := true,
       gens := true, fwdFlight := true, em := true, learnQ := true, agePeriod := true, fwdCtr := true,
       cells := true, classes := true, portClass := true, wred := true, queues := true, spillVoqs := true,
       pools := true, bufCtr := true, pkts := true, nextPkt := true, fabParams := true, voqs := true,
       multiQ := true, pairs := true, fabPorts := true, links := true, fabCtr := true, nodes := true,
       egq := true, waitTx := true, pol := true, loupeProf := true, loupeQueue := true, loupeItems := true,
       schedCtr := true, frer := true, clusters := true, cores := true, flows := true, fix := true,
       fixCtr := true, pclasses := true, targets := true, drops := true, buses := true, notices := true,
       proofCtr := true, evt := true, mirrors := true, cand := true, mirQ := true, mirCtr := true,
       telCtr := true, dropCtr := true, portCtr := true, prismCtr := true, timeCtr := true, mbxCtr := true,
       pwrCtr := true, shares := true, rate := true, boxes := true, jobs := true, hist := true,
       heldEvents := true, sets := true, epoch := true, snapshot := true, heldShadow := true,
       peers := true, msgs := true, domBake := true, slices := true, warnC := true, regions := true,
       healthGen := true, margins := true, irq := true, out := true, free := true } : Touch).or wt = wt)
    (hK : Frame wt s0 s) (r : Req) : Frame wt s0 (timeAdjustBody r s).1 := by
  refine Frame.step hK hw ?_
  unfold timeAdjustBody
  (try dsimp only)
  repeat' first
    | ((with_reducible show Touch.or _ _ = _) <;> rfl)
    | with_reducible (first
        | exact Frame.refl | apply errCmd_frame | apply okCmd_frame | apply State.timeStep_frame
        | apply State.updTime_frame)
    | (intro _ hF; skip) | with_reducible assumption | (with_reducible refine Frame.ite (fun _ => ?_) (fun _ => ?_))
    | split

theorem execTimeAdjust_frame (r : Req) (s : State) : OutFrame 
    ({ time := true, ptp := true, tsFifos := true, gates := true, lanes := true, groups := true,
       ports := true, prismBanks := true, prismFlight := true, hits := true, recirc := true, merge := true,
       gens := true, fwdFlight := true, em := true, learnQ := true, agePeriod := true, fwdCtr := true,
       cells := true, classes := true, portClass := true, wred := true, queues := true, spillVoqs := true,
       pools := true, bufCtr := true, pkts := true, nextPkt := true, fabParams := true, voqs := true,
       multiQ := true, pairs := true, fabPorts := true, links := true, fabCtr := true, nodes := true,
       egq := true, waitTx := true, pol := true, loupeProf := true, loupeQueue := true, loupeItems := true,
       schedCtr := true, frer := true, clusters := true, cores := true, flows := true, fix := true,
       fixCtr := true, pclasses := true, targets := true, drops := true, buses := true, notices := true,
       proofCtr := true, evt := true, mirrors := true, cand := true, mirQ := true, mirCtr := true,
       telCtr := true, dropCtr := true, portCtr := true, prismCtr := true, timeCtr := true, mbxCtr := true,
       pwrCtr := true, shares := true, rate := true, boxes := true, jobs := true, hist := true,
       heldEvents := true, sets := true, epoch := true, snapshot := true, heldShadow := true,
       peers := true, msgs := true, domBake := true, slices := true, warnC := true, regions := true,
       healthGen := true, margins := true, irq := true, out := true, free := true } : Touch) s (execTimeAdjust r s) := 
  mailboxCommand_frame rfl (fun _ => timeAdjustBody_frame rfl .refl r)

theorem State.judge_frame {wt : Touch} {s0 s : State} (hw : 
    ({ time := true, evt := true, telCtr := true, irq := true, out := true } : Touch).or wt = wt)
    (hK : Frame wt s0 s) (off : Int) : Frame wt s0 (State.judge s off) := by
  refine Frame.step hK hw ?_
  unfold State.judge
  (try dsimp only)
  repeat' first
    | ((with_reducible show Touch.or _ _ = _) <;> rfl)
    | with_reducible (first | exact Frame.refl | apply State.setTimeState_frame | apply State.updTime_frame)
    | (intro _ hF; skip) | with_reducible assumption | (with_reducible refine Frame.ite (fun _ => ?_) (fun _ => ?_))

theorem State.servo_frame {wt : Touch} {s0 s : State} (hw : 
    ({ time := true, ptp := true, tsFifos := true, gates := true, lanes := true, groups := true,
       ports := true, prismBanks := true, prismFlight := true, hits := true, recirc := true, merge := true,
       gens := true, fwdFlight := true, em := true, learnQ := true, agePeriod := true, fwdCtr := true,
       cells := true, classes := true, portClass := true, wred := true, queues := true, spillVoqs := true,
       pools := true, bufCtr := true, pkts := true, nextPkt := true, fabParams := true, voqs := true,
       multiQ := true, pairs := true, fabPorts := true, links := true, fabCtr := true, nodes := true,
       egq := true, waitTx := true, pol := true, loupeProf := true, loupeQueue := true, loupeItems := true,
       schedCtr := true, frer := true, clusters := true, cores := true, flows := true, fix := true,
       fixCtr := true, pclasses := true, targets := true, drops := true, buses := true, notices := true,
       proofCtr := true, evt := true, mirrors := true, cand := true, mirQ := true, mirCtr := true,
       telCtr := true, dropCtr := true, portCtr := true, prismCtr := true, timeCtr := true, mbxCtr := true,
       pwrCtr := true, shares := true, rate := true, boxes := true, jobs := true, hist := true,
       heldEvents := true, sets := true, epoch := true, snapshot := true, heldShadow := true,
       peers := true, msgs := true, domBake := true, timeOffset := true, slices := true, warnC := true,
       regions := true, healthGen := true, margins := true, irq := true, out := true,
       free := true } : Touch).or wt = wt)
    (hK : Frame wt s0 s) (off : Int) : Frame wt s0 (State.servo s off) := by
  refine Frame.step hK hw ?_
  unfold State.servo
  (try dsimp only)
  repeat' first
    | ((with_reducible show Touch.or _ _ = _) <;> rfl)
    | with_reducible (first
        | exact Frame.refl | apply State.drawn_frame | apply State.judge_frame | apply State.timeStep_frame
        | apply State.updTime_frame)
    | (intro _ hF; skip) | with_reducible assumption | (with_reducible refine Frame.ite (fun _ => ?_) (fun _ => ?_))
    | split | fail_if_no_progress ((with_reducible apply Frame.fields); (case hq => rfl); (case hc => rfl))

theorem execPpsInEdge_frame (s : State) : OutFrame 
    ({ time := true, ptp := true, tsFifos := true, gates := true, lanes := true, groups := true,
       ports := true, prismBanks := true, prismFlight := true, hits := true, recirc := true, merge := true,
       gens := true, fwdFlight := true, em := true, learnQ := true, agePeriod := true, fwdCtr := true,
       cells := true, classes := true, portClass := true, wred := true, queues := true, spillVoqs := true,
       pools := true, bufCtr := true, pkts := true, nextPkt := true, fabParams := true, voqs := true,
       multiQ := true, pairs := true, fabPorts := true, links := true, fabCtr := true, nodes := true,
       egq := true, waitTx := true, pol := true, loupeProf := true, loupeQueue := true, loupeItems := true,
       schedCtr := true, frer := true, clusters := true, cores := true, flows := true, fix := true,
       fixCtr := true, pclasses := true, targets := true, drops := true, buses := true, notices := true,
       proofCtr := true, evt := true, mirrors := true, cand := true, mirQ := true, mirCtr := true,
       telCtr := true, dropCtr := true, portCtr := true, prismCtr := true, timeCtr := true, mbxCtr := true,
       pwrCtr := true, shares := true, rate := true, boxes := true, jobs := true, hist := true,
       heldEvents := true, sets := true, epoch := true, snapshot := true, heldShadow := true,
       peers := true, msgs := true, domBake := true, timeOffset := true, slices := true, warnC := true,
       regions := true, healthGen := true, margins := true, irq := true, out := true,
       free := true } : Touch) s (execPpsInEdge s) := by
  unfold execPpsInEdge
  (try dsimp only)
  repeat' first
    | with_reducible (first | exact OutFrame.fault _ _ | apply OutFrame.next)
    | ((with_reducible show Touch.or _ _ = _) <;> rfl)
    | with_reducible (first | exact Frame.refl | apply State.servo_frame | apply State.updTime_frame)
    | (intro _ hF; skip) | with_reducible assumption | (with_reducible refine Frame.ite (fun _ => ?_) (fun _ => ?_))

theorem State.ptpEventSend_frame {wt : Touch} {s0 s : State} (hw :
    ({ tsFifos := true, ports := true, waitTx := true, evt := true, telCtr := true, portCtr := true,
       timeCtr := true, rate := true, irq := true, out := true, free := true } : Touch).or wt = wt)
    (hK : Frame wt s0 s) (p : Nat) (b : List Byte) :
    Frame wt s0 (State.ptpEventSend s p b) := by
  refine Frame.step hK hw ?_
  unfold State.ptpEventSend
  (try dsimp only)
  repeat' first
    | ((with_reducible show Touch.or _ _ = _) <;> rfl)
    | with_reducible (first | exact Frame.refl | apply State.ptpOut_frame | apply State.sendClass_frame)
    | (with_reducible refine Frame.foldl _ (fun _ _ hF => ?_) _ ?_)
    | (intro _ hF; skip) | with_reducible assumption
    | (with_reducible refine Frame.ite (fun _ => ?_) (fun _ => ?_)) | split
    | fail_if_no_progress ((with_reducible apply Frame.fields); (case hq => rfl); (case hc => rfl))

theorem State.ptpOffset_frame {wt : Touch} {s0 s : State} (hw :
    ({ time := true, ptp := true, tsFifos := true, gates := true, lanes := true, groups := true,
       ports := true, prismBanks := true, prismFlight := true, hits := true, recirc := true, merge := true,
       gens := true, fwdFlight := true, em := true, learnQ := true, agePeriod := true, fwdCtr := true,
       cells := true, classes := true, portClass := true, wred := true, queues := true, spillVoqs := true,
       pools := true, bufCtr := true, pkts := true, nextPkt := true, fabParams := true, voqs := true,
       multiQ := true, pairs := true, fabPorts := true, links := true, fabCtr := true, nodes := true,
       egq := true, waitTx := true, pol := true, loupeProf := true, loupeQueue := true, loupeItems := true,
       schedCtr := true, frer := true, clusters := true, cores := true, flows := true, fix := true,
       fixCtr := true, pclasses := true, targets := true, drops := true, buses := true, notices := true,
       proofCtr := true, evt := true, mirrors := true, cand := true, mirQ := true, mirCtr := true,
       telCtr := true, dropCtr := true, portCtr := true, prismCtr := true, timeCtr := true, mbxCtr := true,
       pwrCtr := true, shares := true, rate := true, boxes := true, jobs := true, hist := true,
       heldEvents := true, sets := true, epoch := true, snapshot := true, heldShadow := true,
       peers := true, msgs := true, domBake := true, timeOffset := true, slices := true, warnC := true,
       regions := true, healthGen := true, margins := true, irq := true, out := true,
       free := true } : Touch).or wt = wt)
    (hK : Frame wt s0 s) (off : Int) :
    Frame wt s0 (State.ptpOffset s off) := by
  refine Frame.step hK hw ?_
  unfold State.ptpOffset
  (try dsimp only)
  repeat' first
    | ((with_reducible show Touch.or _ _ = _) <;> rfl)
    | with_reducible (first | exact Frame.refl | apply State.servo_frame)
    | (with_reducible refine Frame.foldl _ (fun _ _ hF => ?_) _ ?_)
    | (intro _ hF; skip) | with_reducible assumption
    | (with_reducible refine Frame.ite (fun _ => ?_) (fun _ => ?_)) | split
    | fail_if_no_progress ((with_reducible apply Frame.fields); (case hq => rfl); (case hc => rfl))

theorem State.relaySync_frame {wt : Touch} {s0 s : State} (hw :
    ({ tsFifos := true, ports := true, waitTx := true, evt := true, telCtr := true, portCtr := true,
       timeCtr := true, rate := true, irq := true, out := true, free := true } : Touch).or wt = wt)
    (hK : Frame wt s0 s) (origin : List Byte) (c : Int) (p : Nat) :
    Frame wt s0 (State.relaySync s origin c p) := by
  refine Frame.step hK hw ?_
  unfold State.relaySync
  (try dsimp only)
  repeat' first
    | ((with_reducible show Touch.or _ _ = _) <;> rfl)
    | with_reducible (first | exact Frame.refl | apply State.ptpEventSend_frame | apply State.updPtp_frame)
    | (with_reducible refine Frame.foldl _ (fun _ _ hF => ?_) _ ?_)
    | (intro _ hF; skip) | with_reducible assumption
    | (with_reducible refine Frame.ite (fun _ => ?_) (fun _ => ?_)) | split
    | fail_if_no_progress ((with_reducible apply Frame.fields); (case hq => rfl); (case hc => rfl))

theorem State.relayAll_frame {wt : Touch} {s0 s : State} (hw :
    ({ tsFifos := true, ports := true, waitTx := true, evt := true, telCtr := true, portCtr := true,
       timeCtr := true, rate := true, irq := true, out := true, free := true } : Touch).or wt = wt)
    (hK : Frame wt s0 s) (origin : List Byte) (c : Int) :
    Frame wt s0 (State.relayAll s origin c) := by
  refine Frame.step hK hw ?_
  unfold State.relayAll
  (try dsimp only)
  repeat' first
    | ((with_reducible show Touch.or _ _ = _) <;> rfl)
    | with_reducible (first | exact Frame.refl | apply State.relaySync_frame)
    | (with_reducible refine Frame.foldl _ (fun _ _ hF => ?_) _ ?_)
    | (intro _ hF; skip) | with_reducible assumption
    | (with_reducible refine Frame.ite (fun _ => ?_) (fun _ => ?_)) | split
    | fail_if_no_progress ((with_reducible apply Frame.fields); (case hq => rfl); (case hc => rfl))

theorem State.syncPair_frame {wt : Touch} {s0 s : State} (hw :
    ({ time := true, ptp := true, tsFifos := true, gates := true, lanes := true, groups := true,
       ports := true, prismBanks := true, prismFlight := true, hits := true, recirc := true, merge := true,
       gens := true, fwdFlight := true, em := true, learnQ := true, agePeriod := true, fwdCtr := true,
       cells := true, classes := true, portClass := true, wred := true, queues := true, spillVoqs := true,
       pools := true, bufCtr := true, pkts := true, nextPkt := true, fabParams := true, voqs := true,
       multiQ := true, pairs := true, fabPorts := true, links := true, fabCtr := true, nodes := true,
       egq := true, waitTx := true, pol := true, loupeProf := true, loupeQueue := true, loupeItems := true,
       schedCtr := true, frer := true, clusters := true, cores := true, flows := true, fix := true,
       fixCtr := true, pclasses := true, targets := true, drops := true, buses := true, notices := true,
       proofCtr := true, evt := true, mirrors := true, cand := true, mirQ := true, mirCtr := true,
       telCtr := true, dropCtr := true, portCtr := true, prismCtr := true, timeCtr := true, mbxCtr := true,
       pwrCtr := true, shares := true, rate := true, boxes := true, jobs := true, hist := true,
       heldEvents := true, sets := true, epoch := true, snapshot := true, heldShadow := true,
       peers := true, msgs := true, domBake := true, timeOffset := true, slices := true, warnC := true,
       regions := true, healthGen := true, margins := true, irq := true, out := true,
       free := true } : Touch).or wt = wt)
    (hK : Frame wt s0 s) (p : Nat) (rx : Int) (origin : List Byte) (corr : Int) :
    Frame wt s0 (State.syncPair s p rx origin corr) := by
  refine Frame.step hK hw ?_
  unfold State.syncPair
  (try dsimp only)
  repeat' first
    | ((with_reducible show Touch.or _ _ = _) <;> rfl)
    | with_reducible (first
        | exact Frame.refl | apply State.relayAll_frame | apply State.ptpOffset_frame | apply State.updPtp_frame)
    | (with_reducible refine Frame.foldl _ (fun _ _ hF => ?_) _ ?_)
    | (intro _ hF; skip) | with_reducible assumption
    | (with_reducible refine Frame.ite (fun _ => ?_) (fun _ => ?_)) | split
    | fail_if_no_progress ((with_reducible apply Frame.fields); (case hq => rfl); (case hc => rfl))

theorem State.setDelay_frame {wt : Touch} {s0 s : State} (hw :
    ({ ports := true } : Touch).or wt = wt)
    (hK : Frame wt s0 s) (p : Nat) (d : Int) :
    Frame wt s0 (State.setDelay s p d) := by
  refine Frame.step hK hw ?_
  unfold State.setDelay
  (try dsimp only)
  repeat' first
    | ((with_reducible show Touch.or _ _ = _) <;> rfl)
    | with_reducible (first | exact Frame.refl | apply State.updPtp_frame)
    | (with_reducible refine Frame.foldl _ (fun _ _ hF => ?_) _ ?_)
    | (intro _ hF; skip) | with_reducible assumption
    | (with_reducible refine Frame.ite (fun _ => ?_) (fun _ => ?_)) | split
    | fail_if_no_progress ((with_reducible apply Frame.fields); (case hq => rfl); (case hc => rfl))

theorem State.takeSync_frame {wt : Touch} {s0 s : State} (hw :
    ({ time := true, ptp := true, tsFifos := true, gates := true, lanes := true, groups := true,
       ports := true, prismBanks := true, prismFlight := true, hits := true, recirc := true, merge := true,
       gens := true, fwdFlight := true, em := true, learnQ := true, agePeriod := true, fwdCtr := true,
       cells := true, classes := true, portClass := true, wred := true, queues := true, spillVoqs := true,
       pools := true, bufCtr := true, pkts := true, nextPkt := true, fabParams := true, voqs := true,
       multiQ := true, pairs := true, fabPorts := true, links := true, fabCtr := true, nodes := true,
       egq := true, waitTx := true, pol := true, loupeProf := true, loupeQueue := true, loupeItems := true,
       schedCtr := true, frer := true, clusters := true, cores := true, flows := true, fix := true,
       fixCtr := true, pclasses := true, targets := true, drops := true, buses := true, notices := true,
       proofCtr := true, evt := true, mirrors := true, cand := true, mirQ := true, mirCtr := true,
       telCtr := true, dropCtr := true, portCtr := true, prismCtr := true, timeCtr := true, mbxCtr := true,
       pwrCtr := true, shares := true, rate := true, boxes := true, jobs := true, hist := true,
       heldEvents := true, sets := true, epoch := true, snapshot := true, heldShadow := true,
       peers := true, msgs := true, domBake := true, timeOffset := true, slices := true, warnC := true,
       regions := true, healthGen := true, margins := true, irq := true, out := true,
       free := true } : Touch).or wt = wt)
    (hK : Frame wt s0 s) (p : Nat) (m : PtpRx) :
    Frame wt s0 (State.takeSync s p m) := by
  refine Frame.step hK hw ?_
  unfold State.takeSync
  (try dsimp only)
  repeat' first
    | ((with_reducible show Touch.or _ _ = _) <;> rfl)
    | with_reducible (first | exact Frame.refl | apply State.syncPair_frame | apply State.updPtp_frame)
    | (with_reducible refine Frame.foldl _ (fun _ _ hF => ?_) _ ?_)
    | (intro _ hF; skip) | with_reducible assumption
    | (with_reducible refine Frame.ite (fun _ => ?_) (fun _ => ?_)) | split
    | fail_if_no_progress ((with_reducible apply Frame.fields); (case hq => rfl); (case hc => rfl))

theorem State.takeFollowUp_frame {wt : Touch} {s0 s : State} (hw :
    ({ time := true, ptp := true, tsFifos := true, gates := true, lanes := true, groups := true,
       ports := true, prismBanks := true, prismFlight := true, hits := true, recirc := true, merge := true,
       gens := true, fwdFlight := true, em := true, learnQ := true, agePeriod := true, fwdCtr := true,
       cells := true, classes := true, portClass := true, wred := true, queues := true, spillVoqs := true,
       pools := true, bufCtr := true, pkts := true, nextPkt := true, fabParams := true, voqs := true,
       multiQ := true, pairs := true, fabPorts := true, links := true, fabCtr := true, nodes := true,
       egq := true, waitTx := true, pol := true, loupeProf := true, loupeQueue := true, loupeItems := true,
       schedCtr := true, frer := true, clusters := true, cores := true, flows := true, fix := true,
       fixCtr := true, pclasses := true, targets := true, drops := true, buses := true, notices := true,
       proofCtr := true, evt := true, mirrors := true, cand := true, mirQ := true, mirCtr := true,
       telCtr := true, dropCtr := true, portCtr := true, prismCtr := true, timeCtr := true, mbxCtr := true,
       pwrCtr := true, shares := true, rate := true, boxes := true, jobs := true, hist := true,
       heldEvents := true, sets := true, epoch := true, snapshot := true, heldShadow := true,
       peers := true, msgs := true, domBake := true, timeOffset := true, slices := true, warnC := true,
       regions := true, healthGen := true, margins := true, irq := true, out := true,
       free := true } : Touch).or wt = wt)
    (hK : Frame wt s0 s) (p : Nat) (b : List Byte) :
    Frame wt s0 (State.takeFollowUp s p b) := by
  refine Frame.step hK hw ?_
  unfold State.takeFollowUp
  (try dsimp only)
  repeat' first
    | ((with_reducible show Touch.or _ _ = _) <;> rfl)
    | with_reducible (first | exact Frame.refl | apply State.syncPair_frame)
    | (with_reducible refine Frame.foldl _ (fun _ _ hF => ?_) _ ?_)
    | (intro _ hF; skip) | with_reducible assumption
    | (with_reducible refine Frame.ite (fun _ => ?_) (fun _ => ?_)) | split
    | fail_if_no_progress ((with_reducible apply Frame.fields); (case hq => rfl); (case hc => rfl))

theorem State.takeDelayReq_frame {wt : Touch} {s0 s : State} (hw :
    ({ waitTx := true, portCtr := true, out := true } : Touch).or wt = wt)
    (hK : Frame wt s0 s) (p : Nat) (m : PtpRx) :
    Frame wt s0 (State.takeDelayReq s p m) := by
  refine Frame.step hK hw ?_
  unfold State.takeDelayReq
  (try dsimp only)
  repeat' first
    | ((with_reducible show Touch.or _ _ = _) <;> rfl)
    | with_reducible (first | exact Frame.refl | apply State.ptpGeneral_frame)
    | (with_reducible refine Frame.foldl _ (fun _ _ hF => ?_) _ ?_)
    | (intro _ hF; skip) | with_reducible assumption
    | (with_reducible refine Frame.ite (fun _ => ?_) (fun _ => ?_)) | split
    | fail_if_no_progress ((with_reducible apply Frame.fields); (case hq => rfl); (case hc => rfl))

theorem State.takeDelayResp_frame {wt : Touch} {s0 s : State} (hw :
    ({ ports := true } : Touch).or wt = wt)
    (hK : Frame wt s0 s) (p : Nat) (b : List Byte) :
    Frame wt s0 (State.takeDelayResp s p b) := by
  refine Frame.step hK hw ?_
  unfold State.takeDelayResp
  (try dsimp only)
  repeat' first
    | ((with_reducible show Touch.or _ _ = _) <;> rfl)
    | with_reducible (first | exact Frame.refl | apply State.setDelay_frame)
    | (with_reducible refine Frame.foldl _ (fun _ _ hF => ?_) _ ?_)
    | (intro _ hF; skip) | with_reducible assumption
    | (with_reducible refine Frame.ite (fun _ => ?_) (fun _ => ?_)) | split
    | fail_if_no_progress ((with_reducible apply Frame.fields); (case hq => rfl); (case hc => rfl))

theorem State.takePdelayReq_frame {wt : Touch} {s0 s : State} (hw :
    ({ tsFifos := true, ports := true, waitTx := true, evt := true, telCtr := true, portCtr := true,
       timeCtr := true, rate := true, irq := true, out := true, free := true } : Touch).or wt = wt)
    (hK : Frame wt s0 s) (p : Nat) (m : PtpRx) :
    Frame wt s0 (State.takePdelayReq s p m) := by
  refine Frame.step hK hw ?_
  unfold State.takePdelayReq
  (try dsimp only)
  repeat' first
    | ((with_reducible show Touch.or _ _ = _) <;> rfl)
    | with_reducible (first | exact Frame.refl | apply State.ptpEventSend_frame | apply State.updPtp_frame)
    | (with_reducible refine Frame.foldl _ (fun _ _ hF => ?_) _ ?_)
    | (intro _ hF; skip) | with_reducible assumption
    | (with_reducible refine Frame.ite (fun _ => ?_) (fun _ => ?_)) | split
    | fail_if_no_progress ((with_reducible apply Frame.fields); (case hq => rfl); (case hc => rfl))

theorem State.takePdelayResp_frame {wt : Touch} {s0 s : State} (hw :
    ({ ports := true } : Touch).or wt = wt)
    (hK : Frame wt s0 s) (p : Nat) (m : PtpRx) :
    Frame wt s0 (State.takePdelayResp s p m) := by
  refine Frame.step hK hw ?_
  unfold State.takePdelayResp
  (try dsimp only)
  repeat' first
    | ((with_reducible show Touch.or _ _ = _) <;> rfl)
    | with_reducible (first | exact Frame.refl | apply State.setDelay_frame | apply State.updPtp_frame)
    | (with_reducible refine Frame.foldl _ (fun _ _ hF => ?_) _ ?_)
    | (intro _ hF; skip) | with_reducible assumption
    | (with_reducible refine Frame.ite (fun _ => ?_) (fun _ => ?_)) | split
    | fail_if_no_progress ((with_reducible apply Frame.fields); (case hq => rfl); (case hc => rfl))

theorem State.takePdelayFollow_frame {wt : Touch} {s0 s : State} (hw :
    ({ ports := true } : Touch).or wt = wt)
    (hK : Frame wt s0 s) (p : Nat) (b : List Byte) :
    Frame wt s0 (State.takePdelayFollow s p b) := by
  refine Frame.step hK hw ?_
  unfold State.takePdelayFollow
  (try dsimp only)
  repeat' first
    | ((with_reducible show Touch.or _ _ = _) <;> rfl)
    | with_reducible (first | exact Frame.refl | apply State.setDelay_frame)
    | (with_reducible refine Frame.foldl _ (fun _ _ hF => ?_) _ ?_)
    | (intro _ hF; skip) | with_reducible assumption
    | (with_reducible refine Frame.ite (fun _ => ?_) (fun _ => ?_)) | split
    | fail_if_no_progress ((with_reducible apply Frame.fields); (case hq => rfl); (case hc => rfl))

theorem State.takeAnnounce_frame {wt : Touch} {s0 s : State} (hw :
    ({ ports := true } : Touch).or wt = wt)
    (hK : Frame wt s0 s) (p : Nat) (b : List Byte) :
    Frame wt s0 (State.takeAnnounce s p b) := by
  refine Frame.step hK hw ?_
  unfold State.takeAnnounce
  (try dsimp only)
  repeat' first
    | ((with_reducible show Touch.or _ _ = _) <;> rfl)
    | with_reducible (first | exact Frame.refl | apply State.updPtp_frame)
    | (with_reducible refine Frame.foldl _ (fun _ _ hF => ?_) _ ?_)
    | (intro _ hF; skip) | with_reducible assumption
    | (with_reducible refine Frame.ite (fun _ => ?_) (fun _ => ?_)) | split
    | fail_if_no_progress ((with_reducible apply Frame.fields); (case hq => rfl); (case hc => rfl))

theorem State.ptpTake_frame {wt : Touch} {s0 s : State} (hw :
    ({ time := true, ptp := true, tsFifos := true, gates := true, lanes := true, groups := true,
       ports := true, prismBanks := true, prismFlight := true, hits := true, recirc := true, merge := true,
       gens := true, fwdFlight := true, em := true, learnQ := true, agePeriod := true, fwdCtr := true,
       cells := true, classes := true, portClass := true, wred := true, queues := true, spillVoqs := true,
       pools := true, bufCtr := true, pkts := true, nextPkt := true, fabParams := true, voqs := true,
       multiQ := true, pairs := true, fabPorts := true, links := true, fabCtr := true, nodes := true,
       egq := true, waitTx := true, pol := true, loupeProf := true, loupeQueue := true, loupeItems := true,
       schedCtr := true, frer := true, clusters := true, cores := true, flows := true, fix := true,
       fixCtr := true, pclasses := true, targets := true, drops := true, buses := true, notices := true,
       proofCtr := true, evt := true, mirrors := true, cand := true, mirQ := true, mirCtr := true,
       telCtr := true, dropCtr := true, portCtr := true, prismCtr := true, timeCtr := true, mbxCtr := true,
       pwrCtr := true, shares := true, rate := true, boxes := true, jobs := true, hist := true,
       heldEvents := true, sets := true, epoch := true, snapshot := true, heldShadow := true,
       peers := true, msgs := true, domBake := true, timeOffset := true, slices := true, warnC := true,
       regions := true, healthGen := true, margins := true, irq := true, out := true,
       free := true } : Touch).or wt = wt)
    (hK : Frame wt s0 s) (p : Nat) (m : PtpRx) :
    Frame wt s0 (State.ptpTake s p m) := by
  refine Frame.step hK hw ?_
  unfold State.ptpTake
  (try dsimp only)
  repeat' first
    | ((with_reducible show Touch.or _ _ = _) <;> rfl)
    | with_reducible (first
        | exact Frame.refl | apply State.takeAnnounce_frame | apply State.takePdelayReq_frame
        | apply State.takeDelayResp_frame | apply State.takeFollowUp_frame | apply State.takePdelayResp_frame
        | apply State.takeDelayReq_frame | apply State.takePdelayFollow_frame | apply State.takeSync_frame)
    | (with_reducible refine Frame.foldl _ (fun _ _ hF => ?_) _ ?_)
    | (intro _ hF; skip) | with_reducible assumption
    | (with_reducible refine Frame.ite (fun _ => ?_) (fun _ => ?_)) | split
    | fail_if_no_progress ((with_reducible apply Frame.fields); (case hq => rfl); (case hc => rfl))

theorem State.ptpSend_frame {wt : Touch} {s0 s : State} (hw : 
    ({ tsFifos := true, ports := true, waitTx := true, evt := true, telCtr := true, portCtr := true,
       timeCtr := true, rate := true, irq := true, out := true, free := true } : Touch).or wt = wt)
    (hK : Frame wt s0 s) (p : Nat) (ty : Nat) : Frame wt s0 (State.ptpSend s p ty) := by
  refine Frame.step hK hw ?_
  unfold State.ptpSend
  (try dsimp only)
  repeat' first
    | ((with_reducible show Touch.or _ _ = _) <;> rfl)
    | with_reducible (first
        | exact Frame.refl | apply State.bumpTime_frame | apply State.capture_frame | apply State.drawn_frame
        | apply State.emit_frame | apply State.ptpEventSend_frame | apply State.updPtp_frame)
    | (with_reducible refine Frame.ite (fun _ => ?_) (fun _ => ?_))

theorem execPtpMessageProcess_frame (port : Nat) (bytes : List Byte) (s : State) : OutFrame 
    ({ time := true, ptp := true, tsFifos := true, gates := true, lanes := true, groups := true,
       ports := true, prismBanks := true, prismFlight := true, hits := true, recirc := true, merge := true,
       gens := true, fwdFlight := true, em := true, learnQ := true, agePeriod := true, fwdCtr := true,
       cells := true, classes := true, portClass := true, wred := true, queues := true, spillVoqs := true,
       pools := true, bufCtr := true, pkts := true, nextPkt := true, fabParams := true, voqs := true,
       multiQ := true, pairs := true, fabPorts := true, links := true, fabCtr := true, nodes := true,
       egq := true, waitTx := true, pol := true, loupeProf := true, loupeQueue := true, loupeItems := true,
       schedCtr := true, frer := true, clusters := true, cores := true, flows := true, fix := true,
       fixCtr := true, pclasses := true, targets := true, drops := true, buses := true, notices := true,
       proofCtr := true, evt := true, mirrors := true, cand := true, mirQ := true, mirCtr := true,
       telCtr := true, dropCtr := true, portCtr := true, prismCtr := true, timeCtr := true, mbxCtr := true,
       pwrCtr := true, shares := true, rate := true, boxes := true, jobs := true, hist := true,
       heldEvents := true, sets := true, epoch := true, snapshot := true, heldShadow := true,
       peers := true, msgs := true, domBake := true, timeOffset := true, slices := true, warnC := true,
       regions := true, healthGen := true, margins := true, irq := true, out := true,
       free := true } : Touch) s (execPtpMessageProcess port bytes s) := by
  unfold execPtpMessageProcess
  (try dsimp only)
  repeat' first
    | with_reducible (first | exact OutFrame.fault _ _ | apply OutFrame.next)
    | ((with_reducible show Touch.or _ _ = _) <;> rfl)
    | with_reducible (first
        | exact Frame.refl | apply State.ptpSend_frame | apply State.updPort_frame | apply State.ptpTake_frame
        | apply State.updPtp_frame)
    | (intro _ hF; skip) | with_reducible assumption | (with_reducible refine Frame.ite (fun _ => ?_) (fun _ => ?_))
    | split

theorem State.ptpIntervals_frame {wt : Touch} {s0 s : State} (hw : 
    ({ tsFifos := true, ports := true, waitTx := true, evt := true, telCtr := true, portCtr := true,
       timeCtr := true, rate := true, irq := true, out := true, free := true } : Touch).or wt = wt)
    (hK : Frame wt s0 s) (p : Nat) : Frame wt s0 (State.ptpIntervals s p) := by
  refine Frame.step hK hw ?_
  unfold State.ptpIntervals
  (try dsimp only)
  repeat' first
    | ((with_reducible show Touch.or _ _ = _) <;> rfl)
    | with_reducible (first | exact Frame.refl | apply State.drawn_frame | apply State.ptpSend_frame)
    | (with_reducible refine Frame.foldl _ (fun _ _ hF => ?_) _ ?_) | (intro _ hF; skip) | with_reducible assumption
    | (with_reducible refine Frame.ite (fun _ => ?_) (fun _ => ?_))

theorem execPtpIntervalTick_frame (s : State) : OutFrame 
    ({ tsFifos := true, ports := true, waitTx := true, evt := true, telCtr := true, portCtr := true,
       timeCtr := true, rate := true, irq := true, out := true, free := true } : Touch) s (execPtpIntervalTick s) := by
  unfold execPtpIntervalTick
  (try dsimp only)
  repeat' first
    | with_reducible (first | exact OutFrame.fault _ _ | apply OutFrame.next)
    | ((with_reducible show Touch.or _ _ = _) <;> rfl)
    | with_reducible (first | exact Frame.refl | apply State.ptpIntervals_frame)
    | (with_reducible refine Frame.foldl _ (fun _ _ hF => ?_) _ ?_) | (intro _ hF; skip) | with_reducible assumption
    | (with_reducible refine Frame.ite (fun _ => ?_) (fun _ => ?_))

end Sys2Proof.Machine
end

