-- ==== Sys2Proof/Laws/FrameDevice.lean ====
section
/-! SUPPORT. What the operations of Device may change. -/

set_option Elab.async false
set_option linter.all false

namespace Sys2Proof.Machine

theorem execMbxDoorbell_frame (box : Nat) (ind : Option (List Byte)) (s : State) : OutFrame 
    ({ pools := true, bufCtr := true, waitTx := true, evt := true, telCtr := true, portCtr := true,
       mbxCtr := true, boxes := true, jobs := true, hist := true, peers := true, msgs := true, irq := true,
       out := true } : Touch) s (execMbxDoorbell box ind s) := by
  unfold execMbxDoorbell
  (try dsimp only [onMailbox])
  repeat' first
    | with_reducible (first | exact OutFrame.fault _ _ | apply OutFrame.next)
    | ((with_reducible show Touch.or _ _ = _) <;> rfl)
    | with_reducible (first
        | exact Frame.refl | apply State.reservedAccess_frame | apply State.submit_frame
        | apply State.writeCtrl_frame)
    | split

theorem execMbxRelease_frame (box : Nat) (s : State) : OutFrame 
    ({ boxes := true } : Touch) s (execMbxRelease box s) := by
  unfold execMbxRelease
  (try dsimp only [onMailbox])
  repeat' first
    | with_reducible (first | exact OutFrame.fault _ _ | apply OutFrame.next)
    | ((with_reducible show Touch.or _ _ = _) <;> rfl)
    | with_reducible (first
        | exact Frame.refl | apply State.reservedAccess_frame | apply State.updBox_frame
        | apply State.writeCtrl_frame)
    | (intro _ hF; skip) | with_reducible assumption | (with_reducible refine Frame.ite (fun _ => ?_) (fun _ => ?_))
    | split

theorem State.areaWrite_frame {wt : Touch} {s0 s : State} (hw : 
    ({ evt := true, telCtr := true, mbxCtr := true, boxes := true, irq := true, out := true } : Touch).or wt = wt)
    (hK : Frame wt s0 s) (box : Nat) (off : Nat) (b : List Byte) : Frame wt s0 (State.areaWrite s box off b) := by
  refine Frame.step hK hw ?_
  unfold State.areaWrite
  (try dsimp only)
  repeat' first
    | ((with_reducible show Touch.or _ _ = _) <;> rfl)
    | with_reducible (first
        | exact Frame.refl | apply State.bumpMbx_frame | apply State.protocolError_frame
        | apply State.reservedAccess_frame | apply State.updBox_frame)
    | (intro _ hF; skip) | with_reducible assumption | (with_reducible refine Frame.ite (fun _ => ?_) (fun _ => ?_))

theorem execMbxAreaWrite_frame (box : Nat) (off : Nat) (bytes : List Byte) (s : State) : OutFrame 
    ({ evt := true, telCtr := true, mbxCtr := true, boxes := true, irq := true, out := true } : Touch) s (execMbxAreaWrite box off bytes s) := by
  unfold execMbxAreaWrite
  (try dsimp only [onMailbox])
  repeat' first
    | with_reducible (first | exact OutFrame.fault _ _ | apply OutFrame.next)
    | ((with_reducible show Touch.or _ _ = _) <;> rfl)
    | with_reducible (first
        | exact Frame.refl | apply State.areaWrite_frame | apply State.reservedAccess_frame
        | apply State.writeCtrl_frame)
    | split

theorem devGetInfoBody_frame {wt : Touch} {s0 s : State} (hw : ({} : Touch).or wt = wt)
    (hK : Frame wt s0 s) (r : Req) : Frame wt s0 (devGetInfoBody r s).1 := by
  refine Frame.step hK hw ?_
  unfold devGetInfoBody
  (try dsimp only)
  repeat' first
    | ((with_reducible show Touch.or _ _ = _) <;> rfl)
    | with_reducible (first | exact Frame.refl | apply readCmd_frame) | (intro _ hF; skip)

theorem devGetResultBody_frame {wt : Touch} {s0 s : State} (hw : ({} : Touch).or wt = wt)
    (hK : Frame wt s0 s) (r : Req) : Frame wt s0 (devGetResultBody r s).1 := by
  refine Frame.step hK hw ?_
  unfold devGetResultBody
  (try dsimp only)
  repeat' first
    | ((with_reducible show Touch.or _ _ = _) <;> rfl)
    | with_reducible (first | exact Frame.refl | apply readCmd_frame) | (intro _ hF; skip)
    | (with_reducible refine Frame.ite (fun _ => ?_) (fun _ => ?_))

theorem devEchoBody_frame {wt : Touch} {s0 s : State} (hw : ({} : Touch).or wt = wt)
    (hK : Frame wt s0 s) (r : Req) : Frame wt s0 (devEchoBody r s).1 := by
  refine Frame.step hK hw ?_
  unfold devEchoBody
  (try dsimp only)
  repeat' first
    | ((with_reducible show Touch.or _ _ = _) <;> rfl)
    | with_reducible (first | exact Frame.refl | apply readCmd_frame) | (intro _ hF; skip)

theorem devGetCountersBody_frame {wt : Touch} {s0 s : State} (hw : ({} : Touch).or wt = wt)
    (hK : Frame wt s0 s) (r : Req) : Frame wt s0 (devGetCountersBody r s).1 := by
  refine Frame.step hK hw ?_
  unfold devGetCountersBody
  (try dsimp only)
  repeat' first
    | ((with_reducible show Touch.or _ _ = _) <;> rfl)
    | with_reducible (first | exact Frame.refl | apply readCmd_frame) | (intro _ hF; skip)

theorem devRestartBody_frame {wt : Touch} {s0 s : State} (hw : 
    ({ life := true } : Touch).or wt = wt)
    (hK : Frame wt s0 s) (r : Req) : Frame wt s0 (devRestartBody r s).1 := by
  refine Frame.step hK hw ?_
  unfold devRestartBody
  (try dsimp only)
  repeat' first
    | ((with_reducible show Touch.or _ _ = _) <;> rfl)
    | with_reducible (first | exact Frame.refl | apply errCmd_frame | apply okCmd_frame) | (intro _ hF; skip)
    | with_reducible assumption | (with_reducible refine Frame.ite (fun _ => ?_) (fun _ => ?_)) | split
    | fail_if_no_progress ((with_reducible apply Frame.fields); (case hq => rfl); (case hc => rfl))

theorem execDevGetInfo_frame (r : Req) (s : State) : OutFrame 
    ({ pools := true, bufCtr := true, waitTx := true, evt := true, telCtr := true, portCtr := true,
       mbxCtr := true, boxes := true, jobs := true, hist := true, peers := true, msgs := true, irq := true,
       out := true } : Touch) s (execDevGetInfo r s) := 
  mailboxCommand_frame rfl (fun _ => devGetInfoBody_frame rfl .refl r)

theorem execDevGetResult_frame (r : Req) (s : State) : OutFrame 
    ({ pools := true, bufCtr := true, waitTx := true, evt := true, telCtr := true, portCtr := true,
       mbxCtr := true, boxes := true, jobs := true, hist := true, peers := true, msgs := true, irq := true,
       out := true } : Touch) s (execDevGetResult r s) := 
  mailboxCommand_frame rfl (fun _ => devGetResultBody_frame rfl .refl r)

theorem execDevEcho_frame (r : Req) (s : State) : OutFrame 
    ({ pools := true, bufCtr := true, waitTx := true, evt := true, telCtr := true, portCtr := true,
       mbxCtr := true, boxes := true, jobs := true, hist := true, peers := true, msgs := true, irq := true,
       out := true } : Touch) s (execDevEcho r s) := 
  mailboxCommand_frame rfl (fun _ => devEchoBody_frame rfl .refl r)

theorem execDevGetCounters_frame (r : Req) (s : State) : OutFrame 
    ({ pools := true, bufCtr := true, waitTx := true, evt := true, telCtr := true, portCtr := true,
       mbxCtr := true, boxes := true, jobs := true, hist := true, peers := true, msgs := true, irq := true,
       out := true } : Touch) s (execDevGetCounters r s) := 
  mailboxCommand_frame rfl (fun _ => devGetCountersBody_frame rfl .refl r)

theorem State.answerLost_frame {wt : Touch} {s0 s : State} (hw : 
    ({ mbxCtr := true, boxes := true, irq := true, out := true } : Touch).or wt = wt)
    (hK : Frame wt s0 s) (b : Nat) : Frame wt s0 (State.answerLost s b) := by
  refine Frame.step hK hw ?_
  unfold State.answerLost
  (try dsimp only)
  repeat' first
    | ((with_reducible show Touch.or _ _ = _) <;> rfl)
    | with_reducible (first | exact Frame.refl | apply State.postBox_frame)
    | (with_reducible refine Frame.ite (fun _ => ?_) (fun _ => ?_))

theorem State.abortSet_frame {wt : Touch} {s0 s : State} (hw : 
    ({ prismBanks := true, gens := true, em := true, fwdCtr := true, evt := true, telCtr := true,
       heldEvents := true, sets := true, irq := true, out := true } : Touch).or wt = wt)
    (hK : Frame wt s0 s) (cause : Nat) (t : SetSt) : Frame wt s0 (State.abortSet s cause t) := by
  refine Frame.step hK hw ?_
  unfold State.abortSet
  (try dsimp only)
  repeat' first
    | ((with_reducible show Touch.or _ _ = _) <;> rfl)
    | with_reducible (first | exact Frame.refl | apply State.raiseUp_frame | apply State.unprepare_frame)
    | (intro _ hF; skip) | with_reducible assumption | (with_reducible refine Frame.ite (fun _ => ?_) (fun _ => ?_))
    | split | fail_if_no_progress ((with_reducible apply Frame.fields); (case hq => rfl); (case hc => rfl))

theorem State.forgetJobs_frame {wt : Touch} {s0 s : State} (hw : 
    ({ pools := true, bufCtr := true, evt := true, telCtr := true, jobs := true, hist := true,
       lostAsync := true, irq := true, out := true } : Touch).or wt = wt)
    (hK : Frame wt s0 s) : Frame wt s0 (State.forgetJobs s) := by
  refine Frame.step hK hw ?_
  unfold State.forgetJobs
  (try dsimp only)
  repeat' first
    | ((with_reducible show Touch.or _ _ = _) <;> rfl)
    | with_reducible (first | exact Frame.refl | apply State.freeBuf_frame)
    | (with_reducible refine Frame.foldl _ (fun _ _ hF => ?_) _ ?_) | (intro _ hF; skip) | with_reducible assumption
    | split | fail_if_no_progress ((with_reducible apply Frame.fields); (case hq => rfl); (case hc => rfl))

theorem State.startRestart_frame {wt : Touch} {s0 s : State} (hw : 
    ({ prismBanks := true, gens := true, em := true, fwdCtr := true, pools := true, bufCtr := true,
       evt := true, swp := true, telCtr := true, mbxCtr := true, boxes := true, jobs := true, hist := true,
       life := true, lostAsync := true, heldEvents := true, sets := true, peers := true, msgs := true,
       domBake := true, membership := true, fwdReqs := true, sessions := true, slices := true, irq := true,
       out := true } : Touch).or wt = wt) (hK : Frame wt s0 s) (cause : Nat) : Frame wt s0 (s.startRestart cause) := by
  refine hK.step hw ?_
  unfold State.startRestart
  extract_lets m a b c
  have ha : Frame 
    ({ prismBanks := true, gens := true, em := true, fwdCtr := true, pools := true, bufCtr := true,
       evt := true, swp := true, telCtr := true, mbxCtr := true, boxes := true, jobs := true, hist := true,
       life := true, lostAsync := true, heldEvents := true, sets := true, peers := true, msgs := true,
       domBake := true, membership := true, fwdReqs := true, sessions := true, slices := true, irq := true,
       out := true } : Touch) s a := .ofView rfl
  clear_value a
  have hb : Frame 
    ({ prismBanks := true, gens := true, em := true, fwdCtr := true, pools := true, bufCtr := true,
       evt := true, swp := true, telCtr := true, mbxCtr := true, boxes := true, jobs := true, hist := true,
       life := true, lostAsync := true, heldEvents := true, sets := true, peers := true, msgs := true,
       domBake := true, membership := true, fwdReqs := true, sessions := true, slices := true, irq := true,
       out := true } : Touch) s b :=
    State.forgetJobs_frame rfl (Frame.foldl _ (fun _ _ hk => State.answerLost_frame rfl hk _) _ ha)
  clear_value b
  have hc : Frame 
    ({ prismBanks := true, gens := true, em := true, fwdCtr := true, pools := true, bufCtr := true,
       evt := true, swp := true, telCtr := true, mbxCtr := true, boxes := true, jobs := true, hist := true,
       life := true, lostAsync := true, heldEvents := true, sets := true, peers := true, msgs := true,
       domBake := true, membership := true, fwdReqs := true, sessions := true, slices := true, irq := true,
       out := true } : Touch) s c := Frame.foldl _ (fun _ _ hk => State.abortSet_frame rfl hk _ _) _ hb
  clear_value c
  exact Frame.fields hc

theorem State.afterCommand_frame {wt : Touch} {s0 s : State} (hw : 
    ({ prismBanks := true, gens := true, em := true, fwdCtr := true, pools := true, bufCtr := true,
       evt := true, swp := true, telCtr := true, mbxCtr := true, boxes := true, jobs := true, hist := true,
       life := true, lostAsync := true, heldEvents := true, sets := true, peers := true, msgs := true,
       domBake := true, membership := true, fwdReqs := true, sessions := true, slices := true, irq := true,
       out := true } : Touch).or wt = wt)
    (hK : Frame wt s0 s) : Frame wt s0 (State.afterCommand s) := by
  refine Frame.step hK hw ?_
  unfold State.afterCommand
  (try dsimp only)
  repeat' first
    | ((with_reducible show Touch.or _ _ = _) <;> rfl)
    | with_reducible (first | exact Frame.refl | apply State.startRestart_frame)
    | (with_reducible refine Frame.ite (fun _ => ?_) (fun _ => ?_)) | split

theorem restartAfter_frame {wt : Touch} {s : State} {o : Host.Outcome State Fault Refusal} (hw : 
    ({ prismBanks := true, gens := true, em := true, fwdCtr := true, pools := true, bufCtr := true,
       evt := true, swp := true, telCtr := true, mbxCtr := true, boxes := true, jobs := true, hist := true,
       life := true, lostAsync := true, heldEvents := true, sets := true, peers := true, msgs := true,
       domBake := true, membership := true, fwdReqs := true, sessions := true, slices := true, irq := true,
       out := true } : Touch).or wt = wt)
    (h : OutFrame wt s o) : OutFrame wt s (restartAfter o) := by
  cases o with
  | next t => exact OutFrame.next (State.afterCommand_frame (Touch.le_trans rfl hw) (h.frame t rfl))
  | fault r => exact OutFrame.fault _ r
  | refused r => exact ⟨fun u hu => by cases hu⟩

theorem execDevRestart_frame (r : Req) (s : State) : OutFrame 
    ({ prismBanks := true, gens := true, em := true, fwdCtr := true, pools := true, bufCtr := true,
       waitTx := true, evt := true, swp := true, telCtr := true, portCtr := true, mbxCtr := true,
       boxes := true, jobs := true, hist := true, life := true, lostAsync := true, heldEvents := true,
       sets := true, peers := true, msgs := true, domBake := true, membership := true, fwdReqs := true,
       sessions := true, slices := true, irq := true, out := true } : Touch) s (execDevRestart r s) :=
  restartAfter_frame rfl (mailboxCommand_frame rfl (fun _ => devRestartBody_frame rfl .refl r))

theorem execMoarasWatchdog_frame (cause : Nat) (s : State) : OutFrame 
    ({ prismBanks := true, gens := true, em := true, fwdCtr := true, pools := true, bufCtr := true,
       evt := true, swp := true, telCtr := true, mbxCtr := true, boxes := true, jobs := true, hist := true,
       life := true, lostAsync := true, heldEvents := true, sets := true, peers := true, msgs := true,
       domBake := true, membership := true, fwdReqs := true, sessions := true, slices := true, irq := true,
       out := true } : Touch) s (execMoarasWatchdog cause s) := by
  unfold execMoarasWatchdog
  (try dsimp only)
  repeat' first
    | with_reducible (first | exact OutFrame.fault _ _ | apply OutFrame.next)
    | ((with_reducible show Touch.or _ _ = _) <;> rfl)
    | with_reducible (first | exact Frame.refl | apply State.startRestart_frame)
    | (with_reducible refine Frame.ite (fun _ => ?_) (fun _ => ?_))

theorem State.reviveMp_frame {wt : Touch} {s0 s : State} (hw : 
    ({ mps := true, free := true } : Touch).or wt = wt)
    (hK : Frame wt s0 s) : Frame wt s0 (State.reviveMp s) := by
  refine Frame.step hK hw ?_
  unfold State.reviveMp
  (try dsimp only)
  repeat' first
    | ((with_reducible show Touch.or _ _ = _) <;> rfl)
    | with_reducible (first | exact Frame.refl | apply State.drawn_frame | apply State.updMp_frame)
    | (intro _ hF; skip) | with_reducible assumption | (with_reducible refine Frame.ite (fun _ => ?_) (fun _ => ?_))

theorem State.flushHeld_frame {wt : Touch} {s0 s : State} (hw : 
    ({ evt := true, telCtr := true, heldEvents := true, irq := true, out := true } : Touch).or wt = wt)
    (hK : Frame wt s0 s) : Frame wt s0 (State.flushHeld s) := by
  refine Frame.step hK hw ?_
  unfold State.flushHeld
  (try dsimp only)
  repeat' first
    | ((with_reducible show Touch.or _ _ = _) <;> rfl)
    | with_reducible (first | exact Frame.refl | apply State.raise_frame)
    | (with_reducible refine Frame.foldl _ (fun _ _ hF => ?_) _ ?_) | (intro _ hF; skip) | with_reducible assumption
    | split | fail_if_no_progress ((with_reducible apply Frame.fields); (case hq => rfl); (case hc => rfl))

theorem State.backUp_frame {wt : Touch} {s0 s : State} (hw : 
    ({ evt := true, telCtr := true, life := true, lostAsync := true, heldEvents := true, irq := true,
       out := true } : Touch).or wt = wt)
    (hK : Frame wt s0 s) (cause : Nat) : Frame wt s0 (State.backUp s cause) := by
  refine Frame.step hK hw ?_
  unfold State.backUp
  (try dsimp only)
  repeat' first
    | ((with_reducible show Touch.or _ _ = _) <;> rfl)
    | with_reducible (first
        | exact Frame.refl | apply State.asyncDone_frame | apply State.flushHeld_frame | apply State.raise_frame)
    | (with_reducible refine Frame.foldl _ (fun _ _ hF => ?_) _ ?_) | (intro _ hF; skip) | with_reducible assumption
    | split | fail_if_no_progress ((with_reducible apply Frame.fields); (case hq => rfl); (case hc => rfl))

theorem State.linksOff_frame {wt : Touch} {s0 s : State} (hw :
    ({ lanes := true, ports := true, fwdCtr := true, bufCtr := true, pkts := true, nextPkt := true,
       pairs := true, fabPorts := true, fabCtr := true, nodes := true, egq := true, waitTx := true,
       schedCtr := true, evt := true, mirrors := true, cand := true, mirQ := true, mirCtr := true,
       telCtr := true, dropCtr := true, portCtr := true, prismCtr := true, timeCtr := true, shares := true,
       healthGen := true, irq := true, out := true, free := true } : Touch).or wt = wt)
    (hK : Frame wt s0 s)  :
    Frame wt s0 (State.linksOff s) := by
  refine Frame.step hK hw ?_
  unfold State.linksOff
  (try dsimp only)
  repeat' first
    | ((with_reducible show Touch.or _ _ = _) <;> rfl)
    | with_reducible (first | exact Frame.refl | apply State.linkDown_frame)
    | (with_reducible refine Frame.foldl _ (fun _ _ hF => ?_) _ ?_)
    | (intro _ hF; skip) | with_reducible assumption
    | (with_reducible refine Frame.ite (fun _ => ?_) (fun _ => ?_)) | split
    | fail_if_no_progress ((with_reducible apply Frame.fields); (case hq => rfl); (case hc => rfl))

theorem State.endRestart_frame {wt : Touch} {s0 s : State} (hw : 
    ({ time := true, lanes := true, ports := true, fwdCtr := true, bufCtr := true, pkts := true,
       nextPkt := true, pairs := true, fabPorts := true, fabCtr := true, nodes := true, egq := true,
       waitTx := true, schedCtr := true, fix := true, fixCtr := true, evt := true, mirrors := true,
       cand := true, mirQ := true, mirCtr := true, telCtr := true, dropCtr := true, portCtr := true,
       prismCtr := true, timeCtr := true, shares := true, rate := true, life := true, lostAsync := true,
       heldEvents := true, slots := true, bootCfg := true, image := true, mps := true, healthGen := true,
       irq := true, out := true, free := true } : Touch).or wt = wt)
    (hK : Frame wt s0 s) (cause : Nat) : Frame wt s0 (State.endRestart s cause) := by
  refine Frame.step hK hw ?_
  unfold State.endRestart
  (try dsimp only)
  repeat' first
    | ((with_reducible show Touch.or _ _ = _) <;> rfl)
    | with_reducible (first
        | exact Frame.refl | apply State.backUp_frame | apply State.fixKeyChange_frame
        | apply State.moarasBoot_frame | apply State.reviveMp_frame | apply State.sourceLost_frame
        | apply State.healthSince_frame | apply State.linksOff_frame)
    | (with_reducible refine Frame.ite (fun _ => ?_) (fun _ => ?_))

theorem execMoarasRestartDone_frame (s : State) : OutFrame 
    ({ time := true, lanes := true, ports := true, fwdCtr := true, bufCtr := true, pkts := true,
       nextPkt := true, pairs := true, fabPorts := true, fabCtr := true, nodes := true, egq := true,
       waitTx := true, schedCtr := true, fix := true, fixCtr := true, evt := true, mirrors := true,
       cand := true, mirQ := true, mirCtr := true, telCtr := true, dropCtr := true, portCtr := true,
       prismCtr := true, timeCtr := true, shares := true, rate := true, life := true, lostAsync := true,
       heldEvents := true, slots := true, bootCfg := true, image := true, mps := true, healthGen := true,
       irq := true, out := true, free := true } : Touch) s (execMoarasRestartDone s) := by
  unfold execMoarasRestartDone
  (try dsimp only)
  repeat' first
    | with_reducible (first | exact OutFrame.fault _ _ | apply OutFrame.next)
    | ((with_reducible show Touch.or _ _ = _) <;> rfl)
    | with_reducible (first | exact Frame.refl | apply State.endRestart_frame)
    | (with_reducible refine Frame.ite (fun _ => ?_) (fun _ => ?_)) | split

end Sys2Proof.Machine
end

