-- ==== Sys2Proof/Laws/FrameIdentity.lean ====
section
/-! SUPPORT. What the operations of Identity may change. -/

set_option Elab.async false
set_option linter.all false

namespace Sys2Proof.Machine

theorem idGetInfoBody_frame {wt : Touch} {s0 s : State} (hw : ({} : Touch).or wt = wt)
    (hK : Frame wt s0 s) (r : Req) : Frame wt s0 (idGetInfoBody r s).1 := by
  refine Frame.step hK hw ?_
  unfold idGetInfoBody
  (try dsimp only)
  repeat' first
    | ((with_reducible show Touch.or _ _ = _) <;> rfl)
    | with_reducible (first | exact Frame.refl | apply readCmd_frame) | (intro _ hF; skip)

theorem idGetCertBody_frame {wt : Touch} {s0 s : State} (hw : ({} : Touch).or wt = wt)
    (hK : Frame wt s0 s) (r : Req) : Frame wt s0 (idGetCertBody r s).1 := by
  refine Frame.step hK hw ?_
  unfold idGetCertBody
  (try dsimp only)
  repeat' first
    | ((with_reducible show Touch.or _ _ = _) <;> rfl)
    | with_reducible (first | exact Frame.refl | apply readCmd_frame) | (intro _ hF; skip)
    | (with_reducible refine Frame.ite (fun _ => ?_) (fun _ => ?_))

theorem idGetMeasurementsBody_frame {wt : Touch} {s0 s : State} (hw : ({} : Touch).or wt = wt)
    (hK : Frame wt s0 s) (r : Req) : Frame wt s0 (idGetMeasurementsBody r s).1 := by
  refine Frame.step hK hw ?_
  unfold idGetMeasurementsBody
  (try dsimp only)
  repeat' first
    | ((with_reducible show Touch.or _ _ = _) <;> rfl)
    | with_reducible (first | exact Frame.refl | apply readCmd_frame) | (intro _ hF; skip)

theorem idWriteImageBody_frame {wt : Touch} {s0 s : State} (hw : 
    ({ slots := true, free := true } : Touch).or wt = wt)
    (hK : Frame wt s0 s) (r : Req) : Frame wt s0 (idWriteImageBody r s).1 := by
  refine Frame.step hK hw ?_
  unfold idWriteImageBody State.updIdent IdSt.setSlot
  (try dsimp only)
  repeat' first
    | ((with_reducible show Touch.or _ _ = _) <;> rfl)
    | with_reducible (first | exact Frame.refl | apply State.drawn_frame | apply errCmd_frame | apply okCmd_frame)
    | (intro _ hF; skip) | with_reducible assumption | (with_reducible refine Frame.ite (fun _ => ?_) (fun _ => ?_))
    | split | fail_if_no_progress ((with_reducible apply Frame.fields); (case hq => rfl); (case hc => rfl))

theorem idVerifyImageBody_frame {wt : Touch} {s0 s : State} (hw : 
    ({ slots := true } : Touch).or wt = wt)
    (hK : Frame wt s0 s) (r : Req) : Frame wt s0 (idVerifyImageBody r s).1 := by
  refine Frame.step hK hw ?_
  unfold idVerifyImageBody State.updIdent IdSt.setSlot
  (try dsimp only)
  repeat' first
    | ((with_reducible show Touch.or _ _ = _) <;> rfl)
    | with_reducible (first | exact Frame.refl | apply errCmd_frame | apply okCmd_frame) | (intro _ hF; skip)
    | with_reducible assumption | (with_reducible refine Frame.ite (fun _ => ?_) (fun _ => ?_)) | split
    | fail_if_no_progress ((with_reducible apply Frame.fields); (case hq => rfl); (case hc => rfl))

theorem idSetBootBody_frame {wt : Touch} {s0 s : State} (hw : 
    ({ bootCfg := true } : Touch).or wt = wt)
    (hK : Frame wt s0 s) (r : Req) : Frame wt s0 (idSetBootBody r s).1 := by
  refine Frame.step hK hw ?_
  unfold idSetBootBody State.updIdent IdSt.writeCfg IdSt.putCfg
  (try dsimp only)
  repeat' first
    | ((with_reducible show Touch.or _ _ = _) <;> rfl)
    | with_reducible (first | exact Frame.refl | apply errCmd_frame | apply okCmd_frame) | (intro _ hF; skip)
    | with_reducible assumption | (with_reducible refine Frame.ite (fun _ => ?_) (fun _ => ?_)) | split
    | fail_if_no_progress ((with_reducible apply Frame.fields); (case hq => rfl); (case hc => rfl))

theorem idCommitSvnBody_frame {wt : Touch} {s0 s : State} (hw : 
    ({ evt := true, telCtr := true, minSvn := true, irq := true, out := true } : Touch).or wt = wt)
    (hK : Frame wt s0 s) (r : Req) : Frame wt s0 (idCommitSvnBody r s).1 := by
  refine Frame.step hK hw ?_
  unfold idCommitSvnBody State.updIdent
  (try dsimp only)
  repeat' first
    | ((with_reducible show Touch.or _ _ = _) <;> rfl)
    | with_reducible (first | exact Frame.refl | apply errCmd_frame | apply okCmd_frame | apply State.raise_frame)
    | (intro _ hF; skip) | with_reducible assumption | (with_reducible refine Frame.ite (fun _ => ?_) (fun _ => ?_))
    | split | fail_if_no_progress ((with_reducible apply Frame.fields); (case hq => rfl); (case hc => rfl))

theorem idPinManagerBody_frame {wt : Touch} {s0 s : State} (hw : 
    ({ pin := true } : Touch).or wt = wt)
    (hK : Frame wt s0 s) (r : Req) : Frame wt s0 (idPinManagerBody r s).1 := by
  refine Frame.step hK hw ?_
  unfold idPinManagerBody State.updIdent
  (try dsimp only)
  repeat' first
    | ((with_reducible show Touch.or _ _ = _) <;> rfl)
    | with_reducible (first | exact Frame.refl | apply errCmd_frame | apply okCmd_frame) | (intro _ hF; skip)
    | with_reducible assumption | (with_reducible refine Frame.ite (fun _ => ?_) (fun _ => ?_)) | split
    | fail_if_no_progress ((with_reducible apply Frame.fields); (case hq => rfl); (case hc => rfl))

theorem execIdGetInfo_frame (r : Req) (s : State) : OutFrame 
    ({ pools := true, bufCtr := true, waitTx := true, evt := true, telCtr := true, portCtr := true,
       mbxCtr := true, boxes := true, jobs := true, hist := true, peers := true, msgs := true, irq := true,
       out := true } : Touch) s (execIdGetInfo r s) := 
  mailboxCommand_frame rfl (fun _ => idGetInfoBody_frame rfl .refl r)

theorem execIdGetCert_frame (r : Req) (s : State) : OutFrame 
    ({ pools := true, bufCtr := true, waitTx := true, evt := true, telCtr := true, portCtr := true,
       mbxCtr := true, boxes := true, jobs := true, hist := true, peers := true, msgs := true, irq := true,
       out := true } : Touch) s (execIdGetCert r s) := 
  mailboxCommand_frame rfl (fun _ => idGetCertBody_frame rfl .refl r)

theorem execIdGetMeasurements_frame (r : Req) (s : State) : OutFrame 
    ({ pools := true, bufCtr := true, waitTx := true, evt := true, telCtr := true, portCtr := true,
       mbxCtr := true, boxes := true, jobs := true, hist := true, peers := true, msgs := true, irq := true,
       out := true } : Touch) s (execIdGetMeasurements r s) :=
  mailboxCommand_frame rfl (fun _ => idGetMeasurementsBody_frame rfl .refl r)

theorem execIdWriteImage_frame (r : Req) (s : State) : OutFrame 
    ({ pools := true, bufCtr := true, waitTx := true, evt := true, telCtr := true, portCtr := true,
       mbxCtr := true, boxes := true, jobs := true, hist := true, peers := true, msgs := true,
       slots := true, irq := true, out := true, free := true } : Touch) s
    (execIdWriteImage r s) :=
  mailboxCommand_frame rfl (fun _ => idWriteImageBody_frame rfl .refl r)

theorem execIdVerifyImage_frame (r : Req) (s : State) : OutFrame 
    ({ pools := true, bufCtr := true, waitTx := true, evt := true, telCtr := true, portCtr := true,
       mbxCtr := true, boxes := true, jobs := true, hist := true, peers := true, msgs := true,
       slots := true, irq := true, out := true } : Touch) s
    (execIdVerifyImage r s) :=
  mailboxCommand_frame rfl (fun _ => idVerifyImageBody_frame rfl .refl r)

theorem execIdSetBoot_frame (r : Req) (s : State) : OutFrame 
    ({ pools := true, bufCtr := true, waitTx := true, evt := true, telCtr := true, portCtr := true,
       mbxCtr := true, boxes := true, jobs := true, hist := true, peers := true, msgs := true,
       bootCfg := true, irq := true, out := true } : Touch) s
    (execIdSetBoot r s) :=
  mailboxCommand_frame rfl (fun _ => idSetBootBody_frame rfl .refl r)

theorem execIdCommitSvn_frame (r : Req) (s : State) : OutFrame 
    ({ pools := true, bufCtr := true, waitTx := true, evt := true, telCtr := true, portCtr := true,
       mbxCtr := true, boxes := true, jobs := true, hist := true, peers := true, msgs := true,
       minSvn := true, irq := true, out := true } : Touch) s
    (execIdCommitSvn r s) :=
  mailboxCommand_frame rfl (fun _ => idCommitSvnBody_frame rfl .refl r)

theorem execIdPinManager_frame (r : Req) (s : State) : OutFrame 
    ({ pools := true, bufCtr := true, waitTx := true, evt := true, telCtr := true, portCtr := true,
       mbxCtr := true, boxes := true, jobs := true, hist := true, peers := true, msgs := true, pin := true,
       irq := true, out := true } : Touch) s (execIdPinManager
    r s) :=
  mailboxCommand_frame rfl (fun _ => idPinManagerBody_frame rfl .refl r)

end Sys2Proof.Machine
end

