-- ==== Sys2Proof/Laws/FrameSpdm.lean ====
section
/-! SUPPORT. What the operations of Spdm may change. -/

set_option Elab.async false
set_option linter.all false

namespace Sys2Proof.Machine

theorem State.putSession_frame {wt : Touch} {s0 s : State} (hw :
    ({ sessions := true } : Touch).or wt = wt)
    (hK : Frame wt s0 s) (t : Nat) (x : SpdmSession) : Frame wt s0 (State.putSession s t x) := by
  refine Frame.step hK hw ?_
  unfold State.putSession State.updIdent IdSt.setSessions
  (try dsimp only)
  repeat' first
    | ((with_reducible show Touch.or _ _ = _) <;> rfl)
    | with_reducible (first | exact Frame.refl)
    | (with_reducible refine Frame.ite (fun _ => ?_) (fun _ => ?_)) | split
    | fail_if_no_progress ((with_reducible apply Frame.fields); (case hq => rfl); (case hc => rfl))

theorem State.endSession_frame {wt : Touch} {s0 s : State} (hw :
    ({ sessions := true } : Touch).or wt = wt)
    (hK : Frame wt s0 s) (t : Nat) (id : Nat) : Frame wt s0 (State.endSession s t id) := by
  refine Frame.step hK hw ?_
  unfold State.endSession State.updIdent IdSt.setSessions
  (try dsimp only)
  repeat' first
    | ((with_reducible show Touch.or _ _ = _) <;> rfl)
    | with_reducible (first | exact Frame.refl)
    | (with_reducible refine Frame.ite (fun _ => ?_) (fun _ => ?_)) | split
    | fail_if_no_progress ((with_reducible apply Frame.fields); (case hq => rfl); (case hc => rfl))

theorem State.updLog_frame {wt : Touch} {s0 s : State} (hw :
    ({ sessions := true } : Touch).or wt = wt)
    (hK : Frame wt s0 s) (t : Nat) (f : SpdmLog → SpdmLog) : Frame wt s0 (State.updLog s t f) := by
  refine Frame.step hK hw ?_
  unfold State.updLog State.updIdent
  (try dsimp only)
  repeat' first
    | ((with_reducible show Touch.or _ _ = _) <;> rfl)
    | with_reducible (first | exact Frame.refl)
    | (with_reducible refine Frame.ite (fun _ => ?_) (fun _ => ?_)) | split
    | fail_if_no_progress ((with_reducible apply Frame.fields); (case hq => rfl); (case hc => rfl))

theorem State.spdmVersion_frame {wt : Touch} {s0 s : State} (hw :
    ({ sessions := true } : Touch).or wt = wt)
    (hK : Frame wt s0 s) (t : Nat) (b : List Byte) : Frame wt s0 (State.spdmVersion s t b).1 := by
  refine Frame.step hK hw ?_
  unfold State.spdmVersion State.updIdent
  (try dsimp only)
  repeat' first
    | ((with_reducible show Touch.or _ _ = _) <;> rfl)
    | with_reducible (first | exact Frame.refl | apply State.updLog_frame)
    | (with_reducible refine Frame.ite (fun _ => ?_) (fun _ => ?_)) | split
    | fail_if_no_progress ((with_reducible apply Frame.fields); (case hq => rfl); (case hc => rfl))

theorem State.spdmCaps_frame {wt : Touch} {s0 s : State} (hw :
    ({ sessions := true } : Touch).or wt = wt)
    (hK : Frame wt s0 s) (t : Nat) (ver : Nat) (b : List Byte) : Frame wt s0 (State.spdmCaps s t ver b).1 := by
  refine Frame.step hK hw ?_
  unfold State.spdmCaps State.updIdent
  (try dsimp only)
  repeat' first
    | ((with_reducible show Touch.or _ _ = _) <;> rfl)
    | with_reducible (first | exact Frame.refl | apply State.updLog_frame)
    | (with_reducible refine Frame.ite (fun _ => ?_) (fun _ => ?_)) | split
    | fail_if_no_progress ((with_reducible apply Frame.fields); (case hq => rfl); (case hc => rfl))

theorem State.spdmAlgs_frame {wt : Touch} {s0 s : State} (hw :
    ({ sessions := true } : Touch).or wt = wt)
    (hK : Frame wt s0 s) (t : Nat) (ver : Nat) (b : List Byte) : Frame wt s0 (State.spdmAlgs s t ver b).1 := by
  refine Frame.step hK hw ?_
  unfold State.spdmAlgs State.updIdent
  (try dsimp only)
  repeat' first
    | ((with_reducible show Touch.or _ _ = _) <;> rfl)
    | with_reducible (first | exact Frame.refl | apply State.updLog_frame)
    | (with_reducible refine Frame.ite (fun _ => ?_) (fun _ => ?_)) | split
    | fail_if_no_progress ((with_reducible apply Frame.fields); (case hq => rfl); (case hc => rfl))

theorem State.spdmChallenge_frame {wt : Touch} {s0 s : State} (hw :
    ({ sessions := true, free := true } : Touch).or wt = wt)
    (hK : Frame wt s0 s) (t : Nat) (ver : Nat) (b : List Byte) : Frame wt s0 (State.spdmChallenge s t ver b).1 := by
  refine Frame.step hK hw ?_
  unfold State.spdmChallenge
  (try dsimp only)
  repeat' first
    | ((with_reducible show Touch.or _ _ = _) <;> rfl)
    | with_reducible (first | exact Frame.refl | apply State.drawn_frame | apply State.updLog_frame)
    | (with_reducible refine Frame.ite (fun _ => ?_) (fun _ => ?_)) | split
    | fail_if_no_progress ((with_reducible apply Frame.fields); (case hq => rfl); (case hc => rfl))

theorem State.spdmMeasure_frame {wt : Touch} {s0 s : State} (hw :
    ({ free := true } : Touch).or wt = wt)
    (hK : Frame wt s0 s) (t : Nat) (ver : Nat) (b : List Byte) (m : List Byte) : Frame wt s0 (State.spdmMeasure s t ver b m).1.1 := by
  refine Frame.step hK hw ?_
  unfold State.spdmMeasure
  (try dsimp only)
  repeat' first
    | ((with_reducible show Touch.or _ _ = _) <;> rfl)
    | with_reducible (first | exact Frame.refl | apply State.drawn_frame)
    | (with_reducible refine Frame.ite (fun _ => ?_) (fun _ => ?_)) | split
    | fail_if_no_progress ((with_reducible apply Frame.fields); (case hq => rfl); (case hc => rfl))

theorem State.spdmKeyExchange_frame {wt : Touch} {s0 s : State} (hw :
    ({ sessions := true, free := true } : Touch).or wt = wt)
    (hK : Frame wt s0 s) (t : Nat) (ver : Nat) (b : List Byte) : Frame wt s0 (State.spdmKeyExchange s t ver b).1 := by
  refine Frame.step hK hw ?_
  unfold State.spdmKeyExchange State.updIdent IdSt.setSessions
  (try dsimp only)
  repeat' first
    | ((with_reducible show Touch.or _ _ = _) <;> rfl)
    | with_reducible (first | exact Frame.refl | apply State.drawn_frame)
    | (with_reducible refine Frame.ite (fun _ => ?_) (fun _ => ?_)) | split
    | fail_if_no_progress ((with_reducible apply Frame.fields); (case hq => rfl); (case hc => rfl))

theorem State.spdmFinish_frame {wt : Touch} {s0 s : State} (hw :
    ({ evt := true, telCtr := true, sessions := true, irq := true, out := true, free := true } : Touch).or wt = wt)
    (hK : Frame wt s0 s) (t : Nat) (x : SpdmSession) (b : List Byte) : Frame wt s0 (State.spdmFinish s t x b).1 := by
  refine Frame.step hK hw ?_
  unfold State.spdmFinish
  (try dsimp only)
  repeat' first
    | ((with_reducible show Touch.or _ _ = _) <;> rfl)
    | with_reducible (first
        | exact Frame.refl | apply State.endSession_frame | apply State.spdmFail_frame
        | apply State.putSession_frame)
    | (with_reducible refine Frame.ite (fun _ => ?_) (fun _ => ?_)) | split
    | fail_if_no_progress ((with_reducible apply Frame.fields); (case hq => rfl); (case hc => rfl))

theorem State.spdmKeyUpdate_frame {wt : Touch} {s0 s : State} (hw :
    ({ sessions := true } : Touch).or wt = wt)
    (hK : Frame wt s0 s) (t : Nat) (x : SpdmSession) (b : List Byte) : Frame wt s0 (State.spdmKeyUpdate s t x b).1 := by
  refine Frame.step hK hw ?_
  unfold State.spdmKeyUpdate
  (try dsimp only)
  repeat' first
    | ((with_reducible show Touch.or _ _ = _) <;> rfl)
    | with_reducible (first | exact Frame.refl | apply State.putSession_frame)
    | (with_reducible refine Frame.ite (fun _ => ?_) (fun _ => ?_)) | split
    | fail_if_no_progress ((with_reducible apply Frame.fields); (case hq => rfl); (case hc => rfl))

theorem State.spdmEvidence_frame {wt : Touch} {s0 s : State} (hw :
    ({ sessions := true, free := true } : Touch).or wt = wt)
    (hK : Frame wt s0 s) (t : Nat) (ver : Nat) (code : Nat) (b : List Byte) : Frame wt s0 (State.spdmEvidence s t ver code b).1 := by
  refine Frame.step hK hw ?_
  unfold State.spdmEvidence
  (try dsimp only)
  repeat' first
    | ((with_reducible show Touch.or _ _ = _) <;> rfl)
    | with_reducible (first
        | exact Frame.refl | apply State.spdmChallenge_frame | apply State.spdmKeyExchange_frame
        | apply State.updLog_frame | apply State.spdmMeasure_frame)
    | (with_reducible refine Frame.ite (fun _ => ?_) (fun _ => ?_)) | split
    | fail_if_no_progress ((with_reducible apply Frame.fields); (case hq => rfl); (case hc => rfl))

theorem State.spdmClear_frame {wt : Touch} {s0 s : State} (hw :
    ({ sessions := true, free := true } : Touch).or wt = wt)
    (hK : Frame wt s0 s) (t : Nat) (b : List Byte) : Frame wt s0 (State.spdmClear s t b).1 := by
  refine Frame.step hK hw ?_
  unfold State.spdmClear
  (try dsimp only)
  repeat' first
    | ((with_reducible show Touch.or _ _ = _) <;> rfl)
    | with_reducible (first
        | exact Frame.refl | apply State.spdmAlgs_frame | apply State.spdmCaps_frame | apply State.spdmVersion_frame
        | apply State.spdmEvidence_frame)
    | (with_reducible refine Frame.ite (fun _ => ?_) (fun _ => ?_)) | split
    | fail_if_no_progress ((with_reducible apply Frame.fields); (case hq => rfl); (case hc => rfl))

theorem State.spdmWithin_frame {wt : Touch} {s0 s : State} (hw :
    ({ evt := true, telCtr := true, sessions := true, irq := true, out := true, free := true } : Touch).or wt = wt)
    (hK : Frame wt s0 s) (t : Nat) (x : SpdmSession) (b : List Byte) : Frame wt s0 (State.spdmWithin s t x b).1 := by
  refine Frame.step hK hw ?_
  unfold State.spdmWithin
  (try dsimp only)
  repeat' first
    | ((with_reducible show Touch.or _ _ = _) <;> rfl)
    | with_reducible (first
        | exact Frame.refl | apply State.endSession_frame | apply State.putSession_frame
        | apply State.spdmFinish_frame | apply State.spdmKeyUpdate_frame | apply State.spdmMeasure_frame)
    | (with_reducible refine Frame.ite (fun _ => ?_) (fun _ => ?_)) | split
    | fail_if_no_progress ((with_reducible apply Frame.fields); (case hq => rfl); (case hc => rfl))

theorem State.countSealed_frame {wt : Touch} {s0 s : State} (hw :
    ({ sessions := true } : Touch).or wt = wt)
    (hK : Frame wt s0 s) (t : Nat) (x : SpdmSession) (code : Nat) : Frame wt s0 (State.countSealed s t x code) := by
  refine Frame.step hK hw ?_
  unfold State.countSealed State.updIdent IdSt.setSessions
  (try dsimp only)
  repeat' first
    | ((with_reducible show Touch.or _ _ = _) <;> rfl)
    | with_reducible (first | exact Frame.refl)
    | (with_reducible refine Frame.ite (fun _ => ?_) (fun _ => ?_)) | split
    | fail_if_no_progress ((with_reducible apply Frame.fields); (case hq => rfl); (case hc => rfl))

theorem State.spdmSecured_frame {wt : Touch} {s0 s : State} (hw :
    ({ evt := true, telCtr := true, sessions := true, irq := true, out := true, free := true } : Touch).or wt = wt)
    (hK : Frame wt s0 s) (t : Nat) (b : List Byte) : Frame wt s0 (State.spdmSecured s t b) := by
  refine Frame.step hK hw ?_
  unfold State.spdmSecured
  (try dsimp only)
  repeat' first
    | ((with_reducible show Touch.or _ _ = _) <;> rfl)
    | with_reducible (first
        | exact Frame.refl | apply State.spdmFail_frame | apply State.countSealed_frame
        | apply State.putSession_frame | apply State.emit_frame | apply State.spdmWithin_frame)
    | (with_reducible refine Frame.ite (fun _ => ?_) (fun _ => ?_)) | split
    | fail_if_no_progress ((with_reducible apply Frame.fields); (case hq => rfl); (case hc => rfl))

theorem execSpdmRequest_frame (transport : Nat) (m : SpdmIn) (s : State) : OutFrame
    ({ evt := true, telCtr := true, sessions := true, irq := true, out := true, free := true } : Touch) s (execSpdmRequest transport m s) := by
  unfold execSpdmRequest
  split
  · exact OutFrame.fault _ _
  refine OutFrame.next (Frame.ite (fun _ => .refl) (fun _ => Frame.ite (fun _ => ?_) (fun _ => ?_)))
  · exact State.spdmSecured_frame rfl .refl _ _
  · exact State.emit_frame rfl (State.spdmClear_frame rfl .refl _ _) _

end Sys2Proof.Machine
end

