-- ==== Sys2Proof/Laws/FrameSlices.lean ====
section
/-! SUPPORT. What the operations of Slices may change. -/

set_option Elab.async false
set_option linter.all false

namespace Sys2Proof.Machine

theorem State.resetSlice_frame {wt : Touch} {s0 s : State} (hw : 
    ({ lanes := true, ports := true, prismFlight := true, hits := true, recirc := true, merge := true,
       fwdFlight := true, learnQ := true, fwdCtr := true, cells := true, portClass := true, queues := true,
       spillVoqs := true, bufCtr := true, pkts := true, nextPkt := true, voqs := true, multiQ := true,
       pairs := true, fabPorts := true, links := true, fabCtr := true, nodes := true, egq := true,
       waitTx := true, loupeItems := true, schedCtr := true, cores := true, flows := true, fix := true,
       fixCtr := true, proofCtr := true, evt := true, swp := true, mirrors := true, cand := true,
       mirQ := true, mirCtr := true, telCtr := true, dropCtr := true, portCtr := true, prismCtr := true,
       timeCtr := true, pwrCtr := true, shares := true, rate := true, slices := true, healthGen := true,
       irq := true, out := true, free := true } : Touch).or wt = wt) (hK : Frame wt s0 s) (n cause : Nat) (req : Option (Nat × Req)) : Frame wt s0 (s.resetSlice n cause req) := by
  unfold State.resetSlice
  extract_lets f z y t
  have hf : Frame wt s0 f.1 := State.flushSlice_frame (Touch.le_trans rfl hw) hK n
  have ht : Frame wt s0 t := by
    clear_value f
    exact hf.step (v := { swp := true }) (Touch.le_trans rfl hw) (.ofView rfl)
  clear_value t y z f
  exact State.raise_frame (Touch.le_trans rfl hw) (State.bumpPwr_frame (Touch.le_trans rfl hw)
    (State.updSlice_frame (Touch.le_trans rfl hw) ht _ _) _ _) _ _ _

theorem pwrSliceResetBody_frame {wt : Touch} {s0 s : State} (hw : 
    ({ lanes := true, ports := true, prismFlight := true, hits := true, recirc := true, merge := true,
       fwdFlight := true, learnQ := true, fwdCtr := true, cells := true, portClass := true, queues := true,
       spillVoqs := true, bufCtr := true, pkts := true, nextPkt := true, voqs := true, multiQ := true,
       pairs := true, fabPorts := true, links := true, fabCtr := true, nodes := true, egq := true,
       waitTx := true, loupeItems := true, schedCtr := true, cores := true, flows := true, fix := true,
       fixCtr := true, proofCtr := true, evt := true, swp := true, mirrors := true, cand := true,
       mirQ := true, mirCtr := true, telCtr := true, dropCtr := true, portCtr := true, prismCtr := true,
       timeCtr := true, pwrCtr := true, shares := true, rate := true, slices := true, healthGen := true,
       irq := true, out := true, free := true } : Touch).or wt = wt)
    (hK : Frame wt s0 s) (r : Req) : Frame wt s0 (pwrSliceResetBody r s).1 := by
  refine Frame.step hK hw ?_
  unfold pwrSliceResetBody
  (try dsimp only)
  repeat' first
    | ((with_reducible show Touch.or _ _ = _) <;> rfl)
    | with_reducible (first | exact Frame.refl | apply errCmd_frame | apply State.resetSlice_frame)
    | (intro _ hF; skip) | with_reducible assumption | (with_reducible refine Frame.ite (fun _ => ?_) (fun _ => ?_))
    | split

theorem State.parkCmd_frame {wt : Touch} {s0 s : State} (hw : 
    ({ lanes := true, ports := true, prismFlight := true, hits := true, recirc := true, merge := true,
       fwdFlight := true, learnQ := true, fwdCtr := true, cells := true, portClass := true, queues := true,
       spillVoqs := true, bufCtr := true, pkts := true, nextPkt := true, voqs := true, multiQ := true,
       pairs := true, fabPorts := true, links := true, fabCtr := true, nodes := true, egq := true,
       waitTx := true, loupeItems := true, schedCtr := true, clusters := true, cores := true,
       flows := true, fix := true, fixCtr := true, proofCtr := true, evt := true, mirrors := true,
       cand := true, mirQ := true, mirCtr := true, telCtr := true, dropCtr := true, portCtr := true,
       prismCtr := true, timeCtr := true, pwrCtr := true, shares := true, rate := true, heldShadow := true,
       slices := true, healthGen := true, irq := true, out := true, free := true } : Touch).or wt = wt)
    (hK : Frame wt s0 s) (n : Nat) : Frame wt s0 (State.parkCmd s n).1 := by
  refine Frame.step hK hw ?_
  unfold State.parkCmd
  (try dsimp only)
  repeat' first
    | ((with_reducible show Touch.or _ _ = _) <;> rfl)
    | with_reducible (first
        | exact Frame.refl | apply State.dropHeld_frame | apply errCmd_frame | apply okCmd_frame
        | apply State.parkNow_frame)
    | (with_reducible refine Frame.ite (fun _ => ?_) (fun _ => ?_)) | split

theorem State.unparkSlice_frame {wt : Touch} {s0 s : State} (hw : 
    ({ heldShadow := true, slices := true } : Touch).or wt = wt)
    (hK : Frame wt s0 s) (n : Nat) (r : Req) : Frame wt s0 (State.unparkSlice s n r).1 := by
  refine Frame.step hK hw ?_
  unfold State.unparkSlice
  (try dsimp only)
  repeat' first
    | ((with_reducible show Touch.or _ _ = _) <;> rfl)
    | with_reducible (first
        | exact Frame.refl | apply State.dropHeld_frame | apply errCmd_frame | apply State.updSlice_frame)
    | (intro _ hF; skip) | with_reducible assumption | (with_reducible refine Frame.ite (fun _ => ?_) (fun _ => ?_))
    | split

theorem pwrSliceParkBody_frame {wt : Touch} {s0 s : State} (hw : 
    ({ lanes := true, ports := true, prismFlight := true, hits := true, recirc := true, merge := true,
       fwdFlight := true, learnQ := true, fwdCtr := true, cells := true, portClass := true, queues := true,
       spillVoqs := true, bufCtr := true, pkts := true, nextPkt := true, voqs := true, multiQ := true,
       pairs := true, fabPorts := true, links := true, fabCtr := true, nodes := true, egq := true,
       waitTx := true, loupeItems := true, schedCtr := true, clusters := true, cores := true,
       flows := true, fix := true, fixCtr := true, proofCtr := true, evt := true, mirrors := true,
       cand := true, mirQ := true, mirCtr := true, telCtr := true, dropCtr := true, portCtr := true,
       prismCtr := true, timeCtr := true, pwrCtr := true, shares := true, rate := true, heldShadow := true,
       slices := true, healthGen := true, irq := true, out := true, free := true } : Touch).or wt = wt)
    (hK : Frame wt s0 s) (r : Req) : Frame wt s0 (pwrSliceParkBody r s).1 := by
  refine Frame.step hK hw ?_
  unfold pwrSliceParkBody
  (try dsimp only)
  repeat' first
    | ((with_reducible show Touch.or _ _ = _) <;> rfl)
    | with_reducible (first
        | exact Frame.refl | apply errCmd_frame | apply State.parkCmd_frame | apply State.unparkSlice_frame)
    | (intro _ hF; skip) | with_reducible assumption | (with_reducible refine Frame.ite (fun _ => ?_) (fun _ => ?_))
    | split

theorem execPwrSliceReset_frame (r : Req) (s : State) : OutFrame 
    ({ lanes := true, ports := true, prismFlight := true, hits := true, recirc := true, merge := true,
       fwdFlight := true, learnQ := true, fwdCtr := true, cells := true, portClass := true, queues := true,
       spillVoqs := true, pools := true, bufCtr := true, pkts := true, nextPkt := true, voqs := true,
       multiQ := true, pairs := true, fabPorts := true, links := true, fabCtr := true, nodes := true,
       egq := true, waitTx := true, loupeItems := true, schedCtr := true, cores := true, flows := true,
       fix := true, fixCtr := true, proofCtr := true, evt := true, swp := true, mirrors := true,
       cand := true, mirQ := true, mirCtr := true, telCtr := true, dropCtr := true, portCtr := true,
       prismCtr := true, timeCtr := true, mbxCtr := true, pwrCtr := true, shares := true, rate := true,
       boxes := true, jobs := true, hist := true, peers := true, msgs := true, slices := true,
       healthGen := true, irq := true, out := true, free := true } : Touch) s (execPwrSliceReset r s) := 
  mailboxCommand_frame rfl (fun _ => pwrSliceResetBody_frame rfl .refl r)

theorem execPwrSlicePark_frame (r : Req) (s : State) : OutFrame 
    ({ lanes := true, ports := true, prismFlight := true, hits := true, recirc := true, merge := true,
       fwdFlight := true, learnQ := true, fwdCtr := true, cells := true, portClass := true, queues := true,
       spillVoqs := true, pools := true, bufCtr := true, pkts := true, nextPkt := true, voqs := true,
       multiQ := true, pairs := true, fabPorts := true, links := true, fabCtr := true, nodes := true,
       egq := true, waitTx := true, loupeItems := true, schedCtr := true, clusters := true, cores := true,
       flows := true, fix := true, fixCtr := true, proofCtr := true, evt := true, mirrors := true,
       cand := true, mirQ := true, mirCtr := true, telCtr := true, dropCtr := true, portCtr := true,
       prismCtr := true, timeCtr := true, mbxCtr := true, pwrCtr := true, shares := true, rate := true,
       boxes := true, jobs := true, hist := true, heldShadow := true, peers := true, msgs := true,
       slices := true, healthGen := true, irq := true, out := true, free := true } : Touch) s (execPwrSlicePark r s) :=
  mailboxCommand_frame rfl (fun _ => pwrSliceParkBody_frame rfl .refl r)

theorem execSliceFault_frame (slice : Nat) (s : State) : OutFrame 
    ({ lanes := true, ports := true, prismFlight := true, hits := true, recirc := true, merge := true,
       fwdFlight := true, learnQ := true, fwdCtr := true, cells := true, portClass := true, queues := true,
       spillVoqs := true, bufCtr := true, pkts := true, nextPkt := true, voqs := true, multiQ := true,
       pairs := true, fabPorts := true, links := true, fabCtr := true, nodes := true, egq := true,
       waitTx := true, loupeItems := true, schedCtr := true, cores := true, flows := true, fix := true,
       fixCtr := true, proofCtr := true, evt := true, swp := true, mirrors := true, cand := true,
       mirQ := true, mirCtr := true, telCtr := true, dropCtr := true, portCtr := true, prismCtr := true,
       timeCtr := true, pwrCtr := true, shares := true, rate := true, slices := true, healthGen := true,
       irq := true, out := true, free := true } : Touch) s (execSliceFault slice s) := by
  unfold execSliceFault
  (try dsimp only)
  repeat' first
    | with_reducible (first | exact OutFrame.fault _ _ | apply OutFrame.next)
    | ((with_reducible show Touch.or _ _ = _) <;> rfl)
    | with_reducible (first | exact Frame.refl | apply State.resetSlice_frame)
    | (with_reducible refine Frame.ite (fun _ => ?_) (fun _ => ?_)) | split

theorem State.trainSlice_frame {wt : Touch} {s0 s : State} (hw : 
    ({ ports := true } : Touch).or wt = wt)
    (hK : Frame wt s0 s) (n : Nat) : Frame wt s0 (State.trainSlice s n) := by
  refine Frame.step hK hw ?_
  unfold State.trainSlice
  (try dsimp only)
  repeat' first
    | ((with_reducible show Touch.or _ _ = _) <;> rfl)
    | with_reducible (first | exact Frame.refl | apply State.updPort_frame)
    | (with_reducible refine Frame.foldl _ (fun _ _ hF => ?_) _ ?_) | (intro _ hF; skip) | with_reducible assumption
    | (with_reducible refine Frame.ite (fun _ => ?_) (fun _ => ?_))

theorem State.sliceRestored_frame {wt : Touch} {s0 s : State} (hw : 
    ({ ports := true, pools := true, bufCtr := true, waitTx := true, evt := true, telCtr := true,
       portCtr := true, mbxCtr := true, pwrCtr := true, boxes := true, jobs := true, hist := true,
       heldEvents := true, peers := true, msgs := true, slices := true, irq := true, out := true } : Touch).or wt = wt)
    (hK : Frame wt s0 s) (n : Nat) : Frame wt s0 (State.sliceRestored s n) := by
  refine Frame.step hK hw ?_
  unfold State.sliceRestored
  (try dsimp only)
  repeat' first
    | ((with_reducible show Touch.or _ _ = _) <;> rfl)
    | with_reducible (first
        | exact Frame.refl | apply State.bumpPwr_frame | apply State.complete_frame | apply State.raiseUp_frame
        | apply State.trainSlice_frame | apply State.updSlice_frame)
    | (intro _ hF; skip) | with_reducible assumption | (with_reducible refine Frame.ite (fun _ => ?_) (fun _ => ?_))
    | split

theorem execSliceRestoreDone_frame (slice : Nat) (s : State) : OutFrame 
    ({ ports := true, pools := true, bufCtr := true, waitTx := true, evt := true, telCtr := true,
       portCtr := true, mbxCtr := true, pwrCtr := true, boxes := true, jobs := true, hist := true,
       heldEvents := true, peers := true, msgs := true, slices := true, irq := true, out := true } : Touch) s (execSliceRestoreDone slice s) := by
  unfold execSliceRestoreDone
  (try dsimp only)
  repeat' first
    | with_reducible (first | exact OutFrame.fault _ _ | apply OutFrame.next)
    | ((with_reducible show Touch.or _ _ = _) <;> rfl)
    | with_reducible (first | exact Frame.refl | apply State.sliceRestored_frame)
    | (with_reducible refine Frame.ite (fun _ => ?_) (fun _ => ?_)) | split

end Sys2Proof.Machine
end

