-- ==== Sys2Proof/Laws/FrameResets.lean ====
section
/-! SUPPORT. What the operations of Resets may change. -/

set_option Elab.async false
set_option linter.all false

namespace Sys2Proof.Machine

theorem State.coldEntry_frame {wt : Touch} {s0 s : State} (hw : 
    ({ time := true, up := true, ptp := true, tsFifos := true, gates := true, lanes := true, groups := true,
       ports := true, prismBanks := true, prismFlight := true, hits := true, recirc := true, merge := true,
       gens := true, fwdFlight := true, em := true, seeds := true, learnQ := true, agePeriod := true,
       fwdCtr := true, badTable := true, cells := true, classes := true, portClass := true, wred := true,
       queues := true, spillVoqs := true, lfsr := true, pools := true, bufCtr := true, pkts := true,
       nextPkt := true, fabParams := true, voqs := true, multiQ := true, pairs := true, planes := true,
       fabPorts := true, links := true, arb := true, fabCtr := true, nodes := true, egq := true, waitTx := true, pol := true,
       loupeProf := true, loupeQueue := true, loupeItems := true, schedCtr := true, frer := true,
       clusters := true, cores := true, flows := true, fix := true, flushes := true, fixCtr := true,
       pclasses := true, targets := true, drops := true, buses := true, notices := true, proofCtr := true,
       evtRegs := true, evt := true, swpRegs := true, swp := true, mirrors := true, cand := true, mirQ := true,
       mirCtr := true, telCtr := true, dropCtr := true, portCtr := true, prismCtr := true, timeCtr := true,
       redCtr := true, frerCtr := true, mbxCtr := true, pwrCtr := true, shares := true, rate := true, boxes := true,
       jobs := true, hist := true, life := true, lostAsync := true, heldEvents := true, sets := true,
       epoch := true, snapshot := true, heldShadow := true, peers := true, msgs := true, domBake := true,
       membership := true, authFails := true, timeOffset := true, fwdReqs := true, bootCfg := true,
       image := true, sessions := true, resets := true, slices := true, warnC := true, thermal := true,
       hbms := true, regions := true, mps := true, healthGen := true, margins := true, irq := true,
       intMap := true, msix := true, chans := true, fifos := true, waitFetch := true, staging := true } : Touch).or wt = wt) (hK : Frame wt s0 s) : Frame wt s0 s.coldEntry := by
  refine hK.step hw ?_
  exact .ofView rfl

theorem State.warmEntry_frame {wt : Touch} {s0 s : State} (hw : 
    ({ time := true, up := true, ptp := true, tsFifos := true, gates := true, lanes := true, groups := true,
       ports := true, prismBanks := true, prismFlight := true, hits := true, recirc := true, merge := true,
       gens := true, fwdFlight := true, em := true, seeds := true, learnQ := true, agePeriod := true,
       fwdCtr := true, badTable := true, cells := true, classes := true, portClass := true, wred := true,
       queues := true, spillVoqs := true, lfsr := true, pools := true, bufCtr := true, pkts := true,
       nextPkt := true, fabParams := true, voqs := true, multiQ := true, pairs := true, planes := true,
       fabPorts := true, links := true, arb := true, fabCtr := true, nodes := true, egq := true, waitTx := true, pol := true,
       loupeProf := true, loupeQueue := true, loupeItems := true, schedCtr := true, frer := true,
       clusters := true, cores := true, flows := true, fix := true, flushes := true, fixCtr := true,
       pclasses := true, targets := true, drops := true, buses := true, notices := true, proofCtr := true,
       evtRegs := true, evt := true, swpRegs := true, swp := true, mirrors := true, cand := true, mirQ := true,
       mirCtr := true, telCtr := true, dropCtr := true, portCtr := true, prismCtr := true, timeCtr := true,
       redCtr := true, frerCtr := true, mbxCtr := true, pwrCtr := true, shares := true, rate := true, boxes := true,
       jobs := true, hist := true, life := true, lostAsync := true, heldEvents := true, sets := true,
       epoch := true, snapshot := true, heldShadow := true, peers := true, msgs := true, domBake := true,
       membership := true, authFails := true, timeOffset := true, fwdReqs := true, bootCfg := true,
       image := true, sessions := true, resets := true, slices := true, warnC := true, thermal := true,
       hbms := true, mps := true, healthGen := true, margins := true, irq := true, intMap := true,
       msix := true, chans := true, fifos := true, waitFetch := true } : Touch).or wt = wt) (hK : Frame wt s0 s) : Frame wt s0 s.warmEntry := by
  refine hK.step hw ?_
  exact .ofView rfl

theorem State.leaveReset_frame {wt : Touch} {s0 s : State} (hw : 
    ({ resets := true } : Touch).or wt = wt)
    (hK : Frame wt s0 s) : Frame wt s0 (State.leaveReset s) := by
  refine Frame.step hK hw ?_
  unfold State.leaveReset
  (try dsimp only)
  repeat' first
    | ((with_reducible show Touch.or _ _ = _) <;> rfl) | with_reducible exact Frame.refl
    | (with_reducible refine Frame.ite (fun _ => ?_) (fun _ => ?_)) | split
    | fail_if_no_progress ((with_reducible apply Frame.fields); (case hq => rfl); (case hc => rfl))

theorem execPorstNLow_frame (s : State) : OutFrame 
    ({ time := true, up := true, ptp := true, tsFifos := true, gates := true, lanes := true, groups := true,
       ports := true, prismBanks := true, prismFlight := true, hits := true, recirc := true, merge := true,
       gens := true, fwdFlight := true, em := true, seeds := true, learnQ := true, agePeriod := true,
       fwdCtr := true, badTable := true, cells := true, classes := true, portClass := true, wred := true,
       queues := true, spillVoqs := true, lfsr := true, pools := true, bufCtr := true, pkts := true,
       nextPkt := true, fabParams := true, voqs := true, multiQ := true, pairs := true, planes := true,
       fabPorts := true, links := true, arb := true, fabCtr := true, nodes := true, egq := true, waitTx := true, pol := true,
       loupeProf := true, loupeQueue := true, loupeItems := true, schedCtr := true, frer := true,
       clusters := true, cores := true, flows := true, fix := true, flushes := true, fixCtr := true,
       pclasses := true, targets := true, drops := true, buses := true, notices := true, proofCtr := true,
       evtRegs := true, evt := true, swpRegs := true, swp := true, mirrors := true, cand := true, mirQ := true,
       mirCtr := true, telCtr := true, dropCtr := true, portCtr := true, prismCtr := true, timeCtr := true,
       redCtr := true, frerCtr := true, mbxCtr := true, pwrCtr := true, shares := true, rate := true, boxes := true,
       jobs := true, hist := true, life := true, lostAsync := true, heldEvents := true, sets := true,
       epoch := true, snapshot := true, heldShadow := true, peers := true, msgs := true, domBake := true,
       membership := true, authFails := true, timeOffset := true, fwdReqs := true, bootCfg := true,
       image := true, sessions := true, resets := true, slices := true, warnC := true, thermal := true,
       hbms := true, regions := true, mps := true, healthGen := true, margins := true, irq := true,
       intMap := true, msix := true, chans := true, fifos := true, waitFetch := true, staging := true } : Touch) s
    (execPorstNLow s) := by
  unfold execPorstNLow
  (try dsimp only)
  repeat' first
    | with_reducible (first | exact OutFrame.fault _ _ | apply OutFrame.next)
    | ((with_reducible show Touch.or _ _ = _) <;> rfl)
    | with_reducible (first | exact Frame.refl | apply State.coldEntry_frame) | split
    | fail_if_no_progress ((with_reducible apply Frame.fields); (case hq => rfl); (case hc => rfl))

theorem execPorstNRise_frame (role : Nat) (s : State) : OutFrame 
    ({ resets := true } : Touch) s (execPorstNRise role s) := by
  unfold execPorstNRise
  (try dsimp only)
  repeat' first
    | with_reducible (first | exact OutFrame.fault _ _ | apply OutFrame.next)
    | ((with_reducible show Touch.or _ _ = _) <;> rfl)
    | with_reducible (first | exact Frame.refl | apply State.leaveReset_frame)
    | (with_reducible refine Frame.ite (fun _ => ?_) (fun _ => ?_)) | split
    | fail_if_no_progress ((with_reducible apply Frame.fields); (case hq => rfl); (case hc => rfl))

theorem State.wrstEntry_frame {wt : Touch} {s0 s : State} (hw : 
    ({ time := true, up := true, ptp := true, tsFifos := true, gates := true, lanes := true, groups := true,
       ports := true, prismBanks := true, prismFlight := true, hits := true, recirc := true, merge := true,
       gens := true, fwdFlight := true, em := true, seeds := true, learnQ := true, agePeriod := true,
       fwdCtr := true, badTable := true, cells := true, classes := true, portClass := true, wred := true,
       queues := true, spillVoqs := true, lfsr := true, pools := true, bufCtr := true, pkts := true,
       nextPkt := true, fabParams := true, voqs := true, multiQ := true, pairs := true, planes := true,
       fabPorts := true, links := true, arb := true, fabCtr := true, nodes := true, egq := true, waitTx := true, pol := true,
       loupeProf := true, loupeQueue := true, loupeItems := true, schedCtr := true, frer := true,
       clusters := true, cores := true, flows := true, fix := true, flushes := true, fixCtr := true,
       pclasses := true, targets := true, drops := true, buses := true, notices := true, proofCtr := true,
       evtRegs := true, evt := true, swpRegs := true, swp := true, mirrors := true, cand := true, mirQ := true,
       mirCtr := true, telCtr := true, dropCtr := true, portCtr := true, prismCtr := true, timeCtr := true,
       redCtr := true, frerCtr := true, mbxCtr := true, pwrCtr := true, shares := true, rate := true, boxes := true,
       jobs := true, hist := true, life := true, lostAsync := true, heldEvents := true, sets := true,
       epoch := true, snapshot := true, heldShadow := true, peers := true, msgs := true, domBake := true,
       membership := true, authFails := true, timeOffset := true, fwdReqs := true, bootCfg := true,
       image := true, sessions := true, resets := true, slices := true, warnC := true, thermal := true,
       hbms := true, regions := true, mps := true, healthGen := true, margins := true, irq := true,
       intMap := true, msix := true, chans := true, fifos := true, waitFetch := true, staging := true } : Touch).or wt
    = wt)
    (hK : Frame wt s0 s) : Frame wt s0 (State.wrstEntry s) := by
  refine Frame.step hK hw ?_
  unfold State.wrstEntry
  (try dsimp only)
  repeat' first
    | ((with_reducible show Touch.or _ _ = _) <;> rfl)
    | with_reducible (first | exact Frame.refl | apply State.coldEntry_frame | apply State.warmEntry_frame)
    | (with_reducible refine Frame.ite (fun _ => ?_) (fun _ => ?_))

theorem execWrstNLow_frame (s : State) : OutFrame 
    ({ time := true, up := true, ptp := true, tsFifos := true, gates := true, lanes := true, groups := true,
       ports := true, prismBanks := true, prismFlight := true, hits := true, recirc := true, merge := true,
       gens := true, fwdFlight := true, em := true, seeds := true, learnQ := true, agePeriod := true,
       fwdCtr := true, badTable := true, cells := true, classes := true, portClass := true, wred := true,
       queues := true, spillVoqs := true, lfsr := true, pools := true, bufCtr := true, pkts := true,
       nextPkt := true, fabParams := true, voqs := true, multiQ := true, pairs := true, planes := true,
       fabPorts := true, links := true, arb := true, fabCtr := true, nodes := true, egq := true, waitTx := true, pol := true,
       loupeProf := true, loupeQueue := true, loupeItems := true, schedCtr := true, frer := true,
       clusters := true, cores := true, flows := true, fix := true, flushes := true, fixCtr := true,
       pclasses := true, targets := true, drops := true, buses := true, notices := true, proofCtr := true,
       evtRegs := true, evt := true, swpRegs := true, swp := true, mirrors := true, cand := true, mirQ := true,
       mirCtr := true, telCtr := true, dropCtr := true, portCtr := true, prismCtr := true, timeCtr := true,
       redCtr := true, frerCtr := true, mbxCtr := true, pwrCtr := true, shares := true, rate := true, boxes := true,
       jobs := true, hist := true, life := true, lostAsync := true, heldEvents := true, sets := true,
       epoch := true, snapshot := true, heldShadow := true, peers := true, msgs := true, domBake := true,
       membership := true, authFails := true, timeOffset := true, fwdReqs := true, bootCfg := true,
       image := true, sessions := true, resets := true, slices := true, warnC := true, thermal := true,
       hbms := true, regions := true, mps := true, healthGen := true, margins := true, irq := true,
       intMap := true, msix := true, chans := true, fifos := true, waitFetch := true, staging := true } : Touch) s
    (execWrstNLow s) := by
  unfold execWrstNLow
  (try dsimp only)
  repeat' first
    | with_reducible (first | exact OutFrame.fault _ _ | apply OutFrame.next)
    | ((with_reducible show Touch.or _ _ = _) <;> rfl)
    | with_reducible (first | exact Frame.refl | apply State.wrstEntry_frame) | split
    | fail_if_no_progress ((with_reducible apply Frame.fields); (case hq => rfl); (case hc => rfl))

theorem execWrstNRise_frame (s : State) : OutFrame 
    ({ resets := true } : Touch) s (execWrstNRise s) := by
  unfold execWrstNRise
  (try dsimp only)
  repeat' first
    | with_reducible (first | exact OutFrame.fault _ _ | apply OutFrame.next)
    | ((with_reducible show Touch.or _ _ = _) <;> rfl)
    | with_reducible (first | exact Frame.refl | apply State.leaveReset_frame)
    | (with_reducible refine Frame.ite (fun _ => ?_) (fun _ => ?_)) | split
    | fail_if_no_progress ((with_reducible apply Frame.fields); (case hq => rfl); (case hc => rfl))

theorem State.cutWrite_frame {wt : Touch} {s0 s : State} (hw : ({ bootCfg := true, free := true } : Touch).or wt = wt)
    (hK : Frame wt s0 s) : Frame wt s0 (State.cutWrite s) := by
  refine Frame.step hK hw ?_
  unfold State.cutWrite State.updIdent IdSt.cutCfg IdSt.putCfg
  split
  · refine State.drawn_frame rfl ?_ _
    dsimp only
    repeat' split
    all_goals exact .ofView rfl
  · exact .refl

theorem execSupplyFault_frame (s : State) : OutFrame 
    ({ time := true, up := true, ptp := true, tsFifos := true, gates := true, lanes := true, groups := true,
       ports := true, prismBanks := true, prismFlight := true, hits := true, recirc := true, merge := true,
       gens := true, fwdFlight := true, em := true, seeds := true, learnQ := true, agePeriod := true,
       fwdCtr := true, badTable := true, cells := true, classes := true, portClass := true, wred := true,
       queues := true, spillVoqs := true, lfsr := true, pools := true, bufCtr := true, pkts := true,
       nextPkt := true, fabParams := true, voqs := true, multiQ := true, pairs := true, planes := true,
       fabPorts := true, links := true, arb := true, fabCtr := true, nodes := true, egq := true, waitTx := true, pol := true,
       loupeProf := true, loupeQueue := true, loupeItems := true, schedCtr := true, frer := true,
       clusters := true, cores := true, flows := true, fix := true, flushes := true, fixCtr := true,
       pclasses := true, targets := true, drops := true, buses := true, notices := true, proofCtr := true,
       evtRegs := true, evt := true, swpRegs := true, swp := true, mirrors := true, cand := true, mirQ := true,
       mirCtr := true, telCtr := true, dropCtr := true, portCtr := true, prismCtr := true, timeCtr := true,
       redCtr := true, frerCtr := true, mbxCtr := true, pwrCtr := true, shares := true, rate := true, boxes := true,
       jobs := true, hist := true, life := true, lostAsync := true, heldEvents := true, sets := true,
       epoch := true, snapshot := true, heldShadow := true, peers := true, msgs := true, domBake := true,
       membership := true, authFails := true, timeOffset := true, fwdReqs := true, bootCfg := true,
       image := true, sessions := true, resets := true, slices := true, warnC := true, thermal := true,
       hbms := true, regions := true, mps := true, healthGen := true, margins := true, irq := true,
       intMap := true, msix := true, chans := true, fifos := true, waitFetch := true, staging := true, free := true } : Touch) s
    (execSupplyFault s) := by
  unfold execSupplyFault
  (try dsimp only)
  repeat' first
    | with_reducible (first | exact OutFrame.fault _ _ | apply OutFrame.next)
    | ((with_reducible show Touch.or _ _ = _) <;> rfl)
    | with_reducible (first | exact Frame.refl | apply State.coldEntry_frame | apply State.cutWrite_frame) | split
    | fail_if_no_progress ((with_reducible apply Frame.fields); (case hq => rfl); (case hc => rfl))

theorem execSuppliesValid_frame (s : State) : OutFrame 
    ({ resets := true } : Touch) s (execSuppliesValid s) := by
  unfold execSuppliesValid
  (try dsimp only)
  repeat' first
    | with_reducible (first | exact OutFrame.fault _ _ | apply OutFrame.next)
    | ((with_reducible show Touch.or _ _ = _) <;> rfl)
    | with_reducible (first | exact Frame.refl | apply State.leaveReset_frame) | split
    | fail_if_no_progress ((with_reducible apply Frame.fields); (case hq => rfl); (case hc => rfl))

theorem State.thermalEmergency_frame {wt : Touch} {s0 s : State} (hw : 
    ({ time := true, up := true, ptp := true, tsFifos := true, gates := true, lanes := true, groups := true,
       ports := true, prismBanks := true, prismFlight := true, hits := true, recirc := true, merge := true,
       gens := true, fwdFlight := true, em := true, seeds := true, learnQ := true, agePeriod := true,
       fwdCtr := true, badTable := true, cells := true, classes := true, portClass := true, wred := true,
       queues := true, spillVoqs := true, lfsr := true, pools := true, bufCtr := true, pkts := true,
       nextPkt := true, fabParams := true, voqs := true, multiQ := true, pairs := true, planes := true,
       fabPorts := true, links := true, arb := true, fabCtr := true, nodes := true, egq := true, waitTx := true, pol := true,
       loupeProf := true, loupeQueue := true, loupeItems := true, schedCtr := true, frer := true,
       clusters := true, cores := true, flows := true, fix := true, flushes := true, fixCtr := true,
       pclasses := true, targets := true, drops := true, buses := true, notices := true, proofCtr := true,
       evtRegs := true, evt := true, swpRegs := true, swp := true, mirrors := true, cand := true, mirQ := true,
       mirCtr := true, telCtr := true, dropCtr := true, portCtr := true, prismCtr := true, timeCtr := true,
       redCtr := true, frerCtr := true, mbxCtr := true, pwrCtr := true, shares := true, rate := true, boxes := true,
       jobs := true, hist := true, life := true, lostAsync := true, heldEvents := true, sets := true,
       epoch := true, snapshot := true, heldShadow := true, peers := true, msgs := true, domBake := true,
       membership := true, authFails := true, timeOffset := true, fwdReqs := true, bootCfg := true,
       image := true, sessions := true, resets := true, slices := true, warnC := true, thermal := true,
       hbms := true, regions := true, mps := true, healthGen := true, margins := true, irq := true,
       intMap := true, msix := true, chans := true, fifos := true, waitFetch := true, staging := true,
       free := true } : Touch).or wt = wt)
    (hK : Frame wt s0 s) : Frame wt s0 (State.thermalEmergency s) := by
  refine Frame.step hK hw ?_
  unfold State.thermalEmergency
  (try dsimp only)
  repeat' first
    | ((with_reducible show Touch.or _ _ = _) <;> rfl)
    | with_reducible (first | exact Frame.refl | apply State.coldEntry_frame) | split
    | fail_if_no_progress ((with_reducible apply Frame.fields); (case hq => rfl); (case hc => rfl))

theorem execThermalSample_frame (readings : List Int) (s : State) : OutFrame 
    ({ time := true, up := true, ptp := true, tsFifos := true, gates := true, lanes := true, groups := true,
       ports := true, prismBanks := true, prismFlight := true, hits := true, recirc := true, merge := true,
       gens := true, fwdFlight := true, em := true, seeds := true, learnQ := true, agePeriod := true,
       fwdCtr := true, badTable := true, cells := true, classes := true, portClass := true, wred := true,
       queues := true, spillVoqs := true, lfsr := true, pools := true, bufCtr := true, pkts := true,
       nextPkt := true, fabParams := true, voqs := true, multiQ := true, pairs := true, planes := true,
       fabPorts := true, links := true, arb := true, fabCtr := true, nodes := true, egq := true, waitTx := true, pol := true,
       loupeProf := true, loupeQueue := true, loupeItems := true, schedCtr := true, frer := true,
       clusters := true, cores := true, flows := true, fix := true, flushes := true, fixCtr := true,
       pclasses := true, targets := true, drops := true, buses := true, notices := true, proofCtr := true,
       evtRegs := true, evt := true, swpRegs := true, swp := true, mirrors := true, cand := true, mirQ := true,
       mirCtr := true, telCtr := true, dropCtr := true, portCtr := true, prismCtr := true, timeCtr := true,
       redCtr := true, frerCtr := true, mbxCtr := true, pwrCtr := true, shares := true, rate := true, boxes := true,
       jobs := true, hist := true, life := true, lostAsync := true, heldEvents := true, sets := true,
       epoch := true, snapshot := true, heldShadow := true, peers := true, msgs := true, domBake := true,
       membership := true, authFails := true, timeOffset := true, fwdReqs := true, bootCfg := true,
       image := true, sessions := true, resets := true, slices := true, warnC := true, thermal := true,
       hbms := true, regions := true, mps := true, healthGen := true, margins := true, irq := true,
       intMap := true, msix := true, chans := true, fifos := true, waitFetch := true, staging := true,
       out := true, free := true } : Touch) s (execThermalSample readings s) := by
  unfold execThermalSample
  (try dsimp only)
  repeat' first
    | with_reducible (first | exact OutFrame.fault _ _ | apply OutFrame.next)
    | ((with_reducible show Touch.or _ _ = _) <;> rfl)
    | with_reducible (first | exact Frame.refl | apply State.thermal_frame | apply State.thermalEmergency_frame)
    | (with_reducible refine Frame.ite (fun _ => ?_) (fun _ => ?_))

theorem State.planeOut_frame {wt : Touch} {s0 s : State} (hw : 
    ({ planes := true } : Touch).or wt = wt)
    (hK : Frame wt s0 s) (k : Nat) : Frame wt s0 (State.planeOut s k) := by
  refine Frame.step hK hw ?_
  unfold State.planeOut
  (try dsimp only)
  repeat' first
    | ((with_reducible show Touch.or _ _ = _) <;> rfl)
    | with_reducible (first | exact Frame.refl | apply State.updPlane_frame) | (intro _ hF; skip)
    | with_reducible assumption | (with_reducible refine Frame.ite (fun _ => ?_) (fun _ => ?_)) | split

theorem State.mpOut_frame {wt : Touch} {s0 s : State} (hw : 
    ({ mps := true } : Touch).or wt = wt)
    (hK : Frame wt s0 s) (k : Nat) : Frame wt s0 (State.mpOut s k) := by
  refine Frame.step hK hw ?_
  unfold State.mpOut
  (try dsimp only)
  repeat' first
    | ((with_reducible show Touch.or _ _ = _) <;> rfl)
    | with_reducible (first | exact Frame.refl | apply State.updMp_frame) | (intro _ hF; skip)
    | with_reducible assumption | (with_reducible refine Frame.ite (fun _ => ?_) (fun _ => ?_))

theorem State.applyRepair_frame {wt : Touch} {s0 s : State} (hw : 
    ({ groups := true, planes := true, clusters := true, hbms := true, mps := true } : Touch).or wt = wt)
    (hK : Frame wt s0 s) (u : Nat × Nat) : Frame wt s0 (State.applyRepair s u) := by
  refine Frame.step hK hw ?_
  unfold State.applyRepair
  (try dsimp only)
  repeat' first
    | ((with_reducible show Touch.or _ _ = _) <;> rfl)
    | with_reducible (first
        | exact Frame.refl | apply State.mpOut_frame | apply State.planeOut_frame | apply State.updCluster_frame
        | apply State.updGroup_frame | apply State.updStack_frame)
    | (intro _ hF; skip) | with_reducible assumption | split

theorem State.testMpA_frame {wt : Touch} {s0 s : State} (hw :
    ({ mps := true, repairLog := true, free := true } : Touch).or wt = wt)
    (hK : Frame wt s0 s)  :
    Frame wt s0 (State.testMpA s) := by
  refine Frame.step hK hw ?_
  unfold State.testMpA
  (try dsimp only)
  repeat' first
    | ((with_reducible show Touch.or _ _ = _) <;> rfl)
    | with_reducible (first
        | exact Frame.refl | apply State.drawn_frame | apply State.mpOut_frame | apply State.repairAdd_frame)
    | (with_reducible refine Frame.foldl _ (fun _ _ hF => ?_) _ ?_)
    | (intro _ hF; skip) | with_reducible assumption
    | (with_reducible refine Frame.ite (fun _ => ?_) (fun _ => ?_)) | split
    | fail_if_no_progress ((with_reducible apply Frame.fields); (case hq => rfl); (case hc => rfl))

theorem State.applyRepairs_frame {wt : Touch} {s0 s : State} (hw : 
    ({ groups := true, planes := true, clusters := true, hbms := true, mps := true } : Touch).or wt = wt)
    (hK : Frame wt s0 s) (kind : ResetKind) : Frame wt s0 (State.applyRepairs s kind) := by
  refine Frame.step hK hw ?_
  unfold State.applyRepairs
  (try dsimp only)
  repeat' first
    | ((with_reducible show Touch.or _ _ = _) <;> rfl)
    | with_reducible (first | exact Frame.refl | apply State.applyRepair_frame)
    | (with_reducible refine Frame.foldl _ (fun _ _ hF => ?_) _ ?_) | (intro _ hF; skip) | with_reducible assumption
    | (with_reducible refine Frame.ite (fun _ => ?_) (fun _ => ?_)) | split
    | fail_if_no_progress ((with_reducible apply Frame.fields); (case hq => rfl); (case hc => rfl))

theorem State.drawSeeds_frame {wt : Touch} {s0 s : State} (hw :
    ({ seeds := true, free := true } : Touch).or wt = wt)
    (hK : Frame wt s0 s)  :
    Frame wt s0 (State.drawSeeds s) := by
  refine Frame.step hK hw ?_
  unfold State.drawSeeds
  (try dsimp only)
  repeat' first
    | ((with_reducible show Touch.or _ _ = _) <;> rfl)
    | with_reducible (first | exact Frame.refl | apply State.drawn_frame)
    | (with_reducible refine Frame.foldl _ (fun _ _ hF => ?_) _ ?_)
    | (intro _ hF; skip) | with_reducible assumption
    | (with_reducible refine Frame.ite (fun _ => ?_) (fun _ => ?_)) | split
    | fail_if_no_progress ((with_reducible apply Frame.fields); (case hq => rfl); (case hc => rfl))

theorem State.tellOrphans_frame {wt : Touch} {s0 s : State} (hw : 
    ({ evt := true, telCtr := true, irq := true, out := true } : Touch).or wt = wt)
    (hK : Frame wt s0 s) (c : Nat) : Frame wt s0 (State.tellOrphans s c) := by
  refine Frame.step hK hw ?_
  unfold State.tellOrphans
  (try dsimp only)
  repeat' first
    | ((with_reducible show Touch.or _ _ = _) <;> rfl)
    | with_reducible (first | exact Frame.refl | apply State.raiseIf_frame)

theorem State.tellWarm_frame {wt : Touch} {s0 s : State} (hw : 
    ({ evt := true, telCtr := true, irq := true, out := true } : Touch).or wt = wt)
    (hK : Frame wt s0 s) : Frame wt s0 (State.tellWarm s) := by
  refine Frame.step hK hw ?_
  unfold State.tellWarm
  (try dsimp only)
  repeat' first
    | ((with_reducible show Touch.or _ _ = _) <;> rfl)
    | with_reducible (first | exact Frame.refl | apply State.raise_frame | apply State.tellOrphans_frame)
    | (with_reducible refine Frame.foldl _ (fun _ _ hF => ?_) _ ?_) | (intro _ hF; skip) | with_reducible assumption

theorem State.becomeReady_frame {wt : Touch} {s0 s : State} (hw : 
    ({ evt := true, telCtr := true, life := true, epoch := true, resets := true, irq := true, out := true } :
    Touch).or wt = wt)
    (hK : Frame wt s0 s) (kind : ResetKind) : Frame wt s0 (State.becomeReady s kind) := by
  refine Frame.step hK hw ?_
  unfold State.becomeReady
  (try dsimp only)
  repeat' first
    | ((with_reducible show Touch.or _ _ = _) <;> rfl)
    | with_reducible (first | exact Frame.refl | apply State.raise_frame | apply State.tellWarm_frame)
    | (with_reducible refine Frame.ite (fun _ => ?_) (fun _ => ?_)) | split
    | fail_if_no_progress ((with_reducible apply Frame.fields); (case hq => rfl); (case hc => rfl))

theorem State.bootDone_frame {wt : Touch} {s0 s : State} (hw : 
    ({ groups := true, seeds := true, planes := true, clusters := true, evt := true, telCtr := true,
       life := true, epoch := true, slots := true, bootCfg := true, image := true, resets := true,
       hbms := true, mps := true, healthGen := true, repairLog := true, irq := true, out := true,
       free := true } : Touch).or wt = wt)
    (hK : Frame wt s0 s) (kind : ResetKind) : Frame wt s0 (State.bootDone s kind) := by
  refine Frame.step hK hw ?_
  unfold State.bootDone
  (try dsimp only)
  repeat' first
    | ((with_reducible show Touch.or _ _ = _) <;> rfl)
    | with_reducible (first
        | exact Frame.refl | apply State.applyRepairs_frame | apply State.becomeReady_frame
        | apply State.drawSeeds_frame | apply State.moarasBoot_frame | apply State.healthSince_frame
        | apply State.testMpA_frame)
    | (with_reducible refine Frame.ite (fun _ => ?_) (fun _ => ?_))

theorem execMoarasBootDone_frame (s : State) : OutFrame 
    ({ groups := true, seeds := true, planes := true, clusters := true, evt := true, telCtr := true,
       life := true, epoch := true, slots := true, bootCfg := true, image := true, resets := true,
       hbms := true, mps := true, healthGen := true, repairLog := true, irq := true, out := true,
       free := true } : Touch) s (execMoarasBootDone s) := by
  unfold execMoarasBootDone
  (try dsimp only)
  repeat' first
    | with_reducible (first | exact OutFrame.fault _ _ | apply OutFrame.next)
    | ((with_reducible show Touch.or _ _ = _) <;> rfl)
    | with_reducible (first | exact Frame.refl | apply State.bootDone_frame)
    | (with_reducible refine Frame.ite (fun _ => ?_) (fun _ => ?_)) | split

theorem State.stopChans_frame {wt : Touch} {s0 s : State} (hw : 
    ({ chans := true, fifos := true } : Touch).or wt = wt)
    (hK : Frame wt s0 s) (fn : Nat) : Frame wt s0 (State.stopChans s fn) := by
  refine Frame.step hK hw ?_
  unfold State.stopChans
  (try dsimp only)
  repeat' first
    | ((with_reducible show Touch.or _ _ = _) <;> rfl)
    | with_reducible (first | exact Frame.refl | apply State.chanAbort_frame)
    | (with_reducible refine Frame.foldl _ (fun _ _ hF => ?_) _ ?_) | (intro _ hF; skip) | with_reducible assumption

theorem State.freeBoxes_frame {wt : Touch} {s0 s : State} (hw : 
    ({ boxes := true, jobs := true } : Touch).or wt = wt)
    (hK : Frame wt s0 s) (fn : Nat) : Frame wt s0 (State.freeBoxes s fn) := by
  refine Frame.step hK hw ?_
  unfold State.freeBoxes
  (try dsimp only)
  repeat' first
    | ((with_reducible show Touch.or _ _ = _) <;> rfl)
    | with_reducible (first | exact Frame.refl | apply State.updBox_frame)
    | (with_reducible refine Frame.foldl _ (fun _ _ hF => ?_) _ ?_) | (intro _ hF; skip) | with_reducible assumption
    | split | fail_if_no_progress ((with_reducible apply Frame.fields); (case hq => rfl); (case hc => rfl))

theorem State.resetInts_frame {wt : Touch} {s0 s : State} (hw : 
    ({ irq := true, intMap := true, msix := true } : Touch).or wt = wt)
    (hK : Frame wt s0 s) (fn : Nat) : Frame wt s0 (State.resetInts s fn) :=
  hK.step hw (.ofView rfl)

theorem State.resetDma_frame {wt : Touch} {s0 s : State} (hw : 
    ({ chans := true, fifos := true, waitFetch := true } : Touch).or wt = wt)
    (hK : Frame wt s0 s) (fn : Nat) : Frame wt s0 (State.resetDma s fn) := by
  refine Frame.step hK hw ?_
  unfold State.resetDma
  (try dsimp only)
  repeat' first
    | ((with_reducible show Touch.or _ _ = _) <;> rfl)
    | with_reducible (first | exact Frame.refl | apply State.updChan_frame | apply State.updFifo_frame)
    | (with_reducible refine Frame.foldl _ (fun _ _ hF => ?_) _ ?_) | (intro _ hF; skip) | with_reducible assumption
    | split | fail_if_no_progress ((with_reducible apply Frame.fields); (case hq => rfl); (case hc => rfl))

theorem State.resetShared_frame {wt : Touch} {s0 s : State} (hw : 
    ({ time := true, tsFifos := true, evtRegs := true, evt := true, swpRegs := true, swp := true } : Touch).or wt =
    wt)
    (hK : Frame wt s0 s) : Frame wt s0 (State.resetShared s) := by
  refine Frame.step hK hw ?_
  unfold State.resetShared
  (try dsimp only)
  repeat' first
    | ((with_reducible show Touch.or _ _ = _) <;> rfl) | with_reducible exact Frame.refl | (intro _ hF; skip)
    | with_reducible assumption | split
    | fail_if_no_progress ((with_reducible apply Frame.fields); (case hq => rfl); (case hc => rfl))

theorem State.dropDoe_frame {wt : Touch} {s0 s : State} (hw : 
    ({ sessions := true } : Touch).or wt = wt)
    (hK : Frame wt s0 s) (fn : Nat) : Frame wt s0 (State.dropDoe s fn) := by
  refine Frame.step hK hw ?_
  unfold State.dropDoe State.updIdent IdSt.setSessions
  (try dsimp only)
  repeat' first
    | ((with_reducible show Touch.or _ _ = _) <;> rfl) | with_reducible exact Frame.refl | (intro _ hF; skip)
    | with_reducible assumption | split
    | fail_if_no_progress ((with_reducible apply Frame.fields); (case hq => rfl); (case hc => rfl))

theorem State.resetFunction_frame {wt : Touch} {s0 s : State} (hw : 
    ({ time := true, tsFifos := true, evtRegs := true, evt := true, swpRegs := true, swp := true,
       boxes := true, jobs := true, sessions := true, irq := true, intMap := true, msix := true, chans := true,
       fifos := true, waitFetch := true } : Touch).or wt = wt)
    (hK : Frame wt s0 s) (fn : Nat) (up : Bool) : Frame wt s0 (State.resetFunction s fn up) := by
  refine Frame.step hK hw ?_
  unfold State.resetFunction
  (try dsimp only)
  repeat' first
    | ((with_reducible show Touch.or _ _ = _) <;> rfl)
    | with_reducible (first
        | exact Frame.refl | apply State.dropDoe_frame | apply State.freeBoxes_frame | apply State.resetDma_frame
        | apply State.resetInts_frame | apply State.resetShared_frame | apply State.stopChans_frame
        | apply State.updLink_frame)
    | (intro _ hF; skip) | with_reducible assumption | (with_reducible refine Frame.ite (fun _ => ?_) (fun _ => ?_))

theorem State.functionReset_frame {wt : Touch} {s0 s : State} (hw :
    ({ time := true, tsFifos := true, evtRegs := true, evt := true, swpRegs := true, swp := true,
       telCtr := true, boxes := true, jobs := true, sessions := true, irq := true, intMap := true,
       msix := true, chans := true, fifos := true, waitFetch := true, out := true } : Touch).or wt = wt)
    (hK : Frame wt s0 s) (fn : Nat) (kind : Nat) :
    Frame wt s0 (State.functionReset s fn kind) := by
  refine Frame.step hK hw ?_
  unfold State.functionReset
  (try dsimp only)
  repeat' first
    | ((with_reducible show Touch.or _ _ = _) <;> rfl)
    | with_reducible (first | exact Frame.refl | apply State.resetFunction_frame | apply State.raise_frame)
    | (with_reducible refine Frame.foldl _ (fun _ _ hF => ?_) _ ?_)
    | (intro _ hF; skip) | with_reducible assumption
    | (with_reducible refine Frame.ite (fun _ => ?_) (fun _ => ?_)) | split
    | fail_if_no_progress ((with_reducible apply Frame.fields); (case hq => rfl); (case hc => rfl))

theorem execPcieFunctionReset_frame (fn : Nat) (kind : Nat) (s : State) : OutFrame 
    ({ time := true, tsFifos := true, evtRegs := true, evt := true, swpRegs := true, swp := true,
       telCtr := true, boxes := true, jobs := true, sessions := true, irq := true, intMap := true,
       msix := true, chans := true, fifos := true, waitFetch := true, out := true } : Touch) s (execPcieFunctionReset
    fn kind s) := by
  unfold execPcieFunctionReset
  (try dsimp only [onFunction])
  repeat' first
    | with_reducible (first | exact OutFrame.fault _ _ | apply OutFrame.next)
    | ((with_reducible show Touch.or _ _ = _) <;> rfl)
    | with_reducible (first
        | exact Frame.refl | apply State.raise_frame | apply State.resetFunction_frame
        | apply State.functionReset_frame) | split

theorem execHostLinkLoss_frame (fn : Nat) (s : State) : OutFrame 
    ({ time := true, tsFifos := true, evtRegs := true, evt := true, swpRegs := true, swp := true,
       telCtr := true, boxes := true, jobs := true, sessions := true, irq := true, intMap := true,
       msix := true, chans := true, fifos := true, waitFetch := true, out := true } : Touch) s (execHostLinkLoss fn s)
    := by
  unfold execHostLinkLoss
  (try dsimp only [onFunction])
  repeat' first
    | with_reducible (first | exact OutFrame.fault _ _ | apply OutFrame.next)
    | ((with_reducible show Touch.or _ _ = _) <;> rfl)
    | with_reducible (first | exact Frame.refl | apply State.raise_frame | apply State.resetFunction_frame) | split

theorem State.enterD3_frame {wt : Touch} {s0 s : State} (hw :
    ({ irq := true, chans := true, fifos := true } : Touch).or wt = wt)
    (hK : Frame wt s0 s) (fn : Nat) :
    Frame wt s0 (State.enterD3 s fn) := by
  refine Frame.step hK hw ?_
  unfold State.enterD3
  (try dsimp only)
  repeat' first
    | ((with_reducible show Touch.or _ _ = _) <;> rfl)
    | with_reducible (first | exact Frame.refl | apply State.stopChans_frame | apply State.updLink_frame)
    | (with_reducible refine Frame.foldl _ (fun _ _ hF => ?_) _ ?_)
    | (intro _ hF; skip) | with_reducible assumption
    | (with_reducible refine Frame.ite (fun _ => ?_) (fun _ => ?_)) | split
    | fail_if_no_progress ((with_reducible apply Frame.fields); (case hq => rfl); (case hc => rfl))

theorem execD3hotEntry_frame (fn : Nat) (s : State) : OutFrame 
    ({ irq := true, chans := true, fifos := true } : Touch) s (execD3hotEntry fn s) := by
  unfold execD3hotEntry
  (try dsimp only [onFunction])
  repeat' first
    | with_reducible (first | exact OutFrame.fault _ _ | apply OutFrame.next)
    | ((with_reducible show Touch.or _ _ = _) <;> rfl)
    | with_reducible (first
        | exact Frame.refl | apply State.stopChans_frame | apply State.updLink_frame | apply State.enterD3_frame)
    | (intro _ hF; skip) | with_reducible assumption | split

theorem execPcieLinkUp_frame (fn : Nat) (speed : Nat) (width : Nat) (flit : Bool) (s : State) : OutFrame 
    ({ irq := true } : Touch) s (execPcieLinkUp fn speed width flit s) := by
  unfold execPcieLinkUp
  (try dsimp only [onFunction])
  repeat' first
    | with_reducible (first | exact OutFrame.fault _ _ | apply OutFrame.next)
    | ((with_reducible show Touch.or _ _ = _) <;> rfl)
    | with_reducible (first | exact Frame.refl | apply State.updLink_frame) | (intro _ hF; skip)
    | with_reducible assumption | (with_reducible refine Frame.ite (fun _ => ?_) (fun _ => ?_)) | split

end Sys2Proof.Machine
end

