-- ==== Sys2Proof/Laws/FrameForward.lean ====
section
/-! SUPPORT. What the operations of Forward may change. -/

set_option Elab.async false
set_option linter.all false

namespace Sys2Proof.Machine

theorem bodies01_frame {op : Nat} {b : Body} (e : bodies01 op = some b) (s : State) (r : Req) : Frame 
    ({ life := true } : Touch) s (b r s).1 := by
  unfold bodies01 at e
  split at e
  · cases e; exact devGetInfoBody_frame rfl .refl r
  · cases e; exact devGetResultBody_frame rfl .refl r
  · cases e; exact devEchoBody_frame rfl .refl r
  · cases e; exact devRestartBody_frame rfl .refl r
  · cases e; exact devGetCountersBody_frame rfl .refl r
  · cases e

theorem bodies02_frame {op : Nat} {b : Body} (e : bodies02 op = some b) (s : State) (r : Req) : Frame 
    ({ lanes := true, groups := true, ports := true, prismFlight := true, recirc := true, merge := true,
       fwdCtr := true, cells := true, portClass := true, queues := true, spillVoqs := true, bufCtr := true,
       pkts := true, nextPkt := true, voqs := true, multiQ := true, pairs := true, fabPorts := true,
       fabCtr := true, nodes := true, egq := true, waitTx := true, schedCtr := true, evt := true,
       mirrors := true, cand := true, mirQ := true, mirCtr := true, telCtr := true, dropCtr := true,
       portCtr := true, prismCtr := true, timeCtr := true, shares := true, sets := true, snapshot := true,
       heldShadow := true, healthGen := true, margins := true, irq := true, out := true,
       free := true } : Touch) s (b r s).1 := by
  unfold bodies02 at e
  split at e
  · cases e; exact portSetModeBody_frame rfl .refl r
  · cases e; exact portGetStatusBody_frame rfl .refl r
  · cases e; exact portSetMacBody_frame rfl .refl r
  · cases e; exact portSetFlowBody_frame rfl .refl r
  · cases e; exact portSetThrottleBody_frame rfl .refl r
  · cases e; exact portSetEeeBody_frame rfl .refl r
  · cases e; exact portSetLaneMapBody_frame rfl .refl r
  · cases e; exact portGetMarginBody_frame rfl .refl r
  · cases e; exact portGetCountersBody_frame rfl .refl r
  · cases e; exact portSetAdminBody_frame rfl .refl r
  · cases e; exact portSetMarginBody_frame rfl .refl r
  · cases e

theorem bodies03_frame {op : Nat} {b : Body} (e : bodies03 op = some b) (s : State) (r : Req) : Frame 
    ({ prismBanks := true, prismCtr := true, sets := true, snapshot := true, heldShadow := true } : Touch) s (b r s).1 := by
  unfold bodies03 at e
  split at e
  · cases e; exact prismSetProfileBody_frame rfl .refl r
  · cases e; exact prismSetSelectBody_frame rfl .refl r
  · cases e; exact prismSetPortBody_frame rfl .refl r
  · cases e; exact prismWriteRuleBody_frame rfl .refl r
  · cases e; exact prismReadRuleBody_frame rfl .refl r
  · cases e; exact prismGetCountersBody_frame rfl .refl r
  · cases e; exact prismGetRuleCountersBody_frame rfl .refl r
  · cases e; exact prismGetEpochBody_frame rfl .refl r
  · cases e

theorem bodies04_frame {op : Nat} {b : Body} (e : bodies04 op = some b) (s : State) (r : Req) : Frame 
    ({ ports := true, gens := true, em := true, agePeriod := true, fwdCtr := true, flows := true, sets := true,
       snapshot := true, heldShadow := true } : Touch) s (b r s).1 := by
  unfold bodies04 at e
  split at e
  · cases e; exact fwdInsertBody_frame rfl .refl r
  · cases e; exact fwdDeleteBody_frame rfl .refl r
  · cases e; exact fwdLookupBody_frame rfl .refl r
  · cases e; exact fwdSetVlanBody_frame rfl .refl r
  · cases e; exact fwdSetRouteBody_frame rfl .refl r
  · cases e; exact fwdSetNexthopBody_frame rfl .refl r
  · cases e; exact fwdSetEcmpBody_frame rfl .refl r
  · cases e; exact fwdSetTemplateBody_frame rfl .refl r
  · cases e; exact fwdSetRouterBody_frame rfl .refl r
  · cases e; exact fwdSetLearnBody_frame rfl .refl r
  · cases e; exact fwdSetAgingBody_frame rfl .refl r
  · cases e; exact fwdFlushBody_frame rfl .refl r
  · cases e; exact fwdGetCountersBody_frame rfl .refl r
  · cases e; exact fwdGetOccupancyBody_frame rfl .refl r
  · cases e

theorem bodies05_frame {op : Nat} {b : Body} (e : bodies05 op = some b) (s : State) (r : Req) : Frame 
    ({ ports := true, classes := true, portClass := true, wred := true, queues := true, pools := true,
       bufCtr := true, portCtr := true, shares := true, sets := true, snapshot := true, heldShadow := true,
       out := true } : Touch) s (b r s).1 := by
  unfold bodies05 at e
  split at e
  · cases e; exact bufSetClassBody_frame rfl .refl r
  · cases e; exact bufSetPortClassBody_frame rfl .refl r
  · cases e; exact bufSetHeadroomBody_frame rfl .refl r
  · cases e; exact bufSetPfcTxBody_frame rfl .refl r
  · cases e; exact bufSetWredProfileBody_frame rfl .refl r
  · cases e; exact bufSetQueueBody_frame rfl .refl r
  · cases e; exact bufGetStatusBody_frame rfl .refl r
  · cases e; exact bufGetPortBody_frame rfl .refl r
  · cases e; exact bufGetCountersBody_frame rfl .refl r
  · cases e; exact bufGetPoolsBody_frame rfl .refl r
  · cases e

theorem bodies06_frame {op : Nat} {b : Body} (e : bodies06 op = some b) (s : State) (r : Req) : Frame 
    ({ fabParams := true, planes := true, fabPorts := true, links := true, evt := true, telCtr := true,
       sets := true, snapshot := true, heldShadow := true, healthGen := true, repairLog := true,
       irq := true, out := true } : Touch) s (b r s).1 := by
  unfold bodies06 at e
  split at e
  · cases e; exact fabSetParamsBody_frame rfl .refl r
  · cases e; exact fabSetPortBody_frame rfl .refl r
  · cases e; exact fabGetStatusBody_frame rfl .refl r
  · cases e; exact fabGetPairBody_frame rfl .refl r
  · cases e; exact fabSetPlaneBody_frame rfl .refl r
  · cases e; exact fabGetCountersBody_frame rfl .refl r
  · cases e

theorem bodies07_frame {op : Nat} {b : Body} (e : bodies07 op = some b) (s : State) (r : Req) : Frame 
    ({ ports := true, nodes := true, pol := true, loupeProf := true, loupeQueue := true, loupeItems := true,
       sets := true, snapshot := true, heldShadow := true } : Touch) s (b r s).1 := by
  unfold bodies07 at e
  split at e
  · cases e; exact schedSetNodeBody_frame rfl .refl r
  · cases e; exact schedGetNodeBody_frame rfl .refl r
  · cases e; exact polSetBody_frame rfl .refl r
  · cases e; exact polGetBody_frame rfl .refl r
  · cases e; exact polSetPortBody_frame rfl .refl r
  · cases e; exact loupeSetProfileBody_frame rfl .refl r
  · cases e; exact loupeSetQueueBody_frame rfl .refl r
  · cases e; exact loupeGetBody_frame rfl .refl r
  · cases e; exact schedGetCountersBody_frame rfl .refl r
  · cases e

theorem bodies08_frame {op : Nat} {b : Body} (e : bodies08 op = some b) (s : State) (r : Req) : Frame 
    ({ time := true, ptp := true, tsFifos := true, gates := true, lanes := true, groups := true,
       ports := true, prismBanks := true, prismFlight := true, hits := true, recirc := true, merge := true,
       gens := true, fwdFlight := true, em := true, learnQ := true, agePeriod := true, fwdCtr := true,
       cells := true, classes := true, portClass := true, wred := true, queues := true, spillVoqs := true,
       pools := true, bufCtr := true, pkts := true, nextPkt := true, fabParams := true, voqs := true,
       multiQ := true, pairs := true, fabPorts := true, links := true, fabCtr := true, nodes := true,
       egq := true, waitTx := true, pol := true, loupeProf := true, loupeQueue := true, loupeItems := true,
       schedCtr := true, frer := true, clusters := true, cores := true, flows := true, fix := true,
       fixCtr := true, pclasses := true, targets := true, drops := true, buses := true, notices := true,
       proofCtr := true, evt := true, mirrors := true, cand := true, mirQ := true, mirCtr := true,
       telCtr := true, dropCtr := true, portCtr := true, prismCtr := true, timeCtr := true, mbxCtr := true,
       pwrCtr := true, shares := true, rate := true, boxes := true, jobs := true, hist := true,
       heldEvents := true, sets := true, epoch := true, snapshot := true, heldShadow := true,
       peers := true, msgs := true, domBake := true, slices := true, warnC := true, regions := true,
       healthGen := true, margins := true, irq := true, out := true, free := true } : Touch) s (b r s).1 := by
  unfold bodies08 at e
  split at e
  · cases e; exact timeGetBody_frame rfl .refl r
  · cases e; exact timeAdjustBody_frame rfl .refl r
  · cases e; exact timeSetPtpBody_frame rfl .refl r
  · cases e; exact timeSetPortBody_frame rfl .refl r
  · cases e; exact timeSetPpsBody_frame rfl .refl r
  · cases e; exact gateSetListBody_frame rfl .refl r
  · cases e; exact gateGetStatusBody_frame rfl .refl r
  · cases e; exact timeGetCountersBody_frame rfl .refl r
  · cases e

theorem bodies09_frame {op : Nat} {b : Body} (e : bodies09 op = some b) (s : State) (r : Req) : Frame 
    ({ ports := true, gens := true, frer := true, clusters := true, fix := true, evt := true,
       telCtr := true, redCtr := true, sets := true, snapshot := true, heldShadow := true, mps := true,
       healthGen := true, irq := true, out := true } : Touch) s (b r s).1 := by
  unfold bodies09 at e
  split at e
  · cases e; exact frerSetStreamBody_frame rfl .refl r
  · cases e; exact frerGetStreamBody_frame rfl .refl r
  · cases e; exact frerSetPortBody_frame rfl .refl r
  · cases e; exact frerResetStreamBody_frame rfl .refl r
  · cases e; exact redGetHealthBody_frame rfl .refl r
  · cases e; exact redSwitchoverBody_frame rfl .refl r
  · cases e; exact redResyncBody_frame rfl .refl r
  · cases e; exact redGetCountersBody_frame rfl .refl r
  · cases e

theorem bodies0A_frame {op : Nat} {b : Body} (e : bodies0A op = some b) (s : State) (r : Req) : Frame 
    ({ cores := true, fix := true, flushes := true, fixCtr := true, evt := true, telCtr := true,
       rate := true, sets := true, snapshot := true, heldShadow := true, irq := true, out := true,
       free := true } : Touch) s (b r s).1 := by
  unfold bodies0A at e
  split at e
  · cases e; exact fixSetClusterBody_frame rfl .refl r
  · cases e; exact fixGetFlowBody_frame rfl .refl r
  · cases e; exact fixGetLogBody_frame rfl .refl r
  · cases e; exact fixReleaseBody_frame rfl .refl r
  · cases e; exact fixFlushBody_frame rfl .refl r
  · cases e; exact fixGetReceiptBody_frame rfl .refl r
  · cases e; exact leavenGetClusterBody_frame rfl .refl r
  · cases e; exact leavenSetEventsBody_frame rfl .refl r
  · cases e; exact leavenGetCoreBody_frame rfl .refl r
  · cases e; exact fixGetCountersBody_frame rfl .refl r
  · cases e

theorem bodies0B_frame {op : Nat} {b : Body} (e : bodies0B op = some b) (s : State) (r : Req) : Frame 
    ({ ports := true, pclasses := true, targets := true, drops := true, buses := true, notices := true,
       proofCtr := true, evt := true, telCtr := true, portCtr := true, sets := true, snapshot := true,
       heldShadow := true, irq := true, out := true } : Touch) s (b r s).1 := by
  unfold bodies0B at e
  split at e
  · cases e; exact proofSetClassBody_frame rfl .refl r
  · cases e; exact proofSetTargetBody_frame rfl .refl r
  · cases e; exact proofSetStateBody_frame rfl .refl r
  · cases e; exact proofGetTargetBody_frame rfl .refl r
  · cases e; exact shelfSetBody_frame rfl .refl r
  · cases e; exact shelfGetBody_frame rfl .refl r
  · cases e; exact shelfSetBusBody_frame rfl .refl r
  · cases e; exact proofGetCountersBody_frame rfl .refl r
  · cases e

theorem bodies0C_frame {op : Nat} {b : Body} (e : bodies0C op = some b) (s : State) (r : Req) : Frame 
    ({ spillVoqs := true, sets := true, snapshot := true, heldShadow := true, regions := true } : Touch) s (b r s).1 := by
  unfold bodies0C at e
  split at e
  · cases e; exact memGetMapBody_frame rfl .refl r
  · cases e; exact memSetRegionsBody_frame rfl .refl r
  · cases e; exact memGetHealthBody_frame rfl .refl r
  · cases e

theorem bodies0D_frame {op : Nat} {b : Body} (e : bodies0D op = some b) (s : State) (r : Req) : Frame 
    ({ prismBanks := true, gens := true, em := true, fwdCtr := true, pools := true, bufCtr := true,
       waitTx := true, evt := true, telCtr := true, portCtr := true, mbxCtr := true, boxes := true,
       jobs := true, hist := true, heldEvents := true, sets := true, peers := true, msgs := true,
       domBake := true, irq := true, out := true } : Touch) s (b r s).1 := by
  unfold bodies0D at e
  split at e
  · cases e; exact bakeOpenBody_frame rfl .refl r
  · cases e; exact bakeCheckBody_frame rfl .refl r
  · cases e; exact bakeCommitBody_frame rfl .refl r
  · cases e; exact bakeAbortBody_frame rfl .refl r
  · cases e; exact bakeGetSetBody_frame rfl .refl r
  · cases e

theorem bodies0E_frame {op : Nat} {b : Body} (e : bodies0E op = some b) (s : State) (r : Req) : Frame 
    ({ ports := true, prismBanks := true, gens := true, em := true, fwdCtr := true, pools := true,
       bufCtr := true, waitTx := true, evt := true, telCtr := true, portCtr := true, mbxCtr := true,
       boxes := true, jobs := true, hist := true, heldEvents := true, sets := true, snapshot := true,
       heldShadow := true, peers := true, msgs := true, domBake := true, membership := true,
       fwdReqs := true, irq := true, out := true } : Touch) s (b r s).1 := by
  unfold bodies0E at e
  split at e
  · cases e; exact domSetPortBody_frame rfl .refl r
  · cases e; exact domAdmitBody_frame rfl .refl r
  · cases e; exact domGetStatusBody_frame rfl .refl r
  · cases e; exact domForwardBody_frame rfl .refl r
  · cases e; exact domBakeBody_frame rfl .refl r
  · cases e; exact domAbortBody_frame rfl .refl r
  · cases e; exact domLeaveBody_frame rfl .refl r
  · cases e

theorem bodies0F_frame {op : Nat} {b : Body} (e : bodies0F op = some b) (s : State) (r : Req) : Frame 
    ({ evt := true, telCtr := true, slots := true, bootCfg := true, minSvn := true, pin := true, irq := true,
       out := true, free := true } : Touch) s (b r s).1 := by
  unfold bodies0F at e
  split at e
  · cases e; exact idGetInfoBody_frame rfl .refl r
  · cases e; exact idGetCertBody_frame rfl .refl r
  · cases e; exact idGetMeasurementsBody_frame rfl .refl r
  · cases e; exact idWriteImageBody_frame rfl .refl r
  · cases e; exact idVerifyImageBody_frame rfl .refl r
  · cases e; exact idSetBootBody_frame rfl .refl r
  · cases e; exact idCommitSvnBody_frame rfl .refl r
  · cases e; exact idPinManagerBody_frame rfl .refl r
  · cases e

theorem bodies10_frame {op : Nat} {b : Body} (e : bodies10 op = some b) (s : State) (r : Req) : Frame 
    ({ ports := true, mirrors := true, sets := true, snapshot := true, heldShadow := true } : Touch) s (b r s).1 := by
  unfold bodies10 at e
  split at e
  · cases e; exact telSetMirrorBody_frame rfl .refl r
  · cases e; exact telSetPortMirrorBody_frame rfl .refl r
  · cases e; exact telGetMirrorBody_frame rfl .refl r
  · cases e; exact telGetDropsBody_frame rfl .refl r
  · cases e; exact telGetCountersBody_frame rfl .refl r
  · cases e

theorem bodies11_frame {op : Nat} {b : Body} (e : bodies11 op = some b) (s : State) (r : Req) : Frame 
    ({ lanes := true, ports := true, prismFlight := true, hits := true, recirc := true, merge := true,
       fwdFlight := true, learnQ := true, fwdCtr := true, cells := true, portClass := true, queues := true,
       spillVoqs := true, bufCtr := true, pkts := true, nextPkt := true, voqs := true, multiQ := true,
       pairs := true, fabPorts := true, links := true, fabCtr := true, nodes := true, egq := true,
       waitTx := true, loupeItems := true, schedCtr := true, clusters := true, cores := true,
       flows := true, fix := true, fixCtr := true, proofCtr := true, evt := true, swp := true,
       mirrors := true, cand := true, mirQ := true, mirCtr := true, telCtr := true, dropCtr := true,
       portCtr := true, prismCtr := true, timeCtr := true, pwrCtr := true, shares := true, rate := true,
       heldEvents := true, sets := true, snapshot := true, heldShadow := true, slices := true,
       warnC := true, healthGen := true, irq := true, out := true, free := true } : Touch) s (b r s).1 := by
  unfold bodies11 at e
  split at e
  · cases e; exact pwrGetStatusBody_frame rfl .refl r
  · cases e; exact pwrSetDroopBody_frame rfl .refl r
  · cases e; exact pwrSetThermalBody_frame rfl .refl r
  · cases e; exact pwrSliceResetBody_frame rfl .refl r
  · cases e; exact pwrSliceParkBody_frame rfl .refl r
  · cases e; exact pwrRestoreBody_frame rfl .refl r
  · cases e; exact pwrGetCountersBody_frame rfl .refl r
  · cases e

/-- The body of every command keeps what every operation keeps. -/
theorem bodyOf_frame {op : Nat} {b : Body} (e : bodyOf op = some b) (s : State) (r : Req) : Frame 
    ({ time := true, ptp := true, tsFifos := true, gates := true, lanes := true, groups := true,
       ports := true, prismBanks := true, prismFlight := true, hits := true, recirc := true, merge := true,
       gens := true, fwdFlight := true, em := true, learnQ := true, agePeriod := true, fwdCtr := true,
       cells := true, classes := true, portClass := true, wred := true, queues := true, spillVoqs := true,
       pools := true, bufCtr := true, pkts := true, nextPkt := true, fabParams := true, voqs := true,
       multiQ := true, pairs := true, planes := true, fabPorts := true, links := true, fabCtr := true,
       nodes := true, egq := true, waitTx := true, pol := true, loupeProf := true, loupeQueue := true,
       loupeItems := true, schedCtr := true, frer := true, clusters := true, cores := true, flows := true,
       fix := true, flushes := true, fixCtr := true, pclasses := true, targets := true, drops := true,
       buses := true, notices := true, proofCtr := true, evt := true, swp := true, mirrors := true,
       cand := true, mirQ := true, mirCtr := true, telCtr := true, dropCtr := true, portCtr := true,
       prismCtr := true, timeCtr := true, redCtr := true, mbxCtr := true, pwrCtr := true, shares := true,
       rate := true, boxes := true, jobs := true, hist := true, life := true, heldEvents := true,
       sets := true, epoch := true, snapshot := true, heldShadow := true, peers := true, msgs := true,
       domBake := true, membership := true, fwdReqs := true, slots := true, bootCfg := true,
       minSvn := true, pin := true, slices := true, warnC := true, regions := true, mps := true,
       healthGen := true, repairLog := true, margins := true, irq := true, out := true,
       free := true } : Touch) s (b r s).1 := by
  unfold bodyOf at e
  split at e
  · exact (bodies01_frame e s r).wider rfl
  · exact (bodies02_frame e s r).wider rfl
  · exact (bodies03_frame e s r).wider rfl
  · exact (bodies04_frame e s r).wider rfl
  · exact (bodies05_frame e s r).wider rfl
  · exact (bodies06_frame e s r).wider rfl
  · exact (bodies07_frame e s r).wider rfl
  · exact (bodies08_frame e s r).wider rfl
  · exact (bodies09_frame e s r).wider rfl
  · exact (bodies0A_frame e s r).wider rfl
  · exact (bodies0B_frame e s r).wider rfl
  · exact (bodies0C_frame e s r).wider rfl
  · exact (bodies0D_frame e s r).wider rfl
  · exact (bodies0E_frame e s r).wider rfl
  · exact (bodies0F_frame e s r).wider rfl
  · exact (bodies10_frame e s r).wider rfl
  · exact (bodies11_frame e s r).wider rfl
  · cases e

theorem State.runOp_frame {wt : Touch} {s0 s : State} (hw : 
    ({ time := true, ptp := true, tsFifos := true, gates := true, lanes := true, groups := true,
       ports := true, prismBanks := true, prismFlight := true, hits := true, recirc := true, merge := true,
       gens := true, fwdFlight := true, em := true, learnQ := true, agePeriod := true, fwdCtr := true,
       cells := true, classes := true, portClass := true, wred := true, queues := true, spillVoqs := true,
       pools := true, bufCtr := true, pkts := true, nextPkt := true, fabParams := true, voqs := true,
       multiQ := true, pairs := true, planes := true, fabPorts := true, links := true, fabCtr := true,
       nodes := true, egq := true, waitTx := true, pol := true, loupeProf := true, loupeQueue := true,
       loupeItems := true, schedCtr := true, frer := true, clusters := true, cores := true, flows := true,
       fix := true, flushes := true, fixCtr := true, pclasses := true, targets := true, drops := true,
       buses := true, notices := true, proofCtr := true, evt := true, swp := true, mirrors := true,
       cand := true, mirQ := true, mirCtr := true, telCtr := true, dropCtr := true, portCtr := true,
       prismCtr := true, timeCtr := true, redCtr := true, mbxCtr := true, pwrCtr := true, shares := true,
       rate := true, boxes := true, jobs := true, hist := true, life := true, heldEvents := true,
       sets := true, epoch := true, snapshot := true, heldShadow := true, peers := true, msgs := true,
       domBake := true, membership := true, fwdReqs := true, slots := true, bootCfg := true,
       minSvn := true, pin := true, slices := true, warnC := true, regions := true, mps := true,
       healthGen := true, repairLog := true, margins := true, irq := true, out := true,
       free := true } : Touch).or wt = wt)
    (hK : Frame wt s0 s) (op : Nat) (r : Req) : Frame wt s0 (State.runOp s op r) := by
  refine Frame.step hK hw ?_
  unfold State.runOp
  (try dsimp only)
  repeat' first
    | ((with_reducible show Touch.or _ _ = _) <;> rfl)
    | with_reducible (first | exact Frame.refl | apply State.runJob_frame)
    | exact (bodyOf_frame (by assumption) _ _).wider rfl | exact fun x => (bodyOf_frame (by assumption) x _).wider rfl
    | split

theorem State.runForwarded_frame {wt : Touch} {s0 s : State} (hw :
    ({ time := true, ptp := true, tsFifos := true, gates := true, lanes := true, groups := true,
       ports := true, prismBanks := true, prismFlight := true, hits := true, recirc := true, merge := true,
       gens := true, fwdFlight := true, em := true, learnQ := true, agePeriod := true, fwdCtr := true,
       cells := true, classes := true, portClass := true, wred := true, queues := true, spillVoqs := true,
       pools := true, bufCtr := true, pkts := true, nextPkt := true, fabParams := true, voqs := true,
       multiQ := true, pairs := true, planes := true, fabPorts := true, links := true, fabCtr := true,
       nodes := true, egq := true, waitTx := true, pol := true, loupeProf := true, loupeQueue := true,
       loupeItems := true, schedCtr := true, frer := true, clusters := true, cores := true, flows := true,
       fix := true, flushes := true, fixCtr := true, pclasses := true, targets := true, drops := true,
       buses := true, notices := true, proofCtr := true, evt := true, swp := true, mirrors := true,
       cand := true, mirQ := true, mirCtr := true, telCtr := true, dropCtr := true, portCtr := true,
       prismCtr := true, timeCtr := true, redCtr := true, mbxCtr := true, pwrCtr := true, shares := true,
       rate := true, boxes := true, jobs := true, hist := true, life := true, lostAsync := true,
       heldEvents := true, sets := true, epoch := true, snapshot := true, heldShadow := true,
       peers := true, msgs := true, domBake := true, membership := true, fwdReqs := true, slots := true,
       bootCfg := true, minSvn := true, pin := true, sessions := true, slices := true, warnC := true,
       regions := true, mps := true, healthGen := true, repairLog := true, margins := true, irq := true,
       out := true, free := true } : Touch).or wt = wt)
    (hK : Frame wt s0 s) (op : Nat) (r : Req) :
    Frame wt s0 (State.runForwarded s op r) := by
  refine Frame.step hK hw ?_
  unfold State.runForwarded
  (try dsimp only)
  repeat' first
    | ((with_reducible show Touch.or _ _ = _) <;> rfl)
    | with_reducible (first
        | exact Frame.refl | apply State.runOp_frame | apply State.afterCommand_frame | apply State.takeJob_frame)
    | (with_reducible refine Frame.foldl _ (fun _ _ hF => ?_) _ ?_)
    | (intro _ hF; skip) | with_reducible assumption
    | (with_reducible refine Frame.ite (fun _ => ?_) (fun _ => ?_)) | split
    | fail_if_no_progress ((with_reducible apply Frame.fields); (case hq => rfl); (case hc => rfl))

theorem State.forwarded_frame {wt : Touch} {s0 s : State} (hw : 
    ({ time := true, ptp := true, tsFifos := true, gates := true, lanes := true, groups := true,
       ports := true, prismBanks := true, prismFlight := true, hits := true, recirc := true, merge := true,
       gens := true, fwdFlight := true, em := true, learnQ := true, agePeriod := true, fwdCtr := true,
       cells := true, classes := true, portClass := true, wred := true, queues := true, spillVoqs := true,
       pools := true, bufCtr := true, pkts := true, nextPkt := true, fabParams := true, voqs := true,
       multiQ := true, pairs := true, planes := true, fabPorts := true, links := true, fabCtr := true,
       nodes := true, egq := true, waitTx := true, pol := true, loupeProf := true, loupeQueue := true,
       loupeItems := true, schedCtr := true, frer := true, clusters := true, cores := true, flows := true,
       fix := true, flushes := true, fixCtr := true, pclasses := true, targets := true, drops := true,
       buses := true, notices := true, proofCtr := true, evt := true, swp := true, mirrors := true,
       cand := true, mirQ := true, mirCtr := true, telCtr := true, dropCtr := true, portCtr := true,
       prismCtr := true, timeCtr := true, redCtr := true, mbxCtr := true, pwrCtr := true, shares := true,
       rate := true, boxes := true, jobs := true, hist := true, life := true, lostAsync := true,
       heldEvents := true, sets := true, epoch := true, snapshot := true, heldShadow := true,
       peers := true, msgs := true, domBake := true, membership := true, fwdReqs := true, slots := true,
       bootCfg := true, minSvn := true, pin := true, sessions := true, slices := true, warnC := true,
       regions := true, mps := true, healthGen := true, repairLog := true, margins := true, irq := true,
       out := true, free := true } : Touch).or wt
    = wt)
    (hK : Frame wt s0 s) (op : Nat) (r : Req) : Frame wt s0 (State.forwarded s op r) := by
  refine Frame.step hK hw ?_
  unfold State.forwarded
  (try dsimp only)
  repeat' first
    | ((with_reducible show Touch.or _ _ = _) <;> rfl)
    | with_reducible (first
        | exact Frame.refl | apply State.afterCommand_frame | apply State.applyVerdict_frame
        | apply State.postReq_frame | apply State.runOp_frame | apply State.runForwarded_frame)
    | (with_reducible refine Frame.ite (fun _ => ?_) (fun _ => ?_))
    | fail_if_no_progress ((with_reducible apply Frame.fields); (case hq => rfl); (case hc => rfl))

theorem execForwardReq_frame (m : DomIn) (s : State) : OutFrame 
    ({ time := true, ptp := true, tsFifos := true, gates := true, lanes := true, groups := true,
       ports := true, prismBanks := true, prismFlight := true, hits := true, recirc := true, merge := true,
       gens := true, fwdFlight := true, em := true, learnQ := true, agePeriod := true, fwdCtr := true,
       cells := true, classes := true, portClass := true, wred := true, queues := true, spillVoqs := true,
       pools := true, bufCtr := true, pkts := true, nextPkt := true, fabParams := true, voqs := true,
       multiQ := true, pairs := true, planes := true, fabPorts := true, links := true, fabCtr := true,
       nodes := true, egq := true, waitTx := true, pol := true, loupeProf := true, loupeQueue := true,
       loupeItems := true, schedCtr := true, frer := true, clusters := true, cores := true, flows := true,
       fix := true, flushes := true, fixCtr := true, pclasses := true, targets := true, drops := true,
       buses := true, notices := true, proofCtr := true, evt := true, swp := true, mirrors := true,
       cand := true, mirQ := true, mirCtr := true, telCtr := true, dropCtr := true, portCtr := true,
       prismCtr := true, timeCtr := true, redCtr := true, mbxCtr := true, pwrCtr := true, shares := true,
       rate := true, boxes := true, jobs := true, hist := true, life := true, lostAsync := true,
       heldEvents := true, sets := true, epoch := true, snapshot := true, heldShadow := true,
       peers := true, msgs := true, domBake := true, membership := true, authFails := true,
       fwdReqs := true, slots := true, bootCfg := true, minSvn := true, pin := true, sessions := true,
       slices := true, warnC := true, regions := true, mps := true, healthGen := true, repairLog := true,
       margins := true, irq := true, out := true, free := true } : Touch) s (execForwardReq m s) := by
  unfold execForwardReq
  (try dsimp only [domRow])
  repeat' first
    | with_reducible (first | exact OutFrame.fault _ _ | apply OutFrame.next)
    | ((with_reducible show Touch.or _ _ = _) <;> rfl)
    | with_reducible (first
        | exact Frame.refl | apply State.atWorker_frame | apply State.domIn_frame | apply State.forwarded_frame)
    | (intro _ hF; skip) | with_reducible assumption | split

theorem State.serveOne_frame {wt : Touch} {s0 s : State} (hw :
    ({ time := true, ptp := true, tsFifos := true, gates := true, lanes := true, groups := true,
       ports := true, prismBanks := true, prismFlight := true, hits := true, recirc := true, merge := true,
       gens := true, fwdFlight := true, em := true, learnQ := true, agePeriod := true, fwdCtr := true,
       cells := true, classes := true, portClass := true, wred := true, queues := true, spillVoqs := true,
       pools := true, bufCtr := true, pkts := true, nextPkt := true, fabParams := true, voqs := true,
       multiQ := true, pairs := true, planes := true, fabPorts := true, links := true, fabCtr := true,
       nodes := true, egq := true, waitTx := true, pol := true, loupeProf := true, loupeQueue := true,
       loupeItems := true, schedCtr := true, frer := true, clusters := true, cores := true, flows := true,
       fix := true, flushes := true, fixCtr := true, pclasses := true, targets := true, drops := true,
       buses := true, notices := true, proofCtr := true, evt := true, swp := true, mirrors := true,
       cand := true, mirQ := true, mirCtr := true, telCtr := true, dropCtr := true, portCtr := true,
       prismCtr := true, timeCtr := true, redCtr := true, mbxCtr := true, pwrCtr := true, shares := true,
       rate := true, boxes := true, jobs := true, hist := true, life := true, lostAsync := true,
       heldEvents := true, sets := true, epoch := true, snapshot := true, heldShadow := true,
       peers := true, msgs := true, domBake := true, membership := true, fwdReqs := true, slots := true,
       bootCfg := true, minSvn := true, pin := true, sessions := true, slices := true, warnC := true,
       regions := true, mps := true, healthGen := true, repairLog := true, margins := true, irq := true,
       out := true, free := true } : Touch).or wt = wt)
    (hK : Frame wt s0 s) (j : Job) :
    Frame wt s0 (State.serveOne s j) := by
  refine Frame.step hK hw ?_
  unfold State.serveOne
  (try dsimp only)
  repeat' first
    | ((with_reducible show Touch.or _ _ = _) <;> rfl)
    | with_reducible (first | exact Frame.refl | apply State.runForwarded_frame | apply State.takeJob_frame)
    | (with_reducible refine Frame.foldl _ (fun _ _ hF => ?_) _ ?_)
    | (intro _ hF; skip) | with_reducible assumption
    | (with_reducible refine Frame.ite (fun _ => ?_) (fun _ => ?_)) | split
    | fail_if_no_progress ((with_reducible apply Frame.fields); (case hq => rfl); (case hc => rfl))

theorem State.serveGap_frame {wt : Touch} {s0 s : State} (hw :
    ({ time := true, ptp := true, tsFifos := true, gates := true, lanes := true, groups := true,
       ports := true, prismBanks := true, prismFlight := true, hits := true, recirc := true, merge := true,
       gens := true, fwdFlight := true, em := true, learnQ := true, agePeriod := true, fwdCtr := true,
       cells := true, classes := true, portClass := true, wred := true, queues := true, spillVoqs := true,
       pools := true, bufCtr := true, pkts := true, nextPkt := true, fabParams := true, voqs := true,
       multiQ := true, pairs := true, planes := true, fabPorts := true, links := true, fabCtr := true,
       nodes := true, egq := true, waitTx := true, pol := true, loupeProf := true, loupeQueue := true,
       loupeItems := true, schedCtr := true, frer := true, clusters := true, cores := true, flows := true,
       fix := true, flushes := true, fixCtr := true, pclasses := true, targets := true, drops := true,
       buses := true, notices := true, proofCtr := true, evt := true, swp := true, mirrors := true,
       cand := true, mirQ := true, mirCtr := true, telCtr := true, dropCtr := true, portCtr := true,
       prismCtr := true, timeCtr := true, redCtr := true, mbxCtr := true, pwrCtr := true, shares := true,
       rate := true, boxes := true, jobs := true, hist := true, life := true, lostAsync := true,
       heldEvents := true, sets := true, epoch := true, snapshot := true, heldShadow := true,
       peers := true, msgs := true, domBake := true, membership := true, fwdReqs := true, slots := true,
       bootCfg := true, minSvn := true, pin := true, sessions := true, slices := true, warnC := true,
       regions := true, mps := true, healthGen := true, repairLog := true, margins := true, irq := true,
       out := true, free := true } : Touch).or wt = wt)
    (hK : Frame wt s0 s)  :
    Frame wt s0 (State.serveGap s) := by
  refine Frame.step hK hw ?_
  unfold State.serveGap
  (try dsimp only)
  repeat' first
    | ((with_reducible show Touch.or _ _ = _) <;> rfl)
    | with_reducible (first | exact Frame.refl | apply State.applyVerdict_frame | apply State.serveOne_frame)
    | (with_reducible refine Frame.foldl _ (fun _ _ hF => ?_) _ ?_)
    | (intro _ hF; skip) | with_reducible assumption
    | (with_reducible refine Frame.ite (fun _ => ?_) (fun _ => ?_)) | split
    | fail_if_no_progress ((with_reducible apply Frame.fields); (case hq => rfl); (case hc => rfl))

theorem State.switchFails_frame {wt : Touch} {s0 s : State} (hw :
    ({ time := true, ptp := true, tsFifos := true, gates := true, lanes := true, groups := true,
       ports := true, prismBanks := true, prismFlight := true, hits := true, recirc := true, merge := true,
       gens := true, fwdFlight := true, em := true, learnQ := true, agePeriod := true, fwdCtr := true,
       cells := true, classes := true, portClass := true, wred := true, queues := true, spillVoqs := true,
       pools := true, bufCtr := true, pkts := true, nextPkt := true, fabParams := true, voqs := true,
       multiQ := true, pairs := true, planes := true, fabPorts := true, links := true, fabCtr := true,
       nodes := true, egq := true, waitTx := true, pol := true, loupeProf := true, loupeQueue := true,
       loupeItems := true, schedCtr := true, frer := true, clusters := true, cores := true, flows := true,
       fix := true, flushes := true, fixCtr := true, pclasses := true, targets := true, drops := true,
       buses := true, notices := true, proofCtr := true, evt := true, swp := true, mirrors := true,
       cand := true, mirQ := true, mirCtr := true, telCtr := true, dropCtr := true, portCtr := true,
       prismCtr := true, timeCtr := true, redCtr := true, mbxCtr := true, pwrCtr := true, shares := true,
       rate := true, boxes := true, jobs := true, hist := true, life := true, lostAsync := true,
       heldEvents := true, sets := true, epoch := true, snapshot := true, heldShadow := true,
       peers := true, msgs := true, domBake := true, membership := true, fwdReqs := true, slots := true,
       bootCfg := true, minSvn := true, pin := true, sessions := true, slices := true, warnC := true,
       regions := true, mps := true, healthGen := true, repairLog := true, margins := true, irq := true,
       out := true, free := true } : Touch).or wt = wt)
    (hK : Frame wt s0 s) (cause : Nat) (old : Nat) :
    Frame wt s0 (State.switchFails s cause old) := by
  refine Frame.step hK hw ?_
  unfold State.switchFails
  (try dsimp only)
  repeat' first
    | ((with_reducible show Touch.or _ _ = _) <;> rfl)
    | with_reducible (first
        | exact Frame.refl | apply State.mgmtLost_frame | apply State.serveGap_frame | apply State.complete_frame)
    | (with_reducible refine Frame.foldl _ (fun _ _ hF => ?_) _ ?_)
    | (intro _ hF; skip) | with_reducible assumption
    | (with_reducible refine Frame.ite (fun _ => ?_) (fun _ => ?_)) | split
    | fail_if_no_progress ((with_reducible apply Frame.fields); (case hq => rfl); (case hc => rfl))

theorem State.gapOver_frame {wt : Touch} {s0 s : State} (hw :
    ({ time := true, evt := true, telCtr := true, irq := true, out := true } : Touch).or wt = wt)
    (hK : Frame wt s0 s)  :
    Frame wt s0 (State.gapOver s) := by
  refine Frame.step hK hw ?_
  unfold State.gapOver
  (try dsimp only)
  repeat' first
    | ((with_reducible show Touch.or _ _ = _) <;> rfl)
    | with_reducible (first | exact Frame.refl | apply State.sourceLost_frame)
    | (with_reducible refine Frame.foldl _ (fun _ _ hF => ?_) _ ?_)
    | (intro _ hF; skip) | with_reducible assumption
    | (with_reducible refine Frame.ite (fun _ => ?_) (fun _ => ?_)) | split
    | fail_if_no_progress ((with_reducible apply Frame.fields); (case hq => rfl); (case hc => rfl))

theorem execMpFailoverDone_frame (s : State) : OutFrame 
    ({ time := true, ptp := true, tsFifos := true, gates := true, lanes := true, groups := true,
       ports := true, prismBanks := true, prismFlight := true, hits := true, recirc := true, merge := true,
       gens := true, fwdFlight := true, em := true, learnQ := true, agePeriod := true, fwdCtr := true,
       cells := true, classes := true, portClass := true, wred := true, queues := true, spillVoqs := true,
       pools := true, bufCtr := true, pkts := true, nextPkt := true, fabParams := true, voqs := true,
       multiQ := true, pairs := true, planes := true, fabPorts := true, links := true, fabCtr := true,
       nodes := true, egq := true, waitTx := true, pol := true, loupeProf := true, loupeQueue := true,
       loupeItems := true, schedCtr := true, frer := true, clusters := true, cores := true, flows := true,
       fix := true, flushes := true, fixCtr := true, pclasses := true, targets := true, drops := true,
       buses := true, notices := true, proofCtr := true, evt := true, swp := true, mirrors := true,
       cand := true, mirQ := true, mirCtr := true, telCtr := true, dropCtr := true, portCtr := true,
       prismCtr := true, timeCtr := true, redCtr := true, mbxCtr := true, pwrCtr := true, shares := true,
       rate := true, boxes := true, jobs := true, hist := true, life := true, lostAsync := true,
       heldEvents := true, sets := true, epoch := true, snapshot := true, heldShadow := true,
       peers := true, msgs := true, domBake := true, membership := true, fwdReqs := true, slots := true,
       bootCfg := true, minSvn := true, pin := true, sessions := true, slices := true, warnC := true,
       regions := true, mps := true, healthGen := true, repairLog := true, margins := true, irq := true,
       out := true, free := true } : Touch) s (execMpFailoverDone s) := by
  unfold execMpFailoverDone
  (try dsimp only)
  repeat' first
    | with_reducible (first | exact OutFrame.fault _ _ | apply OutFrame.next)
    | ((with_reducible show Touch.or _ _ = _) <;> rfl)
    | with_reducible (first
        | exact Frame.refl | apply State.bumpRed_frame | apply State.finishJob_frame
        | apply State.healthChanged_frame | apply State.raise_frame | apply State.repairAdd_frame
        | apply State.setMp_frame | apply State.updMp_frame | apply State.switchFails_frame
        | apply State.serveGap_frame | apply State.gapOver_frame)
    | (intro _ hF; skip) | with_reducible assumption | (with_reducible refine Frame.ite (fun _ => ?_) (fun _ => ?_))
    | split | fail_if_no_progress ((with_reducible apply Frame.fields); (case hq => rfl); (case hc => rfl))

end Sys2Proof.Machine
end

