-- ==== Sys2Proof/Laws/FrameRegisters.lean ====
section
/-! SUPPORT. What the operations of Registers may change. -/

set_option Elab.async false
set_option linter.all false

namespace Sys2Proof.Machine

theorem State.stoppedOnly_frame {wt : Touch} {s0 s : State} (hw : 
    ({ evt := true, telCtr := true, irq := true, chans := true, out := true } : Touch).or wt = wt)
    (hK : Frame wt s0 s) (c : Nat) (off : Nat) (size : Nat) (f : Chan → Chan) : Frame wt s0 (State.stoppedOnly s c off
    size f) := by
  refine Frame.step hK hw ?_
  unfold State.stoppedOnly
  (try dsimp only)
  repeat' first
    | ((with_reducible show Touch.or _ _ = _) <;> rfl)
    | with_reducible (first | exact Frame.refl | apply State.reservedAccess_frame | apply State.updChan_frame)
    | (with_reducible refine Frame.ite (fun _ => ?_) (fun _ => ?_))

theorem State.writeDma_frame {wt : Touch} {s0 s : State} (hw : 
    ({ evt := true, telCtr := true, irq := true, chans := true, fifos := true, waitFetch := true, out := true } :
    Touch).or wt = wt)
    (hK : Frame wt s0 s) (c : Nat) (o : Nat) (off : Nat) (size : Nat) (v : Nat) : Frame wt s0 (State.writeDma s c o
    off size v) := by
  refine Frame.step hK hw ?_
  unfold State.writeDma
  (try dsimp only)
  repeat' first
    | ((with_reducible show Touch.or _ _ = _) <;> rfl)
    | with_reducible (first
        | exact Frame.refl | apply State.chanRing_frame | apply State.cqResume_frame | apply State.stoppedOnly_frame
        | apply State.updChan_frame | apply State.writeCtrl_frame)
    | (intro _ hF; skip) | with_reducible assumption | (with_reducible refine Frame.ite (fun _ => ?_) (fun _ => ?_))

theorem State.sweepOff_frame {wt : Touch} {s0 s : State} (hw : 
    ({ evt := true, swpRegs := true, swp := true, telCtr := true, irq := true, out := true } : Touch).or wt = wt)
    (hK : Frame wt s0 s) (off : Nat) (size : Nat) (w : SwpSt) : Frame wt s0 (State.sweepOff s off size w) := by
  refine Frame.step hK hw ?_
  unfold State.sweepOff
  (try dsimp only)
  repeat' first
    | ((with_reducible show Touch.or _ _ = _) <;> rfl)
    | with_reducible (first | exact Frame.refl | apply State.reservedAccess_frame)
    | (with_reducible refine Frame.ite (fun _ => ?_) (fun _ => ?_)) | split
    | fail_if_no_progress ((with_reducible apply Frame.fields); (case hq => rfl); (case hc => rfl))

theorem State.writeSwp_frame {wt : Touch} {s0 s : State} (hw : 
    ({ evt := true, swpRegs := true, swp := true, telCtr := true, portCtr := true, rate := true,
       irq := true, out := true, free := true } : Touch).or wt = wt)
    (hK : Frame wt s0 s) (o : Nat) (off : Nat) (size : Nat) (v : Nat) : Frame wt s0 (State.writeSwp s o off size v) :=
    by
  refine Frame.step hK hw ?_
  unfold State.writeSwp
  (try dsimp only)
  repeat' first
    | ((with_reducible show Touch.or _ _ = _) <;> rfl)
    | with_reducible (first
        | exact Frame.refl | apply State.sweepOff_frame | apply State.updSwp_frame
        | apply State.writeLoupeCtrl_frame | apply State.writeLoupeHead_frame | apply State.writeSwpCtrl_frame
        | apply State.writeSwpHead_frame)
    | (intro _ hF; skip) | with_reducible assumption | (with_reducible refine Frame.ite (fun _ => ?_) (fun _ => ?_))

theorem State.writeHpf_frame {wt : Touch} {s0 s : State} (hw : 
    ({ fifos := true } : Touch).or wt = wt)
    (hK : Frame wt s0 s) (f : Nat) (o : Nat) (v : Nat) : Frame wt s0 (State.writeHpf s f o v) := by
  refine Frame.step hK hw ?_
  unfold State.writeHpf
  (try dsimp only)
  repeat' first
    | ((with_reducible show Touch.or _ _ = _) <;> rfl)
    | with_reducible (first | exact Frame.refl | apply State.updFifo_frame) | (intro _ hF; skip)
    | with_reducible assumption | (with_reducible refine Frame.ite (fun _ => ?_) (fun _ => ?_))

theorem State.writeEvt_frame {wt : Touch} {s0 s : State} (hw : 
    ({ evtRegs := true, evt := true, telCtr := true, irq := true, out := true } : Touch).or wt = wt)
    (hK : Frame wt s0 s) (o : Nat) (v : Nat) : Frame wt s0 (State.writeEvt s o v) := by
  refine Frame.step hK hw ?_
  unfold State.writeEvt
  (try dsimp only)
  repeat' first
    | ((with_reducible show Touch.or _ _ = _) <;> rfl)
    | with_reducible (first | exact Frame.refl | apply State.writeEvtCtrl_frame | apply State.writeEvtHead_frame)
    | (with_reducible refine Frame.ite (fun _ => ?_) (fun _ => ?_)) | split
    | fail_if_no_progress ((with_reducible apply Frame.fields); (case hq => rfl); (case hc => rfl))

theorem State.writeTim_frame {wt : Touch} {s0 s : State} (hw : 
    ({ time := true } : Touch).or wt = wt)
    (hK : Frame wt s0 s) (o : Nat) (v : Nat) : Frame wt s0 (State.writeTim s o v) := by
  refine Frame.step hK hw ?_
  unfold State.writeTim
  (try dsimp only)
  repeat' first
    | ((with_reducible show Touch.or _ _ = _) <;> rfl)
    | with_reducible (first | exact Frame.refl | apply State.updTime_frame) | (intro _ hF; skip)
    | with_reducible assumption | (with_reducible refine Frame.ite (fun _ => ?_) (fun _ => ?_))

theorem State.writeTxts_frame {wt : Touch} {s0 s : State} (hw : 
    ({ tsFifos := true } : Touch).or wt = wt)
    (hK : Frame wt s0 s) (sl : Nat) (o : Nat) (v : Nat) : Frame wt s0 (State.writeTxts s sl o v) := by
  refine Frame.step hK hw ?_
  unfold State.writeTxts
  (try dsimp only)
  repeat' first
    | ((with_reducible show Touch.or _ _ = _) <;> rfl)
    | with_reducible (first | exact Frame.refl | apply State.updTsFifo_frame) | (intro _ hF; skip)
    | with_reducible assumption | (with_reducible refine Frame.ite (fun _ => ?_) (fun _ => ?_))

theorem State.writeMbx_frame {wt : Touch} {s0 s : State} (hw : 
    ({ pools := true, bufCtr := true, waitTx := true, evt := true, telCtr := true, portCtr := true,
       mbxCtr := true, boxes := true, jobs := true, hist := true, peers := true, msgs := true, irq := true,
       out := true, free := true } : Touch).or wt = wt)
    (hK : Frame wt s0 s) (n : Nat) (o : Nat) (v : Nat) : Frame wt s0 (State.writeMbx s n o v) := by
  refine Frame.step hK hw ?_
  unfold State.writeMbx
  (try dsimp only)
  repeat' first
    | ((with_reducible show Touch.or _ _ = _) <;> rfl)
    | with_reducible (first
        | exact Frame.refl | apply State.drawn_frame | apply State.submit_frame | apply State.updBox_frame)
    | (intro _ hF; skip) | with_reducible assumption | (with_reducible refine Frame.ite (fun _ => ?_) (fun _ => ?_))

theorem State.writeReg_frame {wt : Touch} {s0 s : State} (hw : 
    ({ time := true, tsFifos := true, pools := true, bufCtr := true, waitTx := true, evtRegs := true,
       evt := true, swpRegs := true, swp := true, telCtr := true, portCtr := true, mbxCtr := true,
       rate := true, boxes := true, jobs := true, hist := true, peers := true, msgs := true, irq := true,
       intMap := true, msix := true, chans := true, fifos := true, waitFetch := true, out := true,
       free := true } : Touch).or wt = wt)
    (hK : Frame wt s0 s) (fn : Nat) (off : Nat) (size : Nat) (v : Nat) (vv : Reg) : Frame wt s0 (State.writeReg s fn
    off size v vv) := by
  refine Frame.step hK hw ?_
  cases vv <;> unfold State.writeReg
  all_goals (try dsimp only)
  all_goals repeat' first
    | ((with_reducible show Touch.or _ _ = _) <;> rfl)
    | with_reducible (first
        | exact Frame.refl | apply State.updLink_frame | apply State.writeDma_frame | apply State.writeEvt_frame
        | apply State.writeHpf_frame | apply State.writeMap_frame | apply State.writeMbx_frame
        | apply State.writeMsix_frame | apply State.writePending_frame | apply State.writeSwp_frame
        | apply State.writeTim_frame | apply State.writeTxts_frame)
    | (intro _ hF; skip) | with_reducible assumption | (with_reducible refine Frame.ite (fun _ => ?_) (fun _ => ?_))

theorem State.hostWrites_frame {wt : Touch} {s0 s : State} (hw : 
    ({ time := true, tsFifos := true, pools := true, bufCtr := true, waitTx := true, evtRegs := true,
       evt := true, swpRegs := true, swp := true, telCtr := true, portCtr := true, mbxCtr := true,
       rate := true, boxes := true, jobs := true, hist := true, peers := true, msgs := true, irq := true,
       intMap := true, msix := true, chans := true, fifos := true, waitFetch := true, out := true,
       free := true } : Touch).or wt = wt)
    (hK : Frame wt s0 s) (fn : Nat) (off : Nat) (size : Nat) (v : Nat) : Frame wt s0 (State.hostWrites s fn off size
    v) := by
  refine Frame.step hK hw ?_
  unfold State.hostWrites
  (try dsimp only)
  repeat' first
    | ((with_reducible show Touch.or _ _ = _) <;> rfl)
    | with_reducible (first
        | exact Frame.refl | apply State.areaWrite_frame | apply State.reservedAccess_frame
        | apply State.writeReg_frame)
    | (with_reducible refine Frame.ite (fun _ => ?_) (fun _ => ?_)) | split

theorem execReservedWrite_frame (fn : Nat) (off : Nat) (size : Nat) (s : State) : OutFrame 
    ({ evt := true, telCtr := true, irq := true, out := true } : Touch) s (execReservedWrite fn off size s) := by
  unfold execReservedWrite
  (try dsimp only [onAccess])
  repeat' first
    | with_reducible (first | exact OutFrame.fault _ _ | apply OutFrame.next)
    | ((with_reducible show Touch.or _ _ = _) <;> rfl)
    | with_reducible (first | exact Frame.refl | apply State.reservedAccess_frame)
    | (with_reducible refine Frame.ite (fun _ => ?_) (fun _ => ?_)) | split

theorem execBadSizeAccess_frame (fn : Nat) (off : Nat) (size : Nat) (w3 : Bool) (s : State) : OutFrame 
    ({ evt := true, telCtr := true, irq := true, out := true } : Touch) s (execBadSizeAccess fn off size w3 s) := by
  unfold execBadSizeAccess
  (try dsimp only [onAccess])
  repeat' first
    | with_reducible (first | exact OutFrame.fault _ _ | apply OutFrame.next)
    | ((with_reducible show Touch.or _ _ = _) <;> rfl)
    | with_reducible (first | exact Frame.refl | apply State.reservedAccess_frame)
    | (with_reducible refine Frame.ite (fun _ => ?_) (fun _ => ?_)) | split

end Sys2Proof.Machine
end

