-- ==== Sys2Proof/Laws/FramePcieConfig.lean ====
section
/-! SUPPORT. What the operations of PcieConfig may change. -/

set_option Elab.async false
set_option linter.all false

namespace Sys2Proof.Machine

theorem State.putMsixCtl_frame {wt : Touch} {s0 s : State} (hw :
    ({ irq := true, out := true } : Touch).or wt = wt)
    (hK : Frame wt s0 s) (fn : Nat) (on : Bool) (m : Bool) :
    Frame wt s0 (State.putMsixCtl s fn on m) := by
  refine Frame.step hK hw ?_
  unfold State.putMsixCtl
  (try dsimp only)
  repeat' first
    | ((with_reducible show Touch.or _ _ = _) <;> rfl)
    | with_reducible exact Frame.refl
    | (with_reducible refine Frame.foldl _ (fun _ _ hF => ?_) _ ?_)
    | (intro _ hF; skip) | with_reducible assumption
    | (with_reducible refine Frame.ite (fun _ => ?_) (fun _ => ?_)) | split
    | fail_if_no_progress ((with_reducible apply Frame.fields); (case hq => rfl); (case hc => rfl))

theorem State.putPower_frame {wt : Touch} {s0 s : State} (hw :
    ({ irq := true, chans := true, fifos := true } : Touch).or wt = wt)
    (hK : Frame wt s0 s) (fn : Nat) (v : Nat) :
    Frame wt s0 (State.putPower s fn v) := by
  refine Frame.step hK hw ?_
  unfold State.putPower
  (try dsimp only)
  repeat' first
    | ((with_reducible show Touch.or _ _ = _) <;> rfl)
    | with_reducible (first | exact Frame.refl | apply State.updLink_frame | apply State.enterD3_frame)
    | (with_reducible refine Frame.foldl _ (fun _ _ hF => ?_) _ ?_)
    | (intro _ hF; skip) | with_reducible assumption
    | (with_reducible refine Frame.ite (fun _ => ?_) (fun _ => ?_)) | split
    | fail_if_no_progress ((with_reducible apply Frame.fields); (case hq => rfl); (case hc => rfl))

theorem State.putDevCtl_frame {wt : Touch} {s0 s : State} (hw :
    ({ time := true, tsFifos := true, evtRegs := true, evt := true, swpRegs := true, swp := true,
       telCtr := true, boxes := true, jobs := true, sessions := true, irq := true, intMap := true,
       msix := true, chans := true, fifos := true, waitFetch := true, out := true } : Touch).or wt = wt)
    (hK : Frame wt s0 s) (fn : Nat) (v : Nat) :
    Frame wt s0 (State.putDevCtl s fn v) := by
  refine Frame.step hK hw ?_
  unfold State.putDevCtl
  (try dsimp only)
  repeat' first
    | ((with_reducible show Touch.or _ _ = _) <;> rfl)
    | with_reducible (first | exact Frame.refl | apply State.updLink_frame | apply State.functionReset_frame)
    | (with_reducible refine Frame.foldl _ (fun _ _ hF => ?_) _ ?_)
    | (intro _ hF; skip) | with_reducible assumption
    | (with_reducible refine Frame.ite (fun _ => ?_) (fun _ => ?_)) | split
    | fail_if_no_progress ((with_reducible apply Frame.fields); (case hq => rfl); (case hc => rfl))

theorem State.cfgWrite_frame {wt : Touch} {s0 s : State} (hw :
    ({ time := true, tsFifos := true, evtRegs := true, evt := true, swpRegs := true, swp := true,
       telCtr := true, boxes := true, jobs := true, sessions := true, irq := true, intMap := true,
       msix := true, chans := true, fifos := true, waitFetch := true, out := true } : Touch).or wt = wt)
    (hK : Frame wt s0 s) (fn : Nat) (o : Nat) (v : Nat) :
    Frame wt s0 (State.cfgWrite s fn o v) := by
  refine Frame.step hK hw ?_
  unfold State.cfgWrite
  (try dsimp only)
  repeat' first
    | ((with_reducible show Touch.or _ _ = _) <;> rfl)
    | with_reducible (first
        | exact Frame.refl | apply State.updLink_frame | apply State.putDevCtl_frame
        | apply State.putPower_frame | apply State.putMsixCtl_frame)
    | (with_reducible refine Frame.foldl _ (fun _ _ hF => ?_) _ ?_)
    | (intro _ hF; skip) | with_reducible assumption
    | (with_reducible refine Frame.ite (fun _ => ?_) (fun _ => ?_)) | split
    | fail_if_no_progress ((with_reducible apply Frame.fields); (case hq => rfl); (case hc => rfl))

theorem execRegisterWrite_frame (fn : Nat) (off : Nat) (size : Nat) (w : BitVec 64) (s : State) : OutFrame 
    ({ time := true, tsFifos := true, pools := true, bufCtr := true, waitTx := true, evtRegs := true,
       evt := true, swpRegs := true, swp := true, telCtr := true, portCtr := true, mbxCtr := true,
       rate := true, boxes := true, jobs := true, hist := true, peers := true, msgs := true,
       sessions := true, irq := true, intMap := true, msix := true, chans := true, fifos := true,
       waitFetch := true, out := true, free := true } : Touch) s (execRegisterWrite fn off size w s) := by
  unfold execRegisterWrite
  (try dsimp only [onAccess, onFunction])
  repeat' first
    | with_reducible (first | exact OutFrame.fault _ _ | apply OutFrame.next)
    | ((with_reducible show Touch.or _ _ = _) <;> rfl)
    | with_reducible (first | exact Frame.refl | apply State.hostWrites_frame | apply State.cfgWrite_frame) | split

end Sys2Proof.Machine
end

