-- ==== Sys2Proof/Laws/KeepBase.lean ====
section
/-! SUPPORT. What every operation keeps: the queue as it is, and a good state good. `Keeps s t` says so of the states before
and after; here are its rules. -/

set_option Elab.async false
set_option linter.all false

namespace Sys2Proof.Machine

/-- From `s` to `t` the queue is the same, and `t` is good if `s` is. -/
structure Keeps (s t : State) : Prop where
  queue : t.pending = s.pending
  good : s.Good → t.Good

theorem Keeps.refl (s : State) : Keeps s s := ⟨rfl, id⟩

theorem Keeps.trans {s t u : State} (h : Keeps s t) (k : Keeps t u) : Keeps s u :=
  ⟨k.queue.trans h.queue, fun g => k.good (h.good g)⟩

/-- The fields a good state speaks of, but for the memories of the host interface. -/
abbrev State.judged (s : State) :
    TimeBase × Tab Mbox × List HistEntry × List HistEntry × Slot × Slot × Tab Byte × Tab Byte × List SpdmSession ×
      List SpdmSession × List SpdmSession × List EvEntry :=
  (s.time, s.mbx.boxes, s.mbx.hist0, s.mbx.hist1, s.ident.slotA, s.ident.slotB, s.ident.cfg0, s.ident.cfg1, s.ident.doe0,
    s.ident.doe1, s.ident.smb, s.evt.held)

/-- The memories of the host interface: the staging region and the message pool buffers. -/
abbrev HostSt.mem (h : HostSt) : Tab Byte × Tab Byte := (h.staging, h.poolMem)

/-- The fields a good state speaks of are the same. -/
theorem Keeps.same {s0 s t : State} (h : Keeps s0 s) (hq : t.pending = s.pending) (hs : t.host.mem = s.host.mem)
    (hc : t.judged = s.judged) : Keeps s0 t := by
  simp only [State.judged, Prod.mk.injEq] at hc
  obtain ⟨ht, hb, h0, h1, ha, hb', c0, c1, d0, d1, hm, he⟩ := hc
  simp only [HostSt.mem, Prod.mk.injEq] at hs
  refine h.trans ⟨hq, fun g => ⟨ht ▸ g.time, ?_, ?_, ?_, ?_⟩⟩
  · simpa [Memory.wf, hb, hs.1, hs.2, ha, hb', c0, c1] using g.mem
  · simpa [State.histOk, h0, h1] using g.hist
  · simpa [State.sessionsOk, d0, d1, hm] using g.sessions
  · simpa [State.heldOk, he] using g.held

/-- An operation that leaves those fields and the queue alone. -/
theorem Keeps.upd {s0 s t : State} (h : Keeps s0 s)
    (e : (t.pending, t.host.mem, t.judged) = (s.pending, s.host.mem, s.judged)) : Keeps s0 t := by
  obtain ⟨hq, e⟩ := Prod.mk.inj e
  obtain ⟨hs, hc⟩ := Prod.mk.inj e
  exact h.same hq hs hc

/-- The fields a good state speaks of are the same, for a state written field by field. -/
theorem Keeps.fields {s0 s : State} {xtime : TimeBase} {xup : Nat} {xptp : PtpCfg} {xtsFifos : Tab TsFifo} {xgates :
    Tab PortGate} {xlanes : Tab LaneSt} {xgroups : Tab GroupSt} {xports : Tab PortSt} {xprism : PrismSt} {xfwd :
    FwdSt} {xbuf : BufSt} {xpkts : Tab Pkt} {xnextPkt : Nat} {xfab : FabSt} {xsched : SchedSt} {xfrer : Tab FrerSt}
    {xleaven : LeavenSt} {xproof : ProofSt} {xevt : EvtSt} {xswp : SwpSt} {xtel : TelSt} {xmbx : MbxSt} {xbake :
    BakeSt} {xident : IdSt} {xpwr : PwrSt} {xhost : HostSt} {xout : List Output} {xfree : Nat} {xpending : List Instr}
    (h : Keeps s0 s) (hq : xpending = s.pending := by rfl)
    (hs : xhost.mem = s.host.mem := by first | rfl | simp)
    (hc : (xtime, xmbx.boxes, xmbx.hist0, xmbx.hist1, xident.slotA, xident.slotB, xident.cfg0, xident.cfg1,
      xident.doe0, xident.doe1, xident.smb, xevt.held) = s.judged := by rfl) : Keeps s0 (⟨xtime, xup, xptp, xtsFifos, xgates, xlanes, xgroups, xports, xprism, xfwd, xbuf, xpkts, xnextPkt, xfab,
    xsched, xfrer, xleaven, xproof, xevt, xswp, xtel, xmbx, xbake, xident, xpwr, xhost, xout, xfree, xpending⟩ : State) :=
  h.same hq hs hc

/-- A change of one field. -/
theorem Keeps.ofTime {s0 s : State} (h : Keeps s0 s) (x : TimeBase) (hx : s.time.ok → x.ok) :
    Keeps s0 { s with time := x } :=
  h.trans ⟨rfl, fun g => ⟨hx g.time, g.mem, g.hist, g.sessions, g.held⟩⟩

theorem Keeps.ofEvt {s0 s : State} (h : Keeps s0 s) (x : EvtSt)
    (hx : (s.evt.held.map EvEntry.entries).sum ≤ 1024 → (x.held.map EvEntry.entries).sum ≤ 1024) :
    Keeps s0 { s with evt := x } :=
  h.trans ⟨rfl, fun g => ⟨g.time, g.mem, g.hist, g.sessions, hx g.held⟩⟩

/-- Where an outcome is a next state, `Keeps` holds of it. -/
structure OutKeeps (s : State) (o : Host.Outcome State Fault Refusal) : Prop where
  keeps : ∀ t, o = .next t → Keeps s t

theorem OutKeeps.next {s t : State} (h : Keeps s t) : OutKeeps s (.next t) :=
  ⟨fun u hu => by cases hu; exact h⟩

theorem OutKeeps.fault (s : State) (r : Fault) : OutKeeps s (.fault r) :=
  ⟨fun u hu => by cases hu⟩

theorem Keeps.foldl {α : Type} {s0 : State} (f : State → α → State) (hf : ∀ s a, Keeps s0 s → Keeps s0 (f s a)) :
    ∀ (l : List α) {s : State}, Keeps s0 s → Keeps s0 (l.foldl f s)
  | [], _, h => h
  | a :: l, s, h => Keeps.foldl f hf l (hf s a h)

theorem Keeps.ite {s0 a b : State} {c : Prop} [Decidable c] (ha : c → Keeps s0 a) (hb : ¬ c → Keeps s0 b) :
    Keeps s0 (if c then a else b) := by
  split
  · exact ha ‹_›
  · exact hb ‹_›

end Sys2Proof.Machine
end

