-- ==== Sys2Proof/Laws/KeepFlags.lean ====
section
/-! SUPPORT. What the operations of Flags keep. -/

set_option Elab.async false
set_option linter.all false

namespace Sys2Proof.Machine

@[simp] theorem HostSt.updLink_mem (h : HostSt) (fn : Nat) (f : LinkIf → LinkIf) : (h.updLink fn f).mem = h.mem := rfl

@[simp] theorem HostSt.signalVector_mem (h : HostSt) (fn vec : Nat) : (h.signalVector fn vec).1.mem = h.mem := by
  unfold HostSt.signalVector; repeat' split
  all_goals rfl

@[simp] theorem HostSt.signal_mem (h : HostSt) (x8 : Bool) (n : Nat) : (h.signal x8 n).1.mem = h.mem := by
  simp [HostSt.signal]

@[simp] theorem HostSt.setPending_mem (h : HostSt) (x8 : Bool) (n : Nat) : (h.setPending x8 n).1.mem = h.mem := by
  unfold HostSt.setPending
  split
  · rfl
  · dsimp only; split <;> simp

theorem State.interrupt_keeps {s0 s : State} (hK : Keeps s0 s) (n : Nat) : Keeps s0 (State.interrupt s n) := by
  unfold State.interrupt
  (try dsimp only)
  repeat' first
    | with_reducible exact hK | split
    | fail_if_no_progress ((with_reducible apply Keeps.fields); (case hq => rfl); (case hs => first | rfl | simp); (case hc => rfl))

end Sys2Proof.Machine
end

