-- ==== Sys2Proof/Laws/KeepOps.lean ====
section
/-! SUPPORT. What the operations of Ops keep. -/

set_option Elab.async false
set_option linter.all false

namespace Sys2Proof.Machine

theorem Keeps.ofBoxes {s0 s : State} (h : Keeps s0 s) (x : Tab Mbox)
    (hx : s.mbx.boxes.all (fun e => Tab.wf (0 : Byte) e.2.req) = true → x.all (fun e => Tab.wf (0 : Byte) e.2.req) = true) :
    Keeps s0 { s with mbx := { s.mbx with boxes := x } } := by
  refine h.trans ⟨rfl, fun g => ⟨g.time, ?_, g.hist, g.sessions, g.held⟩⟩
  have hm := g.mem
  simp only [Memory.wf, Bool.and_eq_true] at hm ⊢
  exact ⟨⟨⟨⟨⟨⟨hx hm.1.1.1.1.1.1, hm.1.1.1.1.1.2⟩, hm.1.1.1.1.2⟩, hm.1.1.1.2⟩, hm.1.1.2⟩, hm.1.2⟩, hm.2⟩

@[simp] theorem HostSt.setPendingIf_mem (h : HostSt) (b x8 : Bool) (n : Nat) :
    (h.setPendingIf b x8 n).1.mem = h.mem := by
  unfold HostSt.setPendingIf; split <;> simp

/-- The events held on chip stay within their store. -/
theorem EvtSt.write_held (v : EvtSt) (e : EvEntry) : (v.write e).st.held = v.held := by
  unfold EvtSt.write
  repeat' split
  all_goals rfl

theorem EvtSt.hold_held (v : EvtSt) (e : EvEntry) (h : (v.held.map EvEntry.entries).sum ≤ 1024) :
    ((v.hold e).st.held.map EvEntry.entries).sum ≤ 1024 := by
  unfold EvtSt.hold
  dsimp only
  split
  · next hc => exact hc
  · exact h

theorem EvtSt.log_held (v : EvtSt) (e : EvEntry) (h : (v.held.map EvEntry.entries).sum ≤ 1024) :
    ((v.log e).st.held.map EvEntry.entries).sum ≤ 1024 := by
  unfold EvtSt.log
  dsimp only
  repeat' split
  · exact h
  · rw [EvtSt.write_held]; exact h
  · exact EvtSt.hold_held _ e h

theorem State.updPort_keeps {s0 s : State} (hK : Keeps s0 s) (p : Nat) (f : PortSt → PortSt) : Keeps s0 (State.updPort
    s p f) :=
  hK.upd rfl

theorem State.updLane_keeps {s0 s : State} (hK : Keeps s0 s) (l : Nat) (f : LaneSt → LaneSt) : Keeps s0 (State.updLane
    s l f) :=
  hK.upd rfl

theorem State.updGroup_keeps {s0 s : State} (hK : Keeps s0 s) (g : Nat) (f : GroupSt → GroupSt) : Keeps s0
    (State.updGroup s g f) :=
  hK.upd rfl

theorem State.updGate_keeps {s0 s : State} (hK : Keeps s0 s) (p : Nat) (f : PortGate → PortGate) : Keeps s0
    (State.updGate s p f) :=
  hK.upd rfl

theorem State.updTsFifo_keeps {s0 s : State} (hK : Keeps s0 s) (n : Nat) (f : TsFifo → TsFifo) : Keeps s0
    (State.updTsFifo s n f) :=
  hK.upd rfl

theorem State.updStream_keeps {s0 s : State} (hK : Keeps s0 s) (n : Nat) (f : FrerSt → FrerSt) : Keeps s0
    (State.updStream s n f) :=
  hK.upd rfl

theorem State.updCluster_keeps {s0 s : State} (hK : Keeps s0 s) (n : Nat) (f : Cluster → Cluster) : Keeps s0
    (State.updCluster s n f) :=
  hK.upd rfl

theorem State.updFix_keeps {s0 s : State} (hK : Keeps s0 s) (n : Nat) (f : FixClu → FixClu) : Keeps s0 (State.updFix s
    n f) :=
  hK.upd rfl

theorem State.updFlow_keeps {s0 s : State} (hK : Keeps s0 s) (n : Nat) (f : Flow → Flow) : Keeps s0 (State.updFlow s n
    f) :=
  hK.upd rfl

theorem State.updTarget_keeps {s0 s : State} (hK : Keeps s0 s) (n : Nat) (f : Target → Target) : Keeps s0
    (State.updTarget s n f) :=
  hK.upd rfl

theorem State.updDrop_keeps {s0 s : State} (hK : Keeps s0 s) (bus : Nat) (drop : Nat) (f : Drop → Drop) : Keeps s0
    (State.updDrop s bus drop f) :=
  hK.upd rfl

theorem State.updBus_keeps {s0 s : State} (hK : Keeps s0 s) (n : Nat) (f : Bus → Bus) : Keeps s0 (State.updBus s n f)
    :=
  hK.upd rfl

theorem State.updPlane_keeps {s0 s : State} (hK : Keeps s0 s) (n : Nat) (f : Plane → Plane) : Keeps s0 (State.updPlane
    s n f) :=
  hK.upd rfl

theorem State.updPair_keeps {s0 s : State} (hK : Keeps s0 s) (src : Nat) (dst : Nat) (f : Pair → Pair) : Keeps s0
    (State.updPair s src dst f) :=
  hK.upd rfl

theorem State.updVoq_keeps {s0 s : State} (hK : Keeps s0 s) (slice : Nat) (v : Nat) (f : Voq → Voq) : Keeps s0
    (State.updVoq s slice v f) :=
  hK.upd rfl

theorem State.updFabPort_keeps {s0 s : State} (hK : Keeps s0 s) (p : Nat) (c : Nat) (f : FabPort → FabPort) : Keeps s0
    (State.updFabPort s p c f) :=
  hK.upd rfl

theorem State.updPortClass_keeps {s0 s : State} (hK : Keeps s0 s) (p : Nat) (c : Nat) (f : PortClass → PortClass) :
    Keeps s0 (State.updPortClass s p c f) :=
  hK.upd rfl

theorem State.updQueue_keeps {s0 s : State} (hK : Keeps s0 s) (q : Nat) (f : QueueSt → QueueSt) : Keeps s0
    (State.updQueue s q f) :=
  hK.upd rfl

theorem State.updChan_keeps {s0 s : State} (hK : Keeps s0 s) (n : Nat) (f : Chan → Chan) : Keeps s0 (State.updChan s n
    f) :=
  hK.upd rfl

theorem State.updFifo_keeps {s0 s : State} (hK : Keeps s0 s) (n : Nat) (f : HFifo → HFifo) : Keeps s0 (State.updFifo s
    n f) :=
  hK.upd rfl

theorem State.updLink_keeps {s0 s : State} (hK : Keeps s0 s) (fn : Nat) (f : LinkIf → LinkIf) : Keeps s0
    (State.updLink s fn f) :=
  hK.upd rfl

theorem State.updSlice_keeps {s0 s : State} (hK : Keeps s0 s) (n : Nat) (f : SliceSt → SliceSt) : Keeps s0
    (State.updSlice s n f) :=
  hK.upd rfl

theorem State.updStack_keeps {s0 s : State} (hK : Keeps s0 s) (n : Nat) (f : Stack → Stack) : Keeps s0 (State.updStack
    s n f) :=
  hK.upd rfl

theorem State.updMp_keeps {s0 s : State} (hK : Keeps s0 s) (n : Nat) (f : Mp → Mp) : Keeps s0 (State.updMp s n f) :=
  hK.upd rfl

theorem State.updPeer_keeps {s0 s : State} (hK : Keeps s0 s) (n : Nat) (f : Peer → Peer) : Keeps s0 (State.updPeer s n
    f) :=
  hK.upd rfl

theorem State.updBox_keeps {s0 s : State} (h : Keeps s0 s) (n : Nat) (f : Mbox → Mbox)
    (hf : ∀ x : Mbox, Tab.wf (0 : Byte) x.req = true → Tab.wf (0 : Byte) (f x).req = true) : Keeps s0 (s.updBox n f) :=
  h.ofBoxes _ (fun hx => Tab.all_upd (P := fun x : Mbox => Tab.wf (0 : Byte) x.req) hx rfl hf)

theorem State.updPkt_keeps {s0 s : State} (hK : Keeps s0 s) (n : Nat) (f : Pkt → Pkt) : Keeps s0 (State.updPkt s n f)
    :=
  hK.upd rfl

theorem State.updNode_keeps {s0 s : State} (hK : Keeps s0 s) (k : Nat) (f : Node → Node) : Keeps s0 (State.updNode s k
    f) :=
  hK.upd rfl

theorem State.updPolicer_keeps {s0 s : State} (hK : Keeps s0 s) (n : Nat) (f : Policer → Policer) : Keeps s0
    (State.updPolicer s n f) :=
  hK.upd rfl

theorem State.bumpPort_keeps {s0 s : State} (hK : Keeps s0 s) (p : Nat) (i : Nat) (n : Nat) : Keeps s0 (State.bumpPort
    s p i n) :=
  hK.upd rfl

theorem State.bumpPrism_keeps {s0 s : State} (hK : Keeps s0 s) (sl : Nat) (i : Nat) (n : Nat) : Keeps s0
    (State.bumpPrism s sl i n) :=
  hK.upd rfl

theorem State.bumpFwd_keeps {s0 s : State} (hK : Keeps s0 s) (i : Nat) (n : Nat) : Keeps s0 (State.bumpFwd s i n) :=
  hK.upd rfl

theorem State.bumpBuf_keeps {s0 s : State} (hK : Keeps s0 s) (i : Nat) (n : Nat) : Keeps s0 (State.bumpBuf s i n) :=
  hK.upd rfl

theorem State.bumpFab_keeps {s0 s : State} (hK : Keeps s0 s) (i : Nat) (n : Nat) : Keeps s0 (State.bumpFab s i n) :=
  hK.upd rfl

theorem State.bumpSched_keeps {s0 s : State} (hK : Keeps s0 s) (i : Nat) (n : Nat) : Keeps s0 (State.bumpSched s i n)
    :=
  hK.upd rfl

theorem State.bumpTime_keeps {s0 s : State} (hK : Keeps s0 s) (p : Nat) (i : Nat) (n : Nat) : Keeps s0 (State.bumpTime
    s p i n) :=
  hK.upd rfl

theorem State.share_keeps {s0 s : State} (hK : Keeps s0 s) (g : Nat) (sl : Nat) (i : Nat) (n : Nat) : Keeps s0
    (State.share s g sl i n) := by
  unfold State.share
  (try dsimp only)
  repeat' first
    | with_reducible (first | exact hK)
    | (with_reducible refine Keeps.foldl _ (fun _ _ hK => ?_) _ ?_) | (intro _ hK; skip)
    | with_reducible assumption | (with_reducible refine Keeps.ite (fun _ => ?_) (fun _ => ?_)) | split
    | fail_if_no_progress with_reducible refine Keeps.fields ?_

theorem State.bumpFwdAt_keeps {s0 s : State} (hK : Keeps s0 s) (sl : Nat) (i : Nat) (n : Nat) : Keeps s0
    (State.bumpFwdAt s sl i n) := by
  unfold State.bumpFwdAt
  (try dsimp only)
  repeat' first
    | with_reducible (first | exact hK | apply State.bumpFwd_keeps | apply State.share_keeps)
    | (with_reducible refine Keeps.foldl _ (fun _ _ hK => ?_) _ ?_) | (intro _ hK; skip)
    | with_reducible assumption | (with_reducible refine Keeps.ite (fun _ => ?_) (fun _ => ?_)) | split
    | fail_if_no_progress with_reducible refine Keeps.fields ?_

theorem State.bumpBufAt_keeps {s0 s : State} (hK : Keeps s0 s) (sl : Nat) (i : Nat) (n : Nat) : Keeps s0
    (State.bumpBufAt s sl i n) := by
  unfold State.bumpBufAt
  (try dsimp only)
  repeat' first
    | with_reducible (first | exact hK | apply State.bumpBuf_keeps | apply State.share_keeps)
    | (with_reducible refine Keeps.foldl _ (fun _ _ hK => ?_) _ ?_) | (intro _ hK; skip)
    | with_reducible assumption | (with_reducible refine Keeps.ite (fun _ => ?_) (fun _ => ?_)) | split
    | fail_if_no_progress with_reducible refine Keeps.fields ?_

theorem State.bumpFabAt_keeps {s0 s : State} (hK : Keeps s0 s) (sl : Nat) (i : Nat) (n : Nat) : Keeps s0
    (State.bumpFabAt s sl i n) := by
  unfold State.bumpFabAt
  (try dsimp only)
  repeat' first
    | with_reducible (first | exact hK | apply State.bumpFab_keeps | apply State.share_keeps)
    | (with_reducible refine Keeps.foldl _ (fun _ _ hK => ?_) _ ?_) | (intro _ hK; skip)
    | with_reducible assumption | (with_reducible refine Keeps.ite (fun _ => ?_) (fun _ => ?_)) | split
    | fail_if_no_progress with_reducible refine Keeps.fields ?_

theorem State.bumpSchedAt_keeps {s0 s : State} (hK : Keeps s0 s) (sl : Nat) (i : Nat) (n : Nat) : Keeps s0
    (State.bumpSchedAt s sl i n) := by
  unfold State.bumpSchedAt
  (try dsimp only)
  repeat' first
    | with_reducible (first | exact hK | apply State.bumpSched_keeps | apply State.share_keeps)
    | (with_reducible refine Keeps.foldl _ (fun _ _ hK => ?_) _ ?_) | (intro _ hK; skip)
    | with_reducible assumption | (with_reducible refine Keeps.ite (fun _ => ?_) (fun _ => ?_)) | split
    | fail_if_no_progress with_reducible refine Keeps.fields ?_

theorem State.bumpRed_keeps {s0 s : State} (hK : Keeps s0 s) (i : Nat) (n : Nat) : Keeps s0 (State.bumpRed s i n) :=
  hK.upd rfl

theorem State.bumpFrer_keeps {s0 s : State} (hK : Keeps s0 s) (st : Nat) (i : Nat) (n : Nat) : Keeps s0
    (State.bumpFrer s st i n) :=
  hK.upd rfl

theorem State.bumpFix_keeps {s0 s : State} (hK : Keeps s0 s) (i : Nat) (n : Nat) : Keeps s0 (State.bumpFix s i n) :=
  hK.upd rfl

theorem State.bumpProof_keeps {s0 s : State} (hK : Keeps s0 s) (i : Nat) (n : Nat) : Keeps s0 (State.bumpProof s i n)
    :=
  hK.upd rfl

theorem State.bumpMbx_keeps {s0 s : State} (hK : Keeps s0 s) (fn : Nat) (i : Nat) (n : Nat) : Keeps s0 (State.bumpMbx
    s fn i n) :=
  hK.upd rfl

theorem State.bumpPwr_keeps {s0 s : State} (hK : Keeps s0 s) (i : Nat) (n : Nat) : Keeps s0 (State.bumpPwr s i n) :=
  hK.upd rfl

theorem State.bumpTel_keeps {s0 s : State} (hK : Keeps s0 s) (i : Nat) (n : Nat) : Keeps s0 (State.bumpTel s i n) :=
  hK.upd rfl

theorem State.bumpMir_keeps {s0 s : State} (hK : Keeps s0 s) (m : Nat) (i : Nat) (n : Nat) : Keeps s0 (State.bumpMir s
    m i n) :=
  hK.upd rfl

theorem State.bumpPwrAt_keeps {s0 s : State} (hK : Keeps s0 s) (sl : Nat) (i : Nat) (n : Nat) : Keeps s0
    (State.bumpPwrAt s sl i n) := by
  unfold State.bumpPwrAt
  (try dsimp only)
  repeat' first
    | with_reducible (first | exact hK | apply State.bumpPwr_keeps | apply State.share_keeps)
    | (with_reducible refine Keeps.foldl _ (fun _ _ hK => ?_) _ ?_) | (intro _ hK; skip)
    | with_reducible assumption | (with_reducible refine Keeps.ite (fun _ => ?_) (fun _ => ?_)) | split
    | fail_if_no_progress with_reducible refine Keeps.fields ?_

theorem State.bumpProofAt_keeps {s0 s : State} (hK : Keeps s0 s) (sl : Nat) (i : Nat) (n : Nat) : Keeps s0
    (State.bumpProofAt s sl i n) := by
  unfold State.bumpProofAt
  (try dsimp only)
  repeat' first
    | with_reducible (first | exact hK | apply State.bumpProof_keeps | apply State.share_keeps)
    | (with_reducible refine Keeps.foldl _ (fun _ _ hK => ?_) _ ?_) | (intro _ hK; skip)
    | with_reducible assumption | (with_reducible refine Keeps.ite (fun _ => ?_) (fun _ => ?_)) | split
    | fail_if_no_progress with_reducible refine Keeps.fields ?_

theorem State.bumpMirAt_keeps {s0 s : State} (hK : Keeps s0 s) (sl : Nat) (m : Nat) (i : Nat) (n : Nat) : Keeps s0
    (State.bumpMirAt s sl m i n) := by
  unfold State.bumpMirAt
  (try dsimp only)
  repeat' first
    | with_reducible (first | exact hK | apply State.bumpMir_keeps | apply State.share_keeps)
    | (with_reducible refine Keeps.foldl _ (fun _ _ hK => ?_) _ ?_) | (intro _ hK; skip)
    | with_reducible assumption | (with_reducible refine Keeps.ite (fun _ => ?_) (fun _ => ?_)) | split
    | fail_if_no_progress with_reducible refine Keeps.fields ?_

theorem State.bumpDrop_keeps {s0 s : State} (hK : Keeps s0 s) (port : Nat) (reason : Nat) : Keeps s0 (State.bumpDrop s
    port reason) :=
  hK.upd rfl

theorem State.emit_keeps {s0 s : State} (hK : Keeps s0 s) (o : Output) : Keeps s0 (State.emit s o) :=
  hK.upd rfl

theorem State.drawn_keeps {s0 s : State} (hK : Keeps s0 s) (n : Nat) : Keeps s0 (State.drawn s n) :=
  hK.upd rfl

theorem State.raise_keeps {s0 s : State} (h : Keeps s0 s) (code sev : Nat) (args : List Byte) :
    Keeps s0 (s.raise code sev args) := by
  unfold State.raise
  exact Keeps.fields (h.ofEvt (s.evt.log _).st (EvtSt.log_held _ _)) rfl (by simp) rfl

theorem State.raiseLimited_keeps {s0 s : State} (hK : Keeps s0 s) (code : Nat) (sev : Nat) (inst : Nat) (period : Nat)
    (args : List Byte) : Keeps s0 (State.raiseLimited s code sev inst period args) := by
  unfold State.raiseLimited
  (try dsimp only)
  repeat' first
    | with_reducible (first | exact hK | apply State.raise_keeps)
    | (with_reducible refine Keeps.ite (fun _ => ?_) (fun _ => ?_)) | split
    | fail_if_no_progress with_reducible refine Keeps.fields ?_

theorem State.raiseUp_keeps {s0 s : State} (hK : Keeps s0 s) (code : Nat) (sev : Nat) (args : List Byte) : Keeps s0
    (State.raiseUp s code sev args) := by
  unfold State.raiseUp
  (try dsimp only)
  repeat' first
    | with_reducible (first | exact hK | apply State.raise_keeps)
    | (with_reducible refine Keeps.ite (fun _ => ?_) (fun _ => ?_)) | split
    | fail_if_no_progress with_reducible refine Keeps.fields ?_

theorem State.raiseUpIf_keeps {s0 s : State} (hK : Keeps s0 s) (b : Bool) (code : Nat) (sev : Nat) (args : List Byte)
    : Keeps s0 (State.raiseUpIf s b code sev args) := by
  unfold State.raiseUpIf
  (try dsimp only)
  repeat' first
    | with_reducible (first | exact hK | apply State.raiseUp_keeps)
    | (with_reducible refine Keeps.ite (fun _ => ?_) (fun _ => ?_))

theorem State.raiseIf_keeps {s0 s : State} (hK : Keeps s0 s) (b : Bool) (code : Nat) (sev : Nat) (args : List Byte) :
    Keeps s0 (State.raiseIf s b code sev args) := by
  unfold State.raiseIf
  (try dsimp only)
  repeat' first
    | with_reducible (first | exact hK | apply State.raise_keeps)
    | (with_reducible refine Keeps.ite (fun _ => ?_) (fun _ => ?_))

end Sys2Proof.Machine
end

