-- ==== Sys2Proof/Laws/KeepTxClass.lean ====
section
/-! SUPPORT. What the operations of TxClass keep. -/

set_option Elab.async false
set_option linter.all false

namespace Sys2Proof.Machine

theorem State.setWaiting_keeps {s0 s : State} (hK : Keeps s0 s) (p : Nat) (l : List (Nat × Output)) :
    Keeps s0 (State.setWaiting s p l) := by
  exact hK.upd rfl

theorem State.sendNow_keeps {s0 s : State} (hK : Keeps s0 s) (p : Nat) (o : Output) : Keeps s0 (State.sendNow s p o)
    := by
  unfold State.sendNow
  (try dsimp only)
  repeat' first
    | with_reducible (first | exact hK | apply State.bumpPort_keeps | apply State.emit_keeps)
    | (with_reducible refine Keeps.foldl _ (fun _ _ hK => ?_) _ ?_) | (intro _ hK; skip)
    | with_reducible assumption | (with_reducible refine Keeps.ite (fun _ => ?_) (fun _ => ?_)) | split
    | fail_if_no_progress with_reducible refine Keeps.fields ?_

theorem State.sendClass_keeps {s0 s : State} (hK : Keeps s0 s) (p c : Nat) (o : Output) (now : State → State)
    (hn : ∀ t, Keeps s0 t → Keeps s0 (now t)) : Keeps s0 (State.sendClass s p c o now) := by
  unfold State.sendClass
  split
  · exact State.bumpPort_keeps hK _ _ _
  · split
    · exact hn _ hK
    · exact State.setWaiting_keeps hK _ _

end Sys2Proof.Machine
end

