-- ==== Sys2Proof/Laws/KeepDomSend.lean ====
section
/-! SUPPORT. What the operations of DomSend keep. -/

set_option Elab.async false
set_option linter.all false

namespace Sys2Proof.Machine

theorem State.domPut_keeps {s0 s : State} (hK : Keeps s0 s) (peer : Nat) (type : Nat) (id : Nat) (body : List Byte) (n
    : Nat) : Keeps s0 (State.domPut s peer type id body n) := by
  unfold State.domPut
  (try dsimp only)
  repeat' first
    | with_reducible (first
        | exact hK | apply State.sendNow_keeps | apply State.updPeer_keeps | apply State.sendClass_keeps)
    | (with_reducible refine Keeps.foldl _ (fun _ _ hK => ?_) _ ?_) | (intro _ hK; skip)
    | with_reducible assumption | (with_reducible refine Keeps.ite (fun _ => ?_) (fun _ => ?_)) | split
    | fail_if_no_progress with_reducible refine Keeps.fields ?_

theorem State.keepMsg_keeps {s0 s : State} (hK : Keeps s0 s) (peer : Nat) (type : Nat) (body : List Byte) (clear :
    Option Nat) : Keeps s0 (State.keepMsg s peer type body clear) := by
  unfold State.keepMsg
  (try dsimp only)
  repeat' first
    | with_reducible (first | exact hK)
    | (with_reducible refine Keeps.foldl _ (fun _ _ hK => ?_) _ ?_) | (intro _ hK; skip)
    | with_reducible assumption | (with_reducible refine Keeps.ite (fun _ => ?_) (fun _ => ?_)) | split
    | fail_if_no_progress with_reducible refine Keeps.fields ?_

theorem State.domSend_keeps {s0 s : State} (hK : Keeps s0 s) (peer : Nat) (type : Nat) (body : List Byte) : Keeps s0
    (State.domSend s peer type body) := by
  unfold State.domSend
  (try dsimp only)
  repeat' first
    | with_reducible (first | exact hK | apply State.domPut_keeps | apply State.keepMsg_keeps)
    | (with_reducible refine Keeps.ite (fun _ => ?_) (fun _ => ?_)) | split
    | fail_if_no_progress with_reducible refine Keeps.fields ?_

theorem State.clearPut_keeps {s0 s : State} (hK : Keeps s0 s) (p : Nat) (dest : Nat) (type : Nat) (id : Nat) (body :
    List Byte) : Keeps s0 (State.clearPut s p dest type id body) := by
  unfold State.clearPut
  (try dsimp only)
  repeat' first
    | with_reducible (first | exact hK | apply State.sendClass_keeps | apply State.sendNow_keeps)
    | (with_reducible refine Keeps.foldl _ (fun _ _ hK => ?_) _ ?_) | (intro _ hK; skip)
    | with_reducible assumption | (with_reducible refine Keeps.ite (fun _ => ?_) (fun _ => ?_)) | split
    | fail_if_no_progress with_reducible refine Keeps.fields ?_

theorem State.clearSend_keeps {s0 s : State} (hK : Keeps s0 s) (p : Nat) (dest : Nat) (type : Nat) (body : List Byte)
    : Keeps s0 (State.clearSend s p dest type body) := by
  unfold State.clearSend
  (try dsimp only)
  repeat' first
    | with_reducible (first | exact hK | apply State.clearPut_keeps | apply State.keepMsg_keeps)
    | (with_reducible refine Keeps.foldl _ (fun _ _ hK => ?_) _ ?_) | (intro _ hK; skip)
    | with_reducible assumption | (with_reducible refine Keeps.ite (fun _ => ?_) (fun _ => ?_)) | split
    | fail_if_no_progress with_reducible refine Keeps.fields ?_

end Sys2Proof.Machine
end

