-- ==== Sys2Proof/Laws/KeepPools.lean ====
section
/-! SUPPORT. What the operations of Pools keep. -/

set_option Elab.async false
set_option linter.all false

namespace Sys2Proof.Machine

theorem State.poolAlarm_keeps {s0 s : State} (hK : Keeps s0 s) (i : Nat) : Keeps s0 (State.poolAlarm s i) := by
  unfold State.poolAlarm
  (try dsimp only)
  repeat' first
    | with_reducible (first | exact hK | apply State.raise_keeps)
    | (with_reducible refine Keeps.ite (fun _ => ?_) (fun _ => ?_)) | split
    | fail_if_no_progress with_reducible refine Keeps.fields ?_

theorem State.poolAlloc_keeps {s0 s : State} (hK : Keeps s0 s) (size : Nat) : Keeps s0 (State.poolAlloc s size).1 :=
    by
  unfold State.poolAlloc
  (try dsimp only)
  repeat' first
    | with_reducible (first | exact hK | apply State.bumpBuf_keeps | apply State.poolAlarm_keeps)
    | (with_reducible refine Keeps.ite (fun _ => ?_) (fun _ => ?_)) | split
    | fail_if_no_progress with_reducible refine Keeps.fields ?_

theorem State.fillBuf_keeps {s0 s : State} (h : Keeps s0 s) (ptr : Option Nat) (l : List Byte) : Keeps s0
    (State.fillBuf s ptr l) := by
  unfold State.fillBuf
  split
  · exact h
  · refine h.trans ⟨rfl, fun g => ⟨g.time, ?_, g.hist, g.sessions, g.held⟩⟩
    have hm := g.mem
    simp only [Memory.wf, Bool.and_eq_true] at hm ⊢
    exact ⟨⟨⟨⟨⟨hm.1.1.1.1.1, Tab.wf_writeBytes _ _ hm.1.1.1.1.2⟩, hm.1.1.1.2⟩, hm.1.1.2⟩, hm.1.2⟩, hm.2⟩

theorem State.poolFree_keeps {s0 s : State} (hK : Keeps s0 s) (ptr : Nat) (block : Nat) : Keeps s0 (State.poolFree s
    ptr block) := by
  unfold State.poolFree
  (try dsimp only)
  repeat' first
    | with_reducible (first | exact hK | apply State.bumpBuf_keeps | apply State.raise_keeps)
    | (with_reducible refine Keeps.ite (fun _ => ?_) (fun _ => ?_)) | split
    | fail_if_no_progress with_reducible refine Keeps.fields ?_

end Sys2Proof.Machine
end

