-- ==== Sys2Proof/Laws/KeepMailbox.lean ====
section
/-! SUPPORT. What the operations of Mailbox keep. -/

set_option Elab.async false
set_option linter.all false

namespace Sys2Proof.Machine

theorem State.postBox_keeps {s0 s : State} (h : Keeps s0 s) (b tag : Nat) (indirect : Bool) (addr : Nat) (x : Resp) :
    Keeps s0 (s.postBox b tag indirect addr x) := by
  unfold State.postBox
  exact Keeps.fields (State.updBox_keeps h b (fun m : Mbox =>
      { m with state := .responseReady, responses := (m.responses + 1) % 65536,
               resp := respHeader tag x s.bake.epoch ++ (if indirect then [] else x.payload) }) (fun _ hy => hy))
    rfl (by simp [State.updBox]) rfl

theorem State.post_keeps {s0 s : State} (hK : Keeps s0 s) (b : Nat) (tag : Nat) (indirect : Bool) (addr : Nat) (x :
    Resp) : Keeps s0 (State.post s b tag indirect addr x) := by
  unfold State.post
  (try dsimp only)
  repeat' first
    | with_reducible (first | exact hK | apply State.domSend_keeps | apply State.postBox_keeps)
    | (with_reducible refine Keeps.ite (fun _ => ?_) (fun _ => ?_))

theorem State.postReq_keeps {s0 s : State} (hK : Keeps s0 s) (r : Req) (x : Resp) : Keeps s0 (State.postReq s r x) :=
    by
  unfold State.postReq
  (try dsimp only)
  repeat' first
    | with_reducible (first | exact hK | apply State.post_keeps)

theorem State.protocolError_keeps {s0 s : State} (hK : Keeps s0 s) (b : Nat) (action : Nat) : Keeps s0
    (State.protocolError s b action) := by
  unfold State.protocolError
  (try dsimp only)
  repeat' first
    | with_reducible (first | exact hK | apply State.bumpMbx_keeps | apply State.raise_keeps)

theorem State.accept_keeps {s0 s : State} (hK : Keeps s0 s) (b : Nat) : Keeps s0 (State.accept s b) := by
  unfold State.accept
  (try dsimp only)
  repeat' first
    | with_reducible exact hK | exact fun _ hx => hx | exact fun _ hx => Tab.wf_writeBytes _ _ hx
    | with_reducible (first | apply State.bumpMbx_keeps | apply State.updBox_keeps) | (intro _ hK; skip)

theorem Keeps.ofHist {s0 s : State} (h : Keeps s0 s) (x y : List HistEntry) (hx : s.histOk → x.length ≤ 4096 ∧ y.length ≤ 4096) :
    Keeps s0 { s with mbx := { s.mbx with hist0 := x, hist1 := y } } :=
  h.trans ⟨rfl, fun g => ⟨g.time, g.mem, hx g.hist, g.sessions, g.held⟩⟩

theorem State.recordTag_keeps {s0 s : State} (h : Keeps s0 s) (op : Nat) (r : Req) (x : Resp) :
    Keeps s0 (s.recordTag op r x) := by
  unfold State.recordTag MbxSt.record
  split
  · exact h
  · split
    · exact h.ofHist _ _ (fun g => ⟨by simp [List.length_take], g.2⟩)
    · exact h.ofHist _ _ (fun g => ⟨g.1, by simp [List.length_take]⟩)

theorem State.postJob_keeps {s0 s : State} (hK : Keeps s0 s) (j : Job) (x : Resp) : Keeps s0 (State.postJob s j x) :=
    by
  unfold State.postJob
  (try dsimp only)
  repeat' first
    | with_reducible (first | exact hK | apply State.postReq_keeps)
    | (with_reducible refine Keeps.foldl _ (fun _ _ hK => ?_) _ ?_) | (intro _ hK; skip)
    | with_reducible assumption | (with_reducible refine Keeps.ite (fun _ => ?_) (fun _ => ?_)) | split
    | fail_if_no_progress with_reducible refine Keeps.fields ?_

theorem State.enqueue_keeps {s0 s : State} (hK : Keeps s0 s) (j : Job) : Keeps s0 (State.enqueue s j) := by
  unfold State.enqueue
  (try dsimp only)
  repeat' first
    | with_reducible (first
        | exact hK | apply State.bumpMbx_keeps | apply State.fillBuf_keeps | apply State.poolAlloc_keeps
        | apply State.postJob_keeps)
    | (with_reducible refine Keeps.foldl _ (fun _ _ hK => ?_) _ ?_) | (intro _ hK; skip)
    | with_reducible assumption | (with_reducible refine Keeps.ite (fun _ => ?_) (fun _ => ?_)) | split
    | fail_if_no_progress with_reducible refine Keeps.fields ?_

theorem State.addWaiter_keeps {s0 s : State} (hK : Keeps s0 s) (r : Req) : Keeps s0 (State.addWaiter s r) := by
  unfold State.addWaiter
  (try dsimp only)
  repeat' first
    | with_reducible exact hK | (intro _ hK; skip) | with_reducible assumption
    | (with_reducible refine Keeps.ite (fun _ => ?_) (fun _ => ?_)) | split
    | fail_if_no_progress with_reducible refine Keeps.fields ?_

theorem State.applyVerdict_keeps {s0 s : State} (h : Keeps s0 s) (j : Job) (v : Verdict) :
    Keeps s0 (s.applyVerdict j v).1 := by
  cases v with
  | refuse x record =>
    refine State.postJob_keeps ?_ j x
    split
    · exact State.recordTag_keeps h _ _ x
    · exact h
  | replay e => exact State.postJob_keeps h j _
  | wait t => exact Keeps.ite (fun _ => State.addWaiter_keeps h _) (fun _ => h)
  | accept => exact State.enqueue_keeps h j

theorem State.readPayload_keeps {s0 s : State} (hK : Keeps s0 s) (op : Nat) (r : Req) : Keeps s0 (State.readPayload s
    op r) := by
  unfold State.readPayload
  (try dsimp only)
  repeat' first
    | with_reducible (first | exact hK | apply State.emit_keeps)
    | (with_reducible refine Keeps.foldl _ (fun _ _ hK => ?_) _ ?_) | (intro _ hK; skip)
    | with_reducible assumption | (with_reducible refine Keeps.ite (fun _ => ?_) (fun _ => ?_)) | split
    | fail_if_no_progress with_reducible refine Keeps.fields ?_

theorem State.takeJob_keeps {s0 s : State} (hK : Keeps s0 s) (j : Job) : Keeps s0 (State.takeJob s j).1 :=
  State.applyVerdict_keeps (State.readPayload_keeps hK _ _) j _

theorem State.submit_keeps {s0 s : State} (hK : Keeps s0 s) (op : Nat) (r : Req) : Keeps s0 (State.submit s op r).1 :=
    by
  unfold State.submit
  (try dsimp only)
  repeat' first
    | with_reducible (first
        | exact hK | apply State.accept_keeps | apply State.takeJob_keeps | apply State.postReq_keeps
        | apply State.protocolError_keeps)
    | (with_reducible refine Keeps.foldl _ (fun _ _ hK => ?_) _ ?_) | (intro _ hK; skip)
    | with_reducible assumption | (with_reducible refine Keeps.ite (fun _ => ?_) (fun _ => ?_)) | split
    | fail_if_no_progress with_reducible refine Keeps.fields ?_

theorem State.postWaiters_keeps {s0 s : State} (h : Keeps s0 s) (tag : Nat) (x : Resp) (l : List (Nat × Bool × Nat)) :
    Keeps s0 (s.postWaiters tag x l) := by
  induction l generalizing s with
  | nil => exact h
  | cons w l ih => exact ih (State.post_keeps h _ _ _ _ _)

theorem State.freeBuf_keeps {s0 s : State} (hK : Keeps s0 s) (b : Option Nat) : Keeps s0 (State.freeBuf s b) := by
  unfold State.freeBuf
  (try dsimp only)
  repeat' first
    | with_reducible (first | exact hK | apply State.poolFree_keeps) | split

theorem State.asyncDone_keeps {s0 s : State} (hK : Keeps s0 s) (op : Nat) (r : Req) (x : Resp) : Keeps s0
    (State.asyncDone s op r x) := by
  unfold State.asyncDone
  (try dsimp only)
  repeat' first
    | with_reducible (first | exact hK | apply State.raise_keeps)

theorem State.answerJob_keeps {s0 s : State} (hK : Keeps s0 s) (j : Job) (x : Resp) : Keeps s0 (State.answerJob s j x)
    := by
  unfold State.answerJob
  (try dsimp only)
  repeat' first
    | with_reducible (first | exact hK | apply State.asyncDone_keeps | apply State.postReq_keeps)
    | (with_reducible refine Keeps.ite (fun _ => ?_) (fun _ => ?_))

theorem State.endJob_keeps {s0 s : State} (hK : Keeps s0 s) (j : Job) (rest : List Job) (x : Resp) : Keeps s0
    (State.endJob s j rest x) := by
  unfold State.endJob
  (try dsimp only)
  repeat' first
    | with_reducible (first
        | exact hK | apply State.answerJob_keeps | apply State.freeBuf_keeps | apply State.postWaiters_keeps
        | apply State.recordTag_keeps)
    | split | fail_if_no_progress with_reducible refine Keeps.fields ?_

theorem State.endOldest_keeps {s0 s : State} (hK : Keeps s0 s) (op : Nat) (r : Req) (run : Bool) (x : Resp) : Keeps s0
    (State.endOldest s op r run x) := by
  unfold State.endOldest
  (try dsimp only)
  repeat' first
    | with_reducible (first | exact hK | apply State.endJob_keeps)
    | (with_reducible refine Keeps.foldl _ (fun _ _ hK => ?_) _ ?_) | (intro _ hK; skip)
    | with_reducible assumption | (with_reducible refine Keeps.ite (fun _ => ?_) (fun _ => ?_)) | split
    | fail_if_no_progress with_reducible refine Keeps.fields ?_

theorem State.complete_keeps {s0 s : State} (hK : Keeps s0 s) (op : Nat) (r : Req) (x : Resp) : Keeps s0
    (State.complete s op r x) := by
  unfold State.complete
  (try dsimp only)
  repeat' first
    | with_reducible (first | exact hK | apply State.endJob_keeps | apply State.endOldest_keeps) | (intro _ hK; skip) | with_reducible assumption
    | split

theorem State.completeNow_keeps {s0 s : State} (hK : Keeps s0 s) (op : Nat) (r : Req) (x : Resp) : Keeps s0
    (State.completeNow s op r x) := by
  unfold State.completeNow
  (try dsimp only)
  repeat' first
    | with_reducible (first | exact hK | apply State.endJob_keeps | apply State.endOldest_keeps) | (intro _ hK; skip) | with_reducible assumption
    | split

theorem State.markRunning_keeps {s0 s : State} (hK : Keeps s0 s) (op : Nat) (r : Req) : Keeps s0 (State.markRunning s
    op r) := by
  unfold State.markRunning
  (try dsimp only)
  repeat' first
    | with_reducible exact hK | (intro _ hK; skip) | with_reducible assumption
    | (with_reducible refine Keeps.ite (fun _ => ?_) (fun _ => ?_)) | split
    | fail_if_no_progress with_reducible refine Keeps.fields ?_

theorem State.runJob_keeps {s0 s : State} (h : Keeps s0 s) (op : Nat) (r : Req) (body : Body)
    (hb : ∀ {a b : State}, Keeps a b → Keeps a (body r b).1) : Keeps s0 (s.runJob op r body) := by
  unfold State.runJob
  split
  · exact State.completeNow_keeps (hb h) op r _
  · split
    · exact hb h
    · exact State.markRunning_keeps (hb h) op r

theorem State.command_keeps {s0 s : State} (h : Keeps s0 s) (op : Nat) (r : Req) (body : Body)
    (hb : ∀ {a b : State}, Keeps a b → Keeps a (body r b).1) : Keeps s0 (s.command op r body) := by
  unfold State.command
  split
  · split
    · exact h
    · exact State.runJob_keeps h op r body hb
  · split
    · exact State.runJob_keeps (State.submit_keeps h op r) op r body hb
    · exact State.submit_keeps h op r

/-- A mailbox command keeps what its body keeps. -/
theorem mailboxCommand_keeps {op : Nat} {body : Body} {r : Req} {s : State}
    (hb : ∀ {a b : State}, Keeps a b → Keeps a (body r b).1) : OutKeeps s (mailboxCommand op body r s) := by
  unfold mailboxCommand
  split
  · exact OutKeeps.next (State.command_keeps (Keeps.refl s) op r body hb)
  · exact OutKeeps.fault _ _

theorem readCmd_keeps {s0 s : State} (hK : Keeps s0 s) (f : Req → State → Resp) (r : Req) : Keeps s0 (readCmd f r s).1
    := by
  unfold readCmd
  (try dsimp only)
  repeat' first
    | with_reducible exact hK | (intro _ hK; skip)

theorem okCmd_keeps {s0 s : State} (hK : Keeps s0 s) (p : List Byte) : Keeps s0 (okCmd s p).1 := by
  unfold okCmd
  (try dsimp only)
  repeat' first
    | with_reducible exact hK

theorem errCmd_keeps {s0 s : State} (hK : Keeps s0 s) (status : Nat) (detail : Nat) : Keeps s0 (errCmd s status
    detail).1 := by
  unfold errCmd
  (try dsimp only)
  repeat' first
    | with_reducible exact hK

theorem State.stage_keeps {s0 s : State} (hK : Keeps s0 s) (op : Nat) (r : Req) (okPayload : List Byte) : Keeps s0
    (State.stage s op r okPayload).1 := by
  unfold State.stage
  (try dsimp only)
  repeat' first
    | with_reducible (first | exact hK | apply errCmd_keeps | apply okCmd_keeps) | (intro _ hK; skip)
    | with_reducible assumption | (with_reducible refine Keeps.ite (fun _ => ?_) (fun _ => ?_)) | split
    | fail_if_no_progress with_reducible refine Keeps.fields ?_

theorem State.shadow_keeps {s0 s : State} (hK : Keeps s0 s) (op : Nat) (p : List Byte) : Keeps s0 (State.shadow s op
    p) :=
  hK.upd rfl

theorem State.dropHeld_keeps {s0 s : State} (hK : Keeps s0 s) : Keeps s0 (State.dropHeld s) :=
  hK.upd rfl

theorem setCmd_keeps {op : Nat} {check : List Byte → State → Option (Nat × Nat)} {apply : List Byte → State → State}
    (ha : ∀ {a b : State} (p : List Byte), Keeps a b → Keeps a (apply p b)) {s0 s : State} (h : Keeps s0 s) (r : Req) :
    Keeps s0 (setCmd op check apply r s).1 := by
  unfold setCmd
  split
  · exact State.stage_keeps h op r []
  · split
    · exact h
    · exact State.shadow_keeps (ha r.payload h) op r.payload

end Sys2Proof.Machine
end

