-- ==== Sys2Proof/Laws/KeepMemory.lean ====
section
/-! SUPPORT. What the operations of Memory keep. -/

set_option Elab.async false
set_option linter.all false

namespace Sys2Proof.Machine

theorem State.endSpill_keeps {s0 s : State} (hK : Keeps s0 s)  : Keeps s0 (State.endSpill s) := by
  unfold State.endSpill
  (try dsimp only)
  repeat' first
    | with_reducible (first | exact hK)
    | (with_reducible refine Keeps.foldl _ (fun _ _ hK => ?_) _ ?_) | (intro _ hK; skip)
    | with_reducible assumption | (with_reducible refine Keeps.ite (fun _ => ?_) (fun _ => ?_)) | split
    | fail_if_no_progress with_reducible refine Keeps.fields ?_

theorem applyMemSetRegions_keeps {s0 s : State} (hK : Keeps s0 s) (p : List Byte) : Keeps s0 (applyMemSetRegions p s)
    := by
  unfold applyMemSetRegions
  (try dsimp only)
  repeat' first
    | with_reducible (first | exact hK | apply State.endSpill_keeps)
    | (with_reducible refine Keeps.foldl _ (fun _ _ hK => ?_) _ ?_) | (intro _ hK; skip)
    | with_reducible assumption | (with_reducible refine Keeps.ite (fun _ => ?_) (fun _ => ?_)) | split
    | fail_if_no_progress with_reducible refine Keeps.fields ?_

theorem memGetMapBody_keeps {s0 s : State} (hK : Keeps s0 s) (r : Req) : Keeps s0 (memGetMapBody r s).1 := by
  unfold memGetMapBody
  (try dsimp only)
  repeat' first
    | with_reducible (first | exact hK | apply readCmd_keeps) | (intro _ hK; skip)

theorem memSetRegionsBody_keeps {s0 s : State} (hK : Keeps s0 s) (r : Req) : Keeps s0 (memSetRegionsBody r s).1 := by
  unfold memSetRegionsBody
  (try dsimp only)
  repeat' first
    | with_reducible exact hK | exact setCmd_keeps (fun p hk => applyMemSetRegions_keeps hk p) hK r

theorem memGetHealthBody_keeps {s0 s : State} (hK : Keeps s0 s) (r : Req) : Keeps s0 (memGetHealthBody r s).1 := by
  unfold memGetHealthBody
  (try dsimp only)
  repeat' first
    | with_reducible (first | exact hK | apply readCmd_keeps) | (intro _ hK; skip)

theorem execMemGetMap_keeps (r : Req) (s : State) : OutKeeps s (execMemGetMap r s) := 
  mailboxCommand_keeps (fun hk => memGetMapBody_keeps hk r)

theorem execMemSetRegions_keeps (r : Req) (s : State) : OutKeeps s (execMemSetRegions r s) := 
  mailboxCommand_keeps (fun hk => memSetRegionsBody_keeps hk r)

theorem execMemGetHealth_keeps (r : Req) (s : State) : OutKeeps s (execMemGetHealth r s) := 
  mailboxCommand_keeps (fun hk => memGetHealthBody_keeps hk r)

end Sys2Proof.Machine
end

