-- ==== Sys2Proof/Laws/KeepTables.lean ====
section
/-! SUPPORT. What the operations of Tables keep. -/

set_option Elab.async false
set_option linter.all false

namespace Sys2Proof.Machine

theorem State.liveGen_keeps {s0 s : State} (hK : Keeps s0 s) (op : Nat) (p : List Byte) (h : GenTables → GenTables) :
    Keeps s0 (State.liveGen s op p h) := by
  unfold State.liveGen
  (try dsimp only)
  repeat' first
    | with_reducible exact hK | (with_reducible refine Keeps.ite (fun _ => ?_) (fun _ => ?_)) | split
    | fail_if_no_progress with_reducible refine Keeps.fields ?_

end Sys2Proof.Machine
end

