-- ==== Sys2Proof/Laws/KeepPrism.lean ====
section
/-! SUPPORT. What the operations of Prism keep. -/

set_option Elab.async false
set_option linter.all false

namespace Sys2Proof.Machine

theorem State.liveRule1_keeps {s0 s : State} (hK : Keeps s0 s) (idx : Nat) (u : Rule) (slice : Nat) : Keeps s0
    (State.liveRule1 s idx u slice) := by
  unfold State.liveRule1
  (try dsimp only)
  repeat' first
    | with_reducible (first | exact hK | apply State.bumpPrism_keeps) | (intro _ hK; skip) | with_reducible assumption
    | (with_reducible refine Keeps.ite (fun _ => ?_) (fun _ => ?_)) | split
    | fail_if_no_progress with_reducible refine Keeps.fields ?_

theorem applyPrismWriteRule_keeps {s0 s : State} (hK : Keeps s0 s) (p : List Byte) : Keeps s0 (applyPrismWriteRule p
    s) := by
  unfold applyPrismWriteRule
  (try dsimp only)
  repeat' first
    | with_reducible (first | exact hK | apply State.liveRule1_keeps)
    | (with_reducible refine Keeps.foldl _ (fun _ _ hK => ?_) _ ?_) | (intro _ hK; skip)

theorem applyPrismSetPort_keeps {s0 s : State} (hK : Keeps s0 s) (p : List Byte) : Keeps s0 (applyPrismSetPort p s) :=
    by
  unfold applyPrismSetPort
  (try dsimp only)
  repeat' first
    | with_reducible exact hK | (intro _ hK; skip) | with_reducible assumption
    | (with_reducible refine Keeps.ite (fun _ => ?_) (fun _ => ?_)) | split
    | fail_if_no_progress with_reducible refine Keeps.fields ?_

theorem prismSetProfileBody_keeps {s0 s : State} (hK : Keeps s0 s) (r : Req) : Keeps s0 (prismSetProfileBody r s).1 :=
    by
  unfold prismSetProfileBody
  (try dsimp only)
  repeat' first
    | with_reducible exact hK | exact setCmd_keeps (fun _ hk => hk) hK r | (intro _ hK; skip)

theorem prismSetSelectBody_keeps {s0 s : State} (hK : Keeps s0 s) (r : Req) : Keeps s0 (prismSetSelectBody r s).1 :=
    by
  unfold prismSetSelectBody
  (try dsimp only)
  repeat' first
    | with_reducible exact hK | exact setCmd_keeps (fun _ hk => hk) hK r | (intro _ hK; skip)

theorem prismSetPortBody_keeps {s0 s : State} (hK : Keeps s0 s) (r : Req) : Keeps s0 (prismSetPortBody r s).1 := by
  unfold prismSetPortBody
  (try dsimp only)
  repeat' first
    | with_reducible exact hK | exact setCmd_keeps (fun p hk => applyPrismSetPort_keeps hk p) hK r

theorem prismWriteRuleBody_keeps {s0 s : State} (hK : Keeps s0 s) (r : Req) : Keeps s0 (prismWriteRuleBody r s).1 :=
    by
  unfold prismWriteRuleBody
  (try dsimp only)
  repeat' first
    | with_reducible exact hK | exact setCmd_keeps (fun p hk => applyPrismWriteRule_keeps hk p) hK r

theorem prismReadRuleBody_keeps {s0 s : State} (hK : Keeps s0 s) (r : Req) : Keeps s0 (prismReadRuleBody r s).1 := by
  unfold prismReadRuleBody
  (try dsimp only)
  repeat' first
    | with_reducible (first | exact hK | apply readCmd_keeps) | (intro _ hK; skip)

theorem prismGetCountersBody_keeps {s0 s : State} (hK : Keeps s0 s) (r : Req) : Keeps s0 (prismGetCountersBody r s).1
    := by
  unfold prismGetCountersBody
  (try dsimp only)
  repeat' first
    | with_reducible (first | exact hK | apply readCmd_keeps) | (intro _ hK; skip)

theorem prismGetRuleCountersBody_keeps {s0 s : State} (hK : Keeps s0 s) (r : Req) : Keeps s0 (prismGetRuleCountersBody
    r s).1 := by
  unfold prismGetRuleCountersBody
  (try dsimp only)
  repeat' first
    | with_reducible (first | exact hK | apply readCmd_keeps) | (intro _ hK; skip)

theorem prismGetEpochBody_keeps {s0 s : State} (hK : Keeps s0 s) (r : Req) : Keeps s0 (prismGetEpochBody r s).1 := by
  unfold prismGetEpochBody
  (try dsimp only)
  repeat' first
    | with_reducible (first | exact hK | apply readCmd_keeps) | (intro _ hK; skip)

theorem execPrismSetProfile_keeps (r : Req) (s : State) : OutKeeps s (execPrismSetProfile r s) := 
  mailboxCommand_keeps (fun hk => prismSetProfileBody_keeps hk r)

theorem execPrismSetSelect_keeps (r : Req) (s : State) : OutKeeps s (execPrismSetSelect r s) := 
  mailboxCommand_keeps (fun hk => prismSetSelectBody_keeps hk r)

theorem execPrismSetPort_keeps (r : Req) (s : State) : OutKeeps s (execPrismSetPort r s) := 
  mailboxCommand_keeps (fun hk => prismSetPortBody_keeps hk r)

theorem execPrismWriteRule_keeps (r : Req) (s : State) : OutKeeps s (execPrismWriteRule r s) := 
  mailboxCommand_keeps (fun hk => prismWriteRuleBody_keeps hk r)

theorem execPrismReadRule_keeps (r : Req) (s : State) : OutKeeps s (execPrismReadRule r s) := 
  mailboxCommand_keeps (fun hk => prismReadRuleBody_keeps hk r)

theorem execPrismGetCounters_keeps (r : Req) (s : State) : OutKeeps s (execPrismGetCounters r s) := 
  mailboxCommand_keeps (fun hk => prismGetCountersBody_keeps hk r)

theorem execPrismGetRuleCounters_keeps (r : Req) (s : State) : OutKeeps s (execPrismGetRuleCounters r s) := 
  mailboxCommand_keeps (fun hk => prismGetRuleCountersBody_keeps hk r)

theorem execPrismGetEpoch_keeps (r : Req) (s : State) : OutKeeps s (execPrismGetEpoch r s) := 
  mailboxCommand_keeps (fun hk => prismGetEpochBody_keeps hk r)

end Sys2Proof.Machine
end

