-- ==== Sys2Proof/Laws/KeepForwarding.lean ====
section
/-! SUPPORT. What the operations of Forwarding keep. -/

set_option Elab.async false
set_option linter.all false

namespace Sys2Proof.Machine

theorem State.firstFlow_keeps {s0 s : State} (hK : Keeps s0 s) (kt : Nat) (w : BitVec 64) : Keeps s0 (State.firstFlow
    s kt w) := by
  unfold State.firstFlow
  (try dsimp only)
  repeat' first
    | with_reducible (first | exact hK | apply State.updFlow_keeps) | (intro _ hK; skip) | with_reducible assumption
    | (with_reducible refine Keeps.ite (fun _ => ?_) (fun _ => ?_))

theorem State.nameFlow_keeps {s0 s : State} (hK : Keeps s0 s) (kt : Nat) (w : BitVec 64) : Keeps s0 (State.nameFlow s
    kt w) := by
  unfold State.nameFlow
  (try dsimp only)
  repeat' first
    | with_reducible (first | exact hK | apply State.updFlow_keeps) | (intro _ hK; skip) | with_reducible assumption
    | (with_reducible refine Keeps.ite (fun _ => ?_) (fun _ => ?_))

theorem State.liveInsert_keeps {s0 s : State} (hK : Keeps s0 s) (i : InsReq) : Keeps s0 (State.liveInsert s i).1 := by
  unfold State.liveInsert
  (try dsimp only)
  repeat' first
    | with_reducible (first
        | exact hK | apply State.firstFlow_keeps | apply State.nameFlow_keeps | apply State.shadow_keeps)
    | (intro _ hK; skip) | with_reducible assumption | split
    | fail_if_no_progress with_reducible refine Keeps.fields ?_

theorem fwdInsertBody_keeps {s0 s : State} (hK : Keeps s0 s) (r : Req) : Keeps s0 (fwdInsertBody r s).1 := by
  unfold fwdInsertBody
  (try dsimp only)
  repeat' first
    | with_reducible (first
        | exact hK | apply State.dropHeld_keeps | apply errCmd_keeps | apply State.liveInsert_keeps
        | apply State.stage_keeps)
    | (intro _ hK; skip) | with_reducible assumption | (with_reducible refine Keeps.ite (fun _ => ?_) (fun _ => ?_))
    | split

theorem applyFwdDelete_keeps {s0 s : State} (hK : Keeps s0 s) (p : List Byte) : Keeps s0 (applyFwdDelete p s) := by
  unfold applyFwdDelete
  (try dsimp only)
  repeat' first
    | with_reducible exact hK | split | fail_if_no_progress with_reducible refine Keeps.fields ?_

theorem fwdDeleteBody_keeps {s0 s : State} (hK : Keeps s0 s) (r : Req) : Keeps s0 (fwdDeleteBody r s).1 := by
  unfold fwdDeleteBody
  (try dsimp only)
  repeat' first
    | with_reducible (first
        | exact hK | apply applyFwdDelete_keeps | apply State.dropHeld_keeps | apply errCmd_keeps
        | apply okCmd_keeps | apply State.stage_keeps)
    | (intro _ hK; skip) | with_reducible assumption | (with_reducible refine Keeps.ite (fun _ => ?_) (fun _ => ?_))
    | split

theorem fwdLookupBody_keeps {s0 s : State} (hK : Keeps s0 s) (r : Req) : Keeps s0 (fwdLookupBody r s).1 := by
  unfold fwdLookupBody
  (try dsimp only)
  repeat' first
    | with_reducible (first | exact hK | apply readCmd_keeps) | (intro _ hK; skip)
    | (with_reducible refine Keeps.ite (fun _ => ?_) (fun _ => ?_))

theorem applyFwdSetVlan_keeps {s0 s : State} (hK : Keeps s0 s) (p : List Byte) : Keeps s0 (applyFwdSetVlan p s) := by
  unfold applyFwdSetVlan
  (try dsimp only)
  repeat' first
    | with_reducible (first | exact hK | apply State.liveGen_keeps)

theorem applyFwdSetRoute_keeps {s0 s : State} (hK : Keeps s0 s) (p : List Byte) : Keeps s0 (applyFwdSetRoute p s) :=
    by
  unfold applyFwdSetRoute
  (try dsimp only)
  repeat' first
    | with_reducible (first | exact hK | apply State.liveGen_keeps)

theorem applyFwdSetNexthop_keeps {s0 s : State} (hK : Keeps s0 s) (p : List Byte) : Keeps s0 (applyFwdSetNexthop p s)
    := by
  unfold applyFwdSetNexthop
  (try dsimp only)
  repeat' first
    | with_reducible (first | exact hK | apply State.liveGen_keeps)

theorem applyFwdSetEcmp_keeps {s0 s : State} (hK : Keeps s0 s) (p : List Byte) : Keeps s0 (applyFwdSetEcmp p s) := by
  unfold applyFwdSetEcmp
  (try dsimp only)
  repeat' first
    | with_reducible (first | exact hK | apply State.liveGen_keeps)

theorem applyFwdSetTemplate_keeps {s0 s : State} (hK : Keeps s0 s) (p : List Byte) : Keeps s0 (applyFwdSetTemplate p
    s) := by
  unfold applyFwdSetTemplate
  (try dsimp only)
  repeat' first
    | with_reducible (first | exact hK | apply State.liveGen_keeps)

theorem applyFwdSetRouter_keeps {s0 s : State} (hK : Keeps s0 s) (p : List Byte) : Keeps s0 (applyFwdSetRouter p s) :=
    by
  unfold applyFwdSetRouter
  (try dsimp only)
  repeat' first
    | with_reducible (first | exact hK | apply State.liveGen_keeps)

theorem applyFwdSetLearn_keeps {s0 s : State} (hK : Keeps s0 s) (p : List Byte) : Keeps s0 (applyFwdSetLearn p s) :=
    by
  unfold applyFwdSetLearn
  (try dsimp only)
  repeat' first
    | with_reducible (first | exact hK | apply State.updPort_keeps)
    | (with_reducible refine Keeps.foldl _ (fun _ _ hK => ?_) _ ?_) | (intro _ hK; skip)
    | with_reducible assumption | (with_reducible refine Keeps.ite (fun _ => ?_) (fun _ => ?_)) | split
    | fail_if_no_progress with_reducible refine Keeps.fields ?_

theorem applyFwdSetAging_keeps {s0 s : State} (hK : Keeps s0 s) (p : List Byte) : Keeps s0 (applyFwdSetAging p s) :=
  hK.upd rfl

theorem fwdSetVlanBody_keeps {s0 s : State} (hK : Keeps s0 s) (r : Req) : Keeps s0 (fwdSetVlanBody r s).1 := by
  unfold fwdSetVlanBody
  (try dsimp only)
  repeat' first
    | with_reducible exact hK | exact setCmd_keeps (fun p hk => applyFwdSetVlan_keeps hk p) hK r

theorem fwdSetRouteBody_keeps {s0 s : State} (hK : Keeps s0 s) (r : Req) : Keeps s0 (fwdSetRouteBody r s).1 := by
  unfold fwdSetRouteBody
  (try dsimp only)
  repeat' first
    | with_reducible exact hK | exact setCmd_keeps (fun p hk => applyFwdSetRoute_keeps hk p) hK r

theorem fwdSetNexthopBody_keeps {s0 s : State} (hK : Keeps s0 s) (r : Req) : Keeps s0 (fwdSetNexthopBody r s).1 := by
  unfold fwdSetNexthopBody
  (try dsimp only)
  repeat' first
    | with_reducible exact hK | exact setCmd_keeps (fun p hk => applyFwdSetNexthop_keeps hk p) hK r

theorem fwdSetEcmpBody_keeps {s0 s : State} (hK : Keeps s0 s) (r : Req) : Keeps s0 (fwdSetEcmpBody r s).1 := by
  unfold fwdSetEcmpBody
  (try dsimp only)
  repeat' first
    | with_reducible exact hK | exact setCmd_keeps (fun p hk => applyFwdSetEcmp_keeps hk p) hK r

theorem fwdSetTemplateBody_keeps {s0 s : State} (hK : Keeps s0 s) (r : Req) : Keeps s0 (fwdSetTemplateBody r s).1 :=
    by
  unfold fwdSetTemplateBody
  (try dsimp only)
  repeat' first
    | with_reducible exact hK | exact setCmd_keeps (fun p hk => applyFwdSetTemplate_keeps hk p) hK r

theorem fwdSetRouterBody_keeps {s0 s : State} (hK : Keeps s0 s) (r : Req) : Keeps s0 (fwdSetRouterBody r s).1 := by
  unfold fwdSetRouterBody
  (try dsimp only)
  repeat' first
    | with_reducible exact hK | exact setCmd_keeps (fun p hk => applyFwdSetRouter_keeps hk p) hK r

theorem fwdSetLearnBody_keeps {s0 s : State} (hK : Keeps s0 s) (r : Req) : Keeps s0 (fwdSetLearnBody r s).1 := by
  unfold fwdSetLearnBody
  (try dsimp only)
  repeat' first
    | with_reducible exact hK | exact setCmd_keeps (fun p hk => applyFwdSetLearn_keeps hk p) hK r

theorem fwdSetAgingBody_keeps {s0 s : State} (hK : Keeps s0 s) (r : Req) : Keeps s0 (fwdSetAgingBody r s).1 := by
  unfold fwdSetAgingBody
  (try dsimp only)
  repeat' first
    | with_reducible exact hK | exact setCmd_keeps (fun p hk => applyFwdSetAging_keeps hk p) hK r

theorem fwdFlushBody_keeps {s0 s : State} (hK : Keeps s0 s) (r : Req) : Keeps s0 (fwdFlushBody r s).1 := by
  unfold fwdFlushBody
  (try dsimp only)
  repeat' first
    | with_reducible (first | exact hK | apply errCmd_keeps | apply okCmd_keeps) | (intro _ hK; skip)
    | with_reducible assumption | (with_reducible refine Keeps.ite (fun _ => ?_) (fun _ => ?_)) | split
    | fail_if_no_progress with_reducible refine Keeps.fields ?_

theorem fwdGetCountersBody_keeps {s0 s : State} (hK : Keeps s0 s) (r : Req) : Keeps s0 (fwdGetCountersBody r s).1 :=
    by
  unfold fwdGetCountersBody
  (try dsimp only)
  repeat' first
    | with_reducible (first | exact hK | apply readCmd_keeps) | (intro _ hK; skip)

theorem fwdGetOccupancyBody_keeps {s0 s : State} (hK : Keeps s0 s) (r : Req) : Keeps s0 (fwdGetOccupancyBody r s).1 :=
    by
  unfold fwdGetOccupancyBody
  (try dsimp only)
  repeat' first
    | with_reducible (first | exact hK | apply readCmd_keeps) | (intro _ hK; skip)

theorem State.learnNew_keeps {s0 s : State} (hK : Keeps s0 s) (v : LearnEv) (w : BitVec 64) : Keeps s0 (State.learnNew
    s v w) := by
  unfold State.learnNew
  (try dsimp only)
  repeat' first
    | with_reducible (first | exact hK | apply State.bumpFwd_keeps | apply State.raiseLimited_keeps) | split
    | fail_if_no_progress with_reducible refine Keeps.fields ?_

theorem State.learnOne_keeps {s0 s : State} (hK : Keeps s0 s) (v : LearnEv) : Keeps s0 (State.learnOne s v) := by
  unfold State.learnOne
  (try dsimp only)
  repeat' first
    | with_reducible (first | exact hK | apply State.learnNew_keeps | apply State.raiseLimited_keeps)
    | (with_reducible refine Keeps.ite (fun _ => ?_) (fun _ => ?_)) | split
    | fail_if_no_progress with_reducible refine Keeps.fields ?_

theorem execLearnInsert_keeps (slice : Nat) (s : State) : OutKeeps s (execLearnInsert slice s) := by
  unfold execLearnInsert
  (try dsimp only)
  repeat' first
    | with_reducible (first
        | exact OutKeeps.fault _ _ | apply OutKeeps.next | exact Keeps.refl _ | apply State.learnOne_keeps)
    | (with_reducible refine Keeps.ite (fun _ => ?_) (fun _ => ?_)) | split
    | fail_if_no_progress with_reducible refine Keeps.fields ?_

theorem execAgingVisit_keeps (place : Nat) (s : State) : OutKeeps s (execAgingVisit place s) := by
  unfold execAgingVisit
  (try dsimp only)
  repeat' first
    | with_reducible (first | exact OutKeeps.fault _ _ | apply OutKeeps.next | exact Keeps.refl _)
    | (with_reducible refine Keeps.ite (fun _ => ?_) (fun _ => ?_)) | split
    | fail_if_no_progress with_reducible refine Keeps.fields ?_

theorem State.parityFound_keeps {s0 s : State} (hK : Keeps s0 s) (place : Nat) : Keeps s0 (State.parityFound s place)
    := by
  unfold State.parityFound
  (try dsimp only)
  repeat' first
    | with_reducible (first | exact hK | apply State.bumpFwd_keeps | apply State.raise_keeps)

theorem execScrubRead_keeps (table : Nat) (idx : Nat) (bad : Bool) (s : State) : OutKeeps s (execScrubRead table idx
    bad s) := by
  unfold execScrubRead
  (try dsimp only)
  repeat' first
    | with_reducible (first
        | exact OutKeeps.fault _ _ | apply OutKeeps.next | exact Keeps.refl _ | apply State.bumpFwd_keeps
        | apply State.parityFound_keeps | apply State.raise_keeps)
    | (intro _ hK; skip) | with_reducible assumption | (with_reducible refine Keeps.ite (fun _ => ?_) (fun _ => ?_))
    | split | fail_if_no_progress with_reducible refine Keeps.fields ?_

theorem execParityRestore_keeps (table : Nat) (idx : Nat) (s : State) : OutKeeps s (execParityRestore table idx s) :=
    by
  unfold execParityRestore
  (try dsimp only)
  repeat' first
    | with_reducible (first
        | exact OutKeeps.fault _ _ | apply OutKeeps.next | exact Keeps.refl _ | apply State.bumpFwd_keeps)
    | (with_reducible refine Keeps.ite (fun _ => ?_) (fun _ => ?_)) | split
    | fail_if_no_progress with_reducible refine Keeps.fields ?_

theorem execTableNormalise_keeps (s : State) : OutKeeps s (execTableNormalise s) := by
  unfold execTableNormalise
  (try dsimp only)
  repeat' first
    | with_reducible (first | exact OutKeeps.fault _ _ | apply OutKeeps.next | exact Keeps.refl _)
    | (with_reducible refine Keeps.ite (fun _ => ?_) (fun _ => ?_)) | split
    | fail_if_no_progress with_reducible refine Keeps.fields ?_

theorem execFwdInsert_keeps (r : Req) (s : State) : OutKeeps s (execFwdInsert r s) := 
  mailboxCommand_keeps (fun hk => fwdInsertBody_keeps hk r)

theorem execFwdDelete_keeps (r : Req) (s : State) : OutKeeps s (execFwdDelete r s) := 
  mailboxCommand_keeps (fun hk => fwdDeleteBody_keeps hk r)

theorem execFwdLookup_keeps (r : Req) (s : State) : OutKeeps s (execFwdLookup r s) := 
  mailboxCommand_keeps (fun hk => fwdLookupBody_keeps hk r)

theorem execFwdSetVlan_keeps (r : Req) (s : State) : OutKeeps s (execFwdSetVlan r s) := 
  mailboxCommand_keeps (fun hk => fwdSetVlanBody_keeps hk r)

theorem execFwdSetRoute_keeps (r : Req) (s : State) : OutKeeps s (execFwdSetRoute r s) := 
  mailboxCommand_keeps (fun hk => fwdSetRouteBody_keeps hk r)

theorem execFwdSetNexthop_keeps (r : Req) (s : State) : OutKeeps s (execFwdSetNexthop r s) := 
  mailboxCommand_keeps (fun hk => fwdSetNexthopBody_keeps hk r)

theorem execFwdSetEcmp_keeps (r : Req) (s : State) : OutKeeps s (execFwdSetEcmp r s) := 
  mailboxCommand_keeps (fun hk => fwdSetEcmpBody_keeps hk r)

theorem execFwdSetTemplate_keeps (r : Req) (s : State) : OutKeeps s (execFwdSetTemplate r s) := 
  mailboxCommand_keeps (fun hk => fwdSetTemplateBody_keeps hk r)

theorem execFwdSetRouter_keeps (r : Req) (s : State) : OutKeeps s (execFwdSetRouter r s) := 
  mailboxCommand_keeps (fun hk => fwdSetRouterBody_keeps hk r)

theorem execFwdSetLearn_keeps (r : Req) (s : State) : OutKeeps s (execFwdSetLearn r s) := 
  mailboxCommand_keeps (fun hk => fwdSetLearnBody_keeps hk r)

theorem execFwdSetAging_keeps (r : Req) (s : State) : OutKeeps s (execFwdSetAging r s) := 
  mailboxCommand_keeps (fun hk => fwdSetAgingBody_keeps hk r)

theorem execFwdFlush_keeps (r : Req) (s : State) : OutKeeps s (execFwdFlush r s) := 
  mailboxCommand_keeps (fun hk => fwdFlushBody_keeps hk r)

theorem execFwdGetCounters_keeps (r : Req) (s : State) : OutKeeps s (execFwdGetCounters r s) := 
  mailboxCommand_keeps (fun hk => fwdGetCountersBody_keeps hk r)

theorem execFwdGetOccupancy_keeps (r : Req) (s : State) : OutKeeps s (execFwdGetOccupancy r s) := 
  mailboxCommand_keeps (fun hk => fwdGetOccupancyBody_keeps hk r)

end Sys2Proof.Machine
end

