-- ==== Sys2Proof/Laws/KeepPackets.lean ====
section
/-! SUPPORT. What the operations of Packets keep. -/

set_option Elab.async false
set_option linter.all false

namespace Sys2Proof.Machine

theorem State.countCtl_keeps {s0 s : State} (hK : Keeps s0 s) (p : Nat) (b : List Byte) : Keeps s0 (State.countCtl s p
    b) := by
  unfold State.countCtl
  (try dsimp only)
  repeat' first
    | with_reducible (first | exact hK | apply State.bumpPort_keeps)
    | (with_reducible refine Keeps.ite (fun _ => ?_) (fun _ => ?_))

theorem State.sendCtl_keeps {s0 s : State} (hK : Keeps s0 s) (p : Nat) (b : List Byte) : Keeps s0 (State.sendCtl s p
    b) := by
  unfold State.sendCtl
  (try dsimp only)
  repeat' first
    | with_reducible (first
        | exact hK | apply State.countCtl_keeps | apply State.emit_keeps | apply State.updPort_keeps
        | apply State.sendNow_keeps)
    | (intro _ hK; skip) | with_reducible assumption | (with_reducible refine Keeps.ite (fun _ => ?_) (fun _ => ?_))

theorem State.flushCtl_keeps {s0 s : State} (hK : Keeps s0 s) (p : Nat) : Keeps s0 (State.flushCtl s p) := by
  unfold State.flushCtl
  (try dsimp only)
  repeat' first
    | with_reducible (first
        | exact hK | apply State.countCtl_keeps | apply State.emit_keeps | apply State.updPort_keeps
        | apply State.sendNow_keeps)
    | (with_reducible refine Keeps.foldl _ (fun _ _ hK => ?_) _ ?_) | (intro _ hK; skip)

theorem State.sendXoff_keeps {s0 s : State} (hK : Keeps s0 s) (p : Nat) (c : Nat) : Keeps s0 (State.sendXoff s p c) :=
    by
  unfold State.sendXoff
  (try dsimp only)
  repeat' first
    | with_reducible (first | exact hK | apply State.sendCtl_keeps)
    | (with_reducible refine Keeps.ite (fun _ => ?_) (fun _ => ?_)) | split

theorem State.sendXon_keeps {s0 s : State} (hK : Keeps s0 s) (p : Nat) (c : Nat) : Keeps s0 (State.sendXon s p c) :=
    by
  unfold State.sendXon
  (try dsimp only)
  repeat' first
    | with_reducible (first | exact hK | apply State.sendCtl_keeps)
    | (with_reducible refine Keeps.ite (fun _ => ?_) (fun _ => ?_)) | split

theorem State.assertXoff_keeps {s0 s : State} (hK : Keeps s0 s) (p : Nat) (c : Nat) : Keeps s0 (State.assertXoff s p
    c) := by
  unfold State.assertXoff
  (try dsimp only)
  repeat' first
    | with_reducible (first
        | exact hK | apply State.bumpBuf_keeps | apply State.sendXoff_keeps | apply State.updPortClass_keeps
        | apply State.bumpBufAt_keeps)
    | (intro _ hK; skip) | with_reducible assumption | (with_reducible refine Keeps.ite (fun _ => ?_) (fun _ => ?_))

theorem State.releaseXoff_keeps {s0 s : State} (hK : Keeps s0 s) (p : Nat) (c : Nat) : Keeps s0 (State.releaseXoff s p
    c) := by
  unfold State.releaseXoff
  (try dsimp only)
  repeat' first
    | with_reducible (first
        | exact hK | apply State.bumpBuf_keeps | apply State.sendXon_keeps | apply State.updPortClass_keeps
        | apply State.bumpBufAt_keeps)
    | (intro _ hK; skip) | with_reducible assumption | (with_reducible refine Keeps.ite (fun _ => ?_) (fun _ => ?_))

theorem State.xoffOne_keeps {s0 s : State} (hK : Keeps s0 s) (k : Nat) : Keeps s0 (State.xoffOne s k) := by
  unfold State.xoffOne
  (try dsimp only)
  repeat' first
    | with_reducible (first | exact hK | apply State.assertXoff_keeps | apply State.releaseXoff_keeps)
    | (with_reducible refine Keeps.ite (fun _ => ?_) (fun _ => ?_))

theorem State.xoffSweep_keeps {s0 s : State} (hK : Keeps s0 s) : Keeps s0 (State.xoffSweep s) := by
  unfold State.xoffSweep
  (try dsimp only)
  repeat' first
    | with_reducible (first | exact hK | apply State.xoffOne_keeps)
    | (with_reducible refine Keeps.foldl _ (fun _ _ hK => ?_) _ ?_)

theorem State.charge_keeps {s0 s : State} (hK : Keeps s0 s) (pk : Pkt) (q : PortClass) : Keeps s0 (State.charge s pk
    q) := by
  unfold State.charge
  (try dsimp only)
  repeat' first
    | with_reducible (first
        | exact hK | apply State.assertXoff_keeps | apply State.updPkt_keeps | apply State.updPortClass_keeps)
    | (intro _ hK; skip) | with_reducible assumption | (with_reducible refine Keeps.ite (fun _ => ?_) (fun _ => ?_))

theorem State.unchargeQ_keeps {s0 s : State} (hK : Keeps s0 s) (pk : Pkt) (n : Nat) : Keeps s0 (State.unchargeQ s pk
    n) := by
  unfold State.unchargeQ
  (try dsimp only)
  repeat' first
    | with_reducible (first | exact hK | apply State.updQueue_keeps)
    | (with_reducible refine Keeps.foldl _ (fun _ _ hK => ?_) _ ?_) | (intro _ hK; skip)
    | with_reducible assumption | (with_reducible refine Keeps.ite (fun _ => ?_) (fun _ => ?_)) | split
    | fail_if_no_progress with_reducible refine Keeps.fields ?_

theorem State.chargeQ_keeps {s0 s : State} (hK : Keeps s0 s) (pk : Pkt) : Keeps s0 (State.chargeQ s pk) := by
  unfold State.chargeQ
  (try dsimp only)
  repeat' first
    | with_reducible (first | exact hK | apply State.updPkt_keeps | apply State.updQueue_keeps)
    | (with_reducible refine Keeps.foldl _ (fun _ _ hK => ?_) _ ?_) | (intro _ hK; skip)
    | with_reducible assumption | (with_reducible refine Keeps.ite (fun _ => ?_) (fun _ => ?_)) | split
    | fail_if_no_progress with_reducible refine Keeps.fields ?_

theorem State.uncharge_keeps {s0 s : State} (hK : Keeps s0 s) (pk : Pkt) (n : Nat) : Keeps s0 (State.uncharge s pk n)
    := by
  unfold State.uncharge
  (try dsimp only)
  repeat' first
    | with_reducible (first
        | exact hK | apply State.updPortClass_keeps | apply State.updQueue_keeps | apply State.unchargeQ_keeps)
    | (with_reducible refine Keeps.foldl _ (fun _ _ hK => ?_) _ ?_) | (intro _ hK; skip) | with_reducible assumption
    | (with_reducible refine Keeps.ite (fun _ => ?_) (fun _ => ?_))

theorem State.unhold_keeps {s0 s : State} (hK : Keeps s0 s) (pk : Pkt) : Keeps s0 (State.unhold s pk) := by
  unfold State.unhold
  (try dsimp only)
  repeat' first
    | with_reducible (first | exact hK | apply State.uncharge_keeps)
    | (with_reducible refine Keeps.ite (fun _ => ?_) (fun _ => ?_)) | split
    | fail_if_no_progress with_reducible refine Keeps.fields ?_

theorem State.leaveEpoch_keeps {s0 s : State} (hK : Keeps s0 s) (pk : Pkt) : Keeps s0 (State.leaveEpoch s pk) := by
  unfold State.leaveEpoch
  (try dsimp only)
  repeat' first
    | with_reducible (first | exact hK)
    | (with_reducible refine Keeps.foldl _ (fun _ _ hK => ?_) _ ?_) | (intro _ hK; skip)
    | with_reducible assumption | (with_reducible refine Keeps.ite (fun _ => ?_) (fun _ => ?_)) | split
    | fail_if_no_progress with_reducible refine Keeps.fields ?_

theorem State.leaveGen_keeps {s0 s : State} (hK : Keeps s0 s) (pk : Pkt) : Keeps s0 (State.leaveGen s pk) := by
  unfold State.leaveGen
  (try dsimp only)
  repeat' first
    | with_reducible (first | exact hK)
    | (with_reducible refine Keeps.foldl _ (fun _ _ hK => ?_) _ ?_) | (intro _ hK; skip)
    | with_reducible assumption | (with_reducible refine Keeps.ite (fun _ => ?_) (fun _ => ?_)) | split
    | fail_if_no_progress with_reducible refine Keeps.fields ?_

theorem State.retire_keeps {s0 s : State} (hK : Keeps s0 s) (pk : Pkt) : Keeps s0 (State.retire s pk) := by
  unfold State.retire
  (try dsimp only)
  repeat' first
    | with_reducible (first | exact hK | apply State.leaveEpoch_keeps | apply State.leaveGen_keeps) | (with_reducible refine Keeps.ite (fun _ => ?_) (fun _ => ?_)) | split
    | fail_if_no_progress with_reducible refine Keeps.fields ?_

theorem State.endTrap_keeps {s0 s : State} (hK : Keeps s0 s) (pk : Pkt) : Keeps s0 (State.endTrap s pk) := by
  unfold State.endTrap
  (try dsimp only)
  repeat' first
    | with_reducible (first | exact hK | apply State.leaveEpoch_keeps | apply State.updPkt_keeps)
    | (with_reducible refine Keeps.foldl _ (fun _ _ hK => ?_) _ ?_) | (intro _ hK; skip)
    | with_reducible assumption | (with_reducible refine Keeps.ite (fun _ => ?_) (fun _ => ?_)) | split
    | fail_if_no_progress with_reducible refine Keeps.fields ?_

theorem State.leaveMerge_keeps {s0 s : State} (hK : Keeps s0 s) (pk : Pkt) : Keeps s0 (State.leaveMerge s pk) :=
  hK.upd rfl

theorem State.mirCount_keeps {s0 s : State} (hK : Keeps s0 s) (no : Nat) (slice : Nat) (interval : Nat) : Keeps s0
    (State.mirCount s no slice interval).1 := by
  unfold State.mirCount
  (try dsimp only)
  repeat' first
    | with_reducible exact hK | split | fail_if_no_progress with_reducible refine Keeps.fields ?_

theorem State.mirMake_keeps {s0 s : State} (hK : Keeps s0 s) (no : Nat) (src : Nat) (pk : Pkt) (bytes : List Byte)
    (slice : Nat) (eg : Nat) (reason : Nat) : Keeps s0 (State.mirMake s no src pk bytes slice eg reason).1 := by
  unfold State.mirMake
  (try dsimp only)
  repeat' first
    | with_reducible (first
        | exact hK | apply State.bumpMir_keeps | apply State.bumpTel_keeps | apply State.bumpMirAt_keeps) | (intro _ hK; skip)
    | with_reducible assumption | (with_reducible refine Keeps.ite (fun _ => ?_) (fun _ => ?_)) | split
    | fail_if_no_progress with_reducible refine Keeps.fields ?_

theorem State.mirQueue_keeps {s0 s : State} (hK : Keeps s0 s) (no : Nat) (slice : Nat) (id : Nat) : Keeps s0
    (State.mirQueue s no slice id) := by
  unfold State.mirQueue
  (try dsimp only)
  repeat' first
    | with_reducible (first | exact hK | apply State.bumpMir_keeps | apply State.bumpMirAt_keeps)
    | (with_reducible refine Keeps.ite (fun _ => ?_) (fun _ => ?_)) | split
    | fail_if_no_progress with_reducible refine Keeps.fields ?_

theorem State.mirOffer_keeps {s0 s : State} (hK : Keeps s0 s) (no : Nat) (src : Nat) (pk : Pkt) (bytes : List Byte)
    (slice : Nat) (eg : Nat) (reason : Nat) : Keeps s0 (State.mirOffer s no src pk bytes slice eg reason) := by
  unfold State.mirOffer
  (try dsimp only)
  repeat' first
    | with_reducible (first
        | exact hK | apply State.mirCount_keeps | apply State.mirMake_keeps | apply State.mirQueue_keeps)
    | (with_reducible refine Keeps.ite (fun _ => ?_) (fun _ => ?_))

theorem State.mirDone_keeps {s0 s : State} (hK : Keeps s0 s) (id : Nat) (no : Nat) : Keeps s0 (State.mirDone s id no)
    := by
  unfold State.mirDone
  (try dsimp only)
  repeat' first
    | with_reducible (first | exact hK | apply State.updPkt_keeps)
    | (with_reducible refine Keeps.foldl _ (fun _ _ hK => ?_) _ ?_) | (intro _ hK; skip)
    | with_reducible assumption | (with_reducible refine Keeps.ite (fun _ => ?_) (fun _ => ?_)) | split
    | fail_if_no_progress with_reducible refine Keeps.fields ?_

theorem State.mirDropTo_keeps {s0 s : State} (hK : Keeps s0 s) (pk : Pkt) (reason : Nat) (eg : Nat) (no : Nat) : Keeps
    s0 (State.mirDropTo s pk reason eg no) := by
  unfold State.mirDropTo
  (try dsimp only)
  repeat' first
    | with_reducible (first | exact hK | apply State.mirDone_keeps | apply State.mirOffer_keeps)
    | (with_reducible refine Keeps.foldl _ (fun _ _ hK => ?_) _ ?_) | (intro _ hK; skip)
    | with_reducible assumption | (with_reducible refine Keeps.ite (fun _ => ?_) (fun _ => ?_)) | split
    | fail_if_no_progress with_reducible refine Keeps.fields ?_

theorem State.mirDrop_keeps {s0 s : State} (hK : Keeps s0 s) (pk : Pkt) (reason : Nat) (eg : Nat) : Keeps s0
    (State.mirDrop s pk reason eg) := by
  unfold State.mirDrop
  (try dsimp only)
  repeat' first
    | with_reducible (first | exact hK | apply State.mirOffer_keeps | apply State.mirDropTo_keeps)
    | (with_reducible refine Keeps.foldl _ (fun _ _ hK => ?_) _ ?_) | (intro _ hK; skip) | with_reducible assumption
    | (with_reducible refine Keeps.ite (fun _ => ?_) (fun _ => ?_))

theorem State.countReason_keeps {s0 s : State} (hK : Keeps s0 s) (pk : Pkt) (reason : Nat) (eg : Nat) : Keeps s0
    (State.countReason s pk reason eg) := by
  unfold State.countReason
  (try dsimp only)
  repeat' first
    | with_reducible (first
        | exact hK | apply State.bumpBuf_keeps | apply State.bumpFab_keeps | apply State.bumpFwd_keeps
        | apply State.bumpPort_keeps | apply State.bumpPrism_keeps | apply State.bumpSched_keeps
        | apply State.bumpTime_keeps | apply State.bumpBufAt_keeps | apply State.bumpFabAt_keeps
        | apply State.bumpFwdAt_keeps | apply State.bumpSchedAt_keeps)
    | split

theorem State.bumpBufOf_keeps {s0 s : State} (hK : Keeps s0 s) (pk : Pkt) (i : Nat) : Keeps s0 (State.bumpBufOf s pk
    i) := by
  unfold State.bumpBufOf
  (try dsimp only)
  repeat' first
    | with_reducible (first | exact hK | apply State.bumpBufAt_keeps)
    | (with_reducible refine Keeps.foldl _ (fun _ _ hK => ?_) _ ?_) | (intro _ hK; skip)
    | with_reducible assumption | (with_reducible refine Keeps.ite (fun _ => ?_) (fun _ => ?_)) | split
    | fail_if_no_progress with_reducible refine Keeps.fields ?_

theorem State.countQuiet_keeps {s0 s : State} (hK : Keeps s0 s) (pk : Pkt) (reason : Nat) (eg : Nat) : Keeps s0
    (State.countQuiet s pk reason eg) := by
  unfold State.countQuiet
  (try dsimp only)
  repeat' first
    | with_reducible (first
        | exact hK | apply State.bumpDrop_keeps | apply State.bumpMirAt_keeps | apply State.countReason_keeps)
    | (with_reducible refine Keeps.foldl _ (fun _ _ hK => ?_) _ ?_) | (intro _ hK; skip)
    | with_reducible assumption | (with_reducible refine Keeps.ite (fun _ => ?_) (fun _ => ?_)) | split
    | fail_if_no_progress with_reducible refine Keeps.fields ?_

theorem State.countDrop_keeps {s0 s : State} (hK : Keeps s0 s) (pk : Pkt) (reason : Nat) (eg : Nat) : Keeps s0
    (State.countDrop s pk reason eg) := by
  unfold State.countDrop
  (try dsimp only)
  repeat' first
    | with_reducible (first
        | exact hK | apply State.bumpDrop_keeps | apply State.bumpMir_keeps | apply State.countReason_keeps
        | apply State.mirDrop_keeps | apply State.countQuiet_keeps)
    | split

theorem State.forget_keeps {s0 s : State} (hK : Keeps s0 s) (pk : Pkt) : Keeps s0 (State.forget s pk) := by
  unfold State.forget
  (try dsimp only)
  repeat' first
    | with_reducible (first | exact hK | apply State.updPkt_keeps) | (intro _ hK; skip) | with_reducible assumption
    | (with_reducible refine Keeps.ite (fun _ => ?_) (fun _ => ?_)) | split
    | fail_if_no_progress with_reducible refine Keeps.fields ?_

theorem State.release_keeps {s0 s : State} (hK : Keeps s0 s) (id : Nat) : Keeps s0 (State.release s id) := by
  unfold State.release
  (try dsimp only)
  repeat' first
    | with_reducible (first
        | exact hK | apply State.forget_keeps | apply State.leaveMerge_keeps | apply State.unhold_keeps
        | apply State.xoffSweep_keeps | apply State.endTrap_keeps)
    | split

theorem State.dropPkt_keeps {s0 s : State} (hK : Keeps s0 s) (id : Nat) (reason : Nat) : Keeps s0 (State.dropPkt s id
    reason) := by
  unfold State.dropPkt
  (try dsimp only)
  repeat' first
    | with_reducible (first
        | exact hK | apply State.countDrop_keeps | apply State.release_keeps | apply State.retire_keeps)
    | split

end Sys2Proof.Machine
end

