-- ==== Sys2Proof/Laws/KeepTimeBase.lean ====
section
/-! SUPPORT. What the operations of TimeBase keep. -/

set_option Elab.async false
set_option linter.all false

namespace Sys2Proof.Machine

theorem TimeBase.setUnits_ok (t : TimeBase) (n : Nat) : (t.setUnits n).ok := by
  unfold TimeBase.setUnits TimeBase.ok
  exact ⟨Nat.mod_lt _ (by norm_num), Nat.mod_lt _ (by norm_num), Nat.mod_lt _ (by norm_num)⟩

theorem TimeBase.shift_ok (t : TimeBase) (d : Int) : (t.shift d).ok := TimeBase.setUnits_ok t _

theorem TimeBase.tick_ok (t : TimeBase) : t.tick.ok := TimeBase.setUnits_ok t _

theorem State.oneTick_keeps {s0 s : State} (hK : Keeps s0 s) : Keeps s0 (State.oneTick s) := by
  unfold State.oneTick
  exact Keeps.upd (hK.ofTime s.time.tick (fun _ => TimeBase.tick_ok _)) rfl

end Sys2Proof.Machine
end

