-- ==== Sys2Proof/Laws/KeepPolice.lean ====
section
/-! SUPPORT. What the operations of Police keep. -/

set_option Elab.async false
set_option linter.all false

namespace Sys2Proof.Machine

theorem State.police_keeps {s0 s : State} (hK : Keeps s0 s) (pk : Pkt) : Keeps s0 (State.police s pk).1 := by
  unfold State.police
  (try dsimp only)
  repeat' first
    | with_reducible (first
        | exact hK | apply State.bumpSched_keeps | apply State.updPkt_keeps | apply State.updPolicer_keeps
        | apply State.bumpSchedAt_keeps)
    | (intro _ hK; skip) | with_reducible assumption | split

theorem State.bumpStream_keeps {s0 s : State} (hK : Keeps s0 s) (st : Nat) (i : Nat) (n : Nat) : Keeps s0
    (State.bumpStream s st i n) := by
  unfold State.bumpStream
  (try dsimp only)
  repeat' first
    | with_reducible (first | exact hK | apply State.bumpFrer_keeps | apply State.bumpRed_keeps)
    | (with_reducible refine Keeps.foldl _ (fun _ _ hK => ?_) _ ?_) | (intro _ hK; skip)
    | with_reducible assumption | (with_reducible refine Keeps.ite (fun _ => ?_) (fun _ => ?_)) | split
    | fail_if_no_progress with_reducible refine Keeps.fields ?_

theorem State.frerRecover_keeps {s0 s : State} (hK : Keeps s0 s) (st : Nat) (c : FrerCfg) (rtag : Option Nat) : Keeps
    s0 (State.frerRecover s st c rtag).1 := by
  unfold State.frerRecover
  (try dsimp only)
  repeat' first
    | with_reducible (first | exact hK | apply State.bumpStream_keeps | apply State.updStream_keeps)
    | (intro _ hK; skip) | with_reducible assumption | split

theorem State.frerGenerate_keeps {s0 s : State} (hK : Keeps s0 s) (pk : Pkt) (st : Nat) : Keeps s0 (State.frerGenerate
    s pk st) := by
  unfold State.frerGenerate
  (try dsimp only)
  repeat' first
    | with_reducible (first
        | exact hK | apply State.bumpStream_keeps | apply State.updPkt_keeps | apply State.updStream_keeps)
    | (intro _ hK; skip)

end Sys2Proof.Machine
end

