-- ==== Sys2Proof/Laws/KeepLookup.lean ====
section
/-! SUPPORT. What the operations of Lookup keep. -/

set_option Elab.async false
set_option linter.all false

namespace Sys2Proof.Machine

theorem State.look_keeps {s0 s : State} (h : Keeps s0 s) (g kt : Nat) (key : List Byte) : Keeps s0 (s.look g kt key).st :=
  Keeps.foldl _ (fun _ _ hk => State.parityFound_keeps hk _) _ h

theorem State.noLook_keeps {s0 s : State} (h : Keeps s0 s) : Keeps s0 s.noLook.st := h

theorem State.setHit_keeps {s0 s : State} (hK : Keeps s0 s) (q : Nat) : Keeps s0 (State.setHit s q) :=
  hK.upd rfl

theorem Look.mark_keeps {s0 : State} (l : Look) (h : Keeps s0 l.st) : Keeps s0 l.mark := by
  unfold Look.mark
  split
  · exact State.setHit_keeps h _
  · exact h

theorem State.tabParity_keeps {s0 s : State} (hK : Keeps s0 s) : Keeps s0 (State.tabParity s) := by
  unfold State.tabParity
  (try dsimp only)
  repeat' first
    | with_reducible (first | exact hK | apply State.bumpFwd_keeps | apply State.raise_keeps)

theorem State.terminate_keeps {s0 s : State} (hK : Keeps s0 s) (c : Ctx) : Keeps s0 (State.terminate s c).1 := by
  unfold State.terminate
  (try dsimp only)
  repeat' first
    | with_reducible (first | exact hK | apply State.bumpFwd_keeps | apply State.look_keeps | apply Look.mark_keeps)
    | (with_reducible refine Keeps.ite (fun _ => ?_) (fun _ => ?_)) | split

theorem State.lookD_keeps {s0 s : State} (hK : Keeps s0 s) (c : Ctx) : Keeps s0 (State.lookD s c).st := by
  unfold State.lookD
  (try dsimp only)
  repeat' first
    | with_reducible (first | exact hK | apply State.look_keeps | apply State.noLook_keeps)
    | (with_reducible refine Keeps.ite (fun _ => ?_) (fun _ => ?_)) | split

theorem State.lookS_keeps {s0 s : State} (hK : Keeps s0 s) (c : Ctx) : Keeps s0 (State.lookS s c).st := by
  unfold State.lookS
  (try dsimp only)
  repeat' first
    | with_reducible (first | exact hK | apply State.look_keeps | apply State.noLook_keeps)
    | (with_reducible refine Keeps.ite (fun _ => ?_) (fun _ => ?_)) | split

theorem State.lookR_keeps {s0 s : State} (hK : Keeps s0 s) (c : Ctx) : Keeps s0 (State.lookR s c).st := by
  unfold State.lookR
  (try dsimp only)
  repeat' first
    | with_reducible (first | exact hK | apply State.look_keeps | apply State.noLook_keeps)
    | (with_reducible refine Keeps.ite (fun _ => ?_) (fun _ => ?_)) | split

theorem State.lookX_keeps {s0 s : State} (hK : Keeps s0 s) (c : Ctx) : Keeps s0 (State.lookX s c).st := by
  unfold State.lookX
  (try dsimp only)
  repeat' first
    | with_reducible (first | exact hK | apply State.look_keeps | apply State.noLook_keeps)
    | (with_reducible refine Keeps.ite (fun _ => ?_) (fun _ => ?_)) | split

theorem State.hitS_keeps {s0 s : State} (hK : Keeps s0 s) (c : Ctx) (l : Look) (hl : Keeps s0 l.st) : Keeps s0
    (State.hitS s c l) := by
  unfold State.hitS
  (try dsimp only)
  repeat' first
    | with_reducible (first | exact hK | apply State.setHit_keeps | exact hl)
    | (with_reducible refine Keeps.ite (fun _ => ?_) (fun _ => ?_)) | split

theorem hitD_keeps {s0 : State} (l : Look) (h : Keeps s0 l.st) : Keeps s0 (hitD l) := by
  unfold hitD
  split
  · split
    · exact h
    · exact State.setHit_keeps h _
  · exact h

theorem State.queueLearn_keeps {s0 s : State} (hK : Keeps s0 s) (sl : Nat) (v : LearnEv) : Keeps s0 (State.queueLearn
    s sl v) := by
  unfold State.queueLearn
  (try dsimp only)
  repeat' first
    | with_reducible (first | exact hK | apply State.bumpFwd_keeps | apply State.bumpFwdAt_keeps)
    | (with_reducible refine Keeps.ite (fun _ => ?_) (fun _ => ?_)) | split
    | fail_if_no_progress with_reducible refine Keeps.fields ?_

theorem State.countFwd_keeps {s0 s : State} (hK : Keeps s0 s) (port : Nat) (f : Fwd) (badD : Bool) : Keeps s0
    (State.countFwd s port f badD) := by
  unfold State.countFwd
  (try dsimp only)
  repeat' first
    | with_reducible (first
        | exact hK | apply State.bumpDrop_keeps | apply State.bumpFwd_keeps | apply State.drawn_keeps
        | apply State.tabParity_keeps | apply State.bumpFwdAt_keeps)
    | (with_reducible refine Keeps.ite (fun _ => ?_) (fun _ => ?_))

end Sys2Proof.Machine
end

