-- ==== Sys2Proof/Laws/KeepCells.lean ====
section
/-! SUPPORT. What the operations of Cells keep. -/

set_option Elab.async false
set_option linter.all false

namespace Sys2Proof.Machine

theorem State.leaveSpill_keeps {s0 s : State} (hK : Keeps s0 s) (sl : Nat) (v : Nat) : Keeps s0 (State.leaveSpill s sl
    v) := by
  unfold State.leaveSpill
  (try dsimp only)
  repeat' first
    | with_reducible (first | exact hK | apply State.updVoq_keeps)
    | (with_reducible refine Keeps.foldl _ (fun _ _ hK => ?_) _ ?_) | (intro _ hK; skip)
    | with_reducible assumption | (with_reducible refine Keeps.ite (fun _ => ?_) (fun _ => ?_)) | split
    | fail_if_no_progress with_reducible refine Keeps.fields ?_

theorem State.ask_keeps {s0 s : State} (hK : Keeps s0 s) (pk : Pkt) (p : Nat) (v : Nat) : Keeps s0 (State.ask s pk p
    v) := by
  unfold State.ask
  (try dsimp only)
  repeat' first
    | with_reducible (first | exact hK | apply State.updPkt_keeps | apply State.updVoq_keeps) | (intro _ hK; skip)
    | with_reducible assumption | (with_reducible refine Keeps.ite (fun _ => ?_) (fun _ => ?_)) | split

theorem State.pushVoq_keeps {s0 s : State} (hK : Keeps s0 s) (pk : Pkt) (p : Nat) (v : Nat) : Keeps s0 (State.pushVoq
    s pk p v) := by
  unfold State.pushVoq
  (try dsimp only)
  repeat' first
    | with_reducible (first | exact hK | apply State.ask_keeps | apply State.updVoq_keeps) | (intro _ hK; skip)

theorem State.returnCredit_keeps {s0 s : State} (hK : Keeps s0 s) (sl : Nat) (v : Nat) (keep : Nat) : Keeps s0
    (State.returnCredit s sl v keep) := by
  unfold State.returnCredit
  (try dsimp only)
  repeat' first
    | with_reducible (first | exact hK | apply State.bumpFab_keeps | apply State.updVoq_keeps | apply State.bumpFabAt_keeps) | (intro _ hK; skip)
    | with_reducible assumption | (with_reducible refine Keeps.ite (fun _ => ?_) (fun _ => ?_))

theorem State.standBy_keeps {s0 s : State} (hK : Keeps s0 s) (sl : Nat) (v : Nat) : Keeps s0 (State.standBy s sl v) :=
    by
  unfold State.standBy
  (try dsimp only)
  repeat' first
    | with_reducible (first | exact hK | apply State.returnCredit_keeps | apply State.updVoq_keeps)
    | (with_reducible refine Keeps.foldl _ (fun _ _ hK => ?_) _ ?_) | (intro _ hK; skip)
    | with_reducible assumption | (with_reducible refine Keeps.ite (fun _ => ?_) (fun _ => ?_)) | split
    | fail_if_no_progress with_reducible refine Keeps.fields ?_

theorem State.startOne_keeps {s0 s : State} (hK : Keeps s0 s) (sl : Nat) (v : Nat) : Keeps s0 (State.startOne s sl v)
    := by
  unfold State.startOne
  (try dsimp only)
  repeat' first
    | with_reducible (first
        | exact hK | apply State.returnCredit_keeps | apply State.updPair_keeps | apply State.updVoq_keeps
        | apply State.standBy_keeps)
    | (intro _ hK; skip) | with_reducible assumption | (with_reducible refine Keeps.ite (fun _ => ?_) (fun _ => ?_))
    | split

theorem State.startFrames_keeps {s0 s : State} (hK : Keeps s0 s) (sl : Nat) (v : Nat) : Keeps s0 (State.startFrames s
    sl v) := by
  unfold State.startFrames
  (try dsimp only)
  repeat' first
    | with_reducible (first | exact hK | apply State.startOne_keeps)
    | (with_reducible refine Keeps.foldl _ (fun _ _ hK => ?_) _ ?_) | (intro _ hK; skip)

theorem State.sendCopies_keeps {s0 s : State} (hK : Keeps s0 s) (pk : Pkt) : Keeps s0 (State.sendCopies s pk) := by
  unfold State.sendCopies
  (try dsimp only)
  repeat' first
    | with_reducible (first
        | exact hK | apply State.bumpFab_keeps | apply State.updPair_keeps | apply State.updPkt_keeps
        | apply State.bumpFabAt_keeps)
    | (with_reducible refine Keeps.foldl _ (fun _ _ hK => ?_) _ ?_) | (intro _ hK; skip)

theorem State.startMultiOf_keeps {s0 s : State} (hK : Keeps s0 s) (sl : Nat) (c : Nat) : Keeps s0 (State.startMultiOf
    s sl c) := by
  unfold State.startMultiOf
  (try dsimp only)
  repeat' first
    | with_reducible (first | exact hK | apply State.sendCopies_keeps)
    | (with_reducible refine Keeps.foldl _ (fun _ _ hK => ?_) _ ?_) | (intro _ hK; skip)
    | with_reducible assumption | (with_reducible refine Keeps.ite (fun _ => ?_) (fun _ => ?_)) | split
    | fail_if_no_progress with_reducible refine Keeps.fields ?_

theorem State.startMulti_keeps {s0 s : State} (hK : Keeps s0 s) (sl : Nat) : Keeps s0 (State.startMulti s sl) := by
  unfold State.startMulti
  (try dsimp only)
  repeat' first
    | with_reducible (first | exact hK | apply State.sendCopies_keeps | apply State.startMultiOf_keeps) | (intro _ hK; skip)
    | with_reducible assumption | (with_reducible refine Keeps.ite (fun _ => ?_) (fun _ => ?_)) | split
    | fail_if_no_progress with_reducible refine Keeps.fields ?_

theorem State.sendCell_keeps {s0 s : State} (hK : Keeps s0 s) (sl : Nat) (d : Nat) (plane : Nat) : Keeps s0
    (State.sendCell s sl d plane) := by
  unfold State.sendCell
  (try dsimp only)
  repeat' first
    | with_reducible (first
        | exact hK | apply State.bumpFab_keeps | apply State.updPair_keeps | apply State.updPkt_keeps
        | apply State.bumpFabAt_keeps)
    | (intro _ hK; skip) | with_reducible assumption | (with_reducible refine Keeps.ite (fun _ => ?_) (fun _ => ?_))
    | split | fail_if_no_progress with_reducible refine Keeps.fields ?_

theorem State.trySend_keeps {s0 s : State} (hK : Keeps s0 s) (sl : Nat) (d : Nat) : Keeps s0 (State.trySend s sl d) :=
    by
  unfold State.trySend
  (try dsimp only)
  repeat' first
    | with_reducible (first | exact hK | apply State.sendCell_keeps)
    | (with_reducible refine Keeps.ite (fun _ => ?_) (fun _ => ?_)) | split

theorem State.setEgq_keeps {s0 s : State} (hK : Keeps s0 s) (k : Nat) (l : List EgItem) : Keeps s0 (State.setEgq s k
    l) :=
  hK.upd rfl

theorem State.credit_keeps {s0 s : State} (hK : Keeps s0 s) (src : Nat) (dst : Nat) (l : List Nat) : Keeps s0
    (State.credit s src dst l) := by
  unfold State.credit
  (try dsimp only)
  repeat' first
    | with_reducible (first | exact hK | apply State.updPair_keeps)
    | (with_reducible refine Keeps.foldl _ (fun _ _ hK => ?_) _ ?_) | (intro _ hK; skip)
    | with_reducible assumption | (with_reducible refine Keeps.ite (fun _ => ?_) (fun _ => ?_)) | split
    | fail_if_no_progress with_reducible refine Keeps.fields ?_

theorem State.matchCredit_keeps {s0 s : State} (hK : Keeps s0 s) (p : Nat) (c : Nat) (n : Nat) : Keeps s0
    (State.matchCredit s p c n) := by
  unfold State.matchCredit
  (try dsimp only)
  repeat' first
    | with_reducible (first | exact hK | apply State.updFabPort_keeps)
    | (with_reducible refine Keeps.foldl _ (fun _ _ hK => ?_) _ ?_) | (intro _ hK; skip)
    | with_reducible assumption | (with_reducible refine Keeps.ite (fun _ => ?_) (fun _ => ?_)) | split
    | fail_if_no_progress with_reducible refine Keeps.fields ?_

theorem State.egLeave_keeps {s0 s : State} (hK : Keeps s0 s) (k : Nat) (i : EgItem) : Keeps s0 (State.egLeave s k i)
    := by
  unfold State.egLeave
  (try dsimp only)
  repeat' first
    | with_reducible (first
        | exact hK | apply State.credit_keeps | apply State.matchCredit_keeps | apply State.setEgq_keeps)
    | (intro _ hK; skip) | with_reducible assumption | (with_reducible refine Keeps.ite (fun _ => ?_) (fun _ => ?_))

theorem State.egDrop_keeps {s0 s : State} (hK : Keeps s0 s) (k : Nat) (reason : Nat) (i : EgItem) : Keeps s0
    (State.egDrop s k reason i) := by
  unfold State.egDrop
  (try dsimp only)
  repeat' first
    | with_reducible (first | exact hK | apply State.countDrop_keeps | apply State.egLeave_keeps)

theorem State.pull_keeps {s0 s : State} (hK : Keeps s0 s) (pk : Pkt) : Keeps s0 (State.pull s pk) := by
  unfold State.pull
  (try dsimp only)
  repeat' first
    | with_reducible (first
        | exact hK | apply State.credit_keeps | apply State.updPair_keeps | apply State.updQueue_keeps
        | apply State.updVoq_keeps | apply State.leaveSpill_keeps | apply State.standBy_keeps)
    | (with_reducible refine Keeps.foldl _ (fun _ _ hK => ?_) _ ?_) | (intro _ hK; skip) | with_reducible assumption
    | (with_reducible refine Keeps.ite (fun _ => ?_) (fun _ => ?_)) | split
    | fail_if_no_progress with_reducible refine Keeps.fields ?_

theorem State.egOpen_keeps {s0 s : State} (hK : Keeps s0 s) (c : Cell) (pk : Pkt) (p : Nat) : Keeps s0 (State.egOpen s
    c pk p) := by
  unfold State.egOpen
  (try dsimp only)
  repeat' first
    | with_reducible (first
        | exact hK | apply State.complete_keeps | apply State.countDrop_keeps | apply State.matchCredit_keeps
        | apply State.setEgq_keeps)
    | (with_reducible refine Keeps.ite (fun _ => ?_) (fun _ => ?_)) | split

theorem State.egMore_keeps {s0 s : State} (hK : Keeps s0 s) (c : Cell) (k : Nat) : Keeps s0 (State.egMore s c k) := by
  unfold State.egMore
  (try dsimp only)
  repeat' first
    | with_reducible (first | exact hK | apply State.complete_keeps | apply State.setEgq_keeps) | (intro _ hK; skip)
    | (with_reducible refine Keeps.ite (fun _ => ?_) (fun _ => ?_))

theorem State.egTake_keeps {s0 s : State} (hK : Keeps s0 s) (dst : Nat) (c : Cell) : Keeps s0 (State.egTake s dst c)
    := by
  unfold State.egTake
  (try dsimp only)
  repeat' first
    | with_reducible (first
        | exact hK | apply State.credit_keeps | apply State.egMore_keeps | apply State.egOpen_keeps)
    | (with_reducible refine Keeps.foldl _ (fun _ _ hK => ?_) _ ?_) | (intro _ hK; skip) | with_reducible assumption
    | (with_reducible refine Keeps.ite (fun _ => ?_) (fun _ => ?_))

theorem State.reseqRelease_keeps {s0 s : State} (hK : Keeps s0 s) (src : Nat) (dst : Nat) (vv : Nat) : Keeps s0
    (State.reseqRelease s src dst vv) := by
  induction vv generalizing s src dst with
  | zero => exact hK | succ n ih =>
    unfold State.reseqRelease
    (try dsimp only)
    repeat' first
      | with_reducible (first
          | apply ih | exact hK | apply State.credit_keeps | apply State.egTake_keeps | apply State.updPair_keeps)
      | (intro _ hK; skip) | with_reducible assumption | (with_reducible refine Keeps.ite (fun _ => ?_) (fun _ => ?_))
      | split

theorem State.reseqGap_keeps {s0 s : State} (hK : Keeps s0 s) (src : Nat) (dst : Nat) : Keeps s0 (State.reseqGap s src
    dst) := by
  unfold State.reseqGap
  (try dsimp only)
  repeat' first
    | with_reducible (first
        | exact hK | apply State.bumpFab_keeps | apply State.updPair_keeps | apply State.bumpFabAt_keeps) | (intro _ hK; skip)
    | with_reducible assumption | (with_reducible refine Keeps.ite (fun _ => ?_) (fun _ => ?_))

theorem State.reseq_keeps {s0 s : State} (hK : Keeps s0 s) (c : Cell) : Keeps s0 (State.reseq s c) := by
  unfold State.reseq
  (try dsimp only)
  repeat' first
    | with_reducible (first
        | exact hK | apply State.bumpFab_keeps | apply State.reseqGap_keeps | apply State.reseqRelease_keeps
        | apply State.updPair_keeps | apply State.bumpFabAt_keeps)
    | (intro _ hK; skip) | with_reducible assumption | (with_reducible refine Keeps.ite (fun _ => ?_) (fun _ => ?_))

theorem State.freeCell_keeps {s0 s : State} (hK : Keeps s0 s) (c : Cell) : Keeps s0 (State.freeCell s c) := by
  unfold State.freeCell
  (try dsimp only)
  repeat' first
    | with_reducible (first
        | exact hK | apply State.release_keeps | apply State.uncharge_keeps | apply State.updPkt_keeps)
    | (intro _ hK; skip) | with_reducible assumption | (with_reducible refine Keeps.ite (fun _ => ?_) (fun _ => ?_))
    | split | fail_if_no_progress with_reducible refine Keeps.fields ?_

theorem State.takeCredits_keeps {s0 s : State} (hK : Keeps s0 s) (src : Nat) (dst : Nat) : Keeps s0 (State.takeCredits
    s src dst) := by
  unfold State.takeCredits
  (try dsimp only)
  repeat' first
    | with_reducible (first
        | exact hK | apply State.freeCell_keeps | apply State.updPair_keeps | apply State.xoffSweep_keeps)
    | (with_reducible refine Keeps.foldl _ (fun _ _ hK => ?_) _ ?_) | (intro _ hK; skip)

theorem State.egMirror_keeps {s0 s : State} (hK : Keeps s0 s) (pk : Pkt) (p : Nat) (b : List Byte) (stomped : Bool) :
    Keeps s0 (State.egMirror s pk p b stomped) := by
  unfold State.egMirror
  (try dsimp only)
  repeat' first
    | with_reducible (first | exact hK | apply State.mirOffer_keeps)
    | (with_reducible refine Keeps.ite (fun _ => ?_) (fun _ => ?_))

end Sys2Proof.Machine
end

