-- ==== Sys2Proof/Laws/KeepHealth.lean ====
section
/-! SUPPORT. What the operations of Health keep. -/

set_option Elab.async false
set_option linter.all false

namespace Sys2Proof.Machine

theorem State.healthChanged_keeps {s0 s : State} (hK : Keeps s0 s) : Keeps s0 (State.healthChanged s) := by
  unfold State.healthChanged
  (try dsimp only)
  repeat' first
    | with_reducible (first | exact hK | apply State.raise_keeps) | split
    | fail_if_no_progress with_reducible refine Keeps.fields ?_

theorem State.healthIf_keeps {s0 s : State} (hK : Keeps s0 s) (b : Bool) : Keeps s0 (State.healthIf s b) := by
  unfold State.healthIf
  (try dsimp only)
  repeat' first
    | with_reducible (first | exact hK | apply State.healthChanged_keeps)
    | (with_reducible refine Keeps.ite (fun _ => ?_) (fun _ => ?_))

theorem State.healthSince_keeps {s0 s : State} (hK : Keeps s0 s) (before : State) : Keeps s0 (State.healthSince s
    before) := by
  unfold State.healthSince
  (try dsimp only)
  repeat' first
    | with_reducible (first | exact hK | apply State.healthIf_keeps)
    | (with_reducible refine Keeps.foldl _ (fun _ _ hK => ?_) _ ?_) | (intro _ hK; skip)
    | with_reducible assumption | (with_reducible refine Keeps.ite (fun _ => ?_) (fun _ => ?_)) | split
    | fail_if_no_progress with_reducible refine Keeps.fields ?_

theorem State.repairAdd_keeps {s0 s : State} (hK : Keeps s0 s) (kind : Nat) (unit : Nat) : Keeps s0 (State.repairAdd s
    kind unit) := by
  unfold State.repairAdd
  (try dsimp only)
  repeat' first
    | with_reducible exact hK | (with_reducible refine Keeps.ite (fun _ => ?_) (fun _ => ?_)) | split
    | fail_if_no_progress with_reducible refine Keeps.fields ?_

theorem State.repairDel_keeps {s0 s : State} (hK : Keeps s0 s) (kind : Nat) (unit : Nat) : Keeps s0 (State.repairDel s
    kind unit) :=
  hK.upd rfl

theorem State.setLane_keeps {s0 s : State} (hK : Keeps s0 s) (i : Nat) (f : LaneSt → LaneSt) : Keeps s0 (State.setLane
    s i f) := by
  unfold State.setLane
  (try dsimp only)
  repeat' first
    | with_reducible (first | exact hK | apply State.healthIf_keeps | apply State.updLane_keeps)

theorem State.setLanes_keeps {s0 s : State} (hK : Keeps s0 s) (i : Nat) (n : Nat) (f : Nat → LaneSt → LaneSt) : Keeps
    s0 (State.setLanes s i n f) := by
  unfold State.setLanes
  (try dsimp only)
  repeat' first
    | with_reducible (first | exact hK | apply State.healthIf_keeps | apply State.updLane_keeps)
    | (with_reducible refine Keeps.foldl _ (fun _ _ hK => ?_) _ ?_) | (intro _ hK; skip)

end Sys2Proof.Machine
end

