-- ==== Sys2Proof/Laws/KeepPortBase.lean ====
section
/-! SUPPORT. What the operations of PortBase keep. -/

set_option Elab.async false
set_option linter.all false

namespace Sys2Proof.Machine

theorem State.ltSend_keeps {s0 s : State} (hK : Keeps s0 s) (p : Nat) (type : Nat) (txId : Nat) (target : Nat) (nak :
    Nat) (flags : Nat) : Keeps s0 (State.ltSend s p type txId target nak flags) := by
  unfold State.ltSend
  (try dsimp only)
  repeat' first
    | with_reducible (first | exact hK | apply State.sendCtl_keeps) | split
    | fail_if_no_progress with_reducible refine Keeps.fields ?_

theorem State.updLt_keeps {s0 s : State} (hK : Keeps s0 s) (p : Nat) (f : LtSt → LtSt) : Keeps s0 (State.updLt s p f)
    := by
  unfold State.updLt
  (try dsimp only)
  repeat' first
    | with_reducible (first | exact hK | apply State.updPort_keeps)
    | (with_reducible refine Keeps.foldl _ (fun _ _ hK => ?_) _ ?_) | (intro _ hK; skip)
    | with_reducible assumption | (with_reducible refine Keeps.ite (fun _ => ?_) (fun _ => ?_)) | split
    | fail_if_no_progress with_reducible refine Keeps.fields ?_

theorem State.parkLanes_keeps {s0 s : State} (hK : Keeps s0 s) (p : Nat) (w : Nat) : Keeps s0 (State.parkLanes s p w)
    := by
  unfold State.parkLanes
  (try dsimp only)
  repeat' first
    | with_reducible (first | exact hK | apply State.setLanes_keeps) | (intro _ hK; skip) | with_reducible assumption
    | split | fail_if_no_progress with_reducible refine Keeps.fields ?_

theorem State.ltWiden_keeps {s0 s : State} (hK : Keeps s0 s) (p : Nat) : Keeps s0 (State.ltWiden s p) := by
  unfold State.ltWiden
  (try dsimp only)
  repeat' first
    | with_reducible (first
        | exact hK | apply State.ltSend_keeps | apply State.parkLanes_keeps | apply State.updLt_keeps)
    | (intro _ hK; skip) | with_reducible assumption | (with_reducible refine Keeps.ite (fun _ => ?_) (fun _ => ?_))
    | split | fail_if_no_progress with_reducible refine Keeps.fields ?_

theorem State.ltDepth_keeps {s0 s : State} (hK : Keeps s0 s) (p : Nat) : Keeps s0 (State.ltDepth s p) := by
  unfold State.ltDepth
  (try dsimp only)
  repeat' first
    | with_reducible (first | exact hK | apply State.ltWiden_keeps)
    | (with_reducible refine Keeps.ite (fun _ => ?_) (fun _ => ?_)) | split
    | fail_if_no_progress with_reducible refine Keeps.fields ?_

theorem State.dropQueued_keeps {s0 s : State} (hK : Keeps s0 s) (p : Nat) (reason : Nat) (keep : Nat → Bool) : Keeps
    s0 (State.dropQueued s p reason keep) := by
  unfold State.dropQueued
  (try dsimp only)
  repeat' first
    | with_reducible (first | exact hK | apply State.egDrop_keeps)
    | (with_reducible refine Keeps.foldl _ (fun _ _ hK => ?_) _ ?_) | (intro _ hK; skip) | with_reducible assumption
    | (with_reducible refine Keeps.ite (fun _ => ?_) (fun _ => ?_)) | split
    | fail_if_no_progress with_reducible refine Keeps.fields ?_

theorem State.loseTx_keeps {s0 s : State} (hK : Keeps s0 s) (p : Nat) (lostCtr : Option Nat) : Keeps s0 (State.loseTx
    s p lostCtr) := by
  unfold State.loseTx
  (try dsimp only)
  repeat' first
    | with_reducible (first | exact hK | apply State.bumpPort_keeps | apply State.egLeave_keeps) | (intro _ hK; skip)
    | with_reducible assumption | split | fail_if_no_progress with_reducible refine Keeps.fields ?_

theorem State.loseQueued_keeps {s0 s : State} (hK : Keeps s0 s) (p : Nat) (ctr : Nat) : Keeps s0 (State.loseQueued s p
    ctr) := by
  unfold State.loseQueued
  (try dsimp only)
  repeat' first
    | with_reducible (first | exact hK | apply State.bumpPort_keeps | apply State.egLeave_keeps)
    | (with_reducible refine Keeps.foldl _ (fun _ _ hK => ?_) _ ?_) | (intro _ hK; skip)
    | with_reducible assumption | (with_reducible refine Keeps.ite (fun _ => ?_) (fun _ => ?_)) | split
    | fail_if_no_progress with_reducible refine Keeps.fields ?_

theorem State.stormClears_keeps {s0 s : State} (hK : Keeps s0 s) (p : Nat) : Keeps s0 (State.stormClears s p) := by
  unfold State.stormClears
  (try dsimp only)
  repeat' first
    | with_reducible (first | exact hK | apply State.raise_keeps)
    | (with_reducible refine Keeps.foldl _ (fun _ _ hK => ?_) _ ?_) | (intro _ hK; skip) | with_reducible assumption
    | split | fail_if_no_progress with_reducible refine Keeps.fields ?_

theorem State.linkDown_keeps {s0 s : State} (hK : Keeps s0 s) (p : Nat) (lostCtr : Option Nat) : Keeps s0
    (State.linkDown s p lostCtr) := by
  unfold State.linkDown
  (try dsimp only)
  repeat' first
    | with_reducible (first
        | exact hK | apply State.bumpPort_keeps | apply State.dropQueued_keeps | apply State.loseTx_keeps
        | apply State.parkLanes_keeps | apply State.stormClears_keeps | apply State.updPort_keeps
        | apply State.setWaiting_keeps)
    | (intro _ hK; skip) | with_reducible assumption | (with_reducible refine Keeps.ite (fun _ => ?_) (fun _ => ?_))
    | split | fail_if_no_progress with_reducible refine Keeps.fields ?_

end Sys2Proof.Machine
end

