-- ==== Sys2Proof/Laws/KeepAdmit.lean ====
section
/-! SUPPORT. What the operations of Admit keep. -/

set_option Elab.async false
set_option linter.all false

namespace Sys2Proof.Machine

theorem State.takeDraw_keeps {s0 s : State} (hK : Keeps s0 s) (pk : Pkt) : Keeps s0 (State.takeDraw s pk) := by
  unfold State.takeDraw
  (try dsimp only)
  repeat' first
    | with_reducible exact hK | (with_reducible refine Keeps.ite (fun _ => ?_) (fun _ => ?_)) | split
    | fail_if_no_progress with_reducible refine Keeps.fields ?_

theorem State.spillWrite_keeps {s0 s : State} (hK : Keeps s0 s) (pk : Pkt) (p : Nat) : Keeps s0 (State.spillWrite s pk
    p) := by
  unfold State.spillWrite
  (try dsimp only)
  repeat' first
    | with_reducible (first
        | exact hK | apply State.bumpBuf_keeps | apply State.updPkt_keeps | apply State.updQueue_keeps
        | apply State.updVoq_keeps | apply State.bumpBufAt_keeps)
    | (intro _ hK; skip)

theorem State.spillEnter_keeps {s0 s : State} (hK : Keeps s0 s) (pk : Pkt) (p : Nat) : Keeps s0 (State.spillEnter s pk
    p) := by
  unfold State.spillEnter
  (try dsimp only)
  repeat' first
    | with_reducible (first | exact hK | apply State.bumpBuf_keeps | apply State.bumpBufAt_keeps)
    | (with_reducible refine Keeps.ite (fun _ => ?_) (fun _ => ?_)) | split
    | fail_if_no_progress with_reducible refine Keeps.fields ?_

theorem State.dropAdmitted_keeps {s0 s : State} (hK : Keeps s0 s) (pk : Pkt) (reason : Nat) (eg : Nat) : Keeps s0
    (State.dropAdmitted s pk reason eg) := by
  unfold State.dropAdmitted
  (try dsimp only)
  repeat' first
    | with_reducible (first | exact hK | apply State.countDrop_keeps | apply State.release_keeps)

theorem State.spillIn_keeps {s0 s : State} (hK : Keeps s0 s) (pk : Pkt) (p : Nat) : Keeps s0 (State.spillIn s pk p) :=
    by
  unfold State.spillIn
  (try dsimp only)
  repeat' first
    | with_reducible (first
        | exact hK | apply State.dropAdmitted_keeps | apply State.ltDepth_keeps | apply State.spillWrite_keeps
        | apply State.xoffSweep_keeps)
    | (with_reducible refine Keeps.foldl _ (fun _ _ hK => ?_) _ ?_) | (intro _ hK; skip)
    | with_reducible assumption | (with_reducible refine Keeps.ite (fun _ => ?_) (fun _ => ?_)) | split
    | fail_if_no_progress with_reducible refine Keeps.fields ?_

theorem State.dropUnfit_keeps {s0 s : State} (hK : Keeps s0 s) (id : Nat) (p : Nat) : Keeps s0 (State.dropUnfit s id
    p) := by
  unfold State.dropUnfit
  (try dsimp only)
  repeat' first
    | with_reducible (first | exact hK | apply State.countDrop_keeps | apply State.pull_keeps | apply State.release_keeps)
    | (with_reducible refine Keeps.foldl _ (fun _ _ hK => ?_) _ ?_) | (intro _ hK; skip)
    | with_reducible assumption | (with_reducible refine Keeps.ite (fun _ => ?_) (fun _ => ?_)) | split
    | fail_if_no_progress with_reducible refine Keeps.fields ?_

theorem State.enqueueOne_keeps {s0 s : State} (hK : Keeps s0 s) (pk : Pkt) (p : Nat) : Keeps s0 (State.enqueueOne s pk
    p) := by
  unfold State.enqueueOne
  (try dsimp only)
  repeat' first
    | with_reducible (first
        | exact hK | apply State.bumpFab_keeps | apply State.dropAdmitted_keeps | apply State.ltDepth_keeps
        | apply State.pushVoq_keeps | apply State.spillEnter_keeps | apply State.startFrames_keeps
        | apply State.startOne_keeps | apply State.trySend_keeps | apply State.bumpFabAt_keeps
        | apply State.updVoq_keeps)
    | (with_reducible refine Keeps.ite (fun _ => ?_) (fun _ => ?_)) | split

theorem State.enqueueMulti_keeps {s0 s : State} (hK : Keeps s0 s) (pk : Pkt) : Keeps s0 (State.enqueueMulti s pk) :=
    by
  unfold State.enqueueMulti
  (try dsimp only)
  repeat' first
    | with_reducible (first
        | exact hK | apply State.bumpFab_keeps | apply State.ltDepth_keeps | apply State.startMulti_keeps
        | apply State.trySend_keeps | apply State.bumpFabAt_keeps | apply State.startMultiOf_keeps)
    | (with_reducible refine Keeps.foldl _ (fun _ _ hK => ?_) _ ?_) | (intro _ hK; skip) | with_reducible assumption
    | (with_reducible refine Keeps.ite (fun _ => ?_) (fun _ => ?_)) | split
    | fail_if_no_progress with_reducible refine Keeps.fields ?_

theorem State.enqueuePkt_keeps {s0 s : State} (hK : Keeps s0 s) (id : Nat) : Keeps s0 (State.enqueuePkt s id) := by
  unfold State.enqueuePkt
  (try dsimp only)
  repeat' first
    | with_reducible (first
        | exact hK | apply State.enqueueMulti_keeps | apply State.enqueueOne_keeps | apply State.release_keeps
        | apply State.updPkt_keeps) | split

theorem State.takeCells_keeps {s0 s : State} (hK : Keeps s0 s) (pk : Pkt) : Keeps s0 (State.takeCells s pk) := by
  unfold State.takeCells
  (try dsimp only)
  repeat' first
    | with_reducible (first | exact hK | apply State.updPkt_keeps | apply State.updQueue_keeps | apply State.chargeQ_keeps)
    | (with_reducible refine Keeps.foldl _ (fun _ _ hK => ?_) _ ?_) | (intro _ hK; skip) | with_reducible assumption
    | split | fail_if_no_progress with_reducible refine Keeps.fields ?_

theorem State.commitPkt_keeps {s0 s : State} (hK : Keeps s0 s) (pk : Pkt) : Keeps s0 (State.commitPkt s pk) := by
  unfold State.commitPkt
  (try dsimp only)
  repeat' first
    | with_reducible (first
        | exact hK | apply State.bumpPrism_keeps | apply State.leaveGen_keeps | apply State.retire_keeps
        | apply State.updPkt_keeps)
    | (with_reducible refine Keeps.foldl _ (fun _ _ hK => ?_) _ ?_) | (intro _ hK; skip)
    | with_reducible assumption | (with_reducible refine Keeps.ite (fun _ => ?_) (fun _ => ?_)) | split
    | fail_if_no_progress with_reducible refine Keeps.fields ?_

theorem State.acceptPkt_keeps {s0 s : State} (hK : Keeps s0 s) (id : Nat) : Keeps s0 (State.acceptPkt s id) := by
  unfold State.acceptPkt
  (try dsimp only)
  repeat' first
    | with_reducible (first
        | exact hK | apply State.bumpBuf_keeps | apply State.enqueuePkt_keeps | apply State.leaveMerge_keeps
        | apply State.retire_keeps | apply State.takeCells_keeps | apply State.xoffSweep_keeps
        | apply State.bumpBufAt_keeps | apply State.commitPkt_keeps)

theorem State.needXoff_keeps {s0 s : State} (hK : Keeps s0 s) (pk : Pkt) : Keeps s0 (State.needXoff s pk) := by
  unfold State.needXoff
  (try dsimp only)
  repeat' first
    | with_reducible (first | exact hK | apply State.assertXoff_keeps)
    | (with_reducible refine Keeps.foldl _ (fun _ _ hK => ?_) _ ?_) | (intro _ hK; skip)
    | with_reducible assumption | (with_reducible refine Keeps.ite (fun _ => ?_) (fun _ => ?_)) | split
    | fail_if_no_progress with_reducible refine Keeps.fields ?_

theorem State.admitLossless_keeps {s0 s : State} (hK : Keeps s0 s) (pk : Pkt) : Keeps s0 (State.admitLossless s pk) :=
    by
  unfold State.admitLossless
  (try dsimp only)
  repeat' first
    | with_reducible (first
        | exact hK | apply State.acceptPkt_keeps | apply State.charge_keeps | apply State.dropPkt_keeps
        | apply State.raiseLimited_keeps | apply State.needXoff_keeps)
    | (with_reducible refine Keeps.ite (fun _ => ?_) (fun _ => ?_)) | split

theorem State.dropCopies_keeps {s0 s : State} (hK : Keeps s0 s) (v : State) (pk : Pkt) (x : Nat) : Keeps s0
    (State.dropCopies s v pk x) := by
  unfold State.dropCopies
  (try dsimp only)
  repeat' first
    | with_reducible (first | exact hK | apply State.countDrop_keeps)
    | (with_reducible refine Keeps.foldl _ (fun _ _ hK => ?_) _ ?_) | (intro _ hK; skip)
    | with_reducible assumption | (with_reducible refine Keeps.ite (fun _ => ?_) (fun _ => ?_)) | split
    | fail_if_no_progress with_reducible refine Keeps.fields ?_

theorem State.markCopies_keeps {s0 s : State} (hK : Keeps s0 s) (v : State) (pk : Pkt) (x : Nat) : Keeps s0
    (State.markCopies s v pk x) := by
  unfold State.markCopies
  (try dsimp only)
  repeat' first
    | with_reducible (first | exact hK | apply State.bumpBufAt_keeps | apply State.updPkt_keeps)
    | (with_reducible refine Keeps.foldl _ (fun _ _ hK => ?_) _ ?_) | (intro _ hK; skip)
    | with_reducible assumption | (with_reducible refine Keeps.ite (fun _ => ?_) (fun _ => ?_)) | split
    | fail_if_no_progress with_reducible refine Keeps.fields ?_

theorem State.countExhausted_keeps {s0 s : State} (hK : Keeps s0 s) (pk : Pkt) : Keeps s0 (State.countExhausted s pk)
    := by
  unfold State.countExhausted
  (try dsimp only)
  repeat' first
    | with_reducible (first | exact hK | apply State.countDrop_keeps)
    | (with_reducible refine Keeps.foldl _ (fun _ _ hK => ?_) _ ?_) | (intro _ hK; skip)
    | with_reducible assumption | (with_reducible refine Keeps.ite (fun _ => ?_) (fun _ => ?_)) | split
    | fail_if_no_progress with_reducible refine Keeps.fields ?_

theorem State.dropExhausted_keeps {s0 s : State} (hK : Keeps s0 s) (pk : Pkt) : Keeps s0 (State.dropExhausted s pk) :=
    by
  unfold State.dropExhausted
  (try dsimp only)
  repeat' first
    | with_reducible (first
        | exact hK | apply State.countDrop_keeps | apply State.release_keeps | apply State.retire_keeps
        | apply State.countExhausted_keeps)
    | (with_reducible refine Keeps.foldl _ (fun _ _ hK => ?_) _ ?_) | (intro _ hK; skip)

theorem State.bare_keeps {s0 s : State} (hK : Keeps s0 s) (pk : Pkt) : Keeps s0 (State.bare s pk) := by
  unfold State.bare
  (try dsimp only)
  repeat' first
    | with_reducible (first | exact hK | apply State.uncharge_keeps | apply State.updPkt_keeps)
    | (with_reducible refine Keeps.foldl _ (fun _ _ hK => ?_) _ ?_) | (intro _ hK; skip)
    | with_reducible assumption | (with_reducible refine Keeps.ite (fun _ => ?_) (fun _ => ?_)) | split
    | fail_if_no_progress with_reducible refine Keeps.fields ?_

theorem State.cutOff_keeps {s0 s : State} (hK : Keeps s0 s) (id : Nat) : Keeps s0 (State.cutOff s id) := by
  unfold State.cutOff
  (try dsimp only)
  repeat' first
    | with_reducible (first
        | exact hK | apply State.bumpBufAt_keeps | apply State.countExhausted_keeps | apply State.pull_keeps
        | apply State.release_keeps | apply State.updPkt_keeps | apply State.bumpBufOf_keeps)
    | (with_reducible refine Keeps.foldl _ (fun _ _ hK => ?_) _ ?_) | (intro _ hK; skip)
    | with_reducible assumption | (with_reducible refine Keeps.ite (fun _ => ?_) (fun _ => ?_)) | split
    | fail_if_no_progress with_reducible refine Keeps.fields ?_

theorem State.midFrame_keeps {s0 s : State} (hK : Keeps s0 s) (pk : Pkt) (n : Nat) : Keeps s0 (State.midFrame s pk n)
    := by
  unfold State.midFrame
  (try dsimp only)
  repeat' first
    | with_reducible (first
        | exact hK | apply State.acceptPkt_keeps | apply State.bare_keeps | apply State.charge_keeps
        | apply State.cutOff_keeps | apply State.dropExhausted_keeps | apply State.updPkt_keeps)
    | (with_reducible refine Keeps.foldl _ (fun _ _ hK => ?_) _ ?_) | (intro _ hK; skip)
    | with_reducible assumption | (with_reducible refine Keeps.ite (fun _ => ?_) (fun _ => ?_)) | split
    | fail_if_no_progress with_reducible refine Keeps.fields ?_

theorem State.admitRest_keeps {s0 s : State} (hK : Keeps s0 s) (v : State) (pk : Pkt) : Keeps s0 (State.admitRest s v
    pk) := by
  unfold State.admitRest
  (try dsimp only)
  repeat' first
    | with_reducible (first
        | exact hK | apply State.acceptPkt_keeps | apply State.bumpBufAt_keeps | apply State.charge_keeps
        | apply State.dropExhausted_keeps | apply State.midFrame_keeps | apply State.bumpBufOf_keeps)
    | (with_reducible refine Keeps.foldl _ (fun _ _ hK => ?_) _ ?_) | (intro _ hK; skip)
    | with_reducible assumption | (with_reducible refine Keeps.ite (fun _ => ?_) (fun _ => ?_)) | split
    | fail_if_no_progress with_reducible refine Keeps.fields ?_

theorem State.admitSpill_keeps {s0 s : State} (hK : Keeps s0 s) (v : State) (pk : Pkt) (p : Nat) : Keeps s0
    (State.admitSpill s v pk p) := by
  unfold State.admitSpill
  (try dsimp only)
  repeat' first
    | with_reducible (first
        | exact hK | apply State.bare_keeps | apply State.bumpBufAt_keeps | apply State.drawn_keeps
        | apply State.dropPkt_keeps | apply State.leaveMerge_keeps | apply State.ltDepth_keeps
        | apply State.raiseLimited_keeps | apply State.retire_keeps | apply State.spillWrite_keeps
        | apply State.bumpBufOf_keeps | apply State.spillIn_keeps)
    | (with_reducible refine Keeps.foldl _ (fun _ _ hK => ?_) _ ?_) | (intro _ hK; skip)
    | with_reducible assumption | (with_reducible refine Keeps.ite (fun _ => ?_) (fun _ => ?_)) | split
    | fail_if_no_progress with_reducible refine Keeps.fields ?_

theorem State.admitLossy_keeps {s0 s : State} (hK : Keeps s0 s) (pk0 : Pkt) : Keeps s0 (State.admitLossy s pk0) := by
  unfold State.admitLossy
  (try dsimp only)
  repeat' first
    | with_reducible (first
        | exact hK | apply State.admitRest_keeps | apply State.bumpBuf_keeps | apply State.dropCopies_keeps
        | apply State.dropPkt_keeps | apply State.leaveMerge_keeps | apply State.ltDepth_keeps
        | apply Look.mark_keeps | apply State.markCopies_keeps | apply State.raiseLimited_keeps
        | apply State.release_keeps | apply State.retire_keeps | apply State.spillWrite_keeps
        | apply State.takeDraw_keeps | apply State.uncharge_keeps | apply State.updPkt_keeps
        | apply State.admitSpill_keeps | apply State.bare_keeps | apply State.bumpBufAt_keeps)
    | (intro _ hK; skip) | with_reducible assumption | (with_reducible refine Keeps.ite (fun _ => ?_) (fun _ => ?_))
    | split

theorem State.toAdmission_keeps {s0 s : State} (hK : Keeps s0 s) (id : Nat) : Keeps s0 (State.toAdmission s id) := by
  unfold State.toAdmission
  (try dsimp only)
  repeat' first
    | with_reducible (first
        | exact hK | apply State.admitLossless_keeps | apply State.admitLossy_keeps | apply State.unchargeQ_keeps
        | apply State.updPkt_keeps)
    | (with_reducible refine Keeps.ite (fun _ => ?_) (fun _ => ?_)) | split

end Sys2Proof.Machine
end

