-- ==== Sys2Proof/Laws/KeepPark.lean ====
section
/-! SUPPORT. What the operations of Park keep. -/

set_option Elab.async false
set_option linter.all false

namespace Sys2Proof.Machine

theorem State.sendNotice_keeps {s0 s : State} (hK : Keeps s0 s) (type : Nat) (idx : Nat) (m : Notice) : Keeps s0
    (State.sendNotice s type idx m) := by
  unfold State.sendNotice
  (try dsimp only)
  repeat' first
    | with_reducible (first
        | exact hK | apply State.bumpProof_keeps | apply State.raise_keeps | apply State.sendCtl_keeps
        | apply State.updPort_keeps)
    | (intro _ hK; skip) | with_reducible assumption | (with_reducible refine Keeps.ite (fun _ => ?_) (fun _ => ?_))
    | split | fail_if_no_progress with_reducible refine Keeps.fields ?_

theorem State.parkNotice_keeps {s0 s : State} (hK : Keeps s0 s) (idx : Nat) (pk : Pkt) : Keeps s0 (State.parkNotice s
    idx pk) := by
  unfold State.parkNotice
  (try dsimp only)
  repeat' first
    | with_reducible (first | exact hK | apply State.sendNotice_keeps | apply State.updTarget_keeps)
    | (intro _ hK; skip) | with_reducible assumption | (with_reducible refine Keeps.ite (fun _ => ?_) (fun _ => ?_))

theorem State.noticeAll_keeps {s0 s : State} (hK : Keeps s0 s) (type : Nat) (idx : Nat) : Keeps s0 (State.noticeAll s
    type idx) := by
  unfold State.noticeAll
  (try dsimp only)
  repeat' first
    | with_reducible (first | exact hK | apply State.sendNotice_keeps | apply State.updTarget_keeps)
    | (with_reducible refine Keeps.foldl _ (fun _ _ hK => ?_) _ ?_) | (intro _ hK; skip)

theorem State.dropWake_keeps {s0 s : State} (hK : Keeps s0 s) (idx : Nat) : Keeps s0 (State.dropWake s idx) := by
  unfold State.dropWake
  (try dsimp only)
  repeat' first
    | with_reducible (first | exact hK | apply State.updDrop_keeps | apply State.updTarget_keeps)
    | (with_reducible refine Keeps.foldl _ (fun _ _ hK => ?_) _ ?_) | (intro _ hK; skip)
    | with_reducible assumption | (with_reducible refine Keeps.ite (fun _ => ?_) (fun _ => ?_)) | split
    | fail_if_no_progress with_reducible refine Keeps.fields ?_

theorem State.queueWake_keeps {s0 s : State} (hK : Keeps s0 s) (idx : Nat) : Keeps s0 (State.queueWake s idx) := by
  unfold State.queueWake
  (try dsimp only)
  repeat' first
    | with_reducible (first | exact hK | apply State.updDrop_keeps | apply State.updTarget_keeps) | (intro _ hK; skip)
    | with_reducible assumption | (with_reducible refine Keeps.ite (fun _ => ?_) (fun _ => ?_))

theorem State.setTgt_keeps {s0 s : State} (hK : Keeps s0 s) (idx : Nat) (st : TgtState) : Keeps s0 (State.setTgt s idx
    st) := by
  unfold State.setTgt
  (try dsimp only)
  repeat' first
    | with_reducible (first | exact hK | apply State.updTarget_keeps)
    | (with_reducible refine Keeps.foldl _ (fun _ _ hK => ?_) _ ?_) | (intro _ hK; skip)
    | with_reducible assumption | (with_reducible refine Keeps.ite (fun _ => ?_) (fun _ => ?_)) | split
    | fail_if_no_progress with_reducible refine Keeps.fields ?_

theorem State.unpark_keeps {s0 s : State} (hK : Keeps s0 s) (idx : Nat) (pk : Pkt) : Keeps s0 (State.unpark s idx pk)
    := by
  unfold State.unpark
  (try dsimp only)
  repeat' first
    | with_reducible (first | exact hK | apply State.updTarget_keeps)
    | (with_reducible refine Keeps.foldl _ (fun _ _ hK => ?_) _ ?_) | (intro _ hK; skip)
    | with_reducible assumption | (with_reducible refine Keeps.ite (fun _ => ?_) (fun _ => ?_)) | split
    | fail_if_no_progress with_reducible refine Keeps.fields ?_

theorem State.dropParked_keeps {s0 s : State} (hK : Keeps s0 s) (idx : Nat) (reason : Nat) (ctr : Nat) : Keeps s0
    (State.dropParked s idx reason ctr) := by
  unfold State.dropParked
  (try dsimp only)
  repeat' first
    | with_reducible (first
        | exact hK | apply State.bumpProof_keeps | apply State.countDrop_keeps | apply State.forget_keeps
        | apply State.unpark_keeps | apply State.updTarget_keeps | apply State.countQuiet_keeps)
    | (with_reducible refine Keeps.foldl _ (fun _ _ hK => ?_) _ ?_) | (intro _ hK; skip)

theorem State.tgtFail_keeps {s0 s : State} (hK : Keeps s0 s) (idx : Nat) (cause : Nat) : Keeps s0 (State.tgtFail s idx
    cause) := by
  unfold State.tgtFail
  (try dsimp only)
  repeat' first
    | with_reducible (first
        | exact hK | apply State.bumpProof_keeps | apply State.dropParked_keeps | apply State.dropWake_keeps
        | apply State.noticeAll_keeps | apply State.raise_keeps | apply State.setTgt_keeps
        | apply State.updTarget_keeps)
    | (with_reducible refine Keeps.ite (fun _ => ?_) (fun _ => ?_))

theorem State.queueEmptied_keeps {s0 s : State} (hK : Keeps s0 s) (idx : Nat) : Keeps s0 (State.queueEmptied s idx) :=
    by
  unfold State.queueEmptied
  (try dsimp only)
  repeat' first
    | with_reducible (first
        | exact hK | apply State.setTgt_keeps | apply State.tgtFail_keeps | apply State.updTarget_keeps)
    | (intro _ hK; skip) | with_reducible assumption | (with_reducible refine Keeps.ite (fun _ => ?_) (fun _ => ?_))
    | split

theorem State.leavePark_keeps {s0 s : State} (hK : Keeps s0 s) (idx : Nat) (pk : Pkt) : Keeps s0 (State.leavePark s
    idx pk) := by
  unfold State.leavePark
  (try dsimp only)
  repeat' first
    | with_reducible (first | exact hK | apply State.queueEmptied_keeps | apply State.unpark_keeps)
    | (with_reducible refine Keeps.foldl _ (fun _ _ hK => ?_) _ ?_) | (intro _ hK; skip)
    | with_reducible assumption | (with_reducible refine Keeps.ite (fun _ => ?_) (fun _ => ?_)) | split
    | fail_if_no_progress with_reducible refine Keeps.fields ?_

theorem State.tgtReady_keeps {s0 s : State} (hK : Keeps s0 s) (idx : Nat) (cause : Option Nat) : Keeps s0
    (State.tgtReady s idx cause) := by
  unfold State.tgtReady
  (try dsimp only)
  repeat' first
    | with_reducible (first
        | exact hK | apply State.bumpProof_keeps | apply State.dropWake_keeps | apply State.noticeAll_keeps
        | apply State.raise_keeps | apply State.setTgt_keeps | apply State.updTarget_keeps)
    | (intro _ hK; skip) | with_reducible assumption | (with_reducible refine Keeps.ite (fun _ => ?_) (fun _ => ?_))
    | split

theorem State.fromTarget_keeps {s0 s : State} (hK : Keeps s0 s) (idx : Nat) : Keeps s0 (State.fromTarget s idx) := by
  unfold State.fromTarget
  (try dsimp only)
  repeat' first
    | with_reducible (first
        | exact hK | apply State.bumpProof_keeps | apply State.raise_keeps | apply State.setTgt_keeps
        | apply State.tgtReady_keeps)
    | (with_reducible refine Keeps.ite (fun _ => ?_) (fun _ => ?_)) | split

theorem State.putParked_keeps {s0 s : State} (hK : Keeps s0 s) (idx : Nat) (pk : Pkt) : Keeps s0 (State.putParked s
    idx pk) := by
  unfold State.putParked
  (try dsimp only)
  repeat' first
    | with_reducible (first | exact hK | apply State.updTarget_keeps) | (intro _ hK; skip) | with_reducible assumption
    | (with_reducible refine Keeps.ite (fun _ => ?_) (fun _ => ?_)) | split
    | fail_if_no_progress with_reducible refine Keeps.fields ?_

theorem State.parkStart_keeps {s0 s : State} (hK : Keeps s0 s) (idx : Nat) (pk : Pkt) : Keeps s0 (State.parkStart s
    idx pk) := by
  unfold State.parkStart
  (try dsimp only)
  repeat' first
    | with_reducible (first
        | exact hK | apply State.queueWake_keeps | apply State.raise_keeps | apply State.updTarget_keeps)
    | (intro _ hK; skip) | with_reducible assumption | (with_reducible refine Keeps.ite (fun _ => ?_) (fun _ => ?_))

theorem State.park_keeps {s0 s : State} (hK : Keeps s0 s) (idx : Nat) (pk : Pkt) : Keeps s0 (State.park s idx pk) :=
    by
  unfold State.park
  (try dsimp only)
  repeat' first
    | with_reducible (first
        | exact hK | apply State.bumpProof_keeps | apply State.leaveMerge_keeps | apply State.parkNotice_keeps
        | apply State.parkStart_keeps | apply State.putParked_keeps | apply State.retire_keeps
        | apply State.unhold_keeps | apply State.updPkt_keeps | apply State.xoffSweep_keeps
        | apply State.bumpProofAt_keeps)
    | (intro _ hK; skip) | with_reducible assumption | (with_reducible refine Keeps.ite (fun _ => ?_) (fun _ => ?_))

theorem State.parkLimit_keeps {s0 s : State} (hK : Keeps s0 s) (idx : Nat) (pk : Pkt) (always : Bool) : Keeps s0
    (State.parkLimit s idx pk always) := by
  unfold State.parkLimit
  (try dsimp only)
  repeat' first
    | with_reducible (first
        | exact hK | apply State.bumpProof_keeps | apply State.dropPkt_keeps | apply State.raise_keeps
        | apply State.raiseLimited_keeps | apply State.bumpProofAt_keeps)
    | (with_reducible refine Keeps.ite (fun _ => ?_) (fun _ => ?_))

theorem State.tryPark_keeps {s0 s : State} (hK : Keeps s0 s) (idx : Nat) (pk : Pkt) : Keeps s0 (State.tryPark s idx
    pk) := by
  unfold State.tryPark
  (try dsimp only)
  repeat' first
    | with_reducible (first
        | exact hK | apply State.bumpProof_keeps | apply State.drawn_keeps | apply State.dropPkt_keeps
        | apply State.park_keeps | apply State.bumpProofAt_keeps)
    | (with_reducible refine Keeps.foldl _ (fun _ _ hK => ?_) _ ?_) | (intro _ hK; skip)
    | with_reducible assumption | (with_reducible refine Keeps.ite (fun _ => ?_) (fun _ => ?_)) | split
    | fail_if_no_progress with_reducible refine Keeps.fields ?_

theorem State.proofAdmit_keeps {s0 s : State} (hK : Keeps s0 s) (id : Nat) : Keeps s0 (State.proofAdmit s id) := by
  unfold State.proofAdmit
  (try dsimp only)
  repeat' first
    | with_reducible (first
        | exact hK | apply State.toAdmission_keeps | apply State.bumpProof_keeps | apply State.dropPkt_keeps
        | apply State.park_keeps | apply State.parkLimit_keeps | apply State.tryPark_keeps
        | apply State.bumpProofAt_keeps)
    | (with_reducible refine Keeps.ite (fun _ => ?_) (fun _ => ?_)) | split

end Sys2Proof.Machine
end

