-- ==== Sys2Proof/Laws/KeepFixBase.lean ====
section
/-! SUPPORT. What the operations of FixBase keep. -/

set_option Elab.async false
set_option linter.all false

namespace Sys2Proof.Machine

theorem State.updCore_keeps {s0 s : State} (hK : Keeps s0 s) (c : Nat) (n : Nat) (f : Core → Core) : Keeps s0
    (State.updCore s c n f) :=
  hK.upd rfl

theorem State.countCore_keeps {s0 s : State} (hK : Keeps s0 s) (c : Nat) (core : Option Nat) (code : Nat) (n : Nat) :
    Keeps s0 (State.countCore s c core code n) := by
  unfold State.countCore
  (try dsimp only)
  repeat' first
    | with_reducible (first | exact hK | apply State.updCore_keeps) | (intro _ hK; skip) | with_reducible assumption
    | split | fail_if_no_progress with_reducible refine Keeps.fields ?_

theorem State.skippedEvent_keeps {s0 s : State} (hK : Keeps s0 s) (c : Nat) (sk : Nat) (un : Nat) : Keeps s0
    (State.skippedEvent s c sk un) := by
  unfold State.skippedEvent
  (try dsimp only)
  repeat' first
    | with_reducible (first | exact hK | apply State.raiseLimited_keeps | apply State.updFix_keeps)
    | (intro _ hK; skip) | with_reducible assumption | (with_reducible refine Keeps.ite (fun _ => ?_) (fun _ => ?_))
    | split | fail_if_no_progress with_reducible refine Keeps.fields ?_

theorem State.logFullEvent_keeps {s0 s : State} (hK : Keeps s0 s) (c : Nat) (ring : Nat) : Keeps s0
    (State.logFullEvent s c ring) := by
  unfold State.logFullEvent
  (try dsimp only)
  repeat' first
    | with_reducible (first | exact hK | apply State.raiseLimited_keeps) | split
    | fail_if_no_progress with_reducible refine Keeps.fields ?_

theorem State.readCore_keeps {s0 s : State} (hK : Keeps s0 s) (c : Nat) (n : Nat) : Keeps s0 (State.readCore s c n) :=
    by
  unfold State.readCore
  (try dsimp only)
  repeat' first
    | with_reducible (first | exact hK | apply State.drawn_keeps | apply State.updCore_keeps)
    | (with_reducible refine Keeps.foldl _ (fun _ _ hK => ?_) _ ?_) | (intro _ hK; skip)
    | with_reducible assumption | (with_reducible refine Keeps.ite (fun _ => ?_) (fun _ => ?_)) | split
    | fail_if_no_progress with_reducible refine Keeps.fields ?_

theorem State.deferred_keeps {s0 s : State} (hK : Keeps s0 s) (c : Nat) : Keeps s0 (State.deferred s c) := by
  unfold State.deferred
  (try dsimp only)
  repeat' first
    | with_reducible (first | exact hK | apply State.bumpFix_keeps | apply State.logFullEvent_keeps)
    | (with_reducible refine Keeps.ite (fun _ => ?_) (fun _ => ?_)) | split
    | fail_if_no_progress with_reducible refine Keeps.fields ?_

theorem State.fixDue_keeps {s0 s : State} (hK : Keeps s0 s) (c : Nat) (reason : Nat) (key : Option Nat) : Keeps s0
    (State.fixDue s c reason key) := by
  unfold State.fixDue
  (try dsimp only)
  repeat' first
    | with_reducible (first | exact hK | apply State.deferred_keeps | apply State.updFix_keeps) | (intro _ hK; skip)
    | with_reducible assumption | (with_reducible refine Keeps.ite (fun _ => ?_) (fun _ => ?_)) | split
    | fail_if_no_progress with_reducible refine Keeps.fields ?_

theorem State.unrecorded_keeps {s0 s : State} (hK : Keeps s0 s) (c : Nat) (flow : Nat) (cause : Nat) : Keeps s0
    (State.unrecorded s c flow cause) := by
  unfold State.unrecorded
  (try dsimp only)
  repeat' first
    | with_reducible (first
        | exact hK | apply State.bumpFix_keeps | apply State.skippedEvent_keeps | apply State.updFix_keeps
        | apply State.updFlow_keeps)
    | (intro _ hK; skip) | with_reducible assumption | split
    | fail_if_no_progress with_reducible refine Keeps.fields ?_

theorem State.reservePos_keeps {s0 s : State} (hK : Keeps s0 s) (c : Nat) (n : Nat) (unlocked : Bool) : Keeps s0
    (State.reservePos s c n unlocked).1 := by
  unfold State.reservePos
  (try dsimp only)
  repeat' first
    | with_reducible (first | exact hK | apply State.fixDue_keeps | apply State.updFix_keeps) | (intro _ hK; skip)
    | with_reducible assumption | (with_reducible refine Keeps.ite (fun _ => ?_) (fun _ => ?_)) | split
    | fail_if_no_progress with_reducible refine Keeps.fields ?_

theorem State.dropPos_keeps {s0 s : State} (hK : Keeps s0 s) (c : Nat) (n : Nat) : Keeps s0 (State.dropPos s c n) :=
    by
  unfold State.dropPos
  (try dsimp only)
  repeat' first
    | with_reducible (first | exact hK | apply State.updFix_keeps)
    | (with_reducible refine Keeps.foldl _ (fun _ _ hK => ?_) _ ?_) | (intro _ hK; skip)
    | with_reducible assumption | (with_reducible refine Keeps.ite (fun _ => ?_) (fun _ => ?_)) | split
    | fail_if_no_progress with_reducible refine Keeps.fields ?_

theorem State.fillPos_keeps {s0 s : State} (hK : Keeps s0 s) (c : Nat) (n : Nat) (r : List Byte) : Keeps s0
    (State.fillPos s c n r) := by
  unfold State.fillPos
  (try dsimp only)
  repeat' first
    | with_reducible (first | exact hK | apply State.updFix_keeps)
    | (with_reducible refine Keeps.foldl _ (fun _ _ hK => ?_) _ ?_) | (intro _ hK; skip)
    | with_reducible assumption | (with_reducible refine Keeps.ite (fun _ => ?_) (fun _ => ?_)) | split
    | fail_if_no_progress with_reducible refine Keeps.fields ?_

theorem State.countRecord_keeps {s0 s : State} (hK : Keeps s0 s) (c : Nat) (t : Tap) : Keeps s0 (State.countRecord s c
    t) := by
  unfold State.countRecord
  (try dsimp only)
  repeat' first
    | with_reducible (first
        | exact hK | apply State.bumpFix_keeps | apply State.skippedEvent_keeps | apply State.updFlow_keeps)
    | (intro _ hK; skip) | with_reducible assumption | (with_reducible refine Keeps.ite (fun _ => ?_) (fun _ => ?_))
    | split | fail_if_no_progress with_reducible refine Keeps.fields ?_

theorem State.writeRecord_keeps {s0 s : State} (hK : Keeps s0 s) (c : Nat) (t : Tap) : Keeps s0 (State.writeRecord s c
    t) := by
  unfold State.writeRecord
  (try dsimp only)
  repeat' first
    | with_reducible (first
        | exact hK | apply State.countCore_keeps | apply State.countRecord_keeps | apply State.dropPos_keeps
        | apply State.fillPos_keeps | apply State.logFullEvent_keeps | apply State.unrecorded_keeps)
    | (with_reducible refine Keeps.ite (fun _ => ?_) (fun _ => ?_)) | split
    | fail_if_no_progress with_reducible refine Keeps.fields ?_

theorem State.fixDispatch_keeps {s0 s : State} (hK : Keeps s0 s) (c : Nat) : Keeps s0 (State.fixDispatch s c) := by
  unfold State.fixDispatch
  (try dsimp only)
  repeat' first
    | with_reducible (first | exact hK | apply State.updFix_keeps)
    | (with_reducible refine Keeps.foldl _ (fun _ _ hK => ?_) _ ?_) | (intro _ hK; skip)
    | with_reducible assumption | (with_reducible refine Keeps.ite (fun _ => ?_) (fun _ => ?_)) | split
    | fail_if_no_progress with_reducible refine Keeps.fields ?_

theorem State.tapDecision_keeps {s0 s : State} (hK : Keeps s0 s) (pk : Pkt) (w : BitVec 64) (prof : Profile) : Keeps
    s0 (State.tapDecision s pk w prof) := by
  unfold State.tapDecision
  (try dsimp only)
  repeat' first
    | with_reducible (first
        | exact hK | apply State.bumpFix_keeps | apply State.fixDispatch_keeps | apply State.updFix_keeps
        | apply State.updFlow_keeps | apply State.updPkt_keeps | apply State.drawn_keeps)
    | (intro _ hK; skip) | with_reducible assumption | (with_reducible refine Keeps.ite (fun _ => ?_) (fun _ => ?_))
    | split | fail_if_no_progress with_reducible refine Keeps.fields ?_

theorem State.endTap_keeps {s0 s : State} (hK : Keeps s0 s) (c : Nat) (n : Nat) : Keeps s0 (State.endTap s c n) := by
  unfold State.endTap
  (try dsimp only)
  repeat' first
    | with_reducible (first | exact hK | apply State.fixDispatch_keeps | apply State.updFix_keeps)
    | (with_reducible refine Keeps.foldl _ (fun _ _ hK => ?_) _ ?_) | (intro _ hK; skip)
    | with_reducible assumption | (with_reducible refine Keeps.ite (fun _ => ?_) (fun _ => ?_)) | split
    | fail_if_no_progress with_reducible refine Keeps.fields ?_

theorem State.skipNow_keeps {s0 s : State} (hK : Keeps s0 s) (c : Nat) (t : Tap) : Keeps s0 (State.skipNow s c t) :=
    by
  unfold State.skipNow
  (try dsimp only)
  repeat' first
    | with_reducible (first
        | exact hK | apply State.reservePos_keeps | apply State.unrecorded_keeps | apply State.writeRecord_keeps)
    | (with_reducible refine Keeps.ite (fun _ => ?_) (fun _ => ?_)) | split
    | fail_if_no_progress with_reducible refine Keeps.fields ?_

theorem State.commitTap_keeps {s0 s : State} (hK : Keeps s0 s) (n : Nat) (fcsBad : Bool) (fate : Nat) : Keeps s0
    (State.commitTap s n fcsBad fate) := by
  unfold State.commitTap
  (try dsimp only)
  repeat' first
    | with_reducible (first
        | exact hK | apply State.countCore_keeps | apply State.endTap_keeps | apply State.reservePos_keeps
        | apply State.skipNow_keeps | apply State.unrecorded_keeps | apply State.updFix_keeps)
    | (intro _ hK; skip) | with_reducible assumption | (with_reducible refine Keeps.ite (fun _ => ?_) (fun _ => ?_))
    | split | fail_if_no_progress with_reducible refine Keeps.fields ?_

theorem State.rewindTap_keeps {s0 s : State} (hK : Keeps s0 s) (n : Nat) (fcsBad : Bool) (fate : Nat) : Keeps s0
    (State.rewindTap s n fcsBad fate) := by
  unfold State.rewindTap
  (try dsimp only)
  repeat' first
    | with_reducible (first
        | exact hK | apply State.countCore_keeps | apply State.endTap_keeps | apply State.skipNow_keeps)
    | (intro _ hK; skip) | with_reducible assumption | (with_reducible refine Keeps.ite (fun _ => ?_) (fun _ => ?_))
    | split | fail_if_no_progress with_reducible refine Keeps.fields ?_

theorem State.rewindSlice_keeps {s0 s : State} (hK : Keeps s0 s) (sl : Nat) : Keeps s0 (State.rewindSlice s sl) := by
  unfold State.rewindSlice
  (try dsimp only)
  repeat' first
    | with_reducible (first | exact hK | apply State.rewindTap_keeps)
    | (with_reducible refine Keeps.foldl _ (fun _ _ hK => ?_) _ ?_) | (intro _ hK; skip) | with_reducible assumption
    | split | fail_if_no_progress with_reducible refine Keeps.fields ?_

theorem State.closeBatch_keeps {s0 s : State} (hK : Keeps s0 s) (c : Nat) (b : Batch) : Keeps s0 (State.closeBatch s c
    b) := by
  unfold State.closeBatch
  (try dsimp only)
  repeat' first
    | with_reducible (first | exact hK | apply State.updFix_keeps)
    | (with_reducible refine Keeps.foldl _ (fun _ _ hK => ?_) _ ?_) | (intro _ hK; skip)
    | with_reducible assumption | (with_reducible refine Keeps.ite (fun _ => ?_) (fun _ => ?_)) | split
    | fail_if_no_progress with_reducible refine Keeps.fields ?_

theorem State.closeDue_keeps {s0 s : State} (hK : Keeps s0 s) (c : Nat) : Keeps s0 (State.closeDue s c) := by
  unfold State.closeDue
  (try dsimp only)
  repeat' first
    | with_reducible (first
        | exact hK | apply State.closeBatch_keeps | apply State.deferred_keeps | apply State.updFix_keeps)
    | (with_reducible refine Keeps.foldl _ (fun _ _ hK => ?_) _ ?_) | (intro _ hK; skip)
    | with_reducible assumption | (with_reducible refine Keeps.ite (fun _ => ?_) (fun _ => ?_)) | split
    | fail_if_no_progress with_reducible refine Keeps.fields ?_

theorem State.fixClose_keeps {s0 s : State} (hK : Keeps s0 s) (c : Nat) : Keeps s0 (State.fixClose s c) := by
  unfold State.fixClose
  (try dsimp only)
  repeat' first
    | with_reducible (first
        | exact hK | apply State.closeBatch_keeps | apply State.deferred_keeps | apply State.updFix_keeps
        | apply State.closeDue_keeps)
    | (intro _ hK; skip) | with_reducible assumption | (with_reducible refine Keeps.ite (fun _ => ?_) (fun _ => ?_))
    | split | fail_if_no_progress with_reducible refine Keeps.fields ?_

theorem State.fixRetry_keeps {s0 s : State} (hK : Keeps s0 s) (c : Nat) : Keeps s0 (State.fixRetry s c) := by
  unfold State.fixRetry
  (try dsimp only)
  repeat' first
    | with_reducible (first
        | exact hK | apply State.deferred_keeps | apply State.fixClose_keeps | apply State.closeDue_keeps
        | apply State.updFix_keeps)
    | (with_reducible refine Keeps.ite (fun _ => ?_) (fun _ => ?_)) | split
    | fail_if_no_progress with_reducible refine Keeps.fields ?_

theorem State.fixKeyChange_keeps {s0 s : State} (hK : Keeps s0 s) (old : Nat) : Keeps s0 (State.fixKeyChange s old) :=
    by
  unfold State.fixKeyChange
  (try dsimp only)
  repeat' first
    | with_reducible (first | exact hK | apply State.fixDue_keeps | apply State.updFix_keeps)
    | (with_reducible refine Keeps.foldl _ (fun _ _ hK => ?_) _ ?_) | (intro _ hK; skip) | with_reducible assumption
    | split | fail_if_no_progress with_reducible refine Keeps.fields ?_

end Sys2Proof.Machine
end

