-- ==== Sys2Proof/Laws/KeepPtpMsg.lean ====
section
/-! SUPPORT. What the operations of PtpMsg keep. -/

set_option Elab.async false
set_option linter.all false

namespace Sys2Proof.Machine

theorem State.updPtp_keeps {s0 s : State} (hK : Keeps s0 s) (p : Nat) (f : PortPtp → PortPtp) : Keeps s0 (State.updPtp
    s p f) := by
  unfold State.updPtp
  (try dsimp only)
  repeat' first
    | with_reducible (first | exact hK | apply State.updPort_keeps)
    | (with_reducible refine Keeps.foldl _ (fun _ _ hK => ?_) _ ?_) | (intro _ hK; skip)
    | with_reducible assumption | (with_reducible refine Keeps.ite (fun _ => ?_) (fun _ => ?_)) | split
    | fail_if_no_progress with_reducible refine Keeps.fields ?_

theorem State.ptpGeneral_keeps {s0 s : State} (hK : Keeps s0 s) (p : Nat) (b : List Byte) : Keeps s0 (State.ptpGeneral
    s p b) := by
  unfold State.ptpGeneral
  (try dsimp only)
  repeat' first
    | with_reducible (first | exact hK | apply State.sendNow_keeps | apply State.sendClass_keeps)
    | (with_reducible refine Keeps.foldl _ (fun _ _ hK => ?_) _ ?_) | (intro _ hK; skip)
    | with_reducible assumption | (with_reducible refine Keeps.ite (fun _ => ?_) (fun _ => ?_)) | split
    | fail_if_no_progress with_reducible refine Keeps.fields ?_

theorem State.ptpSent_keeps {s0 s : State} (hK : Keeps s0 s) (p : Nat) (ty : Nat) (seq : Nat) (x : Nat × Nat × Nat) :
    Keeps s0 (State.ptpSent s p ty seq x) := by
  unfold State.ptpSent
  (try dsimp only)
  repeat' first
    | with_reducible (first | exact hK | apply State.ptpGeneral_keeps | apply State.updPtp_keeps | apply State.drawn_keeps)
    | (with_reducible refine Keeps.foldl _ (fun _ _ hK => ?_) _ ?_) | (intro _ hK; skip)
    | with_reducible assumption | (with_reducible refine Keeps.ite (fun _ => ?_) (fun _ => ?_)) | split
    | fail_if_no_progress with_reducible refine Keeps.fields ?_

end Sys2Proof.Machine
end

