-- ==== Sys2Proof/Laws/KeepIngress.lean ====
section
/-! SUPPORT. What the operations of Ingress keep. -/

set_option Elab.async false
set_option linter.all false

namespace Sys2Proof.Machine

theorem State.ingressMirror_keeps {s0 s : State} (hK : Keeps s0 s) (pk : Pkt) : Keeps s0 (State.ingressMirror s pk) :=
    by
  unfold State.ingressMirror
  (try dsimp only)
  repeat' first
    | with_reducible (first
        | exact hK | apply State.toAdmission_keeps | apply State.mirCount_keeps | apply State.mirMake_keeps)
    | (with_reducible refine Keeps.ite (fun _ => ?_) (fun _ => ?_)) | split

theorem State.settle_keeps {s0 s : State} (hK : Keeps s0 s) (pk : Pkt) : Keeps s0 (State.settle s pk) := by
  unfold State.settle
  (try dsimp only)
  repeat' first
    | with_reducible (first | exact hK | apply State.commitTap_keeps)
    | (with_reducible refine Keeps.ite (fun _ => ?_) (fun _ => ?_)) | split

theorem State.step7_keeps {s0 s : State} (hK : Keeps s0 s) (id : Nat) : Keeps s0 (State.step7 s id) := by
  unfold State.step7
  (try dsimp only)
  repeat' first
    | with_reducible (first | exact hK | apply State.proofAdmit_keeps | apply State.settle_keeps)

theorem State.releaseMerge_keeps {s0 s : State} (hK : Keeps s0 s) (port : Nat) (vv : Nat) : Keeps s0
    (State.releaseMerge s port vv) := by
  induction vv generalizing s port with
  | zero => exact hK | succ n ih =>
    unfold State.releaseMerge
    (try dsimp only)
    repeat' first
      | with_reducible (first | apply ih | exact hK | apply State.step7_keeps)
      | (with_reducible refine Keeps.ite (fun _ => ?_) (fun _ => ?_)) | split

theorem State.mergeGo_keeps {s0 s : State} (hK : Keeps s0 s) (port : Nat) : Keeps s0 (State.mergeGo s port) := by
  unfold State.mergeGo
  (try dsimp only)
  repeat' first
    | with_reducible (first | exact hK | apply State.releaseMerge_keeps)

theorem State.dropFront_keeps {s0 s : State} (hK : Keeps s0 s) (id : Nat) (reason : Nat) : Keeps s0 (State.dropFront s
    id reason) := by
  unfold State.dropFront
  (try dsimp only)
  repeat' first
    | with_reducible (first
        | exact hK | apply State.dropPkt_keeps | apply State.mergeGo_keeps | apply State.settle_keeps)

theorem State.chargeWaiting_keeps {s0 s : State} (hK : Keeps s0 s) (id : Nat) : Keeps s0 (State.chargeWaiting s id) :=
    by
  unfold State.chargeWaiting
  (try dsimp only)
  repeat' first
    | with_reducible (first
        | exact hK | apply State.charge_keeps | apply State.chargeQ_keeps | apply State.needXoff_keeps
        | apply State.xoffSweep_keeps)
    | (with_reducible refine Keeps.ite (fun _ => ?_) (fun _ => ?_)) | split

theorem State.ready_keeps {s0 s : State} (hK : Keeps s0 s) (id : Nat) : Keeps s0 (State.ready s id) := by
  unfold State.ready
  (try dsimp only)
  repeat' first
    | with_reducible (first
        | exact hK | apply State.chargeWaiting_keeps | apply State.mergeGo_keeps | apply State.updPkt_keeps)
    | (intro _ hK; skip) | with_reducible assumption | (with_reducible refine Keeps.ite (fun _ => ?_) (fun _ => ?_))

theorem State.steps45_keeps {s0 s : State} (hK : Keeps s0 s) (pk : Pkt) (prof : Profile) : Keeps s0 (State.steps45 s
    pk prof).st := by
  unfold State.steps45
  (try dsimp only)
  repeat' first
    | with_reducible (first
        | exact hK | apply State.countFwd_keeps | apply State.fromTarget_keeps | apply hitD_keeps
        | apply State.hitS_keeps | apply State.lookD_keeps | apply State.lookR_keeps | apply State.lookS_keeps
        | apply State.lookX_keeps | apply Look.mark_keeps | apply State.terminate_keeps)
    | (intro _ hK; skip) | with_reducible assumption | split

theorem Res5.countOuter_keeps {s0 s : State} (hK : Keeps s0 s) (r : Res5) (go : Bool) : Keeps s0 (Res5.countOuter r s
    go) := by
  unfold Res5.countOuter
  (try dsimp only)
  repeat' first
    | with_reducible (first | exact hK | apply State.bumpFwdAt_keeps)
    | (with_reducible refine Keeps.foldl _ (fun _ _ hK => ?_) _ ?_) | (intro _ hK; skip)
    | with_reducible assumption | (with_reducible refine Keeps.ite (fun _ => ?_) (fun _ => ?_)) | split
    | fail_if_no_progress with_reducible refine Keeps.fields ?_

theorem Res5.counted_keeps {s0 : State} (r : Res5) (extra : Extra) (hr : Keeps s0 r.st) : Keeps s0 (Res5.counted r extra) := by
  unfold Res5.counted
  (try dsimp only)
  repeat' first
    | with_reducible (first
        | exact hK | apply Res5.countOuter_keeps | apply State.bumpFwdAt_keeps | apply State.countFwd_keeps
        | apply State.tabParity_keeps)
    | (with_reducible refine Keeps.foldl _ (fun _ _ hK => ?_) _ ?_) | (intro _ hK; skip)
    | with_reducible assumption | (with_reducible refine Keeps.ite (fun _ => ?_) (fun _ => ?_)) | split
    | fail_if_no_progress with_reducible refine Keeps.fields ?_

theorem Res5.queued_keeps {s0 s : State} (hK : Keeps s0 s) (r : Res5) (hr : Keeps s0 r.st) : Keeps s0 (Res5.queued r
    s) := by
  unfold Res5.queued
  (try dsimp only)
  repeat' first
    | with_reducible (first | exact hK | apply State.queueLearn_keeps | exact hr)
    | (with_reducible refine Keeps.ite (fun _ => ?_) (fun _ => ?_))

theorem State.recoverStep_keeps {s0 s : State} (hK : Keeps s0 s) (r : Res5) (hr : Keeps s0 r.st) (rtag : Option Nat) :
    Keeps s0 (State.recoverStep s r rtag).1 := by
  unfold State.recoverStep
  (try dsimp only)
  repeat' first
    | with_reducible (first | exact hK | apply State.bumpRed_keeps | apply State.frerRecover_keeps | exact hr)
    | (with_reducible refine Keeps.ite (fun _ => ?_) (fun _ => ?_)) | split

theorem State.generateStep_keeps {s0 s : State} (hK : Keeps s0 s) (r : Res5) (hr : Keeps s0 r.st) (id : Nat)
    (forwarded : Bool) : Keeps s0 (State.generateStep s r id forwarded) := by
  unfold State.generateStep
  (try dsimp only)
  repeat' first
    | with_reducible (first | exact hK | apply State.frerGenerate_keeps | exact hr)
    | (with_reducible refine Keeps.ite (fun _ => ?_) (fun _ => ?_)) | split

theorem State.step6_keeps {s0 s : State} (hK : Keeps s0 s) (id : Nat) (r : Res5) (hr : Keeps s0 r.st) (prof : Profile)
    (same : Nat) : Keeps s0 (State.step6 s id r prof same) := by
  unfold State.step6
  (try dsimp only)
  repeat' first
    | with_reducible (first
        | exact hK | apply State.countDrop_keeps | apply State.dropFront_keeps | apply State.ingressMirror_keeps
        | apply State.mergeGo_keeps | apply State.police_keeps | apply State.ready_keeps | apply State.release_keeps
        | apply State.retire_keeps | apply State.settle_keeps | apply State.tapDecision_keeps | exact hr)
    | (with_reducible refine Keeps.foldl _ (fun _ _ hK => ?_) _ ?_) | (intro _ hK; skip) | with_reducible assumption
    | (with_reducible refine Keeps.ite (fun _ => ?_) (fun _ => ?_)) | split

theorem State.dropLast_keeps {s0 s : State} (hK : Keeps s0 s) (id : Nat) (r : Res5) (prof : Profile) (reason : Nat) :
    Keeps s0 (State.dropLast s id r prof reason) := by
  unfold State.dropLast
  (try dsimp only)
  repeat' first
    | with_reducible (first
        | exact hK | apply State.dropFront_keeps | apply State.ingressMirror_keeps | apply State.tapDecision_keeps)
    | (with_reducible refine Keeps.foldl _ (fun _ _ hK => ?_) _ ?_) | (intro _ hK; skip)
    | with_reducible assumption | (with_reducible refine Keeps.ite (fun _ => ?_) (fun _ => ?_)) | split
    | fail_if_no_progress with_reducible refine Keeps.fields ?_

theorem Res5.dropPass_keeps {s0 : State} (r : Res5) (id : Nat) (prof : Profile) (reason : Nat) (hr : Keeps s0 r.st) :
    Keeps s0 (Res5.dropPass r id prof reason) := by
  unfold Res5.dropPass
  (try dsimp only)
  repeat' first
    | with_reducible (first
        | exact hr | apply State.dropLast_keeps | apply Res5.queued_keeps | apply State.tabParity_keeps
        | apply State.bumpFwdAt_keeps)
    | (with_reducible refine Keeps.ite (fun _ => ?_) (fun _ => ?_)) | split

theorem State.rulePass_keeps {s0 s : State} (hK : Keeps s0 s) (id : Nat) (prof : Profile) :
    Keeps s0 (State.rulePass s id prof) := by
  unfold State.rulePass
  exact Res5.dropPass_keeps _ _ _ _ (State.steps45_keeps hK _ _)

theorem State.lastPass_keeps {s0 s : State} (hK : Keeps s0 s) (id : Nat) (prof : Profile) (extra : Extra) : Keeps s0
    (State.lastPass s id prof extra) := by
  unfold State.lastPass
  (try dsimp only)
  repeat' first
    | with_reducible (first
        | exact hK | apply State.countDrop_keeps | apply Res5.counted_keeps | apply State.dropFront_keeps
        | apply State.generateStep_keeps | apply Res5.queued_keeps | apply State.recoverStep_keeps
        | apply State.step6_keeps | apply State.steps45_keeps | apply State.updPkt_keeps
        | apply State.dropLast_keeps)
    | (intro _ hK; skip) | with_reducible assumption | split

theorem State.countPass_keeps {s0 s : State} (hK : Keeps s0 s) (pk : Pkt) (o : PrismOut) (hit : Option (Nat ×
    RuleAct)) : Keeps s0 (State.countPass s pk o hit) := by
  unfold State.countPass
  (try dsimp only)
  repeat' first
    | with_reducible (first | exact hK | apply State.bumpPrism_keeps)
    | (with_reducible refine Keeps.ite (fun _ => ?_) (fun _ => ?_)) | split
    | fail_if_no_progress with_reducible refine Keeps.fields ?_

theorem State.override_keeps {s0 s : State} (hK : Keeps s0 s) (pk : Pkt) (a : RuleAct) (o : PrismOut) (idx : Nat) :
    Keeps s0 (State.override s pk a o idx) := by
  unfold State.override
  (try dsimp only)
  repeat' first
    | with_reducible (first | exact hK | apply State.bumpBuf_keeps | apply State.updPkt_keeps | apply State.bumpBufAt_keeps) | (intro _ hK; skip)
    | with_reducible assumption | (with_reducible refine Keeps.ite (fun _ => ?_) (fun _ => ?_))

theorem State.requeue_keeps {s0 s : State} (hK : Keeps s0 s) (id : Nat) (a : RuleAct) : Keeps s0 (State.requeue s id
    a) := by
  unfold State.requeue
  (try dsimp only)
  repeat' first
    | with_reducible (first | exact hK | apply State.chargeWaiting_keeps | apply State.updPkt_keeps)
    | (with_reducible refine Keeps.foldl _ (fun _ _ hK => ?_) _ ?_) | (intro _ hK; skip)
    | with_reducible assumption | (with_reducible refine Keeps.ite (fun _ => ?_) (fun _ => ?_)) | split
    | fail_if_no_progress with_reducible refine Keeps.fields ?_

theorem State.recirculate_keeps {s0 s : State} (hK : Keeps s0 s) (id : Nat) (prof : Profile) (a : RuleAct) :
    Keeps s0 (State.recirculate s id prof a) := by
  unfold State.recirculate
  dsimp only
  have h5 := State.steps45_keeps hK (s.pkt id) prof
  generalize s.steps45 (s.pkt id) prof = r at h5 ⊢
  refine Keeps.ite (fun _ => ?_) (fun _ => Keeps.ite (fun _ => ?_) (fun _ => ?_))
  · exact Res5.dropPass_keeps _ _ _ _ h5
  · exact Res5.dropPass_keeps _ _ _ _ h5
  · exact State.requeue_keeps h5 _ _

theorem State.runPass_keeps {s0 s : State} (hK : Keeps s0 s) (id : Nat) : Keeps s0 (State.runPass s id) := by
  unfold State.runPass
  (try dsimp only)
  repeat' first
    | with_reducible (first
        | exact hK | apply State.bumpPrism_keeps | apply State.countPass_keeps | apply State.dropFront_keeps
        | apply State.lastPass_keeps | apply State.override_keeps | apply State.recirculate_keeps
        | apply State.rulePass_keeps | apply State.steps45_keeps)
    | split

theorem State.enter_keeps {s0 s : State} (hK : Keeps s0 s) (pk : Pkt) : Keeps s0 (State.enter s pk) := by
  unfold State.enter
  (try dsimp only)
  repeat' first
    | with_reducible (first | exact hK | apply State.bumpTime_keeps) | (intro _ hK; skip) | with_reducible assumption
    | (with_reducible refine Keeps.ite (fun _ => ?_) (fun _ => ?_)) | split
    | fail_if_no_progress with_reducible refine Keeps.fields ?_

theorem State.firstPass_keeps {s0 s : State} (hK : Keeps s0 s) (pk : Pkt) : Keeps s0 (State.firstPass s pk) := by
  unfold State.firstPass
  (try dsimp only)
  repeat' first
    | with_reducible (first | exact hK | apply State.enter_keeps | apply State.runPass_keeps)

theorem State.macDrop_keeps {s0 s : State} (hK : Keeps s0 s) (pk : Pkt) (reason : Nat) : Keeps s0 (State.macDrop s pk
    reason) := by
  unfold State.macDrop
  (try dsimp only)
  repeat' first
    | with_reducible (first | exact hK | apply State.countDrop_keeps)

theorem State.awaitTail_keeps {s0 s : State} (hK : Keeps s0 s) (pk : Pkt) (take : Bool) : Keeps s0 (State.awaitTail s
    pk take) :=
  hK.upd rfl

theorem State.landIn_keeps {s0 s : State} (hK : Keeps s0 s) (pk : Pkt) : Keeps s0 (State.landIn s pk) := by
  unfold State.landIn
  (try dsimp only)
  repeat' first
    | with_reducible (first
        | exact hK | apply State.bumpBufAt_keeps | apply State.charge_keeps | apply State.enter_keeps
        | apply State.macDrop_keeps | apply State.needXoff_keeps | apply State.raiseLimited_keeps
        | apply State.runPass_keeps | apply State.updPkt_keeps | apply State.xoffSweep_keeps)
    | (with_reducible refine Keeps.foldl _ (fun _ _ hK => ?_) _ ?_) | (intro _ hK; skip)
    | with_reducible assumption | (with_reducible refine Keeps.ite (fun _ => ?_) (fun _ => ?_)) | split
    | fail_if_no_progress with_reducible refine Keeps.fields ?_

theorem State.frameIn_keeps {s0 s : State} (hK : Keeps s0 s) (port : Nat) (bytes : List Byte) (full : Bool) : Keeps s0
    (State.frameIn s port bytes full) := by
  unfold State.frameIn
  (try dsimp only)
  repeat' first
    | with_reducible (first
        | exact hK | apply State.awaitTail_keeps | apply State.bumpPort_keeps | apply State.bumpTime_keeps
        | apply State.firstPass_keeps | apply State.macDrop_keeps
        | apply State.landIn_keeps)
    | (with_reducible refine Keeps.ite (fun _ => ?_) (fun _ => ?_))

theorem execFrameIngress_keeps (port : Nat) (bytes : List Byte) (full : Bool) (s : State) : OutKeeps s
    (execFrameIngress port bytes full s) := by
  unfold execFrameIngress
  (try dsimp only)
  repeat' first
    | with_reducible (first
        | exact OutKeeps.fault _ _ | apply OutKeeps.next | exact Keeps.refl _ | apply State.frameIn_keeps)
    | (with_reducible refine Keeps.ite (fun _ => ?_) (fun _ => ?_)) | split

theorem State.dropTail_keeps {s0 s : State} (hK : Keeps s0 s) (pk : Pkt) (reason : Nat) : Keeps s0 (State.dropTail s
    pk reason) := by
  unfold State.dropTail
  (try dsimp only)
  repeat' first
    | with_reducible (first
        | exact hK | apply State.countDrop_keeps | apply State.dropPkt_keeps | apply State.mergeGo_keeps
        | apply State.pull_keeps | apply State.ready_keeps | apply State.release_keeps | apply State.retire_keeps
        | apply State.unpark_keeps | apply State.leavePark_keeps)
    | (with_reducible refine Keeps.ite (fun _ => ?_) (fun _ => ?_)) | split

theorem State.wholeIn_keeps {s0 s : State} (hK : Keeps s0 s) (pk : Pkt) : Keeps s0 (State.wholeIn s pk) := by
  unfold State.wholeIn
  (try dsimp only)
  repeat' first
    | with_reducible (first
        | exact hK | apply State.ask_keeps | apply State.countDrop_keeps | apply State.pull_keeps
        | apply State.release_keeps | apply State.startFrames_keeps | apply State.dropUnfit_keeps)
    | (with_reducible refine Keeps.ite (fun _ => ?_) (fun _ => ?_)) | split

theorem State.tapTail_keeps {s0 s : State} (hK : Keeps s0 s) (pk : Pkt) (tooLong : Bool) (bad : Bool) : Keeps s0
    (State.tapTail s pk tooLong bad) := by
  unfold State.tapTail
  (try dsimp only)
  repeat' first
    | with_reducible (first
        | exact hK | apply State.commitTap_keeps | apply State.ready_keeps | apply State.rewindTap_keeps)
    | (with_reducible refine Keeps.ite (fun _ => ?_) (fun _ => ?_)) | split

theorem State.tailIn_keeps {s0 s : State} (hK : Keeps s0 s) (id : Nat) (fcsOk : Bool) : Keeps s0 (State.tailIn s id
    fcsOk) := by
  unfold State.tailIn
  (try dsimp only)
  repeat' first
    | with_reducible (first
        | exact hK | apply State.bumpPort_keeps | apply State.countDrop_keeps | apply State.dropTail_keeps
        | apply State.tapTail_keeps | apply State.updPkt_keeps | apply State.updPort_keeps
        | apply State.wholeIn_keeps | apply State.updPtp_keeps)
    | (intro _ hK; skip) | with_reducible assumption | (with_reducible refine Keeps.ite (fun _ => ?_) (fun _ => ?_))
    | split | fail_if_no_progress with_reducible refine Keeps.fields ?_

theorem execFrameTailReceived_keeps (id : Nat) (fcsOk : Bool) (s : State) : OutKeeps s (execFrameTailReceived id fcsOk
    s) := by
  unfold execFrameTailReceived
  (try dsimp only)
  repeat' first
    | with_reducible (first
        | exact OutKeeps.fault _ _ | apply OutKeeps.next | exact Keeps.refl _ | apply State.tailIn_keeps)
    | (with_reducible refine Keeps.ite (fun _ => ?_) (fun _ => ?_)) | split

theorem State.applyHop_keeps {s0 s : State} (hK : Keeps s0 s) (pk : Pkt) (t : Template) : Keeps s0 (State.applyHop s
    pk t) := by
  unfold State.applyHop
  (try dsimp only)
  repeat' first
    | with_reducible (first
        | exact hK | apply State.bumpFwd_keeps | apply State.drawn_keeps | apply State.uncharge_keeps
        | apply State.updPkt_keeps | apply State.bare_keeps | apply State.bumpFwdAt_keeps)
    | (intro _ hK; skip) | with_reducible assumption | (with_reducible refine Keeps.ite (fun _ => ?_) (fun _ => ?_))

theorem State.hop_keeps {s0 s : State} (hK : Keeps s0 s) (sl : Nat) (id : Nat) : Keeps s0 (State.hop s sl id) := by
  unfold State.hop
  (try dsimp only)
  repeat' first
    | with_reducible (first
        | exact hK | apply State.applyHop_keeps | apply State.dropFront_keeps | apply State.raise_keeps
        | apply State.runPass_keeps | apply State.tabParity_keeps | apply State.updPkt_keeps)
    | (intro _ hK; skip) | with_reducible assumption | (with_reducible refine Keeps.ite (fun _ => ?_) (fun _ => ?_))
    | split | fail_if_no_progress with_reducible refine Keeps.fields ?_

theorem execRecirculationPass_keeps (slice : Nat) (s : State) : OutKeeps s (execRecirculationPass slice s) := by
  unfold execRecirculationPass
  (try dsimp only)
  repeat' first
    | with_reducible (first
        | exact OutKeeps.fault _ _ | apply OutKeeps.next | exact Keeps.refl _ | apply State.hop_keeps)
    | (with_reducible refine Keeps.ite (fun _ => ?_) (fun _ => ?_)) | split

theorem execMirrorQueueAdmit_keeps (slice : Nat) (s : State) : OutKeeps s (execMirrorQueueAdmit slice s) := by
  unfold execMirrorQueueAdmit
  (try dsimp only)
  repeat' first
    | with_reducible (first
        | exact OutKeeps.fault _ _ | apply OutKeeps.next | exact Keeps.refl _ | apply State.toAdmission_keeps)
    | (with_reducible refine Keeps.ite (fun _ => ?_) (fun _ => ?_)) | split
    | fail_if_no_progress with_reducible refine Keeps.fields ?_

end Sys2Proof.Machine
end

