-- ==== Sys2Proof/Laws/KeepLaneThrottle.lean ====
section
/-! SUPPORT. What the operations of LaneThrottle keep. -/

set_option Elab.async false
set_option linter.all false

namespace Sys2Proof.Machine

theorem State.ctlRx_keeps {s0 s : State} (hK : Keeps s0 s) (p : Nat) (bytes : List Byte) (fcsOk : Bool) (act : State →
    State) (hact : ∀ x, Keeps s0 x → Keeps s0 (act x)) : Keeps s0 (State.ctlRx s p bytes fcsOk act) := by
  unfold State.ctlRx
  (try dsimp only)
  repeat' first
    | with_reducible (first | exact hK | apply State.bumpPort_keeps | apply State.macDrop_keeps) | apply hact
    | (intro _ hK; skip) | with_reducible assumption | (with_reducible refine Keeps.ite (fun _ => ?_) (fun _ => ?_))

theorem State.loseTap_keeps {s0 s : State} (hK : Keeps s0 s) (pk : Pkt) : Keeps s0 (State.loseTap s pk) := by
  unfold State.loseTap
  (try dsimp only)
  repeat' first
    | with_reducible (first | exact hK | apply State.rewindTap_keeps)
    | (with_reducible refine Keeps.foldl _ (fun _ _ hK => ?_) _ ?_) | (intro _ hK; skip)
    | with_reducible assumption | (with_reducible refine Keeps.ite (fun _ => ?_) (fun _ => ?_)) | split
    | fail_if_no_progress with_reducible refine Keeps.fields ?_

theorem State.loseFrame_keeps {s0 s : State} (hK : Keeps s0 s) (pk : Pkt) : Keeps s0 (State.loseFrame s pk) := by
  unfold State.loseFrame
  (try dsimp only)
  repeat' first
    | with_reducible (first
        | exact hK | apply State.pull_keeps | apply State.release_keeps | apply State.retire_keeps
        | apply State.tapTail_keeps | apply State.unpark_keeps | apply State.updPkt_keeps
        | apply State.leavePark_keeps | apply State.loseTap_keeps)
    | (with_reducible refine Keeps.foldl _ (fun _ _ hK => ?_) _ ?_) | (intro _ hK; skip)
    | with_reducible assumption | (with_reducible refine Keeps.ite (fun _ => ?_) (fun _ => ?_)) | split
    | fail_if_no_progress with_reducible refine Keeps.fields ?_

theorem State.loseRx_keeps {s0 s : State} (hK : Keeps s0 s) (p : Nat) (ctr : Nat) : Keeps s0 (State.loseRx s p ctr) :=
    by
  unfold State.loseRx
  (try dsimp only)
  repeat' first
    | with_reducible (first | exact hK | apply State.bumpPort_keeps | apply State.loseFrame_keeps)
    | (with_reducible refine Keeps.foldl _ (fun _ _ hK => ?_) _ ?_) | (intro _ hK; skip)
    | with_reducible assumption | (with_reducible refine Keeps.ite (fun _ => ?_) (fun _ => ?_)) | split
    | fail_if_no_progress with_reducible refine Keeps.fields ?_

theorem State.ctlIgnore_keeps {s0 s : State} (hK : Keeps s0 s) (p : Nat) : Keeps s0 (State.ctlIgnore s p) := by
  unfold State.ctlIgnore
  (try dsimp only)
  repeat' first
    | with_reducible (first | exact hK | apply State.bumpPort_keeps)
    | (with_reducible refine Keeps.foldl _ (fun _ _ hK => ?_) _ ?_) | (intro _ hK; skip)
    | with_reducible assumption | (with_reducible refine Keeps.ite (fun _ => ?_) (fun _ => ?_)) | split
    | fail_if_no_progress with_reducible refine Keeps.fields ?_

theorem State.ltRx_keeps {s0 s : State} (hK : Keeps s0 s) (p : Nat) (type : Nat) (bytes : List Byte) (fcsOk : Bool)
    (act : State → State) (hact : ∀ x, Keeps s0 x → Keeps s0 (act x)) : Keeps s0 (State.ltRx s p type bytes fcsOk act)
    := by
  unfold State.ltRx
  (try dsimp only)
  repeat' first
    | with_reducible (first | exact hK | apply State.ctlIgnore_keeps | apply State.ctlRx_keeps) | apply hact
    | (intro _ hK; skip) | with_reducible assumption | (with_reducible refine Keeps.ite (fun _ => ?_) (fun _ => ?_))

theorem State.ltRecover_keeps {s0 s : State} (hK : Keeps s0 s) (p : Nat) : Keeps s0 (State.ltRecover s p) := by
  unfold State.ltRecover
  (try dsimp only)
  repeat' first
    | with_reducible (first
        | exact hK | apply State.linkDown_keeps | apply State.raise_keeps | apply State.updPort_keeps
        | apply State.loseQueued_keeps | apply State.loseRx_keeps)
    | (intro _ hK; skip)

theorem State.ltDone_keeps {s0 s : State} (hK : Keeps s0 s) (p : Nat) : Keeps s0 (State.ltDone s p) := by
  unfold State.ltDone
  (try dsimp only)
  repeat' first
    | with_reducible (first
        | exact hK | apply State.bumpPort_keeps | apply State.ltWiden_keeps | apply State.raise_keeps
        | apply State.settle_keeps | apply State.updLt_keeps | apply State.ltDepth_keeps)
    | (intro _ hK; skip) | with_reducible assumption | (with_reducible refine Keeps.ite (fun _ => ?_) (fun _ => ?_))
    | split

theorem State.ltSwitch_keeps {s0 s : State} (hK : Keeps s0 s) (p : Nat) : Keeps s0 (State.ltSwitch s p) := by
  unfold State.ltSwitch
  (try dsimp only)
  repeat' first
    | with_reducible (first
        | exact hK | apply State.ltSend_keeps | apply State.parkLanes_keeps | apply State.updLt_keeps)
    | (intro _ hK; skip) | (with_reducible refine Keeps.ite (fun _ => ?_) (fun _ => ?_))

theorem State.ltAck_keeps {s0 s : State} (hK : Keeps s0 s) (p : Nat) : Keeps s0 (State.ltAck s p) := by
  unfold State.ltAck
  (try dsimp only)
  repeat' first
    | with_reducible (first | exact hK | apply State.ltSend_keeps | apply State.updLt_keeps) | (intro _ hK; skip)

theorem State.ltNak_keeps {s0 s : State} (hK : Keeps s0 s) (p : Nat) (id : Nat) (target : Nat) (reason : Nat) : Keeps
    s0 (State.ltNak s p id target reason) := by
  unfold State.ltNak
  (try dsimp only)
  repeat' first
    | with_reducible (first | exact hK | apply State.ltSend_keeps)

theorem State.ltAccept_keeps {s0 s : State} (hK : Keeps s0 s) (p : Nat) (id : Nat) (target : Nat) : Keeps s0
    (State.ltAccept s p id target) := by
  unfold State.ltAccept
  (try dsimp only)
  repeat' first
    | with_reducible (first
        | exact hK | apply State.ltAck_keeps | apply State.parkLanes_keeps | apply State.updLt_keeps)
    | (intro _ hK; skip) | with_reducible assumption | (with_reducible refine Keeps.ite (fun _ => ?_) (fun _ => ?_))

theorem State.ltReq_keeps {s0 s : State} (hK : Keeps s0 s) (p : Nat) (src : Nat) (id : Nat) (target : Nat) : Keeps s0
    (State.ltReq s p src id target) := by
  unfold State.ltReq
  (try dsimp only)
  repeat' first
    | with_reducible (first
        | exact hK | apply State.ltAccept_keeps | apply State.ltAck_keeps | apply State.ltNak_keeps
        | apply State.ltSend_keeps | apply State.settle_keeps | apply State.updLt_keeps)
    | (intro _ hK; skip) | with_reducible assumption | (with_reducible refine Keeps.ite (fun _ => ?_) (fun _ => ?_))
    | split

theorem State.ltCap_keeps {s0 s : State} (hK : Keeps s0 s) (p : Nat) (caps : Nat) : Keeps s0 (State.ltCap s p caps) :=
    by
  unfold State.ltCap
  (try dsimp only)
  repeat' first
    | with_reducible (first | exact hK | apply State.updLt_keeps) | (intro _ hK; skip)
    | (with_reducible refine Keeps.ite (fun _ => ?_) (fun _ => ?_))

theorem State.ltGotAck_keeps {s0 s : State} (hK : Keeps s0 s) (p : Nat) (id : Nat) : Keeps s0 (State.ltGotAck s p id)
    := by
  unfold State.ltGotAck
  (try dsimp only)
  repeat' first
    | with_reducible (first | exact hK | apply State.ltSwitch_keeps | apply State.updLt_keeps) | (intro _ hK; skip)
    | with_reducible assumption | (with_reducible refine Keeps.ite (fun _ => ?_) (fun _ => ?_))

theorem State.ltGotNak_keeps {s0 s : State} (hK : Keeps s0 s) (p : Nat) (id : Nat) : Keeps s0 (State.ltGotNak s p id)
    := by
  unfold State.ltGotNak
  (try dsimp only)
  repeat' first
    | with_reducible (first | exact hK | apply State.settle_keeps | apply State.updLt_keeps) | (intro _ hK; skip)
    | with_reducible assumption | (with_reducible refine Keeps.ite (fun _ => ?_) (fun _ => ?_))

theorem State.ltGotSwitch_keeps {s0 s : State} (hK : Keeps s0 s) (p : Nat) (id : Nat) : Keeps s0 (State.ltGotSwitch s
    p id) := by
  unfold State.ltGotSwitch
  (try dsimp only)
  repeat' first
    | with_reducible (first | exact hK | apply State.ltDone_keeps | apply State.ltSwitch_keeps)
    | (with_reducible refine Keeps.ite (fun _ => ?_) (fun _ => ?_))

theorem State.ltLocked_keeps {s0 s : State} (hK : Keeps s0 s) (p : Nat) : Keeps s0 (State.ltLocked s p) := by
  unfold State.ltLocked
  (try dsimp only)
  repeat' first
    | with_reducible (first
        | exact hK | apply State.ltAck_keeps | apply State.ltSwitch_keeps | apply State.updLt_keeps)
    | (intro _ hK; skip) | with_reducible assumption | (with_reducible refine Keeps.ite (fun _ => ?_) (fun _ => ?_))

theorem State.ltReqTimeout_keeps {s0 s : State} (hK : Keeps s0 s) (p : Nat) : Keeps s0 (State.ltReqTimeout s p) := by
  unfold State.ltReqTimeout
  (try dsimp only)
  repeat' first
    | with_reducible (first
        | exact hK | apply State.ltRecover_keeps | apply State.ltSend_keeps | apply State.settle_keeps
        | apply State.updLt_keeps)
    | (intro _ hK; skip) | with_reducible assumption | (with_reducible refine Keeps.ite (fun _ => ?_) (fun _ => ?_))

theorem State.ltSwitchTimeout_keeps {s0 s : State} (hK : Keeps s0 s) (p : Nat) (aligned : Bool) : Keeps s0
    (State.ltSwitchTimeout s p aligned) := by
  unfold State.ltSwitchTimeout
  (try dsimp only)
  repeat' first
    | with_reducible (first
        | exact hK | apply State.ltDone_keeps | apply State.ltRecover_keeps | apply State.ltSwitch_keeps)
    | (with_reducible refine Keeps.ite (fun _ => ?_) (fun _ => ?_))

theorem State.ltNarrow_keeps {s0 s : State} (hK : Keeps s0 s) (p : Nat) (w : Nat) : Keeps s0 (State.ltNarrow s p w) :=
    by
  unfold State.ltNarrow
  (try dsimp only)
  repeat' first
    | with_reducible (first | exact hK | apply State.ltSend_keeps | apply State.updLt_keeps) | (intro _ hK; skip)

theorem State.ltWindow_keeps {s0 s : State} (hK : Keeps s0 s) (p : Nat) (tx : Nat) (rx : Nat) : Keeps s0
    (State.ltWindow s p tx rx) := by
  unfold State.ltWindow
  (try dsimp only)
  repeat' first
    | with_reducible (first
        | exact hK | apply State.ltNarrow_keeps | apply State.ltWiden_keeps | apply State.updLt_keeps)
    | (intro _ hK; skip) | with_reducible assumption | (with_reducible refine Keeps.ite (fun _ => ?_) (fun _ => ?_))
    | split

theorem State.ltCapTimeout_keeps {s0 s : State} (hK : Keeps s0 s) (p : Nat) : Keeps s0 (State.ltCapTimeout s p) := by
  unfold State.ltCapTimeout
  (try dsimp only)
  repeat' first
    | with_reducible (first
        | exact hK | apply State.parkLanes_keeps | apply State.settle_keeps | apply State.updLt_keeps)
    | (intro _ hK; skip)

theorem execLtCapReceived_keeps (port : Nat) (bytes : List Byte) (fcsOk : Bool) (s : State) : OutKeeps s
    (execLtCapReceived port bytes fcsOk s) := by
  unfold execLtCapReceived
  (try dsimp only [onPort])
  repeat' first
    | with_reducible (first
        | exact OutKeeps.fault _ _ | apply OutKeeps.next | exact Keeps.refl _ | apply State.ltCap_keeps
        | apply State.ltRx_keeps)
    | (intro _ hK; skip) | with_reducible assumption | split

theorem execLtReqReceived_keeps (port : Nat) (bytes : List Byte) (fcsOk : Bool) (s : State) : OutKeeps s
    (execLtReqReceived port bytes fcsOk s) := by
  unfold execLtReqReceived
  (try dsimp only [onPort])
  repeat' first
    | with_reducible (first
        | exact OutKeeps.fault _ _ | apply OutKeeps.next | exact Keeps.refl _ | apply State.ltReq_keeps
        | apply State.ltRx_keeps)
    | (intro _ hK; skip) | with_reducible assumption | split

theorem execLtAckReceived_keeps (port : Nat) (bytes : List Byte) (fcsOk : Bool) (s : State) : OutKeeps s
    (execLtAckReceived port bytes fcsOk s) := by
  unfold execLtAckReceived
  (try dsimp only [onPort])
  repeat' first
    | with_reducible (first
        | exact OutKeeps.fault _ _ | apply OutKeeps.next | exact Keeps.refl _ | apply State.ltGotAck_keeps
        | apply State.ltRx_keeps)
    | (intro _ hK; skip) | with_reducible assumption | split

theorem execLtNakReceived_keeps (port : Nat) (bytes : List Byte) (fcsOk : Bool) (s : State) : OutKeeps s
    (execLtNakReceived port bytes fcsOk s) := by
  unfold execLtNakReceived
  (try dsimp only [onPort])
  repeat' first
    | with_reducible (first
        | exact OutKeeps.fault _ _ | apply OutKeeps.next | exact Keeps.refl _ | apply State.ltGotNak_keeps
        | apply State.ltRx_keeps)
    | (intro _ hK; skip) | with_reducible assumption | split

theorem execLtSwitchReceived_keeps (port : Nat) (bytes : List Byte) (fcsOk : Bool) (s : State) : OutKeeps s
    (execLtSwitchReceived port bytes fcsOk s) := by
  unfold execLtSwitchReceived
  (try dsimp only [onPort])
  repeat' first
    | with_reducible (first
        | exact OutKeeps.fault _ _ | apply OutKeeps.next | exact Keeps.refl _ | apply State.ltGotSwitch_keeps
        | apply State.ltRx_keeps)
    | (intro _ hK; skip) | with_reducible assumption | split

theorem execLtCapTick_keeps (port : Nat) (s : State) : OutKeeps s (execLtCapTick port s) := by
  unfold execLtCapTick
  (try dsimp only [onPort])
  repeat' first
    | with_reducible (first
        | exact OutKeeps.fault _ _ | apply OutKeeps.next | exact Keeps.refl _ | apply State.ltSend_keeps)
    | (with_reducible refine Keeps.ite (fun _ => ?_) (fun _ => ?_)) | split

theorem execLtCapTimeout_keeps (port : Nat) (s : State) : OutKeeps s (execLtCapTimeout port s) := by
  unfold execLtCapTimeout
  (try dsimp only [onPort])
  repeat' first
    | with_reducible (first
        | exact OutKeeps.fault _ _ | apply OutKeeps.next | exact Keeps.refl _ | apply State.ltCapTimeout_keeps)
    | (with_reducible refine Keeps.ite (fun _ => ?_) (fun _ => ?_)) | split

theorem execLtUtilWindow_keeps (port : Nat) (txBytes : Nat) (rxBytes : Nat) (s : State) : OutKeeps s (execLtUtilWindow
    port txBytes rxBytes s) := by
  unfold execLtUtilWindow
  (try dsimp only [onPort])
  repeat' first
    | with_reducible (first
        | exact OutKeeps.fault _ _ | apply OutKeeps.next | exact Keeps.refl _ | apply State.ltWindow_keeps)
    | (with_reducible refine Keeps.ite (fun _ => ?_) (fun _ => ?_)) | split

theorem execLtReqTimeout_keeps (port : Nat) (s : State) : OutKeeps s (execLtReqTimeout port s) := by
  unfold execLtReqTimeout
  (try dsimp only [onPort])
  repeat' first
    | with_reducible (first
        | exact OutKeeps.fault _ _ | apply OutKeeps.next | exact Keeps.refl _ | apply State.ltReqTimeout_keeps)
    | split

theorem execLtSwitchTimeout_keeps (port : Nat) (aligned : Bool) (s : State) : OutKeeps s (execLtSwitchTimeout port
    aligned s) := by
  unfold execLtSwitchTimeout
  (try dsimp only [onPort])
  repeat' first
    | with_reducible (first
        | exact OutKeeps.fault _ _ | apply OutKeeps.next | exact Keeps.refl _ | apply State.ltSwitchTimeout_keeps)
    | split

theorem execLtReceiversLocked_keeps (port : Nat) (s : State) : OutKeeps s (execLtReceiversLocked port s) := by
  unfold execLtReceiversLocked
  (try dsimp only [onPort])
  repeat' first
    | with_reducible (first
        | exact OutKeeps.fault _ _ | apply OutKeeps.next | exact Keeps.refl _ | apply State.ltLocked_keeps)
    | split

theorem State.ltRealign_keeps {s0 s : State} (hK : Keeps s0 s) (p : Nat) : Keeps s0 (State.ltRealign s p) := by
  unfold State.ltRealign
  (try dsimp only)
  repeat' first
    | with_reducible (first
        | exact hK | apply State.drawn_keeps | apply State.ltDone_keeps | apply State.ltRecover_keeps
        | apply State.ltSwitch_keeps)
    | (with_reducible refine Keeps.foldl _ (fun _ _ hK => ?_) _ ?_) | (intro _ hK; skip)
    | with_reducible assumption | (with_reducible refine Keeps.ite (fun _ => ?_) (fun _ => ?_)) | split
    | fail_if_no_progress with_reducible refine Keeps.fields ?_

theorem execLtAlignmentLost_keeps (port : Nat) (s : State) : OutKeeps s (execLtAlignmentLost port s) := by
  unfold execLtAlignmentLost
  (try dsimp only [onPort])
  repeat' first
    | with_reducible (first
        | exact OutKeeps.fault _ _ | apply OutKeeps.next | exact Keeps.refl _ | apply State.ltRecover_keeps
        | apply State.ltRealign_keeps)
    | (with_reducible refine Keeps.foldl _ (fun _ _ hK => ?_) _ ?_) | (intro _ hK; skip)
    | with_reducible assumption | (with_reducible refine Keeps.ite (fun _ => ?_) (fun _ => ?_)) | split
    | fail_if_no_progress with_reducible refine Keeps.fields ?_

end Sys2Proof.Machine
end

