-- ==== Sys2Proof/Laws/KeepPorts.lean ====
section
/-! SUPPORT. What the operations of Ports keep. -/

set_option Elab.async false
set_option linter.all false

namespace Sys2Proof.Machine

theorem State.putModes_keeps {s0 s : State} (hK : Keeps s0 s) (p : List Byte) : Keeps s0 (State.putModes s p) := by
  unfold State.putModes
  (try dsimp only)
  repeat' first
    | with_reducible (first | exact hK | apply State.setLanes_keeps) | (intro _ hK; skip)
    | (with_reducible refine Keeps.ite (fun _ => ?_) (fun _ => ?_))

theorem State.endSpills_keeps {s0 s : State} (hK : Keeps s0 s) (p : Nat) : Keeps s0 (State.endSpills s p) := by
  unfold State.endSpills
  (try dsimp only)
  repeat' first
    | with_reducible (first | exact hK)
    | (with_reducible refine Keeps.foldl _ (fun _ _ hK => ?_) _ ?_) | (intro _ hK; skip)
    | with_reducible assumption | (with_reducible refine Keeps.ite (fun _ => ?_) (fun _ => ?_)) | split
    | fail_if_no_progress with_reducible refine Keeps.fields ?_

theorem State.emptyVoqs_keeps {s0 s : State} (hK : Keeps s0 s) (p : Nat) : Keeps s0 (State.emptyVoqs s p) := by
  unfold State.emptyVoqs
  (try dsimp only)
  repeat' first
    | with_reducible (first
        | exact hK | apply State.countDrop_keeps | apply State.pull_keeps | apply State.release_keeps
        | apply State.endSpills_keeps | apply State.updVoq_keeps)
    | (with_reducible refine Keeps.foldl _ (fun _ _ hK => ?_) _ ?_) | (intro _ hK; skip)
    | with_reducible assumption | (with_reducible refine Keeps.ite (fun _ => ?_) (fun _ => ?_)) | split
    | fail_if_no_progress with_reducible refine Keeps.fields ?_

theorem applyPortSetMode_keeps {s0 s : State} (hK : Keeps s0 s) (p : List Byte) : Keeps s0 (applyPortSetMode p s) :=
    by
  unfold applyPortSetMode
  (try dsimp only)
  repeat' first
    | with_reducible (first
        | exact hK | apply State.linkDown_keeps | apply State.putModes_keeps | apply State.updPort_keeps
        | apply State.xoffSweep_keeps | apply State.emptyVoqs_keeps)
    | (with_reducible refine Keeps.foldl _ (fun _ _ hK => ?_) _ ?_) | (intro _ hK; skip) | with_reducible assumption
    | (with_reducible refine Keeps.ite (fun _ => ?_) (fun _ => ?_))

theorem portSetModeBody_keeps {s0 s : State} (hK : Keeps s0 s) (r : Req) : Keeps s0 (portSetModeBody r s).1 := by
  unfold portSetModeBody
  (try dsimp only)
  repeat' first
    | with_reducible exact hK | exact setCmd_keeps (fun p hk => applyPortSetMode_keeps hk p) hK r

theorem State.putMac_keeps {s0 s : State} (hK : Keeps s0 s) (p : List Byte) : Keeps s0 (State.putMac s p) := by
  unfold State.putMac
  (try dsimp only)
  repeat' first
    | with_reducible (first | exact hK | apply State.updPort_keeps)
    | (with_reducible refine Keeps.foldl _ (fun _ _ hK => ?_) _ ?_) | (intro _ hK; skip)
    | with_reducible assumption | (with_reducible refine Keeps.ite (fun _ => ?_) (fun _ => ?_)) | split
    | fail_if_no_progress with_reducible refine Keeps.fields ?_

theorem applyPortSetMac_keeps {s0 s : State} (hK : Keeps s0 s) (p : List Byte) : Keeps s0 (applyPortSetMac p s) := by
  unfold applyPortSetMac
  (try dsimp only)
  repeat' first
    | with_reducible (first | exact hK | apply State.putMac_keeps | apply State.xoffSweep_keeps)

theorem portSetMacBody_keeps {s0 s : State} (hK : Keeps s0 s) (r : Req) : Keeps s0 (portSetMacBody r s).1 := by
  unfold portSetMacBody
  (try dsimp only)
  repeat' first
    | with_reducible exact hK | exact setCmd_keeps (fun p hk => applyPortSetMac_keeps hk p) hK r

theorem State.putFlow_keeps {s0 s : State} (hK : Keeps s0 s) (p : List Byte) : Keeps s0 (State.putFlow s p) := by
  unfold State.putFlow
  (try dsimp only)
  repeat' first
    | with_reducible (first | exact hK | apply State.updPort_keeps)
    | (with_reducible refine Keeps.foldl _ (fun _ _ hK => ?_) _ ?_) | (intro _ hK; skip)
    | with_reducible assumption | (with_reducible refine Keeps.ite (fun _ => ?_) (fun _ => ?_)) | split
    | fail_if_no_progress with_reducible refine Keeps.fields ?_

theorem applyPortSetFlow_keeps {s0 s : State} (hK : Keeps s0 s) (p : List Byte) : Keeps s0 (applyPortSetFlow p s) :=
    by
  unfold applyPortSetFlow
  (try dsimp only)
  repeat' first
    | with_reducible (first | exact hK | apply State.putFlow_keeps | apply State.xoffSweep_keeps)

theorem portSetFlowBody_keeps {s0 s : State} (hK : Keeps s0 s) (r : Req) : Keeps s0 (portSetFlowBody r s).1 := by
  unfold portSetFlowBody
  (try dsimp only)
  repeat' first
    | with_reducible exact hK | exact setCmd_keeps (fun p hk => applyPortSetFlow_keeps hk p) hK r

theorem applyPortSetThrottle_keeps {s0 s : State} (hK : Keeps s0 s) (p : List Byte) : Keeps s0 (applyPortSetThrottle p
    s) := by
  unfold applyPortSetThrottle
  (try dsimp only)
  repeat' first
    | with_reducible (first
        | exact hK | apply State.ltDepth_keeps | apply State.ltWiden_keeps | apply State.updLt_keeps)
    | (intro _ hK; skip) | with_reducible assumption | (with_reducible refine Keeps.ite (fun _ => ?_) (fun _ => ?_))

theorem portSetThrottleBody_keeps {s0 s : State} (hK : Keeps s0 s) (r : Req) : Keeps s0 (portSetThrottleBody r s).1 :=
    by
  unfold portSetThrottleBody
  (try dsimp only)
  repeat' first
    | with_reducible exact hK | exact setCmd_keeps (fun p hk => applyPortSetThrottle_keeps hk p) hK r

theorem applyPortSetEee_keeps {s0 s : State} (hK : Keeps s0 s) (p : List Byte) : Keeps s0 (applyPortSetEee p s) := by
  unfold applyPortSetEee
  (try dsimp only)
  repeat' first
    | with_reducible (first | exact hK | apply State.updPort_keeps)
    | (with_reducible refine Keeps.foldl _ (fun _ _ hK => ?_) _ ?_) | (intro _ hK; skip)
    | with_reducible assumption | (with_reducible refine Keeps.ite (fun _ => ?_) (fun _ => ?_)) | split
    | fail_if_no_progress with_reducible refine Keeps.fields ?_

theorem portSetEeeBody_keeps {s0 s : State} (hK : Keeps s0 s) (r : Req) : Keeps s0 (portSetEeeBody r s).1 := by
  unfold portSetEeeBody
  (try dsimp only)
  repeat' first
    | with_reducible exact hK | exact setCmd_keeps (fun p hk => applyPortSetEee_keeps hk p) hK r

theorem applyPortSetAdmin_keeps {s0 s : State} (hK : Keeps s0 s) (p : List Byte) : Keeps s0 (applyPortSetAdmin p s) :=
    by
  unfold applyPortSetAdmin
  (try dsimp only)
  repeat' first
    | with_reducible (first | exact hK | apply State.linkDown_keeps | apply State.updPort_keeps) | (intro _ hK; skip)
    | with_reducible assumption | (with_reducible refine Keeps.ite (fun _ => ?_) (fun _ => ?_))

theorem portSetAdminBody_keeps {s0 s : State} (hK : Keeps s0 s) (r : Req) : Keeps s0 (portSetAdminBody r s).1 := by
  unfold portSetAdminBody
  (try dsimp only)
  repeat' first
    | with_reducible exact hK | exact setCmd_keeps (fun p hk => applyPortSetAdmin_keeps hk p) hK r

theorem applyPortSetMargin_keeps {s0 s : State} (hK : Keeps s0 s) (p : List Byte) : Keeps s0 (applyPortSetMargin p s)
    :=
  hK.upd rfl

theorem portSetMarginBody_keeps {s0 s : State} (hK : Keeps s0 s) (r : Req) : Keeps s0 (portSetMarginBody r s).1 := by
  unfold portSetMarginBody
  (try dsimp only)
  repeat' first
    | with_reducible exact hK | exact setCmd_keeps (fun p hk => applyPortSetMargin_keeps hk p) hK r

theorem portSetLaneMapBody_keeps {s0 s : State} (hK : Keeps s0 s) (r : Req) : Keeps s0 (portSetLaneMapBody r s).1 :=
    by
  unfold portSetLaneMapBody
  (try dsimp only)
  repeat' first
    | with_reducible (first
        | exact hK | apply errCmd_keeps | apply okCmd_keeps | apply State.shadow_keeps | apply State.updGroup_keeps)
    | (intro _ hK; skip) | with_reducible assumption | split

theorem portGetStatusBody_keeps {s0 s : State} (hK : Keeps s0 s) (r : Req) : Keeps s0 (portGetStatusBody r s).1 := by
  unfold portGetStatusBody
  (try dsimp only)
  repeat' first
    | with_reducible (first | exact hK | apply readCmd_keeps) | (intro _ hK; skip)
    | (with_reducible refine Keeps.ite (fun _ => ?_) (fun _ => ?_))

theorem State.fecLane_keeps {s0 s : State} (hK : Keeps s0 s) (l : Nat) : Keeps s0 (State.fecLane s l) := by
  unfold State.fecLane
  (try dsimp only)
  repeat' first
    | with_reducible (first | exact hK | apply State.drawn_keeps | apply State.updLane_keeps)
    | (with_reducible refine Keeps.foldl _ (fun _ _ hK => ?_) _ ?_) | (intro _ hK; skip)
    | with_reducible assumption | (with_reducible refine Keeps.ite (fun _ => ?_) (fun _ => ?_)) | split
    | fail_if_no_progress with_reducible refine Keeps.fields ?_

theorem State.fecPort_keeps {s0 s : State} (hK : Keeps s0 s) (p : Nat) : Keeps s0 (State.fecPort s p) := by
  unfold State.fecPort
  (try dsimp only)
  repeat' first
    | with_reducible (first | exact hK | apply State.bumpPort_keeps | apply State.drawn_keeps)
    | (with_reducible refine Keeps.foldl _ (fun _ _ hK => ?_) _ ?_) | (intro _ hK; skip)
    | with_reducible assumption | (with_reducible refine Keeps.ite (fun _ => ?_) (fun _ => ?_)) | split
    | fail_if_no_progress with_reducible refine Keeps.fields ?_

theorem State.fecAll_keeps {s0 s : State} (hK : Keeps s0 s)  : Keeps s0 (State.fecAll s) := by
  unfold State.fecAll
  (try dsimp only)
  repeat' first
    | with_reducible (first | exact hK | apply State.fecPort_keeps)
    | (with_reducible refine Keeps.foldl _ (fun _ _ hK => ?_) _ ?_) | (intro _ hK; skip)
    | with_reducible assumption | (with_reducible refine Keeps.ite (fun _ => ?_) (fun _ => ?_)) | split
    | fail_if_no_progress with_reducible refine Keeps.fields ?_

theorem portGetMarginBody_keeps {s0 s : State} (hK : Keeps s0 s) (r : Req) : Keeps s0 (portGetMarginBody r s).1 := by
  unfold portGetMarginBody
  (try dsimp only)
  repeat' first
    | with_reducible (first
        | exact hK | apply errCmd_keeps | apply okCmd_keeps | apply State.updLane_keeps | apply State.fecLane_keeps)
    | (with_reducible refine Keeps.foldl _ (fun _ _ hK => ?_) _ ?_) | (intro _ hK; skip) | with_reducible assumption
    | (with_reducible refine Keeps.ite (fun _ => ?_) (fun _ => ?_)) | split

theorem portGetCountersBody_keeps {s0 s : State} (hK : Keeps s0 s) (r : Req) : Keeps s0 (portGetCountersBody r s).1 :=
    by
  unfold portGetCountersBody
  (try dsimp only)
  repeat' first
    | with_reducible (first
        | exact hK | apply readCmd_keeps | apply State.fecPort_keeps | apply errCmd_keeps | apply okCmd_keeps)
    | (with_reducible refine Keeps.foldl _ (fun _ _ hK => ?_) _ ?_) | (intro _ hK; skip)
    | with_reducible assumption | (with_reducible refine Keeps.ite (fun _ => ?_) (fun _ => ?_)) | split
    | fail_if_no_progress with_reducible refine Keeps.fields ?_

theorem execPortSetMode_keeps (r : Req) (s : State) : OutKeeps s (execPortSetMode r s) := 
  mailboxCommand_keeps (fun hk => portSetModeBody_keeps hk r)

theorem execPortGetStatus_keeps (r : Req) (s : State) : OutKeeps s (execPortGetStatus r s) := 
  mailboxCommand_keeps (fun hk => portGetStatusBody_keeps hk r)

theorem execPortSetMac_keeps (r : Req) (s : State) : OutKeeps s (execPortSetMac r s) := 
  mailboxCommand_keeps (fun hk => portSetMacBody_keeps hk r)

theorem execPortSetFlow_keeps (r : Req) (s : State) : OutKeeps s (execPortSetFlow r s) := 
  mailboxCommand_keeps (fun hk => portSetFlowBody_keeps hk r)

theorem execPortSetThrottle_keeps (r : Req) (s : State) : OutKeeps s (execPortSetThrottle r s) := 
  mailboxCommand_keeps (fun hk => portSetThrottleBody_keeps hk r)

theorem execPortSetEee_keeps (r : Req) (s : State) : OutKeeps s (execPortSetEee r s) := 
  mailboxCommand_keeps (fun hk => portSetEeeBody_keeps hk r)

theorem execPortSetLaneMap_keeps (r : Req) (s : State) : OutKeeps s (execPortSetLaneMap r s) := 
  mailboxCommand_keeps (fun hk => portSetLaneMapBody_keeps hk r)

theorem execPortGetMargin_keeps (r : Req) (s : State) : OutKeeps s (execPortGetMargin r s) := 
  mailboxCommand_keeps (fun hk => portGetMarginBody_keeps hk r)

theorem execPortGetCounters_keeps (r : Req) (s : State) : OutKeeps s (execPortGetCounters r s) := 
  mailboxCommand_keeps (fun hk => portGetCountersBody_keeps hk r)

theorem execPortSetAdmin_keeps (r : Req) (s : State) : OutKeeps s (execPortSetAdmin r s) := 
  mailboxCommand_keeps (fun hk => portSetAdminBody_keeps hk r)

theorem execPortSetMargin_keeps (r : Req) (s : State) : OutKeeps s (execPortSetMargin r s) := 
  mailboxCommand_keeps (fun hk => portSetMarginBody_keeps hk r)

theorem State.rxPause_keeps {s0 s : State} (hK : Keeps s0 s) (p : Nat) (quanta : Nat) : Keeps s0 (State.rxPause s p
    quanta) := by
  unfold State.rxPause
  (try dsimp only)
  repeat' first
    | with_reducible (first
        | exact hK | apply State.bumpPort_keeps | apply State.ctlIgnore_keeps | apply State.updPort_keeps)
    | (intro _ hK; skip) | with_reducible assumption | (with_reducible refine Keeps.ite (fun _ => ?_) (fun _ => ?_))

theorem State.rxPfc_keeps {s0 s : State} (hK : Keeps s0 s) (p : Nat) (vec : Nat) (quanta : Nat → Nat) : Keeps s0
    (State.rxPfc s p vec quanta) := by
  unfold State.rxPfc
  (try dsimp only)
  repeat' first
    | with_reducible (first
        | exact hK | apply State.bumpPort_keeps | apply State.ctlIgnore_keeps | apply State.updPort_keeps)
    | (intro _ hK; skip) | with_reducible assumption | (with_reducible refine Keeps.ite (fun _ => ?_) (fun _ => ?_))

theorem execPauseFrameReceived_keeps (port : Nat) (bytes : List Byte) (fcsOk : Bool) (s : State) : OutKeeps s
    (execPauseFrameReceived port bytes fcsOk s) := by
  unfold execPauseFrameReceived
  (try dsimp only [onPort])
  repeat' first
    | with_reducible (first
        | exact OutKeeps.fault _ _ | apply OutKeeps.next | exact Keeps.refl _ | apply State.ctlRx_keeps
        | apply State.rxPause_keeps)
    | (intro _ hK; skip) | with_reducible assumption | (with_reducible refine Keeps.ite (fun _ => ?_) (fun _ => ?_))
    | split

theorem execPfcFrameReceived_keeps (port : Nat) (bytes : List Byte) (fcsOk : Bool) (s : State) : OutKeeps s
    (execPfcFrameReceived port bytes fcsOk s) := by
  unfold execPfcFrameReceived
  (try dsimp only [onPort])
  repeat' first
    | with_reducible (first
        | exact OutKeeps.fault _ _ | apply OutKeeps.next | exact Keeps.refl _ | apply State.ctlRx_keeps
        | apply State.rxPfc_keeps)
    | (intro _ hK; skip) | with_reducible assumption | (with_reducible refine Keeps.ite (fun _ => ?_) (fun _ => ?_))
    | split

theorem execPauseExpiry_keeps (port : Nat) (tc : Nat) (s : State) : OutKeeps s (execPauseExpiry port tc s) := by
  unfold execPauseExpiry
  (try dsimp only [onClass])
  repeat' first
    | with_reducible (first
        | exact OutKeeps.fault _ _ | apply OutKeeps.next | exact Keeps.refl _ | apply State.updPort_keeps)
    | (intro _ hK; skip) | with_reducible assumption | split

theorem State.stormStart_keeps {s0 s : State} (hK : Keeps s0 s) (p : Nat) (c : Nat) : Keeps s0 (State.stormStart s p
    c) := by
  unfold State.stormStart
  (try dsimp only)
  repeat' first
    | with_reducible (first
        | exact hK | apply State.egDrop_keeps | apply State.raise_keeps | apply State.updPort_keeps
        | apply State.bumpPort_keeps | apply State.setWaiting_keeps)
    | (with_reducible refine Keeps.foldl _ (fun _ _ hK => ?_) _ ?_) | (intro _ hK; skip) | with_reducible assumption
    | (with_reducible refine Keeps.ite (fun _ => ?_) (fun _ => ?_))

theorem execPfcWatchdogExpiry_keeps (port : Nat) (tc : Nat) (s : State) : OutKeeps s (execPfcWatchdogExpiry port tc s)
    := by
  unfold execPfcWatchdogExpiry
  (try dsimp only [onClass])
  repeat' first
    | with_reducible (first
        | exact OutKeeps.fault _ _ | apply OutKeeps.next | exact Keeps.refl _ | apply State.stormStart_keeps)
    | (with_reducible refine Keeps.ite (fun _ => ?_) (fun _ => ?_)) | split

theorem execPfcStormEndTimer_keeps (port : Nat) (tc : Nat) (s : State) : OutKeeps s (execPfcStormEndTimer port tc s)
    := by
  unfold execPfcStormEndTimer
  (try dsimp only [onClass])
  repeat' first
    | with_reducible (first
        | exact OutKeeps.fault _ _ | apply OutKeeps.next | exact Keeps.refl _ | apply State.raise_keeps
        | apply State.updPort_keeps)
    | (intro _ hK; skip) | with_reducible assumption | (with_reducible refine Keeps.ite (fun _ => ?_) (fun _ => ?_))
    | split

theorem State.refresh_keeps {s0 s : State} (hK : Keeps s0 s) (p : Nat) : Keeps s0 (State.refresh s p) := by
  unfold State.refresh
  (try dsimp only)
  repeat' first
    | with_reducible (first | exact hK | apply State.sendCtl_keeps)
    | (with_reducible refine Keeps.ite (fun _ => ?_) (fun _ => ?_)) | split

theorem execPfcRefreshTimer_keeps (port : Nat) (s : State) : OutKeeps s (execPfcRefreshTimer port s) := by
  unfold execPfcRefreshTimer
  (try dsimp only [onPort])
  repeat' first
    | with_reducible (first
        | exact OutKeeps.fault _ _ | apply OutKeeps.next | exact Keeps.refl _ | apply State.refresh_keeps)
    | split

theorem execLinkDown_keeps (port : Nat) (s : State) : OutKeeps s (execLinkDown port s) := by
  unfold execLinkDown
  (try dsimp only [onPort])
  repeat' first
    | with_reducible (first
        | exact OutKeeps.fault _ _ | apply OutKeeps.next | exact Keeps.refl _ | apply State.linkDown_keeps)
    | split

theorem State.linkUp_keeps {s0 s : State} (hK : Keeps s0 s) (p : Nat) : Keeps s0 (State.linkUp s p) := by
  unfold State.linkUp
  (try dsimp only)
  repeat' first
    | with_reducible (first | exact hK | apply State.parkLanes_keeps | apply State.updPort_keeps) | (intro _ hK; skip)

theorem execLinkUp_keeps (port : Nat) (s : State) : OutKeeps s (execLinkUp port s) := by
  unfold execLinkUp
  (try dsimp only [onPort])
  repeat' first
    | with_reducible (first
        | exact OutKeeps.fault _ _ | apply OutKeeps.next | exact Keeps.refl _ | apply State.linkUp_keeps)
    | (with_reducible refine Keeps.ite (fun _ => ?_) (fun _ => ?_)) | split

theorem execLpiIdleTimer_keeps (port : Nat) (s : State) : OutKeeps s (execLpiIdleTimer port s) := by
  unfold execLpiIdleTimer
  (try dsimp only [onPort])
  repeat' first
    | with_reducible (first
        | exact OutKeeps.fault _ _ | apply OutKeeps.next | exact Keeps.refl _ | apply State.bumpPort_keeps
        | apply State.updPort_keeps)
    | (intro _ hK; skip) | with_reducible assumption | (with_reducible refine Keeps.ite (fun _ => ?_) (fun _ => ?_))
    | split

theorem execLpiWakeComplete_keeps (port : Nat) (s : State) : OutKeeps s (execLpiWakeComplete port s) := by
  unfold execLpiWakeComplete
  (try dsimp only [onPort])
  repeat' first
    | with_reducible (first
        | exact OutKeeps.fault _ _ | apply OutKeeps.next | exact Keeps.refl _ | apply State.updPort_keeps
        | apply State.flushCtl_keeps)
    | (with_reducible refine Keeps.foldl _ (fun _ _ hK => ?_) _ ?_) | (intro _ hK; skip)
    | with_reducible assumption | (with_reducible refine Keeps.ite (fun _ => ?_) (fun _ => ?_)) | split
    | fail_if_no_progress with_reducible refine Keeps.fields ?_

theorem State.margin_keeps {s0 s : State} (hK : Keeps s0 s) (l : Nat) (height : Nat) (width : Nat) : Keeps s0
    (State.margin s l height width) := by
  unfold State.margin
  (try dsimp only)
  repeat' first
    | with_reducible (first | exact hK | apply State.raiseIf_keeps | apply State.setLane_keeps) | (intro _ hK; skip)
    | with_reducible assumption | (with_reducible refine Keeps.ite (fun _ => ?_) (fun _ => ?_))

theorem execMarginSample_keeps (lane : Nat) (height : Nat) (width : Nat) (s : State) : OutKeeps s (execMarginSample
    lane height width s) := by
  unfold execMarginSample
  (try dsimp only)
  repeat' first
    | with_reducible (first
        | exact OutKeeps.fault _ _ | apply OutKeeps.next | exact Keeps.refl _ | apply State.margin_keeps)
    | (with_reducible refine Keeps.ite (fun _ => ?_) (fun _ => ?_)) | split

theorem State.substitute_keeps {s0 s : State} (hK : Keeps s0 s) (l : Nat) : Keeps s0 (State.substitute s l) := by
  unfold State.substitute
  (try dsimp only)
  repeat' first
    | with_reducible (first
        | exact hK | apply State.healthChanged_keeps | apply State.loseRx_keeps | apply State.loseTx_keeps
        | apply State.raise_keeps | apply State.repairAdd_keeps | apply State.updGroup_keeps
        | apply State.updPort_keeps)
    | (intro _ hK; skip)

theorem State.loseSpare_keeps {s0 s : State} (hK : Keeps s0 s) (l : Nat) : Keeps s0 (State.loseSpare s l) := by
  unfold State.loseSpare
  (try dsimp only)
  repeat' first
    | with_reducible (first | exact hK | apply State.repairAdd_keeps | apply State.updGroup_keeps)
    | (with_reducible refine Keeps.foldl _ (fun _ _ hK => ?_) _ ?_) | (intro _ hK; skip)
    | with_reducible assumption | (with_reducible refine Keeps.ite (fun _ => ?_) (fun _ => ?_)) | split
    | fail_if_no_progress with_reducible refine Keeps.fields ?_

theorem State.exhausted_keeps {s0 s : State} (hK : Keeps s0 s) (l : Nat) : Keeps s0 (State.exhausted s l) := by
  unfold State.exhausted
  (try dsimp only)
  repeat' first
    | with_reducible (first
        | exact hK | apply State.healthIf_keeps | apply State.linkDown_keeps | apply State.raise_keeps
        | apply State.repairAdd_keeps | apply State.updGroup_keeps | apply State.loseSpare_keeps)
    | (intro _ hK; skip) | with_reducible assumption | (with_reducible refine Keeps.ite (fun _ => ?_) (fun _ => ?_))

theorem execDatapathFailure_keeps (lane : Nat) (s : State) : OutKeeps s (execDatapathFailure lane s) := by
  unfold execDatapathFailure
  (try dsimp only)
  repeat' first
    | with_reducible (first
        | exact OutKeeps.fault _ _ | apply OutKeeps.next | exact Keeps.refl _ | apply State.exhausted_keeps
        | apply State.substitute_keeps)
    | (with_reducible refine Keeps.ite (fun _ => ?_) (fun _ => ?_)) | split

theorem execSpareDatapathFailed_keeps (group : Nat) (s : State) : OutKeeps s (execSpareDatapathFailed group s) := by
  unfold execSpareDatapathFailed
  (try dsimp only)
  repeat' first
    | with_reducible (first
        | exact OutKeeps.fault _ _ | apply OutKeeps.next | exact Keeps.refl _ | apply State.bumpRed_keeps
        | apply State.healthChanged_keeps | apply State.updGroup_keeps | apply State.repairAdd_keeps)
    | (with_reducible refine Keeps.foldl _ (fun _ _ hK => ?_) _ ?_) | (intro _ hK; skip)
    | with_reducible assumption | (with_reducible refine Keeps.ite (fun _ => ?_) (fun _ => ?_)) | split
    | fail_if_no_progress with_reducible refine Keeps.fields ?_

end Sys2Proof.Machine
end

