-- ==== Sys2Proof/Laws/KeepBuffers.lean ====
section
/-! SUPPORT. What the operations of Buffers keep. -/

set_option Elab.async false
set_option linter.all false

namespace Sys2Proof.Machine

theorem State.putClass_keeps {s0 s : State} (hK : Keeps s0 s) (p : List Byte) : Keeps s0 (State.putClass s p) :=
  hK.upd rfl

theorem applyBufSetClass_keeps {s0 s : State} (hK : Keeps s0 s) (p : List Byte) : Keeps s0 (applyBufSetClass p s) :=
    by
  unfold applyBufSetClass
  (try dsimp only)
  repeat' first
    | with_reducible (first | exact hK | apply State.putClass_keeps | apply State.xoffSweep_keeps)

theorem bufSetClassBody_keeps {s0 s : State} (hK : Keeps s0 s) (r : Req) : Keeps s0 (bufSetClassBody r s).1 := by
  unfold bufSetClassBody
  (try dsimp only)
  repeat' first
    | with_reducible exact hK | exact setCmd_keeps (fun p hk => applyBufSetClass_keeps hk p) hK r

theorem applyBufSetPortClass_keeps {s0 s : State} (hK : Keeps s0 s) (p : List Byte) : Keeps s0 (applyBufSetPortClass p
    s) := by
  unfold applyBufSetPortClass
  (try dsimp only)
  repeat' first
    | with_reducible (first | exact hK | apply State.updPortClass_keeps | apply State.xoffSweep_keeps)
    | (intro _ hK; skip)

theorem bufSetPortClassBody_keeps {s0 s : State} (hK : Keeps s0 s) (r : Req) : Keeps s0 (bufSetPortClassBody r s).1 :=
    by
  unfold bufSetPortClassBody
  (try dsimp only)
  repeat' first
    | with_reducible exact hK | exact setCmd_keeps (fun p hk => applyBufSetPortClass_keeps hk p) hK r

theorem State.putHeadroom_keeps {s0 s : State} (hK : Keeps s0 s) (p : List Byte) : Keeps s0 (State.putHeadroom s p) :=
    by
  unfold State.putHeadroom
  (try dsimp only)
  repeat' first
    | with_reducible (first | exact hK | apply State.updPortClass_keeps)
    | (with_reducible refine Keeps.foldl _ (fun _ _ hK => ?_) _ ?_) | (intro _ hK; skip)

theorem applyBufSetHeadroom_keeps {s0 s : State} (hK : Keeps s0 s) (p : List Byte) : Keeps s0 (applyBufSetHeadroom p
    s) := by
  unfold applyBufSetHeadroom
  (try dsimp only)
  repeat' first
    | with_reducible (first | exact hK | apply State.putHeadroom_keeps | apply State.xoffSweep_keeps)

theorem State.sizingView_keeps {s0 s : State} (hK : Keeps s0 s) (l : List StagedCmd) : Keeps s0 (State.sizingView s l)
    := by
  unfold State.sizingView
  (try dsimp only)
  repeat' first
    | with_reducible (first
        | exact hK | apply State.putClass_keeps | apply State.putFlow_keeps | apply State.putMac_keeps
        | apply State.putModes_keeps)
    | (with_reducible refine Keeps.foldl _ (fun _ _ hK => ?_) _ ?_) | (intro _ hK; skip) | with_reducible assumption
    | (with_reducible refine Keeps.ite (fun _ => ?_) (fun _ => ?_))

theorem bufSetHeadroomBody_keeps {s0 s : State} (hK : Keeps s0 s) (r : Req) : Keeps s0 (bufSetHeadroomBody r s).1 :=
    by
  unfold bufSetHeadroomBody
  (try dsimp only)
  repeat' first
    | with_reducible (first | exact hK | apply State.stage_keeps) | (intro _ hK; skip)

theorem applyBufSetPfcTx_keeps {s0 s : State} (hK : Keeps s0 s) (p : List Byte) : Keeps s0 (applyBufSetPfcTx p s) :=
    by
  unfold applyBufSetPfcTx
  (try dsimp only)
  repeat' first
    | with_reducible (first | exact hK | apply State.updPort_keeps)
    | (with_reducible refine Keeps.foldl _ (fun _ _ hK => ?_) _ ?_) | (intro _ hK; skip)
    | with_reducible assumption | (with_reducible refine Keeps.ite (fun _ => ?_) (fun _ => ?_)) | split
    | fail_if_no_progress with_reducible refine Keeps.fields ?_

theorem bufSetPfcTxBody_keeps {s0 s : State} (hK : Keeps s0 s) (r : Req) : Keeps s0 (bufSetPfcTxBody r s).1 := by
  unfold bufSetPfcTxBody
  (try dsimp only)
  repeat' first
    | with_reducible exact hK | exact setCmd_keeps (fun p hk => applyBufSetPfcTx_keeps hk p) hK r

theorem applyBufSetWredProfile_keeps {s0 s : State} (hK : Keeps s0 s) (p : List Byte) : Keeps s0
    (applyBufSetWredProfile p s) :=
  hK.upd rfl

theorem liveWredProfile_keeps {s0 s : State} (hK : Keeps s0 s) (p : List Byte) : Keeps s0 (liveWredProfile p s) := by
  unfold liveWredProfile
  (try dsimp only)
  repeat' first
    | with_reducible (first | exact hK | apply applyBufSetWredProfile_keeps)
    | (with_reducible refine Keeps.foldl _ (fun _ _ hK => ?_) _ ?_) | (intro _ hK; skip)
    | with_reducible assumption | (with_reducible refine Keeps.ite (fun _ => ?_) (fun _ => ?_)) | split
    | fail_if_no_progress with_reducible refine Keeps.fields ?_

theorem bufSetWredProfileBody_keeps {s0 s : State} (hK : Keeps s0 s) (r : Req) : Keeps s0 (bufSetWredProfileBody r
    s).1 := by
  unfold bufSetWredProfileBody
  (try dsimp only)
  repeat' first
    | with_reducible exact hK | exact setCmd_keeps (fun p hk => liveWredProfile_keeps hk p) hK r

theorem applyBufSetQueue_keeps {s0 s : State} (hK : Keeps s0 s) (p : List Byte) : Keeps s0 (applyBufSetQueue p s) :=
    by
  unfold applyBufSetQueue
  (try dsimp only)
  repeat' first
    | with_reducible (first | exact hK | apply State.updQueue_keeps)
    | (with_reducible refine Keeps.foldl _ (fun _ _ hK => ?_) _ ?_) | (intro _ hK; skip)

theorem liveQueue_keeps {s0 s : State} (hK : Keeps s0 s) (p : List Byte) : Keeps s0 (liveQueue p s) := by
  unfold liveQueue
  (try dsimp only)
  repeat' first
    | with_reducible (first | exact hK | apply State.updQueue_keeps)
    | (with_reducible refine Keeps.foldl _ (fun _ _ hK => ?_) _ ?_) | (intro _ hK; skip)

theorem bufSetQueueBody_keeps {s0 s : State} (hK : Keeps s0 s) (r : Req) : Keeps s0 (bufSetQueueBody r s).1 := by
  unfold bufSetQueueBody
  (try dsimp only)
  repeat' first
    | with_reducible exact hK | exact setCmd_keeps (fun p hk => liveQueue_keeps hk p) hK r

theorem State.wredUpdate_keeps {s0 s : State} (hK : Keeps s0 s) (k : Nat) : Keeps s0 (State.wredUpdate s k) := by
  unfold State.wredUpdate
  (try dsimp only)
  repeat' first
    | with_reducible (first | exact hK | apply State.updQueue_keeps)
    | (with_reducible refine Keeps.foldl _ (fun _ _ hK => ?_) _ ?_) | (intro _ hK; skip)
    | with_reducible assumption | (with_reducible refine Keeps.ite (fun _ => ?_) (fun _ => ?_)) | split
    | fail_if_no_progress with_reducible refine Keeps.fields ?_

theorem execWredAverageUpdate_keeps (queue : Nat) (s : State) : OutKeeps s (execWredAverageUpdate queue s) := by
  unfold execWredAverageUpdate
  (try dsimp only)
  repeat' first
    | with_reducible (first
        | exact OutKeeps.fault _ _ | apply OutKeeps.next | exact Keeps.refl _ | apply State.wredUpdate_keeps)
    | (with_reducible refine Keeps.ite (fun _ => ?_) (fun _ => ?_)) | split

theorem bufGetStatusBody_keeps {s0 s : State} (hK : Keeps s0 s) (r : Req) : Keeps s0 (bufGetStatusBody r s).1 := by
  unfold bufGetStatusBody
  (try dsimp only)
  repeat' first
    | with_reducible (first | exact hK | apply readCmd_keeps) | (intro _ hK; skip)

theorem bufGetPortBody_keeps {s0 s : State} (hK : Keeps s0 s) (r : Req) : Keeps s0 (bufGetPortBody r s).1 := by
  unfold bufGetPortBody
  (try dsimp only)
  repeat' first
    | with_reducible (first | exact hK | apply errCmd_keeps | apply okCmd_keeps | apply State.updPortClass_keeps)
    | (with_reducible refine Keeps.foldl _ (fun _ _ hK => ?_) _ ?_) | (intro _ hK; skip) | with_reducible assumption
    | (with_reducible refine Keeps.ite (fun _ => ?_) (fun _ => ?_)) | split

theorem bufGetCountersBody_keeps {s0 s : State} (hK : Keeps s0 s) (r : Req) : Keeps s0 (bufGetCountersBody r s).1 :=
    by
  unfold bufGetCountersBody
  (try dsimp only)
  repeat' first
    | with_reducible (first | exact hK | apply readCmd_keeps) | (intro _ hK; skip)

theorem bufGetPoolsBody_keeps {s0 s : State} (hK : Keeps s0 s) (r : Req) : Keeps s0 (bufGetPoolsBody r s).1 := by
  unfold bufGetPoolsBody
  (try dsimp only)
  repeat' first
    | with_reducible (first | exact hK | apply okCmd_keeps)
    | (with_reducible refine Keeps.foldl _ (fun _ _ hK => ?_) _ ?_) | (intro _ hK; skip) | with_reducible assumption
    | split | fail_if_no_progress with_reducible refine Keeps.fields ?_

theorem execBufSetClass_keeps (r : Req) (s : State) : OutKeeps s (execBufSetClass r s) := 
  mailboxCommand_keeps (fun hk => bufSetClassBody_keeps hk r)

theorem execBufSetPortClass_keeps (r : Req) (s : State) : OutKeeps s (execBufSetPortClass r s) := 
  mailboxCommand_keeps (fun hk => bufSetPortClassBody_keeps hk r)

theorem execBufSetHeadroom_keeps (r : Req) (s : State) : OutKeeps s (execBufSetHeadroom r s) := 
  mailboxCommand_keeps (fun hk => bufSetHeadroomBody_keeps hk r)

theorem execBufSetPfcTx_keeps (r : Req) (s : State) : OutKeeps s (execBufSetPfcTx r s) := 
  mailboxCommand_keeps (fun hk => bufSetPfcTxBody_keeps hk r)

theorem execBufSetWredProfile_keeps (r : Req) (s : State) : OutKeeps s (execBufSetWredProfile r s) := 
  mailboxCommand_keeps (fun hk => bufSetWredProfileBody_keeps hk r)

theorem execBufSetQueue_keeps (r : Req) (s : State) : OutKeeps s (execBufSetQueue r s) := 
  mailboxCommand_keeps (fun hk => bufSetQueueBody_keeps hk r)

theorem execBufGetStatus_keeps (r : Req) (s : State) : OutKeeps s (execBufGetStatus r s) := 
  mailboxCommand_keeps (fun hk => bufGetStatusBody_keeps hk r)

theorem execBufGetPort_keeps (r : Req) (s : State) : OutKeeps s (execBufGetPort r s) := 
  mailboxCommand_keeps (fun hk => bufGetPortBody_keeps hk r)

theorem execBufGetCounters_keeps (r : Req) (s : State) : OutKeeps s (execBufGetCounters r s) := 
  mailboxCommand_keeps (fun hk => bufGetCountersBody_keeps hk r)

theorem execBufGetPools_keeps (r : Req) (s : State) : OutKeeps s (execBufGetPools r s) := 
  mailboxCommand_keeps (fun hk => bufGetPoolsBody_keeps hk r)

theorem State.readIn_keeps {s0 s : State} (hK : Keeps s0 s) (sl : Nat) (v : Nat) (pk : Pkt) (q : PortClass) : Keeps s0
    (State.readIn s sl v pk q) := by
  unfold State.readIn
  (try dsimp only)
  repeat' first
    | with_reducible (first
        | exact hK | apply State.bumpBufAt_keeps | apply State.chargeQ_keeps | apply State.charge_keeps
        | apply State.dropUnfit_keeps | apply State.pushVoq_keeps | apply State.updPkt_keeps
        | apply State.updQueue_keeps | apply State.xoffSweep_keeps)
    | (with_reducible refine Keeps.foldl _ (fun _ _ hK => ?_) _ ?_) | (intro _ hK; skip)
    | with_reducible assumption | (with_reducible refine Keeps.ite (fun _ => ?_) (fun _ => ?_)) | split
    | fail_if_no_progress with_reducible refine Keeps.fields ?_

theorem State.readOne_keeps {s0 s : State} (hK : Keeps s0 s) (sl : Nat) (v : Nat) : Keeps s0 (State.readOne s sl v) :=
    by
  unfold State.readOne
  (try dsimp only)
  repeat' first
    | with_reducible (first
        | exact hK | apply State.bumpBuf_keeps | apply State.pushVoq_keeps | apply State.updPkt_keeps
        | apply State.updQueue_keeps | apply State.updVoq_keeps | apply State.xoffSweep_keeps
        | apply State.dropUnfit_keeps | apply State.readIn_keeps)
    | (intro _ hK; skip) | with_reducible assumption | (with_reducible refine Keeps.ite (fun _ => ?_) (fun _ => ?_))
    | split | fail_if_no_progress with_reducible refine Keeps.fields ?_

theorem State.readEnd_keeps {s0 s : State} (hK : Keeps s0 s) (sl : Nat) (v : Nat) : Keeps s0 (State.readEnd s sl v) :=
    by
  unfold State.readEnd
  (try dsimp only)
  repeat' first
    | with_reducible (first | exact hK | apply State.updVoq_keeps | apply State.leaveSpill_keeps) | (intro _ hK; skip) | with_reducible assumption
    | (with_reducible refine Keeps.ite (fun _ => ?_) (fun _ => ?_)) | split
    | fail_if_no_progress with_reducible refine Keeps.fields ?_

theorem State.readback_keeps {s0 s : State} (hK : Keeps s0 s) (sl : Nat) (v : Nat) : Keeps s0 (State.readback s sl v)
    := by
  unfold State.readback
  (try dsimp only)
  repeat' first
    | with_reducible (first
        | exact hK | apply State.readEnd_keeps | apply State.readOne_keeps | apply State.startFrames_keeps)
    | (with_reducible refine Keeps.foldl _ (fun _ _ hK => ?_) _ ?_) | (intro _ hK; skip) | with_reducible assumption
    | (with_reducible refine Keeps.ite (fun _ => ?_) (fun _ => ?_))

theorem execSpillReadback_keeps (slice : Nat) (voq : Nat) (s : State) : OutKeeps s (execSpillReadback slice voq s) :=
    by
  unfold execSpillReadback
  (try dsimp only)
  repeat' first
    | with_reducible (first
        | exact OutKeeps.fault _ _ | apply OutKeeps.next | exact Keeps.refl _ | apply State.readback_keeps)
    | (with_reducible refine Keeps.ite (fun _ => ?_) (fun _ => ?_)) | split

theorem execPoolAlloc_keeps (size : Nat) (block : Nat) (s : State) : OutKeeps s (execPoolAlloc size block s) := by
  unfold execPoolAlloc
  (try dsimp only)
  repeat' first
    | with_reducible (first
        | exact OutKeeps.fault _ _ | apply OutKeeps.next | exact Keeps.refl _ | apply State.poolAlloc_keeps)
    | (with_reducible refine Keeps.ite (fun _ => ?_) (fun _ => ?_)) | split
    | fail_if_no_progress with_reducible refine Keeps.fields ?_

theorem execPoolFree_keeps (ptr : Nat) (block : Nat) (s : State) : OutKeeps s (execPoolFree ptr block s) := by
  unfold execPoolFree
  (try dsimp only)
  repeat' first
    | with_reducible (first
        | exact OutKeeps.fault _ _ | apply OutKeeps.next | exact Keeps.refl _ | apply State.poolFree_keeps)

end Sys2Proof.Machine
end

