-- ==== Sys2Proof/Laws/KeepGates.lean ====
section
/-! SUPPORT. What the operations of Gates keep. -/

set_option Elab.async false
set_option linter.all false

namespace Sys2Proof.Machine

theorem State.gateDrop_keeps {s0 s : State} (hK : Keeps s0 s) (p : Nat) (pk : Pkt) (vv : GateVictim) : Keeps s0
    (State.gateDrop s p pk vv) := by
  cases vv <;> unfold State.gateDrop
  all_goals (try dsimp only)
  all_goals repeat' first
    | with_reducible (first
        | exact hK | apply State.countDrop_keeps | apply State.egDrop_keeps | apply State.pull_keeps
        | apply Res5.queued_keeps | apply State.release_keeps | apply State.updPkt_keeps)
    | (with_reducible refine Keeps.foldl _ (fun _ _ hK => ?_) _ ?_) | (intro _ hK; skip)

theorem State.gateReset_keeps {s0 s : State} (hK : Keeps s0 s) (p : Nat) : Keeps s0 (State.gateReset s p) := by
  unfold State.gateReset
  (try dsimp only)
  repeat' first
    | with_reducible (first
        | exact hK | apply State.bumpTime_keeps | apply State.egDrop_keeps | apply State.gateDrop_keeps
        | apply State.raise_keeps | apply State.updGate_keeps | apply State.updPort_keeps)
    | (with_reducible refine Keeps.foldl _ (fun _ _ hK => ?_) _ ?_) | (intro _ hK; skip) | with_reducible assumption
    | (with_reducible refine Keeps.ite (fun _ => ?_) (fun _ => ?_))

end Sys2Proof.Machine
end

