-- ==== Sys2Proof/Laws/KeepHostFifo.lean ====
section
/-! SUPPORT. What the operations of HostFifo keep. -/

set_option Elab.async false
set_option linter.all false

namespace Sys2Proof.Machine

theorem State.rewind_keeps {s0 s : State} (hK : Keeps s0 s) (f : Nat) : Keeps s0 (State.rewind s f) := by
  unfold State.rewind
  (try dsimp only)
  repeat' first
    | with_reducible (first | exact hK | apply State.updFifo_keeps)
    | (with_reducible refine Keeps.foldl _ (fun _ _ hK => ?_) _ ?_) | (intro _ hK; skip)
    | with_reducible assumption | (with_reducible refine Keeps.ite (fun _ => ?_) (fun _ => ?_)) | split
    | fail_if_no_progress with_reducible refine Keeps.fields ?_

theorem State.countNode_keeps {s0 s : State} (hK : Keeps s0 s) (n : Nat) (len : Nat) : Keeps s0 (State.countNode s n
    len) := by
  unfold State.countNode
  (try dsimp only)
  repeat' first
    | with_reducible (first | exact hK | apply State.updNode_keeps)
    | (with_reducible refine Keeps.foldl _ (fun _ _ hK => ?_) _ ?_) | (intro _ hK; skip)
    | with_reducible assumption | (with_reducible refine Keeps.ite (fun _ => ?_) (fun _ => ?_)) | split
    | fail_if_no_progress with_reducible refine Keeps.fields ?_

theorem State.hostCommit_keeps {s0 s : State} (hK : Keeps s0 s) (h : Nat) : Keeps s0 (State.hostCommit s h) := by
  unfold State.hostCommit
  (try dsimp only)
  repeat' first
    | with_reducible (first
        | exact hK | apply State.complete_keeps | apply State.countDrop_keeps | apply State.egLeave_keeps
        | apply State.egMirror_keeps | apply State.rewind_keeps | apply State.updFifo_keeps
        | apply State.updPort_keeps | apply State.countNode_keeps | apply State.endTrap_keeps)
    | (intro _ hK; skip) | with_reducible assumption | (with_reducible refine Keeps.ite (fun _ => ?_) (fun _ => ?_))
    | split | fail_if_no_progress with_reducible refine Keeps.fields ?_

theorem State.hostEnter_keeps {s0 s : State} (hK : Keeps s0 s) (pk : Pkt) : Keeps s0 (State.hostEnter s pk) := by
  unfold State.hostEnter
  (try dsimp only)
  repeat' first
    | with_reducible (first
        | exact hK | apply State.toAdmission_keeps | apply State.countDrop_keeps | apply State.firstPass_keeps
        | apply State.release_keeps)
    | (with_reducible refine Keeps.ite (fun _ => ?_) (fun _ => ?_)) | split
    | fail_if_no_progress with_reducible refine Keeps.fields ?_

theorem State.hostInOne_keeps {s0 s : State} (hK : Keeps s0 s) (h : Nat) : Keeps s0 (State.hostInOne s h) := by
  unfold State.hostInOne
  (try dsimp only)
  repeat' first
    | with_reducible (first | exact hK | apply State.hostEnter_keeps | apply State.updFifo_keeps)
    | (with_reducible refine Keeps.ite (fun _ => ?_) (fun _ => ?_)) | split

theorem State.hostIn_keeps {s0 s : State} (hK : Keeps s0 s) (h : Nat) : Keeps s0 (State.hostIn s h) := by
  unfold State.hostIn
  (try dsimp only)
  repeat' first
    | with_reducible (first | exact hK | apply State.hostInOne_keeps)
    | (with_reducible refine Keeps.foldl _ (fun _ _ hK => ?_) _ ?_) | (intro _ hK; skip)

theorem State.hostInAll_keeps {s0 s : State} (hK : Keeps s0 s) : Keeps s0 (State.hostInAll s) := by
  unfold State.hostInAll
  (try dsimp only)
  repeat' first
    | with_reducible (first | exact hK | apply State.hostIn_keeps)
    | (with_reducible refine Keeps.foldl _ (fun _ _ hK => ?_) _ ?_)

theorem State.fromHostCommit_keeps {s0 s : State} (hK : Keeps s0 s) (h : Nat) : Keeps s0 (State.fromHostCommit s h) :=
    by
  unfold State.fromHostCommit
  (try dsimp only)
  repeat' first
    | with_reducible (first | exact hK | apply State.hostIn_keeps | apply State.updFifo_keeps) | (intro _ hK; skip)
    | with_reducible assumption | (with_reducible refine Keeps.ite (fun _ => ?_) (fun _ => ?_)) | split

theorem execHpfPacketCommit_keeps (fifo : Nat) (s : State) : OutKeeps s (execHpfPacketCommit fifo s) := by
  unfold execHpfPacketCommit
  (try dsimp only)
  repeat' first
    | with_reducible (first
        | exact OutKeeps.fault _ _ | apply OutKeeps.next | exact Keeps.refl _ | apply State.fromHostCommit_keeps
        | apply State.hostCommit_keeps)
    | (with_reducible refine Keeps.ite (fun _ => ?_) (fun _ => ?_)) | split

end Sys2Proof.Machine
end

