-- ==== Sys2Proof/Laws/KeepPtpTx.lean ====
section
/-! SUPPORT. What the operations of PtpTx keep. -/

set_option Elab.async false
set_option linter.all false

namespace Sys2Proof.Machine

theorem State.capture_keeps {s0 s : State} (hK : Keeps s0 s) (p : Nat) (tx : Nat) (b : List Byte) (o : Nat) : Keeps s0
    (State.capture s p tx b o) := by
  unfold State.capture
  (try dsimp only)
  repeat' first
    | with_reducible (first
        | exact hK | apply State.bumpTime_keeps | apply State.interrupt_keeps | apply State.raiseLimited_keeps
        | apply State.updPort_keeps | apply State.updTsFifo_keeps)
    | (intro _ hK; skip) | with_reducible assumption | (with_reducible refine Keeps.ite (fun _ => ?_) (fun _ => ?_))

theorem State.captureOf_keeps {s0 s : State} (hK : Keeps s0 s) (p : Nat) (b : List Byte) (tx : Nat) : Keeps s0
    (State.captureOf s p b tx) := by
  unfold State.captureOf
  (try dsimp only)
  repeat' first
    | with_reducible (first | exact hK | apply State.capture_keeps)
    | (with_reducible refine Keeps.foldl _ (fun _ _ hK => ?_) _ ?_) | (intro _ hK; skip)
    | with_reducible assumption | (with_reducible refine Keeps.ite (fun _ => ?_) (fun _ => ?_)) | split
    | fail_if_no_progress with_reducible refine Keeps.fields ?_

theorem State.ptpOut_keeps {s0 s : State} (hK : Keeps s0 s) (p : Nat) (b : List Byte) : Keeps s0 (State.ptpOut s p b)
    := by
  unfold State.ptpOut
  (try dsimp only)
  repeat' first
    | with_reducible (first
        | exact hK | apply State.bumpTime_keeps | apply State.capture_keeps | apply State.drawn_keeps
        | apply State.ptpSent_keeps | apply State.sendNow_keeps)
    | (with_reducible refine Keeps.foldl _ (fun _ _ hK => ?_) _ ?_) | (intro _ hK; skip)
    | with_reducible assumption | (with_reducible refine Keeps.ite (fun _ => ?_) (fun _ => ?_)) | split
    | fail_if_no_progress with_reducible refine Keeps.fields ?_

theorem State.sendOwn_keeps {s0 s : State} (hK : Keeps s0 s) (p : Nat) (o : Output) : Keeps s0 (State.sendOwn s p o)
    := by
  unfold State.sendOwn
  (try dsimp only)
  repeat' first
    | with_reducible (first | exact hK | apply State.ptpOut_keeps | apply State.sendNow_keeps)
    | (with_reducible refine Keeps.foldl _ (fun _ _ hK => ?_) _ ?_) | (intro _ hK; skip)
    | with_reducible assumption | (with_reducible refine Keeps.ite (fun _ => ?_) (fun _ => ?_)) | split
    | fail_if_no_progress with_reducible refine Keeps.fields ?_

end Sys2Proof.Machine
end

