-- ==== Sys2Proof/Laws/KeepSched.lean ====
section
/-! SUPPORT. What the operations of Sched keep. -/

set_option Elab.async false
set_option linter.all false

namespace Sys2Proof.Machine

theorem State.commitTx_keeps {s0 s : State} (hK : Keeps s0 s) (parent : Nat) (kid : Nat → Nat) (r : Nat × Nat × List
    Nat) : Keeps s0 (State.commitTx s parent kid r) := by
  unfold State.commitTx
  (try dsimp only)
  repeat' first
    | with_reducible (first | exact hK | apply State.updNode_keeps)
    | (with_reducible refine Keeps.foldl _ (fun _ _ hK => ?_) _ ?_) | (intro _ hK; skip)

theorem State.chargeNode_keeps {s0 s : State} (hK : Keeps s0 s) (n : Nat) (len : Nat) : Keeps s0 (State.chargeNode s n
    len) := by
  unfold State.chargeNode
  (try dsimp only)
  repeat' first
    | with_reducible (first | exact hK | apply State.updNode_keeps) | (intro _ hK; skip)
    | (with_reducible refine Keeps.ite (fun _ => ?_) (fun _ => ?_))

theorem State.countHolds_keeps {s0 s : State} (hK : Keeps s0 s) (p : Nat) : Keeps s0 (State.countHolds s p) := by
  unfold State.countHolds
  (try dsimp only)
  repeat' first
    | with_reducible (first | exact hK | apply State.bumpSched_keeps | apply State.bumpSchedAt_keeps) | (intro _ hK; skip)

theorem State.countGateHeld_keeps {s0 s : State} (hK : Keeps s0 s) (p : Nat) : Keeps s0 (State.countGateHeld s p) :=
    by
  unfold State.countGateHeld
  (try dsimp only)
  repeat' first
    | with_reducible (first
        | exact hK | apply State.bumpTime_keeps | apply State.complete_keeps | apply State.updGate_keeps)
    | (intro _ hK; skip) | with_reducible assumption | (with_reducible refine Keeps.ite (fun _ => ?_) (fun _ => ?_))

theorem State.flushWait_keeps {s0 s : State} (hK : Keeps s0 s) (p : Nat) : Keeps s0 (State.flushWait s p) := by
  unfold State.flushWait
  (try dsimp only)
  repeat' first
    | with_reducible (first
        | exact hK | apply State.sendOwn_keeps | apply State.updPort_keeps | apply State.setWaiting_keeps)
    | (with_reducible refine Keeps.foldl _ (fun _ _ hK => ?_) _ ?_) | (intro _ hK; skip)
    | with_reducible assumption | (with_reducible refine Keeps.ite (fun _ => ?_) (fun _ => ?_)) | split
    | fail_if_no_progress with_reducible refine Keeps.fields ?_

theorem State.txStart_keeps {s0 s : State} (hK : Keeps s0 s) (p : Nat) (k : Nat) : Keeps s0 (State.txStart s p k) :=
    by
  unfold State.txStart
  (try dsimp only)
  repeat' first
    | with_reducible (first
        | exact hK | apply State.bumpSched_keeps | apply State.bumpTime_keeps | apply State.captureOf_keeps
        | apply State.drawn_keeps | apply State.setEgq_keeps | apply State.updGate_keeps | apply State.updPort_keeps
        | apply State.bumpSchedAt_keeps)
    | (intro _ hK; skip) | with_reducible assumption | (with_reducible refine Keeps.ite (fun _ => ?_) (fun _ => ?_))
    | split

theorem State.txNetwork_keeps {s0 s : State} (hK : Keeps s0 s) (p : Nat) : Keeps s0 (State.txNetwork s p) := by
  unfold State.txNetwork
  (try dsimp only)
  repeat' first
    | with_reducible (first
        | exact hK | apply State.chargeNode_keeps | apply State.commitTx_keeps | apply State.countGateHeld_keeps
        | apply State.countHolds_keeps | apply State.txStart_keeps)
    | split

theorem State.txHost_keeps {s0 s : State} (hK : Keeps s0 s) (p : Nat) : Keeps s0 (State.txHost s p) := by
  unfold State.txHost
  (try dsimp only)
  repeat' first
    | with_reducible (first
        | exact hK | apply State.bumpSched_keeps | apply State.chargeNode_keeps | apply State.txStart_keeps
        | apply State.updFifo_keeps | apply State.bumpSchedAt_keeps)
    | (intro _ hK; skip) | with_reducible assumption | (with_reducible refine Keeps.ite (fun _ => ?_) (fun _ => ?_))
    | split

theorem execTransmitDecision_keeps (port : Nat) (s : State) : OutKeeps s (execTransmitDecision port s) := by
  unfold execTransmitDecision
  (try dsimp only)
  repeat' first
    | with_reducible (first
        | exact OutKeeps.fault _ _ | apply OutKeeps.next | exact Keeps.refl _ | apply State.flushCtl_keeps
        | apply State.txHost_keeps | apply State.txNetwork_keeps | apply State.flushWait_keeps)
    | (with_reducible refine Keeps.foldl _ (fun _ _ hK => ?_) _ ?_) | (intro _ hK; skip)
    | with_reducible assumption | (with_reducible refine Keeps.ite (fun _ => ?_) (fun _ => ?_)) | split
    | fail_if_no_progress with_reducible refine Keeps.fields ?_

theorem State.txDone_keeps {s0 s : State} (hK : Keeps s0 s) (p : Nat) (i : EgItem) : Keeps s0 (State.txDone s p i) :=
    by
  unfold State.txDone
  (try dsimp only)
  repeat' first
    | with_reducible (first
        | exact hK | apply State.bumpPort_keeps | apply State.countNode_keeps | apply State.egLeave_keeps
        | apply State.egMirror_keeps | apply State.emit_keeps | apply State.flushCtl_keeps
        | apply State.updPort_keeps | apply State.bumpTime_keeps)
    | (intro _ hK; skip)

theorem execFrameTxComplete_keeps (port : Nat) (s : State) : OutKeeps s (execFrameTxComplete port s) := by
  unfold execFrameTxComplete
  (try dsimp only)
  repeat' first
    | with_reducible (first
        | exact OutKeeps.fault _ _ | apply OutKeeps.next | exact Keeps.refl _ | apply State.complete_keeps
        | apply State.hostCommit_keeps | apply State.txDone_keeps)
    | (intro _ hK; skip) | with_reducible assumption | (with_reducible refine Keeps.ite (fun _ => ?_) (fun _ => ?_))
    | split

theorem State.commitGr_keeps {s0 s : State} (hK : Keeps s0 s) (parent : Nat) (kid : Nat → Nat) (r : Nat × Nat × List
    Nat) : Keeps s0 (State.commitGr s parent kid r) := by
  unfold State.commitGr
  (try dsimp only)
  repeat' first
    | with_reducible (first | exact hK | apply State.updNode_keeps)
    | (with_reducible refine Keeps.foldl _ (fun _ _ hK => ?_) _ ?_) | (intro _ hK; skip)

theorem State.grSettle_keeps {s0 s : State} (hK : Keeps s0 s) (p : Nat) (c : Nat) (t : Nat) : Keeps s0 (State.grSettle
    s p c t) := by
  unfold State.grSettle
  (try dsimp only)
  repeat' first
    | with_reducible (first | exact hK | apply State.updNode_keeps)
    | (with_reducible refine Keeps.foldl _ (fun _ _ hK => ?_) _ ?_) | (intro _ hK; skip)
    | with_reducible assumption | (with_reducible refine Keeps.ite (fun _ => ?_) (fun _ => ?_)) | split
    | fail_if_no_progress with_reducible refine Keeps.fields ?_

theorem State.grantTo_keeps {s0 s : State} (hK : Keeps s0 s) (p : Nat) (c : Nat) (t : Nat) : Keeps s0 (State.grantTo s
    p c t) := by
  unfold State.grantTo
  (try dsimp only)
  repeat' first
    | with_reducible (first
        | exact hK | apply State.bumpFab_keeps | apply State.updFabPort_keeps | apply State.updNode_keeps
        | apply State.updVoq_keeps | apply State.bumpFabAt_keeps)
    | (intro _ hK; skip) | with_reducible assumption | split

theorem State.grantNetwork_keeps {s0 s : State} (hK : Keeps s0 s) (p : Nat) : Keeps s0 (State.grantNetwork s p) := by
  unfold State.grantNetwork
  (try dsimp only)
  repeat' first
    | with_reducible (first
        | exact hK | apply State.commitGr_keeps | apply State.grantTo_keeps | apply State.grSettle_keeps)
    | (with_reducible refine Keeps.ite (fun _ => ?_) (fun _ => ?_)) | split

theorem State.grantHost_keeps {s0 s : State} (hK : Keeps s0 s) (p : Nat) : Keeps s0 (State.grantHost s p) := by
  unfold State.grantHost
  (try dsimp only)
  repeat' first
    | with_reducible (first | exact hK | apply State.grantTo_keeps) | (intro _ hK; skip) | with_reducible assumption
    | (with_reducible refine Keeps.ite (fun _ => ?_) (fun _ => ?_)) | split

theorem execGrantDecision_keeps (port : Nat) (s : State) : OutKeeps s (execGrantDecision port s) := by
  unfold execGrantDecision
  (try dsimp only)
  repeat' first
    | with_reducible (first
        | exact OutKeeps.fault _ _ | apply OutKeeps.next | exact Keeps.refl _ | apply State.grantHost_keeps
        | apply State.grantNetwork_keeps)
    | (with_reducible refine Keeps.ite (fun _ => ?_) (fun _ => ?_)) | split

theorem execShaperRefill_keeps (node : Nat) (s : State) : OutKeeps s (execShaperRefill node s) := by
  unfold execShaperRefill
  (try dsimp only)
  repeat' first
    | with_reducible (first
        | exact OutKeeps.fault _ _ | apply OutKeeps.next | exact Keeps.refl _ | apply State.drawn_keeps
        | apply State.updNode_keeps)
    | (intro _ hK; skip) | with_reducible assumption | (with_reducible refine Keeps.ite (fun _ => ?_) (fun _ => ?_))
    | split

theorem execPolicerRefill_keeps (pol : Nat) (s : State) : OutKeeps s (execPolicerRefill pol s) := by
  unfold execPolicerRefill
  (try dsimp only)
  repeat' first
    | with_reducible (first
        | exact OutKeeps.fault _ _ | apply OutKeeps.next | exact Keeps.refl _ | apply State.drawn_keeps
        | apply State.updPolicer_keeps)
    | (intro _ hK; skip) | with_reducible assumption | (with_reducible refine Keeps.ite (fun _ => ?_) (fun _ => ?_))
    | split

theorem applySchedSetNode_keeps {s0 s : State} (hK : Keeps s0 s) (p : List Byte) : Keeps s0 (applySchedSetNode p s) :=
    by
  unfold applySchedSetNode
  (try dsimp only)
  repeat' first
    | with_reducible (first | exact hK | apply State.updNode_keeps)
    | (with_reducible refine Keeps.foldl _ (fun _ _ hK => ?_) _ ?_) | (intro _ hK; skip)
    | with_reducible assumption | (with_reducible refine Keeps.ite (fun _ => ?_) (fun _ => ?_)) | split
    | fail_if_no_progress with_reducible refine Keeps.fields ?_

theorem schedSetNodeBody_keeps {s0 s : State} (hK : Keeps s0 s) (r : Req) : Keeps s0 (schedSetNodeBody r s).1 := by
  unfold schedSetNodeBody
  (try dsimp only)
  repeat' first
    | with_reducible exact hK | exact setCmd_keeps (fun p hk => applySchedSetNode_keeps hk p) hK r

theorem schedGetNodeBody_keeps {s0 s : State} (hK : Keeps s0 s) (r : Req) : Keeps s0 (schedGetNodeBody r s).1 := by
  unfold schedGetNodeBody
  (try dsimp only)
  repeat' first
    | with_reducible (first | exact hK | apply readCmd_keeps) | (intro _ hK; skip)
    | (with_reducible refine Keeps.ite (fun _ => ?_) (fun _ => ?_))

theorem applyPolSet_keeps {s0 s : State} (hK : Keeps s0 s) (p : List Byte) : Keeps s0 (applyPolSet p s) := by
  unfold applyPolSet
  (try dsimp only)
  repeat' first
    | with_reducible (first | exact hK | apply State.updPolicer_keeps)
    | (with_reducible refine Keeps.foldl _ (fun _ _ hK => ?_) _ ?_) | (intro _ hK; skip)
    | with_reducible assumption | (with_reducible refine Keeps.ite (fun _ => ?_) (fun _ => ?_)) | split
    | fail_if_no_progress with_reducible refine Keeps.fields ?_

theorem polSetBody_keeps {s0 s : State} (hK : Keeps s0 s) (r : Req) : Keeps s0 (polSetBody r s).1 := by
  unfold polSetBody
  (try dsimp only)
  repeat' first
    | with_reducible exact hK | exact setCmd_keeps (fun p hk => applyPolSet_keeps hk p) hK r

theorem polGetBody_keeps {s0 s : State} (hK : Keeps s0 s) (r : Req) : Keeps s0 (polGetBody r s).1 := by
  unfold polGetBody
  (try dsimp only)
  repeat' first
    | with_reducible (first | exact hK | apply readCmd_keeps) | (intro _ hK; skip)
    | (with_reducible refine Keeps.ite (fun _ => ?_) (fun _ => ?_))

theorem applyPolSetPort_keeps {s0 s : State} (hK : Keeps s0 s) (p : List Byte) : Keeps s0 (applyPolSetPort p s) := by
  unfold applyPolSetPort
  (try dsimp only)
  repeat' first
    | with_reducible (first | exact hK | apply State.updPort_keeps)
    | (with_reducible refine Keeps.foldl _ (fun _ _ hK => ?_) _ ?_) | (intro _ hK; skip)
    | with_reducible assumption | (with_reducible refine Keeps.ite (fun _ => ?_) (fun _ => ?_)) | split
    | fail_if_no_progress with_reducible refine Keeps.fields ?_

theorem polSetPortBody_keeps {s0 s : State} (hK : Keeps s0 s) (r : Req) : Keeps s0 (polSetPortBody r s).1 := by
  unfold polSetPortBody
  (try dsimp only)
  repeat' first
    | with_reducible exact hK | exact setCmd_keeps (fun p hk => applyPolSetPort_keeps hk p) hK r

theorem schedGetCountersBody_keeps {s0 s : State} (hK : Keeps s0 s) (r : Req) : Keeps s0 (schedGetCountersBody r s).1
    := by
  unfold schedGetCountersBody
  (try dsimp only)
  repeat' first
    | with_reducible (first | exact hK | apply readCmd_keeps) | (intro _ hK; skip)

theorem execSchedSetNode_keeps (r : Req) (s : State) : OutKeeps s (execSchedSetNode r s) := 
  mailboxCommand_keeps (fun hk => schedSetNodeBody_keeps hk r)

theorem execSchedGetNode_keeps (r : Req) (s : State) : OutKeeps s (execSchedGetNode r s) := 
  mailboxCommand_keeps (fun hk => schedGetNodeBody_keeps hk r)

theorem execPolSet_keeps (r : Req) (s : State) : OutKeeps s (execPolSet r s) := 
  mailboxCommand_keeps (fun hk => polSetBody_keeps hk r)

theorem execPolGet_keeps (r : Req) (s : State) : OutKeeps s (execPolGet r s) := 
  mailboxCommand_keeps (fun hk => polGetBody_keeps hk r)

theorem execPolSetPort_keeps (r : Req) (s : State) : OutKeeps s (execPolSetPort r s) := 
  mailboxCommand_keeps (fun hk => polSetPortBody_keeps hk r)

theorem execSchedGetCounters_keeps (r : Req) (s : State) : OutKeeps s (execSchedGetCounters r s) := 
  mailboxCommand_keeps (fun hk => schedGetCountersBody_keeps hk r)

end Sys2Proof.Machine
end

