-- ==== Sys2Proof/Laws/KeepLoupe.lean ====
section
/-! SUPPORT. What the operations of Loupe keep. -/

set_option Elab.async false
set_option linter.all false

namespace Sys2Proof.Machine

theorem State.loupeEvent_keeps {s0 s : State} (hK : Keeps s0 s) (rcd : List Byte) (alarm : Nat) (a : Bool × Nat × Bool
    × Bool) : Keeps s0 (State.loupeEvent s rcd alarm a) := by
  unfold State.loupeEvent
  (try dsimp only)
  repeat' first
    | with_reducible (first
        | exact hK | apply State.bumpSched_keeps | apply State.raise_keeps | apply State.bumpSchedAt_keeps)
    | (with_reducible refine Keeps.ite (fun _ => ?_) (fun _ => ?_))

theorem State.loupeWrite_keeps {s0 s : State} (hK : Keeps s0 s) (rcd : List Byte) : Keeps s0 (State.loupeWrite s rcd)
    := by
  unfold State.loupeWrite
  (try dsimp only)
  repeat' first
    | with_reducible (first
        | exact hK | apply State.bumpSched_keeps | apply State.emit_keeps | apply State.interrupt_keeps
        | apply State.bumpSchedAt_keeps)
    | (with_reducible refine Keeps.ite (fun _ => ?_) (fun _ => ?_)) | split
    | fail_if_no_progress with_reducible refine Keeps.fields ?_

theorem State.loupeSample_keeps {s0 s : State} (hK : Keeps s0 s) (sl : Nat) (o : Nat) : Keeps s0 (State.loupeSample s
    sl o) := by
  unfold State.loupeSample
  (try dsimp only)
  repeat' first
    | with_reducible (first
        | exact hK | apply State.bumpSched_keeps | apply State.loupeEvent_keeps | apply State.loupeWrite_keeps
        | apply State.bumpSchedAt_keeps)
    | (intro _ hK; skip) | with_reducible assumption | (with_reducible refine Keeps.ite (fun _ => ?_) (fun _ => ?_))
    | split | fail_if_no_progress with_reducible refine Keeps.fields ?_

theorem execLoupeSample_keeps (slice : Nat) (s : State) : OutKeeps s (execLoupeSample slice s) := by
  unfold execLoupeSample
  (try dsimp only)
  repeat' first
    | with_reducible (first
        | exact OutKeeps.fault _ _ | apply OutKeeps.next | exact Keeps.refl _ | apply State.loupeSample_keeps)
    | (with_reducible refine Keeps.ite (fun _ => ?_) (fun _ => ?_)) | split

theorem applyLoupeSetProfile_keeps {s0 s : State} (hK : Keeps s0 s) (p : List Byte) : Keeps s0 (applyLoupeSetProfile p
    s) := by
  unfold applyLoupeSetProfile
  (try dsimp only)
  repeat' first
    | with_reducible exact hK | (intro _ hK; skip) | with_reducible assumption
    | (with_reducible refine Keeps.ite (fun _ => ?_) (fun _ => ?_)) | split
    | fail_if_no_progress with_reducible refine Keeps.fields ?_

theorem loupeSetProfileBody_keeps {s0 s : State} (hK : Keeps s0 s) (r : Req) : Keeps s0 (loupeSetProfileBody r s).1 :=
    by
  unfold loupeSetProfileBody
  (try dsimp only)
  repeat' first
    | with_reducible exact hK | exact setCmd_keeps (fun p hk => applyLoupeSetProfile_keeps hk p) hK r

theorem applyLoupeSetQueue_keeps {s0 s : State} (hK : Keeps s0 s) (p : List Byte) : Keeps s0 (applyLoupeSetQueue p s)
    := by
  unfold applyLoupeSetQueue
  (try dsimp only)
  repeat' first
    | with_reducible exact hK | (with_reducible refine Keeps.foldl _ (fun _ _ hK => ?_) _ ?_) | (intro _ hK; skip)
    | with_reducible assumption | split | fail_if_no_progress with_reducible refine Keeps.fields ?_

theorem loupeSetQueueBody_keeps {s0 s : State} (hK : Keeps s0 s) (r : Req) : Keeps s0 (loupeSetQueueBody r s).1 := by
  unfold loupeSetQueueBody
  (try dsimp only)
  repeat' first
    | with_reducible exact hK | exact setCmd_keeps (fun p hk => applyLoupeSetQueue_keeps hk p) hK r

theorem loupeGetBody_keeps {s0 s : State} (hK : Keeps s0 s) (r : Req) : Keeps s0 (loupeGetBody r s).1 := by
  unfold loupeGetBody
  (try dsimp only)
  repeat' first
    | with_reducible (first | exact hK | apply errCmd_keeps | apply okCmd_keeps) | (intro _ hK; skip)
    | with_reducible assumption | split | fail_if_no_progress with_reducible refine Keeps.fields ?_

theorem execLoupeSetProfile_keeps (r : Req) (s : State) : OutKeeps s (execLoupeSetProfile r s) := 
  mailboxCommand_keeps (fun hk => loupeSetProfileBody_keeps hk r)

theorem execLoupeSetQueue_keeps (r : Req) (s : State) : OutKeeps s (execLoupeSetQueue r s) := 
  mailboxCommand_keeps (fun hk => loupeSetQueueBody_keeps hk r)

theorem execLoupeGet_keeps (r : Req) (s : State) : OutKeeps s (execLoupeGet r s) := 
  mailboxCommand_keeps (fun hk => loupeGetBody_keeps hk r)

end Sys2Proof.Machine
end

