-- ==== Sys2Proof/Laws/KeepFabric.lean ====
section
/-! SUPPORT. What the operations of Fabric keep. -/

set_option Elab.async false
set_option linter.all false

namespace Sys2Proof.Machine

theorem execVoqRequest_keeps (slice : Nat) (voq : Nat) (s : State) : OutKeeps s (execVoqRequest slice voq s) := by
  unfold execVoqRequest
  (try dsimp only [onVoq])
  repeat' first
    | with_reducible (first
        | exact OutKeeps.fault _ _ | apply OutKeeps.next | exact Keeps.refl _ | apply State.updVoq_keeps)
    | (with_reducible refine Keeps.ite (fun _ => ?_) (fun _ => ?_)) | split

theorem execGrantReceived_keeps (slice : Nat) (voq : Nat) (s : State) : OutKeeps s (execGrantReceived slice voq s) :=
    by
  unfold execGrantReceived
  (try dsimp only [onVoq])
  repeat' first
    | with_reducible (first
        | exact OutKeeps.fault _ _ | apply OutKeeps.next | exact Keeps.refl _ | apply State.returnCredit_keeps
        | apply State.startFrames_keeps | apply State.updVoq_keeps | apply State.standBy_keeps)
    | (with_reducible refine Keeps.foldl _ (fun _ _ hK => ?_) _ ?_) | (intro _ hK; skip)
    | with_reducible assumption | (with_reducible refine Keeps.ite (fun _ => ?_) (fun _ => ?_)) | split
    | fail_if_no_progress with_reducible refine Keeps.fields ?_

theorem State.giveStanding_keeps {s0 s : State} (hK : Keeps s0 s) (sl : Nat) (v : Nat) : Keeps s0 (State.giveStanding
    s sl v) := by
  unfold State.giveStanding
  (try dsimp only)
  repeat' first
    | with_reducible (first | exact hK | apply State.returnCredit_keeps)
    | (with_reducible refine Keeps.ite (fun _ => ?_) (fun _ => ?_))

theorem execStandingCreditTimeout_keeps (slice : Nat) (voq : Nat) (s : State) : OutKeeps s (execStandingCreditTimeout
    slice voq s) := by
  unfold execStandingCreditTimeout
  (try dsimp only [onVoq])
  repeat' first
    | with_reducible (first
        | exact OutKeeps.fault _ _ | apply OutKeeps.next | exact Keeps.refl _ | apply State.giveStanding_keeps)
    | split

theorem execCreditRecall_keeps (slice : Nat) (voq : Nat) (s : State) : OutKeeps s (execCreditRecall slice voq s) := by
  unfold execCreditRecall
  (try dsimp only [onVoq])
  repeat' first
    | with_reducible (first
        | exact OutKeeps.fault _ _ | apply OutKeeps.next | exact Keeps.refl _ | apply State.giveStanding_keeps)
    | split

theorem execCreditReturnReceived_keeps (slice : Nat) (voq : Nat) (s : State) : OutKeeps s (execCreditReturnReceived
    slice voq s) := by
  unfold execCreditReturnReceived
  (try dsimp only [onVoq])
  repeat' first
    | with_reducible (first
        | exact OutKeeps.fault _ _ | apply OutKeeps.next | exact Keeps.refl _ | apply State.matchCredit_keeps
        | apply State.updVoq_keeps)
    | (intro _ hK; skip) | with_reducible assumption | split

theorem State.sendNext_keeps {s0 s : State} (hK : Keeps s0 s) (sl : Nat) : Keeps s0 (State.sendNext s sl) := by
  unfold State.sendNext
  (try dsimp only)
  repeat' first
    | with_reducible (first | exact hK | apply State.sendCell_keeps) | (intro _ hK; skip) | with_reducible assumption
    | split | fail_if_no_progress with_reducible refine Keeps.fields ?_

theorem execCellSend_keeps (slice : Nat) (s : State) : OutKeeps s (execCellSend slice s) := by
  unfold execCellSend
  (try dsimp only)
  repeat' first
    | with_reducible (first
        | exact OutKeeps.fault _ _ | apply OutKeeps.next | exact Keeps.refl _ | apply State.bumpFab_keeps
        | apply State.sendNext_keeps | apply State.startMulti_keeps | apply State.bumpFabAt_keeps)
    | (with_reducible refine Keeps.foldl _ (fun _ _ hK => ?_) _ ?_) | (intro _ hK; skip)
    | with_reducible assumption | (with_reducible refine Keeps.ite (fun _ => ?_) (fun _ => ?_)) | split
    | fail_if_no_progress with_reducible refine Keeps.fields ?_

theorem State.setPlane_keeps {s0 s : State} (hK : Keeps s0 s) (p : Nat) (f : Plane → Plane) : Keeps s0 (State.setPlane
    s p f) := by
  unfold State.setPlane
  (try dsimp only)
  repeat' first
    | with_reducible (first | exact hK | apply State.healthIf_keeps | apply State.updPlane_keeps)

theorem State.failPlane_keeps {s0 s : State} (hK : Keeps s0 s) (p : Nat) (cause : Nat) : Keeps s0 (State.failPlane s p
    cause) := by
  unfold State.failPlane
  (try dsimp only)
  repeat' first
    | with_reducible (first
        | exact hK | apply State.raise_keeps | apply State.raiseIf_keeps | apply State.repairAdd_keeps
        | apply State.setPlane_keeps | apply State.updPlane_keeps)
    | (intro _ hK; skip) | with_reducible assumption | (with_reducible refine Keeps.ite (fun _ => ?_) (fun _ => ?_))
    | split | fail_if_no_progress with_reducible refine Keeps.fields ?_

theorem execPlaneFault_keeps (plane : Nat) (cause : Nat) (s : State) : OutKeeps s (execPlaneFault plane cause s) := by
  unfold execPlaneFault
  (try dsimp only)
  repeat' first
    | with_reducible (first
        | exact OutKeeps.fault _ _ | apply OutKeeps.next | exact Keeps.refl _ | apply State.failPlane_keeps)
    | (with_reducible refine Keeps.ite (fun _ => ?_) (fun _ => ?_)) | split

theorem State.planeJoin_keeps {s0 s : State} (hK : Keeps s0 s) (p : Nat) : Keeps s0 (State.planeJoin s p) := by
  unfold State.planeJoin
  (try dsimp only)
  repeat' first
    | with_reducible (first
        | exact hK | apply State.bumpFab_keeps | apply State.raise_keeps | apply State.setPlane_keeps)
    | (intro _ hK; skip)

theorem execPlaneSwitchoverDone_keeps (s : State) : OutKeeps s (execPlaneSwitchoverDone s) := by
  unfold execPlaneSwitchoverDone
  (try dsimp only)
  repeat' first
    | with_reducible (first
        | exact OutKeeps.fault _ _ | apply OutKeeps.next | exact Keeps.refl _ | apply State.planeJoin_keeps)
    | (intro _ hK; skip) | with_reducible assumption | split

theorem execStandbyTestLoss_keeps (plane : Nat) (s : State) : OutKeeps s (execStandbyTestLoss plane s) := by
  unfold execStandbyTestLoss
  (try dsimp only)
  repeat' first
    | with_reducible (first
        | exact OutKeeps.fault _ _ | apply OutKeeps.next | exact Keeps.refl _ | apply State.bumpFab_keeps
        | apply State.raise_keeps | apply State.repairAdd_keeps | apply State.setPlane_keeps
        | apply State.updPlane_keeps)
    | (intro _ hK; skip) | with_reducible assumption | (with_reducible refine Keeps.ite (fun _ => ?_) (fun _ => ?_))
    | split

theorem execPlaneResyncDone_keeps (plane : Nat) (pass : Bool) (s : State) : OutKeeps s (execPlaneResyncDone plane pass
    s) := by
  unfold execPlaneResyncDone
  (try dsimp only)
  repeat' first
    | with_reducible (first
        | exact OutKeeps.fault _ _ | apply OutKeeps.next | exact Keeps.refl _ | apply State.complete_keeps
        | apply State.repairDel_keeps | apply State.setPlane_keeps)
    | (intro _ hK; skip) | with_reducible assumption | (with_reducible refine Keeps.ite (fun _ => ?_) (fun _ => ?_))
    | split

theorem State.mapLinks_keeps {s0 s : State} (hK : Keeps s0 s) (f : LinkCell → Bool) (g : LinkCell → List LinkCell) :
    Keeps s0 (State.mapLinks s f g) :=
  hK.upd rfl

theorem execCellArrived_keeps (link : Nat) (crcOk : Bool) (s : State) : OutKeeps s (execCellArrived link crcOk s) :=
    by
  unfold execCellArrived
  (try dsimp only)
  repeat' first
    | with_reducible (first
        | exact OutKeeps.fault _ _ | apply OutKeeps.next | exact Keeps.refl _ | apply State.mapLinks_keeps
        | apply State.reseq_keeps)
    | (with_reducible refine Keeps.foldl _ (fun _ _ hK => ?_) _ ?_) | (intro _ hK; skip)
    | with_reducible assumption | (with_reducible refine Keeps.ite (fun _ => ?_) (fun _ => ?_)) | split
    | fail_if_no_progress with_reducible refine Keeps.fields ?_

theorem State.giveUp_keeps {s0 s : State} (hK : Keeps s0 s) (link : Nat) : Keeps s0 (State.giveUp s link) := by
  unfold State.giveUp
  (try dsimp only)
  repeat' first
    | with_reducible (first
        | exact hK | apply State.bumpFab_keeps | apply State.failPlane_keeps | apply State.raiseLimited_keeps
        | apply State.updPlane_keeps | apply State.bumpFabAt_keeps)
    | (intro _ hK; skip) | with_reducible assumption | (with_reducible refine Keeps.ite (fun _ => ?_) (fun _ => ?_))

theorem State.resend_keeps {s0 s : State} (hK : Keeps s0 s) (link : Nat) (f : LinkCell → Bool) : Keeps s0
    (State.resend s link f) := by
  unfold State.resend
  (try dsimp only)
  repeat' first
    | with_reducible (first
        | exact hK | apply State.bumpFab_keeps | apply State.giveUp_keeps | apply State.mapLinks_keeps
        | apply State.bumpFabAt_keeps)
    | (intro _ hK; skip) | with_reducible assumption | (with_reducible refine Keeps.ite (fun _ => ?_) (fun _ => ?_))
    | split

theorem execLinkNakReceived_keeps (link : Nat) (s : State) : OutKeeps s (execLinkNakReceived link s) := by
  unfold execLinkNakReceived
  (try dsimp only)
  repeat' first
    | with_reducible (first
        | exact OutKeeps.fault _ _ | apply OutKeeps.next | exact Keeps.refl _ | apply State.resend_keeps)
    | (intro _ hK; skip) | with_reducible assumption | (with_reducible refine Keeps.ite (fun _ => ?_) (fun _ => ?_))
    | split

theorem execLinkAckTimeout_keeps (link : Nat) (s : State) : OutKeeps s (execLinkAckTimeout link s) := by
  unfold execLinkAckTimeout
  (try dsimp only)
  repeat' first
    | with_reducible (first
        | exact OutKeeps.fault _ _ | apply OutKeeps.next | exact Keeps.refl _ | apply State.resend_keeps)
    | (intro _ hK; skip) | with_reducible assumption | (with_reducible refine Keeps.ite (fun _ => ?_) (fun _ => ?_))
    | split

theorem State.gapDrop_keeps {s0 s : State} (hK : Keeps s0 s) (dst : Nat) (c : Cell) : Keeps s0 (State.gapDrop s dst c)
    := by
  unfold State.gapDrop
  (try dsimp only)
  repeat' first
    | with_reducible (first
        | exact hK | apply State.complete_keeps | apply State.countDrop_keeps | apply State.egLeave_keeps
        | apply State.matchCredit_keeps | apply State.setEgq_keeps)
    | (with_reducible refine Keeps.foldl _ (fun _ _ hK => ?_) _ ?_) | (intro _ hK; skip) | with_reducible assumption
    | (with_reducible refine Keeps.ite (fun _ => ?_) (fun _ => ?_)) | split

theorem State.gapSkip_keeps {s0 s : State} (hK : Keeps s0 s) (src : Nat) (dst : Nat) : Keeps s0 (State.gapSkip s src
    dst) := by
  unfold State.gapSkip
  (try dsimp only)
  repeat' first
    | with_reducible (first
        | exact hK | apply State.credit_keeps | apply State.gapDrop_keeps | apply State.reseqGap_keeps
        | apply State.reseqRelease_keeps | apply State.updPair_keeps)
    | (with_reducible refine Keeps.foldl _ (fun _ _ hK => ?_) _ ?_) | (intro _ hK; skip)

theorem execGapTimeout_keeps (src : Nat) (dst : Nat) (s : State) : OutKeeps s (execGapTimeout src dst s) := by
  unfold execGapTimeout
  (try dsimp only)
  repeat' first
    | with_reducible (first
        | exact OutKeeps.fault _ _ | apply OutKeeps.next | exact Keeps.refl _ | apply State.bumpFab_keeps
        | apply State.gapSkip_keeps | apply State.raiseLimited_keeps | apply State.bumpFabAt_keeps)
    | (with_reducible refine Keeps.foldl _ (fun _ _ hK => ?_) _ ?_) | (intro _ hK; skip)
    | with_reducible assumption | (with_reducible refine Keeps.ite (fun _ => ?_) (fun _ => ?_)) | split
    | fail_if_no_progress with_reducible refine Keeps.fields ?_

theorem execReleaseCreditReceived_keeps (src : Nat) (dst : Nat) (s : State) : OutKeeps s (execReleaseCreditReceived
    src dst s) := by
  unfold execReleaseCreditReceived
  (try dsimp only)
  repeat' first
    | with_reducible (first
        | exact OutKeeps.fault _ _ | apply OutKeeps.next | exact Keeps.refl _ | apply State.hostInAll_keeps
        | apply State.takeCredits_keeps)
    | (with_reducible refine Keeps.ite (fun _ => ?_) (fun _ => ?_)) | split

theorem applyFabSetParams_keeps {s0 s : State} (hK : Keeps s0 s) (p : List Byte) : Keeps s0 (applyFabSetParams p s) :=
  hK.upd rfl

theorem fabSetParamsBody_keeps {s0 s : State} (hK : Keeps s0 s) (r : Req) : Keeps s0 (fabSetParamsBody r s).1 := by
  unfold fabSetParamsBody
  (try dsimp only)
  repeat' first
    | with_reducible exact hK | exact setCmd_keeps (fun p hk => applyFabSetParams_keeps hk p) hK r

theorem applyFabSetPort_keeps {s0 s : State} (hK : Keeps s0 s) (p : List Byte) : Keeps s0 (applyFabSetPort p s) := by
  unfold applyFabSetPort
  (try dsimp only)
  repeat' first
    | with_reducible (first | exact hK | apply State.updFabPort_keeps)
    | (with_reducible refine Keeps.foldl _ (fun _ _ hK => ?_) _ ?_) | (intro _ hK; skip)

theorem fabSetPortBody_keeps {s0 s : State} (hK : Keeps s0 s) (r : Req) : Keeps s0 (fabSetPortBody r s).1 := by
  unfold fabSetPortBody
  (try dsimp only)
  repeat' first
    | with_reducible exact hK | exact setCmd_keeps (fun p hk => applyFabSetPort_keeps hk p) hK r

theorem fabGetStatusBody_keeps {s0 s : State} (hK : Keeps s0 s) (r : Req) : Keeps s0 (fabGetStatusBody r s).1 := by
  unfold fabGetStatusBody
  (try dsimp only)
  repeat' first
    | with_reducible (first | exact hK | apply readCmd_keeps) | (intro _ hK; skip)

theorem fabGetPairBody_keeps {s0 s : State} (hK : Keeps s0 s) (r : Req) : Keeps s0 (fabGetPairBody r s).1 := by
  unfold fabGetPairBody
  (try dsimp only)
  repeat' first
    | with_reducible (first | exact hK | apply readCmd_keeps) | (intro _ hK; skip)
    | (with_reducible refine Keeps.ite (fun _ => ?_) (fun _ => ?_))

theorem fabSetPlaneBody_keeps {s0 s : State} (hK : Keeps s0 s) (r : Req) : Keeps s0 (fabSetPlaneBody r s).1 := by
  unfold fabSetPlaneBody
  (try dsimp only)
  repeat' first
    | with_reducible (first
        | exact hK | apply errCmd_keeps | apply State.failPlane_keeps | apply okCmd_keeps
        | apply State.setPlane_keeps)
    | (intro _ hK; skip) | with_reducible assumption | (with_reducible refine Keeps.ite (fun _ => ?_) (fun _ => ?_))
    | split

theorem fabGetCountersBody_keeps {s0 s : State} (hK : Keeps s0 s) (r : Req) : Keeps s0 (fabGetCountersBody r s).1 :=
    by
  unfold fabGetCountersBody
  (try dsimp only)
  repeat' first
    | with_reducible (first | exact hK | apply readCmd_keeps) | (intro _ hK; skip)

theorem execFabSetParams_keeps (r : Req) (s : State) : OutKeeps s (execFabSetParams r s) := 
  mailboxCommand_keeps (fun hk => fabSetParamsBody_keeps hk r)

theorem execFabSetPort_keeps (r : Req) (s : State) : OutKeeps s (execFabSetPort r s) := 
  mailboxCommand_keeps (fun hk => fabSetPortBody_keeps hk r)

theorem execFabGetStatus_keeps (r : Req) (s : State) : OutKeeps s (execFabGetStatus r s) := 
  mailboxCommand_keeps (fun hk => fabGetStatusBody_keeps hk r)

theorem execFabGetPair_keeps (r : Req) (s : State) : OutKeeps s (execFabGetPair r s) := 
  mailboxCommand_keeps (fun hk => fabGetPairBody_keeps hk r)

theorem execFabSetPlane_keeps (r : Req) (s : State) : OutKeeps s (execFabSetPlane r s) := 
  mailboxCommand_keeps (fun hk => fabSetPlaneBody_keeps hk r)

theorem execFabGetCounters_keeps (r : Req) (s : State) : OutKeeps s (execFabGetCounters r s) := 
  mailboxCommand_keeps (fun hk => fabGetCountersBody_keeps hk r)

end Sys2Proof.Machine
end

