-- ==== Sys2Proof/Laws/KeepAccess.lean ====
section
/-! SUPPORT. What the operations of Access keep. -/

set_option Elab.async false
set_option linter.all false

namespace Sys2Proof.Machine

theorem State.reservedAccess_keeps {s0 s : State} (hK : Keeps s0 s) (off : Nat) (size : Nat) : Keeps s0
    (State.reservedAccess s off size) := by
  unfold State.reservedAccess
  (try dsimp only)
  repeat' first
    | with_reducible (first | exact hK | apply State.raise_keeps)

end Sys2Proof.Machine
end

