-- ==== Sys2Proof/Laws/KeepTime.lean ====
section
/-! SUPPORT. What the operations of Time keep. -/

set_option Elab.async false
set_option linter.all false

namespace Sys2Proof.Machine

theorem State.updTime_keeps {s0 s : State} (h : Keeps s0 s) (f : TimeBase → TimeBase) (hf : ∀ x : TimeBase, x.ok → (f x).ok) :
    Keeps s0 (s.updTime f) :=
  h.ofTime _ (hf _)

theorem State.setTimeState_keeps {s0 s : State} (hK : Keeps s0 s) (x : TbState) : Keeps s0 (State.setTimeState s x) :=
    by
  unfold State.setTimeState
  (try dsimp only)
  repeat' first
    | with_reducible exact hK | exact fun _ hx => hx | exact fun _ _ => TimeBase.setUnits_ok _ _
    | exact fun _ _ => TimeBase.shift_ok _ _
    | exact fun x _ => ⟨(TimeBase.setUnits_ok x _).1, (TimeBase.setUnits_ok x _).2.1, (TimeBase.setUnits_ok x _).2.2⟩
    | with_reducible (first | apply State.raise_keeps | apply State.updTime_keeps) | (intro _ hK; skip)
    | with_reducible assumption | (with_reducible refine Keeps.ite (fun _ => ?_) (fun _ => ?_))

theorem State.sourceLost_keeps {s0 s : State} (hK : Keeps s0 s) : Keeps s0 (State.sourceLost s) := by
  unfold State.sourceLost
  (try dsimp only)
  repeat' first
    | with_reducible exact hK | exact fun _ hx => hx | exact fun _ _ => TimeBase.setUnits_ok _ _
    | exact fun _ _ => TimeBase.shift_ok _ _
    | exact fun x _ => ⟨(TimeBase.setUnits_ok x _).1, (TimeBase.setUnits_ok x _).2.1, (TimeBase.setUnits_ok x _).2.2⟩
    | with_reducible (first | apply State.setTimeState_keeps | apply State.updTime_keeps) | (intro _ hK; skip)
    | with_reducible assumption | (with_reducible refine Keeps.ite (fun _ => ?_) (fun _ => ?_))

theorem execTimeCapture_keeps (fn : Nat) (s : State) : OutKeeps s (execTimeCapture fn s) := by
  unfold execTimeCapture
  (try dsimp only [onRegister])
  repeat' first
    | with_reducible (first | exact OutKeeps.fault _ _ | apply OutKeeps.next | exact Keeps.refl _)
    | exact fun _ hx => hx | exact fun _ _ => TimeBase.setUnits_ok _ _ | exact fun _ _ => TimeBase.shift_ok _ _
    | exact fun x _ => ⟨(TimeBase.setUnits_ok x _).1, (TimeBase.setUnits_ok x _).2.1, (TimeBase.setUnits_ok x _).2.2⟩
    | with_reducible (first | apply State.reservedAccess_keeps | apply State.updTime_keeps) | (intro _ hK; skip)
    | with_reducible assumption | split

theorem execTxtsPop_keeps (fn : Nat) (slice : Nat) (s : State) : OutKeeps s (execTxtsPop fn slice s) := by
  unfold execTxtsPop
  (try dsimp only [onRegister])
  repeat' first
    | with_reducible (first
        | exact OutKeeps.fault _ _ | apply OutKeeps.next | exact Keeps.refl _ | apply State.reservedAccess_keeps
        | apply State.updTsFifo_keeps)
    | (intro _ hK; skip) | with_reducible assumption | (with_reducible refine Keeps.ite (fun _ => ?_) (fun _ => ?_))
    | split

theorem State.relayEntry_keeps {s0 s : State} (hK : Keeps s0 s) (e : TsEntry) : Keeps s0 (State.relayEntry s e) := by
  unfold State.relayEntry
  (try dsimp only)
  repeat' first
    | with_reducible (first | exact hK | apply State.raise_keeps | apply State.ptpSent_keeps)
    | (with_reducible refine Keeps.ite (fun _ => ?_) (fun _ => ?_))

theorem execTsFifoRelay_keeps (slice : Nat) (s : State) : OutKeeps s (execTsFifoRelay slice s) := by
  unfold execTsFifoRelay
  (try dsimp only)
  repeat' first
    | with_reducible (first
        | exact OutKeeps.fault _ _ | apply OutKeeps.next | exact Keeps.refl _ | apply State.relayEntry_keeps
        | apply State.updTsFifo_keeps)
    | (with_reducible refine Keeps.foldl _ (fun _ _ hK => ?_) _ ?_) | (intro _ hK; skip) | with_reducible assumption
    | (with_reducible refine Keeps.ite (fun _ => ?_) (fun _ => ?_)) | split

theorem execPpsInTimeout_keeps (s : State) : OutKeeps s (execPpsInTimeout s) := by
  unfold execPpsInTimeout
  (try dsimp only)
  repeat' first
    | with_reducible (first | exact OutKeeps.fault _ _ | apply OutKeeps.next | exact Keeps.refl _)
    | exact fun _ hx => hx | exact fun _ _ => TimeBase.setUnits_ok _ _ | exact fun _ _ => TimeBase.shift_ok _ _
    | exact fun x _ => ⟨(TimeBase.setUnits_ok x _).1, (TimeBase.setUnits_ok x _).2.1, (TimeBase.setUnits_ok x _).2.2⟩
    | with_reducible (first | apply State.raise_keeps | apply State.sourceLost_keeps | apply State.updTime_keeps)
    | (intro _ hK; skip) | with_reducible assumption | (with_reducible refine Keeps.ite (fun _ => ?_) (fun _ => ?_))

theorem execPpsOutEdge_keeps (s : State) : OutKeeps s (execPpsOutEdge s) := by
  unfold execPpsOutEdge
  (try dsimp only)
  repeat' first
    | with_reducible (first | exact OutKeeps.fault _ _ | apply OutKeeps.next | exact Keeps.refl _)
    | exact fun _ hx => hx | exact fun _ _ => TimeBase.setUnits_ok _ _ | exact fun _ _ => TimeBase.shift_ok _ _
    | exact fun x _ => ⟨(TimeBase.setUnits_ok x _).1, (TimeBase.setUnits_ok x _).2.1, (TimeBase.setUnits_ok x _).2.2⟩
    | with_reducible apply State.updTime_keeps | (intro _ hK; skip)

theorem execPpsOutFall_keeps (s : State) : OutKeeps s (execPpsOutFall s) := by
  unfold execPpsOutFall
  (try dsimp only)
  repeat' first
    | with_reducible (first | exact OutKeeps.fault _ _ | apply OutKeeps.next | exact Keeps.refl _)
    | exact fun _ hx => hx | exact fun _ _ => TimeBase.setUnits_ok _ _ | exact fun _ _ => TimeBase.shift_ok _ _
    | exact fun x _ => ⟨(TimeBase.setUnits_ok x _).1, (TimeBase.setUnits_ok x _).2.1, (TimeBase.setUnits_ok x _).2.2⟩
    | with_reducible apply State.updTime_keeps | (intro _ hK; skip)

theorem execTimeSlewComplete_keeps (s : State) : OutKeeps s (execTimeSlewComplete s) := by
  unfold execTimeSlewComplete
  (try dsimp only)
  repeat' first
    | with_reducible (first | exact OutKeeps.fault _ _ | apply OutKeeps.next | exact Keeps.refl _)
    | exact fun _ hx => hx | exact fun _ _ => TimeBase.setUnits_ok _ _ | exact fun _ _ => TimeBase.shift_ok _ _
    | exact fun x _ => ⟨(TimeBase.setUnits_ok x _).1, (TimeBase.setUnits_ok x _).2.1, (TimeBase.setUnits_ok x _).2.2⟩
    | with_reducible apply State.updTime_keeps | (intro _ hK; skip)

theorem State.dropParent_keeps {s0 s : State} (hK : Keeps s0 s)  : Keeps s0 (State.dropParent s) := by
  unfold State.dropParent
  (try dsimp only)
  repeat' first
    | with_reducible (first | exact hK | apply State.updPtp_keeps)
    | (with_reducible refine Keeps.foldl _ (fun _ _ hK => ?_) _ ?_) | (intro _ hK; skip)
    | with_reducible assumption | (with_reducible refine Keeps.ite (fun _ => ?_) (fun _ => ?_)) | split
    | fail_if_no_progress with_reducible refine Keeps.fields ?_

theorem execPtpAnnounceTimeout_keeps (s : State) : OutKeeps s (execPtpAnnounceTimeout s) := by
  unfold execPtpAnnounceTimeout
  (try dsimp only)
  repeat' first
    | with_reducible (first
        | exact OutKeeps.fault _ _ | apply OutKeeps.next | exact Keeps.refl _ | apply State.sourceLost_keeps
        | apply State.dropParent_keeps)
    | (with_reducible refine Keeps.foldl _ (fun _ _ hK => ?_) _ ?_) | (intro _ hK; skip)
    | with_reducible assumption | (with_reducible refine Keeps.ite (fun _ => ?_) (fun _ => ?_)) | split
    | fail_if_no_progress with_reducible refine Keeps.fields ?_

theorem execGateEvent_keeps (port : Nat) (s : State) : OutKeeps s (execGateEvent port s) := by
  unfold execGateEvent
  (try dsimp only)
  repeat' first
    | with_reducible (first
        | exact OutKeeps.fault _ _ | apply OutKeeps.next | exact Keeps.refl _ | apply State.updGate_keeps)
    | (intro _ hK; skip) | with_reducible assumption | (with_reducible refine Keeps.ite (fun _ => ?_) (fun _ => ?_))
    | split

theorem State.storeFreed_keeps {s0 s : State} (hK : Keeps s0 s) (p : Nat) (g : GateList) : Keeps s0 (State.storeFreed
    s p g) := by
  unfold State.storeFreed
  (try dsimp only)
  repeat' first
    | with_reducible (first | exact hK)
    | (with_reducible refine Keeps.foldl _ (fun _ _ hK => ?_) _ ?_) | (intro _ hK; skip)
    | with_reducible assumption | (with_reducible refine Keeps.ite (fun _ => ?_) (fun _ => ?_)) | split
    | fail_if_no_progress with_reducible refine Keeps.fields ?_

theorem applyGateSetList_keeps {s0 s : State} (hK : Keeps s0 s) (p : List Byte) : Keeps s0 (applyGateSetList p s) :=
    by
  unfold applyGateSetList
  (try dsimp only)
  repeat' first
    | with_reducible (first
        | exact hK | apply State.bumpTime_keeps | apply State.gateReset_keeps | apply State.updGate_keeps
        | apply State.storeFreed_keeps)
    | (intro _ hK; skip)

theorem gateSetListBody_keeps {s0 s : State} (hK : Keeps s0 s) (r : Req) : Keeps s0 (gateSetListBody r s).1 := by
  unfold gateSetListBody
  (try dsimp only)
  repeat' first
    | with_reducible exact hK | exact setCmd_keeps (fun p hk => applyGateSetList_keeps hk p) hK r

theorem gateGetStatusBody_keeps {s0 s : State} (hK : Keeps s0 s) (r : Req) : Keeps s0 (gateGetStatusBody r s).1 := by
  unfold gateGetStatusBody
  (try dsimp only)
  repeat' first
    | with_reducible (first | exact hK | apply readCmd_keeps) | (intro _ hK; skip)
    | (with_reducible refine Keeps.ite (fun _ => ?_) (fun _ => ?_))

theorem timeGetBody_keeps {s0 s : State} (hK : Keeps s0 s) (r : Req) : Keeps s0 (timeGetBody r s).1 := by
  unfold timeGetBody
  (try dsimp only)
  repeat' first
    | with_reducible (first | exact hK | apply readCmd_keeps) | (intro _ hK; skip)

theorem applyTimeSetPtp_keeps {s0 s : State} (hK : Keeps s0 s) (p : List Byte) : Keeps s0 (applyTimeSetPtp p s) :=
  hK.upd rfl

theorem timeSetPtpBody_keeps {s0 s : State} (hK : Keeps s0 s) (r : Req) : Keeps s0 (timeSetPtpBody r s).1 := by
  unfold timeSetPtpBody
  (try dsimp only)
  repeat' first
    | with_reducible exact hK | exact setCmd_keeps (fun p hk => applyTimeSetPtp_keeps hk p) hK r

theorem State.takeFifo_keeps {s0 s : State} (hK : Keeps s0 s) (before : Bool) (sl : Nat) : Keeps s0 (State.takeFifo s
    before sl) := by
  unfold State.takeFifo
  (try dsimp only)
  repeat' first
    | with_reducible (first | exact hK | apply State.updTsFifo_keeps) | (intro _ hK; skip) | with_reducible assumption
    | (with_reducible refine Keeps.ite (fun _ => ?_) (fun _ => ?_))

theorem applyTimeSetPort_keeps {s0 s : State} (hK : Keeps s0 s) (p : List Byte) : Keeps s0 (applyTimeSetPort p s) :=
    by
  unfold applyTimeSetPort
  (try dsimp only)
  repeat' first
    | with_reducible (first | exact hK | apply State.takeFifo_keeps | apply State.updPort_keeps | apply State.updPtp_keeps) | (intro _ hK; skip)

theorem timeSetPortBody_keeps {s0 s : State} (hK : Keeps s0 s) (r : Req) : Keeps s0 (timeSetPortBody r s).1 := by
  unfold timeSetPortBody
  (try dsimp only)
  repeat' first
    | with_reducible exact hK | exact setCmd_keeps (fun p hk => applyTimeSetPort_keeps hk p) hK r

theorem applyTimeSetPps_keeps {s0 s : State} (hK : Keeps s0 s) (p : List Byte) : Keeps s0 (applyTimeSetPps p s) := by
  unfold applyTimeSetPps
  (try dsimp only)
  repeat' first
    | with_reducible exact hK | exact fun _ hx => hx | exact fun _ _ => TimeBase.setUnits_ok _ _
    | exact fun _ _ => TimeBase.shift_ok _ _
    | exact fun x _ => ⟨(TimeBase.setUnits_ok x _).1, (TimeBase.setUnits_ok x _).2.1, (TimeBase.setUnits_ok x _).2.2⟩
    | with_reducible apply State.updTime_keeps | (intro _ hK; skip)

theorem timeSetPpsBody_keeps {s0 s : State} (hK : Keeps s0 s) (r : Req) : Keeps s0 (timeSetPpsBody r s).1 := by
  unfold timeSetPpsBody
  (try dsimp only)
  repeat' first
    | with_reducible exact hK | exact setCmd_keeps (fun p hk => applyTimeSetPps_keeps hk p) hK r

theorem timeGetCountersBody_keeps {s0 s : State} (hK : Keeps s0 s) (r : Req) : Keeps s0 (timeGetCountersBody r s).1 :=
    by
  unfold timeGetCountersBody
  (try dsimp only)
  repeat' first
    | with_reducible (first | exact hK | apply readCmd_keeps) | (intro _ hK; skip)
    | (with_reducible refine Keeps.ite (fun _ => ?_) (fun _ => ?_))

theorem execTimeGet_keeps (r : Req) (s : State) : OutKeeps s (execTimeGet r s) := 
  mailboxCommand_keeps (fun hk => timeGetBody_keeps hk r)

theorem execTimeSetPtp_keeps (r : Req) (s : State) : OutKeeps s (execTimeSetPtp r s) := 
  mailboxCommand_keeps (fun hk => timeSetPtpBody_keeps hk r)

theorem execTimeSetPort_keeps (r : Req) (s : State) : OutKeeps s (execTimeSetPort r s) := 
  mailboxCommand_keeps (fun hk => timeSetPortBody_keeps hk r)

theorem execTimeSetPps_keeps (r : Req) (s : State) : OutKeeps s (execTimeSetPps r s) := 
  mailboxCommand_keeps (fun hk => timeSetPpsBody_keeps hk r)

theorem execGateSetList_keeps (r : Req) (s : State) : OutKeeps s (execGateSetList r s) := 
  mailboxCommand_keeps (fun hk => gateSetListBody_keeps hk r)

theorem execGateGetStatus_keeps (r : Req) (s : State) : OutKeeps s (execGateGetStatus r s) := 
  mailboxCommand_keeps (fun hk => gateGetStatusBody_keeps hk r)

theorem execTimeGetCounters_keeps (r : Req) (s : State) : OutKeeps s (execTimeGetCounters r s) := 
  mailboxCommand_keeps (fun hk => timeGetCountersBody_keeps hk r)

end Sys2Proof.Machine
end

