-- ==== Sys2Proof/Laws/KeepFrer.lean ====
section
/-! SUPPORT. What the operations of Frer keep. -/

set_option Elab.async false
set_option linter.all false

namespace Sys2Proof.Machine

theorem State.frerRewrite_keeps {s0 s : State} (hK : Keeps s0 s) (p : List Byte) (old : FrerCfg) : Keeps s0
    (State.frerRewrite s p old) := by
  unfold State.frerRewrite
  (try dsimp only)
  repeat' first
    | with_reducible (first | exact hK | apply State.updStream_keeps)
    | (with_reducible refine Keeps.foldl _ (fun _ _ hK => ?_) _ ?_) | (intro _ hK; skip)
    | with_reducible assumption | (with_reducible refine Keeps.ite (fun _ => ?_) (fun _ => ?_)) | split
    | fail_if_no_progress with_reducible refine Keeps.fields ?_

theorem applyFrerSetStream_keeps {s0 s : State} (hK : Keeps s0 s) (p : List Byte) : Keeps s0 (applyFrerSetStream p s)
    := by
  unfold applyFrerSetStream
  (try dsimp only)
  repeat' first
    | with_reducible (first | exact hK | apply State.frerRewrite_keeps | apply State.liveGen_keeps)

theorem frerSetStreamBody_keeps {s0 s : State} (hK : Keeps s0 s) (r : Req) : Keeps s0 (frerSetStreamBody r s).1 := by
  unfold frerSetStreamBody
  (try dsimp only)
  repeat' first
    | with_reducible exact hK | exact setCmd_keeps (fun p hk => applyFrerSetStream_keeps hk p) hK r

theorem frerGetStreamBody_keeps {s0 s : State} (hK : Keeps s0 s) (r : Req) : Keeps s0 (frerGetStreamBody r s).1 := by
  unfold frerGetStreamBody
  (try dsimp only)
  repeat' first
    | with_reducible (first | exact hK | apply readCmd_keeps) | (intro _ hK; skip)

theorem applyFrerSetPort_keeps {s0 s : State} (hK : Keeps s0 s) (p : List Byte) : Keeps s0 (applyFrerSetPort p s) :=
    by
  unfold applyFrerSetPort
  (try dsimp only)
  repeat' first
    | with_reducible (first | exact hK | apply State.updPort_keeps)
    | (with_reducible refine Keeps.foldl _ (fun _ _ hK => ?_) _ ?_) | (intro _ hK; skip)
    | with_reducible assumption | (with_reducible refine Keeps.ite (fun _ => ?_) (fun _ => ?_)) | split
    | fail_if_no_progress with_reducible refine Keeps.fields ?_

theorem frerSetPortBody_keeps {s0 s : State} (hK : Keeps s0 s) (r : Req) : Keeps s0 (frerSetPortBody r s).1 := by
  unfold frerSetPortBody
  (try dsimp only)
  repeat' first
    | with_reducible exact hK | exact setCmd_keeps (fun p hk => applyFrerSetPort_keeps hk p) hK r

theorem frerResetStreamBody_keeps {s0 s : State} (hK : Keeps s0 s) (r : Req) : Keeps s0 (frerResetStreamBody r s).1 :=
    by
  unfold frerResetStreamBody
  (try dsimp only)
  repeat' first
    | with_reducible (first | exact hK | apply errCmd_keeps | apply okCmd_keeps | apply State.updStream_keeps)
    | (intro _ hK; skip) | with_reducible assumption | (with_reducible refine Keeps.ite (fun _ => ?_) (fun _ => ?_))
    | split

theorem execFrerResetTimer_keeps (stream : Nat) (s : State) : OutKeeps s (execFrerResetTimer stream s) := by
  unfold execFrerResetTimer
  (try dsimp only [onStream])
  repeat' first
    | with_reducible (first
        | exact OutKeeps.fault _ _ | apply OutKeeps.next | exact Keeps.refl _ | apply State.bumpStream_keeps
        | apply State.updStream_keeps)
    | (intro _ hK; skip) | with_reducible assumption | (with_reducible refine Keeps.ite (fun _ => ?_) (fun _ => ?_))
    | split

theorem execFrerLatentTest_keeps (stream : Nat) (s : State) : OutKeeps s (execFrerLatentTest stream s) := by
  unfold execFrerLatentTest
  (try dsimp only [onStream])
  repeat' first
    | with_reducible (first
        | exact OutKeeps.fault _ _ | apply OutKeeps.next | exact Keeps.refl _ | apply State.bumpStream_keeps
        | apply State.raise_keeps)
    | (with_reducible refine Keeps.ite (fun _ => ?_) (fun _ => ?_)) | split

theorem execFrerLatentReset_keeps (stream : Nat) (s : State) : OutKeeps s (execFrerLatentReset stream s) := by
  unfold execFrerLatentReset
  (try dsimp only [onStream])
  repeat' first
    | with_reducible (first
        | exact OutKeeps.fault _ _ | apply OutKeeps.next | exact Keeps.refl _ | apply State.updStream_keeps)
    | (intro _ hK; skip) | with_reducible assumption | split

theorem execFrerSetStream_keeps (r : Req) (s : State) : OutKeeps s (execFrerSetStream r s) := 
  mailboxCommand_keeps (fun hk => frerSetStreamBody_keeps hk r)

theorem execFrerGetStream_keeps (r : Req) (s : State) : OutKeeps s (execFrerGetStream r s) := 
  mailboxCommand_keeps (fun hk => frerGetStreamBody_keeps hk r)

theorem execFrerSetPort_keeps (r : Req) (s : State) : OutKeeps s (execFrerSetPort r s) := 
  mailboxCommand_keeps (fun hk => frerSetPortBody_keeps hk r)

theorem execFrerResetStream_keeps (r : Req) (s : State) : OutKeeps s (execFrerResetStream r s) := 
  mailboxCommand_keeps (fun hk => frerResetStreamBody_keeps hk r)

end Sys2Proof.Machine
end

