-- ==== Sys2Proof/Laws/KeepRedundancy.lean ====
section
/-! SUPPORT. What the operations of Redundancy keep. -/

set_option Elab.async false
set_option linter.all false

namespace Sys2Proof.Machine

theorem State.loseItem_keeps {s0 s : State} (hK : Keeps s0 s) (c : Nat) (t : Tap) : Keeps s0 (State.loseItem s c t) :=
    by
  unfold State.loseItem
  (try dsimp only)
  repeat' first
    | with_reducible (first
        | exact hK | apply State.countCore_keeps | apply State.endTap_keeps | apply State.updFix_keeps
        | apply State.writeRecord_keeps)
    | (intro _ hK; skip) | with_reducible assumption | (with_reducible refine Keeps.ite (fun _ => ?_) (fun _ => ?_))

theorem State.loseItems_keeps {s0 s : State} (hK : Keeps s0 s) (c : Nat) (k : Nat) : Keeps s0 (State.loseItems s c k)
    := by
  unfold State.loseItems
  (try dsimp only)
  repeat' first
    | with_reducible (first | exact hK | apply State.loseItem_keeps)
    | (with_reducible refine Keeps.foldl _ (fun _ _ hK => ?_) _ ?_) | (intro _ hK; skip)

theorem State.coreFail_keeps {s0 s : State} (hK : Keeps s0 s) (c : Nat) (k : Nat) : Keeps s0 (State.coreFail s c k) :=
    by
  unfold State.coreFail
  (try dsimp only)
  repeat' first
    | with_reducible (first
        | exact hK | apply State.healthChanged_keeps | apply State.loseItems_keeps | apply State.raiseIf_keeps
        | apply State.ready_keeps | apply State.repairAdd_keeps | apply State.updCluster_keeps
        | apply State.readCore_keeps)
    | (intro _ hK; skip) | with_reducible assumption | split

theorem execCoreFailure_keeps (cluster : Nat) (core : Nat) (s : State) : OutKeeps s (execCoreFailure cluster core s)
    := by
  unfold execCoreFailure
  (try dsimp only [onCore])
  repeat' first
    | with_reducible (first
        | exact OutKeeps.fault _ _ | apply OutKeeps.next | exact Keeps.refl _ | apply State.coreFail_keeps)
    | split

theorem execCoreWatchdogExpiry_keeps (cluster : Nat) (core : Nat) (s : State) : OutKeeps s (execCoreWatchdogExpiry
    cluster core s) := by
  unfold execCoreWatchdogExpiry
  (try dsimp only [onCore])
  repeat' first
    | with_reducible (first
        | exact OutKeeps.fault _ _ | apply OutKeeps.next | exact Keeps.refl _ | apply State.coreFail_keeps)
    | split

theorem State.clearBank_keeps {s0 s : State} (hK : Keeps s0 s) (c : Nat) (i : Nat) : Keeps s0 (State.clearBank s c i)
    := by
  unfold State.clearBank
  (try dsimp only)
  repeat' first
    | with_reducible (first
        | exact hK | apply State.dropPos_keeps | apply State.unrecorded_keeps | apply State.updFix_keeps)
    | (with_reducible refine Keeps.foldl _ (fun _ _ hK => ?_) _ ?_) | (intro _ hK; skip)

theorem execCoreSubstitution_keeps (cluster : Nat) (bankBad : Bool) (s : State) : OutKeeps s (execCoreSubstitution
    cluster bankBad s) := by
  unfold execCoreSubstitution
  (try dsimp only)
  repeat' first
    | with_reducible (first
        | exact OutKeeps.fault _ _ | apply OutKeeps.next | exact Keeps.refl _ | apply State.bumpRed_keeps
        | apply State.clearBank_keeps | apply State.fixDispatch_keeps | apply State.healthChanged_keeps
        | apply State.raise_keeps | apply State.ready_keeps | apply State.updCluster_keeps)
    | (intro _ hK; skip) | with_reducible assumption | (with_reducible refine Keeps.ite (fun _ => ?_) (fun _ => ?_))
    | split

theorem State.finishJob_keeps {s0 s : State} (hK : Keeps s0 s) (j : Option Job) : Keeps s0 (State.finishJob s j) := by
  unfold State.finishJob
  (try dsimp only)
  repeat' first
    | with_reducible (first | exact hK | apply State.complete_keeps) | split

theorem State.selfTest_keeps {s0 s : State} (hK : Keeps s0 s) (c : Nat) (k : Nat) (pass : Bool) : Keeps s0
    (State.selfTest s c k pass) := by
  unfold State.selfTest
  (try dsimp only)
  repeat' first
    | with_reducible (first
        | exact hK | apply State.bumpRed_keeps | apply State.finishJob_keeps | apply State.healthChanged_keeps
        | apply State.raise_keeps | apply State.ready_keeps | apply State.repairAdd_keeps
        | apply State.repairDel_keeps | apply State.updCluster_keeps | apply State.readCore_keeps)
    | (intro _ hK; skip) | with_reducible assumption | (with_reducible refine Keeps.ite (fun _ => ?_) (fun _ => ?_))

theorem execSpareSelftestDone_keeps (cluster : Nat) (core : Nat) (pass : Bool) (s : State) : OutKeeps s
    (execSpareSelftestDone cluster core pass s) := by
  unfold execSpareSelftestDone
  (try dsimp only [onCore])
  repeat' first
    | with_reducible (first
        | exact OutKeeps.fault _ _ | apply OutKeeps.next | exact Keeps.refl _ | apply State.coreFail_keeps
        | apply State.selfTest_keeps)
    | (with_reducible refine Keeps.ite (fun _ => ?_) (fun _ => ?_)) | split

theorem State.setMp_keeps {s0 s : State} (hK : Keeps s0 s) (k : Nat) (f : Mp → Mp) : Keeps s0 (State.setMp s k f) :=
    by
  unfold State.setMp
  (try dsimp only)
  repeat' first
    | with_reducible (first | exact hK | apply State.healthIf_keeps | apply State.updMp_keeps)

theorem State.mgmtLost_keeps {s0 s : State} (hK : Keeps s0 s) (k : Nat) : Keeps s0 (State.mgmtLost s k) := by
  unfold State.mgmtLost
  (try dsimp only)
  repeat' first
    | with_reducible (first | exact hK | apply State.repairAdd_keeps | apply State.setMp_keeps)
    | (with_reducible refine Keeps.foldl _ (fun _ _ hK => ?_) _ ?_) | (intro _ hK; skip)
    | with_reducible assumption | (with_reducible refine Keeps.ite (fun _ => ?_) (fun _ => ?_)) | split
    | fail_if_no_progress with_reducible refine Keeps.fields ?_

theorem State.mpFault_keeps {s0 s : State} (hK : Keeps s0 s) (cause : Nat) : Keeps s0 (State.mpFault s cause) := by
  unfold State.mpFault
  (try dsimp only)
  repeat' first
    | with_reducible (first
        | exact hK | apply State.ready_keeps | apply State.repairAdd_keeps | apply State.setMp_keeps
        | apply State.mgmtLost_keeps)
    | (intro _ hK; skip) | with_reducible assumption | (with_reducible refine Keeps.ite (fun _ => ?_) (fun _ => ?_))
    | split | fail_if_no_progress with_reducible refine Keeps.fields ?_

theorem execMpFault_keeps (cause : Nat) (s : State) : OutKeeps s (execMpFault cause s) := by
  unfold execMpFault
  (try dsimp only)
  repeat' first
    | with_reducible (first
        | exact OutKeeps.fault _ _ | apply OutKeeps.next | exact Keeps.refl _ | apply State.mpFault_keeps)

theorem State.standbyLost_keeps {s0 s : State} (hK : Keeps s0 s) (k : Nat) : Keeps s0 (State.standbyLost s k) := by
  unfold State.standbyLost
  (try dsimp only)
  repeat' first
    | with_reducible (first
        | exact hK | apply State.raise_keeps | apply State.repairAdd_keeps | apply State.setMp_keeps)
    | (intro _ hK; skip)

theorem State.mpMismatch_keeps {s0 s : State} (hK : Keeps s0 s) (k : Nat) : Keeps s0 (State.mpMismatch s k) := by
  unfold State.mpMismatch
  (try dsimp only)
  repeat' first
    | with_reducible (first | exact hK | apply State.raise_keeps | apply State.setMp_keeps) | (intro _ hK; skip)

theorem execMpHeartbeatTick_keeps (beatA : Bool) (beatB : Bool) (digestOk : Bool) (s : State) : OutKeeps s
    (execMpHeartbeatTick beatA beatB digestOk s) := by
  unfold execMpHeartbeatTick
  (try dsimp only)
  repeat' first
    | with_reducible (first
        | exact OutKeeps.fault _ _ | apply OutKeeps.next | exact Keeps.refl _ | apply State.mpFault_keeps
        | apply State.mpMismatch_keeps | apply State.standbyLost_keeps | apply State.updMp_keeps)
    | (intro _ hK; skip) | with_reducible assumption | (with_reducible refine Keeps.ite (fun _ => ?_) (fun _ => ?_))
    | split

theorem execMpRestartDone_keeps (mp : Nat) (pass : Bool) (s : State) : OutKeeps s (execMpRestartDone mp pass s) := by
  unfold execMpRestartDone
  (try dsimp only)
  repeat' first
    | with_reducible (first
        | exact OutKeeps.fault _ _ | apply OutKeeps.next | exact Keeps.refl _ | apply State.bumpRed_keeps
        | apply State.finishJob_keeps | apply State.raise_keeps | apply State.repairAdd_keeps
        | apply State.repairDel_keeps | apply State.setMp_keeps)
    | (intro _ hK; skip) | with_reducible assumption | (with_reducible refine Keeps.ite (fun _ => ?_) (fun _ => ?_))
    | split

theorem redGetHealthBody_keeps {s0 s : State} (hK : Keeps s0 s) (r : Req) : Keeps s0 (redGetHealthBody r s).1 := by
  unfold redGetHealthBody
  (try dsimp only)
  repeat' first
    | with_reducible (first | exact hK | apply readCmd_keeps) | (intro _ hK; skip)

theorem State.switchCore_keeps {s0 s : State} (hK : Keeps s0 s) (c : Nat) (i : Nat) (k : Nat) : Keeps s0
    (State.switchCore s c i k) := by
  unfold State.switchCore
  (try dsimp only)
  repeat' first
    | with_reducible (first
        | exact hK | apply State.bumpRed_keeps | apply State.fixDispatch_keeps | apply State.healthChanged_keeps
        | apply State.updCluster_keeps)
    | (intro _ hK; skip)

theorem redSwitchoverBody_keeps {s0 s : State} (hK : Keeps s0 s) (r : Req) : Keeps s0 (redSwitchoverBody r s).1 := by
  unfold redSwitchoverBody
  (try dsimp only)
  repeat' first
    | with_reducible (first
        | exact hK | apply errCmd_keeps | apply okCmd_keeps | apply State.ready_keeps
        | apply State.switchCore_keeps)
    | (intro _ hK; skip) | with_reducible assumption | (with_reducible refine Keeps.ite (fun _ => ?_) (fun _ => ?_))
    | split | fail_if_no_progress with_reducible refine Keeps.fields ?_

theorem redResyncBody_keeps {s0 s : State} (hK : Keeps s0 s) (r : Req) : Keeps s0 (redResyncBody r s).1 := by
  unfold redResyncBody
  (try dsimp only)
  repeat' first
    | with_reducible (first
        | exact hK | apply errCmd_keeps | apply State.healthChanged_keeps | apply State.setMp_keeps
        | apply State.updCluster_keeps)
    | (intro _ hK; skip) | with_reducible assumption | (with_reducible refine Keeps.ite (fun _ => ?_) (fun _ => ?_))
    | split

theorem redGetCountersBody_keeps {s0 s : State} (hK : Keeps s0 s) (r : Req) : Keeps s0 (redGetCountersBody r s).1 :=
    by
  unfold redGetCountersBody
  (try dsimp only)
  repeat' first
    | with_reducible (first | exact hK | apply readCmd_keeps) | (intro _ hK; skip)

theorem execRedGetHealth_keeps (r : Req) (s : State) : OutKeeps s (execRedGetHealth r s) := 
  mailboxCommand_keeps (fun hk => redGetHealthBody_keeps hk r)

theorem execRedSwitchover_keeps (r : Req) (s : State) : OutKeeps s (execRedSwitchover r s) := 
  mailboxCommand_keeps (fun hk => redSwitchoverBody_keeps hk r)

theorem execRedResync_keeps (r : Req) (s : State) : OutKeeps s (execRedResync r s) := 
  mailboxCommand_keeps (fun hk => redResyncBody_keeps hk r)

theorem execRedGetCounters_keeps (r : Req) (s : State) : OutKeeps s (execRedGetCounters r s) := 
  mailboxCommand_keeps (fun hk => redGetCountersBody_keeps hk r)

end Sys2Proof.Machine
end

