-- ==== Sys2Proof/Laws/KeepFixity.lean ====
section
/-! SUPPORT. What the operations of Fixity keep. -/

set_option Elab.async false
set_option linter.all false

namespace Sys2Proof.Machine

theorem State.itemDone_keeps {s0 s : State} (hK : Keeps s0 s) (c : Nat) (k : Nat) (t : Tap) : Keeps s0 (State.itemDone
    s c k t) := by
  unfold State.itemDone
  (try dsimp only)
  repeat' first
    | with_reducible (first
        | exact hK | apply State.countCore_keeps | apply State.endTap_keeps | apply State.writeRecord_keeps)

theorem State.noticeDone_keeps {s0 s : State} (hK : Keeps s0 s) (c : Nat) (k : Nat) : Keeps s0 (State.noticeDone s c
    k) := by
  unfold State.noticeDone
  (try dsimp only)
  repeat' first
    | with_reducible (first
        | exact hK | apply State.countCore_keeps | apply State.updFix_keeps | apply State.writeRecord_keeps)
    | (intro _ hK; skip) | with_reducible assumption | split

theorem execFixWorkItemDone_keeps (cluster : Nat) (core : Nat) (s : State) : OutKeeps s (execFixWorkItemDone cluster
    core s) := by
  unfold execFixWorkItemDone
  (try dsimp only [onCluster])
  repeat' first
    | with_reducible (first
        | exact OutKeeps.fault _ _ | apply OutKeeps.next | exact Keeps.refl _ | apply State.itemDone_keeps
        | apply State.noticeDone_keeps)
    | (intro _ hK; skip) | with_reducible assumption | (with_reducible refine Keeps.ite (fun _ => ?_) (fun _ => ?_))
    | split

theorem State.noticeIn_keeps {s0 s : State} (hK : Keeps s0 s) (c : Nat) : Keeps s0 (State.noticeIn s c) := by
  unfold State.noticeIn
  (try dsimp only)
  repeat' first
    | with_reducible (first
        | exact hK | apply State.reservePos_keeps | apply State.unrecorded_keeps | apply State.updFix_keeps)
    | (intro _ hK; skip) | with_reducible assumption | (with_reducible refine Keeps.ite (fun _ => ?_) (fun _ => ?_))
    | split

theorem execSkipNoticeArrival_keeps (cluster : Nat) (s : State) : OutKeeps s (execSkipNoticeArrival cluster s) := by
  unfold execSkipNoticeArrival
  (try dsimp only [onCluster])
  repeat' first
    | with_reducible (first
        | exact OutKeeps.fault _ _ | apply OutKeeps.next | exact Keeps.refl _ | apply State.noticeIn_keeps)
    | split

theorem execFixLogWriteTimeout_keeps (cluster : Nat) (pos : Nat) (s : State) : OutKeeps s (execFixLogWriteTimeout
    cluster pos s) := by
  unfold execFixLogWriteTimeout
  (try dsimp only [onCluster])
  repeat' first
    | with_reducible (first
        | exact OutKeeps.fault _ _ | apply OutKeeps.next | exact Keeps.refl _ | apply State.countCore_keeps
        | apply State.dropPos_keeps | apply State.endTap_keeps | apply State.unrecorded_keeps
        | apply State.updFix_keeps)
    | (intro _ hK; skip) | with_reducible assumption | split

theorem execBatchTimer_keeps (cluster : Nat) (s : State) : OutKeeps s (execBatchTimer cluster s) := by
  unfold execBatchTimer
  (try dsimp only [onCluster])
  repeat' first
    | with_reducible (first
        | exact OutKeeps.fault _ _ | apply OutKeeps.next | exact Keeps.refl _ | apply State.fixDue_keeps)
    | split

theorem execBatchClose_keeps (cluster : Nat) (s : State) : OutKeeps s (execBatchClose cluster s) := by
  unfold execBatchClose
  (try dsimp only [onCluster])
  repeat' first
    | with_reducible (first
        | exact OutKeeps.fault _ _ | apply OutKeeps.next | exact Keeps.refl _ | apply State.fixClose_keeps)
    | split

theorem State.flushDone_keeps {s0 s : State} (hK : Keeps s0 s) : Keeps s0 (State.flushDone s) := by
  unfold State.flushDone
  (try dsimp only)
  repeat' first
    | with_reducible (first | exact hK | apply State.complete_keeps)
    | (with_reducible refine Keeps.foldl _ (fun _ _ hK => ?_) _ ?_) | (intro _ hK; skip) | with_reducible assumption
    | split | fail_if_no_progress with_reducible refine Keeps.fields ?_

theorem State.ringFullEvent_keeps {s0 s : State} (hK : Keeps s0 s) (c : Nat) : Keeps s0 (State.ringFullEvent s c) :=
    by
  unfold State.ringFullEvent
  (try dsimp only)
  repeat' first
    | with_reducible (first | exact hK | apply State.logFullEvent_keeps)
    | (with_reducible refine Keeps.foldl _ (fun _ _ hK => ?_) _ ?_) | (intro _ hK; skip)
    | with_reducible assumption | (with_reducible refine Keeps.ite (fun _ => ?_) (fun _ => ?_)) | split
    | fail_if_no_progress with_reducible refine Keeps.fields ?_

theorem State.receiptOut_keeps {s0 s : State} (hK : Keeps s0 s) (c : Nat) : Keeps s0 (State.receiptOut s c) := by
  unfold State.receiptOut
  (try dsimp only)
  repeat' first
    | with_reducible (first
        | exact hK | apply State.bumpFix_keeps | apply State.fixRetry_keeps | apply State.flushDone_keeps
        | apply State.raiseIf_keeps | apply State.updFix_keeps | apply State.ringFullEvent_keeps)
    | (intro _ hK; skip) | with_reducible assumption | (with_reducible refine Keeps.ite (fun _ => ?_) (fun _ => ?_))
    | split

theorem execReceiptSigned_keeps (cluster : Nat) (s : State) : OutKeeps s (execReceiptSigned cluster s) := by
  unfold execReceiptSigned
  (try dsimp only [onCluster])
  repeat' first
    | with_reducible (first
        | exact OutKeeps.fault _ _ | apply OutKeeps.next | exact Keeps.refl _ | apply State.receiptOut_keeps)
    | split

theorem applyFixSetCluster_keeps {s0 s : State} (hK : Keeps s0 s) (p : List Byte) : Keeps s0 (applyFixSetCluster p s)
    := by
  unfold applyFixSetCluster
  (try dsimp only)
  repeat' first
    | with_reducible (first | exact hK | apply State.fixDue_keeps | apply State.updFix_keeps) | (intro _ hK; skip)
    | with_reducible assumption | (with_reducible refine Keeps.ite (fun _ => ?_) (fun _ => ?_))

theorem fixSetClusterBody_keeps {s0 s : State} (hK : Keeps s0 s) (r : Req) : Keeps s0 (fixSetClusterBody r s).1 := by
  unfold fixSetClusterBody
  (try dsimp only)
  repeat' first
    | with_reducible exact hK | exact setCmd_keeps (fun p hk => applyFixSetCluster_keeps hk p) hK r

theorem fixGetFlowBody_keeps {s0 s : State} (hK : Keeps s0 s) (r : Req) : Keeps s0 (fixGetFlowBody r s).1 := by
  unfold fixGetFlowBody
  (try dsimp only)
  repeat' first
    | with_reducible (first | exact hK | apply readCmd_keeps) | (intro _ hK; skip)

theorem fixGetLogBody_keeps {s0 s : State} (hK : Keeps s0 s) (r : Req) : Keeps s0 (fixGetLogBody r s).1 := by
  unfold fixGetLogBody
  (try dsimp only)
  repeat' first
    | with_reducible (first | exact hK | apply readCmd_keeps) | (intro _ hK; skip)
    | (with_reducible refine Keeps.ite (fun _ => ?_) (fun _ => ?_))

theorem fixReleaseBody_keeps {s0 s : State} (hK : Keeps s0 s) (r : Req) : Keeps s0 (fixReleaseBody r s).1 := by
  unfold fixReleaseBody
  (try dsimp only)
  repeat' first
    | with_reducible (first
        | exact hK | apply errCmd_keeps | apply State.fixRetry_keeps | apply okCmd_keeps | apply State.updFix_keeps)
    | (intro _ hK; skip) | with_reducible assumption | (with_reducible refine Keeps.ite (fun _ => ?_) (fun _ => ?_))
    | split

theorem fixFlushBody_keeps {s0 s : State} (hK : Keeps s0 s) (r : Req) : Keeps s0 (fixFlushBody r s).1 := by
  unfold fixFlushBody
  (try dsimp only)
  repeat' first
    | with_reducible (first | exact hK | apply errCmd_keeps | apply State.fixDue_keeps | apply okCmd_keeps)
    | (with_reducible refine Keeps.foldl _ (fun _ _ hK => ?_) _ ?_) | (intro _ hK; skip) | with_reducible assumption
    | (with_reducible refine Keeps.ite (fun _ => ?_) (fun _ => ?_)) | split
    | fail_if_no_progress with_reducible refine Keeps.fields ?_

theorem fixGetReceiptBody_keeps {s0 s : State} (hK : Keeps s0 s) (r : Req) : Keeps s0 (fixGetReceiptBody r s).1 := by
  unfold fixGetReceiptBody
  (try dsimp only)
  repeat' first
    | with_reducible (first | exact hK | apply readCmd_keeps) | (intro _ hK; skip)
    | (with_reducible refine Keeps.ite (fun _ => ?_) (fun _ => ?_))

theorem fixGetCountersBody_keeps {s0 s : State} (hK : Keeps s0 s) (r : Req) : Keeps s0 (fixGetCountersBody r s).1 :=
    by
  unfold fixGetCountersBody
  (try dsimp only)
  repeat' first
    | with_reducible (first | exact hK | apply readCmd_keeps) | (intro _ hK; skip)

theorem leavenGetClusterBody_keeps {s0 s : State} (hK : Keeps s0 s) (r : Req) : Keeps s0 (leavenGetClusterBody r s).1
    := by
  unfold leavenGetClusterBody
  (try dsimp only)
  repeat' first
    | with_reducible (first | exact hK | apply readCmd_keeps) | (intro _ hK; skip)
    | (with_reducible refine Keeps.ite (fun _ => ?_) (fun _ => ?_))

theorem applyLeavenSetEvents_keeps {s0 s : State} (hK : Keeps s0 s) (p : List Byte) : Keeps s0 (applyLeavenSetEvents p
    s) := by
  unfold applyLeavenSetEvents
  (try dsimp only)
  repeat' first
    | with_reducible (first | exact hK | apply State.updCore_keeps)
    | (with_reducible refine Keeps.foldl _ (fun _ _ hK => ?_) _ ?_) | (intro _ hK; skip)
    | (with_reducible refine Keeps.ite (fun _ => ?_) (fun _ => ?_))

theorem leavenSetEventsBody_keeps {s0 s : State} (hK : Keeps s0 s) (r : Req) : Keeps s0 (leavenSetEventsBody r s).1 :=
    by
  unfold leavenSetEventsBody
  (try dsimp only)
  repeat' first
    | with_reducible exact hK | exact setCmd_keeps (fun p hk => applyLeavenSetEvents_keeps hk p) hK r

theorem leavenGetCoreBody_keeps {s0 s : State} (hK : Keeps s0 s) (r : Req) : Keeps s0 (leavenGetCoreBody r s).1 := by
  unfold leavenGetCoreBody
  (try dsimp only)
  repeat' first
    | with_reducible (first
        | exact hK | apply State.drawn_keeps | apply errCmd_keeps | apply okCmd_keeps | apply State.updCore_keeps
        | apply State.readCore_keeps)
    | (intro _ hK; skip) | with_reducible assumption | (with_reducible refine Keeps.ite (fun _ => ?_) (fun _ => ?_))
    | split

theorem execFixSetCluster_keeps (r : Req) (s : State) : OutKeeps s (execFixSetCluster r s) := 
  mailboxCommand_keeps (fun hk => fixSetClusterBody_keeps hk r)

theorem execFixGetFlow_keeps (r : Req) (s : State) : OutKeeps s (execFixGetFlow r s) := 
  mailboxCommand_keeps (fun hk => fixGetFlowBody_keeps hk r)

theorem execFixGetLog_keeps (r : Req) (s : State) : OutKeeps s (execFixGetLog r s) := 
  mailboxCommand_keeps (fun hk => fixGetLogBody_keeps hk r)

theorem execFixRelease_keeps (r : Req) (s : State) : OutKeeps s (execFixRelease r s) := 
  mailboxCommand_keeps (fun hk => fixReleaseBody_keeps hk r)

theorem execFixFlush_keeps (r : Req) (s : State) : OutKeeps s (execFixFlush r s) := 
  mailboxCommand_keeps (fun hk => fixFlushBody_keeps hk r)

theorem execFixGetReceipt_keeps (r : Req) (s : State) : OutKeeps s (execFixGetReceipt r s) := 
  mailboxCommand_keeps (fun hk => fixGetReceiptBody_keeps hk r)

theorem execLeavenGetCluster_keeps (r : Req) (s : State) : OutKeeps s (execLeavenGetCluster r s) := 
  mailboxCommand_keeps (fun hk => leavenGetClusterBody_keeps hk r)

theorem execLeavenSetEvents_keeps (r : Req) (s : State) : OutKeeps s (execLeavenSetEvents r s) := 
  mailboxCommand_keeps (fun hk => leavenSetEventsBody_keeps hk r)

theorem execLeavenGetCore_keeps (r : Req) (s : State) : OutKeeps s (execLeavenGetCore r s) := 
  mailboxCommand_keeps (fun hk => leavenGetCoreBody_keeps hk r)

theorem execFixGetCounters_keeps (r : Req) (s : State) : OutKeeps s (execFixGetCounters r s) := 
  mailboxCommand_keeps (fun hk => fixGetCountersBody_keeps hk r)

end Sys2Proof.Machine
end

