-- ==== Sys2Proof/Laws/KeepProofing.lean ====
section
/-! SUPPORT. What the operations of Proofing keep. -/

set_option Elab.async false
set_option linter.all false

namespace Sys2Proof.Machine

theorem State.holdExpired_keeps {s0 s : State} (hK : Keeps s0 s) (idx : Nat) : Keeps s0 (State.holdExpired s idx) :=
    by
  unfold State.holdExpired
  (try dsimp only)
  repeat' first
    | with_reducible (first | exact hK | apply State.tgtFail_keeps)
    | (with_reducible refine Keeps.ite (fun _ => ?_) (fun _ => ?_))

theorem execHoldTimerExpiry_keeps (target : Nat) (s : State) : OutKeeps s (execHoldTimerExpiry target s) := by
  unfold execHoldTimerExpiry
  (try dsimp only)
  repeat' first
    | with_reducible (first
        | exact OutKeeps.fault _ _ | apply OutKeeps.next | exact Keeps.refl _ | apply State.holdExpired_keeps)
    | (with_reducible refine Keeps.ite (fun _ => ?_) (fun _ => ?_)) | split

theorem State.spinDown_keeps {s0 s : State} (hK : Keeps s0 s) (idx : Nat) : Keeps s0 (State.spinDown s idx) := by
  unfold State.spinDown
  (try dsimp only)
  repeat' first
    | with_reducible (first | exact hK | apply State.bumpProof_keeps | apply State.setTgt_keeps | apply State.updDrop_keeps)
    | (with_reducible refine Keeps.foldl _ (fun _ _ hK => ?_) _ ?_) | (intro _ hK; skip)
    | with_reducible assumption | (with_reducible refine Keeps.ite (fun _ => ?_) (fun _ => ?_)) | split
    | fail_if_no_progress with_reducible refine Keeps.fields ?_

theorem State.idleExpired_keeps {s0 s : State} (hK : Keeps s0 s) (idx : Nat) : Keeps s0 (State.idleExpired s idx) :=
    by
  unfold State.idleExpired
  (try dsimp only)
  repeat' first
    | with_reducible (first | exact hK | apply idle_keeps | apply State.spinDown_keeps)
    | (with_reducible refine Keeps.ite (fun _ => ?_) (fun _ => ?_))

theorem execIdleSpindownTimer_keeps (target : Nat) (s : State) : OutKeeps s (execIdleSpindownTimer target s) := by
  unfold execIdleSpindownTimer
  (try dsimp only)
  repeat' first
    | with_reducible (first
        | exact OutKeeps.fault _ _ | apply OutKeeps.next | exact Keeps.refl _ | apply State.idleExpired_keeps)
    | (with_reducible refine Keeps.ite (fun _ => ?_) (fun _ => ?_)) | split

theorem State.releaseTo_keeps {s0 s : State} (hK : Keeps s0 s) (pk : Pkt) (p : Nat) : Keeps s0 (State.releaseTo s pk
    p) := by
  unfold State.releaseTo
  (try dsimp only)
  repeat' first
    | with_reducible (first
        | exact hK | apply State.enqueuePkt_keeps | apply State.spillWrite_keeps | apply State.takeCells_keeps
        | apply State.updPkt_keeps | apply State.spillIn_keeps | apply State.xoffSweep_keeps)
    | (intro _ hK; skip) | with_reducible assumption | (with_reducible refine Keeps.ite (fun _ => ?_) (fun _ => ?_))

theorem State.drainOne_keeps {s0 s : State} (hK : Keeps s0 s) (idx : Nat) : Keeps s0 (State.drainOne s idx) := by
  unfold State.drainOne
  (try dsimp only)
  repeat' first
    | with_reducible (first
        | exact hK | apply State.bumpProof_keeps | apply State.queueEmptied_keeps | apply State.releaseTo_keeps
        | apply State.unpark_keeps)
    | (with_reducible refine Keeps.ite (fun _ => ?_) (fun _ => ?_)) | split

theorem execParkDrainRelease_keeps (target : Nat) (s : State) : OutKeeps s (execParkDrainRelease target s) := by
  unfold execParkDrainRelease
  (try dsimp only)
  repeat' first
    | with_reducible (first
        | exact OutKeeps.fault _ _ | apply OutKeeps.next | exact Keeps.refl _ | apply State.drainOne_keeps)
    | (with_reducible refine Keeps.ite (fun _ => ?_) (fun _ => ?_)) | split

theorem State.sendShelf_keeps {s0 s : State} (hK : Keeps s0 s) (bus : Nat) (drop : Nat) (type : Nat) (p : List Byte) :
    Keeps s0 (State.sendShelf s bus drop type p) := by
  unfold State.sendShelf
  (try dsimp only)
  repeat' first
    | with_reducible (first | exact hK | apply State.emit_keeps | apply State.updBus_keeps)
    | (with_reducible refine Keeps.foldl _ (fun _ _ hK => ?_) _ ?_) | (intro _ hK; skip)
    | with_reducible assumption | (with_reducible refine Keeps.ite (fun _ => ?_) (fun _ => ?_)) | split
    | fail_if_no_progress with_reducible refine Keeps.fields ?_

theorem State.endCycle_keeps {s0 s : State} (hK : Keeps s0 s) (bus : Nat) : Keeps s0 (State.endCycle s bus) := by
  unfold State.endCycle
  (try dsimp only)
  repeat' first
    | with_reducible (first | exact hK | apply State.bumpProof_keeps | apply State.updDrop_keeps)
    | (with_reducible refine Keeps.foldl _ (fun _ _ hK => ?_) _ ?_) | (intro _ hK; skip)

theorem State.pollCycle_keeps {s0 s : State} (hK : Keeps s0 s) (bus : Nat) : Keeps s0 (State.pollCycle s bus) := by
  unfold State.pollCycle
  (try dsimp only)
  repeat' first
    | with_reducible (first | exact hK | apply State.endCycle_keeps | apply State.updBus_keeps) | (intro _ hK; skip)
    | with_reducible assumption | (with_reducible refine Keeps.ite (fun _ => ?_) (fun _ => ?_))

theorem execPollCycleStart_keeps (bus : Nat) (s : State) : OutKeeps s (execPollCycleStart bus s) := by
  unfold execPollCycleStart
  (try dsimp only)
  repeat' first
    | with_reducible (first
        | exact OutKeeps.fault _ _ | apply OutKeeps.next | exact Keeps.refl _ | apply State.pollCycle_keeps)
    | (with_reducible refine Keeps.ite (fun _ => ?_) (fun _ => ?_)) | split

theorem State.pollNext_keeps {s0 s : State} (hK : Keeps s0 s) (bus : Nat) : Keeps s0 (State.pollNext s bus) := by
  unfold State.pollNext
  (try dsimp only)
  repeat' first
    | with_reducible (first
        | exact hK | apply State.bumpProof_keeps | apply State.sendShelf_keeps | apply State.updBus_keeps
        | apply State.updDrop_keeps)
    | (intro _ hK; skip) | with_reducible assumption | split

theorem execPollSlot_keeps (bus : Nat) (s : State) : OutKeeps s (execPollSlot bus s) := by
  unfold execPollSlot
  (try dsimp only)
  repeat' first
    | with_reducible (first
        | exact OutKeeps.fault _ _ | apply OutKeeps.next | exact Keeps.refl _ | apply State.pollNext_keeps)
    | (with_reducible refine Keeps.ite (fun _ => ?_) (fun _ => ?_)) | split

theorem State.missed_keeps {s0 s : State} (hK : Keeps s0 s) (bus : Nat) (badCrc : Bool) : Keeps s0 (State.missed s bus
    badCrc) := by
  unfold State.missed
  (try dsimp only)
  repeat' first
    | with_reducible (first
        | exact hK | apply State.bumpProof_keeps | apply State.raise_keeps | apply State.updBus_keeps
        | apply State.updDrop_keeps)
    | (intro _ hK; skip) | with_reducible assumption | (with_reducible refine Keeps.ite (fun _ => ?_) (fun _ => ?_))
    | split

theorem execShelfReplyTimeout_keeps (bus : Nat) (s : State) : OutKeeps s (execShelfReplyTimeout bus s) := by
  unfold execShelfReplyTimeout
  (try dsimp only)
  repeat' first
    | with_reducible (first
        | exact OutKeeps.fault _ _ | apply OutKeeps.next | exact Keeps.refl _ | apply State.missed_keeps)
    | (with_reducible refine Keeps.ite (fun _ => ?_) (fun _ => ?_)) | split

theorem execShelfReplyDiscarded_keeps (bus : Nat) (badCrc : Bool) (s : State) : OutKeeps s (execShelfReplyDiscarded
    bus badCrc s) := by
  unfold execShelfReplyDiscarded
  (try dsimp only)
  repeat' first
    | with_reducible (first
        | exact OutKeeps.fault _ _ | apply OutKeeps.next | exact Keeps.refl _ | apply State.missed_keeps)
    | (with_reducible refine Keeps.ite (fun _ => ?_) (fun _ => ?_)) | split

theorem State.batteryTarget_keeps {s0 s : State} (hK : Keeps s0 s) (idx : Nat) : Keeps s0 (State.batteryTarget s idx)
    := by
  unfold State.batteryTarget
  (try dsimp only)
  repeat' first
    | with_reducible (first
        | exact hK | apply State.dropParked_keeps | apply State.dropWake_keeps | apply State.setTgt_keeps)
    | (with_reducible refine Keeps.ite (fun _ => ?_) (fun _ => ?_))

theorem State.onBattery_keeps {s0 s : State} (hK : Keeps s0 s) (bus : Nat) (d : Nat) : Keeps s0 (State.onBattery s bus
    d) := by
  unfold State.onBattery
  (try dsimp only)
  repeat' first
    | with_reducible (first
        | exact hK | apply State.batteryTarget_keeps | apply State.dropWake_keeps | apply State.raise_keeps
        | apply State.updDrop_keeps)
    | (with_reducible refine Keeps.foldl _ (fun _ _ hK => ?_) _ ?_) | (intro _ hK; skip)

theorem State.readBattery_keeps {s0 s : State} (hK : Keeps s0 s) (bus : Nat) (d : Nat) (on : Bool) : Keeps s0
    (State.readBattery s bus d on) := by
  unfold State.readBattery
  (try dsimp only)
  repeat' first
    | with_reducible (first
        | exact hK | apply State.onBattery_keeps | apply State.raise_keeps | apply State.updDrop_keeps)
    | (intro _ hK; skip) | with_reducible assumption | split

theorem State.reportWaking_keeps {s0 s : State} (hK : Keeps s0 s) (idx : Nat) : Keeps s0 (State.reportWaking s idx) :=
    by
  unfold State.reportWaking
  (try dsimp only)
  repeat' first
    | with_reducible (first
        | exact hK | apply State.dropWake_keeps | apply State.setTgt_keeps | apply State.updTarget_keeps)
    | (intro _ hK; skip)

theorem State.spindleReport_keeps {s0 s : State} (hK : Keeps s0 s) (idx : Nat) (code : Nat) : Keeps s0
    (State.spindleReport s idx code) := by
  unfold State.spindleReport
  (try dsimp only)
  repeat' first
    | with_reducible (first
        | exact hK | apply State.bumpProof_keeps | apply State.raise_keeps | apply State.reportWaking_keeps
        | apply State.setTgt_keeps | apply State.tgtFail_keeps | apply State.tgtReady_keeps
        | apply State.updTarget_keeps)
    | (intro _ hK; skip) | with_reducible assumption | split

theorem State.applyPage_keeps {s0 s : State} (hK : Keeps s0 s) (bus : Nat) (d : Nat) (st : List Byte) : Keeps s0
    (State.applyPage s bus d st) := by
  unfold State.applyPage
  (try dsimp only)
  repeat' first
    | with_reducible (first | exact hK | apply State.spindleReport_keeps | apply State.updDrop_keeps)
    | (with_reducible refine Keeps.foldl _ (fun _ _ hK => ?_) _ ?_) | (intro _ hK; skip) | with_reducible assumption
    | (with_reducible refine Keeps.ite (fun _ => ?_) (fun _ => ?_)) | split

theorem State.newCmd_keeps {s0 s : State} (hK : Keeps s0 s) (bus : Nat) (d : Nat) (type : Nat) (slots : List Nat) :
    Keeps s0 (State.newCmd s bus d type slots) := by
  unfold State.newCmd
  (try dsimp only)
  repeat' first
    | with_reducible (first | exact hK | apply State.sendShelf_keeps | apply State.updDrop_keeps)
    | (with_reducible refine Keeps.foldl _ (fun _ _ hK => ?_) _ ?_) | (intro _ hK; skip)
    | with_reducible assumption | (with_reducible refine Keeps.ite (fun _ => ?_) (fun _ => ?_)) | split
    | fail_if_no_progress with_reducible refine Keeps.fields ?_

theorem State.issueWake_keeps {s0 s : State} (hK : Keeps s0 s) (idx : Nat) : Keeps s0 (State.issueWake s idx) := by
  unfold State.issueWake
  (try dsimp only)
  repeat' first
    | with_reducible (first
        | exact hK | apply State.bumpProof_keeps | apply State.dropWake_keeps | apply State.setTgt_keeps
        | apply State.updTarget_keeps)
    | (intro _ hK; skip)

theorem State.slotCommand_keeps {s0 s : State} (hK : Keeps s0 s) (bus : Nat) (d : Nat) (ident : Bool) : Keeps s0
    (State.slotCommand s bus d ident) := by
  unfold State.slotCommand
  (try dsimp only)
  repeat' first
    | with_reducible (first
        | exact hK | apply State.bumpProof_keeps | apply State.issueWake_keeps | apply State.newCmd_keeps
        | apply State.sendShelf_keeps | apply State.updDrop_keeps)
    | (with_reducible refine Keeps.foldl _ (fun _ _ hK => ?_) _ ?_) | (intro _ hK; skip) | with_reducible assumption
    | (with_reducible refine Keeps.ite (fun _ => ?_) (fun _ => ?_)) | split

theorem State.pruneCmd_keeps {s0 s : State} (hK : Keeps s0 s) (bus : Nat) (d : Nat) : Keeps s0 (State.pruneCmd s bus
    d) := by
  unfold State.pruneCmd
  (try dsimp only)
  repeat' first
    | with_reducible (first | exact hK | apply State.updDrop_keeps) | (intro _ hK; skip) | with_reducible assumption
    | (with_reducible refine Keeps.ite (fun _ => ?_) (fun _ => ?_)) | split

theorem State.becomePresent_keeps {s0 s : State} (hK : Keeps s0 s) (bus : Nat) (d : Nat) : Keeps s0
    (State.becomePresent s bus d) := by
  unfold State.becomePresent
  (try dsimp only)
  repeat' first
    | with_reducible (first | exact hK | apply State.raise_keeps | apply State.updDrop_keeps) | (intro _ hK; skip)
    | with_reducible assumption | (with_reducible refine Keeps.ite (fun _ => ?_) (fun _ => ?_))

theorem State.readStatus_keeps {s0 s : State} (hK : Keeps s0 s) (bus : Nat) (d : Nat) (st : List Byte) : Keeps s0
    (State.readStatus s bus d st) := by
  unfold State.readStatus
  (try dsimp only)
  repeat' first
    | with_reducible (first
        | exact hK | apply State.applyPage_keeps | apply State.becomePresent_keeps | apply State.raise_keeps
        | apply State.readBattery_keeps | apply State.updDrop_keeps)
    | (intro _ hK; skip) | with_reducible assumption | (with_reducible refine Keeps.ite (fun _ => ?_) (fun _ => ?_))

theorem State.statusReply_keeps {s0 s : State} (hK : Keeps s0 s) (bus : Nat) (st : List Byte) : Keeps s0
    (State.statusReply s bus st) := by
  unfold State.statusReply
  (try dsimp only)
  repeat' first
    | with_reducible (first
        | exact hK | apply State.missed_keeps | apply State.pruneCmd_keeps | apply State.readStatus_keeps
        | apply State.slotCommand_keeps | apply State.updBus_keeps)
    | (intro _ hK; skip) | with_reducible assumption | (with_reducible refine Keeps.ite (fun _ => ?_) (fun _ => ?_))
    | split

theorem execShelfStatusReceived_keeps (bus : Nat) (payload : List Byte) (s : State) : OutKeeps s
    (execShelfStatusReceived bus payload s) := by
  unfold execShelfStatusReceived
  (try dsimp only)
  repeat' first
    | with_reducible (first
        | exact OutKeeps.fault _ _ | apply OutKeeps.next | exact Keeps.refl _ | apply State.statusReply_keeps)
    | (with_reducible refine Keeps.ite (fun _ => ?_) (fun _ => ?_)) | split

theorem State.ackResult_keeps {s0 s : State} (hK : Keeps s0 s) (bus : Nat) (d : Nat) (c : Nat × List Nat) (result :
    Nat) : Keeps s0 (State.ackResult s bus d c result) := by
  unfold State.ackResult
  (try dsimp only)
  repeat' first
    | with_reducible (first
        | exact hK | apply State.onBattery_keeps | apply State.pruneCmd_keeps | apply State.tgtFail_keeps
        | apply State.updDrop_keeps)
    | (with_reducible refine Keeps.foldl _ (fun _ _ hK => ?_) _ ?_) | (intro _ hK; skip) | with_reducible assumption
    | (with_reducible refine Keeps.ite (fun _ => ?_) (fun _ => ?_)) | split

theorem State.ackReply_keeps {s0 s : State} (hK : Keeps s0 s) (bus : Nat) (p : List Byte) : Keeps s0 (State.ackReply s
    bus p) := by
  unfold State.ackReply
  (try dsimp only)
  repeat' first
    | with_reducible (first
        | exact hK | apply State.ackResult_keeps | apply State.missed_keeps | apply State.updBus_keeps
        | apply State.updDrop_keeps)
    | (intro _ hK; skip) | with_reducible assumption | (with_reducible refine Keeps.ite (fun _ => ?_) (fun _ => ?_))
    | split

theorem execShelfAckReceived_keeps (bus : Nat) (payload : List Byte) (s : State) : OutKeeps s (execShelfAckReceived
    bus payload s) := by
  unfold execShelfAckReceived
  (try dsimp only)
  repeat' first
    | with_reducible (first
        | exact OutKeeps.fault _ _ | apply OutKeeps.next | exact Keeps.refl _ | apply State.ackReply_keeps)
    | (with_reducible refine Keeps.ite (fun _ => ?_) (fun _ => ?_)) | split

theorem State.identReply_keeps {s0 s : State} (hK : Keeps s0 s) (bus : Nat) (p : List Byte) : Keeps s0
    (State.identReply s bus p) := by
  unfold State.identReply
  (try dsimp only)
  repeat' first
    | with_reducible (first
        | exact hK | apply State.missed_keeps | apply State.updBus_keeps | apply State.updDrop_keeps)
    | (intro _ hK; skip) | with_reducible assumption | (with_reducible refine Keeps.ite (fun _ => ?_) (fun _ => ?_))
    | split

theorem execShelfIdentReceived_keeps (bus : Nat) (payload : List Byte) (s : State) : OutKeeps s
    (execShelfIdentReceived bus payload s) := by
  unfold execShelfIdentReceived
  (try dsimp only)
  repeat' first
    | with_reducible (first
        | exact OutKeeps.fault _ _ | apply OutKeeps.next | exact Keeps.refl _ | apply State.identReply_keeps)
    | (with_reducible refine Keeps.ite (fun _ => ?_) (fun _ => ?_)) | split

theorem applyProofSetClass_keeps {s0 s : State} (hK : Keeps s0 s) (p : List Byte) : Keeps s0 (applyProofSetClass p s)
    :=
  hK.upd rfl

theorem proofSetClassBody_keeps {s0 s : State} (hK : Keeps s0 s) (r : Req) : Keeps s0 (proofSetClassBody r s).1 := by
  unfold proofSetClassBody
  (try dsimp only)
  repeat' first
    | with_reducible exact hK | exact setCmd_keeps (fun p hk => applyProofSetClass_keeps hk p) hK r

theorem execProofSetClass_keeps (r : Req) (s : State) : OutKeeps s (execProofSetClass r s) := 
  mailboxCommand_keeps (fun hk => proofSetClassBody_keeps hk r)

theorem State.validate_keeps {s0 s : State} (hK : Keeps s0 s) (idx : Nat) (p : List Byte) : Keeps s0 (State.validate s
    idx p) := by
  unfold State.validate
  (try dsimp only)
  repeat' first
    | with_reducible (first | exact hK | apply State.updTarget_keeps) | (intro _ hK; skip)
    | (with_reducible refine Keeps.ite (fun _ => ?_) (fun _ => ?_))

theorem State.devalidate_keeps {s0 s : State} (hK : Keeps s0 s) (idx : Nat) (p : List Byte) : Keeps s0
    (State.devalidate s idx p) := by
  unfold State.devalidate
  (try dsimp only)
  repeat' first
    | with_reducible (first
        | exact hK | apply State.dropWake_keeps | apply State.tgtReady_keeps | apply State.updTarget_keeps)
    | (intro _ hK; skip) | with_reducible assumption | (with_reducible refine Keeps.ite (fun _ => ?_) (fun _ => ?_))

theorem applyProofSetTarget_keeps {s0 s : State} (hK : Keeps s0 s) (p : List Byte) : Keeps s0 (applyProofSetTarget p
    s) := by
  unfold applyProofSetTarget
  (try dsimp only)
  repeat' first
    | with_reducible (first | exact hK | apply State.devalidate_keeps | apply State.validate_keeps)
    | (with_reducible refine Keeps.ite (fun _ => ?_) (fun _ => ?_))

theorem proofSetTargetBody_keeps {s0 s : State} (hK : Keeps s0 s) (r : Req) : Keeps s0 (proofSetTargetBody r s).1 :=
    by
  unfold proofSetTargetBody
  (try dsimp only)
  repeat' first
    | with_reducible exact hK | exact setCmd_keeps (fun p hk => applyProofSetTarget_keeps hk p) hK r

theorem execProofSetTarget_keeps (r : Req) (s : State) : OutKeeps s (execProofSetTarget r s) := 
  mailboxCommand_keeps (fun hk => proofSetTargetBody_keeps hk r)

theorem State.proofAction_keeps {s0 s t : State} (h : Keeps s0 s) {idx action : Nat} (e : s.proofAction idx action = some t) :
    Keeps s0 t := by
  unfold State.proofAction at e
  dsimp only at e
  repeat' split at e
  all_goals first | cases e | injection e with e; subst e
  · exact State.spinDown_keeps h _
  · exact State.queueWake_keeps h _
  · exact State.tgtReady_keeps h _ _
  · exact State.setTgt_keeps h _ _

theorem proofSetStateBody_keeps {s0 s : State} (h : Keeps s0 s) (r : Req) : Keeps s0 (proofSetStateBody r s).1 := by
  unfold proofSetStateBody
  split
  · exact h
  · split
    · next e => exact State.proofAction_keeps h e
    · exact h

theorem execProofSetState_keeps (r : Req) (s : State) : OutKeeps s (execProofSetState r s) := 
  mailboxCommand_keeps (fun hk => proofSetStateBody_keeps hk r)

theorem proofGetTargetBody_keeps {s0 s : State} (hK : Keeps s0 s) (r : Req) : Keeps s0 (proofGetTargetBody r s).1 :=
    by
  unfold proofGetTargetBody
  (try dsimp only)
  repeat' first
    | with_reducible (first | exact hK | apply readCmd_keeps) | (intro _ hK; skip)

theorem execProofGetTarget_keeps (r : Req) (s : State) : OutKeeps s (execProofGetTarget r s) := 
  mailboxCommand_keeps (fun hk => proofGetTargetBody_keeps hk r)

theorem applyShelfSet_keeps {s0 s : State} (hK : Keeps s0 s) (p : List Byte) : Keeps s0 (applyShelfSet p s) := by
  unfold applyShelfSet
  (try dsimp only)
  repeat' first
    | with_reducible (first | exact hK | apply State.updDrop_keeps)
    | (with_reducible refine Keeps.foldl _ (fun _ _ hK => ?_) _ ?_) | (intro _ hK; skip)
    | with_reducible assumption | (with_reducible refine Keeps.ite (fun _ => ?_) (fun _ => ?_)) | split
    | fail_if_no_progress with_reducible refine Keeps.fields ?_

theorem shelfSetBody_keeps {s0 s : State} (hK : Keeps s0 s) (r : Req) : Keeps s0 (shelfSetBody r s).1 := by
  unfold shelfSetBody
  (try dsimp only)
  repeat' first
    | with_reducible exact hK | exact setCmd_keeps (fun p hk => applyShelfSet_keeps hk p) hK r

theorem execShelfSet_keeps (r : Req) (s : State) : OutKeeps s (execShelfSet r s) := 
  mailboxCommand_keeps (fun hk => shelfSetBody_keeps hk r)

theorem shelfGetBody_keeps {s0 s : State} (hK : Keeps s0 s) (r : Req) : Keeps s0 (shelfGetBody r s).1 := by
  unfold shelfGetBody
  (try dsimp only)
  repeat' first
    | with_reducible (first | exact hK | apply readCmd_keeps) | (intro _ hK; skip)
    | (with_reducible refine Keeps.ite (fun _ => ?_) (fun _ => ?_))

theorem execShelfGet_keeps (r : Req) (s : State) : OutKeeps s (execShelfGet r s) := 
  mailboxCommand_keeps (fun hk => shelfGetBody_keeps hk r)

theorem applyShelfSetBus_keeps {s0 s : State} (hK : Keeps s0 s) (p : List Byte) : Keeps s0 (applyShelfSetBus p s) :=
    by
  unfold applyShelfSetBus
  (try dsimp only)
  repeat' first
    | with_reducible (first | exact hK | apply State.updBus_keeps) | (intro _ hK; skip)
    | (with_reducible refine Keeps.ite (fun _ => ?_) (fun _ => ?_))

theorem shelfSetBusBody_keeps {s0 s : State} (hK : Keeps s0 s) (r : Req) : Keeps s0 (shelfSetBusBody r s).1 := by
  unfold shelfSetBusBody
  (try dsimp only)
  repeat' first
    | with_reducible exact hK | exact setCmd_keeps (fun p hk => applyShelfSetBus_keeps hk p) hK r

theorem execShelfSetBus_keeps (r : Req) (s : State) : OutKeeps s (execShelfSetBus r s) := 
  mailboxCommand_keeps (fun hk => shelfSetBusBody_keeps hk r)

theorem proofGetCountersBody_keeps {s0 s : State} (hK : Keeps s0 s) (r : Req) : Keeps s0 (proofGetCountersBody r s).1
    := by
  unfold proofGetCountersBody
  (try dsimp only)
  repeat' first
    | with_reducible (first | exact hK | apply readCmd_keeps) | (intro _ hK; skip)

theorem execProofGetCounters_keeps (r : Req) (s : State) : OutKeeps s (execProofGetCounters r s) := 
  mailboxCommand_keeps (fun hk => proofGetCountersBody_keeps hk r)

end Sys2Proof.Machine
end

