-- ==== Sys2Proof/Laws/KeepChannels.lean ====
section
/-! SUPPORT. What the operations of Channels keep. -/

set_option Elab.async false
set_option linter.all false

namespace Sys2Proof.Machine

theorem State.putStaging_keeps {s0 s : State} (h : Keeps s0 s) (o : Nat) (b : Byte) : Keeps s0 (s.putStaging o b) := by
  have hp : Keeps s0 { s with host := { s.host with staging := Tab.set 0 s.host.staging o b } } := by
    refine h.trans ⟨rfl, fun g => ⟨g.time, ?_, g.hist, g.sessions, g.held⟩⟩
    have hm := g.mem
    simp only [Memory.wf, Bool.and_eq_true] at hm ⊢
    exact ⟨⟨⟨⟨⟨⟨hm.1.1.1.1.1.1, Tab.wf_set o b hm.1.1.1.1.1.2⟩, hm.1.1.1.1.2⟩, hm.1.1.1.2⟩, hm.1.1.2⟩, hm.1.2⟩, hm.2⟩
  unfold State.putStaging
  dsimp only
  repeat' first
    | with_reducible exact hp | with_reducible apply State.updFix_keeps | with_reducible exact h | split

theorem State.putStagingBytes_keeps {s0 s : State} (hK : Keeps s0 s) (o : Nat) (vv : List Byte) : Keeps s0
    (State.putStagingBytes s o vv) := by
  induction vv generalizing s o with
  | nil => exact hK | cons a l ih =>
    unfold State.putStagingBytes
    (try dsimp only)
    repeat' first
      | with_reducible (first | apply ih | exact hK | apply State.putStaging_keeps)

theorem State.sendReq_keeps {s0 s : State} (hK : Keeps s0 s) (c : Nat) (r : ReadReq) : Keeps s0 (State.sendReq s c r)
    := by
  unfold State.sendReq
  (try dsimp only)
  repeat' first
    | with_reducible (first | exact hK | apply State.emit_keeps | apply State.updChan_keeps)
    | (with_reducible refine Keeps.foldl _ (fun _ _ hK => ?_) _ ?_) | (intro _ hK; skip)
    | with_reducible assumption | (with_reducible refine Keeps.ite (fun _ => ?_) (fun _ => ?_)) | split
    | fail_if_no_progress with_reducible refine Keeps.fields ?_

theorem State.askReq_keeps {s0 s : State} (hK : Keeps s0 s) (c : Nat) (r : ReadReq) : Keeps s0 (State.askReq s c r) :=
    by
  unfold State.askReq
  (try dsimp only)
  repeat' first
    | with_reducible (first | exact hK | apply State.sendReq_keeps | apply State.updChan_keeps)
    | (with_reducible refine Keeps.foldl _ (fun _ _ hK => ?_) _ ?_) | (intro _ hK; skip)
    | with_reducible assumption | (with_reducible refine Keeps.ite (fun _ => ?_) (fun _ => ?_)) | split
    | fail_if_no_progress with_reducible refine Keeps.fields ?_

theorem State.askRead_keeps {s0 s : State} (hK : Keeps s0 s) (c : Nat) (r : ReadReq) : Keeps s0 (State.askRead s c r)
    := by
  unfold State.askRead
  (try dsimp only)
  repeat' first
    | with_reducible (first | exact hK | apply State.sendRead_keeps | apply State.updChan_keeps | apply State.askReq_keeps)
    | (with_reducible refine Keeps.foldl _ (fun _ _ hK => ?_) _ ?_) | (intro _ hK; skip)
    | with_reducible assumption | (with_reducible refine Keeps.ite (fun _ => ?_) (fun _ => ?_)) | split
    | fail_if_no_progress with_reducible refine Keeps.fields ?_

theorem State.askDesc_keeps {s0 s : State} (hK : Keeps s0 s) (c : Nat) (a : Nat) : Keeps s0 (State.askDesc s c a) :=
    by
  unfold State.askDesc
  (try dsimp only)
  repeat' first
    | with_reducible (first | exact hK | apply State.askRead_keeps)
    | (with_reducible refine Keeps.foldl _ (fun _ _ hK => ?_) _ ?_) | (intro _ hK; skip)
    | with_reducible assumption | (with_reducible refine Keeps.ite (fun _ => ?_) (fun _ => ?_)) | split
    | fail_if_no_progress with_reducible refine Keeps.fields ?_

theorem State.serveReads_keeps {s0 s : State} (hK : Keeps s0 s) : Keeps s0 (State.serveReads s) := by
  unfold State.serveReads
  (try dsimp only)
  repeat' first
    | with_reducible (first | exact hK | apply State.sendRead_keeps | apply State.updChan_keeps | apply State.sendReq_keeps) | (intro _ hK; skip)
    | with_reducible assumption | (with_reducible refine Keeps.ite (fun _ => ?_) (fun _ => ?_)) | split
    | fail_if_no_progress ((with_reducible apply Keeps.fields); (case hq => rfl); (case hs => first | rfl | simp); (case hc => rfl))

theorem State.readDone_keeps {s0 s : State} (hK : Keeps s0 s) (c : Nat) (n : Nat) : Keeps s0 (State.readDone s c n) :=
    by
  unfold State.readDone
  (try dsimp only)
  repeat' first
    | with_reducible (first | exact hK | apply State.serveReads_keeps | apply State.updChan_keeps)
    | (with_reducible refine Keeps.foldl _ (fun _ _ hK => ?_) _ ?_) | (intro _ hK; skip)
    | with_reducible assumption | (with_reducible refine Keeps.ite (fun _ => ?_) (fun _ => ?_)) | split
    | fail_if_no_progress with_reducible refine Keeps.fields ?_

theorem State.drainReads_keeps {s0 s : State} (hK : Keeps s0 s) (n c : Nat) : Keeps s0 (State.drainReads n s c) := by
  induction n generalizing s with
  | zero => exact hK
  | succ n ih =>
    unfold State.drainReads
    exact Keeps.ite (fun _ => hK) (fun _ => ih (State.readDone_keeps (State.updChan_keeps hK _ _) _ _))

theorem State.dataDone_keeps {s0 s : State} (hK : Keeps s0 s) (c : Nat) : Keeps s0 (State.dataDone s c) := by
  unfold State.dataDone
  (try dsimp only)
  repeat' first
    | with_reducible (first | exact hK | apply State.readDone_keeps | apply State.updChan_keeps)
    | (with_reducible refine Keeps.foldl _ (fun _ _ hK => ?_) _ ?_) | (intro _ hK; skip)
    | with_reducible assumption | (with_reducible refine Keeps.ite (fun _ => ?_) (fun _ => ?_)) | split
    | fail_if_no_progress with_reducible refine Keeps.fields ?_

theorem State.tagsBack_keeps {s0 s : State} (hK : Keeps s0 s) (c : Nat) : Keeps s0 (State.tagsBack s c) := by
  unfold State.tagsBack
  (try dsimp only)
  repeat' first
    | with_reducible (first | exact hK | apply State.readDone_keeps | apply State.updChan_keeps)
    | (with_reducible refine Keeps.foldl _ (fun _ _ hK => ?_) _ ?_) | (intro _ hK; skip)
    | with_reducible assumption | (with_reducible refine Keeps.ite (fun _ => ?_) (fun _ => ?_)) | split
    | fail_if_no_progress with_reducible refine Keeps.fields ?_

theorem State.sendData_keeps {s0 s : State} (hK : Keeps s0 s) (c : Nat) (d : List Byte) (addr : Nat) (data : List
    Byte) : Keeps s0 (State.sendData s c d addr data) := by
  unfold State.sendData
  (try dsimp only)
  repeat' first
    | with_reducible (first | exact hK | apply State.emit_keeps)
    | (with_reducible refine Keeps.foldl _ (fun _ _ hK => ?_) _ ?_) | (intro _ hK; skip)
    | with_reducible assumption | (with_reducible refine Keeps.ite (fun _ => ?_) (fun _ => ?_)) | split
    | fail_if_no_progress with_reducible refine Keeps.fields ?_

theorem State.cqOne_keeps {s0 s : State} (hK : Keeps s0 s) (c : Nat) : Keeps s0 (State.cqOne s c) := by
  unfold State.cqOne
  (try dsimp only)
  repeat' first
    | with_reducible (first
        | exact hK | apply State.askRead_keeps | apply State.emit_keeps | apply State.interrupt_keeps
        | apply State.updChan_keeps)
    | (intro _ hK; skip) | with_reducible assumption | (with_reducible refine Keeps.ite (fun _ => ?_) (fun _ => ?_))
    | split

theorem State.cqPump_keeps {s0 s : State} (hK : Keeps s0 s) (c : Nat) : Keeps s0 (State.cqPump s c) := by
  unfold State.cqPump
  (try dsimp only)
  repeat' first
    | with_reducible (first | exact hK | apply State.cqOne_keeps)
    | (with_reducible refine Keeps.foldl _ (fun _ _ hK => ?_) _ ?_) | (intro _ hK; skip)

theorem State.dropPartial_keeps {s0 s : State} (hK : Keeps s0 s) (c : Nat) : Keeps s0 (State.dropPartial s c) := by
  unfold State.dropPartial
  (try dsimp only)
  repeat' first
    | with_reducible (first | exact hK | apply State.updFifo_keeps) | (intro _ hK; skip) | with_reducible assumption
    | (with_reducible refine Keeps.ite (fun _ => ?_) (fun _ => ?_))

theorem State.chanStop_keeps {s0 s : State} (hK : Keeps s0 s) (c : Nat) : Keeps s0 (State.chanStop s c) := by
  unfold State.chanStop
  (try dsimp only)
  repeat' first
    | with_reducible (first | exact hK | apply State.dropPartial_keeps | apply State.updChan_keeps)
    | (intro _ hK; skip)

theorem State.chanFetch_keeps {s0 s : State} (hK : Keeps s0 s) (c : Nat) (a : BitVec 64) : Keeps s0 (State.chanFetch s
    c a) := by
  unfold State.chanFetch
  (try dsimp only)
  repeat' first
    | with_reducible (first | exact hK | apply State.askRead_keeps | apply State.updChan_keeps | apply State.askDesc_keeps) | (intro _ hK; skip)

theorem State.chanFollow_keeps {s0 s : State} (hK : Keeps s0 s) (c : Nat) (link : BitVec 64) : Keeps s0
    (State.chanFollow s c link) := by
  unfold State.chanFollow
  (try dsimp only)
  repeat' first
    | with_reducible (first | exact hK | apply State.chanFetch_keeps | apply State.updChan_keeps) | (intro _ hK; skip)
    | (with_reducible refine Keeps.ite (fun _ => ?_) (fun _ => ?_))

theorem State.tailCheck_keeps {s0 s : State} (hK : Keeps s0 s) (c : Nat) : Keeps s0 (State.tailCheck s c) := by
  unfold State.tailCheck
  (try dsimp only)
  repeat' first
    | with_reducible (first
        | exact hK | apply State.askRead_keeps | apply idle_keeps | apply State.updChan_keeps
        | apply State.askDesc_keeps)
    | (intro _ hK; skip) | with_reducible assumption | (with_reducible refine Keeps.ite (fun _ => ?_) (fun _ => ?_))

theorem State.chanNext_keeps {s0 s : State} (hK : Keeps s0 s) (c : Nat) : Keeps s0 (State.chanNext s c) := by
  unfold State.chanNext
  (try dsimp only)
  repeat' first
    | with_reducible (first
        | exact hK | apply State.chanFollow_keeps | apply State.chanStop_keeps | apply idle_keeps
        | apply State.tailCheck_keeps | apply State.updChan_keeps)
    | (intro _ hK; skip) | with_reducible assumption | (with_reducible refine Keeps.ite (fun _ => ?_) (fun _ => ?_))

theorem State.chanGoOn_keeps {s0 s : State} (hK : Keeps s0 s) (c : Nat) : Keeps s0 (State.chanGoOn s c) := by
  unfold State.chanGoOn
  (try dsimp only)
  repeat' first
    | with_reducible (first | exact hK | apply State.chanNext_keeps | apply State.updChan_keeps) | (intro _ hK; skip)
    | with_reducible assumption | (with_reducible refine Keeps.ite (fun _ => ?_) (fun _ => ?_))

theorem State.cqResume_keeps {s0 s : State} (hK : Keeps s0 s) (c : Nat) : Keeps s0 (State.cqResume s c) := by
  unfold State.cqResume
  (try dsimp only)
  repeat' first
    | with_reducible (first | exact hK | apply State.chanGoOn_keeps | apply State.cqPump_keeps)
    | (with_reducible refine Keeps.ite (fun _ => ?_) (fun _ => ?_))

theorem State.chanHalt_keeps {s0 s : State} (hK : Keeps s0 s) (c : Nat) (status : Nat) : Keeps s0 (State.chanHalt s c
    status) := by
  unfold State.chanHalt
  (try dsimp only)
  repeat' first
    | with_reducible (first
        | exact hK | apply State.dropPartial_keeps | apply State.interrupt_keeps | apply State.raise_keeps
        | apply State.updChan_keeps)
    | (intro _ hK; skip)

theorem State.chanDone_keeps {s0 s : State} (hK : Keeps s0 s) (c : Nat) (status : Nat) (n : Nat) (sop : Bool) (eop :
    Bool) : Keeps s0 (State.chanDone s c status n sop eop) := by
  unfold State.chanDone
  (try dsimp only)
  repeat' first
    | with_reducible (first
        | exact hK | apply State.chanGoOn_keeps | apply State.chanHalt_keeps | apply State.cqPump_keeps
        | apply State.updChan_keeps)
    | (intro _ hK; skip) | with_reducible assumption | (with_reducible refine Keeps.ite (fun _ => ?_) (fun _ => ?_))

theorem State.chanError_keeps {s0 s : State} (hK : Keeps s0 s) (c : Nat) (status : Nat) : Keeps s0 (State.chanError s
    c status) := by
  unfold State.chanError
  (try dsimp only)
  repeat' first
    | with_reducible (first | exact hK | apply State.chanDone_keeps | apply State.drawn_keeps)

theorem State.takeDesc_keeps {s0 s : State} (hK : Keeps s0 s) (c : Nat) (d : List Byte) : Keeps s0 (State.takeDesc s c
    d) := by
  unfold State.takeDesc
  (try dsimp only)
  repeat' first
    | with_reducible (first
        | exact hK | apply State.askRead_keeps | apply State.chanDone_keeps | apply State.updChan_keeps)
    | (intro _ hK; skip) | with_reducible assumption | (with_reducible refine Keeps.ite (fun _ => ?_) (fun _ => ?_))
    | split

theorem State.descArrives_keeps {s0 s : State} (hK : Keeps s0 s) (c : Nat) (d : List Byte) : Keeps s0
    (State.descArrives s c d) := by
  unfold State.descArrives
  (try dsimp only)
  repeat' first
    | with_reducible (first
        | exact hK | apply State.readDone_keeps | apply State.takeDesc_keeps | apply State.updChan_keeps
        | apply State.chanHalt_keeps | apply State.tagsBack_keeps)
    | (intro _ hK; skip) | with_reducible assumption | (with_reducible refine Keeps.ite (fun _ => ?_) (fun _ => ?_))

theorem execDescriptorFetched_keeps (ch : Nat) (bytes : List Byte) (s : State) : OutKeeps s (execDescriptorFetched ch
    bytes s) := by
  unfold execDescriptorFetched
  (try dsimp only)
  repeat' first
    | with_reducible (first
        | exact OutKeeps.fault _ _ | apply OutKeeps.next | exact Keeps.refl _ | apply State.descArrives_keeps)
    | (with_reducible refine Keeps.ite (fun _ => ?_) (fun _ => ?_)) | split

theorem State.staleReread_keeps {s0 s : State} (hK : Keeps s0 s) (c : Nat) (d : List Byte) : Keeps s0
    (State.staleReread s c d) := by
  unfold State.staleReread
  (try dsimp only)
  repeat' first
    | with_reducible (first
        | exact hK | apply State.chanHalt_keeps | apply State.readDone_keeps | apply State.sendRead_keeps
        | apply State.takeDesc_keeps | apply State.updChan_keeps | apply State.askDesc_keeps)
    | (intro _ hK; skip) | with_reducible assumption | (with_reducible refine Keeps.ite (fun _ => ?_) (fun _ => ?_))

theorem execStaleDescReread_keeps (ch : Nat) (bytes : List Byte) (s : State) : OutKeeps s (execStaleDescReread ch
    bytes s) := by
  unfold execStaleDescReread
  (try dsimp only)
  repeat' first
    | with_reducible (first
        | exact OutKeeps.fault _ _ | apply OutKeeps.next | exact Keeps.refl _ | apply State.staleReread_keeps)
    | (with_reducible refine Keeps.ite (fun _ => ?_) (fun _ => ?_)) | split

theorem State.sendPoisoned_keeps {s0 s : State} (hK : Keeps s0 s) (c : Nat) (d : List Byte) : Keeps s0
    (State.sendPoisoned s c d) := by
  unfold State.sendPoisoned
  (try dsimp only)
  repeat' first
    | with_reducible (first | exact hK | apply State.drawn_keeps | apply State.emit_keeps | apply State.sendData_keeps)
    | (with_reducible refine Keeps.foldl _ (fun _ _ hK => ?_) _ ?_) | (intro _ hK; skip)
    | with_reducible assumption | (with_reducible refine Keeps.ite (fun _ => ?_) (fun _ => ?_)) | split
    | fail_if_no_progress with_reducible refine Keeps.fields ?_

theorem State.memTransfer_keeps {s0 s : State} (hK : Keeps s0 s) (c : Nat) (d : List Byte) (err : Bool) (data : List
    Byte) : Keeps s0 (State.memTransfer s c d err data) := by
  unfold State.memTransfer
  (try dsimp only)
  repeat' first
    | with_reducible (first
        | exact hK | apply State.chanDone_keeps | apply State.chanError_keeps | apply State.emit_keeps
        | apply State.putStagingBytes_keeps | apply State.readDone_keeps | apply State.dataDone_keeps
        | apply State.sendData_keeps | apply State.sendPoisoned_keeps)
    | (with_reducible refine Keeps.ite (fun _ => ?_) (fun _ => ?_))

theorem State.toHostTransfer_keeps {s0 s : State} (hK : Keeps s0 s) (c : Nat) (d : List Byte) : Keeps s0
    (State.toHostTransfer s c d) := by
  unfold State.toHostTransfer
  (try dsimp only)
  repeat' first
    | with_reducible (first
        | exact hK | apply State.chanDone_keeps | apply State.emit_keeps | apply State.updChan_keeps
        | apply State.updFifo_keeps | apply State.sendData_keeps)
    | (intro _ hK; skip) | with_reducible assumption | (with_reducible refine Keeps.ite (fun _ => ?_) (fun _ => ?_))
    | split

theorem State.fromHostTransfer_keeps {s0 s : State} (hK : Keeps s0 s) (c : Nat) (d : List Byte) (data : List Byte) :
    Keeps s0 (State.fromHostTransfer s c d data) := by
  unfold State.fromHostTransfer
  (try dsimp only)
  repeat' first
    | with_reducible (first
        | exact hK | apply State.chanDone_keeps | apply State.readDone_keeps | apply State.updChan_keeps
        | apply State.updFifo_keeps | apply State.dataDone_keeps)
    | (intro _ hK; skip) | with_reducible assumption | (with_reducible refine Keeps.ite (fun _ => ?_) (fun _ => ?_))

theorem State.transferEnds_keeps {s0 s : State} (hK : Keeps s0 s) (c : Nat) (d : List Byte) (err : Nat) (data : List
    Byte) : Keeps s0 (State.transferEnds s c d err data) := by
  unfold State.transferEnds
  (try dsimp only)
  repeat' first
    | with_reducible (first
        | exact hK | apply State.fromHostTransfer_keeps | apply State.memTransfer_keeps
        | apply State.toHostTransfer_keeps)
    | (with_reducible refine Keeps.foldl _ (fun _ _ hK => ?_) _ ?_) | (intro _ hK; skip)
    | with_reducible assumption | (with_reducible refine Keeps.ite (fun _ => ?_) (fun _ => ?_)) | split
    | fail_if_no_progress with_reducible refine Keeps.fields ?_

theorem State.transferDone_keeps {s0 s : State} (hK : Keeps s0 s) (c : Nat) (err : Nat) (data : List Byte) : Keeps s0
    (State.transferDone s c err data) := by
  unfold State.transferDone
  (try dsimp only)
  repeat' first
    | with_reducible (first
        | exact hK | apply State.fromHostTransfer_keeps | apply State.memTransfer_keeps
        | apply State.toHostTransfer_keeps | apply State.tagsBack_keeps | apply State.drainReads_keeps
        | apply State.transferEnds_keeps)
    | (with_reducible refine Keeps.ite (fun _ => ?_) (fun _ => ?_)) | split

theorem execDmaTransferDone_keeps (ch : Nat) (err : Nat) (data : List Byte) (s : State) : OutKeeps s
    (execDmaTransferDone ch err data s) := by
  unfold execDmaTransferDone
  (try dsimp only)
  repeat' first
    | with_reducible (first
        | exact OutKeeps.fault _ _ | apply OutKeeps.next | exact Keeps.refl _ | apply State.transferDone_keeps)
    | (with_reducible refine Keeps.ite (fun _ => ?_) (fun _ => ?_)) | split

theorem State.chanFlushed_keeps {s0 s : State} (hK : Keeps s0 s) (c : Nat) : Keeps s0 (State.chanFlushed s c) := by
  unfold State.chanFlushed
  (try dsimp only)
  repeat' first
    | with_reducible (first
        | exact hK | apply State.cqResume_keeps | apply State.interrupt_keeps | apply State.readDone_keeps
        | apply State.updChan_keeps)
    | (intro _ hK; skip) | with_reducible assumption | (with_reducible refine Keeps.ite (fun _ => ?_) (fun _ => ?_))
    | split

theorem execStrictFlushDone_keeps (ch : Nat) (s : State) : OutKeeps s (execStrictFlushDone ch s) := by
  unfold execStrictFlushDone
  (try dsimp only)
  repeat' first
    | with_reducible (first
        | exact OutKeeps.fault _ _ | apply OutKeeps.next | exact Keeps.refl _ | apply State.chanFlushed_keeps)
    | (with_reducible refine Keeps.ite (fun _ => ?_) (fun _ => ?_)) | split

theorem State.tailArrives_keeps {s0 s : State} (hK : Keeps s0 s) (c : Nat) (d : List Byte) : Keeps s0
    (State.tailArrives s c d) := by
  unfold State.tailArrives
  (try dsimp only)
  repeat' first
    | with_reducible (first
        | exact hK | apply State.chanDone_keeps | apply State.chanFollow_keeps | apply idle_keeps
        | apply State.readDone_keeps | apply State.tailCheck_keeps | apply State.updChan_keeps
        | apply State.tagsBack_keeps)
    | (intro _ hK; skip) | with_reducible assumption | (with_reducible refine Keeps.ite (fun _ => ?_) (fun _ => ?_))

theorem execTailRefetched_keeps (ch : Nat) (bytes : List Byte) (s : State) : OutKeeps s (execTailRefetched ch bytes s)
    := by
  unfold execTailRefetched
  (try dsimp only)
  repeat' first
    | with_reducible (first
        | exact OutKeeps.fault _ _ | apply OutKeeps.next | exact Keeps.refl _ | apply State.tailArrives_keeps)
    | (with_reducible refine Keeps.ite (fun _ => ?_) (fun _ => ?_)) | split

theorem State.readError_keeps {s0 s : State} (hK : Keeps s0 s) (c : Nat) : Keeps s0 (State.readError s c) := by
  unfold State.readError
  (try dsimp only)
  repeat' first
    | with_reducible (first
        | exact hK | apply State.chanDone_keeps | apply State.chanError_keeps | apply State.readDone_keeps
        | apply State.updChan_keeps | apply State.dataDone_keeps | apply State.tagsBack_keeps)
    | (intro _ hK; skip) | with_reducible assumption | (with_reducible refine Keeps.ite (fun _ => ?_) (fun _ => ?_))
    | split

theorem State.logAer_keeps {s0 s : State} (hK : Keeps s0 s) (fn : Nat) : Keeps s0 (State.logAer s fn) := by
  unfold State.logAer
  (try dsimp only)
  repeat' first
    | with_reducible (first | exact hK | apply State.drawn_keeps | apply State.updLink_keeps)
    | (with_reducible refine Keeps.foldl _ (fun _ _ hK => ?_) _ ?_) | (intro _ hK; skip)
    | with_reducible assumption | (with_reducible refine Keeps.ite (fun _ => ?_) (fun _ => ?_)) | split
    | fail_if_no_progress with_reducible refine Keeps.fields ?_

theorem execDmaReadError_keeps (ch : Nat) (s : State) : OutKeeps s (execDmaReadError ch s) := by
  unfold execDmaReadError
  (try dsimp only)
  repeat' first
    | with_reducible (first
        | exact OutKeeps.fault _ _ | apply OutKeeps.next | exact Keeps.refl _ | apply State.readError_keeps
        | apply State.logAer_keeps)
    | (with_reducible refine Keeps.foldl _ (fun _ _ hK => ?_) _ ?_) | (intro _ hK; skip)
    | with_reducible assumption | (with_reducible refine Keeps.ite (fun _ => ?_) (fun _ => ?_)) | split
    | fail_if_no_progress with_reducible refine Keeps.fields ?_

theorem State.chanStart_keeps {s0 s : State} (hK : Keeps s0 s) (c : Nat) (cqReset : Bool) : Keeps s0 (State.chanStart
    s c cqReset) := by
  unfold State.chanStart
  (try dsimp only)
  repeat' first
    | with_reducible (first | exact hK | apply State.chanFetch_keeps | apply idle_keeps | apply State.updChan_keeps)
    | (intro _ hK; skip) | with_reducible assumption | (with_reducible refine Keeps.ite (fun _ => ?_) (fun _ => ?_))

theorem State.chanStopReq_keeps {s0 s : State} (hK : Keeps s0 s) (c : Nat) : Keeps s0 (State.chanStopReq s c) := by
  unfold State.chanStopReq
  (try dsimp only)
  repeat' first
    | with_reducible (first | exact hK | apply State.chanStop_keeps | apply idle_keeps | apply State.updChan_keeps)
    | (intro _ hK; skip) | with_reducible assumption | (with_reducible refine Keeps.ite (fun _ => ?_) (fun _ => ?_))

theorem State.chanAbort_keeps {s0 s : State} (hK : Keeps s0 s) (c : Nat) : Keeps s0 (State.chanAbort s c) := by
  unfold State.chanAbort
  (try dsimp only)
  repeat' first
    | with_reducible (first | exact hK | apply State.chanStop_keeps | apply idle_keeps | apply State.updChan_keeps)
    | (intro _ hK; skip) | with_reducible assumption | (with_reducible refine Keeps.ite (fun _ => ?_) (fun _ => ?_))

theorem State.writeCtrl_keeps {s0 s : State} (hK : Keeps s0 s) (c : Nat) (v : Nat) (size : Nat) : Keeps s0
    (State.writeCtrl s c v size) := by
  unfold State.writeCtrl
  (try dsimp only)
  repeat' first
    | with_reducible (first
        | exact hK | apply State.chanAbort_keeps | apply State.chanStart_keeps | apply State.chanStopReq_keeps
        | apply State.reservedAccess_keeps | apply State.updChan_keeps)
    | (intro _ hK; skip) | with_reducible assumption | (with_reducible refine Keeps.ite (fun _ => ?_) (fun _ => ?_))

theorem execDmaStart_keeps (fn : Nat) (ch : Nat) (w : BitVec 64) (s : State) : OutKeeps s (execDmaStart fn ch w s) :=
    by
  unfold execDmaStart
  (try dsimp only [ctrlRow, onRegister])
  repeat' first
    | with_reducible (first
        | exact OutKeeps.fault _ _ | apply OutKeeps.next | exact Keeps.refl _ | apply State.reservedAccess_keeps
        | apply State.writeCtrl_keeps)
    | split

theorem execDmaStop_keeps (fn : Nat) (ch : Nat) (w : BitVec 64) (s : State) : OutKeeps s (execDmaStop fn ch w s) := by
  unfold execDmaStop
  (try dsimp only [ctrlRow, onRegister])
  repeat' first
    | with_reducible (first
        | exact OutKeeps.fault _ _ | apply OutKeeps.next | exact Keeps.refl _ | apply State.reservedAccess_keeps
        | apply State.writeCtrl_keeps)
    | split

theorem execDmaAbort_keeps (fn : Nat) (ch : Nat) (w : BitVec 64) (s : State) : OutKeeps s (execDmaAbort fn ch w s) :=
    by
  unfold execDmaAbort
  (try dsimp only [ctrlRow, onRegister])
  repeat' first
    | with_reducible (first
        | exact OutKeeps.fault _ _ | apply OutKeeps.next | exact Keeps.refl _ | apply State.reservedAccess_keeps
        | apply State.writeCtrl_keeps)
    | split

theorem State.chanRing_keeps {s0 s : State} (hK : Keeps s0 s) (c : Nat) : Keeps s0 (State.chanRing s c) := by
  unfold State.chanRing
  (try dsimp only)
  repeat' first
    | with_reducible (first | exact hK | apply State.tailCheck_keeps | apply State.updChan_keeps) | (intro _ hK; skip)

theorem execDmaDoorbell_keeps (fn : Nat) (ch : Nat) (w2 : BitVec 64) (s : State) : OutKeeps s (execDmaDoorbell fn ch
    w2 s) := by
  unfold execDmaDoorbell
  (try dsimp only [onRegister])
  repeat' first
    | with_reducible (first
        | exact OutKeeps.fault _ _ | apply OutKeeps.next | exact Keeps.refl _ | apply State.chanRing_keeps
        | apply State.reservedAccess_keeps | apply State.writeCtrl_keeps)
    | (with_reducible refine Keeps.ite (fun _ => ?_) (fun _ => ?_)) | split

theorem State.chanFifoReset_keeps {s0 s : State} (hK : Keeps s0 s) (f : Nat) (c : Nat) : Keeps s0 (State.chanFifoReset
    s f c) := by
  unfold State.chanFifoReset
  (try dsimp only)
  repeat' first
    | with_reducible (first | exact hK | apply State.toHostTransfer_keeps | apply State.updChan_keeps)
    | (intro _ hK; skip) | with_reducible assumption | (with_reducible refine Keeps.ite (fun _ => ?_) (fun _ => ?_))

theorem State.dropHostTx_keeps {s0 s : State} (hK : Keeps s0 s) (f : Nat) : Keeps s0 (State.dropHostTx s f) := by
  unfold State.dropHostTx
  (try dsimp only)
  repeat' first
    | with_reducible (first
        | exact hK | apply State.countDrop_keeps | apply State.egLeave_keeps | apply State.endTrap_keeps
        | apply State.updPort_keeps)
    | (with_reducible refine Keeps.foldl _ (fun _ _ hK => ?_) _ ?_) | (intro _ hK; skip)
    | with_reducible assumption | (with_reducible refine Keeps.ite (fun _ => ?_) (fun _ => ?_)) | split
    | fail_if_no_progress with_reducible refine Keeps.fields ?_

theorem State.fifoReset_keeps {s0 s : State} (hK : Keeps s0 s) (f : Nat) : Keeps s0 (State.fifoReset s f) := by
  unfold State.fifoReset
  (try dsimp only)
  repeat' first
    | with_reducible (first
        | exact hK | apply State.bumpDrop_keeps | apply State.chanFifoReset_keeps | apply State.interrupt_keeps
        | apply State.raise_keeps | apply State.updFifo_keeps | apply State.dropHostTx_keeps)
    | (with_reducible refine Keeps.foldl _ (fun _ _ hK => ?_) _ ?_) | (intro _ hK; skip)
    | (with_reducible refine Keeps.ite (fun _ => ?_) (fun _ => ?_))

theorem State.comparePtrs_keeps {s0 s : State} (hK : Keeps s0 s) (f : Nat) : Keeps s0 (State.comparePtrs s f) := by
  unfold State.comparePtrs
  (try dsimp only)
  repeat' first
    | with_reducible (first | exact hK | apply State.fifoReset_keeps)
    | (with_reducible refine Keeps.foldl _ (fun _ _ hK => ?_) _ ?_) | (intro _ hK; skip)
    | with_reducible assumption | (with_reducible refine Keeps.ite (fun _ => ?_) (fun _ => ?_)) | split
    | fail_if_no_progress with_reducible refine Keeps.fields ?_

theorem execHpfPointerMismatch_keeps (fifo : Nat) (s : State) : OutKeeps s (execHpfPointerMismatch fifo s) := by
  unfold execHpfPointerMismatch
  (try dsimp only)
  repeat' first
    | with_reducible (first
        | exact OutKeeps.fault _ _ | apply OutKeeps.next | exact Keeps.refl _ | apply State.fifoReset_keeps
        | apply State.comparePtrs_keeps | apply State.drawn_keeps)
    | (with_reducible refine Keeps.foldl _ (fun _ _ hK => ?_) _ ?_) | (intro _ hK; skip)
    | with_reducible assumption | (with_reducible refine Keeps.ite (fun _ => ?_) (fun _ => ?_)) | split
    | fail_if_no_progress with_reducible refine Keeps.fields ?_

end Sys2Proof.Machine
end

