-- ==== Sys2Proof/Laws/KeepInterrupts.lean ====
section
/-! SUPPORT. What the operations of Interrupts keep. -/

set_option Elab.async false
set_option linter.all false

namespace Sys2Proof.Machine

@[simp] theorem HostSt.putMap_mem (h : HostSt) (n v : Nat) (en : Bool) : (h.putMap n v en).mem = h.mem := rfl

@[simp] theorem HostSt.clearInts_mem (l : List Nat) (h : HostSt) : (l.foldl HostSt.clearInt h).mem = h.mem := by
  induction l generalizing h with
  | nil => rfl
  | cons a l ih => exact ih _

theorem State.clearInts_keeps {s0 s : State} (hK : Keeps s0 s) (fn : Nat) (l : List Nat) : Keeps s0 (State.clearInts s
    fn l) := by
  unfold State.clearInts
  (try dsimp only)
  repeat' first
    | with_reducible exact hK | (with_reducible refine Keeps.foldl _ (fun _ _ hK => ?_) _ ?_) | (intro _ hK; skip)
    | with_reducible assumption | split
    | fail_if_no_progress ((with_reducible apply Keeps.fields); (case hq => rfl); (case hs => first | rfl | simp); (case hc => rfl))

theorem State.keepInt_keeps {s0 s : State} (hK : Keeps s0 s) (n : Nat) : Keeps s0 (State.keepInt s n) := by
  unfold State.keepInt
  (try dsimp only)
  repeat' first
    | with_reducible (first | exact hK | apply State.interrupt_keeps) | split
    | fail_if_no_progress ((with_reducible apply Keeps.fields); (case hq => rfl); (case hs => first | rfl | simp); (case hc => rfl))

theorem State.writePending_keeps {s0 s : State} (hK : Keeps s0 s) (fn : Nat) (k : Nat) (w : Nat) (same : Nat) : Keeps
    s0 (State.writePending s fn k w same) := by
  unfold State.writePending
  (try dsimp only)
  repeat' first
    | with_reducible (first
        | exact hK | apply State.clearInts_keeps | apply State.interrupt_keeps | apply State.keepInt_keeps)
    | (with_reducible refine Keeps.foldl _ (fun _ _ hK => ?_) _ ?_) | (intro _ hK; skip) | with_reducible assumption
    | (with_reducible refine Keeps.ite (fun _ => ?_) (fun _ => ?_))

theorem execIntPendingClear_keeps (fn : Nat) (k : Nat) (w : BitVec 64) (same : BitVec 64) (s : State) : OutKeeps s
    (execIntPendingClear fn k w same s) := by
  unfold execIntPendingClear
  (try dsimp only [onRegister])
  repeat' first
    | with_reducible (first
        | exact OutKeeps.fault _ _ | apply OutKeeps.next | exact Keeps.refl _ | apply State.reservedAccess_keeps
        | apply State.writeCtrl_keeps | apply State.writePending_keeps)
    | (with_reducible refine Keeps.ite (fun _ => ?_) (fun _ => ?_)) | split

theorem State.writeMap_keeps {s0 s : State} (hK : Keeps s0 s) (fn : Nat) (n : Nat) (v : Nat) : Keeps s0
    (State.writeMap s fn n v) := by
  unfold State.writeMap
  (try dsimp only)
  repeat' first
    | with_reducible exact hK | (with_reducible refine Keeps.ite (fun _ => ?_) (fun _ => ?_)) | split
    | fail_if_no_progress ((with_reducible apply Keeps.fields); (case hq => rfl); (case hs => first | rfl | simp); (case hc => rfl))

theorem execIntMapWrite_keeps (fn : Nat) (n : Nat) (w : BitVec 64) (s : State) : OutKeeps s (execIntMapWrite fn n w s)
    := by
  unfold execIntMapWrite
  (try dsimp only [onRegister])
  repeat' first
    | with_reducible (first
        | exact OutKeeps.fault _ _ | apply OutKeeps.next | exact Keeps.refl _ | apply State.interrupt_keeps
        | apply State.reservedAccess_keeps | apply State.writeCtrl_keeps | apply State.writeMap_keeps)
    | (with_reducible refine Keeps.ite (fun _ => ?_) (fun _ => ?_)) | split

theorem State.unmaskVec_keeps {s0 s : State} (hK : Keeps s0 s) (fn : Nat) (vec : Nat) : Keeps s0 (State.unmaskVec s fn
    vec) := by
  unfold State.unmaskVec
  (try dsimp only)
  repeat' first
    | with_reducible (first | exact hK | apply State.updLink_keeps) | (intro _ hK; skip) | with_reducible assumption
    | (with_reducible refine Keeps.ite (fun _ => ?_) (fun _ => ?_)) | split
    | fail_if_no_progress ((with_reducible apply Keeps.fields); (case hq => rfl); (case hs => first | rfl | simp); (case hc => rfl))

theorem State.maskVec_keeps {s0 s : State} (hK : Keeps s0 s) (fn : Nat) (vec : Nat) : Keeps s0 (State.maskVec s fn
    vec) := by
  unfold State.maskVec
  (try dsimp only)
  repeat' first
    | with_reducible (first | exact hK | apply State.updLink_keeps)
    | (with_reducible refine Keeps.foldl _ (fun _ _ hK => ?_) _ ?_) | (intro _ hK; skip)
    | with_reducible assumption | (with_reducible refine Keeps.ite (fun _ => ?_) (fun _ => ?_)) | split
    | fail_if_no_progress with_reducible refine Keeps.fields ?_

theorem execMsixUnmask_keeps (fn : Nat) (vec : Nat) (s : State) : OutKeeps s (execMsixUnmask fn vec s) := by
  unfold execMsixUnmask
  (try dsimp only [onRegister])
  repeat' first
    | with_reducible (first
        | exact OutKeeps.fault _ _ | apply OutKeeps.next | exact Keeps.refl _ | apply State.reservedAccess_keeps
        | apply State.unmaskVec_keeps | apply State.writeCtrl_keeps)
    | (with_reducible refine Keeps.ite (fun _ => ?_) (fun _ => ?_)) | split

theorem State.writeMsix_keeps {s0 s : State} (hK : Keeps s0 s) (fn : Nat) (i : Nat) (v : Nat) : Keeps s0
    (State.writeMsix s fn i v) := by
  unfold State.writeMsix
  (try dsimp only)
  repeat' first
    | with_reducible (first | exact hK | apply State.maskVec_keeps | apply State.unmaskVec_keeps)
    | (with_reducible refine Keeps.ite (fun _ => ?_) (fun _ => ?_)) | split
    | fail_if_no_progress ((with_reducible apply Keeps.fields); (case hq => rfl); (case hs => first | rfl | simp); (case hc => rfl))

end Sys2Proof.Machine
end

