-- ==== Sys2Proof/Laws/KeepTelemetry.lean ====
section
/-! SUPPORT. What the operations of Telemetry keep. -/

set_option Elab.async false
set_option linter.all false

namespace Sys2Proof.Machine

theorem State.updSwp_keeps {s0 s : State} (hK : Keeps s0 s) (f : SwpSt → SwpSt) : Keeps s0 (State.updSwp s f) :=
  hK.upd rfl

theorem State.sweepMissed_keeps {s0 s : State} (hK : Keeps s0 s) (cause : Nat) : Keeps s0 (State.sweepMissed s cause)
    := by
  unfold State.sweepMissed
  (try dsimp only)
  repeat' first
    | with_reducible (first
        | exact hK | apply State.bumpTel_keeps | apply State.missed_keeps | apply State.raiseLimited_keeps
        | apply State.updSwp_keeps)
    | (intro _ hK; skip)

theorem State.takeSweep_keeps {s0 s : State} (hK : Keeps s0 s) (demand : Bool) : Keeps s0 (State.takeSweep s demand)
    := by
  unfold State.takeSweep
  (try dsimp only)
  repeat' first
    | with_reducible (first
        | exact hK | apply State.missed_keeps | apply State.sweepMissed_keeps | apply State.updSwp_keeps
        | apply State.fecAll_keeps)
    | (intro _ hK; skip) | with_reducible assumption | (with_reducible refine Keeps.ite (fun _ => ?_) (fun _ => ?_))

theorem State.sweepInstant_keeps {s0 s : State} (hK : Keeps s0 s) : Keeps s0 (State.sweepInstant s) := by
  unfold State.sweepInstant
  (try dsimp only)
  repeat' first
    | with_reducible (first | exact hK | apply State.sweepMissed_keeps | apply State.takeSweep_keeps)
    | (with_reducible refine Keeps.ite (fun _ => ?_) (fun _ => ?_))

theorem execSweepInstant_keeps (s : State) : OutKeeps s (execSweepInstant s) := by
  unfold execSweepInstant
  (try dsimp only)
  repeat' first
    | with_reducible (first
        | exact OutKeeps.fault _ _ | apply OutKeeps.next | exact Keeps.refl _ | apply State.sweepInstant_keeps)

theorem State.dumpWritten_keeps {s0 s : State} (hK : Keeps s0 s) : Keeps s0 (State.dumpWritten s) := by
  unfold State.dumpWritten
  (try dsimp only)
  repeat' first
    | with_reducible (first
        | exact hK | apply State.bumpTel_keeps | apply State.interrupt_keeps | apply State.takeSweep_keeps
        | apply State.updSwp_keeps)
    | (intro _ hK; skip) | with_reducible assumption | (with_reducible refine Keeps.ite (fun _ => ?_) (fun _ => ?_))
    | split | fail_if_no_progress with_reducible refine Keeps.fields ?_

theorem execSweepDumpWritten_keeps (s : State) : OutKeeps s (execSweepDumpWritten s) := by
  unfold execSweepDumpWritten
  (try dsimp only)
  repeat' first
    | with_reducible (first
        | exact OutKeeps.fault _ _ | apply OutKeeps.next | exact Keeps.refl _ | apply State.dumpWritten_keeps)

theorem State.snap_keeps {s0 s : State} (hK : Keeps s0 s) : Keeps s0 (State.snap s) := by
  unfold State.snap
  (try dsimp only)
  repeat' first
    | with_reducible (first | exact hK | apply State.takeSweep_keeps | apply State.updSwp_keeps) | (intro _ hK; skip)
    | with_reducible assumption | (with_reducible refine Keeps.ite (fun _ => ?_) (fun _ => ?_))

theorem State.writeSwpCtrl_keeps {s0 s : State} (hK : Keeps s0 s) (v : Nat) : Keeps s0 (State.writeSwpCtrl s v) := by
  unfold State.writeSwpCtrl
  (try dsimp only)
  repeat' first
    | with_reducible (first | exact hK | apply State.snap_keeps | apply State.updSwp_keeps) | (intro _ hK; skip)
    | with_reducible assumption | (with_reducible refine Keeps.ite (fun _ => ?_) (fun _ => ?_))

theorem State.writeLoupeCtrl_keeps {s0 s : State} (hK : Keeps s0 s) (v : Nat) : Keeps s0 (State.writeLoupeCtrl s v) :=
    by
  unfold State.writeLoupeCtrl
  (try dsimp only)
  repeat' first
    | with_reducible (first | exact hK | apply State.updSwp_keeps) | (intro _ hK; skip) | with_reducible assumption
    | (with_reducible refine Keeps.ite (fun _ => ?_) (fun _ => ?_))

theorem execSweepSnap_keeps (fn : Nat) (w : BitVec 64) (s : State) : OutKeeps s (execSweepSnap fn w s) := by
  unfold execSweepSnap
  (try dsimp only [onRegister])
  repeat' first
    | with_reducible (first
        | exact OutKeeps.fault _ _ | apply OutKeeps.next | exact Keeps.refl _ | apply State.reservedAccess_keeps
        | apply State.writeCtrl_keeps | apply State.writeSwpCtrl_keeps)
    | split

theorem execSweepRingReset_keeps (fn : Nat) (loupe : Bool) (w : BitVec 64) (s : State) : OutKeeps s
    (execSweepRingReset fn loupe w s) := by
  unfold execSweepRingReset
  (try dsimp only [onRegister])
  repeat' first
    | with_reducible (first
        | exact OutKeeps.fault _ _ | apply OutKeeps.next | exact Keeps.refl _ | apply State.reservedAccess_keeps
        | apply State.writeCtrl_keeps | apply State.writeLoupeCtrl_keeps | apply State.writeSwpCtrl_keeps)
    | (with_reducible refine Keeps.ite (fun _ => ?_) (fun _ => ?_)) | split

theorem State.writeSwpHead_keeps {s0 s : State} (hK : Keeps s0 s) (v : Nat) : Keeps s0 (State.writeSwpHead s v) := by
  unfold State.writeSwpHead
  (try dsimp only)
  repeat' first
    | with_reducible (first | exact hK | apply State.updSwp_keeps) | (intro _ hK; skip)
    | (with_reducible refine Keeps.ite (fun _ => ?_) (fun _ => ?_))

theorem State.writeLoupeHead_keeps {s0 s : State} (hK : Keeps s0 s) (v : Nat) : Keeps s0 (State.writeLoupeHead s v) :=
    by
  unfold State.writeLoupeHead
  (try dsimp only)
  repeat' first
    | with_reducible (first | exact hK | apply State.updSwp_keeps) | (intro _ hK; skip)
    | (with_reducible refine Keeps.ite (fun _ => ?_) (fun _ => ?_))

theorem execSweepHeadWrite_keeps (fn : Nat) (loupe : Bool) (w : BitVec 64) (s : State) : OutKeeps s
    (execSweepHeadWrite fn loupe w s) := by
  unfold execSweepHeadWrite
  (try dsimp only [onRegister])
  repeat' first
    | with_reducible (first
        | exact OutKeeps.fault _ _ | apply OutKeeps.next | exact Keeps.refl _ | apply State.reservedAccess_keeps
        | apply State.writeCtrl_keeps | apply State.writeLoupeHead_keeps | apply State.writeSwpHead_keeps)
    | (with_reducible refine Keeps.ite (fun _ => ?_) (fun _ => ?_)) | split

theorem State.evDone_keeps {s0 s : State} (h : Keeps s0 s) (d : EvDone)
    (hd : (s.evt.held.map EvEntry.entries).sum ≤ 1024 → (d.st.held.map EvEntry.entries).sum ≤ 1024) : Keeps s0 (s.evDone d) := by
  unfold State.evDone
  exact Keeps.fields (h.ofEvt d.st hd) rfl (by simp) rfl

theorem EvtSt.flushLost_held (v : EvtSt) (sec ns : Nat) : (v.flushLost sec ns).st.held = v.held := by
  unfold EvtSt.flushLost
  split <;> rfl

theorem EvtSt.joinLost_held (a b : EvtSt) : (a.joinLost b).held = a.held := by
  unfold EvtSt.joinLost
  split <;> rfl

theorem EvDone.then1_held (l : List EvEntry) (d : EvDone) : (l.foldl EvDone.then1 d).st.held = d.st.held := by
  induction l generalizing d with
  | nil => rfl
  | cons e l ih => exact (ih _).trans (EvtSt.write_held d.st e)

theorem EvtSt.enableRing_held (v : EvtSt) : v.enableRing.st.held = [] := by
  unfold EvtSt.enableRing
  rw [EvtSt.joinLost_held, EvDone.then1_held]

theorem State.evFlush_keeps {s0 s : State} (h : Keeps s0 s) : Keeps s0 s.evFlush := by
  unfold State.evFlush
  exact State.evDone_keeps h _ (fun hh => by rw [EvtSt.flushLost_held]; exact hh)

theorem State.writeEvtCtrl_keeps {s0 s : State} (h : Keeps s0 s) (v : Nat) : Keeps s0 (s.writeEvtCtrl v) := by
  unfold State.writeEvtCtrl
  dsimp only
  split
  · split
    · exact h.ofEvt _ id
    · exact State.evFlush_keeps (State.evDone_keeps h _ (fun _ => by rw [EvtSt.enableRing_held]; simp))
  · split
    · exact h.ofEvt _ id
    · exact h.ofEvt _ id

theorem execEvtRingReset_keeps (fn : Nat) (w : BitVec 64) (s : State) : OutKeeps s (execEvtRingReset fn w s) := by
  unfold execEvtRingReset
  (try dsimp only [onRegister])
  repeat' first
    | with_reducible (first
        | exact OutKeeps.fault _ _ | apply OutKeeps.next | exact Keeps.refl _ | apply State.reservedAccess_keeps
        | apply State.writeCtrl_keeps | apply State.writeEvtCtrl_keeps)
    | split

theorem execEvtEnableWrite_keeps (fn : Nat) (w : BitVec 64) (s : State) : OutKeeps s (execEvtEnableWrite fn w s) := by
  unfold execEvtEnableWrite
  (try dsimp only [onRegister])
  repeat' first
    | with_reducible (first
        | exact OutKeeps.fault _ _ | apply OutKeeps.next | exact Keeps.refl _ | apply State.reservedAccess_keeps
        | apply State.writeCtrl_keeps | apply State.writeEvtCtrl_keeps)
    | split

theorem State.writeEvtHead_keeps {s0 s : State} (hK : Keeps s0 s) (v : Nat) : Keeps s0 (State.writeEvtHead s v) := by
  unfold State.writeEvtHead
  (try dsimp only)
  repeat' first
    | with_reducible (first | exact hK | apply State.evFlush_keeps)
    | (with_reducible refine Keeps.ite (fun _ => ?_) (fun _ => ?_)) | split
    | fail_if_no_progress with_reducible refine Keeps.fields ?_

theorem execEvtHeadWrite_keeps (fn : Nat) (w : BitVec 64) (s : State) : OutKeeps s (execEvtHeadWrite fn w s) := by
  unfold execEvtHeadWrite
  (try dsimp only [onRegister])
  repeat' first
    | with_reducible (first
        | exact OutKeeps.fault _ _ | apply OutKeeps.next | exact Keeps.refl _ | apply State.reservedAccess_keeps
        | apply State.writeCtrl_keeps | apply State.writeEvtHead_keeps)
    | split

theorem applyTelSetMirror_keeps {s0 s : State} (hK : Keeps s0 s) (p : List Byte) : Keeps s0 (applyTelSetMirror p s) :=
  hK.upd rfl

theorem telSetMirrorBody_keeps {s0 s : State} (hK : Keeps s0 s) (r : Req) : Keeps s0 (telSetMirrorBody r s).1 := by
  unfold telSetMirrorBody
  (try dsimp only)
  repeat' first
    | with_reducible exact hK | exact setCmd_keeps (fun p hk => applyTelSetMirror_keeps hk p) hK r

theorem applyTelSetPortMirror_keeps {s0 s : State} (hK : Keeps s0 s) (p : List Byte) : Keeps s0 (applyTelSetPortMirror
    p s) := by
  unfold applyTelSetPortMirror
  (try dsimp only)
  repeat' first
    | with_reducible (first | exact hK | apply State.updPort_keeps)
    | (with_reducible refine Keeps.foldl _ (fun _ _ hK => ?_) _ ?_) | (intro _ hK; skip)
    | with_reducible assumption | (with_reducible refine Keeps.ite (fun _ => ?_) (fun _ => ?_)) | split
    | fail_if_no_progress with_reducible refine Keeps.fields ?_

theorem telSetPortMirrorBody_keeps {s0 s : State} (hK : Keeps s0 s) (r : Req) : Keeps s0 (telSetPortMirrorBody r s).1
    := by
  unfold telSetPortMirrorBody
  (try dsimp only)
  repeat' first
    | with_reducible exact hK | exact setCmd_keeps (fun p hk => applyTelSetPortMirror_keeps hk p) hK r

theorem telGetMirrorBody_keeps {s0 s : State} (hK : Keeps s0 s) (r : Req) : Keeps s0 (telGetMirrorBody r s).1 := by
  unfold telGetMirrorBody
  (try dsimp only)
  repeat' first
    | with_reducible (first | exact hK | apply readCmd_keeps) | (intro _ hK; skip)
    | (with_reducible refine Keeps.ite (fun _ => ?_) (fun _ => ?_))

theorem telGetDropsBody_keeps {s0 s : State} (hK : Keeps s0 s) (r : Req) : Keeps s0 (telGetDropsBody r s).1 := by
  unfold telGetDropsBody
  (try dsimp only)
  repeat' first
    | with_reducible (first | exact hK | apply readCmd_keeps) | (intro _ hK; skip)
    | (with_reducible refine Keeps.ite (fun _ => ?_) (fun _ => ?_))

theorem telGetCountersBody_keeps {s0 s : State} (hK : Keeps s0 s) (r : Req) : Keeps s0 (telGetCountersBody r s).1 :=
    by
  unfold telGetCountersBody
  (try dsimp only)
  repeat' first
    | with_reducible (first | exact hK | apply readCmd_keeps) | (intro _ hK; skip)

theorem execTelSetMirror_keeps (r : Req) (s : State) : OutKeeps s (execTelSetMirror r s) := 
  mailboxCommand_keeps (fun hk => telSetMirrorBody_keeps hk r)

theorem execTelSetPortMirror_keeps (r : Req) (s : State) : OutKeeps s (execTelSetPortMirror r s) := 
  mailboxCommand_keeps (fun hk => telSetPortMirrorBody_keeps hk r)

theorem execTelGetMirror_keeps (r : Req) (s : State) : OutKeeps s (execTelGetMirror r s) := 
  mailboxCommand_keeps (fun hk => telGetMirrorBody_keeps hk r)

theorem execTelGetDrops_keeps (r : Req) (s : State) : OutKeeps s (execTelGetDrops r s) := 
  mailboxCommand_keeps (fun hk => telGetDropsBody_keeps hk r)

theorem execTelGetCounters_keeps (r : Req) (s : State) : OutKeeps s (execTelGetCounters r s) := 
  mailboxCommand_keeps (fun hk => telGetCountersBody_keeps hk r)

end Sys2Proof.Machine
end

