-- ==== Sys2Proof/Laws/KeepDroop.lean ====
section
/-! SUPPORT. What the operations of Droop keep. -/

set_option Elab.async false
set_option linter.all false

namespace Sys2Proof.Machine

theorem State.setEclk_keeps {s0 s : State} (hK : Keeps s0 s) (n : Nat) : Keeps s0 (State.setEclk s n) := by
  unfold State.setEclk
  (try dsimp only)
  repeat' first
    | with_reducible (first | exact hK | apply State.updCluster_keeps)
    | (with_reducible refine Keeps.foldl _ (fun _ _ hK => ?_) _ ?_) | (intro _ hK; skip)
    | with_reducible assumption | (with_reducible refine Keeps.ite (fun _ => ?_) (fun _ => ?_)) | split
    | fail_if_no_progress with_reducible refine Keeps.fields ?_

theorem State.droopTrip_keeps {s0 s : State} (hK : Keeps s0 s) (n : Nat) : Keeps s0 (State.droopTrip s n) := by
  unfold State.droopTrip
  (try dsimp only)
  repeat' first
    | with_reducible (first
        | exact hK | apply State.bumpPwr_keeps | apply State.setEclk_keeps | apply State.updSlice_keeps
        | apply State.bumpPwrAt_keeps)
    | (intro _ hK; skip) | with_reducible assumption | (with_reducible refine Keeps.ite (fun _ => ?_) (fun _ => ?_))

theorem State.droopReport_keeps {s0 s : State} (hK : Keeps s0 s) (n : Nat) : Keeps s0 (State.droopReport s n) := by
  unfold State.droopReport
  (try dsimp only)
  repeat' first
    | with_reducible (first | exact hK | apply State.raise_keeps | apply State.updSlice_keeps) | (intro _ hK; skip)
    | with_reducible assumption | (with_reducible refine Keeps.ite (fun _ => ?_) (fun _ => ?_)) | split
    | fail_if_no_progress with_reducible refine Keeps.fields ?_

theorem State.closeStretch_keeps {s0 s : State} (hK : Keeps s0 s) (n : Nat) : Keeps s0 (State.closeStretch s n) := by
  unfold State.closeStretch
  (try dsimp only)
  repeat' first
    | with_reducible (first
        | exact hK | apply State.bumpPwr_keeps | apply State.setEclk_keeps | apply State.updSlice_keeps
        | apply State.bumpPwrAt_keeps)
    | (with_reducible refine Keeps.foldl _ (fun _ _ hK => ?_) _ ?_) | (intro _ hK; skip)
    | with_reducible assumption | (with_reducible refine Keeps.ite (fun _ => ?_) (fun _ => ?_)) | split
    | fail_if_no_progress with_reducible refine Keeps.fields ?_

theorem State.stretchEnd_keeps {s0 s : State} (hK : Keeps s0 s) (n : Nat) (recovered : Bool) : Keeps s0
    (State.stretchEnd s n recovered) := by
  unfold State.stretchEnd
  (try dsimp only)
  repeat' first
    | with_reducible (first
        | exact hK | apply State.bumpPwr_keeps | apply State.droopReport_keeps | apply State.setEclk_keeps
        | apply State.updSlice_keeps | apply State.closeStretch_keeps)
    | (intro _ hK; skip) | with_reducible assumption | (with_reducible refine Keeps.ite (fun _ => ?_) (fun _ => ?_))

theorem execDroopTrip_keeps (slice : Nat) (s : State) : OutKeeps s (execDroopTrip slice s) := by
  unfold execDroopTrip
  (try dsimp only)
  repeat' first
    | with_reducible (first
        | exact OutKeeps.fault _ _ | apply OutKeeps.next | exact Keeps.refl _ | apply State.droopTrip_keeps)
    | (with_reducible refine Keeps.ite (fun _ => ?_) (fun _ => ?_)) | split

theorem execStretchHoldEnd_keeps (slice : Nat) (recovered : Bool) (s : State) : OutKeeps s (execStretchHoldEnd slice
    recovered s) := by
  unfold execStretchHoldEnd
  (try dsimp only)
  repeat' first
    | with_reducible (first
        | exact OutKeeps.fault _ _ | apply OutKeeps.next | exact Keeps.refl _ | apply State.stretchEnd_keeps)
    | (with_reducible refine Keeps.ite (fun _ => ?_) (fun _ => ?_)) | split

theorem applyPwrSetDroop_keeps {s0 s : State} (hK : Keeps s0 s) (p : List Byte) : Keeps s0 (applyPwrSetDroop p s) :=
    by
  unfold applyPwrSetDroop
  (try dsimp only)
  repeat' first
    | with_reducible (first | exact hK | apply State.updSlice_keeps)
    | (with_reducible refine Keeps.foldl _ (fun _ _ hK => ?_) _ ?_) | (intro _ hK; skip)

theorem pwrSetDroopBody_keeps {s0 s : State} (hK : Keeps s0 s) (r : Req) : Keeps s0 (pwrSetDroopBody r s).1 := by
  unfold pwrSetDroopBody
  (try dsimp only)
  repeat' first
    | with_reducible exact hK | exact setCmd_keeps (fun p hk => applyPwrSetDroop_keeps hk p) hK r

theorem State.sense_keeps {s0 s : State} (hK : Keeps s0 s) (n : Nat) (k : Nat) (v : Option Int) : Keeps s0
    (State.sense s n k v) := by
  unfold State.sense
  (try dsimp only)
  repeat' first
    | with_reducible (first | exact hK | apply State.raiseIf_keeps | apply State.updSlice_keeps) | (intro _ hK; skip)

theorem State.warnStep_keeps {s0 s : State} (hK : Keeps s0 s) (h : Nat × Int) : Keeps s0 (State.warnStep s h) := by
  unfold State.warnStep
  (try dsimp only)
  repeat' first
    | with_reducible (first | exact hK | apply State.bumpPwr_keeps | apply State.raise_keeps)
    | (with_reducible refine Keeps.ite (fun _ => ?_) (fun _ => ?_)) | split
    | fail_if_no_progress with_reducible refine Keeps.fields ?_

theorem State.setEclks_keeps {s0 s : State} (hK : Keeps s0 s) : Keeps s0 (State.setEclks s) := by
  unfold State.setEclks
  (try dsimp only)
  repeat' first
    | with_reducible (first | exact hK | apply State.setEclk_keeps)
    | (with_reducible refine Keeps.foldl _ (fun _ _ hK => ?_) _ ?_) | (intro _ hK; skip)

theorem State.tripStep_keeps {s0 s : State} (hK : Keeps s0 s) (h : Nat × Int) : Keeps s0 (State.tripStep s h) := by
  unfold State.tripStep
  (try dsimp only)
  repeat' first
    | with_reducible (first
        | exact hK | apply State.bumpPwr_keeps | apply State.raise_keeps | apply State.setEclks_keeps)
    | (with_reducible refine Keeps.ite (fun _ => ?_) (fun _ => ?_)) | split
    | fail_if_no_progress with_reducible refine Keeps.fields ?_

theorem State.thermal_keeps {s0 s : State} (hK : Keeps s0 s) (l : List Int) : Keeps s0 (State.thermal s l) := by
  unfold State.thermal
  (try dsimp only)
  repeat' first
    | with_reducible (first
        | exact hK | apply State.bumpPwr_keeps | apply State.sense_keeps | apply State.tripStep_keeps
        | apply State.warnStep_keeps)
    | (with_reducible refine Keeps.foldl _ (fun _ _ hK => ?_) _ ?_) | (intro _ hK; skip) | with_reducible assumption
    | split | fail_if_no_progress with_reducible refine Keeps.fields ?_

theorem State.thermalClear_keeps {s0 s : State} (hK : Keeps s0 s) (code : Nat) : Keeps s0 (State.thermalClear s code)
    := by
  unfold State.thermalClear
  (try dsimp only)
  repeat' first
    | with_reducible (first | exact hK | apply State.raise_keeps)

theorem execThermalClearTimer_keeps (trip : Bool) (s : State) : OutKeeps s (execThermalClearTimer trip s) := by
  unfold execThermalClearTimer
  (try dsimp only)
  repeat' first
    | with_reducible (first
        | exact OutKeeps.fault _ _ | apply OutKeeps.next | exact Keeps.refl _ | apply State.setEclks_keeps
        | apply State.thermalClear_keeps)
    | (with_reducible refine Keeps.ite (fun _ => ?_) (fun _ => ?_)) | split
    | fail_if_no_progress with_reducible refine Keeps.fields ?_

theorem applyPwrSetThermal_keeps {s0 s : State} (hK : Keeps s0 s) (p : List Byte) : Keeps s0 (applyPwrSetThermal p s)
    :=
  hK.upd rfl

theorem pwrSetThermalBody_keeps {s0 s : State} (hK : Keeps s0 s) (r : Req) : Keeps s0 (pwrSetThermalBody r s).1 := by
  unfold pwrSetThermalBody
  (try dsimp only)
  repeat' first
    | with_reducible exact hK | exact setCmd_keeps (fun p hk => applyPwrSetThermal_keeps hk p) hK r

theorem execLifeHourTick_keeps (avg : Int) (s : State) : OutKeeps s (execLifeHourTick avg s) := by
  unfold execLifeHourTick
  (try dsimp only)
  repeat' first
    | with_reducible (first | exact OutKeeps.fault _ _ | apply OutKeeps.next | exact Keeps.refl _) | split
    | fail_if_no_progress with_reducible refine Keeps.fields ?_

theorem State.spareCopy_keeps {s0 s : State} (hK : Keeps s0 s) (k : Nat) (pc : Nat) : Keeps s0 (State.spareCopy s k
    pc) := by
  unfold State.spareCopy
  (try dsimp only)
  repeat' first
    | with_reducible (first | exact hK | apply State.updStack_keeps) | (intro _ hK; skip) | with_reducible assumption
    | (with_reducible refine Keeps.ite (fun _ => ?_) (fun _ => ?_))

theorem State.loseSparePc_keeps {s0 s : State} (hK : Keeps s0 s) (k : Nat) (pc : Nat) : Keeps s0 (State.loseSparePc s
    k pc) := by
  unfold State.loseSparePc
  (try dsimp only)
  repeat' first
    | with_reducible (first | exact hK | apply State.repairAdd_keeps | apply State.updStack_keeps)
    | (with_reducible refine Keeps.foldl _ (fun _ _ hK => ?_) _ ?_) | (intro _ hK; skip)
    | with_reducible assumption | (with_reducible refine Keeps.ite (fun _ => ?_) (fun _ => ?_)) | split
    | fail_if_no_progress with_reducible refine Keeps.fields ?_

theorem State.unspare_keeps {s0 s : State} (hK : Keeps s0 s) (k : Nat) (pc : Nat) : Keeps s0 (State.unspare s k pc) :=
    by
  unfold State.unspare
  (try dsimp only)
  repeat' first
    | with_reducible (first
        | exact hK | apply State.healthIf_keeps | apply State.repairAdd_keeps | apply State.updStack_keeps
        | apply State.loseSparePc_keeps)
    | (with_reducible refine Keeps.foldl _ (fun _ _ hK => ?_) _ ?_) | (intro _ hK; skip)
    | with_reducible assumption | (with_reducible refine Keeps.ite (fun _ => ?_) (fun _ => ?_)) | split
    | fail_if_no_progress with_reducible refine Keeps.fields ?_

theorem State.spareFails_keeps {s0 s : State} (hK : Keeps s0 s) (k : Nat) : Keeps s0 (State.spareFails s k) := by
  unfold State.spareFails
  (try dsimp only)
  repeat' first
    | with_reducible (first
        | exact hK | apply State.healthChanged_keeps | apply State.repairAdd_keeps | apply State.updStack_keeps)
    | (with_reducible refine Keeps.foldl _ (fun _ _ hK => ?_) _ ?_) | (intro _ hK; skip)
    | with_reducible assumption | (with_reducible refine Keeps.ite (fun _ => ?_) (fun _ => ?_)) | split
    | fail_if_no_progress with_reducible refine Keeps.fields ?_

theorem State.retireRow_keeps {s0 s : State} (hK : Keeps s0 s) (k : Nat) (pc : Nat) (row : Nat) : Keeps s0
    (State.retireRow s k pc row) := by
  unfold State.retireRow
  (try dsimp only)
  repeat' first
    | with_reducible (first
        | exact hK | apply State.bumpPwr_keeps | apply State.raise_keeps | apply State.repairAdd_keeps
        | apply State.spareCopy_keeps | apply State.updStack_keeps)
    | (intro _ hK; skip) | with_reducible assumption | (with_reducible refine Keeps.ite (fun _ => ?_) (fun _ => ?_))

theorem State.hbmCorrectable_keeps {s0 s : State} (hK : Keeps s0 s) (k : Nat) (pc : Nat) (row : Nat) : Keeps s0
    (State.hbmCorrectable s k pc row) := by
  unfold State.hbmCorrectable
  (try dsimp only)
  repeat' first
    | with_reducible (first
        | exact hK | apply State.bumpPwr_keeps | apply State.retireRow_keeps | apply State.updStack_keeps)
    | (intro _ hK; skip) | with_reducible assumption | (with_reducible refine Keeps.ite (fun _ => ?_) (fun _ => ?_))

theorem State.poisonDrop_keeps {s0 s : State} (hK : Keeps s0 s) (id : Nat) : Keeps s0 (State.poisonDrop s id) := by
  unfold State.poisonDrop
  (try dsimp only)
  repeat' first
    | with_reducible (first
        | exact hK | apply State.bumpPwr_keeps | apply State.forget_keeps | apply State.pull_keeps
        | apply State.queueEmptied_keeps | apply State.readEnd_keeps | apply State.release_keeps
        | apply State.unpark_keeps | apply State.leavePark_keeps)
    | (with_reducible refine Keeps.ite (fun _ => ?_) (fun _ => ?_)) | split

theorem State.poison_keeps {s0 s : State} (hK : Keeps s0 s) (region : Nat) (item : Nat) : Keeps s0 (State.poison s
    region item) := by
  unfold State.poison
  (try dsimp only)
  repeat' first
    | with_reducible (first | exact hK | apply State.poisonDrop_keeps | apply State.transferDone_keeps)
    | (with_reducible refine Keeps.ite (fun _ => ?_) (fun _ => ?_))

theorem State.hbmUncorrectable_keeps {s0 s : State} (hK : Keeps s0 s) (k : Nat) (pc : Nat) (region : Nat) (item : Nat)
    : Keeps s0 (State.hbmUncorrectable s k pc region item) := by
  unfold State.hbmUncorrectable
  (try dsimp only)
  repeat' first
    | with_reducible (first
        | exact hK | apply State.bumpPwr_keeps | apply State.poison_keeps | apply State.raise_keeps
        | apply State.spareCopy_keeps | apply State.unspare_keeps)

theorem State.spareDone_keeps {s0 s : State} (hK : Keeps s0 s) (k : Nat) : Keeps s0 (State.spareDone s k) := by
  unfold State.spareDone
  (try dsimp only)
  repeat' first
    | with_reducible (first
        | exact hK | apply State.healthChanged_keeps | apply State.raise_keeps | apply State.repairAdd_keeps
        | apply State.updStack_keeps)
    | (intro _ hK; skip) | with_reducible assumption | split

theorem execHbmCorrectableError_keeps (stack : Nat) (pc : Nat) (row : Nat) (s : State) : OutKeeps s
    (execHbmCorrectableError stack pc row s) := by
  unfold execHbmCorrectableError
  (try dsimp only [onStack])
  repeat' first
    | with_reducible (first
        | exact OutKeeps.fault _ _ | apply OutKeeps.next | exact Keeps.refl _ | apply State.hbmCorrectable_keeps)
    | split

theorem execHbmUncorrectableRead_keeps (stack : Nat) (pc : Nat) (region : Nat) (item : Nat) (s : State) : OutKeeps s
    (execHbmUncorrectableRead stack pc region item s) := by
  unfold execHbmUncorrectableRead
  (try dsimp only [onStack])
  repeat' first
    | with_reducible (first
        | exact OutKeeps.fault _ _ | apply OutKeeps.next | exact Keeps.refl _ | apply State.hbmUncorrectable_keeps
        | apply State.spareFails_keeps)
    | (with_reducible refine Keeps.foldl _ (fun _ _ hK => ?_) _ ?_) | (intro _ hK; skip)
    | with_reducible assumption | (with_reducible refine Keeps.ite (fun _ => ?_) (fun _ => ?_)) | split
    | fail_if_no_progress with_reducible refine Keeps.fields ?_

theorem execHbmPcSpareDone_keeps (stack : Nat) (s : State) : OutKeeps s (execHbmPcSpareDone stack s) := by
  unfold execHbmPcSpareDone
  (try dsimp only [onStack])
  repeat' first
    | with_reducible (first
        | exact OutKeeps.fault _ _ | apply OutKeeps.next | exact Keeps.refl _ | apply State.spareDone_keeps)
    | split

theorem pwrGetStatusBody_keeps {s0 s : State} (hK : Keeps s0 s) (r : Req) : Keeps s0 (pwrGetStatusBody r s).1 := by
  unfold pwrGetStatusBody
  (try dsimp only)
  repeat' first
    | with_reducible (first | exact hK | apply readCmd_keeps) | (intro _ hK; skip)

theorem pwrGetCountersBody_keeps {s0 s : State} (hK : Keeps s0 s) (r : Req) : Keeps s0 (pwrGetCountersBody r s).1 :=
    by
  unfold pwrGetCountersBody
  (try dsimp only)
  repeat' first
    | with_reducible (first | exact hK | apply readCmd_keeps) | (intro _ hK; skip)

theorem execPwrGetStatus_keeps (r : Req) (s : State) : OutKeeps s (execPwrGetStatus r s) := 
  mailboxCommand_keeps (fun hk => pwrGetStatusBody_keeps hk r)

theorem execPwrSetDroop_keeps (r : Req) (s : State) : OutKeeps s (execPwrSetDroop r s) := 
  mailboxCommand_keeps (fun hk => pwrSetDroopBody_keeps hk r)

theorem execPwrSetThermal_keeps (r : Req) (s : State) : OutKeeps s (execPwrSetThermal r s) := 
  mailboxCommand_keeps (fun hk => pwrSetThermalBody_keeps hk r)

theorem execPwrGetCounters_keeps (r : Req) (s : State) : OutKeeps s (execPwrGetCounters r s) := 
  mailboxCommand_keeps (fun hk => pwrGetCountersBody_keeps hk r)

end Sys2Proof.Machine
end

