-- ==== Sys2Proof/Laws/KeepSliceOps.lean ====
section
/-! SUPPORT. What the operations of SliceOps keep. -/

set_option Elab.async false
set_option linter.all false

namespace Sys2Proof.Machine

theorem State.cutTx_keeps {s0 s : State} (hK : Keeps s0 s) (n : Nat) (p : Nat) : Keeps s0 (State.cutTx s n p) := by
  unfold State.cutTx
  (try dsimp only)
  repeat' first
    | with_reducible (first
        | exact hK | apply State.complete_keeps | apply State.txDone_keeps | apply State.updPort_keeps)
    | (intro _ hK; skip) | with_reducible assumption | (with_reducible refine Keeps.ite (fun _ => ?_) (fun _ => ?_))
    | split

theorem State.dropItems_keeps {s0 s : State} (hK : Keeps s0 s) (f : Nat → EgItem → Bool) : Keeps s0 (State.dropItems s
    f) := by
  unfold State.dropItems
  (try dsimp only)
  repeat' first
    | with_reducible (first | exact hK | apply State.matchCredit_keeps | apply State.setEgq_keeps)
    | (with_reducible refine Keeps.foldl _ (fun _ _ hK => ?_) _ ?_) | (intro _ hK; skip) | with_reducible assumption
    | (with_reducible refine Keeps.ite (fun _ => ?_) (fun _ => ?_))

theorem State.unmatch_keeps {s0 s : State} (hK : Keeps s0 s) (r : State) (pk : Pkt) : Keeps s0 (State.unmatch r s pk)
    := by
  unfold State.unmatch
  (try dsimp only)
  repeat' first
    | with_reducible (first | exact hK | apply State.matchCredit_keeps)
    | (with_reducible refine Keeps.ite (fun _ => ?_) (fun _ => ?_))

theorem State.loseCopy_keeps {s0 s : State} (hK : Keeps s0 s) (r : State) (src : Nat) (dst : Nat) (id : Nat) : Keeps
    s0 (State.loseCopy r s src dst id) := by
  unfold State.loseCopy
  (try dsimp only)
  repeat' first
    | with_reducible (first
        | exact hK | apply State.freeCell_keeps | apply State.release_keeps | apply State.unmatch_keeps)
    | (with_reducible refine Keeps.foldl _ (fun _ _ hK => ?_) _ ?_) | (intro _ hK; skip) | with_reducible assumption
    | (with_reducible refine Keeps.ite (fun _ => ?_) (fun _ => ?_))

theorem State.losePkt_keeps {s0 s : State} (hK : Keeps s0 s) (r : State) (id : Nat) : Keeps s0 (State.losePkt r s id)
    := by
  unfold State.losePkt
  (try dsimp only)
  repeat' first
    | with_reducible (first
        | exact hK | apply State.pull_keeps | apply State.release_keeps | apply State.retire_keeps
        | apply State.unmatch_keeps)
    | (intro _ hK; skip) | with_reducible assumption | (with_reducible refine Keeps.ite (fun _ => ?_) (fun _ => ?_))
    | split

theorem State.loseCredit_keeps {s0 s : State} (hK : Keeps s0 s) (n : Nat) : Keeps s0 (State.loseCredit s n) := by
  unfold State.loseCredit
  (try dsimp only)
  repeat' first
    | with_reducible (first
        | exact hK | apply State.credit_keeps | apply State.matchCredit_keeps | apply State.grSettle_keeps)
    | (with_reducible refine Keeps.foldl _ (fun _ _ hK => ?_) _ ?_) | (intro _ hK; skip) | with_reducible assumption
    | split | fail_if_no_progress with_reducible refine Keeps.fields ?_

theorem State.restartPairs_keeps {s0 s : State} (hK : Keeps s0 s) (n : Nat) : Keeps s0 (State.restartPairs s n) := by
  unfold State.restartPairs
  (try dsimp only)
  repeat' first
    | with_reducible (first | exact hK | apply State.updPair_keeps)
    | (with_reducible refine Keeps.foldl _ (fun _ _ hK => ?_) _ ?_) | (intro _ hK; skip) | with_reducible assumption
    | (with_reducible refine Keeps.ite (fun _ => ?_) (fun _ => ?_)) | split
    | fail_if_no_progress with_reducible refine Keeps.fields ?_

theorem State.clearSlice_keeps {s0 s : State} (hK : Keeps s0 s) (n : Nat) : Keeps s0 (State.clearSlice s n) :=
  hK.upd rfl

theorem State.flushSlice_keeps {s0 s : State} (hK : Keeps s0 s) (n : Nat) : Keeps s0 (State.flushSlice s n).1 := by
  unfold State.flushSlice
  (try dsimp only)
  repeat' first
    | with_reducible (first
        | exact hK | apply State.clearSlice_keeps | apply State.cutTx_keeps | apply State.dropItems_keeps
        | apply State.linkDown_keeps | apply State.loseCopy_keeps | apply State.loseCredit_keeps
        | apply State.losePkt_keeps | apply State.restartPairs_keeps | apply State.rewindSlice_keeps
        | apply State.updPort_keeps)
    | (with_reducible refine Keeps.foldl _ (fun _ _ hK => ?_) _ ?_) | (intro _ hK; skip) | with_reducible assumption
    | (with_reducible refine Keeps.ite (fun _ => ?_) (fun _ => ?_))

theorem State.parkNow_keeps {s0 s : State} (hK : Keeps s0 s) (n : Nat) : Keeps s0 (State.parkNow s n) := by
  unfold State.parkNow
  (try dsimp only)
  repeat' first
    | with_reducible (first
        | exact hK | apply State.bumpPwr_keeps | apply State.flushSlice_keeps | apply State.raise_keeps
        | apply State.updCluster_keeps | apply State.updSlice_keeps | apply State.closeStretch_keeps)
    | (intro _ hK; skip) | (with_reducible refine Keeps.ite (fun _ => ?_) (fun _ => ?_))

end Sys2Proof.Machine
end

