-- ==== Sys2Proof/Laws/KeepBakeBase.lean ====
section
/-! SUPPORT. What the operations of BakeBase keep. -/

set_option Elab.async false
set_option linter.all false

namespace Sys2Proof.Machine

theorem applyDomSetPort_keeps {s0 s : State} (hK : Keeps s0 s) (p : List Byte) : Keeps s0 (applyDomSetPort p s) := by
  unfold applyDomSetPort
  (try dsimp only)
  repeat' first
    | with_reducible (first | exact hK | apply State.updPort_keeps)
    | (with_reducible refine Keeps.foldl _ (fun _ _ hK => ?_) _ ?_) | (intro _ hK; skip)
    | with_reducible assumption | (with_reducible refine Keeps.ite (fun _ => ?_) (fun _ => ?_)) | split
    | fail_if_no_progress with_reducible refine Keeps.fields ?_

theorem applyDomAdmit_keeps {s0 s : State} (hK : Keeps s0 s) (p : List Byte) : Keeps s0 (applyDomAdmit p s) := by
  unfold applyDomAdmit
  (try dsimp only)
  repeat' first
    | with_reducible (first | exact hK | apply State.updPeer_keeps) | (intro _ hK; skip) | with_reducible assumption
    | (with_reducible refine Keeps.ite (fun _ => ?_) (fun _ => ?_)) | split
    | fail_if_no_progress with_reducible refine Keeps.fields ?_

theorem applyLaneMap_keeps {s0 s : State} (hK : Keeps s0 s) (p : List Byte) : Keeps s0 (applyLaneMap p s) := by
  unfold applyLaneMap
  (try dsimp only)
  repeat' first
    | with_reducible (first | exact hK | apply State.updGroup_keeps)
    | (with_reducible refine Keeps.foldl _ (fun _ _ hK => ?_) _ ?_) | (intro _ hK; skip)
    | with_reducible assumption | (with_reducible refine Keeps.ite (fun _ => ?_) (fun _ => ?_)) | split
    | fail_if_no_progress with_reducible refine Keeps.fields ?_

theorem virtPrism_keeps {s0 s : State} (hK : Keeps s0 s) (op : Nat) (p : List Byte) : Keeps s0 (virtPrism op p s) :=
  hK.upd rfl

theorem State.newFlows_keeps {s0 s : State} (hK : Keeps s0 s) (l : List StagedCmd) : Keeps s0 (State.newFlows s l) :=
    by
  unfold State.newFlows
  (try dsimp only)
  repeat' first
    | with_reducible (first | exact hK | apply State.firstFlow_keeps)
    | (with_reducible refine Keeps.foldl _ (fun _ _ hK => ?_) _ ?_) | (intro _ hK; skip) | with_reducible assumption
    | split | fail_if_no_progress with_reducible refine Keeps.fields ?_

theorem State.prepare_keeps {s0 s t : State} (h : Keeps s0 s) {l : List StagedCmd} (e : s.prepare l = some t) : Keeps s0 t := by
  unfold State.prepare at e
  rw [Option.map_eq_some_iff] at e
  obtain ⟨f, -, e⟩ := e
  subst e
  exact Keeps.fields (State.newFlows_keeps h l) rfl rfl rfl

theorem State.unprepare_keeps {s0 s : State} (hK : Keeps s0 s) (t : SetSt) : Keeps s0 (State.unprepare s t) := by
  unfold State.unprepare
  (try dsimp only)
  repeat' first
    | with_reducible exact hK | (with_reducible refine Keeps.ite (fun _ => ?_) (fun _ => ?_)) | split
    | fail_if_no_progress with_reducible refine Keeps.fields ?_

theorem ruleLow_keeps {op : Nat} {u : BakeRule} (e : ruleLow op = some u) {s0 s : State} (h : Keeps s0 s) (p : List Byte) :
    Keeps s0 (u.apply p s) := by
  unfold ruleLow at e
  split at e
  · cases e; dsimp only; with_reducible exact applyPortSetMode_keeps h p
  · cases e; dsimp only; with_reducible exact applyPortSetMac_keeps h p
  · cases e; dsimp only; with_reducible exact applyPortSetFlow_keeps h p
  · cases e; dsimp only; with_reducible exact applyPortSetThrottle_keeps h p
  · cases e; dsimp only; with_reducible exact applyPortSetEee_keeps h p
  · cases e; dsimp only; with_reducible exact applyLaneMap_keeps h p
  · cases e; dsimp only; with_reducible exact applyPortSetAdmin_keeps h p
  · cases e; dsimp only; with_reducible exact applyPortSetMargin_keeps h p
  · cases e; dsimp only; with_reducible exact virtPrism_keeps h _ p
  · cases e; dsimp only; with_reducible exact virtPrism_keeps h _ p
  · cases e; dsimp only; with_reducible exact virtPrism_keeps h _ p
  · cases e; dsimp only; with_reducible exact virtPrism_keeps h _ p
  · cases e; dsimp only; with_reducible exact State.liveInsert_keeps h _
  · cases e; dsimp only; with_reducible exact applyFwdDelete_keeps h p
  · cases e; dsimp only; with_reducible exact applyFwdSetVlan_keeps h p
  · cases e; dsimp only; with_reducible exact applyFwdSetRoute_keeps h p
  · cases e; dsimp only; with_reducible exact applyFwdSetNexthop_keeps h p
  · cases e; dsimp only; with_reducible exact applyFwdSetEcmp_keeps h p
  · cases e; dsimp only; with_reducible exact applyFwdSetTemplate_keeps h p
  · cases e; dsimp only; with_reducible exact applyFwdSetRouter_keeps h p
  · cases e; dsimp only; with_reducible exact applyFwdSetLearn_keeps h p
  · cases e; dsimp only; with_reducible exact applyFwdSetAging_keeps h p
  · cases e

theorem ruleMid_keeps {op : Nat} {u : BakeRule} (e : ruleMid op = some u) {s0 s : State} (h : Keeps s0 s) (p : List Byte) :
    Keeps s0 (u.apply p s) := by
  unfold ruleMid at e
  split at e
  · cases e; dsimp only; with_reducible exact applyBufSetClass_keeps h p
  · cases e; dsimp only; with_reducible exact applyBufSetPortClass_keeps h p
  · cases e; dsimp only; with_reducible exact applyBufSetHeadroom_keeps h p
  · cases e; dsimp only; with_reducible exact applyBufSetPfcTx_keeps h p
  · cases e; dsimp only; with_reducible exact applyBufSetWredProfile_keeps h p
  · cases e; dsimp only; with_reducible exact applyBufSetQueue_keeps h p
  · cases e; dsimp only; with_reducible exact applyFabSetParams_keeps h p
  · cases e; dsimp only; with_reducible exact applyFabSetPort_keeps h p
  · cases e; dsimp only; with_reducible exact applySchedSetNode_keeps h p
  · cases e; dsimp only; with_reducible exact applyPolSet_keeps h p
  · cases e; dsimp only; with_reducible exact applyPolSetPort_keeps h p
  · cases e; dsimp only; with_reducible exact applyLoupeSetProfile_keeps h p
  · cases e; dsimp only; with_reducible exact applyLoupeSetQueue_keeps h p
  · cases e; dsimp only; with_reducible exact applyTimeSetPtp_keeps h p
  · cases e; dsimp only; with_reducible exact applyTimeSetPort_keeps h p
  · cases e; dsimp only; with_reducible exact applyTimeSetPps_keeps h p
  · cases e; dsimp only; with_reducible exact applyGateSetList_keeps h p
  · cases e

theorem ruleHigh_keeps {op : Nat} {u : BakeRule} (e : ruleHigh op = some u) {s0 s : State} (h : Keeps s0 s) (p : List Byte) :
    Keeps s0 (u.apply p s) := by
  unfold ruleHigh at e
  split at e
  · cases e; dsimp only; with_reducible exact applyFrerSetStream_keeps h p
  · cases e; dsimp only; with_reducible exact applyFrerSetPort_keeps h p
  · cases e; dsimp only; with_reducible exact applyFixSetCluster_keeps h p
  · cases e; dsimp only; with_reducible exact applyLeavenSetEvents_keeps h p
  · cases e; dsimp only; with_reducible exact applyProofSetClass_keeps h p
  · cases e; dsimp only; with_reducible exact applyProofSetTarget_keeps h p
  · cases e; dsimp only; with_reducible exact applyShelfSet_keeps h p
  · cases e; dsimp only; with_reducible exact applyShelfSetBus_keeps h p
  · cases e; dsimp only; with_reducible exact applyMemSetRegions_keeps h p
  · cases e; dsimp only; with_reducible exact applyDomSetPort_keeps h p
  · cases e; dsimp only; with_reducible exact applyDomAdmit_keeps h p
  · cases e; dsimp only; with_reducible exact applyTelSetMirror_keeps h p
  · cases e; dsimp only; with_reducible exact applyTelSetPortMirror_keeps h p
  · cases e; dsimp only; with_reducible exact applyPwrSetDroop_keeps h p
  · cases e; dsimp only; with_reducible exact applyPwrSetThermal_keeps h p
  · cases e; dsimp only; with_reducible exact State.parkNow_keeps h _
  · cases e

/-- What a staged command does at the instant keeps what every operation keeps. -/
theorem stageRule_keeps {op : Nat} {u : BakeRule} (e : stageRule op = some u) {s0 s : State} (h : Keeps s0 s) (p : List Byte) :
    Keeps s0 (u.apply p s) := by
  unfold stageRule at e
  split at e
  · exact ruleLow_keeps e h p
  · split at e
    · exact ruleMid_keeps e h p
    · exact ruleHigh_keeps e h p

theorem State.bakeCmd_keeps {s0 s : State} (h : Keeps s0 s) (c : StagedCmd) : Keeps s0 (s.bakeCmd c) := by
  unfold State.bakeCmd
  repeat' first
    | with_reducible exact h
    | with_reducible apply State.frerRewrite_keeps
    | with_reducible apply State.nameFlow_keeps
    | split
  next e => exact stageRule_keeps e h c.payload

theorem State.switchAll_keeps {s0 s : State} (hK : Keeps s0 s) (l : List StagedCmd) : Keeps s0 (State.switchAll s l)
    := by
  unfold State.switchAll
  (try dsimp only)
  repeat' first
    | with_reducible (first | exact hK | apply State.bakeCmd_keeps | apply State.bumpPrism_keeps)
    | (with_reducible refine Keeps.foldl _ (fun _ _ hK => ?_) _ ?_)
    | (with_reducible refine Keeps.ite (fun _ => ?_) (fun _ => ?_)) | split
    | fail_if_no_progress with_reducible refine Keeps.fields ?_

end Sys2Proof.Machine
end

