-- ==== Sys2Proof/Laws/KeepBoot.lean ====
section
/-! SUPPORT. What the operations of Boot keep. -/

set_option Elab.async false
set_option linter.all false

namespace Sys2Proof.Machine

/-- What a good state asks of the identity: the flash in canonical form, sessions within their limits. -/
def IdSt.ok (i : IdSt) : Prop :=
  (i.slotA.wf = true ∧ i.slotB.wf = true ∧ Tab.wf (0xFF : Byte) i.cfg0 = true ∧ Tab.wf (0xFF : Byte) i.cfg1 = true) ∧ (i.doe0.length ≤ 2 ∧ i.doe1.length ≤ 2 ∧ i.smb.length ≤ 1)

theorem Keeps.ofIdent {s0 s : State} (h : Keeps s0 s) (x : IdSt) (hx : s.ident.ok → x.ok) : Keeps s0 { s with ident := x } := by
  have split : ∀ t : State, Memory.wf t = true ↔
      (t.mbx.boxes.all (fun e => Tab.wf (0 : Byte) e.2.req) = true ∧ Tab.wf (0 : Byte) t.host.staging = true
          ∧ Tab.wf (0 : Byte) t.host.poolMem = true)
        ∧ (t.ident.slotA.wf = true ∧ t.ident.slotB.wf = true ∧ Tab.wf (0xFF : Byte) t.ident.cfg0 = true
          ∧ Tab.wf (0xFF : Byte) t.ident.cfg1 = true) := by
    intro t; simp only [Memory.wf, Bool.and_eq_true, and_assoc]
  refine h.trans ⟨rfl, fun g => ?_⟩
  have hm := (split s).mp g.mem
  have k := hx ⟨hm.2, g.sessions⟩
  exact ⟨g.time, (split _).mpr ⟨hm.1, k.1⟩, g.hist, k.2, g.held⟩

theorem Slot.wf_put {t : Slot} (a : Nat) (b : Byte) (h : t.wf = true) : (t.put a b).wf = true := by
  unfold Slot.wf Slot.put at *
  simp only [Bool.and_eq_true] at h ⊢
  split
  · exact ⟨Tab.sorted_filter _ h.1, Tab.all_erase h.2⟩
  · next hb =>
    refine ⟨Tab.sorted_insert h.1, Tab.all_insert h.2 ?_⟩
    simpa [Slot.base] using hb

theorem Slot.wf_erased (t : Slot) : t.erased.wf = true := rfl

theorem IdSt.ok_putCfg {i : IdSt} (h : i.ok) (b : List Byte) : (i.putCfg b).ok := by
  have w : Tab.wf (0xFF : Byte) (Tab.writeBytes 0xFF [] 0 b) = true := Tab.wf_writeBytes _ _ rfl
  unfold IdSt.putCfg
  dsimp only
  split
  · exact ⟨⟨h.1.1, h.1.2.1, w, h.1.2.2.2⟩, h.2⟩
  · exact ⟨⟨h.1.1, h.1.2.1, h.1.2.2.1, w⟩, h.2⟩

theorem IdSt.ok_writeCfg {i : IdSt} (h : i.ok) (p : Nat) (t x : Bool) : (i.writeCfg p t x).ok := IdSt.ok_putCfg h _

theorem IdSt.ok_cutCfg {i : IdSt} (h : i.ok) (n p : Nat) (t x : Bool) : (i.cutCfg n p t x).ok := by
  unfold IdSt.cutCfg
  split
  · exact h
  · exact IdSt.ok_putCfg h _

theorem IdSt.ok_run {i : IdSt} (h : i.ok) (k : Nat) (t : Bool) : (i.run k t).ok := h

theorem IdSt.ok_checked {i : IdSt} (h : i.ok) : i.checked.ok := h

theorem IdSt.ok_romBoot {i : IdSt} (h : i.ok) : i.romBoot.ok := by
  have hc := IdSt.ok_checked h
  unfold IdSt.romBoot
  generalize i.checked = a at hc ⊢
  dsimp only
  split
  · exact hc
  · next k t _ =>
    have hb : (if t then a.writeCfg (1 - k) false a.cfgBif else a).ok := by
      split
      · exact IdSt.ok_writeCfg hc _ _ _
      · exact hc
    exact hb

theorem IdSt.ok_setSlot {i : IdSt} (h : i.ok) (k : Nat) {t : Slot} (ht : t.wf = true) : (i.setSlot k t).ok := by
  unfold IdSt.setSlot
  split
  · exact ⟨⟨ht, h.1.2⟩, h.2⟩
  · exact ⟨⟨h.1.1, ht, h.1.2.2⟩, h.2⟩

theorem IdSt.wf_slot {i : IdSt} (h : i.ok) (k : Nat) : (i.slot k).wf = true := by
  unfold IdSt.slot
  split
  · exact h.1.1
  · exact h.1.2.1

theorem State.bootEvents_keeps {s0 s : State} (hK : Keeps s0 s) : Keeps s0 (State.bootEvents s) := by
  unfold State.bootEvents
  (try dsimp only)
  repeat' first
    | with_reducible (first | exact hK | apply State.raise_keeps | apply State.raiseIf_keeps) | split

theorem State.consoleLine_keeps {s0 s : State} (hK : Keeps s0 s) : Keeps s0 s.consoleLine :=
  State.emit_keeps (Keeps.ofIdent hK { s.ident with console := some s.upNs } (fun h => h)) _

theorem State.consoleTick_keeps {s0 s : State} (hK : Keeps s0 s) : Keeps s0 s.consoleTick := by
  unfold State.consoleTick
  repeat' first
    | exact hK | exact State.consoleLine_keeps hK | split

theorem State.moarasBoot_keeps {s0 s : State} (h : Keeps s0 s) : Keeps s0 s.moarasBoot := by
  unfold State.moarasBoot
  have hr := IdSt.ok_romBoot (i := s.ident)
  generalize s.ident.romBoot = i at hr ⊢
  dsimp only
  split
  · exact State.bootEvents_keeps (Keeps.upd (h.ofIdent (i.keepCert s.pwr.variant ((s.mbx.boots + 1) % 2 ^ 32)) hr) rfl)
  · exact State.consoleLine_keeps (h.ofIdent i hr)

end Sys2Proof.Machine
end

