-- ==== Sys2Proof/Laws/KeepBake.lean ====
section
/-! SUPPORT. What the operations of Bake keep. -/

set_option Elab.async false
set_option linter.all false

namespace Sys2Proof.Machine

theorem State.answerSet_keeps {s0 s : State} (hK : Keeps s0 s) (t : SetSt) (x : Resp) : Keeps s0 (State.answerSet s t
    x) := by
  unfold State.answerSet
  (try dsimp only)
  repeat' first
    | with_reducible (first | exact hK | apply State.complete_keeps) | split

theorem State.reopen_keeps {s0 s : State} (hK : Keeps s0 s) (t : SetSt) : Keeps s0 (State.reopen s t) := by
  unfold State.reopen
  (try dsimp only)
  repeat' first
    | with_reducible (first | exact hK | apply State.unprepare_keeps) | (intro _ hK; skip) | with_reducible assumption
    | (with_reducible refine Keeps.ite (fun _ => ?_) (fun _ => ?_)) | split
    | fail_if_no_progress with_reducible refine Keeps.fields ?_

theorem State.tellFailed_keeps {s0 s : State} (hK : Keeps s0 s) (id : Nat) (st : Nat) (d : Nat) : Keeps s0
    (State.tellFailed s id st d) := by
  unfold State.tellFailed
  (try dsimp only)
  repeat' first
    | with_reducible (first | exact hK | apply State.raiseUp_keeps)

theorem State.updDom_keeps {s0 s : State} (hK : Keeps s0 s) (f : DomBake → DomBake) : Keeps s0 (State.updDom s f) :=
  hK.upd rfl

theorem State.domEnd_keeps {s0 s : State} (hK : Keeps s0 s) (d : DomBake) (st : Nat) (det : Nat) (epoch : Nat) : Keeps
    s0 (State.domEnd s d st det epoch) := by
  unfold State.domEnd
  (try dsimp only)
  repeat' first
    | with_reducible (first | exact hK | apply State.complete_keeps) | split
    | fail_if_no_progress with_reducible refine Keeps.fields ?_

theorem State.dropDomSet_keeps {s0 s : State} (hK : Keeps s0 s) (bakeId : Nat) (st : Nat) (det : Nat) : Keeps s0
    (State.dropDomSet s bakeId st det) := by
  unfold State.dropDomSet
  (try dsimp only)
  repeat' first
    | with_reducible (first | exact hK | apply State.reopen_keeps | apply State.tellFailed_keeps)
    | (with_reducible refine Keeps.ite (fun _ => ?_) (fun _ => ?_)) | split

theorem State.domFail_keeps {s0 s : State} (hK : Keeps s0 s) (st : Nat) (det : Nat) : Keeps s0 (State.domFail s st
    det) := by
  unfold State.domFail
  (try dsimp only)
  repeat' first
    | with_reducible (first
        | exact hK | apply State.domEnd_keeps | apply State.domSend_keeps | apply State.dropDomSet_keeps)
    | (with_reducible refine Keeps.foldl _ (fun _ _ hK => ?_) _ ?_) | (intro _ hK; skip) | with_reducible assumption
    | split

theorem State.takeGo_keeps {s0 s : State} (hK : Keeps s0 s) (t : SetSt) (epoch : Nat) : Keeps s0 (State.takeGo s t
    epoch) := by
  unfold State.takeGo
  (try dsimp only)
  repeat' first
    | with_reducible (first | exact hK | apply State.raise_keeps) | (intro _ hK; skip) | with_reducible assumption
    | (with_reducible refine Keeps.ite (fun _ => ?_) (fun _ => ?_)) | split
    | fail_if_no_progress with_reducible refine Keeps.fields ?_

theorem State.domDecide_keeps {s0 s : State} (hK : Keeps s0 s) : Keeps s0 (State.domDecide s) := by
  unfold State.domDecide
  (try dsimp only)
  repeat' first
    | with_reducible (first
        | exact hK | apply State.domSend_keeps | apply State.takeGo_keeps | apply State.updDom_keeps)
    | (with_reducible refine Keeps.foldl _ (fun _ _ hK => ?_) _ ?_) | (intro _ hK; skip) | with_reducible assumption
    | split | fail_if_no_progress with_reducible refine Keeps.fields ?_

theorem State.domAcked_keeps {s0 s : State} (hK : Keeps s0 s) : Keeps s0 (State.domAcked s) := by
  unfold State.domAcked
  (try dsimp only)
  repeat' first
    | with_reducible (first | exact hK | apply State.domDecide_keeps)
    | (with_reducible refine Keeps.ite (fun _ => ?_) (fun _ => ?_)) | split

theorem State.takeCommit_keeps {s0 s : State} (hK : Keeps s0 s) (bakeId : Nat) (epoch : Nat) : Keeps s0
    (State.takeCommit s bakeId epoch) := by
  unfold State.takeCommit
  (try dsimp only)
  repeat' first
    | with_reducible exact hK | (intro _ hK; skip) | with_reducible assumption | split
    | fail_if_no_progress with_reducible refine Keeps.fields ?_

theorem State.domCommit_keeps {s0 s : State} (hK : Keeps s0 s) : Keeps s0 (State.domCommit s) := by
  unfold State.domCommit
  (try dsimp only)
  repeat' first
    | with_reducible (first
        | exact hK | apply State.domAcked_keeps | apply State.domSend_keeps | apply State.takeCommit_keeps
        | apply State.updDom_keeps)
    | (with_reducible refine Keeps.foldl _ (fun _ _ hK => ?_) _ ?_) | (intro _ hK; skip) | with_reducible assumption
    | split

theorem State.domVote_keeps {s0 s : State} (hK : Keeps s0 s) (i : Nat) (yes : Bool) (st : Nat) (det : Nat) (epoch :
    Nat) : Keeps s0 (State.domVote s i yes st det epoch) := by
  unfold State.domVote
  (try dsimp only)
  repeat' first
    | with_reducible (first
        | exact hK | apply State.domCommit_keeps | apply State.domFail_keeps | apply State.updDom_keeps)
    | (intro _ hK; skip) | with_reducible assumption | (with_reducible refine Keeps.ite (fun _ => ?_) (fun _ => ?_))
    | split

theorem State.sendVote_keeps {s0 s : State} (hK : Keeps s0 s) (bakeId : Nat) (yes : Bool) (st : Nat) (det : Nat) :
    Keeps s0 (State.sendVote s bakeId yes st det) := by
  unfold State.sendVote
  (try dsimp only)
  repeat' first
    | with_reducible (first | exact hK | apply State.domSend_keeps)

theorem State.castVote_keeps {s0 s : State} (hK : Keeps s0 s) (bakeId : Nat) (yes : Bool) (st : Nat) (det : Nat) :
    Keeps s0 (State.castVote s bakeId yes st det) := by
  unfold State.castVote
  (try dsimp only)
  repeat' first
    | with_reducible (first | exact hK | apply State.domVote_keeps | apply State.sendVote_keeps)
    | (with_reducible refine Keeps.ite (fun _ => ?_) (fun _ => ?_))

theorem State.bakeFail_keeps {s0 s : State} (hK : Keeps s0 s) (t : SetSt) (st : Nat) (det : Nat) : Keeps s0
    (State.bakeFail s t st det) := by
  unfold State.bakeFail
  (try dsimp only)
  repeat' first
    | with_reducible (first
        | exact hK | apply State.answerSet_keeps | apply State.castVote_keeps | apply State.reopen_keeps
        | apply State.tellFailed_keeps)
    | (with_reducible refine Keeps.ite (fun _ => ?_) (fun _ => ?_))

theorem State.startBake_keeps {s0 s : State} (hK : Keeps s0 s) (id : Nat) (f : SetSt → SetSt) : Keeps s0
    (State.startBake s id f).1 := by
  unfold State.startBake
  (try dsimp only)
  repeat' first
    | with_reducible (first | exact hK | apply State.tellFailed_keeps) | (intro _ hK; skip)
    | with_reducible assumption | (with_reducible refine Keeps.ite (fun _ => ?_) (fun _ => ?_)) | split
    | fail_if_no_progress with_reducible refine Keeps.fields ?_

theorem State.startBake_of {s0 s u : State} {id : Nat}  {f : SetSt → SetSt} {o : _} (e : State.startBake s id f = (u,
    o)) (h : Keeps s0 s) : Keeps s0 u := by
  have k := State.startBake_keeps h id f
  rw [e] at k
  exact k

theorem State.arm_keeps {s0 s : State} (hK : Keeps s0 s) (t : SetSt) : Keeps s0 (State.arm s t) := by
  unfold State.arm
  (try dsimp only)
  repeat' first
    | with_reducible exact hK | (intro _ hK; skip) | with_reducible assumption
    | (with_reducible refine Keeps.ite (fun _ => ?_) (fun _ => ?_)) | split
    | fail_if_no_progress with_reducible refine Keeps.fields ?_

theorem State.prepareDone_keeps {s0 s : State} (hK : Keeps s0 s) (t : SetSt) : Keeps s0 (State.prepareDone s t) := by
  unfold State.prepareDone
  (try dsimp only)
  repeat' first
    | with_reducible (first
        | exact hK | apply State.arm_keeps | apply State.bakeFail_keeps | apply State.bumpFwd_keeps
        | apply State.castVote_keeps)
    | (with_reducible apply State.prepare_keeps; (case e => assumption))
    | (with_reducible refine Keeps.ite (fun _ => ?_) (fun _ => ?_)) | split

theorem execBakePrepareDone_keeps (s : State) : OutKeeps s (execBakePrepareDone s) := by
  unfold execBakePrepareDone
  (try dsimp only)
  repeat' first
    | with_reducible (first
        | exact OutKeeps.fault _ _ | apply OutKeeps.next | exact Keeps.refl _ | apply State.prepareDone_keeps)
    | split

theorem execBakeDrainTimeout_keeps (s : State) : OutKeeps s (execBakeDrainTimeout s) := by
  unfold execBakeDrainTimeout
  (try dsimp only)
  repeat' first
    | with_reducible (first
        | exact OutKeeps.fault _ _ | apply OutKeeps.next | exact Keeps.refl _ | apply State.bakeFail_keeps)
    | (with_reducible refine Keeps.ite (fun _ => ?_) (fun _ => ?_)) | split

theorem State.skewCheck_keeps {s0 s : State} (hK : Keeps s0 s) (t : SetSt) : Keeps s0 (State.skewCheck s t) := by
  unfold State.skewCheck
  (try dsimp only)
  repeat' first
    | with_reducible (first | exact hK | apply State.raiseUpIf_keeps)

theorem State.bakeSet_keeps {s0 s : State} (hK : Keeps s0 s) (t : SetSt) : Keeps s0 (State.bakeSet s t) := by
  unfold State.bakeSet
  (try dsimp only)
  repeat' first
    | with_reducible (first
        | exact hK | apply State.answerSet_keeps | apply State.raiseUp_keeps | apply State.raiseUpIf_keeps
        | apply State.skewCheck_keeps | apply State.switchAll_keeps)
    | (intro _ hK; skip) | with_reducible assumption | (with_reducible refine Keeps.ite (fun _ => ?_) (fun _ => ?_))
    | split | fail_if_no_progress with_reducible refine Keeps.fields ?_

theorem State.domFinish_keeps {s0 s : State} (hK : Keeps s0 s) (st : Nat) (det : Nat) : Keeps s0 (State.domFinish s st
    det) := by
  unfold State.domFinish
  (try dsimp only)
  repeat' first
    | with_reducible (first | exact hK | apply State.domEnd_keeps) | (intro _ hK; skip) | with_reducible assumption
    | (with_reducible refine Keeps.ite (fun _ => ?_) (fun _ => ?_)) | split

theorem State.regionFail_keeps {s0 s : State} (hK : Keeps s0 s) (t : SetSt) : Keeps s0 (State.regionFail s t) := by
  unfold State.regionFail
  (try dsimp only)
  repeat' first
    | with_reducible (first
        | exact hK | apply State.answerSet_keeps | apply State.domFinish_keeps | apply State.reopen_keeps
        | apply State.tellFailed_keeps)
    | (with_reducible refine Keeps.ite (fun _ => ?_) (fun _ => ?_))

theorem State.bakeOwn_keeps {s0 s : State} (hK : Keeps s0 s) (t : SetSt) : Keeps s0 (State.bakeOwn s t) := by
  unfold State.bakeOwn
  (try dsimp only)
  repeat' first
    | with_reducible (first | exact hK | apply State.bakeSet_keeps | apply State.domFinish_keeps)
    | (with_reducible refine Keeps.foldl _ (fun _ _ hK => ?_) _ ?_) | (intro _ hK; skip)
    | with_reducible assumption | (with_reducible refine Keeps.ite (fun _ => ?_) (fun _ => ?_)) | split
    | fail_if_no_progress with_reducible refine Keeps.fields ?_

theorem State.instantOf_keeps {s0 s : State} (hK : Keeps s0 s) (t : SetSt) : Keeps s0 (State.instantOf s t) := by
  unfold State.instantOf
  (try dsimp only)
  repeat' first
    | with_reducible (first
        | exact hK | apply State.bakeSet_keeps | apply State.domFinish_keeps | apply State.raiseUp_keeps
        | apply State.regionFail_keeps | apply State.bakeOwn_keeps | apply State.skewCheck_keeps)
    | (intro _ hK; skip) | with_reducible assumption | (with_reducible refine Keeps.ite (fun _ => ?_) (fun _ => ?_))
    | split | fail_if_no_progress with_reducible refine Keeps.fields ?_

theorem State.domDue_keeps {s0 s : State} (hK : Keeps s0 s)  : Keeps s0 (State.domDue s) := by
  unfold State.domDue
  (try dsimp only)
  repeat' first
    | with_reducible (first | exact hK | apply State.domFinish_keeps)
    | (with_reducible refine Keeps.foldl _ (fun _ _ hK => ?_) _ ?_) | (intro _ hK; skip)
    | with_reducible assumption | (with_reducible refine Keeps.ite (fun _ => ?_) (fun _ => ?_)) | split
    | fail_if_no_progress with_reducible refine Keeps.fields ?_

theorem State.instant_keeps {s0 s : State} (hK : Keeps s0 s) : Keeps s0 (State.instant s) := by
  unfold State.instant
  (try dsimp only)
  repeat' first
    | with_reducible (first
        | exact hK | apply State.domFinish_keeps | apply State.instantOf_keeps | apply State.domDue_keeps) | split

theorem execBakeInstant_keeps (s : State) : OutKeeps s (execBakeInstant s) := by
  unfold execBakeInstant
  (try dsimp only)
  repeat' first
    | with_reducible (first
        | exact OutKeeps.fault _ _ | apply OutKeeps.next | exact Keeps.refl _ | apply State.instant_keeps)

theorem idle_keeps {s0 s : State} (hK : Keeps s0 s)  : Keeps s0 (idle s) := by
  unfold idle
  (try dsimp only)
  repeat' first
    | with_reducible (first
        | exact hK | apply State.consoleTick_keeps | apply State.instant_keeps | apply State.oneTick_keeps)
    | (with_reducible refine Keeps.foldl _ (fun _ _ hK => ?_) _ ?_) | (intro _ hK; skip)
    | with_reducible assumption | (with_reducible refine Keeps.ite (fun _ => ?_) (fun _ => ?_)) | split
    | fail_if_no_progress with_reducible refine Keeps.fields ?_

theorem State.stepPast_keeps {s0 s : State} (hK : Keeps s0 s) : Keeps s0 (State.stepPast s) := by
  unfold State.stepPast
  (try dsimp only)
  repeat' first
    | with_reducible (first
        | exact hK | apply State.instantOf_keeps | apply State.raise_keeps | apply State.raiseUp_keeps
        | apply State.domDue_keeps)
    | (with_reducible refine Keeps.ite (fun _ => ?_) (fun _ => ?_)) | split

theorem bakeOpenBody_keeps {s0 s : State} (hK : Keeps s0 s) (r : Req) : Keeps s0 (bakeOpenBody r s).1 := by
  unfold bakeOpenBody
  (try dsimp only)
  repeat' first
    | with_reducible (first | exact hK | apply errCmd_keeps | apply okCmd_keeps) | (intro _ hK; skip)
    | with_reducible assumption | (with_reducible refine Keeps.ite (fun _ => ?_) (fun _ => ?_)) | split
    | fail_if_no_progress with_reducible refine Keeps.fields ?_

theorem bakeCheckBody_keeps {s0 s : State} (hK : Keeps s0 s) (r : Req) : Keeps s0 (bakeCheckBody r s).1 := by
  unfold bakeCheckBody
  (try dsimp only)
  repeat' first
    | with_reducible (first | exact hK | apply readCmd_keeps) | (intro _ hK; skip)

theorem State.commitSet_keeps {s0 s : State} (hK : Keeps s0 s) (r : Req) (t : SetSt) : Keeps s0 (State.commitSet s r
    t).1 := by
  unfold State.commitSet
  (try dsimp only)
  repeat' first
    | with_reducible (first | exact hK | apply errCmd_keeps | apply State.startBake_keeps) | (intro _ hK; skip)
    | with_reducible assumption | (with_reducible apply State.startBake_of; (case e => assumption)) | dsimp only
    | (with_reducible refine Keeps.ite (fun _ => ?_) (fun _ => ?_)) | split

theorem State.commitSet_of {s0 s u : State} {r : Req}  {t : SetSt} {o : _} (e : State.commitSet s r t = (u, o)) (h :
    Keeps s0 s) : Keeps s0 u := by
  have k := State.commitSet_keeps h r t
  rw [e] at k
  exact k

theorem bakeCommitBody_keeps {s0 s : State} (hK : Keeps s0 s) (r : Req) : Keeps s0 (bakeCommitBody r s).1 := by
  unfold bakeCommitBody
  (try dsimp only)
  repeat' first
    | with_reducible (first | exact hK | apply State.commitSet_keeps | apply errCmd_keeps) | (intro _ hK; skip)
    | with_reducible assumption | (with_reducible apply State.commitSet_of; (case e => assumption)) | dsimp only
    | split

theorem State.withdraw_keeps {s0 s : State} (hK : Keeps s0 s) (t : SetSt) : Keeps s0 (State.withdraw s t) := by
  unfold State.withdraw
  (try dsimp only)
  repeat' first
    | with_reducible (first
        | exact hK | apply State.answerSet_keeps | apply State.domFail_keeps | apply State.reopen_keeps)
    | (with_reducible refine Keeps.ite (fun _ => ?_) (fun _ => ?_))

theorem bakeAbortBody_keeps {s0 s : State} (hK : Keeps s0 s) (r : Req) : Keeps s0 (bakeAbortBody r s).1 := by
  unfold bakeAbortBody
  (try dsimp only)
  repeat' first
    | with_reducible (first | exact hK | apply errCmd_keeps | apply okCmd_keeps | apply State.withdraw_keeps)
    | (intro _ hK; skip) | with_reducible assumption | (with_reducible refine Keeps.ite (fun _ => ?_) (fun _ => ?_))
    | split | fail_if_no_progress with_reducible refine Keeps.fields ?_

theorem bakeGetSetBody_keeps {s0 s : State} (hK : Keeps s0 s) (r : Req) : Keeps s0 (bakeGetSetBody r s).1 := by
  unfold bakeGetSetBody
  (try dsimp only)
  repeat' first
    | with_reducible (first | exact hK | apply readCmd_keeps) | (intro _ hK; skip)
    | (with_reducible refine Keeps.ite (fun _ => ?_) (fun _ => ?_))

theorem execBakeOpen_keeps (r : Req) (s : State) : OutKeeps s (execBakeOpen r s) := 
  mailboxCommand_keeps (fun hk => bakeOpenBody_keeps hk r)

theorem execBakeCheck_keeps (r : Req) (s : State) : OutKeeps s (execBakeCheck r s) := 
  mailboxCommand_keeps (fun hk => bakeCheckBody_keeps hk r)

theorem execBakeCommit_keeps (r : Req) (s : State) : OutKeeps s (execBakeCommit r s) := 
  mailboxCommand_keeps (fun hk => bakeCommitBody_keeps hk r)

theorem execBakeAbort_keeps (r : Req) (s : State) : OutKeeps s (execBakeAbort r s) := 
  mailboxCommand_keeps (fun hk => bakeAbortBody_keeps hk r)

theorem execBakeGetSet_keeps (r : Req) (s : State) : OutKeeps s (execBakeGetSet r s) := 
  mailboxCommand_keeps (fun hk => bakeGetSetBody_keeps hk r)

theorem pwrRestoreBody_keeps {s0 s : State} (hK : Keeps s0 s) (r : Req) : Keeps s0 (pwrRestoreBody r s).1 := by
  unfold pwrRestoreBody
  (try dsimp only)
  repeat' first
    | with_reducible (first | exact hK | apply errCmd_keeps | apply State.startBake_keeps) | (intro _ hK; skip)
    | with_reducible assumption | (with_reducible apply State.startBake_of; (case e => assumption)) | dsimp only
    | split | fail_if_no_progress with_reducible refine Keeps.fields ?_

theorem execPwrRestore_keeps (r : Req) (s : State) : OutKeeps s (execPwrRestore r s) := 
  mailboxCommand_keeps (fun hk => pwrRestoreBody_keeps hk r)

end Sys2Proof.Machine
end

