-- ==== Sys2Proof/Laws/KeepDomain.lean ====
section
/-! SUPPORT. What the operations of Domain keep. -/

set_option Elab.async false
set_option linter.all false

namespace Sys2Proof.Machine

theorem State.authFail_keeps {s0 s : State} (hK : Keeps s0 s) (m : DomIn) : Keeps s0 (State.authFail s m) := by
  unfold State.authFail
  (try dsimp only)
  repeat' first
    | with_reducible (first | exact hK | apply State.raiseLimited_keeps) | split
    | fail_if_no_progress with_reducible refine Keeps.fields ?_

theorem State.confirm_keeps {s0 s : State} (hK : Keeps s0 s) (type : Nat) (m : DomIn) : Keeps s0 (State.confirm s type
    m) := by
  unfold State.confirm
  (try dsimp only)
  repeat' first
    | with_reducible (first | exact hK | apply State.domSend_keeps)
    | (with_reducible refine Keeps.ite (fun _ => ?_) (fun _ => ?_))

theorem State.domTake_keeps {s0 s : State} (hK : Keeps s0 s) (type : Nat) (m : DomIn) : Keeps s0 (State.domTake s type
    m) := by
  unfold State.domTake
  (try dsimp only)
  repeat' first
    | with_reducible (first | exact hK | apply State.confirm_keeps | apply State.updPeer_keeps)
    | (with_reducible refine Keeps.foldl _ (fun _ _ hK => ?_) _ ?_) | (intro _ hK; skip)
    | with_reducible assumption | (with_reducible refine Keeps.ite (fun _ => ?_) (fun _ => ?_)) | split
    | fail_if_no_progress with_reducible refine Keeps.fields ?_

theorem State.domAct_keeps {s0 s : State} (hK : Keeps s0 s) (type : Nat) (m : DomIn) (act : State → State)
    (hact : ∀ x, Keeps s0 x → Keeps s0 (act x)) : Keeps s0 (State.domAct s type m act) := by
  unfold State.domAct
  (try dsimp only)
  repeat' first
    | with_reducible (first
        | exact hK | apply State.authFail_keeps | apply State.confirm_keeps | apply State.updPeer_keeps | apply hact
        | apply State.domTake_keeps)
    | (with_reducible refine Keeps.ite (fun _ => ?_) (fun _ => ?_)) | split

theorem State.domRx_keeps {s0 s : State} (hK : Keeps s0 s) (m : DomIn) (act : State → State)
    (hact : ∀ x, Keeps s0 x → Keeps s0 (act x)) : Keeps s0 (State.domRx s m act) := by
  unfold State.domRx
  split
  · exact hK
  · split
    · exact State.ctlRx_keeps hK _ _ _ _ (fun _ h => h)
    · exact hact _ (State.bumpPort_keeps (State.bumpPort_keeps hK _ _ _) _ _ _)

theorem State.domIn_keeps {s0 s : State} (hK : Keeps s0 s) (type : Nat) (m : DomIn) (act : State → State) (hact : ∀ x,
    Keeps s0 x → Keeps s0 (act x)) : Keeps s0 (State.domIn s type m act) := by
  unfold State.domIn
  refine State.domRx_keeps hK m _ (fun x hx => ?_)
  split
  · exact State.domAct_keeps hx type m act hact
  · exact hx

theorem State.atManager_keeps {s0 s t : State} (h : Keeps s0 s) (k : Keeps s0 t) : Keeps s0 (s.atManager t) := by
  unfold State.atManager; split <;> assumption

theorem State.atWorker_keeps {s0 s t : State} (h : Keeps s0 s) (k : Keeps s0 t) : Keeps s0 (s.atWorker t) := by
  unfold State.atWorker; split <;> assumption

theorem State.mismatch_keeps {s0 s : State} (hK : Keeps s0 s) (i : Nat) (a : Nat) (b : Nat) : Keeps s0 (State.mismatch
    s i a b) := by
  unfold State.mismatch
  (try dsimp only)
  repeat' first
    | with_reducible (first | exact hK | apply State.raiseIf_keeps)

theorem State.beatPeer_keeps {s0 s : State} (hK : Keeps s0 s) (i : Nat) : Keeps s0 (State.beatPeer s i) := by
  unfold State.beatPeer
  (try dsimp only)
  repeat' first
    | with_reducible (first
        | exact hK | apply State.domSend_keeps | apply State.raiseIf_keeps | apply State.updPeer_keeps)
    | (intro _ hK; skip) | (with_reducible refine Keeps.ite (fun _ => ?_) (fun _ => ?_))

theorem execHeartbeatTick_keeps (s : State) : OutKeeps s (execHeartbeatTick s) := by
  unfold execHeartbeatTick
  (try dsimp only)
  repeat' first
    | with_reducible (first
        | exact OutKeeps.fault _ _ | apply OutKeeps.next | exact Keeps.refl _ | apply State.beatPeer_keeps)
    | (with_reducible refine Keeps.foldl _ (fun _ _ hK => ?_) _ ?_) | (intro _ hK; skip) | with_reducible assumption
    | (with_reducible refine Keeps.ite (fun _ => ?_) (fun _ => ?_))

theorem State.gotBeat_keeps {s0 s : State} (hK : Keeps s0 s) (m : DomIn) : Keeps s0 (State.gotBeat s m) := by
  unfold State.gotBeat
  (try dsimp only)
  repeat' first
    | with_reducible (first
        | exact hK | apply State.domSend_keeps | apply State.mismatch_keeps | apply State.raise_keeps
        | apply State.updPeer_keeps | apply State.drawn_keeps)
    | (intro _ hK; skip) | with_reducible assumption | (with_reducible refine Keeps.ite (fun _ => ?_) (fun _ => ?_))
    | split | fail_if_no_progress with_reducible refine Keeps.fields ?_

theorem execHeartbeat_keeps (m : DomIn) (s : State) : OutKeeps s (execHeartbeat m s) := by
  unfold execHeartbeat
  (try dsimp only [domRow])
  repeat' first
    | with_reducible (first
        | exact OutKeeps.fault _ _ | apply OutKeeps.next | exact Keeps.refl _ | apply State.atWorker_keeps
        | apply State.domIn_keeps | apply State.gotBeat_keeps)
    | (intro _ hK; skip) | with_reducible assumption | split

theorem State.gotAck_keeps {s0 s : State} (hK : Keeps s0 s) (m : DomIn) : Keeps s0 (State.gotAck s m) := by
  unfold State.gotAck
  (try dsimp only)
  repeat' first
    | with_reducible (first
        | exact hK | apply State.mismatch_keeps | apply State.raise_keeps | apply State.updPeer_keeps
        | apply State.raiseIf_keeps)
    | (intro _ hK; skip) | with_reducible assumption | (with_reducible refine Keeps.ite (fun _ => ?_) (fun _ => ?_))

theorem execHeartbeatAck_keeps (m : DomIn) (s : State) : OutKeeps s (execHeartbeatAck m s) := by
  unfold execHeartbeatAck
  (try dsimp only [domRow])
  repeat' first
    | with_reducible (first
        | exact OutKeeps.fault _ _ | apply OutKeeps.next | exact Keeps.refl _ | apply State.atManager_keeps
        | apply State.domIn_keeps | apply State.gotAck_keeps)
    | (intro _ hK; skip) | with_reducible assumption | split

theorem State.freeSet_keeps {s0 s : State} (hK : Keeps s0 s)  : Keeps s0 (State.freeSet s) := by
  unfold State.freeSet
  (try dsimp only)
  repeat' first
    | with_reducible (first | exact hK | apply State.answerSet_keeps | apply State.reopen_keeps)
    | (with_reducible refine Keeps.foldl _ (fun _ _ hK => ?_) _ ?_) | (intro _ hK; skip)
    | with_reducible assumption | (with_reducible refine Keeps.ite (fun _ => ?_) (fun _ => ?_)) | split
    | fail_if_no_progress with_reducible refine Keeps.fields ?_

theorem State.freeDomSet_keeps {s0 s : State} (hK : Keeps s0 s) : Keeps s0 (State.freeDomSet s) := by
  unfold State.freeDomSet
  (try dsimp only)
  repeat' first
    | with_reducible (first | exact hK | apply State.reopen_keeps | apply State.freeSet_keeps) | (intro _ hK; skip) | with_reducible assumption
    | (with_reducible refine Keeps.ite (fun _ => ?_) (fun _ => ?_)) | split

theorem State.freeze_keeps {s0 s : State} (hK : Keeps s0 s) : Keeps s0 (State.freeze s) := by
  unfold State.freeze
  (try dsimp only)
  repeat' first
    | with_reducible (first
        | exact hK | apply State.freeDomSet_keeps | apply State.raise_keeps | apply State.updPeer_keeps
        | apply State.freeSet_keeps)
    | (intro _ hK; skip) | with_reducible assumption | split
    | fail_if_no_progress with_reducible refine Keeps.fields ?_

theorem execManagerLossTimeout_keeps (s : State) : OutKeeps s (execManagerLossTimeout s) := by
  unfold execManagerLossTimeout
  (try dsimp only)
  repeat' first
    | with_reducible (first
        | exact OutKeeps.fault _ _ | apply OutKeeps.next | exact Keeps.refl _ | apply State.freeze_keeps)
    | (with_reducible refine Keeps.ite (fun _ => ?_) (fun _ => ?_))

theorem State.parted_keeps {s0 s : State} (hK : Keeps s0 s) (i : Nat) : Keeps s0 (State.parted s i) := by
  unfold State.parted
  (try dsimp only)
  repeat' first
    | with_reducible (first | exact hK | apply State.updPeer_keeps)
    | (with_reducible refine Keeps.foldl _ (fun _ _ hK => ?_) _ ?_) | (intro _ hK; skip)
    | with_reducible assumption | (with_reducible refine Keeps.ite (fun _ => ?_) (fun _ => ?_)) | split
    | fail_if_no_progress with_reducible refine Keeps.fields ?_

theorem State.gotReceived_keeps {s0 s : State} (hK : Keeps s0 s) (m : DomIn) : Keeps s0 (State.gotReceived s m) := by
  unfold State.gotReceived
  (try dsimp only)
  repeat' first
    | with_reducible (first | exact hK | apply State.parted_keeps)
    | (with_reducible refine Keeps.foldl _ (fun _ _ hK => ?_) _ ?_) | (intro _ hK; skip)
    | with_reducible assumption | (with_reducible refine Keeps.ite (fun _ => ?_) (fun _ => ?_)) | split
    | fail_if_no_progress with_reducible refine Keeps.fields ?_

theorem State.clearReceived_keeps {s0 s : State} (hK : Keeps s0 s) (m : DomIn) : Keeps s0 (State.clearReceived s m) :=
    by
  unfold State.clearReceived
  (try dsimp only)
  repeat' first
    | with_reducible (first | exact hK)
    | (with_reducible refine Keeps.foldl _ (fun _ _ hK => ?_) _ ?_) | (intro _ hK; skip)
    | with_reducible assumption | (with_reducible refine Keeps.ite (fun _ => ?_) (fun _ => ?_)) | split
    | fail_if_no_progress with_reducible refine Keeps.fields ?_

theorem execReceived_keeps (m : DomIn) (s : State) : OutKeeps s (execReceived m s) := by
  unfold execReceived
  (try dsimp only [domRow])
  repeat' first
    | with_reducible (first
        | exact OutKeeps.fault _ _ | apply OutKeeps.next | exact Keeps.refl _ | apply State.domRx_keeps
        | apply State.clearReceived_keeps | apply State.domAct_keeps | apply State.gotReceived_keeps)
    | (with_reducible refine Keeps.ite (fun _ => ?_) (fun _ => ?_))
    | (intro _ hK; skip) | with_reducible assumption | split

theorem State.fwdAnswer_keeps {s0 s : State} (hK : Keeps s0 s) (peer : Nat) (mine : Req → Bool) (x : Resp) : Keeps s0
    (State.fwdAnswer s peer mine x) := by
  unfold State.fwdAnswer
  (try dsimp only)
  repeat' first
    | with_reducible (first | exact hK | apply State.complete_keeps)
    | (with_reducible refine Keeps.foldl _ (fun _ _ hK => ?_) _ ?_) | (intro _ hK; skip)
    | with_reducible assumption | (with_reducible refine Keeps.ite (fun _ => ?_) (fun _ => ?_)) | split
    | fail_if_no_progress with_reducible refine Keeps.fields ?_

theorem State.msgFailed_keeps {s0 s : State} (hK : Keeps s0 s) (x : DomMsg) : Keeps s0 (State.msgFailed s x) := by
  unfold State.msgFailed
  (try dsimp only)
  repeat' first
    | with_reducible (first | exact hK | apply State.fwdAnswer_keeps | apply State.parted_keeps) | (intro _ hK; skip) | with_reducible assumption
    | (with_reducible refine Keeps.ite (fun _ => ?_) (fun _ => ?_)) | split
    | fail_if_no_progress with_reducible refine Keeps.fields ?_

theorem State.putAgain_keeps {s0 s : State} (hK : Keeps s0 s) (x : DomMsg) : Keeps s0 (State.putAgain s x) := by
  unfold State.putAgain
  (try dsimp only)
  repeat' first
    | with_reducible (first | exact hK | apply State.clearPut_keeps | apply State.domPut_keeps)
    | (with_reducible refine Keeps.foldl _ (fun _ _ hK => ?_) _ ?_) | (intro _ hK; skip)
    | with_reducible assumption | (with_reducible refine Keeps.ite (fun _ => ?_) (fun _ => ?_)) | split
    | fail_if_no_progress with_reducible refine Keeps.fields ?_

theorem State.resendMsg_keeps {s0 s : State} (hK : Keeps s0 s) (peer : Nat) (id : Nat) : Keeps s0 (State.resendMsg s
    peer id) := by
  unfold State.resendMsg
  (try dsimp only)
  repeat' first
    | with_reducible (first
        | exact hK | apply State.domPut_keeps | apply State.msgFailed_keeps | apply State.putAgain_keeps) | (intro _ hK; skip)
    | with_reducible assumption | (with_reducible refine Keeps.ite (fun _ => ?_) (fun _ => ?_)) | split
    | fail_if_no_progress with_reducible refine Keeps.fields ?_

theorem execDomainResendTimeout_keeps (peer : Nat) (id : Nat) (s : State) : OutKeeps s (execDomainResendTimeout peer
    id s) := by
  unfold execDomainResendTimeout
  (try dsimp only)
  repeat' first
    | with_reducible (first
        | exact OutKeeps.fault _ _ | apply OutKeeps.next | exact Keeps.refl _ | apply State.resendMsg_keeps)
    | (with_reducible refine Keeps.ite (fun _ => ?_) (fun _ => ?_)) | split

theorem State.fwdNote_keeps {s0 s : State} (hK : Keeps s0 s) (m : DomIn) : Keeps s0 (State.fwdNote s m) := by
  unfold State.fwdNote
  (try dsimp only)
  repeat' first
    | with_reducible (first | exact hK | apply State.updPeer_keeps)
    | (with_reducible refine Keeps.foldl _ (fun _ _ hK => ?_) _ ?_) | (intro _ hK; skip)
    | with_reducible assumption | (with_reducible refine Keeps.ite (fun _ => ?_) (fun _ => ?_)) | split
    | fail_if_no_progress with_reducible refine Keeps.fields ?_

theorem execForwardRsp_keeps (m : DomIn) (s : State) : OutKeeps s (execForwardRsp m s) := by
  unfold execForwardRsp
  (try dsimp only [domRow])
  repeat' first
    | with_reducible (first
        | exact OutKeeps.fault _ _ | apply OutKeeps.next | exact Keeps.refl _ | apply State.atManager_keeps
        | apply State.domIn_keeps | apply State.fwdAnswer_keeps | apply State.fwdNote_keeps)
    | (intro _ hK; skip) | with_reducible assumption | split

theorem domForwardBody_keeps {s0 s : State} (hK : Keeps s0 s) (r : Req) : Keeps s0 (domForwardBody r s).1 := by
  unfold domForwardBody
  (try dsimp only)
  repeat' first
    | with_reducible (first | exact hK | apply State.domSend_keeps | apply errCmd_keeps) | (intro _ hK; skip)
    | with_reducible assumption | (with_reducible refine Keeps.ite (fun _ => ?_) (fun _ => ?_)) | split
    | fail_if_no_progress with_reducible refine Keeps.fields ?_

theorem State.gotPrepare_keeps {s0 s : State} (hK : Keeps s0 s) (m : DomIn) : Keeps s0 (State.gotPrepare s m) := by
  unfold State.gotPrepare
  (try dsimp only)
  repeat' first
    | with_reducible (first
        | exact hK | apply State.drawn_keeps | apply State.sendVote_keeps | apply State.startBake_keeps)
    | (intro _ hK; skip) | with_reducible assumption
    | (with_reducible apply State.startBake_of; (case e => assumption)) | dsimp only | split

theorem execPrepare_keeps (m : DomIn) (s : State) : OutKeeps s (execPrepare m s) := by
  unfold execPrepare
  (try dsimp only [domRow])
  repeat' first
    | with_reducible (first
        | exact OutKeeps.fault _ _ | apply OutKeeps.next | exact Keeps.refl _ | apply State.atWorker_keeps
        | apply State.domIn_keeps | apply State.gotPrepare_keeps)
    | (intro _ hK; skip) | with_reducible assumption | split

theorem execVote_keeps (m : DomIn) (s : State) : OutKeeps s (execVote m s) := by
  unfold execVote
  (try dsimp only [domRow])
  repeat' first
    | with_reducible (first
        | exact OutKeeps.fault _ _ | apply OutKeeps.next | exact Keeps.refl _ | apply State.atManager_keeps
        | apply State.domIn_keeps | apply State.domVote_keeps)
    | (intro _ hK; skip) | with_reducible assumption | (with_reducible refine Keeps.ite (fun _ => ?_) (fun _ => ?_))
    | split

theorem State.gotCommit_keeps {s0 s : State} (hK : Keeps s0 s) (m : DomIn) : Keeps s0 (State.gotCommit s m) := by
  unfold State.gotCommit
  (try dsimp only)
  repeat' first
    | with_reducible (first | exact hK | apply State.domSend_keeps | apply State.takeCommit_keeps)
    | (with_reducible refine Keeps.ite (fun _ => ?_) (fun _ => ?_)) | split

theorem execCommit_keeps (m : DomIn) (s : State) : OutKeeps s (execCommit m s) := by
  unfold execCommit
  (try dsimp only [domRow])
  repeat' first
    | with_reducible (first
        | exact OutKeeps.fault _ _ | apply OutKeeps.next | exact Keeps.refl _ | apply State.atWorker_keeps
        | apply State.domIn_keeps | apply State.gotCommit_keeps)
    | (intro _ hK; skip) | with_reducible assumption | split

theorem execAck_keeps (m : DomIn) (s : State) : OutKeeps s (execAck m s) := by
  unfold execAck
  (try dsimp only [domRow])
  repeat' first
    | with_reducible (first
        | exact OutKeeps.fault _ _ | apply OutKeeps.next | exact Keeps.refl _ | apply State.atManager_keeps
        | apply State.domAcked_keeps | apply State.domIn_keeps | apply State.updDom_keeps)
    | (intro _ hK; skip) | with_reducible assumption | (with_reducible refine Keeps.ite (fun _ => ?_) (fun _ => ?_))
    | split

theorem State.gotGo_keeps {s0 s : State} (hK : Keeps s0 s) (bakeId : Nat) (epoch : Nat) : Keeps s0 (State.gotGo s
    bakeId epoch) := by
  unfold State.gotGo
  (try dsimp only)
  repeat' first
    | with_reducible (first | exact hK | apply State.takeGo_keeps)
    | (with_reducible refine Keeps.ite (fun _ => ?_) (fun _ => ?_)) | split

theorem execGo_keeps (m : DomIn) (s : State) : OutKeeps s (execGo m s) := by
  unfold execGo
  (try dsimp only [domRow])
  repeat' first
    | with_reducible (first
        | exact OutKeeps.fault _ _ | apply OutKeeps.next | exact Keeps.refl _ | apply State.atWorker_keeps
        | apply State.domIn_keeps | apply State.gotGo_keeps)
    | (intro _ hK; skip) | with_reducible assumption | split

theorem execAbort_keeps (m : DomIn) (s : State) : OutKeeps s (execAbort m s) := by
  unfold execAbort
  (try dsimp only [domRow])
  repeat' first
    | with_reducible (first
        | exact OutKeeps.fault _ _ | apply OutKeeps.next | exact Keeps.refl _ | apply State.atWorker_keeps
        | apply State.domIn_keeps | apply State.dropDomSet_keeps)
    | (intro _ hK; skip) | with_reducible assumption | split

theorem execOutcomeQuery_keeps (m : DomIn) (s : State) : OutKeeps s (execOutcomeQuery m s) := by
  unfold execOutcomeQuery
  (try dsimp only [domRow])
  repeat' first
    | with_reducible (first
        | exact OutKeeps.fault _ _ | apply OutKeeps.next | exact Keeps.refl _ | apply State.atManager_keeps
        | apply State.domIn_keeps | apply State.domSend_keeps)
    | (intro _ hK; skip) | with_reducible assumption | split

theorem execOutcome_keeps (m : DomIn) (s : State) : OutKeeps s (execOutcome m s) := by
  unfold execOutcome
  (try dsimp only [domRow])
  repeat' first
    | with_reducible (first
        | exact OutKeeps.fault _ _ | apply OutKeeps.next | exact Keeps.refl _ | apply State.atWorker_keeps
        | apply State.domIn_keeps | apply State.dropDomSet_keeps | apply State.gotGo_keeps)
    | (intro _ hK; skip) | with_reducible assumption | (with_reducible refine Keeps.ite (fun _ => ?_) (fun _ => ?_))
    | split

theorem execOutcomeQueryTimer_keeps (s : State) : OutKeeps s (execOutcomeQueryTimer s) := by
  unfold execOutcomeQueryTimer
  (try dsimp only)
  repeat' first
    | with_reducible (first
        | exact OutKeeps.fault _ _ | apply OutKeeps.next | exact Keeps.refl _ | apply State.domSend_keeps)
    | (with_reducible refine Keeps.ite (fun _ => ?_) (fun _ => ?_)) | split

theorem execVoteDeadline_keeps (s : State) : OutKeeps s (execVoteDeadline s) := by
  unfold execVoteDeadline
  (try dsimp only)
  repeat' first
    | with_reducible (first
        | exact OutKeeps.fault _ _ | apply OutKeeps.next | exact Keeps.refl _ | apply State.domFail_keeps)
    | (with_reducible refine Keeps.ite (fun _ => ?_) (fun _ => ?_)) | split

theorem execAckDeadline_keeps (s : State) : OutKeeps s (execAckDeadline s) := by
  unfold execAckDeadline
  (try dsimp only)
  repeat' first
    | with_reducible (first
        | exact OutKeeps.fault _ _ | apply OutKeeps.next | exact Keeps.refl _ | apply State.domFail_keeps)
    | (with_reducible refine Keeps.ite (fun _ => ?_) (fun _ => ?_)) | split

theorem execEnrolTick_keeps (s : State) : OutKeeps s (execEnrolTick s) := by
  unfold execEnrolTick
  refine OutKeeps.next (Keeps.ite (fun _ => ?_) (fun _ => .refl s))
  exact Keeps.fields (Keeps.foldl _ (fun _ _ hK => State.clearSend_keeps hK _ _ _ _) _ (.refl s))

theorem State.startSession_keeps {s0 s : State} (hK : Keeps s0 s) (i : Nat) (p : Nat) : Keeps s0 (State.startSession s
    i p) := by
  unfold State.startSession
  (try dsimp only)
  repeat' first
    | with_reducible (first | exact hK | apply State.drawn_keeps | apply State.updPeer_keeps)
    | (with_reducible refine Keeps.foldl _ (fun _ _ hK => ?_) _ ?_) | (intro _ hK; skip)
    | with_reducible assumption | (with_reducible refine Keeps.ite (fun _ => ?_) (fun _ => ?_)) | split
    | fail_if_no_progress with_reducible refine Keeps.fields ?_

theorem State.spdmFail_keeps {s0 s : State} (hK : Keeps s0 s) (transport : Nat) (hash : List Byte) : Keeps s0
    (State.spdmFail s transport hash) := by
  unfold State.spdmFail
  (try dsimp only)
  repeat' first
    | with_reducible (first | exact hK | apply State.drawn_keeps | apply State.raise_keeps)

theorem State.endExchange_keeps {s0 s : State} (hK : Keeps s0 s) (m : DomIn) : Keeps s0 (State.endExchange s m) := by
  unfold State.endExchange
  (try dsimp only)
  repeat' first
    | with_reducible (first | exact hK | apply State.sendClear_keeps | apply State.clearSend_keeps)
    | (with_reducible refine Keeps.foldl _ (fun _ _ hK => ?_) _ ?_) | (intro _ hK; skip)
    | with_reducible assumption | (with_reducible refine Keeps.ite (fun _ => ?_) (fun _ => ?_)) | split
    | fail_if_no_progress with_reducible refine Keeps.fields ?_

theorem State.managerEnrol_keeps {s0 s : State} (hK : Keeps s0 s) (m : DomIn) (x : EnrolIn) : Keeps s0
    (State.managerEnrol s m x) := by
  unfold State.managerEnrol
  (try dsimp only)
  repeat' first
    | with_reducible (first
        | exact hK | apply State.endExchange_keeps | apply State.raise_keeps | apply State.spdmFail_keeps
        | apply State.startSession_keeps)
    | (with_reducible refine Keeps.foldl _ (fun _ _ hK => ?_) _ ?_) | (intro _ hK; skip)
    | with_reducible assumption | (with_reducible refine Keeps.ite (fun _ => ?_) (fun _ => ?_)) | split
    | fail_if_no_progress with_reducible refine Keeps.fields ?_

theorem State.workerEnrol_keeps {s0 s : State} (hK : Keeps s0 s) (m : DomIn) (x : EnrolIn) : Keeps s0
    (State.workerEnrol s m x) := by
  unfold State.workerEnrol
  (try dsimp only)
  repeat' first
    | with_reducible (first
        | exact hK | apply State.endExchange_keeps | apply State.spdmFail_keeps | apply State.startSession_keeps)
    | (with_reducible refine Keeps.foldl _ (fun _ _ hK => ?_) _ ?_) | (intro _ hK; skip)
    | with_reducible assumption | (with_reducible refine Keeps.ite (fun _ => ?_) (fun _ => ?_)) | split
    | fail_if_no_progress with_reducible refine Keeps.fields ?_

theorem State.setSetup_keeps {s0 s : State} (hK : Keeps s0 s) (p : Option Nat) : Keeps s0 (State.setSetup s p) := by
  unfold State.setSetup
  (try dsimp only)
  repeat' first
    | with_reducible (first | exact hK)
    | (with_reducible refine Keeps.foldl _ (fun _ _ hK => ?_) _ ?_) | (intro _ hK; skip)
    | with_reducible assumption | (with_reducible refine Keeps.ite (fun _ => ?_) (fun _ => ?_)) | split
    | fail_if_no_progress with_reducible refine Keeps.fields ?_

theorem State.managerSetup_keeps {s0 s : State} (hK : Keeps s0 s) (m : DomIn) (x : EnrolIn) : Keeps s0
    (State.managerSetup s m x) := by
  unfold State.managerSetup
  (try dsimp only)
  repeat' first
    | with_reducible (first
        | exact hK | apply State.clearSend_keeps | apply State.managerEnrol_keeps | apply State.setSetup_keeps)
    | (with_reducible refine Keeps.foldl _ (fun _ _ hK => ?_) _ ?_) | (intro _ hK; skip)
    | with_reducible assumption | (with_reducible refine Keeps.ite (fun _ => ?_) (fun _ => ?_)) | split
    | fail_if_no_progress with_reducible refine Keeps.fields ?_

theorem State.workerSetup_keeps {s0 s : State} (hK : Keeps s0 s) (m : DomIn) (x : EnrolIn) : Keeps s0
    (State.workerSetup s m x) := by
  unfold State.workerSetup
  (try dsimp only)
  repeat' first
    | with_reducible (first | exact hK | apply State.clearSend_keeps | apply State.workerEnrol_keeps)
    | (with_reducible refine Keeps.foldl _ (fun _ _ hK => ?_) _ ?_) | (intro _ hK; skip)
    | with_reducible assumption | (with_reducible refine Keeps.ite (fun _ => ?_) (fun _ => ?_)) | split
    | fail_if_no_progress with_reducible refine Keeps.fields ?_

theorem State.clearEnrol_keeps {s0 s : State} (hK : Keeps s0 s) (m : DomIn) (x : EnrolIn) : Keeps s0 (State.clearEnrol
    s m x) := by
  unfold State.clearEnrol
  (try dsimp only)
  repeat' first
    | with_reducible (first
        | exact hK | apply State.clearSend_keeps | apply State.managerSetup_keeps | apply State.workerSetup_keeps)
    | (with_reducible refine Keeps.foldl _ (fun _ _ hK => ?_) _ ?_) | (intro _ hK; skip)
    | with_reducible assumption | (with_reducible refine Keeps.ite (fun _ => ?_) (fun _ => ?_)) | split
    | fail_if_no_progress with_reducible refine Keeps.fields ?_

theorem State.sealedSpdm_keeps {s0 s : State} (hK : Keeps s0 s) (m : DomIn) : Keeps s0 (State.sealedSpdm s m) := by
  unfold State.sealedSpdm
  (try dsimp only)
  repeat' first
    | with_reducible (first
        | exact hK | apply State.domSend_keeps | apply State.freeDomSet_keeps | apply State.updPeer_keeps)
    | (intro _ hK; skip) | with_reducible assumption | (with_reducible refine Keeps.ite (fun _ => ?_) (fun _ => ?_))
    | split | fail_if_no_progress with_reducible refine Keeps.fields ?_

theorem execEnrol_keeps (m : DomIn) (idx : Nat) (hash : List Byte) (x : EnrolShown) (s : State) : OutKeeps s (execEnrol m idx hash x s) := by
  unfold execEnrol
  (try dsimp only)
  repeat' first
    | with_reducible (first
        | exact OutKeeps.fault _ _ | apply OutKeeps.next | exact Keeps.refl _ | apply State.domRx_keeps
        | apply State.domAct_keeps | apply State.managerEnrol_keeps | apply State.sealedSpdm_keeps
        | apply State.clearEnrol_keeps)
    | (with_reducible refine Keeps.foldl _ (fun _ _ hK => ?_) _ ?_) | (intro _ hK; skip)
    | with_reducible assumption | (with_reducible refine Keeps.ite (fun _ => ?_) (fun _ => ?_)) | split
    | fail_if_no_progress with_reducible refine Keeps.fields ?_

theorem execKeyUpdateTimer_keeps (peer : Nat) (s : State) : OutKeeps s (execKeyUpdateTimer peer s) := by
  unfold execKeyUpdateTimer
  (try dsimp only)
  repeat' first
    | with_reducible (first
        | exact OutKeeps.fault _ _ | apply OutKeeps.next | exact Keeps.refl _ | apply State.domSend_keeps
        | apply State.updPeer_keeps)
    | (intro _ hK; skip) | with_reducible assumption | (with_reducible refine Keeps.ite (fun _ => ?_) (fun _ => ?_))
    | split

theorem domSetPortBody_keeps {s0 s : State} (hK : Keeps s0 s) (r : Req) : Keeps s0 (domSetPortBody r s).1 := by
  unfold domSetPortBody
  (try dsimp only)
  repeat' first
    | with_reducible (first
        | exact hK | apply applyDomSetPort_keeps | apply errCmd_keeps | apply okCmd_keeps
        | apply State.shadow_keeps)
    | (intro _ hK; skip) | with_reducible assumption | (with_reducible refine Keeps.ite (fun _ => ?_) (fun _ => ?_))
    | split

theorem domAdmitBody_keeps {s0 s : State} (hK : Keeps s0 s) (r : Req) : Keeps s0 (domAdmitBody r s).1 := by
  unfold domAdmitBody
  (try dsimp only)
  repeat' first
    | with_reducible (first
        | exact hK | apply applyDomAdmit_keeps | apply State.domPut_keeps | apply errCmd_keeps | apply okCmd_keeps
        | apply State.shadow_keeps | apply State.domTell_keeps | apply State.domSend_keeps)
    | (intro _ hK; skip) | with_reducible assumption | (with_reducible refine Keeps.ite (fun _ => ?_) (fun _ => ?_))
    | split

theorem domGetStatusBody_keeps {s0 s : State} (hK : Keeps s0 s) (r : Req) : Keeps s0 (domGetStatusBody r s).1 := by
  unfold domGetStatusBody
  (try dsimp only)
  repeat' first
    | with_reducible (first | exact hK | apply readCmd_keeps) | (intro _ hK; skip)

theorem State.domOwn_keeps {s0 s : State} (hK : Keeps s0 s) (d : DomBake) : Keeps s0 (State.domOwn s d) := by
  unfold State.domOwn
  (try dsimp only)
  repeat' first
    | with_reducible (first | exact hK | apply State.domVote_keeps | apply State.startBake_keeps) | (intro _ hK; skip)
    | with_reducible assumption | (with_reducible apply State.startBake_of; (case e => assumption)) | dsimp only
    | split

theorem State.domBegin_keeps {s0 s : State} (hK : Keeps s0 s) (d : DomBake) : Keeps s0 (State.domBegin s d) := by
  unfold State.domBegin
  (try dsimp only)
  repeat' first
    | with_reducible (first | exact hK | apply State.domOwn_keeps | apply State.domSend_keeps)
    | (with_reducible refine Keeps.foldl _ (fun _ _ hK => ?_) _ ?_) | (intro _ hK; skip) | with_reducible assumption
    | split | fail_if_no_progress with_reducible refine Keeps.fields ?_

theorem domBakeBody_keeps {s0 s : State} (hK : Keeps s0 s) (r : Req) : Keeps s0 (domBakeBody r s).1 := by
  unfold domBakeBody
  (try dsimp only)
  repeat' first
    | with_reducible (first | exact hK | apply State.domBegin_keeps | apply errCmd_keeps) | (intro _ hK; skip)
    | with_reducible assumption | (with_reducible refine Keeps.ite (fun _ => ?_) (fun _ => ?_)) | split

theorem domAbortBody_keeps {s0 s : State} (hK : Keeps s0 s) (r : Req) : Keeps s0 (domAbortBody r s).1 := by
  unfold domAbortBody
  (try dsimp only)
  repeat' first
    | with_reducible (first | exact hK | apply State.domFail_keeps | apply errCmd_keeps | apply okCmd_keeps)
    | (intro _ hK; skip) | with_reducible assumption | (with_reducible refine Keeps.ite (fun _ => ?_) (fun _ => ?_))
    | split

theorem domLeaveBody_keeps {s0 s : State} (hK : Keeps s0 s) (r : Req) : Keeps s0 (domLeaveBody r s).1 := by
  unfold domLeaveBody
  (try dsimp only)
  repeat' first
    | with_reducible (first | exact hK | apply State.freeDomSet_keeps | apply okCmd_keeps | apply State.updPeer_keeps)
    | (intro _ hK; skip) | with_reducible assumption | split
    | fail_if_no_progress with_reducible refine Keeps.fields ?_

theorem execDomSetPort_keeps (r : Req) (s : State) : OutKeeps s (execDomSetPort r s) := 
  mailboxCommand_keeps (fun hk => domSetPortBody_keeps hk r)

theorem execDomAdmit_keeps (r : Req) (s : State) : OutKeeps s (execDomAdmit r s) := 
  mailboxCommand_keeps (fun hk => domAdmitBody_keeps hk r)

theorem execDomGetStatus_keeps (r : Req) (s : State) : OutKeeps s (execDomGetStatus r s) := 
  mailboxCommand_keeps (fun hk => domGetStatusBody_keeps hk r)

theorem execDomForward_keeps (r : Req) (s : State) : OutKeeps s (execDomForward r s) := 
  mailboxCommand_keeps (fun hk => domForwardBody_keeps hk r)

theorem execDomBake_keeps (r : Req) (s : State) : OutKeeps s (execDomBake r s) := 
  mailboxCommand_keeps (fun hk => domBakeBody_keeps hk r)

theorem execDomAbort_keeps (r : Req) (s : State) : OutKeeps s (execDomAbort r s) := 
  mailboxCommand_keeps (fun hk => domAbortBody_keeps hk r)

theorem execDomLeave_keeps (r : Req) (s : State) : OutKeeps s (execDomLeave r s) := 
  mailboxCommand_keeps (fun hk => domLeaveBody_keeps hk r)

end Sys2Proof.Machine
end

