-- ==== Sys2Proof/Laws/KeepClock.lean ====
section
/-! SUPPORT. What the operations of Clock keep. -/

set_option Elab.async false
set_option linter.all false

namespace Sys2Proof.Machine

theorem State.timeStep_keeps {s0 s : State} (hK : Keeps s0 s) (op : Nat) (cause : Nat) (units : Nat) : Keeps s0
    (State.timeStep s op cause units) := by
  unfold State.timeStep
  (try dsimp only)
  repeat' first
    | with_reducible exact hK | exact fun _ hx => hx | exact fun _ _ => TimeBase.setUnits_ok _ _
    | exact fun _ _ => TimeBase.shift_ok _ _
    | exact fun x _ => ⟨(TimeBase.setUnits_ok x _).1, (TimeBase.setUnits_ok x _).2.1, (TimeBase.setUnits_ok x _).2.2⟩
    | with_reducible (first
        | apply State.gateReset_keeps | apply State.raise_keeps | apply State.setTimeState_keeps
        | apply State.stepPast_keeps | apply State.updTime_keeps)
    | (with_reducible refine Keeps.foldl _ (fun _ _ hK => ?_) _ ?_) | (intro _ hK; skip) | with_reducible assumption
    | (with_reducible refine Keeps.ite (fun _ => ?_) (fun _ => ?_))

theorem timeAdjustBody_keeps {s0 s : State} (hK : Keeps s0 s) (r : Req) : Keeps s0 (timeAdjustBody r s).1 := by
  unfold timeAdjustBody
  (try dsimp only)
  repeat' first
    | with_reducible exact hK | exact fun _ hx => hx | exact fun _ _ => TimeBase.setUnits_ok _ _
    | exact fun _ _ => TimeBase.shift_ok _ _
    | exact fun x _ => ⟨(TimeBase.setUnits_ok x _).1, (TimeBase.setUnits_ok x _).2.1, (TimeBase.setUnits_ok x _).2.2⟩
    | with_reducible (first
        | apply errCmd_keeps | apply okCmd_keeps | apply State.timeStep_keeps | apply State.updTime_keeps)
    | (intro _ hK; skip) | with_reducible assumption | (with_reducible refine Keeps.ite (fun _ => ?_) (fun _ => ?_))
    | split

theorem execTimeAdjust_keeps (r : Req) (s : State) : OutKeeps s (execTimeAdjust r s) := 
  mailboxCommand_keeps (fun hk => timeAdjustBody_keeps hk r)

theorem State.judge_keeps {s0 s : State} (hK : Keeps s0 s) (off : Int) : Keeps s0 (State.judge s off) := by
  unfold State.judge
  (try dsimp only)
  repeat' first
    | with_reducible exact hK | exact fun _ hx => hx | exact fun _ _ => TimeBase.setUnits_ok _ _
    | exact fun _ _ => TimeBase.shift_ok _ _
    | exact fun x _ => ⟨(TimeBase.setUnits_ok x _).1, (TimeBase.setUnits_ok x _).2.1, (TimeBase.setUnits_ok x _).2.2⟩
    | with_reducible (first | apply State.setTimeState_keeps | apply State.updTime_keeps) | (intro _ hK; skip)
    | with_reducible assumption | (with_reducible refine Keeps.ite (fun _ => ?_) (fun _ => ?_))

theorem State.servo_keeps {s0 s : State} (hK : Keeps s0 s) (off : Int) : Keeps s0 (State.servo s off) := by
  unfold State.servo
  (try dsimp only)
  repeat' first
    | with_reducible exact hK | exact fun _ hx => hx | exact fun _ _ => TimeBase.setUnits_ok _ _
    | exact fun _ _ => TimeBase.shift_ok _ _
    | exact fun x _ => ⟨(TimeBase.setUnits_ok x _).1, (TimeBase.setUnits_ok x _).2.1, (TimeBase.setUnits_ok x _).2.2⟩
    | with_reducible (first
        | apply State.drawn_keeps | apply State.judge_keeps | apply State.timeStep_keeps
        | apply State.updTime_keeps)
    | (intro _ hK; skip) | with_reducible assumption | (with_reducible refine Keeps.ite (fun _ => ?_) (fun _ => ?_))
    | split | fail_if_no_progress with_reducible refine Keeps.fields ?_

theorem execPpsInEdge_keeps (s : State) : OutKeeps s (execPpsInEdge s) := by
  unfold execPpsInEdge
  (try dsimp only)
  repeat' first
    | with_reducible (first | exact OutKeeps.fault _ _ | apply OutKeeps.next | exact Keeps.refl _)
    | exact fun _ hx => hx | exact fun _ _ => TimeBase.setUnits_ok _ _ | exact fun _ _ => TimeBase.shift_ok _ _
    | exact fun x _ => ⟨(TimeBase.setUnits_ok x _).1, (TimeBase.setUnits_ok x _).2.1, (TimeBase.setUnits_ok x _).2.2⟩
    | with_reducible (first | apply State.servo_keeps | apply State.updTime_keeps) | (intro _ hK; skip)
    | with_reducible assumption | (with_reducible refine Keeps.ite (fun _ => ?_) (fun _ => ?_))

theorem State.ptpEventSend_keeps {s0 s : State} (hK : Keeps s0 s) (p : Nat) (b : List Byte) : Keeps s0
    (State.ptpEventSend s p b) := by
  unfold State.ptpEventSend
  (try dsimp only)
  repeat' first
    | with_reducible (first | exact hK | apply State.ptpOut_keeps | apply State.sendClass_keeps)
    | (with_reducible refine Keeps.foldl _ (fun _ _ hK => ?_) _ ?_) | (intro _ hK; skip)
    | with_reducible assumption | (with_reducible refine Keeps.ite (fun _ => ?_) (fun _ => ?_)) | split
    | fail_if_no_progress with_reducible refine Keeps.fields ?_

theorem State.ptpOffset_keeps {s0 s : State} (hK : Keeps s0 s) (off : Int) : Keeps s0 (State.ptpOffset s off) := by
  unfold State.ptpOffset
  (try dsimp only)
  repeat' first
    | with_reducible (first | exact hK | apply State.servo_keeps)
    | (with_reducible refine Keeps.foldl _ (fun _ _ hK => ?_) _ ?_) | (intro _ hK; skip)
    | with_reducible assumption | (with_reducible refine Keeps.ite (fun _ => ?_) (fun _ => ?_)) | split
    | fail_if_no_progress with_reducible refine Keeps.fields ?_

theorem State.relaySync_keeps {s0 s : State} (hK : Keeps s0 s) (origin : List Byte) (c : Int) (p : Nat) : Keeps s0
    (State.relaySync s origin c p) := by
  unfold State.relaySync
  (try dsimp only)
  repeat' first
    | with_reducible (first | exact hK | apply State.ptpEventSend_keeps | apply State.updPtp_keeps)
    | (with_reducible refine Keeps.foldl _ (fun _ _ hK => ?_) _ ?_) | (intro _ hK; skip)
    | with_reducible assumption | (with_reducible refine Keeps.ite (fun _ => ?_) (fun _ => ?_)) | split
    | fail_if_no_progress with_reducible refine Keeps.fields ?_

theorem State.relayAll_keeps {s0 s : State} (hK : Keeps s0 s) (origin : List Byte) (c : Int) : Keeps s0
    (State.relayAll s origin c) := by
  unfold State.relayAll
  (try dsimp only)
  repeat' first
    | with_reducible (first | exact hK | apply State.relaySync_keeps)
    | (with_reducible refine Keeps.foldl _ (fun _ _ hK => ?_) _ ?_) | (intro _ hK; skip)
    | with_reducible assumption | (with_reducible refine Keeps.ite (fun _ => ?_) (fun _ => ?_)) | split
    | fail_if_no_progress with_reducible refine Keeps.fields ?_

theorem State.syncPair_keeps {s0 s : State} (hK : Keeps s0 s) (p : Nat) (rx : Int) (origin : List Byte) (corr : Int) :
    Keeps s0 (State.syncPair s p rx origin corr) := by
  unfold State.syncPair
  (try dsimp only)
  repeat' first
    | with_reducible (first
        | exact hK | apply State.ptpOffset_keeps | apply State.relayAll_keeps | apply State.updPtp_keeps)
    | (with_reducible refine Keeps.foldl _ (fun _ _ hK => ?_) _ ?_) | (intro _ hK; skip)
    | with_reducible assumption | (with_reducible refine Keeps.ite (fun _ => ?_) (fun _ => ?_)) | split
    | fail_if_no_progress with_reducible refine Keeps.fields ?_

theorem State.setDelay_keeps {s0 s : State} (hK : Keeps s0 s) (p : Nat) (d : Int) : Keeps s0 (State.setDelay s p d) :=
    by
  unfold State.setDelay
  (try dsimp only)
  repeat' first
    | with_reducible (first | exact hK | apply State.updPtp_keeps)
    | (with_reducible refine Keeps.foldl _ (fun _ _ hK => ?_) _ ?_) | (intro _ hK; skip)
    | with_reducible assumption | (with_reducible refine Keeps.ite (fun _ => ?_) (fun _ => ?_)) | split
    | fail_if_no_progress with_reducible refine Keeps.fields ?_

theorem State.takeSync_keeps {s0 s : State} (hK : Keeps s0 s) (p : Nat) (m : PtpRx) : Keeps s0 (State.takeSync s p m)
    := by
  unfold State.takeSync
  (try dsimp only)
  repeat' first
    | with_reducible (first | exact hK | apply State.syncPair_keeps | apply State.updPtp_keeps)
    | (with_reducible refine Keeps.foldl _ (fun _ _ hK => ?_) _ ?_) | (intro _ hK; skip)
    | with_reducible assumption | (with_reducible refine Keeps.ite (fun _ => ?_) (fun _ => ?_)) | split
    | fail_if_no_progress with_reducible refine Keeps.fields ?_

theorem State.takeFollowUp_keeps {s0 s : State} (hK : Keeps s0 s) (p : Nat) (b : List Byte) : Keeps s0
    (State.takeFollowUp s p b) := by
  unfold State.takeFollowUp
  (try dsimp only)
  repeat' first
    | with_reducible (first | exact hK | apply State.syncPair_keeps)
    | (with_reducible refine Keeps.foldl _ (fun _ _ hK => ?_) _ ?_) | (intro _ hK; skip)
    | with_reducible assumption | (with_reducible refine Keeps.ite (fun _ => ?_) (fun _ => ?_)) | split
    | fail_if_no_progress with_reducible refine Keeps.fields ?_

theorem State.takeDelayReq_keeps {s0 s : State} (hK : Keeps s0 s) (p : Nat) (m : PtpRx) : Keeps s0 (State.takeDelayReq
    s p m) := by
  unfold State.takeDelayReq
  (try dsimp only)
  repeat' first
    | with_reducible (first | exact hK | apply State.ptpGeneral_keeps)
    | (with_reducible refine Keeps.foldl _ (fun _ _ hK => ?_) _ ?_) | (intro _ hK; skip)
    | with_reducible assumption | (with_reducible refine Keeps.ite (fun _ => ?_) (fun _ => ?_)) | split
    | fail_if_no_progress with_reducible refine Keeps.fields ?_

theorem State.takeDelayResp_keeps {s0 s : State} (hK : Keeps s0 s) (p : Nat) (b : List Byte) : Keeps s0
    (State.takeDelayResp s p b) := by
  unfold State.takeDelayResp
  (try dsimp only)
  repeat' first
    | with_reducible (first | exact hK | apply State.setDelay_keeps)
    | (with_reducible refine Keeps.foldl _ (fun _ _ hK => ?_) _ ?_) | (intro _ hK; skip)
    | with_reducible assumption | (with_reducible refine Keeps.ite (fun _ => ?_) (fun _ => ?_)) | split
    | fail_if_no_progress with_reducible refine Keeps.fields ?_

theorem State.takePdelayReq_keeps {s0 s : State} (hK : Keeps s0 s) (p : Nat) (m : PtpRx) : Keeps s0
    (State.takePdelayReq s p m) := by
  unfold State.takePdelayReq
  (try dsimp only)
  repeat' first
    | with_reducible (first | exact hK | apply State.ptpEventSend_keeps | apply State.updPtp_keeps)
    | (with_reducible refine Keeps.foldl _ (fun _ _ hK => ?_) _ ?_) | (intro _ hK; skip)
    | with_reducible assumption | (with_reducible refine Keeps.ite (fun _ => ?_) (fun _ => ?_)) | split
    | fail_if_no_progress with_reducible refine Keeps.fields ?_

theorem State.takePdelayResp_keeps {s0 s : State} (hK : Keeps s0 s) (p : Nat) (m : PtpRx) : Keeps s0
    (State.takePdelayResp s p m) := by
  unfold State.takePdelayResp
  (try dsimp only)
  repeat' first
    | with_reducible (first | exact hK | apply State.setDelay_keeps | apply State.updPtp_keeps)
    | (with_reducible refine Keeps.foldl _ (fun _ _ hK => ?_) _ ?_) | (intro _ hK; skip)
    | with_reducible assumption | (with_reducible refine Keeps.ite (fun _ => ?_) (fun _ => ?_)) | split
    | fail_if_no_progress with_reducible refine Keeps.fields ?_

theorem State.takePdelayFollow_keeps {s0 s : State} (hK : Keeps s0 s) (p : Nat) (b : List Byte) : Keeps s0
    (State.takePdelayFollow s p b) := by
  unfold State.takePdelayFollow
  (try dsimp only)
  repeat' first
    | with_reducible (first | exact hK | apply State.setDelay_keeps)
    | (with_reducible refine Keeps.foldl _ (fun _ _ hK => ?_) _ ?_) | (intro _ hK; skip)
    | with_reducible assumption | (with_reducible refine Keeps.ite (fun _ => ?_) (fun _ => ?_)) | split
    | fail_if_no_progress with_reducible refine Keeps.fields ?_

theorem State.takeAnnounce_keeps {s0 s : State} (hK : Keeps s0 s) (p : Nat) (b : List Byte) : Keeps s0
    (State.takeAnnounce s p b) := by
  unfold State.takeAnnounce
  (try dsimp only)
  repeat' first
    | with_reducible (first | exact hK | apply State.updPtp_keeps)
    | (with_reducible refine Keeps.foldl _ (fun _ _ hK => ?_) _ ?_) | (intro _ hK; skip)
    | with_reducible assumption | (with_reducible refine Keeps.ite (fun _ => ?_) (fun _ => ?_)) | split
    | fail_if_no_progress with_reducible refine Keeps.fields ?_

theorem State.ptpTake_keeps {s0 s : State} (hK : Keeps s0 s) (p : Nat) (m : PtpRx) : Keeps s0 (State.ptpTake s p m) :=
    by
  unfold State.ptpTake
  (try dsimp only)
  repeat' first
    | with_reducible (first
        | exact hK | apply State.takeAnnounce_keeps | apply State.takeDelayReq_keeps
        | apply State.takeDelayResp_keeps | apply State.takeFollowUp_keeps | apply State.takePdelayFollow_keeps
        | apply State.takePdelayReq_keeps | apply State.takePdelayResp_keeps | apply State.takeSync_keeps)
    | (with_reducible refine Keeps.foldl _ (fun _ _ hK => ?_) _ ?_) | (intro _ hK; skip)
    | with_reducible assumption | (with_reducible refine Keeps.ite (fun _ => ?_) (fun _ => ?_)) | split
    | fail_if_no_progress with_reducible refine Keeps.fields ?_

theorem State.ptpSend_keeps {s0 s : State} (hK : Keeps s0 s) (p : Nat) (ty : Nat) : Keeps s0 (State.ptpSend s p ty) :=
    by
  unfold State.ptpSend
  (try dsimp only)
  repeat' first
    | with_reducible (first
        | exact hK | apply State.bumpTime_keeps | apply State.capture_keeps | apply State.drawn_keeps
        | apply State.emit_keeps | apply State.ptpEventSend_keeps | apply State.updPtp_keeps)
    | (with_reducible refine Keeps.ite (fun _ => ?_) (fun _ => ?_))

theorem execPtpMessageProcess_keeps (port : Nat) (bytes : List Byte) (s : State) : OutKeeps s (execPtpMessageProcess
    port bytes s) := by
  unfold execPtpMessageProcess
  (try dsimp only)
  repeat' first
    | with_reducible (first
        | exact OutKeeps.fault _ _ | apply OutKeeps.next | exact Keeps.refl _ | apply State.ptpSend_keeps
        | apply State.updPort_keeps | apply State.ptpTake_keeps | apply State.updPtp_keeps)
    | (with_reducible refine Keeps.foldl _ (fun _ _ hK => ?_) _ ?_) | (intro _ hK; skip)
    | with_reducible assumption | (with_reducible refine Keeps.ite (fun _ => ?_) (fun _ => ?_)) | split
    | fail_if_no_progress with_reducible refine Keeps.fields ?_

theorem State.ptpIntervals_keeps {s0 s : State} (hK : Keeps s0 s) (p : Nat) : Keeps s0 (State.ptpIntervals s p) := by
  unfold State.ptpIntervals
  (try dsimp only)
  repeat' first
    | with_reducible (first | exact hK | apply State.drawn_keeps | apply State.ptpSend_keeps)
    | (with_reducible refine Keeps.foldl _ (fun _ _ hK => ?_) _ ?_) | (intro _ hK; skip) | with_reducible assumption
    | (with_reducible refine Keeps.ite (fun _ => ?_) (fun _ => ?_))

theorem execPtpIntervalTick_keeps (s : State) : OutKeeps s (execPtpIntervalTick s) := by
  unfold execPtpIntervalTick
  (try dsimp only)
  repeat' first
    | with_reducible (first
        | exact OutKeeps.fault _ _ | apply OutKeeps.next | exact Keeps.refl _ | apply State.ptpIntervals_keeps)
    | (with_reducible refine Keeps.foldl _ (fun _ _ hK => ?_) _ ?_) | (intro _ hK; skip) | with_reducible assumption
    | (with_reducible refine Keeps.ite (fun _ => ?_) (fun _ => ?_))

end Sys2Proof.Machine
end

