-- ==== Sys2Proof/Laws/KeepDevice.lean ====
section
/-! SUPPORT. What the operations of Device keep. -/

set_option Elab.async false
set_option linter.all false

namespace Sys2Proof.Machine

theorem execMbxDoorbell_keeps (box : Nat) (ind : Option (List Byte)) (s : State) : OutKeeps s (execMbxDoorbell box ind
    s) := by
  unfold execMbxDoorbell
  (try dsimp only [onMailbox])
  repeat' first
    | with_reducible (first
        | exact OutKeeps.fault _ _ | apply OutKeeps.next | exact Keeps.refl _ | apply State.reservedAccess_keeps
        | apply State.submit_keeps | apply State.writeCtrl_keeps)
    | split

theorem execMbxRelease_keeps (box : Nat) (s : State) : OutKeeps s (execMbxRelease box s) := by
  unfold execMbxRelease
  (try dsimp only [onMailbox])
  repeat' first
    | with_reducible (first | exact OutKeeps.fault _ _ | apply OutKeeps.next | exact Keeps.refl _)
    | exact fun _ hx => hx | exact fun _ hx => Tab.wf_writeBytes _ _ hx
    | with_reducible (first
        | apply State.reservedAccess_keeps | apply State.updBox_keeps | apply State.writeCtrl_keeps)
    | (intro _ hK; skip) | with_reducible assumption | (with_reducible refine Keeps.ite (fun _ => ?_) (fun _ => ?_))
    | split

theorem State.areaWrite_keeps {s0 s : State} (hK : Keeps s0 s) (box : Nat) (off : Nat) (b : List Byte) : Keeps s0
    (State.areaWrite s box off b) := by
  unfold State.areaWrite
  (try dsimp only)
  repeat' first
    | with_reducible exact hK | exact fun _ hx => hx | exact fun _ hx => Tab.wf_writeBytes _ _ hx
    | with_reducible (first
        | apply State.bumpMbx_keeps | apply State.protocolError_keeps | apply State.reservedAccess_keeps
        | apply State.updBox_keeps)
    | (intro _ hK; skip) | with_reducible assumption | (with_reducible refine Keeps.ite (fun _ => ?_) (fun _ => ?_))

theorem execMbxAreaWrite_keeps (box : Nat) (off : Nat) (bytes : List Byte) (s : State) : OutKeeps s (execMbxAreaWrite
    box off bytes s) := by
  unfold execMbxAreaWrite
  (try dsimp only [onMailbox])
  repeat' first
    | with_reducible (first
        | exact OutKeeps.fault _ _ | apply OutKeeps.next | exact Keeps.refl _ | apply State.areaWrite_keeps
        | apply State.reservedAccess_keeps | apply State.writeCtrl_keeps)
    | split

theorem devGetInfoBody_keeps {s0 s : State} (hK : Keeps s0 s) (r : Req) : Keeps s0 (devGetInfoBody r s).1 := by
  unfold devGetInfoBody
  (try dsimp only)
  repeat' first
    | with_reducible (first | exact hK | apply readCmd_keeps) | (intro _ hK; skip)

theorem devGetResultBody_keeps {s0 s : State} (hK : Keeps s0 s) (r : Req) : Keeps s0 (devGetResultBody r s).1 := by
  unfold devGetResultBody
  (try dsimp only)
  repeat' first
    | with_reducible (first | exact hK | apply readCmd_keeps) | (intro _ hK; skip)
    | (with_reducible refine Keeps.ite (fun _ => ?_) (fun _ => ?_))

theorem devEchoBody_keeps {s0 s : State} (hK : Keeps s0 s) (r : Req) : Keeps s0 (devEchoBody r s).1 := by
  unfold devEchoBody
  (try dsimp only)
  repeat' first
    | with_reducible (first | exact hK | apply readCmd_keeps) | (intro _ hK; skip)

theorem devGetCountersBody_keeps {s0 s : State} (hK : Keeps s0 s) (r : Req) : Keeps s0 (devGetCountersBody r s).1 :=
    by
  unfold devGetCountersBody
  (try dsimp only)
  repeat' first
    | with_reducible (first | exact hK | apply readCmd_keeps) | (intro _ hK; skip)

theorem devRestartBody_keeps {s0 s : State} (hK : Keeps s0 s) (r : Req) : Keeps s0 (devRestartBody r s).1 := by
  unfold devRestartBody
  (try dsimp only)
  repeat' first
    | with_reducible (first | exact hK | apply errCmd_keeps | apply okCmd_keeps) | (intro _ hK; skip)
    | with_reducible assumption | (with_reducible refine Keeps.ite (fun _ => ?_) (fun _ => ?_)) | split
    | fail_if_no_progress with_reducible refine Keeps.fields ?_

theorem execDevGetInfo_keeps (r : Req) (s : State) : OutKeeps s (execDevGetInfo r s) := 
  mailboxCommand_keeps (fun hk => devGetInfoBody_keeps hk r)

theorem execDevGetResult_keeps (r : Req) (s : State) : OutKeeps s (execDevGetResult r s) := 
  mailboxCommand_keeps (fun hk => devGetResultBody_keeps hk r)

theorem execDevEcho_keeps (r : Req) (s : State) : OutKeeps s (execDevEcho r s) := 
  mailboxCommand_keeps (fun hk => devEchoBody_keeps hk r)

theorem execDevGetCounters_keeps (r : Req) (s : State) : OutKeeps s (execDevGetCounters r s) := 
  mailboxCommand_keeps (fun hk => devGetCountersBody_keeps hk r)

theorem State.answerLost_keeps {s0 s : State} (hK : Keeps s0 s) (b : Nat) : Keeps s0 (State.answerLost s b) := by
  unfold State.answerLost
  (try dsimp only)
  repeat' first
    | with_reducible (first | exact hK | apply State.postBox_keeps)
    | (with_reducible refine Keeps.ite (fun _ => ?_) (fun _ => ?_))

theorem State.abortSet_keeps {s0 s : State} (hK : Keeps s0 s) (cause : Nat) (t : SetSt) : Keeps s0 (State.abortSet s
    cause t) := by
  unfold State.abortSet
  (try dsimp only)
  repeat' first
    | with_reducible (first | exact hK | apply State.raiseUp_keeps | apply State.unprepare_keeps) | (intro _ hK; skip)
    | with_reducible assumption | (with_reducible refine Keeps.ite (fun _ => ?_) (fun _ => ?_)) | split
    | fail_if_no_progress with_reducible refine Keeps.fields ?_

theorem State.forgetJobs_keeps {s0 s : State} (h : Keeps s0 s) : Keeps s0 s.forgetJobs := by
  unfold State.forgetJobs
  have k := Keeps.foldl (fun (t : State) (j : Job) => t.freeBuf j.buf) (fun _ _ hk => State.freeBuf_keeps hk _) s.mbx.jobs h
  exact Keeps.fields (k.ofHist [] [] (fun _ => ⟨by simp, by simp⟩)) rfl rfl rfl

theorem State.startRestart_keeps {s0 s : State} (h : Keeps s0 s) (cause : Nat) : Keeps s0 (s.startRestart cause) := by
  unfold State.startRestart
  extract_lets m a b c
  have ha : Keeps s0 a := h.fields rfl rfl rfl
  have hb : Keeps s0 b := State.forgetJobs_keeps (Keeps.foldl _ (fun _ _ hk => State.answerLost_keeps hk _) _ ha)
  have hc : Keeps s0 c := Keeps.foldl _ (fun _ _ hk => State.abortSet_keeps hk _ _) _ hb
  clear_value c
  exact Keeps.fields (hc.ofIdent { c.ident with doe0 := [], doe1 := [], smb := [] }
    (fun k => ⟨k.1, by simp, by simp, by simp⟩)) rfl rfl rfl

theorem State.afterCommand_keeps {s0 s : State} (hK : Keeps s0 s) : Keeps s0 (State.afterCommand s) := by
  unfold State.afterCommand
  (try dsimp only)
  repeat' first
    | with_reducible (first | exact hK | apply State.ready_keeps | apply State.startRestart_keeps)
    | (with_reducible refine Keeps.ite (fun _ => ?_) (fun _ => ?_)) | split

theorem restartAfter_keeps {s : State} {o : Host.Outcome State Fault Refusal} (h : OutKeeps s o) : OutKeeps s (restartAfter o) := by
  cases o with
  | next t => exact OutKeeps.next (State.afterCommand_keeps (h.keeps t rfl))
  | fault r => exact OutKeeps.fault _ r
  | refused r => exact ⟨fun u hu => by cases hu⟩

theorem execDevRestart_keeps (r : Req) (s : State) : OutKeeps s (execDevRestart r s) :=
  restartAfter_keeps (mailboxCommand_keeps (fun hk => devRestartBody_keeps hk r))

theorem execMoarasWatchdog_keeps (cause : Nat) (s : State) : OutKeeps s (execMoarasWatchdog cause s) := by
  unfold execMoarasWatchdog
  (try dsimp only)
  repeat' first
    | with_reducible (first
        | exact OutKeeps.fault _ _ | apply OutKeeps.next | exact Keeps.refl _ | apply State.ready_keeps
        | apply State.startRestart_keeps)
    | (with_reducible refine Keeps.ite (fun _ => ?_) (fun _ => ?_))

theorem State.reviveMp_keeps {s0 s : State} (hK : Keeps s0 s) : Keeps s0 (State.reviveMp s) := by
  unfold State.reviveMp
  (try dsimp only)
  repeat' first
    | with_reducible (first | exact hK | apply State.drawn_keeps | apply State.updMp_keeps) | (intro _ hK; skip)
    | with_reducible assumption | (with_reducible refine Keeps.ite (fun _ => ?_) (fun _ => ?_))

theorem State.flushHeld_keeps {s0 s : State} (hK : Keeps s0 s) : Keeps s0 (State.flushHeld s) := by
  unfold State.flushHeld
  (try dsimp only)
  repeat' first
    | with_reducible (first | exact hK | apply State.raise_keeps)
    | (with_reducible refine Keeps.foldl _ (fun _ _ hK => ?_) _ ?_) | (intro _ hK; skip) | with_reducible assumption
    | split | fail_if_no_progress with_reducible refine Keeps.fields ?_

theorem State.backUp_keeps {s0 s : State} (hK : Keeps s0 s) (cause : Nat) : Keeps s0 (State.backUp s cause) := by
  unfold State.backUp
  (try dsimp only)
  repeat' first
    | with_reducible (first
        | exact hK | apply State.asyncDone_keeps | apply State.flushHeld_keeps | apply State.raise_keeps
        | apply State.ready_keeps)
    | (with_reducible refine Keeps.foldl _ (fun _ _ hK => ?_) _ ?_) | (intro _ hK; skip) | with_reducible assumption
    | split | fail_if_no_progress with_reducible refine Keeps.fields ?_

theorem State.linksOff_keeps {s0 s : State} (hK : Keeps s0 s)  : Keeps s0 (State.linksOff s) := by
  unfold State.linksOff
  (try dsimp only)
  repeat' first
    | with_reducible (first | exact hK | apply State.linkDown_keeps)
    | (with_reducible refine Keeps.foldl _ (fun _ _ hK => ?_) _ ?_) | (intro _ hK; skip)
    | with_reducible assumption | (with_reducible refine Keeps.ite (fun _ => ?_) (fun _ => ?_)) | split
    | fail_if_no_progress with_reducible refine Keeps.fields ?_

theorem State.endRestart_keeps {s0 s : State} (hK : Keeps s0 s) (cause : Nat) : Keeps s0 (State.endRestart s cause) :=
    by
  unfold State.endRestart
  (try dsimp only)
  repeat' first
    | with_reducible (first
        | exact hK | apply State.backUp_keeps | apply State.fixKeyChange_keeps | apply State.moarasBoot_keeps
        | apply State.reviveMp_keeps | apply State.sourceLost_keeps | apply State.healthSince_keeps
        | apply State.linksOff_keeps)
    | (with_reducible refine Keeps.ite (fun _ => ?_) (fun _ => ?_))

theorem execMoarasRestartDone_keeps (s : State) : OutKeeps s (execMoarasRestartDone s) := by
  unfold execMoarasRestartDone
  (try dsimp only)
  repeat' first
    | with_reducible (first
        | exact OutKeeps.fault _ _ | apply OutKeeps.next | exact Keeps.refl _ | apply State.endRestart_keeps
        | apply State.ready_keeps)
    | (with_reducible refine Keeps.ite (fun _ => ?_) (fun _ => ?_)) | split

end Sys2Proof.Machine
end

