-- ==== Sys2Proof/Laws/KeepIdentity.lean ====
section
/-! SUPPORT. What the operations of Identity keep. -/

set_option Elab.async false
set_option linter.all false

namespace Sys2Proof.Machine

theorem State.updIdent_keeps {s0 s : State} (h : Keeps s0 s) (f : IdSt → IdSt) (hf : s.ident.ok → (f s.ident).ok) :
    Keeps s0 (s.updIdent f) :=
  h.ofIdent _ hf

theorem idGetInfoBody_keeps {s0 s : State} (hK : Keeps s0 s) (r : Req) : Keeps s0 (idGetInfoBody r s).1 := by
  unfold idGetInfoBody
  (try dsimp only)
  repeat' first
    | with_reducible (first | exact hK | apply readCmd_keeps) | (intro _ hK; skip)

theorem idGetCertBody_keeps {s0 s : State} (hK : Keeps s0 s) (r : Req) : Keeps s0 (idGetCertBody r s).1 := by
  unfold idGetCertBody
  (try dsimp only)
  repeat' first
    | with_reducible (first | exact hK | apply readCmd_keeps) | (intro _ hK; skip)
    | (with_reducible refine Keeps.ite (fun _ => ?_) (fun _ => ?_))

theorem idGetMeasurementsBody_keeps {s0 s : State} (hK : Keeps s0 s) (r : Req) : Keeps s0 (idGetMeasurementsBody r
    s).1 := by
  unfold idGetMeasurementsBody
  (try dsimp only)
  repeat' first
    | with_reducible (first | exact hK | apply readCmd_keeps) | (intro _ hK; skip)

theorem wf_writeFlash (free : Nat → Nat) (l : List Byte) (a : Nat) {t : Slot} (h : t.wf = true) :
    (writeFlash free a l t).wf = true := by
  induction l generalizing a t with
  | nil => exact h
  | cons b l ih => exact ih (a + 1) (Slot.wf_put _ _ h)

theorem idWriteImageBody_keeps {s0 s : State} (h : Keeps s0 s) (r : Req) : Keeps s0 (idWriteImageBody r s).1 := by
  unfold idWriteImageBody
  extract_lets p n k t e
  split
  · exact h
  split
  · exact h
  refine okCmd_keeps (State.drawn_keeps (h.ofIdent _ (fun g => IdSt.ok_setSlot g k (wf_writeFlash _ _ _ ?_))) _) []
  have ht : t.wf = true := IdSt.wf_slot g k
  show e.wf = true
  unfold e
  split
  · exact Slot.wf_erased t
  · exact ht

theorem idVerifyImageBody_keeps {s0 s : State} (h : Keeps s0 s) (r : Req) : Keeps s0 (idVerifyImageBody r s).1 := by
  unfold idVerifyImageBody
  extract_lets p k t res
  split
  · exact h
  refine okCmd_keeps (h.ofIdent _ (fun g => IdSt.ok_setSlot g k ?_)) _
  exact IdSt.wf_slot g k

theorem idSetBootBody_keeps {s0 s : State} (hK : Keeps s0 s) (r : Req) : Keeps s0 (idSetBootBody r s).1 := by
  unfold idSetBootBody
  (try dsimp only)
  repeat' first
    | with_reducible exact hK | exact fun hx => hx | exact fun hx => IdSt.ok_writeCfg hx _ _ _
    | exact fun hx => IdSt.ok_addSession hx (by assumption) | exact fun hx => IdSt.ok_dropSession hx _ _
    | exact fun hx => IdSt.ok_noSession hx _
    | with_reducible (first | apply errCmd_keeps | apply okCmd_keeps | apply State.updIdent_keeps)
    | (intro _ hK; skip) | with_reducible assumption | (with_reducible refine Keeps.ite (fun _ => ?_) (fun _ => ?_))
    | split

theorem idCommitSvnBody_keeps {s0 s : State} (hK : Keeps s0 s) (r : Req) : Keeps s0 (idCommitSvnBody r s).1 := by
  unfold idCommitSvnBody
  (try dsimp only)
  repeat' first
    | with_reducible exact hK | exact fun hx => hx | exact fun hx => IdSt.ok_writeCfg hx _ _ _
    | exact fun hx => IdSt.ok_addSession hx (by assumption) | exact fun hx => IdSt.ok_dropSession hx _ _
    | exact fun hx => IdSt.ok_noSession hx _
    | with_reducible (first
        | apply errCmd_keeps | apply okCmd_keeps | apply State.raise_keeps | apply State.updIdent_keeps)
    | (intro _ hK; skip) | with_reducible assumption | (with_reducible refine Keeps.ite (fun _ => ?_) (fun _ => ?_))
    | split

theorem idPinManagerBody_keeps {s0 s : State} (hK : Keeps s0 s) (r : Req) : Keeps s0 (idPinManagerBody r s).1 := by
  unfold idPinManagerBody
  (try dsimp only)
  repeat' first
    | with_reducible exact hK | exact fun hx => hx | exact fun hx => IdSt.ok_writeCfg hx _ _ _
    | exact fun hx => IdSt.ok_addSession hx (by assumption) | exact fun hx => IdSt.ok_dropSession hx _ _
    | exact fun hx => IdSt.ok_noSession hx _
    | with_reducible (first | apply errCmd_keeps | apply okCmd_keeps | apply State.updIdent_keeps)
    | (intro _ hK; skip) | with_reducible assumption | (with_reducible refine Keeps.ite (fun _ => ?_) (fun _ => ?_))
    | split

theorem execIdGetInfo_keeps (r : Req) (s : State) : OutKeeps s (execIdGetInfo r s) := 
  mailboxCommand_keeps (fun hk => idGetInfoBody_keeps hk r)

theorem execIdGetCert_keeps (r : Req) (s : State) : OutKeeps s (execIdGetCert r s) := 
  mailboxCommand_keeps (fun hk => idGetCertBody_keeps hk r)

theorem execIdGetMeasurements_keeps (r : Req) (s : State) : OutKeeps s (execIdGetMeasurements r s) := 
  mailboxCommand_keeps (fun hk => idGetMeasurementsBody_keeps hk r)

theorem execIdWriteImage_keeps (r : Req) (s : State) : OutKeeps s (execIdWriteImage r s) := 
  mailboxCommand_keeps (fun hk => idWriteImageBody_keeps hk r)

theorem execIdVerifyImage_keeps (r : Req) (s : State) : OutKeeps s (execIdVerifyImage r s) := 
  mailboxCommand_keeps (fun hk => idVerifyImageBody_keeps hk r)

theorem execIdSetBoot_keeps (r : Req) (s : State) : OutKeeps s (execIdSetBoot r s) := 
  mailboxCommand_keeps (fun hk => idSetBootBody_keeps hk r)

theorem execIdCommitSvn_keeps (r : Req) (s : State) : OutKeeps s (execIdCommitSvn r s) := 
  mailboxCommand_keeps (fun hk => idCommitSvnBody_keeps hk r)

theorem execIdPinManager_keeps (r : Req) (s : State) : OutKeeps s (execIdPinManager r s) := 
  mailboxCommand_keeps (fun hk => idPinManagerBody_keeps hk r)

end Sys2Proof.Machine
end

