-- ==== Sys2Proof/Laws/KeepSpdm.lean ====
section
/-! SUPPORT. What the operations of Spdm keep. -/

set_option Elab.async false
set_option linter.all false

namespace Sys2Proof.Machine

theorem IdSt.ok_setSessions {i : IdSt} (h : i.ok) {t : Nat} {l : List SpdmSession} (hl : l.length ≤ sessionLimit t) :
    (i.setSessions t l).ok := by
  unfold IdSt.setSessions
  unfold sessionLimit at hl
  split
  · next e => subst e; exact ⟨h.1, hl, h.2.2⟩
  · split
    · next e => subst e; exact ⟨h.1, h.2.1, hl, h.2.2.2⟩
    · rw [if_neg (by omega)] at hl
      exact ⟨h.1, h.2.1, h.2.2.1, hl⟩

theorem IdSt.sessions_le {i : IdSt} (h : i.ok) (t : Nat) : (i.sessions t).length ≤ sessionLimit t := by
  unfold IdSt.sessions sessionLimit
  have := h.2
  repeat' split
  all_goals omega

theorem IdSt.ok_addSession {i : IdSt} (h : i.ok) {t : Nat} {x : SpdmSession} (hl : (i.sessions t).length < sessionLimit t) :
    (i.setSessions t (i.sessions t ++ [x])).ok :=
  IdSt.ok_setSessions h (by simpa using hl)

theorem IdSt.ok_noSession {i : IdSt} (h : i.ok) (t : Nat) : (i.setSessions t []).ok :=
  IdSt.ok_setSessions h (by simp)

theorem IdSt.ok_mapSessions {i : IdSt} (h : i.ok) (t : Nat) (f : SpdmSession → SpdmSession) :
    (i.setSessions t ((i.sessions t).map f)).ok :=
  IdSt.ok_setSessions h (by rw [List.length_map]; exact IdSt.sessions_le h t)

theorem IdSt.ok_filterSessions {i : IdSt} (h : i.ok) (t : Nat) (f : SpdmSession → Bool) :
    (i.setSessions t ((i.sessions t).filter f)).ok :=
  IdSt.ok_setSessions h (le_trans (List.length_filter_le _ _) (IdSt.sessions_le h t))

theorem State.putSession_keeps {s0 s : State} (hK : Keeps s0 s) (t : Nat) (x : SpdmSession) : Keeps s0 (State.putSession s t x) := by
  unfold State.putSession
  exact State.updIdent_keeps hK _ (fun g => IdSt.ok_mapSessions g t _)

theorem State.endSession_keeps {s0 s : State} (hK : Keeps s0 s) (t : Nat) (id : Nat) : Keeps s0 (State.endSession s t id) := by
  unfold State.endSession
  exact State.updIdent_keeps hK _ (fun g => IdSt.ok_filterSessions g t _)

theorem State.updLog_keeps {s0 s : State} (hK : Keeps s0 s) (t : Nat) (f : SpdmLog → SpdmLog) : Keeps s0 (State.updLog s t f) := by
  unfold State.updLog
  exact State.updIdent_keeps hK _ (fun g => g)

theorem State.spdmVersion_keeps {s0 s : State} (hK : Keeps s0 s) (t : Nat) (b : List Byte) : Keeps s0 (State.spdmVersion s t b).1 := by
  unfold State.spdmVersion
  exact State.updLog_keeps (State.updIdent_keeps hK _ (fun g => g)) _ _

theorem State.spdmCaps_keeps {s0 s : State} (hK : Keeps s0 s) (t : Nat) (ver : Nat) (b : List Byte) : Keeps s0 (State.spdmCaps s t ver b).1 := by
  unfold State.spdmCaps
  exact State.updLog_keeps (State.updIdent_keeps hK _ (fun g => g)) _ _

theorem State.spdmAlgs_keeps {s0 s : State} (hK : Keeps s0 s) (t : Nat) (ver : Nat) (b : List Byte) : Keeps s0 (State.spdmAlgs s t ver b).1 := by
  unfold State.spdmAlgs
  exact State.updLog_keeps (State.updIdent_keeps hK _ (fun g => g)) _ _

theorem State.spdmChallenge_keeps {s0 s : State} (hK : Keeps s0 s) (t : Nat) (ver : Nat) (b : List Byte) : Keeps s0 (State.spdmChallenge s t ver b).1 := by
  unfold State.spdmChallenge
  (try dsimp only)
  repeat' first
    | with_reducible (first | exact hK | apply State.drawn_keeps | apply State.updLog_keeps)
    | (with_reducible refine Keeps.ite (fun _ => ?_) (fun _ => ?_)) | split

theorem State.spdmMeasure_keeps {s0 s : State} (hK : Keeps s0 s) (t : Nat) (ver : Nat) (b : List Byte) (m : List Byte) : Keeps s0 (State.spdmMeasure s t ver b m).1.1 := by
  unfold State.spdmMeasure
  (try dsimp only)
  repeat' first
    | with_reducible (first | exact hK | apply State.drawn_keeps)
    | (with_reducible refine Keeps.ite (fun _ => ?_) (fun _ => ?_)) | split

theorem State.spdmKeyExchange_keeps {s0 s : State} (hK : Keeps s0 s) (t : Nat) (ver : Nat) (b : List Byte) : Keeps s0 (State.spdmKeyExchange s t ver b).1 := by
  unfold State.spdmKeyExchange
  split
  · exact hK
  · next hl =>
    split
    · exact hK
    · exact State.drawn_keeps (State.updIdent_keeps hK _ (fun g => IdSt.ok_addSession g (not_le.mp hl))) _

theorem State.spdmFinish_keeps {s0 s : State} (hK : Keeps s0 s) (t : Nat) (x : SpdmSession) (b : List Byte) : Keeps s0 (State.spdmFinish s t x b).1 := by
  unfold State.spdmFinish
  (try dsimp only)
  repeat' first
    | with_reducible (first
        | exact hK | apply State.endSession_keeps | apply State.spdmFail_keeps | apply State.putSession_keeps)
    | (with_reducible refine Keeps.ite (fun _ => ?_) (fun _ => ?_)) | split

theorem State.spdmKeyUpdate_keeps {s0 s : State} (hK : Keeps s0 s) (t : Nat) (x : SpdmSession) (b : List Byte) : Keeps s0 (State.spdmKeyUpdate s t x b).1 := by
  unfold State.spdmKeyUpdate
  (try dsimp only)
  repeat' first
    | with_reducible (first | exact hK | apply State.putSession_keeps)
    | (with_reducible refine Keeps.ite (fun _ => ?_) (fun _ => ?_)) | split

theorem State.spdmEvidence_keeps {s0 s : State} (hK : Keeps s0 s) (t : Nat) (ver : Nat) (code : Nat) (b : List Byte) : Keeps s0 (State.spdmEvidence s t ver code b).1 := by
  unfold State.spdmEvidence
  (try dsimp only)
  repeat' first
    | with_reducible (first
        | exact hK | apply State.spdmChallenge_keeps | apply State.spdmKeyExchange_keeps | apply State.updLog_keeps
        | apply State.spdmMeasure_keeps)
    | (with_reducible refine Keeps.ite (fun _ => ?_) (fun _ => ?_)) | split

theorem State.spdmClear_keeps {s0 s : State} (hK : Keeps s0 s) (t : Nat) (b : List Byte) : Keeps s0 (State.spdmClear s t b).1 := by
  unfold State.spdmClear
  (try dsimp only)
  repeat' first
    | with_reducible (first
        | exact hK | apply State.spdmAlgs_keeps | apply State.spdmCaps_keeps | apply State.spdmVersion_keeps
        | apply State.spdmEvidence_keeps)
    | (with_reducible refine Keeps.ite (fun _ => ?_) (fun _ => ?_)) | split

theorem State.spdmWithin_keeps {s0 s : State} (hK : Keeps s0 s) (t : Nat) (x : SpdmSession) (b : List Byte) : Keeps s0 (State.spdmWithin s t x b).1 := by
  unfold State.spdmWithin
  (try dsimp only)
  repeat' first
    | with_reducible (first
        | exact hK | apply State.endSession_keeps | apply State.putSession_keeps | apply State.spdmFinish_keeps
        | apply State.spdmKeyUpdate_keeps | apply State.spdmMeasure_keeps)
    | (with_reducible refine Keeps.ite (fun _ => ?_) (fun _ => ?_)) | split

theorem State.countSealed_keeps {s0 s : State} (hK : Keeps s0 s) (t : Nat) (x : SpdmSession) (code : Nat) : Keeps s0 (State.countSealed s t x code) := by
  unfold State.countSealed
  exact State.updIdent_keeps hK _ (fun g => IdSt.ok_mapSessions g t _)

theorem State.spdmSecured_keeps {s0 s : State} (hK : Keeps s0 s) (t : Nat) (b : List Byte) : Keeps s0 (State.spdmSecured s t b) := by
  unfold State.spdmSecured
  (try dsimp only)
  repeat' first
    | with_reducible (first
        | exact hK | apply State.spdmFail_keeps | apply State.countSealed_keeps | apply State.putSession_keeps
        | apply State.emit_keeps | apply State.spdmWithin_keeps)
    | (with_reducible refine Keeps.ite (fun _ => ?_) (fun _ => ?_)) | split

theorem execSpdmRequest_keeps (transport : Nat) (m : SpdmIn) (s : State) :
    OutKeeps s (execSpdmRequest transport m s) := by
  unfold execSpdmRequest
  split
  · exact OutKeeps.fault _ _
  refine OutKeeps.next (Keeps.ite (fun _ => .refl s) (fun _ => Keeps.ite (fun _ => ?_) (fun _ => ?_)))
  · exact State.spdmSecured_keeps (.refl s) _ _
  · exact State.emit_keeps (State.spdmClear_keeps (.refl s) _ _) _

end Sys2Proof.Machine
end

