-- ==== Sys2Proof/Laws/KeepSlices.lean ====
section
/-! SUPPORT. What the operations of Slices keep. -/

set_option Elab.async false
set_option linter.all false

namespace Sys2Proof.Machine

theorem State.resetSlice_keeps {s0 s : State} (hK : Keeps s0 s) (n : Nat) (cause : Nat) (req : Option (Nat × Req)) :
    Keeps s0 (State.resetSlice s n cause req) := by
  unfold State.resetSlice
  (try dsimp only)
  repeat' first
    | with_reducible (first
        | exact hK | apply State.bumpPwr_keeps | apply State.flushSlice_keeps | apply State.raise_keeps
        | apply State.updSlice_keeps)
    | (intro _ hK; skip) | with_reducible assumption | split
    | fail_if_no_progress with_reducible refine Keeps.fields ?_

theorem pwrSliceResetBody_keeps {s0 s : State} (hK : Keeps s0 s) (r : Req) : Keeps s0 (pwrSliceResetBody r s).1 := by
  unfold pwrSliceResetBody
  (try dsimp only)
  repeat' first
    | with_reducible (first | exact hK | apply errCmd_keeps | apply State.resetSlice_keeps) | (intro _ hK; skip)
    | with_reducible assumption | (with_reducible refine Keeps.ite (fun _ => ?_) (fun _ => ?_)) | split

theorem State.parkCmd_keeps {s0 s : State} (hK : Keeps s0 s) (n : Nat) : Keeps s0 (State.parkCmd s n).1 := by
  unfold State.parkCmd
  (try dsimp only)
  repeat' first
    | with_reducible (first
        | exact hK | apply State.dropHeld_keeps | apply errCmd_keeps | apply okCmd_keeps
        | apply State.parkNow_keeps)
    | (with_reducible refine Keeps.ite (fun _ => ?_) (fun _ => ?_)) | split

theorem State.unparkSlice_keeps {s0 s : State} (hK : Keeps s0 s) (n : Nat) (r : Req) : Keeps s0 (State.unparkSlice s n
    r).1 := by
  unfold State.unparkSlice
  (try dsimp only)
  repeat' first
    | with_reducible (first | exact hK | apply State.dropHeld_keeps | apply errCmd_keeps | apply State.updSlice_keeps)
    | (intro _ hK; skip) | with_reducible assumption | (with_reducible refine Keeps.ite (fun _ => ?_) (fun _ => ?_))
    | split

theorem pwrSliceParkBody_keeps {s0 s : State} (hK : Keeps s0 s) (r : Req) : Keeps s0 (pwrSliceParkBody r s).1 := by
  unfold pwrSliceParkBody
  (try dsimp only)
  repeat' first
    | with_reducible (first
        | exact hK | apply errCmd_keeps | apply State.parkCmd_keeps | apply State.unparkSlice_keeps)
    | (intro _ hK; skip) | with_reducible assumption | (with_reducible refine Keeps.ite (fun _ => ?_) (fun _ => ?_))
    | split

theorem execPwrSliceReset_keeps (r : Req) (s : State) : OutKeeps s (execPwrSliceReset r s) := 
  mailboxCommand_keeps (fun hk => pwrSliceResetBody_keeps hk r)

theorem execPwrSlicePark_keeps (r : Req) (s : State) : OutKeeps s (execPwrSlicePark r s) := 
  mailboxCommand_keeps (fun hk => pwrSliceParkBody_keeps hk r)

theorem execSliceFault_keeps (slice : Nat) (s : State) : OutKeeps s (execSliceFault slice s) := by
  unfold execSliceFault
  (try dsimp only)
  repeat' first
    | with_reducible (first
        | exact OutKeeps.fault _ _ | apply OutKeeps.next | exact Keeps.refl _ | apply State.resetSlice_keeps)
    | (with_reducible refine Keeps.ite (fun _ => ?_) (fun _ => ?_)) | split

theorem State.trainSlice_keeps {s0 s : State} (hK : Keeps s0 s) (n : Nat) : Keeps s0 (State.trainSlice s n) := by
  unfold State.trainSlice
  (try dsimp only)
  repeat' first
    | with_reducible (first | exact hK | apply State.updPort_keeps)
    | (with_reducible refine Keeps.foldl _ (fun _ _ hK => ?_) _ ?_) | (intro _ hK; skip) | with_reducible assumption
    | (with_reducible refine Keeps.ite (fun _ => ?_) (fun _ => ?_))

theorem State.sliceRestored_keeps {s0 s : State} (hK : Keeps s0 s) (n : Nat) : Keeps s0 (State.sliceRestored s n) :=
    by
  unfold State.sliceRestored
  (try dsimp only)
  repeat' first
    | with_reducible (first
        | exact hK | apply State.bumpPwr_keeps | apply State.complete_keeps | apply State.raiseUp_keeps
        | apply State.trainSlice_keeps | apply State.updSlice_keeps)
    | (intro _ hK; skip) | with_reducible assumption | (with_reducible refine Keeps.ite (fun _ => ?_) (fun _ => ?_))
    | split

theorem execSliceRestoreDone_keeps (slice : Nat) (s : State) : OutKeeps s (execSliceRestoreDone slice s) := by
  unfold execSliceRestoreDone
  (try dsimp only)
  repeat' first
    | with_reducible (first
        | exact OutKeeps.fault _ _ | apply OutKeeps.next | exact Keeps.refl _ | apply State.sliceRestored_keeps)
    | (with_reducible refine Keeps.ite (fun _ => ?_) (fun _ => ?_)) | split

end Sys2Proof.Machine
end

