-- ==== Sys2Proof/Laws/KeepResets.lean ====
section
/-! SUPPORT. What the operations of Resets keep. -/

set_option Elab.async false
set_option linter.all false

namespace Sys2Proof.Machine

theorem IdSt.ok_atReset {i : IdSt} (h : i.ok) : i.atReset.ok := ⟨h.1, by simp [IdSt.atReset], by simp [IdSt.atReset], by simp [IdSt.atReset]⟩

/-- A state whose memories, time, history and held events are those of reset, with the identity of a good state. -/
theorem State.coldEntry_keeps {s0 s : State} (h : Keeps s0 s) : Keeps s0 s.coldEntry := by
  refine h.trans ⟨rfl, fun g => ?_⟩
  have hm := g.mem
  simp only [Memory.wf, Bool.and_eq_true] at hm
  have hi : s.ident.atReset.ok := IdSt.ok_atReset ⟨⟨hm.1.1.1.2, hm.1.1.2, hm.1.2, hm.2⟩, g.sessions⟩
  refine ⟨?_, ?_, ?_, hi.2, ?_⟩
  · show TimeBase.init.ok
    exact ⟨by decide, by decide, by decide⟩
  · simp only [Memory.wf, Bool.and_eq_true]
    exact ⟨⟨⟨⟨⟨⟨rfl, rfl⟩, rfl⟩, hi.1.1⟩, hi.1.2.1⟩, hi.1.2.2.1⟩, hi.1.2.2.2⟩
  · exact ⟨Nat.zero_le _, Nat.zero_le _⟩
  · exact Nat.zero_le _

theorem State.warmEntry_keeps {s0 s : State} (hK : Keeps s0 s) : Keeps s0 (State.warmEntry s) := by
  refine hK.trans ⟨rfl, fun g => ?_⟩
  have c := (State.coldEntry_keeps (Keeps.refl s)).good g
  refine ⟨c.time, ?_, c.hist, c.sessions, c.held⟩
  have hm := g.mem
  have hc := c.mem
  simp only [Memory.wf, Bool.and_eq_true] at hm hc ⊢
  exact ⟨⟨⟨⟨⟨⟨hc.1.1.1.1.1.1, hm.1.1.1.1.1.2⟩, hm.1.1.1.1.2⟩, hc.1.1.1.2⟩, hc.1.1.2⟩, hc.1.2⟩, hc.2⟩

theorem State.leaveReset_keeps {s0 s : State} (hK : Keeps s0 s) : Keeps s0 (State.leaveReset s) := by
  unfold State.leaveReset
  (try dsimp only)
  repeat' first
    | with_reducible exact hK | (with_reducible refine Keeps.ite (fun _ => ?_) (fun _ => ?_)) | split
    | fail_if_no_progress with_reducible refine Keeps.fields ?_

theorem execPorstNLow_keeps (s : State) : OutKeeps s (execPorstNLow s) := by
  unfold execPorstNLow
  (try dsimp only)
  repeat' first
    | with_reducible (first
        | exact OutKeeps.fault _ _ | apply OutKeeps.next | exact Keeps.refl _ | apply State.coldEntry_keeps
        | apply State.cutWrite_keeps)
    | split | fail_if_no_progress with_reducible refine Keeps.fields ?_

theorem execPorstNRise_keeps (role : Nat) (s : State) : OutKeeps s (execPorstNRise role s) := by
  unfold execPorstNRise
  (try dsimp only)
  repeat' first
    | with_reducible (first
        | exact OutKeeps.fault _ _ | apply OutKeeps.next | exact Keeps.refl _ | apply State.leaveReset_keeps)
    | (with_reducible refine Keeps.ite (fun _ => ?_) (fun _ => ?_)) | split
    | fail_if_no_progress with_reducible refine Keeps.fields ?_

theorem State.wrstEntry_keeps {s0 s : State} (hK : Keeps s0 s) : Keeps s0 (State.wrstEntry s) := by
  unfold State.wrstEntry
  (try dsimp only)
  repeat' first
    | with_reducible (first | exact hK | apply State.coldEntry_keeps | apply State.warmEntry_keeps)
    | (with_reducible refine Keeps.ite (fun _ => ?_) (fun _ => ?_))

theorem execWrstNLow_keeps (s : State) : OutKeeps s (execWrstNLow s) := by
  unfold execWrstNLow
  (try dsimp only)
  repeat' first
    | with_reducible (first
        | exact OutKeeps.fault _ _ | apply OutKeeps.next | exact Keeps.refl _ | apply State.wrstEntry_keeps)
    | split | fail_if_no_progress with_reducible refine Keeps.fields ?_

theorem execWrstNRise_keeps (s : State) : OutKeeps s (execWrstNRise s) := by
  unfold execWrstNRise
  (try dsimp only)
  repeat' first
    | with_reducible (first
        | exact OutKeeps.fault _ _ | apply OutKeeps.next | exact Keeps.refl _ | apply State.leaveReset_keeps)
    | (with_reducible refine Keeps.ite (fun _ => ?_) (fun _ => ?_)) | split
    | fail_if_no_progress with_reducible refine Keeps.fields ?_

theorem State.cutWrite_keeps {s0 s : State} (hK : Keeps s0 s) : Keeps s0 (State.cutWrite s) := by
  unfold State.cutWrite
  split
  · next k t x _ =>
    refine State.drawn_keeps ?_ _
    have h := fun g : s.ident.ok => IdSt.ok_cutCfg g (s.freeVal % 18) k t x
    unfold State.updIdent
    dsimp only
    generalize s.ident.cutCfg (s.freeVal % 18) k t x = i at h ⊢
    exact hK.ofIdent i h
  · exact hK

theorem execSupplyFault_keeps (s : State) : OutKeeps s (execSupplyFault s) := by
  unfold execSupplyFault
  (try dsimp only)
  repeat' first
    | with_reducible (first
        | exact OutKeeps.fault _ _ | apply OutKeeps.next | exact Keeps.refl _ | apply State.coldEntry_keeps
        | apply State.cutWrite_keeps)
    | split | fail_if_no_progress with_reducible refine Keeps.fields ?_

theorem execSuppliesValid_keeps (s : State) : OutKeeps s (execSuppliesValid s) := by
  unfold execSuppliesValid
  (try dsimp only)
  repeat' first
    | with_reducible (first
        | exact OutKeeps.fault _ _ | apply OutKeeps.next | exact Keeps.refl _ | apply State.leaveReset_keeps)
    | split | fail_if_no_progress with_reducible refine Keeps.fields ?_

theorem State.thermalEmergency_keeps {s0 s : State} (hK : Keeps s0 s) : Keeps s0 (State.thermalEmergency s) := by
  unfold State.thermalEmergency
  (try dsimp only)
  repeat' first
    | with_reducible (first | exact hK | apply State.coldEntry_keeps) | split
    | fail_if_no_progress with_reducible refine Keeps.fields ?_

theorem execThermalSample_keeps (readings : List Int) (s : State) : OutKeeps s (execThermalSample readings s) := by
  unfold execThermalSample
  (try dsimp only)
  repeat' first
    | with_reducible (first
        | exact OutKeeps.fault _ _ | apply OutKeeps.next | exact Keeps.refl _ | apply State.thermal_keeps
        | apply State.thermalEmergency_keeps)
    | (with_reducible refine Keeps.ite (fun _ => ?_) (fun _ => ?_))

theorem State.planeOut_keeps {s0 s : State} (hK : Keeps s0 s) (k : Nat) : Keeps s0 (State.planeOut s k) := by
  unfold State.planeOut
  (try dsimp only)
  repeat' first
    | with_reducible (first | exact hK | apply State.updPlane_keeps) | (intro _ hK; skip) | with_reducible assumption
    | (with_reducible refine Keeps.ite (fun _ => ?_) (fun _ => ?_)) | split

theorem State.mpOut_keeps {s0 s : State} (hK : Keeps s0 s) (k : Nat) : Keeps s0 (State.mpOut s k) := by
  unfold State.mpOut
  (try dsimp only)
  repeat' first
    | with_reducible (first | exact hK | apply State.updMp_keeps) | (intro _ hK; skip) | with_reducible assumption
    | (with_reducible refine Keeps.ite (fun _ => ?_) (fun _ => ?_))

theorem State.applyRepair_keeps {s0 s : State} (hK : Keeps s0 s) (u : Nat × Nat) : Keeps s0 (State.applyRepair s u) :=
    by
  unfold State.applyRepair
  (try dsimp only)
  repeat' first
    | with_reducible (first
        | exact hK | apply State.mpOut_keeps | apply State.planeOut_keeps | apply State.updCluster_keeps
        | apply State.updGroup_keeps | apply State.updStack_keeps)
    | (intro _ hK; skip) | with_reducible assumption | split

theorem State.testMpA_keeps {s0 s : State} (hK : Keeps s0 s)  : Keeps s0 (State.testMpA s) := by
  unfold State.testMpA
  (try dsimp only)
  repeat' first
    | with_reducible (first | exact hK | apply State.drawn_keeps | apply State.mpOut_keeps | apply State.repairAdd_keeps)
    | (with_reducible refine Keeps.foldl _ (fun _ _ hK => ?_) _ ?_) | (intro _ hK; skip)
    | with_reducible assumption | (with_reducible refine Keeps.ite (fun _ => ?_) (fun _ => ?_)) | split
    | fail_if_no_progress with_reducible refine Keeps.fields ?_

theorem State.applyRepairs_keeps {s0 s : State} (hK : Keeps s0 s) (kind : ResetKind) : Keeps s0 (State.applyRepairs s
    kind) := by
  unfold State.applyRepairs
  (try dsimp only)
  repeat' first
    | with_reducible (first | exact hK | apply State.applyRepair_keeps)
    | (with_reducible refine Keeps.foldl _ (fun _ _ hK => ?_) _ ?_) | (intro _ hK; skip) | with_reducible assumption
    | (with_reducible refine Keeps.ite (fun _ => ?_) (fun _ => ?_)) | split
    | fail_if_no_progress with_reducible refine Keeps.fields ?_

theorem State.drawSeeds_keeps {s0 s : State} (hK : Keeps s0 s)  : Keeps s0 (State.drawSeeds s) := by
  unfold State.drawSeeds
  (try dsimp only)
  repeat' first
    | with_reducible (first | exact hK | apply State.drawn_keeps)
    | (with_reducible refine Keeps.foldl _ (fun _ _ hK => ?_) _ ?_) | (intro _ hK; skip)
    | with_reducible assumption | (with_reducible refine Keeps.ite (fun _ => ?_) (fun _ => ?_)) | split
    | fail_if_no_progress with_reducible refine Keeps.fields ?_

theorem State.tellOrphans_keeps {s0 s : State} (hK : Keeps s0 s) (c : Nat) : Keeps s0 (State.tellOrphans s c) := by
  unfold State.tellOrphans
  (try dsimp only)
  repeat' first
    | with_reducible (first | exact hK | apply State.raiseIf_keeps)

theorem State.tellWarm_keeps {s0 s : State} (hK : Keeps s0 s) : Keeps s0 (State.tellWarm s) := by
  unfold State.tellWarm
  (try dsimp only)
  repeat' first
    | with_reducible (first | exact hK | apply State.raise_keeps | apply State.tellOrphans_keeps)
    | (with_reducible refine Keeps.foldl _ (fun _ _ hK => ?_) _ ?_)

theorem State.becomeReady_keeps {s0 s : State} (hK : Keeps s0 s) (kind : ResetKind) : Keeps s0 (State.becomeReady s
    kind) := by
  unfold State.becomeReady
  (try dsimp only)
  repeat' first
    | with_reducible (first
        | exact hK | apply State.raise_keeps | apply State.ready_keeps | apply State.tellWarm_keeps)
    | (with_reducible refine Keeps.ite (fun _ => ?_) (fun _ => ?_)) | split
    | fail_if_no_progress with_reducible refine Keeps.fields ?_

theorem State.bootDone_keeps {s0 s : State} (hK : Keeps s0 s) (kind : ResetKind) : Keeps s0 (State.bootDone s kind) :=
    by
  unfold State.bootDone
  (try dsimp only)
  repeat' first
    | with_reducible (first
        | exact hK | apply State.applyRepairs_keeps | apply State.becomeReady_keeps | apply State.drawSeeds_keeps
        | apply State.moarasBoot_keeps | apply State.healthSince_keeps | apply State.testMpA_keeps)
    | (with_reducible refine Keeps.ite (fun _ => ?_) (fun _ => ?_))

theorem execMoarasBootDone_keeps (s : State) : OutKeeps s (execMoarasBootDone s) := by
  unfold execMoarasBootDone
  (try dsimp only)
  repeat' first
    | with_reducible (first
        | exact OutKeeps.fault _ _ | apply OutKeeps.next | exact Keeps.refl _ | apply State.bootDone_keeps)
    | (with_reducible refine Keeps.ite (fun _ => ?_) (fun _ => ?_)) | split

theorem State.stopChans_keeps {s0 s : State} (hK : Keeps s0 s) (fn : Nat) : Keeps s0 (State.stopChans s fn) := by
  unfold State.stopChans
  (try dsimp only)
  repeat' first
    | with_reducible (first | exact hK | apply State.chanAbort_keeps)
    | (with_reducible refine Keeps.foldl _ (fun _ _ hK => ?_) _ ?_)

theorem State.freeBoxes_keeps {s0 s : State} (h : Keeps s0 s) (fn : Nat) : Keeps s0 (s.freeBoxes fn) := by
  unfold State.freeBoxes
  have k := Keeps.foldl (fun (t : State) (b : Nat) => t.updBox b (fun _ => Mbox.init))
    (fun _ _ hk => State.updBox_keeps hk _ _ (fun _ _ => rfl)) (s.fnBoxes fn) h
  exact Keeps.fields k rfl rfl rfl

theorem State.resetInts_keeps {s0 s : State} (hK : Keeps s0 s) (fn : Nat) : Keeps s0 (State.resetInts s fn) :=
  hK.upd rfl

theorem State.resetDma_keeps {s0 s : State} (hK : Keeps s0 s) (fn : Nat) : Keeps s0 (State.resetDma s fn) := by
  unfold State.resetDma
  (try dsimp only)
  repeat' first
    | with_reducible (first | exact hK | apply State.updChan_keeps | apply State.updFifo_keeps)
    | (with_reducible refine Keeps.foldl _ (fun _ _ hK => ?_) _ ?_) | (intro _ hK; skip) | with_reducible assumption
    | split
    | fail_if_no_progress ((with_reducible apply Keeps.fields); (case hq => rfl); (case hs => first | rfl | simp); (case hc => rfl))

theorem State.resetShared_keeps {s0 s : State} (h : Keeps s0 s) : Keeps s0 s.resetShared := by
  unfold State.resetShared
  exact Keeps.fields (h.ofTime { s.time with latchSec := 0, latchNs := 0, ppsInSec := 0, ppsInNs := 0 } (fun g => g))
    rfl rfl rfl

theorem State.dropDoe_keeps {s0 s : State} (hK : Keeps s0 s) (fn : Nat) : Keeps s0 (State.dropDoe s fn) := by
  unfold State.dropDoe
  refine State.updIdent_keeps hK _ (fun g => ?_)
  exact (show IdSt.ok _ from IdSt.ok_noSession g fn)

theorem State.resetFunction_keeps {s0 s : State} (hK : Keeps s0 s) (fn : Nat) (up : Bool) : Keeps s0
    (State.resetFunction s fn up) := by
  unfold State.resetFunction
  (try dsimp only)
  repeat' first
    | with_reducible (first
        | exact hK | apply State.dropDoe_keeps | apply State.freeBoxes_keeps | apply State.resetDma_keeps
        | apply State.resetInts_keeps | apply State.resetShared_keeps | apply State.stopChans_keeps
        | apply State.updLink_keeps)
    | (intro _ hK; skip) | with_reducible assumption | (with_reducible refine Keeps.ite (fun _ => ?_) (fun _ => ?_))

theorem State.functionReset_keeps {s0 s : State} (hK : Keeps s0 s) (fn : Nat) (kind : Nat) : Keeps s0
    (State.functionReset s fn kind) := by
  unfold State.functionReset
  (try dsimp only)
  repeat' first
    | with_reducible (first | exact hK | apply State.raise_keeps | apply State.resetFunction_keeps)
    | (with_reducible refine Keeps.foldl _ (fun _ _ hK => ?_) _ ?_) | (intro _ hK; skip)
    | with_reducible assumption | (with_reducible refine Keeps.ite (fun _ => ?_) (fun _ => ?_)) | split
    | fail_if_no_progress with_reducible refine Keeps.fields ?_

theorem execPcieFunctionReset_keeps (fn : Nat) (kind : Nat) (s : State) : OutKeeps s (execPcieFunctionReset fn kind s)
    := by
  unfold execPcieFunctionReset
  (try dsimp only [onFunction])
  repeat' first
    | with_reducible (first
        | exact OutKeeps.fault _ _ | apply OutKeeps.next | exact Keeps.refl _ | apply State.raise_keeps
        | apply State.resetFunction_keeps | apply State.functionReset_keeps)
    | (with_reducible refine Keeps.foldl _ (fun _ _ hK => ?_) _ ?_) | (intro _ hK; skip)
    | with_reducible assumption | (with_reducible refine Keeps.ite (fun _ => ?_) (fun _ => ?_)) | split
    | fail_if_no_progress with_reducible refine Keeps.fields ?_

theorem execHostLinkLoss_keeps (fn : Nat) (s : State) : OutKeeps s (execHostLinkLoss fn s) := by
  unfold execHostLinkLoss
  (try dsimp only [onFunction])
  repeat' first
    | with_reducible (first
        | exact OutKeeps.fault _ _ | apply OutKeeps.next | exact Keeps.refl _ | apply State.raise_keeps
        | apply State.resetFunction_keeps)
    | split

theorem State.enterD3_keeps {s0 s : State} (hK : Keeps s0 s) (fn : Nat) : Keeps s0 (State.enterD3 s fn) := by
  unfold State.enterD3
  (try dsimp only)
  repeat' first
    | with_reducible (first | exact hK | apply State.stopChans_keeps | apply State.updLink_keeps)
    | (with_reducible refine Keeps.foldl _ (fun _ _ hK => ?_) _ ?_) | (intro _ hK; skip)
    | with_reducible assumption | (with_reducible refine Keeps.ite (fun _ => ?_) (fun _ => ?_)) | split
    | fail_if_no_progress with_reducible refine Keeps.fields ?_

theorem execD3hotEntry_keeps (fn : Nat) (s : State) : OutKeeps s (execD3hotEntry fn s) := by
  unfold execD3hotEntry
  (try dsimp only [onFunction])
  repeat' first
    | with_reducible (first
        | exact OutKeeps.fault _ _ | apply OutKeeps.next | exact Keeps.refl _ | apply State.stopChans_keeps
        | apply State.updLink_keeps | apply State.enterD3_keeps)
    | (with_reducible refine Keeps.foldl _ (fun _ _ hK => ?_) _ ?_) | (intro _ hK; skip)
    | with_reducible assumption | (with_reducible refine Keeps.ite (fun _ => ?_) (fun _ => ?_)) | split
    | fail_if_no_progress with_reducible refine Keeps.fields ?_

theorem execPcieLinkUp_keeps (fn : Nat) (speed : Nat) (width : Nat) (flit : Bool) (s : State) : OutKeeps s
    (execPcieLinkUp fn speed width flit s) := by
  unfold execPcieLinkUp
  (try dsimp only [onFunction])
  repeat' first
    | with_reducible (first
        | exact OutKeeps.fault _ _ | apply OutKeeps.next | exact Keeps.refl _ | apply State.updLink_keeps)
    | (intro _ hK; skip) | with_reducible assumption | (with_reducible refine Keeps.ite (fun _ => ?_) (fun _ => ?_))
    | split

end Sys2Proof.Machine
end

