-- ==== Sys2Proof/Laws/KeepForward.lean ====
section
/-! SUPPORT. What the operations of Forward keep. -/

set_option Elab.async false
set_option linter.all false

namespace Sys2Proof.Machine

theorem bodies01_keeps {op : Nat} {b : Body} (e : bodies01 op = some b) {s0 s : State} (h : Keeps s0 s) (r : Req) :
    Keeps s0 (b r s).1 := by
  unfold bodies01 at e
  split at e
  · cases e; with_reducible exact devGetInfoBody_keeps h r
  · cases e; with_reducible exact devGetResultBody_keeps h r
  · cases e; with_reducible exact devEchoBody_keeps h r
  · cases e; with_reducible exact devRestartBody_keeps h r
  · cases e; with_reducible exact devGetCountersBody_keeps h r
  · cases e

theorem bodies02_keeps {op : Nat} {b : Body} (e : bodies02 op = some b) {s0 s : State} (h : Keeps s0 s) (r : Req) :
    Keeps s0 (b r s).1 := by
  unfold bodies02 at e
  split at e
  · cases e; with_reducible exact portSetModeBody_keeps h r
  · cases e; with_reducible exact portGetStatusBody_keeps h r
  · cases e; with_reducible exact portSetMacBody_keeps h r
  · cases e; with_reducible exact portSetFlowBody_keeps h r
  · cases e; with_reducible exact portSetThrottleBody_keeps h r
  · cases e; with_reducible exact portSetEeeBody_keeps h r
  · cases e; with_reducible exact portSetLaneMapBody_keeps h r
  · cases e; with_reducible exact portGetMarginBody_keeps h r
  · cases e; with_reducible exact portGetCountersBody_keeps h r
  · cases e; with_reducible exact portSetAdminBody_keeps h r
  · cases e; with_reducible exact portSetMarginBody_keeps h r
  · cases e

theorem bodies03_keeps {op : Nat} {b : Body} (e : bodies03 op = some b) {s0 s : State} (h : Keeps s0 s) (r : Req) :
    Keeps s0 (b r s).1 := by
  unfold bodies03 at e
  split at e
  · cases e; with_reducible exact prismSetProfileBody_keeps h r
  · cases e; with_reducible exact prismSetSelectBody_keeps h r
  · cases e; with_reducible exact prismSetPortBody_keeps h r
  · cases e; with_reducible exact prismWriteRuleBody_keeps h r
  · cases e; with_reducible exact prismReadRuleBody_keeps h r
  · cases e; with_reducible exact prismGetCountersBody_keeps h r
  · cases e; with_reducible exact prismGetRuleCountersBody_keeps h r
  · cases e; with_reducible exact prismGetEpochBody_keeps h r
  · cases e

theorem bodies04_keeps {op : Nat} {b : Body} (e : bodies04 op = some b) {s0 s : State} (h : Keeps s0 s) (r : Req) :
    Keeps s0 (b r s).1 := by
  unfold bodies04 at e
  split at e
  · cases e; with_reducible exact fwdInsertBody_keeps h r
  · cases e; with_reducible exact fwdDeleteBody_keeps h r
  · cases e; with_reducible exact fwdLookupBody_keeps h r
  · cases e; with_reducible exact fwdSetVlanBody_keeps h r
  · cases e; with_reducible exact fwdSetRouteBody_keeps h r
  · cases e; with_reducible exact fwdSetNexthopBody_keeps h r
  · cases e; with_reducible exact fwdSetEcmpBody_keeps h r
  · cases e; with_reducible exact fwdSetTemplateBody_keeps h r
  · cases e; with_reducible exact fwdSetRouterBody_keeps h r
  · cases e; with_reducible exact fwdSetLearnBody_keeps h r
  · cases e; with_reducible exact fwdSetAgingBody_keeps h r
  · cases e; with_reducible exact fwdFlushBody_keeps h r
  · cases e; with_reducible exact fwdGetCountersBody_keeps h r
  · cases e; with_reducible exact fwdGetOccupancyBody_keeps h r
  · cases e

theorem bodies05_keeps {op : Nat} {b : Body} (e : bodies05 op = some b) {s0 s : State} (h : Keeps s0 s) (r : Req) :
    Keeps s0 (b r s).1 := by
  unfold bodies05 at e
  split at e
  · cases e; with_reducible exact bufSetClassBody_keeps h r
  · cases e; with_reducible exact bufSetPortClassBody_keeps h r
  · cases e; with_reducible exact bufSetHeadroomBody_keeps h r
  · cases e; with_reducible exact bufSetPfcTxBody_keeps h r
  · cases e; with_reducible exact bufSetWredProfileBody_keeps h r
  · cases e; with_reducible exact bufSetQueueBody_keeps h r
  · cases e; with_reducible exact bufGetStatusBody_keeps h r
  · cases e; with_reducible exact bufGetPortBody_keeps h r
  · cases e; with_reducible exact bufGetCountersBody_keeps h r
  · cases e; with_reducible exact bufGetPoolsBody_keeps h r
  · cases e

theorem bodies06_keeps {op : Nat} {b : Body} (e : bodies06 op = some b) {s0 s : State} (h : Keeps s0 s) (r : Req) :
    Keeps s0 (b r s).1 := by
  unfold bodies06 at e
  split at e
  · cases e; with_reducible exact fabSetParamsBody_keeps h r
  · cases e; with_reducible exact fabSetPortBody_keeps h r
  · cases e; with_reducible exact fabGetStatusBody_keeps h r
  · cases e; with_reducible exact fabGetPairBody_keeps h r
  · cases e; with_reducible exact fabSetPlaneBody_keeps h r
  · cases e; with_reducible exact fabGetCountersBody_keeps h r
  · cases e

theorem bodies07_keeps {op : Nat} {b : Body} (e : bodies07 op = some b) {s0 s : State} (h : Keeps s0 s) (r : Req) :
    Keeps s0 (b r s).1 := by
  unfold bodies07 at e
  split at e
  · cases e; with_reducible exact schedSetNodeBody_keeps h r
  · cases e; with_reducible exact schedGetNodeBody_keeps h r
  · cases e; with_reducible exact polSetBody_keeps h r
  · cases e; with_reducible exact polGetBody_keeps h r
  · cases e; with_reducible exact polSetPortBody_keeps h r
  · cases e; with_reducible exact loupeSetProfileBody_keeps h r
  · cases e; with_reducible exact loupeSetQueueBody_keeps h r
  · cases e; with_reducible exact loupeGetBody_keeps h r
  · cases e; with_reducible exact schedGetCountersBody_keeps h r
  · cases e

theorem bodies08_keeps {op : Nat} {b : Body} (e : bodies08 op = some b) {s0 s : State} (h : Keeps s0 s) (r : Req) :
    Keeps s0 (b r s).1 := by
  unfold bodies08 at e
  split at e
  · cases e; with_reducible exact timeGetBody_keeps h r
  · cases e; with_reducible exact timeAdjustBody_keeps h r
  · cases e; with_reducible exact timeSetPtpBody_keeps h r
  · cases e; with_reducible exact timeSetPortBody_keeps h r
  · cases e; with_reducible exact timeSetPpsBody_keeps h r
  · cases e; with_reducible exact gateSetListBody_keeps h r
  · cases e; with_reducible exact gateGetStatusBody_keeps h r
  · cases e; with_reducible exact timeGetCountersBody_keeps h r
  · cases e

theorem bodies09_keeps {op : Nat} {b : Body} (e : bodies09 op = some b) {s0 s : State} (h : Keeps s0 s) (r : Req) :
    Keeps s0 (b r s).1 := by
  unfold bodies09 at e
  split at e
  · cases e; with_reducible exact frerSetStreamBody_keeps h r
  · cases e; with_reducible exact frerGetStreamBody_keeps h r
  · cases e; with_reducible exact frerSetPortBody_keeps h r
  · cases e; with_reducible exact frerResetStreamBody_keeps h r
  · cases e; with_reducible exact redGetHealthBody_keeps h r
  · cases e; with_reducible exact redSwitchoverBody_keeps h r
  · cases e; with_reducible exact redResyncBody_keeps h r
  · cases e; with_reducible exact redGetCountersBody_keeps h r
  · cases e

theorem bodies0A_keeps {op : Nat} {b : Body} (e : bodies0A op = some b) {s0 s : State} (h : Keeps s0 s) (r : Req) :
    Keeps s0 (b r s).1 := by
  unfold bodies0A at e
  split at e
  · cases e; with_reducible exact fixSetClusterBody_keeps h r
  · cases e; with_reducible exact fixGetFlowBody_keeps h r
  · cases e; with_reducible exact fixGetLogBody_keeps h r
  · cases e; with_reducible exact fixReleaseBody_keeps h r
  · cases e; with_reducible exact fixFlushBody_keeps h r
  · cases e; with_reducible exact fixGetReceiptBody_keeps h r
  · cases e; with_reducible exact leavenGetClusterBody_keeps h r
  · cases e; with_reducible exact leavenSetEventsBody_keeps h r
  · cases e; with_reducible exact leavenGetCoreBody_keeps h r
  · cases e; with_reducible exact fixGetCountersBody_keeps h r
  · cases e

theorem bodies0B_keeps {op : Nat} {b : Body} (e : bodies0B op = some b) {s0 s : State} (h : Keeps s0 s) (r : Req) :
    Keeps s0 (b r s).1 := by
  unfold bodies0B at e
  split at e
  · cases e; with_reducible exact proofSetClassBody_keeps h r
  · cases e; with_reducible exact proofSetTargetBody_keeps h r
  · cases e; with_reducible exact proofSetStateBody_keeps h r
  · cases e; with_reducible exact proofGetTargetBody_keeps h r
  · cases e; with_reducible exact shelfSetBody_keeps h r
  · cases e; with_reducible exact shelfGetBody_keeps h r
  · cases e; with_reducible exact shelfSetBusBody_keeps h r
  · cases e; with_reducible exact proofGetCountersBody_keeps h r
  · cases e

theorem bodies0C_keeps {op : Nat} {b : Body} (e : bodies0C op = some b) {s0 s : State} (h : Keeps s0 s) (r : Req) :
    Keeps s0 (b r s).1 := by
  unfold bodies0C at e
  split at e
  · cases e; with_reducible exact memGetMapBody_keeps h r
  · cases e; with_reducible exact memSetRegionsBody_keeps h r
  · cases e; with_reducible exact memGetHealthBody_keeps h r
  · cases e

theorem bodies0D_keeps {op : Nat} {b : Body} (e : bodies0D op = some b) {s0 s : State} (h : Keeps s0 s) (r : Req) :
    Keeps s0 (b r s).1 := by
  unfold bodies0D at e
  split at e
  · cases e; with_reducible exact bakeOpenBody_keeps h r
  · cases e; with_reducible exact bakeCheckBody_keeps h r
  · cases e; with_reducible exact bakeCommitBody_keeps h r
  · cases e; with_reducible exact bakeAbortBody_keeps h r
  · cases e; with_reducible exact bakeGetSetBody_keeps h r
  · cases e

theorem bodies0E_keeps {op : Nat} {b : Body} (e : bodies0E op = some b) {s0 s : State} (h : Keeps s0 s) (r : Req) :
    Keeps s0 (b r s).1 := by
  unfold bodies0E at e
  split at e
  · cases e; with_reducible exact domSetPortBody_keeps h r
  · cases e; with_reducible exact domAdmitBody_keeps h r
  · cases e; with_reducible exact domGetStatusBody_keeps h r
  · cases e; with_reducible exact domForwardBody_keeps h r
  · cases e; with_reducible exact domBakeBody_keeps h r
  · cases e; with_reducible exact domAbortBody_keeps h r
  · cases e; with_reducible exact domLeaveBody_keeps h r
  · cases e

theorem bodies0F_keeps {op : Nat} {b : Body} (e : bodies0F op = some b) {s0 s : State} (h : Keeps s0 s) (r : Req) :
    Keeps s0 (b r s).1 := by
  unfold bodies0F at e
  split at e
  · cases e; with_reducible exact idGetInfoBody_keeps h r
  · cases e; with_reducible exact idGetCertBody_keeps h r
  · cases e; with_reducible exact idGetMeasurementsBody_keeps h r
  · cases e; with_reducible exact idWriteImageBody_keeps h r
  · cases e; with_reducible exact idVerifyImageBody_keeps h r
  · cases e; with_reducible exact idSetBootBody_keeps h r
  · cases e; with_reducible exact idCommitSvnBody_keeps h r
  · cases e; with_reducible exact idPinManagerBody_keeps h r
  · cases e

theorem bodies10_keeps {op : Nat} {b : Body} (e : bodies10 op = some b) {s0 s : State} (h : Keeps s0 s) (r : Req) :
    Keeps s0 (b r s).1 := by
  unfold bodies10 at e
  split at e
  · cases e; with_reducible exact telSetMirrorBody_keeps h r
  · cases e; with_reducible exact telSetPortMirrorBody_keeps h r
  · cases e; with_reducible exact telGetMirrorBody_keeps h r
  · cases e; with_reducible exact telGetDropsBody_keeps h r
  · cases e; with_reducible exact telGetCountersBody_keeps h r
  · cases e

theorem bodies11_keeps {op : Nat} {b : Body} (e : bodies11 op = some b) {s0 s : State} (h : Keeps s0 s) (r : Req) :
    Keeps s0 (b r s).1 := by
  unfold bodies11 at e
  split at e
  · cases e; with_reducible exact pwrGetStatusBody_keeps h r
  · cases e; with_reducible exact pwrSetDroopBody_keeps h r
  · cases e; with_reducible exact pwrSetThermalBody_keeps h r
  · cases e; with_reducible exact pwrSliceResetBody_keeps h r
  · cases e; with_reducible exact pwrSliceParkBody_keeps h r
  · cases e; with_reducible exact pwrRestoreBody_keeps h r
  · cases e; with_reducible exact pwrGetCountersBody_keeps h r
  · cases e

/-- The body of every command keeps what every operation keeps. -/
theorem bodyOf_keeps {op : Nat} {b : Body} (e : bodyOf op = some b) {s0 s : State} (h : Keeps s0 s) (r : Req) :
    Keeps s0 (b r s).1 := by
  unfold bodyOf at e
  split at e
  · exact bodies01_keeps e h r
  · exact bodies02_keeps e h r
  · exact bodies03_keeps e h r
  · exact bodies04_keeps e h r
  · exact bodies05_keeps e h r
  · exact bodies06_keeps e h r
  · exact bodies07_keeps e h r
  · exact bodies08_keeps e h r
  · exact bodies09_keeps e h r
  · exact bodies0A_keeps e h r
  · exact bodies0B_keeps e h r
  · exact bodies0C_keeps e h r
  · exact bodies0D_keeps e h r
  · exact bodies0E_keeps e h r
  · exact bodies0F_keeps e h r
  · exact bodies10_keeps e h r
  · exact bodies11_keeps e h r
  · cases e

theorem State.runOp_keeps {s0 s : State} (hK : Keeps s0 s) (op : Nat) (r : Req) : Keeps s0 (State.runOp s op r) := by
  unfold State.runOp
  (try dsimp only)
  repeat' first
    | with_reducible (first | exact hK | apply State.runJob_keeps) | exact fun hk => bodyOf_keeps (by assumption) hk _
    | split

theorem State.runForwarded_keeps {s0 s : State} (hK : Keeps s0 s) (op : Nat) (r : Req) : Keeps s0 (State.runForwarded
    s op r) := by
  unfold State.runForwarded
  (try dsimp only)
  repeat' first
    | with_reducible (first | exact hK | apply State.afterCommand_keeps | apply State.runOp_keeps | apply State.takeJob_keeps)
    | (with_reducible refine Keeps.foldl _ (fun _ _ hK => ?_) _ ?_) | (intro _ hK; skip)
    | with_reducible assumption | (with_reducible refine Keeps.ite (fun _ => ?_) (fun _ => ?_)) | split
    | fail_if_no_progress with_reducible refine Keeps.fields ?_

theorem State.forwarded_keeps {s0 s : State} (hK : Keeps s0 s) (op : Nat) (r : Req) : Keeps s0 (State.forwarded s op
    r) := by
  unfold State.forwarded
  (try dsimp only)
  repeat' first
    | with_reducible (first
        | exact hK | apply State.afterCommand_keeps | apply State.takeJob_keeps | apply State.postReq_keeps
        | apply State.ready_keeps | apply State.runOp_keeps | apply State.runForwarded_keeps)
    | (with_reducible refine Keeps.ite (fun _ => ?_) (fun _ => ?_))
    | fail_if_no_progress with_reducible refine Keeps.fields ?_

theorem execForwardReq_keeps (m : DomIn) (s : State) : OutKeeps s (execForwardReq m s) := by
  unfold execForwardReq
  (try dsimp only [domRow])
  repeat' first
    | with_reducible (first
        | exact OutKeeps.fault _ _ | apply OutKeeps.next | exact Keeps.refl _ | apply State.atWorker_keeps
        | apply State.domIn_keeps | apply State.forwarded_keeps)
    | (intro _ hK; skip) | with_reducible assumption | split

theorem State.serveOne_keeps {s0 s : State} (hK : Keeps s0 s) (j : Job) : Keeps s0 (State.serveOne s j) := by
  unfold State.serveOne
  (try dsimp only)
  repeat' first
    | with_reducible (first | exact hK | apply State.runForwarded_keeps | apply State.takeJob_keeps)
    | (with_reducible refine Keeps.foldl _ (fun _ _ hK => ?_) _ ?_) | (intro _ hK; skip)
    | with_reducible assumption | (with_reducible refine Keeps.ite (fun _ => ?_) (fun _ => ?_)) | split
    | fail_if_no_progress with_reducible refine Keeps.fields ?_

theorem State.serveGap_keeps {s0 s : State} (hK : Keeps s0 s)  : Keeps s0 (State.serveGap s) := by
  unfold State.serveGap
  (try dsimp only)
  repeat' first
    | with_reducible (first | exact hK | apply State.takeJob_keeps | apply State.serveOne_keeps)
    | (with_reducible refine Keeps.foldl _ (fun _ _ hK => ?_) _ ?_) | (intro _ hK; skip)
    | with_reducible assumption | (with_reducible refine Keeps.ite (fun _ => ?_) (fun _ => ?_)) | split
    | fail_if_no_progress with_reducible refine Keeps.fields ?_

theorem State.switchFails_keeps {s0 s : State} (hK : Keeps s0 s) (cause : Nat) (old : Nat) : Keeps s0
    (State.switchFails s cause old) := by
  unfold State.switchFails
  (try dsimp only)
  repeat' first
    | with_reducible (first
        | exact hK | apply State.complete_keeps | apply State.mgmtLost_keeps | apply State.serveGap_keeps)
    | (with_reducible refine Keeps.foldl _ (fun _ _ hK => ?_) _ ?_) | (intro _ hK; skip)
    | with_reducible assumption | (with_reducible refine Keeps.ite (fun _ => ?_) (fun _ => ?_)) | split
    | fail_if_no_progress with_reducible refine Keeps.fields ?_

theorem State.gapOver_keeps {s0 s : State} (hK : Keeps s0 s)  : Keeps s0 (State.gapOver s) := by
  unfold State.gapOver
  (try dsimp only)
  repeat' first
    | with_reducible (first | exact hK | apply State.sourceLost_keeps)
    | (with_reducible refine Keeps.foldl _ (fun _ _ hK => ?_) _ ?_) | (intro _ hK; skip)
    | with_reducible assumption | (with_reducible refine Keeps.ite (fun _ => ?_) (fun _ => ?_)) | split
    | fail_if_no_progress with_reducible refine Keeps.fields ?_

theorem execMpFailoverDone_keeps (s : State) : OutKeeps s (execMpFailoverDone s) := by
  unfold execMpFailoverDone
  (try dsimp only)
  repeat' first
    | with_reducible (first
        | exact OutKeeps.fault _ _ | apply OutKeeps.next | exact Keeps.refl _ | apply State.bumpRed_keeps
        | apply State.finishJob_keeps | apply State.healthChanged_keeps | apply State.raise_keeps
        | apply State.repairAdd_keeps | apply State.setMp_keeps | apply State.updMp_keeps
        | apply State.serveGap_keeps | apply State.switchFails_keeps | apply State.gapOver_keeps)
    | (with_reducible refine Keeps.foldl _ (fun _ _ hK => ?_) _ ?_) | (intro _ hK; skip)
    | with_reducible assumption | (with_reducible refine Keeps.ite (fun _ => ?_) (fun _ => ?_)) | split
    | fail_if_no_progress with_reducible refine Keeps.fields ?_

end Sys2Proof.Machine
end

