-- ==== Sys2Proof/Laws/KeepRegisters.lean ====
section
/-! SUPPORT. What the operations of Registers keep. -/

set_option Elab.async false
set_option linter.all false

namespace Sys2Proof.Machine

theorem State.stoppedOnly_keeps {s0 s : State} (hK : Keeps s0 s) (c : Nat) (off : Nat) (size : Nat) (f : Chan → Chan)
    : Keeps s0 (State.stoppedOnly s c off size f) := by
  unfold State.stoppedOnly
  (try dsimp only)
  repeat' first
    | with_reducible (first | exact hK | apply State.reservedAccess_keeps | apply State.updChan_keeps)
    | (with_reducible refine Keeps.ite (fun _ => ?_) (fun _ => ?_))

theorem State.writeDma_keeps {s0 s : State} (hK : Keeps s0 s) (c : Nat) (o : Nat) (off : Nat) (size : Nat) (v : Nat) :
    Keeps s0 (State.writeDma s c o off size v) := by
  unfold State.writeDma
  (try dsimp only)
  repeat' first
    | with_reducible (first
        | exact hK | apply State.chanRing_keeps | apply State.cqResume_keeps | apply State.stoppedOnly_keeps
        | apply State.updChan_keeps | apply State.writeCtrl_keeps)
    | (intro _ hK; skip) | with_reducible assumption | (with_reducible refine Keeps.ite (fun _ => ?_) (fun _ => ?_))

theorem State.sweepOff_keeps {s0 s : State} (hK : Keeps s0 s) (off : Nat) (size : Nat) (w : SwpSt) : Keeps s0
    (State.sweepOff s off size w) := by
  unfold State.sweepOff
  (try dsimp only)
  repeat' first
    | with_reducible (first | exact hK | apply State.reservedAccess_keeps)
    | (with_reducible refine Keeps.ite (fun _ => ?_) (fun _ => ?_)) | split
    | fail_if_no_progress with_reducible refine Keeps.fields ?_

theorem State.writeSwp_keeps {s0 s : State} (hK : Keeps s0 s) (o : Nat) (off : Nat) (size : Nat) (v : Nat) : Keeps s0
    (State.writeSwp s o off size v) := by
  unfold State.writeSwp
  (try dsimp only)
  repeat' first
    | with_reducible (first
        | exact hK | apply State.sweepOff_keeps | apply State.updSwp_keeps | apply State.writeLoupeCtrl_keeps
        | apply State.writeLoupeHead_keeps | apply State.writeSwpCtrl_keeps | apply State.writeSwpHead_keeps)
    | (intro _ hK; skip) | with_reducible assumption | (with_reducible refine Keeps.ite (fun _ => ?_) (fun _ => ?_))

theorem State.writeHpf_keeps {s0 s : State} (hK : Keeps s0 s) (f : Nat) (o : Nat) (v : Nat) : Keeps s0 (State.writeHpf
    s f o v) := by
  unfold State.writeHpf
  (try dsimp only)
  repeat' first
    | with_reducible (first | exact hK | apply State.updFifo_keeps) | (intro _ hK; skip) | with_reducible assumption
    | (with_reducible refine Keeps.ite (fun _ => ?_) (fun _ => ?_))

theorem State.writeEvt_keeps {s0 s : State} (hK : Keeps s0 s) (o : Nat) (v : Nat) : Keeps s0 (State.writeEvt s o v) :=
    by
  unfold State.writeEvt
  (try dsimp only)
  repeat' first
    | with_reducible (first | exact hK | apply State.writeEvtCtrl_keeps | apply State.writeEvtHead_keeps)
    | (with_reducible refine Keeps.ite (fun _ => ?_) (fun _ => ?_)) | split
    | fail_if_no_progress with_reducible refine Keeps.fields ?_

theorem State.writeTim_keeps {s0 s : State} (hK : Keeps s0 s) (o : Nat) (v : Nat) : Keeps s0 (State.writeTim s o v) :=
    by
  unfold State.writeTim
  (try dsimp only)
  repeat' first
    | with_reducible exact hK | exact fun _ hx => hx | exact fun _ _ => TimeBase.setUnits_ok _ _
    | exact fun _ _ => TimeBase.shift_ok _ _
    | exact fun x _ => ⟨(TimeBase.setUnits_ok x _).1, (TimeBase.setUnits_ok x _).2.1, (TimeBase.setUnits_ok x _).2.2⟩
    | with_reducible apply State.updTime_keeps | (intro _ hK; skip) | with_reducible assumption
    | (with_reducible refine Keeps.ite (fun _ => ?_) (fun _ => ?_))

theorem State.writeTxts_keeps {s0 s : State} (hK : Keeps s0 s) (sl : Nat) (o : Nat) (v : Nat) : Keeps s0
    (State.writeTxts s sl o v) := by
  unfold State.writeTxts
  (try dsimp only)
  repeat' first
    | with_reducible (first | exact hK | apply State.updTsFifo_keeps) | (intro _ hK; skip) | with_reducible assumption
    | (with_reducible refine Keeps.ite (fun _ => ?_) (fun _ => ?_))

theorem State.writeMbx_keeps {s0 s : State} (hK : Keeps s0 s) (n : Nat) (o : Nat) (v : Nat) : Keeps s0 (State.writeMbx
    s n o v) := by
  unfold State.writeMbx
  (try dsimp only)
  repeat' first
    | with_reducible exact hK | exact fun _ hx => hx | exact fun _ hx => Tab.wf_writeBytes _ _ hx
    | with_reducible (first | apply State.drawn_keeps | apply State.submit_keeps | apply State.updBox_keeps)
    | (intro _ hK; skip) | with_reducible assumption | (with_reducible refine Keeps.ite (fun _ => ?_) (fun _ => ?_))

theorem State.writeReg_keeps {s0 s : State} (hK : Keeps s0 s) (fn : Nat) (off : Nat) (size : Nat) (v : Nat) (vv : Reg)
    : Keeps s0 (State.writeReg s fn off size v vv) := by
  cases vv <;> unfold State.writeReg
  all_goals (try dsimp only)
  all_goals repeat' first
    | with_reducible (first
        | exact hK | apply State.updLink_keeps | apply State.writeDma_keeps | apply State.writeEvt_keeps
        | apply State.writeHpf_keeps | apply State.writeMap_keeps | apply State.writeMbx_keeps
        | apply State.writeMsix_keeps | apply State.writePending_keeps | apply State.writeSwp_keeps
        | apply State.writeTim_keeps | apply State.writeTxts_keeps)
    | (intro _ hK; skip) | with_reducible assumption | (with_reducible refine Keeps.ite (fun _ => ?_) (fun _ => ?_))

theorem State.hostWrites_keeps {s0 s : State} (hK : Keeps s0 s) (fn : Nat) (off : Nat) (size : Nat) (v : Nat) : Keeps
    s0 (State.hostWrites s fn off size v) := by
  unfold State.hostWrites
  (try dsimp only)
  repeat' first
    | with_reducible (first
        | exact hK | apply State.areaWrite_keeps | apply State.reservedAccess_keeps | apply State.writeReg_keeps)
    | (with_reducible refine Keeps.ite (fun _ => ?_) (fun _ => ?_)) | split

theorem execReservedWrite_keeps (fn : Nat) (off : Nat) (size : Nat) (s : State) : OutKeeps s (execReservedWrite fn off
    size s) := by
  unfold execReservedWrite
  (try dsimp only [onAccess])
  repeat' first
    | with_reducible (first
        | exact OutKeeps.fault _ _ | apply OutKeeps.next | exact Keeps.refl _ | apply State.reservedAccess_keeps)
    | (with_reducible refine Keeps.ite (fun _ => ?_) (fun _ => ?_)) | split

theorem execBadSizeAccess_keeps (fn : Nat) (off : Nat) (size : Nat) (w3 : Bool) (s : State) : OutKeeps s
    (execBadSizeAccess fn off size w3 s) := by
  unfold execBadSizeAccess
  (try dsimp only [onAccess])
  repeat' first
    | with_reducible (first
        | exact OutKeeps.fault _ _ | apply OutKeeps.next | exact Keeps.refl _ | apply State.reservedAccess_keeps)
    | (with_reducible refine Keeps.ite (fun _ => ?_) (fun _ => ?_)) | split

end Sys2Proof.Machine
end

