-- ==== Sys2Proof/Laws/KeepPcieConfig.lean ====
section
/-! SUPPORT. What the operations of PcieConfig keep. -/

set_option Elab.async false
set_option linter.all false

namespace Sys2Proof.Machine

theorem State.putMsixCtl_keeps {s0 s : State} (hK : Keeps s0 s) (fn : Nat) (on : Bool) (m : Bool) : Keeps s0
    (State.putMsixCtl s fn on m) := by
  unfold State.putMsixCtl
  (try dsimp only)
  repeat' first
    | with_reducible (first | exact hK)
    | (with_reducible refine Keeps.foldl _ (fun _ _ hK => ?_) _ ?_) | (intro _ hK; skip)
    | with_reducible assumption | (with_reducible refine Keeps.ite (fun _ => ?_) (fun _ => ?_)) | split
    | fail_if_no_progress with_reducible refine Keeps.fields ?_

theorem State.putPower_keeps {s0 s : State} (hK : Keeps s0 s) (fn : Nat) (v : Nat) : Keeps s0 (State.putPower s fn v)
    := by
  unfold State.putPower
  (try dsimp only)
  repeat' first
    | with_reducible (first | exact hK | apply State.enterD3_keeps | apply State.updLink_keeps)
    | (with_reducible refine Keeps.foldl _ (fun _ _ hK => ?_) _ ?_) | (intro _ hK; skip)
    | with_reducible assumption | (with_reducible refine Keeps.ite (fun _ => ?_) (fun _ => ?_)) | split
    | fail_if_no_progress with_reducible refine Keeps.fields ?_

theorem State.putDevCtl_keeps {s0 s : State} (hK : Keeps s0 s) (fn : Nat) (v : Nat) : Keeps s0 (State.putDevCtl s fn
    v) := by
  unfold State.putDevCtl
  (try dsimp only)
  repeat' first
    | with_reducible (first | exact hK | apply State.functionReset_keeps | apply State.updLink_keeps)
    | (with_reducible refine Keeps.foldl _ (fun _ _ hK => ?_) _ ?_) | (intro _ hK; skip)
    | with_reducible assumption | (with_reducible refine Keeps.ite (fun _ => ?_) (fun _ => ?_)) | split
    | fail_if_no_progress with_reducible refine Keeps.fields ?_

theorem State.cfgWrite_keeps {s0 s : State} (hK : Keeps s0 s) (fn : Nat) (o : Nat) (v : Nat) : Keeps s0
    (State.cfgWrite s fn o v) := by
  unfold State.cfgWrite
  (try dsimp only)
  repeat' first
    | with_reducible (first
        | exact hK | apply State.putDevCtl_keeps | apply State.putFnMask_keeps | apply State.putPower_keeps
        | apply State.updLink_keeps | apply State.putMsixCtl_keeps)
    | (with_reducible refine Keeps.foldl _ (fun _ _ hK => ?_) _ ?_) | (intro _ hK; skip)
    | with_reducible assumption | (with_reducible refine Keeps.ite (fun _ => ?_) (fun _ => ?_)) | split
    | fail_if_no_progress with_reducible refine Keeps.fields ?_

theorem execRegisterWrite_keeps (fn : Nat) (off : Nat) (size : Nat) (w : BitVec 64) (s : State) : OutKeeps s
    (execRegisterWrite fn off size w s) := by
  unfold execRegisterWrite
  (try dsimp only [onAccess, onFunction])
  repeat' first
    | with_reducible (first
        | exact OutKeeps.fault _ _ | apply OutKeeps.next | exact Keeps.refl _ | apply State.hostWrites_keeps
        | apply State.cfgWrite_keeps)
    | (with_reducible refine Keeps.foldl _ (fun _ _ hK => ?_) _ ?_) | (intro _ hK; skip)
    | with_reducible assumption | (with_reducible refine Keeps.ite (fun _ => ?_) (fun _ => ?_)) | split
    | fail_if_no_progress with_reducible refine Keeps.fields ?_

end Sys2Proof.Machine
end

