-- ==== Sys2Proof/Laws/KeepExec.lean ====
section
/-! SUPPORT. What every command keeps. -/

set_option Elab.async false
set_option linter.all false

namespace Sys2Proof.Machine

/-- Every command leaves the queue to its caller, and a good state good. -/
theorem exec_keeps (i : Instr) (s : State) : OutKeeps s (exec i s) :=
  match i with
  | .memGetMap r => execMemGetMap_keeps r s
  | .memSetRegions r => execMemSetRegions_keeps r s
  | .memGetHealth r => execMemGetHealth_keeps r s
  | .portSetMode r => execPortSetMode_keeps r s
  | .portGetStatus r => execPortGetStatus_keeps r s
  | .portSetMac r => execPortSetMac_keeps r s
  | .portSetFlow r => execPortSetFlow_keeps r s
  | .portSetThrottle r => execPortSetThrottle_keeps r s
  | .portSetEee r => execPortSetEee_keeps r s
  | .portSetLaneMap r => execPortSetLaneMap_keeps r s
  | .portGetMargin r => execPortGetMargin_keeps r s
  | .portGetCounters r => execPortGetCounters_keeps r s
  | .portSetAdmin r => execPortSetAdmin_keeps r s
  | .portSetMargin r => execPortSetMargin_keeps r s
  | .prismSetProfile r => execPrismSetProfile_keeps r s
  | .prismSetSelect r => execPrismSetSelect_keeps r s
  | .prismSetPort r => execPrismSetPort_keeps r s
  | .prismWriteRule r => execPrismWriteRule_keeps r s
  | .prismReadRule r => execPrismReadRule_keeps r s
  | .prismGetCounters r => execPrismGetCounters_keeps r s
  | .prismGetRuleCounters r => execPrismGetRuleCounters_keeps r s
  | .prismGetEpoch r => execPrismGetEpoch_keeps r s
  | .fwdInsert r => execFwdInsert_keeps r s
  | .fwdDelete r => execFwdDelete_keeps r s
  | .fwdLookup r => execFwdLookup_keeps r s
  | .fwdSetVlan r => execFwdSetVlan_keeps r s
  | .fwdSetRoute r => execFwdSetRoute_keeps r s
  | .fwdSetNexthop r => execFwdSetNexthop_keeps r s
  | .fwdSetEcmp r => execFwdSetEcmp_keeps r s
  | .fwdSetTemplate r => execFwdSetTemplate_keeps r s
  | .fwdSetRouter r => execFwdSetRouter_keeps r s
  | .fwdSetLearn r => execFwdSetLearn_keeps r s
  | .fwdSetAging r => execFwdSetAging_keeps r s
  | .fwdFlush r => execFwdFlush_keeps r s
  | .fwdGetCounters r => execFwdGetCounters_keeps r s
  | .fwdGetOccupancy r => execFwdGetOccupancy_keeps r s
  | .bufSetClass r => execBufSetClass_keeps r s
  | .bufSetPortClass r => execBufSetPortClass_keeps r s
  | .bufSetHeadroom r => execBufSetHeadroom_keeps r s
  | .bufSetPfcTx r => execBufSetPfcTx_keeps r s
  | .bufSetWredProfile r => execBufSetWredProfile_keeps r s
  | .bufSetQueue r => execBufSetQueue_keeps r s
  | .bufGetStatus r => execBufGetStatus_keeps r s
  | .bufGetPort r => execBufGetPort_keeps r s
  | .bufGetCounters r => execBufGetCounters_keeps r s
  | .bufGetPools r => execBufGetPools_keeps r s
  | .fabSetParams r => execFabSetParams_keeps r s
  | .fabSetPort r => execFabSetPort_keeps r s
  | .fabGetStatus r => execFabGetStatus_keeps r s
  | .fabGetPair r => execFabGetPair_keeps r s
  | .fabSetPlane r => execFabSetPlane_keeps r s
  | .fabGetCounters r => execFabGetCounters_keeps r s
  | .schedSetNode r => execSchedSetNode_keeps r s
  | .schedGetNode r => execSchedGetNode_keeps r s
  | .polSet r => execPolSet_keeps r s
  | .polGet r => execPolGet_keeps r s
  | .polSetPort r => execPolSetPort_keeps r s
  | .loupeSetProfile r => execLoupeSetProfile_keeps r s
  | .loupeSetQueue r => execLoupeSetQueue_keeps r s
  | .loupeGet r => execLoupeGet_keeps r s
  | .schedGetCounters r => execSchedGetCounters_keeps r s
  | .timeGet r => execTimeGet_keeps r s
  | .timeAdjust r => execTimeAdjust_keeps r s
  | .timeSetPtp r => execTimeSetPtp_keeps r s
  | .timeSetPort r => execTimeSetPort_keeps r s
  | .timeSetPps r => execTimeSetPps_keeps r s
  | .gateSetList r => execGateSetList_keeps r s
  | .gateGetStatus r => execGateGetStatus_keeps r s
  | .timeGetCounters r => execTimeGetCounters_keeps r s
  | .frerSetStream r => execFrerSetStream_keeps r s
  | .frerGetStream r => execFrerGetStream_keeps r s
  | .frerSetPort r => execFrerSetPort_keeps r s
  | .frerResetStream r => execFrerResetStream_keeps r s
  | .redGetHealth r => execRedGetHealth_keeps r s
  | .redSwitchover r => execRedSwitchover_keeps r s
  | .redResync r => execRedResync_keeps r s
  | .redGetCounters r => execRedGetCounters_keeps r s
  | .fixSetCluster r => execFixSetCluster_keeps r s
  | .fixGetFlow r => execFixGetFlow_keeps r s
  | .fixGetLog r => execFixGetLog_keeps r s
  | .fixRelease r => execFixRelease_keeps r s
  | .fixFlush r => execFixFlush_keeps r s
  | .fixGetReceipt r => execFixGetReceipt_keeps r s
  | .leavenGetCluster r => execLeavenGetCluster_keeps r s
  | .leavenSetEvents r => execLeavenSetEvents_keeps r s
  | .leavenGetCore r => execLeavenGetCore_keeps r s
  | .fixGetCounters r => execFixGetCounters_keeps r s
  | .proofSetClass r => execProofSetClass_keeps r s
  | .proofSetTarget r => execProofSetTarget_keeps r s
  | .proofSetState r => execProofSetState_keeps r s
  | .proofGetTarget r => execProofGetTarget_keeps r s
  | .shelfSet r => execShelfSet_keeps r s
  | .shelfGet r => execShelfGet_keeps r s
  | .shelfSetBus r => execShelfSetBus_keeps r s
  | .proofGetCounters r => execProofGetCounters_keeps r s
  | .devGetInfo r => execDevGetInfo_keeps r s
  | .devGetResult r => execDevGetResult_keeps r s
  | .devEcho r => execDevEcho_keeps r s
  | .devRestart r => execDevRestart_keeps r s
  | .devGetCounters r => execDevGetCounters_keeps r s
  | .bakeOpen r => execBakeOpen_keeps r s
  | .bakeCheck r => execBakeCheck_keeps r s
  | .bakeCommit r => execBakeCommit_keeps r s
  | .bakeAbort r => execBakeAbort_keeps r s
  | .bakeGetSet r => execBakeGetSet_keeps r s
  | .domSetPort r => execDomSetPort_keeps r s
  | .domAdmit r => execDomAdmit_keeps r s
  | .domGetStatus r => execDomGetStatus_keeps r s
  | .domForward r => execDomForward_keeps r s
  | .domBake r => execDomBake_keeps r s
  | .domAbort r => execDomAbort_keeps r s
  | .domLeave r => execDomLeave_keeps r s
  | .idGetInfo r => execIdGetInfo_keeps r s
  | .idGetCert r => execIdGetCert_keeps r s
  | .idGetMeasurements r => execIdGetMeasurements_keeps r s
  | .idWriteImage r => execIdWriteImage_keeps r s
  | .idVerifyImage r => execIdVerifyImage_keeps r s
  | .idSetBoot r => execIdSetBoot_keeps r s
  | .idCommitSvn r => execIdCommitSvn_keeps r s
  | .idPinManager r => execIdPinManager_keeps r s
  | .telSetMirror r => execTelSetMirror_keeps r s
  | .telSetPortMirror r => execTelSetPortMirror_keeps r s
  | .telGetMirror r => execTelGetMirror_keeps r s
  | .telGetDrops r => execTelGetDrops_keeps r s
  | .telGetCounters r => execTelGetCounters_keeps r s
  | .pwrGetStatus r => execPwrGetStatus_keeps r s
  | .pwrSetDroop r => execPwrSetDroop_keeps r s
  | .pwrSetThermal r => execPwrSetThermal_keeps r s
  | .pwrSliceReset r => execPwrSliceReset_keeps r s
  | .pwrSlicePark r => execPwrSlicePark_keeps r s
  | .pwrRestore r => execPwrRestore_keeps r s
  | .pwrGetCounters r => execPwrGetCounters_keeps r s
  | .mbxDoorbell box ind => execMbxDoorbell_keeps box ind s
  | .mbxRelease box => execMbxRelease_keeps box s
  | .mbxAreaWrite box off bytes => execMbxAreaWrite_keeps box off bytes s
  | .timeCapture fn => execTimeCapture_keeps fn s
  | .txtsPop fn slice => execTxtsPop_keeps fn slice s
  | .dmaStart fn ch w => execDmaStart_keeps fn ch w s
  | .dmaStop fn ch w => execDmaStop_keeps fn ch w s
  | .dmaAbort fn ch w => execDmaAbort_keeps fn ch w s
  | .dmaDoorbell fn ch w => execDmaDoorbell_keeps fn ch w s
  | .descriptorFetched ch bytes => execDescriptorFetched_keeps ch bytes s
  | .staleDescReread ch bytes => execStaleDescReread_keeps ch bytes s
  | .dmaTransferDone ch err data => execDmaTransferDone_keeps ch err data s
  | .strictFlushDone ch => execStrictFlushDone_keeps ch s
  | .tailRefetched ch bytes => execTailRefetched_keeps ch bytes s
  | .intPendingClear fn k w same => execIntPendingClear_keeps fn k w same s
  | .intMapWrite fn n w => execIntMapWrite_keeps fn n w s
  | .msixUnmask fn vec => execMsixUnmask_keeps fn vec s
  | .reservedWrite fn off size => execReservedWrite_keeps fn off size s
  | .badSizeAccess fn off size write => execBadSizeAccess_keeps fn off size write s
  | .registerWrite fn off size w => execRegisterWrite_keeps fn off size w s
  | .sweepSnap fn w => execSweepSnap_keeps fn w s
  | .sweepRingReset fn loupe w => execSweepRingReset_keeps fn loupe w s
  | .sweepHeadWrite fn loupe w => execSweepHeadWrite_keeps fn loupe w s
  | .evtRingReset fn w => execEvtRingReset_keeps fn w s
  | .evtEnableWrite fn w => execEvtEnableWrite_keeps fn w s
  | .evtHeadWrite fn w => execEvtHeadWrite_keeps fn w s
  | .porstNLow => execPorstNLow_keeps s
  | .porstNRise role => execPorstNRise_keeps role s
  | .wrstNLow => execWrstNLow_keeps s
  | .wrstNRise => execWrstNRise_keeps s
  | .moarasBootDone => execMoarasBootDone_keeps s
  | .supplyFault => execSupplyFault_keeps s
  | .pcieFunctionReset fn kind => execPcieFunctionReset_keeps fn kind s
  | .hostLinkLoss fn => execHostLinkLoss_keeps fn s
  | .d3hotEntry fn => execD3hotEntry_keeps fn s
  | .droopTrip slice => execDroopTrip_keeps slice s
  | .stretchHoldEnd slice recovered => execStretchHoldEnd_keeps slice recovered s
  | .thermalSample readings => execThermalSample_keeps readings s
  | .thermalClearTimer trip => execThermalClearTimer_keeps trip s
  | .lifeHourTick avg => execLifeHourTick_keeps avg s
  | .hbmCorrectableError stack pc row => execHbmCorrectableError_keeps stack pc row s
  | .hbmUncorrectableRead stack pc region item => execHbmUncorrectableRead_keeps stack pc region item s
  | .hbmPcSpareDone stack => execHbmPcSpareDone_keeps stack s
  | .ppsInEdge => execPpsInEdge_keeps s
  | .ppsInTimeout => execPpsInTimeout_keeps s
  | .ppsOutEdge => execPpsOutEdge_keeps s
  | .frameIngress port bytes full => execFrameIngress_keeps port bytes full s
  | .frameTailReceived pkt fcsOk => execFrameTailReceived_keeps pkt fcsOk s
  | .recirculationPass slice => execRecirculationPass_keeps slice s
  | .mirrorQueueAdmit slice => execMirrorQueueAdmit_keeps slice s
  | .pauseFrameReceived port bytes fcsOk => execPauseFrameReceived_keeps port bytes fcsOk s
  | .pfcFrameReceived port bytes fcsOk => execPfcFrameReceived_keeps port bytes fcsOk s
  | .pauseExpiry port tc => execPauseExpiry_keeps port tc s
  | .pfcWatchdogExpiry port tc => execPfcWatchdogExpiry_keeps port tc s
  | .pfcStormEndTimer port tc => execPfcStormEndTimer_keeps port tc s
  | .pfcRefreshTimer port => execPfcRefreshTimer_keeps port s
  | .linkDown port => execLinkDown_keeps port s
  | .linkUp port => execLinkUp_keeps port s
  | .ltCapReceived port bytes fcsOk => execLtCapReceived_keeps port bytes fcsOk s
  | .ltReqReceived port bytes fcsOk => execLtReqReceived_keeps port bytes fcsOk s
  | .ltAckReceived port bytes fcsOk => execLtAckReceived_keeps port bytes fcsOk s
  | .ltNakReceived port bytes fcsOk => execLtNakReceived_keeps port bytes fcsOk s
  | .ltSwitchReceived port bytes fcsOk => execLtSwitchReceived_keeps port bytes fcsOk s
  | .ltCapTick port => execLtCapTick_keeps port s
  | .ltCapTimeout port => execLtCapTimeout_keeps port s
  | .ltUtilWindow port txBytes rxBytes => execLtUtilWindow_keeps port txBytes rxBytes s
  | .ltReqTimeout port => execLtReqTimeout_keeps port s
  | .ltSwitchTimeout port aligned => execLtSwitchTimeout_keeps port aligned s
  | .lpiIdleTimer port => execLpiIdleTimer_keeps port s
  | .marginSample lane height width => execMarginSample_keeps lane height width s
  | .datapathFailure lane => execDatapathFailure_keeps lane s
  | .voqRequest slice voq => execVoqRequest_keeps slice voq s
  | .grantDecision port => execGrantDecision_keeps port s
  | .grantReceived slice voq => execGrantReceived_keeps slice voq s
  | .standingCreditTimeout slice voq => execStandingCreditTimeout_keeps slice voq s
  | .creditRecall slice voq => execCreditRecall_keeps slice voq s
  | .creditReturnReceived slice voq => execCreditReturnReceived_keeps slice voq s
  | .cellSend slice => execCellSend_keeps slice s
  | .cellArrived link crcOk => execCellArrived_keeps link crcOk s
  | .linkNakReceived link => execLinkNakReceived_keeps link s
  | .linkAckTimeout link => execLinkAckTimeout_keeps link s
  | .gapTimeout src dst => execGapTimeout_keeps src dst s
  | .releaseCreditReceived src dst => execReleaseCreditReceived_keeps src dst s
  | .planeFault plane cause => execPlaneFault_keeps plane cause s
  | .planeSwitchoverDone => execPlaneSwitchoverDone_keeps s
  | .standbyTestLoss plane => execStandbyTestLoss_keeps plane s
  | .planeResyncDone plane pass => execPlaneResyncDone_keeps plane pass s
  | .transmitDecision port => execTransmitDecision_keeps port s
  | .frameTxComplete port => execFrameTxComplete_keeps port s
  | .shaperRefill node => execShaperRefill_keeps node s
  | .policerRefill pol => execPolicerRefill_keeps pol s
  | .wredAverageUpdate queue => execWredAverageUpdate_keeps queue s
  | .loupeSample slice => execLoupeSample_keeps slice s
  | .spillReadback slice voq => execSpillReadback_keeps slice voq s
  | .gateEvent port => execGateEvent_keeps port s
  | .tsFifoRelay slice => execTsFifoRelay_keeps slice s
  | .ptpMessageProcess port bytes => execPtpMessageProcess_keeps port bytes s
  | .ptpAnnounceTimeout => execPtpAnnounceTimeout_keeps s
  | .learnInsert slice => execLearnInsert_keeps slice s
  | .agingVisit place => execAgingVisit_keeps place s
  | .scrubRead table idx bad => execScrubRead_keeps table idx bad s
  | .parityRestore table idx => execParityRestore_keeps table idx s
  | .tableNormalise => execTableNormalise_keeps s
  | .frerResetTimer stream => execFrerResetTimer_keeps stream s
  | .frerLatentTest stream => execFrerLatentTest_keeps stream s
  | .frerLatentReset stream => execFrerLatentReset_keeps stream s
  | .coreFailure cluster core => execCoreFailure_keeps cluster core s
  | .coreWatchdogExpiry cluster core => execCoreWatchdogExpiry_keeps cluster core s
  | .coreSubstitution cluster bankBad => execCoreSubstitution_keeps cluster bankBad s
  | .spareSelftestDone cluster core pass => execSpareSelftestDone_keeps cluster core pass s
  | .mpHeartbeatTick beatA beatB digestOk => execMpHeartbeatTick_keeps beatA beatB digestOk s
  | .mpFault cause => execMpFault_keeps cause s
  | .mpFailoverDone => execMpFailoverDone_keeps s
  | .mpRestartDone mp pass => execMpRestartDone_keeps mp pass s
  | .skipNoticeArrival cluster => execSkipNoticeArrival_keeps cluster s
  | .fixWorkItemDone cluster core => execFixWorkItemDone_keeps cluster core s
  | .fixLogWriteTimeout cluster pos => execFixLogWriteTimeout_keeps cluster pos s
  | .batchTimer cluster => execBatchTimer_keeps cluster s
  | .batchClose cluster => execBatchClose_keeps cluster s
  | .receiptSigned cluster => execReceiptSigned_keeps cluster s
  | .holdTimerExpiry target => execHoldTimerExpiry_keeps target s
  | .idleSpindownTimer target => execIdleSpindownTimer_keeps target s
  | .parkDrainRelease target => execParkDrainRelease_keeps target s
  | .pollCycleStart bus => execPollCycleStart_keeps bus s
  | .pollSlot bus => execPollSlot_keeps bus s
  | .shelfStatusReceived bus payload => execShelfStatusReceived_keeps bus payload s
  | .shelfAckReceived bus payload => execShelfAckReceived_keeps bus payload s
  | .shelfIdentReceived bus payload => execShelfIdentReceived_keeps bus payload s
  | .shelfReplyTimeout bus => execShelfReplyTimeout_keeps bus s
  | .hpfPointerMismatch fifo => execHpfPointerMismatch_keeps fifo s
  | .hpfPacketCommit fifo => execHpfPacketCommit_keeps fifo s
  | .poolAlloc size block => execPoolAlloc_keeps size block s
  | .poolFree ptr block => execPoolFree_keeps ptr block s
  | .sweepInstant => execSweepInstant_keeps s
  | .sweepDumpWritten => execSweepDumpWritten_keeps s
  | .bakeDrainTimeout => execBakeDrainTimeout_keeps s
  | .bakePrepareDone => execBakePrepareDone_keeps s
  | .bakeInstant => execBakeInstant_keeps s
  | .heartbeatTick => execHeartbeatTick_keeps s
  | .managerLossTimeout => execManagerLossTimeout_keeps s
  | .heartbeat m => execHeartbeat_keeps m s
  | .heartbeatAck m => execHeartbeatAck_keeps m s
  | .received m => execReceived_keeps m s
  | .domainResendTimeout peer id => execDomainResendTimeout_keeps peer id s
  | .forwardReq m => execForwardReq_keeps m s
  | .forwardRsp m => execForwardRsp_keeps m s
  | .prepare m => execPrepare_keeps m s
  | .vote m => execVote_keeps m s
  | .commit m => execCommit_keeps m s
  | .ack m => execAck_keeps m s
  | .go m => execGo_keeps m s
  | .abort m => execAbort_keeps m s
  | .outcomeQuery m => execOutcomeQuery_keeps m s
  | .outcome m => execOutcome_keeps m s
  | .outcomeQueryTimer => execOutcomeQueryTimer_keeps s
  | .voteDeadline => execVoteDeadline_keeps s
  | .ackDeadline => execAckDeadline_keeps s
  | .enrol m idx hash x => execEnrol_keeps m idx hash x s
  | .enrolTick => execEnrolTick_keeps s
  | .keyUpdateTimer peer => execKeyUpdateTimer_keeps peer s
  | .spdmRequest transport m => execSpdmRequest_keeps transport m s
  | .moarasWatchdog cause => execMoarasWatchdog_keeps cause s
  | .moarasRestartDone => execMoarasRestartDone_keeps s
  | .sliceFault slice => execSliceFault_keeps slice s
  | .sliceRestoreDone slice => execSliceRestoreDone_keeps slice s
  | .ltReceiversLocked port => execLtReceiversLocked_keeps port s
  | .ltAlignmentLost port => execLtAlignmentLost_keeps port s
  | .spareDatapathFailed group => execSpareDatapathFailed_keeps group s
  | .shelfReplyDiscarded bus badCrc => execShelfReplyDiscarded_keeps bus badCrc s
  | .dmaReadError ch => execDmaReadError_keeps ch s
  | .pcieLinkUp fn speed width flit => execPcieLinkUp_keeps fn speed width flit s
  | .suppliesValid => execSuppliesValid_keeps s
  | .timeSlewComplete => execTimeSlewComplete_keeps s
  | .ppsOutFall => execPpsOutFall_keeps s
  | .ptpIntervalTick => execPtpIntervalTick_keeps s
  | .lpiWakeComplete port => execLpiWakeComplete_keeps port s

end Sys2Proof.Machine
end

