-- ==== Sys2Proof/Laws/PerInstr.lean ====
section
/-! SUPPORT. Statements about every command as syntax, one lemma per constructor. -/

set_option Elab.async false
set_option linter.all false

namespace Sys2Proof.Laws.BoxesOwned

/-- The request that a mailbox command carries; an event of another kind carries none. -/
def request : Instr → Option Req
  | .memGetMap r => some r
  | .memSetRegions r => some r
  | .memGetHealth r => some r
  | .portSetMode r => some r
  | .portGetStatus r => some r
  | .portSetMac r => some r
  | .portSetFlow r => some r
  | .portSetThrottle r => some r
  | .portSetEee r => some r
  | .portSetLaneMap r => some r
  | .portGetMargin r => some r
  | .portGetCounters r => some r
  | .portSetAdmin r => some r
  | .portSetMargin r => some r
  | .prismSetProfile r => some r
  | .prismSetSelect r => some r
  | .prismSetPort r => some r
  | .prismWriteRule r => some r
  | .prismReadRule r => some r
  | .prismGetCounters r => some r
  | .prismGetRuleCounters r => some r
  | .prismGetEpoch r => some r
  | .fwdInsert r => some r
  | .fwdDelete r => some r
  | .fwdLookup r => some r
  | .fwdSetVlan r => some r
  | .fwdSetRoute r => some r
  | .fwdSetNexthop r => some r
  | .fwdSetEcmp r => some r
  | .fwdSetTemplate r => some r
  | .fwdSetRouter r => some r
  | .fwdSetLearn r => some r
  | .fwdSetAging r => some r
  | .fwdFlush r => some r
  | .fwdGetCounters r => some r
  | .fwdGetOccupancy r => some r
  | .bufSetClass r => some r
  | .bufSetPortClass r => some r
  | .bufSetHeadroom r => some r
  | .bufSetPfcTx r => some r
  | .bufSetWredProfile r => some r
  | .bufSetQueue r => some r
  | .bufGetStatus r => some r
  | .bufGetPort r => some r
  | .bufGetCounters r => some r
  | .bufGetPools r => some r
  | .fabSetParams r => some r
  | .fabSetPort r => some r
  | .fabGetStatus r => some r
  | .fabGetPair r => some r
  | .fabSetPlane r => some r
  | .fabGetCounters r => some r
  | .schedSetNode r => some r
  | .schedGetNode r => some r
  | .polSet r => some r
  | .polGet r => some r
  | .polSetPort r => some r
  | .loupeSetProfile r => some r
  | .loupeSetQueue r => some r
  | .loupeGet r => some r
  | .schedGetCounters r => some r
  | .timeGet r => some r
  | .timeAdjust r => some r
  | .timeSetPtp r => some r
  | .timeSetPort r => some r
  | .timeSetPps r => some r
  | .gateSetList r => some r
  | .gateGetStatus r => some r
  | .timeGetCounters r => some r
  | .frerSetStream r => some r
  | .frerGetStream r => some r
  | .frerSetPort r => some r
  | .frerResetStream r => some r
  | .redGetHealth r => some r
  | .redSwitchover r => some r
  | .redResync r => some r
  | .redGetCounters r => some r
  | .fixSetCluster r => some r
  | .fixGetFlow r => some r
  | .fixGetLog r => some r
  | .fixRelease r => some r
  | .fixFlush r => some r
  | .fixGetReceipt r => some r
  | .leavenGetCluster r => some r
  | .leavenSetEvents r => some r
  | .leavenGetCore r => some r
  | .fixGetCounters r => some r
  | .proofSetClass r => some r
  | .proofSetTarget r => some r
  | .proofSetState r => some r
  | .proofGetTarget r => some r
  | .shelfSet r => some r
  | .shelfGet r => some r
  | .shelfSetBus r => some r
  | .proofGetCounters r => some r
  | .devGetInfo r => some r
  | .devGetResult r => some r
  | .devEcho r => some r
  | .devRestart r => some r
  | .devGetCounters r => some r
  | .bakeOpen r => some r
  | .bakeCheck r => some r
  | .bakeCommit r => some r
  | .bakeAbort r => some r
  | .bakeGetSet r => some r
  | .domSetPort r => some r
  | .domAdmit r => some r
  | .domGetStatus r => some r
  | .domForward r => some r
  | .domBake r => some r
  | .domAbort r => some r
  | .domLeave r => some r
  | .idGetInfo r => some r
  | .idGetCert r => some r
  | .idGetMeasurements r => some r
  | .idWriteImage r => some r
  | .idVerifyImage r => some r
  | .idSetBoot r => some r
  | .idCommitSvn r => some r
  | .idPinManager r => some r
  | .telSetMirror r => some r
  | .telSetPortMirror r => some r
  | .telGetMirror r => some r
  | .telGetDrops r => some r
  | .telGetCounters r => some r
  | .pwrGetStatus r => some r
  | .pwrSetDroop r => some r
  | .pwrSetThermal r => some r
  | .pwrSliceReset r => some r
  | .pwrSlicePark r => some r
  | .pwrRestore r => some r
  | .pwrGetCounters r => some r
  | _ => none

/-- A well-formed command that comes through a mailbox names one of the 32 mailboxes, and what could be read of its payload
has the length its header gives. -/
def Statement (i : Instr) : Prop :=
  i.wf = true → ∀ r, request i = some r → r.box < 32 ∧ (r.readOk = true → r.payload.length = r.len)

theorem of_req {r : Req} (h : r.wf = true) : r.box < 32 ∧ (r.readOk = true → r.payload.length = r.len) := by
  unfold Req.wf at h
  simp only [Bool.and_eq_true, decide_eq_true_eq, Bool.or_eq_true, Bool.not_eq_true', beq_iff_eq] at h
  refine ⟨h.1.1.1.1.1, fun e => ?_⟩
  rcases h.2 with k | k
  · rw [e] at k; cases k
  · exact k

theorem memGetMap (r : Req) : Statement (.memGetMap r) := fun h _ e => Option.some.inj e ▸ of_req h
theorem memSetRegions (r : Req) : Statement (.memSetRegions r) := fun h _ e => Option.some.inj e ▸ of_req h
theorem memGetHealth (r : Req) : Statement (.memGetHealth r) := fun h _ e => Option.some.inj e ▸ of_req h
theorem portSetMode (r : Req) : Statement (.portSetMode r) := fun h _ e => Option.some.inj e ▸ of_req h
theorem portGetStatus (r : Req) : Statement (.portGetStatus r) := fun h _ e => Option.some.inj e ▸ of_req h
theorem portSetMac (r : Req) : Statement (.portSetMac r) := fun h _ e => Option.some.inj e ▸ of_req h
theorem portSetFlow (r : Req) : Statement (.portSetFlow r) := fun h _ e => Option.some.inj e ▸ of_req h
theorem portSetThrottle (r : Req) : Statement (.portSetThrottle r) := fun h _ e => Option.some.inj e ▸ of_req h
theorem portSetEee (r : Req) : Statement (.portSetEee r) := fun h _ e => Option.some.inj e ▸ of_req h
theorem portSetLaneMap (r : Req) : Statement (.portSetLaneMap r) := fun h _ e => Option.some.inj e ▸ of_req h
theorem portGetMargin (r : Req) : Statement (.portGetMargin r) := fun h _ e => Option.some.inj e ▸ of_req h
theorem portGetCounters (r : Req) : Statement (.portGetCounters r) := fun h _ e => Option.some.inj e ▸ of_req h
theorem portSetAdmin (r : Req) : Statement (.portSetAdmin r) := fun h _ e => Option.some.inj e ▸ of_req h
theorem portSetMargin (r : Req) : Statement (.portSetMargin r) := fun h _ e => Option.some.inj e ▸ of_req h
theorem prismSetProfile (r : Req) : Statement (.prismSetProfile r) := fun h _ e => Option.some.inj e ▸ of_req h
theorem prismSetSelect (r : Req) : Statement (.prismSetSelect r) := fun h _ e => Option.some.inj e ▸ of_req h
theorem prismSetPort (r : Req) : Statement (.prismSetPort r) := fun h _ e => Option.some.inj e ▸ of_req h
theorem prismWriteRule (r : Req) : Statement (.prismWriteRule r) := fun h _ e => Option.some.inj e ▸ of_req h
theorem prismReadRule (r : Req) : Statement (.prismReadRule r) := fun h _ e => Option.some.inj e ▸ of_req h
theorem prismGetCounters (r : Req) : Statement (.prismGetCounters r) := fun h _ e => Option.some.inj e ▸ of_req h
theorem prismGetRuleCounters (r : Req) : Statement (.prismGetRuleCounters r) := fun h _ e => Option.some.inj e ▸ of_req h
theorem prismGetEpoch (r : Req) : Statement (.prismGetEpoch r) := fun h _ e => Option.some.inj e ▸ of_req h
theorem fwdInsert (r : Req) : Statement (.fwdInsert r) := fun h _ e => Option.some.inj e ▸ of_req h
theorem fwdDelete (r : Req) : Statement (.fwdDelete r) := fun h _ e => Option.some.inj e ▸ of_req h
theorem fwdLookup (r : Req) : Statement (.fwdLookup r) := fun h _ e => Option.some.inj e ▸ of_req h
theorem fwdSetVlan (r : Req) : Statement (.fwdSetVlan r) := fun h _ e => Option.some.inj e ▸ of_req h
theorem fwdSetRoute (r : Req) : Statement (.fwdSetRoute r) := fun h _ e => Option.some.inj e ▸ of_req h
theorem fwdSetNexthop (r : Req) : Statement (.fwdSetNexthop r) := fun h _ e => Option.some.inj e ▸ of_req h
theorem fwdSetEcmp (r : Req) : Statement (.fwdSetEcmp r) := fun h _ e => Option.some.inj e ▸ of_req h
theorem fwdSetTemplate (r : Req) : Statement (.fwdSetTemplate r) := fun h _ e => Option.some.inj e ▸ of_req h
theorem fwdSetRouter (r : Req) : Statement (.fwdSetRouter r) := fun h _ e => Option.some.inj e ▸ of_req h
theorem fwdSetLearn (r : Req) : Statement (.fwdSetLearn r) := fun h _ e => Option.some.inj e ▸ of_req h
theorem fwdSetAging (r : Req) : Statement (.fwdSetAging r) := fun h _ e => Option.some.inj e ▸ of_req h
theorem fwdFlush (r : Req) : Statement (.fwdFlush r) := fun h _ e => Option.some.inj e ▸ of_req h
theorem fwdGetCounters (r : Req) : Statement (.fwdGetCounters r) := fun h _ e => Option.some.inj e ▸ of_req h
theorem fwdGetOccupancy (r : Req) : Statement (.fwdGetOccupancy r) := fun h _ e => Option.some.inj e ▸ of_req h
theorem bufSetClass (r : Req) : Statement (.bufSetClass r) := fun h _ e => Option.some.inj e ▸ of_req h
theorem bufSetPortClass (r : Req) : Statement (.bufSetPortClass r) := fun h _ e => Option.some.inj e ▸ of_req h
theorem bufSetHeadroom (r : Req) : Statement (.bufSetHeadroom r) := fun h _ e => Option.some.inj e ▸ of_req h
theorem bufSetPfcTx (r : Req) : Statement (.bufSetPfcTx r) := fun h _ e => Option.some.inj e ▸ of_req h
theorem bufSetWredProfile (r : Req) : Statement (.bufSetWredProfile r) := fun h _ e => Option.some.inj e ▸ of_req h
theorem bufSetQueue (r : Req) : Statement (.bufSetQueue r) := fun h _ e => Option.some.inj e ▸ of_req h
theorem bufGetStatus (r : Req) : Statement (.bufGetStatus r) := fun h _ e => Option.some.inj e ▸ of_req h
theorem bufGetPort (r : Req) : Statement (.bufGetPort r) := fun h _ e => Option.some.inj e ▸ of_req h
theorem bufGetCounters (r : Req) : Statement (.bufGetCounters r) := fun h _ e => Option.some.inj e ▸ of_req h
theorem bufGetPools (r : Req) : Statement (.bufGetPools r) := fun h _ e => Option.some.inj e ▸ of_req h
theorem fabSetParams (r : Req) : Statement (.fabSetParams r) := fun h _ e => Option.some.inj e ▸ of_req h
theorem fabSetPort (r : Req) : Statement (.fabSetPort r) := fun h _ e => Option.some.inj e ▸ of_req h
theorem fabGetStatus (r : Req) : Statement (.fabGetStatus r) := fun h _ e => Option.some.inj e ▸ of_req h
theorem fabGetPair (r : Req) : Statement (.fabGetPair r) := fun h _ e => Option.some.inj e ▸ of_req h
theorem fabSetPlane (r : Req) : Statement (.fabSetPlane r) := fun h _ e => Option.some.inj e ▸ of_req h
theorem fabGetCounters (r : Req) : Statement (.fabGetCounters r) := fun h _ e => Option.some.inj e ▸ of_req h
theorem schedSetNode (r : Req) : Statement (.schedSetNode r) := fun h _ e => Option.some.inj e ▸ of_req h
theorem schedGetNode (r : Req) : Statement (.schedGetNode r) := fun h _ e => Option.some.inj e ▸ of_req h
theorem polSet (r : Req) : Statement (.polSet r) := fun h _ e => Option.some.inj e ▸ of_req h
theorem polGet (r : Req) : Statement (.polGet r) := fun h _ e => Option.some.inj e ▸ of_req h
theorem polSetPort (r : Req) : Statement (.polSetPort r) := fun h _ e => Option.some.inj e ▸ of_req h
theorem loupeSetProfile (r : Req) : Statement (.loupeSetProfile r) := fun h _ e => Option.some.inj e ▸ of_req h
theorem loupeSetQueue (r : Req) : Statement (.loupeSetQueue r) := fun h _ e => Option.some.inj e ▸ of_req h
theorem loupeGet (r : Req) : Statement (.loupeGet r) := fun h _ e => Option.some.inj e ▸ of_req h
theorem schedGetCounters (r : Req) : Statement (.schedGetCounters r) := fun h _ e => Option.some.inj e ▸ of_req h
theorem timeGet (r : Req) : Statement (.timeGet r) := fun h _ e => Option.some.inj e ▸ of_req h
theorem timeAdjust (r : Req) : Statement (.timeAdjust r) := fun h _ e => Option.some.inj e ▸ of_req h
theorem timeSetPtp (r : Req) : Statement (.timeSetPtp r) := fun h _ e => Option.some.inj e ▸ of_req h
theorem timeSetPort (r : Req) : Statement (.timeSetPort r) := fun h _ e => Option.some.inj e ▸ of_req h
theorem timeSetPps (r : Req) : Statement (.timeSetPps r) := fun h _ e => Option.some.inj e ▸ of_req h
theorem gateSetList (r : Req) : Statement (.gateSetList r) := fun h _ e => Option.some.inj e ▸ of_req h
theorem gateGetStatus (r : Req) : Statement (.gateGetStatus r) := fun h _ e => Option.some.inj e ▸ of_req h
theorem timeGetCounters (r : Req) : Statement (.timeGetCounters r) := fun h _ e => Option.some.inj e ▸ of_req h
theorem frerSetStream (r : Req) : Statement (.frerSetStream r) := fun h _ e => Option.some.inj e ▸ of_req h
theorem frerGetStream (r : Req) : Statement (.frerGetStream r) := fun h _ e => Option.some.inj e ▸ of_req h
theorem frerSetPort (r : Req) : Statement (.frerSetPort r) := fun h _ e => Option.some.inj e ▸ of_req h
theorem frerResetStream (r : Req) : Statement (.frerResetStream r) := fun h _ e => Option.some.inj e ▸ of_req h
theorem redGetHealth (r : Req) : Statement (.redGetHealth r) := fun h _ e => Option.some.inj e ▸ of_req h
theorem redSwitchover (r : Req) : Statement (.redSwitchover r) := fun h _ e => Option.some.inj e ▸ of_req h
theorem redResync (r : Req) : Statement (.redResync r) := fun h _ e => Option.some.inj e ▸ of_req h
theorem redGetCounters (r : Req) : Statement (.redGetCounters r) := fun h _ e => Option.some.inj e ▸ of_req h
theorem fixSetCluster (r : Req) : Statement (.fixSetCluster r) := fun h _ e => Option.some.inj e ▸ of_req h
theorem fixGetFlow (r : Req) : Statement (.fixGetFlow r) := fun h _ e => Option.some.inj e ▸ of_req h
theorem fixGetLog (r : Req) : Statement (.fixGetLog r) := fun h _ e => Option.some.inj e ▸ of_req h
theorem fixRelease (r : Req) : Statement (.fixRelease r) := fun h _ e => Option.some.inj e ▸ of_req h
theorem fixFlush (r : Req) : Statement (.fixFlush r) := fun h _ e => Option.some.inj e ▸ of_req h
theorem fixGetReceipt (r : Req) : Statement (.fixGetReceipt r) := fun h _ e => Option.some.inj e ▸ of_req h
theorem leavenGetCluster (r : Req) : Statement (.leavenGetCluster r) := fun h _ e => Option.some.inj e ▸ of_req h
theorem leavenSetEvents (r : Req) : Statement (.leavenSetEvents r) := fun h _ e => Option.some.inj e ▸ of_req h
theorem leavenGetCore (r : Req) : Statement (.leavenGetCore r) := fun h _ e => Option.some.inj e ▸ of_req h
theorem fixGetCounters (r : Req) : Statement (.fixGetCounters r) := fun h _ e => Option.some.inj e ▸ of_req h
theorem proofSetClass (r : Req) : Statement (.proofSetClass r) := fun h _ e => Option.some.inj e ▸ of_req h
theorem proofSetTarget (r : Req) : Statement (.proofSetTarget r) := fun h _ e => Option.some.inj e ▸ of_req h
theorem proofSetState (r : Req) : Statement (.proofSetState r) := fun h _ e => Option.some.inj e ▸ of_req h
theorem proofGetTarget (r : Req) : Statement (.proofGetTarget r) := fun h _ e => Option.some.inj e ▸ of_req h
theorem shelfSet (r : Req) : Statement (.shelfSet r) := fun h _ e => Option.some.inj e ▸ of_req h
theorem shelfGet (r : Req) : Statement (.shelfGet r) := fun h _ e => Option.some.inj e ▸ of_req h
theorem shelfSetBus (r : Req) : Statement (.shelfSetBus r) := fun h _ e => Option.some.inj e ▸ of_req h
theorem proofGetCounters (r : Req) : Statement (.proofGetCounters r) := fun h _ e => Option.some.inj e ▸ of_req h
theorem devGetInfo (r : Req) : Statement (.devGetInfo r) := fun h _ e => Option.some.inj e ▸ of_req h
theorem devGetResult (r : Req) : Statement (.devGetResult r) := fun h _ e => Option.some.inj e ▸ of_req h
theorem devEcho (r : Req) : Statement (.devEcho r) := fun h _ e => Option.some.inj e ▸ of_req h
theorem devRestart (r : Req) : Statement (.devRestart r) := fun h _ e => Option.some.inj e ▸ of_req h
theorem devGetCounters (r : Req) : Statement (.devGetCounters r) := fun h _ e => Option.some.inj e ▸ of_req h
theorem bakeOpen (r : Req) : Statement (.bakeOpen r) := fun h _ e => Option.some.inj e ▸ of_req h
theorem bakeCheck (r : Req) : Statement (.bakeCheck r) := fun h _ e => Option.some.inj e ▸ of_req h
theorem bakeCommit (r : Req) : Statement (.bakeCommit r) := fun h _ e => Option.some.inj e ▸ of_req h
theorem bakeAbort (r : Req) : Statement (.bakeAbort r) := fun h _ e => Option.some.inj e ▸ of_req h
theorem bakeGetSet (r : Req) : Statement (.bakeGetSet r) := fun h _ e => Option.some.inj e ▸ of_req h
theorem domSetPort (r : Req) : Statement (.domSetPort r) := fun h _ e => Option.some.inj e ▸ of_req h
theorem domAdmit (r : Req) : Statement (.domAdmit r) := fun h _ e => Option.some.inj e ▸ of_req h
theorem domGetStatus (r : Req) : Statement (.domGetStatus r) := fun h _ e => Option.some.inj e ▸ of_req h
theorem domForward (r : Req) : Statement (.domForward r) := fun h _ e => Option.some.inj e ▸ of_req h
theorem domBake (r : Req) : Statement (.domBake r) := fun h _ e => Option.some.inj e ▸ of_req h
theorem domAbort (r : Req) : Statement (.domAbort r) := fun h _ e => Option.some.inj e ▸ of_req h
theorem domLeave (r : Req) : Statement (.domLeave r) := fun h _ e => Option.some.inj e ▸ of_req h
theorem idGetInfo (r : Req) : Statement (.idGetInfo r) := fun h _ e => Option.some.inj e ▸ of_req h
theorem idGetCert (r : Req) : Statement (.idGetCert r) := fun h _ e => Option.some.inj e ▸ of_req h
theorem idGetMeasurements (r : Req) : Statement (.idGetMeasurements r) := fun h _ e => Option.some.inj e ▸ of_req h
theorem idWriteImage (r : Req) : Statement (.idWriteImage r) := fun h _ e => Option.some.inj e ▸ of_req h
theorem idVerifyImage (r : Req) : Statement (.idVerifyImage r) := fun h _ e => Option.some.inj e ▸ of_req h
theorem idSetBoot (r : Req) : Statement (.idSetBoot r) := fun h _ e => Option.some.inj e ▸ of_req h
theorem idCommitSvn (r : Req) : Statement (.idCommitSvn r) := fun h _ e => Option.some.inj e ▸ of_req h
theorem idPinManager (r : Req) : Statement (.idPinManager r) := fun h _ e => Option.some.inj e ▸ of_req h
theorem telSetMirror (r : Req) : Statement (.telSetMirror r) := fun h _ e => Option.some.inj e ▸ of_req h
theorem telSetPortMirror (r : Req) : Statement (.telSetPortMirror r) := fun h _ e => Option.some.inj e ▸ of_req h
theorem telGetMirror (r : Req) : Statement (.telGetMirror r) := fun h _ e => Option.some.inj e ▸ of_req h
theorem telGetDrops (r : Req) : Statement (.telGetDrops r) := fun h _ e => Option.some.inj e ▸ of_req h
theorem telGetCounters (r : Req) : Statement (.telGetCounters r) := fun h _ e => Option.some.inj e ▸ of_req h
theorem pwrGetStatus (r : Req) : Statement (.pwrGetStatus r) := fun h _ e => Option.some.inj e ▸ of_req h
theorem pwrSetDroop (r : Req) : Statement (.pwrSetDroop r) := fun h _ e => Option.some.inj e ▸ of_req h
theorem pwrSetThermal (r : Req) : Statement (.pwrSetThermal r) := fun h _ e => Option.some.inj e ▸ of_req h
theorem pwrSliceReset (r : Req) : Statement (.pwrSliceReset r) := fun h _ e => Option.some.inj e ▸ of_req h
theorem pwrSlicePark (r : Req) : Statement (.pwrSlicePark r) := fun h _ e => Option.some.inj e ▸ of_req h
theorem pwrRestore (r : Req) : Statement (.pwrRestore r) := fun h _ e => Option.some.inj e ▸ of_req h
theorem pwrGetCounters (r : Req) : Statement (.pwrGetCounters r) := fun h _ e => Option.some.inj e ▸ of_req h
theorem mbxDoorbell (box : Nat) (ind : Option (List Byte)) : Statement (.mbxDoorbell box ind) := fun _ _ e => nomatch e
theorem mbxRelease (box : Nat) : Statement (.mbxRelease box) := fun _ _ e => nomatch e
theorem mbxAreaWrite (box : Nat) (off : Nat) (bytes : List Byte) : Statement (.mbxAreaWrite box off bytes) := fun _ _ e => nomatch e
theorem timeCapture (fn : Nat) : Statement (.timeCapture fn) := fun _ _ e => nomatch e
theorem txtsPop (fn : Nat) (slice : Nat) : Statement (.txtsPop fn slice) := fun _ _ e => nomatch e
theorem dmaStart (fn : Nat) (ch : Nat) (w : BitVec 64) : Statement (.dmaStart fn ch w) := fun _ _ e => nomatch e
theorem dmaStop (fn : Nat) (ch : Nat) (w : BitVec 64) : Statement (.dmaStop fn ch w) := fun _ _ e => nomatch e
theorem dmaAbort (fn : Nat) (ch : Nat) (w : BitVec 64) : Statement (.dmaAbort fn ch w) := fun _ _ e => nomatch e
theorem dmaDoorbell (fn : Nat) (ch : Nat) (w : BitVec 64) : Statement (.dmaDoorbell fn ch w) := fun _ _ e => nomatch e
theorem descriptorFetched (ch : Nat) (bytes : List Byte) : Statement (.descriptorFetched ch bytes) := fun _ _ e => nomatch e
theorem staleDescReread (ch : Nat) (bytes : List Byte) : Statement (.staleDescReread ch bytes) := fun _ _ e => nomatch e
theorem dmaTransferDone (ch : Nat) (err : Nat) (data : List Byte) : Statement (.dmaTransferDone ch err data) := fun _ _ e => nomatch e
theorem strictFlushDone (ch : Nat) : Statement (.strictFlushDone ch) := fun _ _ e => nomatch e
theorem tailRefetched (ch : Nat) (bytes : List Byte) : Statement (.tailRefetched ch bytes) := fun _ _ e => nomatch e
theorem intPendingClear (fn : Nat) (k : Nat) (w : BitVec 64) (same : BitVec 64) : Statement (.intPendingClear fn k w same) := fun _ _ e => nomatch e
theorem intMapWrite (fn : Nat) (n : Nat) (w : BitVec 64) : Statement (.intMapWrite fn n w) := fun _ _ e => nomatch e
theorem msixUnmask (fn : Nat) (vec : Nat) : Statement (.msixUnmask fn vec) := fun _ _ e => nomatch e
theorem reservedWrite (fn : Nat) (off : Nat) (size : Nat) : Statement (.reservedWrite fn off size) := fun _ _ e => nomatch e
theorem badSizeAccess (fn : Nat) (off : Nat) (size : Nat) (write : Bool) : Statement (.badSizeAccess fn off size write) := fun _ _ e => nomatch e
theorem registerWrite (fn : Nat) (off : Nat) (size : Nat) (w : BitVec 64) : Statement (.registerWrite fn off size w) := fun _ _ e => nomatch e
theorem sweepSnap (fn : Nat) (w : BitVec 64) : Statement (.sweepSnap fn w) := fun _ _ e => nomatch e
theorem sweepRingReset (fn : Nat) (loupe : Bool) (w : BitVec 64) : Statement (.sweepRingReset fn loupe w) := fun _ _ e => nomatch e
theorem sweepHeadWrite (fn : Nat) (loupe : Bool) (w : BitVec 64) : Statement (.sweepHeadWrite fn loupe w) := fun _ _ e => nomatch e
theorem evtRingReset (fn : Nat) (w : BitVec 64) : Statement (.evtRingReset fn w) := fun _ _ e => nomatch e
theorem evtEnableWrite (fn : Nat) (w : BitVec 64) : Statement (.evtEnableWrite fn w) := fun _ _ e => nomatch e
theorem evtHeadWrite (fn : Nat) (w : BitVec 64) : Statement (.evtHeadWrite fn w) := fun _ _ e => nomatch e
theorem porstNLow : Statement (.porstNLow) := fun _ _ e => nomatch e
theorem porstNRise (role : Nat) : Statement (.porstNRise role) := fun _ _ e => nomatch e
theorem wrstNLow : Statement (.wrstNLow) := fun _ _ e => nomatch e
theorem wrstNRise : Statement (.wrstNRise) := fun _ _ e => nomatch e
theorem moarasBootDone : Statement (.moarasBootDone) := fun _ _ e => nomatch e
theorem supplyFault : Statement (.supplyFault) := fun _ _ e => nomatch e
theorem pcieFunctionReset (fn : Nat) (kind : Nat) : Statement (.pcieFunctionReset fn kind) := fun _ _ e => nomatch e
theorem hostLinkLoss (fn : Nat) : Statement (.hostLinkLoss fn) := fun _ _ e => nomatch e
theorem d3hotEntry (fn : Nat) : Statement (.d3hotEntry fn) := fun _ _ e => nomatch e
theorem droopTrip (slice : Nat) : Statement (.droopTrip slice) := fun _ _ e => nomatch e
theorem stretchHoldEnd (slice : Nat) (recovered : Bool) : Statement (.stretchHoldEnd slice recovered) := fun _ _ e => nomatch e
theorem thermalSample (readings : List Int) : Statement (.thermalSample readings) := fun _ _ e => nomatch e
theorem thermalClearTimer (trip : Bool) : Statement (.thermalClearTimer trip) := fun _ _ e => nomatch e
theorem lifeHourTick (avg : Int) : Statement (.lifeHourTick avg) := fun _ _ e => nomatch e
theorem hbmCorrectableError (stack : Nat) (pc : Nat) (row : Nat) : Statement (.hbmCorrectableError stack pc row) := fun _ _ e => nomatch e
theorem hbmUncorrectableRead (stack : Nat) (pc : Nat) (region : Nat) (item : Nat) : Statement (.hbmUncorrectableRead stack pc region item) := fun _ _ e => nomatch e
theorem hbmPcSpareDone (stack : Nat) : Statement (.hbmPcSpareDone stack) := fun _ _ e => nomatch e
theorem ppsInEdge : Statement (.ppsInEdge) := fun _ _ e => nomatch e
theorem ppsInTimeout : Statement (.ppsInTimeout) := fun _ _ e => nomatch e
theorem ppsOutEdge : Statement (.ppsOutEdge) := fun _ _ e => nomatch e
theorem frameIngress (port : Nat) (bytes : List Byte) (full : Bool) : Statement (.frameIngress port bytes full) := fun _ _ e => nomatch e
theorem frameTailReceived (pkt : Nat) (fcsOk : Bool) : Statement (.frameTailReceived pkt fcsOk) := fun _ _ e => nomatch e
theorem recirculationPass (slice : Nat) : Statement (.recirculationPass slice) := fun _ _ e => nomatch e
theorem mirrorQueueAdmit (slice : Nat) : Statement (.mirrorQueueAdmit slice) := fun _ _ e => nomatch e
theorem pauseFrameReceived (port : Nat) (bytes : List Byte) (fcsOk : Bool) : Statement (.pauseFrameReceived port bytes fcsOk) := fun _ _ e => nomatch e
theorem pfcFrameReceived (port : Nat) (bytes : List Byte) (fcsOk : Bool) : Statement (.pfcFrameReceived port bytes fcsOk) := fun _ _ e => nomatch e
theorem pauseExpiry (port : Nat) (tc : Nat) : Statement (.pauseExpiry port tc) := fun _ _ e => nomatch e
theorem pfcWatchdogExpiry (port : Nat) (tc : Nat) : Statement (.pfcWatchdogExpiry port tc) := fun _ _ e => nomatch e
theorem pfcStormEndTimer (port : Nat) (tc : Nat) : Statement (.pfcStormEndTimer port tc) := fun _ _ e => nomatch e
theorem pfcRefreshTimer (port : Nat) : Statement (.pfcRefreshTimer port) := fun _ _ e => nomatch e
theorem linkDown (port : Nat) : Statement (.linkDown port) := fun _ _ e => nomatch e
theorem linkUp (port : Nat) : Statement (.linkUp port) := fun _ _ e => nomatch e
theorem ltCapReceived (port : Nat) (bytes : List Byte) (fcsOk : Bool) : Statement (.ltCapReceived port bytes fcsOk) := fun _ _ e => nomatch e
theorem ltReqReceived (port : Nat) (bytes : List Byte) (fcsOk : Bool) : Statement (.ltReqReceived port bytes fcsOk) := fun _ _ e => nomatch e
theorem ltAckReceived (port : Nat) (bytes : List Byte) (fcsOk : Bool) : Statement (.ltAckReceived port bytes fcsOk) := fun _ _ e => nomatch e
theorem ltNakReceived (port : Nat) (bytes : List Byte) (fcsOk : Bool) : Statement (.ltNakReceived port bytes fcsOk) := fun _ _ e => nomatch e
theorem ltSwitchReceived (port : Nat) (bytes : List Byte) (fcsOk : Bool) : Statement (.ltSwitchReceived port bytes fcsOk) := fun _ _ e => nomatch e
theorem ltCapTick (port : Nat) : Statement (.ltCapTick port) := fun _ _ e => nomatch e
theorem ltCapTimeout (port : Nat) : Statement (.ltCapTimeout port) := fun _ _ e => nomatch e
theorem ltUtilWindow (port : Nat) (txBytes : Nat) (rxBytes : Nat) : Statement (.ltUtilWindow port txBytes rxBytes) := fun _ _ e => nomatch e
theorem ltReqTimeout (port : Nat) : Statement (.ltReqTimeout port) := fun _ _ e => nomatch e
theorem ltSwitchTimeout (port : Nat) (aligned : Bool) : Statement (.ltSwitchTimeout port aligned) := fun _ _ e => nomatch e
theorem lpiIdleTimer (port : Nat) : Statement (.lpiIdleTimer port) := fun _ _ e => nomatch e
theorem marginSample (lane : Nat) (height : Nat) (width : Nat) : Statement (.marginSample lane height width) := fun _ _ e => nomatch e
theorem datapathFailure (lane : Nat) : Statement (.datapathFailure lane) := fun _ _ e => nomatch e
theorem voqRequest (slice : Nat) (voq : Nat) : Statement (.voqRequest slice voq) := fun _ _ e => nomatch e
theorem grantDecision (port : Nat) : Statement (.grantDecision port) := fun _ _ e => nomatch e
theorem grantReceived (slice : Nat) (voq : Nat) : Statement (.grantReceived slice voq) := fun _ _ e => nomatch e
theorem standingCreditTimeout (slice : Nat) (voq : Nat) : Statement (.standingCreditTimeout slice voq) := fun _ _ e => nomatch e
theorem creditRecall (slice : Nat) (voq : Nat) : Statement (.creditRecall slice voq) := fun _ _ e => nomatch e
theorem creditReturnReceived (slice : Nat) (voq : Nat) : Statement (.creditReturnReceived slice voq) := fun _ _ e => nomatch e
theorem cellSend (slice : Nat) : Statement (.cellSend slice) := fun _ _ e => nomatch e
theorem cellArrived (link : Nat) (crcOk : Bool) : Statement (.cellArrived link crcOk) := fun _ _ e => nomatch e
theorem linkNakReceived (link : Nat) : Statement (.linkNakReceived link) := fun _ _ e => nomatch e
theorem linkAckTimeout (link : Nat) : Statement (.linkAckTimeout link) := fun _ _ e => nomatch e
theorem gapTimeout (src : Nat) (dst : Nat) : Statement (.gapTimeout src dst) := fun _ _ e => nomatch e
theorem releaseCreditReceived (src : Nat) (dst : Nat) : Statement (.releaseCreditReceived src dst) := fun _ _ e => nomatch e
theorem planeFault (plane : Nat) (cause : Nat) : Statement (.planeFault plane cause) := fun _ _ e => nomatch e
theorem planeSwitchoverDone : Statement (.planeSwitchoverDone) := fun _ _ e => nomatch e
theorem standbyTestLoss (plane : Nat) : Statement (.standbyTestLoss plane) := fun _ _ e => nomatch e
theorem planeResyncDone (plane : Nat) (pass : Bool) : Statement (.planeResyncDone plane pass) := fun _ _ e => nomatch e
theorem transmitDecision (port : Nat) : Statement (.transmitDecision port) := fun _ _ e => nomatch e
theorem frameTxComplete (port : Nat) : Statement (.frameTxComplete port) := fun _ _ e => nomatch e
theorem shaperRefill (node : Nat) : Statement (.shaperRefill node) := fun _ _ e => nomatch e
theorem policerRefill (pol : Nat) : Statement (.policerRefill pol) := fun _ _ e => nomatch e
theorem wredAverageUpdate (queue : Nat) : Statement (.wredAverageUpdate queue) := fun _ _ e => nomatch e
theorem loupeSample (slice : Nat) : Statement (.loupeSample slice) := fun _ _ e => nomatch e
theorem spillReadback (slice : Nat) (voq : Nat) : Statement (.spillReadback slice voq) := fun _ _ e => nomatch e
theorem gateEvent (port : Nat) : Statement (.gateEvent port) := fun _ _ e => nomatch e
theorem tsFifoRelay (slice : Nat) : Statement (.tsFifoRelay slice) := fun _ _ e => nomatch e
theorem ptpMessageProcess (port : Nat) (bytes : List Byte) : Statement (.ptpMessageProcess port bytes) := fun _ _ e => nomatch e
theorem ptpAnnounceTimeout : Statement (.ptpAnnounceTimeout) := fun _ _ e => nomatch e
theorem learnInsert (slice : Nat) : Statement (.learnInsert slice) := fun _ _ e => nomatch e
theorem agingVisit (place : Nat) : Statement (.agingVisit place) := fun _ _ e => nomatch e
theorem scrubRead (table : Nat) (idx : Nat) (bad : Bool) : Statement (.scrubRead table idx bad) := fun _ _ e => nomatch e
theorem parityRestore (table : Nat) (idx : Nat) : Statement (.parityRestore table idx) := fun _ _ e => nomatch e
theorem tableNormalise : Statement (.tableNormalise) := fun _ _ e => nomatch e
theorem frerResetTimer (stream : Nat) : Statement (.frerResetTimer stream) := fun _ _ e => nomatch e
theorem frerLatentTest (stream : Nat) : Statement (.frerLatentTest stream) := fun _ _ e => nomatch e
theorem frerLatentReset (stream : Nat) : Statement (.frerLatentReset stream) := fun _ _ e => nomatch e
theorem coreFailure (cluster : Nat) (core : Nat) : Statement (.coreFailure cluster core) := fun _ _ e => nomatch e
theorem coreWatchdogExpiry (cluster : Nat) (core : Nat) : Statement (.coreWatchdogExpiry cluster core) := fun _ _ e => nomatch e
theorem coreSubstitution (cluster : Nat) (bankBad : Bool) : Statement (.coreSubstitution cluster bankBad) := fun _ _ e => nomatch e
theorem spareSelftestDone (cluster : Nat) (core : Nat) (pass : Bool) : Statement (.spareSelftestDone cluster core pass) := fun _ _ e => nomatch e
theorem mpHeartbeatTick (beatA : Bool) (beatB : Bool) (digestOk : Bool) : Statement (.mpHeartbeatTick beatA beatB digestOk) := fun _ _ e => nomatch e
theorem mpFault (cause : Nat) : Statement (.mpFault cause) := fun _ _ e => nomatch e
theorem mpFailoverDone : Statement (.mpFailoverDone) := fun _ _ e => nomatch e
theorem mpRestartDone (mp : Nat) (pass : Bool) : Statement (.mpRestartDone mp pass) := fun _ _ e => nomatch e
theorem skipNoticeArrival (cluster : Nat) : Statement (.skipNoticeArrival cluster) := fun _ _ e => nomatch e
theorem fixWorkItemDone (cluster : Nat) (core : Nat) : Statement (.fixWorkItemDone cluster core) := fun _ _ e => nomatch e
theorem fixLogWriteTimeout (cluster : Nat) (pos : Nat) : Statement (.fixLogWriteTimeout cluster pos) := fun _ _ e => nomatch e
theorem batchTimer (cluster : Nat) : Statement (.batchTimer cluster) := fun _ _ e => nomatch e
theorem batchClose (cluster : Nat) : Statement (.batchClose cluster) := fun _ _ e => nomatch e
theorem receiptSigned (cluster : Nat) : Statement (.receiptSigned cluster) := fun _ _ e => nomatch e
theorem holdTimerExpiry (target : Nat) : Statement (.holdTimerExpiry target) := fun _ _ e => nomatch e
theorem idleSpindownTimer (target : Nat) : Statement (.idleSpindownTimer target) := fun _ _ e => nomatch e
theorem parkDrainRelease (target : Nat) : Statement (.parkDrainRelease target) := fun _ _ e => nomatch e
theorem pollCycleStart (bus : Nat) : Statement (.pollCycleStart bus) := fun _ _ e => nomatch e
theorem pollSlot (bus : Nat) : Statement (.pollSlot bus) := fun _ _ e => nomatch e
theorem shelfStatusReceived (bus : Nat) (payload : List Byte) : Statement (.shelfStatusReceived bus payload) := fun _ _ e => nomatch e
theorem shelfAckReceived (bus : Nat) (payload : List Byte) : Statement (.shelfAckReceived bus payload) := fun _ _ e => nomatch e
theorem shelfIdentReceived (bus : Nat) (payload : List Byte) : Statement (.shelfIdentReceived bus payload) := fun _ _ e => nomatch e
theorem shelfReplyTimeout (bus : Nat) : Statement (.shelfReplyTimeout bus) := fun _ _ e => nomatch e
theorem hpfPointerMismatch (fifo : Nat) : Statement (.hpfPointerMismatch fifo) := fun _ _ e => nomatch e
theorem hpfPacketCommit (fifo : Nat) : Statement (.hpfPacketCommit fifo) := fun _ _ e => nomatch e
theorem poolAlloc (size : Nat) (block : Nat) : Statement (.poolAlloc size block) := fun _ _ e => nomatch e
theorem poolFree (ptr : Nat) (block : Nat) : Statement (.poolFree ptr block) := fun _ _ e => nomatch e
theorem sweepInstant : Statement (.sweepInstant) := fun _ _ e => nomatch e
theorem sweepDumpWritten : Statement (.sweepDumpWritten) := fun _ _ e => nomatch e
theorem bakeDrainTimeout : Statement (.bakeDrainTimeout) := fun _ _ e => nomatch e
theorem bakePrepareDone : Statement (.bakePrepareDone) := fun _ _ e => nomatch e
theorem bakeInstant : Statement (.bakeInstant) := fun _ _ e => nomatch e
theorem heartbeatTick : Statement (.heartbeatTick) := fun _ _ e => nomatch e
theorem managerLossTimeout : Statement (.managerLossTimeout) := fun _ _ e => nomatch e
theorem heartbeat (m : DomIn) : Statement (.heartbeat m) := fun _ _ e => nomatch e
theorem heartbeatAck (m : DomIn) : Statement (.heartbeatAck m) := fun _ _ e => nomatch e
theorem received (m : DomIn) : Statement (.received m) := fun _ _ e => nomatch e
theorem domainResendTimeout (peer : Nat) (id : Nat) : Statement (.domainResendTimeout peer id) := fun _ _ e => nomatch e
theorem forwardReq (m : DomIn) : Statement (.forwardReq m) := fun _ _ e => nomatch e
theorem forwardRsp (m : DomIn) : Statement (.forwardRsp m) := fun _ _ e => nomatch e
theorem prepare (m : DomIn) : Statement (.prepare m) := fun _ _ e => nomatch e
theorem vote (m : DomIn) : Statement (.vote m) := fun _ _ e => nomatch e
theorem commit (m : DomIn) : Statement (.commit m) := fun _ _ e => nomatch e
theorem ack (m : DomIn) : Statement (.ack m) := fun _ _ e => nomatch e
theorem go (m : DomIn) : Statement (.go m) := fun _ _ e => nomatch e
theorem abort (m : DomIn) : Statement (.abort m) := fun _ _ e => nomatch e
theorem outcomeQuery (m : DomIn) : Statement (.outcomeQuery m) := fun _ _ e => nomatch e
theorem outcome (m : DomIn) : Statement (.outcome m) := fun _ _ e => nomatch e
theorem outcomeQueryTimer : Statement (.outcomeQueryTimer) := fun _ _ e => nomatch e
theorem voteDeadline : Statement (.voteDeadline) := fun _ _ e => nomatch e
theorem ackDeadline : Statement (.ackDeadline) := fun _ _ e => nomatch e
theorem enrol (m : DomIn) (idx : Nat) (hash : List Byte) (x : EnrolShown) : Statement (.enrol m idx hash x) := fun _ _ e => nomatch e
theorem enrolTick : Statement (.enrolTick) := fun _ _ e => nomatch e
theorem keyUpdateTimer (peer : Nat) : Statement (.keyUpdateTimer peer) := fun _ _ e => nomatch e
theorem spdmRequest (transport : Nat) (m : SpdmIn) : Statement (.spdmRequest transport m) := fun _ _ e => nomatch e
theorem moarasWatchdog (cause : Nat) : Statement (.moarasWatchdog cause) := fun _ _ e => nomatch e
theorem moarasRestartDone : Statement (.moarasRestartDone) := fun _ _ e => nomatch e
theorem sliceFault (slice : Nat) : Statement (.sliceFault slice) := fun _ _ e => nomatch e
theorem sliceRestoreDone (slice : Nat) : Statement (.sliceRestoreDone slice) := fun _ _ e => nomatch e
theorem ltReceiversLocked (port : Nat) : Statement (.ltReceiversLocked port) := fun _ _ e => nomatch e
theorem ltAlignmentLost (port : Nat) : Statement (.ltAlignmentLost port) := fun _ _ e => nomatch e
theorem spareDatapathFailed (group : Nat) : Statement (.spareDatapathFailed group) := fun _ _ e => nomatch e
theorem shelfReplyDiscarded (bus : Nat) (badCrc : Bool) : Statement (.shelfReplyDiscarded bus badCrc) := fun _ _ e => nomatch e
theorem dmaReadError (ch : Nat) : Statement (.dmaReadError ch) := fun _ _ e => nomatch e
theorem pcieLinkUp (fn : Nat) (speed : Nat) (width : Nat) (flit : Bool) : Statement (.pcieLinkUp fn speed width flit) := fun _ _ e => nomatch e
theorem suppliesValid : Statement (.suppliesValid) := fun _ _ e => nomatch e
theorem timeSlewComplete : Statement (.timeSlewComplete) := fun _ _ e => nomatch e
theorem ppsOutFall : Statement (.ppsOutFall) := fun _ _ e => nomatch e
theorem ptpIntervalTick : Statement (.ptpIntervalTick) := fun _ _ e => nomatch e
theorem lpiWakeComplete (port : Nat) : Statement (.lpiWakeComplete port) := fun _ _ e => nomatch e

end Sys2Proof.Laws.BoxesOwned
end

