-- ==== Sys2Proof/Laws/State.lean ====
section
/-! SUPPORT. What each update of the state leaves in every field and in every table entry: the read-back of its own entry, and
the fields and entries it leaves alone. -/

set_option Elab.async false
set_option linter.all false

namespace Sys2Proof.Machine

@[simp] theorem State.updPort_rest (s : State) (i : Nat) (f : PortSt → PortSt) :
    (s.updPort i f).time = s.time ∧ (s.updPort i f).up = s.up ∧ (s.updPort i f).ptp = s.ptp ∧
    (s.updPort i f).tsFifos = s.tsFifos ∧ (s.updPort i f).gates = s.gates ∧ (s.updPort i f).lanes = s.lanes ∧
    (s.updPort i f).groups = s.groups ∧ (s.updPort i f).prism = s.prism ∧ (s.updPort i f).fwd = s.fwd ∧
    (s.updPort i f).buf = s.buf ∧ (s.updPort i f).pkts = s.pkts ∧ (s.updPort i f).nextPkt = s.nextPkt ∧
    (s.updPort i f).fab = s.fab ∧ (s.updPort i f).sched = s.sched ∧ (s.updPort i f).frer = s.frer ∧
    (s.updPort i f).leaven = s.leaven ∧ (s.updPort i f).proof = s.proof ∧ (s.updPort i f).evt = s.evt ∧
    (s.updPort i f).swp = s.swp ∧ (s.updPort i f).tel = s.tel ∧ (s.updPort i f).mbx = s.mbx ∧
    (s.updPort i f).bake = s.bake ∧ (s.updPort i f).ident = s.ident ∧ (s.updPort i f).pwr = s.pwr ∧
    (s.updPort i f).host = s.host ∧ (s.updPort i f).out = s.out ∧ (s.updPort i f).free = s.free ∧
    (s.updPort i f).pending = s.pending ∧ (s.updPort i f).lane = s.lane ∧ (s.updPort i f).group = s.group ∧
    (s.updPort i f).gate = s.gate ∧ (s.updPort i f).tsFifo = s.tsFifo ∧ (s.updPort i f).stream = s.stream ∧
    (s.updPort i f).cluster = s.cluster ∧ (s.updPort i f).fix = s.fix ∧ (s.updPort i f).flow = s.flow ∧
    (s.updPort i f).target = s.target ∧ (s.updPort i f).drop = s.drop ∧ (s.updPort i f).bus = s.bus ∧
    (s.updPort i f).pclass = s.pclass ∧ (s.updPort i f).plane = s.plane ∧ (s.updPort i f).pair = s.pair ∧
    (s.updPort i f).voq = s.voq ∧ (s.updPort i f).fabPort = s.fabPort ∧ (s.updPort i f).classCfg = s.classCfg ∧
    (s.updPort i f).portClass = s.portClass ∧ (s.updPort i f).queue = s.queue ∧ (s.updPort i f).chan = s.chan ∧
    (s.updPort i f).fifo = s.fifo ∧ (s.updPort i f).sliceSt = s.sliceSt ∧ (s.updPort i f).stack = s.stack ∧
    (s.updPort i f).mp = s.mp ∧ (s.updPort i f).mirrorOf = s.mirrorOf ∧ (s.updPort i f).peer = s.peer ∧
    (s.updPort i f).box = s.box ∧ (s.updPort i f).pkt = s.pkt ∧ (s.updPort i f).node = s.node ∧
    (s.updPort i f).policer = s.policer := by
  refine ⟨?_, ?_, ?_, ?_, ?_, ?_, ?_, ?_, ?_, ?_, ?_, ?_, ?_, ?_, ?_, ?_, ?_, ?_, ?_, ?_, ?_, ?_, ?_, ?_, ?_, ?_, ?_, ?_, ?_, ?_, ?_, ?_, ?_, ?_, ?_, ?_, ?_, ?_, ?_, ?_, ?_, ?_, ?_, ?_, ?_, ?_, ?_, ?_, ?_, ?_, ?_, ?_, ?_, ?_, ?_, ?_, ?_, ?_⟩ <;> rfl

@[simp] theorem State.port_updPort (s : State) (i j : Nat) (f : PortSt → PortSt) :
    (s.updPort i f).port j = if i = j then f (s.port i) else s.port j := by
  unfold State.port State.updPort
  by_cases h : i = j
  · subst h; simp [Tab.upd, Tab.get_set]
  · simp [Tab.upd, Tab.get_set_other, h]

theorem State.port_updPort_same (s : State) (i : Nat) (f : PortSt → PortSt) :
    (s.updPort i f).port i = f (s.port i) := by simp

@[simp] theorem State.updLane_rest (s : State) (i : Nat) (f : LaneSt → LaneSt) :
    (s.updLane i f).time = s.time ∧ (s.updLane i f).up = s.up ∧ (s.updLane i f).ptp = s.ptp ∧
    (s.updLane i f).tsFifos = s.tsFifos ∧ (s.updLane i f).gates = s.gates ∧ (s.updLane i f).groups = s.groups ∧
    (s.updLane i f).ports = s.ports ∧ (s.updLane i f).prism = s.prism ∧ (s.updLane i f).fwd = s.fwd ∧
    (s.updLane i f).buf = s.buf ∧ (s.updLane i f).pkts = s.pkts ∧ (s.updLane i f).nextPkt = s.nextPkt ∧
    (s.updLane i f).fab = s.fab ∧ (s.updLane i f).sched = s.sched ∧ (s.updLane i f).frer = s.frer ∧
    (s.updLane i f).leaven = s.leaven ∧ (s.updLane i f).proof = s.proof ∧ (s.updLane i f).evt = s.evt ∧
    (s.updLane i f).swp = s.swp ∧ (s.updLane i f).tel = s.tel ∧ (s.updLane i f).mbx = s.mbx ∧
    (s.updLane i f).bake = s.bake ∧ (s.updLane i f).ident = s.ident ∧ (s.updLane i f).pwr = s.pwr ∧
    (s.updLane i f).host = s.host ∧ (s.updLane i f).out = s.out ∧ (s.updLane i f).free = s.free ∧
    (s.updLane i f).pending = s.pending ∧ (s.updLane i f).port = s.port ∧ (s.updLane i f).group = s.group ∧
    (s.updLane i f).gate = s.gate ∧ (s.updLane i f).tsFifo = s.tsFifo ∧ (s.updLane i f).stream = s.stream ∧
    (s.updLane i f).cluster = s.cluster ∧ (s.updLane i f).fix = s.fix ∧ (s.updLane i f).flow = s.flow ∧
    (s.updLane i f).target = s.target ∧ (s.updLane i f).drop = s.drop ∧ (s.updLane i f).bus = s.bus ∧
    (s.updLane i f).pclass = s.pclass ∧ (s.updLane i f).plane = s.plane ∧ (s.updLane i f).pair = s.pair ∧
    (s.updLane i f).voq = s.voq ∧ (s.updLane i f).fabPort = s.fabPort ∧ (s.updLane i f).classCfg = s.classCfg ∧
    (s.updLane i f).portClass = s.portClass ∧ (s.updLane i f).queue = s.queue ∧ (s.updLane i f).chan = s.chan ∧
    (s.updLane i f).fifo = s.fifo ∧ (s.updLane i f).sliceSt = s.sliceSt ∧ (s.updLane i f).stack = s.stack ∧
    (s.updLane i f).mp = s.mp ∧ (s.updLane i f).mirrorOf = s.mirrorOf ∧ (s.updLane i f).peer = s.peer ∧
    (s.updLane i f).box = s.box ∧ (s.updLane i f).pkt = s.pkt ∧ (s.updLane i f).node = s.node ∧
    (s.updLane i f).policer = s.policer := by
  refine ⟨?_, ?_, ?_, ?_, ?_, ?_, ?_, ?_, ?_, ?_, ?_, ?_, ?_, ?_, ?_, ?_, ?_, ?_, ?_, ?_, ?_, ?_, ?_, ?_, ?_, ?_, ?_, ?_, ?_, ?_, ?_, ?_, ?_, ?_, ?_, ?_, ?_, ?_, ?_, ?_, ?_, ?_, ?_, ?_, ?_, ?_, ?_, ?_, ?_, ?_, ?_, ?_, ?_, ?_, ?_, ?_, ?_, ?_⟩ <;> rfl

@[simp] theorem State.lane_updLane (s : State) (i j : Nat) (f : LaneSt → LaneSt) :
    (s.updLane i f).lane j = if i = j then f (s.lane i) else s.lane j := by
  unfold State.lane State.updLane
  by_cases h : i = j
  · subst h; simp [Tab.upd, Tab.get_set]
  · simp [Tab.upd, Tab.get_set_other, h]

theorem State.lane_updLane_same (s : State) (i : Nat) (f : LaneSt → LaneSt) :
    (s.updLane i f).lane i = f (s.lane i) := by simp

@[simp] theorem State.updGroup_rest (s : State) (i : Nat) (f : GroupSt → GroupSt) :
    (s.updGroup i f).time = s.time ∧ (s.updGroup i f).up = s.up ∧ (s.updGroup i f).ptp = s.ptp ∧
    (s.updGroup i f).tsFifos = s.tsFifos ∧ (s.updGroup i f).gates = s.gates ∧ (s.updGroup i f).lanes = s.lanes ∧
    (s.updGroup i f).ports = s.ports ∧ (s.updGroup i f).prism = s.prism ∧ (s.updGroup i f).fwd = s.fwd ∧
    (s.updGroup i f).buf = s.buf ∧ (s.updGroup i f).pkts = s.pkts ∧ (s.updGroup i f).nextPkt = s.nextPkt ∧
    (s.updGroup i f).fab = s.fab ∧ (s.updGroup i f).sched = s.sched ∧ (s.updGroup i f).frer = s.frer ∧
    (s.updGroup i f).leaven = s.leaven ∧ (s.updGroup i f).proof = s.proof ∧ (s.updGroup i f).evt = s.evt ∧
    (s.updGroup i f).swp = s.swp ∧ (s.updGroup i f).tel = s.tel ∧ (s.updGroup i f).mbx = s.mbx ∧
    (s.updGroup i f).bake = s.bake ∧ (s.updGroup i f).ident = s.ident ∧ (s.updGroup i f).pwr = s.pwr ∧
    (s.updGroup i f).host = s.host ∧ (s.updGroup i f).out = s.out ∧ (s.updGroup i f).free = s.free ∧
    (s.updGroup i f).pending = s.pending ∧ (s.updGroup i f).port = s.port ∧ (s.updGroup i f).lane = s.lane ∧
    (s.updGroup i f).gate = s.gate ∧ (s.updGroup i f).tsFifo = s.tsFifo ∧ (s.updGroup i f).stream = s.stream ∧
    (s.updGroup i f).cluster = s.cluster ∧ (s.updGroup i f).fix = s.fix ∧ (s.updGroup i f).flow = s.flow ∧
    (s.updGroup i f).target = s.target ∧ (s.updGroup i f).drop = s.drop ∧ (s.updGroup i f).bus = s.bus ∧
    (s.updGroup i f).pclass = s.pclass ∧ (s.updGroup i f).plane = s.plane ∧ (s.updGroup i f).pair = s.pair ∧
    (s.updGroup i f).voq = s.voq ∧ (s.updGroup i f).fabPort = s.fabPort ∧ (s.updGroup i f).classCfg = s.classCfg ∧
    (s.updGroup i f).portClass = s.portClass ∧ (s.updGroup i f).queue = s.queue ∧ (s.updGroup i f).chan = s.chan ∧
    (s.updGroup i f).fifo = s.fifo ∧ (s.updGroup i f).sliceSt = s.sliceSt ∧ (s.updGroup i f).stack = s.stack ∧
    (s.updGroup i f).mp = s.mp ∧ (s.updGroup i f).mirrorOf = s.mirrorOf ∧ (s.updGroup i f).peer = s.peer ∧
    (s.updGroup i f).box = s.box ∧ (s.updGroup i f).pkt = s.pkt ∧ (s.updGroup i f).node = s.node ∧
    (s.updGroup i f).policer = s.policer := by
  refine ⟨?_, ?_, ?_, ?_, ?_, ?_, ?_, ?_, ?_, ?_, ?_, ?_, ?_, ?_, ?_, ?_, ?_, ?_, ?_, ?_, ?_, ?_, ?_, ?_, ?_, ?_, ?_, ?_, ?_, ?_, ?_, ?_, ?_, ?_, ?_, ?_, ?_, ?_, ?_, ?_, ?_, ?_, ?_, ?_, ?_, ?_, ?_, ?_, ?_, ?_, ?_, ?_, ?_, ?_, ?_, ?_, ?_, ?_⟩ <;> rfl

@[simp] theorem State.group_updGroup (s : State) (i j : Nat) (f : GroupSt → GroupSt) :
    (s.updGroup i f).group j = if i = j then f (s.group i) else s.group j := by
  unfold State.group State.updGroup
  by_cases h : i = j
  · subst h; simp [Tab.upd, Tab.get_set]
  · simp [Tab.upd, Tab.get_set_other, h]

theorem State.group_updGroup_same (s : State) (i : Nat) (f : GroupSt → GroupSt) :
    (s.updGroup i f).group i = f (s.group i) := by simp

@[simp] theorem State.updGate_rest (s : State) (i : Nat) (f : PortGate → PortGate) :
    (s.updGate i f).time = s.time ∧ (s.updGate i f).up = s.up ∧ (s.updGate i f).ptp = s.ptp ∧
    (s.updGate i f).tsFifos = s.tsFifos ∧ (s.updGate i f).lanes = s.lanes ∧ (s.updGate i f).groups = s.groups ∧
    (s.updGate i f).ports = s.ports ∧ (s.updGate i f).prism = s.prism ∧ (s.updGate i f).fwd = s.fwd ∧
    (s.updGate i f).buf = s.buf ∧ (s.updGate i f).pkts = s.pkts ∧ (s.updGate i f).nextPkt = s.nextPkt ∧
    (s.updGate i f).fab = s.fab ∧ (s.updGate i f).sched = s.sched ∧ (s.updGate i f).frer = s.frer ∧
    (s.updGate i f).leaven = s.leaven ∧ (s.updGate i f).proof = s.proof ∧ (s.updGate i f).evt = s.evt ∧
    (s.updGate i f).swp = s.swp ∧ (s.updGate i f).tel = s.tel ∧ (s.updGate i f).mbx = s.mbx ∧
    (s.updGate i f).bake = s.bake ∧ (s.updGate i f).ident = s.ident ∧ (s.updGate i f).pwr = s.pwr ∧
    (s.updGate i f).host = s.host ∧ (s.updGate i f).out = s.out ∧ (s.updGate i f).free = s.free ∧
    (s.updGate i f).pending = s.pending ∧ (s.updGate i f).port = s.port ∧ (s.updGate i f).lane = s.lane ∧
    (s.updGate i f).group = s.group ∧ (s.updGate i f).tsFifo = s.tsFifo ∧ (s.updGate i f).stream = s.stream ∧
    (s.updGate i f).cluster = s.cluster ∧ (s.updGate i f).fix = s.fix ∧ (s.updGate i f).flow = s.flow ∧
    (s.updGate i f).target = s.target ∧ (s.updGate i f).drop = s.drop ∧ (s.updGate i f).bus = s.bus ∧
    (s.updGate i f).pclass = s.pclass ∧ (s.updGate i f).plane = s.plane ∧ (s.updGate i f).pair = s.pair ∧
    (s.updGate i f).voq = s.voq ∧ (s.updGate i f).fabPort = s.fabPort ∧ (s.updGate i f).classCfg = s.classCfg ∧
    (s.updGate i f).portClass = s.portClass ∧ (s.updGate i f).queue = s.queue ∧ (s.updGate i f).chan = s.chan ∧
    (s.updGate i f).fifo = s.fifo ∧ (s.updGate i f).sliceSt = s.sliceSt ∧ (s.updGate i f).stack = s.stack ∧
    (s.updGate i f).mp = s.mp ∧ (s.updGate i f).mirrorOf = s.mirrorOf ∧ (s.updGate i f).peer = s.peer ∧
    (s.updGate i f).box = s.box ∧ (s.updGate i f).pkt = s.pkt ∧ (s.updGate i f).node = s.node ∧
    (s.updGate i f).policer = s.policer := by
  refine ⟨?_, ?_, ?_, ?_, ?_, ?_, ?_, ?_, ?_, ?_, ?_, ?_, ?_, ?_, ?_, ?_, ?_, ?_, ?_, ?_, ?_, ?_, ?_, ?_, ?_, ?_, ?_, ?_, ?_, ?_, ?_, ?_, ?_, ?_, ?_, ?_, ?_, ?_, ?_, ?_, ?_, ?_, ?_, ?_, ?_, ?_, ?_, ?_, ?_, ?_, ?_, ?_, ?_, ?_, ?_, ?_, ?_, ?_⟩ <;> rfl

@[simp] theorem State.gate_updGate (s : State) (i j : Nat) (f : PortGate → PortGate) :
    (s.updGate i f).gate j = if i = j then f (s.gate i) else s.gate j := by
  unfold State.gate State.updGate
  by_cases h : i = j
  · subst h; simp [Tab.upd, Tab.get_set]
  · simp [Tab.upd, Tab.get_set_other, h]

theorem State.gate_updGate_same (s : State) (i : Nat) (f : PortGate → PortGate) :
    (s.updGate i f).gate i = f (s.gate i) := by simp

@[simp] theorem State.updTsFifo_rest (s : State) (i : Nat) (f : TsFifo → TsFifo) :
    (s.updTsFifo i f).time = s.time ∧ (s.updTsFifo i f).up = s.up ∧ (s.updTsFifo i f).ptp = s.ptp ∧
    (s.updTsFifo i f).gates = s.gates ∧ (s.updTsFifo i f).lanes = s.lanes ∧ (s.updTsFifo i f).groups = s.groups ∧
    (s.updTsFifo i f).ports = s.ports ∧ (s.updTsFifo i f).prism = s.prism ∧ (s.updTsFifo i f).fwd = s.fwd ∧
    (s.updTsFifo i f).buf = s.buf ∧ (s.updTsFifo i f).pkts = s.pkts ∧ (s.updTsFifo i f).nextPkt = s.nextPkt ∧
    (s.updTsFifo i f).fab = s.fab ∧ (s.updTsFifo i f).sched = s.sched ∧ (s.updTsFifo i f).frer = s.frer ∧
    (s.updTsFifo i f).leaven = s.leaven ∧ (s.updTsFifo i f).proof = s.proof ∧ (s.updTsFifo i f).evt = s.evt ∧
    (s.updTsFifo i f).swp = s.swp ∧ (s.updTsFifo i f).tel = s.tel ∧ (s.updTsFifo i f).mbx = s.mbx ∧
    (s.updTsFifo i f).bake = s.bake ∧ (s.updTsFifo i f).ident = s.ident ∧ (s.updTsFifo i f).pwr = s.pwr ∧
    (s.updTsFifo i f).host = s.host ∧ (s.updTsFifo i f).out = s.out ∧ (s.updTsFifo i f).free = s.free ∧
    (s.updTsFifo i f).pending = s.pending ∧ (s.updTsFifo i f).port = s.port ∧ (s.updTsFifo i f).lane = s.lane ∧
    (s.updTsFifo i f).group = s.group ∧ (s.updTsFifo i f).gate = s.gate ∧ (s.updTsFifo i f).stream = s.stream ∧
    (s.updTsFifo i f).cluster = s.cluster ∧ (s.updTsFifo i f).fix = s.fix ∧ (s.updTsFifo i f).flow = s.flow ∧
    (s.updTsFifo i f).target = s.target ∧ (s.updTsFifo i f).drop = s.drop ∧ (s.updTsFifo i f).bus = s.bus ∧
    (s.updTsFifo i f).pclass = s.pclass ∧ (s.updTsFifo i f).plane = s.plane ∧ (s.updTsFifo i f).pair = s.pair ∧
    (s.updTsFifo i f).voq = s.voq ∧ (s.updTsFifo i f).fabPort = s.fabPort ∧ (s.updTsFifo i f).classCfg = s.classCfg ∧
    (s.updTsFifo i f).portClass = s.portClass ∧ (s.updTsFifo i f).queue = s.queue ∧ (s.updTsFifo i f).chan = s.chan ∧
    (s.updTsFifo i f).fifo = s.fifo ∧ (s.updTsFifo i f).sliceSt = s.sliceSt ∧ (s.updTsFifo i f).stack = s.stack ∧
    (s.updTsFifo i f).mp = s.mp ∧ (s.updTsFifo i f).mirrorOf = s.mirrorOf ∧ (s.updTsFifo i f).peer = s.peer ∧
    (s.updTsFifo i f).box = s.box ∧ (s.updTsFifo i f).pkt = s.pkt ∧ (s.updTsFifo i f).node = s.node ∧
    (s.updTsFifo i f).policer = s.policer := by
  refine ⟨?_, ?_, ?_, ?_, ?_, ?_, ?_, ?_, ?_, ?_, ?_, ?_, ?_, ?_, ?_, ?_, ?_, ?_, ?_, ?_, ?_, ?_, ?_, ?_, ?_, ?_, ?_, ?_, ?_, ?_, ?_, ?_, ?_, ?_, ?_, ?_, ?_, ?_, ?_, ?_, ?_, ?_, ?_, ?_, ?_, ?_, ?_, ?_, ?_, ?_, ?_, ?_, ?_, ?_, ?_, ?_, ?_, ?_⟩ <;> rfl

@[simp] theorem State.tsFifo_updTsFifo (s : State) (i j : Nat) (f : TsFifo → TsFifo) :
    (s.updTsFifo i f).tsFifo j = if i = j then f (s.tsFifo i) else s.tsFifo j := by
  unfold State.tsFifo State.updTsFifo
  by_cases h : i = j
  · subst h; simp [Tab.upd, Tab.get_set]
  · simp [Tab.upd, Tab.get_set_other, h]

theorem State.tsFifo_updTsFifo_same (s : State) (i : Nat) (f : TsFifo → TsFifo) :
    (s.updTsFifo i f).tsFifo i = f (s.tsFifo i) := by simp

@[simp] theorem State.updStream_rest (s : State) (i : Nat) (f : FrerSt → FrerSt) :
    (s.updStream i f).time = s.time ∧ (s.updStream i f).up = s.up ∧ (s.updStream i f).ptp = s.ptp ∧
    (s.updStream i f).tsFifos = s.tsFifos ∧ (s.updStream i f).gates = s.gates ∧ (s.updStream i f).lanes = s.lanes ∧
    (s.updStream i f).groups = s.groups ∧ (s.updStream i f).ports = s.ports ∧ (s.updStream i f).prism = s.prism ∧
    (s.updStream i f).fwd = s.fwd ∧ (s.updStream i f).buf = s.buf ∧ (s.updStream i f).pkts = s.pkts ∧
    (s.updStream i f).nextPkt = s.nextPkt ∧ (s.updStream i f).fab = s.fab ∧ (s.updStream i f).sched = s.sched ∧
    (s.updStream i f).leaven = s.leaven ∧ (s.updStream i f).proof = s.proof ∧ (s.updStream i f).evt = s.evt ∧
    (s.updStream i f).swp = s.swp ∧ (s.updStream i f).tel = s.tel ∧ (s.updStream i f).mbx = s.mbx ∧
    (s.updStream i f).bake = s.bake ∧ (s.updStream i f).ident = s.ident ∧ (s.updStream i f).pwr = s.pwr ∧
    (s.updStream i f).host = s.host ∧ (s.updStream i f).out = s.out ∧ (s.updStream i f).free = s.free ∧
    (s.updStream i f).pending = s.pending ∧ (s.updStream i f).port = s.port ∧ (s.updStream i f).lane = s.lane ∧
    (s.updStream i f).group = s.group ∧ (s.updStream i f).gate = s.gate ∧ (s.updStream i f).tsFifo = s.tsFifo ∧
    (s.updStream i f).cluster = s.cluster ∧ (s.updStream i f).fix = s.fix ∧ (s.updStream i f).flow = s.flow ∧
    (s.updStream i f).target = s.target ∧ (s.updStream i f).drop = s.drop ∧ (s.updStream i f).bus = s.bus ∧
    (s.updStream i f).pclass = s.pclass ∧ (s.updStream i f).plane = s.plane ∧ (s.updStream i f).pair = s.pair ∧
    (s.updStream i f).voq = s.voq ∧ (s.updStream i f).fabPort = s.fabPort ∧ (s.updStream i f).classCfg = s.classCfg ∧
    (s.updStream i f).portClass = s.portClass ∧ (s.updStream i f).queue = s.queue ∧ (s.updStream i f).chan = s.chan ∧
    (s.updStream i f).fifo = s.fifo ∧ (s.updStream i f).sliceSt = s.sliceSt ∧ (s.updStream i f).stack = s.stack ∧
    (s.updStream i f).mp = s.mp ∧ (s.updStream i f).mirrorOf = s.mirrorOf ∧ (s.updStream i f).peer = s.peer ∧
    (s.updStream i f).box = s.box ∧ (s.updStream i f).pkt = s.pkt ∧ (s.updStream i f).node = s.node ∧
    (s.updStream i f).policer = s.policer := by
  refine ⟨?_, ?_, ?_, ?_, ?_, ?_, ?_, ?_, ?_, ?_, ?_, ?_, ?_, ?_, ?_, ?_, ?_, ?_, ?_, ?_, ?_, ?_, ?_, ?_, ?_, ?_, ?_, ?_, ?_, ?_, ?_, ?_, ?_, ?_, ?_, ?_, ?_, ?_, ?_, ?_, ?_, ?_, ?_, ?_, ?_, ?_, ?_, ?_, ?_, ?_, ?_, ?_, ?_, ?_, ?_, ?_, ?_, ?_⟩ <;> rfl

@[simp] theorem State.stream_updStream (s : State) (i j : Nat) (f : FrerSt → FrerSt) :
    (s.updStream i f).stream j = if i = j then f (s.stream i) else s.stream j := by
  unfold State.stream State.updStream
  by_cases h : i = j
  · subst h; simp [Tab.upd, Tab.get_set]
  · simp [Tab.upd, Tab.get_set_other, h]

theorem State.stream_updStream_same (s : State) (i : Nat) (f : FrerSt → FrerSt) :
    (s.updStream i f).stream i = f (s.stream i) := by simp

@[simp] theorem State.updCluster_rest (s : State) (i : Nat) (f : Cluster → Cluster) :
    (s.updCluster i f).time = s.time ∧ (s.updCluster i f).up = s.up ∧ (s.updCluster i f).ptp = s.ptp ∧
    (s.updCluster i f).tsFifos = s.tsFifos ∧ (s.updCluster i f).gates = s.gates ∧ (s.updCluster i f).lanes = s.lanes ∧
    (s.updCluster i f).groups = s.groups ∧ (s.updCluster i f).ports = s.ports ∧ (s.updCluster i f).prism = s.prism ∧
    (s.updCluster i f).fwd = s.fwd ∧ (s.updCluster i f).buf = s.buf ∧ (s.updCluster i f).pkts = s.pkts ∧
    (s.updCluster i f).nextPkt = s.nextPkt ∧ (s.updCluster i f).fab = s.fab ∧ (s.updCluster i f).sched = s.sched ∧
    (s.updCluster i f).frer = s.frer ∧ (s.updCluster i f).proof = s.proof ∧ (s.updCluster i f).evt = s.evt ∧
    (s.updCluster i f).swp = s.swp ∧ (s.updCluster i f).tel = s.tel ∧ (s.updCluster i f).mbx = s.mbx ∧
    (s.updCluster i f).bake = s.bake ∧ (s.updCluster i f).ident = s.ident ∧ (s.updCluster i f).pwr = s.pwr ∧
    (s.updCluster i f).host = s.host ∧ (s.updCluster i f).out = s.out ∧ (s.updCluster i f).free = s.free ∧
    (s.updCluster i f).pending = s.pending ∧ (s.updCluster i f).leaven.cores = s.leaven.cores ∧
    (s.updCluster i f).leaven.flows = s.leaven.flows ∧ (s.updCluster i f).leaven.fix = s.leaven.fix ∧
    (s.updCluster i f).leaven.nextTap = s.leaven.nextTap ∧ (s.updCluster i f).leaven.flushes = s.leaven.flushes ∧
    (s.updCluster i f).leaven.ctr = s.leaven.ctr ∧ (s.updCluster i f).port = s.port ∧ (s.updCluster i f).lane = s.lane ∧
    (s.updCluster i f).group = s.group ∧ (s.updCluster i f).gate = s.gate ∧ (s.updCluster i f).tsFifo = s.tsFifo ∧
    (s.updCluster i f).stream = s.stream ∧ (s.updCluster i f).fix = s.fix ∧ (s.updCluster i f).flow = s.flow ∧
    (s.updCluster i f).target = s.target ∧ (s.updCluster i f).drop = s.drop ∧ (s.updCluster i f).bus = s.bus ∧
    (s.updCluster i f).pclass = s.pclass ∧ (s.updCluster i f).plane = s.plane ∧ (s.updCluster i f).pair = s.pair ∧
    (s.updCluster i f).voq = s.voq ∧ (s.updCluster i f).fabPort = s.fabPort ∧ (s.updCluster i f).classCfg = s.classCfg ∧
    (s.updCluster i f).portClass = s.portClass ∧ (s.updCluster i f).queue = s.queue ∧ (s.updCluster i f).chan = s.chan ∧
    (s.updCluster i f).fifo = s.fifo ∧ (s.updCluster i f).sliceSt = s.sliceSt ∧ (s.updCluster i f).stack = s.stack ∧
    (s.updCluster i f).mp = s.mp ∧ (s.updCluster i f).mirrorOf = s.mirrorOf ∧ (s.updCluster i f).peer = s.peer ∧
    (s.updCluster i f).box = s.box ∧ (s.updCluster i f).pkt = s.pkt ∧ (s.updCluster i f).node = s.node ∧
    (s.updCluster i f).policer = s.policer := by
  refine ⟨?_, ?_, ?_, ?_, ?_, ?_, ?_, ?_, ?_, ?_, ?_, ?_, ?_, ?_, ?_, ?_, ?_, ?_, ?_, ?_, ?_, ?_, ?_, ?_, ?_, ?_, ?_, ?_, ?_, ?_, ?_, ?_, ?_, ?_, ?_, ?_, ?_, ?_, ?_, ?_, ?_, ?_, ?_, ?_, ?_, ?_, ?_, ?_, ?_, ?_, ?_, ?_, ?_, ?_, ?_, ?_, ?_, ?_, ?_, ?_, ?_, ?_, ?_, ?_⟩ <;> rfl

@[simp] theorem State.cluster_updCluster (s : State) (i j : Nat) (f : Cluster → Cluster) :
    (s.updCluster i f).cluster j = if i = j then f (s.cluster i) else s.cluster j := by
  unfold State.cluster State.updCluster
  by_cases h : i = j
  · subst h; simp [Tab.upd, Tab.get_set]
  · simp [Tab.upd, Tab.get_set_other, h]

theorem State.cluster_updCluster_same (s : State) (i : Nat) (f : Cluster → Cluster) :
    (s.updCluster i f).cluster i = f (s.cluster i) := by simp

@[simp] theorem State.updFix_rest (s : State) (i : Nat) (f : FixClu → FixClu) :
    (s.updFix i f).time = s.time ∧ (s.updFix i f).up = s.up ∧ (s.updFix i f).ptp = s.ptp ∧
    (s.updFix i f).tsFifos = s.tsFifos ∧ (s.updFix i f).gates = s.gates ∧ (s.updFix i f).lanes = s.lanes ∧
    (s.updFix i f).groups = s.groups ∧ (s.updFix i f).ports = s.ports ∧ (s.updFix i f).prism = s.prism ∧
    (s.updFix i f).fwd = s.fwd ∧ (s.updFix i f).buf = s.buf ∧ (s.updFix i f).pkts = s.pkts ∧
    (s.updFix i f).nextPkt = s.nextPkt ∧ (s.updFix i f).fab = s.fab ∧ (s.updFix i f).sched = s.sched ∧
    (s.updFix i f).frer = s.frer ∧ (s.updFix i f).proof = s.proof ∧ (s.updFix i f).evt = s.evt ∧
    (s.updFix i f).swp = s.swp ∧ (s.updFix i f).tel = s.tel ∧ (s.updFix i f).mbx = s.mbx ∧ (s.updFix i f).bake = s.bake ∧
    (s.updFix i f).ident = s.ident ∧ (s.updFix i f).pwr = s.pwr ∧ (s.updFix i f).host = s.host ∧
    (s.updFix i f).out = s.out ∧ (s.updFix i f).free = s.free ∧ (s.updFix i f).pending = s.pending ∧
    (s.updFix i f).leaven.clusters = s.leaven.clusters ∧ (s.updFix i f).leaven.cores = s.leaven.cores ∧
    (s.updFix i f).leaven.flows = s.leaven.flows ∧ (s.updFix i f).leaven.nextTap = s.leaven.nextTap ∧
    (s.updFix i f).leaven.flushes = s.leaven.flushes ∧ (s.updFix i f).leaven.ctr = s.leaven.ctr ∧
    (s.updFix i f).port = s.port ∧ (s.updFix i f).lane = s.lane ∧ (s.updFix i f).group = s.group ∧
    (s.updFix i f).gate = s.gate ∧ (s.updFix i f).tsFifo = s.tsFifo ∧ (s.updFix i f).stream = s.stream ∧
    (s.updFix i f).cluster = s.cluster ∧ (s.updFix i f).flow = s.flow ∧ (s.updFix i f).target = s.target ∧
    (s.updFix i f).drop = s.drop ∧ (s.updFix i f).bus = s.bus ∧ (s.updFix i f).pclass = s.pclass ∧
    (s.updFix i f).plane = s.plane ∧ (s.updFix i f).pair = s.pair ∧ (s.updFix i f).voq = s.voq ∧
    (s.updFix i f).fabPort = s.fabPort ∧ (s.updFix i f).classCfg = s.classCfg ∧ (s.updFix i f).portClass = s.portClass ∧
    (s.updFix i f).queue = s.queue ∧ (s.updFix i f).chan = s.chan ∧ (s.updFix i f).fifo = s.fifo ∧
    (s.updFix i f).sliceSt = s.sliceSt ∧ (s.updFix i f).stack = s.stack ∧ (s.updFix i f).mp = s.mp ∧
    (s.updFix i f).mirrorOf = s.mirrorOf ∧ (s.updFix i f).peer = s.peer ∧ (s.updFix i f).box = s.box ∧
    (s.updFix i f).pkt = s.pkt ∧ (s.updFix i f).node = s.node ∧ (s.updFix i f).policer = s.policer := by
  refine ⟨?_, ?_, ?_, ?_, ?_, ?_, ?_, ?_, ?_, ?_, ?_, ?_, ?_, ?_, ?_, ?_, ?_, ?_, ?_, ?_, ?_, ?_, ?_, ?_, ?_, ?_, ?_, ?_, ?_, ?_, ?_, ?_, ?_, ?_, ?_, ?_, ?_, ?_, ?_, ?_, ?_, ?_, ?_, ?_, ?_, ?_, ?_, ?_, ?_, ?_, ?_, ?_, ?_, ?_, ?_, ?_, ?_, ?_, ?_, ?_, ?_, ?_, ?_, ?_⟩ <;> rfl

@[simp] theorem State.fix_updFix (s : State) (i j : Nat) (f : FixClu → FixClu) :
    (s.updFix i f).fix j = if i = j then f (s.fix i) else s.fix j := by
  unfold State.fix State.updFix
  by_cases h : i = j
  · subst h; simp [Tab.upd, Tab.get_set]
  · simp [Tab.upd, Tab.get_set_other, h]

theorem State.fix_updFix_same (s : State) (i : Nat) (f : FixClu → FixClu) :
    (s.updFix i f).fix i = f (s.fix i) := by simp

@[simp] theorem State.updFlow_rest (s : State) (i : Nat) (f : Flow → Flow) :
    (s.updFlow i f).time = s.time ∧ (s.updFlow i f).up = s.up ∧ (s.updFlow i f).ptp = s.ptp ∧
    (s.updFlow i f).tsFifos = s.tsFifos ∧ (s.updFlow i f).gates = s.gates ∧ (s.updFlow i f).lanes = s.lanes ∧
    (s.updFlow i f).groups = s.groups ∧ (s.updFlow i f).ports = s.ports ∧ (s.updFlow i f).prism = s.prism ∧
    (s.updFlow i f).fwd = s.fwd ∧ (s.updFlow i f).buf = s.buf ∧ (s.updFlow i f).pkts = s.pkts ∧
    (s.updFlow i f).nextPkt = s.nextPkt ∧ (s.updFlow i f).fab = s.fab ∧ (s.updFlow i f).sched = s.sched ∧
    (s.updFlow i f).frer = s.frer ∧ (s.updFlow i f).proof = s.proof ∧ (s.updFlow i f).evt = s.evt ∧
    (s.updFlow i f).swp = s.swp ∧ (s.updFlow i f).tel = s.tel ∧ (s.updFlow i f).mbx = s.mbx ∧
    (s.updFlow i f).bake = s.bake ∧ (s.updFlow i f).ident = s.ident ∧ (s.updFlow i f).pwr = s.pwr ∧
    (s.updFlow i f).host = s.host ∧ (s.updFlow i f).out = s.out ∧ (s.updFlow i f).free = s.free ∧
    (s.updFlow i f).pending = s.pending ∧ (s.updFlow i f).leaven.clusters = s.leaven.clusters ∧
    (s.updFlow i f).leaven.cores = s.leaven.cores ∧ (s.updFlow i f).leaven.fix = s.leaven.fix ∧
    (s.updFlow i f).leaven.nextTap = s.leaven.nextTap ∧ (s.updFlow i f).leaven.flushes = s.leaven.flushes ∧
    (s.updFlow i f).leaven.ctr = s.leaven.ctr ∧ (s.updFlow i f).port = s.port ∧ (s.updFlow i f).lane = s.lane ∧
    (s.updFlow i f).group = s.group ∧ (s.updFlow i f).gate = s.gate ∧ (s.updFlow i f).tsFifo = s.tsFifo ∧
    (s.updFlow i f).stream = s.stream ∧ (s.updFlow i f).cluster = s.cluster ∧ (s.updFlow i f).fix = s.fix ∧
    (s.updFlow i f).target = s.target ∧ (s.updFlow i f).drop = s.drop ∧ (s.updFlow i f).bus = s.bus ∧
    (s.updFlow i f).pclass = s.pclass ∧ (s.updFlow i f).plane = s.plane ∧ (s.updFlow i f).pair = s.pair ∧
    (s.updFlow i f).voq = s.voq ∧ (s.updFlow i f).fabPort = s.fabPort ∧ (s.updFlow i f).classCfg = s.classCfg ∧
    (s.updFlow i f).portClass = s.portClass ∧ (s.updFlow i f).queue = s.queue ∧ (s.updFlow i f).chan = s.chan ∧
    (s.updFlow i f).fifo = s.fifo ∧ (s.updFlow i f).sliceSt = s.sliceSt ∧ (s.updFlow i f).stack = s.stack ∧
    (s.updFlow i f).mp = s.mp ∧ (s.updFlow i f).mirrorOf = s.mirrorOf ∧ (s.updFlow i f).peer = s.peer ∧
    (s.updFlow i f).box = s.box ∧ (s.updFlow i f).pkt = s.pkt ∧ (s.updFlow i f).node = s.node ∧
    (s.updFlow i f).policer = s.policer := by
  refine ⟨?_, ?_, ?_, ?_, ?_, ?_, ?_, ?_, ?_, ?_, ?_, ?_, ?_, ?_, ?_, ?_, ?_, ?_, ?_, ?_, ?_, ?_, ?_, ?_, ?_, ?_, ?_, ?_, ?_, ?_, ?_, ?_, ?_, ?_, ?_, ?_, ?_, ?_, ?_, ?_, ?_, ?_, ?_, ?_, ?_, ?_, ?_, ?_, ?_, ?_, ?_, ?_, ?_, ?_, ?_, ?_, ?_, ?_, ?_, ?_, ?_, ?_, ?_, ?_⟩ <;> rfl

@[simp] theorem State.flow_updFlow (s : State) (i j : Nat) (f : Flow → Flow) :
    (s.updFlow i f).flow j = if i = j then f (s.flow i) else s.flow j := by
  unfold State.flow State.updFlow
  by_cases h : i = j
  · subst h; simp [Tab.upd, Tab.get_set]
  · simp [Tab.upd, Tab.get_set_other, h]

theorem State.flow_updFlow_same (s : State) (i : Nat) (f : Flow → Flow) :
    (s.updFlow i f).flow i = f (s.flow i) := by simp

@[simp] theorem State.updTarget_rest (s : State) (i : Nat) (f : Target → Target) :
    (s.updTarget i f).time = s.time ∧ (s.updTarget i f).up = s.up ∧ (s.updTarget i f).ptp = s.ptp ∧
    (s.updTarget i f).tsFifos = s.tsFifos ∧ (s.updTarget i f).gates = s.gates ∧ (s.updTarget i f).lanes = s.lanes ∧
    (s.updTarget i f).groups = s.groups ∧ (s.updTarget i f).ports = s.ports ∧ (s.updTarget i f).prism = s.prism ∧
    (s.updTarget i f).fwd = s.fwd ∧ (s.updTarget i f).buf = s.buf ∧ (s.updTarget i f).pkts = s.pkts ∧
    (s.updTarget i f).nextPkt = s.nextPkt ∧ (s.updTarget i f).fab = s.fab ∧ (s.updTarget i f).sched = s.sched ∧
    (s.updTarget i f).frer = s.frer ∧ (s.updTarget i f).leaven = s.leaven ∧ (s.updTarget i f).evt = s.evt ∧
    (s.updTarget i f).swp = s.swp ∧ (s.updTarget i f).tel = s.tel ∧ (s.updTarget i f).mbx = s.mbx ∧
    (s.updTarget i f).bake = s.bake ∧ (s.updTarget i f).ident = s.ident ∧ (s.updTarget i f).pwr = s.pwr ∧
    (s.updTarget i f).host = s.host ∧ (s.updTarget i f).out = s.out ∧ (s.updTarget i f).free = s.free ∧
    (s.updTarget i f).pending = s.pending ∧ (s.updTarget i f).proof.classes = s.proof.classes ∧
    (s.updTarget i f).proof.drops = s.proof.drops ∧ (s.updTarget i f).proof.buses = s.proof.buses ∧
    (s.updTarget i f).proof.parkUnits = s.proof.parkUnits ∧ (s.updTarget i f).proof.noticeSec = s.proof.noticeSec ∧
    (s.updTarget i f).proof.noticeAt = s.proof.noticeAt ∧ (s.updTarget i f).proof.ctr = s.proof.ctr ∧
    (s.updTarget i f).port = s.port ∧ (s.updTarget i f).lane = s.lane ∧ (s.updTarget i f).group = s.group ∧
    (s.updTarget i f).gate = s.gate ∧ (s.updTarget i f).tsFifo = s.tsFifo ∧ (s.updTarget i f).stream = s.stream ∧
    (s.updTarget i f).cluster = s.cluster ∧ (s.updTarget i f).fix = s.fix ∧ (s.updTarget i f).flow = s.flow ∧
    (s.updTarget i f).drop = s.drop ∧ (s.updTarget i f).bus = s.bus ∧ (s.updTarget i f).pclass = s.pclass ∧
    (s.updTarget i f).plane = s.plane ∧ (s.updTarget i f).pair = s.pair ∧ (s.updTarget i f).voq = s.voq ∧
    (s.updTarget i f).fabPort = s.fabPort ∧ (s.updTarget i f).classCfg = s.classCfg ∧
    (s.updTarget i f).portClass = s.portClass ∧ (s.updTarget i f).queue = s.queue ∧ (s.updTarget i f).chan = s.chan ∧
    (s.updTarget i f).fifo = s.fifo ∧ (s.updTarget i f).sliceSt = s.sliceSt ∧ (s.updTarget i f).stack = s.stack ∧
    (s.updTarget i f).mp = s.mp ∧ (s.updTarget i f).mirrorOf = s.mirrorOf ∧ (s.updTarget i f).peer = s.peer ∧
    (s.updTarget i f).box = s.box ∧ (s.updTarget i f).pkt = s.pkt ∧ (s.updTarget i f).node = s.node ∧
    (s.updTarget i f).policer = s.policer := by
  refine ⟨?_, ?_, ?_, ?_, ?_, ?_, ?_, ?_, ?_, ?_, ?_, ?_, ?_, ?_, ?_, ?_, ?_, ?_, ?_, ?_, ?_, ?_, ?_, ?_, ?_, ?_, ?_, ?_, ?_, ?_, ?_, ?_, ?_, ?_, ?_, ?_, ?_, ?_, ?_, ?_, ?_, ?_, ?_, ?_, ?_, ?_, ?_, ?_, ?_, ?_, ?_, ?_, ?_, ?_, ?_, ?_, ?_, ?_, ?_, ?_, ?_, ?_, ?_, ?_, ?_⟩ <;> rfl

@[simp] theorem State.target_updTarget (s : State) (i j : Nat) (f : Target → Target) :
    (s.updTarget i f).target j = if i = j then f (s.target i) else s.target j := by
  unfold State.target State.updTarget
  by_cases h : i = j
  · subst h; simp [Tab.upd, Tab.get_set]
  · simp [Tab.upd, Tab.get_set_other, h]

theorem State.target_updTarget_same (s : State) (i : Nat) (f : Target → Target) :
    (s.updTarget i f).target i = f (s.target i) := by simp

@[simp] theorem State.updDrop_rest (s : State) (i k : Nat) (f : Drop → Drop) :
    (s.updDrop i k f).time = s.time ∧ (s.updDrop i k f).up = s.up ∧ (s.updDrop i k f).ptp = s.ptp ∧
    (s.updDrop i k f).tsFifos = s.tsFifos ∧ (s.updDrop i k f).gates = s.gates ∧ (s.updDrop i k f).lanes = s.lanes ∧
    (s.updDrop i k f).groups = s.groups ∧ (s.updDrop i k f).ports = s.ports ∧ (s.updDrop i k f).prism = s.prism ∧
    (s.updDrop i k f).fwd = s.fwd ∧ (s.updDrop i k f).buf = s.buf ∧ (s.updDrop i k f).pkts = s.pkts ∧
    (s.updDrop i k f).nextPkt = s.nextPkt ∧ (s.updDrop i k f).fab = s.fab ∧ (s.updDrop i k f).sched = s.sched ∧
    (s.updDrop i k f).frer = s.frer ∧ (s.updDrop i k f).leaven = s.leaven ∧ (s.updDrop i k f).evt = s.evt ∧
    (s.updDrop i k f).swp = s.swp ∧ (s.updDrop i k f).tel = s.tel ∧ (s.updDrop i k f).mbx = s.mbx ∧
    (s.updDrop i k f).bake = s.bake ∧ (s.updDrop i k f).ident = s.ident ∧ (s.updDrop i k f).pwr = s.pwr ∧
    (s.updDrop i k f).host = s.host ∧ (s.updDrop i k f).out = s.out ∧ (s.updDrop i k f).free = s.free ∧
    (s.updDrop i k f).pending = s.pending ∧ (s.updDrop i k f).proof.classes = s.proof.classes ∧
    (s.updDrop i k f).proof.targets = s.proof.targets ∧ (s.updDrop i k f).proof.buses = s.proof.buses ∧
    (s.updDrop i k f).proof.parkUnits = s.proof.parkUnits ∧ (s.updDrop i k f).proof.noticeSec = s.proof.noticeSec ∧
    (s.updDrop i k f).proof.noticeAt = s.proof.noticeAt ∧ (s.updDrop i k f).proof.ctr = s.proof.ctr ∧
    (s.updDrop i k f).port = s.port ∧ (s.updDrop i k f).lane = s.lane ∧ (s.updDrop i k f).group = s.group ∧
    (s.updDrop i k f).gate = s.gate ∧ (s.updDrop i k f).tsFifo = s.tsFifo ∧ (s.updDrop i k f).stream = s.stream ∧
    (s.updDrop i k f).cluster = s.cluster ∧ (s.updDrop i k f).fix = s.fix ∧ (s.updDrop i k f).flow = s.flow ∧
    (s.updDrop i k f).target = s.target ∧ (s.updDrop i k f).bus = s.bus ∧ (s.updDrop i k f).pclass = s.pclass ∧
    (s.updDrop i k f).plane = s.plane ∧ (s.updDrop i k f).pair = s.pair ∧ (s.updDrop i k f).voq = s.voq ∧
    (s.updDrop i k f).fabPort = s.fabPort ∧ (s.updDrop i k f).classCfg = s.classCfg ∧
    (s.updDrop i k f).portClass = s.portClass ∧ (s.updDrop i k f).queue = s.queue ∧ (s.updDrop i k f).chan = s.chan ∧
    (s.updDrop i k f).fifo = s.fifo ∧ (s.updDrop i k f).sliceSt = s.sliceSt ∧ (s.updDrop i k f).stack = s.stack ∧
    (s.updDrop i k f).mp = s.mp ∧ (s.updDrop i k f).mirrorOf = s.mirrorOf ∧ (s.updDrop i k f).peer = s.peer ∧
    (s.updDrop i k f).box = s.box ∧ (s.updDrop i k f).pkt = s.pkt ∧ (s.updDrop i k f).node = s.node ∧
    (s.updDrop i k f).policer = s.policer := by
  refine ⟨?_, ?_, ?_, ?_, ?_, ?_, ?_, ?_, ?_, ?_, ?_, ?_, ?_, ?_, ?_, ?_, ?_, ?_, ?_, ?_, ?_, ?_, ?_, ?_, ?_, ?_, ?_, ?_, ?_, ?_, ?_, ?_, ?_, ?_, ?_, ?_, ?_, ?_, ?_, ?_, ?_, ?_, ?_, ?_, ?_, ?_, ?_, ?_, ?_, ?_, ?_, ?_, ?_, ?_, ?_, ?_, ?_, ?_, ?_, ?_, ?_, ?_, ?_, ?_, ?_⟩ <;> rfl

theorem State.drop_updDrop (s : State) (i k j l : Nat) (f : Drop → Drop) :
    (s.updDrop i k f).drop j l = if 32 * i + k = 32 * j + l then f (s.drop i k) else s.drop j l := by
  unfold State.drop State.updDrop
  by_cases h : 32 * i + k = 32 * j + l
  · simp [Tab.upd, Tab.get_set, h]
  · simp [Tab.upd, Tab.get_set_other, h]

@[simp] theorem State.drop_updDrop_same (s : State) (i k : Nat) (f : Drop → Drop) :
    (s.updDrop i k f).drop i k = f (s.drop i k) := by simp [State.drop_updDrop]

@[simp] theorem State.updBus_rest (s : State) (i : Nat) (f : Bus → Bus) :
    (s.updBus i f).time = s.time ∧ (s.updBus i f).up = s.up ∧ (s.updBus i f).ptp = s.ptp ∧
    (s.updBus i f).tsFifos = s.tsFifos ∧ (s.updBus i f).gates = s.gates ∧ (s.updBus i f).lanes = s.lanes ∧
    (s.updBus i f).groups = s.groups ∧ (s.updBus i f).ports = s.ports ∧ (s.updBus i f).prism = s.prism ∧
    (s.updBus i f).fwd = s.fwd ∧ (s.updBus i f).buf = s.buf ∧ (s.updBus i f).pkts = s.pkts ∧
    (s.updBus i f).nextPkt = s.nextPkt ∧ (s.updBus i f).fab = s.fab ∧ (s.updBus i f).sched = s.sched ∧
    (s.updBus i f).frer = s.frer ∧ (s.updBus i f).leaven = s.leaven ∧ (s.updBus i f).evt = s.evt ∧
    (s.updBus i f).swp = s.swp ∧ (s.updBus i f).tel = s.tel ∧ (s.updBus i f).mbx = s.mbx ∧ (s.updBus i f).bake = s.bake ∧
    (s.updBus i f).ident = s.ident ∧ (s.updBus i f).pwr = s.pwr ∧ (s.updBus i f).host = s.host ∧
    (s.updBus i f).out = s.out ∧ (s.updBus i f).free = s.free ∧ (s.updBus i f).pending = s.pending ∧
    (s.updBus i f).proof.classes = s.proof.classes ∧ (s.updBus i f).proof.targets = s.proof.targets ∧
    (s.updBus i f).proof.drops = s.proof.drops ∧ (s.updBus i f).proof.parkUnits = s.proof.parkUnits ∧
    (s.updBus i f).proof.noticeSec = s.proof.noticeSec ∧ (s.updBus i f).proof.noticeAt = s.proof.noticeAt ∧
    (s.updBus i f).proof.ctr = s.proof.ctr ∧ (s.updBus i f).port = s.port ∧ (s.updBus i f).lane = s.lane ∧
    (s.updBus i f).group = s.group ∧ (s.updBus i f).gate = s.gate ∧ (s.updBus i f).tsFifo = s.tsFifo ∧
    (s.updBus i f).stream = s.stream ∧ (s.updBus i f).cluster = s.cluster ∧ (s.updBus i f).fix = s.fix ∧
    (s.updBus i f).flow = s.flow ∧ (s.updBus i f).target = s.target ∧ (s.updBus i f).drop = s.drop ∧
    (s.updBus i f).pclass = s.pclass ∧ (s.updBus i f).plane = s.plane ∧ (s.updBus i f).pair = s.pair ∧
    (s.updBus i f).voq = s.voq ∧ (s.updBus i f).fabPort = s.fabPort ∧ (s.updBus i f).classCfg = s.classCfg ∧
    (s.updBus i f).portClass = s.portClass ∧ (s.updBus i f).queue = s.queue ∧ (s.updBus i f).chan = s.chan ∧
    (s.updBus i f).fifo = s.fifo ∧ (s.updBus i f).sliceSt = s.sliceSt ∧ (s.updBus i f).stack = s.stack ∧
    (s.updBus i f).mp = s.mp ∧ (s.updBus i f).mirrorOf = s.mirrorOf ∧ (s.updBus i f).peer = s.peer ∧
    (s.updBus i f).box = s.box ∧ (s.updBus i f).pkt = s.pkt ∧ (s.updBus i f).node = s.node ∧
    (s.updBus i f).policer = s.policer := by
  refine ⟨?_, ?_, ?_, ?_, ?_, ?_, ?_, ?_, ?_, ?_, ?_, ?_, ?_, ?_, ?_, ?_, ?_, ?_, ?_, ?_, ?_, ?_, ?_, ?_, ?_, ?_, ?_, ?_, ?_, ?_, ?_, ?_, ?_, ?_, ?_, ?_, ?_, ?_, ?_, ?_, ?_, ?_, ?_, ?_, ?_, ?_, ?_, ?_, ?_, ?_, ?_, ?_, ?_, ?_, ?_, ?_, ?_, ?_, ?_, ?_, ?_, ?_, ?_, ?_, ?_⟩ <;> rfl

@[simp] theorem State.bus_updBus (s : State) (i j : Nat) (f : Bus → Bus) :
    (s.updBus i f).bus j = if i = j then f (s.bus i) else s.bus j := by
  unfold State.bus State.updBus
  by_cases h : i = j
  · subst h; simp [Tab.upd, Tab.get_set]
  · simp [Tab.upd, Tab.get_set_other, h]

theorem State.bus_updBus_same (s : State) (i : Nat) (f : Bus → Bus) :
    (s.updBus i f).bus i = f (s.bus i) := by simp

@[simp] theorem State.updPlane_rest (s : State) (i : Nat) (f : Plane → Plane) :
    (s.updPlane i f).time = s.time ∧ (s.updPlane i f).up = s.up ∧ (s.updPlane i f).ptp = s.ptp ∧
    (s.updPlane i f).tsFifos = s.tsFifos ∧ (s.updPlane i f).gates = s.gates ∧ (s.updPlane i f).lanes = s.lanes ∧
    (s.updPlane i f).groups = s.groups ∧ (s.updPlane i f).ports = s.ports ∧ (s.updPlane i f).prism = s.prism ∧
    (s.updPlane i f).fwd = s.fwd ∧ (s.updPlane i f).buf = s.buf ∧ (s.updPlane i f).pkts = s.pkts ∧
    (s.updPlane i f).nextPkt = s.nextPkt ∧ (s.updPlane i f).sched = s.sched ∧ (s.updPlane i f).frer = s.frer ∧
    (s.updPlane i f).leaven = s.leaven ∧ (s.updPlane i f).proof = s.proof ∧ (s.updPlane i f).evt = s.evt ∧
    (s.updPlane i f).swp = s.swp ∧ (s.updPlane i f).tel = s.tel ∧ (s.updPlane i f).mbx = s.mbx ∧
    (s.updPlane i f).bake = s.bake ∧ (s.updPlane i f).ident = s.ident ∧ (s.updPlane i f).pwr = s.pwr ∧
    (s.updPlane i f).host = s.host ∧ (s.updPlane i f).out = s.out ∧ (s.updPlane i f).free = s.free ∧
    (s.updPlane i f).pending = s.pending ∧ (s.updPlane i f).fab.params = s.fab.params ∧
    (s.updPlane i f).fab.voqs = s.fab.voqs ∧ (s.updPlane i f).fab.multiQ = s.fab.multiQ ∧
    (s.updPlane i f).fab.pairs = s.fab.pairs ∧ (s.updPlane i f).fab.ports = s.fab.ports ∧
    (s.updPlane i f).fab.links = s.fab.links ∧ (s.updPlane i f).fab.rr = s.fab.rr ∧
    (s.updPlane i f).fab.rrDst = s.fab.rrDst ∧ (s.updPlane i f).fab.ctr = s.fab.ctr ∧ (s.updPlane i f).port = s.port ∧
    (s.updPlane i f).lane = s.lane ∧ (s.updPlane i f).group = s.group ∧ (s.updPlane i f).gate = s.gate ∧
    (s.updPlane i f).tsFifo = s.tsFifo ∧ (s.updPlane i f).stream = s.stream ∧ (s.updPlane i f).cluster = s.cluster ∧
    (s.updPlane i f).fix = s.fix ∧ (s.updPlane i f).flow = s.flow ∧ (s.updPlane i f).target = s.target ∧
    (s.updPlane i f).drop = s.drop ∧ (s.updPlane i f).bus = s.bus ∧ (s.updPlane i f).pclass = s.pclass ∧
    (s.updPlane i f).pair = s.pair ∧ (s.updPlane i f).voq = s.voq ∧ (s.updPlane i f).fabPort = s.fabPort ∧
    (s.updPlane i f).classCfg = s.classCfg ∧ (s.updPlane i f).portClass = s.portClass ∧
    (s.updPlane i f).queue = s.queue ∧ (s.updPlane i f).chan = s.chan ∧ (s.updPlane i f).fifo = s.fifo ∧
    (s.updPlane i f).sliceSt = s.sliceSt ∧ (s.updPlane i f).stack = s.stack ∧ (s.updPlane i f).mp = s.mp ∧
    (s.updPlane i f).mirrorOf = s.mirrorOf ∧ (s.updPlane i f).peer = s.peer ∧ (s.updPlane i f).box = s.box ∧
    (s.updPlane i f).pkt = s.pkt ∧ (s.updPlane i f).node = s.node ∧ (s.updPlane i f).policer = s.policer := by
  refine ⟨?_, ?_, ?_, ?_, ?_, ?_, ?_, ?_, ?_, ?_, ?_, ?_, ?_, ?_, ?_, ?_, ?_, ?_, ?_, ?_, ?_, ?_, ?_, ?_, ?_, ?_, ?_, ?_, ?_, ?_, ?_, ?_, ?_, ?_, ?_, ?_, ?_, ?_, ?_, ?_, ?_, ?_, ?_, ?_, ?_, ?_, ?_, ?_, ?_, ?_, ?_, ?_, ?_, ?_, ?_, ?_, ?_, ?_, ?_, ?_, ?_, ?_, ?_, ?_, ?_, ?_, ?_⟩ <;> rfl

@[simp] theorem State.plane_updPlane (s : State) (i j : Nat) (f : Plane → Plane) :
    (s.updPlane i f).plane j = if i = j then f (s.plane i) else s.plane j := by
  unfold State.plane State.updPlane
  by_cases h : i = j
  · subst h; simp [Tab.upd, Tab.get_set]
  · simp [Tab.upd, Tab.get_set_other, h]

theorem State.plane_updPlane_same (s : State) (i : Nat) (f : Plane → Plane) :
    (s.updPlane i f).plane i = f (s.plane i) := by simp

@[simp] theorem State.updPair_rest (s : State) (i k : Nat) (f : Pair → Pair) :
    (s.updPair i k f).time = s.time ∧ (s.updPair i k f).up = s.up ∧ (s.updPair i k f).ptp = s.ptp ∧
    (s.updPair i k f).tsFifos = s.tsFifos ∧ (s.updPair i k f).gates = s.gates ∧ (s.updPair i k f).lanes = s.lanes ∧
    (s.updPair i k f).groups = s.groups ∧ (s.updPair i k f).ports = s.ports ∧ (s.updPair i k f).prism = s.prism ∧
    (s.updPair i k f).fwd = s.fwd ∧ (s.updPair i k f).buf = s.buf ∧ (s.updPair i k f).pkts = s.pkts ∧
    (s.updPair i k f).nextPkt = s.nextPkt ∧ (s.updPair i k f).sched = s.sched ∧ (s.updPair i k f).frer = s.frer ∧
    (s.updPair i k f).leaven = s.leaven ∧ (s.updPair i k f).proof = s.proof ∧ (s.updPair i k f).evt = s.evt ∧
    (s.updPair i k f).swp = s.swp ∧ (s.updPair i k f).tel = s.tel ∧ (s.updPair i k f).mbx = s.mbx ∧
    (s.updPair i k f).bake = s.bake ∧ (s.updPair i k f).ident = s.ident ∧ (s.updPair i k f).pwr = s.pwr ∧
    (s.updPair i k f).host = s.host ∧ (s.updPair i k f).out = s.out ∧ (s.updPair i k f).free = s.free ∧
    (s.updPair i k f).pending = s.pending ∧ (s.updPair i k f).fab.params = s.fab.params ∧
    (s.updPair i k f).fab.voqs = s.fab.voqs ∧ (s.updPair i k f).fab.multiQ = s.fab.multiQ ∧
    (s.updPair i k f).fab.planes = s.fab.planes ∧ (s.updPair i k f).fab.ports = s.fab.ports ∧
    (s.updPair i k f).fab.links = s.fab.links ∧ (s.updPair i k f).fab.rr = s.fab.rr ∧
    (s.updPair i k f).fab.rrDst = s.fab.rrDst ∧ (s.updPair i k f).fab.ctr = s.fab.ctr ∧ (s.updPair i k f).port = s.port ∧
    (s.updPair i k f).lane = s.lane ∧ (s.updPair i k f).group = s.group ∧ (s.updPair i k f).gate = s.gate ∧
    (s.updPair i k f).tsFifo = s.tsFifo ∧ (s.updPair i k f).stream = s.stream ∧ (s.updPair i k f).cluster = s.cluster ∧
    (s.updPair i k f).fix = s.fix ∧ (s.updPair i k f).flow = s.flow ∧ (s.updPair i k f).target = s.target ∧
    (s.updPair i k f).drop = s.drop ∧ (s.updPair i k f).bus = s.bus ∧ (s.updPair i k f).pclass = s.pclass ∧
    (s.updPair i k f).plane = s.plane ∧ (s.updPair i k f).voq = s.voq ∧ (s.updPair i k f).fabPort = s.fabPort ∧
    (s.updPair i k f).classCfg = s.classCfg ∧ (s.updPair i k f).portClass = s.portClass ∧
    (s.updPair i k f).queue = s.queue ∧ (s.updPair i k f).chan = s.chan ∧ (s.updPair i k f).fifo = s.fifo ∧
    (s.updPair i k f).sliceSt = s.sliceSt ∧ (s.updPair i k f).stack = s.stack ∧ (s.updPair i k f).mp = s.mp ∧
    (s.updPair i k f).mirrorOf = s.mirrorOf ∧ (s.updPair i k f).peer = s.peer ∧ (s.updPair i k f).box = s.box ∧
    (s.updPair i k f).pkt = s.pkt ∧ (s.updPair i k f).node = s.node ∧ (s.updPair i k f).policer = s.policer := by
  refine ⟨?_, ?_, ?_, ?_, ?_, ?_, ?_, ?_, ?_, ?_, ?_, ?_, ?_, ?_, ?_, ?_, ?_, ?_, ?_, ?_, ?_, ?_, ?_, ?_, ?_, ?_, ?_, ?_, ?_, ?_, ?_, ?_, ?_, ?_, ?_, ?_, ?_, ?_, ?_, ?_, ?_, ?_, ?_, ?_, ?_, ?_, ?_, ?_, ?_, ?_, ?_, ?_, ?_, ?_, ?_, ?_, ?_, ?_, ?_, ?_, ?_, ?_, ?_, ?_, ?_, ?_, ?_⟩ <;> rfl

theorem State.pair_updPair (s : State) (i k j l : Nat) (f : Pair → Pair) :
    (s.updPair i k f).pair j l = if 16 * i + k = 16 * j + l then f (s.pair i k) else s.pair j l := by
  unfold State.pair State.updPair
  by_cases h : 16 * i + k = 16 * j + l
  · simp [Tab.upd, Tab.get_set, h]
  · simp [Tab.upd, Tab.get_set_other, h]

@[simp] theorem State.pair_updPair_same (s : State) (i k : Nat) (f : Pair → Pair) :
    (s.updPair i k f).pair i k = f (s.pair i k) := by simp [State.pair_updPair]

@[simp] theorem State.updVoq_rest (s : State) (i k : Nat) (f : Voq → Voq) :
    (s.updVoq i k f).time = s.time ∧ (s.updVoq i k f).up = s.up ∧ (s.updVoq i k f).ptp = s.ptp ∧
    (s.updVoq i k f).tsFifos = s.tsFifos ∧ (s.updVoq i k f).gates = s.gates ∧ (s.updVoq i k f).lanes = s.lanes ∧
    (s.updVoq i k f).groups = s.groups ∧ (s.updVoq i k f).ports = s.ports ∧ (s.updVoq i k f).prism = s.prism ∧
    (s.updVoq i k f).fwd = s.fwd ∧ (s.updVoq i k f).buf = s.buf ∧ (s.updVoq i k f).pkts = s.pkts ∧
    (s.updVoq i k f).nextPkt = s.nextPkt ∧ (s.updVoq i k f).sched = s.sched ∧ (s.updVoq i k f).frer = s.frer ∧
    (s.updVoq i k f).leaven = s.leaven ∧ (s.updVoq i k f).proof = s.proof ∧ (s.updVoq i k f).evt = s.evt ∧
    (s.updVoq i k f).swp = s.swp ∧ (s.updVoq i k f).tel = s.tel ∧ (s.updVoq i k f).mbx = s.mbx ∧
    (s.updVoq i k f).bake = s.bake ∧ (s.updVoq i k f).ident = s.ident ∧ (s.updVoq i k f).pwr = s.pwr ∧
    (s.updVoq i k f).host = s.host ∧ (s.updVoq i k f).out = s.out ∧ (s.updVoq i k f).free = s.free ∧
    (s.updVoq i k f).pending = s.pending ∧ (s.updVoq i k f).fab.params = s.fab.params ∧
    (s.updVoq i k f).fab.multiQ = s.fab.multiQ ∧ (s.updVoq i k f).fab.pairs = s.fab.pairs ∧
    (s.updVoq i k f).fab.planes = s.fab.planes ∧ (s.updVoq i k f).fab.ports = s.fab.ports ∧
    (s.updVoq i k f).fab.links = s.fab.links ∧ (s.updVoq i k f).fab.rr = s.fab.rr ∧
    (s.updVoq i k f).fab.rrDst = s.fab.rrDst ∧ (s.updVoq i k f).fab.ctr = s.fab.ctr ∧ (s.updVoq i k f).port = s.port ∧
    (s.updVoq i k f).lane = s.lane ∧ (s.updVoq i k f).group = s.group ∧ (s.updVoq i k f).gate = s.gate ∧
    (s.updVoq i k f).tsFifo = s.tsFifo ∧ (s.updVoq i k f).stream = s.stream ∧ (s.updVoq i k f).cluster = s.cluster ∧
    (s.updVoq i k f).fix = s.fix ∧ (s.updVoq i k f).flow = s.flow ∧ (s.updVoq i k f).target = s.target ∧
    (s.updVoq i k f).drop = s.drop ∧ (s.updVoq i k f).bus = s.bus ∧ (s.updVoq i k f).pclass = s.pclass ∧
    (s.updVoq i k f).plane = s.plane ∧ (s.updVoq i k f).pair = s.pair ∧ (s.updVoq i k f).fabPort = s.fabPort ∧
    (s.updVoq i k f).classCfg = s.classCfg ∧ (s.updVoq i k f).portClass = s.portClass ∧
    (s.updVoq i k f).queue = s.queue ∧ (s.updVoq i k f).chan = s.chan ∧ (s.updVoq i k f).fifo = s.fifo ∧
    (s.updVoq i k f).sliceSt = s.sliceSt ∧ (s.updVoq i k f).stack = s.stack ∧ (s.updVoq i k f).mp = s.mp ∧
    (s.updVoq i k f).mirrorOf = s.mirrorOf ∧ (s.updVoq i k f).peer = s.peer ∧ (s.updVoq i k f).box = s.box ∧
    (s.updVoq i k f).pkt = s.pkt ∧ (s.updVoq i k f).node = s.node ∧ (s.updVoq i k f).policer = s.policer := by
  refine ⟨?_, ?_, ?_, ?_, ?_, ?_, ?_, ?_, ?_, ?_, ?_, ?_, ?_, ?_, ?_, ?_, ?_, ?_, ?_, ?_, ?_, ?_, ?_, ?_, ?_, ?_, ?_, ?_, ?_, ?_, ?_, ?_, ?_, ?_, ?_, ?_, ?_, ?_, ?_, ?_, ?_, ?_, ?_, ?_, ?_, ?_, ?_, ?_, ?_, ?_, ?_, ?_, ?_, ?_, ?_, ?_, ?_, ?_, ?_, ?_, ?_, ?_, ?_, ?_, ?_, ?_, ?_⟩ <;> rfl

theorem State.voq_updVoq (s : State) (i k j l : Nat) (f : Voq → Voq) :
    (s.updVoq i k f).voq j l = if 32800 * i + k = 32800 * j + l then f (s.voq i k) else s.voq j l := by
  unfold State.voq State.updVoq
  by_cases h : 32800 * i + k = 32800 * j + l
  · simp [Tab.upd, Tab.get_set, h]
  · simp [Tab.upd, Tab.get_set_other, h]

@[simp] theorem State.voq_updVoq_same (s : State) (i k : Nat) (f : Voq → Voq) :
    (s.updVoq i k f).voq i k = f (s.voq i k) := by simp [State.voq_updVoq]

@[simp] theorem State.updFabPort_rest (s : State) (i k : Nat) (f : FabPort → FabPort) :
    (s.updFabPort i k f).time = s.time ∧ (s.updFabPort i k f).up = s.up ∧ (s.updFabPort i k f).ptp = s.ptp ∧
    (s.updFabPort i k f).tsFifos = s.tsFifos ∧ (s.updFabPort i k f).gates = s.gates ∧
    (s.updFabPort i k f).lanes = s.lanes ∧ (s.updFabPort i k f).groups = s.groups ∧
    (s.updFabPort i k f).ports = s.ports ∧ (s.updFabPort i k f).prism = s.prism ∧ (s.updFabPort i k f).fwd = s.fwd ∧
    (s.updFabPort i k f).buf = s.buf ∧ (s.updFabPort i k f).pkts = s.pkts ∧ (s.updFabPort i k f).nextPkt = s.nextPkt ∧
    (s.updFabPort i k f).sched = s.sched ∧ (s.updFabPort i k f).frer = s.frer ∧ (s.updFabPort i k f).leaven = s.leaven ∧
    (s.updFabPort i k f).proof = s.proof ∧ (s.updFabPort i k f).evt = s.evt ∧ (s.updFabPort i k f).swp = s.swp ∧
    (s.updFabPort i k f).tel = s.tel ∧ (s.updFabPort i k f).mbx = s.mbx ∧ (s.updFabPort i k f).bake = s.bake ∧
    (s.updFabPort i k f).ident = s.ident ∧ (s.updFabPort i k f).pwr = s.pwr ∧ (s.updFabPort i k f).host = s.host ∧
    (s.updFabPort i k f).out = s.out ∧ (s.updFabPort i k f).free = s.free ∧ (s.updFabPort i k f).pending = s.pending ∧
    (s.updFabPort i k f).fab.params = s.fab.params ∧ (s.updFabPort i k f).fab.voqs = s.fab.voqs ∧
    (s.updFabPort i k f).fab.multiQ = s.fab.multiQ ∧ (s.updFabPort i k f).fab.pairs = s.fab.pairs ∧
    (s.updFabPort i k f).fab.planes = s.fab.planes ∧ (s.updFabPort i k f).fab.links = s.fab.links ∧
    (s.updFabPort i k f).fab.rr = s.fab.rr ∧ (s.updFabPort i k f).fab.rrDst = s.fab.rrDst ∧
    (s.updFabPort i k f).fab.ctr = s.fab.ctr ∧ (s.updFabPort i k f).port = s.port ∧ (s.updFabPort i k f).lane = s.lane ∧
    (s.updFabPort i k f).group = s.group ∧ (s.updFabPort i k f).gate = s.gate ∧ (s.updFabPort i k f).tsFifo = s.tsFifo ∧
    (s.updFabPort i k f).stream = s.stream ∧ (s.updFabPort i k f).cluster = s.cluster ∧
    (s.updFabPort i k f).fix = s.fix ∧ (s.updFabPort i k f).flow = s.flow ∧ (s.updFabPort i k f).target = s.target ∧
    (s.updFabPort i k f).drop = s.drop ∧ (s.updFabPort i k f).bus = s.bus ∧ (s.updFabPort i k f).pclass = s.pclass ∧
    (s.updFabPort i k f).plane = s.plane ∧ (s.updFabPort i k f).pair = s.pair ∧ (s.updFabPort i k f).voq = s.voq ∧
    (s.updFabPort i k f).classCfg = s.classCfg ∧ (s.updFabPort i k f).portClass = s.portClass ∧
    (s.updFabPort i k f).queue = s.queue ∧ (s.updFabPort i k f).chan = s.chan ∧ (s.updFabPort i k f).fifo = s.fifo ∧
    (s.updFabPort i k f).sliceSt = s.sliceSt ∧ (s.updFabPort i k f).stack = s.stack ∧ (s.updFabPort i k f).mp = s.mp ∧
    (s.updFabPort i k f).mirrorOf = s.mirrorOf ∧ (s.updFabPort i k f).peer = s.peer ∧ (s.updFabPort i k f).box = s.box ∧
    (s.updFabPort i k f).pkt = s.pkt ∧ (s.updFabPort i k f).node = s.node ∧ (s.updFabPort i k f).policer = s.policer := by
  refine ⟨?_, ?_, ?_, ?_, ?_, ?_, ?_, ?_, ?_, ?_, ?_, ?_, ?_, ?_, ?_, ?_, ?_, ?_, ?_, ?_, ?_, ?_, ?_, ?_, ?_, ?_, ?_, ?_, ?_, ?_, ?_, ?_, ?_, ?_, ?_, ?_, ?_, ?_, ?_, ?_, ?_, ?_, ?_, ?_, ?_, ?_, ?_, ?_, ?_, ?_, ?_, ?_, ?_, ?_, ?_, ?_, ?_, ?_, ?_, ?_, ?_, ?_, ?_, ?_, ?_, ?_, ?_⟩ <;> rfl

theorem State.fabPort_updFabPort (s : State) (i k j l : Nat) (f : FabPort → FabPort) :
    (s.updFabPort i k f).fabPort j l = if 8 * i + k = 8 * j + l then f (s.fabPort i k) else s.fabPort j l := by
  unfold State.fabPort State.updFabPort
  by_cases h : 8 * i + k = 8 * j + l
  · simp [Tab.upd, Tab.get_set, h]
  · simp [Tab.upd, Tab.get_set_other, h]

@[simp] theorem State.fabPort_updFabPort_same (s : State) (i k : Nat) (f : FabPort → FabPort) :
    (s.updFabPort i k f).fabPort i k = f (s.fabPort i k) := by simp [State.fabPort_updFabPort]

@[simp] theorem State.updPortClass_rest (s : State) (i k : Nat) (f : PortClass → PortClass) :
    (s.updPortClass i k f).time = s.time ∧ (s.updPortClass i k f).up = s.up ∧ (s.updPortClass i k f).ptp = s.ptp ∧
    (s.updPortClass i k f).tsFifos = s.tsFifos ∧ (s.updPortClass i k f).gates = s.gates ∧
    (s.updPortClass i k f).lanes = s.lanes ∧ (s.updPortClass i k f).groups = s.groups ∧
    (s.updPortClass i k f).ports = s.ports ∧ (s.updPortClass i k f).prism = s.prism ∧
    (s.updPortClass i k f).fwd = s.fwd ∧ (s.updPortClass i k f).pkts = s.pkts ∧
    (s.updPortClass i k f).nextPkt = s.nextPkt ∧ (s.updPortClass i k f).fab = s.fab ∧
    (s.updPortClass i k f).sched = s.sched ∧ (s.updPortClass i k f).frer = s.frer ∧
    (s.updPortClass i k f).leaven = s.leaven ∧ (s.updPortClass i k f).proof = s.proof ∧
    (s.updPortClass i k f).evt = s.evt ∧ (s.updPortClass i k f).swp = s.swp ∧ (s.updPortClass i k f).tel = s.tel ∧
    (s.updPortClass i k f).mbx = s.mbx ∧ (s.updPortClass i k f).bake = s.bake ∧ (s.updPortClass i k f).ident = s.ident ∧
    (s.updPortClass i k f).pwr = s.pwr ∧ (s.updPortClass i k f).host = s.host ∧ (s.updPortClass i k f).out = s.out ∧
    (s.updPortClass i k f).free = s.free ∧ (s.updPortClass i k f).pending = s.pending ∧
    (s.updPortClass i k f).buf.usedCells = s.buf.usedCells ∧ (s.updPortClass i k f).buf.allocStart = s.buf.allocStart ∧
    (s.updPortClass i k f).buf.classes = s.buf.classes ∧ (s.updPortClass i k f).buf.wred = s.buf.wred ∧
    (s.updPortClass i k f).buf.queues = s.buf.queues ∧ (s.updPortClass i k f).buf.spillVoqs = s.buf.spillVoqs ∧
    (s.updPortClass i k f).buf.lfsr = s.buf.lfsr ∧ (s.updPortClass i k f).buf.pool0 = s.buf.pool0 ∧
    (s.updPortClass i k f).buf.pool1 = s.buf.pool1 ∧ (s.updPortClass i k f).buf.pool2 = s.buf.pool2 ∧
    (s.updPortClass i k f).buf.pool3 = s.buf.pool3 ∧ (s.updPortClass i k f).buf.ctr = s.buf.ctr ∧
    (s.updPortClass i k f).port = s.port ∧ (s.updPortClass i k f).lane = s.lane ∧
    (s.updPortClass i k f).group = s.group ∧ (s.updPortClass i k f).gate = s.gate ∧
    (s.updPortClass i k f).tsFifo = s.tsFifo ∧ (s.updPortClass i k f).stream = s.stream ∧
    (s.updPortClass i k f).cluster = s.cluster ∧ (s.updPortClass i k f).fix = s.fix ∧
    (s.updPortClass i k f).flow = s.flow ∧ (s.updPortClass i k f).target = s.target ∧
    (s.updPortClass i k f).drop = s.drop ∧ (s.updPortClass i k f).bus = s.bus ∧
    (s.updPortClass i k f).pclass = s.pclass ∧ (s.updPortClass i k f).plane = s.plane ∧
    (s.updPortClass i k f).pair = s.pair ∧ (s.updPortClass i k f).voq = s.voq ∧
    (s.updPortClass i k f).fabPort = s.fabPort ∧ (s.updPortClass i k f).classCfg = s.classCfg ∧
    (s.updPortClass i k f).queue = s.queue ∧ (s.updPortClass i k f).chan = s.chan ∧
    (s.updPortClass i k f).fifo = s.fifo ∧ (s.updPortClass i k f).sliceSt = s.sliceSt ∧
    (s.updPortClass i k f).stack = s.stack ∧ (s.updPortClass i k f).mp = s.mp ∧
    (s.updPortClass i k f).mirrorOf = s.mirrorOf ∧ (s.updPortClass i k f).peer = s.peer ∧
    (s.updPortClass i k f).box = s.box ∧ (s.updPortClass i k f).pkt = s.pkt ∧ (s.updPortClass i k f).node = s.node ∧
    (s.updPortClass i k f).policer = s.policer := by
  refine ⟨?_, ?_, ?_, ?_, ?_, ?_, ?_, ?_, ?_, ?_, ?_, ?_, ?_, ?_, ?_, ?_, ?_, ?_, ?_, ?_, ?_, ?_, ?_, ?_, ?_, ?_, ?_, ?_, ?_, ?_, ?_, ?_, ?_, ?_, ?_, ?_, ?_, ?_, ?_, ?_, ?_, ?_, ?_, ?_, ?_, ?_, ?_, ?_, ?_, ?_, ?_, ?_, ?_, ?_, ?_, ?_, ?_, ?_, ?_, ?_, ?_, ?_, ?_, ?_, ?_, ?_, ?_, ?_, ?_, ?_⟩ <;> rfl

theorem State.portClass_updPortClass (s : State) (i k j l : Nat) (f : PortClass → PortClass) :
    (s.updPortClass i k f).portClass j l = if 8 * i + k = 8 * j + l then f (s.portClass i k) else s.portClass j l := by
  unfold State.portClass State.updPortClass
  by_cases h : 8 * i + k = 8 * j + l
  · simp [Tab.upd, Tab.get_set, h]
  · simp [Tab.upd, Tab.get_set_other, h]

@[simp] theorem State.portClass_updPortClass_same (s : State) (i k : Nat) (f : PortClass → PortClass) :
    (s.updPortClass i k f).portClass i k = f (s.portClass i k) := by simp [State.portClass_updPortClass]

@[simp] theorem State.updQueue_rest (s : State) (i : Nat) (f : QueueSt → QueueSt) :
    (s.updQueue i f).time = s.time ∧ (s.updQueue i f).up = s.up ∧ (s.updQueue i f).ptp = s.ptp ∧
    (s.updQueue i f).tsFifos = s.tsFifos ∧ (s.updQueue i f).gates = s.gates ∧ (s.updQueue i f).lanes = s.lanes ∧
    (s.updQueue i f).groups = s.groups ∧ (s.updQueue i f).ports = s.ports ∧ (s.updQueue i f).prism = s.prism ∧
    (s.updQueue i f).fwd = s.fwd ∧ (s.updQueue i f).pkts = s.pkts ∧ (s.updQueue i f).nextPkt = s.nextPkt ∧
    (s.updQueue i f).fab = s.fab ∧ (s.updQueue i f).sched = s.sched ∧ (s.updQueue i f).frer = s.frer ∧
    (s.updQueue i f).leaven = s.leaven ∧ (s.updQueue i f).proof = s.proof ∧ (s.updQueue i f).evt = s.evt ∧
    (s.updQueue i f).swp = s.swp ∧ (s.updQueue i f).tel = s.tel ∧ (s.updQueue i f).mbx = s.mbx ∧
    (s.updQueue i f).bake = s.bake ∧ (s.updQueue i f).ident = s.ident ∧ (s.updQueue i f).pwr = s.pwr ∧
    (s.updQueue i f).host = s.host ∧ (s.updQueue i f).out = s.out ∧ (s.updQueue i f).free = s.free ∧
    (s.updQueue i f).pending = s.pending ∧ (s.updQueue i f).buf.usedCells = s.buf.usedCells ∧
    (s.updQueue i f).buf.allocStart = s.buf.allocStart ∧ (s.updQueue i f).buf.classes = s.buf.classes ∧
    (s.updQueue i f).buf.portClass = s.buf.portClass ∧ (s.updQueue i f).buf.wred = s.buf.wred ∧
    (s.updQueue i f).buf.spillVoqs = s.buf.spillVoqs ∧ (s.updQueue i f).buf.lfsr = s.buf.lfsr ∧
    (s.updQueue i f).buf.pool0 = s.buf.pool0 ∧ (s.updQueue i f).buf.pool1 = s.buf.pool1 ∧
    (s.updQueue i f).buf.pool2 = s.buf.pool2 ∧ (s.updQueue i f).buf.pool3 = s.buf.pool3 ∧
    (s.updQueue i f).buf.ctr = s.buf.ctr ∧ (s.updQueue i f).port = s.port ∧ (s.updQueue i f).lane = s.lane ∧
    (s.updQueue i f).group = s.group ∧ (s.updQueue i f).gate = s.gate ∧ (s.updQueue i f).tsFifo = s.tsFifo ∧
    (s.updQueue i f).stream = s.stream ∧ (s.updQueue i f).cluster = s.cluster ∧ (s.updQueue i f).fix = s.fix ∧
    (s.updQueue i f).flow = s.flow ∧ (s.updQueue i f).target = s.target ∧ (s.updQueue i f).drop = s.drop ∧
    (s.updQueue i f).bus = s.bus ∧ (s.updQueue i f).pclass = s.pclass ∧ (s.updQueue i f).plane = s.plane ∧
    (s.updQueue i f).pair = s.pair ∧ (s.updQueue i f).voq = s.voq ∧ (s.updQueue i f).fabPort = s.fabPort ∧
    (s.updQueue i f).classCfg = s.classCfg ∧ (s.updQueue i f).portClass = s.portClass ∧ (s.updQueue i f).chan = s.chan ∧
    (s.updQueue i f).fifo = s.fifo ∧ (s.updQueue i f).sliceSt = s.sliceSt ∧ (s.updQueue i f).stack = s.stack ∧
    (s.updQueue i f).mp = s.mp ∧ (s.updQueue i f).mirrorOf = s.mirrorOf ∧ (s.updQueue i f).peer = s.peer ∧
    (s.updQueue i f).box = s.box ∧ (s.updQueue i f).pkt = s.pkt ∧ (s.updQueue i f).node = s.node ∧
    (s.updQueue i f).policer = s.policer := by
  refine ⟨?_, ?_, ?_, ?_, ?_, ?_, ?_, ?_, ?_, ?_, ?_, ?_, ?_, ?_, ?_, ?_, ?_, ?_, ?_, ?_, ?_, ?_, ?_, ?_, ?_, ?_, ?_, ?_, ?_, ?_, ?_, ?_, ?_, ?_, ?_, ?_, ?_, ?_, ?_, ?_, ?_, ?_, ?_, ?_, ?_, ?_, ?_, ?_, ?_, ?_, ?_, ?_, ?_, ?_, ?_, ?_, ?_, ?_, ?_, ?_, ?_, ?_, ?_, ?_, ?_, ?_, ?_, ?_, ?_, ?_⟩ <;> rfl

@[simp] theorem State.queue_updQueue (s : State) (i j : Nat) (f : QueueSt → QueueSt) :
    (s.updQueue i f).queue j = if i = j then f (s.queue i) else s.queue j := by
  unfold State.queue State.updQueue
  by_cases h : i = j
  · subst h; simp [Tab.upd, Tab.get_set]
  · simp [Tab.upd, Tab.get_set_other, h]

theorem State.queue_updQueue_same (s : State) (i : Nat) (f : QueueSt → QueueSt) :
    (s.updQueue i f).queue i = f (s.queue i) := by simp

@[simp] theorem State.updChan_rest (s : State) (i : Nat) (f : Chan → Chan) :
    (s.updChan i f).time = s.time ∧ (s.updChan i f).up = s.up ∧ (s.updChan i f).ptp = s.ptp ∧
    (s.updChan i f).tsFifos = s.tsFifos ∧ (s.updChan i f).gates = s.gates ∧ (s.updChan i f).lanes = s.lanes ∧
    (s.updChan i f).groups = s.groups ∧ (s.updChan i f).ports = s.ports ∧ (s.updChan i f).prism = s.prism ∧
    (s.updChan i f).fwd = s.fwd ∧ (s.updChan i f).buf = s.buf ∧ (s.updChan i f).pkts = s.pkts ∧
    (s.updChan i f).nextPkt = s.nextPkt ∧ (s.updChan i f).fab = s.fab ∧ (s.updChan i f).sched = s.sched ∧
    (s.updChan i f).frer = s.frer ∧ (s.updChan i f).leaven = s.leaven ∧ (s.updChan i f).proof = s.proof ∧
    (s.updChan i f).evt = s.evt ∧ (s.updChan i f).swp = s.swp ∧ (s.updChan i f).tel = s.tel ∧
    (s.updChan i f).mbx = s.mbx ∧ (s.updChan i f).bake = s.bake ∧ (s.updChan i f).ident = s.ident ∧
    (s.updChan i f).pwr = s.pwr ∧ (s.updChan i f).out = s.out ∧ (s.updChan i f).free = s.free ∧
    (s.updChan i f).pending = s.pending ∧ (s.updChan i f).host.mapVec = s.host.mapVec ∧
    (s.updChan i f).host.mapEn = s.host.mapEn ∧ (s.updChan i f).host.msix = s.host.msix ∧
    (s.updChan i f).host.fifos = s.host.fifos ∧ (s.updChan i f).host.waitFetch = s.host.waitFetch ∧
    (s.updChan i f).host.staging = s.host.staging ∧ (s.updChan i f).host.links = s.host.links ∧
    (s.updChan i f).host.pending = s.host.pending ∧ (s.updChan i f).port = s.port ∧ (s.updChan i f).lane = s.lane ∧
    (s.updChan i f).group = s.group ∧ (s.updChan i f).gate = s.gate ∧ (s.updChan i f).tsFifo = s.tsFifo ∧
    (s.updChan i f).stream = s.stream ∧ (s.updChan i f).cluster = s.cluster ∧ (s.updChan i f).fix = s.fix ∧
    (s.updChan i f).flow = s.flow ∧ (s.updChan i f).target = s.target ∧ (s.updChan i f).drop = s.drop ∧
    (s.updChan i f).bus = s.bus ∧ (s.updChan i f).pclass = s.pclass ∧ (s.updChan i f).plane = s.plane ∧
    (s.updChan i f).pair = s.pair ∧ (s.updChan i f).voq = s.voq ∧ (s.updChan i f).fabPort = s.fabPort ∧
    (s.updChan i f).classCfg = s.classCfg ∧ (s.updChan i f).portClass = s.portClass ∧ (s.updChan i f).queue = s.queue ∧
    (s.updChan i f).fifo = s.fifo ∧ (s.updChan i f).sliceSt = s.sliceSt ∧ (s.updChan i f).stack = s.stack ∧
    (s.updChan i f).mp = s.mp ∧ (s.updChan i f).mirrorOf = s.mirrorOf ∧ (s.updChan i f).peer = s.peer ∧
    (s.updChan i f).box = s.box ∧ (s.updChan i f).pkt = s.pkt ∧ (s.updChan i f).node = s.node ∧
    (s.updChan i f).policer = s.policer := by
  refine ⟨?_, ?_, ?_, ?_, ?_, ?_, ?_, ?_, ?_, ?_, ?_, ?_, ?_, ?_, ?_, ?_, ?_, ?_, ?_, ?_, ?_, ?_, ?_, ?_, ?_, ?_, ?_, ?_, ?_, ?_, ?_, ?_, ?_, ?_, ?_, ?_, ?_, ?_, ?_, ?_, ?_, ?_, ?_, ?_, ?_, ?_, ?_, ?_, ?_, ?_, ?_, ?_, ?_, ?_, ?_, ?_, ?_, ?_, ?_, ?_, ?_, ?_, ?_, ?_, ?_, ?_⟩ <;> rfl

@[simp] theorem State.chan_updChan (s : State) (i j : Nat) (f : Chan → Chan) :
    (s.updChan i f).chan j = if i = j then f (s.chan i) else s.chan j := by
  unfold State.chan State.updChan
  by_cases h : i = j
  · subst h; simp [Tab.upd, Tab.get_set]
  · simp [Tab.upd, Tab.get_set_other, h]

theorem State.chan_updChan_same (s : State) (i : Nat) (f : Chan → Chan) :
    (s.updChan i f).chan i = f (s.chan i) := by simp

@[simp] theorem State.updFifo_rest (s : State) (i : Nat) (f : HFifo → HFifo) :
    (s.updFifo i f).time = s.time ∧ (s.updFifo i f).up = s.up ∧ (s.updFifo i f).ptp = s.ptp ∧
    (s.updFifo i f).tsFifos = s.tsFifos ∧ (s.updFifo i f).gates = s.gates ∧ (s.updFifo i f).lanes = s.lanes ∧
    (s.updFifo i f).groups = s.groups ∧ (s.updFifo i f).ports = s.ports ∧ (s.updFifo i f).prism = s.prism ∧
    (s.updFifo i f).fwd = s.fwd ∧ (s.updFifo i f).buf = s.buf ∧ (s.updFifo i f).pkts = s.pkts ∧
    (s.updFifo i f).nextPkt = s.nextPkt ∧ (s.updFifo i f).fab = s.fab ∧ (s.updFifo i f).sched = s.sched ∧
    (s.updFifo i f).frer = s.frer ∧ (s.updFifo i f).leaven = s.leaven ∧ (s.updFifo i f).proof = s.proof ∧
    (s.updFifo i f).evt = s.evt ∧ (s.updFifo i f).swp = s.swp ∧ (s.updFifo i f).tel = s.tel ∧
    (s.updFifo i f).mbx = s.mbx ∧ (s.updFifo i f).bake = s.bake ∧ (s.updFifo i f).ident = s.ident ∧
    (s.updFifo i f).pwr = s.pwr ∧ (s.updFifo i f).out = s.out ∧ (s.updFifo i f).free = s.free ∧
    (s.updFifo i f).pending = s.pending ∧ (s.updFifo i f).host.mapVec = s.host.mapVec ∧
    (s.updFifo i f).host.mapEn = s.host.mapEn ∧ (s.updFifo i f).host.msix = s.host.msix ∧
    (s.updFifo i f).host.chans = s.host.chans ∧ (s.updFifo i f).host.waitFetch = s.host.waitFetch ∧
    (s.updFifo i f).host.staging = s.host.staging ∧ (s.updFifo i f).host.links = s.host.links ∧
    (s.updFifo i f).host.pending = s.host.pending ∧ (s.updFifo i f).port = s.port ∧ (s.updFifo i f).lane = s.lane ∧
    (s.updFifo i f).group = s.group ∧ (s.updFifo i f).gate = s.gate ∧ (s.updFifo i f).tsFifo = s.tsFifo ∧
    (s.updFifo i f).stream = s.stream ∧ (s.updFifo i f).cluster = s.cluster ∧ (s.updFifo i f).fix = s.fix ∧
    (s.updFifo i f).flow = s.flow ∧ (s.updFifo i f).target = s.target ∧ (s.updFifo i f).drop = s.drop ∧
    (s.updFifo i f).bus = s.bus ∧ (s.updFifo i f).pclass = s.pclass ∧ (s.updFifo i f).plane = s.plane ∧
    (s.updFifo i f).pair = s.pair ∧ (s.updFifo i f).voq = s.voq ∧ (s.updFifo i f).fabPort = s.fabPort ∧
    (s.updFifo i f).classCfg = s.classCfg ∧ (s.updFifo i f).portClass = s.portClass ∧ (s.updFifo i f).queue = s.queue ∧
    (s.updFifo i f).chan = s.chan ∧ (s.updFifo i f).sliceSt = s.sliceSt ∧ (s.updFifo i f).stack = s.stack ∧
    (s.updFifo i f).mp = s.mp ∧ (s.updFifo i f).mirrorOf = s.mirrorOf ∧ (s.updFifo i f).peer = s.peer ∧
    (s.updFifo i f).box = s.box ∧ (s.updFifo i f).pkt = s.pkt ∧ (s.updFifo i f).node = s.node ∧
    (s.updFifo i f).policer = s.policer := by
  refine ⟨?_, ?_, ?_, ?_, ?_, ?_, ?_, ?_, ?_, ?_, ?_, ?_, ?_, ?_, ?_, ?_, ?_, ?_, ?_, ?_, ?_, ?_, ?_, ?_, ?_, ?_, ?_, ?_, ?_, ?_, ?_, ?_, ?_, ?_, ?_, ?_, ?_, ?_, ?_, ?_, ?_, ?_, ?_, ?_, ?_, ?_, ?_, ?_, ?_, ?_, ?_, ?_, ?_, ?_, ?_, ?_, ?_, ?_, ?_, ?_, ?_, ?_, ?_, ?_, ?_, ?_⟩ <;> rfl

@[simp] theorem State.fifo_updFifo (s : State) (i j : Nat) (f : HFifo → HFifo) :
    (s.updFifo i f).fifo j = if i = j then (f (s.fifo i)).synced else s.fifo j := by
  unfold State.fifo State.updFifo
  by_cases h : i = j
  · subst h; simp [Tab.upd, Tab.get_set]
  · simp [Tab.upd, Tab.get_set_other, h]

theorem State.fifo_updFifo_same (s : State) (i : Nat) (f : HFifo → HFifo) :
    (s.updFifo i f).fifo i = (f (s.fifo i)).synced := by simp

@[simp] theorem State.updSlice_rest (s : State) (i : Nat) (f : SliceSt → SliceSt) :
    (s.updSlice i f).time = s.time ∧ (s.updSlice i f).up = s.up ∧ (s.updSlice i f).ptp = s.ptp ∧
    (s.updSlice i f).tsFifos = s.tsFifos ∧ (s.updSlice i f).gates = s.gates ∧ (s.updSlice i f).lanes = s.lanes ∧
    (s.updSlice i f).groups = s.groups ∧ (s.updSlice i f).ports = s.ports ∧ (s.updSlice i f).prism = s.prism ∧
    (s.updSlice i f).fwd = s.fwd ∧ (s.updSlice i f).buf = s.buf ∧ (s.updSlice i f).pkts = s.pkts ∧
    (s.updSlice i f).nextPkt = s.nextPkt ∧ (s.updSlice i f).fab = s.fab ∧ (s.updSlice i f).sched = s.sched ∧
    (s.updSlice i f).frer = s.frer ∧ (s.updSlice i f).leaven = s.leaven ∧ (s.updSlice i f).proof = s.proof ∧
    (s.updSlice i f).evt = s.evt ∧ (s.updSlice i f).swp = s.swp ∧ (s.updSlice i f).tel = s.tel ∧
    (s.updSlice i f).mbx = s.mbx ∧ (s.updSlice i f).bake = s.bake ∧ (s.updSlice i f).ident = s.ident ∧
    (s.updSlice i f).host = s.host ∧ (s.updSlice i f).out = s.out ∧ (s.updSlice i f).free = s.free ∧
    (s.updSlice i f).pending = s.pending ∧ (s.updSlice i f).pwr.inReset = s.pwr.inReset ∧
    (s.updSlice i f).pwr.porst = s.pwr.porst ∧ (s.updSlice i f).pwr.wrst = s.pwr.wrst ∧
    (s.updSlice i f).pwr.supplies = s.pwr.supplies ∧ (s.updSlice i f).pwr.bringup = s.pwr.bringup ∧
    (s.updSlice i f).pwr.emergency = s.pwr.emergency ∧ (s.updSlice i f).pwr.lastCause = s.pwr.lastCause ∧
    (s.updSlice i f).pwr.flashCause = s.pwr.flashCause ∧ (s.updSlice i f).pwr.hotAtRecord = s.pwr.hotAtRecord ∧
    (s.updSlice i f).pwr.roleStrap = s.pwr.roleStrap ∧ (s.updSlice i f).pwr.variant = s.pwr.variant ∧
    (s.updSlice i f).pwr.stepping = s.pwr.stepping ∧ (s.updSlice i f).pwr.warnC = s.pwr.warnC ∧
    (s.updSlice i f).pwr.warn = s.pwr.warn ∧ (s.updSlice i f).pwr.trip = s.pwr.trip ∧
    (s.updSlice i f).pwr.hottest = s.pwr.hottest ∧ (s.updSlice i f).pwr.lifeW = s.pwr.lifeW ∧
    (s.updSlice i f).pwr.hours = s.pwr.hours ∧ (s.updSlice i f).pwr.hbms = s.pwr.hbms ∧
    (s.updSlice i f).pwr.regions = s.pwr.regions ∧ (s.updSlice i f).pwr.mps = s.pwr.mps ∧
    (s.updSlice i f).pwr.failing = s.pwr.failing ∧ (s.updSlice i f).pwr.healthGen = s.pwr.healthGen ∧
    (s.updSlice i f).pwr.repairLog = s.pwr.repairLog ∧ (s.updSlice i f).pwr.marginPeriod = s.pwr.marginPeriod ∧
    (s.updSlice i f).pwr.marginH = s.pwr.marginH ∧ (s.updSlice i f).pwr.marginW = s.pwr.marginW ∧
    (s.updSlice i f).port = s.port ∧ (s.updSlice i f).lane = s.lane ∧ (s.updSlice i f).group = s.group ∧
    (s.updSlice i f).gate = s.gate ∧ (s.updSlice i f).tsFifo = s.tsFifo ∧ (s.updSlice i f).stream = s.stream ∧
    (s.updSlice i f).cluster = s.cluster ∧ (s.updSlice i f).fix = s.fix ∧ (s.updSlice i f).flow = s.flow ∧
    (s.updSlice i f).target = s.target ∧ (s.updSlice i f).drop = s.drop ∧ (s.updSlice i f).bus = s.bus ∧
    (s.updSlice i f).pclass = s.pclass ∧ (s.updSlice i f).plane = s.plane ∧ (s.updSlice i f).pair = s.pair ∧
    (s.updSlice i f).voq = s.voq ∧ (s.updSlice i f).fabPort = s.fabPort ∧ (s.updSlice i f).classCfg = s.classCfg ∧
    (s.updSlice i f).portClass = s.portClass ∧ (s.updSlice i f).queue = s.queue ∧ (s.updSlice i f).chan = s.chan ∧
    (s.updSlice i f).fifo = s.fifo ∧ (s.updSlice i f).stack = s.stack ∧ (s.updSlice i f).mp = s.mp ∧
    (s.updSlice i f).mirrorOf = s.mirrorOf ∧ (s.updSlice i f).peer = s.peer ∧ (s.updSlice i f).box = s.box ∧
    (s.updSlice i f).pkt = s.pkt ∧ (s.updSlice i f).node = s.node ∧ (s.updSlice i f).policer = s.policer := by
  refine ⟨?_, ?_, ?_, ?_, ?_, ?_, ?_, ?_, ?_, ?_, ?_, ?_, ?_, ?_, ?_, ?_, ?_, ?_, ?_, ?_, ?_, ?_, ?_, ?_, ?_, ?_, ?_, ?_, ?_, ?_, ?_, ?_, ?_, ?_, ?_, ?_, ?_, ?_, ?_, ?_, ?_, ?_, ?_, ?_, ?_, ?_, ?_, ?_, ?_, ?_, ?_, ?_, ?_, ?_, ?_, ?_, ?_, ?_, ?_, ?_, ?_, ?_, ?_, ?_, ?_, ?_, ?_, ?_, ?_, ?_, ?_, ?_, ?_, ?_, ?_, ?_, ?_, ?_, ?_, ?_, ?_, ?_, ?_, ?_, ?_⟩ <;> rfl

@[simp] theorem State.sliceSt_updSlice (s : State) (i j : Nat) (f : SliceSt → SliceSt) :
    (s.updSlice i f).sliceSt j = if i = j then f (s.sliceSt i) else s.sliceSt j := by
  unfold State.sliceSt State.updSlice
  by_cases h : i = j
  · subst h; simp [Tab.upd, Tab.get_set]
  · simp [Tab.upd, Tab.get_set_other, h]

theorem State.sliceSt_updSlice_same (s : State) (i : Nat) (f : SliceSt → SliceSt) :
    (s.updSlice i f).sliceSt i = f (s.sliceSt i) := by simp

@[simp] theorem State.updStack_rest (s : State) (i : Nat) (f : Stack → Stack) :
    (s.updStack i f).time = s.time ∧ (s.updStack i f).up = s.up ∧ (s.updStack i f).ptp = s.ptp ∧
    (s.updStack i f).tsFifos = s.tsFifos ∧ (s.updStack i f).gates = s.gates ∧ (s.updStack i f).lanes = s.lanes ∧
    (s.updStack i f).groups = s.groups ∧ (s.updStack i f).ports = s.ports ∧ (s.updStack i f).prism = s.prism ∧
    (s.updStack i f).fwd = s.fwd ∧ (s.updStack i f).buf = s.buf ∧ (s.updStack i f).pkts = s.pkts ∧
    (s.updStack i f).nextPkt = s.nextPkt ∧ (s.updStack i f).fab = s.fab ∧ (s.updStack i f).sched = s.sched ∧
    (s.updStack i f).frer = s.frer ∧ (s.updStack i f).leaven = s.leaven ∧ (s.updStack i f).proof = s.proof ∧
    (s.updStack i f).evt = s.evt ∧ (s.updStack i f).swp = s.swp ∧ (s.updStack i f).tel = s.tel ∧
    (s.updStack i f).mbx = s.mbx ∧ (s.updStack i f).bake = s.bake ∧ (s.updStack i f).ident = s.ident ∧
    (s.updStack i f).host = s.host ∧ (s.updStack i f).out = s.out ∧ (s.updStack i f).free = s.free ∧
    (s.updStack i f).pending = s.pending ∧ (s.updStack i f).pwr.inReset = s.pwr.inReset ∧
    (s.updStack i f).pwr.porst = s.pwr.porst ∧ (s.updStack i f).pwr.wrst = s.pwr.wrst ∧
    (s.updStack i f).pwr.supplies = s.pwr.supplies ∧ (s.updStack i f).pwr.bringup = s.pwr.bringup ∧
    (s.updStack i f).pwr.emergency = s.pwr.emergency ∧ (s.updStack i f).pwr.lastCause = s.pwr.lastCause ∧
    (s.updStack i f).pwr.flashCause = s.pwr.flashCause ∧ (s.updStack i f).pwr.hotAtRecord = s.pwr.hotAtRecord ∧
    (s.updStack i f).pwr.roleStrap = s.pwr.roleStrap ∧ (s.updStack i f).pwr.variant = s.pwr.variant ∧
    (s.updStack i f).pwr.stepping = s.pwr.stepping ∧ (s.updStack i f).pwr.slices = s.pwr.slices ∧
    (s.updStack i f).pwr.warnC = s.pwr.warnC ∧ (s.updStack i f).pwr.warn = s.pwr.warn ∧
    (s.updStack i f).pwr.trip = s.pwr.trip ∧ (s.updStack i f).pwr.hottest = s.pwr.hottest ∧
    (s.updStack i f).pwr.lifeW = s.pwr.lifeW ∧ (s.updStack i f).pwr.hours = s.pwr.hours ∧
    (s.updStack i f).pwr.regions = s.pwr.regions ∧ (s.updStack i f).pwr.mps = s.pwr.mps ∧
    (s.updStack i f).pwr.failing = s.pwr.failing ∧ (s.updStack i f).pwr.healthGen = s.pwr.healthGen ∧
    (s.updStack i f).pwr.repairLog = s.pwr.repairLog ∧ (s.updStack i f).pwr.marginPeriod = s.pwr.marginPeriod ∧
    (s.updStack i f).pwr.marginH = s.pwr.marginH ∧ (s.updStack i f).pwr.marginW = s.pwr.marginW ∧
    (s.updStack i f).port = s.port ∧ (s.updStack i f).lane = s.lane ∧ (s.updStack i f).group = s.group ∧
    (s.updStack i f).gate = s.gate ∧ (s.updStack i f).tsFifo = s.tsFifo ∧ (s.updStack i f).stream = s.stream ∧
    (s.updStack i f).cluster = s.cluster ∧ (s.updStack i f).fix = s.fix ∧ (s.updStack i f).flow = s.flow ∧
    (s.updStack i f).target = s.target ∧ (s.updStack i f).drop = s.drop ∧ (s.updStack i f).bus = s.bus ∧
    (s.updStack i f).pclass = s.pclass ∧ (s.updStack i f).plane = s.plane ∧ (s.updStack i f).pair = s.pair ∧
    (s.updStack i f).voq = s.voq ∧ (s.updStack i f).fabPort = s.fabPort ∧ (s.updStack i f).classCfg = s.classCfg ∧
    (s.updStack i f).portClass = s.portClass ∧ (s.updStack i f).queue = s.queue ∧ (s.updStack i f).chan = s.chan ∧
    (s.updStack i f).fifo = s.fifo ∧ (s.updStack i f).sliceSt = s.sliceSt ∧ (s.updStack i f).mp = s.mp ∧
    (s.updStack i f).mirrorOf = s.mirrorOf ∧ (s.updStack i f).peer = s.peer ∧ (s.updStack i f).box = s.box ∧
    (s.updStack i f).pkt = s.pkt ∧ (s.updStack i f).node = s.node ∧ (s.updStack i f).policer = s.policer := by
  refine ⟨?_, ?_, ?_, ?_, ?_, ?_, ?_, ?_, ?_, ?_, ?_, ?_, ?_, ?_, ?_, ?_, ?_, ?_, ?_, ?_, ?_, ?_, ?_, ?_, ?_, ?_, ?_, ?_, ?_, ?_, ?_, ?_, ?_, ?_, ?_, ?_, ?_, ?_, ?_, ?_, ?_, ?_, ?_, ?_, ?_, ?_, ?_, ?_, ?_, ?_, ?_, ?_, ?_, ?_, ?_, ?_, ?_, ?_, ?_, ?_, ?_, ?_, ?_, ?_, ?_, ?_, ?_, ?_, ?_, ?_, ?_, ?_, ?_, ?_, ?_, ?_, ?_, ?_, ?_, ?_, ?_, ?_, ?_, ?_, ?_⟩ <;> rfl

@[simp] theorem State.stack_updStack (s : State) (i j : Nat) (f : Stack → Stack) :
    (s.updStack i f).stack j = if i = j then f (s.stack i) else s.stack j := by
  unfold State.stack State.updStack
  by_cases h : i = j
  · subst h; simp [Tab.upd, Tab.get_set]
  · simp [Tab.upd, Tab.get_set_other, h]

theorem State.stack_updStack_same (s : State) (i : Nat) (f : Stack → Stack) :
    (s.updStack i f).stack i = f (s.stack i) := by simp

@[simp] theorem State.updMp_rest (s : State) (i : Nat) (f : Mp → Mp) :
    (s.updMp i f).time = s.time ∧ (s.updMp i f).up = s.up ∧ (s.updMp i f).ptp = s.ptp ∧
    (s.updMp i f).tsFifos = s.tsFifos ∧ (s.updMp i f).gates = s.gates ∧ (s.updMp i f).lanes = s.lanes ∧
    (s.updMp i f).groups = s.groups ∧ (s.updMp i f).ports = s.ports ∧ (s.updMp i f).prism = s.prism ∧
    (s.updMp i f).fwd = s.fwd ∧ (s.updMp i f).buf = s.buf ∧ (s.updMp i f).pkts = s.pkts ∧
    (s.updMp i f).nextPkt = s.nextPkt ∧ (s.updMp i f).fab = s.fab ∧ (s.updMp i f).sched = s.sched ∧
    (s.updMp i f).frer = s.frer ∧ (s.updMp i f).leaven = s.leaven ∧ (s.updMp i f).proof = s.proof ∧
    (s.updMp i f).evt = s.evt ∧ (s.updMp i f).swp = s.swp ∧ (s.updMp i f).tel = s.tel ∧ (s.updMp i f).mbx = s.mbx ∧
    (s.updMp i f).bake = s.bake ∧ (s.updMp i f).ident = s.ident ∧ (s.updMp i f).host = s.host ∧
    (s.updMp i f).out = s.out ∧ (s.updMp i f).free = s.free ∧ (s.updMp i f).pending = s.pending ∧
    (s.updMp i f).pwr.inReset = s.pwr.inReset ∧ (s.updMp i f).pwr.porst = s.pwr.porst ∧
    (s.updMp i f).pwr.wrst = s.pwr.wrst ∧ (s.updMp i f).pwr.supplies = s.pwr.supplies ∧
    (s.updMp i f).pwr.bringup = s.pwr.bringup ∧ (s.updMp i f).pwr.emergency = s.pwr.emergency ∧
    (s.updMp i f).pwr.lastCause = s.pwr.lastCause ∧ (s.updMp i f).pwr.flashCause = s.pwr.flashCause ∧
    (s.updMp i f).pwr.hotAtRecord = s.pwr.hotAtRecord ∧ (s.updMp i f).pwr.roleStrap = s.pwr.roleStrap ∧
    (s.updMp i f).pwr.variant = s.pwr.variant ∧ (s.updMp i f).pwr.stepping = s.pwr.stepping ∧
    (s.updMp i f).pwr.slices = s.pwr.slices ∧ (s.updMp i f).pwr.warnC = s.pwr.warnC ∧
    (s.updMp i f).pwr.warn = s.pwr.warn ∧ (s.updMp i f).pwr.trip = s.pwr.trip ∧
    (s.updMp i f).pwr.hottest = s.pwr.hottest ∧ (s.updMp i f).pwr.lifeW = s.pwr.lifeW ∧
    (s.updMp i f).pwr.hours = s.pwr.hours ∧ (s.updMp i f).pwr.hbms = s.pwr.hbms ∧
    (s.updMp i f).pwr.regions = s.pwr.regions ∧ (s.updMp i f).pwr.failing = s.pwr.failing ∧
    (s.updMp i f).pwr.healthGen = s.pwr.healthGen ∧ (s.updMp i f).pwr.repairLog = s.pwr.repairLog ∧
    (s.updMp i f).pwr.marginPeriod = s.pwr.marginPeriod ∧ (s.updMp i f).pwr.marginH = s.pwr.marginH ∧
    (s.updMp i f).pwr.marginW = s.pwr.marginW ∧ (s.updMp i f).port = s.port ∧ (s.updMp i f).lane = s.lane ∧
    (s.updMp i f).group = s.group ∧ (s.updMp i f).gate = s.gate ∧ (s.updMp i f).tsFifo = s.tsFifo ∧
    (s.updMp i f).stream = s.stream ∧ (s.updMp i f).cluster = s.cluster ∧ (s.updMp i f).fix = s.fix ∧
    (s.updMp i f).flow = s.flow ∧ (s.updMp i f).target = s.target ∧ (s.updMp i f).drop = s.drop ∧
    (s.updMp i f).bus = s.bus ∧ (s.updMp i f).pclass = s.pclass ∧ (s.updMp i f).plane = s.plane ∧
    (s.updMp i f).pair = s.pair ∧ (s.updMp i f).voq = s.voq ∧ (s.updMp i f).fabPort = s.fabPort ∧
    (s.updMp i f).classCfg = s.classCfg ∧ (s.updMp i f).portClass = s.portClass ∧ (s.updMp i f).queue = s.queue ∧
    (s.updMp i f).chan = s.chan ∧ (s.updMp i f).fifo = s.fifo ∧ (s.updMp i f).sliceSt = s.sliceSt ∧
    (s.updMp i f).stack = s.stack ∧ (s.updMp i f).mirrorOf = s.mirrorOf ∧ (s.updMp i f).peer = s.peer ∧
    (s.updMp i f).box = s.box ∧ (s.updMp i f).pkt = s.pkt ∧ (s.updMp i f).node = s.node ∧
    (s.updMp i f).policer = s.policer := by
  refine ⟨?_, ?_, ?_, ?_, ?_, ?_, ?_, ?_, ?_, ?_, ?_, ?_, ?_, ?_, ?_, ?_, ?_, ?_, ?_, ?_, ?_, ?_, ?_, ?_, ?_, ?_, ?_, ?_, ?_, ?_, ?_, ?_, ?_, ?_, ?_, ?_, ?_, ?_, ?_, ?_, ?_, ?_, ?_, ?_, ?_, ?_, ?_, ?_, ?_, ?_, ?_, ?_, ?_, ?_, ?_, ?_, ?_, ?_, ?_, ?_, ?_, ?_, ?_, ?_, ?_, ?_, ?_, ?_, ?_, ?_, ?_, ?_, ?_, ?_, ?_, ?_, ?_, ?_, ?_, ?_, ?_, ?_, ?_, ?_, ?_⟩ <;> rfl

@[simp] theorem State.mp_updMp (s : State) (i j : Nat) (f : Mp → Mp) :
    (s.updMp i f).mp j = if i = j then f (s.mp i) else s.mp j := by
  unfold State.mp State.updMp
  by_cases h : i = j
  · subst h; simp [Tab.upd, Tab.get_set]
  · simp [Tab.upd, Tab.get_set_other, h]

theorem State.mp_updMp_same (s : State) (i : Nat) (f : Mp → Mp) :
    (s.updMp i f).mp i = f (s.mp i) := by simp

@[simp] theorem State.updPeer_rest (s : State) (i : Nat) (f : Peer → Peer) :
    (s.updPeer i f).time = s.time ∧ (s.updPeer i f).up = s.up ∧ (s.updPeer i f).ptp = s.ptp ∧
    (s.updPeer i f).tsFifos = s.tsFifos ∧ (s.updPeer i f).gates = s.gates ∧ (s.updPeer i f).lanes = s.lanes ∧
    (s.updPeer i f).groups = s.groups ∧ (s.updPeer i f).ports = s.ports ∧ (s.updPeer i f).prism = s.prism ∧
    (s.updPeer i f).fwd = s.fwd ∧ (s.updPeer i f).buf = s.buf ∧ (s.updPeer i f).pkts = s.pkts ∧
    (s.updPeer i f).nextPkt = s.nextPkt ∧ (s.updPeer i f).fab = s.fab ∧ (s.updPeer i f).sched = s.sched ∧
    (s.updPeer i f).frer = s.frer ∧ (s.updPeer i f).leaven = s.leaven ∧ (s.updPeer i f).proof = s.proof ∧
    (s.updPeer i f).evt = s.evt ∧ (s.updPeer i f).swp = s.swp ∧ (s.updPeer i f).tel = s.tel ∧
    (s.updPeer i f).mbx = s.mbx ∧ (s.updPeer i f).ident = s.ident ∧ (s.updPeer i f).pwr = s.pwr ∧
    (s.updPeer i f).host = s.host ∧ (s.updPeer i f).out = s.out ∧ (s.updPeer i f).free = s.free ∧
    (s.updPeer i f).pending = s.pending ∧ (s.updPeer i f).bake.sets = s.bake.sets ∧
    (s.updPeer i f).bake.nextSet = s.bake.nextSet ∧ (s.updPeer i f).bake.epoch = s.bake.epoch ∧
    (s.updPeer i f).bake.snapshot = s.bake.snapshot ∧ (s.updPeer i f).bake.heldShadow = s.bake.heldShadow ∧
    (s.updPeer i f).bake.heldEpoch = s.bake.heldEpoch ∧ (s.updPeer i f).bake.msgs = s.bake.msgs ∧
    (s.updPeer i f).bake.nextMsg = s.bake.nextMsg ∧ (s.updPeer i f).bake.dom = s.bake.dom ∧
    (s.updPeer i f).bake.nextBake = s.bake.nextBake ∧ (s.updPeer i f).bake.outcomes = s.bake.outcomes ∧
    (s.updPeer i f).bake.frozen = s.bake.frozen ∧ (s.updPeer i f).bake.enrolled = s.bake.enrolled ∧
    (s.updPeer i f).bake.enrolling = s.bake.enrolling ∧ (s.updPeer i f).bake.ownIdx = s.bake.ownIdx ∧
    (s.updPeer i f).bake.authFails = s.bake.authFails ∧ (s.updPeer i f).bake.timeOffset = s.bake.timeOffset ∧
    (s.updPeer i f).bake.fwdReqs = s.bake.fwdReqs ∧ (s.updPeer i f).port = s.port ∧ (s.updPeer i f).lane = s.lane ∧
    (s.updPeer i f).group = s.group ∧ (s.updPeer i f).gate = s.gate ∧ (s.updPeer i f).tsFifo = s.tsFifo ∧
    (s.updPeer i f).stream = s.stream ∧ (s.updPeer i f).cluster = s.cluster ∧ (s.updPeer i f).fix = s.fix ∧
    (s.updPeer i f).flow = s.flow ∧ (s.updPeer i f).target = s.target ∧ (s.updPeer i f).drop = s.drop ∧
    (s.updPeer i f).bus = s.bus ∧ (s.updPeer i f).pclass = s.pclass ∧ (s.updPeer i f).plane = s.plane ∧
    (s.updPeer i f).pair = s.pair ∧ (s.updPeer i f).voq = s.voq ∧ (s.updPeer i f).fabPort = s.fabPort ∧
    (s.updPeer i f).classCfg = s.classCfg ∧ (s.updPeer i f).portClass = s.portClass ∧ (s.updPeer i f).queue = s.queue ∧
    (s.updPeer i f).chan = s.chan ∧ (s.updPeer i f).fifo = s.fifo ∧ (s.updPeer i f).sliceSt = s.sliceSt ∧
    (s.updPeer i f).stack = s.stack ∧ (s.updPeer i f).mp = s.mp ∧ (s.updPeer i f).mirrorOf = s.mirrorOf ∧
    (s.updPeer i f).box = s.box ∧ (s.updPeer i f).pkt = s.pkt ∧ (s.updPeer i f).node = s.node ∧
    (s.updPeer i f).policer = s.policer := by
  refine ⟨?_, ?_, ?_, ?_, ?_, ?_, ?_, ?_, ?_, ?_, ?_, ?_, ?_, ?_, ?_, ?_, ?_, ?_, ?_, ?_, ?_, ?_, ?_, ?_, ?_, ?_, ?_, ?_, ?_, ?_, ?_, ?_, ?_, ?_, ?_, ?_, ?_, ?_, ?_, ?_, ?_, ?_, ?_, ?_, ?_, ?_, ?_, ?_, ?_, ?_, ?_, ?_, ?_, ?_, ?_, ?_, ?_, ?_, ?_, ?_, ?_, ?_, ?_, ?_, ?_, ?_, ?_, ?_, ?_, ?_, ?_, ?_, ?_, ?_, ?_, ?_⟩ <;> rfl

@[simp] theorem State.peer_updPeer (s : State) (i j : Nat) (f : Peer → Peer) :
    (s.updPeer i f).peer j = if i = j then f (s.peer i) else s.peer j := by
  unfold State.peer State.updPeer
  by_cases h : i = j
  · subst h; simp [Tab.upd, Tab.get_set]
  · simp [Tab.upd, Tab.get_set_other, h]

theorem State.peer_updPeer_same (s : State) (i : Nat) (f : Peer → Peer) :
    (s.updPeer i f).peer i = f (s.peer i) := by simp

@[simp] theorem State.updBox_rest (s : State) (i : Nat) (f : Mbox → Mbox) :
    (s.updBox i f).time = s.time ∧ (s.updBox i f).up = s.up ∧ (s.updBox i f).ptp = s.ptp ∧
    (s.updBox i f).tsFifos = s.tsFifos ∧ (s.updBox i f).gates = s.gates ∧ (s.updBox i f).lanes = s.lanes ∧
    (s.updBox i f).groups = s.groups ∧ (s.updBox i f).ports = s.ports ∧ (s.updBox i f).prism = s.prism ∧
    (s.updBox i f).fwd = s.fwd ∧ (s.updBox i f).buf = s.buf ∧ (s.updBox i f).pkts = s.pkts ∧
    (s.updBox i f).nextPkt = s.nextPkt ∧ (s.updBox i f).fab = s.fab ∧ (s.updBox i f).sched = s.sched ∧
    (s.updBox i f).frer = s.frer ∧ (s.updBox i f).leaven = s.leaven ∧ (s.updBox i f).proof = s.proof ∧
    (s.updBox i f).evt = s.evt ∧ (s.updBox i f).swp = s.swp ∧ (s.updBox i f).tel = s.tel ∧ (s.updBox i f).bake = s.bake ∧
    (s.updBox i f).ident = s.ident ∧ (s.updBox i f).pwr = s.pwr ∧ (s.updBox i f).host = s.host ∧
    (s.updBox i f).out = s.out ∧ (s.updBox i f).free = s.free ∧ (s.updBox i f).pending = s.pending ∧
    (s.updBox i f).mbx.jobs = s.mbx.jobs ∧ (s.updBox i f).mbx.hist0 = s.mbx.hist0 ∧
    (s.updBox i f).mbx.hist1 = s.mbx.hist1 ∧ (s.updBox i f).mbx.ready = s.mbx.ready ∧
    (s.updBox i f).mbx.boots = s.mbx.boots ∧ (s.updBox i f).mbx.restarts = s.mbx.restarts ∧
    (s.updBox i f).mbx.restarting = s.mbx.restarting ∧ (s.updBox i f).mbx.readyUp = s.mbx.readyUp ∧
    (s.updBox i f).mbx.lostAsync = s.mbx.lostAsync ∧ (s.updBox i f).mbx.heldEvents = s.mbx.heldEvents ∧
    (s.updBox i f).port = s.port ∧ (s.updBox i f).lane = s.lane ∧ (s.updBox i f).group = s.group ∧
    (s.updBox i f).gate = s.gate ∧ (s.updBox i f).tsFifo = s.tsFifo ∧ (s.updBox i f).stream = s.stream ∧
    (s.updBox i f).cluster = s.cluster ∧ (s.updBox i f).fix = s.fix ∧ (s.updBox i f).flow = s.flow ∧
    (s.updBox i f).target = s.target ∧ (s.updBox i f).drop = s.drop ∧ (s.updBox i f).bus = s.bus ∧
    (s.updBox i f).pclass = s.pclass ∧ (s.updBox i f).plane = s.plane ∧ (s.updBox i f).pair = s.pair ∧
    (s.updBox i f).voq = s.voq ∧ (s.updBox i f).fabPort = s.fabPort ∧ (s.updBox i f).classCfg = s.classCfg ∧
    (s.updBox i f).portClass = s.portClass ∧ (s.updBox i f).queue = s.queue ∧ (s.updBox i f).chan = s.chan ∧
    (s.updBox i f).fifo = s.fifo ∧ (s.updBox i f).sliceSt = s.sliceSt ∧ (s.updBox i f).stack = s.stack ∧
    (s.updBox i f).mp = s.mp ∧ (s.updBox i f).mirrorOf = s.mirrorOf ∧ (s.updBox i f).peer = s.peer ∧
    (s.updBox i f).pkt = s.pkt ∧ (s.updBox i f).node = s.node ∧ (s.updBox i f).policer = s.policer := by
  refine ⟨?_, ?_, ?_, ?_, ?_, ?_, ?_, ?_, ?_, ?_, ?_, ?_, ?_, ?_, ?_, ?_, ?_, ?_, ?_, ?_, ?_, ?_, ?_, ?_, ?_, ?_, ?_, ?_, ?_, ?_, ?_, ?_, ?_, ?_, ?_, ?_, ?_, ?_, ?_, ?_, ?_, ?_, ?_, ?_, ?_, ?_, ?_, ?_, ?_, ?_, ?_, ?_, ?_, ?_, ?_, ?_, ?_, ?_, ?_, ?_, ?_, ?_, ?_, ?_, ?_, ?_, ?_, ?_⟩ <;> rfl

@[simp] theorem State.box_updBox (s : State) (i j : Nat) (f : Mbox → Mbox) :
    (s.updBox i f).box j = if i = j then f (s.box i) else s.box j := by
  unfold State.box State.updBox
  by_cases h : i = j
  · subst h; simp [Tab.upd, Tab.get_set]
  · simp [Tab.upd, Tab.get_set_other, h]

theorem State.box_updBox_same (s : State) (i : Nat) (f : Mbox → Mbox) :
    (s.updBox i f).box i = f (s.box i) := by simp

@[simp] theorem State.updPkt_rest (s : State) (i : Nat) (f : Pkt → Pkt) :
    (s.updPkt i f).time = s.time ∧ (s.updPkt i f).up = s.up ∧ (s.updPkt i f).ptp = s.ptp ∧
    (s.updPkt i f).tsFifos = s.tsFifos ∧ (s.updPkt i f).gates = s.gates ∧ (s.updPkt i f).lanes = s.lanes ∧
    (s.updPkt i f).groups = s.groups ∧ (s.updPkt i f).ports = s.ports ∧ (s.updPkt i f).prism = s.prism ∧
    (s.updPkt i f).fwd = s.fwd ∧ (s.updPkt i f).buf = s.buf ∧ (s.updPkt i f).nextPkt = s.nextPkt ∧
    (s.updPkt i f).fab = s.fab ∧ (s.updPkt i f).sched = s.sched ∧ (s.updPkt i f).frer = s.frer ∧
    (s.updPkt i f).leaven = s.leaven ∧ (s.updPkt i f).proof = s.proof ∧ (s.updPkt i f).evt = s.evt ∧
    (s.updPkt i f).swp = s.swp ∧ (s.updPkt i f).tel = s.tel ∧ (s.updPkt i f).mbx = s.mbx ∧ (s.updPkt i f).bake = s.bake ∧
    (s.updPkt i f).ident = s.ident ∧ (s.updPkt i f).pwr = s.pwr ∧ (s.updPkt i f).host = s.host ∧
    (s.updPkt i f).out = s.out ∧ (s.updPkt i f).free = s.free ∧ (s.updPkt i f).pending = s.pending ∧
    (s.updPkt i f).port = s.port ∧ (s.updPkt i f).lane = s.lane ∧ (s.updPkt i f).group = s.group ∧
    (s.updPkt i f).gate = s.gate ∧ (s.updPkt i f).tsFifo = s.tsFifo ∧ (s.updPkt i f).stream = s.stream ∧
    (s.updPkt i f).cluster = s.cluster ∧ (s.updPkt i f).fix = s.fix ∧ (s.updPkt i f).flow = s.flow ∧
    (s.updPkt i f).target = s.target ∧ (s.updPkt i f).drop = s.drop ∧ (s.updPkt i f).bus = s.bus ∧
    (s.updPkt i f).pclass = s.pclass ∧ (s.updPkt i f).plane = s.plane ∧ (s.updPkt i f).pair = s.pair ∧
    (s.updPkt i f).voq = s.voq ∧ (s.updPkt i f).fabPort = s.fabPort ∧ (s.updPkt i f).classCfg = s.classCfg ∧
    (s.updPkt i f).portClass = s.portClass ∧ (s.updPkt i f).queue = s.queue ∧ (s.updPkt i f).chan = s.chan ∧
    (s.updPkt i f).fifo = s.fifo ∧ (s.updPkt i f).sliceSt = s.sliceSt ∧ (s.updPkt i f).stack = s.stack ∧
    (s.updPkt i f).mp = s.mp ∧ (s.updPkt i f).mirrorOf = s.mirrorOf ∧ (s.updPkt i f).peer = s.peer ∧
    (s.updPkt i f).box = s.box ∧ (s.updPkt i f).node = s.node ∧ (s.updPkt i f).policer = s.policer := by
  refine ⟨?_, ?_, ?_, ?_, ?_, ?_, ?_, ?_, ?_, ?_, ?_, ?_, ?_, ?_, ?_, ?_, ?_, ?_, ?_, ?_, ?_, ?_, ?_, ?_, ?_, ?_, ?_, ?_, ?_, ?_, ?_, ?_, ?_, ?_, ?_, ?_, ?_, ?_, ?_, ?_, ?_, ?_, ?_, ?_, ?_, ?_, ?_, ?_, ?_, ?_, ?_, ?_, ?_, ?_, ?_, ?_, ?_, ?_⟩ <;> rfl

@[simp] theorem State.pkt_updPkt (s : State) (i j : Nat) (f : Pkt → Pkt) :
    (s.updPkt i f).pkt j = if i = j then f (s.pkt i) else s.pkt j := by
  unfold State.pkt State.updPkt
  by_cases h : i = j
  · subst h; simp [Tab.upd, Tab.get_set]
  · simp [Tab.upd, Tab.get_set_other, h]

theorem State.pkt_updPkt_same (s : State) (i : Nat) (f : Pkt → Pkt) :
    (s.updPkt i f).pkt i = f (s.pkt i) := by simp

@[simp] theorem State.updNode_rest (s : State) (i : Nat) (f : Node → Node) :
    (s.updNode i f).time = s.time ∧ (s.updNode i f).up = s.up ∧ (s.updNode i f).ptp = s.ptp ∧
    (s.updNode i f).tsFifos = s.tsFifos ∧ (s.updNode i f).gates = s.gates ∧ (s.updNode i f).lanes = s.lanes ∧
    (s.updNode i f).groups = s.groups ∧ (s.updNode i f).ports = s.ports ∧ (s.updNode i f).prism = s.prism ∧
    (s.updNode i f).fwd = s.fwd ∧ (s.updNode i f).buf = s.buf ∧ (s.updNode i f).pkts = s.pkts ∧
    (s.updNode i f).nextPkt = s.nextPkt ∧ (s.updNode i f).fab = s.fab ∧ (s.updNode i f).frer = s.frer ∧
    (s.updNode i f).leaven = s.leaven ∧ (s.updNode i f).proof = s.proof ∧ (s.updNode i f).evt = s.evt ∧
    (s.updNode i f).swp = s.swp ∧ (s.updNode i f).tel = s.tel ∧ (s.updNode i f).mbx = s.mbx ∧
    (s.updNode i f).bake = s.bake ∧ (s.updNode i f).ident = s.ident ∧ (s.updNode i f).pwr = s.pwr ∧
    (s.updNode i f).host = s.host ∧ (s.updNode i f).out = s.out ∧ (s.updNode i f).free = s.free ∧
    (s.updNode i f).pending = s.pending ∧ (s.updNode i f).sched.egq = s.sched.egq ∧ (s.updNode i f).sched.waitTx = s.sched.waitTx ∧
    (s.updNode i f).sched.pol = s.sched.pol ∧ (s.updNode i f).sched.prof = s.sched.prof ∧
    (s.updNode i f).sched.queue = s.sched.queue ∧ (s.updNode i f).sched.items = s.sched.items ∧
    (s.updNode i f).sched.cursor = s.sched.cursor ∧ (s.updNode i f).sched.ctr = s.sched.ctr ∧
    (s.updNode i f).port = s.port ∧ (s.updNode i f).lane = s.lane ∧ (s.updNode i f).group = s.group ∧
    (s.updNode i f).gate = s.gate ∧ (s.updNode i f).tsFifo = s.tsFifo ∧ (s.updNode i f).stream = s.stream ∧
    (s.updNode i f).cluster = s.cluster ∧ (s.updNode i f).fix = s.fix ∧ (s.updNode i f).flow = s.flow ∧
    (s.updNode i f).target = s.target ∧ (s.updNode i f).drop = s.drop ∧ (s.updNode i f).bus = s.bus ∧
    (s.updNode i f).pclass = s.pclass ∧ (s.updNode i f).plane = s.plane ∧ (s.updNode i f).pair = s.pair ∧
    (s.updNode i f).voq = s.voq ∧ (s.updNode i f).fabPort = s.fabPort ∧ (s.updNode i f).classCfg = s.classCfg ∧
    (s.updNode i f).portClass = s.portClass ∧ (s.updNode i f).queue = s.queue ∧ (s.updNode i f).chan = s.chan ∧
    (s.updNode i f).fifo = s.fifo ∧ (s.updNode i f).sliceSt = s.sliceSt ∧ (s.updNode i f).stack = s.stack ∧
    (s.updNode i f).mp = s.mp ∧ (s.updNode i f).mirrorOf = s.mirrorOf ∧ (s.updNode i f).peer = s.peer ∧
    (s.updNode i f).box = s.box ∧ (s.updNode i f).pkt = s.pkt ∧ (s.updNode i f).policer = s.policer := by
  refine ⟨?_, ?_, ?_, ?_, ?_, ?_, ?_, ?_, ?_, ?_, ?_, ?_, ?_, ?_, ?_, ?_, ?_, ?_, ?_, ?_, ?_, ?_, ?_, ?_, ?_, ?_, ?_, ?_, ?_, ?_, ?_, ?_, ?_, ?_, ?_, ?_, ?_, ?_, ?_, ?_, ?_, ?_, ?_, ?_, ?_, ?_, ?_, ?_, ?_, ?_, ?_, ?_, ?_, ?_, ?_, ?_, ?_, ?_, ?_, ?_, ?_, ?_, ?_, ?_, ?_, ?_⟩ <;> rfl

@[simp] theorem State.node_updNode (s : State) (i j : Nat) (f : Node → Node) :
    (s.updNode i f).node j = if i = j then f (s.node i) else s.node j := by
  unfold State.node State.updNode
  by_cases h : i = j
  · subst h; simp [Tab.upd, Tab.get_set]
  · simp [Tab.upd, Tab.get_set_other, h]

theorem State.node_updNode_same (s : State) (i : Nat) (f : Node → Node) :
    (s.updNode i f).node i = f (s.node i) := by simp

@[simp] theorem State.setWaiting_rest (s : State) (p : Nat) (l : List (Nat × Output)) :
    (s.setWaiting p l).time = s.time ∧ (s.setWaiting p l).up = s.up ∧ (s.setWaiting p l).ptp = s.ptp ∧
    (s.setWaiting p l).tsFifos = s.tsFifos ∧ (s.setWaiting p l).gates = s.gates ∧ (s.setWaiting p l).lanes = s.lanes ∧
    (s.setWaiting p l).groups = s.groups ∧ (s.setWaiting p l).ports = s.ports ∧ (s.setWaiting p l).prism = s.prism ∧
    (s.setWaiting p l).fwd = s.fwd ∧ (s.setWaiting p l).buf = s.buf ∧ (s.setWaiting p l).pkts = s.pkts ∧
    (s.setWaiting p l).nextPkt = s.nextPkt ∧ (s.setWaiting p l).fab = s.fab ∧ (s.setWaiting p l).frer = s.frer ∧
    (s.setWaiting p l).leaven = s.leaven ∧ (s.setWaiting p l).proof = s.proof ∧ (s.setWaiting p l).evt = s.evt ∧
    (s.setWaiting p l).swp = s.swp ∧ (s.setWaiting p l).tel = s.tel ∧ (s.setWaiting p l).mbx = s.mbx ∧
    (s.setWaiting p l).bake = s.bake ∧ (s.setWaiting p l).ident = s.ident ∧ (s.setWaiting p l).pwr = s.pwr ∧
    (s.setWaiting p l).host = s.host ∧ (s.setWaiting p l).out = s.out ∧ (s.setWaiting p l).free = s.free ∧
    (s.setWaiting p l).pending = s.pending ∧ (s.setWaiting p l).sched.egq = s.sched.egq ∧
    (s.setWaiting p l).sched.nodes = s.sched.nodes ∧ (s.setWaiting p l).node = s.node ∧
    (s.setWaiting p l).sched.pol = s.sched.pol ∧ (s.setWaiting p l).sched.prof = s.sched.prof ∧
    (s.setWaiting p l).sched.queue = s.sched.queue ∧ (s.setWaiting p l).sched.items = s.sched.items ∧
    (s.setWaiting p l).sched.cursor = s.sched.cursor ∧ (s.setWaiting p l).sched.ctr = s.sched.ctr ∧
    (s.setWaiting p l).port = s.port ∧ (s.setWaiting p l).lane = s.lane ∧ (s.setWaiting p l).group = s.group ∧
    (s.setWaiting p l).gate = s.gate ∧ (s.setWaiting p l).tsFifo = s.tsFifo ∧ (s.setWaiting p l).stream = s.stream ∧
    (s.setWaiting p l).cluster = s.cluster ∧ (s.setWaiting p l).fix = s.fix ∧ (s.setWaiting p l).flow = s.flow ∧
    (s.setWaiting p l).target = s.target ∧ (s.setWaiting p l).drop = s.drop ∧ (s.setWaiting p l).bus = s.bus ∧
    (s.setWaiting p l).pclass = s.pclass ∧ (s.setWaiting p l).plane = s.plane ∧ (s.setWaiting p l).pair = s.pair ∧
    (s.setWaiting p l).voq = s.voq ∧ (s.setWaiting p l).fabPort = s.fabPort ∧
    (s.setWaiting p l).classCfg = s.classCfg ∧ (s.setWaiting p l).portClass = s.portClass ∧
    (s.setWaiting p l).queue = s.queue ∧ (s.setWaiting p l).chan = s.chan ∧ (s.setWaiting p l).fifo = s.fifo ∧
    (s.setWaiting p l).sliceSt = s.sliceSt ∧ (s.setWaiting p l).stack = s.stack ∧ (s.setWaiting p l).mp = s.mp ∧
    (s.setWaiting p l).mirrorOf = s.mirrorOf ∧ (s.setWaiting p l).peer = s.peer ∧ (s.setWaiting p l).box = s.box ∧
    (s.setWaiting p l).pkt = s.pkt ∧ (s.setWaiting p l).policer = s.policer := by
  refine ⟨?_, ?_, ?_, ?_, ?_, ?_, ?_, ?_, ?_, ?_, ?_, ?_, ?_, ?_, ?_, ?_, ?_, ?_, ?_, ?_, ?_, ?_, ?_, ?_, ?_, ?_, ?_, ?_, ?_, ?_, ?_, ?_, ?_, ?_, ?_, ?_, ?_, ?_, ?_, ?_, ?_, ?_, ?_, ?_, ?_, ?_, ?_, ?_, ?_, ?_, ?_, ?_, ?_, ?_, ?_, ?_, ?_, ?_, ?_, ?_, ?_, ?_, ?_, ?_, ?_, ?_, ?_⟩ <;> rfl

@[simp] theorem State.waiting_setWaiting (s : State) (p q : Nat) (l : List (Nat × Output)) :
    (s.setWaiting p l).waiting q = if p = q then l else s.waiting q := by
  unfold State.waiting State.setWaiting
  by_cases h : p = q
  · subst h; simp [Tab.get_set]
  · simp [Tab.get_set_other, h]

@[simp] theorem State.updPolicer_rest (s : State) (i : Nat) (f : Policer → Policer) :
    (s.updPolicer i f).time = s.time ∧ (s.updPolicer i f).up = s.up ∧ (s.updPolicer i f).ptp = s.ptp ∧
    (s.updPolicer i f).tsFifos = s.tsFifos ∧ (s.updPolicer i f).gates = s.gates ∧ (s.updPolicer i f).lanes = s.lanes ∧
    (s.updPolicer i f).groups = s.groups ∧ (s.updPolicer i f).ports = s.ports ∧ (s.updPolicer i f).prism = s.prism ∧
    (s.updPolicer i f).fwd = s.fwd ∧ (s.updPolicer i f).buf = s.buf ∧ (s.updPolicer i f).pkts = s.pkts ∧
    (s.updPolicer i f).nextPkt = s.nextPkt ∧ (s.updPolicer i f).fab = s.fab ∧ (s.updPolicer i f).frer = s.frer ∧
    (s.updPolicer i f).leaven = s.leaven ∧ (s.updPolicer i f).proof = s.proof ∧ (s.updPolicer i f).evt = s.evt ∧
    (s.updPolicer i f).swp = s.swp ∧ (s.updPolicer i f).tel = s.tel ∧ (s.updPolicer i f).mbx = s.mbx ∧
    (s.updPolicer i f).bake = s.bake ∧ (s.updPolicer i f).ident = s.ident ∧ (s.updPolicer i f).pwr = s.pwr ∧
    (s.updPolicer i f).host = s.host ∧ (s.updPolicer i f).out = s.out ∧ (s.updPolicer i f).free = s.free ∧
    (s.updPolicer i f).pending = s.pending ∧ (s.updPolicer i f).sched.nodes = s.sched.nodes ∧
    (s.updPolicer i f).sched.egq = s.sched.egq ∧ (s.updPolicer i f).sched.waitTx = s.sched.waitTx ∧ (s.updPolicer i f).sched.prof = s.sched.prof ∧
    (s.updPolicer i f).sched.queue = s.sched.queue ∧ (s.updPolicer i f).sched.items = s.sched.items ∧
    (s.updPolicer i f).sched.cursor = s.sched.cursor ∧ (s.updPolicer i f).sched.ctr = s.sched.ctr ∧
    (s.updPolicer i f).port = s.port ∧ (s.updPolicer i f).lane = s.lane ∧ (s.updPolicer i f).group = s.group ∧
    (s.updPolicer i f).gate = s.gate ∧ (s.updPolicer i f).tsFifo = s.tsFifo ∧ (s.updPolicer i f).stream = s.stream ∧
    (s.updPolicer i f).cluster = s.cluster ∧ (s.updPolicer i f).fix = s.fix ∧ (s.updPolicer i f).flow = s.flow ∧
    (s.updPolicer i f).target = s.target ∧ (s.updPolicer i f).drop = s.drop ∧ (s.updPolicer i f).bus = s.bus ∧
    (s.updPolicer i f).pclass = s.pclass ∧ (s.updPolicer i f).plane = s.plane ∧ (s.updPolicer i f).pair = s.pair ∧
    (s.updPolicer i f).voq = s.voq ∧ (s.updPolicer i f).fabPort = s.fabPort ∧ (s.updPolicer i f).classCfg = s.classCfg ∧
    (s.updPolicer i f).portClass = s.portClass ∧ (s.updPolicer i f).queue = s.queue ∧ (s.updPolicer i f).chan = s.chan ∧
    (s.updPolicer i f).fifo = s.fifo ∧ (s.updPolicer i f).sliceSt = s.sliceSt ∧ (s.updPolicer i f).stack = s.stack ∧
    (s.updPolicer i f).mp = s.mp ∧ (s.updPolicer i f).mirrorOf = s.mirrorOf ∧ (s.updPolicer i f).peer = s.peer ∧
    (s.updPolicer i f).box = s.box ∧ (s.updPolicer i f).pkt = s.pkt ∧ (s.updPolicer i f).node = s.node := by
  refine ⟨?_, ?_, ?_, ?_, ?_, ?_, ?_, ?_, ?_, ?_, ?_, ?_, ?_, ?_, ?_, ?_, ?_, ?_, ?_, ?_, ?_, ?_, ?_, ?_, ?_, ?_, ?_, ?_, ?_, ?_, ?_, ?_, ?_, ?_, ?_, ?_, ?_, ?_, ?_, ?_, ?_, ?_, ?_, ?_, ?_, ?_, ?_, ?_, ?_, ?_, ?_, ?_, ?_, ?_, ?_, ?_, ?_, ?_, ?_, ?_, ?_, ?_, ?_, ?_, ?_, ?_⟩ <;> rfl

@[simp] theorem State.policer_updPolicer (s : State) (i j : Nat) (f : Policer → Policer) :
    (s.updPolicer i f).policer j = if i = j then f (s.policer i) else s.policer j := by
  unfold State.policer State.updPolicer
  by_cases h : i = j
  · subst h; simp [Tab.upd, Tab.get_set]
  · simp [Tab.upd, Tab.get_set_other, h]

theorem State.policer_updPolicer_same (s : State) (i : Nat) (f : Policer → Policer) :
    (s.updPolicer i f).policer i = f (s.policer i) := by simp

@[simp] theorem State.bumpPort_rest (s : State) (p i n : Nat) :
    (s.bumpPort p i n).time = s.time ∧ (s.bumpPort p i n).up = s.up ∧ (s.bumpPort p i n).ptp = s.ptp ∧
    (s.bumpPort p i n).tsFifos = s.tsFifos ∧ (s.bumpPort p i n).gates = s.gates ∧ (s.bumpPort p i n).lanes = s.lanes ∧
    (s.bumpPort p i n).groups = s.groups ∧ (s.bumpPort p i n).ports = s.ports ∧ (s.bumpPort p i n).prism = s.prism ∧
    (s.bumpPort p i n).fwd = s.fwd ∧ (s.bumpPort p i n).buf = s.buf ∧ (s.bumpPort p i n).pkts = s.pkts ∧
    (s.bumpPort p i n).nextPkt = s.nextPkt ∧ (s.bumpPort p i n).fab = s.fab ∧ (s.bumpPort p i n).sched = s.sched ∧
    (s.bumpPort p i n).frer = s.frer ∧ (s.bumpPort p i n).leaven = s.leaven ∧ (s.bumpPort p i n).proof = s.proof ∧
    (s.bumpPort p i n).evt = s.evt ∧ (s.bumpPort p i n).swp = s.swp ∧ (s.bumpPort p i n).mbx = s.mbx ∧
    (s.bumpPort p i n).bake = s.bake ∧ (s.bumpPort p i n).ident = s.ident ∧ (s.bumpPort p i n).pwr = s.pwr ∧
    (s.bumpPort p i n).host = s.host ∧ (s.bumpPort p i n).out = s.out ∧ (s.bumpPort p i n).free = s.free ∧
    (s.bumpPort p i n).pending = s.pending ∧ (s.bumpPort p i n).tel.mirrors = s.tel.mirrors ∧
    (s.bumpPort p i n).tel.cand = s.tel.cand ∧ (s.bumpPort p i n).tel.mirQ = s.tel.mirQ ∧
    (s.bumpPort p i n).tel.mirCtr = s.tel.mirCtr ∧ (s.bumpPort p i n).tel.ctr = s.tel.ctr ∧
    (s.bumpPort p i n).tel.drops = s.tel.drops ∧ (s.bumpPort p i n).tel.prismCtr = s.tel.prismCtr ∧
    (s.bumpPort p i n).tel.timeCtr = s.tel.timeCtr ∧ (s.bumpPort p i n).tel.redCtr = s.tel.redCtr ∧
    (s.bumpPort p i n).tel.frerCtr = s.tel.frerCtr ∧ (s.bumpPort p i n).tel.mbxCtr = s.tel.mbxCtr ∧
    (s.bumpPort p i n).tel.pwrCtr = s.tel.pwrCtr ∧ (s.bumpPort p i n).tel.rate = s.tel.rate ∧
    (s.bumpPort p i n).port = s.port ∧ (s.bumpPort p i n).lane = s.lane ∧ (s.bumpPort p i n).group = s.group ∧
    (s.bumpPort p i n).gate = s.gate ∧ (s.bumpPort p i n).tsFifo = s.tsFifo ∧ (s.bumpPort p i n).stream = s.stream ∧
    (s.bumpPort p i n).cluster = s.cluster ∧ (s.bumpPort p i n).fix = s.fix ∧ (s.bumpPort p i n).flow = s.flow ∧
    (s.bumpPort p i n).target = s.target ∧ (s.bumpPort p i n).drop = s.drop ∧ (s.bumpPort p i n).bus = s.bus ∧
    (s.bumpPort p i n).pclass = s.pclass ∧ (s.bumpPort p i n).plane = s.plane ∧ (s.bumpPort p i n).pair = s.pair ∧
    (s.bumpPort p i n).voq = s.voq ∧ (s.bumpPort p i n).fabPort = s.fabPort ∧ (s.bumpPort p i n).classCfg = s.classCfg ∧
    (s.bumpPort p i n).portClass = s.portClass ∧ (s.bumpPort p i n).queue = s.queue ∧ (s.bumpPort p i n).chan = s.chan ∧
    (s.bumpPort p i n).fifo = s.fifo ∧ (s.bumpPort p i n).sliceSt = s.sliceSt ∧ (s.bumpPort p i n).stack = s.stack ∧
    (s.bumpPort p i n).mp = s.mp ∧ (s.bumpPort p i n).mirrorOf = s.mirrorOf ∧ (s.bumpPort p i n).peer = s.peer ∧
    (s.bumpPort p i n).box = s.box ∧ (s.bumpPort p i n).pkt = s.pkt ∧ (s.bumpPort p i n).node = s.node ∧
    (s.bumpPort p i n).policer = s.policer := by
  refine ⟨?_, ?_, ?_, ?_, ?_, ?_, ?_, ?_, ?_, ?_, ?_, ?_, ?_, ?_, ?_, ?_, ?_, ?_, ?_, ?_, ?_, ?_, ?_, ?_, ?_, ?_, ?_, ?_, ?_, ?_, ?_, ?_, ?_, ?_, ?_, ?_, ?_, ?_, ?_, ?_, ?_, ?_, ?_, ?_, ?_, ?_, ?_, ?_, ?_, ?_, ?_, ?_, ?_, ?_, ?_, ?_, ?_, ?_, ?_, ?_, ?_, ?_, ?_, ?_, ?_, ?_, ?_, ?_, ?_, ?_, ?_, ?_⟩ <;> rfl

@[simp] theorem State.bumpPrism_rest (s : State) (p i n : Nat) :
    (s.bumpPrism p i n).time = s.time ∧ (s.bumpPrism p i n).up = s.up ∧ (s.bumpPrism p i n).ptp = s.ptp ∧
    (s.bumpPrism p i n).tsFifos = s.tsFifos ∧ (s.bumpPrism p i n).gates = s.gates ∧ (s.bumpPrism p i n).lanes = s.lanes ∧
    (s.bumpPrism p i n).groups = s.groups ∧ (s.bumpPrism p i n).ports = s.ports ∧ (s.bumpPrism p i n).prism = s.prism ∧
    (s.bumpPrism p i n).fwd = s.fwd ∧ (s.bumpPrism p i n).buf = s.buf ∧ (s.bumpPrism p i n).pkts = s.pkts ∧
    (s.bumpPrism p i n).nextPkt = s.nextPkt ∧ (s.bumpPrism p i n).fab = s.fab ∧ (s.bumpPrism p i n).sched = s.sched ∧
    (s.bumpPrism p i n).frer = s.frer ∧ (s.bumpPrism p i n).leaven = s.leaven ∧ (s.bumpPrism p i n).proof = s.proof ∧
    (s.bumpPrism p i n).evt = s.evt ∧ (s.bumpPrism p i n).swp = s.swp ∧ (s.bumpPrism p i n).mbx = s.mbx ∧
    (s.bumpPrism p i n).bake = s.bake ∧ (s.bumpPrism p i n).ident = s.ident ∧ (s.bumpPrism p i n).pwr = s.pwr ∧
    (s.bumpPrism p i n).host = s.host ∧ (s.bumpPrism p i n).out = s.out ∧ (s.bumpPrism p i n).free = s.free ∧
    (s.bumpPrism p i n).pending = s.pending ∧ (s.bumpPrism p i n).tel.mirrors = s.tel.mirrors ∧
    (s.bumpPrism p i n).tel.cand = s.tel.cand ∧ (s.bumpPrism p i n).tel.mirQ = s.tel.mirQ ∧
    (s.bumpPrism p i n).tel.mirCtr = s.tel.mirCtr ∧ (s.bumpPrism p i n).tel.ctr = s.tel.ctr ∧
    (s.bumpPrism p i n).tel.drops = s.tel.drops ∧ (s.bumpPrism p i n).tel.portCtr = s.tel.portCtr ∧
    (s.bumpPrism p i n).tel.timeCtr = s.tel.timeCtr ∧ (s.bumpPrism p i n).tel.redCtr = s.tel.redCtr ∧
    (s.bumpPrism p i n).tel.frerCtr = s.tel.frerCtr ∧ (s.bumpPrism p i n).tel.mbxCtr = s.tel.mbxCtr ∧
    (s.bumpPrism p i n).tel.pwrCtr = s.tel.pwrCtr ∧ (s.bumpPrism p i n).tel.rate = s.tel.rate ∧
    (s.bumpPrism p i n).port = s.port ∧ (s.bumpPrism p i n).lane = s.lane ∧ (s.bumpPrism p i n).group = s.group ∧
    (s.bumpPrism p i n).gate = s.gate ∧ (s.bumpPrism p i n).tsFifo = s.tsFifo ∧ (s.bumpPrism p i n).stream = s.stream ∧
    (s.bumpPrism p i n).cluster = s.cluster ∧ (s.bumpPrism p i n).fix = s.fix ∧ (s.bumpPrism p i n).flow = s.flow ∧
    (s.bumpPrism p i n).target = s.target ∧ (s.bumpPrism p i n).drop = s.drop ∧ (s.bumpPrism p i n).bus = s.bus ∧
    (s.bumpPrism p i n).pclass = s.pclass ∧ (s.bumpPrism p i n).plane = s.plane ∧ (s.bumpPrism p i n).pair = s.pair ∧
    (s.bumpPrism p i n).voq = s.voq ∧ (s.bumpPrism p i n).fabPort = s.fabPort ∧
    (s.bumpPrism p i n).classCfg = s.classCfg ∧ (s.bumpPrism p i n).portClass = s.portClass ∧
    (s.bumpPrism p i n).queue = s.queue ∧ (s.bumpPrism p i n).chan = s.chan ∧ (s.bumpPrism p i n).fifo = s.fifo ∧
    (s.bumpPrism p i n).sliceSt = s.sliceSt ∧ (s.bumpPrism p i n).stack = s.stack ∧ (s.bumpPrism p i n).mp = s.mp ∧
    (s.bumpPrism p i n).mirrorOf = s.mirrorOf ∧ (s.bumpPrism p i n).peer = s.peer ∧ (s.bumpPrism p i n).box = s.box ∧
    (s.bumpPrism p i n).pkt = s.pkt ∧ (s.bumpPrism p i n).node = s.node ∧ (s.bumpPrism p i n).policer = s.policer := by
  refine ⟨?_, ?_, ?_, ?_, ?_, ?_, ?_, ?_, ?_, ?_, ?_, ?_, ?_, ?_, ?_, ?_, ?_, ?_, ?_, ?_, ?_, ?_, ?_, ?_, ?_, ?_, ?_, ?_, ?_, ?_, ?_, ?_, ?_, ?_, ?_, ?_, ?_, ?_, ?_, ?_, ?_, ?_, ?_, ?_, ?_, ?_, ?_, ?_, ?_, ?_, ?_, ?_, ?_, ?_, ?_, ?_, ?_, ?_, ?_, ?_, ?_, ?_, ?_, ?_, ?_, ?_, ?_, ?_, ?_, ?_, ?_, ?_⟩ <;> rfl

@[simp] theorem State.bumpFwd_rest (s : State) (i n : Nat) :
    (s.bumpFwd i n).time = s.time ∧ (s.bumpFwd i n).up = s.up ∧ (s.bumpFwd i n).ptp = s.ptp ∧
    (s.bumpFwd i n).tsFifos = s.tsFifos ∧ (s.bumpFwd i n).gates = s.gates ∧ (s.bumpFwd i n).lanes = s.lanes ∧
    (s.bumpFwd i n).groups = s.groups ∧ (s.bumpFwd i n).ports = s.ports ∧ (s.bumpFwd i n).prism = s.prism ∧
    (s.bumpFwd i n).buf = s.buf ∧ (s.bumpFwd i n).pkts = s.pkts ∧ (s.bumpFwd i n).nextPkt = s.nextPkt ∧
    (s.bumpFwd i n).fab = s.fab ∧ (s.bumpFwd i n).sched = s.sched ∧ (s.bumpFwd i n).frer = s.frer ∧
    (s.bumpFwd i n).leaven = s.leaven ∧ (s.bumpFwd i n).proof = s.proof ∧ (s.bumpFwd i n).evt = s.evt ∧
    (s.bumpFwd i n).swp = s.swp ∧ (s.bumpFwd i n).tel = s.tel ∧ (s.bumpFwd i n).mbx = s.mbx ∧
    (s.bumpFwd i n).bake = s.bake ∧ (s.bumpFwd i n).ident = s.ident ∧ (s.bumpFwd i n).pwr = s.pwr ∧
    (s.bumpFwd i n).host = s.host ∧ (s.bumpFwd i n).out = s.out ∧ (s.bumpFwd i n).free = s.free ∧
    (s.bumpFwd i n).pending = s.pending ∧ (s.bumpFwd i n).fwd.gen0 = s.fwd.gen0 ∧ (s.bumpFwd i n).fwd.gen1 = s.fwd.gen1 ∧
    (s.bumpFwd i n).fwd.gen = s.fwd.gen ∧ (s.bumpFwd i n).fwd.normPending = s.fwd.normPending ∧
    (s.bumpFwd i n).fwd.inGenPrev = s.fwd.inGenPrev ∧ (s.bumpFwd i n).fwd.inGenCur = s.fwd.inGenCur ∧
    (s.bumpFwd i n).fwd.em = s.fwd.em ∧ (s.bumpFwd i n).fwd.learnedOn = s.fwd.learnedOn ∧
    (s.bumpFwd i n).fwd.seed0 = s.fwd.seed0 ∧ (s.bumpFwd i n).fwd.seed1 = s.fwd.seed1 ∧
    (s.bumpFwd i n).fwd.seed2 = s.fwd.seed2 ∧ (s.bumpFwd i n).fwd.learnQ = s.fwd.learnQ ∧
    (s.bumpFwd i n).fwd.agePeriod = s.fwd.agePeriod ∧ (s.bumpFwd i n).fwd.badTable = s.fwd.badTable ∧
    (s.bumpFwd i n).port = s.port ∧ (s.bumpFwd i n).lane = s.lane ∧ (s.bumpFwd i n).group = s.group ∧
    (s.bumpFwd i n).gate = s.gate ∧ (s.bumpFwd i n).tsFifo = s.tsFifo ∧ (s.bumpFwd i n).stream = s.stream ∧
    (s.bumpFwd i n).cluster = s.cluster ∧ (s.bumpFwd i n).fix = s.fix ∧ (s.bumpFwd i n).flow = s.flow ∧
    (s.bumpFwd i n).target = s.target ∧ (s.bumpFwd i n).drop = s.drop ∧ (s.bumpFwd i n).bus = s.bus ∧
    (s.bumpFwd i n).pclass = s.pclass ∧ (s.bumpFwd i n).plane = s.plane ∧ (s.bumpFwd i n).pair = s.pair ∧
    (s.bumpFwd i n).voq = s.voq ∧ (s.bumpFwd i n).fabPort = s.fabPort ∧ (s.bumpFwd i n).classCfg = s.classCfg ∧
    (s.bumpFwd i n).portClass = s.portClass ∧ (s.bumpFwd i n).queue = s.queue ∧ (s.bumpFwd i n).chan = s.chan ∧
    (s.bumpFwd i n).fifo = s.fifo ∧ (s.bumpFwd i n).sliceSt = s.sliceSt ∧ (s.bumpFwd i n).stack = s.stack ∧
    (s.bumpFwd i n).mp = s.mp ∧ (s.bumpFwd i n).mirrorOf = s.mirrorOf ∧ (s.bumpFwd i n).peer = s.peer ∧
    (s.bumpFwd i n).box = s.box ∧ (s.bumpFwd i n).pkt = s.pkt ∧ (s.bumpFwd i n).node = s.node ∧
    (s.bumpFwd i n).policer = s.policer := by
  refine ⟨?_, ?_, ?_, ?_, ?_, ?_, ?_, ?_, ?_, ?_, ?_, ?_, ?_, ?_, ?_, ?_, ?_, ?_, ?_, ?_, ?_, ?_, ?_, ?_, ?_, ?_, ?_, ?_, ?_, ?_, ?_, ?_, ?_, ?_, ?_, ?_, ?_, ?_, ?_, ?_, ?_, ?_, ?_, ?_, ?_, ?_, ?_, ?_, ?_, ?_, ?_, ?_, ?_, ?_, ?_, ?_, ?_, ?_, ?_, ?_, ?_, ?_, ?_, ?_, ?_, ?_, ?_, ?_, ?_, ?_, ?_, ?_, ?_⟩ <;> rfl

@[simp] theorem State.bumpBuf_rest (s : State) (i n : Nat) :
    (s.bumpBuf i n).time = s.time ∧ (s.bumpBuf i n).up = s.up ∧ (s.bumpBuf i n).ptp = s.ptp ∧
    (s.bumpBuf i n).tsFifos = s.tsFifos ∧ (s.bumpBuf i n).gates = s.gates ∧ (s.bumpBuf i n).lanes = s.lanes ∧
    (s.bumpBuf i n).groups = s.groups ∧ (s.bumpBuf i n).ports = s.ports ∧ (s.bumpBuf i n).prism = s.prism ∧
    (s.bumpBuf i n).fwd = s.fwd ∧ (s.bumpBuf i n).pkts = s.pkts ∧ (s.bumpBuf i n).nextPkt = s.nextPkt ∧
    (s.bumpBuf i n).fab = s.fab ∧ (s.bumpBuf i n).sched = s.sched ∧ (s.bumpBuf i n).frer = s.frer ∧
    (s.bumpBuf i n).leaven = s.leaven ∧ (s.bumpBuf i n).proof = s.proof ∧ (s.bumpBuf i n).evt = s.evt ∧
    (s.bumpBuf i n).swp = s.swp ∧ (s.bumpBuf i n).tel = s.tel ∧ (s.bumpBuf i n).mbx = s.mbx ∧
    (s.bumpBuf i n).bake = s.bake ∧ (s.bumpBuf i n).ident = s.ident ∧ (s.bumpBuf i n).pwr = s.pwr ∧
    (s.bumpBuf i n).host = s.host ∧ (s.bumpBuf i n).out = s.out ∧ (s.bumpBuf i n).free = s.free ∧
    (s.bumpBuf i n).pending = s.pending ∧ (s.bumpBuf i n).buf.usedCells = s.buf.usedCells ∧
    (s.bumpBuf i n).buf.allocStart = s.buf.allocStart ∧ (s.bumpBuf i n).buf.classes = s.buf.classes ∧
    (s.bumpBuf i n).buf.portClass = s.buf.portClass ∧ (s.bumpBuf i n).buf.wred = s.buf.wred ∧
    (s.bumpBuf i n).buf.queues = s.buf.queues ∧ (s.bumpBuf i n).buf.spillVoqs = s.buf.spillVoqs ∧
    (s.bumpBuf i n).buf.lfsr = s.buf.lfsr ∧ (s.bumpBuf i n).buf.pool0 = s.buf.pool0 ∧
    (s.bumpBuf i n).buf.pool1 = s.buf.pool1 ∧ (s.bumpBuf i n).buf.pool2 = s.buf.pool2 ∧
    (s.bumpBuf i n).buf.pool3 = s.buf.pool3 ∧ (s.bumpBuf i n).port = s.port ∧ (s.bumpBuf i n).lane = s.lane ∧
    (s.bumpBuf i n).group = s.group ∧ (s.bumpBuf i n).gate = s.gate ∧ (s.bumpBuf i n).tsFifo = s.tsFifo ∧
    (s.bumpBuf i n).stream = s.stream ∧ (s.bumpBuf i n).cluster = s.cluster ∧ (s.bumpBuf i n).fix = s.fix ∧
    (s.bumpBuf i n).flow = s.flow ∧ (s.bumpBuf i n).target = s.target ∧ (s.bumpBuf i n).drop = s.drop ∧
    (s.bumpBuf i n).bus = s.bus ∧ (s.bumpBuf i n).pclass = s.pclass ∧ (s.bumpBuf i n).plane = s.plane ∧
    (s.bumpBuf i n).pair = s.pair ∧ (s.bumpBuf i n).voq = s.voq ∧ (s.bumpBuf i n).fabPort = s.fabPort ∧
    (s.bumpBuf i n).classCfg = s.classCfg ∧ (s.bumpBuf i n).portClass = s.portClass ∧ (s.bumpBuf i n).queue = s.queue ∧
    (s.bumpBuf i n).chan = s.chan ∧ (s.bumpBuf i n).fifo = s.fifo ∧ (s.bumpBuf i n).sliceSt = s.sliceSt ∧
    (s.bumpBuf i n).stack = s.stack ∧ (s.bumpBuf i n).mp = s.mp ∧ (s.bumpBuf i n).mirrorOf = s.mirrorOf ∧
    (s.bumpBuf i n).peer = s.peer ∧ (s.bumpBuf i n).box = s.box ∧ (s.bumpBuf i n).pkt = s.pkt ∧
    (s.bumpBuf i n).node = s.node ∧ (s.bumpBuf i n).policer = s.policer := by
  refine ⟨?_, ?_, ?_, ?_, ?_, ?_, ?_, ?_, ?_, ?_, ?_, ?_, ?_, ?_, ?_, ?_, ?_, ?_, ?_, ?_, ?_, ?_, ?_, ?_, ?_, ?_, ?_, ?_, ?_, ?_, ?_, ?_, ?_, ?_, ?_, ?_, ?_, ?_, ?_, ?_, ?_, ?_, ?_, ?_, ?_, ?_, ?_, ?_, ?_, ?_, ?_, ?_, ?_, ?_, ?_, ?_, ?_, ?_, ?_, ?_, ?_, ?_, ?_, ?_, ?_, ?_, ?_, ?_, ?_, ?_, ?_⟩ <;> rfl

@[simp] theorem State.bumpFab_rest (s : State) (i n : Nat) :
    (s.bumpFab i n).time = s.time ∧ (s.bumpFab i n).up = s.up ∧ (s.bumpFab i n).ptp = s.ptp ∧
    (s.bumpFab i n).tsFifos = s.tsFifos ∧ (s.bumpFab i n).gates = s.gates ∧ (s.bumpFab i n).lanes = s.lanes ∧
    (s.bumpFab i n).groups = s.groups ∧ (s.bumpFab i n).ports = s.ports ∧ (s.bumpFab i n).prism = s.prism ∧
    (s.bumpFab i n).fwd = s.fwd ∧ (s.bumpFab i n).buf = s.buf ∧ (s.bumpFab i n).pkts = s.pkts ∧
    (s.bumpFab i n).nextPkt = s.nextPkt ∧ (s.bumpFab i n).sched = s.sched ∧ (s.bumpFab i n).frer = s.frer ∧
    (s.bumpFab i n).leaven = s.leaven ∧ (s.bumpFab i n).proof = s.proof ∧ (s.bumpFab i n).evt = s.evt ∧
    (s.bumpFab i n).swp = s.swp ∧ (s.bumpFab i n).tel = s.tel ∧ (s.bumpFab i n).mbx = s.mbx ∧
    (s.bumpFab i n).bake = s.bake ∧ (s.bumpFab i n).ident = s.ident ∧ (s.bumpFab i n).pwr = s.pwr ∧
    (s.bumpFab i n).host = s.host ∧ (s.bumpFab i n).out = s.out ∧ (s.bumpFab i n).free = s.free ∧
    (s.bumpFab i n).pending = s.pending ∧ (s.bumpFab i n).fab.params = s.fab.params ∧
    (s.bumpFab i n).fab.voqs = s.fab.voqs ∧ (s.bumpFab i n).fab.multiQ = s.fab.multiQ ∧
    (s.bumpFab i n).fab.pairs = s.fab.pairs ∧ (s.bumpFab i n).fab.planes = s.fab.planes ∧
    (s.bumpFab i n).fab.ports = s.fab.ports ∧ (s.bumpFab i n).fab.links = s.fab.links ∧
    (s.bumpFab i n).fab.rr = s.fab.rr ∧ (s.bumpFab i n).fab.rrDst = s.fab.rrDst ∧ (s.bumpFab i n).port = s.port ∧
    (s.bumpFab i n).lane = s.lane ∧ (s.bumpFab i n).group = s.group ∧ (s.bumpFab i n).gate = s.gate ∧
    (s.bumpFab i n).tsFifo = s.tsFifo ∧ (s.bumpFab i n).stream = s.stream ∧ (s.bumpFab i n).cluster = s.cluster ∧
    (s.bumpFab i n).fix = s.fix ∧ (s.bumpFab i n).flow = s.flow ∧ (s.bumpFab i n).target = s.target ∧
    (s.bumpFab i n).drop = s.drop ∧ (s.bumpFab i n).bus = s.bus ∧ (s.bumpFab i n).pclass = s.pclass ∧
    (s.bumpFab i n).plane = s.plane ∧ (s.bumpFab i n).pair = s.pair ∧ (s.bumpFab i n).voq = s.voq ∧
    (s.bumpFab i n).fabPort = s.fabPort ∧ (s.bumpFab i n).classCfg = s.classCfg ∧
    (s.bumpFab i n).portClass = s.portClass ∧ (s.bumpFab i n).queue = s.queue ∧ (s.bumpFab i n).chan = s.chan ∧
    (s.bumpFab i n).fifo = s.fifo ∧ (s.bumpFab i n).sliceSt = s.sliceSt ∧ (s.bumpFab i n).stack = s.stack ∧
    (s.bumpFab i n).mp = s.mp ∧ (s.bumpFab i n).mirrorOf = s.mirrorOf ∧ (s.bumpFab i n).peer = s.peer ∧
    (s.bumpFab i n).box = s.box ∧ (s.bumpFab i n).pkt = s.pkt ∧ (s.bumpFab i n).node = s.node ∧
    (s.bumpFab i n).policer = s.policer := by
  refine ⟨?_, ?_, ?_, ?_, ?_, ?_, ?_, ?_, ?_, ?_, ?_, ?_, ?_, ?_, ?_, ?_, ?_, ?_, ?_, ?_, ?_, ?_, ?_, ?_, ?_, ?_, ?_, ?_, ?_, ?_, ?_, ?_, ?_, ?_, ?_, ?_, ?_, ?_, ?_, ?_, ?_, ?_, ?_, ?_, ?_, ?_, ?_, ?_, ?_, ?_, ?_, ?_, ?_, ?_, ?_, ?_, ?_, ?_, ?_, ?_, ?_, ?_, ?_, ?_, ?_, ?_, ?_, ?_⟩ <;> rfl

@[simp] theorem State.bumpSched_rest (s : State) (i n : Nat) :
    (s.bumpSched i n).time = s.time ∧ (s.bumpSched i n).up = s.up ∧ (s.bumpSched i n).ptp = s.ptp ∧
    (s.bumpSched i n).tsFifos = s.tsFifos ∧ (s.bumpSched i n).gates = s.gates ∧ (s.bumpSched i n).lanes = s.lanes ∧
    (s.bumpSched i n).groups = s.groups ∧ (s.bumpSched i n).ports = s.ports ∧ (s.bumpSched i n).prism = s.prism ∧
    (s.bumpSched i n).fwd = s.fwd ∧ (s.bumpSched i n).buf = s.buf ∧ (s.bumpSched i n).pkts = s.pkts ∧
    (s.bumpSched i n).nextPkt = s.nextPkt ∧ (s.bumpSched i n).fab = s.fab ∧ (s.bumpSched i n).frer = s.frer ∧
    (s.bumpSched i n).leaven = s.leaven ∧ (s.bumpSched i n).proof = s.proof ∧ (s.bumpSched i n).evt = s.evt ∧
    (s.bumpSched i n).swp = s.swp ∧ (s.bumpSched i n).tel = s.tel ∧ (s.bumpSched i n).mbx = s.mbx ∧
    (s.bumpSched i n).bake = s.bake ∧ (s.bumpSched i n).ident = s.ident ∧ (s.bumpSched i n).pwr = s.pwr ∧
    (s.bumpSched i n).host = s.host ∧ (s.bumpSched i n).out = s.out ∧ (s.bumpSched i n).free = s.free ∧
    (s.bumpSched i n).pending = s.pending ∧ (s.bumpSched i n).sched.nodes = s.sched.nodes ∧
    (s.bumpSched i n).sched.egq = s.sched.egq ∧ (s.bumpSched i n).sched.waitTx = s.sched.waitTx ∧ (s.bumpSched i n).sched.pol = s.sched.pol ∧
    (s.bumpSched i n).sched.prof = s.sched.prof ∧ (s.bumpSched i n).sched.queue = s.sched.queue ∧
    (s.bumpSched i n).sched.items = s.sched.items ∧ (s.bumpSched i n).sched.cursor = s.sched.cursor ∧
    (s.bumpSched i n).port = s.port ∧ (s.bumpSched i n).lane = s.lane ∧ (s.bumpSched i n).group = s.group ∧
    (s.bumpSched i n).gate = s.gate ∧ (s.bumpSched i n).tsFifo = s.tsFifo ∧ (s.bumpSched i n).stream = s.stream ∧
    (s.bumpSched i n).cluster = s.cluster ∧ (s.bumpSched i n).fix = s.fix ∧ (s.bumpSched i n).flow = s.flow ∧
    (s.bumpSched i n).target = s.target ∧ (s.bumpSched i n).drop = s.drop ∧ (s.bumpSched i n).bus = s.bus ∧
    (s.bumpSched i n).pclass = s.pclass ∧ (s.bumpSched i n).plane = s.plane ∧ (s.bumpSched i n).pair = s.pair ∧
    (s.bumpSched i n).voq = s.voq ∧ (s.bumpSched i n).fabPort = s.fabPort ∧ (s.bumpSched i n).classCfg = s.classCfg ∧
    (s.bumpSched i n).portClass = s.portClass ∧ (s.bumpSched i n).queue = s.queue ∧ (s.bumpSched i n).chan = s.chan ∧
    (s.bumpSched i n).fifo = s.fifo ∧ (s.bumpSched i n).sliceSt = s.sliceSt ∧ (s.bumpSched i n).stack = s.stack ∧
    (s.bumpSched i n).mp = s.mp ∧ (s.bumpSched i n).mirrorOf = s.mirrorOf ∧ (s.bumpSched i n).peer = s.peer ∧
    (s.bumpSched i n).box = s.box ∧ (s.bumpSched i n).pkt = s.pkt ∧ (s.bumpSched i n).node = s.node ∧
    (s.bumpSched i n).policer = s.policer := by
  refine ⟨?_, ?_, ?_, ?_, ?_, ?_, ?_, ?_, ?_, ?_, ?_, ?_, ?_, ?_, ?_, ?_, ?_, ?_, ?_, ?_, ?_, ?_, ?_, ?_, ?_, ?_, ?_, ?_, ?_, ?_, ?_, ?_, ?_, ?_, ?_, ?_, ?_, ?_, ?_, ?_, ?_, ?_, ?_, ?_, ?_, ?_, ?_, ?_, ?_, ?_, ?_, ?_, ?_, ?_, ?_, ?_, ?_, ?_, ?_, ?_, ?_, ?_, ?_, ?_, ?_, ?_, ?_⟩ <;> rfl

@[simp] theorem State.bumpTime_rest (s : State) (p i n : Nat) :
    (s.bumpTime p i n).time = s.time ∧ (s.bumpTime p i n).up = s.up ∧ (s.bumpTime p i n).ptp = s.ptp ∧
    (s.bumpTime p i n).tsFifos = s.tsFifos ∧ (s.bumpTime p i n).gates = s.gates ∧ (s.bumpTime p i n).lanes = s.lanes ∧
    (s.bumpTime p i n).groups = s.groups ∧ (s.bumpTime p i n).ports = s.ports ∧ (s.bumpTime p i n).prism = s.prism ∧
    (s.bumpTime p i n).fwd = s.fwd ∧ (s.bumpTime p i n).buf = s.buf ∧ (s.bumpTime p i n).pkts = s.pkts ∧
    (s.bumpTime p i n).nextPkt = s.nextPkt ∧ (s.bumpTime p i n).fab = s.fab ∧ (s.bumpTime p i n).sched = s.sched ∧
    (s.bumpTime p i n).frer = s.frer ∧ (s.bumpTime p i n).leaven = s.leaven ∧ (s.bumpTime p i n).proof = s.proof ∧
    (s.bumpTime p i n).evt = s.evt ∧ (s.bumpTime p i n).swp = s.swp ∧ (s.bumpTime p i n).mbx = s.mbx ∧
    (s.bumpTime p i n).bake = s.bake ∧ (s.bumpTime p i n).ident = s.ident ∧ (s.bumpTime p i n).pwr = s.pwr ∧
    (s.bumpTime p i n).host = s.host ∧ (s.bumpTime p i n).out = s.out ∧ (s.bumpTime p i n).free = s.free ∧
    (s.bumpTime p i n).pending = s.pending ∧ (s.bumpTime p i n).tel.mirrors = s.tel.mirrors ∧
    (s.bumpTime p i n).tel.cand = s.tel.cand ∧ (s.bumpTime p i n).tel.mirQ = s.tel.mirQ ∧
    (s.bumpTime p i n).tel.mirCtr = s.tel.mirCtr ∧ (s.bumpTime p i n).tel.ctr = s.tel.ctr ∧
    (s.bumpTime p i n).tel.drops = s.tel.drops ∧ (s.bumpTime p i n).tel.portCtr = s.tel.portCtr ∧
    (s.bumpTime p i n).tel.prismCtr = s.tel.prismCtr ∧ (s.bumpTime p i n).tel.redCtr = s.tel.redCtr ∧
    (s.bumpTime p i n).tel.frerCtr = s.tel.frerCtr ∧ (s.bumpTime p i n).tel.mbxCtr = s.tel.mbxCtr ∧
    (s.bumpTime p i n).tel.pwrCtr = s.tel.pwrCtr ∧ (s.bumpTime p i n).tel.rate = s.tel.rate ∧
    (s.bumpTime p i n).port = s.port ∧ (s.bumpTime p i n).lane = s.lane ∧ (s.bumpTime p i n).group = s.group ∧
    (s.bumpTime p i n).gate = s.gate ∧ (s.bumpTime p i n).tsFifo = s.tsFifo ∧ (s.bumpTime p i n).stream = s.stream ∧
    (s.bumpTime p i n).cluster = s.cluster ∧ (s.bumpTime p i n).fix = s.fix ∧ (s.bumpTime p i n).flow = s.flow ∧
    (s.bumpTime p i n).target = s.target ∧ (s.bumpTime p i n).drop = s.drop ∧ (s.bumpTime p i n).bus = s.bus ∧
    (s.bumpTime p i n).pclass = s.pclass ∧ (s.bumpTime p i n).plane = s.plane ∧ (s.bumpTime p i n).pair = s.pair ∧
    (s.bumpTime p i n).voq = s.voq ∧ (s.bumpTime p i n).fabPort = s.fabPort ∧ (s.bumpTime p i n).classCfg = s.classCfg ∧
    (s.bumpTime p i n).portClass = s.portClass ∧ (s.bumpTime p i n).queue = s.queue ∧ (s.bumpTime p i n).chan = s.chan ∧
    (s.bumpTime p i n).fifo = s.fifo ∧ (s.bumpTime p i n).sliceSt = s.sliceSt ∧ (s.bumpTime p i n).stack = s.stack ∧
    (s.bumpTime p i n).mp = s.mp ∧ (s.bumpTime p i n).mirrorOf = s.mirrorOf ∧ (s.bumpTime p i n).peer = s.peer ∧
    (s.bumpTime p i n).box = s.box ∧ (s.bumpTime p i n).pkt = s.pkt ∧ (s.bumpTime p i n).node = s.node ∧
    (s.bumpTime p i n).policer = s.policer := by
  refine ⟨?_, ?_, ?_, ?_, ?_, ?_, ?_, ?_, ?_, ?_, ?_, ?_, ?_, ?_, ?_, ?_, ?_, ?_, ?_, ?_, ?_, ?_, ?_, ?_, ?_, ?_, ?_, ?_, ?_, ?_, ?_, ?_, ?_, ?_, ?_, ?_, ?_, ?_, ?_, ?_, ?_, ?_, ?_, ?_, ?_, ?_, ?_, ?_, ?_, ?_, ?_, ?_, ?_, ?_, ?_, ?_, ?_, ?_, ?_, ?_, ?_, ?_, ?_, ?_, ?_, ?_, ?_, ?_, ?_, ?_, ?_, ?_⟩ <;> rfl

@[simp] theorem State.bumpRed_rest (s : State) (i n : Nat) :
    (s.bumpRed i n).time = s.time ∧ (s.bumpRed i n).up = s.up ∧ (s.bumpRed i n).ptp = s.ptp ∧
    (s.bumpRed i n).tsFifos = s.tsFifos ∧ (s.bumpRed i n).gates = s.gates ∧ (s.bumpRed i n).lanes = s.lanes ∧
    (s.bumpRed i n).groups = s.groups ∧ (s.bumpRed i n).ports = s.ports ∧ (s.bumpRed i n).prism = s.prism ∧
    (s.bumpRed i n).fwd = s.fwd ∧ (s.bumpRed i n).buf = s.buf ∧ (s.bumpRed i n).pkts = s.pkts ∧
    (s.bumpRed i n).nextPkt = s.nextPkt ∧ (s.bumpRed i n).fab = s.fab ∧ (s.bumpRed i n).sched = s.sched ∧
    (s.bumpRed i n).frer = s.frer ∧ (s.bumpRed i n).leaven = s.leaven ∧ (s.bumpRed i n).proof = s.proof ∧
    (s.bumpRed i n).evt = s.evt ∧ (s.bumpRed i n).swp = s.swp ∧ (s.bumpRed i n).mbx = s.mbx ∧
    (s.bumpRed i n).bake = s.bake ∧ (s.bumpRed i n).ident = s.ident ∧ (s.bumpRed i n).pwr = s.pwr ∧
    (s.bumpRed i n).host = s.host ∧ (s.bumpRed i n).out = s.out ∧ (s.bumpRed i n).free = s.free ∧
    (s.bumpRed i n).pending = s.pending ∧ (s.bumpRed i n).tel.mirrors = s.tel.mirrors ∧
    (s.bumpRed i n).tel.cand = s.tel.cand ∧ (s.bumpRed i n).tel.mirQ = s.tel.mirQ ∧
    (s.bumpRed i n).tel.mirCtr = s.tel.mirCtr ∧ (s.bumpRed i n).tel.ctr = s.tel.ctr ∧
    (s.bumpRed i n).tel.drops = s.tel.drops ∧ (s.bumpRed i n).tel.portCtr = s.tel.portCtr ∧
    (s.bumpRed i n).tel.prismCtr = s.tel.prismCtr ∧ (s.bumpRed i n).tel.timeCtr = s.tel.timeCtr ∧
    (s.bumpRed i n).tel.frerCtr = s.tel.frerCtr ∧ (s.bumpRed i n).tel.mbxCtr = s.tel.mbxCtr ∧
    (s.bumpRed i n).tel.pwrCtr = s.tel.pwrCtr ∧ (s.bumpRed i n).tel.rate = s.tel.rate ∧ (s.bumpRed i n).port = s.port ∧
    (s.bumpRed i n).lane = s.lane ∧ (s.bumpRed i n).group = s.group ∧ (s.bumpRed i n).gate = s.gate ∧
    (s.bumpRed i n).tsFifo = s.tsFifo ∧ (s.bumpRed i n).stream = s.stream ∧ (s.bumpRed i n).cluster = s.cluster ∧
    (s.bumpRed i n).fix = s.fix ∧ (s.bumpRed i n).flow = s.flow ∧ (s.bumpRed i n).target = s.target ∧
    (s.bumpRed i n).drop = s.drop ∧ (s.bumpRed i n).bus = s.bus ∧ (s.bumpRed i n).pclass = s.pclass ∧
    (s.bumpRed i n).plane = s.plane ∧ (s.bumpRed i n).pair = s.pair ∧ (s.bumpRed i n).voq = s.voq ∧
    (s.bumpRed i n).fabPort = s.fabPort ∧ (s.bumpRed i n).classCfg = s.classCfg ∧
    (s.bumpRed i n).portClass = s.portClass ∧ (s.bumpRed i n).queue = s.queue ∧ (s.bumpRed i n).chan = s.chan ∧
    (s.bumpRed i n).fifo = s.fifo ∧ (s.bumpRed i n).sliceSt = s.sliceSt ∧ (s.bumpRed i n).stack = s.stack ∧
    (s.bumpRed i n).mp = s.mp ∧ (s.bumpRed i n).mirrorOf = s.mirrorOf ∧ (s.bumpRed i n).peer = s.peer ∧
    (s.bumpRed i n).box = s.box ∧ (s.bumpRed i n).pkt = s.pkt ∧ (s.bumpRed i n).node = s.node ∧
    (s.bumpRed i n).policer = s.policer := by
  refine ⟨?_, ?_, ?_, ?_, ?_, ?_, ?_, ?_, ?_, ?_, ?_, ?_, ?_, ?_, ?_, ?_, ?_, ?_, ?_, ?_, ?_, ?_, ?_, ?_, ?_, ?_, ?_, ?_, ?_, ?_, ?_, ?_, ?_, ?_, ?_, ?_, ?_, ?_, ?_, ?_, ?_, ?_, ?_, ?_, ?_, ?_, ?_, ?_, ?_, ?_, ?_, ?_, ?_, ?_, ?_, ?_, ?_, ?_, ?_, ?_, ?_, ?_, ?_, ?_, ?_, ?_, ?_, ?_, ?_, ?_, ?_, ?_⟩ <;> rfl

@[simp] theorem State.bumpFrer_rest (s : State) (p i n : Nat) :
    (s.bumpFrer p i n).time = s.time ∧ (s.bumpFrer p i n).up = s.up ∧ (s.bumpFrer p i n).ptp = s.ptp ∧
    (s.bumpFrer p i n).tsFifos = s.tsFifos ∧ (s.bumpFrer p i n).gates = s.gates ∧ (s.bumpFrer p i n).lanes = s.lanes ∧
    (s.bumpFrer p i n).groups = s.groups ∧ (s.bumpFrer p i n).ports = s.ports ∧ (s.bumpFrer p i n).prism = s.prism ∧
    (s.bumpFrer p i n).fwd = s.fwd ∧ (s.bumpFrer p i n).buf = s.buf ∧ (s.bumpFrer p i n).pkts = s.pkts ∧
    (s.bumpFrer p i n).nextPkt = s.nextPkt ∧ (s.bumpFrer p i n).fab = s.fab ∧ (s.bumpFrer p i n).sched = s.sched ∧
    (s.bumpFrer p i n).frer = s.frer ∧ (s.bumpFrer p i n).leaven = s.leaven ∧ (s.bumpFrer p i n).proof = s.proof ∧
    (s.bumpFrer p i n).evt = s.evt ∧ (s.bumpFrer p i n).swp = s.swp ∧ (s.bumpFrer p i n).mbx = s.mbx ∧
    (s.bumpFrer p i n).bake = s.bake ∧ (s.bumpFrer p i n).ident = s.ident ∧ (s.bumpFrer p i n).pwr = s.pwr ∧
    (s.bumpFrer p i n).host = s.host ∧ (s.bumpFrer p i n).out = s.out ∧ (s.bumpFrer p i n).free = s.free ∧
    (s.bumpFrer p i n).pending = s.pending ∧ (s.bumpFrer p i n).tel.mirrors = s.tel.mirrors ∧
    (s.bumpFrer p i n).tel.cand = s.tel.cand ∧ (s.bumpFrer p i n).tel.mirQ = s.tel.mirQ ∧
    (s.bumpFrer p i n).tel.mirCtr = s.tel.mirCtr ∧ (s.bumpFrer p i n).tel.ctr = s.tel.ctr ∧
    (s.bumpFrer p i n).tel.drops = s.tel.drops ∧ (s.bumpFrer p i n).tel.portCtr = s.tel.portCtr ∧
    (s.bumpFrer p i n).tel.prismCtr = s.tel.prismCtr ∧ (s.bumpFrer p i n).tel.timeCtr = s.tel.timeCtr ∧
    (s.bumpFrer p i n).tel.redCtr = s.tel.redCtr ∧ (s.bumpFrer p i n).tel.mbxCtr = s.tel.mbxCtr ∧
    (s.bumpFrer p i n).tel.pwrCtr = s.tel.pwrCtr ∧ (s.bumpFrer p i n).tel.rate = s.tel.rate ∧
    (s.bumpFrer p i n).port = s.port ∧ (s.bumpFrer p i n).lane = s.lane ∧ (s.bumpFrer p i n).group = s.group ∧
    (s.bumpFrer p i n).gate = s.gate ∧ (s.bumpFrer p i n).tsFifo = s.tsFifo ∧ (s.bumpFrer p i n).stream = s.stream ∧
    (s.bumpFrer p i n).cluster = s.cluster ∧ (s.bumpFrer p i n).fix = s.fix ∧ (s.bumpFrer p i n).flow = s.flow ∧
    (s.bumpFrer p i n).target = s.target ∧ (s.bumpFrer p i n).drop = s.drop ∧ (s.bumpFrer p i n).bus = s.bus ∧
    (s.bumpFrer p i n).pclass = s.pclass ∧ (s.bumpFrer p i n).plane = s.plane ∧ (s.bumpFrer p i n).pair = s.pair ∧
    (s.bumpFrer p i n).voq = s.voq ∧ (s.bumpFrer p i n).fabPort = s.fabPort ∧ (s.bumpFrer p i n).classCfg = s.classCfg ∧
    (s.bumpFrer p i n).portClass = s.portClass ∧ (s.bumpFrer p i n).queue = s.queue ∧ (s.bumpFrer p i n).chan = s.chan ∧
    (s.bumpFrer p i n).fifo = s.fifo ∧ (s.bumpFrer p i n).sliceSt = s.sliceSt ∧ (s.bumpFrer p i n).stack = s.stack ∧
    (s.bumpFrer p i n).mp = s.mp ∧ (s.bumpFrer p i n).mirrorOf = s.mirrorOf ∧ (s.bumpFrer p i n).peer = s.peer ∧
    (s.bumpFrer p i n).box = s.box ∧ (s.bumpFrer p i n).pkt = s.pkt ∧ (s.bumpFrer p i n).node = s.node ∧
    (s.bumpFrer p i n).policer = s.policer := by
  refine ⟨?_, ?_, ?_, ?_, ?_, ?_, ?_, ?_, ?_, ?_, ?_, ?_, ?_, ?_, ?_, ?_, ?_, ?_, ?_, ?_, ?_, ?_, ?_, ?_, ?_, ?_, ?_, ?_, ?_, ?_, ?_, ?_, ?_, ?_, ?_, ?_, ?_, ?_, ?_, ?_, ?_, ?_, ?_, ?_, ?_, ?_, ?_, ?_, ?_, ?_, ?_, ?_, ?_, ?_, ?_, ?_, ?_, ?_, ?_, ?_, ?_, ?_, ?_, ?_, ?_, ?_, ?_, ?_, ?_, ?_, ?_, ?_⟩ <;> rfl

@[simp] theorem State.bumpFix_rest (s : State) (i n : Nat) :
    (s.bumpFix i n).time = s.time ∧ (s.bumpFix i n).up = s.up ∧ (s.bumpFix i n).ptp = s.ptp ∧
    (s.bumpFix i n).tsFifos = s.tsFifos ∧ (s.bumpFix i n).gates = s.gates ∧ (s.bumpFix i n).lanes = s.lanes ∧
    (s.bumpFix i n).groups = s.groups ∧ (s.bumpFix i n).ports = s.ports ∧ (s.bumpFix i n).prism = s.prism ∧
    (s.bumpFix i n).fwd = s.fwd ∧ (s.bumpFix i n).buf = s.buf ∧ (s.bumpFix i n).pkts = s.pkts ∧
    (s.bumpFix i n).nextPkt = s.nextPkt ∧ (s.bumpFix i n).fab = s.fab ∧ (s.bumpFix i n).sched = s.sched ∧
    (s.bumpFix i n).frer = s.frer ∧ (s.bumpFix i n).proof = s.proof ∧ (s.bumpFix i n).evt = s.evt ∧
    (s.bumpFix i n).swp = s.swp ∧ (s.bumpFix i n).tel = s.tel ∧ (s.bumpFix i n).mbx = s.mbx ∧
    (s.bumpFix i n).bake = s.bake ∧ (s.bumpFix i n).ident = s.ident ∧ (s.bumpFix i n).pwr = s.pwr ∧
    (s.bumpFix i n).host = s.host ∧ (s.bumpFix i n).out = s.out ∧ (s.bumpFix i n).free = s.free ∧
    (s.bumpFix i n).pending = s.pending ∧ (s.bumpFix i n).leaven.clusters = s.leaven.clusters ∧
    (s.bumpFix i n).leaven.cores = s.leaven.cores ∧ (s.bumpFix i n).leaven.flows = s.leaven.flows ∧
    (s.bumpFix i n).leaven.fix = s.leaven.fix ∧ (s.bumpFix i n).leaven.nextTap = s.leaven.nextTap ∧
    (s.bumpFix i n).leaven.flushes = s.leaven.flushes ∧ (s.bumpFix i n).port = s.port ∧ (s.bumpFix i n).lane = s.lane ∧
    (s.bumpFix i n).group = s.group ∧ (s.bumpFix i n).gate = s.gate ∧ (s.bumpFix i n).tsFifo = s.tsFifo ∧
    (s.bumpFix i n).stream = s.stream ∧ (s.bumpFix i n).cluster = s.cluster ∧ (s.bumpFix i n).fix = s.fix ∧
    (s.bumpFix i n).flow = s.flow ∧ (s.bumpFix i n).target = s.target ∧ (s.bumpFix i n).drop = s.drop ∧
    (s.bumpFix i n).bus = s.bus ∧ (s.bumpFix i n).pclass = s.pclass ∧ (s.bumpFix i n).plane = s.plane ∧
    (s.bumpFix i n).pair = s.pair ∧ (s.bumpFix i n).voq = s.voq ∧ (s.bumpFix i n).fabPort = s.fabPort ∧
    (s.bumpFix i n).classCfg = s.classCfg ∧ (s.bumpFix i n).portClass = s.portClass ∧ (s.bumpFix i n).queue = s.queue ∧
    (s.bumpFix i n).chan = s.chan ∧ (s.bumpFix i n).fifo = s.fifo ∧ (s.bumpFix i n).sliceSt = s.sliceSt ∧
    (s.bumpFix i n).stack = s.stack ∧ (s.bumpFix i n).mp = s.mp ∧ (s.bumpFix i n).mirrorOf = s.mirrorOf ∧
    (s.bumpFix i n).peer = s.peer ∧ (s.bumpFix i n).box = s.box ∧ (s.bumpFix i n).pkt = s.pkt ∧
    (s.bumpFix i n).node = s.node ∧ (s.bumpFix i n).policer = s.policer := by
  refine ⟨?_, ?_, ?_, ?_, ?_, ?_, ?_, ?_, ?_, ?_, ?_, ?_, ?_, ?_, ?_, ?_, ?_, ?_, ?_, ?_, ?_, ?_, ?_, ?_, ?_, ?_, ?_, ?_, ?_, ?_, ?_, ?_, ?_, ?_, ?_, ?_, ?_, ?_, ?_, ?_, ?_, ?_, ?_, ?_, ?_, ?_, ?_, ?_, ?_, ?_, ?_, ?_, ?_, ?_, ?_, ?_, ?_, ?_, ?_, ?_, ?_, ?_, ?_, ?_, ?_⟩ <;> rfl

@[simp] theorem State.bumpProof_rest (s : State) (i n : Nat) :
    (s.bumpProof i n).time = s.time ∧ (s.bumpProof i n).up = s.up ∧ (s.bumpProof i n).ptp = s.ptp ∧
    (s.bumpProof i n).tsFifos = s.tsFifos ∧ (s.bumpProof i n).gates = s.gates ∧ (s.bumpProof i n).lanes = s.lanes ∧
    (s.bumpProof i n).groups = s.groups ∧ (s.bumpProof i n).ports = s.ports ∧ (s.bumpProof i n).prism = s.prism ∧
    (s.bumpProof i n).fwd = s.fwd ∧ (s.bumpProof i n).buf = s.buf ∧ (s.bumpProof i n).pkts = s.pkts ∧
    (s.bumpProof i n).nextPkt = s.nextPkt ∧ (s.bumpProof i n).fab = s.fab ∧ (s.bumpProof i n).sched = s.sched ∧
    (s.bumpProof i n).frer = s.frer ∧ (s.bumpProof i n).leaven = s.leaven ∧ (s.bumpProof i n).evt = s.evt ∧
    (s.bumpProof i n).swp = s.swp ∧ (s.bumpProof i n).tel = s.tel ∧ (s.bumpProof i n).mbx = s.mbx ∧
    (s.bumpProof i n).bake = s.bake ∧ (s.bumpProof i n).ident = s.ident ∧ (s.bumpProof i n).pwr = s.pwr ∧
    (s.bumpProof i n).host = s.host ∧ (s.bumpProof i n).out = s.out ∧ (s.bumpProof i n).free = s.free ∧
    (s.bumpProof i n).pending = s.pending ∧ (s.bumpProof i n).proof.classes = s.proof.classes ∧
    (s.bumpProof i n).proof.targets = s.proof.targets ∧ (s.bumpProof i n).proof.drops = s.proof.drops ∧
    (s.bumpProof i n).proof.buses = s.proof.buses ∧ (s.bumpProof i n).proof.parkUnits = s.proof.parkUnits ∧
    (s.bumpProof i n).proof.noticeSec = s.proof.noticeSec ∧ (s.bumpProof i n).proof.noticeAt = s.proof.noticeAt ∧
    (s.bumpProof i n).port = s.port ∧ (s.bumpProof i n).lane = s.lane ∧ (s.bumpProof i n).group = s.group ∧
    (s.bumpProof i n).gate = s.gate ∧ (s.bumpProof i n).tsFifo = s.tsFifo ∧ (s.bumpProof i n).stream = s.stream ∧
    (s.bumpProof i n).cluster = s.cluster ∧ (s.bumpProof i n).fix = s.fix ∧ (s.bumpProof i n).flow = s.flow ∧
    (s.bumpProof i n).target = s.target ∧ (s.bumpProof i n).drop = s.drop ∧ (s.bumpProof i n).bus = s.bus ∧
    (s.bumpProof i n).pclass = s.pclass ∧ (s.bumpProof i n).plane = s.plane ∧ (s.bumpProof i n).pair = s.pair ∧
    (s.bumpProof i n).voq = s.voq ∧ (s.bumpProof i n).fabPort = s.fabPort ∧ (s.bumpProof i n).classCfg = s.classCfg ∧
    (s.bumpProof i n).portClass = s.portClass ∧ (s.bumpProof i n).queue = s.queue ∧ (s.bumpProof i n).chan = s.chan ∧
    (s.bumpProof i n).fifo = s.fifo ∧ (s.bumpProof i n).sliceSt = s.sliceSt ∧ (s.bumpProof i n).stack = s.stack ∧
    (s.bumpProof i n).mp = s.mp ∧ (s.bumpProof i n).mirrorOf = s.mirrorOf ∧ (s.bumpProof i n).peer = s.peer ∧
    (s.bumpProof i n).box = s.box ∧ (s.bumpProof i n).pkt = s.pkt ∧ (s.bumpProof i n).node = s.node ∧
    (s.bumpProof i n).policer = s.policer := by
  refine ⟨?_, ?_, ?_, ?_, ?_, ?_, ?_, ?_, ?_, ?_, ?_, ?_, ?_, ?_, ?_, ?_, ?_, ?_, ?_, ?_, ?_, ?_, ?_, ?_, ?_, ?_, ?_, ?_, ?_, ?_, ?_, ?_, ?_, ?_, ?_, ?_, ?_, ?_, ?_, ?_, ?_, ?_, ?_, ?_, ?_, ?_, ?_, ?_, ?_, ?_, ?_, ?_, ?_, ?_, ?_, ?_, ?_, ?_, ?_, ?_, ?_, ?_, ?_, ?_, ?_, ?_⟩ <;> rfl

@[simp] theorem State.bumpMbx_rest (s : State) (p i n : Nat) :
    (s.bumpMbx p i n).time = s.time ∧ (s.bumpMbx p i n).up = s.up ∧ (s.bumpMbx p i n).ptp = s.ptp ∧
    (s.bumpMbx p i n).tsFifos = s.tsFifos ∧ (s.bumpMbx p i n).gates = s.gates ∧ (s.bumpMbx p i n).lanes = s.lanes ∧
    (s.bumpMbx p i n).groups = s.groups ∧ (s.bumpMbx p i n).ports = s.ports ∧ (s.bumpMbx p i n).prism = s.prism ∧
    (s.bumpMbx p i n).fwd = s.fwd ∧ (s.bumpMbx p i n).buf = s.buf ∧ (s.bumpMbx p i n).pkts = s.pkts ∧
    (s.bumpMbx p i n).nextPkt = s.nextPkt ∧ (s.bumpMbx p i n).fab = s.fab ∧ (s.bumpMbx p i n).sched = s.sched ∧
    (s.bumpMbx p i n).frer = s.frer ∧ (s.bumpMbx p i n).leaven = s.leaven ∧ (s.bumpMbx p i n).proof = s.proof ∧
    (s.bumpMbx p i n).evt = s.evt ∧ (s.bumpMbx p i n).swp = s.swp ∧ (s.bumpMbx p i n).mbx = s.mbx ∧
    (s.bumpMbx p i n).bake = s.bake ∧ (s.bumpMbx p i n).ident = s.ident ∧ (s.bumpMbx p i n).pwr = s.pwr ∧
    (s.bumpMbx p i n).host = s.host ∧ (s.bumpMbx p i n).out = s.out ∧ (s.bumpMbx p i n).free = s.free ∧
    (s.bumpMbx p i n).pending = s.pending ∧ (s.bumpMbx p i n).tel.mirrors = s.tel.mirrors ∧
    (s.bumpMbx p i n).tel.cand = s.tel.cand ∧ (s.bumpMbx p i n).tel.mirQ = s.tel.mirQ ∧
    (s.bumpMbx p i n).tel.mirCtr = s.tel.mirCtr ∧ (s.bumpMbx p i n).tel.ctr = s.tel.ctr ∧
    (s.bumpMbx p i n).tel.drops = s.tel.drops ∧ (s.bumpMbx p i n).tel.portCtr = s.tel.portCtr ∧
    (s.bumpMbx p i n).tel.prismCtr = s.tel.prismCtr ∧ (s.bumpMbx p i n).tel.timeCtr = s.tel.timeCtr ∧
    (s.bumpMbx p i n).tel.redCtr = s.tel.redCtr ∧ (s.bumpMbx p i n).tel.frerCtr = s.tel.frerCtr ∧
    (s.bumpMbx p i n).tel.pwrCtr = s.tel.pwrCtr ∧ (s.bumpMbx p i n).tel.rate = s.tel.rate ∧
    (s.bumpMbx p i n).port = s.port ∧ (s.bumpMbx p i n).lane = s.lane ∧ (s.bumpMbx p i n).group = s.group ∧
    (s.bumpMbx p i n).gate = s.gate ∧ (s.bumpMbx p i n).tsFifo = s.tsFifo ∧ (s.bumpMbx p i n).stream = s.stream ∧
    (s.bumpMbx p i n).cluster = s.cluster ∧ (s.bumpMbx p i n).fix = s.fix ∧ (s.bumpMbx p i n).flow = s.flow ∧
    (s.bumpMbx p i n).target = s.target ∧ (s.bumpMbx p i n).drop = s.drop ∧ (s.bumpMbx p i n).bus = s.bus ∧
    (s.bumpMbx p i n).pclass = s.pclass ∧ (s.bumpMbx p i n).plane = s.plane ∧ (s.bumpMbx p i n).pair = s.pair ∧
    (s.bumpMbx p i n).voq = s.voq ∧ (s.bumpMbx p i n).fabPort = s.fabPort ∧ (s.bumpMbx p i n).classCfg = s.classCfg ∧
    (s.bumpMbx p i n).portClass = s.portClass ∧ (s.bumpMbx p i n).queue = s.queue ∧ (s.bumpMbx p i n).chan = s.chan ∧
    (s.bumpMbx p i n).fifo = s.fifo ∧ (s.bumpMbx p i n).sliceSt = s.sliceSt ∧ (s.bumpMbx p i n).stack = s.stack ∧
    (s.bumpMbx p i n).mp = s.mp ∧ (s.bumpMbx p i n).mirrorOf = s.mirrorOf ∧ (s.bumpMbx p i n).peer = s.peer ∧
    (s.bumpMbx p i n).box = s.box ∧ (s.bumpMbx p i n).pkt = s.pkt ∧ (s.bumpMbx p i n).node = s.node ∧
    (s.bumpMbx p i n).policer = s.policer := by
  refine ⟨?_, ?_, ?_, ?_, ?_, ?_, ?_, ?_, ?_, ?_, ?_, ?_, ?_, ?_, ?_, ?_, ?_, ?_, ?_, ?_, ?_, ?_, ?_, ?_, ?_, ?_, ?_, ?_, ?_, ?_, ?_, ?_, ?_, ?_, ?_, ?_, ?_, ?_, ?_, ?_, ?_, ?_, ?_, ?_, ?_, ?_, ?_, ?_, ?_, ?_, ?_, ?_, ?_, ?_, ?_, ?_, ?_, ?_, ?_, ?_, ?_, ?_, ?_, ?_, ?_, ?_, ?_, ?_, ?_, ?_, ?_, ?_⟩ <;> rfl

@[simp] theorem State.bumpPwr_rest (s : State) (i n : Nat) :
    (s.bumpPwr i n).time = s.time ∧ (s.bumpPwr i n).up = s.up ∧ (s.bumpPwr i n).ptp = s.ptp ∧
    (s.bumpPwr i n).tsFifos = s.tsFifos ∧ (s.bumpPwr i n).gates = s.gates ∧ (s.bumpPwr i n).lanes = s.lanes ∧
    (s.bumpPwr i n).groups = s.groups ∧ (s.bumpPwr i n).ports = s.ports ∧ (s.bumpPwr i n).prism = s.prism ∧
    (s.bumpPwr i n).fwd = s.fwd ∧ (s.bumpPwr i n).buf = s.buf ∧ (s.bumpPwr i n).pkts = s.pkts ∧
    (s.bumpPwr i n).nextPkt = s.nextPkt ∧ (s.bumpPwr i n).fab = s.fab ∧ (s.bumpPwr i n).sched = s.sched ∧
    (s.bumpPwr i n).frer = s.frer ∧ (s.bumpPwr i n).leaven = s.leaven ∧ (s.bumpPwr i n).proof = s.proof ∧
    (s.bumpPwr i n).evt = s.evt ∧ (s.bumpPwr i n).swp = s.swp ∧ (s.bumpPwr i n).mbx = s.mbx ∧
    (s.bumpPwr i n).bake = s.bake ∧ (s.bumpPwr i n).ident = s.ident ∧ (s.bumpPwr i n).pwr = s.pwr ∧
    (s.bumpPwr i n).host = s.host ∧ (s.bumpPwr i n).out = s.out ∧ (s.bumpPwr i n).free = s.free ∧
    (s.bumpPwr i n).pending = s.pending ∧ (s.bumpPwr i n).tel.mirrors = s.tel.mirrors ∧
    (s.bumpPwr i n).tel.cand = s.tel.cand ∧ (s.bumpPwr i n).tel.mirQ = s.tel.mirQ ∧
    (s.bumpPwr i n).tel.mirCtr = s.tel.mirCtr ∧ (s.bumpPwr i n).tel.ctr = s.tel.ctr ∧
    (s.bumpPwr i n).tel.drops = s.tel.drops ∧ (s.bumpPwr i n).tel.portCtr = s.tel.portCtr ∧
    (s.bumpPwr i n).tel.prismCtr = s.tel.prismCtr ∧ (s.bumpPwr i n).tel.timeCtr = s.tel.timeCtr ∧
    (s.bumpPwr i n).tel.redCtr = s.tel.redCtr ∧ (s.bumpPwr i n).tel.frerCtr = s.tel.frerCtr ∧
    (s.bumpPwr i n).tel.mbxCtr = s.tel.mbxCtr ∧ (s.bumpPwr i n).tel.rate = s.tel.rate ∧ (s.bumpPwr i n).port = s.port ∧
    (s.bumpPwr i n).lane = s.lane ∧ (s.bumpPwr i n).group = s.group ∧ (s.bumpPwr i n).gate = s.gate ∧
    (s.bumpPwr i n).tsFifo = s.tsFifo ∧ (s.bumpPwr i n).stream = s.stream ∧ (s.bumpPwr i n).cluster = s.cluster ∧
    (s.bumpPwr i n).fix = s.fix ∧ (s.bumpPwr i n).flow = s.flow ∧ (s.bumpPwr i n).target = s.target ∧
    (s.bumpPwr i n).drop = s.drop ∧ (s.bumpPwr i n).bus = s.bus ∧ (s.bumpPwr i n).pclass = s.pclass ∧
    (s.bumpPwr i n).plane = s.plane ∧ (s.bumpPwr i n).pair = s.pair ∧ (s.bumpPwr i n).voq = s.voq ∧
    (s.bumpPwr i n).fabPort = s.fabPort ∧ (s.bumpPwr i n).classCfg = s.classCfg ∧
    (s.bumpPwr i n).portClass = s.portClass ∧ (s.bumpPwr i n).queue = s.queue ∧ (s.bumpPwr i n).chan = s.chan ∧
    (s.bumpPwr i n).fifo = s.fifo ∧ (s.bumpPwr i n).sliceSt = s.sliceSt ∧ (s.bumpPwr i n).stack = s.stack ∧
    (s.bumpPwr i n).mp = s.mp ∧ (s.bumpPwr i n).mirrorOf = s.mirrorOf ∧ (s.bumpPwr i n).peer = s.peer ∧
    (s.bumpPwr i n).box = s.box ∧ (s.bumpPwr i n).pkt = s.pkt ∧ (s.bumpPwr i n).node = s.node ∧
    (s.bumpPwr i n).policer = s.policer := by
  refine ⟨?_, ?_, ?_, ?_, ?_, ?_, ?_, ?_, ?_, ?_, ?_, ?_, ?_, ?_, ?_, ?_, ?_, ?_, ?_, ?_, ?_, ?_, ?_, ?_, ?_, ?_, ?_, ?_, ?_, ?_, ?_, ?_, ?_, ?_, ?_, ?_, ?_, ?_, ?_, ?_, ?_, ?_, ?_, ?_, ?_, ?_, ?_, ?_, ?_, ?_, ?_, ?_, ?_, ?_, ?_, ?_, ?_, ?_, ?_, ?_, ?_, ?_, ?_, ?_, ?_, ?_, ?_, ?_, ?_, ?_, ?_, ?_⟩ <;> rfl

@[simp] theorem State.bumpTel_rest (s : State) (i n : Nat) :
    (s.bumpTel i n).time = s.time ∧ (s.bumpTel i n).up = s.up ∧ (s.bumpTel i n).ptp = s.ptp ∧
    (s.bumpTel i n).tsFifos = s.tsFifos ∧ (s.bumpTel i n).gates = s.gates ∧ (s.bumpTel i n).lanes = s.lanes ∧
    (s.bumpTel i n).groups = s.groups ∧ (s.bumpTel i n).ports = s.ports ∧ (s.bumpTel i n).prism = s.prism ∧
    (s.bumpTel i n).fwd = s.fwd ∧ (s.bumpTel i n).buf = s.buf ∧ (s.bumpTel i n).pkts = s.pkts ∧
    (s.bumpTel i n).nextPkt = s.nextPkt ∧ (s.bumpTel i n).fab = s.fab ∧ (s.bumpTel i n).sched = s.sched ∧
    (s.bumpTel i n).frer = s.frer ∧ (s.bumpTel i n).leaven = s.leaven ∧ (s.bumpTel i n).proof = s.proof ∧
    (s.bumpTel i n).evt = s.evt ∧ (s.bumpTel i n).swp = s.swp ∧ (s.bumpTel i n).mbx = s.mbx ∧
    (s.bumpTel i n).bake = s.bake ∧ (s.bumpTel i n).ident = s.ident ∧ (s.bumpTel i n).pwr = s.pwr ∧
    (s.bumpTel i n).host = s.host ∧ (s.bumpTel i n).out = s.out ∧ (s.bumpTel i n).free = s.free ∧
    (s.bumpTel i n).pending = s.pending ∧ (s.bumpTel i n).tel.mirrors = s.tel.mirrors ∧
    (s.bumpTel i n).tel.cand = s.tel.cand ∧ (s.bumpTel i n).tel.mirQ = s.tel.mirQ ∧
    (s.bumpTel i n).tel.mirCtr = s.tel.mirCtr ∧ (s.bumpTel i n).tel.drops = s.tel.drops ∧
    (s.bumpTel i n).tel.portCtr = s.tel.portCtr ∧ (s.bumpTel i n).tel.prismCtr = s.tel.prismCtr ∧
    (s.bumpTel i n).tel.timeCtr = s.tel.timeCtr ∧ (s.bumpTel i n).tel.redCtr = s.tel.redCtr ∧
    (s.bumpTel i n).tel.frerCtr = s.tel.frerCtr ∧ (s.bumpTel i n).tel.mbxCtr = s.tel.mbxCtr ∧
    (s.bumpTel i n).tel.pwrCtr = s.tel.pwrCtr ∧ (s.bumpTel i n).tel.rate = s.tel.rate ∧ (s.bumpTel i n).port = s.port ∧
    (s.bumpTel i n).lane = s.lane ∧ (s.bumpTel i n).group = s.group ∧ (s.bumpTel i n).gate = s.gate ∧
    (s.bumpTel i n).tsFifo = s.tsFifo ∧ (s.bumpTel i n).stream = s.stream ∧ (s.bumpTel i n).cluster = s.cluster ∧
    (s.bumpTel i n).fix = s.fix ∧ (s.bumpTel i n).flow = s.flow ∧ (s.bumpTel i n).target = s.target ∧
    (s.bumpTel i n).drop = s.drop ∧ (s.bumpTel i n).bus = s.bus ∧ (s.bumpTel i n).pclass = s.pclass ∧
    (s.bumpTel i n).plane = s.plane ∧ (s.bumpTel i n).pair = s.pair ∧ (s.bumpTel i n).voq = s.voq ∧
    (s.bumpTel i n).fabPort = s.fabPort ∧ (s.bumpTel i n).classCfg = s.classCfg ∧
    (s.bumpTel i n).portClass = s.portClass ∧ (s.bumpTel i n).queue = s.queue ∧ (s.bumpTel i n).chan = s.chan ∧
    (s.bumpTel i n).fifo = s.fifo ∧ (s.bumpTel i n).sliceSt = s.sliceSt ∧ (s.bumpTel i n).stack = s.stack ∧
    (s.bumpTel i n).mp = s.mp ∧ (s.bumpTel i n).mirrorOf = s.mirrorOf ∧ (s.bumpTel i n).peer = s.peer ∧
    (s.bumpTel i n).box = s.box ∧ (s.bumpTel i n).pkt = s.pkt ∧ (s.bumpTel i n).node = s.node ∧
    (s.bumpTel i n).policer = s.policer := by
  refine ⟨?_, ?_, ?_, ?_, ?_, ?_, ?_, ?_, ?_, ?_, ?_, ?_, ?_, ?_, ?_, ?_, ?_, ?_, ?_, ?_, ?_, ?_, ?_, ?_, ?_, ?_, ?_, ?_, ?_, ?_, ?_, ?_, ?_, ?_, ?_, ?_, ?_, ?_, ?_, ?_, ?_, ?_, ?_, ?_, ?_, ?_, ?_, ?_, ?_, ?_, ?_, ?_, ?_, ?_, ?_, ?_, ?_, ?_, ?_, ?_, ?_, ?_, ?_, ?_, ?_, ?_, ?_, ?_, ?_, ?_, ?_, ?_⟩ <;> rfl

@[simp] theorem State.bumpMir_rest (s : State) (p i n : Nat) :
    (s.bumpMir p i n).time = s.time ∧ (s.bumpMir p i n).up = s.up ∧ (s.bumpMir p i n).ptp = s.ptp ∧
    (s.bumpMir p i n).tsFifos = s.tsFifos ∧ (s.bumpMir p i n).gates = s.gates ∧ (s.bumpMir p i n).lanes = s.lanes ∧
    (s.bumpMir p i n).groups = s.groups ∧ (s.bumpMir p i n).ports = s.ports ∧ (s.bumpMir p i n).prism = s.prism ∧
    (s.bumpMir p i n).fwd = s.fwd ∧ (s.bumpMir p i n).buf = s.buf ∧ (s.bumpMir p i n).pkts = s.pkts ∧
    (s.bumpMir p i n).nextPkt = s.nextPkt ∧ (s.bumpMir p i n).fab = s.fab ∧ (s.bumpMir p i n).sched = s.sched ∧
    (s.bumpMir p i n).frer = s.frer ∧ (s.bumpMir p i n).leaven = s.leaven ∧ (s.bumpMir p i n).proof = s.proof ∧
    (s.bumpMir p i n).evt = s.evt ∧ (s.bumpMir p i n).swp = s.swp ∧ (s.bumpMir p i n).mbx = s.mbx ∧
    (s.bumpMir p i n).bake = s.bake ∧ (s.bumpMir p i n).ident = s.ident ∧ (s.bumpMir p i n).pwr = s.pwr ∧
    (s.bumpMir p i n).host = s.host ∧ (s.bumpMir p i n).out = s.out ∧ (s.bumpMir p i n).free = s.free ∧
    (s.bumpMir p i n).pending = s.pending ∧ (s.bumpMir p i n).tel.mirrors = s.tel.mirrors ∧
    (s.bumpMir p i n).tel.cand = s.tel.cand ∧ (s.bumpMir p i n).tel.mirQ = s.tel.mirQ ∧
    (s.bumpMir p i n).tel.ctr = s.tel.ctr ∧ (s.bumpMir p i n).tel.drops = s.tel.drops ∧
    (s.bumpMir p i n).tel.portCtr = s.tel.portCtr ∧ (s.bumpMir p i n).tel.prismCtr = s.tel.prismCtr ∧
    (s.bumpMir p i n).tel.timeCtr = s.tel.timeCtr ∧ (s.bumpMir p i n).tel.redCtr = s.tel.redCtr ∧
    (s.bumpMir p i n).tel.frerCtr = s.tel.frerCtr ∧ (s.bumpMir p i n).tel.mbxCtr = s.tel.mbxCtr ∧
    (s.bumpMir p i n).tel.pwrCtr = s.tel.pwrCtr ∧ (s.bumpMir p i n).tel.rate = s.tel.rate ∧
    (s.bumpMir p i n).port = s.port ∧ (s.bumpMir p i n).lane = s.lane ∧ (s.bumpMir p i n).group = s.group ∧
    (s.bumpMir p i n).gate = s.gate ∧ (s.bumpMir p i n).tsFifo = s.tsFifo ∧ (s.bumpMir p i n).stream = s.stream ∧
    (s.bumpMir p i n).cluster = s.cluster ∧ (s.bumpMir p i n).fix = s.fix ∧ (s.bumpMir p i n).flow = s.flow ∧
    (s.bumpMir p i n).target = s.target ∧ (s.bumpMir p i n).drop = s.drop ∧ (s.bumpMir p i n).bus = s.bus ∧
    (s.bumpMir p i n).pclass = s.pclass ∧ (s.bumpMir p i n).plane = s.plane ∧ (s.bumpMir p i n).pair = s.pair ∧
    (s.bumpMir p i n).voq = s.voq ∧ (s.bumpMir p i n).fabPort = s.fabPort ∧ (s.bumpMir p i n).classCfg = s.classCfg ∧
    (s.bumpMir p i n).portClass = s.portClass ∧ (s.bumpMir p i n).queue = s.queue ∧ (s.bumpMir p i n).chan = s.chan ∧
    (s.bumpMir p i n).fifo = s.fifo ∧ (s.bumpMir p i n).sliceSt = s.sliceSt ∧ (s.bumpMir p i n).stack = s.stack ∧
    (s.bumpMir p i n).mp = s.mp ∧ (s.bumpMir p i n).mirrorOf = s.mirrorOf ∧ (s.bumpMir p i n).peer = s.peer ∧
    (s.bumpMir p i n).box = s.box ∧ (s.bumpMir p i n).pkt = s.pkt ∧ (s.bumpMir p i n).node = s.node ∧
    (s.bumpMir p i n).policer = s.policer := by
  refine ⟨?_, ?_, ?_, ?_, ?_, ?_, ?_, ?_, ?_, ?_, ?_, ?_, ?_, ?_, ?_, ?_, ?_, ?_, ?_, ?_, ?_, ?_, ?_, ?_, ?_, ?_, ?_, ?_, ?_, ?_, ?_, ?_, ?_, ?_, ?_, ?_, ?_, ?_, ?_, ?_, ?_, ?_, ?_, ?_, ?_, ?_, ?_, ?_, ?_, ?_, ?_, ?_, ?_, ?_, ?_, ?_, ?_, ?_, ?_, ?_, ?_, ?_, ?_, ?_, ?_, ?_, ?_, ?_, ?_, ?_, ?_, ?_⟩ <;> rfl

@[simp] theorem State.bumpDrop_rest (s : State) (p i : Nat) :
    (s.bumpDrop p i).time = s.time ∧ (s.bumpDrop p i).up = s.up ∧ (s.bumpDrop p i).ptp = s.ptp ∧
    (s.bumpDrop p i).tsFifos = s.tsFifos ∧ (s.bumpDrop p i).gates = s.gates ∧ (s.bumpDrop p i).lanes = s.lanes ∧
    (s.bumpDrop p i).groups = s.groups ∧ (s.bumpDrop p i).ports = s.ports ∧ (s.bumpDrop p i).prism = s.prism ∧
    (s.bumpDrop p i).fwd = s.fwd ∧ (s.bumpDrop p i).buf = s.buf ∧ (s.bumpDrop p i).pkts = s.pkts ∧
    (s.bumpDrop p i).nextPkt = s.nextPkt ∧ (s.bumpDrop p i).fab = s.fab ∧ (s.bumpDrop p i).sched = s.sched ∧
    (s.bumpDrop p i).frer = s.frer ∧ (s.bumpDrop p i).leaven = s.leaven ∧ (s.bumpDrop p i).proof = s.proof ∧
    (s.bumpDrop p i).evt = s.evt ∧ (s.bumpDrop p i).swp = s.swp ∧ (s.bumpDrop p i).mbx = s.mbx ∧
    (s.bumpDrop p i).bake = s.bake ∧ (s.bumpDrop p i).ident = s.ident ∧ (s.bumpDrop p i).pwr = s.pwr ∧
    (s.bumpDrop p i).host = s.host ∧ (s.bumpDrop p i).out = s.out ∧ (s.bumpDrop p i).free = s.free ∧
    (s.bumpDrop p i).pending = s.pending ∧ (s.bumpDrop p i).tel.mirrors = s.tel.mirrors ∧
    (s.bumpDrop p i).tel.cand = s.tel.cand ∧ (s.bumpDrop p i).tel.mirQ = s.tel.mirQ ∧
    (s.bumpDrop p i).tel.mirCtr = s.tel.mirCtr ∧ (s.bumpDrop p i).tel.ctr = s.tel.ctr ∧
    (s.bumpDrop p i).tel.portCtr = s.tel.portCtr ∧ (s.bumpDrop p i).tel.prismCtr = s.tel.prismCtr ∧
    (s.bumpDrop p i).tel.timeCtr = s.tel.timeCtr ∧ (s.bumpDrop p i).tel.redCtr = s.tel.redCtr ∧
    (s.bumpDrop p i).tel.frerCtr = s.tel.frerCtr ∧ (s.bumpDrop p i).tel.mbxCtr = s.tel.mbxCtr ∧
    (s.bumpDrop p i).tel.pwrCtr = s.tel.pwrCtr ∧ (s.bumpDrop p i).tel.rate = s.tel.rate ∧
    (s.bumpDrop p i).port = s.port ∧ (s.bumpDrop p i).lane = s.lane ∧ (s.bumpDrop p i).group = s.group ∧
    (s.bumpDrop p i).gate = s.gate ∧ (s.bumpDrop p i).tsFifo = s.tsFifo ∧ (s.bumpDrop p i).stream = s.stream ∧
    (s.bumpDrop p i).cluster = s.cluster ∧ (s.bumpDrop p i).fix = s.fix ∧ (s.bumpDrop p i).flow = s.flow ∧
    (s.bumpDrop p i).target = s.target ∧ (s.bumpDrop p i).drop = s.drop ∧ (s.bumpDrop p i).bus = s.bus ∧
    (s.bumpDrop p i).pclass = s.pclass ∧ (s.bumpDrop p i).plane = s.plane ∧ (s.bumpDrop p i).pair = s.pair ∧
    (s.bumpDrop p i).voq = s.voq ∧ (s.bumpDrop p i).fabPort = s.fabPort ∧ (s.bumpDrop p i).classCfg = s.classCfg ∧
    (s.bumpDrop p i).portClass = s.portClass ∧ (s.bumpDrop p i).queue = s.queue ∧ (s.bumpDrop p i).chan = s.chan ∧
    (s.bumpDrop p i).fifo = s.fifo ∧ (s.bumpDrop p i).sliceSt = s.sliceSt ∧ (s.bumpDrop p i).stack = s.stack ∧
    (s.bumpDrop p i).mp = s.mp ∧ (s.bumpDrop p i).mirrorOf = s.mirrorOf ∧ (s.bumpDrop p i).peer = s.peer ∧
    (s.bumpDrop p i).box = s.box ∧ (s.bumpDrop p i).pkt = s.pkt ∧ (s.bumpDrop p i).node = s.node ∧
    (s.bumpDrop p i).policer = s.policer := by
  refine ⟨?_, ?_, ?_, ?_, ?_, ?_, ?_, ?_, ?_, ?_, ?_, ?_, ?_, ?_, ?_, ?_, ?_, ?_, ?_, ?_, ?_, ?_, ?_, ?_, ?_, ?_, ?_, ?_, ?_, ?_, ?_, ?_, ?_, ?_, ?_, ?_, ?_, ?_, ?_, ?_, ?_, ?_, ?_, ?_, ?_, ?_, ?_, ?_, ?_, ?_, ?_, ?_, ?_, ?_, ?_, ?_, ?_, ?_, ?_, ?_, ?_, ?_, ?_, ?_, ?_, ?_, ?_, ?_, ?_, ?_, ?_, ?_⟩ <;> rfl

@[simp] theorem State.emit_rest (s : State) (o : Output) :
    (s.emit o).time = s.time ∧ (s.emit o).up = s.up ∧ (s.emit o).ptp = s.ptp ∧ (s.emit o).tsFifos = s.tsFifos ∧
    (s.emit o).gates = s.gates ∧ (s.emit o).lanes = s.lanes ∧ (s.emit o).groups = s.groups ∧ (s.emit o).ports = s.ports ∧
    (s.emit o).prism = s.prism ∧ (s.emit o).fwd = s.fwd ∧ (s.emit o).buf = s.buf ∧ (s.emit o).pkts = s.pkts ∧
    (s.emit o).nextPkt = s.nextPkt ∧ (s.emit o).fab = s.fab ∧ (s.emit o).sched = s.sched ∧ (s.emit o).frer = s.frer ∧
    (s.emit o).leaven = s.leaven ∧ (s.emit o).proof = s.proof ∧ (s.emit o).evt = s.evt ∧ (s.emit o).swp = s.swp ∧
    (s.emit o).tel = s.tel ∧ (s.emit o).mbx = s.mbx ∧ (s.emit o).bake = s.bake ∧ (s.emit o).ident = s.ident ∧
    (s.emit o).pwr = s.pwr ∧ (s.emit o).host = s.host ∧ (s.emit o).free = s.free ∧ (s.emit o).pending = s.pending ∧
    (s.emit o).port = s.port ∧ (s.emit o).lane = s.lane ∧ (s.emit o).group = s.group ∧ (s.emit o).gate = s.gate ∧
    (s.emit o).tsFifo = s.tsFifo ∧ (s.emit o).stream = s.stream ∧ (s.emit o).cluster = s.cluster ∧
    (s.emit o).fix = s.fix ∧ (s.emit o).flow = s.flow ∧ (s.emit o).target = s.target ∧ (s.emit o).drop = s.drop ∧
    (s.emit o).bus = s.bus ∧ (s.emit o).pclass = s.pclass ∧ (s.emit o).plane = s.plane ∧ (s.emit o).pair = s.pair ∧
    (s.emit o).voq = s.voq ∧ (s.emit o).fabPort = s.fabPort ∧ (s.emit o).classCfg = s.classCfg ∧
    (s.emit o).portClass = s.portClass ∧ (s.emit o).queue = s.queue ∧ (s.emit o).chan = s.chan ∧
    (s.emit o).fifo = s.fifo ∧ (s.emit o).sliceSt = s.sliceSt ∧ (s.emit o).stack = s.stack ∧ (s.emit o).mp = s.mp ∧
    (s.emit o).mirrorOf = s.mirrorOf ∧ (s.emit o).peer = s.peer ∧ (s.emit o).box = s.box ∧ (s.emit o).pkt = s.pkt ∧
    (s.emit o).node = s.node ∧ (s.emit o).policer = s.policer := by
  refine ⟨?_, ?_, ?_, ?_, ?_, ?_, ?_, ?_, ?_, ?_, ?_, ?_, ?_, ?_, ?_, ?_, ?_, ?_, ?_, ?_, ?_, ?_, ?_, ?_, ?_, ?_, ?_, ?_, ?_, ?_, ?_, ?_, ?_, ?_, ?_, ?_, ?_, ?_, ?_, ?_, ?_, ?_, ?_, ?_, ?_, ?_, ?_, ?_, ?_, ?_, ?_, ?_, ?_, ?_, ?_, ?_, ?_, ?_, ?_⟩ <;> rfl

@[simp] theorem State.drawn_rest (s : State) (n : Nat) :
    (s.drawn n).time = s.time ∧ (s.drawn n).up = s.up ∧ (s.drawn n).ptp = s.ptp ∧ (s.drawn n).tsFifos = s.tsFifos ∧
    (s.drawn n).gates = s.gates ∧ (s.drawn n).lanes = s.lanes ∧ (s.drawn n).groups = s.groups ∧
    (s.drawn n).ports = s.ports ∧ (s.drawn n).prism = s.prism ∧ (s.drawn n).fwd = s.fwd ∧ (s.drawn n).buf = s.buf ∧
    (s.drawn n).pkts = s.pkts ∧ (s.drawn n).nextPkt = s.nextPkt ∧ (s.drawn n).fab = s.fab ∧ (s.drawn n).sched = s.sched ∧
    (s.drawn n).frer = s.frer ∧ (s.drawn n).leaven = s.leaven ∧ (s.drawn n).proof = s.proof ∧ (s.drawn n).evt = s.evt ∧
    (s.drawn n).swp = s.swp ∧ (s.drawn n).tel = s.tel ∧ (s.drawn n).mbx = s.mbx ∧ (s.drawn n).bake = s.bake ∧
    (s.drawn n).ident = s.ident ∧ (s.drawn n).pwr = s.pwr ∧ (s.drawn n).host = s.host ∧ (s.drawn n).out = s.out ∧
    (s.drawn n).pending = s.pending ∧ (s.drawn n).port = s.port ∧ (s.drawn n).lane = s.lane ∧
    (s.drawn n).group = s.group ∧ (s.drawn n).gate = s.gate ∧ (s.drawn n).tsFifo = s.tsFifo ∧
    (s.drawn n).stream = s.stream ∧ (s.drawn n).cluster = s.cluster ∧ (s.drawn n).fix = s.fix ∧
    (s.drawn n).flow = s.flow ∧ (s.drawn n).target = s.target ∧ (s.drawn n).drop = s.drop ∧ (s.drawn n).bus = s.bus ∧
    (s.drawn n).pclass = s.pclass ∧ (s.drawn n).plane = s.plane ∧ (s.drawn n).pair = s.pair ∧ (s.drawn n).voq = s.voq ∧
    (s.drawn n).fabPort = s.fabPort ∧ (s.drawn n).classCfg = s.classCfg ∧ (s.drawn n).portClass = s.portClass ∧
    (s.drawn n).queue = s.queue ∧ (s.drawn n).chan = s.chan ∧ (s.drawn n).fifo = s.fifo ∧
    (s.drawn n).sliceSt = s.sliceSt ∧ (s.drawn n).stack = s.stack ∧ (s.drawn n).mp = s.mp ∧
    (s.drawn n).mirrorOf = s.mirrorOf ∧ (s.drawn n).peer = s.peer ∧ (s.drawn n).box = s.box ∧ (s.drawn n).pkt = s.pkt ∧
    (s.drawn n).node = s.node ∧ (s.drawn n).policer = s.policer := by
  refine ⟨?_, ?_, ?_, ?_, ?_, ?_, ?_, ?_, ?_, ?_, ?_, ?_, ?_, ?_, ?_, ?_, ?_, ?_, ?_, ?_, ?_, ?_, ?_, ?_, ?_, ?_, ?_, ?_, ?_, ?_, ?_, ?_, ?_, ?_, ?_, ?_, ?_, ?_, ?_, ?_, ?_, ?_, ?_, ?_, ?_, ?_, ?_, ?_, ?_, ?_, ?_, ?_, ?_, ?_, ?_, ?_, ?_, ?_, ?_⟩ <;> rfl

@[simp] theorem State.emit_out (s : State) (o : Output) : (s.emit o).out = o :: s.out := rfl

@[simp] theorem State.drawn_free (s : State) (n : Nat) : (s.drawn n).free = s.free + n := rfl

theorem HostSt.setPendingIf_rest (h : HostSt) (b x8 : Bool) (n : Nat) :
    (h.setPendingIf b x8 n).1.mapVec = h.mapVec ∧ (h.setPendingIf b x8 n).1.mapEn = h.mapEn ∧
    (h.setPendingIf b x8 n).1.msix = h.msix ∧ (h.setPendingIf b x8 n).1.chans = h.chans ∧
    (h.setPendingIf b x8 n).1.fifos = h.fifos ∧ (h.setPendingIf b x8 n).1.waitFetch = h.waitFetch ∧
    (h.setPendingIf b x8 n).1.staging = h.staging := by
  unfold HostSt.setPendingIf HostSt.setPending HostSt.signal HostSt.signalVector
  dsimp only
  repeat' split
  all_goals exact ⟨rfl, rfl, rfl, rfl, rfl, rfl, rfl⟩

@[simp] theorem State.raise_rest (s : State) (c v : Nat) (a : List Byte) :
    (s.raise c v a).time = s.time ∧ (s.raise c v a).up = s.up ∧ (s.raise c v a).ptp = s.ptp ∧
    (s.raise c v a).tsFifos = s.tsFifos ∧ (s.raise c v a).gates = s.gates ∧ (s.raise c v a).lanes = s.lanes ∧
    (s.raise c v a).groups = s.groups ∧ (s.raise c v a).ports = s.ports ∧ (s.raise c v a).prism = s.prism ∧
    (s.raise c v a).fwd = s.fwd ∧ (s.raise c v a).buf = s.buf ∧ (s.raise c v a).pkts = s.pkts ∧
    (s.raise c v a).nextPkt = s.nextPkt ∧ (s.raise c v a).fab = s.fab ∧ (s.raise c v a).sched = s.sched ∧
    (s.raise c v a).frer = s.frer ∧ (s.raise c v a).leaven = s.leaven ∧ (s.raise c v a).proof = s.proof ∧
    (s.raise c v a).swp = s.swp ∧ (s.raise c v a).mbx = s.mbx ∧ (s.raise c v a).bake = s.bake ∧
    (s.raise c v a).ident = s.ident ∧ (s.raise c v a).pwr = s.pwr ∧ (s.raise c v a).free = s.free ∧
    (s.raise c v a).pending = s.pending ∧ (s.raise c v a).tel.mirrors = s.tel.mirrors ∧
    (s.raise c v a).tel.cand = s.tel.cand ∧ (s.raise c v a).tel.mirQ = s.tel.mirQ ∧
    (s.raise c v a).tel.mirCtr = s.tel.mirCtr ∧ (s.raise c v a).tel.drops = s.tel.drops ∧
    (s.raise c v a).tel.portCtr = s.tel.portCtr ∧ (s.raise c v a).tel.prismCtr = s.tel.prismCtr ∧
    (s.raise c v a).tel.timeCtr = s.tel.timeCtr ∧ (s.raise c v a).tel.redCtr = s.tel.redCtr ∧
    (s.raise c v a).tel.frerCtr = s.tel.frerCtr ∧ (s.raise c v a).tel.mbxCtr = s.tel.mbxCtr ∧
    (s.raise c v a).tel.pwrCtr = s.tel.pwrCtr ∧ (s.raise c v a).host.mapVec = s.host.mapVec ∧
    (s.raise c v a).host.mapEn = s.host.mapEn ∧ (s.raise c v a).host.msix = s.host.msix ∧
    (s.raise c v a).host.chans = s.host.chans ∧ (s.raise c v a).host.fifos = s.host.fifos ∧
    (s.raise c v a).host.waitFetch = s.host.waitFetch ∧ (s.raise c v a).host.staging = s.host.staging ∧
    (s.raise c v a).port = s.port ∧ (s.raise c v a).lane = s.lane ∧ (s.raise c v a).group = s.group ∧
    (s.raise c v a).gate = s.gate ∧ (s.raise c v a).tsFifo = s.tsFifo ∧ (s.raise c v a).stream = s.stream ∧
    (s.raise c v a).cluster = s.cluster ∧ (s.raise c v a).fix = s.fix ∧ (s.raise c v a).flow = s.flow ∧
    (s.raise c v a).target = s.target ∧ (s.raise c v a).drop = s.drop ∧ (s.raise c v a).bus = s.bus ∧
    (s.raise c v a).pclass = s.pclass ∧ (s.raise c v a).plane = s.plane ∧ (s.raise c v a).pair = s.pair ∧
    (s.raise c v a).voq = s.voq ∧ (s.raise c v a).fabPort = s.fabPort ∧ (s.raise c v a).classCfg = s.classCfg ∧
    (s.raise c v a).portClass = s.portClass ∧ (s.raise c v a).queue = s.queue ∧ (s.raise c v a).chan = s.chan ∧
    (s.raise c v a).fifo = s.fifo ∧ (s.raise c v a).sliceSt = s.sliceSt ∧ (s.raise c v a).stack = s.stack ∧
    (s.raise c v a).mp = s.mp ∧ (s.raise c v a).mirrorOf = s.mirrorOf ∧ (s.raise c v a).peer = s.peer ∧
    (s.raise c v a).box = s.box ∧ (s.raise c v a).pkt = s.pkt ∧ (s.raise c v a).node = s.node ∧
    (s.raise c v a).policer = s.policer := by
  have h := HostSt.setPendingIf_rest s.host (s.evt.log
    { code := c, sev := v, seq := s.evt.nextSeq, sec := s.time.sec, ns := s.time.ns, args := a }).moved s.ident.bifurcated 176
  exact ⟨rfl, rfl, rfl, rfl, rfl, rfl, rfl, rfl, rfl, rfl, rfl, rfl, rfl, rfl, rfl, rfl, rfl, rfl, rfl, rfl, rfl, rfl, rfl, rfl, rfl, rfl, rfl, rfl, rfl, rfl, rfl, rfl, rfl, rfl, rfl, rfl, rfl, h.1, h.2.1, h.2.2.1, h.2.2.2.1, h.2.2.2.2.1, h.2.2.2.2.2.1, h.2.2.2.2.2.2, rfl, rfl, rfl, rfl, rfl, rfl, rfl, rfl, rfl, rfl, rfl, rfl, rfl, rfl, rfl, rfl, rfl, rfl, rfl, rfl, funext fun n => congrArg (fun c => Tab.get Chan.init c n) h.2.2.2.1, funext fun n => congrArg (fun c => Tab.get HFifo.init c n) h.2.2.2.2.1, rfl, rfl, rfl, rfl, rfl, rfl, rfl, rfl, rfl⟩

@[simp] theorem State.raiseLimited_rest (s : State) (c v i p : Nat) (a : List Byte) :
    (s.raiseLimited c v i p a).time = s.time ∧ (s.raiseLimited c v i p a).up = s.up ∧
    (s.raiseLimited c v i p a).ptp = s.ptp ∧ (s.raiseLimited c v i p a).tsFifos = s.tsFifos ∧
    (s.raiseLimited c v i p a).gates = s.gates ∧ (s.raiseLimited c v i p a).lanes = s.lanes ∧
    (s.raiseLimited c v i p a).groups = s.groups ∧ (s.raiseLimited c v i p a).ports = s.ports ∧
    (s.raiseLimited c v i p a).prism = s.prism ∧ (s.raiseLimited c v i p a).fwd = s.fwd ∧
    (s.raiseLimited c v i p a).buf = s.buf ∧ (s.raiseLimited c v i p a).pkts = s.pkts ∧
    (s.raiseLimited c v i p a).nextPkt = s.nextPkt ∧ (s.raiseLimited c v i p a).fab = s.fab ∧
    (s.raiseLimited c v i p a).sched = s.sched ∧ (s.raiseLimited c v i p a).frer = s.frer ∧
    (s.raiseLimited c v i p a).leaven = s.leaven ∧ (s.raiseLimited c v i p a).proof = s.proof ∧
    (s.raiseLimited c v i p a).swp = s.swp ∧ (s.raiseLimited c v i p a).mbx = s.mbx ∧
    (s.raiseLimited c v i p a).bake = s.bake ∧ (s.raiseLimited c v i p a).ident = s.ident ∧
    (s.raiseLimited c v i p a).pwr = s.pwr ∧ (s.raiseLimited c v i p a).free = s.free ∧
    (s.raiseLimited c v i p a).pending = s.pending ∧ (s.raiseLimited c v i p a).tel.mirrors = s.tel.mirrors ∧
    (s.raiseLimited c v i p a).tel.cand = s.tel.cand ∧ (s.raiseLimited c v i p a).tel.mirQ = s.tel.mirQ ∧
    (s.raiseLimited c v i p a).tel.mirCtr = s.tel.mirCtr ∧ (s.raiseLimited c v i p a).tel.drops = s.tel.drops ∧
    (s.raiseLimited c v i p a).tel.portCtr = s.tel.portCtr ∧ (s.raiseLimited c v i p a).tel.prismCtr = s.tel.prismCtr ∧
    (s.raiseLimited c v i p a).tel.timeCtr = s.tel.timeCtr ∧ (s.raiseLimited c v i p a).tel.redCtr = s.tel.redCtr ∧
    (s.raiseLimited c v i p a).tel.frerCtr = s.tel.frerCtr ∧ (s.raiseLimited c v i p a).tel.mbxCtr = s.tel.mbxCtr ∧
    (s.raiseLimited c v i p a).tel.pwrCtr = s.tel.pwrCtr ∧ (s.raiseLimited c v i p a).host.mapVec = s.host.mapVec ∧
    (s.raiseLimited c v i p a).host.mapEn = s.host.mapEn ∧ (s.raiseLimited c v i p a).host.msix = s.host.msix ∧
    (s.raiseLimited c v i p a).host.chans = s.host.chans ∧ (s.raiseLimited c v i p a).host.fifos = s.host.fifos ∧
    (s.raiseLimited c v i p a).host.waitFetch = s.host.waitFetch ∧
    (s.raiseLimited c v i p a).host.staging = s.host.staging ∧ (s.raiseLimited c v i p a).port = s.port ∧
    (s.raiseLimited c v i p a).lane = s.lane ∧ (s.raiseLimited c v i p a).group = s.group ∧
    (s.raiseLimited c v i p a).gate = s.gate ∧ (s.raiseLimited c v i p a).tsFifo = s.tsFifo ∧
    (s.raiseLimited c v i p a).stream = s.stream ∧ (s.raiseLimited c v i p a).cluster = s.cluster ∧
    (s.raiseLimited c v i p a).fix = s.fix ∧ (s.raiseLimited c v i p a).flow = s.flow ∧
    (s.raiseLimited c v i p a).target = s.target ∧ (s.raiseLimited c v i p a).drop = s.drop ∧
    (s.raiseLimited c v i p a).bus = s.bus ∧ (s.raiseLimited c v i p a).pclass = s.pclass ∧
    (s.raiseLimited c v i p a).plane = s.plane ∧ (s.raiseLimited c v i p a).pair = s.pair ∧
    (s.raiseLimited c v i p a).voq = s.voq ∧ (s.raiseLimited c v i p a).fabPort = s.fabPort ∧
    (s.raiseLimited c v i p a).classCfg = s.classCfg ∧ (s.raiseLimited c v i p a).portClass = s.portClass ∧
    (s.raiseLimited c v i p a).queue = s.queue ∧ (s.raiseLimited c v i p a).chan = s.chan ∧
    (s.raiseLimited c v i p a).fifo = s.fifo ∧ (s.raiseLimited c v i p a).sliceSt = s.sliceSt ∧
    (s.raiseLimited c v i p a).stack = s.stack ∧ (s.raiseLimited c v i p a).mp = s.mp ∧
    (s.raiseLimited c v i p a).mirrorOf = s.mirrorOf ∧ (s.raiseLimited c v i p a).peer = s.peer ∧
    (s.raiseLimited c v i p a).box = s.box ∧ (s.raiseLimited c v i p a).pkt = s.pkt ∧
    (s.raiseLimited c v i p a).node = s.node ∧ (s.raiseLimited c v i p a).policer = s.policer := by
  unfold State.raiseLimited
  dsimp only
  split
  · exact State.raise_rest s c v a
  · simp only [and_self]

@[simp] theorem State.raiseIf_rest (s : State) (b : Bool) (c v : Nat) (a : List Byte) :
    (s.raiseIf b c v a).time = s.time ∧ (s.raiseIf b c v a).up = s.up ∧ (s.raiseIf b c v a).ptp = s.ptp ∧
    (s.raiseIf b c v a).tsFifos = s.tsFifos ∧ (s.raiseIf b c v a).gates = s.gates ∧ (s.raiseIf b c v a).lanes = s.lanes ∧
    (s.raiseIf b c v a).groups = s.groups ∧ (s.raiseIf b c v a).ports = s.ports ∧ (s.raiseIf b c v a).prism = s.prism ∧
    (s.raiseIf b c v a).fwd = s.fwd ∧ (s.raiseIf b c v a).buf = s.buf ∧ (s.raiseIf b c v a).pkts = s.pkts ∧
    (s.raiseIf b c v a).nextPkt = s.nextPkt ∧ (s.raiseIf b c v a).fab = s.fab ∧ (s.raiseIf b c v a).sched = s.sched ∧
    (s.raiseIf b c v a).frer = s.frer ∧ (s.raiseIf b c v a).leaven = s.leaven ∧ (s.raiseIf b c v a).proof = s.proof ∧
    (s.raiseIf b c v a).swp = s.swp ∧ (s.raiseIf b c v a).mbx = s.mbx ∧ (s.raiseIf b c v a).bake = s.bake ∧
    (s.raiseIf b c v a).ident = s.ident ∧ (s.raiseIf b c v a).pwr = s.pwr ∧ (s.raiseIf b c v a).free = s.free ∧
    (s.raiseIf b c v a).pending = s.pending ∧ (s.raiseIf b c v a).tel.mirrors = s.tel.mirrors ∧
    (s.raiseIf b c v a).tel.cand = s.tel.cand ∧ (s.raiseIf b c v a).tel.mirQ = s.tel.mirQ ∧
    (s.raiseIf b c v a).tel.mirCtr = s.tel.mirCtr ∧ (s.raiseIf b c v a).tel.drops = s.tel.drops ∧
    (s.raiseIf b c v a).tel.portCtr = s.tel.portCtr ∧ (s.raiseIf b c v a).tel.prismCtr = s.tel.prismCtr ∧
    (s.raiseIf b c v a).tel.timeCtr = s.tel.timeCtr ∧ (s.raiseIf b c v a).tel.redCtr = s.tel.redCtr ∧
    (s.raiseIf b c v a).tel.frerCtr = s.tel.frerCtr ∧ (s.raiseIf b c v a).tel.mbxCtr = s.tel.mbxCtr ∧
    (s.raiseIf b c v a).tel.pwrCtr = s.tel.pwrCtr ∧ (s.raiseIf b c v a).host.mapVec = s.host.mapVec ∧
    (s.raiseIf b c v a).host.mapEn = s.host.mapEn ∧ (s.raiseIf b c v a).host.msix = s.host.msix ∧
    (s.raiseIf b c v a).host.chans = s.host.chans ∧ (s.raiseIf b c v a).host.fifos = s.host.fifos ∧
    (s.raiseIf b c v a).host.waitFetch = s.host.waitFetch ∧ (s.raiseIf b c v a).host.staging = s.host.staging ∧
    (s.raiseIf b c v a).port = s.port ∧ (s.raiseIf b c v a).lane = s.lane ∧ (s.raiseIf b c v a).group = s.group ∧
    (s.raiseIf b c v a).gate = s.gate ∧ (s.raiseIf b c v a).tsFifo = s.tsFifo ∧ (s.raiseIf b c v a).stream = s.stream ∧
    (s.raiseIf b c v a).cluster = s.cluster ∧ (s.raiseIf b c v a).fix = s.fix ∧ (s.raiseIf b c v a).flow = s.flow ∧
    (s.raiseIf b c v a).target = s.target ∧ (s.raiseIf b c v a).drop = s.drop ∧ (s.raiseIf b c v a).bus = s.bus ∧
    (s.raiseIf b c v a).pclass = s.pclass ∧ (s.raiseIf b c v a).plane = s.plane ∧ (s.raiseIf b c v a).pair = s.pair ∧
    (s.raiseIf b c v a).voq = s.voq ∧ (s.raiseIf b c v a).fabPort = s.fabPort ∧
    (s.raiseIf b c v a).classCfg = s.classCfg ∧ (s.raiseIf b c v a).portClass = s.portClass ∧
    (s.raiseIf b c v a).queue = s.queue ∧ (s.raiseIf b c v a).chan = s.chan ∧ (s.raiseIf b c v a).fifo = s.fifo ∧
    (s.raiseIf b c v a).sliceSt = s.sliceSt ∧ (s.raiseIf b c v a).stack = s.stack ∧ (s.raiseIf b c v a).mp = s.mp ∧
    (s.raiseIf b c v a).mirrorOf = s.mirrorOf ∧ (s.raiseIf b c v a).peer = s.peer ∧ (s.raiseIf b c v a).box = s.box ∧
    (s.raiseIf b c v a).pkt = s.pkt ∧ (s.raiseIf b c v a).node = s.node ∧ (s.raiseIf b c v a).policer = s.policer := by
  unfold State.raiseIf
  split
  · exact State.raise_rest s c v a
  · simp only [and_self]

end Sys2Proof.Machine
end

