-- ==== Sys2Proof/Machine/Pins.lean ====
section
/-! DEFINITION. The pins: their levels, the balls they lie at, the supplies that the power monitor watches, the coolant rule and
the ordering codes (R507, R509, R510, R512, R514 to R518, R520, R522). -/

namespace Sys2Proof.Machine

/-! ### Supplies (R507, R509, R510) -/

/-- The supply rails. -/
inductive Rail where
  | core | sram | serdes | driver | hbmPhy | hbmCore | hbmPump | pll | io18 | io33
deriving DecidableEq, Repr

/-- Nominal voltage in mV. -/
def Rail.nominal : Rail → Nat
  | .core => 750
  | .sram => 850
  | .serdes => 800
  | .driver => 1200
  | .hbmPhy => 750
  | .hbmCore => 1050
  | .hbmPump => 1800
  | .pll => 1200
  | .io18 => 1800
  | .io33 => 3300

/-- Tolerance in percent. -/
def Rail.tolerance : Rail → Nat
  | .hbmPump | .io18 | .io33 => 5
  | _ => 3

/-- Maximum power in W. -/
def Rail.watts : Rail → Nat
  | .core => 491
  | .sram => 60
  | .serdes => 200
  | .driver => 56
  | .hbmPhy => 20
  | .hbmCore => 48
  | .hbmPump => 12
  | .pll => 3
  | .io18 => 6
  | .io33 => 4

/-- The step of the sequence in which the rail rises. -/
def Rail.step : Rail → Nat
  | .hbmPump => 1
  | .io33 | .io18 => 2
  | .core | .sram | .hbmPhy | .serdes | .pll => 3
  | .driver | .hbmCore => 4

/-- `mv` lies within the rail's tolerance. -/
def Rail.valid (r : Rail) (mv : Nat) : Bool :=
  decide (r.nominal * (100 - r.tolerance) ≤ 100 * mv) && decide (100 * mv ≤ r.nominal * (100 + r.tolerance))

/-- The power monitor acts on the rail at `mv`: VDD_CORE below 650 mV, another rail below 90 % of its nominal voltage. -/
def Rail.fails (r : Rail) (mv : Nat) : Bool :=
  match r with
  | .core => decide (mv < 650)
  | _ => decide (10 * mv < 9 * r.nominal)

/-! ### The low-speed pins (R512, R517) -/

/-- The low-speed signals; vectors carry their index. -/
inductive Pin where
  | porstN | wrstN | perstN | thermTripN | role (i : Nat)
  | smbScl | smbSda | smbAlertN | uartTxd | uartRxd
  | tck | tms | tdi | tdo | trstN
  | qspiClk | qspiCsN | qspiIo (i : Nat)
  | ppsIn | ppsOut
  | gpio (i : Nat)
  | shlTx (b : Nat) | shlRx (b : Nat) | shlDe (b : Nat)
deriving DecidableEq, Repr

/-- The signals in the order of R517's list. -/
def lowPins : List Pin :=
  [.porstN, .wrstN, .perstN, .thermTripN, .role 0, .role 1, .smbScl, .smbSda, .smbAlertN, .uartTxd, .uartRxd, .tck, .tms, .tdi,
   .tdo, .trstN, .qspiClk, .qspiCsN] ++ (List.range 4).map Pin.qspiIo ++ [.ppsIn, .ppsOut] ++ (List.range 16).map Pin.gpio
    ++ (List.range 4).flatMap (fun b => [.shlTx b, .shlRx b, .shlDe b])

/-- What the device drives on a pin while its supplies are valid: none where it drives nothing, as on an input, a released open
drain or a pin whose level the spec gives no rule for beside its protocol (R514, R515). -/
def State.powered (s : State) : Pin → Option Bool
  | .shlDe b => some (!s.pwr.inReset && (s.bus b).de)
  | .shlTx b => some (s.pwr.inReset || (s.bus b).tx)
  | .ppsOut => some (!s.pwr.inReset && s.time.ppsOut)
  | .thermTripN => if s.thermTripN then none else some false
  | .gpio i => s.gpio i
  | _ => none

/-- What the device drives on a pin: without its supplies nothing, every pin high impedance or released (R515; log entry 114). -/
def State.drives (s : State) (p : Pin) : Option Bool := if s.pwr.supplies then s.powered p else none

/-! ### The high-speed transmitters (R489, R515) -/

/-- The transmit pairs of the SerDes. -/
inductive Transmitter where
  | lane (n : Nat)
  | pcie (k : Nat)
  | mgmt
deriving DecidableEq, Repr

/-- What a transmitter does; `running`: it is on, as its protocol has it. -/
inductive TxLevel where
  | noOutput | electricalIdle | off | running
deriving DecidableEq, Repr

/-- The function that PCIe lane `k` belongs to (R342). -/
def State.pcieFn (s : State) (k : Nat) : Nat := if s.ident.bifurcated ∧ 8 ≤ k then 1 else 0

/-- What a transmitter does: no output without supplies, electrical idle in reset; a lane of mode 0x00 is off, as is every lane
while no image runs (R37, R445). -/
def State.transmits (s : State) (t : Transmitter) : TxLevel :=
  if s.pwr.supplies = false then .noOutput
  else if s.pwr.inReset then .electricalIdle
  else match t with
    | .lane n => if (s.lane n).mode = 0 ∨ s.ident.booted = false then .off else .running
    | .pcie k => if (s.host.link (s.pcieFn k)).up then .running else .electricalIdle
    | .mgmt => .running

/-! ### The test access port (R4, R447, R512) -/

/-- The state that a rising edge of TCK leads to, by the level of TMS (IEEE 1149.1; log entry 107). -/
def TapState.next (tms : Bool) : TapState → TapState
  | .testLogicReset => if tms then .testLogicReset else .runTest
  | .runTest => if tms then .selectDr else .runTest
  | .selectDr => if tms then .selectIr else .captureDr
  | .captureDr => if tms then .exit1Dr else .shiftDr
  | .shiftDr => if tms then .exit1Dr else .shiftDr
  | .exit1Dr => if tms then .updateDr else .pauseDr
  | .pauseDr => if tms then .exit2Dr else .pauseDr
  | .exit2Dr => if tms then .updateDr else .shiftDr
  | .updateDr => if tms then .selectDr else .runTest
  | .selectIr => if tms then .testLogicReset else .captureIr
  | .captureIr => if tms then .exit1Ir else .shiftIr
  | .shiftIr => if tms then .exit1Ir else .shiftIr
  | .exit1Ir => if tms then .updateIr else .pauseIr
  | .pauseIr => if tms then .exit2Ir else .pauseIr
  | .exit2Ir => if tms then .updateIr else .shiftIr
  | .updateIr => if tms then .selectDr else .runTest

/-- The port after an edge of TCK: no command of the table is one, so it stays in Test-Logic-Reset (log entry 107). -/
def State.tapClock (s : State) (tms : Bool) : State := { s with pwr := { s.pwr with tap := s.pwr.tap.next tms } }

/-! ### Balls (R516 to R518) -/

/-- What a ball carries; `neg` marks the N ball of a pair. -/
inductive Ball where
  | vss
  | rail (r : Rail)
  | laneRx (lane : Nat) (neg : Bool)
  | laneTx (lane : Nat) (neg : Bool)
  | sdRefclk (slice : Nat) (neg : Bool)
  | pcieRx (k : Nat) (neg : Bool)
  | pcieTx (k : Nat) (neg : Bool)
  | pcieRefclk (neg : Bool)
  | refclk (neg : Bool)
  | mgmtRx (neg : Bool)
  | mgmtTx (neg : Bool)
  | low (p : Pin)
deriving DecidableEq, Repr

/-- Row and column of depth `i`, position `j` in the lane block of slice `n`. -/
def blockBall (n i j : Nat) : Nat × Nat :=
  let p := 24 * (n % 4) + j
  match n / 4 with
  | 0 => (1 + i, 1 + p)
  | 1 => (1 + p, 115 - i)
  | 2 => (115 - i, 115 - p)
  | _ => (115 - p, 1 + i)

/-- Balls of a lane's receive and transmit pairs. -/
def laneRxBall (lane : Nat) (neg : Bool) : Nat × Nat :=
  blockBall (lane / 32) (2 * (lane % 32 / 8)) (3 * (lane % 8) + 1 + b2n neg)
def laneTxBall (lane : Nat) (neg : Bool) : Nat × Nat :=
  blockBall (lane / 32) (8 + 2 * (lane % 32 / 8)) (3 * (lane % 8) + 1 + b2n neg)

/-- What depth `i`, position `j` of slice `n`'s lane block carries. -/
def blockUse (n i j : Nat) : Ball :=
  if i = 15 ∧ (j = 10 ∨ j = 11) then .sdRefclk n (j == 11)
  else if i % 2 = 1 ∨ j % 3 = 0 then .vss
  else
    let lane := 32 * n + 8 * (i / 2 % 4) + j / 3
    if i < 8 then .laneRx lane (j % 3 == 2) else .laneTx lane (j % 3 == 2)

/-- Depth and position of a ball outside the interior within side `t` of the package. -/
def sidePlace (t row col : Nat) : Nat × Nat :=
  match t with
  | 0 => (row - 1, col - 1)
  | 1 => (115 - col, row - 1)
  | 2 => (115 - row, 115 - col)
  | _ => (col - 1, 115 - row)

/-- A ball of the edge band: in the lane block of one side, else in a strip of VSS. -/
def edgeUse (row col : Nat) : Ball :=
  match (List.range 4).find? (fun t => let x := sidePlace t row col; decide (x.1 < 16) && decide (x.2 < 96)) with
  | some t => let x := sidePlace t row col; blockUse (4 * t + x.2 / 24) x.1 (x.2 % 24)
  | none => .vss

/-- The high-speed block. -/
def highUse (row col : Nat) : Ball :=
  let j := col - 41
  let k := j / 3
  let neg := j % 3 == 2
  if j % 3 = 0 then .vss
  else if row = 17 then .pcieRx k neg
  else if row = 19 then .pcieTx k neg
  else if row = 21 then
    match k with
    | 0 => .pcieRefclk neg
    | 1 => .refclk neg
    | 2 => .mgmtRx neg
    | 3 => .mgmtTx neg
    | _ => .vss
  else .vss

/-- The low-speed block. -/
def lowUse (row col : Nat) : Ball :=
  let j := col - 41
  let sig := fun n : Nat => match lowPins[n]? with
    | some p => if j % 2 = 0 then Ball.low p else .vss
    | none => .vss
  if row = 96 then sig (j / 2)
  else if row = 98 then sig (26 + j / 2)
  else if row = 99 then .rail (if col ≤ 60 then .io33 else if col ≤ 80 then .io18 else .pll)
  else .vss

/-- The rail of an odd ball of the interior, by its region. -/
def regionRail (row col : Nat) : Rail :=
  let ring := fun x : Nat => decide (x ≤ 22) || decide (94 ≤ x)
  let square := fun x : Nat => decide (x ≤ 42) || decide (74 ≤ x)
  if ring row || ring col then (if col % 3 = 0 then .driver else .serdes)
  else if square row && square col then
    (if row % 3 = 0 then .hbmPump else if row % 3 = 1 then .hbmPhy else .hbmCore)
  else if row % 5 = 0 then .sram
  else .core

/-- What the ball at a row and a column, each 1 to 115, carries. -/
def ballUse (row col : Nat) : Ball :=
  if row < 17 ∨ 99 < row ∨ col < 17 ∨ 99 < col then edgeUse row col
  else if row ≤ 22 ∧ 41 ≤ col ∧ col ≤ 88 then highUse row col
  else if 95 ≤ row ∧ 41 ≤ col ∧ col ≤ 92 then lowUse row col
  else if (row + col) % 2 = 0 then .vss
  else .rail (regionRail row col)

/-! ### Package and ordering (R520, R522) -/

/-- A cold plate of `micro` millionths of °C/W serves `watts` at a coolant temperature of `tc` °C. -/
def coldPlateServes (micro watts tc : Nat) : Bool := decide ((20000 + micro) * watts + 1000000 * tc ≤ 105 * 1000000)

/-- Ordering code by variant, stepping B1. -/
def orderingCode (variant : Nat) : Option String :=
  if variant = 1 then some "NL-7216-MA-B1" else if variant = 2 then some "NL-7216-WA-B1" else none

end Sys2Proof.Machine
end

