-- ==== Sys2Proof/Tests/Slice0.lean ====
section
/-! SUPPORT. Small tests: ill-formed operands are refused, no word spells a command, single steps; and for every statement
with hypotheses, states and operands that meet them. The expected values come from the rules of the spec that each comment
names; a witness shows only that hypotheses can be met. -/

set_option Elab.async false
set_option linter.all false

namespace Sys2Proof.Tests

open Sys2Proof Sys2Proof.Machine

/-! ### Well-formedness refuses each operand that names no unit, or breaks a bound of the spec -/

/-- A request with a payload, tag 0 and no flags. -/
def live (p : List Byte) : Req := Req.plain 0 p
/-- The same, ASYNC with tag 1. -/
def late (p : List Byte) : Req := { live p with async := true, tag := 1 }
/-- The same, staged into set 1. -/
def inSet (p : List Byte) : Req := { live p with stage := true, setId := 1 }
def zeros (n : Nat) : List Byte := List.replicate n 0
/-- A domain message of a type that needs no more than its body. -/
def dm (body : List Byte) : DomIn :=
  { port := 0, dst := 0, mac := 0, sender := 0, receiver := 0, keyEpoch := 1, seq := 1, fcsOk := true, raw := [], tags := [], id := 7, body }

/-- Each bound of a request (R385): mailbox number, u32 fields, and a payload as long as the header says. -/
theorem test_wf_request : (live [1, 2]).wf = true ∧ (Req.plain 32 []).wf = false ∧ ({ live [] with tag := 2 ^ 32 } : Req).wf = false
    ∧ ({ live [] with setId := 2 ^ 32 } : Req).wf = false ∧ ({ live [] with len := 2 ^ 32, readOk := false } : Req).wf = false
    ∧ ({ live [] with cap := 2 ^ 32 } : Req).wf = false ∧ ({ live [1] with len := 2 } : Req).wf = false := by decide +kernel

/-- Each bound of a domain message (R423). -/
theorem test_wf_domain_message : (dm []).wf = true ∧ ({ dm [] with port := 512 } : DomIn).wf = false
    ∧ ({ dm [] with mac := 2 ^ 48 } : DomIn).wf = false ∧ ({ dm [] with sender := 256 } : DomIn).wf = false
    ∧ ({ dm [] with dst := 2 ^ 48 } : DomIn).wf = false ∧ ({ dm [] with receiver := 256 } : DomIn).wf = false
    ∧ ({ dm [] with keyEpoch := 256 } : DomIn).wf = false
    ∧ ({ dm [] with id := 65536 } : DomIn).wf = false := by decide +kernel

/-- Every mailbox command refuses an ill-formed request and takes a well-formed one. -/
theorem test_wf_commands : mailboxCommands.all (fun c => !(c.2 (Req.plain 32 [])).wf && (c.2 (live [])).wf) = true
    ∧ (Instr.devRestart (Req.plain 32 [])).wf = false := by decide +kernel

/-- Every message row refuses an ill-formed message. -/
theorem test_wf_messages : ([.heartbeat, .heartbeatAck, .received, .forwardReq, .forwardRsp, .prepare, .vote, .commit, .ack, .go,
    .abort, .outcomeQuery, .outcome, fun m => .enrol m 0 [] ⟨true, [], true⟩] : List (DomIn → Instr)).all
      (fun i => !(i { dm [] with port := 512 }).wf && (i (dm [])).wf) = true
    ∧ (Instr.enrol (dm []) 256 [] ⟨true, [], true⟩).wf = false := by decide +kernel

/-- Rows of the host interface (R342, R345, R368, R381). -/
theorem test_wf_host_rows : ([.mbxDoorbell 32 none, .mbxRelease 32, .mbxAreaWrite 32 0 [], .mbxAreaWrite 0 8192 [], .timeCapture 2,
    .txtsPop 2 0, .txtsPop 0 16, .dmaStart 2 0 0, .dmaStart 0 128 0, .dmaStop 2 0 0, .dmaStop 0 128 0, .dmaAbort 2 0 0,
    .dmaAbort 0 128 0, .dmaDoorbell 2 0 0, .dmaDoorbell 0 128 0, .descriptorFetched 128 [], .staleDescReread 128 [],
    .dmaTransferDone 128 0 [], .strictFlushDone 128, .tailRefetched 128 [], .dmaReadError 128] : List Instr).all
      (fun i => !i.wf) = true
    ∧ ([.intPendingClear 2 0 0 0, .intPendingClear 0 4 0 0, .intMapWrite 2 0 0, .intMapWrite 0 256 0, .msixUnmask 2 0,
    .msixUnmask 0 2048, .reservedWrite 2 0 8, .reservedWrite 0 1048576 8, .badSizeAccess 2 0 1 true,
    .badSizeAccess 0 1048576 1 true, .registerWrite 2 0 8 0, .registerWrite 0 1048576 8 0, .sweepSnap 2 0,
    .sweepRingReset 2 false 0, .sweepHeadWrite 2 false 0, .evtRingReset 2 0, .evtEnableWrite 2 0, .evtHeadWrite 2 0,
    .pcieFunctionReset 2 0, .pcieFunctionReset 0 3, .hostLinkLoss 2, .d3hotEntry 2, .pcieLinkUp 2 0 0 false] : List Instr).all
      (fun i => !i.wf) = true := by decide +kernel

/-- Rows of ports, lanes and their protocols (R15, R36, R68). -/
theorem test_wf_port_rows : ([.frameIngress 512 [] true, .pauseFrameReceived 512 [] true, .pfcFrameReceived 512 [] true,
    .pauseExpiry 512 0, .pauseExpiry 0 8, .pfcWatchdogExpiry 512 0, .pfcWatchdogExpiry 0 8, .pfcStormEndTimer 512 0,
    .pfcStormEndTimer 0 8, .pfcRefreshTimer 512, .linkDown 512, .linkUp 512, .ltCapReceived 512 [] true,
    .ltReqReceived 512 [] true, .ltAckReceived 512 [] true, .ltNakReceived 512 [] true, .ltSwitchReceived 512 [] true,
    .ltCapTick 512, .ltCapTimeout 512, .ltUtilWindow 512 0 0, .ltReqTimeout 512, .ltSwitchTimeout 512 true,
    .ltReceiversLocked 512, .ltAlignmentLost 512, .lpiIdleTimer 512, .lpiWakeComplete 512, .marginSample 512 0 0,
    .datapathFailure 512, .spareDatapathFailed 64, .gateEvent 512, .ptpMessageProcess 512 []] : List Instr).all
      (fun i => !i.wf) = true := by decide +kernel

/-- Rows of slices, VOQs, links, planes, queues and nodes (R15, R131, R163, R168, R180, R185). -/
theorem test_wf_fabric_rows : ([.droopTrip 16, .stretchHoldEnd 16 true, .recirculationPass 16, .mirrorQueueAdmit 16, .voqRequest 16 0,
    .voqRequest 0 32800, .grantDecision 516, .grantReceived 16 0, .grantReceived 0 32800, .standingCreditTimeout 16 0,
    .standingCreditTimeout 0 32800, .creditRecall 16 0, .creditRecall 0 32800, .creditReturnReceived 16 0,
    .creditReturnReceived 0 32800, .cellSend 16, .cellArrived 160 true, .linkNakReceived 160, .linkAckTimeout 160,
    .gapTimeout 16 0, .gapTimeout 0 16, .releaseCreditReceived 16 0, .releaseCreditReceived 0 16, .planeFault 5 1,
    .planeFault 0 3, .standbyTestLoss 5, .planeResyncDone 5 true] : List Instr).all (fun i => !i.wf) = true
    ∧ ([.transmitDecision 516, .frameTxComplete 516, .shaperRefill 516, .shaperRefill 5120, .shaperRefill 40960,
    .policerRefill 131072, .wredAverageUpdate 35072, .wredAverageUpdate 32769, .loupeSample 16, .spillReadback 16 0,
    .spillReadback 0 32800, .tsFifoRelay 16, .sliceFault 16, .sliceRestoreDone 16, .hpfPointerMismatch 8,
    .hpfPacketCommit 8] : List Instr).all (fun i => !i.wf) = true := by decide +kernel

/-- Rows of tables, streams, clusters, processors, targets, buses, HBM and the domain (R127, R247, R261, R264, R308, R325). -/
theorem test_wf_other_rows : ([.learnInsert 16, .agingVisit 2098176, .scrubRead 0 2098176 true, .scrubRead 8 0 true,
    .parityRestore 1 4096, .frerResetTimer 65536, .frerLatentTest 65536, .frerLatentReset 65536, .coreFailure 16 0,
    .coreFailure 0 13, .coreWatchdogExpiry 16 0, .coreWatchdogExpiry 0 13, .coreSubstitution 16 true,
    .spareSelftestDone 16 0 true, .spareSelftestDone 0 13 true, .mpFault 256, .mpRestartDone 2 true, .skipNoticeArrival 16,
    .fixWorkItemDone 16 0, .fixWorkItemDone 0 13, .fixLogWriteTimeout 16 0, .batchTimer 16, .batchClose 16,
    .receiptSigned 16] : List Instr).all (fun i => !i.wf) = true
    ∧ ([.holdTimerExpiry 65536, .idleSpindownTimer 65536, .parkDrainRelease 65536, .pollCycleStart 4, .pollSlot 4,
    .shelfStatusReceived 4 [], .shelfAckReceived 4 [], .shelfIdentReceived 4 [], .shelfReplyTimeout 4, .shelfReplyDiscarded 4 true,
    .domainResendTimeout 64 0, .keyUpdateTimer 64, .spdmRequest 3 ⟨true, []⟩, .moarasWatchdog 0, .moarasWatchdog 3,
    .hbmCorrectableError 4 0 0, .hbmCorrectableError 0 32 0, .hbmCorrectableError 0 0 65536, .hbmUncorrectableRead 4 0 0 0,
    .hbmUncorrectableRead 0 32 0 0, .hbmUncorrectableRead 0 0 6 0, .hbmPcSpareDone 4, .porstNRise 4] : List Instr).all
      (fun i => !i.wf) = true := by decide +kernel

/-! ### The rows give no bits; a step takes the front command -/

/-- No row of the table has a pattern of bits, so no word spells a command and withFetchWord changes nothing. -/
theorem test_no_words : decodeTableWord 32 0 = none ∧ decodeTableWord 0 0 = none
    ∧ State.reset.withFetchWord 32 5 = State.reset := by decide +kernel

/-- From reset a step with PPS_OUT_FALL in front runs it and leaves the rest of the queue. -/
theorem test_step_takes_front : step { State.reset with pending := [.ppsOutFall, .linkDown 0] }
    = exec .ppsOutFall { State.reset with pending := [.linkDown 0] } := rfl

/-- An empty queue: one tick of 1.25 ns (R214). -/
theorem test_idle_tick : (match step State.reset with | .next t => decide (t.time.ns = 1 ∧ t.up = 1) | _ => false) = true := by
  decide +kernel

/-- A port number the device does not have stops the row. -/
theorem test_missing_port : exec (.linkDown 512) State.reset = .fault (.noSuchUnit "network port") := rfl

/-! ### Witnesses: states and operands that meet the hypotheses of the statements -/

/-- Right after reset, with Moaras ready. -/
def up : State := { State.reset with mbx := { State.reset.mbx with ready := true } }
/-- The same, a manager (R420). -/
def boss : State := { up with pwr := { up.pwr with roleStrap := 2, variant := 1 } }
/-- The same, a worker. -/
def hand : State := { up with pwr := { up.pwr with roleStrap := 1, variant := 1 } }
/-- One lane group of the fourth mode with RS-FEC: ports 0 and its fellows are active. -/
def lit : State := (List.range 8).foldl (fun s i => s.updLane i (fun l => { l with mode := 7, fec := 2 })) up
/-- Port 511 is up and its link too. -/
def port511 (f : PortSt → PortSt) : State :=
  ((List.range 8).foldl (fun s i => s.updLane (504 + i) (fun l => { l with mode := 8, fec := 0 })) up).updPort 511
    (fun q => f { q with link := true })
/-- A set of one state, ID 1, open. -/
def set1 : SetSt := { SetSt.init with id := 1 }
/-- `s` with the set `b` as its only set. -/
def withSet (s : State) (b : SetSt) : State := { s with bake := { s.bake with sets := [b], nextSet := 2 } }

/-- The hypothesis `fresh`, as a value. -/
def freshB (s : State) (op : Nat) (r : Req) : Bool :=
  decide (r.box < 32) && decide ((s.host.link (s.boxFn r.box)).d3 = false) && decide (s.job? op r false = none) && decide ((s.box r.box).state ≠ .submitted) && s.mbx.ready
    && decide (s.verdict op r = .accept) && decide (s.pwr.failing = none) && !s.mbx.jobs.any (Job.precedes op r)

theorem fresh_of_freshB {s : State} {op : Nat} {r : Req} (h : freshB s op r = true) : s.fresh op r := by
  simp only [freshB, Bool.and_eq_true, decide_eq_true_eq, Bool.not_eq_true'] at h
  exact ⟨h.1.1.1.1.1.1.1, h.1.1.1.1.1.1.2, h.1.1.1.1.1.2, h.1.1.1.1.2, h.1.1.1.2, h.1.1.2, h.1.2, h.2⟩

/-- Some fresh request meets `ok`. -/
def Met (op : Nat) (ok : Req → State → Prop) : Prop := ∃ r s, s.fresh op r ∧ ok r s
/-- Some fresh live request meets `ok`. -/
def MetLive (op : Nat) (ok : List Byte → State → Prop) : Prop := ∃ r s, s.fresh op r ∧ r.stage = false ∧ ok r.payload s

theorem met {op : Nat} {ok : Req → State → Prop} (r : Req) (s : State) (h : freshB s op r = true) (k : ok r s) : Met op ok :=
  ⟨r, s, fresh_of_freshB h, k⟩
theorem metLive {op : Nat} {ok : List Byte → State → Prop} (p : List Byte) (s : State) (h : freshB s op (live p) = true)
    (k : ok p s) : MetLive op ok := ⟨live p, s, fresh_of_freshB h, rfl, k⟩

/-- The management processors are in their failover. -/
def inGap : State := { up with pwr := { up.pwr with failing := some 1 } }

/-- RequestsChecked, EnvelopeOrder, StepRunsFront, CommandsRun: their hypotheses are met. -/
theorem witness_requests :
    (∀ c ∈ mailboxCommands, up.job? c.1 (live []) false = none ∧ (up.box 0).state ≠ .submitted ∧ up.mbx.ready = true
      ∧ State.reset.mbx.ready = false ∧ up.pwr.failing = none ∧ (inGap.box 0).state ≠ .submitted ∧ inGap.mbx.ready = true
      ∧ inGap.pwr.failing.isSome = true ∧ ((up.updBox 0 (fun b => { b with state := .submitted })).box 0).state = .submitted)
    ∧ (∃ x b, up.verdict 0x0202 (live []) = .refuse x b) ∧ cmdInfo 0x0202 ≠ none
    ∧ (Instr.linkDown 511).wf = true := by
  refine ⟨by decide +kernel, ⟨_, _, rfl⟩, by decide +kernel, by decide +kernel⟩

/-- EnvelopeOrder, RequestsChecked: an opcode of no command; D3hot; a queued request, alone, behind one that must take effect first,
and in a failover. -/
theorem witness_queued :
    let j : Job := { Job.init with op := 0x0C02, req := inSet (zeros 24) }
    let k : Job := { Job.init with op := 0x0103 }
    cmdInfo 0xFFFF = none ∧ ((up.updLink 0 (fun l => { l with d3 := true })).host.link (up.boxFn 0)).d3 = true
    ∧ ([[], [k], [{ j with req := { j.req with box := 1 } }]].all (fun l =>
        let s : State := { up with mbx := { up.mbx with jobs := l ++ [j] } }
        decide (j.req.box < 32 ∧ s.mbx.jobs = l ++ j :: [] ∧ j.running = false
          ∧ (l.all (fun e => !(e.op == 0x0C02 && e.req == j.req && !e.running))) = true))) = true
    ∧ k.precedes 0x0C02 j.req = false ∧ ({ j with req := { j.req with box := 1 } } : Job).precedes 0x0C02 j.req = true
    ∧ up.pwr.failing = none ∧ inGap.pwr.failing.isSome = true := by decide +kernel

/-- A request whose tag is recorded is answered again, and one whose tag still runs waits (RequestsChecked). -/
theorem witness_tags :
    (let r : Req := { live [1] with tag := 5 }
     let s : State := { up with mbx := { up.mbx with hist0 := [histEntry 0x0103 r (Resp.ok [1]) 1] } }
     match s.verdict 0x0103 r with | .replay h => h.payload == [1] | _ => false) = true
    ∧ (let r : Req := { live [1] with tag := 5 }
       let s : State := { up with mbx := { up.mbx with jobs := [{ Job.init with op := 0x0103, req := r, running := true }] } }
       match s.verdict 0x0103 { r with box := 1 } with | .wait _ => true | _ => false) = true := by
  decide +kernel

/-- A payload: widths and values of its fields, in order. -/
def pl (l : List (Nat × Nat)) : List Byte := l.flatMap (fun e => le e.1 e.2)

/-- RegionsNeedStage: staged into the open set 1, of a wrong and of the right length; and without STAGE. -/
theorem witness_RegionsNeedStage :
    let s := withSet up set1
    ([live (zeros 24), inSet (zeros 20), inSet (zeros 24)].all (fun r => decide (s.job? 0x0C02 r false = none
      ∧ (s.box r.box).state ≠ .submitted ∧ s.mbx.ready = true ∧ r.tag = 0 ∧ r.len ≤ 3824 ∧ r.flagsRsvd = false ∧ r.indirect = false
      ∧ r.async = false ∧ r.readOk = true ∧ r.payload.length = r.len ∧ s.role = 0))) = true
    ∧ s.bake.set? 1 = some set1 ∧ set1.state = .isOpen ∧ (inSet (zeros 20)).len ≠ 24 ∧ (inSet (zeros 24)).len = 24
    ∧ (s.mbx.jobs.filter (fun j => j.op / 256 == 0x0C)).length < 256
    ∧ s.mbx.jobs.any (fun j => j.precedes 0x0C02 (inSet (zeros 24))) = false ∧ s.pwr.failing = none
    ∧ s.setRoom set1 { op := 0x0C02, payload := zeros 24 } := by
  refine ⟨by decide +kernel, by decide +kernel, rfl, by decide +kernel, by decide +kernel, by decide +kernel, by decide +kernel, rfl, ?_⟩
  unfold State.setRoom; decide +kernel

/-- RefusedWritesChangeNothing: a port that is not active. -/
theorem witness_RefusedWrites :
    Met 0x0203 (fun r s => r.stage = false ∧ livePortSetMac r.payload s = some (stBadArg, 0x0201)) :=
  met (live (zeros 8)) up (by decide +kernel) (by decide +kernel)

/-- StagedWritesRecorded: every write with a payload of its length, in the open set 1. -/
theorem witness_StagedWrites :
    let s := withSet up set1
    ((configWrites.map ConfigWrite.op).erase 0x0A08 ++ (stagedOnlyWrites ++ tableWrites).map Prod.fst ++ [0x0503]).all (fun op =>
      match cmdInfo op with
      | some c => freshB s op (inSet (zeros (match c.len with | .exact n => n | .atLeast n _ => n | .counted n _ _ _ => n | .any => 0)))
      | none => false) = true
    ∧ s.bake.set? 1 = some set1 ∧ s.setRoom set1 { op := 0x0501, payload := zeros 12 } := by
  refine ⟨by decide +kernel, by decide +kernel, ?_⟩
  unfold State.setRoom; decide +kernel

/-- ReadsMoveOnlyMail and MemoryCommands: every read with a payload of its length, DOM_GET_STATUS at a manager. -/
theorem witness_Reads :
    readCommands.all (fun w => match cmdInfo w.1 with
      | some c => freshB (if w.1 = 0x0E03 then boss else up) w.1
          (live (zeros (match c.len with | .exact n => n | .atLeast n _ => n | .counted n _ _ _ => n | .any => 0)))
      | none => false) = true := by decide +kernel

/-- PortSettings: eight lanes of mode 7 and FEC 2, and port 0 of them. -/
theorem witness_PortSettings :
    MetLive 0x0201 (fun p s => livePortSetMode p s = none) ∧ MetLive 0x0203 (fun p s => livePortSetMac p s = none)
    ∧ MetLive 0x0204 (fun p s => livePortSetFlow p s = none) ∧ MetLive 0x0205 (fun p s => checkPortSetThrottle p s = none)
    ∧ MetLive 0x0206 (fun p s => s.argPort p = true ∧ rd p 2 1 ≤ 1 ∧ resv p 3 1 = true
      ∧ (rd p 2 1 = 0 ∨ 1 ≤ rd p 4 4 ∧ rd p 4 4 ≤ 1000000) ∧ s.eeeFits (rd p 0 2) = true)
    ∧ MetLive 0x0207 (fun p s => checkLaneMap p s = none)
    ∧ MetLive 0x020A (fun p s => s.argPort p = true ∧ rd p 2 1 ≤ 1 ∧ resv p 3 1 = true)
    ∧ MetLive 0x020B (fun p _ => 1 ≤ rd p 0 2 ∧ rd p 0 2 ≤ 3600 ∧ resv p 6 2 = true) :=
  ⟨metLive (zeros 4 ++ (List.replicate 8 [7, 2]).flatten) up (by decide +kernel) (by decide +kernel),
   metLive (pl [(2, 0), (2, 1518), (2, 1), (2, 0)]) lit (by decide +kernel) (by decide +kernel),
   metLive (pl [(2, 0), (1, 1), (5, 0)]) lit (by decide +kernel) (by decide +kernel),
   metLive (pl [(2, 0), (1, 1), (1, 1), (1, 90), (1, 0), (2, 60000), (2, 4)]) lit (by decide +kernel) (by decide +kernel),
   metLive (pl [(2, 0), (2, 1), (4, 1000000)]) lit (by decide +kernel) (by decide +kernel),
   metLive (pl [(4, 63)] ++ [0, 1, 2, 3, 4, 5, 6, 7] ++ [7, 6, 5, 4, 3, 2, 1, 0] ++ zeros 4) up (by decide +kernel) (by decide +kernel),
   metLive (pl [(2, 7), (2, 0)]) lit (by decide +kernel) (by decide +kernel),
   metLive (pl [(2, 3600), (6, 0)]) up (by decide +kernel) (by decide +kernel)⟩

theorem witness_PortReads :
    Met 0x0202 (fun r s => s.argPort r.payload = true) ∧ Met 0x0209 (fun r s => s.argPort r.payload = true)
    ∧ Met 0x0208 (fun r _ => rd r.payload 0 2 ≤ 63) :=
  ⟨met (live (zeros 4)) lit (by decide +kernel) (by decide +kernel), met (live (zeros 4)) lit (by decide +kernel) (by decide +kernel),
   met (live (pl [(2, 63), (2, 0)])) lit (by decide +kernel) (by decide +kernel)⟩

theorem witness_PrismCommands :
    MetLive 0x0303 (fun p _ => prismPortOk p = true) ∧ MetLive 0x0304 (fun p s => checkPrismWriteRule p s = none)
    ∧ Met 0x0305 (fun r _ => rd r.payload 0 1 ≤ 15 ∧ rd r.payload 1 1 ≤ 1 ∧ rd r.payload 2 2 ≤ 3071)
    ∧ Met 0x0306 (fun r _ => rd r.payload 0 1 ≤ 15)
    ∧ Met 0x0307 (fun r _ => rd r.payload 0 1 ≤ 15 ∧ 1 ≤ rd r.payload 4 2 ∧ rd r.payload 4 2 ≤ 256 ∧ rd r.payload 2 2 + rd r.payload 4 2 ≤ 3072) :=
  ⟨metLive (pl [(2, 531), (10, 0)]) up (by decide +kernel) (by decide +kernel),
   metLive (pl [(2, 65535), (2, 3071), (4, 1)] ++ zeros 144) up (by decide +kernel) (by decide +kernel),
   met (live (pl [(1, 15), (1, 1), (6, 3071)])) up (by decide +kernel) (by decide +kernel),
   met (live (pl [(4, 15)])) up (by decide +kernel) (by decide +kernel),
   met (live (pl [(2, 15), (2, 2816), (4, 256)])) up (by decide +kernel) (by decide +kernel)⟩


/-- An entry of the MAC key of FID 0 and address 0, and the table with it. -/
def macEntry : EmEntry := { EmEntry.init with ktype := 1, key := keyMac 0 0, vis := 3 }
def withMac : State := { up with fwd := ((up.fwd.insertEntry macEntry).map (·.1)).getD up.fwd }
/-- A table with no room for the wide key of zeros: both its buckets and the stash are full of entries no packet sees. -/
def fullTable : State :=
  let e : EmEntry := { EmEntry.init with ktype := 6, key := zeros 48, vis := 0 }
  let a := 4 * up.fwd.h0 6 (zeros 48)
  let b := 4 * up.fwd.h1 6 (zeros 48)
  { up with fwd := { up.fwd with em := Tab.insert a e (Tab.insert b e ((List.range 256).map (fun i => (stashBase + 4 * i, e)))) } }

/-- FWD_INSERT of an entry that is there (REPLACE), of a new one, and of one that finds no room; delete, lookup, flush. -/
theorem witness_ForwardingEntries :
    Met 0x0401 (fun r s => r.stage = false ∧ checkFwdInsert r.payload s = none
      ∧ (s.fwd.entryOf (insOf r.payload).kt (insOf r.payload).key s.fwd.gen).isSome = true)
    ∧ Met 0x0401 (fun r s => r.stage = false ∧ checkFwdInsert r.payload s = none
      ∧ s.fwd.entryOf (insOf r.payload).kt (insOf r.payload).key s.fwd.gen = none
      ∧ (s.fwd.insertEntry ((insOf r.payload).entry (s.liveVis (insOf r.payload).kt (insOf r.payload).key))).isSome = true)
    ∧ Met 0x0401 (fun r s => r.stage = false ∧ checkFwdInsert r.payload s = none
      ∧ s.fwd.entryOf (insOf r.payload).kt (insOf r.payload).key s.fwd.gen = none
      ∧ (s.fwd.insertEntry ((insOf r.payload).entry (s.liveVis (insOf r.payload).kt (insOf r.payload).key))).isSome = false)
    ∧ Met 0x0402 (fun r s => r.stage = false ∧ checkFwdDelete r.payload s = none
      ∧ (s.fwd.entryOf (rd r.payload 0 1) (slice r.payload 4 48) s.fwd.gen).isSome = true)
    ∧ Met 0x0402 (fun r s => r.stage = false ∧ keyReqOk r.payload = true
      ∧ s.fwd.entryOf (rd r.payload 0 1) (slice r.payload 4 48) s.fwd.gen = none)
    ∧ Met 0x0403 (fun r _ => emKeyOk (rd r.payload 0 1) (slice r.payload 4 48) = true)
    ∧ Met 0x040C (fun r _ => flushOk r.payload = true) :=
  ⟨met (live (pl [(1, 1), (1, 4), (2, 0), (8, 0)] ++ zeros 48)) withMac (by decide +kernel) (by decide +kernel),
   met (live (pl [(1, 1), (3, 0), (8, 0)] ++ zeros 48)) up (by decide +kernel) (by decide +kernel),
   met (live (pl [(1, 6), (3, 0), (8, 0)] ++ zeros 48)) fullTable (by decide +kernel) (by decide +kernel),
   met (live (pl [(4, 1)] ++ zeros 48)) withMac (by decide +kernel) (by decide +kernel),
   met (live (pl [(4, 1)] ++ zeros 48)) up (by decide +kernel) (by decide +kernel),
   met (live (pl [(4, 11)] ++ zeros 48)) up (by decide +kernel) (by decide +kernel),
   met (late (pl [(2, 3), (2, 511), (4, 16383)])) up (by decide +kernel) (by decide +kernel)⟩

theorem witness_ForwardingTables :
    MetLive 0x0404 (fun p s => checkFwdSetVlan p s = none) ∧ MetLive 0x0405 (fun p s => checkFwdSetRoute p s = none)
    ∧ MetLive 0x0406 (fun p s => checkFwdSetNexthop p s = none) ∧ MetLive 0x0407 (fun p s => checkFwdSetEcmp p s = none)
    ∧ MetLive 0x0408 (fun p s => checkFwdSetTemplate p s = none) ∧ MetLive 0x0409 (fun p s => checkFwdSetRouter p s = none)
    ∧ MetLive 0x040A (fun p s => s.portActive (rd p 0 2) = true ∧ rd p 2 1 ≤ 1
      ∧ (rd p 2 1 = 0 ∨ rd p 3 1 ≤ 1 ∧ rd p 4 4 ≤ 2097152))
    ∧ MetLive 0x040B (fun p _ => rd p 0 4 ≤ 1000000) :=
  ⟨metLive (pl [(2, 4094), (2, 16383)] ++ zeros 142) up (by decide +kernel) (by decide +kernel),
   metLive (pl [(2, 255), (1, 6), (1, 0), (4, 0)] ++ zeros 24) up (by decide +kernel) (by decide +kernel),
   metLive (pl [(4, 131071), (1, 1), (1, 1), (2, 547), (2, 4094), (1, 63), (1, 0)] ++ zeros 12) up (by decide +kernel) (by decide +kernel),
   metLive (pl [(2, 65535), (2, 0), (4, 0)]) up (by decide +kernel) (by decide +kernel),
   metLive (pl [(2, 4095), (1, 3), (1, 64)] ++ zeros 104) up (by decide +kernel) (by decide +kernel),
   metLive (pl [(1, 63), (1, 1), (8, 1), (1, 6)] ++ zeros 17) up (by decide +kernel) (by decide +kernel),
   metLive (pl [(2, 0), (1, 1), (1, 1), (4, 2097152)]) lit (by decide +kernel) (by decide +kernel),
   metLive (pl [(4, 1000000)]) up (by decide +kernel) (by decide +kernel)⟩

theorem witness_BufferCommands :
    MetLive 0x0504 (fun p s => liveBufSetPfcTx p s = none) ∧ MetLive 0x0505 (fun p s => checkBufSetWredProfile p s = none)
    ∧ MetLive 0x0506 (fun p s => s.argAnyPort p = true ∧ rd p 2 1 ≤ 7 ∧ rd p 5 1 ≤ 1 ∧ resv p 6 2 = true)
    ∧ Met 0x0508 (fun r s => s.argAnyPort r.payload = true) ∧ Met 0x050A (fun _ _ => True) :=
  ⟨metLive (pl [(2, 0), (2, 65535), (4, 0)]) lit (by decide +kernel) (by decide +kernel),
   metLive (pl [(1, 255), (1, 15), (1, 3)] ++ zeros 37) up (by decide +kernel) (by decide +kernel),
   metLive (pl [(2, 547), (1, 7), (1, 255), (1, 255), (3, 1)]) up (by decide +kernel) (by decide +kernel),
   met (live (pl [(2, 547), (2, 0)])) up (by decide +kernel) (by decide +kernel),
   met (live []) up (by decide +kernel) trivial⟩

theorem witness_FabricCommands :
    MetLive 0x0602 (fun p s => checkFabSetPort p s = none)
    ∧ Met 0x0604 (fun r _ => pairExists (rd r.payload 0 1) (rd r.payload 1 1) = true)
    ∧ Met 0x0605 (fun r s => rd r.payload 0 1 < 5 ∧ rd r.payload 1 1 = 0 ∧ resv r.payload 2 2 = true
      ∧ (s.plane (rd r.payload 0 1)).state = .active ∧ 2 ≤ s.planesAfter)
    ∧ Met 0x0605 (fun r s => rd r.payload 0 1 < 5 ∧ rd r.payload 1 1 = 1 ∧ resv r.payload 2 2 = true
      ∧ (s.plane (rd r.payload 0 1)).state = .failed) :=
  ⟨metLive (pl [(2, 515), (2, 255), (4, 65536), (4, 1048576)]) up (by decide +kernel) (by decide +kernel),
   met (live (pl [(1, 15), (3, 15)])) up (by decide +kernel) (by decide +kernel),
   met (live (pl [(1, 3), (3, 0)])) up (by decide +kernel) (by decide +kernel),
   met (late (pl [(1, 4), (3, 1)])) (up.updPlane 4 (fun p => { p with state := .failed })) (by decide +kernel) (by decide +kernel)⟩

theorem witness_SchedulingCommands :
    MetLive 0x0701 (fun p s => checkSchedSetNode p s = none ∧ rd p 2 1 ≠ 0 ∧ rd p 5 1 ≠ (s.node (nodeOf p)).prio)
    ∧ Met 0x0702 (fun r s => s.argNode r.payload = true) ∧ MetLive 0x0703 (fun p s => checkPolSet p s = none)
    ∧ Met 0x0704 (fun r _ => rd r.payload 0 4 ≤ 131071)
    ∧ MetLive 0x0705 (fun p s => s.argPort515 p = true ∧ rd p 2 1 ≤ 1 ∧ rd p 3 1 ≤ 1 ∧ (rd p 2 1 = 0 ∨ rd p 4 4 ≤ 131071))
    ∧ MetLive 0x0706 (fun p s => checkLoupeSetProfile p s = none) ∧ MetLive 0x0707 (fun p s => checkLoupeSetQueue p s = none)
    ∧ Met 0x0708 (fun r _ => loupeOrder r.payload = some 34847) :=
  ⟨metLive (pl [(2, 0), (1, 2), (1, 7), (1, 7), (1, 7), (2, 255)] ++ zeros 12) lit (by decide +kernel) (by decide +kernel),
   met (live (pl [(2, 515), (6, 0)])) up (by decide +kernel) (by decide +kernel),
   metLive (pl [(4, 131071)] ++ zeros 20) up (by decide +kernel) (by decide +kernel),
   met (live (pl [(4, 131071)])) up (by decide +kernel) (by decide +kernel),
   metLive (pl [(2, 515), (2, 1), (4, 131071)]) up (by decide +kernel) (by decide +kernel),
   metLive (pl [(1, 63), (1, 3), (2, 15)] ++ zeros 16) up (by decide +kernel) (by decide +kernel),
   metLive (pl [(2, 515), (1, 255), (1, 63), (1, 3), (3, 0)]) up (by decide +kernel) (by decide +kernel),
   met (live (pl [(1, 15), (3, 2), (4, 32767)])) up (by decide +kernel) (by decide +kernel)⟩

/-- Port 0 gives the time base to Moaras (R233). -/
def moarasTime : State := up.updPort 0 (fun q => { q with ptp := { q.ptp with role := 1 } })

theorem witness_TimeCommands :
    Met 0x0802 (fun _ s => s.moarasClock = true)
    ∧ Met 0x0802 (fun r s => s.moarasClock = false ∧ rd r.payload 0 1 = 0 ∧ incrOk (rd r.payload 16 8) = true)
    ∧ Met 0x0802 (fun r s => s.moarasClock = false ∧ resv r.payload 1 1 = true ∧ rd r.payload 0 1 = 1
      ∧ (rdI r.payload 4 4).natAbs ≤ 999999999 ∧ (adjOffset r.payload).natAbs ≤ secUnits)
    ∧ Met 0x0802 (fun r s => s.moarasClock = false ∧ resv r.payload 1 1 = true ∧ rd r.payload 0 1 = 2
      ∧ (rdI r.payload 4 4).natAbs ≤ 999999999 ∧ s.offsetTime (adjOffset r.payload) = some (999999999 * 2 ^ 48) ∧ s.bake.armed = none)
    ∧ Met 0x0802 (fun r s => s.moarasClock = false ∧ resv r.payload 1 1 = true ∧ rd r.payload 0 1 = 3
      ∧ rd r.payload 8 8 < 2 ^ 48 ∧ rd r.payload 4 4 ≤ 999999999 ∧ s.bake.armed = none)
    ∧ MetLive 0x0803 (fun p s => checkTimeSetPtp p s = none) ∧ MetLive 0x0804 (fun p s => checkTimeSetPort p s = none)
    ∧ MetLive 0x0805 (fun p s => checkTimeSetPps p s = none) ∧ Met 0x0807 (fun r s => s.argPort r.payload = true)
    ∧ Met 0x0808 (fun r s => s.argPort r.payload = true) :=
  ⟨met (live (zeros 24)) moarasTime (by decide +kernel) (by decide +kernel),
   met (live ([0, 1] ++ zeros 14 ++ le 8 351843720888320)) up (by decide +kernel) (by decide +kernel),
   met (live (pl [(4, 1), (4, 999999999)] ++ zeros 16)) up (by decide +kernel) (by decide +kernel),
   met (live (pl [(4, 2), (4, 999999999)] ++ zeros 16)) up (by decide +kernel) (by decide +kernel),
   met (live (pl [(4, 3), (4, 999999999), (8, 2 ^ 48 - 1), (8, 0)])) up (by decide +kernel) (by decide +kernel),
   metLive (pl [(1, 3), (3, 0), (1, 4), (1, 4), (1, 10), (1, 1), (4, 1000)]) up (by decide +kernel) (by decide +kernel),
   metLive (pl [(2, 0), (1, 4), (1, 2), (4, 1000000), (8, 0)]) lit (by decide +kernel) (by decide +kernel),
   metLive (pl [(1, 1), (3, 1), (4, 499999999), (4, 500000)]) up (by decide +kernel) (by decide +kernel),
   met (live (zeros 4)) lit (by decide +kernel) (by decide +kernel), met (live (zeros 4)) lit (by decide +kernel) (by decide +kernel)⟩

/-- Core 12 of cluster 15 has failed, and MP-B has failed. -/
def hurt : State := (up.updCluster 15 (fun c => { c with failed := [12] })).updMp 1 (fun m => { m with state := .failed })

theorem witness_RedundancyCommands :
    MetLive 0x0901 (fun p s => liveFrerSetStream p s = none)
    ∧ MetLive 0x0903 (fun p s => s.portActive (rd p 0 2) = true ∧ rd p 2 1 ≤ 1 ∧ (rd p 2 1 = 0 ∨ rd p 3 1 ≤ 1))
    ∧ Met 0x0904 (fun r s => resv r.payload 2 2 = true ∧ (s.frerNow (rd r.payload 0 2)).recover = false)
    ∧ Met 0x0906 (fun r s => rd r.payload 0 1 = 0 ∧ resv r.payload 3 1 = true ∧ (s.mpIn .standby).isSome = true ∧ s.pwr.failing = none)
    ∧ Met 0x0906 (fun r s => rd r.payload 0 1 = 1 ∧ resv r.payload 3 1 = true ∧ rd r.payload 1 1 < 16 ∧ rd r.payload 2 1 < 12
      ∧ (s.cluster (rd r.payload 1 1)).ready = 12 :: [] ∧ (s.cluster (rd r.payload 1 1)).slots.length = 12)
    ∧ Met 0x0907 (fun r s => rd r.payload 0 1 = 0 ∧ resv r.payload 3 1 = true ∧ s.mpIn .failed = some 1)
    ∧ Met 0x0907 (fun r s => rd r.payload 0 1 = 1 ∧ resv r.payload 3 1 = true
      ∧ coreExists (rd r.payload 1 1) (rd r.payload 2 1) = true ∧ (s.cluster (rd r.payload 1 1)).failed.contains (rd r.payload 2 1) = true) :=
  ⟨metLive (pl [(2, 65535)] ++ zeros 30) up (by decide +kernel) (by decide +kernel),
   metLive (pl [(2, 0), (1, 1), (1, 1)]) lit (by decide +kernel) (by decide +kernel),
   met (live (pl [(2, 65535), (2, 0)])) up (by decide +kernel) (by decide +kernel),
   met (live (zeros 4)) up (by decide +kernel) (by decide +kernel),
   met (live (pl [(1, 1), (1, 15), (2, 11)])) up (by decide +kernel) (by decide +kernel),
   met (late (zeros 4)) hurt (by decide +kernel) (by decide +kernel),
   met (late (pl [(1, 1), (1, 15), (2, 12)])) hurt (by decide +kernel) (by decide +kernel)⟩

/-- Cluster 3 has a batch open. -/
def batchOpen : State := up.updFix 3 (fun f => { f with cur := { f.cur with isOpen := true } })
/-- Cluster 15 has one receipt in its ring. -/
def receipt0 : State := up.updFix 15 (fun f => { f with rcHead := 1 })

theorem witness_FixityCommands :
    MetLive 0x0A01 (fun p _ => rd p 0 1 ≤ 15 ∧ resv p 1 1 = true ∧ 1 ≤ rd p 2 2 ∧ rd p 2 2 ≤ 4096 ∧ 100 ≤ rd p 4 4 ∧ rd p 4 4 ≤ 10000000)
    ∧ Met 0x0A03 (fun r _ => rd r.payload 0 1 ≤ 15)
    ∧ Met 0x0A04 (fun r s => rd r.payload 0 1 ≤ 15 ∧ resv r.payload 1 7 = true
      ∧ (s.fix (rd r.payload 0 1)).releaseOk (rd r.payload 8 8) (rd r.payload 16 8) = true)
    ∧ Met 0x0A05 (fun r s => resv r.payload 2 2 = true ∧ ∀ c, c < 16 → bit (rd r.payload 0 2) c = true →
      (s.fix c).cur.isOpen = false ∧ (s.fix c).due = [] ∧ (s.fix c).signing = [])
    ∧ Met 0x0A05 (fun r s => rd r.payload 0 2 = 2 ^ 3 ∧ resv r.payload 2 2 = true
      ∧ (s.fix 3).cur.isOpen = true ∧ (s.fix 3).cur.due = none ∧ (s.fix 3).mustDefer = false)
    ∧ Met 0x0A06 (fun r s => rd r.payload 0 1 ≤ 15 ∧ (s.fix (rd r.payload 0 1)).rcTail ≤ rd r.payload 4 8
      ∧ rd r.payload 4 8 < (s.fix (rd r.payload 0 1)).rcHead)
    ∧ Met 0x0A07 (fun r _ => rd r.payload 0 1 ≤ 15) ∧ MetLive 0x0A08 (fun p s => checkLeavenSetEvents p s = none)
    ∧ Met 0x0A09 (fun r s => rd r.payload 0 1 ≤ 15 ∧ rd r.payload 1 1 ≤ 12
      ∧ (s.cluster (rd r.payload 0 1)).failed.contains (rd r.payload 1 1) = true) :=
  ⟨metLive (pl [(2, 15), (2, 4096), (4, 10000000)]) up (by decide +kernel) (by decide +kernel),
   met (live (pl [(4, 15)])) up (by decide +kernel) (by decide +kernel),
   met (live (pl [(8, 15)] ++ zeros 16)) receipt0 (by decide +kernel) (by decide +kernel),
   met (live (pl [(4, 65535)])) up (by decide +kernel) (by decide +kernel),
   met (live (pl [(4, 8)])) batchOpen (by decide +kernel) (by decide +kernel),
   met (live (pl [(4, 15), (8, 0)])) receipt0 (by decide +kernel) (by decide +kernel),
   met (live (pl [(4, 15)])) up (by decide +kernel) (by decide +kernel),
   metLive (pl [(1, 15), (3, 255), (8, 0)]) up (by decide +kernel) (by decide +kernel),
   met (live (pl [(1, 15), (3, 12)])) hurt (by decide +kernel) (by decide +kernel)⟩

def oldAnswer : HistEntry :=
  { tag := 1, op := 0x0103, flags := 0, setId := 0, len := 0, crc := 0, status := 0, detail := 0, epoch := 0, rlen := 0, payload := [] }

/-- Target 0 is valid and in state `x`. -/
def tgt (x : TgtState) : State := up.updTarget 0 (fun t => { t with valid := true, state := x })

theorem witness_ProofingCommands :
    MetLive 0x0B01 (fun p s => checkProofSetClass p s = none)
    ∧ MetLive 0x0B02 (fun p s => liveProofSetTarget p s = none ∧ bit (rd p 2 1) 0 = true)
    ∧ MetLive 0x0B02 (fun p s => liveProofSetTarget p s = none ∧ bit (rd p 2 1) 0 = false
      ∧ ((s.target (rd p 0 2)).valid = false ∨ (s.target (rd p 0 2)).parkQ = []))
    ∧ ([(0, TgtState.awake), (1, .asleep), (2, .waking), (2, .failed), (3, .awake), (3, .failed), (3, .draining),
        (0, .asleep), (1, .awake), (2, .awake), (2, .draining), (3, .waking)].all (fun x =>
        let s := tgt x.2
        let r := live (pl [(2, 0), (2, x.1)])
        freshB s 0x0B03 r && (s.target (rd r.payload 0 2)).valid && decide (rd r.payload 2 1 = x.1) && resv r.payload 3 1
          && decide ((s.target 0).state = x.2) && decide ((s.target 0).parkQ = []) && !(s.target 0).wakeQ)) = true
    ∧ Met 0x0B04 (fun _ _ => True) ∧ MetLive 0x0B05 (fun p s => checkShelfSet p s = none)
    ∧ Met 0x0B06 (fun r _ => rd r.payload 0 1 ≤ 3 ∧ rd r.payload 1 1 ≤ 31) ∧ MetLive 0x0B07 (fun p s => checkShelfSetBus p s = none) :=
  ⟨metLive (pl [(1, 15), (1, 3), (2, 60000), (4, 60000), (4, 65536), (4, 1600000000), (4, 60000), (4, 86400), (8, 0)]) up
     (by decide +kernel) (by decide +kernel),
   metLive (pl [(2, 65535), (1, 1), (1, 15), (1, 3), (1, 31), (2, 95), (4, 1000)]) up (by decide +kernel) (by decide +kernel),
   metLive (zeros 12) (tgt .awake) (by decide +kernel) (by decide +kernel), by decide +kernel,
   met (live (zeros 4)) up (by decide +kernel) trivial,
   metLive (pl [(1, 3), (1, 31), (1, 1), (1, 96), (4, 10000)]) up (by decide +kernel) (by decide +kernel),
   met (live (pl [(1, 3), (3, 31)])) up (by decide +kernel) (by decide +kernel),
   metLive (pl [(1, 3), (3, 1), (4, 100000)]) up (by decide +kernel) (by decide +kernel)⟩

theorem witness_DeviceCommands :
    (∃ h : HistEntry, Met 0x0102 (fun r s => rd r.payload 0 4 ≠ 0 ∧ s.mbx.recorded (s.boxFn r.box) (rd r.payload 0 4) = some h))
    ∧ Met 0x0102 (fun r s => rd r.payload 0 4 ≠ 0 ∧ s.mbx.recorded (s.boxFn r.box) (rd r.payload 0 4) = none
      ∧ (s.taggedJob (s.boxFn r.box) (rd r.payload 0 4)).isSome = true ∧ r.tag = 0)
    ∧ Met 0x0102 (fun r s => rd r.payload 0 4 ≠ 0 ∧ s.mbx.recorded (s.boxFn r.box) (rd r.payload 0 4) = none
      ∧ (s.taggedJob (s.boxFn r.box) (rd r.payload 0 4)).isSome = false ∧ r.tag = 0)
    ∧ Met 0x0102 (fun r _ => rd r.payload 0 4 = 0) ∧ Met 0x0103 (fun _ _ => True)
    ∧ Met 0x0104 (fun r s => resv r.payload 0 4 = true ∧ s.mbx.restarting = none) :=
  ⟨⟨oldAnswer, met (live (le 4 1)) { up with mbx := { up.mbx with hist0 := [oldAnswer] } } (by decide +kernel) (by decide +kernel)⟩,
   met (live (le 4 1)) { up with mbx := { up.mbx with jobs := [{ Job.init with op := 0x0F04, req := { late [] with box := 1 }, running := true }] } }
     (by decide +kernel) (by decide +kernel),
   met (live (le 4 1)) up (by decide +kernel) (by decide +kernel),
   met (live (le 4 0)) up (by decide +kernel) (by decide +kernel), met (live [1, 2, 3]) up (by decide +kernel) trivial,
   met (live (zeros 4)) up (by decide +kernel) (by decide +kernel)⟩

/-- The request of a BAKE_COMMIT of set 1, now. -/
def commitReq : Req := late (pl [(4, 1)] ++ zeros 20)

theorem witness_BakeCommands :
    Met 0x0D01 (fun _ s => s.bake.current.length < 4 ∧ s.bake.set? s.bake.nextSet = none)
    ∧ Met 0x0D01 (fun _ s => 4 ≤ s.bake.current.length)
    ∧ Met 0x0D02 (fun r s => s.bake.set? (rd r.payload 0 4) = some set1 ∧ set1.state ≠ .baked ∧ set1.state ≠ .aborted)
    ∧ Met 0x0D03 (fun r s => s.bake.set? (rd r.payload 0 4) = some set1 ∧ set1.state ≠ .baked ∧ set1.state ≠ .aborted
      ∧ rd r.payload 4 1 = 0 ∧ resv r.payload 5 3 = true ∧ resv r.payload 20 4 = true ∧ s.bake.inBake = none
      ∧ (s.begun 0x0D03 r).checkCmds set1.cmds set1.several = none ∧ s.slicesBusy = false)
    ∧ Met 0x0D04 (fun r s => s.bake.set? (rd r.payload 0 4) = some set1 ∧ set1.state = .isOpen)
    ∧ Met 0x0D04 (fun r s => s.bake.set? (rd r.payload 0 4) = some { set1 with state := .armed, committed := true })
    ∧ Met 0x0D05 (fun r s => rd r.payload 0 4 ≠ 0 ∧ s.bake.set? (rd r.payload 0 4) = some set1)
    ∧ Met 0x0D05 (fun r _ => rd r.payload 0 4 = 0)
    ∧ Met 0x1106 (fun r s => s.bake.heldShadow = some [] ∧ s.bake.set? s.bake.nextSet = none ∧ s.bake.inBake = none
      ∧ (let t0 := { s.begun 0x1106 r with bake := { s.bake with
          sets := s.bake.sets ++ [{ SetSt.init with id := s.bake.nextSet, cmds := [], restore := true, now := true }],
          nextSet := s.bake.nextSet + 1 } }
        t0.checkCmds [] false = none ∧ t0.slicesBusy = false)) :=
  ⟨met (live []) up (by decide +kernel) (by decide +kernel),
   met (live []) { up with bake := { up.bake with sets := [1, 2, 3, 4].map (fun i => { SetSt.init with id := i }), nextSet := 5 } }
     (by decide +kernel) (by decide +kernel),
   met (live (le 4 1)) (withSet up set1) (by decide +kernel) (by decide +kernel),
   met commitReq (withSet up set1) (by decide +kernel) (by decide +kernel),
   met (live (le 4 1)) (withSet up set1) (by decide +kernel) (by decide +kernel),
   met (live (le 4 1)) (withSet up { set1 with state := .armed, committed := true }) (by decide +kernel) (by decide +kernel),
   met (live (le 4 1)) (withSet up set1) (by decide +kernel) (by decide +kernel),
   met (live (zeros 4)) up (by decide +kernel) (by decide +kernel),
   met (late []) { up with bake := { up.bake with heldShadow := some [] } } (by decide +kernel) (by decide +kernel)⟩

/-- A manager whose worker 63 is enrolled and present. -/
def led : State := (boss.updPeer 63 (fun e => { e with admitted := true, enrolled := true, present := true, keyEpoch := 0 }))
/-- The same with a domain bake of worker 63 in progress. -/
def ledDom : DomBake := { DomBake.init with id := 1, members := [{ Member.init with idx := 63, set := 1 }] }
def ledBake : State := { led with bake := { led.bake with dom := some ledDom } }
/-- A DOM_BAKE of worker 63, at 10 s. -/
def domBakeReq : Req := late (pl [(8, 10), (4, 0), (2, 5), (1, 1), (9, 0), (1, 63), (3, 0), (4, 1)])

theorem witness_DomainCommands :
    ([0, 1].all (fun on =>
      let s := port511 id
      let u : State := { s with pwr := boss.pwr }
      let r := live (pl [(2, 511), (2, on)])
      freshB u 0x0E01 r && u.portActive (rd r.payload 0 2) && decide (rd r.payload 2 1 = on) && resv r.payload 3 1
        && !u.cutsPeer (fun q => q == rd r.payload 0 2))) = true
    ∧ Met 0x0E01 (fun r s => s.portActive (rd r.payload 0 2) = true ∧ rd r.payload 2 1 = 0 ∧ resv r.payload 3 1 = true
      ∧ s.cutsPeer (fun q => q == rd r.payload 0 2) = true)
    ∧ Met 0x0E02 (fun r _ => 1 ≤ rd r.payload 0 1 ∧ rd r.payload 0 1 ≤ 63 ∧ rd r.payload 1 1 ≤ 1 ∧ resv r.payload 2 2 = true)
    ∧ Met 0x0E04 (fun r s => 1 ≤ rd r.payload 0 1 ∧ rd r.payload 0 1 ≤ 63 ∧ resv r.payload 1 3 = true
      ∧ (s.peer (rd r.payload 0 1)).enrolled = true ∧ (s.peer (rd r.payload 0 1)).present = true)
    ∧ Met 0x0E04 (fun r s => 1 ≤ rd r.payload 0 1 ∧ rd r.payload 0 1 ≤ 63 ∧ resv r.payload 1 3 = true
      ∧ (s.peer (rd r.payload 0 1)).enrolled = false)
    ∧ Met 0x0E04 (fun r s => 1 ≤ rd r.payload 0 1 ∧ rd r.payload 0 1 ≤ 63 ∧ resv r.payload 1 3 = true
      ∧ (s.peer (rd r.payload 0 1)).enrolled = true ∧ (s.peer (rd r.payload 0 1)).present = false)
    ∧ Met 0x0E05 (fun r s => domBakeOk r.payload = true ∧ s.bake.dom = none
      ∧ (∀ m ∈ membersOf r.payload, m.idx ≠ 0 ∧ (s.peer m.idx).present = true) ∧ s.domLeadFault r = none)
    ∧ Met 0x0E05 (fun r s => domBakeOk r.payload = true ∧ s.bake.dom.isSome = true)
    ∧ Met 0x0E06 (fun _ s => s.bake.dom.isSome = true ∧ s.bake.dom.all (fun d => !d.decided) = true)
    ∧ Met 0x0E06 (fun _ s => s.bake.dom = none) ∧ Met 0x0E07 (fun _ _ => True) :=
  ⟨by decide +kernel,
   met (live (pl [(2, 0), (2, 0)])) (({ led with lanes := lit.lanes }.updPort 0 (fun q => { q with domainPort := true, link := true })).updPeer 63
     (fun e => { e with ports := [0] })) (by decide +kernel) (by decide +kernel),
   met (live (pl [(1, 63), (3, 1)] ++ zeros 32)) boss (by decide +kernel) (by decide +kernel),
   met (live (pl [(4, 63), (16, 0)])) led (by decide +kernel) (by decide +kernel),
   met (live (pl [(4, 1), (16, 0)])) led (by decide +kernel) (by decide +kernel),
   met (live (pl [(4, 63), (16, 0)])) (led.updPeer 63 (fun e => { e with present := false })) (by decide +kernel) (by decide +kernel),
   met domBakeReq led (by decide +kernel) (by decide +kernel), met domBakeReq ledBake (by decide +kernel) (by decide +kernel),
   met (live []) ledBake (by decide +kernel) (by decide +kernel), met (live []) led (by decide +kernel) (by decide +kernel),
   met (live []) hand (by decide +kernel) trivial⟩

theorem witness_IdentityCommands :
    Met 0x0F02 (fun r s => rd r.payload 0 1 ≤ 5 ∧ resv r.payload 1 3 = true
      ∧ s.certBytes (rd r.payload 0 1) (rd r.payload 4 4) = some [1] ∧ rd r.payload 8 4 ≤ 1)
    ∧ Met 0x0F04 (fun r s => rd r.payload 0 1 ≤ 1 ∧ rd r.payload 1 1 ≤ 1 ∧ resv r.payload 2 2 = true
      ∧ 1 ≤ rd r.payload 8 4 ∧ rd r.payload 8 4 ≤ 65524 ∧ rd r.payload 4 4 + rd r.payload 8 4 ≤ 25165824
      ∧ rd r.payload 8 4 + 12 ≤ r.payload.length ∧ rd r.payload 0 1 ≠ s.ident.running)
    ∧ Met 0x0F04 (fun r s => rd r.payload 0 1 ≤ 1 ∧ rd r.payload 1 1 ≤ 1 ∧ resv r.payload 2 2 = true
      ∧ 1 ≤ rd r.payload 8 4 ∧ rd r.payload 8 4 ≤ 65524 ∧ rd r.payload 4 4 + rd r.payload 8 4 ≤ 25165824
      ∧ rd r.payload 0 1 = s.ident.running)
    ∧ Met 0x0F05 (fun r _ => rd r.payload 0 1 ≤ 1 ∧ resv r.payload 1 3 = true)
    ∧ Met 0x0F06 (fun r s => rd r.payload 0 1 ≤ 1 ∧ rd r.payload 1 1 ≤ 3 ∧ resv r.payload 2 2 = true
      ∧ (s.ident.slot (rd r.payload 0 1)).stands = 0)
    ∧ Met 0x0F06 (fun r s => rd r.payload 0 1 ≤ 1 ∧ rd r.payload 1 1 ≤ 3 ∧ resv r.payload 2 2 = true
      ∧ (s.ident.slot (rd r.payload 0 1)).stands ≠ 0)
    ∧ Met 0x0F07 (fun r s => resv r.payload 2 2 = true ∧ s.ident.runTrial = false ∧ rd r.payload 0 2 = s.ident.runSvn)
    ∧ Met 0x0F07 (fun r s => resv r.payload 2 2 = true ∧ (s.ident.runTrial = true ∨ rd r.payload 0 2 ≠ s.ident.runSvn))
    ∧ Met 0x0F08 (fun r _ => rd r.payload 0 1 ≤ 1 ∧ resv r.payload 1 3 = true) :=
  ⟨met (live (pl [(4, 5), (4, 9), (4, 1)])) { up with ident := { up.ident with certs := [(9, [1])] } } (by decide +kernel) (by decide +kernel),
   met (late (pl [(1, 1), (3, 1), (4, 25165823), (4, 1), (1, 5)])) up (by decide +kernel) (by decide +kernel),
   met (late (pl [(4, 0), (4, 0), (4, 1), (1, 5)])) up (by decide +kernel) (by decide +kernel),
   met (late (pl [(4, 1)])) up (by decide +kernel) (by decide +kernel),
   met (live (pl [(1, 1), (3, 3)])) { up with ident := { up.ident with slotB := { up.ident.slotB with bytes := [(0, 0)], result := 0 } } }
     (by decide +kernel) (by decide +kernel),
   met (live (pl [(1, 1), (3, 3)])) up (by decide +kernel) (by decide +kernel),
   met (late (pl [(2, up.ident.runSvn), (2, 0)])) up (by decide +kernel) (by decide +kernel),
   met (late (pl [(2, up.ident.runSvn + 1), (2, 0)])) up (by decide +kernel) (by decide +kernel),
   met (live (pl [(4, 1)] ++ zeros 32)) hand (by decide +kernel) (by decide +kernel)⟩

/-- Slice 15 is parked. -/
def parked15 : State := up.updSlice 15 (fun x => { x with state := .parked })

theorem witness_TelemetryPowerCommands :
    MetLive 0x1001 (fun p s => checkTelSetMirror p s = none) ∧ MetLive 0x1002 (fun p s => checkTelSetPortMirror p s = none)
    ∧ Met 0x1003 (fun r _ => rd r.payload 0 1 ≤ 63) ∧ Met 0x1004 (fun r s => s.argAnyPort r.payload = true)
    ∧ MetLive 0x1102 (fun p s => checkPwrSetDroop p s = none)
    ∧ MetLive 0x1103 (fun p _ => 80 ≤ rd p 0 1 ∧ rd p 0 1 ≤ 104 ∧ resv p 1 3 = true)
    ∧ Met 0x1104 (fun r s => rd r.payload 0 1 ≤ 15 ∧ resv r.payload 1 3 = true ∧ s.bakeHolds = false
      ∧ (s.sliceSt (rd r.payload 0 1)).between = false ∧ (s.sliceSt (rd r.payload 0 1)).state ≠ .parked)
    ∧ Met 0x1104 (fun r s => rd r.payload 0 1 ≤ 15 ∧ resv r.payload 1 3 = true ∧ s.bakeHolds = true)
    ∧ Met 0x1105 (fun r s => rd r.payload 0 1 ≤ 15 ∧ rd r.payload 1 1 = 0 ∧ resv r.payload 2 2 = true ∧ s.bakeHolds = false
      ∧ (s.sliceSt (rd r.payload 0 1)).state ≠ .parked ∧ (s.sliceSt (rd r.payload 0 1)).between = false
      ∧ s.lanesOff (rd r.payload 0 1) = true ∧ s.hostBusy (rd r.payload 0 1) = false)
    ∧ Met 0x1105 (fun r s => rd r.payload 0 1 ≤ 15 ∧ rd r.payload 1 1 = 1 ∧ resv r.payload 2 2 = true
      ∧ (s.sliceSt (rd r.payload 0 1)).state = .parked)
    ∧ Met 0x1105 (fun r s => rd r.payload 0 1 ≤ 15 ∧ rd r.payload 1 1 = 0 ∧ resv r.payload 2 2 = true ∧ s.bakeHolds = false
      ∧ (s.sliceSt (rd r.payload 0 1)).state ≠ .parked ∧ (s.sliceSt (rd r.payload 0 1)).between = false
      ∧ s.lanesOff (rd r.payload 0 1) = false) :=
  ⟨metLive (pl [(1, 63)] ++ zeros 71) up (by decide +kernel) (by decide +kernel),
   metLive (pl [(2, 515), (1, 255), (1, 63)]) up (by decide +kernel) (by decide +kernel),
   met (live (pl [(4, 63)])) up (by decide +kernel) (by decide +kernel),
   met (live (pl [(4, 547)])) up (by decide +kernel) (by decide +kernel),
   metLive (pl [(2, 65535), (2, 740), (4, 30)]) up (by decide +kernel) (by decide +kernel),
   metLive (pl [(4, 104)]) up (by decide +kernel) (by decide +kernel),
   met (late (pl [(4, 15)])) up (by decide +kernel) (by decide +kernel),
   met (late (pl [(4, 15)])) (withSet up { set1 with state := .preparing }) (by decide +kernel) (by decide +kernel),
   met (late (pl [(4, 15)])) up (by decide +kernel) (by decide +kernel),
   met (late (pl [(1, 15), (3, 1)])) parked15 (by decide +kernel) (by decide +kernel),
   met (late (pl [(4, 0)])) lit (by decide +kernel) (by decide +kernel)⟩

/-- Mailbox 31 holds a DEV_ECHO of no bytes. -/
def boxed : State := up.updBox 31 (fun b => { b with req := [(0, 3), (1, 1)] })

/-- MailboxRows: the doorbell of a request that is accepted; RELEASE in RESPONSE_READY; area writes at the ends of the areas. -/
theorem witness_MailboxRows :
    ((boxed.host.link (boxed.boxFn 31)).d3 = false ∧ (boxed.box 31).state ≠ .submitted ∧ boxed.mbx.ready = true
      ∧ boxed.pwr.failing = none ∧ ((boxed.box 31).request 31 none).1 = 0x0103 ∧ ((boxed.box 31).request 31 none).2.async = false
      ∧ boxed.verdict ((boxed.box 31).request 31 none).1 ((boxed.box 31).request 31 none).2 = .accept)
    ∧ ((up.updBox 31 (fun b => { b with state := .responseReady })).box 31).state = .responseReady ∧ (up.box 31).state ≠ .responseReady
    ∧ (0x100 ≤ 0xFFF ∧ 0xFFF + [(1 : Byte)].length ≤ 0x1000 ∧ 0x1000 ≤ 0x1FFF ∧ 0x1FFF < 0x2000)
    ∧ ((up.updBox 31 (fun b => { b with state := .submitted })).box 31).state = .submitted := by decide +kernel

/-- Channel 127 as `f` makes it. -/
def chan (f : Chan → Chan) : State := up.updChan 127 f
/-- A descriptor: host address, length, flags, link, device handle. -/
def desc (len flags link handle : Nat) : List Byte := pl [(8, 0x1000), (4, len), (4, flags), (8, link), (8, handle)]

/-- DmaControl: every state of a channel named in the statement; the command bits are clear in 0. -/
theorem witness_DmaControl :
    (State.hears up 0 (up.chFn 127)) ∧ clearBits 0 [0, 1, 2] ∧ (up.chan 127).state = .stopped
    ∧ ((chan (fun x => { x with state := .halted })).chan 127).state = .halted
    ∧ ((chan (fun x => { x with state := .idle })).chan 127).state = .idle
    ∧ (let s := chan (fun x => { x with state := .running, desc := some (desc 1 8 0 0) })
       (s.chan 127).state = .running ∧ (s.chan 127).mode = 0 ∧ (s.chan 127).desc ≠ none)
    ∧ (let s := chan (fun x => { x with state := .idle, tailRefetch := false, rung := 0, consumed := 0 })
       (s.chan 127).tailRefetch = false ∧ (s.chan 127).consumed = (s.chan 127).rung) := by
  unfold State.hears clearBits; decide +kernel

/-- Channel 127 awaits a descriptor; or has `d` in progress. -/
def awaiting (f : Chan → Chan) : State := chan (fun x => f { x with state := .running, fetching := true })
def moving (m : Nat) (d : List Byte) (f : Chan → Chan) : State :=
  chan (fun x => f { x with state := .running, mode := m, desc := some d, fetching := false })

/-- DmaProgress: descriptors that are taken: to the host, from it, a marker; that are rejected, for each reason, or for their range;
stale ones; a fetch in progress. -/
theorem witness_DmaFetched :
    (let s := awaiting id
     s.awaitsDesc 127 ∧ (s.chan 127).atEase ∧ (s.chan 127).mode = 0
       ∧ ([desc 16 0x28 0 (up.regionBase 4), desc 16 0x08 0 (up.regionBase 4), desc 0 0x18 0 0].all (fun d =>
          decide (d.length = 32 ∧ dPhase d = (s.chan 127).phase ∧ s.descFault (s.chan 127) d = none))) = true
       ∧ dMarker (desc 16 0x28 0 0) = false ∧ dToHost (desc 16 0x28 0 0) = true ∧ dMarker (desc 16 0x08 0 0) = false
       ∧ dToHost (desc 16 0x08 0 0) = false ∧ dMarker (desc 0 0x18 0 0) = true
       ∧ (let d := desc 16 0x28 0 0
          rd d 11 1 = 0 ∧ dFlags d < 128 ∧ dLink d % 32 = 0 ∧ dMarker d = false ∧ s.rangeOk (dToHost d) (dHandle d) (dLen d) = false))
    ∧ rd (desc (2 ^ 24) 0x28 0 0) 11 1 ≠ 0 ∧ 128 ≤ dFlags (desc 16 0xA8 0 0) ∧ dEoc (desc 16 0x28 1 0) = false ∧ dLink (desc 16 0x28 1 0) % 32 ≠ 0
    ∧ (∀ m ∈ [1, 2], let s := awaiting (fun x => { x with mode := m }); s.awaitsDesc 127 ∧ (s.chan 127).atEase ∧ (s.chan 127).mode = m)
    ∧ (let s := awaiting (fun x => { x with stale := 8 })
       s.awaitsDesc 127 ∧ 8 ≤ (s.chan 127).stale ∧ ((awaiting id).chan 127).stale < 8 ∧ dPhase (desc 16 0x20 0 0) ≠ (s.chan 127).phase) := by
  unfold State.awaitsDesc Chan.atEase; decide +kernel

/-- DmaProgress: the seventh and the eighth stale re-read with its tag, one for which no tag is free, a flush in progress with and
without INT, a refetched tail with a link forward and backward. -/
theorem witness_DmaRereads :
    ([6, 7].all (fun n =>
        let s := chan (fun x => { x with state := .running, waitStale := true, stale := n })
        let d := desc 16 0x20 0 0
        decide (d.length = 32 ∧ (s.chan 127).waitStale = true ∧ s.canRead 127 = true ∧ (s.chan 127).reads = [] ∧ dPhase d ≠ (s.chan 127).phase ∧ (s.chan 127).stale = n))) = true
    ∧ (let s := chan (fun x => { x with state := .running, waitStale := true, readsOut := x.maxReads })
       (s.chan 127).waitStale = true ∧ s.canRead 127 = false)
    ∧ ([true, false].all (fun i => let s := chan (fun x => { x with flush := some i })
        decide ((s.chan 127).flush = some i ∧ (s.chan 127).cq = [] ∧ (s.chan 127).due = false))) = true
    ∧ ([0x1000, 0x3000].all (fun a => let s := chan (fun x => { x with state := .idle, tailRefetch := true, cur := a })
       let d := desc 16 0x28 0x2000 0
       decide (d.length = 32 ∧ (s.chan 127).state = .idle ∧ (s.chan 127).tailRefetch = true ∧ (s.chan 127).unsent = false ∧ dEoc d = false
         ∧ dLink d % 32 = 0))) = true := by
  decide +kernel

/-- A to-host packet of 14 bytes in FIFO 6, and the head of a from-host packet of 14 bytes. -/
def outPacket : List Byte := le 2 14 ++ zeros 62
def inPacket : List Byte := le 2 14 ++ zeros 44

/-- DmaProgress: transfers in each mode and direction, a packet that fits its descriptor and one that does not, a whole packet from
the host and a part of one, and no packet. -/
theorem witness_DmaTransfers :
    (∀ d ∈ [desc 16 0x29 0 (up.regionBase 4), desc 16 0x28 0x2000 (up.regionBase 4), desc 16 0x6B 0 (up.regionBase 4)],
        let s := moving 0 d id
        s.transfers 127 0 d ∧ (s.chan 127).atEase ∧ dToHost d = true ∧ 0 < dLen d)
    ∧ (let d := desc 16 0x08 0 (up.regionBase 4 + 301989888)
       let s := moving 0 d id
       s.transfers 127 0 d ∧ (s.chan 127).atEase ∧ dToHost d = false
         ∧ ∀ i, i < dLen d → receiptPlace (dHandle d - s.regionBase 4 + i) = none)
    ∧ (∀ n ∈ [16, 64],
        let d := desc n 0x28 0 0
        let s := moving 1 d (fun x => { x with hostPort := 3 })
        let u := s.updFifo 6 (fun f => { f with enable := true, bank0 := [outPacket], used0 := 2 })
        s.transfers 127 1 d ∧ (s.chan 127).atEase ∧ (s.chan 127).inPkt = false ∧ (s.fifo (2 * (s.chan 127).hostPort)).head? = none
          ∧ u.transfers 127 1 d ∧ (u.chan 127).atEase
          ∧ ((u.fifo (2 * (u.chan 127).hostPort)).head?.map (fun w => w.take (32 + rd w 0 2))).map List.length = some 46)
    ∧ (∀ e ∈ [(46, true), (40, false)],
        let d := desc e.1 0x08 0 0
        let s := (moving 2 d (fun x => { x with hostPort := 3 })).updFifo 7 (fun f => { f with enable := true })
        let all := (s.chan 127).pktLeft ++ padTo (dLen d) (inPacket.take e.1)
        s.transfers 127 2 d ∧ (s.chan 127).atEase ∧ 32 ≤ all.length ∧ hostPacketOk all = true
          ∧ (s.fifo (2 * (s.chan 127).hostPort + 1)).takesPart all e.2 = true ∧ decide (all.length = 32 + hostLen all) = e.2
          ∧ decide (all.length < 32 + hostLen all) = !e.2) := by
  unfold State.transfers Chan.atEase; and_intros <;> decide +kernel

/-- InterruptRows: source 187, owned by function 0 and pending, vector 2047 open; and pending behind its mask. -/
theorem witness_InterruptRows :
    (State.hears up 0 0) ∧ up.ownsInt 0 187 = true ∧ up.ownsInt 1 187 = false ∧ 64 * 2 + 59 ≤ 187
    ∧ (up.host.link 0).msixOn = false
    ∧ (let s := (up.updLink 0 (fun l => { l with vecOpen := [2047], msixOn := true }))
       let u : State := { s with host := { s.host with pending := [(187, true)] } }
       u.host.intPending 187 = true ∧ (u.host.link 0).msixOn = true ∧ (u.host.link 0).fnMask = false ∧ (u.host.link 0).vecOpen.contains 2047 = true
         ∧ (0x107FF#64).getLsbD 16 = true ∧ (0x107FF#64).toNat % 2048 = 2047)
    ∧ (let s := (up.updLink 0 (fun l => { l with pba := [2047], msixOn := true }))
       (s.host.link 0).pba.contains 2047 = true ∧ (s.host.link 0).msixOn = true ∧ (s.host.link 0).fnMask = false) := by
  unfold State.hears; decide +kernel

/-- RegisterRows: a reserved address, a bad access, function 1 of a bifurcated device, channel 127, a FIFO the host owns. -/
theorem witness_RegisterRows :
    up.regFor 0 0xFFFF8 = none ∧ up.areaFor 0 0xFFFF8 = none ∧ goodAccess 0xFFFF9 8 = false ∧ up.areaFor 0 0xFFFF9 = none
    ∧ (let s : State := { up with ident := { up.ident with bifurcated := true } }
       State.hears s 1 1 ∧ State.hears s 1 (s.chFn 127))
    ∧ (6 ≤ (20#64).toNat % 32 ∧ (20#64).toNat % 32 ≤ 20) ∧ up.fifoMoaras 15 = false
    ∧ ({ up with swp := { up.swp with enable := true } } : State).swp.enable = true := by
  unfold State.hears; decide +kernel

/-- SweepAndEventRows: the sweep enabled with an empty ring, and with a dump in progress. -/
theorem witness_SweepAndEventRows :
    (State.hears up 0 0) ∧ bit (1#64).toNat 0 = true ∧ bit (1#64).toNat 2 = false
    ∧ (let s : State := { up with swp := { up.swp with enable := true, period := 1, k := 30, groups := 0 } }
       s.swp.dump = none ∧ s.swp.period ≠ 0 ∧ (s.fecAll.sweepDump s.swp.taken true).length ≤ 2 ^ s.swp.k - (s.swp.tail - s.swp.head)
         ∧ (s.fecAll.sweepDump s.swp.taken false).length ≤ 2 ^ s.swp.k - (s.swp.tail - s.swp.head))
    ∧ (let s : State := { up with swp := { up.swp with enable := true, dump := some [1] } }
       s.swp.dump ≠ none ∧ s.swp.dump = some [1] ∧ s.swp.snapDue = false) := by
  unfold State.hears; decide +kernel

/-- The repair record holds `l`. -/
def repaired (l : List (Nat × Nat)) : State := { up with pwr := { up.pwr with repairLog := l } }

/-- ResetRows: each pin low and high, a warm and a cold bring-up, a shadow held, functions that exist. A boot ROM finds an image
with both slots empty (no image) here; that one may be found rests on the free values of the image checks. Links that train and that do not. -/
theorem witness_ResetRows :
    ({ up with pwr := { up.pwr with porst := false } } : State).pwr.porst = false ∧ up.pwr.porst = true ∧ up.pwr.emergency = false
    ∧ ({ up with pwr := { up.pwr with bringup := none } } : State).pwr.bringup ≠ some .cold
    ∧ ({ up with pwr := { up.pwr with wrst := false } } : State).pwr.wrst = false
    ∧ ({ up with bake := { up.bake with heldShadow := some [] } } : State).bake.heldShadow ≠ none
    ∧ (up.pwr.bringup = some .cold ∧ up.pwr.inReset = false)
    ∧ linkTrains up.ident.bifurcated 6 16 true = true ∧ linkTrains up.ident.bifurcated 0 16 true = false
    ∧ (let e : Slot := { up.ident.slotA with bytes := [], made := false }
       ({ up.ident with slotA := e, slotB := e } : IdSt).romBoot.booted = false)
    ∧ up.ident.console = none ∧ ({ up with ident := { up.ident with console := some 0 } } : State).ident.console.isSome = true
    ∧ up.fnExists 0 = true ∧ ({ up with ident := { up.ident with bifurcated := true } } : State).fnExists 1 = true := by decide +kernel

/-- ResetRows: the repair record names MP-A, whose place MP-B takes; or both. -/
theorem witness_bootMps (k : ResetKind) :
    ((((repaired [(2, 0)]).applyRepairs k).testMpA).mpIn .active).isSome = true
    ∧ (((repaired [(2, 0), (2, 1)]).applyRepairs k).testMpA).mpIn .active = none := by
  have a : (((repaired [(2, 0)]).applyRepairs k).mp 0).state = .failed := by cases k <;> decide +kernel
  have b : (((repaired [(2, 0), (2, 1)]).applyRepairs k).mp 0).state = .failed := by cases k <;> decide +kernel
  constructor
  · rw [State.testMpA, if_neg (fun h => h.2 a)]; cases k <;> decide +kernel
  · rw [State.testMpA, if_neg (fun h => h.2 b)]; cases k <;> decide +kernel

/-- PowerRows: a running, a parked and a stretched slice, the ticks of its hold to go, ECLK's elapsed and CCLK's too; samples below, at and above the thresholds; trip and warning in force;
a row with two errors; a stack that copies, one whose spare is engaged, and the spare itself, which may fail. -/
theorem witness_PowerRows :
    ((up.sliceSt 15).state ≠ .parked ∧ (up.sliceSt 15).stretched = false)
    ∧ (parked15.sliceSt 15).state = .parked
    ∧ ([(0, 127), (0, 128), (0, 170), (0, 171)].all (fun e =>
        let s : State := { up.updSlice 15 (fun x => { x with stretched := true, holdTick := e.1 }) with up := e.2 }
        decide ((s.sliceSt 15).stretched = true ∧ (s.sliceSt 15).state ≠ .parked ∧ (s.sliceSt 15).holdTick = 0 ∧ s.up = e.2))) = true
    ∧ up.pwr.porst = true ∧ up.pwr.supplies = true ∧ up.pwr.emergency = false
    ∧ ({ up with pwr := { up.pwr with inReset := true } } : State).pwr.inReset = true ∧ ({ up with pwr := { up.pwr with porst := false } } : State).pwr.porst = false
    ∧ up.pwr.inReset = false ∧ (hottestOf []).2 < 1840 ∧ 1840 ≤ (hottestOf (List.replicate 256 1840)).2
    ∧ (1680 ≤ (hottestOf (List.replicate 256 1700)).2 ∧ (hottestOf (List.replicate 256 1700)).2 < 1840 ∧ up.pwr.trip = false)
    ∧ (let s : State := { up with pwr := { up.pwr with trip := true, warn := true, hottest := 1500 } }
       s.pwr.trip = true ∧ s.pwr.hottest < 1632 ∧ s.pwr.warn = true ∧ s.pwr.hottest < 16 * s.pwr.warnC - 48)
    ∧ (let s := up.updStack 3 (fun x => { x with errors := [(31, 65535, 0), (31, 65535, 0)] })
       2 ≤ ((s.stack 3).errors.filter (fun e => e.1 == 31 && e.2.1 == 65535
         && decide (s.upNs / 1000000000 ≤ e.2.2 + 86400))).length ∧ (31, 65535) ∉ (s.stack 3).pending)
    ∧ ((up.updStack 3 (fun x => { x with copying := some 31 })).stack 3).copying = some 31
    ∧ ((up.updStack 3 (fun x => { x with spare := 1 })).stack 3).spare ≠ 0
    ∧ ((up.stack 3).spare = 0 ∧ (up.stack 3).copying = none) := by decide +kernel

/-- PowerRows, uncorrectable reads of the other regions: a parked, a spilled and another frame; a transfer to the host. -/
theorem witness_PowerReads :
    ([(some 0, false), (none, true), (none, false)].all (fun e =>
        let pk := { Pkt.init with id := 9, whole := true, parked := e.1, spilled := e.2 }
        let s : State := { up with pkts := [(9, pk)] }
        decide (Tab.find s.pkts 9 = some pk ∧ pk.id = 9 ∧ pk.whole = true ∧ pk.parked = e.1 ∧ pk.spilled = e.2))) = true
    ∧ (let d := desc 16 0x29 0 (up.regionBase 4)
       let s := moving 0 d id
       s.transfers 127 0 d ∧ (s.chan 127).atEase ∧ dToHost d = true ∧ 0 < dLen d) := by
  unfold State.transfers Chan.atEase; decide +kernel

/-- A clock identity that is not the device's: all bytes 0, or all 1. -/
def otherClock (k : Byte) : List Byte := List.replicate 8 k
theorem otherClock_ne : ∃ k, otherClock k ≠ be 8 Config.ptpClockId := by
  by_cases h : otherClock 0 = be 8 Config.ptpClockId
  · exact ⟨1, by rw [← h]; decide⟩
  · exact ⟨0, h⟩
/-- An Announce of a grandmaster with priority 1 of 0. -/
def bestAnnounce (k : Byte) : List Byte := [11] ++ zeros 52 ++ otherClock k ++ zeros 3
/-- Port 511 has qualified it; the device's own priority 1 is 128. -/
def heardAnn (k : Byte) : State := { up with ptp := { up.ptp with prio1 := 128, profile := 1 } }.updPort 511 (fun q => { q with
  link := true, ptp := { q.ptp with role := 1, foreign := [{ ann := bestAnnounce k, heard := [], ok := true }] } })
/-- A Pdelay_Resp number 7 to port 511. -/
def pdelayResp : List Byte := [3] ++ zeros 30 ++ [7] ++ zeros 12 ++ portIdentity 511
/-- Port 511 measures delays: it holds `b`, stamped. -/
def ptp511 (b : List Byte) (stamp : Option Int) : State :=
  let q : PortSt := { up.port 511 with link := true, ptp := { (up.port 511).ptp with role := 3, rx := [⟨b, stamp⟩], reqTx := some (7, 1000) } }
  { up with ptp := { up.ptp with profile := 1 }, ports := [(511, q)] }

/-- A number read from bytes whose first is at least 1 is at least 256 to the length of the rest. -/
theorem ofBe_ge (l : List Byte) (n : Nat) : n * 256 ^ l.length ≤ l.foldl (fun a b => 256 * a + b.toNat) n := by
  induction l generalizing n with
  | nil => simp
  | cons b l ih =>
    have h := ih (256 * n + b.toNat)
    simp only [List.length_cons, List.foldl_cons]
    refine Nat.le_trans ?_ h
    rw [Nat.pow_succ, Nat.mul_comm (256 ^ l.length), ← Nat.mul_assoc, Nat.mul_comm n]
    exact Nat.mul_le_mul_right _ (Nat.le_add_right _ _)

/-- The same from above. -/
theorem ofBe_lt (l : List Byte) (n : Nat) : l.foldl (fun a b => 256 * a + b.toNat) n < (n + 1) * 256 ^ l.length := by
  induction l generalizing n with
  | nil => simp
  | cons b l ih =>
    have h := ih (256 * n + b.toNat)
    simp only [List.length_cons, List.foldl_cons]
    refine Nat.lt_of_lt_of_le h ?_
    rw [Nat.pow_succ, Nat.mul_comm (256 ^ l.length), ← Nat.mul_assoc]
    exact Nat.mul_le_mul_right _ (by have := b.isLt; omega)

/-- TimeRows: some state has a parent. -/
theorem witness_parent : ∃ k, (heardAnn k).parent = some (511, bestAnnounce k) := by
  obtain ⟨k, hk⟩ := otherClock_ne
  refine ⟨k, ?_⟩
  have h : (heardAnn k).bestAnn = some (511, bestAnnounce k) := rfl
  have a : annGm (bestAnnounce k) = 0 :: (zeros 5 ++ otherClock k) := rfl
  have b : (heardAnn k).ownGm = 128 :: (heardAnn k).ownGm.tail := rfl
  have d : (annGm (bestAnnounce k)).drop 6 ≠ (heardAnn k).ownGm.drop 6 := hk
  have lt : ofBe (annGm (bestAnnounce k)) < ofBe (heardAnn k).ownGm := by
    have lo := ofBe_ge (heardAnn k).ownGm.tail 128
    have hi := ofBe_lt (zeros 5 ++ otherClock k) 0
    rw [a, b, ofBe, ofBe, List.foldl_cons, List.foldl_cons]
    exact Nat.lt_of_lt_of_le hi (Nat.le_trans (show 1 * 256 ^ 13 ≤ 128 * 256 ^ 13 by decide) lo)
  unfold State.parent
  rw [h, Option.filter_some_pos]
  have c : (annSet 511 (bestAnnounce k)).compare (heardAnn k).ownSet = .better := by
    unfold AnnSet.compare
    exact (if_pos d).trans (if_pos lt)
  show AnnSet.beats 1 (annSet 511 (bestAnnounce k)) (heardAnn k).ownSet = true
  unfold AnnSet.beats
  rw [if_neg (by decide), c]

/-- TimeRows. Which way a servo or a port decides rests on the free value, so one of the two clauses on bit 0 of it applies. -/
theorem witness_TimeRows :
    up.pwr.inReset = false ∧ up.ptp.profile = 0 ∧ up.ptp.source = 0 ∧ up.time.ppsInValid = false
    ∧ (let s : State := { up with ptp := { up.ptp with source := 1, profile := 1 }, time := { up.time with ppsInValid := true } }
       s.pwr.inReset = false ∧ s.ptp.source = 1 ∧ s.ptp.profile ≠ 0 ∧ s.time.ppsInValid = true)
    ∧ (0 ≤ (up.time.units : Int) + up.time.slewLeft ∧ (up.time.units : Int) + up.time.slewLeft < (2 ^ 48 * secUnits : Nat))
    ∧ (let s := ptp511 [2] (some 5)
       let q := s.port 511
       s.ptp.profile ≠ 0 ∧ s.ports = [(511, q)] ∧ q.link = true ∧ q.ptp.role = 3 ∧ bit q.storm (s.ptpClass 511) = false
         ∧ q.ptp.rx = [⟨[2], some 5⟩] ∧ ptpType [2] 0 = 2)
    ∧ (let s := { ptp511 [2] none with ptp := up.ptp }
       s.ptp.profile = 0 ∧ (s.port 511).ptp.rx = [⟨[2], none⟩])
    ∧ (let s := ptp511 pdelayResp (some 5000)
       (s.port 511).ptp.rx = [⟨pdelayResp, some 5000⟩] ∧ ptpType pdelayResp 0 = 3 ∧ (s.port 511).ptp.reqTx = some (7, 1000)
         ∧ 7 = msgSeq pdelayResp ∧ msgAsker pdelayResp = portIdentity 511 ∧ msgTwoStep pdelayResp = false)
    ∧ inGap.pwr.failing.isSome = true ∧ up.pwr.failing = none
    ∧ (∀ m ∈ (up.port 511).ptp.rx, m.bytes ≠ [2]) ∧ up.parent = none ∧ up.fifoMoaras 15 = false
    ∧ (up.updPort 511 (fun q => { q with ptp := { q.ptp with role := 1 } })).fifoMoaras 15 = true
    ∧ (up.gate 511).oper.entries = [] := by
  and_intros <;> first | rfl | decide +kernel

theorem witness_freeBit : bit up.freeVal 0 = false ∨ bit up.freeVal 0 = true := by cases bit up.freeVal 0 <;> simp

/-- A frame of `n` bytes with ethertype 0x1234. -/
def plain (n : Nat) : List Byte := zeros 12 ++ [0x12, 0x34] ++ zeros (n - 14)
/-- A PTP message of type 2 over Ethernet, 60 bytes. -/
def ptpFrame : List Byte := zeros 12 ++ [0x88, 0xF7, 2] ++ zeros 45
/-- Slice 15's first rule says RECIRCULATE for every key. -/
def recircAll : State :=
  let s := port511 id
  let u : Rule := { valid := true, value := 0, mask := 0, act := { RuleAct.init with op := 4 } }
  let b : PrismBank := { (s.prism.bank 0) with rules := [(3072 * 15, u)] }
  { s with prism := { s.prism with bank0 := b, bank1 := b } }
/-- `s` holds the packet `pk` under number 9. -/
def holding (s : State) (pk : Pkt) : State := { s with pkts := [(9, { pk with id := 9 })], nextPkt := 10 }

/-- VLAN 1 is valid on every port, and address 0 is at port 510. -/
def bridge : State :=
  let s := port511 id
  let g := { s.fwd.gen0 with vlan := [(1, { Vlan.init with valid := true, members := 2 ^ 548 - 1, untagged := 2 ^ 548 - 1 })] }
  let f : FwdSt := { s.fwd with gen0 := g, gen1 := g }
  { s with fwd := ((f.insertEntry { macEntry with data := emWord 1 510 }).map (·.1)).getD s.fwd }
/-- What the lookups of a frame of 64 bytes at port 511 answer, and the state in which step 7 takes it. -/
def looked (s : State) : Res5 := (s.arrived 511 (plain 60)).passLook s.nextPkt
def atStep7 (s : State) : State := s.planned (looked s)

/-- The conditions of `ordinary`, and those of `goesTo` beside them, as values. -/
def ordinaryB (s : State) : Bool :=
  (s.port 511).link && !macConsumes (plain 60) && decide (64 ≤ (s.port 511).maxLen) && !moarasTakes (s.port 511).ptp.role (plain 60)
    && decide (Tab.get [] s.prism.merge 511 = []) && decide (((s.arrived 511 (plain 60)).passAct s.nextPkt).op = 0)
def goesB (s : State) : Bool :=
  let r := looked s
  ordinaryB s && !r.fwd.parity && r.drop.isNone && r.recov.isNone && r.x.isNone && (r.ctx.genStream r.d).isNone && !r.fwd.frer
    && decide (r.fwd.ports = [510]) && ((atStep7 s).policerOf ((atStep7 s).pkt s.nextPkt)).isNone
    && ((atStep7 s).ingressSession ((atStep7 s).pkt s.nextPkt)).isNone

theorem ordinary_of {s : State} (h : ordinaryB s = true) : s.ordinary 511 (plain 60) (looked s) := by
  simp only [ordinaryB, Bool.and_eq_true, decide_eq_true_eq, Bool.not_eq_true'] at h
  obtain ⟨⟨⟨⟨⟨hl, hc⟩, hm⟩, ht⟩, hq⟩, ha⟩ := h
  exact ⟨⟨by decide, hl, hc, by decide, hm, ht⟩, hq, ha, rfl⟩

theorem goesTo_of {s : State} (h : goesB s = true) : s.goesTo 511 (plain 60) 510 (atStep7 s) := by
  simp only [goesB, Bool.and_eq_true, decide_eq_true_eq, Bool.not_eq_true', Option.isNone_iff_eq_none] at h
  obtain ⟨⟨⟨⟨⟨⟨⟨⟨⟨ho, hp⟩, hd⟩, hr⟩, hx⟩, hg⟩, hf⟩, hq⟩, hl⟩, hi⟩ := h
  exact ⟨looked s, ordinary_of ho, hp, hd, hr, hx, hg, hf, hq, by decide, rfl, hl, hi⟩

/-- Changes of the entry of address 0, and of the class of priority 0. -/
def macAt (f : EmEntry → EmEntry) (s : State) : State := { s with fwd := { s.fwd with em := s.fwd.em.map (fun x => (x.1, f x.2)) } }
def class0 (f : ClassCfg → ClassCfg) (s : State) : State :=
  { s with buf := { s.buf with classes := Tab.insert 0 (f (Tab.get ClassCfg.init s.buf.classes 0)) s.buf.classes } }
/-- A frame of the class of priority 0 is dropped without room, not spilled. -/
def unspilled : State := class0 (fun c => { c with spill := false }) bridge
/-- Its VOQ has credit and its class the express bypass. -/
def bypass : State :=
  let s := (unspilled.updVoq 15 (voqNo 510 0 0) (fun q => { q with credit := 64 })).updFabPort 510 0 (fun f => { f with express := true })
  { s with fab := { s.fab with params := { s.fab.params with express := true } } }
/-- Its VOQ is in spill, with room in the region and without. -/
def spilling : State := { bridge with buf := { bridge.buf with spillVoqs := [spillKey 15 (voqNo 510 0 0)] } }
def spillFilled : State := (class0 (fun c => { c with spillLim := 1 }) spilling).updQueue (queueKey 510 0 0) (fun q => { q with spilled := 4096 })
/-- It is lossless and has no cell left. -/
def losslessFull : State :=
  (class0 (fun c => { c with lossless := true, spill := false }) bridge).updPortClass 511 0 (fun c => { c with cMin := 8, cShared := 512, xoff := true })
/-- Address 0 names target 0, which sleeps. -/
def sleeper : State :=
  let s := macAt (fun e => { e with data := emWord 1 510 ||| BitVec.ofNat 64 (2 ^ 27) }) bridge
  ({ s with proof := { s.proof with classes := [(0, { PClass.init with hold := 60000, park := 65536 })] } }).updTarget 0
    (fun t => { t with valid := true, state := .asleep })
/-- Stream 0 of port 511 recovers frames; and port 511's policer drops what is red. -/
def recovered : State :=
  let s := bridge.updPort 511 (fun q => { q with frerId := true })
  let c := { FrerCfg.init with recover := true }
  let f : FwdSt := { s.fwd with gen0 := { s.fwd.gen0 with frer := [(0, c)] }, gen1 := { s.fwd.gen1 with frer := [(0, c)] } }
  { s with fwd := ((f.insertEntry { EmEntry.init with
      ktype := 4, key := keyFrer 0 1 0, vis := 3, data := BitVec.ofNat 64 (2 ^ 10) }).map (·.1)).getD s.fwd }
def policed : State := (bridge.updPort 511 (fun q => { q with polValid := true })).updPolicer 0 (fun p => { p with cfg := { p.cfg with dropRed := true } })

/-- IngressRows: no link, a frame too short, one for Moaras, one whose rule says RECIRCULATE. -/
theorem witness_IngressRows :
    (up.port 511).link = false
    ∧ (let s := port511 id
       (s.port 511).link = true ∧ macConsumes (plain 59) = false ∧ (plain 59).length < 60)
    ∧ (let s := port511 (fun q => { q with ptp := { q.ptp with role := 3 } })
       macConsumes ptpFrame = false ∧ 60 ≤ ptpFrame.length ∧ moarasTakes (s.port 511).ptp.role ptpFrame = true)
    ∧ (let s := recircAll
       (s.port 511).link = true ∧ macConsumes (plain 60) = false ∧ 60 ≤ (plain 60).length ∧ (plain 60).length + 4 ≤ (s.port 511).maxLen
         ∧ moarasTakes (s.port 511).ptp.role (plain 60) = false
         ∧ ((s.arrived 511 (plain 60)).passHit s.nextPkt).2 = some (0, { RuleAct.init with op := 4 })
         ∧ ((s.arrived 511 (plain 60)).passLook s.nextPkt).fwd.parity = false
         ∧ (Tab.get [] s.prism.recirc (511 / 32)).length < 64) := by and_intros <;> decide +kernel

/-- IngressRows: a parity error in its VLAN; a frame of no VLAN; one that its stream eliminates; one that its policer drops. -/
theorem witness_IngressDrops :
    (let s : State := { bridge with fwd := { bridge.fwd with badTable := [(1, 1, Prefix.init)] } }
     ordinaryB s = true ∧ (looked s).fwd.parity = true)
    ∧ (ordinaryB (port511 id) = true ∧ (looked (port511 id)).fwd.parity = false ∧ (looked (port511 id)).drop = some 10)
    ∧ (let r := looked recovered
       ordinaryB recovered = true ∧ r.fwd.parity = false ∧ r.drop = none ∧ ((r.counted .none).recoverStep r (parseTags r.ctx.pk.bytes).rtag).2 = .drop 20)
    ∧ (let r := looked policed
       ordinaryB policed = true ∧ r.fwd.parity = false ∧ r.drop = none ∧ r.recov.isNone = true ∧ (r.ctx.genStream r.d).isNone = true
         ∧ r.fwd.frer = false ∧ ((policed.planned r).police ((policed.planned r).pkt policed.nextPkt)).2 = true) := by
  and_intros <;> decide +kernel

/-- IngressRows: a frame to port 510 that finds its cells, with no credit, with the bypass; that joins its VOQ's spilled part, or
finds the region full; that is lossless and finds no room; that is parked. Contended bandwidth is a free value, and each of its values has its clause. -/
theorem witness_IngressQueued :
    (∀ s ∈ [unspilled, bypass, spilling, spillFilled, losslessFull], goesB s = true ∧ ((atStep7 s).pkt s.nextPkt).target = none)
    ∧ (∀ s ∈ [unspilled, bypass], (atStep7 s).finds ((atStep7 s).pkt s.nextPkt) 510)
    ∧ (let w := atStep7 unspilled; let pk := w.pkt unspilled.nextPkt; (w.voq pk.slice (voqNo 510 pk.tc pk.slot)).credit = 0)
    ∧ (let w := atStep7 bypass; w.expressOk (w.pkt bypass.nextPkt) 510 = true)
    ∧ (∀ s ∈ [spilling, spillFilled], let w := atStep7 s; let pk := w.pkt s.nextPkt
        (w.classCfg pk.prio).lossless = false ∧ w.toSpill pk 510 = true ∧ w.voqRefusal pk 510 = none)
    ∧ (let w := atStep7 spilling; w.spillFull (w.pkt spilling.nextPkt) 510 = false)
    ∧ (let w := atStep7 spillFilled; w.spillFull (w.pkt spillFilled.nextPkt) 510 = true)
    ∧ (let w := atStep7 losslessFull; let pk := w.pkt losslessFull.nextPkt
       (w.classCfg pk.prio).lossless = true ∧ (w.chargeOf pk).isNone = true
         ∧ w.txoff128 511 pk.prio - 128 * (w.portClass 511 pk.prio).xonDelta
           < 128 * ((w.portClass 511 pk.prio).cShared + (w.portClass 511 pk.prio).cHead))
    ∧ (let w := atStep7 sleeper; let pk := w.pkt sleeper.nextPkt
       goesB sleeper = true ∧ pk.target = some 0 ∧ (w.target 0).valid = true ∧ w.parkTest (w.target 0) pk = .park) := by
  unfold State.finds; and_intros <;> decide +kernel

/-- IngressRows: the last byte of a whole frame, of a dead one, of one to several ports; of one in its VOQ that is too long or has a bad FCS. -/
theorem witness_IngressTails :
    ([true, false].all (fun w => [true, false].all (fun d => [true, false].all (fun m => [true, false].all (fun c =>
        let pk := { Pkt.init with id := 9, whole := w, dead := d, toMoaras := m, multi := m, crossed := c, bytes := plain 60, rxLen := 64 }
        decide (Tab.find (holding up pk).pkts 9 = some pk ∧ pk.tap = none ∧ pk.overLong = false ∧ ltUnknown pk.bytes = false)))))) = true
    ∧ ([true, false].all (fun o =>
        let pk := { Pkt.init with id := 9, dests := [510], cells := [0], overLong := o }
        let s := (holding up pk).updVoq pk.slice (voqNo 510 pk.tc pk.slot) (fun q => { q with q := [9] })
        decide (Tab.find s.pkts 9 = some pk ∧ pk.id = 9 ∧ pk.whole = false ∧ pk.tap = none ∧ pk.dead = false ∧ pk.crossed = false
          ∧ pk.mirror = none ∧ pk.dests = [510] ∧ pk.multi = false ∧ pk.cells ≠ [] ∧ pk.parked = none
          ∧ (s.voq pk.slice (voqNo 510 pk.tc pk.slot)).q.contains 9 = true ∧ Tab.get [] s.prism.merge pk.inPort = []))) = true := by
  and_intros <;> decide +kernel

theorem witness_IngressQueues :
    Tab.get [] up.prism.recirc 15 = []
    ∧ (let s : State := { (holding recircAll { recircAll.newPkt 511 (plain 60) 64 true with pass := 0 }) with
         prism := { recircAll.prism with recirc := [(15, [9])] } }
       let u := { s with prism := { s.prism with recirc := Tab.upd [] s.prism.recirc 15 (fun q => without q 9) } }.updPkt 9
         (fun x => { x with pass := 1 })
       Tab.get [] s.prism.recirc 15 = [9] ∧ (s.pkt 9).slice = 15 ∧ (s.pkt 9).tmpl = 0 ∧ (s.pkt 9).pass = 0
         ∧ (u.passHit 9).2 = some (0, { RuleAct.init with op := 4 }) ∧ (u.passLook 9).fwd.parity = false)
    ∧ (let pk := { Pkt.init with id := 9, mirror := some 63, dests := [0] }
       let s : State := { holding up pk with tel := { up.tel with mirQ := [(15, [9])] } }
       Tab.get [] s.tel.mirQ 15 = [9] ∧ Tab.get [] s.prism.recirc 15 = [] ∧ Tab.find s.pkts 9 = some pk ∧ pk.id = 9
         ∧ pk.mirror = some 63 ∧ pk.multi = false ∧ pk.dests = [0]
         ∧ Tab.get [] ({ s with prism := { s.prism with recirc := [(15, [8])] } } : State).prism.recirc 15 ≠ []) := by decide +kernel

/-- A MAC control frame: opcode, then two fields. -/
def ctlFrame (op a b : Nat) : List Byte := zeros 12 ++ [0x88, 0x08] ++ be 2 op ++ be 2 a ++ be 2 b ++ zeros 40
/-- A Lane Throttle frame: type, transaction and width. -/
def ltFrame (ty id w : Nat) : List Byte := zeros 12 ++ [0x88, 0xB5, 1, 1] ++ be 1 ty ++ be 1 id ++ be 1 w ++ zeros 41

theorem witness_PortRows :
    (let s := port511 (fun q => { q with fcMode := 1 })
     s.takesCtl 511 (ctlFrame 1 9 0) ∧ fld (ctlFrame 1 9 0) 12 2 = 0x8808 ∧ fld (ctlFrame 1 9 0) 14 2 = 1 ∧ (s.port 511).fcMode = 1
       ∧ (up.port 511).fcMode ≠ 1)
    ∧ (let s := port511 (fun q => { q with fcMode := 2, pfcMask := 0x80, watchdog := 1, pause := List.replicate 8 5 })
       s.takesCtl 511 (ctlFrame 0x0101 0x80 0) ∧ fld (ctlFrame 0x0101 0x80 0) 14 2 = 0x0101 ∧ (s.port 511).fcMode = 2
         ∧ fld (ctlFrame 0x0101 0x80 0) 17 1 &&& (s.port 511).pfcMask ≠ 0 ∧ (s.port 511).watchdog ≠ 0
         ∧ (s.port 511).pause.getD 7 0 ≠ 0 ∧ bit (s.port 511).storm 7 = false)
    ∧ ([0, 0x80].all (fun seen =>
        let s := port511 (fun q => { q with storm := 0x80, stormSeen := seen })
        decide (bit (s.port 511).storm 7 = true ∧ bit (s.port 511).stormSeen 7 = (seen != 0)))) = true
    ∧ up.xoffVec 511 = 0
    ∧ (let s := (port511 (fun q => { q with fcMode := 2 })).updPortClass 511 7 (fun c => { c with xoff := true })
       s.xoffVec 511 ≠ 0 ∧ (s.port 511).txPkt = none ∧ (s.port 511).lpi = false ∧ (s.port 511).ctlWaits = false
         ∧ (s.port 511).fcMode = 2)
    ∧ (let s := (port511 id).updPort 511 (fun q => { q with link := false, admin := true })
       s.portActive 511 = true ∧ (s.port 511).admin = true ∧ (s.port 511).link = false ∧ s.pathsOk 511 = true
         ∧ (s.sliceSt (511 / 32)).state = .active)
    ∧ (let s := (port511 (fun q => { q with eee := true })).updLane 511 (fun l => { l with mode := 8 })
       (s.port 511).eee = true ∧ s.eeeFits 511 = true ∧ (s.port 511).lpi = false ∧ (s.port 511).txPkt = none ∧ s.waiting 511 = [] ∧ s.portQueues 511 = [])
    ∧ (up.port 511).lpi = false ∧ ((port511 (fun q => { q with lpi := true })).port 511).lpi = true
    ∧ (up.lane 511).mode = 0 ∧ ((port511 id).lane 511).mode ≠ 0 ∧ ((port511 id).lane 511).parked = false
    ∧ (((port511 id).updLane 511 (fun l => { l with parked := true })).lane 511).parked = true
    ∧ (up.group 63).spare = 0 ∧ ((up.updGroup 63 (fun g => { g with spare := 1 })).group 63).spare ≠ 0 := by
  unfold State.takesCtl; decide +kernel

/-- LaneThrottleRows: whether the alignment is regained rests on the free value, so one of the two clauses on bit 0 of it applies
(witness_freeBit); the port's queues are empty. Port 504, four lanes wide, with Lane Throttle in some state. -/
def ltPort (f : LtSt → LtSt) : State :=
  ((List.range 4).foldl (fun s i => s.updLane (504 + i) (fun l => { l with mode := 2, fec := 1 })) up).updPort 504
    (fun q => { q with link := true, lt := f { q.lt with enable := true, partnerOk := true, minWidth := 1 } })

theorem witness_LaneThrottleRows :
    ((ltPort id).takesLt 504 1 (ltFrame 1 0 0) ∧ (ltPort id).ltFits 504 = true ∧ ((ltPort id).port 504).txPkt = none
      ∧ ((ltPort id).port 504).lpi = false)
    ∧ (let s := ltPort (fun l => { l with state := .full })
       s.takesLt 504 2 (ltFrame 2 5 2) ∧ fld (ltFrame 2 5 2) 18 1 ≠ s.fullWidth 504 ∧ (s.port 504).lt.state = .full
         ∧ (s.port 504).lt.enable = true ∧ fld (ltFrame 2 5 2) 18 1 = 2
         ∧ 100 * (s.port 504).lt.util ≤ (s.port 504).lt.threshold * windowBytes 2 ∧ (s.port 504).txPkt = none ∧ (s.port 504).lpi = false)
    ∧ (let s := ltPort (fun l => { l with state := .full, enable := false });
       (s.port 504).lt.enable = false ∧ (s.port 504).txPkt = none ∧ (s.port 504).lpi = false)
    ∧ (let s := ltPort (fun l => { l with state := .full, threshold := 1, util := 1000000000 });
       (s.port 504).lt.threshold * windowBytes 2 < 100 * (s.port 504).lt.util)
    ∧ (let s := ltPort (fun l => { l with state := .narrow, width := 2 })
       s.takesLt 504 2 (ltFrame 2 5 (s.fullWidth 504)) ∧ fld (ltFrame 2 5 (s.fullWidth 504)) 18 1 = s.fullWidth 504
         ∧ (s.port 504).lt.width ≠ 0 ∧ 90 * windowBytes (s.port 504).lt.width ≤ 100 * 1000000000)
    ∧ (let s := ltPort (fun l => { l with state := .narrowing, initiator := true, txId := 5, locked := true, target := 2 })
       s.takesLt 504 3 (ltFrame 3 5 2) ∧ (s.port 504).lt.txId = fld (ltFrame 3 5 2) 17 1 ∧ (s.port 504).lt.haveAck = false
         ∧ s.takesLt 504 4 (ltFrame 4 5 2) ∧ (s.port 504).lt.sentSwitch = false ∧ (s.port 504).lt.sends < 3)
    ∧ (let s := ltPort (fun l => { l with state := .narrowing, initiator := true, sends := 3 }); 3 ≤ (s.port 504).lt.sends)
    ∧ (let s := ltPort (fun l => { l with state := .narrowing, initiator := false, txId := 5, haveAck := true, target := 2 })
       s.takesLt 504 5 (ltFrame 5 5 2) ∧ (s.port 504).lt.txId = fld (ltFrame 5 5 2) 17 1 ∧ (s.port 504).lt.haveAck = true
         ∧ s.queuedBytes 504 < 1024 * (s.port 504).lt.depth ∧ (s.port 504).lt.initiator = false)
    ∧ (let s := ltPort (fun l => { l with state := .widening, initiator := true, sentSwitch := true, haveAck := true, txId := 5, sends := 3 })
       s.takesLt 504 5 (ltFrame 5 5 4) ∧ (s.port 504).lt.sentSwitch = true ∧ (s.port 504).lt.locked = false)
    ∧ (let s := ltPort (fun l => { l with state := .full, threshold := 90, dwell := 1, quietWindows := 1000, partnerCaps := 3 })
       (s.port 504).lt.narrowTo ≠ 0 ∧ 100 * 0 < (s.port 504).lt.threshold * windowBytes (s.port 504).lt.narrowTo
         ∧ 100 * (s.port 504).lt.dwell ≤ (s.port 504).lt.quietWindows + 1) := by
  unfold State.takesLt State.takesCtl; and_intros <;> decide +kernel

theorem witness_CreditRows :
    up.recalls 15 32799 = false
    ∧ (let s := ((up.updVoq 15 32799 (fun q => { q with credit := 64 })).updVoq 14 32799 (fun q => { q with reqAtEgress := 64 })).updFabPort
         (voqPort 32799) (voqClass 32799) (fun f => { f with outstanding := f.window })
       s.recalls 15 32799 = true ∧ (s.voq 15 32799).q = []) ∧
    voqExists 15 32799 = true ∧ (up.voq 15 32799).fresh = false ∧ (up.voq 15 32799).unreq < up.quantum 32799
    ∧ (let s := up.updVoq 15 32799 (fun q => { q with fresh := true, unreq := 64 }); (s.voq 15 32799).fresh = true)
    ∧ (let s := up.updVoq 15 (voqNo 515 7 0) (fun q => { q with reqAtEgress := 4096 })
       (s.node 515).shaper.lets = true ∧ s.windowRoom 515 7 = true
         ∧ s.nextSlice (voqNo 515 7 0) (s.node (tenKey 515 7 0)).rrSlice = some 15)
    ∧ (let s := (List.range 8).foldl (fun s c => s.updFabPort 515 c (fun f => { f with outstanding := f.window })) up
       ∀ c, c < 8 → s.windowRoom 515 c = false)
    ∧ (up.voq 15 32799).q = []
    ∧ (let s := holding (up.updVoq 15 32799 (fun q => { q with q := [9], granted := 4096 })) { Pkt.init with whole := true, bytes := plain 60, rxLen := 64 }
       (s.voq 15 32799).q = [9] ∧ (s.pkt 9).whole = true ∧ (s.voq 15 32799).q ≠ []
         ∧ 0 < (s.voq 15 32799).credit + (((s.voq 15 32799).granted + 2 ^ 32 - (s.voq 15 32799).received) % 2 ^ 32 : Nat)) := by
  decide +kernel

/-- CreditRows: a network port's grant, and none. -/
theorem witness_NetworkGrant :
    (let s := (port511 id).updVoq 15 (voqNo 511 7 7) (fun q => { q with reqAtEgress := 4096 })
     (s.node 511).shaper.lets = true
       ∧ ((dwrr ((List.range 8).map (s.svcGrant 511)) (s.node 511).grPtr).map (fun r => r.1)) = some 7
       ∧ ((dwrr ((List.range 8).map (s.tenGrant 511 7)) (s.node (svcKey 511 7)).grPtr).map (fun r => r.1)) = some 7
       ∧ s.nextSlice (voqNo 511 7 7) (s.node (tenKey 511 7 7)).rrSlice = some 15)
    ∧ (∀ c, c < 8 → (up.svcGrant 511 c).ok = false)
    ∧ ((up.updNode 511 (fun n => { n with shaper := { n.shaper with enable := true, tokens := 0 } })).node 511).shaper.lets = false := by
  decide +kernel

/-- A cell of pair (15, 15) with sequence number `n`. -/
def cellNo (n : Nat) : Cell := { seq := n, src := 15, dst := 15, multi := false, port := 511, tc := 0, slot := 0, sop := false,
                                 eop := true, words := 1, pkt := 9 }
/-- The cell lies on a link. -/
def onLink (l n : Nat) (lost : Bool) (sends : Nat) : State :=
  { up with fab := { up.fab with links := [{ cell := cellNo n, link := l, sends, since := 0, lost, num := 0, retries := 100, budgetNs := 1000 }] } }

theorem witness_CellRows :
    (let s := holding (up.updPair 15 15 (fun p => { p with sending := [{ pkt := 9, next := 0, multi := false }] }))
       { Pkt.init with whole := true, bytes := plain 60, dests := [511] }
     (∀ c, c < 8 → Tab.get [] s.fab.multiQ (8 * 15 + c) = [])
       ∧ (s.dstOrder 15).find? (fun d => (s.pairReady 15 d).1 && (s.pairReady 15 d).2) = some 15 ∧ (s.pickPlane 15).isSome = true)
    ∧ ([15, 159].all (fun l => let s := onLink l 3 false 1
        decide (s.fab.links.find? (fun x => x.link == l && !x.lost) = some ⟨cellNo 3, l, 1, 0, false, 0, 100, 1000⟩
          ∧ 0 < (3 + 65536 - (s.pair 15 15).expected) % 65536 ∧ (3 + 65536 - (s.pair 15 15).expected) % 65536 < 256))) = true
    ∧ 15 % 32 < 16 ∧ 16 ≤ 159 % 32
    ∧ (let s := onLink 159 3 true 1
       s.fab.links.find? (fun x => x.link == 159 && x.lost) = some ⟨cellNo 3, 159, 1, 0, true, 0, 100, 1000⟩ ∧ s.upNs - 0 ≤ 1000)
    ∧ (let s := onLink 159 3 true 200; s.fab.links.find? (fun x => x.link == 159 && x.lost) = some ⟨cellNo 3, 159, 200, 0, true, 0, 100, 1000⟩)
    ∧ (up.pair 15 15).gapOpen = false ∧ pairExists 15 15 = true
    ∧ (let s := up.updPair 15 15 (fun p => { p with gapOpen := true, stored := [(3, cellNo 3)] })
       (s.pair 15 15).gapOpen = true ∧ (s.pair 15 15).expected < 65536 ∧ (s.pair 15 15).stored = [((cellNo 3).seq % 256, cellNo 3)]
         ∧ (cellNo 3).sop = false)
    ∧ (∀ h, h < 4 → (up.fifo (2 * h + 1)).notices = 0) := by decide +kernel

theorem witness_PlaneRows :
    (up.plane 4).state ≠ .active ∧ (up.plane 3).state = .active ∧ up.freeStandby = some 4
    ∧ (List.range 5).find? (fun p => (up.plane p).switching) = none
    ∧ (List.range 5).find? (fun p => ((up.updPlane 4 (fun x => { x with switching := true })).plane p).switching) = some 4
    ∧ ((up.plane 4).state = .standby ∧ (up.plane 4).switching = false ∧ (up.plane 4).testLoss = [])
    ∧ (let s := up.updPlane 4 (fun x => { x with testLoss := [0] }); 0 ∈ (s.plane 4).testLoss ∧ s.upNs ≤ 0 + 1000000)
    ∧ ((up.updPlane 4 (fun x => { x with state := .resync })).plane 4).state = .resync := by decide +kernel

/-- WredAverage: a queue of the network ports and the last host queue, with an average that 2^w divides and one it does not. -/
theorem witness_WredAverage :
    (up.queue 32767).wredNext = none ∧ (up.queue 35064).wredNext = none ∧ 35064 % 8 = 0 ∧ 35064 < 35072
    ∧ (let s := up.updQueue 32767 (fun q => { q with cells := 1, avg := 1 })
       let p : WredProfile := { WredProfile.init with weight := 15 }
       let u : State := { s with buf := { s.buf with wred := [(0, p)] } }
       (Tab.get WredProfile.init u.buf.wred (u.queue 32767).profile).weight = 15
         ∧ ¬ ((2 : Int) ^ 15 ∣ 65536 * ((u.queue 32767).cells + (u.queue 32767).spilled) - (u.queue 32767).avg)) := by decide +kernel

/-- The item of packet 9 in an egress queue. -/
def item (started complete : Bool) : EgItem := { pkt := 9, src := 15, cells := [], complete, started, multi := false, stomp := false }
/-- Port 515 has packet 9 in its highest queue. -/
def hostQueue (started complete : Bool) (tx : Option Nat) (pk : Pkt) : State :=
  let s := (holding up pk).updPort 515 (fun q => { q with txPkt := tx, txQ := voqNo 515 7 0 })
  { s with sched := { s.sched with egq := [(voqNo 515 7 0, [item started complete])] } }

/-- Port 511 has packet 9 in the queue of class 7 and tenant slot 7. -/
def netQueue : State :=
  let s := holding (port511 id) { Pkt.init with bytes := plain 60 }
  { s with sched := { s.sched with egq := [(voqNo 511 7 7, [item false true])] } }

/-- TransmitRows: a network port's decision, and none; children of a DWRR of which one can be served. -/
theorem witness_NetworkTransmit :
    ((netQueue.port 511).txPkt = none ∧ (netQueue.port 511).link = true ∧ (netQueue.port 511).lpi = false
      ∧ (netQueue.port 511).ctlQueue = [] ∧ netQueue.waiting 511 = []
      ∧ ((netQueue.txService 511).map (fun r => r.1)) = some 7 ∧ ((netQueue.txTenant 511 7).map (fun q => q.1)) = some 7
      ∧ netQueue.txHead (voqNo 511 7 7) = some (item false true))
    ∧ ((port511 id).txService 511 = none ∧ ((port511 id).port 511).txPkt = none)
    ∧ (let k : Kid := { Kid.idle with ok := true, quantum := 256, charge := 65536, prio := 7 }
       let l := List.replicate 7 { Kid.idle with quantum := 256 } ++ [k]
       l.length = 8 ∧ (∀ x ∈ l, 256 ≤ x.quantum ∧ x.charge ≤ 65536) ∧ k ∈ l ∧ k.ok = true ∧ k.prio < 8
         ∧ (dwrr l (List.replicate 8 0)).isSome = true) := by
  and_intros <;> decide +kernel

theorem witness_TransmitRows :
    (up.port 511).link = false ∧ (up.port 511).txPkt = none
    ∧ (netQueue.updPort 511 (fun q => { q with txPkt := some 9 }) |>.port 511).txPkt ≠ none
    ∧ (let s := port511 (fun q => { q with ctlQueue := [[1]] }); (s.port 511).link = true ∧ (s.port 511).lpi = false)
    ∧ (let s := (hostQueue false false none { Pkt.init with bytes := plain 60 }).updFifo 6 (fun f => { f with enable := true })
       (s.port 515).txPkt = none ∧ s.txHead (voqNo 515 7 0) = some (item false false) ∧ (s.node 515).shaper.lets = true
         ∧ ((s.fifo (2 * (515 - 512))).place (hpfWords ((s.pkt 9).outLen 515 - 4))).isSome = true)
    ∧ (let s := (holding up Pkt.init).updPort 511 (fun q => { q with txPkt := some 9, txQ := 32767 })
       let u : State := { s with sched := { s.sched with egq := [(32767, [item true true])] } }
       (u.port 511).txPkt = some 9 ∧ (u.egq (u.port 511).txQ).find? (fun i => i.pkt == 9 && i.started && i.complete) = some (item true true))
    ∧ nodeExists 40959 = true ∧ (up.node 40959).shaper.pend = none ∧ (up.node 40959).shaper.enable = false
    ∧ (let s := up.updNode 40959 (fun n => { n with shaper := { n.shaper with enable := true, rate := 1600000000, burst := 67108864 } })
       (s.node 40959).shaper.enable = true ∧ (s.node 40959).shaper.last ≤ s.time.units)
    ∧ (up.policer 131071).pend = none ∧ (up.policer 131071).last ≤ up.time.units
    ∧ (parked15.sliceSt 15).state = .parked
    ∧ ((up.sliceSt 15).state ≠ .parked ∧ (up.loupeNext 15 600 (Tab.get 0 up.sched.cursor 15)).isSome = true) := by
  and_intros <;> decide +kernel

theorem witness_Spill :
    spillKey 15 32799 ∉ up.buf.spillVoqs
    ∧ (let s : State := { up with buf := { up.buf with spillVoqs := [spillKey 15 32799] } }
       spillKey 15 32799 ∈ s.buf.spillVoqs ∧ 2 * s.voqCells 15 32799 ≤ (s.classCfg (voqClass 32799)).spillThr
         ∧ (s.voq 15 32799).spillQ = [])
    ∧ (let s := (holding up { Pkt.init with whole := true, slice := 15, bytes := plain 60 }).updVoq 15 32799 (fun q => { q with spillQ := [9] })
       (s.voq 15 32799).spillQ = [9] ∧ (s.pkt 9).whole = true ∧ (s.pkt 9).id = 9 ∧ (s.pkt 9).slice = 15
         ∧ (s.pkt 9).nCells ≤ s.unreserved ∧ s.voqCells 15 32799 < (s.classCfg (voqClass 32799)).spillThr) := by
  and_intros <;> decide +kernel

/-- A MAC seen at port 511. -/
def seen : LearnEv := { port := 511, fid := 0, mac := 5, vxlan := false, vrf := 0, outer := [] }
/-- One learned entry at place 2,098,175, the last of the stash. -/
def oneEntry (e : EmEntry) : State := { up with fwd := { up.fwd with em := [(2098175, e)], agePeriod := 1 } }

theorem witness_TableRows :
    Tab.get [] up.fwd.learnQ 15 = []
    ∧ (let s : State := { up.updPort 511 (fun q => { q with learnLimit := 1 }) with fwd := { up.fwd with learnQ := [(15, [seen])] } }
       Tab.get [] s.fwd.learnQ 15 = [seen] ∧ s.fwd.entryOf 1 (keyMac seen.fid seen.mac) s.fwd.gen = none
         ∧ s.fwd.learnedCount seen.port < (s.port seen.port).learnLimit
         ∧ (s.fwd.insertEntry (learnedEntry seen (emWord 1 seen.port) (s.liveVis 1 (keyMac seen.fid seen.mac)))).isSome = true)
    ∧ ([true, false].all (fun a => [true, false].all (fun h => [true, false].all (fun st =>
        let e := { macEntry with age := a, hit := h, stale := st, learned := true }
        decide (Tab.find (oneEntry e).fwd.em 2098175 = some e ∧ (oneEntry e).fwd.agePeriod ≠ 0))))) = true
    ∧ ({ up with fwd := { up.fwd with agePeriod := 0 } } : State).fwd.agePeriod = 0 := by and_intros <;> decide +kernel

theorem witness_Scrub :
    786431 < scrubSize 7 ∧ 2098175 < scrubSize 0
    ∧ emAt (oneEntry { macEntry with bad := true, shadow := false }).fwd.em 2098175
        = some (2098175, { macEntry with bad := true, shadow := false })
    ∧ ({ up with fwd := { up.fwd with badTable := [(7, 786431, Prefix.init)] } } : State).fwd.badAt 7 786431 = true
    ∧ up.fwd.badAt 7 786431 = false
    ∧ up.fwd.normPending = false ∧ ({ up with fwd := { up.fwd with normPending := true } } : State).fwd.normPending = true
    ∧ up.fwd.inGenPrev = 0 ∧ up.fwd.gen ≤ 1 := by and_intros <;> decide +kernel

/-- Stream 65,535 recovers and tests for latent errors. -/
def recovering : State :=
  let c : FrerCfg := { FrerCfg.init with recover := true, latent := true, paths := 2, diff := 0 }
  let s := up.updStream 65535 (fun f => { f with timer := true, latPassed := 5 })
  { s with fwd := { s.fwd with gen0 := { s.fwd.gen0 with frer := [(65535, c)] }, gen1 := { s.fwd.gen1 with frer := [(65535, c)] } } }

theorem witness_Frer :
    (up.stream 65535).timer = false ∧ (up.frerNow 65535).latent = false
    ∧ (recovering.frerNow 65535).recover = true ∧ (recovering.stream 65535).timer = true ∧ (recovering.frerNow 65535).latent = true
    ∧ (recovering.frerNow 65535).diff < (((recovering.stream 65535).latPassed * ((recovering.frerNow 65535).paths - 1) : Nat)
      - ((recovering.stream 65535).latDisc : Nat) : Int).natAbs := by and_intros <;> decide +kernel

theorem witness_RedundancyRows :
    ((up.cluster 15).slotOf 12 = none ∧ 12 ∈ (up.cluster 15).ready ∧ (up.cluster 15).slotOf 11 = some 11
      ∧ (up.cluster 15).pendSub = [] ∧ (up.cluster 15).ready ≠ [])
    ∧ ((hurt.cluster 15).ready = [] ∧ (hurt.cluster 15).slotOf 11 = some 11)
    ∧ 12 ∈ ((up.updCluster 15 (fun c => { c with testing := [12] })).cluster 15).testing
    ∧ (let s := up.updCluster 15 (fun c => { c with slots := c.slots.set 11 none, failed := [11], pendSub := [(11, 11)] })
       (s.cluster 15).pendSub = (11, 11) :: [] ∧ (s.cluster 15).ready = 12 :: [])
    ∧ (let s := up.updCluster 15 (fun c => { c with slots := c.slots.set 11 none, failed := [11, 12], pendSub := [(11, 11)] })
       (s.cluster 15).pendSub = (11, 11) :: [] ∧ (s.cluster 15).ready = [])
    ∧ ((up.mp 0).state = .active ∧ (up.mp 1).state = .standby ∧ up.pwr.failing = none ∧ up.mpIn .active = some 0 ∧ up.mpIn .standby ≠ none)
    ∧ 9 ≤ ((up.updMp 0 (fun m => { m with consec := 9 })).mp 0).consec ∧ 9 ≤ ((up.updMp 1 (fun m => { m with consec := 9 })).mp 1).consec
    ∧ (up.mp 1).consec < 9 ∧ hurt.mpIn .standby = none ∧ hurt.mpIn .active = some 0
    ∧ inGap.pwr.failing = some 1 ∧ inGap.mpIn .standby ≠ none ∧ (∀ j ∈ inGap.mbx.gapCmds, j.req.box ≠ fwdBox)
    ∧ ([1, 3].all (fun c =>
        let s : State := { hurt with pwr := { hurt.pwr with failing := some c } }
        decide (s.pwr.failing = some c ∧ s.mpIn .active = some 0 ∧ s.mpIn .standby = none))) = true
    ∧ (let s : State := { up with pwr := { up.pwr with failing := some 3 } }
       s.pwr.failing = some 3 ∧ s.mpIn .active = some 0 ∧ s.mpIn .standby = some 1)
    ∧ (hurt.mp 1).state = .failed ∧ (hurt.mp 1).restarted = false
    ∧ ((up.updMp 1 (fun m => { m with state := .resync })).mp 1).state = .resync := by and_intros <;> decide +kernel

/-- Target 65,535 in state `x`, holding for its wake, with packet 9 parked. -/
def parkedAt (x : TgtState) : State :=
  (holding up { Pkt.init with dests := [0], whole := true }).updTarget 65535 (fun t => { t with valid := true, state := x, holdOn := true, parkQ := [9] })

theorem witness_Targets :
    (up.target 65535).holdOn = false ∧ (up.target 65535).valid = false
    ∧ ([TgtState.asleep, .waking].all (fun x => decide (((parkedAt x).target 65535).holdOn = true
        ∧ ((parkedAt x).target 65535).state = x ∧ ((parkedAt x).target 65535).parkQ = [9] ∧ ((parkedAt x).pkt 9).id = 9))) = true
    ∧ (let s := (tgt .awake).updTarget 0 (fun t => { t with eff := { PClass.init with idle := 86400, hold := 1 } })
       let u : State := { s with proof := { s.proof with classes := [(0, { PClass.init with hold := 1 })] } }
       (u.target 0).valid = true ∧ (u.target 0).state = .awake ∧ (u.tgtClass (u.target 0)).idle ≠ 0)
    ∧ (let s := parkedAt .draining
       (s.target 65535).state = .draining ∧ (s.target 65535).parkQ = 9 :: [] ∧ s.releasePaused (s.pkt 9) ((s.pkt 9).dests.headD 0) = false
         ∧ (s.target 65535).invalidate = false ∧ (s.target 65535).pendSpindle = none)
    ∧ (let s := (parkedAt .draining).updTarget 65535 (fun t => { t with parkQ := [9, 8] }); (s.target 65535).parkQ = 9 :: [8])
    ∧ (let s := (parkedAt .draining).updQueue (queueKey 0 0 0) (fun q => { q with shared := 10000000 })
       s.releasePaused (s.pkt 9) ((s.pkt 9).dests.headD 0) = true) := by and_intros <;> decide +kernel

/-- Bus 3 polls drop 31 next; or awaits its reply of type `ty`. -/
def bus3 (f : Bus → Bus) : State := (up.updBus 3 (fun b => f { b with enable := true })).updDrop 3 31 (fun d => { d with cmd := some (1, [2]) })

theorem witness_Shelves :
    (up.bus 3).enable = false ∧ (let s := bus3 id; (s.bus 3).enable = true ∧ (s.bus 3).slots = [] ∧ (s.bus 3).await = none)
    ∧ (let s := bus3 (fun b => { b with slots := [31] }); (s.bus 3).slots = 31 :: [] ∧ (s.bus 3).slots ≠ [] ∧ (s.bus 3).await = none)
    ∧ ([0x81, 0x82, 0x84].all (fun ty => decide (((bus3 (fun b => { b with await := some (31, ty) })).bus 3).await = some (31, ty)))) = true
    ∧ (zeros 4).length = 4 ∧ (zeros 36).length = 36 ∧ ((bus3 id).drop 3 31).cmd = some (1, [2])
    ∧ (rdBe (zeros 4) 0 2 = ((bus3 id).drop 3 31).cmdSeq ∧ rdBe (zeros 4) 2 1 = 0)
    ∧ rdBe [0, 1, 0, 0] 0 2 ≠ ((bus3 id).drop 3 31).cmdSeq := by and_intros <;> decide +kernel

/-- The last pool with the buffers `l` of its 16,384 out. -/
def poolWith (l : List Nat) : State := { up with buf := { up.buf with pool3 := { up.buf.pool3 with used := l } } }

theorem poolWith_used (l : List Nat) : ((poolWith l).buf.pool 3).used = l := rfl
theorem poolWith_alarm (l : List Nat) : ((poolWith l).buf.pool 3).alarm = false := rfl
theorem poolWith_ptr (l : List Nat) : (poolWith l).poolPtr ((poolWith l).regionBase 2 + 3 * 2 ^ 30 + 65536) = some (3, 1) := by
  change up.poolPtr (up.regionBase 2 + 3 * 2 ^ 30 + 65536) = some (3, 1)
  decide +kernel
theorem poolWith_pick (l : List Nat) :
    (poolWith l).buf.poolPick (poolFor 65536) = if l.length < 16384 then some 3 else none := by
  by_cases h : l.length < 16384 <;>
    simp [BufSt.poolPick, show poolFor 65536 = 3 by decide, poolWith_used, h, show poolCount 3 = 16384 by decide]

/-- PoolLowAlarm, its low clauses: 16,200 buffers out, 0 the lowest free one and 1 freed. -/
theorem lowPool (l : List Nat) (n : l.length = 16199) (h : ∀ x ∈ l, x ≠ 1) :
    let s := poolWith (1 :: l)
    s.buf.poolPick (poolFor 65536) = some 3 ∧ (s.buf.pool 3).alarm = false
    ∧ 64 * (poolCount 3 - (insertRising (lowestFree 0 (s.buf.pool 3).used) (s.buf.pool 3).used).length) < poolCount 3
    ∧ s.poolPtr (s.regionBase 2 + 3 * 2 ^ 30 + 65536) = some (3, 1) ∧ 1 ∈ (s.buf.pool 3).used
    ∧ 32 * (poolCount 3 - (without (s.buf.pool 3).used 1).length) ≤ poolCount 3 := by
  have k : poolCount 3 = 16384 := by decide
  have f : l.filter (· != 1) = l := by rw [List.filter_eq_self]; intro x hx; simpa using h x hx
  refine ⟨?_, rfl, ?_, poolWith_ptr _, ?_, ?_⟩
  · rw [poolWith_pick, List.length_cons, n]; decide
  · rw [poolWith_used]; simp [lowestFree, insertRising, n, k]
  · rw [poolWith_used]; simp
  · rw [poolWith_used, without, List.filter_cons_of_neg (by simp), f, n, k]; decide

/-- PoolLowAlarm: a pool that has plenty; one that falls below 1/64 with its next buffer; one whose alarm is set; a free that
leaves more than 1/32 and one that does not. -/
theorem witness_PoolLowAlarm :
    (up.buf.poolPick (poolFor 65536) = some 3 ∧ (up.buf.pool 3).alarm = false
      ∧ poolCount 3 ≤ 64 * (poolCount 3 - (insertRising (lowestFree 0 (up.buf.pool 3).used) (up.buf.pool 3).used).length))
    ∧ (∃ s : State, s.buf.poolPick (poolFor 65536) = some 3 ∧ (s.buf.pool 3).alarm = false
      ∧ 64 * (poolCount 3 - (insertRising (lowestFree 0 (s.buf.pool 3).used) (s.buf.pool 3).used).length) < poolCount 3
      ∧ s.poolPtr (s.regionBase 2 + 3 * 2 ^ 30 + 65536) = some (3, 1) ∧ 1 ∈ (s.buf.pool 3).used
      ∧ 32 * (poolCount 3 - (without (s.buf.pool 3).used 1).length) ≤ poolCount 3)
    ∧ ({ up.buf.pool3 with alarm := true } : Pool).alarm = true
    ∧ (let s := poolWith [1]
       s.poolPtr (s.regionBase 2 + 3 * 2 ^ 30 + 65536) = some (3, 1) ∧ 1 ∈ (s.buf.pool 3).used
         ∧ poolCount 3 < 32 * (poolCount 3 - (without (s.buf.pool 3).used 1).length)) := by
  refine ⟨by decide +kernel, ⟨_, lowPool (List.range' 2 16199) List.length_range' ?_⟩, rfl, by decide +kernel⟩
  intro x hx
  rw [List.mem_range'_1] at hx
  omega

/-- PoolFifoRows: no pool serves 65,536 bytes, a pointer of no pool; buffers that are there are above. -/
theorem witness_PoolFifoRows :
    (∃ s : State, s.buf.poolPick (poolFor 65536) = none) ∧ up.poolPtr 0 = none ∧ (up.fifo 7).writing = [] :=
  ⟨⟨poolWith (List.range 16384), by rw [poolWith_pick, List.length_range]; decide⟩, by decide +kernel, by decide +kernel⟩

theorem witness_Fifos :
    (let s := up.updFifo 7 (fun f => { f with enable := true, writing := [1] })
     (s.fifo (2 * 3 + 1)).writing ≠ [] ∧ ((s.fifo (2 * 3 + 1)).place (ceilDiv (s.fifo (2 * 3 + 1)).writing.length 32)).isSome = true)
    ∧ (let s := up.updFifo 7 (fun f => { f with enable := false, writing := [1] })
       (s.fifo (2 * 3 + 1)).place (ceilDiv (s.fifo (2 * 3 + 1)).writing.length 32) = none)
    ∧ (let s := up.updFifo 7 (fun f => { f with enable := true, writing := zeros 32, used0 := 2048, used1 := 2048, bank0 := [[1]], bank1 := [[1]] })
       (s.fifo (2 * 3 + 1)).enable = true ∧ (s.fifo (2 * 3 + 1)).place (ceilDiv (s.fifo (2 * 3 + 1)).writing.length 32) = none)
    ∧ (up.port (512 + 3)).txPkt = none
    ∧ ([true, false].all (fun c => [true, false].all (fun st => [true, false].all (fun cut => [true, false].all (fun gap =>
        let i : EgItem := { item true c with stomp := gap }
        let s := hostQueue true c (some 9) { Pkt.init with stomp := st, midCut := cut }
        let u : State := { s with sched := { s.sched with egq := [(voqNo 515 7 0, [i])] } }
        decide ((u.port (512 + 3)).txPkt = some 9 ∧ (u.egq (u.port (512 + 3)).txQ).find? (fun i => i.pkt == 9 && i.started) = some i
          ∧ (u.pkt 9).stomp = st ∧ (u.pkt 9).midCut = cut ∧ i.stomp = gap)))))) = true := by
  and_intros <;> decide +kernel

/-- A set of one table write and one of one Prism write. -/
def vlanCmd : StagedCmd := { op := 0x0404, payload := zeros 146 }
def prismCmd : StagedCmd := { op := 0x0303, payload := zeros 12 }
/-- A write of the wide key of zeros, for which `fullTable` has no room. -/
def wideCmd : StagedCmd := { op := 0x0401, payload := pl [(1, 6), (3, 0), (8, 0)] ++ zeros 48 }

theorem witness_BakeRows :
    up.bake.preparing = none ∧ up.bake.armed = none ∧ up.bake.dom = none ∧ up.drained = true
    ∧ (let b := { set1 with state := .preparing, now := true }
       let s := withSet up b
       s.bake.preparing = some b ∧ b.domain = false ∧ b.restore = false ∧ (s.prepare b.cmds).isSome = true)
    ∧ (let s : State := withSet { up with prism := { up.prism with inPrev := 1 } } { set1 with state := .preparing }; s.drained = false)
    ∧ ([[], [vlanCmd], [prismCmd]].all (fun l =>
        let b := { set1 with state := .armed, cmds := l }
        decide ((withSet up b).bake.armed = some b ∧ ((withSet up b).setRegions b.cmds).isNone = true))) = true
    ∧ [vlanCmd].any genWrite = true ∧ [vlanCmd].any prismWrite = false ∧ [prismCmd].any genWrite = false ∧ [prismCmd].any prismWrite = true
    ∧ ([true, false].all (fun go => [true, false].all (fun d =>
        let b := { set1 with state := .armed, domain := true, go, inDoubt := d }
        decide ((withSet up b).bake.armed = some b)))) = true := by and_intros <;> decide +kernel

/-- BakeRows: an instant that has not come; a region test that fails; a decided domain bake, with its own set and without. -/
theorem witness_BakeInstant :
    (let b := { set1 with state := .armed, sec := 10 }
     (withSet up b).bake.armed = some b ∧ (withSet up b).nowNs < b.at' ∧ (withSet up b).bake.dom = none)
    ∧ (let c : StagedCmd := { op := 0x0C02, payload := pl [(4, 49), (4, 24), (4, 4), (4, 4), (4, 2), (4, 13)] }
       let b := { set1 with state := .armed, cmds := [c] }
       let s := withSet (up.updFix 15 (fun f => { f with base := 1 })) b
       s.bake.armed = some b ∧ b.at' ≤ s.nowNs ∧ s.setRegions b.cmds = some [49, 24, 4, 4, 2, 13]
         ∧ s.regionTest [49, 24, 4, 4, 2, 13] = false ∧ b.domain = false ∧ b.restore = false)
    ∧ (let b := { set1 with state := .armed, domain := true, go := true, bakeId := 5 }
       let d : DomBake := { DomBake.init with id := 5, decided := true }
       let s := withSet up b
       let u : State := { s with bake := { s.bake with dom := some d } }
       u.bake.armed = some b ∧ b.at' ≤ u.nowNs ∧ u.bake.dom = some d ∧ u.setRegions b.cmds = none)
    ∧ (let d : DomBake := { DomBake.init with id := 5, decided := true }
       let s : State := { up with bake := { up.bake with dom := some d } }
       s.bake.armed = none ∧ s.bake.dom = some d ∧ d.at' ≤ s.nowNs ∧ s.bake.domSet d.id = none) := by
  and_intros <;> decide +kernel

/-- BakePrepareDone that finds no room. -/
theorem witness_BakeNoRoom :
    let b := { set1 with state := .preparing, cmds := [wideCmd] }
    (withSet fullTable b).bake.preparing = some b ∧ (withSet fullTable b).drained = true
      ∧ ((withSet fullTable b).prepare b.cmds).isSome = false := by and_intros <;> decide +kernel

/-- A tap with number `n`. -/
def tapNo (n : Nat) (core : Option Nat) : Tap := { Tap.init with id := n, core, committed := true }

theorem witness_WitnessRows :
    (up.fix 15).transit = []
    ∧ (let s := up.updFix 15 (fun f => { f with transit := [tapNo 4 none] })
       (s.fix 15).transit = tapNo 4 none :: [] ∧ (s.fix 15).notices.length < 8192 ∧ (s.fix 15).cur.full = false)
    ∧ (let s := up.updFix 15 (fun f => { f with taps := [tapNo 4 (some 11)] })
       (s.fix 15).taps.find? (fun t => t.core == some 11 && t.committed) = some (tapNo 4 (some 11))
         ∧ (s.fix 15).recHead - (s.fix 15).recTail ≠ s.recCapacity)
    ∧ (let s := up.updFix 15 (fun f => { f with taps := [tapNo 4 (some 11)], base := up.recCapacity })
       (s.fix 15).recHead - (s.fix 15).recTail = s.recCapacity)
    ∧ (let s := up.updFix 15 (fun f => { f with notices := [tapNo 4 none] })
       (s.fix 15).taps.find? (fun t => t.core == some 11 && t.committed) = none ∧ (s.cluster 15).slots.getD 11 none = some 11
         ∧ (s.fix 15).notices = tapNo 4 none :: [] ∧ (s.fix 15).recHead - (s.fix 15).recTail ≠ s.recCapacity)
    ∧ (up.cluster 15).slots.getD 11 none ≠ some 12 ∧ (up.fix 15).positions.length ≤ 0
    ∧ (let s := up.updFix 15 (fun f => { f with notices := [tapNo 4 none], cur := { f.cur with isOpen := true, recs := [(4, none)] } })
       (s.fix 15).positions[0]? = some (4, none) ∧ ((s.fix 15).taps ++ (s.fix 15).notices).find? (fun t => t.id == 4) = some (tapNo 4 none)
         ∧ (s.fix 15).cur.isOpen = true ∧ (s.fix 15).cur.due = none ∧ (s.fix 15).mustDefer = false)
    ∧ (up.fix 15).cur.isOpen = false
    ∧ (let s := up.updFix 15 (fun f => { f with signing := List.replicate 16 (1, []), cur := { f.cur with isOpen := true } })
       (s.fix 15).mustDefer = true ∧ (s.fix 15).signing = (1, []) :: List.replicate 15 (1, [])
         ∧ (s.fix 15).rcHead - (s.fix 15).rcTail ≠ 65536)
    ∧ ([none, some ([] : List Byte)].all (fun x =>
        let b := { Batch.init with recs := [(4, x)], due := some 1 }
        let s := up.updFix 15 (fun f => { f with due := [b] })
        decide ((s.fix 15).due = b :: [] ∧ b.written = x.isSome ∧ (s.fix 15).mustDefer = false))) = true
    ∧ (up.fix 15).cur.deferred = false ∧ ((up.updFix 15 (fun f => { f with cur := { f.cur with deferred := true } })).fix 15).cur.deferred = true
    ∧ (up.fix 15).signing = [] := by and_intros <;> decide +kernel

/-- A full queue of skip notices, and one entry in transit. -/
theorem witness_fullNotices (l : List Tap) :
    let s := up.updFix 15 (fun f => { f with notices := l, transit := [tapNo 4 none] })
    (s.fix 15).notices = l ∧ (s.fix 15).transit = [tapNo 4 none] := ⟨rfl, rfl⟩
theorem witness_length : 8192 ≤ (List.replicate 8192 (tapNo 4 none)).length := by
  exact Nat.le_of_eq List.length_replicate.symm

/-- A received frame of 64 bytes. -/
def dmRaw (ok : Bool) : DomIn := { dm [] with fcsOk := ok, raw := zeros 60 }
/-- Port 0 carries the domain, at worker 5 and at a manager whose worker 63 is enrolled; the sessions are in their second key epoch. -/
def domPort (s : State) : State := s.updPort 0 (fun q => { q with domainPort := true, link := true })
def worker : State :=
  let s := domPort (hand.updPeer 0 (fun e => { e with enrolled := true, keyEpoch := 1 }))
  { s with bake := { s.bake with enrolled := true, ownIdx := 5 } }
def manager : State := domPort (led.updPeer 63 (fun e => { e with keyEpoch := 1 }))
/-- A worker that is to enrol. -/
def fresh5 : State := domPort hand
/-- A message to worker 5, and one from worker 63 to the manager. -/
def toWorker (body : List Byte) : DomIn := { dm body with receiver := 5 }
def from63 (body : List Byte) : DomIn := { dm body with sender := 63 }
/-- The message with the tags that its receiver `s` expects. -/
def sealFor (s : State) (ty : Nat) (m : DomIn) : DomIn := { m with tags := s.domTags ty m }
/-- One in clear text. -/
def clearMsg (m : DomIn) : DomIn := { m with keyEpoch := 0, tags := [noTag] }

/-- The conditions of `hearsDom` that do not look at the tags. -/
def hearsB (s : State) (m : DomIn) : Bool :=
  decide (m.port < 512) && s.domMine m && (s.port m.port).link && m.fcsOk && s.session m.sender
    && m.keyEpoch == (s.peer m.sender).keyEpoch && (frameSeqs m.seq m.body).all (s.peer m.sender).seqOk && !(s.peer m.sender).leaving

theorem hearsDom_sealFor {s : State} (ty : Nat) {m : DomIn} (h : hearsB s m = true) : s.hearsDom ty (sealFor s ty m) := by
  simp only [hearsB, Bool.and_eq_true, decide_eq_true_eq, Bool.not_eq_true'] at h
  obtain ⟨⟨⟨⟨⟨⟨⟨hp, hm⟩, hl⟩, hf⟩, hs⟩, hk⟩, hq⟩, hv⟩ := h
  refine ⟨hp, hm, hl, hf, ?_, .inl hv⟩
  have e : s.domTags ty (sealFor s ty m) = s.domTags ty m := rfl
  unfold State.authOk
  rw [e]
  simp only [Bool.and_eq_true]
  exact ⟨⟨⟨hs, beq_iff_eq.2 rfl⟩, hk⟩, hq⟩

/-- DomainChannelRows, DomainExchangeRows: messages of every type and body are heard, at a worker and at the manager, sealed. -/
theorem witness_hearsDom (ty : Nat) :
    worker.hearsDom ty (sealFor worker ty (toWorker [])) ∧ manager.hearsDom ty (sealFor manager ty (from63 []))
    ∧ inClear (sealFor worker ty (toWorker [])) = false ∧ inClear (sealFor manager ty (from63 [])) = false := by
  refine ⟨hearsDom_sealFor ty (by decide +kernel), hearsDom_sealFor ty (by decide +kernel), ?_, ?_⟩
  · simp [inClear, sealFor, toWorker, dm]
  · simp [inClear, sealFor, from63, dm]

/-- DomainChannelRows: no link; a bad FCS; a port that is not the domain's; another receiver; a sender without a session. -/
theorem witness_domainPorts :
    worker.role = 1 ∧ manager.role = 2 ∧ (up.port 0).link = false
    ∧ ((worker.port (dmRaw false).port).link = true ∧ (dmRaw false).fcsOk = false ∧ 60 ≤ (dmRaw false).raw.length
      ∧ (dmRaw false).raw.length + 4 ≤ (worker.port 0).maxLen)
    ∧ (let s := worker.updPort 0 (fun q => { q with domainPort := false })
       (s.port 0).link = true ∧ (dmRaw true).fcsOk = true ∧ s.domMine (toWorker []) = false)
    ∧ worker.domMine (dm []) = false ∧ worker.domMine (toWorker []) = true
    ∧ worker.authOk 1 { toWorker [] with sender := 7 } = false ∧ inClear { toWorker [] with sender := 7 } = false
    ∧ ((worker.domAccepted 1 (toWorker [])).domPorts 0 = [0] ∧ bit (worker.port 0).storm 7 = false)
    ∧ worker.bake.frozen = false := by and_intros <;> decide +kernel

/-- DomainChannelRows: RECEIVED in clear text; messages to send again, sealed and in clear text to no known peer; the timers; set-ups
of a session that succeed and that fail. -/
theorem witness_DomainChannelRows :
    (manager.domMine (clearMsg (from63 [])) = true ∧ inClear (clearMsg (from63 [])) = true)
    ∧ up.bake.msgs.find? (fun x => x.peer == 63 && x.id == 7) = none
    ∧ ([63, 255].all (fun p => [4, 5].all (fun n =>
        let x : DomMsg := { peer := p, id := 7, type := 0x30, body := [], sends := n, clear := if p = 255 then some 0 else none }
        let s : State := { up with bake := { up.bake with msgs := [x] } }
        decide (s.bake.msgs.find? (fun x => x.peer == p && x.id == 7) = some x ∧ x.type ≠ 0x10)))) = true
    ∧ up.role ≠ 2 ∧ (led.peer 63).enrolled = true
    ∧ (worker.role = 1 ∧ worker.bake.enrolled = true ∧ worker.bake.frozen = false) ∧ fresh5.bake.enrolled = false
    ∧ (let s := manager.updPeer 63 (fun e => { e with hash := [1] })
       let t : State := { s with bake := { s.bake with setup := some 0 } }
       (clearMsg (from63 [])).body = [] ∧ s.bake.setup = none ∧ t.bake.setup ≠ none ∧ t.bake.setup = some 0
         ∧ (clearMsg (from63 [0x13, 0x65])).body ≠ [] ∧ spdmCode (clearMsg (from63 [0x13, 0x65])).body ≠ spdmEndSession
         ∧ t.admittedAs [2] = none ∧ t.admittedAs [1] = some 63)
    ∧ (let m := clearMsg { dm [0x10, 0x84] with receiver := 255 }
       let k := clearMsg { dm [0x13, 0x65] with receiver := 255 }
       fresh5.role = 1 ∧ fresh5.enrols = true ∧ fresh5.domMine m = true ∧ inClear m = true ∧ spdmCode m.body = spdmGetVersion
         ∧ fresh5.domMine k = true ∧ inClear k = true ∧ k.body ≠ [] ∧ spdmCode k.body ≠ spdmEndSession ∧ spdmCode k.body ≠ spdmGetVersion
         ∧ fresh5.ident.pin = none ∧ fresh5.openPorts = [0] ∧ fresh5.bake.nextMsg < 65536
         ∧ ({ fresh5 with ident := { fresh5.ident with pin := some [1] } } : State).ident.pin = some [1])
    ∧ worker.enrols = false ∧ worker.domMine (clearMsg (toWorker [])) = true
    ∧ (manager.updPeer 63 (fun e => { e with keyUpd := true })).role = 2
    ∧ (spdmCode [0x13, 0x69] = spdmKeyUpdateAck ∧ spdmCode [0x13, 0xE9] = spdmKeyUpdate ∧ spdmCode [0x13, 0xEC] = spdmEndSession)
    ∧ (led.peer 1).enrolled = false := by and_intros <;> decide +kernel

/-- DomainChannelRows: the sealed SPDM messages. -/
theorem witness_sealedSpdm :
    (let s := manager.updPeer 63 (fun e => { e with keyUpd := true })
     s.hearsDom 0x30 (sealFor s 0x30 (from63 [0x13, 0x69])) ∧ (s.peer 63).keyUpd = true)
    ∧ worker.hearsDom 0x30 (sealFor worker 0x30 (toWorker [0x13, 0xE9])) ∧ worker.hearsDom 0x30 (sealFor worker 0x30 (toWorker [0x13, 0xEC])) :=
  ⟨⟨hearsDom_sealFor 0x30 (by decide +kernel), by decide +kernel⟩, hearsDom_sealFor 0x30 (by decide +kernel),
   hearsDom_sealFor 0x30 (by decide +kernel)⟩

/-- A PREPARE of bake 5: set 1 at 10 s. -/
def prepare5 : List Byte := be 4 5 ++ be 4 1 ++ be 8 10 ++ be 4 0
/-- The worker's set 1 in a domain bake number 5. -/
def member (f : SetSt → SetSt) : State := withSet worker (f { set1 with state := .armed, domain := true, bakeId := 5 })
/-- The manager's domain bake number 5 of worker 63. -/
def leading (f : Member → Member) (decided : Bool) : State :=
  let d : DomBake := { DomBake.init with id := 5, epoch := 2, decided, members := [f { Member.init with idx := 63, set := 1 }] }
  { manager with bake := { manager.bake with dom := some d } }

theorem witness_DomainMember :
    (let s := withSet worker set1
     (leadFault s.nowNs 0 (((s.bake.set? 1).map SetSt.lead).getD 1000000)).isSome = true
       ∧ s.bake.set? (rdBe (toWorker prepare5).body 4 4) = some set1 ∧ s.bake.domSet (rdBe (toWorker prepare5).body 0 4) = none ∧ hearsB s (toWorker prepare5) = true ∧ leadFault s.nowNs 10000000000 set1.lead = none
       ∧ set1.state = .isOpen ∧ s.bake.inBake = none ∧ s.slicesBusy = false)
    ∧ ([true, false].all (fun d => [true, false].all (fun g => [true, false].all (fun c =>
        let s := member (fun b => { b with inDoubt := d, go := g, committed := c, acked := c })
        let b := { set1 with state := .armed, domain := true, bakeId := 5, inDoubt := d, go := g, committed := c, acked := c }
        decide (s.bake.domSet (rdBe (toWorker (be 4 5)).body 0 4) = some b ∧ hearsB s (toWorker (be 4 5)) = true ∧ s.bake.armed = some b ∧ s.role = 1 ∧ s.bake.frozen = false))))) = true
    ∧ rdBe (dm (be 4 5 ++ be 4 0)).body 4 1 = 0 ∧ rdBe (dm (be 4 5 ++ [1, 0, 0, 0])).body 4 1 ≠ 0
    ∧ up.role ≠ 1 := by and_intros <;> decide +kernel

/-- The checks of an empty set, whichever way the free value decides how many members there are. -/
theorem witness_prepareChecks (b : Bool) :
    (((withSet worker set1).domAccepted 0x20 (sealFor (withSet worker set1) 0x20 (toWorker prepare5))).drawn 1).checkCmds set1.cmds b = none := by
  cases b <;> decide +kernel

theorem witness_DomainLead :
    ([true, false].all (fun v => [true, false].all (fun c =>
        let d : DomBake := { DomBake.init with id := 5, epoch := 2, decided := c, members := [{ Member.init with idx := 63, set := 1, voted := v, acked := v }] }
        let s := leading (fun m => { m with voted := v, acked := v }) c
        decide (s.bake.dom = some d ∧ d.id = rdBe (from63 (be 4 5)).body 0 4 ∧ hearsB s (from63 (be 4 5)) = true ∧ s.role = 2)))) = true
    ∧ (let d : DomBake := { DomBake.init with id := 5, members := [{ Member.init with idx := 63, set := 1 }, { Member.init with idx := 62, set := 1 }] }
       let v := d.updMember 63 (fun x => { x with voted := true, acked := true })
       d.members.any (fun x => x.idx == 63 && !x.voted) = true ∧ v.members.all (·.voted) = false ∧ v.members.all (·.acked) = false)
    ∧ (let d : DomBake := { DomBake.init with id := 5, members := [{ Member.init with idx := 63, set := 1 }] }
       let v := d.updMember 63 (fun x => { x with voted := true, acked := true })
       v.members.all (·.voted) = true ∧ v.members.all (·.acked) = true)
    ∧ (let s : State := { manager with bake := { manager.bake with outcomes := [(5, 2)], fwdReqs := [(63, live [])] } }
       s.bake.outcomes.find? (fun o => o.1 == rdBe (from63 (be 4 5)).body 0 4) = some (5, 2)
         ∧ s.bake.fwdReqs.find? (fun f => f.1 == (from63 []).sender && rd f.2.payload 8 4 == rd (from63 (zeros 16)).body 0 4) = some (63, live []))
    ∧ manager.bake.outcomes.find? (fun o => o.1 == 5) = none ∧ manager.bake.dom = none := by
  and_intros <;> decide +kernel

/-- A forwarded DEV_ECHO of no bytes, one with a bad opcode, and a frozen worker. -/
theorem witness_Forward :
    (let m := sealFor worker 0x10 (toWorker (pl [(2, 0x0103), (2, 0), (4, 0), (4, 0), (4, 0)]))
     (fwdRequest m.body).1 = 0x0103 ∧ (fwdRequest m.body).2.async = false
       ∧ (worker.domAccepted 0x10 m).verdict 0x0103 (fwdRequest m.body).2 = .accept ∧ worker.mbx.ready = true
       ∧ worker.mbx.restarting = none ∧ worker.bake.frozen = false)
    ∧ (let m := sealFor worker 0x10 (toWorker (pl [(2, 0xFFFF), (14, 0)]))
       match (worker.domAccepted 0x10 m).verdict (fwdRequest m.body).1 (fwdRequest m.body).2 with | .refuse _ _ => true | _ => false) = true
    ∧ ({ worker with bake := { worker.bake with frozen := true } } : State).bake.frozen = true
    ∧ ({ worker with pwr := { worker.pwr with failing := some 1 } } : State).pwr.failing ≠ none := by
  and_intros <;> decide +kernel

/-- An SPDM session of a requester whose secret is one byte, and its secured message. -/
def secretSession (done : Bool) : SpdmSession :=
  { id := 7, ver := 0x13, done, log := [], hs := [], req := [1], rsp := [2], reqSeq := 0, rspSeq := 0, meas := [] }
def secretMsg (x : SpdmSession) (m : List Byte) : List Byte := ({ x with rsp := x.req, rspSeq := x.reqSeq } : SpdmSession).seal 0 m
/-- SMBus has agreed on version 1.3 and algorithms; its sessions. -/
def talking (l : List SpdmSession) : State := { up with ident := { up.ident with spdmNeg := [2], spdmVer := [(2, 0x13)], smb := l } }
/-- A KEY_EXCHANGE with the base point of P-384. -/
def keyExchange : List Byte := [0x13, 0xE4] ++ zeros 38 ++ be 48 pBaseX ++ be 48 pBaseY ++ zeros 2

/-- The responder opens a secured message of the requester. -/
theorem unseal_secretMsg (x : SpdmSession) (m : List Byte) (n : m.length + 18 < 65536)
    (h : (gcmStream (aesKeys ((sessionKey x.ver x.req).map (·.toNat))) (securedNonce x.ver x.req x.reqSeq) (m.length + 2)).length
      = m.length + 2) : x.unseal 0 (secretMsg x m) = some m := by
  have le2 : ∀ v, v < 65536 → ofLe (le 2 v) = v := by
    intro v hv; simp [le, ofLe, BitVec.toNat_ofNat]; omega
  have hp : (le 2 m.length ++ m).length = m.length + 2 := by simp [le]
  let hd : List Byte := le 4 x.id ++ le 0 x.reqSeq ++ le 2 (m.length + 18)
  let g := gcmSeal (sessionKey x.ver x.req) (securedNonce x.ver x.req x.reqSeq) hd (le 2 m.length ++ m)
  have hb : secretMsg x m = hd ++ (g.1 ++ g.2) := by
    simp only [secretMsg, SpdmSession.seal, seqBytes, hp, List.append_assoc, hd, g]
    simp [le]
  have hd6 : hd.length = 6 := rfl
  have c : g.1.length = m.length + 2 := (zipWith_xor_length _ _ (by rw [hp]; exact h)).trans hp
  have rdn : rd (secretMsg x m) 4 2 = m.length + 18 := by rw [hb]; exact le2 _ n
  have t16 : g.2.length = 16 := by simp only [g, gcmSeal, be, List.length_reverse]; rfl
  have k1 : (secretMsg x m).take 6 = hd := by rw [hb]; exact List.take_left' hd6
  have k2 : slice (secretMsg x m) 6 (m.length + 2) = g.1 := by
    rw [hb, slice, List.drop_left' hd6]; exact List.take_left' c
  have k3 : slice (secretMsg x m) (6 + (m.length + 2)) 16 = g.2 := by
    rw [hb, slice, ← List.append_assoc, List.drop_left' (by simp [hd6, c])]
    exact List.take_of_length_le (Nat.le_of_eq t16)
  have op := gcmOpen_gcmSeal (sessionKey x.ver x.req) (securedNonce x.ver x.req x.reqSeq) hd (le 2 m.length ++ m) (by rw [hp]; exact h)
  have inn : innerMsg 0 (le 2 m.length ++ m) = m := by
    have : rd (le 2 m.length ++ m) 0 2 = m.length := by rw [rd, slice]; exact le2 _ (by omega)
    rw [innerMsg, this]
    simp [slice, le]
  have sb : seqBytes 0 = 0 := rfl
  simp only [SpdmSession.unseal, sb, Nat.add_zero, rdn]
  rw [if_neg (by simp [rd, slice, ofLe, Nat.mod_one]), show m.length + 18 - 16 = m.length + 2 by omega,
    show 6 + (m.length + 18) - 16 = 6 + (m.length + 2) by omega, k1, k2, k3, op, Option.map_some, inn]

theorem witness_RestartSliceSpdmRows :
    up.mbx.ready = true ∧ State.reset.mbx.ready = false ∧ up.mbx.restarting = none
    ∧ (let s : State := { State.reset with mbx := { State.reset.mbx with restarting := some 2 } }; s.mbx.restarting = some 2 ∧ s.mbx.ready = false)
    ∧ (up.sliceSt 15).state = .active ∧ (parked15.sliceSt 15).state ≠ .active ∧ (up.sliceSt 15).between = false
    ∧ (let s := up.updSlice 15 (fun x => { x with state := .restoring, cause := 0 })
       (s.sliceSt 15).between = true ∧ s.mbx.restarting = none ∧ (s.sliceSt 15).cause ≠ 2)
    ∧ up.fnExists 0 = true ∧ spdmSupported 0x85 = false
    ∧ ([0x84, 0xE1, 0x81].all (fun c => spdmSupported c) && decide (Tab.get 0 up.ident.spdmVer 2 = 0)) = true
    ∧ ([0x10, 0x12, 0x13].all (fun v => decide (rd ([BitVec.ofNat 8 v, 0xE1] : List Byte) 0 1 = v ∧ rd ([BitVec.ofNat 8 v, 0xE1] : List Byte) 1 1 = 0xE1))) = true
    ∧ (let s : State := { up with ident := { up.ident with spdmVer := [(2, 0x13)] } }
       Tab.get 0 s.ident.spdmVer 2 = 0x13 ∧ rd ([0x12, 0x81] : List Byte) 0 1 ≠ 0x13 ∧ spdmPlain 0x81 = true ∧ 2 ∉ s.ident.spdmNeg
         ∧ 2 ∈ (talking []).ident.spdmNeg ∧ Tab.get 0 (talking []).ident.spdmVer 2 = 0x13 ∧ spdmInSession 0xE5 = true
         ∧ rd ([0x13, 0x82, 1] : List Byte) 2 1 % 16 ≠ 0 ∧ rd ([0x13, 0x83, 1] : List Byte) 2 1 ≠ 0 ∧ rd ([0x13, 0x83, 0] : List Byte) 2 1 = 0)
    ∧ (((talking []).ident.sessions 2).length < sessionLimit 2 ∧ keyExchangeOk [0x13, 0xE4] = false
      ∧ rd keyExchange 1 1 = 0xE4 ∧ keyExchangeOk keyExchange = true
      ∧ sessionLimit 2 ≤ ((talking [secretSession true]).ident.sessions 2).length) := by
  and_intros <;> decide +kernel

theorem secret_stream : ∀ n ∈ [4, 52], (gcmStream (aesKeys ((sessionKey 0x13 [1]).map (·.toNat))) (securedNonce 0x13 [1] 0) (n + 2)).length
    = n + 2 := by decide +kernel

/-- RestartSliceSpdmRows: a secured message of no session, one that does not verify, a FINISH with the right proof and one with
none, END_SESSION. -/
theorem witness_secured (done : Bool) :
    let x := secretSession done
    let s := { up with ident := { up.ident with doe0 := [x] } }
    let p := finishData x.ver x.req (x.log ++ [0x13, 0xE5, 0, 0])
    (up.ident.sessions 0).find? (fun y => y.id == rd (zeros 8) 0 4) = none
    ∧ (s.ident.sessions 0).find? (fun y => y.id == rd (le 4 7) 0 4) = some x ∧ x.unseal 0 (le 4 7) = none
    ∧ (∀ m ∈ [[0x13, 0xE5, 0, 0] ++ p, [0x13, 0xE5, 0, 0], [0x13, 0xEC, 0, 0]], x.unseal 0 (secretMsg x m) = some m ∧ rd m 0 1 = x.ver
      ∧ (s.ident.sessions 0).find? (fun y => y.id == rd (secretMsg x m) 0 4) = some x)
    ∧ slice ([0x13, 0xE5, 0, 0] ++ p) 4 48 = p ∧ slice [0x13, 0xE5, 0, 0] 4 48 ≠ p := by
  have l : (finishData 0x13 [1] [0x13, 0xE5, 0, 0]).length = 48 := by decide +kernel
  have h4 : ∀ m : List Byte, m.length = 4 → (secretSession done).unseal 0 (secretMsg (secretSession done) m) = some m := fun m hm =>
    unseal_secretMsg _ m (by omega) (by rw [hm]; exact secret_stream 4 (by decide))
  have found : ∀ m, [secretSession done].find? (fun y => y.id == rd (secretMsg (secretSession done) m) 0 4) = some (secretSession done) := by
    intro m
    have e : rd (secretMsg (secretSession done) m) 0 4 = 7 := by
      simp [secretMsg, SpdmSession.seal, rd, slice, le, ofLe, secretSession]
    rw [e]
    rfl
  refine ⟨by cases done <;> decide +kernel, by cases done <;> rfl, by cases done <;> decide +kernel, ?_, ?_, ?_⟩
  · intro m hm
    simp only [List.mem_cons, List.not_mem_nil, or_false] at hm
    rcases hm with rfl | rfl | rfl
    · exact ⟨unseal_secretMsg _ _ (by rw [List.length_append]; exact Nat.lt_of_le_of_lt (Nat.add_le_add_right (Nat.add_le_add_left (Nat.le_of_eq l) 4) 18) (by decide))
        (by rw [List.length_append]; show (gcmStream _ _ (4 + (finishData 0x13 [1] [0x13, 0xE5, 0, 0]).length + 2)).length = _; rw [l]
            exact secret_stream 52 (by decide)), rfl, found _⟩
    · exact ⟨h4 _ rfl, rfl, found _⟩
    · exact ⟨h4 _ rfl, rfl, found _⟩
  · rw [slice, List.drop_left' (by rfl)]
    exact List.take_of_length_le (Nat.le_of_eq l)
  · intro h
    have k := congrArg List.length h
    exact absurd (k.symm.trans (by rfl)) (by show ¬(finishData 0x13 [1] [0x13, 0xE5, 0, 0]).length = 0; rw [l]; decide)

/-- StepRunsFront, IdleTick, CommandsTouch, SvnOnlyByCommit, StepKeepsGood: a good state with an empty queue, and with one command,
whose steps answer next states; a device with both functions and a command whose operands are well formed. -/
theorem witness_steps :
    up.pending = [] ∧ (∃ t, step up = .next t) ∧ (∃ t, step { up with pending := [.ppsOutFall] } = .next t)
    ∧ (∃ t, exec .ppsOutFall up = .next t) ∧ (∀ r, Instr.ppsOutFall ≠ .idCommitSvn r) ∧ (∀ m, Instr.ppsOutFall ≠ .forwardReq m)
    ∧ namesFn1 (.hostLinkLoss 1) = true ∧ namesFn1 (.hostLinkLoss 0) = false ∧ up.ident.bifurcated = false
    ∧ (Instr.linkDown 511).wf = true ∧ ({ up with ident := { up.ident with bifurcated := true } } : State).ident.bifurcated = true :=
  ⟨rfl, ⟨_, rfl⟩, ⟨_, rfl⟩, ⟨_, rfl⟩, (by intro r h; cases h), (by intro m h; cases h), rfl, rfl, rfl,
   by decide +kernel, rfl⟩

/-- IdleTick: nothing is due; a console line is due and is not; what BAKE_INSTANT answers. -/
theorem witness_IdleTick :
    up.bake.armed = none ∧ up.bake.dom = none ∧ up.ident.console = none ∧ (∃ v, exec .bakeInstant up = .next v)
    ∧ (let s : State := { up with ident := { up.ident with console := some 0 } }; s.ident.console = some 0 ∧ s.upNs < 1000000000)
    ∧ (let s : State := { up with up := 800000000, ident := { up.ident with console := some 0 } }
       s.ident.console = some 0 ∧ 0 + 1000000000 ≤ s.upNs) :=
  ⟨rfl, rfl, rfl, ⟨_, rfl⟩, by decide +kernel, by decide +kernel⟩

theorem witness_good : up.Good := by
  constructor
  · unfold TimeBase.ok; decide +kernel
  · decide +kernel
  · unfold State.histOk; decide +kernel
  · unfold State.sessionsOk; decide +kernel
  · unfold State.heldOk; decide +kernel

/-! ### One-step tests -/

/-- R214, R217: a tick of 1.25 ns from the last nanosecond of a second carries into the seconds. -/
theorem test_tick_carries : (match step { up with time := { up.time with ns := 999999999 } } with
    | .next t => decide (t.time.sec = 1 ∧ t.time.ns = 0) | _ => false) = true := by decide +kernel

/-- R401: DEV_ECHO answers with its payload; R387: in mailbox 0. -/
theorem test_echo : (match exec (.devEcho (live [1, 2, 3])) up with
    | .next t => decide ((t.box 0).state = .responseReady ∧ (t.box 0).resp.drop 16 = [1, 2, 3] ∧ rd (t.box 0).resp 4 2 = stOk)
    | _ => false) = true := by decide +kernel

/-- R33, R390: MEM_SET_REGIONS without STAGE is answered NOT_PERMITTED. -/
theorem test_regions_need_stage : (match exec (.memSetRegions (live (zeros 24))) up with
    | .next t => decide (rd ((t.box 0).resp) 4 2 = stNotPermitted ∧ rd ((t.box 0).resp) 6 2 = dStageRequired) | _ => false) = true := by decide +kernel

/-- R516 and R517: the examples of the ball map, lane 417 and SHL_DE[2]. -/
theorem test_balls : ballUse 87 1 = .laneRx 417 false ∧ ballUse 86 1 = .laneRx 417 true ∧ ballUse 87 9 = .laneTx 417 false
    ∧ ballUse 86 9 = .laneTx 417 true ∧ ballUse 98 85 = .low (.shlDe 2) := by decide +kernel

end Sys2Proof.Tests
end

section
/-! PROOF. What every command leaves alone. -/

namespace Sys2Proof.Machine

/-- Every command changes parts that the table names for it, and no others. -/
theorem exec_frame (i : Instr) (s : State) : OutFrame (touches i) s (exec i s) :=
  match i with
  | .memGetMap r => execMemGetMap_frame r s
  | .memSetRegions r => execMemSetRegions_frame r s
  | .memGetHealth r => execMemGetHealth_frame r s
  | .portSetMode r => execPortSetMode_frame r s
  | .portGetStatus r => execPortGetStatus_frame r s
  | .portSetMac r => execPortSetMac_frame r s
  | .portSetFlow r => execPortSetFlow_frame r s
  | .portSetThrottle r => execPortSetThrottle_frame r s
  | .portSetEee r => execPortSetEee_frame r s
  | .portSetLaneMap r => execPortSetLaneMap_frame r s
  | .portGetMargin r => execPortGetMargin_frame r s
  | .portGetCounters r => execPortGetCounters_frame r s
  | .portSetAdmin r => execPortSetAdmin_frame r s
  | .portSetMargin r => execPortSetMargin_frame r s
  | .prismSetProfile r => execPrismSetProfile_frame r s
  | .prismSetSelect r => execPrismSetSelect_frame r s
  | .prismSetPort r => execPrismSetPort_frame r s
  | .prismWriteRule r => execPrismWriteRule_frame r s
  | .prismReadRule r => execPrismReadRule_frame r s
  | .prismGetCounters r => execPrismGetCounters_frame r s
  | .prismGetRuleCounters r => execPrismGetRuleCounters_frame r s
  | .prismGetEpoch r => execPrismGetEpoch_frame r s
  | .fwdInsert r => execFwdInsert_frame r s
  | .fwdDelete r => execFwdDelete_frame r s
  | .fwdLookup r => execFwdLookup_frame r s
  | .fwdSetVlan r => execFwdSetVlan_frame r s
  | .fwdSetRoute r => execFwdSetRoute_frame r s
  | .fwdSetNexthop r => execFwdSetNexthop_frame r s
  | .fwdSetEcmp r => execFwdSetEcmp_frame r s
  | .fwdSetTemplate r => execFwdSetTemplate_frame r s
  | .fwdSetRouter r => execFwdSetRouter_frame r s
  | .fwdSetLearn r => execFwdSetLearn_frame r s
  | .fwdSetAging r => execFwdSetAging_frame r s
  | .fwdFlush r => execFwdFlush_frame r s
  | .fwdGetCounters r => execFwdGetCounters_frame r s
  | .fwdGetOccupancy r => execFwdGetOccupancy_frame r s
  | .bufSetClass r => execBufSetClass_frame r s
  | .bufSetPortClass r => execBufSetPortClass_frame r s
  | .bufSetHeadroom r => execBufSetHeadroom_frame r s
  | .bufSetPfcTx r => execBufSetPfcTx_frame r s
  | .bufSetWredProfile r => execBufSetWredProfile_frame r s
  | .bufSetQueue r => execBufSetQueue_frame r s
  | .bufGetStatus r => execBufGetStatus_frame r s
  | .bufGetPort r => execBufGetPort_frame r s
  | .bufGetCounters r => execBufGetCounters_frame r s
  | .bufGetPools r => execBufGetPools_frame r s
  | .fabSetParams r => execFabSetParams_frame r s
  | .fabSetPort r => execFabSetPort_frame r s
  | .fabGetStatus r => execFabGetStatus_frame r s
  | .fabGetPair r => execFabGetPair_frame r s
  | .fabSetPlane r => execFabSetPlane_frame r s
  | .fabGetCounters r => execFabGetCounters_frame r s
  | .schedSetNode r => execSchedSetNode_frame r s
  | .schedGetNode r => execSchedGetNode_frame r s
  | .polSet r => execPolSet_frame r s
  | .polGet r => execPolGet_frame r s
  | .polSetPort r => execPolSetPort_frame r s
  | .loupeSetProfile r => execLoupeSetProfile_frame r s
  | .loupeSetQueue r => execLoupeSetQueue_frame r s
  | .loupeGet r => execLoupeGet_frame r s
  | .schedGetCounters r => execSchedGetCounters_frame r s
  | .timeGet r => execTimeGet_frame r s
  | .timeAdjust r => execTimeAdjust_frame r s
  | .timeSetPtp r => execTimeSetPtp_frame r s
  | .timeSetPort r => execTimeSetPort_frame r s
  | .timeSetPps r => execTimeSetPps_frame r s
  | .gateSetList r => execGateSetList_frame r s
  | .gateGetStatus r => execGateGetStatus_frame r s
  | .timeGetCounters r => execTimeGetCounters_frame r s
  | .frerSetStream r => execFrerSetStream_frame r s
  | .frerGetStream r => execFrerGetStream_frame r s
  | .frerSetPort r => execFrerSetPort_frame r s
  | .frerResetStream r => execFrerResetStream_frame r s
  | .redGetHealth r => execRedGetHealth_frame r s
  | .redSwitchover r => execRedSwitchover_frame r s
  | .redResync r => execRedResync_frame r s
  | .redGetCounters r => execRedGetCounters_frame r s
  | .fixSetCluster r => execFixSetCluster_frame r s
  | .fixGetFlow r => execFixGetFlow_frame r s
  | .fixGetLog r => execFixGetLog_frame r s
  | .fixRelease r => execFixRelease_frame r s
  | .fixFlush r => execFixFlush_frame r s
  | .fixGetReceipt r => execFixGetReceipt_frame r s
  | .leavenGetCluster r => execLeavenGetCluster_frame r s
  | .leavenSetEvents r => execLeavenSetEvents_frame r s
  | .leavenGetCore r => execLeavenGetCore_frame r s
  | .fixGetCounters r => execFixGetCounters_frame r s
  | .proofSetClass r => execProofSetClass_frame r s
  | .proofSetTarget r => execProofSetTarget_frame r s
  | .proofSetState r => execProofSetState_frame r s
  | .proofGetTarget r => execProofGetTarget_frame r s
  | .shelfSet r => execShelfSet_frame r s
  | .shelfGet r => execShelfGet_frame r s
  | .shelfSetBus r => execShelfSetBus_frame r s
  | .proofGetCounters r => execProofGetCounters_frame r s
  | .devGetInfo r => execDevGetInfo_frame r s
  | .devGetResult r => execDevGetResult_frame r s
  | .devEcho r => execDevEcho_frame r s
  | .devRestart r => execDevRestart_frame r s
  | .devGetCounters r => execDevGetCounters_frame r s
  | .bakeOpen r => execBakeOpen_frame r s
  | .bakeCheck r => execBakeCheck_frame r s
  | .bakeCommit r => execBakeCommit_frame r s
  | .bakeAbort r => execBakeAbort_frame r s
  | .bakeGetSet r => execBakeGetSet_frame r s
  | .domSetPort r => execDomSetPort_frame r s
  | .domAdmit r => execDomAdmit_frame r s
  | .domGetStatus r => execDomGetStatus_frame r s
  | .domForward r => execDomForward_frame r s
  | .domBake r => execDomBake_frame r s
  | .domAbort r => execDomAbort_frame r s
  | .domLeave r => execDomLeave_frame r s
  | .idGetInfo r => execIdGetInfo_frame r s
  | .idGetCert r => execIdGetCert_frame r s
  | .idGetMeasurements r => execIdGetMeasurements_frame r s
  | .idWriteImage r => execIdWriteImage_frame r s
  | .idVerifyImage r => execIdVerifyImage_frame r s
  | .idSetBoot r => execIdSetBoot_frame r s
  | .idCommitSvn r => execIdCommitSvn_frame r s
  | .idPinManager r => execIdPinManager_frame r s
  | .telSetMirror r => execTelSetMirror_frame r s
  | .telSetPortMirror r => execTelSetPortMirror_frame r s
  | .telGetMirror r => execTelGetMirror_frame r s
  | .telGetDrops r => execTelGetDrops_frame r s
  | .telGetCounters r => execTelGetCounters_frame r s
  | .pwrGetStatus r => execPwrGetStatus_frame r s
  | .pwrSetDroop r => execPwrSetDroop_frame r s
  | .pwrSetThermal r => execPwrSetThermal_frame r s
  | .pwrSliceReset r => execPwrSliceReset_frame r s
  | .pwrSlicePark r => execPwrSlicePark_frame r s
  | .pwrRestore r => execPwrRestore_frame r s
  | .pwrGetCounters r => execPwrGetCounters_frame r s
  | .mbxDoorbell box ind => execMbxDoorbell_frame box ind s
  | .mbxRelease box => execMbxRelease_frame box s
  | .mbxAreaWrite box off bytes => execMbxAreaWrite_frame box off bytes s
  | .timeCapture fn => execTimeCapture_frame fn s
  | .txtsPop fn slice => execTxtsPop_frame fn slice s
  | .dmaStart fn ch w => execDmaStart_frame fn ch w s
  | .dmaStop fn ch w => execDmaStop_frame fn ch w s
  | .dmaAbort fn ch w => execDmaAbort_frame fn ch w s
  | .dmaDoorbell fn ch w => execDmaDoorbell_frame fn ch w s
  | .descriptorFetched ch bytes => execDescriptorFetched_frame ch bytes s
  | .staleDescReread ch bytes => execStaleDescReread_frame ch bytes s
  | .dmaTransferDone ch err data => execDmaTransferDone_frame ch err data s
  | .strictFlushDone ch => execStrictFlushDone_frame ch s
  | .tailRefetched ch bytes => execTailRefetched_frame ch bytes s
  | .intPendingClear fn k w same => execIntPendingClear_frame fn k w same s
  | .intMapWrite fn n w => execIntMapWrite_frame fn n w s
  | .msixUnmask fn vec => execMsixUnmask_frame fn vec s
  | .reservedWrite fn off size => execReservedWrite_frame fn off size s
  | .badSizeAccess fn off size write => execBadSizeAccess_frame fn off size write s
  | .registerWrite fn off size w => execRegisterWrite_frame fn off size w s
  | .sweepSnap fn w => execSweepSnap_frame fn w s
  | .sweepRingReset fn loupe w => execSweepRingReset_frame fn loupe w s
  | .sweepHeadWrite fn loupe w => execSweepHeadWrite_frame fn loupe w s
  | .evtRingReset fn w => execEvtRingReset_frame fn w s
  | .evtEnableWrite fn w => execEvtEnableWrite_frame fn w s
  | .evtHeadWrite fn w => execEvtHeadWrite_frame fn w s
  | .porstNLow => execPorstNLow_frame s
  | .porstNRise role => execPorstNRise_frame role s
  | .wrstNLow => execWrstNLow_frame s
  | .wrstNRise => execWrstNRise_frame s
  | .moarasBootDone => execMoarasBootDone_frame s
  | .supplyFault => execSupplyFault_frame s
  | .pcieFunctionReset fn kind => execPcieFunctionReset_frame fn kind s
  | .hostLinkLoss fn => execHostLinkLoss_frame fn s
  | .d3hotEntry fn => execD3hotEntry_frame fn s
  | .droopTrip slice => execDroopTrip_frame slice s
  | .stretchHoldEnd slice recovered => execStretchHoldEnd_frame slice recovered s
  | .thermalSample readings => execThermalSample_frame readings s
  | .thermalClearTimer trip => execThermalClearTimer_frame trip s
  | .lifeHourTick avg => execLifeHourTick_frame avg s
  | .hbmCorrectableError stack pc row => execHbmCorrectableError_frame stack pc row s
  | .hbmUncorrectableRead stack pc region item => execHbmUncorrectableRead_frame stack pc region item s
  | .hbmPcSpareDone stack => execHbmPcSpareDone_frame stack s
  | .ppsInEdge => execPpsInEdge_frame s
  | .ppsInTimeout => execPpsInTimeout_frame s
  | .ppsOutEdge => execPpsOutEdge_frame s
  | .frameIngress port bytes full => execFrameIngress_frame port bytes full s
  | .frameTailReceived pkt fcsOk => execFrameTailReceived_frame pkt fcsOk s
  | .recirculationPass slice => execRecirculationPass_frame slice s
  | .mirrorQueueAdmit slice => execMirrorQueueAdmit_frame slice s
  | .pauseFrameReceived port bytes fcsOk => execPauseFrameReceived_frame port bytes fcsOk s
  | .pfcFrameReceived port bytes fcsOk => execPfcFrameReceived_frame port bytes fcsOk s
  | .pauseExpiry port tc => execPauseExpiry_frame port tc s
  | .pfcWatchdogExpiry port tc => execPfcWatchdogExpiry_frame port tc s
  | .pfcStormEndTimer port tc => execPfcStormEndTimer_frame port tc s
  | .pfcRefreshTimer port => execPfcRefreshTimer_frame port s
  | .linkDown port => execLinkDown_frame port s
  | .linkUp port => execLinkUp_frame port s
  | .ltCapReceived port bytes fcsOk => execLtCapReceived_frame port bytes fcsOk s
  | .ltReqReceived port bytes fcsOk => execLtReqReceived_frame port bytes fcsOk s
  | .ltAckReceived port bytes fcsOk => execLtAckReceived_frame port bytes fcsOk s
  | .ltNakReceived port bytes fcsOk => execLtNakReceived_frame port bytes fcsOk s
  | .ltSwitchReceived port bytes fcsOk => execLtSwitchReceived_frame port bytes fcsOk s
  | .ltCapTick port => execLtCapTick_frame port s
  | .ltCapTimeout port => execLtCapTimeout_frame port s
  | .ltUtilWindow port txBytes rxBytes => execLtUtilWindow_frame port txBytes rxBytes s
  | .ltReqTimeout port => execLtReqTimeout_frame port s
  | .ltSwitchTimeout port aligned => execLtSwitchTimeout_frame port aligned s
  | .lpiIdleTimer port => execLpiIdleTimer_frame port s
  | .marginSample lane height width => execMarginSample_frame lane height width s
  | .datapathFailure lane => execDatapathFailure_frame lane s
  | .voqRequest slice voq => execVoqRequest_frame slice voq s
  | .grantDecision port => execGrantDecision_frame port s
  | .grantReceived slice voq => execGrantReceived_frame slice voq s
  | .standingCreditTimeout slice voq => execStandingCreditTimeout_frame slice voq s
  | .creditRecall slice voq => execCreditRecall_frame slice voq s
  | .creditReturnReceived slice voq => execCreditReturnReceived_frame slice voq s
  | .cellSend slice => execCellSend_frame slice s
  | .cellArrived link crcOk => execCellArrived_frame link crcOk s
  | .linkNakReceived link => execLinkNakReceived_frame link s
  | .linkAckTimeout link => execLinkAckTimeout_frame link s
  | .gapTimeout src dst => execGapTimeout_frame src dst s
  | .releaseCreditReceived src dst => execReleaseCreditReceived_frame src dst s
  | .planeFault plane cause => execPlaneFault_frame plane cause s
  | .planeSwitchoverDone => execPlaneSwitchoverDone_frame s
  | .standbyTestLoss plane => execStandbyTestLoss_frame plane s
  | .planeResyncDone plane pass => execPlaneResyncDone_frame plane pass s
  | .transmitDecision port => execTransmitDecision_frame port s
  | .frameTxComplete port => execFrameTxComplete_frame port s
  | .shaperRefill node => execShaperRefill_frame node s
  | .policerRefill pol => execPolicerRefill_frame pol s
  | .wredAverageUpdate queue => execWredAverageUpdate_frame queue s
  | .loupeSample slice => execLoupeSample_frame slice s
  | .spillReadback slice voq => execSpillReadback_frame slice voq s
  | .gateEvent port => execGateEvent_frame port s
  | .tsFifoRelay slice => execTsFifoRelay_frame slice s
  | .ptpMessageProcess port bytes => execPtpMessageProcess_frame port bytes s
  | .ptpAnnounceTimeout => execPtpAnnounceTimeout_frame s
  | .learnInsert slice => execLearnInsert_frame slice s
  | .agingVisit place => execAgingVisit_frame place s
  | .scrubRead table idx bad => execScrubRead_frame table idx bad s
  | .parityRestore table idx => execParityRestore_frame table idx s
  | .tableNormalise => execTableNormalise_frame s
  | .frerResetTimer stream => execFrerResetTimer_frame stream s
  | .frerLatentTest stream => execFrerLatentTest_frame stream s
  | .frerLatentReset stream => execFrerLatentReset_frame stream s
  | .coreFailure cluster core => execCoreFailure_frame cluster core s
  | .coreWatchdogExpiry cluster core => execCoreWatchdogExpiry_frame cluster core s
  | .coreSubstitution cluster bankBad => execCoreSubstitution_frame cluster bankBad s
  | .spareSelftestDone cluster core pass => execSpareSelftestDone_frame cluster core pass s
  | .mpHeartbeatTick beatA beatB digestOk => execMpHeartbeatTick_frame beatA beatB digestOk s
  | .mpFault cause => execMpFault_frame cause s
  | .mpFailoverDone => execMpFailoverDone_frame s
  | .mpRestartDone mp pass => execMpRestartDone_frame mp pass s
  | .skipNoticeArrival cluster => execSkipNoticeArrival_frame cluster s
  | .fixWorkItemDone cluster core => execFixWorkItemDone_frame cluster core s
  | .fixLogWriteTimeout cluster pos => execFixLogWriteTimeout_frame cluster pos s
  | .batchTimer cluster => execBatchTimer_frame cluster s
  | .batchClose cluster => execBatchClose_frame cluster s
  | .receiptSigned cluster => execReceiptSigned_frame cluster s
  | .holdTimerExpiry target => execHoldTimerExpiry_frame target s
  | .idleSpindownTimer target => execIdleSpindownTimer_frame target s
  | .parkDrainRelease target => execParkDrainRelease_frame target s
  | .pollCycleStart bus => execPollCycleStart_frame bus s
  | .pollSlot bus => execPollSlot_frame bus s
  | .shelfStatusReceived bus payload => execShelfStatusReceived_frame bus payload s
  | .shelfAckReceived bus payload => execShelfAckReceived_frame bus payload s
  | .shelfIdentReceived bus payload => execShelfIdentReceived_frame bus payload s
  | .shelfReplyTimeout bus => execShelfReplyTimeout_frame bus s
  | .hpfPointerMismatch fifo => execHpfPointerMismatch_frame fifo s
  | .hpfPacketCommit fifo => execHpfPacketCommit_frame fifo s
  | .poolAlloc size block => execPoolAlloc_frame size block s
  | .poolFree ptr block => execPoolFree_frame ptr block s
  | .sweepInstant => execSweepInstant_frame s
  | .sweepDumpWritten => execSweepDumpWritten_frame s
  | .bakeDrainTimeout => execBakeDrainTimeout_frame s
  | .bakePrepareDone => execBakePrepareDone_frame s
  | .bakeInstant => execBakeInstant_frame s
  | .heartbeatTick => execHeartbeatTick_frame s
  | .managerLossTimeout => execManagerLossTimeout_frame s
  | .heartbeat m => execHeartbeat_frame m s
  | .heartbeatAck m => execHeartbeatAck_frame m s
  | .received m => execReceived_frame m s
  | .domainResendTimeout peer id => execDomainResendTimeout_frame peer id s
  | .forwardReq m => execForwardReq_frame m s
  | .forwardRsp m => execForwardRsp_frame m s
  | .prepare m => execPrepare_frame m s
  | .vote m => execVote_frame m s
  | .commit m => execCommit_frame m s
  | .ack m => execAck_frame m s
  | .go m => execGo_frame m s
  | .abort m => execAbort_frame m s
  | .outcomeQuery m => execOutcomeQuery_frame m s
  | .outcome m => execOutcome_frame m s
  | .outcomeQueryTimer => execOutcomeQueryTimer_frame s
  | .voteDeadline => execVoteDeadline_frame s
  | .ackDeadline => execAckDeadline_frame s
  | .enrol m idx hash x => execEnrol_frame m idx hash x s
  | .enrolTick => execEnrolTick_frame s
  | .keyUpdateTimer peer => execKeyUpdateTimer_frame peer s
  | .spdmRequest transport m => execSpdmRequest_frame transport m s
  | .moarasWatchdog cause => execMoarasWatchdog_frame cause s
  | .moarasRestartDone => execMoarasRestartDone_frame s
  | .sliceFault slice => execSliceFault_frame slice s
  | .sliceRestoreDone slice => execSliceRestoreDone_frame slice s
  | .ltReceiversLocked port => execLtReceiversLocked_frame port s
  | .ltAlignmentLost port => execLtAlignmentLost_frame port s
  | .spareDatapathFailed group => execSpareDatapathFailed_frame group s
  | .shelfReplyDiscarded bus badCrc => execShelfReplyDiscarded_frame bus badCrc s
  | .dmaReadError ch => execDmaReadError_frame ch s
  | .pcieLinkUp fn speed width flit => execPcieLinkUp_frame fn speed width flit s
  | .suppliesValid => execSuppliesValid_frame s
  | .timeSlewComplete => execTimeSlewComplete_frame s
  | .ppsOutFall => execPpsOutFall_frame s
  | .ptpIntervalTick => execPtpIntervalTick_frame s
  | .lpiWakeComplete port => execLpiWakeComplete_frame port s

/-- Settles O6: an outcome of `exec` that is a next state is framed by what `touches` names. -/
theorem commandsTouch : Obligations.CommandsTouch := by
  unfold Obligations.CommandsTouch
  exact fun i s t h => (exec_frame i s).frame t h

end Sys2Proof.Machine
end

section
/-! PROOF. The interrupt registers and the MSI-X table: the rules of pending bits, map entries and vectors (R368 to R370), and
what a row about a register that the function reaches comes to. -/

namespace Sys2Proof.Machine

/-! ### Rows about a BAR0 access -/

/-- A row about a register takes its effect where the function hears it (R342, R343). -/
theorem onRegister_of_hears {s : State} {fn owner : Nat} (h : s.hears fn owner) (off size : Nat) (t : State) :
    onRegister s fn owner off size t = .next t := by
  obtain ⟨hex, hd3, hreach⟩ := h
  simp [onRegister, hex, hd3, hreach]

/-! ### Bits and rising lists -/

/-- The two readings of a bit of a register value agree. -/
theorem bit_toNat (w : BitVec 64) (j : Nat) : bit w.toNat j = w.getLsbD j := by
  simp [bit, BitVec.getLsbD, Nat.testBit_eq_decide_div_mod_eq, BEq.beq]

theorem mem_bitList {n v j : Nat} : j ∈ bitList n v ↔ j < n ∧ bit v j = true := by
  simp [bitList]

theorem mem_insertRising (n : Nat) (l : List Nat) : n ∈ insertRising n l := by
  induction l with
  | nil => simp [insertRising]
  | cons m r ih =>
    simp only [insertRising]
    split_ifs with hlt heq
    · simp
    · simp [heq]
    · simp [ih]

theorem not_mem_without (l : List Nat) (n : Nat) : n ∉ without l n := by
  simp [without]

/-! ### Links -/

theorem HostSt.link_updLink (h : HostSt) (fn m : Nat) (f : LinkIf → LinkIf) :
    (h.updLink fn f).link m = if fn = m then f (h.link m) else h.link m :=
  Tab.get_upd LinkIf.init h.links fn m f

/-! ### Signalling a vector (R370) -/

/-- Signalling a vector moves no pending bit. -/
@[simp] theorem HostSt.intPending_signalVector (h : HostSt) (fn vec m : Nat) :
    (h.signalVector fn vec).1.intPending m = h.intPending m := by
  unfold HostSt.signalVector
  split_ifs <;> rfl

/-- Signalling a vector leaves the map alone. -/
theorem HostSt.map_signalVector (h : HostSt) (fn vec m : Nat) :
    (h.signalVector fn vec).1.intVector m = h.intVector m ∧ (h.signalVector fn vec).1.intEnabled m = h.intEnabled m := by
  obtain ⟨hvec, hen, -⟩ := quiet_parts (HostSt.signalVector_quiet h fn vec)
  simp [HostSt.intVector, HostSt.intEnabled, hvec, hen]

/-- An open vector of a function with MSI-X enabled sends its message. -/
theorem HostSt.signalVector_of_open {h : HostSt} {fn vec : Nat} (hon : (h.link fn).msixOn = true)
    (hmask : (h.link fn).fnMask = false) (hopen : (h.link fn).vecOpen.contains vec = true) :
    h.signalVector fn vec = (h, [h.message fn vec]) := by
  simp only [HostSt.signalVector, hon, hmask, hopen]; rfl

/-- Before the host has enabled MSI-X nothing is sent, and nothing is kept (log entry 115). -/
theorem HostSt.signalVector_of_off {h : HostSt} {fn : Nat} (vec : Nat) (hoff : (h.link fn).msixOn = false) :
    h.signalVector fn vec = (h, []) := by
  simp [HostSt.signalVector, hoff]

/-! ### Pending bits (R369) -/

theorem HostSt.intPending_clearInt (h : HostSt) (n m : Nat) :
    (h.clearInt n).intPending m = (h.intPending m && decide (n ≠ m)) := by
  simp only [HostSt.intPending, HostSt.clearInt, Tab.get_set]
  by_cases e : n = m <;> simp [e]

/-- Clears of the sources of a list. -/
theorem HostSt.intPending_foldl_clearInt (l : List Nat) (h : HostSt) (m : Nat) :
    (l.foldl HostSt.clearInt h).intPending m = (h.intPending m && decide (m ∉ l)) := by
  induction l generalizing h with
  | nil => simp
  | cons n l ih =>
    rw [List.foldl_cons, ih, HostSt.intPending_clearInt, Bool.and_assoc, ← Bool.decide_and]
    simp [eq_comm]

/-- Setting a source pending sets its bit and no other. -/
theorem HostSt.intPending_setPending (h : HostSt) (x8 : Bool) (n m : Nat) :
    (h.setPending x8 n).1.intPending m = (decide (n = m) || h.intPending m) := by
  have hset : HostSt.intPending { h with pending := Tab.set false h.pending n true } m
      = (decide (n = m) || h.intPending m) := by
    simp only [HostSt.intPending, Tab.get_set]
    by_cases e : n = m <;> simp [e]
  unfold HostSt.setPending
  split
  · next hp =>
    by_cases e : n = m
    · subst e; simp [hp]
    · simp [e]
  · dsimp only
    split
    · exact (HostSt.intPending_signalVector _ _ _ _).trans hset
    · exact hset

theorem State.intPending_interrupt (s : State) (n m : Nat) :
    (s.interrupt n).host.intPending m = (decide (n = m) || s.host.intPending m) :=
  HostSt.intPending_setPending s.host s.ident.bifurcated n m

/-- A set in the cycle of a clear leaves the bit at 1 (R11). -/
theorem State.intPending_keepInt (s : State) (n m : Nat) :
    (s.keepInt n).host.intPending m = (decide (n = m) || s.host.intPending m) := by
  rw [State.keepInt, State.intPending_interrupt, HostSt.intPending_clearInt]
  by_cases e : n = m <;> simp [e]

/-- A host write of 1 clears the sources it names that exist and are the function's own (R342, R369). -/
theorem State.intPending_clearInts (s : State) (fn : Nat) (l : List Nat) (m : Nat) :
    (s.clearInts fn l).host.intPending m
      = (s.host.intPending m && !(decide (m ∈ l) && (decide (m ≤ 187) && s.ownsInt fn m))) := by
  rw [State.clearInts, HostSt.intPending_foldl_clearInt]
  congr 1
  simp [List.mem_filter]

/-- Operations that each set the source `g j` pending and move no other bit, over a list. -/
theorem intPending_foldl_sets {f : State → Nat → State} {g : Nat → Nat}
    (hf : ∀ u j m, (f u j).host.intPending m = (decide (g j = m) || u.host.intPending m)) (l : List Nat) (s : State) (m : Nat) :
    (l.foldl f s).host.intPending m = (decide (∃ j ∈ l, g j = m) || s.host.intPending m) := by
  induction l generalizing s with
  | nil => simp
  | cons j l ih =>
    rw [List.foldl_cons, ih, hf, ← Bool.or_assoc, ← Bool.decide_or]
    simp [or_comm]

/-- What INT_PENDING[k] leaves in every source: 1 where the hardware sets it, else its bit unless the host clears it. -/
theorem State.intPending_writePending (s : State) (fn k w same m : Nat) :
    (s.writePending fn k w same).host.intPending m
      = (decide (∃ j ∈ (bitList 64 same).filter (fun j => decide (64 * k + j ≤ 187)), 64 * k + j = m)
        || (s.host.intPending m
          && !(decide (m ∈ (bitList 64 w).map (fun j => 64 * k + j)) && (decide (m ≤ 187) && s.ownsInt fn m)))) := by
  rw [State.writePending, intPending_foldl_sets (g := fun j => 64 * k + j), State.intPending_clearInts]
  intro u j m
  split
  · exact State.intPending_keepInt u _ m
  · exact State.intPending_interrupt u _ m

/-- The bits of register `k` after a write to it. -/
theorem State.intPending_writePending_own (s : State) (fn k w same : Nat) {j : Nat} (hj : j < 64) (hn : 64 * k + j ≤ 187) :
    (s.writePending fn k w same).host.intPending (64 * k + j)
      = (bit same j || s.host.intPending (64 * k + j) && !(bit w j && s.ownsInt fn (64 * k + j))) := by
  have hset : (∃ i ∈ (bitList 64 same).filter (fun i => decide (64 * k + i ≤ 187)), 64 * k + i = 64 * k + j)
      ↔ bit same j = true := by
    simp [List.mem_filter, mem_bitList, hj, hn]
  have hclr : 64 * k + j ∈ (bitList 64 w).map (fun i => 64 * k + i) ↔ bit w j = true := by
    simp [mem_bitList, hj]
  simp only [State.intPending_writePending, hset, hclr, hn, decide_true, Bool.true_and, Bool.decide_eq_true]

/-- The bits of the other registers stay. -/
theorem State.intPending_writePending_other (s : State) (fn k w same : Nat) {n : Nat} (hn : n / 64 ≠ k) :
    (s.writePending fn k w same).host.intPending n = s.host.intPending n := by
  have hset : ¬ ∃ i ∈ (bitList 64 same).filter (fun i => decide (64 * k + i ≤ 187)), 64 * k + i = n := by
    rintro ⟨i, hi, rfl⟩
    have := (mem_bitList.mp (List.mem_of_mem_filter hi)).1
    omega
  have hclr : n ∉ (bitList 64 w).map (fun i => 64 * k + i) := by
    rw [List.mem_map]
    rintro ⟨i, hi, rfl⟩
    have := (mem_bitList.mp hi).1
    omega
  simp only [State.intPending_writePending, hset, hclr, decide_false, Bool.false_and, Bool.false_or, Bool.not_false,
    Bool.and_true]

/-! ### Map entries (R369) -/

theorem HostSt.intVector_putMap (h : HostSt) (n v : Nat) (en : Bool) (m : Nat) :
    (h.putMap n v en).intVector m = if n = m then v else h.intVector m := by
  simp only [HostSt.intVector, HostSt.putMap]
  split_ifs with hv hm hm
  · subst hm; simp [Tab.find_erase, hv]
  · simp [Tab.find_erase, hm]
  · simp [Tab.find_insert, hm]
  · simp [Tab.find_insert, hm]

theorem HostSt.intEnabled_putMap (h : HostSt) (n v : Nat) (en : Bool) (m : Nat) :
    (h.putMap n v en).intEnabled m = if n = m then en else h.intEnabled m :=
  Tab.get_set false h.mapEn n m en

/-- A write of the map entry of an own source leaves that entry written and the others alone. -/
theorem State.map_writeMap {s : State} {fn n : Nat} (ho : s.ownsInt fn n = true) (v m : Nat) :
    (s.writeMap fn n v).host.intVector m = (if n = m then bits v 10 0 else s.host.intVector m)
      ∧ (s.writeMap fn n v).host.intEnabled m = if n = m then bit v 16 else s.host.intEnabled m := by
  rw [← HostSt.intVector_putMap s.host n _ (bit v 16), ← HostSt.intEnabled_putMap s.host n (bits v 10 0)]
  rw [State.writeMap, if_neg (by simp [ho])]
  dsimp only
  split
  · exact HostSt.map_signalVector _ _ _ m
  · exact ⟨rfl, rfl⟩

/-- ENABLE written 1 on a pending own source signals the vector written with it. -/
theorem State.writeMap_of_signals {s : State} {fn n v : Nat} (ho : s.ownsInt fn n = true) (hen : bit v 16 = true)
    (hp : s.host.intPending n = true) :
    let h := s.host.putMap n (bits v 10 0) (bit v 16)
    s.writeMap fn n v = { s with host := (h.signalVector fn (bits v 10 0)).1,
                                 out := (h.signalVector fn (bits v 10 0)).2 ++ s.out } := by
  have howner : intOwner s.ident.bifurcated n = fn := by simpa [State.ownsInt] using ho
  have hp' : (s.host.putMap n (bits v 10 0) (bit v 16)).intPending n = true := hp
  have hvec := HostSt.intVector_putMap s.host n (bits v 10 0) (bit v 16) n
  rw [if_pos rfl] at hvec
  rw [State.writeMap, if_neg (by simp [ho])]
  dsimp only
  rw [if_pos ⟨hen, hp'⟩, HostSt.signal, howner, hvec]

/-- A write of a map entry that does not signal sends nothing. -/
theorem State.writeMap_of_quiet {s : State} {fn n v : Nat} (ho : s.ownsInt fn n = true)
    (hq : ¬ (bit v 16 = true ∧ s.host.intPending n = true)) :
    s.writeMap fn n v = { s with host := s.host.putMap n (bits v 10 0) (bit v 16) } := by
  rw [State.writeMap, if_neg (by simp [ho])]
  exact if_neg hq

/-- The message of an INT_MAP write (R369, R370). -/
theorem State.out_writeMap_of_open {s : State} {fn n v : Nat} (ho : s.ownsInt fn n = true) (hen : bit v 16 = true)
    (hp : s.host.intPending n = true) (hon : (s.host.link fn).msixOn = true) (hmask : (s.host.link fn).fnMask = false)
    (hopen : (s.host.link fn).vecOpen.contains (bits v 10 0) = true) :
    (s.writeMap fn n v).out = s.host.message fn (bits v 10 0) :: s.out := by
  rw [State.writeMap_of_signals ho hen hp, HostSt.signalVector_of_open (h := s.host.putMap n _ _) hon hmask hopen]
  rfl

/-- While MSI-X is off, an INT_MAP write sends nothing and keeps nothing for later (log entry 115). -/
theorem State.writeMap_of_off {s : State} {fn n : Nat} (v : Nat) (ho : s.ownsInt fn n = true)
    (hoff : (s.host.link fn).msixOn = false) :
    (s.writeMap fn n v).out = s.out ∧ (s.writeMap fn n v).host.links = s.host.links := by
  by_cases hs : bit v 16 = true ∧ s.host.intPending n = true
  · rw [State.writeMap_of_signals ho hs.1 hs.2, HostSt.signalVector_of_off (h := s.host.putMap n _ _) _ hoff]
    exact ⟨rfl, rfl⟩
  · rw [State.writeMap_of_quiet ho hs]
    exact ⟨rfl, rfl⟩

/-! ### Unmasking a vector (R370) -/

/-- A vector with a pending message is unmasked: it is open, its message is sent and no longer pending. -/
theorem State.unmaskVec_of_pending {s : State} {fn v : Nat} (hp : (s.host.link fn).pba.contains v = true)
    (hmask : (s.host.link fn).fnMask = false) (hon : (s.host.link fn).msixOn = true) :
    (s.unmaskVec fn v).out = s.host.message fn v :: s.out ∧ v ∈ ((s.unmaskVec fn v).host.link fn).vecOpen
      ∧ v ∉ ((s.unmaskVec fn v).host.link fn).pba := by
  rw [State.unmaskVec, if_pos ⟨hp, hmask, hon⟩]
  refine ⟨rfl, ?_, ?_⟩
  · simpa [HostSt.link_updLink] using mem_insertRising v _
  · simpa [HostSt.link_updLink] using not_mem_without _ v

/-- A vector unmasked while MSI-X is off is open; nothing is sent (log entry 115). -/
theorem State.unmaskVec_of_off {s : State} {fn : Nat} (v : Nat) (hoff : (s.host.link fn).msixOn = false) :
    (s.unmaskVec fn v).out = s.out ∧ v ∈ ((s.unmaskVec fn v).host.link fn).vecOpen
      ∧ ((s.unmaskVec fn v).host.link fn).pba = (s.host.link fn).pba := by
  rw [State.unmaskVec, if_neg (by simp [hoff])]
  refine ⟨rfl, ?_, ?_⟩
  · simpa [HostSt.link_updLink] using mem_insertRising v _
  · simp [HostSt.link_updLink]

/-! ### The rows -/

/-- INT_PENDING_CLEAR. -/
theorem intPendingClear_row (s : State) (fn k : Nat) (w same : BitVec 64) (hk : k < 4) (hs : s.hears fn fn) :
    exec (.intPendingClear fn k w same) s = .next (s.writePending fn k w.toNat same.toNat) := by
  show execIntPendingClear fn k w same s = _
  rw [execIntPendingClear, if_neg (by omega), onRegister_of_hears hs]

/-- INT_MAP_WRITE. -/
theorem intMapWrite_row (s : State) (fn n : Nat) (w : BitVec 64) (hn : n < 256) (hs : s.hears fn fn) :
    exec (.intMapWrite fn n w) s = .next (s.writeMap fn n w.toNat) := by
  show execIntMapWrite fn n w s = _
  rw [execIntMapWrite, if_neg (by omega), onRegister_of_hears hs]

/-- MSIX_UNMASK. -/
theorem msixUnmask_row (s : State) (fn v : Nat) (hv : v < 2048) (hs : s.hears fn fn) :
    exec (.msixUnmask fn v) s = .next (s.unmaskVec fn v) := by
  show execMsixUnmask fn v s = _
  rw [execMsixUnmask, if_neg (by omega), onRegister_of_hears hs]

/-- Settles O37, from the rules of pending bits, map entries and vectors. -/
theorem interruptRows : Obligations.InterruptRows := by
  unfold Obligations.InterruptRows
  refine ⟨fun s fn k w same hk hs => ⟨_, intPendingClear_row s fn k w same hk hs, ?_, ?_, ?_⟩,
    fun s fn n w hn hs ho => ⟨_, intMapWrite_row s fn n w hn hs, ?_, ?_, ?_, ?_, ?_⟩,
    fun s fn v hv hs => ⟨fun hp hmask hon => ⟨_, msixUnmask_row s fn v hv hs, State.unmaskVec_of_pending hp hmask hon⟩,
      fun hoff => ⟨_, msixUnmask_row s fn v hv hs, State.unmaskVec_of_off v hoff⟩⟩⟩
  · intro j hj hn hown
    simp [State.intPending_writePending_own s fn k w.toNat same.toNat hj hn, hown, bit_toNat]
  · intro j hj hn hother
    simp [State.intPending_writePending_own s fn k w.toNat same.toNat hj hn, hother, bit_toNat]
  · exact fun n hn => State.intPending_writePending_other s fn k w.toNat same.toNat hn
  · simp [State.map_writeMap ho, bits]
  · simp [State.map_writeMap ho, bit_toNat]
  · exact fun m hm => by simp [State.map_writeMap ho, hm.symm]
  · intro hen hp hon hmask hopen
    have hv : bits w.toNat 10 0 = w.toNat % 2048 := by simp [bits]
    rw [← hv] at hopen ⊢
    exact State.out_writeMap_of_open ho ((bit_toNat w 16).trans hen) hp hon hmask hopen
  · exact fun hoff => State.writeMap_of_off w.toNat ho hoff

end Sys2Proof.Machine
end

section
/-! PROOF. Accesses of BAR0: the register at an address, and what a write of 64 bits to it comes to (R10, R345, R346). -/

namespace Sys2Proof.Machine

/-! ### Accesses that name no register -/

/-- A row about a BAR0 access takes its effect where the function exists and is not in D3hot. -/
theorem onAccess_of_hears {s : State} {fn owner : Nat} (h : s.hears fn owner) (t : State) : onAccess s fn t = .next t := by
  obtain ⟨hex, hd3, -⟩ := h
  simp [onAccess, hex, hd3]

/-- A discarded access raises the info event of R469. -/
theorem State.reservedAccess_eq (s : State) (off size : Nat) :
    s.reservedAccess off size = s.raise 0x0101 0 (le 4 off ++ le 1 size) := rfl

/-- RESERVED_WRITE. -/
theorem reservedWrite_row {s : State} {fn off : Nat} (size : Nat) (hs : s.hears fn fn) (hreg : s.regFor fn off = none)
    (harea : s.areaFor fn off = none) : exec (.reservedWrite fn off size) s = .next (s.reservedAccess off size) := by
  show execReservedWrite fn off size s = _
  rw [execReservedWrite, onAccess_of_hears hs, if_pos (by simp [hreg, harea])]

/-- BAD_SIZE_ACCESS. -/
theorem badSizeAccess_row {s : State} {fn off size : Nat} (wr : Bool) (hs : s.hears fn fn)
    (hbad : goodAccess off size = false) (harea : s.areaFor fn off = none) :
    exec (.badSizeAccess fn off size wr) s = .next (s.reservedAccess off size) := by
  show execBadSizeAccess fn off size wr s = _
  rw [execBadSizeAccess, onAccess_of_hears hs, if_pos (by simp [hbad, harea])]

/-! ### Register writes of 64 bits -/

/-- A write of 8 bytes at the address of a register that the function hears gives the register the value written. -/
theorem registerWrite_row {s : State} {fn off : Nat} {r : Reg} (w : BitVec 64) (hs : s.hears fn (s.regOwner fn r))
    (hreg : regAt off = some r) (harea : areaBox off = none) (halign : off % 8 = 0) (hoff : off < cfgBase) :
    exec (.registerWrite fn off 8 w) s = .next (s.writeReg fn off 8 w.toNat r) := by
  have hfor : s.regFor fn off = some r := by
    have haddr : off / 8 * 8 = off := by omega
    simp [State.regFor, haddr, hreg, hs.2.2]
  have hwrite : s.hostWrites fn off 8 w.toNat = s.writeReg fn off 8 w.toNat r := by
    simp [State.hostWrites, State.areaFor, harea, goodAccess, halign, hfor, mergeWrite]
  show execRegisterWrite fn off 8 w s = _
  rw [execRegisterWrite, if_pos hoff, onAccess_of_hears hs, hwrite]

/-- The start address of channel `c` (R366). -/
theorem regAt_dmaStart {c : Nat} (hc : c < 128) : regAt (0x80000 + 0x800 * c + 0x10) = some (.dma c 0x10) := by
  have hch : (0x80000 + 0x800 * c + 0x10 - 0x80000) / 0x800 = c := by omega
  have ho : (0x80000 + 0x800 * c + 0x10) % 0x800 = 0x10 := by omega
  rw [regAt, if_neg (by omega), if_neg (by omega), if_neg (by omega), if_neg (by omega), if_neg (by omega),
    if_neg (by omega), if_pos (by omega), ho, hch]
  rfl

/-- GBL_SCRATCH (R346). -/
theorem scratch_row (s : State) (fn : Nat) (w : BitVec 64) (hs : s.hears fn fn) :
    exec (.registerWrite fn 0x10 8 w) s = .next (s.updLink fn (fun l => { l with scratch := w })) := by
  rw [registerWrite_row (r := .gbl 0x10) w hs (by decide) (by decide) (by decide) (by decide)]
  simp [State.writeReg]

/-- DMA_START_ADDR, whose bits 4:0 stay 0 (R366). -/
theorem dmaStartAddr_row {s : State} {fn c : Nat} (w : BitVec 64) (hs : s.hears fn (s.chFn c)) (hc : c < 128) :
    exec (.registerWrite fn (0x80000 + 0x800 * c + 0x10) 8 w) s
      = .next (s.updChan c (fun x => { x with start := BitVec.ofNat 64 (w.toNat / 32 * 32) })) := by
  rw [registerWrite_row (r := .dma c 0x10) w hs (regAt_dmaStart hc) (by rw [areaBox, if_neg (by omega)]) (by omega)
    (by rw [cfgBase]; omega)]
  rfl

/-- EVT_BASE (R471). -/
theorem evtBase_row (s : State) (fn : Nat) (w : BitVec 64) (hs : s.hears fn 0) :
    exec (.registerWrite fn 0xE0010 8 w) s
      = .next { s with evt := { s.evt with base := BitVec.ofNat 64 (w.toNat / 4096 * 4096) } } := by
  rw [registerWrite_row (r := .evt 0x10) w hs (by decide) (by decide) (by decide) (by decide)]
  rfl

/-- EVT_SIZE, of a size in range (R471). -/
theorem evtSize_row {s : State} {fn : Nat} {w : BitVec 64} (hs : s.hears fn 0) (hlo : 6 ≤ w.toNat % 32)
    (hhi : w.toNat % 32 ≤ 20) :
    exec (.registerWrite fn 0xE0018 8 w) s = .next { s with evt := { s.evt with k := w.toNat % 32 } } := by
  have hk : bits w.toNat 4 0 = w.toNat % 32 := by simp [bits]
  rw [registerWrite_row (r := .evt 0x18) w hs (by decide) (by decide) (by decide) (by decide)]
  simp [State.writeReg, State.writeEvt, hk, hlo, hhi]

/-- SWP_PERIOD. -/
theorem swpPeriod_row (s : State) (fn : Nat) (w : BitVec 64) (hs : s.hears fn 0) :
    exec (.registerWrite fn 0xC0010 8 w) s = .next (s.writeSwp 0x10 0xC0010 8 w.toNat) := by
  rw [registerWrite_row (r := .swp 0x10) w hs (by decide) (by decide) (by decide) (by decide)]
  rfl

/-- The settings of a running sweep stay (R463). -/
theorem State.swp_sweepOff_of_running {s : State} (h : s.swp.enable = true) (off size : Nat) (w : SwpSt) :
    (s.sweepOff off size w).swp = s.swp := by
  rw [State.sweepOff, if_pos h]
  split
  · rfl
  · simp [State.reservedAccess]

/-! ### Time capture and timestamp FIFOs -/

/-- TIME_CAPTURE. -/
theorem timeCapture_row (s : State) (fn : Nat) (hs : s.hears fn 0) :
    exec (.timeCapture fn) s
      = .next (s.updTime (fun t => { t with latchSec := t.latched.1, latchNs := t.latched.2 })) :=
  onRegister_of_hears hs _ _ _

/-- TXTS_POP, of a FIFO that the host owns. -/
theorem txtsPop_row {s : State} {fn sl : Nat} (hs : s.hears fn 0) (hsl : sl < 16) (hown : s.fifoMoaras sl = false) :
    exec (.txtsPop fn sl) s = .next (s.updTsFifo sl (fun f => { f with entries := f.entries.drop 1 })) := by
  show execTxtsPop fn sl s = _
  rw [execTxtsPop, if_neg (by omega), onRegister_of_hears hs, if_neg (by simp [hown])]

/-- Settles O38, from the row of each register. -/
theorem registerRows : Obligations.RegisterRows := by
  unfold Obligations.RegisterRows
  refine ⟨fun s fn off size hs hreg harea => ⟨_, reservedWrite_row size hs hreg harea, s.reservedAccess_eq off size⟩,
    fun s fn off size wr hs hbad harea => ⟨_, badSizeAccess_row wr hs hbad harea, s.reservedAccess_eq off size⟩,
    fun s fn w hs _ => ⟨_, scratch_row s fn w hs, ?_, ?_⟩,
    fun s fn c w hs hc => ⟨_, dmaStartAddr_row w hs hc, ?_, ?_⟩,
    fun s fn w hs => ⟨⟨_, evtBase_row s fn w hs, rfl⟩, fun hlo hhi => ⟨_, evtSize_row hs hlo hhi, rfl⟩,
      fun hrun => ⟨_, swpPeriod_row s fn w hs, State.swp_sweepOff_of_running hrun _ _ _⟩⟩,
    fun s fn hs => ⟨_, timeCapture_row s fn hs, rfl, rfl⟩,
    fun s fn sl hs hsl hown => ⟨_, txtsPop_row hs hsl hown, ?_, ?_⟩⟩
  · simp [State.updLink, HostSt.link_updLink]
  · exact fun m hm => by simp [State.updLink, HostSt.link_updLink, hm.symm]
  · simp
  · exact fun n hn => by simp [hn.symm]
  · simp
  · exact fun n hn => by simp [hn.symm]

end Sys2Proof.Machine
end

section
/-! PROOF. What reset leaves in each unit, and what the memory reads answer. -/

namespace Sys2Proof.Machine

/-! ### Reset values -/

/-- At reset no mailbox is listed, so each reads as its initial value. -/
theorem reset_box (n : Nat) : State.reset.box n = Mbox.init := rfl

/-- At reset no DMA channel is listed. -/
theorem reset_chan (n : Nat) : State.reset.chan n = Chan.init := rfl

/-- At reset no mirror session is listed. -/
theorem reset_mirrorOf (m : Nat) : State.reset.mirrorOf m = Mirror.init := rfl

/-- Planes 0 to 3 are ACTIVE at reset (R180). -/
theorem reset_plane_active {p : Nat} (hp : p < 4) : (State.reset.plane p).state = .active := by
  interval_cases p <;> rfl

/-- Of the eight classes TC4 to TC6 are lossless at reset (R133). -/
theorem reset_lossless {c : Nat} (hc : c < 8) : (State.reset.classCfg c).lossless = true ↔ 4 ≤ c ∧ c ≤ 6 := by
  interval_cases c <;> decide

/-- Settles O3: the fields of the reset state, and the rows of its tables. -/
theorem resetValues : Obligations.ResetValues := by
  unfold Obligations.ResetValues
  exact ⟨rfl, rfl, rfl, rfl, fun n => by simp [reset_box, Mbox.init], fun n => by simp [reset_chan, Chan.init],
    fun _ => reset_plane_active, rfl, fun _ => reset_lossless, rfl, rfl, rfl, fun m => by simp [reset_mirrorOf, Mirror.init],
    rfl, fun n => by simp [reset_box, Mbox.init], rfl, rfl⟩

/-! ### The memory reads -/

/-- Settles O16: each read answers from the state in which its request is queued, which differs in mail alone. -/
theorem memoryCommands : Obligations.MemoryCommands := by
  unfold Obligations.MemoryCommands
  refine ⟨answered_of (body := memGetMapBody) (fun _ _ => rfl) ?map, answered_of (body := memGetHealthBody) (fun _ _ => rfl) ?health⟩
  case map =>
    intro r s u _ hbegun hmail _
    have hpwr : u.pwr = s.pwr := by rw [hmail]; rfl
    simp only [memGetMapBody, readCmd, hpwr, ← hbegun]
  case health =>
    intro r s u _ _ hmail _
    have hstack (k : Nat) : u.stack k = s.stack k := by rw [hmail]; rfl
    simp only [memGetHealthBody, readCmd, hstack]

end Sys2Proof.Machine
end

section
/-! PROOF. Where MEM_SET_REGIONS is not recorded though the room that `State.setRoom` counts is there. -/

namespace Sys2Proof.Machine

/-- MEM_SET_REGIONS staged into set 1, with 24 payload bytes. -/
def regionsInSet1 : Req := { Req.plain 0 (List.replicate 24 0) with stage := true, setId := 1 }

/-- The first of two open sets with ID 1: it holds one command of 216 bytes. -/
def fullSet1 : SetSt := { SetSt.init with id := 1, cmds := [{ op := 0xFFFF, payload := List.replicate 200 0 }] }

/-- A ready standalone device with two open sets of the same ID, the second of them empty, whose receipt slots in use leave 352 bytes
of the staging region. -/
def twoSets1 : State :=
  { State.reset with
    mbx := { State.reset.mbx with ready := true }
    bake := { State.reset.bake with sets := [fullSet1, { fullSet1 with cmds := [] }] }
    leaven := { State.reset.leaven with fix := [(0, { FixClu.init with rcHead := 3728269 })] }
    pwr := { State.reset.pwr with regions := [48, 24, 4, 4, 1, 15] } }

/-- Counting the command once in each set, the staging region has room for it. -/
theorem twoSets1_setRoom : twoSets1.setRoom fullSet1 { op := 0x0C02, payload := regionsInSet1.payload } := by
  unfold State.setRoom
  decide +kernel

/-- The staged write puts the first set's commands into both sets, finds no room for that, and answers NO_RESOURCE. -/
theorem twoSets1_refuses : ∃ t, exec (.memSetRegions regionsInSet1) twoSets1 = .next t
    ∧ (t.box 0).resp = respHeader 0 (Resp.err stNoResource 0x0D06) 0 ∧ t.bake.epoch = 0 :=
  ⟨_, rfl, by decide +kernel⟩

/-- Refutes O10: where two sets have the same ID, `State.setRoom` adds the command to the commands of each, while the staged
write gives every set with that ID the commands of the first, which may take more bytes than the staging region has.
Nothing in the statement, nor in `State.Good`, keeps two sets from having one ID. -/
theorem not_regionsNeedStage : ¬ Obligations.RegionsNeedStage := by
  unfold Obligations.RegionsNeedStage
  intro h
  obtain ⟨-, hstaged⟩ := h regionsInSet1 twoSets1 fullSet1 (by unfold State.rings; decide +kernel) rfl (by decide) rfl rfl rfl rfl
    (by decide) (.inl rfl)
  obtain ⟨-, haccepts⟩ := hstaged rfl (by decide) rfl rfl
  obtain ⟨t, ht, ⟨-, hok⟩, -⟩ := haccepts (by decide) (by decide) (by decide) twoSets1_setRoom
  obtain ⟨u, hu, hresp, hepoch⟩ := twoSets1_refuses
  obtain rfl : t = u := Host.Outcome.next.inj (ht.symm.trans hu)
  rw [hepoch] at hok
  exact absurd (hok.symm.trans hresp) (by decide)

end Sys2Proof.Machine
end

section
/-! PROOF. Where a command stops (log entry 26): each row tests that the units it names exist, and answers a next state where
they do. -/

namespace Sys2Proof.Machine

/-- The outcome is a next state wherever `ok` holds; elsewhere it may be a fault; it is never a refusal. -/
def RunsWhere (ok : Prop) : Host.Outcome State Fault Refusal → Prop
  | .next _ => True
  | .fault _ => ¬ ok
  | .refused _ => False

/-- The device has what the command names: its operands lie in their ranges, and name function 1 in x8 + x8 alone (R15, R342). -/
def State.provides (s : State) (i : Instr) : Prop := i.wf = true ∧ (s.ident.bifurcated = true ∨ namesFn1 i = false)

namespace RunsWhere

variable {ok : Prop} {o p : Host.Outcome State Fault Refusal}

theorem next (t : State) : RunsWhere ok (.next t) := trivial

theorem ite {c : Prop} [Decidable c] (ho : RunsWhere ok o) (hp : RunsWhere ok p) : RunsWhere ok (if c then o else p) := by
  split
  · exact ho
  · exact hp

/-- A row that faults where a test of its operands succeeds: only where `ok` fails. -/
theorem faultIf {c : Prop} [Decidable c] {e : Fault} (hc : ok → ¬ c) (ho : RunsWhere ok o) :
    RunsWhere ok (if c then .fault e else o) := by
  split
  case isTrue h => exact fun k => hc k h
  case isFalse => exact ho

/-- A row that faults where a test of its operands fails. -/
theorem faultUnless {c : Prop} [Decidable c] {e : Fault} (hc : ok → c) (ho : RunsWhere ok o) :
    RunsWhere ok (if c then o else .fault e) := by
  split
  case isTrue => exact ho
  case isFalse h => exact fun k => h (hc k)

/-- A row that faults from unit number `n` on. -/
theorem faultFrom {a n : Nat} {e : Fault} (ha : ok → a < n) (ho : RunsWhere ok o) :
    RunsWhere ok (if n ≤ a then .fault e else o) :=
  faultIf (fun k => Nat.not_le.mpr (ha k)) ho

theorem ne_refused (h : RunsWhere ok o) (x : Refusal) : o ≠ .refused x := by
  rintro rfl
  exact h

theorem not_of_fault {e : Fault} (h : RunsWhere ok o) (ho : o = .fault e) : ¬ ok := by
  subst ho
  exact h

theorem exists_next (h : RunsWhere ok o) (hok : ok) : ∃ t, o = .next t := by
  cases o with
  | next t => exact ⟨t, rfl⟩
  | fault e => exact absurd hok h
  | refused x => exact h.elim

end RunsWhere

/-! ### The shared tests of rows -/

section

variable {ok : Prop} {s : State}

theorem mailboxCommand_runsWhere {op : Nat} {body : Body} {r : Req} (h : ok → r.box < 32) :
    RunsWhere ok (mailboxCommand op body r s) :=
  .faultUnless h (.next _)

/-- The restart that a command asks for follows a next state alone. -/
theorem restartAfter_runsWhere {o : Host.Outcome State Fault Refusal} (h : RunsWhere ok o) : RunsWhere ok (restartAfter o) := by
  cases o with
  | next t => exact .next _
  | fault e => exact h
  | refused x => exact h

theorem onMailbox_runsWhere {b : Nat} {t : State} (h : ok → b < 32) : RunsWhere ok (onMailbox s b t) :=
  .faultFrom h (.ite (.next _) (.next _))

theorem onRegister_runsWhere {fn owner off size : Nat} {t : State} (h : ok → s.fnExists fn = true) :
    RunsWhere ok (onRegister s fn owner off size t) :=
  .faultIf (fun k => by simp [h k]) (.ite (.next _) (.ite (.next _) (.next _)))

theorem ctrlRow_runsWhere {b fn ch : Nat} {w : BitVec 64} (hch : ok → ch < 128) (hfn : ok → s.fnExists fn = true) :
    RunsWhere ok (ctrlRow b fn ch w s) :=
  .faultFrom hch (onRegister_runsWhere hfn)

theorem onAccess_runsWhere {fn : Nat} {t : State} (h : ok → s.fnExists fn = true) : RunsWhere ok (onAccess s fn t) :=
  .faultIf (fun k => by simp [h k]) (.ite (.next _) (.next _))

theorem onFunction_runsWhere {fn : Nat} {t : State} (h : ok → s.fnExists fn = true) : RunsWhere ok (onFunction s fn t) :=
  .faultUnless h (.next _)

theorem onPort_runsWhere {p : Nat} {t : State} (h : ok → p < 512) : RunsWhere ok (onPort p t) :=
  .faultFrom h (.next _)

theorem onClass_runsWhere {p c : Nat} {t : State} (h : ok → p < 512 ∧ c < 8) : RunsWhere ok (onClass p c t) :=
  .faultFrom (fun k => (h k).1) (.faultFrom (fun k => (h k).2) (.next _))

theorem onCluster_runsWhere {c : Nat} {t : State} (h : ok → c < 16) : RunsWhere ok (onCluster c t) :=
  .faultUnless h (.next _)

theorem onCore_runsWhere {c k : Nat} {t : State} (h : ok → coreExists c k = true) : RunsWhere ok (onCore c k t) :=
  .faultUnless h (.next _)

theorem onVoq_runsWhere {sl v : Nat} {t : State} (h : ok → voqExists sl v = true) : RunsWhere ok (onVoq sl v t) :=
  .faultUnless h (.next _)

theorem onStack_runsWhere {k pc : Nat} {t : State} (h : ok → k < 4 ∧ pc < 32) : RunsWhere ok (onStack k pc t) :=
  .faultFrom (fun j => (h j).1) (.faultFrom (fun j => (h j).2) (.next _))

theorem onStream_runsWhere {n : Nat} {t : State} (h : ok → n < 65536) : RunsWhere ok (onStream n t) :=
  .faultUnless h (.next _)

theorem domRow_runsWhere {type : Nat} {m : DomIn} {act : State → State} (h : ok → m.port < 512) :
    RunsWhere ok (domRow type m act s) :=
  .faultFrom h (.next _)

/-! ### Rows with branches of their own -/

theorem execRegisterWrite_runsWhere {fn off size : Nat} {w : BitVec 64} (h : ok → s.fnExists fn = true) :
    RunsWhere ok (execRegisterWrite fn off size w s) :=
  .ite (onAccess_runsWhere h) (onFunction_runsWhere h)

theorem execFrameTailReceived_runsWhere {id : Nat} {fcsOk : Bool} : RunsWhere ok (execFrameTailReceived id fcsOk s) := by
  unfold execFrameTailReceived
  split
  · exact .ite (.next _) (.next _)
  · exact .next _

theorem execRecirculationPass_runsWhere {slice : Nat} (h : ok → slice < 16) : RunsWhere ok (execRecirculationPass slice s) :=
  .faultFrom h (by split <;> exact .next _)

theorem execMirrorQueueAdmit_runsWhere {slice : Nat} (h : ok → slice < 16) : RunsWhere ok (execMirrorQueueAdmit slice s) :=
  .faultFrom h (by split <;> exact .next _)

theorem execCellArrived_runsWhere {link : Nat} {crcOk : Bool} (h : ok → linkExists link = true) :
    RunsWhere ok (execCellArrived link crcOk s) := by
  refine .faultIf (fun k => by simp [h k]) ?_
  dsimp only
  split
  · exact .next _
  · exact .ite (.next _) (.ite (.next _) (.next _))

theorem execPlaneFault_runsWhere {plane cause : Nat} (hplane : ok → plane < 5) (hcause : ok → cause = 1 ∨ cause = 2) :
    RunsWhere ok (execPlaneFault plane cause s) :=
  .faultFrom hplane (.faultIf (fun k => by have := hcause k; omega) (.next _))

theorem execStandbyTestLoss_runsWhere {plane : Nat} (h : ok → plane < 5) : RunsWhere ok (execStandbyTestLoss plane s) :=
  .faultFrom h (.ite (.next _) (.ite (.next _) (.ite (.next _) (.next _))))

theorem execFrameTxComplete_runsWhere {port : Nat} (h : ok → port < 516) : RunsWhere ok (execFrameTxComplete port s) := by
  refine .faultFrom h (.ite (.next _) ?_)
  split
  · exact .next _
  · split <;> exact .next _

theorem execLoupeSample_runsWhere {slice : Nat} (h : ok → slice < 16) : RunsWhere ok (execLoupeSample slice s) :=
  .faultFrom h (.ite (.next _) (by split <;> exact .next _))

theorem execPtpMessageProcess_runsWhere {port : Nat} {bytes : List Byte} (h : ok → port < 512) :
    RunsWhere ok (execPtpMessageProcess port bytes s) :=
  .faultFrom h (.ite (.next _) (by split <;> exact .next _))

theorem execLearnInsert_runsWhere {slice : Nat} (h : ok → slice < 16) : RunsWhere ok (execLearnInsert slice s) :=
  .faultFrom h (by split <;> exact .next _)

theorem execAgingVisit_runsWhere {place : Nat} (h : ok → place < stashEnd) : RunsWhere ok (execAgingVisit place s) :=
  .faultFrom h (.ite (.next _) (by split <;> exact .next _))

theorem execScrubRead_runsWhere {table idx : Nat} {bad : Bool} (h : ok → idx < scrubSize table) :
    RunsWhere ok (execScrubRead table idx bad s) :=
  .faultFrom h (.ite (.next _) (.ite (by split <;> exact .next _) (.next _)))

theorem execParityRestore_runsWhere {table idx : Nat} (h : ok → idx < scrubSize table) :
    RunsWhere ok (execParityRestore table idx s) :=
  .faultFrom h (.ite (by split <;> exact .next _) (.ite (.next _) (.next _)))

theorem execCoreSubstitution_runsWhere {cluster : Nat} {bankBad : Bool} (h : ok → cluster < 16) :
    RunsWhere ok (execCoreSubstitution cluster bankBad s) :=
  .faultFrom h (by dsimp only; split <;> exact .next _)

theorem execMpFailoverDone_runsWhere : RunsWhere ok (execMpFailoverDone s) := by
  unfold execMpFailoverDone
  split <;> exact .next _

theorem execMpRestartDone_runsWhere {mp : Nat} {pass : Bool} (h : ok → mp < 2) : RunsWhere ok (execMpRestartDone mp pass s) :=
  .faultFrom h (.ite (.next _) (.next _))

theorem execPoolAlloc_runsWhere {size block : Nat} : RunsWhere ok (execPoolAlloc size block s) := by
  refine .ite (.next _) ?_
  dsimp only
  split <;> exact .next _

theorem execBakeDrainTimeout_runsWhere : RunsWhere ok (execBakeDrainTimeout s) := by
  unfold execBakeDrainTimeout
  split
  · exact .ite (.next _) (.next _)
  · exact .next _

theorem execBakePrepareDone_runsWhere : RunsWhere ok (execBakePrepareDone s) := by
  unfold execBakePrepareDone
  split <;> exact .next _

end

/-! ### What well-formed operands pass -/

theorem lt_and_lt {a b m n : Nat} (h : (decide (a < m) && decide (b < n)) = true) : a < m ∧ b < n := by
  simpa using h

theorem Req.box_lt_of_wf {r : Req} (h : r.wf = true) : r.box < 32 := (Laws.BoxesOwned.of_req h).1

theorem DomIn.port_lt_of_wf {m : DomIn} (h : m.wf = true) : m.port < 512 := by
  simp only [DomIn.wf, Bool.and_eq_true, decide_eq_true_eq] at h
  tauto

theorem peerIndex_of_wf {n : Nat} (h : decide (n < 64 ∨ n = 255) = true) : peerIndex n = true := by
  simpa [peerIndex] using h

/-- The queues that WRED_AVERAGE_UPDATE refuses are those of no number (R131). -/
theorem queue_of_wf {q : Nat} (h : queueNumber q = true) : ¬(35072 ≤ q ∨ (32768 ≤ q ∧ q % 8 ≠ 0)) := by
  simp only [queueNumber, Bool.or_eq_true, Bool.and_eq_true, decide_eq_true_eq, beq_iff_eq] at h
  omega

/-- Function 1 exists in x8 + x8 alone (R15). -/
theorem State.fnExists_of_lt {s : State} {fn : Nat} (h : fn < 2) (hfn : s.ident.bifurcated = true ∨ (fn == 1) = false) :
    s.fnExists fn = true := by
  obtain rfl | rfl : fn = 0 ∨ fn = 1 := by omega
  · rfl
  · simpa [State.fnExists] using hfn

/-- An SPDM transport is a function's DOE, or SMBus (R448). -/
theorem transport_of_wf {s : State} {n : Nat} (h : n < 3) (hfn : s.ident.bifurcated = true ∨ (n == 1) = false) :
    ¬(3 ≤ n ∨ (n ≤ 1 ∧ s.fnExists n = false)) := by
  rintro (hbeyond | ⟨hle, hnone⟩)
  · omega
  · simp [State.fnExists_of_lt (Nat.lt_succ_of_le hle) hfn] at hnone

/-- Every command answers a next state where the device has what it names, and is refused nowhere. -/
theorem exec_runsWhere (i : Instr) (s : State) : RunsWhere (s.provides i) (exec i s) :=
  match i with
  | .memGetMap r | .memSetRegions r | .memGetHealth r | .portSetMode r | .portGetStatus r | .portSetMac r
  | .portSetFlow r | .portSetThrottle r | .portSetEee r | .portSetLaneMap r | .portGetMargin r | .portGetCounters r
  | .portSetAdmin r | .portSetMargin r | .prismSetProfile r | .prismSetSelect r | .prismSetPort r | .prismWriteRule r
  | .prismReadRule r | .prismGetCounters r | .prismGetRuleCounters r | .prismGetEpoch r | .fwdInsert r | .fwdDelete r
  | .fwdLookup r | .fwdSetVlan r | .fwdSetRoute r | .fwdSetNexthop r | .fwdSetEcmp r | .fwdSetTemplate r
  | .fwdSetRouter r | .fwdSetLearn r | .fwdSetAging r | .fwdFlush r | .fwdGetCounters r | .fwdGetOccupancy r
  | .bufSetClass r | .bufSetPortClass r | .bufSetHeadroom r | .bufSetPfcTx r | .bufSetWredProfile r | .bufSetQueue r
  | .bufGetStatus r | .bufGetPort r | .bufGetCounters r | .bufGetPools r | .fabSetParams r | .fabSetPort r
  | .fabGetStatus r | .fabGetPair r | .fabSetPlane r | .fabGetCounters r | .schedSetNode r | .schedGetNode r
  | .polSet r | .polGet r | .polSetPort r | .loupeSetProfile r | .loupeSetQueue r | .loupeGet r | .schedGetCounters r
  | .timeGet r | .timeAdjust r | .timeSetPtp r | .timeSetPort r | .timeSetPps r | .gateSetList r | .gateGetStatus r
  | .timeGetCounters r | .frerSetStream r | .frerGetStream r | .frerSetPort r | .frerResetStream r | .redGetHealth r
  | .redSwitchover r | .redResync r | .redGetCounters r | .fixSetCluster r | .fixGetFlow r | .fixGetLog r
  | .fixRelease r | .fixFlush r | .fixGetReceipt r | .leavenGetCluster r | .leavenSetEvents r | .leavenGetCore r
  | .fixGetCounters r | .proofSetClass r | .proofSetTarget r | .proofSetState r | .proofGetTarget r | .shelfSet r
  | .shelfGet r | .shelfSetBus r | .proofGetCounters r | .devGetInfo r | .devGetResult r | .devEcho r
  | .devGetCounters r | .bakeOpen r | .bakeCheck r | .bakeCommit r | .bakeAbort r | .bakeGetSet r | .domSetPort r
  | .domAdmit r | .domGetStatus r | .domForward r | .domBake r | .domAbort r | .domLeave r | .idGetInfo r
  | .idGetCert r | .idGetMeasurements r | .idWriteImage r | .idVerifyImage r | .idSetBoot r | .idCommitSvn r
  | .idPinManager r | .telSetMirror r | .telSetPortMirror r | .telGetMirror r | .telGetDrops r | .telGetCounters r
  | .pwrGetStatus r | .pwrSetDroop r | .pwrSetThermal r | .pwrSliceReset r | .pwrSlicePark r | .pwrRestore r
  | .pwrGetCounters r => mailboxCommand_runsWhere fun h => Req.box_lt_of_wf h.1
  | .devRestart r => restartAfter_runsWhere (mailboxCommand_runsWhere fun h => Req.box_lt_of_wf h.1)
  | .mbxDoorbell _ _ | .mbxRelease _ => onMailbox_runsWhere fun h => of_decide_eq_true h.1
  | .mbxAreaWrite _ _ _ => onMailbox_runsWhere fun h => (lt_and_lt h.1).1
  | .timeCapture _ | .sweepSnap _ _ | .evtRingReset _ _ | .evtEnableWrite _ _ | .evtHeadWrite _ _ =>
    onRegister_runsWhere fun h => State.fnExists_of_lt (of_decide_eq_true h.1) h.2
  | .sweepRingReset _ _ _ | .sweepHeadWrite _ _ _ =>
    .ite (onRegister_runsWhere fun h => State.fnExists_of_lt (of_decide_eq_true h.1) h.2)
      (onRegister_runsWhere fun h => State.fnExists_of_lt (of_decide_eq_true h.1) h.2)
  | .txtsPop _ _ | .dmaDoorbell _ _ _ | .intPendingClear _ _ _ _ | .intMapWrite _ _ _ | .msixUnmask _ _ =>
    .faultFrom (fun h => (lt_and_lt h.1).2) (onRegister_runsWhere fun h => State.fnExists_of_lt (lt_and_lt h.1).1 h.2)
  | .dmaStart _ _ _ | .dmaStop _ _ _ | .dmaAbort _ _ _ =>
    ctrlRow_runsWhere (fun h => (lt_and_lt h.1).2) (fun h => State.fnExists_of_lt (lt_and_lt h.1).1 h.2)
  | .reservedWrite _ _ _ | .badSizeAccess _ _ _ _ => onAccess_runsWhere fun h => State.fnExists_of_lt (lt_and_lt h.1).1 h.2
  | .registerWrite _ _ _ _ => execRegisterWrite_runsWhere fun h => State.fnExists_of_lt (lt_and_lt h.1).1 h.2
  | .pcieFunctionReset _ _ => onFunction_runsWhere fun h => State.fnExists_of_lt (lt_and_lt h.1).1 h.2
  | .hostLinkLoss _ | .d3hotEntry _ | .pcieLinkUp _ _ _ _ =>
    onFunction_runsWhere fun h => State.fnExists_of_lt (of_decide_eq_true h.1) h.2
  | .spdmRequest _ _ => .faultIf (fun h => transport_of_wf (of_decide_eq_true h.1) h.2) (.next _)
  | .descriptorFetched _ _ | .staleDescReread _ _ | .dmaTransferDone _ _ _ | .strictFlushDone _ | .tailRefetched _ _
  | .dmaReadError _ | .droopTrip _ | .stretchHoldEnd _ _ | .sliceFault _ | .sliceRestoreDone _ | .cellSend _
  | .marginSample _ _ _ | .datapathFailure _ | .gateEvent _ | .holdTimerExpiry _ | .idleSpindownTimer _
  | .parkDrainRelease _ | .pollCycleStart _ | .pollSlot _ | .shelfStatusReceived _ _ | .shelfAckReceived _ _
  | .shelfIdentReceived _ _ | .shelfReplyTimeout _ | .shelfReplyDiscarded _ _ | .keyUpdateTimer _
  | .spareDatapathFailed _ | .hpfPointerMismatch _ => .faultFrom (fun h => of_decide_eq_true h.1) (.next _)
  | .frameIngress _ _ _ | .grantDecision _ | .tsFifoRelay _ | .hpfPacketCommit _ | .planeResyncDone _ _ =>
    .faultFrom (fun h => of_decide_eq_true h.1) (.ite (.next _) (.next _))
  | .transmitDecision _ =>
    .faultFrom (fun h => of_decide_eq_true h.1) (.ite (.next _) (.ite (.next _) (.ite (.next _) (.next _))))
  | .frameTailReceived _ _ => execFrameTailReceived_runsWhere
  | .recirculationPass _ => execRecirculationPass_runsWhere fun h => of_decide_eq_true h.1
  | .mirrorQueueAdmit _ => execMirrorQueueAdmit_runsWhere fun h => of_decide_eq_true h.1
  | .pauseFrameReceived _ _ _ | .pfcFrameReceived _ _ _ | .pfcRefreshTimer _ | .linkDown _ | .linkUp _
  | .ltCapReceived _ _ _ | .ltReqReceived _ _ _ | .ltAckReceived _ _ _ | .ltNakReceived _ _ _ | .ltSwitchReceived _ _ _
  | .ltCapTick _ | .ltCapTimeout _ | .ltUtilWindow _ _ _ | .ltReqTimeout _ | .ltSwitchTimeout _ _ | .lpiIdleTimer _
  | .ltReceiversLocked _ | .ltAlignmentLost _ | .lpiWakeComplete _ => onPort_runsWhere fun h => of_decide_eq_true h.1
  | .pauseExpiry _ _ | .pfcWatchdogExpiry _ _ | .pfcStormEndTimer _ _ => onClass_runsWhere fun h => lt_and_lt h.1
  | .hbmCorrectableError _ _ _ => onStack_runsWhere fun h => lt_and_lt (Bool.and_eq_true_iff.mp h.1).1
  | .hbmUncorrectableRead _ pc _ _ =>
    onStack_runsWhere fun h => (lt_and_lt (Bool.and_eq_true_iff.mp h.1).1).imp id (Nat.sub_le pc 1).trans_lt
  | .hbmPcSpareDone _ => onStack_runsWhere fun h => ⟨of_decide_eq_true h.1, by decide⟩
  | .voqRequest _ _ | .grantReceived _ _ | .standingCreditTimeout _ _ | .creditRecall _ _ | .creditReturnReceived _ _ =>
    onVoq_runsWhere fun h => h.1
  | .spillReadback _ _ =>
    .faultFrom (fun h => (lt_and_lt h.1).1) (.faultFrom (fun h => (lt_and_lt h.1).2) (.next _))
  | .cellArrived _ _ => execCellArrived_runsWhere fun h => h.1
  | .linkNakReceived _ | .linkAckTimeout _ | .releaseCreditReceived _ _ | .shaperRefill _ =>
    .faultUnless (fun h => h.1) (.next _)
  | .gapTimeout _ _ => .faultIf (fun h => by simp [show pairExists _ _ = true from h.1]) (.ite (.next _) (.next _))
  | .planeFault _ _ =>
    execPlaneFault_runsWhere (fun h => of_decide_eq_true (Bool.and_eq_true_iff.mp h.1).1)
      (fun h => by simpa using (Bool.and_eq_true_iff.mp h.1).2)
  | .standbyTestLoss _ => execStandbyTestLoss_runsWhere fun h => of_decide_eq_true h.1
  | .frameTxComplete _ => execFrameTxComplete_runsWhere fun h => of_decide_eq_true h.1
  | .policerRefill _ => .faultUnless (fun h => of_decide_eq_true h.1) (.next _)
  | .wredAverageUpdate _ => .faultIf (fun h => queue_of_wf h.1) (.next _)
  | .loupeSample _ => execLoupeSample_runsWhere fun h => of_decide_eq_true h.1
  | .ptpMessageProcess _ _ => execPtpMessageProcess_runsWhere fun h => of_decide_eq_true h.1
  | .learnInsert _ => execLearnInsert_runsWhere fun h => of_decide_eq_true h.1
  | .agingVisit _ => execAgingVisit_runsWhere fun h => of_decide_eq_true h.1
  | .scrubRead _ _ _ => execScrubRead_runsWhere fun h => of_decide_eq_true h.1
  | .parityRestore _ _ => execParityRestore_runsWhere fun h => of_decide_eq_true h.1
  | .frerResetTimer _ | .frerLatentTest _ | .frerLatentReset _ => onStream_runsWhere fun h => of_decide_eq_true h.1
  | .coreFailure _ _ | .coreWatchdogExpiry _ _ | .spareSelftestDone _ _ _ => onCore_runsWhere fun h => h.1
  | .coreSubstitution _ _ => execCoreSubstitution_runsWhere fun h => of_decide_eq_true h.1
  | .mpRestartDone _ _ => execMpRestartDone_runsWhere fun h => of_decide_eq_true h.1
  | .skipNoticeArrival _ | .fixLogWriteTimeout _ _ | .batchTimer _ | .batchClose _ | .receiptSigned _ =>
    onCluster_runsWhere fun h => of_decide_eq_true h.1
  | .fixWorkItemDone _ _ => .faultFrom (fun h => (lt_and_lt h.1).2) (onCluster_runsWhere fun h => (lt_and_lt h.1).1)
  | .heartbeat _ | .heartbeatAck _ | .forwardReq _ | .forwardRsp _ | .prepare _ | .vote _ | .commit _ | .ack _ | .go _
  | .abort _ | .outcomeQuery _ | .outcome _ => domRow_runsWhere fun h => DomIn.port_lt_of_wf h.1
  | .received _ => .faultFrom (fun h => DomIn.port_lt_of_wf h.1) (.next _)
  | .enrol _ _ _ _ => .faultFrom (fun h => DomIn.port_lt_of_wf (Bool.and_eq_true_iff.mp h.1).1) (.next _)
  | .domainResendTimeout _ _ => .faultUnless (fun h => peerIndex_of_wf h.1) (.next _)
  | .tableNormalise => .ite (.next _) (.next _)
  | .mpFailoverDone => execMpFailoverDone_runsWhere
  | .poolAlloc _ _ => execPoolAlloc_runsWhere
  | .bakeDrainTimeout => execBakeDrainTimeout_runsWhere
  | .bakePrepareDone => execBakePrepareDone_runsWhere
  | .porstNLow | .porstNRise _ | .wrstNLow | .wrstNRise | .moarasBootDone | .supplyFault | .thermalSample _
  | .thermalClearTimer _ | .lifeHourTick _ | .ppsInEdge | .ppsInTimeout | .ppsOutEdge | .planeSwitchoverDone
  | .ptpAnnounceTimeout | .mpHeartbeatTick _ _ _ | .mpFault _ | .poolFree _ _ | .sweepInstant | .sweepDumpWritten
  | .bakeInstant | .heartbeatTick | .managerLossTimeout | .outcomeQueryTimer | .voteDeadline | .ackDeadline | .enrolTick
  | .moarasWatchdog _ | .moarasRestartDone | .suppliesValid | .timeSlewComplete | .ppsOutFall | .ptpIntervalTick => .next _

/-! ### Function 1 in x16 -/

/-- The row stops with a fault. -/
def Faults (o : Host.Outcome State Fault Refusal) : Prop := ∃ e, o = .fault e

namespace Faults

variable {c : Prop} [Decidable c] {o p : Host.Outcome State Fault Refusal}

theorem faultIf {e : Fault} (h : Faults o) : Faults (if c then .fault e else o) := by
  split
  · exact ⟨e, rfl⟩
  · exact h

theorem ite (ho : Faults o) (hp : Faults p) : Faults (if c then o else p) := by
  split
  · exact ho
  · exact hp

end Faults

section

variable {s : State} {fn : Nat}

theorem onRegister_faults {owner off size : Nat} {t : State} (h : s.fnExists fn = false) :
    Faults (onRegister s fn owner off size t) :=
  ⟨_, if_pos h⟩

theorem onAccess_faults {t : State} (h : s.fnExists fn = false) : Faults (onAccess s fn t) :=
  ⟨_, if_pos h⟩

theorem onFunction_faults {t : State} (h : s.fnExists fn = false) : Faults (onFunction s fn t) :=
  ⟨_, if_neg (by simp [h])⟩

theorem execSpdmRequest_faults {m : SpdmIn} (hle : fn ≤ 1) (h : s.fnExists fn = false) : Faults (execSpdmRequest fn m s) :=
  ⟨_, if_pos (.inr ⟨hle, h⟩)⟩

end

/-- A command that names function 1 faults in x16, which has none (R15, log entry 26). -/
theorem exec_faults_of_namesFn1 {i : Instr} {s : State} (hi : namesFn1 i = true) (hs : s.ident.bifurcated = false) :
    Faults (exec i s) := by
  have hfn {fn : Nat} (h : (fn == 1) = true) : s.fnExists fn = false := by
    simp [State.fnExists, hs, beq_iff_eq.mp h]
  cases i with
  | timeCapture | sweepSnap | evtRingReset | evtEnableWrite | evtHeadWrite => exact onRegister_faults (hfn hi)
  | sweepRingReset | sweepHeadWrite => exact .ite (onRegister_faults (hfn hi)) (onRegister_faults (hfn hi))
  | txtsPop | dmaStart | dmaStop | dmaAbort | dmaDoorbell | intPendingClear | intMapWrite | msixUnmask =>
    exact .faultIf (onRegister_faults (hfn hi))
  | reservedWrite | badSizeAccess => exact onAccess_faults (hfn hi)
  | registerWrite => exact .ite (onAccess_faults (hfn hi)) (onFunction_faults (hfn hi))
  | pcieFunctionReset | hostLinkLoss | d3hotEntry | pcieLinkUp => exact onFunction_faults (hfn hi)
  | spdmRequest => exact execSpdmRequest_faults (beq_iff_eq.mp hi).le (hfn hi)
  | _ => exact Bool.noConfusion hi

/-- Settles O7: a row faults only by a test of its operands, which fails where the device lacks what they name. -/
theorem onlyMissingUnitsStop : Obligations.OnlyMissingUnitsStop := by
  unfold Obligations.OnlyMissingUnitsStop
  refine fun i s => ⟨(exec_runsWhere i s).ne_refused, fun e he => ?_, exec_faults_of_namesFn1⟩
  have hnot : ¬ s.provides i := (exec_runsWhere i s).not_of_fault he
  simp only [State.provides, not_and_or, not_or, Bool.not_eq_true, Bool.not_eq_false] at hnot
  exact hnot.imp id And.symm

/-- Settles O8: where the operands name units that the device has, every row passes its tests. -/
theorem commandsRun : Obligations.CommandsRun := by
  unfold Obligations.CommandsRun
  exact fun i s hwf hfn => (exec_runsWhere i s).exists_next ⟨hwf, hfn⟩

end Sys2Proof.Machine
end

section
/-! PROOF. Two rows that do not do what is said of them: a spilled frame that cannot be charged stays spilled (R135, R142, R153),
and a frame with a slot that no port has waits in the VOQ of another port (R82, R161, R171). -/

namespace Sys2Proof.Machine

/-! ### SPILL_READBACK of a lossless frame whose priority has asserted XOFF and has no headroom -/

/-- Frame 9 of port 0, in a lossless class, spilled, with one cell to come back into. -/
def spilledPkt : Pkt :=
  { Pkt.init with id := 9, whole := true, spilled := true, prio := 4, dests := [0], bytes := List.replicate 60 0 }

/-- VOQ 0 of slice 0 is in spill with frame 9 alone, while the ingress port asserts XOFF for the frame's priority and
has no headroom configured, so that a cell can be charged to nothing. -/
def spillStuck : State :=
  { State.reset with
    pkts := [(9, spilledPkt)], nextPkt := 10
    fab := { State.reset.fab with voqs := [(0, { Voq.init with spillQ := [9] })] }
    buf := { State.reset.buf with spillVoqs := [spillKey 0 0], portClass := [(4, { PortClass.init with xoff := true })] } }

/-- The read-back leaves it where it is, for its cells can be charged to nothing. -/
theorem spillStuck_stays : ∃ t, exec (.spillReadback 0 0) spillStuck = .next t ∧ (t.voq 0 0).spillQ = [9] :=
  ⟨_, rfl, by decide +kernel⟩

/-- Refutes O50: cells enough are free, but the ingress charge of a spilled lossless frame takes no shared cell while XOFF stands,
and without headroom it finds none (R142, R147); the frame stays spilled and the VOQ in spill. -/
theorem not_transmitRows : ¬ Obligations.TransmitRows := by
  intro h
  obtain ⟨-, -, -, -, -, -, -, -, -, -, hspill⟩ := h
  obtain ⟨-, -, hback⟩ := hspill spillStuck 0 0 (by decide) (by decide)
  obtain ⟨t, ht, hq, -⟩ :=
    hback 9 (by decide +kernel) (by decide +kernel) rfl rfl rfl rfl (by decide +kernel) (by decide +kernel)
  obtain ⟨u, hu, hstays⟩ := spillStuck_stays
  rw [hu] at ht
  cases ht
  exact absurd (hstays.symm.trans hq) (by decide)

/-! ### FRAME_INGRESS of a frame that a rule gives slot 64, past the eight slots of a class -/

/-- Sixty bytes with addresses of zero and ethertype 0x1234. -/
def straySlotFrame : List Byte := List.replicate 12 0 ++ [0x12, 0x34] ++ List.replicate 46 0

/-- The one rule of slice 15: it hits every key and names tenant slot 64, which no port has. -/
def straySlotRule : Rule := { valid := true, value := 0, mask := 0, act := { RuleAct.init with flags := 2, slot := 64 } }

/-- VLAN 1 holds every port, address 0 is at port 510, and `straySlotRule` stands in both banks. -/
def strayTables : State :=
  let s := State.reset
  let g := { s.fwd.gen0 with vlan := [(1, { Vlan.init with valid := true, members := 2 ^ 548 - 1, untagged := 2 ^ 548 - 1 })] }
  let f : FwdSt := { s.fwd with gen0 := g, gen1 := g }
  let e : EmEntry := { EmEntry.init with ktype := 1, key := keyMac 0 0, vis := 3, data := emWord 1 510 }
  let b : PrismBank := { (s.prism.bank 0) with rules := [(3072 * 15, straySlotRule)] }
  { s with fwd := ((f.insertEntry e).map (·.1)).getD s.fwd, prism := { s.prism with bank0 := b, bank1 := b } }

/-- Ports 504 to 511 run 10G, the link of port 511 is up, and its transmitter is in low-power idle. -/
def strayPorts : State :=
  ((List.range 8).foldl (fun s i => s.updLane (504 + i) (fun l => { l with mode := 8, fec := 0 })) strayTables).updPort 511
    (fun q => { q with link := true, lpi := true })

/-- The class of priority 0 does not spill, and VOQ 64 of port 510, whose number is VOQ 0 of port 511, has credit and the express
bypass. -/
def strayExpress : State :=
  let s := (strayPorts.updVoq 15 (voqNo 510 0 64) (fun q => { q with credit := 64 })).updFabPort 510 0 (fun f => { f with express := true })
  { s with
    buf := { s.buf with classes := Tab.insert 0 { s.classCfg 0 with spill := false } s.buf.classes }
    fab := { s.fab with params := { s.fab.params with express := true } } }

def strayLook : Res5 := (strayExpress.arrived 511 straySlotFrame).passLook strayExpress.nextPkt

/-- The state in which step 7 takes the frame. -/
def strayPlan : State := strayExpress.planned strayLook

/-- The hypotheses of the express clause hold of the frame. -/
theorem strayExpress_goesTo : strayExpress.goesTo 511 straySlotFrame 510 strayPlan := by
  refine ⟨strayLook, ⟨⟨?_, ?_, ?_, ?_, ?_, ?_⟩, ?_, ?_, rfl⟩, ?_, ?_, ?_, ?_, ?_, ?_, ?_, ?_, rfl, ?_, ?_⟩ <;> decide +kernel

/-- It finds its cells, and its VOQ has the express bypass free. -/
theorem strayPlan_finds : strayPlan.finds (strayPlan.pkt strayExpress.nextPkt) 510 := by
  unfold State.finds; and_intros <;> decide +kernel

/-- Yet it waits in its VOQ: the start asks for the port that the VOQ's number names, which is in low-power idle. -/
theorem strayExpress_waits : ∃ t, exec (.frameIngress 511 straySlotFrame false) strayExpress = .next t
    ∧ (t.voq 15 (voqNo 510 0 64)).q = [0] :=
  ⟨_, rfl, by decide +kernel⟩

/-- Refutes O43: the last test of the express bypass asks for the port of the frame, the start of the frame for the port of its VOQ's
number. With slot 64, which PRISM_WRITE_RULE would refuse (R82) but the statement's states allow, these are ports 510 and 511; port 511
is in low-power idle, so the frame does not start and stays in its VOQ. -/
theorem not_ingressRows : ¬ Obligations.IngressRows := by
  intro h
  obtain ⟨-, -, -, -, -, hqueue, -⟩ := h
  obtain ⟨-, hexpress, -⟩ := hqueue _ _ _ _ _ _ strayExpress_goesTo rfl (by decide +kernel)
  obtain ⟨t, ht, hq, -⟩ := hexpress strayPlan_finds (by decide +kernel)
  obtain ⟨u, hu, hw⟩ := strayExpress_waits
  have hv : voqNo 510 (strayPlan.pkt strayExpress.nextPkt).tc (strayPlan.pkt strayExpress.nextPkt).slot = voqNo 510 0 64
      ∧ (strayPlan.pkt strayExpress.nextPkt).slice = 15 := by decide +kernel
  rw [hv.1, hv.2] at hq
  rw [hu] at ht
  cases ht
  exact absurd (hw.symm.trans hq) (by decide)

end Sys2Proof.Machine
end

section
/-! PROOF. The rules of the operations on ports, lanes and lane groups: what each leaves of every port and lane, and which parts of
the state it leaves alone. Parts come from the frames of the operations; records from their definitions. -/

namespace Sys2Proof.Machine

/-! ### Parts from frames -/

theorem Touch.or_self (w : Touch) : w.or w = w := by simp [Touch.or]

/-- No part of the mailboxes is in `w`. -/
def Touch.noMail (w : Touch) : Bool := !(w.boxes || w.jobs || w.hist || w.life || w.lostAsync || w.heldEvents)

theorem Frame.mbx {w : Touch} {s t : State} (h : Frame w s t) (hw : w.noMail = true) : t.mbx = s.mbx := by
  simp only [Touch.noMail, Bool.not_eq_true', Bool.or_eq_false_iff] at hw
  obtain ⟨⟨⟨⟨⟨hb, hj⟩, hh⟩, hl⟩, ha⟩, he⟩ := hw
  obtain ⟨hj, hg⟩ := h.jobs hj
  obtain ⟨h0, h1⟩ := h.hist hh
  obtain ⟨hr, hs, ht, hu, hv⟩ := h.life hl
  have e (m n : MbxSt) (k : m.boxes = n.boxes ∧ m.jobs = n.jobs ∧ m.gapCmds = n.gapCmds ∧ m.hist0 = n.hist0 ∧ m.hist1 = n.hist1
      ∧ m.ready = n.ready ∧ m.boots = n.boots ∧ m.restarts = n.restarts ∧ m.restarting = n.restarting ∧ m.readyUp = n.readyUp
      ∧ m.lostAsync = n.lostAsync ∧ m.heldEvents = n.heldEvents) : m = n := by
    cases m; cases n; simp_all
  exact e _ _ ⟨h.boxes hb, hj, hg, h0, h1, hr, hs, ht, hu, hv, h.lostAsync ha, h.heldEvents he⟩

section

variable {w : Touch} {s t : State}

theorem Frame.port_eq (h : Frame w s t) (hw : w.ports = false) : t.port = s.port := by
  unfold State.port; rw [h.ports hw]

theorem Frame.lane_eq (h : Frame w s t) (hw : w.lanes = false) : t.lane = s.lane := by
  unfold State.lane; rw [h.lanes hw]

theorem Frame.group_eq (h : Frame w s t) (hw : w.groups = false) : t.group = s.group := by
  unfold State.group; rw [h.groups hw]

theorem Frame.egq_eq (h : Frame w s t) (hw : w.egq = false) : t.egq = s.egq := by
  unfold State.egq; rw [h.egq hw]

theorem Frame.waiting_eq (h : Frame w s t) (hw : w.waitTx = false) : t.waiting = s.waiting := by
  unfold State.waiting; rw [h.waitTx hw]

theorem Frame.queuedBytes_eq (h : Frame w s t) (hw : w.pkts = false) : t.queuedBytes = s.queuedBytes := by
  unfold State.queuedBytes; rw [h.pkts hw]

end

/-- Steps that leave what `g` reads leave it together. -/
theorem foldl_read {α β : Type} (g : State → β) {f : State → α → State} {l : List α} (h : ∀ t, ∀ x ∈ l, g (f t x) = g t)
    (s : State) : g (l.foldl f s) = g s := by
  induction l generalizing s with
  | nil => rfl
  | cons x l ih => exact (ih (fun t y hy => h t y (.tail _ hy)) _).trans (h s x (.head _))

/-! ### Counters of a port (R68) -/

theorem Tab.get_bump (t : Tab Ctr) (k j n : Nat) :
    Tab.get 0 (Tab.bump t k n) j = if k = j then Tab.get 0 t j + BitVec.ofNat 64 n else Tab.get 0 t j := by
  unfold Tab.bump
  rw [Tab.get_upd]

theorem State.get_bumpPort (s : State) (p i n k : Nat) :
    Tab.get 0 (s.bumpPort p i n).tel.portCtr k
      = if 22 * p + i = k then Tab.get 0 s.tel.portCtr k + BitVec.ofNat 64 n else Tab.get 0 s.tel.portCtr k :=
  Tab.get_bump _ _ _ _

theorem State.get_bumpPort_same (s : State) (p i : Nat) :
    Tab.get 0 (s.bumpPort p i 1).tel.portCtr (22 * p + i) = Tab.get 0 s.tel.portCtr (22 * p + i) + 1 :=
  (s.get_bumpPort p i 1 _).trans (if_pos rfl)

theorem State.updPort_tel (s : State) (p : Nat) (f : PortSt → PortSt) : (s.updPort p f).tel = s.tel := rfl

/-! ### Control frames that wait or leave (R48) -/

/-- A port's record but for the control frames that wait. -/
def PortSt.sansCtl (q : PortSt) : PortSt := { q with ctlQueue := [] }

/-- Of the ports, no more than the control frames that wait differs. -/
def State.PortsKept (s t : State) : Prop := ∀ m, (t.port m).sansCtl = (s.port m).sansCtl

theorem State.PortsKept.refl (s : State) : s.PortsKept s := fun _ => rfl

theorem State.PortsKept.trans {s t u : State} (h : s.PortsKept t) (k : t.PortsKept u) : s.PortsKept u :=
  fun m => (k m).trans (h m)

theorem State.PortsKept.foldl {α : Type} {f : State → α → State} (h : ∀ (t : State) x, t.PortsKept (f t x)) (l : List α) (s : State) :
    s.PortsKept (l.foldl f s) := by
  induction l generalizing s with
  | nil => exact .refl s
  | cons x l ih => exact (h s x).trans (ih _)

/-- What a port's record says but for `ctlQueue` is read from the record without it. -/
theorem State.PortsKept.field {α : Type} {s t : State} (h : s.PortsKept t) (f : PortSt → α) (hf : ∀ q, f q.sansCtl = f q) (m : Nat) :
    f (t.port m) = f (s.port m) := by
  rw [← hf, h m, hf]

theorem State.countCtl_port (s : State) (p : Nat) (b : List Byte) : (s.countCtl p b).port = s.port :=
  (State.countCtl_frame (Touch.or_self _) .refl p b).port_eq rfl

theorem State.emit_port (s : State) (o : Output) : (s.emit o).port = s.port := rfl

theorem State.emit_tel (s : State) (o : Output) : (s.emit o).tel = s.tel := rfl

theorem State.bumpPort_port (s : State) (p i n : Nat) : (s.bumpPort p i n).port = s.port := rfl

theorem State.sendNow_port (s : State) (p : Nat) (o : Output) : (s.sendNow p o).port = s.port := by
  unfold State.sendNow
  rw [State.emit_port, State.bumpPort_port, State.bumpPort_port]

theorem State.sendCtl_port_other (s : State) {p m : Nat} (b : List Byte) (h : m ≠ p) : (s.sendCtl p b).port m = s.port m := by
  unfold State.sendCtl
  split
  · rfl
  · split
    · rw [State.port_updPort, if_neg (Ne.symm h)]
    · rw [State.sendNow_port, State.countCtl_port]

theorem State.sendCtl_kept (s : State) (p : Nat) (b : List Byte) : s.PortsKept (s.sendCtl p b) := by
  intro m
  unfold State.sendCtl
  split
  · rfl
  · split
    · rw [State.port_updPort]
      split
      · next h => rw [h]; rfl
      · rfl
    · rw [State.sendNow_port, State.countCtl_port]

/-- An idle transmitter that is awake sends the frame at once. -/
theorem State.sendCtl_now {s : State} {p : Nat} (b : List Byte) (hl : (s.port p).link = true) (ht : (s.port p).txPkt = none)
    (hi : (s.port p).lpi = false) : s.sendCtl p b = (s.countCtl p b).sendNow p (.control p b) := by
  unfold State.sendCtl
  rw [if_neg (by simp [hl]), if_neg (by simp [ht, hi])]

theorem State.countCtl_out (s : State) (p : Nat) (b : List Byte) : (s.countCtl p b).out = s.out :=
  (State.countCtl_frame (Touch.or_self _) .refl p b).out rfl

theorem State.sendNow_out (s : State) (p : Nat) (o : Output) : (s.sendNow p o).out = o :: s.out := rfl

/-- Control frames are counted as frames, bytes, PAUSE and PFC frames that leave: counters 8, 9, 11 and 12. -/
theorem State.countCtl_get {s : State} {p k : Nat} (b : List Byte) (h1 : k ≠ 22 * p + 11) (h2 : k ≠ 22 * p + 12) :
    Tab.get 0 (s.countCtl p b).tel.portCtr k = Tab.get 0 s.tel.portCtr k := by
  unfold State.countCtl
  split
  · rw [State.get_bumpPort, if_neg]
    split <;> omega
  · rfl

theorem State.sendNow_get {s : State} {p k : Nat} (o : Output) (h1 : k ≠ 22 * p + 8) (h2 : k ≠ 22 * p + 9) :
    Tab.get 0 (s.sendNow p o).tel.portCtr k = Tab.get 0 s.tel.portCtr k := by
  unfold State.sendNow
  rw [State.emit_tel, State.get_bumpPort, if_neg (Ne.symm h2), State.get_bumpPort, if_neg (Ne.symm h1)]

theorem State.sendCtl_get {s : State} {p k : Nat} (b : List Byte) (h : k = 22 * p + 16) :
    Tab.get 0 (s.sendCtl p b).tel.portCtr k = Tab.get 0 s.tel.portCtr k := by
  unfold State.sendCtl
  split
  · rfl
  · split
    · rfl
    · rw [State.sendNow_get _ (by omega) (by omega), State.countCtl_get _ (by omega) (by omega)]

theorem State.sendXoff_kept (s : State) (p c : Nat) : s.PortsKept (s.sendXoff p c) := by
  unfold State.sendXoff
  split
  · exact s.sendCtl_kept _ _
  · split
    · exact s.sendCtl_kept _ _
    · exact .refl s
  · exact .refl s

theorem State.sendXon_kept (s : State) (p c : Nat) : s.PortsKept (s.sendXon p c) := by
  unfold State.sendXon
  split
  · exact s.sendCtl_kept _ _
  · split
    · exact s.sendCtl_kept _ _
    · exact .refl s
  · exact .refl s

theorem State.assertXoff_kept (s : State) (p c : Nat) : s.PortsKept (s.assertXoff p c) := by
  unfold State.assertXoff
  split
  · exact .refl s
  · exact fun m => State.sendXoff_kept _ p c m

theorem State.releaseXoff_kept (s : State) (p c : Nat) : s.PortsKept (s.releaseXoff p c) := by
  unfold State.releaseXoff
  split
  · exact fun m => State.sendXon_kept _ p c m
  · exact .refl s

theorem State.xoffOne_kept (s : State) (k : Nat) : s.PortsKept (s.xoffOne k) := by
  unfold State.xoffOne
  dsimp only
  split
  · exact s.releaseXoff_kept _ _
  · split
    · split
      · exact s.releaseXoff_kept _ _
      · exact .refl s
    · split
      · exact s.assertXoff_kept _ _
      · exact .refl s

theorem State.xoffSweep_kept (s : State) : s.PortsKept s.xoffSweep :=
  .foldl State.xoffOne_kept _ s

/-! ### Lanes, and the health report (R268) -/

theorem State.healthIf_lane (s : State) (b : Bool) : (s.healthIf b).lane = s.lane :=
  (State.healthIf_frame (Touch.or_self _) .refl b).lane_eq rfl

theorem State.lane_foldl_updLane (s : State) (i n l : Nat) (f : Nat → LaneSt → LaneSt) :
    ((List.range n).foldl (fun t k => t.updLane (i + k) (f k)) s).lane l
      = if i ≤ l ∧ l < i + n then f (l - i) (s.lane l) else s.lane l := by
  induction n with
  | zero => rw [if_neg (by omega)]; rfl
  | succ n ih =>
    rw [List.range_succ, List.foldl_append, List.foldl_cons, List.foldl_nil, State.lane_updLane]
    by_cases h : i + n = l
    · subst h
      rw [if_pos rfl, ih, if_neg (by omega), if_pos (by omega), Nat.add_sub_cancel_left]
    · rw [if_neg h, ih]
      congr 1
      simp only [eq_iff_iff]
      omega

theorem State.lane_setLanes (s : State) (i n l : Nat) (f : Nat → LaneSt → LaneSt) :
    (s.setLanes i n f).lane l = if i ≤ l ∧ l < i + n then f (l - i) (s.lane l) else s.lane l := by
  unfold State.setLanes
  dsimp only
  rw [State.healthIf_lane, State.lane_foldl_updLane]

theorem State.lane_setLane (s : State) (i l : Nat) (f : LaneSt → LaneSt) :
    (s.setLane i f).lane l = if i = l then f (s.lane i) else s.lane l := by
  unfold State.setLane
  rw [State.healthIf_lane, State.lane_updLane]

theorem State.lane_parkLanes (s : State) (p w l : Nat) :
    (s.parkLanes p w).lane l = if p ≤ l ∧ l < p + s.fullWidth p then
      { s.lane l with parked := decide (w ≤ l - p), stale := (s.lane l).stale || decide (w ≤ l - p) } else s.lane l :=
  State.lane_setLanes _ _ _ _ _

/-- At full width no lane of the port is parked. -/
theorem State.lane_parkLanes_full {s : State} {p i : Nat} (h : i < s.fullWidth p) :
    ((s.parkLanes p (s.fullWidth p)).lane (p + i)).parked = false := by
  rw [State.lane_parkLanes, if_pos (by omega)]
  simp [h]

theorem State.parkLanes_port (s : State) (p w : Nat) : (s.parkLanes p w).port = s.port :=
  (State.parkLanes_frame (Touch.or_self _) .refl p w).port_eq rfl

theorem State.raise_port (s : State) (c v : Nat) (a : List Byte) : (s.raise c v a).port = s.port :=
  (State.raise_frame (Touch.or_self _) .refl c v a).port_eq rfl

/-! ### The Lane Throttle record (R55, R61) -/

theorem State.updLt_lt (s : State) (p : Nat) (f : LtSt → LtSt) : ((s.updLt p f).port p).lt = f (s.port p).lt :=
  congrArg PortSt.lt (State.port_updPort_same _ _ _)

theorem State.updLt_link (s : State) (p : Nat) (f : LtSt → LtSt) : ((s.updLt p f).port p).link = (s.port p).link := by
  unfold State.updLt
  rw [State.port_updPort_same]

theorem State.updLt_port_other (s : State) {p m : Nat} (f : LtSt → LtSt) (h : m ≠ p) : (s.updLt p f).port m = s.port m := by
  unfold State.updLt
  rw [State.port_updPort, if_neg (Ne.symm h)]

theorem State.ltSend_lt (s : State) (p type txId target nak flags : Nat) :
    ((s.ltSend p type txId target nak flags).port p).lt = (s.port p).lt :=
  (s.sendCtl_kept p _).field PortSt.lt (fun _ => rfl) p

theorem State.ltSend_port_other (s : State) {p m : Nat} (type txId target nak flags : Nat) (h : m ≠ p) :
    (s.ltSend p type txId target nak flags).port m = s.port m :=
  s.sendCtl_port_other _ h

/-- The record of an initiator that has sent REQ for the full width `full`. -/
def LtSt.widened (l : LtSt) (full : Nat) : LtSt :=
  { l with state := .widening, initiator := true, txId := (l.txId + 1) % 256, target := full, sends := 1, haveAck := false,
           locked := false, sentSwitch := false }

theorem State.ltWiden_lt (s : State) (p : Nat) : ((s.ltWiden p).port p).lt
    = if (s.port p).lt.state = .narrow then (s.port p).lt.widened (s.fullWidth p) else (s.port p).lt := by
  unfold State.ltWiden
  split
  · dsimp only
    rw [State.ltSend_lt, State.parkLanes_port, State.updLt_lt]
    rfl
  · rfl

theorem State.ltWiden_port_other (s : State) {p m : Nat} (h : m ≠ p) : (s.ltWiden p).port m = s.port m := by
  unfold State.ltWiden
  split
  · dsimp only
    rw [State.ltSend_port_other _ _ _ _ _ _ h, State.parkLanes_port, State.updLt_port_other _ _ h]
  · rfl

/-- What the host sets of the record (R67). -/
def LtSt.settings (l : LtSt) : Bool × Nat × Nat × Nat × Nat := (l.enable, l.minWidth, l.threshold, l.dwell, l.depth)

theorem State.ltWiden_settings (s : State) (p : Nat) : ((s.ltWiden p).port p).lt.settings = (s.port p).lt.settings := by
  rw [State.ltWiden_lt]
  split <;> rfl

theorem State.ltDepth_settings (s : State) (p : Nat) : ((s.ltDepth p).port p).lt.settings = (s.port p).lt.settings := by
  unfold State.ltDepth
  split
  · exact s.ltWiden_settings p
  · rfl

theorem State.ltDepth_port_other (s : State) {p m : Nat} (h : m ≠ p) : (s.ltDepth p).port m = s.port m := by
  unfold State.ltDepth
  split
  · exact s.ltWiden_port_other h
  · rfl

/-! ### A link that goes down (R39, R47, R50, R59) -/

theorem State.setWaiting_port (s : State) (p : Nat) (l : List (Nat × Output)) : (s.setWaiting p l).port = s.port := rfl

theorem State.stormClears_port (s : State) (p : Nat) : (s.stormClears p).port = s.port :=
  (State.stormClears_frame (Touch.or_self _) .refl p).port_eq rfl

theorem State.loseTx_port (s : State) (p : Nat) (c : Option Nat) : (s.loseTx p c).port = s.port :=
  (State.loseTx_frame (Touch.or_self _) .refl p c).port_eq rfl

theorem State.dropQueued_port (s : State) (p r : Nat) (keep : Nat → Bool) : (s.dropQueued p r keep).port = s.port :=
  (State.dropQueued_frame (Touch.or_self _) .refl p r keep).port_eq rfl

/-- A port whose link was up is down, with its record as R47 and R59 leave it; every other port stands. -/
theorem State.port_linkDown (s : State) (p m : Nat) (c : Option Nat) :
    (s.linkDown p c).port m
      = if (s.port p).link = true ∧ p = m then (s.port p).down s.time.sec s.time.ns else s.port m := by
  unfold State.linkDown
  by_cases h : (s.port p).link = true
  · rw [if_pos h]
    dsimp only
    rw [State.bumpPort_port, State.setWaiting_port, State.port_updPort, State.parkLanes_port, State.bumpPort_port,
      State.dropQueued_port, State.loseTx_port, State.stormClears_port]
    simp [h]
  · rw [if_neg h, if_neg (fun k => h k.1)]

theorem State.link_linkDown (s : State) (p : Nat) (c : Option Nat) : ((s.linkDown p c).port p).link = false := by
  rw [State.port_linkDown]
  split
  · rfl
  · next h => simpa using h

end Sys2Proof.Machine
end

section
/-! PROOF. The commands that set a port (R36 to R67): the checks of a live write see no mail, the settings are written, and what a
write sends or ends on the way leaves them. -/

namespace Sys2Proof.Machine

/-! ### The checks see the lanes, the ports and the buffer's reservations only -/

theorem State.portsOk_congr {s t : State} (hl : t.lanes = s.lanes) (hp : t.ports = s.ports)
    (hc : t.buf.portClass = s.buf.portClass) (hk : t.buf.classes = s.buf.classes) (l : List Nat) : t.portsOk l = s.portsOk l := by
  have e : t.portsOk l = State.portsOk
      { s with lanes := t.lanes, ports := t.ports, buf := { s.buf with portClass := t.buf.portClass, classes := t.buf.classes } } l := rfl
  rw [e, hl, hp, hc, hk]

theorem State.lanes_setLanes (s : State) (i n : Nat) (f : Nat → LaneSt → LaneSt) :
    (s.setLanes i n f).lanes = (List.range n).foldl (fun t k => Tab.upd LaneSt.init t (i + k) (f k)) s.lanes := by
  unfold State.setLanes
  dsimp only
  rw [(State.healthIf_frame (Touch.or_self _) .refl _).lanes rfl]
  exact (List.foldl_hom State.lanes (fun _ _ => rfl)).symm

theorem State.lanesChanged_mailed (s u : State) (g : Nat) (l : List (Nat × Nat)) :
    (s.mailed u).lanesChanged g l = s.lanesChanged g l := rfl

theorem State.putModes_mailed (s u : State) (p : List Byte) : ((s.mailed u).putModes p).lanes = (s.putModes p).lanes := by
  have e : (s.mailed u).lanes = s.lanes := rfl
  unfold State.putModes
  rw [State.lanes_setLanes, State.lanes_setLanes, State.lanesChanged_mailed, e]

theorem State.portsOk_mailed (l : List Nat) (s u : State) : (s.mailed u).portsOk l = s.portsOk l :=
  State.portsOk_congr rfl rfl rfl rfl l

theorem State.portsOk_putModes_mailed (p : List Byte) (l : List Nat) (s u : State) :
    ((s.mailed u).putModes p).portsOk l = (s.putModes p).portsOk l := by
  have ha : Frame _ (s.mailed u) ((s.mailed u).putModes p) := State.putModes_frame (Touch.or_self _) .refl p
  have hb : Frame _ s (s.putModes p) := State.putModes_frame (Touch.or_self _) .refl p
  exact State.portsOk_congr (State.putModes_mailed s u p) ((ha.ports rfl).trans (hb.ports rfl).symm)
    ((ha.portClass rfl).trans (hb.portClass rfl).symm) ((ha.classes rfl).trans (hb.classes rfl).symm) l

theorem State.putMac_mailed (p : List Byte) (s u : State) : (s.mailed u).putMac p = (s.putMac p).mailed u := rfl

theorem State.putFlow_mailed (p : List Byte) (s u : State) : (s.mailed u).putFlow p = (s.putFlow p).mailed u := rfl

theorem checkPortSetMode_mailed (p : List Byte) (s u : State) : checkPortSetMode p (s.mailed u) = checkPortSetMode p s := rfl

theorem checkPortSetMac_mailed (p : List Byte) (s u : State) : checkPortSetMac p (s.mailed u) = checkPortSetMac p s := rfl

theorem checkPortSetFlow_mailed (p : List Byte) (s u : State) : checkPortSetFlow p (s.mailed u) = checkPortSetFlow p s := rfl

theorem livePortSetMode_mailed (p : List Byte) (s u : State) : livePortSetMode p (s.mailed u) = livePortSetMode p s := by
  unfold livePortSetMode
  rw [State.portsOk_putModes_mailed, checkPortSetMode_mailed]

theorem livePortSetMac_mailed (p : List Byte) (s u : State) : livePortSetMac p (s.mailed u) = livePortSetMac p s := by
  unfold livePortSetMac
  rw [State.putMac_mailed, State.portsOk_mailed, checkPortSetMac_mailed]

theorem livePortSetFlow_mailed (p : List Byte) (s u : State) : livePortSetFlow p (s.mailed u) = livePortSetFlow p s := by
  unfold livePortSetFlow
  rw [State.putFlow_mailed, State.portsOk_mailed, checkPortSetFlow_mailed]

/-! ### What the writes leave -/

theorem modesOf_getD (p : List Byte) {i : Nat} (hi : i < 8) : (modesOf p).getD i (0, 0) = (rd p (4 + 2 * i) 1, rd p (5 + 2 * i) 1) := by
  simp [modesOf, List.getD_eq_getElem?_getD, hi]

/-- A lane whose codes do not change has them already. -/
theorem State.codes_of_not_changed {s : State} {g i : Nat} {l : List (Nat × Nat)} (hi : i < 8) (h : i ∉ s.lanesChanged g l) :
    (s.lane (8 * g + i)).mode = (l.getD i (0, 0)).1 ∧ (s.lane (8 * g + i)).fec = (l.getD i (0, 0)).2 := by
  simp only [State.lanesChanged, List.mem_filter, List.mem_range, hi, true_and, Bool.or_eq_true, bne_iff_ne, ne_eq, not_or,
    not_not] at h
  exact ⟨h.1.symm, h.2.symm⟩

theorem State.putModes_codes (s : State) (p : List Byte) {i : Nat} (hi : i < 8) :
    ((s.putModes p).lane (8 * rd p 0 2 + i)).mode = rd p (4 + 2 * i) 1
      ∧ ((s.putModes p).lane (8 * rd p 0 2 + i)).fec = rd p (5 + 2 * i) 1 := by
  unfold State.putModes
  dsimp only
  rw [State.lane_setLanes, if_pos (by omega), Nat.add_sub_cancel_left, modesOf_getD p hi]
  split
  · exact ⟨rfl, rfl⟩
  · next h =>
    have k := State.codes_of_not_changed hi (by simpa using h)
    rwa [modesOf_getD p hi] at k

/-- What PORT_SET_MODE does to its ports once the codes stand leaves the lanes alone. -/
theorem applyPortSetMode_lane (p : List Byte) (s : State) :
    (applyPortSetMode p s).lane = (State.putModes (((s.lanesChanged (rd p 0 2) (modesOf p)).map
      (fun i => s.portOfLane (8 * rd p 0 2 + i))).foldl (fun t q => t.linkDown q none) s) p).lane := by
  unfold applyPortSetMode
  rw [(State.xoffSweep_frame (Touch.or_self _) .refl).lane_eq rfl, foldl_read State.lane, foldl_read State.lane, foldl_read State.lane]
  · exact fun t x _ => rfl
  · intro t x _
    split <;> rfl
  · intro t x _
    split
    · rfl
    · exact (State.emptyVoqs_frame (Touch.or_self _) .refl x).lane_eq rfl

theorem applyPortSetMode_codes (p : List Byte) (s : State) {i : Nat} (hi : i < 8) :
    ((applyPortSetMode p s).lane (8 * rd p 0 2 + i)).mode = rd p (4 + 2 * i) 1
      ∧ ((applyPortSetMode p s).lane (8 * rd p 0 2 + i)).fec = rd p (5 + 2 * i) 1 := by
  rw [applyPortSetMode_lane]
  exact State.putModes_codes _ p hi

theorem applyPortSetMac_port (p : List Byte) (s : State) :
    ((applyPortSetMac p s).port (rd p 0 2)).maxLen = rd p 2 2 ∧ ((applyPortSetMac p s).port (rd p 0 2)).pvid = rd p 4 2
      ∧ ((applyPortSetMac p s).port (rd p 0 2)).pcp = rd p 6 1 := by
  have h : (s.putMac p).PortsKept (applyPortSetMac p s) := State.xoffSweep_kept _
  have e : (s.putMac p).port (rd p 0 2) = { s.port (rd p 0 2) with maxLen := rd p 2 2, pvid := rd p 4 2, pcp := rd p 6 1 } :=
    State.port_updPort_same _ _ _
  rw [h.field PortSt.maxLen (fun _ => rfl), h.field PortSt.pvid (fun _ => rfl), h.field PortSt.pcp (fun _ => rfl), e]
  exact ⟨rfl, rfl, rfl⟩

theorem applyPortSetFlow_port (p : List Byte) (s : State) :
    ((applyPortSetFlow p s).port (rd p 0 2)).fcMode = rd p 2 1 ∧ ((applyPortSetFlow p s).port (rd p 0 2)).pfcMask = rd p 3 1
      ∧ ((applyPortSetFlow p s).port (rd p 0 2)).watchdog = rd p 4 2 := by
  have h : (s.putFlow p).PortsKept (applyPortSetFlow p s) := State.xoffSweep_kept _
  have e : (s.putFlow p).port (rd p 0 2) = { s.port (rd p 0 2) with fcMode := rd p 2 1, pfcMask := rd p 3 1, watchdog := rd p 4 2 } :=
    State.port_updPort_same _ _ _
  rw [h.field PortSt.fcMode (fun _ => rfl), h.field PortSt.pfcMask (fun _ => rfl), h.field PortSt.watchdog (fun _ => rfl), e]
  exact ⟨rfl, rfl, rfl⟩

theorem applyPortSetThrottle_settings (p : List Byte) (s : State) :
    ((applyPortSetThrottle p s).port (rd p 0 2)).lt.settings
      = (rd p 2 1 == 1, rd p 3 1, rd p 4 1, rd p 6 2, rd p 8 2) := by
  unfold applyPortSetThrottle
  dsimp only
  split
  · rw [State.ltDepth_settings, State.updLt_lt]; rfl
  · rw [State.ltWiden_settings, State.updLt_lt]; rfl

theorem applyPortSetThrottle_other (p : List Byte) (s : State) {m : Nat} (h : m ≠ rd p 0 2) :
    (applyPortSetThrottle p s).port m = s.port m := by
  unfold applyPortSetThrottle
  dsimp only
  split
  · rw [State.ltDepth_port_other _ h, State.updLt_port_other _ _ h]
  · rw [State.ltWiden_port_other _ h, State.updLt_port_other _ _ h]

theorem applyPortSetAdmin_port (p : List Byte) (s : State) (h : rd p 2 1 ≤ 1) :
    ((applyPortSetAdmin p s).port (rd p 0 2)).admin = (rd p 2 1 == 1)
      ∧ (rd p 2 1 = 0 → ((applyPortSetAdmin p s).port (rd p 0 2)).link = false) := by
  unfold applyPortSetAdmin
  dsimp only
  split
  · next h1 => simp [h1]
  · next h1 =>
    have h0 : rd p 2 1 = 0 := by omega
    rw [State.port_updPort_same]
    exact ⟨by simp [h0], fun _ => State.link_linkDown _ _ _⟩

/-! ### O17 -/

section

variable {s u : State} {op : Nat} {p : List Byte}

/-- Mail and the shadow are not among the ports. -/
theorem State.port_of_written (h : u = (s.shadow op p).mailed u) : u.port = s.port := (congrArg State.port h).trans rfl

theorem State.lane_of_written (h : u = (s.shadow op p).mailed u) : u.lane = s.lane := (congrArg State.lane h).trans rfl

theorem State.group_of_written (h : u = (s.shadow op p).mailed u) : u.group = s.group := (congrArg State.group h).trans rfl

theorem State.port_of_mailed (h : u = s.mailed u) : u.port = s.port := (congrArg State.port h).trans rfl

theorem State.group_of_mailed (h : u = s.mailed u) : u.group = s.group := (congrArg State.group h).trans rfl

theorem checkPortSetEee_none (hp : s.argPort p = true) (h1 : rd p 2 1 ≤ 1) (hr : resv p 3 1 = true)
    (ht : rd p 2 1 = 0 ∨ 1 ≤ rd p 4 4 ∧ rd p 4 4 ≤ 1000000) (hf : s.eeeFits (rd p 0 2) = true) :
    checkPortSetEee p s = none := by
  simp [checkPortSetEee, firstOf, need, hp, h1, hr, ht, hf]

theorem checkPortSetAdmin_none (hp : s.argPort p = true) (h1 : rd p 2 1 ≤ 1) (hr : resv p 3 1 = true) :
    checkPortSetAdmin p s = none := by
  simp [checkPortSetAdmin, need, hp, h1, hr]

end

/-- PORT_SET_LANE_MAP is never staged: its body answers by itself. -/
theorem portSetLaneMap_carried : Carried 0x0207 .portSetLaneMap (fun p s => checkLaneMap p s = none)
    (fun p s t => (t.group (rd p 0 2)).txMap = chunks 1 (slice p 4 8) ∧ (t.group (rd p 0 2)).rxMap = chunks 1 (slice p 12 8)
      ∧ (t.group (rd p 0 2)).txPol = rd p 20 1 ∧ (t.group (rd p 0 2)).rxPol = rd p 21 1
      ∧ ∀ g, g ≠ rd p 0 2 → t.group g = s.group g) := by
  intro r s hf _ hok
  have hu := begun_mbx hf
  have hbody : portSetLaneMapBody r (s.begun 0x0207 r) = (((s.begun 0x0207 r).updGroup (rd r.payload 0 2) (fun g =>
      { g with txMap := chunks 1 (slice r.payload 4 8), rxMap := chunks 1 (slice r.payload 12 8), txPol := rd r.payload 20 1,
               rxPol := rd r.payload 21 1 })).shadow 0x0207 r.payload, some (Resp.ok [])) := by
    unfold portSetLaneMapBody
    rw [show checkLaneMap r.payload (s.begun 0x0207 r) = none by rw [hu]; exact hok]
    rfl
  obtain ⟨t, hend, hresp, hmail, -⟩ := fresh_answered hf hbody rfl
  refine ⟨t, hend, hresp, ?_⟩
  dsimp only
  rw [State.group_of_written hmail.eq, State.group_updGroup_same]
  refine ⟨rfl, rfl, rfl, rfl, fun g hg => ?_⟩
  rw [State.group_updGroup, if_neg (Ne.symm hg), State.group_of_mailed hu]

/-- Settles O17: each body is `setCmd`, or answers at once; its check sees no mail, and what it writes is read back. -/
theorem portSettings : Obligations.PortSettings := by
  unfold Obligations.PortSettings
  refine ⟨?mode, ?mac, ?flow, ?throttle, ?eee, portSetLaneMap_carried, ?admin, ?margin⟩
  case mode =>
    refine carried_of (fun _ _ => rfl) (fun p s u hu hok => by rw [hu, livePortSetMode_mailed]; exact hok)
      (fun p s => (applyPortSetMode_frame (Touch.or_self _) .refl p).mbx rfl) (fun p s u t _ ht _ i hi => ?_)
    rw [State.lane_of_written ht]
    exact applyPortSetMode_codes p u hi
  case mac =>
    refine carried_of (fun _ _ => rfl) (fun p s u hu hok => by rw [hu, livePortSetMac_mailed]; exact hok)
      (fun p s => (applyPortSetMac_frame (Touch.or_self _) .refl p).mbx rfl) (fun p s u t _ ht _ => ?_)
    rw [State.port_of_written ht]
    exact applyPortSetMac_port p u
  case flow =>
    refine carried_of (fun _ _ => rfl) (fun p s u hu hok => by rw [hu, livePortSetFlow_mailed]; exact hok)
      (fun p s => (applyPortSetFlow_frame (Touch.or_self _) .refl p).mbx rfl) (fun p s u t _ ht _ => ?_)
    rw [State.port_of_written ht]
    exact applyPortSetFlow_port p u
  case throttle =>
    refine carried_of (fun _ _ => rfl) (fun p s u hu hok => by rw [hu]; exact hok)
      (fun p s => (applyPortSetThrottle_frame (Touch.or_self _) .refl p).mbx rfl) (fun p s u t hu ht _ => ?_)
    have h := applyPortSetThrottle_settings p u
    simp only [LtSt.settings, Prod.mk.injEq] at h
    obtain ⟨he, hm, hth, hd, hq⟩ := h
    rw [State.port_of_written ht, ← State.port_of_mailed hu]
    exact ⟨he, hm, hth, hd, hq, fun m => applyPortSetThrottle_other p u⟩
  case eee =>
    refine carried_of (fun _ _ => rfl) (fun p s u hu ⟨hp, h1, hr, htm, hfit⟩ => ?_) (fun p s => rfl)
      (fun p s u t hu ht _ => ?_)
    · exact checkPortSetEee_none (by rw [hu]; exact hp) h1 hr htm (by rw [hu]; exact hfit)
    · rw [State.port_of_written ht, ← State.port_of_mailed hu]
      unfold applyPortSetEee
      rw [State.port_updPort_same]
      refine ⟨rfl, rfl, fun m hm => ?_⟩
      rw [State.port_updPort, if_neg (Ne.symm hm)]
  case admin =>
    refine carried_of (fun _ _ => rfl) (fun p s u hu ⟨hp, h1, hr⟩ => ?_)
      (fun p s => (applyPortSetAdmin_frame (Touch.or_self _) .refl p).mbx rfl) (fun p s u t _ ht ⟨_, h1, _⟩ => ?_)
    · exact checkPortSetAdmin_none (by rw [hu]; exact hp) h1 hr
    · rw [State.port_of_written ht]
      exact applyPortSetAdmin_port p u h1
  case margin =>
    refine carried_of (fun _ _ => rfl) (fun p s u _ hok => ?_) (fun p s => rfl) (fun p s u t _ ht _ => ?_)
    · simp [checkPortSetMargin, need, hok]
    · rw [congrArg State.pwr ht]
      exact ⟨rfl, rfl, rfl⟩

end Sys2Proof.Machine
end

section
/-! PROOF. The commands that read a port (R65, R67, R68): what the FEC has counted enters the counters first. -/

namespace Sys2Proof.Machine

theorem State.mailed_mailOnly (s u : State) : MailOnly s (s.mailed u) := by constructor <;> rfl

/-- A state with the mail of another, and then of a third, differs in mail alone. -/
theorem State.mailOnly_of_mailed {s t u : State} (h : t = (s.mailed u).mailed t) : MailOnly s t := by
  rw [h]
  exact (s.mailed_mailOnly u).trans (State.mailed_mailOnly _ t)

/-! ### What the FEC has counted (log entry 3) -/

theorem State.fecPort_mailed (s u : State) (p : Nat) : (s.mailed u).fecPort p = (s.fecPort p).mailed u := by
  unfold State.fecPort
  rw [apply_ite (State.mailed · u)]
  rfl

theorem State.fecPort_mbx (s : State) (p : Nat) : (s.fecPort p).mbx = s.mbx :=
  (State.fecPort_frame (Touch.or_self _) .refl p).mbx rfl

theorem State.fecLane_mailed (s u : State) (l : Nat) : (s.mailed u).fecLane l = (s.fecLane l).mailed u := by
  unfold State.fecLane
  rw [apply_ite (State.mailed · u)]
  rfl

theorem State.fecGroup_mailed (s u : State) (g : Nat) : (s.mailed u).fecGroup g = (s.fecGroup g).mailed u :=
  List.foldl_hom (State.mailed · u) (fun _ _ => State.fecLane_mailed _ _ _)

theorem State.fecGroup_mbx (s : State) (g : Nat) : (s.fecGroup g).mbx = s.mbx :=
  foldl_read State.mbx (fun _ _ _ => (State.fecLane_frame (Touch.or_self _) .refl _).mbx rfl) s

/-- A lane's record with its symbol count at 0. -/
def LaneSt.sansSyms (l : LaneSt) : LaneSt := { l with fecSyms := 0 }

theorem State.drawn_lane (s : State) (n : Nat) : (s.drawn n).lane = s.lane := rfl

theorem State.lane_fecLane_other (s : State) {l m : Nat} (h : m ≠ l) : (s.fecLane l).lane m = s.lane m := by
  unfold State.fecLane
  split
  · rfl
  · rw [State.drawn_lane, State.lane_updLane, if_neg (Ne.symm h)]

theorem State.lane_fecLane_sansSyms (s : State) (l m : Nat) : ((s.fecLane l).lane m).sansSyms = (s.lane m).sansSyms := by
  by_cases h : m = l
  · subst h
    unfold State.fecLane
    split
    · rfl
    · rw [State.drawn_lane, State.lane_updLane_same]
      rfl
  · rw [State.lane_fecLane_other s h]

theorem State.lane_fecGroup_sansSyms (s : State) (g m : Nat) : ((s.fecGroup g).lane m).sansSyms = (s.lane m).sansSyms :=
  foldl_read (fun t => (t.lane m).sansSyms) (fun _ _ _ => State.lane_fecLane_sansSyms _ _ _) s

theorem State.lane_fecGroup_other (s : State) {g m : Nat} (h : m / 8 ≠ g) : (s.fecGroup g).lane m = s.lane m := by
  refine foldl_read (State.lane · m) (fun t i hi => State.lane_fecLane_other t ?_) s
  have := List.mem_range.mp hi
  omega

/-- The counts of a lane group start again from 0 (R67). -/
def State.clearSyms (s : State) (g : Nat) : State :=
  (List.range 8).foldl (fun t i => t.updLane (8 * g + i) (fun l => { l with fecSyms := 0 })) s

theorem State.clearSyms_mbx (s : State) (g : Nat) : (s.clearSyms g).mbx = s.mbx := by
  unfold State.clearSyms
  exact foldl_read State.mbx (fun t i _ => (State.updLane_frame (Touch.or_self _) .refl _ _).mbx rfl) s

theorem State.lane_clearSyms (s : State) (g l : Nat) :
    (s.clearSyms g).lane l = if 8 * g ≤ l ∧ l < 8 * g + 8 then (s.lane l).sansSyms else s.lane l :=
  State.lane_foldl_updLane s (8 * g) 8 l (fun _ x => x.sansSyms)

/-! ### O18 -/

section

variable {s u : State}

theorem State.mailed_lane (s u : State) : (s.mailed u).lane = s.lane := rfl

theorem lane_of_mailed (h : u = s.mailed u) : u.lane = s.lane := (congrArg State.lane h).trans rfl

theorem argPort_of_mailed {p : List Byte} (h : u = s.mailed u) : u.argPort p = s.argPort p :=
  (congrArg (State.argPort · p) h).trans rfl

theorem portStatus_of_mailed {n : Nat} (h : u = s.mailed u) : u.portStatus n = s.portStatus n :=
  (congrArg (State.portStatus · n) h).trans rfl

theorem fecPort_of_mailed {n : Nat} (h : u = s.mailed u) : u.fecPort n = (s.fecPort n).mailed u :=
  (congrArg (State.fecPort · n) h).trans (State.fecPort_mailed s u n)

theorem fecGroup_of_mailed {g : Nat} (h : u = s.mailed u) : u.fecGroup g = (s.fecGroup g).mailed u :=
  (congrArg (State.fecGroup · g) h).trans (State.fecGroup_mailed s u g)

end

theorem portGetStatus_answered : Answered 0x0202 .portGetStatus (fun r s => s.argPort r.payload = true)
    (fun r s => s.portStatus (rd r.payload 0 2)) := by
  refine answered_of (fun _ _ => rfl) (fun r s u _ _ hu hok => ?_)
  unfold portGetStatusBody readCmd
  dsimp only
  rw [if_pos ((argPort_of_mailed hu).trans hok), portStatus_of_mailed hu]

theorem portGetCounters_does : Does 0x0209 .portGetCounters (fun r s => s.argPort r.payload = true)
    (fun r s => (List.range 22).flatMap (fun i =>
      le 8 ((s.fecPort (rd r.payload 0 2)).portCtr (rd r.payload 0 2) i).toNat))
    (fun r s t => MailOnly (s.fecPort (rd r.payload 0 2)) t) := by
  refine does_of (fun r u => u.fecPort (rd r.payload 0 2)) (fun _ _ => rfl) (fun r s u _ _ hu hok => ⟨?_, State.fecPort_mbx _ _, ?_⟩)
  · unfold portGetCountersBody
    rw [if_pos ((argPort_of_mailed hu).trans hok), fecPort_of_mailed hu]
    rfl
  · intro t ht
    rw [fecPort_of_mailed hu] at ht
    exact State.mailOnly_of_mailed ht

/-- The margins of a lane group (R67). -/
def State.marginBytes (s : State) (g : Nat) : List Byte :=
  (List.range 8).flatMap (fun i =>
    let l := s.lane (8 * g + i)
    le 2 l.eyeH ++ le 2 l.eyeW ++ le 1 (b2n l.stale + 2 * b2n l.below) ++ le 1 0 ++ le 2 0 ++ le 8 l.fecSyms)

theorem portGetMarginBody_eq {r : Req} (h : rd r.payload 0 2 ≤ 63) (s : State) :
    portGetMarginBody r s = ((s.fecGroup (rd r.payload 0 2)).clearSyms (rd r.payload 0 2),
      some (Resp.ok ((s.fecGroup (rd r.payload 0 2)).marginBytes (rd r.payload 0 2)))) := by
  unfold portGetMarginBody
  rw [if_neg (by omega)]
  rfl

theorem State.marginBytes_mailed (s u : State) (g : Nat) : (s.mailed u).marginBytes g = s.marginBytes g := rfl

theorem State.clearSyms_lane_congr {s t : State} (h : t.lane = s.lane) (g : Nat) : (t.clearSyms g).lane = (s.clearSyms g).lane := by
  funext l
  rw [State.lane_clearSyms, State.lane_clearSyms, h]

theorem portGetMargin_does : Does 0x0208 .portGetMargin (fun r _ => rd r.payload 0 2 ≤ 63)
    (fun r s => (s.fecGroup (rd r.payload 0 2)).marginBytes (rd r.payload 0 2))
    (fun r s t => (∀ i, i < 8 → t.lane (8 * rd r.payload 0 2 + i) = { s.lane (8 * rd r.payload 0 2 + i) with fecSyms := 0 })
      ∧ ∀ l, l / 8 ≠ rd r.payload 0 2 → t.lane l = s.lane l) := by
  refine does_of (fun r u => (u.fecGroup (rd r.payload 0 2)).clearSyms (rd r.payload 0 2)) (fun _ _ => rfl)
    (fun r s u _ _ hu hok => ⟨?_, ?_, fun t ht => ?_⟩)
  · rw [portGetMarginBody_eq hok, fecGroup_of_mailed hu, State.marginBytes_mailed]
  · rw [State.clearSyms_mbx, State.fecGroup_mbx]
  · have hl : t.lane = ((s.fecGroup (rd r.payload 0 2)).clearSyms (rd r.payload 0 2)).lane := by
      rw [fecGroup_of_mailed hu] at ht
      exact (lane_of_mailed ht).trans (State.clearSyms_lane_congr (State.mailed_lane _ _) _)
    rw [hl]
    refine ⟨fun i hi => ?_, fun l h => ?_⟩
    · rw [State.lane_clearSyms, if_pos (by omega)]
      exact State.lane_fecGroup_sansSyms _ _ _
    · rw [State.lane_clearSyms, if_neg (by omega), State.lane_fecGroup_other _ h]

/-- Settles O18: the bodies answer at once; what the FEC has counted enters the same counters with and without the request queued. -/
theorem portReads : Obligations.PortReads :=
  ⟨portGetStatus_answered, portGetCounters_does, portGetMargin_does⟩

end Sys2Proof.Machine
end

section
/-! PROOF. The Lane Throttle exchange (R53 to R63): a frame for the MAC is counted and acted on, and each act is a rule for the
record of its port. -/

namespace Sys2Proof.Machine

/-! ### Rows about a port -/

section

variable {i : Instr} {s t : State} {post : State → Prop} {p : Nat}

theorem onPort_next (hp : p < 512) : onPort p t = .next t := if_neg (by omega)

theorem ends_of_onPort (hp : p < 512) (he : exec i s = onPort p t) (h : post t) : Ends i s post :=
  ⟨t, he.trans (onPort_next hp), h⟩

theorem idles_of_onPort (hp : p < 512) (he : exec i s = onPort p t) (h : t = s) : Idles i s :=
  he.trans (h ▸ onPort_next hp)

end

/-! ### Frames for the MAC (R44, R45) -/

/-- A control frame is counted at its port before it acts (R68). -/
def State.ctlCounted (s : State) (p : Nat) (b : List Byte) : State := (s.bumpPort p 0 1).bumpPort p 1 (b.length + 4)

theorem State.ctlCounted_frame (s : State) (p : Nat) (b : List Byte) : Frame { portCtr := true } s (s.ctlCounted p b) :=
  State.bumpPort_frame (Touch.or_self _) (State.bumpPort_frame (Touch.or_self _) .refl _ _ _) _ _ _

theorem State.ctlCounted_port (s : State) (p : Nat) (b : List Byte) : (s.ctlCounted p b).port = s.port :=
  (s.ctlCounted_frame p b).port_eq rfl

theorem State.ctlCounted_get {s : State} {p k : Nat} (b : List Byte) (h0 : k ≠ 22 * p) (h1 : k ≠ 22 * p + 1) :
    Tab.get 0 (s.ctlCounted p b).tel.portCtr k = Tab.get 0 s.tel.portCtr k := by
  unfold State.ctlCounted
  rw [State.get_bumpPort, if_neg (Ne.symm h1), State.get_bumpPort, if_neg (by omega)]

theorem State.ctlRx_of_takesCtl {s : State} {p : Nat} {b : List Byte} (h : s.takesCtl p b) (act : State → State) :
    s.ctlRx p b true act = act (s.ctlCounted p b) := by
  obtain ⟨-, hl, hmin, hmax⟩ := h
  unfold State.ctlRx
  rw [if_neg (by simp [hl])]
  dsimp only
  rw [if_neg (by omega), if_neg (by omega), if_neg (by simp)]
  rfl

theorem State.ltRx_of_takesLt {s : State} {p ty : Nat} {b : List Byte} (h : s.takesLt p ty b) (act : State → State) :
    s.ltRx p ty b true act = act (s.ctlCounted p b) := by
  obtain ⟨hc, he, hs, hv, ht⟩ := h
  unfold State.ltRx
  rw [if_pos ⟨he, hs⟩, if_neg (by simp [hv]), if_pos ht, State.ctlRx_of_takesCtl hc]

theorem State.takesLt_link {s : State} {p ty : Nat} {b : List Byte} (h : s.takesLt p ty b) : (s.port p).link = true := by
  obtain ⟨⟨-, hl, -⟩, -⟩ := h
  exact hl

/-- A Lane Throttle frame acts on a state that differs from the one before it in port counters alone. -/
theorem ends_of_ltRx {i : Instr} {s : State} {post : State → Prop} {p ty : Nat} {b : List Byte} (h : s.takesLt p ty b)
    (act : State → State) (he : exec i s = onPort p (s.ltRx p ty b true act))
    (hpost : ∀ u, Frame { portCtr := true } s u → post (act u)) : Ends i s post :=
  ends_of_onPort h.1.1 he (by rw [State.ltRx_of_takesLt h]; exact hpost _ (s.ctlCounted_frame p b))

theorem State.fullWidth_congr {s t : State} (h : t.lane = s.lane) : t.fullWidth = s.fullWidth := by
  unfold State.fullWidth
  rw [h]

theorem Frame.fullWidth_eq {w : Touch} {s t : State} (h : Frame w s t) (hw : w.lanes = false) : t.fullWidth = s.fullWidth :=
  State.fullWidth_congr (h.lane_eq hw)

theorem Frame.ltFits_eq {w : Touch} {s t : State} (h : Frame w s t) (hw : w.lanes = false) : t.ltFits = s.ltFits := by
  funext p
  unfold State.ltFits State.portActive
  rw [h.lane_eq hw]

/-- A Lane Throttle frame tells of its port and of its lanes. -/
theorem Frame.ltFrame_eq {w : Touch} {s t : State} (h : Frame w s t) (hp : w.ports = false) (hl : w.lanes = false) :
    t.ltFrame = s.ltFrame := by
  funext p
  unfold State.ltFrame State.widthNow
  rw [h.port_eq hp, h.fullWidth_eq hl]

/-! ### Sending -/

theorem State.ltSend_lane (s : State) (p type txId target nak flags : Nat) : (s.ltSend p type txId target nak flags).lane = s.lane :=
  (State.ltSend_frame (Touch.or_self _) .refl p type txId target nak flags).lane_eq rfl

theorem State.ltSend_queuedBytes (s : State) (p type txId target nak flags : Nat) :
    (s.ltSend p type txId target nak flags).queuedBytes = s.queuedBytes :=
  (State.ltSend_frame (Touch.or_self _) .refl p type txId target nak flags).queuedBytes_eq rfl

/-- A Lane Throttle frame is not a pause or PFC frame: it is not counted as one. -/
theorem State.ltSend_out {s : State} {p : Nat} (type txId target nak flags : Nat) (hl : (s.port p).link = true)
    (ht : (s.port p).txPkt = none) (hi : (s.port p).lpi = false) :
    (s.ltSend p type txId target nak flags).out = .control p (s.ltFrame p type txId target nak flags) :: s.out := by
  unfold State.ltSend
  rw [State.sendCtl_now _ hl ht hi, State.sendNow_out, State.countCtl_out]

/-! ### What each act leaves in the record -/

section

variable (s : State) (p : Nat)

theorem State.ltSwitch_lt : ((s.ltSwitch p).port p).lt = { (s.port p).lt with
    sentSwitch := true, width := if (s.port p).lt.target = s.fullWidth p then 0 else (s.port p).lt.target } := by
  unfold State.ltSwitch
  dsimp only
  rw [State.parkLanes_port, State.updLt_lt, State.ltSend_lt, State.fullWidth_congr (State.ltSend_lane s _ _ _ _ _ _)]

theorem State.ltSwitch_queuedBytes : (s.ltSwitch p).queuedBytes = s.queuedBytes := by
  unfold State.ltSwitch
  dsimp only
  rw [(State.parkLanes_frame (Touch.or_self _) .refl _ _).queuedBytes_eq rfl,
    (State.updLt_frame (Touch.or_self _) .refl _ _).queuedBytes_eq rfl, State.ltSend_queuedBytes]

theorem State.ltAck_lt : ((s.ltAck p).port p).lt = { (s.port p).lt with haveAck := true } := by
  unfold State.ltAck
  dsimp only
  rw [State.ltSend_lt, State.updLt_lt]

theorem State.ltRecover_port : ((s.ltRecover p).port p).link = false ∧ ((s.ltRecover p).port p).training = true := by
  unfold State.ltRecover
  rw [State.raise_port, State.port_updPort_same]
  exact ⟨State.link_linkDown _ _ _, rfl⟩

/-- A port that has not filled its egress queues to the widen depth stays as it is. -/
theorem State.ltDepth_of_lt {s : State} {p : Nat} (h : s.queuedBytes p < 1024 * (s.port p).lt.depth) : s.ltDepth p = s :=
  if_neg (fun k => absurd k.2.2 (by omega))

/-! The end of a change of width (R60, R63). -/

/-- Both SWITCH frames of a narrowing are done. -/
def State.ltNarrowed (s : State) (p : Nat) : State :=
  ((s.updLt p (fun l => l.settle .narrow l.target)).raise 0x0204 sevInfo []).bumpPort p 16 1

/-- Both SWITCH frames of a widening are done. -/
def State.ltWidened (s : State) (p : Nat) : State :=
  ((s.updLt p (fun l => l.settle l.rest 0)).raise 0x0205 sevInfo []).bumpPort p 16 1

variable {s p}

theorem State.ltDone_of_narrowing (h : (s.port p).lt.state = .narrowing) :
    s.ltDone p = if (s.port p).lt.enable then (s.ltNarrowed p).ltDepth p else (s.ltNarrowed p).ltWiden p := by
  unfold State.ltDone
  simp only [h]
  rfl

theorem State.ltDone_of_widening (h : (s.port p).lt.state = .widening) : s.ltDone p = s.ltWidened p := by
  unfold State.ltDone
  simp only [h]
  rfl

theorem State.ltNarrowed_lt : ((s.ltNarrowed p).port p).lt = (s.port p).lt.settle .narrow (s.port p).lt.target := by
  unfold State.ltNarrowed
  rw [State.bumpPort_port, State.raise_port, State.updLt_lt]

theorem State.ltWidened_lt : ((s.ltWidened p).port p).lt = (s.port p).lt.settle (s.port p).lt.rest 0 := by
  unfold State.ltWidened
  rw [State.bumpPort_port, State.raise_port, State.updLt_lt]

theorem State.ltNarrowed_queuedBytes : (s.ltNarrowed p).queuedBytes = s.queuedBytes := by
  unfold State.ltNarrowed
  rw [(State.bumpPort_frame (Touch.or_self _) .refl _ _ _).queuedBytes_eq rfl,
    (State.raise_frame (Touch.or_self _) .refl _ _ _).queuedBytes_eq rfl,
    (State.updLt_frame (Touch.or_self _) .refl _ _).queuedBytes_eq rfl]

/-- A port that stays enabled, and has not filled its egress queues, is NARROW at its target. -/
theorem State.ltDone_narrow (h : (s.port p).lt.state = .narrowing) (he : (s.port p).lt.enable = true)
    (hq : s.queuedBytes p < 1024 * (s.port p).lt.depth) :
    ((s.ltDone p).port p).lt = (s.port p).lt.settle .narrow (s.port p).lt.target := by
  rw [State.ltDone_of_narrowing h, if_pos he, State.ltDepth_of_lt (by rwa [State.ltNarrowed_queuedBytes, State.ltNarrowed_lt]),
    State.ltNarrowed_lt]

/-- No exchange has come further than its REQ: neither ACK nor SWITCH is held. -/
def LtSt.opening (l : LtSt) : Prop := l.haveAck = false ∧ l.sentSwitch = false

theorem State.ltWiden_opening (h : (s.port p).lt.opening) : ((s.ltWiden p).port p).lt.opening := by
  rw [State.ltWiden_lt]
  split
  · exact ⟨rfl, rfl⟩
  · exact h

theorem State.ltDepth_opening (h : (s.port p).lt.opening) : ((s.ltDepth p).port p).lt.opening := by
  unfold State.ltDepth
  split
  · exact State.ltWiden_opening h
  · exact h

theorem State.ltDone_opening (h : (s.port p).lt.state = .narrowing ∨ (s.port p).lt.state = .widening) :
    ((s.ltDone p).port p).lt.opening := by
  rcases h with h | h
  · have ho : ((s.ltNarrowed p).port p).lt.opening := by rw [State.ltNarrowed_lt]; exact ⟨rfl, rfl⟩
    rw [State.ltDone_of_narrowing h]
    split
    · exact State.ltDepth_opening ho
    · exact State.ltWiden_opening ho
  · rw [State.ltDone_of_widening h, State.ltWidened_lt]
    exact ⟨rfl, rfl⟩

/-! Changes of width are counted in counter 16 (R68). -/

theorem State.ltSend_get {k : Nat} (hk : k = 22 * p + 16) (type txId target nak flags : Nat) :
    Tab.get 0 (s.ltSend p type txId target nak flags).tel.portCtr k = Tab.get 0 s.tel.portCtr k :=
  State.sendCtl_get _ hk

theorem State.parkLanes_portCtr (w : Nat) : (s.parkLanes p w).tel.portCtr = s.tel.portCtr :=
  (State.parkLanes_frame (Touch.or_self _) .refl p w).portCtr rfl

theorem State.ltWiden_get {k : Nat} (hk : k = 22 * p + 16) :
    Tab.get 0 (s.ltWiden p).tel.portCtr k = Tab.get 0 s.tel.portCtr k := by
  unfold State.ltWiden
  split
  · dsimp only
    rw [State.ltSend_get hk, State.parkLanes_portCtr]
    rfl
  · rfl

theorem State.ltDepth_get {k : Nat} (hk : k = 22 * p + 16) :
    Tab.get 0 (s.ltDepth p).tel.portCtr k = Tab.get 0 s.tel.portCtr k := by
  unfold State.ltDepth
  split
  · exact State.ltWiden_get hk
  · rfl

theorem State.ltSwitch_get {k : Nat} (hk : k = 22 * p + 16) :
    Tab.get 0 (s.ltSwitch p).tel.portCtr k = Tab.get 0 s.tel.portCtr k := by
  unfold State.ltSwitch
  dsimp only
  rw [State.parkLanes_portCtr]
  exact State.ltSend_get hk _ _ _ _ _

theorem State.raise_portCtr (c v : Nat) (a : List Byte) : (s.raise c v a).tel.portCtr = s.tel.portCtr :=
  (State.raise_frame (Touch.or_self _) .refl c v a).portCtr rfl

theorem State.ltNarrowed_get {k : Nat} (hk : k = 22 * p + 16) :
    Tab.get 0 (s.ltNarrowed p).tel.portCtr k = Tab.get 0 s.tel.portCtr k + 1 := by
  unfold State.ltNarrowed
  rw [State.get_bumpPort, if_pos hk.symm, State.raise_portCtr]
  rfl

theorem State.ltWidened_get {k : Nat} (hk : k = 22 * p + 16) :
    Tab.get 0 (s.ltWidened p).tel.portCtr k = Tab.get 0 s.tel.portCtr k + 1 := by
  unfold State.ltWidened
  rw [State.get_bumpPort, if_pos hk.symm, State.raise_portCtr]
  rfl

theorem State.ltDone_get {k : Nat} (hk : k = 22 * p + 16) (h : (s.port p).lt.state = .narrowing ∨ (s.port p).lt.state = .widening) :
    Tab.get 0 (s.ltDone p).tel.portCtr k = Tab.get 0 s.tel.portCtr k + 1 := by
  rcases h with h | h
  · rw [State.ltDone_of_narrowing h]
    split
    · rw [State.ltDepth_get hk, State.ltNarrowed_get hk]
    · rw [State.ltWiden_get hk, State.ltNarrowed_get hk]
  · rw [State.ltDone_of_widening h, State.ltWidened_get hk]

/-! REQ (R55, R57, R58, R59). -/

/-- A REQ for a narrower width is accepted at once. -/
theorem State.ltAccept_lt_narrowing {id target : Nat} (h : target ≠ s.fullWidth p) : ((s.ltAccept p id target).port p).lt
    = { (s.port p).lt with state := .narrowing, initiator := false, txId := id, target, sends := 0, haveAck := true, locked := true,
                           sentSwitch := false } := by
  unfold State.ltAccept
  dsimp only
  rw [if_neg (fun k => h k.1), State.ltAck_lt, State.updLt_lt]
  simp [h]

/-- A REQ for full width has a port with parked lanes raise them, and lock its receivers before it answers. -/
theorem State.ltAccept_lt_widening {id target : Nat} (h : target = s.fullWidth p) (hw : (s.port p).lt.width ≠ 0) :
    ((s.ltAccept p id target).port p).lt
      = { (s.port p).lt with state := .widening, initiator := false, txId := id, target, sends := 0, haveAck := false, locked := false,
                             sentSwitch := false } := by
  unfold State.ltAccept
  dsimp only
  rw [if_pos ⟨h, hw⟩, State.parkLanes_port, State.updLt_lt]
  simp [h, hw]

theorem State.ltAccept_lane_widening {id target i : Nat} (h : target = s.fullWidth p) (hw : (s.port p).lt.width ≠ 0)
    (hi : i < s.fullWidth p) : ((s.ltAccept p id target).lane (p + i)).parked = false := by
  unfold State.ltAccept
  dsimp only
  rw [if_pos ⟨h, hw⟩]
  exact State.lane_parkLanes_full (s := s.updLt p _) hi

theorem State.ltReq_accepted {src id target : Nat} (h : target ≠ s.fullWidth p) (hf : (s.port p).lt.state = .full)
    (hr : s.ltRefusal p target = none) : s.ltReq p src id target = s.ltAccept p id target := by
  unfold State.ltReq
  simp [h, hf, hr]

theorem State.ltReq_refused {src id target r : Nat} (h : target ≠ s.fullWidth p) (hf : (s.port p).lt.state = .full)
    (hr : s.ltRefusal p target = some r) : s.ltReq p src id target = s.ltNak p id target r := by
  unfold State.ltReq
  simp [h, hf, hr]

theorem State.ltReq_full {src id target : Nat} (h : target = s.fullWidth p) (hn : (s.port p).lt.state = .narrow) :
    s.ltReq p src id target = s.ltAccept p id target := by
  unfold State.ltReq
  simp [← h, hn]

theorem State.ltRefusal_disabled {target : Nat} (h : (s.port p).lt.enable = false) : s.ltRefusal p target = some 4 :=
  if_pos (.inl h)

theorem State.ltRefusal_two (he : (s.port p).lt.enable = true) (hf : (s.port p).lt.state = .full) :
    s.ltRefusal p 2 = if (s.port p).lt.threshold * windowBytes 2 < 100 * (s.port p).lt.util then some 2 else none := by
  unfold State.ltRefusal
  simp [he, hf]

/-- A REQ for two lanes is taken where this port has sent no more than its threshold allows. -/
theorem State.ltReq_two_accepted {src id : Nat} (h : 2 ≠ s.fullWidth p) (hf : (s.port p).lt.state = .full)
    (he : (s.port p).lt.enable = true) (hu : 100 * (s.port p).lt.util ≤ (s.port p).lt.threshold * windowBytes 2) :
    s.ltReq p src id 2 = s.ltAccept p id 2 :=
  State.ltReq_accepted h hf (by rw [State.ltRefusal_two he hf, if_neg (by omega)])

theorem State.ltReq_two_refused {src id : Nat} (h : 2 ≠ s.fullWidth p) (hf : (s.port p).lt.state = .full)
    (he : (s.port p).lt.enable = true) (hu : (s.port p).lt.threshold * windowBytes 2 < 100 * (s.port p).lt.util) :
    s.ltReq p src id 2 = s.ltNak p id 2 2 :=
  State.ltReq_refused h hf (by rw [State.ltRefusal_two he hf, if_pos hu])

/-! ACK, NAK and SWITCH (R57, R59). -/

theorem State.ltGotAck_of {id : Nat} (hi : (s.port p).lt.initiator = true) (ht : (s.port p).lt.txId = id)
    (ha : (s.port p).lt.haveAck = false) : s.ltGotAck p id =
      if (s.port p).lt.locked then (s.updLt p (fun l => { l with haveAck := true })).ltSwitch p
      else s.updLt p (fun l => { l with haveAck := true }) :=
  if_pos ⟨hi, ht, ha⟩

/-- The first ACK is held, and an initiator whose receivers are locked sends SWITCH. -/
theorem State.ltGotAck_lt {id : Nat} (hi : (s.port p).lt.initiator = true) (ht : (s.port p).lt.txId = id)
    (ha : (s.port p).lt.haveAck = false) :
    ((s.ltGotAck p id).port p).lt.haveAck = true
      ∧ ((s.ltGotAck p id).port p).lt.sentSwitch = ((s.port p).lt.sentSwitch || (s.port p).lt.locked)
      ∧ ((s.ltGotAck p id).port p).lt.state = (s.port p).lt.state
      ∧ ((s.port p).lt.locked = true → ((s.ltGotAck p id).port p).lt.width
        = if (s.port p).lt.target = s.fullWidth p then 0 else (s.port p).lt.target) := by
  rw [State.ltGotAck_of hi ht ha]
  cases hk : (s.port p).lt.locked
  · rw [if_neg (by simp), State.updLt_lt]
    exact ⟨rfl, (Bool.or_false _).symm, rfl, fun h => absurd h (by simp)⟩
  · rw [if_pos rfl, State.ltSwitch_lt, State.updLt_lt]
    exact ⟨rfl, (Bool.or_true _).symm, rfl, fun _ => rfl⟩

theorem State.ltGotNak_of {id : Nat} (hi : (s.port p).lt.initiator = true) (ht : (s.port p).lt.txId = id)
    (hn : (s.port p).lt.state = .narrowing) (hs : (s.port p).lt.sentSwitch = false) :
    s.ltGotNak p id = s.updLt p (fun l => l.settle .full 0) :=
  if_pos ⟨hi, ht, hn, hs⟩

/-- A SWITCH that is awaited ends the change: the initiator has sent its own, the responder sends it now. -/
theorem State.ltGotSwitch_of {id : Nat} (ht : (s.port p).lt.txId = id)
    (hc : (s.port p).lt.state = .narrowing ∨ (s.port p).lt.state = .widening)
    (hi : (s.port p).lt.initiator = true → (s.port p).lt.sentSwitch = true)
    (hr : (s.port p).lt.initiator = false → (s.port p).lt.haveAck = true) :
    s.ltGotSwitch p id = if (s.port p).lt.initiator then s.ltDone p else (s.ltSwitch p).ltDone p := by
  unfold State.ltGotSwitch
  dsimp only
  rw [if_pos ⟨ht, hc⟩]
  cases h : (s.port p).lt.initiator
  · simp [hr h]
  · simp [hi h]

/-- The SWITCH of a responder changes neither the state nor the target. -/
theorem State.ltDone_narrow_of_switch (h : (s.port p).lt.state = .narrowing) (he : (s.port p).lt.enable = true)
    (hq : s.queuedBytes p < 1024 * (s.port p).lt.depth) :
    (((s.ltSwitch p).ltDone p).port p).lt.state = .narrow ∧ (((s.ltSwitch p).ltDone p).port p).lt.width = (s.port p).lt.target := by
  have hl := s.ltSwitch_lt p
  rw [State.ltDone_narrow (by rw [hl]; exact h) (by rw [hl]; exact he) (by rw [hl, State.ltSwitch_queuedBytes]; exact hq), hl]
  exact ⟨rfl, rfl⟩

theorem State.ltGotSwitch_narrow {id : Nat} (ht : (s.port p).lt.txId = id) (hn : (s.port p).lt.state = .narrowing)
    (hi : (s.port p).lt.initiator = true → (s.port p).lt.sentSwitch = true)
    (hr : (s.port p).lt.initiator = false → (s.port p).lt.haveAck = true) (he : (s.port p).lt.enable = true)
    (hq : s.queuedBytes p < 1024 * (s.port p).lt.depth) :
    ((s.ltGotSwitch p id).port p).lt.state = .narrow ∧ ((s.ltGotSwitch p id).port p).lt.width = (s.port p).lt.target := by
  rw [State.ltGotSwitch_of ht (.inl hn) hi hr]
  split
  · rw [State.ltDone_narrow hn he hq]
    exact ⟨rfl, rfl⟩
  · exact State.ltDone_narrow_of_switch hn he hq

theorem State.ltGotSwitch_wide {id : Nat} (ht : (s.port p).lt.txId = id) (hw : (s.port p).lt.state = .widening)
    (hi : (s.port p).lt.initiator = true → (s.port p).lt.sentSwitch = true)
    (hr : (s.port p).lt.initiator = false → (s.port p).lt.haveAck = true) :
    ((s.ltGotSwitch p id).port p).lt.width = 0 ∧ ((s.ltGotSwitch p id).port p).lt.state = (s.port p).lt.rest := by
  rw [State.ltGotSwitch_of ht (.inr hw) hi hr]
  split
  · rw [State.ltDone_of_widening hw, State.ltWidened_lt]
    exact ⟨rfl, rfl⟩
  · have hl := s.ltSwitch_lt p
    rw [State.ltDone_of_widening (by rw [hl]; exact hw), State.ltWidened_lt, hl]
    exact ⟨rfl, rfl⟩

/-! Windows and timers (R56, R57, R59, R60). -/

theorem State.ltNarrow_lt {w : Nat} : ((s.ltNarrow p w).port p).lt = { (s.port p).lt with
    state := .narrowing, initiator := true, txId := ((s.port p).lt.txId + 1) % 256, target := w, sends := 1, haveAck := false,
    locked := true, sentSwitch := false, quietWindows := 0 } := by
  unfold State.ltNarrow
  dsimp only
  rw [State.ltSend_lt, State.updLt_lt]

/-- The quiet windows in a row after a window with `tx` bytes out and `rx` in. -/
def LtSt.quietAfter (l : LtSt) (tx rx : Nat) : Nat :=
  if l.narrowTo ≠ 0 && decide (100 * tx < l.threshold * windowBytes l.narrowTo)
    && decide (100 * rx < l.threshold * windowBytes l.narrowTo) then l.quietWindows + 1 else 0

/-- The record with the window counted. -/
def LtSt.windowed (l : LtSt) (tx n : Nat) : LtSt := { l with util := tx, quietWindows := if l.state = .full then n else 0 }

/-- A window is counted before it asks for a change. -/
def State.ltCounted (s : State) (p tx rx : Nat) : State := s.updLt p (fun l => l.windowed tx ((s.port p).lt.quietAfter tx rx))

theorem State.ltCounted_lt {tx rx : Nat} :
    ((s.ltCounted p tx rx).port p).lt = (s.port p).lt.windowed tx ((s.port p).lt.quietAfter tx rx) :=
  State.updLt_lt _ _ _

theorem State.ltWindow_full {tx rx : Nat} (h : (s.port p).lt.state = .full) : s.ltWindow p tx rx =
    if 100 * (s.port p).lt.dwell ≤ (s.port p).lt.quietAfter tx rx ∧ (s.port p).lt.enable ∧ s.ltFits p then
      (s.ltCounted p tx rx).ltNarrow p (s.port p).lt.narrowTo
    else s.ltCounted p tx rx := by
  unfold State.ltWindow
  simp only [h]
  rfl

theorem State.ltWindow_narrow {tx rx : Nat} (h : (s.port p).lt.state = .narrow) : s.ltWindow p tx rx =
    if 90 * windowBytes (s.port p).lt.width ≤ 100 * tx then (s.ltCounted p tx rx).ltWiden p else s.ltCounted p tx rx := by
  unfold State.ltWindow
  simp only [h]
  rfl

theorem State.ltWindow_other {tx rx : Nat} (hf : (s.port p).lt.state ≠ .full) (hn : (s.port p).lt.state ≠ .narrow) :
    s.ltWindow p tx rx = s.ltCounted p tx rx := by
  unfold State.ltWindow
  dsimp only
  split
  · contradiction
  · contradiction
  · rfl

theorem State.ltWindow_util (tx rx : Nat) : ((s.ltWindow p tx rx).port p).lt.util = tx := by
  by_cases hf : (s.port p).lt.state = .full
  · rw [State.ltWindow_full hf]
    split
    · rw [State.ltNarrow_lt, State.ltCounted_lt]; rfl
    · rw [State.ltCounted_lt]; rfl
  · by_cases hn : (s.port p).lt.state = .narrow
    · rw [State.ltWindow_narrow hn]
      split
      · rw [State.ltWiden_lt, State.ltCounted_lt]
        split <;> rfl
      · rw [State.ltCounted_lt]; rfl
    · rw [State.ltWindow_other hf hn, State.ltCounted_lt]; rfl

end

/-! ### O45 -/

section

variable {s : State} {p : Nat} {b : List Byte}

theorem ltCapReceived_ends (h : s.takesLt p 1 b) : Ends (.ltCapReceived p b true) s (fun t =>
    (t.port p).lt = { (s.port p).lt with partnerCaps := fld b 20 1, partnerOk := true
                                         state := if (s.port p).lt.enable && s.ltFits p && (s.port p).lt.state == .disabled then .full
                                           else (s.port p).lt.state }
    ∧ ∀ q, q ≠ p → t.port q = s.port q) := by
  refine ends_of_ltRx h _ rfl (fun u hu => ?_)
  rw [← hu.port_eq rfl, ← hu.ltFits_eq rfl]
  exact ⟨State.updLt_lt _ _ _, fun _ hq => State.updLt_port_other _ _ hq⟩

theorem ltReqReceived_ends_accepted (h : s.takesLt p 2 b) (hw : fld b 18 1 ≠ s.fullWidth p) (hf : (s.port p).lt.state = .full)
    (he : (s.port p).lt.enable = true) (h2 : fld b 18 1 = 2)
    (hb : 100 * (s.port p).lt.util ≤ (s.port p).lt.threshold * windowBytes 2) :
    Ends (.ltReqReceived p b true) s (fun t => (t.port p).lt.state = .narrowing ∧ (t.port p).lt.initiator = false
      ∧ (t.port p).lt.txId = fld b 17 1 ∧ (t.port p).lt.target = 2 ∧ (t.port p).lt.haveAck = true) := by
  refine ends_of_ltRx h _ rfl (fun u hu => ?_)
  rw [h2, ← hu.fullWidth_eq rfl] at hw
  rw [← hu.port_eq rfl] at hf he hb
  rw [h2, State.ltReq_two_accepted hw hf he hb, State.ltAccept_lt_narrowing hw]
  exact ⟨rfl, rfl, rfl, rfl, rfl⟩

/-- A NAK leaves at once from an idle transmitter that is awake, and changes no record. -/
theorem ltNak_sent {u : State} {id target reason : Nat} (hu : Frame { portCtr := true } s u) (hl : (s.port p).link = true)
    (ht : (s.port p).txPkt = none) (hi : (s.port p).lpi = false) :
    (u.ltNak p id target reason).out = .control p (s.ltFrame p 4 id target reason 0) :: s.out
      ∧ ((u.ltNak p id target reason).port p).lt = (s.port p).lt := by
  rw [← hu.port_eq rfl] at hl ht hi ⊢
  rw [← hu.ltFrame_eq rfl rfl, ← hu.out rfl]
  exact ⟨State.ltSend_out _ _ _ _ _ hl ht hi, State.ltSend_lt _ _ _ _ _ _ _⟩

theorem ltReqReceived_ends_disabled (h : s.takesLt p 2 b) (hw : fld b 18 1 ≠ s.fullWidth p) (hf : (s.port p).lt.state = .full)
    (he : (s.port p).lt.enable = false) (ht : (s.port p).txPkt = none) (hi : (s.port p).lpi = false) :
    Ends (.ltReqReceived p b true) s (fun t =>
      t.out = .control p (s.ltFrame p 4 (fld b 17 1) (fld b 18 1) 4 0) :: s.out ∧ (t.port p).lt = (s.port p).lt) := by
  refine ends_of_ltRx h _ rfl (fun u hu => ?_)
  rw [← hu.fullWidth_eq rfl] at hw
  rw [← hu.port_eq rfl] at hf he
  rw [State.ltReq_refused hw hf (State.ltRefusal_disabled he)]
  exact ltNak_sent hu (State.takesLt_link h) ht hi

theorem ltReqReceived_ends_busy (h : s.takesLt p 2 b) (hw : fld b 18 1 ≠ s.fullWidth p) (hf : (s.port p).lt.state = .full)
    (he : (s.port p).lt.enable = true) (h2 : fld b 18 1 = 2)
    (hb : (s.port p).lt.threshold * windowBytes 2 < 100 * (s.port p).lt.util) (ht : (s.port p).txPkt = none)
    (hi : (s.port p).lpi = false) :
    Ends (.ltReqReceived p b true) s (fun t =>
      t.out = .control p (s.ltFrame p 4 (fld b 17 1) 2 2 0) :: s.out ∧ (t.port p).lt = (s.port p).lt) := by
  refine ends_of_ltRx h _ rfl (fun u hu => ?_)
  rw [h2, ← hu.fullWidth_eq rfl] at hw
  rw [← hu.port_eq rfl] at hf he hb
  rw [h2, State.ltReq_two_refused hw hf he hb]
  exact ltNak_sent hu (State.takesLt_link h) ht hi

theorem ltReqReceived_ends_widening (h : s.takesLt p 2 b) (hw : fld b 18 1 = s.fullWidth p) (hn : (s.port p).lt.state = .narrow)
    (h0 : (s.port p).lt.width ≠ 0) : Ends (.ltReqReceived p b true) s (fun t => (t.port p).lt.state = .widening
      ∧ (t.port p).lt.initiator = false ∧ (t.port p).lt.locked = false ∧ ∀ i, i < s.fullWidth p → (t.lane (p + i)).parked = false) := by
  refine ends_of_ltRx h _ rfl (fun u hu => ?_)
  rw [← hu.fullWidth_eq rfl] at hw ⊢
  rw [← hu.port_eq rfl] at hn h0
  rw [State.ltReq_full hw hn, State.ltAccept_lt_widening hw h0]
  exact ⟨rfl, rfl, rfl, fun i hi => State.ltAccept_lane_widening hw h0 hi⟩

theorem ltAckReceived_ends (h : s.takesLt p 3 b) (hi : (s.port p).lt.initiator = true) (ht : (s.port p).lt.txId = fld b 17 1)
    (ha : (s.port p).lt.haveAck = false) : Ends (.ltAckReceived p b true) s (fun t =>
      (t.port p).lt.haveAck = true ∧ (t.port p).lt.sentSwitch = ((s.port p).lt.sentSwitch || (s.port p).lt.locked)
      ∧ (t.port p).lt.state = (s.port p).lt.state
      ∧ ((s.port p).lt.locked = true → (t.port p).lt.width = if (s.port p).lt.target = s.fullWidth p then 0 else (s.port p).lt.target)) := by
  refine ends_of_ltRx h _ rfl (fun u hu => ?_)
  rw [← hu.port_eq rfl, ← hu.fullWidth_eq rfl]
  rw [← hu.port_eq rfl] at hi ht ha
  exact State.ltGotAck_lt hi ht ha

theorem ltNakReceived_ends (h : s.takesLt p 4 b) (hi : (s.port p).lt.initiator = true) (ht : (s.port p).lt.txId = fld b 17 1)
    (hn : (s.port p).lt.state = .narrowing) (hs : (s.port p).lt.sentSwitch = false) :
    Ends (.ltNakReceived p b true) s (fun t =>
      (t.port p).lt.state = .full ∧ (t.port p).lt.width = 0 ∧ (t.port p).lt.initiator = false) := by
  refine ends_of_ltRx h _ rfl (fun u hu => ?_)
  rw [← hu.port_eq rfl] at hi ht hn hs
  rw [State.ltGotNak_of hi ht hn hs, State.updLt_lt]
  exact ⟨rfl, rfl, rfl⟩

/-- A SWITCH that this end awaits. -/
theorem ltSwitchReceived_ends (h : s.takesLt p 5 b) (ht : (s.port p).lt.txId = fld b 17 1)
    (hi : (s.port p).lt.initiator = true → (s.port p).lt.sentSwitch = true)
    (hr : (s.port p).lt.initiator = false → (s.port p).lt.haveAck = true) :
    ((s.port p).lt.state = .narrowing → (s.port p).lt.enable = true → s.queuedBytes p < 1024 * (s.port p).lt.depth →
      Ends (.ltSwitchReceived p b true) s (fun t =>
      (t.port p).lt.state = .narrow ∧ (t.port p).lt.width = (s.port p).lt.target))
    ∧ ((s.port p).lt.state = .widening → Ends (.ltSwitchReceived p b true) s (fun t => (t.port p).lt.width = 0
      ∧ (t.port p).lt.state = if (s.port p).lt.enable && (s.port p).lt.partnerOk then .full else .disabled)) := by
  refine ⟨fun hn he hq => ends_of_ltRx h _ rfl (fun u hu => ?_), fun hw => ends_of_ltRx h _ rfl (fun u hu => ?_)⟩
  · rw [← hu.port_eq rfl] at ht hi hr hn he hq ⊢
    rw [← hu.queuedBytes_eq rfl] at hq
    exact State.ltGotSwitch_narrow ht hn hi hr he hq
  · rw [← hu.port_eq rfl] at ht hi hr hw ⊢
    exact State.ltGotSwitch_wide ht hw hi hr

/-! Windows and timers. -/

theorem ltCapTick_ends (hp : p < 512) (he : (s.port p).lt.enable = true) (hl : (s.port p).link = true) (hf : s.ltFits p = true)
    (ht : (s.port p).txPkt = none) (hi : (s.port p).lpi = false) :
    Ends (.ltCapTick p) s (fun t => t.out = .control p (s.ltFrame p 1 0 0 0 0) :: s.out) := by
  refine ends_of_onPort hp rfl ?_
  rw [if_pos (by simp [he, hl, hf])]
  exact State.ltSend_out _ _ _ _ _ hl ht hi

theorem ltCapTimeout_ends (hp : p < 512) (hl : (s.port p).link = true) :
    Ends (.ltCapTimeout p) s (fun t => (t.port p).lt.state = .disabled ∧ (t.port p).lt.partnerOk = false
      ∧ (t.port p).lt.width = 0 ∧ ∀ i, i < s.fullWidth p → (t.lane (p + i)).parked = false) := by
  refine ends_of_onPort hp rfl ?_
  rw [if_pos hl]
  unfold State.ltCapTimeout
  rw [State.parkLanes_port, State.updLt_lt]
  exact ⟨rfl, rfl, rfl, fun i hi => State.lane_parkLanes_full (s := s.updLt p _) hi⟩

theorem ltUtilWindow_ends {tx rx : Nat} (hp : p < 512) (hl : (s.port p).link = true) : Ends (.ltUtilWindow p tx rx) s (fun t =>
    (t.port p).lt.util = tx
    ∧ ((s.port p).lt.state = .full → (s.port p).lt.enable = true → s.ltFits p = true → (s.port p).lt.narrowTo ≠ 0 →
      100 * tx < (s.port p).lt.threshold * windowBytes (s.port p).lt.narrowTo →
      100 * rx < (s.port p).lt.threshold * windowBytes (s.port p).lt.narrowTo →
      100 * (s.port p).lt.dwell ≤ (s.port p).lt.quietWindows + 1 →
      (t.port p).lt.state = .narrowing ∧ (t.port p).lt.initiator = true ∧ (t.port p).lt.target = (s.port p).lt.narrowTo)
    ∧ ((s.port p).lt.state = .narrow → 90 * windowBytes (s.port p).lt.width ≤ 100 * tx →
      (t.port p).lt.state = .widening ∧ (t.port p).lt.initiator = true ∧ (t.port p).lt.target = s.fullWidth p)) := by
  refine ends_of_onPort hp rfl ?_
  rw [if_pos hl]
  refine ⟨State.ltWindow_util _ _, fun hf he hfit hn htx hrx hd => ?_, fun hn hb => ?_⟩
  · have hq : (s.port p).lt.quietAfter tx rx = (s.port p).lt.quietWindows + 1 := by simp [LtSt.quietAfter, hn, htx, hrx]
    rw [State.ltWindow_full hf, if_pos ⟨by omega, he, hfit⟩, State.ltNarrow_lt]
    exact ⟨rfl, rfl, rfl⟩
  · rw [State.ltWindow_narrow hn, if_pos hb, State.ltWiden_lt, State.ltCounted_lt,
      if_pos (show (LtSt.windowed _ _ _).state = .narrow from hn)]
    exact ⟨rfl, rfl, rfl⟩

/-- A change that this port has asked for has had no answer. -/
theorem State.ltReqTimeout_of (hi : (s.port p).lt.initiator = true) (ha : (s.port p).lt.haveAck = false)
    (hc : (s.port p).lt.state = .narrowing ∨ (s.port p).lt.state = .widening) :
    s.ltReqTimeout p = if (s.port p).lt.sends < 3 then
        (s.updLt p (fun l => { l with sends := l.sends + 1 })).ltSend p 2 (s.port p).lt.txId (s.port p).lt.target 0 0
      else if (s.port p).lt.state = .narrowing then s.updLt p (fun l => l.settle .full 0) else s.ltRecover p :=
  if_pos ⟨hi, ha, hc⟩

theorem ltReqTimeout_ends_again (hp : p < 512) (hi : (s.port p).lt.initiator = true) (ha : (s.port p).lt.haveAck = false)
    (hn : (s.port p).lt.state = .narrowing) (hs : (s.port p).lt.sends < 3) :
    Ends (.ltReqTimeout p) s (fun t => (t.port p).lt = { (s.port p).lt with sends := (s.port p).lt.sends + 1 }) := by
  refine ends_of_onPort hp rfl ?_
  rw [State.ltReqTimeout_of hi ha (.inl hn), if_pos hs, State.ltSend_lt, State.updLt_lt]

theorem ltReqTimeout_ends_dropped (hp : p < 512) (hi : (s.port p).lt.initiator = true) (ha : (s.port p).lt.haveAck = false)
    (hn : (s.port p).lt.state = .narrowing) (hs : 3 ≤ (s.port p).lt.sends) :
    Ends (.ltReqTimeout p) s (fun t => (t.port p).lt.state = .full ∧ (t.port p).link = (s.port p).link) := by
  refine ends_of_onPort hp rfl ?_
  rw [State.ltReqTimeout_of hi ha (.inl hn), if_neg (by omega), if_pos hn]
  exact ⟨congrArg LtSt.state (State.updLt_lt _ _ _), State.updLt_link _ _ _⟩

theorem ltReqTimeout_ends_restart (hp : p < 512) (hi : (s.port p).lt.initiator = true) (ha : (s.port p).lt.haveAck = false)
    (hw : (s.port p).lt.state = .widening) (hs : 3 ≤ (s.port p).lt.sends) :
    Ends (.ltReqTimeout p) s (fun t => (t.port p).link = false ∧ (t.port p).training = true) := by
  refine ends_of_onPort hp rfl ?_
  rw [State.ltReqTimeout_of hi ha (.inr hw), if_neg (by omega), if_neg (by simp [hw])]
  exact s.ltRecover_port p

/-- A responder that has acknowledged a narrowing gets no SWITCH. -/
theorem State.ltSwitchTimeout_of {aligned : Bool} (hi : (s.port p).lt.initiator = false) (ha : (s.port p).lt.haveAck = true)
    (hn : (s.port p).lt.state = .narrowing) :
    s.ltSwitchTimeout p aligned = if aligned then (s.ltSwitch p).ltDone p else s.ltRecover p :=
  if_pos ⟨hi, ha, .inl hn⟩

theorem ltReceiversLocked_ends (hp : p < 512) (hw : (s.port p).lt.state = .widening) (hk : (s.port p).lt.locked = false) :
    Ends (.ltReceiversLocked p) s (fun t => (t.port p).lt.locked = true
      ∧ ((s.port p).lt.initiator = false → (t.port p).lt.haveAck = true)
      ∧ ((s.port p).lt.initiator = true → (s.port p).lt.haveAck = true → (t.port p).lt.sentSwitch = true)) := by
  refine ends_of_onPort hp rfl ?_
  unfold State.ltLocked
  dsimp only
  rw [if_pos ⟨hw, hk⟩]
  cases hi : (s.port p).lt.initiator with
  | false =>
    rw [if_neg (by simp), State.ltAck_lt, State.updLt_lt]
    exact ⟨rfl, fun _ => rfl, fun h => absurd h (by simp)⟩
  | true =>
    rw [if_pos rfl]
    cases ha : (s.port p).lt.haveAck with
    | false =>
      rw [if_neg (by simp), State.updLt_lt]
      exact ⟨rfl, fun h => absurd h (by simp), fun _ h => absurd h (by simp)⟩
    | true =>
      rw [if_pos rfl, State.ltSwitch_lt, State.updLt_lt]
      exact ⟨rfl, fun h => absurd h (by simp), fun _ _ => rfl⟩

/-- Where alignment is lost during a change, a free value says whether it is regained. -/
theorem ltAlignmentLost_exec (hp : p < 512) (hc : (s.port p).lt.state = .narrowing ∨ (s.port p).lt.state = .widening) :
    exec (.ltAlignmentLost p) s = .next (if bit s.freeVal 0 = false then (s.drawn 1).ltRecover p
      else if (s.port p).lt.initiator = false ∧ (s.port p).lt.haveAck then ((s.drawn 1).ltSwitch p).ltDone p else s.drawn 1) := by
  show onPort p (if _ then _ else _) = _
  rw [if_pos hc, onPort_next hp]
  rfl

/-- A responder that aligns has sent its own SWITCH: the change is over. -/
theorem State.ltDone_of_switch (hc : (s.port p).lt.state = .narrowing ∨ (s.port p).lt.state = .widening) :
    (((s.ltSwitch p).ltDone p).port p).lt.opening
      ∧ Tab.get 0 ((s.ltSwitch p).ltDone p).tel.portCtr (22 * p + 16) = Tab.get 0 s.tel.portCtr (22 * p + 16) + 1 := by
  have hc' : ((s.ltSwitch p).port p).lt.state = .narrowing ∨ ((s.ltSwitch p).port p).lt.state = .widening := by
    rw [State.ltSwitch_lt]; exact hc
  exact ⟨State.ltDone_opening hc', by rw [State.ltDone_get rfl hc', State.ltSwitch_get rfl]⟩

theorem ltAlignmentLost_ends (hp : p < 512) (hc : (s.port p).lt.state = .narrowing ∨ (s.port p).lt.state = .widening) :
    (bit s.freeVal 0 = false → Ends (.ltAlignmentLost p) s (fun t => (t.port p).link = false ∧ (t.port p).training = true))
    ∧ (bit s.freeVal 0 = true → (s.port p).lt.initiator = true ∨ (s.port p).lt.haveAck = false →
      Ends (.ltAlignmentLost p) s (fun t => t = { s with free := s.free + 1 }))
    ∧ (bit s.freeVal 0 = true → (s.port p).lt.initiator = false → (s.port p).lt.haveAck = true →
      Ends (.ltAlignmentLost p) s (fun t => (t.port p).lt.haveAck = false ∧ (t.port p).lt.sentSwitch = false
        ∧ Tab.get 0 t.tel.portCtr (22 * p + 16) = Tab.get 0 s.tel.portCtr (22 * p + 16) + 1)) := by
  refine ⟨fun h0 => ⟨_, ltAlignmentLost_exec hp hc, ?_⟩, fun h1 hno => ⟨_, ltAlignmentLost_exec hp hc, ?_⟩,
    fun h1 hi ha => ⟨_, ltAlignmentLost_exec hp hc, ?_⟩⟩
  · rw [if_pos h0]
    exact State.ltRecover_port _ p
  · rw [if_neg (by simp [h1]), if_neg (by rcases hno with h | h <;> simp [h])]
    rfl
  · rw [if_neg (by simp [h1]), if_pos ⟨hi, ha⟩]
    obtain ⟨⟨hha, hss⟩, hctr⟩ := State.ltDone_of_switch (s := s.drawn 1) hc
    exact ⟨hha, hss, hctr⟩

theorem ltAlignmentLost_idles (hp : p < 512) (hf : (s.port p).lt.state = .full) : Idles (.ltAlignmentLost p) s :=
  idles_of_onPort hp rfl (if_neg (by simp [hf]))

theorem ltCapTimeout_idles (hp : p < 512) (hl : (s.port p).link = false) : Idles (.ltCapTimeout p) s :=
  idles_of_onPort hp rfl (if_neg (by simp [hl]))

end

theorem Ends.imp {i : Instr} {s : State} {post post' : State → Prop} (h : Ends i s post) (k : ∀ t, post t → post' t) :
    Ends i s post' :=
  let ⟨t, he, ht⟩ := h
  ⟨t, he, k t ht⟩

/-- Settles O45: each row is its act on the state with the frame counted, and each act's rule says what it leaves in the record. -/
theorem laneThrottleRows : Obligations.LaneThrottleRows := by
  unfold Obligations.LaneThrottleRows
  refine ⟨?cap, ?req, ?reqFull, ?ack, ?nak, ?switch, ?capTick, ?capTimeout, ?window, ?reqTimeout, ?switchTimeout, ?locked, ?aligned⟩
  case cap => exact fun s p b h => ltCapReceived_ends h
  case req =>
    exact fun s p b h hw hf => ⟨fun he h2 hu => ltReqReceived_ends_accepted h hw hf he h2 hu,
      fun he ht hi => ltReqReceived_ends_disabled h hw hf he ht hi,
      fun he h2 hu ht hi => ltReqReceived_ends_busy h hw hf he h2 hu ht hi⟩
  case reqFull => exact fun s p b h hw hn h0 => ltReqReceived_ends_widening h hw hn h0
  case ack => exact fun s p b h hi ht ha => ltAckReceived_ends h hi ht ha
  case nak => exact fun s p b h hi ht hn hs => ltNakReceived_ends h hi ht hn hs
  case switch => exact fun s p b h ht hi hr => ltSwitchReceived_ends h ht hi hr
  case capTick =>
    exact fun s p hp he hl => ⟨fun hf ht hi => ltCapTick_ends hp he hl hf ht hi, (ltCapTimeout_ends hp hl).imp fun _ h => h.1⟩
  case capTimeout => exact fun s p hp => ⟨ltCapTimeout_idles hp, ltCapTimeout_ends hp⟩
  case window => exact fun s p tx rx hp hl => ltUtilWindow_ends hp hl
  case reqTimeout =>
    exact fun s p hp hi ha => ⟨ltReqTimeout_ends_again hp hi ha, ltReqTimeout_ends_dropped hp hi ha, ltReqTimeout_ends_restart hp hi ha⟩
  case switchTimeout =>
    refine fun s p hp hi ha hn => ⟨ends_of_onPort hp rfl ?_, fun he hq => ends_of_onPort hp rfl ?_⟩
    · rw [State.ltSwitchTimeout_of hi ha hn, if_neg (by simp)]
      exact s.ltRecover_port p
    · rw [State.ltSwitchTimeout_of hi ha hn, if_pos rfl]
      exact State.ltDone_narrow_of_switch hn he hq
  case locked => exact fun s p hp hw hk => ltReceiversLocked_ends hp hw hk
  case aligned => exact fun s p hp => ⟨ltAlignmentLost_ends hp, ltAlignmentLost_idles hp⟩

end Sys2Proof.Machine
end

section
/-! PROOF. Received flow control and its timers, links, low-power idle, margins and datapaths (R39 to R66, R148). -/

namespace Sys2Proof.Machine

/-! ### Bits of a class vector -/

theorem bit_eq_testBit (v i : Nat) : bit v i = v.testBit i := by
  simp [bit, Nat.testBit_eq_decide_div_mod_eq, BEq.beq]

/-- Bits taken away are cleared, the others stand. -/
theorem testBit_sub_and (a b i : Nat) : (a - (a &&& b)).testBit i = (a.testBit i && !b.testBit i) := by
  induction i generalizing a b with
  | zero =>
    have hle : a &&& b ≤ a := Nat.and_le_left
    have hm : (a &&& b) % 2 = 1 ↔ a % 2 = 1 ∧ b % 2 = 1 := Nat.and_mod_two_eq_one
    rw [Bool.eq_iff_iff]
    simp only [Nat.testBit_zero, Bool.and_eq_true, Bool.not_eq_true', decide_eq_true_eq, decide_eq_false_iff_not]
    omega
  | succ i ih =>
    have hle : a &&& b ≤ a := Nat.and_le_left
    have hm : (a &&& b) % 2 = 1 ↔ a % 2 = 1 ∧ b % 2 = 1 := Nat.and_mod_two_eq_one
    have hd : (a - (a &&& b)) / 2 = a / 2 - (a / 2 &&& b / 2) := by
      rw [← Nat.and_div_two]
      omega
    rw [Nat.testBit_succ, Nat.testBit_succ, Nat.testBit_succ, hd, ih]

theorem bit_clrBit (n c d : Nat) : bit (clrBit n c) d = (bit n d && d != c) := by
  unfold clrBit
  split
  · next h =>
    have e : n &&& 2 ^ c = 2 ^ c := by
      rw [Nat.and_two_pow, ← bit_eq_testBit, h]; simp
    have k : bit (n - (n &&& 2 ^ c)) d = (bit n d && !(2 ^ c).testBit d) := by
      rw [bit_eq_testBit, bit_eq_testBit, testBit_sub_and]
    rw [e, Nat.testBit_two_pow] at k
    rw [k]
    by_cases hd : c = d
    · simp [hd]
    · simp [hd, Ne.symm hd]
  · next h =>
    by_cases hd : d = c
    · subst hd; simpa using h
    · simp [hd]

theorem bit_setBit_same (n c : Nat) : bit (setBit n c) c = true := by
  unfold setBit
  split
  · assumption
  · next h =>
    simp only [bit, beq_iff_eq, Nat.add_div_right n (Nat.two_pow_pos c)] at h ⊢
    omega
/-! ### Pauses (R45, R46, R47) -/

theorem PortSt.paused_getD (q : PortSt) (mask : Nat) (f : Nat → Nat) {c : Nat} (hc : c < 8) :
    (q.paused mask f).pause.getD c 0 = if bit mask c then f c else q.pause.getD c 0 := by
  simp [PortSt.paused, List.getD_eq_getElem?_getD, hc]

theorem bit_all_classes {c : Nat} (hc : c < 8) : bit 0xFF c = true := by
  rw [bit_eq_testBit, show (0xFF : Nat) = 2 ^ 8 - 1 from rfl, Nat.testBit_two_pow_sub_one]
  simp [hc]

theorem bit_two_pow (c d : Nat) : bit (2 ^ c) d = (c == d) := by
  rw [bit_eq_testBit, Nat.testBit_two_pow]
  rfl

theorem bit_and (a b c : Nat) : bit (a &&& b) c = (bit a c && bit b c) := by
  simp [bit_eq_testBit]

/-- The classes of a PFC frame that change: those of the mask that are not in storm state. -/
theorem bit_open_classes (m storm c : Nat) : bit (m - (m &&& storm)) c = (bit m c && !bit storm c) := by
  rw [bit_eq_testBit, bit_eq_testBit, bit_eq_testBit, testBit_sub_and]

section

variable {s : State} {p : Nat} {b : List Byte}

theorem State.rxPause_of_mode {quanta : Nat} (hm : (s.port p).fcMode = 1) :
    s.rxPause p quanta = (s.updPort p (fun q => q.paused 0xFF (fun _ => quanta))).bumpPort p 5 1 := if_pos hm

theorem State.rxPause_ignored {quanta : Nat} (hm : (s.port p).fcMode ≠ 1) : s.rxPause p quanta = s.bumpPort p 7 1 := if_neg hm

theorem State.rxPfc_pause {vec : Nat} {quanta : Nat → Nat} (hm : (s.port p).fcMode = 2) (hv : vec &&& (s.port p).pfcMask ≠ 0)
    {c : Nat} (hc : c < 8) : ((s.rxPfc p vec quanta).port p).pause.getD c 0 =
      if bit vec c && bit (s.port p).pfcMask c && !bit (s.port p).storm c then quanta c else (s.port p).pause.getD c 0 := by
  unfold State.rxPfc
  dsimp only
  rw [if_pos ⟨hm, hv⟩, State.bumpPort_port, State.port_updPort_same, ← bit_and, ← bit_open_classes]
  show (PortSt.paused _ _ _).pause.getD c 0 = _
  exact PortSt.paused_getD _ _ _ hc

theorem State.rxPfc_count {vec : Nat} {quanta : Nat → Nat} (hm : (s.port p).fcMode = 2) (hv : vec &&& (s.port p).pfcMask ≠ 0) :
    Tab.get 0 (s.rxPfc p vec quanta).tel.portCtr (22 * p + 6) = Tab.get 0 s.tel.portCtr (22 * p + 6) + 1 := by
  unfold State.rxPfc
  dsimp only
  rw [if_pos ⟨hm, hv⟩, State.get_bumpPort_same, State.updPort_tel]

theorem pauseFrame_exec (h : s.takesCtl p b) (he : fld b 12 2 = 0x8808) (ho : fld b 14 2 = 1) :
    exec (.pauseFrameReceived p b true) s = .next ((s.ctlCounted p b).rxPause p (fld b 16 2)) := by
  show onPort p (if _ then _ else _) = _
  rw [if_pos ⟨he, ho⟩, State.ctlRx_of_takesCtl h, onPort_next h.1]

theorem pauseFrame_ends (h : s.takesCtl p b) (he : fld b 12 2 = 0x8808) (ho : fld b 14 2 = 1) (hm : (s.port p).fcMode = 1) :
    Ends (.pauseFrameReceived p b true) s (fun t => (∀ c, c < 8 → (t.port p).pause.getD c 0 = fld b 16 2)
      ∧ Tab.get 0 t.tel.portCtr (22 * p + 5) = Tab.get 0 s.tel.portCtr (22 * p + 5) + 1 ∧ ∀ q, q ≠ p → t.port q = s.port q) := by
  refine ⟨_, (pauseFrame_exec h he ho).trans (congrArg _ (State.rxPause_of_mode (by rwa [State.ctlCounted_port]))), ?_⟩
  dsimp only
  rw [State.get_bumpPort_same, State.bumpPort_port, State.port_updPort_same, State.updPort_tel,
    State.ctlCounted_get b (by omega) (by omega)]
  refine ⟨fun c hc => ?_, rfl, fun q hq => ?_⟩
  · rw [PortSt.paused_getD _ _ _ hc, if_pos (bit_all_classes hc)]
  · rw [State.port_updPort, if_neg (Ne.symm hq), State.ctlCounted_port]

theorem pauseFrame_ends_ignored (h : s.takesCtl p b) (he : fld b 12 2 = 0x8808) (ho : fld b 14 2 = 1) (hm : (s.port p).fcMode ≠ 1) :
    Ends (.pauseFrameReceived p b true) s (fun t => t.ports = s.ports
      ∧ Tab.get 0 t.tel.portCtr (22 * p + 7) = Tab.get 0 s.tel.portCtr (22 * p + 7) + 1) := by
  refine ⟨_, (pauseFrame_exec h he ho).trans (congrArg _ (State.rxPause_ignored (by rwa [State.ctlCounted_port]))),
    ?_, ?_⟩
  · rw [(State.bumpPort_frame (Touch.or_self _) .refl _ _ _).ports rfl, (s.ctlCounted_frame p b).ports rfl]
  · rw [State.get_bumpPort_same, State.ctlCounted_get b (by omega) (by omega)]

theorem pfcFrame_ends (h : s.takesCtl p b) (he : fld b 12 2 = 0x8808) (ho : fld b 14 2 = 0x0101) (hm : (s.port p).fcMode = 2)
    (hv : fld b 17 1 &&& (s.port p).pfcMask ≠ 0) : Ends (.pfcFrameReceived p b true) s (fun t =>
      (∀ c, c < 8 → (t.port p).pause.getD c 0 =
        if bit (fld b 17 1) c && bit (s.port p).pfcMask c && !bit (s.port p).storm c then fld b (18 + 2 * c) 2
        else (s.port p).pause.getD c 0)
      ∧ Tab.get 0 t.tel.portCtr (22 * p + 6) = Tab.get 0 s.tel.portCtr (22 * p + 6) + 1) := by
  refine ends_of_onPort h.1 rfl ?_
  rw [if_pos ⟨he, ho⟩, State.ctlRx_of_takesCtl h]
  rw [← s.ctlCounted_port p b] at hm hv ⊢
  refine ⟨fun c hc => State.rxPfc_pause hm hv hc, ?_⟩
  rw [State.rxPfc_count hm hv, State.ctlCounted_get b (by omega) (by omega)]

theorem onClass_next {c : Nat} {t : State} (hp : p < 512) (hc : c < 8) : onClass p c t = .next t := by
  unfold onClass
  rw [if_neg (by omega), if_neg (by omega)]

theorem pauseExpiry_ends {c : Nat} (hp : p < 512) (hc : c < 8) : Ends (.pauseExpiry p c) s (fun t => (t.port p).pause.getD c 0 = 0
    ∧ (∀ d, d < 8 → d ≠ c → (t.port p).pause.getD d 0 = (s.port p).pause.getD d 0) ∧ ∀ q, q ≠ p → t.port q = s.port q) := by
  refine ⟨_, onClass_next hp hc, ?_⟩
  dsimp only
  rw [State.port_updPort_same]
  refine ⟨?_, fun d hd hdc => ?_, fun q hq => ?_⟩
  · rw [PortSt.paused_getD _ _ _ hc, if_pos (by simp [bit_two_pow])]
  · rw [PortSt.paused_getD _ _ _ hd, if_neg (by simp [bit_two_pow, Ne.symm hdc])]
  · rw [State.port_updPort, if_neg (Ne.symm hq)]

/-! ### PFC storms (R50) -/

theorem pfcStormEnd_idles {c : Nat} (hp : p < 512) (hc : c < 8) (h : bit (s.port p).storm c = false) :
    Idles (.pfcStormEndTimer p c) s := by
  show onClass p c (if _ then _ else _) = _
  rw [if_pos h, onClass_next hp hc]

theorem pfcStormEnd_ends_again {c : Nat} (hp : p < 512) (hc : c < 8) (h : bit (s.port p).storm c = true)
    (hs : bit (s.port p).stormSeen c = true) : Ends (.pfcStormEndTimer p c) s (fun t =>
      (t.port p).storm = (s.port p).storm ∧ bit (t.port p).stormSeen c = false) := by
  refine ⟨_, onClass_next hp hc, ?_⟩
  dsimp only
  rw [if_neg (by simp [h]), if_pos hs, State.port_updPort_same]
  exact ⟨rfl, by simp [bit_clrBit]⟩

theorem pfcStormEnd_ends_over {c : Nat} (hp : p < 512) (hc : c < 8) (h : bit (s.port p).storm c = true)
    (hs : bit (s.port p).stormSeen c = false) : Ends (.pfcStormEndTimer p c) s (fun t =>
      ∀ d, bit (t.port p).storm d = (bit (s.port p).storm d && d != c)) := by
  refine ⟨_, onClass_next hp hc, fun d => ?_⟩
  rw [if_neg (by simp [h]), if_neg (by simp [hs]), State.raise_port, State.port_updPort_same]
  exact bit_clrBit _ _ _

end

end Sys2Proof.Machine
end

section
/-! PROOF. The egress queues of a port that are emptied, its links, low-power idle, margins and datapaths (R39, R50, R64 to R66). -/

namespace Sys2Proof.Machine

/-! ### Egress queues (R50, R161) -/

/-- Two entries of an egress queue name the same copy. -/
def EgItem.same (i j : EgItem) : Bool := j.pkt == i.pkt && j.src == i.src

theorem EgItem.same_self (i : EgItem) : i.same i = true := by simp [EgItem.same]

theorem SchedSt.settle_egq (x : SchedSt) (k : Nat) : (x.settle k).egq = x.egq := by
  unfold SchedSt.settle
  repeat' split
  all_goals rfl

theorem State.egq_setEgq (s : State) (k j : Nat) (l : List EgItem) : (s.setEgq k l).egq j = if k = j then l else s.egq j := by
  show Tab.get [] (SchedSt.egq (SchedSt.settle _ k)) j = _
  rw [SchedSt.settle_egq]
  exact Tab.get_set _ _ _ _ _

theorem State.egq_egLeave (s : State) (k j : Nat) (i : EgItem) :
    (s.egLeave k i).egq j = if k = j then (s.egq k).filter (fun x => !i.same x) else s.egq j := by
  rw [← State.egq_setEgq]
  unfold State.egLeave
  dsimp only
  repeat' split
  all_goals rfl

theorem State.egq_egDrop (s : State) (k r j : Nat) (i : EgItem) :
    (s.egDrop k r i).egq j = if k = j then (s.egq k).filter (fun x => !i.same x) else s.egq j := by
  unfold State.egDrop
  rw [State.egq_egLeave, (State.countDrop_frame (Touch.or_self _) .refl _ _ _).egq_eq rfl]

/-- Dropping `l` from queue `k` takes out the entries of those copies, and no other. -/
theorem State.egq_foldl_egDrop (k r j : Nat) (l : List EgItem) (s : State) :
    (l.foldl (fun u i => u.egDrop k r i) s).egq j = if k = j then (s.egq k).filter (fun x => l.all (fun i => !i.same x)) else s.egq j := by
  induction l generalizing s with
  | nil => simp +contextual
  | cons i l ih =>
    rw [List.foldl_cons, ih, State.egq_egDrop, State.egq_egDrop, if_pos rfl]
    split
    · simp [List.filter_filter, Bool.and_comm]
    · rfl

/-- The queues of a port, one after another: `sel k` of the entries of queue `k` are dropped. -/
def State.dropSel (s : State) (r : Nat) (sel : Nat → EgItem → Bool) (ks : List Nat) : State :=
  ks.foldl (fun t k => ((t.egq k).filter (sel k)).foldl (fun u i => u.egDrop k r i) t) s

theorem State.mem_egq_dropSel {r : Nat} {sel : Nat → EgItem → Bool} {ks : List Nat} {s : State} {j : Nat} {x : EgItem}
    (h : x ∈ (s.dropSel r sel ks).egq j) : x ∈ s.egq j ∧ (j ∈ ks → sel j x = false) := by
  induction ks generalizing s with
  | nil => exact ⟨h, fun k => absurd k (by simp)⟩
  | cons k ks ih =>
    obtain ⟨hx, hs⟩ := ih h
    rw [State.egq_foldl_egDrop] at hx
    by_cases hk : k = j
    · subst hk
      rw [if_pos rfl, List.mem_filter] at hx
      obtain ⟨hm, ha⟩ := hx
      refine ⟨hm, fun _ => ?_⟩
      by_contra hsel
      have := List.all_eq_true.mp ha x (List.mem_filter.mpr ⟨hm, by simpa using hsel⟩)
      simp [EgItem.same_self] at this
    · rw [if_neg hk] at hx
      exact ⟨hx, fun hj => hs ((List.mem_cons.mp hj).resolve_left (Ne.symm hk))⟩

theorem Tab.key_mem_of_get_ne {α : Type} {d : α} {t : Tab α} {k : Nat} (h : Tab.get d t k ≠ d) : ∃ e ∈ t, e.1 = k := by
  induction t with
  | nil => exact absurd rfl h
  | cons e t ih =>
    by_cases he : e.1 = k
    · exact ⟨e, .head _, he⟩
    · obtain ⟨e', hm, hk⟩ := ih (by simpa [Tab.get, Tab.find, he] using h)
      exact ⟨e', .tail _ hm, hk⟩

/-- A queue of a port that holds a frame is among those its rows walk through. -/
theorem State.mem_portQueues {s : State} {k : Nat} {x : EgItem} (h : x ∈ s.egq k) : k ∈ s.portQueues (voqPort k) := by
  obtain ⟨e, he, hk⟩ := Tab.key_mem_of_get_ne (d := []) (t := s.sched.egq) (k := k) (List.ne_nil_of_mem h)
  exact List.mem_map.mpr ⟨e, List.mem_filter.mpr ⟨he, by simp [hk]⟩, hk⟩

/-- After the queues of a port have been walked through, none of their entries is one to be dropped. -/
theorem State.sel_false_of_dropSel {r p k : Nat} {sel : Nat → EgItem → Bool} {s : State} {x : EgItem} (hp : voqPort k = p)
    (h : x ∈ (s.dropSel r sel (s.portQueues p)).egq k) : sel k x = false := by
  obtain ⟨hx, hs⟩ := State.mem_egq_dropSel h
  exact hs (hp ▸ State.mem_portQueues hx)

theorem State.dropQueued_eq_dropSel (s : State) (p r : Nat) :
    s.dropQueued p r (fun _ => false) = s.dropSel r (fun _ _ => true) (s.portQueues p) := by
  unfold State.dropQueued State.dropSel
  simp

/-! ### PFC storms (R50) -/

section

variable {s : State} {p : Nat}

/-- A storm begins: its flag stands, and the frames of Moaras of the class are taken out, before the queues are walked through. -/
def State.stormBegun (s : State) (p c : Nat) : State :=
  let t := (s.updPort p (fun q =>
    { q with storm := setBit q.storm c, stormSeen := clrBit q.stormSeen c })).raise 0x0201 sevWarning []
  (t.setWaiting p ((t.waiting p).filter (fun x => x.1 != c))).bumpPort p 19 ((t.waiting p).filter (fun x => x.1 == c)).length

theorem State.stormStart_eq (s : State) (p c : Nat) : s.stormStart p c
    = (s.stormBegun p c).dropSel 6 (fun k i => voqClass k == c && !i.started) ((s.stormBegun p c).portQueues p) := by
  show List.foldl _ (s.stormBegun p c) _ = List.foldl _ _ _
  refine List.foldl_ext _ _ _ (fun t k _ => ?_)
  by_cases hk : voqClass k = c
  · simp [hk]
  · have hb : (voqClass k == c) = false := by simpa using hk
    simp [hk, hb]

theorem State.dropSel_port (r : Nat) (sel : Nat → EgItem → Bool) (ks : List Nat) (s : State) : (s.dropSel r sel ks).port = s.port :=
  foldl_read State.port (fun _ _ _ => foldl_read State.port (fun _ _ _ =>
    (State.egDrop_frame (Touch.or_self _) .refl _ _ _).port_eq rfl) _) s

theorem State.stormBegun_port (s : State) (p c : Nat) : (s.stormBegun p c).port p
    = { s.port p with storm := setBit (s.port p).storm c, stormSeen := clrBit (s.port p).stormSeen c } := by
  unfold State.stormBegun
  dsimp only
  rw [State.bumpPort_port, State.setWaiting_port, State.raise_port, State.port_updPort_same]

theorem pfcWatchdog_ends {c : Nat} (hp : p < 512) (hc : c < 8) (hl : (s.port p).link = true) (hw : (s.port p).watchdog ≠ 0)
    (hm : (s.port p).fcMode = 2) (hq : (s.port p).pause.getD c 0 ≠ 0) (hs : bit (s.port p).storm c = false) :
    Ends (.pfcWatchdogExpiry p c) s (fun t =>
      bit (t.port p).storm c = true ∧ ∀ k, voqPort k = p → voqClass k = c → ∀ i ∈ t.egq k, i.started = true) := by
  refine ⟨_, onClass_next hp hc, ?_⟩
  rw [if_pos (by simp only [hl, hm, hs, bne_iff_ne.mpr hw, bne_iff_ne.mpr hq]; rfl), State.stormStart_eq]
  refine ⟨?_, fun k hk hkc i hi => ?_⟩
  · rw [State.dropSel_port, State.stormBegun_port]
    exact bit_setBit_same _ _
  · simpa [hkc] using State.sel_false_of_dropSel hk hi

/-! ### XOFF refreshed (R148) -/

theorem pfcRefresh_idles (hp : p < 512) (h : s.xoffVec p = 0) : Idles (.pfcRefreshTimer p) s :=
  idles_of_onPort hp rfl (if_pos (.inl h))

theorem pfcRefresh_ends (hp : p < 512) (hv : s.xoffVec p ≠ 0) (hl : (s.port p).link = true) (ht : (s.port p).txPkt = none)
    (hi : (s.port p).lpi = false) (hc : (s.port p).ctlWaits = false) (hm : (s.port p).fcMode = 2) :
    Ends (.pfcRefreshTimer p) s (fun t =>
      t.out = .control p (s.pfcFrame p (s.xoffVec p) (s.port p).pfcQuanta) :: s.out) := by
  refine ends_of_onPort hp rfl ?_
  unfold State.refresh
  dsimp only
  rw [if_neg (by simp [hv, hc])]
  simp only [hm]
  rw [State.sendCtl_now _ hl ht hi, State.sendNow_out, State.countCtl_out]

/-! ### Links (R39, R47, R53, R59) -/

theorem linkDown_idles (hp : p < 512) (h : (s.port p).link = false) : Idles (.linkDown p) s :=
  idles_of_onPort hp rfl (if_neg (by simp [h]))

theorem State.waiting_linkDown (c : Option Nat) (h : (s.port p).link = true) : (s.linkDown p c).waiting p = [] := by
  unfold State.linkDown
  rw [if_pos h]
  dsimp only
  rw [(State.bumpPort_frame (Touch.or_self _) .refl _ _ _).waiting_eq rfl, State.waiting_setWaiting, if_pos rfl]

/-- Without a counter for it, the frame in transmission is dropped with the queued ones. -/
theorem State.loseTx_none : s.loseTx p none = s := by
  unfold State.loseTx
  split <;> simp_all

theorem State.egq_linkDown (h : (s.port p).link = true) : (s.linkDown p none).egq = ((s.stormClears p).dropQueued p 5 (fun _ => false)).egq := by
  unfold State.linkDown
  rw [if_pos h]
  dsimp only
  rw [(State.bumpPort_frame (Touch.or_self _) .refl _ _ _).egq_eq rfl, (State.setWaiting_frame (Touch.or_self _) .refl _ _).egq_eq rfl,
    (State.updPort_frame (Touch.or_self _) .refl _ _).egq_eq rfl, (State.parkLanes_frame (Touch.or_self _) .refl _ _).egq_eq rfl,
    (State.bumpPort_frame (Touch.or_self _) .refl _ _ _).egq_eq rfl, State.loseTx_none]

theorem getD_replicate_zero (n c : Nat) : (List.replicate n 0).getD c 0 = 0 := by
  rw [List.getD_eq_getElem?_getD, List.getElem?_getD_replicate_default_eq]

theorem linkDown_ends (hp : p < 512) (h : (s.port p).link = true) : Ends (.linkDown p) s (fun t =>
    (t.port p).link = false ∧ (t.port p).storm = 0 ∧ (∀ c, (t.port p).pause.getD c 0 = 0) ∧ (t.port p).ctlQueue = []
      ∧ (t.port p).lastSec = s.time.sec ∧ t.waiting p = [] ∧ (∀ k, voqPort k = p → t.egq k = [])) := by
  refine ends_of_onPort hp rfl ?_
  rw [State.port_linkDown, if_pos ⟨h, rfl⟩, State.waiting_linkDown none h, State.egq_linkDown h, State.dropQueued_eq_dropSel]
  refine ⟨rfl, rfl, fun c => ?_, rfl, rfl, rfl, fun k hk => ?_⟩
  · exact getD_replicate_zero 8 c
  · refine List.eq_nil_iff_forall_not_mem.mpr (fun x hx => ?_)
    exact absurd (State.sel_false_of_dropSel hk hx) (by simp)

theorem linkUp_ends (ha : s.portActive p = true) (hadm : (s.port p).admin = true) (hl : (s.port p).link = false)
    (hpath : s.pathsOk p = true) (hsl : (s.sliceSt (p / 32)).state = .active) : Ends (.linkUp p) s (fun t =>
      (t.port p).link = true ∧ (t.port p).linkUps = ((s.port p).linkUps + 1) % 2 ^ 32 ∧ (∀ c, (t.port p).pause.getD c 0 = 0)
      ∧ (∀ i, i < s.fullWidth p → (t.lane (p + i)).parked = false) ∧ ∀ q, q ≠ p → t.port q = s.port q) := by
  have hp : p < 512 := by
    simp only [State.portActive, Bool.and_eq_true, decide_eq_true_eq] at ha
    obtain ⟨⟨hp, -⟩, -⟩ := ha
    exact hp
  refine ends_of_onPort hp rfl ?_
  rw [if_pos (by simp [ha, hadm, hl, hpath, hsl])]
  unfold State.linkUp
  dsimp only
  rw [State.port_updPort_same, State.parkLanes_port]
  refine ⟨rfl, rfl, getD_replicate_zero 8, fun i hi => ?_, fun q hq => ?_⟩
  · exact State.lane_parkLanes_full hi
  · rw [State.port_updPort, if_neg (Ne.symm hq), State.parkLanes_port]

/-! ### Low-power idle (R64) -/

theorem lpiIdle_ends (hp : p < 512) (he : (s.port p).eee = true) (hf : s.eeeFits p = true) (hl : (s.port p).link = true)
    (hi : (s.port p).lpi = false) (ht : (s.port p).txPkt = none) (hw : s.waiting p = []) (hq : s.portQueues p = []) :
    Ends (.lpiIdleTimer p) s (fun t =>
      t.port p = { s.port p with lpi := true } ∧ Tab.get 0 t.tel.portCtr (22 * p + 18) = Tab.get 0 s.tel.portCtr (22 * p + 18) + 1) := by
  refine ends_of_onPort hp rfl ?_
  rw [if_pos (by simp [he, hf, hl, hi, ht, hw, hq]), State.bumpPort_port, State.port_updPort_same, State.get_bumpPort_same,
    State.updPort_tel]
  exact ⟨rfl, rfl⟩

theorem lpiWake_idles (hp : p < 512) (h : (s.port p).lpi = false) : Idles (.lpiWakeComplete p) s :=
  idles_of_onPort hp rfl (if_neg (by simp [h]))

theorem State.flushCtl_port (s : State) (p : Nat) : (s.flushCtl p).port = (s.updPort p (fun q => { q with ctlQueue := [] })).port := by
  unfold State.flushCtl
  refine foldl_read State.port (fun t b _ => ?_) _
  rw [State.sendNow_port, State.countCtl_port]

/-- Every control frame that waits leaves. -/
theorem State.flushCtl_sends {s : State} {p : Nat} {b : List Byte} (h : b ∈ (s.port p).ctlQueue) : .control p b ∈ (s.flushCtl p).out := by
  unfold State.flushCtl
  generalize s.updPort p (fun q => { q with ctlQueue := [] }) = t
  suffices ∀ (l : List (List Byte)) (t : State), (b ∈ l ∨ .control p b ∈ t.out) →
      .control p b ∈ (l.foldl (fun t b => (t.countCtl p b).sendNow p (.control p b)) t).out from this _ t (.inl h)
  intro l
  induction l with
  | nil => exact fun t ht => ht.resolve_left (by simp)
  | cons c l ih =>
    intro t ht
    refine ih _ ?_
    rw [State.sendNow_out, State.countCtl_out]
    rcases ht with hc | ho
    · rcases List.mem_cons.mp hc with rfl | hl
      · exact .inr (.head _)
      · exact .inl hl
    · exact .inr (.tail _ ho)

theorem lpiWake_ends (hp : p < 512) (h : (s.port p).lpi = true) : Ends (.lpiWakeComplete p) s (fun t =>
    t.port p = { s.port p with lpi := false, ctlQueue := [] } ∧ (∀ b ∈ (s.port p).ctlQueue, .control p b ∈ t.out)
      ∧ ∀ q, q ≠ p → t.port q = s.port q) := by
  refine ends_of_onPort hp rfl ?_
  rw [if_pos h, State.flushCtl_port, State.port_updPort_same, State.port_updPort_same]
  refine ⟨rfl, fun b hb => State.flushCtl_sends ?_, fun q hq => ?_⟩
  · rwa [State.port_updPort_same]
  · rw [State.port_updPort, if_neg (Ne.symm hq), State.port_updPort, if_neg (Ne.symm hq)]

/-! ### Margins and datapaths (R65, R66) -/

theorem State.raiseIf_lane (s : State) (b : Bool) (c v : Nat) (a : List Byte) : (s.raiseIf b c v a).lane = s.lane :=
  (State.raiseIf_frame (Touch.or_self _) .refl b c v a).lane_eq rfl

variable {l : Nat}

theorem marginSample_exec (height width : Nat) (hl : l < 512) (hh : height < 65536) (hw : width < 65536) :
    exec (.marginSample l height width) s = .next (s.margin l height width) := by
  show (if _ then _ else _) = _
  rw [if_neg (by omega), Nat.mod_eq_of_lt hh, Nat.mod_eq_of_lt hw]

theorem State.margin_inactive {height width : Nat} (h : (s.lane l).mode = 0) : s.margin l height width = s := if_pos h

theorem State.lane_margin_parked {height width : Nat} (hm : (s.lane l).mode ≠ 0) (hp : (s.lane l).parked = true) :
    (s.margin l height width).lane l = { s.lane l with stale := true } := by
  unfold State.margin
  rw [if_neg hm, if_pos hp, State.lane_setLane, if_pos rfl]

theorem State.lane_margin {height width : Nat} (hm : (s.lane l).mode ≠ 0) (hp : (s.lane l).parked = false) (m : Nat) :
    (s.margin l height width).lane m = if l = m then { s.lane l with
        eyeH := height, eyeW := width, stale := false, below := decide (height < s.pwr.marginH) || decide (width < s.pwr.marginW) }
      else s.lane m := by
  unfold State.margin
  rw [if_neg hm, if_neg (by simp [hp])]
  dsimp only
  rw [State.raiseIf_lane, State.lane_setLane]

theorem State.healthIf_group (s : State) (b : Bool) : (s.healthIf b).group = s.group :=
  (State.healthIf_frame (Touch.or_self _) .refl b).group_eq rfl

theorem State.mem_repairAdd (s : State) (kind unit : Nat) : (kind, unit) ∈ (s.repairAdd kind unit).pwr.repairLog := by
  show _ ∈ (if _ then _ else _)
  split
  · next h => exact List.contains_iff_mem.mp h
  · simp

theorem State.substitute_group (s : State) (l : Nat) : (s.substitute l).group (l / 8)
    = { s.group (l / 8) with spare := 1, laneOnSpare := l % 8, substs := ((s.group (l / 8)).substs + 1) % 65536 } := by
  unfold State.substitute
  dsimp only
  rw [(State.healthChanged_frame (Touch.or_self _) .refl).group_eq rfl, (State.raise_frame (Touch.or_self _) .refl _ _ _).group_eq rfl,
    (State.repairAdd_frame (Touch.or_self _) .refl _ _).group_eq rfl, State.group_updGroup_same,
    (State.updPort_frame (Touch.or_self _) .refl _ _).group_eq rfl, (State.loseRx_frame (Touch.or_self _) .refl _ _).group_eq rfl,
    (State.loseTx_frame (Touch.or_self _) .refl _ _).group_eq rfl]

theorem State.substitute_repaired (s : State) (l : Nat) : (3, l) ∈ (s.substitute l).pwr.repairLog := by
  unfold State.substitute
  dsimp only
  rw [(State.healthChanged_frame (Touch.or_self _) .refl).repairLog rfl, (State.raise_frame (Touch.or_self _) .refl _ _ _).repairLog rfl]
  exact State.mem_repairAdd _ _ _

/-- The failed datapath of a group without a spare is dead and recorded, before its port goes down. -/
def State.deadBegun (s : State) (l : Nat) : State :=
  (((s.loseSpare l).updGroup (l / 8) (fun g => { g with dead := setBit g.dead (l % 8) })).repairAdd 3 l).raise 0x0208
    sevUncorrectable []

/-- And then: an active port has lost its link. -/
def State.deadDown (s : State) (l : Nat) : State :=
  if (s.lane l).mode = 0 then s.deadBegun l else (s.deadBegun l).linkDown (s.portOfLane l) none

theorem State.exhausted_eq (s : State) (l : Nat) :
    s.exhausted l = (s.deadDown l).healthIf ((s.deadDown l).overall != s.overall) := rfl

theorem State.deadDown_group (s : State) (l : Nat) : (s.deadDown l).group = (s.deadBegun l).group := by
  unfold State.deadDown
  split
  · rfl
  · exact (State.linkDown_frame (Touch.or_self _) .refl _ _).group_eq rfl

theorem State.deadDown_repairLog (s : State) (l : Nat) : (s.deadDown l).pwr.repairLog = (s.deadBegun l).pwr.repairLog := by
  unfold State.deadDown
  split
  · rfl
  · exact (State.linkDown_frame (Touch.or_self _) .refl _ _).repairLog rfl

theorem State.exhausted_dead (s : State) (l : Nat) : bit ((s.exhausted l).group (l / 8)).dead (l % 8) = true := by
  rw [State.exhausted_eq, State.healthIf_group, State.deadDown_group]
  unfold State.deadBegun
  rw [(State.raise_frame (Touch.or_self _) .refl _ _ _).group_eq rfl, (State.repairAdd_frame (Touch.or_self _) .refl _ _).group_eq rfl,
    State.group_updGroup_same]
  exact bit_setBit_same _ _

theorem State.exhausted_repaired (s : State) (l : Nat) : (3, l) ∈ (s.exhausted l).pwr.repairLog := by
  rw [State.exhausted_eq, (State.healthIf_frame (Touch.or_self _) .refl _).repairLog rfl, State.deadDown_repairLog]
  unfold State.deadBegun
  rw [(State.raise_frame (Touch.or_self _) .refl _ _ _).repairLog rfl]
  exact State.mem_repairAdd _ _ _

theorem State.exhausted_link (hm : (s.lane l).mode ≠ 0) : ((s.exhausted l).port (s.portOfLane l)).link = false := by
  rw [State.exhausted_eq, (State.healthIf_frame (Touch.or_self _) .refl _).port_eq rfl]
  unfold State.deadDown
  rw [if_neg hm]
  exact State.link_linkDown _ _ _

theorem datapathFailure_exec (hl : l < 512) :
    exec (.datapathFailure l) s = .next (if (s.group (l / 8)).spare = 0 then s.substitute l else s.exhausted l) :=
  if_neg (by omega)

theorem spareDatapathFailed_ends {g : Nat} (hg : g < 64) (h : (s.group g).spare = 0) : Ends (.spareDatapathFailed g) s (fun t =>
    t.group g = { s.group g with spare := 2 } ∧ t.pwr.healthGen = (s.pwr.healthGen + 1) % 2 ^ 32
      ∧ Tab.get 0 t.tel.redCtr 12 = Tab.get 0 s.tel.redCtr 12 + 1) := by
  refine ⟨_, if_neg (by omega), ?_⟩
  dsimp only
  rw [if_pos h]
  refine ⟨?_, ?_, ?_⟩
  · rw [(State.healthChanged_frame (Touch.or_self _) .refl).group_eq rfl,
      (State.repairAdd_frame (Touch.or_self _) .refl _ _).group_eq rfl, (State.bumpRed_frame (Touch.or_self _) .refl _ _).group_eq rfl,
      State.group_updGroup_same]
  · unfold State.healthChanged
    dsimp only
    rw [(State.raise_frame (Touch.or_self _) .refl _ _ _).healthGen rfl]
    rfl
  · rw [(State.healthChanged_frame (Touch.or_self _) .refl).redCtr rfl, (State.repairAdd_frame (Touch.or_self _) .refl _ _).redCtr rfl]
    exact (Tab.get_bump _ _ _ _).trans (if_pos rfl)

end

/-- Settles O44: each row is one operation on its port, lane or group, and each operation's rule says what it leaves. -/
theorem portRows : Obligations.PortRows := by
  unfold Obligations.PortRows
  refine ⟨?pause, ?pfc, ?expiry, ?watchdog, ?stormEnd, ?refresh, ?linkDown, ?linkUp, ?lpiIdle, ?lpiWake, ?margin, ?datapath, ?spare⟩
  case pause => exact fun s p b h he ho => ⟨pauseFrame_ends h he ho, pauseFrame_ends_ignored h he ho⟩
  case pfc => exact fun s p b h he ho hm hv => pfcFrame_ends h he ho hm hv
  case expiry => exact fun s p c hp hc => pauseExpiry_ends hp hc
  case watchdog => exact fun s p c hp hc hl hw hm hq hs => pfcWatchdog_ends hp hc hl hw hm hq hs
  case stormEnd =>
    exact fun s p c hp hc => ⟨pfcStormEnd_idles hp hc, pfcStormEnd_ends_again hp hc, pfcStormEnd_ends_over hp hc⟩
  case refresh => exact fun s p hp => ⟨pfcRefresh_idles hp, fun hv hl ht hi hc hm => pfcRefresh_ends hp hv hl ht hi hc hm⟩
  case linkDown => exact fun s p hp => ⟨linkDown_idles hp, linkDown_ends hp⟩
  case linkUp => exact fun s p ha hadm hl hpath hsl => linkUp_ends ha hadm hl hpath hsl
  case lpiIdle => exact fun s p hp he hf hl hi ht hw hq => lpiIdle_ends hp he hf hl hi ht hw hq
  case lpiWake => exact fun s p hp => ⟨lpiWake_idles hp, lpiWake_ends hp⟩
  case margin =>
    refine fun s l h w hl hh hw => ⟨fun hm => ?_, fun hm hp => ?_, fun hm hp => ?_⟩
    · exact (marginSample_exec h w hl hh hw).trans (congrArg _ (State.margin_inactive hm))
    · exact ⟨_, marginSample_exec h w hl hh hw, State.lane_margin_parked hm hp⟩
    · refine ⟨_, marginSample_exec h w hl hh hw, ?_, fun m hml => ?_⟩
      · rw [State.lane_margin hm hp, if_pos rfl]
      · rw [State.lane_margin hm hp, if_neg (Ne.symm hml)]
  case datapath =>
    refine fun s l hl => ⟨fun h => ⟨_, datapathFailure_exec hl, ?_⟩, fun h => ⟨_, datapathFailure_exec hl, ?_⟩⟩
    · rw [if_pos h]
      exact ⟨s.substitute_group l, s.substitute_repaired l⟩
    · rw [if_neg h]
      exact ⟨s.exhausted_dead l, s.exhausted_repaired l, State.exhausted_link⟩
  case spare => exact fun s g hg h => spareDatapathFailed_ends hg h

end Sys2Proof.Machine
end

section
/-! PROOF. Where a staged write is not recorded though the room that `State.setRoom` counts is there. -/

namespace Sys2Proof.Machine

/-- MEM_SET_REGIONS staged into set 1, with tag 1. -/
def taggedRegions : Req := { regionsInSet1 with tag := 1 }

/-- The open set 1, which holds one PORT_SET_ADMIN: 20 bytes of the staging region. -/
def adminSet1 : SetSt := { SetSt.init with id := 1, cmds := [{ op := 0x020A, payload := [0, 0, 1, 0] }] }

/-- A ready standalone device with that set alone, whose receipt slots in use leave 64 bytes of the staging region. -/
def tightStaging : State :=
  { twoSets1 with
    bake := { twoSets1.bake with sets := [adminSet1] }
    leaven := { twoSets1.leaven with fix := [(0, { FixClu.init with rcHead := 3728270 })] } }

theorem tightStaging_fresh : tightStaging.fresh 0x0C02 taggedRegions :=
  ⟨by decide, by decide +kernel, by decide +kernel, by decide +kernel, rfl, by decide +kernel, rfl, rfl⟩

/-- The set with the command takes 60 bytes of the 64. -/
theorem tightStaging_setRoom : tightStaging.setRoom adminSet1 { op := 0x0C02, payload := taggedRegions.payload } := by
  unfold State.setRoom
  decide +kernel

/-- With 20 more for the tag of the command that executes (R391), it finds no room and answers NO_RESOURCE. -/
theorem tightStaging_refuses : ∃ t, exec (.memSetRegions taggedRegions) tightStaging = .next t
    ∧ (t.box 0).resp = respHeader 1 (Resp.err stNoResource 0x0D06) 0 ∧ t.bake.epoch = 0 :=
  ⟨_, rfl, by decide +kernel⟩

/-- Refutes O14: `State.setRoom` counts the staging region before the doorbell, while the staged write counts it with its own request
queued, whose tag takes 20 bytes of it; a command that fits without them is refused. -/
theorem not_stagedWritesRecorded : ¬ Obligations.StagedWritesRecorded := by
  unfold Obligations.StagedWritesRecorded
  rintro ⟨-, hwrites, -⟩
  have hrecorded := hwrites (0x0C02, .memSetRegions) (by simp [stagedOnlyWrites])
  obtain ⟨t, ht, ⟨hanswered, -⟩, -⟩ := hrecorded taggedRegions tightStaging adminSet1 tightStaging_fresh rfl rfl rfl tightStaging_setRoom
  obtain ⟨-, hok⟩ := hanswered rfl
  obtain ⟨u, hu, hresp, hepoch⟩ := tightStaging_refuses
  obtain rfl : t = u := Host.Outcome.next.inj (ht.symm.trans hu)
  rw [hepoch] at hok
  exact absurd (hok.symm.trans hresp) (by decide)

end Sys2Proof.Machine
end

section
/-! PROOF. The Prism commands (R81 to R94): a live write reaches the bank in force, and the reads answer from it. -/

namespace Sys2Proof.Machine

/-! ### The two banks (R86) -/

section

variable (p : PrismSt) (e : Nat) (f : PrismBank → PrismBank)

@[simp] theorem PrismSt.epoch_updBank : (p.updBank e f).epoch = p.epoch := by
  unfold PrismSt.updBank
  split <;> rfl

@[simp] theorem PrismSt.bank_updBank_same : (p.updBank e f).bank e = f (p.bank e) := by
  unfold PrismSt.updBank PrismSt.bank
  split <;> rfl

/-- A write into the bank of the next epoch leaves the bank in force. -/
@[simp] theorem PrismSt.bank_updBank_next : (p.updBank (e + 1) f).bank e = p.bank e := by
  unfold PrismSt.updBank PrismSt.bank
  rcases Nat.mod_two_eq_zero_or_one e with h | h
  · simp [h, show (e + 1) % 2 = 1 by omega]
  · simp [h, show (e + 1) % 2 = 0 by omega]

end

theorem PrismBank.port_putPort (k : PrismBank) (p : List Byte) (n : Nat) :
    (k.putPort p).port n = if rd p 0 2 = n then prismPortOf p else k.port n :=
  Tab.get_set _ _ _ _ _

/-- The bank in force takes the port, whether or not the other bank does. -/
theorem applyPrismSetPort_bank (p : List Byte) (s : State) :
    (applyPrismSetPort p s).prism.bank s.prism.epoch = (s.prism.bank s.prism.epoch).putPort p := by
  unfold applyPrismSetPort
  dsimp only
  split
  · rw [PrismSt.bank_updBank_same]
  · rw [PrismSt.bank_updBank_next, PrismSt.bank_updBank_same]

/-! ### Rules of several slices (R84, R88) -/

@[simp] theorem State.epoch_liveRule1 (s : State) (idx sl : Nat) (u : Rule) : (s.liveRule1 idx u sl).prism.epoch = s.prism.epoch := by
  unfold State.liveRule1
  dsimp only [State.bumpPrism]
  split <;> simp

theorem State.bank_liveRule1 (s : State) (idx sl : Nat) (u : Rule) :
    (s.liveRule1 idx u sl).prism.bank s.prism.epoch = (s.prism.bank s.prism.epoch).putRule1 sl idx u := by
  unfold State.liveRule1
  dsimp only [State.bumpPrism]
  split <;> simp

/-- Slice by slice, the bank in force takes the rule. -/
theorem State.bank_foldl_liveRule1 (idx : Nat) (u : Rule) (l : List Nat) (s : State) :
    (l.foldl (fun t sl => t.liveRule1 idx u sl) s).prism.bank s.prism.epoch
      = l.foldl (fun k sl => k.putRule1 sl idx u) (s.prism.bank s.prism.epoch) := by
  induction l generalizing s with
  | nil => rfl
  | cons sl l ih =>
    have h := ih (s.liveRule1 idx u sl)
    rwa [State.epoch_liveRule1, State.bank_liveRule1] at h

theorem applyPrismWriteRule_bank (p : List Byte) (s : State) :
    (applyPrismWriteRule p s).prism.bank s.prism.epoch = (s.prism.bank s.prism.epoch).putRule p :=
  State.bank_foldl_liveRule1 _ _ _ s

theorem Rule.over_over (u v : Rule) : u.over (u.over v) = u.over v := by
  unfold Rule.over
  split <;> rfl

theorem PrismBank.rule_putRule1 (k : PrismBank) (sl idx i : Nat) (u : Rule) :
    Tab.get Rule.init (k.putRule1 sl idx u).rules i
      = if 3072 * sl + idx = i then u.over (Tab.get Rule.init k.rules i) else Tab.get Rule.init k.rules i :=
  Tab.get_upd _ _ _ _ _

/-- A rule written in several slices changes its index in each of them. -/
theorem PrismBank.rule_foldl_putRule1 {idx : Nat} (hidx : idx < 3072) (u : Rule) (l : List Nat) (k : PrismBank) (i : Nat) :
    Tab.get Rule.init (l.foldl (fun k sl => k.putRule1 sl idx u) k).rules i
      = if i % 3072 = idx ∧ i / 3072 ∈ l then u.over (Tab.get Rule.init k.rules i) else Tab.get Rule.init k.rules i := by
  induction l generalizing k with
  | nil => simp
  | cons sl l ih =>
    have hplace : 3072 * sl + idx = i ↔ i % 3072 = idx ∧ i / 3072 = sl := by omega
    rw [List.foldl_cons, ih, PrismBank.rule_putRule1]
    simp only [hplace, List.mem_cons]
    by_cases hi : i % 3072 = idx <;> by_cases hs : i / 3072 = sl <;> by_cases hl : i / 3072 ∈ l <;>
      simp [hi, hs, hl, Rule.over_over]

theorem PrismBank.rule_putRule (k : PrismBank) {p : List Byte} (hidx : rd p 2 2 < 3072) (i : Nat) :
    Tab.get Rule.init (k.putRule p).rules i
      = if i % 3072 = rd p 2 2 ∧ i / 3072 < 16 ∧ bit (rd p 0 2) (i / 3072) = true then
          (if bit (rd p 4 1) 0 then ruleOf p else { Tab.get Rule.init k.rules i with valid := false })
        else Tab.get Rule.init k.rules i := by
  have h := PrismBank.rule_foldl_putRule1 hidx (ruleOf p) (bitList 16 (rd p 0 2)) k i
  simp only [mem_bitList] at h
  exact h

theorem firstOf_cons_eq_none {a : Option (Nat × Nat)} {l : List (Option (Nat × Nat))} (h : firstOf (a :: l) = none) :
    a = none := by
  cases a with
  | none => rfl
  | some e => cases h

theorem need_eq_none {d : Nat} {b : Bool} : need d b = none ↔ b = true := by
  cases b <;> simp [need]

/-- A rule that passes its checks has an index of a slice (R81). -/
theorem checkPrismWriteRule_index {p : List Byte} {s : State} (h : checkPrismWriteRule p s = none) : rd p 2 2 < 3072 := by
  have h1 := need_eq_none.mp (firstOf_cons_eq_none h)
  simp only [Bool.and_eq_true, decide_eq_true_eq] at h1
  obtain ⟨⟨⟨hidx, -⟩, -⟩, -⟩ := h1
  omega

/-! ### O19 -/

section

variable {s u : State} {op : Nat} {p : List Byte}

theorem prism_of_mailed (h : u = s.mailed u) : u.prism = s.prism := (congrArg State.prism h).trans rfl

theorem prism_of_written (h : u = (s.shadow op p).mailed u) : u.prism = s.prism := (congrArg State.prism h).trans rfl

theorem prismCtr_of_mailed (h : u = s.mailed u) : u.tel.prismCtr = s.tel.prismCtr := (congrArg (·.tel.prismCtr) h).trans rfl

end

/-- Settles O19: a live write goes into the bank in force, slice by slice for a rule, and each read answers from a state that
mail alone has changed. -/
theorem prismCommands : Obligations.PrismCommands := by
  unfold Obligations.PrismCommands
  refine ⟨?setPort, ?writeRule, ?readRule, ?counters, ?ruleCounters, ?epoch⟩
  case setPort =>
    refine carried_of (fun _ _ => rfl) (fun p s u _ hok => need_eq_none.mpr hok)
      (fun p s => (applyPrismSetPort_frame (Touch.or_self _) .refl p).mbx rfl) (fun p s u t hu ht _ => ?_)
    rw [prism_of_written ht, ← prism_of_mailed hu, applyPrismSetPort_bank]
    exact ⟨by rw [PrismBank.port_putPort, if_pos rfl], fun n hn => by rw [PrismBank.port_putPort, if_neg (Ne.symm hn)]⟩
  case writeRule =>
    refine carried_of (fun _ _ => rfl) (fun p s u _ hok => hok)
      (fun p s => (applyPrismWriteRule_frame (Touch.or_self _) .refl p).mbx rfl) (fun p s u t hu ht hok i => ?_)
    rw [prism_of_written ht, ← prism_of_mailed hu, applyPrismWriteRule_bank]
    exact PrismBank.rule_putRule _ (checkPrismWriteRule_index hok) i
  case readRule =>
    refine answered_of (body := prismReadRuleBody) (fun _ _ => rfl) (fun r s u _ _ hu ⟨hslice, hbank, hidx⟩ => ?_)
    simp [prismReadRuleBody, readCmd, answerIf, prism_of_mailed hu, hslice, hbank, hidx]
  case counters =>
    refine answered_of (body := prismGetCountersBody) (fun _ _ => rfl) (fun r s u _ _ hu hslice => ?_)
    simp [prismGetCountersBody, readCmd, answerIf, prismCtr_of_mailed hu, hslice]
  case ruleCounters =>
    refine answered_of (body := prismGetRuleCountersBody) (fun _ _ => rfl) (fun r s u _ _ hu ⟨hslice, hmin, hmax, hend⟩ => ?_)
    simp [prismGetRuleCountersBody, readCmd, answerIf, prism_of_mailed hu, hslice, hmin, hmax, hend]
  case epoch =>
    refine answered_of (body := prismGetEpochBody) (fun _ _ => rfl) (fun r s u _ _ hu _ => ?_)
    simp [prismGetEpochBody, readCmd, prism_of_mailed hu]

end Sys2Proof.Machine
end

section
/-! PROOF. The bake of a set on its device (R406 to R418): its preparation, the instant, and what of a state the answers leave
alone. -/

namespace Sys2Proof.Machine

/-! ### Sets by their ID -/

namespace BakeSt

variable {b : BakeSt} {t u : SetSt} {id : Nat} {f : SetSt → SetSt}

theorem set?_updSet (hf : ∀ t, t.id = id → (f t).id = id) : (b.updSet id f).set? id = (b.set? id).map f := by
  have hsame : ((fun t : SetSt => t.id == id) ∘ fun t => if t.id = id then f t else t) = fun t => t.id == id := by
    funext t
    by_cases h : t.id = id
    · simp [h, hf t h]
    · simp [h]
  unfold BakeSt.set? BakeSt.updSet
  rw [List.find?_map, hsame]
  cases h : b.sets.find? (fun t => t.id == id) with
  | none => rfl
  | some t => simp [beq_iff_eq.mp (List.find?_some (p := fun t : SetSt => t.id == id) h)]

theorem exists_set?_of_mem (h : t ∈ b.sets) : ∃ x, b.set? t.id = some x :=
  Option.isSome_iff_exists.mp (List.find?_isSome.mpr ⟨t, h, beq_self_eq_true t.id⟩)

/-- A set that is there, replaced by one of its ID. -/
theorem set?_updSet_const (h : t ∈ b.sets) (hu : u.id = t.id) : (b.updSet t.id (fun _ => u)).set? t.id = some u := by
  obtain ⟨x, hx⟩ := exists_set?_of_mem h
  rw [set?_updSet (fun _ _ => hu), hx]
  rfl

theorem mem_of_preparing (h : b.preparing = some t) : t ∈ b.sets ∧ t.state = .preparing :=
  ⟨List.mem_of_find?_eq_some h, by simpa using List.find?_some h⟩

theorem mem_of_armed (h : b.armed = some t) : t ∈ b.sets ∧ t.state = .armed :=
  ⟨List.mem_of_find?_eq_some h, by simpa using List.find?_some h⟩

end BakeSt

/-! ### What telling of an outcome leaves alone -/

/-- What is touched when the outcome of a bake is told to the host and to Moaras's event log, and when DOM_BAKE ends. -/
def Touch.told : Touch :=
  { pools := true, bufCtr := true, waitTx := true, evt := true, telCtr := true, portCtr := true, mbxCtr := true,
    boxes := true, jobs := true, hist := true, heldEvents := true, peers := true, msgs := true, domBake := true, irq := true,
    out := true }

/-- The staged sets, the bake epoch, the tables, the Prism banks and the regions of `t` are those of `s`. -/
structure State.SameBake (s t : State) : Prop where
  sets : t.bake.sets = s.bake.sets
  epoch : t.bake.epoch = s.bake.epoch
  fwd : t.fwd = s.fwd
  prism : t.prism = s.prism
  regions : t.pwr.regions = s.pwr.regions

theorem FwdSt.eq_of_fields {f g : FwdSt} (h : f.gen0 = g.gen0 ∧ f.gen1 = g.gen1 ∧ f.gen = g.gen ∧ f.normPending = g.normPending)
    (hf : f.inGenPrev = g.inGenPrev ∧ f.inGenCur = g.inGenCur) (he : f.em = g.em ∧ f.learnedOn = g.learnedOn)
    (hs : f.seed0 = g.seed0 ∧ f.seed1 = g.seed1 ∧ f.seed2 = g.seed2) (hq : f.learnQ = g.learnQ) (ha : f.agePeriod = g.agePeriod)
    (hc : f.ctr = g.ctr) (hb : f.badTable = g.badTable) : f = g := by
  cases f; cases g; simp_all

theorem PrismSt.eq_of_fields {p q : PrismSt} (h : p.bank0 = q.bank0 ∧ p.bank1 = q.bank1 ∧ p.epoch = q.epoch ∧ p.loaded = q.loaded)
    (hf : p.inCur = q.inCur ∧ p.inPrev = q.inPrev) (hh : p.hits = q.hits) (hr : p.recirc = q.recirc) (hm : p.merge = q.merge) :
    p = q := by
  cases p; cases q; simp_all

theorem Frame.sameBake {s t : State} (h : Frame .told s t) : s.SameBake t where
  sets := (h.sets rfl).1
  epoch := h.epoch rfl
  fwd := FwdSt.eq_of_fields (h.gens rfl) (h.fwdFlight rfl) (h.em rfl) (h.seeds rfl) (h.learnQ rfl) (h.agePeriod rfl) (h.fwdCtr rfl)
    (h.badTable rfl)
  prism := PrismSt.eq_of_fields (h.prismBanks rfl) (h.prismFlight rfl) (h.hits rfl) (h.recirc rfl) (h.merge rfl)
  regions := h.regions rfl

theorem State.setRegions_congr {s u : State} (h : u.pwr.regions = s.pwr.regions) (l : List StagedCmd) :
    u.setRegions l = s.setRegions l := by
  unfold State.setRegions
  rw [h]

namespace State.SameBake

variable {s t u : State}

theorem trans (h : s.SameBake t) (k : t.SameBake u) : s.SameBake u :=
  ⟨k.sets.trans h.sets, k.epoch.trans h.epoch, k.fwd.trans h.fwd, k.prism.trans h.prism, k.regions.trans h.regions⟩

theorem set?_eq (h : s.SameBake t) (id : Nat) : t.bake.set? id = s.bake.set? id := by
  unfold BakeSt.set?
  rw [h.sets]

end State.SameBake

/-! ### A set that is OPEN again (R407) -/

section

variable {s : State} {b : SetSt}

theorem State.unprepare_bake (s : State) (b : SetSt) : (s.unprepare b).bake = s.bake := by
  unfold State.unprepare
  split <;> rfl

theorem State.reopen_set? (hb : b ∈ s.bake.sets) (hr : b.restore = false) : (s.reopen b).bake.set? b.id = some b.reopened := by
  unfold State.reopen
  dsimp only
  rw [if_neg (by simp [hr]), State.unprepare_bake]
  exact BakeSt.set?_updSet_const hb rfl

theorem State.reopen_epoch (s : State) (b : SetSt) : (s.reopen b).bake.epoch = s.bake.epoch :=
  (State.reopen_frame (Touch.or_self _) .refl b).epoch rfl

theorem State.reopen_regions (s : State) (b : SetSt) : (s.reopen b).pwr.regions = s.pwr.regions :=
  (State.reopen_frame (Touch.or_self _) .refl b).regions rfl

/-- Nothing has been prepared yet for a set that is being prepared. -/
theorem State.reopen_of_preparing (h : b.state = .preparing) : (s.reopen b).fwd = s.fwd ∧ (s.reopen b).prism = s.prism := by
  have hsame : s.unprepare b = s := if_neg (by simp [h])
  unfold State.reopen
  dsimp only
  rw [hsame]
  exact ⟨rfl, rfl⟩

/-- A local bake that fails in steps 1 to 3 leaves its set OPEN, the tables and the epoch as they were. -/
theorem State.bakeFail_reopens (hb : s.bake.preparing = some b) (hd : b.domain = false) (hr : b.restore = false) (st d : Nat) :
    (s.bakeFail b st d).bake.set? b.id = some b.reopened ∧ (s.bakeFail b st d).fwd = s.fwd ∧ (s.bakeFail b st d).prism = s.prism
      ∧ (s.bakeFail b st d).bake.epoch = s.bake.epoch := by
  obtain ⟨hmem, hprep⟩ := BakeSt.mem_of_preparing hb
  obtain ⟨hfwd, hprism⟩ := State.reopen_of_preparing (s := s) hprep
  have htold : (s.reopen b).SameBake (s.bakeFail b st d) := by
    unfold State.bakeFail
    dsimp only
    rw [if_neg (by simp [hd])]
    exact (State.answerSet_frame rfl (State.tellFailed_frame rfl .refl _ _ _) _ _).sameBake
  exact ⟨(htold.set?_eq b.id).trans (State.reopen_set? hmem hr), htold.fwd.trans hfwd, htold.prism.trans hprism,
    htold.epoch.trans (s.reopen_epoch b)⟩

end

/-! ### The end of a preparation (R412 to R414) -/

section

variable {s u : State} {b : SetSt}

theorem bakeDrainTimeout_exec (hb : s.bake.preparing = some b) :
    exec .bakeDrainTimeout s = .next (if s.drained then s else s.bakeFail b stBusy 0x0D05) := by
  show execBakeDrainTimeout s = _
  unfold execBakeDrainTimeout
  rw [hb]
  dsimp only
  split <;> rfl

theorem bakePrepareDone_exec (hb : s.bake.preparing = some b) : exec .bakePrepareDone s = .next (s.prepareDone b) := by
  show execBakePrepareDone s = _
  unfold execBakePrepareDone
  rw [hb]

theorem State.prepareDone_undrained (h : s.drained = false) : s.prepareDone b = s := if_pos h

theorem State.prepareDone_full (h : s.drained = true) (hp : s.prepare b.cmds = none) :
    s.prepareDone b = (s.bumpFwd 13 1).bakeFail b stNoResource dNone := by
  unfold State.prepareDone
  rw [if_neg (by simp [h]), hp]

theorem State.prepareDone_local (h : s.drained = true) (hp : s.prepare b.cmds = some u) (hd : b.domain = false) :
    s.prepareDone b = u.arm b := by
  unfold State.prepareDone
  rw [if_neg (by simp [h]), hp]
  exact if_neg (by simp [hd])

theorem State.soon_congr (h : u.time = s.time) : u.soon = s.soon := by
  unfold State.soon State.nowNs
  rw [h]

/-- A local set that has been prepared is ARMED. -/
theorem State.arm_prepared (hb : b ∈ s.bake.sets) (hp : s.prepare b.cmds = some u) (hd : b.domain = false) :
    (u.arm b).bake.set? b.id = some { (if b.now then b.setAt s.soon else b) with
      state := .armed, committed := (s.setRegions b.cmds).isNone } := by
  have hframe := State.prepare_frame (Touch.or_self _) .refl hp
  have hsets : u.bake.sets = s.bake.sets := (hframe.sets rfl).1
  unfold State.arm
  dsimp only
  rw [State.soon_congr (hframe.time rfl), State.setRegions_congr (hframe.regions rfl), hd]
  refine BakeSt.set?_updSet_const (hsets ▸ hb) ?_
  dsimp only
  split <;> rfl

end

/-! ### What is due at the instant (R415) -/

section

variable {s : State} {b : SetSt} {d : DomBake}

theorem State.domDue_of_none (h : s.bake.dom = none) : s.domDue = s := by
  unfold State.domDue
  rw [h]

theorem State.domDue_of_early (h : ∀ d, s.bake.dom = some d → s.nowNs < d.at') : s.domDue = s := by
  unfold State.domDue
  split
  case h_1 d hd => exact if_neg (fun k => absurd (h d hd) (Nat.not_lt.mpr k.1))
  case h_2 => rfl

theorem State.domDue_of_due (hd : s.bake.dom = some d) (hat : d.at' ≤ s.nowNs) (hset : s.bake.domSet d.id = none) :
    s.domDue = s.domFinish stOk dNone := by
  unfold State.domDue
  rw [hd]
  exact if_pos ⟨hat, by rw [hset]; rfl⟩

theorem State.domDue_sameBake (s : State) : s.SameBake s.domDue := (State.domDue_frame rfl .refl).sameBake

/-- A decided DOM_BAKE is over once it completes (R428). -/
theorem State.domFinish_dom (hd : s.bake.dom = some d) (hdec : d.decided = true) (st det : Nat) :
    (s.domFinish st det).bake.dom = none := by
  unfold State.domFinish
  rw [hd]
  dsimp only
  rw [if_pos hdec]
  unfold State.domEnd
  exact ((State.complete_frame (Touch.or_self _) .refl _ _ _).domBake rfl).1

theorem State.instant_of_armed (hb : s.bake.armed = some b) (hat : b.at' ≤ s.nowNs) : s.instant = (s.instantOf b).domDue := by
  unfold State.instant
  rw [hb]
  dsimp only
  rw [if_neg (Nat.not_lt.mpr hat)]

theorem State.instant_of_none (hb : s.bake.armed = none) : s.instant = s.domDue := by
  unfold State.instant
  rw [hb]

theorem State.instant_of_early (hb : ∀ b, s.bake.armed = some b → s.nowNs < b.at')
    (hd : ∀ d, s.bake.dom = some d → s.nowNs < d.at') : s.instant = s := by
  cases h : s.bake.armed with
  | none => rw [State.instant_of_none h, State.domDue_of_early hd]
  | some b =>
    unfold State.instant
    rw [h]
    dsimp only
    rw [if_pos (hb b h), State.domDue_of_early hd]

end

/-! ### The instant of one set (R417, R430) -/

/-- A set in doubt: T has come, and no GO (R430). -/
def State.doubting (s : State) (b : SetSt) : State :=
  { s with bake := s.bake.updSet b.id (fun x => { x with inDoubt := true }) }

theorem State.SameBake.doubting {s t : State} (h : s.SameBake t) (b : SetSt) : (s.doubting b).SameBake (t.doubting b) :=
  ⟨congrArg (List.map _) h.sets, h.epoch, h.fwd, h.prism, h.regions⟩

section

variable {s : State} {b : SetSt}

theorem State.skewCheck_sameBake (s : State) (b : SetSt) : s.SameBake (s.skewCheck b) :=
  (State.skewCheck_frame rfl .refl b).sameBake

theorem State.skewCheck_local (h : b.domain = false) : s.skewCheck b = s := by
  simp [State.skewCheck, State.raiseUpIf, h]

theorem State.skewCheck_inDoubt (h : b.inDoubt = true) : s.skewCheck b = s := by
  simp [State.skewCheck, State.raiseUpIf, h]

theorem State.instantOf_inDoubt (hd : b.domain = true) (hg : b.go = false) (hi : b.inDoubt = true) : s.instantOf b = s := by
  unfold State.instantOf
  dsimp only
  rw [if_pos ⟨hd, hg⟩, if_pos hi, State.skewCheck_inDoubt hi]

/-- A member without GO at T leaves its set ARMED and in doubt. -/
theorem State.instantOf_withoutGo (hd : b.domain = true) (hg : b.go = false) (hi : b.inDoubt = false) :
    (s.doubting b).SameBake (s.instantOf b) := by
  have htold : ((s.skewCheck b).doubting b).SameBake (s.instantOf b) := by
    unfold State.instantOf
    dsimp only
    rw [if_pos ⟨hd, hg⟩, if_neg (by simp [hi])]
    exact (State.raiseUp_frame rfl .refl _ _ _).sameBake
  exact ((s.skewCheck_sameBake b).doubting b).trans htold

/-- A local set that fails the region test is OPEN again (R29). -/
theorem State.instantOf_regionFail {l : List Nat} (hd : b.domain = false) (hl : s.setRegions b.cmds = some l)
    (ht : s.regionTest l = false) : (s.reopen b).SameBake (s.instantOf b) := by
  unfold State.instantOf
  dsimp only
  rw [State.skewCheck_local hd, if_neg (by simp [hd]), hl]
  dsimp only
  rw [if_neg (by simp [ht])]
  unfold State.regionFail
  dsimp only
  rw [if_neg (by simp [hd])]
  exact (State.answerSet_frame rfl (State.tellFailed_frame rfl .refl _ _ _) _ _).sameBake

theorem State.instantOf_bakes (hg : b.domain = true → b.go = true) (hl : s.setRegions b.cmds = none) :
    s.instantOf b = (s.skewCheck b).bakeOwn b := by
  unfold State.instantOf
  dsimp only
  rw [if_neg (fun k => by simp [hg k.1] at k), State.setRegions_congr (s.skewCheck_sameBake b).regions, hl]

end

/-! ### The switch of every block (R86, R108, R418) -/

/-- The classification epoch and the table generation. -/
def State.versions (s : State) : Nat × Nat := (s.prism.epoch, s.fwd.gen)

theorem Frame.versions_eq {w : Touch} {s t : State} (h : Frame w s t) (hp : w.prismBanks = false) (hg : w.gens = false) :
    t.versions = s.versions := by
  obtain ⟨-, -, hepoch, -⟩ := h.prismBanks hp
  obtain ⟨-, -, hgen, -⟩ := h.gens hg
  exact congrArg₂ Prod.mk hepoch hgen

section

variable {op : Nat} {r : BakeRule} {p : List Byte}

theorem ruleLow_versions (e : ruleLow op = some r) (hp : prismWrite ⟨op, p⟩ = false) (hg : genWrite ⟨op, p⟩ = false) (s : State) :
    (r.apply p s).versions = s.versions := by
  unfold ruleLow at e
  split at e
  case h_1 => cases e; exact (applyPortSetMode_frame (Touch.or_self _) .refl p).versions_eq rfl rfl
  case h_2 => cases e; exact (applyPortSetMac_frame (Touch.or_self _) .refl p).versions_eq rfl rfl
  case h_3 => cases e; exact (applyPortSetFlow_frame (Touch.or_self _) .refl p).versions_eq rfl rfl
  case h_4 => cases e; exact (applyPortSetThrottle_frame (Touch.or_self _) .refl p).versions_eq rfl rfl
  case h_5 => cases e; exact (applyPortSetEee_frame (Touch.or_self _) .refl p).versions_eq rfl rfl
  case h_6 => cases e; exact (applyLaneMap_frame (Touch.or_self _) .refl p).versions_eq rfl rfl
  case h_7 => cases e; exact (applyPortSetAdmin_frame (Touch.or_self _) .refl p).versions_eq rfl rfl
  case h_8 => cases e; exact (applyPortSetMargin_frame (Touch.or_self _) .refl p).versions_eq rfl rfl
  case h_21 => cases e; exact (applyFwdSetLearn_frame (Touch.or_self _) .refl p).versions_eq rfl rfl
  case h_22 => cases e; exact (applyFwdSetAging_frame (Touch.or_self _) .refl p).versions_eq rfl rfl
  case h_23 => cases e
  case h_9 | h_10 | h_11 | h_12 => simp [prismWrite] at hp
  all_goals simp [genWrite] at hg

theorem ruleHigh_versions (e : ruleHigh op = some r) (hg : genWrite ⟨op, p⟩ = false) (s : State) :
    (r.apply p s).versions = s.versions := by
  unfold ruleHigh at e
  split at e
  case h_1 => simp [genWrite] at hg
  case h_2 => cases e; exact (applyFrerSetPort_frame (Touch.or_self _) .refl p).versions_eq rfl rfl
  case h_3 => cases e; exact (applyFixSetCluster_frame (Touch.or_self _) .refl p).versions_eq rfl rfl
  case h_4 => cases e; exact (applyLeavenSetEvents_frame (Touch.or_self _) .refl p).versions_eq rfl rfl
  case h_5 => cases e; exact (applyProofSetClass_frame (Touch.or_self _) .refl p).versions_eq rfl rfl
  case h_6 => cases e; exact (applyProofSetTarget_frame (Touch.or_self _) .refl p).versions_eq rfl rfl
  case h_7 => cases e; exact (applyShelfSet_frame (Touch.or_self _) .refl p).versions_eq rfl rfl
  case h_8 => cases e; exact (applyShelfSetBus_frame (Touch.or_self _) .refl p).versions_eq rfl rfl
  case h_9 => cases e; exact (applyMemSetRegions_frame (Touch.or_self _) .refl p).versions_eq rfl rfl
  case h_10 => cases e; exact (applyDomSetPort_frame (Touch.or_self _) .refl p).versions_eq rfl rfl
  case h_11 => cases e; exact (applyDomAdmit_frame (Touch.or_self _) .refl p).versions_eq rfl rfl
  case h_12 => cases e; exact (applyTelSetMirror_frame (Touch.or_self _) .refl p).versions_eq rfl rfl
  case h_13 => cases e; exact (applyTelSetPortMirror_frame (Touch.or_self _) .refl p).versions_eq rfl rfl
  case h_14 => cases e; exact (applyPwrSetDroop_frame (Touch.or_self _) .refl p).versions_eq rfl rfl
  case h_15 => cases e; exact (applyPwrSetThermal_frame (Touch.or_self _) .refl p).versions_eq rfl rfl
  case h_16 => cases e; exact (State.parkNow_frame (Touch.or_self _) .refl _).versions_eq rfl rfl
  case h_17 => cases e

/-- A command that writes neither Prism state nor a table of the generation leaves both versions. -/
theorem stageRule_versions (e : stageRule op = some r) (hp : prismWrite ⟨op, p⟩ = false) (hg : genWrite ⟨op, p⟩ = false)
    (s : State) : (r.apply p s).versions = s.versions := by
  unfold stageRule at e
  split at e
  · exact ruleLow_versions e hp hg s
  · split at e
    · exact (ruleMid_frame e s p).versions_eq rfl rfl
    · exact ruleHigh_versions e hg s

end

theorem State.bakeCmd_versions (s : State) (c : StagedCmd) : (s.bakeCmd c).versions = s.versions := by
  unfold State.bakeCmd
  split
  · rfl
  · next hp =>
    split
    · exact (State.frerRewrite_frame (Touch.or_self _) .refl _ _).versions_eq rfl rfl
    · split
      · exact (State.nameFlow_frame (Touch.or_self _) .refl _ _).versions_eq rfl rfl
      · split
        · rfl
        · next hg =>
          split
          · next e => exact stageRule_versions e (by simpa using hp) (by simpa using hg) s
          · rfl

theorem State.versions_bumpPrism (s : State) (sl i n : Nat) : (s.bumpPrism sl i n).versions = s.versions := rfl

/-- The classification epoch advances with a Prism write, the generation flips with a write of a table of it. -/
theorem State.switchAll_versions (s : State) (l : List StagedCmd) :
    (s.switchAll l).prism.epoch = (if l.any prismWrite then (s.prism.epoch + 1) % 2 ^ 32 else s.prism.epoch)
      ∧ (s.switchAll l).fwd.gen = (if l.any genWrite then 1 - s.fwd.gen else s.fwd.gen) := by
  unfold State.switchAll
  dsimp only
  generalize hstart : (if l.any prismWrite then
    (List.range 16).foldl (fun t sl => t.bumpPrism sl 12 (b2n (!s.sliceParked sl))) s else s) = start
  have hcounted : start.versions = s.versions := by
    rw [← hstart]
    split
    · exact foldl_read State.versions (fun t sl _ => t.versions_bumpPrism sl 12 _) s
    · rfl
  have hrun := (foldl_read State.versions (fun t c _ => t.bakeCmd_versions c) start
    (l := (bakeOrder l).map (·.1))).trans hcounted
  obtain ⟨hepoch, hgen⟩ := Prod.mk.inj hrun
  constructor
  · split
    · rw [PrismSt.switch, hepoch]
    · exact hepoch
  · split
    · rw [FwdSt.flip, hgen]
    · exact hgen

/-! ### The bake of a set (R418) -/

/-- A set once it is BAKED. -/
def SetSt.asBaked (t : SetSt) : SetSt := { t with state := .baked, committed := true, inDoubt := false }

/-- The state once every block has switched to a set, before anything of it is told. -/
def State.switched (s : State) (b : SetSt) : State :=
  let t := State.switchAll { s with bake := s.bake.updSet b.id SetSt.asBaked } b.cmds
  { t with bake := { t.bake with epoch := if b.domain then b.domEpoch else nextEpoch s.bake.epoch,
                                 heldShadow := if b.restore then t.bake.heldShadow else none } }

section

variable {s : State} {b : SetSt}

theorem State.switched_set? (hb : b ∈ s.bake.sets) : ((s.switched b).bake.set? b.id).map (·.state) = some .baked := by
  have hsets : (s.switched b).bake.sets = (s.bake.updSet b.id SetSt.asBaked).sets :=
    ((State.switchAll_frame (Touch.or_self _) .refl b.cmds).sets rfl).1
  have hset : (s.switched b).bake.set? b.id = (s.bake.updSet b.id SetSt.asBaked).set? b.id := by
    unfold BakeSt.set?
    rw [hsets]
  obtain ⟨x, hx⟩ := BakeSt.exists_set?_of_mem hb
  rw [hset, BakeSt.set?_updSet (f := SetSt.asBaked) (fun _ h => h), hx]
  rfl

theorem State.switched_versions (s : State) (b : SetSt) :
    (s.switched b).prism.epoch = (if b.cmds.any prismWrite then (s.prism.epoch + 1) % 2 ^ 32 else s.prism.epoch)
      ∧ (s.switched b).fwd.gen = (if b.cmds.any genWrite then 1 - s.fwd.gen else s.fwd.gen) :=
  State.switchAll_versions _ b.cmds

theorem State.bakeSet_sameBake (s : State) (b : SetSt) : (s.switched b).SameBake (s.bakeSet b) :=
  (State.answerSet_frame rfl (State.raiseUpIf_frame rfl (State.raiseUp_frame rfl .refl _ _ _) _ _ _ _) _ _).sameBake

theorem State.bakeOwn_sameBake (s : State) (b : SetSt) : (s.switched b).SameBake (s.bakeOwn b) := by
  have hset := s.bakeSet_sameBake b
  unfold State.bakeOwn
  split
  · exact hset.trans (State.domFinish_frame rfl .refl stOk dNone).sameBake
  · exact hset

/-- The bake of the manager's own set completes the DOM_BAKE that has been decided. -/
theorem State.bakeOwn_dom {d : DomBake} (hb : b.domain = true) (hd : s.bake.dom = some d) (hdec : d.decided = true) :
    (s.bakeOwn b).bake.dom = none := by
  unfold State.bakeOwn
  rw [if_pos hb]
  exact State.domFinish_dom (((State.bakeSet_frame (Touch.or_self _) .refl b).domBake rfl).1.trans hd) hdec _ _

end

/-! ### O56 -/

section

variable {s : State} {b : SetSt}

theorem bakePreparation_idles (h : s.bake.preparing = none) : Idles .bakeDrainTimeout s ∧ Idles .bakePrepareDone s := by
  constructor
  · show execBakeDrainTimeout s = _
    unfold execBakeDrainTimeout
    rw [h]
  · show execBakePrepareDone s = _
    unfold execBakePrepareDone
    rw [h]

theorem bakeDrainTimeout_ends (hb : s.bake.preparing = some b) (hdr : s.drained = false) (hd : b.domain = false)
    (hr : b.restore = false) : Ends .bakeDrainTimeout s (fun t =>
      t.bake.set? b.id = some b.reopened ∧ t.fwd = s.fwd ∧ t.prism = s.prism ∧ t.bake.epoch = s.bake.epoch) := by
  refine ⟨_, bakeDrainTimeout_exec hb, ?_⟩
  rw [if_neg (by simp [hdr])]
  exact State.bakeFail_reopens hb hd hr _ _

theorem bakePrepareDone_ends_full (hb : s.bake.preparing = some b) (hdr : s.drained = true) (hp : s.prepare b.cmds = none)
    (hd : b.domain = false) (hr : b.restore = false) : Ends .bakePrepareDone s (fun t =>
      t.bake.set? b.id = some b.reopened ∧ Tab.get 0 t.fwd.ctr 13 = Tab.get 0 s.fwd.ctr 13 + 1
      ∧ t.prism = s.prism ∧ t.bake.epoch = s.bake.epoch) := by
  obtain ⟨hset, hfwd, hprism, hepoch⟩ := State.bakeFail_reopens (s := s.bumpFwd 13 1) hb hd hr stNoResource dNone
  refine ⟨_, bakePrepareDone_exec hb, ?_⟩
  rw [State.prepareDone_full hdr hp]
  refine ⟨hset, ?_, hprism, hepoch⟩
  rw [hfwd]
  exact (Tab.get_bump _ _ _ _).trans (if_pos rfl)

theorem bakePrepareDone_ends_armed {u : State} (hb : s.bake.preparing = some b) (hdr : s.drained = true)
    (hp : s.prepare b.cmds = some u) (hd : b.domain = false) : Ends .bakePrepareDone s (fun t =>
      t.bake.set? b.id = some { (if b.now then b.setAt s.soon else b) with
        state := .armed, committed := (s.setRegions b.cmds).isNone }
      ∧ t.fwd = u.fwd ∧ t.prism = u.prism ∧ t.bake.epoch = s.bake.epoch) := by
  obtain ⟨hmem, -⟩ := BakeSt.mem_of_preparing hb
  refine ⟨_, bakePrepareDone_exec hb, ?_⟩
  rw [State.prepareDone_local hdr hp hd]
  exact ⟨State.arm_prepared hmem hp hd, rfl, rfl, (State.prepare_frame (Touch.or_self _) .refl hp).epoch rfl⟩

theorem bakeInstant_exec (hb : s.bake.armed = some b) (hat : b.at' ≤ s.nowNs) :
    exec .bakeInstant s = .next (s.instantOf b).domDue :=
  congrArg Host.Outcome.next (State.instant_of_armed hb hat)

theorem bakeInstant_idles_inDoubt (hb : s.bake.armed = some b) (hat : b.at' ≤ s.nowNs) (hd : b.domain = true) (hg : b.go = false)
    (hi : b.inDoubt = true) (hdom : s.bake.dom = none) : Idles .bakeInstant s := by
  unfold Idles
  rw [bakeInstant_exec hb hat, State.instantOf_inDoubt hd hg hi, State.domDue_of_none hdom]

theorem bakeInstant_ends_withoutGo (hb : s.bake.armed = some b) (hat : b.at' ≤ s.nowNs) (hd : b.domain = true) (hg : b.go = false)
    (hi : b.inDoubt = false) : Ends .bakeInstant s (fun t =>
      t.bake.set? b.id = (s.bake.set? b.id).map (fun x => { x with inDoubt := true }) ∧ t.fwd = s.fwd ∧ t.prism = s.prism
      ∧ t.bake.epoch = s.bake.epoch) := by
  have hsame := (State.instantOf_withoutGo (s := s) hd hg hi).trans (State.domDue_sameBake _)
  exact ⟨_, bakeInstant_exec hb hat, (hsame.set?_eq b.id).trans (BakeSt.set?_updSet (fun _ h => h)), hsame.fwd, hsame.prism,
    hsame.epoch⟩

theorem bakeInstant_ends_regionFail {l : List Nat} (hb : s.bake.armed = some b) (hat : b.at' ≤ s.nowNs) (hd : b.domain = false)
    (hr : b.restore = false) (hl : s.setRegions b.cmds = some l) (ht : s.regionTest l = false) : Ends .bakeInstant s (fun t =>
      t.bake.set? b.id = some b.reopened ∧ (∀ i, t.regionSize i = s.regionSize i) ∧ t.bake.epoch = s.bake.epoch) := by
  obtain ⟨hmem, -⟩ := BakeSt.mem_of_armed hb
  have hsame := (State.instantOf_regionFail hd hl ht).trans (State.domDue_sameBake _)
  refine ⟨_, bakeInstant_exec hb hat, (hsame.set?_eq b.id).trans (State.reopen_set? hmem hr), fun i => ?_,
    hsame.epoch.trans (s.reopen_epoch b)⟩
  unfold State.regionSize
  rw [hsame.regions.trans (s.reopen_regions b)]

theorem bakeInstant_ends_baked (hb : s.bake.armed = some b) (hat : b.at' ≤ s.nowNs) (hg : b.domain = true → b.go = true)
    (hl : s.setRegions b.cmds = none) : Ends .bakeInstant s (fun t =>
      (t.bake.set? b.id).map (·.state) = some .baked
      ∧ (b.domain = true → ∀ d, s.bake.dom = some d → d.decided = true → t.bake.dom = none)
      ∧ t.bake.epoch = (if b.domain then b.domEpoch else nextEpoch s.bake.epoch)
      ∧ (b.cmds.any genWrite = false → t.fwd.gen = s.fwd.gen) ∧ (b.cmds.any genWrite = true → t.fwd.gen = 1 - s.fwd.gen)
      ∧ (b.cmds.any prismWrite = false → t.prism.epoch = s.prism.epoch)
      ∧ (b.cmds.any prismWrite = true → t.prism.epoch = (s.prism.epoch + 1) % 2 ^ 32)) := by
  obtain ⟨hmem, -⟩ := BakeSt.mem_of_armed hb
  have hskew := s.skewCheck_sameBake b
  have hdom : (s.skewCheck b).bake.dom = s.bake.dom := ((State.skewCheck_frame (Touch.or_self _) .refl b).domBake rfl).1
  have hsame := ((s.skewCheck b).bakeOwn_sameBake b).trans (State.domDue_sameBake _)
  obtain ⟨hepoch, hgen⟩ := (s.skewCheck b).switched_versions b
  rw [← hsame.prism, hskew.prism] at hepoch
  rw [← hsame.fwd, hskew.fwd] at hgen
  refine ⟨_, bakeInstant_exec hb hat, ?_⟩
  rw [State.instantOf_bakes hg hl]
  refine ⟨?_, fun hd d hsome hdec => ?_, ?_, fun h => ?_, fun h => ?_, fun h => ?_, fun h => ?_⟩
  · rw [hsame.set?_eq]
    exact State.switched_set? (hskew.sets ▸ hmem)
  · have hover := State.bakeOwn_dom hd (hdom.trans hsome) hdec
    rwa [State.domDue_of_none hover]
  · rw [hsame.epoch, ← hskew.epoch]
    rfl
  · rw [hgen, if_neg (by simp [h])]
  · rw [hgen, if_pos h]
  · rw [hepoch, if_neg (by simp [h])]
  · rw [hepoch, if_pos h]

theorem bakeInstant_ends_dom {d : DomBake} (hb : s.bake.armed = none) (hd : s.bake.dom = some d) (hat : d.at' ≤ s.nowNs)
    (hdec : d.decided = true) (hset : s.bake.domSet d.id = none) :
    Ends .bakeInstant s (fun t => t.bake.dom = none ∧ t.bake.sets = s.bake.sets ∧ t.bake.epoch = s.bake.epoch) := by
  have hend : exec .bakeInstant s = .next (s.domFinish stOk dNone) :=
    congrArg Host.Outcome.next ((State.instant_of_none hb).trans (State.domDue_of_due hd hat hset))
  have hsame := (State.domFinish_frame rfl (.refl (s := s)) stOk dNone).sameBake
  exact ⟨_, hend, State.domFinish_dom hd hdec _ _, hsame.sets, hsame.epoch⟩

end

/-- Settles O56: a preparation ends by `prepareDone` or `bakeFail`; the instant acts on the ARMED set, and then on a DOM_BAKE that is
due, and what each of them tells of its outcome leaves sets, tables, banks and epoch alone. -/
theorem bakeRows : Obligations.BakeRows := by
  unfold Obligations.BakeRows
  refine ⟨fun s h => bakePreparation_idles h, fun s b hb => ⟨fun hdr => ?_, fun hdr => ?_, ?_, ?_, ?_⟩, fun s hb hd => ?_,
    fun s b hb hat => ⟨?_, ?_, ?_, ?_⟩, fun s d hb hd hat hdec hset => bakeInstant_ends_dom hb hd hat hdec hset⟩
  · exact (bakeDrainTimeout_exec hb).trans (by rw [if_pos hdr])
  · exact (bakePrepareDone_exec hb).trans (by rw [State.prepareDone_undrained hdr])
  · exact fun hdr hd hr => bakeDrainTimeout_ends hb hdr hd hr
  · exact fun hdr hp hd hr => bakePrepareDone_ends_full hb hdr hp hd hr
  · exact fun u hdr hp hd => bakePrepareDone_ends_armed hb hdr hp hd
  · exact congrArg Host.Outcome.next (State.instant_of_early hb hd)
  · exact fun hd hg hi hdom => bakeInstant_idles_inDoubt hb hat hd hg hi hdom
  · exact fun hd hg hi => bakeInstant_ends_withoutGo hb hat hd hg hi
  · exact fun l hd hr hl ht => bakeInstant_ends_regionFail hb hat hd hr hl ht
  · exact fun hg hl => bakeInstant_ends_baked hb hat hg hl

end Sys2Proof.Machine
end

section
/-! PROOF. The exact-match table by its places (R96 to R107): what a change, an insert, a removal and the drain of the stash leave
at each place, of the learned counts and of the counters. -/

namespace Sys2Proof.Machine

/-! ### Places -/

theorem Tab.find_map_at {α : Type} (g : α → α) (p j : Nat) (t : Tab α) :
    Tab.find (t.map (fun x => if x.1 = p then (x.1, g x.2) else x)) j
      = if p = j then (Tab.find t j).map g else Tab.find t j := by
  induction t with
  | nil => simp [Tab.find]
  | cons x r ih =>
    obtain ⟨k, v⟩ := x
    have hkey : (if k = p then (k, g v) else (k, v)) = (k, if k = p then g v else v) := by split <;> rfl
    rw [List.map_cons, hkey]
    simp only [Tab.find, ih]
    by_cases hj : k = j
    · subst hj
      by_cases hp : k = p
      · simp [hp]
      · simp [hp, Ne.symm hp]
    · rw [if_neg hj, if_neg hj]

/-- The first of the places `l` whose entry passes a test holds that entry. -/
theorem find_of_firstPlace {t : Tab EmEntry} {c : Nat → EmEntry → Prop} [∀ q e, Decidable (c q e)] {l : List Nat} {q : Nat}
    {e : EmEntry}
    (h : (l.filterMap (fun p => (Tab.find t p).bind (fun e => if c p e then some (p, e) else none))).head? = some (q, e)) :
    Tab.find t q = some e := by
  obtain ⟨p, -, hp⟩ := List.mem_filterMap.mp (List.mem_of_head? h)
  obtain ⟨e', he', htest⟩ := Option.bind_eq_some_iff.mp hp
  split at htest
  · cases htest; exact he'
  · cases htest

theorem find_of_emAt {t : Tab EmEntry} {p q : Nat} {e : EmEntry} (h : emAt t p = some (q, e)) : Tab.find t q = some e :=
  find_of_firstPlace (c := fun q e => p < q + emWidth e.ktype) h

section

variable {f g : FwdSt} {p q j : Nat} {e : EmEntry}

theorem FwdSt.find_of_entryOf {kt n : Nat} {key : List Byte} (h : f.entryOf kt key n = some (q, e)) :
    Tab.find f.em q = some e :=
  find_of_firstPlace (c := fun _ e => e.hits kt key n = true) h

theorem FwdSt.find_updEntry (f : FwdSt) (p j : Nat) (h : EmEntry → EmEntry) :
    Tab.find (f.updEntry p h).em j = if p = j then (Tab.find f.em j).map h else Tab.find f.em j :=
  Tab.find_map_at h p j f.em

/-- The entry at a place is changed. -/
theorem FwdSt.find_updEntry_same (h : EmEntry → EmEntry) (he : Tab.find f.em q = some e) :
    Tab.find (f.updEntry q h).em q = some (h e) := by
  rw [FwdSt.find_updEntry, if_pos rfl, he]
  rfl

/-! ### Removal -/

theorem FwdSt.removeAt_eq (he : Tab.find f.em q = some e) :
    f.removeAt q = if e.learned then { f with em := Tab.erase q f.em }.learnedAdd e.owner (-1)
      else { f with em := Tab.erase q f.em } := by
  unfold FwdSt.removeAt
  rw [he]

theorem FwdSt.find_removeAt_same (f : FwdSt) (q : Nat) : Tab.find (f.removeAt q).em q = none := by
  cases he : Tab.find f.em q with
  | none => rwa [show f.removeAt q = f by unfold FwdSt.removeAt; rw [he]]
  | some e =>
    have herase : Tab.find (Tab.erase q f.em) q = none := by rw [Tab.find_erase, if_pos rfl]
    rw [FwdSt.removeAt_eq he]
    split <;> exact herase

@[simp] theorem FwdSt.removeAt_ctr (f : FwdSt) (q : Nat) : (f.removeAt q).ctr = f.ctr := by
  unfold FwdSt.removeAt
  split
  · rfl
  · dsimp only
    split <;> rfl

theorem FwdSt.learnedCount_learnedAdd (f : FwdSt) (port : Nat) (n : Int) :
    (f.learnedAdd port n).learnedCount port = ((f.learnedCount port : Int) + n).toNat :=
  Tab.get_upd_same 0 f.learnedOn port (fun c => ((c : Int) + n).toNat)

/-- A learned entry that goes gives its count back to its port. -/
theorem FwdSt.learnedCount_removeAt (he : Tab.find f.em q = some e) (hl : e.learned = true) :
    (f.removeAt q).learnedCount e.owner = f.learnedCount e.owner - 1 := by
  rw [FwdSt.removeAt_eq he, if_pos hl, FwdSt.learnedCount_learnedAdd]
  show ((f.learnedCount e.owner : Int) + -1).toNat = _
  omega

/-! ### The drain of the stash (R107) -/

/-- An entry of the stash moves, and counts as a relocation, or stays. -/
theorem FwdSt.drainOne_cases (f : FwdSt) (p : Nat) (e : EmEntry) :
    f.drainOne p e = f ∨ ∃ q, f.drainOne p e = { f with em := emMove f.em p q e, ctr := Tab.bump f.ctr 11 1 } := by
  unfold FwdSt.drainOne
  split
  · exact .inr ⟨_, rfl⟩
  · split
    · exact .inr ⟨_, rfl⟩
    · exact .inl rfl

@[simp] theorem FwdSt.drainStash_learnedOn (f : FwdSt) : f.drainStash.learnedOn = f.learnedOn := by
  unfold FwdSt.drainStash
  refine List.foldlRecOn (motive := fun g : FwdSt => g.learnedOn = f.learnedOn) _ _ rfl (fun g hg x _ => ?_)
  rcases g.drainOne_cases x.1 x.2 with h | ⟨q, h⟩ <;> rw [h] <;> exact hg

/-- Only the count of relocations moves. -/
theorem FwdSt.get_drainStash_ctr (f : FwdSt) {i : Nat} (hi : i ≠ 11) :
    Tab.get 0 f.drainStash.ctr i = Tab.get 0 f.ctr i := by
  unfold FwdSt.drainStash
  refine List.foldlRecOn (motive := fun g : FwdSt => Tab.get 0 g.ctr i = Tab.get 0 f.ctr i) _ _ rfl (fun g hg x _ => ?_)
  rcases g.drainOne_cases x.1 x.2 with h | ⟨q, h⟩
  · rw [h, hg]
  · rw [h, ← hg]
    exact (Tab.get_bump _ _ _ _).trans (if_neg (Ne.symm hi))

theorem mem_emMove {t : Tab EmEntry} {x : Nat × EmEntry} (h : x ∈ emMove t p q e) : x.2 = e ∨ x ∈ t := by
  rcases Tab.mem_insert h with rfl | h
  · exact .inl rfl
  · exact .inr (List.mem_of_mem_filter h)

/-- What holds of every entry, wherever it lies, holds of every entry after the drain. -/
theorem FwdSt.drainStash_forall {P : EmEntry → Prop} (h : ∀ x ∈ f.em, P x.2) : ∀ x ∈ f.drainStash.em, P x.2 := by
  unfold FwdSt.drainStash
  refine List.foldlRecOn (motive := fun g : FwdSt => ∀ x ∈ g.em, P x.2) _ _ h (fun g hg y hy => ?_)
  have hP : P y.2 := h y (List.mem_of_mem_filter hy)
  rcases g.drainOne_cases y.1 y.2 with hstay | ⟨q, hmove⟩
  · rwa [hstay]
  · rw [hmove]
    intro x hx
    rcases mem_emMove hx with hx | hx
    · rwa [hx]
    · exact hg x hx

/-! ### Inserting (R103) -/

/-- Wherever room is found, the entry is put there last. -/
theorem FwdSt.place_inserts {pl : Placed} (h : f.place e = some pl) : ∃ t, pl.t = Tab.insert pl.place e t := by
  unfold FwdSt.place at h
  split at h
  · cases h
    exact ⟨_, rfl⟩
  · obtain ⟨p, -, hp⟩ := Option.map_eq_some_iff.mp h
    cases hp
    exact ⟨_, rfl⟩

/-- An insert changes the table and the counts of relocations and of stash inserts. -/
theorem FwdSt.insertEntry_eq {pl : Placed} (h : f.insertEntry e = some (g, pl)) :
    f.place e = some pl
      ∧ g = { f with em := pl.t, ctr := Tab.bump (Tab.bump f.ctr 11 pl.moves) 12 (if stashBase ≤ pl.place then 1 else 0) } := by
  obtain ⟨x, hx, hg⟩ := Option.map_eq_some_iff.mp h
  cases hg
  exact ⟨hx, rfl⟩

theorem FwdSt.find_insertEntry {pl : Placed} (h : f.insertEntry e = some (g, pl)) : Tab.find g.em pl.place = some e := by
  obtain ⟨hplace, rfl⟩ := FwdSt.insertEntry_eq h
  obtain ⟨t, ht⟩ := FwdSt.place_inserts hplace
  show Tab.find pl.t pl.place = some e
  rw [ht, Tab.find_insert, if_pos rfl]

theorem FwdSt.insertEntry_learnedOn {pl : Placed} (h : f.insertEntry e = some (g, pl)) : g.learnedOn = f.learnedOn := by
  obtain ⟨-, rfl⟩ := FwdSt.insertEntry_eq h
  rfl

theorem FwdSt.get_insertEntry_ctr {pl : Placed} (h : f.insertEntry e = some (g, pl)) {i : Nat} (h11 : i ≠ 11) (h12 : i ≠ 12) :
    Tab.get 0 g.ctr i = Tab.get 0 f.ctr i := by
  obtain ⟨-, rfl⟩ := FwdSt.insertEntry_eq h
  exact (Tab.get_bump _ _ _ _).trans ((if_neg (Ne.symm h12)).trans ((Tab.get_bump _ _ _ _).trans (if_neg (Ne.symm h11))))

/-- Where an entry finds room does not depend on the learn queues. -/
theorem FwdSt.place_learnQ (f : FwdSt) (l : Tab (List LearnEv)) (e : EmEntry) : { f with learnQ := l }.place e = f.place e := rfl

theorem FwdSt.insertEntry_learnQ {pl : Placed} (h : f.insertEntry e = some (g, pl)) (l : Tab (List LearnEv)) :
    { f with learnQ := l }.insertEntry e = some ({ g with learnQ := l }, pl) := by
  obtain ⟨hplace, rfl⟩ := FwdSt.insertEntry_eq h
  unfold FwdSt.insertEntry
  rw [FwdSt.place_learnQ, hplace]
  rfl

end

end Sys2Proof.Machine
end

section
/-! PROOF. The forwarding tables held once per generation (R108 to R121): a live write reaches the copy in force, and the other
copy unless an armed set writes the item, and in each copy the entry that it names and no other. -/

namespace Sys2Proof.Machine

/-! ### The two copies (R113) -/

section

variable (f : FwdSt) (n : Nat) (h : GenTables → GenTables)

@[simp] theorem FwdSt.tables_updGen_same : (f.updGen n h).tables n = h (f.tables n) := by
  unfold FwdSt.updGen FwdSt.tables
  split <;> rfl

/-- A change of one copy leaves the other. -/
@[simp] theorem FwdSt.tables_updGen_next : (f.updGen n h).tables (n + 1) = f.tables (n + 1) := by
  unfold FwdSt.updGen FwdSt.tables
  rcases Nat.mod_two_eq_zero_or_one n with hn | hn
  · simp [hn, show (n + 1) % 2 = 1 by omega]
  · simp [hn, show (n + 1) % 2 = 0 by omega]

@[simp] theorem FwdSt.tables_updBoth : (f.updBoth h).tables n = h (f.tables n) := by
  unfold FwdSt.updBoth FwdSt.tables
  split <;> rfl

end

/-- A live change of the generation's tables is a write of them (R111, R113). -/
theorem State.liveGen_written {op : Nat} {p : List Byte} {h : GenTables → GenTables} {ok : GenTables → GenTables → Prop}
    (hok : ∀ a, ok a (h a)) (s : State) : GenWritten op p s (s.liveGen op p h) ok := by
  unfold GenWritten State.liveGen
  split
  · exact ⟨by simpa using hok _, by simp⟩
  · exact ⟨by simpa using hok _, by simpa using hok _⟩

/-- Of the state before a write the tables and the armed set count, of the state after it the tables. -/
theorem GenWritten.congr {op : Nat} {p : List Byte} {s s' t t' : State} {ok : GenTables → GenTables → Prop}
    (h : GenWritten op p s' t' ok) (hs : s'.fwd = s.fwd) (hb : s'.bake = s.bake) (ht : t.fwd = t'.fwd) :
    GenWritten op p s t ok := by
  unfold GenWritten at h ⊢
  rwa [hs, hb, ← ht] at h

section

variable {s u : State} {op : Nat} {p : List Byte}

theorem fwd_of_mailed (h : u = s.mailed u) : u.fwd = s.fwd := (congrArg State.fwd h).trans rfl

theorem bake_of_mailed (h : u = s.mailed u) : u.bake = s.bake := (congrArg State.bake h).trans rfl

theorem fwd_of_written (h : u = (s.shadow op p).mailed u) : u.fwd = s.fwd := (congrArg State.fwd h).trans rfl

end

/-- A configuration write that is a live change of the generation's tables is carried out as one. -/
theorem carried_liveGen {op : Nat} {i : Req → Instr} {check : List Byte → State → Option (Nat × Nat)}
    {put : List Byte → GenTables → GenTables} {ok : List Byte → GenTables → GenTables → Prop}
    (he : ∀ r s, exec (i r) s = mailboxCommand op (setCmd op check (fun p s => s.liveGen op p (put p))) r s)
    (hc : ∀ p s u, u.fwd = s.fwd → check p u = check p s) (hok : ∀ p a, ok p a (put p a)) :
    Carried op i (fun p s => check p s = none) (fun p s t => GenWritten op p s t (ok p)) :=
  carried_of he (fun p s u hu h => (hc p s u (fwd_of_mailed hu)).trans h)
    (fun p _ => (State.liveGen_frame (Touch.or_self _) .refl op p (put p)).mbx rfl)
    (fun p _ u _ hu ht _ =>
      (u.liveGen_written (hok p)).congr (fwd_of_mailed hu) (bake_of_mailed hu) (fwd_of_written ht))

/-! ### One entry of a table -/

/-- A table that differs at one entry alone. -/
theorem written_at {β : Type} {f f' : Nat → β} {k : Nat} {v : β} (h : ∀ n, f' n = if k = n then v else f n) :
    f' k = v ∧ ∀ n, n ≠ k → f' n = f n :=
  ⟨(h k).trans (if_pos rfl), fun n hn => (h n).trans (if_neg (Ne.symm hn))⟩

section

variable (p : List Byte) (g : GenTables) (n : Nat)

theorem GenTables.vlanAt_putVlan : (g.putVlan p).vlanAt n = if rd p 0 2 = n then vlanOf p else g.vlanAt n :=
  Tab.get_set _ _ _ _ _

theorem GenTables.hopAt_putHop : (g.putHop p).hopAt n = if rd p 0 4 = n then hopOf p else g.hopAt n :=
  Tab.get_set _ _ _ _ _

theorem GenTables.groupAt_putEcmp : (g.putEcmp p).groupAt n = if rd p 0 2 = n then ecmpOf p else g.groupAt n :=
  Tab.get_set _ _ _ _ _

theorem GenTables.tmplAt_putTemplate : (g.putTemplate p).tmplAt n = if rd p 0 2 = n then templateOf p else g.tmplAt n :=
  Tab.get_set _ _ _ _ _

theorem GenTables.routerAt_putRouter : (g.putRouter p).routerAt n
    = if rd p 1 1 = 0 ∧ n = rd p 0 1 then ⟨rd p 2 1 == 1, rd p 3 1, rdBe p 4 6⟩ else g.routerAt n := by
  unfold GenTables.putRouter
  by_cases hk : rd p 1 1 = 0
  · rw [if_pos hk]
    exact (Tab.get_set _ _ _ _ _).trans (if_congr (by simp [hk, eq_comm]) rfl rfl)
  · rw [if_neg hk, if_neg (fun h => hk h.1)]
    rfl

theorem GenTables.vtepAt_putRouter : (g.putRouter p).vtepAt n
    = if rd p 1 1 ≠ 0 ∧ n = rd p 0 1 then ⟨rd p 2 1 == 1, rd p 3 1, rd p 10 1, slice p 12 16⟩ else g.vtepAt n := by
  unfold GenTables.putRouter
  by_cases hk : rd p 1 1 = 0
  · rw [if_pos hk, if_neg (fun h => h.1 hk)]
    rfl
  · rw [if_neg hk]
    exact (Tab.get_set _ _ _ _ _).trans (if_congr (by simp [hk, eq_comm]) rfl rfl)

/-- What FWD_SET_ROUTE leaves in the LPM table: the route it names by its action, every other as before (R118). -/
theorem GenTables.mem_putRoute {x : Prefix} : x ∈ (g.putRoute p).lpm ↔
    (x ∈ g.lpm ∧ x.same (prefixOf p).fam (prefixOf p).vrf (prefixOf p).plen (prefixOf p).addr = false)
      ∨ (rd p 4 1 ≠ 1 ∧ x = prefixOf p) := by
  unfold GenTables.putRoute
  dsimp only
  split
  · next h => simp [h]
  · next h => simp [h]

theorem Prefix.same_self (q : Prefix) : q.same q.fam q.vrf q.plen q.addr = true := by simp [Prefix.same]

theorem GenTables.hasPrefix_putRoute (h : rd p 4 1 = 1) : (g.putRoute p).hasPrefix (prefixOf p) = false := by
  unfold GenTables.hasPrefix
  rw [List.any_eq_false]
  intro x hx
  rcases (g.mem_putRoute p).mp hx with ⟨-, hother⟩ | ⟨hadd, -⟩
  · simp [hother]
  · exact absurd h hadd

theorem GenTables.putRoute_written : (rd p 4 1 = 0 → prefixOf p ∈ (g.putRoute p).lpm)
    ∧ (rd p 4 1 = 1 → (g.putRoute p).hasPrefix (prefixOf p) = false)
    ∧ ∀ x : Prefix, x.same (prefixOf p).fam (prefixOf p).vrf (prefixOf p).plen (prefixOf p).addr = false →
      (x ∈ (g.putRoute p).lpm ↔ x ∈ g.lpm) := by
  refine ⟨fun h => (g.mem_putRoute p).mpr (.inr ⟨by omega, rfl⟩), g.hasPrefix_putRoute p, fun x hx => ?_⟩
  have hne : x ≠ prefixOf p := by
    rintro rfl
    rw [Prefix.same_self] at hx
    cases hx
  rw [g.mem_putRoute p]
  simp [hx, hne]

end

/-! ### O21 -/

theorem checkFwdSetLearn_none {p : List Byte} {s : State} (hp : s.portActive (rd p 0 2) = true) (h1 : rd p 2 1 ≤ 1)
    (hl : rd p 2 1 = 0 ∨ rd p 3 1 ≤ 1 ∧ rd p 4 4 ≤ 2097152) : checkFwdSetLearn p s = none := by
  simp [checkFwdSetLearn, need, hp, h1, hl]

theorem fwdSetLearn_carried : Carried 0x040A .fwdSetLearn (fun p s => s.portActive (rd p 0 2) = true ∧ rd p 2 1 ≤ 1
      ∧ (rd p 2 1 = 0 ∨ rd p 3 1 ≤ 1 ∧ rd p 4 4 ≤ 2097152))
    (fun p s t => (t.port (rd p 0 2)).learnOn = (rd p 2 1 == 1) ∧ (t.port (rd p 0 2)).learnFwd = (rd p 3 1 == 1)
      ∧ (t.port (rd p 0 2)).learnLimit = rd p 4 4 ∧ ∀ m, m ≠ rd p 0 2 → t.port m = s.port m) := by
  refine carried_of (fun _ _ => rfl) (fun p s u hu ⟨hp, h1, hl⟩ => checkFwdSetLearn_none (by rw [hu]; exact hp) h1 hl)
    (fun p s => rfl) (fun p s u t hu ht _ => ?_)
  rw [State.port_of_written ht, ← State.port_of_mailed hu]
  unfold applyFwdSetLearn
  rw [State.port_updPort_same]
  exact ⟨rfl, rfl, rfl, fun m hm => by rw [State.port_updPort, if_neg (Ne.symm hm)]⟩

theorem fwdSetAging_carried :
    Carried 0x040B .fwdSetAging (fun p _ => rd p 0 4 ≤ 1000000) (fun p _ t => t.fwd.agePeriod = rd p 0 4) :=
  carried_of (fun _ _ => rfl) (fun _ _ _ _ hok => need_eq_none.mpr (decide_eq_true hok)) (fun _ _ => rfl)
    (fun _ _ _ _ _ ht _ => congrArg FwdSt.agePeriod (fwd_of_written ht))

/-- Settles O21: each table write is one live change of the generation's tables, which changes one entry of a copy, and each read
answers from tables that mail does not move. -/
theorem forwardingTables : Obligations.ForwardingTables := by
  unfold Obligations.ForwardingTables
  refine ⟨?vlan, ?route, ?nexthop, ?ecmp, ?template, ?router, fwdSetLearn_carried, fwdSetAging_carried, ?counters, ?occupancy⟩
  case vlan =>
    exact carried_liveGen (fun _ _ => rfl) (fun _ _ _ _ => rfl) (fun p a => written_at (a.vlanAt_putVlan p))
  case route =>
    exact carried_liveGen (fun _ _ => rfl) (fun _ _ _ h => by unfold checkFwdSetRoute; rw [h])
      (fun p a => a.putRoute_written p)
  case nexthop =>
    exact carried_liveGen (fun _ _ => rfl) (fun _ _ _ _ => rfl) (fun p a => written_at (a.hopAt_putHop p))
  case ecmp =>
    exact carried_liveGen (fun _ _ => rfl) (fun _ _ _ h => by unfold checkFwdSetEcmp; rw [h])
      (fun p a => written_at (a.groupAt_putEcmp p))
  case template =>
    exact carried_liveGen (fun _ _ => rfl) (fun _ _ _ _ => rfl) (fun p a => written_at (a.tmplAt_putTemplate p))
  case router =>
    exact carried_liveGen (fun _ _ => rfl) (fun _ _ _ _ => rfl) (fun p a => ⟨a.routerAt_putRouter p, a.vtepAt_putRouter p⟩)
  case counters =>
    refine answered_of (body := fwdGetCountersBody) (fun _ _ => rfl) (fun r s u _ _ hu _ => ?_)
    simp [fwdGetCountersBody, readCmd, fwd_of_mailed hu]
  case occupancy =>
    refine answered_of (body := fwdGetOccupancyBody) (fun _ _ => rfl) (fun r s u _ _ hu _ => ?_)
    simp [fwdGetOccupancyBody, readCmd, fwd_of_mailed hu]

end Sys2Proof.Machine
end

section
/-! PROOF. The commands on entries of the exact-match table (R103 to R107, R111, R128): a live insert replaces, places or fails; a
delete and a flush remove and let the stash drain. -/

namespace Sys2Proof.Machine

/-! ### A live insert (R103, R104) -/

theorem State.nameFlow_fwd (s : State) (kt : Nat) (w : BitVec 64) : (s.nameFlow kt w).fwd = s.fwd := by
  unfold State.nameFlow
  split <;> rfl

section

variable {s u : State} {i : InsReq} {q : Nat} {e : EmEntry}

/-- What a request leaves of an entry that is there. -/
def InsReq.over (i : InsReq) (e : EmEntry) : EmEntry :=
  { e with data := i.data, isStatic := i.isStatic, age := i.age, shadow := true }

theorem State.liveInsert_replaces (h : s.fwd.entryOf i.kt i.key s.fwd.gen = some (q, e)) :
    (s.liveInsert i).2 = Resp.ok (insResp q 0) ∧ (s.liveInsert i).1.fwd = s.fwd.updEntry q i.over := by
  unfold State.liveInsert
  rw [h]
  exact ⟨rfl, State.nameFlow_fwd _ _ _⟩

theorem State.liveInsert_places {f : FwdSt} {pl : Placed} (h : s.fwd.entryOf i.kt i.key s.fwd.gen = none)
    (hroom : s.fwd.insertEntry (i.entry (s.liveVis i.kt i.key)) = some (f, pl)) :
    (s.liveInsert i).2 = Resp.ok (insResp pl.place pl.moves) ∧ (s.liveInsert i).1.fwd = f := by
  unfold State.liveInsert
  rw [h]
  dsimp only
  rw [hroom]
  exact ⟨rfl, State.nameFlow_fwd _ _ _⟩

theorem State.liveInsert_fails (h : s.fwd.entryOf i.kt i.key s.fwd.gen = none)
    (hroom : s.fwd.insertEntry (i.entry (s.liveVis i.kt i.key)) = none) :
    s.liveInsert i = (s.bumpFwd 13 1, Resp.err stNoResource dNone) := by
  unfold State.liveInsert
  rw [h]
  dsimp only
  rw [hroom]
  rfl

theorem State.liveVis_congr (hf : u.fwd = s.fwd) (hb : u.bake = s.bake) (kt : Nat) (key : List Byte) :
    u.liveVis kt key = s.liveVis kt key := by
  unfold State.liveVis State.armedKey
  rw [hf, hb]

theorem checkFwdInsert_congr (hf : u.fwd = s.fwd) (p : List Byte) : checkFwdInsert p u = checkFwdInsert p s := by
  unfold checkFwdInsert checkInsert
  rw [hf]

theorem checkFwdDelete_congr (hf : u.fwd = s.fwd) (p : List Byte) : checkFwdDelete p u = checkFwdDelete p s := by
  unfold checkFwdDelete
  rw [hf]

theorem applyFwdDelete_eq {p : List Byte} (h : s.fwd.entryOf (rd p 0 1) (slice p 4 48) s.fwd.gen = some (q, e)) :
    applyFwdDelete p s = { s with fwd := (s.fwd.removeAt q).drainStash } := by
  unfold applyFwdDelete
  rw [h]

end

/-! ### O20 -/

/-- A live FWD_INSERT that passes its checks answers and leaves what `State.liveInsert` does, at a state whose tables and staged
sets are those of the state before. -/
theorem fwdInsert_answers {r : Req} {s : State} (hf : s.fresh 0x0401 r) (hs : r.stage = false)
    (hc : checkFwdInsert r.payload s = none) : ∃ u t : State, u.fwd = s.fwd ∧ u.bake = s.bake ∧ exec (.fwdInsert r) s = .next t
      ∧ t.delivered 0x0401 r (u.liveInsert (insOf r.payload)).2 ∧ t.fwd = (u.liveInsert (insOf r.payload)).1.fwd := by
  have hu := begun_mbx hf
  have hfwd := fwd_of_mailed hu
  have hbody : fwdInsertBody r (s.begun 0x0401 r) = (((s.begun 0x0401 r).liveInsert (insOf r.payload)).1.dropHeld,
      some ((s.begun 0x0401 r).liveInsert (insOf r.payload)).2) := by
    unfold fwdInsertBody
    rw [if_neg (by simp [hs]), (checkFwdInsert_congr hfwd _).trans hc]
  obtain ⟨t, hend, hresp, hmail, -⟩ := fresh_answered hf hbody
    ((State.liveInsert_frame (Touch.or_self _) .refl (insOf r.payload)).mbx rfl)
  exact ⟨_, t, hfwd, bake_of_mailed hu, hend, hresp, hmail.fwd⟩

section

variable {r : Req} {s : State} (hf : s.fresh 0x0401 r) (hs : r.stage = false) (hc : checkFwdInsert r.payload s = none)

include hf hs hc

theorem fwdInsert_replaces {q : Nat} {e : EmEntry}
    (h : s.fwd.entryOf (insOf r.payload).kt (insOf r.payload).key s.fwd.gen = some (q, e)) :
    Ends (.fwdInsert r) s (fun t => t.delivered 0x0401 r (Resp.ok (insResp q 0))
      ∧ Tab.find t.fwd.em q = some ((insOf r.payload).over e) ∧ ∀ n, n ≠ q → Tab.find t.fwd.em n = Tab.find s.fwd.em n) := by
  obtain ⟨u, t, hfwd, -, hend, hresp, hleft⟩ := fwdInsert_answers hf hs hc
  rw [← hfwd] at h
  obtain ⟨hanswer, hwritten⟩ := State.liveInsert_replaces h
  rw [hanswer] at hresp
  rw [hwritten] at hleft
  refine ⟨t, hend, hresp, ?_, fun n hn => ?_⟩
  · rw [hleft]
    exact FwdSt.find_updEntry_same _ (FwdSt.find_of_entryOf h)
  · rw [hleft, FwdSt.find_updEntry, if_neg (Ne.symm hn), hfwd]

theorem fwdInsert_places (h : s.fwd.entryOf (insOf r.payload).kt (insOf r.payload).key s.fwd.gen = none) {f : FwdSt}
    {pl : Placed}
    (hroom : s.fwd.insertEntry ((insOf r.payload).entry (s.liveVis (insOf r.payload).kt (insOf r.payload).key)) = some (f, pl)) :
    Ends (.fwdInsert r) s (fun t => t.delivered 0x0401 r (Resp.ok (insResp pl.place pl.moves))
      ∧ Tab.find t.fwd.em pl.place
        = some ((insOf r.payload).entry (s.liveVis (insOf r.payload).kt (insOf r.payload).key))) := by
  obtain ⟨u, t, hfwd, hbake, hend, hresp, hleft⟩ := fwdInsert_answers hf hs hc
  have hfound := FwdSt.find_insertEntry hroom
  rw [← State.liveVis_congr hfwd hbake, ← hfwd] at hroom
  rw [← hfwd] at h
  obtain ⟨hanswer, hwritten⟩ := State.liveInsert_places h hroom
  rw [hanswer] at hresp
  rw [hwritten] at hleft
  exact ⟨t, hend, hresp, by rw [hleft]; exact hfound⟩

theorem fwdInsert_fails (h : s.fwd.entryOf (insOf r.payload).kt (insOf r.payload).key s.fwd.gen = none)
    (hroom : s.fwd.insertEntry ((insOf r.payload).entry (s.liveVis (insOf r.payload).kt (insOf r.payload).key)) = none) :
    Ends (.fwdInsert r) s (fun t => t.delivered 0x0401 r (Resp.err stNoResource dNone)
      ∧ t.fwd.em = s.fwd.em ∧ t.fwd.ctr = Tab.bump s.fwd.ctr 13 1) := by
  obtain ⟨u, t, hfwd, hbake, hend, hresp, hleft⟩ := fwdInsert_answers hf hs hc
  rw [← State.liveVis_congr hfwd hbake, ← hfwd] at hroom
  rw [← hfwd] at h ⊢
  rw [State.liveInsert_fails h hroom] at hresp hleft
  exact ⟨t, hend, hresp, by rw [hleft]; rfl, by rw [hleft]; rfl⟩

end

theorem fwdDelete_removes {r : Req} {s : State} {q : Nat} {e : EmEntry} (hf : s.fresh 0x0402 r) (hs : r.stage = false)
    (hc : checkFwdDelete r.payload s = none)
    (h : s.fwd.entryOf (rd r.payload 0 1) (slice r.payload 4 48) s.fwd.gen = some (q, e)) :
    Ends (.fwdDelete r) s (fun t => t.delivered 0x0402 r (Resp.ok []) ∧ t.fwd = (s.fwd.removeAt q).drainStash) := by
  have hfwd := fwd_of_mailed (begun_mbx hf)
  have hbody : fwdDeleteBody r (s.begun 0x0402 r)
      = (State.dropHeld { s.begun 0x0402 r with fwd := (s.fwd.removeAt q).drainStash }, some (Resp.ok [])) := by
    unfold fwdDeleteBody
    rw [if_neg (by simp [hs]), (checkFwdDelete_congr hfwd _).trans hc]
    dsimp only
    rw [applyFwdDelete_eq (by rw [hfwd]; exact h), hfwd]
    rfl
  obtain ⟨t, hend, hresp, hmail, -⟩ := fresh_answered hf hbody rfl
  exact ⟨t, hend, hresp, hmail.fwd⟩

/-- Settles O20: an insert comes to one of the three cases of `State.liveInsert`, a delete and a flush to removals before the drain
of the stash, and a lookup answers from a table that mail does not move. -/
theorem forwardingEntries : Obligations.ForwardingEntries := by
  unfold Obligations.ForwardingEntries
  refine ⟨fun r s hf hs hc => ⟨fun q e h => fwdInsert_replaces hf hs hc h, fun h f pl hroom => fwdInsert_places hf hs hc h hroom,
    fun h hroom => fwdInsert_fails hf hs hc h hroom⟩, fun r s q e hf hs hc h => ?delete, ?absent, ?lookup, ?flush⟩
  case delete =>
    obtain ⟨t, hend, hresp, hleft⟩ := fwdDelete_removes hf hs hc h
    exact ⟨t, hend, hresp, hleft, s.fwd.find_removeAt_same q⟩
  case absent =>
    refine turned_of (body := fwdDeleteBody) (fun _ _ => rfl) (fun r s u _ _ hu hs ⟨hkey, hnone⟩ => ?_)
    have hc : checkFwdDelete r.payload u = some (stBadArg, 0x0401) := by
      rw [checkFwdDelete_congr (fwd_of_mailed hu)]
      simp [checkFwdDelete, need, hkey, hnone]
    unfold fwdDeleteBody
    rw [if_neg (by simp [hs]), hc]
    rfl
  case lookup =>
    refine answered_of (body := fwdLookupBody) (fun _ _ => rfl) (fun r s u _ _ hu hkey => ?_)
    unfold fwdLookupBody readCmd
    dsimp only
    rw [if_pos hkey, fwd_of_mailed hu]
    generalize s.fwd.entryOf (rd r.payload 0 1) (slice r.payload 4 48) s.fwd.gen = found
    rcases found with _ | ⟨q, e⟩
    · rfl
    · rfl
  case flush =>
    refine does_of (body := fwdFlushBody) (fun r u => { u with fwd := u.fwd.flush r.payload }) (fun _ _ => rfl)
      (fun r s u _ _ hu hok => ⟨?_, rfl, fun t ht => ?_⟩)
    · unfold fwdFlushBody
      rw [if_pos hok, fwd_of_mailed hu]
      rfl
    · rw [fwd_of_mailed ht, fwd_of_mailed hu]
      rfl

end Sys2Proof.Machine
end

section
/-! PROOF. Learning, aging, parity and normalisation (R112, R122 to R127), and the timers of FRER streams (R254, R258): each row is
one operation on the tables or on the stream, and the operation's rule says what it leaves. -/

namespace Sys2Proof.Machine

theorem State.get_bumpFwd_same (s : State) (i : Nat) : Tab.get 0 (s.bumpFwd i 1).fwd.ctr i = Tab.get 0 s.fwd.ctr i + 1 :=
  (Tab.get_bump _ _ _ _).trans (if_pos rfl)

/-! ### Learning (R122, R123) -/

section

variable {s : State} {sl : Nat} {v : LearnEv} {l : List LearnEv}

/-- The state in which the oldest learn event of a slice is looked at: it has left its FIFO. -/
def State.learnTaken (s : State) (sl : Nat) (l : List LearnEv) : State :=
  { s with fwd := { s.fwd with learnQ := Tab.set [] s.fwd.learnQ sl l } }

theorem learnInsert_idles (hsl : sl < 16) (h : Tab.get [] s.fwd.learnQ sl = []) : Idles (.learnInsert sl) s := by
  show execLearnInsert sl s = _
  unfold execLearnInsert
  rw [if_neg (by omega), h]

theorem learnInsert_exec (hsl : sl < 16) (h : Tab.get [] s.fwd.learnQ sl = v :: l) :
    exec (.learnInsert sl) s = .next ((s.learnTaken sl l).learnOne v) := by
  show execLearnInsert sl s = _
  unfold execLearnInsert
  rw [if_neg (by omega), h]
  rfl

/-- An event for an unknown address, within the limit of its port, makes a learned entry where there is room. -/
theorem State.learnOne_inserts {f : FwdSt} {pl : Placed} (hv : v.vxlan = false)
    (hnew : s.fwd.entryOf 1 (keyMac v.fid v.mac) s.fwd.gen = none) (hlim : s.fwd.learnedCount v.port < (s.port v.port).learnLimit)
    (hroom : s.fwd.insertEntry (learnedEntry v (emWord 1 v.port) (s.liveVis 1 (keyMac v.fid v.mac))) = some (f, pl)) :
    s.learnOne v = { s with fwd := { (f.learnedAdd v.port 1) with ctr := Tab.bump f.ctr 2 1 } } := by
  have hword : s.learnWord v = some (emWord 1 v.port) := by
    unfold State.learnWord
    rw [if_neg (by simp [hv])]
  unfold State.learnOne
  rw [hword]
  dsimp only
  rw [hnew]
  dsimp only
  rw [if_neg (by omega)]
  unfold State.learnNew
  rw [hroom]

/-- What it leaves: the entry, one more for its port, and the count of inserts. -/
theorem State.learnOne_learns (hv : v.vxlan = false) (hnew : s.fwd.entryOf 1 (keyMac v.fid v.mac) s.fwd.gen = none)
    (hlim : s.fwd.learnedCount v.port < (s.port v.port).learnLimit)
    (hroom : (s.fwd.insertEntry (learnedEntry v (emWord 1 v.port) (s.liveVis 1 (keyMac v.fid v.mac)))).isSome = true) :
    (s.learnOne v).fwd.learnedCount v.port = s.fwd.learnedCount v.port + 1
      ∧ Tab.get 0 (s.learnOne v).fwd.ctr 2 = Tab.get 0 s.fwd.ctr 2 + 1
      ∧ ∃ q, Tab.find (s.learnOne v).fwd.em q = some (learnedEntry v (emWord 1 v.port) (s.liveVis 1 (keyMac v.fid v.mac))) := by
  obtain ⟨⟨f, pl⟩, hsome⟩ := Option.isSome_iff_exists.mp hroom
  rw [State.learnOne_inserts hv hnew hlim hsome]
  have hfound : Tab.find f.em pl.place = _ := FwdSt.find_insertEntry hsome
  refine ⟨?_, ?_, pl.place, hfound⟩
  · show (f.learnedAdd v.port 1).learnedCount v.port = _
    rw [FwdSt.learnedCount_learnedAdd]
    unfold FwdSt.learnedCount
    rw [FwdSt.insertEntry_learnedOn hsome]
    omega
  · rw [← FwdSt.get_insertEntry_ctr hsome (by decide) (by decide)]
    exact (Tab.get_bump _ _ _ _).trans (if_pos rfl)

theorem learnInsert_ends (hsl : sl < 16) (h : Tab.get [] s.fwd.learnQ sl = v :: l) :
    Ends (.learnInsert sl) s (fun t => Tab.get [] t.fwd.learnQ sl = l
      ∧ (v.vxlan = false → s.fwd.entryOf 1 (keyMac v.fid v.mac) s.fwd.gen = none →
        s.fwd.learnedCount v.port < (s.port v.port).learnLimit →
        (s.fwd.insertEntry (learnedEntry v (emWord 1 v.port) (s.liveVis 1 (keyMac v.fid v.mac)))).isSome = true →
        t.fwd.learnedCount v.port = s.fwd.learnedCount v.port + 1 ∧ Tab.get 0 t.fwd.ctr 2 = Tab.get 0 s.fwd.ctr 2 + 1
        ∧ ∃ q, Tab.find t.fwd.em q = some (learnedEntry v (emWord 1 v.port) (s.liveVis 1 (keyMac v.fid v.mac))))) := by
  refine ⟨_, learnInsert_exec hsl h, ?_, fun hv hnew hlim hroom => ?_⟩
  · rw [(State.learnOne_frame (Touch.or_self _) (.refl (s := s.learnTaken sl l)) v).learnQ rfl]
    exact Tab.get_set_same _ _ _ _
  · obtain ⟨⟨f, pl⟩, hsome⟩ := Option.isSome_iff_exists.mp hroom
    exact State.learnOne_learns (s := s.learnTaken sl l) hv hnew hlim
      (Option.isSome_iff_exists.mpr ⟨_, FwdSt.insertEntry_learnQ hsome _⟩)

end

/-! ### Aging (R124, R125) -/

section

variable {s : State} {q : Nat} {e : EmEntry}

theorem agingVisit_idles (hq : q < stashEnd) (he : Tab.find s.fwd.em q = some e) (h : s.fwd.agePeriod = 0 ∨ e.age = false) :
    Idles (.agingVisit q) s := by
  show execAgingVisit q s = _
  unfold execAgingVisit
  rw [if_neg (by omega), he]
  dsimp only
  split
  · rfl
  · next hp =>
    rw [if_neg (by simp [h.resolve_left hp])]

/-- The sweeper visits an entry subject to aging while the period is not 0. -/
theorem agingVisit_exec (hq : q < stashEnd) (he : Tab.find s.fwd.em q = some e) (hp : s.fwd.agePeriod ≠ 0) (ha : e.age = true) :
    exec (.agingVisit q) s = .next { s with fwd := s.fwd.visit q e } := by
  show execAgingVisit q s = _
  unfold execAgingVisit
  rw [if_neg (by omega), if_neg hp, he]
  dsimp only
  rw [if_pos ha]

end

section

variable {f : FwdSt} {q : Nat} {e : EmEntry} (he : Tab.find f.em q = some e)

include he

theorem FwdSt.visit_hit (hh : e.hit = true) : Tab.find (f.visit q e).em q = some { e with hit := false, stale := false }
    ∧ (f.visit q e).learnedOn = f.learnedOn := by
  unfold FwdSt.visit
  rw [if_pos hh]
  exact ⟨FwdSt.find_updEntry_same (fun x => { x with hit := false, stale := false }) he, rfl⟩

theorem FwdSt.visit_quiet (hh : e.hit = false) (hs : e.stale = false) :
    Tab.find (f.visit q e).em q = some { e with stale := true } ∧ (f.visit q e).learnedOn = f.learnedOn := by
  unfold FwdSt.visit
  rw [if_neg (by simp [hh]), if_neg (by simp [hs])]
  exact ⟨FwdSt.find_updEntry_same _ he, rfl⟩

theorem FwdSt.visit_stale (hh : e.hit = false) (hs : e.stale = true) (hl : e.learned = true) :
    (f.visit q e).learnedCount e.owner = f.learnedCount e.owner - 1
      ∧ Tab.get 0 (f.visit q e).ctr 9 = Tab.get 0 f.ctr 9 + 1 := by
  unfold FwdSt.visit
  rw [if_neg (by simp [hh]), if_pos hs]
  refine ⟨?_, ?_⟩
  · rw [← FwdSt.learnedCount_removeAt he hl]
    unfold FwdSt.learnedCount
    dsimp only
    rw [FwdSt.drainStash_learnedOn]
  · dsimp only
    rw [Tab.get_bump, if_pos rfl, FwdSt.get_drainStash_ctr _ (by decide), FwdSt.removeAt_ctr]
    rfl

end

/-! ### Parity (R126, R127) -/

section

variable {s : State} {n i q : Nat} {e : EmEntry}

theorem scrubRead_idles (hi : i < scrubSize n) : Idles (.scrubRead n i false) s := by
  show execScrubRead n i false s = _
  unfold execScrubRead
  rw [if_neg (by omega), if_pos (by decide)]

theorem scrubRead_exec_bad (hi : i < scrubSize n) (hn : n ≠ 0) : exec (.scrubRead n i true) s
    = .next ((({ s with fwd := { s.fwd with badTable := (n, i, s.fwd.prefixAt n i) :: s.fwd.badTable } }).bumpFwd 14 1).raise
      0x0402 sevCorrectable []) := by
  show execScrubRead n i true s = _
  unfold execScrubRead
  rw [if_neg (by omega), if_neg (by decide), if_neg hn]

theorem scrubRead_ends_bad (hi : i < scrubSize n) (hn : n ≠ 0) : Ends (.scrubRead n i true) s (fun t =>
    t.fwd.badAt n i = true ∧ Tab.get 0 t.fwd.ctr 14 = Tab.get 0 s.fwd.ctr 14 + 1) := by
  refine ⟨_, scrubRead_exec_bad hi hn, ?_⟩
  simp only [State.raise_rest]
  refine ⟨?_, State.get_bumpFwd_same _ _⟩
  show List.any ((n, i, s.fwd.prefixAt n i) :: s.fwd.badTable) (fun x => x.1 == n && x.2.1 == i) = true
  simp

theorem scrubRead_exec_badEntry (hi : i < scrubSize 0) (he : emAt s.fwd.em i = some (q, e)) : exec (.scrubRead 0 i true) s
    = .next (({ s with fwd := s.fwd.updEntry q (fun e => { e with bad := true }) }).parityFound q) := by
  show execScrubRead 0 i true s = _
  unfold execScrubRead
  rw [if_neg (by omega), if_neg (by decide), if_pos rfl, he]

theorem scrubRead_ends_badEntry (hi : i < scrubSize 0) (he : emAt s.fwd.em i = some (q, e)) :
    Ends (.scrubRead 0 i true) s (fun t =>
      Tab.find t.fwd.em q = some { e with bad := true } ∧ Tab.get 0 t.fwd.ctr 14 = Tab.get 0 s.fwd.ctr 14 + 1) := by
  refine ⟨_, scrubRead_exec_badEntry hi he, ?_⟩
  simp only [State.parityFound, State.raise_rest]
  exact ⟨FwdSt.find_updEntry_same (fun e => { e with bad := true }) (find_of_emAt he), State.get_bumpFwd_same _ _⟩

/-- The marks that stand once the bad entry `i` of table `n` is restored. -/
theorem FwdSt.badAt_restored (f : FwdSt) (n i m j : Nat) :
    { f with badTable := f.badTable.filter (fun x => !(x.1 == n && x.2.1 == i)) }.badAt m j
      = (f.badAt m j && !decide (m = n ∧ j = i)) := by
  unfold FwdSt.badAt
  rw [Bool.eq_iff_iff]
  simp only [List.any_filter, List.any_eq_true, Bool.and_eq_true, beq_iff_eq, Bool.not_eq_true', decide_eq_false_iff_not]
  constructor
  · rintro ⟨x, hx, hkeep, rfl, rfl⟩
    exact ⟨⟨x, hx, rfl, rfl⟩, by simpa using hkeep⟩
  · rintro ⟨⟨x, hx, rfl, rfl⟩, hkeep⟩
    exact ⟨x, hx, by simpa using hkeep, rfl, rfl⟩

theorem parityRestore_exec (hi : i < scrubSize n) (hn : n ≠ 0) (hb : s.fwd.badAt n i = true) : exec (.parityRestore n i) s
    = .next (({ s with fwd := { s.fwd with badTable := s.fwd.badTable.filter (fun x => !(x.1 == n && x.2.1 == i)) } }).bumpFwd
      16 1) := by
  show execParityRestore n i s = _
  unfold execParityRestore
  rw [if_neg (by omega), if_neg hn, if_pos hb]

theorem parityRestore_ends (hi : i < scrubSize n) (hn : n ≠ 0) (hb : s.fwd.badAt n i = true) :
    Ends (.parityRestore n i) s (fun t => t.fwd.badAt n i = false
      ∧ (∀ m j, m ≠ n ∨ j ≠ i → t.fwd.badAt m j = s.fwd.badAt m j)
      ∧ Tab.get 0 t.fwd.ctr 16 = Tab.get 0 s.fwd.ctr 16 + 1) := by
  refine ⟨_, parityRestore_exec hi hn hb, (s.fwd.badAt_restored n i n i).trans ?_,
    fun m j h => (s.fwd.badAt_restored n i m j).trans ?_, State.get_bumpFwd_same _ _⟩
  · simp
  · simp [show ¬ (m = n ∧ j = i) by tauto]

theorem parityRestore_idles (hi : i < scrubSize n) (hn : n ≠ 0) (hb : s.fwd.badAt n i = false) :
    Idles (.parityRestore n i) s := by
  show execParityRestore n i s = _
  unfold execParityRestore
  rw [if_neg (by omega), if_neg hn, if_neg (by simp [hb])]

theorem parityRestore_ends_removed (hi : i < scrubSize 0) (he : emAt s.fwd.em i = some (q, e)) (hb : e.bad = true)
    (hs : e.shadow = false) : Ends (.parityRestore 0 i) s (fun t =>
      Tab.find t.fwd.em q = none ∧ Tab.get 0 t.fwd.ctr 16 = Tab.get 0 s.fwd.ctr 16 + 1) := by
  have hrestore : s.fwd.restore q e = s.fwd.removeAt q := by
    unfold FwdSt.restore
    dsimp only
    rw [if_neg (by simp [hs])]
  refine ⟨({ s with fwd := s.fwd.removeAt q }).bumpFwd 16 1, ?_, s.fwd.find_removeAt_same q, ?_⟩
  · show execParityRestore 0 i s = _
    unfold execParityRestore
    rw [if_neg (by omega), if_pos rfl, he]
    dsimp only
    rw [if_pos hb, hrestore]
  · rw [State.get_bumpFwd_same]
    dsimp only
    rw [FwdSt.removeAt_ctr]

end

/-! ### Normalisation (R112) -/

/-- The table once the entries of the old generation alone are gone and the others are visible in both, before the stash drains. -/
def FwdSt.unified (f : FwdSt) : FwdSt :=
  let g := (f.em.filter (fun x => x.2.vis == 2 ^ (1 - f.gen))).foldl (fun h x => h.removeAt x.1) f
  let h := { g with em := g.em.map (fun (x : Nat × EmEntry) => (x.1, { x.2 with vis := 3 })), normPending := false }
  if f.gen = 0 then { h with gen1 := h.gen0 } else { h with gen0 := h.gen1 }

theorem FwdSt.normalise_eq (f : FwdSt) : f.normalise = f.unified.drainStash := rfl

theorem FwdSt.vis_unified (f : FwdSt) : ∀ x ∈ f.unified.em, x.2.vis = 3 := by
  unfold FwdSt.unified
  dsimp only
  split <;>
  · intro x hx
    obtain ⟨y, -, rfl⟩ := List.mem_map.mp hx
    rfl

/-- Both copies of the tables are those of the generation in force. -/
theorem FwdSt.gens_unified (f : FwdSt) : f.unified.gen0 = (if f.gen = 0 then f.gen0 else f.gen1)
    ∧ f.unified.gen1 = (if f.gen = 0 then f.gen0 else f.gen1) ∧ f.unified.normPending = false := by
  have hrest : ((f.em.filter (fun x => x.2.vis == 2 ^ (1 - f.gen))).foldl (fun h x => h.removeAt x.1) f).rest = f.rest :=
    FwdSt.foldl_rest _ (fun _ _ => FwdSt.removeAt_rest _ _) _ _
  have h0 := congrArg FwdSt.gen0 hrest
  have h1 := congrArg FwdSt.gen1 hrest
  unfold FwdSt.unified
  dsimp only
  split
  · exact ⟨h0, h0, rfl⟩
  · exact ⟨h1, h1, rfl⟩

theorem FwdSt.normalise_spec (f : FwdSt) : f.normalise.normPending = false ∧ f.normalise.gen0 = f.normalise.gen1
    ∧ (f.gen ≤ 1 → f.normalise.tables f.gen = f.tables f.gen) ∧ ∀ e ∈ f.normalise.em, e.2.vis = 3 := by
  obtain ⟨h0, h1, hpending⟩ := f.gens_unified
  have hdrain := f.unified.drainStash_rest
  rw [← f.normalise_eq] at hdrain
  have k0 : f.normalise.gen0 = _ := (congrArg FwdSt.gen0 hdrain).trans h0
  have k1 : f.normalise.gen1 = _ := (congrArg FwdSt.gen1 hdrain).trans h1
  refine ⟨(congrArg FwdSt.normPending hdrain).trans hpending, k0.trans k1.symm, fun hgen => ?_,
    FwdSt.drainStash_forall (P := fun e => e.vis = 3) f.vis_unified⟩
  unfold FwdSt.tables
  rw [k0, k1]
  rcases Nat.le_one_iff_eq_zero_or_eq_one.mp hgen with h | h <;> simp [h]

/-! ### FRER streams (R254, R258) -/

section

variable {s : State} {n : Nat}

theorem State.get_bumpStream_same (s : State) (n i : Nat) :
    Tab.get 0 (s.bumpStream n i 1).tel.frerCtr (9 * n + i) = Tab.get 0 s.tel.frerCtr (9 * n + i) + 1 :=
  (Tab.get_bump _ _ _ _).trans (if_pos rfl)

/-- A row about a stream of the device is its act. -/
theorem exec_of_onStream {i : Instr} {t : State} (hn : n < 65536) (he : exec i s = onStream n t) : exec i s = .next t :=
  he.trans (if_pos hn)

theorem frerResetTimer_idles (hn : n < 65536) (h : (s.stream n).timer = false) : Idles (.frerResetTimer n) s :=
  (exec_of_onStream hn rfl).trans (by rw [if_neg (by simp [h])])

theorem frerResetTimer_exec (hn : n < 65536) (hr : (s.frerNow n).recover = true) (ht : (s.stream n).timer = true) :
    exec (.frerResetTimer n) s
      = .next ((s.updStream n (fun f => { f.restart with timer := false })).bumpStream n 7 1) :=
  (exec_of_onStream hn rfl).trans (by rw [if_pos (by simp [hr, ht])])

theorem frerResetTimer_ends (hn : n < 65536) (hr : (s.frerNow n).recover = true) (ht : (s.stream n).timer = true) :
    Ends (.frerResetTimer n) s (fun t => t.stream n = { s.stream n with takeAny := true, hist := 0, timer := false }
      ∧ Tab.get 0 t.tel.frerCtr (9 * n + 7) = Tab.get 0 s.tel.frerCtr (9 * n + 7) + 1) :=
  ⟨_, frerResetTimer_exec hn hr ht, s.stream_updStream_same n (fun f => { f.restart with timer := false }),
    State.get_bumpStream_same _ n 7⟩

theorem frerLatentTest_idles (hn : n < 65536) (h : (s.frerNow n).latent = false) : Idles (.frerLatentTest n) s :=
  (exec_of_onStream hn rfl).trans (by rw [if_neg (by simp [h])])

theorem frerLatentTest_exec (hn : n < 65536) (hr : (s.frerNow n).recover = true) (hl : (s.frerNow n).latent = true)
    (hd : (s.frerNow n).diff < ((s.stream n).difference (s.frerNow n).paths).natAbs) : exec (.frerLatentTest n) s
      = .next ((s.bumpStream n 8 1).raise 0x0901 sevWarning
        (le 2 n ++ le 4 (unsigned 32 ((s.stream n).difference (s.frerNow n).paths)))) :=
  (exec_of_onStream hn rfl).trans (by rw [if_pos (by simp [hr, hl, hd])])

theorem frerLatentTest_ends (hn : n < 65536) (hr : (s.frerNow n).recover = true) (hl : (s.frerNow n).latent = true)
    (hd : (s.frerNow n).diff < ((s.stream n).difference (s.frerNow n).paths).natAbs) : Ends (.frerLatentTest n) s (fun t =>
      t.frer = s.frer ∧ Tab.get 0 t.tel.frerCtr (9 * n + 8) = Tab.get 0 s.tel.frerCtr (9 * n + 8) + 1) := by
  refine ⟨_, frerLatentTest_exec hn hr hl hd, ?_⟩
  simp only [State.raise_rest]
  exact ⟨rfl, s.get_bumpStream_same n 8⟩

theorem frerLatentReset_ends (hn : n < 65536) : Ends (.frerLatentReset n) s (fun t =>
    t.stream n = { s.stream n with latPassed := 0, latDisc := 0 } ∧ ∀ m, m ≠ n → t.stream m = s.stream m) :=
  ⟨_, exec_of_onStream hn rfl, s.stream_updStream_same n _,
    fun m hm => by rw [State.stream_updStream, if_neg (Ne.symm hm)]⟩

end

/-! ### O51 -/

/-- Settles O51: each row is one operation on the tables or on a stream, and each operation's rule says what it leaves. -/
theorem tableRows : Obligations.TableRows := by
  unfold Obligations.TableRows
  refine ⟨fun s sl hsl => ⟨learnInsert_idles hsl, fun v l h => learnInsert_ends hsl h⟩, fun s q e hq he => ?aging,
    fun s n i hi => ?parity, fun s => ?normalise, fun s n hn => ?frer⟩
  case aging =>
    refine ⟨fun h => agingVisit_idles hq he (.inl h), fun h => agingVisit_idles hq he (.inr h), fun hp ha hh => ?_,
      fun hp ha hh hs => ?_, fun hp ha hh hs hl => ?_⟩
    · exact ⟨_, agingVisit_exec hq he hp ha, FwdSt.visit_hit he hh⟩
    · exact ⟨_, agingVisit_exec hq he hp ha, FwdSt.visit_quiet he hh hs⟩
    · exact ⟨_, agingVisit_exec hq he hp ha, FwdSt.visit_stale he hh hs hl⟩
  case parity =>
    refine ⟨scrubRead_idles hi, scrubRead_ends_bad hi, ?_, parityRestore_ends hi, parityRestore_idles hi, ?_⟩
    · rintro q e rfl he
      exact scrubRead_ends_badEntry hi he
    · rintro q e rfl he hb hs
      exact parityRestore_ends_removed hi he hb hs
  case normalise =>
    refine ⟨fun h => if_neg (fun ⟨hp, hz⟩ => h.elim (fun hno => by simp [hno] at hp) (· hz)),
      fun hp hz => ⟨_, if_pos ⟨hp, hz⟩, s.fwd.normalise_spec⟩⟩
  case frer =>
    exact ⟨frerResetTimer_idles hn, frerResetTimer_ends hn, frerLatentTest_ends hn, frerLatentTest_idles hn, frerLatentReset_ends hn⟩

end Sys2Proof.Machine
end

section
/-! PROOF. The message pools (R155 to R158): what giving a buffer and taking one back leave in each pool, in the counters and in
the event log. -/

namespace Sys2Proof.Machine

/-! ### Pools by their number -/

@[simp] theorem BufSt.pool_setPool_same (b : BufSt) (i : Nat) (p : Pool) : (b.setPool i p).pool i = p := by
  match i with
  | 0 | 1 | 2 | _ + 3 => rfl

theorem BufSt.pool_setPool_other (b : BufSt) {i j : Nat} (p : Pool) (hi : i < 4) (hj : j < 4) (h : j ≠ i) :
    (b.setPool i p).pool j = b.pool j := by
  interval_cases i <;> interval_cases j <;> simp_all [BufSt.setPool, BufSt.pool]

@[simp] theorem BufSt.ctr_setPool (b : BufSt) (i : Nat) (p : Pool) : (b.setPool i p).ctr = b.ctr := by
  unfold BufSt.setPool
  split <;> rfl

theorem State.get_bumpBuf (s : State) (i n k : Nat) : Tab.get 0 (s.bumpBuf i n).buf.ctr k
      = if i = k then Tab.get 0 s.buf.ctr k + BitVec.ofNat 64 n else Tab.get 0 s.buf.ctr k :=
  Tab.get_bump _ _ _ _

theorem State.get_bumpBuf_same (s : State) (i : Nat) : Tab.get 0 (s.bumpBuf i 1).buf.ctr i = Tab.get 0 s.buf.ctr i + 1 :=
  (s.get_bumpBuf i 1 i).trans (if_pos rfl)

theorem BufSt.poolPick_lt {b : BufSt} {i j : Nat} (h : b.poolPick i = some j) : j < 4 := by
  have hm := List.mem_of_mem_filter (List.mem_of_mem_head? h)
  simp only [List.mem_cons, List.not_mem_nil, or_false] at hm
  omega

theorem State.poolPtr_lt {s : State} {ptr j n : Nat} (h : s.poolPtr ptr = some (j, n)) : j < 4 := by
  unfold State.poolPtr at h
  dsimp only at h
  split at h
  · next hok =>
    obtain ⟨-, -, hj, -⟩ := hok
    obtain ⟨rfl, -⟩ := Prod.mk.injEq .. ▸ Option.some.inj h
    exact hj
  · cases h

/-! ### The alarm (R158) -/

section

variable {s : State} {i j : Nat}

theorem State.poolAlarm_of_low (ha : (s.buf.pool i).alarm = false)
    (hl : 64 * (poolCount i - (s.buf.pool i).used.length) < poolCount i) : s.poolAlarm i
      = State.raise { s with buf := s.buf.setPool i { s.buf.pool i with alarm := true } } 0x0504 sevWarning [] :=
  if_pos (by simp [ha, hl])

theorem State.poolAlarm_of_quiet (h : (s.buf.pool i).alarm = true
    ∨ poolCount i ≤ 64 * (poolCount i - (s.buf.pool i).used.length)) : s.poolAlarm i = s :=
  if_neg (by simpa [or_iff_not_imp_left] using h)

/-- The alarm moves no bitmap, no other pool and no counter of the buffers. -/
theorem State.poolAlarm_pools (s : State) (hi : i < 4) : ((s.poolAlarm i).buf.pool i).used = (s.buf.pool i).used
    ∧ (∀ j, j < 4 → j ≠ i → (s.poolAlarm i).buf.pool j = s.buf.pool j) ∧ (s.poolAlarm i).buf.ctr = s.buf.ctr := by
  by_cases h : (s.buf.pool i).alarm = true ∨ poolCount i ≤ 64 * (poolCount i - (s.buf.pool i).used.length)
  · rw [State.poolAlarm_of_quiet h]
    exact ⟨rfl, fun _ _ _ => rfl, rfl⟩
  · rw [not_or, Bool.not_eq_true, not_le] at h
    rw [State.poolAlarm_of_low h.1 h.2]
    simp only [State.raise_rest, BufSt.pool_setPool_same, BufSt.ctr_setPool, true_and, and_true]
    exact fun j hj hne => BufSt.pool_setPool_other _ _ hi hj hne

/-! ### Giving a buffer (R156) -/

/-- Pool `j` gives its lowest free buffer for `size` bytes: the bitmaps and the counters after it, before the alarm. -/
def State.poolGiven (s : State) (size j : Nat) : State :=
  (State.bumpBuf { s with buf := s.buf.setPool j (s.buf.pool j).take } 18 1).bumpBuf 19 (if j = poolFor size then 0 else 1)

variable {size block : Nat}

theorem State.poolAlloc_of_pick (h : s.buf.poolPick (poolFor size) = some j) : s.poolAlloc size
      = ((s.poolGiven size j).poolAlarm j,
        some (s.regionBase 2 + 2 ^ 30 * j + poolBuf j * lowestFree 0 (s.buf.pool j).used)) := by
  unfold State.poolAlloc
  rw [h]
  rfl

theorem State.poolAlloc_of_none (h : s.buf.poolPick (poolFor size) = none) : s.poolAlloc size = (s.bumpBuf 20 1, none) := by
  unfold State.poolAlloc
  rw [h]

theorem poolAlloc_exec_given (hs : size ≤ 65536) (h : s.buf.poolPick (poolFor size) = some j) :
    exec (.poolAlloc size block) s = .next { (s.poolGiven size j).poolAlarm j with
      out := .poolAnswer block stOk (s.regionBase 2 + 2 ^ 30 * j + poolBuf j * lowestFree 0 (s.buf.pool j).used)
        :: ((s.poolGiven size j).poolAlarm j).out } :=
  (if_neg (not_lt.mpr hs)).trans (by rw [State.poolAlloc_of_pick h])

theorem poolAlloc_exec_none (hs : size ≤ 65536) (h : s.buf.poolPick (poolFor size) = none) :
    exec (.poolAlloc size block) s
      = .next { s.bumpBuf 20 1 with out := .poolAnswer block stNoResource 0 :: s.out } :=
  (if_neg (not_lt.mpr hs)).trans (by rw [State.poolAlloc_of_none h]; rfl)

theorem State.pool_poolGiven_same (s : State) (size j : Nat) : (s.poolGiven size j).buf.pool j = (s.buf.pool j).take :=
  BufSt.pool_setPool_same _ _ _

theorem State.alarm_poolGiven (s : State) (size j : Nat) :
    ((s.poolGiven size j).buf.pool j).alarm = (s.buf.pool j).alarm := by
  rw [State.pool_poolGiven_same]
  rfl

theorem State.get_poolGiven (s : State) (size j : Nat) :
    Tab.get 0 (s.poolGiven size j).buf.ctr 18 = Tab.get 0 s.buf.ctr 18 + 1 := by
  unfold State.poolGiven
  rw [State.get_bumpBuf, if_neg (by decide), State.get_bumpBuf_same, BufSt.ctr_setPool]

/-- The pool that gives has one more buffer allocated, each other pool stays, and the buffer given is counted. -/
theorem poolAlloc_ends_given (hs : size ≤ 65536) (h : s.buf.poolPick (poolFor size) = some j) :
    Ends (.poolAlloc size block) s (fun t =>
      (t.buf.pool j).used = insertRising (lowestFree 0 (s.buf.pool j).used) (s.buf.pool j).used
      ∧ t.out.head? = some (.poolAnswer block stOk
        (s.regionBase 2 + 2 ^ 30 * j + poolBuf j * lowestFree 0 (s.buf.pool j).used))
      ∧ Tab.get 0 t.buf.ctr 18 = Tab.get 0 s.buf.ctr 18 + 1 ∧ ∀ i, i < 4 → i ≠ j → t.buf.pool i = s.buf.pool i) := by
  have hj := BufSt.poolPick_lt h
  obtain ⟨hused, hother, hctr⟩ := (s.poolGiven size j).poolAlarm_pools hj
  refine ⟨_, poolAlloc_exec_given hs h, ?_, rfl, ?_, fun i hi hne => ?_⟩
  · exact hused.trans (by rw [State.pool_poolGiven_same]; rfl)
  · exact (congrArg (Tab.get 0 · 18) hctr).trans (s.get_poolGiven size j)
  · exact (hother i hi hne).trans (BufSt.pool_setPool_other _ _ hj hi hne)

/-! ### Taking a buffer back (R157) -/

variable {ptr n : Nat}

theorem poolFree_exec_taken (hp : s.poolPtr ptr = some (j, n)) (hn : n ∈ (s.buf.pool j).used) :
    exec (.poolFree ptr block) s = .next { s with buf := s.buf.setPool j ((s.buf.pool j).give j n) } := by
  show Host.Outcome.next (s.poolFree ptr block) = _
  unfold State.poolFree
  rw [hp]
  simp [hn]

/-- A pointer that names no allocated buffer is counted, and POOL_BAD_FREE is raised. -/
theorem poolFree_exec_refused (h : ∀ j n, s.poolPtr ptr = some (j, n) → n ∉ (s.buf.pool j).used) :
    exec (.poolFree ptr block) s = .next ((s.bumpBuf 21 1).raise 0x0503 sevWarning (le 8 ptr ++ le 1 block)) := by
  show Host.Outcome.next (s.poolFree ptr block) = _
  unfold State.poolFree
  split
  · next j n hp => simp [h j n hp]
  · rfl

end

/-! ### O54 -/

/-- Settles O54: the alarm is tested on the pool that has given, and cleared by the pool that takes back. -/
theorem poolLowAlarm : Obligations.PoolLowAlarm := by
  unfold Obligations.PoolLowAlarm
  refine ⟨fun s size block j hs hpick => ⟨fun ha hlow => ?_, fun hquiet => ?_⟩,
    fun s ptr block j n hp hn => ⟨fun hfree => ?_, fun hfree => ?_⟩⟩
  · refine ⟨_, poolAlloc_exec_given hs hpick, ?_⟩
    rw [State.poolAlarm_of_low (by rw [State.pool_poolGiven_same]; exact ha) (by rw [State.pool_poolGiven_same]; exact hlow)]
    exact ⟨rfl, congrArg Pool.alarm (BufSt.pool_setPool_same _ _ _)⟩
  · refine ⟨_, poolAlloc_exec_given hs hpick, ?_⟩
    rw [State.poolAlarm_of_quiet (by rw [State.pool_poolGiven_same]; exact hquiet)]
    exact ⟨rfl, s.alarm_poolGiven size j⟩
  · refine ⟨_, poolFree_exec_taken hp hn, rfl, ?_⟩
    simp [Pool.give, hfree]
  · refine ⟨_, poolFree_exec_taken hp hn, rfl, ?_⟩
    simp [Pool.give, hfree]

end Sys2Proof.Machine
end

section
/-! PROOF. The host packet FIFOs (R371 to R378): what commits, rewinds, the ingress of the host ports and the reset of a FIFO
leave in it. -/

namespace Sys2Proof.Machine

/-! ### Banks (R371) -/

theorem Frame.fifo_eq {w : Touch} {s t : State} (h : Frame w s t) (hw : w.fifos = false) : t.fifo = s.fifo := by
  unfold State.fifo; rw [h.fifos hw]

@[simp] theorem HFifo.setBank_rest (f : HFifo) (b : Nat) (l : List (List Byte)) (u : Nat) :
    (f.setBank b l u).packets = f.packets ∧ (f.setBank b l u).rewinds = f.rewinds ∧ (f.setBank b l u).notices = f.notices
      ∧ (f.setBank b l u).writing = f.writing ∧ (f.setBank b l u).waiting = f.waiting := by
  unfold HFifo.setBank
  split <;> exact ⟨rfl, rfl, rfl, rfl, rfl⟩

theorem HFifo.turn_packets (f : HFifo) : f.turn.packets = f.packets := by
  unfold HFifo.turn
  dsimp only
  split
  · exact (HFifo.setBank_rest _ _ _ _).1
  · rfl

/-- A bank with room takes the packet of a writer that waits no longer. -/
theorem HFifo.place_spec {f g : HFifo} {n : Nat} (h : f.place n = some g) : g.packets = f.packets ∧ g.waiting = false := by
  unfold HFifo.place at h
  split_ifs at h
  · cases h
    exact ⟨rfl, rfl⟩
  · cases h
    exact ⟨f.turn_packets, rfl⟩

theorem HFifo.commit_spec (f : HFifo) (b : List Byte) : (f.commit b).packets = f.packets + 1
    ∧ (f.commit b).notices = f.notices + 1 ∧ (f.commit b).rewinds = f.rewinds ∧ (f.commit b).waiting = f.waiting :=
  have ⟨_, hrewinds, _, _, hwaiting⟩ := f.setBank_rest f.writeBank (f.bank f.writeBank ++ [padTo (32 * ceilDiv b.length 32) b])
    (f.used f.writeBank + ceilDiv b.length 32)
  ⟨rfl, rfl, hrewinds, hwaiting⟩

/-- What the writer of a FIFO keeps: the packets it has committed, the one it writes, and whether it waits. -/
def HFifo.writer (f : HFifo) : Ctr × List Byte × Bool := (f.packets, f.writing, f.waiting)

/-- The reader takes nothing from the writer. -/
theorem HFifo.writer_take (f : HFifo) : f.take.synced.writer = f.writer := by
  show f.take.writer = f.writer
  unfold HFifo.take HFifo.writer
  dsimp only
  split <;> simp

/-! ### From the host (R372, R376, R378) -/

theorem State.fifo_hostEnter (s : State) (pk : Pkt) : (s.hostEnter pk).fifo = s.fifo :=
  (State.hostEnter_frame (Touch.or_self _) .refl pk).fifo_eq rfl

theorem State.writer_hostInOne (s : State) (h m : Nat) : ((s.hostInOne h).fifo m).writer = (s.fifo m).writer := by
  unfold State.hostInOne
  split
  · rfl
  · dsimp only
    split
    · rw [State.fifo_hostEnter, State.fifo_updFifo]
      split
      · next hm => rw [HFifo.writer_take, hm]
      · rfl
    · rfl

/-- The ingress of a host port takes packets from the readers' side of the FIFOs alone. -/
theorem State.writer_hostIn (s : State) (h m : Nat) : ((s.hostIn h).fifo m).writer = (s.fifo m).writer :=
  foldl_read (fun t => (t.fifo m).writer) (fun t _ _ => t.writer_hostInOne h m) s

section

variable {s : State} {h : Nat}

theorem hpfPacketCommit_exec_fromHost (hh : h < 4) :
    exec (.hpfPacketCommit (2 * h + 1)) s = .next (s.fromHostCommit h) := by
  show execHpfPacketCommit (2 * h + 1) s = _
  unfold execHpfPacketCommit
  rw [if_neg (by omega), if_neg (by omega), show (2 * h + 1) / 2 = h by omega]

theorem State.fromHostCommit_of_nil (hw : (s.fifo (2 * h + 1)).writing = []) : s.fromHostCommit h = s :=
  if_pos (by simp [hw])

theorem State.fromHostCommit_of_place {g : HFifo} (hw : (s.fifo (2 * h + 1)).writing ≠ [])
    (hp : (s.fifo (2 * h + 1)).place (ceilDiv (s.fifo (2 * h + 1)).writing.length 32) = some g) : s.fromHostCommit h
      = (s.updFifo (2 * h + 1) (fun _ => { g.commit (s.fifo (2 * h + 1)).writing with writing := [] })).hostIn h :=
  (if_neg (by simpa using hw)).trans (by rw [hp])

theorem State.fromHostCommit_of_full (hw : (s.fifo (2 * h + 1)).writing ≠ [])
    (hp : (s.fifo (2 * h + 1)).place (ceilDiv (s.fifo (2 * h + 1)).writing.length 32) = none) : s.fromHostCommit h
      = s.updFifo (2 * h + 1) (fun x => { x with waiting := x.enable }) :=
  (if_neg (by simpa using hw)).trans (by rw [hp])

theorem hpfPacketCommit_ends_placed {g : HFifo} (hh : h < 4) (hw : (s.fifo (2 * h + 1)).writing ≠ [])
    (hp : (s.fifo (2 * h + 1)).place (ceilDiv (s.fifo (2 * h + 1)).writing.length 32) = some g) :
    Ends (.hpfPacketCommit (2 * h + 1)) s (fun t => (t.fifo (2 * h + 1)).packets = (s.fifo (2 * h + 1)).packets + 1
      ∧ (t.fifo (2 * h + 1)).writing = [] ∧ (t.fifo (2 * h + 1)).waiting = false) := by
  obtain ⟨hpackets, hwaiting⟩ := HFifo.place_spec hp
  obtain ⟨hcommit, -, -, hwait⟩ := g.commit_spec (s.fifo (2 * h + 1)).writing
  have hwriter : ((s.fromHostCommit h).fifo (2 * h + 1)).writer = ((s.fifo (2 * h + 1)).packets + 1, [], false) := by
    rw [State.fromHostCommit_of_place hw hp, State.writer_hostIn, State.fifo_updFifo_same, ← hpackets, ← hcommit, ← hwaiting,
      ← hwait]
    rfl
  simp only [HFifo.writer, Prod.mk.injEq] at hwriter
  exact ⟨_, hpfPacketCommit_exec_fromHost hh, hwriter⟩

/-! ### To the host (R372, R375) -/

theorem hpfPacketCommit_exec_toHost (hh : h < 4) : exec (.hpfPacketCommit (2 * h)) s = .next (s.hostCommit h) := by
  show execHpfPacketCommit (2 * h) s = _
  unfold execHpfPacketCommit
  rw [if_neg (by omega), if_pos (by omega), show 2 * h / 2 = h by omega]

theorem State.hostCommit_of_idle (hx : (s.port (512 + h)).txPkt = none) : s.hostCommit h = s := by
  unfold State.hostCommit
  dsimp only
  rw [hx]

/-- A frame that leaves a host port moves no FIFO and no port after its commit or its rewind. -/
theorem State.hostLeft_reads (u : State) (pk : Pkt) (p k : Nat) (b : List Byte) (bad : Bool) (i : EgItem) :
    (((u.endTrap pk).egMirror pk p b bad).egLeave k i).fifo = u.fifo
      ∧ (((u.endTrap pk).egMirror pk p b bad).egLeave k i).port = u.port := by
  have hleave := State.egLeave_frame (Touch.or_self _) (.refl (s := (u.endTrap pk).egMirror pk p b bad)) k i
  have hmirror := State.egMirror_frame (Touch.or_self _) (.refl (s := u.endTrap pk)) pk p b bad
  have htrap := State.endTrap_frame (Touch.or_self _) (.refl (s := u)) pk
  exact ⟨(hleave.fifo_eq rfl).trans ((hmirror.fifo_eq rfl).trans (htrap.fifo_eq rfl)),
    (hleave.port_eq rfl).trans ((hmirror.port_eq rfl).trans (htrap.port_eq rfl))⟩

variable {id : Nat} {i : EgItem}

theorem State.hostCommit_of_coming (hx : (s.port (512 + h)).txPkt = some id)
    (hi : (s.egq (s.port (512 + h)).txQ).find? (fun i => i.pkt == id && i.started) = some i) (hc : i.complete = false) :
    s.hostCommit h = s := by
  unfold State.hostCommit
  dsimp only
  rw [hx]
  dsimp only
  rw [hi]
  exact if_pos hc

/-- The frame of host port `512 + h` has left the port: what it was written as is taken from the port. -/
def State.hostSent (s : State) (h : Nat) : State := s.updPort (512 + h) (fun q => { q with txPkt := none, txBytes := [] })

theorem State.hostSent_spec (s : State) (h : Nat) : (s.hostSent h).fifo = s.fifo ∧ ((s.hostSent h).port (512 + h)).txPkt = none :=
  ⟨rfl, congrArg PortSt.txPkt (s.port_updPort_same (512 + h) _)⟩

/-- The frame in its FIFO: rewound where it was found bad, discarded mid-frame or has lost cells, else committed. -/
def State.hostWritten (s : State) (h : Nat) (pk : Pkt) (i : EgItem) : State :=
  let b := (s.port (512 + h)).txBytes
  if i.stomp ∨ pk.midCut then (s.hostSent h).rewind (2 * h)
  else if pk.stomp then ((s.hostSent h).rewind (2 * h)).countDrop pk (if pk.fcsBad then 1 else 3) (512 + h)
  else { ((s.hostSent h).updFifo (2 * h) (fun f => f.commit (pk.hostMeta (512 + h) b.length s.freeVal ++ b))).countNode
    (512 + h) (b.length + 4) with free := s.free + 1 }

/-- A complete frame leaves the FIFOs and the ports as it was written. -/
theorem State.hostCommit_of_complete (hx : (s.port (512 + h)).txPkt = some id)
    (hi : (s.egq (s.port (512 + h)).txQ).find? (fun i => i.pkt == id && i.started) = some i) (hc : i.complete = true) :
    (s.hostCommit h).fifo = (s.hostWritten h (s.pkt id) i).fifo
      ∧ (s.hostCommit h).port = (s.hostWritten h (s.pkt id) i).port := by
  unfold State.hostCommit
  dsimp only
  rw [hx]
  dsimp only
  rw [hi]
  dsimp only
  rw [if_neg (by simp [hc])]
  exact State.hostLeft_reads (s.hostWritten h (s.pkt id) i) _ _ _ _ _ _

variable {pk : Pkt}

theorem State.hostWritten_of_good (hbad : pk.stomp = false) (hcut : pk.midCut = false) (hgap : i.stomp = false) :
    (∃ b, (s.hostWritten h pk i).fifo (2 * h) = ((s.fifo (2 * h)).commit b).synced)
      ∧ ((s.hostWritten h pk i).port (512 + h)).txPkt = none := by
  unfold State.hostWritten
  dsimp only
  rw [if_neg (by simp [hgap, hcut]), if_neg (by simp [hbad])]
  exact ⟨⟨_, State.fifo_updFifo_same _ _ _⟩, (s.hostSent_spec h).2⟩

theorem State.hostWritten_of_bad (hbad : pk.stomp = true ∨ pk.midCut = true ∨ i.stomp = true) :
    (s.hostWritten h pk i).fifo (2 * h)
      = HFifo.synced { s.fifo (2 * h) with rewinds := (s.fifo (2 * h)).rewinds + 1, writing := [] }
      ∧ ((s.hostWritten h pk i).port (512 + h)).txPkt = none := by
  have hfifo : ((s.hostSent h).rewind (2 * h)).fifo (2 * h)
      = HFifo.synced { s.fifo (2 * h) with rewinds := (s.fifo (2 * h)).rewinds + 1, writing := [] } :=
    State.fifo_updFifo_same (s.hostSent h) _ _
  have hport : (((s.hostSent h).rewind (2 * h)).port (512 + h)).txPkt = none := (s.hostSent_spec h).2
  unfold State.hostWritten
  dsimp only
  split
  · exact ⟨hfifo, hport⟩
  · next hquiet =>
    have hdrop := State.countDrop_frame (Touch.or_self _) (.refl (s := (s.hostSent h).rewind (2 * h))) pk
      (if pk.fcsBad then 1 else 3) (512 + h)
    rw [if_pos (by tauto), hdrop.fifo_eq rfl, hdrop.port_eq rfl]
    exact ⟨hfifo, hport⟩

end

/-! ### The pointers' copies (R373) -/

/-- An upset leaves the two copies apart. -/
theorem HFifo.copy_upset_ne (f : HFifo) (k d : Nat) : (f.upset k d).copy ≠ (f.upset k d).ptrs := by
  have hoff (w : Nat) : (if w + (1 + d % 4095) < 4096 then w + (1 + d % 4095) else w + (1 + d % 4095) - 4096) ≠ w := by
    split <;> omega
  show (f.upset k d).copy ≠ f.ptrs
  unfold HFifo.upset
  dsimp only
  split
  · exact fun e => hoff _ (congrArg Prod.fst e)
  · split
    · exact fun e => hoff _ (congrArg (fun q => q.2.1) e)
    · exact fun e => hoff _ (congrArg (fun q => q.2.2) e)

end Sys2Proof.Machine
end

section
/-! PROOF. The reset of a host packet FIFO (R373, R374): the channels in the middle of one of its packets leave it empty, and its
error source pending. -/

namespace Sys2Proof.Machine

/-! ### The FIFO and the channels (R372, R374) -/

section

variable {m : Nat} (c : Nat)

/-- A from-host packet that vanishes is counted in a from-host FIFO. -/
theorem State.fifo_dropPartial (s : State) (hm : m % 2 = 0) : (s.dropPartial c).fifo m = s.fifo m := by
  unfold State.dropPartial
  dsimp only
  split
  · rw [State.fifo_updFifo, if_neg (by omega)]
  · rfl

theorem State.fifo_chanNext (s : State) (hm : m % 2 = 0) : (s.chanNext c).fifo m = s.fifo m := by
  unfold State.chanNext
  dsimp only
  split
  · exact s.fifo_dropPartial c hm
  · split
    · exact congrFun ((State.tailCheck_frame (Touch.or_self _) .refl c).fifo_eq rfl) m
    · exact congrFun ((State.chanFollow_frame (Touch.or_self _) .refl c _).fifo_eq rfl) m

theorem State.fifo_chanGoOn (s : State) (hm : m % 2 = 0) : (s.chanGoOn c).fifo m = s.fifo m := by
  unfold State.chanGoOn
  split
  · rfl
  · exact s.fifo_chanNext c hm

/-- A descriptor that does not halt its channel leaves the to-host FIFOs alone. -/
theorem State.fifo_chanDone (s : State) {status : Nat} (n : Nat) (sop eop : Bool) (hs : halting status = false) (hm : m % 2 = 0) :
    (s.chanDone c status n sop eop).fifo m = s.fifo m := by
  unfold State.chanDone
  dsimp only
  rw [if_neg (by simp [hs]), State.fifo_chanGoOn c _ hm]
  exact congrFun ((State.cqPump_frame (Touch.or_self _) .refl c).fifo_eq rfl) m

end

/-- A to-host channel whose packet is lost ends it with FIFO_RESET. -/
theorem State.toHostTransfer_of_bad {s : State} {c : Nat} (d : List Byte) (h : (s.chan c).badPkt = true) :
    s.toHostTransfer c d
      = (s.updChan c (fun y => { y with badPkt := false, inPkt := false, pktLeft := [] })).chanDone c 7 0 false true :=
  if_pos h

theorem State.fifo_chanFifoReset (s : State) (f c : Nat) : (s.chanFifoReset f c).fifo f = s.fifo f := by
  unfold State.chanFifoReset
  dsimp only
  split
  · split
    · next h =>
      rw [State.toHostTransfer_of_bad _ (by rw [State.chan_updChan_same])]
      exact State.fifo_chanDone c _ 0 false true rfl h.1
    · rfl
  · rfl

/-! ### Pending sources stay (R369) -/

section

variable {s : State} {m : Nat}

theorem Frame.intPending_eq {w : Touch} {t : State} (h : Frame w s t) (hw : w.irq = false) :
    t.host.intPending = s.host.intPending := by
  unfold HostSt.intPending; rw [(h.irq hw).2]

theorem State.intPending_interrupt_of (n : Nat) (h : s.host.intPending m = true) : (s.interrupt n).host.intPending m = true := by
  rw [State.intPending_interrupt, h, Bool.or_true]

theorem State.intPending_raise_of (code sev : Nat) (args : List Byte) (h : s.host.intPending m = true) :
    (s.raise code sev args).host.intPending m = true := by
  show (s.host.setPendingIf _ _ _).1.intPending m = true
  unfold HostSt.setPendingIf
  split
  · rw [HostSt.intPending_setPending, h, Bool.or_true]
  · exact h

theorem State.intPending_foldl_of {α : Type} {f : State → α → State}
    (hf : ∀ t x, t.host.intPending m = true → (f t x).host.intPending m = true) (l : List α) (h : s.host.intPending m = true) :
    (l.foldl f s).host.intPending m = true := by
  induction l generalizing s with
  | nil => exact h
  | cons x l ih => exact ih (hf s x h)

variable (c : Nat)

theorem State.intPending_cqOne_of (h : s.host.intPending m = true) : (s.cqOne c).host.intPending m = true := by
  unfold State.cqOne
  dsimp only
  split
  · exact h
  · split
    · exact h
    · next e _ _ _ =>
      have hwritten (x : Output) : ((s.updChan c (fun y => y.cqWritten e)).emit x).host.intPending m = true := h
      have hentry (t : State) (r : ReadReq) (ht : t.host.intPending m = true) :
          (if e.flush then t.askRead c r else if e.int then t.interrupt c else t).host.intPending m = true := by
        split
        · rwa [(State.askRead_frame (Touch.or_self _) .refl c r).intPending_eq rfl]
        · split
          · exact State.intPending_interrupt_of c ht
          · exact ht
      split
      · exact State.intPending_interrupt_of c (hentry _ _ (hwritten _))
      · exact hentry _ _ (hwritten _)

theorem State.intPending_chanDone_of {status : Nat} (n : Nat) (sop eop : Bool) (hs : halting status = false)
    (h : s.host.intPending m = true) : (s.chanDone c status n sop eop).host.intPending m = true := by
  unfold State.chanDone
  dsimp only
  rw [if_neg (by simp [hs]), (State.chanGoOn_frame (Touch.or_self _) .refl c).intPending_eq rfl]
  exact State.intPending_foldl_of (fun _ _ ht => State.intPending_cqOne_of c ht) _ h

theorem State.intPending_chanFifoReset_of (f : Nat) (h : s.host.intPending m = true) :
    (s.chanFifoReset f c).host.intPending m = true := by
  unfold State.chanFifoReset
  dsimp only
  split
  · split
    · rw [State.toHostTransfer_of_bad _ (by rw [State.chan_updChan_same])]
      exact State.intPending_chanDone_of c 0 false true rfl h
    · exact h
  · exact h

end

/-! ### The reset (R374) -/

/-- A FIFO that has lost `n` packets in a reset. -/
def HFifo.restarted (f : HFifo) (n : Nat) : HFifo :=
  { f with
    writeBank := 0
    readBank := 0
    waiting := false
    resetSeen := true
    bank0 := []
    bank1 := []
    notices := 0
    resets := f.resets + 1
    resetDrops := f.resetDrops + BitVec.ofNat 64 n
    writing := []
    used0 := 0
    used1 := 0 }

theorem State.fifoReset_spec (s : State) (f : Nat) :
    (∃ n, (s.fifoReset f).fifo f = ((s.fifo f).restarted n).synced) ∧ (s.fifoReset f).host.intPending (179 + f) = true := by
  unfold State.fifoReset
  dsimp only
  constructor
  · rw [foldl_read (fun t => t.fifo f) (fun t c _ => t.fifo_chanFifoReset f c),
      (State.raise_frame (Touch.or_self _) .refl _ _ _).fifo_eq rfl,
      (State.interrupt_frame (Touch.or_self _) .refl _).fifo_eq rfl, State.fifo_updFifo_same,
      (State.dropHostTx_frame (Touch.or_self _) .refl f).fifo_eq rfl,
      foldl_read State.fifo (f := fun u b => State.bumpDrop u (fifoPort f b) 32) (fun _ _ _ => rfl)]
    exact ⟨_, rfl⟩
  · refine State.intPending_foldl_of (fun _ c h => State.intPending_chanFifoReset_of c f h) _ (State.intPending_raise_of _ _ _ ?_)
    rw [State.intPending_interrupt, decide_eq_true rfl, Bool.true_or]

/-- One pointer of the second copy of FIFO `f` moves (log entry 106). -/
def State.upsetFifo (s : State) (f : Nat) : State :=
  State.drawn { s with host := { s.host with fifos := Tab.upd HFifo.init s.host.fifos f (fun x =>
    x.upset s.freeVal (Config.freeValue (s.free + 1))) } } 2

theorem State.fifo_upsetFifo (s : State) (f : Nat) :
    (s.upsetFifo f).fifo f = (s.fifo f).upset s.freeVal (Config.freeValue (s.free + 1)) :=
  Tab.get_upd_same HFifo.init s.host.fifos f (fun x => x.upset s.freeVal (Config.freeValue (s.free + 1)))

/-- Once a pointer has moved the copies differ, and the FIFO is reset. -/
theorem hpfPointerMismatch_exec {s : State} {f : Nat} (hf : f < 8) :
    exec (.hpfPointerMismatch f) s = .next ((s.upsetFifo f).fifoReset f) := by
  have hreset : (s.upsetFifo f).comparePtrs f = (s.upsetFifo f).fifoReset f :=
    if_neg (by rw [State.fifo_upsetFifo]; exact HFifo.copy_upset_ne _ _ _)
  rw [← hreset]
  exact if_neg (not_le.mpr hf)

theorem hpfPointerMismatch_ends {s : State} {f : Nat} (hf : f < 8) :
    Ends (.hpfPointerMismatch f) s (fun t => (t.fifo f).bank0 = [] ∧ (t.fifo f).bank1 = []
      ∧ (t.fifo f).notices = 0 ∧ (t.fifo f).writeBank = 0 ∧ (t.fifo f).readBank = 0 ∧ (t.fifo f).resetSeen = true
      ∧ (t.fifo f).resets = (s.fifo f).resets + 1 ∧ t.host.intPending (179 + f) = true) := by
  obtain ⟨⟨n, hfifo⟩, hpending⟩ := (s.upsetFifo f).fifoReset_spec f
  refine ⟨_, hpfPointerMismatch_exec hf, ?_⟩
  dsimp only
  rw [hfifo, State.fifo_upsetFifo]
  exact ⟨rfl, rfl, rfl, rfl, rfl, rfl, rfl, hpending⟩

/-! ### O55 -/

/-- Settles O55: the pools by what giving and taking back leave, the FIFOs by what their commits, rewinds and resets leave. -/
theorem poolFifoRows : Obligations.PoolFifoRows := by
  unfold Obligations.PoolFifoRows
  refine ⟨fun s size block hs => ⟨_, if_pos hs, rfl⟩, fun s size block hs => ⟨fun h => ?none, fun j h => poolAlloc_ends_given hs h⟩,
    fun s ptr block => ⟨fun j n hp hn => ?taken, fun h => ?refused⟩, fun s h hh => ?fromHost, fun s h hh => ?toHost,
    fun s f hf => hpfPointerMismatch_ends hf⟩
  case none => exact ⟨_, poolAlloc_exec_none hs h, fun _ => rfl, rfl, s.get_bumpBuf_same 20⟩
  case taken =>
    refine ⟨_, poolFree_exec_taken hp hn, ?_⟩
    simp only [BufSt.pool_setPool_same, BufSt.ctr_setPool]
    exact ⟨rfl, trivial, fun i hi hne => BufSt.pool_setPool_other _ _ (State.poolPtr_lt hp) hi hne⟩
  case refused =>
    refine ⟨_, poolFree_exec_refused h, ?_⟩
    simp only [State.raise_rest]
    exact ⟨fun _ => rfl, s.get_bumpBuf_same 21⟩
  case fromHost =>
    refine ⟨fun hw => ?_, fun g hw hp => hpfPacketCommit_ends_placed hh hw hp, fun hw hp => ?_⟩
    · exact (hpfPacketCommit_exec_fromHost hh).trans (by rw [State.fromHostCommit_of_nil hw])
    · refine ⟨_, hpfPacketCommit_exec_fromHost hh, ?_⟩
      rw [State.fromHostCommit_of_full hw hp]
      exact State.fifo_updFifo_same _ _ _
  case toHost =>
    refine ⟨fun hx => ?_, fun id i hx hi => ⟨fun hc => ?_, fun hc hbad hcut hgap => ?_, fun hc hbad => ?_⟩⟩
    · exact (hpfPacketCommit_exec_toHost hh).trans (by rw [State.hostCommit_of_idle hx])
    · exact (hpfPacketCommit_exec_toHost hh).trans (by rw [State.hostCommit_of_coming hx hi hc])
    · obtain ⟨hfifo, hport⟩ := State.hostCommit_of_complete hx hi hc
      obtain ⟨⟨b, hwritten⟩, hsent⟩ := State.hostWritten_of_good (s := s) (h := h) hbad hcut hgap
      obtain ⟨hpackets, hnotices, hrewinds, -⟩ := (s.fifo (2 * h)).commit_spec b
      refine ⟨_, hpfPacketCommit_exec_toHost hh, ?_⟩
      dsimp only
      rw [hfifo, hport, hwritten]
      exact ⟨hpackets, hnotices, hrewinds, hsent⟩
    · obtain ⟨hfifo, hport⟩ := State.hostCommit_of_complete hx hi hc
      obtain ⟨hwritten, hsent⟩ := State.hostWritten_of_bad (s := s) (h := h) hbad
      refine ⟨_, hpfPacketCommit_exec_toHost hh, ?_⟩
      dsimp only
      rw [hfifo, hport, hwritten]
      exact ⟨rfl, rfl, hsent⟩

end Sys2Proof.Machine
end

section
/-! PROOF. The buffer commands and the averaging update (R143, R144, R155 to R160): live settings, reads, and the marks that a
read starts again. -/

namespace Sys2Proof.Machine

/-! ### The averaging update (R144) -/

/-- The new average lies `(d - a) / 2 ^ w` from the old one: exactly where `2 ^ w` divides, else rounded down or up. -/
theorem newAverage_spec (w a d : Nat) (up : Bool) :
    ((2 : Int) ^ w ∣ (d : Int) - a → (newAverage w a d up : Int) = a + ((d : Int) - a) / 2 ^ w)
      ∧ a + ((d : Int) - a) / 2 ^ w ≤ newAverage w a d up
      ∧ (newAverage w a d up : Int) ≤ a + ((d : Int) - a) / 2 ^ w + 1 := by
  have hpos : 0 < 2 ^ w := Nat.two_pow_pos w
  have hsum : ((a * 2 ^ w + d - a : Nat) : Int) = ((d : Int) - a) + a * 2 ^ w := by
    have hle : a ≤ a * 2 ^ w := Nat.le_mul_of_pos_right a hpos
    rw [Nat.cast_sub (by omega)]
    push_cast
    ring
  have hquot : (((a * 2 ^ w + d - a) / 2 ^ w : Nat) : Int) = a + ((d : Int) - a) / 2 ^ w := by
    rw [Int.natCast_ediv, hsum]
    push_cast
    rw [Int.add_mul_ediv_right _ _ (by positivity), add_comm]
  have hdvd : (2 : Int) ^ w ∣ (d : Int) - a → (a * 2 ^ w + d - a) % 2 ^ w = 0 := by
    intro h
    have hsumdvd := h.add (Dvd.intro_left (a : Int) rfl)
    rw [← hsum] at hsumdvd
    exact Nat.mod_eq_zero_of_dvd (by exact_mod_cast hsumdvd)
  have hround : (if (a * 2 ^ w + d - a) % 2 ^ w = 0 then 0 else b2n up) ≤ 1 := by
    cases up <;> split <;> decide
  unfold newAverage
  dsimp only
  rw [Nat.cast_add, hquot]
  refine ⟨fun h => ?_, ?_, ?_⟩
  · rw [if_pos (hdvd h)]
    simp
  · omega
  · omega

/-- With weight 0 the average is the depth. -/
theorem newAverage_zero (a d : Nat) (up : Bool) : newAverage 0 a d up = d := by
  simp [newAverage, Nat.mod_one]

theorem QueueSt.renewed_of_none {q : QueueSt} (h : q.wredNext = none) : q.renewed = { q with held := none } := by
  unfold QueueSt.renewed
  rw [h]

/-- The new average of queue `k`, under its profile and with its spilled cells counted, rounded as `up` says. -/
def State.averageOf (s : State) (k : Nat) (up : Bool) : Nat :=
  newAverage (Tab.get WredProfile.init s.buf.wred (s.queue k).profile).weight (s.queue k).avg
    (65536 * ((s.queue k).cells + (s.queue k).spilled)) up

/-- An update without a pending setting changes one queue. -/
theorem State.wredUpdate_spec {s : State} {k : Nat} (h : (s.queue k).wredNext = none) : ∃ up,
    (∀ m, (s.wredUpdate k).queue m = if k = m then { s.queue k with held := none, avg := s.averageOf k up } else s.queue m)
      ∧ (s.wredUpdate k).pkts = s.pkts ∧ (s.wredUpdate k).fab = s.fab := by
  unfold State.wredUpdate
  rw [QueueSt.renewed_of_none h]
  exact ⟨_, fun m => s.queue_updQueue k m _, rfl, rfl⟩

/-- Settles O49: one rounding rule of the new average, and an update of one queue. -/
theorem wredAverage : Obligations.WredAverage := by
  intro s k hk hnext
  obtain ⟨up, hqueue, hpkts, hfab⟩ := State.wredUpdate_spec hnext
  obtain ⟨hexact, hlow, hhigh⟩ := newAverage_spec (Tab.get WredProfile.init s.buf.wred (s.queue k).profile).weight
    (s.queue k).avg (65536 * ((s.queue k).cells + (s.queue k).spilled)) up
  push_cast at hexact hlow hhigh
  refine ⟨s.wredUpdate k, if_neg (by omega), ?_⟩
  dsimp only
  rw [hqueue k, if_pos rfl]
  refine ⟨hexact, hlow, hhigh, fun hw => ?_, rfl, fun m hm => ?_, hpkts, hfab⟩
  · dsimp only [State.averageOf]
    rw [hw, newAverage_zero]
    push_cast
    rfl
  · rw [hqueue m, if_neg (Ne.symm hm)]

/-! ### A request without INDIRECT takes no pool buffer (R388) -/

section

variable {s u : State} {op : Nat} {r : Req} {x : Resp} {body : Body}

theorem State.buf_postReq (s : State) (x : Resp) (hb : r.box < 32) : (s.postReq r x).buf = s.buf := by
  unfold State.postReq State.post
  rw [if_neg (by unfold fwdBox; omega)]
  rfl

theorem State.buf_postJob (s : State) (j : Job) (x : Resp) (hb : j.req.box < 32) : (s.postJob j x).buf = s.buf := by
  unfold State.postJob
  split
  · exact State.buf_postReq s x hb
  · rfl

theorem State.enqueue_plain (s : State) (j : Job) (hb : j.req.box < 32) (hi : j.req.indirect = false) :
    (s.enqueue j).buf = s.buf
      ∧ (s.enqueue j).mbx.jobs = s.mbx.jobs ++ [{ j with boxed := j.boxed && !j.req.async, buf := none }] := by
  unfold State.enqueue
  simp only [hi, Bool.false_eq_true, if_false, State.fillBuf]
  split
  · exact ⟨State.buf_postJob _ j _ hb, State.postJob_jobs _ j _ hb⟩
  · exact ⟨rfl, rfl⟩

theorem State.begun_plain (hf : s.fresh op r) (hi : r.indirect = false) : (s.begun op r).buf = s.buf
    ∧ (s.begun op r).mbx.jobs = s.mbx.jobs ++ [{ s.newJob op r with boxed := !r.async, buf := none }] := by
  unfold State.begun
  rw [State.submit_fresh hf]
  obtain ⟨hbuf, hjobs⟩ := ((s.accept r.box).readPayload op r).enqueue_plain (s.newJob op r) hf.1 hi
  obtain ⟨o, hread⟩ := State.readPayload_eq (s.accept r.box) op r
  rw [State.readPayload_mbx] at hjobs
  exact ⟨hbuf.trans (by rw [hread]; rfl), hjobs⟩

theorem State.buf_endJob (s : State) (j : Job) (l : List Job) (x : Resp) (hb : j.req.box < 32) (hw : j.waiters = [])
    (hbuf : j.buf = none) : (s.endJob j l x).buf = s.buf := by
  unfold State.endJob
  dsimp only
  rw [hw, hbuf]
  simp only [State.postWaiters, State.freeBuf]
  unfold State.answerJob
  split
  · rfl
  · split
    · exact State.buf_postReq _ x hb
    · rfl

/-- Its completion leaves the buffers as its body has left them. -/
theorem buf_of_answered {t : State} (hf : s.fresh op r) (hi : r.indirect = false) (hb : body r (s.begun op r) = (u, some x))
    (hm : u.mbx = (s.begun op r).mbx) (ht : mailboxCommand op body r s = .next t) : t.buf = u.buf := by
  rw [fresh_runs hf, Host.Outcome.next.injEq] at ht
  have hjob : u.job? op r false = some { s.newJob op r with boxed := !r.async, buf := none } :=
    State.job?_last (by rw [hm, (State.begun_plain hf hi).2]) hf.2.2.1 rfl rfl rfl
  rw [← ht]
  unfold State.runJob
  rw [hb]
  dsimp only
  unfold State.completeNow State.endOldest
  rw [hjob]
  exact u.buf_endJob _ _ _ hf.1 rfl rfl

end

/-! ### One change at several entries -/

/-- A change that is the same done twice, made at the entries of a list. -/
theorem foldl_changes {β : Type} {read : State → Nat → β} {upd : State → Nat → State} {f : β → β}
    (hu : ∀ s k j, read (upd s k) j = if k = j then f (read s k) else read s j) (hf : ∀ a, f (f a) = f a) (l : List Nat) (s : State)
    (j : Nat) : read (l.foldl upd s) j = if j ∈ l then f (read s j) else read s j := by
  induction l generalizing s with
  | nil => rfl
  | cons k l ih =>
    rw [List.foldl_cons, ih, hu]
    by_cases hk : k = j
    · subst hk
      simp [hf]
    · simp [hk, Ne.symm hk]

theorem liveQueue_queue (p : List Byte) (s : State) (k : Nat) : (liveQueue p s).queue k
    = if k ∈ queuesOf p then { s.queue k with wredNext := some (rd p 5 1 == 1, rd p 4 1) } else s.queue k :=
  foldl_changes (read := State.queue) (f := fun q => { q with wredNext := some (rd p 5 1 == 1, rd p 4 1) })
    (fun s i j => s.queue_updQueue i j _) (fun _ => rfl) (queuesOf p) s k

theorem liveQueue_mbx (p : List Byte) (s : State) : (liveQueue p s).mbx = s.mbx :=
  foldl_read State.mbx (f := fun t k => State.updQueue t k (fun q => { q with wredNext := some (rd p 5 1 == 1, rd p 4 1) }))
    (fun _ _ _ => rfl) s

/-- The high-water marks of a port start again from the charge. -/
def State.restartHighs (s : State) (n : Nat) : State :=
  (List.range 8).foldl (fun t c => t.updPortClass n c (fun q => { q with high := q.total })) s

theorem State.portClass_restartHighs (s : State) (n : Nat) {c : Nat} (hc : c < 8) :
    (s.restartHighs n).portClass n c = { s.portClass n c with high := (s.portClass n c).total } :=
  (foldl_changes (read := fun s => s.portClass n) (f := fun q => { q with high := q.total })
    (fun s i j => (s.portClass_updPortClass n i n j _).trans (if_congr (by omega) rfl rfl)) (fun _ => rfl) (List.range 8) s c).trans
    (if_pos (List.mem_range.mpr hc))

theorem State.mbx_restartHighs (s : State) (n : Nat) : (s.restartHighs n).mbx = s.mbx :=
  foldl_read State.mbx (f := fun t c => State.updPortClass t n c (fun q => { q with high := q.total })) (fun _ _ _ => rfl) s

/-- The lowest free counts of the pools start again. -/
def BufSt.restartLows (b : BufSt) : BufSt :=
  [0, 1, 2, 3].foldl (fun b i => b.setPool i { b.pool i with low := (b.pool i).used.length }) b

theorem BufSt.pool_restartLows (b : BufSt) {i : Nat} (hi : i < 4) :
    b.restartLows.pool i = { b.pool i with low := (b.pool i).used.length } := by
  interval_cases i <;> rfl

/-! ### O22 -/

section

variable {s u : State} {op : Nat} {p : List Byte}

theorem queue_of_written (h : u = (s.shadow op p).mailed u) : u.queue = s.queue := (congrArg State.queue h).trans rfl

theorem queue_of_mailed (h : u = s.mailed u) : u.queue = s.queue := (congrArg State.queue h).trans rfl

theorem portClass_of_mailed (h : u = s.mailed u) : u.portClass = s.portClass := (congrArg State.portClass h).trans rfl

end

theorem liveBufSetPfcTx_mailed (p : List Byte) (s u : State) : liveBufSetPfcTx p (s.mailed u) = liveBufSetPfcTx p s := rfl

theorem bufSetWredProfile_carried : Carried 0x0505 .bufSetWredProfile (fun p s => checkBufSetWredProfile p s = none)
    (fun p s t => Tab.get WredProfile.init t.buf.wred (rd p 0 1) = wredOf p
      ∧ (∀ n, n ≠ rd p 0 1 → Tab.get WredProfile.init t.buf.wred n = Tab.get WredProfile.init s.buf.wred n)
      ∧ ∀ k q, (k, q) ∈ s.buf.queues →
        (k, q.hold (rd p 0 1) (Tab.get WredProfile.init s.buf.wred (rd p 0 1))) ∈ t.buf.queues) := by
  refine carried_of (fun _ _ => rfl) (fun _ _ _ _ hok => hok) (fun _ _ => rfl) (fun p s u t hu ht _ => ?_)
  have hwred : t.buf.wred = Tab.set WredProfile.init s.buf.wred (rd p 0 1) (wredOf p) := by rw [ht, hu]; rfl
  have hqueues : t.buf.queues = s.buf.queues.map (fun e =>
      (e.1, e.2.hold (rd p 0 1) (Tab.get WredProfile.init s.buf.wred (rd p 0 1)))) := by rw [ht, hu]; rfl
  rw [hwred, hqueues]
  exact ⟨Tab.get_set_same _ _ _ _, fun n hn => Tab.get_set_other _ _ _ _ (Ne.symm hn),
    fun k q h => List.mem_map.mpr ⟨(k, q), h, rfl⟩⟩

theorem checkBufSetQueue_none {p : List Byte} {s : State} (hp : s.argAnyPort p = true) (hc : rd p 2 1 ≤ 7) (he : rd p 5 1 ≤ 1)
    (hr : resv p 6 2 = true) : checkBufSetQueue p s = none := by
  simp [checkBufSetQueue, need, hp, hc, he, hr]

/-- BUF_GET_POOLS answers and starts the lowest free counts again; where no payload lies in the pools, nothing else moves them. -/
theorem bufGetPools_does : Does 0x050A .bufGetPools (fun _ _ => True)
    (fun r s => le 8 (s.regionBase 2) ++ [0, 1, 2, 3].flatMap (fun i =>
      le 4 (poolBuf i) ++ le 4 (poolCount i) ++ le 4 (poolCount i - ((s.begun 0x050A r).buf.pool i).used.length)
        ++ le 4 (poolCount i - ((s.begun 0x050A r).buf.pool i).low)))
    (fun r s t => r.indirect = false → ∀ i, i < 4 → (t.buf.pool i).used = (s.buf.pool i).used
      ∧ (t.buf.pool i).low = (s.buf.pool i).used.length) := by
  intro r s hf _
  have hbase : (s.begun 0x050A r).regionBase 2 = s.regionBase 2 := by
    unfold State.regionBase
    rw [(State.begun_mailOnly hf).pwr]
  have hbody : bufGetPoolsBody r (s.begun 0x050A r)
      = ({ s.begun 0x050A r with buf := (s.begun 0x050A r).buf.restartLows }, some (Resp.ok _)) := rfl
  rw [hbase] at hbody
  obtain ⟨t, hexec, hresp, -, -⟩ := fresh_answered hf hbody rfl
  refine ⟨t, hexec, hresp, fun hi i hlt => ?_⟩
  rw [buf_of_answered hf hi hbody rfl hexec, (State.begun_plain hf hi).1, BufSt.pool_restartLows _ hlt]
  exact ⟨rfl, rfl⟩

/-- Settles O22: each write is read back at the entries it names, and each read answers from what mail does not move. -/
theorem bufferCommands : Obligations.BufferCommands := by
  unfold Obligations.BufferCommands
  refine ⟨?pfc, bufSetWredProfile_carried, ?queue, ?status, ?port, ?counters, bufGetPools_does⟩
  case pfc =>
    refine carried_of (fun _ _ => rfl) (fun p s u hu hok => by rw [hu, liveBufSetPfcTx_mailed]; exact hok) (fun _ _ => rfl)
      (fun p s u t hu ht _ => ?_)
    rw [State.port_of_written ht, ← State.port_of_mailed hu]
    unfold applyBufSetPfcTx
    rw [State.port_updPort_same]
    exact ⟨rfl, rfl, fun m hm => by rw [State.port_updPort, if_neg (Ne.symm hm)]⟩
  case queue =>
    refine carried_of (fun _ _ => rfl) (fun p s u hu ⟨hp, hc, he, hr⟩ => checkBufSetQueue_none (by rw [hu]; exact hp) hc he hr)
      liveQueue_mbx (fun p s u t hu ht _ k => ?_)
    rw [queue_of_written ht, liveQueue_queue, queue_of_mailed hu]
  case status =>
    refine answered_of (body := bufGetStatusBody) (fun _ _ => rfl) (fun r s u _ _ hu _ => ?_)
    rw [hu]
    rfl
  case port =>
    refine does_of (body := bufGetPortBody) (fun r u => u.restartHighs (rd r.payload 0 2)) (fun _ _ => rfl)
      (fun r s u _ _ hu hok => ⟨?_, State.mbx_restartHighs _ _, fun t ht c hc => ?_⟩)
    · unfold bufGetPortBody
      dsimp only
      rw [if_pos (by rw [hu]; exact hok), portClass_of_mailed hu]
      rfl
    · rw [portClass_of_mailed ht, State.portClass_restartHighs _ _ hc, portClass_of_mailed hu]
  case counters =>
    exact answered_of (body := bufGetCountersBody) (fun _ _ => rfl) (fun r s u _ hbegun _ _ => by rw [hbegun]; rfl)

end Sys2Proof.Machine
end

section
/-! PROOF. The planes of the fabric (R180 to R182, R499): what a fault, a switchover, a test and a resynchronisation leave of each
plane, of the repair record and of the cells on the links. -/

namespace Sys2Proof.Machine

/-! ### Parts of the fabric from frames, and its counters -/

section

variable {w : Touch} {s t : State}

theorem Frame.plane_eq (h : Frame w s t) (hw : w.planes = false) : t.plane = s.plane := by
  unfold State.plane; rw [h.planes hw]

theorem Frame.pair_eq (h : Frame w s t) (hw : w.pairs = false) : t.pair = s.pair := by
  unfold State.pair; rw [h.pairs hw]

theorem Frame.voq_eq (h : Frame w s t) (hw : w.voqs = false) : t.voq = s.voq := by
  unfold State.voq; rw [h.voqs hw]

theorem Frame.fabPort_eq (h : Frame w s t) (hw : w.fabPorts = false) : t.fabPort = s.fabPort := by
  unfold State.fabPort; rw [h.fabPorts hw]

theorem Frame.node_eq (h : Frame w s t) (hw : w.nodes = false) : t.node = s.node := by
  unfold State.node; rw [h.nodes hw]

end

/-- A command completes as its execution says. -/
theorem ends_of_exec {i : Instr} {s t : State} {post : State → Prop} (he : exec i s = .next t) (h : post t) : Ends i s post :=
  ⟨t, he, h⟩

theorem State.get_bumpFab (s : State) (i n k : Nat) : Tab.get 0 (s.bumpFab i n).fab.ctr k
    = if i = k then Tab.get 0 s.fab.ctr k + BitVec.ofNat 64 n else Tab.get 0 s.fab.ctr k :=
  Tab.get_bump _ _ _ _

theorem State.get_bumpFab_same (s : State) (i : Nat) : Tab.get 0 (s.bumpFab i 1).fab.ctr i = Tab.get 0 s.fab.ctr i + 1 :=
  (s.get_bumpFab i 1 i).trans (if_pos rfl)

/-! ### A plane changes, with the health report (R268) -/

theorem State.plane_setPlane (s : State) (p k : Nat) (f : Plane → Plane) :
    (s.setPlane p f).plane k = if p = k then f (s.plane p) else s.plane k := by
  unfold State.setPlane
  dsimp only
  rw [(State.healthIf_frame (Touch.or_self _) .refl _).plane_eq rfl, State.plane_updPlane]

theorem State.plane_setPlane_same (s : State) (p : Nat) (f : Plane → Plane) : (s.setPlane p f).plane p = f (s.plane p) :=
  (s.plane_setPlane p p f).trans (if_pos rfl)

theorem State.plane_setPlane_other (s : State) {p k : Nat} (f : Plane → Plane) (h : k ≠ p) : (s.setPlane p f).plane k = s.plane k :=
  (s.plane_setPlane p k f).trans (if_neg (Ne.symm h))

theorem State.not_mem_repairDel (s : State) (kind unit : Nat) : (kind, unit) ∉ (s.repairDel kind unit).pwr.repairLog := by
  simp [State.repairDel]

/-! ### A plane fails (R181, R182) -/

/-- The free standby, if there is one, begins to join. -/
def State.spareJoins (s : State) : State :=
  match s.freeStandby with
  | some q => s.updPlane q (fun x => { x with switching := true })
  | none => s

theorem State.standby_of_freeStandby {s : State} {q : Nat} (h : s.freeStandby = some q) : (s.plane q).state = .standby := by
  have hq := List.find?_some (show List.find? _ _ = some q from h)
  simp only [Bool.and_eq_true, beq_iff_eq] at hq
  exact hq.1

/-- Only the free standby begins to join. -/
theorem State.plane_spareJoins (s : State) (k : Nat) :
    s.spareJoins.plane k = if s.freeStandby = some k then { s.plane k with switching := true } else s.plane k := by
  unfold State.spareJoins
  cases h : s.freeStandby with
  | none => rfl
  | some q =>
    dsimp only
    rw [State.plane_updPlane]
    by_cases hk : q = k
    · rw [if_pos hk, if_pos (by rw [hk]), hk]
    · rw [if_neg hk, if_neg (by simpa using hk)]

theorem State.plane_spareJoins_active {s : State} {p : Nat} (h : (s.plane p).state = .active) : s.spareJoins.plane p = s.plane p := by
  rw [State.plane_spareJoins, if_neg]
  intro hq
  exact absurd ((State.standby_of_freeStandby hq).symm.trans h) (by decide)

/-- The state in which a plane's failure is reported. -/
def State.planeLost (s : State) (p cause : Nat) : State :=
  let t := (s.spareJoins.setPlane p (fun x => x.fail cause)).repairAdd 0 p
  { t with fab := { t.fab with links := t.fab.links.filter (fun l => l.link / 32 != p) } }

/-- The reports of a failure move events alone. -/
theorem State.failPlane_frame_planeLost (s : State) (p cause : Nat) :
    Frame { evt := true, telCtr := true, irq := true, out := true } (s.planeLost p cause) (s.failPlane p cause) :=
  State.raiseIf_frame (Touch.or_self _) (State.raise_frame (Touch.or_self _) .refl _ _ _) _ _ _ _

theorem State.plane_failPlane (s : State) (p cause k : Nat) :
    (s.failPlane p cause).plane k = if p = k then (s.spareJoins.plane p).fail cause else s.spareJoins.plane k := by
  have hadd := (State.repairAdd_frame (Touch.or_self _) .refl 0 p :
    Frame _ (s.spareJoins.setPlane p (fun x => x.fail cause)) _).planes rfl
  have hplanes := (s.failPlane_frame_planeLost p cause).planes rfl
  rw [← State.plane_setPlane _ _ _ (fun x => x.fail cause), State.plane, State.plane, ← hadd, hplanes]
  rfl

theorem State.plane_failPlane_same {s : State} {p : Nat} (cause : Nat) (h : (s.plane p).state = .active) :
    (s.failPlane p cause).plane p = (s.plane p).fail cause := by
  rw [State.plane_failPlane, if_pos rfl, State.plane_spareJoins_active h]

/-- The free standby joins as a standby. -/
theorem State.plane_failPlane_spare {s : State} {p q : Nat} (cause : Nat) (h : (s.plane p).state = .active)
    (hq : s.freeStandby = some q) : (s.failPlane p cause).plane q = { s.plane q with switching := true } := by
  have hne : p ≠ q := by
    rintro rfl
    exact absurd ((State.standby_of_freeStandby hq).symm.trans h) (by decide)
  rw [State.plane_failPlane, if_neg hne, State.plane_spareJoins, if_pos hq]

theorem State.links_failPlane (s : State) (p cause : Nat) :
    (s.failPlane p cause).fab.links = s.fab.links.filter (fun l => l.link / 32 != p) := by
  have hjoin : s.spareJoins.fab.links = s.fab.links := by
    unfold State.spareJoins
    split <;> rfl
  have hset := ((State.setPlane_frame (Touch.or_self _) .refl p (fun x => x.fail cause) : Frame _ s.spareJoins _).links rfl).1
  rw [((s.failPlane_frame_planeLost p cause).links rfl).1, ← hjoin, ← hset]
  rfl

theorem State.repaired_failPlane (s : State) (p cause : Nat) : (0, p) ∈ (s.failPlane p cause).pwr.repairLog := by
  rw [(s.failPlane_frame_planeLost p cause).repairLog rfl]
  exact State.mem_repairAdd _ 0 p

/-! ### The rows -/

section

variable {s : State} {p cause : Nat}

theorem planeFault_exec (hp : p < 5) (hc : cause = 1 ∨ cause = 2) : exec (.planeFault p cause) s
    = .next (if (s.plane p).state = .active then s.failPlane p cause else s) := by
  show execPlaneFault p cause s = _
  rw [execPlaneFault, if_neg (by omega), if_neg (by omega)]

theorem planeFault_ends (hp : p < 5) (hc : cause = 1 ∨ cause = 2) (h : (s.plane p).state = .active) :
    Ends (.planeFault p cause) s (fun t => (t.plane p).state = .failed ∧ (t.plane p).cause = cause
      ∧ (t.plane p).failures = ((s.plane p).failures + 1) % 2 ^ 32 ∧ (∀ l ∈ t.fab.links, l.link / 32 ≠ p)
      ∧ (0, p) ∈ t.pwr.repairLog ∧ ∀ q, s.freeStandby = some q → (t.plane q).switching = true ∧ (t.plane q).state = .standby) := by
  refine ends_of_exec ((planeFault_exec hp hc).trans (by rw [if_pos h])) ?_
  rw [State.plane_failPlane_same cause h, State.links_failPlane]
  refine ⟨rfl, rfl, rfl, fun l hl => by simpa using List.of_mem_filter hl, s.repaired_failPlane p cause, fun q hq => ?_⟩
  rw [State.plane_failPlane_spare cause h hq]
  exact ⟨rfl, State.standby_of_freeStandby hq⟩

/-- The standby joins (R181): what its row leaves of every plane, and the count of switchovers. -/
theorem State.plane_planeJoin (s : State) (p k : Nat) : (s.planeJoin p).plane k
    = if p = k then { s.plane p with state := .active, switching := false, testLoss := [] } else s.plane k := by
  unfold State.planeJoin
  rw [(State.raise_frame (Touch.or_self _) .refl _ _ _).plane_eq rfl, (State.bumpFab_frame (Touch.or_self _) .refl _ _).plane_eq rfl,
    State.plane_setPlane]

theorem State.get_planeJoin (s : State) (p : Nat) : Tab.get 0 (s.planeJoin p).fab.ctr 13 = Tab.get 0 s.fab.ctr 13 + 1 := by
  unfold State.planeJoin
  rw [(State.raise_frame (Touch.or_self _) .refl _ _ _).fabCtr rfl, State.get_bumpFab_same,
    (State.setPlane_frame (Touch.or_self _) .refl _ _).fabCtr rfl]

theorem planeSwitchoverDone_ends (h : (List.range 5).find? (fun p => (s.plane p).switching) = some p) :
    Ends .planeSwitchoverDone s (fun t => (t.plane p).state = .active ∧ (t.plane p).switching = false
      ∧ Tab.get 0 t.fab.ctr 13 = Tab.get 0 s.fab.ctr 13 + 1 ∧ ∀ q, q ≠ p → t.plane q = s.plane q) := by
  refine ends_of_exec (t := s.planeJoin p) ?_ ?_
  · show execPlaneSwitchoverDone s = _
    rw [execPlaneSwitchoverDone, h]
  · rw [State.plane_planeJoin, if_pos rfl]
    exact ⟨rfl, rfl, s.get_planeJoin p, fun q hq => by rw [State.plane_planeJoin, if_neg (Ne.symm hq)]⟩

/-- A test loss of a standby that is not joining, by whether another lies within 1 ms before it. -/
theorem standbyTestLoss_exec (hp : p < 5) (hs : (s.plane p).state = .standby) (hw : (s.plane p).switching = false) :
    exec (.standbyTestLoss p) s
      = .next (if ((s.plane p).testLoss.filter (fun t => decide (s.upNs ≤ t + 1000000))).isEmpty then
          (s.bumpFab 14 1).updPlane p (fun x => { x with testLoss := [s.upNs] })
        else (((s.bumpFab 14 1).setPlane p (fun x => x.fail 3)).repairAdd 0 p).raise 0x0603 sevWarning (le 1 p)) := by
  show execStandbyTestLoss p s = _
  rw [execStandbyTestLoss, if_neg (by omega)]
  dsimp only
  rw [if_neg (by simp [hs]), if_neg (by simp [hs, hw])]
  split <;> rfl

theorem standbyTestLoss_ends_first (hp : p < 5) (hs : (s.plane p).state = .standby) (hw : (s.plane p).switching = false)
    (hl : (s.plane p).testLoss = []) :
    Ends (.standbyTestLoss p) s (fun t => t.plane p = { s.plane p with testLoss := [s.upNs] }) := by
  refine ends_of_exec (standbyTestLoss_exec hp hs hw) ?_
  rw [if_pos (by rw [hl]; rfl), State.plane_updPlane_same]
  rfl

theorem standbyTestLoss_ends_second {x : Nat} (hp : p < 5) (hs : (s.plane p).state = .standby)
    (hw : (s.plane p).switching = false) (hx : x ∈ (s.plane p).testLoss) (hn : s.upNs ≤ x + 1000000) :
    Ends (.standbyTestLoss p) s (fun t => (t.plane p).state = .failed ∧ (t.plane p).cause = 3 ∧ (0, p) ∈ t.pwr.repairLog) := by
  have hnear : x ∈ (s.plane p).testLoss.filter (fun t => decide (s.upNs ≤ t + 1000000)) :=
    List.mem_filter.mpr ⟨hx, decide_eq_true hn⟩
  refine ends_of_exec (standbyTestLoss_exec hp hs hw) ?_
  rw [if_neg (by rw [List.isEmpty_iff]; exact List.ne_nil_of_mem hnear), (State.raise_frame (Touch.or_self _) .refl _ _ _).plane_eq rfl,
    (State.raise_frame (Touch.or_self _) .refl _ _ _).repairLog rfl, (State.repairAdd_frame (Touch.or_self _) .refl _ _).plane_eq rfl,
    State.plane_setPlane_same]
  exact ⟨rfl, rfl, State.mem_repairAdd _ 0 p⟩

/-- The end of a plane's self-test: the plane and the repair record as `f` leaves them, and the answer of its command. -/
theorem planeResyncDone_exec (pass : Bool) (hp : p < 5) (h : (s.plane p).state = .resync) :
    ∃ t, exec (.planeResyncDone p pass) s = .next t ∧ Frame .mail (if pass then
        (s.setPlane p (fun x => { x with state := .standby, cause := 0, testLoss := [], giveUps := [] })).repairDel 0 p
      else s.setPlane p (fun x => x.fail 3)) t := by
  have hexec : exec (.planeResyncDone p pass) s = execPlaneResyncDone p pass s := rfl
  rw [hexec, execPlaneResyncDone, if_neg (by omega), if_neg (by simp [h])]
  refine ⟨_, rfl, ?_⟩
  generalize (if pass then _ else _ : State) = t
  cases t.planeJob p with
  | some j => exact State.complete_frame (Touch.or_self _) .refl _ _ _
  | none => exact .refl

theorem planeResyncDone_ends_pass (hp : p < 5) (h : (s.plane p).state = .resync) :
    Ends (.planeResyncDone p true) s (fun t => (t.plane p).state = .standby ∧ (t.plane p).cause = 0
      ∧ (0, p) ∉ t.pwr.repairLog ∧ ∀ q, q ≠ p → t.plane q = s.plane q) := by
  obtain ⟨t, hexec, hframe⟩ := planeResyncDone_exec true hp h
  refine ends_of_exec hexec ?_
  rw [if_pos rfl] at hframe
  rw [hframe.plane_eq rfl, hframe.repairLog rfl, (State.repairDel_frame (Touch.or_self _) .refl _ _).plane_eq rfl,
    State.plane_setPlane_same]
  exact ⟨rfl, rfl, State.not_mem_repairDel _ 0 p, fun q hq => State.plane_setPlane_other s _ hq⟩

theorem planeResyncDone_ends_fail (hp : p < 5) (h : (s.plane p).state = .resync) :
    Ends (.planeResyncDone p false) s (fun t => (t.plane p).state = .failed ∧ (t.plane p).cause = 3) := by
  obtain ⟨t, hexec, hframe⟩ := planeResyncDone_exec false hp h
  refine ends_of_exec hexec ?_
  rw [if_neg (by decide)] at hframe
  rw [hframe.plane_eq rfl, State.plane_setPlane_same]
  exact ⟨rfl, rfl⟩

end

/-- Settles O48: each row changes its plane through `setPlane`, `failPlane` or `planeJoin`, and each operation's rule says what it
leaves of the planes. -/
theorem planeRows : Obligations.PlaneRows := by
  unfold Obligations.PlaneRows
  refine ⟨fun s p cause hp hc => ⟨fun h => ?idle, planeFault_ends hp hc⟩,
    fun s => ⟨fun h => ?still, fun p => planeSwitchoverDone_ends⟩,
    fun s p hp hs hw => ⟨standbyTestLoss_ends_first hp hs hw, fun x => standbyTestLoss_ends_second hp hs hw⟩,
    fun s p hp h => ⟨planeResyncDone_ends_pass hp h, planeResyncDone_ends_fail hp h⟩⟩
  case idle => exact (planeFault_exec hp hc).trans (by rw [if_neg h])
  case still =>
    show execPlaneSwitchoverDone s = _
    rw [execPlaneSwitchoverDone, h]

end Sys2Proof.Machine
end

section
/-! PROOF. The fabric commands (R183): a port setting is read back class by class, a plane is taken out by its failure or starts its
resynchronisation, and the reads answer from what mail does not move. -/

namespace Sys2Proof.Machine

section

variable {s u : State} {op : Nat} {p : List Byte}

theorem fab_of_written (h : u = (s.shadow op p).mailed u) : u.fab = s.fab := (congrArg State.fab h).trans rfl

theorem fab_of_mailed (h : u = s.mailed u) : u.fab = s.fab := (congrArg State.fab h).trans rfl

theorem fabPort_of_written (h : u = (s.shadow op p).mailed u) : u.fabPort = s.fabPort := by
  unfold State.fabPort; rw [fab_of_written h]

theorem fabPort_of_mailed (h : u = s.mailed u) : u.fabPort = s.fabPort := by
  unfold State.fabPort; rw [fab_of_mailed h]

theorem plane_of_mailed (h : u = s.mailed u) : u.plane = s.plane := by
  unfold State.plane; rw [fab_of_mailed h]

theorem planesAfter_of_mailed (h : u = s.mailed u) : u.planesAfter = s.planesAfter := by
  unfold State.planesAfter State.activePlanes; rw [plane_of_mailed h]

theorem checkFabSetPort_mailed (p : List Byte) (s u : State) : checkFabSetPort p (s.mailed u) = checkFabSetPort p s := rfl

theorem applyFabSetPort_mbx (p : List Byte) (s : State) : (applyFabSetPort p s).mbx = s.mbx :=
  foldl_read State.mbx (f := fun t c => State.updFabPort t (rd p 0 2) c (fun f =>
    { f with express := bit (rd p 3 1) 0, quantum := rd p 4 4, window := rd p 8 4 })) (fun _ _ _ => rfl) s

theorem applyFabSetPort_fabPort (p : List Byte) (s : State) {c : Nat} (hc : c < 8) :
    (applyFabSetPort p s).fabPort (rd p 0 2) c = if bit (rd p 2 1) c = true then
        { s.fabPort (rd p 0 2) c with express := bit (rd p 3 1) 0, quantum := rd p 4 4, window := rd p 8 4 }
      else s.fabPort (rd p 0 2) c :=
  (foldl_changes (read := fun s => s.fabPort (rd p 0 2))
    (f := fun f => { f with express := bit (rd p 3 1) 0, quantum := rd p 4 4, window := rd p 8 4 })
    (fun s i j => (s.fabPort_updFabPort (rd p 0 2) i (rd p 0 2) j _).trans (if_congr (by omega) rfl rfl)) (fun _ => rfl)
    (bitList 8 (rd p 2 1)) s c).trans (if_congr (by simp [mem_bitList, hc]) rfl rfl)

end

/-! ### FAB_SET_PLANE -/

section

variable {r : Req} {s : State}

theorem fabSetPlaneBody_out (hp : rd r.payload 0 1 < 5) (ha : rd r.payload 1 1 = 0) (hr : resv r.payload 2 2 = true)
    (hs : (s.plane (rd r.payload 0 1)).state = .active) (hn : 2 ≤ s.planesAfter) :
    fabSetPlaneBody r s = (s.failPlane (rd r.payload 0 1) 4, some (Resp.ok [])) := by
  unfold fabSetPlaneBody
  dsimp only
  rw [if_neg (by simp [hp, ha, hr]), if_pos ha, if_neg (by simp [hs]), if_neg (by omega)]
  rfl

theorem fabSetPlaneBody_resync (hp : rd r.payload 0 1 < 5) (ha : rd r.payload 1 1 = 1) (hr : resv r.payload 2 2 = true)
    (hs : (s.plane (rd r.payload 0 1)).state = .failed) :
    fabSetPlaneBody r s = (s.setPlane (rd r.payload 0 1) (fun x => { x with state := .resync }), none) := by
  unfold fabSetPlaneBody
  dsimp only
  rw [if_neg (by simp [hp, ha, hr]), if_neg (by omega), if_neg (by simp [hs])]

end

/-- Taking a plane out answers at once: the plane has failed by command, cause 4 (log entry 80). -/
theorem fabSetPlane_does : Does 0x0605 .fabSetPlane (fun r s => rd r.payload 0 1 < 5 ∧ rd r.payload 1 1 = 0
      ∧ resv r.payload 2 2 = true ∧ (s.plane (rd r.payload 0 1)).state = .active ∧ 2 ≤ s.planesAfter)
    (fun _ _ => []) (fun r _ t => (t.plane (rd r.payload 0 1)).state = .failed ∧ (t.plane (rd r.payload 0 1)).cause = 4) := by
  refine does_of (body := fabSetPlaneBody) (fun r u => u.failPlane (rd r.payload 0 1) 4) (fun _ _ => rfl)
    (fun r s u _ _ hu ⟨hp, ha, hr, hs, hn⟩ => ?_)
  rw [← plane_of_mailed hu] at hs
  rw [← planesAfter_of_mailed hu] at hn
  refine ⟨fabSetPlaneBody_out hp ha hr hs hn, (State.failPlane_frame (Touch.or_self _) .refl _ _).mbx rfl, fun t ht => ?_⟩
  rw [plane_of_mailed ht, State.plane_failPlane_same 4 hs]
  exact ⟨rfl, rfl⟩

theorem fabSetPlane_starts : Starts 0x0605 .fabSetPlane (fun r s => rd r.payload 0 1 < 5 ∧ rd r.payload 1 1 = 1
      ∧ resv r.payload 2 2 = true ∧ (s.plane (rd r.payload 0 1)).state = .failed)
    (fun r s t => (t.plane (rd r.payload 0 1)).state = .resync ∧ ∀ k, k ≠ rd r.payload 0 1 → t.plane k = s.plane k) := by
  refine starts_of (body := fabSetPlaneBody) (fun r u => u.setPlane (rd r.payload 0 1) (fun x => { x with state := .resync }))
    (fun _ _ => rfl) (fun r s u _ _ hu ⟨hp, ha, hr, hs⟩ => ?_)
  rw [← plane_of_mailed hu] at hs
  refine ⟨fabSetPlaneBody_resync hp ha hr hs, (State.setPlane_frame (Touch.or_self _) .refl _ _).mbx rfl, fun t ht => ?_⟩
  rw [plane_of_mailed ht, State.plane_setPlane_same]
  exact ⟨rfl, fun k hk => by rw [State.plane_setPlane_other _ _ hk, plane_of_mailed hu]⟩

/-- Settles O23: a port setting changes the classes it names, and FAB_SET_PLANE ends in `failPlane` or starts with `setPlane`. -/
theorem fabricCommands : Obligations.FabricCommands := by
  unfold Obligations.FabricCommands
  refine ⟨?port, ?status, ?pair, fabSetPlane_does, fabSetPlane_starts, ?counters⟩
  case port =>
    refine carried_of (fun _ _ => rfl) (fun p s u hu hok => by rw [hu, checkFabSetPort_mailed]; exact hok) applyFabSetPort_mbx
      (fun p s u t hu ht _ c hc => ?_)
    rw [fabPort_of_written ht, applyFabSetPort_fabPort p u hc, fabPort_of_mailed hu]
  case status =>
    exact answered_of (body := fabGetStatusBody) (fun _ _ => rfl) (fun r s u _ _ hu _ => by rw [hu]; rfl)
  case pair =>
    refine answered_of (body := fabGetPairBody) (fun _ _ => rfl) (fun r s u _ _ hu hok => ?_)
    unfold fabGetPairBody readCmd
    dsimp only
    rw [if_pos hok, hu]
    rfl
  case counters =>
    exact answered_of (body := fabGetCountersBody) (fun _ _ => rfl) (fun r s u _ _ hu _ => by rw [hu]; rfl)

end Sys2Proof.Machine
end

section
/-! PROOF. Requests, grants and credit of the VOQs (R163 to R166, R187 to R192): what DWRR picks, what a grant decision leaves of the
nodes, and where credit goes. -/

namespace Sys2Proof.Machine

/-! ### Rows about a VOQ -/

section

variable {s t : State} {sl v : Nat} {i : Instr} {post : State → Prop}

theorem ends_of_onVoq (hv : voqExists sl v = true) (he : exec i s = onVoq sl v t) (h : post t) : Ends i s post :=
  ends_of_exec (he.trans (if_pos hv)) h

theorem idles_of_onVoq (hv : voqExists sl v = true) (he : exec i s = onVoq sl v t) (h : t = s) : Idles i s := by
  rw [h] at he
  exact he.trans (if_pos hv)

end

/-! ### Credit that goes back (R166) -/

/-- Of the balance, no more than `keep` stays; what is beyond is on its way back. -/
def Voq.keeps (q : Voq) (keep : Nat) : Voq :=
  { q with credit := min q.credit keep, returning := q.returning + (q.credit - keep).toNat }

theorem State.voq_returnCredit (s : State) (sl v keep : Nat) : (s.returnCredit sl v keep).voq sl v = (s.voq sl v).keeps keep := by
  unfold State.returnCredit Voq.keeps
  dsimp only
  split
  · next h =>
    have hmin : min (s.voq sl v).credit (keep : Int) = (s.voq sl v).credit := by omega
    rw [h, hmin, Nat.add_zero]
  · next h =>
    have hmin : (s.voq sl v).credit - (((s.voq sl v).credit - keep).toNat : Int) = min (s.voq sl v).credit (keep : Int) := by omega
    rw [(State.bumpFabAt_frame (Touch.or_self _) .refl _ _ _).voq_eq rfl, State.voq_updVoq_same, hmin]

theorem State.voq_standBy {s : State} {sl v : Nat} (h : (s.voq sl v).q = []) :
    (s.standBy sl v).voq sl v = Voq.keeps { s.voq sl v with heldAt := s.upNs } (s.quantum v) := by
  unfold State.standBy
  rw [if_pos (by rw [h]; rfl), State.voq_returnCredit, State.voq_updVoq_same]

theorem State.voq_giveStanding {s : State} {sl v : Nat} (h : (s.voq sl v).q = []) :
    (s.giveStanding sl v).voq sl v = (s.voq sl v).keeps 0 := by
  unfold State.giveStanding
  rw [if_pos (by rw [h]; rfl), State.voq_returnCredit]

theorem State.giveStanding_of_held {s : State} {sl v : Nat} (h : (s.voq sl v).q ≠ []) : s.giveStanding sl v = s := by
  unfold State.giveStanding
  rw [if_neg (by simpa using h)]

/-! ### The row of a received grant (R163, R164) -/

/-- The state in which a received grant has been added to the balance. -/
def State.grantTaken (s : State) (sl v : Nat) : State := s.updVoq sl v Voq.takeGrant

theorem State.voq_grantTaken (s : State) (sl v : Nat) : (s.grantTaken sl v).voq sl v = (s.voq sl v).takeGrant :=
  s.voq_updVoq_same sl v _

theorem State.startFrames_single {s : State} {sl v id : Nat} (h : (s.voq sl v).q = [id]) : s.startFrames sl v = s.startOne sl v := by
  unfold State.startFrames
  rw [h]
  rfl

/-- A whole frame that is the last of its VOQ starts on a positive balance: it is queued on its pair, and the VOQ stands by. -/
theorem State.startOne_last {s : State} {sl v id : Nat} (h : (s.voq sl v).q = [id]) (hw : (s.pkt id).whole = true)
    (hc : 0 < (s.voq sl v).credit) : s.startOne sl v
      = ((s.updVoq sl v (fun q => { q with q := [], credit := q.credit - (s.pkt id).len })).updPair sl (portSlice (voqPort v))
        (fun p => { p with sending := p.sending ++ [{ pkt := id, next := 0, multi := false }] })).standBy sl v := by
  unfold State.startOne
  rw [h]
  dsimp only
  rw [if_pos ⟨hc, by simp [State.mayStart, hw]⟩]

section

variable {s : State} {sl v : Nat}

theorem voqRequest_exec (hv : voqExists sl v = true) : exec (.voqRequest sl v) s
    = .next (if (s.voq sl v).fresh || decide (s.quantum v ≤ (s.voq sl v).unreq) then s.updVoq sl v Voq.request else s) :=
  if_pos hv

theorem voqRequest_ends (hv : voqExists sl v = true) (h : (s.voq sl v).fresh = true ∨ s.quantum v ≤ (s.voq sl v).unreq) :
    Ends (.voqRequest sl v) s (fun t => t.voq sl v
      = { s.voq sl v with reqAtEgress := (s.voq sl v).reqAtEgress + (s.voq sl v).unreq, unreq := 0, fresh := false }) := by
  refine ends_of_exec ((voqRequest_exec hv).trans (by rw [if_pos (by simpa using h)])) ?_
  rw [State.voq_updVoq_same]
  rfl

theorem voqRequest_idles (hv : voqExists sl v = true) (hf : (s.voq sl v).fresh = false) (hu : (s.voq sl v).unreq < s.quantum v) :
    Idles (.voqRequest sl v) s :=
  (voqRequest_exec hv).trans (by rw [if_neg (by simp [hf, hu])])

theorem grantReceived_exec (hv : voqExists sl v = true) : exec (.grantReceived sl v) s
    = .next (if ((s.grantTaken sl v).voq sl v).q.isEmpty then
        (if (s.voq sl v).stands then (s.grantTaken sl v).returnCredit sl v (s.quantum v) else (s.grantTaken sl v).standBy sl v)
      else (s.grantTaken sl v).startFrames sl v) :=
  if_pos hv

/-- An empty VOQ keeps at most a quantum of a grant. -/
theorem grantReceived_ends_empty (hv : voqExists sl v = true) (hq : (s.voq sl v).q = []) :
    Ends (.grantReceived sl v) s (fun t => (t.voq sl v).received = (s.voq sl v).granted
      ∧ (t.voq sl v).credit
        = min ((s.voq sl v).credit + (((s.voq sl v).granted + 2 ^ 32 - (s.voq sl v).received) % 2 ^ 32 : Nat)) (s.quantum v)
      ∧ (t.voq sl v).returning = (s.voq sl v).returning
        + ((s.voq sl v).credit + (((s.voq sl v).granted + 2 ^ 32 - (s.voq sl v).received) % 2 ^ 32 : Nat) - s.quantum v).toNat) := by
  have hempty : ((s.grantTaken sl v).voq sl v).q = [] := by rw [State.voq_grantTaken]; exact hq
  refine ends_of_exec (grantReceived_exec hv) ?_
  rw [if_pos (List.isEmpty_iff.mpr hempty)]
  split
  · rw [State.voq_returnCredit, State.voq_grantTaken]
    exact ⟨rfl, rfl, rfl⟩
  · rw [State.voq_standBy hempty, State.voq_grantTaken]
    exact ⟨rfl, rfl, rfl⟩

/-- The only frame of a VOQ starts on a grant that makes the balance positive. -/
theorem grantReceived_ends_start {id : Nat} (hv : voqExists sl v = true) (hq : (s.voq sl v).q = [id])
    (hw : (s.pkt id).whole = true)
    (hc : 0 < (s.voq sl v).credit + (((s.voq sl v).granted + 2 ^ 32 - (s.voq sl v).received) % 2 ^ 32 : Nat)) :
    Ends (.grantReceived sl v) s (fun t => (t.voq sl v).q = []
      ∧ (t.voq sl v).credit = min ((s.voq sl v).credit
          + (((s.voq sl v).granted + 2 ^ 32 - (s.voq sl v).received) % 2 ^ 32 : Nat) - (s.pkt id).len) (s.quantum v)
      ∧ (t.pair sl (portSlice (voqPort v))).sending
        = (s.pair sl (portSlice (voqPort v))).sending ++ [{ pkt := id, next := 0, multi := false }]) := by
  have hone : ((s.grantTaken sl v).voq sl v).q = [id] := by rw [State.voq_grantTaken]; exact hq
  have hpos : 0 < ((s.grantTaken sl v).voq sl v).credit := by rw [State.voq_grantTaken]; exact hc
  refine ends_of_exec (grantReceived_exec hv) ?_
  rw [if_neg (by simp [hone]), State.startFrames_single hone, State.startOne_last hone hw hpos,
    (State.standBy_frame (Touch.or_self _) .refl _ _).pair_eq rfl, State.pair_updPair_same, State.voq_standBy (by simp),
    (State.updPair_frame (Touch.or_self _) .refl _ _ _).voq_eq rfl, State.voq_updVoq_same, State.voq_grantTaken]
  exact ⟨rfl, rfl, rfl⟩

/-! ### Standing credit (R166) -/

theorem standingCreditTimeout_ends (hv : voqExists sl v = true) (hq : (s.voq sl v).q = []) :
    Ends (.standingCreditTimeout sl v) s (fun t => (t.voq sl v).credit = min (s.voq sl v).credit 0
      ∧ (t.voq sl v).returning = (s.voq sl v).returning + (s.voq sl v).credit.toNat) := by
  refine ends_of_onVoq hv rfl ?_
  rw [State.voq_giveStanding hq]
  exact ⟨rfl, by simp [Voq.keeps]⟩

theorem standingCreditTimeout_idles (hv : voqExists sl v = true) (hq : (s.voq sl v).q ≠ []) : Idles (.standingCreditTimeout sl v) s :=
  idles_of_onVoq hv rfl (State.giveStanding_of_held hq)

/-- Only standing credit is recalled, which is positive. -/
theorem State.credit_pos_of_recalls (h : s.recalls sl v = true) : 0 < (s.voq sl v).credit := by
  unfold State.recalls Voq.stands at h
  simp only [Bool.and_eq_true, decide_eq_true_eq] at h
  exact h.1.1.1.2

theorem creditRecall_ends (hv : voqExists sl v = true) (hq : (s.voq sl v).q = []) (h : s.recalls sl v = true) :
    Ends (.creditRecall sl v) s (fun t => (t.voq sl v).credit = 0
      ∧ (t.voq sl v).returning = (s.voq sl v).returning + (s.voq sl v).credit.toNat) := by
  have hpos := State.credit_pos_of_recalls h
  refine ends_of_onVoq hv rfl ?_
  rw [if_pos h, State.voq_giveStanding hq]
  exact ⟨min_eq_right hpos.le, by simp [Voq.keeps]⟩

theorem creditRecall_idles (hv : voqExists sl v = true) (h : s.recalls sl v = false) : Idles (.creditRecall sl v) s :=
  idles_of_onVoq hv rfl (if_neg (by simp [h]))

theorem creditRecall_idles_held (hv : voqExists sl v = true) (hq : (s.voq sl v).q ≠ []) : Idles (.creditRecall sl v) s :=
  idles_of_onVoq hv rfl (by rw [State.giveStanding_of_held hq, ite_self])

theorem creditReturnReceived_ends (hv : voqExists sl v = true) : Ends (.creditReturnReceived sl v) s (fun t =>
    t.voq sl v = { s.voq sl v with returning := 0 }
      ∧ (t.fabPort (voqPort v) (voqClass v)).outstanding
        = (s.fabPort (voqPort v) (voqClass v)).outstanding - (s.voq sl v).returning) := by
  refine ends_of_onVoq hv rfl ⟨?_, ?_⟩
  · rw [State.voq_updVoq_same, (State.matchCredit_frame (Touch.or_self _) .refl _ _ _).voq_eq rfl]
  · rw [(State.updVoq_frame (Touch.or_self _) .refl _ _ _).fabPort_eq rfl, State.matchCredit, State.fabPort_updFabPort_same]

end

/-! ### DWRR (R188, R190) -/

theorem Kid.lt_of_ok {kids : List Kid} {i : Nat} (h : (kids.getD i Kid.idle).ok = true) : i < kids.length := by
  by_contra hi
  rw [List.getD_eq_default _ _ (by omega)] at h
  exact absurd h (by decide)

/-- The pointer stops at an eligible child. -/
theorem ok_of_dwrrMove {kids : List Kid} {pr : Nat} {r : Nat × List Nat} : ∀ {n i : Nat} {defs : List Nat},
    dwrrMove kids pr n i defs = some r → (kids.getD r.1 Kid.idle).ok = true
  | 0, _, _, h => by simp [dwrrMove] at h
  | n + 1, i, defs, h => by
    unfold dwrrMove at h
    dsimp only at h
    split at h
    · next hk =>
      split at h
      · cases h
        exact ((Bool.and_eq_true _ _).mp hk).1
      · exact ok_of_dwrrMove h
    · exact ok_of_dwrrMove h

/-- A parent serves an eligible child, of a priority from 0 to 7. -/
theorem ok_of_dwrr {kids : List Kid} {ptrs : List Nat} {r : Nat × Nat × List Nat} (h : dwrr kids ptrs = some r) :
    (kids.getD r.1 Kid.idle).ok = true ∧ r.2.1 < 8 := by
  unfold dwrr at h
  cases htop : topPrio kids with
  | none => simp [htop] at h
  | some pr =>
    have hpr : pr < 8 := by
      have hmem := List.mem_of_find?_eq_some (show List.find? _ _ = some pr from htop)
      simp only [List.mem_cons, List.not_mem_nil, or_false] at hmem
      omega
    rw [htop] at h
    dsimp only at h
    split at h
    · next hk =>
      cases h
      exact ⟨hk.2.1, hpr⟩
    · obtain ⟨m, hm, rfl⟩ := Option.map_eq_some_iff.mp h
      exact ⟨ok_of_dwrrMove hm, hpr⟩

theorem lt_of_dwrr {f : Nat → Kid} {ptrs : List Nat} {r : Nat × Nat × List Nat} (h : dwrr ((List.range 8).map f) ptrs = some r) :
    r.1 < 8 ∧ r.2.1 < 8 := by
  obtain ⟨hok, hpr⟩ := ok_of_dwrr h
  have hlt := Kid.lt_of_ok hok
  rw [List.length_map, List.length_range] at hlt
  exact ⟨hlt, hpr⟩

/-- Where no child is eligible, none is served. -/
theorem dwrr_none {f : Nat → Kid} (ptrs : List Nat) (h : ∀ c, c < 8 → (f c).ok = false) : dwrr ((List.range 8).map f) ptrs = none := by
  have hkids : ∀ p : Nat, ((List.range 8).map f).any (fun k => k.ok && k.prio == p) = false := fun p => by
    rw [List.any_eq_false]
    intro k hk
    obtain ⟨c, hc, rfl⟩ := List.mem_map.mp hk
    simp [h c (List.mem_range.mp hc)]
  have htop : topPrio ((List.range 8).map f) = none :=
    List.find?_eq_none.mpr (fun p _ => by rw [hkids p]; decide)
  unfold dwrr
  rw [htop]

theorem getD_ptrSet (l : List Nat) {prio : Nat} (v : Nat) (h : prio < 8) : (ptrSet l prio v).getD prio 0 = v := by
  simp [ptrSet, List.getD_eq_getElem?_getD, h]

/-! ### What a grant decision leaves of the nodes (R190, R192) -/

/-- Each child takes its deficit, children having keys of their own. -/
theorem State.node_foldl_updNode {kid : Nat → Nat} (hk : Function.Injective kid) (f : Nat → Node → Node) (s : State) (n i : Nat) :
    ((List.range n).foldl (fun t i => t.updNode (kid i) (f i)) s).node (kid i)
      = if i < n then f i (s.node (kid i)) else s.node (kid i) := by
  induction n with
  | zero => rfl
  | succ n ih =>
    rw [List.range_succ, List.foldl_append, List.foldl_cons, List.foldl_nil, State.node_updNode]
    by_cases h : n = i
    · subst h
      rw [if_pos rfl, ih, if_neg (by omega), if_pos (by omega)]
    · rw [if_neg (fun e => h (hk e)), ih]
      exact if_congr (by omega) rfl rfl

theorem State.node_foldl_updNode_other {kid : Nat → Nat} {k n : Nat} (h : ∀ i, i < n → kid i ≠ k) (f : Nat → Node → Node) (s : State) :
    ((List.range n).foldl (fun t i => t.updNode (kid i) (f i)) s).node k = s.node k :=
  foldl_read (fun t : State => t.node k) (fun t i hi => by rw [State.node_updNode, if_neg (h i (List.mem_range.mp hi))]) s

section

variable {s : State} {parent : Nat} {kid : Nat → Nat} {r : Nat × Nat × List Nat}

theorem State.node_commitGr_kid (hk : Function.Injective kid) {i : Nat} (hi : i < 8) (hp : kid i ≠ parent) :
    (s.commitGr parent kid r).node (kid i) = { s.node (kid i) with grDef := r.2.2.getD i 0 } := by
  unfold State.commitGr
  dsimp only
  rw [State.node_updNode, if_neg (Ne.symm hp), State.node_foldl_updNode hk (fun i n => { n with grDef := r.2.2.getD i 0 }), if_pos hi]

theorem State.node_commitGr_parent (hp : ∀ i, i < 8 → kid i ≠ parent) :
    (s.commitGr parent kid r).node parent = { s.node parent with grPtr := ptrSet (s.node parent).grPtr r.2.1 (r.1 + 1) } := by
  unfold State.commitGr
  dsimp only
  rw [State.node_updNode, if_pos rfl, State.node_foldl_updNode_other hp (fun i n => { n with grDef := r.2.2.getD i 0 })]

theorem State.node_commitGr_other {n : Nat} (hk : ∀ i, i < 8 → kid i ≠ n) (hp : parent ≠ n) :
    (s.commitGr parent kid r).node n = s.node n := by
  unfold State.commitGr
  dsimp only
  rw [State.node_updNode, if_neg hp, State.node_foldl_updNode_other hk (fun i n => { n with grDef := r.2.2.getD i 0 })]

/-- The choice is a matter of the nodes. -/
theorem State.commitGr_read {β : Type} (g : State → β) (hg : ∀ t n f, g (State.updNode t n f) = g t) :
    g (s.commitGr parent kid r) = g s := by
  unfold State.commitGr
  dsimp only
  rw [hg]
  exact foldl_read g (fun t i _ => hg t _ _) s

end

theorem svcKey_injective (p : Nat) : Function.Injective (svcKey p) := fun a b h => by
  unfold svcKey at h
  omega

theorem tenKey_injective (p c : Nat) : Function.Injective (tenKey p c) := fun a b h => by
  unfold tenKey at h
  omega

theorem svcKey_ne_port {p : Nat} (hp : p < 512) (c : Nat) : svcKey p c ≠ p := by
  unfold svcKey
  omega

theorem tenKey_ne_port {p : Nat} (hp : p < 512) (c t : Nat) : tenKey p c t ≠ p := by
  unfold tenKey
  omega

theorem tenKey_ne_svcKey {p d : Nat} (hp : p < 512) (hd : d < 8) (c t : Nat) : tenKey p c t ≠ svcKey p d := by
  unfold tenKey svcKey
  omega

/-! ### One quantum is granted (R163) -/

section

variable {s : State} {p c t sl : Nat}

theorem State.grantTo_eq (h : s.nextSlice (voqNo p c t) (s.node (tenKey p c t)).rrSlice = some sl) : s.grantTo p c t
    = (((s.updVoq sl (voqNo p c t) (fun q => { q with granted := (q.granted + (s.fabPort p c).quantum) % 2 ^ 32,
                                                        reqAtEgress := q.reqAtEgress - (s.fabPort p c).quantum })).updNode
        (tenKey p c t) (fun x => { x with rrSlice := (sl + 1) % 16 })).updFabPort p c
        (fun f => { f with outstanding := f.outstanding + (s.fabPort p c).quantum })).bumpFabAt (portSlice p) 2 1 := by
  unfold State.grantTo
  dsimp only
  rw [h]

theorem State.voq_grantTo (h : s.nextSlice (voqNo p c t) (s.node (tenKey p c t)).rrSlice = some sl) :
    (s.grantTo p c t).voq sl (voqNo p c t) = { s.voq sl (voqNo p c t) with
      granted := ((s.voq sl (voqNo p c t)).granted + (s.fabPort p c).quantum) % 2 ^ 32
      reqAtEgress := (s.voq sl (voqNo p c t)).reqAtEgress - (s.fabPort p c).quantum } := by
  rw [State.grantTo_eq h, (State.bumpFabAt_frame (Touch.or_self _) .refl _ _ _).voq_eq rfl,
    (State.updFabPort_frame (Touch.or_self _) .refl _ _ _).voq_eq rfl, (State.updNode_frame (Touch.or_self _) .refl _ _).voq_eq rfl,
    State.voq_updVoq_same]

theorem State.fabPort_grantTo (h : s.nextSlice (voqNo p c t) (s.node (tenKey p c t)).rrSlice = some sl) :
    (s.grantTo p c t).fabPort p c
      = { s.fabPort p c with outstanding := (s.fabPort p c).outstanding + (s.fabPort p c).quantum } := by
  rw [State.grantTo_eq h, (State.bumpFabAt_frame (Touch.or_self _) .refl _ _ _).fabPort_eq rfl, State.fabPort_updFabPort_same,
    (State.updNode_frame (Touch.or_self _) .refl _ _).fabPort_eq rfl, (State.updVoq_frame (Touch.or_self _) .refl _ _ _).fabPort_eq rfl]

theorem State.node_grantTo (h : s.nextSlice (voqNo p c t) (s.node (tenKey p c t)).rrSlice = some sl) (n : Nat) :
    (s.grantTo p c t).node n = if tenKey p c t = n then { s.node n with rrSlice := (sl + 1) % 16 } else s.node n := by
  rw [State.grantTo_eq h, (State.bumpFabAt_frame (Touch.or_self _) .refl _ _ _).node_eq rfl,
    (State.updFabPort_frame (Touch.or_self _) .refl _ _ _).node_eq rfl, State.node_updNode,
    (State.updVoq_frame (Touch.or_self _) .refl _ _ _).node_eq rfl]
  split
  · next e => rw [e]
  · rfl

/-- Of the nodes, a grant moves one round-robin pointer alone. -/
theorem State.node_grantTo_sansRr (s : State) (p c t n : Nat) :
    ∃ k, (s.grantTo p c t).node n = { s.node n with rrSlice := k } := by
  cases h : s.nextSlice (voqNo p c t) (s.node (tenKey p c t)).rrSlice with
  | none =>
    refine ⟨(s.node n).rrSlice, ?_⟩
    unfold State.grantTo
    dsimp only
    rw [h]
  | some sl =>
    rw [State.node_grantTo h]
    split
    · exact ⟨_, rfl⟩
    · exact ⟨(s.node n).rrSlice, rfl⟩

end

/-! ### A tenant and a service node with nothing requested (R190) -/

/-- At a network port, a tenant node with no requested bytes loses its deficit, and its service node where none of its tenants has
any. -/
theorem State.node_grSettle {s : State} {p c t : Nat} (hp : p < 512) (hc : c < 8) (n : Nat) : (s.grSettle p c t).node n
    = if s.asked (voqNo p c t) = 0 ∧ (tenKey p c t = n
          ∨ svcKey p c = n ∧ (List.range 8).all (fun i => s.asked (voqNo p c i) == 0) = true)
      then { s.node n with grDef := 0 } else s.node n := by
  have hany : (List.range 8).any (fun i => s.asked (voqNo p c i) != 0)
      = !(List.range 8).all (fun i => s.asked (voqNo p c i) == 0) := by
    rw [List.not_all_eq_any_not]
    rfl
  have hkeys : tenKey p c t ≠ svcKey p c := tenKey_ne_svcKey hp hc c t
  unfold State.grSettle
  by_cases ha : s.asked (voqNo p c t) = 0
  · rw [if_neg (by omega)]
    dsimp only
    rw [hany]
    cases hall : (List.range 8).all (fun i => s.asked (voqNo p c i) == 0) with
    | false =>
      by_cases hn : tenKey p c t = n
      · subst hn; simp [ha]
      · simp [ha, hn]
    | true =>
      by_cases hn : tenKey p c t = n
      · subst hn; simp [ha, Ne.symm hkeys]
      · by_cases hm : svcKey p c = n
        · subst hm; simp [ha, hkeys]
        · simp [hn, hm]
  · rw [if_pos (.inr ha), if_neg (fun h => ha h.1)]

/-- A quantum granted, and what it leaves without requests settled. -/
def State.grantSettled (s : State) (p c t : Nat) : State := (s.grantTo p c t).grSettle p c t

theorem State.grSettle_read {β : Type} (g : State → β) (hg : ∀ t n f, g (State.updNode t n f) = g t) (s : State) (p c t : Nat) :
    g (s.grSettle p c t) = g s := by
  unfold State.grSettle
  split
  · rfl
  · dsimp only
    split
    · exact hg _ _ _
    · exact (hg _ _ _).trans (hg _ _ _)

section

variable {s : State} {p c t : Nat}

/-- The deficit of a node after a grant: 0 for the tenant node, and for its service node, where nothing is requested any more. -/
theorem State.grDef_grantSettled (hp : p < 512) (hc : c < 8) (n : Nat) : ((s.grantSettled p c t).node n).grDef
    = if (s.grantSettled p c t).asked (voqNo p c t) = 0 ∧ (tenKey p c t = n
          ∨ svcKey p c = n ∧ (List.range 8).all (fun i => (s.grantSettled p c t).asked (voqNo p c i) == 0) = true)
      then 0 else (s.node n).grDef := by
  have hasked : (s.grantSettled p c t).asked = (s.grantTo p c t).asked :=
    State.grSettle_read State.asked (fun _ _ _ => rfl) _ p c t
  obtain ⟨k, hk⟩ := s.node_grantTo_sansRr p c t n
  rw [hasked, State.grantSettled, State.node_grSettle hp hc, hk]
  split <;> rfl

theorem State.grDef_grantSettled_svc (hp : p < 512) (hc : c < 8) (ht : t < 8) {d : Nat} (hd : d < 8) :
    ((s.grantSettled p c t).node (svcKey p d)).grDef
      = if d = c ∧ (List.range 8).all (fun i => (s.grantSettled p c t).asked (voqNo p d i) == 0) = true then 0
        else (s.node (svcKey p d)).grDef := by
  rw [State.grDef_grantSettled hp hc]
  refine if_congr ⟨?_, ?_⟩ rfl rfl
  · rintro ⟨-, hten | ⟨hsvc, hall⟩⟩
    · exact absurd hten (tenKey_ne_svcKey hp hd c t)
    · have hcd := svcKey_injective p hsvc
      exact ⟨hcd.symm, hcd ▸ hall⟩
  · rintro ⟨rfl, hall⟩
    have hzero := List.all_eq_true.mp hall t (List.mem_range.mpr ht)
    exact ⟨beq_iff_eq.mp hzero, .inr ⟨rfl, hall⟩⟩

theorem State.grDef_grantSettled_ten (hp : p < 512) (hc : c < 8) (m : Nat) :
    ((s.grantSettled p c t).node (tenKey p c m)).grDef
      = if m = t ∧ (s.grantSettled p c t).asked (voqNo p c t) = 0 then 0 else (s.node (tenKey p c m)).grDef := by
  rw [State.grDef_grantSettled hp hc]
  refine if_congr ⟨?_, ?_⟩ rfl rfl
  · rintro ⟨hzero, hten | ⟨hsvc, -⟩⟩
    · exact ⟨(tenKey_injective p c hten).symm, hzero⟩
    · exact absurd hsvc.symm (tenKey_ne_svcKey hp hc c m)
  · rintro ⟨rfl, hzero⟩
    exact ⟨hzero, .inl rfl⟩

theorem State.grPtr_grantSettled (hp : p < 512) (hc : c < 8) (n : Nat) :
    ((s.grantSettled p c t).node n).grPtr = (s.node n).grPtr := by
  obtain ⟨k, hk⟩ := s.node_grantTo_sansRr p c t n
  rw [State.grantSettled, State.node_grSettle hp hc, hk]
  split <;> rfl

theorem State.rrSlice_grantSettled {sl : Nat} (hp : p < 512) (hc : c < 8)
    (h : s.nextSlice (voqNo p c t) (s.node (tenKey p c t)).rrSlice = some sl) :
    ((s.grantSettled p c t).node (tenKey p c t)).rrSlice = (sl + 1) % 16 := by
  rw [State.grantSettled, State.node_grSettle hp hc, State.node_grantTo h, if_pos rfl]
  split <;> rfl

end

/-! ### The choice of a network port -/

/-- The deficits and pointers of a port node and of the service node it picks, after the choice. -/
def State.grantChosen (s : State) (p : Nat) (r q : Nat × Nat × List Nat) : State :=
  (s.commitGr p (svcKey p) r).commitGr (svcKey p r.1) (tenKey p r.1) q

section

variable {s : State} {p : Nat} {r q : Nat × Nat × List Nat}

theorem State.grantChosen_read {β : Type} (g : State → β) (hg : ∀ t n f, g (State.updNode t n f) = g t) :
    g (s.grantChosen p r q) = g s :=
  (State.commitGr_read g hg).trans (State.commitGr_read g hg)

theorem State.grPtr_grantChosen_port (hp : p < 512) :
    ((s.grantChosen p r q).node p).grPtr = ptrSet (s.node p).grPtr r.2.1 (r.1 + 1) := by
  rw [State.grantChosen, State.node_commitGr_other (fun t _ => tenKey_ne_port hp r.1 t) (svcKey_ne_port hp r.1),
    State.node_commitGr_parent (fun c _ => svcKey_ne_port hp c)]

theorem State.grPtr_grantChosen_svc (hp : p < 512) (hr : r.1 < 8) :
    ((s.grantChosen p r q).node (svcKey p r.1)).grPtr = ptrSet (s.node (svcKey p r.1)).grPtr q.2.1 (q.1 + 1) := by
  rw [State.grantChosen, State.node_commitGr_parent (fun t _ => tenKey_ne_svcKey hp hr r.1 t),
    State.node_commitGr_kid (svcKey_injective p) hr (svcKey_ne_port hp r.1)]

theorem State.grDef_grantChosen_svc (hp : p < 512) (hr : r.1 < 8) {c : Nat} (hc : c < 8) :
    ((s.grantChosen p r q).node (svcKey p c)).grDef = r.2.2.getD c 0 := by
  have hkid := State.node_commitGr_kid (s := s) (r := r) (svcKey_injective p) hc (svcKey_ne_port hp c)
  by_cases h : r.1 = c
  · subst h
    rw [State.grantChosen, State.node_commitGr_parent (fun t _ => tenKey_ne_svcKey hp hr r.1 t), hkid]
  · rw [State.grantChosen,
      State.node_commitGr_other (fun t _ => tenKey_ne_svcKey hp hc r.1 t) (fun e => h (svcKey_injective p e)), hkid]

theorem State.node_grantChosen_ten (hp : p < 512) (hr : r.1 < 8) {m : Nat} (hm : m < 8) :
    (s.grantChosen p r q).node (tenKey p r.1 m) = { s.node (tenKey p r.1 m) with grDef := q.2.2.getD m 0 } := by
  rw [State.grantChosen, State.node_commitGr_kid (tenKey_injective p r.1) hm (tenKey_ne_svcKey hp hr r.1 m),
    State.node_commitGr_other (fun c hc => Ne.symm (tenKey_ne_svcKey hp hc r.1 m)) (Ne.symm (tenKey_ne_port hp r.1 m))]

theorem grantDecision_network (hp : p < 512) (hl : (s.node p).shaper.lets = true)
    (hr : dwrr ((List.range 8).map (s.svcGrant p)) (s.node p).grPtr = some r)
    (hq : dwrr ((List.range 8).map (s.tenGrant p r.1)) (s.node (svcKey p r.1)).grPtr = some q) :
    exec (.grantDecision p) s = .next ((s.grantChosen p r q).grantSettled p r.1 q.1) := by
  show execGrantDecision p s = _
  rw [execGrantDecision, if_neg (by omega), if_neg (by omega), State.grantNetwork, if_neg (by simp [hl]), hr]
  dsimp only
  rw [hq]
  rfl

theorem grantDecision_network_idles (hp : p < 512)
    (h : (s.node p).shaper.lets = false ∨ ∀ c, c < 8 → (s.svcGrant p c).ok = false) : Idles (.grantDecision p) s := by
  show execGrantDecision p s = _
  rw [execGrantDecision, if_neg (by omega), if_neg (by omega), State.grantNetwork]
  rcases h with hl | hok
  · rw [if_pos hl]
  · rw [dwrr_none _ hok]
    split <;> rfl

end

/-! ### The choice of a host port (R187) -/

section

variable {s : State} {p : Nat}

theorem grantDecision_host (hlo : 512 ≤ p) (hhi : p < 516) : exec (.grantDecision p) s = .next (s.grantHost p) := by
  show execGrantDecision p s = _
  rw [execGrantDecision, if_neg (by omega), if_pos hlo]

/-- Whether a VOQ asks does not depend on where the round robin begins. -/
theorem State.nextSlice_isSome {v i sl : Nat} (h : s.nextSlice v i = some sl) (j : Nat) : (s.nextSlice v j).isSome = true := by
  have hasks := List.find?_some (show List.find? _ _ = some sl from h)
  obtain ⟨k, -, hk⟩ := List.mem_map.mp (List.mem_of_find?_eq_some (show List.find? _ _ = some sl from h))
  refine List.find?_isSome.mpr ⟨sl, List.mem_map.mpr ⟨(sl + 16 - j % 16) % 16, List.mem_range.mpr (by omega), ?_⟩, hasks⟩
  omega

/-- The highest class is granted to where it asks within its window. -/
theorem State.grantHost_top {sl : Nat} (hl : (s.node p).shaper.lets = true) (hw : s.windowRoom p 7 = true)
    (h : s.nextSlice (voqNo p 7 0) (s.node (tenKey p 7 0)).rrSlice = some sl) : s.grantHost p = s.grantTo p 7 0 := by
  rw [State.grantHost, if_neg (by simp [hl]), List.find?_cons_of_pos (by rw [hw, State.nextSlice_isSome h 0]; rfl)]

theorem State.grantHost_full (h : ∀ c, s.windowRoom p c = false) : s.grantHost p = s := by
  rw [State.grantHost, List.find?_eq_none.mpr (fun c _ => by simp [h c])]
  split <;> rfl

end

/-- Settles O46: a grant decision ends in `grantTo` after the choice of `dwrr`, and credit that is not kept is on its way back. -/
theorem creditRows : Obligations.CreditRows := by
  unfold Obligations.CreditRows
  refine ⟨fun s sl v hv => ⟨voqRequest_ends hv, voqRequest_idles hv⟩, fun s p sl hlo hhi hl hw h => ?host,
    fun s p hlo hhi h => (grantDecision_host hlo hhi).trans (by rw [State.grantHost_full h]), fun s p => grantDecision_network_idles,
    ?network, fun s sl v hv => ⟨grantReceived_ends_empty hv, fun id => grantReceived_ends_start hv⟩,
    fun s sl v hv hq => ⟨standingCreditTimeout_ends hv hq, creditRecall_ends hv hq, creditRecall_idles hv⟩,
    fun s sl v hv hq => ⟨standingCreditTimeout_idles hv hq, creditRecall_idles_held hv hq⟩, fun s sl v => creditReturnReceived_ends⟩
  case host =>
    refine ends_of_exec (grantDecision_host hlo hhi) ?_
    rw [State.grantHost_top hl hw h, State.voq_grantTo h, State.fabPort_grantTo h, State.node_grantTo h, if_pos rfl]
    exact ⟨rfl, rfl, rfl⟩
  case network =>
    intro s p sl r q hp hl hr hq v h
    obtain ⟨hr8, hprio⟩ := lt_of_dwrr hr
    obtain ⟨hq8, hqprio⟩ := lt_of_dwrr hq
    have hnext : (s.grantChosen p r q).nextSlice v ((s.grantChosen p r q).node (tenKey p r.1 q.1)).rrSlice = some sl := by
      rw [State.grantChosen_read State.nextSlice (fun _ _ _ => rfl), State.node_grantChosen_ten hp hr8 hq8]
      exact h
    have hvoq : (s.grantChosen p r q).voq = s.voq := State.grantChosen_read State.voq (fun _ _ _ => rfl)
    have hport : (s.grantChosen p r q).fabPort = s.fabPort := State.grantChosen_read State.fabPort (fun _ _ _ => rfl)
    refine ends_of_exec (grantDecision_network hp hl hr hq) ⟨?_, ?_, State.rrSlice_grantSettled hp hr8 hnext, ?_, ?_, fun c hc => ?_,
      fun m hm => ?_⟩
    · rw [State.grantSettled, State.grSettle_read State.voq (fun _ _ _ => rfl), State.voq_grantTo hnext, hvoq, hport]
    · rw [State.grantSettled, State.grSettle_read State.fabPort (fun _ _ _ => rfl), State.fabPort_grantTo hnext, hport]
    · rw [State.grPtr_grantSettled hp hr8, State.grPtr_grantChosen_port hp, getD_ptrSet _ _ hprio]
    · rw [State.grPtr_grantSettled hp hr8, State.grPtr_grantChosen_svc hp hr8, getD_ptrSet _ _ hqprio]
    · rw [State.grDef_grantSettled_svc hp hr8 hq8 hc, State.grDef_grantChosen_svc hp hr8 hc]
    · rw [State.grDef_grantSettled_ten hp hr8, State.node_grantChosen_ten hp hr8 hm]

end Sys2Proof.Machine
end

section
/-! PROOF. Cells on the links (R168 to R178): sending, arrival, resends and give-ups, the gap of a pair and its release credits. -/

namespace Sys2Proof.Machine

theorem State.get_bumpFabAt (s : State) (sl i n k : Nat) : Tab.get 0 (s.bumpFabAt sl i n).fab.ctr k
    = if i = k then Tab.get 0 s.fab.ctr k + BitVec.ofNat 64 n else Tab.get 0 s.fab.ctr k :=
  s.get_bumpFab i n k

theorem State.get_bumpFabAt_same (s : State) (sl i : Nat) :
    Tab.get 0 (s.bumpFabAt sl i 1).fab.ctr i = Tab.get 0 s.fab.ctr i + 1 :=
  s.get_bumpFab_same i

/-! ### The first cell of a kind on the links -/

section

variable {f : LinkCell → Bool} {c : LinkCell}

theorem mem_mapFirst (g : LinkCell → List LinkCell) {x : LinkCell} (hx : x ∈ g c) :
    ∀ {l : List LinkCell}, l.find? f = some c → x ∈ mapFirst f g l
  | [], h => by simp at h
  | y :: l, h => by
    unfold mapFirst
    by_cases hy : f y = true
    · rw [List.find?_cons_of_pos hy] at h
      cases h
      rw [if_pos hy]
      exact List.mem_append_left _ hx
    · rw [List.find?_cons_of_neg hy] at h
      rw [if_neg hy]
      exact .tail _ (mem_mapFirst g hx h)

theorem length_mapFirst (g : LinkCell → List LinkCell) :
    ∀ {l : List LinkCell}, l.find? f = some c → (mapFirst f g l).length + 1 = l.length + (g c).length
  | [], h => by simp at h
  | y :: l, h => by
    unfold mapFirst
    by_cases hy : f y = true
    · rw [List.find?_cons_of_pos hy] at h
      cases h
      rw [if_pos hy, List.length_append, List.length_cons]
      omega
    · rw [List.find?_cons_of_neg hy] at h
      have ih := length_mapFirst g h
      rw [if_neg hy, List.length_cons, List.length_cons]
      omega

/-- A cell is replaced by one. -/
theorem State.mapLinks_one {s : State} (h : s.fab.links.find? f = some c) (g : LinkCell → LinkCell) :
    (s.mapLinks f (fun x => [g x])).fab.links.length = s.fab.links.length
      ∧ g c ∈ (s.mapLinks f (fun x => [g x])).fab.links := by
  have hlen := length_mapFirst (fun x => [g x]) h
  exact ⟨Nat.succ.inj hlen, mem_mapFirst (fun x => [g x]) (List.mem_singleton.mpr rfl) h⟩

/-- A cell leaves the links. -/
theorem State.mapLinks_none {s : State} (h : s.fab.links.find? f = some c) :
    (s.mapLinks f (fun _ => [])).fab.links.length + 1 = s.fab.links.length :=
  length_mapFirst (fun _ => []) h

end

/-! ### Resends and give-ups (R174) -/

section

variable {s : State} {n : Nat} {f : LinkCell → Bool} {c : LinkCell}

theorem State.resend_again (h : s.fab.links.find? f = some c) (hs : c.sends ≤ c.retries) (hb : s.upNs - c.since ≤ c.budgetNs) :
    s.resend n f = (s.mapLinks f (fun x => [{ x with sends := x.sends + 1, lost := false }])).bumpFabAt (n % 16) 6 1 := by
  unfold State.resend
  rw [h]
  dsimp only
  rw [if_pos ⟨hs, hb⟩]

theorem State.resend_over (h : s.fab.links.find? f = some c) (hc : c.retries < c.sends ∨ c.budgetNs < s.upNs - c.since) :
    s.resend n f = (s.mapLinks f (fun _ => [])).giveUp n := by
  unfold State.resend
  rw [h]
  dsimp only
  rw [if_neg (by omega)]

theorem State.get_giveUp (s : State) (n : Nat) : Tab.get 0 (s.giveUp n).fab.ctr 7 = Tab.get 0 s.fab.ctr 7 + 1 := by
  unfold State.giveUp
  dsimp only
  split
  · rw [(State.failPlane_frame (Touch.or_self _) .refl _ _).fabCtr rfl,
      (State.raiseLimited_frame (Touch.or_self _) .refl _ _ _ _ _).fabCtr rfl, State.get_bumpFabAt_same]
  · rw [(State.updPlane_frame (Touch.or_self _) .refl _ _).fabCtr rfl,
      (State.raiseLimited_frame (Touch.or_self _) .refl _ _ _ _ _).fabCtr rfl, State.get_bumpFabAt_same]

/-- Giving up puts no cell on the links. -/
theorem State.length_giveUp (s : State) (n : Nat) : (s.giveUp n).fab.links.length ≤ s.fab.links.length := by
  unfold State.giveUp
  dsimp only
  split
  · rw [State.links_failPlane, ((State.raiseLimited_frame (Touch.or_self _) .refl _ _ _ _ _).links rfl).1]
    exact List.length_filter_le _ _
  · rw [((State.updPlane_frame (Touch.or_self _) .refl _ _).links rfl).1,
      ((State.raiseLimited_frame (Touch.or_self _) .refl _ _ _ _ _).links rfl).1]
    exact le_refl _

/-- A row that resends a cell whose sends and budget are not used up. -/
theorem ends_of_resend_again {i : Instr} (he : exec i s = .next (s.resend n f)) (h : s.fab.links.find? f = some c)
    (hs : c.sends ≤ c.retries) (hb : s.upNs - c.since ≤ c.budgetNs) :
    Ends i s (fun t => { c with sends := c.sends + 1, lost := false } ∈ t.fab.links ∧ t.fab.links.length = s.fab.links.length
      ∧ Tab.get 0 t.fab.ctr 6 = Tab.get 0 s.fab.ctr 6 + 1) := by
  obtain ⟨hlen, hmem⟩ := State.mapLinks_one h (fun x => { x with sends := x.sends + 1, lost := false })
  refine ends_of_exec (he.trans (by rw [State.resend_again h hs hb])) ?_
  rw [State.get_bumpFabAt_same, ((State.bumpFabAt_frame (Touch.or_self _) .refl _ _ _).links rfl).1]
  exact ⟨hmem, hlen, rfl⟩

/-- A row that gives up a cell whose sends or budget are used up. -/
theorem ends_of_resend_over {i : Instr} (he : exec i s = .next (s.resend n f)) (h : s.fab.links.find? f = some c)
    (hc : c.retries < c.sends ∨ c.budgetNs < s.upNs - c.since) :
    Ends i s (fun t => Tab.get 0 t.fab.ctr 7 = Tab.get 0 s.fab.ctr 7 + 1 ∧ t.fab.links.length < s.fab.links.length) := by
  refine ends_of_exec (t := (s.mapLinks f (fun _ => [])).giveUp n) (he.trans (by rw [State.resend_over h hc]))
    ⟨State.get_giveUp _ n, ?_⟩
  have hle := State.length_giveUp (s.mapLinks f (fun _ => [])) n
  have hlen := State.mapLinks_none h
  omega

theorem linkNakReceived_exec (hn : n < 160) : exec (.linkNakReceived n) s = .next (s.resend n (fun c => c.link == n && c.lost)) :=
  if_pos (decide_eq_true hn)

theorem linkAckTimeout_exec (hn : n < 160) : exec (.linkAckTimeout n) s = .next (s.resend n (fun c => c.link == n)) :=
  if_pos (decide_eq_true hn)

end

/-! ### A cell is sent (R168, R170, R172) -/

section

variable {s : State} {sl d pl : Nat}

theorem State.startMulti_of_empty (h : ∀ c, c < 8 → Tab.get [] s.fab.multiQ (8 * sl + c) = []) : s.startMulti sl = s := by
  have hnone : [7, 6, 5, 4, 3, 2, 1, 0].find? (fun c => !(Tab.get [] s.fab.multiQ (8 * sl + c)).isEmpty) = none := by
    refine List.find?_eq_none.mpr (fun c hc => ?_)
    simp only [List.mem_cons, List.not_mem_nil, or_false] at hc
    rw [h c (by omega)]
    decide
  unfold State.startMulti
  rw [hnone]

/-- A pair that is ready has a packet whose cell goes next. -/
theorem State.nextSending_of_ready (h : (s.pairReady sl d).1 = true) : ∃ x, s.nextSending sl d = some x := by
  unfold State.pairReady at h
  cases hx : s.nextSending sl d with
  | none => rw [hx] at h; exact absurd h Bool.false_ne_true
  | some x => exact ⟨x, rfl⟩

/-- The cell that a packet on a pair sends next. -/
def State.cellOf (s : State) (sl d : Nat) (x : Sending) : Cell :=
  (s.pkt x.pkt).cell sl d (s.pair sl d).nextSeq x.next x.multi

/-- A cell on the link of a slice to a plane, sent for the first time (R174). -/
def State.onPlaneLink (s : State) (sl pl : Nat) (c : Cell) : LinkCell :=
  { cell := c, link := 32 * pl + sl, sends := 1, since := s.upNs, lost := false, num := s.fab.nextNum (32 * pl + sl),
    retries := s.fab.params.retries, budgetNs := s.fab.params.budgetNs }

/-- A pair has sent a cell, and `l` is left to send. -/
def Pair.sends (p : Pair) (c : Cell) (l : List Sending) : Pair :=
  { p with nextSeq := (p.nextSeq + 1) % 65536, out := p.out ++ [c], sending := l }

/-- What is left to send on a pair: the packet with its next cell ahead of the others, but for its last cell. -/
def State.leftToSend (s : State) (sl d : Nat) (x : Sending) : List Sending :=
  let rest := (s.pair sl d).sending.filter (fun y => y.pkt != x.pkt)
  if (s.cellOf sl d x).eop then rest else { x with next := x.next + 1 } :: rest

section

variable {x : Sending}

theorem State.pair_sendCell (h : s.nextSending sl d = some x) :
    (s.sendCell sl d pl).pair sl d = (s.pair sl d).sends (s.cellOf sl d x) (s.leftToSend sl d x) := by
  have hpairs : (s.sendCell sl d pl).fab.pairs
      = (s.updPair sl d (fun p => p.sends (s.cellOf sl d x) (s.leftToSend sl d x))).fab.pairs := by
    unfold State.sendCell
    rw [h]
    rfl
  rw [State.pair, hpairs]
  exact s.pair_updPair_same sl d (fun p => p.sends (s.cellOf sl d x) (s.leftToSend sl d x))

theorem State.links_sendCell (h : s.nextSending sl d = some x) :
    (s.sendCell sl d pl).fab.links = s.fab.links ++ [s.onPlaneLink sl pl (s.cellOf sl d x)] := by
  unfold State.sendCell
  rw [h]
  rfl

theorem State.get_sendCell (h : s.nextSending sl d = some x) :
    Tab.get 0 (s.sendCell sl d pl).fab.ctr 0 = Tab.get 0 s.fab.ctr 0 + 1 := by
  have hctr : (s.sendCell sl d pl).fab.ctr = (s.bumpFab 0 1).fab.ctr := by
    unfold State.sendCell
    rw [h]
    rfl
  rw [hctr, State.get_bumpFab_same]

end

/-- The first ready destination in the order of the round robin takes the turn. -/
theorem State.sendNext_sends (hd : (s.dstOrder sl).find? (fun d => (s.pairReady sl d).1 && (s.pairReady sl d).2) = some d)
    (hp : s.pickPlane sl = some pl) : (s.sendNext sl).fab = { (s.sendCell sl d pl).fab with
      rrDst := Tab.set 0 (s.sendCell sl d pl).fab.rrDst sl ((d + 1) % 16) } := by
  unfold State.sendNext
  rw [hd, hp]

theorem cellSend_ends (hsl : sl < 16) (hm : ∀ c, c < 8 → Tab.get [] s.fab.multiQ (8 * sl + c) = [])
    (hd : (s.dstOrder sl).find? (fun d => (s.pairReady sl d).1 && (s.pairReady sl d).2) = some d) (hp : s.pickPlane sl = some pl) :
    Ends (.cellSend sl) s (fun t => (t.pair sl d).nextSeq = ((s.pair sl d).nextSeq + 1) % 65536
      ∧ (∃ c : Cell, c.seq = (s.pair sl d).nextSeq ∧ c.src = sl ∧ c.dst = d ∧ (t.pair sl d).out = (s.pair sl d).out ++ [c]
        ∧ t.fab.links = s.fab.links ++ [s.onPlaneLink sl pl c])
      ∧ Tab.get 0 t.fab.ctr 0 = Tab.get 0 s.fab.ctr 0 + 1) := by
  have hready := List.find?_some hd
  obtain ⟨x, hx⟩ := State.nextSending_of_ready ((Bool.and_eq_true _ _).mp hready).1
  have hfab := State.sendNext_sends hd hp
  have hpair : (s.sendNext sl).pair sl d = (s.pair sl d).sends (s.cellOf sl d x) (s.leftToSend sl d x) := by
    rw [← State.pair_sendCell (pl := pl) hx, State.pair, hfab]
    rfl
  refine ends_of_exec (t := (s.sendNext sl).bumpFabAt sl 4 (b2n ((List.range 16).any (s.stalled sl)))) ?_ ?_
  · show execCellSend sl s = _
    rw [execCellSend, if_neg (by omega)]
    dsimp only
    rw [State.startMulti_of_empty hm]
  · rw [(State.bumpFabAt_frame (Touch.or_self _) .refl _ _ _).pair_eq rfl, hpair,
      ((State.bumpFabAt_frame (Touch.or_self _) .refl _ _ _).links rfl).1, State.get_bumpFabAt, if_neg (by decide), hfab]
    exact ⟨rfl, ⟨s.cellOf sl d x, rfl, rfl, rfl, rfl, State.links_sendCell hx⟩, State.get_sendCell hx⟩

end

/-! ### A cell arrives (R174, R176, R177) -/

section

variable {s : State} {n : Nat} {c : LinkCell}

/-- Of the cells on a link, one on its way. -/
def onWay (n : Nat) (x : LinkCell) : Bool := x.link == n && !x.lost

/-- A cell that goes on from its plane takes the next number of the link to its egress slice. -/
def State.goesOn (s : State) (n : Nat) (c x : LinkCell) : LinkCell :=
  { x with link := 32 * (n / 32) + 16 + c.cell.dst, sends := 1, since := s.upNs,
           num := s.fab.nextNum (32 * (n / 32) + 16 + c.cell.dst), retries := s.fab.params.retries, budgetNs := s.fab.params.budgetNs }

/-- The oldest cell on its way arrives bad, at its plane, or at its egress slice. -/
theorem cellArrived_exec (crcOk : Bool) (hn : n < 160) (h : s.fab.links.find? (onWay n) = some c) :
    exec (.cellArrived n crcOk) s
      = .next (if crcOk = false then s.mapLinks (onWay n) (fun x => [{ x with lost := true }])
        else if n % 32 < 16 then
          State.mapLinks { s with fab := s.fab.useNum (32 * (n / 32) + 16 + c.cell.dst) } (onWay n) (fun x => [s.goesOn n c x])
        else (s.mapLinks (onWay n) (fun _ => [])).reseq c.cell) := by
  have hexec : exec (.cellArrived n crcOk) s = execCellArrived n crcOk s := rfl
  unfold onWay at h
  rw [hexec, execCellArrived, if_neg (by simp [linkExists, hn])]
  dsimp only
  rw [h]
  dsimp only
  split
  · rfl
  · split <;> rfl

/-- How far a cell is from the expected one of its pair. -/
def Pair.offset (p : Pair) (c : Cell) : Nat := (c.seq + 65536 - p.expected) % 65536

/-- A cell ahead of the expected one is stored (R176). -/
theorem State.reseq_ahead {s : State} {c : Cell} (hlo : 0 < (s.pair c.src c.dst).offset c)
    (hhi : (s.pair c.src c.dst).offset c < 256) :
    s.reseq c = (s.updPair c.src c.dst (fun q => { q with stored := Tab.insert (c.seq % 256) c q.stored })).reseqGap c.src c.dst := by
  unfold Pair.offset at hlo hhi
  unfold State.reseq
  dsimp only
  rw [if_neg (by omega), if_pos (by omega)]

/-- Where cells wait, the gap of the pair is open from now on; nothing else of the pair changes but the time it opened (R177). -/
theorem State.pair_reseqGap {s : State} {a b : Nat} (h : (s.pair a b).stored ≠ []) :
    ∃ k, (s.reseqGap a b).pair a b = { s.pair a b with gapOpen := true, gapSince := k } := by
  unfold State.reseqGap
  dsimp only
  cases ho : (s.pair a b).gapOpen with
  | true =>
    refine ⟨(s.pair a b).gapSince, ?_⟩
    rw [if_neg (by simp), ← ho]
  | false =>
    refine ⟨s.upNs, ?_⟩
    rw [if_pos (by simp [h]), (State.bumpFabAt_frame (Touch.or_self _) .refl _ _ _).pair_eq rfl, State.pair_updPair_same]

theorem Tab.insert_ne_nil {α : Type} (k : Nat) (v : α) (t : Tab α) : Tab.insert k v t ≠ [] := fun h => by
  have hfind := Tab.find_insert k k v t
  rw [h, if_pos rfl] at hfind
  exact absurd hfind (by simp [Tab.find])

theorem cellArrived_ends_stored (hn : n < 160) (h : s.fab.links.find? (onWay n) = some c) (hdown : 16 ≤ n % 32)
    (hlo : 0 < (s.pair c.cell.src c.cell.dst).offset c.cell) (hhi : (s.pair c.cell.src c.cell.dst).offset c.cell < 256) :
    Ends (.cellArrived n true) s (fun t => t.fab.links.length + 1 = s.fab.links.length
      ∧ Tab.find (t.pair c.cell.src c.cell.dst).stored (c.cell.seq % 256) = some c.cell
      ∧ (t.pair c.cell.src c.cell.dst).gapOpen = true
      ∧ (t.pair c.cell.src c.cell.dst).expected = (s.pair c.cell.src c.cell.dst).expected) := by
  have hpair : (s.mapLinks (onWay n) (fun _ => [])).pair = s.pair :=
    (State.mapLinks_frame (Touch.or_self _) .refl _ _).pair_eq rfl
  refine ends_of_exec (cellArrived_exec true hn h) ?_
  rw [if_neg (by decide), if_neg (by omega), State.reseq_ahead (by rw [hpair]; exact hlo) (by rw [hpair]; exact hhi),
    ((State.reseqGap_frame (Touch.or_self _) .refl _ _).links rfl).1, ((State.updPair_frame (Touch.or_self _) .refl _ _ _).links rfl).1]
  obtain ⟨k, hk⟩ := State.pair_reseqGap (a := c.cell.src) (b := c.cell.dst)
    (s := (s.mapLinks (onWay n) (fun _ => [])).updPair c.cell.src c.cell.dst
      (fun q => { q with stored := Tab.insert (c.cell.seq % 256) c.cell q.stored }))
    (by rw [State.pair_updPair_same]; exact Tab.insert_ne_nil _ _ _)
  rw [hk, State.pair_updPair_same, hpair]
  exact ⟨State.mapLinks_none h, by rw [Tab.find_insert, if_pos rfl], rfl, rfl⟩

end

/-! ### A gap times out (R178) -/

/-- A pair but for the release credits on their way. -/
def Pair.sansDone (p : Pair) : Pair := { p with done := [] }

theorem Pair.fields_of_sansDone {p q : Pair} (h : p.sansDone = q.sansDone) :
    p.expected = q.expected ∧ p.stored = q.stored ∧ p.skipSop = q.skipSop ∧ p.gapOpen = q.gapOpen := by
  cases p
  cases q
  simp only [Pair.sansDone, Pair.mk.injEq] at h
  tauto

theorem State.sansDone_credit (s : State) (a b x y : Nat) (l : List Nat) :
    ((s.credit a b l).pair x y).sansDone = (s.pair x y).sansDone := by
  unfold State.credit
  rw [State.pair_updPair]
  split
  · next h =>
    have hxy : s.pair a b = s.pair x y := by unfold State.pair; rw [h]
    rw [hxy]
    rfl
  · rfl

theorem State.sansDone_egLeave (s : State) (k : Nat) (i : EgItem) (x y : Nat) :
    ((s.egLeave k i).pair x y).sansDone = (s.pair x y).sansDone := by
  have hset (l : List EgItem) : (s.setEgq k l).pair = s.pair := (State.setEgq_frame (Touch.or_self _) .refl k l).pair_eq rfl
  have hmatch (t : State) (p c n : Nat) : (t.matchCredit p c n).pair = t.pair :=
    (State.matchCredit_frame (Touch.or_self _) .refl p c n).pair_eq rfl
  unfold State.egLeave
  dsimp only
  split <;> split <;> simp only [State.sansDone_credit, hmatch, hset]

/-- The drop of a packet lost in a gap counts RESEQ_TIMEOUT (R178): a fabric counter of its own. -/
theorem State.get_countDrop_gap (s : State) (pk : Pkt) (eg : Nat) :
    Tab.get 0 (s.countDrop pk 25 eg).fab.ctr 10 = Tab.get 0 s.fab.ctr 10 := by
  have hreason : s.countReason pk 25 eg = s.bumpFabAt (portSlice eg) 11 1 := rfl
  unfold State.countDrop State.mirDrop
  rw [if_neg (by simp [mirrorable])]
  unfold State.countQuiet
  split
  · rw [(State.bumpMirAt_frame (Touch.or_self _) .refl _ _ _ _).fabCtr rfl]
  · rw [hreason, (State.bumpDrop_frame (Touch.or_self _) .refl _ _).fabCtr rfl, State.get_bumpFabAt, if_neg (by decide)]

/-- A packet lost in a gap is counted, matched and taken out of its egress queues; what those leave alone stands. -/
theorem State.gapDrop_read {β : Type} (g : State → β) (hcount : ∀ t pk eg, g (State.countDrop t pk 25 eg) = g t)
    (hmatch : ∀ t p c n, g (State.matchCredit t p c n) = g t) (hset : ∀ t k l, g (State.setEgq t k l) = g t)
    (hleave : ∀ t k i, g (State.egLeave t k i) = g t) (s : State) (dst : Nat) (c : Cell) : g (s.gapDrop dst c) = g s := by
  unfold State.gapDrop
  split
  · rfl
  · dsimp only
    split
    · rfl
    · rw [foldl_read g]
      · split
        · rw [hmatch, hcount]
        · rw [hcount]
      · intro t k _
        refine foldl_read g (fun u i _ => ?_) t
        split
        · exact hset _ _ _
        · exact hleave _ _ _

theorem State.sansDone_gapDrop (s : State) (dst : Nat) (c : Cell) (x y : Nat) :
    ((s.gapDrop dst c).pair x y).sansDone = (s.pair x y).sansDone :=
  State.gapDrop_read (fun t => (t.pair x y).sansDone)
    (fun t pk eg => by rw [(State.countDrop_frame (Touch.or_self _) .refl pk 25 eg).pair_eq rfl])
    (fun t p c n => by rw [(State.matchCredit_frame (Touch.or_self _) .refl p c n).pair_eq rfl])
    (fun t k l => by rw [(State.setEgq_frame (Touch.or_self _) .refl k l).pair_eq rfl])
    (fun t k i => t.sansDone_egLeave k i x y) s dst c

theorem State.get_gapDrop (s : State) (dst : Nat) (c : Cell) :
    Tab.get 0 (s.gapDrop dst c).fab.ctr 10 = Tab.get 0 s.fab.ctr 10 :=
  State.gapDrop_read (fun t => Tab.get 0 t.fab.ctr 10) State.get_countDrop_gap
    (fun t p c n => by rw [(State.matchCredit_frame (Touch.or_self _) .refl p c n).fabCtr rfl])
    (fun t k l => by rw [(State.setEgq_frame (Touch.or_self _) .refl k l).fabCtr rfl])
    (fun t k i => by rw [(State.egLeave_frame (Touch.or_self _) .refl k i).fabCtr rfl]) s dst c

/-- Nothing passes on from a pair with no cells stored, and no gap opens. -/
theorem State.reseqRelease_of_empty {s : State} {a b : Nat} (h : (s.pair a b).stored = []) : ∀ n, s.reseqRelease a b n = s
  | 0 => rfl
  | n + 1 => by
    unfold State.reseqRelease
    dsimp only
    rw [h]
    rfl

theorem State.reseqGap_of_empty {s : State} {a b : Nat} (h : (s.pair a b).stored = []) : s.reseqGap a b = s := by
  unfold State.reseqGap
  dsimp only
  rw [if_neg (by simp [h])]

section

variable {t : State} {a b : Nat}

/-- The lost packets of a pair with no cells stored are dropped and their credits return: no cell passes on. -/
theorem State.gapClosed_eq (l : List Cell) (m : List Nat) (h : (t.pair a b).stored = []) :
    (((l.foldl (fun t c => t.gapDrop b c) t).credit a b m).reseqRelease a b 256).reseqGap a b
        = (l.foldl (fun t c => t.gapDrop b c) t).credit a b m
      ∧ (((l.foldl (fun t c => t.gapDrop b c) t).credit a b m).pair a b).sansDone = (t.pair a b).sansDone := by
  have hkept : (((l.foldl (fun t c => t.gapDrop b c) t).credit a b m).pair a b).sansDone = (t.pair a b).sansDone :=
    (State.sansDone_credit _ a b a b m).trans
      (foldl_read (fun t : State => (t.pair a b).sansDone) (fun t c _ => t.sansDone_gapDrop b c a b) t)
  obtain ⟨-, hstored, -⟩ := Pair.fields_of_sansDone hkept
  rw [h] at hstored
  exact ⟨by rw [State.reseqRelease_of_empty hstored, State.reseqGap_of_empty hstored], hkept⟩

theorem State.sansDone_gapClosed (l : List Cell) (m : List Nat) (h : (t.pair a b).stored = []) :
    (((((l.foldl (fun t c => t.gapDrop b c) t).credit a b m).reseqRelease a b 256).reseqGap a b).pair a b).sansDone
      = (t.pair a b).sansDone := by
  obtain ⟨heq, hkept⟩ := State.gapClosed_eq l m h
  rw [heq, hkept]

theorem State.get_gapClosed (l : List Cell) (m : List Nat) (h : (t.pair a b).stored = []) :
    Tab.get 0 ((((l.foldl (fun t c => t.gapDrop b c) t).credit a b m).reseqRelease a b 256).reseqGap a b).fab.ctr 10
      = Tab.get 0 t.fab.ctr 10 := by
  rw [(State.gapClosed_eq l m h).1, (State.credit_frame (Touch.or_self _) .refl _ _ _).fabCtr rfl]
  exact foldl_read (fun t : State => Tab.get 0 t.fab.ctr 10) (fun t c _ => t.get_gapDrop b c) t

end

/-- Of a list without repetitions one element alone is mapped. -/
theorem filterMap_eq_singleton {α β : Type} {l : List α} {f : α → Option β} {a : α} {b : β} (hl : l.Nodup) (ha : a ∈ l)
    (hb : f a = some b) (hf : ∀ x ∈ l, x ≠ a → f x = none) : l.filterMap f = [b] := by
  obtain ⟨l₁, l₂, rfl⟩ := List.append_of_mem ha
  have hnot : a ∉ l₁ ++ l₂ := (List.nodup_cons.mp (List.nodup_middle.mp hl)).1
  have hnone (m : List α) (hm : ∀ x ∈ m, x ∈ l₁ ++ l₂) : m.filterMap f = [] :=
    List.filterMap_eq_nil_iff.mpr (fun x hx => hf x (by have := hm x hx; simp at this ⊢; tauto) (fun e => hnot (e ▸ hm x hx)))
  rw [List.filterMap_append, List.filterMap_cons_some hb, hnone l₁ (fun x => List.mem_append_left _),
    hnone l₂ (fun x => List.mem_append_right _)]
  rfl

section

variable {s : State} {a b : Nat} {p : Pair} {c : Cell}

/-- A cell that is stored alone waits at its offset. -/
theorem Pair.waiting_single (he : p.expected < 65536) (hs : p.stored = [(c.seq % 256, c)]) (ho : p.offset c < 256) :
    p.waiting = [(p.offset c, c)] := by
  have hkey (o : Nat) (hlt : o < 256) : (c.seq % 256 = (p.expected + o) % 256) ↔ o = p.offset c := by
    unfold Pair.offset at ho ⊢
    omega
  unfold Pair.waiting
  rw [hs]
  refine filterMap_eq_singleton List.nodup_range (List.mem_range.mpr ho) ?_ (fun o hmem hne => ?_)
  · simp [Tab.find, (hkey _ ho).mpr rfl]
  · simp [Tab.find, mt (hkey o (List.mem_range.mp hmem)).mp hne]

/-- Without SOP it is skipped too. -/
theorem Pair.skipTo_single (he : p.expected < 65536) (hs : p.stored = [(c.seq % 256, c)]) (hsop : c.sop = false)
    (ho : p.offset c < 256) : p.skipTo = (p.offset c + 1, true) := by
  unfold Pair.skipTo
  rw [Pair.waiting_single he hs ho]
  simp [hsop]

/-- A pair whose gap has been skipped with the one cell that waited behind it. -/
def Pair.skipped (p : Pair) (c : Cell) : Pair :=
  { p with expected := (c.seq + 1) % 65536, stored := [], skipSop := true, gapOpen := false }

/-- What the skip of a gap does to its pair and to the count of gap timeouts. -/
theorem State.gapSkip_single (he : (s.pair a b).expected < 65536) (hs : (s.pair a b).stored = [(c.seq % 256, c)])
    (hsop : c.sop = false) (ho : (s.pair a b).offset c < 256) :
    ((s.gapSkip a b).pair a b).sansDone = ((s.pair a b).skipped c).sansDone
      ∧ Tab.get 0 (s.gapSkip a b).fab.ctr 10 = Tab.get 0 s.fab.ctr 10 := by
  unfold State.gapSkip
  dsimp only
  rw [Pair.skipTo_single he hs hsop ho]
  dsimp only
  have hall : ([(c.seq % 256, c)] : Tab Cell).filter (fun e => decide ((s.pair a b).offset c + 1
      ≤ (e.2.seq + 65536 - (s.pair a b).expected) % 65536)) = [] := by
    simp [Pair.offset]
  have hnext : ((s.pair a b).expected + ((s.pair a b).offset c + 1)) % 65536 = (c.seq + 1) % 65536 := by
    unfold Pair.offset
    omega
  refine ⟨(State.sansDone_gapClosed _ _ ?_).trans ?_, State.get_gapClosed _ _ ?_⟩
  · rw [State.pair_updPair_same, hs]
    exact hall
  · rw [State.pair_updPair_same, hs, hall, hnext]
    rfl
  · rw [State.pair_updPair_same, hs]
    exact hall

theorem gapTimeout_idles (hp : pairExists a b = true) (h : (s.pair a b).gapOpen = false) : Idles (.gapTimeout a b) s := by
  show execGapTimeout a b s = _
  rw [execGapTimeout, if_neg (by simp [hp]), if_neg (by simp [h])]

/-- The state in which a gap that has timed out is skipped: counted and reported. -/
def State.gapCounted (s : State) (a b : Nat) : State :=
  (s.bumpFabAt b 10 1).raiseLimited 0x0606 sevWarning (16 * a + b) 1000000000 (le 1 a ++ le 1 b)

theorem gapTimeout_exec (hp : pairExists a b = true) (h : (s.pair a b).gapOpen = true) :
    exec (.gapTimeout a b) s = .next ((s.gapCounted a b).gapSkip a b) := by
  show execGapTimeout a b s = _
  rw [execGapTimeout, if_neg (by simp [hp]), if_pos h]
  rfl

theorem gapTimeout_ends (hp : pairExists a b = true) (h : (s.pair a b).gapOpen = true) (he : (s.pair a b).expected < 65536)
    (hs : (s.pair a b).stored = [(c.seq % 256, c)]) (hsop : c.sop = false) (ho : (s.pair a b).offset c < 256) :
    Ends (.gapTimeout a b) s (fun t => (t.pair a b).expected = (c.seq + 1) % 65536 ∧ (t.pair a b).stored = []
      ∧ (t.pair a b).skipSop = true ∧ (t.pair a b).gapOpen = false
      ∧ Tab.get 0 t.fab.ctr 10 = Tab.get 0 s.fab.ctr 10 + 1) := by
  have hpair : (s.gapCounted a b).pair = s.pair := by
    rw [State.gapCounted, (State.raiseLimited_frame (Touch.or_self _) .refl _ _ _ _ _).pair_eq rfl,
      (State.bumpFabAt_frame (Touch.or_self _) .refl _ _ _).pair_eq rfl]
  have hctr : Tab.get 0 (s.gapCounted a b).fab.ctr 10 = Tab.get 0 s.fab.ctr 10 + 1 := by
    rw [State.gapCounted, (State.raiseLimited_frame (Touch.or_self _) .refl _ _ _ _ _).fabCtr rfl, State.get_bumpFabAt_same]
  rw [← hpair] at he hs ho
  obtain ⟨hskip, hsame⟩ := State.gapSkip_single he hs hsop ho
  obtain ⟨hexpected, hstored, hskipSop, hgapOpen⟩ := Pair.fields_of_sansDone hskip
  exact ends_of_exec (gapTimeout_exec hp h) ⟨hexpected, hstored, hskipSop, hgapOpen, hsame.trans hctr⟩

end

/-! ### Release credits (R172) -/

section

variable {s : State} {a b : Nat}

theorem State.takeCredits_pair (s : State) (a b : Nat) : (s.takeCredits a b).pair a b
    = { s.pair a b with
        out := (s.pair a b).out.filter (fun c => !(s.pair a b).done.contains c.seq), done := [],
        oldest := (((s.pair a b).out.filter (fun c => !(s.pair a b).done.contains c.seq)).map (·.seq)).headD (s.pair a b).nextSeq } := by
  unfold State.takeCredits
  dsimp only
  rw [(State.xoffSweep_frame (Touch.or_self _) .refl).pair_eq rfl,
    foldl_read State.pair (fun t c _ => (State.freeCell_frame (Touch.or_self _) .refl c).pair_eq rfl), State.pair_updPair_same]

/-- Host ports with no packet waiting take none. -/
theorem State.hostInAll_of_none (h : ∀ k, k < 4 → (s.fifo (2 * k + 1)).notices = 0) : s.hostInAll = s := by
  have hone (k : Nat) (hk : k < 4) : s.hostIn k = s := by
    unfold State.hostIn
    rw [h k hk]
    rfl
  unfold State.hostInAll
  rw [List.foldl_cons, hone 0 (by decide), List.foldl_cons, hone 1 (by decide), List.foldl_cons, hone 2 (by decide),
    List.foldl_cons, hone 3 (by decide), List.foldl_nil]

theorem releaseCreditReceived_ends (hp : pairExists a b = true) (h : ∀ k, k < 4 → (s.fifo (2 * k + 1)).notices = 0) :
    Ends (.releaseCreditReceived a b) s (fun t => (t.pair a b).done = []
      ∧ (t.pair a b).out = (s.pair a b).out.filter (fun c => !(s.pair a b).done.contains c.seq)
      ∧ (t.pair a b).nextSeq = (s.pair a b).nextSeq) := by
  have hfifo : (s.takeCredits a b).fifo = s.fifo := (State.takeCredits_frame (Touch.or_self _) .refl a b).fifo_eq rfl
  refine ends_of_exec (t := (s.takeCredits a b).hostInAll) (if_pos hp) ?_
  rw [State.hostInAll_of_none (by rw [hfifo]; exact h), State.takeCredits_pair]
  exact ⟨rfl, rfl, rfl⟩

end

/-- Settles O47: each row is one operation on the links or on a pair, and each operation's rule says what it leaves. -/
theorem cellRows : Obligations.CellRows := by
  unfold Obligations.CellRows
  refine ⟨fun s sl d pl => cellSend_ends, fun s n c hn h => ⟨?bad, fun hup => ?plane, cellArrived_ends_stored hn h⟩,
    fun s n hn => ⟨fun c => ends_of_resend_again (linkNakReceived_exec hn), fun c => ends_of_resend_over (linkNakReceived_exec hn),
      fun c => ends_of_resend_again (linkAckTimeout_exec hn)⟩,
    fun s a b hp => ⟨gapTimeout_idles hp, fun c => gapTimeout_ends hp⟩, fun s a b => releaseCreditReceived_ends⟩
  case bad => exact ends_of_exec (cellArrived_exec false hn h) (State.mapLinks_one h (fun x => { x with lost := true }))
  case plane =>
    refine ends_of_exec (cellArrived_exec true hn h) ?_
    rw [if_neg (by decide), if_pos hup]
    exact State.mapLinks_one (s := { s with fab := s.fab.useNum (32 * (n / 32) + 16 + c.cell.dst) }) h (s.goesOn n c)

end Sys2Proof.Machine
end

section
/-! PROOF. The scheduling, policing and Loupe commands (R198 to R213): a node, a policer, a port, a profile and the queues of a port are
read back after the write that names them, and the reads answer from what mail does not move. -/

namespace Sys2Proof.Machine

/-! ### The scheduler beside mail -/

section

variable {s u : State} {op : Nat} {p : List Byte}

theorem sched_of_mailed (h : u = s.mailed u) : u.sched = s.sched := (congrArg State.sched h).trans rfl

theorem sched_of_written (h : u = (s.shadow op p).mailed u) : u.sched = s.sched := (congrArg State.sched h).trans rfl

theorem node_of_mailed (h : u = s.mailed u) : u.node = s.node := (congrArg State.node h).trans rfl

theorem node_of_written (h : u = (s.shadow op p).mailed u) : u.node = s.node := (congrArg State.node h).trans rfl

theorem policer_of_mailed (h : u = s.mailed u) : u.policer = s.policer := (congrArg State.policer h).trans rfl

theorem policer_of_written (h : u = (s.shadow op p).mailed u) : u.policer = s.policer := (congrArg State.policer h).trans rfl

theorem loupeItem_of_mailed (h : u = s.mailed u) : u.loupeItem = s.loupeItem := (congrArg State.loupeItem h).trans rfl

end

section

variable (s u : State) (p : List Byte)

theorem State.argNode_mailed : (s.mailed u).argNode p = s.argNode p := rfl

theorem State.argPort515_mailed : (s.mailed u).argPort515 p = s.argPort515 p := rfl

theorem State.nodeFlags_mailed : (s.mailed u).nodeFlags p = s.nodeFlags p := rfl

end

theorem checkSchedSetNode_mailed (p : List Byte) (s u : State) : checkSchedSetNode p (s.mailed u) = checkSchedSetNode p s := rfl

theorem checkLoupeSetQueue_mailed (p : List Byte) (s u : State) : checkLoupeSetQueue p (s.mailed u) = checkLoupeSetQueue p s := rfl

/-! ### Nodes and policers (R198, R200, R204) -/

/-- A node below the port takes the priority and the weight it is given. -/
theorem Node.configure_below (n : Node) {p : List Byte} (h : rd p 2 1 ≠ 0) :
    (n.configure p).prio = rd p 5 1 ∧ (n.configure p).weight = rd p 6 2 :=
  ⟨if_neg h, if_neg h⟩

theorem Node.configure_clears_deficits (n : Node) {p : List Byte} (h : rd p 2 1 ≠ 0) (hp : rd p 5 1 ≠ n.prio) :
    (n.configure p).txDef = 0 ∧ (n.configure p).grDef = 0 := by
  simp [Node.configure, h, hp]

theorem schedSetNode_carried : Carried 0x0701 .schedSetNode (fun p s => checkSchedSetNode p s = none)
    (fun p s t => (rd p 2 1 ≠ 0 → (t.node (nodeOf p)).prio = rd p 5 1 ∧ (t.node (nodeOf p)).weight = rd p 6 2)
      ∧ (rd p 2 1 ≠ 0 → rd p 5 1 ≠ (s.node (nodeOf p)).prio → (t.node (nodeOf p)).txDef = 0 ∧ (t.node (nodeOf p)).grDef = 0)
      ∧ (t.node (nodeOf p)).shaper = { (s.node (nodeOf p)).shaper with pend := some (rd p 8 1 == 1, rd p 12 4, rd p 16 4, rd p 9 1) }
      ∧ ∀ n, n ≠ nodeOf p → t.node n = s.node n) := by
  refine carried_of (fun _ _ => rfl) (fun p s u hu hok => by rw [hu, checkSchedSetNode_mailed]; exact hok) (fun _ _ => rfl)
    (fun p s u t hu ht _ => ?_)
  rw [node_of_written ht, ← node_of_mailed hu]
  unfold applySchedSetNode
  rw [State.node_updNode_same]
  exact ⟨Node.configure_below _, Node.configure_clears_deficits _, rfl,
    fun n hn => by rw [State.node_updNode, if_neg (Ne.symm hn)]⟩

theorem schedGetNode_answered : Answered 0x0702 .schedGetNode (fun r s => s.argNode r.payload = true) (fun r s =>
    let n := s.node (nodeOf r.payload)
    le 8 (unsigned 64 (wholeTokens n.shaper.tokens)) ++ le 4 n.txDef ++ le 1 (s.nodeFlags r.payload) ++ le 3 0
      ++ le 8 n.bytes ++ le 8 n.frames) := by
  refine answered_of (body := schedGetNodeBody) (fun _ _ => rfl) (fun r s u _ _ hu hok => ?_)
  have harg : u.argNode r.payload = true := by rw [hu, State.argNode_mailed]; exact hok
  have hflags : u.nodeFlags r.payload = s.nodeFlags r.payload := by rw [hu, State.nodeFlags_mailed]
  unfold schedGetNodeBody readCmd
  dsimp only
  rw [if_pos harg, hflags, node_of_mailed hu]

theorem polSet_carried : Carried 0x0703 .polSet (fun p s => checkPolSet p s = none)
    (fun p s t => t.policer (rd p 0 4) = { s.policer (rd p 0 4) with pend := some (polOf p) }
      ∧ ∀ n, n ≠ rd p 0 4 → t.policer n = s.policer n) := by
  refine carried_of (fun _ _ => rfl) (fun _ _ _ _ hok => hok) (fun _ _ => rfl) (fun p s u t hu ht _ => ?_)
  rw [policer_of_written ht, ← policer_of_mailed hu]
  unfold applyPolSet
  exact ⟨State.policer_updPolicer_same _ _ _, fun n hn => by rw [State.policer_updPolicer, if_neg (Ne.symm hn)]⟩

theorem polGet_answered : Answered 0x0704 .polGet (fun r _ => rd r.payload 0 4 ≤ 131071) (fun r s =>
    let q := s.policer (rd r.payload 0 4)
    le 4 (unsigned 32 (wholeTokens q.tc)) ++ le 4 (unsigned 32 (wholeTokens q.te)) ++ le 8 q.green.toNat
      ++ le 8 q.yellow.toNat ++ le 8 q.red.toNat ++ le 8 q.redDrops.toNat) := by
  refine answered_of (body := polGetBody) (fun _ _ => rfl) (fun r s u _ _ hu hok => ?_)
  unfold polGetBody readCmd
  dsimp only
  rw [if_pos hok, policer_of_mailed hu]

theorem checkPolSetPort_none {p : List Byte} {s : State} (hp : s.argPort515 p = true) (hv : rd p 2 1 ≤ 1) (hc : rd p 3 1 ≤ 1)
    (hi : rd p 2 1 = 0 ∨ rd p 4 4 ≤ 131071) : checkPolSetPort p s = none := by
  simp [checkPolSetPort, need, hp, hv, hc, hi]

theorem polSetPort_carried : Carried 0x0705 .polSetPort (fun p s => s.argPort515 p = true ∧ rd p 2 1 ≤ 1 ∧ rd p 3 1 ≤ 1
      ∧ (rd p 2 1 = 0 ∨ rd p 4 4 ≤ 131071))
    (fun p s t => (t.port (rd p 0 2)).polValid = bit (rd p 2 1) 0 ∧ (t.port (rd p 0 2)).polPre = rd p 3 1
      ∧ (t.port (rd p 0 2)).polIdx = rd p 4 4 ∧ ∀ m, m ≠ rd p 0 2 → t.port m = s.port m) := by
  refine carried_of (fun _ _ => rfl) (fun p s u hu ⟨hp, hv, hc, hi⟩ =>
    checkPolSetPort_none (by rw [hu, State.argPort515_mailed]; exact hp) hv hc hi) (fun _ _ => rfl) (fun p s u t hu ht _ => ?_)
  rw [State.port_of_written ht, ← State.port_of_mailed hu]
  unfold applyPolSetPort
  rw [State.port_updPort_same]
  exact ⟨rfl, rfl, rfl, fun m hm => by rw [State.port_updPort, if_neg (Ne.symm hm)]⟩

/-! ### Profiles, queues and items of Loupe (R206 to R212) -/

section

variable (x : SchedSt) (p : List Byte)

/-- A queue setting reaches one queue: the alarms that it resets are not in the queues. -/
theorem SchedSt.loupeQueue_setLoupeQueue (c j : Nat) : (x.setLoupeQueue p c).loupeQueue (rd p 0 2) j
    = if c = j then { prof := rd p 3 1, all := bit (rd p 4 1) 0, alarmed := bit (rd p 4 1) 1 }
      else x.loupeQueue (rd p 0 2) j := by
  unfold SchedSt.setLoupeQueue
  dsimp only
  have hkey : 8 * rd p 0 2 + c = 8 * rd p 0 2 + j ↔ c = j := by omega
  refine (Tab.get_set _ _ _ _ _).trans (if_congr hkey rfl ?_)
  split <;> rfl

end

/-- LOUPE_SET_QUEUE sets its classes one after the other. -/
theorem applyLoupeSetQueue_eq (p : List Byte) (s : State) : applyLoupeSetQueue p s
    = (bitList 8 (rd p 2 1)).foldl (fun t c => { t with sched := t.sched.setLoupeQueue p c }) s :=
  (List.foldl_hom (fun x => { s with sched := x }) (fun _ _ => rfl)).symm

theorem applyLoupeSetQueue_loupeQueue (p : List Byte) (s : State) {c : Nat} (hc : c < 8) :
    (applyLoupeSetQueue p s).sched.loupeQueue (rd p 0 2) c = if bit (rd p 2 1) c = true then
        { prof := rd p 3 1, all := bit (rd p 4 1) 0, alarmed := bit (rd p 4 1) 1 } else s.sched.loupeQueue (rd p 0 2) c := by
  rw [applyLoupeSetQueue_eq]
  exact (foldl_changes (read := fun s => s.sched.loupeQueue (rd p 0 2))
    (f := fun _ => { prof := rd p 3 1, all := bit (rd p 4 1) 0, alarmed := bit (rd p 4 1) 1 })
    (fun s i j => s.sched.loupeQueue_setLoupeQueue p i j) (fun _ => rfl) (bitList 8 (rd p 2 1)) s c).trans
    (if_congr (by simp [mem_bitList, hc]) rfl rfl)

theorem applyLoupeSetProfile_loupeProf (p : List Byte) (s : State) (n : Nat) :
    (applyLoupeSetProfile p s).sched.loupeProf n = if rd p 0 1 = n then loupeProfOf p else s.sched.loupeProf n := by
  unfold applyLoupeSetProfile
  dsimp only
  refine (Tab.get_set _ _ _ _ _).trans (if_congr Iff.rfl rfl ?_)
  split <;> rfl

theorem applyLoupeSetProfile_items (p : List Byte) (s : State) : (applyLoupeSetProfile p s).sched.items
    = if s.sched.loupeProf (rd p 0 1) = loupeProfOf p then s.sched.items
      else (s.sched.resetAlarms (fun q c => (s.sched.loupeQueue q c).prof == rd p 0 1)).items := by
  unfold applyLoupeSetProfile
  dsimp only
  split <;> rfl

theorem loupeSetProfile_carried : Carried 0x0706 .loupeSetProfile (fun p s => checkLoupeSetProfile p s = none)
    (fun p s t => t.sched.loupeProf (rd p 0 1) = loupeProfOf p
      ∧ (∀ n, n ≠ rd p 0 1 → t.sched.loupeProf n = s.sched.loupeProf n)
      ∧ t.sched.items = if s.sched.loupeProf (rd p 0 1) = loupeProfOf p then s.sched.items
        else (s.sched.resetAlarms (fun q c => (s.sched.loupeQueue q c).prof == rd p 0 1)).items) := by
  refine carried_of (fun _ _ => rfl) (fun _ _ _ _ hok => hok) (fun _ _ => rfl) (fun p s u t hu ht _ => ?_)
  rw [sched_of_written ht, ← sched_of_mailed hu]
  obtain ⟨hsame, hother⟩ := written_at (applyLoupeSetProfile_loupeProf p u)
  exact ⟨hsame, hother, applyLoupeSetProfile_items p u⟩

theorem loupeSetQueue_carried : Carried 0x0707 .loupeSetQueue (fun p s => checkLoupeSetQueue p s = none)
    (fun p s t => ∀ c, c < 8 → t.sched.loupeQueue (rd p 0 2) c = if bit (rd p 2 1) c = true then
      { prof := rd p 3 1, all := bit (rd p 4 1) 0, alarmed := bit (rd p 4 1) 1 } else s.sched.loupeQueue (rd p 0 2) c) := by
  refine carried_of (fun _ _ => rfl) (fun p s u hu hok => by rw [hu, checkLoupeSetQueue_mailed]; exact hok) (fun _ _ => rfl)
    (fun p s u t hu ht _ c hc => ?_)
  rw [sched_of_written ht, ← sched_of_mailed hu]
  exact applyLoupeSetQueue_loupeQueue p u hc

/-- An item whose largest values a read has cleared (R211). -/
def LoupeItem.read (i : LoupeItem) : LoupeItem := { i with maxDepth := 0, maxDelay := 0 }

/-- The state once LOUPE_GET has read item `o` of a slice. -/
def State.loupeRead (s : State) (sl o : Nat) : State :=
  { s with sched := { s.sched with items := Tab.set LoupeItem.init s.sched.items (loupeItems * sl + o) (s.loupeItem sl o).read } }

theorem State.loupeItem_loupeRead (s : State) (sl o : Nat) : (s.loupeRead sl o).loupeItem sl o = (s.loupeItem sl o).read :=
  Tab.get_set_same _ _ _ _

theorem loupeGetBody_reads {r : Req} {o : Nat} (h : loupeOrder r.payload = some o) (s : State) :
    loupeGetBody r s = okCmd (s.loupeRead (rd r.payload 0 1) o) (padTo 32 (s.loupeItem (rd r.payload 0 1) o).last
      ++ le 4 (s.loupeItem (rd r.payload 0 1) o).maxDepth ++ le 4 (s.loupeItem (rd r.payload 0 1) o).maxDelay) := by
  unfold loupeGetBody
  rw [h]
  rfl

theorem loupeGet_does (o : Nat) : Does 0x0708 .loupeGet (fun r _ => loupeOrder r.payload = some o)
    (fun r s => let i := s.loupeItem (rd r.payload 0 1) o
      padTo 32 i.last ++ le 4 i.maxDepth ++ le 4 i.maxDelay)
    (fun r s t => t.loupeItem (rd r.payload 0 1) o = { s.loupeItem (rd r.payload 0 1) o with maxDepth := 0, maxDelay := 0 }) := by
  refine does_of (body := loupeGetBody) (fun r u => u.loupeRead (rd r.payload 0 1) o) (fun _ _ => rfl)
    (fun r s u _ _ hu hok => ⟨?_, rfl, fun t ht => ?_⟩)
  · rw [loupeGetBody_reads hok, loupeItem_of_mailed hu]
    rfl
  · rw [loupeItem_of_mailed ht, State.loupeItem_loupeRead, loupeItem_of_mailed hu]
    rfl

/-- Settles O24: each write is read back at the entry that it names, and each read answers from what mail does not move. -/
theorem schedulingCommands : Obligations.SchedulingCommands := by
  unfold Obligations.SchedulingCommands
  refine ⟨schedSetNode_carried, schedGetNode_answered, polSet_carried, polGet_answered, polSetPort_carried,
    loupeSetProfile_carried, loupeSetQueue_carried, loupeGet_does, ?counters⟩
  case counters =>
    exact answered_of (body := schedGetCountersBody) (fun _ _ => rfl) (fun r s u _ _ hu _ => by rw [hu]; rfl)

end Sys2Proof.Machine
end

section
/-! PROOF. The invariant of every step, and the step of an empty queue (R214, R217, R415, R445). -/

namespace Sys2Proof.Machine

/-! ### A good state -/

/-- Settles O4: at reset the time of day is 0, and no memory, history, session or event is listed. -/
theorem resetIsGood : Obligations.ResetIsGood := by
  unfold Obligations.ResetIsGood
  exact ⟨⟨by decide, by decide, by decide⟩, by decide, ⟨by decide, by decide⟩, ⟨by decide, by decide, by decide⟩, Nat.zero_le _⟩

/-- A good state is good whatever waits in its queue. -/
theorem State.Good.withPending {s : State} (h : s.Good) (l : List Instr) : State.Good { s with pending := l } :=
  ⟨h.time, h.mem, h.hist, h.sessions, h.held⟩

/-- A step on an empty queue. -/
theorem step_of_empty {s : State} (h : s.pending = []) : step s = .next (idle s) := by
  unfold step
  rw [h]

/-- A step takes the front of the queue. -/
theorem step_of_front {s : State} {i : Instr} {rest : List Instr} (h : s.pending = i :: rest) :
    step s = exec i { s with pending := rest } := by
  unfold step
  rw [h]

/-- Settles O5: an empty queue leads to `idle`, which keeps a good state good, and a command at the front to `exec`, which does so
by `exec_keeps`. -/
theorem stepKeepsGood : Obligations.StepKeepsGood := by
  unfold Obligations.StepKeepsGood
  intro s t hs hstep
  cases hq : s.pending with
  | nil =>
    rw [step_of_empty hq] at hstep
    cases hstep
    exact (idle_keeps (.refl s)).good hs
  | cons i rest =>
    rw [step_of_front hq] at hstep
    exact ((exec_keeps i _).keeps t hstep).good (hs.withPending rest)

/-! ### One tick of the time base (log entry 1) -/

/-- Before a second has passed since its last line, the boot ROM writes none. -/
theorem State.consoleTick_of_early {s : State} (h : ∀ c, s.ident.console = some c → s.upNs < c + 1000000000) : s.consoleTick = s := by
  unfold State.consoleTick
  split
  · next c hc => exact if_neg (Nat.not_le.mpr (h c hc))
  · rfl

/-- A second after its last line the boot ROM writes the next. -/
theorem State.consoleTick_of_due {s : State} {c : Nat} (hc : s.ident.console = some c) (h : c + 1000000000 ≤ s.upNs) :
    s.consoleTick = s.consoleLine := by
  unfold State.consoleTick
  rw [hc]
  exact if_pos h

/-- Settles O2: the tick, then what BAKE_INSTANT does at the instant it reaches, then the console line. -/
theorem idleTick : Obligations.IdleTick := by
  unfold Obligations.IdleTick
  intro s u hq hu
  have hstep : step s = .next u.instant.consoleTick := by rw [step_of_empty hq, hu]; rfl
  refine ⟨fun hset hdom hcon => ⟨?_, hu ▸ State.oneTick_frame (Touch.or_self _) .refl⟩, fun v hv => ?_⟩
  · rw [hstep, State.instant_of_early hset hdom, State.consoleTick_of_early hcon]
  · have hinst : v = u.instant := (Host.Outcome.next.inj hv).symm
    rw [hstep, ← hinst]
    exact ⟨fun hcon => by rw [State.consoleTick_of_early hcon], fun c hc hdue => by rw [State.consoleTick_of_due hc hdue]; rfl⟩

end Sys2Proof.Machine
end

section
/-! PROOF. The time and gate commands (R217, R223, R231 to R234, R245, R246): TIME_ADJUST by its operations, the settings read back,
and what the reads answer. -/

namespace Sys2Proof.Machine

/-! ### The time of day as a number (R214) -/

theorem ofLe_lt (l : List Byte) : ofLe l < 256 ^ l.length := by
  induction l with
  | nil => decide
  | cons b r ih =>
    have hb : b.toNat < 256 := b.isLt
    rw [ofLe, List.length_cons, Nat.pow_succ]
    omega

/-- A field of `n` bytes. -/
theorem rd_lt (l : List Byte) (o n : Nat) : rd l o n < 256 ^ n :=
  (ofLe_lt _).trans_le (Nat.pow_le_pow_right (by decide) (List.length_take_le _ _))

/-- Within 48-bit seconds a time of day reads as it was set. -/
theorem TimeBase.units_setUnits {n : Nat} (t : TimeBase) (h : n < 2 ^ 48 * secUnits) : (t.setUnits n).units = n := by
  simp only [TimeBase.units, TimeBase.setUnits, secUnits] at h ⊢
  omega

/-- The seconds, nanoseconds and fraction of a time of day that was set from them. -/
theorem TimeBase.setUnits_fields (t : TimeBase) {sec ns frac : Nat} (hs : sec < 2 ^ 48) (hn : ns ≤ 999999999) (hf : frac < 2 ^ 48) :
    t.setUnits ((1000000000 * sec + ns) * 2 ^ 48 + frac) = { t with sec, ns, frac } := by
  simp only [TimeBase.setUnits, TimeBase.mk.injEq, and_true]
  omega

/-! ### Steps of the time base (R217) -/

/-- The state once the time base has been set in one cycle, before a bake that the step passes. -/
def State.timeMoved (s : State) (op cause units : Nat) : State :=
  let a := s.updTime (fun t => { t.setUnits units with slewLeft := 0, stepCount := (t.stepCount + 1) % 2 ^ 32 })
  let b := a.raise 0x0802 sevInfo (le 1 op ++ le 1 cause ++ timeArg a.time.sec a.time.ns)
  let c := if b.time.state = .unset then b.setTimeState .freeRun else b
  c.gatedPorts.foldl State.gateReset c

/-- What a gate reset may change. -/
def Touch.gateReset : Touch :=
  { gates := true, ports := true, prismFlight := true, recirc := true, merge := true, fwdCtr := true,
    cells := true, portClass := true, queues := true, spillVoqs := true, bufCtr := true, pkts := true,
    nextPkt := true, voqs := true, multiQ := true, pairs := true, fabPorts := true, fabCtr := true,
    nodes := true, egq := true, schedCtr := true, evt := true, mirrors := true, cand := true,
    mirQ := true, mirCtr := true, telCtr := true, dropCtr := true, portCtr := true, prismCtr := true,
    timeCtr := true, shares := true, irq := true, out := true, free := true }

theorem State.gateResets_frame (s : State) (l : List Nat) : Frame .gateReset s (l.foldl State.gateReset s) :=
  Frame.foldl _ (fun _ p h => State.gateReset_frame (Touch.or_self _) h p) l .refl

theorem State.time_raise (s : State) (c v : Nat) (a : List Byte) : (s.raise c v a).time = s.time := by simp only [State.raise_rest]

/-- A change of state is one of the time base's `state` alone. -/
theorem State.time_setTimeState (s : State) (x : TbState) : (s.setTimeState x).time = { s.time with state := x } := by
  unfold State.setTimeState
  split
  · next h => rw [← h]
  · exact State.time_raise _ _ _ _

theorem State.time_timeMoved (s : State) (op cause units : Nat) : (s.timeMoved op cause units).time
    = { s.time.setUnits units with
        slewLeft := 0, stepCount := (s.time.stepCount + 1) % 2 ^ 32,
        state := if s.time.state = .unset then .freeRun else s.time.state } := by
  refine ((State.gateResets_frame _ _).time rfl).trans ?_
  dsimp only
  split
  · next h =>
    rw [State.time_setTimeState, State.time_raise]
    rw [State.time_raise] at h
    rw [if_pos (show s.time.state = _ from h)]
    rfl
  · next h =>
    rw [State.time_raise] at h ⊢
    rw [if_neg (show s.time.state ≠ _ from h)]
    rfl

theorem State.timeMoved_frame (s : State) (op cause units : Nat) :
    Frame { Touch.gateReset with time := true } s (s.timeMoved op cause units) := by
  refine Frame.step ?_ rfl (State.gateResets_frame _ _)
  have hset := State.updTime_frame (wt := { Touch.gateReset with time := true }) (s0 := s) rfl .refl
  exact .ite (fun _ => State.setTimeState_frame rfl (State.raise_frame rfl (hset _) _ _ _) _)
    (fun _ => State.raise_frame rfl (hset _) _ _ _)

/-- With no set ARMED and no DOM_BAKE a step of the time base runs no bake. -/
theorem State.timeStep_of_noBake {s : State} (ha : s.bake.armed = none) (hd : s.bake.dom = none) (op cause units : Nat) :
    s.timeStep op cause units = s.timeMoved op cause units := by
  have hframe := s.timeMoved_frame op cause units
  have harmed : (s.timeMoved op cause units).bake.armed = none := by
    unfold BakeSt.armed
    rw [(hframe.sets rfl).1]
    exact ha
  show (s.timeMoved op cause units).stepPast = _
  unfold State.stepPast
  rw [harmed]
  exact State.domDue_of_none ((hframe.domBake rfl).1.trans hd)

/-- The new time of an operation 2 is in range. -/
theorem State.offsetTime_lt {s : State} {d : Int} {n : Nat} (h : s.offsetTime d = some n) : n < 2 ^ 48 * secUnits := by
  unfold State.offsetTime at h
  split at h
  · next hr =>
    cases h
    omega
  · cases h

/-! ### TIME_ADJUST (R233, R245) -/

section

variable {s : State} {r : Req} (hm : s.moarasClock = false)
include hm

theorem timeAdjustBody_incr (h0 : rd r.payload 0 1 = 0) (hok : incrOk (rd r.payload 16 8) = true) :
    timeAdjustBody r s = okCmd (s.updTime (fun t => { t with incr := rd r.payload 16 8 })) [] := by
  simp [timeAdjustBody, hm, h0, hok]

theorem timeAdjustBody_slew (hr : resv r.payload 1 1 = true) (h1 : rd r.payload 0 1 = 1)
    (hn : (rdI r.payload 4 4).natAbs ≤ 999999999) (ho : (adjOffset r.payload).natAbs ≤ secUnits) :
    timeAdjustBody r s = okCmd (s.updTime (fun t => { t with slewLeft := adjOffset r.payload })) [] := by
  simp [timeAdjustBody, hm, hr, h1, hn, ho]

theorem timeAdjustBody_offset {n : Nat} (hr : resv r.payload 1 1 = true) (h2 : rd r.payload 0 1 = 2)
    (hn : (rdI r.payload 4 4).natAbs ≤ 999999999) (ho : s.offsetTime (adjOffset r.payload) = some n) :
    timeAdjustBody r s = okCmd (s.timeStep 2 0 n) [] := by
  simp [timeAdjustBody, hm, hr, h2, hn, ho]

theorem timeAdjustBody_set (hr : resv r.payload 1 1 = true) (h3 : rd r.payload 0 1 = 3) (hs : rd r.payload 8 8 < 2 ^ 48)
    (hn : rd r.payload 4 4 ≤ 999999999) : timeAdjustBody r s
      = okCmd (s.timeStep 3 0 ((1000000000 * rd r.payload 8 8 + rd r.payload 4 4) * 2 ^ 48 + rd r.payload 2 2 * 2 ^ 32)) [] := by
  simp only [timeAdjustBody, hm, hr, h3, hs, hn, Bool.false_eq_true, reduceCtorEq, and_false, and_self, if_true, if_false]

end

section

variable {s u : State} {op : Nat} {p : List Byte}

/-- Mail and the shadow are not among the time base, nor what the port roles say. -/
theorem time_of_mailed (h : u = s.mailed u) : u.time = s.time := (congrArg State.time h).trans rfl

theorem time_of_written (h : u = (s.shadow op p).mailed u) : u.time = s.time := (congrArg State.time h).trans rfl

theorem moarasClock_of_mailed (h : u = s.mailed u) : u.moarasClock = s.moarasClock := (congrArg State.moarasClock h).trans rfl

theorem fifoMoaras_of_mailed (h : u = s.mailed u) : u.fifoMoaras = s.fifoMoaras := (congrArg State.fifoMoaras h).trans rfl

theorem fifoMoaras_of_written (h : u = (s.shadow op p).mailed u) : u.fifoMoaras = s.fifoMoaras :=
  (congrArg State.fifoMoaras h).trans rfl

theorem tsFifo_of_written (h : u = (s.shadow op p).mailed u) : u.tsFifo = s.tsFifo := (congrArg State.tsFifo h).trans rfl

end

theorem timeAdjust_turnedAway : TurnedAway 0x0802 .timeAdjust (fun _ s => s.moarasClock = true) stNotPermitted dNone :=
  turned_of (body := timeAdjustBody) (fun _ _ => rfl) (fun r s u _ _ hu _ hclock => by
    simp [timeAdjustBody, moarasClock_of_mailed hu, hclock, errCmd])

theorem timeAdjust_does_incr : Does 0x0802 .timeAdjust (fun r s => s.moarasClock = false ∧ rd r.payload 0 1 = 0
      ∧ incrOk (rd r.payload 16 8) = true)
    (fun _ _ => []) (fun r s t => t.time = { s.time with incr := rd r.payload 16 8 }) := by
  refine does_of (body := timeAdjustBody) (fun r u => u.updTime (fun t => { t with incr := rd r.payload 16 8 })) (fun _ _ => rfl)
    (fun r s u _ _ hu ⟨hm, h0, hok⟩ => ⟨?_, rfl, fun t ht => ?_⟩)
  · exact timeAdjustBody_incr ((moarasClock_of_mailed hu).trans hm) h0 hok
  · rw [time_of_mailed ht, ← time_of_mailed hu]
    rfl

theorem timeAdjust_does_slew : Does 0x0802 .timeAdjust (fun r s => s.moarasClock = false ∧ resv r.payload 1 1 = true
      ∧ rd r.payload 0 1 = 1 ∧ (rdI r.payload 4 4).natAbs ≤ 999999999 ∧ (adjOffset r.payload).natAbs ≤ secUnits)
    (fun _ _ => []) (fun r s t => t.time = { s.time with slewLeft := adjOffset r.payload }) := by
  refine does_of (body := timeAdjustBody) (fun r u => u.updTime (fun t => { t with slewLeft := adjOffset r.payload })) (fun _ _ => rfl)
    (fun r s u _ _ hu ⟨hm, hr, h1, hn, ho⟩ => ⟨?_, rfl, fun t ht => ?_⟩)
  · exact timeAdjustBody_slew ((moarasClock_of_mailed hu).trans hm) hr h1 hn ho
  · rw [time_of_mailed ht, ← time_of_mailed hu]
    rfl

theorem timeAdjust_does_offset (n : Nat) : Does 0x0802 .timeAdjust (fun r s => s.moarasClock = false ∧ resv r.payload 1 1 = true
      ∧ rd r.payload 0 1 = 2 ∧ (rdI r.payload 4 4).natAbs ≤ 999999999 ∧ s.offsetTime (adjOffset r.payload) = some n
      ∧ s.bake.armed = none ∧ s.bake.dom = none)
    (fun _ _ => []) (fun _ s t => t.time.units = n ∧ t.time.slewLeft = 0
      ∧ t.time.stepCount = (s.time.stepCount + 1) % 2 ^ 32) := by
  refine does_of (body := timeAdjustBody) (fun _ u => u.timeMoved 2 0 n) (fun _ _ => rfl)
    (fun r s u _ _ hu ⟨hm, hr, h2, hn, ho, ha, hd⟩ => ⟨?_, (State.timeMoved_frame _ _ _ _).mbx rfl, fun t ht => ?_⟩)
  · have hbake := bake_of_mailed hu
    have hou : u.offsetTime (adjOffset r.payload) = some n := by
      unfold State.offsetTime
      rw [time_of_mailed hu]
      exact ho
    rw [timeAdjustBody_offset ((moarasClock_of_mailed hu).trans hm) hr h2 hn hou,
      State.timeStep_of_noBake (hbake ▸ ha) (hbake ▸ hd)]
    rfl
  · rw [time_of_mailed ht, State.time_timeMoved, ← time_of_mailed hu]
    exact ⟨u.time.units_setUnits (State.offsetTime_lt ho), rfl, rfl⟩

theorem timeAdjust_does_set : Does 0x0802 .timeAdjust (fun r s => s.moarasClock = false ∧ resv r.payload 1 1 = true
      ∧ rd r.payload 0 1 = 3 ∧ rd r.payload 8 8 < 2 ^ 48 ∧ rd r.payload 4 4 ≤ 999999999 ∧ s.bake.armed = none ∧ s.bake.dom = none)
    (fun _ _ => []) (fun r s t => t.time.sec = rd r.payload 8 8 ∧ t.time.ns = rd r.payload 4 4
      ∧ t.time.frac = rd r.payload 2 2 * 2 ^ 32 ∧ t.time.slewLeft = 0 ∧ t.time.stepCount = (s.time.stepCount + 1) % 2 ^ 32) := by
  refine does_of (body := timeAdjustBody)
    (fun r u => u.timeMoved 3 0 ((1000000000 * rd r.payload 8 8 + rd r.payload 4 4) * 2 ^ 48 + rd r.payload 2 2 * 2 ^ 32))
    (fun _ _ => rfl) (fun r s u _ _ hu ⟨hm, hr, h3, hs, hn, ha, hd⟩ => ⟨?_, (State.timeMoved_frame _ _ _ _).mbx rfl, fun t ht => ?_⟩)
  · have hbake := bake_of_mailed hu
    rw [timeAdjustBody_set ((moarasClock_of_mailed hu).trans hm) hr h3 hs hn, State.timeStep_of_noBake (hbake ▸ ha) (hbake ▸ hd)]
    rfl
  · have hfrac : rd r.payload 2 2 * 2 ^ 32 < 2 ^ 48 := by
      have := rd_lt r.payload 2 2
      omega
    rw [time_of_mailed ht, State.time_timeMoved, ← time_of_mailed hu, TimeBase.setUnits_fields _ hs hn hfrac]
    exact ⟨rfl, rfl, rfl, rfl, rfl⟩

/-! ### The settings (R223, R231, R232, R245) -/

theorem timeSetPtp_carried : Carried 0x0803 .timeSetPtp (fun p s => checkTimeSetPtp p s = none)
    (fun p _ t => t.ptp.profile = rd p 0 1 ∧ t.ptp.domain = rd p 1 1 ∧ t.ptp.prio1 = rd p 2 1 ∧ t.ptp.prio2 = rd p 3 1
      ∧ t.ptp.logSync = rdI p 4 1 ∧ t.ptp.logAnnounce = rdI p 5 1 ∧ t.ptp.announceTimeout = rd p 6 1 ∧ t.ptp.source = rd p 7 1
      ∧ t.ptp.lockNs = rd p 8 2) := by
  refine carried_of (fun _ _ => rfl) (fun _ _ _ _ hok => hok) (fun _ _ => rfl) (fun p s u t _ ht _ => ?_)
  rw [congrArg State.ptp ht]
  exact ⟨rfl, rfl, rfl, rfl, rfl, rfl, rfl, rfl, rfl⟩

/-- A port's role is the one it is given, whether it is new or not. -/
theorem PortPtp.role_inRole (q : PortPtp) (role : Nat) : (q.inRole role).role = role := by
  unfold PortPtp.inRole
  split
  · next h => exact h.symm
  · rfl

theorem State.updPtp_port (s : State) (p q : Nat) (f : PortPtp → PortPtp) :
    (s.updPtp p f).port q = if p = q then { s.port p with ptp := f (s.port p).ptp } else s.port q := State.port_updPort _ _ _ _

/-- What becomes of a FIFO's owner moves no port. -/
theorem State.takeFifo_rest (s : State) (before : Bool) (sl : Nat) :
    (s.takeFifo before sl).port = s.port ∧ (s.takeFifo before sl).fifoMoaras = s.fifoMoaras ∧ (s.takeFifo before sl).mbx = s.mbx := by
  unfold State.takeFifo
  split <;> exact ⟨rfl, rfl, rfl⟩

/-- A FIFO that Moaras comes to own is empty (R245). -/
theorem State.takeFifo_entries {s : State} {sl : Nat} (h : s.fifoMoaras sl = true) : ((s.takeFifo false sl).tsFifo sl).entries = [] := by
  unfold State.takeFifo
  rw [if_pos (by simp [h]), State.tsFifo_updTsFifo_same]

theorem timeSetPort_carried : Carried 0x0804 .timeSetPort (fun p s => checkTimeSetPort p s = none)
    (fun p s t => (t.port (rd p 0 2)).ptp.role = rd p 2 1 ∧ (t.port (rd p 0 2)).ptp.tsMode = rd p 3 1
      ∧ (t.port (rd p 0 2)).ptp.ingCorr = rdI p 4 4 ∧ (t.port (rd p 0 2)).ptp.egCorr = rdI p 8 4
      ∧ (∀ m, m ≠ rd p 0 2 → t.port m = s.port m)
      ∧ (t.fifoMoaras (rd p 0 2 / 32) = true → s.fifoMoaras (rd p 0 2 / 32) = false →
        (t.tsFifo (rd p 0 2 / 32)).entries = [])) := by
  refine carried_of (fun _ _ => rfl) (fun p s u hu hok => by rw [hu]; exact hok)
    (fun p s => (State.takeFifo_rest _ _ _).2.2) (fun p s u t hu ht _ => ?_)
  obtain ⟨hport, hfifo, -⟩ := State.takeFifo_rest (u.updPtp (rd p 0 2) (fun x => { x.inRole (rd p 2 1) with
      tsMode := rd p 3 1, ingCorr := rdI p 4 4, egCorr := rdI p 8 4 })) (u.fifoMoaras (rd p 0 2 / 32)) (rd p 0 2 / 32)
  rw [State.port_of_written ht, fifoMoaras_of_written ht, tsFifo_of_written ht, ← State.port_of_mailed hu, ← fifoMoaras_of_mailed hu]
  unfold applyTimeSetPort
  dsimp only
  rw [hport, hfifo, State.updPtp_port, if_pos rfl]
  refine ⟨PortPtp.role_inRole _ _, rfl, rfl, rfl, fun m hm => ?_, fun hafter hbefore => ?_⟩
  · rw [State.updPtp_port, if_neg (Ne.symm hm)]
  · rw [hbefore]
    exact State.takeFifo_entries hafter

theorem timeSetPps_carried : Carried 0x0805 .timeSetPps (fun p s => checkTimeSetPps p s = none)
    (fun p s t => t.time = { s.time with ppsEnable := rd p 0 1 == 1, ppsUnset := bit (rd p 1 1) 0, ppsOffset := rdI p 4 4,
                                         ppsWidth := rd p 8 4,
                                         ppsOut := s.time.ppsOut && rd p 0 1 == 1 && (s.time.state != .unset || bit (rd p 1 1) 0) }) := by
  refine carried_of (fun _ _ => rfl) (fun _ _ _ _ hok => hok) (fun _ _ => rfl) (fun p s u t hu ht _ => ?_)
  rw [time_of_written ht, ← time_of_mailed hu]
  rfl

/-! ### The reads (R245) -/

theorem timeGet_answered : Answered 0x0801 .timeGet (fun _ _ => True) (fun _ s =>
    le 8 s.time.sec ++ le 4 s.time.ns ++ le 2 s.time.frac16 ++ le 1 s.time.state.code
    ++ le 1 (b2n (s.time.slewLeft != 0) + 2 * b2n s.time.ppsInValid) ++ le 8 s.time.incr ++ le 4 s.time.stepCount ++ le 4 0) := by
  refine answered_of (body := timeGetBody) (fun _ _ => rfl) (fun r s u _ _ hu _ => ?_)
  unfold timeGetBody readCmd
  dsimp only
  rw [time_of_mailed hu]

theorem heldClasses_of_mailed {s u : State} (h : u = s.mailed u) : u.heldClasses = s.heldClasses :=
  (congrArg State.heldClasses h).trans rfl

theorem gateGetStatus_answered : Answered 0x0807 .gateGetStatus (fun r s => s.argPort r.payload = true) (fun r s =>
    let p := rd r.payload 0 2
    let g := (s.gate p).oper
    le 2 g.entries.length ++ le 2 (if g.entries.isEmpty then 0 else g.entryAt s.time.units) ++ le 1 g.mask
      ++ le 1 (s.gate p).now ++ le 1 (s.heldClasses p) ++ le 1 0 ++ le 8 g.cycle ++ le 8 g.baseSec ++ le 4 g.baseNs
      ++ le 4 (s.gate p).changes ++ (List.range 8).flatMap (fun c => le 8 (g.longestField c))) := by
  refine answered_of (body := gateGetStatusBody) (fun _ _ => rfl) (fun r s u _ _ hu hok => ?_)
  have hgate : u.gate = s.gate := (congrArg State.gate hu).trans rfl
  unfold gateGetStatusBody readCmd
  dsimp only
  rw [if_pos ((argPort_of_mailed hu).trans hok), hgate, time_of_mailed hu, heldClasses_of_mailed hu]

theorem timeGetCounters_answered : Answered 0x0808 .timeGetCounters (fun r s => s.argPort r.payload = true)
    (fun r s => ctrBytes s.tel.timeCtr (9 * rd r.payload 0 2) 9) := by
  refine answered_of (body := timeGetCountersBody) (fun _ _ => rfl) (fun r s u _ _ hu hok => ?_)
  have hctr : u.tel.timeCtr = s.tel.timeCtr := (congrArg (·.tel.timeCtr) hu).trans rfl
  unfold timeGetCountersBody readCmd
  dsimp only
  rw [if_pos ((argPort_of_mailed hu).trans hok), hctr]

/-- Settles O25: TIME_ADJUST by its operations, each write by what is read back, each read from what mail does not move. -/
theorem timeCommands : Obligations.TimeCommands := by
  unfold Obligations.TimeCommands
  exact ⟨timeGet_answered, timeAdjust_turnedAway, timeAdjust_does_incr, timeAdjust_does_slew, timeAdjust_does_offset,
    timeAdjust_does_set, timeSetPtp_carried, timeSetPort_carried, timeSetPps_carried, gateGetStatus_answered,
    timeGetCounters_answered⟩

end Sys2Proof.Machine
end

section
/-! PROOF. The PPS pins, the servo, the end of a slew, gate events and the two-step FIFOs (R216, R217, R226, R230, R231, R236). -/

namespace Sys2Proof.Machine

/-! ### What changes the state of the time base (R216) -/

section

variable {s : State}

/-- The source is lost: LOCKED goes to HOLDOVER. -/
theorem State.time_sourceLost (s : State) : s.sourceLost.time
    = { s.time with goodIntervals := 0, state := if s.time.state = .locked then .holdover else s.time.state } := by
  unfold State.sourceLost
  dsimp only
  split
  · exact State.time_setTimeState _ _
  · rfl

/-- What the servo's judgement ends with: LOCKED after 16 good intervals, FREE_RUN far off, else the state stays. -/
theorem State.time_relock {b : State} (hb : b.time.state ≠ .unset) (far : Prop) [Decidable far] : ∃ x, x ≠ TbState.unset
    ∧ (if 16 ≤ b.time.goodIntervals then b.setTimeState .locked
        else if b.time.state = .locked ∧ far then b.setTimeState .freeRun else b).time = { b.time with state := x } := by
  split
  · exact ⟨.locked, by decide, State.time_setTimeState _ _⟩
  · split
    · exact ⟨.freeRun, by decide, State.time_setTimeState _ _⟩
    · exact ⟨_, hb, rfl⟩

/-- The state of the time base that a servo starts from. -/
theorem State.time_adjusting (s : State) : ∃ x, x ≠ TbState.unset
    ∧ (if s.time.state = .unset then s.setTimeState .freeRun else s).time = { s.time with state := x } := by
  split
  · exact ⟨.freeRun, by decide, State.time_setTimeState _ _⟩
  · next h => exact ⟨_, h, rfl⟩

/-- One more interval in a row is within the lock threshold, or none. -/
def TimeBase.counted (t : TimeBase) (good : Bool) : TimeBase :=
  { t with goodIntervals := if good then min 16 (t.goodIntervals + 1) else 0 }

/-- The servo's judgement moves the state of the time base and its count of good intervals alone, and never to UNSET. -/
theorem State.time_judge (s : State) (off : Int) : ∃ x n, x ≠ TbState.unset
    ∧ (s.judge off).time = { s.time with state := x, goodIntervals := n } := by
  obtain ⟨y, hy, ha⟩ := s.time_adjusting
  unfold State.judge
  generalize (if s.time.state = .unset then s.setTimeState .freeRun else s) = a at ha ⊢
  obtain ⟨x, hx, ht⟩ := State.time_relock
    (b := a.updTime (TimeBase.counted · (decide (off.natAbs ≤ 65536 * s.ptp.lockNs))))
    (by rw [State.updTime, ha]; exact hy) (4 * 65536 * s.ptp.lockNs < off.natAbs)
  exact ⟨x, _, hx, ht.trans (by rw [State.updTime, ha]; rfl)⟩

/-- A trimmed increment is within the range (R214). -/
theorem incrOk_clampIncr (i : Int) : incrOk (clampIncr i) = true := by
  unfold incrOk clampIncr nominalIncr
  rw [decide_eq_true_eq]
  omega

/-! ### PPS_IN (R230) -/

/-- The time base with an edge of PPS_IN latched. -/
def TimeBase.ppsLatched (t : TimeBase) : TimeBase :=
  { t with ppsInSec := t.latched.1, ppsInNs := t.latched.2, ppsInValid := true }

theorem ppsInEdge_exec (hr : s.pwr.inReset = false) : exec .ppsInEdge s
    = .next (if s.ptp.source = 1 ∧ s.ptp.profile ≠ 0 then (s.updTime TimeBase.ppsLatched).servo s.time.ppsOffsetNow
        else s.updTime TimeBase.ppsLatched) :=
  congrArg _ (if_neg (by simp [hr]))

theorem ppsInEdge_ends_unsteered (hr : s.pwr.inReset = false) (h : s.ptp.source ≠ 1 ∨ s.ptp.profile = 0) :
    Ends .ppsInEdge s (fun t => t = s.updTime TimeBase.ppsLatched) :=
  ends_of_exec (ppsInEdge_exec hr) (if_neg (by tauto))

/-- During a failover nothing reaches the increment (R266). -/
theorem ppsInEdge_ends_failing (hr : s.pwr.inReset = false) (hf : s.pwr.failing.isSome = true) :
    Ends .ppsInEdge s (fun t => t = s.updTime TimeBase.ppsLatched) := by
  refine ends_of_exec (ppsInEdge_exec hr) ?_
  split
  · exact if_pos hf
  · rfl

/-- The time base once the servo has trimmed it. -/
def TimeBase.trimmed (t : TimeBase) (off : Int) : TimeBase :=
  if t.state = .holdover then t else { t with incr := clampIncr (t.incr + Config.servo off) }

/-- A servo that does not step the time base trims it, and judges. -/
theorem State.time_servo_trims {off : Int} (hf : s.pwr.failing = none) (hb : bit s.freeVal 0 = false) :
    ∃ x n, x ≠ TbState.unset ∧ (s.servo off).time = { s.time.trimmed off with state := x, goodIntervals := n } := by
  have htrim : (if s.time.state = .holdover then { s with bake := { s.bake with timeOffset := off } }
      else State.updTime { s with bake := { s.bake with timeOffset := off } }
        (fun t => { t with incr := clampIncr (t.incr + Config.servo off) })).time = s.time.trimmed off := by
    unfold TimeBase.trimmed
    split <;> rfl
  unfold State.servo
  rw [if_neg (by simp [hf])]
  simp only [hb, Bool.false_eq_true, if_false]
  rw [← htrim]
  exact State.time_judge (State.drawn _ 1) off

theorem ppsInEdge_ends_steered (hr : s.pwr.inReset = false) (hs : s.ptp.source = 1) (hp : s.ptp.profile ≠ 0)
    (hf : s.pwr.failing = none) (hb : bit s.freeVal 0 = false) : Ends .ppsInEdge s (fun t =>
      t.time.ppsInValid = true ∧ t.time.ppsInSec = s.time.latched.1 ∧ t.time.ppsInNs = s.time.latched.2
      ∧ (s.time.state = .holdover → t.time.incr = s.time.incr) ∧ (s.time.state ≠ .holdover → incrOk t.time.incr = true)
      ∧ t.time.sec = s.time.sec ∧ t.time.ns = s.time.ns ∧ t.time.state ≠ .unset) := by
  refine ends_of_exec (ppsInEdge_exec hr) ?_
  rw [if_pos ⟨hs, hp⟩]
  obtain ⟨x, n, hx, ht⟩ := State.time_servo_trims (s := s.updTime TimeBase.ppsLatched) (off := s.time.ppsOffsetNow) hf hb
  rw [ht]
  unfold TimeBase.trimmed
  by_cases hh : s.time.state = .holdover
  · rw [if_pos (show (s.updTime TimeBase.ppsLatched).time.state = _ from hh)]
    exact ⟨rfl, rfl, rfl, fun _ => rfl, fun h => absurd hh h, rfl, rfl, hx⟩
  · rw [if_neg (show (s.updTime TimeBase.ppsLatched).time.state ≠ _ from hh)]
    exact ⟨rfl, rfl, rfl, fun h => absurd h hh, fun _ => incrOk_clampIncr _, rfl, rfl, hx⟩

theorem ppsInTimeout_idles (h : s.time.ppsInValid = false) : Idles .ppsInTimeout s := congrArg _ (if_pos h)

/-- PPS_IN as it is known once no edge has come in time. -/
def State.ppsInLost (s : State) : State := (s.updTime (fun t => { t with ppsInValid := false })).raise 0x0804 sevWarning []

theorem State.time_ppsInLost (s : State) : s.ppsInLost.time = { s.time with ppsInValid := false } := State.time_raise _ _ _ _

theorem ppsInTimeout_exec (h : s.time.ppsInValid = true) : exec .ppsInTimeout s
    = .next (if s.ptp.source = 1 ∧ s.pwr.failing = none then s.ppsInLost.sourceLost else s.ppsInLost) :=
  congrArg _ (if_neg (by simp [h]))

theorem ppsInTimeout_ends_unsteered (h : s.time.ppsInValid = true) (hn : s.ptp.source ≠ 1 ∨ s.pwr.failing.isSome = true) :
    Ends .ppsInTimeout s (fun t => t.time = { s.time with ppsInValid := false }) := by
  refine ends_of_exec (ppsInTimeout_exec h) ?_
  rw [if_neg (fun k => hn.elim (· k.1) (by simp [k.2]))]
  exact s.time_ppsInLost

theorem ppsInTimeout_ends_steered (h : s.time.ppsInValid = true) (hs : s.ptp.source = 1) (hf : s.pwr.failing = none) :
    Ends .ppsInTimeout s (fun t => t.time = { s.time with
      ppsInValid := false, goodIntervals := 0, state := if s.time.state = .locked then .holdover else s.time.state }) := by
  refine ends_of_exec (ppsInTimeout_exec h) ?_
  rw [if_pos ⟨hs, hf⟩, State.time_sourceLost, State.time_ppsInLost]

/-! ### The end of a slew (R217) -/

theorem timeSlewComplete_ends (hlo : 0 ≤ (s.time.units : Int) + s.time.slewLeft)
    (hhi : (s.time.units : Int) + s.time.slewLeft < (2 ^ 48 * secUnits : Nat)) :
    Ends .timeSlewComplete s (fun t => (t.time.units : Int) = s.time.units + s.time.slewLeft ∧ t.time.slewLeft = 0
      ∧ t.time.incr = s.time.incr ∧ t.time.state = s.time.state) := by
  refine ends_of_exec rfl ⟨?_, rfl, rfl, rfl⟩
  show (((s.time.setUnits (s.time.units + s.time.slewLeft).toNat).units : Nat) : Int) = _
  rw [TimeBase.units_setUnits _ (by omega), Int.toNat_of_nonneg hlo]

/-! ### Gate events (R236) -/

/-- Without a list every gate is open. -/
theorem GateList.statesAt_of_empty {g : GateList} (h : g.entries = []) (n : Nat) : g.statesAt n = 0xFF := by
  unfold GateList.statesAt GateList.spans
  rw [h]
  rfl

variable {p : Nat}

theorem gateEvent_exec (hp : p < 512) : exec (.gateEvent p) s
    = .next (s.updGate p (fun g => { g with now := g.oper.statesAt s.time.units })) := if_neg (by omega)

theorem gateEvent_ends (hp : p < 512) : Ends (.gateEvent p) s (fun t =>
      t.gate p = { s.gate p with now := (s.gate p).oper.statesAt s.time.units } ∧ (∀ q, q ≠ p → t.gate q = s.gate q)
      ∧ ((s.gate p).oper.entries = [] → (t.gate p).now = 0xFF)) := by
  refine ends_of_exec (gateEvent_exec hp) ⟨State.gate_updGate_same _ _ _, fun q hq => ?_, fun h => ?_⟩
  · rw [State.gate_updGate, if_neg (Ne.symm hq)]
  · rw [State.gate_updGate_same]
    exact GateList.statesAt_of_empty h _

/-! ### The two-step FIFOs (R226) -/

variable {n : Nat}

theorem tsFifoRelay_idles (hn : n < 16) (h : s.fifoMoaras n = false) : Idles (.tsFifoRelay n) s := by
  show (if _ then _ else _) = _
  rw [if_neg (by omega), if_pos h]

theorem tsFifoRelay_exec (hn : n < 16) (h : s.fifoMoaras n = true) : exec (.tsFifoRelay n) s
    = .next ((s.tsFifo n).entries.foldl State.relayEntry (s.updTsFifo n (fun f => { f with entries := [] }))) := by
  show (if _ then _ else _) = _
  rw [if_neg (by omega), if_neg (by simp [h])]

theorem tsFifoRelay_ends (hn : n < 16) (h : s.fifoMoaras n = true) : Ends (.tsFifoRelay n) s (fun t =>
    (t.tsFifo n).entries = [] ∧ ∀ m, m ≠ n → t.tsFifo m = s.tsFifo m) := by
  refine ends_of_exec (tsFifoRelay_exec hn h) ?_
  rw [foldl_read State.tsFifo (fun t e _ => funext fun m => congrArg (Tab.get TsFifo.init · m)
    ((State.relayEntry_frame (Touch.or_self _) .refl e).tsFifos rfl))]
  exact ⟨by rw [State.tsFifo_updTsFifo_same], fun m hm => by rw [State.tsFifo_updTsFifo, if_neg (Ne.symm hm)]⟩

end

end Sys2Proof.Machine
end

section
/-! PROOF. The PTP messages that Moaras sends: what sending one leaves of the ports, and that it is on the wire or waits (R48, R232,
R233); the parent, and the messages of an interval. -/

namespace Sys2Proof.Machine

/-! ### What sending leaves of a port -/

section

variable {α : Type} {g : PortSt → α} (hg : ∀ q x, g { q with ptp := x } = g q)
include hg

/-- What the PTP record of a port does not say stands. -/
theorem State.updPtp_field (s : State) (p q : Nat) (f : PortPtp → PortPtp) : g ((s.updPtp p f).port q) = g (s.port q) := by
  rw [State.updPtp_port]
  split
  · next h => rw [hg, h]
  · rfl

end

theorem State.updPtp_ptpClass (s : State) (p q : Nat) (f : PortPtp → PortPtp) : (s.updPtp p f).ptpClass q = s.ptpClass q := by
  unfold State.ptpClass
  rw [State.updPtp_field (g := PortSt.pcp) (fun _ _ => rfl)]
  rfl

theorem State.updPtp_txClear (s : State) (p q c : Nat) (f : PortPtp → PortPtp) : (s.updPtp p f).txClear q c = s.txClear q c := by
  unfold State.txClear State.classPaused
  rw [State.updPtp_field (g := PortSt.txPkt) (fun _ _ => rfl), State.updPtp_field (g := PortSt.lpi) (fun _ _ => rfl),
    State.updPtp_field (g := PortSt.pause) (fun _ _ => rfl), State.updPtp_field (g := PortSt.storm) (fun _ _ => rfl)]
  rfl

/-- The part of a port's PTP record that sending a message leaves alone: what has been received, and the numbers of what is sent. -/
def PortPtp.kept (q : PortPtp) : List PtpRx × Tab Nat := (q.rx, q.txSeq)

/-- The kept parts of every port's PTP record. -/
def State.ptpKept (s : State) (q : Nat) : List PtpRx × Tab Nat := (s.port q).ptp.kept

theorem State.updPtp_kept (s : State) (p : Nat) {f : PortPtp → PortPtp} (hf : ∀ x, (f x).kept = x.kept) :
    (s.updPtp p f).ptpKept = s.ptpKept := by
  funext q
  unfold State.ptpKept
  rw [State.updPtp_port]
  split
  · next h => rw [← h]; exact hf _
  · rfl

/-- What leaves the ports alone leaves the kept parts. -/
theorem Frame.ptpKept {w : Touch} {s t : State} (h : Frame w s t) (hw : w.ports = false) : t.ptpKept = s.ptpKept := by
  unfold State.ptpKept
  rw [h.port_eq hw]

theorem State.ptpGeneral_kept (s : State) (p : Nat) (b : List Byte) : (s.ptpGeneral p b).ptpKept = s.ptpKept :=
  (State.ptpGeneral_frame (Touch.or_self _) .refl p b).ptpKept rfl

theorem State.sendNow_kept (s : State) (p : Nat) (o : Output) : (s.sendNow p o).ptpKept = s.ptpKept :=
  (State.sendNow_frame (Touch.or_self _) .refl p o).ptpKept rfl

theorem State.drawn_kept (s : State) (n : Nat) : (s.drawn n).ptpKept = s.ptpKept := rfl

theorem State.ptpSent_kept (s : State) (p ty seq : Nat) (x : Nat × Nat × Nat) : (s.ptpSent p ty seq x).ptpKept = s.ptpKept := by
  unfold State.ptpSent
  split
  · rw [State.ptpGeneral_kept, State.drawn_kept]
  · split
    · split
      · rw [State.ptpGeneral_kept]
        exact s.updPtp_kept p (fun _ => rfl)
      · rfl
    · rfl
  · exact s.updPtp_kept p (fun _ => rfl)

theorem State.capture_kept (s : State) (p tx : Nat) (b : List Byte) (o : Nat) : (s.capture p tx b o).ptpKept = s.ptpKept := by
  have hseq (n : Nat) : (s.updPort p (fun q => { q with ptp := { q.ptp with capSeq := n } })).ptpKept = s.ptpKept :=
    s.updPtp_kept p (f := fun q => { q with capSeq := n }) (fun _ => rfl)
  unfold State.capture
  dsimp only
  split
  · split
    · exact hseq _
    · exact hseq _
  · exact ((State.raiseLimited_frame (Touch.or_self _) .refl _ _ _ _ _).ptpKept rfl).trans (hseq _)

theorem State.ptpOut_kept (s : State) (p : Nat) (b : List Byte) : (s.ptpOut p b).ptpKept = s.ptpKept := by
  have hsent (o : Output) : ((s.sendNow p o).drawn 1).ptpKept = s.ptpKept := (State.drawn_kept _ 1).trans (s.sendNow_kept p o)
  unfold State.ptpOut
  dsimp only
  split
  · exact ((State.bumpTime_frame (Touch.or_self _) .refl p 2 1).ptpKept rfl).trans (hsent _)
  · split
    · exact (State.ptpSent_kept _ _ _ _ _).trans (hsent _)
    · split
      · exact (State.capture_kept _ _ _ _ _).trans (hsent _)
      · exact hsent _

theorem State.ptpEventSend_kept (s : State) (p : Nat) (b : List Byte) : (s.ptpEventSend p b).ptpKept = s.ptpKept := by
  unfold State.ptpEventSend State.sendClass
  split
  · rfl
  · split
    · exact s.ptpOut_kept p b
    · rfl

/-! ### What has been sent stays sent -/

section

variable {s : State} {o : Output} (h : o ∈ s.out)
include h

theorem State.mem_out_raise (c v : Nat) (a : List Byte) : o ∈ (s.raise c v a).out := List.mem_append_right _ h

theorem State.mem_out_interrupt (n : Nat) : o ∈ (s.interrupt n).out := List.mem_append_right _ h

theorem State.mem_out_raiseLimited (c v i n : Nat) (a : List Byte) : o ∈ (s.raiseLimited c v i n a).out := by
  unfold State.raiseLimited
  dsimp only
  split
  · exact State.mem_out_raise h c v a
  · exact h

theorem State.mem_out_ptpGeneral (p : Nat) (b : List Byte) : o ∈ (s.ptpGeneral p b).out := by
  unfold State.ptpGeneral State.sendClass
  split
  · exact h
  · split
    · exact List.mem_cons_of_mem _ h
    · exact h

theorem State.mem_out_ptpSent (p ty seq : Nat) (x : Nat × Nat × Nat) : o ∈ (s.ptpSent p ty seq x).out := by
  unfold State.ptpSent
  split
  · exact State.mem_out_ptpGeneral (s := s.drawn 1) h _ _
  · split
    · split
      · exact State.mem_out_ptpGeneral (s := s.updPtp p _) h _ _
      · exact h
    · exact h
  · exact h

theorem State.mem_out_capture (p tx : Nat) (b : List Byte) (i : Nat) : o ∈ (s.capture p tx b i).out := by
  unfold State.capture
  dsimp only
  split
  · split
    · exact h
    · refine State.mem_out_interrupt ?_ _
      exact h
  · refine State.mem_out_raiseLimited ?_ _ _ _ _ _
    exact h

end

/-! ### An event message of Moaras is sent, or waits (R48, R233) -/

/-- A message other than a Sync leaves as it is. -/
theorem State.ptpOut_sends (s : State) (p : Nat) {b : List Byte} (hty : ptpType b 0 ≠ 0) : .ptp p b ∈ (s.ptpOut p b).out := by
  have hsent : Output.ptp p b ∈ ((s.sendNow p (.ptp p b)).drawn 1).out := List.mem_cons_self
  unfold State.ptpOut
  simp only [hty, decide_false, Bool.and_false, Bool.false_and, Bool.false_eq_true, if_false]
  split
  · exact State.mem_out_ptpSent hsent _ _ _ _
  · split
    · exact State.mem_out_capture hsent _ _ _ _
    · exact hsent

/-- A message of Moaras from port `p` of `s`: it is on the wire where its class was clear, else it waits with its class; in storm state
nothing is said. -/
def SentOrWaits (s t : State) (p : Nat) (b : List Byte) : Prop :=
  bit (s.port p).storm (s.ptpClass p) = false →
    if s.txClear p (s.ptpClass p) then .ptp p b ∈ t.out else (s.ptpClass p, .ptp p b) ∈ t.waiting p

theorem State.ptpEventSend_sends (s : State) (p : Nat) {b : List Byte} (hty : ptpType b 0 ≠ 0) :
    SentOrWaits s (s.ptpEventSend p b) p b := by
  intro hstorm
  unfold State.ptpEventSend State.sendClass
  rw [if_neg (show ¬ bit (s.port p).storm (s.ptpClass p) = true by simp [hstorm])]
  split
  · exact s.ptpOut_sends p hty
  · rw [State.waiting_setWaiting, if_pos rfl]
    exact List.mem_append_right _ (List.mem_singleton.mpr rfl)

/-- What is sent once the port's PTP record has been written is sent as from the port before. -/
theorem SentOrWaits.of_updPtp {s t : State} {p : Nat} {f : PortPtp → PortPtp} {b : List Byte}
    (h : SentOrWaits (s.updPtp p f) t p b) : SentOrWaits s t p b := by
  unfold SentOrWaits at h ⊢
  rwa [State.updPtp_field (g := PortSt.storm) (fun _ _ => rfl), State.updPtp_ptpClass, State.updPtp_txClear] at h

/-- Nor do free values that have been taken change it. -/
theorem SentOrWaits.of_drawn {s t : State} {p n : Nat} {b : List Byte} (h : SentOrWaits (s.drawn n) t p b) : SentOrWaits s t p b := h

/-- The type of a message that Moaras builds. -/
theorem State.ptpType_ptpMsg (s : State) (p flags seq : Nat) (corr : Int) (body : List Byte) {ty : Nat} (h : ty < 16) :
    ptpType (s.ptpMsg p ty flags seq corr body) 0 = ty := by
  have hfirst (v : Nat) (l : List Byte) : fld (be 1 v ++ l) 0 1 = v % 256 := by
    simp [fld, be, le, slice, padTo, ofBe]
  unfold ptpType State.ptpMsg
  simp only [List.append_assoc]
  rw [hfirst]
  split <;> omega

/-! ### The parent (R232) -/

section

variable {s : State}

theorem State.dropParent_of_none (h : s.parent = none) : s.dropParent = s := by
  unfold State.dropParent
  rw [h]

theorem State.dropParent_of_some {x : Nat × List Byte} (h : s.parent = some x) : s.dropParent
    = s.updPtp x.1 (fun q => { q with foreign := q.foreign.filter (fun f => msgSender f.ann != msgSender x.2) }) := by
  unfold State.dropParent
  rw [h]

/-- What PTP_ANNOUNCE_TIMEOUT leaves: the parent dropped, and the time source lost where it is the network. -/
def State.announceLost (s : State) : State := if s.ptp.source = 0 then s.dropParent.sourceLost else s.dropParent

theorem ptpAnnounceTimeout_exec (hf : s.pwr.failing = none) : exec .ptpAnnounceTimeout s = .next s.announceLost :=
  congrArg _ (if_neg (by simp [hf]))

theorem State.announceLost_ports (s : State) : s.announceLost.ports = s.dropParent.ports := by
  unfold State.announceLost
  split
  · exact (State.sourceLost_frame (Touch.or_self _) .refl).ports rfl
  · rfl

theorem State.time_announceLost (s : State) : s.announceLost.time = if s.ptp.source = 0 then { s.time with
    goodIntervals := 0, state := if s.time.state = .locked then .holdover else s.time.state } else s.time := by
  have hdrop : s.dropParent.time = s.time := (State.dropParent_frame (Touch.or_self _) .refl).time rfl
  unfold State.announceLost
  split
  · rw [State.time_sourceLost, hdrop]
  · exact hdrop

theorem ptpAnnounceTimeout_ends (hf : s.pwr.failing = none) : Ends .ptpAnnounceTimeout s (fun t =>
    t.time = (if s.ptp.source = 0 then { s.time with
      goodIntervals := 0, state := if s.time.state = .locked then .holdover else s.time.state } else s.time)
    ∧ (∀ x, s.parent = some x → (∀ f ∈ (t.port x.1).ptp.foreign, msgSender f.ann ≠ msgSender x.2)
      ∧ ∀ q, q ≠ x.1 → t.port q = s.port q)
    ∧ (s.parent = none → t.ports = s.ports)) := by
  have hport : s.announceLost.port = s.dropParent.port := by
    unfold State.port
    rw [State.announceLost_ports]
  refine ends_of_exec (ptpAnnounceTimeout_exec hf) ⟨s.time_announceLost, fun x hx => ?_, fun h => ?_⟩
  · rw [hport, State.dropParent_of_some hx]
    refine ⟨fun f hmem => ?_, fun q hq => by rw [State.updPtp_port, if_neg (Ne.symm hq)]⟩
    rw [State.updPtp_port, if_pos rfl] at hmem
    simpa using (List.mem_filter.mp hmem).2
  · rw [State.announceLost_ports, State.dropParent_of_none h]

theorem ptp_idles_failing (hf : s.pwr.failing.isSome = true) : Idles .ptpAnnounceTimeout s ∧ Idles .ptpIntervalTick s
    ∧ ∀ p b, p < 512 → Idles (.ptpMessageProcess p b) s := by
  refine ⟨congrArg _ (if_pos hf), congrArg _ (if_pos (.inr hf)), fun p b hp => ?_⟩
  show (if _ then _ else _) = _
  rw [if_neg (by omega), if_pos hf]

/-! ### Messages sent at an interval (R232) -/

theorem ptpIntervalTick_idles (h : s.ptp.profile = 0) : Idles .ptpIntervalTick s := congrArg _ (if_pos (.inl h))

variable {p : Nat} {q : PortSt}

theorem ptpIntervalTick_exec (hprof : s.ptp.profile ≠ 0) (hf : s.pwr.failing = none) (hports : s.ports = [(p, q)]) (hp : p < 512)
    (hl : q.link = true) : exec .ptpIntervalTick s = .next (s.ptpIntervals p) := by
  refine congrArg _ ((if_neg (by simp [hprof, hf])).trans ?_)
  simp [hports, hp, hl]

/-- A TC P2P port sends Pdelay_Req alone, where its interval has expired. -/
theorem State.ptpIntervals_of_tcP2p (h : (s.port p).ptp.role = 3) :
    s.ptpIntervals p = if bit s.freeVal 0 then (s.drawn 1).ptpSend p 2 else s.drawn 1 := by
  simp [State.ptpIntervals, State.intervalTypes, h]

/-- The port's next message of a type is numbered. -/
def State.ptpNumbered (s : State) (p ty : Nat) : State :=
  s.updPtp p (fun q => { q with txSeq := Tab.set 0 q.txSeq ty ((Tab.get 0 (s.port p).ptp.txSeq ty + 1) % 65536) })

/-- The Pdelay_Req that a port sends next. -/
def State.pdelayReq (s : State) (p : Nat) : List Byte := s.ptpMsg p 2 0 (Tab.get 0 (s.port p).ptp.txSeq 2) 0 (be 20 0)

theorem State.ptpSend_pdelayReq (s : State) (p : Nat) :
    s.ptpSend p 2 = ((s.ptpNumbered p 2).drawn 2).ptpEventSend p (s.pdelayReq p) := rfl

theorem State.txSeq_ptpSend_pdelayReq (s : State) (p : Nat) :
    Tab.get 0 ((s.ptpSend p 2).port p).ptp.txSeq 2 = (Tab.get 0 (s.port p).ptp.txSeq 2 + 1) % 65536 := by
  have hkept : (s.ptpSend p 2).ptpKept p = (s.ptpNumbered p 2).ptpKept p := by
    rw [State.ptpSend_pdelayReq, State.ptpEventSend_kept, State.drawn_kept]
  have hseq : ((s.ptpSend p 2).port p).ptp.txSeq = ((s.ptpNumbered p 2).port p).ptp.txSeq := congrArg Prod.snd hkept
  rw [hseq]
  unfold State.ptpNumbered
  rw [State.updPtp_port, if_pos rfl]
  exact Tab.get_set_same _ _ _ _

theorem State.ptpSend_sends_pdelayReq (s : State) (p : Nat) : SentOrWaits s (s.ptpSend p 2) p (s.pdelayReq p) := by
  rw [State.ptpSend_pdelayReq]
  refine .of_updPtp (.of_drawn (State.ptpEventSend_sends _ p ?_))
  unfold State.pdelayReq
  rw [State.ptpType_ptpMsg _ _ _ _ _ _ (by decide)]
  decide

end

end Sys2Proof.Machine
end

section
/-! PROOF. The PTP messages that Moaras takes (R222, R232), and the rows of the time base and the protocol together. -/

namespace Sys2Proof.Machine

/-! ### A message is taken from its port (R222) -/

section

variable {s : State} {p : Nat} {b : List Byte} {m : PtpRx} {l : List PtpRx} {u : Int}

/-- The messages that wait at port `p` are `l`. -/
def State.ptpTaken (s : State) (p : Nat) (l : List PtpRx) : State := s.updPtp p (fun q => { q with rx := l })

theorem State.updPtp_congr {f g : PortPtp → PortPtp} (h : f (s.port p).ptp = g (s.port p).ptp) : s.updPtp p f = s.updPtp p g := by
  unfold State.port at h
  unfold State.updPtp State.updPort Tab.upd
  dsimp only
  rw [h]

theorem ptpMessageProcess_idles (hp : p < 512) (hf : s.pwr.failing = none) (h : ∀ m ∈ (s.port p).ptp.rx, m.bytes ≠ b) :
    Idles (.ptpMessageProcess p b) s := by
  have hnone : (s.port p).ptp.rx.find? (fun m => m.bytes == b) = none :=
    List.find?_eq_none.mpr (fun m hm => by simpa using h m hm)
  show execPtpMessageProcess p b s = _
  unfold execPtpMessageProcess
  rw [if_neg (by omega), if_neg (by simp [hf]), hnone]

/-- The oldest message of a port is taken. -/
theorem ptpMessageProcess_exec (hp : p < 512) (hf : s.pwr.failing = none) (hrx : (s.port p).ptp.rx = m :: l) :
    exec (.ptpMessageProcess p m.bytes) s
      = .next (if s.ptp.profile = 0 then s.ptpTaken p l else (s.ptpTaken p l).ptpTake p m) := by
  have hfirst : (s.port p).ptp.rx.find? (fun x => x.bytes == m.bytes) = some m := by rw [hrx]; simp
  have htaken : s.updPtp p (fun q => { q with rx := q.rx.erase m }) = s.ptpTaken p l :=
    State.updPtp_congr (by simp [hrx])
  show execPtpMessageProcess p m.bytes s = _
  unfold execPtpMessageProcess
  rw [if_neg (by omega), if_neg (by simp [hf]), hfirst]
  dsimp only
  rw [htaken]

theorem State.ptpTaken_rx (s : State) (p : Nat) (l : List PtpRx) : ((s.ptpTaken p l).port p).ptp.rx = l := by
  unfold State.ptpTaken
  rw [State.updPtp_port, if_pos rfl]

/-- What leaves the kept parts leaves the messages that wait. -/
theorem State.rx_of_kept {t : State} (h : t.ptpKept p = (s.ptpTaken p l).ptpKept p) : (t.port p).ptp.rx = l :=
  (congrArg Prod.fst h : (t.port p).ptp.rx = ((s.ptpTaken p l).port p).ptp.rx).trans (s.ptpTaken_rx p l)

/-- A message that the protocol does not hear is dropped. -/
theorem State.ptpTake_unheard (h : s.ptpHears m.bytes = false) : s.ptpTake p m = s := if_pos h

theorem ptpMessageProcess_ends_unheard (hp : p < 512) (hf : s.pwr.failing = none) (hrx : (s.port p).ptp.rx = m :: l)
    (h : s.ptp.profile = 0 ∨ s.ptpHears m.bytes = false) : Ends (.ptpMessageProcess p m.bytes) s (fun t => t.port p = { s.port p with
        ptp := { (s.port p).ptp with rx := l } } ∧ ∀ q, q ≠ p → t.port q = s.port q) := by
  have hleft : (if s.ptp.profile = 0 then s.ptpTaken p l else (s.ptpTaken p l).ptpTake p m) = s.ptpTaken p l := by
    split
    · rfl
    · next hprof => exact State.ptpTake_unheard (h.resolve_left hprof)
  refine ends_of_exec ((ptpMessageProcess_exec hp hf hrx).trans (congrArg _ hleft)) ?_
  unfold State.ptpTaken
  exact ⟨by rw [State.updPtp_port, if_pos rfl], fun q hq => by rw [State.updPtp_port, if_neg (Ne.symm hq)]⟩

/-! ### Pdelay_Req is answered -/

/-- The answer to the Pdelay_Req `b` received at `u`. -/
def State.pdelayResp (s : State) (p : Nat) (b : List Byte) (u : Int) : List Byte :=
  s.ptpMsg p 3 0x0200 (msgSeq b) (-(u % 65536)) (stampBytes (stampOf (u.toNat * 2 ^ 32)) ++ msgSender b)

theorem State.ptpTake_pdelayReq (hh : s.ptpHears m.bytes = true) (hty : ptpType m.bytes 0 = 2) : s.ptpTake p m = s.takePdelayReq p m := by
  unfold State.ptpTake
  rw [if_neg (by simp [hh]), hty]
  rfl

theorem State.takePdelayReq_stamped (hu : m.stamp = some u) : s.takePdelayReq p m
    = (s.updPtp p (fun q => { q with replyTo := some (msgSender m.bytes, msgSeq m.bytes, msgCorr m.bytes) })).ptpEventSend p
        (s.pdelayResp p m.bytes u) := by
  unfold State.takePdelayReq
  rw [hu]
  rfl

theorem State.takePdelayReq_kept (hu : m.stamp = some u) : (s.takePdelayReq p m).ptpKept = s.ptpKept := by
  rw [State.takePdelayReq_stamped hu, State.ptpEventSend_kept]
  exact s.updPtp_kept p (fun _ => rfl)

theorem State.takePdelayReq_sends (hu : m.stamp = some u) : SentOrWaits s (s.takePdelayReq p m) p (s.pdelayResp p m.bytes u) := by
  rw [State.takePdelayReq_stamped hu]
  refine .of_updPtp (State.ptpEventSend_sends _ p ?_)
  unfold State.pdelayResp
  rw [State.ptpType_ptpMsg _ _ _ _ _ _ (by decide)]
  decide

theorem ptpMessageProcess_ends_pdelayReq (hp : p < 512) (hf : s.pwr.failing = none) (hrx : (s.port p).ptp.rx = m :: l)
    (hprof : s.ptp.profile ≠ 0) (hh : s.ptpHears m.bytes = true) (hty : ptpType m.bytes 0 = 2) (hu : m.stamp = some u) :
    Ends (.ptpMessageProcess p m.bytes) s (fun t => (t.port p).ptp.rx = l ∧ SentOrWaits s t p (s.pdelayResp p m.bytes u)) := by
  refine ends_of_exec (ptpMessageProcess_exec hp hf hrx) ?_
  rw [if_neg hprof, State.ptpTake_pdelayReq (s := s.ptpTaken p l) hh hty]
  exact ⟨State.rx_of_kept (congrFun (State.takePdelayReq_kept hu) p), .of_updPtp (State.takePdelayReq_sends hu)⟩

/-! ### Pdelay_Resp gives the link delay -/

theorem State.ptpTake_pdelayResp (hh : s.ptpHears m.bytes = true) (hty : ptpType m.bytes 0 = 3) : s.ptpTake p m = s.takePdelayResp p m := by
  unfold State.ptpTake
  rw [if_neg (by simp [hh]), hty]
  rfl

/-- A one-step response to the port's own request. -/
theorem State.takePdelayResp_own {r : Nat × Int} (hr : (s.port p).ptp.reqTx = some r) (hu : m.stamp = some u)
    (hseq : r.1 = msgSeq m.bytes) (hask : msgAsker m.bytes = portIdentity p) (htwo : msgTwoStep m.bytes = false) :
    s.takePdelayResp p m = s.setDelay p (u - r.2 - msgCorr m.bytes) := by
  unfold State.takePdelayResp
  rw [hr, hu]
  dsimp only
  rw [if_neg (by simp [hseq, hask]), if_neg (by simp [htwo])]

theorem ptpMessageProcess_ends_pdelayResp {r : Nat × Int} (hp : p < 512) (hf : s.pwr.failing = none)
    (hrx : (s.port p).ptp.rx = m :: l) (hprof : s.ptp.profile ≠ 0) (hh : s.ptpHears m.bytes = true) (hty : ptpType m.bytes 0 = 3)
    (hu : m.stamp = some u) (hr : (s.port p).ptp.reqTx = some r) (hseq : r.1 = msgSeq m.bytes)
    (hask : msgAsker m.bytes = portIdentity p) (htwo : msgTwoStep m.bytes = false) :
    Ends (.ptpMessageProcess p m.bytes) s (fun t => (t.port p).ptp.rx = l
      ∧ (t.port p).ptp.linkDelay = ((u - r.2 - msgCorr m.bytes) / 2).toNat) := by
  have hreq : ((s.ptpTaken p l).port p).ptp.reqTx = some r := by
    unfold State.ptpTaken
    rw [State.updPtp_port, if_pos rfl]
    exact hr
  refine ends_of_exec (ptpMessageProcess_exec hp hf hrx) ?_
  rw [if_neg hprof, State.ptpTake_pdelayResp (s := s.ptpTaken p l) hh hty, State.takePdelayResp_own hreq hu hseq hask htwo]
  unfold State.setDelay
  rw [State.updPtp_port, if_pos rfl]
  exact ⟨s.ptpTaken_rx p l, rfl⟩

end

/-! ### O42 -/

section

variable {s : State} {p : Nat} {q : PortSt}

theorem ptpIntervalTick_ends_sends (hprof : s.ptp.profile ≠ 0) (hf : s.pwr.failing = none) (hports : s.ports = [(p, q)]) (hp : p < 512)
    (hl : q.link = true) (hrole : q.ptp.role = 3) (hb : bit s.freeVal 0 = true) : Ends .ptpIntervalTick s (fun t =>
      let n := Tab.get 0 q.ptp.txSeq 2
      let c := s.ptpClass p
      let m := s.ptpMsg p 2 0 n 0 (be 20 0)
      Tab.get 0 (t.port p).ptp.txSeq 2 = (n + 1) % 65536
      ∧ (bit q.storm c = false → (if s.txClear p c then .ptp p m ∈ t.out else (c, .ptp p m) ∈ t.waiting p))) := by
  obtain rfl : s.port p = q := by simp [State.port, hports, Tab.get, Tab.find]
  refine ends_of_exec (ptpIntervalTick_exec hprof hf hports hp hl) ?_
  rw [State.ptpIntervals_of_tcP2p hrole, if_pos hb]
  exact ⟨State.txSeq_ptpSend_pdelayReq (s.drawn 1) p, SentOrWaits.of_drawn ((s.drawn 1).ptpSend_sends_pdelayReq p)⟩

theorem ptpIntervalTick_ends_quiet (hprof : s.ptp.profile ≠ 0) (hf : s.pwr.failing = none) (hports : s.ports = [(p, q)]) (hp : p < 512)
    (hl : q.link = true) (hrole : q.ptp.role = 3) (hb : bit s.freeVal 0 = false) :
    Ends .ptpIntervalTick s (fun t => t = { s with free := s.free + 1 }) := by
  obtain rfl : s.port p = q := by simp [State.port, hports, Tab.get, Tab.find]
  refine ends_of_exec (ptpIntervalTick_exec hprof hf hports hp hl) ?_
  rw [State.ptpIntervals_of_tcP2p hrole, if_neg (by simp [hb])]
  rfl

end

/-- Settles O42: each row is one operation on the time base, a gate, a FIFO or a port's PTP record, and each operation's rule says what
it leaves. -/
theorem timeRows : Obligations.TimeRows := by
  unfold Obligations.TimeRows
  refine ⟨fun s hr => ⟨ppsInEdge_ends_unsteered hr, ppsInEdge_ends_failing hr, ppsInEdge_ends_steered hr⟩,
    fun s => ⟨ppsInTimeout_idles, ppsInTimeout_ends_unsteered, ppsInTimeout_ends_steered⟩,
    fun s => ⟨ends_of_exec rfl rfl, ends_of_exec rfl rfl⟩, fun s => timeSlewComplete_ends, fun s => ptp_idles_failing,
    fun s => ptpAnnounceTimeout_ends,
    fun s => ⟨ptpIntervalTick_idles, fun p q hprof hf hports hp hl hrole =>
      ⟨ptpIntervalTick_ends_sends hprof hf hports hp hl hrole, ptpIntervalTick_ends_quiet hprof hf hports hp hl hrole⟩⟩,
    ?message, fun s n hn => ⟨tsFifoRelay_idles hn, tsFifoRelay_ends hn⟩, fun s p => gateEvent_ends⟩
  case message =>
    refine fun s p b hp hf => ⟨ptpMessageProcess_idles hp hf, fun m l hrx hb => ?_⟩
    subst hb
    exact ⟨ptpMessageProcess_ends_unheard hp hf hrx,
      fun u hprof hh hty hu => ptpMessageProcess_ends_pdelayReq hp hf hrx hprof hh hty hu,
      fun u r hprof hh hty hu hr hseq hask htwo => ptpMessageProcess_ends_pdelayResp hp hf hrx hprof hh hty hu hr hseq hask htwo⟩

end Sys2Proof.Machine
end

section
/-! PROOF. The FRER and redundancy commands (R247 to R270): what the writes leave in a stream, in a port and in both copies of the
stream records, and what a switchover and a resynchronisation leave of a Leaven cluster and of the management processors. -/

namespace Sys2Proof.Machine

/-! ### Streams and ports (R247, R255, R256) -/

section

variable {s u : State} {op : Nat} {p : List Byte}

theorem GenTables.frerAt_putFrer (p : List Byte) (g : GenTables) (n : Nat) :
    (g.putFrer p).frerAt n = if rd p 0 2 = n then frerOf p else g.frerAt n := Tab.get_set _ _ _ _ _

theorem State.stream_of_written (h : u = (s.shadow op p).mailed u) : u.stream = s.stream := (congrArg State.stream h).trans rfl

theorem State.stream_of_mailed (h : u = s.mailed u) : u.stream = s.stream := (congrArg State.stream h).trans rfl

theorem State.frerNow_of_mailed (h : u = s.mailed u) : u.frerNow = s.frerNow := (congrArg State.frerNow h).trans rfl

theorem State.liveGen_stream (s : State) (op : Nat) (p : List Byte) (h : GenTables → GenTables) :
    (s.liveGen op p h).stream = s.stream := by
  unfold State.liveGen
  split <;> rfl

/-- A live write of a stream record rewrites the state of its own stream. -/
theorem applyFrerSetStream_stream (p : List Byte) (s : State) (n : Nat) : (applyFrerSetStream p s).stream n
    = if rd p 0 2 = n then (s.stream (rd p 0 2)).rewrite (s.frerNow (rd p 0 2)) (frerOf p) else s.stream n := by
  unfold applyFrerSetStream State.frerRewrite
  rw [State.stream_updStream, State.liveGen_stream]

theorem liveFrerSetStream_of_mailed (h : u = s.mailed u) : liveFrerSetStream p u = liveFrerSetStream p s := by
  rw [h]; rfl

theorem checkFrerSetPort_none (hp : s.portActive (rd p 0 2) = true) (h1 : rd p 2 1 ≤ 1) (h2 : rd p 2 1 = 0 ∨ rd p 3 1 ≤ 1) :
    checkFrerSetPort p s = none := by
  simp [checkFrerSetPort, need, hp, h1, h2]

theorem frerSetStream_carried : Carried 0x0901 .frerSetStream (fun p s => liveFrerSetStream p s = none)
    (fun p s t => GenWritten 0x0901 p s t (fun a b => b.frerAt (rd p 0 2) = frerOf p
        ∧ ∀ n, n ≠ rd p 0 2 → b.frerAt n = a.frerAt n)
      ∧ t.stream (rd p 0 2) = (s.stream (rd p 0 2)).rewrite (s.frerNow (rd p 0 2)) (frerOf p)
      ∧ ∀ n, n ≠ rd p 0 2 → t.stream n = s.stream n) := by
  refine carried_of (fun _ _ => rfl) (fun p s u hu h => (liveFrerSetStream_of_mailed hu).trans h)
    (fun p s => (State.liveGen_frame (Touch.or_self _) .refl 0x0901 p (GenTables.putFrer p)).mbx rfl)
    (fun p s u t hu ht _ => ⟨?_, written_at (fun n => ?_)⟩)
  · exact (u.liveGen_written (fun a => written_at (a.frerAt_putFrer p))).congr (fwd_of_mailed hu) (bake_of_mailed hu)
      ((fwd_of_written ht).trans rfl)
  · rw [State.stream_of_written ht, applyFrerSetStream_stream, State.stream_of_mailed hu, State.frerNow_of_mailed hu]

theorem frerSetPort_carried :
    Carried 0x0903 .frerSetPort (fun p s => s.portActive (rd p 0 2) = true ∧ rd p 2 1 ≤ 1 ∧ (rd p 2 1 = 0 ∨ rd p 3 1 ≤ 1))
      (fun p s t => (t.port (rd p 0 2)).frerId = bit (rd p 2 1) 0 ∧ (t.port (rd p 0 2)).frerSrc = bit (rd p 3 1) 0
        ∧ ∀ m, m ≠ rd p 0 2 → t.port m = s.port m) := by
  refine carried_of (fun _ _ => rfl) (fun p s u hu ⟨hp, h1, h2⟩ => checkFrerSetPort_none (by rw [hu]; exact hp) h1 h2)
    (fun _ _ => rfl) (fun p s u t hu ht _ => ?_)
  rw [State.port_of_written ht, ← State.port_of_mailed hu]
  unfold applyFrerSetPort
  rw [State.port_updPort_same]
  exact ⟨rfl, rfl, fun m hm => by rw [State.port_updPort, if_neg (Ne.symm hm)]⟩

/-- The state that FRER_RESET_STREAM leaves: a stream that recovers starts anew (R256). -/
def State.resetStream (s : State) (n : Nat) : State := if (s.frerNow n).recover then s.updStream n FrerSt.restart else s

theorem State.resetStream_stream (s : State) (n m : Nat) : (s.resetStream n).stream m
    = if n = m ∧ (s.frerNow n).recover = true then (s.stream n).restart else s.stream m := by
  unfold State.resetStream
  by_cases hr : (s.frerNow n).recover = true
  · rw [if_pos hr, State.stream_updStream]
    simp [hr]
  · rw [if_neg hr, if_neg (fun h => hr h.2)]

theorem frerResetStream_does : Does 0x0904 .frerResetStream (fun r _ => resv r.payload 2 2 = true) (fun _ _ => [])
    (fun r s t => ((s.frerNow (rd r.payload 0 2)).recover = true →
        t.stream (rd r.payload 0 2) = { s.stream (rd r.payload 0 2) with takeAny := true, hist := 0 })
      ∧ ((s.frerNow (rd r.payload 0 2)).recover = false → t.stream (rd r.payload 0 2) = s.stream (rd r.payload 0 2))
      ∧ ∀ n, n ≠ rd r.payload 0 2 → t.stream n = s.stream n) := by
  refine does_of (body := frerResetStreamBody) (fun r u => u.resetStream (rd r.payload 0 2)) (fun _ _ => rfl)
    (fun r s u _ _ hu hok => ⟨?_, ?_, fun t ht => ?_⟩)
  · unfold frerResetStreamBody State.resetStream
    rw [if_neg (by simp [hok])]
    split <;> rfl
  · unfold State.resetStream
    split <;> rfl
  · rw [State.stream_of_mailed ht, ← State.stream_of_mailed hu, ← State.frerNow_of_mailed hu]
    refine ⟨fun hr => ?_, fun hr => ?_, fun n hn => ?_⟩
    · rw [State.resetStream_stream, if_pos ⟨rfl, hr⟩]; rfl
    · rw [State.resetStream_stream, if_neg (fun h => by simp [hr] at h)]
    · rw [State.resetStream_stream, if_neg (fun h => hn h.1.symm)]

end

/-! ### A core takes a slot (R262, R263) -/

/-- An entry of a list that is put in place of one that differs from `w`. -/
theorem mem_set_iff_of_ne {α : Type} {l : List α} {i : Nat} {d v w : α} (hi : i < l.length) (h : l.getD i d ≠ w) :
    w ∈ l.set i v ↔ w = v ∨ w ∈ l := by
  constructor
  · intro hw
    exact (List.mem_or_eq_of_mem_set hw).symm
  · rintro (rfl | hw)
    · exact List.mem_set hi _
    · obtain ⟨j, hj, rfl⟩ := List.getElem_of_mem hw
      have hij : i ≠ j := by
        rintro rfl
        exact h (List.getD_eq_getElem _ _ hj)
      exact List.mem_of_getElem (i := j) (h := by simpa using hj) (by simp [hij])

theorem mem_insertRising_iff {n m : Nat} {l : List Nat} : m ∈ insertRising n l ↔ m = n ∨ m ∈ l := by
  induction l with
  | nil => simp [insertRising]
  | cons a l ih =>
    unfold insertRising
    split
    · simp
    · split
      · next h => subst h; simp
      · simp only [List.mem_cons, ih]; tauto

theorem Cluster.mem_ready {x : Cluster} {k : Nat} :
    k ∈ x.ready ↔ k < 13 ∧ some k ∉ x.slots ∧ k ∉ x.failed ∧ k ∉ x.testing := by
  simp [Cluster.ready, and_assoc]

/-- A cluster in which spare `k` takes slot `i` from the core that served it, which is tested (R263, R270). -/
def Cluster.switchTo (x : Cluster) (i k : Nat) : Cluster :=
  match x.slots.getD i none with
  | some o => { x.seat i k with testing := insertRising o x.testing }
  | none => x.seat i k

section

variable {x : Cluster} {i k : Nat} {l : List Nat}

theorem Cluster.switchTo_slots (x : Cluster) (i k : Nat) : (x.switchTo i k).slots = x.slots.set i (some k) := by
  unfold Cluster.switchTo
  split <;> rfl

theorem Cluster.switchTo_failed (x : Cluster) (i k : Nat) : (x.switchTo i k).failed = x.failed := by
  unfold Cluster.switchTo
  split <;> rfl

theorem Cluster.switchTo_resync (x : Cluster) (i k : Nat) : (x.switchTo i k).resync = x.resync := by
  unfold Cluster.switchTo
  split <;> rfl

theorem Cluster.mem_switchTo_testing {n : Nat} :
    n ∈ (x.switchTo i k).testing ↔ x.slots.getD i none = some n ∨ n ∈ x.testing := by
  unfold Cluster.switchTo
  split
  · next o h => rw [mem_insertRising_iff, h]; simp [eq_comm]
  · next h => rw [h]; simp [Cluster.seat]

/-- The spare leaves the ready cores, and no other does: the core it replaces was none. -/
theorem Cluster.mem_switchTo_ready (hi : i < x.slots.length) {n : Nat} : n ∈ (x.switchTo i k).ready ↔ n ∈ x.ready ∧ n ≠ k := by
  simp only [Cluster.mem_ready, Cluster.switchTo_slots, Cluster.switchTo_failed, Cluster.mem_switchTo_testing]
  by_cases ho : x.slots.getD i none = some n
  · have hm : some n ∈ x.slots := by
      rw [← ho, List.getD_eq_getElem _ _ hi]
      exact List.getElem_mem hi
    exact ⟨fun h => absurd (.inl ho) h.2.2.2, fun h => absurd hm h.1.2.1⟩
  · rw [mem_set_iff_of_ne hi ho]
    simp only [Option.some.injEq, ho, false_or]
    tauto

theorem Cluster.switchTo_ready (hi : i < x.slots.length) (h : x.ready = k :: l) : (x.switchTo i k).ready = l := by
  have hrest : (x.switchTo i k).ready = x.ready.filter (· ≠ k) := by
    have hall : ∀ y : Cluster, y.ready = (List.range 13).filter (· ∈ y.ready) := fun y =>
      List.filter_congr (fun n hn => by rw [Bool.eq_iff_iff, decide_eq_true_iff, Cluster.ready, List.mem_filter]; simp only [hn, true_and])
    rw [hall (x.switchTo i k), hall x, List.filter_filter]
    exact List.filter_congr (fun n _ => by
      rw [Bool.eq_iff_iff, decide_eq_true_iff, Cluster.mem_switchTo_ready hi]; simp [and_comm])
  have hnodup : (k :: l).Nodup := h ▸ (List.nodup_range.filter _)
  have hk : ∀ n ∈ l, n ≠ k := fun n hn hnk => (List.nodup_cons.mp hnodup).1 (hnk ▸ hn)
  rw [hrest, h, List.filter_cons_of_neg (by simp)]
  exact List.filter_eq_self.mpr (fun n hn => by simpa using hk n hn)

end

section

variable {s t u : State}

theorem State.cluster_of_mailed (h : u = s.mailed u) : u.cluster = s.cluster := (congrArg State.cluster h).trans rfl

theorem State.mp_of_mailed (h : u = s.mailed u) : u.mp = s.mp := (congrArg State.mp h).trans rfl

theorem State.pwr_of_mailed (h : u = s.mailed u) : u.pwr = s.pwr := (congrArg State.pwr h).trans rfl

theorem State.mpIn_of_mailed (h : u = s.mailed u) : u.mpIn = s.mpIn := (congrArg State.mpIn h).trans rfl

@[simp] theorem State.healthChanged_cluster (s : State) : s.healthChanged.cluster = s.cluster := rfl

@[simp] theorem State.healthChanged_mp (s : State) : s.healthChanged.mp = s.mp := rfl

@[simp] theorem State.healthIf_mp (s : State) (b : Bool) : (s.healthIf b).mp = s.mp := by
  cases b <;> rfl

@[simp] theorem State.healthIf_mbx (s : State) (b : Bool) : (s.healthIf b).mbx = s.mbx := by
  cases b <;> rfl

@[simp] theorem State.setMp_mp (s : State) (k m : Nat) (f : Mp → Mp) :
    (s.setMp k f).mp m = if k = m then f (s.mp k) else s.mp m := by
  unfold State.setMp
  simp

@[simp] theorem State.fixDispatch_cluster (s : State) (c : Nat) : (s.fixDispatch c).cluster = s.cluster := rfl

/-- RED_SWITCHOVER of a core changes its own cluster. -/
theorem State.switchCore_cluster (s : State) (c i k : Nat) :
    (s.switchCore c i k).cluster c = (s.cluster c).switchTo i k := by
  unfold State.switchCore Cluster.switchTo
  simp only [State.healthChanged_cluster, State.fixDispatch_cluster, State.bumpRed_rest, State.cluster_updCluster, if_true]
  cases (s.cluster c).slots.getD i none <;> rfl

/-- It leaves the mailboxes alone. -/
theorem State.switchCore_mbx (s : State) (c i k : Nat) : (s.switchCore c i k).mbx = s.mbx :=
  (State.switchCore_frame (Touch.or_self _) .refl c i k).mbx rfl

end

/-! ### Switchover and resynchronisation (R267, R270) -/

theorem redSwitchover_starts : Starts 0x0906 .redSwitchover (fun r s => rd r.payload 0 1 = 0 ∧ resv r.payload 3 1 = true
      ∧ (s.mpIn .standby).isSome = true ∧ s.pwr.failing = none)
    (fun _ _ t => t.pwr.failing = some mpCauseCommand) := by
  refine starts_of (body := redSwitchoverBody) (fun _ u => { u with pwr := { u.pwr with failing := some mpCauseCommand } })
    (fun _ _ => rfl) (fun r s u _ _ hu ⟨h0, hr, hs, hf⟩ => ⟨?_, rfl, fun t ht => ?_⟩)
  · rw [← State.mpIn_of_mailed hu] at hs
    rw [← State.pwr_of_mailed hu] at hf
    simp [redSwitchoverBody, h0, hr, hf, Option.isSome_iff_ne_none.mp hs]
  · rw [State.pwr_of_mailed ht]

theorem redSwitchover_does (k : Nat) (l : List Nat) :
    Does 0x0906 .redSwitchover (fun r s => rd r.payload 0 1 = 1 ∧ resv r.payload 3 1 = true ∧ rd r.payload 1 1 < 16
      ∧ rd r.payload 2 1 < 12 ∧ (s.cluster (rd r.payload 1 1)).ready = k :: l ∧ (s.cluster (rd r.payload 1 1)).slots.length = 12)
    (fun _ _ => [])
    (fun r s t => (t.cluster (rd r.payload 1 1)).slots.getD (rd r.payload 2 1) none = some k
      ∧ (t.cluster (rd r.payload 1 1)).ready = l
      ∧ (t.cluster (rd r.payload 1 1)).resync = (s.cluster (rd r.payload 1 1)).resync
      ∧ ∀ o, (s.cluster (rd r.payload 1 1)).slots.getD (rd r.payload 2 1) none = some o →
        o ∈ (t.cluster (rd r.payload 1 1)).testing) := by
  refine does_of (body := redSwitchoverBody) (fun r u => u.switchCore (rd r.payload 1 1) (rd r.payload 2 1) k) (fun _ _ => rfl)
    (fun r s u _ _ hu ⟨h1, hr, hc, hi, hk, hl⟩ => ⟨?_, State.switchCore_mbx _ _ _ _, fun t ht => ?_⟩)
  · rw [← State.cluster_of_mailed hu] at hk
    simp [redSwitchoverBody, okCmd, h1, hr, hk, Nat.not_le.mpr hc, Nat.not_le.mpr hi]
  · rw [State.cluster_of_mailed ht, State.switchCore_cluster, State.cluster_of_mailed hu]
    rw [← hl] at hi
    refine ⟨?_, Cluster.switchTo_ready hi hk, Cluster.switchTo_resync _ _ _, fun o ho => Cluster.mem_switchTo_testing.mpr (.inl ho)⟩
    rw [Cluster.switchTo_slots, List.getD_eq_getElem _ _ (by simpa using hi), List.getElem_set_self]

theorem redResync_starts_mp (m : Nat) :
    Starts 0x0907 .redResync (fun r s => rd r.payload 0 1 = 0 ∧ resv r.payload 3 1 = true ∧ s.mpIn .failed = some m)
      (fun _ _ t => (t.mp m).state = .resync) := by
  refine starts_of (body := redResyncBody) (fun _ u => u.setMp m (fun x => { x with state := .resync })) (fun _ _ => rfl)
    (fun r s u _ _ hu ⟨h0, hr, hm⟩ => ⟨?_, State.healthIf_mbx _ _, fun t ht => ?_⟩)
  · rw [← State.mpIn_of_mailed hu] at hm
    simp [redResyncBody, h0, hr, hm]
  · rw [State.mp_of_mailed ht, State.setMp_mp, if_pos rfl]

theorem redResync_starts_core : Starts 0x0907 .redResync (fun r s => rd r.payload 0 1 = 1 ∧ resv r.payload 3 1 = true
      ∧ coreExists (rd r.payload 1 1) (rd r.payload 2 1) = true
      ∧ (s.cluster (rd r.payload 1 1)).failed.contains (rd r.payload 2 1) = true)
    (fun r s t => (t.cluster (rd r.payload 1 1)).failed = without (s.cluster (rd r.payload 1 1)).failed (rd r.payload 2 1)
      ∧ rd r.payload 2 1 ∈ (t.cluster (rd r.payload 1 1)).testing ∧ rd r.payload 2 1 ∈ (t.cluster (rd r.payload 1 1)).resync) := by
  refine starts_of (body := redResyncBody) (fun r u => (u.updCluster (rd r.payload 1 1) (fun x =>
      { x with failed := without x.failed (rd r.payload 2 1), testing := insertRising (rd r.payload 2 1) x.testing,
               resync := insertRising (rd r.payload 2 1) x.resync })).healthChanged) (fun _ _ => rfl)
    (fun r s u _ _ hu ⟨h1, hr, hc, hf⟩ => ⟨?_, rfl, fun t ht => ?_⟩)
  · rw [← State.cluster_of_mailed hu] at hf
    simp only [redResyncBody, h1, hr, hc, hf]
    simp
  · rw [State.cluster_of_mailed ht, State.healthChanged_cluster, State.cluster_updCluster, if_pos rfl, State.cluster_of_mailed hu]
    exact ⟨rfl, mem_insertRising _ _, mem_insertRising _ _⟩

/-- Settles O26: each write changes one entry of its table, the reads answer from tables that mail does not move, and each
redundancy command is one operation on a cluster or on the processors. -/
theorem redundancyCommands : Obligations.RedundancyCommands := by
  unfold Obligations.RedundancyCommands
  refine ⟨frerSetStream_carried, ?getStream, frerSetPort_carried, frerResetStream_does, ?health, redSwitchover_starts,
    redSwitchover_does, redResync_starts_mp, redResync_starts_core, ?counters⟩
  case getStream =>
    refine answered_of (body := frerGetStreamBody) (fun _ _ => rfl) (fun r s u _ _ hu _ => ?_)
    rw [hu]; rfl
  case health =>
    refine answered_of (body := redGetHealthBody) (fun _ _ => rfl) (fun r s u _ _ hu _ => ?_)
    rw [hu]; rfl
  case counters =>
    refine answered_of (body := redGetCountersBody) (fun _ _ => rfl) (fun r s u _ _ hu _ => ?_)
    rw [hu]; rfl

end Sys2Proof.Machine
end

section
/-! PROOF. The rows of the redundant units (R262 to R267): a Leaven core that fails, its spare and its test; the heartbeats, the
faults and the restarts of the management processors, and the end of a failover, which serves the mailboxes that rang in the
gap. -/

namespace Sys2Proof.Machine

section

variable {w : Touch} {s t : State}

theorem Frame.cluster_eq (h : Frame w s t) (hw : w.clusters = false) : t.cluster = s.cluster := by
  unfold State.cluster; rw [h.clusters hw]

theorem Frame.mp_eq (h : Frame w s t) (hw : w.mps = false) : t.mp = s.mp := by
  unfold State.mp; rw [(h.mps hw).1]

theorem Frame.failing_eq (h : Frame w s t) (hw : w.mps = false) : t.pwr.failing = s.pwr.failing := (h.mps hw).2

end

theorem State.get_bumpRed_same (s : State) (i : Nat) : Tab.get 0 (s.bumpRed i 1).tel.redCtr i = Tab.get 0 s.tel.redCtr i + 1 :=
  (Tab.get_bump _ _ _ _).trans (if_pos rfl)

/-! ### A core fails (R263) -/

/-- A ready spare is left for one more slot that waits. -/
def Cluster.hasSpare (x : Cluster) : Bool := !x.ready.isEmpty && decide (x.pendSub.length < x.ready.length)

theorem Cluster.lose_pendSub_of_spare {x : Cluster} (i k : Nat) (hp : x.pendSub = []) (hr : x.ready ≠ []) :
    (x.lose i k x.hasSpare).pendSub = [(i, k)] := by
  have hspare : x.hasSpare = true := by
    simpa [Cluster.hasSpare, hp, List.length_pos_iff] using hr
  simp [Cluster.lose, hspare, hp]

theorem Cluster.lose_pendSub_of_none {x : Cluster} (i k : Nat) (hr : x.ready = []) :
    (x.lose i k x.hasSpare).pendSub = x.pendSub := by
  simp [Cluster.lose, Cluster.hasSpare, hr]

section

variable {s : State} {c k i : Nat}

theorem State.coreFail_of_idle (h : (s.cluster c).slotOf k = none) : s.coreFail c k = s := by
  unfold State.coreFail
  dsimp only
  rw [h]

theorem State.coreFail_cluster (h : (s.cluster c).slotOf k = some i) :
    (s.coreFail c k).cluster c = (s.cluster c).lose i k (s.cluster c).hasSpare := by
  unfold State.coreFail
  dsimp only
  rw [h]
  dsimp only
  rw [(State.raiseIf_frame (Touch.or_self _) .refl _ _ _ _).cluster_eq rfl, State.healthChanged_cluster,
    (State.repairAdd_frame (Touch.or_self _) .refl _ _).cluster_eq rfl,
    (State.loseItems_frame (Touch.or_self _) .refl _ _).cluster_eq rfl, State.cluster_updCluster, if_pos rfl,
    (State.readCore_frame (Touch.or_self _) .refl _ _).cluster_eq rfl]
  rfl

theorem State.coreFail_repaired (h : (s.cluster c).slotOf k = some i) : (1, 16 * c + k) ∈ (s.coreFail c k).pwr.repairLog := by
  unfold State.coreFail
  dsimp only
  rw [h]
  dsimp only
  rw [(State.raiseIf_frame (Touch.or_self _) .refl _ _ _ _).repairLog rfl,
    (State.healthChanged_frame (Touch.or_self _) .refl).repairLog rfl]
  exact State.mem_repairAdd _ _ _

/-- What the failure of core `k` in slot `i` leaves of its cluster and of the repair record (R263, R499). -/
theorem State.coreFail_spec (h : (s.cluster c).slotOf k = some i) :
    ((s.coreFail c k).cluster c).slots = (s.cluster c).slots.set i none ∧ k ∈ ((s.coreFail c k).cluster c).failed
      ∧ (1, 16 * c + k) ∈ (s.coreFail c k).pwr.repairLog
      ∧ ((s.cluster c).pendSub = [] → (s.cluster c).ready ≠ [] → ((s.coreFail c k).cluster c).pendSub = [(i, k)])
      ∧ ((s.cluster c).ready = [] → ((s.coreFail c k).cluster c).pendSub = (s.cluster c).pendSub) := by
  refine ⟨?_, ?_, State.coreFail_repaired h, ?_, ?_⟩ <;> rw [State.coreFail_cluster h]
  · rfl
  · exact mem_insertRising _ _
  · exact Cluster.lose_pendSub_of_spare i k
  · exact Cluster.lose_pendSub_of_none i k

/-- A row about a core of the device is its act. -/
theorem exec_of_onCore {e : Instr} {t : State} (hc : c < 16) (hk : k < 13) (he : exec e s = onCore c k t) : exec e s = .next t :=
  he.trans (if_pos (by simp [coreExists, hc, hk]))

theorem coreFailure_exec (hc : c < 16) (hk : k < 13) : exec (.coreFailure c k) s = .next (s.coreFail c k) :=
  exec_of_onCore hc hk rfl

theorem coreWatchdogExpiry_exec (hc : c < 16) (hk : k < 13) : exec (.coreWatchdogExpiry c k) s = .next (s.coreFail c k) :=
  exec_of_onCore hc hk rfl

theorem spareSelftestDone_exec (hc : c < 16) (hk : k < 13) (pass : Bool) : exec (.spareSelftestDone c k pass) s
    = .next (if ((s.cluster c).slotOf k).isSome then (if pass then s else s.coreFail c k) else s.selfTest c k pass) :=
  exec_of_onCore hc hk rfl

/-! ### The test of a core out of service (R262, R499) -/

/-- A core that has failed its test leaves the cores under test and enters the failed ones and the repair record. -/
def State.testFailed (s : State) (c k : Nat) : State :=
  let t := s.updCluster c (fun y => { y with runs := (y.runs + 1) % 2 ^ 32 })
  (((if (s.cluster c).resync.contains k then t else t.readCore c k).updCluster c (fun y =>
    { y with runFails := (y.runFails + 1) % 2 ^ 32, failed := insertRising k y.failed, testing := without y.testing k,
             resync := without y.resync k })).bumpRed 12 1).repairAdd 1 (16 * c + k)

/-- A core that has passed its test leaves the cores under test and the repair record. -/
def State.testPassed (s : State) (c k : Nat) : State :=
  ((s.updCluster c (fun y => { y with runs := (y.runs + 1) % 2 ^ 32 })).updCluster c (fun y =>
    { y with testing := without y.testing k, resync := without y.resync k })).repairDel 1 (16 * c + k)

theorem State.testFailed_cluster : (s.testFailed c k).cluster c
    = { s.cluster c with runs := ((s.cluster c).runs + 1) % 2 ^ 32, runFails := ((s.cluster c).runFails + 1) % 2 ^ 32,
                         failed := insertRising k (s.cluster c).failed, testing := without (s.cluster c).testing k,
                         resync := without (s.cluster c).resync k } := by
  unfold State.testFailed
  dsimp only
  rw [(State.repairAdd_frame (Touch.or_self _) .refl _ _).cluster_eq rfl,
    (State.bumpRed_frame (Touch.or_self _) .refl _ _).cluster_eq rfl, State.cluster_updCluster, if_pos rfl]
  split
  · rw [State.cluster_updCluster, if_pos rfl]
  · rw [(State.readCore_frame (Touch.or_self _) .refl _ _).cluster_eq rfl, State.cluster_updCluster, if_pos rfl]

theorem State.testPassed_cluster : (s.testPassed c k).cluster c
    = { s.cluster c with runs := ((s.cluster c).runs + 1) % 2 ^ 32, testing := without (s.cluster c).testing k,
                         resync := without (s.cluster c).resync k } := by
  unfold State.testPassed
  rw [(State.repairDel_frame (Touch.or_self _) .refl _ _).cluster_eq rfl]
  simp only [State.cluster_updCluster, if_true]

theorem State.selfTest_testing_pass (h : k ∈ (s.cluster c).testing) :
    s.selfTest c k true = ((s.testPassed c k).healthChanged).finishJob (s.coreJob c k) := by
  unfold State.selfTest
  dsimp only
  rw [if_pos (List.contains_iff_mem.mpr h), if_pos rfl]
  rfl

theorem State.selfTest_testing_fail (h : k ∈ (s.cluster c).testing) :
    s.selfTest c k false = ((s.testFailed c k).healthChanged).finishJob (s.coreJob c k) := by
  unfold State.selfTest
  dsimp only
  rw [if_pos (List.contains_iff_mem.mpr h), if_neg (by simp)]
  rfl

theorem State.selfTest_ready (h : k ∈ (s.cluster c).ready) (pass : Bool) : s.selfTest c k pass
    = if pass then s.updCluster c (fun y => { y with runs := (y.runs + 1) % 2 ^ 32 })
      else ((s.testFailed c k).healthChanged).raise 0x0903 sevWarning (le 1 c ++ le 1 k) := by
  obtain ⟨-, -, -, htest⟩ := Cluster.mem_ready.mp h
  unfold State.selfTest
  dsimp only
  rw [if_neg (by simpa using htest), if_pos (List.contains_iff_mem.mpr h)]
  rfl

theorem spareSelftestDone_ends_ready (hc : c < 16) (hk : k < 13) (hs : (s.cluster c).slotOf k = none)
    (h : k ∈ (s.cluster c).ready) :
    Ends (.spareSelftestDone c k true) s (fun t => t.cluster c = { s.cluster c with runs := ((s.cluster c).runs + 1) % 2 ^ 32 })
    ∧ Ends (.spareSelftestDone c k false) s (fun t => k ∈ (t.cluster c).failed ∧ (1, 16 * c + k) ∈ t.pwr.repairLog
      ∧ (t.cluster c).runFails = ((s.cluster c).runFails + 1) % 2 ^ 32 ∧ (t.cluster c).slots = (s.cluster c).slots) := by
  have he : ∀ pass, exec (.spareSelftestDone c k pass) s = .next (s.selfTest c k pass) := fun pass =>
    (spareSelftestDone_exec hc hk pass).trans (by rw [if_neg (by simp [hs])])
  refine ⟨ends_of_exec (he true) ?_, ends_of_exec (he false) ?_⟩ <;> rw [State.selfTest_ready h]
  · rw [if_pos rfl, State.cluster_updCluster, if_pos rfl]
  · rw [if_neg (by simp), (State.raise_frame (Touch.or_self _) .refl _ _ _).cluster_eq rfl, State.healthChanged_cluster,
      State.testFailed_cluster, (State.raise_frame (Touch.or_self _) .refl _ _ _).repairLog rfl,
      (State.healthChanged_frame (Touch.or_self _) .refl).repairLog rfl]
    exact ⟨mem_insertRising _ _, State.mem_repairAdd _ _ _, rfl, rfl⟩

theorem spareSelftestDone_ends_testing (hc : c < 16) (hk : k < 13) (hs : (s.cluster c).slotOf k = none)
    (h : k ∈ (s.cluster c).testing) :
    Ends (.spareSelftestDone c k true) s (fun t => k ∉ (t.cluster c).testing ∧ (1, 16 * c + k) ∉ t.pwr.repairLog
      ∧ (t.cluster c).failed = (s.cluster c).failed)
    ∧ Ends (.spareSelftestDone c k false) s (fun t => k ∉ (t.cluster c).testing ∧ k ∈ (t.cluster c).failed
      ∧ (1, 16 * c + k) ∈ t.pwr.repairLog) := by
  have he : ∀ pass, exec (.spareSelftestDone c k pass) s = .next (s.selfTest c k pass) := fun pass =>
    (spareSelftestDone_exec hc hk pass).trans (by rw [if_neg (by simp [hs])])
  have hkept : ∀ u : State, ((u.healthChanged).finishJob (s.coreJob c k)).cluster = u.cluster
      ∧ ((u.healthChanged).finishJob (s.coreJob c k)).pwr.repairLog = u.pwr.repairLog := fun u =>
    ⟨((State.finishJob_frame (Touch.or_self _) .refl _).cluster_eq rfl).trans u.healthChanged_cluster,
      ((State.finishJob_frame (Touch.or_self _) .refl _).repairLog rfl).trans
        ((State.healthChanged_frame (Touch.or_self _) .refl).repairLog rfl)⟩
  refine ⟨ends_of_exec (he true) ?_, ends_of_exec (he false) ?_⟩
  · rw [State.selfTest_testing_pass h, (hkept _).1, (hkept _).2, State.testPassed_cluster]
    exact ⟨not_mem_without _ _, State.not_mem_repairDel _ _ _, rfl⟩
  · rw [State.selfTest_testing_fail h, (hkept _).1, (hkept _).2, State.testFailed_cluster]
    exact ⟨not_mem_without _ _, mem_insertRising _ _, State.mem_repairAdd _ _ _⟩

end

/-! ### The spare takes the slot (R263) -/

section

variable {s : State} {c : Nat} {bad : Bool}

/-- The spare `k` is seated in slot `i`, and told of. -/
def State.seated (s : State) (c i old k : Nat) : State :=
  ((s.updCluster c (fun y => y.seat i k)).bumpRed 10 1).raise 0x0902 sevCorrectable (le 1 c ++ le 1 i ++ le 1 old ++ le 1 k)

theorem coreSubstitution_idles (hc : c < 16) (h : (s.cluster c).pendSub = []) : Idles (.coreSubstitution c bad) s := by
  show execCoreSubstitution c bad s = _
  unfold execCoreSubstitution
  rw [if_neg (by omega)]
  dsimp only
  rw [h]

theorem coreSubstitution_exec {i old k : Nat} {l : List (Nat × Nat)} {m : List Nat} (hc : c < 16)
    (hp : (s.cluster c).pendSub = (i, old) :: l) (hr : (s.cluster c).ready = k :: m) : exec (.coreSubstitution c bad) s
      = .next (((if bad then (s.seated c i old k).clearBank c i else s.seated c i old k).fixDispatch c).healthChanged) := by
  show execCoreSubstitution c bad s = _
  unfold execCoreSubstitution
  rw [if_neg (by omega)]
  dsimp only
  rw [hp, hr]
  rfl

theorem coreSubstitution_exec_none {i old : Nat} {l : List (Nat × Nat)} (hc : c < 16)
    (hp : (s.cluster c).pendSub = (i, old) :: l) (hr : (s.cluster c).ready = []) : exec (.coreSubstitution c bad) s
      = .next (((s.updCluster c (fun y => { y with pendSub := y.pendSub.filter (fun p => p.1 != i) })).healthChanged).raise
        0x0904 sevUncorrectable (le 1 c ++ le 4 (s.cluster c).serving)) := by
  show execCoreSubstitution c bad s = _
  unfold execCoreSubstitution
  rw [if_neg (by omega)]
  dsimp only
  rw [hp, hr]

theorem coreSubstitution_ends {i old k : Nat} {l : List (Nat × Nat)} {m : List Nat} (hc : c < 16)
    (hp : (s.cluster c).pendSub = (i, old) :: l) (hr : (s.cluster c).ready = k :: m) : Ends (.coreSubstitution c bad) s (fun t =>
      (t.cluster c).slots = (s.cluster c).slots.set i (some k) ∧ (t.cluster c).substs = ((s.cluster c).substs + 1) % 65536
      ∧ (∀ x ∈ (t.cluster c).pendSub, x.1 ≠ i) ∧ Tab.get 0 t.tel.redCtr 10 = Tab.get 0 s.tel.redCtr 10 + 1
      ∧ ∀ d, d ≠ c → t.cluster d = s.cluster d) := by
  refine ends_of_exec (coreSubstitution_exec hc hp hr) ?_
  have hbank : ∀ u : State, (if bad then u.clearBank c i else u).cluster = u.cluster
      ∧ (if bad then u.clearBank c i else u).tel.redCtr = u.tel.redCtr := fun u => by
    split
    · exact ⟨(State.clearBank_frame (Touch.or_self _) .refl _ _).cluster_eq rfl,
        (State.clearBank_frame (Touch.or_self _) .refl _ _).redCtr rfl⟩
    · exact ⟨rfl, rfl⟩
  have hseat : ∀ d, (s.seated c i old k).cluster d = if c = d then (s.cluster c).seat i k else s.cluster d := fun d => by
    unfold State.seated
    rw [(State.raise_frame (Touch.or_self _) .refl _ _ _).cluster_eq rfl,
      (State.bumpRed_frame (Touch.or_self _) .refl _ _).cluster_eq rfl, State.cluster_updCluster]
  rw [State.healthChanged_cluster, State.fixDispatch_cluster, (hbank _).1, hseat, if_pos rfl,
    (State.healthChanged_frame (Touch.or_self _) .refl).redCtr rfl, (State.fixDispatch_frame (Touch.or_self _) .refl _).redCtr rfl,
    (hbank _).2]
  refine ⟨rfl, rfl, fun x hx => ?_, ?_, fun d hd => ?_⟩
  · simpa using (List.mem_filter.mp hx).2
  · unfold State.seated
    rw [(State.raise_frame (Touch.or_self _) .refl _ _ _).redCtr rfl]
    exact State.get_bumpRed_same _ _
  · rw [hseat, if_neg (Ne.symm hd)]

theorem coreSubstitution_ends_none {i old : Nat} {l : List (Nat × Nat)} (hc : c < 16)
    (hp : (s.cluster c).pendSub = (i, old) :: l) (hr : (s.cluster c).ready = []) : Ends (.coreSubstitution c bad) s (fun t =>
      (t.cluster c).slots = (s.cluster c).slots ∧ ∀ x ∈ (t.cluster c).pendSub, x.1 ≠ i) := by
  refine ends_of_exec (coreSubstitution_exec_none hc hp hr) ?_
  rw [(State.raise_frame (Touch.or_self _) .refl _ _ _).cluster_eq rfl, State.healthChanged_cluster, State.cluster_updCluster,
    if_pos rfl]
  exact ⟨rfl, fun x hx => by simpa using (List.mem_filter.mp hx).2⟩

end

/-! ### The processor in a state -/

section

variable {s t : State} {k : Nat} {x : MpState}

theorem State.state_of_mpIn (h : s.mpIn x = some k) : (s.mp k).state = x := by
  simpa using List.find?_some h

/-- The first of two processors in different states that is in a state is the one that is in it. -/
theorem State.mpIn_eq {a b : Nat} (ha : a < 2) (hb : b < 2) (hab : a ≠ b) (hx : (s.mp a).state = x) (hy : (s.mp b).state ≠ x) :
    s.mpIn x = some a := by
  unfold State.mpIn
  obtain rfl | rfl : a = 0 ∨ a = 1 := by omega
  · simp [hx]
  · obtain rfl : b = 0 := by omega
    simp [hx, hy]

theorem State.setMp_failing (s : State) (k : Nat) (f : Mp → Mp) : (s.setMp k f).pwr.failing = s.pwr.failing :=
  (State.healthIf_frame (Touch.or_self _) .refl _).failing_eq rfl

/-! ### A fault of the active processor (R264, R265) -/

/-- A processor is lost, and recorded. -/
theorem State.standbyLost_spec (s : State) (k : Nat) : (s.standbyLost k).pwr.failing = s.pwr.failing
    ∧ (2, k) ∈ (s.standbyLost k).pwr.repairLog
    ∧ ∀ n, (s.standbyLost k).mp n = if k = n then { s.mp k with state := .failed, restarted := false } else s.mp n := by
  unfold State.standbyLost
  rw [(State.raise_frame (Touch.or_self _) .refl _ _ _).failing_eq rfl, (State.raise_frame (Touch.or_self _) .refl _ _ _).repairLog rfl,
    (State.raise_frame (Touch.or_self _) .refl _ _ _).mp_eq rfl, (State.repairAdd_frame (Touch.or_self _) .refl _ _).failing_eq rfl,
    (State.repairAdd_frame (Touch.or_self _) .refl _ _).mp_eq rfl]
  exact ⟨State.setMp_failing _ _ _, State.mem_repairAdd _ _ _, fun n => State.setMp_mp _ _ _ _⟩

theorem State.mpMismatch_spec (s : State) (k : Nat) : (s.mpMismatch k).pwr.failing = s.pwr.failing
    ∧ ∀ n, (s.mpMismatch k).mp n
      = if k = n then { s.mp k with state := .resync, mismatches := ((s.mp k).mismatches + 1) % 2 ^ 32 } else s.mp n := by
  unfold State.mpMismatch
  rw [(State.raise_frame (Touch.or_self _) .refl _ _ _).failing_eq rfl, (State.raise_frame (Touch.or_self _) .refl _ _ _).mp_eq rfl]
  exact ⟨State.setMp_failing _ _ _, fun n => State.setMp_mp _ _ _ _⟩

/-- The loss of management (R265). -/
theorem State.mgmtLost_spec (s : State) (k : Nat) : ((s.mgmtLost k).mp k).state = .failed ∧ (s.mgmtLost k).mbx.ready = false
    ∧ (2, k) ∈ (s.mgmtLost k).pwr.repairLog ∧ (s.mgmtLost k).pwr.failing = s.pwr.failing := by
  have hmp : (s.mgmtLost k).mp = (s.setMp k (fun m => { m with state := .failed, restarted := false })).mp := rfl
  refine ⟨?_, rfl, State.mem_repairAdd _ _ _, State.setMp_failing _ _ _⟩
  rw [hmp, State.setMp_mp, if_pos rfl]

/-- A failover begins: to the standby, from a commanded switchover or from none (R265). -/
theorem State.mpFault_begins {cause : Nat} (ha : s.mpIn .active = some k) (hs : s.mpIn .standby ≠ none)
    (hf : s.pwr.failing = none ∨ s.pwr.failing = some 3) :
    s.mpFault cause = { s with pwr := { s.pwr with failing := some cause } } := by
  have hno : ¬ s.pwr.failing.any (fun c => c != mpCauseCommand) = true := by
    rcases hf with hf | hf <;> simp [hf, mpCauseCommand]
  unfold State.mpFault
  rw [ha]
  dsimp only
  rw [if_neg hno, if_pos (Option.isSome_iff_ne_none.mpr hs)]

theorem State.mpFault_lost {cause : Nat} (ha : s.mpIn .active = some k) (hs : s.mpIn .standby = none)
    (hf : s.pwr.failing = none) : s.mpFault cause = s.mgmtLost k := by
  unfold State.mpFault
  rw [ha]
  dsimp only
  rw [if_neg (by simp [hf]), if_neg (by simp [hs]), if_neg (by simp [hf])]

theorem State.mpFault_again {cause c : Nat} (ha : s.mpIn .active = some k) (hf : s.pwr.failing = some c) (hc : c ≠ 3) :
    s.mpFault cause = s := by
  unfold State.mpFault
  rw [ha]
  dsimp only
  rw [if_pos (by simp [hf, mpCauseCommand, hc])]

theorem State.mpFault_kept {cause : Nat} (ha : s.mpIn .active = some k) (hs : s.mpIn .standby = none)
    (hf : s.pwr.failing = some 3) : s.mpFault cause = s := by
  unfold State.mpFault
  rw [ha]
  dsimp only
  rw [if_neg (by simp [hf, mpCauseCommand]), if_neg (by simp [hs]), if_pos (by simp [hf])]

end

/-! ### Heartbeats (R264) -/

section

variable {s : State} {a b : Nat} {beat : Nat → Bool} {ok : Bool}

/-- The heartbeats of both processors are counted. -/
def State.beaten (s : State) (beat : Nat → Bool) : State :=
  (s.updMp 0 (fun m => m.beat (beat 0))).updMp 1 (fun m => m.beat (beat 1))

theorem State.beaten_mp (s : State) (beat : Nat → Bool) {n : Nat} (hn : n < 2) : (s.beaten beat).mp n = (s.mp n).beat (beat n) := by
  unfold State.beaten
  obtain rfl | rfl : n = 0 ∨ n = 1 := by omega
  all_goals simp

@[simp] theorem Mp.beat_state (m : Mp) (v : Bool) : (m.beat v).state = m.state := by
  cases v <;> rfl

theorem Mp.beat_true_consec (m : Mp) : (m.beat true).consec = 0 := rfl

theorem Mp.beat_false_consec (m : Mp) : (m.beat false).consec = m.consec + 1 := rfl

theorem State.beaten_mpIn (s : State) (beat : Nat → Bool) (x : MpState) : (s.beaten beat).mpIn x = s.mpIn x := by
  have h0 := s.beaten_mp beat (n := 0) (by omega)
  have h1 := s.beaten_mp beat (n := 1) (by omega)
  simp only [State.mpIn, List.find?_cons, List.find?_nil, h0, h1, Mp.beat_state]

/-- What the active processor's heartbeats come to: the tenth one missed in a row is a fault. -/
def State.activeBeaten (s : State) (beat : Nat → Bool) (a : Nat) : State :=
  if 10 ≤ ((s.beaten beat).mp a).consec then (s.beaten beat).mpFault mpCauseMissed else s.beaten beat

/-- A tick where processor `a` is active and `b` stands by. -/
theorem mpHeartbeatTick_exec (ha : a < 2) (hb : b < 2) (hab : a ≠ b) (hact : (s.mp a).state = .active)
    (hsby : (s.mp b).state = .standby) (hf : s.pwr.failing = none) : exec (.mpHeartbeatTick (beat 0) (beat 1) ok) s
      = .next (if 10 ≤ ((s.beaten beat).mp b).consec then (s.activeBeaten beat a).standbyLost b
        else if ok then s.activeBeaten beat a else (s.activeBeaten beat a).mpMismatch b) := by
  have ia : s.mpIn .active = some a := State.mpIn_eq ha hb hab hact (by simp [hsby])
  have ib : s.mpIn .standby = some b := State.mpIn_eq hb ha hab.symm hsby (by simp [hact])
  have hlive : ∀ n, n < 2 → ((s.mp n).state == .active || (s.mp n).state == .standby) = true := fun n hn => by
    obtain rfl | rfl : n = a ∨ n = b := by omega
    · simp [hact]
    · simp [hsby]
  show execMpHeartbeatTick (beat 0) (beat 1) ok s = _
  unfold execMpHeartbeatTick
  dsimp only
  rw [if_pos (hlive 0 (by omega)), if_pos (hlive 1 (by omega)), ia, ib]
  simp only [hf, Option.isSome_none, Bool.or_false]
  rfl

section

variable (ha : a < 2) (hb : b < 2) (hab : a ≠ b) (hact : (s.mp a).state = .active) (hsby : (s.mp b).state = .standby)
  (hf : s.pwr.failing = none)
include ha

theorem State.activeBeaten_of_beat (h : beat a = true) : s.activeBeaten beat a = s.beaten beat := by
  unfold State.activeBeaten
  rw [State.beaten_mp _ _ ha, h, Mp.beat_true_consec, if_neg (by omega)]

include hb hab hact hsby hf

theorem mpHeartbeatTick_ends_equal (h1 : beat a = true) (h2 : beat b = true) (hok : ok = true) :
    Ends (.mpHeartbeatTick (beat 0) (beat 1) ok) s (fun t =>
      t.mp a = { s.mp a with consec := 0 } ∧ t.mp b = { s.mp b with consec := 0 } ∧ t.pwr.failing = none) := by
  refine ends_of_exec (mpHeartbeatTick_exec ha hb hab hact hsby hf) ?_
  rw [State.beaten_mp _ _ hb, h2, Mp.beat_true_consec, if_neg (by omega), if_pos hok, State.activeBeaten_of_beat ha h1,
    State.beaten_mp _ _ ha, State.beaten_mp _ _ hb, h1, h2]
  exact ⟨rfl, rfl, hf⟩

theorem mpHeartbeatTick_ends_differ (h1 : beat a = true) (h2 : beat b = true) (hok : ok = false) :
    Ends (.mpHeartbeatTick (beat 0) (beat 1) ok) s (fun t => (t.mp b).state = .resync
      ∧ (t.mp b).mismatches = ((s.mp b).mismatches + 1) % 2 ^ 32 ∧ (t.mp a).state = .active) := by
  refine ends_of_exec (mpHeartbeatTick_exec ha hb hab hact hsby hf) ?_
  obtain ⟨-, hmp⟩ := (s.beaten beat).mpMismatch_spec b
  rw [State.beaten_mp _ _ hb, h2, Mp.beat_true_consec, if_neg (by omega), if_neg (by simp [hok]), State.activeBeaten_of_beat ha h1,
    hmp, hmp, if_pos rfl, if_neg hab.symm, State.beaten_mp _ _ ha, State.beaten_mp _ _ hb, h1, h2]
  exact ⟨rfl, rfl, hact⟩

theorem mpHeartbeatTick_ends_activeMissed (h1 : beat a = false) (h9 : 9 ≤ (s.mp a).consec) :
    Ends (.mpHeartbeatTick (beat 0) (beat 1) ok) s (fun t => t.pwr.failing = some 0
      ∧ (t.mp a).missed = ((s.mp a).missed + 1) % 2 ^ 32) := by
  refine ends_of_exec (mpHeartbeatTick_exec ha hb hab hact hsby hf) ?_
  have ia : (s.beaten beat).mpIn .active = some a := by
    rw [State.beaten_mpIn]; exact State.mpIn_eq ha hb hab hact (by simp [hsby])
  have ib : (s.beaten beat).mpIn .standby = some b := by
    rw [State.beaten_mpIn]; exact State.mpIn_eq hb ha hab.symm hsby (by simp [hact])
  have hbegun : s.activeBeaten beat a
      = { s.beaten beat with pwr := { (s.beaten beat).pwr with failing := some mpCauseMissed } } := by
    unfold State.activeBeaten
    rw [State.beaten_mp _ _ ha, h1, Mp.beat_false_consec, if_pos (by omega), State.mpFault_begins ia (by simp [ib]) (.inl hf)]
  have hfail : (s.activeBeaten beat a).pwr.failing = some 0 := by rw [hbegun]; rfl
  have hmissed : ((s.activeBeaten beat a).mp a).missed = ((s.mp a).missed + 1) % 2 ^ 32 := by
    have hmp : (s.activeBeaten beat a).mp a = (s.beaten beat).mp a := by rw [hbegun]; rfl
    rw [hmp, State.beaten_mp _ _ ha, h1]
    rfl
  obtain ⟨kf, -, kmp⟩ := (s.activeBeaten beat a).standbyLost_spec b
  obtain ⟨lf, lmp⟩ := (s.activeBeaten beat a).mpMismatch_spec b
  split
  · rw [kf, kmp, if_neg hab.symm]
    exact ⟨hfail, hmissed⟩
  · split
    · exact ⟨hfail, hmissed⟩
    · rw [lf, lmp, if_neg hab.symm]
      exact ⟨hfail, hmissed⟩

theorem mpHeartbeatTick_ends_standbyMissed (h1 : beat a = true) (h2 : beat b = false) (h9 : 9 ≤ (s.mp b).consec) :
    Ends (.mpHeartbeatTick (beat 0) (beat 1) ok) s (fun t => (t.mp b).state = .failed ∧ (2, b) ∈ t.pwr.repairLog
      ∧ (t.mp a).state = .active ∧ t.pwr.failing = none) := by
  refine ends_of_exec (mpHeartbeatTick_exec ha hb hab hact hsby hf) ?_
  obtain ⟨kf, krep, kmp⟩ := (s.beaten beat).standbyLost_spec b
  rw [State.beaten_mp _ _ hb, h2, Mp.beat_false_consec, if_pos (by omega), State.activeBeaten_of_beat ha h1, kf, kmp, kmp,
    if_pos rfl, if_neg hab.symm, State.beaten_mp _ _ ha, Mp.beat_state]
  exact ⟨rfl, krep, hact, hf⟩

theorem mpHeartbeatTick_ends_missed (h1 : beat a = true) (h2 : beat b = false) (h9 : (s.mp b).consec < 9) (hok : ok = true) :
    Ends (.mpHeartbeatTick (beat 0) (beat 1) ok) s (fun t =>
      t.mp b = { s.mp b with missed := ((s.mp b).missed + 1) % 2 ^ 32, consec := (s.mp b).consec + 1 }) := by
  refine ends_of_exec (mpHeartbeatTick_exec ha hb hab hact hsby hf) ?_
  rw [State.beaten_mp _ _ hb, h2, Mp.beat_false_consec, if_neg (by omega), if_pos hok, State.activeBeaten_of_beat ha h1,
    State.beaten_mp _ _ hb, h2]
  rfl

end

end

/-! ### The mailboxes that rang in the gap (R266) -/

section

variable {s : State}

theorem State.enqueue_gapCmds (s : State) (j : Job) : (s.enqueue j).mbx.gapCmds = s.mbx.gapCmds := by
  have halloc : (if j.req.indirect then s.poolAlloc j.req.len else (s, none)).1.mbx = s.mbx := by
    split
    · exact State.poolAlloc_mbx _ _
    · rfl
  unfold State.enqueue
  dsimp only
  generalize (if j.req.indirect then s.poolAlloc j.req.len else (s, none)) = a at halloc ⊢
  have hfill : (a.1.fillBuf a.2 j.req.payload).mbx = s.mbx := by rw [State.fillBuf_mbx, halloc]
  split
  · rw [((State.postJob_frame (Touch.or_self _) .refl _ _).jobs rfl).2, ((State.bumpMbx_frame (Touch.or_self _) .refl _ _ _).jobs rfl).2]
    exact (congrArg MbxSt.gapCmds hfill :)
  · exact (congrArg MbxSt.gapCmds hfill :)

theorem State.applyVerdict_gapCmds (s : State) (j : Job) (v : Verdict) : (s.applyVerdict j v).1.mbx.gapCmds = s.mbx.gapCmds := by
  cases v with
  | refuse x record =>
    show ((if record then s.recordTag j.op j.req x else s).postJob j x).mbx.gapCmds = _
    rw [((State.postJob_frame (Touch.or_self _) .refl _ _).jobs rfl).2]
    split
    · exact ((State.recordTag_frame (Touch.or_self _) .refl _ _ _).jobs rfl).2
    · rfl
  | replay h => exact ((State.postJob_frame (Touch.or_self _) .refl _ _).jobs rfl).2
  | wait _ =>
    show (if j.boxed then s.addWaiter j.req else s).mbx.gapCmds = _
    split <;> rfl
  | accept => exact s.enqueue_gapCmds j

theorem State.takeJob_gapCmds (s : State) (j : Job) : (s.takeJob j).1.mbx.gapCmds = s.mbx.gapCmds := by
  unfold State.takeJob
  rw [State.applyVerdict_gapCmds, State.readPayload_mbx]

/-- Commands of the device's own mailboxes get their verdicts: mail moves, and none joins the gap again. -/
theorem State.serveOne_mail : ∀ (l : List Job) (s : State), (∀ j ∈ l, j.req.box ≠ fwdBox) →
    Frame .mail s (l.foldl (fun t c => t.serveOne c) s) ∧ (l.foldl (fun t c => t.serveOne c) s).mbx.gapCmds = s.mbx.gapCmds
  | [], s, _ => ⟨.refl, rfl⟩
  | j :: l, s, h => by
    obtain ⟨hframe, hgap⟩ := State.serveOne_mail l (s.takeJob j).1 (fun x hx => h x (.tail _ hx))
    rw [List.foldl_cons, show s.serveOne j = (s.takeJob j).1 from if_neg (h j (.head _))]
    exact ⟨(State.takeJob_frame (Touch.or_self _) .refl j).trans hframe, hgap.trans (s.takeJob_gapCmds j)⟩

/-- The commands of the gap are taken. -/
def State.gapTaken (s : State) : State := { s with mbx := { s.mbx with gapCmds := [] } }

theorem State.gapTaken_frame (s : State) : Frame .mail s s.gapTaken := .ofView rfl

/-- Where none of them was forwarded, serving them moves mail alone, and none is left. -/
theorem State.serveGap_mail (h : ∀ j ∈ s.mbx.gapCmds, j.req.box ≠ fwdBox) :
    Frame .mail s s.serveGap ∧ s.serveGap.mbx.gapCmds = [] := by
  obtain ⟨hframe, hgap⟩ := State.serveOne_mail s.mbx.gapCmds s.gapTaken h
  exact ⟨s.gapTaken_frame.trans hframe, hgap⟩

/-! ### The end of a failover (R265, R266) -/

/-- The roles exchanged: the new active serves, and the old one has failed or resynchronises. -/
def State.exchanged (s : State) (cause old new : Nat) : State :=
  let u := (({ s with pwr := { s.pwr with failing := none } }).updMp old (fun m =>
    { m with state := if cause == mpCauseCommand then .resync else .failed, restarted := false, consec := 0,
             failovers := (m.failovers + 1) % 2 ^ 32 })).updMp new (fun m => { m with state := .active, consec := 0 })
  (((if cause == mpCauseCommand then u else u.repairAdd 2 old).bumpRed 11 1).raise 0x0905 sevCorrectable
    (le 1 new ++ le 1 cause)).healthChanged

/-- The same, before the mailboxes of the gap are served: a switchover command ends. -/
def State.changedOver (s : State) (cause old new : Nat) : State := ((s.exchanged cause old new).gapOver).finishJob s.switchJob

section

variable (s : State) (cause old new : Nat)

theorem State.exchanged_mp (n : Nat) : (s.exchanged cause old new).mp n
    = if new = n then { (if old = n then { s.mp old with
          state := if cause = 3 then MpState.resync else .failed, restarted := false, consec := 0,
          failovers := ((s.mp old).failovers + 1) % 2 ^ 32 } else s.mp n) with state := .active, consec := 0 }
      else if old = n then { s.mp old with state := if cause = 3 then MpState.resync else .failed, restarted := false, consec := 0,
                                           failovers := ((s.mp old).failovers + 1) % 2 ^ 32 } else s.mp n := by
  unfold State.exchanged
  rw [State.healthChanged_mp, (State.raise_frame (Touch.or_self _) .refl _ _ _).mp_eq rfl,
    (State.bumpRed_frame (Touch.or_self _) .refl _ _).mp_eq rfl]
  have hrep : ∀ u : State, (if cause == mpCauseCommand then u else u.repairAdd 2 old).mp = u.mp := fun u => by split <;> rfl
  rw [hrep, State.mp_updMp, State.mp_updMp]
  have hcmd : (cause == mpCauseCommand) = decide (cause = 3) := rfl
  by_cases hn : new = n
  · subst hn
    simp only [if_true, hcmd, decide_eq_true_eq]
    rfl
  · rw [if_neg hn, if_neg hn, State.mp_updMp]
    simp only [hcmd, decide_eq_true_eq]
    rfl

theorem State.exchanged_failing : (s.exchanged cause old new).pwr.failing = none := by
  unfold State.exchanged
  rw [(State.healthChanged_frame (Touch.or_self _) .refl).failing_eq rfl, (State.raise_frame (Touch.or_self _) .refl _ _ _).failing_eq rfl,
    (State.bumpRed_frame (Touch.or_self _) .refl _ _).failing_eq rfl]
  split <;> rfl

theorem State.exchanged_repaired (hc : cause ≠ 3) : (2, old) ∈ (s.exchanged cause old new).pwr.repairLog := by
  unfold State.exchanged
  rw [(State.healthChanged_frame (Touch.or_self _) .refl).repairLog rfl, (State.raise_frame (Touch.or_self _) .refl _ _ _).repairLog rfl,
    (State.bumpRed_frame (Touch.or_self _) .refl _ _).repairLog rfl, if_neg (by simpa [mpCauseCommand] using hc)]
  exact State.mem_repairAdd _ _ _

theorem State.exchanged_redCtr : Tab.get 0 (s.exchanged cause old new).tel.redCtr 11 = Tab.get 0 s.tel.redCtr 11 + 1 := by
  unfold State.exchanged
  rw [(State.healthChanged_frame (Touch.or_self _) .refl).redCtr rfl, (State.raise_frame (Touch.or_self _) .refl _ _ _).redCtr rfl,
    State.get_bumpRed_same]
  split <;> rfl

/-- The end of the gap moves the clock's source and mail, and none of the mailboxes that rang in it. -/
theorem State.changedOver_frame : Frame ({ Touch.mail with time := true }) (s.exchanged cause old new) (s.changedOver cause old new) :=
  ((State.gapOver_frame (s := s.exchanged cause old new) (Touch.or_self _) .refl).wider rfl).trans
    ((State.finishJob_frame (Touch.or_self _) .refl _).wider rfl)

end

theorem State.post_gapCmds (s : State) (b tag : Nat) (ind : Bool) (addr : Nat) (x : Resp) :
    (s.post b tag ind addr x).mbx.gapCmds = s.mbx.gapCmds := by
  unfold State.post
  split
  · exact ((State.domSend_frame (Touch.or_self _) .refl _ _ _).jobs rfl).2
  · rfl

theorem State.postWaiters_gapCmds (tag : Nat) (x : Resp) : ∀ (l : List (Nat × Bool × Nat)) (s : State),
    (s.postWaiters tag x l).mbx.gapCmds = s.mbx.gapCmds
  | [], _ => rfl
  | _ :: l, s => (State.postWaiters_gapCmds tag x l _).trans (s.post_gapCmds _ _ _ _ _)

theorem State.endJob_gapCmds (s : State) (j : Job) (l : List Job) (x : Resp) : (s.endJob j l x).mbx.gapCmds = s.mbx.gapCmds := by
  unfold State.endJob
  dsimp only
  rw [State.postWaiters_gapCmds, ((State.answerJob_frame (Touch.or_self _) .refl _ _).jobs rfl).2,
    ((State.recordTag_frame (Touch.or_self _) .refl _ _ _).jobs rfl).2, State.freeBuf_mbx]

theorem State.complete_gapCmds (s : State) (op : Nat) (r : Req) (x : Resp) : (s.complete op r x).mbx.gapCmds = s.mbx.gapCmds := by
  unfold State.complete State.endOldest
  split
  · rfl
  · exact s.endJob_gapCmds _ _ _

theorem State.finishJob_gapCmds (s : State) (j : Option Job) : (s.finishJob j).mbx.gapCmds = s.mbx.gapCmds := by
  cases j with
  | none => rfl
  | some j => exact s.complete_gapCmds _ _ _

theorem State.exchanged_mbx (s : State) (cause old new : Nat) : (s.exchanged cause old new).mbx = s.mbx := by
  unfold State.exchanged
  rw [(State.healthChanged_frame (Touch.or_self _) .refl).mbx rfl, (State.raise_frame (Touch.or_self _) .refl _ _ _).mbx rfl,
    (State.bumpRed_frame (Touch.or_self _) .refl _ _).mbx rfl]
  split <;> rfl

theorem State.changedOver_gapCmds (s : State) (cause old new : Nat) :
    (s.changedOver cause old new).mbx.gapCmds = s.mbx.gapCmds := by
  unfold State.changedOver
  rw [State.finishJob_gapCmds, (State.gapOver_frame (Touch.or_self _) .refl).mbx rfl, State.exchanged_mbx]

theorem mpFailoverDone_idles (h : s.pwr.failing = none) : Idles .mpFailoverDone s := by
  show execMpFailoverDone s = _
  unfold execMpFailoverDone
  rw [h]

theorem mpFailoverDone_exec {cause old new : Nat} (hf : s.pwr.failing = some cause) (ho : s.mpIn .active = some old)
    (hn : s.mpIn .standby = some new) : exec .mpFailoverDone s = .next (s.changedOver cause old new).serveGap := by
  show execMpFailoverDone s = _
  unfold execMpFailoverDone
  rw [hf, ho, hn]
  rfl

theorem mpFailoverDone_ends {cause old new : Nat} (hf : s.pwr.failing = some cause) (ho : s.mpIn .active = some old)
    (hn : s.mpIn .standby = some new) (hgap : ∀ j ∈ s.mbx.gapCmds, j.req.box ≠ fwdBox) : Ends .mpFailoverDone s (fun t =>
      t.mbx.gapCmds = [] ∧ (t.mp new).state = .active ∧ (t.mp old).state = (if cause = 3 then .resync else .failed)
        ∧ (t.mp old).failovers = ((s.mp old).failovers + 1) % 2 ^ 32 ∧ t.pwr.failing = none
        ∧ (cause ≠ 3 → (2, old) ∈ t.pwr.repairLog) ∧ Tab.get 0 t.tel.redCtr 11 = Tab.get 0 s.tel.redCtr 11 + 1) := by
  refine ends_of_exec (mpFailoverDone_exec hf ho hn) ?_
  have hne : new ≠ old := by
    rintro rfl
    simpa [State.state_of_mpIn ho] using State.state_of_mpIn hn
  rw [← State.changedOver_gapCmds s cause old new] at hgap
  obtain ⟨hserve, hempty⟩ := State.serveGap_mail hgap
  have hframe := (s.changedOver_frame cause old new).trans (hserve.wider rfl)
  rw [hframe.mp_eq rfl, hframe.failing_eq rfl, hframe.repairLog rfl, hframe.redCtr rfl, State.exchanged_mp, State.exchanged_mp,
    if_pos rfl, if_neg hne, if_pos rfl, State.exchanged_redCtr]
  exact ⟨hempty, rfl, rfl, rfl, State.exchanged_failing _ _ _ _, State.exchanged_repaired _ _ _ _, rfl⟩

/-- A commanded switchover that has lost its standby is refused. -/
def State.refuseSwitch (s : State) : State :=
  match s.switchJob with
  | some j => s.complete j.op j.req (Resp.err stNotPermitted dNone)
  | none => s

theorem State.refuseSwitch_mail (s : State) : Frame .mail s s.refuseSwitch ∧ s.refuseSwitch.mbx.gapCmds = s.mbx.gapCmds := by
  unfold State.refuseSwitch
  split
  · exact ⟨State.complete_frame (Touch.or_self _) .refl _ _ _, State.complete_gapCmds _ _ _ _⟩
  · exact ⟨.refl, rfl⟩

/-- No failover is under way any more. -/
def State.unfailing (s : State) : State := { s with pwr := { s.pwr with failing := none } }

/-- A failover that has lost its standby is given up. -/
theorem mpFailoverDone_exec_lost {cause old : Nat} (hf : s.pwr.failing = some cause) (ho : s.mpIn .active = some old)
    (hn : s.mpIn .standby = none) : exec .mpFailoverDone s
      = .next (if cause = 3 then s.unfailing.refuseSwitch.serveGap else s.unfailing.mgmtLost old) := by
  show execMpFailoverDone s = _
  unfold execMpFailoverDone
  rw [hf, ho, hn]
  rfl

theorem mpFailoverDone_ends_lost {cause old : Nat} (hf : s.pwr.failing = some cause) (ho : s.mpIn .active = some old)
    (hn : s.mpIn .standby = none) (hgap : ∀ j ∈ s.mbx.gapCmds, j.req.box ≠ fwdBox) : Ends .mpFailoverDone s (fun t =>
      t.pwr.failing = none ∧ (cause ≠ 3 → (t.mp old).state = .failed ∧ t.mbx.ready = false ∧ (2, old) ∈ t.pwr.repairLog)
        ∧ (cause = 3 → t.mp old = s.mp old)) := by
  refine ends_of_exec (mpFailoverDone_exec_lost hf ho hn) ?_
  by_cases hc : cause = 3
  · obtain ⟨hrefuse, hkept⟩ := s.unfailing.refuseSwitch_mail
    obtain ⟨hserve, -⟩ := State.serveGap_mail (s := s.unfailing.refuseSwitch) (by rw [hkept]; exact hgap)
    have hframe := hrefuse.trans hserve
    rw [if_pos hc, hframe.failing_eq rfl, hframe.mp_eq rfl]
    exact ⟨rfl, fun h => absurd hc h, fun _ => rfl⟩
  · obtain ⟨hst, hready, hrep, hfail⟩ := s.unfailing.mgmtLost_spec old
    rw [if_neg hc, hfail]
    exact ⟨rfl, fun _ => ⟨hst, hready, hrep⟩, fun h => absurd h hc⟩

/-! ### The end of a processor's restart (R264, R267) -/

variable {m : Nat}

theorem mpRestartDone_idles (hm : m < 2) (h : (s.mp m).state = .active ∨ (s.mp m).state = .standby) (pass : Bool) :
    Idles (.mpRestartDone m pass) s := by
  show execMpRestartDone m pass s = _
  unfold execMpRestartDone
  rw [if_neg (by omega)]
  dsimp only
  rw [if_neg (by rcases h with h | h <;> simp [h])]

/-- The processor after its test: it stands by, or has failed. -/
def State.restarted (s : State) (m : Nat) (pass : Bool) : State :=
  if pass then ((s.setMp m (fun x => { x with state := .standby, restarted := true, consec := 0 })).repairDel 2 m).raise
    0x0908 sevInfo (le 1 0)
  else ((s.setMp m (fun x => { x with state := .failed, restarted := true })).repairAdd 2 m).bumpRed 12 1

theorem mpRestartDone_exec (hm : m < 2)
    (h : (s.mp m).state = .resync ∨ ((s.mp m).state = .failed ∧ (s.mp m).restarted = false)) (ha : s.mpIn .active ≠ none)
    (pass : Bool) : exec (.mpRestartDone m pass) s
      = .next ((s.restarted m pass).finishJob (if (s.mp m).state = .resync then s.mpJob else none)) := by
  show execMpRestartDone m pass s = _
  unfold execMpRestartDone
  rw [if_neg (by omega)]
  dsimp only
  rw [if_pos ⟨h.elim .inr (fun h => .inl h), Option.isSome_iff_ne_none.mpr ha⟩]
  rfl

theorem mpRestartDone_ends (hm : m < 2)
    (h : (s.mp m).state = .resync ∨ ((s.mp m).state = .failed ∧ (s.mp m).restarted = false)) (ha : s.mpIn .active ≠ none) :
    Ends (.mpRestartDone m true) s (fun t => (t.mp m).state = .standby ∧ (2, m) ∉ t.pwr.repairLog)
      ∧ Ends (.mpRestartDone m false) s (fun t => (t.mp m).state = .failed ∧ (t.mp m).restarted = true
        ∧ (2, m) ∈ t.pwr.repairLog) := by
  refine ⟨ends_of_exec (mpRestartDone_exec hm h ha true) ?_, ends_of_exec (mpRestartDone_exec hm h ha false) ?_⟩
  all_goals rw [(State.finishJob_frame (Touch.or_self _) .refl _).mp_eq rfl, (State.finishJob_frame (Touch.or_self _) .refl _).repairLog rfl]
  · show ((State.raise _ _ _ _).mp m).state = _ ∧ _ ∉ (State.raise _ _ _ _).pwr.repairLog
    rw [(State.raise_frame (Touch.or_self _) .refl _ _ _).mp_eq rfl, (State.raise_frame (Touch.or_self _) .refl _ _ _).repairLog rfl,
      (State.repairDel_frame (Touch.or_self _) .refl _ _).mp_eq rfl, State.setMp_mp, if_pos rfl]
    exact ⟨rfl, State.not_mem_repairDel _ _ _⟩
  · show ((State.bumpRed _ _ _).mp m).state = _ ∧ ((State.bumpRed _ _ _).mp m).restarted = _ ∧ _ ∈ (State.bumpRed _ _ _).pwr.repairLog
    rw [(State.bumpRed_frame (Touch.or_self _) .refl _ _).mp_eq rfl, (State.bumpRed_frame (Touch.or_self _) .refl _ _).repairLog rfl,
      (State.repairAdd_frame (Touch.or_self _) .refl _ _).mp_eq rfl, State.setMp_mp, if_pos rfl]
    exact ⟨rfl, rfl, State.mem_repairAdd _ _ _⟩

end

/-! ### O52 -/

/-- Settles O52: each row is one operation on a cluster or on the processors; what follows it moves mail, counters, the event log
and the clock's source. -/
theorem redundancyRows : Obligations.RedundancyRows := by
  unfold Obligations.RedundancyRows
  refine ⟨fun s c k hc hk => ⟨fun h => ?idle, fun i h => ?fails, spareSelftestDone_ends_ready hc hk, spareSelftestDone_ends_testing hc hk⟩,
    fun s c bad hc => ⟨coreSubstitution_idles hc, fun i old k l m => coreSubstitution_ends hc, fun i old l => coreSubstitution_ends_none hc⟩,
    fun s a b beat ok ha hb hab hact hsby hf => ⟨mpHeartbeatTick_ends_equal ha hb hab hact hsby hf,
      mpHeartbeatTick_ends_differ ha hb hab hact hsby hf, mpHeartbeatTick_ends_activeMissed ha hb hab hact hsby hf,
      mpHeartbeatTick_ends_standbyMissed ha hb hab hact hsby hf, mpHeartbeatTick_ends_missed ha hb hab hact hsby hf⟩,
    fun s k cause ha => ?fault,
    fun s => ⟨mpFailoverDone_idles, fun cause old new hf ho hn => mpFailoverDone_ends hf ho hn⟩,
    fun s cause old hf ho hn => mpFailoverDone_ends_lost hf ho hn,
    fun s m hm => ⟨fun h pass => mpRestartDone_idles hm h pass, mpRestartDone_ends hm⟩⟩
  case idle =>
    exact ⟨(coreFailure_exec hc hk).trans (by rw [State.coreFail_of_idle h]),
      (coreWatchdogExpiry_exec hc hk).trans (by rw [State.coreFail_of_idle h])⟩
  case fails =>
    have htest : ∀ pass, exec (.spareSelftestDone c k pass) s = .next (if pass then s else s.coreFail c k) := fun pass =>
      (spareSelftestDone_exec hc hk pass).trans (by rw [if_pos (by simp [h])])
    exact ⟨ends_of_exec (coreFailure_exec hc hk) (State.coreFail_spec h), ends_of_exec (coreWatchdogExpiry_exec hc hk) (State.coreFail_spec h),
      ends_of_exec (htest false) (State.coreFail_spec h), htest true⟩
  case fault =>
    have he : exec (.mpFault cause) s = .next (s.mpFault cause) := rfl
    refine ⟨fun hf hs => ends_of_exec he (State.mpFault_begins ha hs (.inl hf)), fun hf hs => ends_of_exec he ?_,
      fun c hf hc => he.trans (by rw [State.mpFault_again ha hf hc]),
      fun hf hs => ends_of_exec he (State.mpFault_begins ha hs (.inr hf)), fun hf hs => he.trans (by rw [State.mpFault_kept ha hs hf])⟩
    obtain ⟨hst, hready, hrep, -⟩ := s.mgmtLost_spec k
    rw [State.mpFault_lost ha hs hf]
    exact ⟨hst, hready, hrep⟩

end Sys2Proof.Machine
end

section
/-! PROOF. Droop and the clock stretcher, and temperature (R480 to R486): what each row leaves of a slice, of the cluster clocks
and of the thermal thresholds. -/

namespace Sys2Proof.Machine

section

variable {w : Touch} {s t : State}

theorem Frame.sliceSt_eq (h : Frame w s t) (hw : w.slices = false) : t.sliceSt = s.sliceSt := by
  unfold State.sliceSt; rw [h.slices hw]

theorem Frame.stack_eq (h : Frame w s t) (hw : w.hbms = false) : t.stack = s.stack := by
  unfold State.stack; rw [h.hbms hw]

theorem Frame.chan_eq (h : Frame w s t) (hw : w.chans = false) : t.chan = s.chan := by
  unfold State.chan; rw [h.chans hw]

theorem Frame.target_eq (h : Frame w s t) (hw : w.targets = false) : t.target = s.target := by
  unfold State.target; rw [h.targets hw]

end

/-! ### Power counters -/

theorem State.get_bumpPwr (s : State) (i n k : Nat) : Tab.get 0 (s.bumpPwr i n).tel.pwrCtr k
    = if i = k then Tab.get 0 s.tel.pwrCtr k + BitVec.ofNat 64 n else Tab.get 0 s.tel.pwrCtr k :=
  Tab.get_bump _ _ _ _

theorem State.get_bumpPwr_same (s : State) (i : Nat) : Tab.get 0 (s.bumpPwr i 1).tel.pwrCtr i = Tab.get 0 s.tel.pwrCtr i + 1 :=
  (s.get_bumpPwr i 1 i).trans (if_pos rfl)

theorem State.get_bumpPwr_other (s : State) {i k : Nat} (n : Nat) (h : i ≠ k) :
    Tab.get 0 (s.bumpPwr i n).tel.pwrCtr k = Tab.get 0 s.tel.pwrCtr k := (s.get_bumpPwr i n k).trans (if_neg h)

theorem State.get_bumpPwrAt (s : State) (sl i n : Nat) :
    Tab.get 0 (s.bumpPwrAt sl i n).tel.pwrCtr i = Tab.get 0 s.tel.pwrCtr i + BitVec.ofNat 64 n := by
  unfold State.bumpPwrAt
  rw [(State.share_frame (Touch.or_self _) .refl _ _ _ _).pwrCtr rfl, State.get_bumpPwr, if_pos rfl]

theorem State.bumpPwrAt_sliceSt (s : State) (sl i n : Nat) : (s.bumpPwrAt sl i n).sliceSt = s.sliceSt := by
  unfold State.bumpPwrAt
  rw [(State.share_frame (Touch.or_self _) .refl _ _ _ _).sliceSt_eq rfl, (State.bumpPwr_frame (Touch.or_self _) .refl _ _).sliceSt_eq rfl]

theorem State.bumpPwrAt_cluster (s : State) (sl i n : Nat) : (s.bumpPwrAt sl i n).cluster = s.cluster := by
  unfold State.bumpPwrAt
  rw [(State.share_frame (Touch.or_self _) .refl _ _ _ _).cluster_eq rfl, (State.bumpPwr_frame (Touch.or_self _) .refl _ _).cluster_eq rfl]

/-! ### ECLK (R485) -/

@[simp] theorem State.setEclk_sliceSt (s : State) (n : Nat) : (s.setEclk n).sliceSt = s.sliceSt := rfl

@[simp] theorem State.setEclk_pwr (s : State) (n : Nat) : (s.setEclk n).pwr = s.pwr := rfl

theorem State.setEclk_eclkDiv (s : State) (n m : Nat) : ((s.setEclk n).cluster m).eclkDiv
    = if n = m then eclkFor s.pwr.trip (s.sliceSt n).eStretched else (s.cluster m).eclkDiv := by
  unfold State.setEclk
  rw [State.cluster_updCluster]
  split <;> rfl

theorem State.foldl_setEclk_eclkDiv (n : Nat) : ∀ (l : List Nat) (s : State), ((l.foldl (fun t n => t.setEclk n) s).cluster n).eclkDiv
    = if n ∈ l then eclkFor s.pwr.trip (s.sliceSt n).eStretched else (s.cluster n).eclkDiv
  | [], s => by simp
  | m :: l, s => by
    rw [List.foldl_cons, State.foldl_setEclk_eclkDiv n l, State.setEclk_pwr, State.setEclk_sliceSt, State.setEclk_eclkDiv]
    by_cases hm : m = n
    · subst hm; simp
    · simp [hm, Ne.symm hm]

theorem State.setEclks_eclkDiv (s : State) {n : Nat} (hn : n < 16) :
    ((s.setEclks).cluster n).eclkDiv = eclkFor s.pwr.trip (s.sliceSt n).eStretched :=
  (State.foldl_setEclk_eclkDiv n _ s).trans (if_pos (List.mem_range.mpr hn))

theorem State.setEclks_pwr (s : State) : s.setEclks.pwr = s.pwr :=
  foldl_read State.pwr (f := fun t n => State.setEclk t n) (fun t n _ => t.setEclk_pwr n) s

/-! ### Droop (R481 to R483) -/

section

variable {s : State} {n : Nat}

theorem droopTrip_exec (hn : n < 16) : exec (.droopTrip n) s = .next (s.droopTrip n) := if_neg (by omega)

theorem stretchHoldEnd_exec (hn : n < 16) (b : Bool) : exec (.stretchHoldEnd n b) s = .next (s.stretchEnd n b) :=
  if_neg (by omega)

/-- A slice whose state `f` changes, with its cluster's ECLK. -/
theorem State.restretched_spec (s : State) (n : Nat) (f : SliceSt → SliceSt) :
    ((s.updSlice n f).setEclk n).sliceSt n = f (s.sliceSt n)
      ∧ (∀ m, m ≠ n → ((s.updSlice n f).setEclk n).sliceSt m = s.sliceSt m)
      ∧ (((s.updSlice n f).setEclk n).cluster n).eclkDiv = eclkFor s.pwr.trip (f (s.sliceSt n)).eStretched := by
  refine ⟨?_, fun m hm => ?_, ?_⟩
  · rw [State.setEclk_sliceSt, State.sliceSt_updSlice_same]
  · rw [State.setEclk_sliceSt, State.sliceSt_updSlice, if_neg (Ne.symm hm)]
  · rw [State.setEclk_eclkDiv, if_pos rfl, State.sliceSt_updSlice_same]
    rfl

theorem droopTrip_ends_enters (hn : n < 16) (hp : (s.sliceSt n).state ≠ .parked) (hs : (s.sliceSt n).stretched = false) :
    Ends (.droopTrip n) s (fun t =>
      t.sliceSt n = { s.sliceSt n with stretched := true, eStretched := true, stretchAt := s.upNs, holdTick := s.up }
      ∧ (∀ m, m ≠ n → t.sliceSt m = s.sliceSt m) ∧ (t.cluster n).eclkDiv = (if s.pwr.trip then 4 else 3)
      ∧ Tab.get 0 t.tel.pwrCtr 0 = Tab.get 0 s.tel.pwrCtr 0 + 1) := by
  refine ends_of_exec (droopTrip_exec hn) ?_
  obtain ⟨hself, hothers, hclock⟩ := s.restretched_spec n (fun y =>
    { y with stretched := true, eStretched := true, stretchAt := s.upNs, holdTick := s.up })
  unfold State.droopTrip
  dsimp only
  rw [if_neg hp, if_neg (by simp [hs]), State.bumpPwrAt_sliceSt, State.bumpPwrAt_cluster, State.get_bumpPwrAt]
  exact ⟨hself, hothers, hclock, rfl⟩

theorem droopTrip_ends_again (hn : n < 16) (hp : (s.sliceSt n).state ≠ .parked) (hs : (s.sliceSt n).stretched = true) :
    Ends (.droopTrip n) s (fun t =>
      t.sliceSt n = { s.sliceSt n with eStretched := true, holdTick := s.up } ∧ t.tel.pwrCtr = s.tel.pwrCtr
      ∧ (∀ m, m ≠ n → t.sliceSt m = s.sliceSt m) ∧ (t.cluster n).eclkDiv = (if s.pwr.trip then 4 else 3)) := by
  refine ends_of_exec (droopTrip_exec hn) ?_
  obtain ⟨hself, hothers, hclock⟩ := s.restretched_spec n (fun y => { y with eStretched := true, holdTick := s.up })
  unfold State.droopTrip
  dsimp only
  rw [if_neg hp, if_pos hs]
  exact ⟨hself, rfl, hothers, hclock⟩

theorem droopTrip_idles (hn : n < 16) (hp : (s.sliceSt n).state = .parked) : Idles (.droopTrip n) s := by
  refine (droopTrip_exec hn).trans ?_
  unfold State.droopTrip
  dsimp only
  rw [if_pos hp]

theorem State.stretchEnd_stretched (h : (s.sliceSt n).stretched = true) : s.stretchEnd n true
    = if (s.sliceSt n).holdTick + 171 ≤ s.up then (s.closeStretch n).droopReport n
      else if (s.sliceSt n).holdTick + 128 ≤ s.up then (s.updSlice n (fun y => { y with eStretched := false })).setEclk n
      else s :=
  if_neg (by simp [h])

theorem State.stretchEnd_idle {b : Bool} (h : b = false ∨ (s.sliceSt n).stretched = false) : s.stretchEnd n b = s :=
  if_pos (by rcases h with h | h <;> simp [h])

theorem stretchHoldEnd_ends_eclk (hn : n < 16) (hs : (s.sliceSt n).stretched = true) (h1 : (s.sliceSt n).holdTick + 128 ≤ s.up)
    (h2 : s.up < (s.sliceSt n).holdTick + 171) : Ends (.stretchHoldEnd n true) s (fun t =>
      t.sliceSt n = { s.sliceSt n with eStretched := false } ∧ (t.cluster n).eclkDiv = if s.pwr.trip then 4 else 2) := by
  refine ends_of_exec (stretchHoldEnd_exec hn true) ?_
  obtain ⟨hself, -, hclock⟩ := s.restretched_spec n (fun y => { y with eStretched := false })
  rw [State.stretchEnd_stretched hs, if_neg (by omega), if_pos h1]
  exact ⟨hself, hclock⟩

theorem stretchHoldEnd_ends_both (hn : n < 16) (hs : (s.sliceSt n).stretched = true) (h1 : (s.sliceSt n).holdTick + 171 ≤ s.up) :
    Ends (.stretchHoldEnd n true) s (fun t =>
      (t.sliceSt n).stretched = false ∧ (t.sliceSt n).eStretched = false ∧ ((t.cluster n).eclkDiv = if s.pwr.trip then 4 else 2)
      ∧ Tab.get 0 t.tel.pwrCtr 1 = Tab.get 0 s.tel.pwrCtr 1 + BitVec.ofNat 64 (s.upNs - (s.sliceSt n).stretchAt)) := by
  refine ends_of_exec (stretchHoldEnd_exec hn true) ?_
  obtain ⟨hself, -, hclock⟩ := s.restretched_spec n (fun y =>
    { y with stretched := false, eStretched := false, recent := y.lately s.upNs ++ [(y.stretchAt, s.upNs)] })
  rw [State.stretchEnd_stretched hs, if_pos h1, (State.droopReport_frame (Touch.or_self _) .refl _).sliceSt_eq rfl,
    (State.droopReport_frame (Touch.or_self _) .refl _).cluster_eq rfl, (State.droopReport_frame (Touch.or_self _) .refl _).pwrCtr rfl]
  unfold State.closeStretch
  dsimp only
  rw [if_pos hs, State.bumpPwrAt_sliceSt, State.bumpPwrAt_cluster, State.get_bumpPwrAt, hself]
  exact ⟨rfl, rfl, hclock, rfl⟩

end

/-! ### Temperature (R484 to R486) -/

section

variable {s : State} {l : List Int}

theorem thermalSample_exec : exec (.thermalSample l) s = .next (if s.pwr.porst = false ∨ s.pwr.supplies = false ∨ s.pwr.emergency then s
    else if 1840 ≤ (hottestOf l).2 then s.thermalEmergency
    else if s.pwr.inReset then s
    else s.thermal l) := rfl

/-- The state in which the readings have been taken, and the hottest one. -/
def State.sensed (s : State) (l : List Int) : State :=
  let t := (List.range 16).foldl (fun t n =>
    (List.range 4).foldl (fun t k => t.sense n k ((sliceReadings l n).getD k none)) t) s
  { t with pwr := { t.pwr with hottest := (hottestOf l).2 } }

theorem State.sense_thermal (s : State) (n k : Nat) (v : Option Int) : (s.sense n k v).pwr.warn = s.pwr.warn
    ∧ (s.sense n k v).pwr.trip = s.pwr.trip ∧ (s.sense n k v).pwr.warnC = s.pwr.warnC := by
  have hframe := State.sense_frame (Touch.or_self _) (.refl (s := s)) n k v
  obtain ⟨hwarn, htrip, -⟩ := hframe.thermal rfl
  exact ⟨hwarn, htrip, hframe.warnC rfl⟩

theorem State.sensed_spec (s : State) (l : List Int) : (s.sensed l).pwr.warn = s.pwr.warn ∧ (s.sensed l).pwr.trip = s.pwr.trip
    ∧ (s.sensed l).pwr.warnC = s.pwr.warnC ∧ (s.sensed l).pwr.hottest = (hottestOf l).2 := by
  have hread : ∀ {β : Type} (g : State → β), (∀ t n k v, g (State.sense t n k v) = g t) →
      g ((List.range 16).foldl (fun t n =>
        (List.range 4).foldl (fun t k => t.sense n k ((sliceReadings l n).getD k none)) t) s) = g s := fun g hg =>
    foldl_read g (fun t n _ => foldl_read g (fun t k _ => hg t n k _) t) s
  exact ⟨hread (fun t => t.pwr.warn) (fun t n k v => (t.sense_thermal n k v).1),
    hread (fun t => t.pwr.trip) (fun t n k v => (t.sense_thermal n k v).2.1),
    hread (fun t => t.pwr.warnC) (fun t n k v => (t.sense_thermal n k v).2.2), rfl⟩

theorem State.warnStep_spec (s : State) (h : Nat × Int) :
    (s.warnStep h).pwr.warn = (s.pwr.warn || decide ((16 * s.pwr.warnC : Int) ≤ h.2)) ∧ (s.warnStep h).pwr.trip = s.pwr.trip
      ∧ (s.warnStep h).pwr.hottest = s.pwr.hottest := by
  unfold State.warnStep
  split
  · next hw =>
    simp only [State.raise_rest]
    have hreach := (Bool.and_eq_true_iff.mp hw).2
    exact ⟨by rw [hreach, Bool.or_true]; rfl, rfl, rfl⟩
  · next hw =>
    refine ⟨?_, rfl, rfl⟩
    cases hwarn : s.pwr.warn
    · simpa [hwarn] using hw
    · rfl

/-- The trip is set or ended. -/
def State.withTrip (s : State) (v : Bool) : State := { s with pwr := { s.pwr with trip := v } }

theorem State.tripStep_of_not {h : Nat × Int} (hno : s.pwr.trip = true ∨ ¬ 1680 ≤ h.2) : s.tripStep h = s :=
  if_neg (by rcases hno with h | h <;> simp [h, tripAt])

theorem State.tripStep_of_reached {h : Nat × Int} (ht : s.pwr.trip = false) (hr : 1680 ≤ h.2) :
    s.tripStep h = (((s.withTrip true).setEclks).bumpPwr 3 1).raise 0x1104 sevWarning (heatArgs h) :=
  if_pos (by simp [ht, tripAt, hr])

theorem State.tripStep_reached_pwr {h : Nat × Int} (ht : s.pwr.trip = false) (hr : 1680 ≤ h.2) :
    (s.tripStep h).pwr = { s.pwr with trip := true } := by
  rw [State.tripStep_of_reached ht hr]
  simp only [State.raise_rest, State.bumpPwr_rest, State.setEclks_pwr]
  rfl

theorem State.tripStep_spec (s : State) (h : Nat × Int) :
    (s.tripStep h).pwr.trip = (s.pwr.trip || decide (1680 ≤ h.2)) ∧ (s.tripStep h).pwr.warn = s.pwr.warn
      ∧ (s.tripStep h).pwr.hottest = s.pwr.hottest := by
  by_cases hno : s.pwr.trip = true ∨ ¬ 1680 ≤ h.2
  · rw [State.tripStep_of_not hno]
    exact ⟨by rcases hno with h | h <;> simp [h], rfl, rfl⟩
  · obtain ⟨ht, hr⟩ := not_or.mp hno
    rw [State.tripStep_reached_pwr (by simpa using ht) (not_not.mp hr)]
    exact ⟨by simp [not_not.mp hr], rfl, rfl⟩

theorem State.tripStep_eclkDiv {h : Nat × Int} (ht : s.pwr.trip = false) (hr : 1680 ≤ h.2) {n : Nat} (hn : n < 16) :
    ((s.tripStep h).cluster n).eclkDiv = 4 := by
  rw [State.tripStep_of_reached ht hr, (State.raise_frame (Touch.or_self _) .refl _ _ _).cluster_eq rfl,
    (State.bumpPwr_frame (Touch.or_self _) .refl _ _).cluster_eq rfl, State.setEclks_eclkDiv _ hn]
  rfl

theorem thermalSample_ends (hp : s.pwr.porst = true) (hv : s.pwr.supplies = true) (he : s.pwr.emergency = false)
    (hr : s.pwr.inReset = false) (hl : (hottestOf l).2 < 1840) : Ends (.thermalSample l) s (fun t => t.pwr.hottest = (hottestOf l).2
      ∧ t.pwr.warn = (s.pwr.warn || decide ((16 * s.pwr.warnC : Int) ≤ (hottestOf l).2))
      ∧ t.pwr.trip = (s.pwr.trip || decide (1680 ≤ (hottestOf l).2))
      ∧ (s.pwr.trip = false → 1680 ≤ (hottestOf l).2 → ∀ n, n < 16 → (t.cluster n).eclkDiv = 4)) := by
  refine ends_of_exec (t := s.thermal l) (thermalSample_exec.trans ?_) ?_
  · rw [if_neg (by simp [hp, hv, he]), if_neg (by omega), if_neg (by simp [hr])]
  · obtain ⟨swarn, strip, swarnC, shot⟩ := s.sensed_spec l
    obtain ⟨wwarn, wtrip, whot⟩ := (s.sensed l).warnStep_spec (hottestOf l)
    obtain ⟨ttrip, twarn, thot⟩ := ((s.sensed l).warnStep (hottestOf l)).tripStep_spec (hottestOf l)
    have tclock := fun ht hr n hn => State.tripStep_eclkDiv (s := (s.sensed l).warnStep (hottestOf l)) (h := hottestOf l) ht hr (n := n) hn
    rw [wtrip, strip] at ttrip tclock
    rw [wwarn, swarn, swarnC] at twarn
    rw [whot, shot] at thot
    exact ⟨thot, twarn, ttrip, tclock⟩

theorem thermalClearTimer_ends_trip (h : s.pwr.trip = true) (hc : s.pwr.hottest < 1632) : Ends (.thermalClearTimer true) s (fun t =>
      t.pwr = { s.pwr with trip := false } ∧ ∀ n, n < 16 → (t.cluster n).eclkDiv = if (s.sliceSt n).eStretched then 3 else 2) := by
  refine ends_of_exec (t := ((s.withTrip false).setEclks).thermalClear 2) ?_ ?_
  · show execThermalClearTimer true s = _
    unfold execThermalClearTimer
    rw [if_pos rfl, if_pos (by simp [h, hc])]
    rfl
  · unfold State.thermalClear
    refine ⟨?_, fun n hn => ?_⟩
    · simp only [State.raise_rest]
      exact State.setEclks_pwr _
    · rw [(State.raise_frame (Touch.or_self _) .refl _ _ _).cluster_eq rfl, State.setEclks_eclkDiv _ hn]
      rfl

theorem thermalClearTimer_ends_warn (h : s.pwr.warn = true) (hc : s.pwr.hottest < 16 * s.pwr.warnC - 48) :
    Ends (.thermalClearTimer false) s (fun t => t.pwr = { s.pwr with warn := false } ∧ t.leaven = s.leaven) := by
  refine ends_of_exec (t := ({ s with pwr := { s.pwr with warn := false } } : State).thermalClear 1) ?_ ?_
  · show execThermalClearTimer false s = _
    unfold execThermalClearTimer
    rw [if_neg (by simp), if_pos (by simp [h, hc])]
  · unfold State.thermalClear
    exact ⟨by simp only [State.raise_rest], by simp only [State.raise_rest]⟩

end

end Sys2Proof.Machine
end

section
/-! PROOF. Errors of the HBM stacks (R268, R499, R500): a correctable error is counted and retires its row, an uncorrectable one
engages the spare, takes the frame that is read with it and halts the channel that reads. -/

namespace Sys2Proof.Machine

section

variable {s : State} {k pc row region item : Nat}

/-- A row about a pseudo-channel of a stack is its act. -/
theorem exec_of_onStack {e : Instr} {t : State} (hk : k < 4) (hp : pc < 32) (he : exec e s = onStack k pc t) : exec e s = .next t := by
  rw [he]
  unfold onStack
  rw [if_neg (by omega), if_neg (by omega)]

/-! ### The spare pseudo-channel (R500) -/

theorem State.stack_spareCopy (s : State) (k pc m : Nat) : (s.spareCopy k pc).stack m
    = if k = m ∧ (s.stack k).spare = 0 ∧ (s.stack k).copying = none then { s.stack k with copying := some pc } else s.stack m := by
  unfold State.spareCopy
  by_cases hfree : (s.stack k).spare = 0 ∧ (s.stack k).copying = none
  · rw [if_pos hfree, State.stack_updStack]
    simp [hfree]
  · rw [if_neg hfree, if_neg (fun h => hfree h.2)]

theorem State.stack_loseSparePc (s : State) (k m : Nat) (hp : pc < 32) : (s.loseSparePc k pc).stack m
    = if k = m ∧ (s.stack k).spare = 1 ∧ (4, 33 * k + pc) ∈ s.pwr.repairLog then { s.stack k with spare := 2 } else s.stack m := by
  have hiff : ((s.stack k).spare = 1 ∧ (pc = 32 ∨ s.pwr.repairLog.contains (4, 33 * k + pc)))
      ↔ ((s.stack k).spare = 1 ∧ (4, 33 * k + pc) ∈ s.pwr.repairLog) := by
    rw [List.contains_iff_mem]
    exact and_congr_right (fun _ => or_iff_right (by omega))
  unfold State.loseSparePc
  by_cases h : (s.stack k).spare = 1 ∧ (4, 33 * k + pc) ∈ s.pwr.repairLog
  · rw [if_pos (hiff.mpr h), (State.repairAdd_frame (Touch.or_self _) .refl _ _).stack_eq rfl, State.stack_updStack]
    simp [h]
  · rw [if_neg (fun k => h (hiff.mp k)), if_neg (fun k => h k.2)]

/-- An error in a pseudo-channel that the spare can replace, or is being copied from, leaves the stack to its spare. -/
theorem State.unspare_of_spared (h : ((s.stack k).spare = 0 ∧ (s.stack k).copying = none) ∨ (s.stack k).copying = some pc) :
    s.unspare k pc = s := if_pos h

theorem State.stack_unspare (h : ¬ (((s.stack k).spare = 0 ∧ (s.stack k).copying = none) ∨ (s.stack k).copying = some pc))
    (hp : pc < 32) (m : Nat) : (s.unspare k pc).stack m = if k = m then { s.stack k with
      unspared := true, spare := if (s.stack k).spare = 1 ∧ (4, 33 * k + pc) ∈ s.pwr.repairLog then 2 else (s.stack k).spare }
      else s.stack m := by
  unfold State.unspare
  dsimp only
  rw [if_neg h, (State.healthIf_frame (Touch.or_self _) .refl _).stack_eq rfl,
    (State.repairAdd_frame (Touch.or_self _) .refl _ _).stack_eq rfl, State.stack_updStack, State.stack_loseSparePc s k _ hp,
    State.stack_loseSparePc s k _ hp]
  by_cases hm : k = m
  · rw [if_pos hm, if_pos hm]
    by_cases hlost : (s.stack k).spare = 1 ∧ (4, 33 * k + pc) ∈ s.pwr.repairLog
    · rw [if_pos ⟨rfl, hlost⟩, if_pos hlost]
    · rw [if_neg (fun k => hlost k.2), if_neg hlost]
  · rw [if_neg hm, if_neg hm, if_neg (fun k => hm k.1)]

/-- An uncorrectable error engages the spare, or leaves the stack without one. -/
theorem State.stack_spared (s : State) (k : Nat) (hp : pc < 32) : ((s.unspare k pc).spareCopy k pc).stack k
      = (if (s.stack k).spare = 0 ∧ (s.stack k).copying = none then { s.stack k with copying := some pc }
        else if (s.stack k).copying = some pc then s.stack k
        else { s.stack k with
          unspared := true, spare := if (s.stack k).spare = 1 ∧ (4, 33 * k + pc) ∈ s.pwr.repairLog then 2 else (s.stack k).spare })
    ∧ ∀ m, m ≠ k → ((s.unspare k pc).spareCopy k pc).stack m = s.stack m := by
  refine ⟨?_, fun m hm => ?_⟩ <;> rw [State.stack_spareCopy]
  · by_cases hfree : (s.stack k).spare = 0 ∧ (s.stack k).copying = none
    · rw [State.unspare_of_spared (.inl hfree), if_pos ⟨rfl, hfree⟩, if_pos hfree]
    · by_cases hcopy : (s.stack k).copying = some pc
      · rw [State.unspare_of_spared (.inr hcopy), if_neg (fun h => hfree h.2), if_neg hfree, if_pos hcopy]
      · have hstack := State.stack_unspare (not_or.mpr ⟨hfree, hcopy⟩) hp k
        rw [if_pos rfl] at hstack
        rw [hstack, if_neg hfree, if_neg hcopy, if_neg]
        rintro ⟨-, hspare, hnone⟩
        refine hfree ⟨?_, hnone⟩
        dsimp only at hspare
        split at hspare
        · cases hspare
        · exact hspare
  · rw [if_neg (fun h => hm h.1.symm)]
    by_cases hs : ((s.stack k).spare = 0 ∧ (s.stack k).copying = none) ∨ (s.stack k).copying = some pc
    · rw [State.unspare_of_spared hs]
    · rw [State.stack_unspare hs hp, if_neg (Ne.symm hm)]

/-! ### A correctable error (R500) -/

/-- The error is logged and counted. -/
def State.logged (s : State) (k pc row : Nat) : State :=
  (s.updStack k (fun x =>
    { x with errors := x.errors.filter (fun e => decide (s.upNs / 1000000000 ≤ e.2.2 + 86400)) ++ [(pc, row, s.upNs / 1000000000)],
             correctable := (x.correctable + 1) % 2 ^ 64 })).bumpPwr 8 1

theorem State.hbmCorrectable_eq (s : State) (k pc row : Nat) : s.hbmCorrectable k pc row
    = if 3 ≤ (((s.logged k pc row).stack k).errors.filter (fun e => e.1 == pc && e.2.1 == row)).length
        ∧ !((s.logged k pc row).stack k).pending.contains (pc, row) then (s.logged k pc row).retireRow k pc row
      else s.logged k pc row := rfl

theorem State.stack_logged (s : State) (k pc row m : Nat) : (s.logged k pc row).stack m = if k = m then
    { s.stack k with
      errors := (s.stack k).errors.filter (fun e => decide (s.upNs / 1000000000 ≤ e.2.2 + 86400)) ++ [(pc, row, s.upNs / 1000000000)],
      correctable := ((s.stack k).correctable + 1) % 2 ^ 64 } else s.stack m :=
  s.stack_updStack k m _

/-- Of a row's errors in the log there is one more than in the 24 h before. -/
theorem State.logged_errors_length (s : State) (k pc row : Nat) :
    (((s.logged k pc row).stack k).errors.filter (fun e => e.1 == pc && e.2.1 == row)).length
      = ((s.stack k).errors.filter (fun e => e.1 == pc && e.2.1 == row
          && decide (s.upNs / 1000000000 ≤ e.2.2 + 86400))).length + 1 := by
  rw [State.stack_logged, if_pos rfl, List.filter_append, List.filter_filter, List.length_append]
  simp

/-- A row is retired: it waits, and the spare may be engaged; nothing else of the stacks changes (R500). -/
theorem State.retireRow_spec (s : State) (k pc row : Nat) :
    (pc, row) ∈ ((s.retireRow k pc row).stack k).pending
      ∧ ((s.retireRow k pc row).stack k).correctable = (s.stack k).correctable
      ∧ (∀ m, m ≠ k → (s.retireRow k pc row).stack m = s.stack m)
      ∧ (s.retireRow k pc row).tel.pwrCtr = (s.bumpPwr 9 1).tel.pwrCtr := by
  unfold State.retireRow
  dsimp only
  generalize ht : (((s.updStack k (fun x => { x with pending := x.pending ++ [(pc, row)] })).repairAdd 5
    (65536 * (32 * k + pc) + row)).bumpPwr 9 1).raise 0x110D sevCorrectable (le 1 k ++ le 1 pc ++ le 2 row) = t
  have hstack : ∀ m, t.stack m = if k = m then { s.stack k with pending := (s.stack k).pending ++ [(pc, row)] } else s.stack m :=
    fun m => by
      rw [← ht, (State.raise_frame (Touch.or_self _) .refl _ _ _).stack_eq rfl, (State.bumpPwr_frame (Touch.or_self _) .refl _ _).stack_eq rfl,
        (State.repairAdd_frame (Touch.or_self _) .refl _ _).stack_eq rfl, State.stack_updStack]
  have hctr : t.tel.pwrCtr = (s.bumpPwr 9 1).tel.pwrCtr := by
    rw [← ht, (State.raise_frame (Touch.or_self _) .refl _ _ _).pwrCtr rfl]
    rfl
  have hplain : (pc, row) ∈ (t.stack k).pending ∧ (t.stack k).correctable = (s.stack k).correctable := by
    rw [hstack, if_pos rfl]
    exact ⟨by simp, rfl⟩
  have hothers : ∀ m, m ≠ k → t.stack m = s.stack m := fun m hm => by rw [hstack, if_neg (Ne.symm hm)]
  split
  · rw [(State.spareCopy_frame (Touch.or_self _) .refl _ _).pwrCtr rfl]
    refine ⟨?_, ?_, fun m hm => ?_, hctr⟩ <;> rw [State.stack_spareCopy]
    · split
      · exact hplain.1
      · exact hplain.1
    · split
      · exact hplain.2
      · exact hplain.2
    · rw [if_neg (fun h => hm h.1.symm), hothers m hm]
  · exact ⟨hplain.1, hplain.2, hothers, hctr⟩

theorem hbmCorrectableError_ends (hk : k < 4) (hp : pc < 32) : Ends (.hbmCorrectableError k pc row) s (fun t =>
      (t.stack k).correctable = ((s.stack k).correctable + 1) % 2 ^ 64
      ∧ (∀ m, m ≠ k → t.stack m = s.stack m)
      ∧ Tab.get 0 t.tel.pwrCtr 8 = Tab.get 0 s.tel.pwrCtr 8 + 1
      ∧ (2 ≤ ((s.stack k).errors.filter (fun e => e.1 == pc && e.2.1 == row
          && decide (s.upNs / 1000000000 ≤ e.2.2 + 86400))).length →
        (pc, row) ∈ (t.stack k).pending ∧ ((pc, row) ∉ (s.stack k).pending →
          Tab.get 0 t.tel.pwrCtr 9 = Tab.get 0 s.tel.pwrCtr 9 + 1))) := by
  refine ends_of_exec (exec_of_onStack hk hp (t := s.hbmCorrectable k pc row) rfl) ?_
  rw [State.hbmCorrectable_eq, State.logged_errors_length]
  have hself : ((s.logged k pc row).stack k).correctable = ((s.stack k).correctable + 1) % 2 ^ 64
      ∧ ((s.logged k pc row).stack k).pending = (s.stack k).pending := by
    rw [State.stack_logged, if_pos rfl]
    exact ⟨rfl, rfl⟩
  have hothers : ∀ m, m ≠ k → (s.logged k pc row).stack m = s.stack m := fun m hm => by
    rw [State.stack_logged, if_neg (Ne.symm hm)]
  have h8 : Tab.get 0 (s.logged k pc row).tel.pwrCtr 8 = Tab.get 0 s.tel.pwrCtr 8 + 1 := State.get_bumpPwr_same _ 8
  have h9 : Tab.get 0 (s.logged k pc row).tel.pwrCtr 9 = Tab.get 0 s.tel.pwrCtr 9 := State.get_bumpPwr_other _ 1 (by decide)
  rw [hself.2]
  split
  · obtain ⟨rpend, rcor, rothers, rctr⟩ := (s.logged k pc row).retireRow_spec k pc row
    rw [rctr, rcor, hself.1, State.get_bumpPwr_other _ 1 (by decide), State.get_bumpPwr_same, h8, h9]
    exact ⟨rfl, fun m hm => (rothers m hm).trans (hothers m hm), rfl, fun _ => ⟨rpend, fun _ => rfl⟩⟩
  · next hno =>
    refine ⟨hself.1, hothers, h8, fun h2 => ?_⟩
    have hmem : (pc, row) ∈ (s.stack k).pending := by
      by_contra hnot
      exact hno ⟨by omega, by simpa using hnot⟩
    rw [hself.2]
    exact ⟨hmem, fun h => absurd hmem h⟩

/-! ### A frame whose bytes are lost (R500) -/

/-- Notices are sent about a target without a change of it. -/
theorem State.noticeAll_parkQ (s : State) (type idx : Nat) : ((s.noticeAll type idx).target idx).parkQ = (s.target idx).parkQ := by
  unfold State.noticeAll
  rw [State.target_updTarget_same,
    foldl_read State.target (f := fun t m => State.sendNotice t type idx m)
      (fun t m _ => (State.sendNotice_frame (Touch.or_self _) .refl _ _ _).target_eq rfl)]

theorem State.dropWake_parkQ (s : State) (idx : Nat) : ((s.dropWake idx).target idx).parkQ = (s.target idx).parkQ := by
  unfold State.dropWake
  dsimp only
  rw [(State.updDrop_frame (Touch.or_self _) .refl _ _ _).target_eq rfl, State.target_updTarget_same]

theorem State.setTgt_parkQ (s : State) (idx : Nat) (x : TgtState) : ((s.setTgt idx x).target idx).parkQ = (s.target idx).parkQ := by
  unfold State.setTgt
  rw [State.target_updTarget_same]

/-- Where no frame is parked none is dropped. -/
theorem State.dropParked_drops {idx : Nat} (reason ctr : Nat) (h : (s.target idx).parkQ = []) :
    (s.dropParked idx reason ctr).tel.drops = s.tel.drops := by
  unfold State.dropParked
  rw [h]
  rfl

theorem State.tgtFail_drops {idx : Nat} (cause : Nat) (h : (s.target idx).parkQ = []) :
    (s.tgtFail idx cause).tel.drops = s.tel.drops := by
  unfold State.tgtFail
  dsimp only
  have hcount : (if cause = 0 then s.bumpProof 13 1 else s).tel.drops = s.tel.drops
      ∧ (if cause = 0 then s.bumpProof 13 1 else s).target = s.target := by
    split <;> exact ⟨rfl, rfl⟩
  rw [(State.raise_frame (Touch.or_self _) .refl _ _ _).dropCtr rfl, State.dropParked_drops,
    (State.noticeAll_frame (Touch.or_self _) .refl _ _).dropCtr rfl, (State.setTgt_frame (Touch.or_self _) .refl _ _).dropCtr rfl,
    (State.updTarget_frame (Touch.or_self _) .refl _ _).dropCtr rfl, (State.dropWake_frame (Touch.or_self _) .refl _).dropCtr rfl, hcount.1]
  rw [State.noticeAll_parkQ, State.setTgt_parkQ, State.target_updTarget_same]
  show ((State.dropWake _ idx).target idx).parkQ = []
  rw [State.dropWake_parkQ, hcount.2, h]

theorem State.queueEmptied_drops {idx : Nat} (h : (s.target idx).parkQ = []) :
    (s.queueEmptied idx).tel.drops = s.tel.drops := by
  unfold State.queueEmptied
  dsimp only
  split
  · rfl
  · split
    · rfl
    · split
      · rfl
      · rw [State.tgtFail_drops _ (by rw [State.target_updTarget_same, State.target_updTarget_same]; exact h)]
        rfl

theorem State.leavePark_drops (s : State) (idx : Nat) (pk : Pkt) : (s.leavePark idx pk).tel.drops = s.tel.drops := by
  unfold State.leavePark
  dsimp only
  split
  · next h =>
    rw [State.queueEmptied_drops (by simpa using (Bool.and_eq_true_iff.mp h).1)]
    rfl
  · rfl

theorem State.find_forget {pk : Pkt} (hw : pk.whole = true) (hid : pk.id = item) : Tab.find (s.forget pk).pkts item = none := by
  unfold State.forget
  rw [if_pos hw]
  exact (Tab.find_erase _ _ _).trans (if_pos hid)

/-- A packet that is released goes. -/
theorem State.find_release {pk : Pkt} (hf : Tab.find s.pkts item = some pk) (hw : pk.whole = true) (hid : pk.id = item) :
    Tab.find (s.release item).pkts item = none := by
  unfold State.release
  rw [hf]
  dsimp only
  rw [(State.xoffSweep_frame (Touch.or_self _) .refl).pkts rfl]
  exact State.find_forget hw hid

/-- What a read in error does to the frame that is read: it goes with no drop reason. -/
theorem State.poisonDrop_spec {pk : Pkt} (hf : Tab.find s.pkts item = some pk) (hid : pk.id = item) (hw : pk.whole = true)
    (h : pk.parked.isSome = true ∨ pk.spilled = true) : Tab.find (s.poisonDrop item).pkts item = none
      ∧ (s.poisonDrop item).tel.drops = s.tel.drops ∧ (s.poisonDrop item).tel.pwrCtr = (s.bumpPwr 11 1).tel.pwrCtr := by
  unfold State.poisonDrop
  rw [hf]
  dsimp only
  cases hp : pk.parked with
  | some idx =>
    have hpwr : ((s.leavePark idx pk).forget pk).tel.pwrCtr = s.tel.pwrCtr :=
      ((State.forget_frame (Touch.or_self _) .refl _).pwrCtr rfl).trans ((State.leavePark_frame (Touch.or_self _) .refl _ _).pwrCtr rfl)
    refine ⟨State.find_forget (s := s.leavePark idx pk) hw hid, ?_, ?_⟩
    · exact ((State.forget_frame (Touch.or_self _) (.refl (s := s.leavePark idx pk)) _).dropCtr rfl).trans (s.leavePark_drops idx pk)
    · exact congrArg (fun c => Tab.bump c 11 1) hpwr
  | none =>
    have hs : pk.spilled = true := h.resolve_left (by simp [hp])
    dsimp only
    rw [if_pos hs]
    generalize hv : voqNo (pk.dests.headD 0) pk.tc pk.slot = v
    have hread : Frame _ s ((s.pull pk).readEnd pk.slice v) := State.readEnd_frame rfl (State.pull_frame (Touch.or_self _) .refl pk) _ _
    have hgone := State.find_release (s := (s.pull pk).readEnd pk.slice v) ((congrArg (Tab.find · item) (hread.pkts rfl)).trans hf) hw hid
    have hrel := State.release_frame (Touch.or_self _) (.refl (s := (s.pull pk).readEnd pk.slice v)) item
    exact ⟨hgone, (hrel.dropCtr rfl).trans (hread.dropCtr rfl),
      congrArg (fun c => Tab.bump c 11 1) ((hrel.pwrCtr rfl).trans (hread.pwrCtr rfl))⟩

theorem State.poisonDrop_of_neither {pk : Pkt} (hf : Tab.find s.pkts item = some pk) (hp : pk.parked = none)
    (hs : pk.spilled = false) : s.poisonDrop item = s := by
  unfold State.poisonDrop
  rw [hf]
  dsimp only
  rw [hp]
  dsimp only
  rw [if_neg (by simp [hs])]

/-! ### A channel whose read fails (R353, R500) -/

theorem State.chan_chanHalt (s : State) (c status : Nat) :
    ((s.chanHalt c status).chan c).state = .halted ∧ ((s.chanHalt c status).chan c).haltCause = status := by
  unfold State.chanHalt
  dsimp only
  rw [(State.raise_frame (Touch.or_self _) .refl _ _ _).chan_eq rfl, (State.interrupt_frame (Touch.or_self _) .refl _).chan_eq rfl,
    State.chan_updChan_same]
  exact ⟨rfl, rfl⟩

theorem State.chan_chanDone_of_halting {status : Nat} (s : State) (c n : Nat) (sop eop : Bool) (h : halting status = true) :
    ((s.chanDone c status n sop eop).chan c).state = .halted ∧ ((s.chanDone c status n sop eop).chan c).haltCause = status := by
  unfold State.chanDone
  dsimp only
  rw [if_pos h]
  exact State.chan_chanHalt _ c status

/-- A DIR 1 transfer of memory mode whose data has an error halts its channel with DEVICE_ERROR. -/
theorem State.transferDone_err {c : Nat} {d data : List Byte} (h : s.transfers c 0 d) (hd : dToHost d = true) :
    ((s.transferDone c 1 data).chan c).state = .halted ∧ ((s.transferDone c 1 data).chan c).haltCause = 5 := by
  obtain ⟨-, hrun, hmode, hdesc, hdue, hreads, -⟩ := h
  have hsent : (s.chan c).unsent = false := by simp [Chan.unsent, hreads]
  unfold State.transferDone
  dsimp only
  rw [hdesc]
  dsimp only
  rw [if_neg (by simp [hrun, hdue, hsent]), hreads]
  show ((if (s.chan c).unsent then s else s.transferEnds c d 1 data).chan c).state = _
    ∧ ((if (s.chan c).unsent then s else s.transferEnds c d 1 data).chan c).haltCause = _
  rw [if_neg (by simp [hsent])]
  unfold State.transferEnds State.memTransfer
  rw [if_neg (by omega), if_neg (by omega), if_pos hd, if_pos (by decide)]
  exact State.chan_chanDone_of_halting _ c _ false false (by decide)

/-! ### An uncorrectable error (R500) -/

/-- What follows the loss of the block that reads: the event, and the spare. -/
def State.poisoned (s : State) (k pc region : Nat) : State :=
  ((s.raise 0x110F sevUncorrectable (le 1 k ++ le 1 pc ++ le 1 region)).unspare k pc).spareCopy k pc

theorem State.poisoned_frame (s : State) (k pc region : Nat) : Frame
    ({ evt := true, telCtr := true, hbms := true, healthGen := true, repairLog := true, irq := true, out := true }) s
    (s.poisoned k pc region) :=
  State.spareCopy_frame rfl (State.unspare_frame rfl (State.raise_frame rfl .refl _ _ _) _ _) _ _

theorem hbmUncorrectableRead_exec (hk : k < 4) (hp : pc < 32) :
    exec (.hbmUncorrectableRead k pc region item) s = .next (((s.bumpPwr 10 1).poison region item).poisoned k pc region) := by
  refine (exec_of_onStack hk (pc := pc - 1) (by omega) rfl).trans ?_
  rw [if_neg (by omega)]
  rfl

theorem hbmUncorrectableRead_ends_shadow (hk : k < 4) (hp : pc < 32) : Ends (.hbmUncorrectableRead k pc 3 item) s (fun t =>
      Tab.get 0 t.tel.pwrCtr 10 = Tab.get 0 s.tel.pwrCtr 10 + 1
      ∧ t.stack k = (if (s.stack k).spare = 0 ∧ (s.stack k).copying = none then { s.stack k with copying := some pc }
        else if (s.stack k).copying = some pc then s.stack k
        else { s.stack k with
          unspared := true, spare := if (s.stack k).spare = 1 ∧ (4, 33 * k + pc) ∈ s.pwr.repairLog then 2 else (s.stack k).spare })
      ∧ ∀ m, m ≠ k → t.stack m = s.stack m) := by
  refine ends_of_exec (hbmUncorrectableRead_exec hk hp) ?_
  have hkept : (s.bumpPwr 10 1).poison 3 item = s.bumpPwr 10 1 := rfl
  rw [hkept, (State.poisoned_frame _ k pc 3).pwrCtr rfl]
  unfold State.poisoned
  obtain ⟨hself, hothers⟩ := State.stack_spared ((s.bumpPwr 10 1).raise 0x110F sevUncorrectable (le 1 k ++ le 1 pc ++ le 1 3)) k hp
  have hraise := (State.raise_frame (Touch.or_self _) (.refl (s := s.bumpPwr 10 1)) 0x110F sevUncorrectable (le 1 k ++ le 1 pc ++ le 1 3))
  rw [hraise.stack_eq rfl, hraise.repairLog rfl] at hself
  rw [hraise.stack_eq rfl] at hothers
  exact ⟨s.get_bumpPwr_same 10, hself, hothers⟩

theorem State.poison_frame_of_frame (hr : region < 2) : s.poison region item = s.poisonDrop item := if_pos (by omega)

theorem hbmUncorrectableRead_ends_frame {pk : Pkt} (hk : k < 4) (hp : pc < 32) (hr : region < 2) (hf : Tab.find s.pkts item = some pk)
    (hid : pk.id = item) (hw : pk.whole = true) (h : pk.parked.isSome = true ∨ pk.spilled = true) :
    Ends (.hbmUncorrectableRead k pc region item) s (fun t => Tab.find t.pkts item = none ∧ t.tel.drops = s.tel.drops
      ∧ Tab.get 0 t.tel.pwrCtr 10 = Tab.get 0 s.tel.pwrCtr 10 + 1 ∧ Tab.get 0 t.tel.pwrCtr 11 = Tab.get 0 s.tel.pwrCtr 11 + 1) := by
  refine ends_of_exec (hbmUncorrectableRead_exec hk hp) ?_
  obtain ⟨hgone, hdrops, hctr⟩ := State.poisonDrop_spec (s := s.bumpPwr 10 1) hf hid hw h
  have hframe := ((s.bumpPwr 10 1).poison region item).poisoned_frame k pc region
  rw [hframe.pkts rfl, hframe.dropCtr rfl, hframe.pwrCtr rfl, State.poison_frame_of_frame hr, hctr]
  refine ⟨hgone, hdrops, ?_, ?_⟩
  · rw [State.get_bumpPwr_other _ 1 (by decide), State.get_bumpPwr_same]
  · rw [State.get_bumpPwr_same, State.get_bumpPwr_other _ 1 (by decide)]

theorem hbmUncorrectableRead_ends_other {pk : Pkt} (hk : k < 4) (hp : pc < 32) (hr : region < 2) (hf : Tab.find s.pkts item = some pk)
    (hpark : pk.parked = none) (hs : pk.spilled = false) : Ends (.hbmUncorrectableRead k pc region item) s (fun t =>
      t.pkts = s.pkts ∧ Tab.get 0 t.tel.pwrCtr 11 = Tab.get 0 s.tel.pwrCtr 11) := by
  refine ends_of_exec (hbmUncorrectableRead_exec hk hp) ?_
  have hframe := ((s.bumpPwr 10 1).poison region item).poisoned_frame k pc region
  rw [hframe.pkts rfl, hframe.pwrCtr rfl, State.poison_frame_of_frame hr,
    State.poisonDrop_of_neither (s := s.bumpPwr 10 1) hf hpark hs]
  exact ⟨rfl, State.get_bumpPwr_other _ 1 (by decide)⟩

theorem hbmUncorrectableRead_ends_dma {c : Nat} {d : List Byte} (hk : k < 4) (hp : pc < 32) (hr : region = 2 ∨ region = 4 ∨ region = 5)
    (ht : s.transfers c 0 d) (hd : dToHost d = true) : Ends (.hbmUncorrectableRead k pc region c) s (fun t =>
      (t.chan c).state = .halted ∧ (t.chan c).haltCause = 5 ∧ Tab.get 0 t.tel.pwrCtr 10 = Tab.get 0 s.tel.pwrCtr 10 + 1) := by
  refine ends_of_exec (hbmUncorrectableRead_exec hk hp) ?_
  have hpoison : (s.bumpPwr 10 1).poison region c = (s.bumpPwr 10 1).transferDone c 1 [] := by
    unfold State.poison
    rw [if_neg (by omega), if_neg (by omega)]
  have hframe := ((s.bumpPwr 10 1).poison region c).poisoned_frame k pc region
  obtain ⟨hstate, hcause⟩ := State.transferDone_err (s := s.bumpPwr 10 1) (data := []) ht hd
  rw [hframe.chan_eq rfl, hframe.pwrCtr rfl, hpoison, (State.transferDone_frame (Touch.or_self _) .refl _ _ _).pwrCtr rfl]
  exact ⟨hstate, hcause, s.get_bumpPwr_same 10⟩

theorem hbmUncorrectableRead_ends_spare (hk : k < 4) (hs : (s.stack k).spare = 0) (hc : (s.stack k).copying = none) :
    Ends (.hbmUncorrectableRead k 32 region item) s (fun t => t.stack k = { s.stack k with spare := 2 }
      ∧ (7, k) ∈ t.pwr.repairLog ∧ ∀ m, m ≠ k → t.stack m = s.stack m) := by
  refine ends_of_exec (t := s.spareFails k) ((exec_of_onStack hk (pc := 31) (by omega) rfl).trans ?_) ?_
  · rw [if_pos ⟨rfl, hs, hc⟩]
  · have hstack : (s.spareFails k).stack = (s.updStack k (fun x => { x with spare := 2 })).stack := rfl
    rw [hstack]
    refine ⟨State.stack_updStack_same _ _ _, ?_, fun m hm => ?_⟩
    · exact State.mem_repairAdd (s.updStack k (fun x => { x with spare := 2 })) 7 k
    · rw [State.stack_updStack, if_neg (Ne.symm hm)]

theorem hbmPcSpareDone_ends (hk : k < 4) (hc : (s.stack k).copying = some pc) : Ends (.hbmPcSpareDone k) s (fun t =>
      t.stack k = { s.stack k with copying := none, spare := 1 } ∧ (4, 33 * k + pc) ∈ t.pwr.repairLog
      ∧ t.pwr.healthGen = (s.pwr.healthGen + 1) % 2 ^ 32) := by
  refine ends_of_exec (exec_of_onStack hk (pc := 0) (by omega) (t := s.spareDone k) rfl) ?_
  unfold State.spareDone
  rw [hc]
  dsimp only
  rw [(State.healthChanged_frame (Touch.or_self _) .refl).stack_eq rfl, (State.raise_frame (Touch.or_self _) .refl _ _ _).stack_eq rfl,
    (State.repairAdd_frame (Touch.or_self _) .refl _ _).stack_eq rfl, (State.healthChanged_frame (Touch.or_self _) .refl).repairLog rfl,
    (State.raise_frame (Touch.or_self _) .refl _ _ _).repairLog rfl]
  exact ⟨State.stack_updStack_same _ _ _, State.mem_repairAdd _ _ _, rfl⟩

end

/-! ### O41 -/

/-- Settles O41: each row is one operation on a slice, on the thermal thresholds or on a stack, whose rule says what it leaves. -/
theorem powerRows : Obligations.PowerRows := by
  unfold Obligations.PowerRows
  refine ⟨fun s n hn => ⟨droopTrip_ends_enters hn, droopTrip_ends_again hn, droopTrip_idles hn⟩, fun s n hn => ?hold, fun s l h => ?held,
    fun s l hp hv he => ⟨fun hr hl => ?reset, fun hr hl => thermalSample_ends hp hv he hr hl, fun hl => ?emergency⟩,
    fun s => thermalClearTimer_ends_trip, fun s => thermalClearTimer_ends_warn, fun s avg => ends_of_exec rfl rfl,
    fun s k pc row hk hp => hbmCorrectableError_ends hk hp, fun s k pc item hk hp => hbmUncorrectableRead_ends_shadow hk hp,
    fun s k pc region item pk hk hp hr hf hid hw =>
      ⟨hbmUncorrectableRead_ends_frame hk hp hr hf hid hw, hbmUncorrectableRead_ends_other hk hp hr hf⟩,
    fun s k pc region c d hk hp hr ht _ hd _ => hbmUncorrectableRead_ends_dma hk hp hr ht hd,
    fun s k region item hk hs hc => hbmUncorrectableRead_ends_spare hk hs hc, fun s k pc hk hc => hbmPcSpareDone_ends hk hc⟩
  case hold =>
    refine ⟨(stretchHoldEnd_exec hn false).trans (by rw [State.stretchEnd_idle (.inl rfl)]),
      fun hs => (stretchHoldEnd_exec hn true).trans (by rw [State.stretchEnd_idle (.inr hs)]), fun hs hup => ?_,
      stretchHoldEnd_ends_eclk hn, stretchHoldEnd_ends_both hn⟩
    exact (stretchHoldEnd_exec hn true).trans (by rw [State.stretchEnd_stretched hs, if_neg (by omega), if_neg (by omega)])
  case held => exact thermalSample_exec.trans (by rw [if_pos h])
  case reset => exact thermalSample_exec.trans (by rw [if_neg (by simp [hp, hv, he]), if_neg (by omega), if_pos hr])
  case emergency =>
    refine ends_of_exec (t := s.thermalEmergency) (thermalSample_exec.trans (by rw [if_neg (by simp [hp, hv, he]), if_pos hl])) ?_
    exact ⟨rfl, rfl, rfl, rfl, rfl, rfl⟩

end Sys2Proof.Machine
end

section
/-! PROOF. The resets of the device and of a PCIe function, and the end of a bring-up (R341 to R343, R486 to R493, R510): what each
returns to its default and what it keeps. -/

namespace Sys2Proof.Machine

/-! ### Identity, tables and staged sets from frames -/

/-- No part of the identity is in `w`. -/
def Touch.noIdent (w : Touch) : Bool := !(w.slots || w.bootCfg || w.image || w.minSvn || w.pin || w.debug || w.sessions)

/-- No part of the forwarding tables is in `w`. -/
def Touch.noFwd (w : Touch) : Bool :=
  !(w.gens || w.fwdFlight || w.em || w.seeds || w.learnQ || w.agePeriod || w.fwdCtr || w.badTable)

/-- No part of the staged sets and of the domain is in `w`. -/
def Touch.noBake (w : Touch) : Bool :=
  !(w.sets || w.epoch || w.snapshot || w.heldShadow || w.peers || w.msgs || w.domBake || w.membership || w.authFails || w.timeOffset
    || w.fwdReqs)

section

variable {w : Touch} {s t : State}

theorem Frame.box_eq (h : Frame w s t) (hw : w.boxes = false) : t.box = s.box := by
  unfold State.box; rw [h.boxes hw]

theorem Frame.ident_eq (h : Frame w s t) (hw : w.noIdent = true) : t.ident = s.ident := by
  simp only [Touch.noIdent, Bool.not_eq_true', Bool.or_eq_false_iff] at hw
  obtain ⟨⟨⟨⟨⟨⟨hslots, hcfg⟩, himage⟩, hsvn⟩, hpin⟩, hdebug⟩, hsess⟩ := hw
  have e (i j : IdSt) (h1 : i.slotA = j.slotA ∧ i.slotB = j.slotB) (h2 : i.cfg0 = j.cfg0 ∧ i.cfg1 = j.cfg1 ∧ i.bifurcated = j.bifurcated)
      (h3 : i.running = j.running ∧ i.runTrial = j.runTrial ∧ i.runSvn = j.runSvn ∧ i.major = j.major ∧ i.minor = j.minor
        ∧ i.build = j.build ∧ i.booted = j.booted ∧ i.cdi = j.cdi ∧ i.certs = j.certs ∧ i.fallback = j.fallback ∧ i.console = j.console)
      (h4 : i.minSvn = j.minSvn) (h5 : i.pin = j.pin) (h6 : i.debug = j.debug)
      (h7 : i.doe0 = j.doe0 ∧ i.doe1 = j.doe1 ∧ i.smb = j.smb ∧ i.spdmNeg = j.spdmNeg ∧ i.spdmVer = j.spdmVer
        ∧ i.spdmLog = j.spdmLog) : i = j := by
    cases i; cases j; simp_all
  exact e _ _ (h.slots hslots) (h.bootCfg hcfg) (h.image himage) (h.minSvn hsvn) (h.pin hpin) (h.debug hdebug) (h.sessions hsess)

theorem Frame.fwd_eq (h : Frame w s t) (hw : w.noFwd = true) : t.fwd = s.fwd := by
  simp only [Touch.noFwd, Bool.not_eq_true', Bool.or_eq_false_iff] at hw
  obtain ⟨⟨⟨⟨⟨⟨⟨hgens, hflight⟩, hem⟩, hseeds⟩, hlearn⟩, hage⟩, hctr⟩, hbad⟩ := hw
  exact FwdSt.eq_of_fields (h.gens hgens) (h.fwdFlight hflight) (h.em hem) (h.seeds hseeds) (h.learnQ hlearn) (h.agePeriod hage)
    (h.fwdCtr hctr) (h.badTable hbad)

theorem Frame.bake_eq (h : Frame w s t) (hw : w.noBake = true) : t.bake = s.bake := by
  simp only [Touch.noBake, Bool.not_eq_true', Bool.or_eq_false_iff] at hw
  obtain ⟨⟨⟨⟨⟨⟨⟨⟨⟨⟨hsets, hepoch⟩, hsnap⟩, hheld⟩, hpeers⟩, hmsgs⟩, hdom⟩, hmember⟩, hauth⟩, htime⟩, hfwd⟩ := hw
  have e1 := h.sets hsets
  have e2 := h.epoch hepoch
  have e3 := h.snapshot hsnap
  have e4 := h.heldShadow hheld
  have e5 := h.peers hpeers
  have e6 := h.msgs hmsgs
  have e7 := h.domBake hdom
  have e8 := h.membership hmember
  have e9 := h.authFails hauth
  have e10 := h.timeOffset htime
  have e11 := h.fwdReqs hfwd
  revert e1 e2 e3 e4 e5 e6 e7 e8 e9 e10 e11
  generalize t.bake = a
  generalize s.bake = b
  cases a; cases b
  simp only [BakeSt.mk.injEq]
  tauto

end

/-! ### Pins and supplies (R487 to R491) -/

theorem State.leaveReset_eq (s : State) : s.leaveReset = { s with pwr := { s.pwr with
    inReset := s.pwr.inReset && !(s.pwr.porst && s.pwr.wrst && s.pwr.supplies && !s.pwr.emergency) } } := by
  unfold State.leaveReset
  split
  · next h =>
    obtain ⟨hr, hp, hw, hs, he⟩ := h
    simp [hr, hp, hw, hs, he]
  · next h =>
    have hkept : (s.pwr.inReset && !(s.pwr.porst && s.pwr.wrst && s.pwr.supplies && !s.pwr.emergency)) = s.pwr.inReset := by
      cases hr : s.pwr.inReset
      · rfl
      · by_contra hno
        exact h ⟨hr, by simpa [and_assoc] using hno⟩
    rw [hkept]

section

variable {s : State}

theorem porstNRise_exec {role : Nat} (hp : s.pwr.porst = false) : exec (.porstNRise role) s
    = .next (({ s with pwr := { s.pwr with porst := true, roleStrap := role % 4 } } : State).leaveReset) := by
  show execPorstNRise role s = _
  unfold execPorstNRise
  rw [if_neg (by simp [hp])]

theorem wrstNRise_exec (hw : s.pwr.wrst = false) : exec .wrstNRise s
    = .next (({ s with pwr := { s.pwr with wrst := true } } : State).leaveReset) := by
  show execWrstNRise s = _
  unfold execWrstNRise
  rw [if_neg (by simp [hw])]

theorem porstNRise_ends {role : Nat} (hp : s.pwr.porst = false) : Ends (.porstNRise role) s (fun t => t = { s with pwr := { s.pwr with
      porst := true, roleStrap := role % 4,
      inReset := s.pwr.inReset && !(s.pwr.wrst && s.pwr.supplies && !s.pwr.emergency) } }) :=
  ends_of_exec (porstNRise_exec hp) (by rw [State.leaveReset_eq]; simp only [Bool.true_and])

theorem wrstNRise_ends (hw : s.pwr.wrst = false) : Ends .wrstNRise s (fun t => t = { s with pwr := { s.pwr with
      wrst := true, inReset := s.pwr.inReset && !(s.pwr.porst && s.pwr.supplies && !s.pwr.emergency) } }) :=
  ends_of_exec (wrstNRise_exec hw) (by rw [State.leaveReset_eq]; simp only [Bool.and_true])

theorem suppliesValid_ends (s : State) : Ends .suppliesValid s (fun t => t = { s with pwr := { s.pwr with
      supplies := true, inReset := s.pwr.inReset && !(s.pwr.porst && s.pwr.wrst && !s.pwr.emergency) } }) :=
  ends_of_exec (t := ({ s with pwr := { s.pwr with supplies := true } } : State).leaveReset) rfl
    (by rw [State.leaveReset_eq]; simp only [Bool.and_true])

/-- A power loss may cut a write of the boot configuration short, and nothing else (R442). -/
theorem State.cutWrite_pwr (s : State) : s.cutWrite.pwr = s.pwr := by
  unfold State.cutWrite
  split <;> rfl

theorem supplyFault_ends (s : State) : Ends .supplyFault s (fun t => t.pwr.supplies = false ∧ t.pwr.emergency = false
      ∧ t.pwr.inReset = true ∧ t.pwr.bringup = some .cold ∧ t.pwr.porst = s.pwr.porst ∧ t.pwr.wrst = s.pwr.wrst
      ∧ t.mbx.ready = false ∧ t.bake = State.reset.bake ∧ t.pkts = []) :=
  ⟨_, rfl, rfl, rfl, rfl, rfl, (congrArg PwrSt.porst s.cutWrite_pwr :), (congrArg PwrSt.wrst s.cutWrite_pwr :), rfl, rfl, rfl⟩

/-! ### A warm reset (R488, R493) -/

/-- Every port of the device is down after the entry to a warm reset. -/
theorem State.warmEntry_link (s : State) (p : Nat) : (s.warmEntry.port p).link = false := by
  refine Tab.get_of_all (P := fun q : PortSt => q.link = false) p (fun e he => ?_) rfl
  obtain ⟨x, -, rfl⟩ := List.mem_map.mp (List.mem_of_mem_filter he)
  rfl

theorem wrstNLow_exec (s : State) : exec .wrstNLow s
    = .next { s.wrstEntry with pwr := { s.wrstEntry.pwr with wrst := false } } := rfl

theorem State.wrstEntry_of_warm (hp : s.pwr.porst = true) (he : s.pwr.emergency = false) (hb : s.pwr.bringup ≠ some .cold) :
    s.wrstEntry = s.warmEntry := by
  unfold State.wrstEntry
  rw [if_neg (by simp [hp, he]), if_neg hb]

theorem wrstNLow_ends (hp : s.pwr.porst = true) (he : s.pwr.emergency = false) (hb : s.pwr.bringup ≠ some .cold) :
    Ends .wrstNLow s (fun t => t.pwr.wrst = false ∧ t.pwr.inReset = true ∧ t.pwr.bringup = some .warm
      ∧ t.pwr.regions = s.pwr.regions ∧ t.bake.heldShadow ≠ none
      ∧ (s.bake.heldShadow ≠ none → t.bake.heldShadow = s.bake.heldShadow) ∧ t.bake.outcomes = s.bake.outcomes
      ∧ t.bake.heldEpoch = (if s.pwr.bringup = none then s.bake.epoch else s.bake.heldEpoch) ∧ t.host.staging = s.host.staging
      ∧ t.pkts = [] ∧ ∀ p, (t.port p).link = false) := by
  refine ends_of_exec (wrstNLow_exec s) ?_
  rw [State.wrstEntry_of_warm hp he hb]
  refine ⟨rfl, rfl, rfl, rfl, Option.some_ne_none _, fun hheld => ?_, rfl, rfl, rfl, rfl, s.warmEntry_link⟩
  obtain ⟨l, hl⟩ := Option.ne_none_iff_exists'.mp hheld
  show some (s.bake.heldShadow.getD s.shadowNow) = _
  rw [hl]
  rfl

/-! ### The end of a bring-up (R491, R492) -/

/-- The state in which the repair record is applied, MP-A tested and the seeds drawn. -/
def State.prepared (s : State) (k : ResetKind) : State := ((s.applyRepairs k).testMpA).drawSeeds

theorem State.prepared_frame (s : State) (k : ResetKind) : Frame
    ({ groups := true, planes := true, clusters := true, hbms := true, mps := true, repairLog := true, free := true, seeds := true })
    s (s.prepared k) :=
  State.drawSeeds_frame rfl (State.testMpA_frame rfl (State.applyRepairs_frame rfl .refl k))

theorem State.prepared_mpIn (s : State) (k : ResetKind) : (s.prepared k).mpIn = ((s.applyRepairs k).testMpA).mpIn := rfl

theorem moarasBootDone_exec {k : ResetKind} (hb : s.pwr.bringup = some k) (hr : s.pwr.inReset = false) (hc : s.ident.console = none) :
    exec .moarasBootDone s = .next (s.bootDone k) := by
  show execMoarasBootDone s = _
  unfold execMoarasBootDone
  rw [hb]
  dsimp only
  rw [if_neg (by simp [hr, hc])]

theorem moarasBootDone_idles (hc : s.ident.console.isSome = true) : Idles .moarasBootDone s := by
  show execMoarasBootDone s = _
  unfold execMoarasBootDone
  cases s.pwr.bringup with
  | none => rfl
  | some k => exact congrArg Host.Outcome.next (if_pos (.inr hc))

/-- What the ROM's work leaves where it finds an image that may run. -/
def State.booting (s : State) : State :=
  { s with
    ident := s.ident.romBoot.keepCert s.pwr.variant ((s.mbx.boots + 1) % 2 ^ 32)
    mbx := { s.mbx with boots := (s.mbx.boots + 1) % 2 ^ 32 } }

theorem State.booting_booted (s : State) : s.booting.ident.booted = s.ident.romBoot.booted := by
  unfold State.booting IdSt.keepCert
  dsimp only

theorem State.booting_mbx (s : State) : s.booting.mbx = { s.mbx with boots := (s.mbx.boots + 1) % 2 ^ 32 } := by
  unfold State.booting
  dsimp only

/-- The ROM's work where it finds none. -/
def State.romBooted (s : State) : State := { s with ident := s.ident.romBoot }

theorem State.romBooted_ident (s : State) : s.romBooted.ident = s.ident.romBoot := by
  unfold State.romBooted
  dsimp only

theorem State.romBooted_frame (s : State) : Frame ({ slots := true, bootCfg := true, image := true }) s s.romBooted :=
  Frame.setBoot rfl .refl (IdSt.romBoot_kept s.ident)

theorem State.consoleLine_mem (s : State) : .console s.ident.slotA.result s.ident.slotB.result ∈ s.consoleLine.out :=
  List.mem_cons_self

theorem State.consoleLine_ident (s : State) : s.consoleLine.ident = { s.ident with console := some s.upNs } := rfl

theorem State.moarasBoot_of_booted (h : s.ident.romBoot.booted = true) : s.moarasBoot = s.booting.bootEvents := if_pos h

theorem State.moarasBoot_of_none (h : s.ident.romBoot.booted = false) :
    s.moarasBoot = s.romBooted.consoleLine := if_neg (by simp [h])

theorem State.moarasBoot_ready (s : State) : s.moarasBoot.mbx.ready = s.mbx.ready := by
  cases h : s.ident.romBoot.booted
  · rw [State.moarasBoot_of_none h]; rfl
  · rw [State.moarasBoot_of_booted h, (State.bootEvents_frame (Touch.or_self _) .refl).mbx rfl]
    rw [State.booting_mbx]

theorem State.moarasBoot_mpIn (s : State) : s.moarasBoot.mpIn = s.mpIn := by
  unfold State.mpIn
  rw [(State.moarasBoot_frame (Touch.or_self _) .refl).mp_eq rfl]

theorem State.moarasBoot_booted (h : s.ident.romBoot.booted = true) : s.moarasBoot.ident.booted = true
    ∧ s.moarasBoot.mbx.boots = (s.mbx.boots + 1) % 2 ^ 32 := by
  have hframe := State.bootEvents_frame (Touch.or_self _) (.refl (s := s.booting))
  rw [State.moarasBoot_of_booted h, hframe.ident_eq rfl, hframe.mbx rfl, State.booting_booted, State.booting_mbx]
  exact ⟨h, rfl⟩

/-- MOARAS_READY is set, and the reset's cause told. -/
def State.readied (s : State) (k : ResetKind) : State :=
  State.raise { s with
    mbx := { s.mbx with ready := true, readyUp := s.up }
    bake := { s.bake with epoch := 1 }
    pwr := { s.pwr with bringup := none, lastCause := s.pwr.cause k, flashCause := s.pwr.flashCause && k == ResetKind.warm } }
    0x1101 sevInfo (le 1 (s.pwr.cause k) ++ le 2 (unsigned 16 s.pwr.hotAtRecord) ++ le 4 s.mbx.boots)

theorem State.becomeReady_frame_readied (s : State) (k : ResetKind) :
    Frame ({ evt := true, telCtr := true, irq := true, out := true }) (s.readied k) (s.becomeReady k) := by
  have heq : s.becomeReady k = if k = .warm then (s.readied k).tellWarm else s.readied k := rfl
  rw [heq]
  split
  · exact State.tellWarm_frame rfl .refl
  · exact .refl

/-- What becoming ready leaves (R491, R492). -/
theorem State.becomeReady_spec (s : State) (k : ResetKind) : (s.becomeReady k).mbx.ready = true
    ∧ (s.becomeReady k).mbx.boots = s.mbx.boots ∧ (s.becomeReady k).bake.epoch = 1 ∧ (s.becomeReady k).pwr.bringup = none
    ∧ (s.becomeReady k).pwr.lastCause = if k = ResetKind.warm then 1 else if s.pwr.flashCause then 2 else 0 := by
  have hframe := s.becomeReady_frame_readied k
  obtain ⟨-, -, -, -, hbringup, -, hcause, -⟩ := hframe.resets rfl
  rw [hframe.mbx rfl, hframe.epoch rfl, hbringup, hcause]
  exact ⟨rfl, rfl, rfl, rfl, rfl⟩

section

variable {k : ResetKind}

/-- The state after the ROM's work, before Moaras is ready. -/
def State.booted (s : State) (k : ResetKind) : State := (s.prepared k).moarasBoot.healthSince s

theorem State.bootDone_eq (s : State) (k : ResetKind) : s.bootDone k
    = if (s.prepared k).moarasBoot.ident.booted && ((s.prepared k).moarasBoot.mpIn .active).isSome then (s.booted k).becomeReady k
      else s.booted k := by
  unfold State.bootDone State.booted State.prepared
  dsimp only

theorem State.booted_frame (s : State) (k : ResetKind) : Frame
    ({ evt := true, telCtr := true, life := true, slots := true, bootCfg := true, image := true, healthGen := true, irq := true,
       out := true }) (s.prepared k) (s.booted k) :=
  State.healthSince_frame rfl (State.moarasBoot_frame rfl .refl) s

theorem State.booted_resets (s : State) (k : ResetKind) :
    (s.booted k).pwr.bringup = s.pwr.bringup ∧ (s.booted k).pwr.flashCause = s.pwr.flashCause := by
  obtain ⟨-, -, -, -, hbringup, -, -, hflash, -⟩ := (s.booted_frame k).resets rfl
  obtain ⟨-, -, -, -, hbringup', -, -, hflash', -⟩ := (s.prepared_frame k).resets rfl
  exact ⟨hbringup.trans hbringup', hflash.trans hflash'⟩

theorem State.booted_mbx (s : State) (k : ResetKind) : (s.booted k).mbx = (s.prepared k).moarasBoot.mbx :=
  (State.healthSince_frame (Touch.or_self _) .refl s).mbx rfl

theorem moarasBootDone_ends_ready (hb : s.pwr.bringup = some k) (hr : s.pwr.inReset = false) (hc : s.ident.console = none)
    (hi : s.ident.romBoot.booted = true) (ha : (((s.applyRepairs k).testMpA).mpIn .active).isSome = true) :
    Ends .moarasBootDone s (fun t => t.mbx.ready = true
      ∧ t.mbx.boots = (s.mbx.boots + 1) % 2 ^ 32 ∧ t.bake.epoch = 1 ∧ t.pwr.bringup = none
      ∧ t.pwr.lastCause = if k = ResetKind.warm then 1 else if s.pwr.flashCause then 2 else 0) := by
  refine ends_of_exec (moarasBootDone_exec hb hr hc) ?_
  have hprep := s.prepared_frame k
  rw [← hprep.ident_eq rfl] at hi
  obtain ⟨hbooted, hboots⟩ := State.moarasBoot_booted hi
  rw [State.bootDone_eq, if_pos (by rw [hbooted, State.moarasBoot_mpIn, State.prepared_mpIn, ha]; rfl)]
  obtain ⟨hready, hcount, hepoch, hbringup, hcause⟩ := (s.booted k).becomeReady_spec k
  rw [s.booted_mbx, hboots, hprep.mbx rfl] at hcount
  rw [(s.booted_resets k).2] at hcause
  exact ⟨hready, hcount, hepoch, hbringup, hcause⟩

theorem moarasBootDone_ends_noMp (hb : s.pwr.bringup = some k) (hr : s.pwr.inReset = false) (hc : s.ident.console = none)
    (ha : ((s.applyRepairs k).testMpA).mpIn .active = none) :
    Ends .moarasBootDone s (fun t => t.mbx.ready = s.mbx.ready ∧ t.pwr.bringup = some k) := by
  refine ends_of_exec (moarasBootDone_exec hb hr hc) ?_
  rw [State.bootDone_eq, if_neg (by rw [State.moarasBoot_mpIn, State.prepared_mpIn, ha]; simp)]
  refine ⟨?_, (s.booted_resets k).1.trans hb⟩
  rw [s.booted_mbx, State.moarasBoot_ready, (s.prepared_frame k).mbx rfl]

theorem State.mem_out_healthSince {o : Output} (before : State) (h : o ∈ s.out) : o ∈ (s.healthSince before).out := by
  unfold State.healthSince State.healthIf
  split
  · exact State.mem_out_raise (s := { s with pwr := { s.pwr with healthGen := (s.pwr.healthGen + 1) % 2 ^ 32 } }) h _ _ _
  · exact h

theorem moarasBootDone_ends_noImage (hb : s.pwr.bringup = some k) (hr : s.pwr.inReset = false) (hc : s.ident.console = none)
    (hi : s.ident.romBoot.booted = false) : Ends .moarasBootDone s (fun t => t.mbx = s.mbx ∧ t.pwr.bringup = some k
      ∧ t.ident = { s.ident.romBoot with console := some s.upNs }
      ∧ .console s.ident.romBoot.slotA.result s.ident.romBoot.slotB.result ∈ t.out) := by
  refine ends_of_exec (moarasBootDone_exec hb hr hc) ?_
  have hprep := s.prepared_frame k
  have hident := hprep.ident_eq rfl
  have hboot := State.moarasBoot_of_none (s := s.prepared k) (by rw [hident]; exact hi)
  have hrom : (s.prepared k).romBooted.ident = s.ident.romBoot := by rw [State.romBooted_ident, hident]
  have hup : (s.prepared k).romBooted.upNs = s.upNs := by
    unfold State.upNs
    rw [(s.prepared k).romBooted_frame.up rfl, hprep.up rfl]
  have hdown : (s.prepared k).moarasBoot.ident = { s.ident.romBoot with console := some s.upNs } := by
    rw [hboot, State.consoleLine_ident, hup, hrom]
  have hmbx : (s.prepared k).moarasBoot.mbx = s.mbx := by
    rw [hboot, (State.consoleLine_frame (Touch.or_self _) .refl).mbx rfl, (s.prepared k).romBooted_frame.mbx rfl, hprep.mbx rfl]
  rw [State.bootDone_eq, if_neg (by rw [hdown]; simp [hi])]
  refine ⟨(s.booted_mbx k).trans hmbx, (s.booted_resets k).1.trans hb, ?_, State.mem_out_healthSince _ ?_⟩
  · exact ((State.healthSince_frame (Touch.or_self _) .refl s).ident_eq rfl).trans hdown
  · rw [hboot, ← hrom]
    exact State.consoleLine_mem _

end

/-! ### Folds over the units of a function -/

theorem State.foldl_updChan_chan (v : Chan) (c : Nat) : ∀ (l : List Nat) (s : State),
    (l.foldl (fun t c => t.updChan c (fun _ => v)) s).chan c = if c ∈ l then v else s.chan c
  | [], s => by simp
  | m :: l, s => by
    rw [List.foldl_cons, State.foldl_updChan_chan v c l, State.chan_updChan]
    by_cases hm : m = c
    · subst hm; simp
    · simp [hm, Ne.symm hm]

theorem State.foldl_updBox_box (v : Mbox) (b : Nat) : ∀ (l : List Nat) (s : State),
    (l.foldl (fun t b => t.updBox b (fun _ => v)) s).box b = if b ∈ l then v else s.box b
  | [], s => by simp
  | m :: l, s => by
    rw [List.foldl_cons, State.foldl_updBox_box v b l, State.box_updBox]
    by_cases hm : m = b
    · subst hm; simp
    · simp [hm, Ne.symm hm]

section

variable {fn c b : Nat}

theorem State.mem_fnChans : c ∈ s.fnChans fn ↔ c < 128 ∧ s.chFn c = fn := by simp [State.fnChans]

theorem State.mem_fnBoxes : b ∈ s.fnBoxes fn ↔ b < 32 ∧ s.boxFn b = fn := by simp [State.fnBoxes]

/-- DMA channels of the function at their defaults. -/
theorem State.resetDma_chan (hc : c < 128) (hf : s.chFn c = fn) : (s.resetDma fn).chan c = Chan.init := by
  unfold State.resetDma
  dsimp only
  have hline : ∀ (u : State) (l : List Nat), ({ u with host := { u.host with waitFetch := l } } : State).chan = u.chan :=
    fun _ _ => rfl
  rw [hline, foldl_read State.chan (f := fun t f => State.updFifo t f (fun _ => HFifo.init))
      (fun _ _ _ => (State.updFifo_frame (Touch.or_self _) .refl _ _).chan_eq rfl), State.foldl_updChan_chan,
    if_pos (State.mem_fnChans.mpr ⟨hc, hf⟩)]

theorem State.freeBoxes_box (s : State) (fn b : Nat) : (s.freeBoxes fn).box b
    = if b < 32 ∧ s.boxFn b = fn then Mbox.init else s.box b := by
  have hfold := State.foldl_updBox_box Mbox.init b (s.fnBoxes fn) s
  simp only [State.mem_fnBoxes] at hfold
  exact hfold

/-! ### The reset of a function (R343, R384) -/

/-- Before the function's link: its channels, mailboxes, interrupts and sessions. -/
def State.emptied (s : State) (fn : Nat) : State := ((((s.stopChans fn).freeBoxes fn).resetDma fn).resetInts fn).dropDoe fn

/-- With the link. -/
def State.relinked (s : State) (fn : Nat) (up : Bool) : State :=
  (s.emptied fn).updLink fn (fun l => if up then l.atFlr else LinkIf.init)

theorem State.resetFunction_eq (s : State) (fn : Nat) (up : Bool) : s.resetFunction fn up
    = if fn = 0 then (s.relinked fn up).resetShared else s.relinked fn up := by
  unfold State.resetFunction State.relinked State.emptied
  dsimp only

theorem State.resetFunction_frame_relinked (s : State) (fn : Nat) (up : Bool) : Frame
    ({ time := true, tsFifos := true, evtRegs := true, evt := true, swpRegs := true, swp := true }) (s.relinked fn up)
    (s.resetFunction fn up) := by
  rw [State.resetFunction_eq]
  split
  · exact State.resetShared_frame rfl .refl
  · exact .refl

/-- What of the channels and mailboxes the rest of a function's reset leaves alone. -/
theorem State.relinked_frame (s : State) (fn : Nat) (up : Bool) : Frame
    ({ irq := true, intMap := true, msix := true, sessions := true }) (((s.stopChans fn).freeBoxes fn).resetDma fn) (s.relinked fn up) :=
  State.updLink_frame rfl (State.dropDoe_frame rfl (State.resetInts_frame rfl .refl fn) fn) fn _

theorem State.stopChans_ident (s : State) (fn : Nat) : (s.stopChans fn).ident = s.ident :=
  (State.stopChans_frame (Touch.or_self _) .refl fn).ident_eq rfl

theorem State.resetFunction_chan (up : Bool) (hc : c < 128) (hf : s.chFn c = fn) : (s.resetFunction fn up).chan c = Chan.init := by
  have hfn : ((s.stopChans fn).freeBoxes fn).chFn c = fn := by
    unfold State.chFn at hf ⊢
    rwa [(State.freeBoxes_frame (Touch.or_self _) .refl fn).ident_eq rfl, State.stopChans_ident]
  rw [(s.resetFunction_frame_relinked fn up).chan_eq rfl, (s.relinked_frame fn up).chan_eq rfl, State.resetDma_chan hc hfn]

theorem State.resetFunction_box (s : State) (fn b : Nat) (up : Bool) : (s.resetFunction fn up).box b
    = if b < 32 ∧ s.boxFn b = fn then Mbox.init else s.box b := by
  rw [(s.resetFunction_frame_relinked fn up).box_eq rfl, (s.relinked_frame fn up).box_eq rfl,
    (State.resetDma_frame (Touch.or_self _) .refl fn).box_eq rfl, State.freeBoxes_box, State.fnOf_eq (s.stopChans_ident fn) b,
    (State.stopChans_frame (Touch.or_self _) .refl fn).box_eq rfl]

/-- The links before the function's own is reset are the old ones. -/
theorem State.emptied_links (s : State) (fn : Nat) : (s.emptied fn).host.links = s.host.links := by
  have hdoe := State.dropDoe_frame (Touch.or_self _) (.refl (s := (((s.stopChans fn).freeBoxes fn).resetDma fn).resetInts fn)) fn
  have hdma : Frame ({ chans := true, fifos := true, boxes := true, jobs := true, waitFetch := true }) s
      (((s.stopChans fn).freeBoxes fn).resetDma fn) :=
    State.resetDma_frame rfl (State.freeBoxes_frame rfl (State.stopChans_frame rfl .refl fn) fn) fn
  unfold State.emptied
  rw [(hdoe.irq rfl).1, ← (hdma.irq rfl).1]
  rfl

theorem State.resetFunction_link (s : State) (fn : Nat) (up : Bool) :
    (s.resetFunction fn up).host.link fn = if up then (s.host.link fn).atFlr else LinkIf.init := by
  have hlink : (s.resetFunction fn up).host.link = (s.relinked fn up).host.link :=
    congrArg (fun l => Tab.get LinkIf.init l) ((s.resetFunction_frame_relinked fn up).irq rfl).1
  have hold : (s.emptied fn).host.link = s.host.link := congrArg (fun l => Tab.get LinkIf.init l) (s.emptied_links fn)
  rw [hlink]
  unfold State.relinked
  exact (HostSt.link_updLink _ fn fn _).trans (by rw [if_pos rfl, hold])

/-- A row about a function that exists is its act. -/
theorem exec_of_onFunction {e : Instr} {t : State} (hf : s.fnExists fn = true) (he : exec e s = onFunction s fn t) :
    exec e s = .next t := he.trans (if_pos hf)

/-- An event pends its source; of a link it can move the pending bit array alone (R369, R370). -/
theorem HostSt.link_signalVector (h : HostSt) (k vec m : Nat) :
    ∃ l, (h.signalVector k vec).1.link m = { h.link m with pba := l } := by
  unfold HostSt.signalVector
  split
  · exact ⟨_, rfl⟩
  · split
    · rw [HostSt.link_updLink]
      by_cases hk : k = m
      · subst hk; exact ⟨_, if_pos rfl⟩
      · exact ⟨_, if_neg hk⟩
    · exact ⟨_, rfl⟩

theorem HostSt.link_setPendingIf (h : HostSt) (p x8 : Bool) (n m : Nat) :
    ∃ l, (h.setPendingIf p x8 n).1.link m = { h.link m with pba := l } := by
  unfold HostSt.setPendingIf HostSt.setPending
  split
  · split
    · exact ⟨_, rfl⟩
    · dsimp only
      split
      · exact HostSt.link_signalVector _ _ _ m
      · exact ⟨_, rfl⟩
  · exact ⟨_, rfl⟩

theorem State.raise_link (s : State) (code sev m : Nat) (args : List Byte) :
    ∃ l, (s.raise code sev args).host.link m = { s.host.link m with pba := l } := HostSt.link_setPendingIf _ _ _ _ _

theorem pcieFunctionReset_ends (kind : Nat) (hf : s.fnExists fn = true) : Ends (.pcieFunctionReset fn kind) s (fun t =>
      (∀ c, c < 128 → s.chFn c = fn → t.chan c = Chan.init)
      ∧ (∀ b, b < 32 → s.boxFn b = fn → t.box b = Mbox.init)
      ∧ (∀ b, b < 32 → s.boxFn b ≠ fn → t.box b = s.box b)
      ∧ (t.host.link fn).up = (decide (2 ≤ kind) && (s.host.link fn).up) ∧ (t.host.link fn).scratch = 0
      ∧ (t.host.link fn).d3 = false ∧ (fn = 0 → t.evt.enable = false ∧ t.swp.enable = false)
      ∧ t.fwd = s.fwd ∧ t.bake = s.bake ∧ t.pkts = s.pkts) := by
  refine ends_of_exec (t := s.functionReset fn kind) (exec_of_onFunction hf rfl) ?_
  unfold State.functionReset
  have hraise := State.raise_frame (Touch.or_self _) (.refl (s := s.resetFunction fn (decide (2 ≤ kind)))) 0x1202 sevInfo
    (le 1 fn ++ le 1 (min kind 2))
  have hreset := State.resetFunction_frame (Touch.or_self _) (.refl (s := s)) fn (decide (2 ≤ kind))
  obtain ⟨l, hlink⟩ := (s.resetFunction fn (decide (2 ≤ kind))).raise_link 0x1202 sevInfo fn (le 1 fn ++ le 1 (min kind 2))
  rw [hraise.chan_eq rfl, hraise.box_eq rfl, hlink, State.resetFunction_link, hraise.fwd_eq rfl, hreset.fwd_eq rfl,
    hraise.bake_eq rfl, hreset.bake_eq rfl, hraise.pkts rfl, hreset.pkts rfl]
  refine ⟨fun c hc hfn => State.resetFunction_chan _ hc hfn, fun b hb hfn => ?_, fun b hb hfn => ?_, ?_, ?_, ?_, fun h0 => ?_, rfl, rfl, rfl⟩
  · rw [State.resetFunction_box, if_pos ⟨hb, hfn⟩]
  · rw [State.resetFunction_box, if_neg (fun h => hfn h.2)]
  · by_cases hk : 2 ≤ kind <;> simp [hk, LinkIf.atFlr, LinkIf.init]
  · split <;> rfl
  · split <;> rfl
  · have heq : s.resetFunction fn (decide (2 ≤ kind)) = (s.relinked fn (decide (2 ≤ kind))).resetShared := by
      rw [State.resetFunction_eq, if_pos h0]
    rw [(hraise.evtRegs rfl).1, (hraise.swpRegs rfl).1, heq]
    exact ⟨rfl, rfl⟩

theorem hostLinkLoss_ends (hf : s.fnExists fn = true) : Ends (.hostLinkLoss fn) s (fun t =>
      (∀ c, c < 128 → s.chFn c = fn → t.chan c = Chan.init) ∧ (∀ b, b < 32 → s.boxFn b = fn → t.box b = Mbox.init)
      ∧ (t.host.link fn).up = false) := by
  refine ends_of_exec (t := (s.resetFunction fn false).raise 0x1201 sevWarning (le 1 fn)) (exec_of_onFunction hf rfl) ?_
  have hraise := State.raise_frame (Touch.or_self _) (.refl (s := s.resetFunction fn false)) 0x1201 sevWarning (le 1 fn)
  obtain ⟨l, hlink⟩ := (s.resetFunction fn false).raise_link 0x1201 sevWarning fn (le 1 fn)
  rw [hraise.chan_eq rfl, hraise.box_eq rfl, hlink, State.resetFunction_link, if_neg (by simp)]
  refine ⟨fun c hc hfn => State.resetFunction_chan _ hc hfn, fun b hb hfn => ?_, rfl⟩
  rw [State.resetFunction_box, if_pos ⟨hb, hfn⟩]

/-! ### D3hot and training (R341 to R343) -/

/-- ABORT stops a channel that runs or idles, and no other (R347, R357). -/
theorem State.chanAbort_state (s : State) (m c : Nat) : ((s.chanAbort m).chan c).state
    = if m = c ∧ ((s.chan c).state = .running ∨ (s.chan c).state = .idle) then .stopped else (s.chan c).state := by
  have hpartial : ∀ u : State, (u.dropPartial m).chan = u.chan := fun u => by
    unfold State.dropPartial
    dsimp only
    split
    · exact (State.updFifo_frame (Touch.or_self _) .refl _ _).chan_eq rfl
    · rfl
  unfold State.chanAbort
  dsimp only
  by_cases hm : m = c
  · subst hm
    split
    · next h =>
      unfold State.chanStop
      rw [State.chan_updChan, if_pos rfl, if_pos ⟨rfl, h⟩]
    · next h => rw [if_neg (fun k => h k.2)]
  · split
    · unfold State.chanStop
      rw [State.chan_updChan, if_neg hm, hpartial, State.chan_updChan, if_neg hm, if_neg (fun k => hm k.1)]
    · rw [if_neg (fun k => hm k.1)]

theorem State.foldl_chanAbort_stopped {c : Nat} : ∀ (l : List Nat) (s : State),
    (s.chan c).state = .stopped ∨ c ∈ l ∧ ((s.chan c).state = .running ∨ (s.chan c).state = .idle) →
    ((l.foldl State.chanAbort s).chan c).state = .stopped
  | [], s, h => h.resolve_right (fun k => by simp at k)
  | m :: l, s, h => by
    refine State.foldl_chanAbort_stopped l (s.chanAbort m) ?_
    rw [State.chanAbort_state]
    rcases h with h | ⟨hc, hs⟩
    · exact .inl (by simp [h])
    · by_cases hm : m = c
      · exact .inl (if_pos ⟨hm, hs⟩)
      · rw [if_neg (fun k => hm k.1)]
        exact .inr ⟨(List.mem_cons.mp hc).resolve_left (Ne.symm hm), hs⟩

theorem d3hotEntry_ends (hf : s.fnExists fn = true) : Ends (.d3hotEntry fn) s (fun t => (t.host.link fn).d3 = true
      ∧ (∀ c, c < 128 → s.chFn c = fn → (s.chan c).state = .running ∨ (s.chan c).state = .idle → (t.chan c).state = .stopped)
      ∧ t.mbx = s.mbx) := by
  refine ends_of_exec (t := s.enterD3 fn) (exec_of_onFunction hf rfl) ?_
  unfold State.enterD3
  have hlink := State.updLink_frame (Touch.or_self _) (.refl (s := s.stopChans fn)) fn (fun l => { l with d3 := true })
  rw [hlink.chan_eq rfl, hlink.mbx rfl, (State.stopChans_frame (Touch.or_self _) .refl fn).mbx rfl]
  refine ⟨?_, fun c hc hfn hs => State.foldl_chanAbort_stopped _ s (.inr ⟨State.mem_fnChans.mpr ⟨hc, hfn⟩, hs⟩), rfl⟩
  exact congrArg LinkIf.d3 ((HostSt.link_updLink _ fn fn _).trans (if_pos rfl))

theorem pcieLinkUp_exec (speed width : Nat) (flit : Bool) (hf : s.fnExists fn = true) (hr : s.pwr.inReset = false) :
    exec (.pcieLinkUp fn speed width flit) s = .next (if linkTrains s.ident.bifurcated speed width flit = false then s
      else s.updLink fn (fun l => { l with up := true, speed, width, flit, d3 := false })) := by
  refine (exec_of_onFunction hf rfl).trans ?_
  simp only [hr, Bool.false_eq_true, false_or]

theorem pcieLinkUp_ends {speed width : Nat} {flit : Bool} (hf : s.fnExists fn = true) (hr : s.pwr.inReset = false)
    (ht : linkTrains s.ident.bifurcated speed width flit = true) : Ends (.pcieLinkUp fn speed width flit) s (fun t =>
      t.host.link fn = { s.host.link fn with up := true, speed, width, flit, d3 := false }
      ∧ (∀ m, m ≠ fn → t.host.link m = s.host.link m) ∧ t.host.chans = s.host.chans ∧ t.mbx = s.mbx) := by
  refine ends_of_exec (pcieLinkUp_exec speed width flit hf hr) ?_
  rw [if_neg (by simp [ht])]
  exact ⟨(HostSt.link_updLink _ fn fn _).trans (if_pos rfl),
    fun m hm => (HostSt.link_updLink _ fn m _).trans (if_neg (Ne.symm hm)), rfl, rfl⟩

end

end

/-! ### O40 -/

/-- Settles O40: an entry to reset is written out field by field, a boot is the ROM's work and what becoming ready adds, and a
function's reset is a fold over its channels and mailboxes. -/
theorem resetRows : Obligations.ResetRows := by
  unfold Obligations.ResetRows
  refine ⟨fun s => ?porst, supplyFault_ends, fun s role hp => porstNRise_ends hp, fun s hp he hb => wrstNLow_ends hp he hb,
    fun s hp => ?pin, fun s hw => wrstNRise_ends hw, suppliesValid_ends, fun s hc => moarasBootDone_idles hc,
    fun s k hb hr hc => ⟨moarasBootDone_ends_ready hb hr hc, moarasBootDone_ends_noMp hb hr hc, moarasBootDone_ends_noImage hb hr hc⟩,
    fun s fn kind hf => pcieFunctionReset_ends kind hf, fun s fn hf => hostLinkLoss_ends hf, fun s fn hf => d3hotEntry_ends hf,
    fun s fn speed width flit hf hr => ⟨pcieLinkUp_ends hf hr, fun ht => ?untrained⟩⟩
  case porst =>
    exact ⟨_, rfl, rfl, rfl, rfl, rfl, rfl, rfl, rfl, rfl, rfl, rfl, rfl, rfl, rfl, rfl, rfl, rfl, rfl, rfl, rfl, rfl, rfl⟩
  case pin =>
    refine ends_of_exec (wrstNLow_exec s) ?_
    rw [show s.wrstEntry = s from if_pos (.inl hp)]
  case untrained => exact (pcieLinkUp_exec speed width flit hf hr).trans (by rw [if_pos ht])

end Sys2Proof.Machine
end


section
/-! PROOF. The domain bake's exchange (R421, R426 to R431). Every row of a received message is its act in the state that has
accepted it, and accepting moves a port's counters, the sender's record and the receipt alone. A message that is sent stays
among those to be confirmed, whatever else the row sends, raises or answers. -/

namespace Sys2Proof.Machine

/-! ### Messages that are sent stay to be confirmed -/

section

variable {s t u : State}

/-- The messages that wait at `s` wait at `t`, and what is known of the peers' sets stands. -/
structure State.Awaits (s t : State) : Prop where
  msgs : ∀ x ∈ s.bake.msgs, x ∈ t.bake.msgs
  changes : ∀ i, (t.peer i).changes = (s.peer i).changes

theorem State.Awaits.of_eq (hm : t.bake.msgs = s.bake.msgs) (hp : t.bake.peers = s.bake.peers) : s.Awaits t where
  msgs _ hx := hm ▸ hx
  changes i := by unfold State.peer; rw [hp]

theorem State.Awaits.refl (s : State) : s.Awaits s := .of_eq rfl rfl

theorem State.Awaits.trans (h : s.Awaits t) (k : t.Awaits u) : s.Awaits u :=
  ⟨fun x hx => k.msgs x (h.msgs x hx), fun i => (k.changes i).trans (h.changes i)⟩

theorem Frame.awaits {w : Touch} (h : Frame w s t) (hm : w.msgs = false) (hp : w.peers = false) : s.Awaits t :=
  .of_eq (h.msgs hm).1 (h.peers hp)

theorem Sent.awaited {peer type : Nat} {body : List Byte} (h : Sent s peer type body) (k : s.Awaits t) : Sent t peer type body := by
  obtain ⟨x, hx, he⟩ := h
  exact ⟨x, k.msgs x hx, he⟩

/-- What is known of a peer's sets does not change with the rest of its record. -/
theorem State.updPeer_changes {f : Peer → Peer} (hf : ∀ e, (f e).changes = e.changes) (s : State) (n i : Nat) :
    ((s.updPeer n f).peer i).changes = (s.peer i).changes := by
  show (Tab.get Peer.init (Tab.upd Peer.init s.bake.peers n f) i).changes = _
  rw [Tab.get_upd]
  split
  next h => rw [hf]; rfl
  next => rfl

theorem State.updPeer_awaits {f : Peer → Peer} (hf : ∀ e, (f e).changes = e.changes) (s : State) (n : Nat) :
    s.Awaits (s.updPeer n f) :=
  ⟨fun _ hx => hx, s.updPeer_changes hf n⟩

theorem State.domPut_awaits (s : State) (peer type id : Nat) (body : List Byte) (n : Nat) :
    s.Awaits (s.domPut peer type id body n) := by
  unfold State.domPut
  split
  · exact .refl s
  · have hput : ∀ (u : State) (p : Nat) (o : Output), u.Awaits (u.sendClass p 7 o (fun t => t.sendNow p o)) := fun u p o =>
      (State.sendClass_frame (wt := { waitTx := true, portCtr := true, out := true }) rfl .refl p 7 o _ (fun _ hF =>
        State.sendNow_frame rfl hF p o)).awaits rfl rfl
    refine .trans (State.updPeer_awaits ?_ s peer) (hput _ _ _)
    exact fun _ => rfl

theorem State.keepMsg_awaits (s : State) (peer type : Nat) (body : List Byte) (c : Option Nat) :
    s.Awaits (s.keepMsg peer type body c) := by
  refine ⟨fun x hx => ?_, fun _ => rfl⟩
  show x ∈ if unconfirmed type then _ else _
  split
  · exact hx
  · exact List.mem_append_left _ hx

theorem State.domSend_awaits (s : State) (peer type : Nat) (body : List Byte) : s.Awaits (s.domSend peer type body) :=
  (s.domPut_awaits _ _ _ _ _).trans (State.keepMsg_awaits _ _ _ _ _)

/-- A message that RECEIVED confirms waits for it. -/
theorem State.domSend_sent (s : State) (peer : Nat) {type : Nat} (h : unconfirmed type = false) (body : List Byte) :
    Sent (s.domSend peer type body) peer type body := by
  refine ⟨⟨peer, s.bake.nextMsg, type, body, 1, none⟩, ?_, rfl, rfl, rfl⟩
  show _ ∈ if unconfirmed type then _ else _
  rw [if_neg (by simp [h]), ((State.domPut_frame (Touch.or_self _) .refl peer type s.bake.nextMsg body 0).msgs rfl).2]
  exact List.mem_append_right _ (.head _)

/-- One message to each of `l`. -/
def State.sendAll (s : State) (type : Nat) (body : List Byte) (l : List Nat) : State :=
  l.foldl (fun t i => t.domSend i type body) s

/-- What sending moves. -/
def Touch.sending : Touch := { waitTx := true, portCtr := true, peers := true, msgs := true, out := true }

theorem State.sendAll_frame (type : Nat) (body : List Byte) : ∀ (l : List Nat) (s : State), Frame .sending s (s.sendAll type body l)
  | [], _ => .refl
  | _ :: l, _ => (State.domSend_frame rfl .refl _ _ _).trans (State.sendAll_frame type body l _)

theorem State.sendAll_awaits (type : Nat) (body : List Byte) : ∀ (l : List Nat) (s : State), s.Awaits (s.sendAll type body l)
  | [], s => .refl s
  | _ :: l, s => (s.domSend_awaits _ _ _).trans (State.sendAll_awaits type body l _)

theorem State.sendAll_sent {type : Nat} (h : unconfirmed type = false) (body : List Byte) (l : List Nat) :
    ∀ s : State, ∀ i ∈ l, Sent (s.sendAll type body l) i type body := by
  induction l with
  | nil => simp
  | cons j l ih =>
    intro s i hi
    rcases List.mem_cons.mp hi with rfl | hl
    · exact (s.domSend_sent i h body).awaited (State.sendAll_awaits type body l _)
    · exact ih _ i hl

theorem State.post_awaits (s : State) (b tag : Nat) (ind : Bool) (addr : Nat) (x : Resp) : s.Awaits (s.post b tag ind addr x) := by
  unfold State.post
  split
  · exact s.domSend_awaits _ _ _
  · exact .of_eq rfl rfl

theorem State.postWaiters_awaits (tag : Nat) (x : Resp) : ∀ (l : List (Nat × Bool × Nat)) (s : State),
    s.Awaits (s.postWaiters tag x l)
  | [], s => .refl s
  | _ :: l, s => (s.post_awaits _ _ _ _ _).trans (State.postWaiters_awaits tag x l _)

theorem State.answerJob_awaits (s : State) (j : Job) (x : Resp) : s.Awaits (s.answerJob j x) := by
  unfold State.answerJob
  split
  · exact (State.asyncDone_frame (Touch.or_self _) .refl _ _ _).awaits rfl rfl
  · split
    · exact s.post_awaits _ _ _ _ _
    · exact .refl s

theorem State.endJob_awaits (s : State) (j : Job) (l : List Job) (x : Resp) : s.Awaits (s.endJob j l x) := by
  unfold State.endJob
  have htaken : s.Awaits ((State.freeBuf { s with mbx := { s.mbx with jobs := l } } j.buf).recordTag j.op j.req x) :=
    .of_eq (by rw [(State.recordTag_mailOnly _ _ _ _).bake, (State.freeBuf_mailOnly _ _).bake])
      (by rw [(State.recordTag_mailOnly _ _ _ _).bake, (State.freeBuf_mailOnly _ _).bake])
  exact htaken.trans ((State.answerJob_awaits _ j x).trans (State.postWaiters_awaits _ _ _ _))

theorem State.complete_awaits (s : State) (op : Nat) (r : Req) (x : Resp) : s.Awaits (s.complete op r x) := by
  unfold State.complete State.endOldest
  split
  · exact .refl s
  · exact s.endJob_awaits _ _ _

end

/-! ### A received message acts in the state that has accepted it -/

section

variable {s : State} {type : Nat} {m : DomIn}

theorem domRow_exec (act : State → State) (h : s.hearsDom type m) : domRow type m act s = .next (act (s.domAccepted type m)) := by
  obtain ⟨hport, hmine, hlink, hfcs, hauth, hleave⟩ := h
  unfold domRow State.domIn State.domRx
  rw [if_neg (by omega), if_neg (by simp [hlink]), if_neg (by simp [hfcs])]
  show Host.Outcome.next (if (s.domCounted m).domMine m = true then (s.domCounted m).domAct type m act else s.domCounted m) = _
  have hmine' : (s.domCounted m).domMine m = true := hmine
  have hauth' : (s.domCounted m).authOk type m = true := hauth
  have hleave' : ((s.domCounted m).peer m.sender).leaving = false ∨ type = 3 := hleave
  rw [if_pos hmine']
  unfold State.domAct
  rw [if_neg (by simp [hauth']), if_neg (by rcases hleave' with h | h <;> simp [h])]
  rfl

/-- Accepting a message moves the counters of its port, the sender's record and the receipt. -/
theorem State.domAccepted_frame (s : State) (type : Nat) (m : DomIn) : Frame .sending s (s.domAccepted type m) :=
  State.domTake_frame rfl (State.bumpPort_frame rfl (State.bumpPort_frame rfl .refl _ _ _) _ _ _) _ _

theorem State.domAccepted_awaits (s : State) (type : Nat) (m : DomIn) : s.Awaits (s.domAccepted type m) := by
  have hcount : s.Awaits (s.domCounted m) := .of_eq rfl rfl
  have haccept := State.updPeer_awaits (f := fun e => e.accept (frameSeqs m.seq m.body) m.port) (fun _ => rfl) (s.domCounted m) m.sender
  refine hcount.trans (haccept.trans ?_)
  unfold State.domAccepted State.domTake State.confirm
  split
  · exact .refl _
  · exact State.domSend_awaits _ _ _ _

end

end Sys2Proof.Machine

end


section
/-! PROOF. The exchange at a worker, its query, and the requests that the manager forwards to it (R421, R426 to R430). -/

namespace Sys2Proof.Machine

section

variable {w : Touch} {s t : State} {type : Nat} {m : DomIn} {e : Instr} {act : State → State}

theorem Frame.role_eq (h : Frame w s t) (hw : w.resets = false) : t.role = s.role := by
  obtain ⟨-, -, -, -, -, -, -, -, -, hstrap, hvariant, -⟩ := h.resets hw
  unfold State.role
  rw [hstrap, hvariant]

theorem Frame.nowNs_eq (h : Frame w s t) (hw : w.time = false) : t.nowNs = s.nowNs := congrArg TimeBase.nanos (h.time hw)

theorem Frame.set?_eq (h : Frame w s t) (hw : w.sets = false) : t.bake.set? = s.bake.set? := by
  funext id
  unfold BakeSt.set?
  rw [(h.sets hw).1]

theorem Frame.domSet_eq (h : Frame w s t) (hw : w.sets = false) : t.bake.domSet = s.bake.domSet := by
  funext id
  unfold BakeSt.domSet
  rw [(h.sets hw).1]

theorem BakeSt.mem_of_domSet {b : BakeSt} {x : SetSt} {id : Nat} (h : b.domSet id = some x) : x ∈ b.sets ∧ x.bakeId = id := by
  have hp := List.find?_some h
  simp only [Bool.and_eq_true, beq_iff_eq] at hp
  exact ⟨List.mem_of_find?_eq_some h, hp.1.2⟩

/-- At a worker a row that only a worker acts on is its act in the state that has accepted its message. -/
theorem exec_atWorker (h : s.hearsDom type m) (hr : s.role = 1)
    (he : exec e s = domRow type m (fun t => t.atWorker (act t)) s) : exec e s = .next (act (s.domAccepted type m)) := by
  rw [he, domRow_exec _ h]
  unfold State.atWorker
  rw [if_pos (((s.domAccepted_frame type m).role_eq rfl).trans hr)]

theorem exec_atManager (h : s.hearsDom type m) (hr : s.role = 2)
    (he : exec e s = domRow type m (fun t => t.atManager (act t)) s) : exec e s = .next (act (s.domAccepted type m)) := by
  rw [he, domRow_exec _ h]
  unfold State.atManager
  rw [if_pos (((s.domAccepted_frame type m).role_eq rfl).trans hr)]

end

/-! ### PREPARE (R428) -/

section

variable {s : State} {m : DomIn}

/-- The instant that a PREPARE names. -/
def prepareAt (m : DomIn) : Nat := 1000000000 * rdBe m.body 8 8 + rdBe m.body 16 4

/-- The lead time of the set that a PREPARE names; 1 ms of an unknown one (log entry 43). -/
def State.prepareLead (s : State) (m : DomIn) : Nat := ((s.bake.set? (rdBe m.body 4 4)).map SetSt.lead).getD 1000000

/-- A set as the PREPARE of its bake leaves it; `several` is what the worker takes for whether the bake has more members. -/
def SetSt.preparedBy (b : SetSt) (m : DomIn) (several : Bool) : SetSt :=
  { b with domain := true, several, bakeId := rdBe m.body 0 4, sec := rdBe m.body 8 8, ns := rdBe m.body 16 4 }

/-- A bake of set `id` begins, as `f` says. -/
def State.began (s : State) (id : Nat) (f : SetSt → SetSt) : State :=
  { s with bake := s.bake.updSet id (fun x => { f x with state := .preparing }) }

theorem State.startBake_began {id : Nat} {f : SetSt → SetSt} {b : SetSt} (hb : s.bake.set? id = some b) (hopen : b.state = .isOpen)
    (hin : s.bake.inBake = none) (hcheck : s.checkCmds b.cmds (f b).several = none) (hbusy : s.slicesBusy = false) :
    s.startBake id f = (s.began id f, none) := by
  unfold State.startBake
  rw [hb]
  dsimp only
  rw [if_neg (by simp [hopen]), if_neg (by simp [hin]), hcheck]
  exact if_neg (by simp [hbusy])

theorem prepare_ends_late {e : Nat × Nat} (h : s.hearsDom 0x20 m) (hr : s.role = 1) (hnone : s.bake.domSet (rdBe m.body 0 4) = none)
    (he : leadFault s.nowNs (prepareAt m) (s.prepareLead m) = some e) : Ends (.prepare m) s (fun t => t.bake.sets = s.bake.sets
      ∧ ∃ b, Sent t 0 0x21 (be 4 (rdBe m.body 0 4) ++ be 1 0 ++ be 1 0 ++ be 2 e.1 ++ be 2 e.2 ++ b)) := by
  have hf := s.domAccepted_frame 0x20 m
  refine ends_of_exec (exec_atWorker h hr rfl) ?_
  unfold State.prepareLead prepareAt at he
  rw [← hf.set?_eq rfl, ← hf.nowNs_eq rfl] at he
  rw [← hf.domSet_eq rfl] at hnone
  generalize s.domAccepted 0x20 m = u at *
  have hvote : u.gotPrepare m = u.sendVote (rdBe m.body 0 4) false e.1 e.2 := by
    unfold State.gotPrepare
    dsimp only
    rw [if_neg (by simp [hnone]), he]
  rw [hvote]
  refine ⟨(((State.sendVote_frame (Touch.or_self _) .refl _ _ _ _).sets rfl).1).trans (hf.sets rfl).1,
    be 2 0 ++ be 4 u.bake.epoch ++ be 4 (unsigned 32 u.bake.offsetNs), ?_⟩
  have hsent := u.domSend_sent 0 (type := 0x21) rfl (be 4 (rdBe m.body 0 4) ++ be 1 (b2n false) ++ be 1 0 ++ be 2 e.1 ++ be 2 e.2 ++ be 2 0
    ++ be 4 u.bake.epoch ++ be 4 (unsigned 32 u.bake.offsetNs))
  unfold State.sendVote
  have hno : b2n false = 0 := rfl
  simpa only [List.append_assoc, hno] using hsent

theorem prepare_ends_preparing {b : SetSt} (h : s.hearsDom 0x20 m) (hr : s.role = 1) (hnone : s.bake.domSet (rdBe m.body 0 4) = none)
    (hb : s.bake.set? (rdBe m.body 4 4) = some b) (hlead : leadFault s.nowNs (prepareAt m) b.lead = none) (hopen : b.state = .isOpen)
    (hin : s.bake.inBake = none) (hbusy : s.slicesBusy = false)
    (hcheck : ((s.domAccepted 0x20 m).drawn 1).checkCmds b.cmds (bit s.freeVal 0) = none) : Ends (.prepare m) s (fun t =>
      t.bake.set? (rdBe m.body 4 4) = some { b.preparedBy m (bit s.freeVal 0) with state := .preparing }) := by
  have hf := s.domAccepted_frame 0x20 m
  refine ends_of_exec (exec_atWorker h hr rfl) ?_
  have hfree : s.freeVal = (s.domAccepted 0x20 m).freeVal := congrArg Config.freeValue (hf.free rfl).symm
  have hbusy' : (s.domAccepted 0x20 m).slicesBusy = false := by
    unfold State.slicesBusy at hbusy ⊢
    rwa [hf.slices rfl]
  have hin' : (s.domAccepted 0x20 m).bake.inBake = none := by
    unfold BakeSt.inBake at hin ⊢
    rwa [(hf.sets rfl).1]
  unfold prepareAt at hlead
  rw [← hf.nowNs_eq rfl] at hlead
  rw [← hf.set?_eq rfl] at hb
  rw [← hf.domSet_eq rfl] at hnone
  rw [hfree] at hcheck ⊢
  generalize s.domAccepted 0x20 m = u at *
  have hstart := State.startBake_began (s := u.drawn 1) (f := (SetSt.preparedBy · m (bit u.freeVal 0))) hb hopen hin' hcheck hbusy'
  have hgot : u.gotPrepare m = (u.drawn 1).began (rdBe m.body 4 4) (SetSt.preparedBy · m (bit u.freeVal 0)) := by
    unfold State.gotPrepare
    dsimp only
    rw [if_neg (by simp [hnone]), hb]
    dsimp only [Option.map_some, Option.getD_some]
    rw [hlead]
    dsimp only
    unfold SetSt.preparedBy at hstart ⊢
    rw [hstart]
  rw [hgot]
  refine Eq.trans (BakeSt.set?_updSet ?_) ?_
  · exact fun _ hx => hx
  · rw [show (u.drawn 1).bake.set? (rdBe m.body 4 4) = some b from hb]
    rfl

end

/-! ### COMMIT, GO, ABORT and OUTCOME at a worker (R428, R430) -/

section

variable {s : State} {m : DomIn} {b : SetSt}

theorem commit_ends (h : s.hearsDom 0x22 m) (hr : s.role = 1) (hb : s.bake.domSet (rdBe m.body 0 4) = some b)
    (harmed : b.state = .armed) : Ends (.commit m) s (fun t => Sent t 0 0x23 (be 4 b.bakeId)
      ∧ t.bake.set? b.id = (s.bake.set? b.id).map (fun x => { x with acked := true, domEpoch := rdBe m.body 4 4 })) := by
  have hf := s.domAccepted_frame 0x22 m
  refine ends_of_exec (exec_atWorker h hr rfl) ?_
  rw [← hf.set?_eq rfl]
  rw [← hf.domSet_eq rfl] at hb
  generalize s.domAccepted 0x22 m = u at *
  obtain ⟨-, hid⟩ := BakeSt.mem_of_domSet hb
  have hgot : u.gotCommit m = (u.takeCommit b.bakeId (rdBe m.body 4 4)).domSend 0 0x23 (be 4 b.bakeId) := by
    unfold State.gotCommit
    rw [hb]
    exact if_pos harmed
  have htake : (u.takeCommit b.bakeId (rdBe m.body 4 4)).bake
      = u.bake.updSet b.id (fun x => { x with acked := true, domEpoch := rdBe m.body 4 4 }) := by
    unfold State.takeCommit
    rw [hid, hb]
  rw [hgot]
  refine ⟨State.domSend_sent _ 0 rfl _, ?_⟩
  rw [(State.domSend_frame (Touch.or_self _) .refl _ _ _).set?_eq rfl, htake]
  exact BakeSt.set?_updSet (fun _ hx => hx)

/-- A set that has got GO. -/
def SetSt.gone (b : SetSt) (commit : Bool) (e : Nat) : SetSt :=
  { b with go := true, committed := commit, domEpoch := e, inDoubt := false }

theorem State.takeGo_set? (u : State) (hb : b ∈ u.bake.sets) (hd : b.inDoubt = false) (e : Nat) :
    (u.takeGo b e).bake.set? b.id = some (b.gone (b.several || (u.setRegions b.cmds).isNone) e) := by
  unfold State.takeGo
  dsimp only
  rw [if_neg (by simp [hd])]
  refine Eq.trans (BakeSt.set?_updSet_const hb ?_) ?_
  · rfl
  · rw [hd]
    rfl

theorem State.takeGo_set?_doubt (u : State) (hb : b ∈ u.bake.sets) (hd : b.inDoubt = true) (e : Nat) :
    (u.takeGo b e).bake.set? b.id
      = some (SetSt.setAt { b.gone (b.several || (u.setRegions b.cmds).isNone) e with late := true } u.soon) := by
  unfold State.takeGo
  dsimp only
  rw [if_pos hd, (State.raise_frame (Touch.or_self _) .refl _ _ _).set?_eq rfl]
  refine Eq.trans (BakeSt.set?_updSet_const hb ?_) ?_
  · rfl
  · rw [hd]
    rfl

/-- GO, or OUTCOME with result GO, in the state that has accepted it. -/
theorem State.gotGo_eq {u : State} {id e : Nat} (hb : u.bake.domSet id = some b) (ha : b.state = .armed) (hg : b.go = false) :
    u.gotGo id e = u.takeGo b e := by
  unfold State.gotGo
  rw [hb]
  exact if_pos ⟨ha, hg⟩

/-- What GO does to its set is told by the state that hears it. -/
theorem gotGo_set? (type e : Nat) (hb : s.bake.domSet (rdBe m.body 0 4) = some b) (ha : b.state = .armed) (hg : b.go = false) :
    (b.inDoubt = false → ((s.domAccepted type m).gotGo (rdBe m.body 0 4) e).bake.set? b.id
        = some (b.gone (b.several || (s.setRegions b.cmds).isNone) e))
      ∧ (b.inDoubt = true → ((s.domAccepted type m).gotGo (rdBe m.body 0 4) e).bake.set? b.id
        = some (SetSt.setAt { b.gone (b.several || (s.setRegions b.cmds).isNone) e with late := true } s.soon)) := by
  have hf := s.domAccepted_frame type m
  rw [← State.setRegions_congr (hf.regions rfl),
    show s.soon = (s.domAccepted type m).soon by unfold State.soon State.nowNs; rw [hf.time rfl]]
  rw [← hf.domSet_eq rfl] at hb
  rw [State.gotGo_eq hb ha hg]
  have hmem := (BakeSt.mem_of_domSet hb).1
  exact ⟨fun hd => State.takeGo_set? _ hmem hd e, fun hd => State.takeGo_set?_doubt _ hmem hd e⟩

theorem State.dropDomSet_committed {u : State} {id st det : Nat} (hb : u.bake.domSet id = some b) (hc : b.committed = true) :
    u.dropDomSet id st det = u := by
  unfold State.dropDomSet
  rw [hb]
  exact if_pos hc

theorem State.dropDomSet_set? {u : State} {id st det : Nat} (hb : u.bake.domSet id = some b) (hc : b.committed = false)
    (hr : b.restore = false) : (u.dropDomSet id st det).bake.set? b.id = some b.reopened := by
  have hopen := State.reopen_set? (BakeSt.mem_of_domSet hb).1 hr
  unfold State.dropDomSet
  rw [hb]
  dsimp only
  rw [if_neg (by simp [hc])]
  split
  · exact hopen
  · exact ((congrFun ((State.tellFailed_frame (Touch.or_self _) .refl _ _ _).set?_eq rfl) _).trans hopen)

end

/-! ### The query of a set in doubt (R430) -/

section

variable {s : State} {b : SetSt}

/-- A set asks for the outcome of its bake. -/
def State.asks (s : State) (b : SetSt) : Prop :=
  s.role = 1 ∧ b.domain = true ∧ (b.acked = true ∨ b.inDoubt = true) ∧ ¬ b.go = true ∧ ¬ s.bake.frozen = true

theorem outcomeQueryTimer_ends (hb : s.bake.armed = some b) (h : s.asks b) :
    Ends .outcomeQueryTimer s (fun t => Sent t 0 0x26 (be 4 b.bakeId)) := by
  refine ends_of_exec (t := s.domSend 0 0x26 (be 4 b.bakeId)) ?_ (s.domSend_sent 0 rfl _)
  show execOutcomeQueryTimer s = _
  unfold execOutcomeQueryTimer
  rw [hb]
  exact congrArg Host.Outcome.next (if_pos h)

theorem outcomeQueryTimer_idles (h : ∀ b, s.bake.armed = some b → ¬ s.asks b) : Idles .outcomeQueryTimer s := by
  show execOutcomeQueryTimer s = _
  unfold execOutcomeQueryTimer
  cases hb : s.bake.armed with
  | none => rfl
  | some b => exact congrArg Host.Outcome.next (if_neg (h b hb))

end

end Sys2Proof.Machine

end


section
/-! PROOF. The requests that the manager forwards to a worker (R421, R426, R266). -/

namespace Sys2Proof.Machine

section

variable {s u : State} {m : DomIn} {op : Nat} {r : Req}

theorem fwdRequest_box {l : List Byte} (h : fwdRequest l = (op, r)) : r.box = fwdBox := by
  cases h
  rfl

theorem forwardReq_exec (h : s.hearsDom 0x10 m) (hr : s.role = 1) (hq : fwdRequest m.body = (op, r)) :
    exec (.forwardReq m) s = .next ((s.domAccepted 0x10 m).forwarded op r) := by
  rw [exec_atWorker (act := fun t => t.forwarded (fwdRequest m.body).1 (fwdRequest m.body).2) h hr rfl, hq]

/-- The response to a forwarded request is a message to the manager. -/
theorem State.postReq_sent (u : State) (hb : r.box = fwdBox) (x : Resp) :
    Sent (u.postReq r x) 0 0x11 (respHeader r.tag x u.bake.epoch ++ x.payload) := by
  unfold State.postReq State.post
  rw [if_pos hb]
  exact u.domSend_sent 0 rfl _

/-- The payload of a forwarded request has come with it. -/
theorem State.takeJob_forwarded (u : State) (op : Nat) (hb : r.box = fwdBox) :
    u.takeJob (u.newJob op r) = u.applyVerdict (u.newJob op r) (u.verdict op r) := by
  have hread : u.readPayload op r = u := by
    unfold State.readPayload
    split
    · rfl
    · exact if_neg (by simp [hb, fwdBox])
  exact congrArg (State.applyVerdict · (u.newJob op r) (u.verdict op r)) hread

theorem forwardReq_ends_frozen (h : s.hearsDom 0x10 m) (hr : s.role = 1) (hq : fwdRequest m.body = (op, r))
    (hfrozen : s.bake.frozen = true) : Ends (.forwardReq m) s (fun t =>
      Sent t 0 0x11 (respHeader r.tag (Resp.err stNotPermitted 0x0E01) s.bake.epoch)) := by
  have hf := s.domAccepted_frame 0x10 m
  refine ends_of_exec (forwardReq_exec h hr hq) ?_
  have hsent := (s.domAccepted 0x10 m).postReq_sent (fwdRequest_box hq) (Resp.err stNotPermitted 0x0E01)
  unfold State.forwarded
  rw [if_pos ((hf.membership rfl).1.trans hfrozen), ← hf.epoch rfl]
  simpa only [show (Resp.err stNotPermitted 0x0E01).payload = [] from rfl, List.append_nil] using hsent

/-- Where nothing holds it back, the worker runs the request. -/
theorem State.forwarded_runs (hfrozen : u.bake.frozen = false) (hready : u.mbx.ready = true) (hgap : u.pwr.failing = none) :
    u.forwarded op r = u.runForwarded op r := by
  unfold State.forwarded
  rw [if_neg (by simp [hfrozen]), if_pos hready, if_neg (by simp [hgap])]

theorem State.runForwarded_refused {x : Resp} {record : Bool} (hb : r.box = fwdBox) (hv : u.verdict op r = .refuse x record) :
    u.runForwarded op r = (if record then u.recordTag op r x else u).postReq r x := by
  unfold State.runForwarded
  rw [State.takeJob_forwarded u op hb, hv]
  exact if_neg Bool.false_ne_true

theorem forwardReq_ends_refused {x : Resp} {record : Bool} (h : s.hearsDom 0x10 m) (hr : s.role = 1) (hq : fwdRequest m.body = (op, r))
    (hfrozen : s.bake.frozen = false) (hready : s.mbx.ready = true) (hgap : s.pwr.failing = none)
    (hv : (s.domAccepted 0x10 m).verdict op r = .refuse x record) : Ends (.forwardReq m) s (fun t =>
      Sent t 0 0x11 (respHeader r.tag x s.bake.epoch ++ x.payload)) := by
  have hf := s.domAccepted_frame 0x10 m
  refine ends_of_exec (forwardReq_exec h hr hq) ?_
  rw [State.forwarded_runs ((hf.membership rfl).1.trans hfrozen) ((congrArg MbxSt.ready (hf.mbx rfl)).trans hready)
    ((hf.failing_eq rfl).trans hgap), State.runForwarded_refused (fwdRequest_box hq) hv, ← hf.epoch rfl]
  have hbake : (if record then (s.domAccepted 0x10 m).recordTag op r x else s.domAccepted 0x10 m).bake = (s.domAccepted 0x10 m).bake := by
    split <;> rfl
  rw [← hbake]
  exact State.postReq_sent _ (fwdRequest_box hq) x

theorem forwardReq_ends_gap (h : s.hearsDom 0x10 m) (hr : s.role = 1) (hq : fwdRequest m.body = (op, r))
    (hfrozen : s.bake.frozen = false) (hready : s.mbx.ready = true) (hgap : s.pwr.failing ≠ none) : Ends (.forwardReq m) s (fun t =>
      t.mbx.gapCmds = s.mbx.gapCmds ++ [s.newJob op r] ∧ t.mbx.jobs = s.mbx.jobs) := by
  have hf := s.domAccepted_frame 0x10 m
  refine ends_of_exec (forwardReq_exec h hr hq) ?_
  have hready' : (s.domAccepted 0x10 m).mbx.ready = true := (congrArg MbxSt.ready (hf.mbx rfl)).trans hready
  unfold State.forwarded
  rw [if_neg (by simp [(hf.membership rfl).1, hfrozen]), if_pos hready',
    if_pos (by rw [hf.failing_eq rfl]; exact Option.isSome_iff_ne_none.mpr hgap)]
  unfold State.newJob
  rw [hf.nowNs_eq rfl]
  dsimp only
  rw [hf.mbx rfl]
  exact ⟨rfl, rfl⟩

/-! ### A request that ends at once -/

/-- A job that is not ASYNC is queued behind the others, and what the checks go by stands. -/
theorem State.enqueue_last (u : State) (j : Job) (ha : j.req.async = false) : (u.enqueue j).bake = u.bake
    ∧ ∃ b, (u.enqueue j).mbx = { u.mbx with jobs := u.mbx.jobs ++ [{ j with boxed := j.boxed, buf := b }] } := by
  have hroom : (if j.req.indirect then u.poolAlloc j.req.len else (u, none)).1.mbx = u.mbx
      ∧ (if j.req.indirect then u.poolAlloc j.req.len else (u, none)).1.bake = u.bake := by
    split
    · exact ⟨State.poolAlloc_mbx _ _, (State.poolAlloc_mailOnly _ _).bake⟩
    · exact ⟨rfl, rfl⟩
  unfold State.enqueue
  dsimp only
  generalize (if j.req.indirect then u.poolAlloc j.req.len else (u, none)) = a at hroom ⊢
  rw [if_neg (by simp [ha])]
  refine ⟨(State.fillBuf_mailOnly _ _ _).bake.trans hroom.2, a.2, ?_⟩
  dsimp only
  rw [State.fillBuf_mbx, hroom.1, ha, Bool.not_false, Bool.and_true]

/-- The end of a job of a forwarded request sends its response. -/
theorem State.endJob_sent (u : State) (j : Job) (l : List Job) (x : Resp) (hb : j.req.box = fwdBox) (ha : j.req.async = false)
    (hx : j.boxed = true) : Sent (u.endJob j l x) 0 0x11 (respHeader j.req.tag x u.bake.epoch ++ x.payload) := by
  unfold State.endJob
  dsimp only
  have hbake : ((State.freeBuf { u with mbx := { u.mbx with jobs := l } } j.buf).recordTag j.op j.req x).bake = u.bake :=
    (State.freeBuf_mailOnly _ _).bake
  have hsent := State.postReq_sent (r := j.req) (x := x) (hb := hb)
    (u := (State.freeBuf { u with mbx := { u.mbx with jobs := l } } j.buf).recordTag j.op j.req x)
  rw [hbake] at hsent
  unfold State.answerJob
  rw [if_neg (by simp [ha]), if_pos hx]
  exact hsent.awaited (State.postWaiters_awaits _ _ _ _)

theorem State.runForwarded_echo (hb : r.box = fwdBox) (ha : r.async = false) (hjob : u.job? 0x0103 r false = none)
    (hv : u.verdict 0x0103 r = .accept) (hrestart : u.mbx.restarting = none) :
    Sent (u.runForwarded 0x0103 r) 0 0x11 (respHeader r.tag (Resp.ok r.payload) u.bake.epoch ++ r.payload) := by
  obtain ⟨hbake, b, hmbx⟩ := u.enqueue_last (u.newJob 0x0103 r) ha
  have hjobs : (u.enqueue (u.newJob 0x0103 r)).mbx.jobs = u.mbx.jobs ++ [{ u.newJob 0x0103 r with buf := b }] := by rw [hmbx]
  have hrun : (u.enqueue (u.newJob 0x0103 r)).runOp 0x0103 r
      = (u.enqueue (u.newJob 0x0103 r)).endJob { u.newJob 0x0103 r with buf := b } u.mbx.jobs (Resp.ok r.payload) := by
    show (u.enqueue (u.newJob 0x0103 r)).completeNow 0x0103 r (Resp.ok r.payload) = _
    unfold State.completeNow State.endOldest
    rw [State.job?_last hjobs hjob rfl rfl rfl]
    dsimp only
    rw [hjobs, dropJob_last 0x0103 r false _ rfl rfl rfl _ hjob]
  have hall : u.runForwarded 0x0103 r = (u.enqueue (u.newJob 0x0103 r)).endJob { u.newJob 0x0103 r with buf := b } u.mbx.jobs
      (Resp.ok r.payload) := by
    unfold State.runForwarded
    rw [State.takeJob_forwarded u _ hb, hv]
    show ((u.enqueue (u.newJob 0x0103 r)).runOp 0x0103 r).afterCommand = _
    rw [hrun]
    unfold State.afterCommand
    obtain ⟨-, -, -, hsame, -⟩ := (State.endJob_frame (Touch.or_self _) .refl _ _ _).life rfl
    rw [hsame, hmbx, hrestart]
  rw [hall, ← hbake]
  exact State.endJob_sent _ _ _ _ hb ha rfl

theorem forwardReq_ends_echo (h : s.hearsDom 0x10 m) (hr : s.role = 1) (hq : fwdRequest m.body = (0x0103, r))
    (hfrozen : s.bake.frozen = false) (hready : s.mbx.ready = true) (hgap : s.pwr.failing = none) (hrestart : s.mbx.restarting = none)
    (hjob : s.job? 0x0103 r false = none) (ha : r.async = false) (hv : (s.domAccepted 0x10 m).verdict 0x0103 r = .accept) :
    Ends (.forwardReq m) s (fun t => Sent t 0 0x11 (respHeader r.tag (Resp.ok r.payload) s.bake.epoch ++ r.payload)) := by
  have hf := s.domAccepted_frame 0x10 m
  have hmbx := hf.mbx rfl
  refine ends_of_exec (forwardReq_exec h hr hq) ?_
  rw [State.forwarded_runs ((hf.membership rfl).1.trans hfrozen) ((congrArg MbxSt.ready hmbx).trans hready)
    ((hf.failing_eq rfl).trans hgap), ← hf.epoch rfl]
  refine State.runForwarded_echo (fwdRequest_box hq) ha ?_ hv ((congrArg MbxSt.restarting hmbx).trans hrestart)
  unfold State.job? at hjob ⊢
  rwa [hmbx]

end

end Sys2Proof.Machine

end


section
/-! PROOF. The exchange at the manager: votes, acknowledgements, queries, answers to forwarded requests, and the deadlines (R427
to R431); and O59. -/

namespace Sys2Proof.Machine

theorem Frame.dom_eq {w : Touch} {s t : State} (h : Frame w s t) (hw : w.domBake = false) : t.bake.dom = s.bake.dom :=
  (h.domBake hw).1

theorem DomBake.updMember_workers {d : DomBake} {i : Nat} {f : Member → Member} (hf : ∀ x, (f x).idx = x.idx) :
    (d.updMember i f).workers = d.workers := by
  have hidx : ∀ x : Member, (if x.idx = i then f x else x).idx = x.idx := fun x => by
    split
    · exact hf x
    · rfl
  unfold DomBake.workers DomBake.updMember
  dsimp only
  rw [List.map_map]
  simp only [Function.comp_def, hidx]

section

variable {u : State} {d : DomBake}

/-! ### What the exchange comes to -/

theorem State.updDom_dom (hd : u.bake.dom = some d) (f : DomBake → DomBake) : (u.updDom f).bake.dom = some (f d) :=
  congrArg (Option.map f) hd

/-- A failed exchange is over, and every worker of it has been sent ABORT. -/
theorem State.domFail_spec (hd : u.bake.dom = some d) (st det : Nat) : (u.domFail st det).bake.dom = none
    ∧ ∀ i ∈ d.workers, Sent (u.domFail st det) i 0x25 (be 4 d.id ++ be 2 st ++ be 2 det) := by
  have hfail : u.domFail st det
      = ((u.sendAll 0x25 (be 4 d.id ++ be 2 st ++ be 2 det) d.workers).dropDomSet d.id st det).domEnd d st det 0 := by
    unfold State.domFail
    rw [hd]
    rfl
  rw [hfail]
  generalize hall : u.sendAll 0x25 (be 4 d.id ++ be 2 st ++ be 2 det) d.workers = t
  refine ⟨((State.complete_frame (Touch.or_self _) .refl _ _ _).dom_eq rfl), fun i hi => ?_⟩
  have hsent := State.sendAll_sent (type := 0x25) rfl (be 4 d.id ++ be 2 st ++ be 2 det) d.workers u i hi
  rw [hall] at hsent
  have hdrop : t.Awaits (t.dropDomSet d.id st det) := (State.dropDomSet_frame (Touch.or_self _) .refl _ _ _).awaits rfl rfl
  refine (hsent.awaited hdrop).awaited (.trans ?_ (State.complete_awaits _ _ _ _))
  exact .of_eq rfl rfl

/-- The decision of a bake. -/
def State.decided (u : State) (d : DomBake) : State :=
  { u with bake := { u.bake with dom := some { d with decided := true }, outcomes := u.bake.outcomes ++ [(d.id, d.epoch)] } }

/-- The manager's own set gets GO. -/
def State.goOwn (u : State) (d : DomBake) : State :=
  match u.bake.domSet d.id with
  | some b => u.takeGo b d.epoch
  | none => u

theorem State.goOwn_frame (u : State) (d : DomBake) :
    Frame { evt := true, telCtr := true, sets := true, irq := true, out := true } u (u.goOwn d) := by
  unfold State.goOwn
  split
  · exact State.takeGo_frame rfl .refl _ _
  · exact .refl

theorem State.domDecide_eq (hd : u.bake.dom = some d) :
    u.domDecide = (((u.decided d).sendAll 0x24 (be 4 d.id ++ be 4 d.epoch) d.workers).goOwn d) := by
  unfold State.domDecide State.updDom
  rw [hd]
  rfl

/-- GO to the workers, and the outcome recorded. -/
theorem State.domDecide_spec (hd : u.bake.dom = some d) : u.Awaits u.domDecide ∧ u.domDecide.bake.dom = some { d with decided := true }
    ∧ (d.id, d.epoch) ∈ u.domDecide.bake.outcomes ∧ ∀ i ∈ d.workers, Sent u.domDecide i 0x24 (be 4 d.id ++ be 4 d.epoch) := by
  have hsend := State.sendAll_frame 0x24 (be 4 d.id ++ be 4 d.epoch) d.workers (u.decided d)
  have hawait := State.sendAll_awaits 0x24 (be 4 d.id ++ be 4 d.epoch) d.workers (u.decided d)
  have hsent := State.sendAll_sent (type := 0x24) rfl (be 4 d.id ++ be 4 d.epoch) d.workers (u.decided d)
  rw [State.domDecide_eq hd]
  generalize (u.decided d).sendAll 0x24 (be 4 d.id ++ be 4 d.epoch) d.workers = t at *
  have hgo := t.goOwn_frame d
  have hdecided : u.Awaits (u.decided d) := .of_eq rfl rfl
  refine ⟨hdecided.trans (hawait.trans (hgo.awaits rfl rfl)), (hgo.dom_eq rfl).trans (hsend.dom_eq rfl), ?_,
    fun i hi => (hsent i hi).awaited (hgo.awaits rfl rfl)⟩
  rw [(hgo.domBake rfl).2.2, (hsend.domBake rfl).2.2]
  exact List.mem_append_right _ (.head _)

theorem State.domAcked_waits (hd : u.bake.dom = some d) (h : d.members.all (·.acked) = false) : u.domAcked = u := by
  unfold State.domAcked
  rw [hd]
  exact if_neg (by simp [h])

theorem State.domAcked_decides (hd : u.bake.dom = some d) (hu : d.decided = false) (h : d.members.all (·.acked) = true) :
    u.domAcked = u.domDecide := by
  unfold State.domAcked
  rw [hd]
  exact if_pos (by simp [h, hu])

/-- Whether or not every ACK has come, the domain epoch stands, and so do the messages sent. -/
theorem State.domAcked_spec (hd : u.bake.dom = some d) :
    u.Awaits u.domAcked ∧ ∃ x, u.domAcked.bake.dom = some x ∧ x.epoch = d.epoch := by
  unfold State.domAcked
  rw [hd]
  dsimp only
  split
  · obtain ⟨hawait, hdom, -, -⟩ := State.domDecide_spec hd
    exact ⟨hawait, _, hdom, rfl⟩
  · exact ⟨.refl u, d, hd, rfl⟩

/-- The domain epoch of a bake: 1 plus the largest of its members' and the manager's (R431). -/
def DomBake.epochFrom (d : DomBake) (e : Nat) : Nat := nextEpoch ((d.members.map (·.epoch)).foldl max e)

/-- A bake as its COMMIT goes out. -/
def DomBake.committing (d : DomBake) (e : Nat) : DomBake := { (d.updMember 0 (fun m => { m with acked := true })) with epoch := e }

/-- COMMIT to the workers with the domain epoch. -/
theorem State.domCommit_spec (hd : u.bake.dom = some d) : ∃ x, u.domCommit.bake.dom = some x ∧ x.epoch = d.epochFrom u.bake.epoch
    ∧ ∀ i ∈ d.workers, Sent u.domCommit i 0x22 (be 4 d.id ++ be 4 x.epoch) := by
  have hcommit : u.domCommit = ((((u.updDom (fun x => x.committing (d.epochFrom u.bake.epoch))).sendAll 0x22
      (be 4 d.id ++ be 4 (d.epochFrom u.bake.epoch)) d.workers).takeCommit d.id (d.epochFrom u.bake.epoch)).domAcked) := by
    unfold State.domCommit State.updDom
    rw [hd]
    rfl
  rw [hcommit]
  generalize d.epochFrom u.bake.epoch = e
  have hdom := State.updDom_dom hd (fun d => d.committing e)
  have hsend := State.sendAll_frame 0x22 (be 4 d.id ++ be 4 e) d.workers (u.updDom (fun d => d.committing e))
  have hsent := State.sendAll_sent (type := 0x22) rfl (be 4 d.id ++ be 4 e) d.workers (u.updDom (fun d => d.committing e))
  generalize (u.updDom (fun d => d.committing e)).sendAll 0x22 (be 4 d.id ++ be 4 e) d.workers = t at *
  have htake : Frame { sets := true } t (t.takeCommit d.id e) := State.takeCommit_frame rfl .refl _ _
  obtain ⟨hawait, x, hx, he⟩ := State.domAcked_spec (((htake.dom_eq rfl).trans (hsend.dom_eq rfl)).trans hdom)
  have hepoch : x.epoch = e := he
  refine ⟨x, hx, hepoch, fun i hi => ?_⟩
  rw [hepoch]
  exact ((hsent i hi).awaited (htake.awaits rfl rfl)).awaited hawait

end

/-! ### The rows -/

section

variable {s : State} {m : DomIn} {d : DomBake}

/-- A member's vote, as the bake holds it. -/
def Member.vote (m : DomIn) (x : Member) : Member :=
  { x with voted := true, epoch := rdBe m.body 12 4, status := rdBe m.body 6 2, detail := rdBe m.body 8 2 }

/-- A vote of a member that has not voted yet is recorded; a no ends the exchange, the last yes commits it. -/
theorem vote_exec (h : s.hearsDom 0x21 m) (hr : s.role = 2) (hd : s.bake.dom = some d) (hid : d.id = rdBe m.body 0 4)
    (hopen : d.members.any (fun x => x.idx == m.sender && !x.voted) = true) : exec (.vote m) s = .next
      (if rdBe m.body 4 1 ≠ 1 then ((s.domAccepted 0x21 m).updDom (fun d => d.updMember m.sender (Member.vote m))).domFail stCheckFailed 0x0E03
       else if (d.updMember m.sender (Member.vote m)).members.all (·.voted) = true
         then ((s.domAccepted 0x21 m).updDom (fun d => d.updMember m.sender (Member.vote m))).domCommit
       else (s.domAccepted 0x21 m).updDom (fun d => d.updMember m.sender (Member.vote m))) := by
  have hd' := ((s.domAccepted_frame 0x21 m).dom_eq rfl).trans hd
  have hvoted : (d.updMember m.sender (fun x => { x with voted := true })).members.all (·.voted)
      = (d.updMember m.sender (Member.vote m)).members.all (·.voted) := by
    unfold DomBake.updMember
    simp only [List.all_map, Function.comp_def, apply_ite Member.voted, Member.vote]
  rw [exec_atManager h hr rfl]
  generalize s.domAccepted 0x21 m = u at *
  rw [hd']
  dsimp only
  rw [if_pos hid]
  unfold State.domVote
  rw [hd']
  dsimp only
  rw [if_neg (by simp [hopen]), hvoted]
  by_cases hyes : rdBe m.body 4 1 = 1
  · have hnot : ¬ (!(rdBe m.body 4 1 == 1)) = true := by simp [hyes]
    rw [if_neg hnot, if_neg (not_not.mpr hyes)]
    rfl
  · have hnot : (!(rdBe m.body 4 1 == 1)) = true := by simp [hyes]
    rw [if_pos hnot, if_pos hyes]
    rfl

theorem vote_ends (h : s.hearsDom 0x21 m) (hr : s.role = 2) (hd : s.bake.dom = some d) (hid : d.id = rdBe m.body 0 4)
    (hopen : d.members.any (fun x => x.idx == m.sender && !x.voted) = true) :
    (rdBe m.body 4 1 ≠ 1 → Ends (.vote m) s (fun t => t.bake.dom = none
        ∧ ∀ i ∈ d.workers, Sent t i 0x25 (be 4 d.id ++ be 2 stCheckFailed ++ be 2 0x0E03)))
      ∧ (rdBe m.body 4 1 = 1 → (d.updMember m.sender (Member.vote m)).members.all (·.voted) = false →
        Ends (.vote m) s (fun t => t.bake.dom = some (d.updMember m.sender (Member.vote m))))
      ∧ (rdBe m.body 4 1 = 1 → (d.updMember m.sender (Member.vote m)).members.all (·.voted) = true →
        Ends (.vote m) s (fun t => ∃ x, t.bake.dom = some x
          ∧ x.epoch = (d.updMember m.sender (Member.vote m)).epochFrom s.bake.epoch
          ∧ ∀ i ∈ d.workers, Sent t i 0x22 (be 4 d.id ++ be 4 x.epoch))) := by
  have he := vote_exec h hr hd hid hopen
  have hf := s.domAccepted_frame 0x21 m
  have hdom := State.updDom_dom ((hf.dom_eq rfl).trans hd) (fun d => d.updMember m.sender (Member.vote m))
  have hworkers : (d.updMember m.sender (Member.vote m)).workers = d.workers := DomBake.updMember_workers (fun _ => rfl)
  have hepoch : ((s.domAccepted 0x21 m).updDom (fun d => d.updMember m.sender (Member.vote m))).bake.epoch = s.bake.epoch := hf.epoch rfl
  generalize (s.domAccepted 0x21 m).updDom (fun d => d.updMember m.sender (Member.vote m)) = u at *
  refine ⟨fun hno => ?_, fun hyes hall => ?_, fun hyes hall => ?_⟩
  · rw [if_pos hno] at he
    refine ends_of_exec he ?_
    rw [← hworkers]
    exact State.domFail_spec hdom _ _
  · rw [if_neg (by simp [hyes]), if_neg (by simp [hall])] at he
    exact ends_of_exec he hdom
  · rw [if_neg (by simp [hyes]), if_pos hall] at he
    refine ends_of_exec he ?_
    rw [← hworkers, ← hepoch]
    exact State.domCommit_spec hdom

/-- A member that has sent ACK. -/
def Member.ack (x : Member) : Member := { x with acked := true }

theorem ack_exec (h : s.hearsDom 0x23 m) (hr : s.role = 2) (hd : s.bake.dom = some d) (hid : d.id = rdBe m.body 0 4) :
    exec (.ack m) s = .next ((s.domAccepted 0x23 m).updDom (fun d => d.updMember m.sender Member.ack)).domAcked := by
  have hd' := ((s.domAccepted_frame 0x23 m).dom_eq rfl).trans hd
  rw [exec_atManager h hr rfl]
  generalize s.domAccepted 0x23 m = u at *
  rw [hd']
  exact congrArg Host.Outcome.next (if_pos hid)

theorem ack_ends_waiting (h : s.hearsDom 0x23 m) (hr : s.role = 2) (hd : s.bake.dom = some d) (hid : d.id = rdBe m.body 0 4)
    (hall : (d.updMember m.sender Member.ack).members.all (·.acked) = false) :
    Ends (.ack m) s (fun t => t.bake.dom = some (d.updMember m.sender Member.ack)) := by
  have hdom := State.updDom_dom (((s.domAccepted_frame 0x23 m).dom_eq rfl).trans hd) (fun d => d.updMember m.sender Member.ack)
  refine ends_of_exec (ack_exec h hr hd hid) ?_
  rwa [State.domAcked_waits hdom hall]

theorem ack_ends_decided (h : s.hearsDom 0x23 m) (hr : s.role = 2) (hd : s.bake.dom = some d) (hid : d.id = rdBe m.body 0 4)
    (hu : d.decided = false) (hall : (d.updMember m.sender Member.ack).members.all (·.acked) = true) : Ends (.ack m) s (fun t =>
      t.bake.dom = some { d.updMember m.sender Member.ack with decided := true } ∧ (d.id, d.epoch) ∈ t.bake.outcomes
        ∧ ∀ i ∈ d.workers, Sent t i 0x24 (be 4 d.id ++ be 4 d.epoch)) := by
  have hdom := State.updDom_dom (((s.domAccepted_frame 0x23 m).dom_eq rfl).trans hd) (fun d => d.updMember m.sender Member.ack)
  have hworkers : (d.updMember m.sender Member.ack).workers = d.workers := DomBake.updMember_workers (fun _ => rfl)
  refine ends_of_exec (ack_exec h hr hd hid) ?_
  rw [State.domAcked_decides hdom hu hall, ← hworkers]
  exact (State.domDecide_spec hdom).2

/-- A query is answered with the recorded outcome. -/
theorem outcomeQuery_ends_recorded {o : Nat × Nat} (h : s.hearsDom 0x26 m) (hr : s.role = 2)
    (ho : s.bake.outcomes.find? (fun o => o.1 == rdBe m.body 0 4) = some o) : Ends (.outcomeQuery m) s (fun t =>
      Sent t m.sender 0x27 (be 4 (rdBe m.body 0 4) ++ be 1 0 ++ be 3 0 ++ be 4 o.2)) := by
  rw [← ((s.domAccepted_frame 0x26 m).domBake rfl).2.2] at ho
  refine ends_of_exec (exec_atManager h hr rfl) ?_
  dsimp only
  rw [ho]
  exact State.domSend_sent _ _ rfl _

/-- Where no outcome is recorded the bake is aborted. -/
theorem outcomeQuery_ends_unknown (h : s.hearsDom 0x26 m) (hr : s.role = 2)
    (ho : s.bake.outcomes.find? (fun o => o.1 == rdBe m.body 0 4) = none) : Ends (.outcomeQuery m) s (fun t =>
      Sent t m.sender 0x27 (be 4 (rdBe m.body 0 4) ++ be 1 1 ++ be 3 0 ++ be 4 0)) := by
  rw [← ((s.domAccepted_frame 0x26 m).domBake rfl).2.2] at ho
  refine ends_of_exec (exec_atManager h hr rfl) ?_
  dsimp only
  rw [ho]
  exact State.domSend_sent _ _ rfl _

/-- What the answer to the forwarded request `f` tells of its worker's sets. -/
def State.noted (s : State) (m : DomIn) (f : Nat × Req) : State :=
  s.updPeer m.sender (fun e => { e with changes := changesAfter e.changes (f.2.payload.drop 4) m.body })

theorem State.noted_changes (s : State) (m : DomIn) (f : Nat × Req) : ((s.noted m f).peer m.sender).changes
    = changesAfter (s.peer m.sender).changes (f.2.payload.drop 4) m.body := by
  unfold State.noted State.updPeer State.peer
  rw [Tab.get_upd_same]

/-- The same, with the request no longer waiting. -/
def State.unforwarded (s : State) (m : DomIn) (f : Nat × Req) : State :=
  let t := s.noted m f
  { t with bake := { t.bake with fwdReqs := t.bake.fwdReqs.erase f } }

/-- The answer to a forwarded request ends it, and tells the manager of the worker's sets. -/
theorem forwardRsp_ends {f : Nat × Req} (h : s.hearsDom 0x11 m) (hr : s.role = 2)
    (hq : s.bake.fwdReqs.find? (fun f => f.1 == m.sender && rd f.2.payload 8 4 == rd m.body 0 4) = some f) :
    Ends (.forwardRsp m) s (fun t => t.bake.fwdReqs = s.bake.fwdReqs.erase f
      ∧ (t.peer m.sender).changes = changesAfter (s.peer m.sender).changes (f.2.payload.drop 4) m.body) := by
  have hf := s.domAccepted_frame 0x11 m
  have hchanges := (s.domAccepted_awaits 0x11 m).changes m.sender
  refine ends_of_exec (exec_atManager h hr rfl) ?_
  rw [← hf.fwdReqs rfl] at hq ⊢
  rw [← hchanges]
  generalize s.domAccepted 0x11 m = u at *
  have hmine : u.bake.fwdReqs.find? (fun f => f.1 == m.sender && fwdTag (rd m.body 0 4) f.2) = some f := hq
  have hnote : u.fwdNote m = u.noted m f := by
    unfold State.fwdNote
    rw [hmine]
    rfl
  have hanswer : (u.noted m f).fwdAnswer m.sender (fwdTag (rd m.body 0 4)) (Resp.ok m.body)
      = (u.unforwarded m f).complete 0x0E04 f.2 (Resp.ok m.body) := by
    unfold State.fwdAnswer
    rw [show (u.noted m f).bake.fwdReqs = u.bake.fwdReqs from rfl, hmine]
    rfl
  rw [hnote, hanswer]
  refine ⟨(State.complete_frame (Touch.or_self _) .refl _ _ _).fwdReqs rfl, ((State.complete_awaits _ _ _ _).changes _).trans ?_⟩
  exact State.noted_changes u m f

theorem voteDeadline_ends (hd : s.bake.dom = some d) (h : d.members.all (·.voted) = false) :
    Ends .voteDeadline s (fun t => t.bake.dom = none ∧ ∀ i ∈ d.workers, Sent t i 0x25 (be 4 d.id ++ be 2 stTimeout ++ be 2 0x0E04)) := by
  refine ends_of_exec (t := s.domFail stTimeout 0x0E04) ?_ (State.domFail_spec hd _ _)
  show execVoteDeadline s = _
  unfold execVoteDeadline
  rw [hd]
  exact congrArg Host.Outcome.next (if_neg (by simp [h]))

theorem ackDeadline_ends (hd : s.bake.dom = some d) (h : d.decided = false) :
    Ends .ackDeadline s (fun t => t.bake.dom = none ∧ ∀ i ∈ d.workers, Sent t i 0x25 (be 4 d.id ++ be 2 stTimeout ++ be 2 0x0E05)) := by
  refine ends_of_exec (t := s.domFail stTimeout 0x0E05) ?_ (State.domFail_spec hd _ _)
  show execAckDeadline s = _
  unfold execAckDeadline
  rw [hd]
  exact congrArg Host.Outcome.next (if_neg (by simp [h]))

theorem voteDeadline_idles (h : ∀ d, s.bake.dom = some d → d.members.all (·.voted) = true) : Idles .voteDeadline s := by
  show execVoteDeadline s = _
  unfold execVoteDeadline
  cases hd : s.bake.dom with
  | none => rfl
  | some d => exact congrArg Host.Outcome.next (if_pos (h d hd))

theorem ackDeadline_idles (h : ∀ d, s.bake.dom = some d → d.decided = true) : Idles .ackDeadline s := by
  show execAckDeadline s = _
  unfold execAckDeadline
  cases hd : s.bake.dom with
  | none => rfl
  | some d => exact congrArg Host.Outcome.next (if_pos (h d hd))

end

/-! ### The obligation -/

/-- Settles O59: a received message acts in the state that has accepted it, in which only counters, the sender's record and the
messages have moved; each act is one operation of the exchange, and what it has sent stays to be confirmed. -/
theorem domainExchangeRows : Obligations.DomainExchangeRows := by
  unfold Obligations.DomainExchangeRows
  refine ⟨fun s m h hr => ?_, fun s m b hr hb => ?_, fun s b hr hb hd hg hf => ⟨fun hq => ?_, fun ha hi => ?_⟩, fun s hor => ?_,
    fun s m d hr hd hid => ?_, fun s m hr => ?_, fun s => ?_, fun s m op r h hr hq => ?_⟩
  · intro id at' u hnone
    exact ⟨fun e he => prepare_ends_late h hr hnone he, fun b hset hlead hopen hin hbusy hcheck =>
      prepare_ends_preparing h hr hnone hset hlead hopen hin hbusy hcheck⟩
  · intro gone
    have hdom : ∀ ty, (s.domAccepted ty m).bake.domSet (rdBe m.body 0 4) = some b := fun ty =>
      (congrFun ((s.domAccepted_frame ty m).domSet_eq rfl) _).trans hb
    refine ⟨fun h ha => commit_ends h hr hb ha, fun h ha hg => ?_, fun h ha hg hres => ?_, fun h hc => ?_,
      fun hc hrest => ⟨fun h => ?_, fun h hres => ?_⟩⟩
    · exact ends_of_exec (exec_atWorker h hr rfl) (gotGo_set? 0x24 _ hb ha hg)
    · refine ends_of_exec (exec_atWorker h hr rfl) ?_
      rw [if_pos hres]
      exact (gotGo_set? 0x27 _ hb ha hg).1
    · refine ends_of_exec (exec_atWorker h hr rfl) ?_
      rw [State.dropDomSet_committed (hdom _) hc]
      exact ((s.domAccepted_frame 0x25 m).sets rfl).1
    · exact ends_of_exec (exec_atWorker h hr rfl) (State.dropDomSet_set? (hdom _) hc hrest)
    · refine ends_of_exec (exec_atWorker h hr rfl) ?_
      rw [if_neg hres]
      exact State.dropDomSet_set? (hdom _) hc hrest
  · exact outcomeQueryTimer_ends hb ⟨hr, hd, hq, by simp [hg], by simp [hf]⟩
  · refine outcomeQueryTimer_idles (fun x hx => ?_)
    rintro ⟨-, -, hasks, -⟩
    rw [hb, Option.some.injEq] at hx
    subst hx
    simp [ha, hi] at hasks
  · refine outcomeQueryTimer_idles (fun x hx => ?_)
    rintro ⟨hr, -⟩
    rcases hor with h | h
    · exact h hr
    · simp [h] at hx
  · intro v a
    refine ⟨fun h hopen => vote_ends h hr hd hid hopen, fun h hall => ack_ends_waiting h hr hd hid hall, fun h hu hall =>
      ack_ends_decided h hr hd hid hu hall⟩
  · exact ⟨fun o h ho => outcomeQuery_ends_recorded h hr ho, fun h ho => outcomeQuery_ends_unknown h hr ho,
      fun f h hq => forwardRsp_ends h hr hq⟩
  · refine ⟨fun hnone => ⟨voteDeadline_idles (by simp [hnone]), ackDeadline_idles (by simp [hnone])⟩, fun d hd =>
      ⟨fun h => voteDeadline_idles ?_, fun h => ackDeadline_idles ?_, voteDeadline_ends hd, ackDeadline_ends hd⟩⟩
    · rintro x hx
      rw [hd, Option.some.injEq] at hx
      rwa [← hx]
    · rintro x hx
      rw [hd, Option.some.injEq] at hx
      rwa [← hx]
  · intro u
    refine ⟨forwardReq_ends_frozen h hr hq, fun hf hready hgap x b hv => forwardReq_ends_refused h hr hq hf hready hgap hv, ?_,
      forwardReq_ends_gap h hr hq⟩
    rintro hf hready hgap hrestart hjob rfl ha hv
    exact forwardReq_ends_echo h hr hq hf hready hgap hrestart hjob ha hv

end Sys2Proof.Machine

end


section
/-! PROOF. No command adds to the jobs that wait with a request: the body of a command leaves the queue alone, or completes
commands that run. A command that Moaras takes therefore leaves one fewer of its kind waiting (R394). -/

namespace Sys2Proof.Machine

/-! ### Jobs that wait -/

section

variable {op : Nat} {r : Req}

/-- A job waits with a request. -/
def Job.waitsWith (op : Nat) (r : Req) (j : Job) : Bool := j.op == op && j.req == r && !j.running

theorem Job.waitsWith_iff {j : Job} : j.waitsWith op r = true ↔ j.op = op ∧ j.req = r ∧ j.running = false := by
  simp [Job.waitsWith, and_assoc]

theorem Job.waitsWith_found (j : Job) : (j.op == op && j.req == r && j.running == false) = j.waitsWith op r := by
  unfold Job.waitsWith
  cases j.running <;> rfl

theorem State.job?_waiting (s : State) : s.job? op r false = s.mbx.jobs.find? (Job.waitsWith op r) := by
  unfold State.job?
  simp only [Job.waitsWith_found]

theorem State.waitingLike_eq (s : State) : s.waitingLike op r = (s.mbx.jobs.filter (Job.waitsWith op r)).length := rfl

theorem dropJob_sublist (op : Nat) (r : Req) (run : Bool) : ∀ l : List Job, (dropJob op r run l).Sublist l
  | [] => .slnil
  | j :: l => by
    unfold dropJob
    split
    · exact List.sublist_cons_self j l
    · exact (dropJob_sublist op r run l).cons_cons j

/-- Of the jobs that wait with a request, the first is taken. -/
theorem dropJob_waits : ∀ l : List Job, l.find? (Job.waitsWith op r) ≠ none →
    ((dropJob op r false l).filter (Job.waitsWith op r)).length < (l.filter (Job.waitsWith op r)).length
  | [], h => absurd rfl h
  | j :: l, h => by
    unfold dropJob
    by_cases hj : j.waitsWith op r = true
    · rw [if_pos (Job.waitsWith_iff.mp hj), List.filter_cons_of_pos hj]
      exact Nat.lt_succ_self _
    · rw [if_neg (mt Job.waitsWith_iff.mpr hj), List.filter_cons_of_neg hj, List.filter_cons_of_neg hj]
      exact dropJob_waits l (by rwa [List.find?_cons_of_neg hj] at h)

/-- Of the jobs that wait with a request, the first goes on running. -/
theorem startJob_waits : ∀ l : List Job, l.find? (Job.waitsWith op r) ≠ none →
    ((startJob op r l).filter (Job.waitsWith op r)).length < (l.filter (Job.waitsWith op r)).length
  | [], h => absurd rfl h
  | j :: l, h => by
    unfold startJob
    by_cases hj : j.waitsWith op r = true
    · rw [if_pos (Job.waitsWith_iff.mp hj), List.filter_cons_of_pos hj, List.filter_cons_of_neg (by simp [Job.waitsWith])]
      exact Nat.lt_succ_self _
    · rw [if_neg (mt Job.waitsWith_iff.mpr hj), List.filter_cons_of_neg hj, List.filter_cons_of_neg hj]
      exact startJob_waits l (by rwa [List.find?_cons_of_neg hj] at h)

theorem State.job?_ne_none_iff {s : State} : s.job? op r false ≠ none ↔ 0 < s.waitingLike op r := by
  rw [State.job?_waiting, State.waitingLike_eq, ← Option.isSome_iff_ne_none, List.find?_isSome, List.length_pos_iff_exists_mem]
  simp

end

/-! ### Operations that add no job that waits -/

section

variable {s t u : State}

/-- No more jobs wait with any request at `t` than at `s`. -/
def State.Fewer (s t : State) : Prop := ∀ op r, t.waitingLike op r ≤ s.waitingLike op r

theorem State.Fewer.refl (s : State) : s.Fewer s := fun _ _ => le_rfl

theorem State.Fewer.trans (h : s.Fewer t) (k : t.Fewer u) : s.Fewer u := fun op r => (k op r).trans (h op r)

theorem State.Fewer.of_sublist (h : t.mbx.jobs.Sublist s.mbx.jobs) : s.Fewer t := fun op r =>
  (h.filter (Job.waitsWith op r)).length_le

theorem State.Fewer.of_eq (h : t.mbx.jobs = s.mbx.jobs) : s.Fewer t := .of_sublist (by rw [h])

theorem Frame.fewer {w : Touch} (h : Frame w s t) (hw : w.jobs = false) : s.Fewer t := .of_eq (h.jobs hw).1

theorem State.post_jobs (s : State) (b tag : Nat) (ind : Bool) (addr : Nat) (x : Resp) :
    (s.post b tag ind addr x).mbx.jobs = s.mbx.jobs :=
  ((State.post_frame (Touch.or_self _) .refl _ _ _ _ _).jobs rfl).1

theorem State.postWaiters_jobs (tag : Nat) (x : Resp) : ∀ (l : List (Nat × Bool × Nat)) (s : State),
    (s.postWaiters tag x l).mbx.jobs = s.mbx.jobs
  | [], _ => rfl
  | _ :: l, s => (State.postWaiters_jobs tag x l _).trans (s.post_jobs _ _ _ _ _)

theorem State.endJob_jobs (s : State) (j : Job) (l : List Job) (x : Resp) : (s.endJob j l x).mbx.jobs = l := by
  unfold State.endJob
  dsimp only
  rw [State.postWaiters_jobs, ((State.answerJob_frame (Touch.or_self _) .refl _ _).jobs rfl).1,
    ((State.recordTag_frame (Touch.or_self _) .refl _ _ _).jobs rfl).1, State.freeBuf_mbx]

theorem State.endOldest_fewer (s : State) (op : Nat) (r : Req) (run : Bool) (x : Resp) : s.Fewer (s.endOldest op r run x) := by
  unfold State.endOldest
  split
  · exact .refl s
  · exact .of_sublist (by rw [State.endJob_jobs]; exact dropJob_sublist op r run _)

theorem State.answerSet_fewer (s : State) (b : SetSt) (x : Resp) : s.Fewer (s.answerSet b x) := by
  unfold State.answerSet
  split
  · exact s.endOldest_fewer _ _ _ _
  · exact .refl s

theorem State.domEnd_fewer (s : State) (d : DomBake) (st det epoch : Nat) : s.Fewer (s.domEnd d st det epoch) := by
  have hover : s.Fewer { s with bake := { s.bake with dom := none } } := .of_eq rfl
  exact hover.trans (State.endOldest_fewer _ _ _ _ _)

theorem State.domFail_fewer (s : State) (st det : Nat) : s.Fewer (s.domFail st det) := by
  unfold State.domFail
  split
  · exact .refl s
  next d _ =>
    have hsend := (State.sendAll_frame 0x25 (be 4 d.id ++ be 2 st ++ be 2 det) d.workers s).fewer rfl
    have hdrop := fun t : State => (State.dropDomSet_frame (s := t) (Touch.or_self _) .refl d.id st det).fewer rfl
    exact hsend.trans ((hdrop _).trans (State.domEnd_fewer _ d st det 0))

theorem State.domVote_fewer (s : State) (i : Nat) (yes : Bool) (st det epoch : Nat) : s.Fewer (s.domVote i yes st det epoch) := by
  have hupd : ∀ f, s.Fewer (s.updDom f) := fun f => .of_eq rfl
  unfold State.domVote
  split
  · exact .refl s
  · split
    · exact .refl s
    · dsimp only
      split
      · exact (hupd _).trans (State.domFail_fewer _ _ _)
      · split
        · exact (hupd _).trans ((State.domCommit_frame (Touch.or_self _) .refl).fewer rfl)
        · exact hupd _

theorem State.domOwn_fewer (s : State) (d : DomBake) : s.Fewer (s.domOwn d) := by
  have hstart := fun id f => (State.startBake_frame (Touch.or_self _) (.refl (s := s)) id f).fewer rfl
  unfold State.domOwn
  split
  · exact .refl s
  next m _ =>
    have hk := hstart m.set (fun t =>
      { t with domain := true, several := decide (1 < d.members.length), bakeId := d.id, sec := d.sec, ns := d.ns })
    split
    next u e => rwa [e] at hk
    next u x e =>
      rw [e] at hk
      exact hk.trans (State.domVote_fewer _ _ _ _ _ _)

theorem State.domBegin_fewer (s : State) (d : DomBake) : s.Fewer (s.domBegin d) := by
  have hdom : s.Fewer { s with bake := { s.bake with dom := some d, nextBake := (s.bake.nextBake + 1) % 2 ^ 32 } } :=
    .of_eq rfl
  refine hdom.trans (.trans ?_ (State.domOwn_fewer _ d))
  exact (Frame.foldl _ (fun _ i hF => State.domSend_frame (Touch.or_self _) hF i _ _) _ .refl).fewer rfl

theorem State.reopenAnswer_fewer (s : State) (b : SetSt) (x : Resp) : s.Fewer ((s.reopen b).answerSet b x) :=
  ((State.reopen_frame (Touch.or_self _) .refl b).fewer rfl).trans (State.answerSet_fewer _ b x)

theorem State.freeDomSet_fewer (s : State) : s.Fewer s.freeDomSet := by
  unfold State.freeDomSet State.freeSet
  split
  · split
    · split
      · exact .refl s
      · exact s.reopenAnswer_fewer _ _
    · exact .refl s
  · exact .refl s

theorem State.withdraw_fewer (s : State) (b : SetSt) : s.Fewer (s.withdraw b) := by
  unfold State.withdraw
  split
  · exact s.domFail_fewer _ _
  · exact s.reopenAnswer_fewer _ _

theorem State.domFinish_fewer (s : State) (st det : Nat) : s.Fewer (s.domFinish st det) := by
  unfold State.domFinish
  split
  · split
    · exact s.domEnd_fewer _ _ _ _
    · exact .refl s
  · exact .refl s

/-- A set as it bakes, before the tables switch. -/
def State.switching (s : State) (b : SetSt) : State :=
  { s with bake := s.bake.updSet b.id (fun b => { b with state := .baked, committed := true, inDoubt := false }) }
theorem State.bakeSet_fewer (s : State) (b : SetSt) : s.Fewer (s.bakeSet b) := by
  unfold State.bakeSet
  dsimp only
  refine .trans ?_ (State.answerSet_fewer _ b _)
  refine .trans ?_ ((State.raiseUpIf_frame (Touch.or_self _) .refl _ _ _ _).fewer rfl)
  refine .trans ?_ ((State.raiseUp_frame (Touch.or_self _) .refl _ _ _).fewer rfl)
  exact .of_eq ((State.switchAll_frame (Touch.or_self _) (.refl (s := s.switching b)) b.cmds).jobs rfl).1

theorem State.regionFail_fewer (s : State) (b : SetSt) : s.Fewer (s.regionFail b) := by
  have hopen := ((State.reopen_frame (Touch.or_self _) (.refl (s := s)) b).fewer rfl).trans
    ((State.tellFailed_frame (Touch.or_self _) .refl b.id stCheckFailed 0x0C02).fewer rfl)
  unfold State.regionFail
  dsimp only
  split
  · exact hopen.trans (State.domFinish_fewer _ _ _)
  · exact hopen.trans (State.answerSet_fewer _ _ _)

theorem State.bakeOwn_fewer (s : State) (b : SetSt) : s.Fewer (s.bakeOwn b) := by
  unfold State.bakeOwn
  split
  · exact (s.bakeSet_fewer b).trans (State.domFinish_fewer _ _ _)
  · exact s.bakeSet_fewer b

theorem State.instantOf_fewer (s : State) (b : SetSt) : s.Fewer (s.instantOf b) := by
  have hskew := (State.skewCheck_frame (Touch.or_self _) (.refl (s := s)) b).fewer rfl
  refine hskew.trans ?_
  unfold State.instantOf
  dsimp only
  generalize s.skewCheck b = u
  split
  · split
    · exact .refl u
    · have hdoubt : u.Fewer { u with bake := u.bake.updSet b.id (fun t => { t with inDoubt := true }) } :=
        .of_eq rfl
      exact hdoubt.trans ((State.raiseUp_frame (Touch.or_self _) .refl _ _ _).fewer rfl)
  · split
    · split
      · exact u.bakeOwn_fewer b
      · exact u.regionFail_fewer b
    · exact u.bakeOwn_fewer b

theorem State.domDue_fewer (s : State) : s.Fewer s.domDue := by
  unfold State.domDue
  split
  · split
    · exact s.domFinish_fewer _ _
    · exact .refl s
  · exact .refl s

theorem State.stepPast_fewer (s : State) : s.Fewer s.stepPast := by
  unfold State.stepPast
  refine .trans ?_ (State.domDue_fewer _)
  split
  · exact .refl s
  · split
    · exact .refl s
    · split
      · exact s.instantOf_fewer _
      · exact (s.instantOf_fewer _).trans ((State.raiseUp_frame (Touch.or_self _) .refl _ _ _).fewer rfl)

end

end Sys2Proof.Machine

end


section
/-! PROOF. The bodies of the commands add no job that waits; what a command row does before its command runs (R384, R390 to
R394); and O12. -/

namespace Sys2Proof.Machine

/-! ### The bodies that complete other commands -/

section

variable {op : Nat} {b : Body}

theorem State.timeStep_fewer (s : State) (o cause units : Nat) : s.Fewer (s.timeStep o cause units) := by
  unfold State.timeStep
  dsimp only
  refine .trans ?_ (State.stepPast_fewer _)
  refine .trans ?_ ((Frame.foldl _ (fun _ p hF => State.gateReset_frame (Touch.or_self _) hF p) _ .refl).fewer rfl)
  split
  · exact ((State.setTimeState_frame (Touch.or_self _) (State.raise_frame rfl .refl _ _ _) _).fewer rfl)
  · exact .of_eq rfl

theorem timeAdjustBody_fewer (r : Req) (s : State) : s.Fewer (timeAdjustBody r s).1 := by
  unfold timeAdjustBody
  dsimp only
  split
  · exact .refl s
  · split
    · exact .refl s
    · split
      · split
        · exact .of_eq rfl
        · exact .refl s
      · split
        · exact .of_eq rfl
        · exact .refl s
      · split
        · exact s.timeStep_fewer _ _ _
        · exact .refl s
      · split
        · exact s.timeStep_fewer _ _ _
        · exact .refl s
      · exact .refl s

theorem bakeAbortBody_fewer (r : Req) (s : State) : s.Fewer (bakeAbortBody r s).1 := by
  unfold bakeAbortBody
  split
  · exact .refl s
  · split
    · exact .of_eq rfl
    · split
      · exact .refl s
      · exact s.withdraw_fewer _

theorem domBakeBody_fewer (r : Req) (s : State) : s.Fewer (domBakeBody r s).1 := by
  unfold domBakeBody
  dsimp only
  split
  · exact .refl s
  · split
    · exact .refl s
    · split
      · exact .refl s
      · split
        · exact .refl s
        · exact s.domBegin_fewer _

theorem domAbortBody_fewer (r : Req) (s : State) : s.Fewer (domAbortBody r s).1 := by
  unfold domAbortBody
  split
  · exact .refl s
  · split
    · exact .refl s
    · exact s.domFail_fewer _ _

theorem domLeaveBody_fewer (r : Req) (s : State) : s.Fewer (domLeaveBody r s).1 := by
  have hleft : s.Fewer (s.updPeer 0 (fun _ => Peer.init)) := .of_eq rfl
  have hset := State.freeDomSet_fewer (s.updPeer 0 (fun _ => Peer.init))
  exact (hleft.trans hset).trans (.of_eq rfl)

theorem bodies08_fewer (e : bodies08 op = some b) (r : Req) (s : State) : s.Fewer (b r s).1 := by
  unfold bodies08 at e
  split at e
  · cases e; exact (timeGetBody_frame (Touch.or_self _) .refl r).fewer rfl
  · cases e; exact timeAdjustBody_fewer r s
  · cases e; exact (timeSetPtpBody_frame (Touch.or_self _) .refl r).fewer rfl
  · cases e; exact (timeSetPortBody_frame (Touch.or_self _) .refl r).fewer rfl
  · cases e; exact (timeSetPpsBody_frame (Touch.or_self _) .refl r).fewer rfl
  · cases e; exact (gateSetListBody_frame (Touch.or_self _) .refl r).fewer rfl
  · cases e; exact (gateGetStatusBody_frame (Touch.or_self _) .refl r).fewer rfl
  · cases e; exact (timeGetCountersBody_frame (Touch.or_self _) .refl r).fewer rfl
  · cases e

theorem bodies0D_fewer (e : bodies0D op = some b) (r : Req) (s : State) : s.Fewer (b r s).1 := by
  unfold bodies0D at e
  split at e
  · cases e; exact (bakeOpenBody_frame (Touch.or_self _) .refl r).fewer rfl
  · cases e; exact (bakeCheckBody_frame (Touch.or_self _) .refl r).fewer rfl
  · cases e; exact (bakeCommitBody_frame (Touch.or_self _) .refl r).fewer rfl
  · cases e; exact bakeAbortBody_fewer r s
  · cases e; exact (bakeGetSetBody_frame (Touch.or_self _) .refl r).fewer rfl
  · cases e

theorem bodies0E_fewer (e : bodies0E op = some b) (r : Req) (s : State) : s.Fewer (b r s).1 := by
  unfold bodies0E at e
  split at e
  · cases e; exact (domSetPortBody_frame (Touch.or_self _) .refl r).fewer rfl
  · cases e; exact (domAdmitBody_frame (Touch.or_self _) .refl r).fewer rfl
  · cases e; exact (domGetStatusBody_frame (Touch.or_self _) .refl r).fewer rfl
  · cases e; exact (domForwardBody_frame (Touch.or_self _) .refl r).fewer rfl
  · cases e; exact domBakeBody_fewer r s
  · cases e; exact domAbortBody_fewer r s
  · cases e; exact domLeaveBody_fewer r s
  · cases e

/-- The body of every command adds no job that waits. -/
theorem bodyOf_fewer (e : bodyOf op = some b) (r : Req) (s : State) : s.Fewer (b r s).1 := by
  unfold bodyOf at e
  split at e
  · exact (bodies01_frame e s r).fewer rfl
  · exact (bodies02_frame e s r).fewer rfl
  · exact (bodies03_frame e s r).fewer rfl
  · exact (bodies04_frame e s r).fewer rfl
  · exact (bodies05_frame e s r).fewer rfl
  · exact (bodies06_frame e s r).fewer rfl
  · exact (bodies07_frame e s r).fewer rfl
  · exact bodies08_fewer e r s
  · exact (bodies09_frame e s r).fewer rfl
  · exact (bodies0A_frame e s r).fewer rfl
  · exact (bodies0B_frame e s r).fewer rfl
  · exact (bodies0C_frame e s r).fewer rfl
  · exact bodies0D_fewer e r s
  · exact bodies0E_fewer e r s
  · exact (bodies0F_frame e s r).fewer rfl
  · exact (bodies10_frame e s r).fewer rfl
  · exact (bodies11_frame e s r).fewer rfl
  · cases e

end

/-! ### A command that is taken -/

section

variable {s : State} {op : Nat} {r : Req} {b : Body}

/-- A command that Moaras takes leaves one fewer of its kind waiting. -/
theorem State.runJob_fewer (e : bodyOf op = some b) (hj : s.job? op r false ≠ none) :
    (s.runJob op r b).waitingLike op r < s.waitingLike op r := by
  have hle := bodyOf_fewer e r s op r
  have hpos := State.job?_ne_none_iff.mp hj
  unfold State.runJob
  generalize (b r s).1 = t at hle ⊢
  cases (b r s).2 with
  | some x =>
    show (t.endOldest op r false x).waitingLike op r < _
    unfold State.endOldest
    split
    next hnone =>
      have hzero : ¬ 0 < t.waitingLike op r := fun h => State.job?_ne_none_iff.mpr h hnone
      omega
    next j hsome =>
      refine lt_of_lt_of_le ?_ hle
      rw [State.waitingLike_eq, State.endJob_jobs]
      refine dropJob_waits _ ?_
      rw [← State.job?_waiting, hsome]
      exact Option.some_ne_none j
  | none =>
    dsimp only
    split
    next hlt => exact hlt
    next hge =>
      refine lt_of_lt_of_le ?_ hle
      refine startJob_waits _ ?_
      rw [← State.job?_waiting]
      exact State.job?_ne_none_iff.mpr (by omega)

/-- A row of a mailbox command, with the body that its opcode has. -/
def IsRow (c : Nat × (Req → Instr)) : Prop :=
  ∃ b, bodyOf c.1 = some b ∧ ∀ (r : Req) (s : State), exec (c.2 r) s = mailboxCommand c.1 b r s

theorem isRow_of_mem : ∀ c ∈ mailboxCommands, IsRow c := by
  simp only [mailboxCommands, List.cons_append, List.nil_append]
  repeat' refine List.forall_mem_cons.mpr ⟨⟨_, rfl, fun _ _ => rfl⟩, ?_⟩
  exact List.forall_mem_nil _

end

end Sys2Proof.Machine

end


section
/-! PROOF. What a command row does before its command runs (R266, R343, R382, R384, R390 to R394); and O12. -/

namespace Sys2Proof.Machine

section

variable {s : State} {op : Nat} {r : Req} {c : Nat × (Req → Instr)}

/-! ### A request that is queued -/

/-- The queue up to the first job with a request is what holds its command back. -/
theorem State.heldBack_queued {j : Job} {l m : List Job} (h : s.queued op r j l m)
    (hl : ∀ k ∈ l, ¬(k.op = op ∧ k.req = r ∧ k.running = false)) :
    s.heldBack op r = l.any (fun k => k.precedes op r) ∧ s.job? op r false = some j := by
  obtain ⟨-, hjobs, hop, hreq, hrun⟩ := h
  have hj : j.waitsWith op r = true := Job.waitsWith_iff.mpr ⟨hop, hreq, hrun⟩
  have hnone : ∀ k ∈ l, k.waitsWith op r = false := fun k hk => by
    simpa using mt Job.waitsWith_iff.mp (hl k hk)
  constructor
  · unfold State.heldBack
    rw [hjobs]
    show (List.takeWhile (fun j => !j.waitsWith op r) (l ++ j :: m)).any _ = _
    rw [List.takeWhile_append_of_pos (by simpa using hnone), List.takeWhile_cons_of_neg (by simp [hj]), List.append_nil]
  · rw [State.job?_waiting, hjobs, List.find?_append, List.find?_eq_none.mpr (by simpa using hnone), List.find?_cons_of_pos hj]
    rfl

theorem queued_idles (hc : c ∈ mailboxCommands) {j : Job} {l m : List Job} (h : s.queued c.1 r j l m)
    (hl : ∀ k ∈ l, ¬(k.op = c.1 ∧ k.req = r ∧ k.running = false))
    (hwait : s.pwr.failing.isSome = true ∨ ∃ k ∈ l, k.precedes c.1 r = true) : Idles (c.2 r) s := by
  obtain ⟨b, -, he⟩ := isRow_of_mem c hc
  obtain ⟨hheld, hjob⟩ := State.heldBack_queued h hl
  unfold Idles
  rw [he]
  unfold mailboxCommand State.command
  rw [if_pos h.1, hjob]
  dsimp only
  rw [if_pos (by rw [hheld, List.any_eq_true]; exact hwait)]

theorem queued_ends (hc : c ∈ mailboxCommands) {j : Job} {l m : List Job} (h : s.queued c.1 r j l m)
    (hl : ∀ k ∈ l, ¬(k.op = c.1 ∧ k.req = r ∧ k.running = false)) (hgap : s.pwr.failing = none)
    (hnone : ∀ k ∈ l, k.precedes c.1 r = false) : Ends (c.2 r) s (fun t => t.waitingLike c.1 r < s.waitingLike c.1 r) := by
  obtain ⟨b, hb, he⟩ := isRow_of_mem c hc
  obtain ⟨hheld, hjob⟩ := State.heldBack_queued h hl
  refine ends_of_exec (t := s.runJob c.1 r b) ?_ (State.runJob_fewer hb (by simp [hjob]))
  rw [he]
  unfold mailboxCommand State.command
  rw [if_pos h.1, hjob]
  dsimp only
  rw [if_neg (by simpa [hgap, hheld] using hnone)]

/-! ### A doorbell that the row stands for -/

/-- Where the doorbell does not begin the command, the row is the doorbell. -/
theorem submit_exec (hc : c ∈ mailboxCommands) (hb : r.box < 32) (hj : s.job? c.1 r false = none) {t : State}
    (h : s.submit c.1 r = (t, false)) : exec (c.2 r) s = .next t := by
  obtain ⟨b, -, he⟩ := isRow_of_mem c hc
  rw [he]
  unfold mailboxCommand State.command
  rw [if_pos hb, hj, h]
  dsimp only
  rw [if_neg (by simp)]

theorem State.submit_deaf (h : (s.host.link (s.boxFn r.box)).d3 = true) : s.submit op r = (s, false) := if_pos h

theorem State.submit_again (h : (s.host.link (s.boxFn r.box)).d3 = false) (hs : (s.box r.box).state = .submitted) :
    s.submit op r = (s.protocolError r.box 0, false) := by
  unfold State.submit
  rw [if_neg (by simp [h]), if_pos hs]

theorem State.submit_notReady (h : (s.host.link (s.boxFn r.box)).d3 = false) (hs : (s.box r.box).state ≠ .submitted)
    (hr : s.mbx.ready = false) :
    s.submit op r = ((s.accept r.box).postReq r { Resp.err stBusy dNotReady with epoch := some 0 }, false) := by
  unfold State.submit
  rw [if_neg (by simp [h]), if_neg hs]
  dsimp only
  rw [if_neg (by simp [hr])]

/-- The command of a mailbox waits for the new active processor. -/
def State.waitsGap (s : State) (j : Job) : State := { s with mbx := { s.mbx with gapCmds := s.mbx.gapCmds ++ [j] } }

theorem State.submit_gap (h : (s.host.link (s.boxFn r.box)).d3 = false) (hs : (s.box r.box).state ≠ .submitted)
    (hr : s.mbx.ready = true) (hf : s.pwr.failing.isSome = true) :
    s.submit op r = ((s.accept r.box).waitsGap (s.newJob op r), false) := by
  unfold State.submit
  rw [if_neg (by simp [h]), if_neg hs]
  dsimp only
  rw [if_pos hr, if_pos hf]
  rfl

/-- The request area, read. -/
def State.read (s : State) (op : Nat) (r : Req) : State := (s.accept r.box).readPayload op r

theorem State.submit_checked (h : s.rings op r) : s.submit op r = (s.read op r).applyVerdict (s.newJob op r) (s.verdict op r) := by
  obtain ⟨-, hd, -, hs, hr, hf⟩ := h
  unfold State.submit
  rw [if_neg (by simp [hd]), if_neg hs]
  dsimp only
  rw [if_pos hr, if_neg (by simp [hf])]
  rfl

theorem State.read_spec (s : State) (op : Nat) (r : Req) : MailOnly s (s.read op r) ∧ (s.read op r).mbx = (s.accept r.box).mbx :=
  ⟨(s.accept_mailOnly r.box).trans (State.readPayload_mailOnly _ _ _), State.readPayload_mbx _ _ _⟩

/-- A response posted in the mailbox of a request: mail moves, the jobs and the tag histories stay. -/
theorem State.postReq_posted {u : State} (hm : MailOnly s u) (hb : r.box < 32) (x : Resp) :
    MailOnly s (u.postReq r x) ∧ (u.postReq r x).mbx.jobs = u.mbx.jobs ∧ Posted (u.postReq r x) r x := by
  have hpost := State.postReq_mailOnly u r x hb
  obtain ⟨hstate, hresp⟩ := State.postReq_box u r x hb
  refine ⟨hm.trans hpost, (State.postReq_jobs u r x hb).1, hstate, ?_⟩
  rw [hpost.bake]
  exact hresp

theorem State.protocolError_spec (s : State) (b : Nat) : MailOnly s (s.protocolError b 0)
    ∧ (s.protocolError b 0).mbx = s.mbx
    ∧ Tab.get 0 (s.protocolError b 0).tel.mbxCtr (8 * s.boxFn b + 7) = Tab.get 0 s.tel.mbxCtr (8 * s.boxFn b + 7) + 1 := by
  have hbump : MailOnly s (s.bumpMbx (s.boxFn b) 7 1) := by constructor <;> rfl
  refine ⟨hbump.trans (State.raise_mailOnly _ _ _ _), rfl, ?_⟩
  unfold State.protocolError
  rw [(State.raise_frame (Touch.or_self _) .refl _ _ _).mbxCtr rfl]
  exact (Tab.get_bump _ _ _ _).trans (if_pos rfl)

/-! ### The rows -/

theorem submitted_ends (hc : c ∈ mailboxCommands) (hb : r.box < 32) (hj : s.job? c.1 r false = none)
    (hd : (s.host.link (s.boxFn r.box)).d3 = false) (hs : (s.box r.box).state = .submitted) : Ends (c.2 r) s (fun t =>
      MailOnly s t ∧ t.mbx.boxes = s.mbx.boxes ∧ t.mbx.jobs = s.mbx.jobs ∧ t.mbx.hist0 = s.mbx.hist0 ∧ t.mbx.hist1 = s.mbx.hist1
        ∧ Tab.get 0 t.tel.mbxCtr (8 * s.boxFn r.box + 7) = Tab.get 0 s.tel.mbxCtr (8 * s.boxFn r.box + 7) + 1) := by
  obtain ⟨hmail, hmbx, hctr⟩ := s.protocolError_spec r.box
  refine ends_of_exec (submit_exec hc hb hj (State.submit_again hd hs)) ⟨hmail, ?_, ?_, ?_, ?_, hctr⟩ <;> rw [hmbx]

theorem notReady_ends (hc : c ∈ mailboxCommands) (hb : r.box < 32) (hj : s.job? c.1 r false = none)
    (hd : (s.host.link (s.boxFn r.box)).d3 = false) (hs : (s.box r.box).state ≠ .submitted) (hr : s.mbx.ready = false) :
    Ends (c.2 r) s (fun t => MailOnly s t ∧ t.mbx.jobs = s.mbx.jobs
      ∧ Posted t r { Resp.err stBusy dNotReady with epoch := some 0 }) := by
  obtain ⟨hmail, hjobs, hposted⟩ := State.postReq_posted (s.accept_mailOnly r.box) hb { Resp.err stBusy dNotReady with epoch := some 0 }
  exact ends_of_exec (submit_exec hc hb hj (State.submit_notReady hd hs hr)) ⟨hmail, hjobs, hposted⟩

/-- The mailbox of an accepted doorbell is submitted. -/
theorem State.accept_state (s : State) (b : Nat) : ((s.accept b).box b).state = .submitted := by
  simp [State.accept, State.updBox, State.bumpMbx, State.box]

theorem gap_ends (hc : c ∈ mailboxCommands) (hb : r.box < 32) (hj : s.job? c.1 r false = none)
    (hd : (s.host.link (s.boxFn r.box)).d3 = false) (hs : (s.box r.box).state ≠ .submitted) (hr : s.mbx.ready = true)
    (hf : s.pwr.failing.isSome = true) : Ends (c.2 r) s (fun t => MailOnly s t ∧ t.mbx.jobs = s.mbx.jobs
      ∧ (t.box r.box).state = .submitted ∧ t.mbx.gapCmds = s.mbx.gapCmds ++ [s.newJob c.1 r]) := by
  have hwait : MailOnly (s.accept r.box) ((s.accept r.box).waitsGap (s.newJob c.1 r)) := by constructor <;> rfl
  exact ends_of_exec (submit_exec hc hb hj (State.submit_gap hd hs hr hf))
    ⟨(s.accept_mailOnly r.box).trans hwait, rfl, s.accept_state r.box, rfl⟩

theorem refused_ends (hc : c ∈ mailboxCommands) (h : s.rings c.1 r) {x : Resp} {kept : Bool} (hv : s.verdict c.1 r = .refuse x kept) :
    Ends (c.2 r) s (fun t => MailOnly s t ∧ t.mbx.jobs = s.mbx.jobs ∧ Posted t r x) := by
  obtain ⟨hb, -, hj, -⟩ := id h
  obtain ⟨hmail, hmbx⟩ := s.read_spec c.1 r
  have hrecord : MailOnly s (if kept then (s.read c.1 r).recordTag c.1 r x else s.read c.1 r)
      ∧ (if kept then (s.read c.1 r).recordTag c.1 r x else s.read c.1 r).mbx.jobs = s.mbx.jobs := by
    have hjobs : (s.read c.1 r).mbx.jobs = s.mbx.jobs := (congrArg MbxSt.jobs hmbx :)
    split
    · exact ⟨hmail.trans (State.recordTag_mailOnly _ _ _ _), ((record_parts _ _ _ _ _ _).2.1).trans hjobs⟩
    · exact ⟨hmail, hjobs⟩
  have hsubmit := State.submit_checked h
  rw [hv] at hsubmit
  obtain ⟨hpost, hjobs, hposted⟩ := State.postReq_posted hrecord.1 hb x
  exact ends_of_exec (submit_exec hc hb hj hsubmit) ⟨hpost, hjobs.trans hrecord.2, hposted⟩

theorem replayed_ends (hc : c ∈ mailboxCommands) (h : s.rings c.1 r) {e : HistEntry} (hv : s.verdict c.1 r = .replay e) :
    Ends (c.2 r) s (fun t => MailOnly s t ∧ t.mbx.jobs = s.mbx.jobs ∧ t.mbx.hist0 = s.mbx.hist0 ∧ t.mbx.hist1 = s.mbx.hist1
      ∧ Posted t r ⟨stDuplicateTag, e.status, e.payload, e.rlen, some e.epoch⟩) := by
  obtain ⟨hb, -, hj, -⟩ := id h
  obtain ⟨hmail, hmbx⟩ := s.read_spec c.1 r
  have hsubmit := State.submit_checked h
  rw [hv] at hsubmit
  obtain ⟨hpost, -, hposted⟩ := State.postReq_posted hmail hb e.replay
  obtain ⟨hjobs, hhist0, hhist1⟩ := State.postReq_jobs (s.read c.1 r) r e.replay hb
  rw [hmbx] at hjobs hhist0 hhist1
  exact ends_of_exec (submit_exec hc hb hj hsubmit) ⟨hpost, hjobs, hhist0, hhist1, hposted⟩

theorem waiting_ends (hc : c ∈ mailboxCommands) (h : s.rings c.1 r) {n : Nat} (hv : s.verdict c.1 r = .wait n) :
    Ends (c.2 r) s (fun t => MailOnly s t ∧ (t.box r.box).state = .submitted ∧ t.mbx.jobs.length = s.mbx.jobs.length) := by
  obtain ⟨hb, -, hj, -⟩ := id h
  obtain ⟨hmail, hmbx⟩ := s.read_spec c.1 r
  have hsubmit := State.submit_checked h
  rw [hv] at hsubmit
  have hwait : MailOnly (s.read c.1 r) ((s.read c.1 r).addWaiter r) := by constructor <;> rfl
  refine ends_of_exec (submit_exec hc hb hj hsubmit) ⟨hmail.trans hwait, ?_, ?_⟩
  · show (Tab.get Mbox.init (s.read c.1 r).mbx.boxes r.box).state = _
    rw [hmbx]
    exact s.accept_state r.box
  · show (List.map _ (s.read c.1 r).mbx.jobs).length = _
    rw [List.length_map, hmbx]
    rfl

end

/-- Settles O12: the row of every command is that of the body of its opcode; its doorbell reaches nothing, is discarded, or
gets one answer, and a command that is queued is held back or taken. -/
theorem requestsChecked : Obligations.RequestsChecked := by
  unfold Obligations.RequestsChecked
  refine ⟨fun c hc r s hb hj hd => submit_exec hc hb hj (State.submit_deaf hd), fun c hc r s j l m hq hl =>
    ⟨queued_idles hc hq hl, queued_ends hc hq hl⟩, fun c hc r s hb hj hd => ⟨submitted_ends hc hb hj hd, notReady_ends hc hb hj hd,
      gap_ends hc hb hj hd, fun h x kept hv => refused_ends hc h hv, fun h e hv => replayed_ends hc h hv,
      fun h n hv => waiting_ends hc h hv⟩⟩

end Sys2Proof.Machine

end

section
/-! PROOF. Two rows that are said to change nothing and yet rewrite a cluster's entry of the fixity table with the value that it
has: a flush with nothing to flush (R305), and a close whose batch is not written (R290). `Tab.set` gives back the same table where
it is canonical, keys rising and no default listed, and else another one that reads alike; the statements ask for the same table,
of every state. -/

namespace Sys2Proof.Machine

/-! ### An entry rewritten with its own value -/

theorem Tab.upd_eq_self {α : Type} [DecidableEq α] {d : α} {t : Tab α} {k : Nat} {f : α → α} (hwf : Tab.wf d t = true)
    (h : f (Tab.get d t k) = Tab.get d t k) : Tab.upd d t k f = t := by
  have hupd := Tab.wf_upd k f hwf
  simp only [Tab.wf, Bool.and_eq_true, List.all_eq_true, decide_eq_true_eq] at hwf hupd
  refine Tab.ext_of_sorted hupd.1 hwf.1 hupd.2 hwf.2 (fun j => ?_)
  rw [Tab.get_upd]
  split
  · next hj => rw [← hj, h]
  · rfl

/-- The fixity table is in the canonical form of the sparse tables. -/
def State.fixCanonical (s : State) : Prop := Tab.wf FixClu.init s.leaven.fix = true

theorem State.updFix_eq_self {s : State} {c : Nat} {f : FixClu → FixClu} (hwf : s.fixCanonical) (h : f (s.fix c) = s.fix c) :
    s.updFix c f = s := by
  unfold State.updFix
  rw [Tab.upd_eq_self hwf h]

/-- A ready device right after reset whose fixity table is `l`. -/
def readyWithFix (l : Tab FixClu) : State :=
  { State.reset with mbx := { State.reset.mbx with ready := true }, leaven := { State.reset.leaven with fix := l } }

/-! ### FIX_FLUSH of a cluster with no batch open -/

section

variable {s u : State}

theorem FixClu.makeDue_of_closed {f : FixClu} (reason : Nat) (key : Option Nat) (h : f.cur.isOpen = false) :
    f.makeDue reason key = f := if_neg (by simp [h])

theorem State.fixDue_of_closed {c : Nat} (reason : Nat) (key : Option Nat) (hwf : s.fixCanonical)
    (h : (s.fix c).cur.isOpen = false) : s.fixDue c reason key = s := by
  unfold State.fixDue
  rw [State.updFix_eq_self (f := fun f => f.makeDue reason key) hwf (FixClu.makeDue_of_closed reason key h)]
  exact if_neg (fun hd => hd.2 hd.1)

/-- Making due what is not open changes nothing, cluster after cluster. -/
theorem State.foldl_fixDue_of_closed (reason : Nat) (hwf : s.fixCanonical) {l : List Nat}
    (h : ∀ c ∈ l, (s.fix c).cur.isOpen = false) : l.foldl (fun u c => u.fixDue c reason none) s = s := by
  induction l with
  | nil => rfl
  | cons c l ih =>
    rw [List.foldl_cons, State.fixDue_of_closed reason none hwf (h c (by simp))]
    exact ih (fun d hd => h d (by simp [hd]))

theorem FixClu.flushHead_of_idle {f : FixClu} (hopen : f.cur.isOpen = false) (hdue : f.due = []) (hsign : f.signing = []) :
    f.flushHead = f.rcHead := by simp [FixClu.flushHead, hopen, hdue, hsign]

/-- The clause of FIX_FLUSH with nothing to flush, where the fixity table is canonical. -/
theorem fixFlush_does_of_canonical : Does 0x0A05 .fixFlush (fun r s => s.fixCanonical ∧ resv r.payload 2 2 = true
      ∧ ∀ c, c < 16 → bit (rd r.payload 0 2) c = true →
        (s.fix c).cur.isOpen = false ∧ (s.fix c).due = [] ∧ (s.fix c).signing = [])
    (fun _ _ => []) (fun _ s t => t.leaven.fix = s.leaven.fix ∧ t.leaven.flushes = s.leaven.flushes) := by
  refine does_of (body := fixFlushBody) (fun _ u => u) (fun _ _ => rfl) (fun r s u _ _ hu ⟨hwf, hr, hidle⟩ => ⟨?_, rfl, fun t ht => ?_⟩)
  · have hleaven : u.leaven = s.leaven := (congrArg State.leaven hu).trans rfl
    have hflushed : ∀ c ∈ bitList 16 (rd r.payload 0 2),
        (u.fix c).cur.isOpen = false ∧ (u.fix c).due = [] ∧ (u.fix c).signing = [] := fun c hc => by
      obtain ⟨hlt, hbit⟩ := mem_bitList.mp hc
      unfold State.fix
      rw [hleaven]
      exact hidle c hlt hbit
    have hstays := State.foldl_fixDue_of_closed (s := u) 2 (by unfold State.fixCanonical; rw [hleaven]; exact hwf)
      (fun c hc => (hflushed c hc).1)
    have hmet : u.flushMet ((bitList 16 (rd r.payload 0 2)).map (fun c => (c, (u.fix c).flushHead))) = true := by
      rw [State.flushMet, List.all_map, List.all_eq_true]
      intro c hc
      obtain ⟨hopen, hdue, hsign⟩ := hflushed c hc
      simp [FixClu.flushHead_of_idle hopen hdue hsign]
    unfold fixFlushBody
    dsimp only
    rw [if_neg (by simp [hr]), hstays, if_pos hmet]
    rfl
  · have hleaven : t.leaven = s.leaven := ((congrArg State.leaven ht).trans rfl).trans ((congrArg State.leaven hu).trans rfl)
    rw [hleaven]
    exact ⟨rfl, rfl⟩

end

/-- FIX_FLUSH of cluster 0. -/
def flushCluster0 : Req := Req.plain 0 (le 4 1)

/-- The reset value of cluster 0, listed. -/
def listedIdle : State := readyWithFix [(0, FixClu.init)]

theorem listedIdle_fresh : listedIdle.fresh 0x0A05 flushCluster0 :=
  ⟨by decide, by decide +kernel, by decide +kernel, by decide +kernel, rfl, by decide +kernel, rfl, rfl⟩

/-- The flush completes at once and takes the entry off the list. -/
theorem listedIdle_unlists : ∃ t, exec (.fixFlush flushCluster0) listedIdle = .next t ∧ t.leaven.fix = [] :=
  ⟨_, rfl, by decide +kernel⟩

/-- Refutes O27: FIX_FLUSH of a cluster with nothing to flush writes the cluster's entry back, and where the table lists a reset value
the entry goes: the table reads alike and is not the same. Nothing in the statement asks for a canonical table; of one, the clause
holds (`fixFlush_does_of_canonical`). -/
theorem not_fixityCommands : ¬ Obligations.FixityCommands := by
  unfold Obligations.FixityCommands
  rintro ⟨-, -, -, -, hflush, -⟩
  obtain ⟨t, ht, -, hkept, -⟩ := hflush flushCluster0 listedIdle listedIdle_fresh (by decide +kernel)
  obtain ⟨u, hu, hempty⟩ := listedIdle_unlists
  obtain rfl : t = u := Host.Outcome.next.inj (ht.symm.trans hu)
  exact absurd (hempty.symm.trans hkept) (by decide)

/-! ### BATCH_CLOSE of a batch that is not written -/

section

variable {s : State} {c : Nat} {b : Batch} {l : List Batch}

theorem FixClu.undefer_eq_self {f : FixClu} (h : f.cur.deferred = false ∨ f.mustDefer = true) : f.undefer = f :=
  if_neg (fun hd => h.elim (fun hno => by simp [hno] at hd) hd.2)

theorem State.closeDue_of_unwritten (hdue : (s.fix c).due = b :: l) (hb : b.written = false) : s.closeDue c = s := by
  unfold State.closeDue
  dsimp only
  rw [hdue]
  exact if_pos (by simp [hb])

/-- The clause of BATCH_CLOSE for a batch that is not written, where the fixity table is canonical. -/
theorem batchClose_idles_of_canonical (hwf : s.fixCanonical) (hc : c < 16) (hdue : (s.fix c).due = b :: l) (hb : b.written = false)
    (h : (s.fix c).cur.deferred = false ∨ (s.fix c).mustDefer = true) : Idles (.batchClose c) s := by
  have hclose : s.fixClose c = s := by
    unfold State.fixClose
    rw [State.updFix_eq_self hwf (FixClu.undefer_eq_self h), State.closeDue_of_unwritten hdue hb]
  show onCluster c (s.fixClose c) = _
  rw [hclose]
  exact if_pos hc

end

/-- A due batch with one position, which is not written. -/
def unwrittenBatch : Batch := { Batch.init with isOpen := true, recs := [(0, none)], due := some 1 }

/-- Cluster 0 has it due, and is listed behind cluster 1. -/
def clustersSwapped : State :=
  readyWithFix [(1, { FixClu.init with size := 1 }), (0, { FixClu.init with due := [unwrittenBatch] })]

/-- BATCH_CLOSE lists cluster 0 again, in front. -/
theorem clustersSwapped_relists : ∃ t, exec (.batchClose 0) clustersSwapped = .next t ∧ t.leaven.fix.length = 3 :=
  ⟨_, rfl, by decide +kernel⟩

/-- Refutes O57: BATCH_CLOSE writes the cluster's entry back before it looks at the batch, and where the table's keys do not rise it
lists the cluster twice: the table reads alike and is not the same, so the state is another. Nothing in the statement asks for a
canonical table; of one, the clause holds (`batchClose_idles_of_canonical`). -/
theorem not_witnessRows : ¬ Obligations.WitnessRows := by
  unfold Obligations.WitnessRows
  rintro ⟨-, -, -, -, hclose, -⟩
  obtain ⟨hidles, -⟩ := hclose clustersSwapped 0 (by decide) unwrittenBatch [] rfl
  have hstays : exec (.batchClose 0) clustersSwapped = .next clustersSwapped := hidles rfl (.inl rfl)
  obtain ⟨t, ht, hlength⟩ := clustersSwapped_relists
  obtain rfl : clustersSwapped = t := Host.Outcome.next.inj (hstays.symm.trans ht)
  exact absurd hlength (by decide)

end Sys2Proof.Machine
end


section
/-! PROOF. A step runs the front of the queue; the checks of a request in the order of their table; the order in which reads
and refused writes leave everything but mail alone. -/

namespace Sys2Proof.Machine

/-- Settles O1: the step function takes the front of the queue. -/
theorem stepRunsFront : Obligations.StepRunsFront := fun _ _ _ h => step_of_front h

/-! ### The rows of R390 -/

/-- A row that tests whether an answer exists, and gives it, stands for the `match` on that answer. -/
theorem firstRow_isSome {α β : Type} (o : Option β) (f : β → α) (l : List (Bool × Option α)) (a : α) :
    (firstRow ((o.isSome, o.map f) :: l)).getD a = match o with
      | some b => f b
      | none => (firstRow l).getD a := by
  cases o <;> rfl

theorem firstRow_isSome_id {α : Type} (o : Option α) (l : List (Bool × Option α)) (a : α) :
    (firstRow ((o.isSome, o) :: l)).getD a = match o with
      | some b => b
      | none => (firstRow l).getD a := by
  cases o <;> rfl

/-- A row with a plain test stands for an `if`. -/
theorem firstRow_cons {α : Type} (b : Bool) (v : α) (l : List (Bool × Option α)) (a : α) :
    (firstRow ((b, some v) :: l)).getD a = if b = true then v else (firstRow l).getD a := by
  cases b <;> rfl

theorem firstRow_nil {α : Type} (a : α) : (firstRow ([] : List (Bool × Option α))).getD a = a := rfl

/-- Rows 6 to 14 of R390 are the checks of `lateVerdict`. -/
theorem State.lateVerdict_rows (s : State) (c : CmdInfo) (fn : Nat) (r : Req) :
    (firstRow
      [(r.stage && c.stage == .no, some (Verdict.refuse (Resp.err stNotPermitted dStageNotAllowed) true)),
       (!r.stage && c.stage == .required, some (.refuse (Resp.err stNotPermitted dStageRequired) true)),
       ((s.setFault r).isSome, (s.setFault r).map (fun x => .refuse x true)),
       (!r.async && asyncNeeded c r.payload, some (.refuse (Resp.err stNotPermitted dAsyncRequired) true)),
       (r.async && r.tag == 0, some (.refuse (Resp.err stBadArg dTagRequired) true)),
       (!lenOk c.len r, some (.refuse (Resp.err stBadLength dNone) true)),
       (!r.readOk, some (.refuse (Resp.err stBadArg dIndirectRead) true)),
       (decide (reqRoom r < s.respNeed c fn r), some (.refuse
         { Resp.err stBadLength dResponseTooLong with len := s.respNeed c fn r } true)),
       ((s.busyDetail fn c.op r).isSome, (s.busyDetail fn c.op r).map (fun d => .refuse (Resp.err stBusy d) false))]).getD .accept
      = s.lateVerdict c fn r := by
  simp only [firstRow_cons, firstRow_isSome, firstRow_nil, State.lateVerdict, Bool.and_eq_true, Bool.not_eq_true', beq_iff_eq,
    decide_eq_true_eq, Bool.not_eq_true]
  cases s.setFault r with
  | some x => simp only
  | none => cases s.busyDetail fn c.op r <;> simp only

/-- Settles O11: the first rows are those of `earlyVerdict`, the tag's is `tagVerdict`, the rest are those of `lateVerdict`. -/
theorem envelopeOrder : Obligations.EnvelopeOrder := by
  unfold Obligations.EnvelopeOrder
  refine ⟨fun s op r hc => ?_, fun s op r c hc hb => ?_⟩
  · unfold State.verdict State.earlyVerdict
    rw [hc]
    by_cases h1 : (if r.indirect then 65536 else 3824) < r.len
    · simp only [if_pos h1]
    · by_cases h2 : r.flagsRsvd = true ∨ r.indirect = true ∧ r.indRsvd = true
      · simp only [if_neg h1, if_pos h2]
      · simp only [if_neg h1, if_neg h2]
  · rw [firstRow_cons, firstRow_cons, firstRow_isSome, firstRow_isSome_id, State.lateVerdict_rows]
    unfold State.verdict State.earlyVerdict
    rw [hc]
    dsimp only
    rw [if_neg (show r.box ≠ fwdBox by unfold fwdBox; omega)]
    by_cases h1 : (if r.indirect then 65536 else 3824) < r.len
    · simp only [h1, if_true, decide_true]
    · by_cases h2 : r.flagsRsvd = true ∨ r.indirect = true ∧ r.indRsvd = true
      · simp only [h1, if_false, decide_false, Bool.or_eq_true, Bool.and_eq_true, h2, if_true, Bool.false_eq_true]
      · simp only [h1, if_false, decide_false, Bool.or_eq_true, Bool.and_eq_true, h2, Bool.false_eq_true]
        cases s.roleDetail c with
        | some d => rfl
        | none => cases s.tagVerdict (s.boxFn r.box) op r <;> rfl

end Sys2Proof.Machine
end


section
/-! PROOF. The order of reads and of refused writes: what leaves everything but mail alone (R399, R404, R407, R456). -/

namespace Sys2Proof.Machine

/-- A configuration write whose row is `setCmd` of its checks. -/
def ConfigWrite.Checked (w : ConfigWrite) : Prop :=
  ∃ apply, ∀ (r : Req) (s : State), exec (w.cmd r) s = mailboxCommand w.op (setCmd w.op w.check apply) r s

theorem configWrites_checked : ∀ w ∈ configWrites, w.Checked := by
  simp only [configWrites, List.cons_append, List.nil_append]
  repeat' refine List.forall_mem_cons.mpr ⟨⟨_, fun _ _ => rfl⟩, ?_⟩
  exact List.forall_mem_nil _

/-- A live write that fails a check answers what the check says. -/
theorem setCmd_refused {op : Nat} {check : List Byte → State → Option (Nat × Nat)} {apply : List Byte → State → State} {r : Req}
    {s : State} {e : Nat × Nat} (hs : r.stage = false) (he : check r.payload s = some e) :
    setCmd op check apply r s = (s, some (Resp.err e.1 e.2)) := by
  unfold setCmd
  rw [if_neg (by simp [hs]), he]
  rfl

/-- A fresh request whose body answers and changes nothing moves only mail. -/
theorem fresh_read {op : Nat} {body : Body} {r : Req} {s : State} {x : Resp} (h : s.fresh op r)
    (hb : body r (s.begun op r) = (s.begun op r, some x)) :
    ∃ t, mailboxCommand op body r s = .next t ∧ t.delivered op r x ∧ MailOnly s t := by
  obtain ⟨t, hrun, hdel, hmail, -⟩ := fresh_answered h hb rfl
  exact ⟨t, hrun, hdel, (State.begun_mailOnly h).trans hmail⟩

/-- Settles O13: the body is run in a state that differs in mail alone, where the check fails too. -/
theorem refusedWritesChangeNothing : Obligations.RefusedWritesChangeNothing := by
  intro w hw r s e hf hs hcheck
  obtain ⟨apply, hexec⟩ := configWrites_checked w hw
  obtain ⟨t, hrun, hdel, hmail⟩ :=
    fresh_read hf (setCmd_refused (apply := apply) hs (hcheck _ (State.begun_mailOnly hf)))
  exact ⟨t, (hexec r s).trans hrun, hdel, hmail⟩

/-- A command whose row reads. -/
def IsRead (c : Nat × (Req → Instr)) : Prop :=
  ∃ f, ∀ (r : Req) (s : State), exec (c.2 r) s = mailboxCommand c.1 (readCmd f) r s

theorem isRead_of_mem : ∀ c ∈ readCommands, IsRead c := by
  simp only [readCommands, List.cons_append, List.nil_append]
  repeat' refine List.forall_mem_cons.mpr ⟨⟨_, fun _ _ => rfl⟩, ?_⟩
  exact List.forall_mem_nil _

/-- Settles O15: every row of a read command is `readCmd` of what it answers. -/
theorem readsMoveOnlyMail : Obligations.ReadsMoveOnlyMail := by
  intro c hc r s hf
  obtain ⟨f, hexec⟩ := isRead_of_mem c hc
  obtain ⟨t, hrun, hdel, hmail⟩ := fresh_read (body := readCmd f) hf rfl
  exact ⟨_, t, (hexec r s).trans hrun, hdel, hmail⟩

end Sys2Proof.Machine
end


section
/-! PROOF. A restart of Moaras that ends while the recovery console runs. -/

namespace Sys2Proof.Machine

/-- Moaras restarts with an image booted while the recovery console waits. -/
def State.consoleRestart : State :=
  { State.reset with
    mbx := { State.reset.mbx with ready := false, restarting := some 0 }
    ident := { State.reset.ident with booted := true, console := some 0 } }

/-- Under the recovery console the end of a restart changes nothing. -/
theorem consoleRestart_idles : Idles .moarasRestartDone State.consoleRestart := rfl

/-- Refutes O60: under the recovery console MOARAS_RESTART_DONE leaves Moaras not ready, though an image has booted. -/
theorem not_restartSliceSpdmRows : ¬ Obligations.RestartSliceSpdmRows := by
  unfold Obligations.RestartSliceSpdmRows
  intro h
  obtain ⟨-, hrestart, -⟩ := h
  obtain ⟨t, hrun, hready, -⟩ := (hrestart State.consoleRestart).2 0 rfl rfl
  obtain rfl : State.consoleRestart = t := Host.Outcome.next.inj (consoleRestart_idles.symm.trans hrun)
  exact absurd hready (by decide)

end Sys2Proof.Machine
end


section
/-! PROOF. Counter sweeps and the event ring: what SNAP, an instant, a written dump and the register writes leave of the sweep
registers, the event log and their counters (R460 to R465, R470, R471). -/

namespace Sys2Proof.Machine

section

variable {s : State} {fn : Nat} {w : BitVec 64}

/-! ### Bits of a control register with a command bit -/

/-- Setting a bit leaves the lower ones. -/
theorem bit_setBit_lower (v : Nat) {i j : Nat} (h : j < i) : bit (setBit v i) j = bit v j := by
  unfold setBit
  split
  · rfl
  · rw [bit_eq_testBit, bit_eq_testBit, Nat.add_comm, Nat.testBit_two_pow_add_gt h]

/-! ### Dumps (R460 to R463) -/

theorem State.fecPort_swp (s : State) (p : Nat) : (s.fecPort p).swp = s.swp := by
  unfold State.fecPort
  split <;> rfl

theorem State.fecAll_swp (s : State) : s.fecAll.swp = s.swp :=
  foldl_read State.swp (fun t p _ => t.fecPort_swp p) s

/-- The count of sweeps taken is no part of a dump. -/
theorem State.sweepDump_taken (s : State) (seq : Nat) (demand : Bool) :
    (s.updSwp (fun v => { v with taken := v.taken + 1 })).sweepDump seq demand = s.sweepDump seq demand := rfl

/-- A sweep with room in the ring is latched and counted. -/
theorem State.takeSweep_of_room {demand : Bool}
    (h : (s.fecAll.sweepDump s.swp.taken demand).length ≤ 2 ^ s.swp.k - (s.swp.tail - s.swp.head)) :
    (s.takeSweep demand).swp.dump = some (s.fecAll.sweepDump s.swp.taken demand)
      ∧ (s.takeSweep demand).swp.taken = s.swp.taken + 1 := by
  have hbig : ¬ 2 ^ s.swp.k < (s.fecAll.sweepDump s.swp.taken demand).length :=
    not_lt.mpr (h.trans (Nat.sub_le _ _))
  unfold State.takeSweep
  dsimp only
  rw [State.fecAll_swp, State.sweepDump_taken, if_neg hbig, if_neg (not_lt.mpr h)]
  unfold State.updSwp
  dsimp only
  rw [State.fecAll_swp]
  exact ⟨rfl, rfl⟩

theorem State.raise_telCtr (s : State) (code sev : Nat) (args : List Byte) {i : Nat} (h : i < 2) :
    Tab.get 0 (s.raise code sev args).tel.ctr i = Tab.get 0 s.tel.ctr i := by
  show Tab.get 0 (Tab.bump (Tab.bump (Tab.bump s.tel.ctr 2 1) 3 _) 4 _) i = _
  rw [Tab.get_bump, if_neg (by omega), Tab.get_bump, if_neg (by omega), Tab.get_bump, if_neg (by omega)]

theorem State.raiseLimited_telCtr (s : State) (code sev inst period : Nat) (args : List Byte) {i : Nat} (h : i < 2) :
    Tab.get 0 (s.raiseLimited code sev inst period args).tel.ctr i = Tab.get 0 s.tel.ctr i := by
  unfold State.raiseLimited
  dsimp only
  split
  · exact s.raise_telCtr code sev args h
  · rfl

/-- A missed sweep is counted. -/
theorem State.sweepMissed_counted (s : State) (cause : Nat) :
    (s.sweepMissed cause).swp = { s.swp with missed := s.swp.missed + 1 }
      ∧ Tab.get 0 (s.sweepMissed cause).tel.ctr 1 = Tab.get 0 s.tel.ctr 1 + 1 := by
  unfold State.sweepMissed
  dsimp only
  refine ⟨by simp only [State.raiseLimited_rest]; rfl, ?_⟩
  rw [State.raiseLimited_telCtr _ _ _ _ _ _ (by omega)]
  exact (Tab.get_bump _ _ _ _).trans (if_pos rfl)

/-! ### SWP_CTRL and the heads (R464, R465) -/

theorem State.writeSwpCtrl_snap (s : State) (w : BitVec 64) (h : bit w.toNat 0 = true) :
    s.writeSwpCtrl (setBit w.toNat 1) = (s.updSwp (fun v => { v with enable := true })).snap := by
  unfold State.writeSwpCtrl
  simp only [bit_setBit_lower w.toNat (show 0 < 1 by omega), bit_setBit_same, h, not_true, and_false, if_true, if_false]

/-- ENABLE written over itself leaves the state. -/
theorem State.updSwp_enable (h : s.swp.enable = true) : s.updSwp (fun v => { v with enable := true }) = s := by
  have hswp : ({ s.swp with enable := true } : SwpSt) = s.swp := by rw [← h]
  show { s with swp := { s.swp with enable := true } } = s
  rw [hswp]

/-- SNAP during a dump waits for its end. -/
theorem State.snap_during {d : List Byte} (h : s.swp.enable = true) (hd : s.swp.dump = some d) :
    s.snap = s.updSwp (fun v => { v with snapDue := true }) := by
  unfold State.snap
  rw [if_neg (by simp [h]), if_pos (by simp [hd])]

theorem State.snap_idle (h : s.swp.enable = true) (hd : s.swp.dump = none) : s.snap = s.takeSweep true := by
  unfold State.snap
  rw [if_neg (by simp [h]), if_neg (by simp [hd])]

theorem State.writeSwpCtrl_ringReset (s : State) (w : BitVec 64) (h0 : bit w.toNat 0 = false) (h1 : bit w.toNat 1 = false) :
    (s.writeSwpCtrl (setBit w.toNat 2)).swp = { s.swp with enable := false, head := 0, tail := 0 } := by
  unfold State.writeSwpCtrl
  simp only [bit_setBit_lower w.toNat (show 0 < 2 by omega), bit_setBit_lower w.toNat (show 1 < 2 by omega), bit_setBit_same, h0, h1,
    Bool.false_eq_true, not_false_eq_true, and_true, if_true, if_false]
  rfl

theorem State.writeLoupeCtrl_ringReset (s : State) (w : BitVec 64) (h0 : bit w.toNat 0 = false) :
    (s.writeLoupeCtrl (setBit w.toNat 2)).swp = { s.swp with lEnable := false, lHead := 0, lTail := 0 } := by
  unfold State.writeLoupeCtrl
  simp only [bit_setBit_lower w.toNat (show 0 < 2 by omega), bit_setBit_same, h0, Bool.false_eq_true, not_false_eq_true, and_true,
    if_true]
  rfl

theorem headOk_iff {head tail v : Nat} : headOk head tail v = true ↔ head ≤ v ∧ v ≤ tail := by simp [headOk]

theorem State.writeSwpHead_swp (s : State) (v : Nat) : (s.writeSwpHead v).swp
    = { s.swp with head := if s.swp.head ≤ v ∧ v ≤ s.swp.tail then v else s.swp.head } := by
  show (if headOk s.swp.head s.swp.tail v then { s.swp with head := v } else s.swp) = _
  simp only [headOk_iff]
  split <;> rfl

theorem State.writeLoupeHead_swp (s : State) (v : Nat) : (s.writeLoupeHead v).swp
    = { s.swp with lHead := if s.swp.lHead ≤ v ∧ v ≤ s.swp.lTail then v else s.swp.lHead } := by
  show (if headOk s.swp.lHead s.swp.lTail v then { s.swp with lHead := v } else s.swp) = _
  simp only [headOk_iff]
  split <;> rfl

/-! ### The event ring (R470, R471) -/

theorem EvtSt.flushLost_regs (v : EvtSt) (sec ns : Nat) : (v.flushLost sec ns).st.enable = v.enable
    ∧ (v.flushLost sec ns).st.minSev = v.minSev ∧ (v.flushLost sec ns).st.head = v.head := by
  unfold EvtSt.flushLost
  split <;> exact ⟨rfl, rfl, rfl⟩

theorem EvDone.then1_regs (l : List EvEntry) (d : EvDone) :
    (l.foldl EvDone.then1 d).st.enable = d.st.enable ∧ (l.foldl EvDone.then1 d).st.minSev = d.st.minSev := by
  induction l generalizing d with
  | nil => exact ⟨rfl, rfl⟩
  | cons e l ih =>
    obtain ⟨henable, hsev, -⟩ := EvtSt.write_regs d.st e
    exact ⟨(ih _).1.trans henable, (ih _).2.trans hsev⟩

theorem EvtSt.joinLost_regs (a b : EvtSt) : (a.joinLost b).enable = a.enable ∧ (a.joinLost b).minSev = a.minSev := by
  unfold EvtSt.joinLost
  split <;> exact ⟨rfl, rfl⟩

theorem EvtSt.enableRing_regs (v : EvtSt) : v.enableRing.st.enable = true ∧ v.enableRing.st.minSev = v.minSev := by
  have hjoin := EvtSt.joinLost_regs (v.held.foldl EvDone.then1
    { st := { v with enable := true, held := [], lost := 0 }, writes := [], moved := false, lost := 0 }).st v
  have hfold := EvDone.then1_regs v.held
    { st := { v with enable := true, held := [], lost := 0 }, writes := [], moved := false, lost := 0 }
  exact ⟨hjoin.1.trans hfold.1, hjoin.2.trans hfold.2⟩

/-- A write of EVT_CTRL sets ENABLE and MIN_SEVERITY. -/
theorem State.writeEvtCtrl_regs (s : State) (v : Nat) :
    (s.writeEvtCtrl v).evt.enable = bit v 0 ∧ (s.writeEvtCtrl v).evt.minSev = v / 16 % 4 := by
  have hsev : bits v 5 4 = v / 16 % 4 := rfl
  unfold State.writeEvtCtrl
  dsimp only
  rw [hsev]
  cases hv : bit v 0 with
  | false => simp only [Bool.false_eq_true, if_false]; split <;> exact ⟨rfl, rfl⟩
  | true =>
    simp only [if_true]
    split
    next hon => exact ⟨hon, rfl⟩
    next =>
      have hflush := EvtSt.flushLost_regs ({ s.evt with minSev := v / 16 % 4 } : EvtSt).enableRing.st s.time.sec s.time.ns
      have hring := EvtSt.enableRing_regs ({ s.evt with minSev := v / 16 % 4 } : EvtSt)
      exact ⟨hflush.1.trans hring.1, hflush.2.1.trans hring.2⟩

theorem State.writeEvtCtrl_ringReset (s : State) (w : BitVec 64) (h : bit w.toNat 0 = false) :
    (s.writeEvtCtrl (setBit w.toNat 1)).evt.enable = false ∧ (s.writeEvtCtrl (setBit w.toNat 1)).evt.head = 0
      ∧ (s.writeEvtCtrl (setBit w.toNat 1)).evt.tail = 0 ∧ (s.writeEvtCtrl (setBit w.toNat 1)).evt.held = s.evt.held := by
  unfold State.writeEvtCtrl
  simp only [bit_setBit_lower w.toNat (show 0 < 1 by omega), bit_setBit_same, h, Bool.false_eq_true, if_true, if_false,
    and_self]

theorem State.writeEvtHead_head (s : State) (v : Nat) : (s.writeEvtHead v).evt.head
    = if s.evt.head ≤ v ∧ v ≤ s.evt.tail then v else s.evt.head := by
  unfold State.writeEvtHead
  simp only [headOk_iff]
  split
  · exact (EvtSt.flushLost_regs { s.evt with head := v } s.time.sec s.time.ns).2.2
  · rfl

end

/-- Settles O39: each row is its register write or sweep operation, whose fields are said above. -/
theorem sweepAndEventRows : Obligations.SweepAndEventRows := by
  unfold Obligations.SweepAndEventRows
  refine ⟨fun s fn w hh hen _ => ⟨?snapIdle, ?snapBusy⟩, fun s hen hper => ⟨?instant, ?missed⟩, ?written,
    fun s fn w hh => ⟨?head, ?loupeHead, ?evtHead, fun h0 h1 => ⟨?ring, ?loupeRing⟩, fun h0 => ?evtRing, ?evtCtrl⟩⟩
  case snapIdle =>
    intro hdump hroom hon
    refine ends_of_exec (onRegister_of_hears hh _ _ _) ?_
    rw [State.writeSwpCtrl_snap s w hen, State.updSwp_enable hon, State.snap_idle hon hdump]
    exact State.takeSweep_of_room hroom
  case snapBusy =>
    intro hdump
    obtain ⟨d, hd⟩ := Option.ne_none_iff_exists'.mp hdump
    refine ends_of_exec (onRegister_of_hears hh _ _ _) ?_
    rw [State.writeSwpCtrl_snap s w hen, State.snap_during (s := s.updSwp (fun v => { v with enable := true })) rfl hd]
    rfl
  case instant =>
    intro hdump hroom
    refine ends_of_exec (t := s.takeSweep false) ?_ (State.takeSweep_of_room hroom)
    show Host.Outcome.next s.sweepInstant = _
    unfold State.sweepInstant
    rw [if_neg (by simp [hen, hper]), if_neg (by simp [hdump])]
  case missed =>
    intro hdump
    obtain ⟨d, hd⟩ := Option.ne_none_iff_exists'.mp hdump
    refine ends_of_exec (t := s.sweepMissed 0) ?_ (s.sweepMissed_counted 0)
    show Host.Outcome.next s.sweepInstant = _
    unfold State.sweepInstant
    rw [if_neg (by simp [hen, hper]), if_pos (by simp [hd])]
  case written =>
    intro s d hd hsnap
    refine ends_of_exec rfl ?_
    unfold State.dumpWritten
    rw [hd]
    dsimp only
    rw [if_neg (by simp [hsnap])]
    refine ⟨by rw [← hsnap]; rfl, (Tab.get_bump _ _ _ _).trans (if_pos rfl), ?_⟩
    rw [State.intPending_interrupt]
    simp
  case head => exact ends_of_exec (onRegister_of_hears hh _ _ _) (s.writeSwpHead_swp w.toNat)
  case loupeHead => exact ends_of_exec (onRegister_of_hears hh _ _ _) (s.writeLoupeHead_swp w.toNat)
  case evtHead => exact ends_of_exec (onRegister_of_hears hh _ _ _) (s.writeEvtHead_head w.toNat)
  case ring => exact ends_of_exec (onRegister_of_hears hh _ _ _) (s.writeSwpCtrl_ringReset w h0 h1)
  case loupeRing => exact ends_of_exec (onRegister_of_hears hh _ _ _) (s.writeLoupeCtrl_ringReset w h0)
  case evtRing => exact ends_of_exec (onRegister_of_hears hh _ _ _) (s.writeEvtCtrl_ringReset w h0)
  case evtCtrl => exact ends_of_exec (onRegister_of_hears hh _ _ _) (s.writeEvtCtrl_regs w.toNat)

end Sys2Proof.Machine
end


section
/-! PROOF. DOM_LEAVE where the set of a domain bake carries the request of the DOM_LEAVE itself. -/

namespace Sys2Proof.Machine

/-- DOM_LEAVE in mailbox 0. -/
def leaveDomain : Req := Req.plain 0 []

/-- A worker that prepares the set of a domain bake; the set names that very DOM_LEAVE as the command to complete. -/
def State.leavesOwnSet : State :=
  { State.reset with
    mbx := { State.reset.mbx with ready := true }
    pwr := { State.reset.pwr with roleStrap := 1 }
    bake := { State.reset.bake with
      sets := [{ SetSt.init with id := 1, state := .preparing, domain := true, req := some leaveDomain, op := 0x0E07 }] } }

theorem leavesOwnSet_fresh : State.leavesOwnSet.fresh 0x0E07 leaveDomain :=
  ⟨by decide, by decide +kernel, by decide +kernel, by decide +kernel, rfl, by decide +kernel, rfl, rfl⟩

/-- The withdrawn set answers the command first, with the 24 bytes of a BAKE_COMMIT. -/
theorem leavesOwnSet_answers : ∃ t, exec (.domLeave leaveDomain) State.leavesOwnSet = .next t ∧ (t.box 0).resp.length = 40 :=
  ⟨_, rfl, by decide +kernel⟩

/-- Refutes O31: DOM_LEAVE frees the set of the domain bake, which answers the request that the set names; nothing in the statement
says that this is not the DOM_LEAVE itself, and there its response carries 24 bytes and is not the empty one. -/
theorem not_domainCommands : ¬ Obligations.DomainCommands := by
  unfold Obligations.DomainCommands
  rintro ⟨-, -, -, -, -, -, -, -, -, -, -, hleave⟩
  obtain ⟨t, ht, ⟨hdelivered, -⟩, -⟩ := hleave leaveDomain State.leavesOwnSet leavesOwnSet_fresh trivial
  obtain ⟨u, hu, hlength⟩ := leavesOwnSet_answers
  obtain rfl : t = u := Host.Outcome.next.inj (ht.symm.trans hu)
  have hresp : (t.box 0).resp.length = 16 := congrArg List.length (hdelivered rfl).2
  omega

end Sys2Proof.Machine
end


section
/-! PROOF. The telemetry and mirroring commands, and the power commands: what each leaves of the mirror sessions, the ports and the
slices (R472, R478, R482, R485, R494 to R496, R502, R503). -/

namespace Sys2Proof.Machine

section

variable {s t u : State} {op : Nat} {p : List Byte}

/-! ### What mail leaves -/

theorem State.sliceSt_of_mailed (h : u = s.mailed u) : u.sliceSt = s.sliceSt := (congrArg State.sliceSt h).trans rfl

theorem State.sliceSt_of_written (h : u = (s.shadow op p).mailed u) : u.sliceSt = s.sliceSt := (congrArg State.sliceSt h).trans rfl

theorem State.mirrorOf_of_mailed (h : u = s.mailed u) : u.mirrorOf = s.mirrorOf := (congrArg State.mirrorOf h).trans rfl

theorem State.mirrorOf_of_written (h : u = (s.shadow op p).mailed u) : u.mirrorOf = s.mirrorOf :=
  (congrArg State.mirrorOf h).trans rfl

theorem State.bakeHolds_of_mailed (h : u = s.mailed u) : u.bakeHolds = s.bakeHolds := (congrArg State.bakeHolds h).trans rfl

theorem State.lanesOff_of_mailed (h : u = s.mailed u) : u.lanesOff = s.lanesOff := (congrArg State.lanesOff h).trans rfl

theorem State.hostBusy_of_mailed (h : u = s.mailed u) : u.hostBusy = s.hostBusy := (congrArg State.hostBusy h).trans rfl

theorem State.dropHeld_sliceSt (s : State) : s.dropHeld.sliceSt = s.sliceSt := rfl

/-- Running a command leaves the slices as its body leaves them. -/
theorem State.sliceSt_runJob (s : State) (op : Nat) (r : Req) (body : Body) :
    (s.runJob op r body).sliceSt = (body r s).1.sliceSt := by
  unfold State.runJob
  split
  · exact (State.completeNow_frame (Touch.or_self _) .refl _ _ _).sliceSt_eq rfl
  · split <;> rfl

/-- A fresh command that leaves a slice: the row leaves what the body leaves of it, whether or not it answers. -/
theorem fresh_slice {body : Body} {i : Req → Instr} {r : Req} {n : Nat} {post : SliceSt → Prop}
    (he : ∀ r s, exec (i r) s = mailboxCommand op body r s) (hf : s.fresh op r)
    (hb : post ((body r (s.begun op r)).1.sliceSt n)) : ∃ t, exec (i r) s = .next t ∧ post (t.sliceSt n) := by
  refine ⟨_, (he r s).trans (fresh_runs hf), ?_⟩
  rw [State.sliceSt_runJob]
  exact hb

end

/-! ### Slices that a command resets or parks (R494 to R496) -/

theorem State.resetSlice_sliceSt (s : State) (n cause : Nat) (q : Option (Nat × Req)) :
    ((s.resetSlice n cause q).sliceSt n).state = .restoring ∧ ((s.resetSlice n cause q).sliceSt n).req = q := by
  unfold State.resetSlice
  simp only [State.raise_rest, State.bumpPwr_rest, State.sliceSt_updSlice_same, and_self]

theorem State.parkNow_sliceSt (s : State) (n : Nat) : ((s.parkNow n).sliceSt n).state = .parked := by
  unfold State.parkNow
  simp only [State.raise_rest, State.bumpPwr_rest, State.sliceSt_updSlice_same]

section

variable {s : State} {r : Req}

theorem pwrSliceResetBody_resets (hn : rd r.payload 0 1 ≤ 15) (hr : resv r.payload 1 3 = true) (hb : s.bakeHolds = false)
    (hbetween : (s.sliceSt (rd r.payload 0 1)).between = false) (hparked : (s.sliceSt (rd r.payload 0 1)).state ≠ .parked) :
    pwrSliceResetBody r s = (s.resetSlice (rd r.payload 0 1) 0 (some (0x1104, r)), none) := by
  simp [pwrSliceResetBody, hr, hb, hbetween, hparked, Nat.not_lt.mpr hn]

theorem pwrSliceResetBody_busy (hn : rd r.payload 0 1 ≤ 15) (hr : resv r.payload 1 3 = true) (hb : s.bakeHolds = true) :
    pwrSliceResetBody r s = (s, some (Resp.err stBusy 0x0D04)) := by
  simp [pwrSliceResetBody, errCmd, hr, hb, Nat.not_lt.mpr hn]

theorem pwrSliceParkBody_action (hn : rd r.payload 0 1 ≤ 15) (ha : rd r.payload 1 1 ≤ 1) (hr : resv r.payload 2 2 = true) :
    pwrSliceParkBody r s = if rd r.payload 1 1 = 0 then s.parkCmd (rd r.payload 0 1) else s.unparkSlice (rd r.payload 0 1) r := by
  simp [pwrSliceParkBody, hr, Nat.not_lt.mpr hn, Nat.not_lt.mpr ha]

end

section

variable {s : State} {n : Nat}

theorem State.parkCmd_lanesOff (hb : s.bakeHolds = false) (hparked : (s.sliceSt n).state ≠ .parked)
    (hbetween : (s.sliceSt n).between = false) : s.parkCmd n = if s.lanesOff n = false then errCmd s stNotPermitted 0x1102
      else if s.hostBusy n then errCmd s stNotPermitted 0x1103 else okCmd (s.parkNow n).dropHeld [] := by
  simp [State.parkCmd, hb, hparked, hbetween]

theorem State.unparkSlice_parked {r : Req} (h : (s.sliceSt n).state = .parked) : s.unparkSlice n r
    = ((s.updSlice n (fun x => { x with state := .restoring, cause := causeUnpark, req := some (0x1105, r) })).dropHeld, none) :=
  if_pos h

end

theorem pwrSetDroop_carried : Carried 0x1102 .pwrSetDroop (fun p s => checkPwrSetDroop p s = none)
    (fun p s t => ∀ n, n < 16 → t.sliceSt n = if bit (rd p 0 2) n = true then
      { s.sliceSt n with droopMv := rd p 2 2, hystMv := rd p 4 2 } else s.sliceSt n) := by
  refine carried_of (fun _ _ => rfl) (fun _ _ _ _ hok => hok)
    (fun p s => foldl_read State.mbx
      (f := fun t n => t.updSlice n (fun x => { x with droopMv := rd p 2 2, hystMv := rd p 4 2 })) (fun _ _ _ => rfl) s) (fun p s u t hu ht _ n hn => ?_)
  rw [State.sliceSt_of_written ht, ← State.sliceSt_of_mailed hu]
  refine (foldl_changes (read := State.sliceSt) (f := fun x : SliceSt => { x with droopMv := rd p 2 2, hystMv := rd p 4 2 })
    (fun s k j => ?_) (fun _ => rfl) (bitList 16 (rd p 0 2)) u n).trans ?_
  · rw [State.sliceSt_updSlice]
  · simp only [mem_bitList, hn, true_and]

/-- Settles O33: the writes by what their fields leave, the reads by what mail leaves, the slices by what reset and park leave of
the one they name. -/
theorem telemetryPowerCommands : Obligations.TelemetryPowerCommands := by
  unfold Obligations.TelemetryPowerCommands
  refine ⟨?mirror, ?portMirror, ?getMirror, ?drops, ?counters, ?status, pwrSetDroop_carried, ?thermal, ?reset, ?resetBusy, ?park,
    ?unpark, ?lanes, ?pwrCounters⟩
  case mirror =>
    refine carried_of (fun _ _ => rfl) (fun p s u hu hok => by rw [hu]; exact hok) (fun _ _ => rfl) (fun p s u t hu ht _ => ?_)
    have hm : ∀ n, t.mirrorOf n = if rd p 0 1 = n then mirrorFrom p (s.mirrorOf n).seq else s.mirrorOf n := fun n => by
      rw [State.mirrorOf_of_written ht, ← State.mirrorOf_of_mailed hu]
      exact Tab.get_upd Mirror.init u.tel.mirrors (rd p 0 1) n (fun m => mirrorFrom p m.seq)
    exact ⟨(hm _).trans (if_pos rfl), fun n hn => (hm n).trans (if_neg (Ne.symm hn))⟩
  case portMirror =>
    refine carried_of (fun _ _ => rfl) (fun p s u hu hok => by rw [hu]; exact hok) (fun _ _ => rfl) (fun p s u t hu ht _ => ?_)
    rw [State.port_of_written ht, ← State.port_of_mailed hu]
    unfold applyTelSetPortMirror
    rw [State.port_updPort_same]
    exact ⟨rfl, rfl, fun m hm => by rw [State.port_updPort, if_neg (Ne.symm hm)]⟩
  case getMirror =>
    refine answered_of (body := telGetMirrorBody) (fun _ _ => rfl) (fun r s u _ _ hu hok => ?_)
    show (u, some (if rd r.payload 0 1 ≤ 63 then _ else _)) = _
    rw [if_pos hok, hu]
    rfl
  case drops =>
    refine answered_of (body := telGetDropsBody) (fun _ _ => rfl) (fun r s u _ _ hu hok => ?_)
    have ha : u.argAnyPort r.payload = true := by rw [hu]; exact hok
    show (u, some (if u.argAnyPort r.payload then _ else _)) = _
    rw [if_pos ha, hu]
    rfl
  case counters => exact answered_of (body := telGetCountersBody) (fun _ _ => rfl) (fun r s u _ hbegun _ _ => by rw [hbegun]; rfl)
  case status => exact answered_of (body := pwrGetStatusBody) (fun _ _ => rfl) (fun r s u _ _ hu _ => by rw [hu]; rfl)
  case thermal =>
    refine carried_of (fun _ _ => rfl) (fun p s u _ ⟨hlo, hhi, hr⟩ => by simp [checkPwrSetThermal, need, hlo, hhi, hr])
      (fun _ _ => rfl) (fun p s u t _ ht _ => ?_)
    rw [ht]
    rfl
  case reset =>
    intro r s hf hn hr hb hbetween hparked
    have hm := begun_mbx hf
    rw [← State.bakeHolds_of_mailed hm] at hb
    rw [← State.sliceSt_of_mailed hm] at hbetween hparked
    refine fresh_slice (body := pwrSliceResetBody) (post := fun x => x.state = .restoring ∧ x.req = some (0x1104, r))
      (fun _ _ => rfl) hf ?_
    rw [pwrSliceResetBody_resets hn hr hb hbetween hparked]
    exact State.resetSlice_sliceSt _ _ _ _
  case resetBusy =>
    exact turned_of (body := pwrSliceResetBody) (fun _ _ => rfl) (fun r s u _ _ hu _ ⟨hn, hr, hb⟩ =>
      pwrSliceResetBody_busy hn hr (by rw [State.bakeHolds_of_mailed hu]; exact hb))
  case park =>
    intro r s hf hn ha hr hb hparked hbetween hlanes hhost
    have hm := begun_mbx hf
    rw [← State.bakeHolds_of_mailed hm] at hb
    rw [← State.sliceSt_of_mailed hm] at hbetween hparked
    rw [← State.lanesOff_of_mailed hm] at hlanes
    rw [← State.hostBusy_of_mailed hm] at hhost
    refine fresh_slice (body := pwrSliceParkBody) (post := fun x => x.state = .parked) (fun _ _ => rfl) hf ?_
    rw [pwrSliceParkBody_action hn (by omega) hr, if_pos ha, State.parkCmd_lanesOff hb hparked hbetween, if_neg (by simp [hlanes]),
      if_neg (by simp [hhost])]
    show (((State.begun s 0x1105 r).parkNow _).dropHeld.sliceSt _).state = _
    rw [State.dropHeld_sliceSt]
    exact State.parkNow_sliceSt _ _
  case unpark =>
    refine starts_of (body := pwrSliceParkBody) (fun r u => (u.updSlice (rd r.payload 0 1) (fun x =>
      { x with state := .restoring, cause := causeUnpark, req := some (0x1105, r) })).dropHeld) (fun _ _ => rfl)
      (fun r s u _ _ hu ⟨hn, ha, hr, hparked⟩ => ⟨?_, rfl, fun t ht => ?_⟩)
    · rw [pwrSliceParkBody_action hn (by omega) hr, if_neg (by omega),
        State.unparkSlice_parked (by rw [State.sliceSt_of_mailed hu]; exact hparked)]
    · have hslice : ∀ n, t.sliceSt n = if rd r.payload 0 1 = n then
          { s.sliceSt (rd r.payload 0 1) with state := .restoring, cause := causeUnpark, req := some (0x1105, r) } else s.sliceSt n :=
        fun n => by
          rw [State.sliceSt_of_mailed ht, ← State.sliceSt_of_mailed hu]
          exact State.sliceSt_updSlice _ _ _ _
      exact ⟨(hslice _).trans (if_pos rfl), fun n hn => (hslice n).trans (if_neg (Ne.symm hn))⟩
  case lanes =>
    refine turned_of (body := pwrSliceParkBody) (fun _ _ => rfl) (fun r s u _ _ hu _ ⟨hn, ha, hr, hb, hparked, hbetween, hlanes⟩ => ?_)
    rw [← State.bakeHolds_of_mailed hu] at hb
    rw [← State.sliceSt_of_mailed hu] at hbetween hparked
    rw [← State.lanesOff_of_mailed hu] at hlanes
    rw [pwrSliceParkBody_action hn (by omega) hr, if_pos ha, State.parkCmd_lanesOff hb hparked hbetween, if_pos hlanes]
    rfl
  case pwrCounters => exact answered_of (body := pwrGetCountersBody) (fun _ _ => rfl) (fun r s u _ _ hu _ => by rw [hu]; rfl)

end Sys2Proof.Machine
end


section
/-! PROOF. The device commands: what a fresh request finds in the tag history, and the restart that DEV_RESTART begins once its
response is posted (R391, R392, R401, R403, R404). -/

namespace Sys2Proof.Machine

section

variable {s u : State} {op : Nat} {r : Req}

/-! ### Tags that a fresh request finds -/

/-- Taking a request leaves the tag histories. -/
theorem State.begun_recorded (h : s.fresh op r) (fn tag : Nat) : (s.begun op r).mbx.recorded fn tag = s.mbx.recorded fn tag := by
  have hist : (s.begun op r).mbx.hist0 = s.mbx.hist0 ∧ (s.begun op r).mbx.hist1 = s.mbx.hist1 := by
    unfold State.begun
    rw [State.submit_fresh h]
    exact (State.enqueue_frame (Touch.or_self _) (State.readPayload_frame rfl (State.accept_frame rfl .refl _) _ _) _).hist rfl
  unfold MbxSt.recorded MbxSt.hist
  rw [hist.1, hist.2]

theorem State.begun_boxFn (h : s.fresh op r) (b : Nat) : (s.begun op r).boxFn b = s.boxFn b :=
  State.fnOf_eq (State.begun_mailOnly h).ident b

/-- A request with tag 0 is no job of any tag. -/
theorem State.begun_taggedJob (h : s.fresh op r) (ht : r.tag = 0) {fn tag : Nat} (hne : tag ≠ 0) :
    (s.begun op r).taggedJob fn tag = s.taggedJob fn tag := by
  obtain ⟨b, hjobs⟩ := State.begun_jobs h
  have hreq : (s.newJob op r).req = r := rfl
  unfold State.taggedJob
  simp only [State.begun_boxFn h]
  rw [hjobs, List.find?_append, List.find?_singleton, if_neg (by simp [hreq, ht, Ne.symm hne]), Option.or_none]

/-! ### DEV_GET_RESULT (R403) -/

theorem devGetResultBody_recorded {h : HistEntry} (hn : rd r.payload 0 4 ≠ 0)
    (hr : s.mbx.recorded (s.boxFn r.box) (rd r.payload 0 4) = some h) : devGetResultBody r s = (s, some (Resp.ok h.result)) := by
  simp [devGetResultBody, readCmd, hn, hr]

theorem devGetResultBody_unrecorded (hn : rd r.payload 0 4 ≠ 0)
    (hr : s.mbx.recorded (s.boxFn r.box) (rd r.payload 0 4) = none) : devGetResultBody r s = (s, some
      (if (s.taggedJob (s.boxFn r.box) (rd r.payload 0 4)).isSome then Resp.err stPending dRunning else Resp.err stBadArg dTagUnknown)) := by
  simp [devGetResultBody, readCmd, hn, hr]

/-! ### A restart begins (R401, R419) -/

/-- A fresh request whose body answers, and leaves the queue: the command completes and the response is delivered. -/
theorem fresh_completes {body : Body} {x : Resp} (h : s.fresh op r) (hb : body r (s.begun op r) = (u, some x))
    (hm : u.mbx.jobs = (s.begun op r).mbx.jobs) :
    ∃ t, mailboxCommand op body r s = .next t ∧ t.delivered op r x ∧ MailOnly u t := by
  obtain ⟨b, hj⟩ := State.begun_jobs h
  let j : Job := { s.newJob op r with boxed := !r.async, buf := b }
  have hu : u.mbx.jobs = s.mbx.jobs ++ [j] := by rw [hm, hj]
  have hdone : u.completeNow op r x = u.endJob j s.mbx.jobs x := by
    unfold State.completeNow State.endOldest
    rw [State.job?_last hu h.2.2.1 rfl rfl rfl]
    dsimp only
    rw [hu, dropJob_last op r false j rfl rfl rfl _ h.2.2.1]
  obtain ⟨hmail, -, hdel⟩ := State.endJob_spec u j s.mbx.jobs x h.1 rfl rfl (State.fresh_tag h)
  refine ⟨_, ?_, hdel, hmail⟩
  rw [fresh_runs h, ← hdone]
  unfold State.runJob
  rw [hb]

/-- A response posted in a mailbox leaves the others. -/
theorem State.postBox_box_other (s : State) {n b : Nat} (tag : Nat) (ind : Bool) (addr : Nat) (x : Resp) (h : n ≠ b) :
    (s.postBox n tag ind addr x).box b = s.box b := by
  unfold State.postBox State.box
  dsimp only
  rw [Tab.get_upd, if_neg h]

/-- Answering the lost mailboxes leaves one that is not submitted. -/
theorem State.foldl_answerLost_box {b : Nat} : ∀ (l : List Nat) (s : State), (s.box b).state = .responseReady →
    ((l.foldl State.answerLost s).box b).state = .responseReady
  | [], _, h => h
  | n :: l, s, h => by
    refine State.foldl_answerLost_box l _ ?_
    unfold State.answerLost
    split
    next hsub =>
      have hne : n ≠ b := fun e => by rw [e, h] at hsub; exact absurd hsub (by decide)
      rw [State.postBox_box_other _ _ _ _ _ hne]
      exact h
    next => exact h

/-- What a restart moves once the lost mailboxes are answered. -/
def Touch.forgets : Touch :=
  { pools := true, bufCtr := true, evt := true, telCtr := true, jobs := true, hist := true, lostAsync := true, irq := true,
    out := true, prismBanks := true, gens := true, em := true, fwdCtr := true, heldEvents := true, sets := true }

/-- The jobs are forgotten and the sets aborted. -/
theorem State.abortSets_frame (s : State) (cause : Nat) (l : List SetSt) :
    Frame .forgets s (l.foldl (fun t x => t.abortSet cause x) s.forgetJobs) :=
  Frame.foldl _ (fun _ _ h => State.abortSet_frame rfl h _ _) _ (State.forgetJobs_frame rfl .refl)

/-- A restart keeps a response that stands in its mailbox. -/
theorem State.startRestart_box {b : Nat} (cause : Nat) (h : (s.box b).state = .responseReady) :
    ((s.startRestart cause).box b).state = .responseReady := by
  unfold State.startRestart
  dsimp only
  unfold State.box
  rw [(State.abortSets_frame _ _ _).boxes rfl]
  exact State.foldl_answerLost_box (List.range 32) _ h

theorem State.foldl_answerLost_life (l : List Nat) (s : State) : Frame { mbxCtr := true, boxes := true, irq := true, out := true }
    s (l.foldl State.answerLost s) :=
  Frame.foldl _ (fun _ _ h => State.answerLost_frame (Touch.or_self _) h _) _ .refl

theorem State.startRestart_life (s : State) (cause : Nat) : (s.startRestart cause).mbx.restarting = some cause
    ∧ (s.startRestart cause).mbx.ready = false ∧ (s.startRestart cause).mbx.restarts = (s.mbx.restarts + 1) % 2 ^ 32 := by
  have hlost := (State.foldl_answerLost_life (List.range 32)
    { s with mbx := { s.mbx with ready := false, restarting := some cause, restarts := (s.mbx.restarts + 1) % 2 ^ 32 } }).life rfl
  unfold State.startRestart
  dsimp only
  generalize List.foldl State.answerLost _ (List.range 32) = b at hlost ⊢
  obtain ⟨hready, -, hrestarts, hrestarting, -⟩ := hlost
  obtain ⟨gready, -, grestarts, grestarting, -⟩ := (State.abortSets_frame b cause b.forgetJobs.bake.sets).life rfl
  exact ⟨grestarting.trans hrestarting, gready.trans hready, grestarts.trans hrestarts⟩

theorem devRestart_restarts (hf : s.fresh 0x0104 r) (hr : resv r.payload 0 4 = true) (hn : s.mbx.restarting = none) :
    ∃ t, exec (.devRestart r) s = .next t ∧ t.mbx.restarting = some 0 ∧ t.mbx.ready = false
      ∧ t.mbx.restarts = (s.mbx.restarts + 1) % 2 ^ 32 ∧ (r.async = false → (t.box r.box).state = .responseReady) := by
  have hmail := State.begun_mailOnly hf
  have hbody : devRestartBody r (s.begun 0x0104 r)
      = ({ s.begun 0x0104 r with mbx := { (s.begun 0x0104 r).mbx with restarting := some 0 } }, some (Resp.ok [])) := by
    simp [devRestartBody, okCmd, hr, hmail.restarting, hn]
  obtain ⟨t, hrun, ⟨hbox, -⟩, hm⟩ := fresh_completes hf hbody rfl
  have hready : t.mbx.ready = true := (hm.ready.trans hmail.ready).trans hf.2.2.2.2.1
  have hrestart : exec (.devRestart r) s = .next (t.startRestart 0) := by
    show restartAfter (mailboxCommand 0x0104 devRestartBody r s) = _
    rw [hrun]
    show Host.Outcome.next t.afterCommand = _
    unfold State.afterCommand
    rw [hm.restarting]
    dsimp only
    rw [if_pos hready]
  obtain ⟨hlife, hdown, hcount⟩ := t.startRestart_life 0
  refine ⟨_, hrestart, hlife, hdown, ?_, fun ha => State.startRestart_box 0 (hbox ha).1⟩
  rw [hcount, hm.restarts]
  exact congrArg (fun n => (n + 1) % 2 ^ 32) hmail.restarts

end

/-- Settles O29: the reads answer from what a fresh request finds, and DEV_RESTART posts its response before it restarts. -/
theorem deviceCommands : Obligations.DeviceCommands := by
  unfold Obligations.DeviceCommands
  refine ⟨?info, ?recorded, ?running, ?unknown, ?zero, ?echo, fun r s hf hr hn => devRestart_restarts hf hr hn, ?counters⟩
  case info => exact answered_of (body := devGetInfoBody) (fun _ _ => rfl) (fun r s u _ _ hu _ => by rw [hu]; rfl)
  case recorded =>
    intro r s h hf hn hr
    exact fresh_read hf (devGetResultBody_recorded hn (by rw [State.begun_boxFn hf, State.begun_recorded hf]; exact hr))
  case running =>
    refine turned_of (body := devGetResultBody) (fun _ _ => rfl) (fun r s u hf hu _ _ ⟨hn, hr, hj, ht⟩ => ?_)
    rw [hu, devGetResultBody_unrecorded hn (by rw [State.begun_boxFn hf, State.begun_recorded hf]; exact hr), State.begun_boxFn hf,
      State.begun_taggedJob hf ht hn, if_pos hj]
  case unknown =>
    refine turned_of (body := devGetResultBody) (fun _ _ => rfl) (fun r s u hf hu _ _ ⟨hn, hr, hj, ht⟩ => ?_)
    rw [hu, devGetResultBody_unrecorded hn (by rw [State.begun_boxFn hf, State.begun_recorded hf]; exact hr), State.begun_boxFn hf,
      State.begun_taggedJob hf ht hn, if_neg (by simp [hj])]
  case zero =>
    exact turned_of (body := devGetResultBody) (fun _ _ => rfl) (fun r s u _ _ _ _ hn => by simp [devGetResultBody, readCmd, hn])
  case echo => exact answered_of (body := devEchoBody) (fun _ _ => rfl) (fun r s u _ _ _ _ => rfl)
  case counters =>
    refine answered_of (body := devGetCountersBody) (fun _ _ => rfl) (fun r s u hf hu _ _ => ?_)
    rw [hu, ← State.begun_boxFn hf]
    rfl

end Sys2Proof.Machine
end


section
/-! PROOF. The identity commands: bytes written into a slot of the boot flash, the copies of the boot configuration, and what the
commands leave of fuses and pinned manager (R436, R441, R442, R444, R446, R451, R454, R455). -/

namespace Sys2Proof.Machine

/-! ### Bytes of a slot (R441) -/

/-- A byte written into a slot is read back, and the others stay. -/
theorem Slot.read_put (t : Slot) (a x : Nat) (b : Byte) : (t.put a b).read x = if a = x then b else t.read x := by
  show (Tab.find (if b = t.base a then Tab.erase a t.bytes else Tab.insert a b t.bytes) x).getD (t.base x) = _
  by_cases hx : a = x
  · subst hx
    by_cases hb : b = t.base a
    · rw [if_pos hb, if_pos rfl, Tab.find_erase, if_pos rfl, hb]
      rfl
    · rw [if_neg hb, if_pos rfl, Tab.find_insert, if_pos rfl]
      rfl
  · rw [if_neg hx]
    split
    · rw [Tab.find_erase, if_neg hx]
      rfl
    · rw [Tab.find_insert, if_neg hx]
      rfl

/-- Bytes written from an offset: each erased byte takes its data, and no other address changes. -/
theorem writeFlash_read (free : Nat → Nat) (l : List Byte) (a : Nat) (t : Slot) (x : Nat) : (writeFlash free a l t).read x
    = if a ≤ x ∧ x < a + l.length then (if t.read x = 0xFF then l.getD (x - a) 0 else BitVec.ofNat 8 (free x)) else t.read x := by
  induction l generalizing a t with
  | nil => rw [if_neg (by simp)]; rfl
  | cons b r ih =>
    rw [writeFlash, ih, Slot.read_put, List.length_cons]
    by_cases hx : a = x
    · subst hx
      simp
    · rw [if_neg hx]
      by_cases hin : a + 1 ≤ x ∧ x < a + 1 + r.length
      · have hsub : x - a = (x - (a + 1)) + 1 := by omega
        rw [if_pos hin, if_pos (show a ≤ x ∧ x < a + (r.length + 1) by omega), hsub, List.getD_cons_succ]
      · rw [if_neg hin, if_neg (by omega)]

/-- A slot that is set is read back, and the other stays. -/
theorem IdSt.slot_setSlot (i : IdSt) (k j : Nat) (t : Slot) : (i.setSlot k t).slot j = if (k = 0 ↔ j = 0) then t else i.slot j := by
  unfold IdSt.slot IdSt.setSlot
  by_cases hk : k = 0 <;> by_cases hj : j = 0 <;> simp [hk, hj]

theorem getD_slice (l : List Byte) {o n i : Nat} (hi : i < n) : (slice l o n).getD i 0 = l.getD (o + i) 0 := by
  simp [slice, List.getD_eq_getElem?_getD, hi]

/-! ### Bytes of a record (R442) -/

theorem length_le (n v : Nat) : (le n v).length = n := by
  induction n generalizing v with
  | zero => rfl
  | succ n ih => rw [le, List.length_cons, ih]

/-- The entries of a memory after consecutive bytes are written: old ones, and ones among the bytes. -/
theorem Tab.mem_writeBytes {d : Byte} (l : List Byte) {t : Tab Byte} {k : Nat} {e : Nat × Byte}
    (h : e ∈ Tab.writeBytes d t k l) : e ∈ t ∨ e.1 < k + l.length := by
  induction l generalizing t k with
  | nil => exact .inl h
  | cons b r ih =>
    rcases ih h with hset | hlt
    · unfold Tab.set at hset
      split at hset
      · exact .inl (List.mem_of_mem_filter hset)
      · rcases Tab.mem_insert hset with rfl | hold
        · exact .inr (by simp)
        · exact .inl hold
    · rw [List.length_cons]
      exact .inr (by omega)

/-- Bytes written are read back. -/
theorem Tab.readBytes_writeBytes (d : Byte) (l : List Byte) (t : Tab Byte) (k : Nat) :
    Tab.readBytes d (Tab.writeBytes d t k l) k l.length = l := by
  unfold Tab.readBytes
  refine List.ext_getElem (by simp) (fun i hi hl => ?_)
  rw [List.getElem_map, List.getElem_range, Tab.get_writeBytes, if_pos (by omega), Nat.add_sub_cancel_left,
    List.getD_eq_getElem _ _ hl]

/-! ### The copies of the boot configuration (R442) -/

/-- A copy with this record and nothing behind it. -/
def cfgCopyOf (seq pref : Nat) (trial x8 : Bool) : Tab Byte := Tab.writeBytes 0xFF [] 0 (cfgRecord seq pref trial x8)

theorem cfgRecord_length (seq pref : Nat) (trial x8 : Bool) : (cfgRecord seq pref trial x8).length = 16 := by
  simp [cfgRecord, length_le]

theorem le4 (v : Nat) : le 4 v = [BitVec.ofNat 8 v, BitVec.ofNat 8 (v / 256), BitVec.ofNat 8 (v / 256 / 256),
    BitVec.ofNat 8 (v / 256 / 256 / 256)] := rfl

theorem ofLe_le4 {v : Nat} (h : v < 2 ^ 32) : ofLe (le 4 v) = v := by
  simp only [le4, ofLe, BitVec.toNat_ofNat]
  omega

/-- Bytes 0 to 11 of a record. -/
def cfgHead (seq pref : Nat) (trial x8 : Bool) : List Byte :=
  le 4 0x46434C4E ++ le 4 seq ++ le 1 pref ++ le 1 (b2n trial + 2 * b2n x8) ++ le 2 0

theorem cfgRecord_eq (seq pref : Nat) (trial x8 : Bool) : cfgRecord seq pref trial x8
    = cfgHead seq pref trial x8 ++ le 4 (crc32c (cfgHead seq pref trial x8)).toNat := rfl

theorem cfgRecord_crc (seq pref : Nat) (trial x8 : Bool) :
    rd (cfgRecord seq pref trial x8) 12 4 = (crc32c ((cfgRecord seq pref trial x8).take 12)).toNat := by
  have hlen : (cfgHead seq pref trial x8).length = 12 := by simp [cfgHead, length_le]
  have htail : slice (cfgRecord seq pref trial x8) 12 4 = le 4 (crc32c (cfgHead seq pref trial x8)).toNat := by
    rw [cfgRecord_eq, slice, List.drop_left' hlen, List.take_of_length_le (by simp [length_le])]
  rw [cfgRecord_eq, List.take_left' hlen, ← cfgRecord_eq, rd, htail]
  exact ofLe_le4 (crc32c _).isLt

theorem ofLe_le1 (v : Nat) : ofLe (le 1 v) = v % 256 := by
  simp [le, ofLe]

/-- A copy that has just been written is valid and says what its record says. -/
theorem bootCfg_cfgCopyOf {seq pref : Nat} (trial x8 : Bool) (hs : seq < 2 ^ 32) (hp : pref ≤ 1) :
    bootCfg (cfgCopyOf seq pref trial x8) = ⟨true, seq, pref, trial, x8⟩ := by
  have hread : Tab.readBytes 0xFF (cfgCopyOf seq pref trial x8) 0 16 = cfgRecord seq pref trial x8 := by
    rw [← cfgRecord_length seq pref trial x8]
    exact Tab.readBytes_writeBytes _ _ _ _
  have hall : (cfgCopyOf seq pref trial x8).all (fun e => decide (e.1 < 16) || e.2 == 0xFF) = true := by
    rw [List.all_eq_true]
    intro e he
    have hlt := (Tab.mem_writeBytes _ he).resolve_left (by simp)
    rw [cfgRecord_length] at hlt
    simp only [Nat.zero_add] at hlt
    simp [hlt]
  have hmagic : rd (cfgRecord seq pref trial x8) 0 4 = 0x46434C4E := ofLe_le4 (by decide)
  have hseq : rd (cfgRecord seq pref trial x8) 4 4 = seq := ofLe_le4 hs
  have hpref : rd (cfgRecord seq pref trial x8) 8 1 = pref := (ofLe_le1 pref).trans (Nat.mod_eq_of_lt (by omega))
  have hflags : rd (cfgRecord seq pref trial x8) 9 1 = b2n trial + 2 * b2n x8 :=
    (ofLe_le1 _).trans (by cases trial <;> cases x8 <;> rfl)
  have hcrc : rd (cfgRecord seq pref trial x8) 12 4 = (crc32c ((cfgRecord seq pref trial x8).take 12)).toNat :=
    cfgRecord_crc seq pref trial x8
  have hzero : allZero (slice (cfgRecord seq pref trial x8) 10 2) = true := rfl
  unfold bootCfg
  rw [hread]
  simp only [hmagic, hseq, hpref, hflags, hcrc, hzero, hall, hp, beq_self_eq_true, decide_true, Bool.and_self, BootCfg.mk.injEq,
    true_and]
  cases trial <;> cases x8 <;> exact ⟨rfl, rfl⟩

/-! ### The copy that ID_SET_BOOT rewrites (R442) -/

section

variable {i : IdSt} {pref : Nat} {trial x8 : Bool}

/-- Copy 0 is the older one. -/
def IdSt.writesCopy0 (i : IdSt) : Prop := i.inCopy1 = true ∨ (bootCfg i.cfg0).valid = false

theorem IdSt.writeCfg_copy0 (h : i.writesCopy0) : i.writeCfg pref trial x8
    = { i with cfg0 := cfgCopyOf ((i.cfgSeq + 1) % 2 ^ 32) pref trial x8 } := if_pos h

theorem IdSt.writeCfg_copy1 (h : ¬ i.writesCopy0) : i.writeCfg pref trial x8
    = { i with cfg1 := cfgCopyOf ((i.cfgSeq + 1) % 2 ^ 32) pref trial x8 } := if_neg h

/-- Behind its record the copy is erased. -/
theorem cfgCopyOf_erased (seq : Nat) {a : Nat} (h : 16 ≤ a) : Tab.get 0xFF (cfgCopyOf seq pref trial x8) a = 0xFF := by
  unfold cfgCopyOf
  rw [Tab.get_writeBytes, cfgRecord_length, if_neg (by omega)]
  rfl

theorem IdSt.cfg_copy1 (h : i.inCopy1 = true) : i.cfg = bootCfg i.cfg1 := by
  simp [IdSt.cfg, IdSt.cfgCopy, h]

theorem IdSt.cfg_copy0 (h : i.inCopy1 = false) (hv : (bootCfg i.cfg0).valid = true) : i.cfg = bootCfg i.cfg0 := by
  simp [IdSt.cfg, IdSt.cfgCopy, h, hv]

/-- What ID_SET_BOOT writes comes in force while its sequence number does not wrap. -/
theorem IdSt.cfg_writeCfg (hp : pref ≤ 1) (hs : i.cfgSeq + 1 < 2 ^ 32) :
    (i.writeCfg pref trial x8).cfg = ⟨true, (i.cfgSeq + 1) % 2 ^ 32, pref, trial, x8⟩ := by
  have hcopy := bootCfg_cfgCopyOf trial x8 (Nat.mod_lt (i.cfgSeq + 1) (show 0 < 2 ^ 32 by decide)) hp
  have hmod : (i.cfgSeq + 1) % 2 ^ 32 = i.cfgSeq + 1 := Nat.mod_eq_of_lt hs
  by_cases h : i.writesCopy0
  · rw [IdSt.writeCfg_copy0 h]
    have hin : ({ i with cfg0 := cfgCopyOf ((i.cfgSeq + 1) % 2 ^ 32) pref trial x8 } : IdSt).inCopy1 = false := by
      unfold IdSt.inCopy1
      dsimp only
      rw [hcopy, hmod]
      rcases h with hone | hinvalid
      · have hseq : i.cfgSeq = (bootCfg i.cfg1).seq := congrArg BootCfg.seq (IdSt.cfg_copy1 hone)
        simp [hseq]
      · cases hone : i.inCopy1 with
        | true =>
          have hseq : i.cfgSeq = (bootCfg i.cfg1).seq := congrArg BootCfg.seq (IdSt.cfg_copy1 hone)
          simp [hseq]
        | false =>
          have hv : (bootCfg i.cfg1).valid = false := by simpa [IdSt.inCopy1, hinvalid] using hone
          simp [hv]
    rw [IdSt.cfg_copy0 hin (by rw [hcopy])]
    exact hcopy
  · rw [IdSt.writeCfg_copy1 h]
    have hone : i.inCopy1 = false := by simpa using fun e => h (.inl e)
    have hv : (bootCfg i.cfg0).valid = true := by simpa using fun e => h (.inr e)
    have hseq : i.cfgSeq = (bootCfg i.cfg0).seq := congrArg BootCfg.seq (IdSt.cfg_copy0 hone hv)
    have hin : ({ i with cfg1 := cfgCopyOf ((i.cfgSeq + 1) % 2 ^ 32) pref trial x8 } : IdSt).inCopy1 = true := by
      unfold IdSt.inCopy1
      dsimp only
      rw [hcopy, hmod]
      simp [hseq]
    rw [IdSt.cfg_copy1 hin]
    exact hcopy

end

/-! ### The commands -/

section

variable {s t u : State} {r : Req}

theorem State.ident_of_mailed (h : u = s.mailed u) : u.ident = s.ident := (congrArg State.ident h).trans rfl

theorem State.certBytes_of_mailed (h : u = s.mailed u) : u.certBytes = s.certBytes := (congrArg State.certBytes h).trans rfl

theorem idGetCertBody_of_held {c : List Byte} (hk : rd r.payload 0 1 ≤ 5) (hr : resv r.payload 1 3 = true)
    (hc : s.certBytes (rd r.payload 0 1) (rd r.payload 4 4) = some c) (ho : rd r.payload 8 4 ≤ c.length) :
    idGetCertBody r s = (s, some (Resp.ok (le 4 c.length ++ le 4 (min 2048 (c.length - rd r.payload 8 4))
      ++ padTo 2048 (c.drop (rd r.payload 8 4))))) := by
  simp [idGetCertBody, readCmd, hr, hc, Nat.not_lt.mpr hk, Nat.not_lt.mpr ho]

/-- What ID_WRITE_IMAGE writes into: the slot, erased first if it is asked for. -/
def IdSt.target (i : IdSt) (p : List Byte) : Slot := if rd p 1 1 = 1 then (i.slot (rd p 0 1)).erased else i.slot (rd p 0 1)

/-- The slot it leaves. -/
def State.writtenSlot (s : State) (p : List Byte) : Slot :=
  writeFlash (fun a => Config.freeValue (s.free + a)) (rd p 4 4) (slice p 12 (rd p 8 4)) (s.ident.target p)

/-- Operands of ID_WRITE_IMAGE within their ranges. -/
structure WriteImageOk (p : List Byte) : Prop where
  slot : rd p 0 1 ≤ 1
  erase : rd p 1 1 ≤ 1
  rsvd : resv p 2 2 = true
  pos : 1 ≤ rd p 8 4
  len : rd p 8 4 ≤ 65524
  fits : rd p 4 4 + rd p 8 4 ≤ 25165824

theorem idWriteImageBody_of_ok (h : WriteImageOk r.payload) : idWriteImageBody r s =
    if rd r.payload 0 1 = s.ident.running then errCmd s stNotPermitted 0x0F01
    else okCmd ((s.updIdent (fun i => i.setSlot (rd r.payload 0 1) (s.writtenSlot r.payload))).drawn 25165824) [] := by
  obtain ⟨hk, he, hr, hpos, hlen, hfits⟩ := h
  unfold idWriteImageBody
  dsimp only
  rw [if_neg (by simp [hr]; omega)]
  rfl

/-- The slot after a write: the data where the flash was erased, the old bytes outside, and the other slot as it was. -/
theorem State.writtenSlot_reads {p : List Byte} (hp : rd p 8 4 + 12 ≤ p.length) :
    (∀ i, i < rd p 8 4 → (s.ident.target p).read (rd p 4 4 + i) = 0xFF → (s.writtenSlot p).read (rd p 4 4 + i) = p.getD (12 + i) 0)
      ∧ ∀ a, a < rd p 4 4 ∨ rd p 4 4 + rd p 8 4 ≤ a → (s.writtenSlot p).read a = (s.ident.target p).read a := by
  have hlen : (slice p 12 (rd p 8 4)).length = rd p 8 4 := by
    rw [slice, List.length_take, List.length_drop]
    omega
  constructor
  · intro i hi herased
    rw [State.writtenSlot, writeFlash_read, hlen, if_pos (by omega), if_pos herased, Nat.add_sub_cancel_left, getD_slice _ hi]
  · intro a ha
    rw [State.writtenSlot, writeFlash_read, hlen, if_neg (by omega)]

theorem idVerifyImageBody_of_ok (hk : rd r.payload 0 1 ≤ 1) (hr : resv r.payload 1 3 = true) : idVerifyImageBody r s =
    (s.updIdent (fun i => i.setSlot (rd r.payload 0 1) { s.ident.slot (rd r.payload 0 1) with
        result := (s.ident.slot (rd r.payload 0 1)).check s.ident.minSvn }),
      some (Resp.ok (le 1 ((s.ident.slot (rd r.payload 0 1)).check s.ident.minSvn) ++ le 1 0
        ++ le 2 (s.ident.slot (rd r.payload 0 1)).svn ++ le 4 0 ++ (s.ident.slot (rd r.payload 0 1)).version))) := by
  unfold idVerifyImageBody
  dsimp only
  rw [if_neg (by simp [hr]; omega)]
  rfl

theorem State.setBoot_of_ok {p : List Byte} (hk : rd p 0 1 ≤ 1) (hf : rd p 1 1 ≤ 3) (hr : resv p 2 2 = true) : s.setBoot p =
    if (s.ident.slot (rd p 0 1)).stands ≠ 0 then .error (stNotPermitted, 0x0F02)
    else .ok (rd p 0 1, bit (rd p 1 1) 0, bit (rd p 1 1) 1) := by
  unfold State.setBoot
  dsimp only
  rw [if_neg (by simp [hr]; omega)]

end

theorem idWriteImage_does : Does 0x0F04 .idWriteImage (fun r s => rd r.payload 0 1 ≤ 1 ∧ rd r.payload 1 1 ≤ 1
      ∧ resv r.payload 2 2 = true ∧ 1 ≤ rd r.payload 8 4 ∧ rd r.payload 8 4 ≤ 65524
      ∧ rd r.payload 4 4 + rd r.payload 8 4 ≤ 25165824 ∧ rd r.payload 8 4 + 12 ≤ r.payload.length
      ∧ rd r.payload 0 1 ≠ s.ident.running)
    (fun _ _ => [])
    (fun r s t =>
      (∀ i, i < rd r.payload 8 4 → (s.ident.target r.payload).read (rd r.payload 4 4 + i) = 0xFF →
        (t.ident.slot (rd r.payload 0 1)).read (rd r.payload 4 4 + i) = r.payload.getD (12 + i) 0)
      ∧ (∀ a, a < rd r.payload 4 4 ∨ rd r.payload 4 4 + rd r.payload 8 4 ≤ a →
        (t.ident.slot (rd r.payload 0 1)).read a = (s.ident.target r.payload).read a)
      ∧ t.ident.slot (1 - rd r.payload 0 1) = s.ident.slot (1 - rd r.payload 0 1)) := by
  refine does_of (body := idWriteImageBody) (fun r u =>
      (u.updIdent (fun i => i.setSlot (rd r.payload 0 1) (u.writtenSlot r.payload))).drawn 25165824) (fun _ _ => rfl)
    (fun r s u _ _ hu ⟨hk, he, hr, hpos, hlen, hfits, hp, hrun⟩ => ⟨?_, rfl, fun t ht => ?_⟩)
  · rw [idWriteImageBody_of_ok ⟨hk, he, hr, hpos, hlen, hfits⟩, if_neg (by rw [State.ident_of_mailed hu]; exact hrun)]
    rfl
  · have hslot : ∀ j, t.ident.slot j = if (rd r.payload 0 1 = 0 ↔ j = 0) then u.writtenSlot r.payload else s.ident.slot j := by
      intro j
      rw [State.ident_of_mailed ht, ← State.ident_of_mailed hu]
      exact IdSt.slot_setSlot _ _ _ _
    rw [hslot, hslot, if_pos Iff.rfl, if_neg (by omega), ← State.ident_of_mailed hu]
    obtain ⟨hdata, hrest⟩ := u.writtenSlot_reads hp
    exact ⟨hdata, hrest, rfl⟩

theorem idSetBoot_does : Does 0x0F06 .idSetBoot (fun r s => rd r.payload 0 1 ≤ 1 ∧ rd r.payload 1 1 ≤ 3 ∧ resv r.payload 2 2 = true
      ∧ (s.ident.slot (rd r.payload 0 1)).stands = 0)
    (fun _ _ => [])
    (fun r s t =>
      let c : BootCfg := ⟨true, (s.ident.cfgSeq + 1) % 2 ^ 32, rd r.payload 0 1, bit (rd r.payload 1 1) 0, bit (rd r.payload 1 1) 1⟩
      let first := s.ident.inCopy1 = true ∨ (bootCfg s.ident.cfg0).valid = false
      (first → bootCfg t.ident.cfg0 = c ∧ (∀ a, 16 ≤ a → Tab.get 0xFF t.ident.cfg0 a = 0xFF) ∧ t.ident.cfg1 = s.ident.cfg1)
      ∧ (¬first → bootCfg t.ident.cfg1 = c ∧ (∀ a, 16 ≤ a → Tab.get 0xFF t.ident.cfg1 a = 0xFF) ∧ t.ident.cfg0 = s.ident.cfg0)
      ∧ (s.ident.cfgSeq + 1 < 2 ^ 32 → t.ident.cfg = c)) := by
  refine does_of (body := idSetBootBody) (fun r u => u.updIdent (fun i =>
      i.writeCfg (rd r.payload 0 1) (bit (rd r.payload 1 1) 0) (bit (rd r.payload 1 1) 1))) (fun _ _ => rfl)
    (fun r s u _ _ hu ⟨hk, hf, hr, hstands⟩ => ⟨?_, rfl, fun t ht => ?_⟩)
  · unfold idSetBootBody
    rw [State.setBoot_of_ok hk hf hr, if_neg (by rw [State.ident_of_mailed hu]; exact not_not.mpr hstands)]
    rfl
  · have hident : t.ident = s.ident.writeCfg (rd r.payload 0 1) (bit (rd r.payload 1 1) 0) (bit (rd r.payload 1 1) 1) := by
      rw [State.ident_of_mailed ht, ← State.ident_of_mailed hu]
      rfl
    have hcopy := bootCfg_cfgCopyOf (bit (rd r.payload 1 1) 0) (bit (rd r.payload 1 1) 1)
      (Nat.mod_lt (s.ident.cfgSeq + 1) (show 0 < 2 ^ 32 by decide)) hk
    rw [hident]
    refine ⟨fun hfirst => ?_, fun hfirst => ?_, IdSt.cfg_writeCfg hk⟩
    · rw [IdSt.writeCfg_copy0 hfirst]
      exact ⟨hcopy, fun a ha => cfgCopyOf_erased _ ha, rfl⟩
    · rw [IdSt.writeCfg_copy1 hfirst]
      exact ⟨hcopy, fun a ha => cfgCopyOf_erased _ ha, rfl⟩

/-- Settles O32: the reads answer from the identity that mail leaves, and each write is read back from the part it changes. -/
theorem identityCommands : Obligations.IdentityCommands := by
  unfold Obligations.IdentityCommands
  refine ⟨?info, ?cert, ?measure, idWriteImage_does, ?running, ?verify, idSetBoot_does, ?bad, ?svn, ?svnBad, ?pin⟩
  case info => exact answered_of (body := idGetInfoBody) (fun _ _ => rfl) (fun r s u _ _ hu _ => by rw [hu]; rfl)
  case cert =>
    intro c
    exact answered_of (body := idGetCertBody) (fun _ _ => rfl) (fun r s u _ _ hu ⟨hk, hr, hc, ho⟩ =>
      idGetCertBody_of_held hk hr (by rw [State.certBytes_of_mailed hu]; exact hc) ho)
  case measure => exact answered_of (body := idGetMeasurementsBody) (fun _ _ => rfl) (fun r s u _ _ hu _ => by rw [hu]; rfl)
  case running =>
    refine turned_of (body := idWriteImageBody) (fun _ _ => rfl) (fun r s u _ _ hu _ ⟨hk, he, hr, hpos, hlen, hfits, hrun⟩ => ?_)
    rw [idWriteImageBody_of_ok ⟨hk, he, hr, hpos, hlen, hfits⟩, if_pos (by rw [State.ident_of_mailed hu]; exact hrun)]
    rfl
  case verify =>
    refine does_of (body := idVerifyImageBody) (fun r u => u.updIdent (fun i => i.setSlot (rd r.payload 0 1)
        { u.ident.slot (rd r.payload 0 1) with result := (u.ident.slot (rd r.payload 0 1)).check u.ident.minSvn })) (fun _ _ => rfl)
      (fun r s u _ _ hu ⟨hk, hr⟩ => ⟨?_, rfl, fun t ht => ?_⟩)
    · rw [idVerifyImageBody_of_ok hk hr, State.ident_of_mailed hu]
    · rw [State.ident_of_mailed ht, ← State.ident_of_mailed hu]
      exact (IdSt.slot_setSlot _ _ _ _).trans (if_pos Iff.rfl)
  case bad =>
    refine turned_of (body := idSetBootBody) (fun _ _ => rfl) (fun r s u _ _ hu _ ⟨hk, hf, hr, hstands⟩ => ?_)
    unfold idSetBootBody
    rw [State.setBoot_of_ok hk hf hr, if_pos (by rw [State.ident_of_mailed hu]; exact hstands)]
    rfl
  case svn =>
    refine does_of (body := idCommitSvnBody) (fun r u => (u.updIdent (fun i =>
        { i with minSvn := max u.ident.minSvn u.ident.runSvn })).raise 0x0F02 sevInfo (le 2 (max u.ident.minSvn u.ident.runSvn)))
      (fun _ _ => rfl) (fun r s u _ _ hu ⟨hr, htrial, hsvn⟩ => ⟨?_, rfl, fun t ht => ?_⟩)
    · rw [← State.ident_of_mailed hu] at htrial hsvn ⊢
      simp [idCommitSvnBody, okCmd, hr, htrial, hsvn]
    · rw [State.ident_of_mailed ht, State.ident_of_mailed hu]
      rfl
  case svnBad =>
    refine turned_of (body := idCommitSvnBody) (fun _ _ => rfl) (fun r s u _ _ hu _ ⟨hr, hbad⟩ => ?_)
    rw [← State.ident_of_mailed hu] at hbad
    unfold idCommitSvnBody
    dsimp only
    rw [if_neg (by simp [hr]), if_pos hbad]
    rfl
  case pin =>
    refine does_of (body := idPinManagerBody) (fun r u => u.updIdent (fun i =>
        { i with pin := if rd r.payload 0 1 = 0 then some (slice r.payload 4 32) else none })) (fun _ _ => rfl)
      (fun r s u _ _ hu ⟨hk, hr⟩ => ⟨?_, rfl, fun t ht => ?_⟩)
    · unfold idPinManagerBody
      dsimp only
      rw [if_neg (by simp [hr]; omega)]
      rfl
    · rw [State.ident_of_mailed ht]
      rfl

end Sys2Proof.Machine
end


section
/-! PROOF. The staging and bake commands: what each leaves of the sets and of the one it names (R406, R407, R409, R410, R412, R433,
R493). -/

namespace Sys2Proof.Machine

/-! ### Sets by their ID -/

namespace BakeSt

variable {b : BakeSt} {t : SetSt} {id n : Nat} {f : SetSt → SetSt}

theorem set?_id (h : b.set? id = some t) : t.id = id := by
  simpa using List.find?_some (show b.sets.find? (fun x => x.id == id) = some t from h)

/-- A change of the sets of one ID leaves those of another. -/
theorem set?_updSet_other (hf : ∀ t, t.id = id → (f t).id = id) (hn : n ≠ id) : (b.updSet id f).set? n = b.set? n := by
  unfold BakeSt.set? BakeSt.updSet
  rw [List.find?_map]
  have hsame : ((fun t : SetSt => t.id == n) ∘ fun t => if t.id = id then f t else t) = fun t => t.id == n := by
    funext t
    by_cases h : t.id = id
    · simp [h, hf t h]
    · simp [h]
  rw [hsame]
  cases h : b.sets.find? (fun t => t.id == n) with
  | none => rfl
  | some t =>
    have hid : t.id ≠ id := by
      rw [set?_id (show b.set? n = some t from h)]
      exact hn
    exact congrArg some (if_neg hid)

/-- The sets with one more behind them. -/
def withSet (b : BakeSt) (t : SetSt) : BakeSt := { b with sets := b.sets ++ [t], nextSet := b.nextSet + 1 }

theorem set?_withSet_same (h : b.set? t.id = none) : (b.withSet t).set? t.id = some t := by
  unfold BakeSt.set? at h ⊢
  rw [withSet, List.find?_append, h]
  simp

theorem set?_withSet_other (h : n ≠ t.id) : (b.withSet t).set? n = b.set? n := by
  unfold BakeSt.set?
  rw [withSet, List.find?_append, List.find?_singleton, if_neg (by simpa using Ne.symm h), Option.or_none]

end BakeSt

section

variable {s u : State} {r : Req} {t0 : SetSt}

theorem State.liveSet_of_live {id : Nat} (h : s.bake.set? id = some t0) (hb : t0.state ≠ .baked) (ha : t0.state ≠ .aborted) :
    s.liveSet id = (some t0, stOk, dNone) := by
  simp [State.liveSet, h, hb, ha]

/-- With no bake in progress a set that is neither baked nor aborted is open. -/
theorem BakeSt.isOpen_of_live {b : BakeSt} {id : Nat} (h : b.set? id = some t0) (hno : b.inBake = none) (hb : t0.state ≠ .baked)
    (ha : t0.state ≠ .aborted) : t0.state = .isOpen := by
  have hnot := List.find?_eq_none.mp (show b.sets.find? _ = none from hno) t0 (List.mem_of_find?_eq_some h)
  cases hs : t0.state <;> simp_all

/-- The sets once the bake of one begins. -/
theorem State.began_set? {id : Nat} {f : SetSt → SetSt} (hf : ∀ t, (f t).id = t.id) (h : s.bake.set? id = some t0) :
    (s.began id f).bake.set? id = some { f t0 with state := .preparing }
      ∧ ∀ n, n ≠ id → (s.began id f).bake.set? n = s.bake.set? n := by
  refine ⟨?_, fun n hn => BakeSt.set?_updSet_other (fun t ht => (hf t).trans ht) hn⟩
  refine (BakeSt.set?_updSet (f := fun t => { f t with state := .preparing }) (fun t ht => (hf t).trans ht)).trans ?_
  rw [h]
  rfl

/-- What BAKE_COMMIT at once fills in. -/
def SetSt.committedBy (t : SetSt) (r : Req) : SetSt := { t with now := true, sec := 0, ns := 0, req := some r, op := 0x0D03 }

theorem bakeCommitBody_prepares (h : s.bake.set? (rd r.payload 0 4) = some t0) (hb : t0.state ≠ .baked) (ha : t0.state ≠ .aborted)
    (hnow : rd r.payload 4 1 = 0) (hr : resv r.payload 5 3 = true) (hr' : resv r.payload 20 4 = true)
    (hno : s.bake.inBake = none) (hcheck : s.checkCmds t0.cmds t0.several = none) (hslices : s.slicesBusy = false) :
    bakeCommitBody r s = (s.began (rd r.payload 0 4) (fun t => t.committedBy r), none) := by
  have hid := BakeSt.set?_id h
  have hopen := BakeSt.isOpen_of_live h hno hb ha
  have hstart : s.startBake (rd r.payload 0 4) (fun t => t.committedBy r) = (s.began (rd r.payload 0 4) (fun t => t.committedBy r), none) :=
    State.startBake_began h hopen hno hcheck hslices
  unfold bakeCommitBody
  rw [State.liveSet_of_live h hb ha]
  dsimp only
  unfold State.commitSet
  dsimp only
  rw [if_neg (by simp [hnow, hr, hr']), hnow, hid]
  show (match s.startBake (rd r.payload 0 4) (fun t => t.committedBy r) with
    | (u, some e) => errCmd u e.1 e.2
    | (u, none) => (u, none)) = _
  rw [hstart]

/-- A set aborted. -/
def SetSt.asAborted (t : SetSt) : SetSt := { t with state := .aborted }

theorem bakeAbortBody_open (h : s.bake.set? (rd r.payload 0 4) = some t0) (ho : t0.state = .isOpen) : bakeAbortBody r s
    = ({ s with bake := s.bake.updSet (rd r.payload 0 4) SetSt.asAborted }, some (Resp.ok [])) := by
  unfold bakeAbortBody
  rw [State.liveSet_of_live h (by simp [ho]) (by simp [ho])]
  dsimp only
  rw [if_pos ho, BakeSt.set?_id h]
  rfl

theorem bakeAbortBody_committed (h : s.bake.set? (rd r.payload 0 4) = some t0) (hs : t0.state = .preparing ∨ t0.state = .armed)
    (hc : t0.committed = true) : bakeAbortBody r s = (s, some (Resp.err stNotPermitted 0x0D02)) := by
  have hne : t0.state ≠ .baked ∧ t0.state ≠ .aborted ∧ t0.state ≠ .isOpen := by
    rcases hs with hs | hs <;> simp [hs]
  obtain ⟨hb, ha, ho⟩ := hne
  unfold bakeAbortBody
  rw [State.liveSet_of_live h hb ha]
  dsimp only
  rw [if_neg ho, if_pos hc]
  rfl

/-- What CHECK of a set answers (R409). -/
def State.checkAnswer (s : State) (t : SetSt) : List Byte :=
  match s.checkCmds t.cmds false with
  | none => le 2 stOk ++ le 2 0 ++ le 4 noPos ++ le 2 0 ++ le 2 0 ++ le 4 t.cmds.length
  | some x => le 2 stCheckFailed ++ le 2 x.detail ++ le 4 x.pos ++ le 2 x.op ++ le 2 0 ++ le 4 t.cmds.length

theorem bakeCheckBody_live (h : s.bake.set? (rd r.payload 0 4) = some t0) (hb : t0.state ≠ .baked) (ha : t0.state ≠ .aborted) :
    bakeCheckBody r s = (s, some (Resp.ok (s.checkAnswer t0))) := by
  unfold bakeCheckBody readCmd State.checkAnswer
  dsimp only
  rw [State.liveSet_of_live h hb ha]
  dsimp only
  cases s.checkCmds t0.cmds false <;> rfl

/-- The set that PWR_RESTORE makes of the held shadow (R493). -/
def SetSt.restores (id : Nat) (l : List StagedCmd) : SetSt := { SetSt.init with id, cmds := l, restore := true, now := true }

/-- The state with that set. -/
def State.withRestore (s : State) (l : List StagedCmd) : State :=
  { s with bake := s.bake.withSet (SetSt.restores s.bake.nextSet l) }

/-- The set as PWR_RESTORE fills it in. -/
def SetSt.restoredBy (t : SetSt) (r : Req) : SetSt := { t with req := some r, op := 0x1106 }

theorem pwrRestoreBody_prepares {l : List StagedCmd} (hl : s.bake.heldShadow = some l) (hnew : s.bake.set? s.bake.nextSet = none)
    (hno : s.bake.inBake = none) (hcheck : (s.withRestore l).checkCmds l false = none) (hslices : (s.withRestore l).slicesBusy = false) :
    pwrRestoreBody r s = ((s.withRestore l).began s.bake.nextSet (fun t => t.restoredBy r), none) := by
  have hset : (s.withRestore l).bake.set? s.bake.nextSet = some (SetSt.restores s.bake.nextSet l) :=
    BakeSt.set?_withSet_same (t := SetSt.restores s.bake.nextSet l) hnew
  have hbake : (s.withRestore l).bake.inBake = none := by
    unfold BakeSt.inBake at hno ⊢
    rw [State.withRestore, BakeSt.withSet, List.find?_append, hno]
    rfl
  have hstart : (s.withRestore l).startBake s.bake.nextSet (fun t => t.restoredBy r)
      = ((s.withRestore l).began s.bake.nextSet (fun t => t.restoredBy r), none) :=
    State.startBake_began hset rfl hbake hcheck hslices
  unfold pwrRestoreBody
  rw [hl]
  dsimp only
  show (match (s.withRestore l).startBake s.bake.nextSet (fun t => t.restoredBy r) with
    | (u, some e) => errCmd { u with bake := { u.bake with sets := u.bake.sets.filter (fun x => x.id != s.bake.nextSet) } } e.1 e.2
    | (u, none) => (u, none)) = _
  rw [hstart]

end

/-- Settles O30: each command changes the sets of the ID it names, and what it finds is what a fresh request leaves. -/
theorem bakeCommands : Obligations.BakeCommands := by
  unfold Obligations.BakeCommands
  refine ⟨?openSet, ?full, ?check, fun t0 => ?commit, fun t0 => ?abort, ?committed, fun t0 => ?getSet, ?getAll, ?restore⟩
  case openSet =>
    refine does_of (body := bakeOpenBody) (fun _ u => { u with bake := u.bake.withSet { SetSt.init with id := u.bake.nextSet } })
      (fun _ _ => rfl) (fun r s u _ _ hu ⟨hroom, hnew⟩ => ⟨?_, rfl, fun t ht => ?_⟩)
    · unfold bakeOpenBody
      rw [bake_of_mailed hu, if_neg (by omega)]
      rfl
    · have hbake : t.bake = s.bake.withSet { SetSt.init with id := s.bake.nextSet } := by
        rw [bake_of_mailed ht, ← bake_of_mailed hu]
      rw [hbake]
      exact ⟨BakeSt.set?_withSet_same (t := { SetSt.init with id := s.bake.nextSet }) hnew,
        fun n hn => BakeSt.set?_withSet_other (t := { SetSt.init with id := s.bake.nextSet }) hn, rfl⟩
  case full =>
    refine turned_of (body := bakeOpenBody) (fun _ _ => rfl) (fun r s u _ _ hu _ hfull => ?_)
    unfold bakeOpenBody
    rw [if_pos (by rw [bake_of_mailed hu]; exact hfull)]
    rfl
  case check =>
    intro r s t0 hf h hb ha
    obtain ⟨t, hrun, hdel, hmail⟩ := fresh_read hf
      (bakeCheckBody_live (by rw [(State.begun_mailOnly hf).bake]; exact h) hb ha)
    exact ⟨t, hrun, hmail, hdel⟩
  case commit =>
    refine starts_of (body := bakeCommitBody) (fun r u => u.began (rd r.payload 0 4) (fun t => t.committedBy r)) (fun _ _ => rfl)
      (fun r s u _ hbegun hu ⟨h, hb, ha, hnow, hr, hr', hno, hcheck, hslices⟩ => ⟨?_, rfl, fun t ht => ?_⟩)
    · rw [← bake_of_mailed hu] at h hno
      exact bakeCommitBody_prepares h hb ha hnow hr hr' hno (hbegun ▸ hcheck) (by rw [hu]; exact hslices)
    · rw [← bake_of_mailed hu] at h ⊢
      rw [bake_of_mailed ht]
      exact State.began_set? (fun _ => rfl) h
  case abort =>
    refine does_of (body := bakeAbortBody) (fun r u => { u with bake := u.bake.updSet (rd r.payload 0 4) SetSt.asAborted }) (fun _ _ => rfl) (fun r s u _ _ hu ⟨h, ho⟩ => ⟨?_, rfl, fun t ht => ?_⟩)
    · rw [← bake_of_mailed hu] at h
      exact bakeAbortBody_open h ho
    · rw [bake_of_mailed ht, ← bake_of_mailed hu]
      refine ⟨(BakeSt.set?_updSet (f := SetSt.asAborted) (fun _ h => h)).trans ?_,
        fun n hn => BakeSt.set?_updSet_other (f := SetSt.asAborted) (fun _ h => h) hn⟩
      rw [bake_of_mailed hu, h]
      rfl
  case committed =>
    refine turned_of (body := bakeAbortBody) (fun _ _ => rfl) (fun r s u _ _ hu _ ⟨t0, h, hs, hc⟩ => ?_)
    rw [← bake_of_mailed hu] at h
    exact bakeAbortBody_committed h hs hc
  case getSet =>
    refine answered_of (body := bakeGetSetBody) (fun _ _ => rfl) (fun r s u _ _ hu ⟨hn, h⟩ => ?_)
    rw [← bake_of_mailed hu] at h
    simp [bakeGetSetBody, readCmd, hn, h]
  case getAll =>
    refine answered_of (body := bakeGetSetBody) (fun _ _ => rfl) (fun r s u _ _ hu hz => ?_)
    simp [bakeGetSetBody, readCmd, hz, bake_of_mailed hu]
  case restore =>
    intro r s l hf hl hnew hno ⟨hcheck, hslices⟩
    have hmail := begun_mbx hf
    have hb := bake_of_mailed hmail
    rw [← hb] at hl hnew hno hcheck hslices ⊢
    obtain ⟨t, hrun, ht, -⟩ := fresh_running hf (pwrRestoreBody_prepares hl hnew hno hcheck hslices) rfl
    obtain ⟨hsame, hother⟩ := State.began_set? (s := (s.begun 0x1106 r).withRestore l) (id := (s.begun 0x1106 r).bake.nextSet) (f := fun t => t.restoredBy r) (fun _ => rfl)
        (BakeSt.set?_withSet_same (t := SetSt.restores (s.begun 0x1106 r).bake.nextSet l) hnew)
    rw [← ht.bake] at hsame
    refine ⟨t, hrun, hsame, fun n hn => ?_⟩
    rw [ht.bake]
    exact (hother n hn).trans (BakeSt.set?_withSet_other (t := SetSt.restores (s.begun 0x1106 r).bake.nextSet l) hn)

end Sys2Proof.Machine
end


section
/-! PROOF. The host's three actions on a mailbox: doorbell, release, and a write of the areas (R381 to R384, R387, R390). -/

namespace Sys2Proof.Machine

section

variable {s : State} {op b : Nat} {r : Req}

/-! ### A doorbell that is checked (R384, R390) -/

/-- The request that a mailbox spells is its own. -/
theorem Mbox.request_box (m : Mbox) (b : Nat) (ind : Option (List Byte)) : (m.request b ind).2.box = b := by
  unfold Mbox.request
  dsimp only
  split <;> rfl

theorem State.submit_taken (hd : (s.host.link (s.boxFn r.box)).d3 = false) (hs : (s.box r.box).state ≠ .submitted)
    (hr : s.mbx.ready = true) (hf : s.pwr.failing = none) :
    s.submit op r = (s.read op r).applyVerdict (s.newJob op r) (s.verdict op r) := by
  unfold State.submit
  rw [if_neg (by simp [hd]), if_neg hs]
  dsimp only
  rw [if_pos hr, if_neg (by simp [hf])]
  rfl

/-- The row of a doorbell is its submission. -/
theorem mbxDoorbell_exec {ind : Option (List Byte)} (hb : b < 32) (hd : (s.host.link (s.boxFn b)).d3 = false)
    (hq : (s.box b).request b ind = (op, r)) : exec (.mbxDoorbell b ind) s = .next (s.submit op r).1 := by
  show onMailbox s b (s.submit ((s.box b).request b ind).1 ((s.box b).request b ind).2).1 = _
  unfold onMailbox
  rw [if_neg (by omega), if_neg (by simp [hd]), hq]

/-- Queueing a request that is not ASYNC leaves the mailboxes. -/
theorem State.enqueue_boxes (s : State) {j : Job} (h : j.req.async = false) : (s.enqueue j).mbx.boxes = s.mbx.boxes := by
  have halloc : (if j.req.indirect then s.poolAlloc j.req.len else (s, none)).1.mbx = s.mbx := by
    split
    · exact State.poolAlloc_mbx s _
    · rfl
  unfold State.enqueue
  dsimp only
  rw [if_neg (by simp [h])]
  show ((State.fillBuf _ _ _).mbx).boxes = _
  rw [State.fillBuf_mbx, halloc]

/-- An accepted doorbell: the mailbox is submitted, its old response gone, and the doorbell counted. -/
theorem State.accept_box (s : State) (b : Nat) :
    (s.accept b).box b = { s.box b with state := .submitted, submits := ((s.box b).submits + 1) % 65536, resp := [] } := by
  simp only [State.accept, State.bumpMbx_rest, State.box_updBox_same]

theorem doorbell_queued (hb : r.box < 32) (hd : (s.host.link (s.boxFn r.box)).d3 = false)
    (hs : (s.box r.box).state ≠ .submitted) (hr : s.mbx.ready = true) (hf : s.pwr.failing = none) (hv : s.verdict op r = .accept)
    (ha : r.async = false) :
    ((s.submit op r).1.box r.box).state = .submitted ∧ ((s.submit op r).1.box r.box).resp = []
      ∧ ((s.submit op r).1.box r.box).submits = ((s.box r.box).submits + 1) % 65536
      ∧ (∃ j, (s.submit op r).1.mbx.jobs = s.mbx.jobs ++ [j] ∧ j.op = op ∧ j.req = r ∧ j.running = false ∧ j.rung = s.nowNs)
      ∧ MailOnly s (s.submit op r).1 := by
  obtain ⟨hread, hmbx⟩ := s.read_spec op r
  obtain ⟨hmail, buf, hjobs⟩ := (s.read op r).enqueue_spec (s.newJob op r) hb
  have hsubmit : (s.submit op r).1 = (s.read op r).enqueue (s.newJob op r) := by
    rw [State.submit_taken hd hs hr hf, hv]
    rfl
  have hbox : (s.submit op r).1.box r.box = (s.accept r.box).box r.box := by
    rw [hsubmit]
    unfold State.box
    rw [State.enqueue_boxes _ (j := s.newJob op r) ha, hmbx]
  rw [hbox, State.accept_box, hsubmit]
  exact ⟨rfl, rfl, rfl, ⟨_, hjobs.trans (by rw [hmbx]; rfl), rfl, rfl, rfl, rfl⟩, hread.trans hmail⟩

/-- A request with an opcode outside the table fails rows 1 to 4 of R390. -/
theorem State.earlyVerdict_unknown (hc : cmdInfo op = none) (hl : r.len ≤ 3824) (hfl : r.flagsRsvd = false) (hi : r.indRsvd = false) :
    s.earlyVerdict op r = .inr (Resp.err stBadOpcode dNone) := by
  have hlen : ¬ (if r.indirect then 65536 else 3824) < r.len := by
    split <;> omega
  unfold State.earlyVerdict
  rw [if_neg hlen, if_neg (by simp [hfl, hi]), hc]

theorem doorbell_unknown (hb : r.box < 32) (hd : (s.host.link (s.boxFn r.box)).d3 = false)
    (hs : (s.box r.box).state ≠ .submitted) (hr : s.mbx.ready = true) (hf : s.pwr.failing = none) (hc : cmdInfo op = none)
    (hl : r.len ≤ 3824) (hfl : r.flagsRsvd = false) (hi : r.indRsvd = false) :
    Posted (s.submit op r).1 r (Resp.err stBadOpcode dNone) ∧ (s.submit op r).1.mbx.jobs = s.mbx.jobs ∧ MailOnly s (s.submit op r).1 := by
  obtain ⟨hread, hmbx⟩ := s.read_spec op r
  have hv : s.verdict op r = .refuse (Resp.err stBadOpcode dNone) false := by
    unfold State.verdict
    rw [State.earlyVerdict_unknown hc hl hfl hi]
  have hsubmit : (s.submit op r).1 = (s.read op r).postReq r (Resp.err stBadOpcode dNone) := by
    rw [State.submit_taken hd hs hr hf, hv]
    rfl
  obtain ⟨hpost, hjobs, hposted⟩ := State.postReq_posted hread hb (Resp.err stBadOpcode dNone)
  rw [hsubmit]
  exact ⟨hposted, by rw [hjobs, hmbx]; rfl, hpost⟩

/-! ### Release and writes of the areas (R381, R382, R387) -/

theorem onMailbox_of_awake (hb : b < 32) (hd : (s.host.link (s.boxFn b)).d3 = false) (t : State) : onMailbox s b t = .next t := by
  unfold onMailbox
  rw [if_neg (by omega), if_neg (by simp [hd])]

theorem State.updBox_mailOnly (s : State) (b : Nat) (f : Mbox → Mbox) : MailOnly s (s.updBox b f) := by constructor <;> rfl

theorem State.bumpMbx_mailOnly (s : State) (fn i n : Nat) : MailOnly s (s.bumpMbx fn i n) := by constructor <;> rfl

theorem State.protocolError_write (s : State) (b : Nat) : MailOnly s (s.protocolError b 1) ∧ (s.protocolError b 1).mbx = s.mbx
    ∧ Tab.get 0 (s.protocolError b 1).tel.mbxCtr (8 * s.boxFn b + 7) = Tab.get 0 s.tel.mbxCtr (8 * s.boxFn b + 7) + 1 := by
  refine ⟨(s.bumpMbx_mailOnly _ _ _).trans (State.raise_mailOnly _ _ _ _), rfl, ?_⟩
  unfold State.protocolError
  rw [(State.raise_frame (Touch.or_self _) .refl _ _ _).mbxCtr rfl]
  exact (Tab.get_bump _ _ _ _).trans (if_pos rfl)

section

variable {off : Nat} {l : List Byte}

/-- Behind the request area a write is counted and changes no mailbox. -/
theorem State.areaWrite_response (h : 0x1000 ≤ off) (h' : off < 0x2000) : s.areaWrite b off l = s.bumpMbx (s.boxFn b) 7 1 := by
  unfold State.areaWrite
  rw [if_neg (by omega), if_pos h]

theorem State.areaWrite_submitted (h : 0x100 ≤ off) (h' : off < 0x1000) (hs : (s.box b).state = .submitted) :
    s.areaWrite b off l = s.protocolError b 1 := by
  unfold State.areaWrite
  rw [if_neg (by omega), if_neg (by omega), if_pos hs]

/-- The request area takes a write that lies within it. -/
theorem State.areaWrite_request (h : 0x100 ≤ off) (h' : off < 0x1000) (hl : off + l.length ≤ 0x1000) (hs : (s.box b).state ≠ .submitted) :
    s.areaWrite b off l = s.updBox b (fun m => { m with req := Tab.writeBytes 0 m.req (off - 0x100) l }) := by
  have hpart : areaPart off l = l := by
    unfold areaPart
    rw [show 0x100 - off = 0 by omega, List.drop_zero, List.take_of_length_le (by omega)]
  unfold State.areaWrite
  rw [if_neg (by omega), if_neg (by omega), if_neg hs, hpart]

/-- A write of the request area changes the bytes written and no other. -/
theorem State.areaWrite_reads (h : 0x100 ≤ off) (hl : off + l.length ≤ 0x1000) (hs : (s.box b).state ≠ .submitted) :
    (∀ o, Tab.get 0 ((s.areaWrite b off l).box b).req o = if off - 0x100 ≤ o ∧ o < off - 0x100 + l.length
        then l.getD (o - (off - 0x100)) 0 else Tab.get 0 (s.box b).req o)
      ∧ (∀ n, n ≠ b → (s.areaWrite b off l).box n = s.box n) ∧ (s.areaWrite b off l).mbx.jobs = s.mbx.jobs
      ∧ MailOnly s (s.areaWrite b off l) := by
  by_cases h' : off < 0x1000
  · rw [State.areaWrite_request h h' hl hs]
    refine ⟨fun o => ?_, fun n hn => by rw [State.box_updBox, if_neg (Ne.symm hn)], rfl, s.updBox_mailOnly _ _⟩
    rw [State.box_updBox_same]
    exact Tab.get_writeBytes _ _ _ _ _
  · have hnil : l = [] := List.eq_nil_of_length_eq_zero (by omega)
    subst hnil
    rw [State.areaWrite_response (by omega) (by omega)]
    exact ⟨fun o => by rw [if_neg (by simp)]; rfl, fun _ _ => rfl, rfl, s.bumpMbx_mailOnly _ _ _⟩

end

end

/-- Settles O34: a doorbell is its submission, a release and a write change their own mailbox alone. -/
theorem mailboxRows : Obligations.MailboxRows := by
  unfold Obligations.MailboxRows
  refine ⟨?doorbell, ?unknown, fun s b hb hd => ⟨fun hs => ?release, fun hs => ?ignored⟩,
    fun s b off l hb hd => ⟨fun h hl hs => ?write, fun h h' hs => ?discarded, fun h h' => ?response⟩⟩
  case doorbell =>
    intro s b ind op r hb hd hq hs hr hf hv ha
    obtain rfl : r.box = b := by rw [← (s.box b).request_box b ind, hq]
    exact ends_of_exec (mbxDoorbell_exec hb hd hq) (doorbell_queued hb hd hs hr hf hv ha)
  case unknown =>
    intro s b ind op r hb hd hq hs hr hf hc hl hfl hi
    obtain rfl : r.box = b := by rw [← (s.box b).request_box b ind, hq]
    exact ends_of_exec (mbxDoorbell_exec hb hd hq) (doorbell_unknown hb hd hs hr hf hc hl hfl hi)
  case release =>
    refine ends_of_exec (onMailbox_of_awake hb hd _) ?_
    rw [if_pos hs]
    exact ⟨State.box_updBox_same _ _ _, fun n hn => by rw [State.box_updBox, if_neg (Ne.symm hn)], rfl, s.updBox_mailOnly _ _⟩
  case ignored =>
    show onMailbox s b (if _ then _ else _) = _
    rw [onMailbox_of_awake hb hd, if_neg hs]
  case write => exact ends_of_exec (onMailbox_of_awake hb hd _) (State.areaWrite_reads h hl hs)
  case discarded =>
    refine ends_of_exec (onMailbox_of_awake hb hd _) ?_
    rw [State.areaWrite_submitted h h' hs]
    obtain ⟨hmail, hmbx, hctr⟩ := s.protocolError_write b
    exact ⟨hmbx, hctr, hmail⟩
  case response =>
    refine ends_of_exec (onMailbox_of_awake hb hd _) ?_
    rw [State.areaWrite_response h h']
    exact ⟨rfl, s.bumpMbx_mailOnly _ _ _⟩

end Sys2Proof.Machine
end


section
/-! PROOF. The Proofing and Shelf Link commands: what each leaves of the classes, targets, drops and buses it names (R308 to R340). -/

namespace Sys2Proof.Machine

section

variable {s t u : State} {op : Nat} {p : List Byte}

/-! ### What mail leaves -/

theorem State.pclass_of_mailed (h : u = s.mailed u) : u.pclass = s.pclass := (congrArg State.pclass h).trans rfl

theorem State.target_of_mailed (h : u = s.mailed u) : u.target = s.target := (congrArg State.target h).trans rfl

theorem State.drop_of_mailed (h : u = s.mailed u) : u.drop = s.drop := (congrArg State.drop h).trans rfl

theorem State.bus_of_mailed (h : u = s.mailed u) : u.bus = s.bus := (congrArg State.bus h).trans rfl

theorem State.pclass_of_written (h : u = (s.shadow op p).mailed u) : u.pclass = s.pclass := (congrArg State.pclass h).trans rfl

theorem State.target_of_written (h : u = (s.shadow op p).mailed u) : u.target = s.target := (congrArg State.target h).trans rfl

theorem State.drop_of_written (h : u = (s.shadow op p).mailed u) : u.drop = s.drop := (congrArg State.drop h).trans rfl

theorem State.bus_of_written (h : u = (s.shadow op p).mailed u) : u.bus = s.bus := (congrArg State.bus h).trans rfl

end

/-! ### Records made valid and invalid (R308, R312, R325) -/

section

variable (s : State) (i : Nat) (p : List Byte)

theorem State.validate_target_same : (s.validate i p).target i
    = if (s.target i).valid then { (s.target i).config p with
        invalidate := false
        eff := if (s.target i).cls ≠ rd p 3 1 ∧ (s.target i).parkQ.isEmpty = true then s.pclass (rd p 3 1) else (s.target i).eff }
      else { Target.init.config p with
        valid := true, loc := (rd p 4 1, rd p 5 1, rd p 6 1), eff := s.pclass (rd p 3 1), lastSec := s.time.sec
        lastNs := s.time.ns } := by
  unfold State.validate
  rw [State.target_updTarget_same]

theorem State.validate_target_other {n : Nat} (h : n ≠ i) : (s.validate i p).target n = s.target n := by
  unfold State.validate
  rw [State.target_updTarget, if_neg (Ne.symm h)]

theorem State.devalidate_target (h : (s.target i).valid = false ∨ (s.target i).parkQ = []) : (s.devalidate i p).target i
    = { Target.init.config p with lastSec := s.time.sec, lastNs := s.time.ns } := by
  unfold State.devalidate
  rw [if_neg (by rcases h with h | h <;> simp [h]), State.target_updTarget_same]

theorem applyProofSetTarget_mbx : (applyProofSetTarget p s).mbx = s.mbx :=
  (applyProofSetTarget_frame (Touch.or_self _) .refl p).mbx rfl

end

/-! ### The four actions (R312, R313, R319, R321) -/

section

variable (s : State) (i : Nat)

/-- What PROOF_SET_STATE does where the target's state allows the action. -/
theorem proofSetStateBody_of_action {s t : State} {r : Req} (hv : (s.target (rd r.payload 0 2)).valid = true)
    (ha : rd r.payload 2 1 ≤ 3) (hr : resv r.payload 3 1 = true)
    (h : s.proofAction (rd r.payload 0 2) (rd r.payload 2 1) = some t) : proofSetStateBody r s = (t, some (Resp.ok [])) := by
  simp [proofSetStateBody, okCmd, hv, hr, h, Nat.not_lt.mpr ha]

theorem proofSetStateBody_of_none {s : State} {r : Req} (hv : (s.target (rd r.payload 0 2)).valid = true)
    (ha : rd r.payload 2 1 ≤ 3) (hr : resv r.payload 3 1 = true)
    (h : s.proofAction (rd r.payload 0 2) (rd r.payload 2 1) = none) :
    proofSetStateBody r s = (s, some (Resp.err stNotPermitted dNone)) := by
  simp [proofSetStateBody, errCmd, hv, hr, h, Nat.not_lt.mpr ha]

/-- An action that the target's state does not allow. -/
theorem State.proofAction_none {a : Nat} (ha : a ≤ 3)
    (h0 : a = 0 → (s.target i).state ≠ .awake) (h1 : a = 1 → (s.target i).state ≠ .asleep)
    (h2 : a = 2 → (s.target i).state = .awake ∨ (s.target i).state = .draining)
    (h3 : a = 3 → (s.target i).state ≠ .awake ∧ (s.target i).state ≠ .failed) : s.proofAction i a = none := by
  unfold State.proofAction
  obtain rfl | rfl | rfl | rfl : a = 0 ∨ a = 1 ∨ a = 2 ∨ a = 3 := by omega
  · exact if_neg (h0 rfl)
  · exact if_neg (h1 rfl)
  · exact if_neg (by rcases h2 rfl with h | h <;> simp [h])
  · exact if_neg (by simpa using h3 rfl)

theorem State.setTgt_target (x : TgtState) :
    (s.setTgt i x).target i = { s.target i with state := x, lastSec := s.time.sec, lastNs := s.time.ns } := by
  unfold State.setTgt
  rw [State.target_updTarget_same]

theorem State.spinDown_target : ((s.spinDown i).target i).state = .asleep := by
  unfold State.spinDown
  rw [State.setTgt_target]

theorem State.spinDown_drop : (s.spinDown i).drop (s.target i).loc.1 (s.target i).loc.2.1
    = { s.drop (s.target i).loc.1 (s.target i).loc.2.1 with
        downQ := (s.drop (s.target i).loc.1 (s.target i).loc.2.1).downQ ++ [(s.target i).loc.2.2] } := by
  simp only [State.spinDown, State.setTgt, State.updTarget_rest, State.bumpProof_rest, State.drop_updDrop_same]

theorem State.queueWake_target (h : (s.target i).wakeQ = false) : (s.queueWake i).target i
    = { s.target i with wakeQ := true, loc := ((s.target i).bus, (s.target i).drop, (s.target i).slot) } := by
  simp only [State.queueWake, h, Bool.false_eq_true, if_false, State.updDrop_rest, State.target_updTarget_same]

theorem State.queueWake_drop (h : (s.target i).wakeQ = false) : ((s.queueWake i).drop (s.target i).bus (s.target i).drop).wakeQ
    = (s.drop (s.target i).bus (s.target i).drop).wakeQ ++ [i] := by
  simp only [State.queueWake, h, Bool.false_eq_true, if_false, State.updTarget_rest, State.drop_updDrop_same]

theorem State.tgtReady_target_of_empty (h : (s.target i).parkQ = []) :
    ((s.tgtReady i none).target i).state = .awake ∧ ((s.tgtReady i none).target i).holdOn = false := by
  simp only [State.tgtReady, h, List.isEmpty_nil, if_true, State.setTgt_target, State.target_updTarget_same, and_self]

theorem State.queueWake_mbx : (s.queueWake i).mbx = s.mbx := (State.queueWake_frame (Touch.or_self _) .refl i).mbx rfl

theorem State.tgtReady_mbx (c : Option Nat) : (s.tgtReady i c).mbx = s.mbx :=
  (State.tgtReady_frame (Touch.or_self _) .refl i c).mbx rfl

end

/-! ### The commands -/

/-- An action that a target's state allows: the command completes, and what the action leaves of targets and drops stands. -/
theorem proofSetState_does {a : Nat} {ok : Req → State → Prop} {post : Req → State → State → Prop} (f : State → Nat → State)
    (ha : a ≤ 3) (hm : ∀ s i, (f s i).mbx = s.mbx)
    (hok : ∀ r s u, u.target = s.target → ok r s → (u.target (rd r.payload 0 2)).valid = true ∧ rd r.payload 2 1 = a
      ∧ resv r.payload 3 1 = true ∧ u.proofAction (rd r.payload 0 2) a = some (f u (rd r.payload 0 2)))
    (hpost : ∀ r s u t, u.target = s.target → u.drop = s.drop → t.target = (f u (rd r.payload 0 2)).target →
      t.drop = (f u (rd r.payload 0 2)).drop → ok r s → post r s t) :
    Does 0x0B03 .proofSetState ok (fun _ _ => []) post := by
  refine does_of (body := proofSetStateBody) (fun r u => f u (rd r.payload 0 2)) (fun _ _ => rfl) (fun r s u _ _ hu h => ?_)
  obtain ⟨hv, hr, hresv, hact⟩ := hok r s u (State.target_of_mailed hu) h
  exact ⟨proofSetStateBody_of_action hv (hr.trans_le ha) hresv (by rw [hr, hact]), hm _ _, fun t ht =>
    hpost r s u t (State.target_of_mailed hu) (State.drop_of_mailed hu) (State.target_of_mailed ht) (State.drop_of_mailed ht) h⟩

theorem proofSetClass_carried : Carried 0x0B01 .proofSetClass (fun p s => checkProofSetClass p s = none)
    (fun p s t => t.pclass (rd p 0 1) = pclassOf p ∧ ∀ n, n ≠ rd p 0 1 → t.pclass n = s.pclass n) := by
  refine carried_of (fun _ _ => rfl) (fun _ _ _ _ hok => hok) (fun _ _ => rfl) (fun p s u t hu ht _ => ?_)
  rw [State.pclass_of_written ht, ← State.pclass_of_mailed hu]
  have hclass : ∀ n, (applyProofSetClass p u).pclass n = if rd p 0 1 = n then pclassOf p else u.pclass n :=
    fun n => Tab.get_set PClass.init u.proof.classes (rd p 0 1) n (pclassOf p)
  exact ⟨(hclass _).trans (if_pos rfl), fun n hn => (hclass n).trans (if_neg (Ne.symm hn))⟩

theorem liveProofSetTarget_of_mailed {p : List Byte} {s u : State} (hu : u = s.mailed u) :
    liveProofSetTarget p u = liveProofSetTarget p s := by rw [hu]; rfl

/-- Settles O28: the settings by what their fields leave, the four actions by what each leaves of the target and its drop. -/
theorem proofingCommands : Obligations.ProofingCommands := by
  unfold Obligations.ProofingCommands
  refine ⟨proofSetClass_carried, ?validate, ?devalidate, ?down, ?wake, ?ready, ?sleep, ?refused, ?getTarget, ?shelfSet, ?shelfGet,
    ?setBus, ?counters⟩
  case validate =>
    refine carried_of (fun _ _ => rfl) (fun p s u hu hok => (liveProofSetTarget_of_mailed hu).trans hok.1)
      (fun p s => applyProofSetTarget_mbx s p) (fun p s u t hu ht ⟨_, hv⟩ => ?_)
    rw [State.target_of_written ht, ← State.target_of_mailed hu, applyProofSetTarget, if_pos hv]
    have hother : ∀ n, n ≠ rd p 0 2 → (u.validate (rd p 0 2) p).target n = u.target n :=
      fun n hn => u.validate_target_other _ p hn
    rw [u.validate_target_same]
    cases hvalid : (u.target (rd p 0 2)).valid
    · exact ⟨rfl, rfl, rfl, rfl, rfl, rfl, rfl, hother⟩
    · exact ⟨hvalid, rfl, rfl, rfl, rfl, rfl, rfl, hother⟩
  case devalidate =>
    refine carried_of (fun _ _ => rfl) (fun p s u hu hok => (liveProofSetTarget_of_mailed hu).trans hok.1)
      (fun p s => applyProofSetTarget_mbx s p) (fun p s u t hu ht ⟨_, hv, hq⟩ => ?_)
    rw [← State.target_of_mailed hu] at hq
    rw [State.target_of_written ht, applyProofSetTarget, if_neg (by rw [hv]; exact Bool.false_ne_true),
      u.devalidate_target _ p hq]
    exact ⟨rfl, rfl⟩
  case down =>
    refine proofSetState_does State.spinDown (a := 0) (by decide) (fun _ _ => rfl)
      (fun r s u hu ⟨hv, ha, hr, hst⟩ => ⟨hu ▸ hv, ha, hr, if_pos (hu ▸ hst)⟩)
      (fun r s u t htgt hdrop ht htd _ => ?_)
    rw [ht, htd, ← htgt, ← hdrop, State.spinDown_drop]
    exact ⟨State.spinDown_target _ _, rfl⟩
  case wake =>
    refine proofSetState_does State.queueWake (a := 1) (by decide) State.queueWake_mbx
      (fun r s u hu ⟨hv, ha, hr, hst, _⟩ => ⟨hu ▸ hv, ha, hr, if_pos (hu ▸ hst)⟩)
      (fun r s u t htgt hdrop ht htd ⟨_, _, _, hst, hq⟩ => ?_)
    rw [← htgt] at hq hst
    rw [ht, htd, ← htgt, ← hdrop, State.queueWake_target _ _ hq, State.queueWake_drop _ _ hq]
    exact ⟨rfl, hst, rfl, rfl⟩
  case ready =>
    refine proofSetState_does (fun s i => s.tgtReady i none) (a := 2) (by decide) (fun s i => State.tgtReady_mbx s i none)
      (fun r s u hu ⟨hv, ha, hr, _, hst⟩ => ⟨hu ▸ hv, ha, hr, if_pos (hu ▸ hst)⟩)
      (fun r s u t htgt _ ht _ ⟨_, _, _, hq, _⟩ => ?_)
    rw [← htgt] at hq
    rw [ht]
    exact State.tgtReady_target_of_empty u _ hq
  case sleep =>
    refine proofSetState_does (fun s i => s.setTgt i .asleep) (a := 3) (by decide) (fun _ _ => rfl)
      (fun r s u hu ⟨hv, ha, hr, hst⟩ => ⟨hu ▸ hv, ha, hr, if_pos (hu ▸ hst)⟩)
      (fun r s u t _ _ ht _ _ => ?_)
    rw [ht, State.setTgt_target]
  case refused =>
    refine turned_of (body := proofSetStateBody) (fun _ _ => rfl) (fun r s u _ _ hu _ ⟨hv, ha, hr, h0, h1, h2, h3⟩ => ?_)
    rw [← State.target_of_mailed hu] at hv h0 h1 h2 h3
    exact proofSetStateBody_of_none hv ha hr (State.proofAction_none u _ ha h0 h1 h2 h3)
  case getTarget => exact answered_of (body := proofGetTargetBody) (fun _ _ => rfl) (fun r s u _ _ hu _ => by rw [hu]; rfl)
  case shelfSet =>
    refine carried_of (fun _ _ => rfl) (fun _ _ _ _ hok => hok) (fun _ _ => rfl) (fun p s u t hu ht _ => ?_)
    rw [State.drop_of_written ht, ← State.drop_of_mailed hu]
    exact State.drop_updDrop_same _ _ _ _
  case shelfGet =>
    refine answered_of (body := shelfGetBody) (fun _ _ => rfl) (fun r s u _ _ hu hok => ?_)
    show (u, some (if rd r.payload 0 1 ≤ 3 ∧ rd r.payload 1 1 ≤ 31 then _ else _)) = _
    rw [if_pos hok, hu]
    rfl
  case setBus =>
    refine carried_of (fun _ _ => rfl) (fun _ _ _ _ hok => hok) (fun _ _ => rfl) (fun p s u t hu ht _ => ?_)
    rw [State.bus_of_written ht, ← State.bus_of_mailed hu, applyShelfSetBus, State.bus_updBus_same]
    have hothers : ∀ (f : Bus → Bus) b, b ≠ rd p 0 1 → (u.updBus (rd p 0 1) f).bus b = u.bus b := fun f b hb => by
      rw [State.bus_updBus, if_neg (Ne.symm hb)]
    cases bit (rd p 1 1) 0
    · exact ⟨rfl, rfl, fun _ => ⟨rfl, rfl⟩, hothers _⟩
    · exact ⟨rfl, rfl, fun h => absurd h (by decide), hothers _⟩
  case counters => exact answered_of (body := proofGetCountersBody) (fun _ _ => rfl) (fun r s u _ _ hu _ => by rw [hu]; rfl)

end Sys2Proof.Machine

end


section
/-! PROOF. START, STOP, ABORT and doorbells of a DMA channel: reads and tags left out, the channels stay as their registers leave
them (R343, R347, R350, R364, R366). -/

namespace Sys2Proof.Machine

/-! ### Command bits -/

/-- Setting a bit leaves the higher ones. -/
theorem bit_setBit_higher (v : Nat) {i j : Nat} (h : i < j) : bit (setBit v i) j = bit v j := by
  unfold setBit
  split
  · rfl
  · next hclear =>
    have hpow : 2 ^ j = 2 ^ i * (2 * 2 ^ (j - i - 1)) := by
      rw [← Nat.pow_succ', ← Nat.pow_add]
      congr 1
      omega
    have hhalf : (v + 2 ^ i) / 2 ^ i / 2 = v / 2 ^ i / 2 := by
      rw [Nat.add_div_right v (Nat.two_pow_pos i)]
      simp only [bit, beq_iff_eq] at hclear
      omega
    simp only [bit, hpow, ← Nat.div_div_eq_div_mul, hhalf]

theorem bit_setBit_other (v : Nat) {i j : Nat} (h : i ≠ j) : bit (setBit v i) j = bit v j :=
  (Nat.lt_or_gt_of_ne h).elim (bit_setBit_higher v) (bit_setBit_lower v)

theorem clearBits.setBit {w : BitVec 64} {l : List Nat} {i j : Nat} (h : clearBits w l) (hj : j ∈ l) (hi : i ≠ j) :
    bit (setBit w.toNat i) j = false := (bit_setBit_other _ hi).trans (h j hj)

/-! ### Reads move nothing else of the channels (R355, R356) -/

/-- A channel, the requests that wait and the tags that are out left out. -/
def Chan.apart (x : Chan) : Chan := { x with readsOut := 0, tags := 0, reads := [] }

section

variable (s : State) (c n : Nat)

/-- A change that keeps a channel but for its reads keeps them all so. -/
theorem State.apart_updChan {f : Chan → Chan} (hf : ∀ x, (f x).apart = x.apart) :
    ((s.updChan c f).chan n).apart = (s.chan n).apart := by
  rw [State.chan_updChan]
  split
  · next h => rw [hf, h]
  · rfl

theorem State.apart_sendReq (r : ReadReq) : ((s.sendReq c r).chan n).apart = (s.chan n).apart :=
  s.apart_updChan c n (fun _ => rfl)

/-- A request that finds no tag waits in its channel. -/
theorem State.chan_askReq (r : ReadReq) : (s.askReq c r).chan = (if s.canRead c ∧ (s.chan c).reads.isEmpty then s.sendReq c r
    else s.updChan c (fun x => { x with reads := x.reads ++ [r] })).chan := by
  unfold State.askReq
  split
  · rfl
  · dsimp only
    split <;> rfl

theorem State.apart_askReq (r : ReadReq) : ((s.askReq c r).chan n).apart = (s.chan n).apart := by
  rw [State.chan_askReq]
  split
  · exact s.apart_sendReq c n r
  · exact s.apart_updChan c n (fun _ => rfl)

theorem State.apart_askRead (r : ReadReq) : ((s.askRead c r).chan n).apart = (s.chan n).apart :=
  foldl_read (fun t => (t.chan n).apart) (fun t _ _ => t.apart_askReq c n _) s

theorem State.chan_sendReq_other (r : ReadReq) (h : n ≠ c) : (s.sendReq c r).chan n = s.chan n :=
  (s.chan_updChan c n _).trans (if_neg (Ne.symm h))

theorem State.chan_askReq_other (r : ReadReq) (h : n ≠ c) : (s.askReq c r).chan n = s.chan n := by
  rw [State.chan_askReq]
  split
  · exact s.chan_sendReq_other c n r h
  · exact (s.chan_updChan c n _).trans (if_neg (Ne.symm h))

/-- A channel's reads are its own. -/
theorem State.chan_askRead_other (r : ReadReq) (h : n ≠ c) : (s.askRead c r).chan n = s.chan n :=
  foldl_read (fun t => t.chan n) (fun t _ _ => t.chan_askReq_other c n _ h) s

/-! ### Fetches and tails (R349, R364) -/

theorem State.apart_chanFetch (a : BitVec 64) : ((s.chanFetch c a).chan c).apart = Chan.apart
    { s.chan c with state := .running, cur := a, desc := none, fetching := true, stale := 0, waitStale := false } :=
  (State.apart_askRead _ c c _).trans (congrArg Chan.apart (s.chan_updChan_same c _))

theorem State.chan_chanFetch_other (a : BitVec 64) (h : n ≠ c) : (s.chanFetch c a).chan n = s.chan n :=
  (State.chan_askRead_other _ c n _ h).trans ((s.chan_updChan c n _).trans (if_neg (Ne.symm h)))

theorem State.chan_tailCheck_other (h : n ≠ c) : (s.tailCheck c).chan n = s.chan n := by
  unfold State.tailCheck
  dsimp only
  split
  · exact (State.chan_askRead_other _ c n _ h).trans ((s.chan_updChan c n _).trans (if_neg (Ne.symm h)))
  · rfl

theorem State.tailCheck_of_quiet (h : (s.chan c).rung = (s.chan c).consumed) : s.tailCheck c = s := by
  unfold State.tailCheck
  dsimp only
  rw [if_neg (by simp [h])]

theorem State.apart_tailCheck_of_rung (hs : (s.chan c).state = .idle) (ht : (s.chan c).tailRefetch = false)
    (hr : (s.chan c).rung ≠ (s.chan c).consumed) : ((s.tailCheck c).chan c).apart
      = Chan.apart { s.chan c with consumed := (s.chan c).rung, tailRefetch := true } := by
  unfold State.tailCheck
  dsimp only
  rw [if_pos ⟨hs, ht, hr⟩]
  exact (State.apart_askRead _ c c _).trans (congrArg Chan.apart (s.chan_updChan_same c _))

theorem State.rung_tailCheck : ((s.tailCheck c).chan c).rung = (s.chan c).rung := by
  unfold State.tailCheck
  dsimp only
  split
  · refine (congrArg Chan.rung (State.apart_askRead _ c c _) : _).trans ?_
    show ((s.updChan c _).chan c).rung = _
    rw [State.chan_updChan_same]
  · rfl

/-! ### A channel that stops (R347, R357) -/

theorem State.chan_dropPartial : (s.dropPartial c).chan = s.chan :=
  (State.dropPartial_frame (Touch.or_self _) .refl c).chan_eq rfl

theorem State.chan_chanStop : (s.chanStop c).chan n = if c = n then { (s.chan c).quiet with state := .stopped } else s.chan n := by
  unfold State.chanStop
  rw [State.chan_updChan, State.chan_dropPartial]

/-! ### A write of DMA_CTRL (R366) -/

/-- What the fields of a write of DMA_CTRL leave, before the commands act. -/
def State.ctrlFields (s : State) (c v : Nat) : State :=
  let t := s.updChan c (fun y => y.putCtrl v)
  if (s.chan c).state ≠ .stopped ∧ (bits v 5 4 ≠ (s.chan c).mode ∨ bits v 7 6 ≠ (s.chan c).hostPort) then
    t.reservedAccess (chanReg c 0) 8
  else t

theorem State.writeCtrl_eq (v : Nat) : s.writeCtrl c v 8 =
    (let w := if bit v 0 then (s.ctrlFields c v).chanStart c (bit v 9) else s.ctrlFields c v
     let y := if bit v 1 then w.chanStopReq c else w
     if bit v 2 then y.chanAbort c else y) := rfl

theorem State.chan_ctrlFields (v : Nat) : (s.ctrlFields c v).chan n = if c = n then (s.chan c).putCtrl v else s.chan n := by
  refine Eq.trans ?_ (s.chan_updChan c n (fun y => y.putCtrl v))
  unfold State.ctrlFields
  dsimp only
  split
  · exact congrFun ((State.reservedAccess_frame (Touch.or_self _) .refl _ _).chan_eq rfl) n
  · rfl

end

section

variable {s : State} {fn c : Nat} {w : BitVec 64}

theorem ctrlRow_runs {b : Nat} (hc : c < 128) (h : s.hears fn (s.chFn c)) :
    ctrlRow b fn c w s = .next (s.writeCtrl c (setBit w.toNat b) 8) := by
  unfold ctrlRow
  rw [if_neg (Nat.not_le.mpr hc), onRegister_of_hears h]

theorem dmaStart_runs (hc : c < 128) (h : s.hears fn (s.chFn c)) (hw : clearBits w [1, 2]) : exec (.dmaStart fn c w) s
    = .next ((s.ctrlFields c (setBit w.toNat 0)).chanStart c (bit (setBit w.toNat 0) 9)) := by
  refine (ctrlRow_runs (b := 0) hc h).trans ?_
  rw [State.writeCtrl_eq, bit_setBit_same, hw.setBit (j := 1) (by decide) (by decide), hw.setBit (j := 2) (by decide) (by decide)]
  rfl

theorem dmaStop_runs (hc : c < 128) (h : s.hears fn (s.chFn c)) (hw : clearBits w [0, 2]) : exec (.dmaStop fn c w) s
    = .next ((s.ctrlFields c (setBit w.toNat 1)).chanStopReq c) := by
  refine (ctrlRow_runs (b := 1) hc h).trans ?_
  rw [State.writeCtrl_eq, bit_setBit_same, hw.setBit (j := 0) (by decide) (by decide), hw.setBit (j := 2) (by decide) (by decide)]
  rfl

theorem dmaAbort_runs (hc : c < 128) (h : s.hears fn (s.chFn c)) (hw : clearBits w [0, 1]) : exec (.dmaAbort fn c w) s
    = .next ((s.ctrlFields c (setBit w.toNat 2)).chanAbort c) := by
  refine (ctrlRow_runs (b := 2) hc h).trans ?_
  rw [State.writeCtrl_eq, bit_setBit_same, hw.setBit (j := 0) (by decide) (by decide), hw.setBit (j := 1) (by decide) (by decide)]
  rfl

theorem State.chanStart_of_stopped {u : State} (hs : (u.chan c).state = .stopped ∨ (u.chan c).state = .halted) (k : Bool) :
    ((u.chanStart c k).chan c).state = .running ∧ ((u.chanStart c k).chan c).cur = (u.chan c).start
      ∧ ((u.chanStart c k).chan c).phase = (u.chan c).phaseInit ∧ ((u.chanStart c k).chan c).fetching = true
      ∧ ((u.chanStart c k).chan c).desc = none ∧ ∀ n, n ≠ c → (u.chanStart c k).chan n = u.chan n := by
  unfold State.chanStart
  dsimp only
  rw [if_neg (by rcases hs with h | h <;> simp [h])]
  generalize ht : u.updChan c (fun y => { y.quiet with phase := y.phaseInit, consumed := y.rung }) = t
  have hphase : (t.chan c).phase = (u.chan c).phaseInit := by rw [← ht, State.chan_updChan_same]
  have hother (n : Nat) (hn : n ≠ c) : t.chan n = u.chan n := by rw [← ht, State.chan_updChan, if_neg (Ne.symm hn)]
  generalize hv : (if k then t.updChan c (fun y => { y with cqHead := 0, cqTail := 0, cqPhase := true, cq := [] }) else t) = v
  have hvphase : (v.chan c).phase = (t.chan c).phase := by
    rw [← hv]
    split
    · rw [State.chan_updChan_same]
    · rfl
  have hvother (n : Nat) (hn : n ≠ c) : v.chan n = t.chan n := by
    rw [← hv]
    split
    · rw [State.chan_updChan, if_neg (Ne.symm hn)]
    · rfl
  have happ := v.apart_chanFetch c (u.chan c).start
  exact ⟨congrArg Chan.state happ, congrArg Chan.cur happ, (congrArg Chan.phase happ).trans (hvphase.trans hphase),
    congrArg Chan.fetching happ, congrArg Chan.desc happ,
    fun n hn => (v.chan_chanFetch_other c n _ hn).trans ((hvother n hn).trans (hother n hn))⟩

theorem State.chanStopReq_of_idle {u : State} (h : (u.chan c).state = .idle) : u.chanStopReq c = u.chanStop c := by
  unfold State.chanStopReq
  dsimp only
  rw [if_pos (.inl h)]

/-- STOP of a memory channel with a transfer in progress waits for its end (R347). -/
theorem State.chanStopReq_of_busy {u : State} {d : List Byte} (hrun : (u.chan c).state = .running) (hm : (u.chan c).mode = 0)
    (hd : (u.chan c).desc = some d) : u.chanStopReq c = u.updChan c (fun y => { y with stopReq := true }) := by
  simp [State.chanStopReq, hrun, hm, hd]

theorem State.chan_chanAbort {u : State} (h : (u.chan c).state = .running ∨ (u.chan c).state = .idle) :
    ((u.chanAbort c).chan c).state = .stopped ∧ ((u.chanAbort c).chan c).desc = none
      ∧ ∀ n, n ≠ c → (u.chanAbort c).chan n = u.chan n := by
  unfold State.chanAbort
  dsimp only
  rw [if_pos h, State.chan_chanStop, if_pos rfl]
  exact ⟨rfl, rfl, fun n hn => by rw [State.chan_chanStop, if_neg (Ne.symm hn), State.chan_updChan, if_neg (Ne.symm hn)]⟩

/-- What a doorbell leaves of the counts, and of the tail of a channel in IDLE (R364). -/
theorem State.chan_chanRing (s : State) (c : Nat) : ((s.chanRing c).chan c).rung = ((s.chan c).rung + 1) % 2 ^ 32
    ∧ ((s.chan c).state = .idle → (s.chan c).tailRefetch = false → (s.chan c).consumed = (s.chan c).rung →
        ((s.chanRing c).chan c).tailRefetch = true ∧ ((s.chanRing c).chan c).consumed = ((s.chanRing c).chan c).rung)
    ∧ ∀ n, n ≠ c → (s.chanRing c).chan n = s.chan n := by
  unfold State.chanRing
  generalize ht : s.updChan c (fun x => { x with rung := (x.rung + 1) % 2 ^ 32 }) = t
  have hc : t.chan c = { s.chan c with rung := ((s.chan c).rung + 1) % 2 ^ 32 } := by rw [← ht, State.chan_updChan_same]
  have hrung : ((t.tailCheck c).chan c).rung = ((s.chan c).rung + 1) % 2 ^ 32 := by rw [State.rung_tailCheck, hc]
  refine ⟨hrung, fun hidle htail hrest => ?_, fun n hn => ?_⟩
  · have happ := State.apart_tailCheck_of_rung t c (by rw [hc]; exact hidle) (by rw [hc]; exact htail)
      (by rw [hc]; show _ ≠ (s.chan c).consumed; rw [hrest]; dsimp only; omega)
    exact ⟨congrArg Chan.tailRefetch happ, (congrArg Chan.consumed happ).trans (congrArg Chan.rung happ).symm⟩
  · rw [State.chan_tailCheck_other _ _ _ hn, ← ht, State.chan_updChan, if_neg (Ne.symm hn)]

end

/-- Settles O35: what the fields of DMA_CTRL leave of the channel, then the command by the channel's state. -/
theorem dmaControl : Obligations.DmaControl := by
  unfold Obligations.DmaControl
  refine ⟨fun s fn c w hc hh hw hs => ?start, fun s fn c w hc hh hw => ⟨fun hs => ?stopIdle, fun hs hm hd => ?stopBusy⟩,
    fun s fn c w hc hh hw hs => ?abort, fun s fn c w hc hh => ⟨s.chanRing c, ?ring, s.chan_chanRing c⟩⟩
  case start =>
    refine ⟨_, dmaStart_runs hc hh hw, ?_⟩
    have hfields := s.chan_ctrlFields c c (setBit w.toNat 0)
    rw [if_pos rfl] at hfields
    obtain ⟨hstate, hcur, hphase, hfetching, hdesc, hother⟩ :=
      State.chanStart_of_stopped (u := s.ctrlFields c (setBit w.toNat 0)) (c := c) (by rw [hfields]; exact hs)
        (bit (setBit w.toNat 0) 9)
    rw [hfields] at hcur hphase
    refine ⟨hstate, hcur, hphase.trans (bit_setBit_higher _ (by decide)), hfetching, hdesc, fun n hn => (hother n hn).trans ?_⟩
    rw [State.chan_ctrlFields, if_neg (Ne.symm hn)]
  case stopIdle =>
    refine ⟨_, dmaStop_runs hc hh hw, ?_⟩
    rw [State.chanStopReq_of_idle (by rw [State.chan_ctrlFields, if_pos rfl]; exact hs)]
    dsimp only
    rw [State.chan_chanStop, if_pos rfl]
    exact ⟨rfl, fun n hn => by
      rw [State.chan_chanStop, if_neg (Ne.symm hn), State.chan_ctrlFields, if_neg (Ne.symm hn)]⟩
  case stopBusy =>
    obtain ⟨d, hd⟩ := Option.ne_none_iff_exists'.mp hd
    refine ⟨_, dmaStop_runs hc hh hw, ?_⟩
    have hfields := s.chan_ctrlFields c c (setBit w.toNat 1)
    rw [if_pos rfl] at hfields
    have hmode : ((s.chan c).putCtrl (setBit w.toNat 1)).mode = 0 := by simp [Chan.putCtrl, hs, hm]
    rw [State.chanStopReq_of_busy (by rw [hfields]; exact hs) (by rw [hfields]; exact hmode) (by rw [hfields]; exact hd)]
    dsimp only
    rw [State.chan_updChan_same, hfields]
    exact ⟨hs, rfl, rfl⟩
  case abort =>
    refine ⟨_, dmaAbort_runs hc hh hw, ?_⟩
    obtain ⟨hstate, hdesc, hother⟩ := State.chan_chanAbort (u := s.ctrlFields c (setBit w.toNat 2)) (c := c)
      (by rw [State.chan_ctrlFields, if_pos rfl]; exact hs)
    exact ⟨hstate, hdesc, fun n hn => (hother n hn).trans (by rw [State.chan_ctrlFields, if_neg (Ne.symm hn)])⟩
  case ring =>
    show execDmaDoorbell fn c w s = _
    unfold execDmaDoorbell
    rw [if_neg (Nat.not_le.mpr hc), onRegister_of_hears hh]

end Sys2Proof.Machine

end


section
/-! PROOF. What arrives at a DMA channel: the copies of descriptors, the ends of transfers, flushes and errors, by what an entry
written and the next descriptor leave of the channel (R348 to R364, R377). -/

namespace Sys2Proof.Machine

/-! ### Requests asked for (R355, R356) -/

/-- A request as it stands on the link. -/
def ReadReq.message (r : ReadReq) (fn : Nat) : Output :=
  if r.payload then .hostFetch fn r.addr r.len r.ns else .hostRead fn r.addr r.len

/-- A request has been sent on the link of function `fn`, or waits in channel `c` for a tag. -/
def State.requested (t : State) (fn c : Nat) (r : ReadReq) : Prop := r.message fn ∈ t.out ∨ r ∈ (t.chan c).reads

section

variable {s : State} {o : Output} (c : Nat)

theorem State.mem_out_emit (p : Output) (h : o ∈ s.out) : o ∈ (s.emit p).out := List.mem_cons_of_mem _ h

theorem State.mem_out_foldl {α : Type} {f : State → α → State} (hf : ∀ t x, o ∈ t.out → o ∈ (f t x).out) (l : List α)
    (h : o ∈ s.out) : o ∈ (l.foldl f s).out := by
  induction l generalizing s with
  | nil => exact h
  | cons x l ih => exact ih (hf s x h)

theorem State.mem_out_askReq (r : ReadReq) (h : o ∈ s.out) : o ∈ (s.askReq c r).out := by
  unfold State.askReq
  split
  · exact State.mem_out_emit _ h
  · dsimp only
    split <;> exact h

theorem State.mem_out_askRead (r : ReadReq) (h : o ∈ s.out) : o ∈ (s.askRead c r).out :=
  State.mem_out_foldl (fun _ _ ht => State.mem_out_askReq c _ ht) _ h

theorem State.mem_out_chanFollow (a : BitVec 64) (h : o ∈ s.out) : o ∈ (s.chanFollow c a).out :=
  State.mem_out_askRead c _ h

variable (s)

theorem State.chFn_askReq (r : ReadReq) : (s.askReq c r).chFn = s.chFn := by
  unfold State.askReq
  split
  · rfl
  · dsimp only
    split <;> rfl

theorem State.reads_askReq {q : ReadReq} (r : ReadReq) (h : q ∈ (s.chan c).reads) : q ∈ ((s.askReq c r).chan c).reads := by
  rw [State.chan_askReq]
  split
  · show q ∈ ((s.updChan c _).chan c).reads
    rw [State.chan_updChan_same]
    exact h
  · rw [State.chan_updChan_same]
    exact List.mem_append_left _ h

theorem State.requested_askReq (r : ReadReq) : (s.askReq c r).requested (s.chFn c) c r := by
  by_cases h : s.canRead c = true ∧ (s.chan c).reads.isEmpty = true
  · have hsent : s.askReq c r = s.sendReq c r := if_pos h
    rw [hsent]
    exact .inl List.mem_cons_self
  · refine .inr ?_
    rw [State.chan_askReq, if_neg h, State.chan_updChan_same]
    exact List.mem_append_right _ (List.mem_singleton.mpr rfl)

/-- Every request of a read is asked for. -/
theorem State.requested_foldl (f : Nat × Nat → ReadReq) {q : ReadReq} {fn : Nat} (hfn : s.chFn c = fn) (l : List (Nat × Nat))
    (h : s.requested fn c q ∨ ∃ p ∈ l, q = f p) : (l.foldl (fun t p => t.askReq c (f p)) s).requested fn c q := by
  induction l generalizing s with
  | nil => simpa using h
  | cons p l ih =>
    refine ih (s.askReq c (f p)) ((congrFun (s.chFn_askReq c _) c).trans hfn) ?_
    obtain (hout | hread) | ⟨p', hp, rfl⟩ := h
    · exact .inl (.inl (State.mem_out_askReq c _ hout))
    · exact .inl (.inr (State.reads_askReq s c _ hread))
    · obtain rfl | hp := List.mem_cons.mp hp
      · exact .inl (hfn ▸ s.requested_askReq c _)
      · exact .inr ⟨p', hp, rfl⟩

theorem State.requested_askRead (r : ReadReq) : ∀ p ∈ s.readParts c r,
    (s.askRead c r).requested (s.chFn c) c { r with addr := p.1, len := p.2 } :=
  fun p hp => State.requested_foldl s c (fun p => { r with addr := p.1, len := p.2 }) rfl _ (.inr ⟨p, hp, rfl⟩)

/-! ### Tags that come back (R356) -/

variable (n : Nat)

theorem State.apart_serveReads : ((s.serveReads).chan n).apart = (s.chan n).apart := by
  unfold State.serveReads
  dsimp only
  split
  · rfl
  · split
    · rfl
    · exact (State.apart_sendReq _ _ n _).trans (State.apart_updChan _ _ n (fun _ => rfl))

theorem State.apart_readDone (k : Nat) : ((s.readDone c k).chan n).apart = (s.chan n).apart :=
  (foldl_read (fun t => (t.chan n).apart) (fun t _ _ => t.apart_serveReads n) _).trans (s.apart_updChan c n (fun _ => rfl))

theorem State.apart_dataDone : ((s.dataDone c).chan n).apart = (s.chan n).apart :=
  (State.apart_readDone _ c n _).trans (s.apart_updChan c n (fun _ => rfl))

end

/-! ### No tag comes free when a channel is written (R356) -/

theorem Tab.sum_le_insert {α : Type} (g : α → Nat) (k : Nat) (v : α) (l : Tab α) (h : ∀ w, Tab.find l k = some w → g w ≤ g v) :
    (l.map (fun e => g e.2)).sum ≤ ((Tab.insert k v l).map (fun e => g e.2)).sum := by
  induction l with
  | nil => exact Nat.zero_le _
  | cons e l ih =>
    obtain ⟨j, w⟩ := e
    unfold Tab.insert
    split
    · exact Nat.le_add_left _ _
    · split
      · next hkj => exact Nat.add_le_add_right (h w (if_pos hkj.symm)) _
      · next hkj =>
        exact Nat.add_le_add_left (ih (fun x hx => h x ((if_neg (Ne.symm hkj)).trans hx))) _

theorem State.canRead_updChan_false {s : State} {c : Nat} {f : Chan → Chan} (hout : ∀ x, (f x).readsOut = x.readsOut)
    (hmax : ∀ x, (f x).maxReads = x.maxReads) (hlisted : f (s.chan c) ≠ Chan.init) (h : s.canRead c = false) :
    (s.updChan c f).canRead c = false := by
  have hsum : (s.host.chans.map (fun x => x.2.readsOut)).sum
      ≤ ((Tab.insert c (f (s.chan c)) s.host.chans).map (fun x => x.2.readsOut)).sum := by
    refine Tab.sum_le_insert Chan.readsOut c _ _ (fun w hw => ?_)
    have hget : s.chan c = w := by
      unfold State.chan Tab.get
      rw [hw]
      rfl
    rw [hout, hget]
  have hchans : (s.updChan c f).host.chans = Tab.insert c (f (s.chan c)) s.host.chans := if_neg hlisted
  unfold State.canRead at h ⊢
  rw [State.chan_updChan_same, hout, hmax, hchans]
  simp only [Bool.and_eq_false_iff, decide_eq_false_iff_not] at h ⊢
  omega

/-! ### Completion entries (R358, R361, R362) -/

section

variable {u : State} {c : Nat} {e : CqEntry}

/-- The only waiting entry, with room for it. -/
theorem State.cqPump_of_one (hq : (u.chan c).cq = [e]) (hf : (u.chan c).flush = none) (hr : (u.chan c).cqRoom = true)
    (he : (u.chan c).endCount = 0) : u.cqPump c
      = (let t := (u.updChan c (fun y => y.cqWritten e)).emit (.hostWrite (u.chFn c) (u.chan c).cqAddr (e.row (u.chan c).cqPhase))
         if e.flush then t.askRead c ⟨(u.chan c).cqAddr, 0, false, false⟩ else if e.int then t.interrupt c else t) := by
  have hone : u.cqPump c = u.cqOne c := by
    unfold State.cqPump
    rw [hq]
    rfl
  rw [hone]
  unfold State.cqOne
  dsimp only
  rw [hq]
  dsimp only
  rw [if_neg (by simp [hf, hr]), if_neg (by simp [he])]

/-- What writing its only entry leaves of a channel, and of the outputs. -/
theorem State.cqPump_spec (hq : (u.chan c).cq = [e]) (hf : (u.chan c).flush = none) (hr : (u.chan c).cqRoom = true)
    (he : (u.chan c).endCount = 0) : ((u.cqPump c).chan c).apart = ((u.chan c).cqWritten e).apart
      ∧ .hostWrite (u.chFn c) (u.chan c).cqAddr (e.row (u.chan c).cqPhase) ∈ (u.cqPump c).out
      ∧ (∀ o ∈ u.out, o ∈ (u.cqPump c).out)
      ∧ (e.int = true → e.flush = false → (u.cqPump c).host.intPending c = true) := by
  rw [State.cqPump_of_one hq hf hr he]
  generalize hm : Output.hostWrite (u.chFn c) (u.chan c).cqAddr (e.row (u.chan c).cqPhase) = m
  generalize ht : (u.updChan c (fun y => y.cqWritten e)).emit m = t
  have hchan : t.chan c = (u.chan c).cqWritten e := by
    rw [← ht]
    exact u.chan_updChan_same c _
  have hmem : m ∈ t.out := ht ▸ List.mem_cons_self
  have hsub : ∀ o ∈ u.out, o ∈ t.out := fun o ho => ht ▸ List.mem_cons_of_mem _ ho
  dsimp only
  split
  · next hflush =>
    exact ⟨by rw [State.apart_askRead, hchan], State.mem_out_askRead c _ hmem, fun o ho => State.mem_out_askRead c _ (hsub o ho),
      fun _ h => absurd (hflush.symm.trans h) (by decide)⟩
  · split
    · refine ⟨congrArg Chan.apart ?_, State.mem_out_interrupt hmem c, fun o ho => State.mem_out_interrupt (hsub o ho) c,
        fun _ _ => by rw [State.intPending_interrupt]; simp⟩
      rw [(State.interrupt_frame (Touch.or_self _) .refl c).chan_eq rfl, hchan]
    · next hint => exact ⟨by rw [hchan], hmem, hsub, fun h => absurd h hint⟩

end

/-! ### What a completion needs of a channel (R358, R361, R363) -/

/-- What completions and links read of a channel. -/
def Chan.ring (x : Chan) : BitVec 64 × Bool × BitVec 64 × Nat × Nat × Bool × Ctr × Ctr :=
  (x.cur, x.phase, x.cqBase, x.cqK, x.cqTail, x.cqPhase, x.comp, x.bytes)

section

variable {s u t : State} {c : Nat} {d : List Byte}

theorem Completed.of_ring {status n : Nat} {sop eop : Bool} (hr : (u.chan c).ring = (s.chan c).ring) (hfn : u.chFn c = s.chFn c)
    (h : Completed u t c d status n sop eop) : Completed s t c d status n sop eop := by
  simp only [Chan.ring, Prod.mk.injEq] at hr
  obtain ⟨hcur, -, hbase, hk, htail, hphase, hcomp, hbytes⟩ := hr
  have haddr : (u.chan c).cqAddr = (s.chan c).cqAddr := by unfold Chan.cqAddr; rw [hbase, hk, htail]
  unfold Completed at h ⊢
  rwa [haddr, hcur, hphase, htail, hcomp, hbytes, hfn] at h

theorem WentOn.of_place (hcur : (u.chan c).cur = (s.chan c).cur) (hphase : (u.chan c).phase = (s.chan c).phase)
    (h : WentOn u t c d) : WentOn s t c d := by
  unfold WentOn at h ⊢
  rwa [hcur, hphase] at h

theorem Chan.atEase.of_apart {x y : Chan} (hx : x.atEase) (h : y.apart = x.apart) : y.atEase := by
  show y.apart.atEase
  rw [h]
  exact hx

/-! ### The channel goes on (R347, R350, R363) -/

/-- A channel that follows a link. -/
def Chan.followed (x : Chan) (a : BitVec 64) : Chan :=
  { x with
    phase := if a.toNat ≤ x.cur.toNat then !x.phase else x.phase
    state := .running
    cur := a
    desc := none
    fetching := true
    stale := 0
    waitStale := false }

theorem State.apart_chanFollow (s : State) (c : Nat) (a : BitVec 64) :
    ((s.chanFollow c a).chan c).apart = ((s.chan c).followed a).apart := by
  refine (State.apart_chanFetch _ c a).trans ?_
  rw [State.chan_updChan_same]
  rfl

/-- The channel after descriptor `d`: IDLE at the end of the chain, else at its link. -/
def State.afterDesc (s : State) (c : Nat) (d : List Byte) : State :=
  if dEoc d then s.updChan c (fun y => { y with state := .idle, desc := none, due := false })
  else (s.updChan c (fun y => { y with due := false })).chanFollow c (BitVec.ofNat 64 (dLink d))

theorem State.chanNext_at_ease (hstop : (u.chan c).stopReq = false) (hrest : (u.chan c).rung = (u.chan c).consumed)
    (hd : (u.chan c).desc = some d) : u.chanNext c = u.afterDesc c d := by
  have htail : (u.updChan c (fun y => { y with state := .idle, desc := none, due := false })).tailCheck c
      = u.updChan c (fun y => { y with state := .idle, desc := none, due := false }) :=
    State.tailCheck_of_quiet _ c (by rw [State.chan_updChan_same]; exact hrest)
  unfold State.chanNext State.afterDesc
  dsimp only
  rw [if_neg (by simp [hstop]), hd, Option.getD_some, htail]

theorem State.afterDesc_frame (s : State) (c : Nat) (d : List Byte) :
    Frame ({ chans := true, waitFetch := true, out := true } : Touch) s (s.afterDesc c d) := by
  unfold State.afterDesc
  split
  · exact State.updChan_frame rfl .refl _ _
  · exact State.chanFollow_frame rfl (State.updChan_frame rfl .refl _ _) _ _

theorem State.mem_out_afterDesc {o : Output} (h : o ∈ s.out) : o ∈ (s.afterDesc c d).out := by
  unfold State.afterDesc
  split
  · exact h
  · exact State.mem_out_chanFollow c _ h

theorem State.afterDesc_wentOn (s : State) (c : Nat) (d : List Byte) : WentOn s (s.afterDesc c d) c d := by
  unfold State.afterDesc
  split
  · next heoc =>
    unfold WentOn
    rw [State.chan_updChan_same]
    exact ⟨rfl, fun _ => ⟨rfl, rfl, rfl⟩, fun h => absurd (heoc.symm.trans h) (by decide)⟩
  · next heoc =>
    have happ := (s.updChan c (fun y => { y with due := false })).apart_chanFollow c (BitVec.ofNat 64 (dLink d))
    rw [State.chan_updChan_same] at happ
    exact ⟨congrArg Chan.desc happ, fun h => absurd h heoc, fun _ =>
      ⟨congrArg Chan.state happ, congrArg Chan.fetching happ, congrArg Chan.cur happ, congrArg Chan.phase happ⟩⟩

/-- What follows a descriptor leaves of the channel what its completion has put there. -/
theorem State.afterDesc_keeps_completion (s : State) (c : Nat) (d : List Byte) :
    ((s.afterDesc c d).chan c).cqTail = (s.chan c).cqTail ∧ ((s.afterDesc c d).chan c).comp = (s.chan c).comp
      ∧ ((s.afterDesc c d).chan c).bytes = (s.chan c).bytes ∧ ((s.afterDesc c d).chan c).flush = (s.chan c).flush
      ∧ ((s.afterDesc c d).chan c).inPkt = (s.chan c).inPkt ∧ ((s.afterDesc c d).chan c).pktLeft = (s.chan c).pktLeft := by
  unfold State.afterDesc
  split
  · rw [State.chan_updChan_same]
    exact ⟨rfl, rfl, rfl, rfl, rfl, rfl⟩
  · have happ := (s.updChan c (fun y => { y with due := false })).apart_chanFollow c (BitVec.ofNat 64 (dLink d))
    rw [State.chan_updChan_same] at happ
    exact ⟨(congrArg Chan.cqTail happ :), (congrArg Chan.comp happ :), (congrArg Chan.bytes happ :), (congrArg Chan.flush happ :),
      (congrArg Chan.inPkt happ :), (congrArg Chan.pktLeft happ :)⟩

/-! ### A descriptor completes (R353, R358, R361) -/

/-- The entry that descriptor `d` of channel `c` makes. -/
def State.entryOf (s : State) (c : Nat) (d : List Byte) (status n : Nat) (sop eop : Bool) : CqEntry :=
  { addr := (s.chan c).cur, bytes := n, status, marker := dMarker d, sop, eop, int := dInt d, flush := dFlush d }

/-- The entry of descriptor `d` has been written. -/
def State.entered (s : State) (c : Nat) (d : List Byte) (status n : Nat) (sop eop : Bool) : State :=
  (s.updChan c (fun y => { y with cq := y.cq ++ [s.entryOf c d status n sop eop] })).cqPump c

variable {status n : Nat} {sop eop : Bool}

theorem State.chanDone_eq (hd : (u.chan c).desc = some d) : u.chanDone c status n sop eop
    = if halting status then (u.entered c d status n sop eop).chanHalt c status
      else (u.entered c d status n sop eop).chanGoOn c := by
  unfold State.chanDone
  dsimp only
  rw [hd]
  rfl

/-- What the entry of a descriptor leaves of a channel at ease. -/
theorem State.entered_spec (he : (u.chan c).atEase) :
    ((u.entered c d status n sop eop).chan c).apart
        = (({ u.chan c with cq := [u.entryOf c d status n sop eop] } : Chan).cqWritten (u.entryOf c d status n sop eop)).apart
      ∧ .hostWrite (u.chFn c) (u.chan c).cqAddr ((u.entryOf c d status n sop eop).row (u.chan c).cqPhase)
          ∈ (u.entered c d status n sop eop).out
      ∧ (∀ o ∈ u.out, o ∈ (u.entered c d status n sop eop).out)
      ∧ (dInt d = true → dFlush d = false → (u.entered c d status n sop eop).host.intPending c = true) := by
  obtain ⟨hq, hf, hr, hend, -, -⟩ := he
  have hchan : (u.updChan c (fun y => { y with cq := y.cq ++ [u.entryOf c d status n sop eop] })).chan c
      = { u.chan c with cq := [u.entryOf c d status n sop eop] } := by
    rw [State.chan_updChan_same, hq]
    rfl
  have hspec := State.cqPump_spec (u := u.updChan c (fun y => { y with cq := y.cq ++ [u.entryOf c d status n sop eop] }))
    (c := c) (e := u.entryOf c d status n sop eop) (by rw [hchan]) (by rw [hchan]; exact hf) (by rw [hchan]; exact hr)
    (by rw [hchan]; exact hend)
  rw [hchan] at hspec
  exact hspec

theorem State.entered_completed (he : (u.chan c).atEase) :
    Completed u (u.entered c d status n sop eop) c d status n sop eop := by
  obtain ⟨happ, hout, -, hint⟩ := State.entered_spec (u := u) (d := d) (status := status) (n := n) (sop := sop) (eop := eop) he
  exact ⟨hout, congrArg Chan.cqTail happ, congrArg Chan.comp happ, congrArg Chan.bytes happ, congrArg Chan.flush happ, hint⟩

/-- What the entry of a descriptor leaves of a channel at ease as it was. -/
theorem State.entered_keeps (he : (u.chan c).atEase) :
    ((u.entered c d status n sop eop).chan c).cq = [] ∧ ((u.entered c d status n sop eop).chan c).cur = (u.chan c).cur
      ∧ ((u.entered c d status n sop eop).chan c).phase = (u.chan c).phase
      ∧ ((u.entered c d status n sop eop).chan c).desc = (u.chan c).desc
      ∧ ((u.entered c d status n sop eop).chan c).stopReq = (u.chan c).stopReq
      ∧ ((u.entered c d status n sop eop).chan c).rung = (u.chan c).rung
      ∧ ((u.entered c d status n sop eop).chan c).consumed = (u.chan c).consumed
      ∧ ((u.entered c d status n sop eop).chan c).inPkt = (u.chan c).inPkt
      ∧ ((u.entered c d status n sop eop).chan c).pktLeft = (u.chan c).pktLeft := by
  obtain ⟨happ, -⟩ := State.entered_spec (u := u) (d := d) (status := status) (n := n) (sop := sop) (eop := eop) he
  generalize (u.entered c d status n sop eop).chan c = y at *
  generalize u.entryOf c d status n sop eop = e at *
  generalize u.chan c = x at *
  exact ⟨(congrArg Chan.cq happ :), (congrArg Chan.cur happ :), (congrArg Chan.phase happ :), (congrArg Chan.desc happ :),
    (congrArg Chan.stopReq happ :), (congrArg Chan.rung happ :), (congrArg Chan.consumed happ :), (congrArg Chan.inPkt happ :),
    (congrArg Chan.pktLeft happ :)⟩

theorem State.entered_frame (u : State) (c : Nat) (d : List Byte) (status n : Nat) (sop eop : Bool) :
    Frame ({ chans := true, waitFetch := true, out := true, irq := true } : Touch) u (u.entered c d status n sop eop) :=
  State.cqPump_frame rfl (State.updChan_frame rfl .refl _ _) _

/-- A descriptor that does not halt its channel, which is at ease: its entry is written, and the channel goes on. -/
theorem State.chanDone_at_ease (he : (u.chan c).atEase) (hd : (u.chan c).desc = some d) (hs : halting status = false) :
    u.chanDone c status n sop eop = (u.entered c d status n sop eop).afterDesc c d := by
  obtain ⟨hempty, -, -, hdesc, hstop, hrung, hconsumed, -⟩ :=
    State.entered_keeps (u := u) (d := d) (status := status) (n := n) (sop := sop) (eop := eop) he
  rw [State.chanDone_eq hd, if_neg (by simp [hs])]
  generalize u.entered c d status n sop eop = v at *
  obtain ⟨-, -, -, -, hstopped, hrest⟩ := he
  have hgo : v.chanGoOn c = v.chanNext c := if_neg (by simp [hempty])
  rw [hgo]
  exact State.chanNext_at_ease (hstop.trans hstopped) (by rw [hrung, hconsumed, hrest]) (hdesc.trans hd)

/-- What the end of a descriptor that does not halt its channel leaves. -/
theorem State.chanDone_ends (he : (u.chan c).atEase) (hd : (u.chan c).desc = some d) (hs : halting status = false) :
    Completed u (u.chanDone c status n sop eop) c d status n sop eop ∧ WentOn u (u.chanDone c status n sop eop) c d
      ∧ (∀ o ∈ u.out, o ∈ (u.chanDone c status n sop eop).out)
      ∧ ((u.chanDone c status n sop eop).chan c).inPkt = (u.chan c).inPkt
      ∧ ((u.chanDone c status n sop eop).chan c).pktLeft = (u.chan c).pktLeft
      ∧ Frame ({ chans := true, waitFetch := true, out := true, irq := true } : Touch) u (u.chanDone c status n sop eop) := by
  rw [State.chanDone_at_ease he hd hs]
  obtain ⟨hout, htail, hcomp, hbytes, hflush, hint⟩ :=
    State.entered_completed (u := u) (d := d) (status := status) (n := n) (sop := sop) (eop := eop) he
  obtain ⟨-, -, hsub, -⟩ := State.entered_spec (u := u) (d := d) (status := status) (n := n) (sop := sop) (eop := eop) he
  obtain ⟨-, hcur, hphase, -, -, -, -, hin, hleft⟩ :=
    State.entered_keeps (u := u) (d := d) (status := status) (n := n) (sop := sop) (eop := eop) he
  have hframe := u.entered_frame c d status n sop eop
  generalize u.entered c d status n sop eop = v at *
  have hafter := v.afterDesc_frame c d
  obtain ⟨htail', hcomp', hbytes', hflush', hin', hleft'⟩ := v.afterDesc_keeps_completion c d
  refine ⟨⟨State.mem_out_afterDesc hout, htail'.trans htail, hcomp'.trans hcomp, hbytes'.trans hbytes, hflush'.trans hflush,
      fun h1 h2 => ?_⟩, WentOn.of_place hcur hphase (v.afterDesc_wentOn c d), fun o ho => State.mem_out_afterDesc (hsub o ho),
    hin'.trans hin, hleft'.trans hleft, hframe.step rfl hafter⟩
  rw [hafter.intPending_eq rfl]
  exact hint h1 h2

/-! ### A descriptor that halts its channel (R353) -/

theorem State.chanHalt_spec (v : State) (c status : Nat) :
    (v.chanHalt c status).chan c = { (v.chan c).quiet with state := .halted, haltCause := status }
      ∧ (∀ o ∈ v.out, o ∈ (v.chanHalt c status).out) ∧ (v.chanHalt c status).host.intPending c = true := by
  unfold State.chanHalt
  dsimp only
  refine ⟨?_, fun o ho => State.mem_out_raise (State.mem_out_interrupt ?_ c) _ _ _, State.intPending_raise_of _ _ _ ?_⟩
  · rw [(State.raise_frame (Touch.or_self _) .refl _ _ _).chan_eq rfl, (State.interrupt_frame (Touch.or_self _) .refl _).chan_eq rfl,
      State.chan_updChan_same, State.chan_dropPartial]
  · unfold State.dropPartial
    dsimp only
    split <;> exact ho
  · rw [State.intPending_interrupt]
    simp

/-- What the end of a descriptor that halts its channel leaves. -/
theorem State.chanDone_halts (he : (u.chan c).atEase) (hd : (u.chan c).desc = some d) (hs : halting status = true) :
    Completed u (u.chanDone c status n sop eop) c d status n sop eop
      ∧ ((u.chanDone c status n sop eop).chan c).state = .halted ∧ ((u.chanDone c status n sop eop).chan c).haltCause = status
      ∧ (u.chanDone c status n sop eop).host.intPending c = true
      ∧ ∀ o ∈ u.out, o ∈ (u.chanDone c status n sop eop).out := by
  rw [State.chanDone_eq hd, if_pos hs]
  obtain ⟨hout, htail, hcomp, hbytes, hflush, -⟩ :=
    State.entered_completed (u := u) (d := d) (status := status) (n := n) (sop := sop) (eop := eop) he
  obtain ⟨-, -, hsub, -⟩ := State.entered_spec (u := u) (d := d) (status := status) (n := n) (sop := sop) (eop := eop) he
  generalize u.entered c d status n sop eop = v at *
  obtain ⟨hchan, hmem, hint⟩ := v.chanHalt_spec c status
  unfold Completed
  rw [hchan]
  exact ⟨⟨hmem _ hout, htail, hcomp, hbytes, hflush, fun _ _ => hint⟩, rfl, rfl, hint, fun o ho => hmem o (hsub o ho)⟩

end

end Sys2Proof.Machine

end


section
/-! PROOF. The rows of a DMA channel in progress, from what a completed descriptor leaves (R348 to R364, R377). -/

namespace Sys2Proof.Machine

section

variable {w : Touch} {s t u : State} {c : Nat} {d : List Byte}

/-! ### What frames leave that a transfer reads -/

theorem Frame.chFn_eq (h : Frame w s t) (hw : w.bootCfg = false) : t.chFn = s.chFn := by
  obtain ⟨-, -, hb⟩ := h.bootCfg hw
  unfold State.chFn
  rw [hb]

theorem Frame.link_eq (h : Frame w s t) (hw : w.irq = false) : t.host.link = s.host.link := by
  unfold HostSt.link
  rw [(h.irq hw).1]

theorem Frame.rangeOk_eq (h : Frame w s t) (hw : w.regions = false) : t.rangeOk = s.rangeOk := by
  have hinRegion : t.inRegion = s.inRegion := by
    unfold State.inRegion State.regionBase State.regionSize
    rw [h.regions hw]
  unfold State.rangeOk
  rw [hinRegion]

theorem Frame.descFault_eq (h : Frame w s t) (hw : w.regions = false) {x y : Chan} (hm : x.mode = y.mode) :
    t.descFault x d = s.descFault y d := by
  unfold State.descFault
  rw [h.rangeOk_eq hw, hm]

theorem State.readDone_quiet (s : State) (c k : Nat) :
    Frame ({ chans := true, waitFetch := true, out := true } : Touch) s (s.readDone c k) :=
  State.readDone_frame rfl .refl c k

theorem padTo_eq_self {n : Nat} {l : List Byte} (h : l.length = n) : padTo n l = l := by
  simp [padTo, ← h]

/-! ### The copy of a descriptor (R350 to R353) -/

/-- The channel with descriptor `d` in progress. -/
def State.took (s : State) (c : Nat) (d : List Byte) : State :=
  s.updChan c (fun x => { x with desc := some d, fetching := false, waitStale := false, stale := 0 })

theorem State.took_chan (s : State) (c : Nat) (d : List Byte) : (s.took c d).chan c
    = { s.chan c with desc := some d, fetching := false, waitStale := false, stale := 0 } := s.chan_updChan_same c _

theorem State.takeDesc_of_fault {st : Nat} (h : s.descFault (s.chan c) d = some st) :
    s.takeDesc c d = (s.took c d).chanDone c st 0 false false := by
  unfold State.takeDesc
  dsimp only
  rw [h]
  rfl

theorem State.takeDesc_of_ok (h : s.descFault (s.chan c) d = none) : s.takeDesc c d
    = if dMarker d then (s.took c d).chanDone c 0 0 false false
      else if dToHost d then s.took c d
      else (s.took c d).askRead c { addr := dHost d, len := dLen d, payload := true, ns := s.noSnoop c d } := by
  unfold State.takeDesc
  dsimp only
  rw [h]
  rfl

theorem State.took_desc (s : State) (c : Nat) (d : List Byte) : ((s.took c d).chan c).desc = some d := by rw [State.took_chan]

/-- A copy that channel `c` has asked for takes effect at `t`: a tag has come back, and nothing else of the channels has moved. -/
structure State.Arrives (s t : State) (c : Nat) : Prop where
  frame : Frame ({ chans := true, waitFetch := true, out := true } : Touch) s t
  apart : ∀ n, (t.chan n).apart = (s.chan n).apart

theorem State.readDone_arrives (s : State) (c k : Nat) : s.Arrives (s.readDone c k) c :=
  ⟨s.readDone_quiet c k, fun n => s.apart_readDone c n k⟩

section

variable (h : s.Arrives t c)
include h

theorem State.Arrives.took_apart : ((t.took c d).chan c).apart = Chan.apart
    { s.chan c with desc := some d, fetching := false, waitStale := false, stale := 0 } := by
  rw [State.took_chan]
  exact congrArg (fun x : Chan => ({ x with desc := some d, fetching := false, waitStale := false, stale := 0 } : Chan))
    (h.apart c)

theorem State.Arrives.took_atEase (he : (s.chan c).atEase) : ((t.took c d).chan c).atEase :=
  Chan.atEase.of_apart (x := { s.chan c with desc := some d, fetching := false, waitStale := false, stale := 0 }) he h.took_apart

theorem State.Arrives.took_ring : ((t.took c d).chan c).ring = (s.chan c).ring := (congrArg Chan.ring h.took_apart :)

theorem State.Arrives.took_chFn : (t.took c d).chFn c = s.chFn c := congrFun (h.frame.chFn_eq rfl) c

theorem State.Arrives.descFault : t.descFault (t.chan c) d = s.descFault (s.chan c) d :=
  h.frame.descFault_eq rfl (congrArg Chan.mode (h.apart c) :)

/-- A copy that is rejected. -/
theorem State.Arrives.rejects {st : Nat} (he : (s.chan c).atEase) (hf : s.descFault (s.chan c) d = some st)
    (hs : halting st = true) : Completed s (t.takeDesc c d) c d st 0 false false
      ∧ ((t.takeDesc c d).chan c).state = .halted ∧ ((t.takeDesc c d).chan c).haltCause = st
      ∧ (t.takeDesc c d).host.intPending c = true := by
  rw [State.takeDesc_of_fault (h.descFault.trans hf)]
  obtain ⟨hdone, hstate, hcause, hint, -⟩ := State.chanDone_halts (n := 0) (sop := false) (eop := false) (h.took_atEase (d := d) he)
    (t.took_desc c d) hs
  exact ⟨hdone.of_ring h.took_ring h.took_chFn, hstate, hcause, hint⟩

/-- A marker completes at once. -/
theorem State.Arrives.marks (he : (s.chan c).atEase) (hf : s.descFault (s.chan c) d = none) (hm : dMarker d = true) :
    Completed s (t.takeDesc c d) c d 0 0 false false ∧ WentOn s (t.takeDesc c d) c d
      ∧ (t.takeDesc c d).host.staging = s.host.staging ∧ (t.takeDesc c d).host.fifos = s.host.fifos := by
  rw [State.takeDesc_of_ok (h.descFault.trans hf), if_pos hm]
  obtain ⟨hdone, hwent, -, -, -, hframe⟩ := State.chanDone_ends (n := 0) (sop := false) (eop := false) (h.took_atEase (d := d) he)
    (t.took_desc c d) (show halting 0 = false from rfl)
  exact ⟨hdone.of_ring h.took_ring h.took_chFn, hwent.of_place (congrArg Chan.cur h.took_apart :)
    (congrArg Chan.phase h.took_apart :), (hframe.staging rfl).trans (h.frame.staging rfl),
    (hframe.fifos rfl).trans (h.frame.fifos rfl)⟩

theorem State.Arrives.begins_toHost (hr : (s.chan c).state = .running) (hf : s.descFault (s.chan c) d = none)
    (hm : dMarker d = false) (hd : dToHost d = true) : ((t.takeDesc c d).chan c).desc = some d
      ∧ ((t.takeDesc c d).chan c).fetching = false ∧ ((t.takeDesc c d).chan c).state = .running := by
  rw [State.takeDesc_of_ok (h.descFault.trans hf), if_neg (by simp [hm]), if_pos hd]
  exact ⟨(congrArg Chan.desc h.took_apart :), (congrArg Chan.fetching h.took_apart :),
    (congrArg Chan.state h.took_apart :).trans hr⟩

/-- The requests for the data of a DIR 0 descriptor (R355). -/
theorem State.Arrives.begins_fromHost (hf : s.descFault (s.chan c) d = none) (hm : dMarker d = false) (hd : dToHost d = false) :
    ((t.takeDesc c d).chan c).desc = some d ∧ ((t.takeDesc c d).chan c).fetching = false
      ∧ ∀ p ∈ splitRange (s.host.link (s.chFn c)).maxRead (dHost d / 64 * 64)
          (ceilDiv (dHost d + dLen d - dHost d / 64 * 64) 64 * 64),
        .hostFetch (s.chFn c) p.1 p.2 (s.noSnoop c d) ∈ (t.takeDesc c d).out
        ∨ ∃ x ∈ ((t.takeDesc c d).chan c).reads, x.addr = p.1 ∧ x.len = p.2 ∧ x.payload = true ∧ x.ns = s.noSnoop c d := by
  rw [State.takeDesc_of_ok (h.descFault.trans hf), if_neg (by simp [hm]), if_neg (by simp [hd])]
  have hchFn := congrFun (h.frame.chFn_eq rfl) c
  have hlink := h.frame.link_eq rfl
  have hsnoop : t.noSnoop c d = s.noSnoop c d := by
    unfold State.noSnoop
    rw [hchFn, hlink]
  have happ := (t.took c d).apart_askRead c c { addr := dHost d, len := dLen d, payload := true, ns := t.noSnoop c d }
  refine ⟨(congrArg Chan.desc (happ.trans h.took_apart) :), (congrArg Chan.fetching (happ.trans h.took_apart) :),
    fun p hp => ?_⟩
  have hlen : dLen d ≠ 0 := fun h0 => by simp [dMarker, h0] at hm
  have hasked := (t.took c d).requested_askRead c { addr := dHost d, len := dLen d, payload := true, ns := t.noSnoop c d } p (by
    show p ∈ if dLen d = 0 then _ else splitRange (t.host.link (t.chFn c)).maxRead _ _
    rw [if_neg hlen, hchFn, hlink]
    exact hp)
  rw [h.took_chFn, hsnoop] at hasked
  rw [hsnoop]
  exact hasked.imp id (fun hr => ⟨_, hr, rfl, rfl, rfl, rfl⟩)

end

/-! ### DESCRIPTOR_FETCHED and STALE_DESC_REREAD -/

theorem descriptorFetched_runs (hc : c < 128) (hd : d.length = 32) :
    exec (.descriptorFetched c d) s = .next (s.descArrives c d) := by
  show execDescriptorFetched c d s = _
  unfold execDescriptorFetched
  rw [if_neg (Nat.not_le.mpr hc), padTo_eq_self hd]

theorem State.descArrives_of_awaits (h : s.awaitsDesc c) : s.descArrives c d
    = if dPhase d = (s.chan c).phase then (s.readDone c 1).takeDesc c d
      else if 8 ≤ (s.chan c).stale then (s.readDone c 1).chanHalt c 1
      else (s.readDone c 1).updChan c (fun y => { y with fetching := false, waitStale := true }) := by
  obtain ⟨-, hr, hf, hu⟩ := h
  unfold State.descArrives
  dsimp only
  rw [if_neg (by simp [hr, hf, hu])]

theorem staleDescReread_runs (hc : c < 128) (hd : d.length = 32) :
    exec (.staleDescReread c d) s = .next (s.staleReread c d) := by
  show execStaleDescReread c d s = _
  unfold execStaleDescReread
  rw [if_neg (Nat.not_le.mpr hc), padTo_eq_self hd]

/-- The rows of R353 that reject a descriptor by its fields. -/
theorem State.descFault_fields (h : rd d 11 1 ≠ 0 ∨ 128 ≤ dFlags d ∨ dEoc d = false ∧ dLink d % 32 ≠ 0
    ∨ (s.chan c).mode = 2 ∧ dToHost d = true ∨ (s.chan c).mode = 1 ∧ dToHost d = false) :
    s.descFault (s.chan c) d = some 2 := by
  unfold State.descFault
  by_cases h1 : rd d 11 1 ≠ 0 ∨ 128 ≤ dFlags d ∨ dEoc d = false ∧ dLink d % 32 ≠ 0
  · exact if_pos h1
  · rw [if_neg h1, if_pos (by tauto)]

theorem State.descFault_range (h11 : rd d 11 1 = 0) (hfl : dFlags d < 128) (hl : dEoc d = true ∨ dLink d % 32 = 0)
    (hm : (s.chan c).mode = 0) (hmark : dMarker d = false) (hr : s.rangeOk (dToHost d) (dHandle d) (dLen d) = false) :
    s.descFault (s.chan c) d = some 3 := by
  unfold State.descFault
  have h1 : ¬ (rd d 11 1 ≠ 0 ∨ 128 ≤ dFlags d ∨ dEoc d = false ∧ dLink d % 32 ≠ 0) := by
    rcases hl with hl | hl <;> simp [h11, hfl, hl]
  rw [if_neg h1, if_neg (by simp [hm]), if_pos ⟨hm, hmark, hr⟩]

/-! ### Re-reads of a stale descriptor (R351) -/

/-- The re-read as the channel asks for it, where it can. -/
theorem State.staleReread_of_tag (hr : (s.chan c).state = .running) (hw : (s.chan c).waitStale = true) (hread : s.canRead c = true)
    (hempty : (s.chan c).reads = []) (hp : dPhase d ≠ (s.chan c).phase) : s.staleReread c d
      = if 7 ≤ (s.chan c).stale then ((s.askDesc c (s.chan c).cur.toNat).readDone c 1).chanHalt c 1
        else ((s.askDesc c (s.chan c).cur.toNat).readDone c 1).updChan c (fun y => { y with stale := y.stale + 1 }) := by
  unfold State.staleReread
  dsimp only
  rw [if_neg (by simp [hr, hw]), if_neg (by simp [hread, hempty]), if_neg hp]

theorem State.staleReread_of_full (hr : (s.chan c).state = .running) (hw : (s.chan c).waitStale = true)
    (hread : s.canRead c = false) : s.staleReread c d
      = (s.updChan c (fun y => { y with fetching := true, waitStale := false, stale := y.stale + 1 })).askDesc c
          (s.chan c).cur.toNat := by
  unfold State.staleReread
  dsimp only
  rw [if_neg (by simp [hr, hw]), if_pos (.inl hread)]

theorem splitRange_cons (m a : Nat) {n : Nat} (h : 0 < n) : ∃ k l, splitRange m a n = (a, k) :: l := by
  unfold splitRange requests
  rw [if_neg (by omega)]
  exact ⟨_, _, rfl⟩

/-- A descriptor read that finds no tag waits for one. -/
theorem State.askDesc_waits (a : Nat) (h : s.canRead c = false) :
    ∃ x ∈ ((s.askDesc c a).chan c).reads, x.addr = a / 64 * 64 ∧ x.payload = false ∧ x.ns = false := by
  have hpos : 0 < ceilDiv (a + 32 - a / 64 * 64) 64 * 64 := by
    unfold ceilDiv
    omega
  obtain ⟨k, l, hl⟩ := splitRange_cons (s.host.link (s.chFn c)).maxRead (a / 64 * 64) hpos
  have hparts : s.readParts c { addr := a, len := 32, payload := false, ns := false } = (a / 64 * 64, k) :: l := hl
  refine ⟨{ addr := a / 64 * 64, len := k, payload := false, ns := false }, ?_, rfl, rfl, rfl⟩
  unfold State.askDesc State.askRead
  rw [hparts, List.foldl_cons]
  have hwaits : ({ addr := a / 64 * 64, len := k, payload := false, ns := false } : ReadReq) ∈
      ((s.askReq c { addr := a / 64 * 64, len := k, payload := false, ns := false }).chan c).reads := by
    rw [State.chan_askReq, if_neg (by simp [h]), State.chan_updChan_same]
    exact List.mem_append_right _ (List.mem_singleton.mpr rfl)
  generalize s.askReq c { addr := a / 64 * 64, len := k, payload := false, ns := false } = u at *
  clear hparts hl
  induction l generalizing u with
  | nil => exact hwaits
  | cons p l ih => exact ih _ (State.reads_askReq u c _ hwaits)

/-! ### Transfers (R354 to R357, R377) -/

theorem dmaTransferDone_runs {err : Nat} {data : List Byte} {m : Nat} (h : s.transfers c m d) :
    exec (.dmaTransferDone c err data) s = .next (s.transferEnds c d err data) := by
  obtain ⟨hc, hrun, -, hdesc, hdue, hreads, -⟩ := h
  have hsent : (s.chan c).unsent = false := by simp [Chan.unsent, hreads]
  have hends : s.transferDone c err data = s.transferEnds c d err data := by
    unfold State.transferDone
    dsimp only
    rw [hdesc]
    dsimp only
    rw [if_neg (by simp [hrun, hdue, hsent]), hreads]
    exact if_neg (by simp [State.drainReads, hsent])
  show execDmaTransferDone c err data s = _
  unfold execDmaTransferDone
  rw [if_neg (Nat.not_le.mpr hc), hends]

theorem State.mem_out_foldl_emit {α : Type} (f : α → Output) (l : List α) : ∀ (s : State), ∀ p ∈ l,
    f p ∈ (l.foldl (fun t p => t.emit (f p)) s).out := by
  induction l with
  | nil => exact fun _ _ h => absurd h (List.not_mem_nil)
  | cons q l ih =>
    intro s p hp
    obtain rfl | hp := List.mem_cons.mp hp
    · exact State.mem_out_foldl (s := s.emit (f p)) (f := fun t q => t.emit (f q)) (fun _ _ ho => State.mem_out_emit _ ho) l
        List.mem_cons_self
    · exact ih (s.emit (f q)) p hp

theorem State.mem_out_sendData {o : Output} (a : Nat) (l : List Byte) (h : o ∈ s.out) : o ∈ (s.sendData c d a l).out :=
  State.mem_out_foldl (fun _ _ ho => State.mem_out_emit _ ho) _ h

/-- Payload put on the link has been written, as long as it stays among the outputs. -/
theorem Wrote.of_sendData (a : Nat) (l : List Byte) (h : ∀ o ∈ (s.sendData c d a l).out, o ∈ t.out) : Wrote s t c a d l :=
  fun p hp => h _ (State.mem_out_foldl_emit (fun p : Nat × Nat => Output.hostData (s.chFn c) p.1 (slice l (p.1 - a) p.2)
    ((s.chan c).ro && (s.host.link (s.chFn c)).roOk) (s.noSnoop c d)) _ s p hp)

theorem State.sendData_chan (s : State) (c : Nat) (d : List Byte) (a : Nat) (l : List Byte) : (s.sendData c d a l).chan = s.chan :=
  (State.sendData_frame (Touch.or_self _) .refl c d a l).chan_eq rfl

theorem State.sendData_chFn (s : State) (c : Nat) (d : List Byte) (a : Nat) (l : List Byte) : (s.sendData c d a l).chFn = s.chFn :=
  (State.sendData_frame (Touch.or_self _) .refl c d a l).chFn_eq rfl

theorem State.transferEnds_memory {err : Nat} {data : List Byte} (hm : (s.chan c).mode = 0) :
    s.transferEnds c d err data = s.memTransfer c d (err != 0) data := by
  unfold State.transferEnds
  rw [if_neg (by omega), if_neg (by omega)]

theorem State.memTransfer_toHost {err : Bool} {data : List Byte} (hd : dToHost d = true) : s.memTransfer c d err data
    = if err then (s.sendPoisoned c d).chanError c 5
      else (s.sendData c d (dHost d) (s.deviceBytes (dHandle d) (dLen d))).chanDone c 0 (dLen d) false false := by
  unfold State.memTransfer
  rw [if_pos hd]

theorem State.memTransfer_fromHost {err : Bool} {data : List Byte} (hd : dToHost d = false) : s.memTransfer c d err data
    = ((s.dataDone c).putStagingBytes (dHandle d - s.regionBase 4) (padTo (dLen d) data)).chanDone c 0 (dLen d) false false := by
  unfold State.memTransfer
  rw [if_neg (by simp [hd])]

/-- Poisoned data has a poisoned request among it. -/
theorem State.sendPoisoned_out (s : State) (c : Nat) (d : List Byte) :
    ∃ a n ro ns, .hostPoison (s.chFn c) a n ro ns ∈ (s.sendPoisoned c d).out := by
  unfold State.sendPoisoned
  dsimp only
  generalize hn : 1 + Config.freeValue (s.free + 1) % _ = n
  generalize ho : s.freeVal % _ = o
  obtain ⟨k, l, hl⟩ := splitRange_cons (s.host.link (s.chFn c)).maxPayload (dHost d + o) (n := n) (by omega)
  refine ⟨dHost d + o, k, _, _, State.mem_out_sendData _ _ (State.mem_out_foldl_emit (fun p : Nat × Nat =>
    Output.hostPoison (s.chFn c) p.1 p.2 ((s.chan c).ro && (s.host.link (s.chFn c)).roOk) (s.noSnoop c d)) _ _ (dHost d + o, k) ?_)⟩
  rw [hl]
  exact List.mem_cons_self

/-! ### The staging region (R354) -/

theorem State.putStaging_of_none {o : Nat} (b : Byte) (h : receiptPlace o = none) :
    (s.putStaging o b).host.staging = Tab.set 0 s.host.staging o b := by
  unfold State.putStaging
  dsimp only
  rw [h]

/-- Bytes written outside the receipts stand at their offsets, and no other byte moves. -/
theorem State.get_putStagingBytes (l : List Byte) : ∀ (s : State) (o : Nat), (∀ i, i < l.length → receiptPlace (o + i) = none) →
    ∀ a, Tab.get 0 (s.putStagingBytes o l).host.staging a
      = if o ≤ a ∧ a < o + l.length then l.getD (a - o) 0 else Tab.get 0 s.host.staging a := by
  induction l with
  | nil => exact fun s o _ a => (if_neg (by simp)).symm
  | cons b l ih =>
    intro s o h a
    have hrest : ∀ i, i < l.length → receiptPlace (o + 1 + i) = none := fun i hi => by
      rw [show o + 1 + i = o + (i + 1) by omega]
      exact h _ (by simpa using hi)
    refine (ih (s.putStaging o b) (o + 1) hrest a).trans ?_
    rw [State.putStaging_of_none b (by simpa using h 0 (by simp)), Tab.get_set, List.length_cons]
    by_cases ha : o = a
    · subst ha
      simp
    · by_cases hin : o + 1 ≤ a ∧ a < o + 1 + l.length
      · rw [if_pos hin, if_pos (by omega), show a - o = (a - (o + 1)) + 1 by omega, List.getD_cons_succ]
      · rw [if_neg hin, if_neg ha, if_neg (by omega)]

theorem getD_padTo {n i : Nat} (l : List Byte) (h : i < n) : (padTo n l).getD i 0 = l.getD i 0 := by
  unfold padTo
  rw [List.getD_eq_getElem?_getD, List.getD_eq_getElem?_getD, List.getElem?_append]
  split
  · next hi => rw [List.getElem?_take_of_lt h]
  · next hi =>
    rw [List.length_take] at hi ⊢
    rw [List.getElem?_replicate, if_pos (by omega), List.getElem?_eq_none (by omega)]
    rfl

theorem length_padTo (n : Nat) (l : List Byte) : (padTo n l).length = n := by
  unfold padTo
  rw [List.length_append, List.length_take, List.length_replicate]
  omega

/-! ### Memory mode (R353, R354, R357) -/

section

variable {data : List Byte} (h : s.transfers c 0 d) (he : (s.chan c).atEase)
include h he

theorem State.transfers.sends (hd : dToHost d = true) : Ends (.dmaTransferDone c 0 data) s (fun t =>
    Wrote s t c (dHost d) d (s.deviceBytes (dHandle d) (dLen d)) ∧ Completed s t c d 0 (dLen d) false false ∧ WentOn s t c d) := by
  refine ⟨_, dmaTransferDone_runs h, ?_⟩
  obtain ⟨-, -, hm, hdesc, -⟩ := h
  rw [State.transferEnds_memory hm, State.memTransfer_toHost hd]
  rw [if_neg (by decide)]
  have hchan := s.sendData_chan c d (dHost d) (s.deviceBytes (dHandle d) (dLen d))
  have hfn := s.sendData_chFn c d (dHost d) (s.deviceBytes (dHandle d) (dLen d))
  have hwrote (t : State) := Wrote.of_sendData (s := s) (c := c) (d := d) (t := t) (dHost d) (s.deviceBytes (dHandle d) (dLen d))
  generalize s.sendData c d (dHost d) (s.deviceBytes (dHandle d) (dLen d)) = u at *
  obtain ⟨hdone, hwent, hout, -⟩ := State.chanDone_ends (u := u) (n := dLen d) (sop := false) (eop := false) (by rw [hchan]; exact he)
    (by rw [hchan]; exact hdesc) (show halting 0 = false from rfl)
  exact ⟨hwrote _ hout, hdone.of_ring (by rw [hchan]) (congrFun hfn c), hwent.of_place (by rw [hchan]) (by rw [hchan])⟩

theorem State.transfers.poisons (hd : dToHost d = true) : Ends (.dmaTransferDone c 1 data) s (fun t =>
    (t.chan c).state = .halted ∧ (t.chan c).haltCause = 5 ∧ (t.chan c).comp = (s.chan c).comp + 1
      ∧ ∃ a n ro ns, .hostPoison (s.chFn c) a n ro ns ∈ t.out) := by
  refine ⟨_, dmaTransferDone_runs h, ?_⟩
  obtain ⟨-, -, hm, hdesc, -⟩ := h
  rw [State.transferEnds_memory hm, State.memTransfer_toHost hd]
  rw [if_pos (by decide)]
  unfold State.chanError
  have hchan : ((s.sendPoisoned c d).drawn 1).chan = s.chan :=
    (State.drawn_frame (wt := { out := true, free := true }) rfl (State.sendPoisoned_frame rfl .refl c d) 1).chan_eq rfl
  obtain ⟨a, n, ro, ns, hpoison⟩ := s.sendPoisoned_out c d
  replace hpoison : .hostPoison (s.chFn c) a n ro ns ∈ ((s.sendPoisoned c d).drawn 1).out := hpoison
  generalize (s.sendPoisoned c d).freeVal % _ = k
  generalize (s.sendPoisoned c d).drawn 1 = u at *
  obtain ⟨⟨-, -, hcomp, -⟩, hstate, hcause, -, hout⟩ := State.chanDone_halts (u := u) (n := k) (sop := false) (eop := false)
    (by rw [hchan]; exact he) (by rw [hchan]; exact hdesc) (show halting 5 = true from rfl)
  rw [hchan] at hcomp
  exact ⟨hstate, hcause, hcomp, a, n, ro, ns, hout _ hpoison⟩

theorem State.transfers.stages (hd : dToHost d = false)
    (hfree : ∀ i, i < dLen d → receiptPlace (dHandle d - s.regionBase 4 + i) = none) :
    Ends (.dmaTransferDone c 0 data) s (fun t =>
      (∀ i, i < dLen d → Tab.get 0 t.host.staging (dHandle d - s.regionBase 4 + i) = data.getD i 0)
      ∧ (∀ a, a < dHandle d - s.regionBase 4 ∨ dHandle d - s.regionBase 4 + dLen d ≤ a →
        Tab.get 0 t.host.staging a = Tab.get 0 s.host.staging a)
      ∧ Completed s t c d 0 (dLen d) false false ∧ WentOn s t c d) := by
  refine ⟨_, dmaTransferDone_runs h, ?_⟩
  obtain ⟨-, -, hm, hdesc, -⟩ := h
  rw [State.transferEnds_memory hm, State.memTransfer_fromHost hd]
  generalize dHandle d - s.regionBase 4 = o at *
  have hbytes := State.get_putStagingBytes (padTo (dLen d) data) (s.dataDone c) o (by rwa [length_padTo])
  rw [(State.dataDone_frame (Touch.or_self _) .refl c).staging rfl, length_padTo] at hbytes
  have hframe : Frame ({ chans := true, waitFetch := true, out := true, fix := true, staging := true } : Touch) s
      ((s.dataDone c).putStagingBytes o (padTo (dLen d) data)) :=
    State.putStagingBytes_frame rfl (State.dataDone_frame rfl .refl c) _ _
  have happ : (((s.dataDone c).putStagingBytes o (padTo (dLen d) data)).chan c).apart = (s.chan c).apart := by
    rw [(State.putStagingBytes_frame (Touch.or_self _) .refl _ _).chan_eq rfl]
    exact s.apart_dataDone c c
  generalize (s.dataDone c).putStagingBytes o (padTo (dLen d) data) = u at *
  obtain ⟨hdone, hwent, -, -, -, hkept⟩ := State.chanDone_ends (u := u) (n := dLen d) (sop := false) (eop := false)
    (he.of_apart happ) ((congrArg Chan.desc happ :).trans hdesc) (show halting 0 = false from rfl)
  rw [hkept.staging rfl]
  refine ⟨fun i hi => ?_, fun a ha => ?_, hdone.of_ring (congrArg Chan.ring happ :) (congrFun (hframe.chFn_eq rfl) c),
    hwent.of_place (congrArg Chan.cur happ :) (congrArg Chan.phase happ :)⟩
  · rw [hbytes, if_pos (by omega), Nat.add_sub_cancel_left, getD_padTo data hi]
  · rw [hbytes, if_neg (by omega)]

end

/-! ### To-host packet mode (R377) -/

section

variable {data b : List Byte} (h : s.transfers c 1 d) (hin : (s.chan c).inPkt = false)
include h

theorem State.transfers.toHostTransfer_eq : s.transferEnds c d 0 data = s.toHostTransfer c d := by
  obtain ⟨-, -, hm, -⟩ := h
  exact if_pos hm

include hin

theorem State.transfers.waits (hf : (s.fifo (2 * (s.chan c).hostPort)).head? = none) : Idles (.dmaTransferDone c 0 data) s := by
  refine (dmaTransferDone_runs h).trans ?_
  rw [h.toHostTransfer_eq]
  obtain ⟨-, -, -, -, -, -, hbad⟩ := h
  have hnext : s.toHostNext (s.chan c) = none := by
    unfold State.toHostNext
    rw [hin, hf]
    rfl
  unfold State.toHostTransfer
  dsimp only
  rw [if_neg (by simp [hbad]), hnext]

/-- The channel after a part of a packet has gone to the host. -/
def State.partSent (s : State) (c : Nat) (d b : List Byte) : State :=
  let t := (s.sendData c d (dHost d) (b.take (dLen d))).updChan c (fun y =>
    { y with inPkt := !(b.drop (dLen d)).isEmpty, pktLeft := b.drop (dLen d) })
  if (b.drop (dLen d)).isEmpty then t.updFifo (2 * (s.chan c).hostPort) HFifo.take else t

theorem State.transfers.delivers_eq
    (hb : (s.fifo (2 * (s.chan c).hostPort)).head?.map (fun w => w.take (32 + rd w 0 2)) = some b) :
    s.transferEnds c d 0 data = (s.partSent c d b).chanDone c 0 (min (dLen d) b.length) true (decide (b.length ≤ dLen d)) := by
  rw [h.toHostTransfer_eq]
  obtain ⟨-, -, -, -, -, -, hbad⟩ := h
  have hnext : s.toHostNext (s.chan c) = some b := by
    unfold State.toHostNext
    rw [hin]
    exact hb
  have hlast : (b.drop (dLen d)).isEmpty = decide (b.length ≤ dLen d) := by
    rw [Bool.eq_iff_iff]
    simp [List.isEmpty_iff]
  unfold State.toHostTransfer
  dsimp only
  rw [if_neg (by simp [hbad]), hnext, hin]
  dsimp only
  rw [List.length_take, hlast]
  unfold State.partSent
  dsimp only
  rw [hlast]
  rfl

end

theorem State.partSent_chan (s : State) (c : Nat) (d b : List Byte) : (s.partSent c d b).chan c
    = { s.chan c with inPkt := !(b.drop (dLen d)).isEmpty, pktLeft := b.drop (dLen d) } := by
  have hchan : ((s.sendData c d (dHost d) (b.take (dLen d))).updChan c (fun y =>
      { y with inPkt := !(b.drop (dLen d)).isEmpty, pktLeft := b.drop (dLen d) })).chan c
      = { s.chan c with inPkt := !(b.drop (dLen d)).isEmpty, pktLeft := b.drop (dLen d) } := by
    rw [State.chan_updChan_same, State.sendData_chan]
  unfold State.partSent
  dsimp only
  split <;> exact hchan

theorem State.partSent_frame (s : State) (c : Nat) (d b : List Byte) :
    Frame ({ chans := true, out := true, fifos := true } : Touch) s (s.partSent c d b) := by
  have hsent : Frame ({ chans := true, out := true, fifos := true } : Touch) s
      ((s.sendData c d (dHost d) (b.take (dLen d))).updChan c (fun y =>
        { y with inPkt := !(b.drop (dLen d)).isEmpty, pktLeft := b.drop (dLen d) })) :=
    State.updChan_frame rfl (State.sendData_frame rfl .refl _ _ _ _) _ _
  unfold State.partSent
  dsimp only
  split
  · exact State.updFifo_frame rfl hsent _ _
  · exact hsent

theorem State.partSent_out (s : State) (c : Nat) (d b : List Byte) :
    (s.partSent c d b).out = (s.sendData c d (dHost d) (b.take (dLen d))).out := by
  unfold State.partSent
  generalize s.sendData c d (dHost d) (b.take (dLen d)) = v
  dsimp only
  split <;> rfl

theorem State.partSent_fifos (s : State) (c : Nat) (d b : List Byte) :
    (b.length ≤ dLen d → (s.partSent c d b).fifo (2 * (s.chan c).hostPort) = (s.fifo (2 * (s.chan c).hostPort)).take.synced)
    ∧ (dLen d < b.length → (s.partSent c d b).host.fifos = s.host.fifos) := by
  have hfifos := (State.sendData_frame (Touch.or_self _) (.refl (s := s)) c d (dHost d) (b.take (dLen d))).fifos rfl
  have hfifo := (State.sendData_frame (Touch.or_self _) (.refl (s := s)) c d (dHost d) (b.take (dLen d))).fifo_eq rfl
  unfold State.partSent
  dsimp only
  refine ⟨fun hle => ?_, fun hlt => ?_⟩
  · rw [if_pos (by simpa [List.isEmpty_iff] using hle), State.fifo_updFifo_same]
    exact congrArg (fun x : HFifo => x.take.synced) (congrFun hfifo _)
  · rw [if_neg (by simpa [List.isEmpty_iff] using hlt)]
    exact hfifos

theorem State.transfers.delivers {data b : List Byte} (h : s.transfers c 1 d) (he : (s.chan c).atEase)
    (hin : (s.chan c).inPkt = false)
    (hb : (s.fifo (2 * (s.chan c).hostPort)).head?.map (fun w => w.take (32 + rd w 0 2)) = some b) :
    Ends (.dmaTransferDone c 0 data) s (fun t => Wrote s t c (dHost d) d (b.take (dLen d))
        ∧ Completed s t c d 0 (min (dLen d) b.length) true (decide (b.length ≤ dLen d)) ∧ WentOn s t c d
        ∧ (b.length ≤ dLen d → (t.chan c).inPkt = false
          ∧ t.fifo (2 * (s.chan c).hostPort) = (s.fifo (2 * (s.chan c).hostPort)).take.synced)
        ∧ (dLen d < b.length → (t.chan c).inPkt = true ∧ (t.chan c).pktLeft = b.drop (dLen d)
          ∧ t.host.fifos = s.host.fifos)) := by
  refine ⟨_, dmaTransferDone_runs h, ?_⟩
  rw [h.delivers_eq hin hb]
  obtain ⟨-, -, -, hdesc, -⟩ := h
  have hchan := s.partSent_chan c d b
  have hfn := (s.partSent_frame c d b).chFn_eq rfl
  have hwrote (t : State) := Wrote.of_sendData (s := s) (c := c) (d := d) (t := t) (dHost d) (b.take (dLen d))
  rw [← State.partSent_out] at hwrote
  obtain ⟨htaken, hstays⟩ := s.partSent_fifos c d b
  generalize s.partSent c d b = u at *
  have hease : (u.chan c).atEase := by rw [hchan]; exact he
  have hprog : (u.chan c).desc = some d := by rw [hchan]; exact hdesc
  obtain ⟨hdone, hwent, hout, hpkt, hleft, hkept⟩ := State.chanDone_ends (u := u) (n := min (dLen d) b.length) (sop := true)
    (eop := decide (b.length ≤ dLen d)) hease hprog (show halting 0 = false from rfl)
  rw [hchan] at hpkt hleft
  refine ⟨hwrote _ hout, hdone.of_ring (by rw [hchan]; rfl) (congrFun hfn c), hwent.of_place (by rw [hchan]) (by rw [hchan]),
    fun hle => ⟨hpkt.trans (by simpa [List.isEmpty_iff] using hle), (congrFun (hkept.fifo_eq rfl) _).trans (htaken hle)⟩,
    fun hlt => ⟨hpkt.trans (by simpa [← Bool.not_eq_true, List.isEmpty_iff] using hlt), hleft, (hkept.fifos rfl).trans (hstays hlt)⟩⟩

/-! ### From-host packet mode (R376, R377) -/

/-- The channel after a part of a packet that it gathers has come. -/
def State.partGathered (s : State) (c : Nat) (all : List Byte) : State :=
  (s.dataDone c).updChan c (fun y => { y with pktLeft := all, inPkt := true })

/-- The channel after the last part of a packet has come: the packet is at the writer of its FIFO. -/
def State.packetGathered (s : State) (c : Nat) (all : List Byte) : State :=
  ((s.dataDone c).updFifo (2 * (s.chan c).hostPort + 1) (fun f =>
    { f with writing := all.take (32 + hostLen all), waiting := false })).updChan c
      (fun y => { y with pktLeft := [], inPkt := false, badPkt := false })

section

variable {data all : List Byte} (h : s.transfers c 2 d) (hall : all = (s.chan c).pktLeft ++ padTo (dLen d) data)
  (hok : hostPacketOk all = true)
include h hall hok

theorem State.transfers.gathers_eq (hpart : all.length < 32 + hostLen all)
    (htakes : (s.fifo (2 * (s.chan c).hostPort + 1)).takesPart all false = true) :
    s.transferEnds c d 0 data = (s.partGathered c all).chanDone c 0 (dLen d) (!(s.chan c).inPkt) false := by
  obtain ⟨-, -, hm, -, -, -, hbad⟩ := h
  have hlast : (decide (32 ≤ all.length) && decide (32 + hostLen all ≤ all.length)) = false := by
    simp [Nat.not_le.mpr hpart]
  unfold State.transferEnds
  rw [if_neg (by omega), if_pos hm]
  unfold State.fromHostTransfer
  dsimp only
  rw [← hall, hlast, if_neg (by simp [hbad]), if_neg (by simp [hok]), if_neg (by simp [htakes]),
    if_neg Bool.false_ne_true, if_neg Bool.false_ne_true]
  rfl

theorem State.transfers.gathersLast_eq (hlong : 32 ≤ all.length) (hwhole : all.length = 32 + hostLen all)
    (htakes : (s.fifo (2 * (s.chan c).hostPort + 1)).takesPart all true = true) :
    s.transferEnds c d 0 data = (s.packetGathered c all).chanDone c 0 (dLen d) (!(s.chan c).inPkt) true := by
  obtain ⟨-, -, hm, -, -, -, hbad⟩ := h
  have hlast : (decide (32 ≤ all.length) && decide (32 + hostLen all ≤ all.length)) = true := by
    simp [hlong, hwhole.symm.le]
  unfold State.transferEnds
  rw [if_neg (by omega), if_pos hm]
  unfold State.fromHostTransfer
  dsimp only
  rw [← hall, hlast, if_neg (by simp [hbad]), if_neg (by simp [hok]), if_neg (by simp [htakes]), if_pos rfl, if_pos rfl,
    hwhole, Nat.sub_self, Nat.sub_zero]
  rfl

end

section

variable {data all : List Byte} (h : s.transfers c 2 d) (he : (s.chan c).atEase)
  (hall : all = (s.chan c).pktLeft ++ padTo (dLen d) data) (hok : hostPacketOk all = true)
include h he hall hok

theorem State.transfers.gathers (hpart : all.length < 32 + hostLen all)
    (htakes : (s.fifo (2 * (s.chan c).hostPort + 1)).takesPart all false = true) :
    Ends (.dmaTransferDone c 0 data) s (fun t => (t.chan c).pktLeft = all ∧ (t.chan c).inPkt = true ∧ t.host.fifos = s.host.fifos
        ∧ Completed s t c d 0 (dLen d) (!(s.chan c).inPkt) false ∧ WentOn s t c d) := by
  refine ⟨_, dmaTransferDone_runs h, ?_⟩
  rw [h.gathers_eq hall hok hpart htakes]
  obtain ⟨-, -, -, hdesc, -⟩ := h
  have hchan : ((s.partGathered c all).chan c).apart = Chan.apart { s.chan c with pktLeft := all, inPkt := true } := by
    unfold State.partGathered
    rw [State.chan_updChan_same]
    exact congrArg (fun x : Chan => ({ x with pktLeft := all, inPkt := true } : Chan)) (s.apart_dataDone c c)
  have hframe : Frame ({ chans := true, waitFetch := true, out := true } : Touch) s (s.partGathered c all) :=
    State.updChan_frame rfl (State.dataDone_frame rfl .refl c) _ _
  generalize s.partGathered c all = u at *
  have hease : (u.chan c).atEase := Chan.atEase.of_apart (x := { s.chan c with pktLeft := all, inPkt := true }) he hchan
  obtain ⟨hdone, hwent, -, hpkt, hleft, hkept⟩ := State.chanDone_ends (u := u) (n := dLen d) (sop := !(s.chan c).inPkt)
    (eop := false) hease ((congrArg Chan.desc hchan :).trans hdesc) (show halting 0 = false from rfl)
  exact ⟨hleft.trans (congrArg Chan.pktLeft hchan :), hpkt.trans (congrArg Chan.inPkt hchan :),
    (hkept.fifos rfl).trans (hframe.fifos rfl), hdone.of_ring (congrArg Chan.ring hchan :) (congrFun (hframe.chFn_eq rfl) c),
    hwent.of_place (congrArg Chan.cur hchan :) (congrArg Chan.phase hchan :)⟩

theorem State.transfers.gathersLast (hlong : 32 ≤ all.length) (hwhole : all.length = 32 + hostLen all)
    (htakes : (s.fifo (2 * (s.chan c).hostPort + 1)).takesPart all true = true) :
    Ends (.dmaTransferDone c 0 data) s (fun t => (t.fifo (2 * (s.chan c).hostPort + 1)).writing = all
        ∧ Completed s t c d 0 (dLen d) (!(s.chan c).inPkt) true ∧ WentOn s t c d ∧ (t.chan c).inPkt = false) := by
  refine ⟨_, dmaTransferDone_runs h, ?_⟩
  rw [h.gathersLast_eq hall hok hlong hwhole htakes]
  obtain ⟨-, -, -, hdesc, -⟩ := h
  have hchan : ((s.packetGathered c all).chan c).apart
      = Chan.apart { s.chan c with pktLeft := [], inPkt := false, badPkt := false } := by
    unfold State.packetGathered
    rw [State.chan_updChan_same]
    exact congrArg (fun x : Chan => ({ x with pktLeft := [], inPkt := false, badPkt := false } : Chan)) (s.apart_dataDone c c)
  have hwriting : ((s.packetGathered c all).fifo (2 * (s.chan c).hostPort + 1)).writing = all := by
    unfold State.packetGathered
    rw [(State.updChan_frame (Touch.or_self _) .refl _ _).fifo_eq rfl, State.fifo_updFifo_same]
    exact List.take_of_length_le hwhole.le
  have hframe : Frame ({ chans := true, waitFetch := true, out := true, fifos := true } : Touch) s (s.packetGathered c all) :=
    State.updChan_frame rfl (State.updFifo_frame rfl (State.dataDone_frame rfl .refl c) _ _) _ _
  generalize s.packetGathered c all = u at *
  have hease : (u.chan c).atEase :=
    Chan.atEase.of_apart (x := { s.chan c with pktLeft := [], inPkt := false, badPkt := false }) he hchan
  obtain ⟨hdone, hwent, -, hpkt, -, hkept⟩ := State.chanDone_ends (u := u) (n := dLen d) (sop := !(s.chan c).inPkt)
    (eop := true) hease ((congrArg Chan.desc hchan :).trans hdesc) (show halting 0 = false from rfl)
  rw [hkept.fifo_eq rfl]
  exact ⟨hwriting, hdone.of_ring (congrArg Chan.ring hchan :) (congrFun (hframe.chFn_eq rfl) c),
    hwent.of_place (congrArg Chan.cur hchan :) (congrArg Chan.phase hchan :), hpkt.trans (congrArg Chan.inPkt hchan :)⟩

end

/-! ### Flushes, tails and errors (R353, R358, R363, R364) -/

theorem strictFlushDone_ends {i : Bool} (hc : c < 128) (hf : (s.chan c).flush = some i) (hq : (s.chan c).cq = [])
    (hdue : (s.chan c).due = false) : Ends (.strictFlushDone c) s (fun t => (t.chan c).flush = none
      ∧ (t.chan c).state = (s.chan c).state ∧ (i = true → t.host.intPending c = true)) := by
  have hrun : exec (.strictFlushDone c) s = .next (s.chanFlushed c) := if_neg (Nat.not_le.mpr hc)
  refine ⟨_, hrun, ?_⟩
  unfold State.chanFlushed
  rw [hf]
  dsimp only
  generalize hu : (s.readDone c 1).updChan c (fun x => { x with flush := none }) = u
  have hchan : (u.chan c).apart = Chan.apart { s.chan c with flush := none } := by
    rw [← hu, State.chan_updChan_same]
    exact congrArg (fun x : Chan => ({ x with flush := none } : Chan)) (s.apart_readDone c c 1)
  generalize hv : (if i then u.interrupt c else u) = v
  have hvchan : v.chan c = u.chan c := by
    rw [← hv]
    split
    · rw [(State.interrupt_frame (Touch.or_self _) .refl c).chan_eq rfl]
    · rfl
  have hvint : i = true → v.host.intPending c = true := fun hi => by
    rw [← hv, if_pos hi, State.intPending_interrupt]
    simp
  have hpump : v.cqPump c = v := by
    unfold State.cqPump
    rw [hvchan, show (u.chan c).cq = [] from (congrArg Chan.cq hchan :).trans hq]
    rfl
  have hresume : v.cqResume c = v := by
    unfold State.cqResume
    dsimp only
    rw [hpump, hvchan, show (u.chan c).due = false from (congrArg Chan.due hchan :).trans hdue]
    rfl
  rw [hresume, hvchan]
  exact ⟨(congrArg Chan.flush hchan :), (congrArg Chan.state hchan :), hvint⟩

theorem tailRefetched_ends (hc : c < 128) (hl : d.length = 32) (hidle : (s.chan c).state = .idle)
    (htail : (s.chan c).tailRefetch = true) (hsent : (s.chan c).unsent = false) (heoc : dEoc d = false) (hlink : dLink d % 32 = 0) :
    Ends (.tailRefetched c d) s (fun t => (t.chan c).state = .running ∧ (t.chan c).cur = BitVec.ofNat 64 (dLink d)
      ∧ (t.chan c).fetching = true
      ∧ (t.chan c).phase = if (BitVec.ofNat 64 (dLink d)).toNat ≤ (s.chan c).cur.toNat then !(s.chan c).phase
        else (s.chan c).phase) := by
  have hrun : exec (.tailRefetched c d) s = .next (s.tailArrives c d) := by
    show execTailRefetched c d s = _
    unfold execTailRefetched
    rw [if_neg (Nat.not_le.mpr hc), padTo_eq_self hl]
  have hfollow : s.tailArrives c d = ((s.readDone c 1).updChan c (fun y => { y with tailRefetch := false })).chanFollow c
      (BitVec.ofNat 64 (dLink d)) := by
    unfold State.tailArrives
    dsimp only
    rw [if_neg (by simp [hidle, htail, hsent]), if_neg (by simp [heoc]), if_neg (by simp [hlink])]
  have hchan : (((s.readDone c 1).updChan c (fun y => { y with tailRefetch := false })).chan c).apart
      = Chan.apart { s.chan c with tailRefetch := false } := by
    rw [State.chan_updChan_same]
    exact congrArg (fun x : Chan => ({ x with tailRefetch := false } : Chan)) (s.apart_readDone c c 1)
  refine ⟨_, hrun, ?_⟩
  rw [hfollow]
  generalize (s.readDone c 1).updChan c (fun y => { y with tailRefetch := false }) = u at *
  have happ := u.apart_chanFollow c (BitVec.ofNat 64 (dLink d))
  have hcur : (u.chan c).cur = (s.chan c).cur := (congrArg Chan.cur hchan :)
  have hphase : (u.chan c).phase = (s.chan c).phase := (congrArg Chan.phase hchan :)
  refine ⟨(congrArg Chan.state happ :), (congrArg Chan.cur happ :), (congrArg Chan.fetching happ :),
    (congrArg Chan.phase happ :).trans ?_⟩
  show (if _ ≤ (u.chan c).cur.toNat then !(u.chan c).phase else (u.chan c).phase) = _
  rw [hcur, hphase]

theorem dmaReadError_ends (h : s.awaitsDesc c) :
    Ends (.dmaReadError c) s (fun t => (t.chan c).state = .halted ∧ (t.chan c).haltCause = 4) := by
  obtain ⟨hc, -, hf, hu⟩ := h
  have hrun : exec (.dmaReadError c) s = .next ((s.logAer (s.chFn c)).readError c) := if_neg (Nat.not_le.mpr hc)
  refine ⟨_, hrun, ?_⟩
  have hchan : (s.logAer (s.chFn c)).chan = s.chan := (State.logAer_frame (Touch.or_self _) .refl _).chan_eq rfl
  generalize s.logAer (s.chFn c) = u at *
  have hawaits : (u.chan c).awaits = true := by
    rw [hchan]
    simp [Chan.awaits, hf, hu]
  unfold State.readError
  dsimp only
  rw [if_pos hawaits]
  exact State.chan_chanDone_of_halting _ c 0 false false rfl

end

/-- Settles O36: the rows by what arrives, each through the entry that is written and the descriptor that follows. -/
theorem dmaProgress : Obligations.DmaProgress := by
  unfold Obligations.DmaProgress
  refine ⟨fun s c d ha hd => ?fetched, fun s c d hc hd hr hw => ?reread, fun s c d data h he hto => h.sends he hto,
    fun s c d data h he hto _ => h.poisons he hto, fun s c d data h he hfrom hfree => h.stages he hfrom hfree,
    fun s c d data b h he hin => ⟨h.waits hin, h.delivers he hin⟩,
    fun s c d data all h he hall hlong => ⟨fun hok hwhole => h.gathersLast he hall hok hlong hwhole, h.gathers he hall⟩,
    fun s c i hc hf hq hdue => strictFlushDone_ends hc hf hq hdue,
    fun s c d hc hl hidle htail hsent heoc hlink => tailRefetched_ends hc hl hidle htail hsent heoc hlink,
    fun s c h => dmaReadError_ends h⟩
  case fetched =>
    have hc : c < 128 := ha.1
    have hrun : (s.chan c).state = .running := ha.2.1
    have harr := s.readDone_arrives c 1
    have hvalid (hp : dPhase d = (s.chan c).phase) :
        exec (.descriptorFetched c d) s = .next ((s.readDone c 1).takeDesc c d) := by
      rw [descriptorFetched_runs hc hd, State.descArrives_of_awaits ha, if_pos hp]
    have hstale (hp : dPhase d ≠ (s.chan c).phase) : exec (.descriptorFetched c d) s
        = .next (if 8 ≤ (s.chan c).stale then (s.readDone c 1).chanHalt c 1
          else (s.readDone c 1).updChan c (fun y => { y with fetching := false, waitStale := true })) := by
      rw [descriptorFetched_runs hc hd, State.descArrives_of_awaits ha, if_neg hp]
    refine ⟨fun hp hok hmark => ⟨fun hto => ⟨_, hvalid hp, harr.begins_toHost hrun hok hmark hto⟩,
        fun hfrom => ⟨_, hvalid hp, harr.begins_fromHost hok hmark hfrom⟩⟩,
      fun hp hok hmark he => ⟨_, hvalid hp, harr.marks he hok hmark⟩,
      fun hp he hbad => ⟨_, hvalid hp, harr.rejects he (State.descFault_fields hbad) rfl⟩,
      fun hp he h11 hfl hl hm hmark hrange => ?_,
      fun hp hst => ends_of_exec ((hstale hp).trans (by rw [if_neg (by omega)])) ?_,
      fun hp hst => ends_of_exec ((hstale hp).trans (by rw [if_pos hst])) (State.chan_chanHalt _ c 1)⟩
    · obtain ⟨hdone, hstate, hcause, -⟩ := harr.rejects he (State.descFault_range h11 hfl hl hm hmark hrange) rfl
      exact ⟨_, hvalid hp, hdone, hstate, hcause⟩
    · rw [State.chan_updChan_same]
      exact ⟨rfl, rfl, (congrArg Chan.desc (harr.apart c) :)⟩
  case reread =>
    have hruns := staleDescReread_runs (s := s) (d := d) hc hd
    refine ⟨fun hread hempty hp => ⟨fun hst => ?_, fun hst => ?_⟩, fun hread =>
      ends_of_exec (hruns.trans (by rw [State.staleReread_of_full hr hw hread])) ?_⟩
    · refine ends_of_exec (hruns.trans (by rw [State.staleReread_of_tag hr hw hread hempty hp, if_neg (by omega)])) ?_
      rw [State.chan_updChan_same]
      have happ := (State.apart_readDone (s.askDesc c (s.chan c).cur.toNat) c c 1).trans (s.apart_askRead c c _)
      exact ⟨congrArg (· + 1) (congrArg Chan.stale happ :), (congrArg Chan.state happ :).trans hr⟩
    · exact ends_of_exec (hruns.trans (by rw [State.staleReread_of_tag hr hw hread hempty hp, if_pos hst]))
        (State.chan_chanHalt _ c 1)
    · have hfull : (s.updChan c (fun y => { y with fetching := true, waitStale := false, stale := y.stale + 1 })).canRead c = false :=
        State.canRead_updChan_false (fun _ => rfl) (fun _ => rfl)
          (fun h => Bool.noConfusion (congrArg Chan.fetching h : true = false)) hread
      have happ := State.apart_askRead (s.updChan c (fun y =>
        { y with fetching := true, waitStale := false, stale := y.stale + 1 })) c c
        { addr := (s.chan c).cur.toNat, len := 32, payload := false, ns := false }
      rw [State.chan_updChan_same] at happ
      exact ⟨(congrArg Chan.stale happ :), (congrArg Chan.fetching happ :), (congrArg Chan.waitStale happ :),
        State.askDesc_waits _ hfull⟩

end Sys2Proof.Machine

end


section
/-! PROOF. Timers and releases of a target, poll cycles of a Shelf Link bus and the exchanges of its drops (R313 to R337). -/

namespace Sys2Proof.Machine

section

variable {w : Touch} {s t : State}

theorem Frame.drop_eq (h : Frame w s t) (hw : w.drops = false) : t.drop = s.drop := by
  unfold State.drop; rw [h.drops hw]

theorem Frame.bus_eq (h : Frame w s t) (hw : w.buses = false) : t.bus = s.bus := by
  unfold State.bus; rw [h.buses hw]

theorem Frame.pkt_eq (h : Frame w s t) (hw : w.pkts = false) : t.pkt = s.pkt := by
  unfold State.pkt; rw [h.pkts hw]

end

section

variable (s : State) (i n k : Nat)

/-! ### Counters of Proofing (R339) -/

theorem State.get_bumpProof : Tab.get 0 (s.bumpProof i n).proof.ctr k
    = if i = k then Tab.get 0 s.proof.ctr k + BitVec.ofNat 64 n else Tab.get 0 s.proof.ctr k := Tab.get_bump _ _ _ _

theorem State.get_bumpProof_same : Tab.get 0 (s.bumpProof i 1).proof.ctr i = Tab.get 0 s.proof.ctr i + 1 :=
  (s.get_bumpProof i 1 i).trans (if_pos rfl)

theorem State.get_bumpProof_other {i k : Nat} (h : i ≠ k) :
    Tab.get 0 (s.bumpProof i n).proof.ctr k = Tab.get 0 s.proof.ctr k := (s.get_bumpProof i n k).trans (if_neg h)

/-- Notices are counted by their own two counters. -/
theorem State.get_sendNotice (type : Nat) (m : Notice) (h15 : 15 ≠ k) (h16 : 16 ≠ k) :
    Tab.get 0 (s.sendNotice type i m).proof.ctr k = Tab.get 0 s.proof.ctr k := by
  unfold State.sendNotice
  split
  · exact s.get_bumpProof_other 1 h16
  · dsimp only
    split
    · rw [State.get_bumpProof_other _ 1 h15, (State.sendCtl_frame (Touch.or_self _) .refl _ _).proofCtr rfl]
      rfl
    · rfl

theorem State.get_noticeAll (type : Nat) (h15 : 15 ≠ k) (h16 : 16 ≠ k) :
    Tab.get 0 (s.noticeAll type i).proof.ctr k = Tab.get 0 s.proof.ctr k :=
  foldl_read (fun t => Tab.get 0 t.proof.ctr k) (fun t m _ => t.get_sendNotice i k type m h15 h16) s

/-! ### A target that fails (R316) -/

theorem State.noticeAll_target (type : Nat) : (s.noticeAll type i).target i = { s.target i with memory := [] } := by
  unfold State.noticeAll
  rw [State.target_updTarget_same, foldl_read State.target (f := fun t m => State.sendNotice t type i m)
    (fun t m _ => (State.sendNotice_frame (Touch.or_self _) .refl _ _ _).target_eq rfl)]

theorem State.dropWake_target : (s.dropWake i).target i = { s.target i with wakeQ := false } := by
  unfold State.dropWake
  dsimp only
  rw [(State.updDrop_frame (Touch.or_self _) .refl _ _ _).target_eq rfl, State.target_updTarget_same]

/-- One parked frame is dropped. -/
def State.dropOneParked (s : State) (idx reason ctr id : Nat) : State :=
  (((s.unpark idx (s.pkt id)).bumpProof ctr 1).countQuiet (s.pkt id) reason ((s.pkt id).dests.headD 0xFFFF)).forget (s.pkt id)

theorem State.dropParked_eq (reason ctr : Nat) : s.dropParked i reason ctr
    = ((s.target i).parkQ.foldl (fun t id => t.dropOneParked i reason ctr id) s).updTarget i (fun x =>
        { x with holdOn := false, episode := false }) := rfl

/-- What dropping a parked frame leaves of the targets and the counters of Proofing. -/
theorem State.dropOneParked_spec (reason ctr id : Nat) :
    (s.dropOneParked i reason ctr id).target = ((s.unpark i (s.pkt id)).target)
      ∧ (s.dropOneParked i reason ctr id).proof.ctr = (s.bumpProof ctr 1).proof.ctr := by
  unfold State.dropOneParked
  have hcount := State.countQuiet_frame (Touch.or_self _) (.refl (s := (s.unpark i (s.pkt id)).bumpProof ctr 1)) (s.pkt id) reason
    ((s.pkt id).dests.headD 0xFFFF)
  have hforget := State.forget_frame (Touch.or_self _) (.refl (s := ((s.unpark i (s.pkt id)).bumpProof ctr 1).countQuiet (s.pkt id)
    reason ((s.pkt id).dests.headD 0xFFFF))) (s.pkt id)
  exact ⟨(hforget.target_eq rfl).trans (hcount.target_eq rfl), (hforget.proofCtr rfl).trans (hcount.proofCtr rfl)⟩

theorem State.unpark_target (pk : Pkt) : (s.unpark i pk).target i
    = { s.target i with parkQ := without (s.target i).parkQ pk.id, parkUnits := (s.target i).parkUnits - parkUnitsOf pk } :=
  s.target_updTarget_same i (fun x => { x with parkQ := without x.parkQ pk.id, parkUnits := x.parkUnits - parkUnitsOf pk })

/-- What a target keeps when its parked frames are dropped. -/
def Target.fate (x : Target) : TgtState × Bool × List Notice := (x.state, x.wakeQ, x.memory)

theorem State.dropParked_target (reason ctr : Nat) : ((s.dropParked i reason ctr).target i).fate = (s.target i).fate
    ∧ ((s.dropParked i reason ctr).target i).holdOn = false := by
  rw [State.dropParked_eq, State.target_updTarget_same]
  refine ⟨?_, rfl⟩
  refine foldl_read (fun t => (t.target i).fate) (fun t id _ => ?_) s
  show ((t.dropOneParked i reason ctr id).target i).fate = _
  rw [(t.dropOneParked_spec i reason ctr id).1, State.unpark_target]
  rfl

theorem State.get_dropParked (reason ctr : Nat) (h : ctr ≠ k) :
    Tab.get 0 (s.dropParked i reason ctr).proof.ctr k = Tab.get 0 s.proof.ctr k := by
  rw [State.dropParked_eq]
  refine foldl_read (fun t => Tab.get 0 t.proof.ctr k) (fun t id _ => ?_) s
  show Tab.get 0 (t.dropOneParked i reason ctr id).proof.ctr k = _
  rw [(t.dropOneParked_spec i reason ctr id).2, State.get_bumpProof_other t 1 h]

theorem State.dropParked_of_one {id : Nat} (reason ctr : Nat) (h : (s.target i).parkQ = [id]) (hid : (s.pkt id).id = id) :
    ((s.dropParked i reason ctr).target i).parkQ = []
      ∧ Tab.get 0 (s.dropParked i reason ctr).proof.ctr ctr = Tab.get 0 s.proof.ctr ctr + 1 := by
  rw [State.dropParked_eq, h, State.target_updTarget_same]
  obtain ⟨htarget, hctr⟩ := s.dropOneParked_spec i reason ctr id
  refine ⟨?_, (congrArg (Tab.get 0 · ctr) hctr).trans (s.get_bumpProof_same ctr)⟩
  show ((s.dropOneParked i reason ctr id).target i).parkQ = []
  rw [htarget, State.unpark_target, h, hid]
  simp [without]

/-- The target whose hold timer has expired, before its parked frames go. -/
def State.holdFailing (s : State) (i : Nat) : State :=
  (((((s.bumpProof 13 1).dropWake i).updTarget i (fun x => { x with holdOn := false })).setTgt i .failed).noticeAll 3 i)

theorem State.holdFailing_target : (s.holdFailing i).target i = { s.target i with
    state := .failed, holdOn := false, wakeQ := false, memory := [], lastSec := s.time.sec, lastNs := s.time.ns } := by
  unfold State.holdFailing
  rw [State.noticeAll_target, State.setTgt_target, State.target_updTarget_same, State.dropWake_target]
  rfl

/-- Before the notices go out only targets and drops have moved. -/
theorem State.holdFailing_quiet : Frame ({ targets := true, drops := true } : Touch) (s.bumpProof 13 1)
    ((((s.bumpProof 13 1).dropWake i).updTarget i (fun x => { x with holdOn := false })).setTgt i .failed) :=
  State.setTgt_frame rfl (State.updTarget_frame rfl (State.dropWake_frame rfl .refl i) _ _) _ _

theorem State.holdFailing_pkt : (s.holdFailing i).pkt = s.pkt := by
  unfold State.holdFailing
  rw [(State.noticeAll_frame (Touch.or_self _) .refl 3 i).pkt_eq rfl, (s.holdFailing_quiet i).pkt_eq rfl]
  rfl

theorem State.get_holdFailing (h15 : 15 ≠ k) (h16 : 16 ≠ k) :
    Tab.get 0 (s.holdFailing i).proof.ctr k = Tab.get 0 (s.bumpProof 13 1).proof.ctr k := by
  unfold State.holdFailing
  rw [State.get_noticeAll _ i k 3 h15 h16, (s.holdFailing_quiet i).proofCtr rfl]

theorem State.tgtFail_eq : ∃ a, s.tgtFail i 0 = ((s.holdFailing i).dropParked i 29 5).raise 0x0B04 sevWarning a := by
  unfold State.tgtFail
  exact ⟨_, by rw [if_pos rfl]; rfl⟩

end

section

variable {s : State} {i : Nat}

theorem holdTimerExpiry_runs (h : i < 65536) : exec (.holdTimerExpiry i) s = .next (s.holdExpired i) := if_neg (by omega)

theorem holdTimerExpiry_idles (h : i < 65536)
    (hn : ¬ ((s.target i).holdOn = true ∧ ((s.target i).state = .asleep ∨ (s.target i).state = .waking))) :
    Idles (.holdTimerExpiry i) s := (holdTimerExpiry_runs h).trans (congrArg _ (if_neg hn))

theorem holdTimerExpiry_fails (h : i < 65536) (hon : (s.target i).holdOn = true)
    (hst : (s.target i).state = .asleep ∨ (s.target i).state = .waking) :
    exec (.holdTimerExpiry i) s = .next (s.tgtFail i 0) := (holdTimerExpiry_runs h).trans (congrArg _ (if_pos ⟨hon, hst⟩))

/-- What a failure for an expired hold leaves of the target. -/
theorem State.tgtFail_target (s : State) (i : Nat) : ((s.tgtFail i 0).target i).state = .failed
    ∧ ((s.tgtFail i 0).target i).holdOn = false ∧ ((s.tgtFail i 0).target i).wakeQ = false
    ∧ ((s.tgtFail i 0).target i).memory = [] ∧ Tab.get 0 (s.tgtFail i 0).proof.ctr 13 = Tab.get 0 s.proof.ctr 13 + 1 := by
  obtain ⟨a, ha⟩ := s.tgtFail_eq i
  have hraise := State.raise_frame (Touch.or_self _) (.refl (s := (s.holdFailing i).dropParked i 29 5)) 0x0B04 sevWarning a
  rw [ha, hraise.target_eq rfl, hraise.proofCtr rfl, State.get_dropParked _ i 13 29 5 (by decide),
    State.get_holdFailing s i 13 (by decide) (by decide), State.get_bumpProof_same]
  obtain ⟨hfate, hon⟩ := (s.holdFailing i).dropParked_target i 29 5
  rw [s.holdFailing_target i] at hfate
  simp only [Target.fate, Prod.mk.injEq] at hfate
  exact ⟨hfate.1, hon, hfate.2.1, hfate.2.2, rfl⟩

theorem State.tgtFail_of_one (s : State) (i : Nat) {id : Nat} (h : (s.target i).parkQ = [id]) (hid : (s.pkt id).id = id) :
    ((s.tgtFail i 0).target i).parkQ = [] ∧ Tab.get 0 (s.tgtFail i 0).proof.ctr 5 = Tab.get 0 s.proof.ctr 5 + 1 := by
  obtain ⟨a, ha⟩ := s.tgtFail_eq i
  have hraise := State.raise_frame (Touch.or_self _) (.refl (s := (s.holdFailing i).dropParked i 29 5)) 0x0B04 sevWarning a
  obtain ⟨hq, hctr⟩ := (s.holdFailing i).dropParked_of_one i (id := id) 29 5 (by rw [s.holdFailing_target i]; exact h)
    (by rw [State.holdFailing_pkt]; exact hid)
  rw [ha, hraise.target_eq rfl, hraise.proofCtr rfl, hctr, State.get_holdFailing s i 5 (by decide) (by decide),
    State.get_bumpProof_other s 1 (by decide)]
  exact ⟨hq, rfl⟩

/-! ### Idle spin-down (R321) -/

theorem idleSpindownTimer_runs (h : i < 65536) : exec (.idleSpindownTimer i) s = .next (s.idleExpired i) := if_neg (by omega)

theorem State.target_spinDown (s : State) (i j : Nat) : (s.spinDown i).target j
    = if i = j then { s.target i with state := .asleep, lastSec := s.time.sec, lastNs := s.time.ns } else s.target j := by
  unfold State.spinDown State.setTgt
  rw [State.target_updTarget]
  rfl

theorem State.get_spinDown (s : State) (i : Nat) :
    Tab.get 0 (s.spinDown i).proof.ctr 14 = Tab.get 0 s.proof.ctr 14 + 1 := State.get_bumpProof_same _ 14

/-! ### Releases (R318) -/

theorem parkDrainRelease_runs (h : i < 65536) : exec (.parkDrainRelease i) s = .next (s.drainOne i) := if_neg (by omega)

theorem State.drainOne_of_idle (h : (s.target i).state ≠ .draining ∨ (s.target i).parkQ = []) : s.drainOne i = s := by
  unfold State.drainOne
  split
  · next hst hq => rcases h with h | h <;> simp_all
  · rfl

theorem State.drainOne_of_head {id : Nat} {l : List Nat} (hst : (s.target i).state = .draining) (hq : (s.target i).parkQ = id :: l) :
    s.drainOne i = if s.releasePaused (s.pkt id) ((s.pkt id).dests.headD 0) then s
      else if l.isEmpty then
        (((s.unpark i (s.pkt id)).bumpProof 2 1).releaseTo (s.pkt id) ((s.pkt id).dests.headD 0)).queueEmptied i
      else ((s.unpark i (s.pkt id)).bumpProof 2 1).releaseTo (s.pkt id) ((s.pkt id).dests.headD 0) := by
  unfold State.drainOne
  rw [hst, hq]

/-- What the release of a parked frame leaves of its target. -/
theorem State.released_spec (s : State) (i : Nat) (pk : Pkt) (p : Nat) :
    ((((s.unpark i pk).bumpProof 2 1).releaseTo pk p).target i)
        = { s.target i with parkQ := without (s.target i).parkQ pk.id, parkUnits := (s.target i).parkUnits - parkUnitsOf pk }
      ∧ Tab.get 0 (((s.unpark i pk).bumpProof 2 1).releaseTo pk p).proof.ctr 2 = Tab.get 0 s.proof.ctr 2 + 1 := by
  have hframe := State.releaseTo_frame (Touch.or_self _) (.refl (s := (s.unpark i pk).bumpProof 2 1)) pk p
  rw [hframe.target_eq rfl, hframe.proofCtr rfl]
  exact ⟨s.unpark_target i pk, State.get_bumpProof_same _ 2⟩

/-- The last frame of a target that stays as it is leaves it awake. -/
theorem State.queueEmptied_awake (u : State) (i : Nat) (hinv : (u.target i).invalidate = false)
    (hrep : (u.target i).pendSpindle = none) : ((u.queueEmptied i).target i).state = .awake
      ∧ ((u.queueEmptied i).target i).parkQ = (u.target i).parkQ ∧ (u.queueEmptied i).proof.ctr = u.proof.ctr := by
  unfold State.queueEmptied
  dsimp only
  rw [if_neg (by simp [hinv]), hrep, State.setTgt_target, State.target_updTarget_same]
  exact ⟨rfl, rfl, rfl⟩

/-! ### Poll cycles and slots (R319, R331, R333) -/

variable {b d : Nat}

theorem pollCycleStart_runs (h : b < 4) : exec (.pollCycleStart b) s = .next (s.pollCycle b) := if_neg (by omega)

theorem State.pollCycle_of_idle (h : (s.bus b).enable = false ∨ (s.bus b).slots ≠ [] ∨ (s.bus b).await ≠ none) :
    s.pollCycle b = s := by
  unfold State.pollCycle
  dsimp only
  rw [if_neg (by rcases h with h | h | h <;> simp [h])]

theorem State.pollCycle_of_ready (he : (s.bus b).enable = true) (hs : (s.bus b).slots = []) (ha : (s.bus b).await = none) :
    s.pollCycle b = (s.endCycle b).updBus b (fun x => { x with slots := s.cycleDrops b, cycle := x.cycle + 1 }) := by
  unfold State.pollCycle
  dsimp only
  rw [if_pos (by simp [he, hs, ha])]

/-- The end of a cycle forgets which wakes it has queued. -/
theorem State.endCycle_wakeNew (s : State) (b : Nat) {d : Nat} (hd : d < 32) : ((s.endCycle b).drop b d).wakeNew = [] := by
  unfold State.endCycle
  rw [foldl_changes (read := fun t d => State.drop t b d) (f := fun x : Drop => { x with wakeNew := [] })
    (fun t k j => ?_) (fun _ => rfl), if_pos (List.mem_range.mpr hd)]
  rw [State.drop_updDrop]
  simp only [Nat.add_left_cancel_iff, State.bumpProof_rest]

theorem pollSlot_runs (h : b < 4) : exec (.pollSlot b) s = .next (s.pollNext b) := if_neg (by omega)

theorem State.pollNext_of_idle (h : (s.bus b).enable = false ∨ (s.bus b).slots = [] ∨ (s.bus b).await ≠ none) :
    s.pollNext b = s := by
  unfold State.pollNext
  dsimp only
  split
  · next he hs ha => rcases h with h | h | h <;> simp_all
  · rfl

theorem State.pollNext_of_slot {l : List Nat} (he : (s.bus b).enable = true) (hs : (s.bus b).slots = d :: l)
    (ha : (s.bus b).await = none) : s.pollNext b
      = (((s.updBus b (fun x => { x with slots := l })).sendShelf b d 1 (s.drop b d).poll).bumpProof 17 1).updDrop b d (fun x =>
          { x with pollSeq := (x.pollSeq + 1) % 65536, polls := (x.polls + 1) % 1000, force := false }) := by
  unfold State.pollNext
  dsimp only
  rw [he, hs, ha]

/-! ### Missed exchanges (R334, R335) -/

/-- The record of a drop that has missed an exchange. -/
def Drop.missed (x : Drop) : Drop :=
  { x with misses := min 255 (x.misses + 1), present := x.present && decide (x.misses + 1 < 3) }

theorem State.missed_of_none (bad : Bool) (h : (s.bus b).await = none) : s.missed b bad = s := by
  unfold State.missed
  rw [h]

/-- What a missed exchange leaves of the bus, the drop and the counters. -/
theorem State.missed_spec (s : State) (b d ty : Nat) (bad : Bool) (h : (s.bus b).await = some (d, ty)) :
    (s.missed b bad).bus b = { s.bus b with await := none } ∧ (s.missed b bad).drop b d = (s.drop b d).missed
      ∧ Tab.get 0 (s.missed b bad).proof.ctr 18 = Tab.get 0 s.proof.ctr 18 + 1
      ∧ Tab.get 0 (s.missed b bad).proof.ctr 19 = Tab.get 0 s.proof.ctr 19 + BitVec.ofNat 64 (b2n bad) := by
  unfold State.missed
  rw [h]
  dsimp only
  generalize ht : ((s.updBus b (fun b => { b with await := none })).bumpProof 18 1).bumpProof 19 (b2n bad) = t
  have hbus : t.bus b = { s.bus b with await := none } := by
    rw [← ht]
    exact s.bus_updBus_same b (fun b => { b with await := none })
  have hdrop : t.drop = s.drop := by
    rw [← ht]
    rfl
  have h18 : Tab.get 0 t.proof.ctr 18 = Tab.get 0 s.proof.ctr 18 + 1 := by
    rw [← ht, State.get_bumpProof_other _ _ (by decide), State.get_bumpProof_same]
    rfl
  have h19 : Tab.get 0 t.proof.ctr 19 = Tab.get 0 s.proof.ctr 19 + BitVec.ofNat 64 (b2n bad) := by
    rw [← ht, State.get_bumpProof, if_pos rfl, State.get_bumpProof_other _ _ (by decide)]
    rfl
  have hmissed : (t.updDrop b d (fun y =>
      { y with misses := min 255 (y.misses + 1), present := y.present && y.misses + 1 < 3 })).drop b d = (s.drop b d).missed := by
    rw [State.drop_updDrop_same, hdrop]
    rfl
  split
  · simp only [State.raise_rest, State.updDrop_rest]
    exact ⟨hbus, hmissed, h18, h19⟩
  · exact ⟨hbus, hmissed, h18, h19⟩

/-! ### Replies (R332, R335 to R337) -/

theorem shelfReplyTimeout_runs (h : b < 4) : exec (.shelfReplyTimeout b) s = .next (s.missed b false) := if_neg (by omega)

theorem shelfReplyDiscarded_runs (bad : Bool) (h : b < 4) : exec (.shelfReplyDiscarded b bad) s = .next (s.missed b bad) :=
  if_neg (by omega)

theorem shelfStatusReceived_runs (p : List Byte) (h : b < 4) : exec (.shelfStatusReceived b p) s = .next (s.statusReply b p) :=
  if_neg (by omega)

theorem shelfAckReceived_runs (p : List Byte) (h : b < 4) : exec (.shelfAckReceived b p) s = .next (s.ackReply b p) :=
  if_neg (by omega)

theorem shelfIdentReceived_runs (p : List Byte) (h : b < 4) : exec (.shelfIdentReceived b p) s = .next (s.identReply b p) :=
  if_neg (by omega)

variable {ty : Nat} {p : List Byte}

theorem State.statusReply_of_none (h : (s.bus b).await = none) : s.statusReply b p = s := by
  unfold State.statusReply
  rw [h]

theorem State.ackReply_of_none (h : (s.bus b).await = none) : s.ackReply b p = s := by
  unfold State.ackReply
  rw [h]

theorem State.identReply_of_none (h : (s.bus b).await = none) : s.identReply b p = s := by
  unfold State.identReply
  rw [h]

theorem State.statusReply_of_some (h : (s.bus b).await = some (d, ty)) : s.statusReply b p
    = if ty = 0x81 ∧ statusOk p then
        ((((s.updBus b (fun b => { b with await := none })).readStatus b d p).pruneCmd b d).slotCommand b d (s.drop b d).identDue)
      else s.missed b false := by
  unfold State.statusReply
  rw [h]

theorem State.ackReply_of_other (h : (s.bus b).await = some (d, ty)) (hn : ty ≠ 0x82 ∨ p.length ≠ 4) :
    s.ackReply b p = s.missed b false := by
  unfold State.ackReply
  rw [h]
  exact if_neg (by tauto)

/-- The state in which an ACK is read: its exchange has ended. -/
def State.acked (s : State) (b d : Nat) : State :=
  (s.updBus b (fun b => { b with await := none })).updDrop b d (fun x => { x with misses := 0 })

theorem State.acked_spec (s : State) (b d : Nat) : (s.acked b d).drop b d = { s.drop b d with misses := 0 }
    ∧ ((s.acked b d).bus b).await = none := by
  unfold State.acked
  rw [State.drop_updDrop_same]
  exact ⟨rfl, congrArg Bus.await (s.bus_updBus_same b (fun b => { b with await := none }))⟩

theorem State.ackReply_of_cmd {c : Nat × List Nat} (h : (s.bus b).await = some (d, 0x82)) (hp : p.length = 4)
    (hc : (s.drop b d).cmd = some c) : s.ackReply b p
      = if rdBe p 0 2 = (s.drop b d).cmdSeq then (s.acked b d).ackResult b d c (rdBe p 2 1) else s.acked b d := by
  unfold State.ackReply
  rw [h]
  dsimp only
  rw [if_pos ⟨rfl, hp⟩, hc]
  rfl

theorem State.identReply_of_some (h : (s.bus b).await = some (d, ty)) : s.identReply b p
    = if ty = 0x84 ∧ p.length = 36 then
        (s.updBus b (fun b => { b with await := none })).updDrop b d (fun x => { x with misses := 0, ident := p })
      else s.missed b false := by
  unfold State.identReply
  rw [h]

end

/-! ### What a STATUS leaves of a drop (R320, R332, R335) -/

/-- What the statement reads of a drop. -/
def Drop.seen (x : Drop) : Nat × Bool × Bool := (x.misses, x.present, x.battery)

section

variable (s : State) (b d : Nat)

theorem State.seen_updDrop (i k : Nat) {f : Drop → Drop} (hf : ∀ x, (f x).seen = x.seen) :
    ((s.updDrop i k f).drop b d).seen = (s.drop b d).seen := by
  rw [State.drop_updDrop]
  split
  · next h => rw [hf, State.drop, State.drop, h]
  · rfl

theorem State.seen_dropWake (i : Nat) : ((s.dropWake i).drop b d).seen = (s.drop b d).seen :=
  State.seen_updDrop _ b d _ _ (fun _ => rfl)

theorem State.seen_of_frame {w : Touch} {s t : State} (h : Frame w s t) (hw : w.drops = false) :
    (t.drop b d).seen = (s.drop b d).seen := by rw [h.drop_eq hw]

theorem State.seen_noticeAll (i n : Nat) : ((s.noticeAll n i).drop b d).seen = (s.drop b d).seen :=
  State.seen_of_frame b d (State.noticeAll_frame (Touch.or_self _) .refl n i) rfl

theorem State.seen_dropParked (i r c : Nat) : ((s.dropParked i r c).drop b d).seen = (s.drop b d).seen :=
  State.seen_of_frame b d (State.dropParked_frame (Touch.or_self _) .refl i r c) rfl

theorem State.seen_raise (k v : Nat) (a : List Byte) : ((s.raise k v a).drop b d).seen = (s.drop b d).seen :=
  State.seen_of_frame b d (State.raise_frame (Touch.or_self _) .refl k v a) rfl

theorem State.seen_setTgt (i : Nat) (x : TgtState) : ((s.setTgt i x).drop b d).seen = (s.drop b d).seen := rfl

theorem State.seen_updTarget (i : Nat) (f : Target → Target) : ((s.updTarget i f).drop b d).seen = (s.drop b d).seen := rfl

theorem State.seen_bumpProof (i n : Nat) : ((s.bumpProof i n).drop b d).seen = (s.drop b d).seen := rfl

theorem State.seen_tgtReady (i : Nat) (c : Option Nat) : ((s.tgtReady i c).drop b d).seen = (s.drop b d).seen := by
  unfold State.tgtReady
  dsimp only
  generalize hv : (if (s.target i).parkQ.isEmpty = true then _ else _) = v
  have hkept : (v.drop b d).seen = (s.drop b d).seen := by
    rw [← hv]
    split
    · rw [State.seen_setTgt, State.seen_updTarget, State.seen_dropWake]
    · rw [State.seen_noticeAll, State.seen_setTgt, State.seen_updTarget, State.seen_dropWake]
  cases c with
  | none => exact hkept
  | some c => exact (State.seen_raise _ b d _ _ _).trans hkept

theorem State.seen_tgtFail (i c : Nat) : ((s.tgtFail i c).drop b d).seen = (s.drop b d).seen := by
  unfold State.tgtFail
  dsimp only
  rw [State.seen_raise, State.seen_dropParked, State.seen_noticeAll, State.seen_setTgt, State.seen_updTarget, State.seen_dropWake]
  split <;> rfl

/-- A spindle report moves no drop but by the wake it withdraws. -/
theorem State.seen_spindleReport (i code : Nat) : ((s.spindleReport i code).drop b d).seen = (s.drop b d).seen := by
  have hspindle : ((s.updTarget i (fun x => { x with spindle := code })).drop b d).seen = (s.drop b d).seen := rfl
  unfold State.spindleReport
  dsimp only
  generalize s.updTarget i (fun x => { x with spindle := code }) = u at *
  rw [← hspindle]
  split <;>
    simp only [State.reportWaking, State.seen_tgtReady, State.seen_tgtFail, State.seen_dropWake, State.seen_setTgt,
      State.seen_updTarget, State.seen_raise, State.seen_bumpProof]

theorem State.seen_applyPage (k e : Nat) (st : List Byte) : ((s.applyPage k e st).drop b d).seen = (s.drop b d).seen := by
  unfold State.applyPage
  refine (foldl_read (fun t => (t.drop b d).seen) (fun t slot _ => ?_) _).trans (s.seen_updDrop b d k e (fun _ => rfl))
  split
  · split
    · exact t.seen_spindleReport b d _ _
    · rfl
  · rfl

theorem State.seen_pruneCmd (k e : Nat) : ((s.pruneCmd k e).drop b d).seen = (s.drop b d).seen := by
  unfold State.pruneCmd
  split
  · split
    · rfl
    · exact s.seen_updDrop b d k e (fun _ => rfl)
  · rfl

theorem State.seen_sendShelf (k e n : Nat) (p : List Byte) : ((s.sendShelf k e n p).drop b d).seen = (s.drop b d).seen := rfl

theorem State.seen_newCmd (k e n : Nat) (l : List Nat) : ((s.newCmd k e n l).drop b d).seen = (s.drop b d).seen := by
  unfold State.newCmd
  dsimp only
  rw [State.seen_sendShelf]
  exact s.seen_updDrop b d k e (fun _ => rfl)

theorem State.seen_issueWake (i : Nat) : ((s.issueWake i).drop b d).seen = (s.drop b d).seen := by
  unfold State.issueWake
  rw [State.seen_bumpProof, State.seen_setTgt, State.seen_updTarget, State.seen_dropWake]

theorem State.seen_slotCommand (k e : Nat) (ident : Bool) : ((s.slotCommand k e ident).drop b d).seen = (s.drop b d).seen := by
  unfold State.slotCommand
  dsimp only
  split
  · rw [State.seen_sendShelf]
    exact s.seen_updDrop b d k e (fun _ => rfl)
  · split
    · rw [State.seen_bumpProof, State.seen_sendShelf]
    · split
      · exact (State.seen_newCmd _ b d _ _ _ _).trans (s.seen_updDrop b d k e (fun _ => rfl))
      · split
        · rfl
        · split
          · rfl
          · exact (State.seen_newCmd _ b d _ _ _ _).trans
              (foldl_read (fun t => (t.drop b d).seen) (fun t i _ => t.seen_issueWake b d i) s)

theorem State.seen_batteryTarget (i : Nat) : ((s.batteryTarget i).drop b d).seen = (s.drop b d).seen := by
  unfold State.batteryTarget
  dsimp only
  split
  · split
    · rw [State.seen_setTgt, State.seen_dropParked, State.seen_dropWake]
    · rw [State.seen_dropParked, State.seen_dropWake]
  · rfl

/-- A drop that goes on battery. -/
theorem State.seen_onBattery : ((s.onBattery b d).drop b d).seen = ((s.drop b d).misses, (s.drop b d).present, true) := by
  unfold State.onBattery
  dsimp only
  rw [State.seen_raise, State.drop_updDrop_same]
  have hkept : ∀ u : State, (((s.dropTargets b d).foldl State.batteryTarget u).drop b d).seen = (u.drop b d).seen := fun u =>
    foldl_read (fun t => (t.drop b d).seen) (fun t i _ => t.seen_batteryTarget b d i) u
  have hboth := (hkept ((s.drop b d).wakeQ.foldl (fun u i => u.dropWake i) s)).trans
    (foldl_read (fun t => (t.drop b d).seen) (fun t i _ => t.seen_dropWake b d i) s)
  simp only [Drop.seen, Prod.mk.injEq] at hboth ⊢
  exact ⟨hboth.1, hboth.2.1, trivial⟩

theorem State.seen_readBattery (on : Bool) :
    ((s.readBattery b d on).drop b d).seen = ((s.drop b d).misses, (s.drop b d).present, on) := by
  unfold State.readBattery
  cases hb : (s.drop b d).battery <;> cases on <;> dsimp only
  · rw [Drop.seen, hb]
  · exact s.seen_onBattery b d
  · rw [State.seen_raise, State.drop_updDrop_same]
    rfl
  · rw [Drop.seen, hb]

theorem State.seen_becomePresent :
    ((s.becomePresent b d).drop b d).seen = ((s.drop b d).misses, true, (s.drop b d).battery) := by
  unfold State.becomePresent
  split
  · next h => rw [Drop.seen, h]
  · rw [State.seen_raise, State.drop_updDrop_same]
    rfl

/-- What a STATUS says of its drop. -/
theorem State.seen_readStatus (st : List Byte) :
    ((s.readStatus b d st).drop b d).seen = (0, true, bit (rdBe st 4 1) 0) := by
  unfold State.readStatus
  dsimp only
  generalize ht : s.updDrop b d (fun x =>
    { x with misses := 0, status := if st.length = 64 then st else st ++ (padTo 64 x.status).drop 16 }) = t
  have hmisses : (t.drop b d).misses = 0 := by rw [← ht, State.drop_updDrop_same]
  have hpresent := t.seen_becomePresent b d
  generalize t.becomePresent b d = u at *
  simp only [Drop.seen, Prod.mk.injEq] at hpresent
  have hbattery := u.seen_readBattery b d (bit (rdBe st 4 1) 0)
  rw [hpresent.1, hpresent.2.1, hmisses] at hbattery
  generalize u.readBattery b d (bit (rdBe st 4 1) 0) = v at *
  have hraised (c : Prop) [Decidable c] (y : State) (k l : Nat) (a : List Byte) :
      ((if c then y.raise k l a else y).drop b d).seen = (y.drop b d).seen := by
    split
    · exact y.seen_raise b d k l a
    · rfl
  split
  · rw [State.seen_applyPage, hraised, hraised, hbattery]
  · rw [hraised, hraised, hbattery]

end

/-- Settles O53: the timers and releases by the target's state, the exchanges by the bus's. -/
theorem proofingRows : Obligations.ProofingRows := by
  unfold Obligations.ProofingRows
  refine ⟨fun s i hi => ⟨fun hon => ?_, fun hst => ?_, fun hon hst => ⟨?holdFails, fun id hq hid => ?holdDrops⟩⟩,
    fun s i hi => ⟨fun h => ?idleStays, fun hv hst hc => ?idleDown⟩,
    fun s i hi => ⟨fun h => ?drainStays, fun id l hst hq => ⟨fun hp => ?paused, fun hp hid hl => ?released, fun hp hid hl hinv hrep => ?drained⟩⟩,
    fun s b hb => ⟨fun h => ?cycleStays, fun he hs ha => ?cycleStarts⟩,
    fun s b hb => ⟨fun h => ?slotStays, fun d l he hs ha => ?slotPolls⟩,
    fun s b hb ha => ?unawaited, fun s b d ty p hb ha => ?awaited⟩
  · exact holdTimerExpiry_idles hi (by simp [hon])
  · exact holdTimerExpiry_idles hi (by rcases hst with h | h | h <;> simp [h])
  case holdFails => exact ends_of_exec (holdTimerExpiry_fails hi hon hst) (s.tgtFail_target i)
  case holdDrops => exact ends_of_exec (holdTimerExpiry_fails hi hon hst) (s.tgtFail_of_one i hq hid)
  case idleStays =>
    have hstay : s.idleExpired i = s := by
      unfold State.idleExpired
      dsimp only
      rw [if_neg (by rcases h with h | h | h <;> simp [h])]
    exact (idleSpindownTimer_runs hi).trans (congrArg _ hstay)
  case idleDown =>
    have hdown : s.idleExpired i = s.spinDown i := if_pos ⟨hv, hst, Nat.pos_of_ne_zero hc⟩
    refine ends_of_exec ((idleSpindownTimer_runs hi).trans (congrArg _ hdown)) ⟨?_, ?_, s.get_spinDown i, fun j hj => ?_⟩
    · rw [State.target_spinDown, if_pos rfl]
    · dsimp only
      rw [State.spinDown_drop]
    · rw [State.target_spinDown, if_neg (Ne.symm hj)]
  case drainStays => exact (parkDrainRelease_runs hi).trans (congrArg _ (State.drainOne_of_idle h))
  case paused =>
    exact (parkDrainRelease_runs hi).trans (congrArg _ ((State.drainOne_of_head hst hq).trans (if_pos hp)))
  case released =>
    obtain ⟨htgt, hctr⟩ := s.released_spec i (s.pkt id) ((s.pkt id).dests.headD 0)
    refine ends_of_exec ((parkDrainRelease_runs hi).trans (congrArg _ (State.drainOne_of_head hst hq))) ?_
    rw [if_neg (by rw [hp]; exact Bool.false_ne_true), if_neg (by simpa [List.isEmpty_iff] using hl), htgt, hq, hid]
    exact ⟨hst, by simp [without], hctr⟩
  case drained =>
    obtain ⟨htgt, hctr⟩ := s.released_spec i (s.pkt id) ((s.pkt id).dests.headD 0)
    refine ends_of_exec ((parkDrainRelease_runs hi).trans (congrArg _ (State.drainOne_of_head hst hq))) ?_
    rw [if_neg (by rw [hp]; exact Bool.false_ne_true), if_pos (by simp [hl])]
    generalize ((s.unpark i (s.pkt id)).bumpProof 2 1).releaseTo (s.pkt id) ((s.pkt id).dests.headD 0) = u at *
    obtain ⟨hawake, hqueue, hkept⟩ := u.queueEmptied_awake i (by rw [htgt]; exact hinv) (by rw [htgt]; exact hrep)
    rw [hqueue, hkept, htgt, hq, hid, hl]
    exact ⟨hawake, by simp [without], hctr⟩
  case cycleStays => exact (pollCycleStart_runs hb).trans (congrArg _ (State.pollCycle_of_idle h))
  case cycleStarts =>
    refine ends_of_exec ((pollCycleStart_runs hb).trans (congrArg _ (State.pollCycle_of_ready he hs ha))) ⟨?_, fun d hd => ?_⟩
    · rw [State.bus_updBus_same, (State.endCycle_frame (Touch.or_self _) .refl b).bus_eq rfl]
    · simp only [State.updBus_rest]
      exact s.endCycle_wakeNew b hd
  case slotStays => exact (pollSlot_runs hb).trans (congrArg _ (State.pollNext_of_idle h))
  case slotPolls =>
    refine ends_of_exec ((pollSlot_runs hb).trans (congrArg _ (State.pollNext_of_slot he hs ha))) ⟨?_, rfl, ?_, ?_⟩
    · simp only [State.updDrop_rest, State.bumpProof_rest]
      show ((s.updBus b (fun x => { x with slots := l })).updBus b (fun b => { b with await := some (d, shelfReply 1) })).bus b = _
      rw [State.bus_updBus_same, State.bus_updBus_same]
      rfl
    · rw [State.drop_updDrop_same]
      rfl
    · exact State.get_bumpProof_same ((s.updBus b (fun x => { x with slots := l })).sendShelf b d 1 (s.drop b d).poll) 17
  case unawaited =>
    exact ⟨(shelfReplyTimeout_runs hb).trans (congrArg _ (State.missed_of_none false ha)), fun p bad =>
      ⟨(shelfReplyDiscarded_runs bad hb).trans (congrArg _ (State.missed_of_none bad ha)),
        (shelfStatusReceived_runs p hb).trans (congrArg _ (State.statusReply_of_none ha)),
        (shelfAckReceived_runs p hb).trans (congrArg _ (State.ackReply_of_none ha)),
        (shelfIdentReceived_runs p hb).trans (congrArg _ (State.identReply_of_none ha))⟩⟩
  case awaited =>
    obtain ⟨hbus, hdrop, h18, -⟩ := s.missed_spec b d ty false ha
    obtain ⟨hbusBad, hdropBad, h18Bad, h19Bad⟩ := s.missed_spec b d ty true ha
    refine ⟨ends_of_exec (shelfReplyTimeout_runs hb) ⟨hbus, hdrop, h18⟩,
      ends_of_exec (shelfReplyDiscarded_runs false hb) ⟨hbus, hdrop, h18⟩,
      ends_of_exec (shelfReplyDiscarded_runs true hb) ⟨⟨hbusBad, hdropBad, h18Bad⟩, h19Bad⟩,
      fun hty => ends_of_exec ((shelfStatusReceived_runs p hb).trans (congrArg _ ((State.statusReply_of_some ha).trans
        (if_neg (fun h => hty h.1))))) ⟨hbus, hdrop, h18⟩,
      fun hno => ends_of_exec ((shelfAckReceived_runs p hb).trans (congrArg _ (State.ackReply_of_other ha hno)))
        ⟨hbus, hdrop, h18⟩,
      fun hno => ends_of_exec ((shelfIdentReceived_runs p hb).trans (congrArg _ ((State.identReply_of_some ha).trans
        (if_neg (by tauto))))) ⟨hbus, hdrop, h18⟩,
      fun hty hok => ?status, fun hty hlen c hcmd => ⟨fun hseq hres => ?accepted, fun hseq => ?otherSeq⟩, fun hty hlen => ?ident⟩
    case status =>
      refine ends_of_exec ((shelfStatusReceived_runs p hb).trans (congrArg _ ((State.statusReply_of_some ha).trans
        (if_pos ⟨hty, hok⟩)))) ?_
      have hseen := (State.seen_slotCommand (((s.updBus b (fun b => { b with await := none })).readStatus b d p).pruneCmd b d) b d b d
        (s.drop b d).identDue).trans ((State.seen_pruneCmd _ b d b d).trans (State.seen_readStatus _ b d p))
      simpa only [Drop.seen, Prod.mk.injEq] using hseen
    case accepted =>
      subst hty
      obtain ⟨hmisses, hawait⟩ := s.acked_spec b d
      refine ends_of_exec ((shelfAckReceived_runs p hb).trans (congrArg _ ((State.ackReply_of_cmd ha hlen hcmd).trans
        (if_pos hseq)))) ?_
      rw [hres]
      show ((s.acked b d).updDrop b d (fun x => { x with cmd := none })).drop b d = _ ∧ _
      rw [State.drop_updDrop_same, hmisses]
      exact ⟨rfl, hawait⟩
    case otherSeq =>
      subst hty
      exact ends_of_exec ((shelfAckReceived_runs p hb).trans (congrArg _ ((State.ackReply_of_cmd ha hlen hcmd).trans
        (if_neg hseq)))) (s.acked_spec b d)
    case ident =>
      refine ends_of_exec ((shelfIdentReceived_runs p hb).trans (congrArg _ ((State.identReply_of_some ha).trans
        (if_pos ⟨hty, hlen⟩)))) ?_
      rw [State.drop_updDrop_same]
      exact ⟨rfl, congrArg Bus.await (s.bus_updBus_same b (fun b => { b with await := none }))⟩

end Sys2Proof.Machine

end


section
/-! PROOF. Rules of the domain channel (R423 to R425): what sending leaves of the peers' records, that a frame of the channel
leaves or waits in TC7, and what a received frame does before it acts. -/

namespace Sys2Proof.Machine

section

variable {s t u : State}

/-! ### Sending moves sequence numbers alone -/

/-- A peer's record but for what sending to it moves: the next sequence number and the number of frames sealed. -/
def Peer.unsent (e : Peer) : Peer := { e with txSeq := 0, sealed := 0 }

/-- From `s` to `t` no more befalls the peers than that something is sent to them, and nothing where no port reaches one. -/
structure State.Tells (s t : State) : Prop where
  unsent : ∀ i, (t.peer i).unsent = (s.peer i).unsent
  silent : ∀ i, (s.peer i).ports = [] → t.peer i = s.peer i

theorem State.Tells.of_eq (h : t.peer = s.peer) : s.Tells t := ⟨fun _ => by rw [h], fun _ _ => by rw [h]⟩

theorem State.Tells.refl (s : State) : s.Tells s := .of_eq rfl

/-- What is read of a peer's record without the parts that sending moves. -/
theorem State.Tells.read {α : Type} (h : s.Tells t) (f : Peer → α) (hf : ∀ e, f e.unsent = f e) (i : Nat) :
    f (t.peer i) = f (s.peer i) := by
  rw [← hf, h.unsent, hf]

theorem State.Tells.trans (h : s.Tells t) (k : t.Tells u) : s.Tells u where
  unsent i := (k.unsent i).trans (h.unsent i)
  silent i hi := (k.silent i ((h.read Peer.ports (fun _ => rfl) i).trans hi)).trans (h.silent i hi)

theorem Frame.peer_eq {w : Touch} (h : Frame w s t) (hw : w.peers = false) : t.peer = s.peer := by
  funext i
  unfold State.peer
  rw [h.peers hw]

theorem Frame.tells {w : Touch} (h : Frame w s t) (hw : w.peers = false) : s.Tells t := .of_eq (h.peer_eq hw)

/-- What a frame leaving in a class, or waiting with it, moves. -/
def Touch.oneFrame : Touch := { waitTx := true, portCtr := true, out := true }

theorem State.sendTc7_frame (s : State) (p : Nat) (o : Output) : Frame .oneFrame s (s.sendClass p 7 o (fun t => t.sendNow p o)) :=
  State.sendClass_frame rfl .refl p 7 o _ (fun _ hF => State.sendNow_frame rfl hF p o)

/-- The record of a peer to which `n` frames have been sent. -/
def Peer.sent (e : Peer) (n : Nat) : Peer := { e with txSeq := (e.txSeq + n) % 2 ^ 64, sealed := e.sealed + n }

/-- A send to a peer that no open port reaches is none. -/
theorem State.domPut_unreached {peer : Nat} (h : s.domPorts peer = []) (type id : Nat) (body : List Byte) (n : Nat) :
    s.domPut peer type id body n = s := by
  unfold State.domPut
  rw [h]

/-- A first send leaves on the first of the open ports to the peer. -/
theorem State.domPut_reached {peer p : Nat} {l : List Nat} (h : s.domPorts peer = p :: l) (type id : Nat) (body : List Byte) :
    s.domPut peer type id body 0 = (s.updPeer peer (·.sent (domFrames body))).sendClass p 7 (s.domFrame p peer type id body)
      (fun t => t.sendNow p (s.domFrame p peer type id body)) := by
  unfold State.domPut
  rw [h]
  dsimp only
  rw [Nat.zero_mod]
  rfl

/-- The records of the peers after a send: that of the peer sent to has moved on, or none has where no open port reaches it. -/
theorem State.domPut_peer (s : State) (peer type id : Nat) (body : List Byte) (n i : Nat) :
    (s.domPut peer type id body n).peer i
      = if peer = i ∧ s.domPorts peer ≠ [] then (s.peer i).sent (domFrames body) else s.peer i := by
  unfold State.domPut
  split
  next h => rw [if_neg (by simp [h])]
  next h =>
    rw [(State.sendTc7_frame _ _ _).peer_eq rfl, State.peer_updPeer]
    by_cases he : peer = i
    · subst he
      rw [if_pos rfl, if_pos ⟨rfl, by simp [h]⟩]
      rfl
    · rw [if_neg he, if_neg (fun hc => he hc.1)]

theorem State.domPut_tells (s : State) (peer type id : Nat) (body : List Byte) (n : Nat) :
    s.Tells (s.domPut peer type id body n) := by
  refine ⟨fun i => ?_, fun i hi => ?_⟩ <;> rw [State.domPut_peer]
  · split <;> rfl
  · refine if_neg (fun ⟨hp, hne⟩ => hne ?_)
    subst hp
    unfold State.domPorts
    rw [hi]
    rfl

theorem State.keepMsg_peer (s : State) (peer type : Nat) (body : List Byte) (c : Option Nat) :
    (s.keepMsg peer type body c).peer = s.peer := rfl

theorem State.domSend_tells (s : State) (peer type : Nat) (body : List Byte) : s.Tells (s.domSend peer type body) :=
  (s.domPut_tells _ _ _ _ _).trans (.of_eq (State.keepMsg_peer _ _ _ _ _))

/-- Sending to one peer leaves the records of the others. -/
theorem State.domSend_peer_other (s : State) {peer i : Nat} (h : peer ≠ i) (type : Nat) (body : List Byte) :
    (s.domSend peer type body).peer i = s.peer i := by
  unfold State.domSend
  rw [State.keepMsg_peer, State.domPut_peer, if_neg (fun hc => h hc.1)]

/-! ### An answer tells no more than its receiver -/

theorem State.post_tells (s : State) (b tag : Nat) (ind : Bool) (addr : Nat) (x : Resp) : s.Tells (s.post b tag ind addr x) := by
  unfold State.post
  split
  · exact s.domSend_tells _ _ _
  · exact .of_eq rfl

theorem State.postWaiters_tells (tag : Nat) (x : Resp) : ∀ (l : List (Nat × Bool × Nat)) (s : State),
    s.Tells (s.postWaiters tag x l)
  | [], s => .refl s
  | _ :: l, s => (s.post_tells _ _ _ _ _).trans (State.postWaiters_tells tag x l _)

theorem State.answerJob_tells (s : State) (j : Job) (x : Resp) : s.Tells (s.answerJob j x) := by
  unfold State.answerJob
  split
  · exact (State.asyncDone_frame (Touch.or_self _) .refl _ _ _).tells rfl
  · split
    · exact s.post_tells _ _ _ _ _
    · exact .refl s

theorem State.endJob_tells (s : State) (j : Job) (l : List Job) (x : Resp) : s.Tells (s.endJob j l x) := by
  have htaken : s.Tells ((State.freeBuf { s with mbx := { s.mbx with jobs := l } } j.buf).recordTag j.op j.req x) := by
    refine .of_eq (funext fun i => ?_)
    unfold State.peer
    rw [(State.recordTag_mailOnly _ _ _ _).bake, (State.freeBuf_mailOnly _ _).bake]
  exact htaken.trans ((State.answerJob_tells _ j x).trans (State.postWaiters_tells _ _ _ _))

theorem State.answerSet_tells (s : State) (b : SetSt) (x : Resp) : s.Tells (s.answerSet b x) := by
  unfold State.answerSet State.complete State.endOldest
  split
  · split
    · exact .refl s
    · exact s.endJob_tells _ _ _
  · exact .refl s

theorem State.freeSet_tells (s : State) : s.Tells s.freeSet := by
  unfold State.freeSet
  split
  next b _ =>
    split
    · exact .refl s
    · exact ((State.reopen_frame (Touch.or_self _) .refl b).tells rfl).trans (State.answerSet_tells _ b _)
  next => exact .refl s

theorem State.freeDomSet_tells (s : State) : s.Tells s.freeDomSet := by
  unfold State.freeDomSet
  split
  · exact s.freeSet_tells
  · exact .refl s

/-! ### A frame of the channel leaves, or waits with its class (R48) -/

/-- Output `o` of port `p` of `s`, in TC7, is on the wire at `t` where the class was clear, else it waits there. -/
def State.Puts (s t : State) (p : Nat) (o : Output) : Prop := if s.txClear p 7 then o ∈ t.out else (7, o) ∈ t.waiting p

theorem State.sendTc7_puts {p : Nat} (h : bit (s.port p).storm 7 = false) (o : Output) :
    s.Puts (s.sendClass p 7 o (fun t => t.sendNow p o)) p o := by
  unfold State.Puts State.sendClass
  rw [if_neg (show ¬ bit (s.port p).storm 7 = true by simp [h])]
  split
  · rw [State.sendNow_out]
    exact List.mem_cons_self
  · rw [State.waiting_setWaiting, if_pos rfl]
    exact List.mem_append_right _ (List.mem_singleton.mpr rfl)

/-- The frame of a sealed message leaves the first open port to its peer, or waits there. -/
theorem State.domSend_puts {peer p : Nat} {l : List Nat} (hl : s.domPorts peer = p :: l) (h : bit (s.port p).storm 7 = false)
    (type : Nat) (body : List Byte) : s.Puts (s.domSend peer type body) p (s.domFrame p peer type s.bake.nextMsg body) := by
  unfold State.domSend
  rw [State.domPut_reached hl]
  exact State.sendTc7_puts (s := s.updPeer peer (·.sent (domFrames body))) h _

/-! ### A received frame, before it acts (R45, R423, R424) -/

/-- Output of a row of a received message: `act` in the state that has counted its frames. -/
theorem State.domRx_counted {m : DomIn} (hl : (s.port m.port).link = true) (hf : m.fcsOk = true) (act : State → State) :
    s.domRx m act = act (s.domCounted m) := by
  unfold State.domRx
  rw [if_neg (by simp [hl]), if_neg (by simp [hf])]
  rfl

theorem State.domRx_linkDown {m : DomIn} (hl : (s.port m.port).link = false) (act : State → State) : s.domRx m act = s := if_pos hl

/-- A port's counters do not count the drops at its MAC a second time. -/
theorem State.macDrop_badFcs (s : State) (pk : Pkt) :
    (s.macDrop pk 1).tel.portCtr = s.tel.portCtr ∧ (s.macDrop pk 1).bake = s.bake := by
  have hquiet : Frame { telCtr := true, dropCtr := true, mirCtr := true, shares := true } s (s.countQuiet pk 1 0xFFFF) := by
    unfold State.countQuiet
    split
    · exact State.bumpMirAt_frame rfl .refl _ _ _ _
    · exact State.bumpDrop_frame rfl .refl _ _
  have hcopies := State.mirDrop_frame (Touch.or_self _) (.refl (s := s.countQuiet pk 1 0xFFFF)) pk 1 0xFFFF
  exact ⟨(hcopies.portCtr rfl).trans (hquiet.portCtr rfl), (hcopies.bake_eq rfl).trans (hquiet.bake_eq rfl)⟩

/-- A frame of legal length whose FCS is bad is counted so, and dropped. -/
theorem State.ctlRx_badFcs {p : Nat} {b : List Byte} (hl : (s.port p).link = true) (h60 : 60 ≤ b.length)
    (hmax : b.length + 4 ≤ (s.port p).maxLen) (act : State → State) :
    (s.ctlRx p b false act).bake = s.bake
      ∧ Tab.get 0 (s.ctlRx p b false act).tel.portCtr (22 * p + 2) = Tab.get 0 s.tel.portCtr (22 * p + 2) + 1 := by
  unfold State.ctlRx
  rw [if_neg (by simp [hl])]
  dsimp only
  rw [if_neg (by omega), if_neg (by omega), if_pos rfl]
  obtain ⟨hctr, hbake⟩ := State.macDrop_badFcs (((s.bumpPort p 0 1).bumpPort p 1 (b.length + 4)).bumpPort p 2 1)
    (((s.bumpPort p 0 1).bumpPort p 1 (b.length + 4)).newPkt p (b.take ((s.port p).maxLen - 4)) (b.length + 4) true)
  refine ⟨hbake, ?_⟩
  rw [hctr, State.get_bumpPort_same, State.get_bumpPort, if_neg (by omega), State.get_bumpPort, if_neg (by omega)]

/-- A message that fails authentication only counts. -/
theorem State.authFail_bake (s : State) (m : DomIn) :
    (s.authFail m).bake = { s.bake with authFails := (s.bake.authFails + 1) % 2 ^ 32 } :=
  (State.raiseLimited_frame (Touch.or_self _) .refl _ _ _ _ _).bake_eq rfl

/-- Of the row of a message that is not in clear text only authentic messages for this device get as far as acting. -/
theorem domRow_stops {type : Nat} {m : DomIn} (act : State → State) (hp : m.port < 512) :
    ((s.port m.port).link = false → domRow type m act s = .next s)
    ∧ ((s.port m.port).link = true → m.fcsOk = false → domRow type m act s = .next (s.ctlRx m.port m.raw false (fun t => t)))
    ∧ ((s.port m.port).link = true → m.fcsOk = true → s.domMine m = false → domRow type m act s = .next (s.domCounted m))
    ∧ ((s.port m.port).link = true → m.fcsOk = true → s.domMine m = true → s.authOk type m = false →
      domRow type m act s = .next ((s.domCounted m).authFail m)) := by
  have hrow : domRow type m act s = .next (s.domIn type m act) := if_neg (by omega)
  rw [hrow]
  unfold State.domIn
  refine ⟨fun hl => ?_, fun hl hf => ?_, fun hl hf hm => ?_, fun hl hf hm ha => ?_⟩
  · rw [State.domRx_linkDown hl]
  · unfold State.domRx
    rw [if_neg (by simp [hl]), if_pos hf]
  · rw [State.domRx_counted hl hf, if_neg (by simpa using (show (s.domCounted m).domMine m = false from hm))]
  · rw [State.domRx_counted hl hf, if_pos (show (s.domCounted m).domMine m = true from hm)]
    unfold State.domAct
    rw [if_pos (show (s.domCounted m).authOk type m = false from ha)]

end

end Sys2Proof.Machine

end


section
/-! PROOF. The domain channel without enrolment: what a received message needs to act, heartbeats and loss, confirmations and
resends (R423 to R426). -/

namespace Sys2Proof.Machine

section

variable {s t : State} {m : DomIn}

/-! ### Messages that do not act -/

/-- Row `e` of message `m` stops short of acting: at a port without link, at a bad FCS, off this device, and without authority. -/
def StopsShort (s : State) (m : DomIn) (type : Nat) (e : Instr) : Prop :=
  ((s.port m.port).link = false → exec e s = .next s)
  ∧ ((s.port m.port).link = true → m.fcsOk = false → exec e s = .next (s.ctlRx m.port m.raw false (fun t => t)))
  ∧ ((s.port m.port).link = true → m.fcsOk = true → s.domMine m = false → exec e s = .next (s.domCounted m))
  ∧ ((s.port m.port).link = true → m.fcsOk = true → s.domMine m = true → inClear m = false → s.authOk type m = false →
    exec e s = .next ((s.domCounted m).authFail m))

theorem stopsShort_of_domRow {type : Nat} {e : Instr} {act : State → State} (he : exec e s = domRow type m act s)
    (hp : m.port < 512) : StopsShort s m type e := by
  obtain ⟨hdown, hfcs, hmine, hauth⟩ := domRow_stops (s := s) (type := type) act hp
  unfold StopsShort
  rw [he]
  exact ⟨hdown, hfcs, hmine, fun hl hf hm _ ha => hauth hl hf hm ha⟩

theorem received_exec (hp : m.port < 512) : exec (.received m) s = .next (s.domRx m (fun t =>
    if t.domMine m = false then t
    else if inClear m then t.clearReceived m
    else t.domAct 3 m (fun u => u.gotReceived m))) := if_neg (by omega)

theorem received_stopsShort (hp : m.port < 512) : StopsShort s m 3 (.received m) := by
  unfold StopsShort
  rw [received_exec hp]
  refine ⟨fun hl => ?_, fun hl hf => ?_, fun hl hf hm => ?_, fun hl hf hm hc ha => ?_⟩
  · rw [State.domRx_linkDown hl]
  · unfold State.domRx
    rw [if_neg (by simp [hl]), if_pos hf]
  · rw [State.domRx_counted hl hf, if_pos (show (s.domCounted m).domMine m = false from hm)]
  · rw [State.domRx_counted hl hf, if_neg (by simp [show (s.domCounted m).domMine m = true from hm]), if_neg (by simp [hc])]
    unfold State.domAct
    rw [if_pos (show (s.domCounted m).authOk 3 m = false from ha)]

/-- The messages of a session, by their type. -/
noncomputable def sessionRows : List (Nat × (DomIn → Instr)) :=
  [(1, .heartbeat), (2, .heartbeatAck), (3, .received), (0x10, .forwardReq), (0x11, .forwardRsp), (0x20, .prepare),
    (0x21, .vote), (0x22, .commit), (0x23, .ack), (0x24, .go), (0x25, .abort), (0x26, .outcomeQuery), (0x27, .outcome)]

theorem sessionRows_stopShort {ty : Nat} {i : DomIn → Instr} (hi : (ty, i) ∈ sessionRows) (hp : m.port < 512) :
    StopsShort s m ty (i m) := by
  simp only [sessionRows, List.mem_cons, Prod.mk.injEq, List.not_mem_nil, or_false] at hi
  rcases hi with ⟨rfl, rfl⟩ | ⟨rfl, rfl⟩ | ⟨rfl, rfl⟩ | ⟨rfl, rfl⟩ | ⟨rfl, rfl⟩ | ⟨rfl, rfl⟩ | ⟨rfl, rfl⟩ | ⟨rfl, rfl⟩ | ⟨rfl, rfl⟩
    | ⟨rfl, rfl⟩ | ⟨rfl, rfl⟩ | ⟨rfl, rfl⟩ | ⟨rfl, rfl⟩
  case inr.inr.inl => exact received_stopsShort hp
  all_goals exact stopsShort_of_domRow rfl hp

/-- The clause of O58 on the messages of a session that do not act. -/
theorem sessionRows_dropped {ty : Nat} {i : DomIn → Instr} (hi : (ty, i) ∈ sessionRows) (hp : m.port < 512) :
    ((s.port m.port).link = false → Idles (i m) s)
    ∧ ((s.port m.port).link = true → m.fcsOk = false → 60 ≤ m.raw.length → m.raw.length + 4 ≤ (s.port m.port).maxLen →
      Ends (i m) s (fun t => t.bake = s.bake
        ∧ Tab.get 0 t.tel.portCtr (22 * m.port + 2) = Tab.get 0 s.tel.portCtr (22 * m.port + 2) + 1))
    ∧ ((s.port m.port).link = true → m.fcsOk = true → s.domMine m = false → Ends (i m) s (fun t => t = s.domCounted m))
    ∧ ((s.port m.port).link = true → m.fcsOk = true → s.domMine m = true → inClear m = false → s.authOk ty m = false →
      Ends (i m) s (fun t => t.bake = { s.bake with authFails := (s.bake.authFails + 1) % 2 ^ 32 })) := by
  obtain ⟨hdown, hfcs, hmine, hauth⟩ := sessionRows_stopShort (s := s) hi hp
  exact ⟨hdown, fun hl hf h60 hmax => ends_of_exec (hfcs hl hf) (State.ctlRx_badFcs hl h60 hmax _),
    fun hl hf hm => ends_of_exec (hmine hl hf hm) rfl,
    fun hl hf hm hc ha => ends_of_exec (hauth hl hf hm hc ha) (State.authFail_bake _ m)⟩

/-! ### Accepting an authentic message -/

/-- A message that is not confirmed is accepted by the sender's record alone. -/
theorem State.domAccepted_unconfirmed (s : State) {type : Nat} (h : unconfirmed type = true) (m : DomIn) :
    s.domAccepted type m = (s.domCounted m).updPeer m.sender (fun e => e.accept (frameSeqs m.seq m.body) m.port) := if_pos h

/-- At a worker only the manager has a session. -/
theorem State.hearsDom_sender {type : Nat} (h : s.hearsDom type m) (hr : s.role = 1) : m.sender = 0 := by
  obtain ⟨-, -, -, -, hauth, -⟩ := h
  unfold State.authOk State.session at hauth
  simp only [hr, Bool.and_eq_true, if_neg (show ¬ 1 = 2 by decide), beq_iff_eq] at hauth
  obtain ⟨⟨⟨⟨⟨-, hsender⟩, -⟩, -⟩, -⟩, -⟩ := hauth
  exact hsender

/-! ### Heartbeats (R426) -/

/-- A worker that hears its manager is no longer frozen. -/
def State.unfrozen (s : State) : State :=
  if s.bake.frozen then
    (({ s with bake := { s.bake with frozen := false } }).raise 0x0E04 sevInfo (le 4 s.bake.epoch)).mismatch s.devIndex
      (s.peer 0).told s.bake.epoch
  else s

theorem State.unfrozen_frame (s : State) :
    Frame { membership := true, evt := true, telCtr := true, irq := true, out := true } s s.unfrozen := by
  have hthaw : Frame { membership := true, evt := true, telCtr := true, irq := true, out := true } s
    { s with bake := { s.bake with frozen := false } } := .ofView rfl
  unfold State.unfrozen State.mismatch
  split
  · exact State.raiseIf_frame rfl (State.raise_frame rfl hthaw _ _ _) _ _ _ _
  · exact .refl

theorem State.unfrozen_bake (s : State) : s.unfrozen.bake = { s.bake with frozen := false } := by
  unfold State.unfrozen State.mismatch
  split
  · exact (State.raiseIf_frame (Touch.or_self _) (State.raise_frame rfl .refl _ _ _) _ _ _ _).bake_eq rfl
  next h => exact congrArg (fun b => { s.bake with frozen := b }) (Bool.eq_false_iff.mpr h)

/-- What a worker records of a HEARTBEAT before it answers. -/
def State.heardBeat (s : State) (m : DomIn) : State :=
  s.unfrozen.updPeer 0 (fun p => { p with epoch := rdBe m.body 0 4, present := true, told := s.bake.epoch })

theorem State.gotBeat_eq (s : State) (m : DomIn) :
    s.gotBeat m = (s.heardBeat m).domSend 0 2 (s.heardBeat m).beatBody := rfl

theorem State.heardBeat_peer (s : State) (m : DomIn) :
    (s.heardBeat m).peer 0 = { s.peer 0 with epoch := rdBe m.body 0 4, present := true, told := s.bake.epoch } := by
  unfold State.heardBeat
  rw [State.peer_updPeer_same, s.unfrozen_frame.peer_eq rfl]

/-- What the answer says is as before: the ports to the manager, the keys and sequence, the body. -/
theorem State.heardBeat_answer (s : State) (m : DomIn) :
    (s.heardBeat m).domPorts 0 = s.domPorts 0 ∧ (s.heardBeat m).beatBody = s.beatBody
      ∧ (s.heardBeat m).bake.nextMsg = s.bake.nextMsg ∧ (∀ p, (s.heardBeat m).txClear p 7 = s.txClear p 7)
      ∧ ∀ p type id body, (s.heardBeat m).domFrame p 0 type id body = s.domFrame p 0 type id body := by
  have hpeer := s.heardBeat_peer m
  have hport : (s.heardBeat m).port = s.port := s.unfrozen_frame.port_eq rfl
  have hrole : (s.heardBeat m).role = s.role := s.unfrozen_frame.role_eq rfl
  have hbake := s.unfrozen_bake
  have hgates : (s.heardBeat m).gates = s.gates := s.unfrozen_frame.gates rfl
  have hwait : (s.heardBeat m).waiting = s.waiting := s.unfrozen_frame.waiting_eq rfl
  have hegq : (s.heardBeat m).sched.egq = s.sched.egq := s.unfrozen_frame.egq rfl
  have hrest : (s.heardBeat m).bake = { s.bake with frozen := false, peers := (s.heardBeat m).bake.peers } := by
    unfold State.heardBeat State.updPeer
    rw [hbake]
  have hdev : (s.heardBeat m).devIndex = s.devIndex := by
    unfold State.devIndex
    rw [hrole, hrest]
  refine ⟨?_, ?_, ?_, fun p => ?_, fun p type id body => ?_⟩
  · unfold State.domPorts
    rw [hpeer, hport]
  · unfold State.beatBody
    rw [hrest]
    rfl
  · rw [hrest]
  · unfold State.txClear State.classPaused State.gated State.gate SchedSt.waits
    rw [hport, hgates, hwait, hegq]
  · unfold State.domFrame State.domHead
    rw [hpeer, hport, hdev]

theorem heartbeat_ends (h : s.hearsDom 1 m) (hr : s.role = 1) :
    Ends (.heartbeat m) s (fun t => (t.peer 0).epoch = rdBe m.body 0 4 ∧ (t.peer 0).present = true
      ∧ (t.peer 0).rxHigh = (frameSeqs m.seq m.body).foldl max (s.peer 0).rxHigh ∧ t.bake.frozen = false
      ∧ ∀ p l, (s.domAccepted 1 m).domPorts 0 = p :: l → bit (s.port p).storm 7 = false →
        (s.domAccepted 1 m).Puts t p ((s.domAccepted 1 m).domFrame p 0 2 s.bake.nextMsg s.beatBody)) := by
  refine ends_of_exec (exec_atWorker h hr rfl) ?_
  have hsender := State.hearsDom_sender h hr
  have hacc := s.domAccepted_unconfirmed (type := 1) rfl m
  have hown : (s.domAccepted 1 m).peer 0 = (s.peer 0).accept (frameSeqs m.seq m.body) m.port := by
    rw [hacc, hsender, State.peer_updPeer_same]
    rfl
  have hbody : (s.domAccepted 1 m).beatBody = s.beatBody := by
    rw [hacc]
    rfl
  have hnext : (s.domAccepted 1 m).bake.nextMsg = s.bake.nextMsg := by
    rw [hacc]
    rfl
  have hstorm : (s.domAccepted 1 m).port = s.port := by
    rw [hacc]
    rfl
  generalize s.domAccepted 1 m = u at *
  obtain ⟨hports, hbeat, hid, hclear, hframe⟩ := u.heardBeat_answer m
  have hpeer := u.heardBeat_peer m
  have htells := (u.heardBeat m).domSend_tells 0 2 (u.heardBeat m).beatBody
  have hfrozen : (u.heardBeat m).bake.frozen = false := congrArg BakeSt.frozen u.unfrozen_bake
  rw [u.gotBeat_eq m]
  refine ⟨?_, ?_, ?_, ?_, fun p l hl hp => ?_⟩
  · rw [htells.read Peer.epoch (fun _ => rfl), hpeer]
  · rw [htells.read Peer.present (fun _ => rfl), hpeer]
  · rw [htells.read Peer.rxHigh (fun _ => rfl), hpeer, hown]
    rfl
  · exact ((State.domSend_frame (Touch.or_self _) .refl 0 2 _).membership rfl).1.trans hfrozen
  · have hput := State.domSend_puts (s := u.heardBeat m) (hports.trans hl)
      (by rw [show (u.heardBeat m).port = u.port from u.unfrozen_frame.port_eq rfl, hstorm]; exact hp) 2 (u.heardBeat m).beatBody
    unfold State.Puts at hput ⊢
    rw [hclear, hframe, hid, hnext, hbeat, hbody] at hput
    rwa [hbeat, hbody]

theorem heartbeatAck_ends (h : s.hearsDom 2 m) (hr : s.role = 2) :
    Ends (.heartbeatAck m) s (fun t => (t.peer m.sender).epoch = rdBe m.body 0 4 ∧ (t.peer m.sender).present = true
      ∧ (t.peer m.sender).misses = 0 ∧ (t.peer m.sender).awaitAck = false ∧ ∀ j, j ≠ m.sender → t.peer j = s.peer j) := by
  refine ends_of_exec (exec_atManager h hr rfl) ?_
  rw [s.domAccepted_unconfirmed rfl m]
  have hpeer (u : State) : (u.gotAck m).peer = (u.updPeer m.sender (fun p =>
      { p with awaitAck := false, misses := 0, present := true, epoch := rdBe m.body 0 4 })).peer := by
    unfold State.gotAck State.mismatch
    dsimp only
    split
    · rw [(State.raiseIf_frame (Touch.or_self _) .refl _ _ _ _).peer_eq rfl, (State.raiseIf_frame (Touch.or_self _) .refl _ _ _ _).peer_eq rfl]
    · rw [(State.raiseIf_frame (Touch.or_self _) .refl _ _ _ _).peer_eq rfl]
  rw [hpeer]
  refine ⟨?_, ?_, ?_, ?_, fun j hj => ?_⟩
  iterate 4 rw [State.peer_updPeer_same]
  rw [State.peer_updPeer, if_neg hj.symm, State.peer_updPeer, if_neg hj.symm]
  rfl

/-- A peer's record at the manager's tick: an unanswered HEARTBEAT counts, and the third in a row makes the peer absent. -/
def Peer.beaten (e : Peer) : Peer :=
  let n := if e.awaitAck then e.misses + 1 else e.misses
  { e with misses := min n 65535, awaitAck := true, present := e.present && !(e.present && decide (3 ≤ n)) }

/-- What the tick does to a worker's record before the HEARTBEAT goes out. -/
theorem State.beatPeer_peer (s : State) (i : Nat) : ((s.beatPeer i).peer i).unsent = (s.peer i).beaten.unsent
    ∧ ∀ j, i ≠ j → (s.beatPeer i).peer j = s.peer j := by
  unfold State.beatPeer
  dsimp only
  refine ⟨?_, fun j hj => ?_⟩
  · rw [(State.domSend_tells _ _ _ _).unsent, (State.raiseIf_frame (Touch.or_self _) .refl _ _ _ _).peer_eq rfl,
      State.peer_updPeer_same]
    rfl
  · rw [State.domSend_peer_other _ hj, (State.raiseIf_frame (Touch.or_self _) .refl _ _ _ _).peer_eq rfl, State.peer_updPeer,
      if_neg hj]

theorem State.beatPeers_other {i : Nat} {l : List Nat} (hi : i ∉ l) (s : State) : (l.foldl State.beatPeer s).peer i = s.peer i :=
  foldl_read (fun t => t.peer i) (fun t j hj => (t.beatPeer_peer j).2 i (fun h => hi (h ▸ hj))) s

theorem State.beatPeers_peer {i : Nat} {l : List Nat} (hl : l.Nodup) (hi : i ∈ l) (s : State) :
    ((l.foldl State.beatPeer s).peer i).unsent = (s.peer i).beaten.unsent := by
  induction l generalizing s with
  | nil => exact absurd hi List.not_mem_nil
  | cons j l ih =>
    obtain ⟨hj, hl⟩ := List.nodup_cons.mp hl
    rw [List.foldl_cons]
    rcases List.mem_cons.mp hi with rfl | hi
    · rw [State.beatPeers_other hj]
      exact (s.beatPeer_peer i).1
    · rw [ih hl hi, (s.beatPeer_peer j).2 i (fun h => hj (h ▸ hi))]

theorem Peer.beaten_present (e : Peer) :
    e.beaten.present = (e.present && decide ((if e.awaitAck then e.misses + 1 else e.misses) < 3)) := by
  unfold Peer.beaten
  dsimp only
  generalize (if e.awaitAck then e.misses + 1 else e.misses) = n
  cases e.present
  · rfl
  · rw [Bool.true_and, Bool.true_and, Bool.true_and, ← decide_not, decide_eq_decide]
    exact Nat.not_le

theorem heartbeatTick_ends (hr : s.role = 2) : Ends .heartbeatTick s (fun t => ∀ i, 1 ≤ i → i ≤ 63 → (s.peer i).enrolled = true →
    let n : Nat := if (s.peer i).awaitAck then (s.peer i).misses + 1 else (s.peer i).misses
    (t.peer i).awaitAck = true ∧ (t.peer i).misses = min n 65535 ∧ (t.peer i).present = ((s.peer i).present && decide (n < 3))) := by
  refine ends_of_exec (congrArg Host.Outcome.next (if_pos hr)) (fun i h1 h63 he => ?_)
  have hpeer := State.beatPeers_peer (i := i) (l := (List.range 64).filter (fun i => decide (1 ≤ i) && (s.peer i).enrolled))
    (List.nodup_range.filter _) (List.mem_filter.mpr ⟨List.mem_range.mpr (by omega), by simp [h1, he]⟩) s
  exact ⟨congrArg Peer.awaitAck hpeer, congrArg Peer.misses hpeer, (congrArg Peer.present hpeer).trans (Peer.beaten_present _)⟩

/-! ### Confirmation and resends (R425) -/

theorem State.parted_msgs (s : State) (i : Nat) : (s.parted i).bake.msgs = s.bake.msgs :=
  ((State.parted_frame (Touch.or_self _) .refl i).msgs rfl).1

/-- RECEIVED confirms its message, the one under a session a sealed message, the one in clear text one in clear text. -/
theorem received_confirms :
    (s.hearsDom 3 m → inClear m = false → Ends (.received m) s (fun t =>
      t.bake.msgs = s.bake.msgs.filter (fun x => !(x.peer == m.sender && x.id == rdBe m.body 0 2))))
    ∧ (m.port < 512 → (s.port m.port).link = true → m.fcsOk = true → s.domMine m = true → inClear m = true →
      Ends (.received m) s (fun t => t.bake.msgs =
        s.bake.msgs.filter (fun x => !(x.clear.isSome && x.peer == m.sender && x.id == rdBe m.body 0 2)))) := by
  refine ⟨fun ⟨hp, hm, hl, hf, ha, _⟩ hc => ends_of_exec (received_exec hp) ?_, fun hp hl hf hm hc => ends_of_exec (received_exec hp) ?_⟩
  · rw [State.domRx_counted hl hf, if_neg (by simp [show (s.domCounted m).domMine m = true from hm]), if_neg (by simp [hc])]
    unfold State.domAct
    rw [if_neg (by simp [show (s.domCounted m).authOk 3 m = true from ha]), if_neg (by simp),
      show (s.domCounted m).domTake 3 m = s.domAccepted 3 m from rfl, s.domAccepted_unconfirmed rfl m]
    exact State.parted_msgs _ _
  · rw [State.domRx_counted hl hf, if_neg (by simp [show (s.domCounted m).domMine m = true from hm]), if_pos hc]
    rfl

/-- A message that is not confirmed is sent again, and given up after its fifth send. -/
theorem domainResendTimeout_rows {p id : Nat} (hp : p < 64 ∨ p = 255) :
    (s.bake.msgs.find? (fun x => x.peer == p && x.id == id) = none → Idles (.domainResendTimeout p id) s)
    ∧ (∀ x, s.bake.msgs.find? (fun x => x.peer == p && x.id == id) = some x →
      (x.sends < 5 → Ends (.domainResendTimeout p id) s (fun t =>
        t.bake.msgs = s.bake.msgs.map (fun y => if y = x then { y with sends := y.sends + 1 } else y)))
      ∧ (5 ≤ x.sends → x.type ≠ 0x10 → Ends (.domainResendTimeout p id) s (fun t => x ∉ t.bake.msgs))) := by
  have hexec : exec (.domainResendTimeout p id) s = .next (s.resendMsg p id) := if_pos (by simpa [peerIndex] using hp)
  unfold State.resendMsg at hexec
  refine ⟨fun hnone => ?_, fun x hx => ⟨fun h5 => ?_, fun h5 hty => ?_⟩⟩
  · rw [hnone] at hexec
    exact hexec
  · rw [hx] at hexec
    dsimp only at hexec
    rw [if_neg (by omega)] at hexec
    refine ends_of_exec hexec ?_
    exact congrArg (List.map _) ((State.putAgain_frame (Touch.or_self _) .refl x).msgs rfl).1
  · rw [hx] at hexec
    dsimp only at hexec
    rw [if_pos h5] at hexec
    refine ends_of_exec hexec ?_
    unfold State.msgFailed
    rw [if_neg hty, State.parted_msgs]
    simp

/-! ### Loss of the manager (R426) -/

theorem managerLossTimeout_rows :
    (s.role = 1 → s.bake.enrolled = true → s.bake.frozen = false → Ends .managerLossTimeout s (fun t =>
      t.bake.frozen = true ∧ (t.peer 0).present = false ∧ t.bake.epoch = s.bake.epoch))
    ∧ (s.role ≠ 1 ∨ s.bake.enrolled = false ∨ s.bake.frozen = true → Idles .managerLossTimeout s) := by
  refine ⟨fun hr he hz => ends_of_exec (congrArg Host.Outcome.next (if_pos ⟨hr, he, by simp [hz]⟩)) ?_,
    fun h => congrArg Host.Outcome.next (if_neg (fun ⟨hr, he, hz⟩ => ?_))⟩
  · unfold State.freeze
    dsimp only
    generalize hw : ({ s.updPeer 0 (fun p => { p with present := false }) with
      bake := { (s.updPeer 0 (fun p => { p with present := false })).bake with frozen := true } } : State) = u
    have habsent : (u.peer 0).present = false := by
      rw [← hw]
      exact congrArg Peer.present (State.peer_updPeer_same s 0 (fun p => { p with present := false }))
    have htold := State.raise_frame (Touch.or_self _) (.refl (s := u.freeSet)) 0x0E03 sevWarning (le 4 s.bake.epoch)
    have hfree := State.freeSet_frame (Touch.or_self _) (.refl (s := u))
    refine ⟨?_, ?_, ?_⟩
    · rw [(htold.membership rfl).1, (hfree.membership rfl).1, ← hw]
    · rw [htold.peer_eq rfl, u.freeSet_tells.read Peer.present (fun _ => rfl), habsent]
    · rw [htold.epoch rfl, hfree.epoch rfl, ← hw]
      rfl
  · rcases h with h | h | h
    · exact h hr
    · simp [h] at he
    · exact hz h

end

end Sys2Proof.Machine

end


section
/-! PROOF. Enrolment on the domain channel: the exchange in clear text, the sealed messages of a session, and the key updates
(R422, R425, R452, R453). -/

namespace Sys2Proof.Machine

section

variable {s t : State} {m : DomIn} {x : EnrolIn}

/-! ### Messages in clear text -/

theorem State.clearSend_bake (s : State) (p dest type : Nat) (body : List Byte) :
    (s.clearSend p dest type body).bake = { s.bake with
      nextMsg := (s.bake.nextMsg + 1) % 65536
      msgs := if unconfirmed type then s.bake.msgs
        else s.bake.msgs ++ [{ peer := dest, id := s.bake.nextMsg, type, body, sends := 1, clear := some p }] } := by
  unfold State.clearSend State.keepMsg
  rw [(State.clearPut_frame (Touch.or_self _) .refl p dest type s.bake.nextMsg body).bake_eq rfl]

theorem State.clearSend_peer (s : State) (p dest type : Nat) (body : List Byte) : (s.clearSend p dest type body).peer = s.peer :=
  (State.clearSend_frame (Touch.or_self _) .refl p dest type body).peer_eq rfl

theorem State.clearSend_sent (s : State) (p dest : Nat) {type : Nat} (h : unconfirmed type = false) (body : List Byte) :
    Sent (s.clearSend p dest type body) dest type body := by
  refine ⟨⟨dest, s.bake.nextMsg, type, body, 1, some p⟩, ?_, rfl, rfl, rfl⟩
  rw [State.clearSend_bake, if_neg (by simp [h])]
  exact List.mem_append_right _ (.head _)

theorem State.clearSend_awaits (s : State) (p dest type : Nat) (body : List Byte) : s.Awaits (s.clearSend p dest type body) :=
  ((State.clearPut_frame (Touch.or_self _) .refl p dest type s.bake.nextMsg body).awaits rfl rfl).trans (State.keepMsg_awaits _ _ _ _ _)

theorem Sent.updPeer {peer type : Nat} {body : List Byte} (h : Sent s peer type body) (i : Nat) (f : Peer → Peer) :
    Sent (s.updPeer i f) peer type body := h

/-! ### The exchange in clear text (R452) -/

/-- The row of ENROL, its operands put together again. -/
theorem enrol_exec (hp : m.port < 512) : exec (.enrol m x.idx x.hash x.toEnrolShown) s = .next (s.domRx m (fun t =>
    if t.domMine m = false then t
    else if inClear m then t.clearEnrol m x
    else t.domAct 0x30 m (fun u => u.sealedSpdm m))) := if_neg (by omega)

/-- ENROL in clear text is counted and confirmed, before it acts. -/
def State.enrolHeard (s : State) (m : DomIn) : State := (s.domCounted m).clearSend m.port m.sender 3 (be 2 m.id ++ be 2 0)

theorem State.enrolHeard_frame (s : State) (m : DomIn) :
    Frame { waitTx := true, portCtr := true, msgs := true, out := true } s (s.enrolHeard m) :=
  State.clearSend_frame rfl (State.bumpPort_frame rfl (State.bumpPort_frame rfl .refl _ _ _) _ _ _) _ _ _ _

theorem State.enrolHeard_bake (s : State) (m : DomIn) :
    (s.enrolHeard m).bake = { s.bake with nextMsg := (s.bake.nextMsg + 1) % 65536 } :=
  State.clearSend_bake _ _ _ _ _

theorem State.enrolHeard_enrols (s : State) (m : DomIn) : (s.enrolHeard m).enrols = s.enrols := by
  unfold State.enrols
  rw [(s.enrolHeard_frame m).role_eq rfl, s.enrolHeard_bake m]

/-- A message in clear text, whole and for this device. -/
def State.hearsClear (s : State) (m : DomIn) : Prop :=
  m.port < 512 ∧ (s.port m.port).link = true ∧ m.fcsOk = true ∧ s.domMine m = true ∧ inClear m = true

theorem clearEnrol_exec (h : s.hearsClear m) :
    exec (.enrol m x.idx x.hash x.toEnrolShown) s = .next ((s.domCounted m).clearEnrol m x) := by
  obtain ⟨hp, hl, hf, hm, hc⟩ := h
  rw [enrol_exec hp, State.domRx_counted hl hf, if_neg (by simp [show (s.domCounted m).domMine m = true from hm]), if_pos hc]

theorem clearEnrol_atManager (h : s.hearsClear m) (hr : s.role = 2) :
    exec (.enrol m x.idx x.hash x.toEnrolShown) s = .next ((s.enrolHeard m).managerSetup m x) :=
  (clearEnrol_exec h).trans (congrArg Host.Outcome.next (if_pos (((s.enrolHeard_frame m).role_eq rfl).trans hr)))

theorem clearEnrol_atWorker (h : s.hearsClear m) (hr : s.role = 1) :
    exec (.enrol m x.idx x.hash x.toEnrolShown) s
      = .next (if s.enrols then (s.enrolHeard m).workerSetup m x else s.enrolHeard m) := by
  have hrole : (s.enrolHeard m).role = s.role := (s.enrolHeard_frame m).role_eq rfl
  rw [clearEnrol_exec h, ← s.enrolHeard_enrols m]
  exact congrArg Host.Outcome.next (if_neg (fun h2 => absurd (hr.symm.trans (hrole.symm.trans h2)) (by decide)))

/-- A side that refuses ends the exchange with END_SESSION; nothing else of it remains. -/
def State.refuses (s t : State) (m : DomIn) : Prop :=
  Sent t m.sender 0x30 endSessionMsg ∧ t.bake.setup = s.bake.setup ∧ t.bake.enrolled = s.bake.enrolled ∧ t.peer = s.peer

theorem State.endExchange_refuses (s : State) (m : DomIn) : s.refuses (s.endExchange m) m := by
  have hbake := s.clearSend_bake m.port m.sender 0x30 endSessionMsg
  exact ⟨s.clearSend_sent _ _ rfl _, (congrArg BakeSt.setup hbake :), (congrArg BakeSt.enrolled hbake :), s.clearSend_peer _ _ _ _⟩

/-- What a side raises before it refuses leaves the domain alone. -/
theorem State.refuses_of_frame {w : Touch} {u : State} (h : Frame w s u) (hm : w.membership = false) (hp : w.peers = false) :
    s.refuses (u.endExchange m) m := by
  obtain ⟨hsent, hsetup, henrolled, hpeer⟩ := u.endExchange_refuses m
  obtain ⟨-, he, -, -, hs⟩ := h.membership hm
  exact ⟨hsent, hsetup.trans hs, henrolled.trans he, hpeer.trans (h.peer_eq hp)⟩

theorem State.spdmFail_refuses (s : State) (m : DomIn) (hash : List Byte) : s.refuses ((s.spdmFail 3 hash).endExchange m) m := by
  have hfail : Frame { evt := true, telCtr := true, irq := true, out := true, free := true } s (s.spdmFail 3 hash) :=
    State.drawn_frame rfl (State.raise_frame rfl .refl _ _ _) 1
  exact State.refuses_of_frame hfail rfl rfl

/-- A session begins: a new record of the peer, with new secrets, and the other peers as before. -/
theorem State.startSession_peer (s : State) (i p : Nat) :
    (∃ tx rx, (s.startSession i p).peer i = (s.peer i).newSession p tx rx) ∧ ∀ j, j ≠ i → (s.startSession i p).peer j = s.peer j :=
  ⟨⟨be 48 s.freeVal, be 48 (s.drawn 1).freeVal,
      s.peer_updPeer_same i (fun e => e.newSession p (be 48 s.freeVal) (be 48 (s.drawn 1).freeVal))⟩,
    fun j hj => (s.peer_updPeer i j _).trans (if_neg hj.symm)⟩

theorem State.admittedAs_eq (h : t.peer = s.peer) (hash : List Byte) : t.admittedAs hash = s.admittedAs hash := by
  unfold State.admittedAs
  rw [h]

/-! At the manager. -/

/-- The first ENROL of a worker begins a set-up, the others are ignored while it runs. -/
theorem enrol_first (h : s.hearsClear m) (hr : s.role = 2) (hb : m.body = []) :
    (s.bake.setup = none → Ends (.enrol m x.idx x.hash x.toEnrolShown) s (fun t => t.bake.setup = some m.port
      ∧ Sent t m.sender 0x30 getVersionMsg ∧ ∀ j, t.peer j = s.peer j))
    ∧ (s.bake.setup ≠ none → Ends (.enrol m x.idx x.hash x.toEnrolShown) s (fun t =>
      t.bake = { s.bake with nextMsg := (s.bake.nextMsg + 1) % 65536 })) := by
  have hexec := clearEnrol_atManager (x := x) h hr
  have hbake := s.enrolHeard_bake m
  have hpeer : (s.enrolHeard m).peer = s.peer := (s.enrolHeard_frame m).peer_eq rfl
  generalize s.enrolHeard m = u at *
  unfold State.managerSetup at hexec
  rw [if_pos hb] at hexec
  refine ⟨fun hn => ?_, fun hn => ?_⟩
  · rw [if_neg (by rw [hbake]; simp [hn])] at hexec
    refine ends_of_exec hexec ⟨?_, State.clearSend_sent _ _ _ rfl _, fun j => ?_⟩
    · rw [State.clearSend_bake]
      rfl
    · rw [State.clearSend_peer, ← hpeer]
      rfl
  · rw [if_pos (by rw [hbake]; exact Option.isSome_iff_ne_none.mpr hn)] at hexec
    exact ends_of_exec hexec hbake

/-- The message that ends the exchange carries its outcome: a worker without admission or without proof is refused, another has a new
session. -/
theorem enrol_outcome (h : s.hearsClear m) (hr : s.role = 2) (hb : m.body ≠ []) (hset : s.bake.setup = some m.port)
    (hend : spdmCode m.body ≠ spdmEndSession) :
    (s.admittedAs x.hash = none → Ends (.enrol m x.idx x.hash x.toEnrolShown) s (fun t => t.bake.setup = none
      ∧ Sent t m.sender 0x30 endSessionMsg ∧ ∀ j, t.peer j = s.peer j))
    ∧ (∀ i, s.admittedAs x.hash = some i → x.root = true → x.proof = true → Ends (.enrol m x.idx x.hash x.toEnrolShown) s (fun t =>
      t.bake.setup = none ∧ (∃ tx rx, t.peer i = (s.peer i).newSession m.port tx rx) ∧ ∀ j, j ≠ i → t.peer j = s.peer j))
    ∧ (∀ i, s.admittedAs x.hash = some i → x.root = false ∨ x.proof = false → Ends (.enrol m x.idx x.hash x.toEnrolShown) s (fun t =>
      t.bake.setup = none ∧ Sent t m.sender 0x30 endSessionMsg ∧ ∀ j, t.peer j = s.peer j)) := by
  have hexec := clearEnrol_atManager (x := x) h hr
  have hbake := s.enrolHeard_bake m
  have hpeer : ((s.enrolHeard m).setSetup none).peer = s.peer := (s.enrolHeard_frame m).peer_eq rfl
  have hnone : ((s.enrolHeard m).setSetup none).bake.setup = none := rfl
  unfold State.managerSetup at hexec
  rw [if_neg hb, if_neg (by rw [hbake]; simp [hset]), if_neg hend] at hexec
  unfold State.managerEnrol at hexec
  generalize (s.enrolHeard m).setSetup none = u at *
  rw [State.admittedAs_eq hpeer] at hexec
  refine ⟨fun ha => ?_, fun i ha hroot hproof => ?_, fun i ha hx => ?_⟩ <;> rw [ha] at hexec <;> dsimp only at hexec
  · obtain ⟨hsent, hs, -, hp⟩ := State.refuses_of_frame (m := m)
      (State.raise_frame (Touch.or_self _) (.refl (s := u)) 0x0E06 sevWarning (padTo 32 x.hash)) rfl rfl
    exact ends_of_exec hexec ⟨hs.trans hnone, hsent, fun j => by rw [hp, hpeer]⟩
  · rw [if_pos (by simp [hroot, hproof])] at hexec
    obtain ⟨⟨tx, rx, hnew⟩, hother⟩ := u.startSession_peer i m.port
    refine ends_of_exec hexec ⟨hnone, ⟨tx, rx, ?_⟩, fun j hj => ?_⟩
    · rw [hnew, hpeer]
    · rw [hother j hj, hpeer]
  · rw [if_neg (by rcases hx with hx | hx <;> simp [hx])] at hexec
    obtain ⟨hsent, hs, -, hp⟩ := u.spdmFail_refuses m x.hash
    exact ends_of_exec hexec ⟨hs.trans hnone, hsent, fun j => by rw [hp, hpeer]⟩

/-! At a worker. -/

theorem State.acceptsManager_iff (s : State) (x : EnrolIn) : s.acceptsManager x = true ↔
    x.root = true ∧ x.unit = ascii "MA" ∧ x.proof = true ∧ 1 ≤ x.idx ∧ x.idx ≤ 63 ∧ (s.ident.pin = none ∨ s.ident.pin = some x.hash) := by
  unfold State.acceptsManager
  cases hp : s.ident.pin <;> simp [and_assoc]

/-- A worker that is to enrol answers GET_VERSION with its versions. -/
theorem enrol_versions (h : s.hearsClear m) (hr : s.role = 1) (he : s.enrols = true) (hcode : spdmCode m.body = spdmGetVersion) :
    Ends (.enrol m x.idx x.hash x.toEnrolShown) s (fun t =>
      Sent t m.sender 0x30 versionMsg ∧ t.bake.enrolled = s.bake.enrolled ∧ ∀ j, t.peer j = s.peer j) := by
  have hexec := clearEnrol_atWorker (x := x) h hr
  have hbody : m.body ≠ [] := fun hn => by
    rw [hn] at hcode
    exact absurd hcode (by decide)
  rw [if_pos he] at hexec
  unfold State.workerSetup at hexec
  rw [if_neg (by simp [hbody, hcode, spdmGetVersion, spdmEndSession]), if_pos hcode] at hexec
  refine ends_of_exec hexec ⟨State.clearSend_sent _ _ _ rfl _, ?_, fun j => ?_⟩
  · rw [State.clearSend_bake, s.enrolHeard_bake m]
  · rw [State.clearSend_peer, (s.enrolHeard_frame m).peer_eq rfl]

/-- The end of the exchange at a worker: the manager is accepted, or refused. -/
theorem enrol_manager (h : s.hearsClear m) (hr : s.role = 1) (he : s.enrols = true) (hb : m.body ≠ [])
    (hend : spdmCode m.body ≠ spdmEndSession) (hver : spdmCode m.body ≠ spdmGetVersion) :
    (x.root = true → x.unit = ascii "MA" → x.proof = true → 1 ≤ x.idx → x.idx ≤ 63 → s.ident.pin = none ∨ s.ident.pin = some x.hash →
      Ends (.enrol m x.idx x.hash x.toEnrolShown) s (fun t => t.bake.enrolled = true ∧ t.bake.ownIdx = x.idx
        ∧ ∃ tx rx, t.peer 0 = (s.peer 0).newSession m.port tx rx))
    ∧ (x.root = false ∨ x.unit ≠ ascii "MA" ∨ x.proof = false ∨ (∃ h, s.ident.pin = some h ∧ h ≠ x.hash) →
      Ends (.enrol m x.idx x.hash x.toEnrolShown) s (fun t => Sent t m.sender 0x30 endSessionMsg ∧ t.bake.enrolled = s.bake.enrolled
        ∧ ∀ j, t.peer j = s.peer j)) := by
  have hexec := clearEnrol_atWorker (x := x) h hr
  have hpeer : (s.enrolHeard m).peer = s.peer := (s.enrolHeard_frame m).peer_eq rfl
  have hpin : (s.enrolHeard m).ident.pin = s.ident.pin := (s.enrolHeard_frame m).pin rfl
  have henrolled : (s.enrolHeard m).bake.enrolled = s.bake.enrolled := ((s.enrolHeard_frame m).membership rfl).2.1
  rw [if_pos he] at hexec
  unfold State.workerSetup at hexec
  rw [if_neg (by simp [hb, hend]), if_neg hver] at hexec
  unfold State.workerEnrol at hexec
  generalize s.enrolHeard m = u at *
  refine ⟨fun hroot hunit hproof h1 h63 hp => ?_, fun hx => ?_⟩
  · rw [if_pos ((u.acceptsManager_iff x).mpr ⟨hroot, hunit, hproof, h1, h63, hpin ▸ hp⟩)] at hexec
    obtain ⟨⟨tx, rx, hnew⟩, -⟩ := u.startSession_peer 0 m.port
    refine ends_of_exec hexec ⟨rfl, rfl, tx, rx, ?_⟩
    rw [← hpeer, ← hnew]
    rfl
  · have hrefused : ¬ u.acceptsManager x = true := fun hacc => by
      obtain ⟨hroot, hunit, hproof, -, -, hp⟩ := (u.acceptsManager_iff x).mp hacc
      rcases hx with hx | hx | hx | ⟨k, hk, hne⟩
      · exact Bool.false_ne_true (hx.symm.trans hroot)
      · exact hx hunit
      · exact Bool.false_ne_true (hx.symm.trans hproof)
      · rw [hpin, hk] at hp
        rcases hp with hp | hp
        · exact Option.some_ne_none k hp
        · exact hne (Option.some.inj hp)
    rw [if_neg hrefused] at hexec
    obtain ⟨hsent, -, hs, hp⟩ := u.spdmFail_refuses m x.hash
    exact ends_of_exec hexec ⟨hsent, hs.trans henrolled, fun j => by rw [hp, hpeer]⟩

/-- A worker that is enrolled only confirms ENROL in clear text. -/
theorem enrol_enrolled (h : s.hearsClear m) (hr : s.role = 1) (he : s.enrols = false) :
    Ends (.enrol m x.idx x.hash x.toEnrolShown) s (fun t => t.bake = { s.bake with nextMsg := (s.bake.nextMsg + 1) % 65536 }) :=
  ends_of_exec ((clearEnrol_atWorker h hr).trans (congrArg Host.Outcome.next (if_neg (by simp [he])))) (s.enrolHeard_bake m)

/-! ### Sealed messages of a session (R453) -/

theorem sealedEnrol_exec (h : s.hearsDom 0x30 m) (hc : inClear m = false) :
    exec (.enrol m x.idx x.hash x.toEnrolShown) s = .next ((s.domAccepted 0x30 m).sealedSpdm m) := by
  obtain ⟨hp, hm, hl, hf, ha, hleave⟩ := h
  rw [enrol_exec hp, State.domRx_counted hl hf, if_neg (by simp [show (s.domCounted m).domMine m = true from hm]), if_neg (by simp [hc])]
  unfold State.domAct
  have hstay : ((s.domCounted m).peer m.sender).leaving = false := hleave.resolve_right (by decide)
  rw [if_neg (by simp [show (s.domCounted m).authOk 0x30 m = true from ha]), if_neg (by simp [hstay])]
  rfl

/-- What neither accepting a message nor sending moves in a peer's record. -/
theorem State.domAccepted_read {α : Type} (s : State) (type : Nat) (m : DomIn) (f : Peer → α) (hsend : ∀ e, f e.unsent = f e)
    (hacc : ∀ e l p, f (e.accept l p) = f e) (i : Nat) : f ((s.domAccepted type m).peer i) = f (s.peer i) := by
  have haccept : f (((s.domCounted m).updPeer m.sender (fun e => e.accept (frameSeqs m.seq m.body) m.port)).peer i) = f (s.peer i) := by
    rw [State.peer_updPeer]
    split
    next h =>
      subst h
      exact hacc _ _ _
    next => rfl
  refine Eq.trans ?_ haccept
  unfold State.domAccepted State.domTake State.confirm
  split
  · rfl
  · exact (State.domSend_tells _ _ _ _).read f hsend i

/-- The keys of peer `i` at `t` are those that follow the ones of record `e`. -/
def State.keysNext (t : State) (i : Nat) (e : Peer) : Prop :=
  (t.peer i).keyEpoch = (e.keyEpoch + 1) % 256
    ∧ (t.peer i).txSecret = nextSecret domVersion e.txSecret ∧ (t.peer i).rxSecret = nextSecret domVersion e.rxSecret

theorem State.keysNext_of {i : Nat} {e : Peer} (hk : (s.peer i).keyEpoch = e.keyEpoch) (htx : (s.peer i).txSecret = e.txSecret)
    (hrx : (s.peer i).rxSecret = e.rxSecret) : (s.updPeer i Peer.nextKeys).keysNext i e := by
  unfold State.keysNext
  rw [State.peer_updPeer_same, ← hk, ← htx, ← hrx]
  exact ⟨rfl, rfl, rfl⟩

/-- The two sides of a key update, and the end of a session at a worker. -/
theorem sealedEnrol_ends (h : s.hearsDom 0x30 m) (hc : inClear m = false) :
    (s.role = 2 → spdmCode m.body = spdmKeyUpdateAck → (s.peer m.sender).keyUpd = true →
      Ends (.enrol m x.idx x.hash x.toEnrolShown) s (fun t => t.keysNext m.sender (s.peer m.sender)))
    ∧ (s.role = 1 → spdmCode m.body = spdmKeyUpdate → Ends (.enrol m x.idx x.hash x.toEnrolShown) s (fun t =>
      t.keysNext m.sender (s.peer m.sender) ∧ Sent t 0 0x30 (be 1 0x13 ++ be 1 spdmKeyUpdateAck ++ slice m.body 2 2)))
    ∧ (s.role = 1 → spdmCode m.body = spdmEndSession → Ends (.enrol m x.idx x.hash x.toEnrolShown) s (fun t =>
      t.bake.enrolled = false ∧ t.peer 0 = Peer.init ∧ t.bake.epoch = s.bake.epoch)) := by
  have hexec := sealedEnrol_exec (x := x) h hc
  have hrole : (s.domAccepted 0x30 m).role = s.role := (s.domAccepted_frame 0x30 m).role_eq rfl
  have hepoch : (s.domAccepted 0x30 m).bake.epoch = s.bake.epoch := (s.domAccepted_frame 0x30 m).epoch rfl
  have hkey := s.domAccepted_read 0x30 m Peer.keyEpoch (fun _ => rfl) (fun _ _ _ => rfl) m.sender
  have htx := s.domAccepted_read 0x30 m Peer.txSecret (fun _ => rfl) (fun _ _ _ => rfl) m.sender
  have hrx := s.domAccepted_read 0x30 m Peer.rxSecret (fun _ => rfl) (fun _ _ _ => rfl) m.sender
  have hupd := s.domAccepted_read 0x30 m Peer.keyUpd (fun _ => rfl) (fun _ _ _ => rfl) m.sender
  generalize s.domAccepted 0x30 m = u at *
  unfold State.sealedSpdm at hexec
  rw [hrole] at hexec
  refine ⟨fun hr hcode hk => ?_, fun hr hcode => ?_, fun hr hcode => ?_⟩ <;> rw [hr] at hexec
  · rw [if_pos rfl, if_pos ⟨hcode, hupd.trans hk⟩] at hexec
    exact ends_of_exec hexec (State.keysNext_of hkey htx hrx)
  · rw [if_neg (by decide), if_pos hcode] at hexec
    have hsender := State.hearsDom_sender h hr
    have hanswer := u.domSend_tells 0 0x30 (be 1 0x13 ++ be 1 spdmKeyUpdateAck ++ slice m.body 2 2)
    refine ends_of_exec hexec ⟨?_, (u.domSend_sent 0 (by decide) _).updPeer 0 _⟩
    rw [hsender] at hkey htx hrx ⊢
    exact State.keysNext_of ((hanswer.read Peer.keyEpoch (fun _ => rfl) 0).trans hkey)
      ((hanswer.read Peer.txSecret (fun _ => rfl) 0).trans htx) ((hanswer.read Peer.rxSecret (fun _ => rfl) 0).trans hrx)
  · rw [if_neg (by decide), if_neg (by rw [hcode]; decide), if_pos hcode] at hexec
    dsimp only at hexec
    generalize hw : ({ u.updPeer 0 (fun _ => Peer.init) with
      bake := { (u.updPeer 0 (fun _ => Peer.init)).bake with enrolled := false, frozen := false, enrolling := false, ownIdx := 0xFF } } :
      State) = v at hexec
    have hinit : v.peer 0 = Peer.init := by
      rw [← hw]
      exact State.peer_updPeer_same u 0 (fun _ => Peer.init)
    have hfree := State.freeDomSet_frame (Touch.or_self _) (.refl (s := v))
    refine ends_of_exec hexec ⟨?_, ?_, ?_⟩
    · rw [(hfree.membership rfl).2.1, ← hw]
    · rw [v.freeDomSet_tells.silent 0 (by rw [hinit]; rfl), hinit]
    · rw [hfree.epoch rfl, ← hepoch, ← hw]
      rfl

/-- The manager asks an enrolled worker for a key update. -/
theorem keyUpdateTimer_rows {p : Nat} (hp : p < 64) :
    (s.role = 2 → (s.peer p).enrolled = true → Ends (.keyUpdateTimer p) s (fun t =>
      (t.peer p).keyUpd = true ∧ Sent t p 0x30 (be 1 0x13 ++ be 1 spdmKeyUpdate ++ be 1 2 ++ be 1 0)))
    ∧ (s.role ≠ 2 ∨ (s.peer p).enrolled = false → Idles (.keyUpdateTimer p) s) := by
  refine ⟨fun hr he => ends_of_exec ((if_neg (by omega)).trans (congrArg Host.Outcome.next (if_pos ⟨hr, he⟩)))
      ⟨?_, (s.domSend_sent p (by decide) _).updPeer p _⟩,
    fun h => (if_neg (by omega)).trans (congrArg Host.Outcome.next (if_neg (fun ⟨hr, he⟩ => ?_)))⟩
  · rw [State.peer_updPeer_same]
  · rcases h with h | h
    · exact h hr
    · exact Bool.false_ne_true (h.symm.trans he)

/-! ### ENROL on every domain port (R452) -/

/-- One port's ENROL. -/
def State.enrolOn (s : State) (p : Nat) : State := s.clearSend p 0 0x30 []

theorem State.enrolOn_eq (s : State) (p : Nat) : s.enrolOn p = (s.sendClass p 7 (s.clearFrame p 0 0x30 s.bake.nextMsg [])
    (fun t => t.sendNow p (s.clearFrame p 0 0x30 s.bake.nextMsg []))).keepMsg 0 0x30 [] (some p) := rfl

theorem State.sendTc7_out {o : Output} (h : o ∈ s.out) (p : Nat) (f : Output) :
    o ∈ (s.sendClass p 7 f (fun t => t.sendNow p f)).out := by
  unfold State.sendClass
  split
  · exact h
  · split
    · rw [State.sendNow_out]
      exact List.mem_cons_of_mem _ h
    · exact h

theorem State.sendTc7_waiting_other (s : State) {p q : Nat} (h : p ≠ q) (f : Output) :
    (s.sendClass p 7 f (fun t => t.sendNow p f)).waiting q = s.waiting q := by
  unfold State.sendClass
  split
  · rfl
  · split
    · rfl
    · rw [State.waiting_setWaiting, if_neg h]

theorem State.enrolOn_out {o : Output} (h : o ∈ s.out) (p : Nat) : o ∈ (s.enrolOn p).out := by
  rw [State.enrolOn_eq]
  exact State.sendTc7_out h p _

theorem State.enrolOn_waiting_other (s : State) {p q : Nat} (h : p ≠ q) : (s.enrolOn p).waiting q = s.waiting q := by
  rw [State.enrolOn_eq]
  exact s.sendTc7_waiting_other h _

theorem State.enrolOn_frame (s : State) (p : Nat) : Frame { waitTx := true, portCtr := true, msgs := true, out := true } s (s.enrolOn p) :=
  State.clearSend_frame rfl .refl p 0 0x30 []

theorem State.enrolOn_nextMsg (s : State) (p : Nat) : (s.enrolOn p).bake.nextMsg = (s.bake.nextMsg + 1) % 65536 := by
  unfold State.enrolOn
  rw [State.clearSend_bake]

/-- To another port's ENROL a port looks as before. -/
theorem State.enrolOn_txClear_other (s : State) {p q : Nat} (h : p ≠ q) : (s.enrolOn p).txClear q 7 = s.txClear q 7 := by
  have hframe := s.enrolOn_frame p
  unfold State.txClear State.classPaused State.gated State.gate SchedSt.waits
  rw [hframe.port_eq rfl, hframe.gates rfl, s.enrolOn_waiting_other h, hframe.egq rfl]

theorem State.enrolOn_clearFrame (s : State) (p : Nat) : (s.enrolOn p).clearFrame = s.clearFrame := by
  have hframe := s.enrolOn_frame p
  have hdev : (s.enrolOn p).devIndex = s.devIndex := by
    obtain ⟨-, henrolled, -, hidx, -⟩ := hframe.membership rfl
    unfold State.devIndex
    rw [hframe.role_eq rfl, henrolled, hidx]
  unfold State.clearFrame
  rw [hframe.port_eq rfl, hdev]

/-- The ENROL of one port, with the next message ID. -/
theorem State.enrolOn_puts {p : Nat} (h : bit (s.port p).storm 7 = false) :
    s.Puts (s.enrolOn p) p (s.clearFrame p 0 0x30 s.bake.nextMsg []) := State.sendTc7_puts h _

/-- What a port has put stays put as the other ports send theirs. -/
theorem State.Puts.enrolAll {p : Nat} {o : Output} {l : List Nat} (h : s.Puts t p o) (hp : p ∉ l) : s.Puts (l.foldl State.enrolOn t) p o := by
  unfold State.Puts at h ⊢
  split
  next hc =>
    rw [if_pos hc] at h
    exact State.mem_out_foldl (fun u q hu => State.enrolOn_out hu q) l h
  next hc =>
    rw [if_neg hc] at h
    rwa [foldl_read (fun u : State => u.waiting p) (fun u q hq => u.enrolOn_waiting_other (fun he => hp (he ▸ hq)))]

/-- Each of the ports sends its ENROL, with message IDs that follow each other. -/
theorem State.enrolAll_puts {l : List Nat} (hl : l.Nodup) (s : State) (hid : s.bake.nextMsg < 65536) {k p : Nat} (hk : l[k]? = some p)
    (hp : bit (s.port p).storm 7 = false) :
    s.Puts (l.foldl State.enrolOn s) p (s.clearFrame p 0 0x30 ((s.bake.nextMsg + k) % 65536) []) := by
  induction l generalizing s k with
  | nil => exact absurd hk (by simp)
  | cons q l ih =>
    obtain ⟨hq, hl⟩ := List.nodup_cons.mp hl
    rw [List.foldl_cons]
    cases k with
    | zero =>
      obtain rfl : q = p := by simpa using hk
      rw [Nat.add_zero, Nat.mod_eq_of_lt hid]
      exact (State.enrolOn_puts hp).enrolAll hq
    | succ k =>
      have hk : l[k]? = some p := by simpa using hk
      have hne : q ≠ p := fun he => hq (he ▸ List.mem_of_getElem? hk)
      have hrest := ih hl (s.enrolOn q) (by rw [State.enrolOn_nextMsg]; exact Nat.mod_lt _ (by decide)) hk
        (by rwa [(s.enrolOn_frame q).port_eq rfl])
      unfold State.Puts at hrest ⊢
      rw [s.enrolOn_txClear_other hne, s.enrolOn_clearFrame q, s.enrolOn_nextMsg q, Nat.mod_add_mod,
        Nat.add_assoc, Nat.add_comm 1 k] at hrest
      exact hrest

theorem State.enrolAll_nextMsg (l : List Nat) (s : State) (hid : s.bake.nextMsg < 65536) :
    (l.foldl State.enrolOn s).bake.nextMsg = (s.bake.nextMsg + l.length) % 65536 := by
  induction l generalizing s with
  | nil => exact (Nat.mod_eq_of_lt hid).symm
  | cons q l ih =>
    rw [List.foldl_cons, ih _ (by rw [State.enrolOn_nextMsg]; exact Nat.mod_lt _ (by decide)), State.enrolOn_nextMsg, Nat.mod_add_mod,
      List.length_cons, Nat.add_assoc, Nat.add_comm 1]

theorem State.enrolAll_awaits (l : List Nat) (s : State) : s.Awaits (l.foldl State.enrolOn s) := by
  induction l generalizing s with
  | nil => exact .refl s
  | cons q l ih => exact (s.clearSend_awaits _ _ _ _).trans (ih _)

theorem State.enrolAll_sent {l : List Nat} (hl : l ≠ []) (s : State) : Sent (l.foldl State.enrolOn s) 0 0x30 [] := by
  obtain ⟨q, l, rfl⟩ := List.exists_cons_of_ne_nil hl
  exact (s.clearSend_sent q 0 rfl []).awaited (State.enrolAll_awaits l _)

/-- The tick records whether there was a port to send on. -/
def State.setEnrolling (s : State) (b : Bool) : State := { s with bake := { s.bake with enrolling := b } }

theorem State.Puts.setEnrolling {p : Nat} {o : Output} (h : s.Puts t p o) (b : Bool) : s.Puts (t.setEnrolling b) p o := h

theorem Sent.setEnrolling {peer type : Nat} {body : List Byte} (h : Sent s peer type body) (b : Bool) :
    Sent (s.setEnrolling b) peer type body := h

theorem State.setEnrolling_nextMsg (s : State) (b : Bool) : (s.setEnrolling b).bake.nextMsg = s.bake.nextMsg := rfl

theorem enrolTick_exec (he : s.enrols = true) :
    exec .enrolTick s = .next ((s.openPorts.foldl State.enrolOn s).setEnrolling !s.openPorts.isEmpty) := by
  rw [show exec .enrolTick s = execEnrolTick s from rfl]
  unfold execEnrolTick State.enrolOn State.setEnrolling
  rw [if_pos he]

theorem enrolTick_rows :
    (s.enrols = true → s.bake.nextMsg < 65536 → Ends .enrolTick s (fun t =>
      (∀ k p, s.openPorts[k]? = some p → bit (s.port p).storm 7 = false →
        s.Puts t p (s.clearFrame p 0 0x30 ((s.bake.nextMsg + k) % 65536) []))
      ∧ t.bake.nextMsg = (s.bake.nextMsg + s.openPorts.length) % 65536 ∧ (s.openPorts ≠ [] → Sent t 0 0x30 [])))
    ∧ (s.enrols = false → Idles .enrolTick s) := by
  refine ⟨fun he hid => ends_of_exec (enrolTick_exec he) ⟨fun k p hk hp => ?_, ?_, fun hne => ?_⟩,
    fun he => congrArg Host.Outcome.next (if_neg (by simp [he]))⟩
  · exact (State.enrolAll_puts (List.nodup_range.filter _) s hid hk hp).setEnrolling _
  · rw [State.setEnrolling_nextMsg, State.enrolAll_nextMsg s.openPorts s hid]
  · exact (State.enrolAll_sent hne s).setEnrolling _

end

end Sys2Proof.Machine

end


section
/-! PROOF. The rows of the domain channel (O58), assembled from those of its messages, its timers and its enrolment. -/

namespace Sys2Proof.Machine

/-- Settles O58: messages that stop short of acting, heartbeats and loss, confirmations and resends, enrolment in clear text, the sealed
messages of a session, ENROL on every port, and the key updates. -/
theorem domainChannelRows : Obligations.DomainChannelRows := by
  unfold Obligations.DomainChannelRows
  refine ⟨fun s m ty i hp hi => sessionRows_dropped hi hp, fun s m h hr => heartbeat_ends h hr, fun s m h hr => heartbeatAck_ends h hr,
    fun s m => received_confirms, fun s p id hp => domainResendTimeout_rows hp, fun s => ⟨fun hr => ?_, heartbeatTick_ends⟩,
    fun s => managerLossTimeout_rows, fun s m x hp hl hf hm hc => ?_, fun s m x h hc => sealedEnrol_ends h hc,
    fun s => enrolTick_rows, fun s p hp => keyUpdateTimer_rows hp⟩
  · exact congrArg Host.Outcome.next (if_neg hr)
  · have h : s.hearsClear m := ⟨hp, hl, hf, hm, hc⟩
    exact ⟨fun hr hb => (enrol_first h hr hb).1, fun hr hb => (enrol_first h hr hb).2,
      fun hr hb hset hend => enrol_outcome h hr hb hset hend, enrol_versions h, fun hr he hb hend hver => enrol_manager h hr he hb hend hver,
      enrol_enrolled h⟩

end Sys2Proof.Machine

end
